-- ==== Sys2Proof/Word.lean ====
section
/-! DEFINITION. The word types of the module: bytes, 32-bit register and point words, 64-bit core words. -/
namespace Sys2Proof

/-- A 32-bit register word or point value (00 R14, 04 R139). -/
abbrev Word := BitVec 32

/-- A byte. -/
abbrev Byte := BitVec 8

/-- A 64-bit word of a core (12). -/
abbrev DWord := BitVec 64

end Sys2Proof
end

