-- ==== Sys2Proof/Config.lean ====
section
/-! DEFINITION. What an implementation fixes and the spec leaves open: the free values, opaque constants that nothing in
Lean can evaluate. -/
namespace Sys2Proof

/-- A free value: the `n`-th value that the spec leaves open in a run. The step that needs one applies it to the counter
`freeCtr` of the state and advances the counter. MARK: DESIGN CHOICE, safe (assumption 2). -/
opaque Config.freeValue : Nat → BitVec 64

/-- Whether the check of an Ed25519 signature multiplies both sides of its equation by 8: RFC 8032 lets an implementation do
either and the spec does not choose (02 R56). MARK: DESIGN CHOICE, safe (assumption 3). -/
opaque Config.edCofactor : Bool

/-- The factory key held in read-only memory of the main die (02 R67). MARK: DESIGN CHOICE, safe (assumption 3). -/
opaque Config.factoryKey : List Byte

/-- Whether a core detects tininess before rounding: IEEE 754 leaves the choice to the implementation and the spec does
not make it (12 R552). MARK: DESIGN CHOICE, safe (assumption 4). -/
opaque Config.tinyBeforeRounding : Bool

/-- Whether a fused multiply-add of zero and infinity sets INV when the addend is a quiet NaN: IEEE 754 leaves it open and the
spec does not decide it (12 R552). MARK: DESIGN CHOICE, safe (assumption 4). -/
opaque Config.fmaQuietInvalid : Bool

/-- Whether FCMPEQ (0), FCMPLT (1) and FCMPLE (2) set INV for a quiet NaN: IEEE 754 has a quiet and a signalling predicate of
each and the spec names none (12 R549, R552). MARK: DESIGN CHOICE, safe (assumption 4). -/
opaque Config.cmpQuietInvalid : Nat → Bool

/-- Whether a conversion to an integer that is not exact sets INX: IEEE 754 has conversions of both kinds and the spec names
none (12 R552). MARK: DESIGN CHOICE, safe (assumption 4). -/
opaque Config.toIntInexact : Bool

/-- What the bodies of ISLANDS hold: domains, core pairs, cluster pairs. The spec gives no layout of this body.
MARK: DESIGN CHOICE, safe (assumption 5). -/
opaque Config.parseIslands : List Byte → List Nat × List Nat × List Nat

/-- What a body of ROUTES holds: XY or YX order of each virtual channel, weights of VC1 to VC3, floor share in percent, shares of
the two tag pools by source island. MARK: DESIGN CHOICE, safe (assumption 5). -/
opaque Config.parseRoutes : List Byte → List Bool × Nat × Nat × Nat × Nat × List (Nat × Nat)

/-- What a body of SIGMAP holds: point, type code, owner kind, owner number, second owner number, persistence, initial
value. MARK: DESIGN CHOICE, safe (assumption 5). -/
opaque Config.parseSigmap : List Byte → List (Nat × Nat × Nat × Nat × Nat × Bool × Nat)

/-- The classes in use of a body of SCHEDULE. MARK: DESIGN CHOICE, safe (assumption 5). -/
opaque Config.parseSchedule : List Byte → List Nat

/-- What a body of PARAMDIR holds: target kind, its two numbers, type code, lowest and highest value.
MARK: DESIGN CHOICE, safe (assumption 5). -/
opaque Config.parseParamdir : List Byte → List (Nat × Nat × Nat × Nat × Int × Int)

/-- What a body of TRACE holds: cluster, stream capture or not, ring, base, size, point named as destination.
MARK: DESIGN CHOICE, safe (assumption 5). -/
opaque Config.parseTrace : List Byte → List (Nat × Bool × Nat × Nat × Nat × Option Nat)

/-- What a body of FIRMWARE fixes of a core pair: STVEC, MTVEC and the address of the runtime's completion stub (12 R570,
R586). MARK: DESIGN CHOICE, safe (assumption 5). -/
opaque Config.parseFirmware : List Byte → Nat × Nat × Nat

/-- What a CODE body gives for the static and the constant region of its partition. The spec gives no layout of the binary.
MARK: DESIGN CHOICE, safe (assumption 5). -/
opaque Config.parseCode : List Byte → List Byte × List Byte

/-- Where the CODE body of a partition stands in HBM: the spec names no place. MARK: DESIGN CHOICE, safe (assumption 5). -/
opaque Config.codeBase : Nat → Nat

/-- The 16 payload bytes of a downward crossing frame, as a number, from the block and what it is sent: the layout is internal
to the module (14 R621). -/
opaque Config.crossingPayload : Nat → List Nat → Nat

/-- Source address of the frames of a ring port, of line port p as number 16 + p. The spec gives none (08 R367, 11 R517). MARK:
DESIGN CHOICE, safe (assumption 96). -/
opaque Config.macSource : Nat → List Byte

/-- offsetScaledLogVariance that a module advertises by its QUALITY; the spec gives no value outside LOCKED (10 R480, R494; assumption
127). -/
opaque Config.logVariance : Nat → Nat

/-- The clockIdentity of the module (10 R480). MARK: DESIGN CHOICE, safe (assumption 103). -/
opaque Config.clockIdentity : Nat

/-- Number of segments and segment space of a census frame: kind, first position, what COMMIT carries. The spec lays out no census
frame but for its headers (08 R403). MARK: DESIGN CHOICE, safe (assumption 96). -/
opaque Config.censusSpace : Nat → Nat → List Nat → Nat × List Byte

/-- Payload of a release request for a station (08 R380). MARK: DESIGN CHOICE, safe (assumption 96). -/
opaque Config.releaseBody : Nat → List Byte

/-- Whether the module knows a version of a section's body layout: type, TYPE_VER. The spec numbers no versions (02 R52,
R54). MARK: DESIGN CHOICE, safe (assumption 5). -/
opaque Config.knownVersion : Nat → Nat → Bool

end Sys2Proof
end

