-- ==== Sys2Proof/Machine/Bits.lean ====
section
/-! DEFINITION. Bit fields, byte order and the check sums of the spec: little-endian byte strings (00 R11), register
fields (00 R10), CRC-32C (02 R55), CRC-16 (08 R369), CRC-8 (09 R439), CRC-32 (18 R770), CRC-64/ECMA-182 (07 R331). -/
namespace Sys2Proof.Machine

/-- `n` bytes of a number, little-endian (00 R11). -/
def le : Nat → Nat → List Byte
  | 0, _ => []
  | n + 1, v => BitVec.ofNat 8 v :: le n (v / 256)

/-- The number that a little-endian byte string spells (00 R11). -/
def leNat : List Byte → Nat
  | [] => 0
  | b :: t => b.toNat + 256 * leNat t

/-- Bytes `off` to `off + n − 1` of a string as a number; a byte past the end counts as zero. -/
def field (b : List Byte) (off n : Nat) : Nat := leNat ((b.drop off).take n)

/-- A byte string padded with zeros to `n` bytes. -/
def pad (n : Nat) (b : List Byte) : List Byte := (b ++ List.replicate (n - b.length) 0).take n

/-- Bits `lo + len − 1 : lo` of a number (00 R10). -/
def bitsOf (v lo len : Nat) : Nat := (v / 2 ^ lo) % 2 ^ len

/-- Bit `i` of a number. -/
def bitOf (v i : Nat) : Bool := v.testBit i

/-- Field `lo + len − 1 : lo` of a word (00 R10). -/
def getBits (w : Word) (lo len : Nat) : Nat := (w >>> lo).toNat % 2 ^ len

/-- The mask of a field of a word. -/
def maskBits (lo len : Nat) : Word := BitVec.ofNat 32 (2 ^ len - 1) <<< lo

/-- A word with one field replaced. -/
def putBits (w : Word) (lo len v : Nat) : Word :=
  (w &&& ~~~(maskBits lo len)) ||| ((BitVec.ofNat 32 (v % 2 ^ len)) <<< lo)

/-- 0 or 1. -/
def b2n (b : Bool) : Nat := if b then 1 else 0

/-- A number seen as a two's complement number of `n` bits. -/
def toSigned (n v : Nat) : Int := if v % 2 ^ n < 2 ^ (n - 1) then (v % 2 ^ n : Nat) else ((v % 2 ^ n : Nat) : Int) - 2 ^ n

/-- The two's complement pattern of `n` bits of an integer. -/
def ofSigned (n : Nat) (i : Int) : Nat := (i % 2 ^ n).toNat

/-- An integer held to a range. -/
def clampInt (lo hi v : Int) : Int := if v < lo then lo else if v > hi then hi else v

/-- One bit of a CRC reflected in input and output: shift right, divide by `poly` (given reflected). -/
def crcBitR (poly : Nat) (c : Nat) : Nat := if c % 2 = 1 then Nat.xor (c / 2) poly else c / 2

/-- One byte of a reflected CRC. -/
def crcByteR (poly c : Nat) (b : Byte) : Nat :=
  (List.range 8).foldl (fun c _ => crcBitR poly c) (Nat.xor c b.toNat)

/-- One bit of an unreflected CRC of `w` bits. -/
def crcBit (w poly c : Nat) : Nat :=
  if c.testBit (w - 1) then Nat.xor ((2 * c) % 2 ^ w) poly else (2 * c) % 2 ^ w

/-- One byte of an unreflected CRC of `w` bits. -/
def crcByte (w poly c : Nat) (b : Byte) : Nat :=
  (List.range 8).foldl (fun c _ => crcBit w poly c) (Nat.xor c (b.toNat * 2 ^ (w - 8)))

/-- CRC-32C, the Castagnoli CRC (02 R55). -/
def crc32c (b : List Byte) : Nat := Nat.xor (b.foldl (crcByteR 0x82F63B78) 0xFFFFFFFF) 0xFFFFFFFF

/-- CRC-32 of IEEE 802.3 (08 R367, 18 R770). -/
def crc32 (b : List Byte) : Nat := Nat.xor (b.foldl (crcByteR 0xEDB88320) 0xFFFFFFFF) 0xFFFFFFFF

/-- A frame of an IEEE 802.3 medium with its FCS (08 R367). -/
def withFcs (b : List Byte) : List Byte := b ++ le 4 (crc32 b)

/-- What a frame holds between its 14-byte MAC header and its FCS (08 R367). -/
def frameBody (b : List Byte) : List Byte := (b.drop 14).take (b.length - 18)

/-- C0_COUNT of a ring frame (08 R367). -/
def frameCount (b : List Byte) : Nat := field (frameBody b) 8 8

/-- FRAME_IDX of a ring frame (08 R367). -/
def frameIdx (b : List Byte) : Nat := field (frameBody b) 17 1

/-- CRC-16 of ring and line frames: polynomial 0x1021, initial value 0xFFFF (08 R369). -/
def crc16 (b : List Byte) : Nat := b.foldl (crcByte 16 0x1021) 0xFFFF

/-- CRC-8 of badger and crossing frames (09 R439). -/
def crc8 (b : List Byte) : Nat := b.foldl (crcByte 8 0x07) 0x00

/-- CRC-64/ECMA-182: polynomial 0x42F0E1EBA9EA3693, initial value 0, no reflection, no final exclusive-OR (07 R331). -/
def crc64 (b : List Byte) : Nat := b.foldl (crcByte 64 0x42F0E1EBA9EA3693) 0

end Sys2Proof.Machine
end

