-- ==== Sys2Proof/Machine/Float.lean ====
section
/-! DEFINITION. IEEE 754 binary32 and binary64 arithmetic on exact numbers, rounded once (06 R255, 12 R552). -/
namespace Sys2Proof.Machine

/-- A binary format: exponent bits and fraction bits. -/
structure Fmt where
  eb : Nat
  mb : Nat
  deriving DecidableEq, Repr

/-- binary32. -/
def f32 : Fmt := ⟨8, 23⟩

/-- binary64. -/
def f64 : Fmt := ⟨11, 52⟩

/-- Rounding modes, numbered as RM of FCSR (12 R552). -/
inductive RMode where
  | rne | rtz | rdn | rup | rmm
  deriving DecidableEq, Repr

/-- A floating value taken apart: a finite number is `(-1)^neg · m · 2^e`, with `m` not zero. -/
inductive FVal where
  | nan (signaling : Bool)
  | inf (neg : Bool)
  | zero (neg : Bool)
  | fin (neg : Bool) (m : Nat) (e : Int)
  deriving DecidableEq, Repr

/-- What an operation yields: its bit pattern and the flags it raises. -/
structure FRes where
  bits : Nat
  inv : Bool := false
  dz : Bool := false
  ovf : Bool := false
  unf : Bool := false
  inx : Bool := false
  deriving DecidableEq, Repr

/-- Number of bits of a number. -/
def bitLen (n : Nat) : Nat := if n = 0 then 0 else Nat.log2 n + 1

/-- Width of a format in bits. -/
def Fmt.width (f : Fmt) : Nat := f.eb + f.mb + 1

/-- Exponent of the least significant bit of the subnormals and of the smallest normals. -/
def Fmt.emin (f : Fmt) : Int := 2 - (2 ^ (f.eb - 1) : Nat) - (f.mb : Nat)

/-- Bit pattern of +infinity. -/
def Fmt.infBits (f : Fmt) : Nat := (2 ^ f.eb - 1) * 2 ^ f.mb

/-- The canonical NaN: sign 0 and every other bit 1 (12 R552). -/
def Fmt.nanBits (f : Fmt) : Nat := 2 ^ (f.eb + f.mb) - 1

/-- The sign bit of a pattern put in place. -/
def Fmt.sign (f : Fmt) (neg : Bool) (b : Nat) : Nat := if neg then b + 2 ^ (f.eb + f.mb) else b

/-- Taking a bit pattern apart. -/
def Fmt.unpack (f : Fmt) (bits : Nat) : FVal :=
  let frac := bits % 2 ^ f.mb
  let ex := (bits / 2 ^ f.mb) % 2 ^ f.eb
  let neg := (bits / 2 ^ (f.eb + f.mb)) % 2 = 1
  if ex = 2 ^ f.eb - 1 then
    (if frac = 0 then .inf neg else .nan (frac < 2 ^ (f.mb - 1)))
  else if ex = 0 then (if frac = 0 then .zero neg else .fin neg frac f.emin)
  else .fin neg (frac + 2 ^ f.mb) (f.emin + ((ex : Nat) : Int) - 1)

/-- Whether a magnitude cut at a rest is rounded up: the rest against one half, more non-zero bits below, oddness. -/
def roundUp (rm : RMode) (neg : Bool) (odd : Bool) (gtHalf eqHalf inexact : Bool) : Bool :=
  match rm with
  | .rne => gtHalf || (eqHalf && odd)
  | .rtz => false
  | .rdn => neg && inexact
  | .rup => !neg && inexact
  | .rmm => gtHalf || eqHalf

/-- `m · 2^e` (plus something below its last bit when `sticky`) cut to a multiple of `2^q`: the multiple, whether it is
inexact. With `sticky`, `m` carries bits below `2^q`. -/
def cutTo (rm : RMode) (neg : Bool) (m : Nat) (e q : Int) (sticky : Bool) : Nat × Bool :=
  if q ≤ e then (m * 2 ^ (e - q).toNat, sticky)
  else
    let d := (q - e).toNat
    let k := m / 2 ^ d
    let r := m % 2 ^ d
    let h := 2 ^ (d - 1)
    let inexact := sticky || decide (r ≠ 0)
    let up := roundUp rm neg (k % 2 = 1) (decide (h < r) || (decide (r = h) && sticky)) (decide (r = h) && !sticky) inexact
    (if up then k + 1 else k, inexact)

/-- Rounding a non-zero exact number to a format. -/
def Fmt.round (f : Fmt) (rm : RMode) (neg : Bool) (m : Nat) (e : Int) (sticky : Bool) : FRes :=
  let q0 := e + ((bitLen m : Nat) : Int) - (f.mb + 1 : Nat)
  let q := if q0 < f.emin then f.emin else q0
  let (k, inexact) := cutTo rm neg m e q sticky
  let b := k + (q - f.emin).toNat * 2 ^ f.mb
  -- tininess before and after rounding
  let tinyB := decide (q0 < f.emin)
  let (ku, _) := cutTo rm neg m e q0 sticky
  let tinyA := tinyB && !(decide (q0 = f.emin - 1) && decide (ku = 2 ^ (f.mb + 1)))
  let tiny := if Config.tinyBeforeRounding then tinyB else tinyA
  if f.infBits ≤ b then
    let toInf := match rm with
      | .rne => true | .rmm => true | .rtz => false | .rdn => neg | .rup => !neg
    { bits := f.sign neg (if toInf then f.infBits else f.infBits - 1), ovf := true, inx := true }
  else { bits := f.sign neg b, inx := inexact, unf := inexact && tiny }

/-- The invalid result: the canonical NaN with INV. -/
def Fmt.invalid (f : Fmt) : FRes := { bits := f.nanBits, inv := true }

/-- A NaN result from NaN operands: canonical, INV when one signals (12 R552). -/
def Fmt.nanOf (f : Fmt) (sig : Bool) : FRes := { bits := f.nanBits, inv := sig }

/-- Whether a value is a signalling NaN. -/
def FVal.isSig : FVal → Bool
  | .nan s => s
  | _ => false

/-- Whether a value is a NaN. -/
def FVal.isNan : FVal → Bool
  | .nan _ => true
  | _ => false

/-- The sign of a value; a NaN counts as positive. -/
def FVal.neg? : FVal → Bool
  | .nan _ => false
  | .inf s => s
  | .zero s => s
  | .fin s _ _ => s

/-- The value with its sign turned. -/
def FVal.flip : FVal → FVal
  | .nan s => .nan s
  | .inf s => .inf (!s)
  | .zero s => .zero (!s)
  | .fin s m e => .fin (!s) m e

/-- An exact signed number `v · 2^e` rounded; a zero takes the sign given. -/
def Fmt.ofExact (f : Fmt) (rm : RMode) (v : Int) (e : Int) (zneg : Bool) : FRes :=
  if v = 0 then { bits := f.sign zneg 0 }
  else f.round rm (decide (v < 0)) v.natAbs e false

/-- The sign of an exact zero sum of two numbers of these signs (IEEE 754). -/
def zeroSumSign (rm : RMode) (a b : Bool) : Bool := if a = b then a else decide (rm = .rdn)

/-- The signed integer of a finite value at the exponent `e`. -/
def scaled (neg : Bool) (m : Nat) (em e : Int) : Int :=
  let v : Int := ((m * 2 ^ (em - e).toNat : Nat) : Int)
  if neg then -v else v

/-- Sum of two values (12 FADD). -/
def Fmt.addV (f : Fmt) (rm : RMode) : FVal → FVal → FRes
  | .nan s, y => f.nanOf (s || y.isSig)
  | x, .nan s => f.nanOf (s || x.isSig)
  | .inf a, .inf b => if a = b then { bits := f.sign a f.infBits } else f.invalid
  | .inf a, _ => { bits := f.sign a f.infBits }
  | _, .inf b => { bits := f.sign b f.infBits }
  | .zero a, .zero b => { bits := f.sign (zeroSumSign rm a b) 0 }
  | .zero _, .fin s m e => f.round rm s m e false
  | .fin s m e, .zero _ => f.round rm s m e false
  | .fin s m e, .fin s' m' e' =>
    let q := if e < e' then e else e'
    f.ofExact rm (scaled s m e q + scaled s' m' e' q) q (zeroSumSign rm s s')

/-- Product of two values (12 FMUL). -/
def Fmt.mulV (f : Fmt) (rm : RMode) : FVal → FVal → FRes
  | .nan s, y => f.nanOf (s || y.isSig)
  | x, .nan s => f.nanOf (s || x.isSig)
  | .inf _, .zero _ => f.invalid
  | .zero _, .inf _ => f.invalid
  | .inf a, y => { bits := f.sign (xor a y.neg?) f.infBits }
  | x, .inf b => { bits := f.sign (xor x.neg? b) f.infBits }
  | .zero a, y => { bits := f.sign (xor a y.neg?) 0 }
  | x, .zero b => { bits := f.sign (xor x.neg? b) 0 }
  | .fin s m e, .fin s' m' e' => f.round rm (xor s s') (m * m') (e + e') false

/-- The product of zero and infinity plus `z`: invalid, but for a quiet NaN `z` as `Config` leaves it (12 R552). -/
def Fmt.infZero (f : Fmt) : FVal → FRes
  | .nan false => f.nanOf Config.fmaQuietInvalid
  | _ => f.invalid

/-- `x · y + z` with one rounding (12 FMAC, 06 R258). -/
def Fmt.fmaV (f : Fmt) (rm : RMode) (x y z : FVal) : FRes :=
  match x, y with
  | .nan s, y => f.nanOf (s || y.isSig || z.isSig)
  | x, .nan s => f.nanOf (s || x.isSig || z.isSig)
  | .inf _, .zero _ => f.infZero z
  | .zero _, .inf _ => f.infZero z
  | .inf a, y => f.addV rm (.inf (xor a y.neg?)) z
  | x, .inf b => f.addV rm (.inf (xor x.neg? b)) z
  | .zero a, y => f.addV rm (.zero (xor a y.neg?)) z
  | x, .zero b => f.addV rm (.zero (xor x.neg? b)) z
  | .fin s m e, .fin s' m' e' => f.addV rm (.fin (xor s s') (m * m') (e + e')) z

/-- Quotient of two values (12 FDIV), correctly rounded. -/
def Fmt.divV (f : Fmt) (rm : RMode) : FVal → FVal → FRes
  | .nan s, y => f.nanOf (s || y.isSig)
  | x, .nan s => f.nanOf (s || x.isSig)
  | .inf _, .inf _ => f.invalid
  | .zero _, .zero _ => f.invalid
  | .inf a, y => { bits := f.sign (xor a y.neg?) f.infBits }
  | .zero a, y => { bits := f.sign (xor a y.neg?) 0 }
  | x, .inf b => { bits := f.sign (xor x.neg? b) 0 }
  | .fin s _ _, .zero b => { bits := f.sign (xor s b) f.infBits, dz := true }
  | .fin s m e, .fin s' m' e' =>
    let k := bitLen m' + f.mb + 3
    let n := m * 2 ^ k
    f.round rm (xor s s') (n / m') (e - e' - (k : Nat)) (decide (n % m' ≠ 0))

/-- Integer square root by bits from the top: `fuel` steps. -/
def isqrtGo (n : Nat) : Nat → Nat → Nat
  | 0, r => r
  | k + 1, r => let c := r + 2 ^ k; isqrtGo n k (if c * c ≤ n then c else r)

/-- Integer square root. -/
def isqrt (n : Nat) : Nat := isqrtGo n (bitLen n / 2 + 1) 0

/-- Square root (12 FSQRT), correctly rounded. -/
def Fmt.sqrtV (f : Fmt) (rm : RMode) : FVal → FRes
  | .nan s => f.nanOf s
  | .zero s => { bits := f.sign s 0 }
  | .inf s => if s then f.invalid else { bits := f.infBits }
  | .fin s m e =>
    if s then f.invalid
    else
      let k := 2 * (f.mb + 3) + (if (e % 2 = 0) then 0 else 1)
      let n := m * 2 ^ k
      let r := isqrt n
      f.round rm false r ((e - (k : Nat)) / 2) (decide (r * r ≠ n))

/-- Whether `x < y` for values that are not NaN. -/
def ltV : FVal → FVal → Bool
  | .nan _, _ => false
  | _, .nan _ => false
  | .inf a, .inf b => a && !b
  | .inf a, _ => a
  | _, .inf b => !b
  | .zero _, .zero _ => false
  | .zero _, .fin s _ _ => !s
  | .fin s _ _, .zero _ => s
  | .fin s m e, .fin s' m' e' =>
    let q := if e < e' then e else e'
    decide (scaled s m e q < scaled s' m' e' q)

/-- Whether `x = y` for values that are not NaN; the zeros are equal. -/
def eqV : FVal → FVal → Bool
  | .nan _, _ => false
  | _, .nan _ => false
  | .inf a, .inf b => a == b
  | .inf _, _ => false
  | _, .inf _ => false
  | .zero _, .zero _ => true
  | .zero _, .fin _ _ _ => false
  | .fin _ _ _, .zero _ => false
  | .fin s m e, .fin s' m' e' =>
    let q := if e < e' then e else e'
    decide (scaled s m e q = scaled s' m' e' q)

/-- An integer as a floating value, rounded (12 I64TOF and its kin; 06 R259 float). -/
def Fmt.ofInt (f : Fmt) (rm : RMode) (i : Int) : FRes := f.ofExact rm i 0 false

/-- A value rounded to an integer by a mode: the integer and whether it is inexact. -/
def toIntV (rm : RMode) (neg : Bool) (m : Nat) (e : Int) : Int × Bool :=
  let (k, inx) := cutTo rm neg m e 0 false
  (if neg then -(k : Int) else (k : Int), inx)

/-- Conversion to an integer range: out of range saturates, NaN gives 0, both set INV (12 R552). -/
def Fmt.toRange (rm : RMode) (lo hi : Int) : FVal → Int × Bool × Bool
  | .nan _ => (0, true, false)
  | .inf s => (if s then lo else hi, true, false)
  | .zero _ => (0, false, false)
  | .fin s m e =>
    let (i, inx) := toIntV rm s m e
    if i < lo then (lo, true, false) else if i > hi then (hi, true, false) else (i, false, inx)

end Sys2Proof.Machine
end

