-- ==== Sys2Proof/Machine/LoopArith.lean ====
section
/-! DEFINITION. Arithmetic of the loop engine: binary32, nearest even, subnormals flushed, infinities replaced by MAXF
(06 R255 to R260); the compensated integrator (R261), clamps (R262) and biquads (R270, R271). -/
namespace Sys2Proof.Machine

/-- The largest finite binary32 (06 R252). -/
def maxF : Nat := 0x7F7FFFFF

/-- Arithmetic that counts the results replaced by MAXF (06 R257). -/
abbrev Fx := StateM Nat

/-- A subnormal pattern becomes zero of the same sign (06 R256). -/
def flush32 (b : Nat) : Nat := if (b / 2 ^ 23) % 256 = 0 then (b / 2 ^ 31) % 2 * 2 ^ 31 else b % 2 ^ 32

/-- A loop-engine operand: flushed and taken apart. -/
def lv (b : Nat) : FVal := f32.unpack (flush32 b)

/-- A result delivered by R256 and R257. -/
def fxOut (r : FRes) : Fx Nat := fun n =>
  if (r.bits / 2 ^ 23) % 256 = 255 && decide (r.bits % 2 ^ 23 = 0) then
    ((r.bits / 2 ^ 31) % 2 * 2 ^ 31 + maxF, n + 1)
  else (flush32 r.bits, n)

/-- Negation: exact. -/
def fxNeg (a : Nat) : Nat := Nat.xor (flush32 a) (2 ^ 31)

/-- Absolute value. -/
def fxAbs (a : Nat) : Nat := flush32 a % 2 ^ 31

/-- Addition. -/
def fxAdd (a b : Nat) : Fx Nat := fxOut (f32.addV .rne (lv a) (lv b))

/-- Subtraction. -/
def fxSub (a b : Nat) : Fx Nat := fxOut (f32.addV .rne (lv a) (lv b).flip)

/-- Multiplication. -/
def fxMul (a b : Nat) : Fx Nat := fxOut (f32.mulV .rne (lv a) (lv b))

/-- `a × b + c` with one rounding (06 R258). -/
def fxFma (a b c : Nat) : Fx Nat := fxOut (f32.fmaV .rne (lv a) (lv b) (lv c))

/-- float(n) of R259. -/
def fxFloat (i : Int) : Nat := flush32 (f32.ofInt .rne i).bits

/-- rint(x) of R259; a NaN counts as 0, which no law produces. -/
def fxRint (a : Nat) : Int :=
  match lv a with
  | .fin s m e => (toIntV .rne s m e).1
  | _ => 0

/-- `a < b`. -/
def fxLt (a b : Nat) : Bool := ltV (lv a) (lv b)

/-- `a ≤ b` for numbers. -/
def fxLe (a b : Nat) : Bool := ltV (lv a) (lv b) || eqV (lv a) (lv b)

/-- The sign of a number: −1, 0 or 1. -/
def fxSgn (a : Nat) : Int :=
  match lv a with
  | .fin s _ _ => if s then -1 else 1
  | .inf s => if s then -1 else 1
  | _ => 0

/-- Whether a parameter word is finite (06 R272, R273). -/
def isFinite32 (b : Nat) : Bool := decide ((b / 2 ^ 23) % 256 ≠ 255)

/-- The pair (h, l) after an increment d (06 R261). -/
def integrate (h l d : Nat) : Fx (Nat × Nat) := do
  let t ← fxAdd d l
  let s ← fxAdd h t
  let v ← fxSub s h
  let sv ← fxSub s v
  let e1 ← fxSub h sv
  let e2 ← fxSub t v
  let e ← fxAdd e1 e2
  pure (s, e)

/-- clamp(x, lo, hi) and its saturation direction σ (06 R262); a subnormal limit is delivered as zero (06 R256). -/
def clampF (x lo hi : Nat) : Nat × Int :=
  if fxLt hi x then (flush32 hi, 1) else if fxLt x lo then (flush32 lo, -1) else (flush32 x, 0)

/-- A biquad: its coefficients and states. -/
structure Biquad where
  b0 : Nat
  b1 : Nat
  b2 : Nat
  a1 : Nat
  a2 : Nat
  s1 : Nat
  s2 : Nat
  deriving DecidableEq, Repr, Inhabited

/-- One step of a biquad: output and new states (06 R270). -/
def biquadStep (q : Biquad) (x : Nat) : Fx (Nat × Nat × Nat) := do
  let y ← fxFma q.b0 x q.s1
  let t ← fxFma q.b1 x q.s2
  let s1 ← fxFma (fxNeg q.a1) y t
  let t2 ← fxMul q.b2 x
  let s2 ← fxFma (fxNeg q.a2) y t2
  pure (y, s1, s2)

/-- A chain of biquads: output and the new states in order. -/
def biquadChain : List Biquad → Nat → Fx (Nat × List (Nat × Nat))
  | [], x => pure (x, [])
  | q :: t, x => do
    let (y, s1, s2) ← biquadStep q x
    let (z, r) ← biquadChain t y
    pure (z, (s1, s2) :: r)

/-- An exact value as a signed number over `2^300`, enough for comparisons of sums of binary32 values. -/
def exact32 (b : Nat) : Int :=
  match f32.unpack b with
  | .fin s m e => scaled s m e (-300)
  | _ => 0

/-- `a ≤ b` for two binary32 words as they stand; false for a NaN. -/
def le32 (a b : Nat) : Bool := ltV (f32.unpack a) (f32.unpack b) || eqV (f32.unpack a) (f32.unpack b)

/-- What kind of number the sum of two values is: none for no number, else its sign where it is infinite and 0 where it is
finite. -/
def sumKind (x y : FVal) : Option Int :=
  let k := fun (v : FVal) => match v with
    | .inf s => if s then (-1 : Int) else 1
    | _ => 0
  if x.isNan || y.isNan || decide (k x * k y = -1) then none else some (if k x ≠ 0 then k x else k y)

/-- `a + h ≤ b − g` on exact values; false where a side is no number. -/
def leSum32 (a h b g : Nat) : Bool :=
  match sumKind (f32.unpack a) (f32.unpack h), sumKind (f32.unpack b) (f32.unpack g).flip with
  | some 0, some 0 => decide (exact32 a + exact32 h ≤ exact32 b - exact32 g)
  | some x, some y => decide (x ≤ y)
  | _, _ => false

/-- A biquad is stable when −1 < a2 < 1 and |a1| < 1 + a2 (06 R271). -/
def biquadStable (a1 a2 : Nat) : Bool :=
  let one : Int := 2 ^ 300
  isFinite32 a1 && isFinite32 a2 && decide (-one < exact32 a2) && decide (exact32 a2 < one) &&
    decide (((exact32 a1).natAbs : Int) < one + exact32 a2)

/-- Sign of a sum; zero counts as +1 (06 R265). -/
def sumSign (b : Nat) : Int := if fxSgn b < 0 then -1 else 1

/-- Sign of a biquad's DC gain (06 R265). -/
def biquadDcSign (q : Biquad) : Int :=
  let one := 0x3F800000
  let num := ((do let s ← fxAdd q.b0 q.b1; fxAdd s q.b2) : Fx Nat).run 0
  let den := ((do let s ← fxAdd one q.a1; fxAdd s q.a2) : Fx Nat).run 0
  sumSign num.1 * sumSign den.1

/-- A chain of fused multiply-adds over an index, ascending, from a starting value (06 R258). -/
def fmaChain : List (Nat × Nat) → Nat → Fx Nat
  | [], acc => pure acc
  | (a, b) :: t, acc => do
    let v ← fxFma a b acc
    fmaChain t v

/-- wrapdiff(a, b) of R259. -/
def wrapdiff (a b : Nat) : Int := toSigned 32 (a + 2 ^ 32 - b % 2 ^ 32)

end Sys2Proof.Machine
end

