-- ==== Sys2Proof/Machine/LoopLaws.lean ====
section
/-! DEFINITION. The control laws of the loop engine, one sample each, down to the single operation (06 R280 to R301), with
region selection and presets (07 R310 to R328). A law reads its words by an offset from the head slot's window (extension
slots follow at 0x400, 0x800, 0xC00) and answers what the sample writes. -/
namespace Sys2Proof.Machine

/-- An input port as copied at the close (06 R248): whether it is bound, its point type, value and quality. -/
structure InPort where
  bound : Bool := false
  typ : Nat := 4
  v : Nat := 0
  q : Nat := 1
  deriving DecidableEq, Repr, Inhabited

/-- What one sample yields (06, 07). -/
structure SampleOut where
  /-- Output ports and their words, in port order, STAT apart. -/
  outs : List (Nat × Nat) := []
  /-- State and header words written: offset, word, in offset order. -/
  writes : List (Nat × Nat) := []
  /-- A clamp saturated (06 R266). -/
  lim : Bool := false
  /-- An integrator was held (06 R264, R253). -/
  held : Bool := false
  /-- Results replaced by MAXF (06 R257). -/
  ovfl : Nat := 0
  fe : Bool := false
  /-- Stream samples replaced (06 R297). -/
  gaps : Nat := 0
  region : Nat := 0
  auto : Bool := true
  /-- w of this sample before biquad 1 (07 R325). -/
  w : Nat := 0
  /-- Manual value m and MAN_LATCHED after the sample, MANV at the latest transfer (07 R325). -/
  m : Nat := 0
  latched : Bool := false
  manref : Nat := 0
  /-- Trace nodes (07 R344). -/
  nodes : List (Nat × Nat) := []
  x : Nat := 0
  /-- A fault: kind, port and the further data of its event (06 R275, R278). -/
  fault : Option (Nat × Nat × Nat) := none
  deriving DecidableEq, Repr, Inhabited

/-- What a sample knows beside its words: the inputs, the gains in force before, the law's history. -/
structure SampleIn where
  ports : List InPort := []
  /-- First sample after image commit (06 R288, R295, 07 R313, R325). -/
  first : Bool := false
  /-- Restart by R279 at this sample; the target w* of its preset. -/
  restart : Option Nat := none
  /-- Previous sample was automatic; there was one. -/
  prevAuto : Option Bool := none
  /-- w of the previous automatic sample (07 R325). -/
  prevW : Nat := 0
  /-- Region words of the previous sample's region and VMAX, as in force at the previous sample (07 R319). -/
  oldGains : List Nat := []
  oldVmax : Nat := 0
  /-- A change set wrote a gain or limit of the region in use (06 R274, 07 R320). -/
  gainsWritten : Bool := false
  /-- Stream samples of the period, `none` where missing (06 R297). -/
  stream : List (Option Int) := []
  /-- The CAM table, and a fetch failure (06 R294). -/
  table : List Nat := []
  fetchErr : Option Nat := none
  deriving DecidableEq, Repr, Inhabited

/-- How an input port of type REAL32 reads a point (06 R252): the word, infinity seen, NaN seen. -/
def readReal (p : InPort) : Nat × Bool × Bool :=
  if !p.bound then (0, false, false)
  else
    match p.typ with
    | 0 => (if p.v % 2 ^ 32 = 0 then 0 else 0x3F800000, false, false)
    | 2 => (fxFloat (toSigned 32 p.v), false, false)
    | 3 => (fxFloat ((p.v % 2 ^ 32 : Nat) : Int), false, false)
    | _ =>
      match f32.unpack (p.v % 2 ^ 32) with
      | .nan _ => (0, false, true)
      | .inf s => (if s then 2 ^ 31 + maxF else maxF, true, false)
      | _ => (flush32 p.v, false, false)

/-- Whether a port carries VALID; an unbound port counts as VALID (06 R250). -/
def InPort.valid (p : InPort) : Bool := !p.bound || bitOf p.q 0

/-- The region selected from r by value x, with hysteresis (07 R312); `hi` and `hy` give HI and HYST of a region. -/
def regionUp (hi hy : Nat → Nat) (nreg x : Nat) : Nat → Nat → Fx Nat
  | 0, r => pure r
  | k + 1, r =>
    if r + 1 < nreg then do
      let b ← fxAdd (hi r) (hy r)
      if fxLe b x then regionUp hi hy nreg x k (r + 1) else pure r
    else pure r

/-- The downward loop of R312. -/
def regionDown (hi hy : Nat → Nat) (x : Nat) : Nat → Nat → Fx Nat
  | 0, r => pure r
  | k + 1, r =>
    if 0 < r then do
      let b ← fxSub (hi (r - 1)) (hy (r - 1))
      if fxLt x b then regionDown hi hy x k (r - 1) else pure r
    else pure r

/-- The region without hysteresis: the lowest with x < HI, or the last (07 R313). -/
def regionFresh (hi : Nat → Nat) (nreg x : Nat) : Nat :=
  ((List.range (nreg - 1)).find? (fun r => fxLt x (hi r))).getD (nreg - 1)

/-- Word `i` of region `r` (06 R306). -/
def regWord (rd : Nat → Nat) (r i : Nat) : Nat := rd (0x200 + 64 * r + 4 * i)

/-- The region of a sample: kept while SCHED lacks VALID under QPOL 1 (07 R314), fresh at a first sample or restart. -/
def selectRegion (rd : Nat → Nat) (si : SampleIn) (nreg prev x : Nat) (keep : Bool) : Fx Nat :=
  if si.first || si.restart.isSome then pure (regionFresh (fun r => regWord rd r 12) nreg x)
  else if keep then pure prev
  else do
    let up ← regionUp (fun r => regWord rd r 12) (fun r => regWord rd r 13) nreg x 8 prev
    regionDown (fun r => regWord rd r 12) (fun r => regWord rd r 13) x 8 up

/-- The manual value m, MAN_LATCHED and MANREF of a manual sample (07 R325). -/
def manualValue (si : SampleIn) (m : Nat) (latched : Bool) (manref manv : Nat) : Nat × Bool × Nat :=
  if si.first || si.restart.isSome || si.prevAuto = none then (manv, false, manref)
  else if si.prevAuto = some true then (si.prevW, true, manv)
  else if latched then (if manv = manref then (m, true, manref) else (manv, false, manref))
  else (manv, false, manref)

/-- A biquad read at an offset of coefficients and an offset of states. -/
def readBiquad (rd : Nat → Nat) (c s : Nat) : Biquad :=
  ⟨rd c, rd (c + 4), rd (c + 8), rd (c + 12), rd (c + 16), rd s, rd (s + 4)⟩

/-- The biquad with its states at zero, where a restart sets them so (06 R279). -/
def Biquad.cleared (q : Biquad) : Biquad := { q with s1 := 0, s2 := 0 }

/-- Rate clamp, then amplitude clamp: u, whether any saturated, σ of the last clamp that saturated (06 R264, R281). -/
def outClamps (w rate uPrev umin umax : Nat) : Fx (Nat × Bool × Int) := do
  let (u1, s1) ← (if fxLt 0 rate then do
      let lo ← fxSub uPrev rate
      let hi ← fxAdd uPrev rate
      pure (clampF w lo hi)
    else pure (w, (0 : Int)) : Fx (Nat × Int))
  let (u2, s2) := clampF u1 umin umax
  pure (u2, decide (s1 ≠ 0) || decide (s2 ≠ 0), if s2 ≠ 0 then s2 else s1)

/-- What the sample presets to, if anything (07 R316 to R320, R326, R327; 06 R279). `wOld` is w of the old gains. -/
def presetTarget (si : SampleIn) (auto : Bool) (m : Nat) (regionMoved : Bool) (wOld : Nat) : Option Nat :=
  if !auto then none
  else
    match si.restart with
    | some w => some w
    | none =>
      match si.prevAuto with
      | some false => some m
      | some true => if regionMoved || si.gainsWritten then some wOld else none
      | none => none

/-- A PID2 sample (06 R281). `nreg` regions, `prevReg` the region of the previous sample, `auto` the mode, `hold` by QPOL 1,
`keepReg` by R314. -/
def pid2Sample (rd : Nat → Nat) (si : SampleIn) (r y ff x manv : Nat) (auto hold keepReg : Bool)
    (nreg prevReg : Nat) (m0 : Nat) (lat0 : Bool) (mref0 : Nat) : Fx SampleOut := do
  let reg ← selectRegion rd si nreg prevReg x keepReg
  let g := fun i => regWord rd reg i
  let go := fun i => (si.oldGains[i]?).getD (regWord rd prevReg i)
  let rst := si.restart.isSome
  let ih := rd 0x180
  let il := rd 0x184
  let dstate := if rst then 0 else rd 0x188
  let yPrev := if rst then y else rd 0x18C
  let uPrev := rd 0x190
  let q1 := readBiquad rd 0x08C 0x194
  let q2 := readBiquad rd 0x0A0 0x19C
  let q1 := if rst then q1.cleared else q1
  let q2 := if rst then q2.cleared else q2
  let dp ← fxMul (g 3) dstate
  let dp ← fxFma (g 2) yPrev dp
  let ep ← fxFma (g 4) r (fxNeg y)
  let ei ← fxSub r y
  let d ← fxFma (fxNeg (g 2)) y dp
  let moved := decide (reg ≠ prevReg)
  let needOld := auto && si.restart.isNone && decide (si.prevAuto = some true) && (moved || si.gainsWritten)
  let wOld ← (if needOld then do
      let dp ← fxMul (go 3) dstate
      let dp ← fxFma (go 2) yPrev dp
      let ep ← fxFma (go 4) r (fxNeg y)
      let d ← fxFma (fxNeg (go 2)) y dp
      let w ← fxFma (go 0) ep ih
      let w ← fxAdd w d
      fxFma (go 5) ff w
    else pure 0 : Fx Nat)
  let (m, lat, mref) := if auto then (m0, lat0 && !rst, mref0) else manualValue si m0 lat0 mref0 manv
  let tgt := presetTarget si auto m0 moved wOld
  let (w, ih, il) ← (match auto, tgt with
    | false, _ => pure (m, ih, il)
    | true, some wt => do
      let p ← fxFma (g 0) ep 0
      let p ← fxAdd p d
      let p ← fxFma (g 5) ff p
      let ih ← fxSub wt p
      pure (wt, ih, 0)
    | true, none => do
      let w ← fxFma (g 0) ep ih
      let w ← fxAdd w d
      let w ← fxFma (g 5) ff w
      pure (w, ih, il) : Fx (Nat × Nat × Nat))
  let (z, bs) ← biquadChain [q1, q2] w
  let (u, lim, sg) ← outClamps z (rd 0x088) uPrev (rd 0x080) (rd 0x084)
  let di ← (if auto then fxMul (g 1) ei else pure 0 : Fx Nat)
  let deep := decide (0 < sg * (biquadDcSign q1 * biquadDcSign q2) * fxSgn di)
  let held := auto && (hold || deep)
  let (ih, il) ← (if auto && !held then integrate ih il di else pure (ih, il) : Fx (Nat × Nat))
  let pt := ((fxMul (g 0) ep).run 0).1
  let ft := ((fxMul (g 5) ff).run 0).1
  let b := fun i => (bs[i]?).getD (0, 0)
  pure {
    outs := [(8, u)]
    writes := [(0x180, ih), (0x184, il), (0x188, d), (0x18C, y), (0x190, u),
      (0x194, (b 0).1), (0x198, (b 0).2), (0x19C, (b 1).1), (0x1A0, (b 1).2)]
    lim := lim, held := held, region := reg, auto := auto, w := w, m := m, latched := lat, manref := mref, x := x
    nodes := [(1, ei), (2, pt), (3, ih), (4, d), (5, ft), (6, z), (7, u), (8, x), (10, u)] }

/-- An AXIS sample after its jump test (06 R283); `dn` is the encoder step, `enc` the count. -/
def axisSample (rd : Nat → Nat) (si : SampleIn) (enc spInt spFrac vff aff x manv : Nat) (dn : Int)
    (auto hold keepReg : Bool) (nreg prevReg : Nat) (m0 : Nat) (lat0 : Bool) (mref0 : Nat) : Fx SampleOut := do
  let reg ← selectRegion rd si nreg prevReg x keepReg
  let g := fun i => regWord rd reg i
  let go := fun i => (si.oldGains[i]?).getD (regWord rd prevReg i)
  let rst := si.restart.isSome
  let q0 := if rst then 0 else rd 0x184
  let v0 := if rst then 0 else rd 0x188
  let uPrev := rd 0x18C
  let ih := rd 0x190
  let il := rd 0x194
  let vmax := rd 0x08C
  let bq := (List.range 4).map (fun j =>
    let q := readBiquad rd (0x480 + 20 * j) (0x580 + 8 * j)
    if rst then q.cleared else q)
  let qp ← fxAdd q0 v0
  let qp ← fxFma (rd 0x0A4) uPrev qp
  let vp ← fxFma (rd 0x09C) uPrev v0
  let qp ← fxSub qp (fxFloat dn)
  let eps := fxNeg qp
  let q ← fxFma (rd 0x094) eps qp
  let v ← fxFma (rd 0x098) eps vp
  let ep := fxFloat (wrapdiff spInt enc)
  let ep ← fxAdd ep spFrac
  let ep ← fxSub ep q
  let vs ← fxMul (g 0) ep
  let vs ← fxFma (g 1) vff vs
  let (vs, sv) := clampF vs (fxNeg vmax) vmax
  let ev ← fxSub vs v
  let moved := decide (reg ≠ prevReg)
  let needOld := auto && si.restart.isNone && decide (si.prevAuto = some true) && (moved || si.gainsWritten)
  let wOld ← (if needOld then do
      let vs ← fxMul (go 0) ep
      let vs ← fxFma (go 1) vff vs
      let (vs, _) := clampF vs (fxNeg si.oldVmax) si.oldVmax
      let ev ← fxSub vs v
      let w ← fxFma (go 2) ev ih
      fxFma (go 4) aff w
    else pure 0 : Fx Nat)
  let (m, lat, mref) := if auto then (m0, lat0 && !rst, mref0) else manualValue si m0 lat0 mref0 manv
  let tgt := presetTarget si auto m0 moved wOld
  let (w, ih, il) ← (match auto, tgt with
    | false, _ => pure (m, ih, il)
    | true, some wt => do
      let p ← fxFma (g 2) ev 0
      let p ← fxFma (g 4) aff p
      let ih ← fxSub wt p
      pure (wt, ih, 0)
    | true, none => do
      let w ← fxFma (g 2) ev ih
      let w ← fxFma (g 4) aff w
      pure (w, ih, il) : Fx (Nat × Nat × Nat))
  let (z, bs) ← biquadChain bq w
  let (u, lim, sg) ← outClamps z (rd 0x088) uPrev (rd 0x080) (rd 0x084)
  let di ← (if auto then fxMul (g 3) ev else pure 0 : Fx Nat)
  let gdir := bq.foldl (fun s q => s * biquadDcSign q) (1 : Int)
  let deep := decide (0 < sg * gdir * fxSgn di)
  let held := auto && (hold || deep)
  let (ih, il) ← (if auto && !held then integrate ih il di else pure (ih, il) : Fx (Nat × Nat))
  let fe := fxLt 0 (rd 0x090) && fxLt (rd 0x090) (fxAbs ep)
  let ft := ((fxMul (g 4) aff).run 0).1
  let b := fun i => (bs[i]?).getD (0, 0)
  pure {
    outs := [(8, u), (9, ep), (10, v), (11, b2n fe)]
    writes := [(0x180, enc), (0x184, q), (0x188, v), (0x18C, u), (0x190, ih), (0x194, il),
      (0x580, (b 0).1), (0x584, (b 0).2), (0x588, (b 1).1), (0x58C, (b 1).2),
      (0x590, (b 2).1), (0x594, (b 2).2), (0x598, (b 3).1), (0x59C, (b 3).2)]
    lim := lim || decide (sv ≠ 0), held := held, fe := fe, region := reg, auto := auto, w := w, m := m, latched := lat
    manref := mref, x := x
    nodes := [(1, ep), (2, ev), (3, ih), (4, v), (5, ft), (6, z), (7, u), (8, x), (10, u), (11, ep), (12, v), (13, b2n fe)] }

/-- Word pair at an offset as a signed 64-bit integer. -/
def rd64 (rd : Nat → Nat) (o : Nat) : Int := toSigned 64 (rd o % 2 ^ 32 + 2 ^ 32 * (rd (o + 4) % 2 ^ 32))

/-- acc and the step of the master position of a CAM sample; a first sample or restart takes acc0 (06 R292, R295). -/
def camAcc (rd : Nat → Nat) (fresh : Bool) (mpos : Nat) : Int × Int :=
  let dm := if fresh then 0 else wrapdiff mpos (rd 0x188)
  (toSigned 64 (ofSigned 64 (if fresh then rd64 rd 0x09C else rd64 rd 0x180 + dm)), dm)

/-- The index of the table point at or before the phase of a CAM sample (06 R292). -/
def camIndex (rd : Nat → Nat) (fresh : Bool) (mpos : Nat) : Int :=
  let a := camAcc rd fresh mpos
  let mcounts : Int := (rd 0x080 : Nat)
  ((a.1 + (rd 0x098 : Nat) * a.2 - rd64 rd 0x090) % mcounts * (rd 0x084 : Nat)) / mcounts

/-- A CAM sample (06 R292, R295). -/
def camSample (rd : Nat → Nat) (si : SampleIn) (mpos : Nat) : Fx SampleOut := do
  let fresh := si.first || si.restart.isSome
  let mcounts : Int := (rd 0x080 : Nat)
  let npts : Int := (rd 0x084 : Nat)
  let lift := toSigned 32 (rd 0x088)
  let soff := toSigned 32 (rd 0x08C)
  let moff := rd64 rd 0x090
  let lead : Int := (rd 0x098 : Nat)
  let inv := rd 0x0A4
  let (acc, dm) := camAcc rd fresh mpos
  let pos := acc + lead * dm - moff
  let cyc := pos / mcounts
  let ph := pos % mcounts
  let i := camIndex rd fresh mpos
  let s ← fxMul (fxFloat ((ph * npts) % mcounts)) inv
  let li := (ph * lift) / mcounts
  let lf ← fxMul (fxFloat ((ph * lift) % mcounts)) inv
  let pt := fun k : Int => (si.table[((i + k) % npts).toNat]?).getD 0
  let p0 := pt (-1)
  let p1 := pt 0
  let p2 := pt 1
  let p3 := pt 2
  let two := 0x40000000
  let c1 ← fxSub p2 p0
  let c2 ← fxMul two p0
  let c2 ← fxFma 0xC0A00000 p1 c2
  let c2 ← fxFma 0x40800000 p2 c2
  let c2 ← fxSub c2 p3
  let c3 ← fxSub p1 p2
  let c3 ← fxFma 0x40400000 c3 p3
  let c3 ← fxSub c3 p0
  let h ← fxFma s c3 c2
  let h ← fxFma s h c1
  let hs ← fxMul 0x3F000000 s
  let y ← fxFma hs h p1
  let s3 ← fxMul 0x40400000 s
  let c22 ← fxMul two c2
  let g ← fxFma s3 c3 c22
  let g ← fxFma s g c1
  let yd ← fxMul 0x3F000000 g
  let tot ← fxAdd y lf
  let k := fxRint tot
  let spInt := ofSigned 32 (soff + cyc * lift + li + k)
  let spFrac ← fxSub tot (fxFloat k)
  let ds ← fxMul (fxFloat (dm * npts)) inv
  let vel ← fxMul yd ds
  let vel ← fxFma (fxFloat (dm * lift)) inv vel
  let a ← (if fresh then pure 0 else fxSub vel (rd 0x18C) : Fx Nat)
  pure {
    outs := [(8, spInt), (9, spFrac), (10, vel), (11, a)]
    writes := [(0x180, ofSigned 64 acc % 2 ^ 32), (0x184, ofSigned 64 acc / 2 ^ 32), (0x188, mpos), (0x18C, vel)]
    nodes := [(10, spInt), (11, spFrac), (12, vel), (13, a)] }

/-- The running values of a FILT sample. -/
structure FiltAcc where
  pk : Nat
  dc : Nat
  out : Nat
  xPrev : Int
  gaps : Nat
  bq : List Biquad
  deriving DecidableEq, Repr

/-- One stream sample through the filter bank (06 R297). -/
def filtStep (scale offset dec : Nat) (a : FiltAcc) (raw : Option Int) : Fx FiltAcc := do
  let x24 := raw.getD a.xPrev
  let x ← fxFma (fxFloat x24) scale offset
  let (x, bs) ← biquadChain a.bq x
  let bq := (a.bq.zip bs).map (fun (q, s) => { q with s1 := s.1, s2 := s.2 })
  let ab := fxAbs x
  let pk := if fxLt a.pk ab then ab else a.pk
  let last := decide (a.dc + 1 = dec)
  pure { pk := pk, dc := if last then 0 else a.dc + 1, out := if last then x else a.out, xPrev := x24,
         gaps := a.gaps + (if raw.isNone then 1 else 0), bq := bq }

/-- All stream samples of a period. -/
def filtRun (scale offset dec : Nat) : FiltAcc → List (Option Int) → Fx FiltAcc
  | a, [] => pure a
  | a, r :: t => do
    let b ← filtStep scale offset dec a r
    filtRun scale offset dec b t

/-- x_prev of a FILT sample: at a restart the first sample of the input copy that is there (06 R279). MARK: DESIGN CHOICE
(assumption 74). -/
def filtPrev (rd : Nat → Nat) (si : SampleIn) : Int :=
  if si.restart.isSome then ((si.stream.filterMap (fun x => x)).head?).getD (toSigned 32 (rd 0x1C8)) else toSigned 32 (rd 0x1C8)

/-- A FILT sample (06 R297, R298). Words: RING 0x080, CHAN 0x084, NBQ 0x088, DEC 0x08C, SCALE 0x090, OFFSET 0x094,
biquads from 0x098; state: s1 and s2 of eight biquads from 0x180, dc 0x1C0, out 0x1C4, x_prev 0x1C8. -/
def filtSample (rd : Nat → Nat) (si : SampleIn) : Fx SampleOut := do
  let fresh := si.first || si.restart.isSome
  let nbq := if rd 0x088 ≤ 8 then rd 0x088 else 8
  let bq := (List.range nbq).map (fun j =>
    let q := readBiquad rd (0x098 + 20 * j) (0x180 + 8 * j)
    if si.restart.isSome then q.cleared else q)
  let a ← filtRun (rd 0x090) (rd 0x094) (rd 0x08C)
    { pk := 0, dc := if fresh then 0 else rd 0x1C0, out := if fresh then 0 else rd 0x1C4, xPrev := filtPrev rd si,
      gaps := 0, bq := bq } si.stream
  let bw := ((List.range nbq).zip a.bq).flatMap (fun (j, q) => [(0x180 + 8 * j, q.s1), (0x184 + 8 * j, q.s2)])
  pure {
    outs := [(8, a.out), (9, a.pk)]
    writes := bw ++ [(0x1C0, a.dc), (0x1C4, a.out), (0x1C8, ofSigned 32 a.xPrev)]
    gaps := a.gaps
    nodes := [(10, a.out), (11, a.pk)] }

/-- An output of SS4 with its clamp (06 R300). -/
def ss4Out (rd : Nat → Nat) (nx : Nat) (xh uu : List Nat) (j : Nat) : Fx (Nat × Int) := do
  let cy ← fmaChain ((List.range nx).map (fun i => (rd (0x900 + 4 * (8 * j + i)), (xh[i]?).getD 0))) 0
  let yy ← fmaChain ((List.range 4).map (fun m => (rd (0xC80 + 4 * (4 * j + m)), (uu[m]?).getD 0))) cy
  pure (clampF yy (rd (0x088 + 4 * j)) (rd (0x098 + 4 * j)))

/-- All outputs. -/
def ss4Outs (rd : Nat → Nat) (nx : Nat) (xh uu : List Nat) : List Nat → Fx (List (Nat × Int))
  | [] => pure []
  | j :: t => do
    let y ← ss4Out rd nx xh uu j
    let r ← ss4Outs rd nx xh uu t
    pure (y :: r)

/-- One state of SS4: its new pair and whether saturation held it (06 R300, R301). -/
def ss4State (rd : Nat → Nat) (nx : Nat) (xh xl uu : List Nat) (sig : List Int) (hold : Bool) (i : Nat) :
    Fx (Nat × Nat × Bool) := do
  let dx ← fmaChain ((List.range nx).map (fun n => (rd (0x480 + 4 * (8 * i + n)), (xh[n]?).getD 0))) 0
  let dx ← fmaChain ((List.range 4).map (fun m => (rd (0x880 + 4 * (4 * i + m)), (uu[m]?).getD 0))) dx
  let deep := (List.range 4).any (fun j =>
    let s := (sig[j]?).getD 0
    decide (s ≠ 0) && bitOf (rd 0x084) (8 * j + i) &&
      decide (0 < s * fxSgn (rd (0x900 + 4 * (8 * j + i))) * fxSgn dx))
  let h := (xh[i]?).getD 0
  let l := (xl[i]?).getD 0
  if hold || deep then pure (h, l, true)
  else do
    let (h', l') ← integrate h l dx
    pure (h', l', false)

/-- All states. MARK: DEDUCED: every increment is formed from the states of the sample before, as x(k+1) = A x(k) + B u(k) says (06
SS4); the lines of R300 taken one by one would let a state read those already integrated (assumption 126). -/
def ss4States (rd : Nat → Nat) (nx : Nat) (xh xl uu : List Nat) (sig : List Int) (hold : Bool) :
    List Nat → Fx (List (Nat × Nat × Bool))
  | [] => pure []
  | i :: t => do
    let a ← ss4State rd nx xh xl uu sig hold i
    let r ← ss4States rd nx xh xl uu sig hold t
    pure (a :: r)

/-- The scaled inputs of SS4. -/
def ss4Ins (gu : Nat → Nat) : List (Nat × Nat) → Fx (List Nat)
  | [] => pure []
  | (m, u) :: t => do
    let a ← fxMul (gu m) u
    let r ← ss4Ins gu t
    pure (a :: r)

/-- An SS4 sample (06 R299 to R301, 07 R321). Words: NX 0x080, FREEZE 0x084, YMIN 0x088, YMAX 0x098; DA in the first
extension from 0x080, B and C in the second from 0x080 and 0x100, D in the third from 0x080; xh from 0x180, xl from 0x1A0. -/
def ss4Sample (rd : Nat → Nat) (si : SampleIn) (us : List Nat) (x : Nat) (hold keepReg : Bool) (nreg prevReg : Nat) :
    Fx SampleOut := do
  let reg ← selectRegion rd si nreg prevReg x keepReg
  let nx := if rd 0x080 ≤ 8 then rd 0x080 else 8
  let rst := si.restart.isSome
  let xh := (List.range nx).map (fun i => if rst then 0 else rd (0x180 + 4 * i))
  let xl := (List.range nx).map (fun i => if rst then 0 else rd (0x1A0 + 4 * i))
  let uu ← ss4Ins (fun m => regWord rd reg m) ((List.range 4).zip us)
  let ys ← ss4Outs rd nx xh uu [0, 1, 2, 3]
  let st ← ss4States rd nx xh xl uu (ys.map (·.2)) hold (List.range nx)
  let hw := ((List.range nx).zip st).map (fun (i, p) => (0x180 + 4 * i, p.1))
  let lw := ((List.range nx).zip st).map (fun (i, p) => (0x1A0 + 4 * i, p.2.1))
  pure {
    outs := ((List.range 4).zip ys).map (fun (j, p) => (8 + j, p.1))
    writes := hw ++ lw
    lim := ys.any (fun p => decide (p.2 ≠ 0))
    held := st.any (fun p => p.2.2)
    region := reg, x := x
    nodes := [(8, x)] ++ ((List.range 4).zip ys).map (fun (j, p) => (10 + j, p.1)) }

end Sys2Proof.Machine
end

