-- ==== Sys2Proof/Machine/Tab.lean ====
section
/-! DEFINITION. Sparse tables and byte memories: lists of pairs in one canonical form, keys strictly rising and no entry
equal to what an unlisted key reads as. -/
namespace Sys2Proof.Machine

/-- A sparse table: keys strictly rising, no entry equal to the table's default. -/
abbrev Tab (α : Type) := List (Nat × α)

/-- The entry of key `i`; the default `d` where none is listed. -/
def tget {α : Type} (d : α) : Tab α → Nat → α
  | [], _ => d
  | (k, v) :: t, i => if k = i then v else tget d t i

/-- The table without key `i`. -/
def tdel {α : Type} : Tab α → Nat → Tab α
  | [], _ => []
  | (k, v) :: t, i => if k = i then tdel t i else (k, v) :: tdel t i

/-- The table with key `i` listed with `v`. -/
def tins {α : Type} : Tab α → Nat → α → Tab α
  | [], i, v => [(i, v)]
  | (k, w) :: t, i, v =>
    if k = i then (i, v) :: t else if i < k then (i, v) :: (k, w) :: t else (k, w) :: tins t i v

/-- The table after key `i` is given `v`: the default is not listed. -/
def tset {α : Type} [DecidableEq α] (d : α) (t : Tab α) (i : Nat) (v : α) : Tab α :=
  if v = d then tdel t i else tins t i v

/-- The table after key `i` is changed by `f`. -/
def tmod {α : Type} [DecidableEq α] (d : α) (t : Tab α) (i : Nat) (f : α → α) : Tab α := tset d t i (f (tget d t i))

/-- The table with every listed entry changed by `f`. -/
def tall {α : Type} [DecidableEq α] (d : α) (f : α → α) : Tab α → Tab α
  | [] => []
  | (k, v) :: t => if f v = d then tall d f t else (k, f v) :: tall d f t

/-- The entries of a table whose keys satisfy a condition. -/
def tkeep {α : Type} (p : Nat → Bool) : Tab α → Tab α
  | [] => []
  | (k, v) :: t => if p k then (k, v) :: tkeep p t else tkeep p t

/-- The canonical form above a bound: every key at or above `lo`, strictly rising, no value equal to the default. -/
def twfFrom {α : Type} [DecidableEq α] (d : α) : Nat → Tab α → Bool
  | _, [] => true
  | lo, (k, v) :: t => decide (lo ≤ k) && !decide (v = d) && twfFrom d (k + 1) t

/-- The canonical form. -/
def twf {α : Type} [DecidableEq α] (d : α) (t : Tab α) : Bool := twfFrom d 0 t

/-- A byte memory: the bytes that differ from what an unlisted address reads as (assumption 1). -/
abbrev Memory := Tab Byte

/-- What an unlisted address of a byte memory reads as. MARK: DESIGN CHOICE, unsafe (assumption 1). -/
def Memory.blank : Byte := 0

/-- One byte of a memory. -/
def Memory.read (m : Memory) (a : Nat) : Byte := tget Memory.blank m a

/-- A memory after one byte is written. -/
def Memory.write (m : Memory) (a : Nat) (b : Byte) : Memory := tset Memory.blank m a b

/-- `n` bytes from address `a`. -/
def Memory.readN (m : Memory) (a : Nat) : Nat → List Byte
  | 0 => []
  | n + 1 => Memory.read m a :: Memory.readN m (a + 1) n

/-- A memory after a byte string is written from address `a`. -/
def Memory.writeN (m : Memory) (a : Nat) : List Byte → Memory
  | [] => m
  | b :: t => Memory.writeN (Memory.write m a b) (a + 1) t

/-- A list without repeats, first occurrences kept. -/
def dedupN : List Nat → List Nat
  | [] => []
  | x :: t => x :: (dedupN t).filter (fun y => y ≠ x)

/-- A list with one entry changed. -/
def setAt {α : Type} (l : List α) (n : Nat) (f : α → α) : List α := l.mapIdx (fun i x => if i = n then f x else x)

/-- Whether an address is one of the `n` from `a`. -/
def inSpan (a n k : Nat) : Bool := decide (a ≤ k) && decide (k < a + n)

/-- A memory after `n` bytes from address `a` are erased. -/
def Memory.erase (m : Memory) (a n : Nat) : Memory := tkeep (fun k => !inSpan a n k) m

/-- The canonical form of a byte memory. -/
def Memory.wf (m : Memory) : Bool := twf Memory.blank m

end Sys2Proof.Machine
end

