-- ==== Sys2Proof/Machine/Types.lean ====
section
/-! DEFINITION. Data types of the parts of the state: the sections of a running image, the key store, change sets,
the event recorder, the signal image, partitions (chapters 02, 03, 04, 05, 17). -/
namespace Sys2Proof.Machine

/-- The owner of a point (01 R40, 04 R139). -/
inductive Owner where
  | unused
  | part (p : Nat)
  | slot (s : Nat)
  | station (ring st : Nat)
  | di (n : Nat)
  | dout (n : Nat)
  | trip (n : Nat)
  | aio (n : Nat)
  | can (ch buf : Nat)
  | link (sub : Nat)
  deriving DecidableEq, Repr, Inhabited

/-- One point of SIGMAP (04 R139, R140): type code 0 BOOL, 1 BITS32, 2 INT32, 3 UINT32, 4 REAL32. -/
structure PointInfo where
  typ : Nat := 0
  owner : Owner := .unused
  persist : Bool := false
  init : Word := 0
  deriving DecidableEq, Repr, Inhabited

/-- Value word and quality byte of a point (04 R139, R143). -/
structure PointVal where
  v : Word := 0
  q : Byte := 0
  deriving DecidableEq, Repr, Inhabited

/-- ROUTES (03 R110, R114, R119, R131), with the tags that each source island holds of the VC0 pool and of the other. The factory
safe image states no shares: MARK: DESIGN CHOICE: the pools are then shared out evenly (assumption 89). -/
structure Routes where
  shares : List (Nat × Nat) := List.replicate 224 (18, 54)
  yx : List Bool := [false, false, false, false]
  w1 : Nat := 4
  w2 : Nat := 1
  w3 : Nat := 11
  floorPct : Nat := 25
  deriving DecidableEq, Repr, Inhabited

/-- The HBM hash key: masks M0 to M4 and K (03 R126). -/
structure HbmKey where
  m : List Nat := [0, 0, 0, 0, 0]
  k : Nat := 0
  deriving DecidableEq, Repr, Inhabited

/-- One entry of PARTITIONS with its point lists (05 R198). -/
structure PartRec where
  part : Nat
  cls : Nat := 0
  core : Nat := 0
  prio : Nat := 0
  runLimit : Nat := 8
  faultLimit : Nat := 3
  startHalted : Bool := false
  entry : Nat := 0
  inputs : List Nat := []
  outputs : List Nat := []
  fastOff : Nat := 0
  staticBase : Nat := 0
  constBase : Nat := 0
  stackBase : Nat := 0
  staticSize : Nat := 0
  constSize : Nat := 0
  stackSize : Nat := 0
  /-- Where the CODE body stands, and what the static and the constant region hold at image commit (assumption 5). -/
  codeBase : Nat := 0
  statics : List Byte := []
  consts : List Byte := []
  deriving DecidableEq, Repr, Inhabited

/-- A target of PARAMDIR (02 R79, 04 R177). -/
inductive ParamTarget where
  | slotWord (slot off : Nat)
  | partConst (part off : Nat)
  | forceSet (point : Nat)
  | forceClear (point : Nat)
  deriving DecidableEq, Repr, Inhabited

/-- One entry of PARAMDIR: its target, type code and limits, the limits as values of the type (02 R81). -/
structure ParamEntry where
  target : ParamTarget
  typ : Nat := 3
  lo : Int := 0
  hi : Int := 4294967295
  deriving DecidableEq, Repr, Inhabited

/-- One entry of STATEMAP (02 R92). -/
structure MapEntry where
  kind : Nat
  xform : Nat := 0
  old : Nat := 0
  new : Nat := 0
  span : Nat := 1
  deriving DecidableEq, Repr, Inhabited

/-- A code record of EVENTS (17 R761). -/
structure CodeRec where
  code : Nat
  rate : Nat := 10
  burst : Nat := 20
  clear : Nat := 0
  noLimit : Bool := false
  keyLen : Nat := 0
  deriving DecidableEq, Repr, Inhabited

/-- A plant port record of EVENTS (17 R761). -/
structure PlantRec where
  v4Active : Nat := 0
  v4A : Nat := 0
  v4B : Nat := 0
  v6Active : Nat := 0
  v6A : Nat := 0
  v6B : Nat := 0
  deriving DecidableEq, Repr, Inhabited

/-- EVENTS (17 R761). -/
structure EventsSec where
  noMonitor : Bool := false
  idleS : Nat := 60
  ports : List PlantRec := [{}, {}]
  codes : List CodeRec := []
  deriving DecidableEq, Repr, Inhabited

/-- PANEL (18 R766): section name and texts by event code. -/
structure PanelSec where
  name : List Byte := []
  texts : List (Nat × List Byte) := []
  deriving DecidableEq, Repr, Inhabited

/-- One trace or stream-capture claim of TRACE (07 R352, 08 R413). -/
structure TraceClaim where
  cluster : Nat
  capture : Bool := false
  ring : Nat := 0
  base : Nat := 0
  size : Nat := 0
  dest : Option Nat := none
  deriving DecidableEq, Repr, Inhabited

/-- A choice of profile (02 R73 to R76). -/
inductive Choice where
  | slot (n : Nat)
  | factory
  deriving DecidableEq, Repr, Inhabited

/-- State of a key slot (02 R61). -/
inductive KeyState where
  | empty
  | enabled
  | revoked
  deriving DecidableEq, Repr, Inhabited

/-- A key slot (02 R61). -/
structure KeySlot where
  st : KeyState := .empty
  key : List Byte := []
  deriving DecidableEq, Repr, Inhabited

/-- Flash metadata of a profile slot (02 R70, IMG_SLOT0 to IMG_SLOT3): 0 EMPTY, 1 WRITING, 2 VALID, 3 INVALID. -/
structure SlotMeta where
  st : Nat := 0
  keySlot : Nat := 0
  lenMib : Nat := 0
  deriving DecidableEq, Repr, Inhabited

/-- An entry of a change set (02 R79). -/
structure CsEntry where
  idx : Nat
  val : Word
  deriving DecidableEq, Repr, Inhabited

/-- A staged change set (02 R79, R82, R84). -/
structure ChangeSet where
  num : Nat
  ident : List Byte := []
  cls : Nat := 0
  named : Nat := 0
  persist : Bool := false
  entries : List CsEntry := []
  /-- Staged completely in the partner (02 R82). -/
  partnerStaged : Bool := false
  /-- Boundaries of delay so far (02 R84). -/
  delay : Nat := 0
  deriving DecidableEq, Repr, Inhabited

/-- An entry waiting for the first own boundary of its target (02 R86). -/
structure Deferred where
  target : ParamTarget
  cls : Nat
  val : Word
  deriving DecidableEq, Repr, Inhabited

/-- An active force (04 R176, R191). -/
structure Force where
  point : Nat
  persist : Bool := false
  value : Word := 0
  owner : PointVal := {}
  /-- Entry number in the force table window. -/
  entry : Nat := 0
  deriving DecidableEq, Repr, Inhabited

/-- An entry of the persistent-force region of MRAM (04 R187). -/
structure PForce where
  point : Nat
  value : Word
  ident : List Byte
  deriving DecidableEq, Repr, Inhabited

/-- A raise on its way to the recorder (17 R748, R749). -/
structure Raise where
  code : Nat
  island : Nat
  data : List Byte := []
  /-- Recorder tick of 1 µs at which the message arrives (17 R748). -/
  tick : Nat := 0
  opsec : Nat := 0
  /-- Raised before the recorder ran (16 R705). -/
  early : Bool := false
  deriving DecidableEq, Repr, Inhabited

/-- An event record (17 R745). -/
structure EvRecord where
  seq : Nat
  code : Nat
  severity : Nat
  island : Nat
  ltValid : Bool := false
  early : Bool := false
  opsec : Nat := 0
  pwrcyc : Nat := 0
  c0 : Nat := 0
  lineTime : Nat := 0
  data : List Byte := []
  deriving DecidableEq, Repr, Inhabited

/-- The token bucket of a code (17 R752, R753): tokens in units of 10^-9, the instant of the last refill in ns. -/
structure Bucket where
  nano : Nat
  at_ : Nat
  suppressed : Nat := 0
  firstC0 : Nat := 0
  lastC0 : Nat := 0
  deriving DecidableEq, Repr, Inhabited

/-- An active fault (17 R755). -/
structure ActiveFault where
  seq : Nat
  code : Nat
  severity : Nat
  island : Nat
  count : Nat := 1
  opsec : Nat := 0
  key : List Byte := []
  data : List Byte := []
  deriving DecidableEq, Repr, Inhabited

/-- The recorder's own state (17); its counters and flags are the EVT_ registers. -/
structure Recorder where
  queue : List Raise := []
  /-- Tick of the latest 0xE102 raise (17 R749). -/
  lostTick : Option Nat := none
  buckets : Tab (Option Bucket) := []
  faults : List ActiveFault := []
  unlisted : Nat := 0
  /-- Records not yet archived with the instants of their acceptance, in ns (17 R756). -/
  accepted : List (Nat × Nat) := []
  deriving DecidableEq, Repr, Inhabited

/-- The hardware states of a partition (05 R240), numbered as CYC_PSTATE shows them. -/
inductive PState where
  | unused | waiting | running | done | overrun | late | rollback | halted
  deriving DecidableEq, Repr, Inhabited

/-- A partition command waiting for its release (05 R225). -/
structure PartCmd where
  restart : Bool
  /-- First boundary at which it can take effect (05 R225, 04 R833). -/
  at_ : Nat
  deriving DecidableEq, Repr, Inhabited

/-- A release that waits (05 R222, R225, R232): its boundary, its input area with the release record as the close formed it, the
constants due at it, the skips counted by then. -/
structure HeldRelease where
  n : Nat := 0
  area : List Byte := []
  consts : List (Nat × Word) := []
  skips : Nat := 0
  deriving DecidableEq, Repr, Inhabited

/-- State of one partition beside its CYC_ registers (05). -/
structure PartState where
  /-- Release boundary of the current activation. -/
  release : Nat := 0
  /-- C0 count of the image that its commit enters: release + 2^k (05 R200). -/
  due : Nat := 0
  /-- Releases skipped since the previous release that ran (05 R205). -/
  skipped : Nat := 0
  /-- Activations run since image commit (05 R205 RUNS). -/
  runs : Nat := 0
  first : Bool := true
  restarted : Bool := false
  lateFlag : Bool := false
  /-- The input area, 0 or 1, that the latest freeze wrote (05 R203). -/
  area : Nat := 0
  /-- The input area of the checkpoint, the edge reference (05 R220). -/
  ckptArea : Nat := 0
  /-- Addresses of the static lines whose old contents stand in the undo journal (05 R221). -/
  undo : List Nat := []
  /-- Constant writes waiting for the next release that runs (05 R210). -/
  constWait : List (Nat × Word) := []
  /-- Constant values replaced since the checkpoint: address, old value (05 R222). -/
  constUndo : List (Nat × Word) := []
  /-- Latest committed value of each declared output (05 R203). -/
  committed : List (Nat × Word) := []
  /-- The constants that the latest release applied (05 R210). -/
  constLast : List (Nat × Word) := []
  /-- Line times of the aborts within the last second, and whether they reached the fault limit (05 R223). -/
  aborts : List Nat := []
  limit : Bool := false
  /-- Line time of the latest release (05 R217); its activation has started (05 R230); C0 count of the cycle in which it last ran
  (05 R229). -/
  relAt : Nat := 0
  started : Bool := false
  ranAt : Nat := 0
  cmd : Option PartCmd := none
  /-- The activation's run included a slow cycle (05 R229). -/
  slowRun : Bool := false
  /-- The latest activation has overrun (05 R212, R229). -/
  overran : Bool := false
  /-- Number of indexed writes of the activation (05 R152, assumption 12). -/
  idxCount : Nat := 0
  /-- Core time of the activation in ns (05 CYC_PRUN). -/
  coreNs : Nat := 0
  /-- Stack lines that the activation wrote (12 R572). -/
  stackLines : List Nat := []
  /-- A release that runs when the rollback completes: its boundary and the inputs frozen at its close (05 R222, R225); whether it
  is a restart, and whether the partition halts instead. -/
  relWait : Option HeldRelease := none
  thenRelease : Bool := false
  thenHalt : Bool := false
  deriving DecidableEq, Repr, Inhabited

/-- What a commit record lists (05 R232). -/
structure CommitRecord where
  /-- C0 count of the image that the staging instant completes. -/
  image : Nat := 0
  commits : List Nat := []
  overruns : List Nat := []
  /-- Aborted by the run limit, and ended in another way: partition and release of the activation. -/
  runLimit : List (Nat × Nat) := []
  ended : List (Nat × Nat) := []
  skipped : List Nat := []
  /-- Partitions of a FAULTY core pair that the active holds until a switchover (19 R790). -/
  held : List Nat := []
  deriving DecidableEq, Repr, Inhabited

/-- A pending clear of slot flags: the bits and the first boundary at which it is applied (06 R267). -/
structure FlagClear where
  mask : Nat
  at_ : Nat
  deriving DecidableEq, Repr, Inhabited

/-- State of one head slot beside its window (06, 07). -/
structure SlotDyn where
  /-- Inputs copied at the close (06 R248). -/
  inCopy : List InPort := []
  stream : List (Option Int) := []
  /-- Boundary of the sample in progress or of the latest sample. -/
  boundary : Nat := 0
  /-- A sample is released and not yet complete. -/
  busy : Bool := false
  first : Bool := true
  prevAuto : Option Bool := none
  prevW : Nat := 0
  oldGains : List Nat := []
  oldVmax : Nat := 0
  gainsWritten : Bool := false
  /-- Restart by R279 waiting for the sample at its boundary. -/
  restart : Bool := false
  /-- Output ports that have had a normal delivery since image commit (06 R276). -/
  delivered : List Nat := []
  /-- Results waiting for the staging instant (07 R332). -/
  result : Option SampleOut := none
  /-- The sample is held (07 R333). -/
  holding : Bool := false
  /-- Clears that wait for their boundary (06 R267). -/
  clr : List FlagClear := []
  /-- The input copy met a poisoned word (07 R333). -/
  poison : Bool := false
  /-- Comparison word of the latest sample (07 R331). -/
  cmpWord : Nat := 0
  deriving DecidableEq, Repr, Inhabited

/-- Why a sample is held (07 R333, R335). -/
inductive HoldCause where
  | mismatch
  | deadline
  | access
  | poison
  deriving DecidableEq, Repr, Inhabited

/-- The trace of one cluster beside its registers (07 R345, R346): rings of (word, count), oldest first, per channel. -/
structure Trace where
  rings : List (List (Nat × Nat)) := []
  /-- Records written in each channel since arming, and since the trigger. -/
  since : List Nat := []
  post : List Nat := []
  prevRec : Option Nat := none
  lost : Nat := 0
  deriving DecidableEq, Repr, Inhabited

/-- What belongs to a completed capture beside its records in HBM (07 R349, R351): its channel configuration, TRC_TIME, records of
each channel. -/
structure CaptureInfo where
  config : List Nat := []
  trigCount : Nat := 0
  records : Nat := 0
  deriving DecidableEq, Repr, Inhabited

/-- A capture kept in the capture store (03 R135, 07 R351): its flash address and size. -/
structure Capture where
  cluster : Nat
  number : Nat
  info : CaptureInfo
  addr : Nat
  size : Nat
  deriving DecidableEq, Repr, Inhabited

/-- Loop engine state beside the LPE_ registers and the slot windows (06, 07). -/
structure LoopState where
  slots : Tab SlotDyn := []
  /-- Deadline misses of each cluster pair within 1 s: line time and C0 cycle (07 R336). -/
  misses : Tab (List (Nat × Nat)) := []
  /-- Misses of samples that ran on the spare pair. -/
  spareMisses : List (Nat × Nat) := []
  /-- C0 count at which a pair was moved to the spare pair (07 R340). -/
  moved : Tab Nat := []
  /-- C0 cycle in which 0x5011 was last raised, per pair (07 R335). -/
  lateEvt : Tab (Option Nat) := []
  traces : Tab Trace := []
  /-- Captures completed by a cluster, of which TRC_DONE shows the low 16 bits. -/
  taken : Tab Nat := []
  /-- The captures in the HBM buffers, by 16 × cluster + number mod 16 (07 R349). -/
  held : Tab CaptureInfo := []
  store : List Capture := []
  /-- Boundary whose phase P has started (05 R237). -/
  phaseP : Option Nat := none
  deriving DecidableEq, Repr, Inhabited

/-- A station record of RINGS (08 R415). -/
structure StnRec where
  num : Nat
  c0 : Bool := false
  safeAuto : Bool := false
  stopAct : Bool := false
  dmax : Nat := 0
  vendor : Nat := 0
  device : Nat := 0
  serial : Nat := 0
  deriving DecidableEq, Repr, Inhabited

/-- A segment record of RINGS (08 R415). -/
structure SegRec where
  station : Nat
  kind : Nat
  cls : Nat := 0
  segId : Nat := 0
  frame : Nat := 0
  offset : Nat := 0
  len : Nat := 0
  mapFirst : Nat := 0
  mapN : Nat := 0
  deriving DecidableEq, Repr, Inhabited

/-- A channel record of RINGS (08 R409, R415). -/
structure ChanRec where
  chan : Nat
  station : Nat
  cls : Nat := 0
  m : Nat := 1
  deriving DecidableEq, Repr, Inhabited

/-- A map entry: point, byte, bit, encoding (08 R370, R415). -/
structure MapRec where
  point : Nat
  byte : Nat := 0
  bit : Nat := 0
  enc : Nat := 0
  deriving DecidableEq, Repr, Inhabited

/-- A ring record of RINGS (08 R415), defaults selected. -/
structure RingRec where
  ring : Nat
  rate : Nat := 1
  fec : Nat := 0
  hold : Nat := 3
  margin : Nat := 500
  ethertype : Nat := 0x88B5
  applyOff : Nat := 19000
  group : Nat := 0
  noiseLimit : Nat := 20
  stns : List StnRec := []
  segs : List SegRec := []
  chans : List ChanRec := []
  maps : List MapRec := []
  deriving DecidableEq, Repr, Inhabited

/-- A module's copy of a segment of the cycle (08 R381): the burst's EPOCH and ACTIVE flag, the segment's flags. -/
structure SegCopy where
  valid : Bool := false
  payload : List Byte := []
  sflags : Nat := 0
  digest : Nat := 0
  epoch : Nat := 0
  active : Bool := false
  deriving DecidableEq, Repr, Inhabited

/-- What a module knows of the partner's copy of a publication at the coupling deadline (08 R385 to R387, 11 R521): no word of it, a
digest of an invalid copy, a digest of a valid copy that differs and is not here in full, the full copy. -/
inductive PartnerCopy where
  | silent
  | invalid
  | digest
  | full (vals : List PointVal)
  deriving DecidableEq, Repr, Inhabited

/-- What agreement chose for a publication of one boundary (11 R521): values where any, SOURCE, AGREE_DIFF, the copies that there were,
and whether the close record lists it (08 R387, R389). -/
structure SubResolution where
  vals : Option (List PointVal) := none
  source : Nat := 0
  diff : Bool := false
  copies : Nat := 0
  listed : Bool := false
  deriving DecidableEq, Repr, Inhabited

/-- What agreement chose for a segment: payload where any, SOURCE, AGREE_DIFF (08 R386). -/
structure Resolution where
  payload : Option (List Byte) := none
  source : Nat := 0
  diff : Bool := false
  /-- Resolved through R387 and listed in the close record. -/
  listed : Bool := false
  deriving DecidableEq, Repr, Inhabited

/-- Agreement state of one segment in the current cycle (08 R385 to R389). -/
structure SegState where
  own : Option SegCopy := none
  partner : Option SegCopy := none
  /-- The partner's copy has arrived in full. -/
  full : Bool := false
  /-- A difference of two valid copies has been counted. -/
  noted : Bool := false
  res : Option Resolution := none
  deriving DecidableEq, Repr, Inhabited

/-- Output states of a station (08 R380). -/
inductive StnMode where
  | run | hold | safe
  deriving DecidableEq, Repr, Inhabited

/-- A census entry (08 R406, R834): how many stations from the port of twin A or B its START had reached it, and the position
that the module takes from that; identity, timestamps, PREP, R380 state, counters, looping. -/
structure CensusEntry where
  hops : Nat
  fromB : Bool := false
  pos : Nat := 0
  vendor : Nat := 0
  device : Nat := 0
  serial : Nat := 0
  /-- Ingress and egress timestamps of the frame head on both ports, in ns of line time; none where it did not pass. -/
  inA : Option Nat := none
  outA : Option Nat := none
  inB : Option Nat := none
  outB : Option Nat := none
  prep : Nat := 0
  mode : StnMode := .run
  looping : Bool := false
  /-- A looping station has no link on its B-side port, so it stands on the line fed from twin A. -/
  lostB : Bool := false
  aLost : Nat := 0
  bLost : Nat := 0
  bothLost : Nat := 0
  safeEntries : Nat := 0
  fcsA : Nat := 0
  fcsB : Nat := 0
  linkChanges : Nat := 0
  deriving DecidableEq, Repr, Inhabited

/-- When the head of a START frame left and reached the ports of twin A and twin B, in ns of line time (08 R391). -/
structure CensusEnds where
  outA : Option Nat := none
  inA : Option Nat := none
  outB : Option Nat := none
  inB : Option Nat := none
  deriving DecidableEq, Repr, Inhabited

/-- A schedule: RX_DL, ACYC_START, LAA per station and path, open flags (08 R392 to R394); delay of a frame from launch to the
far module but for its T_ser, in ns (08 R397). -/
structure Sched where
  rxDl : Nat := 18000
  acyc : Nat := 18000
  path : Nat := 0
  laa : List (Nat × Nat × Nat) := []
  schedOpen : Bool := false
  loopOpen : Bool := false
  deriving DecidableEq, Repr, Inhabited

/-- A census frame as the active orders it (08 R403): 1 START, 2 READ from a first position on, 3 COMMIT with the schedule, the
boundary and the end of loopback. -/
structure CensusOrder where
  kind : Nat
  first : Nat := 0
  sched : Sched := {}
  at_ : Nat := 0
  endLoop : Bool := false
  /-- C0 count of the cycle in whose window it goes out (08 R834). -/
  window : Nat := 0
  deriving DecidableEq, Repr, Inhabited

/-- A frame of the acyclic window (08 R390, R397): a census frame, or a release request for a station. -/
inductive AcycFrame where
  | census (o : CensusOrder)
  | release (station : Nat)
  deriving DecidableEq, Repr, Inhabited

/-- States of a ring's census (08 R403). -/
inductive CensusState where
  | idle | count | read | commit
  deriving DecidableEq, Repr, Inhabited

/-- A module's record of one listed station (08 R405 to R408). -/
structure StnState where
  /-- FCS errors of the section on its B side in the latest censuses, newest first. -/
  fcs : List Nat := []
  quiet : Nat := 0
  noisy : Bool := false
  prep : Nat := 0
  safe : Bool := false
  /-- The state has been read once (08 R380, R838). -/
  seen : Bool := false
  /-- Link changes that the latest entry counted (08 R406). -/
  links : Nat := 0
  /-- The station reported loopback at the latest census (08 R401). -/
  looping : Bool := false
  laaA : Nat := 0
  laaB : Nat := 0
  worst : Nat := 0
  deriving DecidableEq, Repr, Inhabited

/-- A digest of the partner (08 R385): ring, segment index, CRC-32C, validity; EPOCH and ACTIVE of the burst that brought the
copy. -/
structure DigestMsg where
  ring : Nat
  seg : Nat
  crc : Nat := 0
  valid : Bool := false
  epoch : Nat := 0
  active : Bool := false
  deriving DecidableEq, Repr, Inhabited

/-- State of one ring beside its RNG_ registers (08). -/
structure RingState where
  ownUp : Bool := false
  partnerUp : Bool := true
  segs : Tab SegState := []
  /-- A frame of the burst arrived in this cycle; RX_DL has passed in it; looped frames were seen in this cycle or the one
  before. -/
  gotFrame : Bool := false
  deadline : Bool := false
  loopNow : Bool := false
  looped : Bool := false
  /-- Payload of each output segment in the previous burst (08 R384). -/
  prevOut : Tab (List Byte) := []
  /-- Output segments whose staging was not complete at t0 + 29 µs. -/
  unstaged : List Nat := []
  census : CensusState := .idle
  restarts : Nat := 0
  /-- START frames launched and not yet back: own end, partner's end. -/
  awaitOwn : Bool := false
  awaitPartner : Bool := false
  entries : List CensusEntry := []
  startIds : List (Nat × Nat × Nat × Nat) := []
  /-- The START frame came back directly, through every station; the port number it arrived at on the other twin. -/
  direct : Bool := false
  farPort : Nat := 0
  /-- A restart is due in the next acyclic window. -/
  again : Bool := false
  /-- FCS errors at the module's own port that no census has counted; those that the census counts at both ends of the ring. -/
  portFcs : Nat := 0
  fcsTwinA : Nat := 0
  fcsTwinB : Nat := 0
  /-- Timestamps of START at the ports of the twins. -/
  ends : CensusEnds := {}
  /-- The C0 cycles in which the START and READ frames not yet back were launched. The first cycle whose window may take a restart. -/
  sent : List Nat := []
  restartN : Nat := 0
  /-- Frames that wait for an acyclic window, the instant from which the port is free, the delay to the far module (08
  R397). -/
  acycWait : List AcycFrame := []
  acycFree : Nat := 0
  path : Nat := 0
  commitAt : Nat := 0
  nextSched : Sched := {}
  sinceStart : Nat := 0
  everStarted : Bool := false
  censusNow : Bool := false
  endLoop : Bool := false
  committed : Bool := false
  miscabled : Bool := false
  foreign : Bool := false
  stns : Tab StnState := []
  /-- Noise of the section between twin A's port and the first station. -/
  first : StnState := {}
  /-- Acyclic replies waiting for an image: its C0 count, segment station, payload points (08 R390). -/
  acyclic : List (Nat × List (Nat × Word)) := []
  /-- Agreed stream segments of the latest close: channel, boundary, samples (08 R412). -/
  streams : Tab (List (Option Int)) := []
  /-- Segment and point of every entry of encoding 8 that read 1 when its segment last entered an image (08 R416). -/
  overs : List (Nat × Nat) := []
  scapPos : Nat := 0
  deriving DecidableEq, Repr, Inhabited

/-- The commands of the active's partner that carry a staged switch (09 R459): boundary, cause, acknowledged. -/
structure Switch where
  at_ : Nat
  /-- Cause code of TWN_LAST_CHANGE (09). -/
  cause : Nat
  acked : Bool := false
  /-- Restart this module once the switchover is done (09 R464, 16 R716): reset cause. -/
  thenRestart : Option Nat := none
  /-- The old active becomes DIVERGED (09 R446). -/
  diverge : Bool := false
  /-- The switchover of a handover change (02 R101). -/
  ho : Bool := false
  deriving DecidableEq, Repr, Inhabited

/-- A signature formed and waiting for the partner's (09 R433, R434): class 0 to 7 or 8 for the state signature, the C0
count it belongs to, its value. -/
structure Sig where
  kind : Nat
  count : Nat
  val : Nat
  deriving DecidableEq, Repr, Inhabited

/-- Twin state beside its TWN_ registers (09). -/
structure TwinState where
  /-- Highest epoch received during listening (09 R426). -/
  listenEpoch : Option Nat := none
  /-- A valid ring frame with ACTIVE set arrived during listening (09 R429). -/
  ringActive : Bool := false
  raised7002 : Bool := false
  /-- Instant at which listening began (09 R422, R429). -/
  listenFrom : Nat := 0
  /-- Partner heard: on fox (its TSTATE), on badger (ACTIVE set). -/
  foxHeard : Option Nat := none
  badgerHeard : Option Bool := none
  /-- Partner is home (its HOME flag), twin position from its flags. -/
  partnerHome : Bool := false
  partnerSuspect : Bool := false
  partnerFailing : Bool := false
  partnerImage : List Byte := []
  /-- The partner's profile slot, as step CHECK of a join gave it (02 R78). -/
  partnerSlot : Option Nat := none
  /-- The partner is in join step SHADOW or FIRST_MATCH; it is in FIRST_MATCH. -/
  partnerShadow : Bool := false
  partnerFirst : Bool := false
  /-- A valid fox word arrived in the current C0 cycle; complete C0 cycles of silence; badger periods of silence. -/
  foxThisCycle : Bool := false
  foxSilent : Nat := 0
  badgerSilent : Nat := 0
  everFox : Bool := false
  everBadger : Bool := false
  /-- Instants in ns: the latest valid fox word, the end of the latest valid badger frame, the start of the latest badger frame sent
  (09 R439, R440, R442). -/
  foxAt : Option Nat := none
  badgerRxAt : Option Nat := none
  badgerAt : Option Nat := none
  suspectSince : Nat := 0
  failing : Bool := false
  resetHeld : Bool := false
  /-- The winner of a tie-break increments its epoch at its next C0 boundary (09 R458). -/
  tieWin : Bool := false
  /-- The active was declared lost: cause 1 silence, 2 failing message; takeover at the next C0 boundary (09 R448, R449). -/
  lost : Option Nat := none
  switch : Option Switch := none
  /-- Standby: boundary of a switch record that it acknowledged. -/
  switchTo : Option Nat := none
  /-- Line time of the latest role change; whether there was one (09 R462, R472). -/
  lastChange : Option Nat := none
  days : Nat := 0
  /-- Line time at which the revert timer started (09 R463). -/
  revertFrom : Option Nat := none
  /-- Line times of lag cycles within 1 s, of divergences within an hour (09 R429, R837). -/
  lags : List Nat := []
  lagNow : Bool := false
  divs : List Nat := []
  /-- C0 counts of internal faults of this module and of the partner (09 R444). -/
  ownFaults : List Nat := []
  partnerFaults : List Nat := []
  /-- Own signatures waiting, partner's signatures waiting (09 R436). -/
  sigs : List Sig := []
  partnerSigs : List Sig := []
  /-- Parts of the next state signature (09 R434): comparison words with boundary and slot, commit CRCs. -/
  cmpWords : List (Nat × Nat × Nat) := []
  commitCrcs : List (Nat × Nat × Nat) := []
  /-- Join (09 R465): start instant of the attempt, of the TIME hold; granules to copy, copied, dirty; M; classes reached. -/
  joinStart : Nat := 0
  fromCopy : Bool := false
  retry : Bool := false
  granules : Nat := 0
  copied : Nat := 0
  joinM : Nat := 0
  reached : List Nat := []
  firstMatchAt : Nat := 0
  classMatched : List Nat := []
  badgerSeq : Nat := 0
  /-- The active: boundary M of the join copy that the partner has taken (09 R468, R469). -/
  fwdFrom : Option Nat := none
  /-- C0 count of the cycle whose staging instant has come (05 R209). -/
  stagedAt : Option Nat := none
  /-- Copy burst received from the active for the next launch (02 R99, R100). -/
  copyBurst : List (Nat × List Byte) := []
  /-- C0 count of the staging instant whose commit record has come, or was declared missing (05 R232, R234). -/
  commitRec : Option Nat := none
  /-- Boundary whose close record has come, or was declared missing (08 R389); of the image that stands closed. -/
  closeRec : Option Nat := none
  /-- Partitions and head slots whose commit and state the standby takes from the active (05 R234, 07 R338). -/
  lagParts : List Nat := []
  lagSlots : List Nat := []
  /-- The state signature of a C5 boundary still open for its sweep stripe: the boundary and the CRC so far (09 R434). -/
  sigOpen : Option (Nat × Nat) := none
  burstOff : Bool := false
  /-- A release of ACTIVE that a reception demands (09 R455, R458): why (0 lost tie-break, 1 fox, 2 badger, 3 ring, 4 line)
  and the epoch received. -/
  release : Option (Nat × Nat) := none
  /-- The active: a switchover that waits for the first boundary that 09 R459 allows (09 R446, R464). -/
  owed : Option Switch := none
  /-- The old active of the present boundary: it launches the burst of that boundary with ACTIVE clear, then restarts where a cause
  stands (09 R460, R464, 16 R716). -/
  outgoing : Option (Option Nat) := none
  /-- Instant at which the current tenth of a second of the handover window began (02 R106). -/
  hoAt : Option Nat := none
  deriving DecidableEq, Repr, Inhabited

end Sys2Proof.Machine
end

