-- ==== Sys2Proof/Machine/TypesCore.lean ====
section
/-! DEFINITION. Data types of the Tchicel core pairs and of access control (chapters 12, 13). -/
namespace Sys2Proof.Machine

/-- A store that waits in the commit buffer for its signature window (12 R578): address, size in bytes, value. -/
structure BufStore where
  addr : Nat
  size : Nat
  val : Nat
  deriving DecidableEq, Repr, Inhabited

/-- One core pair: both cores hold the same values (12 R575). Level 0 U, 1 S, 3 M (12 CORE_STATUS). -/
structure CoreState where
  pc : DWord := 0
  level : Nat := 3
  /-- g1 to g7 (12 R535). -/
  g : Tab DWord := []
  /-- Windows 0 to 14: key 16 w + i, i from 0 for k0 to k7 and from 8 for d0 to d7 (12 R538). -/
  win : Tab DWord := []
  /-- The trap window, by register number (12 R536). -/
  trap : Tab DWord := []
  f : Tab DWord := []
  fcsr : DWord := 0
  wstate : DWord := 0
  spillPtr : DWord := 0
  spillLim : DWord := 0
  tpc : DWord := 0
  tstatus : DWord := 0
  tval : DWord := 0
  xpc : DWord := 0
  xstatus : DWord := 0
  xwstate : DWord := 0
  xspill : DWord := 0
  xspillLim : DWord := 0
  stvec : DWord := 0
  timecmp : DWord := 0
  ipend : DWord := 0
  tcause : DWord := 0
  instret : DWord := 0
  mtvec : DWord := 0
  lsStatus : DWord := 0
  dupOn : Bool := false
  /-- An injection test runs (12 R581). -/
  testing : Bool := false
  /-- The monitor handles a double fault (12 R569). -/
  inDouble : Bool := false
  /-- A lockstep reset runs (12 R580). -/
  resetting : Bool := false
  buf : List BufStore := []
  /-- Address of a store answered with an error and not yet charged (12 R559, R566, R567). -/
  storeErr : Option Nat := none
  /-- The signature of the open window (12 R577). -/
  sig : Nat := 18446744073709551615
  /-- Signature windows closed since the latest test-lane window (12 R582). -/
  windows : Nat := 0
  /-- Partition of the current and of the other U context (12 R573). -/
  cur : Option Nat := none
  oth : Option Nat := none
  /-- Partitions of contexts that the runtime holds in memory, the latest first (05 R208; 12 R574). -/
  deep : List Nat := []
  /-- Partitions frozen for release and not started, in order of release (12 R570). -/
  ready : List Nat := []
  /-- Partitions whose freeze has not finished (05 R202). -/
  frozen : List Nat := []
  /-- BYPASS of sets A and B (13 R587). -/
  bypA : Bool := false
  bypB : Bool := false
  /-- The record that a load in progress copies (13 R604). -/
  loadPart : Nat := 0
  /-- The latest denial, not yet latched by a read of ACC_FADDR_LO (13): ACC_FADDR_HI, ACC_FINFO. -/
  faultHi : Word := 0
  faultInfo : Word := 0
  /-- Line times of lockstep resets and of slow overruns within 1 s (05 R229, R230). -/
  resets : List Nat := []
  slowOver : List Nat := []
  deriving DecidableEq, Repr, Inhabited

/-- One record of ACCESS (13 R610): regions as base and attribute words. -/
structure AccRec where
  pair : Nat
  kind : Nat := 0
  part : Nat := 255
  bypass : Bool := false
  slots : List Nat := []
  regions : List (Nat × Nat) := []
  deriving DecidableEq, Repr, Inhabited

end Sys2Proof.Machine
end

