-- ==== Sys2Proof/Machine/TypesImg.lean ====
section
/-! DEFINITION. Typed contents of the sections of an image whose bodies the spec lays out (chapters 02, 06, 09, 10, 11, 14,
15) and the running image as a whole. -/
namespace Sys2Proof.Machine

/-- A record of LOOPGRAPH (06 R308): head slot, law, span, initial bytes of its slots, initial CAM table. -/
structure LoopRec where
  slot : Nat
  law : Nat := 0
  span : Nat := 1
  bytes : List Byte := []
  extra : List Byte := []
  deriving DecidableEq, Repr, Inhabited

/-- TWIN (09 R422), defaults selected. -/
structure TwinSec where
  homeB : Bool := false
  noRevert : Bool := false
  listenMs : Nat := 200
  revertHoldS : Nat := 600
  proofDays : Nat := 31
  deriving DecidableEq, Repr, Inhabited

/-- A port record of TIME (10 R509). -/
structure TimePort where
  port : Nat
  off : Bool := false
  asymPs : Int := 0
  txPs : Nat := 0
  rxPs : Nat := 0
  deriving DecidableEq, Repr, Inhabited

/-- TIME (10 R509), defaults selected. -/
structure TimeSec where
  stepOk : Bool := false
  noWoad : Bool := false
  slewPpm : Nat := 10
  lockWaitS : Nat := 20
  requalS : Nat := 10
  pulseMs : Nat := 100
  jumpNs : Nat := 1000
  ports : List TimePort := []
  deriving DecidableEq, Repr, Inhabited

/-- A publication of LINKS (11 R528). -/
structure PubRec where
  pubId : Nat
  cls : Nat := 0
  outPorts : Nat := 0
  points : List Nat := []
  deriving DecidableEq, Repr, Inhabited

/-- A subscription of LINKS (11 R528): policy 0 HOLD, 1 COAST. -/
structure SubRec where
  srcPair : Nat
  pubId : Nat
  cls : Nat := 0
  policy : Nat := 0
  hops : Nat := 0
  points : List Nat := []
  deriving DecidableEq, Repr, Inhabited

/-- A forwarding record of LINKS (11 R528). -/
structure FwdRec where
  srcPair : Nat
  pubId : Nat
  inPort : Nat := 0
  outPorts : Nat := 0
  deriving DecidableEq, Repr, Inhabited

/-- LINKS (11 R528), defaults selected. -/
structure LinksSec where
  pairId : Nat := 0
  topo : Nat := 0
  decoupleN : Nat := 6
  ethertype : Nat := 0x88B6
  closing : Nat := 0xFF
  pubs : List PubRec := []
  subs : List SubRec := []
  fwds : List FwdRec := []
  deriving DecidableEq, Repr, Inhabited

/-- A DI record of LOCALIO (14 R659): a point is bound or absent. -/
structure DiRec where
  value : Option Nat := none
  status : Option Nat := none
  filterN : Nat := 3
  cls : Nat := 0
  wiring : Nat := 0
  rule : Nat := 0
  wbEn : Bool := false
  deriving DecidableEq, Repr, Inhabited

/-- A DO record of LOCALIO. -/
structure DoRec where
  source : Option Nat := none
  wiring : Nat := 0
  pps : Bool := false
  deriving DecidableEq, Repr, Inhabited

/-- A trip record of LOCALIO: rule 1 AND, 2 OR, 3 MATCH. -/
structure TripRec where
  value : Option Nat := none
  doMask : Nat := 0
  aoMask : Nat := 0
  rule : Nat := 2
  debMs : Nat := 100
  wiring : Nat := 0
  cls : Nat := 0
  deriving DecidableEq, Repr, Inhabited

/-- An analogue record of LOCALIO. -/
structure AioRec where
  mode : Nat := 0
  cls : Nat := 2
  wiring : Nat := 0
  supply : Nat := 0
  modem : Nat := 0
  range : Nat := 0
  point : Option Nat := none
  tol : Nat := 0
  status : Option Nat := none
  hartFirst : Nat := 0
  hartN : Nat := 0
  deriving DecidableEq, Repr, Inhabited

/-- A HART device of LOCALIO. -/
structure HartDev where
  addr : Nat := 0
  nvar : Nat := 0
  points : List (Option Nat) := []
  deriving DecidableEq, Repr, Inhabited

/-- LOCALIO (14 R659). -/
structure LocalSec where
  do0Status : Option Nat := none
  do8Status : Option Nat := none
  statusClass : Nat := 0
  sweepS : Nat := 60
  di : List DiRec := []
  dout : List DoRec := []
  trip : List TripRec := []
  aio : List AioRec := []
  hart : List HartDev := []
  deriving DecidableEq, Repr, Inhabited

/-- A buffer record of CAN (15 R688): kind 0 unused, 1 receive, 2 transmit. -/
structure CanBuf where
  kind : Nat := 0
  cls : Nat := 0
  trigger : Nat := 0
  xtd : Bool := false
  fdf : Bool := false
  brs : Bool := false
  id : Nat := 0
  maskOrTrig : Nat := 0
  dlc : Nat := 0
  rxTimeout : Nat := 0
  mapFirst : Nat := 0
  mapN : Nat := 0
  deriving DecidableEq, Repr, Inhabited

/-- A filter record of CAN: target 0 off, 1 RXF0, 2 RXF1, 3 reject. -/
structure CanFilter where
  id : Nat := 0
  mask : Nat := 0
  target : Nat := 0
  deriving DecidableEq, Repr, Inhabited

/-- A channel record of CAN (15 R688), defaults selected. -/
structure CanChan where
  chan : Nat
  oneShot : Bool := false
  term : Bool := false
  autoRecover : Bool := true
  full0 : Bool := false
  full1 : Bool := false
  retryLimit : Nat := 15
  tdco : Nat := 0
  nbt : Nat := 0
  dbt : Nat := 0
  bufs : List CanBuf := []
  filters : List CanFilter := []
  maps : List MapRec := []
  deriving DecidableEq, Repr, Inhabited

/-- FIRMWARE, as far as the spec names what it fixes: STVEC and MTVEC of every core pair (12 R586), the address of the
completion stub (12 R570). -/
structure FirmSec where
  stvec : Nat := 0
  mtvec : Nat := 0
  stub : Nat := 0
  deriving DecidableEq, Repr, Inhabited

/-- ISLANDS: power domains, core pairs and cluster pairs in use. -/
structure IslandsSec where
  domains : List Nat := []
  corePairs : List Nat := []
  clusterPairs : List Nat := []
  deriving DecidableEq, Repr, Inhabited

/-- An image: identity and typed sections (02 R58). -/
structure Img where
  ident : List Byte := []
  factory : Bool := false
  hasMap : Bool := false
  projectId : Nat := 0
  build : Nat := 0
  /-- COMPAT_MIN of the header (02 R53). -/
  compatMin : Nat := 0
  islands : IslandsSec := {}
  routes : Routes := {}
  sigmap : Tab PointInfo := []
  /-- Classes in use (SCHEDULE). -/
  classes : List Nat := []
  rings : List RingRec := []
  loops : List LoopRec := []
  parts : List PartRec := []
  /-- CODE bodies by partition. -/
  code : List (Nat × List Byte) := []
  access : List AccRec := []
  localIo : LocalSec := {}
  can : List CanChan := []
  time : TimeSec := {}
  twin : TwinSec := {}
  events : EventsSec := {}
  panel : PanelSec := {}
  hbmKey : HbmKey := {}
  links : LinksSec := {}
  traces : List TraceClaim := []
  params : List ParamEntry := []
  mapPred : List Byte := []
  map : List MapEntry := []
  firmware : FirmSec := {}
  deriving DecidableEq, Repr, Inhabited

end Sys2Proof.Machine
end

