-- ==== Sys2Proof/Machine/TypesIo.lean ====
section
/-! DEFINITION. Data types of the local I/O and the CAN channels beside their registers (chapters 14, 15). -/
namespace Sys2Proof.Machine

/-- Classes of a reading of a digital input (14 R616). -/
inductive DiClass where
  | off | on | uncertain | wireBreak
  deriving DecidableEq, Repr, Inhabited

/-- One digital input (14 R617, R618, R620): counter, filtered state, latest class, samples (instant, state, class),
newest first. -/
structure DiState where
  c : Nat := 0
  st : Bool := false
  cls : DiClass := .off
  started : Bool := false
  /-- A reading has been taken since power-up, so `cls` is its class (14 R619). -/
  read : Bool := false
  hist : List (Nat × Bool × DiClass) := []
  deriving DecidableEq, Repr, Inhabited

/-- The crossing of one block (14 R621 to R623): sequence numbers expected by the bridge and by the field side, the next one
sent, the latest good frame of each direction, timeouts of both directions, good downward frames in a row since a timeout. -/
structure CrossState where
  upSeq : Option Nat := none
  downExp : Option Nat := none
  downSeq : Nat := 0
  upAt : Nat := 0
  downAt : Nat := 0
  upOut : Bool := false
  downOut : Bool := false
  good : Nat := 0
  /-- Inputs are delivered again from the first sample in a good frame (14 R623). -/
  waitSample : Bool := true
  deriving DecidableEq, Repr, Inhabited

/-- One trip input beside DIO_TRIP (14 R630 to R636). -/
structure TripState where
  /-- Line time since which the input has been inactive. -/
  inactiveSince : Nat := 0
  /-- Line time at which the latch was set. -/
  setAt : Nat := 0
  /-- Boundary at which a pending clear acts (14 R635). -/
  clearAt : Option Nat := none
  deriving DecidableEq, Repr, Inhabited

/-- One analogue channel beside AIO_VALUE and AIO_FLAGS (14 R638 to R642). -/
structure AioState where
  /-- Conversions of the current period in order of completion, binary32. -/
  conv : List Nat := []
  /-- Instant of the latest conversion. -/
  convAt : Option Nat := none
  mean : Nat := 0
  ovr : Bool := false
  miswire : Bool := false
  reversed : Bool := false
  /-- Commanded output, binary32 mA, and whether the terminal is open (14 R628). -/
  cmd : Nat := 0
  /-- Source value of the latest image that no downward frame has taken yet (14 R640). -/
  source : Option Nat := none
  isOpen : Bool := true
  /-- Output of the field side (14 R622, R631). -/
  driven : Nat := 0
  fresh : Bool := false
  deriving DecidableEq, Repr, Inhabited

/-- One HART modem (14 R645, R648): transaction (channel, device record, failures), place in the round, search address. -/
structure ModemState where
  busy : Option (Nat × Nat × Nat) := none
  round : List (Nat × Nat) := []
  search : List (Nat × Nat) := []
  searching : Option (Nat × Nat) := none
  /-- Start of the transaction; start of the latest sweep (14 R645, R648). -/
  sentAt : Nat := 0
  sweptAt : Option Nat := none
  deriving DecidableEq, Repr, Inhabited

/-- A calibration set: bytes 16 to 399 of a bank (14 R655), and its SEQ. -/
structure CalBank where
  valid : Bool := false
  seq : Nat := 0
  words : Tab Word := []
  deriving DecidableEq, Repr, Inhabited

/-- A module's copy of an input point for the coming boundary (14 R649, R650). -/
structure LocalCopy where
  point : Nat
  v : Word := 0
  q : Byte := 0
  missing : Bool := false
  deriving DecidableEq, Repr, Inhabited

/-- Local I/O beside its registers (14). -/
structure LocalState where
  di : Tab DiState := []
  blocks : Tab CrossState := []
  trips : Tab TripState := []
  aio : Tab AioState := []
  modems : Tab ModemState := []
  /-- HART devices present, by record index of LOCALIO. -/
  present : List Nat := []
  /-- HART variables waiting for the next C7 boundary: point, value, OVERRANGE (14 R647). -/
  hartVars : List (Nat × Word × Bool) := []
  /-- HART points turned STALE. -/
  hartStale : List Nat := []
  partner : List LocalCopy := []
  partnerN : Nat := 0
  /-- Values that a close record gave for the coming close (14 R649). -/
  adopted : List (Nat × Word × Byte) := []
  /-- Output states held for the next downward DO frame of the image (14 R627). -/
  doImage : Nat := 0
  ppsHigh : Bool := false
  banks : List CalBank := [{}, {}]
  /-- The set in force is a valid bank. -/
  cal : Tab Word := []
  /-- Source of the write in progress: staging (true) or ageing (false); the set it writes. -/
  calWrite : Option (Bool × Tab Word) := none
  ageWaiting : Option (Word × Nat) := none
  deriving DecidableEq, Repr, Inhabited

/-- A CAN frame (15): identifier with XTD in bit 31, FDF, BRS, remote request, DLC, payload. -/
structure CanFrame where
  id : Nat := 0
  fdf : Bool := false
  brs : Bool := false
  rtr : Bool := false
  dlc : Nat := 0
  data : List Byte := []
  deriving DecidableEq, Repr, Inhabited

/-- An entry of a CAN FIFO: frame, ESI, software timestamp (15 R686). -/
structure CanEntry where
  frame : CanFrame := {}
  esi : Bool := false
  ts : Nat := 0
  deriving DecidableEq, Repr, Inhabited

/-- One dedicated buffer of a CAN channel (15 R667 to R681). -/
structure CanBufState where
  entry : CanEntry := {}
  stored : Bool := false
  newData : Bool := false
  /-- Frame assigned to a boundary: count and payload (15 R672). -/
  assigned : Option (Nat × List Byte) := none
  /-- Boundaries of the class without a frame, and whether the points are STALE (15 R673). -/
  missed : Nat := 0
  timedOut : Bool := false
  prevPayload : Option (List Byte) := none
  prevTrig : Bool := false
  /-- Payload of a requested frame that has not started transmission. -/
  pend : Option (List Byte) := none
  /-- Payload of the frame in transmission, and attempts so far. -/
  inTx : Option (List Byte) := none
  attempts : Nat := 0
  deriving DecidableEq, Repr, Inhabited

/-- One CAN channel beside its registers (15). -/
structure CanState where
  bufs : Tab CanBufState := []
  rxf0 : List CanEntry := []
  rxf1 : List CanEntry := []
  txf : List CanFrame := []
  /-- The head of the transmit FIFO is in transmission; its attempts. -/
  txfTx : Bool := false
  txfAttempts : Nat := 0
  /-- The request that stood first when an entry was queued behind it, and may have started since: buffer, 64 for the FIFO
  (15 R679). -/
  arb : Option Nat := none
  /-- The list of the active: boundary, buffer and payload (15 R674). -/
  list : Option (Nat × List (Nat × List Byte)) := none
  deriving DecidableEq, Repr, Inhabited

/-- The supervisor and sequencer beside the MOD_ and PWR_ registers (16). -/
structure PwrState where
  /-- Instant in ns at which the current stage began; at which a feed was qualified. -/
  stageAt : Nat := 0
  feedAt : Nat := 0
  /-- Instants at which each feed was last out of its operating range (16 R699, R721). -/
  feedOut : Tab Nat := []
  /-- Instant at which both feeds fell below the threshold (16 R719). -/
  holdAt : Nat := 0
  /-- Domains tried once more in this bring-up (16 R697). -/
  retried : List Nat := []
  s1Failures : Nat := 0
  /-- Service start in this start-up (16 R707). -/
  service : Bool := false
  /-- Steps of the hold-up sequence done (16 R719): 0 none, 1 begun, 2 last words, 3 powered down, 4 panel discharged. -/
  holdStep : Nat := 0
  rstHeld : Bool := false
  /-- Event 0xD020 is still to be raised (16 R701). -/
  bankLow : Bool := false
  /-- Event 0x0003 is still to be raised (16 R717). -/
  restartNote : Bool := false
  /-- The first invalid SLOT_ID was reported (16 R698). -/
  slotBad : Bool := false
  imageRestart : Bool := false
  /-- Cages whose pluggable is not enabled (20 R818): 0 to 15 ring ports, 16 to 19 line ports, 20 and 21 plant ports. -/
  cagesOff : List Nat := []
  /-- The pluggable in each cage (20 R817, R818): its type, 0 none, and its declared power in 0.1 W. -/
  cages : Tab (Nat × Nat) := []
  /-- This restart is hot: the base was at or above 60 °C when it began (20 R823). -/
  hot : Bool := false
  /-- Feeds that were lost since PD0 powered up and have not returned (16 R718). -/
  feedsLost : List Nat := []
  /-- Samples of 1 ms in a row at or above the limits of 20 R822 and of 20 R823. -/
  hotRun : Nat := 0
  critRun : Nat := 0
  deriving DecidableEq, Repr, Inhabited

/-- What survives every restart and is lost with both feeds (02 R74, 16 R707). -/
structure KeepState where
  choice : Option Choice := none
  svcNext : Bool := false
  deriving DecidableEq, Repr, Inhabited

/-- The last-words record of MRAM (03 R137, 09 R425, 16 R719). -/
structure LastWords where
  valid : Bool := true
  epoch : Nat := 0
  lineTime : Nat := 0
  opsec : Nat := 0
  pwrcyc : Nat := 0
  cause : Nat := 0
  faults : List Nat := []
  deriving DecidableEq, Repr, Inhabited

/-- A record of a change journal (02 R831): number, boundary, class, entries. -/
structure JournalRec where
  num : Nat
  applied : Nat := 0
  cls : Nat := 0
  entries : List CsEntry := []
  deriving DecidableEq, Repr, Inhabited

/-- What MRAM holds (03 R137), and of flash the profile slot metadata and the factory safe image (03 R135); the calibration
banks, the capture store and the bytes of flash stand beside it. The spec lays out no bytes for these contents but where a
field says so (assumption 75). -/
structure Nv where
  serial : Nat := 0
  variant : Bool := false
  issue : Nat := 0
  compat : Nat := 0
  devKey : List Byte := []
  keys : List KeySlot := [{ st := .enabled }, {}, {}, {}]
  choice : Option Choice := none
  slots : List SlotMeta := [{}, {}, {}, {}]
  /-- The event of the check that the factory safe image fails; none where it passes (02 R67, R68, assumption 76). -/
  factoryFault : Option (Nat × List Byte) := none
  hoState : Nat := 0
  hoElapsed : Nat := 0
  hoTarget : Nat := 0
  /-- Identity of the image in the target slot, and the profile that ran when the window opened (02 R101 to R103). -/
  hoIdent : List Byte := []
  hoPrev : Choice := .slot 0
  hoPrevIdent : List Byte := []
  hoFirst : Bool := false
  /-- The profile that the next start-up takes before any choice: where a handover returns, or where its loss of the active
  leaves this module (02 R101, assumption 77). -/
  boot : Option Choice := none
  opsec : Nat := 0
  pwrcyc : Nat := 0
  /-- The second copies of the counters (03 R137). -/
  opsecB : Nat := 0
  pwrcycB : Nat := 0
  holdups : Nat := 0
  pforces : List PForce := []
  /-- The persistent-force check region: entry count, and CRC-32C of the entries as 04 R187 lays them out (03 R137, R138). -/
  pfCount : Nat := 0
  pfCrc : Nat := 0
  lastWords : LastWords := {}
  /-- Event records not yet archived, by place in the tail (17 R750). -/
  tail : Tab (Option EvRecord) := []
  seq : Nat := 0
  archSeq : Nat := 0
  /-- First SEQ of each archive block that a flash write error moved to the next free location (03 R136, assumption 78). -/
  archSkips : List Nat := []
  /-- MOD_RESET_CAUSE. -/
  causeWord : Word := 0
  /-- MRAM regions whose stored CRC does not agree with what they hold, by their offset: the second copy of the counters as
  0x10800, a record of the recorder tail by its own offset (03 R137, R138, assumption 75). -/
  bad : List Nat := []
  deriving DecidableEq, Repr, Inhabited

end Sys2Proof.Machine
end

