-- ==== Sys2Proof/Machine/TypesSys.lean ====
section
/-! DEFINITION. Data types of the fabric, the signal image, time, line links, management, summary and panel beside their
registers (chapters 03, 04, 10, 11, 17, 18). -/
namespace Sys2Proof.Machine

/-- A flit that waits at an input of a router (03 R112, R116): the input, 0 local, 1 north, 2 east, 3 south, 4 west; virtual
channel, source island, destination router, injection instant of its transaction. -/
structure Flit where
  input : Fin 5 := 0
  vc : Fin 4 := 0
  src : Fin 256 := 0
  dst : Fin 256 := 0
  inj : Nat := 0
  deriving DecidableEq, Repr, Inhabited

/-- One router output (03 R112 to R118): the input that the priority token names, grants of the rotation so far, VC0 flits of the
window, what the latest window granted in order. -/
structure RouterOut where
  token : Nat := 0
  turn : Nat := 0
  vc0 : Nat := 0
  grants : List Flit := []
  deriving DecidableEq, Repr, Inhabited

/-- A transaction in flight (03 R119): tag, source and destination island, virtual channel, injection instant. -/
structure TagUse where
  tag : Nat := 0
  src : Nat := 0
  dst : Nat := 0
  vc : Nat := 0
  inj : Nat := 0
  deriving DecidableEq, Repr, Inhabited

/-- What happened to the tags since the previous boundary (03 R119, R120): a source began a transaction, or a transaction was
answered. -/
inductive TagEvent where
  | inject (src dst : Fin 256) (vc : Fin 4) (t : Nat)
  | response (src : Fin 256) (tag : Fin 16384)
  deriving DecidableEq, Repr, Inhabited

/-- A request that arrives at an HBM channel (03 R131, R133): source island, virtual channel, what it is: 0 none of those named, 1 trace
offload, 2 stream capture, 3 join copy. -/
structure HbmReq where
  src : Fin 256 := 0
  vc : Fin 4 := 0
  kind : Fin 4 := 0
  deriving DecidableEq, Repr, Inhabited

/-- One HBM channel (03 R131, R133): its stress monitor, with consecutive full and quiet windows, and the requests that wait in
port order, 0 floor, 1 bulk, 2 trace offload, 3 stream capture, 4 join copy. -/
structure HbmChan where
  queue : List (Fin 5) := []
  stress : Bool := false
  full : Nat := 0
  quiet : Nat := 0
  /-- A floor request waited over 300 ns in the current window. -/
  waited : Bool := false
  deriving DecidableEq, Repr, Inhabited

/-- The fabric beside FAB_ registers (03): tags in quarantine (source island, tag, instant of return), transactions in flight
and waiting for a tag, router outputs by 5 × router + output, channels, slow router outputs. -/
structure FabState where
  quarantine : List (Nat × Nat × Nat) := []
  inflight : List TagUse := []
  tagWaits : List TagUse := []
  outs : Tab RouterOut := []
  hbm : Tab HbmChan := []
  slow : List (Nat × Nat) := []
  /-- SRAM words that are poisoned, by address (03 R124). -/
  poison : List Nat := []
  /-- Instant at which a source last waited for a tag (03 FAB_STATUS). -/
  tagWaitAt : Option Nat := none
  deriving DecidableEq, Repr, Inhabited

/-- A force change that waits for a boundary of the owner class (04 R180, R182). -/
structure ForceWait where
  point : Nat
  /-- The force to set; none clears. -/
  set : Option Word := none
  deriving DecidableEq, Repr, Inhabited

/-- The signal image (04): the closed image, what has been written for the image in formation, previous values, forces.
An unlisted point holds its SIGMAP initial value with STALE (04 R144). -/
structure SignalState where
  closed : Tab (Option PointVal) := []
  writes : Tab (Option PointVal) := []
  prev : Tab (Option Word) := []
  forces : List Force := []
  waiting : List ForceWait := []
  /-- Value of each point in the image of the latest boundary of its owner class (04 R168). -/
  atClass : Tab (Option Word) := []
  /-- Whether buffer 1 holds the closed image, and what the other buffer held when it was closed last (04 R164). -/
  buf : Bool := false
  old : Tab (Option PointVal) := []
  /-- The next close is the first on mapped state: the points whose previous value a state-map entry named (04 R172). -/
  mapNamed : Option (List Nat) := none
  deriving DecidableEq, Repr, Inhabited

/-- What an Announce message carries that best master selection and the advertised quality use (10 R477, R480, R494). -/
structure AnnMsg where
  gm : Nat := 0
  prio1 : Nat := 255
  clockClass : Nat := 248
  accuracy : Nat := 0xFE
  variance : Nat := 0xFFFF
  prio2 : Nat := 255
  steps : Nat := 0
  /-- Identity of the port's sender (10 R477, the default BMCA). -/
  sender : Nat := 0
  arb : Bool := false
  utc : Int := 0
  utcValid : Bool := false
  deriving DecidableEq, Repr, Inhabited

/-- A hardware timestamp as a port island takes it, in ps of its local line-time estimate, and the errors of that estimate that the
boundary messages before and after it found (10 R482). -/
structure Stamp where
  raw : Int
  before : Int := 0
  after : Int := 0
  deriving DecidableEq, Repr, Inhabited

/-- One time domain (10 R487 to R489). -/
structure Domain where
  usable : Bool := false
  /-- Announce information held per port, and the port in the slave state. -/
  anns : Tab (Option AnnMsg) := []
  slave : Option Nat := none
  /-- The grandmaster followed; none before the first. -/
  gm : Option Nat := none
  /-- Whether Sync with Follow_Up and Announce are present. -/
  syncOk : Bool := false
  annOk : Bool := false
  /-- Line time since which every check has passed. -/
  since : Option Nat := none
  /-- The instant at which the domain became usable (10 R498). -/
  okAt : Nat := 0
  /-- Offset of domain time from line time at the latest Sync, its instant, and whether there was one; what had been slewed out by
  then (10 R488). -/
  offset : Int := 0
  at_ : Nat := 0
  hasOffset : Bool := false
  slewed : Int := 0
  /-- Rate of the domain against the oscillator in ppb; instant of the latest Announce of each port. -/
  rate : Int := 0
  annAt : Tab Nat := []
  /-- The latest Sync of the slave port that a relay forwards, once there is one: its origin, its correction and its ingress timestamp in ps (10 R479). -/
  synced : Bool := false
  origin : Int := 0
  corr : Int := 0
  rxPs : Int := 0
  deriving DecidableEq, Repr, Inhabited

/-- One PTP port (10 R477, R484): mean link delay in ps, delay from the neighbour and to it; a measurement running and its first
three timestamps taken together; a two-step Sync waiting for its Follow_Up: domain and ingress timestamp. -/
structure PtpPort where
  delayPs : Int := 0
  fromPs : Int := 0
  toPs : Int := 0
  pdelayWait : Bool := false
  turn : Option Int := none
  syncWait : List (Nat × Int) := []
  deriving DecidableEq, Repr, Inhabited

/-- A named step of line time (10 R501): its instant and its target; whether it is a time start (10 R503). -/
structure TimeStep where
  at_ : Nat
  target : Nat
  start : Bool := false
  deriving DecidableEq, Repr, Inhabited

/-- Time unit beside TIM_ registers (10). -/
structure TimeState where
  doms : List Domain := [{}, {}]
  ports : Tab PtpPort := []
  /-- Readings of Madder minus Woad over the last 16 Woad Syncs, newest first (10 R489). -/
  mw : List Int := []
  /-- Madder minus Woad with its line time over the last second (10 R488). -/
  mwHist : List (Nat × Int) := []
  /-- Offset of the reference from line time still to be slewed out (10 R492). -/
  slewLeft : Int := 0
  /-- All that line time has been slewed by up to the latest C5 boundary, in ns (10 R488, R492). -/
  slewed : Int := 0
  /-- A named step (10 R501). -/
  step : Option TimeStep := none
  /-- First boundary of the sequence (10 R496); whether boundaries run. -/
  firstN : Nat := 0
  running : Bool := false
  /-- Instant at which the current HOLDOVER began. -/
  holdFrom : Nat := 0
  /-- HOLDOVER has passed 3,600 s (10 R494). -/
  degraded : Bool := false
  /-- Consecutive C0 cycles with the twin offset beyond and within 1 µs (10 R510). -/
  twinOver : Nat := 0
  twinIn : Nat := 0
  /-- Consecutive C0 cycles with the twin offset within 100 ns (09 R465). -/
  twinHeld : Nat := 0
  /-- The active's quality and HOLDOVER, as the standby hears them (10 R494). -/
  partnerQ : Nat := 3
  partnerHold : Bool := false
  /-- The domain that the active follows and whether its timescale is an arbitrary one (10 R491, R494). -/
  partnerDom : Nat := 0
  partnerArb : Bool := false
  /-- The twin offset in ns, not saturated; none while the partner is not heard (10 R485, R497). -/
  twinOfs : Option Int := none
  ppsHigh : Bool := false
  /-- The latest rising edge of the pulse and the period that it ended, in ns (10 R505, R507). -/
  ppsAt : Option Nat := none
  ppsPeriod : Nat := 0
  /-- No boundary of the sequence has come yet (10 R496, R501). -/
  fresh : Bool := false
  /-- Power-up of PD6 (10 R498); since when the state has been MADDER, WOAD or TWIN, or the latest ageing measurement (10
  R495). -/
  poweredAt : Nat := 0
  ageFrom : Nat := 0
  deriving DecidableEq, Repr, Inhabited

/-- A copy of a publication: its boundary and the values of its points (11 R520). -/
structure SubCopy where
  n : Nat
  vals : List PointVal := []
  deriving DecidableEq, Repr, Inhabited

/-- One subscription (11 R519 to R526): the copy that this module received, the last two valid values and the current value of
each point, periods in a row without a copy, and what enters an image: its boundary, by point value and quality, none for a
point that turns STALE. -/
structure SubState where
  own : Option SubCopy := none
  last : List Word := []
  before : List Word := []
  cur : List Word := []
  missed : Nat := 0
  /-- The latest boundary whose coupling deadline has been judged (11 R520). -/
  judged : Option Nat := none
  pend : List (Nat × List (Nat × Option (Word × Byte))) := []
  /-- The boundary that the close record of image `pend` lists, where the module resolved it through R387 (08 R389). -/
  listed : Option Nat := none
  /-- `last`, `before`, `cur` and `missed` as they were before the latest boundary was judged. -/
  was : List Word × List Word × List Word × Nat := ([], [], [], 0)
  deriving DecidableEq, Repr, Inhabited

/-- Line links beside LNK_ registers (11): frames already forwarded (source pair, publication, count, line). -/
structure LineState where
  subs : Tab SubState := []
  seen : List (Nat × Nat × Nat × Nat) := []
  /-- What the active's close record says of subscriptions, by subscription and boundary (08 R389). -/
  ruled : List (Nat × Nat × SubResolution) := []
  deriving DecidableEq, Repr, Inhabited

/-- Fragments of a request being gathered (17 R730, R731): REQ_ID, instant of the first one in ns, command, total length,
payloads by index, the index of the last fragment once it has arrived. -/
structure FragReq where
  req : Nat
  at_ : Nat := 0
  cmd : Nat := 0
  total : Nat := 0
  parts : Tab (Option (List Byte)) := []
  last : Option Nat := none
  deriving DecidableEq, Repr, Inhabited

/-- A QMP response (17 R730, R735): command, REQ_ID, STATUS, payload. -/
structure QmpResp where
  cmd : Nat
  req : Nat
  status : Nat
  payload : List Byte := []
  deriving DecidableEq, Repr, Inhabited

/-- A QMP session (17 R726 to R733): port 0 and 1 plant, 2 service. -/
structure Session where
  port : Nat := 0
  control : Bool := false
  /-- The session runs on an active address (17 R727). -/
  onActive : Bool := false
  frags : List FragReq := []
  /-- Kept responses, newest first (17 R732). -/
  kept : List QmpResp := []
  /-- REQ_ID of a request that still runs. -/
  running : Option Nat := none
  /-- Instant of the opening or of the latest request, in ns (17 R729). -/
  last : Nat := 0
  deriving DecidableEq, Repr, Inhabited

/-- What a READ asks for (17 R734): register words from an address, or points of one image of a class. -/
inductive ReadReq where
  | regs (addr n : Nat)
  | points (cls : Nat) (pts : List Nat)
  deriving DecidableEq, Repr, Inhabited

/-- Whose transaction a router or a timeout answers with an error (03 R108, R121): a fetch, load or store of a core pair, an
access of a sample, another source island. -/
inductive TxReq where
  | fetch (c : Fin 32)
  | load (c : Fin 32) (a : BitVec 64)
  | store (c : Fin 32) (a : BitVec 64)
  | sample (slot : Fin 16384)
  | other (island : Fin 256)
  deriving DecidableEq, Repr, Inhabited

/-- A point READ that waits for its image (04 R166): session, REQ_ID, class, points. -/
structure PointRead where
  session : Nat
  req : Nat
  cls : Nat
  points : List Nat
  deriving DecidableEq, Repr, Inhabited

/-- Management block and summary unit (17). -/
structure MgmtState where
  sessions : Tab (Option Session) := []
  reads : List PointRead := []
  /-- The latest snapshot of the summary, 4,096 bytes (17 R739), and the number of timed snapshots (17 R740). -/
  snapshot : List Byte := []
  timed : Nat := 0
  /-- Instant of the latest timed snapshot, in ns (17 R740). -/
  snapAt : Option Nat := none
  /-- Totals of the summary since image commit, by summary offset (17 R743). -/
  totals : Tab Nat := []
  deriving DecidableEq, Repr, Inhabited

/-- What a rendered image of the display shows, band by band, but for the stamp (18 R764, R777). -/
structure PanelImage where
  name : List Byte := []
  twinB : Bool := false
  role : Nat := 0
  tstate : Nat := 0
  epoch : Nat := 0
  /-- "PRESS AGAIN TO RESTART". -/
  confirm : Bool := false
  /-- Profile slot, none for FACTORY; the short identity of the running image (02 R57). -/
  profile : Option Nat := some 0
  ident : List Byte := []
  /-- RS_CAUSE in reduced service. -/
  reduced : Option Nat := none
  /-- The partner's profile slot and short identity while REFUSED (02 R57, R78). -/
  refused : Option (Option Nat × List Byte) := none
  timeState : Nat := 0
  quality : Nat := 0
  holdover : Bool := false
  /-- Fault lines: code, severity, text, occurrences. -/
  faults : List (Nat × Nat × List Byte × Nat) := []
  /-- "BRING-UP FAILED" with stage and domain. -/
  failed : Option (Nat × Nat) := none
  forces : Option Nat := none
  reducedPair : Bool := false
  deriving DecidableEq, Repr, Inhabited

/-- Panel controller beside PNL_ registers (18). -/
structure PanelState where
  /-- The image last rendered and its stamp: operating seconds, power cycles. -/
  shown : PanelImage := {}
  stamp : Nat × Nat := (0, 0)
  /-- Instant in ns at which the previous update started. -/
  lastStart : Option Nat := none
  /-- An update was stopped by hold-up (18 R772, R773). -/
  stopped : Bool := false
  /-- A check failed and the rewrite has not passed its check (18 R771). -/
  rewrite : Bool := false
  /-- Confirmation armed until this instant (18 R777). -/
  confirmTill : Nat := 0
  lampTest : Bool := false
  /-- End of the lamp test; instant of the latest check of the frame memory (18 R770, R775). -/
  lampTill : Nat := 0
  checkAt : Option Nat := none
  /-- A cancelled switchover of the button arms the confirmation (18 R778). -/
  byButton : Bool := false
  deriving DecidableEq, Repr, Inhabited

/-- The census state of a ring that a joining standby takes from the active (08 R403, R838): the schedule in force, whether a
census has committed, the state word and the record of each station, the looping stations, the flags of the ring. -/
structure RingCopy where
  ring : Nat
  sched : Sched := {}
  committed : Bool := false
  stations : List (Nat × Word × StnState) := []
  first : StnState := {}
  aEnd : Nat := 0
  bEnd : Nat := 0
  foreign : Bool := false
  miscabled : Bool := false
  deriving DecidableEq, Repr, Inhabited

/-- State that one module takes from the other over the twin link: the bulk copy of a join, forwarded writes, the transfer
of a lag cycle, mapped state of a handover (09 R467, R468, 05 R234, 02 R101). -/
structure StatePatch where
  /-- A copy of everything: what it does not list is as at image commit in the sender (09 R467). -/
  full : Bool := false
  points : List (Nat × PointVal) := []
  prev : List (Nat × Word) := []
  /-- Values at the latest boundary of the owner class (04 R168). -/
  atClass : List (Nat × Word) := []
  forces : Option (List Force) := none
  waiting : Option (List ForceWait) := none
  /-- Words of slot windows, by management offset. -/
  regs : List (Nat × Word) := []
  slots : List (Nat × SlotDyn) := []
  mem : List (Nat × List Byte) := []
  parts : List (Nat × PartState) := []
  /-- What the commits and the samples bring to the state signature: partition and CRC, slot and comparison word (09 R434). -/
  crcs : List (Nat × Nat) := []
  cmps : List (Nat × Nat × Nat) := []
  rings : List RingCopy := []
  cs : Option (List ChangeSet) := none
  deferred : Option (List Deferred) := none
  epoch : Nat := 0
  keys : Option (List KeySlot) := none
  deriving DecidableEq, Repr, Inhabited

/-- A fox word (09 R438): KIND, TSTATE, FLAGS, EPOCH, C0_COUNT, IMAGE_ID, SWITCH_AT. -/
structure FoxWord where
  kind : Nat := 1
  tstate : Nat := 0
  flags : Nat := 0
  epoch : Nat := 0
  c0 : Nat := 0
  image : List Byte := []
  switchAt : Nat := 0
  deriving DecidableEq, Repr, Inhabited

/-- A badger frame (09 R439): FLAGS, EPOCH, SEQ. -/
structure BadgerFrame where
  flags : Nat := 0
  epoch : Nat := 0
  seq : Nat := 0
  deriving DecidableEq, Repr, Inhabited

/-- What the partner's CHECK exchange shows (09 R465, 02 R66, R78, 16 R711): running profile slot, identity, key store,
compatibility level, whether it is in reduced service. -/
structure JoinCheck where
  slot : Nat := 0
  ident : List Byte := []
  keys : List KeySlot := []
  compat : Nat := 0
  reduced : Bool := false
  deriving DecidableEq, Repr, Inhabited

/-- A key record (02 R63): whether its magic is "EKEY", install or revoke, the target slot, the new key, the signature. -/
structure KeyRecord where
  magicOk : Bool := true
  install : Bool := true
  slot : Fin 4 := 0
  key : List Byte := []
  sig : List Byte := []
  deriving DecidableEq, Repr, Inhabited

/-- What the module sends (outputs of a step, oldest first). -/
inductive Output where
  /-- The 64 bytes of a fox word (09 R438). -/
  | fox (bytes : List Byte)
  /-- The nine bytes of a badger frame with its preamble (09 R439). -/
  | badger (bytes : List Byte)
  /-- Commit record with the head slots held (05 R232, 07 R337). -/
  | commitRecord (r : CommitRecord) (held : List Nat)
  /-- Close record: N, listed segments as ring and segment index and listed subscriptions with their boundary (08 R389, 11 R521),
  value and quality of local channels by point (14 R649). -/
  | closeRecord (n : Nat) (segs : List (Nat × Nat)) (subs : List (Nat × Nat)) (loc : List (Nat × Word × Byte))
  /-- Digest of a segment for a C0 count (08 R385). -/
  | digest (n : Nat) (d : DigestMsg)
  /-- Full copy of a segment (08 R386). -/
  | fullCopy (ring seg : Nat) (payload : List Byte)
  /-- The copy of a local input point for a boundary (14 R649). -/
  | localCopy (point n : Nat) (v : Word) (q : Byte) (missing : Bool)
  /-- Partition command, flag clear, trip clear with the boundary of effect (05 R225, 06 R267, 14 R635). -/
  | partCommand (part : Nat) (restart : Bool) (at_ : Nat)
  | flagClear (slot mask at_ : Nat)
  | tripClear (mask at_ : Nat)
  /-- An accepted change set (02 R82); its staging reported. -/
  | changeSet (cs : ChangeSet)
  | staged (num : Nat)
  | csDiscard (num : Nat)
  /-- A signature (09 R436). -/
  | signature (sg : Sig)
  /-- State that passes to the partner: the join copy of boundary M, forwarded writes, the transfer to a lagging standby (09 R467,
  R468, 05 R234). -/
  | joinCopy (m : Nat) (p : StatePatch)
  | forwarded (p : StatePatch)
  | lagTransfer (p : StatePatch)
  /-- A key record passed to the standby (02 R66). -/
  | keyRecord (install : Bool) (slot : Nat) (key : List Byte)
  /-- Request for a time restart: instant, target line time (10 R501). -/
  | stepRequest (at_ target : Nat)
  /-- Request to launch a copy of a census frame (08 R834). -/
  | censusAsk (ring : Nat) (o : CensusOrder)
  /-- A frame of the acyclic window: what it orders, its bytes from the MAC header to the FCS (08 R380, R390, R403). -/
  | acycFrame (ring : Nat) (f : AcycFrame) (bytes : List Byte)
  /-- Census results and schedule, with the FCS errors of the own port (08 R403, R407). -/
  | censusResult (ring : Nat) (entries : List CensusEntry) (sched : Sched) (at_ : Nat) (endLoop : Bool) (farPort fcs other : Nat)
  /-- An acyclic reply passed to the partner with its image (08 R390). -/
  | acyclicReply (ring n : Nat) (pts : List (Nat × Word))
  /-- State of an own ring port reported to the partner (08 R401). -/
  | ringPort (ring : Nat) (up : Bool)
  /-- The list of CAN frames assigned to N (15 R674): channel, buffer, payload. -/
  | canList (n : Nat) (frames : List (Nat × Nat × List Byte))
  /-- A publication passed to the partner (11 R515). -/
  | publicationCopy (pub c0 : Nat) (payload : List Byte)
  /-- The copy of a publication that this module received, to the partner (11 R521). -/
  | subCopy (sub n : Nat) (vals : List PointVal)
  /-- The standby learns that a handover was accepted (02 R101); the module that went first reports ready. -/
  | handoverStart (slot : Nat)
  | handoverReady
  /-- A ring frame on a ring port (08 R362): its bytes from the MAC header to the FCS. -/
  | ringFrame (ring : Nat) (bytes : List Byte)
  /-- A line frame on a line port (11 R515). -/
  | lineFrame (port : Nat) (bytes : List Byte)
  /-- A CAN frame request in arbitration: channel, buffer (64 for TXF), payload (15). -/
  | canFrame (ch buf : Nat) (payload : List Byte)
  /-- A fragment of a QMP response: session, bytes from the header on (17 R730, R731). -/
  | qmp (session : Nat) (bytes : List Byte)
  /-- An error response of the fabric to a source island (03 R108, R121): 1 TIMEOUT, 2 NO_ISLAND, 3 POISON. -/
  | response (island code : Nat)
  /-- A PTP message: domain, port, kind, fields (10 R477). -/
  | ptp (dom port kind : Nat) (fields : List Int)
  /-- An edge on PPS out (10 R505). -/
  | pps (sec : Nat)
  /-- A command on a HART modem (14 R645): modem, channel, address, command. -/
  | hart (modem chan addr cmd : Nat)
  /-- A crossing frame down to a block: block, payload (14 R621). -/
  | crossing (block : Nat) (bytes : List Byte)
  /-- A register word answered to a reader (00 R16 to R20). -/
  | read (off : Nat) (w : Word)
  /-- An echo or address-resolution answer (17 R724). -/
  | netAnswer (port kind : Nat)
  /-- An announcement of an active plant address (09 R452): port, address; gratuitous ARP for IPv4, else an unsolicited Neighbor
  Advertisement. -/
  | announce (port addr : Nat) (v4 : Bool)
  deriving DecidableEq, Repr, Inhabited

end Sys2Proof.Machine
end

