-- ==== Sys2Proof/Syntax.lean ====
section
/-! DEFINITION. The commands of the module: one constructor per row of spec/opcode_table.json. -/
namespace Sys2Proof

open Machine

/-- The commands. Their operands carry what arrives with them; instants are in ns of line time, of oscillator time before
time start. -/
inductive Instr where
  /-- BOUNDARY_MESSAGE (R33): The boundary message of C0 count N arrives at an island, which then acts on boundary N. -/
  | boundaryMessage (n : Nat) (ready : Bool) (counts : List (Fin 32 × Nat)) (started : List (Fin 4 × Fin 65)) (tags : List TagEvent)
  /-- CHANGE_SET_DISCARD (R85): A change set still not ready 1 s after its named boundary is discarded in both modules. -/
  | changeSetDiscard (num : Nat) (t : Nat)
  /-- SAMPLE_PHASE_P_START (R237): Phase P of the C0 samples of boundary N starts at t0 + 3 µs. -/
  | samplePhasePStart
  /-- SUMMARY_SNAPSHOT_TIMED (R740): Before time start or during a time restart the summary unit builds a snapshot every 1 ms of oscillator time. -/
  | summarySnapshotTimed (t : Nat)
  /-- CAN_RX_TIMEOUT (R673): After RX_TIMEOUT consecutive boundaries without a frame, a receive buffer's points turn STALE. -/
  | canRxTimeout (ch : Fin 4) (buf : Fin 64)
  /-- LINK_DECOUPLE (R526): After DECOUPLE_N consecutive periods without a valid copy, a subscription becomes DECOUPLED. -/
  | linkDecouple (sub : Fin 256)
  /-- TWIN_SPLIT_CHECK (R510): The standby sets or clears TWIN_SPLIT after 32 consecutive C0 cycles beyond or within 1 µs. -/
  | twinSplitCheck (t1 : Stamp) (t2 : Int) (t3 : Int) (t4 : Stamp) (quality : Fin 4) (hold : Bool) (dom : Fin 2) (arb : Bool)
  /-- IMAGE_CLOSE (R164): Image N closes when agreement for boundary N completes, and the buffer roles change. -/
  | imageClose (ns : Nat) (t : Nat)
  /-- FREEZE_COMPLETE (R202): The freeze of a release finishes and the RELEASE interrupt becomes pending. -/
  | freezeComplete (core : Fin 32)
  /-- SAMPLE_COMPLETE (R331): A cluster completes a sample, forms its comparison word and the even cluster compares the two words. -/
  | sampleComplete (slot : Fin 16384) (cause : Option HoldCause) (fetch : Option Nat) (t : Nat)
  /-- SAMPLE_DEADLINE (R333): A sample not complete with its comparison by its deadline is held as a deadline miss. -/
  | sampleDeadline (t : Nat)
  /-- TRACE_PRE_FILLED (R346): PRE records have been written in every enabled channel and the trace passes to READY. -/
  | tracePreFilled (c : Fin 32)
  /-- TRACE_POST_FILLED (R346): POST further records have been written; recording stops and offload to HBM begins. -/
  | tracePostFilled (c : Fin 32)
  /-- TRACE_OFFLOAD_COMPLETE (R346): The offload of a capture completes and the cluster returns to IDLE or ARMED. -/
  | traceOffloadComplete (c : Fin 32)
  /-- STAGING_INSTANT (R209): At the staging instant complete activations commit and held slot results are written. -/
  | stagingInstant (ns : Nat) (t : Nat)
  /-- STAGING_LATE (R239): Staging not complete at t0 + 29 µs sets LATE_STAGE. -/
  | stagingLate (ring : Fin 16) (segs : List Nat) (t : Nat)
  /-- COMMIT_RECORD_RX (R232): The standby receives a commit record and commits, holds and skips exactly as listed. -/
  | commitRecordRx (r : CommitRecord) (held : List Nat) (ns : Nat) (t : Nat)
  /-- COMMIT_RECORD_MISSING (R234): A standby with no commit record at t0 + 29 µs counts a lag cycle and decides by its own completions. -/
  | commitRecordMissing (ns : Nat) (t : Nat)
  /-- LAG_STATE_TRANSFER (R234): The standby receives committed outputs and static lines from the active for an activation it could not commit. -/
  | lagStateTransfer (p : StatePatch)
  /-- RUN_LIMIT (R217): An activation not complete RUN_LIMIT periods after release is aborted with fault kind 7. -/
  | runLimit (part : Fin 256) (t : Nat)
  /-- ROLLBACK_COMPLETE (R222): A rollback completes; the partition waits or halts at its fault limit. -/
  | rollbackComplete (part : Fin 256) (t : Nat)
  /-- CYC_PCTL_RESTART (R225): GO with ACTION restart gives a partition restart command on the active. -/
  | cycPctlRestart (part : Fin 256) (t : Nat)
  /-- CYC_PCTL_HALT (R225): GO with ACTION halt gives a partition halt command on the active. -/
  | cycPctlHalt (part : Fin 256) (t : Nat)
  /-- PARTITION_COMMAND_RX (R225): The standby receives a partition command from the active over the twin link. -/
  | partitionCommandRx (part : Fin 256) (restart : Bool) (at_ : Nat)
  /-- RING_FRAME_RX (R381): A ring frame arrives at a ring port and its segments become the module's own copies. -/
  | ringFrameRx (ring : Fin 16) (bytes : List Byte) (t : Nat)
  /-- RX_DEADLINE (R382): At RX_DL missing frames are lost and digests of missing segments are sent as invalid. -/
  | rxDeadline (ring : Fin 16) (t : Nat)
  /-- DIGEST_RX (R386): A partner digest arrives and the segment is resolved or a full copy is requested. -/
  | digestRx (n : Nat) (digests : List DigestMsg) (locals : List LocalCopy) (t : Nat)
  /-- SEGMENT_COPY_RX (R386): A full segment copy arrives from the partner and resolves the segment. -/
  | segmentCopyRx (ring : Fin 16) (seg : Nat) (n : Nat) (payload : List Byte) (t : Nat)
  /-- AGREEMENT_DEADLINE (R387): At t0 + 22 µs the active treats missing digests as invalid and closes the image. -/
  | agreementDeadline (t : Nat)
  /-- CLOSE_RECORD_RX (R389): The standby receives the close record and closes image N with the active's resolutions. -/
  | closeRecordRx (n : Nat) (segs : List (Fin 16 × Nat × Resolution)) (subs : List (Fin 256 × Nat × SubResolution)) (locals : List (Nat × Word × Byte))
  /-- CLOSE_RECORD_MISSING (R389): A standby without a close record by t0 + 24 µs counts a lag cycle and closes from its own copies. -/
  | closeRecordMissing (t : Nat)
  /-- ACYCLIC_REPLY_RX (R390): An acyclic reply is received and passed to the partner with the C0 count of its image. -/
  | acyclicReplyRx (ring : Fin 16) (bytes : List Byte) (pts : List (Fin 256 × Nat × Word)) (t : Nat)
  /-- ACYCLIC_REPLY_FROM_PARTNER (R390): A module receives an acyclic reply forwarded by its partner for entry into image N. -/
  | acyclicReplyFromPartner (ring : Fin 16) (n : Nat) (pts : List (Nat × Word))
  /-- RING_PORT_LINK_CHANGE (R401): A ring port gains or loses link and the ring STATE follows. -/
  | ringPortLinkChange (ring : Fin 16) (up : Bool) (t : Nat)
  /-- PLUGGABLE_INSERT (R818): A pluggable is inserted, its identification read and the port enabled or kept down. -/
  | pluggableInsert (cage : Fin 22) (kind : Nat) (power : Nat) (t : Nat)
  /-- PLUGGABLE_REMOVE (R818): A pluggable is removed, which acts on the port as a loss of link. -/
  | pluggableRemove (cage : Fin 22) (t : Nat)
  /-- CENSUS_START (R403): A census START frame is launched in an acyclic window 100 ms after the last START or after commit. -/
  | censusStart (ring : Fin 16) (t : Nat)
  /-- CENSUS_FRAME_BACK (R403): A census frame returns to the module that launched it, directly or looped. -/
  | censusFrameBack (ring : Fin 16) (kind : Fin 4) (partnerEnd : Bool) (bytes : List Byte) (entries : List CensusEntry) (direct : Bool) (farPort : Fin 16) (ends : CensusEnds) (partnerFcs : Nat) (linkChange : Bool) (t : Nat)
  /-- CENSUS_FRAME_TIMEOUT (R403): A census frame not back in its window restarts the census. -/
  | censusFrameTimeout (ring : Fin 16) (t : Nat)
  /-- CENSUS_LAUNCH_REQUEST (R834): The partner receives the active's request to launch a copy of a census frame from its end. -/
  | censusLaunchRequest (ring : Fin 16) (o : CensusOrder)
  /-- RNG_RELEASE (R380): RELEASE in RNG_CTL sends a release request to a station in an acyclic frame. -/
  | rngRelease (ring : Fin 16) (station : Fin 256)
  /-- RNG_CENSUS_NOW (R403): CENSUS_NOW in RNG_CTL starts a census at the next acyclic window. -/
  | rngCensusNow (ring : Fin 16)
  /-- RNG_SCAP_RUN (R413): A write of RUN in RNG_SCAP_CTL starts or stops stream capture, or is refused with RES_BUSY. -/
  | rngScapRun (ring : Fin 16) (chan : Fin 256) (cluster : Fin 32) (run : Bool)
  /-- FOX_TICK (R438): A module sends a fox word at t0 and every 2 µs after it. -/
  | foxTick (t : Nat)
  /-- FOX_WORD_RX (R438): A valid fox word of KIND 1 or 2 arrives and the partner is heard. -/
  | foxWordRx (bytes : List Byte) (step : Fin 6) (t : Nat)
  /-- FAILING_MESSAGE_RX (R448): A failing message from the active arrives on either path and the standby declares it lost. -/
  | failingMessageRx (bytes : List Byte) (t : Nat)
  /-- FAILING_MESSAGE_SEND (R441): A module sends the failing message as a fox word of KIND 3 and FAILING in badger frames. -/
  | failingMessageSend (cause : Fin 4)
  /-- SWITCH_RECORD_RX (R459): The standby receives a switch record naming boundary B and answers with a switch acknowledge. -/
  | switchRecordRx (bytes : List Byte) (cause : Fin 16) (t : Nat)
  /-- SWITCH_ACK_RX (R459): The active receives the switch acknowledge naming B. -/
  | switchAckRx (bytes : List Byte) (t : Nat)
  /-- SWITCH_ACK_MISSING (R459): Without an acknowledge by t0(B − 2) the planned switchover is cancelled. -/
  | switchAckMissing (t : Nat)
  /-- BADGER_FRAME_TX (R439): The PD0 supervisor sends a badger frame once per 62.5 µs period. -/
  | badgerFrameTx (t : Nat)
  /-- BADGER_FRAME_RX (R439): A valid badger frame from the partner completes. -/
  | badgerFrameRx (bytes : List Byte) (t : Nat)
  /-- BADGER_MISS (R440): An instant k × 62.5 µs + 1 µs after the latest valid badger frame passes without a new frame. -/
  | badgerMiss (t : Nat)
  /-- SUSPECT_ENTRY (R442): A standby that receives no fox word for 5 µs enters SUSPECT. -/
  | suspectEntry (t : Nat)
  /-- SIGNATURE_RX (R436): A partner's output or state signature arrives and is compared. -/
  | signatureRx (sg : Sig) (fault : Bool) (t : Nat)
  /-- HIGHER_EPOCH_RELEASE (R455): An active that receives a higher epoch releases the role within 2 µs and enters FENCED. -/
  | higherEpochRelease (started : List (Nat × Nat)) (t : Nat)
  /-- LISTEN_TIMEOUT (R429): LISTEN_MS elapses and the module claims ACTIVE or stays in LISTEN. -/
  | listenTimeout (t : Nat)
  /-- JOIN_CHECK_DONE (R465): Profile, identity, compatibility and merged key stores match and the join passes to TIME. -/
  | joinCheckDone (c : JoinCheck) (t : Nat)
  /-- JOIN_TIME_HELD (R465): The twin offset has held within 100 ns for 10 consecutive ms and COPY begins. -/
  | joinTimeHeld (granules : Nat) (t : Nat)
  /-- JOIN_COPY_COMPLETE (R467): Every granule has been copied at boundary M and the join passes to SHADOW. -/
  | joinCopyComplete (m : Nat) (p : StatePatch) (t : Nat)
  /-- FORWARDED_WRITE_RX (R468): The joining module receives a forwarded write to a dirty granule. -/
  | forwardedWriteRx (p : StatePatch) (copied : Nat) (fits : Bool)
  /-- JOIN_TIMEOUT (R429): A join attempt that has not completed within 5 s fails. -/
  | joinTimeout (t : Nat)
  /-- JOIN_RETRY (R429): A new join attempt starts from step CHECK 1 s after a failure. -/
  | joinRetry (t : Nat)
  /-- TWN_SWAP (R462): SWAP in TWN_CTL starts a planned switchover or is refused. -/
  | twnSwap (t : Nat)
  /-- TWN_REJOIN (R429): REJOIN in TWN_CTL moves a REFUSED or EXCLUDED module to LISTEN. -/
  | twnRejoin
  /-- REVERT_EXPIRY (R463): The revert timer reaches REVERT_HOLD_S and the active starts a planned switchover. -/
  | revertExpiry (t : Nat)
  /-- PROOF_DUE (R472): The days since the last role change reach PROOF_DAYS and PROOF_DUE is set. -/
  | proofDue (t : Nat)
  /-- MODULE_FAULT (R464): A module fault raises event 0x7070 and the pair responds by switchover, running on, or restart. -/
  | moduleFault (fault : Fin 4) (t : Nat)
  /-- HANDOVER (R96): A HANDOVER command names the target profile slot and opens the handover window. -/
  | handover (ses : Fin 16) (req : Nat) (slot : Fin 4) (partnerValid : Bool) (t : Nat)
  /-- HANDOVER_ABORT (R101): An abort command before SWITCHING returns the standby to its previous profile slot. -/
  | handoverAbort (t : Nat)
  /-- HANDOVER_MAPPING_DONE (R101): The bulk copy of mapped state completes and the standby runs the target image in shadow. -/
  | handoverMappingDone (old : StatePatch) (types : List (Nat × Nat)) (t : Nat)
  /-- HANDOVER_WINDOW_EXPIRY (R97): The handover window reaches 60 s and the handover ends by expiry. -/
  | handoverWindowExpiry (t : Nat)
  /-- IMAGE_RESTART (R100): A module restarts into the target image while keeping its time, twin-link and ring domains running. -/
  | imageRestart (t : Nat)
  /-- COPY_BURST_STAGE (R100): The twin-link lanes write the active's received burst into ring frame staging for the copy burst. -/
  | copyBurstStage (ring : Fin 16) (bytes : List Byte)
  /-- CHANGESET (R81): The active receives a change set, checks it and stages it or refuses it. -/
  | changeset (ses : Fin 16) (req : Nat) (c : ChangeSet) (t : Nat)
  /-- CHANGESET_FORWARD_RX (R82): The standby receives an accepted change set from the active and stages it. -/
  | changesetForwardRx (c : ChangeSet)
  /-- SLOT_FLAG_CLEAR (R267): A write of 1 to LIMIT_HIT, OVFL, GAP or FAULT on the active is passed to the standby for a later boundary. -/
  | slotFlagClear (slot : Fin 16384) (value : Word) (t : Nat)
  /-- FLAG_CLEAR_RX (R267): The standby receives a slot flag clear from the active. -/
  | flagClearRx (slot : Fin 16384) (mask : Fin 4096) (at_ : Nat)
  /-- TRACE_ARM (R346): ARM in TRC_CTL starts recording into the trace rings or is refused with RES_BUSY. -/
  | traceArm (c : Fin 32)
  /-- TRACE_SW_TRIG (R346): SW_TRIG in TRC_CTL triggers the trace now. -/
  | traceSwTrig (c : Fin 32)
  /-- TRACE_ABORT (R346): ABORT in TRC_CTL stops recording and discards the capture. -/
  | traceAbort (c : Fin 32)
  /-- PROFILE_CHUNK (R738): PROFILE writes a chunk of up to 1,024 bytes of an image into a profile slot. -/
  | profileChunk (ses : Fin 16) (req : Nat) (slot : Fin 4) (off : Nat) (data : List Byte)
  /-- PROFILE_FINISH (R70): PROFILE FINISH starts the checks of the written image. -/
  | profileFinish (ses : Fin 16) (req : Nat) (slot : Fin 4)
  /-- IMAGE_CHECK_DONE (R68): The checks of an image complete and the profile slot is marked VALID or INVALID. -/
  | imageCheckDone (slot : Fin 4)
  /-- PROFILE_SELECT (R74): PROFILE SELECT sets the volatile or persistent profile choice. -/
  | profileSelect (ses : Fin 16) (req : Nat) (slot : Option (Fin 4)) (persist : Bool)
  /-- PROFILE_CLEAR (R75): PROFILE CLEAR removes the profile choices. -/
  | profileClear (ses : Fin 16) (req : Nat)
  /-- PROFILE_KEY (R63): PROFILE KEY applies a signed key record that installs or revokes a key slot. -/
  | profileKey (ses : Fin 16) (req : Nat) (r : KeyRecord)
  /-- PROFILE_LIST (R734): PROFILE LIST returns IMG_SLOT0 to IMG_SLOT3. -/
  | profileList (ses : Fin 16) (req : Nat)
  /-- SEL_SET (R105): SEL_SET in IMG_SEL records the profile choice given by SEL_SLOT, SEL_FACTORY and SEL_PERSIST. -/
  | selSet
  /-- SEL_CLEAR (R105): SEL_CLEAR in IMG_SEL removes the volatile and persistent choices. -/
  | selClear
  /-- TRANSACTION_TIMEOUT (R121): A transaction without a response 10 µs after injection times out. -/
  | transactionTimeout (r : TxReq) (dst : Fin 256) (tag : Fin 16384) (t : Nat)
  /-- TAG_QUARANTINE_END (R121): A quarantined tag returns to its pool 10 µs after its timeout. -/
  | tagQuarantineEnd (src : Fin 256) (tag : Fin 16384) (t : Nat)
  /-- LATE_RESPONSE_RX (R121): A response arriving for a timed-out tag is discarded. -/
  | lateResponseRx (src : Fin 256) (tag : Fin 16384)
  /-- NO_ISLAND_RESPONSE (R108): A router answers a transaction to a powered-off or absent island with NO_ISLAND. -/
  | noIslandResponse (r : TxReq) (router : Fin 256) (t : Nat)
  /-- FABRIC_WINDOW_END (R109): At the end of each 1 µs window routers judge slow links and renew the VC0 budget. -/
  | fabricWindowEnd (router : Fin 256) (output : Fin 5) (load : Bool) (ready : List (List Flit))
  /-- HBM_STRESS_WINDOW (R133): At the end of each 1 µs window an HBM channel's stress monitor evaluates its state. -/
  | hbmStressWindow (chan : Fin 32) (arrived : List HbmReq)
  /-- HBM_REQUEST (R131): An HBM channel island receives a floor or bulk request and serves it. -/
  | hbmRequest (chan : Fin 32) (vc : Fin 4) (waited : Nat) (answered : Nat) (ecc : Fin 3) (r : TxReq)
  /-- SRAM_SCRUB (R124): The scrubber reads all of SRAM once per second, correcting or poisoning words. -/
  | sramScrub (bank : Fin 64) (word : Fin 131072) (uncorrectable : Bool)
  /-- FLASH_WRITE_ERROR (R136): A flash write error is reported and the write retried once at the next free location. -/
  | flashWriteError
  /-- TIME_START (R496): The time unit sets line time once and issues the first boundary message at least 1 ms later. -/
  | timeStart (t : Nat)
  /-- LOCK_WAIT_EXPIRY (R499): LOCK_WAIT elapses without a usable domain or active partner and the module starts FREE. -/
  | lockWaitExpiry (t : Nat)
  /-- PTP_SYNC_RX (R488): A Sync with its Follow_Up is received and the domain's consistency checks run. -/
  | ptpSyncRx (port : Fin 22) (dom : Fin 256) (twoStep : Bool) (origin : Int) (corr : Int) (rx : Stamp) (t : Nat)
  /-- PTP_FOLLOW_UP_RX (R477): A Follow_Up message is received on a port. -/
  | ptpFollowUpRx (port : Fin 22) (dom : Fin 256) (origin : Int) (corr : Int) (t : Nat)
  /-- PTP_ANNOUNCE_RX (R477): An Announce message is received and the BMCA runs. -/
  | ptpAnnounceRx (port : Fin 22) (dom : Fin 256) (a : AnnMsg) (t : Nat)
  /-- PTP_PDELAY_REQ_RX (R477): A Pdelay_Req is received and answered. -/
  | ptpPdelayReqRx (port : Fin 22) (rx : Stamp) (tx : Stamp)
  /-- PTP_PDELAY_RESP_RX (R477): A Pdelay_Resp is received for link delay measurement. -/
  | ptpPdelayRespRx (port : Fin 22) (t1 : Stamp) (t2 : Int) (t4 : Stamp)
  /-- PTP_PDELAY_RESP_FOLLOW_UP_RX (R477): A Pdelay_Resp_Follow_Up completes a link delay measurement. -/
  | ptpPdelayRespFollowUpRx (port : Fin 22) (t3 : Int)
  /-- PTP_SIGNALING_RX (R477): A Signaling message with an interval request is answered with the fixed values. -/
  | ptpSignalingRx (port : Fin 22) (dom : Fin 256)
  /-- PTP_SYNC_TX (R477): The Sync interval expires and Sync and Follow_Up are sent on master ports. -/
  | ptpSyncTx (port : Fin 22) (dom : Fin 2) (tx : Stamp) (t : Nat)
  /-- PTP_ANNOUNCE_TX (R480): The Announce interval expires and Announce is sent. -/
  | ptpAnnounceTx (port : Fin 22) (dom : Fin 2)
  /-- PTP_PDELAY_TX (R477): The Pdelay interval expires and a Pdelay_Req is sent. -/
  | ptpPdelayTx (port : Fin 22)
  /-- PTP_RECEIPT_TIMEOUT (R488): No Sync for 375 ms or no Announce for 3 s makes a domain unusable. -/
  | ptpReceiptTimeout (dom : Fin 2) (announce : Bool) (t : Nat)
  /-- DOMAIN_REQUALIFIED (R487): A domain's checks have passed for REQUAL_S and it becomes usable. -/
  | domainRequalified (dom : Fin 2) (t : Nat)
  /-- SERVO_REFERENCE_CHANGE (R490): The servo reference moves between Madder, Woad, twin, holdover and free, with no step. -/
  | servoReferenceChange (t : Nat)
  /-- HOLDOVER_DEGRADED (R494): HOLDOVER passes 3,600 s and quality becomes HOLD_DEGRADED. -/
  | holdoverDegraded (t : Nat)
  /-- AGEING_MEASUREMENT (R495): After 24 h in a locked state the module writes the oscillator ageing to calibration. -/
  | ageingMeasurement (ppb : Word) (t : Nat)
  /-- TIM_STEP (R500): STEP in TIM_CTL requests a time restart to the selected domain. -/
  | timStep (dom : Fin 2) (t : Nat)
  /-- TIM_APPLY (R500): APPLY in TIM_CTL applies the staged line time, as time start or as a time restart. -/
  | timApply (t : Nat)
  /-- STEP_REQUEST_RX (R501): The standby receives a time restart request from the active. -/
  | stepRequestRx (at_ : Nat) (target : Nat)
  /-- TIME_RESTART (R501): At the step instant line time is set to the target and a new boundary sequence starts. -/
  | timeRestart
  /-- TIM_NS_READ (R474): A read of TIM_NS latches the seconds registers into shadows. -/
  | timNsRead (t : Nat)
  /-- PPS_OUT_EDGE (R505): PPS out gives a rising edge at every whole second of line time. -/
  | ppsOutEdge (rising : Bool) (t : Nat)
  /-- PPS_IN_EDGE (R508): A rising edge on PPS in is timestamped in hardware. -/
  | ppsInEdge (t : Nat)
  /-- LINE_FRAME_RX (R520): A line frame arrives, is forwarded by the forwarding entries and taken as a subscription copy. -/
  | lineFrameRx (port : Fin 4) (bytes : List Byte) (t : Nat)
  /-- PUBLICATION_FROM_ACTIVE (R515): The partner receives the active's publication over the twin link and forwards it out of its line ports. -/
  | publicationFromActive (pub : Nat) (bytes : List Byte)
  /-- COUPLING_DEADLINE (R520): The coupling deadline of a subscription passes and its copies are resolved or policy applied. -/
  | couplingDeadline (sub : Fin 256) (n : Nat) (partner : PartnerCopy) (t : Nat)
  /-- LINE_PORT_LINK_CHANGE (R527): A line port gains or loses link. -/
  | linePortLinkChange (port : Fin 4) (up : Bool) (t : Nat)
  /-- ADD (R549): ADD sets DST to SRC1 plus SRC2. -/
  | coreAdd (cp : Fin 32) (w : Word)
  /-- SUB (R549): SUB sets DST to SRC1 minus SRC2. -/
  | coreSub (cp : Fin 32) (w : Word)
  /-- AND (R549): AND sets DST to the bitwise AND of the sources. -/
  | coreAnd (cp : Fin 32) (w : Word)
  /-- IOR (R549): IOR sets DST to the bitwise inclusive OR of the sources. -/
  | coreIor (cp : Fin 32) (w : Word)
  /-- XOR (R549): XOR sets DST to the bitwise exclusive OR of the sources. -/
  | coreXor (cp : Fin 32) (w : Word)
  /-- SHL (R551): SHL shifts SRC1 left by bits 5:0 of SRC2. -/
  | coreShl (cp : Fin 32) (w : Word)
  /-- SHR (R551): SHR shifts SRC1 right filling zeros. -/
  | coreShr (cp : Fin 32) (w : Word)
  /-- SHA (R551): SHA shifts SRC1 right filling the sign. -/
  | coreSha (cp : Fin 32) (w : Word)
  /-- LESS (R549): LESS gives 1 when SRC1 is below SRC2 signed. -/
  | coreLess (cp : Fin 32) (w : Word)
  /-- LESSU (R549): LESSU gives 1 when SRC1 is below SRC2 unsigned. -/
  | coreLessu (cp : Fin 32) (w : Word)
  /-- MUL (R551): MUL sets DST to the low 64 bits of the product. -/
  | coreMul (cp : Fin 32) (w : Word)
  /-- MULHI (R549): MULHI gives bits 127:64 of the signed product. -/
  | coreMulhi (cp : Fin 32) (w : Word)
  /-- MULHIU (R549): MULHIU gives bits 127:64 of the unsigned product. -/
  | coreMulhiu (cp : Fin 32) (w : Word)
  /-- MULHIX (R549): MULHIX gives bits 127:64 of the product of signed SRC1 and unsigned SRC2. -/
  | coreMulhix (cp : Fin 32) (w : Word)
  /-- DIV (R551): DIV gives the signed quotient rounded toward zero, zero on division by zero. -/
  | coreDiv (cp : Fin 32) (w : Word)
  /-- DIVU (R551): DIVU gives the unsigned quotient, zero on division by zero. -/
  | coreDivu (cp : Fin 32) (w : Word)
  /-- MOD (R551): MOD gives the signed remainder with the sign of the dividend. -/
  | coreMod (cp : Fin 32) (w : Word)
  /-- MODU (R551): MODU gives the unsigned remainder, the dividend on division by zero. -/
  | coreModu (cp : Fin 32) (w : Word)
  /-- ADD32 (R551): ADD32 adds bits 31:0 and sign-extends the result. -/
  | coreAdd32 (cp : Fin 32) (w : Word)
  /-- SUB32 (R551): SUB32 subtracts bits 31:0 and sign-extends the result. -/
  | coreSub32 (cp : Fin 32) (w : Word)
  /-- SHL32 (R551): SHL32 shifts bits 31:0 left and sign-extends. -/
  | coreShl32 (cp : Fin 32) (w : Word)
  /-- SHR32 (R551): SHR32 shifts bits 31:0 right filling zeros and sign-extends. -/
  | coreShr32 (cp : Fin 32) (w : Word)
  /-- SHA32 (R551): SHA32 shifts bits 31:0 right filling the sign and sign-extends. -/
  | coreSha32 (cp : Fin 32) (w : Word)
  /-- MUL32 (R551): MUL32 multiplies bits 31:0 and sign-extends the result. -/
  | coreMul32 (cp : Fin 32) (w : Word)
  /-- DIV32 (R551): DIV32 divides bits 31:0 signed and sign-extends. -/
  | coreDiv32 (cp : Fin 32) (w : Word)
  /-- DIVU32 (R551): DIVU32 divides bits 31:0 unsigned and sign-extends. -/
  | coreDivu32 (cp : Fin 32) (w : Word)
  /-- MOD32 (R551): MOD32 gives the signed 32-bit remainder, sign-extended. -/
  | coreMod32 (cp : Fin 32) (w : Word)
  /-- MODU32 (R551): MODU32 gives the unsigned 32-bit remainder, sign-extended. -/
  | coreModu32 (cp : Fin 32) (w : Word)
  /-- ADDK (R549): ADDK adds the sign-extended IMM16 to SRC1. -/
  | coreAddk (cp : Fin 32) (w : Word)
  /-- ANDK (R549): ANDK ANDs SRC1 with the sign-extended IMM16. -/
  | coreAndk (cp : Fin 32) (w : Word)
  /-- IORK (R549): IORK ORs SRC1 with the zero-extended IMM16. -/
  | coreIork (cp : Fin 32) (w : Word)
  /-- XORK (R549): XORK exclusive-ORs SRC1 with the zero-extended IMM16. -/
  | coreXork (cp : Fin 32) (w : Word)
  /-- LESSK (R549): LESSK compares SRC1 with IMM16 signed. -/
  | coreLessk (cp : Fin 32) (w : Word)
  /-- LESSUK (R549): LESSUK compares SRC1 with IMM16 unsigned. -/
  | coreLessuk (cp : Fin 32) (w : Word)
  /-- SHIFTK (R549): SHIFTK shifts SRC1 by an immediate amount and kind. -/
  | coreShiftk (cp : Fin 32) (w : Word)
  /-- ADD32K (R549): ADD32K is the 32-bit form of ADDK. -/
  | coreAdd32k (cp : Fin 32) (w : Word)
  /-- MKHI (R549): MKHI sets DST to IMM21 × 2^16. -/
  | coreMkhi (cp : Fin 32) (w : Word)
  /-- PCHI (R549): PCHI sets DST to PC plus IMM21 × 2^16. -/
  | corePchi (cp : Fin 32) (w : Word)
  /-- LDPC (R549): LDPC loads the 64-bit word at a PC-relative address. -/
  | coreLdpc (cp : Fin 32) (w : Word)
  /-- LD8S (R549): LD8S loads one byte sign-extended. -/
  | coreLd8s (cp : Fin 32) (w : Word)
  /-- LD8U (R549): LD8U loads one byte zero-extended. -/
  | coreLd8u (cp : Fin 32) (w : Word)
  /-- LD16S (R549): LD16S loads two bytes sign-extended. -/
  | coreLd16s (cp : Fin 32) (w : Word)
  /-- LD16U (R549): LD16U loads two bytes zero-extended. -/
  | coreLd16u (cp : Fin 32) (w : Word)
  /-- LD32S (R549): LD32S loads four bytes sign-extended. -/
  | coreLd32s (cp : Fin 32) (w : Word)
  /-- LD32U (R549): LD32U loads four bytes zero-extended. -/
  | coreLd32u (cp : Fin 32) (w : Word)
  /-- LD64 (R549): LD64 loads eight bytes. -/
  | coreLd64 (cp : Fin 32) (w : Word)
  /-- ST8 (R549): ST8 stores the low byte of SRC2. -/
  | coreSt8 (cp : Fin 32) (w : Word)
  /-- ST16 (R549): ST16 stores the low two bytes of SRC2. -/
  | coreSt16 (cp : Fin 32) (w : Word)
  /-- ST32 (R549): ST32 stores the low four bytes of SRC2. -/
  | coreSt32 (cp : Fin 32) (w : Word)
  /-- ST64 (R549): ST64 stores eight bytes of SRC2. -/
  | coreSt64 (cp : Fin 32) (w : Word)
  /-- FLD32 (R549): FLD32 loads a binary32 into a floating register. -/
  | coreFld32 (cp : Fin 32) (w : Word)
  /-- FLD64 (R549): FLD64 loads a binary64 into a floating register. -/
  | coreFld64 (cp : Fin 32) (w : Word)
  /-- FST32 (R549): FST32 stores bits 31:0 of a floating register. -/
  | coreFst32 (cp : Fin 32) (w : Word)
  /-- FST64 (R549): FST64 stores a floating register. -/
  | coreFst64 (cp : Fin 32) (w : Word)
  /-- BREQ (R549): BREQ branches if the sources are equal. -/
  | coreBreq (cp : Fin 32) (w : Word)
  /-- BRNE (R549): BRNE branches if the sources differ. -/
  | coreBrne (cp : Fin 32) (w : Word)
  /-- BRLT (R549): BRLT branches if SRC1 is less, signed. -/
  | coreBrlt (cp : Fin 32) (w : Word)
  /-- BRGE (R549): BRGE branches if SRC1 is greater or equal, signed. -/
  | coreBrge (cp : Fin 32) (w : Word)
  /-- BRLTU (R549): BRLTU branches if SRC1 is less, unsigned. -/
  | coreBrltu (cp : Fin 32) (w : Word)
  /-- BRGEU (R549): BRGEU branches if SRC1 is greater or equal, unsigned. -/
  | coreBrgeu (cp : Fin 32) (w : Word)
  /-- JMP (R549): JMP sets PC to the target. -/
  | coreJmp (cp : Fin 32) (w : Word)
  /-- CALL (R549): CALL sets d7 to PC + 4 and jumps to the target. -/
  | coreCall (cp : Fin 32) (w : Word)
  /-- JMPR (R549): JMPR jumps to a register-relative address and saves the return address in DST. -/
  | coreJmpr (cp : Fin 32) (w : Word)
  /-- CALLR (R549): CALLR sets d7 to PC + 4 and jumps to a register-relative address. -/
  | coreCallr (cp : Fin 32) (w : Word)
  /-- ENTER (R539): ENTER opens a new zeroed register window or raises WIN_OVF. -/
  | coreEnter (cp : Fin 32) (w : Word)
  /-- LEAVE (R540): LEAVE returns to the caller's window or raises WIN_UNF. -/
  | coreLeave (cp : Fin 32) (w : Word)
  /-- RET (R541): RET performs LEAVE and jumps to the address in a7. -/
  | coreRet (cp : Fin 32) (w : Word)
  /-- FADD (R552): FADD adds two floating values in the rounding mode RM. -/
  | coreFadd (cp : Fin 32) (w : Word)
  /-- FSUB (R552): FSUB subtracts two floating values. -/
  | coreFsub (cp : Fin 32) (w : Word)
  /-- FMUL (R552): FMUL multiplies two floating values. -/
  | coreFmul (cp : Fin 32) (w : Word)
  /-- FDIV (R552): FDIV divides two floating values, correctly rounded. -/
  | coreFdiv (cp : Fin 32) (w : Word)
  /-- FSQRT (R552): FSQRT takes the correctly rounded square root. -/
  | coreFsqrt (cp : Fin 32) (w : Word)
  /-- FMIN (R552): FMIN returns the smaller operand, ignoring one NaN. -/
  | coreFmin (cp : Fin 32) (w : Word)
  /-- FMAX (R552): FMAX returns the larger operand, ignoring one NaN. -/
  | coreFmax (cp : Fin 32) (w : Word)
  /-- FABS (R549): FABS gives the absolute value without raising a flag. -/
  | coreFabs (cp : Fin 32) (w : Word)
  /-- FNEG (R549): FNEG negates without raising a flag. -/
  | coreFneg (cp : Fin 32) (w : Word)
  /-- FCSGN (R549): FCSGN gives SRC1 with the sign of SRC2. -/
  | coreFcsgn (cp : Fin 32) (w : Word)
  /-- FCMPEQ (R549): FCMPEQ gives 1 when the operands are equal and no NaN. -/
  | coreFcmpeq (cp : Fin 32) (w : Word)
  /-- FCMPLT (R549): FCMPLT gives 1 when SRC1 is less than SRC2 and no NaN. -/
  | coreFcmplt (cp : Fin 32) (w : Word)
  /-- FCMPLE (R549): FCMPLE gives 1 when SRC1 is less or equal and no NaN. -/
  | coreFcmple (cp : Fin 32) (w : Word)
  /-- FKIND (R549): FKIND sets DST to the kind word of a floating value. -/
  | coreFkind (cp : Fin 32) (w : Word)
  /-- FTOI64 (R552): FTOI64 converts to a signed 64-bit integer, saturating. -/
  | coreFtoi64 (cp : Fin 32) (w : Word)
  /-- FTOU64 (R552): FTOU64 converts to an unsigned 64-bit integer, saturating. -/
  | coreFtou64 (cp : Fin 32) (w : Word)
  /-- FTOI32 (R552): FTOI32 converts to a signed 32-bit integer, saturating. -/
  | coreFtoi32 (cp : Fin 32) (w : Word)
  /-- FTOU32 (R552): FTOU32 converts to an unsigned 32-bit integer, saturating. -/
  | coreFtou32 (cp : Fin 32) (w : Word)
  /-- I64TOF (R552): I64TOF converts a signed 64-bit integer to floating. -/
  | coreI64tof (cp : Fin 32) (w : Word)
  /-- U64TOF (R552): U64TOF converts an unsigned 64-bit integer to floating. -/
  | coreU64tof (cp : Fin 32) (w : Word)
  /-- I32TOF (R552): I32TOF converts a signed 32-bit integer to floating. -/
  | coreI32tof (cp : Fin 32) (w : Word)
  /-- U32TOF (R552): U32TOF converts an unsigned 32-bit integer to floating. -/
  | coreU32tof (cp : Fin 32) (w : Word)
  /-- FWIDTH (R549): FWIDTH converts between binary32 and binary64. -/
  | coreFwidth (cp : Fin 32) (w : Word)
  /-- FTOBITS (R549): FTOBITS moves a floating bit pattern into an integer register. -/
  | coreFtobits (cp : Fin 32) (w : Word)
  /-- BITSTOF (R549): BITSTOF moves an integer bit pattern into a floating register. -/
  | coreBitstof (cp : Fin 32) (w : Word)
  /-- FMAC (R549): FMAC computes SRC1 × SRC2 + SRC3 with one rounding. -/
  | coreFmac (cp : Fin 32) (w : Word)
  /-- FMSC (R549): FMSC computes SRC1 × SRC2 − SRC3 with one rounding. -/
  | coreFmsc (cp : Fin 32) (w : Word)
  /-- FNMAC (R549): FNMAC computes −(SRC1 × SRC2) + SRC3 with one rounding. -/
  | coreFnmac (cp : Fin 32) (w : Word)
  /-- FNMSC (R549): FNMSC computes −(SRC1 × SRC2) − SRC3 with one rounding. -/
  | coreFnmsc (cp : Fin 32) (w : Word)
  /-- SYSRD (R550): SYSRD reads a system register into DST. -/
  | coreSysrd (cp : Fin 32) (w : Word)
  /-- SYSWR (R550): SYSWR writes SRC1 to a system register. -/
  | coreSyswr (cp : Fin 32) (w : Word)
  /-- SYSSET (R550): SYSSET sets the bits of SRC1 in a system register and returns the old value. -/
  | coreSysset (cp : Fin 32) (w : Word)
  /-- SYSCLR (R550): SYSCLR clears the bits of SRC1 in a system register and returns the old value. -/
  | coreSysclr (cp : Fin 32) (w : Word)
  /-- SYSCALL (R571): SYSCALL traps; SYSCALL 0 completes the activation. -/
  | coreSyscall (cp : Fin 32) (w : Word) (idx : Nat) (ns : Nat)
  /-- BREAK (R561): BREAK raises the BREAK trap. -/
  | coreBreak (cp : Fin 32) (w : Word)
  /-- TRAP (R561): TRAP n raises the TRAP trap. -/
  | coreTrap (cp : Fin 32) (w : Word)
  /-- TRET (R567): TRET waits for trap-window stores and returns to the interrupted context. -/
  | coreTret (cp : Fin 32) (w : Word)
  /-- SWCTX (R573): SWCTX exchanges the context registers and makes the other rule set active. -/
  | coreSwctx (cp : Fin 32) (w : Word)
  /-- WSPILL (R542): WSPILL stores the bottom window to the spill area. -/
  | coreWspill (cp : Fin 32) (w : Word)
  /-- WFILL (R544): WFILL loads a window from the spill area. -/
  | coreWfill (cp : Fin 32) (w : Word)
  /-- WAIT (R549): WAIT suspends the core pair at a privileged level. -/
  | coreWait (cp : Fin 32) (w : Word)
  /-- FENCE (R558): FENCE completes when every earlier load and store has completed. -/
  | coreFence (cp : Fin 32) (w : Word)
  /-- CFLUSH (R534): CFLUSH flushes a cache line so that fetch sees stored code. -/
  | coreCflush (cp : Fin 32) (w : Word)
  /-- XRD (R549): XRD reads a register of the interrupted U context. -/
  | coreXrd (cp : Fin 32) (w : Word)
  /-- XWR (R549): XWR writes a register of the interrupted U context. -/
  | coreXwr (cp : Fin 32) (w : Word)
  /-- INTERRUPT_ENTRY (R563): A pending interrupt is taken at the first U instruction boundary. -/
  | interruptEntry (cp : Fin 32)
  /-- TIMECMP_EXPIRY (R562): LTIME reaches TIMECMP and the TIMER interrupt becomes pending. -/
  | timecmpExpiry (cp : Fin 32) (t : Nat)
  /-- TWIN_RECORD_ARRIVAL (R562): A commit record, partition command or flag clear for the core pair arrives and TWIN becomes pending. -/
  | twinRecordArrival (cp : Fin 32)
  /-- MGMT_REQUEST_POST (R562): The management block posts a request to the runtime and MGMT becomes pending. -/
  | mgmtRequestPost (cp : Fin 32)
  /-- SIGNATURE_WINDOW_CLOSE (R579): A signature window of 256 core cycles closes and the comparators release or discard its stores. -/
  | signatureWindowClose (cp : Fin 32) (primary : Bool) (dup : Bool) (t : Nat)
  /-- LOCKSTEP_RESET_COMPLETE (R580): A lockstep reset completes within 10 µs. -/
  | lockstepResetComplete (cp : Fin 32)
  /-- STORE_ERROR_RESPONSE (R566): A store of the U context is answered with an error response. -/
  | storeErrorResponse (cp : Fin 32) (a : DWord)
  /-- INJECTION_TEST (R581): TEST in LS_CTL runs the comparator injection test. -/
  | injectionTest (cp : Fin 32)
  /-- INJECTION_TEST_DONE (R581): An injection test completes and reports pass or FAULTY. -/
  | injectionTestDone (cp : Fin 32) (primary : Bool) (dup : Option Bool) (t : Nat)
  /-- TEST_LANE_CHECK (R582): Every 65,536th window a comparator checks itself with one inverted bit. -/
  | testLaneCheck (cp : Fin 32) (reported : Bool) (t : Nat)
  /-- ACC_LOAD (R604): LOAD in ACC_CTL starts copying a record into the inactive rule set. -/
  | accLoad (c : Fin 32) (part : Fin 256)
  /-- ACC_LOAD_COMPLETE (R604): The rule-set copy completes and BUSY clears. -/
  | accLoadComplete (c : Fin 32)
  /-- ACC_FADDR_READ (R613): A read of ACC_FADDR_LO latches ACC_FADDR_HI and ACC_FINFO. -/
  | accFaddrRead (c : Fin 32)
  /-- DI_SAMPLE (R615): The field side samples every digital input at each multiple of 50 µs. -/
  | diSample (mv : List Int) (t : Nat)
  /-- DI_FILTER_STATE_CHANGE (R617): A filter counter reaches N or 0 and the filtered state changes. -/
  | diFilterStateChange (di : Fin 32)
  /-- CROSSING_FRAME_TX (R621): A crossing frame starts in each direction at every multiple of 10 µs. -/
  | crossingFrameTx (block : Fin 3) (t : Nat)
  /-- CROSSING_FRAME_RX (R621): A crossing frame is received and used when good. -/
  | crossingFrameRx (block : Fin 3) (up : Bool) (bytes : List Byte) (t : Nat)
  /-- CROSSING_TIMEOUT (R622): No good frame for 50 µs turns block outputs off or makes its inputs STALE. -/
  | crossingTimeout (block : Fin 3) (up : Bool) (t : Nat)
  /-- DO_GROUP_FAULT_CHANGE (R625): A DO group's common fault bit changes with overload, overtemperature or low supply. -/
  | doGroupFaultChange (group : Fin 2) (fault : Bool)
  /-- TRIP_INPUT_CHANGE (R631): A trip input level passes the glitch filter and an active trip sets its latch. -/
  | tripInputChange (trip : Fin 4) (active : Bool) (t : Nat)
  /-- DIO_TRIP_CLR (R635): CLR in DIO_TRIP_CLR on the active requests a trip clear for both twins. -/
  | dioTripClr (mask : Fin 16) (t : Nat)
  /-- TRIP_CLEAR_RX (R635): The standby receives a trip clear from the active. -/
  | tripClearRx (mask : Fin 16) (at_ : Nat)
  /-- ANALOGUE_CONVERSION (R638): An analogue input converts every 125 µs, 25 µs before each C2 boundary. -/
  | analogueConversion (chan : Fin 8) (ma : Word) (t : Nat)
  /-- ANALOGUE_OUT_FAULT (R640): An output current differing from its command for 100 ms sets OUT_FAULT. -/
  | analogueOutFault (chan : Fin 8) (fault : Bool)
  /-- ANALOGUE_MISWIRE (R642): An input current above 24.5 mA for 100 ms or reversed sets MISWIRE. -/
  | analogueMiswire (chan : Fin 8) (cond : Fin 3)
  /-- LOOP_SUPPLY_LIMIT (R641): The loop supply reaches its current limit and sets SUPPLY_LIMIT. -/
  | loopSupplyLimit (chan : Fin 8) (limit : Bool)
  /-- HART_POLL (R645): A modem sends a command 3 to the next device of its round. -/
  | hartPoll (modem : Fin 2) (t : Nat)
  /-- HART_REPLY_RX (R647): A command 3 reply delivers up to four variables for the next C7 boundary. -/
  | hartReplyRx (modem : Fin 2) (vars : List Word) (ovr : Bool)
  /-- HART_REPLY_TIMEOUT (R645): A reply not begun within 400 ms is retried or the device marked absent. -/
  | hartReplyTimeout (modem : Fin 2) (t : Nat)
  /-- HART_SWEEP (R648): Every SWEEP_S seconds a modem starts an address search. -/
  | hartSweep (modem : Fin 2) (t : Nat)
  /-- HART_SEARCH (R652): SEARCH in AIO_HARTm starts an address search or is refused with RES_BUSY. -/
  | hartSearch (modem : Fin 2)
  /-- CAL_COMMIT (R658): COMMIT in AIO_CAL_CTL writes the staged calibration set or is refused. -/
  | calCommit
  /-- CAL_WRITE_COMPLETE (R656): A calibration bank write completes and that bank becomes current. -/
  | calWriteComplete
  /-- CAN_FRAME_RX (R668): A received CAN frame is stored in a receive buffer or FIFO or dropped. -/
  | canFrameRx (ch : Fin 4) (f : CanFrame) (esi : Bool) (tec : Nat) (rec : Nat) (t : Nat)
  /-- CAN_FRAME_LIST_RX (R674): The standby receives the active's list of frames assigned to N. -/
  | canFrameListRx (n : Nat) (frames : List (Nat × Nat × List Byte))
  /-- CAN_FRAME_LIST_MISSING (R674): A standby without the frame list by t0 + 24 µs counts a lag cycle. -/
  | canFrameListMissing (n : Nat) (t : Nat)
  /-- CAN_TX_DONE (R679): A CAN frame completes transmission and the next pending request enters arbitration. -/
  | canTxDone (ch : Fin 4) (buf : Fin 65) (tec : Nat) (rec : Nat)
  /-- CAN_TX_ATTEMPT_FAIL (R680): A transmission attempt loses arbitration or meets an error and is retried or dropped. -/
  | canTxAttemptFail (ch : Fin 4) (buf : Fin 65) (tec : Nat) (rec : Nat)
  /-- CAN_BUS_OFF (R687): A channel enters bus-off and drops its pending frames. -/
  | canBusOff (ch : Fin 4)
  /-- CAN_AUTO_RECOVER (R687): After 128 occurrences of 11 recessive bits the channel rejoins the bus. -/
  | canAutoRecover (ch : Fin 4)
  /-- CAN_RECOVER (R687): RECOVER in CAN_CTL on the active rejoins a bus-off channel. -/
  | canRecover (ch : Fin 4)
  /-- CAN_POP0 (R670): POP0 in CAN_CTL removes the head of RXF0. -/
  | canPop0 (ch : Fin 4)
  /-- CAN_POP1 (R670): POP1 in CAN_CTL removes the head of RXF1. -/
  | canPop1 (ch : Fin 4)
  /-- CAN_PUSH (R682): PUSH in CAN_CTL queues the staged entry, or is discarded on a module not holding ACTIVE. -/
  | canPush (ch : Fin 4)
  /-- CAN_BSTAT_READ (R689): A read of CAN_BSTAT returns and clears NEW_DATA of the selected buffer. -/
  | canBstatRead (ch : Fin 4)
  /-- FEED_QUALIFIED (R699): A feed within its operating range for 100 ms, or 5 ms during hold-up, is qualified. -/
  | feedQualified (feed : Fin 2) (dv : Fin 1024) (t : Nat)
  /-- FEED_LOST (R718): A feed below 33.0 V or above 78.0 V for 20 µs is lost. -/
  | feedLost (feed : Fin 2) (dv : Fin 1024) (t : Nat)
  /-- HOLD_UP_BEGIN (R719): Both feeds below the brown-out threshold for 20 µs begin the hold-up sequence. -/
  | holdUpBegin (t : Nat)
  /-- LAST_WORDS_COMPLETE (R719): At t0 + 1 ms of hold-up the last-words record is complete and the recorder tail flushed. -/
  | lastWordsComplete (t : Nat)
  /-- HOLD_UP_POWER_DOWN (R719): At t0 + 3 ms of hold-up every domain except PD0 and PD1 is switched off and panel discharge begins. -/
  | holdUpPowerDown (t : Nat)
  /-- PANEL_DISCHARGE_COMPLETE (R772): At t0 + 8 ms of hold-up the panel discharge completes and PD1 goes off. -/
  | panelDischargeComplete (t : Nat)
  /-- HOLD_UP_END (R720): At t0 + 10 ms PD0 goes off, or S0 begins with cause 4 when a feed is qualified. -/
  | holdUpEnd (t : Nat)
  /-- STAGE_END (R695): A bring-up stage meets its end condition and the next stage begins. -/
  | stageEnd (bankDj : Fin 256) (trips : Fin 16) (spared : Option (Fin 16)) (t : Nat)
  /-- STAGE_TIMEOUT (R696): A stage exceeds its maximum and bring-up fails. -/
  | stageTimeout (dom : Fin 24) (failed : Bool) (t : Nat)
  /-- DOMAIN_POWER_UP_RETRY (R697): A domain that failed at power-up is tried again 100 ms later. -/
  | domainPowerUpRetry (dom : Fin 24) (ok : Bool) (t : Nat)
  /-- BRING_UP_RETRY (R696): After a bring-up failure in S1 the module waits 10 s and begins again at S0. -/
  | bringUpRetry (t : Nat)
  /-- SLOT_ID_READ (R698): The supervisor reads SLOT_ID[3:0] again every 1 s until valid. -/
  | slotIdRead (pins : Fin 16) (t : Nat)
  /-- BANK_CHARGE_TIMEOUT (R701): The hold-up bank has not reached 5.6 J within 1 s and S0 ends all the same. -/
  | bankChargeTimeout (bankDj : Fin 256) (t : Nat)
  /-- DOMAIN_FAULT (R692): A powered domain loses power-good, overcurrents or stops answering and is switched off. -/
  | domainFault (faults : List (Fin 24 × Fin 4)) (t : Nat)
  /-- RST_IN_HELD (R713): RST_IN_N low for 100 µs is a held reset that switches off every domain except PD0. -/
  | rstInHeld (t : Nat)
  /-- RST_IN_RELEASE (R714): RST_IN_N is released and the module begins at S0. -/
  | rstInRelease (t : Nat)
  /-- LIFE_WORD_LOST (R441): The supervisor receives no life word for 2 C0 cycles and the module sends the failing message. -/
  | lifeWordLost (t : Nat)
  /-- MOD_RESTART (R716): RESTART in MOD_CTL restarts, after a planned switchover where the partner is MATCHED. -/
  | modRestart (t : Nat)
  /-- MOD_FORCE_RESTART (R716): RESTART with FORCE restarts at once without a switchover. -/
  | modForceRestart (t : Nat)
  /-- MODULE_RESTART (R717): A restart sends the failing message, powers off all but PD0 and begins at S0. -/
  | moduleRestart (cause : Fin 9) (t : Nat)
  /-- OPSEC_TICK (R700): Operating seconds advance by one while PD0 is powered. -/
  | opsecTick (watts : Fin 65536) (aDv : Fin 1024) (bDv : Fin 1024) (bankDj : Fin 256) (prof : Fin 4) (t : Nat)
  /-- TEMPERATURE_SAMPLE (R821): The die, HBM and base sensors are sampled every 1 ms and HOT or critical restart judged. -/
  | temperatureSample (die : Int) (hbm : Int) (face : Int) (t : Nat)
  /-- QMP_FRAGMENT_RX (R731): A QMP fragment arrives and a request is executed when all its fragments are in. -/
  | qmpFragmentRx (ses : Fin 16) (b : List Byte) (t : Nat)
  /-- QMP_FRAGMENT_TIMEOUT (R731): Fragments of a request not complete within 1 s are discarded. -/
  | qmpFragmentTimeout (ses : Fin 16) (req : Nat) (t : Nat)
  /-- DTLS_HANDSHAKE (R725): A DTLS 1.3 handshake opens a control or monitor session or is refused. -/
  | dtlsHandshake (port : Fin 3) (key : List Byte) (onActive : Bool) (v6 : Bool) (ok : Bool) (addrHash : BitVec 32) (t : Nat)
  /-- SESSION_IDLE_TIMEOUT (R729): A session with no request for IDLE_S closes. -/
  | sessionIdleTimeout (ses : Fin 16) (t : Nat)
  /-- NETWORK_ECHO (R724): The module answers ARP, ICMP echo, Neighbor Discovery and ICMPv6 echo. -/
  | networkEcho (port : Fin 3) (kind : Fin 4) (fragment : Bool) (onActive : Bool)
  /-- READ (R736): QMP READ returns registers or points from one image. -/
  | read (ses : Fin 16) (req : Nat) (r : ReadReq) (t : Nat)
  /-- WRITE (R737): QMP WRITE executes up to 64 register stores in order. -/
  | write (ses : Fin 16) (req : Nat) (l : List (BitVec 32 × Word)) (t : Nat)
  /-- SUMMARY (R741): QMP SUMMARY returns the latest complete snapshot. -/
  | summary (ses : Fin 16) (req : Nat)
  /-- SWAP (R462): QMP SWAP starts a planned switchover on the active or is refused. -/
  | swap (ses : Fin 16) (req : Nat) (t : Nat)
  /-- EVENTS (R759): QMP EVENTS returns filtered records from FROM_SEQ. -/
  | events (ses : Fin 16) (req : Nat) (from_ : BitVec 64) (count : Fin 65536) (sev : Fin 3) (mask : BitVec 16)
  /-- TRACE_SAVE (R351): TRACE SAVE copies a completed capture into the capture store. -/
  | traceSave (ses : Fin 16) (req : Nat) (c : Fin 32) (k : Fin 65536)
  /-- TRACE_READ (R734): TRACE READ returns a capture from HBM. -/
  | traceRead (ses : Fin 16) (req : Nat) (c : Fin 32) (k : Fin 65536) (ch : Fin 8)
  /-- TRACE_LIST (R734): TRACE LIST lists the capture store. -/
  | traceList (ses : Fin 16) (req : Nat)
  /-- TIME_QUERY (R734): QMP TIME query returns the TIM_ registers. -/
  | timeQuery (ses : Fin 16) (req : Nat) (t : Nat)
  /-- TIME_STEP (R500): QMP TIME STEP requests a time restart on the active. -/
  | timeStep (ses : Fin 16) (req : Nat) (dom : Fin 2) (t : Nat)
  /-- TIME_APPLY (R500): QMP TIME APPLY applies a staged line time on the active. -/
  | timeApply (ses : Fin 16) (req : Nat) (t : Nat)
  /-- CENSUS_READ (R734): QMP CENSUS returns the station records of a ring. -/
  | censusRead (ses : Fin 16) (req : Nat) (ring : Fin 16)
  /-- CENSUS_NOW (R734): QMP CENSUS NOW starts a census as CENSUS_NOW does. -/
  | censusNow (ses : Fin 16) (req : Nat) (ring : Fin 16)
  /-- REJOIN (R734): QMP REJOIN acts as REJOIN in TWN_CTL. -/
  | rejoin (ses : Fin 16) (req : Nat) (t : Nat)
  /-- RESTART (R716): QMP RESTART acts as RESTART in MOD_CTL, with or without FORCE. -/
  | restart (ses : Fin 16) (req : Nat) (force : Bool) (t : Nat)
  /-- EVENT_RAISE (R748): A raised event reaches the recorder and is recorded, suppressed or lost. -/
  | eventRaise (t : Nat)
  /-- SUPPRESSION_REPORT (R753): A code's bucket holds a whole token again and a record of 0xE101 reports its suppressed raises. -/
  | suppressionReport (code : Fin 65536) (t : Nat)
  /-- ARCHIVE_BLOCK_WRITE (R756): A full archive block, or one 1 s after its oldest record, is written to flash. -/
  | archiveBlockWrite (t : Nat)
  /-- PANEL_UPDATE_START (R768): A held panel change starts an update no sooner than 5 s after the previous start. -/
  | panelUpdateStart (t : Nat)
  /-- PANEL_UPDATE_COMPLETE (R768): A panel update completes after 600 ms and its frame memory is checked. -/
  | panelUpdateComplete (crcOk : Bool) (t : Nat)
  /-- PANEL_CHECK (R770): Every 60 s the frame memory CRC is checked and a mismatch rewritten. -/
  | panelCheck (crcOk : Bool) (t : Nat)
  /-- LAMP_TEST_END (R775): The 1 s lamp test at S1 ends and the lamps follow their sources. -/
  | lampTestEnd (t : Nat)
  /-- BUTTON_RELEASE (R777): A button press of 0.1 s to 10 s is released and acts by its length and the module's role. -/
  | buttonRelease (ms : Nat) (t : Nat)
  /-- BUTTON_STUCK (R780): A press still closed after 10 s is a stuck button. -/
  | buttonStuck (t : Nat)
  /-- BUTTON_UNSTUCK (R780): The button open for 1 s clears STUCK. -/
  | buttonUnstuck (t : Nat)
  /-- CONFIRM_EXPIRY (R778): A restart confirmation not given within 3 s expires. -/
  | confirmExpiry (t : Nat)
  /-- LATCHED_LOW_WORD_READ (R195): A read of the low word of a 64-bit register latches its high word. -/
  | latchedLowWordRead (off : BitVec 32)
  /-- RC_FIELD_READ (R20): A read of a register with an RC field returns the field and clears it. -/
  | rcFieldRead (off : BitVec 32)
  /-- REGISTER_WRITE (R18): A write to a register without its own row acts by the access codes of its fields. -/
  | registerWrite (cp : Option (Fin 32)) (level : Fin 4) (off : BitVec 32) (v : Word) (t : Nat)
  /-- PD0_POWER_UP (R700): A feed first appears at X1, PD0 powers up, the power-cycle count is incremented, the PROF pins are latched and S0 begins. -/
  | pd0PowerUp (prof : Fin 4) (t : Nat)
  /-- KEY_RECORD_FROM_ACTIVE (R66): The standby receives a key record that the active passes on so that it is applied to both twins. -/
  | keyRecordFromActive (r : KeyRecord)
  /-- CENSUS_RESULTS_FROM_ACTIVE (R403): The standby receives the active's census results and schedule over the twin link. -/
  | censusResultsFromActive (ring : Fin 16) (entries : List CensusEntry) (sched : Sched) (at_ : Nat) (endLoop : Bool) (farPort : Fin 16) (fcs : Nat) (other : Nat)
  /-- HANDOVER_START_FROM_ACTIVE (R101): The standby learns that a HANDOVER was accepted, stops its own burst, takes up the copy burst and starts its image restart. -/
  | handoverStartFromActive (slot : Fin 4) (t : Nat)
  /-- PARTNER_RING_PORT_DOWN (R401): A module receives its partner's report over the twin link that a ring port is down, and the ring STATE becomes SINGLE. -/
  | partnerRingPortDown (ring : Fin 16) (up : Bool)
  deriving DecidableEq, Repr

end Sys2Proof
end

