-- ==== Sys2Proof/Decode.lean ====
section
/-! DEFINITION. Table words. No row of the table gives its command bits, so no word spells a command. -/
namespace Sys2Proof

/-- The command that a word spells by the bits of the table: none, since no row gives bits. -/
def decodeTableWord (_nbits _w : Nat) : Option Instr := none

end Sys2Proof
end

