-- ==== Sys2Proof/Machine/RegMap.lean ====
section
/-! DEFINITION. The register map of the management address space: every register of the chapters'
register tables (00 R14 to R21), its offset, its reset value, the access code of each of its bits and
the level that may write it; and a name for every field. -/
namespace Sys2Proof.Machine

/-- A register field: offset of its word, lowest bit, number of bits (00 R10). -/
structure Fld where
  off : Nat
  lo : Nat
  len : Nat
  deriving DecidableEq, Repr

/-- One register or array of registers: word offset `base + i·s1 + j·s2` for `i < c1`, `j < c2`; its reset value
(a reset the spec writes IMG, MRAM, flash or pins counts as 0 here); the masks of its RW, W1C, W1S, RC and RWL bits;
the lowest level that may write it (0 any, 1 S and M, 2 M only). All other bits are RO, WO or reserved. -/
structure RegRow where
  base : Nat
  s1 : Nat
  c1 : Nat
  s2 : Nat
  c2 : Nat
  reset : Nat
  rw : Nat
  w1c : Nat
  w1s : Nat
  rc : Nat
  rwl : Nat
  level : Nat
  deriving DecidableEq, Repr

-- IMG_STATUS (02_evouth_image)
def R.IMG_STATUS : Nat := 0x20000
def F.IMG_STATUS_RUN_SLOT : Fld := ⟨0x20000, 0, 2⟩
def F.IMG_STATUS_FACTORY : Fld := ⟨0x20000, 2, 1⟩
def F.IMG_STATUS_SEL_SRC : Fld := ⟨0x20000, 3, 2⟩
def F.IMG_STATUS_LOAD_STATE : Fld := ⟨0x20000, 8, 2⟩
def F.IMG_STATUS_LAST_FAIL : Fld := ⟨0x20000, 16, 8⟩
-- IMG_STRAP (02_evouth_image)
def R.IMG_STRAP : Nat := 0x20004
def F.IMG_STRAP_PROF_LATCH : Fld := ⟨0x20004, 0, 2⟩
def F.IMG_STRAP_PROF_LIVE : Fld := ⟨0x20004, 2, 2⟩
-- IMG_SEL (02_evouth_image)
def R.IMG_SEL : Nat := 0x20008
def F.IMG_SEL_SEL_SLOT : Fld := ⟨0x20008, 0, 2⟩
def F.IMG_SEL_SEL_FACTORY : Fld := ⟨0x20008, 2, 1⟩
def F.IMG_SEL_SEL_PERSIST : Fld := ⟨0x20008, 3, 1⟩
def F.IMG_SEL_SEL_SET : Fld := ⟨0x20008, 4, 1⟩
def F.IMG_SEL_SEL_CLEAR : Fld := ⟨0x20008, 5, 1⟩
-- IMG_ID (02_evouth_image)
def R.IMG_ID (n : Nat) : Nat := 0x20010 + 0x4 * n
def F.IMG_ID_ID_WORD (n : Nat) : Fld := ⟨0x20010 + 0x4 * n, 0, 32⟩
-- IMG_SLOT (02_evouth_image)
def R.IMG_SLOT (n : Nat) : Nat := 0x20040 + 0x4 * n
def F.IMG_SLOT_SLOT_STATE (n : Nat) : Fld := ⟨0x20040 + 0x4 * n, 0, 2⟩
def F.IMG_SLOT_KEY_SLOT (n : Nat) : Fld := ⟨0x20040 + 0x4 * n, 2, 2⟩
def F.IMG_SLOT_IS_TARGET (n : Nat) : Fld := ⟨0x20040 + 0x4 * n, 4, 1⟩
def F.IMG_SLOT_LEN_MIB (n : Nat) : Fld := ⟨0x20040 + 0x4 * n, 16, 9⟩
-- IMG_KEYS (02_evouth_image)
def R.IMG_KEYS : Nat := 0x20080
def F.IMG_KEYS_KEY_STATE : Fld := ⟨0x20080, 0, 8⟩
-- IMG_CS_STATUS (02_evouth_image)
def R.IMG_CS_STATUS : Nat := 0x20100
def F.IMG_CS_STATUS_STAGED : Fld := ⟨0x20100, 0, 3⟩
def F.IMG_CS_STATUS_REFUSING : Fld := ⟨0x20100, 3, 1⟩
def F.IMG_CS_STATUS_JOURNAL_KIB : Fld := ⟨0x20100, 16, 16⟩
-- IMG_CS_LAST (02_evouth_image)
def R.IMG_CS_LAST : Nat := 0x20104
def F.IMG_CS_LAST_LAST_APPLIED : Fld := ⟨0x20104, 0, 32⟩
-- IMG_CS_DELAYS (02_evouth_image)
def R.IMG_CS_DELAYS : Nat := 0x20108
def F.IMG_CS_DELAYS_DELAYS : Fld := ⟨0x20108, 0, 32⟩
-- IMG_HO_STATUS (02_evouth_image)
def R.IMG_HO_STATUS : Nat := 0x20140
def F.IMG_HO_STATUS_HO_STATE : Fld := ⟨0x20140, 0, 4⟩
def F.IMG_HO_STATUS_REDUCED : Fld := ⟨0x20140, 4, 1⟩
def F.IMG_HO_STATUS_FIRST : Fld := ⟨0x20140, 5, 1⟩
def F.IMG_HO_STATUS_ELAPSED : Fld := ⟨0x20140, 16, 16⟩
-- FAB_STATUS (03_fabric_memory)
def R.FAB_STATUS : Nat := 0x40000
def F.FAB_STATUS_SLOW_LINK : Fld := ⟨0x40000, 0, 1⟩
def F.FAB_STATUS_HBM_STRESS : Fld := ⟨0x40000, 1, 1⟩
def F.FAB_STATUS_TAG_WAIT : Fld := ⟨0x40000, 2, 1⟩
def F.FAB_STATUS_KEY_DEFAULT : Fld := ⟨0x40000, 3, 1⟩
def F.FAB_STATUS_ECC_UE : Fld := ⟨0x40000, 4, 1⟩
-- FAB_VC0_OVER (03_fabric_memory)
def R.FAB_VC0_OVER : Nat := 0x40004
def F.FAB_VC0_OVER_OVER_COUNT : Fld := ⟨0x40004, 0, 32⟩
-- FAB_TAGS (03_fabric_memory)
def R.FAB_TAGS : Nat := 0x40008
def F.FAB_TAGS_VC0_INUSE : Fld := ⟨0x40008, 0, 13⟩
def F.FAB_TAGS_DATA_INUSE : Fld := ⟨0x40008, 16, 14⟩
-- FAB_TAG_TIMEOUT (03_fabric_memory)
def R.FAB_TAG_TIMEOUT : Nat := 0x4000c
def F.FAB_TAG_TIMEOUT_TIMEOUTS : Fld := ⟨0x4000c, 0, 32⟩
-- FAB_HBM_STRESS (03_fabric_memory)
def R.FAB_HBM_STRESS : Nat := 0x40010
def F.FAB_HBM_STRESS_IN_STRESS : Fld := ⟨0x40010, 0, 32⟩
-- FAB_HBM_STRESS_SEEN (03_fabric_memory)
def R.FAB_HBM_STRESS_SEEN : Nat := 0x40014
def F.FAB_HBM_STRESS_SEEN_SEEN : Fld := ⟨0x40014, 0, 32⟩
-- FAB_CONFIG (03_fabric_memory)
def R.FAB_CONFIG : Nat := 0x40018
def F.FAB_CONFIG_W_VC1 : Fld := ⟨0x40018, 0, 4⟩
def F.FAB_CONFIG_W_VC2 : Fld := ⟨0x40018, 4, 4⟩
def F.FAB_CONFIG_W_VC3 : Fld := ⟨0x40018, 8, 4⟩
def F.FAB_CONFIG_ORDER : Fld := ⟨0x40018, 12, 4⟩
def F.FAB_CONFIG_FLOOR_PCT : Fld := ⟨0x40018, 16, 6⟩
-- FAB_ECC (03_fabric_memory)
def R.FAB_ECC : Nat := 0x40020
def F.FAB_ECC_SRAM_CE : Fld := ⟨0x40020, 0, 16⟩
def F.FAB_ECC_HBM_CE : Fld := ⟨0x40020, 16, 16⟩
-- FAB_SLOW (03_fabric_memory)
def R.FAB_SLOW (n : Nat) : Nat := 0x40040 + 0x4 * n
def F.FAB_SLOW_SLOW (n : Nat) : Fld := ⟨0x40040 + 0x4 * n, 0, 32⟩
-- SIG_STATUS (04_signal_image)
def R.SIG_STATUS : Nat := 0x80000
def F.SIG_STATUS_FORCES_ON : Fld := ⟨0x80000, 0, 1⟩
def F.SIG_STATUS_FORCE_FULL : Fld := ⟨0x80000, 1, 1⟩
def F.SIG_STATUS_OWNER_FAULT : Fld := ⟨0x80000, 2, 1⟩
def F.SIG_STATUS_STORE_FAULT : Fld := ⟨0x80000, 3, 1⟩
def F.SIG_STATUS_PFORCE_DISCARD : Fld := ⟨0x80000, 4, 1⟩
def F.SIG_STATUS_INDEXED_DROP : Fld := ⟨0x80000, 5, 1⟩
-- SIG_CLOSED (04_signal_image)
def R.SIG_CLOSED : Nat := 0x80008
-- SIG_FORCE_COUNT (04_signal_image)
def R.SIG_FORCE_COUNT : Nat := 0x80010
def F.SIG_FORCE_COUNT_ACTIVE : Fld := ⟨0x80010, 0, 13⟩
def F.SIG_FORCE_COUNT_PERSISTENT : Fld := ⟨0x80010, 16, 13⟩
-- SIG_OWNER_FAULTS (04_signal_image)
def R.SIG_OWNER_FAULTS : Nat := 0x80014
def F.SIG_OWNER_FAULTS_REFUSED : Fld := ⟨0x80014, 0, 32⟩
-- SIG_LAST_FAULT (04_signal_image)
def R.SIG_LAST_FAULT : Nat := 0x80018
def F.SIG_LAST_FAULT_POINT : Fld := ⟨0x80018, 0, 20⟩
def F.SIG_LAST_FAULT_PARTITION : Fld := ⟨0x80018, 20, 8⟩
-- SIG_CLASSES (04_signal_image)
def R.SIG_CLASSES : Nat := 0x8001c
def F.SIG_CLASSES_IN_USE : Fld := ⟨0x8001c, 0, 8⟩
-- CYC_STATUS (05_cyclic_execution)
def R.CYC_STATUS : Nat := 0xc0000
def F.CYC_STATUS_RUNNING : Fld := ⟨0xc0000, 0, 1⟩
def F.CYC_STATUS_OVERRUN : Fld := ⟨0xc0000, 1, 1⟩
def F.CYC_STATUS_ABORT : Fld := ⟨0xc0000, 2, 1⟩
def F.CYC_STATUS_HALTED : Fld := ⟨0xc0000, 3, 1⟩
def F.CYC_STATUS_CORE_FAULTY : Fld := ⟨0xc0000, 4, 1⟩
def F.CYC_STATUS_LAG : Fld := ⟨0xc0000, 5, 1⟩
def F.CYC_STATUS_LATE_STAGE : Fld := ⟨0xc0000, 6, 1⟩
-- CYC_COUNT (05_cyclic_execution)
def R.CYC_COUNT : Nat := 0xc0008
-- CYC_PCTL (05_cyclic_execution)
def R.CYC_PCTL : Nat := 0xc0010
def F.CYC_PCTL_PART : Fld := ⟨0xc0010, 0, 8⟩
def F.CYC_PCTL_ACTION : Fld := ⟨0xc0010, 8, 2⟩
def F.CYC_PCTL_GO : Fld := ⟨0xc0010, 16, 1⟩
def F.CYC_PCTL_PENDING : Fld := ⟨0xc0010, 17, 1⟩
def F.CYC_PCTL_REFUSED : Fld := ⟨0xc0010, 18, 1⟩
-- CYC_T_AGREE (05_cyclic_execution)
def R.CYC_T_AGREE : Nat := 0xc0018
def F.CYC_T_AGREE_LAST : Fld := ⟨0xc0018, 0, 16⟩
def F.CYC_T_AGREE_MAX : Fld := ⟨0xc0018, 16, 16⟩
-- CYC_T_STAGE (05_cyclic_execution)
def R.CYC_T_STAGE : Nat := 0xc001c
def F.CYC_T_STAGE_LAST : Fld := ⟨0xc001c, 0, 16⟩
def F.CYC_T_STAGE_MAX : Fld := ⟨0xc001c, 16, 16⟩
-- CYC_LAG (05_cyclic_execution)
def R.CYC_LAG : Nat := 0xc0020
def F.CYC_LAG_LAG_CYCLES : Fld := ⟨0xc0020, 0, 32⟩
-- CYC_CORE (05_cyclic_execution)
def R.CYC_CORE (n : Nat) : Nat := 0xc0100 + 0x4 * n
def F.CYC_CORE_STATE (n : Nat) : Fld := ⟨0xc0100 + 0x4 * n, 0, 2⟩
def F.CYC_CORE_LOCKSTEP (n : Nat) : Fld := ⟨0xc0100 + 0x4 * n, 8, 8⟩
def F.CYC_CORE_SLOW_CYCLES (n : Nat) : Fld := ⟨0xc0100 + 0x4 * n, 16, 16⟩
-- CYC_PSTATE (05_cyclic_execution)
def R.CYC_PSTATE (p : Nat) : Nat := 0xc1000 + 0x20 * p
def F.CYC_PSTATE_STATE (p : Nat) : Fld := ⟨0xc1000 + 0x20 * p, 0, 3⟩
def F.CYC_PSTATE_CLASS (p : Nat) : Fld := ⟨0xc1000 + 0x20 * p, 4, 3⟩
def F.CYC_PSTATE_CORE_PAIR (p : Nat) : Fld := ⟨0xc1000 + 0x20 * p, 8, 5⟩
def F.CYC_PSTATE_LAST_FAULT (p : Nat) : Fld := ⟨0xc1000 + 0x20 * p, 16, 4⟩
-- CYC_PCOUNT (05_cyclic_execution)
def R.CYC_PCOUNT (p : Nat) : Nat := 0xc1004 + 0x20 * p
def F.CYC_PCOUNT_OVERRUNS (p : Nat) : Fld := ⟨0xc1004 + 0x20 * p, 0, 16⟩
def F.CYC_PCOUNT_SKIPS (p : Nat) : Fld := ⟨0xc1004 + 0x20 * p, 16, 16⟩
-- CYC_PFAULT (05_cyclic_execution)
def R.CYC_PFAULT (p : Nat) : Nat := 0xc1008 + 0x20 * p
def F.CYC_PFAULT_ABORTS (p : Nat) : Fld := ⟨0xc1008 + 0x20 * p, 0, 16⟩
def F.CYC_PFAULT_HALTS (p : Nat) : Fld := ⟨0xc1008 + 0x20 * p, 16, 8⟩
-- CYC_PRUN (05_cyclic_execution)
def R.CYC_PRUN (p : Nat) : Nat := 0xc100c + 0x20 * p
def F.CYC_PRUN_LAST_RUN (p : Nat) : Fld := ⟨0xc100c + 0x20 * p, 0, 32⟩
-- CYC_PMAX (05_cyclic_execution)
def R.CYC_PMAX (p : Nat) : Nat := 0xc1010 + 0x20 * p
def F.CYC_PMAX_MAX_RUN (p : Nat) : Fld := ⟨0xc1010 + 0x20 * p, 0, 32⟩
-- CYC_PRUNS (05_cyclic_execution)
def R.CYC_PRUNS (p : Nat) : Nat := 0xc1014 + 0x20 * p
def F.CYC_PRUNS_RUNS (p : Nat) : Fld := ⟨0xc1014 + 0x20 * p, 0, 32⟩
-- SLOT_CFG (06_loop_laws)
def R.SLOT_CFG (slot : Nat) : Nat := 0x20000000 + 0x400 * slot
def F.SLOT_CFG_LAW (slot : Nat) : Fld := ⟨0x20000000 + 0x400 * slot, 0, 3⟩
def F.SLOT_CFG_CLASS (slot : Nat) : Fld := ⟨0x20000000 + 0x400 * slot, 4, 3⟩
def F.SLOT_CFG_NREG (slot : Nat) : Fld := ⟨0x20000000 + 0x400 * slot, 8, 4⟩
def F.SLOT_CFG_SPAN (slot : Nat) : Fld := ⟨0x20000000 + 0x400 * slot, 12, 2⟩
def F.SLOT_CFG_HEAD (slot : Nat) : Fld := ⟨0x20000000 + 0x400 * slot, 16, 14⟩
-- SLOT_STATUS (06_loop_laws)
def R.SLOT_STATUS (slot : Nat) : Nat := 0x20000004 + 0x400 * slot
def F.SLOT_STATUS_FAULT (slot : Nat) : Fld := ⟨0x20000004 + 0x400 * slot, 0, 1⟩
def F.SLOT_STATUS_FAULT_KIND (slot : Nat) : Fld := ⟨0x20000004 + 0x400 * slot, 1, 3⟩
def F.SLOT_STATUS_LIMIT_HIT (slot : Nat) : Fld := ⟨0x20000004 + 0x400 * slot, 4, 1⟩
def F.SLOT_STATUS_LIM_NOW (slot : Nat) : Fld := ⟨0x20000004 + 0x400 * slot, 5, 1⟩
def F.SLOT_STATUS_INT_HELD (slot : Nat) : Fld := ⟨0x20000004 + 0x400 * slot, 6, 1⟩
def F.SLOT_STATUS_OVFL (slot : Nat) : Fld := ⟨0x20000004 + 0x400 * slot, 7, 1⟩
def F.SLOT_STATUS_Q_IN (slot : Nat) : Fld := ⟨0x20000004 + 0x400 * slot, 8, 1⟩
def F.SLOT_STATUS_INF_IN (slot : Nat) : Fld := ⟨0x20000004 + 0x400 * slot, 9, 1⟩
def F.SLOT_STATUS_FE (slot : Nat) : Fld := ⟨0x20000004 + 0x400 * slot, 10, 1⟩
def F.SLOT_STATUS_GAP (slot : Nat) : Fld := ⟨0x20000004 + 0x400 * slot, 11, 1⟩
def F.SLOT_STATUS_CLR_PENDING (slot : Nat) : Fld := ⟨0x20000004 + 0x400 * slot, 12, 1⟩
def F.SLOT_STATUS_REGION (slot : Nat) : Fld := ⟨0x20000004 + 0x400 * slot, 16, 3⟩
def F.SLOT_STATUS_AUTO (slot : Nat) : Fld := ⟨0x20000004 + 0x400 * slot, 19, 1⟩
-- SLOT_SAMPLES (06_loop_laws)
def R.SLOT_SAMPLES (slot : Nat) : Nat := 0x20000008 + 0x400 * slot
def F.SLOT_SAMPLES_SAMPLES (slot : Nat) : Fld := ⟨0x20000008 + 0x400 * slot, 0, 32⟩
-- SLOT_LAST (06_loop_laws)
def R.SLOT_LAST (slot : Nat) : Nat := 0x2000000c + 0x400 * slot
def F.SLOT_LAST_BOUNDARY (slot : Nat) : Fld := ⟨0x2000000c + 0x400 * slot, 0, 32⟩
-- SLOT_OUT (06_loop_laws)
def R.SLOT_OUT (slot n : Nat) : Nat := 0x20000010 + 0x400 * slot + 0x4 * n
def F.SLOT_OUT_OUT (slot n : Nat) : Fld := ⟨0x20000010 + 0x400 * slot + 0x4 * n, 0, 32⟩
-- SLOT_PORT (06_loop_laws)
def R.SLOT_PORT (slot n : Nat) : Nat := 0x20000040 + 0x400 * slot + 0x4 * n
def F.SLOT_PORT_POINT (slot n : Nat) : Fld := ⟨0x20000040 + 0x400 * slot + 0x4 * n, 0, 20⟩
def F.SLOT_PORT_QPOL (slot n : Nat) : Fld := ⟨0x20000040 + 0x400 * slot + 0x4 * n, 24, 2⟩
def F.SLOT_PORT_OUTPUT (slot n : Nat) : Fld := ⟨0x20000040 + 0x400 * slot + 0x4 * n, 30, 1⟩
def F.SLOT_PORT_BOUND (slot n : Nat) : Fld := ⟨0x20000040 + 0x400 * slot + 0x4 * n, 31, 1⟩
-- LPE_STATUS (06_loop_laws)
def R.LPE_STATUS : Nat := 0x100000
def F.LPE_STATUS_RUNNING : Fld := ⟨0x100000, 0, 1⟩
def F.LPE_STATUS_FAULTED : Fld := ⟨0x100000, 1, 1⟩
def F.LPE_STATUS_LIMIT_ANY : Fld := ⟨0x100000, 2, 1⟩
def F.LPE_STATUS_OVFL_ANY : Fld := ⟨0x100000, 3, 1⟩
def F.LPE_STATUS_SPARE_BUSY : Fld := ⟨0x100000, 4, 1⟩
-- LPE_USE (06_loop_laws)
def R.LPE_USE : Nat := 0x100004
def F.LPE_USE_SLOTS : Fld := ⟨0x100004, 0, 15⟩
def F.LPE_USE_FAULTED : Fld := ⟨0x100004, 16, 15⟩
-- LPE_LAST_FAULT (06_loop_laws)
def R.LPE_LAST_FAULT : Nat := 0x100008
def F.LPE_LAST_FAULT_SLOT : Fld := ⟨0x100008, 0, 14⟩
def F.LPE_LAST_FAULT_KIND : Fld := ⟨0x100008, 16, 3⟩
def F.LPE_LAST_FAULT_PORT : Fld := ⟨0x100008, 20, 4⟩
-- LPE_FAULTS (06_loop_laws)
def R.LPE_FAULTS : Nat := 0x10000c
def F.LPE_FAULTS_FAULTS : Fld := ⟨0x10000c, 0, 32⟩
-- LPE_OVFL (06_loop_laws)
def R.LPE_OVFL : Nat := 0x100010
def F.LPE_OVFL_REPLACED : Fld := ⟨0x100010, 0, 32⟩
-- LPE_PAIR (06_loop_laws)
def R.LPE_PAIR (n : Nat) : Nat := 0x100100 + 0x4 * n
def F.LPE_PAIR_SLOTS (n : Nat) : Fld := ⟨0x100100 + 0x4 * n, 0, 11⟩
def F.LPE_PAIR_LOAD_PCT (n : Nat) : Fld := ⟨0x100100 + 0x4 * n, 16, 8⟩
def F.LPE_PAIR_STATE (n : Nat) : Fld := ⟨0x100100 + 0x4 * n, 24, 2⟩
-- LPE_PHASE (06_loop_laws)
def R.LPE_PHASE (n : Nat) : Nat := 0x100140 + 0x4 * n
def F.LPE_PHASE_RES_M_NS (n : Nat) : Fld := ⟨0x100140 + 0x4 * n, 0, 16⟩
def F.LPE_PHASE_RES_P_NS (n : Nat) : Fld := ⟨0x100140 + 0x4 * n, 16, 16⟩
-- SLOT_SCHED (07_loop_operation)
def R.SLOT_SCHED (slot : Nat) : Nat := 0x20000020 + 0x400 * slot
def F.SLOT_SCHED_X (slot : Nat) : Fld := ⟨0x20000020 + 0x400 * slot, 0, 32⟩
-- SLOT_MODE (07_loop_operation)
def R.SLOT_MODE (slot : Nat) : Nat := 0x20000024 + 0x400 * slot
def F.SLOT_MODE_DEF_AUTO (slot : Nat) : Fld := ⟨0x20000024 + 0x400 * slot, 0, 1⟩
def F.SLOT_MODE_MAN_LATCHED (slot : Nat) : Fld := ⟨0x20000024 + 0x400 * slot, 1, 1⟩
def F.SLOT_MODE_TRANSFERS (slot : Nat) : Fld := ⟨0x20000024 + 0x400 * slot, 16, 16⟩
-- SLOT_MANV (07_loop_operation)
def R.SLOT_MANV (slot : Nat) : Nat := 0x20000028 + 0x400 * slot
def F.SLOT_MANV_M (slot : Nat) : Fld := ⟨0x20000028 + 0x400 * slot, 0, 32⟩
-- SLOT_MANREF (07_loop_operation)
def R.SLOT_MANREF (slot : Nat) : Nat := 0x2000002c + 0x400 * slot
def F.SLOT_MANREF_MANREF (slot : Nat) : Fld := ⟨0x2000002c + 0x400 * slot, 0, 32⟩
-- SLOT_RCHG (07_loop_operation)
def R.SLOT_RCHG (slot : Nat) : Nat := 0x20000030 + 0x400 * slot
def F.SLOT_RCHG_CHANGES (slot : Nat) : Fld := ⟨0x20000030 + 0x400 * slot, 0, 32⟩
-- SLOT_HELD (07_loop_operation)
def R.SLOT_HELD (slot : Nat) : Nat := 0x20000034 + 0x400 * slot
def F.SLOT_HELD_CMP (slot : Nat) : Fld := ⟨0x20000034 + 0x400 * slot, 0, 16⟩
def F.SLOT_HELD_LATE (slot : Nat) : Fld := ⟨0x20000034 + 0x400 * slot, 16, 16⟩
-- LPE_SPARE (07_loop_operation)
def R.LPE_SPARE : Nat := 0x100014
def F.LPE_SPARE_STATE : Fld := ⟨0x100014, 0, 2⟩
def F.LPE_SPARE_PAIR : Fld := ⟨0x100014, 4, 4⟩
-- LPE_HEALTH (07_loop_operation)
def R.LPE_HEALTH (n : Nat) : Nat := 0x100180 + 0x4 * n
def F.LPE_HEALTH_STATE (n : Nat) : Fld := ⟨0x100180 + 0x4 * n, 0, 2⟩
def F.LPE_HEALTH_MISSES (n : Nat) : Fld := ⟨0x100180 + 0x4 * n, 8, 8⟩
def F.LPE_HEALTH_MISMATCH (n : Nat) : Fld := ⟨0x100180 + 0x4 * n, 16, 16⟩
-- TRC_STATUS (07_loop_operation)
def R.TRC_STATUS : Nat := 0x380000
def F.TRC_STATUS_BUSY : Fld := ⟨0x380000, 0, 32⟩
-- TRC_CTL (07_loop_operation)
def R.TRC_CTL (c : Nat) : Nat := 0x381000 + 0x100 * c
def F.TRC_CTL_ARM (c : Nat) : Fld := ⟨0x381000 + 0x100 * c, 0, 1⟩
def F.TRC_CTL_SW_TRIG (c : Nat) : Fld := ⟨0x381000 + 0x100 * c, 1, 1⟩
def F.TRC_CTL_ABORT (c : Nat) : Fld := ⟨0x381000 + 0x100 * c, 2, 1⟩
def F.TRC_CTL_MODE (c : Nat) : Fld := ⟨0x381000 + 0x100 * c, 3, 1⟩
def F.TRC_CTL_STATE (c : Nat) : Fld := ⟨0x381000 + 0x100 * c, 4, 3⟩
def F.TRC_CTL_CFG_ERR (c : Nat) : Fld := ⟨0x381000 + 0x100 * c, 7, 1⟩
def F.TRC_CTL_MISSED (c : Nat) : Fld := ⟨0x381000 + 0x100 * c, 16, 16⟩
-- TRC_TRIG (07_loop_operation)
def R.TRC_TRIG (c : Nat) : Nat := 0x381004 + 0x100 * c
def F.TRC_TRIG_TRIG_CH (c : Nat) : Fld := ⟨0x381004 + 0x100 * c, 0, 3⟩
def F.TRC_TRIG_COND (c : Nat) : Fld := ⟨0x381004 + 0x100 * c, 4, 3⟩
def F.TRC_TRIG_FLAG_BIT (c : Nat) : Fld := ⟨0x381004 + 0x100 * c, 8, 5⟩
-- TRC_LEVEL (07_loop_operation)
def R.TRC_LEVEL (c : Nat) : Nat := 0x381008 + 0x100 * c
def F.TRC_LEVEL_LEVEL (c : Nat) : Fld := ⟨0x381008 + 0x100 * c, 0, 32⟩
-- TRC_COUNTS (07_loop_operation)
def R.TRC_COUNTS (c : Nat) : Nat := 0x38100c + 0x100 * c
def F.TRC_COUNTS_PRE (c : Nat) : Fld := ⟨0x38100c + 0x100 * c, 0, 13⟩
def F.TRC_COUNTS_POST (c : Nat) : Fld := ⟨0x38100c + 0x100 * c, 16, 13⟩
-- TRC_TIME (07_loop_operation)
def R.TRC_TIME (c : Nat) : Nat := 0x381010 + 0x100 * c
def F.TRC_TIME_TRIG_COUNT (c : Nat) : Fld := ⟨0x381010 + 0x100 * c, 0, 32⟩
-- TRC_LOSS (07_loop_operation)
def R.TRC_LOSS (c : Nat) : Nat := 0x381014 + 0x100 * c
def F.TRC_LOSS_LOST (c : Nat) : Fld := ⟨0x381014 + 0x100 * c, 0, 32⟩
-- TRC_DONE (07_loop_operation)
def R.TRC_DONE (c : Nat) : Nat := 0x381018 + 0x100 * c
def F.TRC_DONE_CAPTURES (c : Nat) : Fld := ⟨0x381018 + 0x100 * c, 0, 16⟩
def F.TRC_DONE_LOSSY (c : Nat) : Fld := ⟨0x381018 + 0x100 * c, 16, 1⟩
-- TRC_CH (07_loop_operation)
def R.TRC_CH (c n : Nat) : Nat := 0x381020 + 0x100 * c + 0x4 * n
def F.TRC_CH_SLOT (c n : Nat) : Fld := ⟨0x381020 + 0x100 * c + 0x4 * n, 0, 14⟩
def F.TRC_CH_NODE (c n : Nat) : Fld := ⟨0x381020 + 0x100 * c + 0x4 * n, 16, 4⟩
-- RNG_STATUS (08_station_rings)
def R.RNG_STATUS (ring : Nat) : Nat := 0x140000 + 0x1000 * ring
def F.RNG_STATUS_STATE (ring : Nat) : Fld := ⟨0x140000 + 0x1000 * ring, 0, 3⟩
def F.RNG_STATUS_SCHED_OPEN (ring : Nat) : Fld := ⟨0x140000 + 0x1000 * ring, 3, 1⟩
def F.RNG_STATUS_LOOP_OPEN (ring : Nat) : Fld := ⟨0x140000 + 0x1000 * ring, 4, 1⟩
def F.RNG_STATUS_NOISY (ring : Nat) : Fld := ⟨0x140000 + 0x1000 * ring, 5, 1⟩
def F.RNG_STATUS_STOP_TX (ring : Nat) : Fld := ⟨0x140000 + 0x1000 * ring, 6, 1⟩
def F.RNG_STATUS_EPOCH_HIGH (ring : Nat) : Fld := ⟨0x140000 + 0x1000 * ring, 7, 1⟩
def F.RNG_STATUS_CENSUS_BUSY (ring : Nat) : Fld := ⟨0x140000 + 0x1000 * ring, 8, 1⟩
def F.RNG_STATUS_FOREIGN (ring : Nat) : Fld := ⟨0x140000 + 0x1000 * ring, 9, 1⟩
def F.RNG_STATUS_ABSENT (ring : Nat) : Fld := ⟨0x140000 + 0x1000 * ring, 10, 1⟩
def F.RNG_STATUS_PRESENT (ring : Nat) : Fld := ⟨0x140000 + 0x1000 * ring, 16, 8⟩
-- RNG_CFG (08_station_rings)
def R.RNG_CFG (ring : Nat) : Nat := 0x140004 + 0x1000 * ring
def F.RNG_CFG_RATE (ring : Nat) : Fld := ⟨0x140004 + 0x1000 * ring, 0, 2⟩
def F.RNG_CFG_FEC (ring : Nat) : Fld := ⟨0x140004 + 0x1000 * ring, 2, 2⟩
def F.RNG_CFG_HOLD_CYCLES (ring : Nat) : Fld := ⟨0x140004 + 0x1000 * ring, 4, 4⟩
def F.RNG_CFG_STATIONS (ring : Nat) : Fld := ⟨0x140004 + 0x1000 * ring, 8, 8⟩
def F.RNG_CFG_C0_STATIONS (ring : Nat) : Fld := ⟨0x140004 + 0x1000 * ring, 16, 7⟩
-- RNG_CTL (08_station_rings)
def R.RNG_CTL (ring : Nat) : Nat := 0x140008 + 0x1000 * ring
def F.RNG_CTL_STATION (ring : Nat) : Fld := ⟨0x140008 + 0x1000 * ring, 0, 8⟩
def F.RNG_CTL_RELEASE (ring : Nat) : Fld := ⟨0x140008 + 0x1000 * ring, 8, 1⟩
def F.RNG_CTL_CENSUS_NOW (ring : Nat) : Fld := ⟨0x140008 + 0x1000 * ring, 9, 1⟩
-- RNG_RX (08_station_rings)
def R.RNG_RX (ring : Nat) : Nat := 0x14000c + 0x1000 * ring
def F.RNG_RX_LOST (ring : Nat) : Fld := ⟨0x14000c + 0x1000 * ring, 0, 16⟩
def F.RNG_RX_LATE (ring : Nat) : Fld := ⟨0x14000c + 0x1000 * ring, 16, 16⟩
-- RNG_ARRIVAL (08_station_rings)
def R.RNG_ARRIVAL (ring : Nat) : Nat := 0x140010 + 0x1000 * ring
def F.RNG_ARRIVAL_LAST (ring : Nat) : Fld := ⟨0x140010 + 0x1000 * ring, 0, 16⟩
def F.RNG_ARRIVAL_MAX (ring : Nat) : Fld := ⟨0x140010 + 0x1000 * ring, 16, 16⟩
-- RNG_SCHED (08_station_rings)
def R.RNG_SCHED (ring : Nat) : Nat := 0x140014 + 0x1000 * ring
def F.RNG_SCHED_RX_DL (ring : Nat) : Fld := ⟨0x140014 + 0x1000 * ring, 0, 16⟩
def F.RNG_SCHED_ACYC_START (ring : Nat) : Fld := ⟨0x140014 + 0x1000 * ring, 16, 16⟩
-- RNG_AGREE (08_station_rings)
def R.RNG_AGREE (ring : Nat) : Nat := 0x140018 + 0x1000 * ring
def F.RNG_AGREE_FETCHED (ring : Nat) : Fld := ⟨0x140018 + 0x1000 * ring, 0, 16⟩
def F.RNG_AGREE_DIFF (ring : Nat) : Fld := ⟨0x140018 + 0x1000 * ring, 16, 16⟩
-- RNG_CENSUS (08_station_rings)
def R.RNG_CENSUS (ring : Nat) : Nat := 0x14001c + 0x1000 * ring
def F.RNG_CENSUS_DONE (ring : Nat) : Fld := ⟨0x14001c + 0x1000 * ring, 0, 16⟩
def F.RNG_CENSUS_ABANDONED (ring : Nat) : Fld := ⟨0x14001c + 0x1000 * ring, 16, 16⟩
-- RNG_LOOP (08_station_rings)
def R.RNG_LOOP (ring : Nat) : Nat := 0x140020 + 0x1000 * ring
def F.RNG_LOOP_A_END (ring : Nat) : Fld := ⟨0x140020 + 0x1000 * ring, 0, 8⟩
def F.RNG_LOOP_B_END (ring : Nat) : Fld := ⟨0x140020 + 0x1000 * ring, 8, 8⟩
-- RNG_STREAM (08_station_rings)
def R.RNG_STREAM (ring : Nat) : Nat := 0x140024 + 0x1000 * ring
def F.RNG_STREAM_MISSING (ring : Nat) : Fld := ⟨0x140024 + 0x1000 * ring, 0, 32⟩
-- RNG_REPEAT (08_station_rings)
def R.RNG_REPEAT (ring : Nat) : Nat := 0x140028 + 0x1000 * ring
def F.RNG_REPEAT_REPEATED (ring : Nat) : Fld := ⟨0x140028 + 0x1000 * ring, 0, 32⟩
-- RNG_EPOCH (08_station_rings)
def R.RNG_EPOCH (ring : Nat) : Nat := 0x14002c + 0x1000 * ring
def F.RNG_EPOCH_HIGHEST (ring : Nat) : Fld := ⟨0x14002c + 0x1000 * ring, 0, 32⟩
-- RNG_SCAP_CTL (08_station_rings)
def R.RNG_SCAP_CTL (ring : Nat) : Nat := 0x140030 + 0x1000 * ring
def F.RNG_SCAP_CTL_CHAN (ring : Nat) : Fld := ⟨0x140030 + 0x1000 * ring, 0, 8⟩
def F.RNG_SCAP_CTL_CLUSTER (ring : Nat) : Fld := ⟨0x140030 + 0x1000 * ring, 8, 5⟩
def F.RNG_SCAP_CTL_RUN (ring : Nat) : Fld := ⟨0x140030 + 0x1000 * ring, 16, 1⟩
def F.RNG_SCAP_CTL_CFG_ERR (ring : Nat) : Fld := ⟨0x140030 + 0x1000 * ring, 17, 1⟩
-- RNG_SCAP_LOSS (08_station_rings)
def R.RNG_SCAP_LOSS (ring : Nat) : Nat := 0x140034 + 0x1000 * ring
def F.RNG_SCAP_LOSS_LOST (ring : Nat) : Fld := ⟨0x140034 + 0x1000 * ring, 0, 32⟩
-- RNG_APPLY (08_station_rings)
def R.RNG_APPLY (ring : Nat) : Nat := 0x140038 + 0x1000 * ring
def F.RNG_APPLY_APPLY_OFF (ring : Nat) : Fld := ⟨0x140038 + 0x1000 * ring, 0, 16⟩
def F.RNG_APPLY_MARGIN (ring : Nat) : Fld := ⟨0x140038 + 0x1000 * ring, 16, 16⟩
-- RNG_STN_STATE (08_station_rings)
def R.RNG_STN_STATE (ring st : Nat) : Nat := 0x140100 + 0x1000 * ring + 0x8 * st
def F.RNG_STN_STATE_STATE (ring st : Nat) : Fld := ⟨0x140100 + 0x1000 * ring + 0x8 * st, 0, 3⟩
def F.RNG_STN_STATE_C0 (ring st : Nat) : Fld := ⟨0x140100 + 0x1000 * ring + 0x8 * st, 3, 1⟩
def F.RNG_STN_STATE_NOISY (ring st : Nat) : Fld := ⟨0x140100 + 0x1000 * ring + 0x8 * st, 4, 1⟩
def F.RNG_STN_STATE_SLOW (ring st : Nat) : Fld := ⟨0x140100 + 0x1000 * ring + 0x8 * st, 5, 1⟩
def F.RNG_STN_STATE_DELAY (ring st : Nat) : Fld := ⟨0x140100 + 0x1000 * ring + 0x8 * st, 8, 12⟩
-- RNG_STN_COUNT (08_station_rings)
def R.RNG_STN_COUNT (ring st : Nat) : Nat := 0x140104 + 0x1000 * ring + 0x8 * st
def F.RNG_STN_COUNT_A_LOST (ring st : Nat) : Fld := ⟨0x140104 + 0x1000 * ring + 0x8 * st, 0, 8⟩
def F.RNG_STN_COUNT_B_LOST (ring st : Nat) : Fld := ⟨0x140104 + 0x1000 * ring + 0x8 * st, 8, 8⟩
def F.RNG_STN_COUNT_BOTH_LOST (ring st : Nat) : Fld := ⟨0x140104 + 0x1000 * ring + 0x8 * st, 16, 8⟩
def F.RNG_STN_COUNT_SAFE_ENTRIES (ring st : Nat) : Fld := ⟨0x140104 + 0x1000 * ring + 0x8 * st, 24, 8⟩
-- TWN_STATUS (09_twin_operation)
def R.TWN_STATUS : Nat := 0x180000
def F.TWN_STATUS_ROLE : Fld := ⟨0x180000, 0, 2⟩
def F.TWN_STATUS_TWIN_B : Fld := ⟨0x180000, 2, 1⟩
def F.TWN_STATUS_HOME : Fld := ⟨0x180000, 3, 1⟩
def F.TWN_STATUS_TSTATE : Fld := ⟨0x180000, 4, 4⟩
def F.TWN_STATUS_PARTNER_TSTATE : Fld := ⟨0x180000, 8, 4⟩
def F.TWN_STATUS_FOX_OK : Fld := ⟨0x180000, 12, 1⟩
def F.TWN_STATUS_BADGER_OK : Fld := ⟨0x180000, 13, 1⟩
def F.TWN_STATUS_SUSPECT : Fld := ⟨0x180000, 14, 1⟩
def F.TWN_STATUS_REDUCED : Fld := ⟨0x180000, 15, 1⟩
def F.TWN_STATUS_REDUNDANT : Fld := ⟨0x180000, 16, 1⟩
def F.TWN_STATUS_EPOCH_UNSURE : Fld := ⟨0x180000, 17, 1⟩
def F.TWN_STATUS_PROOF_DUE : Fld := ⟨0x180000, 18, 1⟩
-- TWN_EPOCH (09_twin_operation)
def R.TWN_EPOCH : Nat := 0x180004
def F.TWN_EPOCH_EPOCH : Fld := ⟨0x180004, 0, 32⟩
-- TWN_PARTNER_EPOCH (09_twin_operation)
def R.TWN_PARTNER_EPOCH : Nat := 0x180008
def F.TWN_PARTNER_EPOCH_EPOCH : Fld := ⟨0x180008, 0, 32⟩
-- TWN_CTL (09_twin_operation)
def R.TWN_CTL : Nat := 0x18000c
def F.TWN_CTL_SWAP : Fld := ⟨0x18000c, 0, 1⟩
def F.TWN_CTL_REJOIN : Fld := ⟨0x18000c, 1, 1⟩
def F.TWN_CTL_PENDING : Fld := ⟨0x18000c, 8, 1⟩
def F.TWN_CTL_REFUSED : Fld := ⟨0x18000c, 9, 1⟩
-- TWN_JOIN (09_twin_operation)
def R.TWN_JOIN : Nat := 0x180010
def F.TWN_JOIN_STEP : Fld := ⟨0x180010, 0, 3⟩
def F.TWN_JOIN_PROGRESS : Fld := ⟨0x180010, 8, 7⟩
def F.TWN_JOIN_ELAPSED : Fld := ⟨0x180010, 16, 16⟩
-- TWN_REVERT (09_twin_operation)
def R.TWN_REVERT : Nat := 0x180014
def F.TWN_REVERT_REMAIN_S : Fld := ⟨0x180014, 0, 17⟩
def F.TWN_REVERT_RUNNING : Fld := ⟨0x180014, 17, 1⟩
-- TWN_CFG (09_twin_operation)
def R.TWN_CFG : Nat := 0x180018
def F.TWN_CFG_HOME_B : Fld := ⟨0x180018, 0, 1⟩
def F.TWN_CFG_NO_REVERT : Fld := ⟨0x180018, 1, 1⟩
def F.TWN_CFG_REVERT_HOLD : Fld := ⟨0x180018, 8, 17⟩
-- TWN_LAG (09_twin_operation)
def R.TWN_LAG : Nat := 0x18001c
def F.TWN_LAG_RECENT : Fld := ⟨0x18001c, 0, 8⟩
def F.TWN_LAG_DEMOTIONS : Fld := ⟨0x18001c, 16, 16⟩
-- TWN_DIVERGE (09_twin_operation)
def R.TWN_DIVERGE : Nat := 0x180020
def F.TWN_DIVERGE_OUT_MISMATCH : Fld := ⟨0x180020, 0, 16⟩
def F.TWN_DIVERGE_STATE_MISMATCH : Fld := ⟨0x180020, 16, 16⟩
-- TWN_DIV_LAST (09_twin_operation)
def R.TWN_DIV_LAST : Nat := 0x180024
def F.TWN_DIV_LAST_KIND : Fld := ⟨0x180024, 0, 2⟩
def F.TWN_DIV_LAST_ATTRIB : Fld := ⟨0x180024, 2, 1⟩
def F.TWN_DIV_LAST_CLASS : Fld := ⟨0x180024, 4, 3⟩
def F.TWN_DIV_LAST_HOUR : Fld := ⟨0x180024, 8, 2⟩
def F.TWN_DIV_LAST_STRIPE : Fld := ⟨0x180024, 16, 9⟩
-- TWN_HB (09_twin_operation)
def R.TWN_HB : Nat := 0x180028
def F.TWN_HB_FOX_MISS : Fld := ⟨0x180028, 0, 16⟩
def F.TWN_HB_BADGER_MISS : Fld := ⟨0x180028, 16, 16⟩
-- TWN_SWITCHES (09_twin_operation)
def R.TWN_SWITCHES : Nat := 0x18002c
def F.TWN_SWITCHES_TAKEOVERS : Fld := ⟨0x18002c, 0, 16⟩
def F.TWN_SWITCHES_PLANNED : Fld := ⟨0x18002c, 16, 16⟩
-- TWN_LAST_CHANGE (09_twin_operation)
def R.TWN_LAST_CHANGE : Nat := 0x180030
def F.TWN_LAST_CHANGE_CAUSE : Fld := ⟨0x180030, 0, 4⟩
def F.TWN_LAST_CHANGE_DAYS : Fld := ⟨0x180030, 16, 16⟩
-- TWN_LAST_COUNT (09_twin_operation)
def R.TWN_LAST_COUNT : Nat := 0x180034
def F.TWN_LAST_COUNT_C0_LOW : Fld := ⟨0x180034, 0, 32⟩
-- TIM_STATUS (10_time)
def R.TIM_STATUS : Nat := 0x1c0000
def F.TIM_STATUS_STATE : Fld := ⟨0x1c0000, 0, 3⟩
def F.TIM_STATUS_QUALITY : Fld := ⟨0x1c0000, 3, 2⟩
def F.TIM_STATUS_HOLDOVER : Fld := ⟨0x1c0000, 5, 1⟩
def F.TIM_STATUS_MADDER_OK : Fld := ⟨0x1c0000, 6, 1⟩
def F.TIM_STATUS_WOAD_OK : Fld := ⟨0x1c0000, 7, 1⟩
def F.TIM_STATUS_SLEWING : Fld := ⟨0x1c0000, 8, 1⟩
def F.TIM_STATUS_TIME_FAR : Fld := ⟨0x1c0000, 9, 1⟩
def F.TIM_STATUS_STARTED : Fld := ⟨0x1c0000, 10, 1⟩
def F.TIM_STATUS_ARB : Fld := ⟨0x1c0000, 11, 1⟩
def F.TIM_STATUS_TWIN_SPLIT : Fld := ⟨0x1c0000, 12, 1⟩
-- TIM_NS (10_time)
def R.TIM_NS : Nat := 0x1c0004
def F.TIM_NS_NS : Fld := ⟨0x1c0004, 0, 30⟩
-- TIM_SEC_LO (10_time)
def R.TIM_SEC_LO : Nat := 0x1c0008
def F.TIM_SEC_LO_SEC_LO : Fld := ⟨0x1c0008, 0, 32⟩
-- TIM_SEC_HI (10_time)
def R.TIM_SEC_HI : Nat := 0x1c000c
def F.TIM_SEC_HI_SEC_HI : Fld := ⟨0x1c000c, 0, 16⟩
-- TIM_SET_NS (10_time)
def R.TIM_SET_NS : Nat := 0x1c0010
def F.TIM_SET_NS_V : Fld := ⟨0x1c0010, 0, 30⟩
-- TIM_SET_SEC_LO (10_time)
def R.TIM_SET_SEC_LO : Nat := 0x1c0014
def F.TIM_SET_SEC_LO_V : Fld := ⟨0x1c0014, 0, 32⟩
-- TIM_SET_SEC_HI (10_time)
def R.TIM_SET_SEC_HI : Nat := 0x1c0018
def F.TIM_SET_SEC_HI_V : Fld := ⟨0x1c0018, 0, 16⟩
-- TIM_CTL (10_time)
def R.TIM_CTL : Nat := 0x1c001c
def F.TIM_CTL_APPLY : Fld := ⟨0x1c001c, 0, 1⟩
def F.TIM_CTL_STEP : Fld := ⟨0x1c001c, 1, 1⟩
def F.TIM_CTL_STEP_DOM : Fld := ⟨0x1c001c, 2, 1⟩
def F.TIM_CTL_APPLY_AT : Fld := ⟨0x1c001c, 3, 1⟩
def F.TIM_CTL_PENDING : Fld := ⟨0x1c001c, 4, 1⟩
def F.TIM_CTL_REFUSED : Fld := ⟨0x1c001c, 5, 1⟩
-- TIM_OFS_MADDER (10_time)
def R.TIM_OFS_MADDER : Nat := 0x1c0020
def F.TIM_OFS_MADDER_OFS : Fld := ⟨0x1c0020, 0, 32⟩
-- TIM_OFS_WOAD (10_time)
def R.TIM_OFS_WOAD : Nat := 0x1c0024
def F.TIM_OFS_WOAD_OFS : Fld := ⟨0x1c0024, 0, 32⟩
-- TIM_MW (10_time)
def R.TIM_MW : Nat := 0x1c0028
def F.TIM_MW_D_MW : Fld := ⟨0x1c0028, 0, 32⟩
-- TIM_ADJ (10_time)
def R.TIM_ADJ : Nat := 0x1c002c
def F.TIM_ADJ_ADJ_PPB : Fld := ⟨0x1c002c, 0, 32⟩
-- TIM_TWIN_OFS (10_time)
def R.TIM_TWIN_OFS : Nat := 0x1c0030
def F.TIM_TWIN_OFS_OFS : Fld := ⟨0x1c0030, 0, 32⟩
-- TIM_HOLD (10_time)
def R.TIM_HOLD : Nat := 0x1c0034
def F.TIM_HOLD_SECONDS : Fld := ⟨0x1c0034, 0, 32⟩
-- TIM_PPSIN (10_time)
def R.TIM_PPSIN : Nat := 0x1c0038
def F.TIM_PPSIN_OFS : Fld := ⟨0x1c0038, 0, 31⟩
def F.TIM_PPSIN_SEEN : Fld := ⟨0x1c0038, 31, 1⟩
-- TIM_UTC (10_time)
def R.TIM_UTC : Nat := 0x1c003c
def F.TIM_UTC_UTC_OFS : Fld := ⟨0x1c003c, 0, 16⟩
def F.TIM_UTC_UTC_VALID : Fld := ⟨0x1c003c, 16, 1⟩
-- LNK_STATUS (11_line_links)
def R.LNK_STATUS : Nat := 0x200000
def F.LNK_STATUS_LINK_UP : Fld := ⟨0x200000, 0, 4⟩
def F.LNK_STATUS_DECOUPLED : Fld := ⟨0x200000, 4, 1⟩
def F.LNK_STATUS_SINGLE : Fld := ⟨0x200000, 5, 1⟩
-- LNK_CFG (11_line_links)
def R.LNK_CFG : Nat := 0x200004
def F.LNK_CFG_PAIR_ID : Fld := ⟨0x200004, 0, 16⟩
def F.LNK_CFG_TOPO : Fld := ⟨0x200004, 16, 2⟩
def F.LNK_CFG_DECOUPLE_N : Fld := ⟨0x200004, 18, 8⟩
-- LNK_RX (11_line_links)
def R.LNK_RX (n : Nat) : Nat := 0x200010 + 0x4 * n
def F.LNK_RX_BAD (n : Nat) : Fld := ⟨0x200010 + 0x4 * n, 0, 16⟩
def F.LNK_RX_LATE (n : Nat) : Fld := ⟨0x200010 + 0x4 * n, 16, 16⟩
-- LNK_SUB (11_line_links)
def R.LNK_SUB (n : Nat) : Nat := 0x200100 + 0x4 * n
def F.LNK_SUB_STATE (n : Nat) : Fld := ⟨0x200100 + 0x4 * n, 0, 2⟩
def F.LNK_SUB_COPIES (n : Nat) : Fld := ⟨0x200100 + 0x4 * n, 2, 2⟩
def F.LNK_SUB_MISSED (n : Nat) : Fld := ⟨0x200100 + 0x4 * n, 16, 16⟩
-- ACC_STATUS (13_access_control)
def R.ACC_STATUS : Nat := 0x240000
def F.ACC_STATUS_DENIED_CP : Fld := ⟨0x240000, 0, 32⟩
-- ACC_CTL (13_access_control)
def R.ACC_CTL (c : Nat) : Nat := 0x241000 + 0x40 * c
def F.ACC_CTL_PART (c : Nat) : Fld := ⟨0x241000 + 0x40 * c, 0, 8⟩
def F.ACC_CTL_LOAD (c : Nat) : Fld := ⟨0x241000 + 0x40 * c, 8, 1⟩
def F.ACC_CTL_BUSY (c : Nat) : Fld := ⟨0x241000 + 0x40 * c, 9, 1⟩
def F.ACC_CTL_ERR (c : Nat) : Fld := ⟨0x241000 + 0x40 * c, 10, 1⟩
def F.ACC_CTL_ASET (c : Nat) : Fld := ⟨0x241000 + 0x40 * c, 11, 1⟩
def F.ACC_CTL_BYPASS (c : Nat) : Fld := ⟨0x241000 + 0x40 * c, 12, 1⟩
-- ACC_FADDR_LO (13_access_control)
def R.ACC_FADDR_LO (c : Nat) : Nat := 0x241004 + 0x40 * c
def F.ACC_FADDR_LO_ADDR_LO (c : Nat) : Fld := ⟨0x241004 + 0x40 * c, 0, 32⟩
-- ACC_FADDR_HI (13_access_control)
def R.ACC_FADDR_HI (c : Nat) : Nat := 0x241008 + 0x40 * c
def F.ACC_FADDR_HI_ADDR_HI (c : Nat) : Fld := ⟨0x241008 + 0x40 * c, 0, 8⟩
def F.ACC_FADDR_HI_HIGH_BITS (c : Nat) : Fld := ⟨0x241008 + 0x40 * c, 8, 1⟩
-- ACC_FINFO (13_access_control)
def R.ACC_FINFO (c : Nat) : Nat := 0x24100c + 0x40 * c
def F.ACC_FINFO_LEVEL (c : Nat) : Fld := ⟨0x24100c + 0x40 * c, 0, 2⟩
def F.ACC_FINFO_KIND (c : Nat) : Fld := ⟨0x24100c + 0x40 * c, 2, 2⟩
def F.ACC_FINFO_MATCH (c : Nat) : Fld := ⟨0x24100c + 0x40 * c, 4, 2⟩
def F.ACC_FINFO_INDEX (c : Nat) : Fld := ⟨0x24100c + 0x40 * c, 6, 6⟩
def F.ACC_FINFO_SET (c : Nat) : Fld := ⟨0x24100c + 0x40 * c, 12, 1⟩
def F.ACC_FINFO_SIZE_RULE (c : Nat) : Fld := ⟨0x24100c + 0x40 * c, 13, 1⟩
def F.ACC_FINFO_SPILL (c : Nat) : Fld := ⟨0x24100c + 0x40 * c, 14, 1⟩
-- ACC_FCOUNT (13_access_control)
def R.ACC_FCOUNT (c : Nat) : Nat := 0x241010 + 0x40 * c
def F.ACC_FCOUNT_DENIALS (c : Nat) : Fld := ⟨0x241010 + 0x40 * c, 0, 32⟩
-- ACC_SLOT (13_access_control)
def R.ACC_SLOT (c n : Nat) : Nat := 0x248000 + 0x400 * c + 0x4 * n
def F.ACC_SLOT_PERM (c n : Nat) : Fld := ⟨0x248000 + 0x400 * c + 0x4 * n, 0, 9⟩
-- ACC_SLOTB (13_access_control)
def R.ACC_SLOTB (c n : Nat) : Nat := 0x248180 + 0x400 * c + 0x4 * n
def F.ACC_SLOTB_PERM (c n : Nat) : Fld := ⟨0x248180 + 0x400 * c + 0x4 * n, 0, 9⟩
-- ACC_RBASE (13_access_control)
def R.ACC_RBASE (c r : Nat) : Nat := 0x248100 + 0x400 * c + 0x8 * r
def F.ACC_RBASE_BASE (c r : Nat) : Fld := ⟨0x248100 + 0x400 * c + 0x8 * r, 0, 28⟩
-- ACC_RBASEB (13_access_control)
def R.ACC_RBASEB (c r : Nat) : Nat := 0x248280 + 0x400 * c + 0x8 * r
def F.ACC_RBASEB_BASE (c r : Nat) : Fld := ⟨0x248280 + 0x400 * c + 0x8 * r, 0, 28⟩
-- ACC_RATTR (13_access_control)
def R.ACC_RATTR (c r : Nat) : Nat := 0x248104 + 0x400 * c + 0x8 * r
def F.ACC_RATTR_PERM (c r : Nat) : Fld := ⟨0x248104 + 0x400 * c + 0x8 * r, 0, 9⟩
def F.ACC_RATTR_SIZE (c r : Nat) : Fld := ⟨0x248104 + 0x400 * c + 0x8 * r, 16, 6⟩
def F.ACC_RATTR_EN (c r : Nat) : Fld := ⟨0x248104 + 0x400 * c + 0x8 * r, 31, 1⟩
-- ACC_RATTRB (13_access_control)
def R.ACC_RATTRB (c r : Nat) : Nat := 0x248284 + 0x400 * c + 0x8 * r
def F.ACC_RATTRB_PERM (c r : Nat) : Fld := ⟨0x248284 + 0x400 * c + 0x8 * r, 0, 9⟩
def F.ACC_RATTRB_SIZE (c r : Nat) : Fld := ⟨0x248284 + 0x400 * c + 0x8 * r, 16, 6⟩
def F.ACC_RATTRB_EN (c r : Nat) : Fld := ⟨0x248284 + 0x400 * c + 0x8 * r, 31, 1⟩
-- DIO_STATUS (14_local_io)
def R.DIO_STATUS : Nat := 0x280000
def F.DIO_STATUS_XING_OK : Fld := ⟨0x280000, 0, 3⟩
def F.DIO_STATUS_TRIPPED : Fld := ⟨0x280000, 3, 1⟩
def F.DIO_STATUS_TRIP_HELD : Fld := ⟨0x280000, 4, 1⟩
def F.DIO_STATUS_DO_FAULT : Fld := ⟨0x280000, 5, 2⟩
def F.DIO_STATUS_DO_FAULT_SEEN : Fld := ⟨0x280000, 7, 1⟩
def F.DIO_STATUS_WIRE_BREAK : Fld := ⟨0x280000, 8, 1⟩
def F.DIO_STATUS_RELEASED : Fld := ⟨0x280000, 9, 1⟩
def F.DIO_STATUS_CAL_NONE : Fld := ⟨0x280000, 10, 1⟩
-- DIO_IN (14_local_io)
def R.DIO_IN : Nat := 0x280004
def F.DIO_IN_STATE : Fld := ⟨0x280004, 0, 32⟩
-- DIO_WB (14_local_io)
def R.DIO_WB : Nat := 0x280008
def F.DIO_WB_BREAK : Fld := ⟨0x280008, 0, 32⟩
-- DIO_UNC (14_local_io)
def R.DIO_UNC : Nat := 0x28000c
def F.DIO_UNC_UNCERTAIN : Fld := ⟨0x28000c, 0, 32⟩
-- DIO_OUT (14_local_io)
def R.DIO_OUT : Nat := 0x280010
def F.DIO_OUT_CMD : Fld := ⟨0x280010, 0, 16⟩
def F.DIO_OUT_DRIVEN : Fld := ⟨0x280010, 16, 16⟩
-- DIO_TRIP (14_local_io)
def R.DIO_TRIP : Nat := 0x280014
def F.DIO_TRIP_LATCH : Fld := ⟨0x280014, 0, 4⟩
def F.DIO_TRIP_INPUT : Fld := ⟨0x280014, 4, 4⟩
def F.DIO_TRIP_HELD : Fld := ⟨0x280014, 8, 4⟩
def F.DIO_TRIP_CLR_PENDING : Fld := ⟨0x280014, 12, 4⟩
-- DIO_TRIP_CLR (14_local_io)
def R.DIO_TRIP_CLR : Nat := 0x280018
def F.DIO_TRIP_CLR_CLR : Fld := ⟨0x280018, 0, 4⟩
-- DIO_XING (14_local_io)
def R.DIO_XING : Nat := 0x28001c
def F.DIO_XING_DI_BAD : Fld := ⟨0x28001c, 0, 8⟩
def F.DIO_XING_DO_BAD : Fld := ⟨0x28001c, 8, 8⟩
def F.DIO_XING_AIO_BAD : Fld := ⟨0x28001c, 16, 8⟩
def F.DIO_XING_TIMEOUTS : Fld := ⟨0x28001c, 24, 8⟩
-- AIO_CFG (14_local_io)
def R.AIO_CFG (n : Nat) : Nat := 0x281000 + 0x20 * n
def F.AIO_CFG_MODE (n : Nat) : Fld := ⟨0x281000 + 0x20 * n, 0, 2⟩
def F.AIO_CFG_CLASS (n : Nat) : Fld := ⟨0x281000 + 0x20 * n, 2, 3⟩
def F.AIO_CFG_WIRING (n : Nat) : Fld := ⟨0x281000 + 0x20 * n, 5, 2⟩
def F.AIO_CFG_SUPPLY (n : Nat) : Fld := ⟨0x281000 + 0x20 * n, 7, 1⟩
def F.AIO_CFG_MODEM (n : Nat) : Fld := ⟨0x281000 + 0x20 * n, 8, 2⟩
def F.AIO_CFG_RANGE (n : Nat) : Fld := ⟨0x281000 + 0x20 * n, 10, 1⟩
-- AIO_VALUE (14_local_io)
def R.AIO_VALUE (n : Nat) : Nat := 0x281004 + 0x20 * n
def F.AIO_VALUE_MA (n : Nat) : Fld := ⟨0x281004 + 0x20 * n, 0, 32⟩
-- AIO_FLAGS (14_local_io)
def R.AIO_FLAGS (n : Nat) : Nat := 0x281008 + 0x20 * n
def F.AIO_FLAGS_OVERRANGE (n : Nat) : Fld := ⟨0x281008 + 0x20 * n, 0, 1⟩
def F.AIO_FLAGS_MISWIRE (n : Nat) : Fld := ⟨0x281008 + 0x20 * n, 1, 1⟩
def F.AIO_FLAGS_SUPPLY_LIMIT (n : Nat) : Fld := ⟨0x281008 + 0x20 * n, 2, 1⟩
def F.AIO_FLAGS_AO_HOLD (n : Nat) : Fld := ⟨0x281008 + 0x20 * n, 3, 1⟩
def F.AIO_FLAGS_OUT_FAULT (n : Nat) : Fld := ⟨0x281008 + 0x20 * n, 4, 1⟩
def F.AIO_FLAGS_PRESENT (n : Nat) : Fld := ⟨0x281008 + 0x20 * n, 16, 15⟩
-- AIO_HART (14_local_io)
def R.AIO_HART (m : Nat) : Nat := 0x281100 + 0x4 * m
def F.AIO_HART_SEARCH (m : Nat) : Fld := ⟨0x281100 + 0x4 * m, 0, 1⟩
def F.AIO_HART_RES_BUSY (m : Nat) : Fld := ⟨0x281100 + 0x4 * m, 1, 1⟩
def F.AIO_HART_SWEEPING (m : Nat) : Fld := ⟨0x281100 + 0x4 * m, 2, 1⟩
def F.AIO_HART_CHANNEL (m : Nat) : Fld := ⟨0x281100 + 0x4 * m, 3, 3⟩
def F.AIO_HART_RETRIES (m : Nat) : Fld := ⟨0x281100 + 0x4 * m, 16, 16⟩
-- AIO_CAL_STATUS (14_local_io)
def R.AIO_CAL_STATUS : Nat := 0x282000
def F.AIO_CAL_STATUS_BANK : Fld := ⟨0x282000, 0, 1⟩
def F.AIO_CAL_STATUS_BUSY : Fld := ⟨0x282000, 1, 1⟩
def F.AIO_CAL_STATUS_CAL_NONE : Fld := ⟨0x282000, 2, 1⟩
def F.AIO_CAL_STATUS_REFUSED : Fld := ⟨0x282000, 3, 1⟩
-- AIO_CAL_SEQ (14_local_io)
def R.AIO_CAL_SEQ : Nat := 0x282004
def F.AIO_CAL_SEQ_SEQ : Fld := ⟨0x282004, 0, 32⟩
-- AIO_CAL_CTL (14_local_io)
def R.AIO_CAL_CTL : Nat := 0x282008
def F.AIO_CAL_CTL_COMMIT : Fld := ⟨0x282008, 0, 1⟩
-- CAN_STATUS (15_can_fd)
def R.CAN_STATUS (ch : Nat) : Nat := 0x2c0000 + 0x1000 * ch
def F.CAN_STATUS_ESTATE (ch : Nat) : Fld := ⟨0x2c0000 + 0x1000 * ch, 0, 2⟩
def F.CAN_STATUS_RESTRICTED (ch : Nat) : Fld := ⟨0x2c0000 + 0x1000 * ch, 2, 1⟩
def F.CAN_STATUS_FIFO_FAIL (ch : Nat) : Fld := ⟨0x2c0000 + 0x1000 * ch, 3, 1⟩
-- CAN_NBT (15_can_fd)
def R.CAN_NBT (ch : Nat) : Nat := 0x2c0008 + 0x1000 * ch
def F.CAN_NBT_NBRP (ch : Nat) : Fld := ⟨0x2c0008 + 0x1000 * ch, 0, 8⟩
def F.CAN_NBT_NTSEG1 (ch : Nat) : Fld := ⟨0x2c0008 + 0x1000 * ch, 8, 8⟩
def F.CAN_NBT_NTSEG2 (ch : Nat) : Fld := ⟨0x2c0008 + 0x1000 * ch, 16, 7⟩
def F.CAN_NBT_NSJW (ch : Nat) : Fld := ⟨0x2c0008 + 0x1000 * ch, 23, 7⟩
-- CAN_DBT (15_can_fd)
def R.CAN_DBT (ch : Nat) : Nat := 0x2c000c + 0x1000 * ch
def F.CAN_DBT_DBRP (ch : Nat) : Fld := ⟨0x2c000c + 0x1000 * ch, 0, 5⟩
def F.CAN_DBT_DTSEG1 (ch : Nat) : Fld := ⟨0x2c000c + 0x1000 * ch, 8, 5⟩
def F.CAN_DBT_DTSEG2 (ch : Nat) : Fld := ⟨0x2c000c + 0x1000 * ch, 16, 4⟩
def F.CAN_DBT_DSJW (ch : Nat) : Fld := ⟨0x2c000c + 0x1000 * ch, 24, 4⟩
-- CAN_ERR (15_can_fd)
def R.CAN_ERR (ch : Nat) : Nat := 0x2c0010 + 0x1000 * ch
def F.CAN_ERR_TEC (ch : Nat) : Fld := ⟨0x2c0010 + 0x1000 * ch, 0, 9⟩
def F.CAN_ERR_REC (ch : Nat) : Fld := ⟨0x2c0010 + 0x1000 * ch, 16, 8⟩
-- CAN_CTL (15_can_fd)
def R.CAN_CTL (ch : Nat) : Nat := 0x2c0014 + 0x1000 * ch
def F.CAN_CTL_RECOVER (ch : Nat) : Fld := ⟨0x2c0014 + 0x1000 * ch, 0, 1⟩
def F.CAN_CTL_POP0 (ch : Nat) : Fld := ⟨0x2c0014 + 0x1000 * ch, 1, 1⟩
def F.CAN_CTL_POP1 (ch : Nat) : Fld := ⟨0x2c0014 + 0x1000 * ch, 2, 1⟩
def F.CAN_CTL_PUSH (ch : Nat) : Fld := ⟨0x2c0014 + 0x1000 * ch, 3, 1⟩
-- CAN_TXCOUNT (15_can_fd)
def R.CAN_TXCOUNT (ch : Nat) : Nat := 0x2c0018 + 0x1000 * ch
def F.CAN_TXCOUNT_TX_FAIL (ch : Nat) : Fld := ⟨0x2c0018 + 0x1000 * ch, 0, 8⟩
def F.CAN_TXCOUNT_TX_REPLACED (ch : Nat) : Fld := ⟨0x2c0018 + 0x1000 * ch, 8, 8⟩
def F.CAN_TXCOUNT_TX_ABORT (ch : Nat) : Fld := ⟨0x2c0018 + 0x1000 * ch, 16, 8⟩
def F.CAN_TXCOUNT_TXF_DISCARD (ch : Nat) : Fld := ⟨0x2c0018 + 0x1000 * ch, 24, 8⟩
-- CAN_RXCOUNT (15_can_fd)
def R.CAN_RXCOUNT (ch : Nat) : Nat := 0x2c001c + 0x1000 * ch
def F.CAN_RXCOUNT_RX_DROP (ch : Nat) : Fld := ⟨0x2c001c + 0x1000 * ch, 0, 8⟩
def F.CAN_RXCOUNT_RX_LOST (ch : Nat) : Fld := ⟨0x2c001c + 0x1000 * ch, 8, 8⟩
def F.CAN_RXCOUNT_RX_OVERWRITE (ch : Nat) : Fld := ⟨0x2c001c + 0x1000 * ch, 16, 8⟩
-- CAN_TXFAIL_LO (15_can_fd)
def R.CAN_TXFAIL_LO (ch : Nat) : Nat := 0x2c0020 + 0x1000 * ch
def F.CAN_TXFAIL_LO_FAIL (ch : Nat) : Fld := ⟨0x2c0020 + 0x1000 * ch, 0, 32⟩
-- CAN_TXFAIL_HI (15_can_fd)
def R.CAN_TXFAIL_HI (ch : Nat) : Nat := 0x2c0024 + 0x1000 * ch
def F.CAN_TXFAIL_HI_FAIL (ch : Nat) : Fld := ⟨0x2c0024 + 0x1000 * ch, 0, 32⟩
-- CAN_FIFO (15_can_fd)
def R.CAN_FIFO (ch : Nat) : Nat := 0x2c0028 + 0x1000 * ch
def F.CAN_FIFO_RXF0_FILL (ch : Nat) : Fld := ⟨0x2c0028 + 0x1000 * ch, 0, 7⟩
def F.CAN_FIFO_RXF1_FILL (ch : Nat) : Fld := ⟨0x2c0028 + 0x1000 * ch, 8, 7⟩
def F.CAN_FIFO_TXF_FILL (ch : Nat) : Fld := ⟨0x2c0028 + 0x1000 * ch, 16, 6⟩
-- CAN_BSEL (15_can_fd)
def R.CAN_BSEL (ch : Nat) : Nat := 0x2c0030 + 0x1000 * ch
def F.CAN_BSEL_BUF (ch : Nat) : Fld := ⟨0x2c0030 + 0x1000 * ch, 0, 6⟩
-- CAN_BSTAT (15_can_fd)
def R.CAN_BSTAT (ch : Nat) : Nat := 0x2c0034 + 0x1000 * ch
def F.CAN_BSTAT_NEW_DATA (ch : Nat) : Fld := ⟨0x2c0034 + 0x1000 * ch, 0, 1⟩
-- MOD_STATUS (16_start_up)
def R.MOD_STATUS : Nat := 0x10000
def F.MOD_STATUS_STAGE : Fld := ⟨0x10000, 0, 3⟩
def F.MOD_STATUS_REDUCED : Fld := ⟨0x10000, 3, 1⟩
def F.MOD_STATUS_RS_CAUSE : Fld := ⟨0x10000, 4, 2⟩
def F.MOD_STATUS_HOLDUP : Fld := ⟨0x10000, 6, 1⟩
def F.MOD_STATUS_FEED_A_OK : Fld := ⟨0x10000, 7, 1⟩
def F.MOD_STATUS_FEED_B_OK : Fld := ⟨0x10000, 8, 1⟩
def F.MOD_STATUS_MOD_FAULT : Fld := ⟨0x10000, 9, 1⟩
-- MOD_RESET_CAUSE (16_start_up)
def R.MOD_RESET_CAUSE : Nat := 0x10004
def F.MOD_RESET_CAUSE_CAUSE : Fld := ⟨0x10004, 0, 4⟩
def F.MOD_RESET_CAUSE_PREV_CAUSE : Fld := ⟨0x10004, 4, 4⟩
def F.MOD_RESET_CAUSE_FAIL_STAGE : Fld := ⟨0x10004, 8, 3⟩
def F.MOD_RESET_CAUSE_FAIL_VALID : Fld := ⟨0x10004, 11, 1⟩
def F.MOD_RESET_CAUSE_FAIL_PD : Fld := ⟨0x10004, 12, 5⟩
-- MOD_CTL (16_start_up)
def R.MOD_CTL : Nat := 0x10008
def F.MOD_CTL_RESTART : Fld := ⟨0x10008, 0, 1⟩
def F.MOD_CTL_FORCE : Fld := ⟨0x10008, 1, 1⟩
def F.MOD_CTL_SVC_NEXT : Fld := ⟨0x10008, 2, 1⟩
def F.MOD_CTL_PENDING : Fld := ⟨0x10008, 3, 1⟩
def F.MOD_CTL_REFUSED : Fld := ⟨0x10008, 4, 1⟩
-- MOD_SLOT (16_start_up)
def R.MOD_SLOT : Nat := 0x1000c
def F.MOD_SLOT_SLOT_ID : Fld := ⟨0x1000c, 0, 4⟩
def F.MOD_SLOT_VALID : Fld := ⟨0x1000c, 4, 1⟩
-- MOD_OPSEC (16_start_up)
def R.MOD_OPSEC : Nat := 0x10018
-- MOD_PWRCYC (16_start_up)
def R.MOD_PWRCYC : Nat := 0x10020
def F.MOD_PWRCYC_COUNT : Fld := ⟨0x10020, 0, 24⟩
-- MOD_STAGE_MS (16_start_up)
def R.MOD_STAGE_MS (n : Nat) : Nat := 0x10040 + 0x4 * n
def F.MOD_STAGE_MS_MS (n : Nat) : Fld := ⟨0x10040 + 0x4 * n, 0, 32⟩
-- PWR_ON (16_start_up)
def R.PWR_ON : Nat := 0x10100
def F.PWR_ON_ON : Fld := ⟨0x10100, 0, 24⟩
-- PWR_USE (16_start_up)
def R.PWR_USE : Nat := 0x10104
def F.PWR_USE_USE : Fld := ⟨0x10104, 0, 24⟩
-- PWR_FAULT (16_start_up)
def R.PWR_FAULT : Nat := 0x10108
def F.PWR_FAULT_FAULT : Fld := ⟨0x10108, 0, 24⟩
-- PWR_LAST (16_start_up)
def R.PWR_LAST : Nat := 0x1010c
def F.PWR_LAST_PD : Fld := ⟨0x1010c, 0, 5⟩
def F.PWR_LAST_KIND : Fld := ⟨0x1010c, 5, 3⟩
def F.PWR_LAST_STAGE : Fld := ⟨0x1010c, 8, 3⟩
-- PWR_FEED (16_start_up)
def R.PWR_FEED : Nat := 0x10110
def F.PWR_FEED_A_DV : Fld := ⟨0x10110, 0, 10⟩
def F.PWR_FEED_A_OK : Fld := ⟨0x10110, 10, 1⟩
def F.PWR_FEED_B_DV : Fld := ⟨0x10110, 16, 10⟩
def F.PWR_FEED_B_OK : Fld := ⟨0x10110, 26, 1⟩
-- PWR_INPUT (16_start_up)
def R.PWR_INPUT : Nat := 0x10114
def F.PWR_INPUT_WATTS : Fld := ⟨0x10114, 0, 16⟩
def F.PWR_INPUT_MAX_W : Fld := ⟨0x10114, 16, 16⟩
-- PWR_HOLDUP (16_start_up)
def R.PWR_HOLDUP : Nat := 0x10118
def F.PWR_HOLDUP_BANK_DJ : Fld := ⟨0x10118, 0, 8⟩
def F.PWR_HOLDUP_BANK_OK : Fld := ⟨0x10118, 8, 1⟩
def F.PWR_HOLDUP_HOLDUPS : Fld := ⟨0x10118, 16, 16⟩
-- ID_PART (17_management_events)
def R.ID_PART : Nat := 0x0
def F.ID_PART_PART : Fld := ⟨0x0, 0, 16⟩
def F.ID_PART_VARIANT : Fld := ⟨0x0, 16, 1⟩
-- ID_SERIAL_LO (17_management_events)
def R.ID_SERIAL_LO : Nat := 0x4
def F.ID_SERIAL_LO_SERIAL : Fld := ⟨0x4, 0, 32⟩
-- ID_SERIAL_HI (17_management_events)
def R.ID_SERIAL_HI : Nat := 0x8
def F.ID_SERIAL_HI_SERIAL : Fld := ⟨0x8, 0, 32⟩
-- ID_ISSUE (17_management_events)
def R.ID_ISSUE : Nat := 0xc
def F.ID_ISSUE_HW_ISSUE : Fld := ⟨0xc, 0, 16⟩
def F.ID_ISSUE_COMPAT : Fld := ⟨0xc, 16, 16⟩
-- ID_DEVKEY (17_management_events)
def R.ID_DEVKEY (n : Nat) : Nat := 0x20 + 0x4 * n
def F.ID_DEVKEY_KEY (n : Nat) : Fld := ⟨0x20 + 0x4 * n, 0, 32⟩
-- EVT_STATUS (17_management_events)
def R.EVT_STATUS : Nat := 0x300000
def F.EVT_STATUS_RUNNING : Fld := ⟨0x300000, 0, 1⟩
def F.EVT_STATUS_HBM_RING : Fld := ⟨0x300000, 1, 1⟩
def F.EVT_STATUS_ARCH_BUSY : Fld := ⟨0x300000, 2, 1⟩
def F.EVT_STATUS_TAIL_OVER : Fld := ⟨0x300000, 3, 1⟩
def F.EVT_STATUS_LOST : Fld := ⟨0x300000, 4, 1⟩
-- EVT_HEAD (17_management_events)
def R.EVT_HEAD : Nat := 0x300008
-- EVT_OLDEST (17_management_events)
def R.EVT_OLDEST : Nat := 0x300010
-- EVT_ARCH (17_management_events)
def R.EVT_ARCH : Nat := 0x300018
-- EVT_COUNTS (17_management_events)
def R.EVT_COUNTS : Nat := 0x300020
def F.EVT_COUNTS_SUPPRESSED : Fld := ⟨0x300020, 0, 16⟩
def F.EVT_COUNTS_LOST : Fld := ⟨0x300020, 16, 16⟩
-- EVT_SEL (17_management_events)
def R.EVT_SEL : Nat := 0x300028
-- PNL_STATUS (18_front_panel)
def R.PNL_STATUS : Nat := 0x340000
def F.PNL_STATUS_UPDATING : Fld := ⟨0x340000, 0, 1⟩
def F.PNL_STATUS_PENDING : Fld := ⟨0x340000, 1, 1⟩
def F.PNL_STATUS_PANEL_FAULT : Fld := ⟨0x340000, 2, 1⟩
def F.PNL_STATUS_CONFIRM : Fld := ⟨0x340000, 3, 1⟩
def F.PNL_STATUS_STUCK : Fld := ⟨0x340000, 4, 1⟩
def F.PNL_STATUS_CRC_FAILS : Fld := ⟨0x340000, 16, 16⟩
-- PNL_LAMPS (18_front_panel)
def R.PNL_LAMPS : Nat := 0x340004
def F.PNL_LAMPS_RUN : Fld := ⟨0x340004, 0, 3⟩
def F.PNL_LAMPS_ROLE : Fld := ⟨0x340004, 3, 3⟩
def F.PNL_LAMPS_FAULT : Fld := ⟨0x340004, 6, 3⟩
def F.PNL_LAMPS_FORCE : Fld := ⟨0x340004, 9, 3⟩
def F.PNL_LAMPS_TIME : Fld := ⟨0x340004, 12, 3⟩
def F.PNL_LAMPS_RING : Fld := ⟨0x340004, 15, 3⟩
-- PNL_UPDATES (18_front_panel)
def R.PNL_UPDATES : Nat := 0x340008
def F.PNL_UPDATES_UPDATES : Fld := ⟨0x340008, 0, 32⟩
-- PWR_TEMP (20_electrical_mechanical)
def R.PWR_TEMP : Nat := 0x1011c
def F.PWR_TEMP_DIE_C : Fld := ⟨0x1011c, 0, 8⟩
def F.PWR_TEMP_HBM_C : Fld := ⟨0x1011c, 8, 8⟩
def F.PWR_TEMP_FACE_C : Fld := ⟨0x1011c, 16, 8⟩
def F.PWR_TEMP_HOT : Fld := ⟨0x1011c, 24, 1⟩
def F.PWR_TEMP_HOT_SEEN : Fld := ⟨0x1011c, 25, 1⟩
-- CAN_STAGE (15_can_fd)
def R.CAN_STAGE (ch n : Nat) : Nat := 0x2c0280 + 0x1000 * ch + 0x4 * n
def F.CAN_STAGE_W (ch n : Nat) : Fld := ⟨0x2c0280 + 0x1000 * ch + 0x4 * n, 0, 32⟩
-- AIO_CALW (14_local_io)
def R.AIO_CALW (n : Nat) : Nat := 0x282100 + 0x4 * n
def F.AIO_CALW_W (n : Nat) : Fld := ⟨0x282100 + 0x4 * n, 0, 32⟩

/-- Rows 0 to 29 of the register map. -/
def regRows0 : List RegRow := [
  ⟨0x20000, 0x0, 1, 0x0, 1, 0x0, 0x0, 0x0, 0x0, 0x0, 0x0, 0⟩ /- IMG_STATUS -/,
  ⟨0x20004, 0x0, 1, 0x0, 1, 0x0, 0x0, 0x0, 0x0, 0x0, 0x0, 0⟩ /- IMG_STRAP -/,
  ⟨0x20008, 0x0, 1, 0x0, 1, 0x0, 0xf, 0x0, 0x0, 0x0, 0x0, 2⟩ /- IMG_SEL -/,
  ⟨0x20010, 0x4, 4, 0x0, 1, 0x0, 0x0, 0x0, 0x0, 0x0, 0x0, 0⟩ /- IMG_ID -/,
  ⟨0x20040, 0x4, 4, 0x0, 1, 0x0, 0x0, 0x0, 0x0, 0x0, 0x0, 0⟩ /- IMG_SLOT -/,
  ⟨0x20080, 0x0, 1, 0x0, 1, 0x0, 0x0, 0x0, 0x0, 0x0, 0x0, 0⟩ /- IMG_KEYS -/,
  ⟨0x20100, 0x0, 1, 0x0, 1, 0x0, 0x0, 0x0, 0x0, 0x0, 0x0, 0⟩ /- IMG_CS_STATUS -/,
  ⟨0x20104, 0x0, 1, 0x0, 1, 0x0, 0x0, 0x0, 0x0, 0x0, 0x0, 0⟩ /- IMG_CS_LAST -/,
  ⟨0x20108, 0x0, 1, 0x0, 1, 0x0, 0x0, 0x0, 0x0, 0xffffffff, 0x0, 0⟩ /- IMG_CS_DELAYS -/,
  ⟨0x20140, 0x0, 1, 0x0, 1, 0x0, 0x0, 0x0, 0x0, 0x0, 0x0, 0⟩ /- IMG_HO_STATUS -/,
  ⟨0x40000, 0x0, 1, 0x0, 1, 0x0, 0x0, 0x10, 0x0, 0x0, 0x0, 0⟩ /- FAB_STATUS -/,
  ⟨0x40004, 0x0, 1, 0x0, 1, 0x0, 0x0, 0x0, 0x0, 0xffffffff, 0x0, 0⟩ /- FAB_VC0_OVER -/,
  ⟨0x40008, 0x0, 1, 0x0, 1, 0x0, 0x0, 0x0, 0x0, 0x0, 0x0, 0⟩ /- FAB_TAGS -/,
  ⟨0x4000c, 0x0, 1, 0x0, 1, 0x0, 0x0, 0x0, 0x0, 0xffffffff, 0x0, 0⟩ /- FAB_TAG_TIMEOUT -/,
  ⟨0x40010, 0x0, 1, 0x0, 1, 0x0, 0x0, 0x0, 0x0, 0x0, 0x0, 0⟩ /- FAB_HBM_STRESS -/,
  ⟨0x40014, 0x0, 1, 0x0, 1, 0x0, 0x0, 0xffffffff, 0x0, 0x0, 0x0, 0⟩ /- FAB_HBM_STRESS_SEEN -/,
  ⟨0x40018, 0x0, 1, 0x0, 1, 0x0, 0x0, 0x0, 0x0, 0x0, 0x0, 0⟩ /- FAB_CONFIG -/,
  ⟨0x40020, 0x0, 1, 0x0, 1, 0x0, 0x0, 0x0, 0x0, 0xffffffff, 0x0, 0⟩ /- FAB_ECC -/,
  ⟨0x40040, 0x4, 8, 0x0, 1, 0x0, 0x0, 0xffffffff, 0x0, 0x0, 0x0, 0⟩ /- FAB_SLOW -/,
  ⟨0x80000, 0x0, 1, 0x0, 1, 0x0, 0x0, 0x3c, 0x0, 0x0, 0x0, 0⟩ /- SIG_STATUS -/,
  ⟨0x80008, 0x0, 1, 0x0, 1, 0x0, 0x0, 0x0, 0x0, 0x0, 0x0, 0⟩ /- SIG_CLOSED_LO -/,
  ⟨0x8000c, 0x0, 1, 0x0, 1, 0x0, 0x0, 0x0, 0x0, 0x0, 0x0, 0⟩ /- SIG_CLOSED_HI -/,
  ⟨0x80010, 0x0, 1, 0x0, 1, 0x0, 0x0, 0x0, 0x0, 0x0, 0x0, 0⟩ /- SIG_FORCE_COUNT -/,
  ⟨0x80014, 0x0, 1, 0x0, 1, 0x0, 0x0, 0x0, 0x0, 0xffffffff, 0x0, 0⟩ /- SIG_OWNER_FAULTS -/,
  ⟨0x80018, 0x0, 1, 0x0, 1, 0x0, 0x0, 0x0, 0x0, 0x0, 0x0, 0⟩ /- SIG_LAST_FAULT -/,
  ⟨0x8001c, 0x0, 1, 0x0, 1, 0x0, 0x0, 0x0, 0x0, 0x0, 0x0, 0⟩ /- SIG_CLASSES -/,
  ⟨0xc0000, 0x0, 1, 0x0, 1, 0x0, 0x0, 0x66, 0x0, 0x0, 0x0, 0⟩ /- CYC_STATUS -/,
  ⟨0xc0008, 0x0, 1, 0x0, 1, 0x0, 0x0, 0x0, 0x0, 0x0, 0x0, 0⟩ /- CYC_COUNT_LO -/,
  ⟨0xc000c, 0x0, 1, 0x0, 1, 0x0, 0x0, 0x0, 0x0, 0x0, 0x0, 0⟩ /- CYC_COUNT_HI -/,
  ⟨0xc0010, 0x0, 1, 0x0, 1, 0x0, 0x3ff, 0x40000, 0x0, 0x0, 0x0, 1⟩ /- CYC_PCTL -/
  ]

/-- Rows 30 to 59 of the register map. -/
def regRows1 : List RegRow := [
  ⟨0xc0018, 0x0, 1, 0x0, 1, 0x0, 0x0, 0x0, 0x0, 0xffff0000, 0x0, 0⟩ /- CYC_T_AGREE -/,
  ⟨0xc001c, 0x0, 1, 0x0, 1, 0x0, 0x0, 0x0, 0x0, 0xffff0000, 0x0, 0⟩ /- CYC_T_STAGE -/,
  ⟨0xc0020, 0x0, 1, 0x0, 1, 0x0, 0x0, 0x0, 0x0, 0xffffffff, 0x0, 0⟩ /- CYC_LAG -/,
  ⟨0xc0100, 0x4, 32, 0x0, 1, 0x0, 0x0, 0x0, 0x0, 0xffffff00, 0x0, 0⟩ /- CYC_CORE -/,
  ⟨0xc1000, 0x20, 256, 0x0, 1, 0x0, 0x0, 0x0, 0x0, 0x0, 0x0, 0⟩ /- CYC_PSTATE -/,
  ⟨0xc1004, 0x20, 256, 0x0, 1, 0x0, 0x0, 0x0, 0x0, 0xffffffff, 0x0, 0⟩ /- CYC_PCOUNT -/,
  ⟨0xc1008, 0x20, 256, 0x0, 1, 0x0, 0x0, 0x0, 0x0, 0xffffff, 0x0, 0⟩ /- CYC_PFAULT -/,
  ⟨0xc100c, 0x20, 256, 0x0, 1, 0x0, 0x0, 0x0, 0x0, 0x0, 0x0, 0⟩ /- CYC_PRUN -/,
  ⟨0xc1010, 0x20, 256, 0x0, 1, 0x0, 0x0, 0x0, 0x0, 0xffffffff, 0x0, 0⟩ /- CYC_PMAX -/,
  ⟨0xc1014, 0x20, 256, 0x0, 1, 0x0, 0x0, 0x0, 0x0, 0x0, 0x0, 0⟩ /- CYC_PRUNS -/,
  ⟨0x20000000, 0x400, 16384, 0x0, 1, 0x0, 0x0, 0x0, 0x0, 0x0, 0x0, 0⟩ /- SLOT_CFG -/,
  ⟨0x20000004, 0x400, 16384, 0x0, 1, 0x0, 0x0, 0x891, 0x0, 0x0, 0x0, 0⟩ /- SLOT_STATUS -/,
  ⟨0x20000008, 0x400, 16384, 0x0, 1, 0x0, 0x0, 0x0, 0x0, 0x0, 0x0, 0⟩ /- SLOT_SAMPLES -/,
  ⟨0x2000000c, 0x400, 16384, 0x0, 1, 0x0, 0x0, 0x0, 0x0, 0x0, 0x0, 0⟩ /- SLOT_LAST -/,
  ⟨0x20000010, 0x400, 16384, 0x4, 4, 0x0, 0x0, 0x0, 0x0, 0x0, 0x0, 0⟩ /- SLOT_OUT -/,
  ⟨0x20000040, 0x400, 16384, 0x4, 16, 0x0, 0x0, 0x0, 0x0, 0x0, 0x0, 0⟩ /- SLOT_PORT -/,
  ⟨0x100000, 0x0, 1, 0x0, 1, 0x0, 0x0, 0xc, 0x0, 0x0, 0x0, 0⟩ /- LPE_STATUS -/,
  ⟨0x100004, 0x0, 1, 0x0, 1, 0x0, 0x0, 0x0, 0x0, 0x0, 0x0, 0⟩ /- LPE_USE -/,
  ⟨0x100008, 0x0, 1, 0x0, 1, 0x0, 0x0, 0x0, 0x0, 0x0, 0x0, 0⟩ /- LPE_LAST_FAULT -/,
  ⟨0x10000c, 0x0, 1, 0x0, 1, 0x0, 0x0, 0x0, 0x0, 0xffffffff, 0x0, 0⟩ /- LPE_FAULTS -/,
  ⟨0x100010, 0x0, 1, 0x0, 1, 0x0, 0x0, 0x0, 0x0, 0xffffffff, 0x0, 0⟩ /- LPE_OVFL -/,
  ⟨0x100100, 0x4, 16, 0x0, 1, 0x0, 0x0, 0x0, 0x0, 0x0, 0x0, 0⟩ /- LPE_PAIR -/,
  ⟨0x100140, 0x4, 16, 0x0, 1, 0x0, 0x0, 0x0, 0x0, 0x0, 0x0, 0⟩ /- LPE_PHASE -/,
  ⟨0x20000020, 0x400, 16384, 0x0, 1, 0x0, 0x0, 0x0, 0x0, 0x0, 0x0, 0⟩ /- SLOT_SCHED -/,
  ⟨0x20000024, 0x400, 16384, 0x0, 1, 0x0, 0x0, 0x0, 0x0, 0x0, 0x0, 0⟩ /- SLOT_MODE -/,
  ⟨0x20000028, 0x400, 16384, 0x0, 1, 0x0, 0x0, 0x0, 0x0, 0x0, 0x0, 0⟩ /- SLOT_MANV -/,
  ⟨0x2000002c, 0x400, 16384, 0x0, 1, 0x0, 0x0, 0x0, 0x0, 0x0, 0x0, 0⟩ /- SLOT_MANREF -/,
  ⟨0x20000030, 0x400, 16384, 0x0, 1, 0x0, 0x0, 0x0, 0x0, 0x0, 0x0, 0⟩ /- SLOT_RCHG -/,
  ⟨0x20000034, 0x400, 16384, 0x0, 1, 0x0, 0x0, 0x0, 0x0, 0x0, 0x0, 0⟩ /- SLOT_HELD -/,
  ⟨0x100014, 0x0, 1, 0x0, 1, 0x0, 0x0, 0x0, 0x0, 0x0, 0x0, 0⟩ /- LPE_SPARE -/
  ]

/-- Rows 60 to 89 of the register map. -/
def regRows2 : List RegRow := [
  ⟨0x100180, 0x4, 16, 0x0, 1, 0x0, 0x0, 0x0, 0x0, 0xffff0000, 0x0, 0⟩ /- LPE_HEALTH -/,
  ⟨0x380000, 0x0, 1, 0x0, 1, 0x0, 0x0, 0x0, 0x0, 0x0, 0x0, 0⟩ /- TRC_STATUS -/,
  ⟨0x381000, 0x100, 32, 0x0, 1, 0x0, 0x8, 0x80, 0x0, 0xffff0000, 0x0, 1⟩ /- TRC_CTL -/,
  ⟨0x381004, 0x100, 32, 0x0, 1, 0x0, 0x1f77, 0x0, 0x0, 0x0, 0x0, 1⟩ /- TRC_TRIG -/,
  ⟨0x381008, 0x100, 32, 0x0, 1, 0x0, 0xffffffff, 0x0, 0x0, 0x0, 0x0, 1⟩ /- TRC_LEVEL -/,
  ⟨0x38100c, 0x100, 32, 0x0, 1, 0x10000000, 0x1fff1fff, 0x0, 0x0, 0x0, 0x0, 1⟩ /- TRC_COUNTS -/,
  ⟨0x381010, 0x100, 32, 0x0, 1, 0x0, 0x0, 0x0, 0x0, 0x0, 0x0, 1⟩ /- TRC_TIME -/,
  ⟨0x381014, 0x100, 32, 0x0, 1, 0x0, 0x0, 0x0, 0x0, 0xffffffff, 0x0, 1⟩ /- TRC_LOSS -/,
  ⟨0x381018, 0x100, 32, 0x0, 1, 0x0, 0x0, 0x0, 0x0, 0x0, 0x0, 1⟩ /- TRC_DONE -/,
  ⟨0x381020, 0x100, 32, 0x4, 8, 0x0, 0xf3fff, 0x0, 0x0, 0x0, 0x0, 1⟩ /- TRC_CH -/,
  ⟨0x140000, 0x1000, 16, 0x0, 1, 0x0, 0x0, 0x80, 0x0, 0x0, 0x0, 0⟩ /- RNG_STATUS -/,
  ⟨0x140004, 0x1000, 16, 0x0, 1, 0x0, 0x0, 0x0, 0x0, 0x0, 0x0, 0⟩ /- RNG_CFG -/,
  ⟨0x140008, 0x1000, 16, 0x0, 1, 0x0, 0xff, 0x0, 0x0, 0x0, 0x0, 0⟩ /- RNG_CTL -/,
  ⟨0x14000c, 0x1000, 16, 0x0, 1, 0x0, 0x0, 0x0, 0x0, 0xffffffff, 0x0, 0⟩ /- RNG_RX -/,
  ⟨0x140010, 0x1000, 16, 0x0, 1, 0x0, 0x0, 0x0, 0x0, 0xffff0000, 0x0, 0⟩ /- RNG_ARRIVAL -/,
  ⟨0x140014, 0x1000, 16, 0x0, 1, 0x0, 0x0, 0x0, 0x0, 0x0, 0x0, 0⟩ /- RNG_SCHED -/,
  ⟨0x140018, 0x1000, 16, 0x0, 1, 0x0, 0x0, 0x0, 0x0, 0xffffffff, 0x0, 0⟩ /- RNG_AGREE -/,
  ⟨0x14001c, 0x1000, 16, 0x0, 1, 0x0, 0x0, 0x0, 0x0, 0xffff0000, 0x0, 0⟩ /- RNG_CENSUS -/,
  ⟨0x140020, 0x1000, 16, 0x0, 1, 0x0, 0x0, 0x0, 0x0, 0x0, 0x0, 0⟩ /- RNG_LOOP -/,
  ⟨0x140024, 0x1000, 16, 0x0, 1, 0x0, 0x0, 0x0, 0x0, 0xffffffff, 0x0, 0⟩ /- RNG_STREAM -/,
  ⟨0x140028, 0x1000, 16, 0x0, 1, 0x0, 0x0, 0x0, 0x0, 0xffffffff, 0x0, 0⟩ /- RNG_REPEAT -/,
  ⟨0x14002c, 0x1000, 16, 0x0, 1, 0x0, 0x0, 0x0, 0x0, 0x0, 0x0, 0⟩ /- RNG_EPOCH -/,
  ⟨0x140030, 0x1000, 16, 0x0, 1, 0x0, 0x11fff, 0x20000, 0x0, 0x0, 0x0, 0⟩ /- RNG_SCAP_CTL -/,
  ⟨0x140034, 0x1000, 16, 0x0, 1, 0x0, 0x0, 0x0, 0x0, 0xffffffff, 0x0, 0⟩ /- RNG_SCAP_LOSS -/,
  ⟨0x140038, 0x1000, 16, 0x0, 1, 0x0, 0x0, 0x0, 0x0, 0x0, 0x0, 0⟩ /- RNG_APPLY -/,
  ⟨0x140100, 0x1000, 16, 0x8, 251, 0x0, 0x0, 0x0, 0x0, 0x0, 0x0, 0⟩ /- RNG_STN_STATE -/,
  ⟨0x140104, 0x1000, 16, 0x8, 251, 0x0, 0x0, 0x0, 0x0, 0xffffffff, 0x0, 0⟩ /- RNG_STN_COUNT -/,
  ⟨0x180000, 0x0, 1, 0x0, 1, 0xf00, 0x0, 0x20000, 0x0, 0x0, 0x0, 0⟩ /- TWN_STATUS -/,
  ⟨0x180004, 0x0, 1, 0x0, 1, 0x0, 0x0, 0x0, 0x0, 0x0, 0x0, 0⟩ /- TWN_EPOCH -/,
  ⟨0x180008, 0x0, 1, 0x0, 1, 0x0, 0x0, 0x0, 0x0, 0x0, 0x0, 0⟩ /- TWN_PARTNER_EPOCH -/
  ]

/-- Rows 90 to 119 of the register map. -/
def regRows3 : List RegRow := [
  ⟨0x18000c, 0x0, 1, 0x0, 1, 0x0, 0x0, 0x200, 0x0, 0x0, 0x0, 1⟩ /- TWN_CTL -/,
  ⟨0x180010, 0x0, 1, 0x0, 1, 0x0, 0x0, 0x0, 0x0, 0x0, 0x0, 0⟩ /- TWN_JOIN -/,
  ⟨0x180014, 0x0, 1, 0x0, 1, 0x0, 0x0, 0x0, 0x0, 0x0, 0x0, 0⟩ /- TWN_REVERT -/,
  ⟨0x180018, 0x0, 1, 0x0, 1, 0x0, 0x0, 0x0, 0x0, 0x0, 0x0, 0⟩ /- TWN_CFG -/,
  ⟨0x18001c, 0x0, 1, 0x0, 1, 0x0, 0x0, 0x0, 0x0, 0xffff0000, 0x0, 0⟩ /- TWN_LAG -/,
  ⟨0x180020, 0x0, 1, 0x0, 1, 0x0, 0x0, 0x0, 0x0, 0xffffffff, 0x0, 0⟩ /- TWN_DIVERGE -/,
  ⟨0x180024, 0x0, 1, 0x0, 1, 0x0, 0x0, 0x0, 0x0, 0x0, 0x0, 0⟩ /- TWN_DIV_LAST -/,
  ⟨0x180028, 0x0, 1, 0x0, 1, 0x0, 0x0, 0x0, 0x0, 0xffffffff, 0x0, 0⟩ /- TWN_HB -/,
  ⟨0x18002c, 0x0, 1, 0x0, 1, 0x0, 0x0, 0x0, 0x0, 0xffffffff, 0x0, 0⟩ /- TWN_SWITCHES -/,
  ⟨0x180030, 0x0, 1, 0x0, 1, 0x0, 0x0, 0x0, 0x0, 0x0, 0x0, 0⟩ /- TWN_LAST_CHANGE -/,
  ⟨0x180034, 0x0, 1, 0x0, 1, 0x0, 0x0, 0x0, 0x0, 0x0, 0x0, 0⟩ /- TWN_LAST_COUNT -/,
  ⟨0x1c0000, 0x0, 1, 0x0, 1, 0x18, 0x0, 0x0, 0x0, 0x0, 0x0, 0⟩ /- TIM_STATUS -/,
  ⟨0x1c0004, 0x0, 1, 0x0, 1, 0x0, 0x0, 0x0, 0x0, 0x0, 0x0, 0⟩ /- TIM_NS -/,
  ⟨0x1c0008, 0x0, 1, 0x0, 1, 0x0, 0x0, 0x0, 0x0, 0x0, 0x0, 0⟩ /- TIM_SEC_LO -/,
  ⟨0x1c000c, 0x0, 1, 0x0, 1, 0x0, 0x0, 0x0, 0x0, 0x0, 0x0, 0⟩ /- TIM_SEC_HI -/,
  ⟨0x1c0010, 0x0, 1, 0x0, 1, 0x0, 0x3fffffff, 0x0, 0x0, 0x0, 0x0, 2⟩ /- TIM_SET_NS -/,
  ⟨0x1c0014, 0x0, 1, 0x0, 1, 0x0, 0xffffffff, 0x0, 0x0, 0x0, 0x0, 2⟩ /- TIM_SET_SEC_LO -/,
  ⟨0x1c0018, 0x0, 1, 0x0, 1, 0x0, 0xffff, 0x0, 0x0, 0x0, 0x0, 2⟩ /- TIM_SET_SEC_HI -/,
  ⟨0x1c001c, 0x0, 1, 0x0, 1, 0x0, 0xc, 0x20, 0x0, 0x0, 0x0, 1⟩ /- TIM_CTL -/,
  ⟨0x1c0020, 0x0, 1, 0x0, 1, 0x0, 0x0, 0x0, 0x0, 0x0, 0x0, 0⟩ /- TIM_OFS_MADDER -/,
  ⟨0x1c0024, 0x0, 1, 0x0, 1, 0x0, 0x0, 0x0, 0x0, 0x0, 0x0, 0⟩ /- TIM_OFS_WOAD -/,
  ⟨0x1c0028, 0x0, 1, 0x0, 1, 0x0, 0x0, 0x0, 0x0, 0x0, 0x0, 0⟩ /- TIM_MW -/,
  ⟨0x1c002c, 0x0, 1, 0x0, 1, 0x0, 0x0, 0x0, 0x0, 0x0, 0x0, 0⟩ /- TIM_ADJ -/,
  ⟨0x1c0030, 0x0, 1, 0x0, 1, 0x0, 0x0, 0x0, 0x0, 0x0, 0x0, 0⟩ /- TIM_TWIN_OFS -/,
  ⟨0x1c0034, 0x0, 1, 0x0, 1, 0x0, 0x0, 0x0, 0x0, 0x0, 0x0, 0⟩ /- TIM_HOLD -/,
  ⟨0x1c0038, 0x0, 1, 0x0, 1, 0x0, 0x0, 0x0, 0x0, 0x80000000, 0x0, 0⟩ /- TIM_PPSIN -/,
  ⟨0x1c003c, 0x0, 1, 0x0, 1, 0x0, 0x0, 0x0, 0x0, 0x0, 0x0, 0⟩ /- TIM_UTC -/,
  ⟨0x200000, 0x0, 1, 0x0, 1, 0x0, 0x0, 0x0, 0x0, 0x0, 0x0, 0⟩ /- LNK_STATUS -/,
  ⟨0x200004, 0x0, 1, 0x0, 1, 0x0, 0x0, 0x0, 0x0, 0x0, 0x0, 0⟩ /- LNK_CFG -/,
  ⟨0x200010, 0x4, 4, 0x0, 1, 0x0, 0x0, 0x0, 0x0, 0xffffffff, 0x0, 0⟩ /- LNK_RX -/
  ]

/-- Rows 120 to 149 of the register map. -/
def regRows4 : List RegRow := [
  ⟨0x200100, 0x4, 256, 0x0, 1, 0x0, 0x0, 0x0, 0x0, 0xffff0000, 0x0, 0⟩ /- LNK_SUB -/,
  ⟨0x240000, 0x0, 1, 0x0, 1, 0x0, 0x0, 0xffffffff, 0x0, 0x0, 0x0, 0⟩ /- ACC_STATUS -/,
  ⟨0x241000, 0x40, 32, 0x0, 1, 0x0, 0xff, 0x400, 0x0, 0x0, 0x0, 0⟩ /- ACC_CTL -/,
  ⟨0x241004, 0x40, 32, 0x0, 1, 0x0, 0x0, 0x0, 0x0, 0x0, 0x0, 0⟩ /- ACC_FADDR_LO -/,
  ⟨0x241008, 0x40, 32, 0x0, 1, 0x0, 0x0, 0x0, 0x0, 0x0, 0x0, 0⟩ /- ACC_FADDR_HI -/,
  ⟨0x24100c, 0x40, 32, 0x0, 1, 0x0, 0x0, 0x0, 0x0, 0x0, 0x0, 0⟩ /- ACC_FINFO -/,
  ⟨0x241010, 0x40, 32, 0x0, 1, 0x0, 0x0, 0x0, 0x0, 0xffffffff, 0x0, 0⟩ /- ACC_FCOUNT -/,
  ⟨0x248000, 0x400, 32, 0x4, 64, 0x0, 0x0, 0x0, 0x0, 0x0, 0x0, 0⟩ /- ACC_SLOT -/,
  ⟨0x248180, 0x400, 32, 0x4, 64, 0x0, 0x0, 0x0, 0x0, 0x0, 0x0, 0⟩ /- ACC_SLOTB -/,
  ⟨0x248100, 0x400, 32, 0x8, 16, 0x0, 0x0, 0x0, 0x0, 0x0, 0x0, 0⟩ /- ACC_RBASE -/,
  ⟨0x248280, 0x400, 32, 0x8, 16, 0x0, 0x0, 0x0, 0x0, 0x0, 0x0, 0⟩ /- ACC_RBASEB -/,
  ⟨0x248104, 0x400, 32, 0x8, 16, 0x0, 0x0, 0x0, 0x0, 0x0, 0x0, 0⟩ /- ACC_RATTR -/,
  ⟨0x248284, 0x400, 32, 0x8, 16, 0x0, 0x0, 0x0, 0x0, 0x0, 0x0, 0⟩ /- ACC_RATTRB -/,
  ⟨0x280000, 0x0, 1, 0x0, 1, 0x0, 0x0, 0x90, 0x0, 0x0, 0x0, 0⟩ /- DIO_STATUS -/,
  ⟨0x280004, 0x0, 1, 0x0, 1, 0x0, 0x0, 0x0, 0x0, 0x0, 0x0, 0⟩ /- DIO_IN -/,
  ⟨0x280008, 0x0, 1, 0x0, 1, 0x0, 0x0, 0x0, 0x0, 0x0, 0x0, 0⟩ /- DIO_WB -/,
  ⟨0x28000c, 0x0, 1, 0x0, 1, 0x0, 0x0, 0x0, 0x0, 0x0, 0x0, 0⟩ /- DIO_UNC -/,
  ⟨0x280010, 0x0, 1, 0x0, 1, 0x0, 0x0, 0x0, 0x0, 0x0, 0x0, 0⟩ /- DIO_OUT -/,
  ⟨0x280014, 0x0, 1, 0x0, 1, 0x0, 0x0, 0xf00, 0x0, 0x0, 0x0, 0⟩ /- DIO_TRIP -/,
  ⟨0x280018, 0x0, 1, 0x0, 1, 0x0, 0x0, 0x0, 0x0, 0x0, 0x0, 0⟩ /- DIO_TRIP_CLR -/,
  ⟨0x28001c, 0x0, 1, 0x0, 1, 0x0, 0x0, 0x0, 0x0, 0xffffffff, 0x0, 0⟩ /- DIO_XING -/,
  ⟨0x281000, 0x20, 8, 0x0, 1, 0x0, 0x0, 0x0, 0x0, 0x0, 0x0, 0⟩ /- AIO_CFG -/,
  ⟨0x281004, 0x20, 8, 0x0, 1, 0x0, 0x0, 0x0, 0x0, 0x0, 0x0, 0⟩ /- AIO_VALUE -/,
  ⟨0x281008, 0x20, 8, 0x0, 1, 0x0, 0x0, 0x2, 0x0, 0x0, 0x0, 0⟩ /- AIO_FLAGS -/,
  ⟨0x281100, 0x4, 2, 0x0, 1, 0x0, 0x0, 0x2, 0x0, 0xffff0000, 0x0, 0⟩ /- AIO_HART -/,
  ⟨0x282000, 0x0, 1, 0x0, 1, 0x0, 0x0, 0x8, 0x0, 0x0, 0x0, 0⟩ /- AIO_CAL_STATUS -/,
  ⟨0x282004, 0x0, 1, 0x0, 1, 0x0, 0x0, 0x0, 0x0, 0x0, 0x0, 0⟩ /- AIO_CAL_SEQ -/,
  ⟨0x282008, 0x0, 1, 0x0, 1, 0x0, 0x0, 0x0, 0x0, 0x0, 0x0, 2⟩ /- AIO_CAL_CTL -/,
  ⟨0x2c0000, 0x1000, 4, 0x0, 1, 0x4, 0x0, 0x8, 0x0, 0x0, 0x0, 0⟩ /- CAN_STATUS -/,
  ⟨0x2c0008, 0x1000, 4, 0x0, 1, 0x0, 0x0, 0x0, 0x0, 0x0, 0x0, 0⟩ /- CAN_NBT -/
  ]

/-- Rows 150 to 179 of the register map. -/
def regRows5 : List RegRow := [
  ⟨0x2c000c, 0x1000, 4, 0x0, 1, 0x0, 0x0, 0x0, 0x0, 0x0, 0x0, 0⟩ /- CAN_DBT -/,
  ⟨0x2c0010, 0x1000, 4, 0x0, 1, 0x0, 0x0, 0x0, 0x0, 0x0, 0x0, 0⟩ /- CAN_ERR -/,
  ⟨0x2c0014, 0x1000, 4, 0x0, 1, 0x0, 0x0, 0x0, 0x0, 0x0, 0x0, 0⟩ /- CAN_CTL -/,
  ⟨0x2c0018, 0x1000, 4, 0x0, 1, 0x0, 0x0, 0x0, 0x0, 0xffffffff, 0x0, 0⟩ /- CAN_TXCOUNT -/,
  ⟨0x2c001c, 0x1000, 4, 0x0, 1, 0x0, 0x0, 0x0, 0x0, 0xffffff, 0x0, 0⟩ /- CAN_RXCOUNT -/,
  ⟨0x2c0020, 0x1000, 4, 0x0, 1, 0x0, 0x0, 0xffffffff, 0x0, 0x0, 0x0, 0⟩ /- CAN_TXFAIL_LO -/,
  ⟨0x2c0024, 0x1000, 4, 0x0, 1, 0x0, 0x0, 0xffffffff, 0x0, 0x0, 0x0, 0⟩ /- CAN_TXFAIL_HI -/,
  ⟨0x2c0028, 0x1000, 4, 0x0, 1, 0x0, 0x0, 0x0, 0x0, 0x0, 0x0, 0⟩ /- CAN_FIFO -/,
  ⟨0x2c0030, 0x1000, 4, 0x0, 1, 0x0, 0x3f, 0x0, 0x0, 0x0, 0x0, 0⟩ /- CAN_BSEL -/,
  ⟨0x2c0034, 0x1000, 4, 0x0, 1, 0x0, 0x0, 0x0, 0x0, 0x1, 0x0, 0⟩ /- CAN_BSTAT -/,
  ⟨0x10000, 0x0, 1, 0x0, 1, 0x0, 0x0, 0x0, 0x0, 0x0, 0x0, 0⟩ /- MOD_STATUS -/,
  ⟨0x10004, 0x0, 1, 0x0, 1, 0x0, 0x0, 0x0, 0x0, 0x0, 0x0, 0⟩ /- MOD_RESET_CAUSE -/,
  ⟨0x10008, 0x0, 1, 0x0, 1, 0x0, 0x4, 0x10, 0x0, 0x0, 0x0, 2⟩ /- MOD_CTL -/,
  ⟨0x1000c, 0x0, 1, 0x0, 1, 0x0, 0x0, 0x0, 0x0, 0x0, 0x0, 0⟩ /- MOD_SLOT -/,
  ⟨0x10018, 0x0, 1, 0x0, 1, 0x0, 0x0, 0x0, 0x0, 0x0, 0x0, 0⟩ /- MOD_OPSEC_LO -/,
  ⟨0x1001c, 0x0, 1, 0x0, 1, 0x0, 0x0, 0x0, 0x0, 0x0, 0x0, 0⟩ /- MOD_OPSEC_HI -/,
  ⟨0x10020, 0x0, 1, 0x0, 1, 0x0, 0x0, 0x0, 0x0, 0x0, 0x0, 0⟩ /- MOD_PWRCYC -/,
  ⟨0x10040, 0x4, 7, 0x0, 1, 0x0, 0x0, 0x0, 0x0, 0x0, 0x0, 0⟩ /- MOD_STAGE_MS -/,
  ⟨0x10100, 0x0, 1, 0x0, 1, 0x1, 0x0, 0x0, 0x0, 0x0, 0x0, 0⟩ /- PWR_ON -/,
  ⟨0x10104, 0x0, 1, 0x0, 1, 0x0, 0x0, 0x0, 0x0, 0x0, 0x0, 0⟩ /- PWR_USE -/,
  ⟨0x10108, 0x0, 1, 0x0, 1, 0x0, 0x0, 0xffffff, 0x0, 0x0, 0x0, 0⟩ /- PWR_FAULT -/,
  ⟨0x1010c, 0x0, 1, 0x0, 1, 0x0, 0x0, 0x0, 0x0, 0x0, 0x0, 0⟩ /- PWR_LAST -/,
  ⟨0x10110, 0x0, 1, 0x0, 1, 0x0, 0x0, 0x0, 0x0, 0x0, 0x0, 0⟩ /- PWR_FEED -/,
  ⟨0x10114, 0x0, 1, 0x0, 1, 0x0, 0x0, 0x0, 0x0, 0xffff0000, 0x0, 0⟩ /- PWR_INPUT -/,
  ⟨0x10118, 0x0, 1, 0x0, 1, 0x0, 0x0, 0x0, 0x0, 0x0, 0x0, 0⟩ /- PWR_HOLDUP -/,
  ⟨0x0, 0x0, 1, 0x0, 1, 0x4000, 0x0, 0x0, 0x0, 0x0, 0x0, 0⟩ /- ID_PART -/,
  ⟨0x4, 0x0, 1, 0x0, 1, 0x0, 0x0, 0x0, 0x0, 0x0, 0x0, 0⟩ /- ID_SERIAL_LO -/,
  ⟨0x8, 0x0, 1, 0x0, 1, 0x0, 0x0, 0x0, 0x0, 0x0, 0x0, 0⟩ /- ID_SERIAL_HI -/,
  ⟨0xc, 0x0, 1, 0x0, 1, 0x0, 0x0, 0x0, 0x0, 0x0, 0x0, 0⟩ /- ID_ISSUE -/,
  ⟨0x20, 0x4, 8, 0x0, 1, 0x0, 0x0, 0x0, 0x0, 0x0, 0x0, 0⟩ /- ID_DEVKEY -/
  ]

/-- Rows 180 to 195 of the register map. -/
def regRows6 : List RegRow := [
  ⟨0x300000, 0x0, 1, 0x0, 1, 0x0, 0x0, 0x18, 0x0, 0x0, 0x0, 0⟩ /- EVT_STATUS -/,
  ⟨0x300008, 0x0, 1, 0x0, 1, 0x0, 0x0, 0x0, 0x0, 0x0, 0x0, 0⟩ /- EVT_HEAD_LO -/,
  ⟨0x30000c, 0x0, 1, 0x0, 1, 0x0, 0x0, 0x0, 0x0, 0x0, 0x0, 0⟩ /- EVT_HEAD_HI -/,
  ⟨0x300010, 0x0, 1, 0x0, 1, 0x0, 0x0, 0x0, 0x0, 0x0, 0x0, 0⟩ /- EVT_OLDEST_LO -/,
  ⟨0x300014, 0x0, 1, 0x0, 1, 0x0, 0x0, 0x0, 0x0, 0x0, 0x0, 0⟩ /- EVT_OLDEST_HI -/,
  ⟨0x300018, 0x0, 1, 0x0, 1, 0x0, 0x0, 0x0, 0x0, 0x0, 0x0, 0⟩ /- EVT_ARCH_LO -/,
  ⟨0x30001c, 0x0, 1, 0x0, 1, 0x0, 0x0, 0x0, 0x0, 0x0, 0x0, 0⟩ /- EVT_ARCH_HI -/,
  ⟨0x300020, 0x0, 1, 0x0, 1, 0x0, 0x0, 0x0, 0x0, 0xffffffff, 0x0, 0⟩ /- EVT_COUNTS -/,
  ⟨0x300028, 0x0, 1, 0x0, 1, 0x0, 0xffffffff, 0x0, 0x0, 0x0, 0x0, 1⟩ /- EVT_SEL_LO -/,
  ⟨0x30002c, 0x0, 1, 0x0, 1, 0x0, 0xffffffff, 0x0, 0x0, 0x0, 0x0, 1⟩ /- EVT_SEL_HI -/,
  ⟨0x340000, 0x0, 1, 0x0, 1, 0x0, 0x0, 0x0, 0x0, 0xffff0000, 0x0, 0⟩ /- PNL_STATUS -/,
  ⟨0x340004, 0x0, 1, 0x0, 1, 0x0, 0x0, 0x0, 0x0, 0x0, 0x0, 0⟩ /- PNL_LAMPS -/,
  ⟨0x340008, 0x0, 1, 0x0, 1, 0x0, 0x0, 0x0, 0x0, 0x0, 0x0, 0⟩ /- PNL_UPDATES -/,
  ⟨0x1011c, 0x0, 1, 0x0, 1, 0x0, 0x0, 0x2000000, 0x0, 0x0, 0x0, 0⟩ /- PWR_TEMP -/,
  ⟨0x2c0280, 0x1000, 4, 0x4, 20, 0x0, 0xffffffff, 0x0, 0x0, 0x0, 0x0, 0⟩ /- CAN_STAGE -/,
  ⟨0x282100, 0x4, 96, 0x0, 1, 0x0, 0xffffffff, 0x0, 0x0, 0x0, 0x0, 2⟩ /- AIO_CALW -/
  ]

/-- The whole register map. -/
def regRows : List RegRow := regRows0 ++ regRows1 ++ regRows2 ++ regRows3 ++ regRows4 ++ regRows5 ++ regRows6

/-- Whether a row holds the word at an offset. -/
def RegRow.holds (r : RegRow) (off : Nat) : Bool :=
  decide (r.base ≤ off) &&
    (let d := off - r.base
     let i := if r.s1 = 0 then 0 else if r.s2 ≤ r.s1 then d / r.s1 else 0
     let e := d - i * r.s1
     let j := if r.s2 = 0 then 0 else e / r.s2
     decide (i < r.c1) && decide (j < r.c2) && decide (d = i * r.s1 + j * r.s2))

/-- The row that occupies an offset, if any (00 R16). -/
def regRow? (off : Nat) : Option RegRow := regRows.find? (fun r => r.holds off)

end Sys2Proof.Machine
end

