-- ==== Sys2Proof/Machine/State.lean ====
section
/-! DEFINITION. The state of the module as plain data, the reasons a step can stop, and the state after reset. -/
namespace Sys2Proof.Machine

/-- Why a step stops with a fault. No meaning of this model raises one: the spec gives every command of the table an effect
or lets it have none. The one constructor names the case that a later command could need. -/
inductive Fault where
  /-- Raised by no command. Safe. -/
  | unused
  deriving DecidableEq, Repr

/-- Why a step is refused. -/
inductive Refusal where
  /-- A command that has no meaning yet, by its mnemonic of the table. Raised by the refused arms of `exec`. Safe. -/
  | notModelled (mnemonic : String)
  deriving DecidableEq, Repr

/-- The module. Every register field of the register blocks and of the slot windows has its home in `regs`; what stands in
no register stands in the other fields. -/
structure State where
  /-- Register words by offset in management space (00 R14): an unlisted word is zero. -/
  regs : Tab Word := []
  /-- Latched high words of the 64-bit registers, by the offset of the high word (04 R195). -/
  latch : Tab Word := []
  /-- HBM and SRAM by core physical address (03 R122, R125). -/
  mem : Memory := []
  /-- The eMMC user area by byte address (03 R135). -/
  flash : Memory := []
  nv : Nv := {}
  keep : KeepState := {}
  /-- The running image; none before image commit. -/
  img : Option Img := none
  /-- The image accepted at S1 that a later stage commits (16 R695): profile slot or factory, selection source. -/
  next : Option (Img × Choice × Nat) := none
  fab : FabState := {}
  cs : List ChangeSet := []
  deferred : List Deferred := []
  sig : SignalState := {}
  parts : Tab PartState := []
  /-- What the next commit record lists (05 R232). -/
  commit : CommitRecord := {}
  loops : LoopState := {}
  rings : Tab RingState := []
  twin : TwinState := {}
  time : TimeState := {}
  lines : LineState := {}
  cores : Tab CoreState := []
  loc : LocalState := {}
  can : Tab CanState := []
  pwr : PwrState := {}
  mgmt : MgmtState := {}
  recd : Recorder := {}
  panel : PanelState := {}
  /-- Latest instant that a command has named: line time in ns, oscillator time before time start (10 R473, R476). -/
  now : Nat := 0
  /-- What the module has sent, oldest first. -/
  out : List Output := []
  /-- Number of free values taken so far; the model's own field (assumption 2). -/
  freeCtr : Nat := 0
  /-- Commands that wait, first in first out. -/
  pending : List Instr := []
  deriving DecidableEq, Repr

/-- The register words whose reset value is stated and not zero, and IMG_KEYS as the factory leaves it (02 R61). -/
def resetRegs : Tab Word :=
  [(0, 0x4000), (0x10100, 1), (0x20080, 1), (0x180000, 0xF00), (0x1C0000, 0x18)] ++
  (List.range 4).map (fun c => (0x2C0000 + 0x1000 * c, 4)) ++
  (List.range 32).map (fun c => (0x38100C + 0x100 * c, 0x10000000))

/-- The module right after reset: every register at the value the spec states for reset, nothing in MRAM and flash but
what the factory leaves, no image, no command waiting. MARK: DESIGN CHOICE, unsafe, for every value that the spec does not
state (assumptions 1, 2, 6, 7). -/
def State.reset : State := { regs := resetRegs }

end Sys2Proof.Machine
end

