-- ==== Sys2Proof/Machine/Ops.lean ====
section
/-! DEFINITION. The named operations over the state: registers, counters, memory, events, messages, free values, tables. -/
namespace Sys2Proof.Machine

/-- What a meaning answers: the next state. -/
abbrev Res := Host.Outcome State Fault Refusal

/-! ## Registers -/

/-- A register word (00 R14). -/
def State.rd (s : State) (off : Nat) : Word := tget 0 s.regs off

/-- The state with a register word replaced. -/
def State.wr (s : State) (off : Nat) (w : Word) : State := { s with regs := tset 0 s.regs off w }

/-- A field of a register. -/
def State.get (s : State) (f : Fld) : Nat := getBits (s.rd f.off) f.lo f.len

/-- The state with a field of a register replaced. -/
def State.put (s : State) (f : Fld) (v : Nat) : State := s.wr f.off (putBits (s.rd f.off) f.lo f.len v)

/-- Whether a one-bit field is set. -/
def State.on (s : State) (f : Fld) : Bool := decide (s.get f = 1)

/-- A one-bit field set or cleared. -/
def State.putB (s : State) (f : Fld) (b : Bool) : State := s.put f (b2n b)

/-- One bit of a register set or cleared. -/
def State.setBit (s : State) (off i : Nat) (b : Bool) : State := s.wr off (putBits (s.rd off) i 1 (b2n b))

/-- A counting field raised by `n`, stopping at its largest value. -/
def State.bump (s : State) (f : Fld) (n : Nat) : State := s.put f (min (s.get f + n) (2 ^ f.len - 1))

/-- A counting field raised by one that wraps. -/
def State.step1 (s : State) (f : Fld) : State := s.put f (s.get f + 1)

/-- A 64-bit register: low word at the lower offset (00 R14). -/
def State.rd64 (s : State) (off : Nat) : Nat := (s.rd off).toNat + 2 ^ 32 * (s.rd (off + 4)).toNat

/-- The state with a 64-bit register replaced. -/
def State.wr64 (s : State) (off v : Nat) : State :=
  (s.wr off (BitVec.ofNat 32 v)).wr (off + 4) (BitVec.ofNat 32 (v / 2 ^ 32))

/-- A register word as a number. -/
def State.rdN (s : State) (off : Nat) : Nat := (s.rd off).toNat

/-- The state with a register word replaced by a number. -/
def State.wrN (s : State) (off v : Nat) : State := s.wr off (BitVec.ofNat 32 v)

/-- Whether a power domain is powered (16 PWR_ON). -/
def State.pd (s : State) (n : Nat) : Bool := bitOf (s.rdN R.PWR_ON) n

/-- Writing a list of words from an offset. -/
def State.wrWords (s : State) (off : Nat) : List Nat → State
  | [] => s
  | w :: t => (s.wrN off w).wrWords (off + 4) t

/-! ## Memory -/

/-- One byte of HBM or SRAM. -/
def State.memB (s : State) (a : Nat) : Byte := Memory.read s.mem a

/-- `n` bytes as a number, little-endian. -/
def State.memN (s : State) (a n : Nat) : Nat := leNat (Memory.readN s.mem a n)

/-- `n` bytes from an address. -/
def State.memL (s : State) (a n : Nat) : List Byte := Memory.readN s.mem a n

/-- Writing bytes from an address. -/
def State.memW (s : State) (a : Nat) (b : List Byte) : State := { s with mem := Memory.writeN s.mem a b }

/-- Whether a read of `n` bytes meets a poisoned word (03 R124). -/
def State.poisoned (s : State) (a n : Nat) : Bool :=
  s.fab.poison.any (fun w => decide (w < a + n) && decide (a < w + 8))

/-- A write ends the poison of the words it reaches (03 R124). -/
def State.unpoison (s : State) (a n : Nat) : State :=
  if s.fab.poison = [] then s
  else { s with fab := { s.fab with
    poison := s.fab.poison.filter (fun w => !(decide (w < a + n) && decide (a < w + 8))) } }

/-- A write of bytes by a core, an engine or the module itself: the bytes, and the end of their poison. -/
def State.sysW (s : State) (a : Nat) (b : List Byte) : State := (s.memW a b).unpoison a b.length

/-- Writing `n` zero bytes. -/
def State.memZero (s : State) (a n : Nat) : State := s.sysW a (List.replicate n 0)

/-! ## Free values, messages, totals -/

/-- The next free value (assumption 2). -/
def State.free (s : State) : BitVec 64 := Config.freeValue s.freeCtr

/-- The state after a free value is taken. -/
def State.take (s : State) : State := { s with freeCtr := s.freeCtr + 1 }

/-- The module sends. -/
def State.send (s : State) (o : Output) : State := { s with out := s.out ++ [o] }

/-- A total of the summary since image commit, by its summary offset and width in bytes, raised by `n` (17 R743). -/
def State.total (s : State) (off bytes n : Nat) : State :=
  { s with mgmt := { s.mgmt with totals := tmod 0 s.mgmt.totals off (fun v => min (v + n) (2 ^ (8 * bytes) - 1)) } }

/-- An instant named by a command: time never runs back but by a time restart. -/
def State.at (s : State) (t : Nat) : State := { s with now := max s.now t }

/-! ## Islands (01 R37) -/

/-- Loop cluster n. -/
def islCluster (n : Nat) : Nat := 32 + n
/-- HBM channel n. -/
def islHbm (n : Nat) : Nat := 130 + n
/-- Ring port n. -/
def islRing (n : Nat) : Nat := 162 + n
/-- Stream ingest of ring n. -/
def islIngest (n : Nat) : Nat := 178 + n
/-- Twin-link lane 0. -/
def islTwin : Nat := 194
/-- Line-link port n: 0 up, 1 to 3 down. -/
def islLine (n : Nat) : Nat := 202 + n
/-- Time unit. -/
def islTime : Nat := 209
/-- Local-I/O bridge. -/
def islLocal : Nat := 210
/-- CAN block. -/
def islCan : Nat := 211
/-- Management block. -/
def islMgmt : Nat := 212
/-- Event recorder. -/
def islRec : Nat := 213
/-- Panel controller. -/
def islPanel : Nat := 214
/-- Flash controller. -/
def islFlash : Nat := 215
/-- MRAM bridge. -/
def islMram : Nat := 216
/-- Signature and TLS unit. -/
def islSig : Nat := 217
/-- Change-set unit. -/
def islCs : Nat := 218
/-- Summary unit. -/
def islSum : Nat := 219
/-- The PD0 supervisor (17 R745). -/
def islSup : Nat := 255

/-! ## Events (17 R748, R749) -/

/-- Raises of an island that wait for the recorder. -/
def Recorder.waiting (r : Recorder) (isl : Nat) : Nat := (r.queue.filter (fun q => q.island = isl)).length

/-- A raise as the recorder takes it (17 R745, R748). -/
def State.raised (s : State) (code isl : Nat) (data : List Byte) : Raise :=
  { code := code, island := isl, data := data.take 16, tick := s.now / 1000, opsec := s.nv.opsec,
    early := !s.on F.EVT_STATUS_RUNNING }

/-- A raise that finds 16 records of its island waiting is lost: it is counted, and the first loss of a microsecond is itself
reported (17 R749). -/
def State.raiseLost (s : State) (isl : Nat) (r : Raise) : State :=
  let s1 := ((s.bump F.EVT_COUNTS_LOST 1).put F.EVT_STATUS_LOST 1).total 0x19C 4 1
  if s1.recd.lostTick = some (s.now / 1000) then s1
  else
    { s1 with recd := { s1.recd with lostTick := some (s.now / 1000)
                                     queue := s1.recd.queue ++ [{ r with code := 0xE102, island := islRec, data := le 1 isl }] } }

/-- An event is raised: it is queued, or lost when 16 records of its island wait (17 R749). -/
def State.raise (s : State) (code isl : Nat) (data : List Byte) : State :=
  if s.recd.waiting isl < 16 then { s with recd := { s.recd with queue := s.recd.queue ++ [s.raised code isl data] } }
  else s.raiseLost isl (s.raised code isl data)

/-! ## SRAM banks (03 R122) -/

/-- Address of SRAM bank b. -/
def bankBase (b : Nat) : Nat := 0x8000000000 + 0x100000 * b

/-- Address of byte `o` of a region interleaved over `count` banks from `first` on (03 R122). MARK: DESIGN CHOICE: the granules of a bank
follow one another from its start (assumption 114). -/
def interleaved (first count o : Nat) : Nat :=
  bankBase (first + o / 64 % count) + 64 * (o / 64 / count) + o % 64

/-- Address of a point's value word in buffer 0 or 1, of its quality byte, of its previous value. MARK: DESIGN CHOICE: buffer 1 holds the
values and after them the qualities (assumption 93). -/
def valueAddr (buf : Bool) (p : Nat) : Nat := if buf then interleaved 9 5 (4 * p) else interleaved 0 4 (4 * p)
/-- Address of a quality byte. -/
def qualAddr (buf : Bool) (p : Nat) : Nat := if buf then interleaved 9 5 (0x400000 + p) else bankBase 4 + p
/-- Address of a previous value. -/
def prevAddr (p : Nat) : Nat := interleaved 5 4 (4 * p)

/-- Staging of the frames of a ring (03 R122). -/
def ringStaging (r : Nat) : Nat := bankBase (38 + r / 2) + 0x80000 * (r % 2)

/-- A write of a point into a buffer ends the poison there (03 R124). -/
def State.cleanPoint (s : State) (buf : Bool) (p : Nat) : State := (s.unpoison (valueAddr buf p) 4).unpoison (qualAddr buf p) 1

/-! ## Roles (09 R417, R428) -/

/-- Role: 0 NONE, 1 ACTIVE, 2 STANDBY. -/
def State.role (s : State) : Nat := s.get F.TWN_STATUS_ROLE

/-- The module holds ACTIVE. -/
def State.isActive (s : State) : Bool := decide (s.role = 1)

/-- The module is STANDBY. -/
def State.isStandby (s : State) : Bool := decide (s.role = 2)

/-- Twin state: 0 LISTEN, 1 ACTIVE, 2 JOINING, 3 MATCHED, 4 DIVERGED, 5 LAGGING, 6 REFUSED, 7 FENCED, 8 EXCLUDED. -/
def State.tstate (s : State) : Nat := s.get F.TWN_STATUS_TSTATE

/-- The partner's twin state as the latest valid fox word gave it. -/
def State.ptstate (s : State) : Nat := s.get F.TWN_STATUS_PARTNER_TSTATE

/-- The twin position: true for twin B. -/
def State.twinB (s : State) : Bool := s.on F.TWN_STATUS_TWIN_B

/-- The command epoch (09 R423). -/
def State.epoch (s : State) : Nat := s.rdN R.TWN_EPOCH

/-- C0 count of the latest boundary message. -/
def State.count (s : State) : Nat := s.rd64 R.CYC_COUNT

/-- The pair is matched, seen from this module: one ACTIVE, the other MATCHED. -/
def State.matched (s : State) : Bool :=
  (decide (s.tstate = 1) && decide (s.ptstate = 3)) || decide (s.tstate = 3)

/-! ## Tables of the state -/

/-- Core pair `c`. -/
def State.core (s : State) (c : Nat) : CoreState := tget {} s.cores c
/-- The state with core pair `c` changed. -/
def State.setCore (s : State) (c : Nat) (k : CoreState) : State := { s with cores := tset {} s.cores c k }
/-- Partition `p`. -/
def State.part (s : State) (p : Nat) : PartState := tget {} s.parts p
/-- The state with partition `p` changed. -/
def State.setPart (s : State) (p : Nat) (k : PartState) : State := { s with parts := tset {} s.parts p k }
/-- Ring `r`. -/
def State.ring (s : State) (r : Nat) : RingState := tget {} s.rings r
/-- The state with ring `r` changed. -/
def State.setRing (s : State) (r : Nat) (k : RingState) : State := { s with rings := tset {} s.rings r k }
/-- Head slot `i`. -/
def State.slot (s : State) (i : Nat) : SlotDyn := tget {} s.loops.slots i
/-- The state with head slot `i` changed. -/
def State.setSlot (s : State) (i : Nat) (k : SlotDyn) : State :=
  { s with loops := { s.loops with slots := tset {} s.loops.slots i k } }
/-- Trace of cluster `c`. -/
def State.trace (s : State) (c : Nat) : Trace := tget {} s.loops.traces c
/-- The state with the trace of cluster `c` changed. -/
def State.setTrace (s : State) (c : Nat) (k : Trace) : State :=
  { s with loops := { s.loops with traces := tset {} s.loops.traces c k } }
/-- CAN channel `c`. -/
def State.canCh (s : State) (c : Nat) : CanState := tget {} s.can c
/-- The state with CAN channel `c` changed. -/
def State.setCan (s : State) (c : Nat) (k : CanState) : State := { s with can := tset {} s.can c k }
/-- Session `n`. -/
def State.session (s : State) (n : Nat) : Option Session := tget none s.mgmt.sessions n
/-- The state with session `n` changed. -/
def State.setSession (s : State) (n : Nat) (k : Option Session) : State :=
  { s with mgmt := { s.mgmt with sessions := tset none s.mgmt.sessions n k } }
/-- Subscription `i`. -/
def State.sub (s : State) (i : Nat) : SubState := tget {} s.lines.subs i
/-- The state with subscription `i` changed. -/
def State.setSub (s : State) (i : Nat) (k : SubState) : State :=
  { s with lines := { s.lines with subs := tset {} s.lines.subs i k } }

/-- The pluggable in a cage (20 R817, R818): 0 none, 1 25GBASE-SR, 2 25GBASE-CR, 3 10GBASE-SR, 4 100GBASE-SR4, 5 100GBASE-LR4,
any other number a type that the module does not know; and its declared power in 0.1 W. -/
def State.cage (s : State) (c : Nat) : Nat × Nat := tget (0, 0) s.pwr.cages c

/-- Whether a port can have link as far as its cage goes: it holds a pluggable, and that is enabled (20 R818, 02 R830). -/
def State.cageOn (s : State) (c : Nat) : Bool := decide ((s.cage c).1 ≠ 0) && !s.pwr.cagesOff.contains c

/-! ## Parts of the state changed by a function -/

/-- The twin state changed. -/
def State.tw (s : State) (f : TwinState → TwinState) : State := { s with twin := f s.twin }
/-- What MRAM and flash hold changed. -/
def State.inNv (s : State) (f : Nv → Nv) : State := { s with nv := f s.nv }
/-- The time unit changed. -/
def State.tm (s : State) (f : TimeState → TimeState) : State := { s with time := f s.time }
/-- Local I/O changed. -/
def State.lo (s : State) (f : LocalState → LocalState) : State := { s with loc := f s.loc }
/-- The supervisor changed. -/
def State.pw (s : State) (f : PwrState → PwrState) : State := { s with pwr := f s.pwr }
/-- The management block changed. -/
def State.mg (s : State) (f : MgmtState → MgmtState) : State := { s with mgmt := f s.mgmt }
/-- The panel controller changed. -/
def State.pn (s : State) (f : PanelState → PanelState) : State := { s with panel := f s.panel }
/-- The loop engine changed. -/
def State.lp (s : State) (f : LoopState → LoopState) : State := { s with loops := f s.loops }
/-- The signal image changed. -/
def State.sg (s : State) (f : SignalState → SignalState) : State := { s with sig := f s.sig }
/-- The fabric changed. -/
def State.fb (s : State) (f : FabState → FabState) : State := { s with fab := f s.fab }
/-- The next commit record changed. -/
def State.cr (s : State) (f : CommitRecord → CommitRecord) : State := { s with commit := f s.commit }
/-- Partition `p` changed. -/
def State.pa (s : State) (p : Nat) (f : PartState → PartState) : State := s.setPart p (f (s.part p))
/-- Core pair `c` changed. -/
def State.co (s : State) (c : Nat) (f : CoreState → CoreState) : State := s.setCore c (f (s.core c))
/-- Ring `r` changed. -/
def State.ri (s : State) (r : Nat) (f : RingState → RingState) : State := s.setRing r (f (s.ring r))
/-- Head slot `i` changed. -/
def State.sl (s : State) (i : Nat) (f : SlotDyn → SlotDyn) : State := s.setSlot i (f (s.slot i))

/-! ## Internal faults, the running image -/

/-- An internal fault of this module, for the attribution of mismatches (09 R444). -/
def State.noteFault (s : State) : State :=
  (s.tw fun q => { q with ownFaults := s.count :: s.twin.ownFaults })

/-- The content of the running image; an empty one before image commit. -/
def State.image (s : State) : Img := s.img.getD {}

/-- SIGMAP of a point (04 R139). -/
def Img.point (i : Img) (p : Nat) : PointInfo := tget {} i.sigmap p

/-- Type and owner of a point of the running image. -/
def State.pinfo (s : State) (p : Nat) : PointInfo := s.image.point p

/-- The entry of PARTITIONS of a partition. -/
def Img.part? (i : Img) (p : Nat) : Option PartRec := i.parts.find? (fun r => r.part = p)

/-- The ring record of a ring. -/
def Img.ring? (i : Img) (r : Nat) : Option RingRec := i.rings.find? (fun x => x.ring = r)

/-- Period of class Ck in C0 cycles (04 R157). -/
def period (k : Nat) : Nat := 2 ^ k

/-- Whether boundary `n` is a boundary of class Ck (04 R158). -/
def isBoundary (k n : Nat) : Bool := decide (n % 2 ^ k = 0)

/-- The first boundary of class Ck at or after count `n`. -/
def nextBoundary (k n : Nat) : Nat := (n + 2 ^ k - 1) / 2 ^ k * 2 ^ k

/-- Line time of a boundary in ns (10 R473, 04 R158). -/
def boundaryNs (n : Nat) : Nat := n * 31250

/-- Folding an operation over a list of indices. -/
def State.each {α : Type} (s : State) (l : List α) (f : State → α → State) : State := l.foldl f s

/-- A list in ascending order of a key; entries of equal key keep their order. -/
def sortBy {α : Type} (k : α → Nat) : List α → List α
  | [] => []
  | x :: t => insBy' k x (sortBy k t)
where
  /-- Insertion before entries of equal key. -/
  insBy' {α : Type} (k : α → Nat) (x : α) : List α → List α
  | [] => [x]
  | y :: t => if k x ≤ k y then x :: y :: t else y :: insBy' k x t

/-- Times that lie within `w` of `now`. -/
def within (l : List Nat) (now w : Nat) : List Nat := l.filter (fun t => now < t + w)

end Sys2Proof.Machine
end

