-- ==== Sys2Proof/Machine/Recorder.lean ====
section
/-! DEFINITION. The event recorder: severities, token buckets, active faults, records in ring, tail and archive (17 R745 to
R759). -/
namespace Sys2Proof.Machine

/-- Event codes of severity Error in the event tables of the chapters. -/
def errorCodes : List Nat := [
  0x0002, 0x0004, 0x1001, 0x1002, 0x1003, 0x1004, 0x1005, 0x1006, 0x1007, 0x1008, 0x1011, 0x1012,
  0x1034, 0x2003, 0x2012, 0x2021, 0x2023, 0x2032, 0x3001, 0x4003, 0x4010, 0x4011, 0x4012, 0x4021,
  0x4022, 0x5001, 0x5002, 0x5003, 0x5004, 0x5005, 0x5010, 0x5012, 0x5013, 0x5014, 0x6001, 0x6013,
  0x6042, 0x6046, 0x7020, 0x7021, 0x7022, 0x7040, 0x7043, 0x7070, 0x8015, 0x8017, 0x9010, 0xA001,
  0xA002, 0xA003, 0xA004, 0xA006, 0xA012, 0xB010, 0xB020, 0xB030, 0xB040, 0xB050, 0xC001, 0xD003,
  0xD010, 0xD031, 0xE011]

/-- Event codes of severity Warning in the event tables of the chapters. -/
def warningCodes : List Nat := [
  0x0005, 0x0006, 0x1021, 0x1022, 0x1033, 0x1042, 0x2001, 0x2002, 0x2004, 0x2010, 0x2030, 0x2031,
  0x2040, 0x3002, 0x3003, 0x3014, 0x4001, 0x4015, 0x4020, 0x4030, 0x4040, 0x5007, 0x5008, 0x5009,
  0x500A, 0x500B, 0x5011, 0x5022, 0x5023, 0x6002, 0x6010, 0x6011, 0x6020, 0x6022, 0x6030, 0x6032,
  0x6044, 0x6045, 0x6047, 0x6050, 0x6060, 0x6061, 0x6070, 0x6071, 0x7002, 0x7003, 0x7012, 0x7023,
  0x7030, 0x7031, 0x7041, 0x7042, 0x7051, 0x7052, 0x7060, 0x7061, 0x8002, 0x8010, 0x8011, 0x8013,
  0x8020, 0x8021, 0x8030, 0x8040, 0x8041, 0x9001, 0x9020, 0xA010, 0xA011, 0xB001, 0xB003, 0xB022,
  0xB041, 0xB042, 0xB043, 0xB046, 0xB047, 0xB052, 0xB060, 0xC003, 0xC010, 0xC020, 0xC021, 0xC022,
  0xC030, 0xD001, 0xD011, 0xD020, 0xD030, 0xD040, 0xD041, 0xE010, 0xE022, 0xE102, 0xE103, 0xE203,
  0xE204, 0xE205]

/-- Severity of a code: 0 Info, 1 Warning, 2 Error (17 R745 and the event tables). -/
def severity (code : Nat) : Nat := if errorCodes.contains code then 2 else if warningCodes.contains code then 1 else 0

/-- The 60 bytes of a record before its CRC (17 R745). -/
def EvRecord.head (r : EvRecord) : List Byte :=
  le 8 r.seq ++ le 2 r.code ++ le 1 r.severity ++ le 1 r.island ++ le 1 (b2n r.ltValid + 2 * b2n r.early) ++ le 3 0 ++
    le 5 r.opsec ++ le 3 r.pwrcyc ++ le 8 r.c0 ++ le 8 r.lineTime ++ pad 16 r.data ++ le 4 0

/-- The 64 bytes of a record (17 R745). -/
def EvRecord.bytes (r : EvRecord) : List Byte := r.head ++ le 4 (crc32c r.head)

/-- The record that 64 bytes hold; none where its CRC does not agree (17 R745). -/
def EvRecord.parse (b : List Byte) : Option EvRecord :=
  let n := field b
  if n 60 4 = crc32c (b.take 60) then
    some { seq := n 0 8, code := n 8 2, severity := n 10 1, island := n 11 1, ltValid := bitOf (n 12 1) 0,
           early := bitOf (n 12 1) 1, opsec := n 16 5, pwrcyc := n 21 3, c0 := n 24 8, lineTime := n 32 8,
           data := (b.drop 40).take 16 }
  else none

/-- Address of the slot of a record in the HBM ring (17 R750). -/
def ringSlot (seq : Nat) : Nat := 0x07DC000000 + 64 * (seq % 1048576)

/-- The settings of a code (17 R761). -/
def State.codeRec (s : State) (code : Nat) : CodeRec :=
  (s.image.events.codes.find? (fun c => c.code = code)).getD { code := code }

/-- A record is accepted: it takes the next SEQ and stands in the ring and in the tail (17 R747, R750, R758). -/
def State.record (s : State) (code isl : Nat) (early : Bool) (opsec : Nat) (data : List Byte) : State :=
  let seq := s.nv.seq + 1
  let st := s.on F.TIM_STATUS_STARTED
  let r : EvRecord := { seq := seq, code := code, severity := severity code, island := isl, ltValid := st, early := early,
                        opsec := opsec, pwrcyc := s.nv.pwrcyc, c0 := if st then s.count else 0,
                        lineTime := if st then s.now else 0, data := pad 16 data }
  let s1 := s.inNv fun q => { q with seq := seq, tail := tset none s.nv.tail (seq % 16384) (some r) }
  let s2 := ({ s1 with recd := { s1.recd with accepted := s1.recd.accepted ++ [(seq, s.now)] } }).wr64 R.EVT_HEAD seq
  if s.on F.EVT_STATUS_HBM_RING then
    (s2.memW (ringSlot seq) r.bytes).wr64 R.EVT_OLDEST (max (max 1 (s.rd64 R.EVT_OLDEST)) (seq + 1 - 1048576))
  else s2.wr64 R.EVT_OLDEST (max (max 1 (s.rd64 R.EVT_OLDEST)) (seq + 1 - 16384))

/-- Tokens of a bucket at an instant: it refills continuously while below BURST (17 R752). -/
def Bucket.refill (b : Bucket) (c : CodeRec) (now : Nat) : Bucket :=
  { b with nano := min (c.burst * 1000000000) (b.nano + c.rate * (now - b.at_)), at_ := now }

/-- The bucket of a code now. -/
def State.bucket (s : State) (c : CodeRec) : Bucket :=
  ((tget none s.recd.buckets c.code).getD { nano := c.burst * 1000000000, at_ := s.now }).refill c s.now

/-- The bucket of a code replaced. -/
def State.setBucket (s : State) (code : Nat) (b : Bucket) : State :=
  { s with recd := { s.recd with buckets := tset none s.recd.buckets code (some b) } }

/-- The record of suppressed raises of a code, once its bucket holds a whole token again (17 R753). -/
def State.suppressionReport (s : State) (code : Nat) : State :=
  let b := s.bucket (s.codeRec code)
  if b.suppressed ≠ 0 ∧ b.nano ≥ 1000000000 then
    (s.setBucket code { b with suppressed := 0 }).record 0xE101 islRec false s.nv.opsec
      (le 2 code ++ le 4 b.suppressed ++ le 4 b.firstC0 ++ le 4 b.lastC0)
  else s

/-- Number of active faults and of displaced ones beyond 256: the new fault replaces the oldest of lowest severity
(17 R755). -/
def Recorder.addFault (r : Recorder) (f : ActiveFault) : Recorder :=
  if r.faults.length < 256 then { r with faults := r.faults ++ [f] } else
  let low := r.faults.foldl (fun m g => min m g.severity) 2
  let old := (r.faults.filter (fun g => g.severity = low)).foldl (fun m g => min m g.seq) (2 ^ 64)
  { r with faults := r.faults.filter (fun g => g.seq ≠ old) ++ [f], unlisted := r.unlisted + 1 }

/-- Whether a raise opens an active fault (17 R755). -/
def State.opensFault (s : State) (c : CodeRec) (data : List Byte) : Bool :=
  decide (c.clear ≠ 0) && !s.recd.faults.any (fun f => decide (f.code = c.code) && decide (f.key = data.take c.keyLen))

/-- Whether a raise of `code` closes an active fault (17 R755). -/
def State.closes (s : State) (code : Nat) (data : List Byte) (f : ActiveFault) : Bool :=
  decide ((s.codeRec f.code).clear = code) && decide (code ≠ 0xFFFF) && decide (f.key = data.take f.key.length)

/-- What a raise does to the active faults, its record having been made or not (17 R755). -/
def State.faultUpdate (s : State) (r : Raise) (opens : Bool) : State :=
  let c := s.codeRec r.code
  let data := pad 16 r.data
  let key := data.take c.keyLen
  let s1 := { s with recd := { s.recd with faults := s.recd.faults.filter (fun f => !s.closes r.code data f) } }
  if c.clear = 0 then s1
  else if opens then
    { s1 with recd := s1.recd.addFault { seq := s.nv.seq, code := r.code, severity := severity r.code, island := r.island,
                                         opsec := r.opsec, key := key, data := data } }
  else
    { s1 with recd := { s1.recd with faults := s1.recd.faults.map (fun f =>
        if f.code = r.code ∧ f.key = key then { f with count := f.count + 1, data := data } else f) } }

/-- A raise reaches the recorder: recorded or suppressed, then its active fault (17 R748, R752 to R755). -/
def State.take1 (s : State) (r : Raise) : State :=
  let c := s.codeRec r.code
  let opens := s.opensFault c (pad 16 r.data)
  if c.noLimit ∨ r.code = 0xE101 ∨ r.code = 0xE102 then
    (s.record r.code r.island r.early r.opsec r.data).faultUpdate r opens
  else
    let s0 := s.suppressionReport r.code
    let b := s0.bucket c
    if b.nano ≥ 1000000000 then
      ((s0.setBucket r.code { b with nano := b.nano - 1000000000 }).record r.code r.island r.early r.opsec
        r.data).faultUpdate r opens
    else if opens then ((s0.setBucket r.code b).record r.code r.island r.early r.opsec r.data).faultUpdate r true
    else
      let b1 := { b with suppressed := b.suppressed + 1, lastC0 := s.count,
                         firstC0 := if b.suppressed = 0 then s.count else b.firstC0 }
      (((s0.setBucket r.code b1).bump F.EVT_COUNTS_SUPPRESSED 1).total 0x198 4 1).faultUpdate r false

/-- Whether raise `a` takes its SEQ before raise `b`: by tick, then by source island (17 R748). -/
def Raise.before (a b : Raise) : Bool := decide (a.tick < b.tick) || (decide (a.tick = b.tick) && decide (a.island < b.island))

/-- The raise that takes the next SEQ; raises of one island and tick keep their order (17 R748). -/
def firstRaise : List Raise → Option Raise
  | [] => none
  | r :: t => match firstRaise t with
    | none => some r
    | some q => if q.before r then some q else some r

/-- The recorder takes one raise. -/
def State.takeOne (s : State) : State :=
  match firstRaise s.recd.queue with
  | none => s
  | some r => ({ s with recd := { s.recd with queue := s.recd.queue.erase r } }).take1 r

/-- The recorder takes every raise that waits. -/
def State.takeAll (s : State) : State := (List.range s.recd.queue.length).foldl (fun t _ => t.takeOne) s

/-- Whether the tick of the raise whose turn it is has ended, so that no raise of a lower island can still join it (17 R748). -/
def State.tickOver (s : State) : Bool :=
  match firstRaise s.recd.queue with
  | some r => decide (r.tick < s.now / 1000) || r.early
  | none => false

/-- EVENT_RAISE (17 R748 to R755): the recorder takes the raise whose turn it is, once its tick has ended; before it runs, raises
wait (16 R705). -/
def execEventRaise (t : Nat) (s : State) : Res :=
  .next (if s.on F.EVT_STATUS_RUNNING ∧ (s.at t).tickOver then (s.at t).takeOne else s.at t)

/-- SUPPRESSION_REPORT (17 R753). -/
def execSuppressionReport (code : Fin 65536) (t : Nat) (s : State) : Res := .next ((s.at t).suppressionReport code.val)

/-- The record of the HBM ring, which holds it when its slot shows its SEQ (17 R751, R757); a record of code 0xE103 where it
does not. -/
def State.fromRing (s : State) (q : Nat) : EvRecord × Bool :=
  let gone : EvRecord × Bool := ({ seq := q, code := 0xE103, severity := 1, island := islRec }, true)
  match (if s.on F.EVT_STATUS_HBM_RING then EvRecord.parse (s.memL (ringSlot q) 64) else none) with
  | some r => if r.seq = q then (r, false) else gone
  | none => gone

/-- What the archive stores for a SEQ: the record of the tail, else of the HBM ring, else a record of code 0xE103
(17 R757). -/
def State.archiveRec (s : State) (q : Nat) : EvRecord × Bool :=
  match tget none s.nv.tail (q % 16384) with
  | some r => if r.seq = q then (r, false) else s.fromRing q
  | none => s.fromRing q

/-- Start of the event archive in flash (03 R135). -/
def archiveBase : Nat := 0x60000000

/-- Flash address of the archive position of a record (03 R135, R136, 17 R756): blocks that a write error moved push those
after them on by one block. -/
def State.archAddr (s : State) (q : Nat) : Nat :=
  archiveBase + 64 * ((q + 64 * (s.nv.archSkips.filter (fun b => b ≤ q)).length) % 2013265920)

/-- The records of `n` SEQ from `q` on, as the archive stores them, written to flash (17 R756, R757); one that is held nowhere
sets TAIL_OVER. -/
def State.archWrite (s : State) (q n : Nat) : State :=
  s.each (List.range n) (fun t i =>
    let r := t.archiveRec (q + i)
    let t1 := { t with flash := Memory.writeN t.flash (t.archAddr (q + i)) r.1.bytes }
    if r.2 then t1.put F.EVT_STATUS_TAIL_OVER 1 else t1)

/-- Last record of the block that is archived next: the end of the block, or the latest record (17 R756). -/
def State.archUpto (s : State) : Nat := min s.nv.seq ((s.nv.archSeq + 1) / 64 * 64 + 63)

/-- A block is due: it is full, or the oldest unarchived record is 1 s old; one from before the restart has no known instant and is
due at once (17 R756). -/
def State.archDue (s : State) : Bool :=
  decide (s.nv.archSeq < s.nv.seq) && (decide (s.archUpto % 64 = 63) ||
    (match s.recd.accepted.find? (fun e => e.1 = s.nv.archSeq + 1) with
     | some e => decide (e.2 + 1000000000 ≤ s.now)
     | none => true))

/-- Records up to the end of the block or the latest record are written to the archive (17 R756, R757). -/
def State.archive (s : State) : State :=
  let from_ := s.nv.archSeq + 1
  let upto := s.archUpto
  let s1 := (s.archWrite from_ (upto + 1 - from_)).inNv fun q => { q with archSeq := max q.archSeq upto }
  ({ s1 with recd := { s1.recd with accepted := s1.recd.accepted.filter (fun e => upto < e.1) } }).wr64 R.EVT_ARCH s1.nv.archSeq

/-- ARCHIVE_BLOCK_WRITE (17 R756, R757): the block that is due is written. -/
def execArchiveBlockWrite (t : Nat) (s : State) : Res :=
  .next (if (s.at t).archDue then (s.at t).archive else s.at t)

/-- FLASH_WRITE_ERROR (03 R136): reported; the archive block written last is written once more at the next free location.
MARK: DESIGN CHOICE for which write failed and where it goes (assumption 78), and for a retried write that fails too: each further
report moves the same block on once more (assumption 115). -/
def execFlashWriteError (s : State) : Res :=
  let b := s.nv.archSeq / 64 * 64
  let s1 := s.raise 0x2030 islFlash []
  .next (if s.nv.archSeq = 0 then s1
    else (s1.inNv fun q => { q with archSkips := q.archSkips ++ [b] }).archWrite (max b 1) (s.nv.archSeq + 1 - max b 1))

end Sys2Proof.Machine
end

