-- ==== Sys2Proof/Machine/Signal.lean ====
section
/-! DEFINITION. The signal image: points, quality, deliveries, forces, the close, payload maps (04; 08 R370, R371). -/
namespace Sys2Proof.Machine

/-! ## Quality (04 R143) -/

/-- VALID. -/
def qValid : Nat := 1
/-- STALE. -/
def qStale : Nat := 2
/-- FORCED. -/
def qForced : Nat := 4
/-- SUBSTITUTED. -/
def qSubst : Nat := 8
/-- AGREE_DIFF. -/
def qDiff : Nat := 16
/-- OVERRANGE. -/
def qOver : Nat := 32
/-- SOURCE in its place (04 R148). -/
def qSource (n : Nat) : Nat := 64 * (n % 4)

/-- A quality byte from its number. -/
def qByte (n : Nat) : Byte := BitVec.ofNat 8 n

/-- The quality of a value whose owner delivered nothing valid: STALE in place of VALID and SUBSTITUTED (04 R144, R145). -/
def qToStale (q : Byte) : Byte := (q &&& 0xF0) ||| 0x02

/-- Held with SUBSTITUTED (07 R334): VALID and SUBSTITUTED beside the flags and SOURCE that stood. -/
def qHeld (q : Byte) : Byte := (q &&& 0xF0) ||| 0x09

/-- A word as a point of its type stores it (04 R141, R142). -/
def storeAs (typ : Nat) (v : Word) : Word := if typ = 0 then (if v = 0 then 0 else 1) else v

/-! ## Values of a point -/

/-- What a point holds that no delivery has reached since image commit (04 R139, R144). -/
def State.initVal (s : State) (p : Nat) : PointVal :=
  let i := s.pinfo p
  if i.owner = .unused then {} else { v := i.init, q := 0x02 }

/-- The point in the closed image (04 R164). -/
def State.closedVal (s : State) (p : Nat) : PointVal := (tget none s.sig.closed p).getD (s.initVal p)

/-- The active force of a point (04 R176). -/
def State.force? (s : State) (p : Nat) : Option Force := s.sig.forces.find? (fun f => f.point = p)

/-- What a forced point holds (04 R180). -/
def Force.shown (f : Force) : PointVal := { v := f.value, q := (f.owner.q &&& 0xC0) ||| 0x05 }

/-- The owner's latest delivery, forced or not (04 R181). -/
def State.ownerVal (s : State) (p : Nat) : PointVal :=
  match s.force? p with
  | some f => f.owner
  | none => (tget none s.sig.writes p).getD (s.closedVal p)

/-- The point in the image in formation: its force, else what has been delivered, else what it held (04 R161, R162). -/
def State.nextVal (s : State) (p : Nat) : PointVal :=
  match s.force? p with
  | some f => f.shown
  | none => (tget none s.sig.writes p).getD (s.closedVal p)

/-- The previous value of a point (04 R168). -/
def State.prevVal (s : State) (p : Nat) : Word := (tget none s.sig.prev p).getD (s.initVal p).v

/-- The point in the buffer that does not hold the closed image (04 R164). -/
def State.formingVal (s : State) (p : Nat) : PointVal :=
  ((tget none s.sig.writes p).or (tget none s.sig.old p)).getD (s.initVal p)

/-- The words of entry `e` of the force table window (04 R191). -/
def State.forceWords (s : State) (e : Nat) : List Nat :=
  match s.sig.forces.find? (fun f => f.entry = e) with
  | some f => [f.point % 2 ^ 20 + 2 ^ 30 * b2n f.persist + 2 ^ 31, f.value.toNat, f.owner.v.toNat, f.owner.q.toNat]
  | none => [0, 0, 0, 0]

/-- An owner delivers a value and a quality to a point for the image in formation; a forced point records it in its entry;
an unused point takes none (04 R139, R141, R161, R181). -/
def State.deliver (s : State) (p : Nat) (v : Word) (q : Byte) : State :=
  let i := s.pinfo p
  if i.owner = .unused then s else
  let pv : PointVal := { v := storeAs i.typ v, q := q }
  match s.force? p with
  | some _ => (s.sg fun q => { q with
      forces := s.sig.forces.map (fun (f : Force) => if f.point = p then { f with owner := pv } else f) })
  | none => (s.sg fun q => { q with writes := tset none s.sig.writes p (some pv) }).cleanPoint (!s.sig.buf) p

/-- A point turns STALE for the image in formation and keeps its value (04 R145). -/
def State.deliverStale (s : State) (p : Nat) : State :=
  let o := s.ownerVal p
  s.deliver p o.v (qToStale o.q)

/-! ## Owner classes (04 R150) -/

/-- The class of a head slot (06 R246): bits 6:4 of the first word of its record. -/
def LoopRec.cls (r : LoopRec) : Nat := bitsOf (field r.bytes 0 4) 4 3

/-- The map entries of a segment (08 R415). -/
def SegRec.entries (r : RingRec) (g : SegRec) : List MapRec := (r.maps.drop g.mapFirst).take g.mapN

/-- The map entries of a buffer (15 R688). -/
def CanBuf.entries (c : CanChan) (b : CanBuf) : List MapRec := (c.maps.drop b.mapFirst).take b.mapN

/-- The owner class of a point: of its partition, slot, station segment or local channel (04 R150). MARK: DESIGN CHOICE: a
station point that no input segment carries, which only acyclic data deliver, has owner class C0 (assumption 81). -/
def Img.ownerClass (i : Img) (p : Nat) : Nat :=
  match (i.point p).owner with
  | .unused => 0
  | .part n => ((i.part? n).map (fun r => r.cls)).getD 0
  | .slot n => ((i.loops.find? (fun r => r.slot = n)).map (fun r => r.cls)).getD 0
  | .station ring _ =>
    ((i.ring? ring).bind (fun r => (r.segs.find? (fun g => decide (g.kind = 2) &&
      (g.entries r).any (fun m => m.point = p))).map (fun g => g.cls))).getD 0
  | .di n => ((i.localIo.di[n]?).map (fun r => r.cls)).getD 0
  | .dout _ => i.localIo.statusClass
  | .trip n => ((i.localIo.trip[n]?).map (fun r => r.cls)).getD 0
  | .aio n => if (i.localIo.hart.any (fun d => d.points.contains (some p))) then 7
              else ((i.localIo.aio[n]?).map (fun r => r.cls)).getD 0
  | .can ch n => ((i.can.find? (fun c => c.chan = ch)).bind (fun c => (c.bufs[n]?).map (fun b => b.cls))).getD 0
  | .link n => ((i.links.subs[n]?).map (fun r => r.cls)).getD 0

/-- The owner class of a point of the running image. -/
def State.ownerClass (s : State) (p : Nat) : Nat := s.image.ownerClass p

/-- Owner as event data give it (17 R832): byte 3 the kind, bytes 2 to 0 the number. -/
def Owner.code : Owner → Nat
  | .unused => 0
  | .part n => n
  | .slot n => 2 ^ 24 + n
  | .station r n => 2 * 2 ^ 24 + 256 * r + n
  | .di n => 3 * 2 ^ 24 + n
  | .dout n => 3 * 2 ^ 24 + n
  | .trip n => 3 * 2 ^ 24 + n
  | .aio n => 3 * 2 ^ 24 + n
  | .can n _ => 3 * 2 ^ 24 + n
  | .link n => 3 * 2 ^ 24 + n

/-! ## The close (04 R164, R168) -/

/-- Keys of a table. -/
def keys {α : Type} (t : Tab α) : List Nat := t.map (fun e => e.1)

/-- The contributions to the image in formation: what was delivered and what is forced enters it, the rest is carried
(04 R162, R164, R180). -/
def SignalState.formed (g : SignalState) : Tab (Option PointVal) :=
  g.forces.foldl (fun t f => tset none t f.point (some f.shown)) (g.writes.foldl (fun t e => tset none t e.1 e.2) g.closed)

/-- A table with entries set for a list of points. -/
def setAll (t : Tab (Option Word)) (l : List Nat) (f : Nat → Word) : Tab (Option Word) :=
  l.foldl (fun t p => tset none t p (some (f p))) t

/-- Image `n` closes: the buffers change roles; the previous value of a point whose owner class has a boundary at `n` becomes its
value at the boundary of that class before; in the first image on mapped state a previous value that no entry named equals the
point's value (04 R162, R164, R168, R172, R180). -/
def State.closeImage (s : State) (n : Nat) : State :=
  let c := s.sig.formed
  let now := fun p => ((tget none c p).getD (s.initVal p)).v
  let moved := (keys c).filter (fun p => isBoundary (s.ownerClass p) n)
  let prev := setAll s.sig.prev moved (fun p => (tget none s.sig.atClass p).getD (s.initVal p).v)
  let prev1 := match s.sig.mapNamed with
    | none => prev
    | some l => setAll prev ((keys c).filter (fun p => !l.contains p)) now
  let s1 := (s.sg fun q => { q with closed := c, old := s.sig.closed, writes := [], prev := prev1, buf := !q.buf,
                                    mapNamed := none, atClass := setAll s.sig.atClass moved now }).wr64 R.SIG_CLOSED n
  if s.fab.poison = [] then s1 else moved.foldl (fun u p => u.unpoison (prevAddr p) 4) s1

/-! ## Forces -/

/-- SIG_FORCE_COUNT and the flags of SIG_STATUS after a change of the force table (04 R184). -/
def State.countForces (s : State) : State :=
  let n := s.sig.forces.length
  let m := (s.sig.forces.filter (fun f => f.persist)).length
  (((s.put F.SIG_FORCE_COUNT_ACTIVE n).put F.SIG_FORCE_COUNT_PERSISTENT m).putB F.SIG_STATUS_FORCES_ON (decide (n ≠ 0))).putB
    F.SIG_STATUS_FORCE_FULL (decide (n ≥ 4096))

/-- An entry of the persistent-force region (04 R187). -/
def PForce.bytes (e : PForce) : List Byte := le 4 (e.point % 2 ^ 20) ++ le 4 e.value.toNat ++ pad 8 e.ident

/-- The persistent-force region rewritten, and with it its check region (03 R137, R138, 04 R187). MARK: DESIGN CHOICE: the
entries stand in the order in which they came, and the CRC covers the entries in use (assumption 75). -/
def Nv.pfStore (v : Nv) (l : List PForce) : Nv :=
  { v with pforces := l, pfCount := l.length, pfCrc := crc32c (l.flatMap PForce.bytes) }

/-- Whether the check region agrees with the persistent-force region (03 R138). -/
def Nv.pfOk (v : Nv) : Bool :=
  decide (v.pfCount = v.pforces.length) && decide (v.pfCrc = crc32c (v.pforces.flatMap PForce.bytes))

/-- The persistent-force region of MRAM after a force is set or ends (04 R187); hold-up refuses new MRAM writes (16 R719). -/
def State.pforce (s : State) (p : Nat) (v : Option Word) : State :=
  if s.on F.MOD_STATUS_HOLDUP then s else
  s.inNv fun q =>
    let rest := q.pforces.filter (fun e => e.point ≠ p)
    q.pfStore (match v with
      | some w => rest ++ [{ point := p, value := w, ident := s.image.ident.take 8 }]
      | none => rest)

/-- Number of the entry of a force in the window: entries are allocated at the lowest free number (04 R191). -/
def lowestFree (used : List Nat) : Nat → Nat → Nat
  | 0, n => n
  | fuel + 1, n => if used.contains n then lowestFree used fuel (n + 1) else n

/-- A force takes effect at a boundary of the owner class (04 R179, R180, R187, R191). -/
def State.setForce (s : State) (p : Nat) (v : Word) : State :=
  let pe := (s.pinfo p).persist
  let w := storeAs (s.pinfo p).typ v
  match s.force? p with
  | some f =>
    let s1 := (s.sg fun q => { q with
      forces := s.sig.forces.map (fun (g : Force) => if g.point = p then { g with value := w } else g) })
    let s2 := if pe then s1.pforce p (some w) else s1
    s2.raise 0x3010 islCs (le 4 p ++ le 4 f.entry)
  | none =>
    if s.sig.forces.length ≥ 4096 then s else
    let e := lowestFree (s.sig.forces.map (fun f => f.entry)) 4096 0
    let f : Force := { point := p, persist := pe, value := w, owner := s.ownerVal p, entry := e }
    let s1 := s.sg fun q => { q with forces := sortBy (fun (g : Force) => g.entry) (f :: s.sig.forces),
                                     writes := tset none s.sig.writes p none }
    let s2 := (if pe then s1.pforce p (some w) else s1).countForces
    s2.raise 0x3010 islCs (le 4 p ++ le 4 e)

/-- A force ends at a boundary of the owner class: the point holds the owner's latest delivery (04 R182, R187). -/
def State.clearForce (s : State) (p : Nat) : State :=
  match s.force? p with
  | none => s
  | some f =>
    let s1 := (s.sg fun q => { q with
      forces := s.sig.forces.filter (fun g => g.point ≠ p)
      writes := tset none s.sig.writes p (some f.owner) })
    ((s1.pforce p none).countForces).raise 0x3011 islCs (le 4 p ++ le 4 f.entry)

/-- The force changes whose boundary of the owner class is boundary `n` take effect, in the order they were applied
(04 R180, R182). -/
def State.applyForces (s : State) (n : Nat) : State :=
  let due := s.sig.waiting.filter (fun w => isBoundary (s.ownerClass w.point) n)
  let s1 := (s.sg fun q => { q with
    waiting := s.sig.waiting.filter (fun w => !isBoundary (s.ownerClass w.point) n) })
  s1.each due (fun t w => match w.set with
    | some v => t.setForce w.point v
    | none => t.clearForce w.point)

/-! ## Payload maps (08 R370, R371; 15 R671, R676) -/

/-- Width in bytes of an encoding; 0 for the bit encodings. -/
def encBytes (e : Nat) : Nat :=
  match e with
  | 1 => 1
  | 2 => 1
  | 3 => 2
  | 4 => 2
  | 5 => 4
  | 6 => 4
  | 7 => 3
  | _ => 0

/-- The value word that an input entry reads from a payload; zero beyond its end (08 R370, R371, 15 R671). -/
def mapIn (pl : List Byte) (m : MapRec) : Word :=
  let n := encBytes m.enc
  let raw := field pl m.byte n
  match m.enc with
  | 0 => BitVec.ofNat 32 (b2n (bitOf (field pl m.byte 1) m.bit))
  | 2 => BitVec.ofInt 32 (toSigned 8 raw)
  | 4 => BitVec.ofInt 32 (toSigned 16 raw)
  | 7 => BitVec.ofInt 32 (toSigned 24 raw)
  | 8 => BitVec.ofNat 32 (b2n (bitOf (field pl m.byte 1) m.bit))
  | _ => BitVec.ofNat 32 raw

/-- The bytes that an output entry writes for a value; integers saturate (08 R371). -/
def mapBytes (e typ : Nat) (v : Word) : List Byte :=
  let i : Int := if typ = 2 then v.toInt else v.toNat
  match e with
  | 1 => le 1 (clampInt 0 255 i).toNat
  | 2 => le 1 (ofSigned 8 (clampInt (-128) 127 i))
  | 3 => le 2 (clampInt 0 65535 i).toNat
  | 4 => le 2 (ofSigned 16 (clampInt (-32768) 32767 i))
  | 7 => le 3 (ofSigned 24 (clampInt (-8388608) 8388607 i))
  | _ => le 4 v.toNat

/-- A byte string with bytes replaced from an offset, as far as it reaches. -/
def splice (b : List Byte) (off : Nat) (x : List Byte) : List Byte :=
  (b.take off ++ x.take (b.length - off) ++ b.drop (off + x.length)).take b.length

/-- A payload with an output entry written into it (08 R370). -/
def mapOut (pl : List Byte) (m : MapRec) (typ : Nat) (v : Word) : List Byte :=
  if m.enc = 0 ∨ m.enc = 8 then
    let old := field pl m.byte 1
    let mask := 2 ^ (m.bit % 8)
    let cl := old - (if bitOf old (m.bit % 8) then mask else 0)
    splice pl m.byte (le 1 (cl + (if v = 0 then 0 else mask)))
  else splice pl m.byte (mapBytes m.enc typ v)

/-- The payload of an output segment or transmit buffer formed from the image in formation (08 R370, 15 R676). -/
def State.formPayload (s : State) (len : Nat) (ms : List MapRec) : List Byte :=
  ms.foldl (fun pl m => mapOut pl m (s.pinfo m.point).typ (s.nextVal m.point).v) (List.replicate len 0)

/-- Points whose entries of encoding 8 read 1 in a payload (08 R370). -/
def overIn (pl : List Byte) (ms : List MapRec) : List Nat :=
  (ms.filter (fun m => decide (m.enc = 8) && decide (mapIn pl m = 1))).map (fun m => m.point)

/-- The input entries of a payload are delivered: values with the quality given, OVERRANGE for the points of `ovr` (08 R370,
R416). -/
def State.deliverMap (s : State) (pl : List Byte) (ms : List MapRec) (q : Nat) (ovr : List Nat) : State :=
  s.each (ms.filter (fun m => m.enc ≠ 8)) (fun t m =>
    t.deliver m.point (mapIn pl m) (qByte (q + (if ovr.contains m.point then qOver else 0))))

/-! ## Classes of a point as numbers -/

/-- Whether the deliveries of local channels carry SOURCE 0b11: one module ACTIVE, the other MATCHED or in join step SHADOW
or FIRST_MATCH (14 R614). -/
def State.exchanging (s : State) : Bool :=
  s.matched ||
  (decide (s.tstate = 2) && decide (s.get F.TWN_JOIN_STEP ≥ 4)) ||
  (decide (s.tstate = 1) && decide (s.ptstate = 2) && s.twin.partnerShadow)

/-- SOURCE of local deliveries (14 R614). -/
def State.localSource (s : State) : Nat := if s.exchanging then qSource 3 else 0

end Sys2Proof.Machine
end

