-- ==== Sys2Proof/Machine/Restart.lean ====
section
/-! DEFINITION. Module restart (16 R717), the registers that read from MRAM, flash and pins, and the failing message
(09 R441). -/
namespace Sys2Proof.Machine

/-- A flag of a set of flags. -/
def flags (l : List (Nat × Bool)) : Nat := l.foldl (fun a e => a + (if e.2 then 2 ^ e.1 else 0)) 0

/-- FLAGS of a fox word (09 R438). -/
def State.foxFlags (s : State) : Nat :=
  flags [(0, s.isActive), (1, s.on F.TWN_STATUS_HOME), (2, s.twin.failing), (3, s.on F.TWN_STATUS_SUSPECT), (4, s.twinB)]

/-- The 60 bytes of a fox word before its CRC (09 R438). -/
def FoxWord.head (w : FoxWord) : List Byte :=
  le 1 w.kind ++ le 1 w.tstate ++ le 1 w.flags ++ le 1 0 ++ le 4 w.epoch ++ le 8 w.c0 ++ pad 16 w.image ++ le 8 w.switchAt ++
    List.replicate 20 0

/-- The 64 bytes of a fox word (09 R438). -/
def FoxWord.bytes (w : FoxWord) : List Byte := w.head ++ le 4 (crc32c w.head)

/-- The fox word that 64 bytes hold; none where the CRC is not correct (09 R438). -/
def FoxWord.parse (b : List Byte) : Option FoxWord :=
  let n := field b
  if b.length = 64 ∧ n 60 4 = crc32c (b.take 60) then
    some { kind := n 0 1, tstate := n 1 1 % 16, flags := n 2 1, epoch := n 4 4, c0 := n 8 8, image := (b.drop 16).take 16,
           switchAt := n 32 8 }
  else none

/-- The fox word that this module sends (09 R438). -/
def State.fox (s : State) (kind switchAt : Nat) : FoxWord :=
  { kind := kind, tstate := s.tstate, flags := s.foxFlags, epoch := s.epoch, c0 := s.count, image := pad 16 s.image.ident,
    switchAt := switchAt }

/-- A fox word on the twin link (09 R438). -/
def State.foxWord (s : State) (kind switchAt : Nat) : Output := .fox (s.fox kind switchAt).bytes

/-- Bytes 1 to 6 of a badger frame, over which its CRC-8 runs (09 R439). -/
def BadgerFrame.body (f : BadgerFrame) : List Byte := le 1 f.flags ++ le 4 f.epoch ++ le 1 f.seq

/-- A badger frame: preamble 0x55, SYNC, bytes 1 to 6, CRC-8 (09 R439). -/
def BadgerFrame.bytes (f : BadgerFrame) : List Byte := [0x55, 0xD5] ++ f.body ++ le 1 (crc8 f.body)

/-- The badger frame that nine bytes hold; none where preamble, SYNC or CRC is not right (09 R439). -/
def BadgerFrame.parse (b : List Byte) : Option BadgerFrame :=
  let n := field b
  if b.length = 9 ∧ n 0 1 = 0x55 ∧ n 1 1 = 0xD5 ∧ n 8 1 = crc8 ((b.drop 2).take 6) then
    some { flags := n 2 1, epoch := n 3 4, seq := n 7 1 }
  else none

/-- FLAGS of a badger frame (09 R439): BOOTING until image commit. -/
def State.badgerFlags (s : State) : Nat :=
  flags [(0, s.isActive), (1, s.on F.TWN_STATUS_HOME), (2, s.twin.failing), (3, s.twin.resetHeld), (4, s.twinB),
         (5, s.img.isNone)]

/-- The failing message is sent: a fox word of KIND 3 while the die runs, FAILING in every badger frame, event 0x7045
(09 R441). -/
def State.sendFailing (s : State) (cause : Nat) : State :=
  if s.twin.failing then s else
  let s1 := s.tw fun q => { q with failing := true }
  let s2 := if s.pd 8 then s1.send (s1.foxWord 3 0) else s1
  s2.raise 0x7045 islTwin (le 4 cause)

/-- Word of IMG_SLOTn (02 Registers). -/
def slotWord (m : SlotMeta) (target : Bool) : Nat :=
  m.st % 4 + (if m.st = 2 then 4 * (m.keySlot % 4) else 0) + 16 * b2n target + 65536 * (m.lenMib % 512)

/-- State of a key slot in IMG_KEYS. -/
def KeyState.num : KeyState → Nat
  | .empty => 0
  | .enabled => 1
  | .revoked => 2

/-- Word of IMG_KEYS: two bits per key slot (02 Registers). -/
def keysWord : List KeySlot → Nat
  | [] => 0
  | k :: t => k.st.num + 4 * keysWord t

/-- The registers that show what MRAM and flash hold. -/
def State.showNv (s : State) : State :=
  let s1 := ((((s.wr R.MOD_RESET_CAUSE s.nv.causeWord).wr64 R.MOD_OPSEC s.nv.opsec).wrN R.MOD_PWRCYC s.nv.pwrcyc).put
    F.PWR_HOLDUP_HOLDUPS s.nv.holdups).wrN R.IMG_KEYS (keysWord s.nv.keys)
  let s2 := s1.each (List.range 4) (fun t n =>
    t.wrN (R.IMG_SLOT n) (slotWord ((t.nv.slots[n]?).getD {}) (decide (t.nv.hoState ≠ 0) && decide (t.nv.hoTarget = n))))
  let s3 := ((s2.wr64 R.EVT_HEAD s.nv.seq).wr64 R.EVT_ARCH s.nv.archSeq).wrN R.ID_PART (0x4000 + 65536 * b2n s.nv.variant)
  let s4 := ((s3.wrN R.ID_SERIAL_LO s.nv.serial).wrN R.ID_SERIAL_HI (s.nv.serial / 2 ^ 32)).wrN R.ID_ISSUE
    (s.nv.issue % 65536 + 65536 * s.nv.compat)
  let s5 := s4.each (List.range 8) (fun t n => t.wrN (R.ID_DEVKEY n) (field s.nv.devKey (4 * n) 4))
  let s6 := ((s5.put F.IMG_HO_STATUS_HO_STATE s.nv.hoState).put F.IMG_HO_STATUS_ELAPSED s.nv.hoElapsed).putB F.IMG_HO_STATUS_FIRST
    s.nv.hoFirst
  ((s6.putB F.IMG_HO_STATUS_REDUCED (decide (s.nv.hoState ≠ 0))).putB F.TWN_STATUS_REDUCED (decide (s.nv.hoState ≠ 0))).putB
    F.IMG_CS_STATUS_REFUSING (decide (s.nv.hoState ≠ 0))

/-- Low words of the 64-bit registers whose high word a read latches (04 R195, 05 R241, 16 R723, 17 R763). -/
def latchedLows : List Nat :=
  [R.SIG_CLOSED, R.CYC_COUNT, R.MOD_OPSEC, R.EVT_HEAD, R.EVT_OLDEST, R.EVT_ARCH, R.EVT_SEL]

/-- After a module reset every latch holds the high word's value at that reset (04 R195). -/
def State.latchAll (s : State) : State :=
  { s with latch := latchedLows.foldl (fun t o => tset 0 t (o + 4) (s.rd (o + 4))) [] }

/-- What a restart leaves of the recorded cause: the cause, the cause before, the latest bring-up failure (16 R717). -/
def causeAfter (w : Word) (cause : Nat) : Word := putBits (putBits w 4 4 (getBits w 0 4)) 0 4 cause

/-- A profile slot that was being written when its write was cut short is INVALID (02 R70). MARK: DESIGN CHOICE: a restart that
keeps power cuts a write short as a loss of power does (assumption 82). -/
def SlotMeta.cut (m : SlotMeta) : SlotMeta := if m.st = 1 then { m with st := 3 } else m

/-- What a loss of every domain but PD0 leaves: what stands in MRAM and flash, what the supervisor times and the pins; every other
register takes its reset value, those of PD0 among them (00 R18), and every memory is empty. -/
def State.cleared (s : State) : State :=
  let s1 : State :=
    { regs := resetRegs, flash := s.flash, nv := { s.nv with slots := s.nv.slots.map SlotMeta.cut }, keep := s.keep,
      loops := { store := s.loops.store }, loc := { banks := s.loc.banks },
      panel := { shown := s.panel.shown, stamp := s.panel.stamp, stopped := s.panel.stopped },
      twin := { badgerSeq := s.twin.badgerSeq, badgerAt := s.twin.badgerAt, resetHeld := s.twin.resetHeld,
                lastChange := if s.role = 0 then s.twin.lastChange else some s.now },
      pwr := { stageAt := s.now, feedAt := s.pwr.feedAt, feedOut := s.pwr.feedOut, holdAt := s.pwr.holdAt, feedsLost := s.pwr.feedsLost, rstHeld := s.pwr.rstHeld,
               cages := s.pwr.cages }, now := s.now, out := s.out,
      freeCtr := s.freeCtr, pending := s.pending, recd := { queue := s.recd.queue } }
  (s1.wr R.IMG_STRAP (s.rd R.IMG_STRAP)).putB F.MOD_CTL_SVC_NEXT s.keep.svcNext

/-- Begin at S0 with only PD0 powered, with the cause of the restart (16 R713, R717). -/
def State.beginS0 (s : State) (cause : Nat) : State :=
  let s1 := s.cleared
  ({ s1 with nv := { s1.nv with causeWord := causeAfter s1.nv.causeWord cause },
             pwr := { s1.pwr with restartNote := true } }).showNv.latchAll

/-- The SRAM that an image restart does not clear: ring frame staging and twin exchange buffers (02 R100, 03 R122). -/
def keptSram (a : Nat) : Bool := inSpan 0x8002600000 0x800000 a || inSpan 0x8003000000 0x400000 a

/-- Registers of what an image restart keeps running: fabric, rings, twin and time, with the count of the boundary sequence that goes
on, the slot, and what the supervisor measures (02 R100). -/
def keptReg (off : Nat) : Bool :=
  (decide (0x40000 ≤ off) && decide (off < 0x80000)) || (decide (0x140000 ≤ off) && decide (off < 0x200000)) ||
  [R.MOD_SLOT, R.CYC_COUNT, R.CYC_COUNT + 4, R.PWR_FEED, R.PWR_INPUT, R.PWR_HOLDUP, R.PWR_TEMP].contains off

/-- The domains that an image restart keeps powered, PD0 beside them (02 R100). -/
def keptDomain (d : Nat) : Bool := [6, 8, 10, 11, 12, 13, 22].contains d

/-- Whether every domain that an image restart keeps and the running image uses is on (02 R100). -/
def State.keepsOn (s : State) : Bool := (s.image.islands.domains.filter keptDomain).all s.pd

/-- What the module uses in place of an MRAM region whose CRC fails at start-up: a second copy (counters), the factory value
(key store), or empty contents (03 R138). The persistent forces are discarded at image commit (04 R188). -/
def Nv.repair (v : Nv) (off : Nat) : Nv :=
  if off = 0x10000 then
    (if v.bad.contains 0x10800 then { v with opsec := 0, pwrcyc := 0, opsecB := 0, pwrcycB := 0 }
     else { v with opsec := v.opsecB, pwrcyc := v.pwrcycB })
  else if off = 0x10800 then { v with opsecB := v.opsec, pwrcycB := v.pwrcyc }
  else if off = 0x11000 then { v with choice := none }
  else if off = 0x12000 then { v with hoState := 0, hoElapsed := 0, hoFirst := false, boot := none }
  else if off = 0x13000 then { v with keys := [{ st := .enabled }, {}, {}, {}] }
  else if off = 0x50000 then { v with lastWords := { v.lastWords with valid := false } }
  else if off = 0x60000 then { v with pfCount := 0, pfCrc := 0 }
  else if 0x100000 ≤ off ∧ off < 0x200000 then { v with tail := tset none v.tail ((off - 0x100000) / 64) none }
  else v

/-- The MRAM regions whose CRC fails: those listed but for calibration banks and single tail records, the two copies of the
counters as one, and the persistent forces where their check region does not agree (03 R138). -/
def Nv.failed (v : Nv) : List Nat :=
  dedupN ((v.bad.filter (fun o => decide (o ≠ 0x20000) && decide (o ≠ 0x30000) && !inSpan 0x100000 0x100000 o)).map
    (fun o => if o = 0x10800 then 0x10000 else o) ++ (if v.pfOk then [] else [0x40000]))

/-- The highest SEQ that the tail or the archive holds (17 R747). -/
def seqHigh (tail : Tab (Option EvRecord)) (arch : Nat) : Nat :=
  tail.foldl (fun m e => max m ((e.2.map (fun r => r.seq)).getD 0)) arch

/-- SEQ continues after the highest one held (17 R747). -/
def Nv.seqStart (v : Nv) : Nv := { v with seq := seqHigh v.tail v.archSeq }

/-- The MRAM regions checked at start-up: an event for each that fails, and what is used in its place (03 R138). -/
def State.mramCheck (s : State) : State :=
  ((s.inNv fun v => ({ v.bad.foldl Nv.repair v with bad := [] } : Nv).seqStart).each s.nv.failed
    (fun t _ => t.raise 0x2032 islMram [])).showNv

/-- Power domains are switched on. -/
def State.power (s : State) (l : List Nat) : State :=
  s.wrN R.PWR_ON (Nat.lor (s.rdN R.PWR_ON) (flags (l.map (fun d => (d, true)))))

/-- Milliseconds of the current stage. -/
def State.stageMs (s : State) : Nat := (s.now - s.pwr.stageAt) / 1000000

/-- A stage begins: the time of the one before stands, event 0x0001 gives the stage and the ms since feed qualification
(16 R695). -/
def State.beginStage (s : State) (n : Nat) : State :=
  let s1 := (s.wrN (R.MOD_STAGE_MS (s.get F.MOD_STATUS_STAGE)) s.stageMs).put F.MOD_STATUS_STAGE n
  (s1.pw fun p => { p with stageAt := s1.now }).raise 0x0001 islSup (le 1 n ++ le 4 ((s1.now - s1.pwr.feedAt) / 1000000))

/-- Stage S1 begins (16 R695, R701, R705, R717, 18 R769, R775): its domains are powered, the recorder runs, the restart is
reported, the lamp test runs, the profile is being checked. -/
def State.startS1 (s : State) : State :=
  let s0 := if s.pd 6 then s else s.tm fun u => { u with poweredAt := s.now }
  let s1 := ((s0.power [22, 7, 6, 18, 1]).put F.EVT_STATUS_RUNNING 1).put F.IMG_STATUS_LOAD_STATE 1
  let s2 := (s1.pn fun p => { p with lampTest := true, lampTill := s1.now + 1000000000, lastStart := none }).beginStage 1
  let w := s2.nv.causeWord
  let s3 := if s2.pwr.restartNote then s2.raise 0x0003 islSup (le 4 (getBits w 0 4) ++ le 4 (getBits w 4 4)) else s2
  let s4 := if s3.pwr.bankLow then s3.raise 0xD020 islSup [] else s3
  (s4.pw fun p => { p with restartNote := false, bankLow := false }).mramCheck

/-- A change of role: the count of days begins again and PROOF_DUE clears (09 R472). -/
def State.roleChanged (s : State) : State :=
  (((s.tw fun q => { q with lastChange := some s.now, days := 0 }).put F.TWN_LAST_CHANGE_DAYS 0).put
    F.TWN_STATUS_PROOF_DUE 0).wrN R.TWN_LAST_COUNT s.count

/-- The role is none, in LISTEN; a change of role is noted with its instant (09 R428, R472). -/
def State.roleNone (s : State) : State :=
  let s1 := (s.put F.TWN_STATUS_TSTATE 0).put F.TWN_STATUS_ROLE 0
  if s.role = 0 then s1 else s1.roleChanged

/-- An image restart (02 R100): PD0, PD6, PD8, PD10 to PD13 and PD22 stay powered as far as they are, every other domain restarts
through S1 to S4; boundaries go on, no failing message is sent, and the role is none until the module has joined. -/
def State.imageRestart (s : State) : State :=
  let s1 := (if s.on F.EVT_STATUS_RUNNING then s.takeAll else s).cleared
  let s2 := ((s1.each (s.regs.filter (fun e => keptReg e.1)) (fun t e => t.wr e.1 e.2)).put F.MOD_STATUS_FEED_A_OK
    (s.get F.MOD_STATUS_FEED_A_OK)).put F.MOD_STATUS_FEED_B_OK (s.get F.MOD_STATUS_FEED_B_OK)
  let s3 : State := { s2 with rings := s.rings, time := s.time, twin := s.twin, fab := s.fab, mem := tkeep keptSram s.mem,
                              pwr := { s1.pwr with imageRestart := true } }
  ((s3.wrN R.PWR_ON (Nat.land (s.rdN R.PWR_ON) 0x403D41)).roleNone).showNv.latchAll.startS1

/-- A restart of the module (16 R717): the failing message, then S0; the recorder takes what was raised before the die goes
off. Causes as in MOD_RESET_CAUSE; a restart by the button raises event 0xE020 before it begins (18). -/
def State.restart (s : State) (cause : Nat) : State :=
  let s1 := (if cause = 2 then s.raise 0xE020 islSup (le 4 s.role) else s).sendFailing 3
  (if s1.on F.EVT_STATUS_RUNNING then s1.takeAll else s1).beginS0 cause

/-- The image restart of a handover; a module that cannot keep the domains running restarts fully (02 R100). MARK: DESIGN CHOICE: with
cause 3, a command (assumption 123). -/
def State.restartImage (s : State) : State :=
  if s.keepsOn then (s.tw fun u => { u with burstOff := true }).imageRestart else s.restart 3

/-- The first boundary at least `n` C0 cycles after an instant (04 R833). -/
def boundaryAfter (t n : Nat) : Nat := (t + n * 31250 + 31249) / 31250

end Sys2Proof.Machine
end

