-- ==== Sys2Proof/Machine/Params.lean ====
section
/-! DEFINITION. Parameters of the laws: where they stand, the conditions on them (06 R263, R271 to R273, 07 R311), derived
constants (06 R260) and the CAM table (06 R290). -/
namespace Sys2Proof.Machine

/-- A word of the window of a head slot, by its offset; extension slots follow (06 R244). -/
def State.slotRd (s : State) (slot : Nat) : Nat → Nat := fun o => s.rdN (0x20000000 + 0x400 * slot + o)

/-- A word of the window of a head slot written; the poison of its SRAM word ends (03 R124). -/
def State.slotWr (s : State) (slot o v : Nat) : State :=
  (s.wrN (0x20000000 + 0x400 * slot + o) v).unpoison (bankBase 14 + 0x400 * slot + o) 4

/-- Start of the CAM table of a head slot (06 R290). -/
def camBase (slot : Nat) : Nat := 0x07F0000000 + 16384 * slot

/-- Law and regions in use of a window. -/
def lawOf (rd : Nat → Nat) : Nat := rd 0 % 8
/-- NREG of a window. -/
def nregOf (rd : Nat → Nat) : Nat := bitsOf (rd 0) 8 4

/-- Offsets of the first coefficient of every biquad of a law (06 R307). -/
def biquadOffs (law : Nat) : List Nat :=
  match law with
  | 1 => [0x08C, 0x0A0]
  | 2 => (List.range 4).map (fun j => 0x480 + 20 * j)
  | 4 => (List.range 8).map (fun j => 0x098 + 20 * j)
  | _ => []

/-- Number of region gains of a law (06 R307). -/
def gainWords (law : Nat) : Nat :=
  match law with
  | 1 => 6
  | 2 => 5
  | 5 => 4
  | _ => 0

/-- Whether a law selects a region by SCHED (06 R306, 07 R310). -/
def hasRegions (law : Nat) : Bool := decide (law = 1) || decide (law = 2) || decide (law = 5)

/-- Offsets of the limit pairs of a law: lo, hi (06 R263). -/
def limitPairs (law : Nat) : List (Nat × Nat) :=
  match law with
  | 1 => [(0x080, 0x084)]
  | 2 => [(0x080, 0x084)]
  | 5 => (List.range 4).map (fun j => (0x088 + 4 * j, 0x098 + 4 * j))
  | _ => []

/-- `n` word offsets from `o`. -/
def wordsFrom (o n : Nat) : List Nat := (List.range n).map (fun i => o + 4 * i)

/-- Offsets of the binary32 parameters of a law (06 R307); those of the regions in use follow. -/
def realOffs (law nreg : Nat) : List Nat :=
  let body := match law with
    | 1 => wordsFrom 0x080 13
    | 2 => wordsFrom 0x080 8 ++ wordsFrom 0x480 20
    | 4 => wordsFrom 0x090 42
    | 5 => wordsFrom 0x088 8 ++ wordsFrom 0x480 64 ++ wordsFrom 0x880 64 ++ wordsFrom 0xC80 16
    | _ => []
  body ++ (if hasRegions law then (List.range nreg).flatMap (fun r =>
    wordsFrom (0x200 + 64 * r) (gainWords law) ++ (if r + 1 < nreg then wordsFrom (0x230 + 64 * r) 2 else [])) else [])

/-- Words of a law that change sets may write (06 R307, fields marked C; 07 R311 for HI and HYST), by offset from the head
slot; from 0x1000 the points of a CAM table. -/
def changeable (rd : Nat → Nat) (o : Nat) : Bool :=
  let body := match lawOf rd with
    | 1 => wordsFrom 0x080 13
    | 2 => wordsFrom 0x080 9 ++ wordsFrom 0x480 20
    | 4 => wordsFrom 0x090 42
    | 5 => wordsFrom 0x088 8 ++ wordsFrom 0x480 64 ++ wordsFrom 0x880 64 ++ wordsFrom 0xC80 16
    | _ => []
  (body ++ (List.range 8).flatMap (fun r => wordsFrom (0x200 + 64 * r) (gainWords (lawOf rd)) ++
    (if hasRegions (lawOf rd) then wordsFrom (0x230 + 64 * r) 2 else []))).contains o ||
  (decide (lawOf rd = 3) && decide (0x1000 ≤ o) && decide (o % 4 = 0) && decide (o < 0x1000 + 4 * rd 0x084))

/-- Every biquad is stable (06 R271). -/
def stableAll (rd : Nat → Nat) : Bool := (biquadOffs (lawOf rd)).all (fun o => biquadStable (rd (o + 12)) (rd (o + 16)))

/-- Every binary32 parameter is finite (06 R272, R273). -/
def finiteAll (rd : Nat → Nat) : Bool := (realOffs (lawOf rd) (nregOf rd)).all (fun o => isFinite32 (rd o))

/-- No limit pair is crossed (06 R263, R272). -/
def limitsOk (rd : Nat → Nat) : Bool :=
  (limitPairs (lawOf rd)).all (fun p => decide (exact32 (rd p.1) ≤ exact32 (rd p.2)))

/-- The region words obey 07 R311. An inequality with a NaN does not hold, nor one with infinities whose sum or difference is
not a number; HYST and the bounds compare as binary32 values. -/
def regionsOk (rd : Nat → Nat) : Bool :=
  let n := nregOf rd
  let hi := fun r => regWord rd r 12
  let hy := fun r => regWord rd r 13
  !hasRegions (lawOf rd) || (List.range (n - 1)).all (fun r => le32 0 (hy r)) &&
    (List.range (n - 2)).all (fun r => leSum32 (hi r) (hy r) (hi (r + 1)) (hy (r + 1)))

/-- The parameters of a law that starts without FAULT (06 R273). -/
def paramsOk (rd : Nat → Nat) : Bool := stableAll rd && finiteAll rd && limitsOk rd

/-- INV_MC: the binary32 nearest to 1 ÷ MCOUNTS (06 R293). -/
def invMc (mcounts : Nat) : Nat :=
  if mcounts = 0 then 0 else flush32 (f32.divV .rne (f32.unpack 0x3F800000) (.fin false mcounts 0)).bits

/-- The counts of a law lie in the ranges that the spec gives them (06 R293, R298, R299, R306); a sample of a law whose
counts do not delivers free values (assumption 2). -/
def countsOk (rd : Nat → Nat) : Bool :=
  (!hasRegions (lawOf rd) || (decide (1 ≤ nregOf rd) && decide (nregOf rd ≤ 8))) &&
  (match lawOf rd with
   | 3 => decide (1 ≤ rd 0x080) && decide (rd 0x080 ≤ 2 ^ 31) && decide (4 ≤ rd 0x084) && decide (rd 0x084 ≤ 4096) &&
          decide (rd 0x098 ≤ 4)
   | 4 => decide (rd 0x088 ≤ 8) && decide (1 ≤ rd 0x08C) && decide (rd 0x08C ≤ 1024)
   | 5 => decide (rd 0x080 ≤ 8)
   | _ => true)

/-- The derived constants of a law are computed again (06 R260): INV_MC, KT2. -/
def State.derive (s : State) (slot : Nat) : State :=
  let rd := s.slotRd slot
  match lawOf rd with
  | 2 => s.slotWr slot 0x0A4 ((fxMul 0x3F000000 (rd 0x09C)).run 0).1
  | 3 => s.slotWr slot 0x0A4 (invMc (rd 0x080))
  | _ => s

end Sys2Proof.Machine
end

