-- ==== Sys2Proof/Machine/TwinBase.lean ====
section
/-! DEFINITION. Twin states, roles, the epoch, lag cycles, planned switchovers and the end of sessions (09 R417 to R429,
R442, R459, R463). -/
namespace Sys2Proof.Machine

/-- The role of a twin state: 0 NONE, 1 ACTIVE, 2 STANDBY (09 R428). -/
def roleOf (t : Nat) : Nat := if t = 1 then 1 else if 2 ≤ t ∧ t ≤ 5 then 2 else 0

/-- Whether the revert timer runs: the home module MATCHED, the other ACTIVE, revert enabled, no handover window open
(09 R463). -/
def State.revertRuns (s : State) : Bool :=
  !s.on F.TWN_CFG_NO_REVERT && !s.on F.TWN_STATUS_REDUCED &&
  (if s.on F.TWN_STATUS_HOME then decide (s.tstate = 3) && decide (s.ptstate = 1)
   else s.twin.partnerHome && decide (s.tstate = 1) && decide (s.ptstate = 3))

/-- Seconds until revert at an instant; zero while the timer stands. -/
def State.revertRemain (s : State) : Nat :=
  match s.twin.revertFrom with
  | some f => s.get F.TWN_CFG_REVERT_HOLD - (s.now - f) / 1000000000
  | none => 0

/-- REDUNDANT, the revert timer and PENDING follow the twin states (09 R463, Registers). -/
def State.twinShow (s : State) : State :=
  let run := s.revertRuns
  let from_ := if run then (match s.twin.revertFrom with
    | some f => some f
    | none => some s.now) else none
  let s1 := s.tw fun q => { q with revertFrom := from_ }
  (((s1.putB F.TWN_STATUS_REDUNDANT s1.matched).putB F.TWN_REVERT_RUNNING run).put F.TWN_REVERT_REMAIN_S
    s1.revertRemain).putB F.TWN_CTL_PENDING s1.twin.switch.isSome

/-- The end of a SUSPECT interval, with its length in C0 cycles (09 R442). -/
def State.endSuspect (s : State) : State :=
  if s.on F.TWN_STATUS_SUSPECT then
    (s.put F.TWN_STATUS_SUSPECT 0).raise 0x7031 islTwin (le 4 (s.count - s.twin.suspectSince))
  else s

/-- The module passes to a twin state; its role follows (09 R417, R428). -/
def State.setT (s : State) (t : Nat) : State :=
  let s0 := if roleOf t = 2 then s else s.endSuspect
  let s1 := (s0.put F.TWN_STATUS_TSTATE t).put F.TWN_STATUS_ROLE (roleOf t)
  let s2 := if t = 2 then s1 else (s1.put F.TWN_JOIN_STEP 0).put F.TWN_JOIN_PROGRESS 0
  let s3 := if s.role = roleOf t then s2 else s2.roleChanged
  s3.twinShow

/-- Listening begins: what an earlier listening received counts no longer (09 R426, R429). -/
def State.toListen (s : State) : State :=
  (s.setT 0).tw fun u => { u with listenEpoch := none, ringActive := false, raised7002 := false, listenFrom := s.now }

/-- The cause of the latest role change (09 TWN_LAST_CHANGE). -/
def State.cause (s : State) (c : Nat) : State := s.put F.TWN_LAST_CHANGE_CAUSE c

/-- The epoch rises; it never decreases, and every change is written into the last-words record (09 R423, R425). MARK: DESIGN
CHOICE: an epoch of 32 bits stays at its largest value (assumption 85). -/
def State.setEpoch (s : State) (e : Nat) : State :=
  let v := min e 0xFFFFFFFF
  if v ≤ s.epoch then s else
  (s.inNv fun q => { q with lastWords := { s.nv.lastWords with valid := true, epoch := v } }).wrN R.TWN_EPOCH v

/-- Lag cycles within the last second of line time. -/
def State.lagsShow (s : State) : State :=
  let l := within s.twin.lags s.now 1000000000
  (s.tw fun q => { q with lags := l }).put F.TWN_LAG_RECENT (min l.length 255)

/-- The standby counts a lag cycle and launches no westbound burst for it; more than 8 within 1 s demote a MATCHED module
(05 R234, 07 R338, 09 R429). -/
def State.lagCycle (s : State) : State :=
  let s1 := s.tw fun q => { q with lags := s.now :: s.twin.lags, lagNow := true }
  let s2 := (((s1.bump F.CYC_LAG_LAG_CYCLES 1).put F.CYC_STATUS_LAG 1).total 0x08C 4 1).raise 0x4030 islTwin []
  let s3 := s2.lagsShow
  if s3.tstate = 3 ∧ s3.twin.lags.length > 8 then
    (((s3.tw fun q => { q with switchTo := none }).bump F.TWN_LAG_DEMOTIONS 1).setT 5).raise 0x7030 islTwin []
  else s3

/-- The confirmation of a restart by the button is armed for 3 s (18 R777, R778); event 0xE021 says 1 armed, 2 expired. -/
def State.armConfirm (s : State) : State :=
  ((s.pn fun p => { p with byButton := false, confirmTill := s.now + 3000000000 }).put F.PNL_STATUS_CONFIRM 1).raise 0xE021
    islSup (le 4 1)

/-- Neither module is in SUSPECT (09 R459). -/
def State.noSuspect (s : State) : Bool := !s.on F.TWN_STATUS_SUSPECT && !s.twin.partnerSuspect

/-- Neither module is in SUSPECT and the partner is MATCHED (09 R459). -/
def State.canSwitch (s : State) : Bool := decide (s.tstate = 1) && decide (s.ptstate = 3) && s.noSuspect

/-- A switchover that the active names, in a switch record (09 R459). -/
def State.nameSwitch (s : State) (w : Switch) : State :=
  ((s.tw fun q => { q with switch := some w }).put F.TWN_CTL_PENDING 1).send (s.foxWord 4 w.at_)

/-- The active names a boundary in a switch record (09 R459). -/
def State.startSwitch (s : State) (b cause : Nat) (restart : Option Nat) (diverge : Bool) : State :=
  s.nameSwitch { at_ := b, cause := cause, thenRestart := restart, diverge := diverge }

/-- A session ends (17 R728, R729). Reasons: 1 idle, 2 role left, 3 restart. -/
def State.closeSession (s : State) (n reason : Nat) : State :=
  match s.session n with
  | none => s
  | some _ =>
    ((s.mg fun q => { q with sessions := tset none s.mgmt.sessions n none,
                                    reads := s.mgmt.reads.filter (fun r => r.session ≠ n) })).raise 0xE202 islMgmt (le 4 reason)

/-- Sessions on the active addresses end when the module leaves ACTIVE (17 R728). -/
def State.closeActive (s : State) : State :=
  s.each (List.range 16) (fun t n => match t.session n with
    | some k => if k.onActive then t.closeSession n 2 else t
    | none => t)

/-- A join attempt begins: from step CHECK, or from COPY after DIVERGED and LAGGING (09 R429, R447, R465). -/
def State.beginJoin (s : State) (fromCopy : Bool) : State :=
  let s1 := (s.tw fun q => { q with joinStart := s.now, fromCopy := fromCopy, retry := false, copied := 0, joinM := 0,
                                           granules := 0, reached := [], classMatched := [], sigs := [], partnerSigs := [] })
  ((s1.setT 2).put F.TWN_JOIN_STEP (if fromCopy then 3 else 1)).put F.TWN_JOIN_ELAPSED 0

/-- A join attempt fails, with its step; a new attempt follows 1 s later (09 R429, R470). -/
def State.failJoin (s : State) : State :=
  if s.tstate = 2 then
    ((s.tw fun q => { q with retry := true, joinStart := s.now }).put F.TWN_JOIN_STEP 0).raise 0x7012 islTwin
      (le 4 (s.get F.TWN_JOIN_STEP))
  else s

/-- The handover window closes: HO_STATE IDLE, the revert timer restarts from zero, change sets are taken again (02 R91, R101,
R104). -/
def State.hoClose (s : State) (code : Nat) : State :=
  let s1 := { s with nv := { s.nv with hoState := 0, hoElapsed := 0, hoFirst := false },
                     twin := { s.twin with revertFrom := none, burstOff := false, copyBurst := [], hoAt := none } }
  (s1.showNv.twinShow).raise code islMgmt []

/-- A module leaves the handover before SWITCHING: the one that went first takes its previous profile at the next start-up
(02 R101, R102). -/
def State.hoReturn (s : State) (code : Nat) : State :=
  let s1 := s.hoClose code
  if s.nv.hoFirst then s1.inNv fun v => { v with boot := some s.nv.hoPrev } else s1

/-- The handover passes to a state that the registers and MRAM show (02 R101, R106). -/
def State.hoTo (s : State) (h : Nat) : State := ((s.inNv fun q => { q with hoState := h })).showNv

/-- The event of a module fault, with the fault and the response: 1 switchover, 2 none, 3 restart (09 R464). -/
def State.modFaultEvent (s : State) (fault r : Nat) : State := s.raise 0x7070 islTwin (le 4 fault ++ le 4 r)

/-- A switchover that a fault or a mismatch of the active asks for: the one that is named takes its restart and its divergence, else
the first boundary that 09 R459 allows is named, at once for `b` where no module is in SUSPECT (09 R446, R464, 19 R789). -/
def State.oweSwitch (s : State) (w : Switch) : State :=
  match s.twin.switch with
  | some v => s.tw fun q => { q with switch := some { v with
      thenRestart := if w.thenRestart.isSome then w.thenRestart else v.thenRestart, diverge := v.diverge || w.diverge } }
  | none => if s.canSwitch then s.nameSwitch w else s.tw fun q => { q with owed := some w }

/-- At boundary `n` a switchover that is owed is named for n + 4 as soon as 09 R459 allows one; it is owed no longer once this
module is not ACTIVE or its partner not MATCHED (09 R464). -/
def State.owedBoundary (s : State) (n : Nat) : State :=
  match s.twin.owed with
  | none => s
  | some w =>
    if !s.isActive ∨ s.ptstate ≠ 3 then s.tw fun q => { q with owed := none }
    else if s.canSwitch ∧ s.twin.switch.isNone then
      (s.tw fun q => { q with owed := none }).nameSwitch { w with at_ := n + 4, acked := false }
    else s

/-- The responses of 09 R464 as event 0x7070 gives them: 1 planned switchover, 2 runs on, 3 restart. A fault of the active
leads to a planned switchover for B = F + 5 (19 R789), or for the first boundary that 09 R459 allows; the active with no MATCHED
partner runs on, any other module restarts; in a handover before SWITCHING the module that went first returns to its previous image
(02 R101).
Fault numbers: 1 core pair, 2 cluster pair, 3 domain. -/
def State.moduleFault (s : State) (fault : Nat) : State :=
  let s1 := s.put F.MOD_STATUS_MOD_FAULT 1
  if s1.isActive then
    if s1.twin.switch.isSome ∨ s1.ptstate = 3 then
      (s1.oweSwitch { at_ := s1.count + 5, cause := 6, thenRestart := some 6 }).modFaultEvent fault 1
    else s1.modFaultEvent fault 2
  else
    let s2 := if s1.nv.hoFirst ∧ 1 ≤ s1.nv.hoState ∧ s1.nv.hoState ≤ 3 then s1.hoReturn 0x1033 else s1
    (s2.modFaultEvent fault 3).restart 6

end Sys2Proof.Machine
end

