-- ==== Sys2Proof/Machine/PartBase.lean ====
section
/-! DEFINITION. Partitions: their areas, states, aborts, rollbacks and halts; FAULTY core pairs (05 R203, R218 to R231,
R240). -/
namespace Sys2Proof.Machine

/-! ## Areas of a partition (05 R203) -/

/-- Start of the partition's areas: its core pair's partition fast data (03 R122) and FAST_OFF. -/
def PartRec.fast (r : PartRec) : Nat := 0x8003400000 + 393216 * r.core + r.fastOff

/-- Bytes of one input area. -/
def PartRec.inLen (r : PartRec) : Nat := (64 + 5 * r.inputs.length + 63) / 64 * 64

/-- Start of input area 0 or 1. -/
def PartRec.inArea (r : PartRec) (a : Nat) : Nat := r.fast + (a % 2) * r.inLen

/-- Start of the output area. -/
def PartRec.outArea (r : PartRec) : Nat := r.fast + 2 * r.inLen

/-- Start of the indexed-write list. -/
def PartRec.idxList (r : PartRec) : Nat := r.outArea + 4 * r.outputs.length

/-! ## States (05 R240, CYC_PSTATE) -/

/-- State of a partition: 0 UNUSED, 1 WAITING, 2 RUNNING, 3 DONE, 4 OVERRUN, 5 LATE, 6 ROLLBACK, 7 HALTED. -/
def State.pst (s : State) (p : Nat) : Nat := s.get (F.CYC_PSTATE_STATE p)

/-- HALTED of CYC_STATUS follows the partitions. -/
def State.haltShow (s : State) : State :=
  s.putB F.CYC_STATUS_HALTED (s.image.parts.any (fun r => decide (s.pst r.part = 7)))

/-- A partition passes to a state. -/
def State.setPst (s : State) (p n : Nat) : State := (s.put (F.CYC_PSTATE_STATE p) n).haltShow

/-- The entry of PARTITIONS of a partition; an empty one where there is none. -/
def State.prec (s : State) (p : Nat) : PartRec := (s.image.part? p).getD { part := p }

/-- The latest value committed for a declared output, the SIGMAP initial value before the first commit (05 R203). -/
def State.committedVal (s : State) (p pt : Nat) : Word :=
  (((s.part p).committed.find? (fun c => c.1 = pt)).map (fun c => c.2)).getD (s.pinfo pt).init

/-- The output area rewritten with the latest committed values (05 R203). -/
def State.outRewrite (s : State) (p : Nat) : State :=
  let r := s.prec p
  s.sysW r.outArea (r.outputs.foldl (fun l pt => l ++ le 4 (s.committedVal p pt).toNat) [])

/-! ## Aborts and rollbacks -/

/-- An ended activation leaves its core pair: it is neither context nor ready, and no store of it is left in the commit buffer
(05 R219). -/
def State.coreDrop (s : State) (p : Nat) : State :=
  let c := (s.prec p).core
  let k := s.core c
  let here := decide (k.cur = some p)
  let s1 := if here then s.pa p fun q => { q with ranAt := s.count } else s
  s1.setCore c { k with
    cur := if here then none else k.cur, oth := if k.oth = some p then none else k.oth, deep := k.deep.filter (fun q => q ≠ p)
    level := if here && decide (k.level = 0) then 1 else k.level, buf := if here && decide (k.level = 0) then [] else k.buf
    ready := k.ready.filter (fun q => q ≠ p), frozen := k.frozen.filter (fun q => q ≠ p) }

/-- A release that waited does not run: its constants wait on (05 R210). -/
def State.unhold (s : State) (p : Nat) : State :=
  s.pa p fun k => { k with relWait := none, constWait := ((k.relWait.map (fun e => e.consts)).getD []) ++ k.constWait }

/-- The event of an abort by its fault kind; the event of kind 8 is raised once for the core pair (05 R218). -/
def State.abortEvent (s : State) (p kind pc : Nat) : State :=
  let isl := (s.prec p).core
  match kind with
  | 6 => s.raise 0x4011 isl []
  | 7 => s.raise 0x4003 isl []
  | 8 => s
  | _ => s.raise 0x4010 isl (le 4 kind ++ le 4 pc)

/-- The fault count of an abort (05 R218, R223): it judges the limit over the second that ends with it. -/
def State.countAbort (s : State) (p kind : Nat) : State :=
  let k := s.part p
  let l := s.now :: within k.aborts s.now 1000000000
  let s1 := s.setPart p { k with aborts := l, limit := k.limit || decide ((s.prec p).faultLimit ≤ l.length) }
  (((s1.put (F.CYC_PSTATE_LAST_FAULT p) kind).bump (F.CYC_PFAULT_ABORTS p) 1).put F.CYC_STATUS_ABORT 1).total 0x088 4 1

/-- The active reports with its next commit record that an activation ended: by the run limit, or in another way (05 R232). -/
def State.noteEnd (s : State) (p kind : Nat) : State :=
  let e := (p, (s.part p).release)
  s.cr fun q => if kind = 7 then { q with runLimit := q.runLimit ++ [e] } else { q with ended := q.ended ++ [e] }

/-- An abort of an activation: nothing is committed and the rollback begins (05 R218, R219, R232). -/
def State.abortNow (s : State) (p kind pc : Nat) : State :=
  (((((s.coreDrop p).countAbort p kind).noteEnd p kind).setPst p 6)).abortEvent p kind pc

/-- An abort ends an activation that is RUNNING or OVERRUN (05 R218, R240). -/
def State.abortPart (s : State) (p kind pc : Nat) : State :=
  if s.pst p = 2 ∨ s.pst p = 4 then s.abortNow p kind pc else s

/-- An activation ends without commit and without a fault count, and its rollback begins (05 R225, R232, R234). -/
def State.endPart (s : State) (p : Nat) : State := ((s.coreDrop p).noteEnd p 0).setPst p 6

/-- A partition halts (05 R223, R225). -/
def State.haltPart (s : State) (p : Nat) : State :=
  (((s.unhold p).pa p fun k => { k with thenRelease := false, thenHalt := false, limit := false }).bump
    (F.CYC_PFAULT_HALTS p) 1).setPst p 7

/-- Where the undo journal of a partition holds the old contents of a static line. MARK: DESIGN CHOICE: at the line's offset in
the static region, which has the journal's size (assumption 66). -/
def PartRec.undoAt (r : PartRec) (line : Nat) : Nat := r.staticSize + line

/-- The undo journal written back over the static region and the stack lines reset (05 R221, R222). -/
def State.rollLines (s : State) (p : Nat) : State :=
  let s1 := s.each (s.part p).undo (fun t a => t.sysW a (t.memL ((s.prec p).undoAt a) 64))
  (s1.each (s.part p).stackLines (fun t a => t.memZero a 64)).pa p fun k => { k with undo := [], stackLines := [] }

/-- The memory of a rollback: static and stack lines, constants as at the checkpoint, the output area with the committed values
(05 R203, R221, R222). -/
def State.rollMem (s : State) (p : Nat) : State :=
  let s1 := (s.rollLines p).each (s.part p).constUndo (fun t c => t.sysW c.1 (le 4 c.2.toNat))
  (s1.pa p fun k => { k with constUndo := [], idxCount := 0, restarted := true, area := k.ckptArea }).outRewrite p

/-- A partition of a core pair that becomes FAULTY: its activation aborts without commit, it halts (05 R231, R240). -/
def State.faultyPart (s : State) (p : Nat) : State :=
  let k := (s.get (F.CYC_PSTATE_LAST_FAULT p))
  if s.pst p = 7 then s
  else if 2 ≤ s.pst p ∧ s.pst p ≤ 5 then ((((s.coreDrop p).countAbort p k).noteEnd p 0).rollMem p).haltPart p
  else if s.pst p = 6 then (s.rollMem p).haltPart p
  else s.haltPart p

/-- A FAULTY core pair halts all its partitions, raises event 0x4021 and reports a module fault (05 R231). -/
def State.coreFaulty (s : State) (c : Nat) : State :=
  if s.get (F.CYC_CORE_STATE c) = 2 then s else
  let s1 := ((s.put (F.CYC_CORE_STATE c) 2).put F.CYC_STATUS_CORE_FAULTY 1).raise 0x4021 c []
  let mine := (s1.image.parts.filter (fun r => r.core = c)).map (fun r => r.part)
  ((s1.each mine State.faultyPart).noteFault).moduleFault 1

/-- Activations in progress and releases that wait are abandoned without commit and without a fault count; a partition command that
had taken effect halts its partition, or leaves it for its next release (05 R225, 10 R502). -/
def State.dropActivations (s : State) : State :=
  s.each s.image.parts (fun t r =>
    let p := t.pst r.part
    let k := t.part r.part
    let u := if 2 ≤ p ∧ p ≤ 6 then (((t.coreDrop r.part).rollMem r.part).setPst r.part 1) else t
    let v := (u.unhold r.part).pa r.part fun q => { q with restarted := true, thenRelease := false, thenHalt := false }
    if k.thenHalt then (v.haltPart r.part).raise 0x4014 r.core []
    else if k.thenRelease then v.raise 0x4013 r.core [] else v)

/-- Slower samples in progress are abandoned; those that follow run on the spare pair where it serves theirs (07 R340, 10 R502). -/
def State.dropSamples (s : State) : State :=
  s.lp fun u => { u with
    moved := [], slots := tall {} (fun d => { d with busy := false, result := none, holding := false, inCopy := [], stream := [] }) u.slots
    phaseP := none }

end Sys2Proof.Machine
end

