-- ==== Sys2Proof/Machine/Qmp.lean ====
section
/-! DEFINITION. Requests of the management protocol: what every command of 17 R734 shares (17 R730 to R735). -/
namespace Sys2Proof.Machine

/-- What a request yields: the state and the answer, none while the request runs on: STATUS (17 R735), payload. -/
abbrev Answer := State × Option (Nat × List Byte)

/-- OK with a payload. -/
def State.ok (s : State) (p : List Byte) : Answer := (s, some (0, p))
/-- REFUSED with its reason word (17 R735). -/
def State.refused (s : State) (reason : Nat) : Answer := (s, some (4, le 4 reason))
/-- A status without payload. -/
def State.status (s : State) (n : Nat) : Answer := (s, some (n, []))

/-- Number of fragments of a response: at most 1,184 payload bytes each, one at least (17 R730). -/
def QmpResp.count (r : QmpResp) : Nat := max 1 ((r.payload.length + 1183) / 1184)

/-- One fragment of a response: the header with RESPONSE, MORE but in the last one, FRAG, and the payload (17 R730). -/
def QmpResp.fragment (r : QmpResp) (i : Nat) : List Byte :=
  let b := (r.payload.drop (1184 * i)).take 1184
  le 1 1 ++ le 1 r.cmd ++ le 1 (if i + 1 < r.count then 3 else 1) ++ le 1 i ++ le 4 r.req ++ le 2 r.status ++ le 2 b.length ++
    le 4 r.payload.length ++ b

/-- A response is sent as fragments in FRAG order (17 R731). -/
def State.respond (s : State) (n : Nat) (r : QmpResp) : State :=
  s.each (List.range r.count) (fun t i => t.send (.qmp n (r.fragment i)))

/-- A session answers a request; the response of one of its last 32 REQ_IDs is kept (17 R732). -/
def State.answer (s : State) (n : Nat) (r : QmpResp) : State :=
  match s.session n with
  | none => s
  | some k => (s.setSession n (some { k with kept := (r :: k.kept).take 32, running := none })).respond n r

/-- A request comes to its execution (17 R731 to R734): a REQ_ID with a kept response is answered again from it, one below
all 32 kept values is answered BAD_REQUEST, one that comes while another request runs BUSY; a monitor session is DENIED a
control command, and a module without ACTIVE answers NOT_ACTIVE where the command needs it. A request during hold-up is
ignored (16 R722). -/
def State.request (s : State) (ses : Fin 16) (req cmd : Nat) (control needsActive : Bool) (f : State → Answer) : State :=
  if s.on F.MOD_STATUS_HOLDUP then s else
  match s.session ses.val with
  | none => s
  | some k =>
    let resp := fun st => { cmd := cmd, req := req, status := st : QmpResp }
    match k.kept.find? (fun e => e.req = req) with
    | some e => s.respond ses.val e
    | none =>
      if k.kept.length = 32 ∧ k.kept.all (fun e => req < e.req) then s.respond ses.val (resp 1)
      else if k.running.isSome ∧ k.running ≠ some req then s.respond ses.val (resp 6)
      else if control ∧ !k.control then s.answer ses.val (resp 2)
      else if needsActive ∧ !s.isActive then s.answer ses.val (resp 3)
      else
        let r := f (s.setSession ses.val (some { k with last := s.now }))
        match r.2 with
        | some a => r.1.answer ses.val { resp a.1 with payload := a.2 }
        | none => r.1.setSession ses.val (some { k with running := some req, last := s.now })

end Sys2Proof.Machine
end

