-- ==== Sys2Proof/Machine/ChangeSet.lean ====
section
/-! DEFINITION. Change sets: checks on receipt, staging, application at boundaries, the change journal (02 R79 to R91, R831;
04 R177 to R182; 05 R210, R211). -/
namespace Sys2Proof.Machine

/-! ## The change journal (02 R89, R90, R831) -/

/-- Length in bytes of a journal record of `n` entries (02 R831). -/
def journalLen (n : Nat) : Nat := (64 + 8 * n + 63) / 64 * 64

/-- Start of the change journal of a profile slot in flash (03 R135). -/
def journalBase (n : Nat) : Nat := 0x50400000 + 0x1000000 * n

/-- The header of a journal record before its CRC (02 R831). -/
def JournalRec.head (r : JournalRec) : List Byte :=
  [0x45, 0x4A, 0x4E, 0x4C] ++ le 4 r.num ++ le 8 r.applied ++ le 1 r.cls ++ le 1 0 ++ le 2 r.entries.length ++ le 40 0

/-- The entries of a journal record (02 R831). -/
def JournalRec.body (r : JournalRec) : List Byte := r.entries.flatMap (fun e => le 4 e.idx ++ le 4 e.val.toNat)

/-- A journal record as it stands in flash (02 R831). -/
def JournalRec.bytes (r : JournalRec) : List Byte :=
  pad (journalLen r.entries.length) (r.head ++ le 4 (crc32c (r.head ++ r.body)) ++ r.body)

/-- The record that stands at an address; none where MAGIC or CRC is wrong (02 R831). -/
def journalAt (m : Memory) (a : Nat) : Option JournalRec :=
  let h := Memory.readN m a 64
  let n := field h 18 2
  let b := Memory.readN m (a + 64) (8 * n)
  if h.take 4 = [0x45, 0x4A, 0x4E, 0x4C] ∧ field h 60 4 = crc32c (h.take 60 ++ b) then
    some { num := field h 4 4, applied := field h 8 8, cls := field h 16 1,
           entries := (List.range n).map (fun i => { idx := field b (8 * i) 4, val := BitVec.ofNat 32 (field b (8 * i + 4) 4) }) }
  else none

/-- The records of a journal from an address on: the first position that holds none ends it (02 R831). -/
def journalFrom (m : Memory) (stop : Nat) : Nat → Nat → List JournalRec
  | 0, _ => []
  | fuel + 1, a =>
    if stop ≤ a then []
    else match journalAt m a with
      | some r => r :: journalFrom m stop fuel (a + journalLen r.entries.length)
      | none => []

/-- The change journal of a profile slot; no record is shorter than 64 bytes (02 R831). -/
def slotJournal (m : Memory) (n : Nat) : List JournalRec := journalFrom m (journalBase n + 16777216) 262144 (journalBase n)

/-- Bytes in use of a journal (02 R90). -/
def journalUse (l : List JournalRec) : Nat := l.foldl (fun a r => a + journalLen r.entries.length) 0

/-- The profile slot that the module runs; none under the factory safe image. -/
def State.runSlot (s : State) : Option Nat := if s.on F.IMG_STATUS_FACTORY then none else some (s.get F.IMG_STATUS_RUN_SLOT)

/-- The journal of the running profile slot. -/
def State.journal (s : State) : List JournalRec :=
  match s.runSlot with
  | some n => slotJournal s.flash n
  | none => []

/-- JOURNAL_KIB of IMG_CS_STATUS (02 R90). -/
def State.journalShow (s : State) : State := s.put F.IMG_CS_STATUS_JOURNAL_KIB ((journalUse s.journal + 1023) / 1024)

/-! ## Targets -/

/-- The entry of PARAMDIR that a change-set entry names. -/
def State.target? (s : State) (e : CsEntry) : Option ParamEntry := s.image.params[e.idx]?

/-- What a change-set entry names. -/
def State.targetOf (s : State) (e : CsEntry) : Option ParamTarget :=
  match s.target? e with
  | some p => some p.target
  | none => none

/-- A force entry: never journalled (04 R189). -/
def ParamTarget.isForce : ParamTarget → Bool
  | .forceSet _ => true
  | .forceClear _ => true
  | _ => false

/-- Entries of a change set that are not force entries (02 R831). -/
def State.plainEntries (s : State) (c : ChangeSet) : List CsEntry :=
  c.entries.filter (fun e => !((s.target? e).map (fun p => p.target.isForce)).getD false)

/-- A value as a number of its type; a binary32 value exactly (02 R81). -/
def paramNum (typ : Nat) (w : Nat) : Int :=
  match typ with
  | 2 => toSigned 32 w
  | 4 => exact32 w
  | _ => (w : Int)

/-- A value fits the type and the limits that PARAMDIR gives (02 R81); the value of FORCE_CLEAR is ignored. -/
def ParamEntry.admits (p : ParamEntry) (v : Word) : Bool :=
  match p.target with
  | .forceClear _ => true
  | _ =>
    let n := paramNum p.typ v.toNat
    let lim := fun (l : Int) => if p.typ = 4 then exact32 l.toNat else l
    (p.typ ≠ 0 || v.toNat ≤ 1) && (p.typ ≠ 4 || isFinite32 v.toNat) && decide (lim p.lo ≤ n) && decide (n ≤ lim p.hi)

/-- A force value fits the type of its point: a BOOL point takes 0 or 1 only (04 R179). -/
def State.forceFits (s : State) (p : ParamEntry) (v : Word) : Bool :=
  match p.target with
  | .forceSet q => decide ((s.pinfo q).typ ≠ 0) || decide (v.toNat ≤ 1)
  | _ => true

/-- A law parameter of type REAL32 written as NaN or infinity (06 R272). -/
def ParamEntry.notFinite (p : ParamEntry) (v : Word) : Bool :=
  match p.target with
  | .slotWord _ _ => decide (p.typ = 4) && !isFinite32 v.toNat
  | _ => false

/-- A word of a law takes its value: window words, and from offset 0x1000 the words of its CAM table (06 R307, R290). -/
def State.putSlotWord (s : State) (slot off : Nat) (v : Word) : State :=
  if off < 0x1000 then s.slotWr slot off v.toNat else s.memW (camBase slot + (off - 0x1000)) (le 4 v.toNat)

/-- The slot words of a change set written, with no regard to boundaries: the state that R81 judges. -/
def State.csWords (s : State) (c : ChangeSet) : State :=
  s.each c.entries (fun t e => match t.targetOf e with
    | some (.slotWord slot off) => t.putSlotWord slot off e.val
    | _ => t)

/-- Head slots that a change set writes. -/
def State.csSlots (s : State) (c : ChangeSet) : List Nat :=
  c.entries.filterMap (fun e => match s.targetOf e with
    | some (.slotWord slot _) => some slot
    | _ => none)

/-- A condition across entries that a state breaks: 8 UNSTABLE, 10 LIMITS_CROSSED, 11 REGIONS (06 R271, R272, 07 R311). -/
def State.csBroken (s : State) (slots : List Nat) : Option Nat :=
  if slots.any (fun i => !stableAll (s.slotRd i)) then some 8
  else if slots.any (fun i => !limitsOk (s.slotRd i)) then some 10
  else if slots.any (fun i => !regionsOk (s.slotRd i)) then some 11
  else none

/-- The values in force, with the values that wait for their own boundary (02 R86). -/
def State.withDeferred (s : State) : State :=
  s.each s.deferred (fun t d => match d.target with
    | .slotWord slot off => t.putSlotWord slot off d.val
    | _ => t)

/-- Conditions judged on every state that the staged change sets and this one would produce, from its boundary on
(02 R81). -/
def State.csJudge (s : State) (c : ChangeSet) : Option Nat :=
  let l := sortBy (fun (x : ChangeSet) => x.named) (sortBy (fun (x : ChangeSet) => x.num) (c :: s.cs))
  let slots := dedupN (l.flatMap s.csSlots)
  let bs := (dedupN (l.map (fun x => x.named))).filter (fun b => c.named ≤ b)
  bs.findSome? (fun b => (s.withDeferred.each (l.filter (fun x => x.named ≤ b)) State.csWords).csBroken slots)

/-- Points that count against the limit of 4,096 forces (04 R178). -/
def State.csForcePoints (s : State) (c : ChangeSet) : List Nat :=
  (c :: s.cs).flatMap (fun x => x.entries.filterMap (fun e => match s.targetOf e with
    | some (.forceSet p) => some p
    | _ => none))

/-- Different points that are forced now, that wait to be, or that a FORCE_SET entry names (04 R178). -/
def State.csForces (s : State) (c : ChangeSet) : Nat :=
  (dedupN (s.sig.forces.map (fun f => f.point) ++
    (s.sig.waiting.filter (fun w => w.set.isSome)).map (fun w => w.point) ++ s.csForcePoints c)).length

/-- Why the active refuses a change set (02 R80, R81, R90, R91, 04 R178, 06 R271, R272, 07 R311), by the reasons of the
model: 1 identity, 2 index, 3 value, 4 named cycle, 5 four staged, 6 HANDOVER_ACTIVE, 7 journal full, 8 UNSTABLE,
9 NOT_FINITE, 10 LIMITS_CROSSED, 11 REGIONS, 12 FORCE_FULL. -/
def State.csReason (s : State) (c : ChangeSet) : Option Nat :=
  let es := c.entries.map (fun e => (s.target? e, e.val))
  let plain := (s.plainEntries c).length
  if s.nv.hoState ≠ 0 then some 6
  else if c.ident ≠ s.image.ident then some 1
  else if es.any (fun e => e.1.isNone) then some 2
  else if es.any (fun e => (e.1.map (fun p => p.notFinite e.2)).getD false) then some 9
  else if es.any (fun e => !(e.1.map (fun p => p.admits e.2 && s.forceFits p e.2)).getD false) then some 3
  else if c.named % 2 ^ c.cls ≠ 0 ∨ c.named ≤ s.count ∨ boundaryNs c.named > s.now + 10000000000 then some 4
  else if s.cs.length ≥ 4 then some 5
  else if c.persist ∧ plain ≠ 0 ∧ journalUse s.journal + journalLen plain > 16777216 then some 7
  else if s.csForces c > 4096 then some 12
  else s.csJudge c

/-- A change set refused or discarded: event 0x1022 with its reason, and its total (02 R81, R85, 17 R744). -/
def State.csRefuse (s : State) (reason : Nat) : State := (s.total 0x16C 4 1).raise 0x1022 islCs (le 4 reason)

/-- STAGED follows the staged change sets. -/
def State.csShow (s : State) : State := s.put F.IMG_CS_STATUS_STAGED s.cs.length

/-- A change set comes to the active (02 R79 to R82). -/
def State.csReceive (s : State) (c : ChangeSet) : Answer :=
  if c.entries.length > 4096 then s.status 7
  else if c.entries = [] ∨ c.cls > 7 then s.status 1
  else match s.csReason c with
    | some r => (s.csRefuse r).refused r
    | none =>
      let c0 := { c with partnerStaged := false, delay := 0 }
      ((({ s with cs := s.cs ++ [c0] }).csShow).send (.changeSet c0)).ok []

/-- CHANGESET (02 R79 to R82, R90, R91, 17 R734). -/
def execChangeset (ses : Fin 16) (req : Nat) (c : ChangeSet) (t : Nat) (s : State) : Res :=
  .next ((s.at t).request ses req 3 true true (fun s => s.csReceive c))

/-- Whether two entries of the staging are the same change set, whatever delay they show. -/
def ChangeSet.same (c x : ChangeSet) : Bool := decide ({ x with delay := 0, partnerStaged := false } =
  ({ c with delay := 0, partnerStaged := false } : ChangeSet))

/-- CHANGESET_FORWARD_RX (02 R82): the standby stages a change set that the active accepted and reports it; the active takes
the report. -/
def execChangesetForwardRx (c : ChangeSet) (s : State) : Res :=
  .next (if s.isActive then
      { s with cs := s.cs.map (fun x => if c.same x then { x with partnerStaged := true } else x) }
    else if s.isStandby then
      (({ s with cs := s.cs ++ [{ c with partnerStaged := true, delay := 0 }] }).csShow).send (.staged c.num)
    else s)

/-- A change set is ready when both modules have staged it; with the twin absent, diverged or lagging the active's staging is
enough (02 R82). MARK: DESIGN CHOICE: so it is with a partner in any other state but MATCHED (assumption 112). -/
def State.csReady (s : State) (c : ChangeSet) : Bool := c.partnerStaged || !s.matched

/-- A staged change set leaves the staging; another one of the same number stays. -/
def State.csDrop (s : State) (c : ChangeSet) : State := ({ s with cs := s.cs.eraseP c.same }).csShow

/-- CHANGE_SET_DISCARD (02 R85): a change set that is not ready 1 s after its named boundary is discarded in both modules. -/
def execChangeSetDiscard (num t : Nat) (s : State) : Res :=
  let s0 := s.at t
  .next (match s0.cs.find? (fun x => decide (x.num = num) && (!s0.isActive ||
      (!s0.csReady x && decide (s0.now ≥ boundaryNs x.named + 1000000000)))) with
    | none => s0
    | some c => if s0.isActive then ((s0.csDrop c).csRefuse 13).send (.csDiscard num) else (s0.csDrop c).csRefuse 13)

/-! ## Application (02 R83 to R89) -/

/-- Whether a word is a gain of the region in use or a limit: it is treated as a region change at the next sample
(06 R274, 07 R320). -/
def gainInUse (rd : Nat → Nat) (off : Nat) : Bool :=
  let law := lawOf rd
  let reg := bitsOf (rd 4) 16 3
  (hasRegions law && (wordsFrom (0x200 + 64 * reg) (gainWords law)).contains off) ||
  (decide (law = 1) && (wordsFrom 0x080 3).contains off) || (decide (law = 2) && (wordsFrom 0x080 4).contains off)

/-- A law parameter takes effect: word, derived constants, output continuity (06 R260, R274). -/
def State.effectSlot (s : State) (slot off : Nat) (v : Word) : State :=
  let s1 := s.putSlotWord slot off v
  let s2 := if gainInUse (s.slotRd slot) off then s1.sl slot fun d => { d with gainsWritten := true } else s1
  s2.derive slot

/-- Address of a partition constant. -/
def State.constAddr (s : State) (p off : Nat) : Nat := (s.prec p).constBase + off

/-- An entry takes effect at its target's own boundary (02 R86, 05 R210, 04 R180): constants wait for the next release that
runs, forces for the boundary of the owner class. -/
def State.effect (s : State) (t : ParamTarget) (v : Word) : State :=
  match t with
  | .slotWord slot off => s.effectSlot slot off v
  | .partConst p off => s.pa p fun k => { k with constWait := k.constWait ++ [(s.constAddr p off, v)] }
  | .forceSet p => s.sg fun g => { g with waiting := g.waiting ++ [{ point := p, set := some v }] }
  | .forceClear p => s.sg fun g => { g with waiting := g.waiting ++ [{ point := p, set := none }] }

/-- Class of a target. -/
def State.targetClass (s : State) : ParamTarget → Nat
  | .slotWord slot _ => s.get (F.SLOT_CFG_CLASS slot)
  | .partConst p _ => (s.prec p).cls
  | .forceSet p => s.ownerClass p
  | .forceClear p => s.ownerClass p

/-- One entry of a change set applied at boundary `n`: at once at a boundary of its target's class, else at the first
later one (02 R86). -/
def State.applyEntry (s : State) (cls n : Nat) (e : CsEntry) : State :=
  match s.target? e with
  | none => s
  | some p =>
    match p.target with
    | .slotWord slot off =>
      if isBoundary (s.targetClass p.target) n then s.effectSlot slot off e.val
      else { s with deferred := s.deferred ++ [{ target := p.target, cls := cls, val := e.val }] }
    | t => s.effect t e.val

/-- The record of a persist-marked change set in the journal, behind its last record (02 R89, R831). MARK: DESIGN CHOICE: where
several sets staged together no longer fit, the record that would pass 16 MiB is not appended (assumption 84). -/
def State.journalAppend (s : State) (c : ChangeSet) (n : Nat) : State :=
  let r : JournalRec := { num := c.num, applied := n, cls := c.cls, entries := s.plainEntries c }
  let use := journalUse s.journal
  match s.runSlot with
  | some k =>
    if c.persist ∧ r.entries ≠ [] ∧ use + journalLen r.entries.length ≤ 16777216 then
      { s with flash := Memory.writeN s.flash (journalBase k + use) r.bytes }.journalShow
    else s
  | none => s

/-- A ready change set is applied at a boundary (02 R83, R84, R89). -/
def State.csApply (s : State) (c : ChangeSet) (n : Nat) : State :=
  let s1 := (s.csDrop c).each c.entries (fun t e => t.applyEntry c.cls n e)
  let s2 := (s1.wrN R.IMG_CS_LAST c.num).raise 0x1020 islCs []
  let s3 := if c.delay ≠ 0 then s2.raise 0x1021 islCs (le 4 c.delay) else s2
  s3.journalAppend c n

/-- A change set that is not applied at a boundary of its class at or after its own is delayed by that boundary (02 R84). -/
def State.csDelay (s : State) (c : ChangeSet) : State :=
  (({ s with cs := s.cs.map (fun (x : ChangeSet) => if c.same x then { x with delay := x.delay + 1 } else x) }).bump
    F.IMG_CS_DELAYS_DELAYS 1).total 0x168 4 1

/-- One change set at boundary `n`, with the number of entries applied there before it (02 R81, R83, R84, 05 R211). -/
def State.csOne (n : Nat) (a : State × Nat) (c : ChangeSet) : State × Nat :=
  let s := a.1
  if !s.csReady c ∨ a.2 + c.entries.length > 4096 then (s.csDelay c, a.2)
  else match (s.withDeferred.csWords c).csBroken (dedupN (s.csSlots c)) with
    | some r => ((s.csDrop c).csRefuse r, a.2)
    | none => (s.csApply c n, a.2 + c.entries.length)

/-- Values that waited for boundary `n` take effect (02 R86). -/
def State.deferredAt (s : State) (n : Nat) : State :=
  let due := s.deferred.filter (fun d => isBoundary (s.targetClass d.target) n)
  ({ s with deferred := s.deferred.filter (fun d => !isBoundary (s.targetClass d.target) n) }).each due
    (fun t d => t.effect d.target d.val)

/-- Change sets at boundary `n`: before any freeze, release or sample of it, in ascending number (02 R83 to R88); then the
forces whose boundary it is (04 R180, R182). -/
def State.csBoundary (s : State) (n : Nat) : State :=
  let due := sortBy (fun (x : ChangeSet) => x.num) (s.cs.filter (fun c => decide (c.named ≤ n) && isBoundary c.cls n))
  ((due.foldl (State.csOne n) (s.deferredAt n, 0)).1).applyForces n

/-- The replay of the change journal over the image's initial values (02 R89). -/
def State.csReplay (s : State) : State :=
  let l := s.journal
  let s1 := s.each l (fun t r => t.each r.entries (fun t e => match t.targetOf e with
    | some (.slotWord slot off) => (t.putSlotWord slot off e.val).derive slot
    | some (.partConst p off) => t.memW (t.constAddr p off) (le 4 e.val.toNat)
    | _ => t))
  (s1.wrN R.IMG_CS_LAST ((l.getLast?.map (fun r => r.num)).getD 0)).journalShow

end Sys2Proof.Machine
end

