-- ==== Sys2Proof/Machine/Crypto.lean ====
section
/-! DEFINITION. The two primitives that the spec takes by name: SHA-512 (02 R57), the digest of RFC 8032, and the check of an
Ed25519 signature of RFC 8032, pure variant, no context (02 R56, R62). -/
namespace Sys2Proof.Machine

/-! ## SHA-512 -/

/-- First half of the round constants. -/
def shaK0 : List Nat := [
  0x428A2F98D728AE22, 0x7137449123EF65CD, 0xB5C0FBCFEC4D3B2F, 0xE9B5DBA58189DBBC,
  0x3956C25BF348B538, 0x59F111F1B605D019, 0x923F82A4AF194F9B, 0xAB1C5ED5DA6D8118,
  0xD807AA98A3030242, 0x12835B0145706FBE, 0x243185BE4EE4B28C, 0x550C7DC3D5FFB4E2,
  0x72BE5D74F27B896F, 0x80DEB1FE3B1696B1, 0x9BDC06A725C71235, 0xC19BF174CF692694,
  0xE49B69C19EF14AD2, 0xEFBE4786384F25E3, 0x0FC19DC68B8CD5B5, 0x240CA1CC77AC9C65,
  0x2DE92C6F592B0275, 0x4A7484AA6EA6E483, 0x5CB0A9DCBD41FBD4, 0x76F988DA831153B5,
  0x983E5152EE66DFAB, 0xA831C66D2DB43210, 0xB00327C898FB213F, 0xBF597FC7BEEF0EE4,
  0xC6E00BF33DA88FC2, 0xD5A79147930AA725, 0x06CA6351E003826F, 0x142929670A0E6E70,
  0x27B70A8546D22FFC, 0x2E1B21385C26C926, 0x4D2C6DFC5AC42AED, 0x53380D139D95B3DF,
  0x650A73548BAF63DE, 0x766A0ABB3C77B2A8, 0x81C2C92E47EDAEE6, 0x92722C851482353B]

/-- Second half of the round constants. -/
def shaK1 : List Nat := [
  0xA2BFE8A14CF10364, 0xA81A664BBC423001, 0xC24B8B70D0F89791, 0xC76C51A30654BE30,
  0xD192E819D6EF5218, 0xD69906245565A910, 0xF40E35855771202A, 0x106AA07032BBD1B8,
  0x19A4C116B8D2D0C8, 0x1E376C085141AB53, 0x2748774CDF8EEB99, 0x34B0BCB5E19B48A8,
  0x391C0CB3C5C95A63, 0x4ED8AA4AE3418ACB, 0x5B9CCA4F7763E373, 0x682E6FF3D6B2B8A3,
  0x748F82EE5DEFB2FC, 0x78A5636F43172F60, 0x84C87814A1F0AB72, 0x8CC702081A6439EC,
  0x90BEFFFA23631E28, 0xA4506CEBDE82BDE9, 0xBEF9A3F7B2C67915, 0xC67178F2E372532B,
  0xCA273ECEEA26619C, 0xD186B8C721C0C207, 0xEADA7DD6CDE0EB1E, 0xF57D4F7FEE6ED178,
  0x06F067AA72176FBA, 0x0A637DC5A2C898A6, 0x113F9804BEF90DAE, 0x1B710B35131C471B,
  0x28DB77F523047D84, 0x32CAAB7B40C72493, 0x3C9EBE0A15C9BEBC, 0x431D67C49C100D4C,
  0x4CC5D4BECB3E42B6, 0x597F299CFC657E2A, 0x5FCB6FAB3AD6FAEC, 0x6C44198C4A475817]

/-- The initial hash value. -/
def shaInit : List Nat := [
  0x6A09E667F3BCC908, 0xBB67AE8584CAA73B, 0x3C6EF372FE94F82B, 0xA54FF53A5F1D36F1,
  0x510E527FADE682D1, 0x9B05688C2B3E6C1F, 0x1F83D9ABFB41BD6B, 0x5BE0CD19137E2179]

/-- A number of 64 bits rotated right. -/
def ror64 (v n : Nat) : Nat := v / 2 ^ n + v % 2 ^ n * 2 ^ (64 - n)

/-- Big-endian number of a byte string. -/
def beNat (b : List Byte) : Nat := b.foldl (fun a x => 256 * a + x.toNat) 0

/-- `n` bytes of a number, big-endian. -/
def beBytes (n v : Nat) : List Byte := (le n v).reverse

/-- `n` words of a message schedule after the 16 latest ones, newest first. -/
def shaExtend : Nat → List Nat → List Nat
  | 0, w => w
  | n + 1, w =>
    let at_ := fun i => (w[i]?).getD 0
    let s0 := Nat.xor (Nat.xor (ror64 (at_ 14) 1) (ror64 (at_ 14) 8)) (at_ 14 / 2 ^ 7)
    let s1 := Nat.xor (Nat.xor (ror64 (at_ 1) 19) (ror64 (at_ 1) 61)) (at_ 1 / 2 ^ 6)
    shaExtend n ((at_ 15 + s0 + at_ 6 + s1) % 2 ^ 64 :: w)

/-- One round: the eight working variables, a round constant with its schedule word. -/
def shaRound (v : List Nat) (kw : Nat) : List Nat :=
  match v with
  | [a, b, c, d, e, f, g, h] =>
    let s1 := Nat.xor (Nat.xor (ror64 e 14) (ror64 e 18)) (ror64 e 41)
    let ch := Nat.xor (Nat.land e f) (Nat.land (2 ^ 64 - 1 - e) g)
    let t1 := h + s1 + ch + kw
    let s0 := Nat.xor (Nat.xor (ror64 a 28) (ror64 a 34)) (ror64 a 39)
    let mj := Nat.xor (Nat.xor (Nat.land a b) (Nat.land a c)) (Nat.land b c)
    [(t1 + s0 + mj) % 2 ^ 64, a, b, c, (d + t1) % 2 ^ 64, e, f, g]
  | l => l

/-- The hash value after one block of 128 bytes. -/
def shaBlock (h : List Nat) (b : List Byte) : List Nat :=
  let w0 := (List.range 16).map (fun i => beNat ((b.drop (8 * i)).take 8))
  let w := (shaExtend 64 w0.reverse).reverse
  let v := ((shaK0 ++ shaK1).zip w).foldl (fun v e => shaRound v (e.1 + e.2)) h
  (h.zip v).map (fun e => (e.1 + e.2) % 2 ^ 64)

/-- The hash value after `n` blocks. -/
def shaBlocks : Nat → List Nat → List Byte → List Nat
  | 0, h, _ => h
  | n + 1, h, b => shaBlocks n (shaBlock h (b.take 128)) (b.drop 128)

/-- A message with its padding: a one bit, zeros, its length in bits. -/
def shaPad (b : List Byte) : List Byte :=
  b ++ [0x80] ++ List.replicate ((239 - b.length % 128) % 128) 0 ++ beBytes 16 (8 * b.length)

/-- SHA-512 of a byte string (02 R57). -/
def sha512 (b : List Byte) : List Byte :=
  (shaBlocks (b.length / 128 + 2 - (if b.length % 128 < 112 then 1 else 0)) shaInit (shaPad b)).flatMap (beBytes 8)

/-! ## Ed25519 -/

/-- The field prime. -/
def edP : Nat := 2 ^ 255 - 19

/-- The order of the base point. -/
def edL : Nat := 2 ^ 252 + 27742317777372353535851937790883648493

/-- The curve constant d. -/
def edD : Nat := 37095705934669439343138083508754565189542113879843219016388785533085940283555

/-- A square root of minus one. -/
def edI : Nat := 19681161376707505956807079304988542015446066515923890162744021073123829784752

/-- A point in extended coordinates X, Y, Z, T. -/
structure EdPoint where
  x : Nat
  y : Nat
  z : Nat
  t : Nat
  deriving DecidableEq, Repr

/-- The base point. -/
def edBase : EdPoint :=
  let x := 15112221349535400772501151409588531511454012693041857206046113283949847762202
  let y := 46316835694926478169428394003475163141307993866256225615783033603165251855960
  { x := x, y := y, z := 1, t := x * y % edP }

/-- Difference in the field. -/
def edSub (a b : Nat) : Nat := (a + edP - b % edP) % edP

/-- Sum of two points. -/
def EdPoint.add (p q : EdPoint) : EdPoint :=
  let a := edSub p.y p.x * edSub q.y q.x % edP
  let b := (p.y + p.x) * (q.y + q.x) % edP
  let c := 2 * p.t * q.t % edP * edD % edP
  let d := 2 * p.z * q.z % edP
  let e := edSub b a
  let f := edSub d c
  let g := (d + c) % edP
  let h := (b + a) % edP
  { x := e * f % edP, y := g * h % edP, z := f * g % edP, t := e * h % edP }

/-- Powers in the field over `n` bits of the exponent. -/
def edPow : Nat → Nat → Nat → Nat
  | 0, _, _ => 1
  | n + 1, b, e => let r := edPow n (b * b % edP) (e / 2)
                   if e % 2 = 1 then b * r % edP else r

/-- A multiple of a point over `n` bits of the factor. -/
def EdPoint.mul : Nat → EdPoint → Nat → EdPoint
  | 0, _, _ => { x := 0, y := 1, z := 1, t := 0 }
  | n + 1, p, k => let r := EdPoint.mul n (p.add p) (k / 2)
                   if k % 2 = 1 then p.add r else r

/-- Whether two points are one. -/
def EdPoint.same (p q : EdPoint) : Bool :=
  decide (p.x * q.z % edP = q.x * p.z % edP) && decide (p.y * q.z % edP = q.y * p.z % edP)

/-- The x coordinate of a point by its y coordinate and its sign bit. -/
def edX (y : Nat) (sign : Bool) : Option Nat :=
  let u := edSub (y * y) 1
  let v := (edD * (y * y % edP) + 1) % edP
  let v3 := v * v % edP * v % edP
  let v7 := v3 * v3 % edP * v % edP
  let r := u * v3 % edP * edPow 252 (u * v7 % edP) (2 ^ 252 - 3) % edP
  let w := v * (r * r % edP) % edP
  let x := if w = u then some r else if w = edSub 0 u then some (r * edI % edP) else none
  match x with
  | none => none
  | some r => if r = 0 ∧ sign then none else some (if decide (r % 2 = 1) = sign then r else edP - r)

/-- The point that 32 bytes encode. -/
def edDecode (b : List Byte) : Option EdPoint :=
  let n := leNat b
  let y := n % 2 ^ 255
  if b.length ≠ 32 ∨ y ≥ edP then none
  else (edX y (bitOf n 255)).map (fun x => { x := x, y := y, z := 1, t := x * y % edP })

/-- Whether an Ed25519 signature verifies: key, message, signature (02 R56, R62). RFC 8032 lets the check multiply both sides
by 8 or not, and the spec does not say. MARK: DESIGN CHOICE, safe (assumption 3). -/
def ed25519Verify (key msg sig : List Byte) : Bool :=
  let s := leNat (sig.drop 32)
  match edDecode key, edDecode (sig.take 32) with
  | some a, some r =>
    let k := leNat (sha512 (sig.take 32 ++ key ++ msg)) % edL
    let l := EdPoint.mul 253 edBase s
    let q := r.add (EdPoint.mul 253 a k)
    decide (sig.length = 64) && decide (s < edL) &&
      (if Config.edCofactor then (EdPoint.mul 4 l 8).same (EdPoint.mul 4 q 8) else l.same q)
  | _, _ => false

end Sys2Proof.Machine
end

