-- ==== Sys2Proof/Machine/Image.lean ====
section
/-! DEFINITION. Reading an image: header, section table and the section bodies that the spec lays out (02 R51 to R58), and
the checks of 02 R68. -/
namespace Sys2Proof.Machine

/-- An entry of the section table (02 R52). -/
structure Sect where
  typ : Nat
  ver : Nat := 0
  critical : Bool := false
  off : Nat := 0
  len : Nat := 0
  crc : Nat := 0
  count : Nat := 0
  deriving DecidableEq, Repr, Inhabited

/-- Entry `i` of the section table of an image (02 R52). -/
def sectAt (b : List Byte) (tab i : Nat) : Sect :=
  let o := tab + 32 * i
  { typ := field b o 2, ver := field b (o + 2) 2, critical := bitOf (field b (o + 4) 4) 0, off := field b (o + 8) 4,
    len := field b (o + 12) 4, crc := field b (o + 16) 4, count := field b (o + 20) 4 }

/-- The section table of an image (02 R51, R52). -/
def sections (b : List Byte) : List Sect := (List.range (field b 12 2)).map (sectAt b (field b 40 4))

/-- The body of a section. -/
def Sect.body (s : Sect) (b : List Byte) : List Byte := (b.drop s.off).take s.len

/-- The sections of one type. -/
def sectsOf (l : List Sect) (t : Nat) : List Sect := l.filter (fun s => s.typ = t)

/-- The body of the first section of a type; empty where there is none. -/
def bodyOf (b : List Byte) (l : List Sect) (t : Nat) : List Byte :=
  match sectsOf l t with
  | s :: _ => s.body b
  | [] => []

/-- The COUNT of the first section of a type. -/
def countOf (l : List Sect) (t : Nat) : Nat :=
  match sectsOf l t with
  | s :: _ => s.count
  | [] => 0

/-- A value with the default that a zero selects. -/
def orDefault (v d : Nat) : Nat := if v = 0 then d else v

/-- `n` records of `size` bytes from `off`. -/
def recsAt {α : Type} (b : List Byte) (off size n : Nat) (f : List Byte → α) : List α :=
  (List.range n).map (fun i => f ((b.drop (off + size * i)).take size))

/-- A point word whose bit 31 says whether a point is bound (14 R659, 06 SLOT_PORT). -/
def boundPoint (w : Nat) : Option Nat := if bitOf w 31 then some (w % 2 ^ 20) else none

/-- The point words of a list. -/
def pointWords (b : List Byte) (off n : Nat) : List Nat := recsAt b off 4 n (fun r => leNat r % 2 ^ 20)

/-- An entry of PARTITIONS (05 R198); its point lists stand in the CODE body of the partition. -/
def parsePart (code : Nat → List Byte) (r : List Byte) : PartRec :=
  let p := field r 0 1
  let nin := field r 12 2
  let c := code p
  { part := p, cls := field r 1 1, core := field r 2 1, prio := field r 3 1, runLimit := orDefault (field r 4 1) 8,
    faultLimit := orDefault (field r 5 1) 3, startHalted := bitOf (field r 6 2) 0, entry := field r 8 4,
    inputs := pointWords c (field r 16 4) nin, outputs := pointWords c (field r 16 4 + 4 * nin) (field r 14 2),
    fastOff := field r 20 4, staticBase := field r 24 8, constBase := field r 32 8, stackBase := field r 40 8,
    staticSize := field r 48 4, constSize := field r 52 4, stackSize := field r 56 4, codeBase := Config.codeBase p,
    statics := (Config.parseCode c).1, consts := (Config.parseCode c).2 }

/-- A map entry (08 R415). -/
def parseMap (r : List Byte) : MapRec :=
  { point := field r 0 4 % 2 ^ 20, byte := field r 4 2, bit := field r 6 1, enc := field r 7 1 }

/-- A ring record of RINGS and the length it takes (08 R415). -/
def parseRing (b : List Byte) : RingRec × Nat :=
  let ns := field b 4 2
  let ng := field b 6 2
  let nc := field b 8 2
  let nm := field b 10 2
  let o1 := 64 + 32 * ns
  let o2 := o1 + 16 * ng
  let o3 := o2 + 16 * nc
  ({ ring := field b 0 1, rate := field b 1 1, fec := field b 2 1, hold := orDefault (field b 3 1) 3,
     margin := orDefault (field b 12 2) 500, ethertype := orDefault (field b 14 2) 0x88B5,
     applyOff := orDefault (field b 16 4) 19000, group := field b 20 6, noiseLimit := orDefault (field b 26 1) 20,
     stns := recsAt b 64 32 ns (fun r =>
       { num := field r 0 1, c0 := bitOf (field r 1 1) 0, safeAuto := bitOf (field r 1 1) 1, stopAct := bitOf (field r 1 1) 2,
         dmax := field r 2 2, vendor := field r 4 4, device := field r 8 4, serial := field r 12 8 }),
     segs := recsAt b o1 16 ng (fun r =>
       { station := field r 0 1, kind := field r 1 1, cls := field r 2 1, segId := field r 3 1, frame := field r 4 1,
         offset := field r 6 2, len := field r 8 2, mapFirst := field r 10 2, mapN := field r 12 2 }),
     chans := recsAt b o2 16 nc (fun r =>
       { chan := field r 0 1, station := field r 1 1, cls := field r 2 1, m := field r 4 2 }),
     maps := recsAt b o3 8 nm parseMap }, o3 + 8 * nm)

/-- The ring records of RINGS. -/
def parseRings : Nat → List Byte → List RingRec
  | 0, _ => []
  | n + 1, b => (parseRing b).1 :: parseRings n (b.drop (parseRing b).2)

/-- A record of LOOPGRAPH and the length it takes (06 R308). -/
def parseLoop (b : List Byte) : LoopRec × Nat :=
  let span := field b 3 1
  let ex := field b 4 4
  ({ slot := field b 0 2, law := field b 2 1, span := span, bytes := (b.drop 64).take (1024 * span),
     extra := (b.drop (64 + 1024 * span)).take ex }, 64 + 1024 * span + ex)

/-- The records of LOOPGRAPH. -/
def parseLoops : Nat → List Byte → List LoopRec
  | 0, _ => []
  | n + 1, b => (parseLoop b).1 :: parseLoops n (b.drop (parseLoop b).2)

/-- A record of ACCESS (13 R610). -/
def parseAcc (r : List Byte) : AccRec :=
  { pair := field r 0 1, kind := field r 1 1, part := field r 2 1, bypass := bitOf (field r 3 1) 0,
    slots := recsAt r 32 4 64 (fun w => leNat w % 512),
    regions := recsAt r 288 8 16 (fun w => (field w 0 4 % 2 ^ 28, field w 4 4)) }

/-- LOCALIO (14 R659), defaults selected. -/
def parseLocal (b : List Byte) : LocalSec :=
  { do0Status := boundPoint (field b 0 4), do8Status := boundPoint (field b 4 4), statusClass := field b 8 1,
    sweepS := orDefault (field b 12 2) 60,
    di := recsAt b 32 16 32 (fun r =>
      { value := boundPoint (field r 0 4), status := boundPoint (field r 4 4), filterN := orDefault (field r 8 1) 3,
        cls := field r 9 1, wiring := field r 10 1, rule := field r 11 1, wbEn := bitOf (field r 12 1) 0 }),
    dout := recsAt b 544 16 16 (fun r =>
      { source := boundPoint (field r 0 4), wiring := field r 4 1, pps := bitOf (field r 5 1) 0 }),
    trip := recsAt b 800 16 4 (fun r =>
      { value := boundPoint (field r 0 4), doMask := field r 4 2, aoMask := field r 6 1, rule := orDefault (field r 7 1) 2,
        debMs := orDefault (field r 8 2) 100, wiring := field r 10 1, cls := field r 11 1 }),
    aio := recsAt b 864 32 8 (fun r =>
      { mode := field r 0 1, cls := field r 1 1, wiring := field r 2 1, supply := field r 3 1, modem := field r 4 1,
        range := field r 5 1, point := boundPoint (field r 8 4), tol := orDefault (field r 12 4) 0x3DCCCCCD,
        status := boundPoint (field r 16 4), hartFirst := field r 20 2, hartN := field r 22 1 }),
    hart := recsAt b 1120 24 (field b 10 2) (fun r =>
      { addr := field r 0 1, nvar := field r 1 1, points := recsAt r 8 4 4 (fun w => boundPoint (leNat w)) }) }

/-- A channel record of CAN and the length it takes (15 R688). -/
def parseCanChan (b : List Byte) : CanChan × Nat :=
  let f := field b 1 1
  let nm := field b 12 2
  let rl := field b 2 1
  ({ chan := field b 0 1, oneShot := bitOf f 0, term := bitOf f 1, autoRecover := !bitOf f 2, full0 := bitOf f 3,
     full1 := bitOf f 4, retryLimit := if rl = 0xFF then 15 else rl, tdco := field b 3 1, nbt := field b 4 4,
     dbt := field b 8 4,
     bufs := recsAt b 32 16 64 (fun r =>
       { kind := field r 0 1, cls := field r 1 1, trigger := field r 2 1, xtd := bitOf (field r 3 1) 0,
         fdf := bitOf (field r 3 1) 1, brs := bitOf (field r 3 1) 2, id := field r 4 4, maskOrTrig := field r 8 4,
         dlc := field r 12 1, rxTimeout := field r 13 1, mapFirst := field r 14 1, mapN := field r 15 1 }),
     filters := recsAt b 1056 12 32 (fun r => { id := field r 0 4, mask := field r 4 4, target := field r 8 1 }),
     maps := recsAt b 1440 8 nm parseMap }, 1440 + 8 * nm)

/-- The channel records of CAN. -/
def parseCan : Nat → List Byte → List CanChan
  | 0, _ => []
  | n + 1, b => (parseCanChan b).1 :: parseCan n (b.drop (parseCanChan b).2)

/-- TWIN (09 R422). -/
def parseTwin (b : List Byte) : TwinSec :=
  { homeB := field b 0 1 = 1, noRevert := bitOf (field b 1 1) 0, listenMs := orDefault (field b 2 2) 200,
    revertHoldS := orDefault (field b 4 4) 600, proofDays := orDefault (field b 8 2) 31 }

/-- TIME (10 R509). -/
def parseTime (n : Nat) (b : List Byte) : TimeSec :=
  { stepOk := bitOf (field b 0 1) 0, noWoad := bitOf (field b 0 1) 1, slewPpm := orDefault (field b 1 1) 10,
    lockWaitS := orDefault (field b 2 2) 20, requalS := orDefault (field b 4 2) 10,
    pulseMs := orDefault (field b 6 2) 100, jumpNs := orDefault (field b 8 4) 1000,
    ports := recsAt b 32 16 n (fun r =>
      { port := field r 0 1, off := bitOf (field r 1 1) 0, asymPs := toSigned 32 (field r 4 4), txPs := field r 8 4,
        rxPs := field r 12 4 }) }

/-- LINKS (11 R528). -/
def parseLinks (b : List Byte) : LinksSec :=
  let np := field b 6 2
  let ns := field b 8 2
  let nf := field b 10 2
  { pairId := field b 0 2, topo := field b 2 1, decoupleN := orDefault (field b 3 1) 6,
    ethertype := orDefault (field b 4 2) 0x88B6, closing := field b 12 1,
    pubs := recsAt b 32 16 np (fun r =>
      { pubId := field r 0 2, cls := field r 2 1, outPorts := field r 3 1,
        points := pointWords b (field r 8 4) (field r 4 2) }),
    subs := recsAt b (32 + 16 * np) 16 ns (fun r =>
      { srcPair := field r 0 2, pubId := field r 2 2, cls := field r 4 1, policy := field r 5 1, hops := field r 6 1,
        points := pointWords b (field r 12 4) (field r 8 2) }),
    fwds := recsAt b (32 + 16 * np + 16 * ns) 16 nf (fun r =>
      { srcPair := field r 0 2, pubId := field r 2 2, inPort := field r 4 1, outPorts := field r 5 1 }) }

/-- EVENTS (17 R761). -/
def parseEvents (b : List Byte) : EventsSec :=
  { noMonitor := bitOf (field b 2 1) 0, idleS := orDefault (field b 4 2) 60,
    ports := recsAt b 64 96 2 (fun r =>
      { v4Active := field r 0 4, v4A := field r 4 4, v4B := field r 8 4, v6Active := field r 32 16, v6A := field r 48 16,
        v6B := field r 64 16 }),
    codes := recsAt b 256 8 (field b 0 2) (fun r =>
      { code := field r 0 2, rate := orDefault (field r 2 1) 10, burst := orDefault (field r 3 1) 20,
        clear := field r 4 2, noLimit := bitOf (field r 6 1) 0, keyLen := field r 7 1 }) }

/-- A zero-padded text without its padding. -/
def unpad (b : List Byte) : List Byte := b.takeWhile (fun c => c ≠ 0)

/-- PANEL (18 R766). -/
def parsePanel (b : List Byte) : PanelSec :=
  { name := unpad (b.take 32), texts := recsAt b 64 48 (field b 32 2) (fun r => (field r 0 2, unpad (r.drop 2))) }

/-- HBMKEY (03 R126). -/
def parseHbmKey (b : List Byte) : HbmKey :=
  { m := recsAt b 0 4 5 (fun w => leNat w % 2 ^ 27), k := field b 20 1 % 32 }

/-- STATEMAP after its predecessor identity (02 R92). -/
def parseStateMap (n : Nat) (b : List Byte) : List MapEntry :=
  recsAt b 16 16 n (fun r =>
    { kind := field r 0 1, xform := field r 1 1, old := field r 4 4, new := field r 8 4, span := field r 12 4 })

/-- Owner kinds as `Config.parseSigmap` codes them (assumption 5). -/
def ownerOf (k a b : Nat) : Owner :=
  match k with
  | 1 => .part a
  | 2 => .slot a
  | 3 => .station a b
  | 4 => .di a
  | 5 => .dout a
  | 6 => .trip a
  | 7 => .aio a
  | 8 => .can a b
  | 9 => .link a
  | _ => .unused

/-- Targets as `Config.parseParamdir` codes them (assumption 5). -/
def targetOf (k a b : Nat) : ParamTarget :=
  match k with
  | 0 => .slotWord a b
  | 1 => .partConst a b
  | 2 => .forceSet a
  | _ => .forceClear a

/-- The identity of an image (02 R57). -/
def imageIdent (b : List Byte) : List Byte := (sha512 (b.take (field b 44 4))).take 16

/-- A section of a type and version that the module knows (02 R54, R58). -/
def Sect.known (s : Sect) : Bool := decide (1 ≤ s.typ) && decide (s.typ ≤ 0x15) && Config.knownVersion s.typ s.ver

/-- A number held to a range. MARK: DESIGN CHOICE: a weight or a floor share outside its range acts as the nearest end of it
(assumption 89). -/
def heldTo (lo hi v : Nat) : Nat := min hi (max lo v)

/-- The content of an image (02 R51 to R59); sections that are not known are skipped (02 R54). -/
def parseImg (b : List Byte) : Img :=
  let l := (sections b).filter Sect.known
  let bd := bodyOf b l
  let cn := countOf l
  let codes := (sectsOf l 8).map (fun s => (s.count, s.body b))
  let code := fun p => ((codes.find? (fun c => c.1 = p)).map (fun c => c.2)).getD []
  let isl := Config.parseIslands (bd 1)
  let rt := Config.parseRoutes (bd 2)
  { ident := imageIdent b, factory := bitOf (field b 14 2) 0, hasMap := bitOf (field b 14 2) 1,
    projectId := field b 16 8, build := field b 24 4, compatMin := field b 28 2,
    islands := { domains := isl.1, corePairs := isl.2.1, clusterPairs := isl.2.2 },
    routes := { yx := rt.1, w1 := heldTo 1 15 (orDefault rt.2.1 4), w2 := heldTo 1 15 (orDefault rt.2.2.1 1),
                w3 := heldTo 1 15 (orDefault rt.2.2.2.1 11), floorPct := heldTo 10 50 (orDefault rt.2.2.2.2.1 25),
                shares := rt.2.2.2.2.2 },
    sigmap := (Config.parseSigmap (bd 3)).foldl
      (fun t e => match e with
        | (p, ty, k, a, b', pe, ini) =>
          tset {} t (p % 2 ^ 20) { typ := ty, owner := ownerOf k a b', persist := pe, init := BitVec.ofNat 32 ini }) [],
    classes := Config.parseSchedule (bd 4), rings := parseRings (cn 5) (bd 5), loops := parseLoops (cn 6) (bd 6),
    parts := recsAt (bd 7) 0 64 (cn 7) (parsePart code), code := codes, access := recsAt (bd 9) 0 416 (cn 9) parseAcc,
    localIo := parseLocal (bd 10), can := parseCan (cn 11) (bd 11), time := parseTime (cn 12) (bd 12),
    twin := parseTwin (bd 13), events := parseEvents (bd 14), panel := parsePanel (bd 15), hbmKey := parseHbmKey (bd 16),
    links := parseLinks (bd 17),
    traces := (Config.parseTrace (bd 18)).map
      (fun e => { cluster := e.1, capture := e.2.1, ring := e.2.2.1, base := e.2.2.2.1, size := e.2.2.2.2.1,
                  dest := e.2.2.2.2.2 }),
    params := (Config.parseParamdir (bd 19)).map
      (fun e => { target := targetOf e.1 e.2.1 e.2.2.1, typ := e.2.2.2.1, lo := e.2.2.2.2.1, hi := e.2.2.2.2.2 }),
    mapPred := (bd 20).take 16, map := parseStateMap (cn 20) (bd 20),
    firmware := { stvec := (Config.parseFirmware (bd 21)).1, mtvec := (Config.parseFirmware (bd 21)).2.1,
                  stub := (Config.parseFirmware (bd 21)).2.2 } }

/-- The factory safe image (02 R830). MARK: DESIGN CHOICE: its bytes are not stated, so its identity is empty, its PROJECT_ID, BUILD
and COMPAT_MIN are zero, and of its FIRMWARE STVEC, MTVEC and the completion stub are zero (assumption 111). -/
def factoryImg : Img :=
  { factory := true,
    islands := { domains := [0, 1, 2, 3, 4, 5, 6, 7, 8, 10, 11, 12, 13, 18, 22], corePairs := [0], clusterPairs := [] },
    routes := {},
    sigmap := (List.range 32).map (fun n => (n, { typ := 0, owner := .di n })) ++
      (List.range 4).map (fun n => (32 + n, { typ := 0, owner := .trip n })),
    classes := [5],
    rings := (List.range 16).map (fun n => { ring := n, group := 0x1000191B01 + n * 2 ^ 40 }),
    access := [{ pair := 0 }],
    localIo := {
      di := (List.range 32).map (fun n => { value := some n, cls := 5, wiring := 2 }),
      dout := (List.range 16).map (fun _ => {}),
      trip := (List.range 4).map (fun n => { value := some (32 + n), doMask := 0xFFFF, aoMask := 0xFF, wiring := 2, cls := 5 }),
      aio := (List.range 8).map (fun _ => {}) },
    events := { ports := [{}, {}] },
    panel := { name := [0x46, 0x41, 0x43, 0x54, 0x4F, 0x52, 0x59, 0x20, 0x53, 0x41, 0x46, 0x45, 0x20, 0x49, 0x4D, 0x41, 0x47,
      0x45] },
    hbmKey := { m := (List.range 5).map (fun i => 2 ^ i + 2 ^ (i + 5) + 2 ^ (i + 10) + 2 ^ (i + 15) + 2 ^ (i + 20) +
      (if i + 25 < 27 then 2 ^ (i + 25) else 0)), k := 0 } }

end Sys2Proof.Machine
end

