-- ==== Sys2Proof/Machine/ImageCheck.lean ====
section
/-! DEFINITION. The checks of an image (02 R50 to R69): container, signature, content. -/
namespace Sys2Proof.Machine

/-! ## Container (02 R50 to R59) -/

/-- How often a section type may appear: least and most, in an ordinary image (02 R58). -/
def ordinaryCount (typ : Nat) : Nat × Nat :=
  match typ with
  | 8 => (0, 256)
  | 0x0B => (0, 1)
  | 0x11 => (0, 1)
  | 0x12 => (0, 1)
  | 0x14 => (0, 1)
  | _ => (1, 1)

/-- How often a section type may appear in a factory safe image (02 R59). -/
def factoryCount (typ : Nat) : Nat × Nat :=
  if [1, 2, 3, 4, 5, 0x0A, 0x0C, 0x0D, 9, 0x0E, 0x0F, 0x10, 0x15].contains typ then (1, 1) else (0, 0)

/-- Multiplicities (02 R58, R59). -/
def countsHold (factory : Bool) (l : List Sect) : Bool :=
  (List.range 0x15).all (fun i =>
    let n := (sectsOf l (i + 1)).length
    let m := if factory then factoryCount (i + 1) else ordinaryCount (i + 1)
    decide (m.1 ≤ n) && decide (n ≤ m.2))

/-- Bodies lie in ascending order from `pos` to `stop` without overlap; the bytes between two bodies are zero, `mid` says that one
stands before `pos` (02 R52, R53). -/
def bodiesOk (b : List Byte) (stop : Nat) : Bool → Nat → List Sect → Bool
  | _, pos, [] => decide (pos ≤ stop)
  | mid, pos, s :: t =>
    decide (s.off % 64 = 0) && decide (pos ≤ s.off) && (!mid || ((b.drop pos).take (s.off - pos)).all (fun x => x = 0)) &&
      bodiesOk b stop true (s.off + s.len) t

/-- Whether a signature is accepted, and by which key slot (02 R62, R67). -/
def signedBy (keys : List KeySlot) (factory : Bool) (b : List Byte) : Option Nat :=
  let o := field b 44 4
  let signer := (b.drop (o + 8)).take 32
  let sig := (b.drop (o + 40)).take 64
  let ok := decide ((b.drop o).take 4 = [0x45, 0x53, 0x49, 0x47]) && decide (field b (o + 4) 2 = 1) &&
    ed25519Verify signer (b.take o) sig
  if factory then (if decide (signer = Config.factoryKey) && ok then some 0 else none)
  else if keys.any (fun k => decide (k.st = .revoked) && decide (k.key = signer)) then none
  else if ok then (List.range 4).find? (fun n => decide (((keys[n]?).getD {}).st = .enabled) &&
    decide (((keys[n]?).getD {}).key = signer))
  else none

/-! ## Content (02 R69) -/

/-- A point that SIGMAP marks unused. -/
def Img.unusedPt (i : Img) (p : Nat) : Bool := decide ((i.point p).owner = .unused)

/-- Input entries of the input segments of a ring, with their station. -/
def RingRec.inputs (r : RingRec) : List (Nat × MapRec) :=
  (r.segs.filter (fun g => g.kind = 2)).flatMap (fun g => (g.entries r).map (fun m => (g.station, m)))

/-- Input entries of the receive buffers of a CAN channel, with their buffer. -/
def CanChan.inputs (c : CanChan) : List (Nat × MapRec) :=
  (c.bufs.zipIdx.filter (fun b => b.1.kind = 1)).flatMap (fun b => (b.1.entries c).map (fun m => (b.2, m)))

/-- Output entries of the transmit buffers of a CAN channel. -/
def CanChan.outputs (c : CanChan) : List MapRec := (c.bufs.filter (fun b => b.kind = 2)).flatMap (fun b => b.entries c)

/-- The bindings of local channels with the owner that SIGMAP must give (14 R660): point, whether an owner fits. -/
def LocalSec.bindings (l : LocalSec) : List (Nat × (Owner → Bool)) :=
  let opt := fun (o : Option Nat) (f : Owner → Bool) => match o with
    | some p => [(p, f)]
    | none => []
  (l.di.zipIdx.flatMap (fun e => opt e.1.value (fun w => w = .di e.2) ++ opt e.1.status (fun w => w = .di e.2))) ++
  (l.trip.zipIdx.flatMap (fun e => opt e.1.value (fun w => w = .trip e.2))) ++
  (l.aio.zipIdx.flatMap (fun e => opt e.1.point (fun w => w = .aio e.2) ++ opt e.1.status (fun w => w = .aio e.2) ++
    (if e.1.hartN = 0 then [] else ((l.hart.drop e.1.hartFirst).take e.1.hartN).flatMap (fun d =>
      d.points.flatMap (fun p => opt p (fun w => w = .aio e.2)))))) ++
  opt l.do0Status (fun w => match w with
    | .dout n => n < 8
    | _ => false) ++
  opt l.do8Status (fun w => match w with
    | .dout n => decide (8 ≤ n)
    | _ => false)

/-- Words of a LOOPGRAPH record as its window holds them (06 R308, R309). -/
def LoopRec.rd (r : LoopRec) : Nat → Nat := fun o => if o < 1024 * r.span then field r.bytes o 4 else 0

/-- Slots that a law occupies (06 R245). -/
def lawSpan (law : Nat) : Nat :=
  match law with
  | 2 => 2
  | 5 => 4
  | _ => 1

/-- Types that a port takes, by law and port (06 R251, R280, R282, R289, R296, R299); none for a port that the law lacks.
Numeric inputs take BOOL, INT32, UINT32 and REAL32. -/
def portTypes (law port : Nat) : List Nat :=
  let num := [0, 2, 3, 4]
  if port = 15 then [1] else
  match law, port with
  | 1, 0 => num
  | 1, 1 => num
  | 1, 2 => num
  | 1, 3 => num
  | 1, 4 => [0]
  | 1, 5 => num
  | 1, 8 => [4]
  | 2, 0 => [2, 3]
  | 2, 1 => [2]
  | 2, 2 => num
  | 2, 3 => num
  | 2, 4 => num
  | 2, 5 => num
  | 2, 6 => [0]
  | 2, 7 => num
  | 2, 8 => [4]
  | 2, 9 => [4]
  | 2, 10 => [4]
  | 2, 11 => [0]
  | 3, 0 => [2, 3]
  | 3, 8 => [2]
  | 3, 9 => [4]
  | 3, 10 => [4]
  | 3, 11 => [4]
  | 4, 8 => [4]
  | 4, 9 => [4]
  | 5, 0 => num
  | 5, 1 => num
  | 5, 2 => num
  | 5, 3 => num
  | 5, 5 => num
  | 5, 8 => [4]
  | 5, 9 => [4]
  | 5, 10 => [4]
  | 5, 11 => [4]
  | _, _ => []

/-- Ports of a record obey R251. -/
def Img.portsOk (i : Img) (r : LoopRec) : Bool :=
  (List.range 16).all (fun n =>
    let w := r.rd (0x40 + 4 * n)
    let p := w % 2 ^ 20
    !bitOf w 31 || ((portTypes r.law n).contains (i.point p).typ && (decide (n < 8) || decide ((i.point p).owner = .slot r.slot))))

/-- M of the stream channel of a FILT record, and its class (06 R296, 08 R409, R411). -/
def Img.streamOf (i : Img) (rd : Nat → Nat) : Option ChanRec :=
  (i.ring? (rd 0x080)).bind (fun r => r.chans.find? (fun c => c.chan = rd 0x084))

/-- Cost of a sample: phase P, phase M, total (06 R302). -/
def Img.cost (i : Img) (r : LoopRec) : Nat × Nat × Nat :=
  match r.law with
  | 1 => (200, 800, 1000)
  | 2 => (2100, 2900, 5000)
  | 3 => (0, 1500, 1500)
  | 4 =>
    let m := ((i.streamOf r.rd).map (fun c => c.m)).getD 0
    let c := 100 + (8 + 8 * r.rd 0x088) * m
    (0, c, c)
  | 5 => (1000, 2000, 3000)
  | _ => (0, 0, 0)

/-- The law code that SLOT_CFG of the head slot gives (06 R306): the one that the law runs by. -/
def LoopRec.cfgLaw (r : LoopRec) : Nat := r.rd 0 % 8

/-- The law codes that SLOT_CFG of the extension slots gives (06 R245, R306). -/
def LoopRec.extLaws (r : LoopRec) : List Nat := (List.range (r.span - 1)).map (fun k => r.rd (1024 * (k + 1)) % 8)

/-- The reserved costs of a cluster pair: C0 phase P, C0 phase M, 128 times the sum of cost ÷ 2^k (06 R303). -/
def Img.pairCost (i : Img) (pair : Nat) : Nat × Nat × Nat :=
  (i.loops.filter (fun r => decide (r.slot / 1024 = pair))).foldl (fun a r =>
    let c := i.cost r
    let z := decide (r.cls = 0)
    (a.1 + (if z then c.1 else 0), a.2.1 + (if z then c.2.1 else 0), a.2.2 + c.2.2 * 2 ^ (7 - r.cls))) (0, 0, 0)

/-- Slots of the loop graph. -/
def Img.slotsUsed (i : Img) : List Nat := i.loops.flatMap (fun r => (List.range (lawSpan r.law)).map (fun k => r.slot + k))

/-- No entry repeats. -/
def noDup (l : List Nat) : Bool := decide ((dedupN l).length = l.length)

/-- HBM ranges of a partition (05 R198): base and size; the undo journal follows the static region and has its size. -/
def PartRec.ranges (r : PartRec) : List (Nat × Nat) :=
  [(r.staticBase, 2 * r.staticSize), (r.constBase, r.constSize), (r.stackBase, r.stackSize)]

/-- Whether a partition region overlaps a reserved range. -/
def Img.overlaps (i : Img) (base size : Nat) : Bool :=
  i.parts.any (fun r => r.ranges.any (fun e => decide (e.2 ≠ 0) && decide (e.1 < base + size) && decide (base < e.1 + e.2)))

/-- Bytes of the largest burst of a ring on the medium, 20 bytes of gap with each frame (08 R362, R367, R368, R391). The load of
a ring is this burst against 60 % of what the line carries in one C0 period. MARK: DESIGN CHOICE: 01 R49 limits the load of the
ring schedule and does not say over which time it is taken (assumption 69). -/
def RingRec.burst (r : RingRec) : Nat :=
  let frames := dedupN (r.segs.map (fun g => g.frame))
  let one := fun (f : Nat) =>
    let ext := (r.segs.filter (fun g => g.frame = f)).foldl (fun a g => max a (g.offset + 10 + g.len)) 0
    max 64 (14 + 24 + ext + 4) + 20
  if frames = [] then 84 else (frames.map one).foldl (fun a b => a + b) 0

/-- Line rate in bit/ns (08 RATE). -/
def RingRec.gbps (r : RingRec) : Nat := if r.rate = 3 then 10 else 25

/-- An encoding fits a point type (08 R370, R371). -/
def encFits (enc typ : Nat) : Bool :=
  match enc with
  | 0 => decide (typ = 0)
  | 1 => decide (typ = 3)
  | 2 => decide (typ = 2)
  | 3 => decide (typ = 3)
  | 4 => decide (typ = 2)
  | 5 => decide (typ = 1) || decide (typ = 2) || decide (typ = 3)
  | 6 => decide (typ = 4)
  | 7 => decide (typ = 2)
  | 8 => true
  | _ => false

/-- Bytes that an entry takes in a payload. -/
def MapRec.extent (m : MapRec) : Nat := m.byte + max 1 (encBytes m.enc)

/-- The lengths of the stream segments of a channel of `m` samples (08 R409). -/
def streamLens : Nat → Nat → List Nat
  | 0, _ => []
  | n + 1, m => if m = 0 then [] else if m ≤ 649 then [3 * m] else (3 * 649) :: streamLens n (m - 649)

/-- The stream segments of a channel are all listed, with consecutive SEG_ID (08 R409). -/
def RingRec.streamOk (r : RingRec) (k : Nat) (c : ChanRec) : Bool :=
  let l := sortBy (fun (g : SegRec) => g.segId) (r.segs.filter (fun g => decide (g.kind = 3) && decide (g.mapFirst = k)))
  decide (1 ≤ c.m) && decide (c.m ≤ 4096) && decide (l.map (fun g => g.len) = streamLens 7 c.m) &&
    l.zipIdx.all (fun e => decide (e.1.segId = ((l.map (fun g => g.segId)).headD 0) + e.2) && decide (e.1.cls = c.cls) &&
      decide (e.1.station = c.station))

/-- The segment layout of a ring obeys R416 and R368. -/
def RingRec.layoutOk (r : RingRec) : Bool :=
  r.segs.zipIdx.all (fun e =>
    let g := e.1
    decide (g.offset + 10 + g.len ≤ 1958) &&
    (decide (g.kind = 3) || (g.entries r).all (fun m => decide (m.extent ≤ g.len))) &&
    r.segs.zipIdx.all (fun f => decide (f.2 ≤ e.2) || decide (f.1.frame ≠ g.frame) ||
      decide (g.offset + 10 + g.len ≤ f.1.offset) || decide (f.1.offset + 10 + f.1.len ≤ g.offset))) &&
  noDup ((r.inputs.filter (fun m => m.2.enc ≠ 8)).map (fun m => m.2.point))

/-- CAN fields lie in their ranges and bit rates in theirs (15 R664, R665). -/
def CanChan.timingOk (c : CanChan) : Bool :=
  let p := bitsOf c.nbt 0 8 + 1
  let s1 := bitsOf c.nbt 8 8 + 1
  let s2 := bitsOf c.nbt 16 7 + 1
  let j := bitsOf c.nbt 23 7 + 1
  let dp := bitsOf c.dbt 0 5 + 1
  let d1 := bitsOf c.dbt 8 5 + 1
  let d2 := bitsOf c.dbt 16 4 + 1
  let dj := bitsOf c.dbt 24 4 + 1
  let n := p * (1 + s1 + s2)
  let d := dp * (1 + d1 + d2)
  decide (2 ≤ s1) && decide (2 ≤ s2) && decide (j ≤ s2) && decide (dj ≤ d2) && decide (c.tdco ≤ 127) &&
    decide (80 ≤ n) && decide (n ≤ 8000) && decide (d ≤ n) && decide (10 ≤ d)

/-- Coupling deadline of a class in ns (11 R520). -/
def couplingNs (k : Nat) : Nat := 15625 * 2 ^ k

/-- Group 1, ownership (02 R69): label of the first condition that fails. -/
def Img.group1 (i : Img) : Option Nat :=
  if i.rings.any (fun r => r.inputs.any (fun e => !i.unusedPt e.2.point &&
      decide ((i.point e.2.point).owner ≠ .station r.ring e.1))) then some 40
  else if i.rings.any (fun r => r.inputs.any (fun e => i.unusedPt e.2.point)) ||
      i.loops.any (fun r => (List.range 8).any (fun n => bitOf (r.rd (0x60 + 4 * n)) 31 &&
        i.unusedPt (r.rd (0x60 + 4 * n) % 2 ^ 20))) ||
      i.localIo.bindings.any (fun e => i.unusedPt e.1) || i.can.any (fun c => c.inputs.any (fun m => i.unusedPt m.2.point)) ||
      i.links.subs.any (fun u => u.points.any i.unusedPt) then some 139
  else if i.localIo.bindings.any (fun e => !e.2 (i.point e.1).owner) then some 660
  else if i.can.any (fun c => c.inputs.any (fun m => (i.point m.2.point).owner ≠ .can c.chan m.1)) then some 671
  else if i.links.subs.zipIdx.any (fun e => e.1.points.any (fun p => (i.point p).owner ≠ .link e.2)) then some 519
  else if i.links.subs.any (fun e => decide (e.srcPair = i.links.pairId) &&
      i.links.pubs.any (fun p => decide (p.pubId = e.pubId) && decide (p.cls ≠ e.cls))) then some 519
  else none

/-- Group 2, data-plane writes (02 R69). -/
def Img.group2 (i : Img) : Option Nat := if i.traces.any (fun t => t.dest.isSome) then some 28 else none

/-- Group 3, loop graph and reserved memory (02 R69): label, and the head slot for label 251. -/
def Img.group3 (i : Img) : Option (Nat × Nat) :=
  let u := i.slotsUsed
  if i.loops.any (fun r => !([0, 1, 2, 3, 4, 5, 7].contains r.law) || decide (r.cfgLaw ≠ r.law) || r.extLaws.any (fun n => n = 6) ||
      decide (r.slot % lawSpan r.law ≠ 0) || decide (r.cls > 7) || decide (r.span ≠ lawSpan r.law)) || !noDup u || u.any (fun n =>
          16383 < n) then some (245, 0)
  else if (List.range 16).any (fun p => decide ((u.filter (fun n => n / 1024 = p)).length > 1024)) then some (47, 0)
  else match i.loops.find? (fun r => !i.portsOk r) with
    | some r => some (251, r.slot)
    | none =>
      if (List.range 16).any (fun p =>
          let c := i.pairCost p
          decide (c.1 > 2457600) || decide (c.2.1 > 1228800) || decide (c.2.2 > 128 * 4320000)) then some (303, 0)
      else if i.loops.any (fun r => !regionsOk r.rd) then some (311, 0)
      else if i.loops.any (fun r => decide (r.law = 4) && decide (((i.streamOf r.rd).map (fun c => c.cls)) ≠ some r.cls)) then
        some (411, 0)
      else if i.overlaps 0x07F0000000 0x10000000 then some (290, 0)
      else if i.overlaps 0x07E0000000 0x10000000 then some (349, 0)
      else if i.overlaps 0x07DC000000 0x4000000 then some (750, 0)
      else none

/-- Group 4, rings, links and interfaces (02 R69). MARK: DESIGN CHOICE for the label of a ring with too many stations, which no
rule numbers: 416, the layout of the station list (assumption 70). -/
def Img.group4 (i : Img) : Option Nat :=
  if i.rings.any (fun r => decide (8 * r.burst > 18750 * r.gbps)) then some 49
  else if i.rings.any (fun r => decide (r.stns.length > 250) || decide ((r.stns.filter (fun s => s.c0)).length > 64)) then some 416
  else if i.rings.any (fun r => r.segs.any (fun g => decide (g.kind ≠ 3) && (g.entries r).any (fun m =>
      !encFits m.enc (i.point m.point).typ || (decide (m.enc = 8) && decide (g.kind ≠ 2))))) ||
      i.can.any (fun c => c.maps.any (fun m => !encFits m.enc (i.point m.point).typ) || c.outputs.any (fun m => m.enc = 8)) then
      some 371
  else if i.rings.any (fun r => decide (8 * r.burst + r.gbps * (200 + (r.stns.foldl (fun a s => a + s.dmax) 0) + r.margin) >
      18000 * r.gbps)) then some 396
  else if i.rings.any (fun r => r.chans.zipIdx.any (fun e => !r.streamOk e.2 e.1)) then some 409
  else if i.rings.any (fun r => !r.layoutOk) then some 416
  else if i.links.subs.any (fun u => decide (u.hops * 1200 > couplingNs u.cls)) then some 524
  else if i.can.any (fun c => !c.timingOk) then some 665
  else if i.can.any (fun c => c.bufs.any (fun b => decide (b.kind ≠ 0) && decide (b.cls < 2))) then some 667
  else if i.localIo.aio.any (fun a => decide (a.mode ≠ 0) && (decide (a.cls < 2) || decide (a.hartN > 15))) then some 660
  else if !noDup (i.events.codes.map (fun c => c.code)) ||
      i.events.codes.any (fun c => decide (c.code / 4096 = 15) || (decide (c.clear / 4096 = 15) && decide (c.clear ≠ 0xFFFF)) ||
        decide (c.keyLen > 16)) || decide (i.events.idleS < 10) || decide (i.events.idleS > 3600) ||
      i.events.ports.any (fun p => !noDup ([p.v4Active, p.v4A, p.v4B].filter (fun a => a ≠ 0)) ||
        !noDup ([p.v6Active, p.v6A, p.v6B].filter (fun a => a ≠ 0))) then some 762
  else if !noDup (i.panel.texts.map (fun t => t.1)) ||
      i.panel.texts.any (fun t => t.2.any (fun c => decide (c.toNat < 0x20) || decide (c.toNat > 0x7E))) then some 766
  else none

/-- Analogue channels that use a modem: 1 and 2 name the modems. -/
def LocalSec.onModem (l : LocalSec) (m : Nat) : List AioRec :=
  l.aio.filter (fun a => decide (a.mode ≠ 0) && decide (a.modem = m))

/-- No two claims of TRACE take the same memory (02 R69). -/
def claimsApart : List TraceClaim → Bool
  | [] => true
  | c :: t => t.all (fun d => decide (c.size = 0) || decide (d.size = 0) || decide (c.base + c.size ≤ d.base) ||
      decide (d.base + d.size ≤ c.base)) && claimsApart t

/-- Group 5, resource claims (02 R69, 14 R652, R660). -/
def Img.group5 (i : Img) : Option Nat :=
  let l := i.localIo
  if !noDup (i.traces.map (fun t => t.cluster)) || !claimsApart i.traces then some 652
  else if l.aio.any (fun a => decide (a.wiring = 2) && ((decide (a.mode = 1) && decide (a.supply = 1)) || decide (a.mode = 3))) ||
      [1, 2].any (fun m => decide ((l.onModem m).length > 1) && (l.onModem m).any (fun a => a.mode = 3)) ||
      (match l.dout[15]? with
       | some d => d.pps && d.source.isSome
       | none => false) then some 660
  else none

/-- A region of a record obeys R611, whether or not it is enabled. -/
def regionOk (e : Nat × Nat) : Bool :=
  let size := bitsOf e.2 16 6
  decide (12 ≤ size) && decide (size ≤ 40) && decide ((e.1 * 4096) % 2 ^ size = 0)

/-- Classes that loops, segments, stream channels, CAN buffers, publications and subscriptions name (02 R69). -/
def Img.classesNamed (i : Img) : List Nat :=
  i.loops.map (fun r => r.cls) ++ i.rings.flatMap (fun r => r.segs.map (fun g => g.cls) ++ r.chans.map (fun c => c.cls)) ++
    i.can.flatMap (fun c => (c.bufs.filter (fun b => b.kind ≠ 0)).map (fun b => b.cls)) ++ i.links.pubs.map (fun p => p.cls) ++
    i.links.subs.map (fun u => u.cls)

/-- Group 6, partitions, access and domains (02 R69). MARK: DESIGN CHOICE for the label of the conditions on partitions that no
rule numbers: 69 (assumption 70). -/
def Img.group6 (i : Img) : Option Nat :=
  if i.parts.any (fun r => decide ((i.code.filter (fun c => c.1 = r.part)).length ≠ 1) ||
      !i.islands.corePairs.contains r.core || !i.classes.contains r.cls) ||
      i.classesNamed.any (fun k => !i.classes.contains k) || i.access.any (fun a => !i.islands.corePairs.contains a.pair) then some 69
  else if (List.range 32).any (fun c => decide ((i.parts.filter (fun r => r.core = c)).length > 64)) then some 197
  else if i.islands.corePairs.any (fun c => decide ((i.access.filter (fun a => decide (a.pair = c) && decide (a.kind =
      0))).length ≠ 1)) ||
      i.parts.any (fun r => decide ((i.access.filter (fun a => decide (a.kind = 1) && decide (a.part = r.part) &&
        decide (a.pair = r.core))).length ≠ 1)) ||
      i.access.any (fun a => a.regions.any (fun e => !regionOk e) || (a.slots.drop 55).any (fun w => w ≠ 0)) then some 611
  else
    let must := if i.factory then [0, 1, 2, 6, 7, 8, 18, 22] else [0, 1, 2, 6, 7, 8, 18, 20, 21, 22]
    let extra := [3, 4, 5, 10, 11, 12, 13]
    if must.any (fun d => !i.islands.domains.contains d) ||
        (i.factory && i.islands.domains.any (fun d => !must.contains d && !extra.contains d)) then some 691
    else none

/-- Group 7, change-set targets (02 R69): a slot parameter that 06 R307 or 07 R311 marks as a target. MARK: DESIGN CHOICE for the
label, which no rule numbers: 69 (assumption 70). -/
def Img.group7 (i : Img) : Option Nat :=
  if i.params.any (fun p => match p.target with
      | .slotWord s o => !i.loops.any (fun r => decide (r.slot = s) && changeable r.rd o)
      | .partConst p o => match i.part? p with
        | some r => decide (r.constSize < o + 4)
        | none => true
      | .forceSet p => i.unusedPt p
      | .forceClear p => i.unusedPt p) then some 69
  else none

/-- Bytes of retained memory: the static regions of the partitions, one after another in the order of PARTITIONS. MARK: DESIGN
CHOICE: 02 R92 gives KIND 4 a byte offset and not what it counts from (assumption 71). -/
def retainedSize : List PartRec → Nat
  | [] => 0
  | r :: t => r.staticSize + retainedSize t

/-- The address of a byte of retained memory. -/
def retainedAddr : List PartRec → Nat → Option Nat
  | [], _ => none
  | r :: t, o => if o < r.staticSize then some (r.staticBase + o) else retainedAddr t (o - r.staticSize)

/-- An object of the target image that a state-map entry names exists (02 R92). -/
def Img.hasObject (i : Img) (e : MapEntry) (k : Nat) : Bool :=
  match e.kind with
  | 1 => !i.unusedPt (e.new + k)
  | 2 => !i.unusedPt (e.new + k)
  | 3 => i.slotsUsed.contains (e.new + k)
  | 4 => decide (e.new + k < retainedSize i.parts)
  | 5 => !i.unusedPt (e.new + k)
  | _ => false

/-- Group 8, state map (02 R69, R94). MARK: DESIGN CHOICE for the label of the conditions that no rule numbers: 69
(assumption 70). -/
def Img.group8 (i : Img) (mapped : Bool) : Option Nat :=
  if i.hasMap && !mapped then some 69
  else if i.map.any (fun e => if e.kind = 4 then decide (e.new + e.span > retainedSize i.parts)
      else (List.range e.span).any (fun k => !i.hasObject e k)) then some 69
  else if i.map.any (fun e => decide (e.xform > 2) || (decide (e.xform = 1) && (decide (e.kind = 3) || decide (e.kind = 4)))) then
    some 94
  else none

/-- Event data of a failed content rule (02 R69): rule, label as a 16-bit value, the head slot for label 251. -/
def contentData (rule label : Nat) (slot : Option Nat) : List Byte :=
  le 4 rule ++ le 2 label ++ (match slot with
    | some n => le 2 n
    | none => [])

/-- Check 8 (02 R69): data of event 0x1008 for the first condition that fails. -/
def Img.content (i : Img) (mapped : Bool) : Option (List Byte) :=
  match i.group1, i.group2, i.group3 with
  | some l, _, _ => some (contentData 1 l none)
  | none, some l, _ => some (contentData 2 l none)
  | none, none, some (l, n) => some (contentData 3 l (if l = 251 then some n else none))
  | none, none, none =>
    match i.group4, i.group5, i.group6 with
    | some l, _, _ => some (contentData 4 l none)
    | none, some l, _ => some (contentData 5 l none)
    | none, none, some l => some (contentData 6 l none)
    | none, none, none =>
      match i.group7, i.group8 mapped with
      | some l, _ => some (contentData 7 l none)
      | none, some l => some (contentData 8 l none)
      | none, none => none

/-- What the checks of an image yield: the event and its data, or the key slot that accepted it (02 R68). -/
inductive Checked where
  | bad (code : Nat) (data : List Byte)
  | good (keySlot : Nat)
  deriving DecidableEq, Repr, Inhabited

/-- The checks after the header's, over the whole image (02 R68). MARK: DESIGN CHOICE: a section of a known type with a TYPE_VER
that the module does not know, skipped by 02 R54, still counts in the multiplicities of check 4 and as the STATEMAP of check 8
(assumption 72). -/
def checkBody (keys : List KeySlot) (compat : Nat) (b : List Byte) : Checked :=
  let l := sections b
  let tab := field b 40 4
  let n := field b 12 2
  let sig := field b 44 4
  let factory := bitOf (field b 14 2) 0
  let i := parseImg b
  if tab + 32 * n > sig ∨ n = 0 ∨ n > 512 ∨ !bodiesOk b sig false (tab + 32 * n) l ∨ !countsHold factory l then .bad 0x1004 []
  else if l.any (fun s => decide (crc32c (s.body b) ≠ s.crc)) then .bad 0x1005 []
  else match signedBy keys factory b with
    | none => .bad 0x1006 []
    | some k =>
      if field b 7 1 ≠ 1 ∨ field b 28 2 > compat ∨ l.any (fun s => s.critical && !s.known) then .bad 0x1007 []
      else match i.content (decide (sectsOf l 0x14 ≠ [])) with
        | some d => .bad 0x1008 d
        | none => .good k

/-- The checks of R68 over the image at `base` of the flash. -/
def checkImage (flash : Memory) (base : Nat) (keys : List KeySlot) (compat : Nat) : Checked :=
  let h := Memory.readN flash base 64
  let len := field h 8 4
  if h.take 4 ≠ [0x45, 0x56, 0x54, 0x48] ∨ field h 4 2 ≠ 64 then .bad 0x1001 []
  else if crc32c (h.take 60) ≠ field h 60 4 then .bad 0x1002 []
  else if len > 268435456 ∨ len < 128 ∨ field h 44 4 + 128 ≠ len then .bad 0x1003 []
  else checkBody keys compat (Memory.readN flash base len)

/-- Start of a profile slot in the flash (03 R135). -/
def slotBase (n : Nat) : Nat := 0x10000000 + n * 0x10000000

end Sys2Proof.Machine
end

