-- ==== Sys2Proof/Machine/Profile.lean ====
section
/-! DEFINITION. Profile slots, the choice of profile, key records (02 R61 to R76, R105; 17 R738). -/
namespace Sys2Proof.Machine

/-- A profile slot that no write may touch: the running one, the target of a handover in progress (02 R71). -/
def State.slotHeld (s : State) (n : Nat) : Bool :=
  (s.img.isSome && !s.on F.IMG_STATUS_FACTORY && decide (s.get F.IMG_STATUS_RUN_SLOT = n)) ||
  (decide (s.nv.hoState ≠ 0) && decide (s.nv.hoTarget = n))

/-- A chunk of an image is written to a profile slot, which is WRITING (02 R70, R71, 17 R738). -/
def State.profileChunk (s : State) (slot off : Nat) (data : List Byte) : Answer :=
  if s.slotHeld slot then s.refused 0
  else if data.length > 1024 ∨ off + data.length > 268435456 then s.status 7
  else
    let s1 := { s with flash := Memory.writeN s.flash (slotBase slot + off) data }
    ((s1.inNv fun v => { v with slots := setAt v.slots slot (fun _ => { st := 1 }) }).showNv).ok []

/-- PROFILE_CHUNK (02 R70, R71, 17 R738). -/
def execProfileChunk (ses : Fin 16) (req : Nat) (slot : Fin 4) (off : Nat) (data : List Byte) (s : State) : Res :=
  .next (s.request ses req 5 true false (fun s => s.profileChunk slot.val off data))

/-- FINISH: the checks start; the slot stays WRITING until they complete, and its journal is empty (02 R70, R90). -/
def State.profileFinish (s : State) (slot : Nat) : Answer :=
  if s.slotHeld slot then s.refused 0
  else
    let s1 := { s with flash := Memory.erase s.flash (journalBase slot) 16777216 }
    ((s1.inNv fun v => { v with slots := setAt v.slots slot (fun _ => { st := 1 }) }).showNv).ok []

/-- PROFILE_FINISH (02 R70, 17 R738). -/
def execProfileFinish (ses : Fin 16) (req : Nat) (slot : Fin 4) (s : State) : Res :=
  .next (s.request ses req 5 true false (fun s => s.profileFinish slot.val))

/-- A check refuses an image: its event, LAST_FAIL (02 R68, Registers). -/
def State.checkFailed (s : State) (code : Nat) (data : List Byte) : State :=
  (s.put F.IMG_STATUS_LAST_FAIL code).raise code islFlash data

/-- IMAGE_CHECK_DONE (02 R68 to R70): the slot being written is marked VALID, with its key slot and length, or INVALID. -/
def execImageCheckDone (slot : Fin 4) (s : State) : Res :=
  .next (if ((s.nv.slots[slot.val]?).getD {}).st ≠ 1 then s else
    match checkImage s.flash (slotBase slot.val) s.nv.keys s.nv.compat with
    | .bad code data =>
      ((s.inNv fun v => { v with slots := setAt v.slots slot.val (fun _ => { st := 3 }) }).showNv).checkFailed code data
    | .good k =>
      let len := leNat (Memory.readN s.flash (slotBase slot.val + 8) 4)
      (s.inNv fun v => { v with slots := setAt v.slots slot.val (fun _ =>
        { st := 2, keySlot := k, lenMib := (len + 1048575) / 1048576 }) }).showNv)

/-! ## The choice of profile (02 R73 to R76, R105) -/

/-- A choice is recorded: persistent, which clears the volatile one, or volatile (02 R74, R75). -/
def State.choose (s : State) (c : Choice) (persist : Bool) : State :=
  if persist then { s with nv := { s.nv with choice := some c }, keep := { s.keep with choice := none } }
  else { s with keep := { s.keep with choice := some c } }

/-- Both choices are removed (02 R75, IMG_SEL). -/
def State.unchoose (s : State) : State :=
  { s with nv := { s.nv with choice := none }, keep := { s.keep with choice := none } }

/-- PROFILE_SELECT (02 R74 to R76): a slot, or the factory safe image where none is named. -/
def execProfileSelect (ses : Fin 16) (req : Nat) (slot : Option (Fin 4)) (persist : Bool) (s : State) : Res :=
  .next (s.request ses req 5 true false (fun s =>
    (s.choose (match slot with
      | some n => .slot n.val
      | none => .factory) persist).ok []))

/-- PROFILE_CLEAR (02 R75). -/
def execProfileClear (ses : Fin 16) (req : Nat) (s : State) : Res :=
  .next (s.request ses req 5 true false (fun s => s.unchoose.ok []))

/-- SEL_SET (02 R105, IMG_SEL): the choice that IMG_SEL names is recorded. -/
def State.selSet (s : State) : State :=
  s.choose (if s.on F.IMG_SEL_SEL_FACTORY then .factory else .slot (s.get F.IMG_SEL_SEL_SLOT)) (s.on F.IMG_SEL_SEL_PERSIST)

/-- SEL_SET (02 R105). -/
def execSelSet (s : State) : Res := .next s.selSet

/-- SEL_CLEAR (02 R105). -/
def execSelClear (s : State) : Res := .next s.unchoose

/-! ## Key records (02 R61 to R66) -/

/-- The message that a key record's signature covers: magic, action, target slot, key (02 R63, assumption 3). -/
def KeyRecord.message (r : KeyRecord) : List Byte :=
  [0x45, 0x4B, 0x45, 0x59] ++ le 1 (if r.install then 1 else 2) ++ le 1 r.slot.val ++ (if r.install then r.key else [])

/-- A record signed by the key of a different ENABLED slot (02 R63). -/
def signedRecord (keys : List KeySlot) (r : KeyRecord) : Bool :=
  (List.range 4).any (fun n => decide (n ≠ r.slot.val) && decide (((keys[n]?).getD {}).st = .enabled) &&
    ed25519Verify ((keys[n]?).getD {}).key r.message r.sig)

/-- The key store after a record: an install writes only an EMPTY slot, a revoke leaves an ENABLED one and is final
(02 R64, R65). MARK: DESIGN CHOICE: a revoke of an EMPTY slot and of a REVOKED one is accepted (assumption 73). -/
def keyApply (keys : List KeySlot) (r : KeyRecord) : Option (List KeySlot) :=
  if r.install then
    if ((keys[r.slot.val]?).getD {}).st = .empty then some (setAt keys r.slot.val (fun _ => { st := .enabled, key := r.key }))
    else none
  else
    let k := setAt keys r.slot.val (fun x => { x with st := .revoked })
    if k.any (fun x => x.st = .enabled) then some k else none

/-- A key record takes effect in this module, or is refused with event 0x1042 (02 R64 to R66). -/
def State.keyTake (s : State) (r : KeyRecord) : State × Bool :=
  match keyApply s.nv.keys r with
  | some k => (((s.inNv fun v => { v with keys := k }).showNv).raise (if r.install then 0x1040 else 0x1041) islMgmt [], true)
  | none => (s.raise 0x1042 islMgmt [], false)

/-- PROFILE KEY (02 R63 to R66): given to the active it is applied to both twins. -/
def State.profileKey (s : State) (r : KeyRecord) : Answer :=
  if !r.magicOk ∨ !signedRecord s.nv.keys r then (s.raise 0x1042 islMgmt []).refused 0
  else
    let a := s.keyTake r
    if a.2 then (if a.1.isActive then a.1.send (.keyRecord r.install r.slot.val r.key) else a.1).ok [] else a.1.refused 0

/-- PROFILE_KEY (02 R63 to R66). -/
def execProfileKey (ses : Fin 16) (req : Nat) (r : KeyRecord) (s : State) : Res :=
  .next (s.request ses req 5 true false (fun s => s.profileKey r))

/-- KEY_RECORD_FROM_ACTIVE (02 R66). -/
def execKeyRecordFromActive (r : KeyRecord) (s : State) : Res := .next (s.keyTake r).1

/-- PROFILE_LIST (17 R734): IMG_SLOT0 to IMG_SLOT3. -/
def execProfileList (ses : Fin 16) (req : Nat) (s : State) : Res :=
  .next (s.request ses req 5 true false (fun s =>
    s.ok ((List.range 4).flatMap (fun n => le 4 (s.rdN (R.IMG_SLOT n))))))

end Sys2Proof.Machine
end

