-- ==== Sys2Proof/Machine/Can.lean ====
section
/-! DEFINITION. CAN FD channels (15). -/
namespace Sys2Proof.Machine

/-- The settings of a channel in the running image (15 R688). -/
def State.canRec (s : State) (c : Nat) : CanChan := (s.image.can.find? (fun r => r.chan = c)).getD { chan := c }

/-- The settings of a buffer. -/
def CanChan.buf (r : CanChan) (b : Nat) : CanBuf := (r.bufs[b]?).getD {}

/-- State of a buffer. -/
def CanState.buf (k : CanState) (b : Nat) : CanBufState := tget {} k.bufs b

/-- The channel with a buffer changed. -/
def CanState.setBuf (k : CanState) (b : Nat) (f : CanBufState) : CanState := { k with bufs := tset {} k.bufs b f }

/-- Bytes that a data length code stands for, classical and FD (ISO 11898-1, named by 15 R662). -/
def dlcBytes (d : Nat) (fd : Bool) : Nat :=
  if d ≤ 8 then d else if !fd then 8 else
  match d with
  | 9 => 12
  | 10 => 16
  | 11 => 20
  | 12 => 24
  | 13 => 32
  | 14 => 48
  | _ => 64

/-- Whether an identifier with XTD in bit 31 matches under a mask, with equal XTD (15 R668). -/
def idMatch (id want mask : Nat) (xtd : Bool) : Bool :=
  decide (bitOf id 31 = xtd) &&
  decide (Nat.land (Nat.xor (id % 2 ^ 29) (want % 2 ^ 29)) (mask % 2 ^ 29) = 0)

/-- Where a received frame goes (15 R668). -/
inductive CanTarget where
  | buffer (n : Nat)
  | fifo (n : Nat)
  | rejected
  | nowhere
  deriving DecidableEq, Repr

/-- The place of a received frame: lowest matching receive buffer, else the first matching filter (15 R668). -/
def CanChan.accept (r : CanChan) (f : CanFrame) (fifoOnly : Bool) : CanTarget :=
  let hit := if fifoOnly then none else (List.range r.bufs.length).find? (fun n =>
    decide ((r.buf n).kind = 1) && idMatch f.id (r.buf n).id (r.buf n).maskOrTrig (r.buf n).xtd)
  match hit with
  | some n => .buffer n
  | none =>
    match r.filters.find? (fun g => decide (g.target ≠ 0) && idMatch f.id g.id g.mask (bitOf g.id 31)) with
    | some g => if g.target = 1 then .fifo 0 else if g.target = 2 then .fifo 1 else .rejected
    | none => .nowhere

/-- The fill counts of a channel follow its FIFOs. -/
def State.canFill (s : State) (c : Nat) : State :=
  let k := s.canCh c
  ((s.put (F.CAN_FIFO_RXF0_FILL c) k.rxf0.length).put (F.CAN_FIFO_RXF1_FILL c) k.rxf1.length).put (F.CAN_FIFO_TXF_FILL c)
    k.txf.length

/-- A frame arrives at a receive FIFO (15 R669). -/
def State.canFifo (s : State) (c n : Nat) (e : CanEntry) : State :=
  let k := s.canCh c
  let q := if n = 0 then k.rxf0 else k.rxf1
  let ovr := if n = 0 then (s.canRec c).full0 else (s.canRec c).full1
  let full := decide (q.length ≥ 64)
  let q' := if !full then q ++ [e] else if ovr then q.drop 1 ++ [e] else q
  let s1 := (s.setCan c (if n = 0 then { k with rxf0 := q' } else { k with rxf1 := q' })).canFill c
  if full then (s1.bump (F.CAN_RXCOUNT_RX_LOST c) 1).raise 0xC020 islCan [] else s1

/-- The frames assigned to boundary `n`: channel, buffer, data (15 R672). -/
def State.canList (s : State) (n : Nat) : List (Nat × Nat × List Byte) :=
  (List.range 4).flatMap (fun c => (List.range 64).filterMap (fun b =>
    match ((s.canCh c).buf b).assigned with
    | some (m, pl) => if m = n then some (c, b, pl) else none
    | none => none))

/-- The active sends its list of frames while copies are exchanged (15 R674, 14 R614). -/
def State.canListSend (s : State) (n : Nat) : State :=
  if s.isActive && s.exchanging then s.send (.canList n (s.canList n)) else s

/-- A frame is stored in a receive buffer; the active assigns it to a boundary (15 R672, R674, R689). -/
def State.canStore (s : State) (c b : Nat) (e : CanEntry) : State :=
  let k := s.canCh c
  let f := k.buf b
  let n := nextBoundary ((s.canRec c).buf b).cls ((e.ts + 31249) / 31250)
  let again := decide ((f.assigned.map (fun a => a.1)) = some n)
  let s1 := s.setCan c (k.setBuf b { f with
    entry := e, stored := true, newData := true, assigned := some (n, e.frame.data) })
  let s2 := if n = s.count ∧ s.rd64 R.SIG_CLOSED ≠ n then s1.canListSend n else s1
  if again && s.isActive then (s2.bump (F.CAN_RXCOUNT_RX_OVERWRITE c) 1).raise 0xC021 islCan [] else s2

/-- Error counters and error state as ISO 11898-1 leaves them after a frame or an attempt; they stand still in restricted
operation (15 R662, R682, R687). -/
def State.canErrors (s : State) (c tec rec : Nat) : State :=
  if s.on (F.CAN_STATUS_RESTRICTED c) ∨ s.get (F.CAN_STATUS_ESTATE c) = 2 then s else
  let s1 := (s.put (F.CAN_ERR_TEC c) (min tec 511)).put (F.CAN_ERR_REC c) (min rec 255)
  let passive := decide (tec > 127) || decide (rec > 127)
  let s2 := s1.put (F.CAN_STATUS_ESTATE c) (b2n passive)
  if passive && decide (s.get (F.CAN_STATUS_ESTATE c) = 0) then s2.raise 0xC003 islCan [] else s2

/-- CAN_FRAME_RX (15 R662, R668 to R672, R686). -/
def execCanFrameRx (ch : Fin 4) (f : CanFrame) (esi : Bool) (tec rec t : Nat) (s : State) : Res :=
  let c := ch.val
  let s0 := (s.at t).canErrors c tec rec
  if f.rtr then .next (s0.bump (F.CAN_RXCOUNT_RX_DROP c) 1) else
  let e : CanEntry := { frame := f, esi := esi, ts := t }
  match (s.canRec c).accept f (s.on F.MOD_STATUS_REDUCED) with
  | .buffer n => .next (s0.canStore c n e)
  | .fifo n => .next (s0.canFifo c n e)
  | .rejected => .next s0
  | .nowhere => .next (s0.bump (F.CAN_RXCOUNT_RX_DROP c) 1)

/-- CAN_FRAME_LIST_RX (15 R674): the standby takes the list of the active. -/
def execCanFrameListRx (n : Nat) (frames : List (Nat × Nat × List Byte)) (s : State) : Res :=
  if s.isStandby then
    .next (s.each (List.range 4) (fun t c => t.setCan c { t.canCh c with
      list := some (n, (frames.filter (fun f => f.1 = c)).map (fun f => f.2)) }))
  else .next s

/-- CAN_FRAME_LIST_MISSING (15 R674): a standby without the list by t0 + 24 µs counts a lag cycle, but not in SUSPECT. -/
def execCanFrameListMissing (n t : Nat) (s : State) : Res :=
  let s0 := s.at t
  let late := (List.range 4).filter (fun c => ((s.canCh c).list.map (fun l => l.1)) ≠ some n)
  .next (if s0.isStandby ∧ late ≠ [] ∧ !s0.on F.TWN_STATUS_SUSPECT ∧ n = s0.count ∧ s0.now ≥ boundaryNs n + 24000 then
      (s0.each late (fun u c => u.setCan c { u.canCh c with list := some (n, []) })).lagCycle
    else s0)

/-- The frame of a buffer for a close: what the active's list gives, or what the module assigned itself (15 R672, R674). -/
def State.canAssigned (s : State) (c b n : Nat) : Option (List Byte) :=
  let k := s.canCh c
  if s.isStandby && !s.on F.TWN_STATUS_SUSPECT then
    match k.list with
    | some (m, l) => if m = n then (l.find? (fun e => e.1 = b)).map (fun e => e.2) else none
    | none => none
  else
    match (k.buf b).assigned with
    | some (m, pl) => if m = n then some pl else none
    | none => none

/-- A map entry beyond the data of a frame delivers zero (15 R671). -/
def padFor (pl : List Byte) (m : MapRec) : List Byte := if m.byte + max 1 (encBytes m.enc) ≤ pl.length then pl else []

/-- The points of a receive buffer at a close (15 R671 to R675). -/
def State.canResolve (s : State) (c b n : Nat) : State :=
  let r := s.canRec c
  let ms := (r.buf b).entries r
  match s.canAssigned c b n with
  | some pl =>
    let s1 := s.each (ms.filter (fun m => m.enc ≠ 8)) (fun t m =>
      let ovr := ms.any (fun o => decide (o.enc = 8) && decide (o.point = m.point) && decide (mapIn (padFor pl o) o = 1))
      t.deliver m.point (mapIn (padFor pl m) m) (qByte (qValid + s.localSource + (if ovr then qOver else 0))))
    let k := s1.canCh c
    s1.setCan c (k.setBuf b { k.buf b with missed := 0, timedOut := false, assigned := none })
  | none =>
    let k := s.canCh c
    s.setCan c (k.setBuf b { k.buf b with missed := (k.buf b).missed + 1 })

/-- Every receive buffer whose class has a boundary at `n` (15 R672). In reduced service reception goes to the FIFOs only
(16 R708). -/
def State.canClose (s : State) (n : Nat) : State :=
  if s.on F.MOD_STATUS_REDUCED then s else
  s.each s.image.can (fun t r => t.each (List.range r.bufs.length) (fun u b =>
    if (r.buf b).kind = 1 ∧ isBoundary (r.buf b).cls n then u.canResolve r.chan b n else u))

/-- CAN_RX_TIMEOUT (15 R673): the points of a buffer turn STALE once RX_TIMEOUT boundaries passed without a frame. -/
def execCanRxTimeout (ch : Fin 4) (buf : Fin 64) (s : State) : Res :=
  let r := s.canRec ch.val
  let k := s.canCh ch.val
  let f := k.buf buf.val
  if (r.buf buf.val).kind = 1 ∧ f.timedOut = false ∧ f.missed ≥ orDefault10 (r.buf buf.val).rxTimeout then
    let s1 := s.setCan ch.val (k.setBuf buf.val { f with timedOut := true })
    .next ((s1.each ((r.buf buf.val).entries r) (fun t m => t.deliverStale m.point)).raise 0xC022 islCan [])
  else .next s
where
  /-- RX_TIMEOUT with its default. -/
  orDefault10 (v : Nat) : Nat := if v = 0 then 10 else v

/-- A request of a transmit buffer is placed; it replaces one that has not started (15 R677, R678). -/
def State.canRequest (s : State) (c b : Nat) (pl : List Byte) : State :=
  if !s.isActive ∨ s.on F.MOD_STATUS_REDUCED ∨ s.get (F.CAN_STATUS_ESTATE c) = 2 then s else
  let k := s.canCh c
  let f := k.buf b
  let s1 := s.setCan c (k.setBuf b { f with pend := some pl, attempts := if f.inTx.isSome then f.attempts else 0 })
  let s2 := if f.pend.isSome then s1.bump (F.CAN_TXCOUNT_TX_REPLACED c) 1 else s1
  s2.send (.canFrame c b pl)

/-- A transmit buffer at a boundary of its class (15 R676). -/
def State.canForm (s : State) (r : CanChan) (b : Nat) : State :=
  let rec_ := r.buf b
  let pl := s.formPayload (dlcBytes rec_.dlc rec_.fdf) (rec_.entries r)
  let k := s.canCh r.chan
  let f := k.buf b
  let trig := decide ((s.nextVal (rec_.maskOrTrig % 2 ^ 20)).v = 1)
  let want := match rec_.trigger with
    | 0 => true
    | 1 => decide (f.prevPayload ≠ some pl)
    | _ => trig && !f.prevTrig
  let s1 := s.setCan r.chan (k.setBuf b { f with prevPayload := some pl, prevTrig := trig })
  if want then s1.canRequest r.chan b pl else s1

/-- The transmit buffers of every channel at boundary `n` (15 R676). -/
def State.canBoundary (s : State) (n : Nat) : State :=
  s.each s.image.can (fun t r => (t.setCan r.chan { t.canCh r.chan with arb := none }).each (List.range r.bufs.length) (fun u b =>
    if (r.buf b).kind = 2 ∧ isBoundary (r.buf b).cls n then u.canForm r b else u))

/-- Order of an identifier in arbitration: by its bits as they stand on the bus, a base identifier before an extended one that
begins with it. MARK: DEDUCED: the arbitration of ISO 11898-1, which 15 R662 names (assumption 106). -/
def arbKey (id : Nat) (xtd : Bool) : Nat := if xtd then 2 * (id % 2 ^ 29) + 1 else 2 * (id % 2 ^ 11 * 2 ^ 18)

/-- The requests of a channel that wait for arbitration: order of the identifier, and the buffer, 64 for the head of the transmit
FIFO, which goes behind a dedicated buffer of equal identifier (15 R679). -/
def State.canReady (s : State) (c : Nat) : List (Nat × Nat) :=
  let k := s.canCh c
  let r := s.canRec c
  ((List.range 64).filter (fun b => (k.buf b).pend.isSome)).map (fun b => (arbKey (r.buf b).id (r.buf b).xtd, b)) ++
    (match k.txf.head? with
     | some f => if k.txfTx then [] else [(arbKey f.id (bitOf f.id 31), 64)]
     | none => [])

/-- The request that enters arbitration next: the lowest identifier (15 R679). -/
def State.canNext (s : State) (c : Nat) : Option Nat := ((sortBy (fun e => e.1) (s.canReady c)).head?).map (fun e => e.2)

/-- The frame of a channel in transmission, as far as it is known (15 R678). -/
def CanState.sending (k : CanState) : Option Nat :=
  if k.txfTx then some 64 else (List.range 64).find? (fun b => (k.buf b).inTx.isSome)

/-- Whether a frame can be the one on the bus: the one in transmission; where none is known to be, the one that arbitration takes
next, or took before an entry was queued (15 R679). -/
def State.canOnBus (s : State) (c b : Nat) : Bool :=
  match (s.canCh c).sending with
  | some x => decide (x = b)
  | none => decide (s.canNext c = some b) || decide ((s.canCh c).arb = some b)

/-- The frames that are in transmission at an instant: channel and buffer, 64 for the transmit FIFO (15 R678, R679). -/
def State.canStarted (s : State) (l : List (Nat × Nat)) : State :=
  s.each l (fun t e =>
    let k := t.canCh e.1
    if !t.canOnBus e.1 e.2 then t
    else if e.2 = 64 then t.setCan e.1 { k with txfTx := decide (k.txf ≠ []) }
    else if (k.buf e.2).pend.isSome then t.setCan e.1 (k.setBuf e.2 { k.buf e.2 with pend := none, inTx := (k.buf e.2).pend })
    else t)

/-- A frame has left a channel: a dedicated buffer or the head of the FIFO (15 R679). -/
def State.canGone (s : State) (c b : Nat) : State :=
  let k := s.canCh c
  if b ≥ 64 then (s.setCan c { k with txf := k.txf.drop 1, txfTx := false, txfAttempts := 0, arb := none }).canFill c
  else
    let f := k.buf b
    s.setCan c ({ k with arb := none }.setBuf b (if f.inTx.isSome then { f with inTx := none, attempts := 0 }
                                                  else { f with pend := none, attempts := 0 }))

/-- CAN_TX_DONE (15 R679): the frame on the bus was transmitted. -/
def execCanTxDone (ch : Fin 4) (buf : Fin 65) (tec rec : Nat) (s : State) : Res :=
  .next (if s.canOnBus ch.val buf.val then (s.canErrors ch.val tec rec).canGone ch.val buf.val else s)

/-- An attempt failed: in one-shot mode the frame is lost, in native mode it is tried until its attempts are used up (15 R680,
R681). -/
def State.canAttempt (s : State) (c b : Nat) : State :=
  let r := s.canRec c
  let k := s.canCh c
  if r.oneShot then
    let s1 := (s.canGone c b).bump (F.CAN_TXCOUNT_TX_FAIL c) 1
    if b ≥ 64 then s1.put (F.CAN_STATUS_FIFO_FAIL c) 1
    else
      let off := if b < 32 then R.CAN_TXFAIL_LO c else R.CAN_TXFAIL_HI c
      s1.wr off (s1.rd off ||| (1#32 <<< (b % 32)))
  else
    let a := (if b ≥ 64 then k.txfAttempts else (k.buf b).attempts) + 1
    if a ≥ r.retryLimit + 1 then
      ((s.canGone c b).bump (F.CAN_TXCOUNT_TX_FAIL c) 1).raise 0xC010 islCan (le 1 c ++ le 1 b)
    else if b ≥ 64 then s.setCan c { k with txfAttempts := a, txfTx := false }
    else s.setCan c (k.setBuf b (let f := k.buf b
      { f with attempts := a, pend := if f.pend.isSome then f.pend else f.inTx, inTx := none }))

/-- CAN_TX_ATTEMPT_FAIL (15 R680, R681, R687): an attempt lost arbitration or met an error. -/
def execCanTxAttemptFail (ch : Fin 4) (buf : Fin 65) (tec rec : Nat) (s : State) : Res :=
  .next (if s.canOnBus ch.val buf.val then (s.canErrors ch.val tec rec).canAttempt ch.val buf.val else s)

/-- Every pending frame of a channel is dropped. -/
def CanState.dropAll (k : CanState) : CanState :=
  (List.range 64).foldl (fun k b => k.setBuf b { k.buf b with pend := none, inTx := none, attempts := 0 })
    { k with txf := [], txfTx := false, txfAttempts := 0, arb := none }

/-- CAN_BUS_OFF (15 R687). -/
def execCanBusOff (ch : Fin 4) (s : State) : Res :=
  let c := ch.val
  if s.on (F.CAN_STATUS_RESTRICTED c) then .next s else
  .next ((((s.setCan c (s.canCh c).dropAll).canFill c).put (F.CAN_STATUS_ESTATE c) 2).raise 0xC001 islCan (le 1 c))

/-- A channel rejoins the bus: error-active, counters zero (15 R687). -/
def State.canRejoin (s : State) (c : Nat) : State :=
  (((s.put (F.CAN_STATUS_ESTATE c) 0).put (F.CAN_ERR_TEC c) 0).put (F.CAN_ERR_REC c) 0).raise 0xC002 islCan []

/-- CAN_AUTO_RECOVER (15 R687). -/
def execCanAutoRecover (ch : Fin 4) (s : State) : Res :=
  if s.get (F.CAN_STATUS_ESTATE ch.val) = 2 ∧ (s.canRec ch.val).autoRecover = true then .next (s.canRejoin ch.val)
  else .next s

/-- CAN_RECOVER (15 R687): no effect but on the active. -/
def execCanRecover (ch : Fin 4) (s : State) : Res :=
  if s.get (F.CAN_STATUS_ESTATE ch.val) = 2 ∧ (s.canRec ch.val).autoRecover = false ∧ s.isActive = true then
    .next (s.canRejoin ch.val)
  else .next s

/-- CAN_POP0 (15 R670). -/
def execCanPop0 (ch : Fin 4) (s : State) : Res :=
  let k := s.canCh ch.val
  .next ((s.setCan ch.val { k with rxf0 := k.rxf0.drop 1 }).canFill ch.val)

/-- CAN_POP1 (15 R670). -/
def execCanPop1 (ch : Fin 4) (s : State) : Res :=
  let k := s.canCh ch.val
  .next ((s.setCan ch.val { k with rxf1 := k.rxf1.drop 1 }).canFill ch.val)

/-- The frame of the staged transmit entry. -/
def State.canStaged (s : State) (c : Nat) : CanFrame :=
  let fl := s.rdN (R.CAN_STAGE c 1)
  { id := s.rdN (R.CAN_STAGE c 0), dlc := bitsOf fl 0 4, fdf := bitOf fl 4, brs := bitOf fl 5,
    data := ((List.range 16).foldl (fun l i => l ++ le 4 (s.rdN (R.CAN_STAGE c (4 + i)))) []).take
      (dlcBytes (bitsOf fl 0 4) (bitOf fl 4)) }

/-- CAN_PUSH (15 R670, R682): the staged entry is queued; on a module not holding ACTIVE it is discarded. A full FIFO takes
no entry (assumption 13). -/
def execCanPush (ch : Fin 4) (s : State) : Res :=
  let c := ch.val
  let k := s.canCh c
  if !s.isActive then .next ((s.bump (F.CAN_TXCOUNT_TXF_DISCARD c) 1).raise 0xC030 islCan [])
  else if k.txf.length ≥ 32 then .next s
  else .next (((s.setCan c { k with txf := k.txf ++ [s.canStaged c], arb := if k.arb.isSome then k.arb else s.canNext c }).canFill c).send (.canFrame c 64 (s.canStaged c).data))

/-- NEW_DATA of the selected buffer (15 CAN_BSTAT). -/
def State.canBstat (s : State) (c : Nat) : Word :=
  BitVec.ofNat 32 (b2n ((s.canCh c).buf (s.get (F.CAN_BSEL_BUF c))).newData)

/-- A read of CAN_BSTAT clears NEW_DATA of the selected buffer (15 R689). -/
def State.canBstatClear (s : State) (c : Nat) : State :=
  let k := s.canCh c
  let b := s.get (F.CAN_BSEL_BUF c)
  s.setCan c (k.setBuf b { k.buf b with newData := false })

/-- CAN_BSTAT_READ (15 R689). -/
def execCanBstatRead (ch : Fin 4) (s : State) : Res := .next (s.canBstatClear ch.val)

/-- The 20 words of a frame view (15 Registers). -/
def CanEntry.view (e : CanEntry) : List Nat :=
  let f := e.frame
  let fl := f.dlc % 16 + 16 * b2n f.fdf + 32 * b2n f.brs + 64 * b2n e.esi + 128
  f.id % 2 ^ 32 :: fl :: e.ts % 2 ^ 32 :: (e.ts / 2 ^ 32) % 2 ^ 32 ::
    (List.range 16).map (fun i => field f.data (4 * i) 4)

/-- A word of the frame views at 0x100 to 0x27F of a channel (15 Registers). -/
def State.canView (s : State) (c off : Nat) : Word :=
  let k := s.canCh c
  let b := k.buf (s.get (F.CAN_BSEL_BUF c))
  let pick := fun (e : Option CanEntry) (o : Nat) =>
    BitVec.ofNat 32 (match e with
      | some x => (x.view[o / 4]?).getD 0
      | none => 0)
  if off < 0x150 then pick (if b.stored then some b.entry else none) (off - 0x100)
  else if off < 0x180 then 0
  else if off < 0x1D0 then pick k.rxf0.head? (off - 0x180)
  else if off < 0x200 then 0
  else if off < 0x250 then pick k.rxf1.head? (off - 0x200)
  else 0

/-- The channels at the boundary at which the module assumes ACTIVE (15 R683). -/
def State.canAssume (s : State) : State :=
  s.each (List.range 4) (fun t c =>
    ((t.setCan c { t.canCh c with txf := [], txfTx := false, txfAttempts := 0 }).canFill c).put
      (F.CAN_STATUS_RESTRICTED c) (b2n (t.on F.MOD_STATUS_REDUCED)))

/-- Number of frames of a channel that have not started transmission. -/
def CanState.waiting (k : CanState) : Nat :=
  ((List.range 64).filter (fun b => (k.buf b).pend.isSome)).length + k.txf.length - b2n k.txfTx

/-- The channels at a release of ACTIVE: pending frames that have not started are aborted (15 R684). -/
def State.canRelease (s : State) : State :=
  s.each (List.range 4) (fun t c =>
    let k := t.canCh c
    let n := k.waiting
    let k1 := (List.range 64).foldl (fun k b => k.setBuf b { k.buf b with pend := none }) k
    let t1 := ((t.setCan c { k1 with txf := if k.txfTx then k.txf.take 1 else [] }).canFill c).put
      (F.CAN_STATUS_RESTRICTED c) 1
    if n = 0 then t1 else (t1.bump (F.CAN_TXCOUNT_TX_ABORT c) n).raise 0xC011 islCan (le 4 n))

end Sys2Proof.Machine
end

