-- ==== Sys2Proof/Machine/Local.lean ====
section
/-! DEFINITION. Local I/O: digital inputs, crossings, outputs, trips, analogue channels, HART, agreement, calibration (14). -/
namespace Sys2Proof.Machine

/-! ## Settings and tables -/

/-- The DI record of input `i`. -/
def State.diRec (s : State) (i : Nat) : DiRec := (s.image.localIo.di[i]?).getD {}
/-- The DO record of output `i`. -/
def State.doRec (s : State) (i : Nat) : DoRec := (s.image.localIo.dout[i]?).getD {}
/-- The record of trip `i`. -/
def State.tripRec (s : State) (i : Nat) : TripRec := (s.image.localIo.trip[i]?).getD {}
/-- The record of analogue channel `i`. -/
def State.aioRec (s : State) (i : Nat) : AioRec := (s.image.localIo.aio[i]?).getD {}
/-- The HART device record `i`. -/
def State.hartDev (s : State) (i : Nat) : HartDev := (s.image.localIo.hart[i]?).getD {}
/-- Crossing of block `b`: 0 DI, 1 DO, 2 AIO. -/
def State.xing (s : State) (b : Nat) : CrossState := tget {} s.loc.blocks b
/-- The crossing of a block changed. -/
def State.setXing (s : State) (b : Nat) (f : CrossState → CrossState) : State :=
  s.lo fun u => { u with blocks := tmod {} u.blocks b f }
/-- Digital input `i`. -/
def State.di (s : State) (i : Nat) : DiState := tget {} s.loc.di i
/-- Analogue channel `i`. -/
def State.aio (s : State) (i : Nat) : AioState := tget {} s.loc.aio i
/-- An analogue channel changed. -/
def State.setAio (s : State) (i : Nat) (f : AioState → AioState) : State := s.lo fun u => { u with aio := tmod {} u.aio i f }
/-- Trip `i`. -/
def State.trip (s : State) (i : Nat) : TripState := tget {} s.loc.trips i
/-- A trip changed. -/
def State.setTrip (s : State) (i : Nat) (f : TripState → TripState) : State :=
  s.lo fun u => { u with trips := tmod {} u.trips i f }
/-- HART modem `m`. -/
def State.modem (s : State) (m : Nat) : ModemState := tget {} s.loc.modems m
/-- A modem changed. -/
def State.setModem (s : State) (m : Nat) (f : ModemState → ModemState) : State :=
  s.lo fun u => { u with modems := tmod {} u.modems m f }
/-- One bit of a register word set or cleared. -/
def State.bitSet (s : State) (off i : Nat) (b : Bool) : State := s.put ⟨off, i, 1⟩ (b2n b)

/-! ## Calibration (14 R655 to R658, R661; 20 R806) -/

/-- A word of the set in force, by word of the staging window; without a valid bank gain is 1.0 and all else zero (14 R657). -/
def State.calWord (s : State) (i : Nat) : Nat := (tget 0 s.loc.cal i).toNat

/-- The set without a valid bank: gains of inputs and outputs 1.0 (14 R657). -/
def calNone : Tab Word := (List.range 16).map (fun n => (2 * n, 0x3F800000))

/-- The staging window loaded from the set in force (14 R661). -/
def State.calWindow (s : State) : State := s.each (List.range 96) (fun t i => t.wrN (R.AIO_CALW i) (t.calWord i))

/-- The valid bank with the higher SEQ (14 R657). -/
def State.calBank (s : State) : Option Nat :=
  match s.loc.banks with
  | [a, b] => if a.valid && (!b.valid || decide (a.seq > b.seq)) then some 0 else if b.valid then some 1 else none
  | _ => none

/-- Calibration at start-up (14 R657). -/
def State.calStart (s : State) : State :=
  match s.calBank with
  | some b =>
    let k := (s.loc.banks[b]?).getD {}
    ((((s.lo fun u => { u with cal := k.words }).put F.AIO_CAL_STATUS_BANK b).wrN R.AIO_CAL_SEQ k.seq).put
      F.AIO_CAL_STATUS_CAL_NONE 0).put F.DIO_STATUS_CAL_NONE 0 |>.calWindow
  | none =>
    ((((s.lo fun u => { u with cal := calNone }).put F.AIO_CAL_STATUS_CAL_NONE 1).put F.DIO_STATUS_CAL_NONE 1).calWindow).raise
      0xB050 islLocal []

/-- A write of a complete set begins (14 R656, R658): staging window or ageing measurement; hold-up refuses new MRAM writes
(16 R719). -/
def State.calBegin (s : State) (ageing : Bool) (set : Tab Word) : State :=
  if s.on F.MOD_STATUS_HOLDUP then s else
  (s.lo fun u => { u with calWrite := some (ageing, set) }).put F.AIO_CAL_STATUS_BUSY 1

/-- The words of the staging window. -/
def State.calStaged (s : State) : Tab Word :=
  (List.range 96).foldl (fun t i => tset 0 t i (s.rd (R.AIO_CALW i))) []

/-- CAL_COMMIT (14 R658). -/
def execCalCommit (s : State) : Res :=
  .next (if s.on F.AIO_CAL_STATUS_BUSY then (s.put F.AIO_CAL_STATUS_REFUSED 1).raise 0xB052 islLocal []
         else s.calBegin false s.calStaged)

/-- Words of the ageing value and its operating seconds: bytes 388 to 399 of a bank (14 R655). -/
def ageWords (set : Tab Word) (ppb : Word) (opsec : Nat) : Tab Word :=
  tset 0 (tset 0 (tset 0 set 93 ppb) 94 (BitVec.ofNat 32 opsec)) 95 (BitVec.ofNat 32 (opsec / 2 ^ 32))

/-- A daily ageing measurement is written: only bytes 388 to 399 change, in the stored set and in the staging window; it waits
for a running write (14 R658, 10 R495). -/
def State.calAge (s : State) (ppb : Word) : State :=
  if s.on F.AIO_CAL_STATUS_BUSY then s.lo fun u => { u with ageWaiting := some (ppb, s.nv.opsec) }
  else s.calBegin true (ageWords s.loc.cal ppb s.nv.opsec)

/-- The bank that a write takes: an invalid one, else the one with the lower SEQ (14 R656). -/
def State.calTarget (s : State) : Nat :=
  match s.calBank with
  | some b => 1 - b
  | none => 0

/-- The written bank becomes current (14 R656, R658). -/
def State.calDone (s : State) (ageing : Bool) (set : Tab Word) : State :=
  let b := s.calTarget
  let q := (s.calBank.map (fun c => ((s.loc.banks[c]?).getD {}).seq)).getD 0 + 1
  let s1 := s.lo fun u => { u with banks := u.banks.set b { valid := true, seq := q, words := set }, cal := set,
                                   calWrite := none }
  let s2 := ((((s1.put F.AIO_CAL_STATUS_BUSY 0).put F.AIO_CAL_STATUS_BANK b).put F.AIO_CAL_STATUS_CAL_NONE 0).put
    F.DIO_STATUS_CAL_NONE 0).wrN R.AIO_CAL_SEQ q
  let s3 := if ageing then (s2.wr (R.AIO_CALW 93) (tget 0 set 93)).wr (R.AIO_CALW 94) (tget 0 set 94) |>.wr (R.AIO_CALW 95)
      (tget 0 set 95) else s2.calWindow
  s3.raise 0xB051 islLocal (le 4 q ++ le 4 (b2n ageing))

/-- CAL_WRITE_COMPLETE (14 R656, R658): a waiting ageing write follows. -/
def execCalWriteComplete (s : State) : Res :=
  .next (match s.loc.calWrite with
    | none => s
    | some (ageing, set) =>
      let s1 := s.calDone ageing set
      match s1.loc.ageWaiting with
      | some (ppb, o) => (s1.lo fun u => { u with ageWaiting := none }).calBegin true (ageWords s1.loc.cal ppb o)
      | none => s1)

/-! ## Digital inputs (14 R615 to R620) -/

/-- A trim of an input in mV: INT8 in units of 4 mV, clamped to ±500 mV (14 R655, 20 R806). -/
def State.trim (s : State) (i : Nat) (high : Bool) : Int :=
  let byte := 128 + 2 * i + b2n high
  clampInt (-500) 500 (4 * toSigned 8 (s.calWord (byte / 4) / 2 ^ (8 * (byte % 4))))

/-- The class of a reading of `mv` mV (14 R616, 20 R806). -/
def diClass (mv low high : Int) (wb : Bool) : DiClass :=
  if mv < 2000 + low then (if wb then .wireBreak else .off)
  else if mv < 8000 + low then .off
  else if mv ≤ 11000 + high then .uncertain
  else .on

/-- Counter and filtered state after a reading (14 R617, R618). -/
def DiState.step (d : DiState) (n : Nat) (c : DiClass) : Nat × Bool :=
  if d.started then
    match c with
    | .on => let k := min n (d.c + 1); (k, if k = n then true else d.st)
    | .uncertain => (min d.c n, d.st)
    | _ => let k := min n d.c - 1; (k, if k = 0 then false else d.st)
  else
    match c with
    | .on => (n, true)
    | _ => (0, false)

/-- A reading of input `i` taken at `t` (14 R616 to R619). -/
def State.diRead (s : State) (i : Nat) (mv : Int) (t : Nat) : State :=
  let r := s.diRec i
  let c := diClass mv (s.trim i false) (s.trim i true) r.wbEn
  let d := s.di i
  let k := d.step r.filterN c
  let d1 : DiState := { c := k.1, st := k.2, cls := c, started := true, read := true, hist := ((t, k.2, c) :: d.hist).take 4 }
  let s1 := s.lo fun u => { u with di := tset {} u.di i d1 }
  let s2 := ((s1.bitSet R.DIO_IN i k.2).bitSet R.DIO_WB i (decide (c = .wireBreak))).bitSet R.DIO_UNC i (decide (c = .uncertain))
  let s3 := if d.read ∧ c = .wireBreak ∧ d.cls ≠ .wireBreak then s2.raise 0xB001 islLocal (le 1 i)
    else if d.read ∧ c ≠ .wireBreak ∧ d.cls = .wireBreak then s2.raise 0xB002 islLocal [] else s2
  if c = .uncertain then s3.raise 0xB003 islLocal [] else s3

/-- DI_SAMPLE (14 R615 to R619): the readings of all inputs at a multiple of 50,000 ns, in mV; there is no sample at another
instant nor a second one at the same. Nothing arrives while the DI block is off or its crossing timed out. -/
def execDiSample (mv : List Int) (t : Nat) (s : State) : Res :=
  let s0 := s.at t
  .next (if !s0.pd 2 ∨ (s0.xing 0).upOut ∨ s0.now % 50000 ≠ 0 ∨ (s0.di 0).hist.any (fun e => decide (e.1 = s0.now)) then s0 else
    let s1 := s0.each (List.range 32) (fun u i => u.diRead i ((mv[i]?).getD 0) s0.now)
    (s1.setXing 0 (fun x => { x with waitSample := false })).putB F.DIO_STATUS_WIRE_BREAK (decide (s1.rd R.DIO_WB ≠ 0)))

/-- DI_FILTER_STATE_CHANGE (14 R617): the filtered state is the outcome of the samples; a counter at N or 0 sets it. -/
def execDiFilterStateChange (di : Fin 32) (s : State) : Res :=
  let d := s.di di.val
  let n := (s.diRec di.val).filterN
  let st := if d.started ∧ d.c ≥ n then true else if d.started ∧ d.c = 0 then false else d.st
  .next ((s.lo fun u => { u with di := tset {} u.di di.val { d with st := st } }).bitSet R.DIO_IN di.val st)

/-- Counters clamped to a FILTER_N that changes at image commit (14 R618). -/
def State.diClamp (s : State) : State :=
  s.lo fun u => { u with di := u.di.map (fun e => (e.1, { e.2 with c := min e.2.c (s.diRec e.1).filterN })) }

/-! ## Outputs and trips (14 R624 to R636) -/

/-- Trips whose latch is set. -/
def State.tripsSet (s : State) : List Nat := (List.range 4).filter (fun n => bitOf (s.get F.DIO_TRIP_LATCH) n)

/-- Digital outputs that latched trips force off (14 R631). -/
def State.tripDo (s : State) : Nat := s.tripsSet.foldl (fun m n => Nat.lor m (s.tripRec n).doMask) 0

/-- Analogue outputs that latched trips set to 0 mA (14 R631). -/
def State.tripAo (s : State) : Nat := s.tripsSet.foldl (fun m n => Nat.lor m (s.tripRec n).aoMask) 0

/-- Whether outputs are driven: ACTIVE and not in reduced service (14 R628, 16 R708). -/
def State.drives (s : State) : Bool := s.isActive && !s.on F.MOD_STATUS_REDUCED

/-- The outputs as sent: the image's states and the PPS copy of DO 15, less trips; off where released (14 R628, R653, R654). -/
def State.doWord (s : State) : Nat :=
  let base := if (s.doRec 15).pps then s.loc.doImage % 2 ^ 15 + (if s.loc.ppsHigh then 2 ^ 15 else 0) else s.loc.doImage % 2 ^ 16
  if s.drives then Nat.land base (65535 - s.tripDo % 65536) else 0

/-- What the field side of the DO block drives now. -/
def State.doDrive (s : State) : State :=
  (s.put F.DIO_OUT_DRIVEN (if (s.xing 1).downOut then 0 else s.doWord)).putB F.DIO_STATUS_RELEASED (!s.isActive)

/-- A binary32 operation on bit patterns, rounding to nearest even. -/
def b32Add (a b : Nat) : Nat := (f32.addV .rne (f32.unpack a) (f32.unpack b)).bits
/-- Product of two binary32 patterns. -/
def b32Mul (a b : Nat) : Nat := (f32.mulV .rne (f32.unpack a) (f32.unpack b)).bits
/-- Difference of two binary32 patterns. -/
def b32Sub (a b : Nat) : Nat := (f32.addV .rne (f32.unpack a) (f32.unpack b).flip).bits
/-- Whether `a < b` as binary32. -/
def b32Lt (a b : Nat) : Bool := ltV (f32.unpack a) (f32.unpack b)
/-- A binary32 value held to 0 mA to 24 mA. -/
def b32Limit (a : Nat) : Nat := if b32Lt a 0 then 0 else if b32Lt 0x41C00000 a then 0x41C00000 else a

/-- What the field side of the AIO block drives on an output channel (14 R628, R631, R640). -/
def State.aoDrive (s : State) : State :=
  s.each ((List.range 8).filter (fun n => (s.aioRec n).mode = 2)) (fun t n =>
    let a := t.aio n
    let v := if (t.xing 2).downOut ∨ bitOf t.tripAo n then 0
      else b32Add (b32Mul a.cmd (t.calWord (16 + 2 * n))) (t.calWord (17 + 2 * n))
    t.setAio n (fun a => { a with isOpen := !t.drives, driven := if t.drives then v else 0 }))

/-- Outputs at once off or open when the role is released (09 R455, 14 R628). -/
def State.outputsFollow (s : State) : State := s.doDrive.aoDrive

/-- The latch of a trip sets: masked outputs off at once (14 R631). -/
def State.tripLatch (s : State) (n : Nat) (t : Nat) : State :=
  if bitOf (s.get F.DIO_TRIP_LATCH) n then s else
  let s1 := ((s.bitSet R.DIO_TRIP n true).put F.DIO_STATUS_TRIPPED 1).setTrip n (fun x => { x with setAt := t })
  (s1.raise 0xB020 islLocal (le 1 n)).outputsFollow

/-- TRIP_INPUT_CHANGE (14 R630, R631): a level that passed the glitch filter. -/
def execTripInputChange (trip : Fin 4) (active : Bool) (t : Nat) (s : State) : Res :=
  let n := trip.val
  let s0 := s.at t
  .next (if !s0.pd 2 then s0 else
    let s1 := s0.bitSet R.DIO_TRIP (4 + n) active
    if active then s1.tripLatch n t else s1.setTrip n (fun x => { x with inactiveSince := t }))

/-- A clear of trips is pending for a boundary (14 R635). -/
def State.tripPend (s : State) (mask at_ : Nat) : State :=
  s.each ((List.range 4).filter (fun n => bitOf mask n)) (fun u n =>
    (u.setTrip n (fun x => { x with clearAt := some at_ })).bitSet R.DIO_TRIP (12 + n) true)

/-- A write of CLR in DIO_TRIP_CLR (14 R635): no effect but on the active. -/
def State.tripClr (s : State) (mask : Nat) : State :=
  if s.isActive then
    let b := boundaryAfter s.now 4
    let s1 := s.tripPend mask b
    if s1.exchanging then s1.send (.tripClear mask b) else s1
  else s

/-- DIO_TRIP_CLR (14 R635). -/
def execDioTripClr (mask : Fin 16) (t : Nat) (s : State) : Res := .next ((s.at t).tripClr mask.val)

/-- TRIP_CLEAR_RX (14 R635). -/
def execTripClearRx (mask : Fin 16) (at_ : Nat) (s : State) : Res :=
  .next (if s.isStandby then s.tripPend mask.val at_ else s)

/-- A pending clear at its boundary: cleared if the input has been inactive for TRIP_DEB, else refused (14 R636). -/
def State.tripAt (s : State) (n b : Nat) : State :=
  let s1 := (s.setTrip n (fun x => { x with clearAt := none })).bitSet R.DIO_TRIP (12 + n) false
  let ok := !bitOf (s.get F.DIO_TRIP_INPUT) n &&
    decide (boundaryNs b ≥ (s.trip n).inactiveSince + (s.tripRec n).debMs * 1000000)
  if ok then
    let s2 := s1.bitSet R.DIO_TRIP n false
    (s2.putB F.DIO_STATUS_TRIPPED (decide (s2.get F.DIO_TRIP_LATCH ≠ 0))).raise 0xB021 islLocal []
  else ((s1.bitSet R.DIO_TRIP (8 + n) true).put F.DIO_STATUS_TRIP_HELD 1).raise 0xB022 islLocal []

/-- Trip clears whose boundary is `b` (14 R635, R636). -/
def State.tripBoundary (s : State) (b : Nat) : State :=
  s.each (List.range 4) (fun t n => match (t.trip n).clearAt with
    | some a => if a ≤ b then t.tripAt n b else t
    | none => t)

/-- Trip latches at power-up of PD2: set where the input is active (14 R634). -/
def State.tripStart (s : State) (inputs : Nat) (t : Nat) : State :=
  s.each (List.range 4) (fun u n =>
    let a := bitOf inputs n
    let u1 := (u.bitSet R.DIO_TRIP (4 + n) a).setTrip n (fun x => { x with inactiveSince := t })
    if a then u1.tripLatch n t else u1)

/-- DO_GROUP_FAULT_CHANGE (14 R625). -/
def execDoGroupFaultChange (group : Fin 2) (fault : Bool) (s : State) : Res :=
  let g := group.val
  let was := bitOf (s.get F.DIO_STATUS_DO_FAULT) g
  .next (if was = fault ∨ !s.pd 3 then s
    else if fault then ((s.bitSet R.DIO_STATUS (5 + g) true).put F.DIO_STATUS_DO_FAULT_SEEN 1).raise 0xB010 islLocal (le 1 g)
    else (s.bitSet R.DIO_STATUS (5 + g) false).raise 0xB011 islLocal [])

/-! ## Crossings (14 R621 to R623, R627; 19 R788) -/

/-- A bad or skipped frame of a block counts (14 R621). -/
def State.xingBad (s : State) (b : Nat) : State :=
  s.bump (match b with
    | 0 => F.DIO_XING_DI_BAD
    | 1 => F.DIO_XING_DO_BAD
    | _ => F.DIO_XING_AIO_BAD) 1

/-- A crossing frame: SYNC, sequence number, 16 payload bytes, CRC-8 (14 R621). -/
def crossFrame (seq payload : Nat) : List Byte :=
  let b := le 1 seq ++ le 16 payload
  le 1 0xA5 ++ b ++ le 1 (crc8 b)

/-- The sequence number of a good frame: 19 bytes with SYNC and CRC correct (14 R621). -/
def crossGood (b : List Byte) : Option Nat :=
  if b.length = 19 ∧ field b 0 1 = 0xA5 ∧ field b 18 1 = crc8 ((b.drop 1).take 17) then some (field b 1 1) else none

/-- What a downward frame tells a block: the output states, or the commands of the analogue outputs (14 R627, R640). -/
def State.crossDown (s : State) (b : Nat) : List Nat :=
  match b with
  | 0 => []
  | 1 => [s.doWord]
  | _ => (List.range 8).map (fun n => (s.aio n).cmd)

/-- The output channels take the source values of the latest image: limited, or the last value held (14 R640). -/
def State.aoImage (s : State) : State :=
  s.each (List.range 8) (fun t c =>
    match (t.aio c).source with
    | none => t
    | some v =>
      let t1 := t.setAio c (fun a => { a with source := none })
      if (v / 2 ^ 23) % 256 = 255 then
        if t1.on (F.AIO_FLAGS_AO_HOLD c) then t1 else (t1.put (F.AIO_FLAGS_AO_HOLD c) 1).raise 0xB042 islLocal []
      else
        let m := b32Limit v
        ((t1.setAio c (fun a => { a with cmd := m })).wrN (R.AIO_VALUE c) m).put (F.AIO_FLAGS_AO_HOLD c) 0)

/-- CROSSING_FRAME_TX (14 R621, R627, R640): a downward frame starts at a multiple of 10,000 ns and carries the output states of
the latest image. -/
def execCrossingFrameTx (block : Fin 3) (t : Nat) (s : State) : Res :=
  let b := block.val
  let s0 := s.at t
  .next (if !s0.pd (2 + b) ∨ s0.now % 10000 ≠ 0 then s0 else
    let s1 := match b with
      | 0 => s0
      | 1 => s0.doDrive
      | _ => s0.aoImage.aoDrive
    let q := (s1.xing b).downSeq
    (s1.setXing b (fun x => { x with downSeq := (q + 1) % 256 })).send
      (.crossing b (crossFrame q (Config.crossingPayload b (s1.crossDown b)))))

/-- Whether a sequence number skips the one expected (14 R621). -/
def skips (expected : Option Nat) (seq : Nat) : Bool :=
  match expected with
  | some e => decide (e ≠ seq)
  | none => false

/-- A good upward frame (14 R621, R623). -/
def State.xingUp (s : State) (b seq : Nat) : State :=
  let x := s.xing b
  let s1 := (if skips x.upSeq seq then s.xingBad b else s).setXing b (fun x =>
    { x with upSeq := some ((seq + 1) % 256), upOut := false, upAt := s.now })
  let s2 := s1.bitSet R.DIO_STATUS b true
  if x.upOut then s2.raise 0xB031 islLocal [] else s2

/-- A good downward frame: after a timeout the field side drives again from the third in a row (14 R621, R623). -/
def State.xingDown (s : State) (b seq : Nat) : State :=
  let x := s.xing b
  let s1 := (if skips x.downExp seq then s.xingBad b else s).setXing b (fun x =>
    { x with downExp := some ((seq + 1) % 256), downAt := s.now })
  if !x.downOut then s1
  else if x.good + 1 ≥ 3 then
    ((s1.setXing b (fun x => { x with downOut := false, good := 0 })).raise 0xB031 islLocal []).outputsFollow
  else s1.setXing b (fun x => { x with good := x.good + 1 })

/-- CROSSING_FRAME_RX (14 R621, R623): a frame of a block, upward at the bridge or downward at the field side; one that is not
good counts. -/
def execCrossingFrameRx (block : Fin 3) (up : Bool) (bytes : List Byte) (t : Nat) (s : State) : Res :=
  let b := block.val
  let s0 := s.at t
  .next (if !s0.pd (2 + b) then s0 else
    match crossGood bytes with
    | none => if up then s0.xingBad b else (s0.xingBad b).setXing b (fun x => { x with good := 0 })
    | some q => if up then s0.xingUp b q else s0.xingDown b q)

/-- CROSSING_TIMEOUT (14 R622, 19 R788): outputs of the block off, or its inputs STALE; in the active the loss of the DO or AIO
crossing is answered by the failing message and a restart. -/
def State.xingTimeout (s : State) (b : Nat) (up : Bool) : State :=
  let s1 := (s.bump F.DIO_XING_TIMEOUTS 1).raise 0xB030 islLocal (le 1 b ++ le 4 (b2n up))
  let s2 := if up then
      (s1.setXing b (fun x => { x with upOut := true, upSeq := none, waitSample := true })).bitSet R.DIO_STATUS b false
    else (s1.setXing b (fun x => { x with downOut := true, downExp := none, good := 0 })).outputsFollow
  let s3 := if up ∧ b = 0 then s2.lo fun u =>
      { u with di := u.di.map (fun e => (e.1, { e.2 with started := false, hist := [] })) } else s2
  let s4 := if up ∧ b = 2 then s3.lo fun u => { u with aio := u.aio.map (fun e => (e.1, { e.2 with conv := [] })) } else s3
  if s4.isActive ∧ b ≠ 0 then s4.restart 6 else s4

/-- CROSSING_TIMEOUT (14 R622, 19 R788): 50 µs since the latest good frame of a direction, or since the block's power-up. -/
def execCrossingTimeout (block : Fin 3) (up : Bool) (t : Nat) (s : State) : Res :=
  let s0 := s.at t
  let x := s0.xing block.val
  .next (if !s0.pd (2 + block.val) ∨ (if up then x.upOut else x.downOut) ∨ s0.now < (if up then x.upAt else x.downAt) + 50000 then
      s0
    else s0.xingTimeout block.val up)

/-- The crossings of the powered blocks begin (14 R622). -/
def State.xingStart (s : State) : State :=
  s.each ((List.range 3).filter (fun b => s.pd (2 + b))) (fun t b =>
    t.setXing b (fun x => { x with upAt := s.now, downAt := s.now }))

/-! ## Analogue channels (14 R637 to R643) -/

/-- Whether an analogue channel is an input (14 R637). -/
def State.aioInput (s : State) (n : Nat) : Bool := decide ((s.aioRec n).mode = 1) || decide ((s.aioRec n).mode = 3)

/-- Whether a conversion is due: 25 µs before a C2 boundary, one per channel (14 R638). -/
def State.convDue (s : State) (n : Nat) : Bool := decide ((s.now + 25000) % 125000 = 0) && decide ((s.aio n).convAt ≠ some s.now)

/-- ANALOGUE_CONVERSION (14 R637, R638): the current of an input in mA as binary32, before calibration. -/
def execAnalogueConversion (chan : Fin 8) (ma : Word) (t : Nat) (s : State) : Res :=
  let n := chan.val
  let s0 := s.at t
  .next (if s0.aioInput n ∧ !(s0.xing 2).upOut ∧ s0.pd 4 ∧ s0.convDue n then
      (s0.setAio n (fun a => { a with conv := a.conv ++ [b32Add (b32Mul ma.toNat (s0.calWord (2 * n))) (s0.calWord (2 * n + 1))],
                                      convAt := some s0.now, fresh := true })).setXing 2 (fun x => { x with waitSample := false })
    else s0)

/-- The mean of the conversions of a period: summed in order of completion, times 2^−(k−2) (14 R638). -/
def aioMean (conv : List Nat) (k : Nat) : Nat :=
  b32Mul (conv.foldl b32Add 0) ((127 - (k - 2)) * 2 ^ 23)

/-- OVERRANGE of a mean (14 R639). -/
def aioOver (range mean : Nat) : Bool :=
  if range = 0 then !b32Lt mean 0x41C00000 else b32Lt mean 0x40666666 || b32Lt 0x41A80000 mean

/-- The input channels of class boundary `n`: mean, flags, and a new period (14 R638, R639). -/
def State.aioPeriod (s : State) (n : Nat) : State :=
  s.each ((List.range 8).filter (fun c => ((s.aioRec c).mode = 1 || (s.aioRec c).mode = 3) && isBoundary (s.aioRec c).cls n))
    (fun t c =>
      let r := t.aioRec c
      let a := t.aio c
      if a.conv.length < 2 ^ (r.cls - 2) then t.setAio c (fun a => { a with conv := [], fresh := false })
      else
        let m := aioMean (a.conv.drop (a.conv.length - 2 ^ (r.cls - 2))) r.cls
        let o := aioOver r.range m
        (((t.setAio c (fun a => { a with conv := [], mean := m, ovr := o, fresh := true })).wrN (R.AIO_VALUE c) m).putB
          (F.AIO_FLAGS_OVERRANGE c) o))

/-- The source values of the output channels in image `n`, for the next downward frame (14 R613, R640). -/
def State.aoSource (s : State) : State :=
  s.each ((List.range 8).filter (fun c => (s.aioRec c).mode = 2)) (fun t c =>
    match (t.aioRec c).point with
    | none => t
    | some p => t.setAio c (fun a => { a with source := some (t.nextVal p).v.toNat }))

/-- The output part of image `n` reaches the digital and analogue outputs (14 R613, R627, R640). -/
def State.outputsBoundary (s : State) : State :=
  let w := (List.range 16).foldl (fun m i => m + (match (s.doRec i).source with
    | some p => if (s.nextVal p).v = 0 then 0 else 2 ^ i
    | none => 0)) 0
  (((s.lo fun u => { u with doImage := w }).put F.DIO_OUT_CMD w).aoSource).putB F.DIO_STATUS_RELEASED (!s.isActive)

/-- ANALOGUE_OUT_FAULT (14 R640). -/
def execAnalogueOutFault (chan : Fin 8) (fault : Bool) (s : State) : Res :=
  let s1 := s.putB (F.AIO_FLAGS_OUT_FAULT chan.val) fault
  .next (if (s.aioRec chan.val).mode ≠ 2 ∨ !s.pd 4 then s else if fault ∧ !s.on (F.AIO_FLAGS_OUT_FAULT chan.val) then
      s1.raise 0xB043 islLocal [] else s1)

/-- ANALOGUE_MISWIRE (14 R642): 0 ended, 1 above 24.5 mA for 100 ms, 2 reversed. -/
def execAnalogueMiswire (chan : Fin 8) (cond : Fin 3) (s : State) : Res :=
  let c := chan.val
  let s1 := s.setAio c (fun a => { a with miswire := cond.val = 1, reversed := cond.val = 2 })
  .next (if !s.aioInput c ∨ !s.pd 4 then s else if cond.val = 0 then s1
      else (s1.put (F.AIO_FLAGS_MISWIRE c) 1).raise 0xB040 islLocal (le 1 c))

/-- Whether the loop supply of a channel is on (14 R637). -/
def State.supplyOn (s : State) (c : Nat) : Bool :=
  decide ((s.aioRec c).mode = 3) || (decide ((s.aioRec c).mode = 1) && decide ((s.aioRec c).supply ≠ 0))

/-- LOOP_SUPPLY_LIMIT (14 R641). -/
def execLoopSupplyLimit (chan : Fin 8) (limit : Bool) (s : State) : Res :=
  let c := chan.val
  let s1 := s.putB (F.AIO_FLAGS_SUPPLY_LIMIT c) limit
  .next (if !s.supplyOn c ∨ !s.pd 4 then s else if limit ∧ !s.on (F.AIO_FLAGS_SUPPLY_LIMIT c) then s1.raise 0xB041 islLocal []
      else s1)

/-! ## HART (14 R644 to R648, R652) -/

/-- Whether a channel is wired to this module (14 R659 WIRING). -/
def State.wired (s : State) (w : Nat) : Bool := decide (w = 2) || (decide (w = 1) == s.twinB)

/-- Whether this module polls and sweeps a channel: on a pair-wired one only the active does (14 R648). -/
def State.hartMine (s : State) (c : Nat) : Bool :=
  if (s.aioRec c).wiring = 2 then s.isActive else s.wired (s.aioRec c).wiring

/-- The channels that a modem serves, in ascending order (14 R645). -/
def State.hartChans (s : State) (m : Nat) : List Nat :=
  (List.range 8).filter (fun c => decide ((s.aioRec c).modem = m + 1) && s.hartMine c)

/-- A round: each channel and each present device of it in record order (14 R645). -/
def State.hartRound (s : State) (m : Nat) : List (Nat × Nat) :=
  (s.hartChans m).flatMap (fun c => (((List.range (s.aioRec c).hartN).map (fun i => (s.aioRec c).hartFirst + i)).filter
    (fun d => s.loc.present.contains d)).map (fun d => (c, d)))

/-- The addresses that a search covers (14 R648). -/
def State.hartAddrs (s : State) (m : Nat) : List (Nat × Nat) :=
  (s.hartChans m).flatMap (fun c => (List.range (if (s.aioRec c).mode = 3 then 64 else 1)).map (fun a => (c, a)))

/-- A transaction of a modem begins. -/
def State.hartSend (s : State) (m c d fails : Nat) : State :=
  ((s.setModem m (fun x => { x with busy := some (c, d, fails), sentAt := s.now })).put (F.AIO_HART_CHANNEL m) c).send
    (.hart m c (s.hartDev d).addr 3)

/-- A search step: command 0 to the next address (14 R648). -/
def State.hartStep (s : State) (m : Nat) : State :=
  match (s.modem m).search with
  | [] => s
  | (c, a) :: t =>
    ((s.setModem m (fun x => { x with search := t, searching := some (c, a), sentAt := s.now })).put (F.AIO_HART_CHANNEL m) c).send (.hart m c a 0)

/-- HART_POLL (14 R645, R653): the next device of the round; after each round one address of a running search. -/
def execHartPoll (modem : Fin 2) (t : Nat) (s : State) : Res :=
  let m := modem.val
  let s0 := s.at t
  let k := s0.modem m
  .next (if k.busy.isSome ∨ k.searching.isSome ∨ !s0.pd 4 then s0 else
    match k.round with
    | (c, d) :: t => (s0.setModem m (fun x => { x with round := t })).hartSend m c d 0
    | [] =>
      let s1 := s0.setModem m (fun x => { x with round := s0.hartRound m })
      if k.search ≠ [] then s1.hartStep m
      else match s0.hartRound m with
        | (c, d) :: t => (s1.setModem m (fun x => { x with round := t })).hartSend m c d 0
        | [] => s1)

/-- SWEEPING follows the search of a modem. -/
def State.hartSweepShow (s : State) (m : Nat) : State :=
  s.putB (F.AIO_HART_SWEEPING m) (decide ((s.modem m).search ≠ []) || (s.modem m).searching.isSome)

/-- PRESENT of the channel of a device. -/
def State.hartShow (s : State) (d : Nat) (b : Bool) : State :=
  s.each (List.range 8) (fun t c =>
    let r := t.aioRec c
    if r.hartFirst ≤ d ∧ d < r.hartFirst + min r.hartN 15 then t.bitSet (R.AIO_FLAGS c) (16 + d - r.hartFirst) b else t)

/-- HART_REPLY_RX (14 R647, R648): a reply to command 3 gives variables for the next C7 boundary; a reply to command 0 finds a
device, which takes part from the next round. -/
def execHartReplyRx (modem : Fin 2) (vars : List Word) (ovr : Bool) (s : State) : Res :=
  let m := modem.val
  let k := s.modem m
  .next (match k.searching with
    | some (c, a) =>
      let found := ((List.range (s.aioRec c).hartN).map (fun i => (s.aioRec c).hartFirst + i)).find?
        (fun d => (s.hartDev d).addr = a)
      let s1 := s.setModem m (fun x => { x with searching := none })
      let s2 := match found with
        | some d => if s.loc.present.contains d then s1 else
            (((s1.lo fun u => { u with present := d :: u.present }).hartShow d true).raise 0xB045 islLocal
              (le 1 c ++ le 8 a))
        | none => s1
      s2.hartSweepShow m
    | none =>
      match k.busy with
      | some (_, d, _) =>
        let dev := s.hartDev d
        let l := (((List.range (min dev.nvar 4)).zip vars).filterMap (fun e =>
          (((dev.points[e.1]?).getD none).map (fun p => (p, e.2, ovr)))))
        (s.setModem m (fun x => { x with busy := none })).lo fun u =>
          { u with hartVars := u.hartVars.filter (fun v => !l.any (fun w => decide (w.1 = v.1))) ++ l,
                   hartStale := u.hartStale.filter (fun p => !l.any (fun w => decide (w.1 = p))) }
      | none => s)

/-- A device is absent: its points turn STALE (14 R645). -/
def State.hartAbsent (s : State) (m d : Nat) : State :=
  let pts := (s.hartDev d).points.filterMap id
  (((s.setModem m (fun x => { x with busy := none })).lo fun u =>
    { u with present := u.present.filter (fun e => e ≠ d), hartStale := u.hartStale ++ pts,
             hartVars := u.hartVars.filter (fun v => !pts.contains v.1) }).hartShow d false).raise 0xB046 islLocal []

/-- HART_REPLY_TIMEOUT (14 R645): no reply within 400 ms: two retries, then the device is absent; a searched address without a
reply has no device. -/
def execHartReplyTimeout (modem : Fin 2) (t : Nat) (s : State) : Res :=
  let m := modem.val
  let s0 := s.at t
  let k := s0.modem m
  .next (if s0.now < k.sentAt + 400000000 then s0 else match k.searching with
    | some _ => (s0.setModem m (fun x => { x with searching := none })).hartSweepShow m
    | none => match k.busy with
      | some (c, d, f) => if f < 2 then (s0.bump (F.AIO_HART_RETRIES m) 1).hartSend m c d (f + 1) else s0.hartAbsent m d
      | none => s0)

/-- An address search begins (14 R648). -/
def State.hartSearch (s : State) (m : Nat) : State :=
  (s.setModem m (fun x => { x with search := s.hartAddrs m })).hartSweepShow m

/-- HART_SWEEP (14 R648): SWEEP_S seconds after the sweep before. MARK: DESIGN CHOICE: the first one may come at once
(assumption 108). -/
def execHartSweep (modem : Fin 2) (t : Nat) (s : State) : Res :=
  let m := modem.val
  let s0 := s.at t
  let due := match (s0.modem m).sweptAt with
    | some a => decide (s0.now ≥ a + s0.image.localIo.sweepS * 1000000000)
    | none => true
  .next (if s0.on (F.AIO_HART_SWEEPING m) ∨ !due ∨ !s0.pd 4 then s0
    else (s0.setModem m (fun x => { x with sweptAt := some s0.now })).hartSearch m)

/-- A write of SEARCH (14 R652). -/
def State.hartClaim (s : State) (m : Nat) : State :=
  if s.on (F.AIO_HART_SWEEPING m) then (s.put (F.AIO_HART_RES_BUSY m) 1).raise 0xB047 islLocal []
  else if s.pd 4 then s.hartSearch m else s

/-- HART_SEARCH (14 R652). -/
def execHartSearch (modem : Fin 2) (s : State) : Res := .next (s.hartClaim modem.val)

/-! ## Pair wiring and agreement (14 R649 to R651) -/

/-- An input point of a local channel: channel for events, point, class, rule (0 MATCH, 1 AND, 2 OR, 3 AVG), TOL, wiring, and this
module's copy: value, quality, missing. -/
structure LocalPt where
  chan : Nat
  point : Nat
  cls : Nat
  rule : Nat := 0
  tol : Nat := 0
  wiring : Nat := 2
  v : Word := 0
  q : Nat := 1
  missing : Bool := false
  /-- Bits that a crossing timeout sets in the value that a STALE point keeps (14 R619). -/
  outBits : Word := 0
  deriving DecidableEq, Repr, Inhabited

/-- The points of DI `i` for boundary `n` (14 R619, R620, R622, R650). -/
def State.diPts (s : State) (n i : Nat) : List LocalPt :=
  let r := s.diRec i
  let d := s.di i
  let smp := d.hist.find? (fun e => decide (e.1 + 18000 ≤ boundaryNs n))
  let out := (s.xing 0).upOut
  let stale := out || (s.xing 0).waitSample || smp.isNone || !s.pd 2
  let cls := (smp.map (fun e => e.2.2)).getD .off
  let st := (smp.map (fun e => e.2.1)).getD false
  let status := b2n (decide (cls = .wireBreak)) + 2 * b2n (decide (cls = .uncertain)) + 4 * b2n out
  (match r.value with
    | some p => [{ chan := i, point := p, cls := r.cls, rule := r.rule, wiring := r.wiring, v := BitVec.ofNat 32 (b2n st),
                   missing := stale || decide (cls = .wireBreak) }]
    | none => []) ++
  (match r.status with
    | some p => [{ chan := i, point := p, cls := r.cls, rule := r.rule, wiring := r.wiring, v := BitVec.ofNat 32 status,
                   missing := stale, outBits := BitVec.ofNat 32 (4 * b2n out) }]
    | none => [])

/-- The point of trip `i`: 1 while its latch is set (14 R633). Rules of a trip record: 1 AND, 2 OR, 3 MATCH. -/
def State.tripPts (s : State) (i : Nat) : List LocalPt :=
  let r := s.tripRec i
  match r.value with
  | some p => [{ chan := 32 + i, point := p, cls := r.cls, rule := if r.rule = 3 then 0 else r.rule, wiring := r.wiring,
                 v := BitVec.ofNat 32 (b2n (bitOf (s.get F.DIO_TRIP_LATCH) i)), missing := (s.xing 0).upOut || !s.pd 2 }]
  | none => []

/-- The value and status points of analogue channel `i` (14 R638, R639, R642). -/
def State.aioPts (s : State) (i : Nat) : List LocalPt :=
  let r := s.aioRec i
  let a := s.aio i
  let stale := (s.xing 2).upOut || !s.pd 4
  (if r.mode = 1 ∨ r.mode = 3 then
    match r.point with
    | some p => [{ chan := 64 + i, point := p, cls := r.cls, rule := 3, tol := r.tol, wiring := r.wiring,
                   v := BitVec.ofNat 32 (if a.miswire then 0x41C00000 else if a.reversed then 0 else b32Limit a.mean),
                   q := qValid + (if a.ovr || a.miswire then qOver else 0), missing := stale || !a.fresh }]
    | none => []
   else []) ++
  (match r.status with
    | some p => [{ chan := 64 + i, point := p, cls := r.cls, wiring := r.wiring, v := s.rd (R.AIO_FLAGS i), missing := stale }]
    | none => [])

/-- The group status points of the digital outputs (14 R612, R625). -/
def State.doPts (s : State) : List LocalPt :=
  let one := fun (p : Option Nat) (g : Nat) => match p with
    | some p => [({ chan := 48 + g, point := p, cls := s.image.localIo.statusClass,
                    v := BitVec.ofNat 32 (b2n (bitOf (s.get F.DIO_STATUS_DO_FAULT) g)),
                    missing := (s.xing 1).upOut || !s.pd 3 } : LocalPt)]
    | none => []
  one s.image.localIo.do0Status 0 ++ one s.image.localIo.do8Status 1

/-- The HART variables that enter at a C7 boundary; those of the standby count as missing on a pair-wired channel, and those behind a
crossing that timed out are STALE (04 R145, 14 R647, R648, R650). -/
def State.hartPts (s : State) : List LocalPt :=
  s.loc.hartVars.map (fun v => {
    chan := 96, point := v.1, cls := 7, v := v.2.1, q := qValid + (if v.2.2 then qOver else 0)
    missing := s.isStandby || (s.xing 2).upOut || !s.pd 4 }) ++
  s.loc.hartStale.map (fun p => { chan := 96, point := p, cls := 7, missing := true })

/-- This module's copies of every local input point whose class has a boundary at `n`. -/
def State.localPts (s : State) (n : Nat) : List LocalPt :=
  (((List.range 32).flatMap (s.diPts n) ++ (List.range 4).flatMap s.tripPts ++ (List.range 8).flatMap s.aioPts ++ s.doPts ++
    s.hartPts).filter (fun p => isBoundary p.cls n)).map
      (fun p => { p with missing := p.missing || !s.wired p.wiring })

/-- The copies sent to the partner for boundary `n` (14 R649). -/
def State.localSend (s : State) (n : Nat) : State :=
  if s.exchanging then s.each (s.localPts n) (fun t p => t.send (.localCopy p.point n p.v (qByte p.q) p.missing)) else s

/-- The resolution of a point from the active's copy `a` and the standby's copy `b`: value, quality before SOURCE, whether they
differ (14 R651). -/
def agreeLocal (rule tol : Nat) (a b : Word × Nat) : Word × Nat × Bool :=
  let q := qValid + (if Nat.lor a.2 b.2 / 32 % 2 = 1 then qOver else 0)
  if a.1 = b.1 then (a.1, q, false)
  else match rule with
    | 1 => (a.1 &&& b.1, q + qDiff, true)
    | 2 => (a.1 ||| b.1, q + qDiff, true)
    | 3 =>
      let x := a.1.toNat
      let y := b.1.toNat
      if b32Lt tol ((b32Sub x y) % 2 ^ 31) then (a.1, q + qDiff, true)
      else (BitVec.ofNat 32 (b32Mul (b32Add x y) 0x3F000000), q, false)
    | _ => (a.1, q + qDiff, true)

/-- A point without a copy is STALE: it keeps its value, with the bit of a crossing timeout set (14 R619, R622, R650). -/
def State.localStale (s : State) (p : LocalPt) : State :=
  let o := s.ownerVal p.point
  s.deliver p.point (o.v ||| p.outBits) (qToStale o.q)

/-- Resolution of one local input point at the close of image `n` (14 R614, R649 to R651). The list gathers what the close record
carries: points that the active resolved with a missing partner copy. -/
def State.localResolve (s : State) (p : LocalPt) (n : Nat) : State × Option (Nat × Word × Byte) :=
  let ex := s.exchanging
  let alone := s.isStandby && s.on F.TWN_STATUS_SUSPECT
  let given := if s.isStandby && !alone then s.loc.adopted.find? (fun e => e.1 = p.point) else none
  match given with
  | some e => (s.deliver p.point e.2.1 e.2.2, none)
  | none =>
    let other := if ex && decide (s.loc.partnerN = n) then s.loc.partner.find? (fun c => decide (c.point = p.point) && !c.missing)
                 else none
    let src := s.localSource
    let fin := fun (t : State) => (t, if s.isActive && ex && other.isNone then
      some (p.point, (t.nextVal p.point).v, (t.nextVal p.point).q) else none)
    match other with
    | none => if p.missing then fin (s.localStale p) else fin (s.deliver p.point p.v (qByte (p.q + src)))
    | some c =>
      if p.missing then fin (s.deliver p.point c.v (qByte (qValid + (c.q.toNat / 32 % 2) * qOver + src)))
      else
        let mine := (p.v, p.q)
        let theirs := (c.v, c.q.toNat)
        let r := if s.isActive then agreeLocal p.rule p.tol mine theirs else agreeLocal p.rule p.tol theirs mine
        let s1 := s.deliver p.point r.1 (qByte (r.2.1 + src))
        fin (if r.2.2 then s1.raise 0xB060 islLocal (le 1 p.chan) else s1)

/-- Every local input point of boundary `n` at the close; HART variables have entered. A standby that does not decide alone also takes
what the close record gives for points of which it holds no copy (14 R649). -/
def State.localClose (s : State) (n : Nat) : State × List (Nat × Word × Byte) :=
  let s1 := s.aioPeriod n
  let l := s1.localPts n
  let r := l.foldl (fun (a : State × List (Nat × Word × Byte)) p =>
    let x := a.1.localResolve p n
    (x.1, a.2 ++ x.2.toList)) (s1, [])
  let rest := if s1.isStandby && !s1.on F.TWN_STATUS_SUSPECT then
      s1.loc.adopted.filter (fun e => l.all (fun p => decide (p.point ≠ e.1))) else []
  let c7 := isBoundary 7 n
  ((r.1.each rest fun t e => t.deliver e.1 e.2.1 e.2.2).lo fun u => { u with
    adopted := [], hartVars := if c7 then [] else u.hartVars, hartStale := if c7 then [] else u.hartStale }, r.2)

end Sys2Proof.Machine
end

