-- ==== Sys2Proof/Machine/LoopOp.lean ====
section
/-! DEFINITION. Samples of the head slots: the input copy, results, faults, holds, delivery at the staging instant, migration
to the spare pair, flag clears (06 R247 to R279, 07 R323 to R342). -/
namespace Sys2Proof.Machine

/-! ## Which slots run -/

/-- Whether this module computes objects of class Ck at boundary `n`: while it joins, from its first own boundary at or
after M (09 R430, R469). -/
def State.computes (s : State) (n : Nat) : Bool :=
  s.on F.CYC_STATUS_RUNNING &&
  (decide (s.tstate ≠ 2) || (decide (s.get F.TWN_JOIN_STEP ≥ 4) && decide (s.twin.joinM ≤ n)))

/-- Island of the even cluster of a head slot's pair (06 R242, R243). -/
def slotIsland (slot : Nat) : Nat := islCluster (2 * (slot / 1024))

/-- Class of a head slot (06 SLOT_CFG). -/
def State.slotCls (s : State) (slot : Nat) : Nat := s.get (F.SLOT_CFG_CLASS slot)

/-! ## Ports (06 R250 to R254, R306) -/

/-- Whether a port word binds an input port. MARK: DESIGN CHOICE: a port whose OUTPUT bit disagrees with its number is not bound
(assumption 121). -/
def boundIn (w : Nat) : Bool := bitOf w 31 && !bitOf w 30
/-- Whether a port word binds an output port. -/
def boundOut (w : Nat) : Bool := bitOf w 31 && bitOf w 30
/-- QPOL of a port word. -/
def qpol (w : Nat) : Nat := bitsOf w 24 2
/-- The word of port `n`. -/
def portWord (rd : Nat → Nat) (n : Nat) : Nat := rd (0x40 + 4 * n)

/-- Input ports of a law read as REAL32 (06 R280, R282, R299). -/
def realPorts (law : Nat) : List Nat :=
  match law with
  | 1 => [0, 1, 2, 3, 5]
  | 2 => [2, 3, 4, 5, 7]
  | 5 => [0, 1, 2, 3, 5]
  | _ => []

/-- Output ports of a law, STAT apart (06 R280, R282, R289, R296, R299). -/
def outPorts (law : Nat) : List Nat :=
  match law with
  | 1 => [8]
  | 4 => [8, 9]
  | _ => [8, 9, 10, 11]

/-- The copy of one port (06 R248). -/
def State.portCopy (s : State) (rd : Nat → Nat) (n : Nat) : InPort :=
  let w := portWord rd n
  if boundIn w then
    let p := w % 2 ^ 20
    { bound := true, typ := (s.pinfo p).typ, v := (s.closedVal p).v.toNat, q := (s.closedVal p).q.toNat }
  else {}

/-- The samples of the stream channel of a FILT slot (06 R296). -/
def State.streamCopy (s : State) (rd : Nat → Nat) : List (Option Int) :=
  if lawOf rd = 4 then
    match s.image.ring? (rd 0x080) with
    | some rr => match rr.chans.findIdx? (fun c => c.chan = rd 0x084) with
      | some k => tget [] (s.ring rr.ring).streams k
      | none => []
    | none => []
  else []

/-- Address of the value word and of the quality byte of a point in the closed image. -/
def State.valueAt (s : State) (p : Nat) : Nat := valueAddr s.sig.buf p
/-- Address of a quality byte of the closed image. -/
def State.qualAt (s : State) (p : Nat) : Nat := qualAddr s.sig.buf p

/-- Whether the value or the quality of a point in the closed image is poisoned (03 R124). -/
def State.pointPoisoned (s : State) (p : Nat) : Bool := s.poisoned (s.valueAt p) 4 || s.poisoned (s.qualAt p) 1

/-- Whether the input copy of a port meets a poisoned word (07 R333). -/
def State.portPoisoned (s : State) (rd : Nat → Nat) (n : Nat) : Bool :=
  boundIn (portWord rd n) && s.pointPoisoned (portWord rd n % 2 ^ 20)

/-- A sample of a slot is released at the close of image `n` (06 R247, R248). -/
def State.slotRelease (s : State) (n slot : Nat) : State :=
  let rd := s.slotRd slot
  let ports := (List.range 8).map (s.portCopy rd)
  let str := s.streamCopy rd
  let bad := (List.range 8).any (s.portPoisoned rd)
  s.sl slot fun d => { d with inCopy := ports, stream := str, boundary := n, busy := true, result := none, holding := false
                              poison := bad }

/-- The input copy of every sample released at the close of image `n` (06 R247, R248). -/
def State.sampleCopy (s : State) (n : Nat) : State :=
  if s.computes n then
    s.each (s.image.loops.filter (fun r => isBoundary (s.slotCls r.slot) n)) (fun t r => t.slotRelease n r.slot)
  else s

/-- Input `n` of the copy. -/
def SlotDyn.port (d : SlotDyn) (n : Nat) : InPort := (d.inCopy[n]?).getD {}

/-- Whether a bound input lacks VALID: Q_IN (06 R253). -/
def SlotDyn.qIn (d : SlotDyn) : Bool := d.inCopy.any (fun p => !p.valid)

/-- Whether an input is infinite: INF_IN (06 R252). -/
def SlotDyn.infIn (d : SlotDyn) (law : Nat) : Bool := (realPorts law).any (fun n => (readReal (d.port n)).2.1)

/-- The fault that the inputs cause: kind and port; NAN_IN before QUALITY, the lowest port of the kind (06 R275, R278). -/
def SlotDyn.inFault (d : SlotDyn) (rd : Nat → Nat) : Option (Nat × Nat) :=
  match (realPorts (lawOf rd)).find? (fun n => (readReal (d.port n)).2.2) with
  | some n => some (1, n)
  | none => ((List.range 8).find? (fun n => decide (qpol (portWord rd n) = 2) && !(d.port n).valid)).map (fun n => (2, n))

/-- Whether QPOL 1 holds the integrators (06 R253). -/
def SlotDyn.qHold (d : SlotDyn) (rd : Nat → Nat) : Bool :=
  (List.range 8).any (fun n => decide (qpol (portWord rd n) = 1) && !(d.port n).valid)

/-- Whether SCHED, a port of number `n`, keeps the region (07 R314). -/
def SlotDyn.keepReg (d : SlotDyn) (rd : Nat → Nat) (n : Nat) : Bool :=
  decide (qpol (portWord rd n) = 1) && !(d.port n).valid

/-! ## One sample -/

/-- What the law last delivered at OUT or TQ: the held value (06 R279). -/
def State.heldOut (s : State) (slot : Nat) : Nat :=
  let rd := s.slotRd slot
  if (s.slot slot).delivered.contains 8 then rd 0x10
  else if boundOut (portWord rd 8) then ((s.pinfo (portWord rd 8 % 2 ^ 20)).init).toNat else 0

/-- The CAM table of a slot (06 R290). -/
def State.camTable (s : State) (slot : Nat) : List Nat :=
  (List.range (min (s.slotRd slot 0x084) 4096)).map (fun i => s.memN (camBase slot + 4 * i) 4)

/-- What a sample knows beside its words. -/
def State.sampleIn (s : State) (slot : Nat) : SampleIn :=
  let d := s.slot slot
  { ports := d.inCopy, first := d.first, restart := if d.restart then some (s.heldOut slot) else none
    prevAuto := d.prevAuto, prevW := d.prevW, oldGains := d.oldGains, oldVmax := d.oldVmax
    gainsWritten := d.gainsWritten, stream := d.stream, table := if lawOf (s.slotRd slot) = 3 then s.camTable slot else [] }

/-- The mode of a sample (07 R323). -/
def SlotDyn.autoOf (d : SlotDyn) (rd : Nat → Nat) (n : Nat) : Bool :=
  if boundIn (portWord rd n) then bitOf (d.port n).v 0 else bitOf (rd 0x024) 0

/-- A value at a port of type REAL32. -/
def SlotDyn.real (d : SlotDyn) (n : Nat) : Nat := (readReal (d.port n)).1

/-- The encoder step of an AXIS sample; none at a first sample or restart (06 R283, R288). -/
def State.encStep (s : State) (slot : Nat) : Int :=
  let d := s.slot slot
  if d.first || d.restart then 0 else wrapdiff (d.port 0).v (s.slotRd slot 0x180)

/-- The law's sample on its input copy (06 R281 to R301); the second number counts results replaced by MAXF. -/
def State.lawSample (s : State) (slot : Nat) : SampleOut × Nat :=
  let rd := s.slotRd slot
  let d := s.slot slot
  let si := s.sampleIn slot
  let n := nregOf rd
  let r := bitsOf (rd 4) 16 3
  let lat := bitOf (rd 0x024) 1
  match lawOf rd with
  | 1 => (pid2Sample rd si (d.real 0) (d.real 1) (d.real 2) (d.real 3) (d.real 5) (d.autoOf rd 4) (d.qHold rd) (d.keepReg rd 3)
          n r (rd 0x028) lat (rd 0x02C)).run 0
  | 2 => (axisSample rd si (d.port 0).v (d.port 1).v (d.real 2) (d.real 3) (d.real 4) (d.real 5) (d.real 7) (s.encStep slot)
          (d.autoOf rd 6) (d.qHold rd) (d.keepReg rd 5) n r (rd 0x028) lat (rd 0x02C)).run 0
  | 3 => (camSample rd si (d.port 0).v).run 0
  | 4 => (filtSample rd si).run 0
  | 5 => (ss4Sample rd si [d.real 0, d.real 1, d.real 2, d.real 3] (d.real 5) (d.qHold rd) (d.keepReg rd 5) n r).run 0
  | _ => ({}, 0)

/-- The sample of a law whose counts lie outside their ranges: its outputs are free values (assumption 2). -/
def State.freeSample (s : State) (law : Nat) : SampleOut :=
  { outs := (outPorts law).zipIdx.map (fun e => (e.1, (Config.freeValue (s.freeCtr + e.2)).toNat % 2 ^ 32)) }

/-- The outcome of a sample: a standing fault, a new fault, or the law's result (06 R275 to R278, R294). `fetch` is the
response to a failed CAM table read. -/
def State.outcome (s : State) (slot : Nat) (fetch : Option Nat) : SampleOut :=
  let rd := s.slotRd slot
  let d := s.slot slot
  let law := lawOf rd
  if bitOf (rd 4) 0 && !d.restart then { fault := some (0, 0, 0) }
  else match d.inFault rd with
  | some (k, p) => { fault := some (k, p, 0) }
  | none =>
    let dn := s.encStep slot
    if law = 2 ∧ (rd 0x0A0 : Int) < Int.natAbs dn then { fault := some (4, 0, ofSigned 32 dn) }
    else if law = 3 ∧ fetch.isSome then { fault := some (5, 0, fetch.getD 0) }
    else if countsOk rd then
      let r := s.lawSample slot
      { r.1 with ovfl := r.2 }
    else s.freeSample law

/-- Flags of SLOT_STATUS after a sample (06 R253, R264, R266, R276, R277, R286, R297; 07 R312, R323). -/
def statusAfter (w : Word) (law : Nat) (o : SampleOut) (q inf : Bool) : Word :=
  let w1 := putBits (putBits w 8 1 (b2n q)) 9 1 (b2n inf)
  match o.fault with
  | some (0, _, _) => w1
  | some (k, _, _) => putBits (putBits w1 0 1 1) 1 3 k
  | none =>
    let w2 := putBits (putBits w1 5 1 (b2n o.lim)) 6 1 (b2n o.held)
    let w3 := if o.lim then putBits w2 4 1 1 else w2
    let w4 := if o.ovfl ≠ 0 then putBits w3 7 1 1 else w3
    let w5 := if o.gaps ≠ 0 then putBits w4 11 1 1 else w4
    let w6 := putBits (putBits w5 10 1 (b2n o.fe)) 16 3 o.region
    if law = 1 ∨ law = 2 then putBits w6 19 1 (b2n o.auto) else w6

/-- SLOT_STATUS of a slot once the outcome is written. -/
def State.statusNext (s : State) (slot : Nat) (o : SampleOut) : Word :=
  statusAfter (s.rd (R.SLOT_STATUS slot)) (lawOf (s.slotRd slot)) o (s.slot slot).qIn
    ((s.slot slot).infIn (lawOf (s.slotRd slot)))

/-- SLOT_MODE once the outcome of a sample that ran is written (07 R325, R328). -/
def State.modeNext (s : State) (slot : Nat) (o : SampleOut) : Word :=
  let w := putBits (s.rd (R.SLOT_MODE slot)) 1 1 (b2n o.latched)
  if (s.slot slot).prevAuto = some (!o.auto) then putBits w 16 16 (getBits w 16 16 + 1) else w

/-- The words of the header that are slot state and that the sample writes (07 Slot header). -/
def State.headWrites (s : State) (slot : Nat) (o : SampleOut) : List (Nat × Nat) :=
  if decide (lawOf (s.slotRd slot) = 1 ∨ lawOf (s.slotRd slot) = 2) && o.fault.isNone then
    [(0x024, (s.modeNext slot o).toNat), (0x028, o.m), (0x02C, o.manref)]
  else []

/-- The comparison word of a sample: the output port words in port order, STAT last, then the state words that the sample
writes in offset order (07 R331). -/
def State.cmpOf (s : State) (slot : Nat) (o : SampleOut) : Nat :=
  crc64 (o.outs.flatMap (fun e => le 4 e.2) ++ le 4 ((s.statusNext slot o).toNat % 4096) ++
    (s.headWrites slot o ++ o.writes).flatMap (fun e => le 4 e.2))

/-! ## Delivery (06 R254, R276; 07 R332, R334) -/

/-- A word is delivered at an output port, where it is bound. -/
def State.portOut (s : State) (slot n v q : Nat) : State :=
  let w := portWord (s.slotRd slot) n
  if boundOut w then s.deliver (w % 2 ^ 20) (BitVec.ofNat 32 v) (qByte q) else s

/-- STAT is delivered (06 R254). -/
def State.statOut (s : State) (slot : Nat) : State := s.portOut slot 15 (s.slotRd slot 4 % 4096) qValid

/-- Every output but STAT keeps its last value: VALID and SUBSTITUTED where it has had a normal delivery since image commit
(06 R276, 07 R334). -/
def State.holdOutputs (s : State) (slot : Nat) : State :=
  (s.each (s.slot slot).delivered (fun t n => t.portOut slot n (t.slotRd slot (0x10 + 4 * (n - 8))) (qValid + qSubst))).statOut
    slot

/-- SLOT_SAMPLES and SLOT_LAST advance, held and faulted samples included (06 SLOT_SAMPLES, 07 R334). -/
def State.countSample (s : State) (slot : Nat) : State :=
  (s.step1 (F.SLOT_SAMPLES_SAMPLES slot)).wrN (R.SLOT_LAST slot) (s.slot slot).boundary

/-- LPE_STATUS and LPE_USE follow the laws that are faulted. -/
def State.faultShow (s : State) : State :=
  let n := (s.image.loops.filter (fun r => s.on (F.SLOT_STATUS_FAULT r.slot))).length
  (s.put F.LPE_USE_FAULTED n).putB F.LPE_STATUS_FAULTED (decide (n ≠ 0))

/-- The event of a slot fault (06 R275). -/
def State.faultEvent (s : State) (slot kind port data : Nat) : State :=
  let isl := slotIsland slot
  match kind with
  | 1 => s.raise 0x5001 isl (le 2 slot ++ le 1 port)
  | 2 => s.raise 0x5002 isl (le 2 slot ++ le 1 port)
  | 3 => s.raise 0x5003 isl []
  | 4 => s.raise 0x5004 isl (le 2 slot ++ le 4 data)
  | _ => s.raise 0x5005 isl (le 2 slot ++ le 4 data)

/-- A law becomes faulted (06 R275, R276, R278). -/
def State.slotFault (s : State) (slot kind port data : Nat) : State :=
  let s1 := (s.put (F.SLOT_STATUS_FAULT slot) 1).put (F.SLOT_STATUS_FAULT_KIND slot) kind
  let s2 := s1.wrN R.LPE_LAST_FAULT (slot % 16384 + 65536 * kind + 1048576 * port)
  ((s2.bump F.LPE_FAULTS_FAULTS 1).faultShow).faultEvent slot kind port data

/-- Events and flags of a sample that ran (06 R257, R266, R286, R297; 07 R322, R328). -/
def State.sampleEvents (s : State) (slot : Nat) (o : SampleOut) : State :=
  let isl := slotIsland slot
  let d := s.slot slot
  let s1 := if o.lim then
      let t := s.put F.LPE_STATUS_LIMIT_ANY 1
      if s.on (F.SLOT_STATUS_LIMIT_HIT slot) then t else t.raise 0x5007 isl []
    else s
  let s2 := if o.ovfl ≠ 0 then ((s1.put F.LPE_STATUS_OVFL_ANY 1).bump F.LPE_OVFL_REPLACED o.ovfl).raise 0x5008 isl [] else s1
  let s3 := if o.fe && !s.on (F.SLOT_STATUS_FE slot) then
      s2.raise 0x5009 isl (le 2 slot ++ le 4 (((o.outs.find? (fun e => e.1 = 9)).map (fun e => e.2)).getD 0)) else s2
  let s4 := if o.gaps ≠ 0 then s3.raise 0x500B isl (le 2 slot ++ le 4 o.gaps) else s3
  if d.prevAuto = some (!o.auto) then
    (s4.step1 (F.SLOT_MODE_TRANSFERS slot)).raise 0x5015 isl (le 2 slot ++ le 4 (b2n o.auto))
  else s4

/-- The words of the header that a sample of a law with regions and modes writes (07 R312, R322, R325). -/
def State.sampleHeader (s : State) (slot : Nat) (o : SampleOut) : State :=
  let law := lawOf (s.slotRd slot)
  let d := s.slot slot
  let s1 := if hasRegions law then s.wrN (R.SLOT_SCHED slot) o.x else s
  let s2 := if hasRegions law && !d.first && !d.restart && decide (o.region ≠ s.get (F.SLOT_STATUS_REGION slot)) then
      s1.step1 (F.SLOT_RCHG_CHANGES slot) else s1
  if law = 1 ∨ law = 2 then
    ((s2.putB (F.SLOT_MODE_MAN_LATCHED slot) o.latched).wrN (R.SLOT_MANV slot) o.m).wrN (R.SLOT_MANREF slot) o.manref
  else s2

/-- What the slot keeps beside its window for its next sample (07 R319, R325). -/
def SlotDyn.after (d : SlotDyn) (rd : Nat → Nat) (o : SampleOut) : SlotDyn :=
  let law := lawOf rd
  { d with
    first := false, restart := false, gainsWritten := false, prevW := o.w
    prevAuto := if law = 1 ∨ law = 2 then some o.auto else none
    oldGains := (wordsFrom (0x200 + 64 * o.region) (gainWords law)).map rd
    oldVmax := rd 0x08C
    delivered := o.outs.map (fun e => e.1) }

/-- The result of a sample that ran is written: events, header, state words, flags, outputs (07 R332). -/
def State.writeNormal (s : State) (slot : Nat) (o : SampleOut) : State :=
  let st := s.statusNext slot o
  let d := (s.slot slot).after (s.slotRd slot) o
  let s1 := ((s.sampleEvents slot o).sampleHeader slot o).each o.writes (fun t e => t.slotWr slot e.1 e.2)
  let s2 := ((s1.wr (R.SLOT_STATUS slot) st).setSlot slot d).each o.outs (fun t e =>
    (t.slotWr slot (0x10 + 4 * (e.1 - 8)) e.2).portOut slot e.1 e.2 qValid)
  s2.statOut slot

/-- The word of a stored previous input at a restart: the value in the current input copy (06 R279). -/
def SlotDyn.prevInput (d : SlotDyn) (n : Nat) : Nat :=
  if (readReal (d.port n)).2.2 then (d.port n).v % 2 ^ 32 else d.real n

/-- What a restart sets before its sample runs: filter and observer states zero, stored previous inputs from the input copy; a
CAM or FILT law as at its first sample (06 R279, R295, R298). -/
def SlotDyn.restartWrites (d : SlotDyn) (rd : Nat → Nat) : List (Nat × Nat) :=
  let zeros := fun (o n : Nat) => (wordsFrom o n).map (fun k => (k, 0))
  match lawOf rd with
  | 1 => [(0x188, 0), (0x18C, d.prevInput 1)] ++ zeros 0x194 4
  | 2 => [(0x180, (d.port 0).v % 2 ^ 32), (0x184, 0), (0x188, 0)] ++ zeros 0x580 8
  | 3 => [(0x180, rd 0x09C), (0x184, rd 0x0A0), (0x188, (d.port 0).v % 2 ^ 32)]
  | 4 => zeros 0x180 18 ++ [(0x1C8, ofSigned 32 (filtPrev rd { restart := some 0, stream := d.stream }))]
  | 5 => zeros 0x180 16
  | _ => []

/-- A restart whose sample faults again leaves what it set (06 R279): the states, and MAN_LATCHED clear. -/
def State.restartSet (s : State) (slot : Nat) : State :=
  let d := s.slot slot
  if d.restart then
    (s.each (d.restartWrites (s.slotRd slot)) (fun t e => t.slotWr slot e.1 e.2)).put (F.SLOT_MODE_MAN_LATCHED slot) 0
  else s

/-- The result of a faulted sample is written: flags, and outputs held (06 R276, R277); a restart has set its states. -/
def State.writeFault (s : State) (slot : Nat) (o : SampleOut) (f : Nat × Nat × Nat) : State :=
  let st := s.statusNext slot o
  let s1 := ((s.restartSet slot).wr (R.SLOT_STATUS slot) st).sl slot fun d => { d with restart := false }
  (if f.1 = 0 then s1 else s1.slotFault slot f.1 f.2.1 f.2.2).holdOutputs slot

/-! ## Loop trace (07 R343 to R348) -/

/-- Entry `i` of a list of numbers. -/
def nth (l : List Nat) (i : Nat) : Nat := (l[i]?).getD 0

/-- Eight numbers with entry `i` changed. -/
def setNth (l : List Nat) (i v : Nat) : List Nat := (List.range 8).map (fun k => if k = i then v else nth l k)

/-- State of a cluster's trace: 0 IDLE, 1 ARMED, 2 READY, 3 POST, 4 OFFLOAD (07 R346). -/
def State.trc (s : State) (c : Nat) : Nat := s.get (F.TRC_CTL_STATE c)

/-- The trace passes to a state; BUSY shows whether it is IDLE. -/
def State.setTrc (s : State) (c n : Nat) : State := (s.put (F.TRC_CTL_STATE c) n).setBit R.TRC_STATUS c (decide (n ≠ 0))

/-- The enabled channels of a cluster. -/
def State.trcChans (s : State) (c : Nat) : List Nat :=
  (List.range 8).filter (fun n => decide (s.get (F.TRC_CH_NODE c n) ≠ 0))

/-- PRE of a cluster. -/
def State.trcPre (s : State) (c : Nat) : Nat := s.get (F.TRC_COUNTS_PRE c)
/-- POST of a cluster. -/
def State.trcPost (s : State) (c : Nat) : Nat := s.get (F.TRC_COUNTS_POST c)

/-- A trigger is met at a sample of C0 count `n` (07 R346, R350). -/
def State.trcTrigger (s : State) (c n : Nat) : State :=
  match s.trc c with
  | 1 => s.bump (F.TRC_CTL_MISSED c) 1
  | 2 =>
    let s1 := (s.wrN (R.TRC_TIME c) n).setTrace c { s.trace c with post := [] }
    (s1.setTrc c 3).raise 0x5020 (islCluster c) (le 1 c ++ le 4 n)
  | 4 => s.bump (F.TRC_CTL_MISSED c) 1
  | _ => s

/-- Whether one binary32 word lies below another (07 R348). -/
def below32 (a b : Nat) : Bool := ltV (f32.unpack a) (f32.unpack b)

/-- The trigger condition of a cluster between two records of the channel compared (07 R348). -/
def State.trcMet (s : State) (c : Nat) (prev : Option Nat) (w n : Nat) : Bool :=
  let node := s.get (F.TRC_CH_NODE c (s.get (F.TRC_TRIG_TRIG_CH c)))
  let lev := s.rdN (R.TRC_LEVEL c)
  let lt := fun a b => if node = 9 then decide (a < b) else below32 a b
  let ge := fun a b => if node = 9 then decide (b ≤ a) else below32 b a || eqV (f32.unpack a) (f32.unpack b)
  match s.get (F.TRC_TRIG_COND c), prev with
  | 1, some p => lt p lev && ge w lev
  | 2, some p => ge p lev && lt w lev
  | 3, some p => (lt p lev && ge w lev) || (ge p lev && lt w lev)
  | 4, some p =>
    let i := s.get (F.TRC_TRIG_FLAG_BIT c)
    decide (node = 9) && !bitOf p i && bitOf w i
  | 5, some p => decide (node = 9) && decide (bitsOf p 16 3 ≠ bitsOf w 16 3)
  | 6, _ => decide (n % 2 ^ 32 = lev)
  | _, _ => false

/-- The word of a node after a sample (07 R344). A node that a faulted sample does not compute is a free value
(assumption 2); its output ports hold. -/
def State.nodeWord (s : State) (slot node : Nat) (o : SampleOut) : Nat :=
  if node = 9 then (s.statusNext slot o).toNat % 2 ^ 20
  else if o.fault.isSome then
    if node ≥ 10 then s.slotRd slot (0x10 + 4 * (node - 10)) else s.free.toNat % 2 ^ 32
  else ((o.nodes.find? (fun e => e.1 = node)).map (fun e => e.2)).getD 0

/-- A record of a channel: it goes into the ring, and in POST counts toward the records still to come (07 R345, R346). -/
def State.trcRecord (s : State) (c ch w n : Nat) : State :=
  let k := s.trace c
  let post := nth k.post ch
  if s.trc c = 3 ∧ post ≥ s.trcPost c then s else
  let ring := (k.rings[ch]?).getD [] ++ [(w, n % 2 ^ 32)]
  let rings := (List.range 8).map (fun i => if i = ch then ring.drop (ring.length - 4096) else (k.rings[i]?).getD [])
  s.setTrace c { k with rings := rings, since := setNth k.since ch (nth k.since ch + 1)
                        post := if s.trc c = 3 then setNth k.post ch (post + 1) else k.post }

/-- One channel at a sample of its slot: the record (07 R345). -/
def State.trcChan (s : State) (c ch slot : Nat) (o : SampleOut) : State :=
  let node := s.get (F.TRC_CH_NODE c ch)
  let w := s.nodeWord slot node o
  let s1 := if o.fault.isSome && decide (node < 9) then s.take else s
  if s.trc c = 4 then s1 else s1.trcRecord c ch w (s.slot slot).boundary

/-- The trigger of a cluster at a sample that its channel TRIG_CH records: judged once every channel has its record, so that the
records of the trigger sample stand before the trigger in each; while the cluster is offloading it is only counted (07 R346,
R348, R350). -/
def State.trcJudge (s : State) (c slot w : Nat) : State :=
  let n := (s.slot slot).boundary
  let s1 := s.setTrace c { s.trace c with prevRec := some w }
  if s.trcMet c (s.trace c).prevRec w n then s1.trcTrigger c (n % 2 ^ 32) else s1

/-- The trace of one cluster at a sample that is not held. -/
def State.trcSample (s : State) (c slot : Nat) (o : SampleOut) : State :=
  if 1 ≤ s.trc c ∧ s.trc c ≤ 4 then
    let l := (s.trcChans c).filter (fun n => decide (s.get (F.TRC_CH_SLOT c n) = slot))
    let tr := s.get (F.TRC_TRIG_TRIG_CH c)
    let a := l.foldl (fun (a : State × Option Nat) n =>
      (a.1.trcChan c n slot o, if n = tr then some (a.1.nodeWord slot (s.get (F.TRC_CH_NODE c n)) o) else a.2)) (s, none)
    match a.2 with
    | some w => a.1.trcJudge c slot w
    | none => a.1
  else s

/-- The trace of a sample that is not held: channels 0 to 7 of both clusters of its pair (07 R343, R345, R353). -/
def State.traceSample (s : State) (slot : Nat) (o : SampleOut) : State :=
  s.each [2 * (slot / 1024), 2 * (slot / 1024) + 1] (fun t c => t.trcSample c slot o)

/-! ## The end of a sample -/

/-- A sample ends at the staging instant: its result is written and traced, or it is held (07 R332, R334, R345). -/
def State.endSample (s : State) (slot : Nat) (held : Bool) : State :=
  let d := s.slot slot
  let s1 := match held, d.result with
    | false, some o =>
      let t := (s.traceSample slot o).countSample slot
      (match o.fault with
        | some f => t.writeFault slot o f
        | none => t.writeNormal slot o).tw fun u => { u with cmpWords := u.cmpWords ++ [(d.boundary, slot, d.cmpWord)] }
    | _, _ => (s.countSample slot).holdOutputs slot
  s1.sl slot fun e => { e with busy := false, result := none, holding := false }

/-! ## Migration to the spare pair (07 R336, R339 to R341) -/

/-- Samples of slower classes in progress on a pair are held (07 R340). -/
def State.holdPair (s : State) (p : Nat) : State :=
  s.each (s.image.loops.filter (fun r => decide (r.slot / 1024 = p))) (fun t r =>
    let d := t.slot r.slot
    if d.busy && d.result.isNone && !d.holding && decide (0 < t.slotCls r.slot) then
      (t.bump (F.SLOT_HELD_LATE r.slot) 1).sl r.slot fun e => { e with holding := true }
    else t)

/-- A pair fails with no spare pair to take its slots (07 R339). -/
def State.pairFail (s : State) (p : Nat) : State :=
  let s1 := ((s.put (F.LPE_HEALTH_STATE p) 2).put (F.LPE_PAIR_STATE p) 0).raise 0x5013 (islCluster (2 * p)) []
  let s2 := if s.get (F.LPE_HEALTH_STATE p) = 1 then (s1.put F.LPE_SPARE_STATE 2).put F.LPE_STATUS_SPARE_BUSY 0 else s1
  (s2.noteFault).moduleFault 2

/-- A pair is moved: comparison words differ, or it is slow (07 R339, R341). -/
def State.pairMove (s : State) (p : Nat) : State :=
  match s.get (F.LPE_HEALTH_STATE p) with
  | 0 =>
    if s.get F.LPE_SPARE_STATE = 0 then
      let s1 := (s.put (F.LPE_HEALTH_STATE p) 1).put (F.LPE_PAIR_STATE p) 1
      let s2 := ((s1.put F.LPE_SPARE_STATE 1).put F.LPE_SPARE_PAIR p).put F.LPE_STATUS_SPARE_BUSY 1
      ((s2.lp fun u => { u with spareMisses := [], moved := tset 0 u.moved p s.count }).raise 0x5012 (islCluster (2 * p)) []).holdPair p
    else s.pairFail p
  | 1 => s.pairFail p
  | _ => s

/-- Deadline misses of a pair within the last second of line time. -/
def State.pairMisses (s : State) (p : Nat) : List (Nat × Nat) :=
  (tget [] s.loops.misses p).filter (fun e => decide (s.now < e.1 + 1000000000))

/-- MISSES of LPE_HEALTH follows the last second. -/
def State.missShow (s : State) (p : Nat) : State :=
  let l := s.pairMisses p
  (s.lp fun u => { u with misses := tset [] u.misses p l }).put (F.LPE_HEALTH_MISSES p) (min l.length 255)

/-- Whether the sample of a slot runs on the spare pair: its boundary lies after the event that moved its pair (07 R340). -/
def State.onSpare (s : State) (slot : Nat) : Bool :=
  let p := slot / 1024
  decide (s.get (F.LPE_HEALTH_STATE p) = 1) && decide (tget 0 s.loops.moved p < (s.slot slot).boundary)

/-- A deadline miss of a pair, on the pair itself or on the spare pair that serves it; misses in three C0 cycles within 1 s make
the one or the other slow (07 R335, R336). -/
def State.missCount (s : State) (p : Nat) (spare : Bool) : State :=
  let e := (s.now, s.count)
  let s1 := (s.lp fun u => { u with misses := tset [] u.misses p (e :: tget [] u.misses p)
                                    spareMisses := if spare then e :: u.spareMisses else u.spareMisses }).missShow p
  let l := if spare then s1.loops.spareMisses.filter (fun x => decide (s.now < x.1 + 1000000000)) else s1.pairMisses p
  if (dedupN (l.map (fun x => x.2))).length ≥ 3 ∧ (spare = true ∨ s1.get (F.LPE_HEALTH_STATE p) = 0) then s1.pairMove p else s1

/-- Event 0x5011 of missed deadlines, once per pair per C0 cycle, and a deadline miss of the pair (07 R335). -/
def State.lateHold (s : State) (p count : Nat) (spare : Bool) : State :=
  if s.get (F.LPE_HEALTH_STATE p) = 2 then s else
  let s1 := if tget none s.loops.lateEvt p = some s.count then s else
    (s.lp fun u => { u with lateEvt := tset none u.lateEvt p (some s.count) }).raise 0x5011 (islCluster (2 * p))
      (le 1 p ++ le 4 count)
  s1.missCount p spare

/-- Event 0x5011 of a sample with an access answered TIMEOUT or NO_ISLAND, and a deadline miss of the pair (07 R335). -/
def State.accessHold (s : State) (p : Nat) (spare : Bool) : State :=
  if s.get (F.LPE_HEALTH_STATE p) = 2 then s else
  (s.raise 0x5011 (islCluster (2 * p)) (le 1 p ++ le 4 1)).missCount p spare

/-- Comparison words differ: the pair that ran the sample is moved or has failed; a sample that still ran on the pair whose
slots the spare pair has taken moves nothing more (07 R339, R340). -/
def State.mismatchMove (s : State) (slot : Nat) : State :=
  if s.get (F.LPE_HEALTH_STATE (slot / 1024)) = 1 ∧ s.onSpare slot = false then s else s.pairMove (slot / 1024)

/-! ## Holds (07 R333 to R335) -/

/-- A sample is marked as held. -/
def State.markHold (s : State) (slot : Nat) : State := s.sl slot fun d => { d with holding := true, result := none }

/-- A sample is held for a cause; a pair that has FAILED holds every sample and is judged no further (07 R335, R339). -/
def State.holdSample (s : State) (slot : Nat) (c : HoldCause) : State :=
  let p := slot / 1024
  let s1 := s.markHold slot
  if s.get (F.LPE_HEALTH_STATE p) = 2 then s1.bump (F.SLOT_HELD_LATE slot) 1 else
  match c with
  | .mismatch =>
    let s2 := (s1.bump (F.SLOT_HELD_CMP slot) 1).bump (F.LPE_HEALTH_MISMATCH p) 1
    ((s2.noteFault).raise 0x5010 (slotIsland slot) (le 1 p ++ le 2 slot)).mismatchMove slot
  | .poison => (s1.bump (F.SLOT_HELD_LATE slot) 1).raise 0x5014 (slotIsland slot) (le 2 slot)
  | .access => (s1.bump (F.SLOT_HELD_LATE slot) 1).accessHold p (s.onSpare slot)
  | .deadline => (s1.bump (F.SLOT_HELD_LATE slot) 1).lateHold p 1 (s.onSpare slot)

/-- Head slots whose sample ends at the staging instant of the current C0 cycle (05 R237, R238, 07 R332). -/
def State.dueSlots (s : State) : List Nat :=
  (s.image.loops.map (fun r => r.slot)).filter (fun i =>
    (s.slot i).busy && decide ((s.slot i).boundary + period (s.slotCls i) ≤ s.count + 1))

/-- Due samples without a result and not yet held. -/
def State.lateSlots (s : State) : List Nat :=
  s.dueSlots.filter (fun i => (s.slot i).result.isNone && !(s.slot i).holding)

/-- Due samples that are not complete with their comparison are held, pair by pair (07 R333, R335). -/
def State.deadlines (s : State) : State :=
  let late := s.lateSlots
  let s1 := s.each late (fun t i => (t.bump (F.SLOT_HELD_LATE i) 1).markHold i)
  s1.each (dedupN (late.map (fun i => i / 1024))) (fun t p =>
    t.lateHold p (late.filter (fun i => i / 1024 = p)).length (late.any (fun i => decide (i / 1024 = p) && s.onSpare i)))

/-- So many ns of the current C0 cycle have passed (05 R236). -/
def State.cycleAt (s : State) (ns : Nat) : Bool := decide (boundaryNs s.count + ns ≤ s.now)

/-- SAMPLE_DEADLINE (05 R237, 07 R333, R335, R336): the staging instant of the current C0 cycle, t0 + 27 µs, is the deadline of every due
sample. -/
def execSampleDeadline (t : Nat) (s : State) : Res :=
  let s0 := s.at t
  .next (if s0.cycleAt 27000 then s0.deadlines else s0)

/-- SAMPLE_PHASE_P_START (05 R237): phase P of the C0 samples of the current boundary starts. It uses the gains of the region
selected before; phase M computes again what a new region changes, so no result depends on it (07 R315). -/
def execSamplePhasePStart (s : State) : Res := .next (s.lp fun u => { u with phaseP := some s.count })

/-- The samples due at a staging instant end: held as the active's commit record lists them where there is one, else by this
module's own completions; a pair that has FAILED holds also the results at hand (R339). Answers the slots held, and the slots that this module alone held (07 R332, R337, R338). -/
def State.stageSlots (s : State) (rec : Option (List Nat)) : State × List Nat × List Nat :=
  let s0 := s.deadlines
  let due := s0.dueSlots
  let failed := fun i => decide (s0.get (F.LPE_HEALTH_STATE (i / 1024)) = 2)
  let own := due.filter (fun i => (s0.slot i).result.isNone)
  let mine := due.filter (fun i => own.contains i || failed i)
  let held := match rec with
    | some l => due.filter (fun i => l.contains i || mine.contains i)
    | none => mine
  let alone := match rec with
    | some l => mine.filter (fun i => !l.contains i)
    | none => []
  let s1 := s0.each (held.filter (fun i => !own.contains i)) (fun t i => t.bump (F.SLOT_HELD_LATE i) 1)
  (s1.each due (fun t i => t.endSample i (held.contains i)), held, alone)

/-! ## Flag clears (06 R267, R268, R279) -/

/-- The flags that a write can clear: FAULT, LIMIT_HIT, OVFL, GAP. -/
def clearMask : Nat := 0x891

/-- A clear waits for its boundary. -/
def State.queueClear (s : State) (slot mask at_ : Nat) : State :=
  (s.sl slot fun d => { d with clr := d.clr ++ [{ mask := mask, at_ := at_ }] }).put (F.SLOT_STATUS_CLR_PENDING slot) 1

/-- A write of 1 to flags of SLOT_STATUS on the active; elsewhere it has no effect (06 R267). -/
def State.flagWrite (s : State) (slot v : Nat) : State :=
  let m := Nat.land v clearMask
  if s.isActive && decide (m ≠ 0) && s.image.loops.any (fun r => decide (r.slot = slot)) then
    let b := boundaryAfter s.now 4
    (s.queueClear slot m b).send (.flagClear slot m b)
  else s

/-- SLOT_FLAG_CLEAR (06 R267). -/
def execSlotFlagClear (slot : Fin 16384) (value : Word) (t : Nat) (s : State) : Res :=
  .next ((s.at t).flagWrite slot.val value.toNat)

/-- An interrupt becomes pending in a core pair: 0 RELEASE, 1 DEADLINE, 2 TIMER, 3 TWIN, 4 MGMT (12 R562). -/
def State.ipendSet (s : State) (c n : Nat) : State := s.co c fun k => { k with ipend := k.ipend ||| (1 <<< n) }

/-- An interrupt becomes pending in every core pair in use. -/
def State.ipendAll (s : State) (n : Nat) : State := s.each s.image.islands.corePairs (fun t c => t.ipendSet c n)

/-- FLAG_CLEAR_RX (06 R267): the standby takes the active's clear, and TWIN is pending (12 R562). MARK: DESIGN CHOICE: in every core pair
in use, since a slot has no core pair (assumption 125). -/
def execFlagClearRx (slot : Fin 16384) (mask : Fin 4096) (at_ : Nat) (s : State) : Res :=
  .next (if s.isStandby then (s.queueClear slot.val (Nat.land mask.val clearMask) at_).ipendAll 3 else s)

/-- Flags are cleared; a cleared FAULT restarts the law at the sample of the boundary (06 R267, R279). -/
def State.clearFlags (s : State) (slot mask : Nat) : State :=
  let rs := bitOf mask 0 && s.on (F.SLOT_STATUS_FAULT slot)
  let w := s.rd (R.SLOT_STATUS slot)
  let s1 := s.wr (R.SLOT_STATUS slot) (w &&& ~~~(BitVec.ofNat 32 mask))
  if rs then
    (((s1.put (F.SLOT_STATUS_FAULT_KIND slot) 0).sl slot fun d => { d with restart := true }).faultShow).raise 0x5006
      (slotIsland slot) []
  else s1

/-- The clears of one slot at boundary `n`. -/
def State.clearDue (s : State) (n slot : Nat) : State :=
  let d := s.slot slot
  let due := d.clr.filter (fun c => decide (c.at_ ≤ n))
  if due = [] then s else
  let rest := d.clr.filter (fun c => decide (n < c.at_))
  let s1 := (s.sl slot fun e => { e with clr := rest }).putB (F.SLOT_STATUS_CLR_PENDING slot) (decide (rest ≠ []))
  s1.each due (fun t c => t.clearFlags slot c.mask)

/-- The loop engine at boundary `n`: flag clears, and the deadline misses of the last second. -/
def State.loopBoundary (s : State) (n : Nat) : State :=
  let s1 := s.each (s.image.loops.filter (fun r => isBoundary (s.slotCls r.slot) n)) (fun t r => t.clearDue n r.slot)
  s1.each (keys s1.loops.misses) (fun t p => t.missShow p)

end Sys2Proof.Machine
end

