-- ==== Sys2Proof/Machine/Twin.lean ====
section
/-! DEFINITION. Twin operation: heartbeats, claims, releases, takeover, planned switchover, signatures, join (09; 02 R66,
R78; 19 R787 to R791). -/
namespace Sys2Proof.Machine

/-! ## Roles taken and released -/

/-- The active plant addresses that EVENTS gives are announced on their ports (09 R452). -/
def State.announceAddrs (s : State) : State :=
  s.each ((s.image.events.ports.take 2).zipIdx.flatMap (fun e =>
      [(e.2, e.1.v4Active, true), (e.2, e.1.v6Active, false)].filter (fun a => a.2.1 ≠ 0)))
    (fun t a => t.send (.announce a.1 a.2.1 a.2.2))

/-- The resources of the active role are taken: CAN transmit; the active plant addresses are announced (09 R449, R452). -/
def State.assumeRole (s : State) : State := s.canAssume.announceAddrs

/-- The resources of the active role are released: local outputs and publishing follow the role, CAN transmit stops, the
active plant addresses are dropped (09 R455, R460, 17 R728). -/
def State.dropRole (s : State) : State := ((s.canRelease).closeActive).outputsFollow

/-- The module claims ACTIVE from LISTEN: the epoch of 09 R426, or 1 by R427 (09 R429). -/
def State.claim (s : State) (heard : Bool) : State :=
  let lw := if s.nv.lastWords.valid then some s.nv.lastWords.epoch else none
  let top := match lw, s.twin.listenEpoch with
    | some a, some b => some (max a b)
    | some a, none => some a
    | none, b => b
  let s1 := match top with
    | some e => s.setEpoch (e + 1)
    | none => ((s.setEpoch 1).put F.TWN_STATUS_EPOCH_UNSURE 1).raise 0x7003 islTwin []
  ((s1.setT 1).cause 10).assumeRole.raise 0x7001 islTwin (le 4 s1.epoch ++ le 4 (b2n heard))

/-- Whether this module wins a tie: the home module where exactly one is home, else twin A (09 R458). -/
def State.winsTie (s : State) : Bool :=
  if s.on F.TWN_STATUS_HOME = s.twin.partnerHome then !s.twinB else s.on F.TWN_STATUS_HOME

/-- An active that received a higher epoch, or lost a tie-break, releases the role (09 R455). Data of 0x7041: the path. MARK:
DEDUCED: in reduced service it enters REFUSED in place of FENCED, a state that 09 R430 and 16 R711 do not admit there (assumption
101). -/
def State.releaseActive (s : State) (why : Nat) : State :=
  let s1 := (s.tw fun u => { u with switch := none, owed := none, release := none })
  let s2 := if s.on F.MOD_STATUS_REDUCED then ((s1.setT 6).dropRole).raise 0x0006 islTwin [] else (s1.setT 7).dropRole
  if why = 0 then (s2.cause 8).raise 0x7042 islTwin [] else (s2.cause 9).raise 0x7041 islTwin (le 4 why)

/-- HIGHER_EPOCH_RELEASE (09 R455, R458): the release that a reception demanded takes place; `started` names the CAN frames in
transmission. -/
def execHigherEpochRelease (started : List (Nat × Nat)) (t : Nat) (s : State) : Res :=
  .next (match s.twin.release with
    | some (why, _) => if s.isActive then ((s.at t).canStarted started).releaseActive why else s.at t
    | none => s.at t)

/-- What a received epoch demands of an active (09 R455, R458): a release on a higher epoch; on a claim with the same epoch,
the tie-break. Paths: 1 fox, 2 badger, 3 ring, 4 line. -/
def State.seeEpoch (s : State) (path epoch : Nat) (claims : Bool) : State :=
  if !s.isActive then s
  else if epoch > s.epoch then (s.tw fun u => { u with release := some (path, epoch) })
  else if claims && decide (epoch = s.epoch) then
    if s.winsTie then
      if s.twin.tieWin then s else (s.tw fun u => { u with tieWin := true })
    else (s.tw fun u => { u with release := some (0, epoch) })
  else s

/-! ## Joining -/

/-- Whether a handover is in progress (02 R97). -/
def State.handover (s : State) : Bool := decide (s.nv.hoState ≠ 0)

/-- Whether the partner, in a profile slot where it named one, with an identity, is as the handover in progress names it: this
module is in RESTARTING, MAPPING, SHADOW or REJOINING, and the partner runs the target image in the target slot, or the image
and the slot that were running when the window opened (02 R103). -/
def State.hoNamed (s : State) (slot : Option Nat) (ident : List Byte) : Bool :=
  let at_ := fun (c : Choice) => match slot with
    | some n => decide (c = .slot n)
    | none => true
  [1, 2, 3, 6].contains s.nv.hoState &&
    ((decide (ident = s.nv.hoIdent) && at_ (.slot s.nv.hoTarget)) || (decide (ident = s.nv.hoPrevIdent) && at_ s.nv.hoPrev))

/-- A join attempt begins; what this module still computes is abandoned, since it starts no activation or sample before its first own
boundary at or after M (09 R429, R465, R469). -/
def State.startJoin (s : State) (fromCopy : Bool) : State := (s.dropActivations.dropSamples).beginJoin fromCopy

/-- A module in LISTEN hears its partner with ACTIVE set: it joins, or is refused (09 R429, 02 R78, 16 R711). An identity of
`none` was not carried. -/
def State.hearActive (s : State) (ident : Option (List Byte)) : State :=
  if s.on F.MOD_STATUS_REDUCED then (s.setT 6).raise 0x0006 islTwin []
  else if (match ident with
      | some i => decide (i ≠ pad 16 s.image.ident) && !s.hoNamed none i
      | none => false) then ((s.setT 6).tw fun u => { u with partnerSlot := none }).raise 0x1012 islTwin []
  else s.startJoin false

/-- One key slot of a merge: the active's key and state, unless the other module alone revoked it (02 R66); so both modules come to
the same store. MARK: DESIGN CHOICE: a slot that one module revoked keeps the key that was revoked there (assumption 86). -/
def mergeKey (mine theirs : KeySlot) (amActive : Bool) : KeySlot :=
  let a := if amActive then mine else theirs
  let j := if amActive then theirs else mine
  if a.st ≠ .revoked ∧ j.st = .revoked then j else a

/-- The merge of two key stores (02 R66). -/
def mergeKeys : List KeySlot → List KeySlot → Bool → List KeySlot
  | [], _, _ => []
  | k :: t, [], _ => k :: t
  | k :: t, m :: u, a => mergeKey k m a :: mergeKeys t u a

/-- Events of the key slots that a merge changed: 0x1040 installed, 0x1041 revoked (02 R66). -/
def State.keyEvents (s : State) (old new : List KeySlot) : State :=
  s.each (List.range 4) (fun t n =>
    let a := (old[n]?).getD {}
    let b := (new[n]?).getD {}
    if a = b then t
    else if b.st = .revoked then t.raise 0x1041 islMgmt []
    else if b.st = .enabled then t.raise 0x1040 islMgmt [] else t)

/-- The key store takes a merge; one that leaves no ENABLED slot is refused (02 R66). -/
def State.mergeStore (s : State) (theirs : List KeySlot) : State × Bool :=
  let m := mergeKeys s.nv.keys theirs s.isActive
  if m.any (fun k => k.st = .enabled) then
    ((((s.inNv fun q => { q with keys := m })).showNv).keyEvents s.nv.keys m, true)
  else (s.raise 0x1042 islMgmt [], false)

/-- JOIN_CHECK_DONE (09 R465, 02 R66, R78, 16 R711): the exchange of step CHECK. Both modules merge their key stores to the same one;
the joining module passes to TIME, fails the step, or is refused. A module that is refused learns from it what the partner runs. -/
def execJoinCheckDone (c : JoinCheck) (t : Nat) (s : State) : Res :=
  let s0 := s.at t
  .next (if s0.isActive then (s0.mergeStore c.keys).1
    else if s0.tstate = 2 ∧ s0.get F.TWN_JOIN_STEP = 1 then
      let s1 := s0.tw fun u => { u with partnerSlot := some c.slot, partnerImage := c.ident }
      if c.reduced then s1.failJoin
      else if (c.slot ≠ s1.get F.IMG_STATUS_RUN_SLOT ∨ c.ident ≠ pad 16 s1.image.ident) ∧ !s1.hoNamed (some c.slot) c.ident then
        (s1.setT 6).raise 0x1012 islTwin []
      else
        let m := s1.mergeStore c.keys
        if !m.2 ∨ c.compat < s1.image.compatMin ∨ s1.nv.compat < s1.image.compatMin then m.1.failJoin else m.1.put F.TWN_JOIN_STEP 2
    else if s0.tstate = 6 then s0.tw fun u => { u with partnerSlot := some c.slot, partnerImage := c.ident }
    else s0)

/-- JOIN_TIME_HELD (09 R465, R467): the twin offset has held within 100 ns for 10 ms, 320 C0 cycles, and the copy of so many
granules begins. -/
def execJoinTimeHeld (granules t : Nat) (s : State) : Res :=
  let s0 := s.at t
  .next (if s0.tstate = 2 ∧ s0.get F.TWN_JOIN_STEP = 2 ∧ 320 ≤ s0.time.twinHeld then
      ((s0.tw fun u => { u with granules := granules, copied := 0 }).put F.TWN_JOIN_STEP 3).put F.TWN_JOIN_PROGRESS 0
    else s0)

/-- The persistent forces of MRAM follow the force table taken from the partner (04 R185, R187). -/
def State.pfFollow (s : State) : State :=
  let l := (s.sig.forces.filter (fun f => f.persist)).map
    (fun f => ({ point := f.point, value := f.value, ident := s.image.ident.take 8 } : PForce))
  if s.on F.MOD_STATUS_HOLDUP ∨ s.nv.pforces = l then s else s.inNv fun v => v.pfStore l

/-- The schedule and the station states of a ring as the active holds them (08 R403, R838). -/
def State.takeRing (s : State) (c : RingCopy) : State :=
  let r := c.ring
  let s1 := s.ri r fun k => { k with
    committed := c.committed, first := c.first, foreign := c.foreign, miscabled := c.miscabled, path := c.sched.path,
    stns := c.stations.foldl (fun t x => tset {} t x.1 x.2.2) k.stns }
  let s2 := (((((s1.put (F.RNG_SCHED_RX_DL r) c.sched.rxDl).put (F.RNG_SCHED_ACYC_START r) c.sched.acyc).putB
    (F.RNG_STATUS_SCHED_OPEN r) c.sched.schedOpen).putB (F.RNG_STATUS_LOOP_OPEN r) c.sched.loopOpen).put (F.RNG_LOOP_A_END r)
    c.aEnd).put (F.RNG_LOOP_B_END r) c.bEnd
  let s3 := s2.each c.stations (fun t x => t.wr (R.RNG_STN_STATE r x.1) x.2.1)
  let st := c.stations.map (fun x => s3.get (F.RNG_STN_STATE_STATE r x.1))
  (((s3.putB (F.RNG_STATUS_ABSENT r) (st.contains 1)).put (F.RNG_STATUS_PRESENT r)
    (st.filter (fun n => decide (2 ≤ n) && decide (n ≤ 4))).length).putB (F.RNG_STATUS_FOREIGN r) (c.foreign || st.contains 5)).putB
    (F.RNG_STATUS_NOISY r) (c.first.noisy || c.stations.any (fun x => x.2.2.noisy))

/-- Memory that a join copies: fast data, static and constant regions of the partitions, CAM tables (09 R467). -/
def Img.joinMem (i : Img) (a : Nat) : Bool :=
  inSpan 0x8003400000 0xC00000 a || inSpan 0x07F0000000 0x10000000 a ||
  i.parts.any (fun r => inSpan r.staticBase r.staticSize a || inSpan r.constBase r.constSize a)

/-- What a full copy replaces, as at image commit (09 R467). -/
def State.joinClear (s : State) : State :=
  { s with
    regs := tkeep (fun o => decide (o < 0x20000000)) s.regs, mem := tkeep (fun a => !s.image.joinMem a) s.mem,
    loops := { s.loops with slots := [] }, sig := { s.sig with closed := [], prev := [], atClass := [], forces := [], waiting := [] } }

/-- Memory and registers taken from the partner; what it writes of SRAM is no longer poisoned (03 R124). -/
def State.patchMem (s : State) (p : StatePatch) : State :=
  let s1 := s.each p.regs (fun (t : State) e => (t.wr e.1 e.2).unpoison (bankBase 14 + (e.1 - 0x20000000)) 4)
  s1.each p.mem (fun (t : State) e => t.sysW e.1 e.2)

/-- The records of slots, partitions and rings taken from the partner. -/
def State.patchTabs (s : State) (p : StatePatch) : State :=
  let s1 := s.each p.slots (fun (t : State) e => t.setSlot e.1 e.2)
  (s1.each p.parts (fun (t : State) e => t.setPart e.1 e.2)).each p.rings State.takeRing

/-- The signal image taken from the partner: of a forced point a forwarded write brings what its owner delivered (04 R181). -/
def SignalState.patch (sg : SignalState) (p : StatePatch) : SignalState :=
  { sg with
    closed := (p.points.filter (fun e => p.full || !sg.forces.any (fun f => decide (f.point = e.1)))).foldl
      (fun t e => tset none t e.1 (some e.2)) sg.closed
    prev := p.prev.foldl (fun t e => tset none t e.1 (some e.2)) sg.prev
    atClass := p.atClass.foldl (fun t e => tset none t e.1 (some e.2)) sg.atClass
    forces := p.forces.getD (sg.forces.map (fun f =>
      match p.points.find? (fun e => decide (e.1 = f.point)) with
      | some e => { f with owner := e.2 }
      | none => f))
    waiting := p.waiting.getD sg.waiting }

/-- State taken from the partner (09 R467, R468). -/
def State.applyPatch (s0 : State) (p : StatePatch) : State :=
  let s1 := if p.full then s0.joinClear else s0
  let s4 := (s1.patchMem p).patchTabs p
  let s5 := { s4 with sig := s4.sig.patch p, cs := p.cs.getD s4.cs, deferred := p.deferred.getD s4.deferred }
  let s6 := (if p.forces.isSome then s5.countForces.pfFollow else s5.countForces).put F.IMG_CS_STATUS_STAGED s5.cs.length
  let s7 := match p.keys with
    | some k => (s6.mergeStore k).1
    | none => s6
  s7.setEpoch p.epoch

/-- Census state of a ring as a joining standby takes it (08 R403, R838). -/
def State.ringCopy (s : State) (rr : RingRec) : RingCopy :=
  let r := rr.ring
  let k := s.ring r
  { ring := r,
    sched := { rxDl := s.get (F.RNG_SCHED_RX_DL r), acyc := s.get (F.RNG_SCHED_ACYC_START r), path := k.path,
               schedOpen := s.on (F.RNG_STATUS_SCHED_OPEN r), loopOpen := s.on (F.RNG_STATUS_LOOP_OPEN r) },
    committed := k.committed, stations := rr.stns.map (fun e => (e.num, s.rd (R.RNG_STN_STATE r e.num), tget {} k.stns e.num)),
    first := k.first, aEnd := s.get (F.RNG_LOOP_A_END r), bEnd := s.get (F.RNG_LOOP_B_END r), foreign := k.foreign,
    miscabled := k.miscabled }

/-- A slot without its work in progress (09 R467). -/
def SlotDyn.settled (d : SlotDyn) : SlotDyn :=
    { d with inCopy := [], stream := [], busy := false, result := none, holding := false }

/-- What is listed of a table of options. -/
def listed {α : Type} (t : Tab (Option α)) : List (Nat × α) := t.filterMap (fun e => e.2.map (fun v => (e.1, v)))

/-- What COPY transfers (09 R467): signal image, previous values, forces, loop state, partition data and checkpoints with the
counters of the release record, the census of the rings, change sets, epoch, key store; work in progress is rolled back first. -/
def State.joinPatch (s : State) : StatePatch :=
  let c := s.each s.image.parts (fun t r => if 2 ≤ t.pst r.part ∧ t.pst r.part ≤ 6 then t.rollMem r.part else t)
  { full := true, points := listed c.sig.closed, prev := listed c.sig.prev, atClass := listed c.sig.atClass, forces := some c.sig.forces,
    waiting := some c.sig.waiting, regs := c.regs.filter (fun e => 0x20000000 ≤ e.1),
    slots := c.loops.slots.map (fun e => (e.1, e.2.settled)), mem := (c.mem.filter (fun e => c.image.joinMem e.1)).map (fun e => (e.1, [e.2])),
    parts := c.image.parts.map (fun r => (r.part, c.part r.part)), rings := c.image.rings.map c.ringCopy, cs := some c.cs,
    deferred := some c.deferred, epoch := c.epoch, keys := some c.nv.keys }

/-- Points that the output ports of a slot name. -/
def State.slotPoints (s : State) (n : Nat) : List Nat :=
  (List.range 8).filterMap (fun i =>
    let w := portWord (s.slotRd n) (8 + i)
    if boundOut w then some (w % 2 ^ 20) else none)

/-- Every word of the windows of the slots that a law of head slot `n` occupies (06 R245, R306). -/
def State.slotWords (s : State) (n : Nat) : List (Nat × Word) :=
  (List.range (256 * lawSpan (lawOf (s.slotRd n)))).map (fun i =>
    (0x20000000 + 1024 * n + 4 * i, s.rd (0x20000000 + 1024 * n + 4 * i)))

/-- Committed state of partitions and slots as it passes to the partner: outputs, static regions and areas, counters, slot words,
and what the latest staging instant brought to the state signature (05 R234, 07 R338, 09 R434, R468). -/
def State.patchOf (s : State) (ps slots : List Nat) : StatePatch :=
  { points := (ps.flatMap (fun p => (s.prec p).outputs) ++ slots.flatMap s.slotPoints).map (fun q => (q, s.ownerVal q)),
    regs := slots.flatMap s.slotWords,
    slots := slots.map (fun n => (n, (s.slot n).settled)),
    mem := ps.flatMap (fun p =>
      let r := s.prec p
      [(r.staticBase, s.memL r.staticBase r.staticSize), (r.fast, s.memL r.fast (r.idxList - r.fast))]),
    parts := ps.map (fun p => (p, s.part p)),
    crcs := (s.twin.commitCrcs.filter (fun e => decide (e.1 = s.count) && ps.contains e.2.1)).map (fun e => e.2),
    cmps := s.twin.cmpWords.filter (fun e => slots.contains e.2.1 && decide (e.1 = (s.slot e.2.1).boundary)),
    epoch := s.epoch }

/-- What the active forwards at a staging instant after M: commits of activations, and slots whose sample began before M, until the
first boundary of their class at or after M (09 R468, R469). -/
def State.forwardCommits (s : State) (ps : List Nat) : State :=
  match s.twin.fwdFrom with
  | some m =>
    if s.isActive ∧ s.ptstate = 2 then
      let until_ := fun (k : Nat) => decide (s.count < nextBoundary k m)
      let l := ps.filter (fun p => decide ((s.part p).release < m) && until_ (s.prec p).cls)
      let n := (s.loops.slots.filter (fun e => decide (e.2.boundary < m) && decide (m ≤ s.count) &&
        until_ (s.get (F.SLOT_CFG_CLASS e.1)))).map (fun e => e.1)
      if l = [] ∧ n = [] then s else s.send (.forwarded (s.patchOf l n))
    else s.tw fun u => { u with fwdFrom := none }
  | none => s

/-- Whether this module computes objects of a class already in the join under way (09 R469). -/
def State.ownClass (s : State) (k : Nat) : Bool := decide (s.get F.TWN_JOIN_STEP = 4) && s.twin.reached.contains k

/-- A forwarded write without what belongs to objects that this module computes itself (09 R469). -/
def State.untilOwn (s : State) (p : StatePatch) : StatePatch :=
  let own := s.image.parts.filter (fun r => s.ownClass r.cls)
  { p with
    points := p.points.filter (fun e => !s.ownClass (s.ownerClass e.1)),
    regs := p.regs.filter (fun e => !s.ownClass (s.get (F.SLOT_CFG_CLASS ((e.1 - 0x20000000) / 1024)))),
    slots := p.slots.filter (fun e => !s.ownClass (s.get (F.SLOT_CFG_CLASS e.1))),
    mem := p.mem.filter (fun e => !own.any (fun r => r.ranges.any (fun g => inSpan g.1 g.2 e.1))),
    parts := p.parts.filter (fun e => !own.any (fun r => r.part = e.1)) }

/-- JOIN_COPY_COMPLETE (09 R424, R467): every granule has been copied at boundary M; the active's copy leaves, the joining module
passes to SHADOW. MARK: DEDUCED: the granules and the writes forwarded to them arrive as one transfer of what the active holds at M
(assumption 107). -/
def execJoinCopyComplete (m : Nat) (p : StatePatch) (t : Nat) (s : State) : Res :=
  let s0 := s.at t
  .next (if s0.isActive then
      (if s0.ptstate = 2 then (s0.tw fun u => { u with fwdFrom := some m }).send (.joinCopy m s0.joinPatch) else s0)
    else if s0.tstate = 2 ∧ s0.get F.TWN_JOIN_STEP = 3 then
      let s1 := s0.applyPatch p
      ((s1.tw fun u => { u with joinM := m, reached := [], classMatched := [], copied := s1.twin.granules }).put
        F.TWN_JOIN_STEP 4).put F.TWN_JOIN_PROGRESS 100
    else s0)

/-- FORWARDED_WRITE_RX (09 R468 to R470): a forwarded write is applied until its object is computed here. Granules copied so far
show as PROGRESS. `fits` says whether the twin link carries the forwarded writes together with the copy; where it does not, the attempt
fails. -/
def execForwardedWriteRx (p : StatePatch) (copied : Nat) (fits : Bool) (s : State) : Res :=
  .next (if s.tstate = 2 ∧ (s.get F.TWN_JOIN_STEP = 3 ∨ s.get F.TWN_JOIN_STEP = 4) then
      if !fits then s.failJoin else
      let s1 := s.applyPatch (s.untilOwn p)
      let s2 := (s1.tw fun u => { u with copied := max s1.twin.copied copied })
      if s2.get F.TWN_JOIN_STEP = 3 ∧ s2.twin.granules ≠ 0 then
        s2.put F.TWN_JOIN_PROGRESS (min 100 (100 * s2.twin.copied / s2.twin.granules))
      else s2
    else s)

/-- JOIN_TIMEOUT (09 R429, R470): an attempt not complete within 5 s fails. -/
def execJoinTimeout (t : Nat) (s : State) : Res :=
  let s0 := s.at t
  .next (if s0.tstate = 2 ∧ s0.twin.retry = false ∧ s0.now ≥ s0.twin.joinStart + 5000000000 then s0.failJoin else s0)

/-- JOIN_RETRY (09 R429): a new attempt begins at CHECK 1 s after a failure. -/
def execJoinRetry (t : Nat) (s : State) : Res :=
  let s0 := s.at t
  .next (if s0.tstate = 2 ∧ s0.twin.retry = true ∧ s0.now ≥ s0.twin.joinStart + 1000000000 then s0.startJoin false else s0)

/-- The joining module becomes MATCHED (09 R429, R465): in a handover the window closes and the target slot becomes the
persistent choice (02 R101). -/
def State.hoComplete (s : State) : State :=
  let s1 := { s with nv := { s.nv with choice := some (.slot s.nv.hoTarget) }, keep := { s.keep with choice := none } }
  s1.hoClose 0x1032

/-- A step of join SHADOW ends: every class has had a boundary at or after M (09 R465, R469). -/
def State.joinShadow (s : State) (n : Nat) : State :=
  if s.tstate = 2 ∧ s.get F.TWN_JOIN_STEP = 4 ∧ n ≥ s.twin.joinM then
    let r := dedupN (s.twin.reached ++ (List.range 8).filter (fun k => isBoundary k n))
    let s1 := (s.tw fun u => { u with reached := r })
    if (List.range 8).all (fun k => r.contains k) ∧ s.nv.hoState ≠ 3 then
      (s1.tw fun u => { u with firstMatchAt := n, classMatched := [] }).put F.TWN_JOIN_STEP 5
    else s1
  else s

/-! ## Signatures (09 R433 to R446) -/

/-- Whether signatures are compared (09 R437): in a handover window not before REJOINING (02 R98). -/
def State.compares (s : State) : Bool :=
  (!s.handover || decide (s.nv.hoState = 6)) && !s.on F.TWN_STATUS_SUSPECT && !s.twin.partnerSuspect &&
  (decide (s.tstate = 3) || (decide (s.tstate = 2) && decide (s.get F.TWN_JOIN_STEP = 5)) ||
   (decide (s.tstate = 1) && (decide (s.ptstate = 3) || (decide (s.ptstate = 2) && s.twin.partnerFirst))))

/-- Internal faults in the cycle of a mismatch or the 32 cycles before it (09 R444). -/
def faultNear (l : List Nat) (c : Nat) : Bool := l.any (fun x => decide (x ≤ c) && decide (c ≤ x + 32))

/-- Divergences of the last hour of line time (09 R837). -/
def State.divsShow (s : State) : State :=
  let l := within s.twin.divs s.now 3600000000000
  (s.tw fun u => { u with divs := l }).put F.TWN_DIV_LAST_HOUR (min l.length 3)

/-- TWN_DIV_LAST of a mismatch. -/
def State.divLast (s : State) (kind : Nat) (attrib : Bool) (sg : Sig) : State :=
  ((((s.put F.TWN_DIV_LAST_KIND kind).putB F.TWN_DIV_LAST_ATTRIB attrib).put F.TWN_DIV_LAST_CLASS
    (if sg.kind = 8 then 0 else sg.kind)).put F.TWN_DIV_LAST_STRIPE (if sg.kind = 8 then (sg.count / 32) % 337 else 0)).divsShow

/-- A divergence counts for the exclusion of 09 R447, but not while a handover window is open (02 R104). -/
def State.countDiv (s : State) : State :=
  if s.on F.TWN_STATUS_REDUCED then s else s.tw fun u => { u with divs := s.now :: u.divs }

/-- A mismatch (09 R443 to R446, R470); one attributed to the active alone counts for no limit (09 R837). -/
def State.mismatch (s : State) (sg : Sig) : State :=
  let s1 := if sg.kind = 8 then
      ((s.bump F.TWN_DIVERGE_STATE_MISMATCH 1).raise 0x7021 islTwin (le 2 ((sg.count / 32) % 337)))
    else (s.bump F.TWN_DIVERGE_OUT_MISMATCH 1).raise 0x7020 islTwin (le 1 sg.kind ++ le 8 sg.count)
  let own := faultNear s.twin.ownFaults s.count
  let other := faultNear s.twin.partnerFaults s.count
  let actF := if s.isActive then own else other
  let stbF := if s.isActive then other else own
  let attrib := actF && !stbF
  let s2 := if own || other then s1.raise 0x7023 islTwin [] else s1
  if s.tstate = 2 then (s2.countDiv.divLast 3 attrib sg).failJoin
  else if s.tstate = 1 ∧ s.ptstate = 2 then s2.countDiv.divLast 3 attrib sg
  else
    let k := if sg.kind = 8 then 2 else 1
    if attrib then
      let s3 := s2.divLast k true sg
      if s.isActive then s3.oweSwitch { at_ := boundaryAfter s3.now 4, cause := 7, diverge := true } else s3
    else if s.isActive then s2.countDiv.divLast k false sg
    else (((s2.countDiv.tw fun u => { u with switchTo := none }).divLast k false sg).setT 4)

/-- An equal pair of signatures: at FIRST_MATCH the first equal state signature, once the output signatures of every class
have been equal, makes the joining module MATCHED (09 R429, R465). -/
def State.equalSig (s : State) (sg : Sig) : State :=
  if s.tstate = 2 then
    let m := dedupN (sg.kind :: s.twin.classMatched)
    let s1 := (s.tw fun u => { u with classMatched := m })
    if sg.kind = 8 ∧ (List.range 8).all (fun k => m.contains k) then
      let s2 := (s1.setT 3).raise 0x7011 islTwin []
      if s.handover then s2.hoComplete else s2
    else s1
  else if s.tstate = 1 ∧ s.ptstate = 2 ∧ sg.kind = 8 ∧ s.nv.hoState = 6 then s.hoComplete
  else s

/-- Own and partner's signature of one kind and count are compared once both are held (09 R436, R437). -/
def State.compareSigs (s : State) (kind count : Nat) : State :=
  match s.twin.sigs.find? (fun x => x.kind = kind ∧ x.count = count),
        s.twin.partnerSigs.find? (fun x => x.kind = kind ∧ x.count = count) with
  | some a, some b =>
    let drop := fun (l : List Sig) => l.filter (fun x => !(decide (x.kind = kind) && decide (x.count = count)))
    let s1 := (s.tw fun u => { u with sigs := drop s.twin.sigs, partnerSigs := drop s.twin.partnerSigs })
    if !s1.compares then s1 else if a.val = b.val then s1.equalSig a else s1.mismatch a
  | _, _ => s

/-- A signature of this module: formed, sent, compared where the partner's has come (09 R433, R434, R436). Signatures older
than 64 C0 cycles are no longer held. -/
def State.formSig (s : State) (sg : Sig) : State :=
  let s1 := (s.tw fun q => { q with
    sigs := sg :: s.twin.sigs.filter (fun x => sg.count < x.count + 64),
    partnerSigs := s.twin.partnerSigs.filter (fun x => sg.count < x.count + 64) })
  (s1.send (.signature sg)).compareSigs sg.kind sg.count

/-- SIGNATURE_RX (09 R436, R437, R443 to R446): a signature of the partner, and whether the partner has reported an internal
fault in the cycles that 09 R444 names. -/
def execSignatureRx (sg : Sig) (fault : Bool) (t : Nat) (s : State) : Res :=
  let s0 := s.at t
  let s1 := (s0.tw fun u => { u with partnerSigs := sg :: s0.twin.partnerSigs,
                                             partnerFaults := if fault then [s0.count] else [] })
  .next (s1.compareSigs sg.kind sg.count)

/-! ## Loss of the active -/

/-- A standby declares the active lost: 1 silence, 2 failing message (09 R448, R453, 02 R101). In an image restart it completes
the start-up of the target image. -/
def State.activeLost (s : State) (cond : Nat) : State :=
  if s.twin.lost.isSome then s
  else if s.tstate = 3 ∨ (s.tstate = 2 ∧ s.nv.hoFirst = true ∧ (s.nv.hoState = 3 ∨ s.nv.hoState = 4)) then
    (s.tw fun u => { u with lost := some cond }).raise 0x7040 islTwin (le 4 cond ++ le 4 (s.epoch + 1))
  else if s.handover ∧ !s.isActive then
    let s1 := (s.hoClose 0x1034).raise 0x7043 islTwin []
    let s2 := if s.img.isNone then s1.inNv fun v => { v with boot := some (.slot s.nv.hoTarget) } else s1
    if s2.tstate = 2 then s2.toListen else s2
  else if s.tstate = 2 ∨ s.tstate = 4 ∨ s.tstate = 5 then (s.raise 0x7043 islTwin []).restart 7
  else s

/-- Both paths silent as 09 R448 asks; a badger path on which no valid frame ever came is silent (09 R440). -/
def State.bothSilent (s : State) : Bool :=
  decide (s.twin.foxSilent ≥ 3) && (decide (s.twin.badgerSilent ≥ 2) || s.twin.badgerRxAt.isNone)

/-- A failing message from the partner (09 R441, R448). -/
def State.failingRx (s : State) : State :=
  let s1 := (s.tw fun u => { u with partnerFailing := true })
  if s1.isStandby ∨ s1.handover then s1.activeLost 2 else s1

/-- FAILING_MESSAGE_SEND (09 R441): 1 hold-up, 2 life word, 3 restart. -/
def execFailingMessageSend (cause : Fin 4) (s : State) : Res := .next (s.sendFailing cause.val)

/-- LIFE_WORD_LOST (09 R441): no life word for 2 C0 cycles; the module sends the failing message and restarts (16 R690 PD7). -/
def execLifeWordLost (t : Nat) (s : State) : Res := .next (((s.at t).sendFailing 2).restart 5)

/-! ## Heartbeats -/

/-- A path is heard again (09 R440). -/
def State.pathUp (s : State) (f : Fld) (ever : Bool) : State :=
  if s.on f then s else if ever then (s.put f 1).raise 0x7062 islTwin [] else s.put f 1

/-- What the twin state does on hearing the partner (09 R429, R836): its state as heard, ACTIVE flag, identity if carried. -/
def State.hear (s : State) (inListen claims : Bool) (ident : Option (List Byte)) (fox : Bool) : State :=
  if s.img.isNone then s
  else if s.tstate = 0 then
    if claims then s.hearActive ident
    else if inListen ∧ s.winsTie then s.claim true else s
  else if s.tstate = 7 ∧ claims ∧ fox then s.startJoin false
  else if s.tstate = 2 ∧ fox ∧ !claims ∧ s.twin.retry = false ∧ !s.handover then s.failJoin
  else s

/-- Epochs received during listening, highest (09 R426). -/
def State.listen (s : State) (epoch : Nat) : State :=
  if s.tstate = 0 then s.tw fun u => { u with listenEpoch := some (max epoch (u.listenEpoch.getD 0)) } else s

/-- What a valid fox word shows of the partner (09 R438, R440, R442). -/
def State.noteFox (s : State) (w : FoxWord) (step : Nat) : State :=
  let s1 := ((s.endSuspect).pathUp F.TWN_STATUS_FOX_OK s.twin.everFox).tw fun u => { u with
    foxThisCycle := true, foxSilent := 0, foxAt := some s.now, everFox := true, foxHeard := some w.tstate, partnerHome :=
        bitOf w.flags 1,
    partnerSuspect := bitOf w.flags 3, partnerFailing := bitOf w.flags 2, partnerImage := w.image, 
    partnerShadow := decide (4 ≤ step), partnerFirst := decide (step = 5) }
  ((s1.listen w.epoch).put F.TWN_STATUS_PARTNER_TSTATE w.tstate).wrN R.TWN_PARTNER_EPOCH w.epoch

/-- A standby keeps its epoch equal to the active's (09 R424). -/
def State.followEpoch (s : State) (claims : Bool) (epoch : Nat) : State :=
  if s.isStandby ∧ claims then s.setEpoch epoch else s

/-- A valid fox word arrives while PD8 is powered; one whose CRC is not correct, or of another kind, has no effect (09 R438). -/
def State.foxIn (s : State) (b : List Byte) (kinds : List Nat) (f : FoxWord → State) : State :=
  match FoxWord.parse b with
  | some w => if s.pd 8 && kinds.contains w.kind then f w else s
  | none => s

/-- The active of a handover window before SWITCHING hears that the module that went first has returned to the image that ran when
the window opened: its window closes (02 R101). MARK: DEDUCED: a failing message alone does not tell it, since an image restart that
becomes a full one sends that too (assumption 122). -/
def State.partnerBack (s : State) (w : FoxWord) : State :=
  if s.isActive ∧ s.nv.hoState = 1 ∧ s.nv.hoFirst = false ∧ (w.tstate = 0 ∨ w.tstate = 2) ∧ w.image = s.nv.hoPrevIdent then
    s.hoClose 0x1033
  else s

/-- What every valid fox word does (09 R429, R438, R440, R442, R455, R458). -/
def State.foxHear (s : State) (w : FoxWord) (step : Nat) : State :=
  ((((s.noteFox w step).seeEpoch 1 w.epoch (bitOf w.flags 0)).hear (decide (w.tstate = 0)) (bitOf w.flags 0)
    (some w.image) true).followEpoch (bitOf w.flags 0) w.epoch).partnerBack w

/-- The join step of the partner as its latest words of KIND 1 and 2 showed it: 4 SHADOW, 5 FIRST_MATCH, 0 any other. -/
def State.partnerStep (s : State) : Nat := if s.twin.partnerFirst then 5 else if s.twin.partnerShadow then 4 else 0

/-- FAILING_MESSAGE_RX (09 R426, R429, R438, R441, R448, R455): a fox word of KIND 3, which a standby takes as a failing message. -/
def execFailingMessageRx (b : List Byte) (t : Nat) (s : State) : Res :=
  .next ((s.at t).foxIn b [3] fun w =>
    let s1 := (s.at t).foxHear w s.partnerStep
    (if s.isStandby ∨ s.handover then s1.failingRx else s1).twinShow)

/-- FOX_WORD_RX (09 R429, R438, R440, R442, R455, R458): a fox word of KIND 1 or 2, and the join step of the partner. -/
def execFoxWordRx (b : List Byte) (step : Fin 6) (t : Nat) (s : State) : Res :=
  .next ((s.at t).foxIn b [1, 2] fun w => ((s.at t).foxHear w step.val).twinShow)

/-- What a valid badger frame shows of the partner (09 R439, R440). -/
def State.noteBadger (s : State) (flags epoch : Nat) : State :=
  let s1 := (s.pathUp F.TWN_STATUS_BADGER_OK s.twin.everBadger).tw fun u => { u with
    badgerSilent := 0, everBadger := true, badgerRxAt := some s.now, badgerHeard := some (bitOf flags 0), partnerHome :=
        bitOf flags 1 }
  (s1.listen epoch).wrN R.TWN_PARTNER_EPOCH epoch

/-- A badger frame with FAILING or RESET_HELD counts as a failing message (09 R441). -/
def State.badgerFailing (s : State) (flags : Nat) : State := if bitOf flags 2 || bitOf flags 3 then s.failingRx else s

/-- BADGER_FRAME_RX (09 R429, R439 to R441, R448, R455, R458): a badger frame completes; one that is not valid has no effect. -/
def execBadgerFrameRx (b : List Byte) (t : Nat) (s : State) : Res :=
  .next (match BadgerFrame.parse b with
    | none => s.at t
    | some w =>
      let s1 := ((s.at t).noteBadger w.flags w.epoch).seeEpoch 2 w.epoch (bitOf w.flags 0)
      (((s1.hear false (bitOf w.flags 0 && !s1.on F.TWN_STATUS_FOX_OK) none false).followEpoch (bitOf w.flags 0)
        w.epoch).badgerFailing w.flags).twinShow)

/-- KIND of the fox word due now: 1 at t0 of a C0 cycle, 2 every 2 µs after it until the next boundary (09 R438). -/
def State.foxDue (s : State) : Option Nat :=
  let o := s.now - boundaryNs s.count
  if !s.pd 8 || !s.time.running || s.time.fresh || decide (s.now < boundaryNs s.count) || decide (31250 ≤ o) then none
  else if o = 0 then some 1
  else if o % 2000 = 0 then some 2
  else none

/-- FOX_TICK (09 R438). -/
def execFoxTick (t : Nat) (s : State) : Res :=
  .next (match (s.at t).foxDue with
    | some k => (s.at t).send ((s.at t).foxWord k 0)
    | none => s.at t)

/-- A badger frame is due: after time start at an even C0 boundary, once the frame before it has ended; before it, 62.5 µs after the
frame before (09 R439). -/
def State.badgerDue (s : State) : Bool :=
  match s.twin.badgerAt with
  | none => !s.time.running || decide (s.now % 62500 = 0)
  | some a => if s.time.running then decide (s.now % 62500 = 0) && decide (a + 7200 ≤ s.now) else decide (a + 62500 ≤ s.now)

/-- BADGER_FRAME_TX (09 R439). -/
def execBadgerFrameTx (t : Nat) (s : State) : Res :=
  let s0 := s.at t
  .next (if s0.badgerDue then
      (s0.tw fun u => { u with badgerSeq := (s0.twin.badgerSeq + 1) % 256, badgerAt := some s0.now }).send
        (.badger (BadgerFrame.bytes { flags := s0.badgerFlags, epoch := s0.epoch, seq := s0.twin.badgerSeq }))
    else s0)

/-- BADGER_MISS (09 R440, R448): the instant k × 62.5 µs + 1 µs after the end of the latest valid frame passes without another. -/
def execBadgerMiss (t : Nat) (s : State) : Res :=
  let s0 := s.at t
  .next (match s0.twin.badgerRxAt with
    | none => s0
    | some a =>
      if s0.now < a + (s0.twin.badgerSilent + 1) * 62500 + 1000 then s0 else
      let s1 := s0.bump F.TWN_HB_BADGER_MISS 1
      let s2 := if s1.on F.TWN_STATUS_BADGER_OK then (s1.put F.TWN_STATUS_BADGER_OK 0).raise 0x7061 islTwin [] else s1
      let s3 := (s2.tw fun u => { u with badgerSilent := s2.twin.badgerSilent + 1, badgerHeard := none })
      if s3.bothSilent ∧ (s3.isStandby ∨ s3.handover) then s3.activeLost 1 else s3)

/-- SUSPECT_ENTRY (09 R442): a standby that receives no fox word for 5 µs. -/
def execSuspectEntry (t : Nat) (s : State) : Res :=
  let s0 := s.at t
  .next (if s0.isStandby ∧ !s0.on F.TWN_STATUS_SUSPECT ∧ (s0.twin.foxAt.all fun a => decide (a + 5000 ≤ s0.now)) = true then
      (s0.tw fun u => { u with suspectSince := s0.count }).put F.TWN_STATUS_SUSPECT 1
    else s0)

/-- Whether the partner is heard, on the fox or on the badger path (09 R429, R836). -/
def State.partnerHeard (s : State) : Bool := s.twin.foxHeard.isSome || s.twin.badgerHeard.isSome

/-- LISTEN_TIMEOUT (09 R422, R426, R427, R429, R836): LISTEN_MS have elapsed since listening began. -/
def execListenTimeout (t : Nat) (s : State) : Res :=
  let s0 := s.at t
  let heard := s0.partnerHeard
  .next (if s0.tstate ≠ 0 ∨ s0.img.isNone ∨ s0.now < s0.twin.listenFrom + s0.image.twin.listenMs * 1000000 then s0
    else if s0.twin.ringActive then s0
    else if s0.twin.foxHeard = some 0 ∨ s0.twin.foxHeard = some 1 then s0
    else if s0.twin.foxHeard.isNone ∧ s0.twin.badgerHeard = some true then s0
    else s0.claim heard)

/-! ## Planned switchovers -/

/-- The standby acknowledges the boundary B of a switch record that lies ahead (09 R459, 02 R101). -/
def State.switchRecord (s : State) (b cause : Nat) : State :=
  let ho := decide (s.tstate = 2) && s.nv.hoFirst && (decide (s.nv.hoState = 3) || decide (s.nv.hoState = 4))
  if (s.tstate = 3 ∨ ho = true) ∧ !s.on F.TWN_STATUS_SUSPECT ∧ s.count < b then
    let s1 := (s.tw fun u => { u with switchTo := some b, switch := some { at_ := b, cause := cause, acked := true, ho := ho } })
    let s2 := if ho ∧ s.nv.hoState = 3 then s1.hoTo 4 else s1
    (s2.put F.TWN_CTL_PENDING 1).send (s2.foxWord 5 b)
  else s

/-- SWITCH_RECORD_RX (09 R459, 02 R101): a fox word of KIND 4; the cause is that of the active's switchover. -/
def execSwitchRecordRx (b : List Byte) (cause : Fin 16) (t : Nat) (s : State) : Res :=
  .next ((s.at t).foxIn b [4] fun w =>
    ((s.at t).foxHear w s.partnerStep).twinShow.switchRecord w.switchAt cause.val)

/-- The acknowledge of the boundary named, by t0(B − 2) (09 R459). -/
def State.switchAck (s : State) (b : Nat) : State :=
  match s.twin.switch with
  | some w => if s.isActive ∧ w.at_ = b ∧ s.now + 62500 ≤ boundaryNs b then
      (s.tw fun u => { u with switch := some { w with acked := true } }) else s
  | none => s

/-- SWITCH_ACK_RX (09 R459): a fox word of KIND 5. -/
def execSwitchAckRx (b : List Byte) (t : Nat) (s : State) : Res :=
  .next ((s.at t).foxIn b [5] fun w => ((s.at t).foxHear w s.partnerStep).twinShow.switchAck w.switchAt)

/-- SWITCH_ACK_MISSING (09 R459, 16 R716, 18 R778, 02 R101): no acknowledge by t0(B − 2): the switchover is cancelled and both
modules keep their roles; in a handover a new switch record names a later boundary, and one that a fault or a mismatch asked for is
owed again (R446, R464). -/
def execSwitchAckMissing (t : Nat) (s : State) : Res :=
  let s0 := s.at t
  .next (match s0.twin.switch with
    | none => s0
    | some w =>
      if (s0.isActive ∧ w.acked = true) ∨ s0.now + 62500 < boundaryNs w.at_ then s0 else
      let s1 := ((s0.tw fun u => { u with switch := none, switchTo := none }).put F.TWN_CTL_PENDING 0).raise 0x7051
        islTwin []
      if !s0.isActive then s1
      else
        let s2 := if w.thenRestart = some 3 then (s1.put F.MOD_CTL_PENDING 0).put F.MOD_CTL_REFUSED 1 else s1
        let s3 := if s2.panel.byButton then s2.armConfirm else s2
        if w.ho then (if s3.noSuspect then s3.nameSwitch { at_ := boundaryAfter s3.now 4, cause := 5, ho := true } else s3)
        else if w.diverge ∨ w.thenRestart = some 6 then s3.oweSwitch { w with at_ := boundaryAfter s3.now 4, acked := false }
        else s3)

/-- Why a SWAP is refused (09 R462): 1 partner not MATCHED, 2 handover window open, 3 SUSPECT, 4 role change within 10 s,
5 standby; 0 none. -/
def State.swapReason (s : State) : Nat :=
  if !s.isActive then 5
  else if s.on F.TWN_STATUS_REDUCED then 2
  else if s.ptstate ≠ 3 then 1
  else if s.on F.TWN_STATUS_SUSPECT || s.twin.partnerSuspect then 3
  else match s.twin.lastChange with
    | some c => if s.now < c + 10000000000 then 4 else 0
    | none => 0

/-- A SWAP command (09 R462). A switchover already named stands. -/
def State.swap (s : State) : State :=
  let r := s.swapReason
  if r = 0 then
    let s1 := s.put F.TWN_CTL_REFUSED 0
    if s1.twin.switch.isSome then s1 else s1.startSwitch (boundaryAfter s1.now 4) 4 none false
  else (s.put F.TWN_CTL_REFUSED 1).raise 0x7052 islTwin (le 4 r)

/-- TWN_SWAP (09 R462). -/
def execTwnSwap (t : Nat) (s : State) : Res := .next ((s.at t).swap)

/-- REJOIN: a REFUSED or EXCLUDED module passes to LISTEN (09 R429). -/
def State.rejoin (s : State) : State := if s.tstate = 6 ∨ s.tstate = 8 then s.toListen else s

/-- TWN_REJOIN (09 R429). -/
def execTwnRejoin (s : State) : Res := .next s.rejoin

/-- REVERT_EXPIRY (09 R463). -/
def execRevertExpiry (t : Nat) (s : State) : Res :=
  let s0 := (s.at t).twinShow
  .next (match s0.twin.revertFrom with
    | some f =>
      if s0.now ≥ f + s0.get F.TWN_CFG_REVERT_HOLD * 1000000000 ∧ s0.isActive ∧ s0.canSwitch ∧ s0.twin.switch.isNone then
        s0.startSwitch (boundaryAfter s0.now 4) 3 none false
      else s0
    | none => s0)

/-- Days since the latest role change; none before the first (09 R472). -/
def State.daysShow (s : State) : State :=
  let d := (s.now - s.twin.lastChange.getD s.now) / 86400000000000
  (s.tw fun u => { u with days := d }).put F.TWN_LAST_CHANGE_DAYS (min d 65535)

/-- PROOF_DUE (09 R472). -/
def execProofDue (t : Nat) (s : State) : Res :=
  let s0 := (s.at t).daysShow
  .next (if s0.twin.days ≥ s0.image.twin.proofDays ∧ !s0.on F.TWN_STATUS_PROOF_DUE then
      (s0.put F.TWN_STATUS_PROOF_DUE 1).raise 0x7080 islTwin []
    else s0)

/-- MODULE_FAULT (09 R464): 1 core pair, 2 cluster pair, 3 domain. -/
def execModuleFault (fault : Fin 4) (t : Nat) (s : State) : Res := .next ((s.at t).moduleFault fault.val)

/-! ## At a boundary -/

/-- The completed C0 cycle had no valid fox word (09 R440, R448, R836). -/
def State.foxCycle (s : State) : State :=
  if s.twin.foxThisCycle then (s.tw fun u => { u with foxThisCycle := false })
  else
    let s1 := (s.bump F.TWN_HB_FOX_MISS 1)
    let s2 := if s1.on F.TWN_STATUS_FOX_OK then (s1.put F.TWN_STATUS_FOX_OK 0).raise 0x7060 islTwin [] else s1
    let p := if s2.twin.badgerHeard = some true then 1 else 0xF
    let s3 := (s2.tw fun u => { u with foxSilent := s2.twin.foxSilent + 1, foxHeard := none }).put
      F.TWN_STATUS_PARTNER_TSTATE p
    let s4 := s3.twinShow
    if s4.bothSilent ∧ (s4.isStandby ∨ s4.handover) then s4.activeLost 1 else s4

/-- The standby that declared the active lost takes the role (09 R449, 02 R101). -/
def State.takeover (s : State) : State :=
  match s.twin.lost with
  | none => s
  | some c =>
    let s1 := (s.tw fun u => { u with lost := none, switch := none, switchTo := none })
    let s2 := if s1.handover then s1.hoClose 0x1034 else s1
    let s3 := (((s2.setEpoch (s2.epoch + 1)).setT 1).cause c).bump F.TWN_SWITCHES_TAKEOVERS 1
    s3.assumeRole

/-- The old active at boundary B (09 R446, R460, 16 R716, 02 R101): it launches the burst of B before it restarts; in a handover, whose
window may have closed since, it restarts its image. -/
def State.switchOut (s : State) (w : Switch) : State :=
  let s1 := (s.tw fun u => { u with switch := none, owed := none })
  let s2 := (((s1.setT (if w.diverge then 4 else 3)).cause w.cause).bump F.TWN_SWITCHES_PLANNED 1).dropRole
  let s3 := s2.raise 0x7050 islTwin (le 4 w.cause)
  if w.ho then
    (if s.nv.hoState = 4 then (s3.hoTo 5).raise 0x1031 islMgmt []
     else s3.inNv fun v => { v with boot := some (.slot v.hoTarget) }).restartImage
  else s3.tw fun u => { u with outgoing := some w.thenRestart }

/-- The old active of this boundary has launched its burst: it restarts where a cause stands (09 R460, R464, 16 R716). -/
def State.outgoingEnd (s : State) : State :=
  match s.twin.outgoing with
  | none => s
  | some c =>
    let s1 := s.tw fun u => { u with outgoing := none }
    match c with
    | some k => s1.restart k
    | none => s1

/-- The new active at boundary B (09 R424, R460, 02 R101). -/
def State.switchIn (s : State) (w : Switch) : State :=
  let s1 := (s.tw fun u => { u with switch := none, switchTo := none })
  let s2 := ((((s1.setEpoch (s1.epoch + 1)).setT 1).cause w.cause).bump F.TWN_SWITCHES_PLANNED 1).assumeRole
  let s3 := s2.raise 0x7050 islTwin (le 4 w.cause)
  if s.nv.hoState = 4 then ((s3.hoTo 5).tw fun u => { u with burstOff := false }).raise 0x1031 islMgmt [] else s3

/-- A planned switchover whose boundary is `n` (09 R460). -/
def State.switchAt (s : State) (n : Nat) : State :=
  match s.twin.switch with
  | none => s
  | some w =>
    if w.at_ ≠ n then s
    else if s.isActive ∧ w.acked = true then s.switchOut w
    else if s.twin.switchTo = some n then s.switchIn w
    else s

/-- The winner of a tie-break increments its epoch at its next C0 boundary (09 R458). -/
def State.tieBoundary (s : State) : State :=
  if s.twin.tieWin ∧ s.isActive then
    (s.tw fun u => { u with tieWin := false }).setEpoch (s.epoch + 1)
  else (s.tw fun u => { u with tieWin := false })

/-- DIVERGED and LAGGING at the next C0 boundary (09 R429, R447, R837). -/
def State.twinReeval (s : State) : State :=
  if s.tstate = 4 then
    let s1 := s.divsShow
    if s1.twin.divs.length ≥ 3 then (s1.setT 8).raise 0x7022 islTwin [] else s1.startJoin true
  else if s.tstate = 5 then s.startJoin true
  else s

/-- Time of the join attempt in ms. -/
def State.joinShow (s : State) : State :=
  if s.tstate = 2 then s.put F.TWN_JOIN_ELAPSED (min ((s.now - s.twin.joinStart) / 1000000) 65535) else s

/-- The twin at boundary `n`, once a boundary sequence runs; a loss declared before it is acted on, one that this boundary shows at
the next (09 R449). -/
def State.twinBoundary (s : State) (n : Nat) : State :=
  (((((((s.twinReeval).takeover).foxCycle).switchAt n).tieBoundary).joinShadow n).joinShow).lagsShow.divsShow.daysShow.twinShow

end Sys2Proof.Machine
end

