-- ==== Sys2Proof/Machine/Handover.lean ====
section
/-! DEFINITION. Handover change: the command, the window, the mapping of state, the image restart, the copy burst (02 R92 to
R106; 04 R172, R190). -/
namespace Sys2Proof.Machine

/-! ## The command and the window -/

/-- The image that stands in a profile slot. -/
def State.slotBytes (s : State) (slot : Nat) : List Byte :=
  Memory.readN s.flash (slotBase slot) (((s.nv.slots[slot]?).getD {}).lenMib * 1048576)

/-- The target of a handover: the profile slot is VALID in both modules, is not the running slot, and holds an image whose
state map starts from the running image (02 R96, Handover change). -/
def State.hoTargetOk (s : State) (slot : Nat) (partnerValid : Bool) : Bool :=
  partnerValid && decide (((s.nv.slots[slot]?).getD {}).st = 2) && decide (s.runSlot ≠ some slot) &&
  (let b := s.slotBytes slot
   bitOf (field b 14 2) 1 && decide ((parseImg b).mapPred = s.image.ident))

/-- The window opens in this module: it notes the target, what runs now, and which module goes first (02 R97, R98, R101 to
R103). -/
def State.hoOpen (s : State) (slot : Nat) (first : Bool) : State :=
  let prev : Choice := match s.runSlot with
    | some n => .slot n
    | none => .factory
  let s1 := s.inNv fun v => { v with hoState := 1, hoElapsed := 0, hoTarget := slot, hoFirst := first, hoPrev := prev,
                                     hoIdent := pad 16 (imageIdent (s.slotBytes slot)), hoPrevIdent := pad 16 s.image.ident }
  (s1.tw fun u => { u with hoAt := some s.now, reached := [], classMatched := [], copyBurst := [] }).showNv.twinShow

/-- A HANDOVER command on the active (02 R96, R101). MARK: DESIGN CHOICE: one that comes while a window is open or a switchover
is named is refused too (assumption 87). -/
def State.hoCommand (s : State) (slot : Nat) (partnerValid : Bool) : Answer :=
  if s.nv.hoState ≠ 0 ∨ !s.matched ∨ s.twin.switch.isSome ∨ !s.hoTargetOk slot partnerValid then
    (s.raise 0x1033 islMgmt []).refused 0
  else (((s.hoOpen slot false).raise 0x1030 islMgmt []).send (.handoverStart slot)).ok []

/-- HANDOVER (02 R96 to R98, R101). -/
def execHandover (ses : Fin 16) (req : Nat) (slot : Fin 4) (partnerValid : Bool) (t : Nat) (s : State) : Res :=
  .next ((s.at t).request ses req 6 true true (fun s => s.hoCommand slot.val partnerValid))

/-- The image restart of a handover: RESTARTING in the module that goes first, FOLLOWING in the other (02 R100, R101). -/
def State.hoRestart (s : State) : State :=
  if !s.pwr.imageRestart ∧ ((s.nv.hoState = 1 ∧ s.nv.hoFirst = true) ∨ (s.nv.hoState = 5 ∧ s.nv.hoFirst = false)) then
    s.restartImage
  else s

/-- HANDOVER_START_FROM_ACTIVE (02 R101): the standby stops its own burst, takes up the copy burst and restarts. -/
def execHandoverStartFromActive (slot : Fin 4) (t : Nat) (s : State) : Res :=
  let s0 := s.at t
  .next (if s0.nv.hoState = 0 ∧ s0.isStandby then (s0.hoOpen slot.val true).hoRestart else s0)

/-- IMAGE_RESTART (02 R100). -/
def execImageRestart (t : Nat) (s : State) : Res := .next (s.at t).hoRestart

/-- COPY_BURST_STAGE (02 R99, R100): the active's received burst stands in the ring frame staging of this module. -/
def execCopyBurstStage (ring : Fin 16) (bytes : List Byte) (s : State) : Res :=
  .next (if s.nv.hoState ≠ 0 ∧ !s.isActive then
      (s.sysW (ringStaging ring.val) (bytes.take 0x80000)).tw fun u => { u with copyBurst := (u.copyBurst.filter (fun e => decide (e.1 ≠ ring.val) ||
        (decide (frameCount e.2 = frameCount bytes) && decide (frameIdx e.2 ≠ frameIdx bytes)))) ++ [(ring.val, bytes)] }
    else s)

/-- A module ends a handover before SWITCHING: the one that went first restarts into its previous profile slot and joins
normally (02 R101, R102). -/
def State.hoBack (s : State) (code cause : Nat) : State :=
  let s1 := s.hoReturn code
  if s.nv.hoFirst then s1.restart cause else s1

/-- How long the window has been open, in ns (02 R97, R106). -/
def State.hoOpenNs (s : State) : Nat := s.nv.hoElapsed * 100000000 + (s.now - s.twin.hoAt.getD s.now)

/-- HANDOVER_ABORT (02 R101, R102). -/
def execHandoverAbort (t : Nat) (s : State) : Res :=
  let s0 := s.at t
  .next (if 1 ≤ s0.nv.hoState ∧ s0.nv.hoState ≤ 3 then s0.hoBack 0x1033 3 else s0)

/-- HANDOVER_WINDOW_EXPIRY (02 R97, R101, R104): the window has been open for 60 s; from SWITCHING on a module that restarts takes the
target image all the same. -/
def execHandoverWindowExpiry (t : Nat) (s : State) : Res :=
  let s0 := s.at t
  .next (if s0.nv.hoState = 0 ∨ s0.hoOpenNs < 60000000000 then s0
    else if s0.nv.hoState ≤ 3 then s0.hoBack 0x1034 7
    else if s0.img.isNone ∧ s0.next.isNone then (s0.hoClose 0x1034).inNv fun v => { v with boot := some (.slot s0.nv.hoTarget) }
    else s0.hoClose 0x1034)

/-! ## The mapping of state (02 R92 to R95; 04 R172, R190) -/

/-- A value converted between point types (02 R94): the word, and whether it was NaN. MARK: DESIGN CHOICE: BOOL and BITS32 are
integer types with the limits 0 to 1 and 0 to 2^32 − 1 (assumption 88). -/
def convertWord (src dst : Nat) (v : Word) : Word × Bool :=
  let x := f32.unpack v.toNat
  let int : Int := if src = 2 then v.toInt else v.toNat
  if src = 4 then
    if dst = 4 then (v, false)
    else if x.isNan then (0, true)
    else
      let lim : Int × Int := if dst = 2 then (-2147483648, 2147483647) else if dst = 0 then (0, 1) else (0, 4294967295)
      let k := (Fmt.toRange .rne lim.1 lim.2 x).1
      (BitVec.ofInt 32 (clampInt lim.1 lim.2 k), false)
  else if dst = 4 then (BitVec.ofNat 32 (f32.ofInt .rne int).bits, false)
  else
    let lim : Int × Int := if dst = 2 then (-2147483648, 2147483647) else if dst = 0 then (0, 1) else (0, 4294967295)
    (BitVec.ofInt 32 (clampInt lim.1 lim.2 int), false)

/-- The type of a point of the running image, as the copy names it. -/
def oldType (types : List (Nat × Nat)) (p : Nat) : Nat :=
  match types.find? (fun e => e.1 = p) with
  | some e => e.2
  | none => 0

/-- A value and quality mapped to a point of the new image: a converted NaN is SUBSTITUTED, which stands together with VALID
(02 R94, 04 R145). -/
def State.mapVal (s : State) (types : List (Nat × Nat)) (xform o n : Nat) (pv : PointVal) : PointVal :=
  if xform = 1 then
    let c := convertWord (oldType types o) (s.pinfo n).typ pv.v
    { v := c.1, q := if c.2 then qHeld pv.q else pv.q }
  else pv

/-- One point value and quality (KIND 1): of a point that was forced, what its owner delivered, since its force ends with the
running image unless an entry of KIND 5 moves it (04 R145, R182, R190). -/
def State.mapPoint (s : State) (old : StatePatch) (types : List (Nat × Nat)) (xform o n : Nat) : State :=
  match old.points.find? (fun e => e.1 = o) with
  | none => s
  | some e =>
    if xform = 2 then s
    else
      let pv := match (old.forces.getD []).find? (fun f => f.point = o) with
        | some f => f.owner
        | none => e.2
      let w := s.mapVal types xform o n pv
      s.sg fun g => { g with closed := tset none g.closed n (some w), atClass := tset none g.atClass n (some w.v) }

/-- The previous value of a point set (04 R172). -/
def State.setPrev (s : State) (n : Nat) (w : Word) : State := s.sg fun g => { g with prev := tset none g.prev n (some w) }

/-- One previous value (KIND 2): XFORM 2 takes the image's initial value (02 R92). -/
def State.mapPrev (s : State) (old : StatePatch) (types : List (Nat × Nat)) (xform o n : Nat) : State :=
  if xform = 2 then s.setPrev n (s.pinfo n).init
  else match old.prev.find? (fun e => e.1 = o) with
    | none => s
    | some e => s.setPrev n (if xform = 1 then (convertWord (oldType types o) (s.pinfo n).typ e.2).1 else e.2)

/-- The words of one slot that carry state: region, mode and manual value of the header, and the state words (06 R306). -/
def slotStateOffs : List Nat := [0x024, 0x028, 0x02C] ++ wordsFrom 0x180 32

/-- One slot state (KIND 3): integrator pairs, previous samples and filter states go on (02 R95). -/
def State.mapSlot (s : State) (old : StatePatch) (o n : Nat) : State :=
  let w := fun off => (old.regs.find? (fun e => e.1 = 0x20000000 + 0x400 * o + off)).map (fun e => e.2)
  let s1 := s.each slotStateOffs (fun t off => match w off with
    | some v => t.slotWr n off v.toNat
    | none => t)
  let s2 := match w 4 with
    | some v => (s1.put (F.SLOT_STATUS_REGION n) (getBits v 16 3)).put (F.SLOT_STATUS_AUTO n) (getBits v 19 1)
    | none => s1
  match old.slots.find? (fun e => e.1 = o) with
  | some e => s2.sl n fun d => { d with first := false, prevAuto := e.2.prevAuto, prevW := e.2.prevW, delivered := e.2.delivered,
                                         oldGains := e.2.oldGains, oldVmax := e.2.oldVmax }
  | none => s2

/-- One byte of partition retained memory (KIND 4): the copy names it by its offset in the retained memory of the old image
(assumption 71). -/
def State.mapByte (s : State) (old : StatePatch) (o n : Nat) : State :=
  match old.mem.find? (fun e => decide (e.1 ≤ o) && decide (o < e.1 + e.2.length)), retainedAddr s.image.parts n with
  | some e, some a => s.sysW a [(e.2[o - e.1]?).getD 0]
  | _, _ => s

/-- One force (KIND 5): it moves to its new point, at most one to a point and 4,096 in all (04 R176, R190, R191). -/
def State.mapForce (s : State) (old : StatePatch) (types : List (Nat × Nat)) (xform o n : Nat) : State :=
  match (old.forces.getD []).find? (fun f => f.point = o) with
  | none => s
  | some f =>
    if xform = 2 ∨ (s.force? n).isSome ∨ s.sig.forces.length ≥ 4096 then s
    else
      let v := (s.mapVal types xform o n { v := f.value }).v
      let e := lowestFree (s.sig.forces.map (fun g => g.entry)) 4096 0
      let g : Force := { point := n, persist := (s.pinfo n).persist, value := v, owner := s.mapVal types xform o n f.owner,
                         entry := e }
      let s1 := s.sg fun u => { u with forces := sortBy (fun (x : Force) => x.entry) (g :: u.forces) }
      if (s.pinfo n).persist then s1.pforce n (some v) else s1

/-- One entry of the state map (02 R92). -/
def State.mapEntry (s : State) (old : StatePatch) (types : List (Nat × Nat)) (e : MapEntry) : State :=
  s.each (List.range e.span) (fun t k =>
    match e.kind with
    | 1 => t.mapPoint old types e.xform (e.old + k) (e.new + k)
    | 2 => t.mapPrev old types e.xform (e.old + k) (e.new + k)
    | 3 => if e.xform = 2 then t else t.mapSlot old (e.old + k) (e.new + k)
    | 4 => if e.xform = 2 then t else t.mapByte old (e.old + k) (e.new + k)
    | 5 => t.mapForce old types e.xform (e.old + k) (e.new + k)
    | _ => t)

/-- The objects of the new image that the entries of a kind name (02 R92). -/
def mapped (m : List MapEntry) (kind : Nat) : List Nat :=
  (m.filter (fun e => e.kind = kind)).flatMap (fun e => (List.range e.span).map (fun k => e.new + k))

/-- Forces of the running image that no entry names (04 R190). -/
def lostForces (old : StatePatch) (m : List MapEntry) : Nat :=
  ((old.forces.getD []).filter (fun f => !m.any (fun e => decide (e.kind = 5) && decide (e.xform ≠ 2) &&
    decide (e.old ≤ f.point) && decide (f.point < e.old + e.span)))).length

/-- The mapped state of the active taken over (02 R92 to R95, 04 R190); in the first image closed on it a previous value that no
entry names equals the point's value (04 R172). -/
def State.mapState (s : State) (old : StatePatch) (types : List (Nat × Nat)) : State :=
  let s1 := ((s.each s.image.map (fun t e => t.mapEntry old types e)).sg fun g =>
    { g with mapNamed := some (mapped s.image.map 2) }).countForces
  let n := lostForces old s.image.map
  let s2 := if n ≠ 0 then s1.raise 0x3012 islCs (le 4 n) else s1
  s2.setEpoch old.epoch

/-- HANDOVER_MAPPING_DONE (02 R92 to R95, R101; 04 R172, R190): MAPPING ends and the module runs in shadow on the mapped
state; a previous value that no entry names equals the point's value. -/
def execHandoverMappingDone (old : StatePatch) (types : List (Nat × Nat)) (t : Nat) (s : State) : Res :=
  let s0 := s.at t
  .next (if s0.nv.hoState = 2 ∧ s0.nv.hoFirst = true then
      let s1 := (s0.mapState old types).hoTo 3
      ((s1.tw fun u => { u with joinM := s1.count + 1, reached := [], classMatched := [] }).put F.TWN_JOIN_STEP 4).put
        F.TWN_JOIN_PROGRESS 100
    else s0)

/-! ## The handover at a boundary -/

/-- ELAPSED counts tenths of a second while the window is open (02 R97, R106). -/
def State.hoTick (s : State) : State :=
  if s.nv.hoState = 0 then s else
  match s.twin.hoAt with
  | none => s.tw fun u => { u with hoAt := some s.now }
  | some a =>
    if s.now ≥ a + 100000000 then
      ((s.inNv fun v => { v with hoElapsed := min 600 (v.hoElapsed + (s.now - a) / 100000000) }).tw fun u =>
        { u with hoAt := some (a + (s.now - a) / 100000000 * 100000000) }).showNv
    else s

/-- SHADOW ends when every class has completed one full cycle under the target image: the standby reports ready (02 R101).
Classes that have had a first boundary stand in `reached`, those that have had a second in `classMatched`. -/
def State.hoShadow (s : State) (n : Nat) : State :=
  if s.nv.hoState = 3 ∧ s.nv.hoFirst = true ∧ n ≥ s.twin.joinM then
    let now := (List.range 8).filter (fun k => isBoundary k n)
    let full := dedupN (s.twin.classMatched ++ now.filter (fun k => s.twin.reached.contains k))
    let had := (List.range 8).all (fun k => s.twin.classMatched.contains k)
    let s1 := s.tw fun u => { u with reached := dedupN (u.reached ++ now), classMatched := full }
    if !had ∧ (List.range 8).all (fun k => full.contains k) then s1.send .handoverReady else s1
  else s

/-- The active at a boundary: it sends the switch record once the standby has reported ready and no module is in SUSPECT, again
where one was cancelled, and sees the second module come up under the target image (02 R101, 09 R459). -/
def State.hoActive (s : State) (n : Nat) (ready : Bool) : State :=
  if s.isActive ∧ ((s.nv.hoState = 1 ∧ ready = true) ∨ s.nv.hoState = 4) ∧ s.nv.hoFirst = false ∧ s.twin.switch.isNone ∧
      s.noSuspect then
    (s.nameSwitch { at_ := n + 4, cause := 5, ho := true }).hoTo 4
  else if s.isActive ∧ s.nv.hoState = 5 ∧ s.ptstate = 2 then s.hoTo 6
  else s

/-- The handover at boundary `n`. -/
def State.hoBoundary (s : State) (n : Nat) (ready : Bool) : State := ((s.hoTick.hoShadow n).hoActive n ready)

end Sys2Proof.Machine
end

