-- ==== Sys2Proof/Machine/Router.lean ====
section
/-! DEFINITION. The mesh: places and paths, arbitration at a router output, tags of transactions (03 R107 to R121). -/
namespace Sys2Proof.Machine

/-! ## The mesh (03 R107, R108, R110) -/

/-- Column of a router (03 R107). -/
def routerCol (r : Nat) : Nat := r % 16
/-- Row of a router (03 R107). -/
def routerRow (r : Nat) : Nat := r / 16

/-- The power domain of an island; none where no island is (01 Island inventory, 03 R107). -/
def islandPd (n : Nat) : Option Nat :=
  if n < 16 then some 18 else if n < 32 then some 19 else if n < 64 then some (14 + (n - 32) / 8) else if n < 66 then some 17
  else if n < 130 then some 22 else if n < 146 then some 20 else if n < 162 then some 21
  else if n < 178 then some (10 + (n - 162) / 4) else if n < 194 then some 23 else if n < 202 then some 8
  else if n < 206 then some 9 else if n < 209 then some 7 else if n = 209 then some 6 else if n = 210 then some 2
  else if n = 211 then some 5 else if n < 214 then some 7 else if n = 214 then some 1 else if n = 215 then some 7
  else if n = 216 then some 0 else if n = 217 then some 7 else if n < 220 then some 22 else if n < 224 then some 8 else none

/-- Whether the router of an island answers in its place: the island is off or absent (03 R108). -/
def State.islandOff (s : State) (n : Nat) : Bool :=
  match islandPd n with
  | some d => !s.pd d
  | none => true

/-- The output of a router towards another: 0 local, 1 north, 2 east, 3 south, 4 west; along the row first, or along the column
first (03 R110). MARK: DESIGN CHOICE: north is the row before (assumption 90). -/
def outputTo (yx : Bool) (r dst : Nat) : Nat :=
  let x := if routerCol r < routerCol dst then 2 else if routerCol dst < routerCol r then 4 else 0
  let y := if routerRow r < routerRow dst then 3 else if routerRow dst < routerRow r then 1 else 0
  if yx then (if y ≠ 0 then y else x) else if x ≠ 0 then x else y

/-- The router at an output. -/
def routerAt (r out : Nat) : Nat :=
  match out with
  | 1 => r - 16
  | 2 => r + 1
  | 3 => r + 16
  | 4 => r - 1
  | _ => r

/-- The one path between two routers, both ends included (03 R110): at most 30 hops. -/
def meshPath (yx : Bool) (dst : Nat) : Nat → Nat → List Nat
  | 0, r => [r]
  | n + 1, r => if r = dst then [r] else r :: meshPath yx dst n (routerAt r (outputTo yx r dst))

/-- Order of a virtual channel: false XY, true YX (03 R110). -/
def Routes.order (r : Routes) (vc : Nat) : Bool := (r.yx[vc]?).getD false

/-! ## Arbitration at a router output (03 R112 to R118) -/

/-- Age stamp of a transaction: the low 16 bits of line time at injection in units of 4 ns (03 R116). -/
def ageStamp (t : Nat) : Nat := t / 4 % 65536

/-- Of two stamps, the first is older: its signed 16-bit difference from the other is negative (03 R116). -/
def older (a b : Nat) : Bool := decide (32768 ≤ (a + 65536 - b) % 65536)

/-- VC0 flits that a window grants with strict priority (03 R113). -/
def vc0Budget : Nat := 200

/-- The virtual channel of a source's transaction: every one of a core pair travels on VC0 (12 R531). -/
def onVc (src vc : Nat) : Nat := if src < 32 then 0 else vc

/-- The virtual channel of a flit (12 R531). -/
def Flit.chan (f : Flit) : Nat := onVc f.src.val f.vc.val

/-- Turns of the rotation: as many for each channel as its weight, VC0 beyond its budget 15 (03 R113, R114). MARK: DESIGN
CHOICE: a channel's turns stand together, those of VC1 first, those of VC0 last (assumption 90). -/
def Routes.turns (r : Routes) : List Nat :=
  List.replicate r.w1 1 ++ List.replicate r.w2 2 ++ List.replicate r.w3 3 ++ List.replicate 15 0

/-- The place of the next turn from a place on: turns of VC0 count only while it takes part in the rotation (03 R113, R114). -/
def nextTurn (l : List Nat) (turn : Nat) (vc0 : Bool) : Nat :=
  (((List.range l.length).map (fun i => (turn + i) % l.length)).find? (fun i => vc0 || decide ((l[i]?).getD 0 ≠ 0))).getD 0

/-- The channel whose turn it is, or the next one after it that has a flit ready (03 R114). -/
def nextReady (turn : Nat) (ready : List Flit) : Option Nat :=
  ((List.range 4).map (fun i => (turn + i) % 4)).find? (fun c => ready.any (fun f => decide (f.chan = c)))

/-- Of two flits of a channel the one that wins: the older, at equal age the first in the order of the token (03 R117, R118). -/
def flitWins (token : Nat) (a b : Flit) : Bool :=
  let x := ageStamp a.inj
  let y := ageStamp b.inj
  if x = y then decide ((a.input.val + 5 - token) % 5 < (b.input.val + 5 - token) % 5) else older x y

/-- The flit of a channel that wins (03 R117, R118). -/
def flitBest (token : Nat) : List Flit → Option Flit
  | [] => none
  | f :: l => some (l.foldl (fun a b => if flitWins token b a then b else a) f)

/-- The grant: the token moves on, the flit is noted (03 R118). -/
def RouterOut.grant (o : RouterOut) (f : Flit) : RouterOut :=
  { o with token := (o.token + 1) % 5, vc0 := if f.chan = 0 then o.vc0 + 1 else o.vc0, grants := o.grants ++ [f] }

/-- The grant to a channel. -/
def RouterOut.pick (o : RouterOut) (vc : Nat) (ready : List Flit) : RouterOut :=
  match flitBest o.token (ready.filter (fun f => decide (f.chan = vc))) with
  | some f => o.grant f
  | none => o

/-- One handshake of an output (03 R112): VC0 within its budget, else the rotation; nothing where no flit is ready. -/
def RouterOut.handshake (r : Routes) (o : RouterOut) (ready : List Flit) : RouterOut :=
  let vc0 := ready.any (fun f => decide (f.chan = 0))
  if o.vc0 < vc0Budget ∧ vc0 = true then o.pick 0 ready
  else
    let l := r.turns
    let i := nextTurn l o.turn vc0
    match nextReady ((l[i]?).getD 1) ready with
    | some vc => ({ o with turn := i + 1 } : RouterOut).pick vc ready
    | none => o

/-- A router output (03 R112). -/
def State.routerOut (s : State) (router output : Nat) : RouterOut := tget {} s.fab.outs (5 * router + output)

/-- A flit whose path leaves a router by an output (03 R110). -/
def Flit.leaves (r : Routes) (router output : Nat) (f : Flit) : Bool :=
  decide (outputTo (r.order f.chan) router f.dst.val = output)

/-- A window of a router output: what was ready at each of its handshakes, at most 800 (03 R109, R112). -/
def State.routerWindow (s : State) (router output : Nat) (ready : List (List Flit)) : RouterOut :=
  let r := s.image.routes
  (ready.take 800).foldl (fun o l => o.handshake r (l.filter (Flit.leaves r router output)))
    { s.routerOut router output with vc0 := 0, grants := [] }

/-- A link is slow, or no longer slow (03 R109). MARK: DESIGN CHOICE: a link is no longer slow once a loaded window of it has the 760
handshakes again (assumption 113). -/
def State.slowLink (s : State) (router output : Nat) (slow : Bool) : State :=
  let rest := s.fab.slow.filter (fun e => e ≠ (router, output))
  let s1 := s.fb fun u => { u with slow := if slow then rest ++ [(router, output)] else rest }
  let s2 := s1.putB F.FAB_STATUS_SLOW_LINK (decide (s1.fab.slow ≠ []))
  if slow then (s2.setBit (R.FAB_SLOW (router / 32)) (router % 32) true).raise 0x2001 router (le 1 router ++ le 1 output)
  else s2

/-- VC0 flits of a window beyond its budget: each is counted, and the window raises one event (03 R113). MARK: DEDUCED: one event
for a window, not one for each flit (assumption 90). -/
def State.vc0Over (s : State) (router n : Nat) : State :=
  if n > vc0Budget then (s.bump F.FAB_VC0_OVER_OVER_COUNT (n - vc0Budget)).raise 0x2002 router [] else s

/-- FABRIC_WINDOW_END (03 R109, R112 to R118): a 1 µs window of a router output ends; whether it was under load, and which flits
stood ready at each of its handshakes; the routers belong to PD22 (R108). -/
def execFabricWindowEnd (router : Fin 256) (output : Fin 5) (load : Bool) (ready : List (List Flit)) (s : State) : Res :=
  let o := s.routerWindow router.val output.val ready
  if !s.pd 22 then .next s else
  let s1 := s.fb fun u => { u with outs := tset {} u.outs (5 * router.val + output.val) o }
  let s2 := if load then s1.slowLink router.val output.val (decide (o.grants.length < 760)) else s1
  .next (s2.vc0Over router.val o.vc0)

/-! ## Tags (03 R119 to R121) -/

/-- The tags of a source island in a pool: the first and how many; VC0 tags 0x0000 to 0x0FFF, the others 0x1000 to 0x3FFF
(03 R119). MARK: DESIGN CHOICE: the shares lie in the pool one after the other in island order (assumption 89). -/
def Routes.share (r : Routes) (isl : Nat) (vc0 : Bool) : Nat × Nat :=
  let l := r.shares.map (fun e => if vc0 then e.1 else e.2)
  let size := if vc0 then 4096 else 12288
  let first := min (l.take isl).sum size
  ((if vc0 then 0 else 4096) + first, min ((l[isl]?).getD 0) (size - first))

/-- Whether a tag is held: in flight or in quarantine (03 R119, R121). -/
def State.tagHeld (s : State) (tag : Nat) : Bool :=
  s.fab.inflight.any (fun e => e.tag = tag) || s.fab.quarantine.any (fun e => e.2.1 = tag)

/-- A free tag of a source for a virtual channel (03 R119). -/
def State.freeTag (s : State) (src vc : Nat) : Option Nat :=
  let r := s.image.routes.share src (decide (vc = 0))
  (List.range r.2).map (fun i => r.1 + i) |>.find? (fun t => !s.tagHeld t)

/-- A transaction of a source takes a free tag of its share of the pool, or waits for one (03 R119, R120). -/
def State.inject (s : State) (e : TagUse) : State :=
  match s.freeTag e.src e.vc with
  | some tag => s.fb fun u => { u with inflight := u.inflight ++ [{ e with tag := tag }] }
  | none => s.fb fun u => { u with tagWaits := u.tagWaits ++ [e], tagWaitAt := some (max e.inj s.now) }

/-- The first waiting transaction of a source that a free tag of its pool now serves (03 R120): other pools wait for nothing. -/
def State.serveWait (s : State) (src : Nat) : State :=
  match s.fab.tagWaits.find? (fun e => decide (e.src = src) && (s.freeTag src e.vc).isSome) with
  | some e => (s.fb fun u => { u with tagWaits := u.tagWaits.erase e, tagWaitAt := some s.now }).inject { e with inj := s.now }
  | none => s

/-- A tag is free again: at the response of its transaction or at the end of its quarantine (03 R120, R121). -/
def State.tagFree (s : State) (src tag : Nat) : State :=
  (s.fb fun u => { u with inflight := u.inflight.filter (fun e => !(decide (e.tag = tag) && decide (e.src = src))) }).serveWait src

/-- What happened to a tag; a transaction of a core pair takes one of the VC0 pool (12 R531). -/
def State.tagEvent (s : State) (e : TagEvent) : State :=
  match e with
  | .inject src dst vc t => s.inject { src := src.val, dst := dst.val, vc := onVc src.val vc.val, inj := t }
  | .response src tag => s.tagFree src.val tag.val

/-- Tags in flight as a C0 boundary samples them (03 FAB_TAGS), and whether a source waited for one during the last 1 ms. -/
def State.tagsSample (s : State) : State :=
  let n := (s.fab.inflight.filter (fun e => decide (e.vc = 0))).length
  let s1 := (s.put F.FAB_TAGS_VC0_INUSE (min n 4096)).put F.FAB_TAGS_DATA_INUSE (min (s.fab.inflight.length - n) 12288)
  let s2 := if s.fab.tagWaits = [] then s1 else s1.fb fun u => { u with tagWaitAt := some s.now }
  s2.putB F.FAB_STATUS_TAG_WAIT (match s2.fab.tagWaitAt with
    | some w => decide (s2.now < w + 1000000)
    | none => false)

/-- Whether a transaction may time out: it is not known to be younger than 10 µs (03 R121). -/
def State.overdue (s : State) (src tag : Nat) : Bool :=
  !s.fab.inflight.any (fun e => decide (e.tag = tag) && decide (e.src = src) && decide (s.now < e.inj + 10000))

/-- A transaction times out: counted, reported, its tag in quarantine for 10 µs (03 R121). -/
def State.tagTimeout (s : State) (src dst tag : Nat) : State :=
  (((s.fb fun u => { u with
        inflight := u.inflight.filter (fun e => !(decide (e.tag = tag) && decide (e.src = src))),
        quarantine := u.quarantine ++ [(src, tag, s.now + 10000)] }).bump F.FAB_TAG_TIMEOUT_TIMEOUTS 1).raise 0x2003 src
    (le 1 src ++ le 1 dst ++ le 2 tag)).send (.response src 1)

/-- A transaction to an island that is off or absent (03 R108). -/
def State.noIsland (s : State) (src router : Nat) : State := (s.raise 0x2040 router []).send (.response src 2)

/-- TAG_QUARANTINE_END (03 R121): 10 µs after its timeout the tag returns to the pool. -/
def execTagQuarantineEnd (src : Fin 256) (tag : Fin 16384) (t : Nat) (s : State) : Res :=
  let s0 := s.at t
  let due := fun (e : Nat × Nat × Nat) => decide (e.1 = src.val) && decide (e.2.1 = tag.val) && decide (e.2.2 ≤ s0.now)
  .next (if s0.fab.quarantine.any due = true then
      (s0.fb fun u => { u with quarantine := u.quarantine.filter (fun e => !due e) }).serveWait src.val
    else s0)

/-- LATE_RESPONSE_RX (03 R121): a response for a timed-out tag is discarded. -/
def execLateResponseRx (src : Fin 256) (tag : Fin 16384) (s : State) : Res :=
  .next (if s.fab.quarantine.any (fun e => decide (e.1 = src.val) && decide (e.2.1 = tag.val)) then s.raise 0x2004 src.val []
    else s)

end Sys2Proof.Machine
end

