-- ==== Sys2Proof/Machine/Fabric.lean ====
section
/-! DEFINITION. The fabric and the memories: HBM channel hash, floor share, stress monitors, ECC (03). -/
namespace Sys2Proof.Machine

/-! ## Channel hash (03 R125 to R128) -/

/-- Parity of a number of `n` bits. -/
def parity (n v : Nat) : Bool := (List.range n).foldl (fun b i => Bool.xor b (bitOf v i)) false

/-- The channel of an HBM address (03 R125). -/
def HbmKey.channel (k : HbmKey) (addr : Nat) : Nat :=
  (List.range 5).foldl (fun c i =>
    c + 2 ^ i * b2n (Bool.xor (parity 27 (Nat.land (bitsOf addr 8 27) ((k.m[i]?).getD 0))) (bitOf k.k i))) 0

/-- The offset of an HBM address inside its channel (03 R125). -/
def HbmKey.offset (addr : Nat) : Nat := bitsOf addr 13 22 * 256 + bitsOf addr 0 8

/-- Column j of the key matrix: bit j of each mask. -/
def HbmKey.column (k : HbmKey) (j : Nat) : Nat :=
  (List.range 5).foldl (fun c i => c + 2 ^ i * b2n (bitOf ((k.m[i]?).getD 0) j)) 0

/-- Columns are linearly independent over GF(2): no non-empty choice of them adds up to zero. -/
def independent (cols : List Nat) : Bool :=
  (List.range (2 ^ cols.length)).all (fun c => decide (c = 0) ||
    decide (cols.zipIdx.foldl (fun a e => if bitOf c e.2 then Nat.xor a e.1 else a) 0 ≠ 0))

/-- A valid key (03 R127). -/
def HbmKey.ok (k : HbmKey) : Bool :=
  (List.range 23).all (fun j => independent ((List.range 5).map (fun i => k.column (j + i))))

/-- The default key (03 R128). -/
def HbmKey.default : HbmKey :=
  { m := (List.range 5).map (fun i => (List.range 6).foldl (fun a j => if i + 5 * j < 27 then a + 2 ^ (i + 5 * j) else a) 0)
    k := 0 }

/-- The key in use (03 R128). -/
def State.hbmKey (s : State) : HbmKey := if s.image.hbmKey.ok then s.image.hbmKey else HbmKey.default

/-- Whether an address lies in HBM (03). -/
def isHbm (a : Nat) : Bool := decide (a < 0x800000000)

/-- A write to HBM from a trace or a stream is dropped: its channel is in STRESS (03 R133). -/
def State.dropsWrite (s : State) (a : Nat) : Bool :=
  isHbm a && bitOf (s.rdN R.FAB_HBM_STRESS) (s.hbmKey.channel a)

/-! ## HBM channels (03 R131 to R133) -/

/-- The stress monitor of a channel. -/
def State.hbmChan (s : State) (c : Nat) : HbmChan := tget {} s.fab.hbm c

/-- The state with a stress monitor changed. -/
def State.setHbm (s : State) (c : Nat) (h : HbmChan) : State := s.fb fun u => { u with hbm := tset {} u.hbm c h }

/-- Whether an HBM access finds its channel off (03 R108). -/
def State.hbmOff (s : State) (a : Nat) : Bool := isHbm a && s.islandOff (islHbm (s.hbmKey.channel a))

/-- A request of a channel is answered: its virtual channel, how many ns it waited and was answered after, ECC 0 good, 1 corrected,
2 uncorrectable. VC0 and VC1 make it a floor request (03 R131, R132, R134). -/
def State.hbmAnswer (s : State) (c vc waited answered ecc : Nat) : State :=
  let s1 := if vc ≤ 1 ∧ waited > 300 then s.setHbm c { s.hbmChan c with waited := true } else s
  let s2 := if vc ≤ 1 ∧ answered > 600 then s1.raise 0x2012 (islHbm c) [] else s1
  if ecc = 1 then (s2.bump F.FAB_ECC_HBM_CE 1).raise 0x2022 (islHbm c) []
  else if ecc = 2 then ((s2.put F.FAB_STATUS_ECC_UE 1).raise 0x2023 (islHbm c) []).noteFault
  else s2

/-- Service slots of a channel in a 1 µs window: 51.2 GB/s in flits of 64 bytes (03 R131, 01 R49). MARK: DEDUCED: the spec states
the floor share in percent and in GB/s and names no number of slots (assumption 91). -/
def hbmSlots : Nat := 800

/-- What an HBM channel takes a request for: 0 floor, which is what arrives on VC0 or VC1, 1 bulk, 2 trace offload, 3 stream capture, 4
join copy; what a core pair sends travels on VC0 (03 R131, R133, 12 R531). -/
def HbmReq.cls (q : HbmReq) : Fin 5 :=
  if onVc q.src.val q.vc.val ≤ 1 then 0
  else if q.kind = 1 then 2 else if q.kind = 2 then 3 else if q.kind = 3 then 4 else 1

/-- Requests of a queue that one pass serves, at most `n` that `p` admits and at most `half` of the join copy: what stays. -/
def servePass (p : Fin 5 → Bool) : Nat → Nat → List (Fin 5) → List (Fin 5) × Nat
  | n, _, [] => ([], n)
  | n, half, x :: l =>
    if n = 0 ∨ p x = false ∨ (x = 4 ∧ half = 0) then
      let r := servePass p n half l
      (x :: r.1, r.2)
    else servePass p (n - 1) (if x = 4 then half - 1 else half) l

/-- One window of a channel: the floor requests take up to the floor share of its slots, then every request is served in port
order; in STRESS trace offload and stream capture are dropped and the join copy takes half of the bulk slots (03 R131, R133,
R134). -/
def HbmChan.serve (h : HbmChan) (floorPct : Nat) (arrived : List (Fin 5)) : List (Fin 5) :=
  let q := h.queue ++ arrived
  let q1 := if h.stress then q.filter (fun x => !(x == 2 || x == 3)) else q
  let share := hbmSlots * floorPct / 100
  let floor := servePass (fun x => x == 0) share 0 q1
  let left := hbmSlots - (share - floor.2)
  (servePass (fun _ => true) left (if h.stress then left / 2 else left) floor.1).1

/-- Bulk requests that wait. -/
def bulkOf (q : List (Fin 5)) : Nat := (q.filter (fun x => x != 0)).length

/-- A channel enters or leaves STRESS (03 R133). -/
def State.hbmStress (s : State) (c : Nat) (h : HbmChan) (on : Bool) : State :=
  let s1 := (s.setHbm c { h with stress := on, quiet := 0, waited := false }).setBit R.FAB_HBM_STRESS c on
  let s2 := s1.putB F.FAB_STATUS_HBM_STRESS (decide (s1.rdN R.FAB_HBM_STRESS ≠ 0))
  if on then (s2.setBit R.FAB_HBM_STRESS_SEEN c true).raise 0x2010 (islHbm c) [] else s2.raise 0x2011 (islHbm c) []

/-- The state table of a channel's stress monitor at the end of a window (03 R133). -/
def State.stressWindow (s : State) (c : Nat) (h : HbmChan) : State :=
  let entry := decide (h.full ≥ 4) || h.waited
  if h.stress then
    if entry then s.setHbm c { h with quiet := 0, waited := false }
    else if h.quiet + 1 ≥ 100 then s.hbmStress c h false
    else s.setHbm c { h with quiet := h.quiet + 1, waited := false }
  else if entry then s.hbmStress c h true
  else s.setHbm c { h with quiet := 0, waited := false }

/-! ## SRAM (03 R124) -/

/-- SRAM_SCRUB (03 R124): the scrubber meets a word with a correctable or an uncorrectable error. -/
def execSramScrub (bank : Fin 64) (word : Fin 131072) (uncorrectable : Bool) (s : State) : Res :=
  let a := 0x8000000000 + 0x100000 * bank.val + 8 * word.val
  .next (if uncorrectable then
      ((s.fb fun u => { u with poison := if u.poison.contains a then u.poison else u.poison ++ [a] }).put F.FAB_STATUS_ECC_UE
        1).raise 0x2021 (66 + bank.val) [] |>.noteFault
    else (s.bump F.FAB_ECC_SRAM_CE 1).raise 0x2020 (66 + bank.val) [])

end Sys2Proof.Machine
end

