-- ==== Sys2Proof/Machine/Rings.lean ====
section
/-! DEFINITION. Station rings: bursts, reception, agreement, the input part of the close, acyclic data, streams (08). -/
namespace Sys2Proof.Machine

/-! ## Ring states (08 R400, R401, R838) -/

/-- Whether the module runs a boundary sequence that may launch bursts: time has started and an image is committed. -/
def State.launching (s : State) : Bool := s.img.isSome && s.time.running

/-- Reduced service, in which only keep-alive bursts are launched (08 R365, 16 R710). -/
def State.keepAlive (s : State) : Bool := (s.image.factory || s.on F.MOD_STATUS_REDUCED) && s.isActive

/-- Whether the partner launches a burst into a ring: it is ACTIVE, MATCHED or copies the active's burst in a handover, and
reports no ring port down (08 R401). -/
def State.partnerLaunches (s : State) (r : Nat) : Bool :=
  (s.ring r).partnerUp && (decide (s.ptstate = 1) || decide (s.ptstate = 3) || (s.handover && decide (s.ptstate ≠ 0xF)))

/-- Whether this module launches bursts into the rings, copies of a handover among them (08 R363, R364). -/
def State.ownLaunches (s : State) : Bool :=
  s.isActive || s.twin.outgoing.isSome || decide (s.tstate = 3) || s.handover

/-- STATE of a ring in use: SINGLE while one twin does not launch (08 R400, R401, RNG_STATUS). -/
def State.ringStateOf (s : State) (r : Nat) : Nat :=
  let k := s.ring r
  if (s.image.ring? r).isNone then 0
  else if k.miscabled then 6
  else if !k.ownUp then 1
  else if !k.committed then 2
  else if s.keepAlive then 7
  else if !s.partnerLaunches r || !s.ownLaunches then 4
  else if k.looped || decide (s.get (F.RNG_LOOP_A_END r) ≠ 0) || decide (s.get (F.RNG_LOOP_B_END r) ≠ 0) then 5
  else 3

/-- STATE follows; passing to SINGLE raises event 0x6032 (08 R400, R401). -/
def State.ringShow (s : State) (r : Nat) : State :=
  let n := s.ringStateOf r
  let s1 := if n = 4 ∧ s.get (F.RNG_STATUS_STATE r) ≠ 4 then s.raise 0x6032 (islRing r) [] else s
  s1.put (F.RNG_STATUS_STATE r) n

/-- Whether a station's segments enter the image: PRESENT, SAFE or LOOPING (08 R405, R838). -/
def State.stnIn (s : State) (r st : Nat) : Bool :=
  let n := s.get (F.RNG_STN_STATE_STATE r st)
  decide (n = 2) || decide (n = 3) || decide (n = 4)

/-- Whether segments are resolved with the partner (08 R388, 19 R793). -/
def State.agrees (s : State) : Bool := s.exchanging && !(s.isActive && decide (s.twin.foxSilent ≥ 1))

/-! ## Layout of a burst (08 R362, R366 to R369) -/

/-- Segments of a ring due at boundary `n`, with their index (08 R366). -/
def RingRec.due (r : RingRec) (n : Nat) : List (Nat × SegRec) :=
  (r.segs.zipIdx.filter (fun e => isBoundary e.1.cls n)).map (fun e => (e.2, e.1))

/-- Place of a due segment in its frame's segment space at boundary `n` (08 R362). -/
def RingRec.place (r : RingRec) (n : Nat) (g : SegRec) : Nat :=
  g.offset - ((r.segs.filter (fun h => decide (h.frame = g.frame) && decide (h.offset < g.offset) &&
    !isBoundary h.cls n)).map (fun h => 10 + h.len)).foldl (fun a b => a + b) 0

/-- The header of a segment (08 R368). -/
def segHead (g : SegRec) (sflags : Nat) : List Byte :=
  le 1 g.station ++ le 1 g.kind ++ le 2 g.len ++ le 1 sflags ++ le 1 g.segId ++ le 2 0

/-- A segment: header, payload, CRC-16 (08 R368, R369). -/
def segBytes (g : SegRec) (sflags : Nat) (pl : List Byte) : List Byte :=
  let b := segHead g sflags ++ pad g.len pl
  b ++ le 2 (crc16 b)

/-- CLASSES of a cycle header: bit k where `n` is a boundary of Ck (08 R367). -/
def classBits (n : Nat) : Nat := flags ((List.range 8).map (fun k => (k, isBoundary k n)))

/-- STOP of a module: its trip inputs latched at least 18 µs ago (08 R372, R367, 14 R632). MARK: DEDUCED: a latch that set
later does not stand in STOP yet (assumption 108). -/
def State.stopBits (s : State) : Nat :=
  flags ((List.range 4).map (fun n =>
    (n, bitOf (s.get F.DIO_TRIP_LATCH) n && decide ((tget {} s.loc.trips n).setAt + 18000 ≤ s.now))))

/-- FFLAGS of a frame of this module (08 R367). -/
def State.frameFlags (s : State) (copy last : Bool) : Nat :=
  flags [(0, s.twinB), (1, s.isActive), (2, copy), (4, last)]

/-- A cycle header with its HDR_CRC (08 R367). -/
def cycleHead (ftype ring fflags epoch n frame stop segs : Nat) : List Byte :=
  let b := le 1 1 ++ le 1 ftype ++ le 1 ring ++ le 1 fflags ++ le 4 epoch ++ le 8 n ++ le 1 (classBits n) ++ le 1 frame ++
    le 1 stop ++ le 1 segs ++ le 2 0
  b ++ le 2 (crc16 b)

/-- A whole frame of a ring port: the MAC header with the ring's group address and EtherType, the cycle header and the segments,
zero padding up to the 64-byte minimum, the FCS (08 R357, R362, R367). -/
def RingRec.frame (rr : RingRec) (b : List Byte) : List Byte :=
  withFcs (le 6 rr.group ++ pad 6 (Config.macSource rr.ring) ++ le 1 (rr.ethertype / 256) ++ le 1 rr.ethertype ++ b ++
    List.replicate (46 - b.length) 0)

/-- Payload and REPEAT of an output segment at boundary `n`: as staged, else as in the previous burst (08 R384). -/
def State.outPayload (s : State) (rr : RingRec) (e : Nat × SegRec) : List Byte × Bool :=
  let k := s.ring rr.ring
  if k.unstaged.contains e.1 then (pad e.2.len (tget [] k.prevOut e.1), true)
  else (s.formPayload e.2.len (e.2.entries rr), false)

/-- The bytes of a segment as launched (08 R366). -/
def State.launchSeg (s : State) (rr : RingRec) (e : Nat × SegRec) : List Byte :=
  if e.2.kind = 1 then
    let p := s.outPayload rr e
    segBytes e.2 (2 * b2n p.2) p.1
  else segBytes e.2 0 []

/-- The segment space of one frame (08 R362): bytes between segments are zero. -/
def State.frameSpace (s : State) (rr : RingRec) (n : Nat) (segs : List (Nat × SegRec)) : List Byte :=
  (sortBy (fun e => rr.place n e.2) segs).foldl (fun b e =>
    pad (rr.place n e.2) b ++ s.launchSeg rr e) []

/-- The frames of the burst of boundary `n` (08 R362). -/
def State.burstFrames (s : State) (rr : RingRec) (n : Nat) : List (List Byte) :=
  let due := rr.due n
  let idx := sortBy (fun i => i) (dedupN (due.map (fun e => e.2.frame)))
  if idx = [] then [rr.frame (cycleHead 1 rr.ring (s.frameFlags false true) s.epoch n 0 s.stopBits 0)]
  else idx.map (fun i =>
    let segs := due.filter (fun e => e.2.frame = i)
    rr.frame (cycleHead 1 rr.ring (s.frameFlags false (decide (some i = idx.getLast?))) s.epoch n i s.stopBits segs.length ++
      s.frameSpace rr n segs))

/-- A copy burst frame: the active's frame with PATH of this end and COPY set (08 R364, 02 R99). -/
def State.copyFrame (s : State) (b : List Byte) : List Byte :=
  let d := frameBody b
  let f := field d 3 1
  let g := f - f % 2 + b2n s.twinB + (if bitOf f 2 then 0 else 4)
  let h := splice (d.take 22) 3 (le 1 g)
  withFcs (b.take 14 ++ h ++ le 2 (crc16 h) ++ d.drop 24)


/-- Output segments of the burst leave their payload for the next one and count where they repeat (08 R384). -/
def State.noteRepeats (s : State) (rr : RingRec) (n : Nat) : State :=
  let outs := (rr.due n).filter (fun e => e.2.kind = 1)
  let s1 := s.ri rr.ring fun k => { k with prevOut := outs.foldl (fun t e => tset [] t e.1 (s.outPayload rr e).1) k.prevOut }
  s1.each (outs.filter (fun e => (s.ring rr.ring).unstaged.contains e.1)) (fun t _ =>
    (t.bump (F.RNG_REPEAT_REPEATED rr.ring) 1).raise 0x6070 (islRing rr.ring) [])

/-- Whether this module launches a cycle burst at a boundary; the old active of a switchover launches the one of its boundary
(08 R362, R363, 09 R420, R432, R460). -/
def State.launches (s : State) : Bool :=
  s.launching && !s.twin.burstOff && (s.isActive || s.twin.outgoing.isSome || (decide (s.tstate = 3) && !s.twin.lagNow))

/-- The copy burst of a ring at boundary `n` in a handover window. MARK: DEDUCED: what stands staged goes out only with its own
C0_COUNT `n`, since a station takes no other (02 R99, 08 R376; assumption 80). -/
def State.copyRing (s : State) (n r : Nat) : State :=
  s.each (s.twin.copyBurst.filter (fun e => decide (e.1 = r) && decide (frameCount e.2 = n))) (fun t e =>
    t.send (.ringFrame r (s.copyFrame e.2)))

/-- The copy bursts of boundary `n` of a module that restarts its image in a handover and runs none yet (02 R99, R100). -/
def State.copyLaunch (s : State) (n : Nat) : State :=
  if s.handover ∧ !s.isActive then
    s.each (List.range 16) (fun t r => if (t.ring r).miscabled ∨ !(t.ring r).ownUp then t else t.copyRing n r)
  else s

/-- The burst of one ring at boundary `n`: keep-alive, copy burst, cycle burst or none (08 R362 to R366, R405). -/
def State.launchRing (s : State) (rr : RingRec) (n : Nat) : State :=
  let r := rr.ring
  if (s.ring r).miscabled ∨ !(s.ring r).ownUp then s
  else if s.keepAlive then
    s.send (.ringFrame r (rr.frame (cycleHead 2 r (s.frameFlags false true) s.epoch n 0 s.stopBits 0)))
  else if s.handover ∧ !s.isActive then s.copyRing n r
  else if s.launches then (s.each (s.burstFrames rr n) (fun t b => t.send (.ringFrame r b))).noteRepeats rr n
  else s

/-- A new cycle of one ring: nothing has arrived yet (08 R381). -/
def State.ringCycle (s : State) (r : Nat) : State :=
  ((s.ri r fun k => { k with
    segs := [], gotFrame := false, deadline := false, looped := k.loopNow, loopNow := false, unstaged := [] }).putB
    (F.RNG_STATUS_STOP_TX r) (decide (s.stopBits ≠ 0))).ringShow r

/-- Every ring launches the burst of boundary `n`; without a running image only copy bursts leave (08 R362, 02 R100). -/
def State.ringsLaunch (s : State) (n : Nat) : State :=
  if s.img.isNone then s.copyLaunch n else
  (s.each s.image.rings (fun t rr => (t.launchRing rr n).ringCycle rr.ring)).tw fun u => { u with lagNow := false }

/-! ## Agreement (08 R385 to R389) -/

/-- Whether the copy `a` of this module came in the eastbound burst, seen beside the partner's copy `b` (08 R386). A copy
without a burst has epoch 0; alone, the ACTIVE flag of the burst decides. -/
def eastOf (a b : SegCopy) (active : Bool) : Bool :=
  if b.epoch = 0 then a.active
  else if a.epoch ≠ b.epoch then decide (a.epoch > b.epoch)
  else if a.active ≠ b.active then a.active
  else active

/-- SOURCE of a copy taken from one burst (08 R386). -/
def sourceOf (east : Bool) : Nat := if east then 1 else 2

/-- What the table of R386 gives for two copies; none while a full copy is awaited (08 R386). -/
def agreeSeg (a b : SegCopy) (full active : Bool) : Option Resolution :=
  let east := eastOf a b active
  if a.valid && b.valid then
    if a.digest = b.digest then some { payload := some a.payload, source := 1 }
    else if east then some { payload := some a.payload, source := 1, diff := true }
    else if full then some { payload := some b.payload, source := 1, diff := true }
    else none
  else if a.valid then some { payload := some a.payload, source := sourceOf east }
  else if b.valid then (if full then some { payload := some b.payload, source := sourceOf (eastOf b a (!active)) } else none)
  else some {}

/-- The resolution from the own copy alone (08 R388, R442). -/
def aloneSeg (a : SegCopy) : Resolution :=
  if a.valid then { payload := some a.payload, source := sourceOf a.active } else {}

/-- Agreement state of a segment of the current cycle. -/
def State.segState (s : State) (r i : Nat) : SegState := tget {} (s.ring r).segs i

/-- The state with the agreement state of a segment replaced. -/
def State.setSeg (s : State) (r i : Nat) (g : SegState) : State := s.ri r fun k => { k with segs := tset {} k.segs i g }

/-- A pair of valid copies that differ is counted and reported once (08 R386). -/
def State.noteDiff (s : State) (r i : Nat) (station : Nat) : State :=
  let g := s.segState r i
  match g.own, g.partner with
  | some a, some b =>
    if a.valid && b.valid && decide (a.digest ≠ b.digest) && !g.noted then
      (((s.setSeg r i { g with noted := true }).bump (F.RNG_AGREE_DIFF r) 1).total (0x210 + 32 * r) 4 1).raise 0x6020
        (islRing r) (le 1 station ++ le 4 i)
    else s
  | _, _ => s

/-- A full copy is sent once it is known that the partner lacks it (08 R386). -/
def State.sendFull (s : State) (r i : Nat) (a b : SegCopy) : State :=
  if a.valid && (!b.valid || (decide (a.digest ≠ b.digest) && eastOf a b s.isActive)) then
    s.send (.fullCopy r i a.payload)
  else s

/-- A segment is resolved as soon as what is known of it allows (08 R386, R388). -/
def State.tryResolve (s : State) (r i : Nat) : State :=
  let g := s.segState r i
  if g.res.isSome then s else
  match g.own with
  | none => s
  | some a =>
    if !s.agrees then s.setSeg r i { g with res := some (aloneSeg a) }
    else match g.partner with
      | none => s
      | some b => s.setSeg r i { g with res := agreeSeg a b g.full s.isActive }

/-- Own copy and partner's digest of a segment are both known (08 R386). -/
def State.segBoth (s : State) (r i station : Nat) : State :=
  let g := s.segState r i
  match g.own, g.partner with
  | some a, some b => if s.agrees then ((s.noteDiff r i station).sendFull r i a b).tryResolve r i else s.tryResolve r i
  | _, _ => s.tryResolve r i

/-- The module's own copy of a segment is known: its digest goes to the partner (08 R381, R385). -/
def State.setOwn (s : State) (n r i station : Nat) (a : SegCopy) : State :=
  if (s.segState r i).own.isSome then s
  else
    let s1 := s.setSeg r i { s.segState r i with own := some a }
    let s2 := s1.send (.digest n { ring := r, seg := i, crc := a.digest, valid := a.valid, epoch := a.epoch, active := a.active })
    s2.segBoth r i station

/-! ## Reception (08 R381 to R383) -/

/-- The own copy of a segment from the frame that holds it; its digest is formed valid or not (08 R381, R385). -/
def copyOf (rr : RingRec) (n : Nat) (b : List Byte) (g : SegRec) : SegCopy :=
  let o := 24 + rr.place n g
  let w := (b.drop o).take (8 + g.len)
  let sf := field b (o + 4) 1
  let like := decide (field b o 1 = g.station) && decide (field b (o + 1) 1 = g.kind) && decide (field b (o + 2) 2 = g.len) &&
    decide (field b (o + 5) 1 = g.segId)
  let ok := like && decide (w.length = 8 + g.len) && decide (field b (o + 8 + g.len) 2 = crc16 w) && bitOf sf 0
  { valid := ok, payload := if ok then w.drop 8 else [], sflags := sf, digest := crc32c w,
    epoch := field b 4 4, active := bitOf (field b 3 1) 1 }

/-- A module in LISTEN that hears an active on a ring and no partner makes no claim; event 0x7002 comes once in a listening
(09 R429). -/
def State.ringHeard (s : State) (active : Bool) : State :=
  if s.tstate = 0 ∧ active then
    let s1 := s.tw fun u => { u with ringActive := true }
    if s1.partnerHeard ∨ s1.twin.raised7002 then s1
    else (s1.tw fun u => { u with raised7002 := true }).raise 0x7002 islTwin []
  else s

/-- A good frame shows the epoch of its sender; a higher one than the module's own is reported (08 R383, 09 R426, R429). -/
def State.ringEpoch (s : State) (r epoch : Nat) (active claims : Bool) : State :=
  let s1 := s.wrN (R.RNG_EPOCH r) (max (s.rdN (R.RNG_EPOCH r)) epoch)
  let s2 := if epoch > s1.epoch then (s1.put (F.RNG_STATUS_EPOCH_HIGH r) 1).raise 0x6071 (islRing r) [] else s1
  ((s2.listen epoch).ringHeard active).seeEpoch 3 epoch claims

/-- Arrival of a frame of a burst (08 RNG_ARRIVAL). -/
def State.ringArrival (s : State) (r off : Nat) : State :=
  let a := min off 65535
  (s.put (F.RNG_ARRIVAL_LAST r) a).put (F.RNG_ARRIVAL_MAX r) (max a (s.get (F.RNG_ARRIVAL_MAX r)))

/-- A frame after RX_DL is lost for its segments (08 R382). -/
def State.lateFrame (s : State) (r off : Nat) : State :=
  ((s.bump (F.RNG_RX_LATE r) 1).total (0x20C + 32 * r) 4 1).raise 0x6011 (islRing r) (le 1 r ++ le 4 off)

/-- RX_DL of a ring in force: 18,000 ns until the first census commit (08 R392, R838). -/
def State.rxDl (s : State) (r : Nat) : Nat := s.get (F.RNG_SCHED_RX_DL r)

/-- The input and stream segments of a frame become the module's own copies; those of a MISMATCH station are taken as invalid
(08 R381, R385, R405). -/
def State.takeFrame (s : State) (rr : RingRec) (n : Nat) (b : List Byte) : State :=
  s.each ((rr.due n).filter (fun e => decide (e.2.kind ≠ 1) && decide (e.2.frame = field b 17 1))) (fun t e =>
    t.setOwn n rr.ring e.1 e.2.station
      (let c := copyOf rr n b e.2
       if t.get (F.RNG_STN_STATE_STATE rr.ring e.2.station) = 5 then { c with valid := false, payload := [] } else c))

/-- A good frame of a cycle burst or keep-alive burst (08 R381, R382). -/
def State.burstFrame (s : State) (rr : RingRec) (b : List Byte) (t : Nat) : State :=
  let r := rr.ring
  let n := field b 8 8
  let off := t - boundaryNs n
  let looped := bitOf (field b 3 1) 3
  let s1 := if looped then s.ri r fun k => { k with loopNow := true, looped := true } else s
  let s2 := s1.ringArrival r off
  if n > s.count ∨ (s.ring r).miscabled then s
  else
    let s3 := if n = s.count then s2.ri r fun k => { k with gotFrame := true } else s2
    if n < s.count ∨ off > s.rxDl r then s3.lateFrame r off
    else if field b 1 1 = 1 then s3.takeFrame rr n b else s3

/-- Whether a frame has a good FCS (08 R357, R407). -/
def fcsGood (b : List Byte) : Bool :=
  decide (4 ≤ b.length) && decide (field b (b.length - 4) 4 = crc32 (b.take (b.length - 4)))

/-- Whether a frame has a length of a ring frame and a good FCS (08 R357, R376). -/
def fcsOk (b : List Byte) : Bool := decide (64 ≤ b.length) && decide (b.length ≤ 2000) && fcsGood b

/-- Whether a frame is one of the ring: its group address, its EtherType, its number, an FTYPE from 1 to 4 and a good HDR_CRC.
PAUSE and priority flow control frames are none (08 R357, R367, R383). -/
def RingRec.takes (rr : RingRec) (b : List Byte) : Bool :=
  let d := frameBody b
  decide (field b 0 6 = rr.group) && decide (256 * field b 12 1 + field b 13 1 = rr.ethertype) &&
    decide (field d 22 2 = crc16 (d.take 22)) && decide (field d 2 1 = rr.ring) && decide (1 ≤ field d 1 1) &&
    decide (field d 1 1 ≤ 4)

/-- RING_FRAME_RX (08 R357, R381 to R383, R385, R388, R407): a frame arrives at a ring port: its bytes from the MAC header to
the FCS. One with a bad FCS is counted and brings nothing; one that is no frame of the ring is discarded. The active flag of a copy burst is
the other module's own, and claims nothing (02 R99, 09 R458). -/
def execRingFrameRx (ring : Fin 16) (bytes : List Byte) (t : Nat) (s : State) : Res :=
  let s0 := s.at t
  let r := ring.val
  .next (match s0.image.ring? r with
    | none => s0
    | some rr =>
      if s0.img.isNone then s0
      else if !fcsGood bytes then s0.ri r fun k => { k with portFcs := k.portFcs + 1 }
      else if !fcsOk bytes ∨ !rr.takes bytes then s0
      else
        let d := frameBody bytes
        let fl := field d 3 1
        let own := bitOf fl 3 && decide (bitOf fl 0 = s0.twinB)
        let s1 := s0.ringEpoch r (field d 4 4) (bitOf fl 1) (bitOf fl 1 && !bitOf fl 2 && !own)
        (if field d 1 1 ≤ 2 then s1.burstFrame rr d t else s1).ringShow r)

/-! ## The acyclic window (08 R380, R390, R397, R403) -/

/-- Time that a frame of the acyclic window takes on the medium, in ns. MARK: DESIGN CHOICE: the spec does not lay out the
payload of these frames, so each is judged as one of 2,000 bytes (assumption 97). -/
def RingRec.acycSer (rr : RingRec) : Nat := (8 * 2020 + rr.gbps - 1) / rr.gbps

/-- When a frame that is ready now would leave the port (08 R397). -/
def State.acycAt (s : State) (r : Nat) : Nat := max s.now (s.ring r).acycFree

/-- Whether a frame launched now leaves from ACYC_START on and arrives at the far module by t0 + 30,750 ns (08 R397). -/
def State.acycFits (s : State) (rr : RingRec) : Bool :=
  let t0 := boundaryNs s.count
  decide (t0 + s.get (F.RNG_SCHED_ACYC_START rr.ring) ≤ s.acycAt rr.ring) &&
    decide (s.acycAt rr.ring + (s.ring rr.ring).path + rr.acycSer ≤ t0 + 30750)

/-- FTYPE of a frame of the window (08 R367). -/
def AcycFrame.ftype : AcycFrame → Nat
  | .census _ => 3
  | .release _ => 4

/-- Number of segments and segment space of a frame of the window: what a census frame holds, or one acyclic request segment
(08 R368, R380, R390, R403). -/
def AcycFrame.space : AcycFrame → Nat × List Byte
  | .census o => Config.censusSpace o.kind o.first
      (o.at_ :: b2n o.endLoop :: o.sched.laa.flatMap (fun x => [x.1, x.2.1, x.2.2]))
  | .release st =>
    let p := (Config.releaseBody st).take 1948
    (1, segBytes { station := st, kind := 4, len := p.length } 0 p)

/-- The bytes of a frame of the window as this module launches it (08 R367). -/
def State.acycBytes (s : State) (rr : RingRec) (f : AcycFrame) : List Byte :=
  rr.frame (cycleHead f.ftype rr.ring (s.frameFlags false false) s.epoch s.count 0 s.stopBits f.space.1 ++ f.space.2.take 1958)

/-- START and READ frames whose return is awaited, of a frame that goes out (08 R403). -/
def AcycFrame.awaited : AcycFrame → Bool
  | .census o => decide (o.kind ≠ 3)
  | .release _ => false

/-- A frame leaves in the window of the current cycle (08 R397). -/
def State.acycOut (s : State) (rr : RingRec) (f : AcycFrame) : State :=
  (s.ri rr.ring fun k => { k with
    acycFree := s.acycAt rr.ring + rr.acycSer, sent := if f.awaited && s.isActive then k.sent ++ [s.count] else k.sent }).send
    (.acycFrame rr.ring f (s.acycBytes rr f))

/-- While the ring is LOOPED the active asks its partner for a copy of a census frame in the same window (08 R834). -/
def State.acycAsk (s : State) (rr : RingRec) (f : AcycFrame) : State :=
  match f with
  | .census o => if s.isActive ∧ s.get (F.RNG_STATUS_STATE rr.ring) = 5 then
      (s.ri rr.ring fun k => { k with sent := if f.awaited then k.sent ++ [s.count] else k.sent }).send
        (.censusAsk rr.ring { o with window := s.count })
    else s
  | .release _ => s

/-- A frame goes out in the acyclic window, or waits for the next one (08 R397). -/
def State.acycSend (s : State) (rr : RingRec) (f : AcycFrame) : State :=
  if s.acycFits rr then (s.acycOut rr f).acycAsk rr f
  else s.ri rr.ring fun k => { k with acycWait := k.acycWait ++ [f] }

/-- The acyclic window opens: the frames that waited for it go out (08 R397). -/
def State.acycOpen (s : State) (rr : RingRec) : State :=
  (s.ri rr.ring fun k => { k with acycWait := [] }).each (s.ring rr.ring).acycWait (fun t f => t.acycSend rr f)

/-- What has not arrived by RX_DL is lost; digests of missing segments are sent as invalid (08 R382, R385). -/
def State.ringDeadline (s : State) (rr : RingRec) : State :=
  let r := rr.ring
  if (s.ring r).miscabled then s else
  let s1 := if (s.ring r).gotFrame then s
    else ((s.bump (F.RNG_RX_LOST r) 1).total (0x208 + 32 * r) 4 1).raise 0x6010 (islRing r) (le 1 r ++ le 8 s.count)
  s1.each ((rr.due s1.count).filter (fun e => e.2.kind ≠ 1)) (fun u e => u.setOwn u.count r e.1 e.2.station {})

/-- RX_DEADLINE (08 R382, R385, R392, R397): RX_DL after t0 passes, once in a cycle; the acyclic window opens. -/
def execRxDeadline (ring : Fin 16) (t : Nat) (s : State) : Res :=
  let s0 := s.at t
  let r := ring.val
  .next (match s0.image.ring? r with
    | none => s0
    | some rr =>
      if (s0.ring r).deadline ∨ s0.now < boundaryNs s0.count + s0.rxDl r then s0
      else ((s0.ri r fun k => { k with deadline := true }).ringDeadline rr).acycOpen rr)

/-- The segment record of a ring's segment. -/
def State.segRec (s : State) (r i : Nat) : SegRec :=
  ((s.image.ring? r).bind (fun rr => rr.segs[i]?)).getD { station := 0, kind := 0 }

/-- One digest of the partner for the current cycle (08 R386). -/
def State.digest1 (s : State) (d : DigestMsg) : State :=
  let g := s.segState d.ring d.seg
  if g.partner.isSome then s
  else
    (s.setSeg d.ring d.seg { g with partner := some { valid := d.valid, digest := d.crc, epoch := d.epoch,
                                                      active := d.active } }).segBoth d.ring d.seg (s.segRec d.ring d.seg).station

/-- DIGEST_RX (08 R385 to R387, 14 R649): digests of the partner for a cycle, and its copies of local input points. Those of
another cycle are discarded; so are, after t0 + 22 µs, the copies of local points, and in the active the digests. -/
def execDigestRx (n : Nat) (digests : List DigestMsg) (locals : List LocalCopy) (t : Nat) (s : State) : Res :=
  let s0 := s.at t
  let late := decide (s0.now > boundaryNs n + 22000)
  .next (if n ≠ s0.count then s0
    else
      let s1 := if late && s0.isActive then s0 else s0.each digests (fun t d => t.digest1 d)
      if late then s1
      else s1.lo fun u => { u with partner := (if u.partnerN = n then u.partner else []) ++ locals, partnerN := n })

/-- SEGMENT_COPY_RX (08 R386, R387): a full copy from the partner; it counts in FETCHED. The active takes none after
t0 + 22 µs. -/
def execSegmentCopyRx (ring : Fin 16) (seg n : Nat) (payload : List Byte) (t : Nat) (s : State) : Res :=
  let r := ring.val
  let s0 := s.at t
  .next (if n ≠ s0.count ∨ (s0.isActive = true ∧ s0.now > boundaryNs n + 22000) then s0
    else
      let g := s0.segState r seg
      match g.partner with
      | none => s0
      | some b =>
        let s1 := (s0.setSeg r seg { g with partner := some { b with payload := payload }, full := true }).bump
          (F.RNG_AGREE_FETCHED r) 1
        s1.tryResolve r seg)

/-- What the active makes of a segment that is open at t0 + 22 µs (08 R387). -/
def lateSeg (g : SegState) : Resolution :=
  let a := g.own.getD {}
  match g.partner with
  | none => { aloneSeg a with listed := true }
  | some b =>
    if a.valid then { payload := some a.payload, source := sourceOf (eastOf a b true),
                      diff := b.valid && decide (a.digest ≠ b.digest), listed := true }
    else { listed := true }

/-- What a module makes of an open segment from its own copy and the full copies it holds (09 R442). -/
def heldSeg (g : SegState) (active : Bool) : Resolution :=
  let a := g.own.getD {}
  match g.partner with
  | none => aloneSeg a
  | some b =>
    if a.valid then { payload := some a.payload, source := sourceOf (eastOf a b active),
                      diff := b.valid && decide (a.digest ≠ b.digest) }
    else if b.valid && g.full then { payload := some b.payload, source := sourceOf (eastOf b a (!active)) }
    else {}

/-- Every open input or stream segment of the cycle is resolved by a rule. -/
def State.resolveOpen (s : State) (f : SegState → Resolution) : State :=
  s.each s.image.rings (fun t rr => t.each ((rr.due t.count).filter (fun e => e.2.kind ≠ 1)) (fun u e =>
    let g := u.segState rr.ring e.1
    if g.res.isSome then u else u.setSeg rr.ring e.1 { g with res := some (f g) }))

/-- AGREEMENT_DEADLINE (08 R387): t0 + 22 µs in the active. -/
def execAgreementDeadline (t : Nat) (s : State) : Res :=
  let s0 := s.at t
  .next (if s0.isActive ∧ s0.now ≥ boundaryNs s0.count + 22000 then s0.resolveOpen lateSeg else s0)

/-- CLOSE_RECORD_RX (08 R389, 14 R649): the standby takes every listed segment and subscription as the active resolved it, and the
listed local channels. A record for an image that has closed is discarded. -/
def execCloseRecordRx (n : Nat) (segs : List (Fin 16 × Nat × Resolution)) (subs : List (Fin 256 × Nat × SubResolution))
    (locals : List (Nat × Word × Byte)) (s : State) : Res :=
  .next (if n ≠ s.count ∨ s.rd64 R.SIG_CLOSED = n ∨ s.twin.closeRec = some n ∨ s.isActive then s
    else
      let s1 := s.each segs (fun t e =>
        t.setSeg e.1.val e.2.1 { t.segState e.1.val e.2.1 with res := some { e.2.2 with listed := true } })
      let s2 : State := { s1 with lines := { s1.lines with ruled := subs.map (fun e => (e.1.val, e.2)) } }
      (s2.lo fun u => { u with adopted := locals }).tw fun u => { u with closeRec := some n })

/-- CLOSE_RECORD_MISSING (08 R389, 09 R442): a standby without a close record by t0 + 24 µs counts a lag cycle and resolves
from its own copies and the full copies it holds; in SUSPECT it counts none. -/
def execCloseRecordMissing (t : Nat) (s : State) : Res :=
  let s0 := s.at t
  .next (if s0.isStandby ∧ s0.twin.closeRec ≠ some s0.count ∧ s0.rd64 R.SIG_CLOSED ≠ s0.count ∧
        s0.now ≥ boundaryNs s0.count + 24000 then
      let s1 := if s0.on F.TWN_STATUS_SUSPECT then s0 else (s0.raise 0x6022 islTwin []).lagCycle
      (s1.resolveOpen (fun g => heldSeg g false)).tw fun u => { u with closeRec := some s0.count }
    else s0)

/-! ## The close (08 R386, R390, R409 to R413) -/

/-- Whether image `n` can close: every due segment is resolved, and a standby that follows the active holds its close record or
a substitute (08 R387, R389, 09 R442). -/
def State.closable (s : State) (n : Nat) : Bool :=
  s.image.rings.all (fun rr => (s.ring rr.ring).miscabled ||
    ((rr.due n).filter (fun e => e.2.kind ≠ 1)).all (fun e => (s.segState rr.ring e.1).res.isSome)) &&
  (!s.isStandby || !s.exchanging || s.on F.TWN_STATUS_SUSPECT || decide (s.twin.closeRec = some n))

/-- Quality of the points of a resolved segment before SOURCE (08 R386). -/
def Resolution.quality (x : Resolution) : Nat := qValid + qSource x.source + (if x.diff then qDiff else 0)

/-- The agreed payload of an input segment whose station takes part (08 R386, R405). -/
def State.inputPayload (s : State) (rr : RingRec) (i : Nat) (g : SegRec) : Option (List Byte) :=
  if s.stnIn rr.ring g.station then ((s.segState rr.ring i).res).bind (fun x => x.payload) else none

/-- What the entries of encoding 8 of a due segment read (08 R370, R416). -/
def State.overNote (s : State) (rr : RingRec) (i : Nat) (g : SegRec) : State :=
  match s.inputPayload rr i g with
  | some p => s.ri rr.ring fun k => { k with
      overs := k.overs.filter (fun e => e.1 ≠ i) ++ (overIn p (g.entries rr)).map (fun q => (i, q)) }
  | none => s

/-- A point that an entry of encoding 8 names takes OVERRANGE in an image that its value does not enter (08 R416). -/
def State.overSet (s : State) (p : Nat) : State :=
  let x := s.nextVal p
  if bitOf x.q.toNat 0 && !bitOf x.q.toNat 5 then s.deliver p x.v (qByte (x.q.toNat + qOver)) else s

/-- An input segment enters the image (08 R386, R405). -/
def State.inputClose (s : State) (rr : RingRec) (i : Nat) (g : SegRec) : State :=
  let x := ((s.segState rr.ring i).res).getD {}
  match s.inputPayload rr i g with
  | some p => s.deliverMap p (g.entries rr) x.quality ((s.ring rr.ring).overs.map (fun e => e.2))
  | none => s.each (((g.entries rr).filter (fun m => m.enc ≠ 8)).map (fun m => m.point)) (fun t p => t.deliverStale p)

/-- The samples of a stream payload: 24-bit, 0x80_0000 not taken (08 R409, R410). -/
def samplesOf (pl : List Byte) : Nat → List (Option Int)
  | 0 => []
  | n + 1 => (if leNat (pl.take 3) = 0x800000 then none else some (toSigned 24 (leNat (pl.take 3)))) :: samplesOf (pl.drop 3) n

/-- The stream segments of a channel, in SEG_ID order, with their index (08 R409). -/
def RingRec.streamSegs (rr : RingRec) (k : Nat) : List (Nat × SegRec) :=
  (sortBy (fun e => e.1.segId) (rr.segs.zipIdx.filter (fun e => decide (e.1.kind = 3) && decide (e.1.mapFirst = k)))).map
    (fun e => (e.2, e.1))

/-- The agreed payload of a stream segment; none where no valid copy stands or the stream ingest islands of PD23 are off
(08 R410, 16 R693). -/
def State.streamPayload (s : State) (rr : RingRec) (e : Nat × SegRec) : Option (List Byte) :=
  if s.pd 23 && s.stnIn rr.ring e.2.station then ((s.segState rr.ring e.1).res).bind (fun x => x.payload) else none

/-- The samples of one stream segment; every sample missing where it has no valid copy. -/
def State.streamSamples (s : State) (rr : RingRec) (e : Nat × SegRec) : List (Option Int) :=
  match s.streamPayload rr e with
  | some p => samplesOf p (e.2.len / 3)
  | none => List.replicate (e.2.len / 3) none

/-- The samples of a stream channel at a close stand in its stream buffer; missing samples are counted and reported once per
segment (08 R410, R412). -/
def State.streamClose (s : State) (rr : RingRec) (k : Nat) (c : ChanRec) : State :=
  let segs := rr.streamSegs k
  let s1 := s.each segs (fun t e =>
    let miss := ((t.streamSamples rr e).filter (fun x => x.isNone)).length
    if miss = 0 then t
    else (t.bump (F.RNG_STREAM_MISSING rr.ring) miss).raise 0x6060 (islIngest rr.ring) (le 1 c.chan ++ le 4 miss))
  s1.ri rr.ring fun q => { q with streams := tset [] q.streams k (segs.flatMap (fun e => s.streamSamples rr e)) }

/-- One capture record: the C0 count and the segment payload, into the 4 MiB ring of the cluster; a record that meets a stressed
channel is dropped and counted (08 R413, R414, 03 R133). -/
def State.captureOne (s : State) (r n : Nat) (pl : List Byte) : State :=
  let b := le 8 n ++ pl
  let base := 0x07E0000000 + 4194304 * s.get (F.RNG_SCAP_CTL_CLUSTER r)
  let pos := (s.ring r).scapPos
  if (List.range b.length).any (fun i => s.dropsWrite (base + (pos + i) % 4194304)) then
      (s.bump (F.RNG_SCAP_LOSS_LOST r) 1).raise 0x6061 (islIngest r) []
  else
    let s1 := s.each (List.range b.length) (fun t i => t.memW (base + (pos + i) % 4194304) ((b.drop i).take 1))
    s1.ri r fun k => { k with scapPos := (pos + b.length) % 4194304 }

/-- Stream capture at a close (08 R413). -/
def State.streamCapture (s : State) (rr : RingRec) (n : Nat) : State :=
  if !s.on (F.RNG_SCAP_CTL_RUN rr.ring) ∨ !s.pd 23 then s else
  s.each (rr.chans.zipIdx.filter (fun e => decide (e.1.chan = s.get (F.RNG_SCAP_CTL_CHAN rr.ring)) && isBoundary e.1.cls n))
    (fun t e => t.each (rr.streamSegs e.2) (fun u g => match s.streamPayload rr g with
      | some p => u.captureOne rr.ring n p
      | none => u))

/-- Whether a point is owned by a station of ring `r` whose data enter the image (01 R40, 08 R405). -/
def State.stnOwns (s : State) (r p : Nat) : Bool :=
  match (s.pinfo p).owner with
  | .station q st => decide (q = r) && s.stnIn r st
  | _ => false

/-- Acyclic replies whose image this is enter it whole, each value into a point of its station (08 R390, 04 R175, 01 R40). -/
def State.acyclicClose (s : State) (r n : Nat) : State :=
  let due := (s.ring r).acyclic.filter (fun e => decide (e.1 ≤ n))
  let s1 := s.each due (fun t e => t.each (e.2.filter (fun p => s.stnOwns r p.1)) (fun u p =>
    u.deliver p.1 p.2 (qByte (qValid + qSource 1))))
  s1.ri r fun k => { k with acyclic := k.acyclic.filter (fun e => decide (n < e.1)) }

/-- The points of every station of a ring that a census did not find turn STALE, whatever brought them (01 R41, 08 R405, R838). -/
def State.absentClose (s : State) (r : Nat) : State :=
  s.each (s.image.sigmap.filter (fun e => match e.2.owner with
    | .station q st => decide (q = r) && !s.stnIn r st
    | _ => false)) (fun t e => t.deliverStale e.1)

/-- One ring at the close of image `n`. -/
def State.ringClose (s : State) (rr : RingRec) (n : Nat) : State :=
  let due := (rr.due n).filter (fun e => e.2.kind = 2)
  let s0 := s.each due (fun t e => t.overNote rr e.1 e.2)
  let named := due.flatMap (fun e => ((e.2.entries rr).filter (fun m => m.enc ≠ 8)).map (fun m => m.point))
  let s1 := (s0.each due (fun t e => t.inputClose rr e.1 e.2)).each
    (((s0.ring rr.ring).overs.map (fun e => e.2)).filter (fun p => !named.contains p)) State.overSet
  let s2 := s1.each (rr.chans.zipIdx.filter (fun e => isBoundary e.1.cls n)) (fun t e => t.streamClose rr e.2 e.1)
  ((s2.streamCapture rr n).acyclicClose rr.ring n).absentClose rr.ring

/-- The input part of image `n` from every ring. -/
def State.ringsClose (s : State) (n : Nat) : State := s.each s.image.rings (fun t rr => t.ringClose rr n)

/-- The segments that the close record lists: ring and segment index (08 R389). -/
def State.listedSegs (s : State) (n : Nat) : List (Nat × Nat) :=
  s.image.rings.flatMap (fun rr => ((rr.due n).filter (fun e =>
    match (s.segState rr.ring e.1).res with
    | some x => x.listed
    | none => false)).map (fun e => (rr.ring, e.1)))

/-! ## Acyclic data (08 R390) -/

/-- A reply waits for its image. -/
def State.acyclicQueue (s : State) (r n : Nat) (pts : List (Nat × Word)) : State :=
  s.ri r fun k => { k with acyclic := k.acyclic ++ [(n, pts)] }

/-- The segments of a frame, as many as SEG_COUNT says: station, SKIND, SFLAGS and payload of each, none where its CRC is bad or
it does not lie whole in the frame (08 R367, R368). -/
def segsOf : Nat → List Byte → List (Option (Nat × Nat × Nat × List Byte))
  | 0, _ => []
  | n + 1, b =>
    let w := b.take (8 + field b 2 2)
    (if decide (w.length = 8 + field b 2 2) && decide (field b (8 + field b 2 2) 2 = crc16 w) then
      some (field b 0 1, field b 1 1, field b 4 1, w.drop 8) else none) :: segsOf n (b.drop (10 + field b 2 2))

/-- The good segments of a kind that their station has filled, in a frame of an FTYPE of the ring: station and payload
(08 R368, R376, R390). -/
def RingRec.filled (rr : RingRec) (ftype skind : Nat) (b : List Byte) : List (Nat × List Byte) :=
  let d := frameBody b
  if fcsOk b && rr.takes b && decide (field d 1 1 = ftype) then
    (segsOf (field d 19 1) (d.drop 24)).filterMap (fun g => match g with
      | some (st, k, fl, p) => if decide (k = skind) && bitOf fl 0 then some (st, p) else none
      | none => none)
  else []

/-- ACYCLIC_REPLY_RX (08 R390, R368): an acyclic frame arrives with reply segments; `pts` is what they say, by station. The module
passes a reply to its partner with the count of its image. MARK: DESIGN CHOICE: the spec does not lay out the payload of a reply,
so its values come beside the frame (assumption 98). -/
def execAcyclicReplyRx (ring : Fin 16) (bytes : List Byte) (pts : List (Fin 256 × Nat × Word)) (t : Nat) (s : State) : Res :=
  let s0 := s.at t
  let r := ring.val
  let n := boundaryAfter s0.now 2
  .next (match s0.image.ring? r with
    | none => s0
    | some rr =>
      let from_ := (rr.filled 4 5 bytes).map (fun g => g.1)
      let own := (pts.filter (fun p => from_.contains p.1.val && decide ((s0.pinfo p.2.1).owner = .station r p.1.val))).map
        (fun p => p.2)
      if from_ = [] then s0 else (s0.acyclicQueue r n own).send (.acyclicReply r n own))

/-- ACYCLIC_REPLY_FROM_PARTNER (08 R390). -/
def execAcyclicReplyFromPartner (ring : Fin 16) (n : Nat) (pts : List (Nat × Word)) (s : State) : Res :=
  .next (s.acyclicQueue ring.val n pts)

/-- RELEASE in RNG_CTL: the active sends a release request to a station in an acyclic frame (08 R380, R397). -/
def State.ringRelease (s : State) (r st : Nat) : State :=
  if s.isActive then
    match s.image.ring? r with
    | some rr => (s.put (F.RNG_CTL_STATION r) st).acycSend rr (.release st)
    | none => s
  else s

/-- RNG_RELEASE (08 R380). -/
def execRngRelease (ring : Fin 16) (station : Fin 256) (s : State) : Res := .next (s.ringRelease ring.val station.val)

/-! ## Stream capture control (08 R413, RNG_SCAP_CTL) -/

/-- Whether TRACE gives a cluster's trace memory to stream capture of a ring (07 R352). -/
def Img.captures (i : Img) (c : Nat) : Bool := i.traces.any (fun x => decide (x.cluster = c) && x.capture)

/-- A write of CHAN, CLUSTER and RUN; a refused one sets CFG_ERR and starts nothing (08 RNG_SCAP_CTL). The second part says
whether it was refused with RES_BUSY. -/
def State.scapSet (s : State) (r chan cluster : Nat) (run : Bool) : State × Bool :=
  if run && !s.image.captures cluster then (s.put (F.RNG_SCAP_CTL_CFG_ERR r) 1, true)
  else
    let s1 := ((s.put (F.RNG_SCAP_CTL_CHAN r) chan).put (F.RNG_SCAP_CTL_CLUSTER r) cluster).putB (F.RNG_SCAP_CTL_RUN r) run
    ((if run && !s.on (F.RNG_SCAP_CTL_RUN r) then s1.ri r fun k => { k with scapPos := 0 } else s1), false)

/-- RNG_SCAP_RUN (08 R413). -/
def execRngScapRun (ring : Fin 16) (chan : Fin 256) (cluster : Fin 32) (run : Bool) (s : State) : Res :=
  .next (s.scapSet ring.val chan.val cluster.val run).1

end Sys2Proof.Machine
end

