-- ==== Sys2Proof/Machine/Census.lean ====
section
/-! DEFINITION. The station census: its state table, the schedule, station states, noise, ring port links (08 R391 to R408,
R834, R838). -/
namespace Sys2Proof.Machine

/-! ## Schedule (08 R391 to R394), in units of 1/50 ns -/

/-- T_ser of the largest burst of a ring. -/
def RingRec.tser (rr : RingRec) : Nat := 400 * rr.burst / rr.gbps

/-- Units to ns, rounded up. -/
def ceilNs (u : Nat) : Nat := (u + 49) / 50

/-- Sum of a number over entries. -/
def sumOf {α : Type} (f : α → Nat) (l : List α) : Nat := l.foldl (fun a e => a + f e) 0

/-- What the schedule needs of a place on the ring: position, worst delay, length of the section on its A side, PREP (08 R391,
R392). -/
structure Hop where
  pos : Nat
  d : Nat
  ell : Nat
  prep : Nat
  deriving DecidableEq, Repr, Inhabited

/-- Time from one timestamp to a later one; none where one is missing. -/
def span (a b : Option Nat) : Option Nat :=
  match a, b with
  | some x, some y => some (y - x)
  | _, _ => none

/-- The larger of two measurements; zero where there is none. -/
def worstOf (a b : Option Nat) : Nat := max (a.getD 0) (b.getD 0)

/-- Forwarding delay of a station from the timestamps of its entry: through it, or back out of the port at which the frame came
where it loops (08 R391, R406). -/
def CensusEntry.d (e : CensusEntry) : Nat :=
  if (span e.inA e.outB).isSome ∨ (span e.inB e.outA).isSome then worstOf (span e.inA e.outB) (span e.inB e.outA)
  else worstOf (span e.inA e.outA) (span e.inB e.outB)

/-- Propagation delay of the section between two neighbours, from the timestamps of both: left and reached on its A side, left
and reached on its B side (08 R391). MARK: DEDUCED: the stations keep line time, so two timestamps give the delay (assumption
99). -/
def ellOf (leftA reachedA leftB reachedB : Option Nat) : Nat := worstOf (span leftA reachedB) (span leftB reachedA)

/-- The sections on the A side of each entry in order of position, and last the section before twin B (08 R391). -/
def ells (ends : CensusEnds) : Option Nat → Option Nat → List CensusEntry → List Nat
  | left, reached, [] => [ellOf left reached ends.outB ends.inB]
  | left, reached, e :: t => ellOf left reached e.outA e.inA :: ells ends e.outB e.inB t

/-- Arrival at a station of the burst of twin A (path 0) or twin B (path 1), from entries in order of position and the length
of the last section (08 R391). -/
def arrivalAt (tser last : Nat) (l : List Hop) (pos path : Nat) : Nat :=
  if path = 0 then
    50 * (100 + sumOf (fun e => e.ell) (l.filter (fun e => e.pos ≤ pos)) + sumOf (fun e => e.d) (l.filter (fun e => e.pos < pos))) +
      tser
  else
    50 * (100 + sumOf (fun e => e.ell) (l.filter (fun e => pos < e.pos)) + last + sumOf (fun e => e.d)
      (l.filter (fun e => pos < e.pos))) + tser

/-- Arrival at the far module. -/
def farArrival (tser last : Nat) (l : List Hop) : Nat :=
  50 * (200 + sumOf (fun e => e.ell) l + last + sumOf (fun e => e.d) l) + tser

/-- Looped arrival at twin A with twin B absent: the last station loops. -/
def loopArrivalA (tser : Nat) (l : List Hop) : Nat :=
  50 * (200 + 2 * sumOf (fun e => e.ell) l + 2 * sumOf (fun e => e.d) l - (l.getLast?.map (fun e => e.d)).getD 0) + tser

/-- Looped arrival at twin B with twin A absent: the first station loops. -/
def loopArrivalB (tser last : Nat) (l : List Hop) : Nat :=
  50 * (200 + 2 * (sumOf (fun e => e.ell) l.tail + last) + 2 * sumOf (fun e => e.d) l - (l.head?.map (fun e => e.d)).getD 0) + tser

/-- The station that RINGS lists at a position, counted from 1; position 0 is no listed one (08 R358, R834). -/
def RingRec.atPos (rr : RingRec) (pos : Nat) : Option StnRec := if pos = 0 then none else rr.stns[pos - 1]?

/-- The schedule of a ring from its places in order of position, with worst delays, and the length of the last section (08 R392 to
R394). The listed station of a position gives its number. -/
def RingRec.schedule (rr : RingRec) (last : Nat) (l : List Hop) : Sched :=
  let t := rr.tser
  let cap := fun (e : Hop) => rr.applyOff - e.prep
  let arr := fun (e : Hop) (p : Nat) => ceilNs (arrivalAt t last l e.pos p + 50 * rr.margin)
  let far := ceilNs (farArrival t last l + 50 * rr.margin)
  let loop := if l = [] then 0 else ceilNs (max (loopArrivalA t l) (loopArrivalB t last l) + 50 * rr.margin)
  let listed := l.filterMap (fun e => (rr.atPos e.pos).map (fun s => (s.num, e)))
  let open_ := listed.any (fun x => decide (arr x.2 0 > cap x.2) || decide (arr x.2 1 > cap x.2)) || decide (far > 18000)
  let dl := min 18000 (max far loop)
  { rxDl := dl, acyc := dl, path := ceilNs (farArrival 0 last l), laa := listed.map (fun x => (x.1, min (arr x.2 0) (cap x.2), min (arr x.2 1) (cap x.2)))
    schedOpen := open_, loopOpen := !open_ && decide (loop > 18000) }

/-! ## The state table (08 R403, R834) -/

/-- A census frame is launched from this end, and from the partner's end while the ring is LOOPED (08 R834). -/
def State.censusLaunch (s : State) (rr : RingRec) (o : CensusOrder) : State := s.acycSend rr (.census o)

/-- A census begins, or begins again, with a START frame (08 R403). -/
def State.censusBegin (s : State) (rr : RingRec) : State :=
  let r := rr.ring
  let s1 := s.ri r fun k => { k with
    census := .count, restarts := if k.again then k.restarts else 0, again := false, censusNow := false, awaitOwn := true,
    awaitPartner := decide (s.get (F.RNG_STATUS_STATE r) = 5), startIds := [], entries := [], sinceStart := s.now,
    ends := {}, everStarted := true, sent := [], direct := false, farPort := r, fcsTwinA := 0, fcsTwinB := 0 }
  (s1.put (F.RNG_STATUS_CENSUS_BUSY r) 1).censusLaunch rr { kind := 1 }

/-- Whether a census of a ring is due: first after image commit, 100 ms after the latest START, on CENSUS_NOW, or again in the window
that follows a restart (08 R403). -/
def State.censusDue (s : State) (r : Nat) : Bool :=
  let k := s.ring r
  if k.again then decide (k.restartN ≤ s.count)
  else decide (k.census = .idle) && (!k.everStarted || k.censusNow || decide (s.now ≥ k.sinceStart + 100000000))

/-- CENSUS_START (08 R397, R403): a census that is due begins in an acyclic window. -/
def execCensusStart (ring : Fin 16) (t : Nat) (s : State) : Res :=
  let s0 := s.at t
  .next (match s0.image.ring? ring.val with
    | some rr => if s0.isActive ∧ s0.img.isSome ∧ (s0.ring ring.val).ownUp ∧ s0.censusDue ring.val ∧ s0.acycFits rr then
        s0.censusBegin rr else s0
    | none => s0)

/-- Whether the acyclic window of the current cycle has opened (08 R397). -/
def State.acycFrom (s : State) (r : Nat) : Bool := decide (boundaryNs s.count + s.get (F.RNG_SCHED_ACYC_START r) ≤ s.now)

/-- A census starts over, and its own frames wait no longer: event 0x6041 with the number of the restart; the fourth in a row ends it (08 R403). -/
def State.censusRestart (s : State) (r : Nat) : State :=
  let k := s.ring r
  if k.census = .count ∨ k.census = .read then
    let n := k.restarts + 1
    let s1 := ((s.bump (F.RNG_CENSUS_ABANDONED r) 1).total (0x21E + 32 * r) 2 1).raise 0x6041 (islRing r) (le 4 n)
    let s2 := s1.ri r fun q => { q with awaitOwn := false, awaitPartner := false, sent := [],
                                         restartN := s.count + b2n (s.acycFrom r), acycWait := q.acycWait.filter (fun f => f.ftype = 4) }
    if n ≥ 4 then
      (s2.ri r fun q => { q with census := .idle, restarts := 0, again := false }).put (F.RNG_STATUS_CENSUS_BUSY r) 0
    else s2.ri r fun q => { q with census := .count, restarts := n, again := true }
  else s

/-- CENSUS_FRAME_TIMEOUT (08 R397, R403): a census frame is not back in the window in which it was launched. -/
def execCensusFrameTimeout (ring : Fin 16) (t : Nat) (s : State) : Res :=
  let s0 := s.at t
  .next (if (s0.ring ring.val).sent.any (fun n => decide (boundaryNs n + 30750 ≤ s0.now)) then s0.censusRestart ring.val else s0)

/-- The record of a station with the listed identity of its position (08 R405, R415). -/
def StnRec.matchesEntry (st : StnRec) (e : CensusEntry) : Bool :=
  decide (st.vendor = e.vendor) && decide (st.device = e.device) && (decide (st.serial = 0) || decide (st.serial = e.serial))

/-- The worst delay of the station of an entry: at any census since image commit, or since it last returned from ABSENT (08 R391,
R395). -/
def State.worstD (s : State) (rr : RingRec) (e : CensusEntry) : Nat :=
  match rr.atPos e.pos with
  | some st =>
    if st.matchesEntry e ∧ s.get (F.RNG_STN_STATE_STATE rr.ring st.num) ≠ 1 then
      max e.d (tget {} (s.ring rr.ring).stns st.num).worst
    else e.d
  | none => e.d

/-- The schedule that the entries of a census give (08 R391 to R395). -/
def State.censusSched (s : State) (rr : RingRec) : Sched :=
  let k := s.ring rr.ring
  let l := sortBy (fun (e : CensusEntry) => e.pos) k.entries
  let el := ells k.ends k.ends.outA k.ends.inA l
  rr.schedule (el.getLast?.getD 0) (l.zipIdx.map (fun x =>
    { pos := x.1.pos, d := s.worstD rr x.1, ell := (el[x.2]?).getD 0, prep := x.1.prep }))

/-- Whether every listed station is present on a closed path from one twin to the other (08 R402). -/
def RingRec.closedPath (rr : RingRec) (k : RingState) : Bool :=
  k.direct && rr.stns.zipIdx.all (fun x => k.entries.any (fun e => decide (e.pos = x.2 + 1) && x.1.matchesEntry e))

/-- All entries are read: the schedule is computed and a COMMIT frame names a boundary at least 8 C0 cycles ahead; the partner
takes the results (08 R392, R402, R403). A COMMIT that waits for the next window names it early enough for that too. -/
def State.censusCommit (s : State) (rr : RingRec) : State :=
  let r := rr.ring
  let k := s.ring r
  let sch := s.censusSched rr
  let b := boundaryAfter (s.now + 31250) 8
  let e := rr.closedPath k
  let s1 := s.ri r fun q => { q with
    census := .commit, nextSched := sch, commitAt := b, endLoop := e, restarts := 0, portFcs := 0
    fcsTwinA := if s.twinB then q.fcsTwinA else q.portFcs, fcsTwinB := if s.twinB then q.portFcs else q.fcsTwinB }
  ((s1.put (F.RNG_STATUS_CENSUS_BUSY r) 0).censusLaunch rr { kind := 3, sched := sch, at_ := b, endLoop := e }).send
    (.censusResult r k.entries sch b e k.farPort k.portFcs (if s.twinB then k.fcsTwinA else k.fcsTwinB))

/-- The START frames are back: READ frames go out, each for up to 48 positions, wherever COUNT found a station (08 R403). -/
def State.censusRead (s : State) (rr : RingRec) : State :=
  let l := dedupN ((s.ring rr.ring).startIds.map (fun x => (x.1 - 1) / 48))
  let s1 := s.ri rr.ring fun q => { q with census := .read }
  if l = [] then s1.censusCommit rr
  else s1.each (sortBy (fun i => i) l) (fun t i => t.censusLaunch rr { kind := 2, first := 48 * i + 1 })

/-- An entry with the position that its START gives it: counted from twin A's port, or back from twin B's (08 R834). -/
def RingRec.placed (rr : RingRec) (e : CensusEntry) : CensusEntry :=
  { e with pos := if e.fromB then rr.stns.length + 1 - e.hops else e.hops }

/-- What COUNT and READ must agree on: position and identity (08 R403). -/
def CensusEntry.who (e : CensusEntry) : Nat × Nat × Nat × Nat := (e.pos, e.vendor, e.device, e.serial)

/-- The earlier of two readings of a timestamp that are both there, else the one that is. -/
def firstOf (a b : Option Nat) : Option Nat := if a.isSome then a else b

/-- A START frame is back (08 R403, R834). -/
def State.startBack (s : State) (rr : RingRec) (partnerEnd : Bool) (entries : List CensusEntry) (direct : Bool)
    (farPort : Nat) (ends : CensusEnds) : State :=
  let s1 := s.ri rr.ring fun k => { k with
    awaitOwn := k.awaitOwn && partnerEnd, awaitPartner := k.awaitPartner && !partnerEnd
    direct := k.direct || direct, farPort := if direct then farPort else k.farPort,
    ends := { outA := firstOf k.ends.outA ends.outA, inA := firstOf k.ends.inA ends.inA,
              outB := firstOf k.ends.outB ends.outB, inB := firstOf k.ends.inB ends.inB },
    startIds := k.startIds ++ (entries.map CensusEntry.who).filter (fun x => !k.startIds.contains x) }
  if !(s1.ring rr.ring).awaitOwn ∧ !(s1.ring rr.ring).awaitPartner then s1.censusRead rr else s1

/-- A READ frame is back with entries that COUNT found (08 R403). -/
def State.readBack (s : State) (rr : RingRec) (entries : List CensusEntry) : State :=
  let k := s.ring rr.ring
  let s1 := s.ri rr.ring fun q => { q with
    entries := q.entries ++ entries.filter (fun (e : CensusEntry) => !q.entries.any (fun x => x.pos = e.pos)) }
  if (s1.ring rr.ring).entries.length ≥ k.startIds.length then s1.censusCommit rr else s1

/-- A census frame is back: a link change since START, or an entry that differs from COUNT, restarts the census (08 R403). -/
def State.censusBack (s : State) (rr : RingRec) (kind : Nat) (partnerEnd : Bool) (entries : List CensusEntry) (direct : Bool)
    (farPort : Nat) (ends : CensusEnds) (linkChange : Bool) : State :=
  let k := s.ring rr.ring
  let s1 := s.ri rr.ring fun q => { q with sent := if kind = 3 then q.sent else q.sent.tail }
  if kind = 1 ∧ k.census = .count ∧ !k.again then
    if linkChange then s1.censusRestart rr.ring else s1.startBack rr partnerEnd entries direct farPort ends
  else if kind = 2 ∧ k.census = .read then
    if linkChange || entries.any (fun (e : CensusEntry) => !k.startIds.contains e.who) then s1.censusRestart rr.ring
    else s1.readBack rr entries
  else s1

/-- CENSUS_FRAME_BACK (08 R368, R403, R834): a frame of FTYPE 3 is back, 1 START, 2 READ, 3 COMMIT, launched from this end or the
partner's; the entries that the SKIND 6 segments of a READ carry, those that the stations recorded at START; whether START came back directly through every station, the port number it
arrived at on the other twin, the timestamps at the ports of the twins, the FCS errors counted at the partner's port, and whether
a station reports a link change since START. MARK: DESIGN CHOICE: the spec does not lay out the payload of an entry, so the
entries come beside the frame (assumption 98). -/
def execCensusFrameBack (ring : Fin 16) (kind : Fin 4) (partnerEnd : Bool) (bytes : List Byte) (entries : List CensusEntry)
    (direct : Bool) (farPort : Fin 16) (ends : CensusEnds) (partnerFcs : Nat) (linkChange : Bool) (t : Nat) (s : State) : Res :=
  let s0 := s.at t
  .next (match s0.image.ring? ring.val with
    | none => s0
    | some rr =>
      if (kind.val = 2 ∧ (rr.filled 3 6 bytes).length ≠ entries.length) ∨ !fcsOk bytes ∨ !rr.takes bytes then s0
      else
        let s1 := s0.ri ring.val fun q => if s0.twinB then { q with fcsTwinA := partnerFcs } else { q with fcsTwinB := partnerFcs }
        s1.censusBack rr kind.val partnerEnd (entries.map rr.placed) direct farPort.val ends linkChange)

/-- CENSUS_LAUNCH_REQUEST (08 R834): a copy of the active's census frame goes out from this end in the same window; where it no
longer fits there, the active's census misses it (R403). -/
def execCensusLaunchRequest (ring : Fin 16) (o : CensusOrder) (s : State) : Res :=
  .next (match s.image.ring? ring.val with
    | some rr => if s.isActive ∨ s.count ≠ o.window ∨ !s.acycFits rr then s else s.acycOut rr (.census o)
    | none => s)

/-- CENSUS_RESULTS_FROM_ACTIVE (08 R403, R407, R838): the standby takes the active's results, with the FCS errors counted at
the active's port and at its own; they are in force from the same boundary. -/
def execCensusResultsFromActive (ring : Fin 16) (entries : List CensusEntry) (sched : Sched) (at_ : Nat) (endLoop : Bool)
    (farPort : Fin 16) (fcs other : Nat) (s : State) : Res :=
  .next (if s.isActive then s
    else
      s.ri ring.val fun k => { k with
        fcsTwinA := if s.twinB then fcs else other, fcsTwinB := if s.twinB then other else fcs, portFcs := k.portFcs - other
        census := .commit, entries := entries, nextSched := sched, commitAt := at_, endLoop := endLoop, farPort := farPort.val })

/-! ## The named boundary (08 R405 to R408) -/

/-- A section is judged by its FCS errors of a census: noisy, or quiet long enough (08 R407, R408). -/
def StnState.noise (k : StnState) (errs limit : Nat) : StnState :=
  let l := (errs :: k.fcs).take 10
  let q := if errs = 0 then k.quiet + 1 else 0
  if k.noisy then { k with fcs := l, quiet := q, noisy := decide (q < 600) }
  else { k with fcs := l, quiet := q, noisy := decide (sumOf (fun x => x) l > limit) }

/-- FCS errors counted at the two ends of the section after position `pos`; the ports of the twins stand at the ends of the ring
(08 R407). MARK: DEDUCED: the two modules tell each other the count of their port with the census (assumption 100). -/
def State.sectionErrs (s : State) (rr : RingRec) (pos : Nat) : Nat :=
  let k := s.ring rr.ring
  let a := if pos = 0 then k.fcsTwinA else sumOf (fun (e : CensusEntry) => e.fcsB) (k.entries.filter (fun e => e.pos = pos))
  let b := if pos = rr.stns.length then k.fcsTwinB
    else sumOf (fun (e : CensusEntry) => e.fcsA) (k.entries.filter (fun e => e.pos = pos + 1))
  a + b

/-- The event of a section that became noisy or quiet: 0x6050 with the A-side station, 0x6051. -/
def State.noiseEvent (s : State) (r st : Nat) (old new : Bool) : State :=
  if old = new then s else if new then s.raise 0x6050 (islRing r) (le 1 st) else s.raise 0x6051 (islRing r) []

/-- Noise of every section at a census commit (08 R407, R408). -/
def State.noiseJudge (s : State) (rr : RingRec) : State :=
  let r := rr.ring
  let f := (s.ring r).first.noise (s.sectionErrs rr 0) rr.noiseLimit
  let s1 := (s.ri r fun k => { k with first := f }).noiseEvent r 0 (s.ring r).first.noisy f.noisy
  let s2 := s1.each rr.stns.zipIdx (fun t x =>
    let o := tget {} (t.ring r).stns x.1.num
    let n := o.noise (t.sectionErrs rr (x.2 + 1)) rr.noiseLimit
    ((t.ri r fun k => { k with stns := tset {} k.stns x.1.num n }).putB (F.RNG_STN_STATE_NOISY r x.1.num) n.noisy).noiseEvent r
      x.1.num o.noisy n.noisy)
  s2.putB (F.RNG_STATUS_NOISY r) (f.noisy || rr.stns.any (fun st => (tget {} (s2.ring r).stns st.num).noisy))

/-- The counters of a census entry go into the station record (08 R406). -/
def State.stnCounts (s : State) (r st : Nat) (e : CensusEntry) : State :=
  (((s.bump (F.RNG_STN_COUNT_A_LOST r st) e.aLost).bump (F.RNG_STN_COUNT_B_LOST r st) e.bLost).bump
    (F.RNG_STN_COUNT_BOTH_LOST r st) e.bothLost).bump (F.RNG_STN_COUNT_SAFE_ENTRIES r st) e.safeEntries

/-- A station found at its position with its identity (08 R395, R401, R405, R406, R838). -/
def State.stnPresent (s : State) (rr : RingRec) (st : StnRec) (e : CensusEntry) : State :=
  let r := rr.ring
  let k := s.ring r
  let old := s.get (F.RNG_STN_STATE_STATE r st.num)
  let q := tget {} k.stns st.num
  let worst := if old = 1 then e.d else max q.worst e.d
  let safe := decide (e.mode = .safe)
  let loop := e.looping && !k.endLoop
  let slow := decide (worst > st.dmax)
  let laa := ((k.nextSched.laa.find? (fun x => x.1 = st.num)).map (fun x => x.2)).getD (0, 0)
  let s1 := s.ri r fun p => { p with stns := tset {} p.stns st.num { q with
    worst := worst, prep := e.prep, safe := safe, seen := true, looping := loop, links := e.linkChanges, laaA := laa.1, laaB := laa.2 } }
  let s2 := (s1.put (F.RNG_STN_STATE_STATE r st.num) (if loop then 4 else if safe then 3 else 2)).put
    (F.RNG_STN_STATE_DELAY r st.num) (min worst 4095)
  let s3 := if old = 1 ∧ k.committed then s2.raise 0x6043 (islRing r) [] else s2
  let s4 := if slow ∧ !s.on (F.RNG_STN_STATE_SLOW r st.num) then s3.raise 0x6045 (islRing r) (le 1 st.num ++ le 4 worst) else s3
  let s5 := if q.seen ∧ q.safe ≠ safe then s4.raise (if safe then 0x6013 else 0x6014) (islRing r) [] else s4
  let s6 := if e.looping ∧ !q.looping then s5.raise 0x6030 (islRing r) (le 1 r ++ le 1 st.num) else s5
  (s6.putB (F.RNG_STN_STATE_SLOW r st.num) slow).stnCounts r st.num e

/-- A station that is not found, or is another device: its state and the event of every COMMIT that finds it so (08 R405). -/
def State.stnLost (s : State) (r st new code : Nat) : State :=
  (s.put (F.RNG_STN_STATE_STATE r st) new).raise code (islRing r) []

/-- One listed station at a census commit; another device at its position reports loopback too (08 R401, R405). -/
def State.stnCommit (s : State) (rr : RingRec) (x : StnRec × Nat) : State :=
  match (s.ring rr.ring).entries.find? (fun e => e.pos = x.2 + 1) with
  | none => s.stnLost rr.ring x.1.num 1 0x6042
  | some e => if x.1.matchesEntry e then s.stnPresent rr x.1 e
    else
      let q := tget {} (s.ring rr.ring).stns x.1.num
      let s1 := s.ri rr.ring fun p => { p with
        stns := tset {} p.stns x.1.num { q with looping := e.looping && !p.endLoop } }
      let s2 := if e.looping ∧ !q.looping then s1.raise 0x6030 (islRing rr.ring) (le 1 rr.ring ++ le 1 x.1.num) else s1
      s2.stnLost rr.ring x.1.num 5 0x6044

/-- RNG_LOOP and the end of loopback (08 R401, R402). -/
def State.loopCommit (s : State) (rr : RingRec) : State :=
  let r := rr.ring
  let k := s.ring r
  let num := fun (e : CensusEntry) => ((rr.atPos e.pos).map (fun (x : StnRec) => x.num)).getD 0
  let a := if k.endLoop then 0 else ((k.entries.find? (fun e => e.looping && e.lostB)).map num).getD 0
  let b := if k.endLoop then 0 else ((k.entries.find? (fun e => e.looping && !e.lostB)).map num).getD 0
  let was := k.entries.any (fun e => e.looping) || k.looped || decide (s.get (F.RNG_LOOP_A_END r) ≠ 0) || decide (s.get (F.RNG_LOOP_B_END r) ≠ 0)
  let s1 := (s.put (F.RNG_LOOP_A_END r) a).put (F.RNG_LOOP_B_END r) b
  if k.endLoop && was then (s1.ri r fun q => { q with looped := false, loopNow := false }).raise 0x6031 (islRing r) [] else s1

/-- The schedule comes into force (08 R392 to R394). -/
def State.schedCommit (s : State) (rr : RingRec) : State :=
  let r := rr.ring
  let c := (s.ring r).nextSched
  let s1 := ((s.ri r fun k => { k with path := c.path }).put (F.RNG_SCHED_RX_DL r) c.rxDl).put (F.RNG_SCHED_ACYC_START r) c.acyc
  let s2 := if c.schedOpen ∧ !s.on (F.RNG_STATUS_SCHED_OPEN r) then s1.raise 0x6046 (islRing r) [] else s1
  let s3 := if c.loopOpen ∧ !s.on (F.RNG_STATUS_LOOP_OPEN r) then s2.raise 0x6047 (islRing r) [] else s2
  (s3.putB (F.RNG_STATUS_SCHED_OPEN r) c.schedOpen).putB (F.RNG_STATUS_LOOP_OPEN r) c.loopOpen

/-- FOREIGN, ABSENT, PRESENT and MISCABLED after a census (08 R43 of 01, R405). -/
def State.ringFlags (s : State) (rr : RingRec) : State :=
  let r := rr.ring
  let k := s.ring r
  let st := fun (x : StnRec) => s.get (F.RNG_STN_STATE_STATE r x.num)
  let unl := k.entries.filter (fun e => (rr.atPos e.pos).isNone)
  let mis := decide (k.farPort ≠ r)
  let s1 := s.each unl (fun t _ => t.raise 0x6044 (islRing r) [])
  let s2 := if mis then s1.raise 0x6001 (islRing r) (le 1 r ++ le 1 k.farPort) else s1
  (((s2.ri r fun q => { q with foreign := !unl.isEmpty, miscabled := mis, committed := true, census := .idle }).putB
    (F.RNG_STATUS_FOREIGN r) (!unl.isEmpty || rr.stns.any (fun x => st x = 5))).putB (F.RNG_STATUS_ABSENT r)
    (rr.stns.any (fun x => st x = 1))).put (F.RNG_STATUS_PRESENT r) (rr.stns.filter (fun x => s.stnIn r x.num)).length

/-- A census commit at its named boundary (08 R403, R405). -/
def State.censusApply (s : State) (rr : RingRec) (n : Nat) : State :=
  let k := s.ring rr.ring
  if k.census = .commit ∧ n ≥ k.commitAt then
    let s1 := (s.each rr.stns.zipIdx (fun t x => t.stnCommit rr x)).loopCommit rr
    let s2 := ((s1.schedCommit rr).noiseJudge rr).ringFlags rr
    ((s2.step1 (F.RNG_CENSUS_DONE rr.ring)).total (0x21C + 32 * rr.ring) 2 1).ringShow rr.ring
  else s

/-- The census commits whose boundary has come (08 R403). -/
def State.censusBoundary (s : State) (n : Nat) : State := s.each s.image.rings (fun t rr => t.censusApply rr n)

/-! ## Ring ports (08 R401, R403, 20 R818) -/

/-- A ring port gains or loses link (08 R401, R403). -/
def State.ringLink (s : State) (r : Nat) (up : Bool) : State :=
  if (s.ring r).ownUp = up ∨ (up ∧ !s.cageOn r) then s
  else
    let s1 := ((s.ri r fun k => { k with ownUp := up }).raise (if up then 0x6003 else 0x6002) (islRing r) []).send (.ringPort r up)
    (s1.censusRestart r).ringShow r

/-- RING_PORT_LINK_CHANGE (08 R401, R403). -/
def execRingPortLinkChange (ring : Fin 16) (up : Bool) (t : Nat) (s : State) : Res := .next ((s.at t).ringLink ring.val up)

/-- PARTNER_RING_PORT_DOWN (08 R401): the partner reports a ring port down, or up again. -/
def execPartnerRingPortDown (ring : Fin 16) (up : Bool) (s : State) : Res :=
  .next (((s.ri ring.val fun k => { k with partnerUp := up }).censusRestart ring.val).ringShow ring.val)

/-! ## Requests -/

/-- CENSUS_NOW in RNG_CTL: a census starts in the next acyclic window (08 R403). -/
def State.censusNow (s : State) (r : Nat) : State :=
  if s.isActive then s.ri r fun k => { k with censusNow := true } else s

/-- RNG_CENSUS_NOW (08 R403). -/
def execRngCensusNow (ring : Fin 16) (s : State) : Res := .next (s.censusNow ring.val)

/-- CENSUS_NOW of the management protocol (17 R734). -/
def execCensusNow (ses : Fin 16) (req : Nat) (ring : Fin 16) (s : State) : Res :=
  .next (s.request ses req 11 true true (fun t => (t.censusNow ring.val).ok []))

/-- The station records of a ring: number, RNG_STN_STATE, RNG_STN_COUNT, one word each (17 R734). -/
def State.stnRecords (s : State) (r : Nat) : List Byte :=
  match s.image.ring? r with
  | some rr => rr.stns.flatMap (fun st =>
      le 4 st.num ++ le 4 (s.rdN (R.RNG_STN_STATE r st.num)) ++ le 4 (s.rdN (R.RNG_STN_COUNT r st.num)))
  | none => []

/-- CENSUS_READ (17 R734). -/
def execCensusRead (ses : Fin 16) (req : Nat) (ring : Fin 16) (s : State) : Res :=
  .next (s.request ses req 11 false false (fun t => t.ok (t.stnRecords ring.val)))

end Sys2Proof.Machine
end

