-- ==== Sys2Proof/Machine/Lines.lean ====
section
/-! DEFINITION. Line links: publications, forwarding, subscriptions, decoupling, line ports; pluggables (11; 20 R818). -/
namespace Sys2Proof.Machine

/-! ## Frames (11 R517) -/

/-- Whether line links run: an image is committed and the module is not in reduced service (11 R516, 16 R708). -/
def State.lineOn (s : State) : Bool := s.img.isSome && !s.on F.MOD_STATUS_REDUCED

/-- A line frame between its MAC header and its FCS (11 R517). -/
def lineBytes (pair lflags cls pub epoch n : Nat) (vals : List PointVal) : List Byte :=
  let h := le 1 1 ++ le 1 1 ++ le 2 pair ++ le 1 lflags ++ le 1 cls ++ le 2 pub ++ le 4 epoch ++ le 8 n ++ le 2 vals.length
  let w := vals.flatMap (fun v => le 4 v.v.toNat) ++ vals.map (fun v => v.q)
  let p := w ++ List.replicate ((4 - w.length % 4) % 4) 0
  h ++ le 2 (crc16 h) ++ p ++ le 4 (crc32c p)

/-- The same frame sent into the other line: TWIN_B replaced, HDR_CRC recomputed (11 R515, R517). -/
def lineTwin (b : List Byte) (twinB : Bool) : List Byte :=
  let f := field b 4 1
  let h := splice (b.take 22) 4 (le 1 (f - (f / 2 % 2) * 2 + 2 * b2n twinB))
  h ++ le 2 (crc16 h) ++ b.drop 24

/-- Whether HDR_CRC and payload CRC of a line frame are good. -/
def lineCrcOk (b : List Byte) : Bool :=
  let n := field b 20 2
  let len := 5 * n + (4 - 5 * n % 4) % 4
  let p := (b.drop 24).take len
  decide (b.length ≥ 28 + len) && decide (field b 22 2 = crc16 (b.take 22)) && decide (field b (24 + len) 4 = crc32c p)

/-- The values that a line frame carries. -/
def lineVals (b : List Byte) : List PointVal :=
  let n := field b 20 2
  (List.range n).map (fun i => { v := BitVec.ofNat 32 (field b (24 + 4 * i) 4), q := qByte (field b (24 + 4 * n + i) 1) })

/-- A whole line frame: group address 01-1B-19-00-00-00, EtherType of LINKS, the line header and what follows it, FCS (11 R517). -/
def LinksSec.frame (l : LinksSec) (port : Nat) (b : List Byte) : List Byte :=
  withFcs ([0x01, 0x1B, 0x19, 0, 0, 0] ++ pad 6 (Config.macSource (16 + port)) ++ le 1 (l.ethertype / 256) ++ le 1 l.ethertype ++
      b ++
    List.replicate (46 - b.length) 0)

/-- Whether a frame is a line frame: its group address, the EtherType of LINKS, LVER and LTYPE 1. PAUSE and priority flow control
frames are none (11 R511, R517). -/
def LinksSec.takes (l : LinksSec) (b : List Byte) : Bool :=
  decide (b.take 6 = [0x01, 0x1B, 0x19, 0, 0, 0]) && decide (256 * field b 12 1 + field b 13 1 = l.ethertype) &&
    decide (field b 14 1 = 1) && decide (field b 15 1 = 1)

/-- The listed line ports that have link. -/
def State.linePorts (s : State) (ports : Nat) : List Nat :=
  (List.range 4).filter (fun p => bitOf ports p && bitOf (s.get F.LNK_STATUS_LINK_UP) p)

/-- A frame of this pair goes out of the listed line ports that have link. -/
def State.lineOut (s : State) (ports : Nat) (b : List Byte) : State :=
  s.each (s.linePorts ports) (fun t p => t.send (.lineFrame p (s.image.links.frame p b)))

/-! ## Publications (11 R514, R515) -/

/-- One publication of boundary `n`. -/
def State.publish (s : State) (p : PubRec) (n : Nat) : State :=
  let b := lineBytes s.image.links.pairId (1 + 2 * b2n s.twinB) p.cls p.pubId s.epoch n (p.points.map s.nextVal)
  (s.lineOut p.outPorts b).send (.publicationCopy p.pubId n b)

/-- The publications of boundary `n`, by the module that holds ACTIVE (11 R515, R516). -/
def State.publishAll (s : State) (n : Nat) : State :=
  if s.isActive ∧ s.lineOn then
    s.each (s.image.links.pubs.filter (fun p => isBoundary p.cls n)) (fun t p => t.publish p n)
  else s

/-- PUBLICATION_FROM_ACTIVE (11 R515, R523): the partner sends its active's publication out of the same ports. -/
def execPublicationFromActive (pub : Nat) (bytes : List Byte) (s : State) : Res :=
  .next (match s.image.links.pubs.find? (fun p => p.pubId = pub) with
    | some p => if s.lineOn ∧ !s.isActive then s.lineOut p.outPorts (lineTwin bytes s.twinB) else s
    | none => s)

/-! ## Reception (11 R518, R520, R522) -/

/-- The boundary of the image that a publication of boundary `n` enters (11 R520). -/
def entersImage (k n : Nat) : Nat := if k = 0 then n else n + 2 ^ k

/-- A valid frame is forwarded unchanged by the entry it matches, the first copy of each line only (11 R522). -/
def State.lineForward (s : State) (port : Nat) (frame : List Byte) : State :=
  let b := frameBody frame
  let src := field b 2 2
  let pub := field b 6 2
  let key := (src, pub, field b 12 8, b2n (bitOf (field b 4 1) 1))
  match s.image.links.fwds.find? (fun f => decide (f.srcPair = src) && decide (f.pubId = pub) && decide (f.inPort = port)) with
  | none => s
  | some f =>
    if s.lines.seen.contains key then s
    else ({ s with lines := { s.lines with seen := key :: s.lines.seen } }).each (s.linePorts f.outPorts)
      (fun t p => t.send (.lineFrame p frame))

/-- A frame as a copy of one subscription: late copies are counted and lost (11 R520). -/
def State.subTake (s : State) (port : Nat) (b : List Byte) (e : SubRec × Nat) : State :=
  let n := field b 12 8
  let off := s.now - boundaryNs n
  if off > couplingNs e.1.cls then
    (s.bump (F.LNK_RX_LATE port) 1).raise 0x9020 (islLine port) (le 1 e.2 ++ le 4 off)
  else if field b 20 2 ≠ e.1.points.length ∨ field b 5 1 ≠ e.1.cls ∨ !isBoundary e.1.cls n ∨ n > s.count then s
  else
    let c : SubCopy := { n := n, vals := lineVals b }
    (s.setSub e.2 { s.sub e.2 with own := some c }).send (.subCopy e.2 n c.vals)

/-- LINE_FRAME_RX (11 R511, R517, R518, R520, R522, 09 R455): a frame arrives at a line port: its bytes from the MAC header to the
FCS. A frame of the own pair, which the partner may only pass on, is no claim (09 R458, 11 R515). One with a bad FCS or CRC is counted; one that is no line frame is discarded. -/
def execLineFrameRx (port : Fin 4) (bytes : List Byte) (t : Nat) (s : State) : Res :=
  let s0 := s.at t
  let b := frameBody bytes
  .next (if !s0.lineOn then s0
    else if !fcsOk bytes then s0.bump (F.LNK_RX_BAD port.val) 1
    else if !s0.image.links.takes bytes then s0
    else if !lineCrcOk b then s0.bump (F.LNK_RX_BAD port.val) 1
    else
      let src := field b 2 2
      let s1 := if src = s0.image.links.pairId then s0.seeEpoch 4 (field b 8 4) false else s0
      let s2 := s1.lineForward port.val bytes
      s2.each (s2.image.links.subs.zipIdx.filter (fun e => decide (e.1.srcPair = src) && decide (e.1.pubId = field b 6 2)))
        (fun u e => u.subTake port.val b e))

/-! ## Subscriptions (11 R521, R525, R526) -/

/-- The published quality with FORCED cleared and SOURCE set (11 R521). -/
def subQ (q : Byte) (source : Nat) (diff : Bool) : Byte := (q &&& 0x3B) ||| qByte (qSource source + (if diff then qDiff else 0))

/-- The resolution of the two copies (11 R521, 08 R386, R387): the copy of twin A stands in the place of the eastbound copy, and where
twin B has not got it in full it uses its own. The close record lists what was resolved with the partner silent, or with a digest
in place of a copy that was needed. -/
def resolveCopies (twinB : Bool) (own : Option (List PointVal)) (p : PartnerCopy) : SubResolution :=
  let o := 1 + b2n twinB
  match own, p with
  | some x, .full y => { vals := some (if twinB then y else x), source := 1, diff := decide (x ≠ y), copies := 3 }
  | some x, .digest => { vals := some x, source := o, diff := true, copies := 3, listed := twinB }
  | some x, .invalid => { vals := some x, source := o, copies := o }
  | some x, .silent => { vals := some x, source := o, copies := o, listed := true }
  | none, .full y => { vals := some y, source := 3 - o, copies := 3 - o }
  | none, .invalid => {}
  | none, .digest => { listed := true }
  | none, .silent => { listed := true }

/-- The next value of a coasting point: its value advanced by the last increment (11 R525). -/
def coast (typ : Nat) (last before cur : Word) : Word :=
  if typ = 4 then
    let d := (f32.addV .rne (f32.unpack last.toNat) (f32.unpack before.toNat).flip).bits
    BitVec.ofNat 32 (f32.addV .rne (f32.unpack cur.toNat) (f32.unpack d)).bits
  else cur + BitVec.ofInt 32 (wrapdiff last.toNat before.toNat)

/-- What a subscribed point does in a period without a valid copy (11 R525): none where it turns STALE. An increment that no two valid
values give is a free value; a subscription that has had no valid copy has no value to advance (04 R144). -/
def State.coastPoint (s : State) (e : SubRec) (k : SubState) (i p : Nat) : Option (Word × Byte) :=
  let typ := (s.pinfo p).typ
  if e.policy = 1 ∧ (typ = 2 ∨ typ = 3 ∨ typ = 4) then
    let cur := (k.cur[i]?).getD (s.ownerVal p).v
    let q := ((s.ownerVal p).q &&& 0xF0) ||| 0x09
    match k.last[i]?, k.before[i]? with
    | some l, some b => some (coast typ l b cur, q)
    | some _, none => some (s.free.setWidth 32, q)
    | none, _ => none
  else none

/-- STATE, COPIES and the summary flags of a subscription (11 Registers). -/
def State.subShow (s : State) (i st copies : Nat) : State :=
  let s1 := (s.put (F.LNK_SUB_STATE i) st).put (F.LNK_SUB_COPIES i) copies
  let l := List.range s1.image.links.subs.length
  (s1.putB F.LNK_STATUS_DECOUPLED (l.any (fun j => s1.get (F.LNK_SUB_STATE j) = 2))).putB F.LNK_STATUS_SINGLE
    (l.any (fun j => s1.get (F.LNK_SUB_COPIES j) = 1 ∨ s1.get (F.LNK_SUB_COPIES j) = 2))

/-- A period with a valid copy: the points take the published values at once (11 R521, R526). -/
def State.subCoupled (s : State) (e : SubRec) (i n : Nat) (v : List PointVal) (source : Nat) (diff : Bool) (copies : Nat) : State :=
  let k := s.sub i
  let ws := v.map (fun x => x.v)
  let out := e.points.zip (v.map (fun x => some (x.v, subQ x.q source diff)))
  let s1 := s.setSub i { k with own := none, judged := some n, before := k.last, last := ws, cur := ws, missed := 0,
                                was := (k.last, k.before, k.cur, k.missed),
                                pend := k.pend ++ [(entersImage e.cls n, out)] }
  let s2 := if s1.get (F.LNK_SUB_STATE i) = 2 then s1.raise 0x9011 (islLine 0) [] else s1
  s2.subShow i 1 copies

/-- A period without a valid copy (11 R525, R526). -/
def State.subMissed (s : State) (e : SubRec) (i n : Nat) : State :=
  let k := s.sub i
  let out := e.points.zipIdx.map (fun p => (p.1, s.coastPoint e k p.2 p.1))
  let cur := e.points.zipIdx.map (fun p => ((s.coastPoint e k p.2 p.1).map (fun x => x.1)).getD
    ((k.cur[p.2]?).getD (s.ownerVal p.1).v))
  let s1 := if k.before = [] then s.take else s
  let s2 := s1.setSub i { k with own := none, judged := some n, cur := cur, missed := k.missed + 1,
                                 was := (k.last, k.before, k.cur, k.missed), pend := k.pend ++ [(entersImage e.cls n, out)] }
  (s2.bump (F.LNK_SUB_MISSED i) 1).subShow i (max 1 (s.get (F.LNK_SUB_STATE i))) 0

/-- A publication of boundary `n` enters by its resolution (11 R521, R525). -/
def State.subJudge (s : State) (e : SubRec) (i n : Nat) (r : SubResolution) : State :=
  let s1 := match r.vals with
    | some v => s.subCoupled e i n v r.source r.diff r.copies
    | none => s.subMissed e i n
  s1.setSub i { s1.sub i with listed := if r.listed then some n else none }

/-- COUPLING_DEADLINE (11 R520, R521, R525, R526): the deadline of a subscription for boundary `n`, judged once, with what the twin
link brought of the partner's copy; without agreement the module resolves from its own copy alone (08 R388). -/
def execCouplingDeadline (sub : Fin 256) (n : Nat) (partner : PartnerCopy) (t : Nat) (s : State) : Res :=
  let s0 := s.at t
  .next (match s0.image.links.subs[sub.val]? with
    | none => s0
    | some e =>
      if !s0.lineOn ∨ !isBoundary e.cls n ∨ s0.now < boundaryNs n + couplingNs e.cls ∨ (s0.sub sub.val).judged.any (fun m => n ≤ m)
      then s0 else
      let own := ((s0.sub sub.val).own.filter (fun c => c.n = n)).map (fun c => c.vals)
      s0.subJudge e sub.val n (resolveCopies s0.twinB own (if s0.agrees then partner else .invalid)))

/-- The subscriptions that the close record of image `n` lists, with the boundary that each resolved through 08 R387 (08 R389). -/
def State.listedSubs (s : State) (n : Nat) : List (Nat × Nat) :=
  (List.range s.image.links.subs.length).filterMap (fun i =>
    match (s.sub i).listed, s.image.links.subs[i]? with
    | some m, some e => if entersImage e.cls m = n then some (i, m) else none
    | _, _ => none)

/-- The standby takes a listed subscription exactly as the active resolved it, in place of what it had judged itself (08 R389). -/
def State.takeRuling (s : State) (x : Nat × Nat × SubResolution) : State :=
  match s.image.links.subs[x.1]? with
  | none => s
  | some e =>
    let k := s.sub x.1
    let k1 := if k.judged = some x.2.1 then
        { k with last := k.was.1, before := k.was.2.1, cur := k.was.2.2.1, missed := k.was.2.2.2,
                 pend := k.pend.filter (fun y => y.1 ≠ entersImage e.cls x.2.1) }
      else k
    if k.judged.any (fun m => x.2.1 < m) then s else (s.setSub x.1 k1).subJudge e x.1 x.2.1 { x.2.2 with listed := false }

/-- LINK_DECOUPLE (11 R526). -/
def execLinkDecouple (sub : Fin 256) (s : State) : Res :=
  .next (match s.image.links.subs[sub.val]? with
    | none => s
    | some e =>
      if (s.sub sub.val).missed ≥ s.image.links.decoupleN ∧ s.get (F.LNK_SUB_STATE sub.val) = 1 then
        (s.subShow sub.val 2 (s.get (F.LNK_SUB_COPIES sub.val))).raise 0x9010 (islLine 0) (le 1 sub.val ++ le 4 e.policy)
      else s)

/-- The subscribed points of image `n` enter it, those that the active's close record lists as it resolved them (08 R389), and with them those of an earlier image that were judged after its close (04 R163; 11
R520, R525). -/
def State.linesClose (s0 : State) (n : Nat) : State :=
  let s1 := s0.each s0.lines.ruled State.takeRuling
  let s : State := { s1 with lines := { s1.lines with ruled := [] } }
  s.each (List.range s.image.links.subs.length) (fun t i =>
    let k := t.sub i
    let u := t.each (k.pend.filter (fun x => x.1 ≤ n)) (fun v x => v.each x.2 (fun w p => match p.2 with
      | some y => w.deliver p.1 y.1 y.2
      | none => w.deliverStale p.1))
    if k.pend = [] then u else u.setSub i { k with pend := k.pend.filter (fun x => n < x.1) })

/-! ## Ports -/

/-- A line port gains or loses link (11 LNK_STATUS, R527). -/
def State.lineLink (s : State) (p : Nat) (up : Bool) : State :=
  if bitOf (s.get F.LNK_STATUS_LINK_UP) p = up ∨ (up ∧ !s.cageOn (16 + p)) then s
  else if up then (s.setBit R.LNK_STATUS p true).raise 0x9002 (islLine p) []
  else (s.setBit R.LNK_STATUS p false).raise 0x9001 (islLine p) (le 1 p)

/-- LINE_PORT_LINK_CHANGE (11 R527). -/
def execLinePortLinkChange (port : Fin 4) (up : Bool) (t : Nat) (s : State) : Res := .next ((s.at t).lineLink port.val up)

/-- Loss of link of the port of a cage. -/
def State.cageDown (s : State) (c : Nat) : State :=
  if c < 16 then s.ringLink c false else if c < 20 then s.lineLink (c - 16) false else s

/-- The physical layers that a port takes: those of the table of 20 R817, on a ring the one that the image gives it (08 R356,
02 R830). -/
def State.cageTypes (s : State) (c : Nat) : List Nat :=
  if c < 16 then
    match s.image.ring? c with
    | some rr => if s.image.factory then [1, 2, 3] else [rr.rate]
    | none => [1, 2, 3]
  else if c < 20 then [4, 5] else [1, 2]

/-- The largest declared power of a pluggable of a cage, in 0.1 W (20 R817). -/
def cagePower (c : Nat) : Nat := if 16 ≤ c ∧ c < 20 then 35 else 15

/-- The pluggable of a cage is held against its port: one of another type, or of too much power, is not enabled and its port stays
down (20 R818). -/
def State.cageJudge (s : State) (c : Nat) : State :=
  let p := s.cage c
  let bad := decide (p.1 ≠ 0) && (!(s.cageTypes c).contains p.1 || decide (p.2 > cagePower c))
  let s1 := s.pw fun q => { q with cagesOff := (if bad then [c] else []) ++ q.cagesOff.filter (fun x => x ≠ c) }
  if !bad then s1
  else if !(s.cageTypes c).contains p.1 then (s1.cageDown c).raise 0xD040 islMgmt (le 1 c ++ le 4 p.1)
  else (s1.cageDown c).raise 0xD041 islMgmt []

/-- Under the factory safe image a ring has the physical layer of the pluggable in its cage: RATE and FEC, zero where it is empty or
holds another type (02 R830). -/
def RingRec.layered (rr : RingRec) (kind : Nat) : RingRec :=
  if kind = 1 ∨ kind = 2 then { rr with rate := kind, fec := 2 }
  else if kind = 3 then { rr with rate := 3, fec := 0 }
  else { rr with rate := 0, fec := 0 }

/-- The factory safe image with the physical layers that the cages give its rings; any other image as it is (02 R830). -/
def State.layeredImg (s : State) (i : Img) : Img :=
  if i.factory then { i with rings := i.rings.map (fun rr => rr.layered (s.cage rr.ring).1) } else i

/-- RNG_CFG of a ring under the factory safe image follows its cage (02 R830). -/
def State.cageLayer (s : State) (c : Nat) : State :=
  if s.image.factory ∧ c < 16 then
    let s1 := { s with img := s.img.map s.layeredImg }
    match s1.image.ring? c with
    | some rr => (s1.put (F.RNG_CFG_RATE c) rr.rate).put (F.RNG_CFG_FEC c) rr.fec
    | none => s1
  else s

/-- PLUGGABLE_INSERT (20 R818, 02 R830): cages 0 to 15 ring ports, 16 to 19 line ports, 20 and 21 plant ports; its identification
gives type and declared power. -/
def execPluggableInsert (cage : Fin 22) (kind : Nat) (power : Nat) (t : Nat) (s : State) : Res :=
  let s0 := (s.at t).pw fun p => { p with cages := tset (0, 0) p.cages cage.val (kind, power) }
  .next ((s0.cageLayer cage.val).cageJudge cage.val)

/-- PLUGGABLE_REMOVE (20 R818): it acts on the port as a loss of link. -/
def execPluggableRemove (cage : Fin 22) (t : Nat) (s : State) : Res :=
  let s0 := (s.at t).pw fun p => { p with
    cages := tset (0, 0) p.cages cage.val (0, 0), cagesOff := p.cagesOff.filter (fun c => c ≠ cage.val) }
  .next ((s0.cageDown cage.val).cageLayer cage.val)

/-- Every pluggable is held against the image that commits (20 R818). -/
def State.cagesCommit (s : State) : State := s.each (List.range 22) State.cageJudge

end Sys2Proof.Machine
end

