-- ==== Sys2Proof/Machine/Sram.lean ====
section
/-! DEFINITION. The on-die SRAM as cores see it: where the signal image, loop state, trace and force table stand, what a load finds
there, what a store changes, which words a poisoned word spoils (03 R122, R124; 04 R164; 06 R244; 07 R345). -/
namespace Sys2Proof.Machine

/-! ## Places (03 R122) -/

/-- The byte of an interleaved region that stands at an address of its banks. -/
def interleavedAt (first count a : Nat) : Nat :=
  let w := a - bankBase first
  64 * (w % 0x100000 / 64 * count + w / 0x100000) + w % 64

/-- What stands at a byte of the SRAM below the partition fast data: a byte of a point's value or its quality in buffer 0 or 1, of a
previous value, of a word of a slot, of a trace record, of a force entry; ring frame staging, change-set staging, digests and twin
exchange buffers hold plain bytes. -/
inductive SramCell where
  | value (buf : Bool) (p i : Nat)
  | qual (buf : Bool) (p : Nat)
  | prev (p i : Nat)
  | slot (off i : Nat)
  | trace (c ch pos i : Nat)
  | force (e w i : Nat)
  | other
  deriving DecidableEq, Repr, Inhabited

/-- The cell at an address (03 R122, 04 R164). -/
def sramCell (a : Nat) : SramCell :=
  if a < bankBase 4 then let o := interleavedAt 0 4 a; .value false (o / 4) (o % 4)
  else if a < bankBase 5 then .qual false (a - bankBase 4)
  else if a < bankBase 9 then let o := interleavedAt 5 4 a; .prev (o / 4) (o % 4)
  else if a < bankBase 14 then
    let o := interleavedAt 9 5 a
    if o < 0x400000 then .value true (o / 4) (o % 4) else .qual true (o - 0x400000)
  else if a < bankBase 30 then let o := a - bankBase 14; .slot (0x20000000 + o / 4 * 4) (o % 4)
  else if a < bankBase 38 then
    let o := a - bankBase 30
    .trace (o / 0x40000) (o % 0x40000 / 0x8000) (o % 0x8000 / 8) (o % 8)
  else if bankBase 46 ≤ a ∧ a < bankBase 46 + 65536 then
    let o := a - bankBase 46
    .force (o / 16) (o % 16 / 4) (o % 4)
  else .other

/-! ## What a load finds -/

/-- Byte `i` of a number. -/
def byteAt (v i : Nat) : Byte := BitVec.ofNat 8 (v / 256 ^ i)

/-- A point in one of the two buffers: the one that holds the closed image, or the one in which the next image forms (04 R164). -/
def State.bufVal (s : State) (buf : Bool) (p : Nat) : PointVal := if buf = s.sig.buf then s.closedVal p else s.formingVal p

/-- The record at a place of a trace ring: the latest whose number since arming is that place modulo 4,096 (07 R345).
MARK: DESIGN CHOICE: a ring is written from its start when the trace is armed (assumption 93). -/
def Trace.recordAt (k : Trace) (ch pos : Nat) : Option (Nat × Nat) :=
  let l := (k.rings[ch]?).getD []
  let back := (nth k.since ch + 4095 - pos) % 4096 + 1
  if back ≤ l.length then l[l.length - back]? else none

/-- A byte at address `a` of the SRAM below the partition fast data. Where no engine holds anything there, the byte that was stored last:
staging and exchange buffers, a place of a trace ring without a record, an entry without a force. -/
def State.cellByte (s : State) (a : Nat) : Byte :=
  match sramCell a with
  | .value b p i => byteAt (s.bufVal b p).v.toNat i
  | .qual b p => (s.bufVal b p).q
  | .prev p i => byteAt (s.prevVal p).toNat i
  | .slot o i => byteAt (s.rdN o) i
  | .trace c ch pos i => match (s.trace c).recordAt ch pos with
    | some r => byteAt (r.1 % 2 ^ 32 + 2 ^ 32 * r.2) i
    | none => s.memB a
  | .force e w i => if s.sig.forces.any (fun f => f.entry = e) then byteAt (((s.forceWords e)[w]?).getD 0) i else s.memB a
  | .other => s.memB a

/-- A load of SRAM below the partition fast data. MARK: DESIGN CHOICE: the staging and exchange buffers hold what was stored there last;
of what the engines keep in them only copy bursts have a place (assumption 30). -/
def State.sramLoad (s : State) (a size : Nat) : State × Nat :=
  (s, leNat ((List.range size).map (fun i => s.cellByte (a + i))))

/-! ## What a store changes -/

/-- A number with byte `i` replaced. -/
def withByte (v i : Nat) (b : Byte) : Nat := v - v / 256 ^ i % 256 * 256 ^ i + b.toNat * 256 ^ i

/-- A point of a buffer changed. -/
def State.setBufVal (s : State) (buf : Bool) (p : Nat) (v : PointVal) : State :=
  s.sg fun g =>
    if buf = s.sig.buf then { g with closed := tset none g.closed p (some v) }
    else if (tget none g.writes p).isSome then { g with writes := tset none g.writes p (some v) }
    else { g with old := tset none g.old p (some v) }

/-- A trace with byte `i` of the record at a place replaced (07 R345). -/
def Trace.setRecord (k : Trace) (ch pos i : Nat) (b : Byte) : Trace :=
  let l := (k.rings[ch]?).getD []
  let at_ := l.length - ((nth k.since ch + 4095 - pos) % 4096 + 1)
  { k with rings := setAt k.rings ch (fun l => setAt l at_ (fun r =>
      let v := withByte (r.1 % 2 ^ 32 + 2 ^ 32 * r.2) i b
      (v % 2 ^ 32, v / 2 ^ 32))) }

/-- A force with byte `i` of word `w` of its entry replaced: point and marks, value, the owner's value, its quality (04 R191). -/
def Force.setByte (f : Force) (w i : Nat) (b : Byte) : Force :=
  match w with
  | 0 =>
    let v := withByte (f.point % 2 ^ 20 + 2 ^ 30 * b2n f.persist + 2 ^ 31) i b
    { f with point := v % 2 ^ 20, persist := bitOf v 30 }
  | 1 => { f with value := BitVec.ofNat 32 (withByte f.value.toNat i b) }
  | 2 => { f with owner := { f.owner with v := BitVec.ofNat 32 (withByte f.owner.v.toNat i b) } }
  | _ => if i = 0 then { f with owner := { f.owner with q := b } } else f

/-- A store of one byte at address `a` of the SRAM below the partition fast data: what stands there changes. -/
def State.cellStore (s : State) (a : Nat) (b : Byte) : State :=
  match sramCell a with
  | .value buf p i =>
    let o := s.bufVal buf p
    s.setBufVal buf p { o with v := BitVec.ofNat 32 (withByte o.v.toNat i b) }
  | .qual buf p => s.setBufVal buf p { s.bufVal buf p with q := b }
  | .prev p i => s.sg fun g => { g with prev := tset none g.prev p (some (BitVec.ofNat 32 (withByte (s.prevVal p).toNat i b))) }
  | .slot o i => s.wrN o (withByte (s.rdN o) i b)
  | .trace c ch pos i =>
    if ((s.trace c).recordAt ch pos).isSome then s.setTrace c ((s.trace c).setRecord ch pos i b) else s.memW a [b]
  | .force e w i =>
    if s.sig.forces.any (fun f => f.entry = e) then
      s.sg fun g => { g with forces := g.forces.map (fun f => if f.entry = e then f.setByte w i b else f) }
    else s.memW a [b]
  | .other => s.memW a [b]

/-- SRAM below the partition fast data. -/
def imageSram (a : Nat) : Bool := decide (0x8000000000 ≤ a) && decide (a < 0x8003400000)

/-- Bytes that a core stores into memory. -/
def State.coreW (s : State) (a : Nat) (l : List Byte) : State :=
  if imageSram a then (s.each l.zipIdx (fun t e => t.cellStore (a + e.2) e.1)).unpoison a l.length else s.sysW a l

/-! ## HBM windows (03 R131, R133) -/

/-- A write of a trace or a capture that a channel in STRESS drops: its source counts the loss (07 R350, 08 R414). -/
def State.stressDrop (s : State) (q : HbmReq) : State :=
  if q.cls = 2 ∧ 32 ≤ q.src.val ∧ q.src.val < 64 then
    let c := q.src.val - 32
    if s.trc c = 4 then s.setTrace c { s.trace c with lost := (s.trace c).lost + 1 }
    else (s.bump (F.TRC_LOSS_LOST c) 1).put (F.TRC_DONE_LOSSY c) 1
  else if q.cls = 3 ∧ 178 ≤ q.src.val ∧ q.src.val < 194 then
    (s.bump (F.RNG_SCAP_LOSS_LOST (q.src.val - 178)) 1).raise 0x6061 q.src.val []
  else s

/-- HBM_STRESS_WINDOW (03 R131, R133, 07 R350, 08 R414): a 1 µs window of a channel ends, with the requests that arrived in it in port
order. The bulk queue of 64 entries is full when 64 bulk requests wait. -/
def execHbmStressWindow (chan : Fin 32) (arrived : List HbmReq) (s : State) : Res :=
  let h := s.hbmChan chan.val
  let s1 := if h.stress then s.each arrived State.stressDrop else s
  let q := h.serve s.image.routes.floorPct (arrived.map HbmReq.cls)
  .next (s1.stressWindow chan.val { h with queue := q, full := if 64 ≤ bulkOf q then min 4 (h.full + 1) else 0 })

/-! ## Poison (03 R124, 07 R333) -/

/-- The SRAM address behind a window of management space (13 R593). -/
def State.windowAt (s : State) (off : Nat) : Option Nat :=
  if 0x10000000 ≤ off ∧ off < 0x10400000 then some (s.valueAt ((off - 0x10000000) / 4))
  else if 0x10400000 ≤ off ∧ off < 0x10500000 then some (s.qualAt (off - 0x10400000))
  else if 0x10800000 ≤ off ∧ off < 0x10C00000 then some (interleaved 5 4 (off - 0x10800000))
  else if 0x10C00000 ≤ off ∧ off < 0x10C10000 then some (bankBase 46 + (off - 0x10C00000))
  else if 0x20000000 ≤ off ∧ off < 0x21000000 then some (bankBase 14 + (off - 0x20000000))
  else none

/-- Whether a load from a window meets a poisoned word. -/
def State.windowPoisoned (s : State) (off size : Nat) : Bool :=
  match s.windowAt off with
  | some a => s.poisoned a size
  | none => false

/-- Whether a sample meets a poisoned word: in its slots, or met by its input copy (07 R333). -/
def State.samplePoisoned (s : State) (slot : Nat) : Bool :=
  let span := ((s.image.loops.find? (fun r => decide (r.slot = slot))).map (fun r => r.span)).getD 1
  s.poisoned (bankBase 14 + 1024 * slot) (1024 * span) || (s.slot slot).poison

/-- How the fetch of the four points of a CAM sample is answered, where it fails: 2 NO_ISLAND, 3 POISON (06 R294). -/
def State.camFetch (s : State) (slot : Nat) : Option Nat :=
  let rd := s.slotRd slot
  let d := s.slot slot
  if lawOf rd = 3 then
    let i := camIndex rd (d.first || d.restart) (d.port 0).v
    let at_ := [-1, 0, 1, 2].map (fun (k : Int) => camBase slot + 4 * ((i + k) % (rd 0x084 : Nat)).toNat)
    if at_.any s.hbmOff then some 2 else if at_.any (fun a => s.poisoned a 4) then some 3 else none
  else none

/-- A word that an engine reads from memory: a poisoned one is answered with POISON, and what the engine takes in its place the
spec does not say: a free value (03 R124, assumption 94). -/
def State.engineWord (s : State) (a : Nat) : State × Nat :=
  if s.poisoned a 4 then (s.take, s.free.toNat % 2 ^ 32) else (s, s.memN a 4)

/-! ## Stores leave a core pair (12 R577 to R579; 05 R221) -/

/-- The 64-byte line of an address. -/
def lineOf (a : Nat) : Nat := a / 64 * 64

/-- What a store leaves behind for the activation: the old contents of a static line on its first store (05 R221), the stack
line (12 R572). -/
def State.storeTrack (s : State) (c a : Nat) : State :=
  let k := s.core c
  match k.cur with
  | none => s
  | some p =>
    let r := s.prec p
    let ln := lineOf a
    if r.staticBase ≤ a ∧ a < r.staticBase + r.staticSize ∧ k.level = 0 then
      if (s.part p).undo.contains ln then s
      else (s.sysW (r.undoAt ln) (s.memL ln 64)).pa p fun q => { q with undo := q.undo ++ [ln] }
    else if r.stackBase ≤ a ∧ a < r.stackBase + r.stackSize then
      if (s.part p).stackLines.contains ln then s else s.pa p fun q => { q with stackLines := q.stackLines ++ [ln] }
    else s

/-- One store leaves the island; a channel that is off answers it with an error, which is charged at trap entry (03 R108,
12 R559). -/
def State.storeOut (s : State) (c : Nat) (e : BufStore) : State :=
  if s.hbmOff e.addr then
    (s.noIsland c (islHbm (s.hbmKey.channel e.addr))).co c fun k => { k with storeErr := k.storeErr.or (some e.addr) }
  else (s.storeTrack c e.addr).coreW e.addr (le e.size e.val)

/-- The signature window closes with equal signatures: its stores leave the island in order (12 R579). -/
def State.flush (s : State) (c : Nat) : State :=
  (s.each (s.core c).buf (fun t e => t.storeOut c e)).co c fun k =>
      { k with buf := [], sig := 2 ^ 64 - 1, windows := k.windows + 1 }

end Sys2Proof.Machine
end

