-- ==== Sys2Proof/Machine/Cyclic.lean ====
section
/-! DEFINITION. Cyclic execution: release, freeze, commit, overrun, rollback, partition commands, commit records, lag cycles
and signatures (05, 09 R433 to R435, 19 R790). -/
namespace Sys2Proof.Machine

/-! ## Release and freeze (05 R200 to R210, R215, R240) -/

/-- The release record (05 R205). -/
def State.releaseRecord (s : State) (r : PartRec) (n : Nat) : List Byte :=
  let k := s.part r.part
  let fl := flags [(0, decide (k.runs = 0)), (1, k.restarted), (2, k.lateFlag), (3, s.on F.SIG_STATUS_FORCES_ON)]
  le 8 n ++ le 8 (boundaryNs n) ++ le 4 (k.runs + 1) ++ le 2 (min k.skipped 65535) ++ le 1 fl ++ le 1 r.cls ++
    le 4 (s.rdN R.IMG_CS_LAST) ++ List.replicate 36 0

/-- The inputs that a freeze copies from the closed image: the values in list order, then the qualities (05 R203). -/
def State.frozenInputs (s : State) (r : PartRec) : List Byte :=
  r.inputs.flatMap (fun p => le 4 (s.closedVal p).v.toNat) ++ r.inputs.map (fun p => (s.closedVal p).q)

/-- A waiting constant takes effect; its old value is kept until the next commit (05 R210, R222). -/
def State.constSet (s : State) (p : Nat) (c : Nat × Word) : State :=
  let old := BitVec.ofNat 32 (s.memN c.1 4)
  (s.pa p fun k => { k with constUndo := if k.constUndo.any (fun e => e.1 = c.1) then k.constUndo
                                         else k.constUndo ++ [(c.1, old)] }).sysW c.1 (le 4 c.2.toNat)

/-- A release at the close of image `n` as the close forms it: record and inputs, and the constants due (05 R202, R205, R210). A
release that follows a rollback or restart carries RESTARTED. -/
def State.formRelease (s : State) (n : Nat) (r : PartRec) : HeldRelease :=
  let k := s.part r.part
  let t := if s.pst r.part = 1 then s else s.pa r.part fun q => { q with restarted := true }
  { n := n, area := t.releaseRecord r n ++ s.frozenInputs r, consts := k.constWait, skips := k.skipped }

/-- A release runs: constants, the input area, RUNNING. The freeze writes the input area that does not hold the previous release's
inputs; before the first commit both areas hold the same inputs, so no edge is seen (04 R171, 05 R203, R240). -/
def State.partRun (s : State) (e : HeldRelease) (r : PartRec) : State :=
  let p := r.part
  let s1 := (s.each e.consts (fun t c => t.constSet p c)).pa p fun k => { k with constLast := e.consts }
  let a := 1 - (s1.part p).area % 2
  let s2 := s1.sysW (r.inArea a) e.area
  let s3 := if (s1.part p).first then s2.sysW (r.inArea (1 - a)) e.area else s2
  let s4 := s3.pa p fun k => { k with release := e.n, due := e.n + period r.cls, skipped := k.skipped - e.skips, runs := k.runs + 1
                                      area := a, restarted := false, lateFlag := false, idxCount := 0, coreNs := 0
                                      slowRun := false, overran := false, relAt := s.now, started := false, relWait := none }
  (s4.co r.core fun k => { k with frozen := k.frozen ++ [p] }).setPst p 2

/-- The constants that waited are part of the release. -/
def State.takeConsts (s : State) (p : Nat) : State := s.pa p fun k => { k with constWait := [] }

/-- A release at the close of image `n` runs (05 R200, R202). -/
def State.partFreeze (s : State) (n : Nat) (r : PartRec) : State :=
  (s.takeConsts r.part).partRun (s.formRelease n r) r

/-- A release at the close of image `n` that waits: what it takes is formed now (05 R202, R205, R210, R222, R225). -/
def State.partHold (s : State) (n : Nat) (r : PartRec) : State :=
  (s.takeConsts r.part).pa r.part fun k => { k with relWait := some (s.formRelease n r) }

/-- A release is skipped (05 R215, R222, 12 R580). -/
def State.partSkip (s : State) (p : Nat) : State :=
  ((s.bump (F.CYC_PCOUNT_SKIPS p) 1).pa p fun k => { k with skipped := k.skipped + 1 }).cr fun c =>
    { c with skipped := c.skipped ++ [p] }

/-- A release that waited on the active's word is skipped. -/
def State.dropHold (s : State) (p : Nat) : State := (s.unhold p).partSkip p

/-- Whether a release waits for the active's commit record, not for a command (05 R222, R232). -/
def PartState.waits (k : PartState) : Bool := k.relWait.isSome && !k.thenRelease && !k.thenHalt

/-- Whether this module decides commits by its own completions: not a standby that hears the active (05 R232, R235,
09 R442). -/
def State.decides (s : State) : Bool := !s.isStandby || s.on F.TWN_STATUS_SUSPECT

/-- A release that a partition cannot take up now. The standby skips only what the active's records report, so there it waits; one that
waits already has not been skipped, so the active runs it and skips those that follow (05 R215, R222, R232). -/
def State.partLater (s : State) (n : Nat) (r : PartRec) : State :=
  if s.decides || (s.part r.part).relWait.isSome then s.partSkip r.part else s.partHold n r

/-- A release of a partition by its state (05 R240, 12 R580). -/
def State.partRelease (s : State) (n : Nat) (r : PartRec) : State :=
  match s.pst r.part with
  | 1 => if (s.core r.core).resetting then s.partLater n r else s.partFreeze n r
  | 4 => s.partLater n r
  | 5 => s.partLater n r
  | 6 => s.partLater n r
  | _ => s

/-- Whether R708 halts a partition: service start runs those of class C5 to C7 on core pair 0 (16 R708). -/
def State.halted708 (s : State) (r : PartRec) : Bool := s.pwr.service && (decide (r.cls < 5) || decide (r.core ≠ 0))

/-- Whether a partition stays halted until a module restart or by R708 (05 R225, R231, 16 R712). -/
def State.noRestart (s : State) (r : PartRec) : Bool := decide (s.get (F.CYC_CORE_STATE r.core) = 2) || s.halted708 r

/-- PENDING of CYC_PCTL follows the commands that wait. -/
def State.pctlShow (s : State) : State :=
  s.putB F.CYC_PCTL_PENDING (s.image.parts.any (fun r => (s.part r.part).cmd.isSome))

/-- An activation is ended from outside its core pair: its stores leave first, and none of them is charged later (05 R221, 12 R566). -/
def State.leaveCore (s : State) (p : Nat) : State :=
  let c := (s.prec p).core
  if (s.core c).cur = some p then (s.flush c).co c fun k => { k with storeErr := none } else s

/-- An activation that a command or the active's record ends: no commit, no fault count (05 R225, R232). -/
def State.endAct (s : State) (p : Nat) : State := (s.leaveCore p).endPart p

/-- A command and the release at which it takes effect wait for the rollback (05 R225). -/
def State.cmdWait (s : State) (n : Nat) (r : PartRec) (c : PartCmd) : State :=
  (s.partHold n r).pa r.part fun k => { k with thenRelease := c.restart, thenHalt := !c.restart }

/-- A restart or halt command takes effect at a release (05 R225, R240); a release that waited from before does not run. MARK: DESIGN
CHOICE: CYC_PSTATE shows ROLLBACK until the rollback of an activation so ended is complete; a command that takes effect in ROLLBACK
waits for its end (assumption 120). -/
def State.partCommand (s : State) (n : Nat) (r : PartRec) (c : PartCmd) : State :=
  let p := r.part
  let s1 := ((s.pa p fun k => { k with cmd := none }).unhold p).pctlShow
  match s1.pst p with
  | 0 => s1
  | 1 => if c.restart then ((s1.rollMem p).raise 0x4013 r.core []).partFreeze n r
         else (s1.haltPart p).raise 0x4014 r.core []
  | 6 => s1.cmdWait n r c
  | 7 => if c.restart then
           if s1.noRestart r then s1 else ((s1.rollMem p).raise 0x4013 r.core []).partFreeze n r
         else s1.raise 0x4014 r.core []
  | _ => (s1.endAct p).cmdWait n r c

/-- One partition at the close of image `n`, a boundary of its class. -/
def State.partClose (s : State) (n : Nat) (r : PartRec) : State :=
  match (s.part r.part).cmd with
  | some c => if c.at_ ≤ n then s.partCommand n r c else s.partRelease n r
  | none => s.partRelease n r

/-- The releases at the close of image `n` (05 R200 to R202). -/
def State.releaseAll (s : State) (n : Nat) : State :=
  if s.computes n then s.each (s.image.parts.filter (fun r => isBoundary r.cls n)) (fun t r => t.partClose n r) else s

/-- FREEZE_COMPLETE (05 R202, 12 R562): the freeze of a core pair's releases finishes; they are ready in the order of 05 R207
and RELEASE is pending. -/
def execFreezeComplete (core : Fin 32) (s : State) : Res :=
  let f := (s.core core.val).frozen
  .next (if f = [] then s else
    ((s.co core.val fun k => { k with ready := k.ready ++ f, frozen := [] }).ipendSet core.val 0))

/-! ## Overrun and slowness (05 R212 to R217, R228, R229) -/

/-- A slow overrun; three within 1 s make the core pair FAULTY (05 R229). -/
def State.slowOverrun (s : State) (c : Nat) : State :=
  let l := s.now :: within (s.core c).slowOver s.now 1000000000
  let s1 := s.co c fun k => { k with slowOver := l }
  if l.length ≥ 3 then s1.coreFaulty c else s1

/-- An activation overruns: it goes on from `st`, OVERRUN while it runs, LATE once it is complete (05 R212, R216, R233).
MARK: DESIGN CHOICE: the release count in the data of 0x4001 is RUNS (assumption 116). -/
def State.overrunPart (s : State) (p st : Nat) : State :=
  let c := (s.prec p).core
  let s1 := (((s.setPst p st).bump (F.CYC_PCOUNT_OVERRUNS p) 1).put F.CYC_STATUS_OVERRUN 1).total 0x084 4 1
  let s2 := ((s1.cr fun k => { k with overruns := k.overruns ++ [p] }).pa p fun k => { k with overran := true }).raise 0x4001 c (le 1 p ++ le 4 (s.part p).runs)
  if (s.part p).slowRun then s2.slowOverrun c else s2

/-- Whether a partition's latest activation ran in the C0 cycle that ended at the current boundary: it runs, or it began, gave way
or ended in that cycle (05 R229). -/
def State.ranLast (s : State) (p : Nat) : Bool :=
  (s.part p).started && (decide ((s.core (s.prec p).core).cur = some p) || decide ((s.part p).ranAt + 1 = s.count))

/-- A slow cycle marks an activation whose run it belongs to; one that has overrun by then, ended or not, is a slow overrun (05
R229). -/
def State.slowMark (s : State) (c p : Nat) : State :=
  if s.ranLast p && !(s.part p).slowRun then
    let s1 := s.pa p fun k => { k with slowRun := true }
    if (s.part p).overran then s1.slowOverrun c else s1
  else s

/-- A slow cycle of a core pair (05 R228, R229). MARK: DESIGN CHOICE: the count in the data of 0x4020 is the slow cycles of the pair
so far (assumption 117). -/
def State.slowCycle (s : State) (c : Nat) : State :=
  let s1 := (s.bump (F.CYC_CORE_SLOW_CYCLES c) 1).raise 0x4020 c (le 1 c ++ le 4 (s.get (F.CYC_CORE_SLOW_CYCLES c) + 1))
  s1.each (s1.image.parts.filter (fun r => decide (r.core = c))) (fun t r => t.slowMark c r.part)

/-- Core pairs whose count of core cycles between two boundary messages lies below 59,375 (05 R228). -/
def State.slowCycles (s : State) (counts : List (Nat × Nat)) : State :=
  s.each (counts.filter (fun e => decide (e.2 < 59375))) (fun t e => t.slowCycle e.1)

/-- RUN_LIMIT (05 R217): an activation not complete RUN_LIMIT periods after its release is aborted with kind 7; the active
decides it for both. -/
def execRunLimit (part : Fin 256) (t : Nat) (s : State) : Res :=
  let s0 := s.at t
  let r := s0.prec part.val
  .next (if s0.decides && decide ((s0.part part.val).relAt + boundaryNs (r.runLimit * period r.cls) ≤ s0.now) then
      (s0.leaveCore part.val).abortPart part.val 7 0
    else s0)

/-! ## Commit (04 R151 to R155; 05 R209, R214, R220) -/

/-- One indexed write: refused where the partition does not own the point (04 R154, R155). -/
def State.indexedWrite (s : State) (p : Nat) (e : Nat × Word) : State :=
  let o := (s.pinfo e.1).owner
  if o = .part p then s.deliver e.1 e.2 (qByte qValid)
  else
    let s1 := (s.bump (⟨R.SIG_OWNER_FAULTS, 0, 32⟩) 1).wrN R.SIG_LAST_FAULT (e.1 % 2 ^ 20 + 2 ^ 20 * p)
    ((s1.put F.SIG_STATUS_OWNER_FAULT 1).put (F.CYC_PSTATE_LAST_FAULT p) 1).raise 0x3001 (s.prec p).core
      (le 4 e.1 ++ le 1 p ++ le 4 o.code)

/-- The indexed writes of an activation: point and value, in the order issued (04 R151, 05 R203). -/
def State.indexedOf (s : State) (r : PartRec) : State × List (Nat × Word) :=
  (List.range (min (s.part r.part).idxCount 1024)).foldl (fun a i =>
    let p := a.1.engineWord (r.idxList + 8 * i)
    let v := p.1.engineWord (r.idxList + 8 * i + 4)
    (v.1, a.2 ++ [(p.2 % 2 ^ 20, BitVec.ofNat 32 v.2)])) (s, [])

/-- The CRC over the static lines that an activation wrote, in ascending address order (09 R434). -/
def State.staticCrc (s : State) (p : Nat) : Nat :=
  crc64 ((sortBy (fun (a : Nat) => a) (s.part p).undo).flatMap (fun a => s.memL a 64))

/-- A complete activation commits: declared outputs, then indexed writes; a new checkpoint; WAITING (05 R209, R220). MARK: DESIGN
CHOICE: event 0x3003 of an activation with too many indexed writes comes at its commit (04 R152; assumption 102). -/
def State.commitPart (s : State) (p : Nat) : State :=
  let r := s.prec p
  let k := s.part p
  let crc := s.staticCrc p
  let x := s.indexedOf r
  let s1 := x.1.each r.outputs.zipIdx (fun t e =>
    if (t.pinfo e.1).owner = .part p then
      let w := t.engineWord (r.outArea + 4 * e.2)
      w.1.deliver e.1 (BitVec.ofNat 32 w.2) (qByte qValid)
    else t)
  let s2 := s1.each x.2 (fun t e => t.indexedWrite p e)
  let s3 := if k.idxCount > 1024 then
      ((s2.put F.SIG_STATUS_INDEXED_DROP 1).put (F.CYC_PSTATE_LAST_FAULT p) 2).raise 0x3003 r.core
        (le 1 p ++ le 4 (k.idxCount - 1024)) else s2
  let done := r.outputs.map (fun q => (q, (s3.ownerVal q).v))
  let late := decide (k.due < s.count + 1)
  let s4 := s3.pa p fun q => { q with committed := done, undo := [], constUndo := [], ckptArea := q.area, first := false,
                                      idxCount := 0, lateFlag := late }
  let s5 := (s4.cr fun c => { c with commits := c.commits ++ [p] }).tw fun u =>
    { u with commitCrcs := u.commitCrcs ++ [(s.count, p, crc)] }
  let s6 := if late then s5.raise 0x4002 r.core (le 1 p ++ le 4 (s.count + 1 - k.due) ++ le 4 k.skipped) else s5
  s6.setPst p 1

/-- One partition at a staging instant, by own completions (05 R209, R212, R214, R240). -/
def State.stagePart (s : State) (r : PartRec) : State :=
  let p := r.part
  if (s.part p).due ≤ s.count + 1 then
    match s.pst p with
    | 2 => s.overrunPart p 4
    | 3 => s.commitPart p
    | 5 => s.commitPart p
    | _ => s
  else s

/-! ## Signatures (09 R433 to R435) -/

/-- The bytes that the staging wrote for owners of class Ck: partitions and slots, in ascending point number. -/
def State.stagedBytes (s : State) (k : Nat) : List Byte :=
  s.sig.writes.flatMap (fun e =>
    let mine := match (s.pinfo e.1).owner with
      | .part _ => decide (s.ownerClass e.1 = k)
      | .slot _ => decide (s.ownerClass e.1 = k)
      | _ => false
    match mine, e.2 with
    | true, some v => le 4 v.v.toNat ++ [v.q]
    | _, _ => [])

/-- The output signatures of a staging instant: every class with a boundary at the next C0 boundary (09 R433). -/
def State.outputSigs (s : State) : State :=
  s.each ((List.range 8).filter (fun k => isBoundary k (s.count + 1))) (fun t k =>
    t.formSig { kind := k, count := t.count, val := crc64 (t.stagedBytes k) })

/-- The bytes of a sweep stripe (09 R435). -/
def State.stripe (s : State) (j : Nat) : List Byte :=
  if j < 64 then (List.range 16384).flatMap (fun i => le 4 (s.closedVal (16384 * j + i)).v.toNat)
  else if j < 80 then (List.range 65536).map (fun i => (s.closedVal (65536 * (j - 64) + i)).q)
  else if j < 336 then (List.range 16384).flatMap (fun i => le 4 (s.rdN (0x20000000 + 65536 * (j - 80) + 4 * i)))
  else (List.range 4096).flatMap (fun e => (s.forceWords e).flatMap (le 4))

/-- At a C5 boundary the interval of the state signature ends (09 R434): comparison words by boundary and head slot, then
commit CRCs by staging instant and partition. -/
def State.sigCut (s : State) (n : Nat) : State :=
  if n % 32 = 0 then
    let w := sortBy (fun (e : Nat × Nat × Nat) => e.1 * 16384 + e.2.1) s.twin.cmpWords
    let c := sortBy (fun (e : Nat × Nat × Nat) => e.1 * 256 + e.2.1) s.twin.commitCrcs
    let v := crc64 (w.flatMap (fun e => le 8 e.2.2) ++ c.flatMap (fun e => le 8 e.2.2))
    s.tw fun u => { u with sigOpen := some (n, v), cmpWords := [], commitCrcs := [] }
  else s

/-- After staging the sweep stripe completes the state signature. The signature of the boundary at which FIRST_MATCH begins
covers an interval before the joining module's work and is not sent (09 R434, R435, R465). -/
def State.sigStripe (s : State) : State :=
  match s.twin.sigOpen with
  | none => s
  | some e =>
    let v := (s.stripe ((e.1 / 32) % 337)).foldl (crcByte 64 0x42F0E1EBA9EA3693) e.2
    let s1 := s.tw fun u => { u with sigOpen := none }
    if s1.tstate = 2 ∧ e.1 ≤ s1.twin.firstMatchAt then s1 else s1.formSig { kind := 8, count := e.1, val := v }

/-- Signatures are formed while a boundary sequence with a partner in question runs. -/
def State.signatures (s : State) : State := (s.outputSigs).sigStripe

/-! ## The staging instant (05 R209, R232; 07 R332) -/

/-- Partitions halted on FAULTY core pairs while a switchover is planned (19 R790). -/
def State.heldParts (s : State) : List Nat :=
  if s.twin.switch.isSome then
    (s.image.parts.filter (fun r => decide (s.pst r.part = 7) && decide (s.get (F.CYC_CORE_STATE r.core) = 2))).map
      (fun r => r.part)
  else []

/-- CYC_T_STAGE: staging complete so many ns after t0. -/
def State.stageTime (s : State) (ns : Nat) : State :=
  (s.put F.CYC_T_STAGE_LAST (min ns 65535)).put F.CYC_T_STAGE_MAX (max (s.get F.CYC_T_STAGE_MAX) (min ns 65535))

/-- A staging instant by own completions: skips, commits, overruns, held slots; what it decided is sent by the active (05 R232,
R235, 07 R337). -/
def State.stageOwn (s : State) (ns : Nat) : State :=
  let s0 := s.each (s.image.parts.filter (fun r => (s.part r.part).waits)) (fun t r => t.dropHold r.part)
  let s1 := s0.each s0.image.parts (fun t r => t.stagePart r)
  let r := s1.stageSlots none
  let held := r.1.heldParts
  let rec_ : CommitRecord := { r.1.commit with
    image := s.count + 1, held := held, ended := r.1.commit.ended.filter (fun e => !held.contains e.1)
    skipped := r.1.commit.skipped.filter (fun p => !held.contains p) }
  let s2 := { r.1 with commit := {} }
  let s3 := if s2.isActive then (s2.send (.commitRecord rec_ r.2.1)).forwardCommits rec_.commits
    else s2.tw fun u => { u with commitRec := some s2.count }
  (s3.stageTime ns).signatures

/-- STAGING_INSTANT (05 R209 to R216, R232; 07 R332; 09 R433): t0 + 27 µs of the current C0 cycle; staging is complete `ns`
after t0. A standby that hears the active waits for its commit record. -/
def execStagingInstant (ns : Nat) (t : Nat) (s : State) : Res :=
  let s0 := s.at t
  let s1 := s0.tw fun u => { u with stagedAt := some s0.count }
  .next (if !s0.on F.CYC_STATUS_RUNNING ∨ !s0.cycleAt 27000 ∨ s0.twin.stagedAt = some s0.count then s0
    else if s0.decides then (s1.stageOwn ns).ipendAll 1
    else s1.ipendAll 1)

/-- STAGING_LATE (05 R239, 08 R384): staging is not complete at t0 + 29 µs; the segments of a ring that are not staged. -/
def execStagingLate (ring : Fin 16) (segs : List Nat) (t : Nat) (s : State) : Res :=
  let s0 := s.at t
  .next (if s0.on F.CYC_STATUS_RUNNING && s0.cycleAt 29000 then
      ((s0.put F.CYC_STATUS_LATE_STAGE 1).raise 0x4040 islMgmt []).ri ring.val fun r =>
        { r with unstaged := dedupN (r.unstaged ++ segs) }
    else s0)

/-! ## The standby (05 R232 to R234; 07 R337, R338; 19 R790) -/

/-- Whether an activation that the active names by partition and release is under way here. -/
def State.underWay (s : State) (e : Nat × Nat) : Bool :=
  decide (2 ≤ s.pst e.1) && decide (s.pst e.1 ≤ 5) && decide ((s.part e.1).release = e.2)

/-- An activation that the active's record ends in the standby too: no commit, no fault count (05 R232). -/
def State.followEnd (s : State) (e : Nat × Nat) : State := if s.underWay e then s.endAct e.1 else s

/-- An activation that the active aborted by the run limit, complete here or not (05 R217, R232). -/
def State.followLimit (s : State) (e : Nat × Nat) : State := if s.underWay e then (s.leaveCore e.1).abortNow e.1 7 0 else s

/-- A release that the active skipped counts as skipped; where the standby ran it, it is ended, where it waits, it does not
run (05 R222, R232). -/
def State.followSkip (s : State) (p : Nat) : State :=
  let k := s.part p
  if k.waits && k.relWait.any (fun e => decide (e.n = s.count)) then s.dropHold p
  else if (s.pst p = 2 ∨ s.pst p = 3) ∧ k.release = s.count then
    let r := s.prec p
    let sk := s.memN (r.inArea k.area + 20) 2 + 1
    let lt := bitOf (s.memN (r.inArea k.area + 22) 1) 2
    ((s.endAct p).bump (F.CYC_PCOUNT_SKIPS p) 1).pa p fun q => { q with skipped := sk, lateFlag := lt, runs := q.runs - 1 }
  else s

/-- An activation that the active reports as overrun or held (05 R233, 19 R790). -/
def State.followOverrun (s : State) (p : Nat) : State :=
  if (s.part p).due ≤ s.count + 1 then
    match s.pst p with
    | 2 => s.overrunPart p 4
    | 3 => s.overrunPart p 5
    | _ => s
  else s

/-- Whether the standby took part in the activation that commits: a joining module computes from M (09 R469). -/
def State.tookPart (s : State) (p : Nat) : Bool :=
  decide (s.tstate ≠ 2) ||
    (decide (s.get F.TWN_JOIN_STEP ≥ 4) && decide (s.twin.joinM + period (s.prec p).cls ≤ s.count + 1))

/-- A commit that the active lists: made here, or taken from the active (05 R232, R234). -/
def State.followCommit (s : State) (p : Nat) : State :=
  if s.pst p = 3 ∨ s.pst p = 5 then s.commitPart p
  else if s.tookPart p then
    ((if s.pst p = 2 ∨ s.pst p = 4 then s.endAct p else s)).tw fun u => { u with lagParts := u.lagParts ++ [p] }
  else s

/-- The standby acts on a commit record (05 R232 to R234, 07 R337, R338). -/
def State.followRecord (s : State) (r : CommitRecord) (held : List Nat) (ns : Nat) : State :=
  let s1 := (s.tw fun u => { u with commitRec := some s.count, lagParts := [], lagSlots := [] }).each r.runLimit
    State.followLimit
  let s2 := (s1.each r.ended State.followEnd).each r.skipped State.followSkip
  let s3 := (s2.each (r.overruns ++ r.held) State.followOverrun).each r.commits State.followCommit
  let listed := r.commits ++ r.overruns ++ r.held
  let s4 := s3.each (s3.image.parts.filter (fun q => !listed.contains q.part && decide ((s3.part q.part).due = s.count + 1) &&
    (decide (s3.pst q.part = 2) || decide (s3.pst q.part = 3)))) (fun t q => t.endAct q.part)
  let x := s4.stageSlots (some held)
  let s5 := ({ x.1 with commit := {} }).tw fun u => { u with lagSlots := x.2.2 }
  let s6 := s5.stageTime ns
  if s6.twin.lagParts.isEmpty && s6.twin.lagSlots.isEmpty then s6.signatures else s6.lagCycle

/-- COMMIT_RECORD_RX (05 R232): a record for another instant, or one that comes after the standby decided alone, is
discarded. -/
def execCommitRecordRx (r : CommitRecord) (held : List Nat) (ns : Nat) (t : Nat) (s : State) : Res :=
  let s0 := s.at t
  .next (if s0.on F.CYC_STATUS_RUNNING && !s0.decides && decide (r.image = s0.count + 1) &&
      decide (s0.twin.commitRec ≠ some s0.count) then
    (s0.followRecord r held ns).ipendAll 3
  else s0)

/-- COMMIT_RECORD_MISSING (05 R234): no commit record at t0 + 29 µs. -/
def execCommitRecordMissing (ns : Nat) (t : Nat) (s : State) : Res :=
  let s0 := s.at t
  .next (if s0.on F.CYC_STATUS_RUNNING && !s0.decides && decide (s0.twin.commitRec ≠ some s0.count) && s0.cycleAt 29000 then
    ((s0.tw fun u => { u with commitRec := some s0.count }).lagCycle).stageOwn ns
  else s0)

/-- A commit taken from the active: the checkpoint is made of its outputs and static lines and of the inputs of the release, whose
constants stand; the partition is WAITING, or HALTED where its own aborts reached the fault limit, and stays HALTED (05 R210, R220,
R223, R234).
The latest freeze wrote the area that is not the checkpoint's, whether or not a rollback came after it. -/
def State.adoptPart (s : State) (p : Nat) : State :=
  let r := s.prec p
  let done := r.outputs.map (fun q => (q, (s.ownerVal q).v))
  let s0 := match (s.part p).relWait with
    | some e => ((s.rollMem p).partRun e r).coreDrop p
    | none => s
  let late := decide ((s0.part p).due < s.count + 1)
  let s1 := s0.each (s0.part p).constLast (fun t c => t.sysW c.1 (le 4 c.2.toNat))
  let s3 := (s1.pa p fun k =>
    { k with committed := done, constUndo := [], first := false, idxCount := 0, restarted := false, lateFlag := late,
             area := 1 - k.ckptArea, ckptArea := 1 - k.ckptArea, slowRun := false }).outRewrite p
  if s.pst p = 7 then s3.setPst p 7
  else if (s.part p).limit then (s3.haltPart p).raise 0x4012 r.core [] else s3.setPst p 1

/-- LAG_STATE_TRANSFER (05 R234, 07 R338): committed outputs and static lines, slot state and outputs come from the active,
with what they bring to the state signature; the signatures of the staging instant are formed after them (09 R434). On the active the command names what the standby lacks, and its state
leaves. -/
def execLagStateTransfer (p : StatePatch) (s : State) : Res :=
  .next (if s.isActive then s.send (.lagTransfer (s.patchOf (p.parts.map (fun e => e.1)) (p.slots.map (fun e => e.1))))
    else if s.twin.lagParts.isEmpty && s.twin.lagSlots.isEmpty then s else
    let s0 := s.each s.twin.lagParts State.rollLines
    let s1 := s0.each p.points (fun (t : State) e => t.deliver e.1 e.2.v e.2.q)
    let s2 := s1.each p.mem (fun (t : State) e => t.sysW e.1 e.2)
    let s3 := (s2.each p.regs (fun (t : State) e => t.wr e.1 e.2)).each p.slots (fun (t : State) e => t.setSlot e.1 e.2)
    let s4 := s3.each s3.twin.lagParts State.adoptPart
    (s4.tw fun u => { u with lagParts := [], lagSlots := []
                             commitCrcs := u.commitCrcs ++ p.crcs.map (fun e => (s.count, e.1, e.2))
                             cmpWords := u.cmpWords ++ p.cmps }).signatures)

/-! ## Rollback (05 R219 to R225, R240) -/

/-- The constants of a held release that does not run wait on (05 R210). -/
def State.constsBack (s : State) (p : Nat) (e : Option HeldRelease) : State :=
  s.pa p fun q => { q with constWait := ((e.map (fun x => x.consts)).getD []) ++ q.constWait }

/-- ROLLBACK_COMPLETE (05 R222, R223, R225, R240): the partition halts at its fault limit; a command that waited then halts it, or
releases it; else it runs the release that waited, or waits for its next release (assumption 120). -/
def State.rollDone (s : State) (p : Nat) : State :=
  let r := s.prec p
  let k := s.part p
  let s1 := s.rollMem p
  let s2 := if k.limit then (((s1.pa p fun q => { q with relWait := none }).haltPart p).raise 0x4012 r.core [])
    else (s1.setPst p 1).pa p fun q => { q with thenRelease := false, thenHalt := false, relWait := none }
  if k.thenHalt then ((if k.limit then s2 else s2.haltPart p).constsBack p k.relWait).raise 0x4014 r.core []
  else if k.limit && !k.thenRelease then s2.constsBack p k.relWait
  else
    let s3 := if k.thenRelease then (s2.setPst p 1).raise 0x4013 r.core [] else s2
    match k.relWait with
    | some e => s3.partRun e r
    | none => s3

/-- ROLLBACK_COMPLETE (05 R222). -/
def execRollbackComplete (part : Fin 256) (t : Nat) (s : State) : Res :=
  let s0 := s.at t
  .next (if s0.pst part.val = 6 then s0.rollDone part.val else s0)

/-! ## Partition commands (05 R225, R226; 16 R712) -/

/-- Whether a partition command is taken here (05 R225, R226, R231; 16 R712). MARK: DESIGN CHOICE: one for a partition that
PARTITIONS does not bind is refused (assumption 119). -/
def State.takesCommand (s : State) (p : Nat) (restart : Bool) : Bool :=
  s.isActive && (s.image.part? p).isSome && !(restart && s.noRestart (s.prec p)) && !s.halted708 (s.prec p)

/-- A command waits for its release. MARK: DESIGN CHOICE: a second command for a partition takes the place of the first (assumption
118). -/
def State.queueCommand (s : State) (p : Nat) (restart : Bool) (at_ : Nat) : State :=
  let c : PartCmd := { restart := restart, at_ := at_ }
  (s.pa p fun k => { k with cmd := some c }).put F.CYC_PCTL_PENDING 1

/-- A restart or halt command given through CYC_PCTL (05 R225, R226). -/
def State.partCtl (s : State) (p : Nat) (restart : Bool) : State :=
  let s1 := (s.put F.CYC_PCTL_PART p).put F.CYC_PCTL_ACTION (if restart then 1 else 2)
  if s1.takesCommand p restart then
    let b := boundaryAfter s1.now 4
    (s1.queueCommand p restart b).send (.partCommand p restart b)
  else (s1.put F.CYC_PCTL_REFUSED 1).raise 0x4015 islMgmt []

/-- CYC_PCTL_RESTART (05 R225). -/
def execCycPctlRestart (part : Fin 256) (t : Nat) (s : State) : Res := .next ((s.at t).partCtl part.val true)

/-- CYC_PCTL_HALT (05 R225). -/
def execCycPctlHalt (part : Fin 256) (t : Nat) (s : State) : Res := .next ((s.at t).partCtl part.val false)

/-- PARTITION_COMMAND_RX (05 R225): the standby takes the active's command. -/
def execPartitionCommandRx (part : Fin 256) (restart : Bool) (at_ : Nat) (s : State) : Res :=
  .next (if s.isStandby ∧ (s.image.part? part.val).isSome then
      (s.queueCommand part.val restart at_).ipendSet (s.prec part.val).core 3
    else s)

end Sys2Proof.Machine
end

