-- ==== Sys2Proof/Machine/Commit.lean ====
section
/-! DEFINITION. Image commit: what a committed image puts into the registers and memories, the change-journal replay, the
persistent forces and the first twin state (02 R89; 04 R188; 06 R273, R308, R309; 07 R355; 08 R838; 12 R583; 13 R603; 16 R695,
R708). -/
namespace Sys2Proof.Machine

/-! ## Identity, fabric, classes -/

/-- Identity and source of the committed image (02 Registers). -/
def State.commitId (s : State) (i : Img) (c : Choice) (src : Nat) : State :=
  let s1 := ({ s with img := some i }).wrWords (R.IMG_ID 0) ((List.range 4).map (fun n => field (pad 16 i.ident) (4 * n) 4))
  let s2 := match c with
    | .slot n => (s1.put F.IMG_STATUS_RUN_SLOT n).put F.IMG_STATUS_FACTORY 0
    | .factory => (s1.put F.IMG_STATUS_RUN_SLOT 0).put F.IMG_STATUS_FACTORY 1
  (s2.put F.IMG_STATUS_SEL_SRC src).put F.IMG_STATUS_LOAD_STATE 2

/-- FAB_CONFIG, the HBM key and SIG_CLASSES (03 R110, R128; 04 SIG_CLASSES). -/
def State.commitFabric (s : State) (i : Img) : State :=
  let o := flags (i.routes.yx.zipIdx.map (fun e => (e.2, e.1)))
  let s1 := ((((s.put F.FAB_CONFIG_W_VC1 i.routes.w1).put F.FAB_CONFIG_W_VC2 i.routes.w2).put F.FAB_CONFIG_W_VC3
    i.routes.w3).put F.FAB_CONFIG_ORDER o).put F.FAB_CONFIG_FLOOR_PCT i.routes.floorPct
  let s2 := if i.hbmKey.ok then s1.put F.FAB_STATUS_KEY_DEFAULT 0
    else (s1.put F.FAB_STATUS_KEY_DEFAULT 1).raise 0x2031 islMgmt []
  s2.wrN R.SIG_CLASSES (flags (i.classes.map (fun k => (k, true))) % 256)

/-! ## Partitions and core pairs -/

/-- One partition at image commit: class and core pair, WAITING or HALTED (05 R224, R240, 16 R708), code, constants, static
region and output area with initial values (05 R203). -/
def State.commitPartition (s : State) (i : Img) (r : PartRec) : State :=
  let p := r.part
  let h := r.startHalted || s.halted708 r || decide (s.get (F.CYC_CORE_STATE r.core) = 2)
  let s1 := ((s.put (F.CYC_PSTATE_CLASS p) r.cls).put (F.CYC_PSTATE_CORE_PAIR p) r.core).put (F.CYC_PSTATE_STATE p)
    (if h then 7 else 1)
  let code := ((i.code.find? (fun c => c.1 = p)).map (fun c => c.2)).getD []
  let s2 := ((s1.memW r.codeBase code).memW r.staticBase (pad r.staticSize r.statics)).memW r.constBase (pad r.constSize r.consts)
  (s2.setPart p {}).outRewrite p

/-- A rule set word table: one record in one set of a core pair (13 R603). -/
def State.accSet (s : State) (slot rbase : Nat) (a : AccRec) : State :=
  let s1 := s.wrWords slot ((List.range 64).map (fun n => nth a.slots n % 512))
  s1.each (List.range 16) (fun t n =>
    let e := (a.regions[n]?).getD (0, 0)
    (t.wrN (rbase + 8 * n) (e.1 % 2 ^ 28)).wrN (rbase + 8 * n + 4) (Nat.land e.2 0x803F01FF))
where
  /-- Entry of a list, zero past its end. -/
  nth (l : List Nat) (i : Nat) : Nat := (l[i]?).getD 0

/-- The runtime record of a core pair. -/
def Img.runtimeRec (i : Img) (c : Nat) : AccRec :=
  (i.access.find? (fun a => decide (a.pair = c) && decide (a.kind = 0))).getD { pair := c }

/-- One core pair in use at image commit: running, its vectors, both rule sets the runtime record, set A active (12 R586,
13 R603). -/
def State.commitCore (s : State) (i : Img) (c : Nat) : State :=
  let a := i.runtimeRec c
  let s1 := if s.get (F.CYC_CORE_STATE c) = 2 then s else s.put (F.CYC_CORE_STATE c) 1
  let s2 := s1.co c fun k => { k with stvec := BitVec.ofNat 64 i.firmware.stvec, mtvec := BitVec.ofNat 64 i.firmware.mtvec,
                                      pc := BitVec.ofNat 64 i.firmware.mtvec, level := 3,
                                      bypA := a.bypass, bypB := a.bypass, ready := [], frozen := [], cur := none, oth := none }
  let s3 := (s2.accSet (R.ACC_SLOT c 0) (R.ACC_RBASE c 0) a).accSet (R.ACC_SLOTB c 0) (R.ACC_RBASEB c 0) a
  ((s3.put (F.ACC_CTL_ASET c) 0).put (F.ACC_CTL_BUSY c) 0).putB (F.ACC_CTL_BYPASS c) a.bypass

/-- A full-scale profile (12 R583). -/
def Img.fullScale (i : Img) : Bool := decide (i.islands.corePairs.length > 16) || decide (i.slotsUsed.length > 8192)

/-- Core pairs, duplicated comparators and partitions (12 R583). -/
def State.commitCores (s : State) (i : Img) : State :=
  let s1 := s.each i.islands.corePairs (fun t c => t.commitCore i c)
  let s2 := if i.fullScale then (s1.each i.islands.corePairs (fun t c => t.co c fun k =>
      { k with dupOn := true })).raise 0xA005 0 []
            else s1
  (s2.each i.parts (fun t r => t.commitPartition i r)).haltShow

/-! ## The loop engine -/

/-- Words of a head slot that the module takes from its own reset values or that are reserved (06 R309, 07 R355). -/
def ownSlotOffs : List Nat := wordsFrom 0x004 7 ++ [0x020, 0x02C, 0x030, 0x034, 0x038, 0x03C]

/-- The bits of a slot word that are not reserved (00 R17; 06 SLOT_CFG and port words; 07 R310, SLOT_MODE). -/
def slotMask (o : Nat) : Nat :=
  if o = 0 then 0x3FFF3F77
  else if o = 0x024 then 1
  else if 0x040 ≤ o ∧ o < 0x080 then 0xC30FFFFF
  else if 0x200 ≤ o ∧ 56 ≤ o % 64 then 0
  else 0xFFFFFFFF

/-- One slot of a record: a head slot takes every word but the module's own ones, of SLOT_MODE DEF_AUTO only; an extension
slot its SLOT_CFG and the words from 0x080; reserved bits read as zero (00 R17; 06 R306, R309; 07 R310, R355). -/
def State.commitSlot (s : State) (r : LoopRec) (k : Nat) : State :=
  let w := fun off => field r.bytes (1024 * k + off) 4
  let offs := if k = 0 then (wordsFrom 0 256).filter (fun o => !ownSlotOffs.contains o) else 0 :: wordsFrom 0x080 224
  s.each offs (fun t o => t.slotWr (r.slot + k) o (Nat.land (w o) (slotMask o)))

/-- One record of LOOPGRAPH: slots, CAM table, derived fields; a law whose initial parameters may not run, the points of a CAM
table among them, starts in FAULT (06 R273, R308, R309). -/
def State.commitLoop (s : State) (r : LoopRec) : State :=
  let s1 := ((s.each (List.range r.span) (fun t k => t.commitSlot r k)).memW (camBase r.slot) r.extra).derive r.slot
  let table := decide (r.law ≠ 3) || (s1.camTable r.slot).all isFinite32
  if paramsOk (s1.slotRd r.slot) && table then s1 else s1.slotFault r.slot 3 0 0

/-- Registers of one cluster pair: slots, load and reservations (06 R303). MARK: DEDUCED for the rounding: the percentage
down, the reservations up (assumption 20). -/
def State.commitPair (s : State) (i : Img) (p : Nat) : State :=
  let n := (i.slotsUsed.filter (fun x => decide (x / 1024 = p))).length
  let c := i.pairCost p
  let st := if !i.islands.clusterPairs.contains p ∧ n = 0 then 2 else if s.get (F.LPE_HEALTH_STATE p) = 1 then 1 else 0
  let s1 := ((s.put (F.LPE_PAIR_SLOTS p) n).put (F.LPE_PAIR_LOAD_PCT p) (c.2.2 * 100 / (4800000 * 128))).put (F.LPE_PAIR_STATE p) st
  (s1.put (F.LPE_PHASE_RES_M_NS p) ((c.2.1 * 10 + 1535) / 1536)).put (F.LPE_PHASE_RES_P_NS p) ((c.1 * 10 + 1535) / 1536)

/-- The loop engine at image commit. -/
def State.commitLoops (s : State) (i : Img) : State :=
  let s1 := s.lp fun u => { u with slots := [], phaseP := none, lateEvt := [] }
  let s2 := (s1.each (List.range 16) (fun t p => t.commitPair i p)).put F.LPE_USE_SLOTS i.slotsUsed.length
  s2.each i.loops State.commitLoop

/-! ## Rings, twin, links, local I/O, CAN -/

/-- One ring at image commit: its configuration, every listed station ABSENT, the initial deadlines (08 R838). MARK: DEDUCED: until
a census has measured the ring, the delay to the far module is taken from the declared DMAX, as 08 R396 does (assumption 97). -/
def State.commitRing (s : State) (r : RingRec) : State :=
  let n := r.ring
  let s1 := (((s.put (F.RNG_CFG_RATE n) r.rate).put (F.RNG_CFG_FEC n) r.fec).put (F.RNG_CFG_HOLD_CYCLES n) r.hold).put
    (F.RNG_CFG_STATIONS n) r.stns.length
  let s2 := ((s1.put (F.RNG_CFG_C0_STATIONS n) (r.stns.filter (fun x => x.c0)).length).put (F.RNG_APPLY_APPLY_OFF n)
    r.applyOff).put (F.RNG_APPLY_MARGIN n) r.margin
  let s3 := (s2.put (F.RNG_SCHED_RX_DL n) 18000).put (F.RNG_SCHED_ACYC_START n) 18000
  let s4 := s3.each r.stns (fun t x => (t.wrN (R.RNG_STN_STATE n x.num) 1).putB (F.RNG_STN_STATE_C0 n x.num) x.c0)
  let s5 := (s4.ri n fun k =>
    { ownUp := k.ownUp, partnerUp := k.partnerUp, path := 200 + (r.stns.map (fun x => x.dmax)).foldl (fun a b => a + b) 0 }).putB
      (F.RNG_STATUS_ABSENT n) (decide (r.stns ≠ []))
  ((s5.put (F.RNG_STATUS_PRESENT n) 0).put (F.RNG_STATUS_CENSUS_BUSY n) 0).ringShow n

/-- TWN_CFG, HOME and LISTEN (09 R422, R429). -/
def State.commitTwin (s : State) (i : Img) : State :=
  let s1 := ((s.putB F.TWN_CFG_HOME_B i.twin.homeB).putB F.TWN_CFG_NO_REVERT i.twin.noRevert).put F.TWN_CFG_REVERT_HOLD
    i.twin.revertHoldS
  (s1.putB F.TWN_STATUS_HOME (i.twin.homeB == s.twinB)).twinShow

/-- LINKS (11 Registers): every subscription COUPLED. -/
def State.commitLines (s : State) (i : Img) : State :=
  let l := i.links
  let s1 := ((s.put F.LNK_CFG_PAIR_ID l.pairId).put F.LNK_CFG_TOPO l.topo).put F.LNK_CFG_DECOUPLE_N l.decoupleN
  ({ s1 with lines := {} }).each (List.range l.subs.length) (fun t n => t.put (F.LNK_SUB_STATE n) 1)

/-- Analogue channels and CAN bit timing (14 AIO_CFG, 15 CAN_NBT, CAN_DBT), clamped input counters (14 R618). -/
def State.commitLocal (s : State) (i : Img) : State :=
  let s1 := s.each i.localIo.aio.zipIdx (fun t e =>
    let a := e.1
    t.wrN (R.AIO_CFG e.2) (a.mode % 4 + 4 * (a.cls % 8) + 32 * (a.wiring % 4) + 128 * (a.supply % 2) + 256 * (a.modem % 4) +
      1024 * (a.range % 2)))
  let s2 := s1.each i.can (fun t c =>
      (t.wrN (R.CAN_NBT c.chan) (c.nbt % 2 ^ 30)).wrN (R.CAN_DBT c.chan) (Nat.land c.dbt 0x0F0F1F1F))
  s2.diClamp

/-! ## Persistent forces (04 R188, R191) -/

/-- A persistent force restored at start-up: its entry, its point shows it from the first close on. -/
def State.restoreForce (s : State) (e : PForce) : State :=
  let n := lowestFree (s.sig.forces.map (fun g => g.entry)) 4096 0
  let f : Force := { point := e.point, persist := true, value := storeAs (s.pinfo e.point).typ e.value,
                     owner := s.ownerVal e.point, entry := n }
  s.sg fun u => { u with forces := sortBy (fun (g : Force) => g.entry) (f :: u.forces) }

/-- The persistent-force region after the change-journal replay: restored, or discarded where the identity or the marking does
not agree or the region's CRC fails (04 R188, 03 R138). MARK: DESIGN CHOICE: the reasons of event 0x3014 are 1 identity, 2 marking,
3 CRC, the first of an entry that failed both (assumption 79). -/
def State.restoreForces (s : State) (i : Img) : State :=
  let bad := !s.nv.pfOk
  let ours := fun (e : PForce) => decide (e.ident = i.ident.take 8)
  let good := s.nv.pforces.filter (fun e => !bad && ours e && (i.point e.point).persist)
  let lost := s.nv.pforces.length - good.length
  let why := if bad then 3 else if s.nv.pforces.all ours then 2 else 1
  let s1 := (((s.inNv fun v => v.pfStore good).each good State.restoreForce).countForces)
  let s2 := if good ≠ [] then s1.raise 0x3013 islCs (le 4 good.length) else s1
  if lost ≠ 0 then (s2.put F.SIG_STATUS_PFORCE_DISCARD 1).raise 0x3014 islCs (le 4 lost ++ le 4 why) else s2

/-! ## The commit -/

/-- Short identity of an image (02 R57): its first 8 bytes. -/
def shortId (i : Img) : List Byte := (pad 16 i.ident).take 8

/-- Change sets, totals and the signal image begin anew (04 R144, 17 R743). -/
def State.commitFresh (s : State) : State :=
  (({ s with cs := [], deferred := [], sig := {}, parts := [], commit := {} }).mg fun u => { u with totals := [] }).csShow

/-- The handover at image commit: the module that went first passes to MAPPING, the second to REJOINING (02 R101). MARK: DESIGN
CHOICE: a module that restarts again while its handover runs goes on there as well (assumption 77). -/
def State.commitHandover (s : State) : State :=
  let s1 := s.pw fun p => { p with imageRestart := false }
  if 1 ≤ s.nv.hoState ∧ s.nv.hoState ≤ 3 ∧ s.nv.hoFirst = true then s1.hoTo 2
  else if 5 ≤ s.nv.hoState ∧ s.nv.hoFirst = false then s1.hoTo 6
  else s1

/-- Image commit (16 R695): slot or factory image, selection source. The slot of event 0x1010 is RUN_SLOT. -/
def State.commitImage (s : State) (img : Img) (c : Choice) (src : Nat) : State :=
  let i := s.layeredImg img
  let s1 := ((s.commitFresh.commitId i c src).commitFabric i).commitCores i
  let s2 := ((s1.commitLoops i).each i.rings State.commitRing).commitTwin i
  let s3 := ((s2.commitLines i).commitLocal i).cagesCommit.csReplay.restoreForces i
  ({ s3.commitHandover with next := none }).raise 0x1010 islMgmt
    (le 1 (s3.get F.IMG_STATUS_RUN_SLOT) ++ le 4 src ++ shortId i)

end Sys2Proof.Machine
end

