-- ==== Sys2Proof/Machine/Power.lean ====
section
/-! DEFINITION. Start-up, power domains, reduced service, restarts, feeds and hold-up, temperatures (16; 02 R73 to R77; 19 R787;
20 R799, R821 to R824). -/
namespace Sys2Proof.Machine

/-! ## Feeds (16 R699, R718, R721; 20 R799) -/

/-- Whether a feed is qualified. -/
def State.feedOk (s : State) : Bool := s.on F.MOD_STATUS_FEED_A_OK || s.on F.MOD_STATUS_FEED_B_OK

/-- The OK bits and the voltage of a feed. -/
def State.setFeed (s : State) (f dv : Nat) (ok : Bool) : State :=
  if f = 0 then ((s.putB F.MOD_STATUS_FEED_A_OK ok).putB F.PWR_FEED_A_OK ok).put F.PWR_FEED_A_DV dv
  else ((s.putB F.MOD_STATUS_FEED_B_OK ok).putB F.PWR_FEED_B_OK ok).put F.PWR_FEED_B_DV dv

/-- A feed out of its operating range now. -/
def State.feedOutNow (s : State) (f : Nat) : State := s.pw fun p => { p with feedOut := tset 0 p.feedOut f s.now }

/-- Whether a feed qualifies: within 36.0 V to 75.0 V, for 100 ms, or for 5 ms during hold-up (16 R699, R721, 20 R799). -/
def State.feedGood (s : State) (f dv : Nat) : Bool :=
  decide (360 ≤ dv) && decide (dv ≤ 750) &&
    decide (s.now ≥ tget 0 s.pwr.feedOut f + (if s.on F.MOD_STATUS_HOLDUP then 5000000 else 100000000))

/-- FEED_QUALIFIED (16 R699, R718, R721): the feed's voltage in 0.1 V. -/
def execFeedQualified (feed : Fin 2) (dv : Fin 1024) (t : Nat) (s : State) : Res :=
  let s0 := s.at t
  let s1 := s0.setFeed feed.val dv.val true
  let s2 := if s0.pwr.feedsLost.contains feed.val then
      (s1.pw fun p => { p with feedsLost := p.feedsLost.filter (fun f => f ≠ feed.val) }).raise 0xD002 islSup []
    else s1
  .next (if !s0.pd 0 || !s0.feedGood feed.val dv.val then s0
    else if s0.feedOk then s2 else s2.pw fun p => { p with feedAt := s0.now })

/-- FEED_LOST (16 R718, 20 R799): below 33.0 V, or above 78.0 V, which the event data tell. -/
def execFeedLost (feed : Fin 2) (dv : Fin 1024) (t : Nat) (s : State) : Res :=
  let s0 := s.at t
  let ok := if feed.val = 0 then s0.on F.MOD_STATUS_FEED_A_OK else s0.on F.MOD_STATUS_FEED_B_OK
  let s1 := (s0.setFeed feed.val dv.val false).feedOutNow feed.val
  .next (if !s0.pd 0 ∨ (330 ≤ dv.val ∧ dv.val ≤ 780) then s0 else if ok then
      (s1.pw fun p => { p with feedsLost := feed.val :: p.feedsLost.filter (fun f => f ≠ feed.val) }).raise 0xD001 islSup
        (le 4 feed.val ++ le 4 (b2n (decide (780 < dv.val))))
    else s1)

/-! ## Power-up of PD0 and power-off -/

/-- PD0 off: what stands in MRAM and flash stays, everything else is lost; the choice of R74 and SVC_NEXT are lost with both
feeds (02 R74, 16 R707). -/
def State.powerOff (s : State) : State :=
  let s1 := ({ s with keep := {} }).cleared
  let s2 : State := { s1 with pwr := { cages := s.pwr.cages }, recd := {}, twin := { lastChange := some s.now } }
  ((({ s2 with regs := resetRegs }).wrN R.PWR_ON 0).showNv)

/-- PD0_POWER_UP (16 R700, 02 R72): the power-cycle count rises, the PROF pins are latched, S0 begins with cause 0. -/
def execPd0PowerUp (prof : Fin 4) (t : Nat) (s : State) : Res :=
  let s0 := (s.at t).powerOff
  let s1 := s0.inNv fun v => { v with
    pwrcyc := min (v.pwrcyc + 1) (2 ^ 24 - 1),
    pwrcycB := min (v.pwrcyc + 1) (2 ^ 24 - 1), causeWord := causeAfter v.causeWord 0 }
  .next ((((s1.wrN R.PWR_ON 1).put F.IMG_STRAP_PROF_LATCH prof.val).put F.IMG_STRAP_PROF_LIVE prof.val).showNv.latchAll.pw
    fun p => { p with stageAt := s1.now, feedOut := [(0, s1.now), (1, s1.now)] })

/-- OPSEC_TICK (16 R700, R714, PWR_INPUT, PWR_HOLDUP): a second of operation; what the supervisor measured over it: input power
in W, feed voltages in 0.1 V, bank energy in 0.1 J, the live PROF pins. -/
def execOpsecTick (watts : Fin 65536) (aDv bDv : Fin 1024) (bankDj : Fin 256) (prof : Fin 4) (t : Nat) (s : State) : Res :=
  let s0 := (s.at t).inNv fun v => { v with opsec := min (v.opsec + 1) (2 ^ 40 - 1),
                                            opsecB := min (v.opsec + 1) (2 ^ 40 - 1) }
  let s1 := (s0.wr64 R.MOD_OPSEC s0.nv.opsec).put F.PWR_INPUT_WATTS watts.val
  let s2 := s1.put F.PWR_INPUT_MAX_W (max (s1.get F.PWR_INPUT_MAX_W) watts.val)
  let s3 := ((s2.put F.PWR_FEED_A_DV aDv.val).put F.PWR_FEED_B_DV bDv.val).put F.PWR_HOLDUP_BANK_DJ bankDj.val
  .next (if !(s.at t).pd 0 then s.at t
    else (s3.putB F.PWR_HOLDUP_BANK_OK (decide (bankDj.val ≥ 56))).put F.IMG_STRAP_PROF_LIVE prof.val)

/-- SLOT_ID_READ (16 R698): 0b1010 is twin A, 0b1011 twin B; the first valid value is latched, the first invalid one reported. -/
def execSlotIdRead (pins : Fin 16) (t : Nat) (s : State) : Res :=
  let s0 := s.at t
  .next (if !s0.pd 0 ∨ s0.get F.MOD_STATUS_STAGE ≠ 0 ∨ s0.on F.MOD_SLOT_VALID ∨ s0.twin.resetHeld then s0
    else if pins.val = 10 ∨ pins.val = 11 then
      ((s0.put F.MOD_SLOT_SLOT_ID pins.val).put F.MOD_SLOT_VALID 1).putB F.TWN_STATUS_TWIN_B (decide (pins.val = 11))
    else if s0.pwr.slotBad then s0
    else (s0.pw fun p => { p with slotBad := true }).raise 0x0004 islSup [])

/-- BANK_CHARGE_TIMEOUT (16 R701): 1 s after the feed qualified S0 ends all the same. -/
def execBankChargeTimeout (bankDj : Fin 256) (t : Nat) (s : State) : Res :=
  let s0 := (s.at t).put F.PWR_HOLDUP_BANK_DJ bankDj.val
  .next (if !(s.at t).pd 0 then s.at t
    else if s0.get F.MOD_STATUS_STAGE = 0 ∧ bankDj.val < 56 ∧ s0.feedOk ∧ s0.now ≥ s0.pwr.feedAt + 1000000000 then
      (s0.put F.PWR_HOLDUP_BANK_OK 0).pw fun p => { p with bankLow := true }
    else s0)

/-! ## Profile selection at S1 (02 R73 to R77, R100) -/

/-- The choice at start-up and its source: the target in a handover's image restart, else volatile, persistent, pins. -/
def State.selected (s : State) : Choice × Nat :=
  if let some c := s.nv.boot then (c, if s.keep.choice.isSome then 1 else if s.nv.choice.isSome then 2 else 0) else
  let target := (s.nv.hoFirst && decide (1 ≤ s.nv.hoState) && decide (s.nv.hoState ≤ 3)) ||
    (!s.nv.hoFirst && decide (5 ≤ s.nv.hoState))
  let src := if s.keep.choice.isSome then 1 else if s.nv.choice.isSome then 2 else 0
  let c := (s.keep.choice.or s.nv.choice).getD (.slot (s.get F.IMG_STRAP_PROF_LATCH))
  (if target then .slot s.nv.hoTarget else c, src)

/-- Whether the region of the factory safe image holds bytes of its own (03 R135). -/
def State.factoryHeld (s : State) : Bool := s.flash.any (fun e => decide (e.1 < slotBase 0))

/-- The factory safe image as its checks find it (02 R67 to R69): the bytes that its region of the flash holds, checked with the
factory key, must be those of a factory safe image. MARK: DESIGN CHOICE: the bytes that the factory wrote are not stated; a region
that lists none holds them, and the outcome of their checks stands with the flash (assumption 76). -/
def State.factoryChecked (s : State) : Checked × Img :=
  if s.factoryHeld then
    let b := Memory.readN s.flash 0 (leNat (Memory.readN s.flash 8 4))
    (match checkImage s.flash 0 [] s.nv.compat with
      | .good k => if (parseImg b).factory then .good k else .bad 0x1006 []
      | .bad c d => .bad c d, parseImg b)
  else match s.nv.factoryFault with
    | some f => (.bad f.1 f.2, factoryImg)
    | none => (.good 0, factoryImg)

/-- The factory safe image is checked; one that fails a check is not accepted (02 R67 to R69). -/
def State.acceptFactory (s : State) (src : Nat) : State :=
  match s.factoryChecked.1 with
  | .bad c d => (s.checkFailed c d).put F.IMG_STATUS_LOAD_STATE 3
  | .good _ => { s with next := some (s.factoryChecked.2, .factory, src) }

/-- The factory safe image in place of a selected profile that cannot run (02 R77). -/
def State.fallback (s : State) : State :=
  ((s.put F.IMG_STATUS_LOAD_STATE 3).raise 0x1011 islMgmt []).acceptFactory 3

/-- The image of the selected profile is read and checked (02 R73, R77, 16 R695); a refused image leaves its slot INVALID
(02 R69). -/
def State.accept (s0 : State) : State :=
  let c := s0.selected
  let s := s0.inNv fun v => { v with boot := none }
  match c.1 with
  | .factory => s.acceptFactory c.2
  | .slot n =>
    if ((s.nv.slots[n]?).getD {}).st ≠ 2 then s.fallback
    else match checkImage s.flash (slotBase n) s.nv.keys s.nv.compat with
      | .bad code data =>
        (((s.inNv fun v => { v with slots := setAt v.slots n (fun m => { m with st := 3 }) }).showNv).checkFailed code
          data).fallback
      | .good _ =>
        let len := leNat (Memory.readN s.flash (slotBase n + 8) 4)
        { s with next := some (parseImg (Memory.readN s.flash (slotBase n) len), .slot n, c.2) }

/-- The domains that a stage powers (16 R690, R695). -/
def stageDomains (st : Nat) : List Nat :=
  match st with
  | 1 => [22, 7, 6, 18, 1]
  | 2 => [2, 3, 4, 5, 8, 10, 11, 12, 13]
  | 3 => [19, 20, 21, 14, 15, 16, 17, 9, 23]
  | _ => []

/-- The image accepted at S1. -/
def State.nextImg (s : State) : Img := (s.next.map (fun e => e.1)).getD {}

/-- The domains of a list that the accepted image uses (16 R691). -/
def State.uses (s : State) (l : List Nat) : List Nat := l.filter (fun d => s.nextImg.islands.domains.contains d)

/-! ## Reduced service -/

/-- Reduced service begins, with its cause (16 R707, R708). -/
def State.reduced (s : State) (cause : Nat) : State :=
  ((s.put F.MOD_STATUS_REDUCED 1).put F.MOD_STATUS_RS_CAUSE cause).raise 0x0005 islSup (le 4 cause)

/-- Image commit of the accepted image. -/
def State.commitNext (s : State) : State :=
  match s.next with
  | some e => (s.commitImage e.1 e.2.1 e.2.2).tw fun u =>
      { u with listenEpoch := none, ringActive := false, raised7002 := false, listenFrom := s.now }
  | none => s

/-! ## The stages (16 R695) -/

/-- S0 ends: a feed is qualified, SLOT_ID valid, the bank charged or its time over; it does not end while held in reset, while
a bring-up failure waits or after three of them, nor hot (16 R695, R696, R714, 20 R824). -/
def State.s0Done (s : State) (bankDj : Nat) : Bool :=
  s.feedOk && s.on F.MOD_SLOT_VALID && (decide (bankDj ≥ 56) || s.pwr.bankLow) && !s.twin.resetHeld && !s.pd 1 &&
    !s.pwr.hot && !s.on F.MOD_STATUS_HOLDUP

/-- S0 to S1: the service start that SVC_NEXT requests is taken (16 R707). -/
def State.toS1 (s : State) (bankDj : Nat) : State :=
  ((s.put F.PWR_HOLDUP_BANK_DJ bankDj).putB F.PWR_HOLDUP_BANK_OK (decide (bankDj ≥ 56))).startS1.pw
    fun p => { p with service := s.keep.svcNext }

/-- S1 to S2: an image is accepted, else S1 goes on; its domains of S2 are powered; trip latches follow their inputs, calibration
is read; a factory safe image is committed (14 R634, R657; 16 R695). -/
def State.toS2 (s : State) (trips : Nat) : State :=
  let s0 := s.accept
  if s0.next.isNone then s0 else
  let s1 := s0.pw fun p => { p with s1Failures := 0 }
  let s2 := (s1.wrN R.PWR_USE (flags (s1.nextImg.islands.domains.map (fun d => (d, true))) % 2 ^ 24)).power
    (s1.uses (stageDomains 2))
  let s3 := s2.beginStage 2 |>.xingStart
  let s4 := if s3.pd 2 then s3.tripStart trips s3.now else s3
  let s5 := if s4.pd 4 then s4.calStart else s4
  if s5.nextImg.factory then s5.commitNext.reduced 1 else s5

/-- S2 to S3; a service start powers the HBM stacks only (16 R695, R708). -/
def State.toS3 (s : State) : State :=
  let l := if s.pwr.service then [20, 21] else stageDomains 3
  (s.power (s.uses l)).beginStage 3

/-- S3 to S4: the HBM ring is available; a working cluster pair whose comparator failed its test is taken over by the spare
pair (16 R704, R705). -/
def State.toS4 (s : State) (spared : Option (Fin 16)) : State :=
  let s1 := s.put F.EVT_STATUS_HBM_RING 1
  (match spared with
   | some p => s1.pairMove p.val
   | none => s1).beginStage 4

/-- S4 to S5: image commit (16 R695, R707). -/
def State.toS5 (s : State) : State :=
  let s1 := s.commitNext.beginStage 5
  if s.pwr.service then s1.reduced 2 else s1

/-- Whether the crossing of each powered field block receives good frames (16 R695). -/
def State.crossingsUp (s : State) : Bool := (List.range 3).all (fun b => !s.pd (2 + b) || bitOf (s.rdN R.DIO_STATUS) b)

/-- STAGE_END (16 R695): the stage's end condition, with the bank energy at S0, the trip inputs at S2 and a spared cluster pair
at S3. Reduced service holds S2 or S5 (R708). -/
def execStageEnd (bankDj : Fin 256) (trips : Fin 16) (spared : Option (Fin 16)) (t : Nat) (s : State) : Res :=
  let s0 := s.at t
  .next (match s0.get F.MOD_STATUS_STAGE with
    | 0 => if s0.s0Done bankDj.val then s0.toS1 bankDj.val else s0
    | 1 => s0.toS2 trips.val
    | 2 => if s0.on F.MOD_STATUS_REDUCED ∨ !s0.crossingsUp then s0 else s0.toS3
    | 3 => s0.toS4 spared
    | 4 => s0.toS5
    | 5 => if s0.pwr.service ∨ !((s0.isActive && s0.on F.CYC_STATUS_RUNNING) || decide (s0.tstate = 3)) then s0
           else s0.beginStage 6
    | _ => s0)

/-! ## Domains (16 R690 to R694; 19 R787) -/

/-- Domains whose loss the module outlives. -/
def nonEssential (d : Nat) : Bool := [1, 10, 11, 12, 13, 23].contains d

/-- Domains whose loss is a module fault; PD9 where the image carries LINKS (16 R690). -/
def State.essential (s : State) (d : Nat) : Bool :=
  if d = 9 then decide (s.image.links ≠ {}) else !nonEssential d && decide (d ≠ 0) && decide (d ≠ 7)

/-- What the loss of a non-essential domain does (16 R693): the lamps follow PWR_ON; four rings lose this module's ports;
stream capture and FILT samples follow PWR_ON. -/
def State.lostNonEssential (s : State) (d : Nat) : State :=
  let s1 := s.raise 0xD011 islSup []
  if d = 1 then s1.put F.PNL_STATUS_UPDATING 0
  else if 10 ≤ d ∧ d ≤ 13 then s1.each (List.range 4) (fun t k => t.ringLink (4 * (d - 10) + k) false)
  else s1

/-- A domain is switched off (16 R692): PWR_FAULT, PWR_LAST, event 0xD010. -/
def State.switchOff (s : State) (d kind : Nat) : State :=
  let s1 := (s.setBit R.PWR_ON d false).setBit R.PWR_FAULT d true
  (((s1.put F.PWR_LAST_PD d).put F.PWR_LAST_KIND kind).put F.PWR_LAST_STAGE (s.get F.MOD_STATUS_STAGE)).raise 0xD010 islSup
    (le 1 d ++ le 4 kind)

/-- The domains whose loss in the active is answered by the failing message and a restart (19 R787). -/
def fatalInActive (d : Nat) : Bool := [2, 3, 4, 5, 6, 8, 22].contains d

/-- The response to the domains lost at one instant (16 R690, R694, 19 R787); a kept domain that faults during an image restart
makes it a full one (02 R100). -/
def State.domainResponse (s : State) (l : List Nat) : State :=
  if l.contains 0 then s.powerOff
  else if l.contains 7 then (s.sendFailing 2).restart 5
  else if s.pwr.imageRestart ∧ s.img.isNone ∧ l.any keptDomain then s.restart 6
  else if s.isActive ∧ l.any fatalInActive then
    ((s.put F.MOD_STATUS_MOD_FAULT 1).raise 0x7070 islTwin (le 4 3 ++ le 4 3)).restart 6
  else if l.any s.essential then s.moduleFault 3
  else s

/-- DOMAIN_FAULT (16 R692 to R694): the domains that fail at one instant with their kinds: 1 power-good lost, 2 overcurrent,
3 islands not answering. Ignored during hold-up (16 R722). -/
def execDomainFault (faults : List (Fin 24 × Fin 4)) (t : Nat) (s : State) : Res :=
  let s0 := s.at t
  .next (if s0.on F.MOD_STATUS_HOLDUP then s0 else
    let l := faults.filter (fun e => s0.pd e.1.val && decide (e.2.val ≠ 0))
    let s1 := s0.each l (fun u e => u.switchOff e.1.val e.2.val)
    let ds := l.map (fun e => e.1.val)
    (s1.each (ds.filter nonEssential) State.lostNonEssential).domainResponse ds)

/-! ## Bring-up failures (16 R696, R697) -/

/-- Stage and domain of a bring-up failure in MOD_RESET_CAUSE and PWR_LAST, event 0x0002. -/
def State.failNote (s : State) (d : Nat) : State :=
  let st := s.get F.MOD_STATUS_STAGE
  let s1 := s.inNv fun v => { v with causeWord := putBits (putBits (putBits v.causeWord 8 3 st) 11 1 1) 12 5 d }
  let s2 := s1.wr R.MOD_RESET_CAUSE s1.nv.causeWord
  (((s2.put F.PWR_LAST_PD d).put F.PWR_LAST_KIND 4).put F.PWR_LAST_STAGE st).raise 0x0002 islSup (le 1 st ++ le 1 d)

/-- A failure in S1: all but PD0 and PD1 off; the wait before S0 shows as PD1 on in S0. -/
def State.failS1 (s : State) : State :=
  let s1 := if s.on F.EVT_STATUS_RUNNING then s.takeAll else s
  let n := s.pwr.s1Failures + 1
  ((s1.cleared.wrN R.PWR_ON 3).showNv).pw fun p => { p with s1Failures := n }

/-- A failure of a domain marked as a module fault in S2 to S4: reduced service at S2 (16 R696, R708). -/
def State.failLate (s : State) : State :=
  let on := (List.range 24).filter (fun d => s.pd d && [0, 1, 2, 3, 4, 5, 6, 7, 8, 10, 11, 12, 13, 18, 22].contains d)
  let s1 := ({ s with next := none }.wrN R.PWR_ON (flags (on.map (fun d => (d, true))))).put F.MOD_STATUS_STAGE 2
  s1.reduced 3

/-- A bring-up failure of a domain (16 R696). -/
def State.bringUpFail (s : State) (d : Nat) : State :=
  let s1 := s.failNote d
  let st := s.get F.MOD_STATUS_STAGE
  if st = 1 then s1.failS1
  else if 2 ≤ st ∧ st ≤ 4 then
    if nonEssential d then (s1.setBit R.PWR_ON d false).lostNonEssential d
    else if s.nextImg.islands.domains.contains d then s1.failLate
    else s1
  else s1

/-- When the current stage exceeds its maximum (16 R695): S5 ends 5 s after the lock wait of the time unit. -/
def State.stageEndsAt (s : State) : Nat :=
  match s.get F.MOD_STATUS_STAGE with
  | 1 => s.pwr.stageAt + 20000000000
  | 2 => s.pwr.stageAt + 4000000000
  | 3 => s.pwr.stageAt + 39900000000
  | 4 => s.pwr.stageAt + 20000000000
  | _ => s.time.poweredAt + s.image.time.lockWaitS * 1000000000 + 5000000000

/-- STAGE_TIMEOUT (16 R696): a stage S1 to S5 exceeds its maximum, or its test of a domain failed; S0 waits as R698, R701 and
20 R824 say, reduced service holds its stage. -/
def execStageTimeout (dom : Fin 24) (failed : Bool) (t : Nat) (s : State) : Res :=
  let s0 := s.at t
  let st := s0.get F.MOD_STATUS_STAGE
  .next (if 1 ≤ st ∧ st ≤ 5 ∧ !s0.on F.MOD_STATUS_REDUCED ∧ (failed ∨ s0.now > s0.stageEndsAt) then s0.bringUpFail dom.val
    else s0)

/-- DOMAIN_POWER_UP_RETRY (16 R697): the second attempt at a domain of the current stage, and whether it succeeds. -/
def execDomainPowerUpRetry (dom : Fin 24) (ok : Bool) (t : Nat) (s : State) : Res :=
  let s0 := s.at t
  .next (if !(stageDomains (s0.get F.MOD_STATUS_STAGE)).contains dom.val ∨ s0.on F.MOD_STATUS_REDUCED then s0
    else if s0.pwr.retried.contains dom.val then s0.bringUpFail dom.val
    else
      let s1 := s0.pw fun p => { p with retried := dom.val :: p.retried }
      if ok then s1.power [dom.val] else s1.bringUpFail dom.val)

/-- BRING_UP_RETRY (16 R696): 10 s after a failure in S1; after three in a row the module stays in S0. -/
def execBringUpRetry (t : Nat) (s : State) : Res :=
  let s0 := s.at t
  let n := s0.pwr.s1Failures
  .next (if s0.get F.MOD_STATUS_STAGE = 0 ∧ s0.pd 1 = true ∧ 0 < n ∧ n < 3 ∧ s0.now ≥ s0.pwr.stageAt + 10000000000 then
      (s0.beginS0 8).pw fun p => { p with s1Failures := n }
    else s0)

/-! ## Restarts and carrier reset (16 R713 to R717) -/

/-- A restart by MOD_CTL, QMP or the button: after a planned switchover where this module is ACTIVE and its partner MATCHED,
else at once; answers whether it was taken (16 R716). The cause of the role change is that of a SWAP (DEDUCED, assumption 21). -/
def State.modRestart (s : State) (cause : Nat) : State × Bool :=
  if s.on F.MOD_STATUS_HOLDUP then (s, false)
  else if s.isActive ∧ s.ptstate = 3 then
    match s.twin.switch with
    | some w =>
      if s.nv.hoState ≠ 0 then (s.put F.MOD_CTL_REFUSED 1, false)
      else ((s.tw fun u => { u with switch := some { w with thenRestart := some cause } }).put F.MOD_CTL_PENDING 1, true)
    | none =>
      if s.canSwitch then ((s.startSwitch (boundaryAfter s.now 4) 4 (some cause) false).put F.MOD_CTL_PENDING 1, true)
      else (s.put F.MOD_CTL_REFUSED 1, false)
  else (s.restart cause, true)

/-- MOD_RESTART (16 R716). -/
def execModRestart (t : Nat) (s : State) : Res := .next ((s.at t).modRestart 3).1

/-- MOD_FORCE_RESTART (16 R716); a command during hold-up is ignored (16 R722). -/
def State.forceRestart (s : State) : State := if s.on F.MOD_STATUS_HOLDUP then s else s.restart 3

/-- MOD_FORCE_RESTART (16 R716). -/
def execModForceRestart (t : Nat) (s : State) : Res := .next (s.at t).forceRestart

/-- MODULE_RESTART (16 R717), with its cause as MOD_RESET_CAUSE codes it; hold-up ends in a restart of its own (16 R720). -/
def execModuleRestart (cause : Fin 9) (t : Nat) (s : State) : Res :=
  let s0 := s.at t
  .next (if s0.on F.MOD_STATUS_HOLDUP ∨ !s0.pd 0 then s0 else s0.restart cause.val)

/-- A held reset: every domain but PD0 off, RESET_HELD in every badger frame (16 R713). -/
def State.holdReset (s : State) : State :=
  let s1 := if s.on F.EVT_STATUS_RUNNING then s.takeAll else s
  s1.cleared.showNv.tw fun u => { u with resetHeld := true }

/-- RST_IN_HELD (16 R713, R715): during hold-up it waits for the end of the sequence. -/
def execRstInHeld (t : Nat) (s : State) : Res :=
  let s0 := (s.at t).pw fun p => { p with rstHeld := true }
  .next (if s0.on F.MOD_STATUS_HOLDUP ∨ !s0.pd 0 then s0 else s0.holdReset)

/-- RST_IN_RELEASE (16 R714): the module begins at S0 with cause 1, without a power cycle. -/
def execRstInRelease (t : Nat) (s : State) : Res :=
  let s0 := (s.at t).pw fun p => { p with rstHeld := false }
  .next (if s0.twin.resetHeld then (s0.tw fun u => { u with resetHeld := false }).beginS0 1 else s0)

/-! ## Hold-up (16 R719 to R722) -/

/-- HOLD_UP_BEGIN (16 R719): the failing message; the volatile choice and SVC_NEXT cleared; the panel stops its update. -/
def execHoldUpBegin (t : Nat) (s : State) : Res :=
  let s0 := s.at t
  .next (if s0.on F.MOD_STATUS_HOLDUP ∨ !s0.pd 0 then s0 else
    let s1 := ((s0.put F.MOD_STATUS_HOLDUP 1).setFeed 0 (s0.get F.PWR_FEED_A_DV) false).setFeed 1 (s0.get F.PWR_FEED_B_DV) false
    let s2 := ({ s1 with keep := {} }.put F.MOD_CTL_SVC_NEXT 0).inNv fun v => { v with holdups := min (v.holdups + 1) 65535 }
    let s3 := (s2.put F.PWR_HOLDUP_HOLDUPS s2.nv.holdups).pw fun p =>
      { p with holdStep := 1, holdAt := s0.now - 20000, feedsLost := [0, 1], feedOut := [(0, s0.now), (1, s0.now)] }
    let s4 := (s3.pn fun p => { p with stopped := p.stopped || s3.on F.PNL_STATUS_UPDATING }).put F.PNL_STATUS_UPDATING 0
    (s4.raise 0xD003 islSup []).sendFailing 1)

/-- Whether an instant of the hold-up sequence has come, in µs after both feeds fell below the threshold (16 R719). -/
def State.heldFor (s : State) (us : Nat) : Bool := decide (s.now ≥ s.pwr.holdAt + us * 1000)

/-- LAST_WORDS_COMPLETE (16 R719, 09 R425): at t0 + 1 ms the last-words record is complete and the recorder's raises stand in
the tail. -/
def execLastWordsComplete (t : Nat) (s : State) : Res :=
  let s0 := s.at t
  .next (if s0.pwr.holdStep ≠ 1 ∨ !s0.heldFor 1000 then s0 else
    let s1 := if s0.on F.EVT_STATUS_RUNNING then s0.takeAll else s0
    let lw : LastWords :=
      { valid := true, epoch := if s1.nv.lastWords.valid then max s1.epoch s1.nv.lastWords.epoch else s1.epoch,
        lineTime := if s1.on F.TIM_STATUS_STARTED then s1.now else s1.nv.lastWords.lineTime, opsec := s1.nv.opsec,
        pwrcyc := s1.nv.pwrcyc, cause := getBits s1.nv.causeWord 0 4, faults := s1.recd.faults.map (fun f => f.code) }
    (s1.inNv fun v => { v with lastWords := lw }).pw fun p => { p with holdStep := 2 })

/-- HOLD_UP_POWER_DOWN (16 R719): at t0 + 3 ms every domain except PD0 and PD1 off. -/
def execHoldUpPowerDown (t : Nat) (s : State) : Res :=
  let s0 := s.at t
  .next (if (s0.pwr.holdStep ≠ 1 ∧ s0.pwr.holdStep ≠ 2) ∨ !s0.heldFor 3000 then s0 else
    let s1 := ((s0.cleared.wrN R.PWR_ON 3).put F.MOD_STATUS_HOLDUP 1).showNv
    (s1.tw fun u => { u with failing := true }).pw fun p => { p with holdStep := 3 })

/-- PANEL_DISCHARGE_COMPLETE (16 R719, 18 R772): PD1 off at t0 + 8 ms. -/
def execPanelDischargeComplete (t : Nat) (s : State) : Res :=
  let s0 := s.at t
  .next (if s0.pwr.holdStep ≠ 3 ∨ !s0.heldFor 8000 then s0 else (s0.wrN R.PWR_ON 1).pw fun p => { p with holdStep := 4 })

/-- HOLD_UP_END (16 R719, R720, R715): at t0 + 10 ms PD0 off, or S0 with cause 4 where a feed is qualified; a reset held
meanwhile acts now. -/
def execHoldUpEnd (t : Nat) (s : State) : Res :=
  let s0 := s.at t
  .next (if !s0.on F.MOD_STATUS_HOLDUP ∨ !s0.heldFor 10000 then s0
    else if s0.feedOk then
      let s1 := (s0.tw fun u => { u with failing := false }).beginS0 4
      if s1.pwr.rstHeld then s1.holdReset else s1
    else s0.powerOff)

/-! ## Temperatures (20 R821 to R824) -/

/-- Readings shown in PWR_TEMP: the hottest die sensor, the hotter HBM stack, the base. -/
def State.tempShow (s : State) (die hbm face : Int) : State :=
  let c := fun (x : Int) => (clampInt 0 255 x).toNat
  ((s.put F.PWR_TEMP_DIE_C (c die)).put F.PWR_TEMP_HBM_C (if s.pd 20 || s.pd 21 then c hbm else 0)).put F.PWR_TEMP_FACE_C (c face)

/-- HOT sets after 10 samples at or above its limits and clears below its lower ones (20 R822). -/
def State.tempHot (s : State) (die hbm : Int) : State :=
  if s.pwr.hotRun ≥ 10 ∧ !s.on F.PWR_TEMP_HOT then
    ((s.put F.PWR_TEMP_HOT 1).put F.PWR_TEMP_HOT_SEEN 1).raise 0xD030 islSup (le 4 (ofSigned 32 die) ++ le 4 (ofSigned 32 hbm))
  else if s.on F.PWR_TEMP_HOT ∧ die < 95 ∧ hbm < 85 then (s.put F.PWR_TEMP_HOT 0).raise 0xD032 islSup []
  else s

/-- TEMPERATURE_SAMPLE (20 R821 to R824): readings in °C every 1 ms; 10 samples in a row are 10 ms. -/
def execTemperatureSample (die hbm face : Int) (t : Nat) (s : State) : Res :=
  let s0 := (s.at t).tempShow die hbm face
  let h : Int := if s0.pd 20 || s0.pd 21 then hbm else -273
  let s1 := s0.pw fun p => { p with
    hotRun := if die ≥ 100 ∨ h ≥ 90 then p.hotRun + 1 else 0
    critRun := if die ≥ 110 ∨ h ≥ 95 then p.critRun + 1 else 0, hot := p.hot && decide (face ≥ 60) }
  let s2 := s1.tempHot die h
  .next (if !(s.at t).pd 0 then s.at t else if s2.pwr.critRun ≥ 10 ∧ !s2.on F.MOD_STATUS_HOLDUP then
      ((s2.raise 0xD031 islSup []).restart 6).pw fun p => { p with hot := decide (face ≥ 60) }
    else s2)

end Sys2Proof.Machine
end

