-- ==== Sys2Proof/Machine/Summary.lean ====
section
/-! DEFINITION. The summary (17 R739 to R744). -/
namespace Sys2Proof.Machine

/-- A word whose source domain is off reads zero (17 R744, 16 R706). -/
def State.fed (s : State) (d w : Nat) : Nat := if s.pd d then w else 0

/-- A register word as summary bytes. -/
def State.sw (s : State) (d off : Nat) : List Byte := le 4 (s.fed d (s.rdN off))

/-- A total of the summary, kept in a domain (17 R743, R744). -/
def State.tot (s : State) (d off : Nat) : Nat := s.fed d (tget 0 s.mgmt.totals off)

/-- Identity of module and image, stage, SNAP_COUNT: bytes 0x000 to 0x03F. -/
def State.sumHead (s : State) (snap : Nat) : List Byte :=
  [0x51, 0x53, 0x55, 0x4D] ++ le 2 1 ++ le 2 s.nv.issue ++ le 8 s.nv.serial ++ le 2 s.nv.compat ++ le 1 (b2n s.twinB) ++
    le 1 (b2n s.nv.variant) ++ le 4 0 ++ pad 16 s.image.ident ++ le 8 s.image.projectId ++ le 4 s.image.build ++
    le 1 (s.rdN R.IMG_STATUS % 32) ++ le 1 (s.rdN R.MOD_STATUS % 64) ++ le 2 0 ++ le 8 snap

/-- Pair: bytes 0x040 to 0x07F. -/
def State.sumPair (s : State) : List Byte :=
  [R.TWN_STATUS, R.TWN_EPOCH, R.TWN_PARTNER_EPOCH, R.TWN_JOIN, R.TWN_REVERT].flatMap (s.sw 8) ++ s.sw 0 R.IMG_HO_STATUS ++
    [R.TWN_LAST_CHANGE, R.TWN_LAST_COUNT].flatMap (s.sw 8) ++ List.replicate 32 0

/-- Bits of a list of indices where a condition holds. -/
def bitsWhere (n : Nat) (f : Nat → Bool) : Nat := flags ((List.range n).map (fun i => (i, f i)))

/-- Cluster pairs SPARED and FAILED. -/
def State.clusterBits (s : State) : Nat :=
  bitsWhere 16 (fun p => decide (s.get (F.LPE_HEALTH_STATE p) = 1)) +
    65536 * bitsWhere 16 (fun p => decide (s.get (F.LPE_HEALTH_STATE p) = 2))

/-- Whether a quadrant of loop clusters is powered. -/
def State.loopsOn (s : State) : Bool := s.pd 14 || s.pd 15 || s.pd 16 || s.pd 17

/-- Cycle, signal image and loop engine: bytes 0x080 to 0x0BF. -/
def State.sumCycle (s : State) : List Byte :=
  let lp := fun w => le 4 (if s.loopsOn then w else 0)
  s.sw 22 R.CYC_STATUS ++ le 4 (s.tot 22 0x084) ++ le 4 (s.tot 22 0x088) ++ le 4 (s.tot 22 0x08C) ++
    le 2 (s.fed 22 (s.image.parts.filter (fun r => s.get (F.CYC_PSTATE_STATE r.part) = 7)).length) ++ s.sw 22 R.SIG_FORCE_COUNT ++
    le 1 (s.fed 22 (s.rdN R.SIG_STATUS % 256)) ++ le 1 0 ++ lp (s.rdN R.LPE_STATUS) ++ lp (s.rdN R.LPE_USE) ++
    lp (s.rdN R.LPE_SPARE) ++ le 2 (s.fed 22 (s.get F.CYC_T_AGREE_LAST)) ++ le 2 (s.fed 22 (s.get F.CYC_T_STAGE_LAST)) ++
    le 4 (s.fed 22 (bitsWhere 32 (fun c => decide (s.get (F.CYC_CORE_STATE c) = 2)))) ++ lp s.clusterBits ++ List.replicate 16 0

/-- grandmasterIdentity of a domain, zero while it is unusable. -/
def State.gmOf (s : State) (d : Nat) : Nat :=
  let k := (s.time.doms[d]?).getD {}
  if k.usable then k.gm.getD 0 else 0

/-- Time: bytes 0x0C0 to 0x0FF. -/
def State.sumTime (s : State) : List Byte :=
  [R.TIM_STATUS, R.TIM_OFS_MADDER, R.TIM_OFS_WOAD, R.TIM_MW, R.TIM_ADJ, R.TIM_TWIN_OFS, R.TIM_HOLD, R.TIM_UTC].flatMap (s.sw 6) ++
    le 8 (s.fed 6 (s.gmOf 0)) ++ le 8 (s.fed 6 (s.gmOf 1)) ++ List.replicate 16 0

/-- Power, counters, local I/O, links and fabric: bytes 0x100 to 0x13F. -/
def State.sumPower (s : State) : List Byte :=
  [R.MOD_STATUS, R.MOD_RESET_CAUSE, R.PWR_ON, R.PWR_USE, R.PWR_FAULT, R.PWR_FEED, R.PWR_INPUT, R.PWR_HOLDUP].flatMap
      (fun o => le 4 (s.rdN o)) ++
    le 8 s.nv.opsec ++ le 4 s.nv.pwrcyc ++ s.sw 2 R.DIO_STATUS ++ s.sw 9 R.LNK_STATUS ++ s.sw 22 R.FAB_STATUS ++ le 8 0

/-- Change sets: bytes 0x140 to 0x17F. -/
def State.sumSets (s : State) : List Byte :=
  s.sw 22 R.IMG_CS_STATUS ++ s.sw 22 R.IMG_CS_LAST ++ pad 16 (s.cs.flatMap (fun c => le 4 c.num)) ++
    pad 16 (s.cs.flatMap (fun c => le 4 c.named)) ++ le 4 (s.tot 22 0x168) ++ le 4 (s.tot 22 0x16C) ++ List.replicate 16 0

/-- Recorder: bytes 0x180 to 0x1FF. -/
def State.sumEvents (s : State) : List Byte :=
  le 8 (s.rd64 R.EVT_HEAD) ++ le 8 (s.rd64 R.EVT_OLDEST) ++ le 8 (s.rd64 R.EVT_ARCH) ++ le 4 (s.tot 22 0x198) ++
      le 4 (s.tot 22 0x19C) ++
    le 2 s.recd.faults.length ++ le 2 (min s.recd.unlisted 65535) ++ List.replicate 92 0

/-- A ring entry: 32 bytes. -/
def State.sumRing (s : State) (n : Nat) : List Byte :=
  let o := 0x200 + 32 * n
  let d := 10 + n / 4
  s.sw d (R.RNG_STATUS n) ++ s.sw d (R.RNG_CFG n) ++ le 4 (s.tot d (o + 8)) ++ le 4 (s.tot d (o + 12)) ++ le 4 (s.tot d (o + 16)) ++
    s.sw d (R.RNG_LOOP n) ++ s.sw d (R.RNG_SCHED n) ++ le 2 (s.tot d (o + 28)) ++ le 2 (s.tot d (o + 30))

/-- The active faults in the order of the summary: Error before Warning, within a severity by SEQ, highest first (17 R755). -/
def topFaults (l : List ActiveFault) : List ActiveFault :=
  let s := sortBy (fun (f : ActiveFault) => 2 ^ 64 - f.seq) l
  sortBy (fun (f : ActiveFault) => 2 - f.severity) s

/-- A fault entry: 32 bytes. -/
def ActiveFault.entry (f : ActiveFault) : List Byte :=
  le 8 f.seq ++ le 2 f.code ++ le 1 f.severity ++ le 1 f.island ++ le 4 f.count ++ le 8 f.opsec ++ pad 8 (f.data.take 8)

/-- Bytes 0x000 to 0xFFB. -/
def State.sumBody (s : State) (snap : Nat) : List Byte :=
  s.sumHead snap ++ s.sumPair ++ s.sumCycle ++ s.sumTime ++ s.sumPower ++ s.sumSets ++ s.sumEvents ++
    (List.range 16).flatMap s.sumRing ++ pad 512 (((topFaults s.recd.faults).take 16).flatMap ActiveFault.entry) ++
    List.replicate 2556 0

/-- A new snapshot with its CRC (17 R739, R744). -/
def State.snapshot (s : State) (snap : Nat) : State :=
  let b := s.sumBody snap
  s.mg fun m => { m with snapshot := b ++ le 4 (crc32c b) }

/-- The snapshot at boundary `n`, where it is a C5 boundary (17 R739). -/
def State.snapBoundary (s : State) (n : Nat) : State := if isBoundary 5 n then s.snapshot n else s

/-- A timed snapshot is due: from S1 on, before the first boundary of a sequence, 1 ms after the one before; line time that runs
back over a restart ends the wait (17 R740). -/
def State.snapDue (s : State) : Bool :=
  s.pd 22 && (!s.time.running || s.time.fresh) &&
    (match s.mgmt.snapAt with
     | some a => decide (s.now < a) || decide (a + 1000000 ≤ s.now)
     | none => true)

end Sys2Proof.Machine
end

