-- ==== Sys2Proof/Machine/Panel.lean ====
section
/-! DEFINITION. The front panel: what the display shows, its updates and checks, the lamps, the reset button (18). -/
namespace Sys2Proof.Machine

/-! ## Display (18 R764 to R769) -/

/-- Any byte outside printable ASCII is drawn as "?" (18 R764). -/
def printable (b : List Byte) : List Byte := b.map (fun c => if 0x20 ≤ c.toNat ∧ c.toNat ≤ 0x7E then c else 0x3F)

/-- The fault lines of a snapshot: entries 0 to 3 in use, with the PANEL text of the code (18 R764, R765). -/
def faultLines (b : List Byte) (p : PanelSec) : List (Nat × Nat × List Byte × Nat) :=
  (List.range 4).filterMap (fun i =>
    let o := 0x400 + 32 * i
    let c := field b (o + 8) 2
    if field b o 8 = 0 then none
    else some (c, field b (o + 10) 1, printable (((p.texts.find? (fun e => e.1 = c)).map (fun e => e.2)).getD []),
      field b (o + 12) 4))

/-- The image that the latest snapshot renders, the stamp left out (18 R764, R767, R777). MARK: DESIGN CHOICE, safe: the bands
stand as what they say, not as pixels (assumption 22). -/
def State.render (s : State) : PanelImage :=
  let b := s.mgmt.snapshot
  let tw := field b 0x40 4
  let ti := field b 0xC0 4
  let cause := field b 0x104 4
  { name := printable s.image.panel.name, twinB := field b 0x12 1 = 1, role := tw % 4, tstate := bitsOf tw 4 4, epoch := field b 0x44 4,
    confirm := s.on F.PNL_STATUS_CONFIRM, profile := if bitOf (field b 0x34 1) 2 then none else some (field b 0x34 1 % 4),
    ident := (b.drop 0x18).take 4, reduced := if bitOf (field b 0x35 1) 3 then some (bitsOf (field b 0x35 1) 4 2) else none,
    refused := if bitsOf tw 4 4 = 6 then some (s.twin.partnerSlot, s.twin.partnerImage.take 4) else none, timeState := ti % 8,
        quality := bitsOf ti 3 2,
    holdover := bitOf ti 5, faults := faultLines b s.image.panel,
    failed := if s.pwr.s1Failures = 0 then none else some (bitsOf cause 8 3, bitsOf cause 12 5),
    forces := if bitOf (field b 0x96 1) 0 then some (field b 0x92 2) else none, reducedPair := bitOf (field b 0x54 4) 4 }

/-- Whether the image that the current snapshot would render differs from the one last written (18 R767). -/
def State.panelChange (s : State) : Bool := decide (s.render ≠ s.panel.shown)

/-- The test for a change at a C5 boundary (18 R767). -/
def State.panelTest (s : State) : State :=
  if s.pd 1 ∧ s.panelChange ∧ !s.on F.MOD_STATUS_HOLDUP then s.put F.PNL_STATUS_PENDING 1 else s

/-- Whether an update may start now: 5 s after the start of the previous one, the first at once; a rewrite under PANEL_FAULT
after 60 s (18 R768, R769, R771). -/
def State.panelMay (s : State) : Bool :=
  s.pd 1 && !s.on F.MOD_STATUS_HOLDUP && !s.on F.PNL_STATUS_UPDATING &&
  (match s.panel.lastStart with
   | none => true
   | some a =>
     let wait := if s.on F.PNL_STATUS_PANEL_FAULT && !s.on F.PNL_STATUS_PENDING then 60000000000 else 5000000000
     (s.on F.PNL_STATUS_PENDING || s.panel.rewrite) && decide (s.now ≥ a + wait))

/-- PANEL_UPDATE_START (18 R768, R769, R771): it renders the snapshot current at that instant; a rewrite alone writes the same
image again. -/
def execPanelUpdateStart (t : Nat) (s : State) : Res :=
  let s0 := s.at t
  .next (if !s0.panelMay then s0 else
    let same := s0.panel.rewrite && !s0.on F.PNL_STATUS_PENDING && s0.panel.lastStart.isSome
    let s1 := s0.pn fun p => { p with lastStart := some s0.now, stopped := false, shown := if same then p.shown else s0.render,
                                      stamp := if same then p.stamp else (s0.nv.opsec, s0.nv.pwrcyc) }
    (s1.put F.PNL_STATUS_PENDING 0).put F.PNL_STATUS_UPDATING 1)

/-- A check of the frame memory (18 R770, R771): after a rewrite, or not. -/
def State.frameCheck (s0 : State) (ok after : Bool) : State :=
  let s := s0.pn fun p => { p with checkAt := some s0.now }
  if ok then
    let s1 := s.pn fun p => { p with rewrite := false }
    if s1.on F.PNL_STATUS_PANEL_FAULT then (s1.put F.PNL_STATUS_PANEL_FAULT 0).raise 0xE012 islPanel [] else s1
  else
    let s1 := s.bump F.PNL_STATUS_CRC_FAILS 1
    if !s.panel.rewrite then (s1.pn fun p => { p with rewrite := true }).raise 0xE010 islPanel []
    else if after ∧ !s.on F.PNL_STATUS_PANEL_FAULT then (s1.put F.PNL_STATUS_PANEL_FAULT 1).raise 0xE011 islPanel []
    else s1

/-- PANEL_UPDATE_COMPLETE (18 R768, R770): 600 ms after its start the update ends and its frame memory is checked. -/
def execPanelUpdateComplete (crcOk : Bool) (t : Nat) (s : State) : Res :=
  let s0 := s.at t
  .next (if s0.on F.PNL_STATUS_UPDATING ∧ s0.now ≥ s0.panel.lastStart.getD 0 + 600000000 then
      ((s0.put F.PNL_STATUS_UPDATING 0).step1 F.PNL_UPDATES_UPDATES).frameCheck crcOk true
    else s0)

/-- PANEL_CHECK (18 R770): 60 s after the check before; one that falls due during an update runs when the update ends. -/
def execPanelCheck (crcOk : Bool) (t : Nat) (s : State) : Res :=
  let s0 := s.at t
  let due := s0.panel.checkAt.all (fun a => decide (s0.now ≥ a + 60000000000))
  .next (if s0.pd 1 ∧ !s0.on F.PNL_STATUS_UPDATING ∧ !s0.on F.MOD_STATUS_HOLDUP ∧ due then s0.frameCheck crcOk false else s0)

/-! ## Lamps (18 R775): 0 off, 1 green, 2 amber, 3 amber flashing, 4 red -/

/-- The rightmost column that holds. -/
def lampOf (green amber flash red : Bool) : Nat := if red then 4 else if flash then 3 else if amber then 2 else if green then 1
    else 0

/-- RUN. -/
def State.lampRun (s : State) : Nat :=
  let n := s.get F.MOD_STATUS_STAGE
  lampOf (decide (n = 6)) (s.on F.MOD_STATUS_REDUCED) (decide (1 ≤ n) && decide (n ≤ 5)) (decide (n = 0) &&
      decide (s.pwr.s1Failures ≥ 3))

/-- ROLE. -/
def State.lampRole (s : State) : Nat :=
  let t := s.tstate
  lampOf (decide (t = 1)) (decide (t = 3)) (decide (t = 2) || decide (t = 4) || decide (t = 5)) (decide (t ≥ 6))

/-- FAULT. -/
def State.lampFault (s : State) : Nat :=
  lampOf false (s.recd.faults.any (fun f => f.severity = 1)) false (s.recd.faults.any (fun f => f.severity = 2))

/-- TIME. -/
def State.lampTime (s : State) : Nat :=
  let q := s.get F.TIM_STATUS_QUALITY
  let st := s.get F.TIM_STATUS_STATE
  lampOf (decide (q = 0)) (decide (q = 1)) (decide (st = 0) || decide (st = 5)) (decide (q = 2))

/-- RING. -/
def State.lampRing (s : State) : Nat :=
  let l := s.image.rings.map (fun r => r.ring)
  let st := fun r => s.get (F.RNG_STATUS_STATE r)
  lampOf (decide (l ≠ []) && l.all (fun r => st r = 3))
    (l.any (fun r => decide (st r = 4) || decide (st r = 5) || s.on (F.RNG_STATUS_NOISY r) || s.on (F.RNG_STATUS_ABSENT r))) false
    (l.any (fun r => decide (st r = 6) || s.on (F.RNG_STATUS_SCHED_OPEN r)))

/-- PNL_LAMPS: the lamps follow their sources; dark while PD1 is off, all amber during the lamp test. -/
def State.lamps (s : State) : Nat :=
  if !s.pd 1 then 0
  else if s.panel.lampTest then 0x12492
  else s.lampRun + 8 * s.lampRole + 64 * s.lampFault + 512 * lampOf false (s.on F.SIG_STATUS_FORCES_ON) false false +
    4096 * s.lampTime + 32768 * s.lampRing

/-- LAMP_TEST_END (18 R775): 1 s after the lamp test began at S1. -/
def execLampTestEnd (t : Nat) (s : State) : Res :=
  let s0 := s.at t
  .next (if s0.now < s0.panel.lampTill then s0 else s0.pn fun p => { p with lampTest := false })

/-! ## Reset button (18 R776 to R781) -/

/-- A press of 0.1 s to 2 s (18 R777, R778, R781). MARK: DEDUCED: a module that reduced service holds in S2 is not in bring-up
(assumption 109). -/
def State.press (s : State) : State :=
  if s.get F.MOD_STATUS_STAGE < 5 ∧ !s.on F.MOD_STATUS_REDUCED then s.restart 2
  else if s.isActive then
    if s.on F.PNL_STATUS_CONFIRM then (s.put F.PNL_STATUS_CONFIRM 0).restart 2
    else if s.ptstate = 3 then
      let r := s.modRestart 2
      if r.2 then r.1.pn fun p => { p with byButton := true } else r.1.armConfirm
    else s.armConfirm
  else s.restart 2

/-- BUTTON_RELEASE (18 R776 to R781): a debounced press of `ms` milliseconds. -/
def execButtonRelease (ms : Nat) (t : Nat) (s : State) : Res :=
  let s0 := s.at t
  .next (if s0.on F.MOD_STATUS_HOLDUP ∨ s0.on F.PNL_STATUS_STUCK ∨ ms < 100 ∨ 10000 < ms then s0
    else if 2000 < ms then s0.raise 0xE023 islSup []
    else s0.press)

/-- BUTTON_STUCK (18 R780). -/
def execButtonStuck (t : Nat) (s : State) : Res :=
  let s0 := s.at t
  .next (if s0.on F.MOD_STATUS_HOLDUP ∨ s0.on F.PNL_STATUS_STUCK then s0 else (s0.put F.PNL_STATUS_STUCK 1).raise 0xE022 islSup [])

/-- BUTTON_UNSTUCK (18 R780). -/
def execButtonUnstuck (t : Nat) (s : State) : Res :=
  let s0 := s.at t
  .next (if s0.on F.PNL_STATUS_STUCK then (s0.put F.PNL_STATUS_STUCK 0).raise 0xE024 islSup [] else s0)

/-- CONFIRM_EXPIRY (18 R778). -/
def execConfirmExpiry (t : Nat) (s : State) : Res :=
  let s0 := s.at t
  .next (if s0.on F.PNL_STATUS_CONFIRM ∧ s0.now ≥ s0.panel.confirmTill then
      (s0.put F.PNL_STATUS_CONFIRM 0).raise 0xE021 islSup (le 4 2)
    else s0)

end Sys2Proof.Machine
end

