-- ==== Sys2Proof/Machine/Time.lean ====
section
/-! DEFINITION. Line time: domains, the servo reference, time start, time restarts, PTP messages, pulses (10). -/
namespace Sys2Proof.Machine

/-! ## Domains (10 R487 to R489) -/

/-- A domain: 0 Madder, 1 Woad. -/
def State.dom (s : State) (d : Nat) : Domain := (s.time.doms[d]?).getD {}

/-- The state with a domain changed. -/
def State.setDom (s : State) (d : Nat) (k : Domain) : State := s.tm fun u => { u with doms := u.doms.set d k }

/-- A signed 32-bit register, saturating (10 TIM_OFS_MADDER). -/
def State.wrI (s : State) (off : Nat) (v : Int) : State := s.wrN off (ofSigned 32 (clampInt (-2147483647) 2147483647 v))

/-- TIM_OFS of a domain. -/
def timOfs (d : Nat) : Nat := if d = 0 then R.TIM_OFS_MADDER else R.TIM_OFS_WOAD

/-- The domain in force: Madder, Woad or none (10 R490). -/
def State.followed (s : State) : Option Nat :=
  match s.get F.TIM_STATUS_STATE with
  | 1 => some 0
  | 2 => some 1
  | _ => none

/-- The Announce information of the grandmaster that a domain follows. -/
def Domain.ann (k : Domain) : AnnMsg := match k.slave with
  | some p => (tget none k.anns p).getD {}
  | none => {}

/-- QUALITY (10 R494). -/
def State.quality (s : State) : Nat :=
  match s.get F.TIM_STATUS_STATE with
  | 1 => 0
  | 2 => 0
  | 3 => s.time.partnerQ
  | 4 => if s.time.degraded then 2 else 1
  | _ => 3

/-- The registers of the time unit follow its state (10 Registers). -/
def State.timeShow (s : State) : State :=
  let s1 := (s.put F.TIM_STATUS_QUALITY s.quality).putB F.TIM_STATUS_HOLDOVER
    (decide (s.get F.TIM_STATUS_STATE = 4) || (decide (s.get F.TIM_STATUS_STATE = 3) && s.time.partnerHold))
  let s2 := (s1.putB F.TIM_STATUS_MADDER_OK (s1.dom 0).usable).putB F.TIM_STATUS_WOAD_OK (s1.dom 1).usable
  let s3 := (s2.putB F.TIM_STATUS_SLEWING (decide (s2.time.slewLeft ≠ 0))).putB F.TIM_STATUS_TIME_FAR
    (decide (s2.time.slewLeft.natAbs > 1000000))
  let s4 := (s3.wrI R.TIM_OFS_MADDER (if (s3.dom 0).usable then (s3.dom 0).offset else 0)).wrI R.TIM_OFS_WOAD
    (if (s3.dom 1).usable then (s3.dom 1).offset else 0)
  match s4.followed with
  | some d =>
    let a := (s4.dom d).ann
    ((s4.putB F.TIM_STATUS_ARB a.arb).put F.TIM_UTC_UTC_OFS (ofSigned 16 a.utc)).putB F.TIM_UTC_UTC_VALID a.utcValid
  | none => s4

/-- A domain becomes unusable (10 R488). -/
def State.domFail (s : State) (d : Nat) : State := (s.setDom d { s.dom d with usable := false, since := none }).timeShow

/-- A receipt check fails (10 R488): event 0x8010 with the check, 1 for receipt, or 0x8013. -/
def State.receiptFail (s : State) (d : Nat) : State :=
  (s.domFail d).raise (if d = 0 then 0x8010 else 0x8013) islTime (if d = 0 then le 4 1 else [])

/-- All that line time has been slewed by up to now: what the C5 boundaries so far have counted, and the current period's part at
SLEW_PPM, no more than is left (10 R488, R492). -/
def State.slewedNow (s : State) : Int :=
  let n : Int := (s.image.time.slewPpm * (s.now - boundaryNs (s.count / 32 * 32)) / 1000000 : Nat)
  s.time.slewed + (if s.time.slewLeft > 0 then min n s.time.slewLeft else -(min n (-s.time.slewLeft)))

/-- The change of a domain's offset since its latest Sync that the slew accounts for (10 R488). -/
def State.slewAccount (s : State) (d : Nat) : Int := (s.dom d).slewed - s.slewedNow

/-- Offset of a domain brought to this instant (10 R489). -/
def State.offsetNow (s : State) (d : Nat) : Int := (s.dom d).offset + s.slewAccount d

/-- Whether the jump check fails (10 R488). -/
def State.jumps (s : State) (d : Nat) (ofs : Int) : Bool :=
  (s.dom d).hasOffset && decide ((ofs - s.offsetNow d).natAbs > s.image.time.jumpNs)

/-- Whether the cross check fails with a difference of Madder and Woad (10 R488). -/
def State.crossFails (s : State) (mw : Int) : Bool :=
  (s.time.mwHist.filter (fun e => s.now ≤ e.1 + 1000000000)).any (fun e => decide ((mw - e.2).natAbs > s.image.time.jumpNs))

/-- D_MW after a Woad Sync: the mean of the last 16 readings (10 R489). -/
def State.trackMw (s : State) (mw : Int) : State :=
  let l := (mw :: s.time.mw).take 16
  (s.tm fun u => { u with mw := l }).wrI R.TIM_MW (l.foldl (fun a b => a + b) 0 / l.length)

/-- The measured rate of a domain against the oscillator in ppb, from one offset to the next over `dt` ns of line time (10 R488). -/
def State.domRate (s : State) (d : Nat) (ofs : Int) (dt : Nat) : Int :=
  let k := s.dom d
  if k.hasOffset ∧ dt > 0 then (ofs - k.offset) * 1000000000 / dt + toSigned 32 (s.rdN R.TIM_ADJ) else k.rate

/-- A Sync with its Follow_Up on the slave port: offset of domain time from line time in ns (10 R487 to R489). -/
def State.syncDone (s : State) (d : Nat) (ofs : Int) : State :=
  let both := (s.dom 0).usable && (s.dom 1).usable
  let jump := s.jumps d ofs
  let k := s.dom d
  let rate := s.domRate d ofs (s.now - k.at_)
  let fast := decide (rate.natAbs > 200000)
  let s1 := s.setDom d { k with offset := ofs, at_ := s.now, hasOffset := true, syncOk := true, rate := rate, slewed := s.slewedNow,
                                since := if k.since.isNone then some s.now else k.since }
  if jump || fast then (s1.domFail d).raise 0x8041 islTime []
  else if both then
    let mw := s1.offsetNow 0 - s1.offsetNow 1
    let s2 := s1.tm fun u => { u with mwHist := (s.now, mw) :: u.mwHist.filter (fun e => s.now ≤ e.1 + 1000000000) }
    if s1.crossFails mw then ((s2.tm fun u => { u with mwHist := [] }).domFail 0).raise 0x8041 islTime []
    else (if d = 1 then s2.trackMw mw else s2).timeShow
  else s1.timeShow

/-! ## PTP messages (10 R477 to R484) -/

/-- Whether the time protocol runs on a port (10 R509): 0 to 15 ring, 16 up, 17 to 19 down, 20 and 21 plant. -/
def State.ptpOn (s : State) (port : Nat) : Bool := !s.image.time.ports.any (fun p => decide (p.port = port) && p.off)

/-- Whether a port can be in the slave state: the up line port and the plant ports (10 R478). -/
def canSlave (port : Nat) : Bool := decide (port = 16) || decide (port = 20) || decide (port = 21)

/-- A PTP port. -/
def State.ptpPort (s : State) (p : Nat) : PtpPort := tget {} s.time.ports p

/-- The state with a PTP port changed. -/
def State.setPtp (s : State) (p : Nat) (k : PtpPort) : State := s.tm fun u => { u with ports := tset {} u.ports p k }

/-- Whether messages of a domain on a port are used: domains 0 and 1 only, the protocol on, the port its slave port. -/
def State.fromSlave (s : State) (port d : Nat) : Bool :=
  decide (d < 2) && s.ptpOn port && decide ((s.dom d).slave = some port)

/-! ### Timestamps (10 R482 to R485) -/

/-- A timestamp corrected by linear interpolation between the errors of the estimate at the boundary messages around it, in ps
(10 R482). -/
def Stamp.corrected (x : Stamp) : Int := x.raw - (x.before + (x.after - x.before) * (x.raw % 31250000) / 31250000)

/-- Whether a timestamp can be delivered: the boundary message after it has come. Before time start there are none, and it is
delivered as it is (10 R482, R496). -/
def State.stamped (s : State) (x : Stamp) : Bool := !s.time.running || decide (x.raw / 31250000 + 1 ≤ (s.count : Int))

/-- The port record of TIME; zero asymmetry and latencies where it has none (10 R509). -/
def State.timePort (s : State) (p : Nat) : TimePort := (s.image.time.ports.find? (fun x => x.port = p)).getD { port := p }

/-- An egress timestamp with the latencies of the port and of its optics, in ps (10 R483, 14 R655). -/
def State.egress (s : State) (p : Nat) (x : Stamp) : Int := x.corrected + s.calWord (48 + 2 * p) + (s.timePort p).txPs

/-- An ingress timestamp without the latencies of the port and of its optics, in ps (10 R483, 14 R655). -/
def State.ingress (s : State) (p : Nat) (x : Stamp) : Int := x.corrected - s.calWord (49 + 2 * p) - (s.timePort p).rxPs

/-! ### Messages -/

/-- A Sync is complete: origin and correction of the message in ps, its ingress timestamp; with the delay from the neighbour they
give the offset (10 R479, R484, R487). -/
def State.syncTaken (s : State) (port d : Nat) (origin corr rx : Int) : State :=
  let s1 := s.syncDone d ((origin + corr + (s.ptpPort port).fromPs - rx) / 1000)
  s1.setDom d { s1.dom d with synced := true, origin := origin, corr := corr, rxPs := rx }

/-- PTP_SYNC_RX (10 R477, R482, R487, R488): a one-step Sync with its origin and correction in ps, or a two-step Sync that waits
for its Follow_Up; its raw ingress timestamp. -/
def execPtpSyncRx (port : Fin 22) (dom : Fin 256) (twoStep : Bool) (origin corr : Int) (rx : Stamp) (t : Nat) (s : State) : Res :=
  let s0 := s.at t
  let i := s0.ingress port.val rx
  .next (if !s0.fromSlave port.val dom.val ∨ !s0.stamped rx then s0
    else if twoStep then
      let k := s0.ptpPort port.val
      s0.setPtp port.val { k with syncWait := (dom.val, i) :: k.syncWait.filter (fun x => x.1 ≠ dom.val) }
    else s0.syncTaken port.val dom.val origin corr i)

/-- PTP_FOLLOW_UP_RX (10 R477, R487, R488): it completes the Sync that waits for it. -/
def execPtpFollowUpRx (port : Fin 22) (dom : Fin 256) (origin corr : Int) (t : Nat) (s : State) : Res :=
  let s0 := s.at t
  let k := s0.ptpPort port.val
  .next (if !s0.fromSlave port.val dom.val then s0
    else match k.syncWait.find? (fun x => x.1 = dom.val) with
      | some x => (s0.setPtp port.val { k with syncWait := k.syncWait.filter (fun y => y.1 ≠ dom.val) }).syncTaken port.val
          dom.val origin corr x.2
      | none => s0)

/-- One Announce is better than another: priority1, class, accuracy, variance, priority2, identity, steps removed, sender, port, the
smaller first (10 R477, the default BMCA). -/
def AnnMsg.key (a : AnnMsg) (port : Nat) : List Nat :=
  [a.prio1, a.clockClass, a.accuracy, a.variance, a.prio2, a.gm, a.steps, a.sender, port]

/-- Order of two keys. -/
def keyLt : List Nat → List Nat → Bool
  | a :: t, b :: u => decide (a < b) || (decide (a = b) && keyLt t u)
  | _, _ => false

/-- The best of the ports that hold Announce information. -/
def bestPort : List (Nat × Option AnnMsg) → Option Nat
  | [] => none
  | (_, none) :: t => bestPort t
  | (p, some a) :: t =>
    match bestPort t with
    | none => some p
    | some q => match t.find? (fun e => e.1 = q) with
      | some (_, some b) => if keyLt (b.key q) (a.key p) then some q else some p
      | _ => some p

/-- Best master selection of a domain (10 R477, R478), and the grandmaster check (10 R488). -/
def State.bmca (s : State) (d : Nat) : State :=
  let k := s.dom d
  let sl := bestPort (k.anns.filter (fun e => canSlave e.1))
  let k1 := { k with slave := sl, synced := k.synced && decide (k.slave = sl) }
  match sl with
  | none => ((s.setDom d k1).domFail d)
  | some _ =>
    let g := k1.ann.gm
    let s1 := s.setDom d { k1 with gm := some g, annOk := true }
    if k.gm.isSome ∧ k.gm ≠ some g then (s1.domFail d).raise 0x8040 islTime [] else s1.timeShow

/-- PTP_ANNOUNCE_RX (10 R477, R478, R488). -/
def execPtpAnnounceRx (port : Fin 22) (dom : Fin 256) (a : AnnMsg) (t : Nat) (s : State) : Res :=
  let s0 := s.at t
  .next (if dom.val < 2 ∧ s0.ptpOn port.val ∧ canSlave port.val then
      let k := s0.dom dom.val
      (s0.setDom dom.val { k with
        anns := tset none k.anns port.val (some a), annAt := tset 0 k.annAt port.val s0.now }).bmca dom.val
    else s0)

/-- Ports whose Announce information has aged out: 3 s without one (10 R477, R488). -/
def State.agedPorts (s : State) (d : Nat) : List Nat :=
  (keys (s.dom d).anns).filter (fun p => decide (tget 0 (s.dom d).annAt p + 3000000000 ≤ s.now))

/-- PTP_RECEIPT_TIMEOUT (10 R477, R488): no Sync with Follow_Up for 375 ms, or no Announce for 3 s: on the slave port it fails the
domain, on another port it leaves that port's information. -/
def execPtpReceiptTimeout (dom : Fin 2) (announce : Bool) (t : Nat) (s : State) : Res :=
  let s0 := s.at t
  let k := s0.dom dom.val
  .next (if announce then
      let l := s0.agedPorts dom.val
      if l = [] then s0 else
      let lost := k.slave.any (fun p => l.contains p)
      let s1 := if lost then s0.receiptFail dom.val else s0
      let k1 := s1.dom dom.val
      (s1.setDom dom.val { k1 with anns := l.foldl (fun t p => tset none t p none) k1.anns, annOk := k1.annOk && !lost }).bmca dom.val
    else if k.syncOk ∧ s0.now ≥ k.at_ + 375000000 then
      let s1 := s0.receiptFail dom.val
      s1.setDom dom.val { s1.dom dom.val with syncOk := false }
    else s0)

/-- PTP_PDELAY_REQ_RX (10 R477, R482, R483): answered with Pdelay_Resp and Pdelay_Resp_Follow_Up, with the timestamps of the request
in and the response out. -/
def execPtpPdelayReqRx (port : Fin 22) (rx tx : Stamp) (s : State) : Res :=
  .next (if s.ptpOn port.val ∧ s.stamped rx ∧ s.stamped tx then
      (s.send (.ptp 0 port.val 3 [s.ingress port.val rx])).send (.ptp 0 port.val 0xA [s.egress port.val tx])
    else s)

/-- PTP_PDELAY_TX (10 R477): a link delay measurement begins. -/
def execPtpPdelayTx (port : Fin 22) (s : State) : Res :=
  .next (if s.ptpOn port.val then
      (s.setPtp port.val { s.ptpPort port.val with pdelayWait := true, turn := none }).send (.ptp 0 port.val 2 [])
    else s)

/-- PTP_PDELAY_RESP_RX (10 R477, R482, R483): the timestamps of the request out, of the request in at the neighbour in ps, of the
response in. -/
def execPtpPdelayRespRx (port : Fin 22) (t1 : Stamp) (t2 : Int) (t4 : Stamp) (s : State) : Res :=
  let k := s.ptpPort port.val
  .next (if k.pdelayWait ∧ s.stamped t1 ∧ s.stamped t4 then
      s.setPtp port.val { k with turn := some (s.ingress port.val t4 - s.egress port.val t1 + t2) }
    else s)

/-- PTP_PDELAY_RESP_FOLLOW_UP_RX (10 R477, R484): the timestamp of the response out completes meanLinkDelay; ASYM gives the delay
of each direction. -/
def execPtpPdelayRespFollowUpRx (port : Fin 22) (t3 : Int) (s : State) : Res :=
  let k := s.ptpPort port.val
  let a := (s.timePort port.val).asymPs
  .next (match k.turn with
    | some x =>
      let m := (x - t3) / 2
      s.setPtp port.val { k with delayPs := m, fromPs := m + a, toPs := m - a, pdelayWait := false, turn := none }
    | none => s)

/-- PTP_SIGNALING_RX (10 R477): a message interval request is answered with the fixed values: log2 seconds of Sync, Announce
and Pdelay; a ring port has domain 0 alone (R478). -/
def execPtpSignalingRx (port : Fin 22) (dom : Fin 256) (s : State) : Res :=
  .next (if dom.val < 2 ∧ s.ptpOn port.val ∧ (dom.val = 0 ∨ 16 ≤ port.val) then
      s.send (.ptp dom.val port.val 0xC (if port.val < 16 then [-5, -3, 0] else [-3, 0, 0]))
    else s)

/-- clockClass, clockAccuracy and offsetScaledLogVariance that the module advertises; a standby in TWIN those that its active
advertises (10 R480, R494). -/
def State.advertised (s : State) : Nat × Nat × Nat :=
  let twin := decide (s.get F.TIM_STATUS_STATE = 3)
  let arb := if twin then s.time.partnerArb else s.on F.TIM_STATUS_ARB
  match s.quality with
  | 0 =>
    let a := (s.dom (if twin then s.time.partnerDom else (s.followed).getD 0)).ann
    (a.clockClass, a.accuracy, a.variance)
  | 1 => (if arb then 14 else 7, 0x23, Config.logVariance 1)
  | 2 => (if arb then 58 else 52, 0x31, Config.logVariance 2)
  | _ => (248, 0xFE, Config.logVariance 3)

/-- What a relay would announce on a port other than its slave port (10 R477, R479). -/
def AnnMsg.relayed (a : AnnMsg) : AnnMsg := { a with steps := a.steps + 1, sender := Config.clockIdentity }

/-- Whether a relay port of a domain is passive: another relay announces on it what is at least as good as this one would (10 R477,
the default BMCA; R478). -/
def State.relayPassive (s : State) (d port : Nat) : Bool :=
  canSlave port && (match tget none (s.dom d).anns port with
    | some a => !keyLt ((s.dom d).ann.relayed.key port) (a.key port)
    | none => false)

/-- Whether a relay port of a domain is a master port: by best master selection, the down ports always, while the domain has a slave
port (10 R478). -/
def State.relayMaster (s : State) (d port : Nat) : Bool :=
  (s.dom d).slave.isSome && decide ((s.dom d).slave ≠ some port) && !s.relayPassive d port

/-- PTP_SYNC_TX (10 R477 to R480, R482): Sync and Follow_Up on a master port, with the egress timestamp of the Sync: origin and
correction in ps. On a ring port the origin is line time; a relay port forwards its domain's, with link delay and residence time at
the domain's rate added to the correction, once a Sync has come. A module holding NONE sends none on ring ports. -/
def execPtpSyncTx (port : Fin 22) (dom : Fin 2) (tx : Stamp) (t : Nat) (s : State) : Res :=
  let s0 := s.at t
  let k := s0.dom dom.val
  let e := s0.egress port.val tx
  let go := if port.val < 16 then decide (dom.val = 0) && decide (s0.role ≠ 0)
    else s0.relayMaster dom.val port.val && k.synced
  let link := (s0.ptpPort (k.slave.getD 0)).fromPs
  let stay := (e - k.rxPs) * (1000000000 + k.rate - toSigned 32 (s0.rdN R.TIM_ADJ)) / 1000000000
  let body := if port.val < 16 then [e, 0] else [k.origin, k.corr + link + stay]
  .next (if go ∧ s0.ptpOn port.val ∧ s0.stamped tx then
      (s0.send (.ptp dom.val port.val 0 [])).send (.ptp dom.val port.val 8 body)
    else s0)

/-- PTP_ANNOUNCE_TX (10 R478 to R480, R494): on a ring port priority1, clockClass, clockAccuracy, variance, priority2 and
clockIdentity of this module; on a relay port the grandmaster's. -/
def execPtpAnnounceTx (port : Fin 22) (dom : Fin 2) (s : State) : Res :=
  let q := s.advertised
  let a := (s.dom dom.val).ann
  .next (if !s.ptpOn port.val then s
    else if port.val < 16 then
      (if dom.val = 0 then s.send (.ptp 0 port.val 0xB [(if s.isActive then 246 else 247 : Nat), q.1, q.2.1, q.2.2,
        b2n s.twinB, Config.clockIdentity]) else s)
    else if s.relayMaster dom.val port.val then
      s.send (.ptp dom.val port.val 0xB [a.prio1, a.clockClass, a.accuracy, a.variance, a.prio2, a.gm, a.steps + 1])
    else s)

/-- DOMAIN_REQUALIFIED (10 R487): every check has passed for REQUAL_S. -/
def execDomainRequalified (dom : Fin 2) (t : Nat) (s : State) : Res :=
  let s0 := s.at t
  let k := s0.dom dom.val
  .next (match k.since with
    | some f =>
      if k.slave.isSome ∧ k.syncOk ∧ k.annOk ∧ s0.now ≥ f + s0.image.time.requalS * 1000000000 then
        (s0.setDom dom.val { k with usable := true, okAt := if k.usable then k.okAt else s0.now }).timeShow
      else s0
    | none => s0)

/-! ## Time start (10 R496 to R499) -/

/-- Instants kept for intervals of line time move with the step to `new`, so that elapsed time is what they count; offsets from line
time change by the step (10 R476, R501). MARK: DESIGN CHOICE: an instant that would lie before the line epoch stands at the epoch
(assumption 128). -/
def State.shiftTimes (s : State) (new : Nat) : State :=
  let f := fun (x : Nat) => x + new - s.now
  let dt : Int := (new : Int) - s.now
  let s1 := s.tw fun u => { u with lags := u.lags.map f, divs := u.divs.map f, lastChange := u.lastChange.map f,
                                   revertFrom := u.revertFrom.map f, joinStart := f u.joinStart, listenFrom := f u.listenFrom, hoAt := u.hoAt.map f,
                                   foxAt := u.foxAt.map f, badgerRxAt := u.badgerRxAt.map f, badgerAt := u.badgerAt.map f }
  let s2 : State := { s1 with
    parts := tall {} (fun k => { k with aborts := k.aborts.map f, relAt := f k.relAt }) s1.parts
    cores := tall {} (fun k => { k with resets := k.resets.map f, slowOver := k.slowOver.map f }) s1.cores
    rings := tall {} (fun k => if k.everStarted then { k with sinceStart := f k.sinceStart } else k) s1.rings }
  let mv := fun (l : List (Nat × Nat)) => l.map (fun x => (f x.1, x.2))
  let s3 := s2.lp fun u => { u with misses := tall [] mv u.misses, spareMisses := mv u.spareMisses }
  let s4 := s3.lo fun u => { u with
    trips := tall {} (fun k => { k with inactiveSince := f k.inactiveSince, setAt := f k.setAt }) u.trips
    blocks := tall {} (fun k => { k with upAt := f k.upAt, downAt := f k.downAt }) u.blocks
    di := tall {} (fun k => { k with hist := k.hist.map (fun e => (f e.1, e.2)) }) u.di
    modems := tall {} (fun k => { k with sentAt := f k.sentAt, sweptAt := k.sweptAt.map f }) u.modems }
  let s5 := s4.pn fun u => { u with lastStart := u.lastStart.map f, confirmTill := f u.confirmTill, checkAt := u.checkAt.map f,
                                    lampTill := f u.lampTill }
  let s6 := s5.tm fun u => { u with holdFrom := f u.holdFrom, mwHist := u.mwHist.map (fun e => (f e.1, e.2))
                                    doms := u.doms.map (fun k => { k with
                                      at_ := f k.at_, since := k.since.map f, okAt := f k.okAt, annAt := tall 0 f k.annAt
                                      offset := k.offset - dt, rxPs := k.rxPs + 1000 * dt })
                                    ports := tall {} (fun k => { k with syncWait := k.syncWait.map (fun e => (e.1, e.2 + 1000 * dt)) }) u.ports,
                                    ppsAt := u.ppsAt.map f, poweredAt := f u.poweredAt, ageFrom := f u.ageFrom }
  let s7 := s6.pw fun u => { u with stageAt := f u.stageAt, feedAt := f u.feedAt, feedOut := tall 0 f u.feedOut, holdAt := f u.holdAt }
  let bk := tall none (fun o => o.map (fun b => { b with at_ := f b.at_ })) s7.recd.buckets
  let ses := fun (k : Session) => { k with last := f k.last, frags := k.frags.map (fun r => { r with at_ := f r.at_ }) }
  let s8 := s7.mg fun u => { u with snapAt := u.snapAt.map f, sessions := tall none (fun o => o.map ses) u.sessions }
  let s9 := s8.fb fun u => { u with inflight := u.inflight.map (fun e => { e with inj := f e.inj })
                                    tagWaits := u.tagWaits.map (fun e => { e with inj := f e.inj }), tagWaitAt := u.tagWaitAt.map f }
  let tick := fun (n : Nat) => f (1000 * n) / 1000
  { s9 with recd := { s9.recd with
      buckets := bk, accepted := s9.recd.accepted.map (fun x => (x.1, f x.2)), lostTick := s9.recd.lostTick.map tick
      queue := s9.recd.queue.map (fun r => { r with tick := tick r.tick }) } }

/-- Line time is set once and boundaries will run from the first C0 boundary at least 1 ms later (10 R496). -/
def State.beginTime (s : State) (line st : Nat) : State :=
  let s1 := s.shiftTimes line
  let s2 := { s1 with now := line }
  let s3 := s2.tm fun u => { u with running := true, fresh := true, firstN := (line + 1000000 + 31249) / 31250, step := none,
                                    ageFrom := line, slewLeft := 0 }
  (((s3.put F.TIM_STATUS_STATE st).put F.TIM_STATUS_STARTED 1).put F.TIM_CTL_PENDING 0).timeShow

/-- Whether the partner is heard with ACTIVE set, on fox or badger (09 R429; 10 R490). -/
def State.activePartner (s : State) : Bool :=
  (decide (s.ptstate = 1) && s.twin.foxHeard.isSome) || decide (s.twin.badgerHeard = some true)

/-- A 64-bit count of nanoseconds (10 R473). -/
def lineNs (x : Int) : Nat := x.toNat % 2 ^ 64

/-- Line time moved by an offset, never below zero. -/
def State.lineAt (s : State) (ofs : Int) : Nat := lineNs ((s.now : Int) + ofs)

/-- Whether a domain became usable within LOCK_WAIT after the power-up of PD6, and is (10 R498). -/
def State.lockInTime (s : State) (d : Nat) : Bool :=
  (s.dom d).usable && decide ((s.dom d).okAt ≤ s.time.poweredAt + s.image.time.lockWaitS * 1000000000) &&
    (decide (d = 0) || !s.image.time.noWoad)

/-- TIME_START (10 R490, R496 to R498): line time becomes the active partner's, once the twin offset is known, else that of the first
domain usable within LOCK_WAIT. -/
def execTimeStart (t : Nat) (s : State) : Res :=
  let s0 := s.at t
  .next (if s0.time.running then s0
    else if s0.activePartner then
      (match s0.time.twinOfs with
        | some o => (s0.beginTime (s0.lineAt o) 3).raise 0x8003 islTime []
        | none => s0)
    else if s0.lockInTime 0 ∧ (!s0.lockInTime 1 ∨ (s0.dom 0).okAt ≤ (s0.dom 1).okAt) then
      (s0.beginTime (s0.lineAt (s0.dom 0).offset) 1).raise 0x8001 islTime (le 4 0)
    else if s0.lockInTime 1 then (s0.beginTime (s0.lineAt (s0.dom 1).offset) 2).raise 0x8001 islTime (le 4 1)
    else s0)

/-- LOCK_WAIT_EXPIRY (10 R498, R499): LOCK_WAIT after the power-up of PD6 the module starts FREE from its last-words record. MARK:
DESIGN CHOICE: where that record is not valid the line time is the oscillator's (assumption 104). -/
def execLockWaitExpiry (t : Nat) (s : State) : Res :=
  let s0 := s.at t
  .next (if s0.time.running ∨ s0.activePartner ∨ s0.lockInTime 0 ∨ s0.lockInTime 1 ∨
        s0.now < s0.time.poweredAt + s0.image.time.lockWaitS * 1000000000 then s0
    else
      let lw := s0.nv.lastWords
      (s0.beginTime (if lw.valid then lw.lineTime else s0.now) 5).raise 0x8002 islTime [])

/-! ## The servo reference (10 R490 to R493) -/

/-- The reference changes: no step, the difference is slewed out (10 R492). -/
def State.timTo (s : State) (st : Nat) (ofs : Int) : State :=
  let was := s.get F.TIM_STATUS_STATE
  let s1 := s.tm fun u => { u with slewLeft := ofs, ageFrom := if 1 ≤ was ∧ was ≤ 3 then u.ageFrom else s.now, holdFrom := if st = 4 ∧ was ≠ 4 then s.now else u.holdFrom,
                                   degraded := if st = 4 ∧ was = 4 then u.degraded else false }
  (s1.put F.TIM_STATUS_STATE st).timeShow

/-- HOLDOVER begins (10 R490). -/
def State.holdover (s : State) : State := ((s.timTo 4 0).put F.TIM_HOLD_SECONDS 0).raise 0x8015 islTime []

/-- A four-byte signed field of event data. -/
def sdata (v : Int) : List Byte := le 4 (ofSigned 32 (clampInt (-2147483648) 2147483647 v))

/-- A domain becomes the reference of a state without one, or Woad's place is taken by Madder (10 R490). -/
def State.lockTo (s : State) (d : Nat) : State :=
  let was := s.get F.TIM_STATUS_STATE
  let o := s.offsetNow d
  let s1 := s.timTo (d + 1) o
  match was with
  | 2 => s1.raise 0x8012 islTime []
  | 4 => s1.raise 0x8016 islTime (sdata o)
  | 5 => s1.raise 0x8001 islTime (le 4 d)
  | _ => s1

/-- The servo reference follows the state table (10 R490): role, partner and usable domains decide. -/
def State.refUpdate (s : State) : State :=
  let m := (s.dom 0).usable
  let w := (s.dom 1).usable && !s.image.time.noWoad
  let st := s.get F.TIM_STATUS_STATE
  if st = 0 then s
  else if st = 3 then
    (if s.isStandby ∧ s.partnerHeard then s
     else if m then s.lockTo 0 else if w then s.lockTo 1 else s.holdover)
  else if s.isStandby ∧ s.partnerHeard then s.timTo 3 (s.time.twinOfs.getD 0)
  else if st = 1 then
    (if m then s else if w then (s.timTo 2 (-(toSigned 32 (s.rdN R.TIM_MW)))).raise 0x8011 islTime [] else s.holdover)
  else if st = 2 then (if m then s.lockTo 0 else if w then s else s.holdover)
  else if m then s.lockTo 0
  else if w then s.lockTo 1
  else s

/-- SERVO_REFERENCE_CHANGE (10 R490 to R492). -/
def execServoReferenceChange (t : Nat) (s : State) : Res := .next ((s.at t).refUpdate)

/-- Seconds of the current HOLDOVER (10 TIM_HOLD). -/
def State.holdShow (s : State) : State :=
  if s.get F.TIM_STATUS_STATE = 4 then s.put F.TIM_HOLD_SECONDS ((s.now - s.time.holdFrom) / 1000000000) else s

/-- HOLDOVER_DEGRADED (10 R494): HOLDOVER passes 3,600 s. -/
def execHoldoverDegraded (t : Nat) (s : State) : Res :=
  let s0 := (s.at t).holdShow
  .next (if s0.get F.TIM_STATUS_STATE = 4 ∧ !s0.time.degraded ∧ s0.now ≥ s0.time.holdFrom + 3600000000000 then
      ((s0.tm fun u => { u with degraded := true }).timeShow).raise 0x8017 islTime []
    else s0)

/-- AGEING_MEASUREMENT (10 R495): 24 h in MADDER, WOAD or TWIN without interruption. -/
def execAgeingMeasurement (ppb : Word) (t : Nat) (s : State) : Res :=
  let s0 := s.at t
  let st := s0.get F.TIM_STATUS_STATE
  .next (if 1 ≤ st ∧ st ≤ 3 ∧ s0.now ≥ s0.time.ageFrom + 86400000000000 then
      (s0.calAge ppb).tm fun u => { u with ageFrom := s0.now }
    else s0)

/-- The rate adjustment towards which the servo works: while a difference is slewed out, the followed domain's rate against the
oscillator and SLEW_PPM on top; else a free value, since the spec gives the bandwidth of the servo and not its law (10 R492; assumption
2). -/
def State.rateWant (s : State) : Int :=
  let p : Int := 1000 * s.image.time.slewPpm
  match s.followed with
  | some d =>
    let r := (s.dom d).rate
    if s.time.slewLeft > 0 then r + p else if s.time.slewLeft < 0 then r - p else s.free.toInt
  | none => s.free.toInt

/-- The rate adjustment at a C5 boundary, within ±100 ppm and changed by at most 1 ppm; the slew advances by SLEW_PPM over 1 ms (10
R492, R493). -/
def State.rateStep (s : State) : State :=
  let a := toSigned 32 (s.rdN R.TIM_ADJ)
  let s1 := s.take.wrI R.TIM_ADJ (clampInt (-100000) 100000 (clampInt (a - 1000) (a + 1000) s.rateWant))
  let p : Int := s.image.time.slewPpm
  let l := s1.time.slewLeft
  let d := clampInt (-p) p l
  (s1.tm fun u => { u with slewLeft := l - d, slewed := u.slewed + d }).timeShow

/-- The standby counts the C0 cycles with the twin offset beyond and within 1 µs (10 R510). -/
def State.twinSplit (s : State) (o : Int) : State :=
  let ovr := decide (o.natAbs > 1000)
  let s1 := (s.wrI R.TIM_TWIN_OFS o).tm fun u => { u with
    twinOver := if ovr then min 32 (u.twinOver + 1) else 0, twinIn := if ovr then 0 else min 32 (u.twinIn + 1) }
  if !s1.isStandby then s1
  else if s1.time.twinOver ≥ 32 ∧ !s1.on F.TIM_STATUS_TWIN_SPLIT then (s1.put F.TIM_STATUS_TWIN_SPLIT 1).raise 0x8030 islTime []
  else if s1.time.twinIn ≥ 32 ∧ s1.on F.TIM_STATUS_TWIN_SPLIT then (s1.put F.TIM_STATUS_TWIN_SPLIT 0).raise 0x8031 islTime []
  else s1

/-- The time unit at boundary `n`; a cycle in which the partner is not heard has a twin offset of zero (10 R493, R510, TIM_TWIN_OFS,
TIM_HOLD). -/
def State.timeBoundary (s : State) (n : Nat) : State :=
  let s1 := if isBoundary 5 n then s.rateStep.holdShow else s
  if s1.on F.TWN_STATUS_FOX_OK then s1 else (s1.tm fun u => { u with twinOfs := none, twinHeld := 0 }).twinSplit 0

/-! ## Time restarts (10 R500 to R504) -/

/-- A request for a step is refused (10 R500). Reasons, coded by this model: 1 STEP_OK clear, 2 not the active, 3 target within
1 ms, 4 SET_NS out of range, 5 domain not usable. -/
def State.stepRefuse (s : State) (r : Nat) : State := (s.put F.TIM_CTL_REFUSED 1).raise 0x8021 islTime (le 4 r)

/-- The instant of a step (10 R501): the next whole second, or the first C0 boundary at least 4 C0 cycles on. -/
def State.stepInstant (s : State) : Nat :=
  if s.on F.TIM_CTL_APPLY_AT then (s.now / 1000000000 + 1) * 1000000000 else boundaryNs (boundaryAfter s.now 4)

/-- A step is named, and passed to the standby (10 R501). -/
def State.stepName (s : State) (k : TimeStep) : State :=
  let s1 := ((s.tm fun u => { u with step := some k }).put F.TIM_CTL_PENDING 1).put F.TIM_CTL_REFUSED 0
  if k.start then s1 else s1.send (.stepRequest k.at_ k.target)

/-- Why a time restart is refused; 0 for none (10 R500). -/
def State.stepReason (s : State) (far : Bool) : Nat :=
  if !s.isActive then 2 else if !s.image.time.stepOk then 1 else if !far then 3 else 0

/-- STEP: a time restart to a domain's time (10 R500). The second part is the reason of a refusal. -/
def State.timStep (s : State) (d : Nat) : State × Nat :=
  let o := s.offsetNow d
  let r := if !(s.dom d).usable then (if s.stepReason true = 0 then 5 else s.stepReason true)
    else s.stepReason (decide (o.natAbs > 1000000))
  if r = 0 then
    let i := s.stepInstant
    (s.stepName { at_ := i, target := lineNs ((i : Int) + o) }, 0)
  else (s.stepRefuse r, r)

/-- The staged line time of the TIM_SET registers (10 R473, R500). -/
def State.setTime (s : State) : Nat :=
  ((s.rdN R.TIM_SET_SEC_LO + 2 ^ 32 * (s.rdN R.TIM_SET_SEC_HI % 65536)) * 1000000000 + s.rdN R.TIM_SET_NS % 2 ^ 30) % 2 ^ 64

/-- APPLY: the staged value, as time start or as a time restart (10 R500, R503). The second part is the reason of a refusal. -/
def State.timApply (s : State) : State × Nat :=
  let v := s.setTime
  if s.get F.TIM_SET_NS_V > 999999999 then (s.stepRefuse 4, 4)
  else if !s.time.running then
    if s.on F.TIM_CTL_APPLY_AT then (s.stepName { at_ := s.stepInstant, target := v, start := true }, 0)
    else ((s.put F.TIM_CTL_REFUSED 0).beginTime v 5, 0)
  else
    let r := s.stepReason (decide (((v : Int) - s.now).natAbs > 1000000))
    if r = 0 then (s.stepName { at_ := s.stepInstant, target := v }, 0) else (s.stepRefuse r, r)

/-- TIM_STEP (10 R500). -/
def execTimStep (dom : Fin 2) (t : Nat) (s : State) : Res := .next (((s.at t).put F.TIM_CTL_STEP_DOM dom.val).timStep dom.val).1

/-- TIM_APPLY (10 R500, R503). -/
def execTimApply (t : Nat) (s : State) : Res := .next (s.at t).timApply.1

/-- STEP_REQUEST_RX (10 R501). -/
def execStepRequestRx (at_ target : Nat) (s : State) : Res :=
  .next (if s.isStandby then
      (s.tm fun u => { u with step := some { at_ := at_, target := target } }).put F.TIM_CTL_PENDING 1
    else s)

/-- Change sets named for a count that the new sequence skips apply at the first boundary of their class in it (10 R502). -/
def State.renameSets (s : State) : State :=
  { s with cs := s.cs.map (fun (c : ChangeSet) =>
      if c.named < s.time.firstN then { c with named := nextBoundary c.cls s.time.firstN } else c) }

/-- The line links at the start of a sequence of boundaries: nothing of the sequence before is judged or waits (10 R501). -/
def LineState.unjudged (l : LineState) : LineState :=
  { l with subs := tall {} (fun q => { q with own := none, judged := none, pend := [], listed := none }) l.subs, ruled := [] }

/-- A time restart at its instant (10 R501, R502): what waits for counts of the old sequence is dropped. -/
def State.timeRestart (s : State) (k : TimeStep) : State :=
  let old := s.now
  let s1 := (s.dropActivations).dropSamples.shiftTimes k.target
  let s2 := ({ s1 with lines := s1.lines.unjudged }).tw fun u =>
    { u with stagedAt := none, commitRec := none, closeRec := none }
  let s3 := { s2 with now := k.target }.tm fun u =>
      { u with step := none, fresh := true, firstN := (k.target + 1000000 + 31249) / 31250 }
  let s4 := (s3.tm fun u => { u with slewLeft := (s3.followed.map (fun d => (s3.dom d).offset)).getD 0 }).timeShow
  (s4.renameSets.put F.TIM_CTL_PENDING 0).raise 0x8020 islTime (le 8 old ++ le 8 k.target)

/-- TIME_RESTART (10 R501 to R504): the named instant. Before time start it is the time start. -/
def execTimeRestart (s : State) : Res :=
  .next (match s.time.step with
    | none => s
    | some k => if k.start then (s.at k.at_).beginTime k.target 5 else (s.at k.at_).timeRestart k)

/-! ## Time registers and pulses -/

/-- A read of TIM_NS latches the seconds (10 TIM_NS). Before time start line time does not run and the registers read zero. -/
def State.timLatch (s : State) : State :=
  if s.on F.TIM_STATUS_STARTED then
    ((s.put F.TIM_NS_NS (s.now % 1000000000)).wrN R.TIM_SEC_LO (s.now / 1000000000)).wrN R.TIM_SEC_HI
      (s.now / 1000000000 / 2 ^ 32 % 65536)
  else s

/-- TIM_NS_READ (10 R474). -/
def execTimNsRead (t : Nat) (s : State) : Res := .next (s.at t).timLatch

/-- The rising edge of the pulse; the period since the edge before is kept (10 R505, R507). -/
def State.ppsRise (s : State) : State :=
  let s1 := (s.tm fun u => { u with ppsHigh := true, ppsPeriod := s.now - u.ppsAt.getD s.now, ppsAt := some s.now }).lo
    fun u => { u with ppsHigh := true }
  s1.doDrive.send (.pps (s.now / 1000000000))

/-- PPS_OUT_EDGE (10 R505, R507, 14 R654): the rising edge at a whole second of line time, none twice, or the end of the pulse
PULSE_MS later; DO 15 follows. -/
def execPpsOutEdge (rising : Bool) (t : Nat) (s : State) : Res :=
  let s0 := s.at t
  let last := s0.time.ppsAt
  .next (if !s0.time.running then s0
    else if rising then
      (if s0.now % 1000000000 = 0 ∧ (last.isNone ∨ last.getD 0 < s0.now) then s0.ppsRise else s0)
    else if s0.time.ppsHigh ∧ s0.now ≥ last.getD 0 + s0.image.time.pulseMs * 1000000 then
      ((s0.tm fun u => { u with ppsHigh := false }).lo fun u => { u with ppsHigh := false }).doDrive
    else s0)

/-- PPS_IN_EDGE (10 R508): the offset from the nearest whole second. -/
def execPpsInEdge (t : Nat) (s : State) : Res :=
  let r := t % 1000000000
  let o : Int := if r ≤ 500000000 then r else (r : Int) - 1000000000
  .next (((s.at t).put F.TIM_PPSIN_OFS (ofSigned 31 o)).put F.TIM_PPSIN_SEEN 1)

/-- TWIN_SPLIT_CHECK (10 R482, R485, R494, R510): the four timestamps of a C0 cycle in ps: own fox word out, in at the partner,
partner's out, in here; the active's QUALITY and HOLDOVER, the domain that it follows and whether that has an arbitrary timescale.
MARK: DEDUCED: TWIN_ASYM has the sign of ASYM in 10 R484; the words of 09 R438 have no field for these, so they come beside it
(assumption 105). -/
def execTwinSplitCheck (t1 : Stamp) (t2 t3 : Int) (t4 : Stamp) (quality : Fin 4) (hold : Bool) (dom : Fin 2) (arb : Bool)
    (s : State) : Res :=
  let asym := toSigned 32 (s.calWord 92)
  let o := (((t2 - t1.corrected) - (t4.corrected - t3)) / 2 + asym) / 1000
  .next (if !s.stamped t1 ∨ !s.stamped t4 then s
    else
      let s1 := s.tm fun u => { u with
        partnerQ := quality.val, partnerHold := hold, partnerDom := dom.val, partnerArb := arb, twinOfs := some o
        twinHeld := if o.natAbs ≤ 100 then min 320 (u.twinHeld + 1) else 0 }
      s1.timeShow.twinSplit o)

/-! ## Requests of the management protocol (17 R734) -/

/-- TIME_STEP (10 R500, 17 R734). -/
def execTimeStep (ses : Fin 16) (req : Nat) (dom : Fin 2) (t : Nat) (s : State) : Res :=
  .next ((s.at t).request ses req 10 true true (fun u =>
    let r := (u.put F.TIM_CTL_STEP_DOM dom.val).timStep dom.val
    if r.2 = 0 then r.1.ok [] else r.1.refused r.2))

/-- TIME_APPLY (10 R500, R503, 17 R734). -/
def execTimeApply (ses : Fin 16) (req : Nat) (t : Nat) (s : State) : Res :=
  .next ((s.at t).request ses req 10 true true (fun u =>
    let r := u.timApply
    if r.2 = 0 then r.1.ok [] else r.1.refused r.2))

/-- The sixteen TIM_ registers, in order of offset (17 R734). -/
def State.timWords (s : State) : List Byte := (List.range 16).flatMap (fun i => le 4 (s.rdN (R.TIM_STATUS + 4 * i)))

/-- TIME_QUERY (17 R734). -/
def execTimeQuery (ses : Fin 16) (req : Nat) (t : Nat) (s : State) : Res :=
  .next ((s.at t).request ses req 10 false false (fun u => u.timLatch.ok u.timLatch.timWords))

end Sys2Proof.Machine
end

