-- ==== Sys2Proof/Machine/TraceOp.lean ====
section
/-! DEFINITION. Loop trace: channels, trigger, capture and offload (07 R343 to R354); and the end of a sample, which records
into it (07 R331, R333, R345, R348). -/
namespace Sys2Proof.Machine

/-- Nodes that a law has (07 R344). -/
def nodesOf (law : Nat) : List Nat :=
  let ports := (outPorts law).map (fun p => p + 2)
  match law with
  | 1 => (List.range 10).drop 1 ++ ports
  | 2 => (List.range 10).drop 1 ++ ports
  | 3 => 9 :: ports
  | 4 => 9 :: ports
  | 5 => [8, 9] ++ ports
  | _ => []

/-- A channel configuration that R343 refuses. -/
def State.chanBad (s : State) (c n : Nat) : Bool :=
  let slot := s.get (F.TRC_CH_SLOT c n)
  let node := s.get (F.TRC_CH_NODE c n)
  decide (node ≠ 0) && (decide (slot / 1024 ≠ c / 2) || !(nodesOf (lawOf (s.slotRd slot))).contains node)

/-- Recording starts anew (07 R346, R347). -/
def State.trcStart (s : State) (c : Nat) : State :=
  (s.setTrace c {}).setTrc c (if s.trcPre c = 0 then 2 else 1)

/-- ARM is written: the answer tells whether it was refused with RES_BUSY (07 R343, R346, R352). MARK: DESIGN CHOICE, safe
(assumption 42), for PRE + POST outside 07 R347, which sets CFG_ERR. -/
def State.trcArm (s : State) (c : Nat) : State × Bool :=
  if s.trc c ≠ 0 then (s, false)
  else if s.image.captures c then ((s.put (F.TRC_CTL_CFG_ERR c) 1).raise 0x5023 (islCluster c) [], true)
  else if (List.range 8).any (fun n => s.chanBad c n) || decide (s.trcPre c + s.trcPost c > 4096) || decide (s.trcPost c = 0) then
    (s.put (F.TRC_CTL_CFG_ERR c) 1, false)
  else (s.trcStart c, false)

/-- Recording stops and is discarded (07 R346). -/
def State.trcAbort (s : State) (c : Nat) : State :=
  if s.trc c = 1 ∨ s.trc c = 2 ∨ s.trc c = 3 then (s.setTrace c {}).setTrc c 0 else s

/-- A sample has its result, which waits for the staging instant (07 R331, R332). -/
def State.sampleDone (s : State) (slot : Nat) (fetch : Option Nat) : State :=
  let o := s.outcome slot fetch
  let w := s.cmpOf slot o
  let s1 := if countsOk (s.slotRd slot) then s else s.take.take.take.take
  s1.sl slot fun d => { d with result := some o, cmpWord := w }

/-- SAMPLE_COMPLETE (07 R331 to R335): the sample of a head slot completes. `cause` says why it is held, if it is: differing
comparison words, an access answered TIMEOUT or NO_ISLAND, POISON; `fetch` is the response to a failed CAM table read. A poisoned
word that the sample reads, and a table behind a channel that is off, are found without them. -/
def execSampleComplete (slot : Fin 16384) (cause : Option HoldCause) (fetch : Option Nat) (t : Nat) (s : State) : Res :=
  let s0 := s.at t
  let d := s0.slot slot.val
  .next (if !d.busy || d.holding || d.result.isSome then s0
    else if s0.get (F.LPE_HEALTH_STATE (slot.val / 1024)) = 2 then s0.holdSample slot.val .deadline
    else match (if cause.isNone && s0.samplePoisoned slot.val then some .poison else cause) with
    | some c => s0.holdSample slot.val c
    | none => s0.sampleDone slot.val (fetch.or (s0.camFetch slot.val)))

/-! ## Commands of the trace -/

/-- TRACE_ARM (07 R346, R347, R352). -/
def execTraceArm (c : Fin 32) (s : State) : Res := .next (s.trcArm c.val).1

/-- TRACE_SW_TRIG (07 R346). -/
def execTraceSwTrig (c : Fin 32) (s : State) : Res := .next (s.trcTrigger c.val (s.count % 2 ^ 32))

/-- TRACE_ABORT (07 R346). -/
def execTraceAbort (c : Fin 32) (s : State) : Res := .next (s.trcAbort c.val)

/-- TRACE_PRE_FILLED (07 R346): PRE records stand in every enabled channel. -/
def execTracePreFilled (c : Fin 32) (s : State) : Res :=
  .next (if s.trc c.val = 1 ∧ ((s.trcChans c.val).all (fun n => decide (s.trcPre c.val ≤ nth (s.trace c.val).since n))) then
      s.setTrc c.val 2
    else s)

/-- TRACE_POST_FILLED (07 R346): POST further records stand in every enabled channel; the offload begins. -/
def execTracePostFilled (c : Fin 32) (s : State) : Res :=
  .next (if s.trc c.val = 3 ∧ ((s.trcChans c.val).all (fun n => decide (s.trcPost c.val ≤ nth (s.trace c.val).post n))) then
      s.setTrc c.val 4
    else s)

/-- Start of capture `k` of a cluster in HBM (07 R349). -/
def captureBase (c k : Nat) : Nat := 0x07E0000000 + 4194304 * c + 262144 * (k % 16)

/-- One record of the offload: written, or dropped by a channel in STRESS (07 R349, R350). -/
def State.offloadRec (s : State) (c a : Nat) (r : Nat × Nat) : State :=
  if s.dropsWrite a then s.setTrace c { s.trace c with lost := (s.trace c).lost + 1 }
  else s.memW a (le 4 r.1 ++ le 4 r.2)

/-- The offload of one channel, oldest record first (07 R349). -/
def State.offloadChan (s : State) (c k ch : Nat) : State :=
  let l := ((s.trace c).rings[ch]?).getD []
  let recs := l.drop (l.length - (s.trcPre c + s.trcPost c))
  s.each recs.zipIdx (fun t e => t.offloadRec c (captureBase c k + 32768 * ch + 8 * e.2) e.1)

/-- What belongs to the capture that a cluster has recorded (07 R351). -/
def State.captureInfo (s : State) (c : Nat) : CaptureInfo :=
  { config := (List.range 8).map (fun n => s.rdN (R.TRC_CH c n)), trigCount := s.rdN (R.TRC_TIME c),
    records := s.trcPre c + s.trcPost c }

/-- TRACE_OFFLOAD_COMPLETE (07 R346, R349, R350). -/
def State.offload (s : State) (c : Nat) : State :=
  let k := s.get (F.TRC_DONE_CAPTURES c)
  let s1 := (s.each (s.trcChans c) (fun t n => t.offloadChan c k n)).lp fun l =>
    { l with taken := tmod 0 l.taken c (· + 1), held := tset {} l.held (16 * c + k % 16) (s.captureInfo c) }
  let lost := (s1.trace c).lost
  let s2 := ((s1.step1 (F.TRC_DONE_CAPTURES c)).putB (F.TRC_DONE_LOSSY c) (decide (lost ≠ 0))).bump (F.TRC_LOSS_LOST c) lost
  let s3 := if lost = 0 then s2.raise 0x5021 (islCluster c) (le 1 c ++ le 4 k) else s2.raise 0x5022 (islCluster c) (le 4 lost)
  if s3.on (F.TRC_CTL_MODE c) then s3.trcStart c else (s3.setTrace c {}).setTrc c 0

/-- TRACE_OFFLOAD_COMPLETE (07 R346). -/
def execTraceOffloadComplete (c : Fin 32) (s : State) : Res := .next (if s.trc c.val = 4 then s.offload c.val else s)

end Sys2Proof.Machine
end

