-- ==== Sys2Proof/Machine/RegAccess.lean ====
section
/-! DEFINITION. Loads and stores in management space: register reads with their latches and clears, the windows of the
signal image, of the loop slots and of the summary, register writes by the access codes and by the rules of single registers
(00 R14 to R21, 04 R156, R192 to R195, 06 R304, 13 R604, R605, R608, 17 R741, R763). -/
namespace Sys2Proof.Machine

/-- The state that a meaning answers with. -/
def resState (d : State) : Res → State
  | .next s => s
  | _ => d

/-! ## Loads -/

/-- Byte `i` of the latest snapshot (17 R741); nothing is shown before S2 (16 R706). -/
def State.sumWord (s : State) (i : Nat) : Word :=
  if 2 ≤ s.get F.MOD_STATUS_STAGE then BitVec.ofNat 32 (field s.mgmt.snapshot i 4) else 0

/-- A word of EVT_VIEW: the 64 bytes of the ring slot of EVT_SEL, in the tail where the HBM ring is not used (17 EVT_VIEW). -/
def State.viewWord (s : State) (i : Nat) : Word :=
  let q := s.rd64 R.EVT_SEL
  BitVec.ofNat 32 (if s.on F.EVT_STATUS_HBM_RING then s.memN (ringSlot q + i) 4
    else match tget none s.nv.tail (q % 16384) with
      | some r => field r.bytes i 4
      | none => 0)

/-- A register that no read changes. -/
def State.regShow (s : State) (off : Nat) : Word :=
  if 0x1000 ≤ off ∧ off < 0x2000 then s.sumWord (off - 0x1000)
  else if 0x300100 ≤ off ∧ off < 0x300140 then s.viewWord (off - 0x300100)
  else if off = R.PNL_LAMPS then BitVec.ofNat 32 s.lamps
  else if off = R.MOD_STAGE_MS (s.get F.MOD_STATUS_STAGE) then BitVec.ofNat 32 s.stageMs
  else if 0x2C0000 ≤ off ∧ off < 0x2C4000 ∧ 0x100 ≤ off % 0x1000 ∧ off % 0x1000 < 0x280 then
    s.canView ((off - 0x2C0000) / 0x1000) (off % 0x1000)
  else if latchedLows.contains (off - 4) ∧ 4 ≤ off then tget 0 s.latch off
  else match regRow? off with
    | some _ => s.rd off
    | none => 0

/-- What a read leaves: RC fields cleared (00 R20), latches loaded (04 R195, 10 R474, 13 ACC_FADDR_LO). -/
def State.regAfter (s : State) (off : Nat) : State :=
  if latchedLows.contains off then { s with latch := tset 0 s.latch (off + 4) (s.rd (off + 4)) }
  else if 0x2C0000 ≤ off ∧ off < 0x2C4000 ∧ off % 0x1000 = 0x34 then s.canBstatClear ((off - 0x2C0000) / 0x1000)
  else if 0x241000 ≤ off ∧ off < 0x241800 ∧ off % 0x40 = 4 then
    let c := (off - 0x241000) / 0x40
    (s.wr (R.ACC_FADDR_HI c) (s.core c).faultHi).wr (R.ACC_FINFO c) (s.core c).faultInfo
  else match regRow? off with
    | some r => if r.rc = 0 then s else s.wr off (s.rd off &&& ~~~(BitVec.ofNat 32 r.rc))
    | none => s

/-- A load of a register by an aligned 32-bit access (00 R14 to R20). -/
def State.regRead (s : State) (off : Nat) : State × Word :=
  if off = R.TIM_NS then (s.timLatch, s.timLatch.rd off)
  else if 0x2C0000 ≤ off ∧ off < 0x2C4000 ∧ off % 0x1000 = 0x34 then
    (s.regAfter off, s.canBstat ((off - 0x2C0000) / 0x1000))
  else (s.regAfter off, s.regShow off)

/-- Whether the window of an offset allows a load of this size there (00 R15, 04 R192, R193, 06 R304). -/
def loadAllowed (off size : Nat) : Bool :=
  let w := decide (size = 4) && decide (off % 4 = 0)
  if off < 0x10400000 then w
  else if off < 0x10500000 then w || decide (size = 1)
  else if off < 0x10800000 then true
  else if off < 0x10C10000 then w
  else if off < 0x20000000 then true
  else if off < 0x21000000 then w
  else true

/-- The peripheral slot of a management-space offset (13 R593). -/
def slotOf (off : Nat) : Option Nat :=
  if off < 0x10000 then some 0 else if off < 0x20000 then some 1 else if off < 0x40000 then some 2
  else if off < 0x80000 then some 3 else if off < 0xC0000 then some 4 else if off < 0x100000 then some 5
  else if off < 0x140000 then some 6 else if off < 0x150000 then some (7 + (off - 0x140000) / 0x1000)
  else if off < 0x180000 then none else if off < 0x1C0000 then some 23 else if off < 0x200000 then some 24
  else if off < 0x240000 then some 25 else if off < 0x280000 then some 26 else if off < 0x2C0000 then some 27
  else if off < 0x2C4000 then some (28 + (off - 0x2C0000) / 0x1000) else if off < 0x300000 then none
  else if off < 0x340000 then some 32 else if off < 0x380000 then some 33 else if off < 0x3C0000 then some 34
  else if off < 0x10000000 then none else if off < 0x10400000 then some 35 else if off < 0x10500000 then some 36
  else if off < 0x10800000 then none else if off < 0x10C00000 then some 37 else if off < 0x10C10000 then some 38
  else if off < 0x20000000 then none else if off < 0x21000000 then some (39 + (off - 0x20000000) / 0x100000) else none

/-- The island that serves a peripheral slot (13 R593). -/
def slotServer (n : Nat) : Nat :=
  if n = 0 then islSum else if 7 ≤ n ∧ n ≤ 22 then islRing (n - 7) else if n = 24 then islTime
  else if n = 27 then islLocal else if 28 ≤ n ∧ n ≤ 31 then islCan else if n = 32 then islRec else if n = 33 then islPanel
  else if 35 ≤ n ∧ n ≤ 37 then 66 else if n = 38 then 112 else if 39 ≤ n then islCluster (2 * (n - 39)) else islMgmt

/-- The island behind an offset of management space, where it is off: its router answers NO_ISLAND (03 R108, 13 R593). -/
def State.offlineAt (s : State) (off : Nat) : Option Nat :=
  match slotOf off with
  | some n => if s.islandOff (slotServer n) then some (slotServer n) else none
  | none => none

/-- A load in management space that its window allows (00 R14, R16, 04 R192, R194, 06 R304). -/
def State.mgmtLoad (s : State) (off size : Nat) : State × Nat :=
  if off < 0x10000000 then
    let r := s.regRead off
    (r.1, r.2.toNat)
  else if off < 0x10400000 then (s, (s.closedVal ((off - 0x10000000) / 4)).v.toNat)
  else if off < 0x10500000 then
    (s, leNat ((List.range size).map (fun i => (s.closedVal (off - 0x10400000 + i)).q)))
  else if off < 0x10800000 then (s, 0)
  else if off < 0x10C00000 then (s, (s.prevVal ((off - 0x10800000) / 4)).toNat)
  else if off < 0x10C10000 then
    (s, ((s.forceWords ((off - 0x10C00000) / 16))[(off % 16) / 4]?).getD 0)
  else if off < 0x20000000 then (s, 0)
  else if off < 0x21000000 then (s, (s.rd off).toNat)
  else (s, 0)

/-- A load by the management protocol: none where an island is off or the word is poisoned, so that an error response answers (03 R108,
R124, 17 R736). -/
def State.mgmtRead (s : State) (off : Nat) : State × Option Nat :=
  match s.offlineAt off with
  | some n => (s.noIsland islMgmt n, none)
  | none => if s.windowPoisoned off 4 then (s.send (.response islMgmt 3), none) else
    let r := s.mgmtLoad off 4
    (r.1, some r.2)

/-! ## Stores -/

/-- What became of a store: acted on, refused by level or window, or answered that the resource is held (14 R652). -/
inductive StoreRes where
  | done | denied | resBusy
  deriving DecidableEq, Repr, Inhabited

/-- A write by the access codes of a register's fields: RW fields set, W1C bits cleared where a 1 is written (00 R18). -/
def State.plainWrite (s : State) (off : Nat) (v : Word) : State :=
  match regRow? off with
  | some r =>
    let rw := BitVec.ofNat 32 r.rw
    s.wr off ((((s.rd off) &&& ~~~rw) ||| (v &&& rw)) &&& ~~~(v &&& BitVec.ofNat 32 r.w1c))
  | none => s

/-- An action of a write, where its bit is set. -/
def State.when (s : State) (b : Bool) (f : State → State) : State := if b then f s else s

/-- Whether a level may write a register: 0 U, 1 S, 3 M (the register tables). -/
def RegRow.writable (r : RegRow) (lv : Nat) : Bool := decide (r.level = 0) || decide (lv = 3) || (decide (r.level = 1) &&
    decide (1 ≤ lv))

/-- A LOAD of a record (13 R604, R605): refused while one is in progress; a partition that is not bound to this core pair
empties the inactive set. -/
def State.accLoad (s : State) (c part : Nat) : State :=
  if s.on (F.ACC_CTL_BUSY c) then s.put (F.ACC_CTL_ERR c) 1
  else
    let s1 := s.put (F.ACC_CTL_PART c) part
    let known := decide (part = 255) || s.image.parts.any (fun r => decide (r.part = part) && decide (r.core = c))
    if known then (s1.put (F.ACC_CTL_BUSY c) 1).co c fun k => { k with loadPart := part }
    else
      let a : AccRec := { pair := c }
      let s2 := if s.on (F.ACC_CTL_ASET c) then (s1.accSet (R.ACC_SLOT c 0) (R.ACC_RBASE c 0) a).co c fun k =>
          { k with bypA := false }
        else (s1.accSet (R.ACC_SLOTB c 0) (R.ACC_RBASEB c 0) a).co c fun k => { k with bypB := false }
      (s2.put (F.ACC_CTL_ERR c) 1).raise 0xA012 c (le 1 c ++ le 1 part)

/-- An action of a write that is a row of its own, where its bit is set. -/
def State.doIf (s : State) (b : Bool) (f : State → Res) : State := if b then resState s (f s) else s

/-- TRC_CTL of a cluster: ARM, SW_TRIG and ABORT, in this order (07 R346, R347). -/
def State.trcCtl (s : State) (c : Nat) (v : Word) : State × StoreRes :=
  let a := if v.getLsbD 0 then s.trcArm c else (s, false)
  (((a.1.when (v.getLsbD 1) fun t => t.trcTrigger c (t.count % 2 ^ 32)).when (v.getLsbD 2) fun t => t.trcAbort c),
    if a.2 then .resBusy else .done)

/-- The trace registers of a cluster (07 R343, R346, R354): the configuration only while it is IDLE; ARM, SW_TRIG and ABORT
always, in this order. -/
def State.trcStore (s : State) (c o : Nat) (v : Word) : State × StoreRes :=
  let s1 := if s.trc c = 0 then s.plainWrite (0x381000 + 0x100 * c + o) v else s
  if o = 0 then s1.trcCtl c v else (s1, .done)

/-- MOD_CTL (16 R707, R716): SVC_NEXT is kept over restarts; RESTART acts, with FORCE without a switchover. -/
def State.modStore (s : State) (v : Word) : State :=
  let s1 := s.plainWrite R.MOD_CTL v
  let k := { s1.keep with svcNext := v.getLsbD 2 }
  let s2 := { s1 with keep := k }
  (s2.when (v.getLsbD 0 && v.getLsbD 1) State.forceRestart).when (v.getLsbD 0 && !v.getLsbD 1) fun t => (t.modRestart 3).1

/-- CAN_CTL (15 R681, R685, R686). -/
def State.canCtl (s : State) (c : Nat) (v : Word) : State :=
  let i := Fin.ofNat 4 c
  ((((s.doIf (v.getLsbD 0) (execCanRecover i)).doIf (v.getLsbD 1) (execCanPop0 i)).doIf (v.getLsbD 2) (execCanPop1 i)).doIf
    (v.getLsbD 3) (execCanPush i))

/-- RNG_CTL: RELEASE and CENSUS, in this order (08 R380, R413). -/
def State.ringCtl (s : State) (r : Nat) (v : Word) : State :=
  (s.when (v.getLsbD 8) fun t => t.ringRelease r (getBits v 0 8)).when (v.getLsbD 9) fun t => t.censusNow r

/-- RNG_SCAP_CTL (08 R403). -/
def State.scapCtl (s : State) (r : Nat) (v : Word) : State × StoreRes :=
  let a := (s.when (v.getLsbD 17) fun t =>
      t.put (F.RNG_SCAP_CTL_CFG_ERR r) 0).scapSet r (getBits v 0 8) (getBits v 8 5) (v.getLsbD 16)
  (a.1, if a.2 then .resBusy else .done)

/-- TIM_CTL: STEP and APPLY, in this order; APPLY acts at level M only (10 R500, R501, TIM_CTL). -/
def State.timCtl (s : State) (lv : Nat) (v : Word) : State :=
  (s.when (v.getLsbD 1) fun t => (t.timStep (getBits v 2 1)).1).when (v.getLsbD 0 && decide (lv = 3)) fun t => t.timApply.1

/-- SEARCH of AIO_HARTm (14 R652). -/
def State.hartCtl (s : State) (m : Nat) (b : Bool) : State × StoreRes :=
  (s.when b fun t => t.hartClaim m, if b && s.on (F.AIO_HART_SWEEPING m) then .resBusy else .done)

/-- A write of a register whose bits act (02 R105, 05 R225, 08 R380, R403, R413, 09 R429, R462, 10 R500, R501, 14 R635, R652,
R658); every other register takes the plain write. -/
def State.regAct (s : State) (lv off : Nat) (v : Word) : State × StoreRes :=
  let p := s.plainWrite off v
  if off = R.IMG_SEL then
    (if v.getLsbD 4 && v.getLsbD 5 then s else (p.when (v.getLsbD 4) State.selSet).when (v.getLsbD 5) State.unchoose, .done)
  else if off = R.CYC_PCTL then
    (p.when (v.getLsbD 16 && (decide (getBits v 8 2 = 1) || decide (getBits v 8 2 = 2)))
      fun t => t.partCtl (getBits v 0 8) (decide (getBits v 8 2 = 1)), .done)
  else if 0x381000 ≤ off ∧ off < 0x383000 then s.trcStore ((off - 0x381000) / 0x100) (off % 0x100) v
  else if 0x140000 ≤ off ∧ off < 0x150000 ∧ off % 0x1000 = 8 then
    (p.ringCtl ((off - 0x140000) / 0x1000) v, .done)
  else if 0x140000 ≤ off ∧ off < 0x150000 ∧ off % 0x1000 = 0x30 then
    s.scapCtl ((off - 0x140000) / 0x1000) v
  else if off = R.TWN_CTL then ((p.when (v.getLsbD 0) State.swap).when (v.getLsbD 1) State.rejoin, .done)
  else if off = R.TIM_CTL then
    (p.timCtl lv v, .done)
  else if off = R.DIO_TRIP_CLR then (s.tripClr (getBits v 0 4), .done)
  else if off = R.AIO_HART 0 ∨ off = R.AIO_HART 1 then
    p.hartCtl ((off - R.AIO_HART 0) / 4) (v.getLsbD 0)
  else if off = R.AIO_CAL_CTL then (s.doIf (v.getLsbD 0) execCalCommit, .done)
  else if 0x2C0000 ≤ off ∧ off < 0x2C4000 ∧ off % 0x1000 = 0x14 then (s.canCtl ((off - 0x2C0000) / 0x1000) v, .done)
  else if off = R.MOD_CTL then (s.modStore v, .done)
  else (p, .done)

/-- A store to a register by an aligned 32-bit access, from a core pair or, where none is named, from the management
protocol, at a level (00 R15, R16, R18, 13 R608). -/
def State.regWrite (s : State) (cp : Option Nat) (lv off : Nat) (v : Word) : State × StoreRes :=
  match regRow? off with
  | none => (s, .done)
  | some r =>
    if 0x241000 ≤ off ∧ off < 0x241800 ∧ off % 0x40 = 0 then
      let c := (off - 0x241000) / 0x40
      if cp = some c ∧ 1 ≤ lv then
        let s1 := s.when (v.getLsbD 10) fun t => t.put (F.ACC_CTL_ERR c) 0
        if v.getLsbD 8 then (s1.accLoad c (getBits v 0 8), .done)
        else (s1.put (F.ACC_CTL_PART c) (getBits v 0 8), .done)
      else (s, .denied)
    else if r.writable lv then s.regAct lv off v else (s, .denied)

/-- A store to the image windows is refused (04 R156). -/
def imageWindow (off : Nat) : Bool := decide (0x10000000 ≤ off) && decide (off < 0x10C10000) && !(decide (0x10500000 ≤ off) &&
    decide (off < 0x10800000))

/-- The slot windows (06 R304). -/
def slotWindow (off : Nat) : Bool := decide (0x20000000 ≤ off) && decide (off < 0x21000000)

/-- An aligned 32-bit store in management space: registers; the image windows refuse every store, the slot windows every
one but to SLOT_STATUS; elsewhere it has no effect (00 R16, 04 R156, 06 R304). -/
def State.mgmtStore (s : State) (cp : Option Nat) (lv off : Nat) (v : Word) : State × StoreRes :=
  if off < 0x10000000 then s.regWrite cp lv off v
  else if imageWindow off then (s.put F.SIG_STATUS_STORE_FAULT 1, .denied)
  else if slotWindow off then
    if off % 0x400 = 4 then (s.flagWrite ((off - 0x20000000) / 0x400) v.toNat, .done) else (s, .denied)
  else (s, .done)

/-! ## Rows -/

/-- A read of a register word is answered with it, or, where its island is off, with NO_ISLAND (03 R108). -/
def State.readOut (s : State) (off : Nat) : State :=
  match s.offlineAt off with
  | some n => s.noIsland islMgmt n
  | none =>
    let r := s.regRead off
    r.1.send (.read off r.2)

/-- LATCHED_LOW_WORD_READ (04 R195, 05 R241, 16 R723, 17 R763). -/
def execLatchedLowWordRead (off : BitVec 32) (s : State) : Res := .next (s.readOut off.toNat)

/-- RC_FIELD_READ (00 R20). -/
def execRcFieldRead (off : BitVec 32) (s : State) : Res := .next (s.readOut off.toNat)

/-- ACC_LOAD (13 R604, R605). -/
def execAccLoad (c : Fin 32) (part : Fin 256) (s : State) : Res := .next (s.accLoad c.val part.val)

/-- The record that a load names (13 R603). -/
def State.loadRec (s : State) (c : Nat) : AccRec :=
  let p := (s.core c).loadPart
  if p = 255 then s.image.runtimeRec c
  else (s.image.access.find? (fun a => decide (a.pair = c) && decide (a.kind = 1) && decide (a.part = p))).getD { pair := c }

/-- ACC_LOAD_COMPLETE (13 R604): the inactive set holds the record. -/
def execAccLoadComplete (c : Fin 32) (s : State) : Res :=
  .next (if !s.on (F.ACC_CTL_BUSY c.val) then s else
    let a := s.loadRec c.val
    let s1 := if s.on (F.ACC_CTL_ASET c.val) then
        (s.accSet (R.ACC_SLOT c.val 0) (R.ACC_RBASE c.val 0) a).co c.val fun k => { k with bypA := a.bypass }
      else (s.accSet (R.ACC_SLOTB c.val 0) (R.ACC_RBASEB c.val 0) a).co c.val fun k => { k with bypB := a.bypass }
    s1.put (F.ACC_CTL_BUSY c.val) 0)

/-- ACC_FADDR_READ (13 R613): the read latches ACC_FADDR_HI and ACC_FINFO. -/
def execAccFaddrRead (c : Fin 32) (s : State) : Res := .next (s.readOut (R.ACC_FADDR_LO c.val))

end Sys2Proof.Machine
end

