-- ==== Sys2Proof/Machine/Mgmt.lean ====
section
/-! DEFINITION. Management sessions, message fragments, network echo, and the requests READ, WRITE, SUMMARY, EVENTS, SWAP,
TRACE, REJOIN, RESTART (17 R724 to R741, R759; 04 R166; 07 R351). -/
namespace Sys2Proof.Machine

/-! ## The network (17 R724 to R729) -/

/-- Ports: 0 and 1 the plant ports 1 and 2, 2 the service port. Whether the module answers at an address: the service port
always; a plant port at its module address, and while the module holds ACTIVE at its active address, where EVENTS gives one
(17 R727, R761), while its cage holds an enabled pluggable (20 R818). -/
def State.answersAt (s : State) (port : Nat) (onActive v6 : Bool) : Bool :=
  s.pd 7 && !s.on F.MOD_STATUS_HOLDUP &&
  (if port = 2 then !onActive
   else
    let p := (s.image.events.ports[port]?).getD {}
    let a := if onActive then (if v6 then p.v6Active else p.v4Active)
      else if s.twinB then (if v6 then p.v6B else p.v4B) else (if v6 then p.v6A else p.v4A)
    s.cageOn (20 + port) && decide (a ≠ 0) && (!onActive || s.isActive))

/-- NETWORK_ECHO (17 R724): 0 ARP, 1 ICMP echo, 2 Neighbor Discovery, 3 ICMPv6 echo; received IP fragments are discarded. -/
def execNetworkEcho (port : Fin 3) (kind : Fin 4) (fragment onActive : Bool) (s : State) : Res :=
  .next (if !fragment && s.answersAt port.val onActive (decide (2 ≤ kind.val)) then s.send (.netAnswer port.val kind.val) else s)

/-- Sessions open: their numbers (17 R729). -/
def State.openSessions (s : State) : List Nat := (List.range 16).filter (fun n => (s.session n).isSome)

/-- Whether the key presented is that of an ENABLED key slot (17 R726, 02 R61). -/
def controlKey (keys : List KeySlot) (key : List Byte) : Bool := keys.any (fun k => decide (k.st = .enabled) && decide (k.key =
    key))

/-- A handshake has succeeded: the session opens, or is refused at a limit (17 R726, R729). -/
def State.openSession (s : State) (port : Nat) (control onActive : Bool) (addrHash : BitVec 32) : State :=
  let l := s.openSessions
  let ctl := l.filter (fun n => match s.session n with
    | some k => k.control
    | none => false)
  if l.length ≥ 16 ∨ (control ∧ ctl.length ≥ 4) then s.raise 0xE204 islMgmt []
  else
    let n := lowestFree l 16 0
    (s.setSession n (some { port := port, control := control, onActive := onActive, last := s.now })).raise 0xE201 islMgmt
      (le 1 (port + 1) ++ le 4 (b2n control) ++ le 4 addrHash.toNat)

/-- DTLS_HANDSHAKE (17 R725 to R729): with the key that the client presents and whether the handshake succeeds. -/
def execDtlsHandshake (port : Fin 3) (key : List Byte) (onActive v6 ok : Bool) (addrHash : BitVec 32) (t : Nat) (s : State) : Res :=
  let s0 := s.at t
  let c := controlKey s0.nv.keys key
  .next (if !s0.answersAt port.val onActive v6 then s0
    else if !ok || (!c && s0.image.events.noMonitor) then s0.raise 0xE203 islMgmt []
    else s0.openSession port.val c onActive addrHash)

/-- IDLE_S of the running image, 60 s before one (17 R729, R761). -/
def State.idleNs (s : State) : Nat := 1000000000 * s.image.events.idleS

/-- SESSION_IDLE_TIMEOUT (17 R729). -/
def execSessionIdleTimeout (ses : Fin 16) (t : Nat) (s : State) : Res :=
  let s0 := s.at t
  .next (match s0.session ses.val with
    | some k => if s0.now ≥ k.last + s0.idleNs ∧ k.running.isNone then s0.closeSession ses.val 1 else s0
    | none => s0)

/-! ## Fragments (17 R730 to R733) -/

/-- Whether a message header is one of a request (17 R730). -/
def headerOk (b : List Byte) : Bool :=
  decide (b.length ≤ 1200) && decide (field b 0 1 = 1) && decide (field b 2 1 % 2 = 0) && decide (field b 3 1 ≤ 63) &&
    decide (field b 8 2 = 0) && decide (field b 10 2 ≤ 1184) && decide (b.length = 16 + field b 10 2)

/-- A request is complete: every fragment up to the last has arrived (17 R731). -/
def FragReq.complete (f : FragReq) : Bool :=
  match f.last with
  | some n => (List.range (n + 1)).all (fun i => (tget none f.parts i).isSome)
  | none => false

/-- Payload bytes of a request, in FRAG order. -/
def FragReq.payload (f : FragReq) : List Byte := f.parts.flatMap (fun e => e.2.getD [])

/-- A request has all its fragments: it is answered again from the kept response, refused, or runs (17 R731 to R735). -/
def State.requestIn (s : State) (ses : Nat) (k : Session) (f : FragReq) : State :=
  let s1 := s.setSession ses (some { k with frags := k.frags.filter (fun g => g.req ≠ f.req), last := s.now })
  if k.running = some f.req then s1
  else match k.kept.find? (fun e => e.req = f.req) with
    | some e => s1.respond ses e
    | none =>
      let resp := fun st => { cmd := f.cmd, req := f.req, status := st : QmpResp }
      if k.kept.length = 32 ∧ k.kept.all (fun e => f.req < e.req) then s1.respond ses (resp 1)
      else if k.running.isSome then s1.respond ses (resp 6)
      else if f.payload.length ≠ f.total ∨ f.cmd = 0 ∨ f.cmd > 13 then s1.answer ses (resp 1)
      else s1.setSession ses (some { k with
        frags := k.frags.filter (fun g => g.req ≠ f.req), last := s.now, running := some f.req })

/-- A fragment joins the others of its request; those of a request that began more than 1 s ago are gone (17 R730, R731). -/
def State.fragment (s : State) (ses : Nat) (k : Session) (b : List Byte) : State :=
  let req := field b 4 4
  let old := (k.frags.find? (fun g => decide (g.req = req) && decide (s.now < g.at_ +
      1000000000))).getD { req := req, at_ := s.now, cmd := field b 1 1, total := field b 12 4 }
  let i := field b 3 1
  let f := { old with parts := tset none old.parts i (some (b.drop 16)),
                      last := if bitOf (field b 2 1) 1 then old.last else some i }
  if f.complete then s.requestIn ses k f
  else s.setSession ses (some { k with frags := k.frags.filter (fun g => g.req ≠ req) ++ [f] })

/-- QMP_FRAGMENT_RX (17 R730 to R733): a DTLS record of a session arrives. -/
def execQmpFragmentRx (ses : Fin 16) (b : List Byte) (t : Nat) (s : State) : Res :=
  let s0 := s.at t
  .next (if s0.on F.MOD_STATUS_HOLDUP ∨ b.length < 16 then s0 else
    match s0.session ses.val with
    | none => s0
    | some k =>
      let resp := fun st => { cmd := field b 1 1, req := field b 4 4, status := st : QmpResp }
      if !headerOk b then s0.respond ses.val (resp 1)
      else if field b 12 4 > 65536 then s0.respond ses.val (resp 7)
      else s0.fragment ses.val k b)

/-- QMP_FRAGMENT_TIMEOUT (17 R731): fragments not complete within 1 s are discarded without a response. -/
def execQmpFragmentTimeout (ses : Fin 16) (req : Nat) (t : Nat) (s : State) : Res :=
  let s0 := s.at t
  .next (match s0.session ses.val with
    | some k => s0.setSession ses.val (some { k with
        frags := k.frags.filter (fun g => decide (g.req ≠ req) || decide (s0.now < g.at_ + 1000000000)) })
    | none => s0)

/-! ## READ and WRITE (17 R734, R736, R737, 04 R166) -/

/-- `n` register words from an address, each by a load at level S (17 R736); none once a load is answered with an error. -/
def State.readWords (s : State) (a : Nat) : Nat → State × Option (List Byte)
  | 0 => (s, some [])
  | n + 1 =>
    let r := s.mgmtRead a
    match r.2 with
    | none => (r.1, none)
    | some v =>
      let q := r.1.readWords (a + 4) n
      (q.1, q.2.map (fun l => le 4 v ++ l))

/-- What a READ answers; a READ of points waits for the image it is served from (04 R166). MARK: DESIGN CHOICE: a READ that meets an
error response is answered REFUSED with reason 0 (assumption 124). -/
def State.readReq (s : State) (ses req : Nat) : ReadReq → Answer
  | .regs a n =>
    if n > 256 then s.status 7
    else if a % 4 ≠ 0 then s.status 1
    else
      let r := s.readWords a n
      match r.2 with
      | some l => r.1.ok l
      | none => r.1.refused 0
  | .points c l =>
    if l.length > 4096 then s.status 7
    else if c > 7 then s.status 1
    else (s.mg fun m => { m with reads := m.reads ++ [{ session := ses, req := req, cls := c, points := l }] }, none)

/-- READ (17 R734, R736, 04 R166). -/
def execRead (ses : Fin 16) (req : Nat) (r : ReadReq) (t : Nat) (s : State) : Res :=
  .next ((s.at t).request ses req 1 false false (fun u => u.readReq ses.val req r))

/-- Value and quality of points in the closed image, five bytes each (04 R165, R166). -/
def State.pointBytes (s : State) (l : List Nat) : List Byte :=
  l.flatMap (fun p => le 4 (s.closedVal p).v.toNat ++ [(s.closedVal p).q])

/-- The READs of points that the closed image of boundary `n` serves (04 R166). -/
def State.pointReads (s : State) (n : Nat) : State :=
  let due := s.mgmt.reads.filter (fun r => isBoundary r.cls n)
  let s1 := s.mg fun m => { m with reads := m.reads.filter (fun r => !isBoundary r.cls n) }
  s1.each due (fun t r => t.answer r.session (if r.points.any t.pointPoisoned
    then { cmd := 1, req := r.req, status := 4, payload := le 4 0 }
    else { cmd := 1, req := r.req, status := 0, payload := t.pointBytes r.points }))

/-- Level of the stores of a session: M on the service port, S on a plant port (17 R737). -/
def sessionLevel (port : Nat) : Nat := if port = 2 then 3 else 1

/-- One entry of a WRITE: the store, and its status (17 R737); a store to an island that is off is answered with an error (03 R108). -/
def State.writeEntry (s : State) (lv : Nat) (e : BitVec 32 × Word) : State × Nat :=
  let a := e.1.toNat
  if a % 4 ≠ 0 then (s.raise 0xE205 islMgmt (le 8 a), 2)
  else match s.offlineAt a with
    | some n => (s.noIsland islMgmt n, 4)
    | none =>
      let r := s.mgmtStore none lv a e.2
      match r.2 with
      | .done => (r.1, 0)
      | .denied => (r.1.raise 0xE205 islMgmt (le 8 a), 2)
      | .resBusy => (r.1, 5)

/-- The entries of a WRITE in order; none is executed once the session is gone (17 R737). -/
def State.writeAll (s : State) (ses lv : Nat) : List (BitVec 32 × Word) → State × List Byte
  | [] => (s, [])
  | e :: l =>
    if (s.session ses).isNone then (s, [])
    else
      let r := s.writeEntry lv e
      let q := r.1.writeAll ses lv l
      (q.1, le 2 r.2 ++ q.2)

/-- What a WRITE answers (17 R734, R737). -/
def State.writeReq (s : State) (ses : Nat) (l : List (BitVec 32 × Word)) : Answer :=
  if l.length > 64 then s.status 7
  else
    let port := ((s.session ses).map (fun k => k.port)).getD 0
    let r := s.writeAll ses (sessionLevel port) l
    r.1.ok r.2

/-- WRITE (17 R734, R737). -/
def execWrite (ses : Fin 16) (req : Nat) (l : List (BitVec 32 × Word)) (t : Nat) (s : State) : Res :=
  .next ((s.at t).request ses req 2 true false (fun u => u.writeReq ses.val l))

/-! ## SUMMARY and EVENTS (17 R741, R759, 16 R706) -/

/-- SUMMARY (17 R741, 16 R706). -/
def execSummary (ses : Fin 16) (req : Nat) (s : State) : Res :=
  .next (if s.get F.MOD_STATUS_STAGE < 2 then s else s.request ses req 4 false false (fun u => u.ok u.mgmt.snapshot))

/-- The record of a SEQ from the HBM ring or the archive. -/
def State.olderRec (s : State) (q : Nat) : Option EvRecord :=
  let r := s.fromRing q
  if !r.2 then some r.1
  else match EvRecord.parse (Memory.readN s.flash (s.archAddr q) 64) with
    | some a => if a.seq = q then some a else none
    | none => none

/-- The record of a SEQ, from the tail, the HBM ring or the archive (17 R759). -/
def State.heldRec (s : State) (q : Nat) : Option EvRecord :=
  match tget none s.nv.tail (q % 16384) with
  | some r => if r.seq = q then some r else s.olderRec q
  | none => s.olderRec q

/-- The records of the archive in flash (03 R135, 17 R756). -/
def State.archived (s : State) : List EvRecord :=
  let places := dedupN ((s.flash.filter (fun e => inSpan archiveBase 128849018880 e.1)).map (fun e => (e.1 - archiveBase) / 64))
  (places.filterMap (fun p => EvRecord.parse (Memory.readN s.flash (archiveBase + 64 * p) 64))).filter (fun r => decide (r.seq ≠ 0))

/-- The records held at or after a SEQ, in SEQ order: those of the archive that neither ring nor tail can hold, then the
latest ones (17 R750, R756, R759). -/
def State.heldFrom (s : State) (q : Nat) : List EvRecord :=
  let lo := max (max q 1) (s.nv.seq + 1 - 1048576)
  let arch := s.archived
  sortBy (fun (r : EvRecord) => r.seq) (arch.filter (fun r => decide (q ≤ r.seq) && decide (r.seq < lo))) ++
    (List.range (s.nv.seq + 1 - lo)).filterMap (fun i => s.heldRec (lo + i))

/-- What EVENTS answers (17 R759). -/
def State.eventsReq (s : State) (q count sev mask : Nat) : Answer :=
  if count > 256 then s.status 7
  else if count = 0 then s.status 1
  else
    let l := s.heldFrom q
    if l = [] then s.status 8
    else
      let m := (l.filter (fun r => decide (sev ≤ r.severity) && bitOf mask (r.code / 4096))).take count
      s.ok (le 8 ((m.head?.map (fun r => r.seq)).getD 0) ++ m.flatMap EvRecord.bytes)

/-- EVENTS (17 R759): FROM_SEQ, COUNT, minimum severity, block mask. -/
def execEvents (ses : Fin 16) (req : Nat) (from_ : BitVec 64) (count : Fin 65536) (sev : Fin 3) (mask : BitVec 16)
    (s : State) : Res :=
  .next (s.request ses req 8 false false (fun u => u.eventsReq from_.toNat count.val sev.val mask.toNat))

/-! ## SWAP, REJOIN, RESTART (09 R462, 16 R716) -/

/-- SWAP (09 R462, 17 R734, R735). -/
def execSwap (ses : Fin 16) (req : Nat) (t : Nat) (s : State) : Res :=
  .next ((s.at t).request ses req 7 true true (fun u =>
    if u.swapReason = 0 then u.swap.ok [] else u.swap.refused u.swapReason))

/-- REJOIN (17 R734, 09 R429). -/
def execRejoin (ses : Fin 16) (req : Nat) (t : Nat) (s : State) : Res :=
  .next ((s.at t).request ses req 12 true false (fun u => u.rejoin.ok []))

/-- What RESTART answers (17 R734, 16 R716). -/
def State.restartReq (s : State) (force : Bool) : Answer :=
  if force then s.forceRestart.ok []
  else
    let r := s.modRestart 3
    if r.2 then r.1.ok [] else r.1.refused 0

/-- RESTART (17 R734, 16 R716). -/
def execRestart (ses : Fin 16) (req : Nat) (force : Bool) (t : Nat) (s : State) : Res :=
  .next ((s.at t).request ses req 13 true false (fun u => u.restartReq force))

/-! ## TRACE (07 R349, R351, 17 R734) -/

/-- A completed capture that still stands in its buffer: one of the latest 16, and not being written over (07 R349). -/
def State.captureHeld (s : State) (c k : Nat) : Bool :=
  let n := tget 0 s.loops.taken c
  let age := (n + 65535 - k) % 65536
  decide (k < 65536) && decide (age < min 16 n) && !(decide (s.trc c = 4) && decide (age = 15))

/-- What belongs to a capture that stands in its buffer. -/
def State.heldInfo (s : State) (c k : Nat) : CaptureInfo := tget {} s.loops.held (16 * c + k % 16)

/-- The records of one channel of a capture; none of a channel that was off (07 R343, R349). -/
def State.captureChan (s : State) (c k ch : Nat) : List Byte :=
  let x := s.heldInfo c k
  if bitsOf (nth x.config ch) 16 4 = 0 then [] else s.memL (captureBase c k + 32768 * ch) (8 * x.records)

/-- The capture store in flash: start and size (03 R135). -/
def captureStore : Nat × Nat := (0x1E60000000, 6979321856)

/-- An entry of the capture store. MARK: DESIGN CHOICE: cluster, number, TRC_TIME, records of a channel and the eight channel words
stand before the records (assumption 95). -/
def State.captureBytes (s : State) (c k : Nat) : List Byte :=
  let x := s.heldInfo c k
  le 4 c ++ le 4 k ++ le 4 x.trigCount ++ le 4 x.records ++ x.config.flatMap (le 4) ++
    (List.range 8).flatMap (s.captureChan c k)

/-- A capture with the cluster's channel configuration and TRC_TIME goes into the capture store (03 R135, 07 R351). MARK: DESIGN
CHOICE: entries stand one after the other, and a save that no longer fits is answered TOO_LARGE (assumption 95). -/
def State.traceSave (s : State) (c k : Nat) : Answer :=
  if s.captureHeld c k then
    let b := s.captureBytes c k
    let used := (s.loops.store.map (fun x => x.size)).sum
    if captureStore.2 < used + b.length then s.status 7
    else
      let x : Capture := { cluster := c, number := k, info := s.heldInfo c k, addr := captureStore.1 + used, size := b.length }
      ({ s with flash := Memory.writeN s.flash x.addr b }.lp fun l => { l with store := l.store ++ [x] }).ok []
  else s.status 8

/-- TRACE_SAVE (07 R351). -/
def execTraceSave (ses : Fin 16) (req : Nat) (c : Fin 32) (k : Fin 65536) (s : State) : Res :=
  .next (s.request ses req 9 true false (fun u => u.traceSave c.val k.val))

/-- TRACE_READ (17 R734): one channel of a capture from HBM. -/
def execTraceRead (ses : Fin 16) (req : Nat) (c : Fin 32) (k : Fin 65536) (ch : Fin 8) (s : State) : Res :=
  .next (s.request ses req 9 true false (fun u =>
    if u.captureHeld c.val k.val then u.ok (u.captureChan c.val k.val ch.val) else u.status 8))

/-- TRACE_LIST (17 R734): cluster, capture number and trigger count of each entry of the capture store. -/
def execTraceList (ses : Fin 16) (req : Nat) (s : State) : Res :=
  .next (s.request ses req 9 true false (fun u =>
    u.ok (u.loops.store.flatMap (fun x => le 4 x.cluster ++ le 4 x.number ++ le 4 x.info.trigCount))))

end Sys2Proof.Machine
end

