-- ==== Sys2Proof/Machine/Boundary.lean ====
section
/-! DEFINITION. The two commands in which every plane acts: the boundary message and the close of an image (01 R33, 04 R164). -/
namespace Sys2Proof.Machine

/-! ## The boundary message (01 R33) -/

/-- Whether the boundary message of count `n` is the next of the running sequence: the first one by 10 R496, then one after the
other (04 R159), none at or after the instant of a named step (10 R501). MARK: DEDUCED: no boundary message is given twice or
left out (assumption 92). -/
def State.boundaryRuns (s : State) (n : Nat) : Bool :=
  s.time.running && decide (n = if s.time.fresh then s.time.firstN else s.count + 1) && s.pd 22 &&
    (match s.time.step with
     | some k => k.start || decide (boundaryNs n < k.at_)
     | none => true)

/-- CYC_COUNT, and RUNNING of the cycle and of the loop engine: from S5 on under an ordinary image; a service start runs no
loops (05 CYC_STATUS, 07 LPE_STATUS, 16 R695, R708). -/
def State.countBoundary (s : State) (n : Nat) : State :=
  let run := s.img.isSome && !s.image.factory && decide (5 ≤ s.get F.MOD_STATUS_STAGE)
  (((s.tm fun u => { u with fresh := false }).wr64 R.CYC_COUNT n).putB F.CYC_STATUS_RUNNING (run ||
      s.on F.CYC_STATUS_RUNNING)).putB F.LPE_STATUS_RUNNING
    ((run || s.on F.CYC_STATUS_RUNNING) && !s.pwr.service)

/-- What the control plane does with boundary `n` before the burst: change sets and forces, the handover, the twin states,
slot flags, trip clears, slow core pairs, the state signature's interval (02 R83, 04 R180, 09 R429, R449, R460, 06 R267,
14 R636, 05 R228, 09 R434). -/
def State.controlBoundary (s : State) (n : Nat) (ready : Bool) (counts : List (Nat × Nat)) (started : List (Nat × Nat)) : State :=
  let s1 := ((s.canStarted started).csBoundary n).hoBoundary n ready
  let s2 := (((s1.owedBoundary n).twinBoundary n).loopBoundary n).tripBoundary n
  (s2.slowCycles counts).sigCut n

/-- What leaves the module at boundary `n`: outputs, local copies, the CAN lists and frames, ring bursts under the schedule in
force, publications (14 R627, R649, 15 R674, R676, 08 R362, R405, 11 R515). -/
def State.sendBoundary (s : State) (n : Nat) : State :=
  let s1 := (((s.outputsBoundary.localSend n).canListSend n).canBoundary n).censusBoundary n
  (s1.ringsLaunch n).publishAll n

/-- The rate of line time, the sample of the tags and the panel at boundary `n` (10 R493, 03 FAB_TAGS, 18 R767). -/
def State.showBoundary (s : State) (n : Nat) : State :=
  let s1 := (s.timeBoundary n).tagsSample
  if isBoundary 5 n then s1.panelTest else s1

/-- BOUNDARY_MESSAGE (01 R33): the message of C0 count `n`. With it what the boundary samples: whether the partner reports that
its handover shadow is ready, core cycles of each core pair since the previous boundary, CAN frames in transmission, what happened
to the tags. The summary takes the fields as they stood before the boundary's updates (01 R27). -/
def execBoundaryMessage (n : Nat) (ready : Bool) (counts : List (Fin 32 × Nat)) (started : List (Fin 4 × Fin 65))
    (tags : List TagEvent) (s : State) : Res :=
  let s0 := (s.at (boundaryNs n)).each tags State.tagEvent
  .next (if !s0.boundaryRuns n then s0 else
    let s1 := ((s0.snapBoundary n).countBoundary n).controlBoundary n ready (counts.map (fun e => (e.1.val, e.2)))
      (started.map (fun e => (e.1.val, e.2.val)))
    if !s1.pd 22 then s1 else ((s1.sendBoundary n).showBoundary n).outgoingEnd)

/-! ## The close of an image (04 R164) -/

/-- Segments that are still open where no copy of the partner counts: a module whose pair does not exchange copies resolves
from its own copy, a standby in SUSPECT from what it holds (08 R388, 09 R442, 19 R793). -/
def State.closeOpen (s : State) : State :=
  if s.isStandby && s.on F.TWN_STATUS_SUSPECT then s.resolveOpen (fun g => heldSeg g false)
  else if !s.agrees then s.resolveOpen (fun g => aloneSeg (g.own.getD {}))
  else s

/-- CYC_T_AGREE: agreement complete so many ns after t0. -/
def State.agreeTime (s : State) (ns : Nat) : State :=
  (s.put F.CYC_T_AGREE_LAST (min ns 65535)).put F.CYC_T_AGREE_MAX (max (s.get F.CYC_T_AGREE_MAX) (min ns 65535))

/-- The contributions to image `n` that enter at its close, the close record with what the active resolved by 08 R387, 11 R521
and 14 R649, and the change of the buffers (04 R161, R164, 08 R389). -/
def State.closeAll (s : State) (n : Nat) : State :=
  let l := (s.ringsClose n).localClose n
  let segs := s.listedSegs n
  let s1 := if s.isActive && s.exchanging then l.1.send (.closeRecord n segs (s.listedSubs n) l.2) else l.1
  ((s1.canClose n).linesClose n).closeImage n

/-- What follows the close of image `n`: point READs, releases, input copies of the loop engine (04 R166, 05 R200, 06 R248). -/
def State.afterClose (s : State) (n : Nat) : State :=
  let s1 := (s.pointReads n).releaseAll n
  if s1.on F.LPE_STATUS_RUNNING then s1.sampleCopy n else s1

/-- IMAGE_CLOSE (04 R164): the agreement for the current boundary completes `ns` after t0. -/
def execImageClose (ns t : Nat) (s : State) : Res :=
  let s0 := s.at t
  let n := s0.count
  .next (if s0.img.isNone || !s0.time.running || decide (s0.rd64 R.SIG_CLOSED = n) then s0 else
    let s1 := s0.closeOpen
    if !s1.closable n then s0 else ((s1.agreeTime ns).closeAll n).afterClose n)

/-- SUMMARY_SNAPSHOT_TIMED (17 R740, 18 R767): from S1 on, before the first boundary message and during a time restart; the panel
tests for a change as at a C5 boundary, 1 ms apart too. -/
def execSummarySnapshotTimed (t : Nat) (s : State) : Res :=
  let s0 := s.at t
  .next (if s0.snapDue then
      ((s0.mg fun m => { m with timed := m.timed + 1, snapAt := some s0.now }).snapshot
        (2 ^ 63 + (s0.mgmt.timed + 1) % 2 ^ 63)).panelTest
    else s0)

end Sys2Proof.Machine
end

