-- ==== Sys2Proof/Machine/Flags.lean ====
section
/-! DEFINITION. FCSR of the Tchicel core: the rounding mode and the sticky flags (12 R552, R586), and the floating operations
that follow IEEE 754 without rounding. -/
namespace Sys2Proof.Machine

/-- The rounding mode RM of FCSR; none for 5 to 7. -/
def rmOf (fcsr : DWord) : Option RMode :=
  match (fcsr >>> 8).toNat % 8 with
  | 0 => some .rne
  | 1 => some .rmm
  | 2 => some .rtz
  | 3 => some .rup
  | 4 => some .rdn
  | _ => none

/-- The flags that a result raises, as FCSR holds them: INV, DIVZ, OVF, UNF, INX. -/
def FRes.flags (r : FRes) : DWord :=
  BitVec.ofNat 64 (b2n r.inv + 2 * b2n r.dz + 4 * b2n r.ovf + 8 * b2n r.unf + 16 * b2n r.inx)

/-- Format by the width bit. -/
def fmtOf (wide : Bool) : Fmt := if wide then f64 else f32

/-- A pattern with its sign replaced; a NaN result is canonical (12 FABS, FNEG, FCSGN, R552). -/
def Fmt.withSign (f : Fmt) (a : Nat) (neg : Bool) : Nat :=
  if (f.unpack a).isNan then f.nanBits else f.sign neg (a % 2 ^ (f.eb + f.mb))

/-- The sign bit of a pattern. -/
def Fmt.signBit (f : Fmt) (a : Nat) : Bool := bitOf a (f.eb + f.mb)

/-- FMIN and FMAX: one NaN gives the other operand, −0 lies below +0 (12 R552). -/
def Fmt.pick (f : Fmt) (big : Bool) (a b : Nat) : FRes :=
  let x := f.unpack a
  let y := f.unpack b
  let sg := x.isSig || y.isSig
  if x.isNan && y.isNan then f.nanOf sg
  else if x.isNan then { bits := b, inv := sg }
  else if y.isNan then { bits := a, inv := sg }
  else
    let aLow := ltV x y || (!ltV y x && f.signBit a)
    { bits := if xor aLow big then a else b }

/-- FCMPEQ (0), FCMPLT (1), FCMPLE (2): 0 with a NaN; a signalling NaN sets INV, a quiet one as `Config` leaves it. -/
def Fmt.compare (f : Fmt) (op a b : Nat) : FRes :=
  let x := f.unpack a
  let y := f.unpack b
  if x.isNan || y.isNan then { bits := 0, inv := x.isSig || y.isSig || Config.cmpQuietInvalid op }
  else { bits := b2n (if op = 0 then eqV x y else if op = 1 then ltV x y else ltV x y || eqV x y) }

/-- The kind word of a value (12 FKIND). -/
def Fmt.kind (f : Fmt) (a : Nat) : Nat :=
  let ex := (a / 2 ^ f.mb) % 2 ^ f.eb
  (match f.unpack a with
    | .zero _ => 0
    | .fin _ _ _ => if ex = 0 then 1 else 2
    | .inf _ => 3
    | .nan false => 4
    | .nan true => 5) + 8 * b2n (f.signBit a)

/-- Conversion to an integer of a range, as a 64-bit pattern (12 FTOI64 and its kin). -/
def Fmt.toInteger (f : Fmt) (rm : RMode) (lo hi : Int) (a : Nat) : FRes :=
  let r := Fmt.toRange rm lo hi (f.unpack a)
  { bits := ofSigned 64 r.1, inv := r.2.1, inx := r.2.2 && Config.toIntInexact }

/-- A value of one format in another, rounded where it must be (12 FWIDTH). -/
def Fmt.convert (src dst : Fmt) (rm : RMode) (a : Nat) : FRes :=
  match src.unpack a with
  | .nan s => dst.nanOf s
  | .inf n => { bits := dst.sign n dst.infBits }
  | .zero n => { bits := dst.sign n 0 }
  | .fin n m e => dst.round rm n m e false

end Sys2Proof.Machine
end

