-- ==== Sys2Proof/Machine/Operands.lean ====
section
/-! DEFINITION. Instruction words of the Tchicel core: fields of the formats (12 R547, R548) and the encoding of every
instruction (12 R549). -/
namespace Sys2Proof.Machine

/-- DST, bits 10:6. -/
def fDst (w : Word) : Nat := getBits w 6 5
/-- SRC1, bits 15:11. -/
def fSrc1 (w : Word) : Nat := getBits w 11 5
/-- SRC2 of formats A and F, bits 20:16. -/
def fSrc2 (w : Word) : Nat := getBits w 16 5
/-- SRC3 of format F, bits 25:21. -/
def fSrc3 (w : Word) : Nat := getBits w 21 5
/-- SRC2, the data, of format S, bits 10:6. -/
def sData (w : Word) : Nat := getBits w 6 5
/-- SRC1 of format B, bits 10:6. -/
def bSrc1 (w : Word) : Nat := getBits w 6 5
/-- SRC2 of format B, bits 15:11. -/
def bSrc2 (w : Word) : Nat := getBits w 11 5
/-- IMM16, sign-extended. -/
def imm16 (w : Word) : DWord := (w.extractLsb' 16 16).signExtend 64
/-- IMM16, zero-extended. -/
def imm16u (w : Word) : DWord := (w.extractLsb' 16 16).zeroExtend 64
/-- IMM21, sign-extended. -/
def imm21 (w : Word) : DWord := (w.extractLsb' 11 21).signExtend 64
/-- 4 × OFF16, sign-extended. -/
def off16 (w : Word) : DWord := imm16 w <<< 2
/-- 4 × OFF26, sign-extended. -/
def off26 (w : Word) : DWord := ((w.extractLsb' 6 26).signExtend 64) <<< 2
/-- SYSREG, bits 27:16. -/
def fSysreg (w : Word) : Nat := getBits w 16 12
/-- Bit 10 of FN: binary64. -/
def fWide (w : Word) : Bool := w.getLsbD 31
/-- Bit 2 of FN6: binary64. -/
def fWide6 (w : Word) : Bool := w.getLsbD 28

/-- The words of one instruction: those that hold `pat` under `mask`. The mask covers OPC, FN and every field that the
instruction does not use, which must be zero (12 R548). -/
structure Enc where
  mask : Word
  pat : Word
  deriving DecidableEq, Repr, Inhabited

/-- Whether a word is one of the instruction's. -/
def Enc.fits (e : Enc) (w : Word) : Bool := decide (w &&& e.mask = e.pat)

/-- ADD. -/
def E.ADD : Enc := ⟨0xFFE0003F, 0x00000001⟩
/-- SUB. -/
def E.SUB : Enc := ⟨0xFFE0003F, 0x00200001⟩
/-- AND. -/
def E.AND : Enc := ⟨0xFFE0003F, 0x00400001⟩
/-- IOR. -/
def E.IOR : Enc := ⟨0xFFE0003F, 0x00600001⟩
/-- XOR. -/
def E.XOR : Enc := ⟨0xFFE0003F, 0x00800001⟩
/-- SHL. -/
def E.SHL : Enc := ⟨0xFFE0003F, 0x00A00001⟩
/-- SHR. -/
def E.SHR : Enc := ⟨0xFFE0003F, 0x00C00001⟩
/-- SHA. -/
def E.SHA : Enc := ⟨0xFFE0003F, 0x00E00001⟩
/-- LESS. -/
def E.LESS : Enc := ⟨0xFFE0003F, 0x01000001⟩
/-- LESSU. -/
def E.LESSU : Enc := ⟨0xFFE0003F, 0x01200001⟩
/-- MUL. -/
def E.MUL : Enc := ⟨0xFFE0003F, 0x02000001⟩
/-- MULHI. -/
def E.MULHI : Enc := ⟨0xFFE0003F, 0x02200001⟩
/-- MULHIU. -/
def E.MULHIU : Enc := ⟨0xFFE0003F, 0x02400001⟩
/-- MULHIX. -/
def E.MULHIX : Enc := ⟨0xFFE0003F, 0x02600001⟩
/-- DIV. -/
def E.DIV : Enc := ⟨0xFFE0003F, 0x02800001⟩
/-- DIVU. -/
def E.DIVU : Enc := ⟨0xFFE0003F, 0x02A00001⟩
/-- MOD. -/
def E.MOD : Enc := ⟨0xFFE0003F, 0x02C00001⟩
/-- MODU. -/
def E.MODU : Enc := ⟨0xFFE0003F, 0x02E00001⟩
/-- ADD32. -/
def E.ADD32 : Enc := ⟨0xFFE0003F, 0x80000001⟩
/-- SUB32. -/
def E.SUB32 : Enc := ⟨0xFFE0003F, 0x80200001⟩
/-- SHL32. -/
def E.SHL32 : Enc := ⟨0xFFE0003F, 0x80A00001⟩
/-- SHR32. -/
def E.SHR32 : Enc := ⟨0xFFE0003F, 0x80C00001⟩
/-- SHA32. -/
def E.SHA32 : Enc := ⟨0xFFE0003F, 0x80E00001⟩
/-- MUL32. -/
def E.MUL32 : Enc := ⟨0xFFE0003F, 0x82000001⟩
/-- DIV32. -/
def E.DIV32 : Enc := ⟨0xFFE0003F, 0x82800001⟩
/-- DIVU32. -/
def E.DIVU32 : Enc := ⟨0xFFE0003F, 0x82A00001⟩
/-- MOD32. -/
def E.MOD32 : Enc := ⟨0xFFE0003F, 0x82C00001⟩
/-- MODU32. -/
def E.MODU32 : Enc := ⟨0xFFE0003F, 0x82E00001⟩
/-- ADDK. -/
def E.ADDK : Enc := ⟨0x0000003F, 0x00000002⟩
/-- ANDK. -/
def E.ANDK : Enc := ⟨0x0000003F, 0x00000003⟩
/-- IORK. -/
def E.IORK : Enc := ⟨0x0000003F, 0x00000004⟩
/-- XORK. -/
def E.XORK : Enc := ⟨0x0000003F, 0x00000005⟩
/-- LESSK. -/
def E.LESSK : Enc := ⟨0x0000003F, 0x00000006⟩
/-- LESSUK. -/
def E.LESSUK : Enc := ⟨0x0000003F, 0x00000007⟩
/-- SHIFTK. -/
def E.SHIFTK : Enc := ⟨0xF8C0003F, 0x00000008⟩
/-- ADD32K. -/
def E.ADD32K : Enc := ⟨0x0000003F, 0x00000009⟩
/-- MKHI. -/
def E.MKHI : Enc := ⟨0x0000003F, 0x0000000A⟩
/-- PCHI. -/
def E.PCHI : Enc := ⟨0x0000003F, 0x0000000B⟩
/-- LDPC. -/
def E.LDPC : Enc := ⟨0x0000003F, 0x0000000C⟩
/-- LD8S. -/
def E.LD8S : Enc := ⟨0x0000003F, 0x00000010⟩
/-- LD8U. -/
def E.LD8U : Enc := ⟨0x0000003F, 0x00000011⟩
/-- LD16S. -/
def E.LD16S : Enc := ⟨0x0000003F, 0x00000012⟩
/-- LD16U. -/
def E.LD16U : Enc := ⟨0x0000003F, 0x00000013⟩
/-- LD32S. -/
def E.LD32S : Enc := ⟨0x0000003F, 0x00000014⟩
/-- LD32U. -/
def E.LD32U : Enc := ⟨0x0000003F, 0x00000015⟩
/-- LD64. -/
def E.LD64 : Enc := ⟨0x0000003F, 0x00000016⟩
/-- ST8. -/
def E.ST8 : Enc := ⟨0x0000003F, 0x00000018⟩
/-- ST16. -/
def E.ST16 : Enc := ⟨0x0000003F, 0x00000019⟩
/-- ST32. -/
def E.ST32 : Enc := ⟨0x0000003F, 0x0000001A⟩
/-- ST64. -/
def E.ST64 : Enc := ⟨0x0000003F, 0x0000001B⟩
/-- FLD32. -/
def E.FLD32 : Enc := ⟨0x0000003F, 0x0000001C⟩
/-- FLD64. -/
def E.FLD64 : Enc := ⟨0x0000003F, 0x0000001D⟩
/-- FST32. -/
def E.FST32 : Enc := ⟨0x0000003F, 0x0000001E⟩
/-- FST64. -/
def E.FST64 : Enc := ⟨0x0000003F, 0x0000001F⟩
/-- BREQ. -/
def E.BREQ : Enc := ⟨0x0000003F, 0x00000020⟩
/-- BRNE. -/
def E.BRNE : Enc := ⟨0x0000003F, 0x00000021⟩
/-- BRLT. -/
def E.BRLT : Enc := ⟨0x0000003F, 0x00000022⟩
/-- BRGE. -/
def E.BRGE : Enc := ⟨0x0000003F, 0x00000023⟩
/-- BRLTU. -/
def E.BRLTU : Enc := ⟨0x0000003F, 0x00000024⟩
/-- BRGEU. -/
def E.BRGEU : Enc := ⟨0x0000003F, 0x00000025⟩
/-- JMP. -/
def E.JMP : Enc := ⟨0x0000003F, 0x00000026⟩
/-- CALL. -/
def E.CALL : Enc := ⟨0x0000003F, 0x00000027⟩
/-- JMPR. -/
def E.JMPR : Enc := ⟨0x0000003F, 0x00000028⟩
/-- CALLR. -/
def E.CALLR : Enc := ⟨0x000007FF, 0x00000029⟩
/-- ENTER. -/
def E.ENTER : Enc := ⟨0xFFFFFFFF, 0x0000002A⟩
/-- LEAVE. -/
def E.LEAVE : Enc := ⟨0xFFFFFFFF, 0x0020002A⟩
/-- RET. -/
def E.RET : Enc := ⟨0xFFFFFFFF, 0x0040002A⟩
/-- FADD. -/
def E.FADD : Enc := ⟨0x7FE0003F, 0x00000030⟩
/-- FSUB. -/
def E.FSUB : Enc := ⟨0x7FE0003F, 0x00200030⟩
/-- FMUL. -/
def E.FMUL : Enc := ⟨0x7FE0003F, 0x00400030⟩
/-- FDIV. -/
def E.FDIV : Enc := ⟨0x7FE0003F, 0x00600030⟩
/-- FSQRT. -/
def E.FSQRT : Enc := ⟨0x7FFF003F, 0x00800030⟩
/-- FMIN. -/
def E.FMIN : Enc := ⟨0x7FE0003F, 0x00A00030⟩
/-- FMAX. -/
def E.FMAX : Enc := ⟨0x7FE0003F, 0x00C00030⟩
/-- FABS. -/
def E.FABS : Enc := ⟨0x7FFF003F, 0x00E00030⟩
/-- FNEG. -/
def E.FNEG : Enc := ⟨0x7FFF003F, 0x01000030⟩
/-- FCSGN. -/
def E.FCSGN : Enc := ⟨0x7FE0003F, 0x01200030⟩
/-- FCMPEQ. -/
def E.FCMPEQ : Enc := ⟨0x7FE0003F, 0x02000030⟩
/-- FCMPLT. -/
def E.FCMPLT : Enc := ⟨0x7FE0003F, 0x02200030⟩
/-- FCMPLE. -/
def E.FCMPLE : Enc := ⟨0x7FE0003F, 0x02400030⟩
/-- FKIND. -/
def E.FKIND : Enc := ⟨0x7FFF003F, 0x02600030⟩
/-- FTOI64. -/
def E.FTOI64 : Enc := ⟨0x7FFF003F, 0x04000030⟩
/-- FTOU64. -/
def E.FTOU64 : Enc := ⟨0x7FFF003F, 0x04200030⟩
/-- FTOI32. -/
def E.FTOI32 : Enc := ⟨0x7FFF003F, 0x04400030⟩
/-- FTOU32. -/
def E.FTOU32 : Enc := ⟨0x7FFF003F, 0x04600030⟩
/-- I64TOF. -/
def E.I64TOF : Enc := ⟨0x7FFF003F, 0x05000030⟩
/-- U64TOF. -/
def E.U64TOF : Enc := ⟨0x7FFF003F, 0x05200030⟩
/-- I32TOF. -/
def E.I32TOF : Enc := ⟨0x7FFF003F, 0x05400030⟩
/-- U32TOF. -/
def E.U32TOF : Enc := ⟨0x7FFF003F, 0x05600030⟩
/-- FWIDTH. -/
def E.FWIDTH : Enc := ⟨0x7FFF003F, 0x06000030⟩
/-- FTOBITS. -/
def E.FTOBITS : Enc := ⟨0x7FFF003F, 0x07000030⟩
/-- BITSTOF. -/
def E.BITSTOF : Enc := ⟨0x7FFF003F, 0x07200030⟩
/-- FMAC. -/
def E.FMAC : Enc := ⟨0xEC00003F, 0x00000031⟩
/-- FMSC. -/
def E.FMSC : Enc := ⟨0xEC00003F, 0x04000031⟩
/-- FNMAC. -/
def E.FNMAC : Enc := ⟨0xEC00003F, 0x08000031⟩
/-- FNMSC. -/
def E.FNMSC : Enc := ⟨0xEC00003F, 0x0C000031⟩
/-- SYSRD. -/
def E.SYSRD : Enc := ⟨0xF000F83F, 0x00000038⟩
/-- SYSWR. -/
def E.SYSWR : Enc := ⟨0xF00007FF, 0x10000038⟩
/-- SYSSET. -/
def E.SYSSET : Enc := ⟨0xF000003F, 0x20000038⟩
/-- SYSCLR. -/
def E.SYSCLR : Enc := ⟨0xF000003F, 0x30000038⟩
/-- SYSCALL. -/
def E.SYSCALL : Enc := ⟨0xF000FFFF, 0x00000039⟩
/-- BREAK. -/
def E.BREAK : Enc := ⟨0xFFFFFFFF, 0x10000039⟩
/-- TRAP. -/
def E.TRAP : Enc := ⟨0xF000FFFF, 0x20000039⟩
/-- TRET. -/
def E.TRET : Enc := ⟨0xFFFFFFFF, 0x30000039⟩
/-- SWCTX. -/
def E.SWCTX : Enc := ⟨0xFFFFFFFF, 0x40000039⟩
/-- WSPILL. -/
def E.WSPILL : Enc := ⟨0xFFFFFFFF, 0x50000039⟩
/-- WFILL. -/
def E.WFILL : Enc := ⟨0xFFFFFFFF, 0x60000039⟩
/-- WAIT. -/
def E.WAIT : Enc := ⟨0xFFFFFFFF, 0x70000039⟩
/-- FENCE. -/
def E.FENCE : Enc := ⟨0xFFFFFFFF, 0x80000039⟩
/-- CFLUSH. -/
def E.CFLUSH : Enc := ⟨0xFFFF07FF, 0x90000039⟩
/-- XRD. -/
def E.XRD : Enc := ⟨0xFFE0F83F, 0xA0000039⟩
/-- XWR. -/
def E.XWR : Enc := ⟨0xFFE007FF, 0xB0000039⟩

/-- Instructions in the order of 12 R549, part 0. -/
def coreRows0 : List Enc := [
  E.ADD, E.SUB, E.AND, E.IOR, E.XOR, E.SHL, E.SHR, E.SHA, E.LESS, E.LESSU,
  E.MUL, E.MULHI, E.MULHIU, E.MULHIX, E.DIV, E.DIVU, E.MOD, E.MODU, E.ADD32, E.SUB32,
  E.SHL32, E.SHR32, E.SHA32, E.MUL32, E.DIV32, E.DIVU32, E.MOD32, E.MODU32]

/-- Instructions in the order of 12 R549, part 1. -/
def coreRows1 : List Enc := [
  E.ADDK, E.ANDK, E.IORK, E.XORK, E.LESSK, E.LESSUK, E.SHIFTK, E.ADD32K, E.MKHI, E.PCHI,
  E.LDPC, E.LD8S, E.LD8U, E.LD16S, E.LD16U, E.LD32S, E.LD32U, E.LD64, E.ST8, E.ST16,
  E.ST32, E.ST64, E.FLD32, E.FLD64, E.FST32, E.FST64, E.BREQ, E.BRNE]

/-- Instructions in the order of 12 R549, part 2. -/
def coreRows2 : List Enc := [
  E.BRLT, E.BRGE, E.BRLTU, E.BRGEU, E.JMP, E.CALL, E.JMPR, E.CALLR, E.ENTER, E.LEAVE,
  E.RET, E.FADD, E.FSUB, E.FMUL, E.FDIV, E.FSQRT, E.FMIN, E.FMAX, E.FABS, E.FNEG,
  E.FCSGN, E.FCMPEQ, E.FCMPLT, E.FCMPLE, E.FKIND, E.FTOI64, E.FTOU64, E.FTOI32]

/-- Instructions in the order of 12 R549, part 3. -/
def coreRows3 : List Enc := [
  E.FTOU32, E.I64TOF, E.U64TOF, E.I32TOF, E.U32TOF, E.FWIDTH, E.FTOBITS, E.BITSTOF, E.FMAC, E.FMSC,
  E.FNMAC, E.FNMSC, E.SYSRD, E.SYSWR, E.SYSSET, E.SYSCLR, E.SYSCALL, E.BREAK, E.TRAP, E.TRET,
  E.SWCTX, E.WSPILL, E.WFILL, E.WAIT, E.FENCE, E.CFLUSH, E.XRD, E.XWR]

/-- Every instruction of the groups of 12 R549. -/
def coreRows : List Enc := coreRows0 ++ coreRows1 ++ coreRows2 ++ coreRows3

end Sys2Proof.Machine
end

