-- ==== Sys2Proof/Machine/CoreBase.lean ====
section
/-! DEFINITION. The Tchicel core pairs: registers and windows (12 R535 to R538), the access check (13 R587 to R602), memory
accesses and the commit buffer (12 R554 to R559, R577, R578), traps, double faults and core resets (12 R560 to R569; 05 R230),
and the frame that every instruction shares. -/
namespace Sys2Proof.Machine

/-- The core pair executes: in use, not FAULTY, no lockstep reset and no injection test running. -/
def State.coreRuns (s : State) (c : Nat) : Bool :=
  decide (s.get (F.CYC_CORE_STATE c) = 1) && !(s.core c).resetting && !(s.core c).testing

/-! ## Registers and windows (12 R535 to R538) -/

/-- CWP of WSTATE. -/
def CoreState.cwp (k : CoreState) : Nat := k.wstate.toNat % 16
/-- RES of WSTATE. -/
def CoreState.res (k : CoreState) : Nat := (k.wstate.toNat / 16) % 16
/-- SPILLED of WSTATE. -/
def CoreState.spilled (k : CoreState) : Nat := (k.wstate.toNat / 65536) % 65536

/-- A window state word. -/
def wstateOf (cwp res spilled : Nat) : DWord := BitVec.ofNat 64 (cwp % 16 + 16 * (res % 16) + 65536 * (spilled % 65536))

/-- Home of register `n`, from 8, as window `w` names it: its arrivals are the departures of window w − 1 mod 15. -/
def winKey (w n : Nat) : Nat :=
  if n < 16 then 16 * ((w + 14) % 15) + n else if n < 24 then 16 * w + (n - 16) else 16 * w + 8 + (n - 24)

/-- Register `n` of window `w`; z reads zero. -/
def CoreState.winReg (k : CoreState) (w n : Nat) : DWord :=
  if n = 0 then 0 else if n < 8 then tget 0 k.g n else tget 0 k.win (winKey w n)

/-- A write of register `n` of window `w`; writes of z are discarded. -/
def CoreState.setWinReg (k : CoreState) (w n : Nat) (v : DWord) : CoreState :=
  if n = 0 then k else if n < 8 then { k with g := tset 0 k.g n v } else { k with win := tset 0 k.win (winKey w n) v }

/-- Register `n` of the current window: window CWP at U, the trap window at S and M (12 R536, R560). -/
def CoreState.reg (k : CoreState) (n : Nat) : DWord :=
  if k.level = 0 then k.winReg k.cwp n else if n = 0 then 0 else tget 0 k.trap n

/-- A write of register `n` of the current window. -/
def CoreState.setReg (k : CoreState) (n : Nat) (v : DWord) : CoreState :=
  if k.level = 0 then k.setWinReg k.cwp n v else if n = 0 then k else { k with trap := tset 0 k.trap n v }

/-- Register `n` of core pair `c`. -/
def State.xr (s : State) (c n : Nat) : DWord := (s.core c).reg n
/-- A write of register `n` of core pair `c`. -/
def State.setX (s : State) (c n : Nat) (v : DWord) : State := s.co c fun k => k.setReg n v
/-- Floating register `n` of core pair `c`. -/
def State.fr (s : State) (c n : Nat) : Nat := (tget 0 (s.core c).f n).toNat
/-- A write of floating register `n`; a binary32 result is written with bits 63:32 zero (12 R537). -/
def State.setF (s : State) (c n : Nat) (v : DWord) : State := s.co c fun k => { k with f := tset 0 k.f n v }

/-- The instruction retires and the next one stands at `npc`; nothing remains of it where it restarted the module. -/
def State.retireTo (s : State) (c : Nat) (npc : DWord) : State :=
  if s.coreRuns c then s.co c fun k => { k with pc := npc, instret := k.instret + 1 } else s

/-- The instruction retires. -/
def State.retire (s : State) (c : Nat) : State := s.retireTo c ((s.core c).pc + 4)

/-! ## The commit buffer (12 R555, R577, R578; 05 R221; 12 R572) -/

/-- A byte of memory as the core pair's own stores leave it. -/
def bufByte (l : List BufStore) (a : Nat) (d : Byte) : Byte :=
  l.foldl (fun b e => if e.addr ≤ a ∧ a < e.addr + e.size then BitVec.ofNat 8 (e.val / 256 ^ (a - e.addr)) else b) d

/-- Every byte of an access lies in a store of the own commit buffer (12 R555): the load reads nothing of memory. -/
def bufCovers (l : List BufStore) (a n : Nat) : Bool :=
  (List.range n).all fun i => l.any fun e => decide (e.addr ≤ a + i ∧ a + i < e.addr + e.size)

/-- The record of a retiring store enters the signature: address, data and byte mask (12 R577). -/
def CoreState.signStore (k : CoreState) (e : BufStore) : CoreState :=
  { k with sig := (le 8 e.addr ++ le 8 e.val ++ le 8 (2 ^ e.size - 1)).foldl (crcByte 64 0x42F0E1EBA9EA3693) k.sig }

/-- The record of a branch, jump, call or return enters the signature: the taken bit and the target (12 R577). -/
def State.signBranch (s : State) (c : Nat) (taken : Bool) (target : DWord) : State :=
  s.co c fun k =>
    { k with sig := (le 1 (b2n taken) ++ le 8 target.toNat).foldl (crcByte 64 0x42F0E1EBA9EA3693) k.sig }

/-! ## The access check (13 R587 to R602) -/

/-- Management space (13 R590). -/
def isMgmt (a : Nat) : Bool := decide (0xFF00000000 ≤ a) && decide (a < 0x10000000000)
/-- SRAM (13 R590). -/
def isSram (a : Nat) : Bool := decide (0x8000000000 ≤ a) && decide (a < 0x8004000000)

/-- The offset of an address in management space (00 R14). -/
def mgmtOff (a : Nat) : Nat := a - 0xFF00000000

/-- Bit of R588 for a level (0 U, 1 S, 3 M) and a kind (0 read, 1 write, 2 execute). -/
def permBit (lv kind : Nat) : Nat := 3 * (if lv = 3 then 2 else lv) + kind

/-- Permissions of peripheral slot `n` in the active set. -/
def State.slotPerm (s : State) (c n : Nat) : Nat :=
  s.rdN (if s.on (F.ACC_CTL_ASET c) then R.ACC_SLOTB c n else R.ACC_SLOT c n) % 512

/-- Attributes of region `r` in the active set. -/
def State.regionAttr (s : State) (c r : Nat) : Word :=
  s.rd (if s.on (F.ACC_CTL_ASET c) then R.ACC_RATTRB c r else R.ACC_RATTR c r)

/-- Base of region `r` in the active set. -/
def State.regionBase (s : State) (c r : Nat) : Nat :=
  4096 * (s.rdN (if s.on (F.ACC_CTL_ASET c) then R.ACC_RBASEB c r else R.ACC_RBASE c r) % 2 ^ 28)

/-- Whether region `r` of the active set matches an address (13 R596, R597). -/
def State.regionHolds (s : State) (c a r : Nat) : Bool :=
  let w := s.regionAttr c r
  w.getLsbD 31 && decide (s.regionBase c r ≤ a) && decide (a < s.regionBase c r + 2 ^ (getBits w 16 6))

/-- The region that decides an address: the highest-numbered match (13 R597). -/
def State.regionOf (s : State) (c a : Nat) : Option Nat :=
  ((List.range 16).reverse).find? (fun r => s.regionHolds c a r)

/-- BYPASS of the active set. -/
def State.bypass (s : State) (c : Nat) : Bool := if s.on (F.ACC_CTL_ASET c) then (s.core c).bypB else (s.core c).bypA

/-- The decision on an access (13 R591, R595, R598, R599; 12 R530, R532): none where it is permitted, else MATCH and INDEX of
the denial. -/
def State.denied? (s : State) (c lv kind a : Nat) : Option (Nat × Nat) :=
  let by_ := lv = 3 ∧ s.bypass c
  if isMgmt a then
    if kind = 2 then some (3, 0)
    else match slotOf (mgmtOff a) with
      | some n => if bitOf (s.slotPerm c n) (permBit lv kind) then none else some (1, n)
      | none => if by_ then none else some (0, 0)
  else if isHbm a ∨ isSram a then
    match s.regionOf c a with
    | some r => if bitOf (getBits (s.regionAttr c r) 0 9) (permBit lv kind) then none else some (2, r)
    | none => if by_ then none else some (0, 0)
  else some (3, 0)

/-- The event of a denial (13 R602): code and data. -/
def denialEvent (c a lv kind idx : Nat) (size : Bool) : Nat × List Byte :=
  let n := if isMgmt a then (slotOf (mgmtOff a)).getD 0 else 0
  if 35 ≤ n ∧ n ≤ 38 then (0x3002, le 8 a ++ le 1 c)
  else if 39 ≤ n then (0x500A, le 8 a ++ le 1 c)
  else if size then (0xA011, le 1 c ++ le 8 a)
  else (0xA010, le 1 c ++ le 8 a ++ le 4 lv ++ le 4 kind ++ le 2 idx)

/-- A denial is recorded in the fault registers of the core pair and raises one event (13 R602). -/
def State.deny (s : State) (c a lv kind m idx : Nat) (size spill : Bool) : State :=
  let e := denialEvent c a lv kind idx size
  let info := lv + 4 * kind + 16 * m + 64 * idx + 4096 * b2n (s.on (F.ACC_CTL_ASET c)) + 8192 * b2n size + 16384 * b2n spill
  let s1 := ((s.setBit R.ACC_STATUS c true).wrN (R.ACC_FADDR_LO c) a).bump ⟨R.ACC_FCOUNT c, 0, 32⟩ 1
  let s2 := s1.co c fun k => { k with faultHi := BitVec.ofNat 32 (bitsOf a 32 8 + 256 * b2n (decide (2 ^ 40 ≤ a))),
                                      faultInfo := BitVec.ofNat 32 info }
  let s3 := if e.1 = 0x3002 ∧ kind = 1 then s2.put F.SIG_STATUS_STORE_FAULT 1 else s2
  s3.raise e.1 c e.2

/-! ## Traps (12 R560 to R569) -/

/-- Partition fault kind of a trap code; SYSCALL n with n not zero gives kind 5 (12 R561). -/
def faultKind (code num : Nat) : Option Nat :=
  match code with
  | 0 => some 4 | 1 => some 5 | 2 => some 3 | 3 => some 3 | 4 => some 9 | 5 => some 9 | 6 => some 9
  | 9 => if num = 0 then none else some 5
  | 10 => some 5 | 11 => some 5
  | _ => none

/-- Trap entry from U, after every store of the context has left (12 R566): TCAUSE, TVAL, the vector. -/
def State.enterS (s : State) (c : Nat) (cause tval npc : DWord) (vec : Nat) : State :=
  (s.flush c).co c fun k => { k with tpc := npc, tstatus := 4, tcause := cause, tval := tval, level := 1,
                                     pc := k.stvec + BitVec.ofNat 64 (64 * vec), storeErr := none }

/-- The activation of the interrupted context aborts (12 R561; 05 R218, R219). -/
def State.abortCur (s : State) (c kind pc : Nat) : State :=
  match (s.core c).cur with
  | some p => s.abortPart p kind pc
  | none => s

/-- A core reset (12 R569, R580; 05 R230): the commit buffer is discarded, every activation running or preempted on the core pair
is aborted with kind 8, event 0x4022 is raised once, and the second reset within 1 s makes the core pair FAULTY. Activations that
have not started wait on. -/
def State.coreReset (s : State) (c : Nat) : State :=
  let k := s.core c
  let l := s.now :: within k.resets s.now 1000000000
  let s1 := ((s.bump (F.CYC_CORE_LOCKSTEP c) 1).raise 0x4022 c []).noteFault
  let mine := (s1.image.parts.filter (fun r => r.core = c)).map (fun r => r.part)
  let s2 := s1.each (mine.filter (fun p => (s1.part p).started)) (fun t p => t.abortPart p 8 0)
  let s3 := s2.setCore c { ready := (s2.core c).ready, frozen := (s2.core c).frozen, pc := k.mtvec, stvec := k.stvec,
                           mtvec := k.mtvec, dupOn := k.dupOn, resetting := true, resets := l, bypA := k.bypA, bypB := k.bypB,
                           loadPart := k.loadPart, slowOver := k.slowOver, faultHi := k.faultHi, faultInfo := k.faultInfo }
  let s4 := (s3.put (F.ACC_CTL_ASET c) 0).putB (F.ACC_CTL_BYPASS c) k.bypA
  if l.length ≥ 2 then s4.coreFaulty c else s4

/-- A trap at S or M (12 R568, R569): a double fault, or a core reset where no U context is held or the monitor already
handles one. -/
def State.doubleFault (s : State) (c : Nat) : State :=
  let k := s.core c
  if k.level = 3 ∧ k.inDouble then (s.raise 0xA006 c []).coreReset c
  else if k.tstatus.getLsbD 2 = false then (s.raise 0xA001 c []).coreReset c
  else
    let s1 := (s.flush c).co c fun k => { k with level := 3, tcause := 12, pc := k.mtvec, inDouble := true, storeErr := none }
    s1.abortCur c 6 0

/-- A trap with its code, the address of the instruction that TPC takes, TVAL and the number of SYSCALL or TRAP (12 R561,
R566). Its stores leave first; one that was answered with an error is charged in its place. -/
def State.trap (s : State) (c code num : Nat) (tval npc : DWord) : State :=
  let k := s.core c
  let s1 := s.flush c
  if k.level ≠ 0 then s.doubleFault c
  else match (s1.core c).storeErr with
    | some a => (s1.enterS c 6 (BitVec.ofNat 64 a) k.pc 6).abortCur c 9 k.pc.toNat
    | none =>
      let s2 := s1.enterS c (BitVec.ofNat 64 (code + 65536 * num)) tval npc code
      match faultKind code num with
      | some f => s2.abortCur c f k.pc.toNat
      | none => s2

/-- The lowest pending interrupt. -/
def CoreState.lowest (k : CoreState) : Option Nat := (List.range 5).find? (fun n => k.ipend.getLsbD n)

/-- The lowest pending interrupt is taken, once the stores of the context have left; one that was answered with an error is charged in
its place and the interrupt stays pending (12 R563, R566). -/
def State.interrupt (s : State) (c : Nat) : State :=
  let k := s.core c
  match k.lowest with
  | none => s
  | some n =>
    let t := s.flush c
    match (t.core c).storeErr with
    | some a => (t.enterS c 6 (BitVec.ofNat 64 a) k.pc 6).abortCur c 9 k.pc.toNat
    | none => t.take.enterS c (BitVec.ofNat 64 (n + 16)) t.free k.pc (16 + n)

/-- A trap whose TPC is the trapping instruction's address (12 R566, codes 0 to 8). -/
def State.trapAt (s : State) (c code : Nat) (tval : DWord) : State := s.trap c code 0 tval (s.core c).pc

/-- A trap for which the spec states no TVAL: a free value (assumption 2). -/
def State.trapFree (s : State) (c code num : Nat) (npc : DWord) : State := s.take.trap c code num s.free npc

/-! ## Memory accesses (12 R554 to R559; 13 R600, R601) -/

/-- How an access ends: its value, or a trap code and TVAL. -/
inductive MemRes where
  | val (v : Nat)
  | fault (code : Nat) (tval : DWord)
  deriving DecidableEq, Repr, Inhabited

/-- The first checks of an access: alignment, the rule set (12 R554, R565; 13 R598 to R602). -/
def State.checkMem (s : State) (c lv kind a size : Nat) (spill : Bool) : State × Option (Nat × DWord) :=
  if a % size ≠ 0 then (s, some (1, BitVec.ofNat 64 a))
  else match s.denied? c lv kind a with
    | some d => (s.deny c a lv kind d.1 d.2 false spill, some (3, BitVec.ofNat 64 a))
    | none => (s, none)

/-- An access that management space does not answer: a wrong access size; MATCH names the slot that permitted it, where there is one
(00 R16, 13 R600). -/
def State.denySize (s : State) (c lv kind a : Nat) (spill : Bool) : State :=
  s.deny c a lv kind (b2n (slotOf (mgmtOff a)).isSome) ((slotOf (mgmtOff a)).getD 0) true spill

/-- The commit buffer has no entry for the line of a store to memory: it holds 128 lines, and stores to one line merge (12 R578). -/
def State.bufFull (s : State) (c a : Nat) : Bool :=
  let lines := dedupN ((s.core c).buf.map (fun e => lineOf e.addr))
  !isMgmt a && !lines.contains (lineOf a) && decide (128 ≤ lines.length)

/-- A load that is answered. -/
def loaded (r : State × Nat) : State × MemRes := (r.1, .val r.2)

/-- A store that management space has taken, whatever its answer (13 R608). -/
def stored (r : State × StoreRes) : State × Option (Nat × DWord) := (r.1, none)

/-- The island behind an address of management space, where it is off (03 R108, 13 R593). -/
def State.mgmtOffline (s : State) (a : Nat) : Option Nat :=
  s.offlineAt (mgmtOff a)

/-- A load from management space, once every earlier store has left (12 R557); an island that is off and a poisoned word answer
with an error (03 R108, R124). -/
def State.loadMgmt (s : State) (c lv a size : Nat) (spill : Bool) : State × MemRes :=
  if loadAllowed (mgmtOff a) size then
    let s1 := s.flush c
    match s.mgmtOffline a with
    | some n => (s1.noIsland c n, .fault 5 (BitVec.ofNat 64 a))
    | none =>
      if s1.windowPoisoned (mgmtOff a) size then (s1, .fault 5 (BitVec.ofNat 64 a)) else loaded (s1.mgmtLoad (mgmtOff a) size)
  else (s.denySize c lv 0 a spill, .fault 3 (BitVec.ofNat 64 a))

/-- A load of 1, 2, 4 or 8 bytes. -/
def State.load (s : State) (c lv a size : Nat) (spill : Bool) : State × MemRes :=
  let r := s.checkMem c lv 0 a size spill
  match r.2 with
  | some e => (r.1, .fault e.1 e.2)
  | none =>
    if isMgmt a then r.1.loadMgmt c lv a size spill
    else if r.1.hbmOff a then (r.1.noIsland c (islHbm (r.1.hbmKey.channel a)), .fault 5 (BitVec.ofNat 64 a))
    else if imageSram a then
      (if (r.1.flush c).poisoned a size then (r.1.flush c, .fault 5 (BitVec.ofNat 64 a)) else loaded ((r.1.flush c).sramLoad a size))
    else if r.1.poisoned a size ∧ !bufCovers (r.1.core c).buf a size then (r.1, .fault 5 (BitVec.ofNat 64 a))
    else (r.1, .val (leNat ((List.range size).map (fun i => bufByte (r.1.core c).buf (a + i) (r.1.memB (a + i))))))

/-- Whether management space refuses every store to an address (04 R156, 06 R304). -/
def storeRefused (off size : Nat) : Bool :=
  imageWindow off || (slotWindow off && !(decide (off % 0x400 = 4) && decide (size = 4)))

/-- A store that its window refuses is a denial of its own; a slot store of another size is denied by its size (13 R600, R602). -/
def State.denyStore (s : State) (c lv a size : Nat) (spill : Bool) : State :=
  s.deny c a lv 1 1 ((slotOf (mgmtOff a)).getD 0) (slotWindow (mgmtOff a) && decide (size ≠ 4)) spill

/-- REGISTER_WRITE (00 R18 to R21, 06 R304, 13 R602): an aligned 32-bit store at a level, from a core pair or the management
protocol. -/
def execRegisterWrite (cp : Option (Fin 32)) (level : Fin 4) (off : BitVec 32) (v : Word) (t : Nat) (s : State) : Res :=
  let s0 := s.at t
  .next (match cp with
    | some c =>
      if storeRefused off.toNat 4 then s0.denyStore c.val level.val (0xFF00000000 + off.toNat) 4 false
      else match s0.offlineAt off.toNat with
        | some n => s0.noIsland c.val n
        | none => (s0.mgmtStore (some c.val) level.val off.toNat v).1
    | none => match s0.offlineAt off.toNat with
      | some n => s0.noIsland islMgmt n
      | none => (s0.mgmtStore none level.val off.toNat v).1)

/-- A store to management space, once every earlier store has left (12 R557). -/
def State.storeMgmt (s : State) (c lv a size v : Nat) (spill : Bool) : State × Option (Nat × DWord) :=
  if storeRefused (mgmtOff a) size then (s.denyStore c lv a size spill, some (3, BitVec.ofNat 64 a))
  else if mgmtOff a < 0x10000000 ∧ size ≠ 4 then (s.denySize c lv 1 a spill, some (3, BitVec.ofNat 64 a))
  else match s.mgmtOffline a with
    | some n =>
      (((s.flush c).noIsland c n).co c fun k => { k with storeErr := k.storeErr.or (some a) }, none)
    | none => stored ((s.flush c).mgmtStore (some c) lv (mgmtOff a) (BitVec.ofNat 32 v))

/-- A store of 1, 2, 4 or 8 bytes: into the commit buffer, or into management space (12 R557, R578). -/
def State.store (s : State) (c lv a size v : Nat) (spill : Bool) : State × Option (Nat × DWord) :=
  let r := s.checkMem c lv 1 a size spill
  match r.2 with
  | some e => (r.1, some e)
  | none =>
    if isMgmt a then r.1.storeMgmt c lv a size v spill
    else
      let e : BufStore := { addr := a, size := size, val := v % 2 ^ (8 * size) }
      (r.1.co c fun k => ({ k with buf := k.buf ++ [e] }).signStore e, none)

/-! ## The frame of an instruction -/

/-- The fetch at PC (12 R530, R532, R559, R565). -/
def State.fetchCheck (s : State) (c : Nat) : State × Option (Nat × DWord) :=
  let k := s.core c
  let a := k.pc.toNat
  match s.denied? c k.level 2 a with
  | some d => (s.deny c a k.level 2 d.1 d.2 false false, some (2, k.pc))
  | none =>
    if s.hbmOff a then (s.noIsland c (islHbm (s.hbmKey.channel a)), some (4, k.pc))
    else if s.poisoned a 4 then (s, some (4, k.pc)) else (s, none)

/-- ILLEGAL, with the instruction word in TVAL (12 R561, TVAL). -/
def State.illegal (s : State) (c : Nat) (w : Word) : State := s.trapAt c 0 (w.zeroExtend 64)

/-- An instruction by itself: the word that the core pair fetched at PC, checked at fetch and against the instruction's encoding,
then its own effect (12 R548, R565). -/
def State.insnRun (s : State) (c : Nat) (w : Word) (e : Enc) (body : State → State) : State :=
  let r := s.fetchCheck c
  match r.2 with
  | some f => r.1.trapAt c f.1 f.2
  | none => if e.fits w then body r.1 else r.1.illegal c w

/-- Whether `t` follows `s`, a state at U, by a trap with the trapping instruction's own address (12 R566, causes 0 to 8): level S, a
cause below 9. -/
def State.trapped (t : State) (c : Nat) : Bool :=
  decide ((t.core c).level ≠ 0) && decide ((t.core c).tcause.toNat % 65536 < 9)

/-- An instruction of a core pair that runs. At a U boundary with an interrupt pending the interrupt is taken in its place, unless the
instruction traps at that same boundary (12 R563, R564). -/
def State.insn (s : State) (c : Nat) (w : Word) (e : Enc) (body : State → State) : State :=
  if !s.coreRuns c then s
  else
    let t := s.insnRun c w e body
    if decide ((s.core c).level = 0) && (s.core c).lowest.isSome && !t.trapped c then s.interrupt c else t

/-- A privileged instruction: ILLEGAL at U (12 R550). -/
def State.insnPriv (s : State) (c : Nat) (w : Word) (e : Enc) (body : State → State) : State :=
  s.insn c w e fun t => if (t.core c).level = 0 then t.illegal c w else body t

/-- DST takes a value and the instruction retires. -/
def State.put1 (s : State) (c : Nat) (w : Word) (v : DWord) : State := (s.setX c (fDst w) v).retire c

end Sys2Proof.Machine
end

