-- ==== Sys2Proof/Machine/CoreFloat.lean ====
section
/-! DEFINITION. Floating instructions of the Tchicel core (12 R537, R549, R552). -/
namespace Sys2Proof.Machine

/-- An operand of a format: binary32 reads bits 31:0 only (12 R537). -/
def State.fop (s : State) (c : Nat) (wide : Bool) (n : Nat) : Nat := if wide then s.fr c n else s.fr c n % 2 ^ 32

/-- A result with its flags: sticky flags set in FCSR, DST written, retired. -/
def State.fput (s : State) (c : Nat) (w : Word) (int : Bool) (r : FRes) : State :=
  let s1 := s.co c fun k => { k with fcsr := k.fcsr ||| r.flags }
  (if int then s1.setX c (fDst w) (BitVec.ofNat 64 r.bits) else s1.setF c (fDst w) (BitVec.ofNat 64 r.bits)).retire c

/-- A floating instruction that does not round: `g` takes the state and the width. -/
def State.fexec (s : State) (c : Nat) (w : Word) (e : Enc) (int : Bool) (g : State → Bool → FRes) : State :=
  s.insn c w e fun t => t.fput c w int (g t (fWide w))

/-- A floating instruction that rounds by RM; ILLEGAL with an RM of 5 to 7 (12 R552). -/
def State.fround (s : State) (c : Nat) (w : Word) (e : Enc) (wide int : Bool) (g : State → Fmt → RMode → FRes) : State :=
  s.insn c w e fun t =>
    match rmOf (t.core c).fcsr with
    | some rm => t.fput c w int (g t (fmtOf wide) rm)
    | none => t.illegal c w

/-- Two operands of a floating instruction that rounds. -/
def State.fround2 (s : State) (c : Nat) (w : Word) (e : Enc) (f : Fmt → RMode → FVal → FVal → FRes) : State :=
  s.fround c w e (fWide w) false fun t m rm =>
    f m rm (m.unpack (t.fop c (fWide w) (fSrc1 w))) (m.unpack (t.fop c (fWide w) (fSrc2 w)))

/-- A fused multiply-add, the product and the addend with or without their signs turned (12 R549, OPC 0x31). -/
def State.ffma (s : State) (c : Nat) (w : Word) (e : Enc) (np nz : Bool) : State :=
  s.fround c w e (fWide6 w) false fun t m rm =>
    let v := fun n => m.unpack (t.fop c (fWide6 w) n)
    let x := v (fSrc1 w)
    let z := v (fSrc3 w)
    m.fmaV rm (if np then x.flip else x) (v (fSrc2 w)) (if nz then z.flip else z)

/-- Conversion of SRC1 to an integer range. -/
def State.ftoi (s : State) (c : Nat) (w : Word) (e : Enc) (lo hi : Int) : State :=
  s.fround c w e (fWide w) true fun t m rm => m.toInteger rm lo hi (t.fop c (fWide w) (fSrc1 w))

/-- FADD: (12 R549, R552) -/
def execCoreFadd (cp : Fin 32) (w : Word) (s : State) : Res :=
  .next (s.fround2 cp.val w E.FADD (fun m rm x y => m.addV rm x y))

/-- FSUB: (12 R549, R552) -/
def execCoreFsub (cp : Fin 32) (w : Word) (s : State) : Res :=
  .next (s.fround2 cp.val w E.FSUB (fun m rm x y => m.addV rm x y.flip))

/-- FMUL: (12 R549, R552) -/
def execCoreFmul (cp : Fin 32) (w : Word) (s : State) : Res :=
  .next (s.fround2 cp.val w E.FMUL (fun m rm x y => m.mulV rm x y))

/-- FDIV: (12 R549, R552) -/
def execCoreFdiv (cp : Fin 32) (w : Word) (s : State) : Res :=
  .next (s.fround2 cp.val w E.FDIV (fun m rm x y => m.divV rm x y))

/-- FSQRT: (12 R549, R552) -/
def execCoreFsqrt (cp : Fin 32) (w : Word) (s : State) : Res :=
  .next (s.fround cp.val w E.FSQRT (fWide w) false fun t m rm => m.sqrtV rm (m.unpack (t.fop cp.val (fWide w) (fSrc1 w))))

/-- FMIN: (12 R549, R552) -/
def execCoreFmin (cp : Fin 32) (w : Word) (s : State) : Res :=
  .next (s.fexec cp.val w E.FMIN false fun t b =>
    (fmtOf b).pick false (t.fop cp.val b (fSrc1 w)) (t.fop cp.val b (fSrc2 w)))

/-- FMAX: (12 R549, R552) -/
def execCoreFmax (cp : Fin 32) (w : Word) (s : State) : Res :=
  .next (s.fexec cp.val w E.FMAX false fun t b =>
    (fmtOf b).pick true (t.fop cp.val b (fSrc1 w)) (t.fop cp.val b (fSrc2 w)))

/-- FABS: (12 R549, R552) -/
def execCoreFabs (cp : Fin 32) (w : Word) (s : State) : Res :=
  .next (s.fexec cp.val w E.FABS false fun t b =>
    { bits := (fmtOf b).withSign (t.fop cp.val b (fSrc1 w)) false })

/-- FNEG: (12 R549, R552) -/
def execCoreFneg (cp : Fin 32) (w : Word) (s : State) : Res :=
  .next (s.fexec cp.val w E.FNEG false fun t b =>
    { bits := (fmtOf b).withSign (t.fop cp.val b (fSrc1 w)) (!(fmtOf b).signBit (t.fop cp.val b (fSrc1 w))) })

/-- FCSGN: (12 R549, R552) -/
def execCoreFcsgn (cp : Fin 32) (w : Word) (s : State) : Res :=
  .next (s.fexec cp.val w E.FCSGN false fun t b =>
    { bits := (fmtOf b).withSign (t.fop cp.val b (fSrc1 w)) ((fmtOf b).signBit (t.fop cp.val b (fSrc2 w))) })

/-- FCMPEQ: (12 R549, R552) -/
def execCoreFcmpeq (cp : Fin 32) (w : Word) (s : State) : Res :=
  .next (s.fexec cp.val w E.FCMPEQ true fun t b =>
    (fmtOf b).compare 0 (t.fop cp.val b (fSrc1 w)) (t.fop cp.val b (fSrc2 w)))

/-- FCMPLT: (12 R549, R552) -/
def execCoreFcmplt (cp : Fin 32) (w : Word) (s : State) : Res :=
  .next (s.fexec cp.val w E.FCMPLT true fun t b =>
    (fmtOf b).compare 1 (t.fop cp.val b (fSrc1 w)) (t.fop cp.val b (fSrc2 w)))

/-- FCMPLE: (12 R549, R552) -/
def execCoreFcmple (cp : Fin 32) (w : Word) (s : State) : Res :=
  .next (s.fexec cp.val w E.FCMPLE true fun t b =>
    (fmtOf b).compare 2 (t.fop cp.val b (fSrc1 w)) (t.fop cp.val b (fSrc2 w)))

/-- FKIND: (12 R549, R552) -/
def execCoreFkind (cp : Fin 32) (w : Word) (s : State) : Res :=
  .next (s.fexec cp.val w E.FKIND true fun t b =>
    { bits := (fmtOf b).kind (t.fop cp.val b (fSrc1 w)) })

/-- FTOBITS: (12 R549, R552) -/
def execCoreFtobits (cp : Fin 32) (w : Word) (s : State) : Res :=
  .next (s.fexec cp.val w E.FTOBITS true fun t b =>
    { bits := (t.fop cp.val b (fSrc1 w)) })

/-- BITSTOF: the bit pattern of integer SRC1; a binary32 pattern by R537 (12 R549). -/
def execCoreBitstof (cp : Fin 32) (w : Word) (s : State) : Res :=
  .next (s.fexec cp.val w E.BITSTOF false fun t b =>
    { bits := if b then (t.xr cp.val (fSrc1 w)).toNat else (t.xr cp.val (fSrc1 w)).toNat % 2 ^ 32 })

/-- FTOI64: saturating, NaN gives 0. (12 R549, R552) -/
def execCoreFtoi64 (cp : Fin 32) (w : Word) (s : State) : Res :=
  .next (s.ftoi cp.val w E.FTOI64 (-(2 ^ 63)) (2 ^ 63 - 1))

/-- FTOU64: saturating, NaN gives 0. (12 R549, R552) -/
def execCoreFtou64 (cp : Fin 32) (w : Word) (s : State) : Res :=
  .next (s.ftoi cp.val w E.FTOU64 0 (2 ^ 64 - 1))

/-- FTOI32: saturating, NaN gives 0. (12 R549, R552) -/
def execCoreFtoi32 (cp : Fin 32) (w : Word) (s : State) : Res :=
  .next (s.ftoi cp.val w E.FTOI32 (-(2 ^ 31)) (2 ^ 31 - 1))

/-- FTOU32: saturating, NaN gives 0. (12 R549, R552) -/
def execCoreFtou32 (cp : Fin 32) (w : Word) (s : State) : Res :=
  .next (s.ftoi cp.val w E.FTOU32 0 (2 ^ 32 - 1))

/-- I64TOF: (12 R549, R552) -/
def execCoreI64tof (cp : Fin 32) (w : Word) (s : State) : Res :=
  .next (s.fround cp.val w E.I64TOF (fWide w) false fun t m rm => m.ofInt rm (t.xr cp.val (fSrc1 w)).toInt)

/-- U64TOF: (12 R549, R552) -/
def execCoreU64tof (cp : Fin 32) (w : Word) (s : State) : Res :=
  .next (s.fround cp.val w E.U64TOF (fWide w) false fun t m rm => m.ofInt rm ((t.xr cp.val (fSrc1 w)).toNat : Int))

/-- I32TOF: bits 31:0 of integer SRC1; exact in binary64, so only binary32 rounds. (12 R549, R552) -/
def execCoreI32tof (cp : Fin 32) (w : Word) (s : State) : Res :=
  .next (if fWide w then s.fexec cp.val w E.I32TOF false fun t _ => f64.ofInt .rne (toSigned 32 (t.xr cp.val (fSrc1 w)).toNat)
    else s.fround cp.val w E.I32TOF false false fun t m rm => m.ofInt rm (toSigned 32 (t.xr cp.val (fSrc1 w)).toNat))

/-- U32TOF: bits 31:0 of integer SRC1; exact in binary64, so only binary32 rounds. (12 R549, R552) -/
def execCoreU32tof (cp : Fin 32) (w : Word) (s : State) : Res :=
  .next (if fWide w then s.fexec cp.val w E.U32TOF false fun t _ =>
      f64.ofInt .rne ((((t.xr cp.val (fSrc1 w)).toNat % 2 ^ 32 : Nat) : Int))
    else s.fround cp.val w E.U32TOF false false fun t m rm => m.ofInt rm ((((t.xr cp.val (fSrc1 w)).toNat % 2 ^ 32 : Nat) : Int)))

/-- FWIDTH: binary32 to binary64 exactly, binary64 to binary32 rounded (12 R549, R552). -/
def execCoreFwidth (cp : Fin 32) (w : Word) (s : State) : Res :=
  .next (if fWide w then s.fround cp.val w E.FWIDTH true false fun t _ rm => f64.convert f32 rm (t.fr cp.val (fSrc1 w))
    else s.fexec cp.val w E.FWIDTH false fun t _ => f32.convert f64 .rne (t.fop cp.val false (fSrc1 w)))

/-- FMAC: SRC1 × SRC2 + SRC3, rounded once. (12 R549, R552) -/
def execCoreFmac (cp : Fin 32) (w : Word) (s : State) : Res :=
  .next (s.ffma cp.val w E.FMAC false false)

/-- FMSC: SRC1 × SRC2 − SRC3, rounded once. (12 R549, R552) -/
def execCoreFmsc (cp : Fin 32) (w : Word) (s : State) : Res :=
  .next (s.ffma cp.val w E.FMSC false true)

/-- FNMAC: −(SRC1 × SRC2) + SRC3, rounded once. (12 R549, R552) -/
def execCoreFnmac (cp : Fin 32) (w : Word) (s : State) : Res :=
  .next (s.ffma cp.val w E.FNMAC true false)

/-- FNMSC: −(SRC1 × SRC2) − SRC3, rounded once. (12 R549, R552) -/
def execCoreFnmsc (cp : Fin 32) (w : Word) (s : State) : Res :=
  .next (s.ffma cp.val w E.FNMSC true true)


end Sys2Proof.Machine
end

