-- ==== Sys2Proof/Machine/CoreFlow.lean ====
section
/-! DEFINITION. Branches, jumps, calls and windows of the Tchicel core (12 R539 to R541, R546, R549). -/
namespace Sys2Proof.Machine

/-- A branch: its target by OFF16, taken or not (12 R548, R577). -/
def State.branch (s : State) (c : Nat) (w : Word) (e : Enc) (f : DWord → DWord → Bool) : State :=
  s.insn c w e fun t =>
    let pc := (t.core c).pc
    let b := f (t.xr c (bSrc1 w)) (t.xr c (bSrc2 w))
    (t.signBranch c b (pc + off16 w)).retireTo c (if b then pc + off16 w else pc + 4)

/-- A jump to a target that saves the return address in register `d` (12 R549). -/
def State.jump (s : State) (c d : Nat) (target : DWord) : State :=
  let pc := (s.core c).pc
  ((s.setX c d (pc + 4)).signBranch c true target).retireTo c target

/-- SRC1 + IMM16 with bits 1:0 cleared. -/
def State.jumpTarget (s : State) (c : Nat) (w : Word) : DWord := ((s.xr c (fSrc1 w) + imm16 w) >>> 2) <<< 2

/-- Whether LEAVE can return, else the trap it raises: 8 WIN_UNF, 0 ILLEGAL (12 R540, R546). -/
def CoreState.leaveTrap (k : CoreState) : Option Nat :=
  if k.level ≠ 0 then some 0 else if 2 ≤ k.res then none else if 1 ≤ k.spilled then some 8 else some 0

/-- The caller's window becomes current. -/
def CoreState.leave (k : CoreState) : CoreState := { k with wstate := wstateOf ((k.cwp + 14) % 15) (k.res - 1) k.spilled }

/-- A window trap: WIN_OVF and WIN_UNF leave TVAL open, ILLEGAL gives the word (12 R561). -/
def State.winTrap (s : State) (c code : Nat) (w : Word) : State :=
  if code = 0 then s.illegal c w else s.trapFree c code 0 (s.core c).pc

/-- BREQ: branch if equal. (12 R549) -/
def execCoreBreq (cp : Fin 32) (w : Word) (s : State) : Res :=
  .next (s.branch cp.val w E.BREQ (fun a b => decide (a = b)))

/-- BRNE: branch if not equal. (12 R549) -/
def execCoreBrne (cp : Fin 32) (w : Word) (s : State) : Res :=
  .next (s.branch cp.val w E.BRNE (fun a b => decide (a ≠ b)))

/-- BRLT: branch if less, signed. (12 R549) -/
def execCoreBrlt (cp : Fin 32) (w : Word) (s : State) : Res :=
  .next (s.branch cp.val w E.BRLT (fun a b => a.slt b))

/-- BRGE: branch if greater or equal, signed. (12 R549) -/
def execCoreBrge (cp : Fin 32) (w : Word) (s : State) : Res :=
  .next (s.branch cp.val w E.BRGE (fun a b => !a.slt b))

/-- BRLTU: branch if less, unsigned. (12 R549) -/
def execCoreBrltu (cp : Fin 32) (w : Word) (s : State) : Res :=
  .next (s.branch cp.val w E.BRLTU (fun a b => a.ult b))

/-- BRGEU: branch if greater or equal, unsigned. (12 R549) -/
def execCoreBrgeu (cp : Fin 32) (w : Word) (s : State) : Res :=
  .next (s.branch cp.val w E.BRGEU (fun a b => !a.ult b))

/-- JMP: PC := target. (12 R549) -/
def execCoreJmp (cp : Fin 32) (w : Word) (s : State) : Res :=
  .next (s.insn cp.val w E.JMP fun t => t.jump cp.val 0 ((t.core cp.val).pc + off26 w))

/-- CALL: d7 := PC + 4; PC := target. (12 R549) -/
def execCoreCall (cp : Fin 32) (w : Word) (s : State) : Res :=
  .next (s.insn cp.val w E.CALL fun t => t.jump cp.val 31 ((t.core cp.val).pc + off26 w))

/-- JMPR: DST := PC + 4; PC := SRC1 + IMM16. (12 R549) -/
def execCoreJmpr (cp : Fin 32) (w : Word) (s : State) : Res :=
  .next (s.insn cp.val w E.JMPR fun t => t.jump cp.val (fDst w) (t.jumpTarget cp.val w))

/-- CALLR: d7 := PC + 4; PC := SRC1 + IMM16. (12 R549) -/
def execCoreCallr (cp : Fin 32) (w : Word) (s : State) : Res :=
  .next (s.insn cp.val w E.CALLR fun t => t.jump cp.val 31 (t.jumpTarget cp.val w))

/-- ENTER: a new window of zeros, or WIN_OVF with 14 resident windows; ILLEGAL in the trap window (12 R539, R546). -/
def execCoreEnter (cp : Fin 32) (w : Word) (s : State) : Res :=
  .next (s.insn cp.val w E.ENTER fun t =>
    let k := t.core cp.val
    if k.level ≠ 0 then t.illegal cp.val w
    else if 14 ≤ k.res then t.winTrap cp.val 7 w
    else
      let n := (k.cwp + 1) % 15
      (t.co cp.val fun k => { k with wstate := wstateOf n (k.res + 1) k.spilled
                                     win := (List.range 16).foldl (fun m i => tset 0 m (16 * n + i) 0) k.win }).retire cp.val)

/-- LEAVE (12 R540, R546). -/
def execCoreLeave (cp : Fin 32) (w : Word) (s : State) : Res :=
  .next (s.insn cp.val w E.LEAVE fun t =>
    match (t.core cp.val).leaveTrap with
    | some code => t.winTrap cp.val code w
    | none => (t.co cp.val CoreState.leave).retire cp.val)

/-- RET: LEAVE, then a jump to the address that a7 held (12 R541, R546). -/
def execCoreRet (cp : Fin 32) (w : Word) (s : State) : Res :=
  .next (s.insn cp.val w E.RET fun t =>
    match (t.core cp.val).leaveTrap with
    | some code => t.winTrap cp.val code w
    | none =>
      let target := ((t.xr cp.val 15) >>> 2) <<< 2
      ((t.co cp.val CoreState.leave).signBranch cp.val true target).retireTo cp.val target)


end Sys2Proof.Machine
end

