-- ==== Sys2Proof/Machine/CoreInt.lean ====
section
/-! DEFINITION. Integer instructions of the Tchicel core (12 R549, R551). -/
namespace Sys2Proof.Machine

/-! ## What the integer groups compute (12 R549, R551) -/

/-- 64 bits of a signed integer. -/
def ofI (i : Int) : DWord := BitVec.ofInt 64 i

/-- 0 or 1 as a register value. -/
def bit1 (b : Bool) : DWord := if b then 1 else 0

/-- A shift by an amount: kind 0 left, 1 right filling zeros, 2 right filling the sign. -/
def shift64 (k : Nat) (a : DWord) (n : Nat) : DWord :=
  if k = 0 then a <<< n else if k = 1 then a >>> n else a.sshiftRight n

/-- A shift of bits 31:0, the result sign-extended. -/
def shift32 (k : Nat) (a : DWord) (n : Nat) : DWord :=
  let x : BitVec 32 := a.truncate 32
  (if k = 0 then x <<< n else if k = 1 then x >>> n else x.sshiftRight n).signExtend 64

/-- A 32-bit form: an operation on bits 31:0, its result sign-extended. -/
def op32 (f : BitVec 32 → BitVec 32 → BitVec 32) (a b : DWord) : DWord := (f (a.truncate 32) (b.truncate 32)).signExtend 64

/-- The signed quotient rounded toward zero; zero on division by zero. -/
def divS {n : Nat} (a b : BitVec n) : BitVec n := BitVec.ofInt n (a.toInt.tdiv b.toInt)

/-- The unsigned quotient; zero on division by zero. -/
def divU {n : Nat} (a b : BitVec n) : BitVec n := BitVec.ofNat n (a.toNat / b.toNat)

/-- The signed remainder with the sign of the dividend; the dividend on division by zero. -/
def modS {n : Nat} (a b : BitVec n) : BitVec n := BitVec.ofInt n (a.toInt.tmod b.toInt)

/-- The unsigned remainder; the dividend on division by zero. -/
def modU {n : Nat} (a b : BitVec n) : BitVec n := BitVec.ofNat n (a.toNat % b.toNat)

/-- An instruction of format A: DST := SRC1 op SRC2. -/
def State.opA (s : State) (c : Nat) (w : Word) (e : Enc) (f : DWord → DWord → DWord) : State :=
  s.insn c w e fun t => t.put1 c w (f (t.xr c (fSrc1 w)) (t.xr c (fSrc2 w)))

/-- An instruction of format I: DST := SRC1 op IMM16. -/
def State.opI (s : State) (c : Nat) (w : Word) (e : Enc) (f : DWord → DWord → DWord) (imm : DWord) : State :=
  s.insn c w e fun t => t.put1 c w (f (t.xr c (fSrc1 w)) imm)

/-! ## The instructions -/

/-- ADD: SRC1 plus SRC2. (12 R549, R551) -/
def execCoreAdd (cp : Fin 32) (w : Word) (s : State) : Res :=
  .next (s.opA cp.val w E.ADD (fun a b => a + b))

/-- SUB: SRC1 minus SRC2. (12 R549, R551) -/
def execCoreSub (cp : Fin 32) (w : Word) (s : State) : Res :=
  .next (s.opA cp.val w E.SUB (fun a b => a - b))

/-- AND: bitwise AND. (12 R549, R551) -/
def execCoreAnd (cp : Fin 32) (w : Word) (s : State) : Res :=
  .next (s.opA cp.val w E.AND (fun a b => a &&& b))

/-- IOR: bitwise inclusive OR. (12 R549, R551) -/
def execCoreIor (cp : Fin 32) (w : Word) (s : State) : Res :=
  .next (s.opA cp.val w E.IOR (fun a b => a ||| b))

/-- XOR: bitwise exclusive OR. (12 R549, R551) -/
def execCoreXor (cp : Fin 32) (w : Word) (s : State) : Res :=
  .next (s.opA cp.val w E.XOR (fun a b => a ^^^ b))

/-- SHL: left by bits 5:0 of SRC2. (12 R549, R551) -/
def execCoreShl (cp : Fin 32) (w : Word) (s : State) : Res :=
  .next (s.opA cp.val w E.SHL (fun a b => shift64 0 a (b.toNat % 64)))

/-- SHR: right by bits 5:0 of SRC2, filling zeros. (12 R549, R551) -/
def execCoreShr (cp : Fin 32) (w : Word) (s : State) : Res :=
  .next (s.opA cp.val w E.SHR (fun a b => shift64 1 a (b.toNat % 64)))

/-- SHA: right by bits 5:0 of SRC2, filling the sign. (12 R549, R551) -/
def execCoreSha (cp : Fin 32) (w : Word) (s : State) : Res :=
  .next (s.opA cp.val w E.SHA (fun a b => shift64 2 a (b.toNat % 64)))

/-- LESS: 1 where SRC1 is below SRC2, signed. (12 R549, R551) -/
def execCoreLess (cp : Fin 32) (w : Word) (s : State) : Res :=
  .next (s.opA cp.val w E.LESS (fun a b => bit1 (a.slt b)))

/-- LESSU: 1 where SRC1 is below SRC2, unsigned. (12 R549, R551) -/
def execCoreLessu (cp : Fin 32) (w : Word) (s : State) : Res :=
  .next (s.opA cp.val w E.LESSU (fun a b => bit1 (a.ult b)))

/-- MUL: the low 64 bits of the product. (12 R549, R551) -/
def execCoreMul (cp : Fin 32) (w : Word) (s : State) : Res :=
  .next (s.opA cp.val w E.MUL (fun a b => a * b))

/-- MULHI: bits 127:64 of the signed product. (12 R549, R551) -/
def execCoreMulhi (cp : Fin 32) (w : Word) (s : State) : Res :=
  .next (s.opA cp.val w E.MULHI (fun a b => ofI (a.toInt * b.toInt / 2 ^ 64)))

/-- MULHIU: bits 127:64 of the unsigned product. (12 R549, R551) -/
def execCoreMulhiu (cp : Fin 32) (w : Word) (s : State) : Res :=
  .next (s.opA cp.val w E.MULHIU (fun a b => BitVec.ofNat 64 (a.toNat * b.toNat / 2 ^ 64)))

/-- MULHIX: bits 127:64 of the product of signed SRC1 and unsigned SRC2. (12 R549, R551) -/
def execCoreMulhix (cp : Fin 32) (w : Word) (s : State) : Res :=
  .next (s.opA cp.val w E.MULHIX (fun a b => ofI (a.toInt * (b.toNat : Int) / 2 ^ 64)))

/-- DIV: the signed quotient. (12 R549, R551) -/
def execCoreDiv (cp : Fin 32) (w : Word) (s : State) : Res :=
  .next (s.opA cp.val w E.DIV (divS))

/-- DIVU: the unsigned quotient. (12 R549, R551) -/
def execCoreDivu (cp : Fin 32) (w : Word) (s : State) : Res :=
  .next (s.opA cp.val w E.DIVU (divU))

/-- MOD: the signed remainder. (12 R549, R551) -/
def execCoreMod (cp : Fin 32) (w : Word) (s : State) : Res :=
  .next (s.opA cp.val w E.MOD (modS))

/-- MODU: the unsigned remainder. (12 R549, R551) -/
def execCoreModu (cp : Fin 32) (w : Word) (s : State) : Res :=
  .next (s.opA cp.val w E.MODU (modU))

/-- ADD32: the 32-bit form of ADD. (12 R549, R551) -/
def execCoreAdd32 (cp : Fin 32) (w : Word) (s : State) : Res :=
  .next (s.opA cp.val w E.ADD32 (op32 fun a b => a + b))

/-- SUB32: the 32-bit form of SUB. (12 R549, R551) -/
def execCoreSub32 (cp : Fin 32) (w : Word) (s : State) : Res :=
  .next (s.opA cp.val w E.SUB32 (op32 fun a b => a - b))

/-- SHL32: bits 31:0 left by bits 4:0 of SRC2. (12 R549, R551) -/
def execCoreShl32 (cp : Fin 32) (w : Word) (s : State) : Res :=
  .next (s.opA cp.val w E.SHL32 (fun a b => shift32 0 a (b.toNat % 32)))

/-- SHR32: bits 31:0 right by bits 4:0 of SRC2, filling zeros. (12 R549, R551) -/
def execCoreShr32 (cp : Fin 32) (w : Word) (s : State) : Res :=
  .next (s.opA cp.val w E.SHR32 (fun a b => shift32 1 a (b.toNat % 32)))

/-- SHA32: bits 31:0 right by bits 4:0 of SRC2, filling the sign. (12 R549, R551) -/
def execCoreSha32 (cp : Fin 32) (w : Word) (s : State) : Res :=
  .next (s.opA cp.val w E.SHA32 (fun a b => shift32 2 a (b.toNat % 32)))

/-- MUL32: the 32-bit form of MUL. (12 R549, R551) -/
def execCoreMul32 (cp : Fin 32) (w : Word) (s : State) : Res :=
  .next (s.opA cp.val w E.MUL32 (op32 fun a b => a * b))

/-- DIV32: the 32-bit form of DIV. (12 R549, R551) -/
def execCoreDiv32 (cp : Fin 32) (w : Word) (s : State) : Res :=
  .next (s.opA cp.val w E.DIV32 (op32 divS))

/-- DIVU32: the 32-bit form of DIVU. (12 R549, R551) -/
def execCoreDivu32 (cp : Fin 32) (w : Word) (s : State) : Res :=
  .next (s.opA cp.val w E.DIVU32 (op32 divU))

/-- MOD32: the 32-bit form of MOD. (12 R549, R551) -/
def execCoreMod32 (cp : Fin 32) (w : Word) (s : State) : Res :=
  .next (s.opA cp.val w E.MOD32 (op32 modS))

/-- MODU32: the 32-bit form of MODU. (12 R549, R551) -/
def execCoreModu32 (cp : Fin 32) (w : Word) (s : State) : Res :=
  .next (s.opA cp.val w E.MODU32 (op32 modU))

/-- ADDK: SRC1 plus IMM16. (12 R548, R549) -/
def execCoreAddk (cp : Fin 32) (w : Word) (s : State) : Res :=
  .next (s.opI cp.val w E.ADDK (fun a b => a + b) (imm16 w))

/-- ANDK: SRC1 AND IMM16, sign-extended. (12 R548, R549) -/
def execCoreAndk (cp : Fin 32) (w : Word) (s : State) : Res :=
  .next (s.opI cp.val w E.ANDK (fun a b => a &&& b) (imm16 w))

/-- IORK: SRC1 inclusive OR IMM16, zero-extended. (12 R548, R549) -/
def execCoreIork (cp : Fin 32) (w : Word) (s : State) : Res :=
  .next (s.opI cp.val w E.IORK (fun a b => a ||| b) (imm16u w))

/-- XORK: SRC1 exclusive OR IMM16, zero-extended. (12 R548, R549) -/
def execCoreXork (cp : Fin 32) (w : Word) (s : State) : Res :=
  .next (s.opI cp.val w E.XORK (fun a b => a ^^^ b) (imm16u w))

/-- LESSK: 1 where SRC1 is below IMM16, signed. (12 R548, R549) -/
def execCoreLessk (cp : Fin 32) (w : Word) (s : State) : Res :=
  .next (s.opI cp.val w E.LESSK (fun a b => bit1 (a.slt b)) (imm16 w))

/-- LESSUK: 1 where SRC1 is below the sign-extended IMM16, unsigned. (12 R548, R549) -/
def execCoreLessuk (cp : Fin 32) (w : Word) (s : State) : Res :=
  .next (s.opI cp.val w E.LESSUK (fun a b => bit1 (a.ult b)) (imm16 w))

/-- ADD32K: the 32-bit form of ADDK. (12 R548, R549) -/
def execCoreAdd32k (cp : Fin 32) (w : Word) (s : State) : Res :=
  .next (s.opI cp.val w E.ADD32K (op32 fun a b => a + b) (imm16 w))

/-- SHIFTK: SRC1 shifted by the immediate amount and kind, kind 3 ILLEGAL; the 32-bit form by bits 4:0 (12 R549, R551). -/
def execCoreShiftk (cp : Fin 32) (w : Word) (s : State) : Res :=
  .next (s.insn cp.val w E.SHIFTK fun t =>
    let k := getBits w 24 2
    let a := t.xr cp.val (fSrc1 w)
    if k = 3 then t.illegal cp.val w
    else t.put1 cp.val w (if w.getLsbD 26 then shift32 k a (getBits w 16 5) else shift64 k a (getBits w 16 6)))

/-- MKHI: IMM21 × 2^16. (12 R549) -/
def execCoreMkhi (cp : Fin 32) (w : Word) (s : State) : Res :=
  .next (s.insn cp.val w E.MKHI fun t => t.put1 cp.val w (imm21 w <<< 16))

/-- PCHI: PC plus IMM21 × 2^16. (12 R549) -/
def execCorePchi (cp : Fin 32) (w : Word) (s : State) : Res :=
  .next (s.insn cp.val w E.PCHI fun t => t.put1 cp.val w ((t.core cp.val).pc + (imm21 w <<< 16)))


end Sys2Proof.Machine
end

