-- ==== Sys2Proof/Machine/CoreMem.lean ====
section
/-! DEFINITION. Loads and stores of the Tchicel core (12 R549, R554). -/
namespace Sys2Proof.Machine

/-- What an answered load does: DST written by `f` from the value, or the trap (12 R559, R601). -/
def State.loadEnd (s : State) (c : Nat) (f : State → Nat → State) : MemRes → State
  | .val v => (f s v).retire c
  | .fault code tval => s.trapAt c code tval

/-- A load and its end. -/
def State.loadInto (s : State) (c a size : Nat) (f : State → Nat → State) : State :=
  let r := s.load c (s.core c).level a size false
  r.1.loadEnd c f r.2

/-- An integer load of `size` bytes at SRC1 + IMM16, extended by `ext`. -/
def State.loadX (s : State) (c : Nat) (w : Word) (e : Enc) (size : Nat) (ext : Nat → DWord) : State :=
  s.insn c w e fun t => t.loadInto c (t.xr c (fSrc1 w) + imm16 w).toNat size fun u v => u.setX c (fDst w) (ext v)

/-- A floating load; binary32 is written with bits 63:32 zero (12 R537). -/
def State.loadF (s : State) (c : Nat) (w : Word) (e : Enc) (size : Nat) : State :=
  s.insn c w e fun t => t.loadInto c (t.xr c (fSrc1 w) + imm16 w).toNat size fun u v => u.setF c (fDst w) (BitVec.ofNat 64 v)

/-- What a store ends in: the next instruction, or the trap. -/
def State.storeEnd (s : State) (c : Nat) : Option (Nat × DWord) → State
  | none => s.retire c
  | some f => s.trapAt c f.1 f.2

/-- A store of the low `size` bytes of a value at SRC1 + IMM16; while the commit buffer is full both cores stall (12 R578). -/
def State.storeX (s : State) (c : Nat) (w : Word) (e : Enc) (size : Nat) (v : State → Nat) : State :=
  s.insn c w e fun t =>
    let a := (t.xr c (fSrc1 w) + imm16 w).toNat
    if t.bufFull c a then s else
    let r := t.store c (t.core c).level a size (v t) false
    r.1.storeEnd c r.2

/-- Sign extension of `n` bits. -/
def sext (n v : Nat) : DWord := BitVec.ofInt 64 (toSigned n v)

/-- LD8S: one byte, sign-extended. (12 R549, R554) -/
def execCoreLd8s (cp : Fin 32) (w : Word) (s : State) : Res :=
  .next (s.loadX cp.val w E.LD8S 1 (sext 8))

/-- LD8U: one byte, zero-extended. (12 R549, R554) -/
def execCoreLd8u (cp : Fin 32) (w : Word) (s : State) : Res :=
  .next (s.loadX cp.val w E.LD8U 1 (BitVec.ofNat 64))

/-- LD16S: two bytes, sign-extended. (12 R549, R554) -/
def execCoreLd16s (cp : Fin 32) (w : Word) (s : State) : Res :=
  .next (s.loadX cp.val w E.LD16S 2 (sext 16))

/-- LD16U: two bytes, zero-extended. (12 R549, R554) -/
def execCoreLd16u (cp : Fin 32) (w : Word) (s : State) : Res :=
  .next (s.loadX cp.val w E.LD16U 2 (BitVec.ofNat 64))

/-- LD32S: four bytes, sign-extended. (12 R549, R554) -/
def execCoreLd32s (cp : Fin 32) (w : Word) (s : State) : Res :=
  .next (s.loadX cp.val w E.LD32S 4 (sext 32))

/-- LD32U: four bytes, zero-extended. (12 R549, R554) -/
def execCoreLd32u (cp : Fin 32) (w : Word) (s : State) : Res :=
  .next (s.loadX cp.val w E.LD32U 4 (BitVec.ofNat 64))

/-- LD64: eight bytes. (12 R549, R554) -/
def execCoreLd64 (cp : Fin 32) (w : Word) (s : State) : Res :=
  .next (s.loadX cp.val w E.LD64 8 (BitVec.ofNat 64))

/-- LDPC: the 64-bit word at PC, bits 2:0 cleared, plus 8 × IMM21 (12 R549). -/
def execCoreLdpc (cp : Fin 32) (w : Word) (s : State) : Res :=
  .next (s.insn cp.val w E.LDPC fun t =>
    t.loadInto cp.val ((((t.core cp.val).pc >>> 3) <<< 3) + (imm21 w <<< 3)).toNat 8 fun u v =>
      u.setX cp.val (fDst w) (BitVec.ofNat 64 v))

/-- ST8: the low 1 byte of SRC2. (12 R549, R554) -/
def execCoreSt8 (cp : Fin 32) (w : Word) (s : State) : Res :=
  .next (s.storeX cp.val w E.ST8 1 fun t => (t.xr cp.val (sData w)).toNat)

/-- ST16: the low 2 bytes of SRC2. (12 R549, R554) -/
def execCoreSt16 (cp : Fin 32) (w : Word) (s : State) : Res :=
  .next (s.storeX cp.val w E.ST16 2 fun t => (t.xr cp.val (sData w)).toNat)

/-- ST32: the low 4 bytes of SRC2. (12 R549, R554) -/
def execCoreSt32 (cp : Fin 32) (w : Word) (s : State) : Res :=
  .next (s.storeX cp.val w E.ST32 4 fun t => (t.xr cp.val (sData w)).toNat)

/-- ST64: the low 8 bytes of SRC2. (12 R549, R554) -/
def execCoreSt64 (cp : Fin 32) (w : Word) (s : State) : Res :=
  .next (s.storeX cp.val w E.ST64 8 fun t => (t.xr cp.val (sData w)).toNat)

/-- FLD32: a floating load of 4 bytes. (12 R537, R549) -/
def execCoreFld32 (cp : Fin 32) (w : Word) (s : State) : Res :=
  .next (s.loadF cp.val w E.FLD32 4)

/-- FLD64: a floating load of 8 bytes. (12 R537, R549) -/
def execCoreFld64 (cp : Fin 32) (w : Word) (s : State) : Res :=
  .next (s.loadF cp.val w E.FLD64 8)

/-- FST32: the low 4 bytes of a floating register. (12 R549) -/
def execCoreFst32 (cp : Fin 32) (w : Word) (s : State) : Res :=
  .next (s.storeX cp.val w E.FST32 4 fun t => t.fr cp.val (sData w))

/-- FST64: the low 8 bytes of a floating register. (12 R549) -/
def execCoreFst64 (cp : Fin 32) (w : Word) (s : State) : Res :=
  .next (s.storeX cp.val w E.FST64 8 fun t => t.fr cp.val (sData w))


end Sys2Proof.Machine
end

