-- ==== Sys2Proof/Machine/CoreSys.lean ====
section
/-! DEFINITION. System registers, traps by instruction, returns, context switches, window spills and what happens to a core
pair from outside: interrupts, comparators, error responses (12 R542 to R545, R550, R558, R562 to R574, R577 to R586). -/
namespace Sys2Proof.Machine

/-! ## System registers (12 R550, R586) -/

/-- Lowest level of a system register and whether it can be written; none for an unassigned number (12 R586). -/
def sysInfo (n : Nat) : Option (Nat × Bool) :=
  if n = 0x001 then some (0, true)
  else if 0x300 ≤ n ∧ n ≤ 0x30D then some (1, true)
  else if 0x400 ≤ n ∧ n ≤ 0x405 then some (1, false)
  else if n = 0x800 ∨ n = 0x801 then some (3, true)
  else if n = 0x900 then some (3, false)
  else none

/-- Whether SYSREG may be accessed at a level, for writing or not (12 R550). -/
def sysAllowed (n lv : Nat) (write : Bool) : Bool :=
  match sysInfo n with
  | some (l, w) => decide (l ≤ lv) && (w || !write)
  | none => false

/-- Whether reading a system register gives a value that the spec leaves to timing: CYCLE and LTIME (assumption 2). -/
def sysFree (n : Nat) : Bool := decide (n = 0x402) || decide (n = 0x404)

/-- The value of a system register. -/
def State.sysVal (s : State) (c n : Nat) : DWord :=
  let k := s.core c
  match n with
  | 0x001 => k.fcsr
  | 0x300 => k.wstate
  | 0x301 => k.spillPtr
  | 0x302 => k.spillLim
  | 0x303 => k.tpc
  | 0x304 => k.tstatus
  | 0x305 => k.tval
  | 0x306 => k.xpc
  | 0x307 => k.xstatus
  | 0x308 => k.xwstate
  | 0x309 => k.xspill
  | 0x30A => k.xspillLim
  | 0x30B => k.stvec
  | 0x30C => k.timecmp
  | 0x30D => k.ipend
  | 0x400 => k.tcause
  | 0x401 => BitVec.ofNat 64 (k.level + 4 * b2n (s.on (F.ACC_CTL_ASET c)) + 8 * b2n k.dupOn)
  | 0x403 => k.instret
  | 0x405 => BitVec.ofNat 64 c
  | 0x800 => k.mtvec
  | 0x801 => 0
  | 0x900 => k.lsStatus
  | _ => s.free

/-- The bits of a system register that a write reaches; all others read zero (12 R586). -/
def sysMask (n : Nat) : DWord :=
  match n with
  | 0x001 => 0x71F
  | 0x300 => 0xFFFF00FF
  | 0x304 => 7
  | 0x307 => 7
  | 0x308 => 0xFFFF00FF
  | 0x30B => ~~~0x3F
  | 0x30D => 0x1F
  | 0x801 => 1
  | _ => ~~~0

/-- Whether a value can be written: a CWP of 15 is refused (12 WSTATE). -/
def sysTakes (n : Nat) (v : DWord) : Bool := !((decide (n = 0x300) || decide (n = 0x308)) && decide (v.toNat % 16 = 15))

/-- A write of a system register that takes the value; IPEND is written by `ipendClear`, LS_CTL by `injectStart`. -/
def CoreState.sysSet (k : CoreState) (n : Nat) (v0 : DWord) : CoreState :=
  let v := v0 &&& sysMask n
  match n with
  | 0x001 => { k with fcsr := v }
  | 0x300 => { k with wstate := v }
  | 0x301 => { k with spillPtr := v }
  | 0x302 => { k with spillLim := v }
  | 0x303 => { k with tpc := v }
  | 0x304 => { k with tstatus := v }
  | 0x305 => { k with tval := v }
  | 0x306 => { k with xpc := v }
  | 0x307 => { k with xstatus := v }
  | 0x308 => { k with xwstate := v }
  | 0x309 => { k with xspill := v }
  | 0x30A => { k with xspillLim := v }
  | 0x30B => { k with stvec := v }
  | 0x30C => { k with timecmp := v }
  | 0x800 => { k with mtvec := v }
  | _ => k

/-- TEST of LS_CTL: the injection test runs, accepted only while no U context is held (12 R581, LS_CTL). -/
def CoreState.injectStart (k : CoreState) : CoreState := if k.tstatus.getLsbD 2 then k else { k with testing := true }

/-- What a write of `new` with the operand `arg` does: IPEND clears the bits of the operand, LS_CTL acts on bit 0. -/
def CoreState.sysAct (k : CoreState) (n : Nat) (new arg : DWord) : CoreState :=
  if n = 0x30D then { k with ipend := k.ipend &&& ~~~arg }
  else if n = 0x801 then (if new.getLsbD 0 then k.injectStart else k)
  else k.sysSet n new

/-- SYSRD: DST := the register (12 R549, R550). -/
def execCoreSysrd (cp : Fin 32) (w : Word) (s : State) : Res :=
  .next (s.insn cp.val w E.SYSRD fun t =>
    let n := fSysreg w
    if sysAllowed n (t.core cp.val).level false then
      (if sysFree n then t.take else t).put1 cp.val w (t.sysVal cp.val n)
    else t.illegal cp.val w)

/-- A write of a system register: the new value from the old one and SRC1; DST, where one is written, takes the old one. -/
def State.sysWrite (s : State) (c : Nat) (w : Word) (e : Enc) (old : Bool) (f : DWord → DWord → DWord) : State :=
  s.insn c w e fun t =>
    let n := fSysreg w
    let was := t.sysVal c n
    let arg := t.xr c (fSrc1 w)
    if sysAllowed n (t.core c).level true && sysTakes n (f was arg) then
      (if old then t.put1 c w was else t.retire c).co c fun k => k.sysAct n (f was arg) arg
    else t.illegal c w

/-- SYSWR (12 R549, R550). -/
def execCoreSyswr (cp : Fin 32) (w : Word) (s : State) : Res := .next (s.sysWrite cp.val w E.SYSWR false fun _ b => b)

/-- SYSSET (12 R549, R550). -/
def execCoreSysset (cp : Fin 32) (w : Word) (s : State) : Res := .next (s.sysWrite cp.val w E.SYSSET true fun a b => a ||| b)

/-- SYSCLR (12 R549, R550). -/
def execCoreSysclr (cp : Fin 32) (w : Word) (s : State) : Res :=
  .next (s.sysWrite cp.val w E.SYSCLR true fun a b => a &&& ~~~b)

/-! ## Traps by instruction (12 R561, R571, R572) -/

/-- An activation is complete (12 R571, R572; 05 R213, R214, R240): DONE, or LATE after an overrun; the stack lines it wrote
become zero. -/
def State.completeAct (s : State) (c idx ns : Nat) : State :=
  match (s.core c).cur with
  | none => s
  | some p =>
    let st := s.pst p
    if st = 2 ∨ st = 4 then
      let s1 := s.each (s.part p).stackLines (fun t a => t.memZero a 64)
      let s2 := (s1.pa p fun k => { k with idxCount := idx, coreNs := ns, stackLines := [], ranAt := s.count }).coreDrop p
      let s3 := (s2.wrN (R.CYC_PRUN p) ns).wrN (R.CYC_PMAX p) (max (s2.rdN (R.CYC_PMAX p)) (ns % 2 ^ 32))
      (s3.wrN (R.CYC_PRUNS p) (s3.rdN (R.CYC_PRUNS p) + 1)).setPst p (if st = 2 then 3 else 5)
    else s

/-- An instruction retires and traps with the next instruction's address (12 R566, codes 9 to 11). -/
def State.trapNext (s : State) (c code num : Nat) : State :=
  let npc := (s.core c).pc + 4
  (s.co c fun k => { k with instret := k.instret + 1 }).trapFree c code num npc

/-- SYSCALL n; SYSCALL 0 at U completes the activation, with the number of its indexed writes and its core time in ns
(12 R561, R571, assumption 12). -/
def execCoreSyscall (cp : Fin 32) (w : Word) (idx ns : Nat) (s : State) : Res :=
  .next (s.insn cp.val w E.SYSCALL fun t =>
    let n := fSysreg w
    let k := t.core cp.val
    let f := t.flush cp.val
    let u := if n = 0 ∧ k.level = 0 ∧ (f.core cp.val).storeErr.isNone then f.completeAct cp.val idx ns else t
    (u.co cp.val fun q => { q with level := k.level }).trapNext cp.val 9 n)

/-- BREAK (12 R561). -/
def execCoreBreak (cp : Fin 32) (w : Word) (s : State) : Res := .next (s.insn cp.val w E.BREAK fun t => t.trapNext cp.val 10 0)

/-- TRAP n (12 R561). -/
def execCoreTrap (cp : Fin 32) (w : Word) (s : State) : Res :=
  .next (s.insn cp.val w E.TRAP fun t => t.trapNext cp.val 11 (fSysreg w))

/-! ## Returns and context switches (12 R567, R570, R573) -/

/-- Whether activation `a` comes before `b`: class, PRIO, number (05 R207). -/
def PartRec.ahead (a b : PartRec) : Bool :=
  decide (a.cls < b.cls) || (decide (a.cls = b.cls) && (decide (a.prio < b.prio) || (decide (a.prio = b.prio) &&
      decide (a.part < b.part))))

/-- The activation of a list that runs first (05 R207). -/
def State.firstOf (s : State) (l : List Nat) : Option Nat :=
  l.foldl (fun m p => match m with
    | none => some p
    | some q => if (s.prec p).ahead (s.prec q) then some p else some q) none

/-- The runtime prepares a ready activation (12 R570): registers zero but the stub address in d7 of window 0, window state, spill
area, TPC at the entry. A context that it displaces it holds in memory (05 R208, 12 R574). -/
def State.startAct (s : State) (c p : Nat) : State :=
  let r := s.prec p
  (s.pa p fun k => { k with started := true, ranAt := s.count }).co c fun k =>
    { k with tpc := BitVec.ofNat 64 (r.codeBase + r.entry), g := [], f := [], fcsr := 0,
             win := tset 0 ((List.range 24).foldl (fun m i => tset 0 m (winKey 0 (8 + i)) 0) k.win) (winKey 0 31)
               (BitVec.ofNat 64 s.image.firmware.stub),
             wstate := wstateOf 0 1 0, spillPtr := BitVec.ofNat 64 (r.stackBase + r.stackSize),
             spillLim := BitVec.ofNat 64 r.stackBase, cur := some p, ready := k.ready.filter (fun q => q ≠ p)
             deep := k.cur.toList ++ k.deep }

/-- The runtime restores the context that runs first of those it holds in memory, where neither of the core pair's own is one (05
R207, R208, 12 R574). -/
def State.resumeDeep (s : State) (c : Nat) : State :=
  if (s.core c).cur.isSome then s else
  match s.firstOf (s.core c).deep with
  | some p => (s.pa p fun k => { k with ranAt := s.count }).co c fun k =>
      { k with cur := some p, deep := k.deep.filter (fun q => q ≠ p) }
  | none => s

/-- The level that PPL names; 0b10 names none, so the level is a free one (assumption 2). -/
def State.pplLevel (s : State) (c : Nat) : Nat :=
  match (s.core c).tstatus.toNat % 4 with
  | 2 => if s.free.toNat % 3 = 2 then 3 else s.free.toNat % 3
  | p => p

/-- The context into which TRET returns: at S where none is held, the ready activation that runs first, as the runtime has prepared it
(12 R570, assumption 50); into U, a context that the runtime restored from memory. -/
def State.tretInto (s : State) (c : Nat) : State :=
  let k := s.core c
  match (if k.level = 1 ∧ k.tstatus.toNat % 8 = 0 then s.firstOf k.ready else none) with
  | some p => s.startAct c p
  | none => if s.pplLevel c = 0 then s.resumeDeep c else s

/-- TRET (12 R567): the stores of the trap window leave, an error among them is a double fault; the level comes from TSTATUS and the
pc from TPC. -/
def execCoreTret (cp : Fin 32) (w : Word) (s : State) : Res :=
  .next (s.insnPriv cp.val w E.TRET fun t0 =>
    let t1 := t0.flush cp.val
    if (t1.core cp.val).storeErr.isSome then t1.doubleFault cp.val
    else
      let t2 := t1.tretInto cp.val
      let k := t2.core cp.val
      let lv := t2.pplLevel cp.val
      if lv = 0 ∧ k.res = 0 then t1.illegal cp.val w
      else
        let t := t2.signBranch cp.val true k.tpc
        let u := if k.tstatus.toNat % 4 = 2 then t.take else t
        u.co cp.val fun q => { q with level := lv, pc := q.tpc, instret := q.instret + 1,
                                      inDouble := if k.level = 3 then false else q.inDouble })

/-- The exchange of the two contexts (12 R573). -/
def CoreState.swap (k : CoreState) : CoreState :=
  { k with tpc := k.xpc, xpc := k.tpc, tstatus := k.xstatus, xstatus := k.tstatus, wstate := k.xwstate, xwstate := k.wstate,
           spillPtr := k.xspill, xspill := k.spillPtr, spillLim := k.xspillLim, xspillLim := k.spillLim,
           cur := k.oth, oth := k.cur }

/-- An activation ran up to now (05 R229). -/
def State.ranNow (s : State) (o : Option Nat) : State :=
  match o with
  | some p => s.pa p fun k => { k with ranAt := s.count }
  | none => s

/-- The contexts and the active set change together (12 R573; 13 R606). -/
def State.switchCtx (s : State) (c : Nat) : State :=
  let b := !s.on (F.ACC_CTL_ASET c)
  let s1 := (((s.co c CoreState.swap).ranNow (s.core c).cur).ranNow (s.core c).oth).putB (F.ACC_CTL_ASET c) b
  (s1.putB (F.ACC_CTL_BYPASS c) (if b then (s1.core c).bypB else (s1.core c).bypA)).retire c

/-- SWCTX (12 R567, R573; 13 R606): it waits while a record is being copied; then the contexts and the active set change
together. -/
def execCoreSwctx (cp : Fin 32) (w : Word) (s : State) : Res :=
  .next (s.insnPriv cp.val w E.SWCTX fun t0 =>
    let t := t0.flush cp.val
    if (t.core cp.val).storeErr.isSome then t.doubleFault cp.val
    else if t.on (F.ACC_CTL_BUSY cp.val) then t
    else t.switchCtx cp.val)

/-! ## Spills and fills (12 R542 to R545) -/

/-- The registers of a frame of window `b`, in ascending addresses: arrivals, kept registers, and the departures of a frame of
192 bytes (12 R542, R543). -/
def frameKeys (b : Nat) (long : Bool) : List Nat := (List.range (if long then 24 else 16)).map (fun i => winKey b (8 + i))

/-- The stores of a frame from an address, at level U under the active set; the first trap ends them. -/
def State.spillGo (s : State) (c a : Nat) : List Nat → State × Option (Nat × DWord)
  | [] => (s, none)
  | k :: t =>
    let r := s.store c 0 a 8 (tget 0 (s.core c).win k).toNat true
    if r.2.isNone then r.1.spillGo c (a + 8) t else r

/-- The loads of a frame from an address, at level U under the active set; the values read, or the first trap. -/
def State.fillGo (s : State) (c a : Nat) : List Nat → State × List (Nat × Nat) × Option (Nat × DWord)
  | [] => (s, [], none)
  | k :: t =>
    let q := s.load c 0 a 8 true
    match q.2 with
    | .val v =>
      let r := q.1.fillGo c (a + 8) t
      (r.1, (k, v) :: r.2.1, r.2.2)
    | .fault code tv => (q.1, [], some (code, tv))

/-- Bytes of a frame: 192 for RES 1 at a spill, RES 0 at a fill, else 128 (12 R542, R544). -/
def frameSize (long : Bool) : Nat := if long then 192 else 128

/-- The spill of the oldest frame at `a` (12 R542, R543). -/
def State.spillFrame (s : State) (c a : Nat) : State :=
  let k := s.core c
  let r := s.spillGo c a (frameKeys ((k.cwp + 16 - k.res) % 15) (decide (k.res = 1)))
  match r.2 with
  | none => (r.1.co c fun q => { q with spillPtr := BitVec.ofNat 64 a, wstate := wstateOf k.cwp (k.res - 1) (k.spilled + 1) }).retire c
  | some f => r.1.trapAt c f.1 f.2

/-- The fill of the latest frame (12 R544). -/
def State.fillFrame (s : State) (c : Nat) : State :=
  let k := s.core c
  let long := decide (k.res = 0)
  let r := s.fillGo c k.spillPtr.toNat (frameKeys ((k.cwp + 15 - k.res) % 15) long)
  match r.2.2 with
  | none =>
    (r.1.co c fun q => { q with win := r.2.1.foldl (fun m e => tset 0 m e.1 (BitVec.ofNat 64 e.2)) q.win
                                spillPtr := k.spillPtr + BitVec.ofNat 64 (frameSize long)
                                wstate := wstateOf k.cwp (k.res + 1) (k.spilled - 1) }).retire c
  | some f => r.1.trapAt c f.1 f.2

/-- WSPILL (12 R542, R543, R545, R565); while the commit buffer is full both cores stall (12 R578). -/
def execCoreWspill (cp : Fin 32) (w : Word) (s : State) : Res :=
  .next (s.insnPriv cp.val w E.WSPILL fun t =>
    let k := t.core cp.val
    let size := frameSize (decide (k.res = 1))
    let a := (k.spillPtr - BitVec.ofNat 64 size).toNat
    if k.res = 0 ∨ 65535 ≤ k.spilled then t.illegal cp.val w
    else if a % 8 ≠ 0 then t.trapAt cp.val 1 (BitVec.ofNat 64 a)
    else if a < k.spillLim.toNat ∨ k.spillPtr.toNat < size then
      (t.deny cp.val a 0 1 0 0 false true).trapAt cp.val 3 (BitVec.ofNat 64 a)
    else if (List.range (size / 8)).any (fun i => t.bufFull cp.val (a + 8 * i)) then s
    else t.spillFrame cp.val a)

/-- WFILL (12 R544, R545). -/
def execCoreWfill (cp : Fin 32) (w : Word) (s : State) : Res :=
  .next (s.insnPriv cp.val w E.WFILL fun t =>
    if 13 < (t.core cp.val).res ∨ (t.core cp.val).spilled = 0 then t.illegal cp.val w
    else t.fillFrame cp.val)

/-! ## Waits, fences, registers of the interrupted context -/

/-- WAIT (12 R549, R550): a wait that ends at once. -/
def execCoreWait (cp : Fin 32) (w : Word) (s : State) : Res := .next (s.insnPriv cp.val w E.WAIT fun t => t.retire cp.val)

/-- FENCE (12 R558): every earlier store has left. -/
def execCoreFence (cp : Fin 32) (w : Word) (s : State) : Res :=
  .next (s.insn cp.val w E.FENCE fun t => (t.flush cp.val).retire cp.val)

/-- CFLUSH (12 R534). MARK: DESIGN CHOICE: the word fetched at PC is an operand of each instruction, any word, so that it may be that
of a stale line before CFLUSH and of memory after it; the spec gives neither the size of a line nor when one is cached (assumption
24). -/
def execCoreCflush (cp : Fin 32) (w : Word) (s : State) : Res := .next (s.insnPriv cp.val w E.CFLUSH fun t => t.retire cp.val)

/-- XRD: DST := a register of window CWP (12 R549). -/
def execCoreXrd (cp : Fin 32) (w : Word) (s : State) : Res :=
  .next (s.insnPriv cp.val w E.XRD fun t =>
    let k := t.core cp.val
    t.put1 cp.val w (k.winReg k.cwp (fSysreg w % 32)))

/-- XWR: a register of window CWP := SRC1 (12 R549). -/
def execCoreXwr (cp : Fin 32) (w : Word) (s : State) : Res :=
  .next (s.insnPriv cp.val w E.XWR fun t =>
    let v := t.xr cp.val (fSrc1 w)
    (t.co cp.val fun k => k.setWinReg k.cwp (fSysreg w % 32) v).retire cp.val)

/-! ## Interrupts (12 R562 to R566) -/

/-- INTERRUPT_ENTRY (12 R563, R566): at a U instruction boundary. -/
def execInterruptEntry (cp : Fin 32) (s : State) : Res :=
  .next (if !s.coreRuns cp.val || decide ((s.core cp.val).level ≠ 0) then s else s.interrupt cp.val)

/-- The signed difference LTIME − TIMECMP is zero or positive (10 R475, 12 R562). -/
def State.timerDue (s : State) (c : Nat) : Bool := decide (0 ≤ (BitVec.ofNat 64 s.now - (s.core c).timecmp).toInt)

/-- TIMECMP_EXPIRY (12 R562). -/
def execTimecmpExpiry (cp : Fin 32) (t : Nat) (s : State) : Res :=
  let s0 := s.at t
  .next (if s0.coreRuns cp.val && s0.timerDue cp.val then s0.ipendSet cp.val 2 else s0)

/-- TWIN_RECORD_ARRIVAL (12 R562). -/
def execTwinRecordArrival (cp : Fin 32) (s : State) : Res := .next (if s.coreRuns cp.val then s.ipendSet cp.val 3 else s)

/-- MGMT_REQUEST_POST (12 R562). -/
def execMgmtRequestPost (cp : Fin 32) (s : State) : Res := .next (if s.coreRuns cp.val then s.ipendSet cp.val 4 else s)

/-! ## Lockstep (12 R577 to R584; 05 R230; 16 R702, R703) -/

/-- The commit buffer's stores are discarded. -/
def State.dropStores (s : State) (c : Nat) : State := s.co c fun k => { k with buf := [], sig := 2 ^ 64 - 1 }

/-- A bit of LS_STATUS. -/
def State.lsBit (s : State) (c i : Nat) (b : Bool) : State :=
  s.co c fun k => { k with lsStatus := (k.lsStatus &&& ~~~(BitVec.ofNat 64 (2 ^ i))) ||| BitVec.ofNat 64 (if b then 2 ^ i else 0) }

/-- SIGNATURE_WINDOW_CLOSE (12 R579, R584): what the primary and, where it is powered, the duplicated comparator found. -/
def execSignatureWindowClose (cp : Fin 32) (primary dup : Bool) (t : Nat) (s : State) : Res :=
  let c := cp.val
  let s0 := s.at t
  let d := if (s0.core c).dupOn then dup else primary
  .next (if !s0.coreRuns c then s0
    else if primary && d then s0.flush c
    else if !primary && !d then (s0.dropStores c).coreReset c
    else (((s0.dropStores c).lsBit c 4 true).raise 0xA004 c []).coreFaulty c)

/-- LOCKSTEP_RESET_COMPLETE (12 R580): a release of the standby that waited for the reset and that the active runs starts now (05
R232). -/
def execLockstepResetComplete (cp : Fin 32) (s : State) : Res :=
  let s0 := s.co cp.val fun k => { k with resetting := false }
  .next (s0.each (s0.image.parts.filter (fun r => decide (r.core = cp.val) && decide (s0.pst r.part = 1))) (fun t r =>
    match (t.part r.part).relWait with
    | some e => t.partRun e r
    | none => t))

/-- STORE_ERROR_RESPONSE (12 R559, R566, R567): the first error is kept for the trap entry, TRET or SWCTX that charges it. -/
def State.storeError (s : State) (c a : Nat) : State :=
  if s.coreRuns c then s.co c fun k => { k with storeErr := some (k.storeErr.getD a) } else s

/-- STORE_ERROR_RESPONSE (12 R566). -/
def execStoreErrorResponse (cp : Fin 32) (a : DWord) (s : State) : Res := .next (s.storeError cp.val a.toNat)

/-- INJECTION_TEST (12 R581): TEST in LS_CTL. -/
def execInjectionTest (cp : Fin 32) (s : State) : Res :=
  .next (if s.coreRuns cp.val then s.co cp.val CoreState.injectStart else s)

/-- Whether the start-up test of a core pair is running: core pair 0 at S1, the others in use at S3 (16 R702, R703). -/
def State.startTest (s : State) (c : Nat) : Bool :=
  (decide (s.get F.MOD_STATUS_STAGE = 1) && decide (c = 0)) ||
    (decide (s.get F.MOD_STATUS_STAGE = 3) && s.nextImg.islands.corePairs.contains c && (decide (c ≠ 0) || s.nextImg.fullScale))

/-- Failed comparators: 0 primary, 1 duplicated (12 0xA002). -/
def State.testFailed (s : State) (c : Nat) (l : List Nat) : State :=
  if l = [] then s else
  let s1 := s.each l (fun t n => t.raise 0xA002 c (le 1 c ++ le 4 n))
  if s.startTest c then
    (((s1.put (F.CYC_CORE_STATE c) 2).put F.CYC_STATUS_CORE_FAULTY 1).raise 0x4021 c []).bringUpFail (if c < 16 then 18 else 19)
  else s1.coreFaulty c

/-- INJECTION_TEST_DONE (12 R581; 16 R702, R703): what the primary and, where it is tested, the duplicated comparator
reached. -/
def execInjectionTestDone (cp : Fin 32) (primary : Bool) (dup : Option Bool) (t : Nat) (s : State) : Res :=
  let c := cp.val
  let s0 := s.at t
  .next (if !((s0.core c).testing || s0.startTest c) then s0
    else
      let s1 := ((s0.co c fun k => { k with testing := false }).lsBit c 0 true).lsBit c 1 primary
      let s2 := match dup with
        | some b => s1.lsBit c 2 b
        | none => s1
      s2.testFailed c ((if primary then [] else [0]) ++ (if dup = some false then [1] else [])))

/-- NEXT_BIT of LS_STATUS moves up by one, from 63 to 0 (12 R582). -/
def CoreState.nextBit (k : CoreState) : CoreState :=
  let n := (k.lsStatus.toNat / 256 % 64 + 1) % 64
  { k with lsStatus := (k.lsStatus &&& ~~~(0x3F00 : DWord)) ||| BitVec.ofNat 64 (256 * n) }

/-- TEST_LANE_CHECK (12 R582): in the 65,536th window, whether every comparator reported its inverted bit. -/
def execTestLaneCheck (cp : Fin 32) (reported : Bool) (t : Nat) (s : State) : Res :=
  let c := cp.val
  let s0 := s.at t
  .next (if !s0.coreRuns c || decide ((s0.core c).windows < 65536) then s0
    else
      let s1 := s0.co c fun k => ({ k with windows := k.windows - 65536 } : CoreState).nextBit
      if reported then s1 else ((s1.lsBit c 3 true).raise 0xA003 c []).coreFaulty c)

/-! ## Error responses of the fabric (03 R108, R121; 07 R335; 12 R559) -/

/-- Source island of a transaction. -/
def TxReq.island : TxReq → Nat
  | .fetch c => c.val
  | .load c _ => c.val
  | .store c _ => c.val
  | .sample slot => slotIsland slot.val
  | .other i => i.val

/-- What an error response does at the source: FETCH_ERR, LOAD_ERR, a store to be charged, a held sample. -/
def State.errorResponse (s : State) : TxReq → State
  | .fetch c => if s.coreRuns c.val then s.trapAt c.val 4 (s.core c.val).pc else s
  | .load c a => if s.coreRuns c.val then s.trapAt c.val 5 a else s
  | .store c a => s.storeError c.val a.toNat
  | .sample slot =>
    let d := s.slot slot.val
    if !d.busy || d.holding || d.result.isSome then s else s.holdSample slot.val .access
  | .other _ => s

/-- TRANSACTION_TIMEOUT (03 R121; 12 R559): source, destination island, tag. -/
def execTransactionTimeout (r : TxReq) (dst : Fin 256) (tag : Fin 16384) (t : Nat) (s : State) : Res :=
  let s0 := s.at t
  .next (if s0.overdue r.island tag.val then (s0.tagTimeout r.island dst.val tag.val).errorResponse r else s0)

/-- HBM_REQUEST (03 R124, R131, R132, R134; 12 R531, R559): a request of a channel is answered: its virtual channel, how many ns it
waited and was answered after, ECC 0 good, 1 corrected, 2 uncorrectable, which its source receives as POISON. -/
def execHbmRequest (chan : Fin 32) (vc : Fin 4) (waited answered : Nat) (ecc : Fin 3) (r : TxReq) (s : State) : Res :=
  let s1 := s.hbmAnswer chan.val (onVc r.island vc.val) waited answered ecc.val
  .next (if ecc = 2 then (s1.send (.response r.island 3)).errorResponse r else s1)

/-- NO_ISLAND_RESPONSE (03 R108; 12 R559): source, router; it answers so only where its island is off or absent. -/
def execNoIslandResponse (r : TxReq) (router : Fin 256) (t : Nat) (s : State) : Res :=
  let s0 := s.at t
  .next (if s0.pd 22 && s0.islandOff router.val then (s0.noIsland r.island router.val).errorResponse r else s0)

end Sys2Proof.Machine
end

