-- ==== Sys2Proof/Machine/Dispatch.lean ====
section
/-! DEFINITION. The meaning of every command, one arm each. -/
namespace Sys2Proof.Machine

/-- The effect of a command on everything but the queue. -/
def exec (i : Instr) (s : State) : Host.Outcome State Fault Refusal :=
  match i with
  | .boundaryMessage n ready counts started tags => Sys2Proof.Machine.execBoundaryMessage n ready counts started tags s
  | .changeSetDiscard num t => Sys2Proof.Machine.execChangeSetDiscard num t s
  | .samplePhasePStart => Sys2Proof.Machine.execSamplePhasePStart s
  | .summarySnapshotTimed t => Sys2Proof.Machine.execSummarySnapshotTimed t s
  | .canRxTimeout ch buf => Sys2Proof.Machine.execCanRxTimeout ch buf s
  | .linkDecouple sub => Sys2Proof.Machine.execLinkDecouple sub s
  | .twinSplitCheck t1 t2 t3 t4 quality hold dom arb => Sys2Proof.Machine.execTwinSplitCheck t1 t2 t3 t4 quality hold dom arb s
  | .imageClose ns t => Sys2Proof.Machine.execImageClose ns t s
  | .freezeComplete core => Sys2Proof.Machine.execFreezeComplete core s
  | .sampleComplete slot cause fetch t => Sys2Proof.Machine.execSampleComplete slot cause fetch t s
  | .sampleDeadline t => Sys2Proof.Machine.execSampleDeadline t s
  | .tracePreFilled c => Sys2Proof.Machine.execTracePreFilled c s
  | .tracePostFilled c => Sys2Proof.Machine.execTracePostFilled c s
  | .traceOffloadComplete c => Sys2Proof.Machine.execTraceOffloadComplete c s
  | .stagingInstant ns t => Sys2Proof.Machine.execStagingInstant ns t s
  | .stagingLate ring segs t => Sys2Proof.Machine.execStagingLate ring segs t s
  | .commitRecordRx r held ns t => Sys2Proof.Machine.execCommitRecordRx r held ns t s
  | .commitRecordMissing ns t => Sys2Proof.Machine.execCommitRecordMissing ns t s
  | .lagStateTransfer p => Sys2Proof.Machine.execLagStateTransfer p s
  | .runLimit part t => Sys2Proof.Machine.execRunLimit part t s
  | .rollbackComplete part t => Sys2Proof.Machine.execRollbackComplete part t s
  | .cycPctlRestart part t => Sys2Proof.Machine.execCycPctlRestart part t s
  | .cycPctlHalt part t => Sys2Proof.Machine.execCycPctlHalt part t s
  | .partitionCommandRx part restart at_ => Sys2Proof.Machine.execPartitionCommandRx part restart at_ s
  | .ringFrameRx ring bytes t => Sys2Proof.Machine.execRingFrameRx ring bytes t s
  | .rxDeadline ring t => Sys2Proof.Machine.execRxDeadline ring t s
  | .digestRx n digests locals t => Sys2Proof.Machine.execDigestRx n digests locals t s
  | .segmentCopyRx ring seg n payload t => Sys2Proof.Machine.execSegmentCopyRx ring seg n payload t s
  | .agreementDeadline t => Sys2Proof.Machine.execAgreementDeadline t s
  | .closeRecordRx n segs subs locals => Sys2Proof.Machine.execCloseRecordRx n segs subs locals s
  | .closeRecordMissing t => Sys2Proof.Machine.execCloseRecordMissing t s
  | .acyclicReplyRx ring bytes pts t => Sys2Proof.Machine.execAcyclicReplyRx ring bytes pts t s
  | .acyclicReplyFromPartner ring n pts => Sys2Proof.Machine.execAcyclicReplyFromPartner ring n pts s
  | .ringPortLinkChange ring up t => Sys2Proof.Machine.execRingPortLinkChange ring up t s
  | .pluggableInsert cage kind power t => Sys2Proof.Machine.execPluggableInsert cage kind power t s
  | .pluggableRemove cage t => Sys2Proof.Machine.execPluggableRemove cage t s
  | .censusStart ring t => Sys2Proof.Machine.execCensusStart ring t s
  | .censusFrameBack ring kind partnerEnd bytes entries direct farPort ends partnerFcs linkChange t => Sys2Proof.Machine.execCensusFrameBack ring kind partnerEnd bytes entries direct farPort ends partnerFcs linkChange t s
  | .censusFrameTimeout ring t => Sys2Proof.Machine.execCensusFrameTimeout ring t s
  | .censusLaunchRequest ring o => Sys2Proof.Machine.execCensusLaunchRequest ring o s
  | .rngRelease ring station => Sys2Proof.Machine.execRngRelease ring station s
  | .rngCensusNow ring => Sys2Proof.Machine.execRngCensusNow ring s
  | .rngScapRun ring chan cluster run => Sys2Proof.Machine.execRngScapRun ring chan cluster run s
  | .foxTick t => Sys2Proof.Machine.execFoxTick t s
  | .foxWordRx bytes step t => Sys2Proof.Machine.execFoxWordRx bytes step t s
  | .failingMessageRx bytes t => Sys2Proof.Machine.execFailingMessageRx bytes t s
  | .failingMessageSend cause => Sys2Proof.Machine.execFailingMessageSend cause s
  | .switchRecordRx bytes cause t => Sys2Proof.Machine.execSwitchRecordRx bytes cause t s
  | .switchAckRx bytes t => Sys2Proof.Machine.execSwitchAckRx bytes t s
  | .switchAckMissing t => Sys2Proof.Machine.execSwitchAckMissing t s
  | .badgerFrameTx t => Sys2Proof.Machine.execBadgerFrameTx t s
  | .badgerFrameRx bytes t => Sys2Proof.Machine.execBadgerFrameRx bytes t s
  | .badgerMiss t => Sys2Proof.Machine.execBadgerMiss t s
  | .suspectEntry t => Sys2Proof.Machine.execSuspectEntry t s
  | .signatureRx sg fault t => Sys2Proof.Machine.execSignatureRx sg fault t s
  | .higherEpochRelease started t => Sys2Proof.Machine.execHigherEpochRelease started t s
  | .listenTimeout t => Sys2Proof.Machine.execListenTimeout t s
  | .joinCheckDone c t => Sys2Proof.Machine.execJoinCheckDone c t s
  | .joinTimeHeld granules t => Sys2Proof.Machine.execJoinTimeHeld granules t s
  | .joinCopyComplete m p t => Sys2Proof.Machine.execJoinCopyComplete m p t s
  | .forwardedWriteRx p copied fits => Sys2Proof.Machine.execForwardedWriteRx p copied fits s
  | .joinTimeout t => Sys2Proof.Machine.execJoinTimeout t s
  | .joinRetry t => Sys2Proof.Machine.execJoinRetry t s
  | .twnSwap t => Sys2Proof.Machine.execTwnSwap t s
  | .twnRejoin => Sys2Proof.Machine.execTwnRejoin s
  | .revertExpiry t => Sys2Proof.Machine.execRevertExpiry t s
  | .proofDue t => Sys2Proof.Machine.execProofDue t s
  | .moduleFault fault t => Sys2Proof.Machine.execModuleFault fault t s
  | .handover ses req slot partnerValid t => Sys2Proof.Machine.execHandover ses req slot partnerValid t s
  | .handoverAbort t => Sys2Proof.Machine.execHandoverAbort t s
  | .handoverMappingDone old types t => Sys2Proof.Machine.execHandoverMappingDone old types t s
  | .handoverWindowExpiry t => Sys2Proof.Machine.execHandoverWindowExpiry t s
  | .imageRestart t => Sys2Proof.Machine.execImageRestart t s
  | .copyBurstStage ring bytes => Sys2Proof.Machine.execCopyBurstStage ring bytes s
  | .changeset ses req c t => Sys2Proof.Machine.execChangeset ses req c t s
  | .changesetForwardRx c => Sys2Proof.Machine.execChangesetForwardRx c s
  | .slotFlagClear slot value t => Sys2Proof.Machine.execSlotFlagClear slot value t s
  | .flagClearRx slot mask at_ => Sys2Proof.Machine.execFlagClearRx slot mask at_ s
  | .traceArm c => Sys2Proof.Machine.execTraceArm c s
  | .traceSwTrig c => Sys2Proof.Machine.execTraceSwTrig c s
  | .traceAbort c => Sys2Proof.Machine.execTraceAbort c s
  | .profileChunk ses req slot off data => Sys2Proof.Machine.execProfileChunk ses req slot off data s
  | .profileFinish ses req slot => Sys2Proof.Machine.execProfileFinish ses req slot s
  | .imageCheckDone slot => Sys2Proof.Machine.execImageCheckDone slot s
  | .profileSelect ses req slot persist => Sys2Proof.Machine.execProfileSelect ses req slot persist s
  | .profileClear ses req => Sys2Proof.Machine.execProfileClear ses req s
  | .profileKey ses req r => Sys2Proof.Machine.execProfileKey ses req r s
  | .profileList ses req => Sys2Proof.Machine.execProfileList ses req s
  | .selSet => Sys2Proof.Machine.execSelSet s
  | .selClear => Sys2Proof.Machine.execSelClear s
  | .transactionTimeout r dst tag t => Sys2Proof.Machine.execTransactionTimeout r dst tag t s
  | .tagQuarantineEnd src tag t => Sys2Proof.Machine.execTagQuarantineEnd src tag t s
  | .lateResponseRx src tag => Sys2Proof.Machine.execLateResponseRx src tag s
  | .noIslandResponse r router t => Sys2Proof.Machine.execNoIslandResponse r router t s
  | .fabricWindowEnd router output load ready => Sys2Proof.Machine.execFabricWindowEnd router output load ready s
  | .hbmStressWindow chan arrived => Sys2Proof.Machine.execHbmStressWindow chan arrived s
  | .hbmRequest chan vc waited answered ecc r => Sys2Proof.Machine.execHbmRequest chan vc waited answered ecc r s
  | .sramScrub bank word uncorrectable => Sys2Proof.Machine.execSramScrub bank word uncorrectable s
  | .flashWriteError => Sys2Proof.Machine.execFlashWriteError s
  | .timeStart t => Sys2Proof.Machine.execTimeStart t s
  | .lockWaitExpiry t => Sys2Proof.Machine.execLockWaitExpiry t s
  | .ptpSyncRx port dom twoStep origin corr rx t => Sys2Proof.Machine.execPtpSyncRx port dom twoStep origin corr rx t s
  | .ptpFollowUpRx port dom origin corr t => Sys2Proof.Machine.execPtpFollowUpRx port dom origin corr t s
  | .ptpAnnounceRx port dom a t => Sys2Proof.Machine.execPtpAnnounceRx port dom a t s
  | .ptpPdelayReqRx port rx tx => Sys2Proof.Machine.execPtpPdelayReqRx port rx tx s
  | .ptpPdelayRespRx port t1 t2 t4 => Sys2Proof.Machine.execPtpPdelayRespRx port t1 t2 t4 s
  | .ptpPdelayRespFollowUpRx port t3 => Sys2Proof.Machine.execPtpPdelayRespFollowUpRx port t3 s
  | .ptpSignalingRx port dom => Sys2Proof.Machine.execPtpSignalingRx port dom s
  | .ptpSyncTx port dom tx t => Sys2Proof.Machine.execPtpSyncTx port dom tx t s
  | .ptpAnnounceTx port dom => Sys2Proof.Machine.execPtpAnnounceTx port dom s
  | .ptpPdelayTx port => Sys2Proof.Machine.execPtpPdelayTx port s
  | .ptpReceiptTimeout dom announce t => Sys2Proof.Machine.execPtpReceiptTimeout dom announce t s
  | .domainRequalified dom t => Sys2Proof.Machine.execDomainRequalified dom t s
  | .servoReferenceChange t => Sys2Proof.Machine.execServoReferenceChange t s
  | .holdoverDegraded t => Sys2Proof.Machine.execHoldoverDegraded t s
  | .ageingMeasurement ppb t => Sys2Proof.Machine.execAgeingMeasurement ppb t s
  | .timStep dom t => Sys2Proof.Machine.execTimStep dom t s
  | .timApply t => Sys2Proof.Machine.execTimApply t s
  | .stepRequestRx at_ target => Sys2Proof.Machine.execStepRequestRx at_ target s
  | .timeRestart => Sys2Proof.Machine.execTimeRestart s
  | .timNsRead t => Sys2Proof.Machine.execTimNsRead t s
  | .ppsOutEdge rising t => Sys2Proof.Machine.execPpsOutEdge rising t s
  | .ppsInEdge t => Sys2Proof.Machine.execPpsInEdge t s
  | .lineFrameRx port bytes t => Sys2Proof.Machine.execLineFrameRx port bytes t s
  | .publicationFromActive pub bytes => Sys2Proof.Machine.execPublicationFromActive pub bytes s
  | .couplingDeadline sub n partner t => Sys2Proof.Machine.execCouplingDeadline sub n partner t s
  | .linePortLinkChange port up t => Sys2Proof.Machine.execLinePortLinkChange port up t s
  | .coreAdd cp w => Sys2Proof.Machine.execCoreAdd cp w s
  | .coreSub cp w => Sys2Proof.Machine.execCoreSub cp w s
  | .coreAnd cp w => Sys2Proof.Machine.execCoreAnd cp w s
  | .coreIor cp w => Sys2Proof.Machine.execCoreIor cp w s
  | .coreXor cp w => Sys2Proof.Machine.execCoreXor cp w s
  | .coreShl cp w => Sys2Proof.Machine.execCoreShl cp w s
  | .coreShr cp w => Sys2Proof.Machine.execCoreShr cp w s
  | .coreSha cp w => Sys2Proof.Machine.execCoreSha cp w s
  | .coreLess cp w => Sys2Proof.Machine.execCoreLess cp w s
  | .coreLessu cp w => Sys2Proof.Machine.execCoreLessu cp w s
  | .coreMul cp w => Sys2Proof.Machine.execCoreMul cp w s
  | .coreMulhi cp w => Sys2Proof.Machine.execCoreMulhi cp w s
  | .coreMulhiu cp w => Sys2Proof.Machine.execCoreMulhiu cp w s
  | .coreMulhix cp w => Sys2Proof.Machine.execCoreMulhix cp w s
  | .coreDiv cp w => Sys2Proof.Machine.execCoreDiv cp w s
  | .coreDivu cp w => Sys2Proof.Machine.execCoreDivu cp w s
  | .coreMod cp w => Sys2Proof.Machine.execCoreMod cp w s
  | .coreModu cp w => Sys2Proof.Machine.execCoreModu cp w s
  | .coreAdd32 cp w => Sys2Proof.Machine.execCoreAdd32 cp w s
  | .coreSub32 cp w => Sys2Proof.Machine.execCoreSub32 cp w s
  | .coreShl32 cp w => Sys2Proof.Machine.execCoreShl32 cp w s
  | .coreShr32 cp w => Sys2Proof.Machine.execCoreShr32 cp w s
  | .coreSha32 cp w => Sys2Proof.Machine.execCoreSha32 cp w s
  | .coreMul32 cp w => Sys2Proof.Machine.execCoreMul32 cp w s
  | .coreDiv32 cp w => Sys2Proof.Machine.execCoreDiv32 cp w s
  | .coreDivu32 cp w => Sys2Proof.Machine.execCoreDivu32 cp w s
  | .coreMod32 cp w => Sys2Proof.Machine.execCoreMod32 cp w s
  | .coreModu32 cp w => Sys2Proof.Machine.execCoreModu32 cp w s
  | .coreAddk cp w => Sys2Proof.Machine.execCoreAddk cp w s
  | .coreAndk cp w => Sys2Proof.Machine.execCoreAndk cp w s
  | .coreIork cp w => Sys2Proof.Machine.execCoreIork cp w s
  | .coreXork cp w => Sys2Proof.Machine.execCoreXork cp w s
  | .coreLessk cp w => Sys2Proof.Machine.execCoreLessk cp w s
  | .coreLessuk cp w => Sys2Proof.Machine.execCoreLessuk cp w s
  | .coreShiftk cp w => Sys2Proof.Machine.execCoreShiftk cp w s
  | .coreAdd32k cp w => Sys2Proof.Machine.execCoreAdd32k cp w s
  | .coreMkhi cp w => Sys2Proof.Machine.execCoreMkhi cp w s
  | .corePchi cp w => Sys2Proof.Machine.execCorePchi cp w s
  | .coreLdpc cp w => Sys2Proof.Machine.execCoreLdpc cp w s
  | .coreLd8s cp w => Sys2Proof.Machine.execCoreLd8s cp w s
  | .coreLd8u cp w => Sys2Proof.Machine.execCoreLd8u cp w s
  | .coreLd16s cp w => Sys2Proof.Machine.execCoreLd16s cp w s
  | .coreLd16u cp w => Sys2Proof.Machine.execCoreLd16u cp w s
  | .coreLd32s cp w => Sys2Proof.Machine.execCoreLd32s cp w s
  | .coreLd32u cp w => Sys2Proof.Machine.execCoreLd32u cp w s
  | .coreLd64 cp w => Sys2Proof.Machine.execCoreLd64 cp w s
  | .coreSt8 cp w => Sys2Proof.Machine.execCoreSt8 cp w s
  | .coreSt16 cp w => Sys2Proof.Machine.execCoreSt16 cp w s
  | .coreSt32 cp w => Sys2Proof.Machine.execCoreSt32 cp w s
  | .coreSt64 cp w => Sys2Proof.Machine.execCoreSt64 cp w s
  | .coreFld32 cp w => Sys2Proof.Machine.execCoreFld32 cp w s
  | .coreFld64 cp w => Sys2Proof.Machine.execCoreFld64 cp w s
  | .coreFst32 cp w => Sys2Proof.Machine.execCoreFst32 cp w s
  | .coreFst64 cp w => Sys2Proof.Machine.execCoreFst64 cp w s
  | .coreBreq cp w => Sys2Proof.Machine.execCoreBreq cp w s
  | .coreBrne cp w => Sys2Proof.Machine.execCoreBrne cp w s
  | .coreBrlt cp w => Sys2Proof.Machine.execCoreBrlt cp w s
  | .coreBrge cp w => Sys2Proof.Machine.execCoreBrge cp w s
  | .coreBrltu cp w => Sys2Proof.Machine.execCoreBrltu cp w s
  | .coreBrgeu cp w => Sys2Proof.Machine.execCoreBrgeu cp w s
  | .coreJmp cp w => Sys2Proof.Machine.execCoreJmp cp w s
  | .coreCall cp w => Sys2Proof.Machine.execCoreCall cp w s
  | .coreJmpr cp w => Sys2Proof.Machine.execCoreJmpr cp w s
  | .coreCallr cp w => Sys2Proof.Machine.execCoreCallr cp w s
  | .coreEnter cp w => Sys2Proof.Machine.execCoreEnter cp w s
  | .coreLeave cp w => Sys2Proof.Machine.execCoreLeave cp w s
  | .coreRet cp w => Sys2Proof.Machine.execCoreRet cp w s
  | .coreFadd cp w => Sys2Proof.Machine.execCoreFadd cp w s
  | .coreFsub cp w => Sys2Proof.Machine.execCoreFsub cp w s
  | .coreFmul cp w => Sys2Proof.Machine.execCoreFmul cp w s
  | .coreFdiv cp w => Sys2Proof.Machine.execCoreFdiv cp w s
  | .coreFsqrt cp w => Sys2Proof.Machine.execCoreFsqrt cp w s
  | .coreFmin cp w => Sys2Proof.Machine.execCoreFmin cp w s
  | .coreFmax cp w => Sys2Proof.Machine.execCoreFmax cp w s
  | .coreFabs cp w => Sys2Proof.Machine.execCoreFabs cp w s
  | .coreFneg cp w => Sys2Proof.Machine.execCoreFneg cp w s
  | .coreFcsgn cp w => Sys2Proof.Machine.execCoreFcsgn cp w s
  | .coreFcmpeq cp w => Sys2Proof.Machine.execCoreFcmpeq cp w s
  | .coreFcmplt cp w => Sys2Proof.Machine.execCoreFcmplt cp w s
  | .coreFcmple cp w => Sys2Proof.Machine.execCoreFcmple cp w s
  | .coreFkind cp w => Sys2Proof.Machine.execCoreFkind cp w s
  | .coreFtoi64 cp w => Sys2Proof.Machine.execCoreFtoi64 cp w s
  | .coreFtou64 cp w => Sys2Proof.Machine.execCoreFtou64 cp w s
  | .coreFtoi32 cp w => Sys2Proof.Machine.execCoreFtoi32 cp w s
  | .coreFtou32 cp w => Sys2Proof.Machine.execCoreFtou32 cp w s
  | .coreI64tof cp w => Sys2Proof.Machine.execCoreI64tof cp w s
  | .coreU64tof cp w => Sys2Proof.Machine.execCoreU64tof cp w s
  | .coreI32tof cp w => Sys2Proof.Machine.execCoreI32tof cp w s
  | .coreU32tof cp w => Sys2Proof.Machine.execCoreU32tof cp w s
  | .coreFwidth cp w => Sys2Proof.Machine.execCoreFwidth cp w s
  | .coreFtobits cp w => Sys2Proof.Machine.execCoreFtobits cp w s
  | .coreBitstof cp w => Sys2Proof.Machine.execCoreBitstof cp w s
  | .coreFmac cp w => Sys2Proof.Machine.execCoreFmac cp w s
  | .coreFmsc cp w => Sys2Proof.Machine.execCoreFmsc cp w s
  | .coreFnmac cp w => Sys2Proof.Machine.execCoreFnmac cp w s
  | .coreFnmsc cp w => Sys2Proof.Machine.execCoreFnmsc cp w s
  | .coreSysrd cp w => Sys2Proof.Machine.execCoreSysrd cp w s
  | .coreSyswr cp w => Sys2Proof.Machine.execCoreSyswr cp w s
  | .coreSysset cp w => Sys2Proof.Machine.execCoreSysset cp w s
  | .coreSysclr cp w => Sys2Proof.Machine.execCoreSysclr cp w s
  | .coreSyscall cp w idx ns => Sys2Proof.Machine.execCoreSyscall cp w idx ns s
  | .coreBreak cp w => Sys2Proof.Machine.execCoreBreak cp w s
  | .coreTrap cp w => Sys2Proof.Machine.execCoreTrap cp w s
  | .coreTret cp w => Sys2Proof.Machine.execCoreTret cp w s
  | .coreSwctx cp w => Sys2Proof.Machine.execCoreSwctx cp w s
  | .coreWspill cp w => Sys2Proof.Machine.execCoreWspill cp w s
  | .coreWfill cp w => Sys2Proof.Machine.execCoreWfill cp w s
  | .coreWait cp w => Sys2Proof.Machine.execCoreWait cp w s
  | .coreFence cp w => Sys2Proof.Machine.execCoreFence cp w s
  | .coreCflush cp w => Sys2Proof.Machine.execCoreCflush cp w s
  | .coreXrd cp w => Sys2Proof.Machine.execCoreXrd cp w s
  | .coreXwr cp w => Sys2Proof.Machine.execCoreXwr cp w s
  | .interruptEntry cp => Sys2Proof.Machine.execInterruptEntry cp s
  | .timecmpExpiry cp t => Sys2Proof.Machine.execTimecmpExpiry cp t s
  | .twinRecordArrival cp => Sys2Proof.Machine.execTwinRecordArrival cp s
  | .mgmtRequestPost cp => Sys2Proof.Machine.execMgmtRequestPost cp s
  | .signatureWindowClose cp primary dup t => Sys2Proof.Machine.execSignatureWindowClose cp primary dup t s
  | .lockstepResetComplete cp => Sys2Proof.Machine.execLockstepResetComplete cp s
  | .storeErrorResponse cp a => Sys2Proof.Machine.execStoreErrorResponse cp a s
  | .injectionTest cp => Sys2Proof.Machine.execInjectionTest cp s
  | .injectionTestDone cp primary dup t => Sys2Proof.Machine.execInjectionTestDone cp primary dup t s
  | .testLaneCheck cp reported t => Sys2Proof.Machine.execTestLaneCheck cp reported t s
  | .accLoad c part => Sys2Proof.Machine.execAccLoad c part s
  | .accLoadComplete c => Sys2Proof.Machine.execAccLoadComplete c s
  | .accFaddrRead c => Sys2Proof.Machine.execAccFaddrRead c s
  | .diSample mv t => Sys2Proof.Machine.execDiSample mv t s
  | .diFilterStateChange di => Sys2Proof.Machine.execDiFilterStateChange di s
  | .crossingFrameTx block t => Sys2Proof.Machine.execCrossingFrameTx block t s
  | .crossingFrameRx block up bytes t => Sys2Proof.Machine.execCrossingFrameRx block up bytes t s
  | .crossingTimeout block up t => Sys2Proof.Machine.execCrossingTimeout block up t s
  | .doGroupFaultChange group fault => Sys2Proof.Machine.execDoGroupFaultChange group fault s
  | .tripInputChange trip active t => Sys2Proof.Machine.execTripInputChange trip active t s
  | .dioTripClr mask t => Sys2Proof.Machine.execDioTripClr mask t s
  | .tripClearRx mask at_ => Sys2Proof.Machine.execTripClearRx mask at_ s
  | .analogueConversion chan ma t => Sys2Proof.Machine.execAnalogueConversion chan ma t s
  | .analogueOutFault chan fault => Sys2Proof.Machine.execAnalogueOutFault chan fault s
  | .analogueMiswire chan cond => Sys2Proof.Machine.execAnalogueMiswire chan cond s
  | .loopSupplyLimit chan limit => Sys2Proof.Machine.execLoopSupplyLimit chan limit s
  | .hartPoll modem t => Sys2Proof.Machine.execHartPoll modem t s
  | .hartReplyRx modem vars ovr => Sys2Proof.Machine.execHartReplyRx modem vars ovr s
  | .hartReplyTimeout modem t => Sys2Proof.Machine.execHartReplyTimeout modem t s
  | .hartSweep modem t => Sys2Proof.Machine.execHartSweep modem t s
  | .hartSearch modem => Sys2Proof.Machine.execHartSearch modem s
  | .calCommit => Sys2Proof.Machine.execCalCommit s
  | .calWriteComplete => Sys2Proof.Machine.execCalWriteComplete s
  | .canFrameRx ch f esi tec rec t => Sys2Proof.Machine.execCanFrameRx ch f esi tec rec t s
  | .canFrameListRx n frames => Sys2Proof.Machine.execCanFrameListRx n frames s
  | .canFrameListMissing n t => Sys2Proof.Machine.execCanFrameListMissing n t s
  | .canTxDone ch buf tec rec => Sys2Proof.Machine.execCanTxDone ch buf tec rec s
  | .canTxAttemptFail ch buf tec rec => Sys2Proof.Machine.execCanTxAttemptFail ch buf tec rec s
  | .canBusOff ch => Sys2Proof.Machine.execCanBusOff ch s
  | .canAutoRecover ch => Sys2Proof.Machine.execCanAutoRecover ch s
  | .canRecover ch => Sys2Proof.Machine.execCanRecover ch s
  | .canPop0 ch => Sys2Proof.Machine.execCanPop0 ch s
  | .canPop1 ch => Sys2Proof.Machine.execCanPop1 ch s
  | .canPush ch => Sys2Proof.Machine.execCanPush ch s
  | .canBstatRead ch => Sys2Proof.Machine.execCanBstatRead ch s
  | .feedQualified feed dv t => Sys2Proof.Machine.execFeedQualified feed dv t s
  | .feedLost feed dv t => Sys2Proof.Machine.execFeedLost feed dv t s
  | .holdUpBegin t => Sys2Proof.Machine.execHoldUpBegin t s
  | .lastWordsComplete t => Sys2Proof.Machine.execLastWordsComplete t s
  | .holdUpPowerDown t => Sys2Proof.Machine.execHoldUpPowerDown t s
  | .panelDischargeComplete t => Sys2Proof.Machine.execPanelDischargeComplete t s
  | .holdUpEnd t => Sys2Proof.Machine.execHoldUpEnd t s
  | .stageEnd bankDj trips spared t => Sys2Proof.Machine.execStageEnd bankDj trips spared t s
  | .stageTimeout dom failed t => Sys2Proof.Machine.execStageTimeout dom failed t s
  | .domainPowerUpRetry dom ok t => Sys2Proof.Machine.execDomainPowerUpRetry dom ok t s
  | .bringUpRetry t => Sys2Proof.Machine.execBringUpRetry t s
  | .slotIdRead pins t => Sys2Proof.Machine.execSlotIdRead pins t s
  | .bankChargeTimeout bankDj t => Sys2Proof.Machine.execBankChargeTimeout bankDj t s
  | .domainFault faults t => Sys2Proof.Machine.execDomainFault faults t s
  | .rstInHeld t => Sys2Proof.Machine.execRstInHeld t s
  | .rstInRelease t => Sys2Proof.Machine.execRstInRelease t s
  | .lifeWordLost t => Sys2Proof.Machine.execLifeWordLost t s
  | .modRestart t => Sys2Proof.Machine.execModRestart t s
  | .modForceRestart t => Sys2Proof.Machine.execModForceRestart t s
  | .moduleRestart cause t => Sys2Proof.Machine.execModuleRestart cause t s
  | .opsecTick watts aDv bDv bankDj prof t => Sys2Proof.Machine.execOpsecTick watts aDv bDv bankDj prof t s
  | .temperatureSample die hbm face t => Sys2Proof.Machine.execTemperatureSample die hbm face t s
  | .qmpFragmentRx ses b t => Sys2Proof.Machine.execQmpFragmentRx ses b t s
  | .qmpFragmentTimeout ses req t => Sys2Proof.Machine.execQmpFragmentTimeout ses req t s
  | .dtlsHandshake port key onActive v6 ok addrHash t => Sys2Proof.Machine.execDtlsHandshake port key onActive v6 ok addrHash t s
  | .sessionIdleTimeout ses t => Sys2Proof.Machine.execSessionIdleTimeout ses t s
  | .networkEcho port kind fragment onActive => Sys2Proof.Machine.execNetworkEcho port kind fragment onActive s
  | .read ses req r t => Sys2Proof.Machine.execRead ses req r t s
  | .write ses req l t => Sys2Proof.Machine.execWrite ses req l t s
  | .summary ses req => Sys2Proof.Machine.execSummary ses req s
  | .swap ses req t => Sys2Proof.Machine.execSwap ses req t s
  | .events ses req from_ count sev mask => Sys2Proof.Machine.execEvents ses req from_ count sev mask s
  | .traceSave ses req c k => Sys2Proof.Machine.execTraceSave ses req c k s
  | .traceRead ses req c k ch => Sys2Proof.Machine.execTraceRead ses req c k ch s
  | .traceList ses req => Sys2Proof.Machine.execTraceList ses req s
  | .timeQuery ses req t => Sys2Proof.Machine.execTimeQuery ses req t s
  | .timeStep ses req dom t => Sys2Proof.Machine.execTimeStep ses req dom t s
  | .timeApply ses req t => Sys2Proof.Machine.execTimeApply ses req t s
  | .censusRead ses req ring => Sys2Proof.Machine.execCensusRead ses req ring s
  | .censusNow ses req ring => Sys2Proof.Machine.execCensusNow ses req ring s
  | .rejoin ses req t => Sys2Proof.Machine.execRejoin ses req t s
  | .restart ses req force t => Sys2Proof.Machine.execRestart ses req force t s
  | .eventRaise t => Sys2Proof.Machine.execEventRaise t s
  | .suppressionReport code t => Sys2Proof.Machine.execSuppressionReport code t s
  | .archiveBlockWrite t => Sys2Proof.Machine.execArchiveBlockWrite t s
  | .panelUpdateStart t => Sys2Proof.Machine.execPanelUpdateStart t s
  | .panelUpdateComplete crcOk t => Sys2Proof.Machine.execPanelUpdateComplete crcOk t s
  | .panelCheck crcOk t => Sys2Proof.Machine.execPanelCheck crcOk t s
  | .lampTestEnd t => Sys2Proof.Machine.execLampTestEnd t s
  | .buttonRelease ms t => Sys2Proof.Machine.execButtonRelease ms t s
  | .buttonStuck t => Sys2Proof.Machine.execButtonStuck t s
  | .buttonUnstuck t => Sys2Proof.Machine.execButtonUnstuck t s
  | .confirmExpiry t => Sys2Proof.Machine.execConfirmExpiry t s
  | .latchedLowWordRead off => Sys2Proof.Machine.execLatchedLowWordRead off s
  | .rcFieldRead off => Sys2Proof.Machine.execRcFieldRead off s
  | .registerWrite cp level off v t => Sys2Proof.Machine.execRegisterWrite cp level off v t s
  | .pd0PowerUp prof t => Sys2Proof.Machine.execPd0PowerUp prof t s
  | .keyRecordFromActive r => Sys2Proof.Machine.execKeyRecordFromActive r s
  | .censusResultsFromActive ring entries sched at_ endLoop farPort fcs other => Sys2Proof.Machine.execCensusResultsFromActive ring entries sched at_ endLoop farPort fcs other s
  | .handoverStartFromActive slot t => Sys2Proof.Machine.execHandoverStartFromActive slot t s
  | .partnerRingPortDown ring up => Sys2Proof.Machine.execPartnerRingPortDown ring up s

end Sys2Proof.Machine
end

