-- ==== Sys2Proof/Safety.lean ====
section
/-! DEFINITION. What counts as a safe state and a safe step, in the terms that claims use. -/
namespace Sys2Proof.Machine

/-- Registers, latches, memory and flash stand in their canonical form: keys strictly rising, nothing listed that an unlisted
key reads as. Equal contents are then equal data. -/
def State.Canon (s : State) : Prop :=
  twf 0 s.regs = true ∧ twf 0 s.latch = true ∧ Memory.wf s.mem = true ∧ Memory.wf s.flash = true

/-- A step that answers a next state with a property. -/
def Steps (r : Res) (p : State → Prop) : Prop := ∃ t, r = .next t ∧ p t

/-- A request comes to its execution (17 R731 to R735): not in hold-up, a session that has not answered it, does not run
another one, and may give it; the module is ACTIVE where the command needs it. -/
def State.Serves (s : State) (ses : Fin 16) (req : Nat) (control needsActive : Bool) : Prop :=
  s.on F.MOD_STATUS_HOLDUP = false ∧ (needsActive = true → s.isActive = true) ∧
  ∃ k, s.session ses.val = some k ∧ k.kept.find? (fun e => e.req = req) = none ∧
    ¬(k.kept.length = 32 ∧ k.kept.all (fun e => req < e.req) = true) ∧ (k.running = none ∨ k.running = some req) ∧
    (control = true → k.control = true)

/-- The state in which a request of a session runs: the session's latest request is this one (17 R728). -/
def State.served (s : State) (ses : Fin 16) : State :=
  match s.session ses.val with
  | some k => s.setSession ses.val (some { k with last := s.now })
  | none => s

/-- The response to a request of a command: all its fragments in FRAG order (17 R730, R731). -/
def response (ses : Fin 16) (req cmd status : Nat) (payload : List Byte) : List Output :=
  let r : QmpResp := { cmd := cmd, req := req, status := status, payload := payload }
  (List.range r.count).map (fun i => .qmp ses.val (r.fragment i))

/-- The last thing that the module sent since `s` is the response to a request of a command. -/
def Answers (s t : State) (ses : Fin 16) (req cmd status : Nat) (payload : List Byte) : Prop :=
  ∃ l, t.out = s.out ++ l ++ response ses req cmd status payload

/-- The recorder has room for a raise of an island (17 R749). -/
abbrev State.Room (s : State) (isl : Nat) : Prop := s.recd.waiting isl < 16

/-- Event `code` of an island stands last in the queue of the recorder, with its data (17 R745, R748). -/
def Raises (s t : State) (code isl : Nat) (data : List Byte) : Prop :=
  ∃ r, t.recd.queue = s.recd.queue ++ [r] ∧ r.code = code ∧ r.island = isl ∧ r.data = data.take 16

/-- Every register but those listed reads as before. -/
def SameRegs (s t : State) (l : List Nat) : Prop := ∀ o, ¬ o ∈ l → t.rd o = s.rd o

/-- What a CAN channel's controller counts with a frame (15 R687): outside restricted operation and bus-off CAN_ERR shows its
counters and ESTATE whether one is past 127; inside, neither register changes. -/
def CanCounts (s t : State) (c tec rec : Nat) : Prop :=
  (s.on (F.CAN_STATUS_RESTRICTED c) = false ∧ s.get (F.CAN_STATUS_ESTATE c) ≠ 2 → t.get (F.CAN_ERR_TEC c) = min tec 511 ∧
    t.get (F.CAN_ERR_REC c) = min rec 255 ∧ t.get (F.CAN_STATUS_ESTATE c) = if 127 < tec ∨ 127 < rec then 1 else 0) ∧
  (s.on (F.CAN_STATUS_RESTRICTED c) = true ∨ s.get (F.CAN_STATUS_ESTATE c) = 2 →
    t.rd (R.CAN_ERR c) = s.rd (R.CAN_ERR c) ∧ t.get (F.CAN_STATUS_ESTATE c) = s.get (F.CAN_STATUS_ESTATE c))

/-- Nothing but the listed registers differs. -/
def OnlyRegs (s t : State) (l : List Nat) : Prop := t = { s with regs := t.regs } ∧ SameRegs s t l

/-- The key store has four slots (02 R61), and there are four profile slots (02 R67). -/
abbrev State.Shaped (s : State) : Prop := s.nv.keys.length = 4 ∧ s.nv.slots.length = 4

/-- No MRAM region has failed its CRC, and the record of the latest SEQ is held in the tail or the archive (17 R747). -/
abbrev State.SeqHeld (s : State) : Prop := s.nv.bad = [] ∧ s.nv.seq ≤ seqHigh s.nv.tail s.nv.archSeq

/-- The module stands at S0 after a restart with a cause: no role, no image, memory empty (16 R717). -/
def State.Restarted (t : State) (cause : Nat) : Prop :=
  getBits t.nv.causeWord 0 4 = cause ∧ t.get F.MOD_STATUS_STAGE = 0 ∧ t.role = 0 ∧ t.img = none ∧ t.mem = []

/-! ## Core pairs -/

/-- Core pair `c` executes, no interrupt takes the place of the instruction, its fetch is allowed and finds neither an island that is off
nor poison, and the word is one of the encoding (03 R108; 12 R548, R563, R565). -/
def State.Fetches (s : State) (c : Nat) (w : Word) (e : Enc) : Prop :=
  s.coreRuns c = true ∧ s.denied? c (s.core c).level 2 (s.core c).pc.toNat = none ∧ s.hbmOff (s.core c).pc.toNat = false ∧
  s.poisoned (s.core c).pc.toNat 4 = false ∧ e.fits w = true ∧ ((s.core c).level = 0 → (s.core c).lowest = none)

/-- No error of a store is charged once the stores that wait have left (12 R559, R566). -/
def State.StoresGood (s : State) (c : Nat) : Prop := ((s.flush c).core c).storeErr = none

/-- The stores that wait go to plain memory: HBM channels that run, or SRAM that holds none of the module's own data. -/
def State.PlainStores (s : State) (c : Nat) : Prop :=
  ∀ e ∈ (s.core c).buf, s.hbmOff e.addr = false ∧ imageSram e.addr = false

/-- An address in the undo journal of the activation that runs on core pair `c` (05 R198, R221). -/
def State.inJournal (s : State) (c a : Nat) : Prop :=
  ∃ p b, (s.core c).cur = some p ∧ (s.prec p).staticBase ≤ b ∧ b < (s.prec p).staticBase + (s.prec p).staticSize ∧
    (s.prec p).undoAt (lineOf b) ≤ a ∧ a < (s.prec p).undoAt (lineOf b) + 64

/-- Memory reads as core pair `c` saw it under its waiting stores; only the undo journal of its activation may differ
(12 R555, R579). -/
def Left (s u : State) (c : Nat) : Prop := ∀ a, ¬ s.inJournal c a → u.memB a = bufByte (s.core c).buf a (s.memB a)

/-- Nothing differs but core pair `c`, which is `k`. -/
def OnlyCore (s u : State) (c : Nat) (k : CoreState) : Prop :=
  u = { s with cores := u.cores } ∧ u.core c = k ∧ ∀ j, j ≠ c → u.core j = s.core j

/-- The core pair with its instruction retired and the next one at `npc` (12 R549, INSTRET). -/
def CoreState.next (k : CoreState) (npc : DWord) : CoreState := { k with pc := npc, instret := k.instret + 1 }

/-- The signature with the record of a branch, jump, call or return: the taken bit and the target (12 R577). -/
def CoreState.signed (k : CoreState) (taken : Bool) (target : DWord) : CoreState :=
  { k with sig := (le 1 (b2n taken) ++ le 8 target.toNat).foldl (crcByte 64 0x42F0E1EBA9EA3693) k.sig }

/-- Core pair `c`, at U before, has entered the runtime by a trap or an interrupt with a cause, at a vector (12 R566): TPC, a
held U context, the level S, its stores gone; the window state and every register of the context are as before. -/
def Enters (s u : State) (c : Nat) (cause : DWord) (vec : Nat) (tpc : DWord) : Prop :=
  let k := s.core c
  let n := u.core c
  n.level = 1 ∧ n.tpc = tpc ∧ n.tstatus = 4 ∧ n.tcause = cause ∧ n.pc = k.stvec + BitVec.ofNat 64 (64 * vec) ∧
  n.wstate = k.wstate ∧ n.spillPtr = k.spillPtr ∧ n.g = k.g ∧ n.win = k.win ∧ n.trap = k.trap ∧ n.f = k.f ∧ n.fcsr = k.fcsr ∧
  n.buf = []

end Sys2Proof.Machine
end

