-- ==== Sys2Proof/Certificates/Slice0/Obligations.lean ====
section
/-! DEFINITION. The statements for the provers, family by family of the command table. -/
open Sys2Proof Sys2Proof.Machine

/-- The choice that PROFILE_SELECT names: a slot, or the factory safe image (02 R74, R76). -/
def slotChoice : Option (Fin 4) → Choice
  | some n => .slot n.val
  | none => .factory

/-! ## The machine -/

/-- The command at the front of the queue is taken: its step is `exec` of it on the state with the queue's rest. On an empty
queue the block idles: the model's choice (assumption 8). And no command stops: in every state in canonical form (StepKeepsCanon: every
reachable one), with every operand, each command of the table completes, keeps the form and leaves the queue to the step.
Completes: every constructor of Instr. -/
def Obligations.StepTakesFront : Prop :=
  (∀ (s : State) (c : Instr) (rest : List Instr), s.pending = c :: rest → step s = exec c { s with pending := rest }) ∧
  (∀ s : State, s.pending = [] → step s = .next s) ∧
  (∀ (c : Instr) (s : State), s.Canon → Steps (exec c s) fun t => t.Canon ∧ t.pending = s.pending)

/-- What reset leaves (00 R19): ID_PART 0x4000, only PD0 powered, no role with the partner not heard (TWN_STATUS 0xF00),
TIM_STATUS 0x18, the CAN channels with CAN_STATUS 4, TRC_COUNTS 0x10000000; IMG_KEYS 1, as the factory leaves it; every other
register word zero. No image runs, nothing waits. That memory and flash hold nothing is the model's choice (assumptions 6, 7). -/
def Obligations.ResetLeaves : Prop :=
  State.reset.rdN R.ID_PART = 0x4000 ∧ State.reset.rdN R.PWR_ON = 1 ∧ State.reset.rdN R.TWN_STATUS = 0xF00 ∧
  State.reset.rdN R.TIM_STATUS = 0x18 ∧ State.reset.rdN R.IMG_KEYS = 1 ∧
  (∀ c : Fin 4, State.reset.rdN (R.CAN_STATUS c.val) = 4) ∧ (∀ c : Fin 32, State.reset.rdN (R.TRC_COUNTS c.val) = 0x10000000) ∧
  (∀ o : Nat, ¬ o ∈ [R.ID_PART, R.PWR_ON, R.TWN_STATUS, R.TIM_STATUS, R.IMG_KEYS] → (∀ c : Fin 4, o ≠ R.CAN_STATUS c.val) →
    (∀ c : Fin 32, o ≠ R.TRC_COUNTS c.val) → State.reset.rdN o = 0) ∧
  State.reset.img = none ∧ State.reset.pending = [] ∧ State.reset.mem = [] ∧ State.reset.flash = [] ∧ State.reset.Canon ∧
  State.reset.Shaped ∧ State.reset.SeqHeld

/-- Every step answers a next state, takes one command from the queue, and keeps registers, latches, memory and flash in their
canonical form; it leaves four key slots (02 R61) and four profile slots (02 R67). -/
def Obligations.StepKeepsCanon : Prop :=
  ∀ s : State, s.Canon → Steps (step s) fun t => t.Canon ∧ t.pending = s.pending.drop 1 ∧ (s.Shaped → t.Shaped)

/-- A REVOKED key slot stays REVOKED (02 R64), over any step of a module none of whose MRAM regions has failed (03 R138): a key
store that fails its check at start-up takes its factory value. -/
def Obligations.RevokedStaysRevoked : Prop :=
  ∀ s t : State, s.Canon → s.nv.bad = [] → step s = .next t →
    t.nv.bad = [] ∧ ∀ i : Nat, ((s.nv.keys[i]?).getD {}).st = .revoked → ((t.nv.keys[i]?).getD {}).st = .revoked

/-- SEQ never falls over any step (17 R747) of a module whose MRAM regions are sound and whose recorder holds the record of the
latest SEQ, in its tail or in the archive; and every step keeps these two facts. -/
def Obligations.SeqNeverFalls : Prop :=
  ∀ s t : State, s.Canon → s.SeqHeld → step s = .next t → s.nv.seq ≤ t.nv.seq ∧ t.SeqHeld

/-! ## Chapter 02: change sets, profile slots, keys, handover -/

/-- Change sets on their way to a boundary (02 R79 to R82, R85): the active stages one that passes every check, hands it to the
standby and answers OK; one that fails a check is answered REFUSED with the reason, raises 0x1022 and is not staged; the standby
stages what it is handed and reports it, and the active notes the report; one that is not ready 1 s after its named boundary
leaves the staging, with 0x1022, in the active, which tells the standby, and in the standby that is told. The numbers of the
reasons are the model's choice (assumptions 16, 19). Completes: changeset, changesetForwardRx, changeSetDiscard. -/
def Obligations.ChangeSetsStaged : Prop :=
  (∀ (ses : Fin 16) (req : Nat) (c : ChangeSet) (t : Nat) (s : State), (s.at t).Serves ses req true true →
    c.entries ≠ [] → c.entries.length ≤ 4096 → c.cls ≤ 7 → ((s.at t).served ses).csReason c = none →
    Steps (exec (.changeset ses req c t) s) fun u => u.cs = s.cs ++ [{ c with partnerStaged := false, delay := 0 }] ∧
      u.get F.IMG_CS_STATUS_STAGED = (s.cs.length + 1) % 8 ∧
      u.out = s.out ++ [.changeSet { c with partnerStaged := false, delay := 0 }] ++ response ses req 3 0 [] ∧
      SameRegs s u [R.IMG_CS_STATUS] ∧ u.mem = s.mem) ∧
  (∀ (ses : Fin 16) (req : Nat) (c : ChangeSet) (t r : Nat) (s : State), (s.at t).Serves ses req true true →
    c.entries ≠ [] → c.entries.length ≤ 4096 → c.cls ≤ 7 → ((s.at t).served ses).csReason c = some r → s.Room islCs →
    Steps (exec (.changeset ses req c t) s) fun u => u.cs = s.cs ∧ u.out = s.out ++ response ses req 3 4 (le 4 r) ∧
      Raises s u 0x1022 islCs (le 4 r) ∧ u.regs = s.regs ∧ u.mem = s.mem) ∧
  (∀ (c : ChangeSet) (s : State), s.isActive = false → s.isStandby = true →
    Steps (exec (.changesetForwardRx c) s) fun u => u.cs = s.cs ++ [{ c with partnerStaged := true, delay := 0 }] ∧
      u.out = s.out ++ [.staged c.num] ∧ SameRegs s u [R.IMG_CS_STATUS] ∧ u.mem = s.mem) ∧
  (∀ (num t : Nat) (c : ChangeSet) (s : State), s.cs.find? (fun x => x.num = num) = some c → s.isActive = true →
    (s.at t).csReady c = false → (s.at t).now ≥ c.named * 31250 + 1000000000 → s.Room islCs →
    Steps (exec (.changeSetDiscard num t) s) fun u => u.cs = s.cs.filter (fun x => x.num ≠ num) ∧
      u.out = s.out ++ [.csDiscard num] ∧ Raises s u 0x1022 islCs (le 4 13) ∧ SameRegs s u [R.IMG_CS_STATUS] ∧ u.mem = s.mem) ∧
  (∀ (num t : Nat) (c : ChangeSet) (s : State), s.cs.find? (fun x => x.num = num) = some c → s.isActive = false →
    s.Room islCs → Steps (exec (.changeSetDiscard num t) s) fun u => u.cs = s.cs.filter (fun x => x.num ≠ num) ∧
      u.out = s.out ∧ Raises s u 0x1022 islCs (le 4 13) ∧ SameRegs s u [R.IMG_CS_STATUS] ∧ u.mem = s.mem) ∧
  (∀ (c : ChangeSet) (s : State), s.isActive = true → exec (.changesetForwardRx c) s =
    .next { s with cs := s.cs.map (fun x => if x.num = c.num then { x with partnerStaged := true } else x) })

/-- Profile slots (02 R68 to R71, R90, 17 R734, R738): a chunk is written to the slot's flash and the slot is WRITING; FINISH
empties the slot's journal and leaves it WRITING; when the checks complete a WRITING slot is VALID with the key slot of its
signature and its length, or INVALID with the event of the check in LAST_FAIL; LIST answers the four slot words; a chunk for a
slot that is held, or FINISH of it, is refused and writes nothing. The answer's reason 0 is the model's choice (assumption 16).
Completes: profileChunk, profileFinish, imageCheckDone, profileList. -/
def Obligations.ProfileSlots : Prop :=
  (∀ (ses : Fin 16) (req : Nat) (slot : Fin 4) (off : Nat) (data : List Byte) (s : State), s.Serves ses req true false →
    s.slotHeld slot.val = false → data.length ≤ 1024 → off + data.length ≤ 268435456 → s.Shaped →
    Steps (exec (.profileChunk ses req slot off data) s) fun u => u.out = s.out ++ response ses req 5 0 [] ∧
      ((u.nv.slots[slot.val]?).getD {}).st = 1 ∧ Memory.readN u.flash (slotBase slot.val + off) data.length = data ∧
      ∀ a, (a < slotBase slot.val + off ∨ slotBase slot.val + off + data.length ≤ a) →
        Memory.read u.flash a = Memory.read s.flash a) ∧
  (∀ (ses : Fin 16) (req : Nat) (slot : Fin 4) (off : Nat) (data : List Byte) (s : State), s.Serves ses req true false →
    s.slotHeld slot.val = true → Steps (exec (.profileChunk ses req slot off data) s) fun u => u.flash = s.flash ∧ u.nv = s.nv ∧
      u.regs = s.regs ∧ u.out = s.out ++ response ses req 5 4 (le 4 0)) ∧
  (∀ (ses : Fin 16) (req : Nat) (slot : Fin 4) (s : State), s.Serves ses req true false → s.slotHeld slot.val = false →
    s.Shaped →
    Steps (exec (.profileFinish ses req slot) s) fun u => u.out = s.out ++ response ses req 5 0 [] ∧
      ((u.nv.slots[slot.val]?).getD {}).st = 1 ∧ slotJournal u.flash slot.val = [] ∧
      ∀ a, (a < journalBase slot.val ∨ journalBase slot.val + 16777216 ≤ a) → Memory.read u.flash a = Memory.read s.flash a) ∧
  (∀ (slot : Fin 4) (s : State), s.Shaped → ((s.nv.slots[slot.val]?).getD {}).st = 1 → s.Room islFlash →
    Steps (exec (.imageCheckDone slot) s) fun u => u.flash = s.flash ∧
      match checkImage s.flash (slotBase slot.val) s.nv.keys s.nv.compat with
      | .good k => ((u.nv.slots[slot.val]?).getD {}).st = 2 ∧ ((u.nv.slots[slot.val]?).getD {}).keySlot = k ∧
          ((u.nv.slots[slot.val]?).getD {}).lenMib = (leNat (Memory.readN s.flash (slotBase slot.val + 8) 4) + 1048575) / 1048576
      | .bad code data => ((u.nv.slots[slot.val]?).getD {}).st = 3 ∧ u.get F.IMG_STATUS_LAST_FAIL = code % 256 ∧
        Raises s u code islFlash data) ∧
  (∀ (ses : Fin 16) (req : Nat) (s : State), s.Serves ses req true false →
    Steps (exec (.profileList ses req) s) fun u => u.out = s.out ++ response ses req 5 0
        (le 4 (s.rdN (R.IMG_SLOT 0)) ++ le 4 (s.rdN (R.IMG_SLOT 1)) ++ le 4 (s.rdN (R.IMG_SLOT 2)) ++ le 4 (s.rdN (R.IMG_SLOT 3))) ∧
      u.regs = s.regs ∧ u.nv = s.nv) ∧
  (∀ (ses : Fin 16) (req : Nat) (slot : Fin 4) (s : State), s.Serves ses req true false → s.slotHeld slot.val = true →
    Steps (exec (.profileFinish ses req slot) s) fun u => u.flash = s.flash ∧ u.nv = s.nv ∧ u.regs = s.regs ∧
      u.out = s.out ++ response ses req 5 4 (le 4 0)) ∧
  (∀ (slot : Fin 4) (s : State), ((s.nv.slots[slot.val]?).getD {}).st ≠ 1 → exec (.imageCheckDone slot) s = .next s)

/-- The choice of profile (02 R74, R75, R105): SELECT records a slot, or the factory safe image, persistent in MRAM with the
volatile choice cleared, or volatile; CLEAR removes both; SEL_SET of IMG_SEL records what the register names, a slot persistently
or the factory safe image volatilely, and SEL_CLEAR removes both. No register changes. Completes: profileSelect, profileClear,
selSet, selClear. -/
def Obligations.ProfileChoice : Prop :=
  (∀ (ses : Fin 16) (req : Nat) (slot : Option (Fin 4)) (s : State), s.Serves ses req true false →
    Steps (exec (.profileSelect ses req slot true) s) fun u => u.out = s.out ++ response ses req 5 0 [] ∧ u.regs = s.regs ∧
      u.nv = { s.nv with choice := some (slotChoice slot) } ∧
      u.keep = { s.keep with choice := none }) ∧
  (∀ (ses : Fin 16) (req : Nat) (slot : Option (Fin 4)) (s : State), s.Serves ses req true false →
    Steps (exec (.profileSelect ses req slot false) s) fun u => u.out = s.out ++ response ses req 5 0 [] ∧ u.regs = s.regs ∧
      u.nv = s.nv ∧ u.keep = { s.keep with choice := some (slotChoice slot) }) ∧
  (∀ (ses : Fin 16) (req : Nat) (s : State), s.Serves ses req true false →
    Steps (exec (.profileClear ses req) s) fun u => u.out = s.out ++ response ses req 5 0 [] ∧ u.regs = s.regs ∧
      u.nv = { s.nv with choice := none } ∧ u.keep = { s.keep with choice := none }) ∧
  (∀ s : State, s.on F.IMG_SEL_SEL_FACTORY = false → s.on F.IMG_SEL_SEL_PERSIST = true →
    Steps (exec .selSet s) fun u => u.nv = { s.nv with choice := some (.slot (s.get F.IMG_SEL_SEL_SLOT)) } ∧
      u.keep = { s.keep with choice := none } ∧ u = { s with nv := u.nv, keep := u.keep }) ∧
  (∀ s : State, s.on F.IMG_SEL_SEL_FACTORY = true → s.on F.IMG_SEL_SEL_PERSIST = false →
    Steps (exec .selSet s) fun u => u = { s with keep := { s.keep with choice := some .factory } }) ∧
  (∀ s : State, Steps (exec .selClear s) fun u =>
    u = { s with nv := { s.nv with choice := none }, keep := { s.keep with choice := none } })

/-- Key records (02 R63 to R66): one that is signed by the key of another ENABLED slot installs a key in an EMPTY slot of this
module, with 0x1040, and the active hands it to the standby; one that is not is refused with 0x1042. The standby takes a record
from the active without a signature: an install into an EMPTY slot; a revoke where another slot stays ENABLED, with 0x1041; an
install into a slot that is not EMPTY, and a revoke that would leave no ENABLED slot, change no key and raise 0x1042. The reason
0 of the refusal is the model's choice (assumption 16). Completes: profileKey, keyRecordFromActive. -/
def Obligations.KeyRecords : Prop :=
  (∀ (ses : Fin 16) (req : Nat) (r : KeyRecord) (s : State), s.Serves ses req true false → r.magicOk = true → r.install = true →
    ((s.nv.keys[r.slot.val]?).getD {}).st = .empty → s.Shaped → s.Room islMgmt →
    Steps (exec (.profileKey ses req r) s) fun u => (∀ i, i ≠ r.slot.val → u.nv.keys[i]? = s.nv.keys[i]?) ∧
      if signedRecord s.nv.keys r then
        u.nv.keys[r.slot.val]? = some { st := .enabled, key := r.key } ∧ Raises s u 0x1040 islMgmt [] ∧
        u.out = s.out ++ (if s.isActive then [.keyRecord true r.slot.val r.key] else []) ++ response ses req 5 0 []
      else u.nv.keys = s.nv.keys ∧ Raises s u 0x1042 islMgmt [] ∧ u.out = s.out ++ response ses req 5 4 (le 4 0)) ∧
  (∀ (r : KeyRecord) (s : State), r.install = true → ((s.nv.keys[r.slot.val]?).getD {}).st = .empty →
    s.Shaped → s.Room islMgmt → Steps (exec (.keyRecordFromActive r) s) fun u =>
      u.nv.keys[r.slot.val]? = some { st := .enabled, key := r.key } ∧
      (∀ i, i ≠ r.slot.val → u.nv.keys[i]? = s.nv.keys[i]?) ∧ Raises s u 0x1040 islMgmt [] ∧ u.out = s.out) ∧
  (∀ (r : KeyRecord) (s : State), r.install = true → ((s.nv.keys[r.slot.val]?).getD {}).st ≠ .empty → s.Room islMgmt →
    Steps (exec (.keyRecordFromActive r) s) fun u => u.nv = s.nv ∧ u.regs = s.regs ∧ Raises s u 0x1042 islMgmt []) ∧
  (∀ (r : KeyRecord) (i : Nat) (s : State), r.install = false → i ≠ r.slot.val → ((s.nv.keys[i]?).getD {}).st = .enabled →
    s.Shaped → s.Room islMgmt → Steps (exec (.keyRecordFromActive r) s) fun u =>
      ((u.nv.keys[r.slot.val]?).getD {}).st = .revoked ∧ (∀ j, j ≠ r.slot.val → u.nv.keys[j]? = s.nv.keys[j]?) ∧
      Raises s u 0x1041 islMgmt [] ∧ u.out = s.out) ∧
  (∀ (r : KeyRecord) (s : State), r.install = false →
    (∀ i : Nat, i ≠ r.slot.val → ((s.nv.keys[i]?).getD {}).st ≠ .enabled) → s.Room islMgmt →
    Steps (exec (.keyRecordFromActive r) s) fun u => u.nv = s.nv ∧ u.regs = s.regs ∧ Raises s u 0x1042 islMgmt [])

/-- The handover window (02 R96, R97, R99, R101, R102): the active opens it in RESTARTING with its target, refuses change sets,
tells the standby and raises 0x1030; a command that does not fit is answered REFUSED with 0x1033 and opens nothing; an abort
before SWITCHING and the expiry at 60 s close it, with 0x1033 and 0x1034, in the module that runs on, and restart the one that
went first into its previous profile; an expiry that is early changes nothing. A frame of the active's burst stands in the
staging of the other. That a command is refused while a switchover is named, its reason 0, and the cause of the restart are the
model's choice (assumptions 16, 87). Completes: handover, handoverAbort, handoverWindowExpiry, copyBurstStage. -/
def Obligations.HandoverWindow : Prop :=
  (∀ (ses : Fin 16) (req : Nat) (slot : Fin 4) (t : Nat) (s : State), (s.at t).Serves ses req true true → s.nv.hoState = 0 →
    s.matched = true → s.twin.switch = none → s.hoTargetOk slot.val true = true → s.Room islMgmt →
    Steps (exec (.handover ses req slot true t) s) fun u => u.nv.hoState = 1 ∧ u.nv.hoElapsed = 0 ∧ u.nv.hoTarget = slot.val ∧
      u.nv.hoFirst = false ∧ u.get F.IMG_CS_STATUS_REFUSING = 1 ∧ Raises s u 0x1030 islMgmt [] ∧
      u.out = s.out ++ [.handoverStart slot.val] ++ response ses req 6 0 []) ∧
  (∀ (ses : Fin 16) (req : Nat) (slot : Fin 4) (v : Bool) (t : Nat) (s : State), (s.at t).Serves ses req true true →
    (s.nv.hoState ≠ 0 ∨ s.matched = false ∨ s.twin.switch ≠ none ∨ s.hoTargetOk slot.val v = false) → s.Room islMgmt →
    Steps (exec (.handover ses req slot v t) s) fun u => u.nv = s.nv ∧ u.regs = s.regs ∧ Raises s u 0x1033 islMgmt [] ∧
      u.out = s.out ++ response ses req 6 4 (le 4 0)) ∧
  (∀ (t : Nat) (s : State), 1 ≤ s.nv.hoState → s.nv.hoState ≤ 3 → s.nv.hoFirst = false → s.Room islMgmt →
    Steps (exec (.handoverAbort t) s) fun u => u.nv = { s.nv with hoState := 0, hoElapsed := 0, hoFirst := false } ∧
      u.get F.IMG_CS_STATUS_REFUSING = 0 ∧ Raises s u 0x1033 islMgmt [] ∧ u.out = s.out ∧ u.mem = s.mem) ∧
  (∀ (t : Nat) (s : State), s.nv.hoState ≠ 0 → (s.nv.hoState ≤ 3 → s.nv.hoFirst = false) → 60000000000 ≤ (s.at t).hoOpenNs →
    s.Room islMgmt →
    Steps (exec (.handoverWindowExpiry t) s) fun u => u.nv = { s.nv with hoState := 0, hoElapsed := 0, hoFirst := false } ∧
      u.get F.IMG_CS_STATUS_REFUSING = 0 ∧ Raises s u 0x1034 islMgmt [] ∧ u.out = s.out ∧ u.mem = s.mem) ∧
  (∀ (ring : Fin 16) (bytes : List Byte) (s : State), s.nv.hoState ≠ 0 → s.isActive = false →
    Steps (exec (.copyBurstStage ring bytes) s) fun u => u = { s with twin := u.twin } ∧
      u.twin.copyBurst.getLast? = some (ring.val, bytes)) ∧
  (∀ (t : Nat) (s : State), 1 ≤ s.nv.hoState → s.nv.hoState ≤ 3 → s.nv.hoFirst = true →
    Steps (exec (.handoverAbort t) s) fun u => u.Restarted 3 ∧ u.nv.boot = some s.nv.hoPrev ∧ u.nv.hoState = 0) ∧
  (∀ (t : Nat) (s : State), 1 ≤ s.nv.hoState → s.nv.hoState ≤ 3 → s.nv.hoFirst = true → 60000000000 ≤ (s.at t).hoOpenNs →
    Steps (exec (.handoverWindowExpiry t) s) fun u => u.Restarted 7 ∧ u.nv.boot = some s.nv.hoPrev ∧ u.nv.hoState = 0) ∧
  (∀ (t : Nat) (s : State), (s.at t).hoOpenNs < 60000000000 → exec (.handoverWindowExpiry t) s = .next (s.at t))

/-- The restarts and the mapping of a handover (02 R92, R94, R100, R101): the standby that is told to start, and the module that
follows, restart their image: stage S1, role NONE, rings and time as they were, and what those need powered as it was; where a domain of
these that the image uses is off, the module restarts fully. The mapping
ends in SHADOW with join step SHADOW complete, and an entry of KIND 1 without a conversion gives the point of the new image the
value and quality of the old one's. How the copy names what it brings and the cause of that full restart are the model's choices (assumptions 23, 123). Completes:
handoverStartFromActive, imageRestart, handoverMappingDone. -/
def Obligations.HandoverRestarts : Prop :=
  (∀ (slot : Fin 4) (t : Nat) (s : State), s.nv.hoState = 0 → s.isStandby = true → s.pwr.imageRestart = false → s.nv.bad = [] →
    s.keepsOn = true → Steps (exec (.handoverStartFromActive slot t) s) fun u => u.nv.hoState = 1 ∧ u.nv.hoFirst = true ∧
      u.nv.hoTarget = slot.val ∧ u.get F.MOD_STATUS_STAGE = 1 ∧ u.pwr.imageRestart = true ∧ u.role = 0 ∧ u.rings = s.rings ∧
      u.time = s.time ∧ ∀ d ∈ [0, 6, 8, 10, 11, 12, 13, 22], u.pd d = s.pd d) ∧
  (∀ (t : Nat) (s : State), s.nv.hoState = 5 → s.nv.hoFirst = false → s.pwr.imageRestart = false → s.nv.bad = [] →
    s.keepsOn = true → Steps (exec (.imageRestart t) s) fun u => u.nv.hoState = 5 ∧ u.get F.MOD_STATUS_STAGE = 1 ∧ u.pwr.imageRestart = true ∧
      u.role = 0 ∧ u.rings = s.rings ∧ u.time = s.time ∧ ∀ d ∈ [0, 6, 8, 10, 11, 12, 13, 22], u.pd d = s.pd d) ∧
  (∀ (t : Nat) (s : State), s.nv.hoState = 5 → s.nv.hoFirst = false → s.pwr.imageRestart = false → s.keepsOn = false →
    Steps (exec (.imageRestart t) s) fun u => u.Restarted 3) ∧
  (∀ (old : StatePatch) (types : List (Nat × Nat)) (t : Nat) (s : State), s.nv.hoState = 2 → s.nv.hoFirst = true →
    Steps (exec (.handoverMappingDone old types t) s) fun u => u.nv.hoState = 3 ∧ u.get F.TWN_JOIN_STEP = 4 ∧
      u.get F.TWN_JOIN_PROGRESS = 100) ∧
  (∀ (old : StatePatch) (types : List (Nat × Nat)) (e : MapEntry) (v : PointVal) (t : Nat) (s : State), s.nv.hoState = 2 →
    s.nv.hoFirst = true → s.image.map = [e] → e.kind = 1 → e.xform = 0 → e.span = 1 → old.forces = none →
    old.points.find? (fun p => p.1 = e.old) = some (e.old, v) →
    Steps (exec (.handoverMappingDone old types t) s) fun u => tget none u.sig.closed e.new = some v)

/-! ## Chapter 03: the fabric and the memories -/

/-- Transactions and their tags (03 R108, R119 to R121; 12 R559): a timeout counts, raises 0x2003 with source, destination and tag,
puts the tag in quarantine for 10 µs and answers the source with an error, and a store's error waits in its core pair; a
transaction known to be younger than 10 µs does not time out. The end of the quarantine returns the tag; a response for a tag in
quarantine is discarded with 0x2004, any other changes nothing. The router of an island that is off or absent raises 0x2040 and
answers an error; that of a powered one does not. A transaction takes a tag that nothing holds, of the pool of its virtual
channel, and where its source has none free it waits. Completes: transactionTimeout, tagQuarantineEnd, lateResponseRx,
noIslandResponse. -/
def Obligations.FabricTransactions : Prop :=
  (∀ (isl dst : Fin 256) (tag : Fin 16384) (t : Nat) (s : State), (s.at t).overdue isl.val tag.val = true → s.Room isl.val →
    Steps (exec (.transactionTimeout (.other isl) dst tag t) s) fun u =>
      u.fab.quarantine = s.fab.quarantine ++ [(isl.val, tag.val, max s.now t + 10000)] ∧
      u.fab.inflight = s.fab.inflight.filter (fun e => !(decide (e.tag = tag.val) && decide (e.src = isl.val))) ∧
      u.get F.FAB_TAG_TIMEOUT_TIMEOUTS = min (s.get F.FAB_TAG_TIMEOUT_TIMEOUTS + 1) (2 ^ 32 - 1) ∧
      Raises s u 0x2003 isl.val (le 1 isl.val ++ le 1 dst.val ++ le 2 tag.val) ∧ u.out = s.out ++ [.response isl.val 1] ∧
      SameRegs s u [R.FAB_TAG_TIMEOUT] ∧ u.mem = s.mem ∧ u.cores = s.cores) ∧
  (∀ (c : Fin 32) (a : DWord) (dst : Fin 256) (tag : Fin 16384) (t : Nat) (s : State),
    (s.at t).overdue c.val tag.val = true → s.coreRuns c.val = true → (s.core c.val).storeErr = none →
    Steps (exec (.transactionTimeout (.store c a) dst tag t) s) fun u => (u.core c.val).storeErr = some a.toNat) ∧
  (∀ (src : Fin 256) (tag : Fin 16384) (at_ t : Nat) (s : State), (src.val, tag.val, at_) ∈ s.fab.quarantine → at_ ≤ max s.now t →
    s.fab.tagWaits = [] → Steps (exec (.tagQuarantineEnd src tag t) s) fun u =>
    u = { s with now := max s.now t, fab := { s.fab with quarantine := s.fab.quarantine.filter (fun e =>
      !(decide (e.1 = src.val) && decide (e.2.1 = tag.val) && decide (e.2.2 ≤ max s.now t))) } }) ∧
  (∀ (src : Fin 256) (tag : Fin 16384) (at_ : Nat) (s : State), (src.val, tag.val, at_) ∈ s.fab.quarantine → s.Room src.val →
    Steps (exec (.lateResponseRx src tag) s) fun u => Raises s u 0x2004 src.val [] ∧ u = { s with recd := u.recd }) ∧
  (∀ (src : Fin 256) (tag : Fin 16384) (s : State), (∀ e ∈ s.fab.quarantine, e.1 = src.val → e.2.1 ≠ tag.val) →
    exec (.lateResponseRx src tag) s = .next s) ∧
  (∀ (isl router : Fin 256) (t : Nat) (s : State), s.pd 22 = true → s.islandOff router.val = true →
    s.Room router.val →
    Steps (exec (.noIslandResponse (.other isl) router t) s) fun u => Raises s u 0x2040 router.val [] ∧
      u.out = s.out ++ [.response isl.val 2] ∧ u.regs = s.regs ∧ u.mem = s.mem ∧ u.cores = s.cores) ∧
  (∀ (r : TxReq) (router : Fin 256) (t : Nat) (s : State), s.islandOff router.val = false ∨ s.pd 22 = false →
    exec (.noIslandResponse r router t) s = .next (s.at t)) ∧
  (∀ (r : TxReq) (dst : Fin 256) (tag : Fin 16384) (t : Nat) (s : State), (s.at t).overdue r.island tag.val = false →
    exec (.transactionTimeout r dst tag t) s = .next (s.at t)) ∧
  (∀ (src vc g : Nat) (s : State), s.freeTag src vc = some g → s.tagHeld g = false ∧ (vc = 0 → g < 4096) ∧
    (vc ≠ 0 → 4096 ≤ g ∧ g < 16384)) ∧
  (∀ (e : TagUse) (g : Nat) (s : State), s.freeTag e.src e.vc = some g →
    (s.inject e).fab = { s.fab with inflight := s.fab.inflight ++ [{ e with tag := g }] }) ∧
  (∀ (e : TagUse) (s : State), s.freeTag e.src e.vc = none → (s.inject e).fab.inflight = s.fab.inflight ∧
    (s.inject e).fab.tagWaits = s.fab.tagWaits ++ [e])

/-- A router output over a 1 µs window (03 R109, R112, R113, R117): fewer than 760 handshakes under load make its link slow, with
its bit and 0x2001; more than 200 VC0 flits count and raise 0x2002; otherwise no register changes and nothing is raised. A
handshake grants VC0 first while its budget of the window lasts, and of two flits of one channel the older. That a window raises
one 0x2002 is the model's reading (assumption 90). Completes: fabricWindowEnd. -/
def Obligations.FabricWindows : Prop :=
  (∀ (router : Fin 256) (output : Fin 5) (ready : List (List Flit)) (s : State),
    s.pd 22 = true → (s.routerWindow router.val output.val ready).grants.length < 760 → (s.routerWindow router.val output.val ready).vc0 ≤ 200 →
    s.Room router.val → Steps (exec (.fabricWindowEnd router output true ready) s) fun u => u.get F.FAB_STATUS_SLOW_LINK = 1 ∧
      (u.rd (R.FAB_SLOW (router.val / 32))).getLsbD (router.val % 32) = true ∧
      Raises s u 0x2001 router.val (le 1 router.val ++ le 1 output.val) ∧
      SameRegs s u [R.FAB_STATUS, R.FAB_SLOW (router.val / 32)]) ∧
  (∀ (router : Fin 256) (output : Fin 5) (ready : List (List Flit)) (n : Nat) (s : State),
    s.pd 22 = true → (s.routerWindow router.val output.val ready).vc0 = n → 200 < n → s.Room router.val →
    Steps (exec (.fabricWindowEnd router output false ready) s) fun u =>
      u.get F.FAB_VC0_OVER_OVER_COUNT = min (s.get F.FAB_VC0_OVER_OVER_COUNT + (n - 200)) (2 ^ 32 - 1) ∧
      Raises s u 0x2002 router.val [] ∧ u.routerOut router.val output.val = s.routerWindow router.val output.val ready ∧
      SameRegs s u [R.FAB_VC0_OVER]) ∧
  (∀ (router : Fin 256) (output : Fin 5) (ready : List (List Flit)) (s : State),
    s.pd 22 = true → (s.routerWindow router.val output.val ready).vc0 ≤ 200 →
    Steps (exec (.fabricWindowEnd router output false ready) s) fun u => u = { s with fab := u.fab } ∧
      u.routerOut router.val output.val = s.routerWindow router.val output.val ready) ∧
  (∀ (router : Fin 256) (output : Fin 5) (load : Bool) (ready : List (List Flit)) (s : State), s.pd 22 = false →
    exec (.fabricWindowEnd router output load ready) s = .next s) ∧
  (∀ (r : Routes) (o : RouterOut) (ready : List Flit) (f : Flit), o.vc0 < 200 →
    flitBest o.token (ready.filter (fun g => decide (g.vc.val = 0))) = some f →
    o.handshake r ready = { o with token := (o.token + 1) % 5, vc0 := o.vc0 + 1, grants := o.grants ++ [f] }) ∧
  (∀ (token : Nat) (a b : Flit), older (ageStamp b.inj) (ageStamp a.inj) = true → flitBest token [a, b] = some b ∧
    flitBest token [b, a] = some b)

/-- Memory errors and stress (03 R124, R131 to R134, R136): a corrected error of HBM or SRAM counts and raises 0x2022 or 0x2020;
an uncorrectable one sets ECC_UE and raises 0x2023, with POISON to its source, a load's being LOAD_ERR (12 R559), or 0x2021 with
the word poisoned; an answer later than 600 ns to a floor request raises 0x2012; a trace offload write that arrives in STRESS is
dropped and counted (07 R350); the fourth window in a row with a full bulk queue puts the channel in STRESS, with its bits and 0x2010,
and the hundredth window in a row without an entry condition ends it with 0x2011; a write error of the flash raises 0x2030.
Which block a flash write error moves is the model's choice (assumption 78). Completes: hbmRequest, hbmStressWindow, sramScrub,
flashWriteError. -/
def Obligations.MemoryErrors : Prop :=
  (∀ (c : Fin 32) (vc : Fin 4) (w a : Nat) (r : TxReq) (s : State), w ≤ 300 → a ≤ 600 → s.Room (islHbm c.val) →
    Steps (exec (.hbmRequest c vc w a 1 r) s) fun u => u.get F.FAB_ECC_HBM_CE = min (s.get F.FAB_ECC_HBM_CE + 1) (2 ^ 16 - 1) ∧
      Raises s u 0x2022 (islHbm c.val) [] ∧ u = { s with regs := u.regs, recd := u.recd } ∧ SameRegs s u [R.FAB_ECC]) ∧
  (∀ (c : Fin 32) (vc : Fin 4) (w a : Nat) (i : Fin 256) (s : State), w ≤ 300 → a ≤ 600 → s.Room (islHbm c.val) →
    Steps (exec (.hbmRequest c vc w a 2 (.other i)) s) fun u => u.get F.FAB_STATUS_ECC_UE = 1 ∧
      Raises s u 0x2023 (islHbm c.val) [] ∧ u.out = s.out ++ [.response i.val 3] ∧
      u.twin.ownFaults = s.count :: s.twin.ownFaults ∧ u.mem = s.mem ∧ SameRegs s u [R.FAB_STATUS]) ∧
  (∀ (c k : Fin 32) (vc : Fin 4) (w a : Nat) (ad : DWord) (s : State), w ≤ 300 → a ≤ 600 → s.coreRuns k.val = true →
    (s.core k.val).level = 0 → s.StoresGood k.val → Steps (exec (.hbmRequest c vc w a 2 (.load k ad)) s) fun u =>
      Enters s u k.val 5 5 (s.core k.val).pc ∧ (u.core k.val).tval = ad ∧ u.get F.FAB_STATUS_ECC_UE = 1) ∧
  (∀ (c : Fin 32) (w a : Nat) (r : TxReq) (s : State), w ≤ 300 → 600 < a → s.Room (islHbm c.val) →
    Steps (exec (.hbmRequest c 1 w a 0 r) s) fun u => Raises s u 0x2012 (islHbm c.val) [] ∧ u = { s with recd := u.recd }) ∧
  (∀ (c : Fin 32) (l : List HbmReq) (s : State), (s.hbmChan c.val).stress = false → 3 ≤ (s.hbmChan c.val).full →
    64 ≤ bulkOf ((s.hbmChan c.val).serve s.image.routes.floorPct (l.map HbmReq.cls)) → s.Room (islHbm c.val) →
    Steps (exec (.hbmStressWindow c l) s) fun u => (u.hbmChan c.val).stress = true ∧ u.get F.FAB_STATUS_HBM_STRESS = 1 ∧
      (u.rd R.FAB_HBM_STRESS).getLsbD c.val = true ∧ (u.rd R.FAB_HBM_STRESS_SEEN).getLsbD c.val = true ∧
      Raises s u 0x2010 (islHbm c.val) [] ∧ SameRegs s u [R.FAB_STATUS, R.FAB_HBM_STRESS, R.FAB_HBM_STRESS_SEEN]) ∧
  (∀ (c : Fin 32) (l : List HbmReq) (s : State), (s.hbmChan c.val).stress = true → (s.hbmChan c.val).waited = false →
    99 ≤ (s.hbmChan c.val).quiet → bulkOf ((s.hbmChan c.val).serve s.image.routes.floorPct (l.map HbmReq.cls)) < 64 →
    (∀ q ∈ l, q.cls ≠ 2 ∧ q.cls ≠ 3) → s.Room (islHbm c.val) →
    Steps (exec (.hbmStressWindow c l) s) fun u => (u.hbmChan c.val).stress = false ∧
      (u.rd R.FAB_HBM_STRESS).getLsbD c.val = false ∧ Raises s u 0x2011 (islHbm c.val) [] ∧
      SameRegs s u [R.FAB_STATUS, R.FAB_HBM_STRESS]) ∧
  (∀ (c k : Fin 32) (q : HbmReq) (s : State), (s.hbmChan c.val).stress = true → (s.hbmChan c.val).waited = false →
    (s.hbmChan c.val).quiet < 99 → q.src.val = 32 + k.val → 1 < q.vc.val → q.kind.val = 1 → s.trc k.val ≠ 4 →
    (s.hbmChan c.val).queue = [] →
    Steps (exec (.hbmStressWindow c [q]) s) fun u => u.get (F.TRC_LOSS_LOST k.val) =
        min (s.get (F.TRC_LOSS_LOST k.val) + 1) (2 ^ (F.TRC_LOSS_LOST k.val).len - 1) ∧ u.get (F.TRC_DONE_LOSSY k.val) = 1 ∧
      (u.hbmChan c.val).queue = [] ∧ u.recd = s.recd ∧ SameRegs s u [R.TRC_LOSS k.val, R.TRC_DONE k.val]) ∧
  (∀ (b : Fin 64) (w : Fin 131072) (s : State), s.Room (66 + b.val) →
    Steps (exec (.sramScrub b w false) s) fun u => u.get F.FAB_ECC_SRAM_CE = min (s.get F.FAB_ECC_SRAM_CE + 1) (2 ^ 16 - 1) ∧
      Raises s u 0x2020 (66 + b.val) [] ∧ u = { s with regs := u.regs, recd := u.recd } ∧ SameRegs s u [R.FAB_ECC]) ∧
  (∀ (b : Fin 64) (w : Fin 131072) (s : State), s.Room (66 + b.val) →
    Steps (exec (.sramScrub b w true) s) fun u => u.poisoned (0x8000000000 + 0x100000 * b.val + 8 * w.val) 8 = true ∧
      u.get F.FAB_STATUS_ECC_UE = 1 ∧ Raises s u 0x2021 (66 + b.val) [] ∧ u.mem = s.mem ∧ SameRegs s u [R.FAB_STATUS]) ∧
  (∀ s : State, s.nv.archSeq = 0 → s.Room islFlash → Steps (exec .flashWriteError s) fun u => Raises s u 0x2030 islFlash [] ∧
    u = { s with recd := u.recd }) ∧
  (∀ s : State, s.nv.archSeq ≠ 0 → s.Room islFlash → Steps (exec .flashWriteError s) fun u => Raises s u 0x2030 islFlash [] ∧
    u.nv = { s.nv with archSkips := s.nv.archSkips ++ [s.nv.archSeq / 64 * 64] } ∧ u.mem = s.mem ∧
    SameRegs s u [R.EVT_STATUS])

/-! ## Chapter 05: cyclic execution -/

/-- Releases, aborts and rollbacks (05 R202, R207, R217, R218, R222, R223, R225, R240): a freeze that completes makes the frozen
activations ready and the RELEASE interrupt pending; an activation not complete its run limit after its release is aborted with
kind 7 and rolls back; a rollback that completes leaves the partition WAITING, or HALTED: by command with 0x4014, at the fault
limit with 0x4012. Completes: freezeComplete, runLimit, rollbackComplete. -/
def Obligations.ActivationsEnd : Prop :=
  (∀ (c : Fin 32) (s : State), (s.core c.val).frozen ≠ [] → Steps (exec (.freezeComplete c) s) fun u =>
    (u.core c.val).ready = (s.core c.val).ready ++ (s.core c.val).frozen ∧ (u.core c.val).frozen = [] ∧
    (u.core c.val).ipend.getLsbD 0 = true ∧ u = { s with cores := u.cores } ∧ ∀ d, d ≠ c.val → u.core d = s.core d) ∧
  (∀ (p : Fin 256) (t : Nat) (s : State), (s.pst p.val = 2 ∨ s.pst p.val = 4) → s.decides = true →
    (s.part p.val).relAt + (s.prec p.val).runLimit * period (s.prec p.val).cls * 31250 ≤ max s.now t →
    s.Room (s.prec p.val).core → Steps (exec (.runLimit p t) s) fun u => u.pst p.val = 6 ∧
      u.get (F.CYC_PSTATE_LAST_FAULT p.val) = 7 ∧
      u.get (F.CYC_PFAULT_ABORTS p.val) = min (s.get (F.CYC_PFAULT_ABORTS p.val) + 1) (2 ^ 16 - 1) ∧
      u.get F.CYC_STATUS_ABORT = 1 ∧ u.commit.runLimit = s.commit.runLimit ++ [(p.val, (s.part p.val).release)] ∧
      Raises s u 0x4003 (s.prec p.val).core [] ∧ u.mem = s.mem ∧
      SameRegs s u [R.CYC_PSTATE p.val, R.CYC_PFAULT p.val, R.CYC_STATUS]) ∧
  (∀ (p : Fin 256) (t : Nat) (s : State), s.pst p.val = 6 → (s.part p.val).thenHalt = false → (s.part p.val).limit = false →
    (s.part p.val).thenRelease = false → (s.part p.val).relWait = none →
    Steps (exec (.rollbackComplete p t) s) fun u => u.pst p.val = 1 ∧ (u.part p.val).undo = [] ∧
      u.mem = ((s.at t).rollMem p.val).mem ∧ SameRegs s u [R.CYC_PSTATE p.val, R.CYC_STATUS]) ∧
  (∀ (p : Fin 256) (t : Nat) (s : State), s.pst p.val = 6 → (s.part p.val).thenHalt = false → (s.part p.val).limit = true →
    (s.part p.val).thenRelease = false → s.Room (s.prec p.val).core →
    Steps (exec (.rollbackComplete p t) s) fun u => u.pst p.val = 7 ∧
      u.get (F.CYC_PFAULT_HALTS p.val) = min (s.get (F.CYC_PFAULT_HALTS p.val) + 1) (2 ^ 8 - 1) ∧
      Raises s u 0x4012 (s.prec p.val).core []) ∧
  (∀ (p : Fin 256) (t : Nat) (s : State), s.pst p.val = 6 → (s.part p.val).thenHalt = true → s.Room (s.prec p.val).core →
    Steps (exec (.rollbackComplete p t) s) fun u => u.pst p.val = 7 ∧ Raises s u 0x4014 (s.prec p.val).core []) ∧
  (∀ (c : Fin 32) (s : State), (s.core c.val).frozen = [] → exec (.freezeComplete c) s = .next s) ∧
  (∀ (p : Fin 256) (t : Nat) (s : State), s.pst p.val ≠ 6 → exec (.rollbackComplete p t) s = .next (s.at t))

/-- Partition commands (05 R225): the active queues a restart or a halt for the first boundary four C0 cycles on and hands it to
the standby, which queues it with the TWIN interrupt; a command that is not taken sets REFUSED with 0x4015 and queues nothing.
Completes: cycPctlRestart, cycPctlHalt, partitionCommandRx. -/
def Obligations.PartitionCommands : Prop :=
  (∀ (p : Fin 256) (t : Nat) (s : State), s.takesCommand p.val true = true →
    Steps (exec (.cycPctlRestart p t) s) fun u =>
      (u.part p.val).cmd = some { restart := true, at_ := boundaryAfter (max s.now t) 4 } ∧ u.get F.CYC_PCTL_PENDING = 1 ∧
      u.get F.CYC_PCTL_PART = p.val ∧ u.get F.CYC_PCTL_ACTION = 1 ∧
      u.out = s.out ++ [.partCommand p.val true (boundaryAfter (max s.now t) 4)] ∧ SameRegs s u [R.CYC_PCTL]) ∧
  (∀ (p : Fin 256) (t : Nat) (s : State), s.takesCommand p.val false = true →
    Steps (exec (.cycPctlHalt p t) s) fun u =>
      (u.part p.val).cmd = some { restart := false, at_ := boundaryAfter (max s.now t) 4 } ∧ u.get F.CYC_PCTL_PENDING = 1 ∧
      u.get F.CYC_PCTL_PART = p.val ∧ u.get F.CYC_PCTL_ACTION = 2 ∧
      u.out = s.out ++ [.partCommand p.val false (boundaryAfter (max s.now t) 4)] ∧ SameRegs s u [R.CYC_PCTL]) ∧
  (∀ (p : Fin 256) (t : Nat) (s : State), s.takesCommand p.val false = false → s.Room islMgmt →
    Steps (exec (.cycPctlHalt p t) s) fun u => u.get F.CYC_PCTL_REFUSED = 1 ∧ Raises s u 0x4015 islMgmt [] ∧
      u.parts = s.parts ∧ u.out = s.out ∧ SameRegs s u [R.CYC_PCTL]) ∧
  (∀ (p : Fin 256) (restart : Bool) (n : Nat) (s : State), s.isStandby = true → (s.image.part? p.val).isSome = true →
    Steps (exec (.partitionCommandRx p restart n) s) fun u => (u.part p.val).cmd = some { restart := restart, at_ := n } ∧
      u.get F.CYC_PCTL_PENDING = 1 ∧ (u.core (s.prec p.val).core).ipend.getLsbD 3 = true ∧ SameRegs s u [R.CYC_PCTL]) ∧
  (∀ (p : Fin 256) (t : Nat) (s : State), s.takesCommand p.val true = false → s.Room islMgmt →
    Steps (exec (.cycPctlRestart p t) s) fun u => u.get F.CYC_PCTL_REFUSED = 1 ∧ Raises s u 0x4015 islMgmt [] ∧
      u.parts = s.parts ∧ u.out = s.out ∧ SameRegs s u [R.CYC_PCTL])

/-- The staging instant (05 R209, R212, R220, R232, R235, R239): 27 µs into the C0 cycle, once, a module that decides stages its
partitions and has DEADLINE pending in every core pair in use, and a standby that waits for the commit record has DEADLINE
pending and does no more. Of an activation that is due, one that is RUNNING goes on as OVERRUN and counts with 0x4001, and one that
is DONE commits the outputs that its partition owns and waits again. Staging that is late at 29 µs is marked in CYC_STATUS and in
the ring, with 0x4040. Completes: stagingInstant, stagingLate. -/
def Obligations.StagingInstants : Prop :=
  (∀ (ns t : Nat) (s : State), s.on F.CYC_STATUS_RUNNING = true → s.count * 31250 + 27000 ≤ max s.now t →
    s.twin.stagedAt ≠ some s.count → s.decides = false →
    Steps (exec (.stagingInstant ns t) s) fun u => (∀ c ∈ s.image.islands.corePairs, (u.core c).ipend.getLsbD 1 = true) ∧
      u = { s with cores := u.cores, now := max s.now t, twin := { s.twin with stagedAt := some s.count } }) ∧
  (∀ (ns t : Nat) (s : State), s.on F.CYC_STATUS_RUNNING = true → s.count * 31250 + 27000 ≤ max s.now t →
    s.twin.stagedAt ≠ some s.count → s.decides = true → exec (.stagingInstant ns t) s =
      .next ((((s.at t).tw fun u => { u with stagedAt := some s.count }).stageOwn ns).ipendAll 1)) ∧
  (∀ (r : PartRec) (s : State), r.part < 256 → s.pst r.part = 2 → (s.part r.part).due ≤ s.count + 1 →
    (s.part r.part).slowRun = false → s.Room (s.prec r.part).core → (s.stagePart r).pst r.part = 4 ∧
      (s.stagePart r).get (F.CYC_PCOUNT_OVERRUNS r.part) = min (s.get (F.CYC_PCOUNT_OVERRUNS r.part) + 1) (2 ^ 16 - 1) ∧
      (s.stagePart r).get F.CYC_STATUS_OVERRUN = 1 ∧ (s.stagePart r).commit.overruns = s.commit.overruns ++ [r.part] ∧
      Raises s (s.stagePart r) 0x4001 (s.prec r.part).core (le 1 r.part ++ le 4 (s.part r.part).runs)) ∧
  (∀ (ring : Fin 16) (segs : List Nat) (t : Nat) (s : State), s.on F.CYC_STATUS_RUNNING = true →
    s.count * 31250 + 29000 ≤ max s.now t → s.Room islMgmt →
    Steps (exec (.stagingLate ring segs t) s) fun u => u.get F.CYC_STATUS_LATE_STAGE = 1 ∧ Raises s u 0x4040 islMgmt [] ∧
      (∀ g ∈ segs, g ∈ (u.ring ring.val).unstaged) ∧ SameRegs s u [R.CYC_STATUS] ∧
      u = { s with regs := u.regs, recd := u.recd, rings := u.rings, now := max s.now t }) ∧
  (∀ (r : PartRec) (q : Nat) (s : State), r.part < 256 → s.prec r.part = r → s.pst r.part = 3 →
    (s.part r.part).due = s.count + 1 → (s.part r.part).idxCount = 0 → r.outputs = [q] → (s.pinfo q).owner = .part r.part →
    s.force? q = none → s.poisoned r.outArea 4 = false → (s.stagePart r).pst r.part = 1 ∧
      (s.stagePart r).commit.commits = s.commit.commits ++ [r.part] ∧ tget none (s.stagePart r).sig.writes q =
        some { v := storeAs (s.pinfo q).typ (BitVec.ofNat 32 (s.memN r.outArea 4)), q := qByte qValid }) ∧
  (∀ (ns t : Nat) (s : State), (s.on F.CYC_STATUS_RUNNING = false ∨ max s.now t < s.count * 31250 + 27000 ∨
    s.twin.stagedAt = some s.count) → exec (.stagingInstant ns t) s = .next (s.at t))

/-- The standby at a staging instant (05 R232 to R234): it acts on the commit record for this instant, once, and discards any
other; without one at 29 µs it counts a lag cycle and decides alone; what a lag cycle left open is closed by the state that the
active transfers; an activation that the record ends rolls back, and one that it lists as overrun is OVERRUN, or LATE where it was
complete. Completes: commitRecordRx, commitRecordMissing, lagStateTransfer. -/
def Obligations.StandbyFollows : Prop :=
  (∀ (r : CommitRecord) (held : List Nat) (ns t : Nat) (s : State), s.on F.CYC_STATUS_RUNNING = true → s.decides = false →
    r.image = s.count + 1 → s.twin.commitRec ≠ some s.count →
    exec (.commitRecordRx r held ns t) s = .next (((s.at t).followRecord r held ns).ipendAll 3)) ∧
  (∀ (r : CommitRecord) (held : List Nat) (ns t : Nat) (s : State), r.image ≠ s.count + 1 →
    exec (.commitRecordRx r held ns t) s = .next (s.at t)) ∧
  (∀ (ns t : Nat) (s : State), s.on F.CYC_STATUS_RUNNING = true → s.decides = false → s.twin.commitRec ≠ some s.count →
    s.count * 31250 + 29000 ≤ max s.now t → exec (.commitRecordMissing ns t) s =
      .next ((((s.at t).tw fun u => { u with commitRec := some s.count }).lagCycle).stageOwn ns)) ∧
  (∀ s : State, s.tstate ≠ 3 → s.Room islTwin → s.lagCycle.get F.CYC_LAG_LAG_CYCLES = min (s.get F.CYC_LAG_LAG_CYCLES + 1)
      (2 ^ F.CYC_LAG_LAG_CYCLES.len - 1) ∧ s.lagCycle.get F.CYC_STATUS_LAG = 1 ∧ Raises s s.lagCycle 0x4030 islTwin []) ∧
  (∀ (p : StatePatch) (s : State), s.isActive = false → s.twin.lagParts = [] → s.twin.lagSlots = [] →
    exec (.lagStateTransfer p) s = .next s) ∧
  (∀ (p : StatePatch) (s : State), s.isActive = false → s.twin.lagParts ≠ [] → Steps (exec (.lagStateTransfer p) s) fun u =>
    ∃ v : State, u = v.signatures ∧ v.twin.lagParts = [] ∧ v.twin.lagSlots = []) ∧
  (∀ (p n : Nat) (s : State), p < 256 → 2 ≤ s.pst p → s.pst p ≤ 5 → (s.part p).release = n →
    (s.followEnd (p, n)).pst p = 6 ∧ (s.followEnd (p, n)).commit.ended = s.commit.ended ++ [(p, n)]) ∧
  (∀ (p : Nat) (s : State), p < 256 → (s.part p).due ≤ s.count + 1 → (s.part p).slowRun = false →
    (s.pst p = 2 → (s.followOverrun p).pst p = 4) ∧ (s.pst p = 3 → (s.followOverrun p).pst p = 5)) ∧
  (∀ (p : StatePatch) (s : State), s.isActive = true → Steps (exec (.lagStateTransfer p) s) fun u => u =
    { s with out := s.out ++ [.lagTransfer (s.patchOf (p.parts.map fun e => e.1) (p.slots.map fun e => e.1))] })

/-! ## Chapters 06 and 07: the loop engine and its trace -/

/-- Samples (06 R266, R275; 07 R331 to R335): a sample that completes keeps its outcome for the staging instant; one with
poisoned data is held, counted and reported with 0x5014; at the deadline, 27 µs after t0, a due sample without a result is held and its pair
counts a miss with 0x5011; before it, and with none late, only time goes on; the start of phase P marks the cycle and nothing else. Completes:
sampleComplete, sampleDeadline, samplePhasePStart. -/
def Obligations.LoopSamples : Prop :=
  (∀ (slot : Fin 16384) (fetch : Option Nat) (t : Nat) (s : State), (s.slot slot.val).busy = true →
    (s.slot slot.val).holding = false → (s.slot slot.val).result = none → s.get (F.LPE_HEALTH_STATE (slot.val / 1024)) ≠ 2 →
    (s.at t).samplePoisoned slot.val = false → Steps (exec (.sampleComplete slot none fetch t) s) fun u =>
      (u.slot slot.val).result = some ((s.at t).outcome slot.val (fetch.or ((s.at t).camFetch slot.val))) ∧
      (u.slot slot.val).cmpWord =
        (s.at t).cmpOf slot.val ((s.at t).outcome slot.val (fetch.or ((s.at t).camFetch slot.val)))) ∧
  (∀ (slot : Fin 16384) (fetch : Option Nat) (t : Nat) (s : State), (s.slot slot.val).busy = true →
    (s.slot slot.val).holding = false → (s.slot slot.val).result = none → s.get (F.LPE_HEALTH_STATE (slot.val / 1024)) ≠ 2 →
    s.Room (slotIsland slot.val) → Steps (exec (.sampleComplete slot (some .poison) fetch t) s) fun u =>
      (u.slot slot.val).holding = true ∧ (u.slot slot.val).result = none ∧
      u.get (F.SLOT_HELD_LATE slot.val) = min (s.get (F.SLOT_HELD_LATE slot.val) + 1) (2 ^ (F.SLOT_HELD_LATE slot.val).len - 1) ∧
      Raises s u 0x5014 (slotIsland slot.val) (le 2 slot.val) ∧ u.mem = s.mem ∧ SameRegs s u [R.SLOT_HELD slot.val]) ∧
  (∀ (slot : Fin 16384) (cause : Option HoldCause) (fetch : Option Nat) (t : Nat) (s : State), (s.slot slot.val).busy = false →
    exec (.sampleComplete slot cause fetch t) s = .next (s.at t)) ∧
  (∀ (t : Nat) (s : State), s.lateSlots = [] → exec (.sampleDeadline t) s = .next (s.at t)) ∧
  (∀ (t : Nat) (s : State), max s.now t < boundaryNs s.count + 27000 → exec (.sampleDeadline t) s = .next (s.at t)) ∧
  (∀ (i t : Nat) (s : State), boundaryNs s.count + 27000 ≤ max s.now t → s.lateSlots = [i] → i < 16384 → s.get (F.LPE_HEALTH_STATE (i / 1024)) = 0 →
    tget [] s.loops.misses (i / 1024) = [] → tget none s.loops.lateEvt (i / 1024) ≠ some s.count →
    s.Room (islCluster (2 * (i / 1024))) → Steps (exec (.sampleDeadline t) s) fun u => (u.slot i).holding = true ∧
      u.get (F.SLOT_HELD_LATE i) = min (s.get (F.SLOT_HELD_LATE i) + 1) (2 ^ (F.SLOT_HELD_LATE i).len - 1) ∧
      u.get (F.LPE_HEALTH_MISSES (i / 1024)) = 1 ∧
      Raises s u 0x5011 (islCluster (2 * (i / 1024))) (le 1 (i / 1024) ++ le 4 1)) ∧
  (∀ s : State, Steps (exec .samplePhasePStart s) fun u => u = { s with loops := { s.loops with phaseP := some s.count } })

/-- Flag clears (06 R267, R279): a write of ones to clearable flags waits, in the active and in the standby it is handed to, for
the first boundary four C0 cycles on, and on a module that is not active has no effect; a clear of FAULT that takes effect takes
FAULT and its kind out of SLOT_STATUS and restarts the law with 0x5006. Completes: slotFlagClear, flagClearRx. -/
def Obligations.FlagClears : Prop :=
  (∀ (slot : Fin 16384) (v : Word) (t : Nat) (s : State), s.isActive = true → Nat.land v.toNat clearMask ≠ 0 →
    (s.image.loops.any fun r => decide (r.slot = slot.val)) = true →
    Steps (exec (.slotFlagClear slot v t) s) fun u =>
      (u.slot slot.val).clr = (s.slot slot.val).clr ++
        [{ mask := Nat.land v.toNat clearMask, at_ := boundaryAfter (max s.now t) 4 }] ∧
      u.get (F.SLOT_STATUS_CLR_PENDING slot.val) = 1 ∧
      u.out = s.out ++ [.flagClear slot.val (Nat.land v.toNat clearMask) (boundaryAfter (max s.now t) 4)] ∧
      SameRegs s u [R.SLOT_STATUS slot.val]) ∧
  (∀ (slot : Fin 16384) (v : Word) (t : Nat) (s : State), s.isActive = false →
    exec (.slotFlagClear slot v t) s = .next (s.at t)) ∧
  (∀ (slot : Fin 16384) (m : Fin 4096) (n : Nat) (s : State), s.isStandby = true →
    Steps (exec (.flagClearRx slot m n) s) fun u =>
      (u.slot slot.val).clr = (s.slot slot.val).clr ++ [{ mask := Nat.land m.val clearMask, at_ := n }] ∧
      u.get (F.SLOT_STATUS_CLR_PENDING slot.val) = 1 ∧ u.out = s.out ∧ SameRegs s u [R.SLOT_STATUS slot.val]) ∧
  (∀ (slot : Nat) (s : State), s.on (F.SLOT_STATUS_FAULT slot) = true → s.Room (slotIsland slot) →
    (s.clearFlags slot 1).get (F.SLOT_STATUS_FAULT slot) = 0 ∧ (s.clearFlags slot 1).get (F.SLOT_STATUS_FAULT_KIND slot) = 0 ∧
      ((s.clearFlags slot 1).slot slot).restart = true ∧ Raises s (s.clearFlags slot 1) 0x5006 (slotIsland slot) [])

/-- The trace of a cluster (07 R346, R347, R349, R350): ARM takes an IDLE trace with an acceptable configuration to ARMED, or
READY where PRE is 0, and leaves any other; a trigger takes READY to POST with its count and 0x5020, and counts MISSED in ARMED and
OFFLOAD; ABORT discards the records; filled records take ARMED to READY and POST to OFFLOAD; an offload without a loss writes
inside its capture buffer, counts the capture, raises 0x5021 and ends IDLE in single mode. Completes: traceArm, traceSwTrig,
traceAbort, tracePreFilled, tracePostFilled, traceOffloadComplete. -/
def Obligations.Traces : Prop :=
  (∀ (c : Fin 32) (s : State), s.trc c.val = 0 → s.image.captures c.val = false →
    ((List.range 8).any fun n => s.chanBad c.val n) = false → s.trcPre c.val + s.trcPost c.val ≤ 4096 → s.trcPost c.val ≠ 0 →
    Steps (exec (.traceArm c) s) fun u => u.trc c.val = (if s.trcPre c.val = 0 then 2 else 1) ∧ u.trace c.val = {} ∧
      (u.rd R.TRC_STATUS).getLsbD c.val = true ∧ SameRegs s u [R.TRC_CTL c.val, R.TRC_STATUS]) ∧
  (∀ (c : Fin 32) (s : State), s.trc c.val ≠ 0 → exec (.traceArm c) s = .next s) ∧
  (∀ (c : Fin 32) (s : State), s.trc c.val = 2 → s.Room (islCluster c.val) → Steps (exec (.traceSwTrig c) s) fun u =>
    u.trc c.val = 3 ∧ u.rdN (R.TRC_TIME c.val) = s.count % 2 ^ 32 ∧
    Raises s u 0x5020 (islCluster c.val) (le 1 c.val ++ le 4 (s.count % 2 ^ 32)) ∧
    SameRegs s u [R.TRC_CTL c.val, R.TRC_STATUS, R.TRC_TIME c.val]) ∧
  (∀ (c : Fin 32) (s : State), (s.trc c.val = 1 ∨ s.trc c.val = 4) → Steps (exec (.traceSwTrig c) s) fun u =>
    u.get (F.TRC_CTL_MISSED c.val) = min (s.get (F.TRC_CTL_MISSED c.val) + 1) (2 ^ 16 - 1) ∧ OnlyRegs s u [R.TRC_CTL c.val]) ∧
  (∀ (c : Fin 32) (s : State), 1 ≤ s.trc c.val → s.trc c.val ≤ 3 → Steps (exec (.traceAbort c) s) fun u => u.trc c.val = 0 ∧
    u.trace c.val = {} ∧ (u.rd R.TRC_STATUS).getLsbD c.val = false ∧ SameRegs s u [R.TRC_CTL c.val, R.TRC_STATUS]) ∧
  (∀ (c : Fin 32) (s : State), s.trc c.val = 1 →
    ((s.trcChans c.val).all fun n => decide (s.trcPre c.val ≤ nth (s.trace c.val).since n)) = true →
    Steps (exec (.tracePreFilled c) s) fun u => u.trc c.val = 2 ∧ OnlyRegs s u [R.TRC_CTL c.val, R.TRC_STATUS]) ∧
  (∀ (c : Fin 32) (s : State), s.trc c.val = 3 →
    ((s.trcChans c.val).all fun n => decide (s.trcPost c.val ≤ nth (s.trace c.val).post n)) = true →
    Steps (exec (.tracePostFilled c) s) fun u => u.trc c.val = 4 ∧ OnlyRegs s u [R.TRC_CTL c.val, R.TRC_STATUS]) ∧
  (∀ (c : Fin 32) (s : State), s.trc c.val = 4 → s.on (F.TRC_CTL_MODE c.val) = false → (s.trace c.val).lost = 0 →
    s.rdN R.FAB_HBM_STRESS = 0 → s.trcPre c.val + s.trcPost c.val ≤ 4096 → s.Room (islCluster c.val) →
    Steps (exec (.traceOffloadComplete c) s) fun u => u.trc c.val = 0 ∧
      u.get (F.TRC_DONE_CAPTURES c.val) = (s.get (F.TRC_DONE_CAPTURES c.val) + 1) % 2 ^ 16 ∧
      u.get (F.TRC_DONE_LOSSY c.val) = 0 ∧
      Raises s u 0x5021 (islCluster c.val) (le 1 c.val ++ le 4 (s.get (F.TRC_DONE_CAPTURES c.val))) ∧
      ∀ a, (a < captureBase c.val (s.get (F.TRC_DONE_CAPTURES c.val)) ∨
        captureBase c.val (s.get (F.TRC_DONE_CAPTURES c.val)) + 262144 ≤ a) → u.memB a = s.memB a)

/-! ## Chapter 08: the station rings -/

/-- Reception (08 R381 to R383, R385): a frame whose FCS is wrong brings nothing but an error count of the port, and a frame that is
not of the ring nothing; a good frame of a burst shows its epoch and is taken; a segment copy is valid only with the expected
header, its CRC-16 and DATA_VALID, and only then has a payload; a frame after RX_DL counts LATE with 0x6011 and its segments are
not taken; at RX_DL, once in a cycle, a cycle without a frame counts LOST with 0x6010, and every input and stream segment that has
not arrived is known to be missing. Completes: ringFrameRx, rxDeadline. -/
def Obligations.RingReception : Prop :=
  (∀ (ring : Fin 16) (b : List Byte) (t : Nat) (rr : RingRec) (s : State), s.img ≠ none → s.image.ring? ring.val = some rr →
    fcsOk b = false → Steps (exec (.ringFrameRx ring b t) s) fun u =>
      u = (s.at t).ri ring.val fun k => { k with portFcs := k.portFcs + 1 }) ∧
  (∀ (ring : Fin 16) (b : List Byte) (t : Nat) (rr : RingRec) (s : State), s.img ≠ none → s.image.ring? ring.val = some rr →
    fcsOk b = true → rr.takes b = true → (field (frameBody b) 1 1 = 1 ∨ field (frameBody b) 1 1 = 2) →
    exec (.ringFrameRx ring b t) s = .next ((((s.at t).ringEpoch ring.val (field (frameBody b) 4 4)
      (bitOf (field (frameBody b) 3 1) 1) (bitOf (field (frameBody b) 3 1) 1 && !(bitOf (field (frameBody b) 3 1) 3 &&
        decide (bitOf (field (frameBody b) 3 1) 0 = s.twinB)))).burstFrame rr (frameBody b) t).ringShow ring.val)) ∧
  (∀ (rr : RingRec) (n : Nat) (b : List Byte) (g : SegRec), (copyOf rr n b g).valid = true →
    field b (24 + rr.place n g) 1 = g.station ∧ field b (25 + rr.place n g) 1 = g.kind ∧
    field b (26 + rr.place n g) 2 = g.len ∧ field b (29 + rr.place n g) 1 = g.segId ∧
    field b (32 + rr.place n g + g.len) 2 = crc16 ((b.drop (24 + rr.place n g)).take (8 + g.len)) ∧
    bitOf (field b (28 + rr.place n g) 1) 0 = true ∧ (copyOf rr n b g).payload.length = g.len) ∧
  (∀ (rr : RingRec) (b : List Byte) (t : Nat) (s : State), rr.ring < 16 → field b 8 8 = s.count →
    (s.ring rr.ring).miscabled = false → s.rxDl rr.ring < t - boundaryNs s.count → bitOf (field b 3 1) 3 = false →
    s.Room (islRing rr.ring) →
    (s.burstFrame rr b t).get (F.RNG_RX_LATE rr.ring) = min (s.get (F.RNG_RX_LATE rr.ring) + 1) (2 ^ (F.RNG_RX_LATE rr.ring).len - 1) ∧
    ((s.burstFrame rr b t).ring rr.ring).segs = (s.ring rr.ring).segs ∧
    Raises s (s.burstFrame rr b t) 0x6011 (islRing rr.ring) (le 1 rr.ring ++ le 4 (t - boundaryNs s.count)) ∧
    SameRegs s (s.burstFrame rr b t) [R.RNG_ARRIVAL rr.ring, R.RNG_RX rr.ring]) ∧
  (∀ (rr : RingRec) (b : List Byte) (t : Nat) (s : State), field b 8 8 = s.count →
    (s.ring rr.ring).miscabled = false → t - boundaryNs s.count ≤ s.rxDl rr.ring → field b 1 1 = 1 →
    bitOf (field b 3 1) 3 = false → s.burstFrame rr b t =
      ((s.ringArrival rr.ring (t - boundaryNs s.count)).ri rr.ring fun k => { k with gotFrame := true }).takeFrame rr s.count b) ∧
  (∀ (ring : Fin 16) (t : Nat) (rr : RingRec) (s : State), s.image.ring? ring.val = some rr →
    (s.ring ring.val).deadline = false → boundaryNs s.count + s.rxDl ring.val ≤ max s.now t →
    (s.ring ring.val).miscabled = false → (s.ring ring.val).gotFrame = false → s.Room (islRing ring.val) →
    (rr.due s.count).filter (fun e => decide (e.2.kind ≠ 1)) = [] → Steps (exec (.rxDeadline ring t) s) fun u =>
      u.get (F.RNG_RX_LOST ring.val) = min (s.get (F.RNG_RX_LOST ring.val) + 1) (2 ^ (F.RNG_RX_LOST ring.val).len - 1) ∧
      Raises s u 0x6010 (islRing ring.val) (le 1 ring.val ++ le 8 s.count) ∧ u.mem = s.mem ∧
      SameRegs s u [R.RNG_RX ring.val]) ∧
  (∀ (ring : Fin 16) (t : Nat) (rr : RingRec) (s : State), s.image.ring? ring.val = some rr →
    (s.ring ring.val).deadline = false → boundaryNs s.count + s.rxDl ring.val ≤ max s.now t →
    (s.ring ring.val).miscabled = false → (s.ring ring.val).gotFrame = true → Steps (exec (.rxDeadline ring t) s) fun u =>
      (∀ e ∈ rr.due s.count, e.2.kind ≠ 1 → (u.segState ring.val e.1).own.isSome = true) ∧
      u.get (F.RNG_RX_LOST ring.val) = s.get (F.RNG_RX_LOST ring.val) ∧ u.sig = s.sig ∧ u.mem = s.mem) ∧
  (∀ (ring : Fin 16) (b : List Byte) (t : Nat) (rr : RingRec) (s : State), s.image.ring? ring.val = some rr →
    fcsOk b = true → rr.takes b = false → exec (.ringFrameRx ring b t) s = .next (s.at t)) ∧
  (∀ (ring : Fin 16) (t : Nat) (s : State), ((s.ring ring.val).deadline = true ∨
    max s.now t < boundaryNs s.count + s.rxDl ring.val) → exec (.rxDeadline ring t) s = .next (s.at t))

/-- Agreement (08 R385 to R389): both modules take the one copy that is valid, either of two equal ones, and of two that differ
the copy of the eastbound burst, marked as differing; the partner's digests and copies of local points are kept, those of another
cycle are discarded, and by the active those after 22 µs; a full copy counts in FETCHED; at 22 µs the active resolves every open
segment, and the standby takes what the close record lists as the active resolved it, a record for an image that has closed being
discarded, or, without a close record by 24 µs, counts a lag cycle with 0x6022. Completes: digestRx,
segmentCopyRx, agreementDeadline, closeRecordRx, closeRecordMissing. -/
def Obligations.SegmentAgreement : Prop :=
  (∀ (a b : SegCopy) (full active : Bool), a.valid = true → b.valid = true → a.digest = b.digest →
    agreeSeg a b full active = some { payload := some a.payload, source := 1 }) ∧
  (∀ (a b : SegCopy) (full active : Bool), a.valid = true → b.valid = true → a.digest ≠ b.digest → eastOf a b active = true →
    agreeSeg a b full active = some { payload := some a.payload, source := 1, diff := true }) ∧
  (∀ (a b : SegCopy) (active : Bool), a.valid = true → b.valid = true → a.digest ≠ b.digest → eastOf a b active = false →
    agreeSeg a b true active = some { payload := some b.payload, source := 1, diff := true }) ∧
  (∀ (a b : SegCopy) (full active : Bool), a.valid = false → b.valid = false → agreeSeg a b full active = some {}) ∧
  (∀ (n : Nat) (ds : List DigestMsg) (ls : List LocalCopy) (t : Nat) (s : State), n ≠ s.count →
    exec (.digestRx n ds ls t) s = .next (s.at t)) ∧
  (∀ (d : DigestMsg) (ls : List LocalCopy) (a : SegCopy) (t : Nat) (s : State), s.agrees = true →
    max s.now t ≤ boundaryNs s.count + 22000 → s.segState d.ring d.seg = { own := some a } → a.valid = true → d.valid = true →
    a.digest = d.crc → Steps (exec (.digestRx s.count [d] ls t) s) fun u =>
      (u.segState d.ring d.seg).res = some { payload := some a.payload, source := 1 } ∧ u.regs = s.regs ∧
      u.recd = s.recd ∧ u.out = s.out ∧ u.loc.partnerN = s.count) ∧
  (∀ (ds : List DigestMsg) (ls : List LocalCopy) (t : Nat) (s : State), max s.now t ≤ boundaryNs s.count + 22000 →
    Steps (exec (.digestRx s.count ds ls t) s) fun u => (∀ d ∈ ds, (u.segState d.ring d.seg).partner.isSome = true) ∧
      u.loc.partner = (if s.loc.partnerN = s.count then s.loc.partner else []) ++ ls ∧ u.loc.partnerN = s.count ∧
      u.sig = s.sig ∧ u.mem = s.mem) ∧
  (∀ (ring : Fin 16) (seg n : Nat) (pl : List Byte) (t : Nat) (s : State), n ≠ s.count ∨
    (s.isActive = true ∧ boundaryNs s.count + 22000 < max s.now t) ∨ (s.segState ring.val seg).partner = none →
    exec (.segmentCopyRx ring seg n pl t) s = .next (s.at t)) ∧
  (∀ (ring : Fin 16) (seg n : Nat) (pl : List Byte) (b : SegCopy) (t : Nat) (s : State), n = s.count →
    (s.isActive = true → max s.now t ≤ boundaryNs s.count + 22000) → (s.segState ring.val seg).partner = some b →
    Steps (exec (.segmentCopyRx ring seg n pl t) s) fun u =>
      (u.segState ring.val seg).partner = some { b with payload := pl } ∧ (u.segState ring.val seg).full = true ∧
      u.get (F.RNG_AGREE_FETCHED ring.val) =
        min (s.get (F.RNG_AGREE_FETCHED ring.val) + 1) (2 ^ (F.RNG_AGREE_FETCHED ring.val).len - 1) ∧
      SameRegs s u [R.RNG_AGREE ring.val]) ∧
  (∀ (t : Nat) (s : State), s.isActive = true → boundaryNs s.count + 22000 ≤ max s.now t →
    Steps (exec (.agreementDeadline t) s) fun u =>
    (∀ rr ∈ s.image.rings, ∀ e ∈ rr.due s.count, e.2.kind ≠ 1 → (u.segState rr.ring e.1).res.isSome = true) ∧
    u = { s with now := max s.now t, rings := u.rings } ∧
    ∀ r i, (s.segState r i).res.isSome = true → u.segState r i = s.segState r i) ∧
  (∀ (gs : List (Fin 16 × Nat × Resolution)) (bs : List (Fin 256 × Nat × SubResolution)) (ls : List (Nat × Word × Byte)) (s : State),
    s.isActive = false → s.rd64 R.SIG_CLOSED ≠ s.count → s.twin.closeRec ≠ some s.count →
    Steps (exec (.closeRecordRx s.count gs bs ls) s) fun u =>
      (∀ g ∈ gs, ∃ x : Resolution, (g.1, g.2.1, x) ∈ gs ∧ (u.segState g.1.val g.2.1).res = some { x with listed := true }) ∧
      u.loc.adopted = ls ∧ u.lines.ruled = bs.map (fun e => (e.1.val, e.2)) ∧ u.twin.closeRec = some s.count ∧
      u.regs = s.regs ∧ u.recd = s.recd) ∧
  (∀ (n : Nat) (gs : List (Fin 16 × Nat × Resolution)) (bs : List (Fin 256 × Nat × SubResolution)) (ls : List (Nat × Word × Byte))
    (s : State), n ≠ s.count ∨ s.rd64 R.SIG_CLOSED = n ∨ s.twin.closeRec = some n ∨ s.isActive = true →
    exec (.closeRecordRx n gs bs ls) s = .next s) ∧
  (∀ (t : Nat) (s : State), s.isStandby = true → s.twin.closeRec ≠ some s.count → s.rd64 R.SIG_CLOSED ≠ s.count →
    boundaryNs s.count + 24000 ≤ max s.now t → s.on F.TWN_STATUS_SUSPECT = false → exec (.closeRecordMissing t) s =
      .next (((((s.at t).raise 0x6022 islTwin []).lagCycle).resolveOpen (fun g => heldSeg g false)).tw fun u =>
        { u with closeRec := some s.count })) ∧
  (∀ (ds : List DigestMsg) (ls : List LocalCopy) (t : Nat) (s : State), s.isActive = true →
    boundaryNs s.count + 22000 < max s.now t → exec (.digestRx s.count ds ls t) s = .next (s.at t)) ∧
  (∀ (t : Nat) (s : State), (s.isActive = false ∨ max s.now t < boundaryNs s.count + 22000) →
    exec (.agreementDeadline t) s = .next (s.at t))

/-- Acyclic data, release, stream capture and ring ports (08 R380, R390, R397, R401, R413): a reply of a station waits for the image
two boundaries on, with its values for points of that station, and goes to the partner with that count; a release request goes
out from the active where the acyclic window has room for it, else waits for the next window; stream capture runs only on a trace
memory that TRACE gives it, else CFG_ERR; a ring port that changes is reported with 0x6002 or 0x6003 and told to the partner. That
a reply's values come beside the frame is the model's choice (assumption 98). Completes: acyclicReplyRx, acyclicReplyFromPartner,
rngRelease, rngScapRun, ringPortLinkChange, partnerRingPortDown. -/
def Obligations.RingCommands : Prop :=
  (∀ (ring : Fin 16) (b : List Byte) (pts own : List (Fin 256 × Nat × Word)) (t : Nat) (rr : RingRec) (s : State),
    s.image.ring? ring.val = some rr → rr.filled 4 5 b ≠ [] → own = pts.filter (fun p =>
      ((rr.filled 4 5 b).map (fun g => g.1)).contains p.1.val &&
        decide ((s.pinfo p.2.1).owner = .station ring.val p.1.val)) →
    Steps (exec (.acyclicReplyRx ring b pts t) s) fun u => (u.ring ring.val).acyclic =
      (s.ring ring.val).acyclic ++ [(boundaryAfter (max s.now t) 2, own.map (fun p => p.2))] ∧
    u.out = s.out ++ [.acyclicReply ring.val (boundaryAfter (max s.now t) 2) (own.map (fun p => p.2))] ∧
    u = { s with now := max s.now t, rings := u.rings, out := u.out }) ∧
  (∀ (ring : Fin 16) (n : Nat) (pts : List (Nat × Word)) (s : State),
    Steps (exec (.acyclicReplyFromPartner ring n pts) s) fun u =>
      (u.ring ring.val).acyclic = (s.ring ring.val).acyclic ++ [(n, pts)] ∧ u = { s with rings := u.rings }) ∧
  (∀ (ring : Fin 16) (st : Fin 256) (rr : RingRec) (s : State), s.isActive = true → s.image.ring? ring.val = some rr →
    s.acycFits rr = true → Steps (exec (.rngRelease ring st) s) fun u => u.get (F.RNG_CTL_STATION ring.val) = st.val ∧
      (∃ b, u.out = s.out ++ [.acycFrame ring.val (.release st.val) b]) ∧ SameRegs s u [R.RNG_CTL ring.val] ∧
      u = { s with regs := u.regs, out := u.out, rings := u.rings }) ∧
  (∀ (ring : Fin 16) (st : Fin 256) (s : State), s.isActive = false → exec (.rngRelease ring st) s = .next s) ∧
  (∀ (ring : Fin 16) (ch : Fin 256) (c : Fin 32) (s : State), s.image.captures c.val = false →
    Steps (exec (.rngScapRun ring ch c true) s) fun u => u.get (F.RNG_SCAP_CTL_CFG_ERR ring.val) = 1 ∧
      u.get (F.RNG_SCAP_CTL_RUN ring.val) = s.get (F.RNG_SCAP_CTL_RUN ring.val) ∧ OnlyRegs s u [R.RNG_SCAP_CTL ring.val]) ∧
  (∀ (ring : Fin 16) (ch : Fin 256) (c : Fin 32) (run : Bool) (s : State), (run = true → s.image.captures c.val = true) →
    Steps (exec (.rngScapRun ring ch c run) s) fun u => u.get (F.RNG_SCAP_CTL_CHAN ring.val) = ch.val ∧
      u.get (F.RNG_SCAP_CTL_CLUSTER ring.val) = c.val ∧ u.on (F.RNG_SCAP_CTL_RUN ring.val) = run ∧ u.mem = s.mem ∧
      SameRegs s u [R.RNG_SCAP_CTL ring.val]) ∧
  (∀ (ring : Fin 16) (up : Bool) (t : Nat) (s : State), (s.ring ring.val).ownUp ≠ up →
    (up = true → s.cageOn ring.val = true) → (s.ring ring.val).census ≠ .count → (s.ring ring.val).census ≠ .read →
    s.Room (islRing ring.val) → Steps (exec (.ringPortLinkChange ring up t) s) fun u => (u.ring ring.val).ownUp = up ∧
      u.out = s.out ++ [.ringPort ring.val up] ∧ (∃ r l, u.recd.queue = s.recd.queue ++ r :: l ∧
        r.code = (if up then 0x6003 else 0x6002) ∧ r.island = islRing ring.val) ∧ u.mem = s.mem) ∧
  (∀ (ring : Fin 16) (up : Bool) (t : Nat) (s : State), (s.ring ring.val).ownUp = up →
    exec (.ringPortLinkChange ring up t) s = .next (s.at t)) ∧
  (∀ (ring : Fin 16) (up : Bool) (s : State), (s.ring ring.val).census ≠ .count → (s.ring ring.val).census ≠ .read →
    Steps (exec (.partnerRingPortDown ring up) s) fun u => (u.ring ring.val).partnerUp = up ∧ u.out = s.out ∧
      u.mem = s.mem ∧ u.sig = s.sig) ∧
  (∀ (ring : Fin 16) (st : Fin 256) (rr : RingRec) (s : State), s.isActive = true → s.image.ring? ring.val = some rr →
    s.acycFits rr = false → Steps (exec (.rngRelease ring st) s) fun u => u.get (F.RNG_CTL_STATION ring.val) = st.val ∧
      (u.ring ring.val).acycWait = (s.ring ring.val).acycWait ++ [.release st.val] ∧ u.out = s.out ∧
      SameRegs s u [R.RNG_CTL ring.val])

/-- The station census (08 R392, R397, R402, R403, R407, R834): the active begins it in an acyclic window, first after image commit,
then every 100 ms or on CENSUS_NOW, with a START frame; once every entry is read a COMMIT frame names a boundary at least eight C0
cycles on and the partner takes the results; one that starts over is counted in ABANDONED with 0x6041, and the fourth in a row
ends it; the standby launches a copy where it is asked and the window still has room, and takes the active's results; requests set CENSUS_NOW and read the
records. That an entry's contents come beside the frame is the model's choice (assumption 98). Completes: censusStart,
censusFrameBack, censusFrameTimeout, censusLaunchRequest, censusResultsFromActive, rngCensusNow, censusNow, censusRead. -/
def Obligations.StationCensus : Prop :=
  (∀ (ring : Fin 16) (t : Nat) (rr : RingRec) (s : State), s.isActive = true → s.img ≠ none →
    s.image.ring? ring.val = some rr → (s.ring ring.val).ownUp = true → (s.ring ring.val).census = .idle →
    (s.ring ring.val).again = false → ((s.ring ring.val).everStarted = false ∨ (s.ring ring.val).censusNow = true ∨
      (s.ring ring.val).sinceStart + 100000000 ≤ max s.now t) → (s.at t).acycFits rr = true →
    s.get (F.RNG_STATUS_STATE ring.val) ≠ 5 →
    Steps (exec (.censusStart ring t) s) fun u => (u.ring ring.val).census = .count ∧
      (u.ring ring.val).everStarted = true ∧ (u.ring ring.val).censusNow = false ∧
      (u.ring ring.val).sinceStart = max s.now t ∧ u.get (F.RNG_STATUS_CENSUS_BUSY ring.val) = 1 ∧
      (∃ b, u.out = s.out ++ [.acycFrame ring.val (.census { kind := 1 }) b]) ∧ SameRegs s u [R.RNG_STATUS ring.val]) ∧
  (∀ (ring : Fin 16) (t : Nat) (s : State), (s.isActive = false ∨ s.img = none ∨ (s.ring ring.val).ownUp = false) →
    exec (.censusStart ring t) s = .next (s.at t)) ∧
  (∀ (ring : Fin 16) (pe : Bool) (b : List Byte) (es : List CensusEntry) (direct : Bool) (fp : Fin 16) (ends : CensusEnds)
    (f t : Nat) (rr : RingRec) (s : State), s.image.ring? ring.val = some rr → fcsOk b = true → rr.takes b = true →
    (s.ring ring.val).census = .count → (s.ring ring.val).again = false →
    exec (.censusFrameBack ring 1 pe b es direct fp ends f false t) s =
      .next ((((s.at t).ri ring.val fun q => if s.twinB then { q with fcsTwinA := f } else { q with fcsTwinB := f }).ri rr.ring
        fun q => { q with sent := q.sent.tail }).startBack rr pe (es.map rr.placed) direct fp.val ends)) ∧
  (∀ (ring : Fin 16) (pe direct : Bool) (b : List Byte) (es : List CensusEntry) (fp : Fin 16) (ends : CensusEnds) (f t : Nat)
    (rr : RingRec) (s : State), s.image.ring? ring.val = some rr → fcsOk b = true → rr.takes b = true →
    (rr.filled 3 6 b).length = es.length → (s.ring ring.val).census = .read →
    (∀ e ∈ es, (rr.placed e).who ∈ (s.ring ring.val).startIds) →
    ((s.ring ring.val).entries.length + ((es.map rr.placed).filter fun e =>
      !(s.ring ring.val).entries.any fun x => x.pos = e.pos).length < (s.ring ring.val).startIds.length) →
    Steps (exec (.censusFrameBack ring 2 pe b es direct fp ends f false t) s) fun u =>
      (u.ring ring.val).entries = (s.ring ring.val).entries ++
        (es.map rr.placed).filter (fun e => !(s.ring ring.val).entries.any fun x => x.pos = e.pos) ∧
      (u.ring ring.val).census = .read ∧ u.regs = s.regs ∧ u.out = s.out) ∧
  (∀ (rr : RingRec) (s : State), rr.ring < 16 → s.get (F.RNG_STATUS_STATE rr.ring) ≠ 5 → s.acycFits rr = true →
    ((s.censusCommit rr).ring rr.ring).commitAt = boundaryAfter (s.now + 31250) 8 ∧
    ((s.censusCommit rr).ring rr.ring).census = .commit ∧
    ((s.censusCommit rr).ring rr.ring).nextSched = s.censusSched rr ∧
    (s.censusCommit rr).get (F.RNG_STATUS_CENSUS_BUSY rr.ring) = 0 ∧
    ∃ b, (s.censusCommit rr).out = s.out ++
      [.acycFrame rr.ring (.census
        { kind := 3, sched := s.censusSched rr, at_ := boundaryAfter (s.now + 31250) 8, endLoop := rr.closedPath (s.ring rr.ring) }) b,
       .censusResult rr.ring (s.ring rr.ring).entries (s.censusSched rr) (boundaryAfter (s.now + 31250) 8)
        (rr.closedPath (s.ring rr.ring)) (s.ring rr.ring).farPort (s.ring rr.ring).portFcs
        (if s.twinB then (s.ring rr.ring).fcsTwinA else (s.ring rr.ring).fcsTwinB)]) ∧
  (∀ (ring : Fin 16) (t n : Nat) (s : State), ((s.ring ring.val).census = .count ∨ (s.ring ring.val).census = .read) →
    n ∈ (s.ring ring.val).sent → boundaryNs n + 30750 ≤ max s.now t →
    s.Room (islRing ring.val) → Steps (exec (.censusFrameTimeout ring t) s) fun u =>
      u.get (F.RNG_CENSUS_ABANDONED ring.val) =
        min (s.get (F.RNG_CENSUS_ABANDONED ring.val) + 1) (2 ^ (F.RNG_CENSUS_ABANDONED ring.val).len - 1) ∧
      Raises s u 0x6041 (islRing ring.val) (le 4 ((s.ring ring.val).restarts + 1)) ∧
      ((s.ring ring.val).restarts < 3 → (u.ring ring.val).census = .count ∧ (u.ring ring.val).again = true) ∧
      (3 ≤ (s.ring ring.val).restarts → (u.ring ring.val).census = .idle ∧
        u.get (F.RNG_STATUS_CENSUS_BUSY ring.val) = 0) ∧
      SameRegs s u [R.RNG_CENSUS ring.val, R.RNG_STATUS ring.val]) ∧
  (∀ (ring : Fin 16) (o : CensusOrder) (rr : RingRec) (s : State), s.isActive = false → s.image.ring? ring.val = some rr →
    o.window = s.count → s.acycFits rr = true → Steps (exec (.censusLaunchRequest ring o) s) fun u =>
    u = { s with rings := u.rings, out := s.out ++ [.acycFrame rr.ring (.census o) (s.acycBytes rr (.census o))] }) ∧
  (∀ (ring : Fin 16) (o : CensusOrder) (rr : RingRec) (s : State), s.image.ring? ring.val = some rr →
    s.isActive = true ∨ s.count ≠ o.window ∨ s.acycFits rr = false → exec (.censusLaunchRequest ring o) s = .next s) ∧
  (∀ (ring : Fin 16) (es : List CensusEntry) (sch : Sched) (n : Nat) (e : Bool) (fp : Fin 16) (f g : Nat) (s : State),
    s.isActive = false → Steps (exec (.censusResultsFromActive ring es sch n e fp f g) s) fun u =>
      (u.ring ring.val).entries = es ∧ (u.ring ring.val).nextSched = sch ∧ (u.ring ring.val).commitAt = n ∧
      (u.ring ring.val).endLoop = e ∧ (u.ring ring.val).farPort = fp.val ∧ (u.ring ring.val).census = .commit ∧
      (u.ring ring.val).fcsTwinA = (if s.twinB then f else g) ∧ (u.ring ring.val).fcsTwinB = (if s.twinB then g else f) ∧
      u = { s with rings := u.rings }) ∧
  (∀ (ring : Fin 16) (s : State), s.isActive = true → Steps (exec (.rngCensusNow ring) s) fun u =>
    (u.ring ring.val).censusNow = true ∧ u = { s with rings := u.rings }) ∧
  (∀ (ses : Fin 16) (req : Nat) (ring : Fin 16) (s : State), s.Serves ses req true true →
    Steps (exec (.censusNow ses req ring) s) fun u => (u.ring ring.val).censusNow = true ∧
      u.out = s.out ++ response ses req 11 0 [] ∧ u.regs = s.regs) ∧
  (∀ (ses : Fin 16) (req : Nat) (ring : Fin 16) (s : State), s.Serves ses req false false →
    Steps (exec (.censusRead ses req ring) s) fun u => u.out = s.out ++ response ses req 11 0 (s.stnRecords ring.val) ∧
      u.regs = s.regs)

/-! ## Chapter 09: twin operation -/

/-- Heartbeats (09 R423, R424, R438 to R442, R448, R455): fox words go out at t0 and every 2 µs after it, badger frames when they are
due; a word or frame that arrives ends the silence of its path and shows the partner; an active that sees a higher epoch has to
release the role; a MATCHED standby keeps its epoch at the active's; a missed badger period is counted with 0x7061 and, with both
paths silent, the active is lost with 0x7040, as on a failing message; the standby that has had no fox word for 5 µs is in SUSPECT;
a lost life word restarts the module with cause 5. Completes: foxTick, badgerFrameTx, foxWordRx, badgerFrameRx, badgerMiss,
failingMessageRx, failingMessageSend, lifeWordLost, suspectEntry. -/
def Obligations.Heartbeats : Prop :=
  (∀ (t : Nat) (s : State), s.pd 8 = true → s.time.running = true → s.time.fresh = false → max s.now t = boundaryNs s.count →
    Steps (exec (.foxTick t) s) fun u => u = { s with now := max s.now t, out := s.out ++ [s.foxWord 1 0] }) ∧
  (∀ (t : Nat) (s : State), (s.at t).badgerDue = true → Steps (exec (.badgerFrameTx t) s) fun u => u.out = s.out ++
      [.badger (BadgerFrame.bytes { flags := s.badgerFlags, epoch := s.epoch, seq := s.twin.badgerSeq })] ∧
    u.twin.badgerSeq = (s.twin.badgerSeq + 1) % 256 ∧ u = { s with twin := u.twin, out := u.out, now := max s.now t }) ∧
  (∀ (b : List Byte) (w : FoxWord) (sh : Fin 6) (t : Nat) (s : State), FoxWord.parse b = some w → (w.kind = 1 ∨ w.kind = 2) →
    s.pd 8 = true → s.isActive = true → s.tstate = 1 → s.epoch < w.epoch →
    w.tstate < 16 → bitOf w.flags 0 = true → Steps (exec (.foxWordRx b sh t) s) fun u =>
      u.twin.release = some (1, w.epoch) ∧ u.isActive = true ∧ u.epoch = s.epoch ∧ u.ptstate = w.tstate ∧
      u.twin.foxSilent = 0 ∧ u.on F.TWN_STATUS_FOX_OK = true ∧ u.mem = s.mem) ∧
  (∀ (b : List Byte) (w : FoxWord) (sh : Fin 6) (t : Nat) (s : State), FoxWord.parse b = some w → (w.kind = 1 ∨ w.kind = 2) →
    s.pd 8 = true → s.isStandby = true → s.tstate = 3 → w.epoch < 2 ^ 32 →
    bitOf w.flags 0 = true → Steps (exec (.foxWordRx b sh t) s) fun u =>
      u.epoch = max s.epoch w.epoch ∧ u.tstate = 3 ∧ u.twin.foxSilent = 0 ∧ u.on F.TWN_STATUS_SUSPECT = false ∧ u.mem = s.mem) ∧
  (∀ (b : List Byte) (w : BadgerFrame) (t : Nat) (s : State), BadgerFrame.parse b = some w → s.isActive = true → s.tstate = 1 →
    s.epoch < w.epoch → bitOf w.flags 2 = false → bitOf w.flags 3 = false →
    Steps (exec (.badgerFrameRx b t) s) fun u => u.twin.release = some (2, w.epoch) ∧ u.twin.badgerSilent = 0 ∧
      u.on F.TWN_STATUS_BADGER_OK = true ∧ u.isActive = true ∧ u.mem = s.mem) ∧
  (∀ (t a : Nat) (s : State), s.twin.badgerRxAt = some a → a + (s.twin.badgerSilent + 1) * 62500 + 1000 ≤ max s.now t →
    s.on F.TWN_STATUS_BADGER_OK = true → (s.twin.foxSilent < 3 ∨ s.twin.badgerSilent = 0) →
    s.Room islTwin → Steps (exec (.badgerMiss t) s) fun u => u.get F.TWN_STATUS_BADGER_OK = 0 ∧
      u.get F.TWN_HB_BADGER_MISS = min (s.get F.TWN_HB_BADGER_MISS + 1) 65535 ∧
      u.twin.badgerSilent = s.twin.badgerSilent + 1 ∧ Raises s u 0x7061 islTwin [] ∧
      SameRegs s u [R.TWN_STATUS, R.TWN_HB]) ∧
  (∀ (t a : Nat) (s : State), s.twin.badgerRxAt = some a → a + (s.twin.badgerSilent + 1) * 62500 + 1000 ≤ max s.now t →
    s.on F.TWN_STATUS_BADGER_OK = false → 3 ≤ s.twin.foxSilent → 1 ≤ s.twin.badgerSilent →
    s.isStandby = true → s.tstate = 3 → s.twin.lost = none → s.Room islTwin → Steps (exec (.badgerMiss t) s) fun u =>
      u.twin.lost = some 1 ∧ Raises s u 0x7040 islTwin (le 4 1 ++ le 4 (s.epoch + 1)) ∧ SameRegs s u [R.TWN_HB]) ∧
  (∀ (b : List Byte) (w : FoxWord) (t : Nat) (s : State), FoxWord.parse b = some w → w.kind = 3 → s.pd 8 = true →
    s.isStandby = true → s.tstate = 3 → s.twin.lost = none → s.on F.TWN_STATUS_SUSPECT = false →
    s.on F.TWN_STATUS_FOX_OK = true → s.Room islTwin →
    Steps (exec (.failingMessageRx b t) s) fun u => u.twin.lost = some 2 ∧ u.twin.partnerFailing = true ∧
      Raises s u 0x7040 islTwin (le 4 2 ++ le 4 (s.epoch + 1)) ∧ u.mem = s.mem ∧
      SameRegs s u [R.TWN_STATUS, R.TWN_PARTNER_EPOCH, R.TWN_REVERT, R.TWN_CTL]) ∧
  (∀ (c : Fin 4) (s : State), s.twin.failing = false → s.pd 8 = true → s.Room islTwin →
    Steps (exec (.failingMessageSend c) s) fun u => u.twin.failing = true ∧ Raises s u 0x7045 islTwin (le 4 c.val) ∧
      u.out = s.out ++ [u.foxWord 3 0] ∧ u.regs = s.regs ∧ u.mem = s.mem) ∧
  (∀ (t : Nat) (s : State), Steps (exec (.lifeWordLost t) s) fun u => u.Restarted 5) ∧
  (∀ (t : Nat) (s : State), s.isStandby = true → s.on F.TWN_STATUS_SUSPECT = false →
    (∀ a : Nat, s.twin.foxAt = some a → a + 5000 ≤ max s.now t) →
    Steps (exec (.suspectEntry t) s) fun u => u.on F.TWN_STATUS_SUSPECT = true ∧ u.twin.suspectSince = s.count ∧
      u = { s with regs := u.regs, twin := u.twin, now := max s.now t } ∧ SameRegs s u [R.TWN_STATUS]) ∧
  (∀ (t k : Nat) (s : State), s.pd 8 = true → s.time.running = true → s.time.fresh = false → 1 ≤ k → k ≤ 15 →
    max s.now t = boundaryNs s.count + 2000 * k →
    Steps (exec (.foxTick t) s) fun u => u = { s with now := max s.now t, out := s.out ++ [s.foxWord 2 0] })

/-- Roles (09 R422, R426, R427, R429, R430, R449, R455, R458): a module in LISTEN that has heard nobody for LISTEN_MS claims ACTIVE
with an epoch above the last-words record's, or 1 with EPOCH_UNSURE; one that hears an active on a ring and no partner makes no
claim, with 0x7002 once; an active that saw a higher epoch, or lost a tie, gives the role up and is FENCED; the standby that lost
its active takes the role with the next epoch; REJOIN takes a REFUSED or EXCLUDED module to LISTEN. Completes: listenTimeout,
higherEpochRelease, twnRejoin. -/
def Obligations.RolesTaken : Prop :=
  (∀ (t : Nat) (s : State), s.tstate = 0 → s.img ≠ none → s.twin.ringActive = false → s.twin.foxHeard = none →
    s.twin.badgerHeard = none → s.twin.listenFrom + s.image.twin.listenMs * 1000000 ≤ max s.now t →
    s.nv.lastWords.valid = true → s.twin.listenEpoch = none →
    s.epoch ≤ s.nv.lastWords.epoch → s.nv.lastWords.epoch + 1 < 2 ^ 32 → Steps (exec (.listenTimeout t) s) fun u =>
      u.tstate = 1 ∧ u.isActive = true ∧ u.epoch = s.nv.lastWords.epoch + 1 ∧
      u.nv.lastWords.epoch = s.nv.lastWords.epoch + 1 ∧ u.get F.TWN_LAST_CHANGE_CAUSE = 10 ∧ u.mem = s.mem) ∧
  (∀ (t : Nat) (s : State), s.tstate = 0 → s.img ≠ none → s.twin.ringActive = false → s.twin.foxHeard = none →
    s.twin.badgerHeard = none → s.twin.listenFrom + s.image.twin.listenMs * 1000000 ≤ max s.now t →
    s.nv.lastWords.valid = false → s.twin.listenEpoch = none → s.epoch = 0 →
    Steps (exec (.listenTimeout t) s) fun u => u.isActive = true ∧ u.epoch = 1 ∧
      u.on F.TWN_STATUS_EPOCH_UNSURE = true) ∧
  (∀ (t : Nat) (s : State), (s.tstate ≠ 0 ∨ s.img = none ∨ s.twin.ringActive = true ∨
    max s.now t < s.twin.listenFrom + s.image.twin.listenMs * 1000000) → exec (.listenTimeout t) s = .next (s.at t)) ∧
  (∀ (l : List (Nat × Nat)) (t why ep : Nat) (s : State), s.isActive = true → s.twin.release = some (why, ep) →
    s.on F.MOD_STATUS_REDUCED = false →
    Steps (exec (.higherEpochRelease l t) s) fun u => u.tstate = 7 ∧ u.role = 0 ∧ u.epoch = s.epoch ∧
      u.get F.TWN_LAST_CHANGE_CAUSE = (if why = 0 then 8 else 9) ∧ u.twin.release = none ∧ u.mem = s.mem) ∧
  (∀ (l : List (Nat × Nat)) (t : Nat) (s : State), s.twin.release = none →
    exec (.higherEpochRelease l t) s = .next (s.at t)) ∧
  (∀ (c : Nat) (s : State), c < 16 → s.twin.lost = some c → s.handover = false → s.epoch + 1 < 2 ^ 32 →
    s.takeover.isActive = true ∧ s.takeover.epoch = s.epoch + 1 ∧ s.takeover.get F.TWN_LAST_CHANGE_CAUSE = c ∧
      s.takeover.twin.lost = none ∧
      s.takeover.get F.TWN_SWITCHES_TAKEOVERS = min (s.get F.TWN_SWITCHES_TAKEOVERS + 1) 65535) ∧
  (∀ s : State, (s.tstate = 6 ∨ s.tstate = 8) → Steps (exec .twnRejoin s) fun u => u.tstate = 0 ∧ u.role = 0 ∧ u.mem = s.mem) ∧
  (∀ s : State, s.tstate ≠ 6 → s.tstate ≠ 8 → exec .twnRejoin s = .next s) ∧
  (∀ s : State, s.tstate = 0 → s.partnerHeard = false → s.twin.raised7002 = false → s.Room islTwin →
    (s.ringHeard true).twin.ringActive = true ∧ Raises s (s.ringHeard true) 0x7002 islTwin [] ∧
    (s.ringHeard true).regs = s.regs)

/-- Planned switchovers (09 R424, R459, R460, R462 to R464, R472): SWAP and the revert timer make the active name a boundary in a
switch record; the MATCHED standby acknowledges one that lies ahead; the acknowledgement counts until 62.5 µs before the boundary,
and without it the switchover is cancelled with 0x7051; at the boundary the standby is ACTIVE with the next epoch; a refused SWAP
sets REFUSED with 0x7052; a module fault of the active leads to a switchover for B = F + 5 with a restart after it, owed while a module is in SUSPECT, and an active
without a MATCHED partner runs on; PROOF_DUE is set once. Completes: twnSwap, switchRecordRx, switchAckRx, switchAckMissing,
revertExpiry, moduleFault, proofDue. -/
def Obligations.PlannedSwitchovers : Prop :=
  (∀ (t : Nat) (s : State), (s.at t).swapReason = 0 → s.twin.switch = none → Steps (exec (.twnSwap t) s) fun u =>
    u.twin.switch = some { at_ := boundaryAfter (max s.now t) 4, cause := 4 } ∧ u.get F.TWN_CTL_PENDING = 1 ∧
    u.get F.TWN_CTL_REFUSED = 0 ∧ u.out = s.out ++ [s.foxWord 4 (boundaryAfter (max s.now t) 4)] ∧
    SameRegs s u [R.TWN_CTL]) ∧
  (∀ (t : Nat) (s : State), (s.at t).swapReason ≠ 0 → s.Room islTwin → Steps (exec (.twnSwap t) s) fun u =>
    u.get F.TWN_CTL_REFUSED = 1 ∧ Raises s u 0x7052 islTwin (le 4 (s.at t).swapReason) ∧ u.twin = s.twin ∧ u.out = s.out ∧
    SameRegs s u [R.TWN_CTL]) ∧
  (∀ (b : List Byte) (w : FoxWord) (c : Fin 16) (t : Nat) (s : State), FoxWord.parse b = some w → w.kind = 4 → s.pd 8 = true →
    s.tstate = 3 → s.isStandby = true → s.count < w.switchAt →
    Steps (exec (.switchRecordRx b c t) s) fun u => u.twin.switchTo = some w.switchAt ∧
      u.twin.switch = some { at_ := w.switchAt, cause := c.val, acked := true } ∧
      u.out = s.out ++ [u.foxWord 5 w.switchAt] ∧ u.get F.TWN_CTL_PENDING = 1 ∧ u.mem = s.mem) ∧
  (∀ (b : List Byte) (w : FoxWord) (c : Fin 16) (t : Nat) (s : State), FoxWord.parse b = some w → w.kind = 4 → s.pd 8 = true →
    s.tstate = 3 → s.isStandby = true → w.switchAt ≤ s.count →
    Steps (exec (.switchRecordRx b c t) s) fun u => u.twin.switch = s.twin.switch ∧ u.out = s.out) ∧
  (∀ (b : List Byte) (w : FoxWord) (q : Switch) (t : Nat) (s : State), FoxWord.parse b = some w → w.kind = 5 → s.pd 8 = true →
    s.twin.switch = some q → s.isActive = true → s.tstate = 1 → q.at_ = w.switchAt →
    max s.now t + 62500 ≤ boundaryNs q.at_ → Steps (exec (.switchAckRx b t) s) fun u =>
      u.twin.switch = some { q with acked := true } ∧ u.isActive = true ∧ u.out = s.out ∧ u.mem = s.mem) ∧
  (∀ (t : Nat) (w : Switch) (s : State), s.twin.switch = some w → s.isActive = true → w.acked = false →
    boundaryNs w.at_ ≤ max s.now t + 62500 → w.thenRestart = none → s.panel.byButton = false → w.ho = false →
    w.diverge = false →
    s.Room islTwin → Steps (exec (.switchAckMissing t) s) fun u => u.twin.switch = none ∧ u.get F.TWN_CTL_PENDING = 0 ∧
      Raises s u 0x7051 islTwin [] ∧ u.isActive = true ∧ u.out = s.out ∧ SameRegs s u [R.TWN_CTL]) ∧
  (∀ (w : Switch) (s : State), s.twin.switch = some w → s.isActive = false → s.twin.switchTo = some w.at_ →
    w.cause < 16 → s.nv.hoState ≠ 4 → s.epoch + 1 < 2 ^ 32 →
    (s.switchAt w.at_).isActive = true ∧ (s.switchAt w.at_).epoch = s.epoch + 1 ∧
      (s.switchAt w.at_).get F.TWN_LAST_CHANGE_CAUSE = w.cause ∧ (s.switchAt w.at_).twin.switch = none) ∧
  (∀ (w : Switch) (s : State), s.twin.switch = some w → s.isActive = true → w.acked = true → w.diverge = false →
    w.ho = false → (s.switchAt w.at_).tstate = 3 ∧ (s.switchAt w.at_).isStandby = true ∧
      (s.switchAt w.at_).epoch = s.epoch ∧ (s.switchAt w.at_).twin.outgoing = some w.thenRestart) ∧
  (∀ (t f : Nat) (s : State), s.on F.TWN_STATUS_HOME = false → s.twin.partnerHome = true → s.tstate = 1 → s.ptstate = 3 →
    s.isActive = true → s.on F.TWN_CFG_NO_REVERT = false → s.on F.TWN_STATUS_REDUCED = false → s.twin.revertFrom = some f →
    f + s.get F.TWN_CFG_REVERT_HOLD * 1000000000 ≤ max s.now t → s.on F.TWN_STATUS_SUSPECT = false →
    s.twin.partnerSuspect = false → s.twin.switch = none → Steps (exec (.revertExpiry t) s) fun u =>
      u.twin.switch = some { at_ := boundaryAfter (max s.now t) 4, cause := 3 } ∧ u.get F.TWN_CTL_PENDING = 1) ∧
  (∀ (t : Nat) (s : State), s.on F.TWN_CFG_NO_REVERT = true → Steps (exec (.revertExpiry t) s) fun u =>
    u.twin.switch = s.twin.switch ∧ u.twin.revertFrom = none ∧ u.out = s.out) ∧
  (∀ (f : Fin 4) (t : Nat) (s : State), s.isActive = true → s.tstate = 1 → s.ptstate = 3 → s.twin.switch = none →
    s.on F.TWN_STATUS_SUSPECT = false → s.twin.partnerSuspect = false → s.Room islTwin →
    Steps (exec (.moduleFault f t) s) fun u => u.on F.MOD_STATUS_MOD_FAULT = true ∧
      u.twin.switch = some { at_ := s.count + 5, cause := 6, thenRestart := some 6 } ∧ u.isActive = true ∧
      Raises s u 0x7070 islTwin (le 4 f.val ++ le 4 1)) ∧
  (∀ (f : Fin 4) (t : Nat) (s : State), s.isActive = true → s.tstate = 1 → s.ptstate = 3 → s.twin.switch = none →
    s.on F.TWN_STATUS_SUSPECT = true ∨ s.twin.partnerSuspect = true → s.Room islTwin →
    Steps (exec (.moduleFault f t) s) fun u => u.on F.MOD_STATUS_MOD_FAULT = true ∧ u.twin.switch = none ∧
      u.twin.owed = some { at_ := s.count + 5, cause := 6, thenRestart := some 6 } ∧ u.isActive = true ∧
      Raises s u 0x7070 islTwin (le 4 f.val ++ le 4 1)) ∧
  (∀ (f : Fin 4) (t : Nat) (s : State), s.isActive = true → s.twin.switch = none → s.ptstate ≠ 3 → s.Room islTwin →
    Steps (exec (.moduleFault f t) s) fun u => u.on F.MOD_STATUS_MOD_FAULT = true ∧ u.isActive = true ∧
      u.twin = s.twin ∧ Raises s u 0x7070 islTwin (le 4 f.val ++ le 4 2) ∧ SameRegs s u [R.MOD_STATUS]) ∧
  (∀ (t c : Nat) (s : State), s.on F.TWN_STATUS_PROOF_DUE = false → s.Room islTwin → s.twin.lastChange = some c →
    s.image.twin.proofDays ≤ (max s.now t - c) / 86400000000000 →
    Steps (exec (.proofDue t) s) fun u => u.on F.TWN_STATUS_PROOF_DUE = true ∧ Raises s u 0x7080 islTwin [] ∧
      SameRegs s u [R.TWN_STATUS, R.TWN_LAST_CHANGE])

/-- Joining and signatures (02 R66; 09 R429, R436, R437, R443, R446, R465 to R470): the joining module passes from CHECK to TIME, after
320 C0 cycles within 100 ns to COPY, and with the active's copy to SHADOW; a key slot that either module revoked is revoked in
both; another image is REFUSED with 0x1012; a forwarded write is applied, and one that the link cannot carry with the copy fails the attempt; an attempt that takes 5 s gives 0x7012 with its step, and
1 s later the next one begins at CHECK; equal signatures of a MATCHED standby change no register, and a mismatch that is not
attributed makes it DIVERGED. Completes: joinCheckDone, joinTimeHeld, joinCopyComplete, forwardedWriteRx, joinTimeout, joinRetry,
signatureRx. -/
def Obligations.JoiningAndSignatures : Prop :=
  (∀ (c : JoinCheck) (t : Nat) (s : State), s.isActive = false → s.tstate = 2 → s.get F.TWN_JOIN_STEP = 1 → c.reduced = false →
    c.slot = s.get F.IMG_STATUS_RUN_SLOT → c.ident = pad 16 s.image.ident → s.image.compatMin ≤ c.compat →
    s.image.compatMin ≤ s.nv.compat →
    ((mergeKeys s.nv.keys c.keys false).any fun k => k.st = .enabled) = true → Steps (exec (.joinCheckDone c t) s) fun u =>
      u.get F.TWN_JOIN_STEP = 2 ∧ u.tstate = 2 ∧ u.nv.keys = mergeKeys s.nv.keys c.keys false ∧ u.mem = s.mem) ∧
  (∀ (c : JoinCheck) (t : Nat) (s : State), s.isActive = false → s.tstate = 2 → s.get F.TWN_JOIN_STEP = 1 → c.reduced = false →
    s.hoNamed (some c.slot) c.ident = false → c.ident ≠ pad 16 s.image.ident → s.on F.TWN_STATUS_SUSPECT = false →
    s.Room islTwin →
    Steps (exec (.joinCheckDone c t) s) fun u => u.tstate = 6 ∧ u.role = 0 ∧ u.nv = s.nv ∧ Raises s u 0x1012 islTwin []) ∧
  (∀ (a b : KeySlot) (act : Bool), (a.st = .revoked ∨ b.st = .revoked) → (mergeKey a b act).st = .revoked) ∧
  (∀ (g t : Nat) (s : State), s.tstate = 2 → s.get F.TWN_JOIN_STEP = 2 → 320 ≤ s.time.twinHeld →
    Steps (exec (.joinTimeHeld g t) s) fun u =>
    u.get F.TWN_JOIN_STEP = 3 ∧ u.get F.TWN_JOIN_PROGRESS = 0 ∧ u.twin.granules = g ∧ SameRegs s u [R.TWN_JOIN] ∧
    u.mem = s.mem) ∧
  (∀ (m t : Nat) (p : StatePatch) (s : State), s.isActive = false → s.tstate = 2 → s.get F.TWN_JOIN_STEP = 3 →
    Steps (exec (.joinCopyComplete m p t) s) fun u => u.get F.TWN_JOIN_STEP = 4 ∧ u.get F.TWN_JOIN_PROGRESS = 100 ∧
      u.twin.joinM = m ∧ u.mem = ((s.at t).applyPatch p).mem ∧ u.sig = ((s.at t).applyPatch p).sig) ∧
  (∀ (a n : Nat) (b : List Byte) (s : State), s.tstate = 2 → s.get F.TWN_JOIN_STEP = 4 → s.twin.reached = [] →
    Steps (exec (.forwardedWriteRx { mem := [(a, b)] } n true) s) fun u => u.mem = Memory.writeN s.mem a b ∧ u.tstate = 2 ∧
      u.epoch = s.epoch) ∧
  (∀ (p : StatePatch) (n : Nat) (f : Bool) (s : State), s.tstate ≠ 2 → exec (.forwardedWriteRx p n f) s = .next s) ∧
  (∀ (p : StatePatch) (n : Nat) (s : State), s.tstate = 2 → s.get F.TWN_JOIN_STEP = 3 ∨ s.get F.TWN_JOIN_STEP = 4 →
    s.Room islTwin → Steps (exec (.forwardedWriteRx p n false) s) fun u => u.twin.retry = true ∧ u.get F.TWN_JOIN_STEP = 0 ∧
      Raises s u 0x7012 islTwin (le 4 (s.get F.TWN_JOIN_STEP)) ∧ SameRegs s u [R.TWN_JOIN]) ∧
  (∀ (t : Nat) (s : State), s.tstate = 2 → s.twin.retry = false → s.twin.joinStart + 5000000000 ≤ max s.now t →
    s.Room islTwin → Steps (exec (.joinTimeout t) s) fun u => u.twin.retry = true ∧ u.get F.TWN_JOIN_STEP = 0 ∧
      u.twin.joinStart = max s.now t ∧ Raises s u 0x7012 islTwin (le 4 (s.get F.TWN_JOIN_STEP)) ∧
      SameRegs s u [R.TWN_JOIN]) ∧
  (∀ (t : Nat) (s : State), s.tstate = 2 → s.twin.retry = true → s.twin.joinStart + 1000000000 ≤ max s.now t →
    Steps (exec (.joinRetry t) s) fun u => u.tstate = 2 ∧ u.get F.TWN_JOIN_STEP = 1 ∧ u.twin.retry = false ∧
      u.twin.joinStart = max s.now t ∧ u.mem = s.mem) ∧
  (∀ (a : Sig) (t : Nat) (s : State), s.twin.sigs = [a] → s.twin.partnerSigs = [] → s.tstate = 3 → s.handover = false →
    s.on F.TWN_STATUS_SUSPECT = false → s.twin.partnerSuspect = false → Steps (exec (.signatureRx a false t) s) fun u =>
      u.twin.sigs = [] ∧ u.twin.partnerSigs = [] ∧ u.regs = s.regs ∧ u.recd = s.recd) ∧
  (∀ (a : Sig) (v t : Nat) (s : State), s.twin.sigs = [a] → s.twin.partnerSigs = [] → s.tstate = 3 → s.isActive = false →
    s.handover = false → s.on F.TWN_STATUS_SUSPECT = false → s.twin.partnerSuspect = false → s.twin.ownFaults = [] →
    a.kind ≠ 8 → v ≠ a.val → s.Room islTwin →
    Steps (exec (.signatureRx { a with val := v } false t) s) fun u => u.tstate = 4 ∧
      u.get F.TWN_DIVERGE_OUT_MISMATCH = min (s.get F.TWN_DIVERGE_OUT_MISMATCH + 1) 65535 ∧
      Raises s u 0x7020 islTwin (le 1 a.kind ++ le 8 a.count)) ∧
  (∀ (a : Sig) (t : Nat) (s : State), s.twin.sigs = [] → Steps (exec (.signatureRx a false t) s) fun u =>
    u.twin.partnerSigs = a :: s.twin.partnerSigs ∧ u.regs = s.regs ∧ u.recd = s.recd) ∧
  (∀ (m t : Nat) (p : StatePatch) (s : State), s.isActive = true → s.ptstate = 2 →
    Steps (exec (.joinCopyComplete m p t) s) fun u => u.twin.fwdFrom = some m ∧ ∃ q, u.out = s.out ++ [.joinCopy m q] ∧
      q.forces = some s.sig.forces ∧ q.epoch = s.epoch ∧ q.keys = some s.nv.keys)

/-! ## Chapter 10: line time -/

/-- Line time (10 R484, R485, R488, R490 to R499, R510): time starts from the active partner by the twin
offset, with 0x8003, else from the domain that was usable first within the lock wait, with 0x8001, and FREE from the valid last-words record after the lock wait, with 0x8002; a
domain that has passed its checks for REQUAL_S is usable; a standby that hears its partner follows TWIN; from MADDER the loss of
Madder passes to Woad with 0x8011, else to HOLDOVER with 0x8015, which past 3,600 s gives 0x8017 once; the twin offset is half the
difference of the two directions and TWIN_ASYM, and on the standby the 32nd over 1,000 ns sets TWIN_SPLIT with 0x8030; after 24 h
in a state with a reference an ageing measurement enters, and in FREE none does. Completes: timeStart, lockWaitExpiry,
domainRequalified, servoReferenceChange, holdoverDegraded, twinSplitCheck, ageingMeasurement. -/
def Obligations.LineTimeReference : Prop :=
  (∀ (t : Nat) (s : State), s.time.running = true → exec (.timeStart t) s = .next (s.at t)) ∧
  (∀ (t : Nat) (o : Int) (s : State), s.time.running = false → s.activePartner = true → s.time.twinOfs = some o → s.Room islTime →
    Steps (exec (.timeStart t) s) fun u => u.time.running = true ∧
      u.now = lineNs ((max s.now t : Nat) + o) ∧ u.get F.TIM_STATUS_STATE = 3 ∧
      u.on F.TIM_STATUS_STARTED = true ∧ u.time.firstN = (u.now + 1000000 + 31249) / 31250 ∧ Raises s u 0x8003 islTime []) ∧
  (∀ (t : Nat) (s : State), s.time.running = false → s.activePartner = true → s.time.twinOfs = none →
    exec (.timeStart t) s = .next (s.at t)) ∧
  (∀ (t : Nat) (d : Fin 2) (s : State), s.time.running = false → s.activePartner = false → s.lockInTime d.val = true →
    (s.lockInTime (1 - d.val) = true → (s.dom d.val).okAt < (s.dom (1 - d.val)).okAt) → s.Room islTime →
    Steps (exec (.timeStart t) s) fun u => u.time.running = true ∧ u.now = lineNs ((max s.now t : Nat) + (s.dom d.val).offset) ∧
      u.get F.TIM_STATUS_STATE = d.val + 1 ∧ u.on F.TIM_STATUS_STARTED = true ∧ Raises s u 0x8001 islTime (le 4 d.val)) ∧
  (∀ (t : Nat) (s : State), s.time.running = false → s.activePartner = false → (s.dom 0).usable = false →
    (s.dom 1).usable = false → s.time.poweredAt + s.image.time.lockWaitS * 1000000000 ≤ max s.now t →
    s.nv.lastWords.valid = true → s.Room islTime → Steps (exec (.lockWaitExpiry t) s) fun u =>
      u.time.running = true ∧ u.now = s.nv.lastWords.lineTime ∧ u.get F.TIM_STATUS_STATE = 5 ∧
      u.get F.TIM_STATUS_QUALITY = 3 ∧ Raises s u 0x8002 islTime []) ∧
  (∀ (d : Fin 2) (t f : Nat) (s : State), s.time.doms.length = 2 → (s.dom d.val).since = some f →
    (s.dom d.val).slave.isSome = true → (s.dom d.val).syncOk = true → (s.dom d.val).annOk = true →
    f + s.image.time.requalS * 1000000000 ≤ max s.now t → Steps (exec (.domainRequalified d t) s) fun u =>
      (u.dom d.val).usable = true ∧ u.recd = s.recd ∧ u.mem = s.mem ∧ u.get F.TIM_STATUS_STATE = s.get F.TIM_STATUS_STATE) ∧
  (∀ (t : Nat) (s : State), s.get F.TIM_STATUS_STATE = 1 → (s.dom 0).usable = true →
    (s.isStandby = false ∨ s.partnerHeard = false) → exec (.servoReferenceChange t) s = .next (s.at t)) ∧
  (∀ (t : Nat) (s : State), s.get F.TIM_STATUS_STATE = 1 → (s.isStandby = true ∧ s.partnerHeard = true) →
    Steps (exec (.servoReferenceChange t) s) fun u => u.get F.TIM_STATUS_STATE = 3 ∧
      u.time.slewLeft = s.time.twinOfs.getD 0 ∧ u.now = max s.now t) ∧
  (∀ (t : Nat) (s : State), s.get F.TIM_STATUS_STATE = 1 → s.isStandby = false → (s.dom 0).usable = false →
    (s.dom 1).usable = true → s.image.time.noWoad = false → s.Room islTime → Steps (exec (.servoReferenceChange t) s) fun u =>
      u.get F.TIM_STATUS_STATE = 2 ∧ u.time.slewLeft = -(toSigned 32 (s.rdN R.TIM_MW)) ∧ Raises s u 0x8011 islTime []) ∧
  (∀ (t : Nat) (s : State), s.get F.TIM_STATUS_STATE = 1 → s.isStandby = false → (s.dom 0).usable = false →
    (s.dom 1).usable = false → s.Room islTime → Steps (exec (.servoReferenceChange t) s) fun u =>
      u.get F.TIM_STATUS_STATE = 4 ∧ u.on F.TIM_STATUS_HOLDOVER = true ∧ u.get F.TIM_STATUS_QUALITY = 1 ∧
      u.time.holdFrom = max s.now t ∧ u.get F.TIM_HOLD_SECONDS = 0 ∧ Raises s u 0x8015 islTime []) ∧
  (∀ (t : Nat) (s : State), s.get F.TIM_STATUS_STATE = 4 → s.time.degraded = false →
    s.time.holdFrom + 3600000000000 ≤ max s.now t → s.Room islTime → Steps (exec (.holdoverDegraded t) s) fun u =>
      u.time.degraded = true ∧ u.get F.TIM_STATUS_QUALITY = 2 ∧ Raises s u 0x8017 islTime []) ∧
  (∀ (t1 t4 : Stamp) (t2 t3 : Int) (q : Fin 4) (h : Bool) (d : Fin 2) (arb : Bool) (s : State), s.stamped t1 = true → s.stamped t4 = true →
    s.isStandby = true → 31 ≤ s.time.twinOver →
    1000 < ((((t2 - t1.corrected) - (t4.corrected - t3)) / 2 + toSigned 32 (s.calWord 92)) / 1000).natAbs →
    s.on F.TIM_STATUS_TWIN_SPLIT = false → s.Room islTime →
    Steps (exec (.twinSplitCheck t1 t2 t3 t4 q h d arb) s) fun u => u.on F.TIM_STATUS_TWIN_SPLIT = true ∧ u.time.partnerQ = q.val ∧
      Raises s u 0x8030 islTime []) ∧
  (∀ (t1 t4 : Stamp) (t2 t3 : Int) (q : Fin 4) (h : Bool) (d : Fin 2) (arb : Bool) (s : State), s.stamped t1 = true → s.stamped t4 = true →
    s.isStandby = false → Steps (exec (.twinSplitCheck t1 t2 t3 t4 q h d arb) s) fun u => u.recd = s.recd ∧
      u.rdN R.TIM_TWIN_OFS = ofSigned 32 (clampInt (-2147483647) 2147483647
        ((((t2 - t1.corrected) - (t4.corrected - t3)) / 2 + toSigned 32 (s.calWord 92)) / 1000)) ∧
      u.time.partnerQ = q.val ∧ u.time.partnerHold = h ∧ u.get F.TIM_STATUS_TWIN_SPLIT = s.get F.TIM_STATUS_TWIN_SPLIT) ∧
  (∀ (p : Word) (t : Nat) (s : State), s.get F.TIM_STATUS_STATE = 1 → s.time.ageFrom + 86400000000000 ≤ max s.now t →
    Steps (exec (.ageingMeasurement p t) s) fun u => u.time.ageFrom = max s.now t ∧
      u = { ((s.at t).calAge p) with time := u.time }) ∧
  (∀ (p : Word) (t : Nat) (s : State), s.get F.TIM_STATUS_STATE = 5 → exec (.ageingMeasurement p t) s = .next (s.at t)) ∧
  (∀ (t1 t4 : Stamp) (t2 t3 : Int) (q : Fin 4) (h : Bool) (d : Fin 2) (arb : Bool) (s : State), (s.stamped t1 = false ∨ s.stamped t4 = false) →
    exec (.twinSplitCheck t1 t2 t3 t4 q h d arb) s = .next s) ∧
  (∀ (t : Nat) (s : State), max s.now t < s.time.poweredAt + s.image.time.lockWaitS * 1000000000 →
    exec (.lockWaitExpiry t) s = .next (s.at t)) ∧
  (∀ (t : Nat) (s : State), s.get F.TIM_STATUS_STATE ≠ 4 →
    exec (.holdoverDegraded t) s = .next (s.at t))

/-- Time restarts and pulses (10 R474, R500 to R508; 17 R734): STEP of the active, with STEP_OK, for a usable domain further than 1 ms
off names a step and passes it to the standby; a STEP of a module that is not active, and an APPLY of nanoseconds out of range,
set REFUSED with 0x8021; the standby takes the named step; at its instant line time is the target, activations and samples in
progress are abandoned and 0x8020 gives both times; APPLY before time start sets line time; a read of TIM_NS latches the seconds;
the pulse rises at a whole second that is later than its last edge and falls PULSE_MS after it; an incoming pulse shows its offset
from the nearest whole second. The codes of the reasons of a refusal are the model's (assumption 15). Completes: timStep,
timApply, stepRequestRx, timeRestart, timNsRead, ppsOutEdge, ppsInEdge, timeStep, timeApply, timeQuery. -/
def Obligations.TimeRestarts : Prop :=
  (∀ (d : Fin 2) (t : Nat) (s : State), s.isActive = true → s.image.time.stepOk = true → (s.dom d.val).usable = true →
    1000000 < ((s.at t).offsetNow d.val).natAbs → s.on F.TIM_CTL_APPLY_AT = false → Steps (exec (.timStep d t) s) fun u =>
      u.time.step = some { at_ := boundaryNs (boundaryAfter (max s.now t) 4)
                           target := lineNs ((boundaryNs (boundaryAfter (max s.now t) 4) : Int) + (s.at t).offsetNow d.val) } ∧
      u.get F.TIM_CTL_PENDING = 1 ∧ u.get F.TIM_CTL_REFUSED = 0 ∧ u.get F.TIM_CTL_STEP_DOM = d.val ∧
      u.out = s.out ++ [.stepRequest (boundaryNs (boundaryAfter (max s.now t) 4))
        (lineNs ((boundaryNs (boundaryAfter (max s.now t) 4) : Int) + (s.at t).offsetNow d.val))] ∧ SameRegs s u [R.TIM_CTL]) ∧
  (∀ (d : Fin 2) (t : Nat) (s : State), s.isActive = false → s.Room islTime → Steps (exec (.timStep d t) s) fun u =>
    u.get F.TIM_CTL_REFUSED = 1 ∧ u.time = s.time ∧ u.out = s.out ∧ Raises s u 0x8021 islTime (le 4 2) ∧
    SameRegs s u [R.TIM_CTL]) ∧
  (∀ (t : Nat) (s : State), s.get F.TIM_SET_NS_V > 999999999 → s.Room islTime → Steps (exec (.timApply t) s) fun u =>
    u.get F.TIM_CTL_REFUSED = 1 ∧ u.time = s.time ∧ Raises s u 0x8021 islTime (le 4 4) ∧ SameRegs s u [R.TIM_CTL]) ∧
  (∀ (t : Nat) (s : State), s.get F.TIM_SET_NS_V ≤ 999999999 → s.time.running = false → s.on F.TIM_CTL_APPLY_AT = false →
    Steps (exec (.timApply t) s) fun u => u.time.running = true ∧ u.now = s.setTime ∧ u.get F.TIM_STATUS_STATE = 5 ∧
      u.get F.TIM_CTL_REFUSED = 0) ∧
  (∀ (a g : Nat) (s : State), s.isStandby = true → Steps (exec (.stepRequestRx a g) s) fun u =>
    u.time.step = some { at_ := a, target := g } ∧ u.get F.TIM_CTL_PENDING = 1 ∧ u.out = s.out ∧ SameRegs s u [R.TIM_CTL]) ∧
  (∀ (a g : Nat) (s : State), s.isStandby = false → exec (.stepRequestRx a g) s = .next s) ∧
  (∀ s : State, s.time.step = none → exec .timeRestart s = .next s) ∧
  (∀ (k : TimeStep) (s : State), s.time.step = some k → k.start = false → s.Room islTime →
    Steps (exec .timeRestart s) fun u => u.now = k.target ∧ u.time.step = none ∧
      u.time.firstN = (k.target + 1000000 + 31249) / 31250 ∧ u.get F.TIM_CTL_PENDING = 0 ∧
      Raises s u 0x8020 islTime (le 8 (max s.now k.at_) ++ le 8 k.target) ∧
      (∀ i, (u.slot i).busy = false) ∧ u.loops.phaseP = none) ∧
  (∀ (t : Nat) (s : State), s.on F.TIM_STATUS_STARTED = true → Steps (exec (.timNsRead t) s) fun u =>
    u.get F.TIM_NS_NS = max s.now t % 1000000000 ∧ (max s.now t < 2 ^ 32 * 1000000000 →
      u.rdN R.TIM_SEC_LO = max s.now t / 1000000000) ∧ SameRegs s u [R.TIM_NS, R.TIM_SEC_LO, R.TIM_SEC_HI]) ∧
  (∀ (t : Nat) (s : State), s.on F.TIM_STATUS_STARTED = false → exec (.timNsRead t) s = .next (s.at t)) ∧
  (∀ (t : Nat) (s : State), s.time.running = true → max s.now t % 1000000000 = 0 →
    (∀ a : Nat, s.time.ppsAt = some a → a < max s.now t) → Steps (exec (.ppsOutEdge true t) s) fun u =>
      u.time.ppsHigh = true ∧ u.time.ppsAt = some (max s.now t) ∧ u.loc.ppsHigh = true ∧
      u.out.getLast? = some (.pps (max s.now t / 1000000000)) ∧ u.mem = s.mem ∧ u.recd = s.recd) ∧
  (∀ (t a : Nat) (s : State), s.time.running = true → s.time.ppsHigh = true → s.time.ppsAt = some a →
    a + s.image.time.pulseMs * 1000000 ≤ max s.now t → Steps (exec (.ppsOutEdge false t) s) fun u =>
    u.time.ppsHigh = false ∧ u.time.ppsAt = some a ∧ u.loc.ppsHigh = false ∧ u.mem = s.mem ∧ u.recd = s.recd) ∧
  (∀ (t : Nat) (s : State), Steps (exec (.ppsInEdge t) s) fun u => u.get F.TIM_PPSIN_SEEN = 1 ∧
    u.get F.TIM_PPSIN_OFS = ofSigned 31 (if t % 1000000000 ≤ 500000000 then ((t % 1000000000 : Nat) : Int)
      else ((t % 1000000000 : Nat) : Int) - 1000000000) ∧ SameRegs s u [R.TIM_PPSIN]) ∧
  (∀ (ses : Fin 16) (req : Nat) (d : Fin 2) (t : Nat) (s : State), (s.at t).Serves ses req true true →
    s.image.time.stepOk = true → (s.dom d.val).usable = true → 1000000 < ((s.at t).offsetNow d.val).natAbs →
    Steps (exec (.timeStep ses req d t) s) fun u => u.time.step.isSome = true ∧ u.get F.TIM_CTL_PENDING = 1 ∧
      (∃ a g, u.out = s.out ++ [.stepRequest a g] ++ response ses req 10 0 []) ∧ SameRegs s u [R.TIM_CTL]) ∧
  (∀ (ses : Fin 16) (req t : Nat) (s : State), (s.at t).Serves ses req true true → s.get F.TIM_SET_NS_V > 999999999 →
    s.Room islTime → Steps (exec (.timeApply ses req t) s) fun u => u.out = s.out ++ response ses req 10 4 (le 4 4) ∧
      u.get F.TIM_CTL_REFUSED = 1 ∧ u.time = s.time) ∧
  (∀ (ses : Fin 16) (req t : Nat) (s : State), (s.at t).Serves ses req true true → s.get F.TIM_SET_NS_V ≤ 999999999 →
    s.time.running = true → s.image.time.stepOk = true → 1000000 < ((s.setTime : Int) - (max s.now t : Nat)).natAbs →
    Steps (exec (.timeApply ses req t) s) fun u => (∃ a, u.out = s.out ++ [.stepRequest a s.setTime] ++
      response ses req 10 0 []) ∧ u.time.step.isSome = true ∧ u.get F.TIM_CTL_PENDING = 1) ∧
  (∀ (ses : Fin 16) (req t : Nat) (s : State), (s.at t).Serves ses req false false →
    Steps (exec (.timeQuery ses req t) s) fun u => (∃ pl : List Byte, pl.length = 64 ∧
      u.out = s.out ++ response ses req 10 0 pl) ∧
      SameRegs s u [R.TIM_NS, R.TIM_SEC_LO, R.TIM_SEC_HI] ∧ u.time = s.time) ∧
  (∀ (t : Nat) (s : State), s.time.running = false → exec (.ppsOutEdge true t) s = .next (s.at t)) ∧
  (∀ (t a : Nat) (s : State), s.time.ppsAt = some a → max s.now t ≤ a → exec (.ppsOutEdge true t) s = .next (s.at t))

/-- The time protocol (10 R477 to R480, R482 to R484, R487, R488): a timestamp is corrected between the estimates of the boundary
messages around it, and its latencies are applied; a Sync of domain 0 or 1 on its slave port gives the offset, a two-step one with its
Follow_Up; more than 200,000 ppb of rate make the domain unusable with 0x8041, a receipt failure, of Sync or of the slave port's Announce, with 0x8010 or 0x8013; delay
requests are answered, and the measured delay with ASYM gives that of each direction; a request for intervals gets the fixed ones;
a master port that is a ring port sends Sync, Follow_Up and Announce of domain 0. That a
timestamp before time start is taken as it is, is the model's choice (assumption 110). Completes: ptpSyncRx, ptpFollowUpRx,
ptpAnnounceRx, ptpReceiptTimeout, ptpPdelayReqRx, ptpPdelayTx, ptpPdelayRespRx, ptpPdelayRespFollowUpRx, ptpSignalingRx,
ptpSyncTx, ptpAnnounceTx. -/
def Obligations.TimeProtocol : Prop :=
  (∀ (p : Fin 22) (d : Fin 256) (two : Bool) (o c : Int) (x : Stamp) (t : Nat) (s : State),
    s.fromSlave p.val d.val = false → exec (.ptpSyncRx p d two o c x t) s = .next (s.at t)) ∧
  (∀ (p : Fin 22) (d : Fin 256) (o c : Int) (x : Stamp) (t : Nat) (s : State), s.fromSlave p.val d.val = true →
    s.stamped x = true → Steps (exec (.ptpSyncRx p d true o c x t) s) fun u =>
      (d.val, s.ingress p.val x) ∈ (u.ptpPort p.val).syncWait ∧ u.time.doms = s.time.doms ∧
      u = { s with time := u.time, now := max s.now t }) ∧
  (∀ (p : Fin 22) (d : Fin 256) (o c v : Int) (x : Stamp) (t : Nat) (s : State), s.fromSlave p.val d.val = true →
    s.stamped x = true → s.time.doms.length = 2 →
    v = (o + c + (s.ptpPort p.val).fromPs - s.ingress p.val x) / 1000 → (s.at t).jumps d.val v = false →
    ((s.at t).domRate d.val v (max s.now t - (s.dom d.val).at_)).natAbs ≤ 200000 → (s.dom 0).usable = false →
    Steps (exec (.ptpSyncRx p d false o c x t) s) fun u => (u.dom d.val).offset = v ∧ (u.dom d.val).syncOk = true ∧
      (u.dom d.val).at_ = max s.now t ∧ (u.dom d.val).since.isSome = true ∧ u.recd = s.recd ∧ u.mem = s.mem) ∧
  (∀ (p : Fin 22) (d : Fin 256) (o c : Int) (x : Stamp) (t : Nat) (s : State), s.fromSlave p.val d.val = true →
    s.stamped x = true → s.time.doms.length = 2 →
    200000 < ((s.at t).domRate d.val ((o + c + (s.ptpPort p.val).fromPs - s.ingress p.val x) / 1000)
      (max s.now t - (s.dom d.val).at_)).natAbs → s.Room islTime →
    Steps (exec (.ptpSyncRx p d false o c x t) s) fun u =>
      (u.dom d.val).usable = false ∧ Raises s u 0x8041 islTime []) ∧
  (∀ (p : Fin 22) (d : Fin 256) (o c i : Int) (t : Nat) (s : State), s.fromSlave p.val d.val = true →
    (s.ptpPort p.val).syncWait.find? (fun e => e.1 = d.val) = some (d.val, i) →
    exec (.ptpFollowUpRx p d o c t) s = .next ((((s.at t).setPtp p.val
      { s.ptpPort p.val with syncWait := (s.ptpPort p.val).syncWait.filter fun e => e.1 ≠ d.val })).syncTaken p.val d.val
        o c i)) ∧
  (∀ (p : Fin 22) (d : Fin 256) (o c : Int) (t : Nat) (s : State),
    (s.ptpPort p.val).syncWait.find? (fun e => e.1 = d.val) = none → exec (.ptpFollowUpRx p d o c t) s = .next (s.at t)) ∧
  (∀ (p : Fin 22) (d : Fin 256) (a : AnnMsg) (t : Nat) (s : State), d.val < 2 → s.ptpOn p.val = true → canSlave p.val = true →
    s.time.doms.length = 2 → s.dom d.val = {} → Steps (exec (.ptpAnnounceRx p d a t) s) fun u =>
      (u.dom d.val).slave = some p.val ∧ (u.dom d.val).gm = some a.gm ∧ (u.dom d.val).annOk = true ∧ u.recd = s.recd) ∧
  (∀ (p : Fin 22) (d : Fin 256) (a : AnnMsg) (t : Nat) (s : State), 2 ≤ d.val ∨ canSlave p.val = false →
    exec (.ptpAnnounceRx p d a t) s = .next (s.at t)) ∧
  (∀ (d : Fin 2) (t : Nat) (s : State), (s.dom d.val).syncOk = true → (s.dom d.val).at_ + 375000000 ≤ max s.now t →
    s.time.doms.length = 2 → s.Room islTime →
    Steps (exec (.ptpReceiptTimeout d false t) s) fun u => (u.dom d.val).usable = false ∧ (u.dom d.val).syncOk = false ∧
      Raises s u (if d.val = 0 then 0x8010 else 0x8013) islTime (if d.val = 0 then le 4 1 else [])) ∧
  (∀ (p : Fin 22) (rx tx : Stamp) (s : State), s.ptpOn p.val = true → s.stamped rx = true → s.stamped tx = true →
    exec (.ptpPdelayReqRx p rx tx) s =
    .next { s with out := s.out ++ [.ptp 0 p.val 3 [s.ingress p.val rx]] ++ [.ptp 0 p.val 0xA [s.egress p.val tx]] }) ∧
  (∀ (p : Fin 22) (s : State), s.ptpOn p.val = true → Steps (exec (.ptpPdelayTx p) s) fun u =>
    (u.ptpPort p.val).pdelayWait = true ∧ u.out = s.out ++ [.ptp 0 p.val 2 []] ∧ u.regs = s.regs) ∧
  (∀ (p : Fin 22) (t1 t4 : Stamp) (t2 : Int) (s : State), (s.ptpPort p.val).pdelayWait = true → s.stamped t1 = true →
    s.stamped t4 = true → Steps (exec (.ptpPdelayRespRx p t1 t2 t4) s) fun u =>
      (u.ptpPort p.val).turn = some (s.ingress p.val t4 - s.egress p.val t1 + t2) ∧ u.out = s.out ∧ u.regs = s.regs) ∧
  (∀ (p : Fin 22) (x t3 : Int) (s : State), (s.ptpPort p.val).turn = some x →
    Steps (exec (.ptpPdelayRespFollowUpRx p t3) s) fun u => (u.ptpPort p.val).delayPs = (x - t3) / 2 ∧
      (u.ptpPort p.val).fromPs = (x - t3) / 2 + (s.timePort p.val).asymPs ∧
      (u.ptpPort p.val).toPs = (x - t3) / 2 - (s.timePort p.val).asymPs ∧
      (u.ptpPort p.val).pdelayWait = false ∧ u.out = s.out ∧ u.regs = s.regs) ∧
  (∀ (d : Fin 2) (p : Nat) (t : Nat) (s : State), s.time.doms.length = 2 → (s.dom d.val).slave = some p →
    p ∈ keys (s.dom d.val).anns → tget 0 (s.dom d.val).annAt p + 3000000000 ≤ max s.now t → s.Room islTime →
    Steps (exec (.ptpReceiptTimeout d true t) s) fun u => (u.dom d.val).usable = false ∧
      (tget none (u.dom d.val).anns p).isNone = true ∧ (∃ r ∈ u.recd.queue, r.code = (if d.val = 0 then 0x8010 else 0x8013))) ∧
  (∀ (p : Fin 22) (d : Fin 256) (s : State), d.val < 2 → d.val = 0 ∨ 16 ≤ p.val → s.ptpOn p.val = true →
    exec (.ptpSignalingRx p d) s =
    .next { s with out := s.out ++ [.ptp d.val p.val 0xC (if p.val < 16 then [-5, -3, 0] else [-3, 0, 0])] }) ∧
  (∀ (p : Fin 22) (x : Stamp) (t : Nat) (s : State), p.val < 16 → s.ptpOn p.val = true → s.role ≠ 0 → s.stamped x = true →
    Steps (exec (.ptpSyncTx p 0 x t) s) fun u => u = { s with now := max s.now t, out := s.out ++ [.ptp 0 p.val 0 []] ++
      [.ptp 0 p.val 8 [s.egress p.val x, 0]] }) ∧
  (∀ (p : Fin 22) (d : Fin 2) (x : Stamp) (t : Nat) (s : State), p.val < 16 → (d.val = 1 ∨ s.role = 0) →
    exec (.ptpSyncTx p d x t) s = .next (s.at t)) ∧
  (∀ (p : Fin 22) (s : State), p.val < 16 → s.ptpOn p.val = true → Steps (exec (.ptpAnnounceTx p 0) s) fun u =>
    u = { s with out := s.out ++ [.ptp 0 p.val 0xB [((if s.isActive = true then 246 else 247 : Nat) : Int),
      (s.advertised.1 : Int), (s.advertised.2.1 : Int), (s.advertised.2.2 : Int), (b2n s.twinB : Int), (Config.clockIdentity : Int)]] }) ∧
  (∀ (p : Fin 22) (rx tx : Stamp) (s : State), s.ptpOn p.val = false → exec (.ptpPdelayReqRx p rx tx) s = .next s) ∧
  (∀ (d : Fin 2) (t : Nat) (s : State), max s.now t < (s.dom d.val).at_ + 375000000 →
    exec (.ptpReceiptTimeout d false t) s = .next (s.at t)) ∧
  (∀ (p : Fin 22) (x : Stamp) (t a : Nat) (s : State), 16 ≤ p.val → (s.dom 0).slave = some a → a ≠ p.val →
    tget none (s.dom 0).anns p.val = none → (s.dom 0).synced = true →
    s.ptpOn p.val = true → s.stamped x = true → Steps (exec (.ptpSyncTx p 0 x t) s) fun u => u.now = max s.now t ∧
      u.out = s.out ++ [.ptp 0 p.val 0 []] ++ [.ptp 0 p.val 8 [(s.dom 0).origin,
        (s.dom 0).corr + (s.ptpPort a).fromPs + (s.egress p.val x - (s.dom 0).rxPs) *
          (1000000000 + (s.dom 0).rate - toSigned 32 (s.rdN R.TIM_ADJ)) / 1000000000]])

/-! ## Chapter 11: line links -/

/-- Line links (11 R511, R515, R517, R518, R520, R521, R525 to R527; 20 R817, R818): a frame with a bad FCS or CRC only counts BAD,
and one that is no line frame changes nothing; a copy in time for a subscription is kept and told to the partner; a partner's
publication goes out with TWIN_B of this module; at the coupling deadline a copy, of two that of twin A, enters the image of its boundary and
the subscription is COUPLED, what was resolved without word of the partner being listed, and a period without one counts MISSED; a coupled subscription that has missed DECOUPLE_N periods becomes DECOUPLED
with 0x9010; a line port that changes is reported with 0x9001 or 0x9002; a pluggable of a type of its port and within its power
is enabled, one of another type keeps the port down with 0xD040. The islands of the events are the model's choice (assumption 14).
Completes: lineFrameRx, publicationFromActive, couplingDeadline, linkDecouple, linePortLinkChange, pluggableInsert,
pluggableRemove. -/
def Obligations.LineLinks : Prop :=
  (∀ (p : Fin 4) (b : List Byte) (t : Nat) (s : State), s.lineOn = true →
    (fcsOk b = false ∨ (s.image.links.takes b = true ∧ lineCrcOk (frameBody b) = false)) →
    Steps (exec (.lineFrameRx p b t) s) fun u =>
      u.get (F.LNK_RX_BAD p.val) = min (s.get (F.LNK_RX_BAD p.val) + 1) (2 ^ (F.LNK_RX_BAD p.val).len - 1) ∧
      OnlyRegs (s.at t) u [R.LNK_RX p.val]) ∧
  (∀ (p : Fin 4) (b f : List Byte) (t : Nat) (e : SubRec) (s : State), s.lineOn = true → fcsOk f = true →
    s.image.links.takes f = true → b = frameBody f → lineCrcOk b = true →
    s.image.links.subs = [e] → s.image.links.fwds = [] → field b 2 2 = e.srcPair → e.srcPair ≠ s.image.links.pairId →
    field b 6 2 = e.pubId → field b 20 2 = e.points.length → field b 5 1 = e.cls → isBoundary e.cls (field b 12 8) = true →
    field b 12 8 ≤ s.count → max s.now t - boundaryNs (field b 12 8) ≤ couplingNs e.cls →
    Steps (exec (.lineFrameRx p f t) s) fun u =>
      (u.sub 0).own = some { n := field b 12 8, vals := lineVals b } ∧
      u.out = s.out ++ [.subCopy 0 (field b 12 8) (lineVals b)] ∧ u.regs = s.regs) ∧
  (∀ (pub : Nat) (b : List Byte) (r : PubRec) (s : State), s.lineOn = true → s.isActive = false →
    s.image.links.pubs.find? (fun q => q.pubId = pub) = some r →
    Steps (exec (.publicationFromActive pub b) s) fun u => u = { s with out := u.out } ∧
      u.out = s.out ++ ((List.range 4).filter fun q => bitOf r.outPorts q && bitOf (s.get F.LNK_STATUS_LINK_UP) q).map
        fun q => .lineFrame q (s.image.links.frame q (lineTwin b s.twinB))) ∧
  (∀ (sub : Fin 256) (n : Nat) (pv : PartnerCopy) (t : Nat) (e : SubRec) (c : SubCopy) (s : State),
    s.image.links.subs[sub.val]? = some e → s.lineOn = true → isBoundary e.cls n = true →
    boundaryNs n + couplingNs e.cls ≤ max s.now t → (∀ m : Nat, (s.sub sub.val).judged = some m → m < n) →
    (s.agrees = true → pv = .invalid ∨ pv = .silent) → (s.sub sub.val).own = some c → c.n = n →
    s.get (F.LNK_SUB_STATE sub.val) ≠ 2 →
    Steps (exec (.couplingDeadline sub n pv t) s) fun u => u.get (F.LNK_SUB_STATE sub.val) = 1 ∧
      u.get (F.LNK_SUB_COPIES sub.val) = 1 + b2n s.twinB ∧ (u.sub sub.val).missed = 0 ∧
      (u.sub sub.val).pend = (s.sub sub.val).pend ++ [(entersImage e.cls n,
        e.points.zip (c.vals.map fun x => some (x.v, subQ x.q (1 + b2n s.twinB) false)))] ∧
      (u.sub sub.val).listed = (if s.agrees = true ∧ pv = .silent then some n else none) ∧ u.recd = s.recd) ∧
  (∀ (sub : Fin 256) (n : Nat) (v : List PointVal) (t : Nat) (e : SubRec) (c : SubCopy) (s : State),
    s.image.links.subs[sub.val]? = some e → s.lineOn = true → isBoundary e.cls n = true →
    boundaryNs n + couplingNs e.cls ≤ max s.now t → (∀ m : Nat, (s.sub sub.val).judged = some m → m < n) →
    s.agrees = true → (s.sub sub.val).own = some c → c.n = n → s.get (F.LNK_SUB_STATE sub.val) ≠ 2 →
    Steps (exec (.couplingDeadline sub n (.full v) t) s) fun u => u.get (F.LNK_SUB_STATE sub.val) = 1 ∧
      u.get (F.LNK_SUB_COPIES sub.val) = 3 ∧ (u.sub sub.val).missed = 0 ∧
      (u.sub sub.val).pend = (s.sub sub.val).pend ++ [(entersImage e.cls n,
        e.points.zip ((if s.twinB = true then v else c.vals).map fun x => some (x.v, subQ x.q 1 (decide (c.vals ≠ v)))))] ∧
      u.recd = s.recd) ∧
  (∀ (sub : Fin 256) (n : Nat) (pv : PartnerCopy) (t : Nat) (e : SubRec) (s : State), s.image.links.subs[sub.val]? = some e →
    s.lineOn = true → isBoundary e.cls n = true → boundaryNs n + couplingNs e.cls ≤ max s.now t →
    (∀ m : Nat, (s.sub sub.val).judged = some m → m < n) → (∀ v : List PointVal, pv ≠ .full v) → (s.sub sub.val).own = none →
    Steps (exec (.couplingDeadline sub n pv t) s) fun u => (u.sub sub.val).missed = (s.sub sub.val).missed + 1 ∧
      u.get (F.LNK_SUB_COPIES sub.val) = 0 ∧
      u.get (F.LNK_SUB_MISSED sub.val) = min (s.get (F.LNK_SUB_MISSED sub.val) + 1) (2 ^ (F.LNK_SUB_MISSED sub.val).len - 1)) ∧
  (∀ (sub : Fin 256) (e : SubRec) (s : State), s.image.links.subs[sub.val]? = some e →
    s.image.links.decoupleN ≤ (s.sub sub.val).missed → s.get (F.LNK_SUB_STATE sub.val) = 1 → s.Room (islLine 0) →
    Steps (exec (.linkDecouple sub) s) fun u => u.get (F.LNK_SUB_STATE sub.val) = 2 ∧ u.on F.LNK_STATUS_DECOUPLED = true ∧
      Raises s u 0x9010 (islLine 0) (le 1 sub.val ++ le 4 e.policy) ∧
      SameRegs s u [R.LNK_SUB sub.val, R.LNK_STATUS]) ∧
  (∀ (p : Fin 4) (t : Nat) (s : State), bitOf (s.get F.LNK_STATUS_LINK_UP) p.val = true → s.Room (islLine p.val) →
    Steps (exec (.linePortLinkChange p false t) s) fun u => bitOf (u.get F.LNK_STATUS_LINK_UP) p.val = false ∧
      Raises s u 0x9001 (islLine p.val) (le 1 p.val) ∧ SameRegs s u [R.LNK_STATUS]) ∧
  (∀ (p : Fin 4) (t : Nat) (s : State), bitOf (s.get F.LNK_STATUS_LINK_UP) p.val = false → s.cageOn (16 + p.val) = true →
    s.Room (islLine p.val) → Steps (exec (.linePortLinkChange p true t) s) fun u =>
      bitOf (u.get F.LNK_STATUS_LINK_UP) p.val = true ∧ Raises s u 0x9002 (islLine p.val) [] ∧
      SameRegs s u [R.LNK_STATUS]) ∧
  (∀ (c : Fin 22) (kind power t : Nat) (s : State), 16 ≤ c.val → kind ∈ s.cageTypes c.val → power ≤ cagePower c.val →
    Steps (exec (.pluggableInsert c kind power t) s) fun u => u.cage c.val = (kind, power) ∧
    c.val ∉ u.pwr.cagesOff ∧ u = { s with pwr := u.pwr, now := max s.now t }) ∧
  (∀ (c : Fin 22) (kind power t : Nat) (s : State), 20 ≤ c.val → kind ≠ 0 → ¬ kind ∈ s.cageTypes c.val → s.Room islMgmt →
    Steps (exec (.pluggableInsert c kind power t) s) fun u => c.val ∈ u.pwr.cagesOff ∧
      Raises s u 0xD040 islMgmt (le 1 c.val ++ le 4 kind) ∧ u.regs = s.regs) ∧
  (∀ (c : Fin 22) (t : Nat) (s : State), 20 ≤ c.val → Steps (exec (.pluggableRemove c t) s) fun u =>
    c.val ∉ u.pwr.cagesOff ∧ u.cage c.val = (0, 0) ∧ u = { s with pwr := u.pwr, now := max s.now t }) ∧
  (∀ (p : Fin 4) (b : List Byte) (t : Nat) (s : State), fcsOk b = true → s.image.links.takes b = false →
    exec (.lineFrameRx p b t) s = .next (s.at t)) ∧
  (∀ (pub : Nat) (b : List Byte) (s : State), s.isActive = true → exec (.publicationFromActive pub b) s = .next s) ∧
  (∀ (sub : Fin 256) (n m : Nat) (pv : PartnerCopy) (t : Nat) (s : State), (s.sub sub.val).judged = some m →
    n ≤ m → exec (.couplingDeadline sub n pv t) s = .next (s.at t))

/-! ## Chapter 12: the Tchicel core -/

/-- The register file (12 R535, R536): a register reads what was last written into it and no other register changes; z
reads zero and a write of it is discarded; the arrivals of a window are the departures of the window before it, modulo 15; at S
and M the names are registers of the trap window alone, at U of windows 0 to 14. -/
def Obligations.RegisterFile : Prop :=
  (∀ (k : CoreState) (n m : Nat) (v : DWord), n < 32 → m < 32 →
    (k.setReg n v).reg m = if m = n ∧ n ≠ 0 then v else k.reg m) ∧
  (∀ k : CoreState, k.reg 0 = 0) ∧
  (∀ (k : CoreState) (v : DWord), k.setReg 0 v = k) ∧
  (∀ (k : CoreState) (w n : Nat), 8 ≤ n → n < 16 → k.winReg ((w + 1) % 15) n = k.winReg (w % 15) (n + 16)) ∧
  (∀ (k : CoreState) (w v n : Nat), n < 8 → k.winReg w n = k.winReg v n) ∧
  (∀ (k : CoreState) (w n m : Nat) (v : DWord), w < 15 → n < 32 → m < 32 →
    (k.setWinReg w n v).winReg w m = if m = n ∧ n ≠ 0 then v else k.winReg w m) ∧
  (∀ (k : CoreState) (n : Nat) (v : DWord), k.level ≠ 0 → (k.setReg n v).g = k.g ∧ (k.setReg n v).win = k.win) ∧
  (∀ (k : CoreState) (n : Nat) (v : DWord), k.level = 0 → (k.setReg n v).trap = k.trap) ∧
  (∀ (k : CoreState) (n : Nat) (v : DWord), (k.setReg n v).f = k.f ∧ (k.setReg n v).pc = k.pc ∧ (k.setReg n v).fcsr = k.fcsr ∧
    (k.setReg n v).wstate = k.wstate ∧ (k.setReg n v).level = k.level ∧ (k.setReg n v).buf = k.buf)

/-- The words of the instruction groups (12 R547 to R549): no word belongs to two instructions, the pattern of each row is a
word of that row, and the two words that the spec writes out, ADD k3, a1, d2 and BRNE k0, z with an offset of −3 instructions,
are words of ADD and BRNE with the fields that it names; a word of zeros belongs to none. -/
def Obligations.OneInstructionPerWord : Prop :=
  (∀ w : Word, (coreRows.filter (fun e => e.fits w)).length ≤ 1) ∧
  (∀ e ∈ coreRows, e.fits e.pat = true) ∧
  (E.ADD.fits 0x001A4CC1 = true ∧ fDst 0x001A4CC1 = 19 ∧ fSrc1 0x001A4CC1 = 9 ∧ fSrc2 0x001A4CC1 = 26) ∧
  (E.BRNE.fits 0xFFFD0421 = true ∧ bSrc1 0xFFFD0421 = 16 ∧ bSrc2 0xFFFD0421 = 0 ∧ off16 0xFFFD0421 = BitVec.ofInt 64 (-12)) ∧
  (∀ e ∈ coreRows, e.fits 0 = false)

/-- Integer instructions of format A: the row, its words, and what DST takes from SRC1 and SRC2 (12 R549, R551). -/
def intA : List ((Fin 32 → Word → Instr) × Enc × (DWord → DWord → DWord)) := [
  (.coreAdd, E.ADD, fun a b => a + b), (.coreSub, E.SUB, fun a b => a - b),
  (.coreAnd, E.AND, fun a b => a &&& b), (.coreIor, E.IOR, fun a b => a ||| b), (.coreXor, E.XOR, fun a b => a ^^^ b),
  (.coreShl, E.SHL, fun a b => a <<< (b.toNat % 64)), (.coreShr, E.SHR, fun a b => a >>> (b.toNat % 64)),
  (.coreSha, E.SHA, fun a b => a.sshiftRight (b.toNat % 64)),
  (.coreLess, E.LESS, fun a b => if a.toInt < b.toInt then 1 else 0),
  (.coreLessu, E.LESSU, fun a b => if a.toNat < b.toNat then 1 else 0),
  (.coreMul, E.MUL, fun a b => a * b),
  (.coreMulhi, E.MULHI, fun a b => BitVec.ofInt 64 (a.toInt * b.toInt / 2 ^ 64)),
  (.coreMulhiu, E.MULHIU, fun a b => BitVec.ofNat 64 (a.toNat * b.toNat / 2 ^ 64)),
  (.coreMulhix, E.MULHIX, fun a b => BitVec.ofInt 64 (a.toInt * (b.toNat : Int) / 2 ^ 64)),
  (.coreDiv, E.DIV, fun a b => if b = 0 then 0 else a.sdiv b), (.coreDivu, E.DIVU, fun a b => if b = 0 then 0 else a / b),
  (.coreMod, E.MOD, fun a b => if b = 0 then a else a.srem b), (.coreModu, E.MODU, fun a b => if b = 0 then a else a % b),
  (.coreAdd32, E.ADD32, fun a b => ((a + b).extractLsb' 0 32).signExtend 64),
  (.coreSub32, E.SUB32, fun a b => ((a - b).extractLsb' 0 32).signExtend 64),
  (.coreShl32, E.SHL32, fun a b => (a.extractLsb' 0 32 <<< (b.toNat % 32)).signExtend 64),
  (.coreShr32, E.SHR32, fun a b => (a.extractLsb' 0 32 >>> (b.toNat % 32)).signExtend 64),
  (.coreSha32, E.SHA32, fun a b => ((a.extractLsb' 0 32).sshiftRight (b.toNat % 32)).signExtend 64),
  (.coreMul32, E.MUL32, fun a b => ((a * b).extractLsb' 0 32).signExtend 64),
  (.coreDiv32, E.DIV32, fun a b => ((a.extractLsb' 0 32).sdiv (b.extractLsb' 0 32)).signExtend 64),
  (.coreDivu32, E.DIVU32, fun a b => (a.extractLsb' 0 32 / b.extractLsb' 0 32).signExtend 64),
  (.coreMod32, E.MOD32, fun a b => ((a.extractLsb' 0 32).srem (b.extractLsb' 0 32)).signExtend 64),
  (.coreModu32, E.MODU32, fun a b => (a.extractLsb' 0 32 % b.extractLsb' 0 32).signExtend 64)]

/-- Integer instructions with an immediate: the row, its words, what DST takes from SRC1, and from the word (12 R548, R549). -/
def intI : List ((Fin 32 → Word → Instr) × Enc × (DWord → Word → DWord)) := [
  (.coreAddk, E.ADDK, fun a w => a + (w.extractLsb' 16 16).signExtend 64),
  (.coreAndk, E.ANDK, fun a w => a &&& (w.extractLsb' 16 16).signExtend 64),
  (.coreIork, E.IORK, fun a w => a ||| (w.extractLsb' 16 16).zeroExtend 64),
  (.coreXork, E.XORK, fun a w => a ^^^ (w.extractLsb' 16 16).zeroExtend 64),
  (.coreLessk, E.LESSK, fun a w => if a.toInt < (w.extractLsb' 16 16).toInt then 1 else 0),
  (.coreLessuk, E.LESSUK, fun a w => if a.toNat < ((w.extractLsb' 16 16).signExtend 64).toNat then 1 else 0),
  (.coreAdd32k, E.ADD32K, fun a w => (a.extractLsb' 0 32 + (w.extractLsb' 16 16).signExtend 32).signExtend 64),
  (.coreMkhi, E.MKHI, fun _ w => (w.extractLsb' 11 21).signExtend 64 * 65536)]

/-- The integer group (12 R548, R549, R551): for every row and every word of it, on every operand, DST takes the result of SRC1
and SRC2 or the immediate, a write of z is discarded, the next instruction is at PC + 4, one more instruction has retired, and
nothing else in the machine changes; SHIFTK with kind 3 is ILLEGAL. Completes: coreAdd, coreSub, coreAnd, coreIor, coreXor,
coreShl, coreShr, coreSha, coreLess, coreLessu, coreMul, coreMulhi, coreMulhiu, coreMulhix, coreDiv, coreDivu, coreMod,
coreModu, coreAdd32, coreSub32, coreShl32, coreShr32, coreSha32, coreMul32, coreDiv32, coreDivu32, coreMod32, coreModu32,
coreAddk, coreAndk, coreIork, coreXork, coreLessk, coreLessuk, coreAdd32k, coreMkhi, corePchi, coreShiftk. -/
def Obligations.IntegerGroup : Prop :=
  (∀ r ∈ intA, ∀ (c : Fin 32) (w : Word) (s : State), s.Fetches c.val w r.2.1 → Steps (exec (r.1 c w) s) fun u =>
    OnlyCore s u c.val (((s.core c.val).setReg (fDst w) (r.2.2 (s.xr c.val (fSrc1 w)) (s.xr c.val (fSrc2 w)))).next
      ((s.core c.val).pc + 4))) ∧
  (∀ r ∈ intI, ∀ (c : Fin 32) (w : Word) (s : State), s.Fetches c.val w r.2.1 → Steps (exec (r.1 c w) s) fun u =>
    OnlyCore s u c.val (((s.core c.val).setReg (fDst w) (r.2.2 (s.xr c.val (fSrc1 w)) w)).next ((s.core c.val).pc + 4))) ∧
  (∀ (c : Fin 32) (w : Word) (s : State), s.Fetches c.val w E.PCHI → Steps (exec (.corePchi c w) s) fun u =>
    OnlyCore s u c.val (((s.core c.val).setReg (fDst w) ((s.core c.val).pc + (w.extractLsb' 11 21).signExtend 64 * 65536)).next
      ((s.core c.val).pc + 4))) ∧
  (∀ (c : Fin 32) (w : Word) (s : State), s.Fetches c.val w E.SHIFTK → getBits w 24 2 ≠ 3 → w.getLsbD 26 = false →
    Steps (exec (.coreShiftk c w) s) fun u => OnlyCore s u c.val (((s.core c.val).setReg (fDst w)
      (if getBits w 24 2 = 0 then s.xr c.val (fSrc1 w) <<< getBits w 16 6
        else if getBits w 24 2 = 1 then s.xr c.val (fSrc1 w) >>> getBits w 16 6
        else (s.xr c.val (fSrc1 w)).sshiftRight (getBits w 16 6))).next ((s.core c.val).pc + 4))) ∧
  (∀ (c : Fin 32) (w : Word) (s : State), s.Fetches c.val w E.SHIFTK → getBits w 24 2 ≠ 3 → w.getLsbD 26 = true →
    Steps (exec (.coreShiftk c w) s) fun u => OnlyCore s u c.val (((s.core c.val).setReg (fDst w)
      ((if getBits w 24 2 = 0 then (s.xr c.val (fSrc1 w)).extractLsb' 0 32 <<< getBits w 16 5
        else if getBits w 24 2 = 1 then (s.xr c.val (fSrc1 w)).extractLsb' 0 32 >>> getBits w 16 5
        else ((s.xr c.val (fSrc1 w)).extractLsb' 0 32).sshiftRight (getBits w 16 5)).signExtend 64)).next
      ((s.core c.val).pc + 4))) ∧
  (∀ (c : Fin 32) (w : Word) (s : State), s.Fetches c.val w E.SHIFTK → getBits w 24 2 = 3 → (s.core c.val).level = 0 →
    s.StoresGood c.val → Steps (exec (.coreShiftk c w) s) fun u =>
      Enters s u c.val 0 0 (s.core c.val).pc ∧ (u.core c.val).tval = w.zeroExtend 64)

/-- Branches: the row, its words, and when it is taken (12 R549). -/
def brB : List ((Fin 32 → Word → Instr) × Enc × (DWord → DWord → Prop)) := [
  (.coreBreq, E.BREQ, fun a b => a = b), (.coreBrne, E.BRNE, fun a b => a ≠ b),
  (.coreBrlt, E.BRLT, fun a b => a.toInt < b.toInt), (.coreBrge, E.BRGE, fun a b => b.toInt ≤ a.toInt),
  (.coreBrltu, E.BRLTU, fun a b => a.toNat < b.toNat), (.coreBrgeu, E.BRGEU, fun a b => b.toNat ≤ a.toNat)]

/-- Branches, jumps and calls (12 R548, R549, R577): a taken branch goes to its own address + 4 × offset, any other to PC + 4,
and no register changes; JMP and CALL go to their own address + 4 × offset, JMPR and CALLR to SRC1 + IMM16 with bits 1:0
cleared; CALL and CALLR leave PC + 4 in d7, JMPR in DST; each enters the signature, and nothing else in the machine changes.
Where the spec leaves a point open the clause is the model's choice (assumption 51). Completes: coreBreq, coreBrne, coreBrlt,
coreBrge, coreBrltu, coreBrgeu, coreJmp, coreCall, coreJmpr, coreCallr. -/
def Obligations.BranchesAndJumps : Prop :=
  (∀ r ∈ brB, ∀ (c : Fin 32) (w : Word) (s : State), s.Fetches c.val w r.2.1 →
    r.2.2 (s.xr c.val (bSrc1 w)) (s.xr c.val (bSrc2 w)) → Steps (exec (r.1 c w) s) fun u =>
      OnlyCore s u c.val (((s.core c.val).signed true ((s.core c.val).pc + 4 * (w.extractLsb' 16 16).signExtend 64)).next
        ((s.core c.val).pc + 4 * (w.extractLsb' 16 16).signExtend 64))) ∧
  (∀ r ∈ brB, ∀ (c : Fin 32) (w : Word) (s : State), s.Fetches c.val w r.2.1 →
    ¬ r.2.2 (s.xr c.val (bSrc1 w)) (s.xr c.val (bSrc2 w)) → Steps (exec (r.1 c w) s) fun u =>
      OnlyCore s u c.val (((s.core c.val).signed false ((s.core c.val).pc + 4 * (w.extractLsb' 16 16).signExtend 64)).next
        ((s.core c.val).pc + 4))) ∧
  (∀ (c : Fin 32) (w : Word) (s : State), s.Fetches c.val w E.JMP → Steps (exec (.coreJmp c w) s) fun u =>
    OnlyCore s u c.val (((s.core c.val).signed true ((s.core c.val).pc + 4 * (w.extractLsb' 6 26).signExtend 64)).next
      ((s.core c.val).pc + 4 * (w.extractLsb' 6 26).signExtend 64))) ∧
  (∀ (c : Fin 32) (w : Word) (s : State), s.Fetches c.val w E.CALL → Steps (exec (.coreCall c w) s) fun u =>
    OnlyCore s u c.val ((((s.core c.val).setReg 31 ((s.core c.val).pc + 4)).signed true
      ((s.core c.val).pc + 4 * (w.extractLsb' 6 26).signExtend 64)).next
      ((s.core c.val).pc + 4 * (w.extractLsb' 6 26).signExtend 64))) ∧
  (∀ (c : Fin 32) (w : Word) (s : State), s.Fetches c.val w E.JMPR → Steps (exec (.coreJmpr c w) s) fun u =>
    OnlyCore s u c.val ((((s.core c.val).setReg (fDst w) ((s.core c.val).pc + 4)).signed true
      ((s.xr c.val (fSrc1 w) + (w.extractLsb' 16 16).signExtend 64) &&& ~~~(3 : DWord))).next
      ((s.xr c.val (fSrc1 w) + (w.extractLsb' 16 16).signExtend 64) &&& ~~~(3 : DWord)))) ∧
  (∀ (c : Fin 32) (w : Word) (s : State), s.Fetches c.val w E.CALLR → Steps (exec (.coreCallr c w) s) fun u =>
    OnlyCore s u c.val ((((s.core c.val).setReg 31 ((s.core c.val).pc + 4)).signed true
      ((s.xr c.val (fSrc1 w) + (w.extractLsb' 16 16).signExtend 64) &&& ~~~(3 : DWord))).next
      ((s.xr c.val (fSrc1 w) + (w.extractLsb' 16 16).signExtend 64) &&& ~~~(3 : DWord))))

/-- Windows (12 R538 to R541, R546): ENTER below 14 resident windows makes the next window current, with the caller's departures
as its arrivals, the globals kept, its kept registers and departures zero and every other window as it was; with 14 it raises
WIN_OVF and changes no register; LEAVE and RET make the caller's window current, RET going to a7 with bits 1:0 cleared; with one
resident window they raise WIN_UNF where a window is spilled and are ILLEGAL where none is; in the trap window all three are a
trap there. Completes: coreEnter, coreLeave, coreRet. -/
def Obligations.WindowInstructions : Prop :=
  (∀ (c : Fin 32) (w : Word) (s : State), s.Fetches c.val w E.ENTER → (s.core c.val).level = 0 → (s.core c.val).cwp < 15 →
    (s.core c.val).res < 14 → Steps (exec (.coreEnter c w) s) fun u =>
      OnlyCore s u c.val { (s.core c.val).next ((s.core c.val).pc + 4) with
        win := (u.core c.val).win
        wstate := wstateOf (((s.core c.val).cwp + 1) % 15) ((s.core c.val).res + 1) (s.core c.val).spilled } ∧
      (∀ n, n < 8 → u.xr c.val n = s.xr c.val n) ∧ (∀ n, 8 ≤ n → n < 16 → u.xr c.val n = s.xr c.val (n + 16)) ∧
      (∀ n, 16 ≤ n → n < 32 → u.xr c.val n = 0) ∧
      (∀ v n, v < 15 → v ≠ ((s.core c.val).cwp + 1) % 15 → 16 ≤ n → n < 32 →
        (u.core c.val).winReg v n = (s.core c.val).winReg v n)) ∧
  (∀ (c : Fin 32) (w : Word) (s : State), s.Fetches c.val w E.ENTER → (s.core c.val).level = 0 → 14 ≤ (s.core c.val).res →
    s.StoresGood c.val → Steps (exec (.coreEnter c w) s) fun u =>
      Enters s u c.val 7 7 (s.core c.val).pc ∧ u.regs = (s.flush c.val).regs) ∧
  (∀ (c : Fin 32) (w : Word) (s : State), s.Fetches c.val w E.LEAVE → (s.core c.val).level = 0 → 2 ≤ (s.core c.val).res →
    Steps (exec (.coreLeave c w) s) fun u => OnlyCore s u c.val { (s.core c.val).next ((s.core c.val).pc + 4) with
      wstate := wstateOf (((s.core c.val).cwp + 14) % 15) ((s.core c.val).res - 1) (s.core c.val).spilled }) ∧
  (∀ (c : Fin 32) (w : Word) (s : State), s.Fetches c.val w E.RET → (s.core c.val).level = 0 → 2 ≤ (s.core c.val).res →
    Steps (exec (.coreRet c w) s) fun u => OnlyCore s u c.val
      { ((s.core c.val).signed true (s.xr c.val 15 &&& ~~~(3 : DWord))).next (s.xr c.val 15 &&& ~~~(3 : DWord)) with
        wstate := wstateOf (((s.core c.val).cwp + 14) % 15) ((s.core c.val).res - 1) (s.core c.val).spilled }) ∧
  (∀ r ∈ [((.coreLeave : Fin 32 → Word → Instr), E.LEAVE), (.coreRet, E.RET)], ∀ (c : Fin 32) (w : Word) (s : State),
    s.Fetches c.val w r.2 → (s.core c.val).level = 0 → (s.core c.val).res = 1 → 1 ≤ (s.core c.val).spilled →
    s.StoresGood c.val → Steps (exec (r.1 c w) s) fun u => Enters s u c.val 8 8 (s.core c.val).pc ∧ u.regs = (s.flush c.val).regs) ∧
  (∀ r ∈ [((.coreLeave : Fin 32 → Word → Instr), E.LEAVE), (.coreRet, E.RET)], ∀ (c : Fin 32) (w : Word) (s : State),
    s.Fetches c.val w r.2 → (s.core c.val).level = 0 → (s.core c.val).res = 1 → (s.core c.val).spilled = 0 →
    s.StoresGood c.val → Steps (exec (r.1 c w) s) fun u =>
      Enters s u c.val 0 0 (s.core c.val).pc ∧ (u.core c.val).tval = w.zeroExtend 64) ∧
  (∀ r ∈ [((.coreEnter : Fin 32 → Word → Instr), E.ENTER), (.coreLeave, E.LEAVE), (.coreRet, E.RET)],
    ∀ (c : Fin 32) (w : Word) (s : State), s.Fetches c.val w r.2 → (s.core c.val).level ≠ 0 →
    exec (r.1 c w) s = .next (s.doubleFault c.val))

/-- Loads at SRC1 + IMM16: the row, its words, the bytes, and what the core pair becomes with the value read (12 R537, R549). -/
def loadRows : List ((Fin 32 → Word → Instr) × Enc × Nat × (CoreState → Nat → Nat → CoreState)) := [
  (.coreLd8s, E.LD8S, 1, fun k d v => k.setReg d ((BitVec.ofNat 8 v).signExtend 64)),
  (.coreLd8u, E.LD8U, 1, fun k d v => k.setReg d (BitVec.ofNat 64 v)),
  (.coreLd16s, E.LD16S, 2, fun k d v => k.setReg d ((BitVec.ofNat 16 v).signExtend 64)),
  (.coreLd16u, E.LD16U, 2, fun k d v => k.setReg d (BitVec.ofNat 64 v)),
  (.coreLd32s, E.LD32S, 4, fun k d v => k.setReg d ((BitVec.ofNat 32 v).signExtend 64)),
  (.coreLd32u, E.LD32U, 4, fun k d v => k.setReg d (BitVec.ofNat 64 v)),
  (.coreLd64, E.LD64, 8, fun k d v => k.setReg d (BitVec.ofNat 64 v)),
  (.coreFld32, E.FLD32, 4, fun k d v => { k with f := tset 0 k.f d (BitVec.ofNat 64 v) }),
  (.coreFld64, E.FLD64, 8, fun k d v => { k with f := tset 0 k.f d (BitVec.ofNat 64 v) })]

/-- What core pair `c` reads at an address: memory under its own stores (12 R555). -/
def seen (s : State) (c a n : Nat) : Nat := leNat ((List.range n).map fun i => bufByte (s.core c).buf (a + i) (s.memB (a + i)))

/-- Loads (03 R108, R122, R124; 12 R537, R549, R554, R555, R559, R565; 13 R602): an aligned load that is allowed takes the bytes
of memory, as the core pair's own earlier stores leave them, sign-extended or zero-extended, and nothing else changes; from a
register of management space, and from SRAM that holds the module's own data, it takes what stands there once the earlier stores
have left, a value that the spec does not place being a free one (assumption 30); a misaligned one is ALIGN, a denied one is
recorded and is ACCESS_D, a poisoned one or one from a channel that is off is LOAD_ERR with its address. LDPC reads eight bytes
at PC with bits 2:0 cleared + 8 × IMM21. Completes: coreLd8s, coreLd8u, coreLd16s, coreLd16u, coreLd32s, coreLd32u, coreLd64,
coreFld32, coreFld64, coreLdpc. -/
def Obligations.Loads : Prop :=
  (∀ r ∈ loadRows, ∀ (c : Fin 32) (w : Word) (s : State) (a : Nat), s.Fetches c.val w r.2.1 →
    a = (s.xr c.val (fSrc1 w) + (w.extractLsb' 16 16).signExtend 64).toNat → a % r.2.2.1 = 0 →
    s.denied? c.val (s.core c.val).level 0 a = none → isMgmt a = false → imageSram a = false →
    s.hbmOff a = false → s.poisoned a r.2.2.1 = false →
    Steps (exec (r.1 c w) s) fun u =>
      OnlyCore s u c.val ((r.2.2.2 (s.core c.val) (fDst w) (seen s c.val a r.2.2.1)).next ((s.core c.val).pc + 4))) ∧
  (∀ r ∈ loadRows, ∀ (c : Fin 32) (w : Word) (s : State) (a : Nat), s.Fetches c.val w r.2.1 →
    a = (s.xr c.val (fSrc1 w) + (w.extractLsb' 16 16).signExtend 64).toNat → a % r.2.2.1 = 0 →
    s.denied? c.val (s.core c.val).level 0 a = none → isMgmt a = false → imageSram a = true → s.poisoned a r.2.2.1 = false →
    exec (r.1 c w) s = .next (((((s.flush c.val).sramLoad a r.2.2.1).1.co c.val fun k =>
      r.2.2.2 k (fDst w) ((s.flush c.val).sramLoad a r.2.2.1).2)).retire c.val)) ∧
  (∀ r ∈ loadRows, ∀ (c : Fin 32) (w : Word) (s : State) (a : Nat), s.Fetches c.val w r.2.1 →
    a = (s.xr c.val (fSrc1 w) + (w.extractLsb' 16 16).signExtend 64).toNat → a % r.2.2.1 = 0 →
    s.denied? c.val (s.core c.val).level 0 a = none → isMgmt a = true → loadAllowed (mgmtOff a) r.2.2.1 = true →
    s.mgmtOffline a = none → (s.flush c.val).windowPoisoned (mgmtOff a) r.2.2.1 = false →
    exec (r.1 c w) s = .next (((((s.flush c.val).mgmtLoad (mgmtOff a) r.2.2.1).1.co c.val fun k =>
      r.2.2.2 k (fDst w) ((s.flush c.val).mgmtLoad (mgmtOff a) r.2.2.1).2)).retire c.val)) ∧
  (∀ r ∈ loadRows, ∀ (c : Fin 32) (w : Word) (s : State) (a : Nat), s.Fetches c.val w r.2.1 →
    a = (s.xr c.val (fSrc1 w) + (w.extractLsb' 16 16).signExtend 64).toNat → a % r.2.2.1 ≠ 0 → (s.core c.val).level = 0 →
    s.StoresGood c.val → Steps (exec (r.1 c w) s) fun u =>
      Enters s u c.val 1 1 (s.core c.val).pc ∧ (u.core c.val).tval = BitVec.ofNat 64 a) ∧
  (∀ r ∈ loadRows, ∀ (c : Fin 32) (w : Word) (s : State) (a m i : Nat), s.Fetches c.val w r.2.1 →
    a = (s.xr c.val (fSrc1 w) + (w.extractLsb' 16 16).signExtend 64).toNat → a % r.2.2.1 = 0 → (s.core c.val).level = 0 →
    s.denied? c.val 0 0 a = some (m, i) → s.StoresGood c.val →
    (∀ p, (s.core c.val).cur = some p → p < 256) → Steps (exec (r.1 c w) s) fun u =>
      Enters s u c.val 3 3 (s.core c.val).pc ∧ (u.core c.val).tval = BitVec.ofNat 64 a ∧
      u.rdN (R.ACC_FADDR_LO c.val) = a % 2 ^ 32 ∧ (u.rd R.ACC_STATUS).getLsbD c.val = true) ∧
  (∀ r ∈ loadRows, ∀ (c : Fin 32) (w : Word) (s : State) (a : Nat), s.Fetches c.val w r.2.1 →
    a = (s.xr c.val (fSrc1 w) + (w.extractLsb' 16 16).signExtend 64).toNat → a % r.2.2.1 = 0 → (s.core c.val).level = 0 →
    s.denied? c.val 0 0 a = none → isMgmt a = false → s.hbmOff a = false →
    s.poisoned a r.2.2.1 = true → s.StoresGood c.val →
    Steps (exec (r.1 c w) s) fun u =>
      Enters s u c.val 5 5 (s.core c.val).pc ∧ (u.core c.val).tval = BitVec.ofNat 64 a) ∧
  (∀ (c : Fin 32) (w : Word) (s : State) (a : Nat), s.Fetches c.val w E.LDPC →
    a = (((s.core c.val).pc &&& ~~~(7 : DWord)) + 8 * (w.extractLsb' 11 21).signExtend 64).toNat →
    s.denied? c.val (s.core c.val).level 0 a = none → isMgmt a = false → imageSram a = false → s.hbmOff a = false →
    s.poisoned a 8 = false →
    Steps (exec (.coreLdpc c w) s) fun u => OnlyCore s u c.val
      (((s.core c.val).setReg (fDst w) (BitVec.ofNat 64 (seen s c.val a 8))).next ((s.core c.val).pc + 4))) ∧
  (∀ r ∈ loadRows, ∀ (c : Fin 32) (w : Word) (s : State) (a : Nat), s.Fetches c.val w r.2.1 →
    a = (s.xr c.val (fSrc1 w) + (w.extractLsb' 16 16).signExtend 64).toNat → a % r.2.2.1 = 0 → (s.core c.val).level = 0 →
    s.denied? c.val 0 0 a = none → isMgmt a = false → s.hbmOff a = true → s.StoresGood c.val →
    Steps (exec (r.1 c w) s) fun u =>
      Enters s u c.val 5 5 (s.core c.val).pc ∧ (u.core c.val).tval = BitVec.ofNat 64 a)

/-- Stores at SRC1 + IMM16: the row, its words, the bytes, and the register that holds the data (12 R547, R549). -/
def storeRows : List ((Fin 32 → Word → Instr) × Enc × Nat × (CoreState → Nat → DWord)) := [
  (.coreSt8, E.ST8, 1, CoreState.reg), (.coreSt16, E.ST16, 2, CoreState.reg), (.coreSt32, E.ST32, 4, CoreState.reg),
  (.coreSt64, E.ST64, 8, CoreState.reg), (.coreFst32, E.FST32, 4, fun k n => tget 0 k.f n),
  (.coreFst64, E.FST64, 8, fun k n => tget 0 k.f n)]

/-- Stores (12 R549, R554, R555, R577, R578; 13 R602): an aligned store that is allowed puts the low bytes of its data into the
commit buffer and into the signature; no byte of memory changes yet, the core pair itself reads the new bytes at once and every
other byte as before; a register of management space takes the word once the earlier stores have left; a misaligned store is
ALIGN and a denied one is recorded and is ACCESS_D; while the commit buffer is full the core pair stalls, and the row may be
given again. Completes: coreSt8, coreSt16, coreSt32, coreSt64, coreFst32, coreFst64. -/
def Obligations.Stores : Prop :=
  (∀ r ∈ storeRows, ∀ (c : Fin 32) (w : Word) (s : State) (a : Nat), s.Fetches c.val w r.2.1 →
    a = (s.xr c.val (fSrc1 w) + (w.extractLsb' 16 16).signExtend 64).toNat → a % r.2.2.1 = 0 →
    s.denied? c.val (s.core c.val).level 1 a = none → isMgmt a = false → s.bufFull c.val a = false →
    Steps (exec (r.1 c w) s) fun u =>
      OnlyCore s u c.val { (s.core c.val).next ((s.core c.val).pc + 4) with
        buf := (s.core c.val).buf ++
          [{ addr := a, size := r.2.2.1, val := (r.2.2.2 (s.core c.val) (sData w)).toNat % 2 ^ (8 * r.2.2.1) }]
        sig := (le 8 a ++ le 8 ((r.2.2.2 (s.core c.val) (sData w)).toNat % 2 ^ (8 * r.2.2.1)) ++
          le 8 (2 ^ r.2.2.1 - 1)).foldl (crcByte 64 0x42F0E1EBA9EA3693) (s.core c.val).sig } ∧
      (∀ b, u.memB b = s.memB b) ∧
      (∀ i, i < r.2.2.1 → bufByte (u.core c.val).buf (a + i) (u.memB (a + i)) =
        (r.2.2.2 (s.core c.val) (sData w)).extractLsb' (8 * i) 8) ∧
      (∀ b, b < a ∨ a + r.2.2.1 ≤ b → bufByte (u.core c.val).buf b (u.memB b) = bufByte (s.core c.val).buf b (s.memB b))) ∧
  (∀ r ∈ storeRows, ∀ (c : Fin 32) (w : Word) (s : State) (a : Nat), s.Fetches c.val w r.2.1 →
    a = (s.xr c.val (fSrc1 w) + (w.extractLsb' 16 16).signExtend 64).toNat → a % r.2.2.1 = 0 →
    s.denied? c.val (s.core c.val).level 1 a = none → isMgmt a = true → storeRefused (mgmtOff a) r.2.2.1 = false →
    (mgmtOff a < 0x10000000 → r.2.2.1 = 4) → s.mgmtOffline a = none →
    exec (r.1 c w) s = .next (((s.flush c.val).mgmtStore (some c.val) (s.core c.val).level (mgmtOff a)
      ((r.2.2.2 (s.core c.val) (sData w)).truncate 32)).1.retire c.val)) ∧
  (∀ r ∈ storeRows, ∀ (c : Fin 32) (w : Word) (s : State) (a : Nat), s.Fetches c.val w r.2.1 →
    a = (s.xr c.val (fSrc1 w) + (w.extractLsb' 16 16).signExtend 64).toNat → a % r.2.2.1 ≠ 0 → s.bufFull c.val a = false → (s.core c.val).level = 0 →
    s.StoresGood c.val → Steps (exec (r.1 c w) s) fun u =>
      Enters s u c.val 1 1 (s.core c.val).pc ∧ (u.core c.val).tval = BitVec.ofNat 64 a) ∧
  (∀ r ∈ storeRows, ∀ (c : Fin 32) (w : Word) (s : State) (a m i : Nat), s.Fetches c.val w r.2.1 →
    a = (s.xr c.val (fSrc1 w) + (w.extractLsb' 16 16).signExtend 64).toNat → a % r.2.2.1 = 0 → (s.core c.val).level = 0 →
    s.denied? c.val 0 1 a = some (m, i) → s.bufFull c.val a = false → s.StoresGood c.val →
    (∀ p, (s.core c.val).cur = some p → p < 256) → Steps (exec (r.1 c w) s) fun u =>
      Enters s u c.val 3 3 (s.core c.val).pc ∧ (u.core c.val).tval = BitVec.ofNat 64 a ∧
      u.rdN (R.ACC_FADDR_LO c.val) = a % 2 ^ 32 ∧ (u.rd R.ACC_STATUS).getLsbD c.val = true) ∧
  (∀ r ∈ storeRows, ∀ (c : Fin 32) (w : Word) (s : State) (a : Nat), s.Fetches c.val w r.2.1 →
    a = (s.xr c.val (fSrc1 w) + (w.extractLsb' 16 16).signExtend 64).toNat → s.bufFull c.val a = true →
    exec (r.1 c w) s = .next s)

/-- Stores leaving the island (05 R221; 12 R555, R556, R558, R577 to R580, R584): FENCE and a signature window that closes with equal
signatures write the waiting stores to memory, so that memory reads as the core pair saw it, but for the undo journal of its
activation; nothing waits any more; a window that closes with both comparators in mismatch discards them: memory is unchanged, the
core pair resets, and 0x4022 and the mismatch count say so; a disagreement of the comparators discards them too and sets DISAGREE
with 0xA004. Completes: coreFence, signatureWindowClose, lockstepResetComplete. -/
def Obligations.StoresLeave : Prop :=
  (∀ (c : Fin 32) (w : Word) (s : State), s.Fetches c.val w E.FENCE → s.PlainStores c.val →
    Steps (exec (.coreFence c w) s) fun u =>
    u.core c.val = { (s.core c.val).next ((s.core c.val).pc + 4) with
      buf := [], sig := 2 ^ 64 - 1, windows := (s.core c.val).windows + 1 } ∧
    Left s u c.val ∧ (∀ j, j ≠ c.val → u.core j = s.core j) ∧
    u.regs = s.regs ∧ u.recd = s.recd ∧ u.flash = s.flash) ∧
  (∀ (c : Fin 32) (dup : Bool) (t : Nat) (s : State), s.coreRuns c.val = true → ((s.core c.val).dupOn = true → dup = true) →
    s.PlainStores c.val → Steps (exec (.signatureWindowClose c true dup t) s) fun u =>
      u.core c.val = { s.core c.val with buf := [], sig := 2 ^ 64 - 1, windows := (s.core c.val).windows + 1 } ∧
      Left s u c.val ∧ (∀ j, j ≠ c.val → u.core j = s.core j) ∧
      u.regs = s.regs ∧ u.recd = s.recd ∧ u.flash = s.flash) ∧
  (∀ (c : Fin 32) (dup : Bool) (t : Nat) (s : State), s.coreRuns c.val = true → ((s.core c.val).dupOn = true → dup = false) →
    (∀ r ∈ (s.core c.val).resets, r + 1000000000 ≤ max s.now t) → s.Room c.val →
    Steps (exec (.signatureWindowClose c false dup t) s) fun u =>
      u.mem = s.mem ∧ (u.core c.val).resetting = true ∧ (u.core c.val).buf = [] ∧ (u.core c.val).level = 3 ∧
      (u.core c.val).pc = (s.core c.val).mtvec ∧ (∀ n, (u.core c.val).reg n = 0) ∧
      u.get (F.CYC_CORE_LOCKSTEP c.val) = min (s.get (F.CYC_CORE_LOCKSTEP c.val) + 1) (2 ^ (F.CYC_CORE_LOCKSTEP c.val).len - 1) ∧
      (∃ r ∈ u.recd.queue, r.code = 0x4022 ∧ r.island = c.val ∧ r.data = [])) ∧
  (∀ (c : Fin 32) (primary : Bool) (t : Nat) (s : State), s.coreRuns c.val = true → (s.core c.val).dupOn = true →
    s.isActive = true → s.twin.switch = none → s.canSwitch = false → s.Room c.val →
    (∀ r ∈ s.image.parts, r.core = c.val → s.pst r.part = 1) →
    Steps (exec (.signatureWindowClose c primary (!primary) t) s) fun u =>
      u.mem = s.mem ∧ (u.core c.val).lsStatus.getLsbD 4 = true ∧ u.get (F.CYC_CORE_STATE c.val) = 2 ∧
      (∃ r ∈ u.recd.queue, r.code = 0xA004 ∧ r.island = c.val)) ∧
  (∀ (c : Fin 32) (s : State), Steps (exec (.lockstepResetComplete c) s) fun u =>
    OnlyCore s u c.val { s.core c.val with resetting := false }) ∧
  (∀ (c : Fin 32) (primary dup : Bool) (t : Nat) (s : State), s.coreRuns c.val = false →
    exec (.signatureWindowClose c primary dup t) s = .next (s.at t))

/-- A floating operand of a width: binary32 reads bits 31:0 only (12 R537). -/
def fpIn (k : CoreState) (wide : Bool) (n : Nat) : Nat := if wide then (tget 0 k.f n).toNat else (tget 0 k.f n).toNat % 2 ^ 32

/-- What a floating result leaves in the core pair: its flags stay set in FCSR, DST is written (12 R537, R552). -/
def fpOut (k : CoreState) (w : Word) (int : Bool) (r : FRes) : CoreState :=
  let k1 := { k with fcsr := k.fcsr ||| r.flags }
  if int then k1.setReg (fDst w) (BitVec.ofNat 64 r.bits) else { k1 with f := tset 0 k1.f (fDst w) (BitVec.ofNat 64 r.bits) }

/-- Floating instructions that never round: the row, its words, whether DST is an integer register, and the result from the width
and the patterns of SRC1 and SRC2 (12 R549, R552). -/
def fpPlain : List ((Fin 32 → Word → Instr) × Enc × Bool × (Bool → Nat → Nat → FRes)) := [
  (.coreFmin, E.FMIN, false, fun b x y => (fmtOf b).pick false x y), (.coreFmax, E.FMAX, false, fun b x y => (fmtOf b).pick true x y),
  (.coreFabs, E.FABS, false, fun b x _ => { bits := (fmtOf b).withSign x false }),
  (.coreFneg, E.FNEG, false, fun b x _ => { bits := (fmtOf b).withSign x (!(fmtOf b).signBit x) }),
  (.coreFcsgn, E.FCSGN, false, fun b x y => { bits := (fmtOf b).withSign x ((fmtOf b).signBit y) }),
  (.coreFcmpeq, E.FCMPEQ, true, fun b x y => (fmtOf b).compare 0 x y),
  (.coreFcmplt, E.FCMPLT, true, fun b x y => (fmtOf b).compare 1 x y),
  (.coreFcmple, E.FCMPLE, true, fun b x y => (fmtOf b).compare 2 x y),
  (.coreFkind, E.FKIND, true, fun b x _ => { bits := (fmtOf b).kind x }), (.coreFtobits, E.FTOBITS, true, fun _ x _ => { bits := x })]

/-- Floating instructions that round by RM: the row, its words, whether DST is an integer register, and the result from the width,
the mode, the patterns of SRC1, SRC2 and SRC3 and the integer SRC1 (12 R549, R552). -/
def fpRound : List ((Fin 32 → Word → Instr) × Enc × Bool × (Bool → RMode → Nat → Nat → Nat → DWord → FRes)) := [
  (.coreFadd, E.FADD, false, fun b m x y _ _ => (fmtOf b).addV m ((fmtOf b).unpack x) ((fmtOf b).unpack y)),
  (.coreFsub, E.FSUB, false, fun b m x y _ _ => (fmtOf b).addV m ((fmtOf b).unpack x) ((fmtOf b).unpack y).flip),
  (.coreFmul, E.FMUL, false, fun b m x y _ _ => (fmtOf b).mulV m ((fmtOf b).unpack x) ((fmtOf b).unpack y)),
  (.coreFdiv, E.FDIV, false, fun b m x y _ _ => (fmtOf b).divV m ((fmtOf b).unpack x) ((fmtOf b).unpack y)),
  (.coreFsqrt, E.FSQRT, false, fun b m x _ _ _ => (fmtOf b).sqrtV m ((fmtOf b).unpack x)),
  (.coreFtoi64, E.FTOI64, true, fun b m x _ _ _ => (fmtOf b).toInteger m (-(2 ^ 63)) (2 ^ 63 - 1) x),
  (.coreFtou64, E.FTOU64, true, fun b m x _ _ _ => (fmtOf b).toInteger m 0 (2 ^ 64 - 1) x),
  (.coreFtoi32, E.FTOI32, true, fun b m x _ _ _ => (fmtOf b).toInteger m (-(2 ^ 31)) (2 ^ 31 - 1) x),
  (.coreFtou32, E.FTOU32, true, fun b m x _ _ _ => (fmtOf b).toInteger m 0 (2 ^ 32 - 1) x),
  (.coreI64tof, E.I64TOF, false, fun b m _ _ _ i => (fmtOf b).ofInt m i.toInt),
  (.coreU64tof, E.U64TOF, false, fun b m _ _ _ i => (fmtOf b).ofInt m i.toNat)]

/-- The fused rows: the row, its words, whether the product and whether the addend is negated (12 R549). -/
def fpFused : List ((Fin 32 → Word → Instr) × Enc × Bool × Bool) := [
  (.coreFmac, E.FMAC, false, false), (.coreFmsc, E.FMSC, false, true), (.coreFnmac, E.FNMAC, true, false),
  (.coreFnmsc, E.FNMSC, true, true)]

/-- The floating group (12 R537, R549, R552, R553): every row on every operand of both widths writes its result into DST, sets
its flags in FCSR, retires, and changes nothing else; those that round do so by RM, and with an RM of 5 to 7 they are ILLEGAL;
the conversions of 32-bit integers are exact in binary64, as FWIDTH from binary32 is; no floating instruction traps otherwise.
Which of the conversions need RM is the model's reading (assumption 45). Completes: coreFmin, coreFmax, coreFabs, coreFneg,
coreFcsgn, coreFcmpeq, coreFcmplt, coreFcmple, coreFkind, coreFtobits, coreFadd, coreFsub, coreFmul, coreFdiv, coreFsqrt,
coreFtoi64, coreFtou64, coreFtoi32, coreFtou32, coreI64tof, coreU64tof, coreFmac, coreFmsc, coreFnmac, coreFnmsc, coreI32tof,
coreU32tof, coreFwidth, coreBitstof. -/
def Obligations.FloatingGroup : Prop :=
  (∀ r ∈ fpPlain, ∀ (c : Fin 32) (w : Word) (s : State), s.Fetches c.val w r.2.1 → Steps (exec (r.1 c w) s) fun u =>
    OnlyCore s u c.val ((fpOut (s.core c.val) w r.2.2.1 (r.2.2.2 (fWide w) (fpIn (s.core c.val) (fWide w) (fSrc1 w))
      (fpIn (s.core c.val) (fWide w) (fSrc2 w)))).next ((s.core c.val).pc + 4))) ∧
  (∀ r ∈ fpRound, ∀ (c : Fin 32) (w : Word) (m : RMode) (s : State), s.Fetches c.val w r.2.1 →
    rmOf (s.core c.val).fcsr = some m → Steps (exec (r.1 c w) s) fun u =>
      OnlyCore s u c.val ((fpOut (s.core c.val) w r.2.2.1 (r.2.2.2 (fWide w) m (fpIn (s.core c.val) (fWide w) (fSrc1 w))
        (fpIn (s.core c.val) (fWide w) (fSrc2 w)) 0 (s.xr c.val (fSrc1 w)))).next ((s.core c.val).pc + 4))) ∧
  (∀ r ∈ fpFused, ∀ (c : Fin 32) (w : Word) (m : RMode) (s : State) (x y z : FVal), s.Fetches c.val w r.2.1 →
    rmOf (s.core c.val).fcsr = some m →
    x = (fmtOf (fWide6 w)).unpack (fpIn (s.core c.val) (fWide6 w) (fSrc1 w)) →
    y = (fmtOf (fWide6 w)).unpack (fpIn (s.core c.val) (fWide6 w) (fSrc2 w)) →
    z = (fmtOf (fWide6 w)).unpack (fpIn (s.core c.val) (fWide6 w) (fSrc3 w)) → Steps (exec (r.1 c w) s) fun u =>
      OnlyCore s u c.val ((fpOut (s.core c.val) w false ((fmtOf (fWide6 w)).fmaV m (if r.2.2.1 then x.flip else x) y
        (if r.2.2.2 then z.flip else z))).next ((s.core c.val).pc + 4))) ∧
  (∀ (c : Fin 32) (w : Word) (s : State), s.Fetches c.val w E.I32TOF → fWide w = true → Steps (exec (.coreI32tof c w) s) fun u =>
    OnlyCore s u c.val ((fpOut (s.core c.val) w false (f64.ofInt .rne ((s.xr c.val (fSrc1 w)).extractLsb' 0 32).toInt)).next
      ((s.core c.val).pc + 4))) ∧
  (∀ (c : Fin 32) (w : Word) (s : State), s.Fetches c.val w E.U32TOF → fWide w = true → Steps (exec (.coreU32tof c w) s) fun u =>
    OnlyCore s u c.val ((fpOut (s.core c.val) w false (f64.ofInt .rne ((s.xr c.val (fSrc1 w)).extractLsb' 0 32).toNat)).next
      ((s.core c.val).pc + 4))) ∧
  (∀ (c : Fin 32) (w : Word) (m : RMode) (s : State), s.Fetches c.val w E.I32TOF → fWide w = false →
    rmOf (s.core c.val).fcsr = some m → Steps (exec (.coreI32tof c w) s) fun u =>
    OnlyCore s u c.val ((fpOut (s.core c.val) w false (f32.ofInt m ((s.xr c.val (fSrc1 w)).extractLsb' 0 32).toInt)).next
      ((s.core c.val).pc + 4))) ∧
  (∀ (c : Fin 32) (w : Word) (m : RMode) (s : State), s.Fetches c.val w E.U32TOF → fWide w = false →
    rmOf (s.core c.val).fcsr = some m → Steps (exec (.coreU32tof c w) s) fun u =>
    OnlyCore s u c.val ((fpOut (s.core c.val) w false (f32.ofInt m ((s.xr c.val (fSrc1 w)).extractLsb' 0 32).toNat)).next
      ((s.core c.val).pc + 4))) ∧
  (∀ (c : Fin 32) (w : Word) (s : State), s.Fetches c.val w E.FWIDTH → fWide w = false → Steps (exec (.coreFwidth c w) s) fun u =>
    OnlyCore s u c.val ((fpOut (s.core c.val) w false (f32.convert f64 .rne (fpIn (s.core c.val) false (fSrc1 w)))).next
      ((s.core c.val).pc + 4))) ∧
  (∀ (c : Fin 32) (w : Word) (m : RMode) (s : State), s.Fetches c.val w E.FWIDTH → fWide w = true →
    rmOf (s.core c.val).fcsr = some m → Steps (exec (.coreFwidth c w) s) fun u =>
    OnlyCore s u c.val ((fpOut (s.core c.val) w false (f64.convert f32 m (fpIn (s.core c.val) true (fSrc1 w)))).next
      ((s.core c.val).pc + 4))) ∧
  (∀ (c : Fin 32) (w : Word) (s : State), s.Fetches c.val w E.BITSTOF → Steps (exec (.coreBitstof c w) s) fun u =>
    OnlyCore s u c.val (({ s.core c.val with
      f := tset 0 (s.core c.val).f (fDst w) (if fWide w then s.xr c.val (fSrc1 w) else ((s.xr c.val (fSrc1 w)).extractLsb' 0 32).zeroExtend 64) }).next
      ((s.core c.val).pc + 4))) ∧
  (∀ r ∈ fpRound, ∀ (c : Fin 32) (w : Word) (s : State), s.Fetches c.val w r.2.1 → rmOf (s.core c.val).fcsr = none →
    (s.core c.val).level = 0 → s.StoresGood c.val → Steps (exec (r.1 c w) s) fun u =>
      Enters s u c.val 0 0 (s.core c.val).pc ∧ (u.core c.val).tval = w.zeroExtend 64) ∧
  (∀ r ∈ fpFused, ∀ (c : Fin 32) (w : Word) (s : State), s.Fetches c.val w r.2.1 → rmOf (s.core c.val).fcsr = none →
    (s.core c.val).level = 0 → s.StoresGood c.val → Steps (exec (r.1 c w) s) fun u =>
      Enters s u c.val 0 0 (s.core c.val).pc ∧ (u.core c.val).tval = w.zeroExtend 64)

/-- NaNs and zeros (12 R552): with a NaN operand every rounding operation gives the canonical NaN, 0x7FFF_FFFF or
0x7FFF_FFFF_FFFF_FFFF, as FMIN and FMAX do with two; with one NaN they give the other operand; FMIN of zeros of both signs is −0
and FMAX +0; a comparison with a NaN gives 0; a conversion to an integer saturates out of range and gives 0 for a NaN, with INV. -/
def Obligations.CanonicalNaN : Prop :=
  (f32.nanBits = 0x7FFFFFFF ∧ f64.nanBits = 0x7FFFFFFFFFFFFFFF) ∧
  (∀ (b : Bool) (m : RMode) (x y : FVal), x.isNan = true ∨ y.isNan = true →
    ((fmtOf b).addV m x y).bits = (fmtOf b).nanBits ∧ ((fmtOf b).mulV m x y).bits = (fmtOf b).nanBits ∧
    ((fmtOf b).divV m x y).bits = (fmtOf b).nanBits) ∧
  (∀ (b : Bool) (m : RMode) (x y z : FVal), x.isNan = true ∨ y.isNan = true ∨ z.isNan = true →
    ((fmtOf b).fmaV m x y z).bits = (fmtOf b).nanBits) ∧
  (∀ (b : Bool) (m : RMode) (x : FVal), x.isNan = true → ((fmtOf b).sqrtV m x).bits = (fmtOf b).nanBits) ∧
  (∀ (b big : Bool) (x y : Nat), ((fmtOf b).unpack x).isNan = true → ((fmtOf b).unpack y).isNan = true →
    ((fmtOf b).pick big x y).bits = (fmtOf b).nanBits) ∧
  (∀ (b big : Bool) (x y : Nat), ((fmtOf b).unpack x).isNan = true → ((fmtOf b).unpack y).isNan = false →
    ((fmtOf b).pick big x y).bits = y ∧ ((fmtOf b).pick big y x).bits = y) ∧
  (∀ big : Bool, (f64.pick big 0 (2 ^ 63)).bits = (if big then 0 else 2 ^ 63) ∧
    (f64.pick big (2 ^ 63) 0).bits = (if big then 0 else 2 ^ 63)) ∧
  (∀ (b : Bool) (op x y : Nat), ((fmtOf b).unpack x).isNan = true ∨ ((fmtOf b).unpack y).isNan = true →
    ((fmtOf b).compare op x y).bits = 0) ∧
  (∀ (b : Bool) (m : RMode) (lo hi : Int) (x : Nat), ((fmtOf b).unpack x).isNan = true →
    ((fmtOf b).toInteger m lo hi x).bits = 0 ∧ ((fmtOf b).toInteger m lo hi x).inv = true) ∧
  (∀ (b : Bool) (m : RMode) (lo hi : Int) (x : Nat), lo ≤ 0 → 0 ≤ hi → ((fmtOf b).unpack x).isNan = false →
    ∃ i, lo ≤ i ∧ i ≤ hi ∧ ((fmtOf b).toInteger m lo hi x).bits = ofSigned 64 i)

/-- System registers that hold what is written, with the bits that they have (12 R538, R586). -/
def sysRows : List (Nat × DWord) := [
  (0x001, 0x71F), (0x300, 0xFFFF00FF), (0x301, 0xFFFFFFFFFFFFFFFF), (0x302, 0xFFFFFFFFFFFFFFFF), (0x303, 0xFFFFFFFFFFFFFFFF),
  (0x304, 7), (0x305, 0xFFFFFFFFFFFFFFFF), (0x306, 0xFFFFFFFFFFFFFFFF), (0x307, 7), (0x308, 0xFFFF00FF),
  (0x309, 0xFFFFFFFFFFFFFFFF), (0x30A, 0xFFFFFFFFFFFFFFFF), (0x30B, 0xFFFFFFFFFFFFFFC0), (0x30C, 0xFFFFFFFFFFFFFFFF),
  (0x800, 0xFFFFFFFFFFFFFFFF)]

/-- Rows that write a system register: the row, its words, the value from the old one and SRC1, whether DST takes the old one. -/
def sysWriteRows : List ((Fin 32 → Word → Instr) × Enc × (DWord → DWord → DWord) × Bool) := [
  (.coreSyswr, E.SYSWR, fun _ b => b, false), (.coreSysset, E.SYSSET, fun a b => a ||| b, true),
  (.coreSysclr, E.SYSCLR, fun a b => a &&& ~~~b, true)]

/-- System registers (12 R549, R550, R586): SYSRD reads a register that the level may read; SYSWR, SYSSET and SYSCLR write one
that it may write, bits not listed read zero afterwards, every other register and general register is as before but for DST,
which takes the old value; CORE_STATUS shows level, set and duplicated comparator, PAIR_INFO the number; writing ones to IPEND
clears them, and writing TEST starts the injection test while no U context is held; a register that is unassigned, above the
level or read-only for a write, and a CWP of 15, make the instruction ILLEGAL. CYCLE and LTIME read a free value (assumption 2).
Where the spec leaves a point open the clause is the model's choice (assumption 51). Completes: coreSysrd, coreSyswr,
coreSysset, coreSysclr. -/
def Obligations.SystemRegisters : Prop :=
  (∀ (c : Fin 32) (w : Word) (s : State), s.Fetches c.val w E.SYSRD → sysAllowed (fSysreg w) (s.core c.val).level false = true →
    fSysreg w ≠ 0x402 → fSysreg w ≠ 0x404 → Steps (exec (.coreSysrd c w) s) fun u =>
      OnlyCore s u c.val (((s.core c.val).setReg (fDst w) (s.sysVal c.val (fSysreg w))).next ((s.core c.val).pc + 4))) ∧
  (∀ (c : Fin 32) (w : Word) (s : State), s.Fetches c.val w E.SYSRD → sysAllowed (fSysreg w) (s.core c.val).level false = true →
    fSysreg w = 0x402 ∨ fSysreg w = 0x404 → Steps (exec (.coreSysrd c w) s) fun u => ∃ v,
      OnlyCore { s with freeCtr := s.freeCtr + 1 } u c.val (((s.core c.val).setReg (fDst w) v).next ((s.core c.val).pc + 4))) ∧
  (∀ (c : Fin 32) (s : State), s.sysVal c.val 0x405 = BitVec.ofNat 64 c.val ∧ s.sysVal c.val 0x403 = (s.core c.val).instret ∧
    s.sysVal c.val 0x401 = BitVec.ofNat 64 ((s.core c.val).level + 4 * b2n (s.on (F.ACC_CTL_ASET c.val)) +
      8 * b2n (s.core c.val).dupOn)) ∧
  (∀ r ∈ sysWriteRows, ∀ q ∈ sysRows, ∀ (c : Fin 32) (w : Word) (s : State) (v : DWord), s.Fetches c.val w r.2.1 →
    fSysreg w = q.1 → sysAllowed q.1 (s.core c.val).level true = true →
    v = r.2.2.1 (s.sysVal c.val q.1) (s.xr c.val (fSrc1 w)) → (q.1 = 0x300 ∨ q.1 = 0x308 → v.toNat % 16 ≠ 15) →
    Steps (exec (r.1 c w) s) fun u =>
      u = { s with cores := u.cores } ∧ (∀ j, j ≠ c.val → u.core j = s.core j) ∧ u.sysVal c.val q.1 = v &&& q.2 ∧
      (∀ p ∈ sysRows, p.1 ≠ q.1 → u.sysVal c.val p.1 = s.sysVal c.val p.1) ∧
      (u.core c.val).pc = (s.core c.val).pc + 4 ∧ (u.core c.val).instret = (s.core c.val).instret + 1 ∧
      (u.core c.val).ipend = (s.core c.val).ipend ∧ (u.core c.val).tcause = (s.core c.val).tcause ∧
      (∀ n, n < 32 → u.xr c.val n = if r.2.2.2 = true ∧ n = fDst w ∧ n ≠ 0 then s.sysVal c.val q.1 else s.xr c.val n)) ∧
  (∀ r ∈ sysWriteRows, ∀ (c : Fin 32) (w : Word) (s : State), s.Fetches c.val w r.2.1 → fSysreg w = 0x30D →
    (s.core c.val).level ≠ 0 → Steps (exec (r.1 c w) s) fun u =>
      OnlyCore s u c.val ({ (if r.2.2.2 then (s.core c.val).setReg (fDst w) (s.core c.val).ipend else s.core c.val) with
        ipend := (s.core c.val).ipend &&& ~~~(s.xr c.val (fSrc1 w)) }.next ((s.core c.val).pc + 4))) ∧
  (∀ (c : Fin 32) (w : Word) (s : State), s.Fetches c.val w E.SYSWR → fSysreg w = 0x801 → (s.core c.val).level = 3 →
    (s.xr c.val (fSrc1 w)).getLsbD 0 = true → Steps (exec (.coreSyswr c w) s) fun u =>
      OnlyCore s u c.val ({ s.core c.val with
        testing := (s.core c.val).testing || !(s.core c.val).tstatus.getLsbD 2 }.next ((s.core c.val).pc + 4))) ∧
  (∀ r ∈ sysWriteRows, ∀ (c : Fin 32) (w : Word) (s : State), s.Fetches c.val w r.2.1 →
    sysAllowed (fSysreg w) 0 true = false → (s.core c.val).level = 0 → s.StoresGood c.val →
    Steps (exec (r.1 c w) s) fun u => Enters s u c.val 0 0 (s.core c.val).pc ∧ (u.core c.val).tval = w.zeroExtend 64) ∧
  (∀ (c : Fin 32) (w : Word) (s : State), s.Fetches c.val w E.SYSRD → sysAllowed (fSysreg w) 0 false = false →
    (s.core c.val).level = 0 → s.StoresGood c.val → Steps (exec (.coreSysrd c w) s) fun u =>
      Enters s u c.val 0 0 (s.core c.val).pc ∧ (u.core c.val).tval = w.zeroExtend 64) ∧
  (∀ n : Nat, sysAllowed n 0 true = decide (n = 1) ∧ sysAllowed n 0 false = decide (n = 1)) ∧
  (∀ (c : Fin 32) (w : Word) (s : State), s.Fetches c.val w E.SYSWR → fSysreg w = 0x300 ∨ fSysreg w = 0x308 →
    (s.core c.val).level ≠ 0 → (s.xr c.val (fSrc1 w)).toNat % 16 = 15 → exec (.coreSyswr c w) s = .next (s.doubleFault c.val))

/-- Traps by instruction (12 R561, R566, R571; 05 R213, R218): SYSCALL n, BREAK and TRAP n retire at U and enter the runtime
with their code and number, TPC at the next instruction; an n other than 0, BREAK and TRAP abort the activation with kind 5;
SYSCALL 0 ends it as DONE, or LATE after an overrun, and its time and its count of runs are recorded; a store of the context
that was answered with an error is charged in place of the cause, with kind 9 and the instruction's own address. The values of
TVAL at these causes are open. Where the spec leaves a point open the clause is the model's choice (assumptions 12, 48, 50).
Completes: coreBreak, coreTrap, coreSyscall. -/
def Obligations.TrapsByInstruction : Prop :=
  (∀ r ∈ [((fun c w => .coreBreak c w : Fin 32 → Word → Instr), E.BREAK, 10, false), (fun c w => .coreTrap c w, E.TRAP, 11, true)],
    ∀ (c : Fin 32) (w : Word) (s : State), s.Fetches c.val w r.2.1 → (s.core c.val).level = 0 → s.StoresGood c.val →
    Steps (exec (r.1 c w) s) fun u =>
      Enters s u c.val (BitVec.ofNat 64 (r.2.2.1 + 65536 * (if r.2.2.2 then fSysreg w else 0))) r.2.2.1 ((s.core c.val).pc + 4) ∧
      (u.core c.val).instret = (s.core c.val).instret + 1 ∧
      (∀ p : Fin 256, (s.core c.val).cur = some p.val → s.pst p.val = 2 ∨ s.pst p.val = 4 → u.pst p.val = 6 ∧
        u.get (F.CYC_PSTATE_LAST_FAULT p.val) = 5 ∧
        u.get (F.CYC_PFAULT_ABORTS p.val) = min (s.get (F.CYC_PFAULT_ABORTS p.val) + 1) (2 ^ 16 - 1))) ∧
  (∀ (c : Fin 32) (w : Word) (idx ns : Nat) (s : State), s.Fetches c.val w E.SYSCALL → (s.core c.val).level = 0 →
    s.StoresGood c.val → fSysreg w ≠ 0 → Steps (exec (.coreSyscall c w idx ns) s) fun u =>
      Enters s u c.val (BitVec.ofNat 64 (9 + 65536 * fSysreg w)) 9 ((s.core c.val).pc + 4) ∧
      (∀ p : Fin 256, (s.core c.val).cur = some p.val → s.pst p.val = 2 ∨ s.pst p.val = 4 → u.pst p.val = 6 ∧
        u.get (F.CYC_PSTATE_LAST_FAULT p.val) = 5)) ∧
  (∀ (c : Fin 32) (w : Word) (idx ns : Nat) (p : Fin 256) (s : State), s.Fetches c.val w E.SYSCALL → fSysreg w = 0 →
    (s.core c.val).level = 0 → s.StoresGood c.val → (s.core c.val).cur = some p.val →
    s.pst p.val = 2 ∨ s.pst p.val = 4 → (s.prec p.val).core = c.val → Steps (exec (.coreSyscall c w idx ns) s) fun u =>
      Enters s u c.val 9 9 ((s.core c.val).pc + 4) ∧ u.pst p.val = (if s.pst p.val = 2 then 3 else 5) ∧
      (u.core c.val).cur = none ∧ (u.part p.val).idxCount = idx ∧ (u.part p.val).coreNs = ns ∧
      u.rdN (R.CYC_PRUN p.val) = ns % 2 ^ 32 ∧ u.rdN (R.CYC_PRUNS p.val) = (s.rdN (R.CYC_PRUNS p.val) + 1) % 2 ^ 32 ∧
      u.rdN (R.CYC_PMAX p.val) = max (s.rdN (R.CYC_PMAX p.val)) (ns % 2 ^ 32)) ∧
  (∀ r ∈ [((fun c w => .coreBreak c w : Fin 32 → Word → Instr), E.BREAK), (fun c w => .coreTrap c w, E.TRAP),
      (fun c w => .coreSyscall c w 0 0, E.SYSCALL)],
    ∀ (c : Fin 32) (w : Word) (a : Nat) (s : State), s.Fetches c.val w r.2 → (s.core c.val).level = 0 →
    ((s.flush c.val).core c.val).storeErr = some a → Steps (exec (r.1 c w) s) fun u =>
      Enters s u c.val 6 6 (s.core c.val).pc ∧ (u.core c.val).tval = BitVec.ofNat 64 a ∧ (u.core c.val).storeErr = none ∧
      (∀ p : Fin 256, (s.core c.val).cur = some p.val → s.pst p.val = 2 ∨ s.pst p.val = 4 →
        u.get (F.CYC_PSTATE_LAST_FAULT p.val) = 9))

/-- Double faults (12 R560, R568, R569): a trap at S or M with a U context held goes to the monitor with cause 12, keeps TPC and
TSTATUS of that context and aborts its activation with kind 6 and 0x4011; with none held it resets the core pair with 0xA001,
and in the monitor's handling of a double fault with 0xA006, each counted as a lockstep mismatch. Where the spec leaves a point
open the clause is the model's choice (assumptions 14, 15, 48, 49). -/
def Obligations.DoubleFaults : Prop :=
  (∀ (c : Fin 32) (w : Word) (s : State), s.Fetches c.val w E.BREAK → (s.core c.val).level ≠ 0 →
    (s.core c.val).inDouble = false → (s.core c.val).tstatus.getLsbD 2 = true → Steps (exec (.coreBreak c w) s) fun u =>
      (u.core c.val).level = 3 ∧ (u.core c.val).tcause = 12 ∧ (u.core c.val).pc = (s.core c.val).mtvec ∧
      (u.core c.val).tpc = (s.core c.val).tpc ∧ (u.core c.val).tstatus = (s.core c.val).tstatus ∧
      (u.core c.val).wstate = (s.core c.val).wstate ∧ (u.core c.val).inDouble = true ∧
      (∀ p : Fin 256, (s.core c.val).cur = some p.val → s.pst p.val = 2 ∨ s.pst p.val = 4 → s.Room (s.prec p.val).core →
        u.pst p.val = 6 ∧ u.get (F.CYC_PSTATE_LAST_FAULT p.val) = 6 ∧
        (∃ r ∈ u.recd.queue, r.code = 0x4011 ∧ r.island = (s.prec p.val).core))) ∧
  (∀ (c : Fin 32) (w : Word) (s : State), s.Fetches c.val w E.TRAP → (s.core c.val).level = 1 →
    (s.core c.val).tstatus.getLsbD 2 = false → (∀ r ∈ (s.core c.val).resets, r + 1000000000 ≤ s.now) →
    s.recd.waiting c.val < 15 → Steps (exec (.coreTrap c w) s) fun u =>
      (u.core c.val).level = 3 ∧ (u.core c.val).pc = (s.core c.val).mtvec ∧ (u.core c.val).resetting = true ∧
      (∃ r ∈ u.recd.queue, r.code = 0xA001 ∧ r.island = c.val) ∧ (∃ r ∈ u.recd.queue, r.code = 0x4022 ∧ r.island = c.val) ∧
      u.get (F.CYC_CORE_LOCKSTEP c.val) = min (s.get (F.CYC_CORE_LOCKSTEP c.val) + 1) 255) ∧
  (∀ (c : Fin 32) (w : Word) (s : State), s.Fetches c.val w E.TRAP → (s.core c.val).level = 3 →
    (s.core c.val).inDouble = true → (∀ r ∈ (s.core c.val).resets, r + 1000000000 ≤ s.now) →
    s.recd.waiting c.val < 15 → Steps (exec (.coreTrap c w) s) fun u =>
      (u.core c.val).resetting = true ∧ (∃ r ∈ u.recd.queue, r.code = 0xA006 ∧ r.island = c.val) ∧
      u.get (F.CYC_CORE_LOCKSTEP c.val) = min (s.get (F.CYC_CORE_LOCKSTEP c.val) + 1) 255)

/-- Returns and context switches (12 R567, R570, R573; 13 R606): TRET into a held U context with a resident window makes that
context go on at TPC at its level with its registers; with no context held, the runtime at S starts the ready activation that
runs first, with every register of window 0 zero but d7, which holds the stub's address, at its entry with its own stack; TRET
into a context with RES 0 and an error of a store of the trap window are double faults; SWCTX exchanges the two contexts and the
rule sets, and waits while a record is being copied. Where the spec leaves a point open the clause is the model's choice
(assumption 50). Completes: coreTret, coreSwctx. -/
def Obligations.ReturnsAndSwitches : Prop :=
  (∀ (c : Fin 32) (w : Word) (s : State), s.Fetches c.val w E.TRET → (s.core c.val).level ≠ 0 → s.StoresGood c.val →
    (s.core c.val).tstatus = 4 → (s.core c.val).res ≠ 0 → s.PlainStores c.val → (s.core c.val).cur ≠ none →
    Steps (exec (.coreTret c w) s) fun u =>
      u.core c.val = { s.core c.val with
        level := 0, pc := (s.core c.val).tpc, instret := (s.core c.val).instret + 1, buf := []
        windows := (s.core c.val).windows + 1
        sig := ({ s.core c.val with sig := 2 ^ 64 - 1 }.signed true (s.core c.val).tpc).sig
        inDouble := decide ((s.core c.val).level ≠ 3) && (s.core c.val).inDouble } ∧
      Left s u c.val ∧ u.regs = s.regs ∧ u.recd = s.recd) ∧
  (∀ (c : Fin 32) (w : Word) (p : Nat) (s : State), s.Fetches c.val w E.TRET → (s.core c.val).level = 1 →
    s.StoresGood c.val → (s.core c.val).tstatus = 0 → s.firstOf (s.core c.val).ready = some p → Steps (exec (.coreTret c w) s) fun u =>
      (u.core c.val).level = 0 ∧ (u.core c.val).cur = some p ∧ (u.core c.val).ready = (s.core c.val).ready.filter (fun q => q ≠ p) ∧
      (u.core c.val).pc = BitVec.ofNat 64 ((s.prec p).codeBase + (s.prec p).entry) ∧
      (u.core c.val).cwp = 0 ∧ (u.core c.val).res = 1 ∧ (u.core c.val).spilled = 0 ∧ (u.core c.val).fcsr = 0 ∧
      (u.core c.val).spillPtr = BitVec.ofNat 64 ((s.prec p).stackBase + (s.prec p).stackSize) ∧
      (u.core c.val).spillLim = BitVec.ofNat 64 (s.prec p).stackBase ∧
      (∀ n, n < 32 → u.fr c.val n = 0) ∧
      (∀ n, n < 31 → u.xr c.val n = 0) ∧
      u.xr c.val 31 = BitVec.ofNat 64 s.image.firmware.stub) ∧
  (∀ (c : Fin 32) (w : Word) (s : State), s.Fetches c.val w E.TRET → (s.core c.val).level ≠ 0 → s.StoresGood c.val →
    (s.core c.val).tstatus = 4 → (s.core c.val).res = 0 → (s.core c.val).inDouble = false → Steps (exec (.coreTret c w) s) fun u =>
      (u.core c.val).level = 3 ∧ (u.core c.val).tcause = 12 ∧ (u.core c.val).pc = (s.core c.val).mtvec) ∧
  (∀ (c : Fin 32) (w : Word) (a : Nat) (s : State), s.Fetches c.val w E.TRET → (s.core c.val).level ≠ 0 →
    ((s.flush c.val).core c.val).storeErr = some a → exec (.coreTret c w) s = .next ((s.flush c.val).doubleFault c.val)) ∧
  (∀ (c : Fin 32) (w : Word) (s : State), s.Fetches c.val w E.SWCTX → (s.core c.val).level ≠ 0 → s.StoresGood c.val →
    s.on (F.ACC_CTL_BUSY c.val) = false → s.PlainStores c.val → Steps (exec (.coreSwctx c w) s) fun u =>
      u.core c.val = { (s.core c.val).next ((s.core c.val).pc + 4) with
        buf := [], sig := 2 ^ 64 - 1, windows := (s.core c.val).windows + 1, tpc := (s.core c.val).xpc, xpc := (s.core c.val).tpc, tstatus := (s.core c.val).xstatus
        xstatus := (s.core c.val).tstatus, wstate := (s.core c.val).xwstate, xwstate := (s.core c.val).wstate
        spillPtr := (s.core c.val).xspill, xspill := (s.core c.val).spillPtr, spillLim := (s.core c.val).xspillLim
        xspillLim := (s.core c.val).spillLim, cur := (s.core c.val).oth, oth := (s.core c.val).cur } ∧
      u.on (F.ACC_CTL_ASET c.val) = !s.on (F.ACC_CTL_ASET c.val) ∧ SameRegs s u [R.ACC_CTL c.val] ∧
      Left s u c.val) ∧
  (∀ (c : Fin 32) (w : Word) (s : State), s.Fetches c.val w E.SWCTX → (s.core c.val).level ≠ 0 → s.StoresGood c.val →
    s.on (F.ACC_CTL_BUSY c.val) = true → exec (.coreSwctx c w) s = .next (s.flush c.val))

/-- Spills and fills (12 R542 to R545): WSPILL stores the bottom window's arrivals and kept registers, and with one resident
window the departures too, in ascending addresses below SPILL_PTR, and moves SPILL_PTR, RES and SPILLED; WFILL loads the window
below the bottom one from SPILL_PTR and moves them back; their limits, and a frame below SPILL_LIM, are a trap in the trap
window. Completes: coreWspill, coreWfill. -/
def Obligations.SpillsAndFills : Prop :=
  (∀ (c : Fin 32) (w : Word) (s : State) (n b a : Nat), s.Fetches c.val w E.WSPILL → (s.core c.val).level ≠ 0 →
    (s.core c.val).cwp < 15 → 1 ≤ (s.core c.val).res → (s.core c.val).res < 15 → (s.core c.val).spilled < 65535 →
    n = (if (s.core c.val).res = 1 then 24 else 16) → b = ((s.core c.val).cwp + 16 - (s.core c.val).res) % 15 →
    a + 8 * n = (s.core c.val).spillPtr.toNat → (s.core c.val).spillLim.toNat ≤ a → a % 8 = 0 →
    (∀ i, i < n → s.denied? c.val 0 1 (a + 8 * i) = none ∧ isMgmt (a + 8 * i) = false ∧ s.bufFull c.val (a + 8 * i) = false) →
     Steps (exec (.coreWspill c w) s) fun u =>
      (u.core c.val).buf = (s.core c.val).buf ++ (List.range n).map (fun i =>
        { addr := a + 8 * i, size := 8, val := ((s.core c.val).winReg b (8 + i)).toNat }) ∧
      (u.core c.val).spillPtr = BitVec.ofNat 64 a ∧
      (u.core c.val).wstate = wstateOf (s.core c.val).cwp ((s.core c.val).res - 1) ((s.core c.val).spilled + 1) ∧
      (u.core c.val).pc = (s.core c.val).pc + 4 ∧ (u.core c.val).win = (s.core c.val).win ∧ (u.core c.val).g = (s.core c.val).g ∧
      (u.core c.val).trap = (s.core c.val).trap ∧ u = { s with cores := u.cores } ∧ ∀ j, j ≠ c.val → u.core j = s.core j) ∧
  (∀ (c : Fin 32) (w : Word) (s : State) (n b a : Nat), s.Fetches c.val w E.WFILL → (s.core c.val).level ≠ 0 →
    (s.core c.val).cwp < 15 → (s.core c.val).res ≤ 13 → 1 ≤ (s.core c.val).spilled →
    n = (if (s.core c.val).res = 0 then 24 else 16) → b = ((s.core c.val).cwp + 15 - (s.core c.val).res) % 15 →
    a = (s.core c.val).spillPtr.toNat → a % 8 = 0 →
    (∀ i, i < n → s.denied? c.val 0 0 (a + 8 * i) = none ∧ isMgmt (a + 8 * i) = false ∧ imageSram (a + 8 * i) = false ∧
      s.hbmOff (a + 8 * i) = false ∧ s.poisoned (a + 8 * i) 8 = false) → Steps (exec (.coreWfill c w) s) fun u =>
      (∀ i, i < n → (u.core c.val).winReg b (8 + i) = BitVec.ofNat 64 (seen s c.val (a + 8 * i) 8)) ∧
      (∀ k, (∀ i, i < n → k ≠ winKey b (8 + i)) → tget 0 (u.core c.val).win k = tget 0 (s.core c.val).win k) ∧
      (u.core c.val).spillPtr = (s.core c.val).spillPtr + BitVec.ofNat 64 (8 * n) ∧
      (u.core c.val).wstate = wstateOf (s.core c.val).cwp ((s.core c.val).res + 1) ((s.core c.val).spilled - 1) ∧
      (u.core c.val).pc = (s.core c.val).pc + 4 ∧ (u.core c.val).g = (s.core c.val).g ∧
      (u.core c.val).trap = (s.core c.val).trap ∧ u = { s with cores := u.cores } ∧ ∀ j, j ≠ c.val → u.core j = s.core j) ∧
  (∀ (c : Fin 32) (w : Word) (s : State), s.Fetches c.val w E.WSPILL → (s.core c.val).level ≠ 0 →
    (s.core c.val).res = 0 ∨ (s.core c.val).spilled = 65535 → exec (.coreWspill c w) s = .next (s.doubleFault c.val)) ∧
  (∀ (c : Fin 32) (w : Word) (s : State), s.Fetches c.val w E.WFILL → (s.core c.val).level ≠ 0 →
    13 < (s.core c.val).res ∨ (s.core c.val).spilled = 0 → exec (.coreWfill c w) s = .next (s.doubleFault c.val)) ∧
  (∀ (c : Fin 32) (w : Word) (s : State), s.Fetches c.val w E.WSPILL → (s.core c.val).level ≠ 0 → 2 ≤ (s.core c.val).res →
    (s.core c.val).spilled < 65535 → (s.core c.val).spillPtr.toNat < (s.core c.val).spillLim.toNat + 128 →
    128 ≤ (s.core c.val).spillPtr.toNat → (s.core c.val).inDouble = false → (s.core c.val).tstatus.getLsbD 2 = true →
    Steps (exec (.coreWspill c w) s) fun u => (u.core c.val).level = 3 ∧ (u.core c.val).tcause = 12 ∧
      (u.core c.val).buf = [] ∧ (u.core c.val).spillPtr = (s.core c.val).spillPtr)

/-- The privileged instructions, the row and its words (12 R550). -/
def privRows : List ((Fin 32 → Word → Instr) × Enc) := [
  (.coreTret, E.TRET), (.coreSwctx, E.SWCTX), (.coreWspill, E.WSPILL), (.coreWfill, E.WFILL), (.coreWait, E.WAIT),
  (.coreCflush, E.CFLUSH), (.coreXrd, E.XRD), (.coreXwr, E.XWR)]

/-- Every row of the core's instruction groups whose operands are a core pair and a word, with its words (12 R549). -/
def insnRows : List ((Fin 32 → Word → Instr) × Enc) :=
  intA.map (fun r => (r.1, r.2.1)) ++ intI.map (fun r => (r.1, r.2.1)) ++ brB.map (fun r => (r.1, r.2.1)) ++
  loadRows.map (fun r => (r.1, r.2.1)) ++ storeRows.map (fun r => (r.1, r.2.1)) ++ fpPlain.map (fun r => (r.1, r.2.1)) ++
  fpRound.map (fun r => (r.1, r.2.1)) ++ fpFused.map (fun r => (r.1, r.2.1)) ++ sysWriteRows.map (fun r => (r.1, r.2.1)) ++
  privRows ++ [(.coreShiftk, E.SHIFTK), (.corePchi, E.PCHI), (.coreLdpc, E.LDPC), (.coreJmp, E.JMP), (.coreCall, E.CALL),
    (.coreJmpr, E.JMPR), (.coreCallr, E.CALLR), (.coreEnter, E.ENTER), (.coreLeave, E.LEAVE), (.coreRet, E.RET),
    (.coreI32tof, E.I32TOF), (.coreU32tof, E.U32TOF), (.coreFwidth, E.FWIDTH), (.coreBitstof, E.BITSTOF), (.coreSysrd, E.SYSRD),
    (.coreBreak, E.BREAK), (.coreTrap, E.TRAP), (.coreFence, E.FENCE)]

/-- What precedes an instruction (12 R530, R532, R548, R550, R559, R563, R565): a denied fetch is ACCESS_F, a poisoned one FETCH_ERR,
whatever the word; a word that is not the row's is ILLEGAL, with the word in TVAL, as a privileged instruction is at U; WAIT and
CFLUSH retire at S and M, XRD and XWR read and write a register of window CWP there, and nothing else changes; an interrupt that is
pending at U is taken in place of an instruction that does not trap (12 R563); a core pair that does not run does nothing. Where the spec leaves a point open the clause is the model's choice (assumption 47). Completes:
coreWait, coreCflush, coreXrd, coreXwr. -/
def Obligations.FetchAndPrivilege : Prop :=
  (∀ r ∈ insnRows, ∀ (c : Fin 32) (w : Word) (s : State) (m i : Nat), s.coreRuns c.val = true → (s.core c.val).level = 0 →
    s.denied? c.val 0 2 (s.core c.val).pc.toNat = some (m, i) → s.StoresGood c.val → Steps (exec (r.1 c w) s) fun u =>
      Enters s u c.val 2 2 (s.core c.val).pc ∧ (u.core c.val).tval = (s.core c.val).pc) ∧
  (∀ r ∈ insnRows, ∀ (c : Fin 32) (w : Word) (s : State), s.coreRuns c.val = true → (s.core c.val).level = 0 →
    s.denied? c.val 0 2 (s.core c.val).pc.toNat = none → s.hbmOff (s.core c.val).pc.toNat = false →
    s.poisoned (s.core c.val).pc.toNat 4 = true →
    s.StoresGood c.val → Steps (exec (r.1 c w) s) fun u =>
      Enters s u c.val 4 4 (s.core c.val).pc ∧ (u.core c.val).tval = (s.core c.val).pc) ∧
  (∀ r ∈ insnRows, ∀ (c : Fin 32) (w : Word) (s : State), s.coreRuns c.val = true → (s.core c.val).level = 0 →
    s.denied? c.val 0 2 (s.core c.val).pc.toNat = none → s.hbmOff (s.core c.val).pc.toNat = false →
    s.poisoned (s.core c.val).pc.toNat 4 = false → r.2.fits w = false →
    s.StoresGood c.val → Steps (exec (r.1 c w) s) fun u =>
      Enters s u c.val 0 0 (s.core c.val).pc ∧ (u.core c.val).tval = w.zeroExtend 64 ∧
      (u.core c.val).instret = (s.core c.val).instret) ∧
  (∀ r ∈ privRows, ∀ (c : Fin 32) (w : Word) (s : State), s.Fetches c.val w r.2 → (s.core c.val).level = 0 →
    s.StoresGood c.val → Steps (exec (r.1 c w) s) fun u =>
      Enters s u c.val 0 0 (s.core c.val).pc ∧ (u.core c.val).tval = w.zeroExtend 64) ∧
  (∀ r ∈ insnRows, ∀ (c : Fin 32) (w : Word) (s : State), s.coreRuns c.val = false → exec (r.1 c w) s = .next s) ∧
  (∀ r ∈ [((.coreWait : Fin 32 → Word → Instr), E.WAIT), (.coreCflush, E.CFLUSH)], ∀ (c : Fin 32) (w : Word) (s : State),
    s.Fetches c.val w r.2 → (s.core c.val).level ≠ 0 → Steps (exec (r.1 c w) s) fun u =>
      OnlyCore s u c.val ((s.core c.val).next ((s.core c.val).pc + 4))) ∧
  (∀ (c : Fin 32) (w : Word) (s : State), s.Fetches c.val w E.XRD → (s.core c.val).level ≠ 0 → Steps (exec (.coreXrd c w) s) fun u =>
    OnlyCore s u c.val (((s.core c.val).setReg (fDst w) ((s.core c.val).winReg (s.core c.val).cwp (getBits w 16 5))).next
      ((s.core c.val).pc + 4))) ∧
  (∀ (c : Fin 32) (w : Word) (s : State), s.Fetches c.val w E.XWR → (s.core c.val).level ≠ 0 → Steps (exec (.coreXwr c w) s) fun u =>
    OnlyCore s u c.val (((s.core c.val).setWinReg (s.core c.val).cwp (getBits w 16 5) (s.xr c.val (fSrc1 w))).next
      ((s.core c.val).pc + 4))) ∧
  (∀ r ∈ intA, ∀ (c : Fin 32) (w : Word) (n : Nat) (s : State), s.coreRuns c.val = true → (s.core c.val).level = 0 →
    s.denied? c.val 0 2 (s.core c.val).pc.toNat = none → s.hbmOff (s.core c.val).pc.toNat = false →
    s.poisoned (s.core c.val).pc.toNat 4 = false → r.2.1.fits w = true → s.StoresGood c.val →
    (s.core c.val).lowest = some n → Steps (exec (r.1 c w) s) fun u =>
      Enters s u c.val (BitVec.ofNat 64 (16 + n)) (16 + n) (s.core c.val).pc ∧
      (u.core c.val).instret = (s.core c.val).instret ∧ (u.core c.val).ipend = (s.core c.val).ipend) ∧
  (∀ r ∈ insnRows, ∀ (c : Fin 32) (w : Word) (s : State), s.coreRuns c.val = true → (s.core c.val).level = 0 →
    s.denied? c.val 0 2 (s.core c.val).pc.toNat = none → s.hbmOff (s.core c.val).pc.toNat = true →
    s.StoresGood c.val → Steps (exec (r.1 c w) s) fun u =>
      Enters s u c.val 4 4 (s.core c.val).pc ∧ (u.core c.val).tval = (s.core c.val).pc)

/-- What reaches a core pair from outside (12 R562, R563, R566, R581, R582; 16 R702, R703): TIMER, TWIN and MGMT become pending;
the lowest pending interrupt enters the runtime at a U boundary with cause 16 + number and stays pending, at S and M none is
taken; an error response is kept for the trap entry that charges it; the injection test runs only with no context held, and its
result is shown, a failure raising 0xA002 and making the core pair FAULTY; the test lane moves on by one bit and an unreported
difference raises 0xA003. That an interrupt stays pending is the model's reading (assumption 46). Where the spec leaves a point
open the clause is the model's choice (assumptions 14, 15, 52). Completes: timecmpExpiry, twinRecordArrival, mgmtRequestPost,
interruptEntry, storeErrorResponse, injectionTest, injectionTestDone, testLaneCheck. -/
def Obligations.CoreFromOutside : Prop :=
  (∀ r ∈ [((.twinRecordArrival : Fin 32 → Instr), 3), (.mgmtRequestPost, 4)], ∀ (c : Fin 32) (s : State),
    s.coreRuns c.val = true → Steps (exec (r.1 c) s) fun u =>
      OnlyCore s u c.val { s.core c.val with ipend := (s.core c.val).ipend ||| (1 <<< r.2) }) ∧
  (∀ (c : Fin 32) (n : Nat) (s : State), s.coreRuns c.val = true → (s.core c.val).level = 0 → s.StoresGood c.val →
    n < 5 → (s.core c.val).ipend.getLsbD n = true → (∀ m, m < n → (s.core c.val).ipend.getLsbD m = false) →
    Steps (exec (.interruptEntry c) s) fun u =>
      Enters s u c.val (BitVec.ofNat 64 (16 + n)) (16 + n) (s.core c.val).pc ∧ (u.core c.val).ipend = (s.core c.val).ipend ∧
      (u.core c.val).instret = (s.core c.val).instret ∧ u.regs = (s.flush c.val).regs) ∧
  (∀ (c : Fin 32) (a : Nat) (s : State), s.coreRuns c.val = true → (s.core c.val).level = 0 → ((s.flush c.val).core c.val).storeErr = some a →
    (s.core c.val).ipend.getLsbD 0 = true → Steps (exec (.interruptEntry c) s) fun u =>
      Enters s u c.val 6 6 (s.core c.val).pc ∧ (u.core c.val).ipend = (s.core c.val).ipend) ∧
  (∀ (c : Fin 32) (s : State), (s.core c.val).level ≠ 0 → exec (.interruptEntry c) s = .next s) ∧
  (∀ (c : Fin 32) (a : DWord) (s : State), s.coreRuns c.val = true → (s.core c.val).storeErr = none →
    Steps (exec (.storeErrorResponse c a) s) fun u => OnlyCore s u c.val { s.core c.val with storeErr := some a.toNat }) ∧
  (∀ (c : Fin 32) (s : State), s.coreRuns c.val = true → (s.core c.val).tstatus.getLsbD 2 = false →
    Steps (exec (.injectionTest c) s) fun u => OnlyCore s u c.val { s.core c.val with testing := true }) ∧
  (∀ (c : Fin 32) (s : State), s.coreRuns c.val = true → (s.core c.val).tstatus.getLsbD 2 = true →
    Steps (exec (.injectionTest c) s) fun u => OnlyCore s u c.val (s.core c.val)) ∧
  (∀ (c : Fin 32) (t : Nat) (s : State), (s.core c.val).testing = true → Steps (exec (.injectionTestDone c true none t) s) fun u =>
    (u.core c.val).testing = false ∧ (u.core c.val).lsStatus.getLsbD 0 = true ∧ (u.core c.val).lsStatus.getLsbD 1 = true ∧
    (u.core c.val).lsStatus.getLsbD 2 = (s.core c.val).lsStatus.getLsbD 2 ∧ u.regs = s.regs ∧ u.recd = s.recd) ∧
  (∀ (c : Fin 32) (t : Nat) (s : State), (s.core c.val).testing = true → s.startTest c.val = false → s.isActive = true →
    s.twin.switch = none → s.canSwitch = false → s.Room c.val → Steps (exec (.injectionTestDone c false none t) s) fun u =>
      (u.core c.val).testing = false ∧ (u.core c.val).lsStatus.getLsbD 1 = false ∧ u.get (F.CYC_CORE_STATE c.val) = 2 ∧
      (∃ r ∈ u.recd.queue, r.code = 0xA002 ∧ r.island = c.val ∧ r.data = le 1 c.val ++ le 4 0)) ∧
  (∀ (c : Fin 32) (t : Nat) (s : State), s.coreRuns c.val = true → 65536 ≤ (s.core c.val).windows →
    Steps (exec (.testLaneCheck c true t) s) fun u =>
    (u.core c.val).lsStatus.toNat / 256 % 64 = ((s.core c.val).lsStatus.toNat / 256 % 64 + 1) % 64 ∧
    (u.core c.val).lsStatus.getLsbD 3 = (s.core c.val).lsStatus.getLsbD 3 ∧ u.regs = s.regs ∧ u.recd = s.recd) ∧
  (∀ (c : Fin 32) (t : Nat) (s : State), s.coreRuns c.val = true → 65536 ≤ (s.core c.val).windows → s.isActive = true →
    s.twin.switch = none → s.canSwitch = false → s.Room c.val → Steps (exec (.testLaneCheck c false t) s) fun u =>
      (u.core c.val).lsStatus.getLsbD 3 = true ∧ u.get (F.CYC_CORE_STATE c.val) = 2 ∧
      (∃ r ∈ u.recd.queue, r.code = 0xA003 ∧ r.island = c.val)) ∧
  (∀ (c : Fin 32) (t : Nat) (s : State), s.coreRuns c.val = true → s.timerDue c.val = true → s.now = t →
    Steps (exec (.timecmpExpiry c t) s) fun u =>
      OnlyCore s u c.val { s.core c.val with ipend := (s.core c.val).ipend ||| (1 <<< 2) }) ∧
  (∀ (c : Fin 32) (t : Nat) (s : State), (s.at t).timerDue c.val = false → exec (.timecmpExpiry c t) s = .next (s.at t)) ∧
  (∀ (c : Fin 32) (b : Bool) (t : Nat) (s : State), (s.core c.val).windows < 65536 →
    exec (.testLaneCheck c b t) s = .next (s.at t))

/-! ## Registers (00, 04, 13) and local I/O (14) -/

/-- Register access (00 R18, R20; 03 R108; 04 R156, R195; 06 R304; 13 R602, R604, R605, R613): a plain write changes RW bits to the written ones
and clears W1C bits written as 1, and no other bit; a level without the right changes nothing; a store of the management protocol to
the image windows sets STORE_FAULT, and one of a core pair there is a denial too; a read answers with the word, a latched low word
latches its high word, RC bits are cleared by the read; an access to an island that is off is answered NO_ISLAND with 0x2040 (03
R108); a LOAD of a record while one is in progress sets ERR, one of a partition that
is not bound to the core pair empties the inactive set with 0xA012, and one that completes fills it. That a store without the right
has no effect is this model's choice (assumption 40). Completes: registerWrite, latchedLowWordRead, rcFieldRead, accFaddrRead,
accLoad, accLoadComplete. -/
def Obligations.RegisterAccess : Prop :=
  (∀ (off : Nat) (v : Word) (r : RegRow) (s : State) (i : Nat), regRow? off = some r → i < 32 →
    ((s.plainWrite off v).rd off).getLsbD i =
      (if ((BitVec.ofNat 32 r.w1c).getLsbD i && v.getLsbD i) = true then false
       else if (BitVec.ofNat 32 r.rw).getLsbD i = true then v.getLsbD i else (s.rd off).getLsbD i)) ∧
  (∀ (cp : Option (Fin 32)) (lv : Fin 4) (off : BitVec 32) (v : Word) (t : Nat) (r : RegRow) (s : State),
    s.offlineAt off.toNat = none → off.toNat < 0x10000000 → ¬(0x241000 ≤ off.toNat ∧ off.toNat < 0x241800 ∧ off.toNat % 0x40 = 0) →
    regRow? off.toNat = some r → r.writable lv.val = true → (s.at t).regAct lv.val off.toNat v = ((s.at t).plainWrite off.toNat v, .done) →
    exec (.registerWrite cp lv off v t) s = .next ((s.at t).plainWrite off.toNat v)) ∧
  (∀ (cp : Option (Fin 32)) (lv : Fin 4) (off : BitVec 32) (v : Word) (t n : Nat) (s : State), s.offlineAt off.toNat = some n →
    storeRefused off.toNat 4 = false → s.Room n → Steps (exec (.registerWrite cp lv off v t) s) fun u =>
      Raises s u 0x2040 n [] ∧ u.out = s.out ++ [.response ((cp.map fun c => c.val).getD islMgmt) 2] ∧ u.regs = s.regs) ∧
  (∀ (cp : Option (Fin 32)) (v : Word) (t : Nat) (s : State), s.pd 6 = true →
    Steps (exec (.registerWrite cp 3 (BitVec.ofNat 32 R.TIM_SET_NS) v t) s) fun u =>
      u.get F.TIM_SET_NS_V = v.toNat % 2 ^ 30 ∧ OnlyRegs (s.at t) u [R.TIM_SET_NS]) ∧
  (∀ (cp : Option (Fin 32)) (lv : Fin 4) (off : BitVec 32) (v : Word) (t : Nat) (r : RegRow) (s : State),
    s.offlineAt off.toNat = none → off.toNat < 0x10000000 → ¬(0x241000 ≤ off.toNat ∧ off.toNat < 0x241800 ∧ off.toNat % 0x40 = 0) →
    regRow? off.toNat = some r → r.writable lv.val = false →
    exec (.registerWrite cp lv off v t) s = .next (s.at t)) ∧
  (∀ (lv : Fin 4) (off : BitVec 32) (v : Word) (t : Nat) (s : State), imageWindow off.toNat = true →
    s.offlineAt off.toNat = none → Steps (exec (.registerWrite none lv off v t) s) fun u => u.get F.SIG_STATUS_STORE_FAULT = 1 ∧
      OnlyRegs (s.at t) u [R.SIG_STATUS]) ∧
  (∀ (off : BitVec 32) (s : State), s.offlineAt off.toNat = none → off.toNat ∈ latchedLows → Steps (exec (.latchedLowWordRead off) s) fun u =>
    u.out = s.out ++ [.read off.toNat (s.rd off.toNat)] ∧ tget 0 u.latch (off.toNat + 4) = s.rd (off.toNat + 4) ∧
    u = { s with out := u.out, latch := u.latch }) ∧
  (∀ (off : BitVec 32) (r : RegRow) (s : State), s.offlineAt off.toNat = none → regRow? off.toNat = some r → off.toNat < 0x240000 → off.toNat ≠ R.TIM_NS →
    off.toNat ∉ latchedLows → r.rc ≠ 0 → Steps (exec (.rcFieldRead off) s) fun u =>
      u.out = s.out ++ [.read off.toNat (s.regShow off.toNat)] ∧
      u.rd off.toNat = s.rd off.toNat &&& ~~~(BitVec.ofNat 32 r.rc) ∧ SameRegs s u [off.toNat] ∧
      u = { s with regs := u.regs, out := u.out }) ∧
  (∀ (c : Fin 32) (s : State), s.offlineAt (R.ACC_FADDR_LO c.val) = none → Steps (exec (.accFaddrRead c) s) fun u =>
    u.out = s.out ++ [.read (R.ACC_FADDR_LO c.val) (s.rd (R.ACC_FADDR_LO c.val))] ∧
    u.rd (R.ACC_FADDR_HI c.val) = (s.core c.val).faultHi ∧ u.rd (R.ACC_FINFO c.val) = (s.core c.val).faultInfo ∧
    SameRegs s u [R.ACC_FADDR_HI c.val, R.ACC_FINFO c.val]) ∧
  (∀ (c : Fin 32) (p : Fin 256) (s : State), s.on (F.ACC_CTL_BUSY c.val) = true →
    Steps (exec (.accLoad c p) s) fun u => u.get (F.ACC_CTL_ERR c.val) = 1 ∧ u.on (F.ACC_CTL_BUSY c.val) = true ∧
      OnlyRegs s u [R.ACC_CTL c.val]) ∧
  (∀ (c : Fin 32) (s : State), s.on (F.ACC_CTL_BUSY c.val) = false → Steps (exec (.accLoad c 255) s) fun u =>
    u.get (F.ACC_CTL_BUSY c.val) = 1 ∧ u.get (F.ACC_CTL_PART c.val) = 255 ∧ (u.core c.val).loadPart = 255 ∧
    SameRegs s u [R.ACC_CTL c.val] ∧ u.mem = s.mem) ∧
  (∀ (c : Fin 32) (p : Fin 256) (s : State), s.on (F.ACC_CTL_BUSY c.val) = false → p.val ≠ 255 →
    (s.image.parts.any fun r => decide (r.part = p.val) && decide (r.core = c.val)) = false → s.Room c.val →
    Steps (exec (.accLoad c p) s) fun u => u.get (F.ACC_CTL_ERR c.val) = 1 ∧ u.get (F.ACC_CTL_BUSY c.val) = 0 ∧
      Raises s u 0xA012 c.val (le 1 c.val ++ le 1 p.val) ∧
      (s.on (F.ACC_CTL_ASET c.val) = false → ∀ n : Fin 64, u.get (F.ACC_SLOTB_PERM c.val n.val) = 0)) ∧
  (∀ (c : Fin 32) (n : Fin 64) (s : State), s.on (F.ACC_CTL_BUSY c.val) = true → s.on (F.ACC_CTL_ASET c.val) = false →
    Steps (exec (.accLoadComplete c) s) fun u => u.get (F.ACC_CTL_BUSY c.val) = 0 ∧
      u.get (F.ACC_SLOTB_PERM c.val n.val) = ((s.loadRec c.val).slots[n.val]?).getD 0 % 512 ∧
      u.rd (R.ACC_SLOT c.val n.val) = s.rd (R.ACC_SLOT c.val n.val)) ∧
  (∀ (c : Fin 32) (n : Fin 64) (s : State), s.on (F.ACC_CTL_BUSY c.val) = true → s.on (F.ACC_CTL_ASET c.val) = true →
    Steps (exec (.accLoadComplete c) s) fun u => u.get (F.ACC_CTL_BUSY c.val) = 0 ∧
      u.get (F.ACC_SLOT_PERM c.val n.val) = ((s.loadRec c.val).slots[n.val]?).getD 0 % 512 ∧
      u.rd (R.ACC_SLOTB c.val n.val) = s.rd (R.ACC_SLOTB c.val n.val)) ∧
  (∀ (c : Fin 32) (lv : Fin 4) (off : BitVec 32) (v : Word) (t : Nat) (s : State), imageWindow off.toNat = true →
    s.Room c.val → Steps (exec (.registerWrite (some c) lv off v t) s) fun u => u.get F.SIG_STATUS_STORE_FAULT = 1 ∧
      u.rdN (R.ACC_FADDR_LO c.val) = (0xFF00000000 + off.toNat) % 2 ^ 32 ∧ (u.rd R.ACC_STATUS).getLsbD c.val = true ∧
      Raises s u 0x3002 c.val (le 8 (0xFF00000000 + off.toNat) ++ le 1 c.val) ∧
      SameRegs s u [R.SIG_STATUS, R.ACC_STATUS, R.ACC_FADDR_LO c.val, R.ACC_FCOUNT c.val]) ∧
  (∀ (c : Fin 32) (lv : Fin 4) (off : BitVec 32) (v : Word) (t : Nat) (s : State), slotWindow off.toNat = true →
    off.toNat % 0x400 ≠ 4 → s.Room c.val → Steps (exec (.registerWrite (some c) lv off v t) s) fun u =>
      Raises s u 0x500A c.val (le 8 (0xFF00000000 + off.toNat) ++ le 1 c.val) ∧
      SameRegs s u [R.ACC_STATUS, R.ACC_FADDR_LO c.val, R.ACC_FCOUNT c.val]) ∧
  (∀ (c : Fin 32) (s : State), s.on (F.ACC_CTL_BUSY c.val) = false → exec (.accLoadComplete c) s = .next s)

/-- Digital I/O (14 R615 to R618, R621 to R623, R625, R627, R630, R631, R635, R640; 19 R788): the readings of a multiple of 50 µs
move the counter of each input, which sets the filtered state at N and at 0; a downward crossing frame starts at a multiple of
10 µs with its sequence number, the analogue outputs taking the values of the latest image; a bad frame is counted, a timeout of
50 µs stops the inputs with 0xB030 and restarts an active module that lost its outputs; a trip latches, forces its outputs off at
once and gives 0xB020; a clear waits for the first boundary four C0 cycles on. What the 16 payload bytes of a crossing frame hold is
open (assumption 108). Completes: diSample, diFilterStateChange, crossingFrameTx, crossingFrameRx, crossingTimeout,
doGroupFaultChange, tripInputChange, dioTripClr, tripClearRx. -/
def Obligations.DigitalIo : Prop :=
  (∀ (mv : List Int) (t : Nat) (i : Fin 32) (s : State), s.pd 2 = true → (s.xing 0).upOut = false →
    max s.now t % 50000 = 0 → ((s.di 0).hist.any fun e => decide (e.1 = max s.now t)) = false →
    Steps (exec (.diSample mv t) s) fun u =>
      (u.di i.val).c = ((s.di i.val).step (s.diRec i.val).filterN (diClass ((mv[i.val]?).getD 0) (s.trim i.val false)
        (s.trim i.val true) (s.diRec i.val).wbEn)).1 ∧
      (u.rd R.DIO_IN).getLsbD i.val = (u.di i.val).st ∧ (u.di i.val).started = true ∧ u.mem = s.mem) ∧
  (∀ (mv : List Int) (t : Nat) (s : State), (s.pd 2 = false ∨ (s.xing 0).upOut = true ∨ max s.now t % 50000 ≠ 0) →
    exec (.diSample mv t) s = .next (s.at t)) ∧
  (∀ (d : DiState) (n : Nat), d.started = true → 1 ≤ n → d.c ≤ n →
    (d.step n .on).1 = min n (d.c + 1) ∧ ((d.step n .on).1 = n → (d.step n .on).2 = true) ∧
    (d.step n .off).1 = d.c - 1 ∧ ((d.step n .off).1 = 0 → (d.step n .off).2 = false) ∧ d.step n .uncertain = (d.c, d.st)) ∧
  (∀ (i : Fin 32) (s : State), (s.di i.val).started = true → (s.diRec i.val).filterN ≤ (s.di i.val).c →
    Steps (exec (.diFilterStateChange i) s) fun u => (u.di i.val).st = true ∧ (u.rd R.DIO_IN).getLsbD i.val = true ∧
      SameRegs s u [R.DIO_IN] ∧ ∀ j : Fin 32, j ≠ i → (u.rd R.DIO_IN).getLsbD j.val = (s.rd R.DIO_IN).getLsbD j.val) ∧
  (∀ (b : Fin 3) (t : Nat) (s : State), s.pd (2 + b.val) = true → max s.now t % 10000 = 0 →
    Steps (exec (.crossingFrameTx b t) s) fun u =>
    (∃ p, u.out = s.out ++ [.crossing b.val (crossFrame (s.xing b.val).downSeq p)]) ∧
    (u.xing b.val).downSeq = ((s.xing b.val).downSeq + 1) % 256 ∧ u.mem = s.mem ∧
    (b.val ≠ 2 → u.recd = s.recd ∧ SameRegs s u [R.DIO_OUT, R.DIO_STATUS])) ∧
  (∀ (t : Nat) (s : State), s.pd 3 = true → max s.now t % 10000 = 0 → (s.xing 1).downOut = false →
    Steps (exec (.crossingFrameTx 1 t) s) fun u => u.get F.DIO_OUT_DRIVEN = s.doWord) ∧
  (∀ (b : List Byte) (t : Nat) (s : State), s.pd 2 = true → crossGood b = none →
    Steps (exec (.crossingFrameRx 0 true b t) s) fun u =>
    u.get F.DIO_XING_DI_BAD = min (s.get F.DIO_XING_DI_BAD + 1) 255 ∧ OnlyRegs (s.at t) u [R.DIO_XING]) ∧
  (∀ (b : Fin 3) (q : Nat) (f : List Byte) (t : Nat) (s : State), s.pd (2 + b.val) = true → crossGood f = some q →
    (s.xing b.val).upOut = false → (s.xing b.val).upSeq = some q →
    Steps (exec (.crossingFrameRx b true f t) s) fun u => (u.xing b.val).upSeq = some ((q + 1) % 256) ∧
      (u.xing b.val).upAt = max s.now t ∧
      bitOf (u.get F.DIO_STATUS_XING_OK) b.val = true ∧ u.recd = s.recd ∧ SameRegs s u [R.DIO_STATUS]) ∧
  (∀ (t : Nat) (s : State), s.pd 2 = true → (s.xing 0).upOut = false → (s.xing 0).upAt + 50000 ≤ max s.now t →
    s.Room islLocal → Steps (exec (.crossingTimeout 0 true t) s) fun u =>
    (u.xing 0).upOut = true ∧ bitOf (u.get F.DIO_STATUS_XING_OK) 0 = false ∧
    u.get F.DIO_XING_TIMEOUTS = min (s.get F.DIO_XING_TIMEOUTS + 1) 255 ∧
    Raises s u 0xB030 islLocal (le 1 0 ++ le 4 1) ∧ SameRegs s u [R.DIO_XING, R.DIO_STATUS]) ∧
  (∀ (t : Nat) (s : State), s.pd 3 = true → (s.xing 1).downOut = false → (s.xing 1).downAt + 50000 ≤ max s.now t →
    s.isActive = true → Steps (exec (.crossingTimeout 1 false t) s)
    fun u => getBits u.nv.causeWord 0 4 = 6 ∧ u.role = 0 ∧ u.img = none) ∧
  (∀ (b : Fin 3) (t : Nat) (s : State), ((s.xing b.val).upOut = true ∨ max s.now t < (s.xing b.val).upAt + 50000) →
    exec (.crossingTimeout b true t) s = .next (s.at t)) ∧
  (∀ (g : Fin 2) (s : State), s.pd 3 = true → bitOf (s.get F.DIO_STATUS_DO_FAULT) g.val = false → s.Room islLocal →
    Steps (exec (.doGroupFaultChange g true) s) fun u => bitOf (u.get F.DIO_STATUS_DO_FAULT) g.val = true ∧
      u.get F.DIO_STATUS_DO_FAULT_SEEN = 1 ∧ Raises s u 0xB010 islLocal (le 1 g.val) ∧ SameRegs s u [R.DIO_STATUS]) ∧
  (∀ (n : Fin 4) (t : Nat) (s : State), s.pd 2 = true → bitOf (s.get F.DIO_TRIP_LATCH) n.val = false → s.Room islLocal →
    Steps (exec (.tripInputChange n true t) s) fun u => bitOf (u.get F.DIO_TRIP_LATCH) n.val = true ∧
      bitOf (u.get F.DIO_TRIP_INPUT) n.val = true ∧ u.get F.DIO_STATUS_TRIPPED = 1 ∧
      Nat.land (u.get F.DIO_OUT_DRIVEN) (s.tripRec n.val).doMask = 0 ∧ Raises s u 0xB020 islLocal (le 1 n.val) ∧
      SameRegs s u [R.DIO_TRIP, R.DIO_STATUS, R.DIO_OUT]) ∧
  (∀ (n : Fin 4) (t : Nat) (s : State), s.pd 2 = true → Steps (exec (.tripInputChange n false t) s) fun u =>
    bitOf (u.get F.DIO_TRIP_INPUT) n.val = false ∧ u.get F.DIO_TRIP_LATCH = s.get F.DIO_TRIP_LATCH ∧
    (u.trip n.val).inactiveSince = t ∧ u.recd = s.recd ∧ SameRegs s u [R.DIO_TRIP]) ∧
  (∀ (m : Fin 16) (t : Nat) (n : Fin 4) (s : State), s.isActive = true → bitOf m.val n.val = true →
    Steps (exec (.dioTripClr m t) s) fun u => (u.trip n.val).clearAt = some (boundaryAfter (max s.now t) 4) ∧
      bitOf (u.get F.DIO_TRIP_CLR_PENDING) n.val = true ∧ u.get F.DIO_TRIP_LATCH = s.get F.DIO_TRIP_LATCH ∧
      SameRegs s u [R.DIO_TRIP]) ∧
  (∀ (m : Fin 16) (t : Nat) (s : State), s.isActive = false → exec (.dioTripClr m t) s = .next (s.at t)) ∧
  (∀ (m : Fin 16) (b : Nat) (n : Fin 4) (s : State), s.isStandby = true → bitOf m.val n.val = true →
    Steps (exec (.tripClearRx m b) s) fun u => (u.trip n.val).clearAt = some b ∧
      bitOf (u.get F.DIO_TRIP_CLR_PENDING) n.val = true ∧ u.out = s.out ∧ SameRegs s u [R.DIO_TRIP]) ∧
  (∀ (n : Fin 8) (v t : Nat) (s : State), s.pd 4 = true → max s.now t % 10000 = 0 → (s.aio n.val).source = some v →
    v / 2 ^ 23 % 256 ≠ 255 → Steps (exec (.crossingFrameTx 2 t) s) fun u => (u.aio n.val).cmd = b32Limit v ∧
      u.rdN (R.AIO_VALUE n.val) = b32Limit v % 2 ^ 32 ∧ u.on (F.AIO_FLAGS_AO_HOLD n.val) = false) ∧
  (∀ (b : Fin 3) (t : Nat) (s : State), max s.now t % 10000 ≠ 0 → exec (.crossingFrameTx b t) s = .next (s.at t)) ∧
  (∀ (m : Fin 16) (b : Nat) (s : State), s.isStandby = false → exec (.tripClearRx m b) s = .next s)

/-- Analogue channels, HART and calibration (14 R637, R638, R640 to R642, R645, R647, R648, R652, R656, R658): a conversion 25 µs
before a C2 boundary is calibrated and joins its period; out faults, miswiring and supply limits set their flag and report its rise;
a modem asks the next device of its round, tries one that is silent for 400 ms twice more and then takes it as absent with 0xB046; a
search while one runs sets RES_BUSY with 0xB047; a calibration write takes a whole set, one at a time, and reports its completion
with SEQ. That the first sweep may come at once is the model's choice (assumption 108). Completes: analogueConversion,
analogueOutFault, analogueMiswire, loopSupplyLimit, hartPoll, hartReplyRx, hartReplyTimeout, hartSweep, hartSearch, calCommit,
calWriteComplete. -/
def Obligations.AnalogueAndHart : Prop :=
  (∀ (n : Fin 8) (ma : Word) (t : Nat) (s : State), ((s.aioRec n.val).mode = 1 ∨ (s.aioRec n.val).mode = 3) →
    (s.xing 2).upOut = false → s.pd 4 = true → (s.at t).convDue n.val = true → Steps (exec (.analogueConversion n ma t) s) fun u =>
      (u.aio n.val).conv = (s.aio n.val).conv ++
        [b32Add (b32Mul ma.toNat (s.calWord (2 * n.val))) (s.calWord (2 * n.val + 1))] ∧
      (u.aio n.val).fresh = true ∧ u = { s with now := max s.now t, loc := u.loc }) ∧
  (∀ (n : Fin 8) (ma : Word) (t : Nat) (s : State), s.pd 4 = false → exec (.analogueConversion n ma t) s = .next (s.at t)) ∧
  (∀ (n : Fin 8) (s : State), (s.aioRec n.val).mode = 2 → s.pd 4 = true → s.on (F.AIO_FLAGS_OUT_FAULT n.val) = false →
    s.Room islLocal →
    Steps (exec (.analogueOutFault n true) s) fun u => u.on (F.AIO_FLAGS_OUT_FAULT n.val) = true ∧
      Raises s u 0xB043 islLocal [] ∧ SameRegs s u [R.AIO_FLAGS n.val]) ∧
  (∀ (n : Fin 8) (s : State), s.aioInput n.val = true → s.pd 4 = true → s.Room islLocal →
    Steps (exec (.analogueMiswire n 1) s) fun u => (u.aio n.val).miswire = true ∧
    u.get (F.AIO_FLAGS_MISWIRE n.val) = 1 ∧ Raises s u 0xB040 islLocal (le 1 n.val) ∧ SameRegs s u [R.AIO_FLAGS n.val]) ∧
  (∀ (n : Fin 8) (s : State), s.aioInput n.val = true → s.pd 4 = true → Steps (exec (.analogueMiswire n 0) s) fun u => (u.aio n.val).miswire = false ∧
    (u.aio n.val).reversed = false ∧ u = { s with loc := u.loc }) ∧
  (∀ (n : Fin 8) (s : State), s.supplyOn n.val = true → s.pd 4 = true → s.on (F.AIO_FLAGS_SUPPLY_LIMIT n.val) = false →
    s.Room islLocal →
    Steps (exec (.loopSupplyLimit n true) s) fun u => u.on (F.AIO_FLAGS_SUPPLY_LIMIT n.val) = true ∧
      Raises s u 0xB041 islLocal [] ∧ SameRegs s u [R.AIO_FLAGS n.val]) ∧
  (∀ (m : Fin 2) (c d t : Nat) (l : List (Nat × Nat)) (s : State), s.pd 4 = true → (s.modem m.val).busy = none →
    (s.modem m.val).searching = none → (s.modem m.val).round = (c, d) :: l → c < 8 →
    Steps (exec (.hartPoll m t) s) fun u => (u.modem m.val).busy = some (c, d, 0) ∧ (u.modem m.val).round = l ∧
      u.out = s.out ++ [.hart m.val c (s.hartDev d).addr 3] ∧ u.get (F.AIO_HART_CHANNEL m.val) = c ∧
      SameRegs s u [R.AIO_HART m.val]) ∧
  (∀ (m : Fin 2) (t : Nat) (s : State), (s.modem m.val).busy ≠ none → exec (.hartPoll m t) s = .next (s.at t)) ∧
  (∀ (m : Fin 2) (vars : List Word) (ovr : Bool) (c d f : Nat) (s : State), (s.modem m.val).searching = none →
    (s.modem m.val).busy = some (c, d, f) → Steps (exec (.hartReplyRx m vars ovr) s) fun u =>
      (u.modem m.val).busy = none ∧ u.regs = s.regs ∧ u.recd = s.recd ∧ u.loc.present = s.loc.present ∧
      ∀ (v : Word) (p : Nat) (l : List Word), vars = v :: l → 1 ≤ (s.hartDev d).nvar →
        (s.hartDev d).points.head? = some (some p) → (p, v, ovr) ∈ u.loc.hartVars) ∧
  (∀ (m : Fin 2) (c d f t : Nat) (s : State), (s.modem m.val).searching = none → (s.modem m.val).busy = some (c, d, f) →
    (s.modem m.val).sentAt + 400000000 ≤ max s.now t → f < 2 → c < 8 → Steps (exec (.hartReplyTimeout m t) s) fun u => (u.modem m.val).busy = some (c, d, f + 1) ∧
      u.get (F.AIO_HART_RETRIES m.val) = min (s.get (F.AIO_HART_RETRIES m.val) + 1) 65535 ∧
      u.out = s.out ++ [.hart m.val c (s.hartDev d).addr 3]) ∧
  (∀ (m : Fin 2) (c d f t : Nat) (s : State), (s.modem m.val).searching = none → (s.modem m.val).busy = some (c, d, f) →
    (s.modem m.val).sentAt + 400000000 ≤ max s.now t → 2 ≤ f → s.Room islLocal → Steps (exec (.hartReplyTimeout m t) s) fun u => (u.modem m.val).busy = none ∧
      d ∉ u.loc.present ∧ Raises s u 0xB046 islLocal []) ∧
  (∀ (m : Fin 2) (t : Nat) (s : State), s.pd 4 = true → s.on (F.AIO_HART_SWEEPING m.val) = false →
    (∀ a : Nat, (s.modem m.val).sweptAt = some a → a + s.image.localIo.sweepS * 1000000000 ≤ max s.now t) →
    Steps (exec (.hartSweep m t) s) fun u =>
    (u.modem m.val).search = s.hartAddrs m.val ∧ SameRegs s u [R.AIO_HART m.val] ∧ u.recd = s.recd) ∧
  (∀ (m : Fin 2) (s : State), s.on (F.AIO_HART_SWEEPING m.val) = true → s.Room islLocal →
    Steps (exec (.hartSearch m) s) fun u => u.get (F.AIO_HART_RES_BUSY m.val) = 1 ∧ Raises s u 0xB047 islLocal [] ∧
      u.loc = s.loc ∧ SameRegs s u [R.AIO_HART m.val]) ∧
  (∀ (m : Fin 2) (s : State), s.pd 4 = true → s.on (F.AIO_HART_SWEEPING m.val) = false → Steps (exec (.hartSearch m) s) fun u =>
    (u.modem m.val).search = s.hartAddrs m.val ∧ u.recd = s.recd) ∧
  (∀ s : State, s.on F.AIO_CAL_STATUS_BUSY = true → s.Room islLocal → Steps (exec .calCommit s) fun u =>
    u.get F.AIO_CAL_STATUS_REFUSED = 1 ∧ Raises s u 0xB052 islLocal [] ∧ u.loc = s.loc ∧ SameRegs s u [R.AIO_CAL_STATUS]) ∧
  (∀ s : State, s.on F.AIO_CAL_STATUS_BUSY = false → s.on F.MOD_STATUS_HOLDUP = false → Steps (exec .calCommit s) fun u =>
    u.on F.AIO_CAL_STATUS_BUSY = true ∧ u.loc.calWrite = some (false, s.calStaged) ∧ u.recd = s.recd ∧
    SameRegs s u [R.AIO_CAL_STATUS]) ∧
  (∀ (set : Tab Word) (s : State), s.loc.calWrite = some (false, set) → s.loc.ageWaiting = none → s.Room islLocal →
    Steps (exec .calWriteComplete s) fun u => u.get F.AIO_CAL_STATUS_BUSY = 0 ∧ u.loc.cal = set ∧ u.loc.calWrite = none ∧
      Raises s u 0xB051 islLocal (le 4 ((s.calBank.map fun c => ((s.loc.banks[c]?).getD {}).seq).getD 0 + 1) ++ le 4 0)) ∧
  (∀ (m : Fin 2) (t : Nat) (s : State), max s.now t < (s.modem m.val).sentAt + 400000000 →
    exec (.hartReplyTimeout m t) s = .next (s.at t)) ∧
  (∀ (n : Fin 8) (ma : Word) (t : Nat) (s : State), (max s.now t + 25000) % 125000 ≠ 0 →
    exec (.analogueConversion n ma t) s = .next (s.at t)) ∧
  (∀ s : State, s.loc.calWrite = none → exec .calWriteComplete s = .next s)

/-! ## Chapter 15: the CAN channels -/

/-- CAN channels (15 R668 to R670, R673, R674, R678 to R680, R682, R687, R689): a received frame goes to the lowest matching
buffer, else to the FIFO of the first matching filter, else is dropped and counted; a full FIFO counts the loss with 0xC020; the
standby takes the active's list, and by t0 + 24 µs without one counts a lag cycle; a frame that was sent leaves its buffer, one
out of attempts is given up with 0xC010; bus-off drops what is pending with 0xC001 and a channel rejoins with 0xC002; POP removes
the oldest entry, PUSH queues the staged one or, without ACTIVE, discards it with 0xC030; a read of CAN_BSTAT clears NEW_DATA; a
buffer past RX_TIMEOUT reports 0xC022 once, 10 cycles where the image gives none; with every frame CAN_ERR shows the controller's
counters. A PUSH with the FIFO full has no effect, which is the model's choice (assumption 13). Which waiting frame stands on the
bus follows the arbitration of ISO 11898-1 (assumption 106).
Completes: canFrameRx, canFrameListRx, canFrameListMissing, canTxDone, canTxAttemptFail, canBusOff, canAutoRecover, canRecover,
canPop0, canPop1, canPush, canBstatRead, canRxTimeout. -/
def Obligations.CanChannels : Prop :=
  (∀ (ch : Fin 4) (f : CanFrame) (esi : Bool) (tec rec t : Nat) (s : State),
    f.rtr = false → (s.canRec ch.val).accept f (s.on F.MOD_STATUS_REDUCED) = .fifo 0 → (s.canCh ch.val).rxf0.length < 64 →
    Steps (exec (.canFrameRx ch f esi tec rec t) s) fun u =>
      (u.canCh ch.val).rxf0 = (s.canCh ch.val).rxf0 ++ [{ frame := f, esi := esi, ts := t }] ∧
      u.get (F.CAN_FIFO_RXF0_FILL ch.val) = (s.canCh ch.val).rxf0.length + 1 ∧
      (tec ≤ 127 ∧ rec ≤ 127 → u.recd = s.recd) ∧ CanCounts s u ch.val tec rec ∧ u.mem = s.mem ∧
      (tec ≤ 127 ∧ rec ≤ 127 ∨ s.Room islCan → SameRegs s u [R.CAN_FIFO ch.val, R.CAN_ERR ch.val, R.CAN_STATUS ch.val])) ∧
  (∀ (ch : Fin 4) (f : CanFrame) (esi : Bool) (tec rec t : Nat) (s : State),
    f.rtr = false → (s.canRec ch.val).accept f (s.on F.MOD_STATUS_REDUCED) = .fifo 0 → 64 ≤ (s.canCh ch.val).rxf0.length →
    Steps (exec (.canFrameRx ch f esi tec rec t) s) fun u =>
      (tec ≤ 127 ∧ rec ≤ 127 ∧ s.Room islCan → Raises s u 0xC020 islCan []) ∧ CanCounts s u ch.val tec rec ∧
      u.get (F.CAN_RXCOUNT_RX_LOST ch.val) =
        min (s.get (F.CAN_RXCOUNT_RX_LOST ch.val) + 1) (2 ^ (F.CAN_RXCOUNT_RX_LOST ch.val).len - 1) ∧
      (u.canCh ch.val).rxf0.length = (s.canCh ch.val).rxf0.length) ∧
  (∀ (ch : Fin 4) (f : CanFrame) (esi : Bool) (tec rec t : Nat) (n : Fin 64) (s : State),
    f.rtr = false → (s.canRec ch.val).accept f (s.on F.MOD_STATUS_REDUCED) = .buffer n.val →
    Steps (exec (.canFrameRx ch f esi tec rec t) s) fun u =>
      ((u.canCh ch.val).buf n.val).entry = { frame := f, esi := esi, ts := t } ∧
      ((u.canCh ch.val).buf n.val).newData = true ∧ ((u.canCh ch.val).buf n.val).assigned =
        some (nextBoundary ((s.canRec ch.val).buf n.val).cls ((t + 31249) / 31250), f.data) ∧
      CanCounts s u ch.val tec rec ∧ u.mem = s.mem) ∧
  (∀ (ch : Fin 4) (f : CanFrame) (esi : Bool) (tec rec t : Nat) (s : State),
    f.rtr = true → Steps (exec (.canFrameRx ch f esi tec rec t) s) fun u =>
      u.get (F.CAN_RXCOUNT_RX_DROP ch.val) =
        min (s.get (F.CAN_RXCOUNT_RX_DROP ch.val) + 1) (2 ^ (F.CAN_RXCOUNT_RX_DROP ch.val).len - 1) ∧ u.can = s.can ∧
      CanCounts s u ch.val tec rec ∧
      (tec ≤ 127 ∧ rec ≤ 127 ∨ s.Room islCan → SameRegs s u [R.CAN_RXCOUNT ch.val, R.CAN_ERR ch.val, R.CAN_STATUS ch.val])) ∧
  (∀ (n : Nat) (fs : List (Nat × Nat × List Byte)) (c : Fin 4) (s : State), s.isStandby = true →
    Steps (exec (.canFrameListRx n fs) s) fun u =>
      (u.canCh c.val).list = some (n, (fs.filter fun f => f.1 = c.val).map fun f => f.2) ∧ u = { s with can := u.can }) ∧
  (∀ (n : Nat) (fs : List (Nat × Nat × List Byte)) (s : State), s.isStandby = false →
    exec (.canFrameListRx n fs) s = .next s) ∧
  (∀ (t : Nat) (c : Fin 4) (s : State), s.isStandby = true → (s.canCh c.val).list = none → s.on F.TWN_STATUS_SUSPECT = false →
    boundaryNs s.count + 24000 ≤ max s.now t → exec (.canFrameListMissing s.count t) s =
      .next (((s.at t).each ((List.range 4).filter fun i => ((s.canCh i).list.map fun l => l.1) ≠ some s.count)
        fun u i => u.setCan i { u.canCh i with list := some (s.count, []) }).lagCycle)) ∧
  (∀ (n t : Nat) (s : State), s.isStandby = false → exec (.canFrameListMissing n t) s = .next (s.at t)) ∧
  (∀ (ch : Fin 4) (b : Fin 64) (tec rec : Nat) (s : State),
    s.canOnBus ch.val b.val = true → ((s.canCh ch.val).buf b.val).inTx = none → Steps (exec (.canTxDone ch (Fin.castSucc b) tec rec) s) fun u =>
      ((u.canCh ch.val).buf b.val).pend = none ∧ ((u.canCh ch.val).buf b.val).attempts = 0 ∧ CanCounts s u ch.val tec rec ∧
      (tec ≤ 127 ∧ rec ≤ 127 ∨ s.Room islCan → SameRegs s u [R.CAN_ERR ch.val, R.CAN_STATUS ch.val])) ∧
  (∀ (ch : Fin 4) (tec rec : Nat) (s : State),
    s.canOnBus ch.val 64 = true → Steps (exec (.canTxDone ch 64 tec rec) s) fun u => (u.canCh ch.val).txf = (s.canCh ch.val).txf.drop 1 ∧
      (u.canCh ch.val).txfTx = false ∧
      CanCounts s u ch.val tec rec ∧
      (tec ≤ 127 ∧ rec ≤ 127 ∨ s.Room islCan → SameRegs s u [R.CAN_FIFO ch.val, R.CAN_ERR ch.val, R.CAN_STATUS ch.val])) ∧
  (∀ (ch : Fin 4) (b : Fin 64) (tec rec : Nat) (s : State),
    s.canOnBus ch.val b.val = true → (s.canRec ch.val).oneShot = false →
    (s.canRec ch.val).retryLimit ≤ ((s.canCh ch.val).buf b.val).attempts →
    Steps (exec (.canTxAttemptFail ch (Fin.castSucc b) tec rec) s) fun u =>
      u.get (F.CAN_TXCOUNT_TX_FAIL ch.val) =
        min (s.get (F.CAN_TXCOUNT_TX_FAIL ch.val) + 1) (2 ^ (F.CAN_TXCOUNT_TX_FAIL ch.val).len - 1) ∧
      CanCounts s u ch.val tec rec ∧
      (tec ≤ 127 ∧ rec ≤ 127 ∧ s.Room islCan → Raises s u 0xC010 islCan (le 1 ch.val ++ le 1 b.val))) ∧
  (∀ (ch : Fin 4) (b : Fin 64) (tec rec : Nat) (s : State),
    s.canOnBus ch.val b.val = true → (s.canRec ch.val).oneShot = false → ((s.canCh ch.val).buf b.val).attempts < (s.canRec ch.val).retryLimit →
    Steps (exec (.canTxAttemptFail ch (Fin.castSucc b) tec rec) s) fun u =>
      ((u.canCh ch.val).buf b.val).attempts = ((s.canCh ch.val).buf b.val).attempts + 1 ∧
      ((u.canCh ch.val).buf b.val).inTx = none ∧ CanCounts s u ch.val tec rec ∧
      (tec ≤ 127 ∧ rec ≤ 127 → u.recd = s.recd) ∧
      (tec ≤ 127 ∧ rec ≤ 127 ∨ s.Room islCan → SameRegs s u [R.CAN_ERR ch.val, R.CAN_STATUS ch.val])) ∧
  (∀ (ch : Fin 4) (s : State), s.on (F.CAN_STATUS_RESTRICTED ch.val) = false → s.Room islCan →
    Steps (exec (.canBusOff ch) s) fun u => u.get (F.CAN_STATUS_ESTATE ch.val) = 2 ∧ (u.canCh ch.val).txf = [] ∧
      (∀ b : Fin 64, ((u.canCh ch.val).buf b.val).pend = none ∧ ((u.canCh ch.val).buf b.val).inTx = none) ∧
      Raises s u 0xC001 islCan (le 1 ch.val) ∧ SameRegs s u [R.CAN_STATUS ch.val, R.CAN_FIFO ch.val]) ∧
  (∀ (ch : Fin 4) (s : State), s.get (F.CAN_STATUS_ESTATE ch.val) = 2 → (s.canRec ch.val).autoRecover = true → s.Room islCan →
    Steps (exec (.canAutoRecover ch) s) fun u => u.get (F.CAN_STATUS_ESTATE ch.val) = 0 ∧
      u.get (F.CAN_ERR_TEC ch.val) = 0 ∧ u.get (F.CAN_ERR_REC ch.val) = 0 ∧ Raises s u 0xC002 islCan [] ∧
      SameRegs s u [R.CAN_STATUS ch.val, R.CAN_ERR ch.val]) ∧
  (∀ (ch : Fin 4) (s : State), s.get (F.CAN_STATUS_ESTATE ch.val) = 2 → (s.canRec ch.val).autoRecover = false →
    s.isActive = true → s.Room islCan → Steps (exec (.canRecover ch) s) fun u =>
      u.get (F.CAN_STATUS_ESTATE ch.val) = 0 ∧ Raises s u 0xC002 islCan []) ∧
  (∀ (ch : Fin 4) (s : State), s.isActive = false → exec (.canRecover ch) s = .next s) ∧
  (∀ (ch : Fin 4) (s : State), Steps (exec (.canPop0 ch) s) fun u =>
    (u.canCh ch.val).rxf0 = (s.canCh ch.val).rxf0.drop 1 ∧ (u.canCh ch.val).rxf1 = (s.canCh ch.val).rxf1 ∧
    u = { s with regs := u.regs, can := u.can } ∧ SameRegs s u [R.CAN_FIFO ch.val]) ∧
  (∀ (ch : Fin 4) (s : State), Steps (exec (.canPop1 ch) s) fun u =>
    (u.canCh ch.val).rxf1 = (s.canCh ch.val).rxf1.drop 1 ∧ (u.canCh ch.val).rxf0 = (s.canCh ch.val).rxf0 ∧
    u = { s with regs := u.regs, can := u.can } ∧ SameRegs s u [R.CAN_FIFO ch.val]) ∧
  (∀ (ch : Fin 4) (s : State), s.isActive = true → (s.canCh ch.val).txf.length < 32 → Steps (exec (.canPush ch) s) fun u =>
    (u.canCh ch.val).txf = (s.canCh ch.val).txf ++ [s.canStaged ch.val] ∧
    u.get (F.CAN_FIFO_TXF_FILL ch.val) = (s.canCh ch.val).txf.length + 1 ∧
    u.out = s.out ++ [.canFrame ch.val 64 (s.canStaged ch.val).data] ∧ SameRegs s u [R.CAN_FIFO ch.val]) ∧
  (∀ (ch : Fin 4) (s : State), s.isActive = false → s.Room islCan → Steps (exec (.canPush ch) s) fun u =>
    u.get (F.CAN_TXCOUNT_TXF_DISCARD ch.val) =
      min (s.get (F.CAN_TXCOUNT_TXF_DISCARD ch.val) + 1) (2 ^ (F.CAN_TXCOUNT_TXF_DISCARD ch.val).len - 1) ∧
    Raises s u 0xC030 islCan [] ∧ u.can = s.can ∧ u.out = s.out ∧ SameRegs s u [R.CAN_TXCOUNT ch.val]) ∧
  (∀ (ch : Fin 4) (s : State), Steps (exec (.canBstatRead ch) s) fun u =>
    ((u.canCh ch.val).buf (s.get (F.CAN_BSEL_BUF ch.val))).newData = false ∧ u = { s with can := u.can }) ∧
  (∀ (ch : Fin 4) (b : Fin 64) (s : State), ((s.canRec ch.val).buf b.val).kind = 1 →
    ((s.canCh ch.val).buf b.val).timedOut = false → 
    (if ((s.canRec ch.val).buf b.val).rxTimeout = 0 then 10 else ((s.canRec ch.val).buf b.val).rxTimeout) ≤
      ((s.canCh ch.val).buf b.val).missed →
    Steps (exec (.canRxTimeout ch b) s) fun u => ((u.canCh ch.val).buf b.val).timedOut = true ∧
      (s.Room islCan → Raises s u 0xC022 islCan [] ∧ u.regs = s.regs) ∧
      u.mem = s.mem) ∧
  (∀ (ch : Fin 4) (b : Fin 64) (s : State), ((s.canCh ch.val).buf b.val).timedOut = true →
    exec (.canRxTimeout ch b) s = .next s) ∧
  (∀ (ch : Fin 4) (b : Fin 65) (tec rec : Nat) (s : State), s.canOnBus ch.val b.val = false →
    exec (.canTxDone ch b tec rec) s = .next s ∧ exec (.canTxAttemptFail ch b tec rec) s = .next s) ∧
  (∀ (ch : Fin 4) (b : Fin 64) (tec rec : Nat) (s : State),
    s.canOnBus ch.val b.val = true → (s.canRec ch.val).oneShot = true →
    Steps (exec (.canTxAttemptFail ch (Fin.castSucc b) tec rec) s) fun u =>
      (u.rd (if b.val < 32 then R.CAN_TXFAIL_LO ch.val else R.CAN_TXFAIL_HI ch.val)).getLsbD (b.val % 32) = true ∧
      ((u.canCh ch.val).buf b.val).attempts = 0 ∧ CanCounts s u ch.val tec rec ∧
      (tec ≤ 127 ∧ rec ≤ 127 → u.recd = s.recd)) ∧
  (∀ (ch : Fin 4) (s : State), s.get (F.CAN_STATUS_ESTATE ch.val) ≠ 2 → exec (.canAutoRecover ch) s = .next s) ∧
  (∀ (ch : Fin 4) (s : State), s.on (F.CAN_STATUS_RESTRICTED ch.val) = true → exec (.canBusOff ch) s = .next s) ∧
  (∀ (ch : Fin 4) (f : CanFrame) (esi : Bool) (tec rec t : Nat) (s : State),
    f.rtr = false → (s.canRec ch.val).accept f (s.on F.MOD_STATUS_REDUCED) = .fifo 1 → (s.canCh ch.val).rxf1.length < 64 →
    Steps (exec (.canFrameRx ch f esi tec rec t) s) fun u =>
      (u.canCh ch.val).rxf1 = (s.canCh ch.val).rxf1 ++ [{ frame := f, esi := esi, ts := t }] ∧
      u.get (F.CAN_FIFO_RXF1_FILL ch.val) = (s.canCh ch.val).rxf1.length + 1 ∧ (u.canCh ch.val).rxf0 = (s.canCh ch.val).rxf0 ∧
      CanCounts s u ch.val tec rec ∧ u.mem = s.mem) ∧
  (∀ (ch : Fin 4) (f : CanFrame) (esi : Bool) (tec rec t : Nat) (s : State),
    f.rtr = false → (s.canRec ch.val).accept f (s.on F.MOD_STATUS_REDUCED) = .rejected →
    Steps (exec (.canFrameRx ch f esi tec rec t) s) fun u => u.can = s.can ∧ CanCounts s u ch.val tec rec ∧
      u.get (F.CAN_RXCOUNT_RX_DROP ch.val) = s.get (F.CAN_RXCOUNT_RX_DROP ch.val)) ∧
  (∀ (ch : Fin 4) (f : CanFrame) (esi : Bool) (tec rec t : Nat) (s : State),
    f.rtr = false → (s.canRec ch.val).accept f (s.on F.MOD_STATUS_REDUCED) = .nowhere →
    Steps (exec (.canFrameRx ch f esi tec rec t) s) fun u => u.can = s.can ∧ CanCounts s u ch.val tec rec ∧
      u.get (F.CAN_RXCOUNT_RX_DROP ch.val) =
        min (s.get (F.CAN_RXCOUNT_RX_DROP ch.val) + 1) (2 ^ (F.CAN_RXCOUNT_RX_DROP ch.val).len - 1)) ∧
  (∀ (ch : Fin 4) (b : Fin 64) (tec rec : Nat) (s : State),
    s.canOnBus ch.val b.val = true → ((s.canCh ch.val).buf b.val).inTx ≠ none →
    Steps (exec (.canTxDone ch (Fin.castSucc b) tec rec) s) fun u => ((u.canCh ch.val).buf b.val).inTx = none ∧
      ((u.canCh ch.val).buf b.val).pend = ((s.canCh ch.val).buf b.val).pend ∧ ((u.canCh ch.val).buf b.val).attempts = 0 ∧
      CanCounts s u ch.val tec rec) ∧
  (∀ (ch : Fin 4) (s : State), s.isActive = true → 32 ≤ (s.canCh ch.val).txf.length → exec (.canPush ch) s = .next s)

/-! ## Chapters 16 and 20: power, start-up, restarts, hold-up, temperatures -/

/-- Feeds and start-up (16 R690 to R701, R707, R718; 20 R799): a feed that is qualified or lost shows so, a loss with 0xD001 and a
return with 0xD002; PD0 coming up counts a power cycle and begins S0 with cause 0; the seconds of operation count; a valid SLOT_ID is
latched in S0, the first invalid one reported with 0x0004; S0 ends only on its condition and each stage begins the next; a stage past
its time, or with a failed test, is a bring-up failure, but not S0; a domain is tried once more; a failed domain is switched off and
recorded. Completes: feedQualified, feedLost, pd0PowerUp, opsecTick, slotIdRead, bankChargeTimeout, stageEnd, stageTimeout,
domainPowerUpRetry, bringUpRetry, domainFault. -/
def Obligations.StartUp : Prop :=
  (∀ (dv : Fin 1024) (t : Nat) (s : State), s.pd 0 = true → (s.at t).feedGood 0 dv.val = true →
    0 ∈ s.pwr.feedsLost → s.Room islSup → Steps (exec (.feedQualified 0 dv t) s) fun u =>
    u.get F.MOD_STATUS_FEED_A_OK = 1 ∧ u.get F.PWR_FEED_A_OK = 1 ∧ u.get F.PWR_FEED_A_DV = dv.val ∧
    0 ∉ u.pwr.feedsLost ∧ Raises s u 0xD002 islSup [] ∧ SameRegs s u [R.MOD_STATUS, R.PWR_FEED]) ∧
  (∀ (dv : Fin 1024) (t : Nat) (s : State), s.pd 0 = true → (s.at t).feedGood 1 dv.val = true →
    1 ∉ s.pwr.feedsLost → Steps (exec (.feedQualified 1 dv t) s) fun u =>
    u.get F.MOD_STATUS_FEED_B_OK = 1 ∧ u.get F.PWR_FEED_B_DV = dv.val ∧ u.recd = s.recd ∧
    SameRegs s u [R.MOD_STATUS, R.PWR_FEED]) ∧
  (∀ (dv : Fin 1024) (t : Nat) (s : State), s.pd 0 = true → (dv.val < 330 ∨ 780 < dv.val) → s.on F.MOD_STATUS_FEED_A_OK = true → s.Room islSup →
    Steps (exec (.feedLost 0 dv t) s) fun u => u.get F.MOD_STATUS_FEED_A_OK = 0 ∧ u.get F.PWR_FEED_A_DV = dv.val ∧
      0 ∈ u.pwr.feedsLost ∧ Raises s u 0xD001 islSup (le 4 0 ++ le 4 (b2n (decide (780 < dv.val)))) ∧
      SameRegs s u [R.MOD_STATUS, R.PWR_FEED]) ∧
  (∀ (prof : Fin 4) (t : Nat) (s : State), Steps (exec (.pd0PowerUp prof t) s) fun u => u.Restarted 0 ∧
    u.nv.pwrcyc = min (s.nv.pwrcyc + 1) (2 ^ 24 - 1) ∧ u.get F.IMG_STRAP_PROF_LATCH = prof.val ∧ u.rdN R.PWR_ON = 1 ∧
    u.flash = s.flash ∧ u.nv.keys = s.nv.keys) ∧
  (∀ (w : Fin 65536) (a b : Fin 1024) (e : Fin 256) (prof : Fin 4) (t : Nat) (s : State),
    s.pd 0 = true → Steps (exec (.opsecTick w a b e prof t) s) fun u => u.nv.opsec = min (s.nv.opsec + 1) (2 ^ 40 - 1) ∧
      u.rd64 R.MOD_OPSEC = u.nv.opsec ∧ u.get F.PWR_INPUT_WATTS = w.val ∧
      u.get F.PWR_INPUT_MAX_W = max (s.get F.PWR_INPUT_MAX_W) w.val ∧ u.on F.PWR_HOLDUP_BANK_OK = decide (56 ≤ e.val) ∧
      u.mem = s.mem ∧ u.recd = s.recd) ∧
  (∀ (t : Nat) (p : Fin 16) (s : State), s.pd 0 = true → s.get F.MOD_STATUS_STAGE = 0 → s.on F.MOD_SLOT_VALID = false →
    s.twin.resetHeld = false → (p.val = 10 ∨ p.val = 11) → Steps (exec (.slotIdRead p t) s) fun u =>
      u.get F.MOD_SLOT_SLOT_ID = p.val ∧ u.on F.MOD_SLOT_VALID = true ∧ u.twinB = decide (p.val = 11) ∧
      SameRegs s u [R.MOD_SLOT, R.TWN_STATUS] ∧ u.recd = s.recd) ∧
  (∀ (t : Nat) (p : Fin 16) (s : State), s.pd 0 = true → s.get F.MOD_STATUS_STAGE = 0 → s.on F.MOD_SLOT_VALID = false →
    s.twin.resetHeld = false → p.val ≠ 10 → p.val ≠ 11 → s.pwr.slotBad = false → s.Room islSup →
    Steps (exec (.slotIdRead p t) s) fun u => Raises s u 0x0004 islSup [] ∧ u.regs = s.regs) ∧
  (∀ (e : Fin 256) (t : Nat) (s : State), s.pd 0 = true → s.get F.MOD_STATUS_STAGE = 0 → e.val < 56 → s.feedOk = true →
    s.pwr.feedAt + 1000000000 ≤ max s.now t →
    Steps (exec (.bankChargeTimeout e t) s) fun u => u.pwr.bankLow = true ∧ u.get F.PWR_HOLDUP_BANK_OK = 0 ∧
      u.get F.PWR_HOLDUP_BANK_DJ = e.val ∧ SameRegs s u [R.PWR_HOLDUP]) ∧
  (∀ (e : Fin 256) (tr : Fin 16) (sp : Option (Fin 16)) (t : Nat) (s : State), s.get F.MOD_STATUS_STAGE = 0 →
    s.s0Done e.val = true → Steps (exec (.stageEnd e tr sp t) s) fun u => u.get F.MOD_STATUS_STAGE = 1 ∧
      (∀ d ∈ [22, 7, 6, 18, 1], u.pd d = true) ∧ u.on F.EVT_STATUS_RUNNING = true ∧ u.pwr.service = s.keep.svcNext) ∧
  (∀ (e : Fin 256) (tr : Fin 16) (sp : Option (Fin 16)) (t : Nat) (s : State), s.get F.MOD_STATUS_STAGE = 0 →
    s.s0Done e.val = false → exec (.stageEnd e tr sp t) s = .next (s.at t)) ∧
  (∀ (e : Fin 256) (tr : Fin 16) (sp : Option (Fin 16)) (t : Nat) (s : State), s.get F.MOD_STATUS_STAGE = 1 →
    exec (.stageEnd e tr sp t) s = .next ((s.at t).toS2 tr.val)) ∧
  (∀ (e : Fin 256) (tr : Fin 16) (t : Nat) (s : State), s.get F.MOD_STATUS_STAGE = 3 →
    Steps (exec (.stageEnd e tr none t) s) fun u => u.get F.MOD_STATUS_STAGE = 4 ∧ u.on F.EVT_STATUS_HBM_RING = true) ∧
  (∀ (e : Fin 256) (tr : Fin 16) (sp : Option (Fin 16)) (t : Nat) (s : State), s.get F.MOD_STATUS_STAGE = 2 →
    s.on F.MOD_STATUS_REDUCED = true → exec (.stageEnd e tr sp t) s = .next (s.at t)) ∧
  (∀ (d : Fin 24) (b : Bool) (t : Nat) (s : State), s.get F.MOD_STATUS_STAGE = 0 → exec (.stageTimeout d b t) s = .next (s.at t)) ∧
  (∀ (d : Fin 24) (b : Bool) (t : Nat) (s : State), s.get F.MOD_STATUS_STAGE = 5 → s.on F.MOD_STATUS_REDUCED = false →
    (b = true ∨ s.stageEndsAt < max s.now t) → s.Room islSup → Steps (exec (.stageTimeout d b t) s) fun u => getBits u.nv.causeWord 8 3 = 5 ∧ getBits u.nv.causeWord 12 5 = d.val ∧
      u.get F.PWR_LAST_KIND = 4 ∧ u.get F.PWR_LAST_STAGE = 5 ∧ Raises s u 0x0002 islSup (le 1 5 ++ le 1 d.val)) ∧
  (∀ (d : Fin 24) (t : Nat) (s : State), d.val ∈ stageDomains (s.get F.MOD_STATUS_STAGE) → s.on F.MOD_STATUS_REDUCED = false →
    d.val ∉ s.pwr.retried → Steps (exec (.domainPowerUpRetry d true t) s) fun u =>
    u.pd d.val = true ∧ d.val ∈ u.pwr.retried ∧ u.recd = s.recd ∧ SameRegs s u [R.PWR_ON]) ∧
  (∀ (d : Fin 24) (ok : Bool) (t : Nat) (s : State), d.val ∈ stageDomains (s.get F.MOD_STATUS_STAGE) →
    s.on F.MOD_STATUS_REDUCED = false → d.val ∈ s.pwr.retried →
    exec (.domainPowerUpRetry d ok t) s = .next ((s.at t).bringUpFail d.val)) ∧
  (∀ (t : Nat) (s : State), s.get F.MOD_STATUS_STAGE = 0 → s.pd 1 = true → 0 < s.pwr.s1Failures → s.pwr.s1Failures < 3 →
    s.pwr.stageAt + 10000000000 ≤ max s.now t →
    Steps (exec (.bringUpRetry t) s) fun u => u.Restarted 8 ∧ u.pwr.s1Failures = s.pwr.s1Failures) ∧
  (∀ (t : Nat) (s : State), 3 ≤ s.pwr.s1Failures → exec (.bringUpRetry t) s = .next (s.at t)) ∧
  (∀ (l : List (Fin 24 × Fin 4)) (t : Nat) (s : State), s.on F.MOD_STATUS_HOLDUP = true →
    exec (.domainFault l t) s = .next (s.at t)) ∧
  (∀ (k : Fin 4) (t : Nat) (s : State), k.val ≠ 0 → s.on F.MOD_STATUS_HOLDUP = false → s.pd 23 = true →
    Steps (exec (.domainFault [(23, k)] t) s) fun u => u.pd 23 = false ∧ (u.rd R.PWR_FAULT).getLsbD 23 = true ∧
      u.get F.PWR_LAST_PD = 23 ∧ u.get F.PWR_LAST_KIND = k.val ∧ u.role = s.role ∧ u.img = s.img ∧ u.mem = s.mem) ∧
  (∀ (k : Fin 4) (t : Nat) (s : State), k.val ≠ 0 → s.on F.MOD_STATUS_HOLDUP = false → s.pd 22 = true → s.isActive = true →
    Steps (exec (.domainFault [(22, k)] t) s) fun u => u.Restarted 6) ∧
  (∀ (fd : Fin 2) (dv : Fin 1024) (t : Nat) (s : State), 330 ≤ dv.val → dv.val ≤ 780 →
    exec (.feedLost fd dv t) s = .next (s.at t)) ∧
  (∀ (fd : Fin 2) (dv : Fin 1024) (t : Nat) (s : State), (dv.val < 360 ∨ 750 < dv.val) →
    exec (.feedQualified fd dv t) s = .next (s.at t))

/-- Restarts, carrier reset, hold-up and temperatures (16 R713 to R717, R719 to R722; 20 R821 to R824): a RESTART of an active with a
MATCHED partner follows a planned switchover, or is refused where none can be made; any other acts at once; during hold-up commands
are ignored; RST_IN_N holds the module with every domain but PD0 off and releases it into S0 with cause 1; hold-up sends the failing
message, writes the last words after 1 ms, powers down after 3 ms and 8 ms, and after 10 ms ends in S0 with cause 4, or without a feed
in power-off; HOT follows ten samples with 0xD030, and ten critical ones restart the module. Completes: modRestart, modForceRestart,
moduleRestart, rstInHeld, rstInRelease, holdUpBegin, lastWordsComplete, holdUpPowerDown, panelDischargeComplete, holdUpEnd,
temperatureSample. -/
def Obligations.RestartsAndHoldUp : Prop :=
  (∀ (t : Nat) (s : State), s.on F.MOD_STATUS_HOLDUP = false → s.isActive = false →
    Steps (exec (.modRestart t) s) fun u => u.Restarted 3) ∧
  (∀ (t : Nat) (s : State), s.on F.MOD_STATUS_HOLDUP = false → s.isActive = true → s.tstate = 1 → s.ptstate = 3 →
    s.on F.TWN_STATUS_SUSPECT = false → s.twin.partnerSuspect = false → s.twin.switch = none →
    Steps (exec (.modRestart t) s) fun u => u.get F.MOD_CTL_PENDING = 1 ∧ u.isActive = true ∧
      u.twin.switch = some { at_ := boundaryAfter (max s.now t) 4, cause := 4, thenRestart := some 3 } ∧
      SameRegs s u [R.MOD_CTL, R.TWN_CTL]) ∧
  (∀ (t : Nat) (s : State), s.on F.MOD_STATUS_HOLDUP = false → s.isActive = true → s.ptstate = 3 →
    s.on F.TWN_STATUS_SUSPECT = true → s.twin.switch = none → Steps (exec (.modRestart t) s) fun u =>
      u.get F.MOD_CTL_REFUSED = 1 ∧ OnlyRegs (s.at t) u [R.MOD_CTL]) ∧
  (∀ (t : Nat) (s : State), s.on F.MOD_STATUS_HOLDUP = true → exec (.modRestart t) s = .next (s.at t)) ∧
  (∀ (t : Nat) (s : State), s.on F.MOD_STATUS_HOLDUP = false → Steps (exec (.modForceRestart t) s) fun u => u.Restarted 3) ∧
  (∀ (t : Nat) (s : State), s.on F.MOD_STATUS_HOLDUP = true → exec (.modForceRestart t) s = .next (s.at t)) ∧
  (∀ (c : Fin 9) (t : Nat) (s : State), s.pd 0 = true → s.on F.MOD_STATUS_HOLDUP = false →
    Steps (exec (.moduleRestart c t) s) fun u => u.Restarted c.val ∧ u.flash = s.flash) ∧
  (∀ (t : Nat) (s : State), s.pd 0 = true → s.on F.MOD_STATUS_HOLDUP = false → Steps (exec (.rstInHeld t) s) fun u =>
    u.twin.resetHeld = true ∧ u.rdN R.PWR_ON = 1 ∧ u.get F.MOD_STATUS_STAGE = 0 ∧ u.role = 0 ∧ u.img = none ∧ u.mem = []) ∧
  (∀ (t : Nat) (s : State), s.on F.MOD_STATUS_HOLDUP = true → Steps (exec (.rstInHeld t) s) fun u => u.pwr.rstHeld = true ∧
    u.regs = s.regs ∧ u.img = s.img) ∧
  (∀ (t : Nat) (s : State), s.twin.resetHeld = true → Steps (exec (.rstInRelease t) s) fun u => u.Restarted 1 ∧
    u.twin.resetHeld = false ∧ u.nv.pwrcyc = s.nv.pwrcyc) ∧
  (∀ (t : Nat) (s : State), s.pd 0 = true → s.on F.MOD_STATUS_HOLDUP = false → s.twin.failing = false →
    Steps (exec (.holdUpBegin t) s) fun u => u.get F.MOD_STATUS_HOLDUP = 1 ∧ u.pwr.holdStep = 1 ∧ u.twin.failing = true ∧
      u.nv.holdups = min (s.nv.holdups + 1) 65535 ∧ u.keep.choice = none ∧ u.get F.MOD_CTL_SVC_NEXT = 0 ∧
      u.get F.PNL_STATUS_UPDATING = 0 ∧ u.mem = s.mem) ∧
  (∀ (t : Nat) (s : State), s.pwr.holdStep = 1 → s.pwr.holdAt + 1000000 ≤ max s.now t → s.on F.EVT_STATUS_RUNNING = false → Steps (exec (.lastWordsComplete t) s)
    fun u => u.nv.lastWords.valid = true ∧ u.nv.lastWords.epoch = s.epoch ∧ u.nv.lastWords.pwrcyc = s.nv.pwrcyc ∧
      (s.on F.TIM_STATUS_STARTED = true → u.nv.lastWords.lineTime = max s.now t) ∧ u.pwr.holdStep = 2 ∧ u.regs = s.regs) ∧
  (∀ (t : Nat) (s : State), s.pwr.holdStep = 2 → s.pwr.holdAt + 3000000 ≤ max s.now t → Steps (exec (.holdUpPowerDown t) s) fun u => u.rdN R.PWR_ON = 3 ∧
    u.get F.MOD_STATUS_HOLDUP = 1 ∧ u.pwr.holdStep = 3 ∧ u.img = none ∧ u.mem = [] ∧ u.nv.lastWords = s.nv.lastWords) ∧
  (∀ (t : Nat) (s : State), s.pwr.holdStep = 3 → s.pwr.holdAt + 8000000 ≤ max s.now t → Steps (exec (.panelDischargeComplete t) s) fun u => u.rdN R.PWR_ON = 1 ∧
    u.pwr.holdStep = 4 ∧ SameRegs s u [R.PWR_ON]) ∧
  (∀ (t : Nat) (s : State), s.on F.MOD_STATUS_HOLDUP = true → s.pwr.holdAt + 10000000 ≤ max s.now t → s.feedOk = true → s.pwr.rstHeld = false →
    Steps (exec (.holdUpEnd t) s) fun u => u.Restarted 4 ∧ u.get F.MOD_STATUS_HOLDUP = 0 ∧ u.nv.pwrcyc = s.nv.pwrcyc) ∧
  (∀ (t : Nat) (s : State), s.on F.MOD_STATUS_HOLDUP = true → s.pwr.holdAt + 10000000 ≤ max s.now t → s.feedOk = false → Steps (exec (.holdUpEnd t) s) fun u =>
    u.rdN R.PWR_ON = 0 ∧ u.img = none ∧ u.mem = [] ∧ u.flash = s.flash ∧ u.keep = {}) ∧
  (∀ (die hbm face : Int) (t : Nat) (s : State), s.pd 0 = true → s.pd 20 = false → s.pd 21 = false → 9 ≤ s.pwr.hotRun → 100 ≤ die → die < 110 →
    s.on F.PWR_TEMP_HOT = false → s.Room islSup → Steps (exec (.temperatureSample die hbm face t) s) fun u =>
      u.get F.PWR_TEMP_HOT = 1 ∧ u.get F.PWR_TEMP_HOT_SEEN = 1 ∧ Raises s u 0xD030 islSup (le 4 (ofSigned 32 die) ++ le 4 (ofSigned 32 (-273))) ∧
      u.get F.PWR_TEMP_DIE_C = die.toNat ∧ SameRegs s u [R.PWR_TEMP]) ∧
  (∀ (die hbm face : Int) (t : Nat) (s : State), s.pd 0 = true → s.pd 20 = true → s.on F.PWR_TEMP_HOT = true → die < 95 → hbm < 85 →
    s.Room islSup → Steps (exec (.temperatureSample die hbm face t) s) fun u => u.get F.PWR_TEMP_HOT = 0 ∧
      Raises s u 0xD032 islSup [] ∧ SameRegs s u [R.PWR_TEMP]) ∧
  (∀ (die hbm face : Int) (t : Nat) (s : State), s.pd 0 = true → 9 ≤ s.pwr.critRun → 110 ≤ die → s.on F.MOD_STATUS_HOLDUP = false →
    Steps (exec (.temperatureSample die hbm face t) s) fun u => u.Restarted 6) ∧
  (∀ (t : Nat) (s : State), max s.now t < s.pwr.holdAt + 1000000 → exec (.lastWordsComplete t) s = .next (s.at t) ∧
    exec (.holdUpPowerDown t) s = .next (s.at t) ∧ exec (.panelDischargeComplete t) s = .next (s.at t) ∧
    exec (.holdUpEnd t) s = .next (s.at t))

/-! ## Chapters 17 and 18: management, recorder, panel -/

/-- Sessions and messages (17 R724 to R733): an echo is answered only at an address of the module, and never a fragment; a
handshake that fails or finds no free session is reported, one that succeeds opens a session, of control with an ENABLED key; an
idle session closes with 0xE202; a fragment with a bad header is answered BAD_REQUEST, one of a request over 65,536 bytes
TOO_LARGE; a request whose last fragment has come runs, or is answered again from the kept response; a fragment with MORE waits;
fragments older than 1 s are discarded; a response of at most 1,184 bytes is one fragment with its header. Where the spec leaves
a point open the clause is the model's choice (assumptions 14, 15, 59). Completes: networkEcho, dtlsHandshake,
sessionIdleTimeout, qmpFragmentRx, qmpFragmentTimeout. -/
def Obligations.SessionsAndMessages : Prop :=
  (∀ (p : Fin 3) (k : Fin 4) (act : Bool) (s : State), s.answersAt p.val act (decide (2 ≤ k.val)) = true →
    Steps (exec (.networkEcho p k false act) s) fun u => u = { s with out := s.out ++ [.netAnswer p.val k.val] }) ∧
  (∀ (p : Fin 3) (k : Fin 4) (act : Bool) (s : State), exec (.networkEcho p k true act) s = .next s) ∧
  (∀ (p : Fin 3) (key : List Byte) (act v6 : Bool) (h : BitVec 32) (t : Nat) (s : State), s.answersAt p.val act v6 = true →
    s.Room islMgmt → Steps (exec (.dtlsHandshake p key act v6 false h t) s) fun u => Raises s u 0xE203 islMgmt [] ∧
      u.mgmt = s.mgmt ∧ u.regs = s.regs) ∧
  (∀ (p : Fin 3) (key : List Byte) (act v6 : Bool) (h : BitVec 32) (t : Nat) (s : State), s.answersAt p.val act v6 = true →
    s.image.events.noMonitor = false → s.openSessions = [] → s.Room islMgmt →
    Steps (exec (.dtlsHandshake p key act v6 true h t) s) fun u =>
      u.session 0 = some { port := p.val, control := controlKey s.nv.keys key, onActive := act, last := max s.now t } ∧
      Raises s u 0xE201 islMgmt (le 1 (p.val + 1) ++ le 4 (b2n (controlKey s.nv.keys key)) ++ le 4 h.toNat) ∧
      u.regs = s.regs) ∧
  (∀ (p : Fin 3) (key : List Byte) (act v6 : Bool) (h : BitVec 32) (t : Nat) (s : State), s.answersAt p.val act v6 = true →
    s.image.events.noMonitor = false → s.openSessions.length = 16 → s.Room islMgmt →
    Steps (exec (.dtlsHandshake p key act v6 true h t) s) fun u => Raises s u 0xE204 islMgmt [] ∧ u.mgmt = s.mgmt) ∧
  (∀ (ses : Fin 16) (t : Nat) (k : Session) (s : State), s.session ses.val = some k → k.running = none →
    k.last + s.idleNs ≤ max s.now t → s.Room islMgmt → Steps (exec (.sessionIdleTimeout ses t) s) fun u =>
      u.session ses.val = none ∧ Raises s u 0xE202 islMgmt (le 4 1) ∧ u.regs = s.regs ∧
      ∀ n, n ≠ ses.val → u.session n = s.session n) ∧
  (∀ (ses : Fin 16) (t : Nat) (k : Session) (s : State), s.session ses.val = some k → max s.now t < k.last + s.idleNs →
    exec (.sessionIdleTimeout ses t) s = .next (s.at t)) ∧
  (∀ (ses : Fin 16) (b : List Byte) (t : Nat) (k : Session) (s : State), s.on F.MOD_STATUS_HOLDUP = false → 16 ≤ b.length →
    s.session ses.val = some k → headerOk b = false → Steps (exec (.qmpFragmentRx ses b t) s) fun u =>
      u = { s with now := max s.now t, out := s.out ++ response ses (field b 4 4) (field b 1 1) 1 [] }) ∧
  (∀ (ses : Fin 16) (b : List Byte) (t : Nat) (k : Session) (s : State), s.on F.MOD_STATUS_HOLDUP = false → 16 ≤ b.length →
    s.session ses.val = some k → headerOk b = true → 65536 < field b 12 4 → Steps (exec (.qmpFragmentRx ses b t) s) fun u =>
      u = { s with now := max s.now t, out := s.out ++ response ses (field b 4 4) (field b 1 1) 7 [] }) ∧
  (∀ (ses : Fin 16) (b : List Byte) (t : Nat) (k : Session) (s : State), s.on F.MOD_STATUS_HOLDUP = false → 16 ≤ b.length →
    s.session ses.val = some k → k.frags = [] → k.kept = [] → k.running = none → headerOk b = true → field b 3 1 = 0 →
    bitOf (field b 2 1) 1 = false → field b 12 4 = b.length - 16 → 1 ≤ field b 1 1 → field b 1 1 ≤ 13 →
    Steps (exec (.qmpFragmentRx ses b t) s) fun u =>
      u.session ses.val = some { k with running := some (field b 4 4), last := max s.now t } ∧ u.out = s.out ∧
      u.regs = s.regs) ∧
  (∀ (ses : Fin 16) (req t : Nat) (k : Session) (s : State), s.session ses.val = some k →
    Steps (exec (.qmpFragmentTimeout ses req t) s) fun u =>
      u.session ses.val = some { k with
        frags := k.frags.filter fun g => decide (g.req ≠ req) || decide (max s.now t < g.at_ + 1000000000) } ∧ u.out = s.out ∧
      u.regs = s.regs) ∧
  (∀ (p : Fin 3) (k : Fin 4) (act : Bool) (s : State), s.answersAt p.val act (decide (2 ≤ k.val)) = false →
    exec (.networkEcho p k false act) s = .next s) ∧
  (∀ (p : Fin 3) (key : List Byte) (act v6 ok : Bool) (h : BitVec 32) (t : Nat) (s : State), s.answersAt p.val act v6 = false →
    exec (.dtlsHandshake p key act v6 ok h t) s = .next (s.at t)) ∧
  (∀ (ses : Fin 16) (b : List Byte) (t : Nat) (k : Session) (e : QmpResp) (s : State), s.on F.MOD_STATUS_HOLDUP = false →
    16 ≤ b.length → s.session ses.val = some k → k.frags = [] → k.running = none → headerOk b = true → field b 3 1 = 0 →
    bitOf (field b 2 1) 1 = false → field b 12 4 ≤ 65536 → k.kept.find? (fun e => decide (e.req = field b 4 4)) = some e →
    Steps (exec (.qmpFragmentRx ses b t) s) fun u => u.session ses.val = some { k with last := max s.now t } ∧
      u.out = s.out ++ (List.range e.count).map (fun i => .qmp ses.val (e.fragment i)) ∧ u.regs = s.regs) ∧
  (∀ (ses : Fin 16) (b : List Byte) (t : Nat) (k : Session) (s : State), s.on F.MOD_STATUS_HOLDUP = false → 16 ≤ b.length →
    s.session ses.val = some k → k.frags = [] → headerOk b = true → field b 3 1 = 0 → bitOf (field b 2 1) 1 = true →
    field b 12 4 ≤ 65536 → Steps (exec (.qmpFragmentRx ses b t) s) fun u => u.out = s.out ∧ u.regs = s.regs ∧
      u.session ses.val = some { k with frags := [{ req := field b 4 4, at_ := max s.now t, cmd := field b 1 1, total := field b 12 4, parts := [(0, some (b.drop 16))] }] }) ∧
  (∀ (r : QmpResp), r.payload.length ≤ 1184 → r.count = 1 ∧
    r.fragment 0 = le 1 1 ++ le 1 r.cmd ++ le 1 1 ++ le 1 0 ++ le 4 r.req ++ le 2 r.status ++ le 2 r.payload.length ++
      le 4 r.payload.length ++ r.payload)

/-- Requests (17 R734 to R741, R759; 04 R166; 07 R351; 09 R429, R462; 16 R716): READ answers register words, or waits for the
close of an image of the asked class, which answers it; a WRITE answers the status of each entry, DENIED with 0xE205 for an image
window; a count out of range is answered TOO_LARGE; SUMMARY answers the latest snapshot, which before the first boundary is taken
every 1 ms; EVENTS answers GONE where nothing is held; SWAP, REJOIN and RESTART act as their register bits do; captures are saved
to flash, read and listed, GONE where they are not held, TOO_LARGE where the store is full. The layouts of these payloads are this
model's choice (assumptions 44, 95). Where the spec leaves a point open the clause is the model's choice (assumptions 14, 15, 60).
Completes: read, write, summary, summarySnapshotTimed, events, swap, rejoin, restart, traceSave, traceRead, traceList. -/
def Obligations.Requests : Prop :=
  (∀ (ses : Fin 16) (req p t : Nat) (s : State), (s.at t).Serves ses req false false → p < 1048576 →
    s.offlineAt (0x10000000 + 4 * p) = none → s.windowPoisoned (0x10000000 + 4 * p) 4 = false →
    Steps (exec (.read ses req (.regs (0x10000000 + 4 * p) 1) t) s) fun u =>
      u.out = s.out ++ response ses req 1 0 (le 4 (s.closedVal p).v.toNat) ∧ u.regs = s.regs ∧ u.sig = s.sig) ∧
  (∀ (ses : Fin 16) (req a n t : Nat) (s : State), (s.at t).Serves ses req false false → 256 < n →
    Steps (exec (.read ses req (.regs a n) t) s) fun u => u.out = s.out ++ response ses req 1 7 [] ∧ u.regs = s.regs) ∧
  (∀ (ses : Fin 16) (req c t : Nat) (l : List Nat) (s : State), (s.at t).Serves ses req false false → l.length ≤ 4096 → c ≤ 7 →
    Steps (exec (.read ses req (.points c l) t) s) fun u =>
      u.mgmt.reads = s.mgmt.reads ++ [{ session := ses.val, req := req, cls := c, points := l }] ∧ u.out = s.out ∧
      u.regs = s.regs ∧ ∃ k, u.session ses.val = some k ∧ k.running = some req) ∧
  (∀ (ses : Fin 16) (req t : Nat) (a : BitVec 32) (v : Word) (s : State), (s.at t).Serves ses req true false →
    s.offlineAt a.toNat = none → imageWindow a.toNat = true → a.toNat % 4 = 0 → s.Room islMgmt → Steps (exec (.write ses req [(a, v)] t) s) fun u =>
      u.out = s.out ++ response ses req 2 0 (le 2 2) ∧ u.get F.SIG_STATUS_STORE_FAULT = 1 ∧ SameRegs s u [R.SIG_STATUS] ∧
      Raises s u 0xE205 islMgmt (le 8 a.toNat)) ∧
  (∀ (ses : Fin 16) (req t : Nat) (l : List (BitVec 32 × Word)) (s : State), (s.at t).Serves ses req true false →
    64 < l.length → Steps (exec (.write ses req l t) s) fun u => u.out = s.out ++ response ses req 2 7 [] ∧ u.regs = s.regs) ∧
  (∀ (ses : Fin 16) (req : Nat) (s : State), s.Serves ses req false false → 2 ≤ s.get F.MOD_STATUS_STAGE →
    Steps (exec (.summary ses req) s) fun u => u.out = s.out ++ response ses req 4 0 s.mgmt.snapshot ∧ u.regs = s.regs) ∧
  (∀ (ses : Fin 16) (req : Nat) (s : State), s.get F.MOD_STATUS_STAGE < 2 → exec (.summary ses req) s = .next s) ∧
  (∀ (t : Nat) (s : State), s.pd 22 = true → (s.time.running = false ∨ s.time.fresh = true) →
    (s.mgmt.snapAt = none ∨ ∃ a, s.mgmt.snapAt = some a ∧ a + 1000000 ≤ max s.now t) →
    Steps (exec (.summarySnapshotTimed t) s) fun u =>
    u.mgmt.timed = s.mgmt.timed + 1 ∧ u.mgmt.snapAt = some (max s.now t) ∧ u.out = s.out ∧
    (∃ b : List Byte, u.mgmt.snapshot = b ++ le 4 (crc32c b)) ∧ SameRegs s u [R.PNL_STATUS]) ∧
  (∀ (t : Nat) (s : State), (s.at t).snapDue = false → exec (.summarySnapshotTimed t) s = .next (s.at t)) ∧
  (∀ (ses : Fin 16) (req : Nat) (q : BitVec 64) (c : Fin 65536) (sev : Fin 3) (m : BitVec 16) (s : State),
    s.Serves ses req false false → 256 < c.val → Steps (exec (.events ses req q c sev m) s) fun u =>
      u.out = s.out ++ response ses req 8 7 [] ∧ u.regs = s.regs) ∧
  (∀ (ses : Fin 16) (req : Nat) (q : BitVec 64) (c : Fin 65536) (sev : Fin 3) (m : BitVec 16) (s : State),
    s.Serves ses req false false → 1 ≤ c.val → c.val ≤ 256 → s.heldFrom q.toNat = [] →
    Steps (exec (.events ses req q c sev m) s) fun u => u.out = s.out ++ response ses req 8 8 [] ∧ u.regs = s.regs) ∧
  (∀ (ses : Fin 16) (req : Nat) (q : BitVec 64) (c : Fin 65536) (sev : Fin 3) (m : BitVec 16) (s : State),
    s.Serves ses req false false → 1 ≤ c.val → c.val ≤ 256 → s.heldFrom q.toNat ≠ [] →
    Steps (exec (.events ses req q c sev m) s) fun u => ∃ l : List EvRecord, l.length ≤ c.val ∧
      (∀ r ∈ l, r ∈ s.heldFrom q.toNat ∧ sev.val ≤ r.severity) ∧
      u.out = s.out ++ response ses req 8 0 (le 8 ((l.head?.map fun r => r.seq).getD 0) ++ l.flatMap EvRecord.bytes)) ∧
  (∀ (ses : Fin 16) (req t : Nat) (s : State), (s.at t).Serves ses req true true → (s.at t).swapReason = 0 →
    s.twin.switch = none → Steps (exec (.swap ses req t) s) fun u =>
      u.out = s.out ++ [s.foxWord 4 (boundaryAfter (max s.now t) 4)] ++ response ses req 7 0 [] ∧
      u.twin.switch = some { at_ := boundaryAfter (max s.now t) 4, cause := 4 }) ∧
  (∀ (ses : Fin 16) (req t : Nat) (s : State), (s.at t).Serves ses req true true → (s.at t).swapReason ≠ 0 →
    Steps (exec (.swap ses req t) s) fun u => u.out = s.out ++ response ses req 7 4 (le 4 (s.at t).swapReason) ∧
      u.get F.TWN_CTL_REFUSED = 1 ∧ u.twin = s.twin) ∧
  (∀ (ses : Fin 16) (req t : Nat) (s : State), (s.at t).Serves ses req true false → s.tstate = 6 →
    Steps (exec (.rejoin ses req t) s) fun u => u.out = s.out ++ response ses req 12 0 [] ∧ u.tstate = 0) ∧
  (∀ (ses : Fin 16) (req t : Nat) (s : State), (s.at t).Serves ses req true false →
    Steps (exec (.restart ses req true t) s) fun u => u.Restarted 3) ∧
  (∀ (ses : Fin 16) (req t : Nat) (s : State), (s.at t).Serves ses req true false → s.isActive = true → s.ptstate = 3 →
    s.on F.TWN_STATUS_SUSPECT = true → s.twin.switch = none → Steps (exec (.restart ses req false t) s) fun u =>
      u.out = s.out ++ response ses req 13 4 (le 4 0) ∧ u.get F.MOD_CTL_REFUSED = 1 ∧ SameRegs s u [R.MOD_CTL]) ∧
  (∀ (ses : Fin 16) (req : Nat) (c : Fin 32) (k : Fin 65536) (s : State), s.Serves ses req true false →
    s.captureHeld c.val k.val = true →
    (s.loops.store.map (fun x => x.size)).sum + (s.captureBytes c.val k.val).length ≤ captureStore.2 →
    Steps (exec (.traceSave ses req c k) s) fun u => u.out = s.out ++ response ses req 9 0 [] ∧
      (∃ x : Capture, u.loops.store = s.loops.store ++ [x] ∧ x.cluster = c.val ∧ x.number = k.val ∧
        u.flash = Memory.writeN s.flash x.addr (s.captureBytes c.val k.val)) ∧ u.regs = s.regs ∧ u.mem = s.mem) ∧
  (∀ (ses : Fin 16) (req : Nat) (c : Fin 32) (k : Fin 65536) (s : State), s.Serves ses req true false →
    s.captureHeld c.val k.val = false → Steps (exec (.traceSave ses req c k) s) fun u =>
      u.out = s.out ++ response ses req 9 8 [] ∧
      u.loops = s.loops) ∧
  (∀ (ses : Fin 16) (req : Nat) (c : Fin 32) (k : Fin 65536) (ch : Fin 8) (s : State), s.Serves ses req true false →
    s.captureHeld c.val k.val = true → Steps (exec (.traceRead ses req c k ch) s) fun u =>
      u.out = s.out ++ response ses req 9 0 (s.captureChan c.val k.val ch.val) ∧ u.regs = s.regs ∧ u.mem = s.mem) ∧
  (∀ (ses : Fin 16) (req : Nat) (s : State), s.Serves ses req true false → Steps (exec (.traceList ses req) s) fun u =>
    u.out = s.out ++ response ses req 9 0 (s.loops.store.flatMap fun x => le 4 x.cluster ++ le 4 x.number ++ le 4 x.info.trigCount) ∧
    u.regs = s.regs ∧ u.loops = s.loops) ∧
  (∀ (ses : Fin 16) (req : Nat) (c : Fin 32) (k : Fin 65536) (s : State), s.Serves ses req true false →
    s.captureHeld c.val k.val = true →
    captureStore.2 < (s.loops.store.map (fun x => x.size)).sum + (s.captureBytes c.val k.val).length →
    Steps (exec (.traceSave ses req c k) s) fun u => u.out = s.out ++ response ses req 9 7 [] ∧ u.loops = s.loops ∧
      u.flash = s.flash) ∧
  (∀ (ses : Fin 16) (req : Nat) (c : Fin 32) (k : Fin 65536) (ch : Fin 8) (s : State), s.Serves ses req true false →
    s.captureHeld c.val k.val = false → Steps (exec (.traceRead ses req c k ch) s) fun u =>
      u.out = s.out ++ response ses req 9 8 [] ∧ u.regs = s.regs ∧ u.mem = s.mem) ∧
  (∀ (n p : Nat) (ses req : Fin 16) (k : Session) (s : State), s.session ses.val = some k →
    s.mgmt.reads = [{ session := ses.val, req := req.val, cls := 0, points := [p] }] →
    (s.pointReads n).mgmt.reads = [] ∧
    (s.pointReads n).out = s.out ++ response ses req.val 1 0 (le 4 (s.closedVal p).v.toNat ++ [(s.closedVal p).q]))

/-- The recorder and the panel (17 R747, R748, R752 to R757; 18 R768 to R781): a raise that is taken gets the next SEQ and
stands in the tail, one without a token is counted as suppressed and reported later; an archive write that is due advances EVT_ARCH
to the end of its block; an update of the panel starts when it may and writes the rendered image, a rewrite alone the same one; a
failed check counts and asks for a rewrite, a failed rewrite sets PANEL_FAULT; the lamp test ends after its time; a short press
restarts the module or, on an active without a MATCHED partner, arms the confirmation, within which a second press restarts it.
Where the spec leaves a point open the clause is the model's choice (assumptions 14, 15, 58, 63, 109). Completes: eventRaise,
suppressionReport, archiveBlockWrite, panelUpdateStart, panelUpdateComplete, panelCheck, lampTestEnd, buttonRelease, buttonStuck,
buttonUnstuck, confirmExpiry. -/
def Obligations.RecorderAndPanel : Prop :=
  (∀ (t : Nat) (s : State), s.on F.EVT_STATUS_RUNNING = false → exec (.eventRaise t) s = .next (s.at t)) ∧
  (∀ (t : Nat) (r : Raise) (s : State), s.on F.EVT_STATUS_RUNNING = true → s.recd.queue = [r] →
    (s.codeRec r.code).noLimit = true → (s.codeRec r.code).clear = 0 → s.nv.seq + 1 < 2 ^ 64 →
    Steps (exec (.eventRaise t) s) fun u => u.nv.seq = s.nv.seq + 1 ∧ u.rd64 R.EVT_HEAD = s.nv.seq + 1 ∧
      u.recd.queue = [] ∧ ∃ e : EvRecord, tget none u.nv.tail ((s.nv.seq + 1) % 16384) = some e ∧ e.seq = s.nv.seq + 1 ∧
        e.code = r.code ∧ e.island = r.island ∧ e.severity = severity r.code ∧ e.data = pad 16 r.data) ∧
  (∀ (t : Nat) (r : Raise) (s : State), s.on F.EVT_STATUS_RUNNING = true → s.recd.queue = [r] →
    (s.codeRec r.code).noLimit = false → (s.codeRec r.code).clear = 0 → r.code ≠ 0xE101 → r.code ≠ 0xE102 →
    (s.codeRec r.code).code = r.code → ((s.at t).bucket (s.codeRec r.code)).nano < 1000000000 →
    Steps (exec (.eventRaise t) s) fun u => u.nv.seq = s.nv.seq ∧ u.nv.tail = s.nv.tail ∧
      u.get F.EVT_COUNTS_SUPPRESSED = min (s.get F.EVT_COUNTS_SUPPRESSED + 1) (2 ^ F.EVT_COUNTS_SUPPRESSED.len - 1) ∧
      u.recd.queue = []) ∧
  (∀ (c : Fin 65536) (t : Nat) (s : State), ((s.at t).bucket (s.codeRec c.val)).suppressed ≠ 0 →
    1000000000 ≤ ((s.at t).bucket (s.codeRec c.val)).nano → Steps (exec (.suppressionReport c t) s) fun u =>
      u.nv.seq = s.nv.seq + 1 ∧ ∃ e : EvRecord, tget none u.nv.tail ((s.nv.seq + 1) % 16384) = some e ∧ e.code = 0xE101) ∧
  (∀ (c : Fin 65536) (t : Nat) (s : State), ((s.at t).bucket (s.codeRec c.val)).suppressed = 0 →
    exec (.suppressionReport c t) s = .next (s.at t)) ∧
  (∀ (t : Nat) (s : State), (s.at t).archDue = true → Steps (exec (.archiveBlockWrite t) s) fun u =>
    u.nv.archSeq = max s.nv.archSeq (min s.nv.seq ((s.nv.archSeq + 1) / 64 * 64 + 63)) ∧
    u.rd64 R.EVT_ARCH = u.nv.archSeq % 2 ^ 64 ∧ u.nv.seq = s.nv.seq ∧
    u.nv.tail = s.nv.tail ∧ u.mem = s.mem ∧ SameRegs s u [R.EVT_ARCH, R.EVT_ARCH + 4, R.EVT_STATUS]) ∧
  (∀ (t : Nat) (s : State), (s.at t).panelMay = true → s.on F.PNL_STATUS_PENDING = true →
    Steps (exec (.panelUpdateStart t) s) fun u => u.get F.PNL_STATUS_UPDATING = 1 ∧ u.get F.PNL_STATUS_PENDING = 0 ∧
      u.panel.shown = (s.at t).render ∧ u.panel.lastStart = some (max s.now t) ∧ SameRegs s u [R.PNL_STATUS]) ∧
  (∀ (t : Nat) (s : State), (s.at t).panelMay = false → exec (.panelUpdateStart t) s = .next (s.at t)) ∧
  (∀ (t : Nat) (s : State), s.on F.PNL_STATUS_UPDATING = true → s.on F.PNL_STATUS_PANEL_FAULT = false →
    s.panel.lastStart.getD 0 + 600000000 ≤ max s.now t → Steps (exec (.panelUpdateComplete true t) s) fun u => u.get F.PNL_STATUS_UPDATING = 0 ∧ u.panel.rewrite = false ∧
      u.recd = s.recd ∧ SameRegs s u [R.PNL_STATUS, R.PNL_UPDATES]) ∧
  (∀ (t : Nat) (s : State), s.on F.PNL_STATUS_UPDATING = true → s.panel.rewrite = true →
    s.on F.PNL_STATUS_PANEL_FAULT = false → s.panel.lastStart.getD 0 + 600000000 ≤ max s.now t → s.Room islPanel → Steps (exec (.panelUpdateComplete false t) s) fun u =>
      u.get F.PNL_STATUS_PANEL_FAULT = 1 ∧ Raises s u 0xE011 islPanel []) ∧
  (∀ (t : Nat) (s : State), s.pd 1 = true → s.on F.PNL_STATUS_UPDATING = false → s.on F.MOD_STATUS_HOLDUP = false →
    s.panel.rewrite = false → (s.panel.checkAt = none ∨ ∃ a, s.panel.checkAt = some a ∧ a + 60000000000 ≤ max s.now t) →
    s.Room islPanel → Steps (exec (.panelCheck false t) s) fun u => u.panel.rewrite = true ∧
      u.get F.PNL_STATUS_CRC_FAILS = min (s.get F.PNL_STATUS_CRC_FAILS + 1) (2 ^ F.PNL_STATUS_CRC_FAILS.len - 1) ∧
      Raises s u 0xE010 islPanel [] ∧ SameRegs s u [R.PNL_STATUS]) ∧
  (∀ (ok : Bool) (t : Nat) (s : State), s.pd 1 = false → exec (.panelCheck ok t) s = .next (s.at t)) ∧
  (∀ (t : Nat) (s : State), s.panel.lampTill ≤ max s.now t →
    exec (.lampTestEnd t) s = .next ((s.at t).pn fun p => { p with lampTest := false })) ∧
  (∀ (ms t : Nat) (s : State), (ms < 100 ∨ 10000 < ms) → exec (.buttonRelease ms t) s = .next (s.at t)) ∧
  (∀ (ms t : Nat) (s : State), 2000 < ms → ms ≤ 10000 → s.on F.MOD_STATUS_HOLDUP = false → s.on F.PNL_STATUS_STUCK = false →
    s.Room islSup → Steps (exec (.buttonRelease ms t) s) fun u => Raises s u 0xE023 islSup [] ∧ u.regs = s.regs) ∧
  (∀ (ms t : Nat) (s : State), 100 ≤ ms → ms ≤ 2000 → s.on F.MOD_STATUS_HOLDUP = false → s.on F.PNL_STATUS_STUCK = false →
    s.isActive = false → Steps (exec (.buttonRelease ms t) s) fun u => u.Restarted 2) ∧
  (∀ (ms t : Nat) (s : State), 100 ≤ ms → ms ≤ 2000 → s.on F.MOD_STATUS_HOLDUP = false → s.on F.PNL_STATUS_STUCK = false →
    s.isActive = true → 5 ≤ s.get F.MOD_STATUS_STAGE → s.on F.PNL_STATUS_CONFIRM = false → s.ptstate ≠ 3 → s.Room islSup →
    Steps (exec (.buttonRelease ms t) s) fun u => u.get F.PNL_STATUS_CONFIRM = 1 ∧
      u.panel.confirmTill = max s.now t + 3000000000 ∧ u.isActive = true ∧ Raises s u 0xE021 islSup (le 4 1) ∧
      SameRegs s u [R.PNL_STATUS]) ∧
  (∀ (t : Nat) (s : State), s.on F.MOD_STATUS_HOLDUP = false → s.on F.PNL_STATUS_STUCK = false → s.Room islSup →
    Steps (exec (.buttonStuck t) s) fun u => u.get F.PNL_STATUS_STUCK = 1 ∧ Raises s u 0xE022 islSup [] ∧
      SameRegs s u [R.PNL_STATUS]) ∧
  (∀ (t : Nat) (s : State), s.on F.PNL_STATUS_STUCK = true → s.Room islSup → Steps (exec (.buttonUnstuck t) s) fun u =>
    u.get F.PNL_STATUS_STUCK = 0 ∧ Raises s u 0xE024 islSup [] ∧ SameRegs s u [R.PNL_STATUS]) ∧
  (∀ (t : Nat) (s : State), s.on F.PNL_STATUS_CONFIRM = true → s.panel.confirmTill ≤ max s.now t → s.Room islSup →
    Steps (exec (.confirmExpiry t) s) fun u => u.get F.PNL_STATUS_CONFIRM = 0 ∧ Raises s u 0xE021 islSup (le 4 2) ∧
      SameRegs s u [R.PNL_STATUS]) ∧
  (∀ (t : Nat) (s : State), (s.at t).archDue = false → exec (.archiveBlockWrite t) s = .next (s.at t)) ∧
  (∀ (t : Nat) (s : State), (s.at t).panelMay = true → s.panel.rewrite = true → s.on F.PNL_STATUS_PENDING = false →
    s.panel.lastStart ≠ none → Steps (exec (.panelUpdateStart t) s) fun u => u.get F.PNL_STATUS_UPDATING = 1 ∧
      u.panel.shown = s.panel.shown ∧ u.panel.stamp = s.panel.stamp ∧ u.panel.lastStart = some (max s.now t)) ∧
  (∀ (ok : Bool) (t : Nat) (s : State), s.on F.PNL_STATUS_UPDATING = true →
    max s.now t < s.panel.lastStart.getD 0 + 600000000 → exec (.panelUpdateComplete ok t) s = .next (s.at t)) ∧
  (∀ (t : Nat) (s : State), max s.now t < s.panel.lampTill → exec (.lampTestEnd t) s = .next (s.at t)) ∧
  (∀ (ms t : Nat) (s : State), 100 ≤ ms → ms ≤ 2000 → s.on F.MOD_STATUS_HOLDUP = false → s.on F.PNL_STATUS_STUCK = false →
    s.get F.MOD_STATUS_STAGE < 5 → s.on F.MOD_STATUS_REDUCED = false → Steps (exec (.buttonRelease ms t) s) fun u =>
      u.Restarted 2) ∧
  (∀ (ms t : Nat) (s : State), 100 ≤ ms → ms ≤ 2000 → s.on F.MOD_STATUS_HOLDUP = false → s.on F.PNL_STATUS_STUCK = false →
    s.on F.PNL_STATUS_CONFIRM = true → Steps (exec (.buttonRelease ms t) s) fun u => u.Restarted 2)

/-- The two commands in which every plane acts (01 R27, R33; 04 R159, R162, R164, R180; 10 R496; 17 R739): a boundary message that is
not the next of the sequence, or without PD22, changes nothing but the time and the tags; any other takes the summary of a C5
boundary first, sets CYC_COUNT and then lets the planes act; an image closes once for its boundary, with every delivered value and
every force, SIG_CLOSED shows it, and the buffers change roles. Where the spec leaves a point open the clause is the model's
choice (assumptions 61, 62, 92). Completes: boundaryMessage, imageClose. -/
def Obligations.BoundaryAndClose : Prop :=
  (∀ (n : Nat) (ready : Bool) (cs : List (Fin 32 × Nat)) (st : List (Fin 4 × Fin 65)) (tags : List TagEvent) (s : State),
    s.boundaryRuns n = false →
    exec (.boundaryMessage n ready cs st tags) s = .next ((s.at (boundaryNs n)).each tags State.tagEvent)) ∧
  (∀ (n : Nat) (ready : Bool) (cs : List (Fin 32 × Nat)) (st : List (Fin 4 × Fin 65)) (s : State),
    s.boundaryRuns n = true → (s.img = none ∨ ((((s.at (boundaryNs n)).snapBoundary n).countBoundary n).controlBoundary n ready
      (cs.map fun e => (e.1.val, e.2)) (st.map fun e => (e.1.val, e.2.val))).img ≠ none) →
    exec (.boundaryMessage n ready cs st []) s =
      .next ((((((s.at (boundaryNs n)).snapBoundary n).countBoundary n).controlBoundary n ready (cs.map fun e => (e.1.val, e.2))
        (st.map fun e => (e.1.val, e.2.val))).sendBoundary n).showBoundary n)) ∧
  (∀ (n : Nat) (ready : Bool) (cs : List (Fin 32 × Nat)) (st : List (Fin 4 × Fin 65)) (tags : List TagEvent) (s : State),
    s.boundaryRuns n = true → Steps (exec (.boundaryMessage n ready cs st tags) s) fun u =>
      boundaryNs n ≤ u.now) ∧
  (∀ (n : Nat) (s : State), n < 2 ^ 64 → (s.countBoundary n).count = n ∧
    SameRegs s (s.countBoundary n) [R.CYC_COUNT, R.CYC_COUNT + 4, R.CYC_STATUS, R.LPE_STATUS]) ∧
  (∀ (ns t : Nat) (s : State), (s.img = none ∨ s.time.running = false ∨ s.rd64 R.SIG_CLOSED = s.count) →
    exec (.imageClose ns t) s = .next (s.at t)) ∧
  (∀ (ns t : Nat) (s : State), s.img ≠ none → s.time.running = true → s.rd64 R.SIG_CLOSED ≠ s.count →
    (s.at t).closeOpen.closable s.count = true → exec (.imageClose ns t) s =
      .next (((((s.at t).closeOpen).agreeTime ns).closeAll s.count).afterClose s.count)) ∧
  (∀ (n p : Nat) (s : State), n < 2 ^ 64 → (s.closeImage n).rd64 R.SIG_CLOSED = n ∧
    (s.sig.forces = [] → s.sig.writes = [] → (s.closeImage n).closedVal p = s.closedVal p) ∧
    (∀ v : PointVal, s.sig.forces = [] → s.sig.writes = [(p, some v)] → (s.closeImage n).closedVal p = v)) ∧
  (∀ (n : Nat) (s : State), (s.boundaryRuns n = true → s.time.running = true ∧ s.pd 22 = true ∧
    n = (if s.time.fresh then s.time.firstN else s.count + 1)) ∧
    (isBoundary 5 n = false → s.snapBoundary n = s) ∧ (isBoundary 5 n = true → (s.snapBoundary n).regs = s.regs ∧
      ∃ b : List Byte, (s.snapBoundary n).mgmt.snapshot = b ++ le 4 (crc32c b))) ∧
  (∀ (n p : Nat) (f : Force) (s : State), s.sig.forces = [f] → f.point = p → (s.closeImage n).closedVal p = f.shown ∧
    (s.closeImage n).sig.buf = !s.sig.buf ∧ (s.closeImage n).formingVal p = s.closedVal p)
end

