-- ==== Sys2Proof/Laws/Tab.lean ====
section
/-! SUPPORT. Laws of the sparse tables and byte memories: reading after writing, and the canonical form. -/
namespace Sys2Proof.Machine

variable {α : Type}

/-! ## Reading after writing -/

theorem tget_tins_same (d : α) (t : Tab α) (i : Nat) (v : α) : tget d (tins t i v) i = v := by
  induction t with
  | nil => simp [tins, tget]
  | cons e t ih =>
    obtain ⟨k, w⟩ := e
    unfold tins
    split
    · simp [tget]
    · split
      · simp [tget]
      · simp [tget, *]

theorem tget_tins_ne (d : α) (t : Tab α) {i j : Nat} (v : α) (h : i ≠ j) : tget d (tins t i v) j = tget d t j := by
  induction t with
  | nil => simp [tins, tget, h]
  | cons e t ih =>
    obtain ⟨k, w⟩ := e
    unfold tins
    split
    · rename_i hk; subst hk; simp [tget, h]
    · split
      · simp only [tget, h, if_false]
      · simp only [tget, ih]

theorem tget_tdel_same (d : α) (t : Tab α) (i : Nat) : tget d (tdel t i) i = d := by
  induction t with
  | nil => rfl
  | cons e t ih =>
    obtain ⟨k, w⟩ := e
    unfold tdel
    split
    · exact ih
    · simp only [tget, *, if_false]

theorem tget_tdel_ne (d : α) (t : Tab α) {i j : Nat} (hne : i ≠ j) : tget d (tdel t i) j = tget d t j := by
  induction t with
  | nil => rfl
  | cons e t ih =>
    obtain ⟨k, w⟩ := e
    unfold tdel
    split
    · rename_i hk; subst hk; simp only [tget, hne, if_false]; exact ih
    · simp only [tget, ih]

/-- A key reads as what was last written to it. -/
@[simp] theorem tget_tset_same [DecidableEq α] (d : α) (t : Tab α) (i : Nat) (v : α) : tget d (tset d t i v) i = v := by
  unfold tset
  split
  · rename_i hv; rw [hv]; exact tget_tdel_same d t i
  · exact tget_tins_same d t i v

/-- A write of one key leaves every other one. -/
theorem tget_tset_ne [DecidableEq α] (d : α) (t : Tab α) {i j : Nat} (v : α) (hne : i ≠ j) :
    tget d (tset d t i v) j = tget d t j := by
  unfold tset
  split
  · exact tget_tdel_ne d t hne
  · exact tget_tins_ne d t v hne

/-- A key after a write. -/
theorem tget_tset [DecidableEq α] (d : α) (t : Tab α) (i j : Nat) (v : α) :
    tget d (tset d t i v) j = if i = j then v else tget d t j := by
  split
  · rename_i h; rw [h]; exact tget_tset_same d t j v
  · rename_i h; exact tget_tset_ne d t v h

/-! ## The canonical form -/

theorem twfFrom_mono [DecidableEq α] {d : α} {lo lo' : Nat} {t : Tab α} (h : twfFrom d lo t = true) (hl : lo' ≤ lo) :
    twfFrom d lo' t = true := by
  cases t with
  | nil => rfl
  | cons e t =>
    obtain ⟨k, w⟩ := e
    simp only [twfFrom, Bool.and_eq_true, decide_eq_true_eq] at h ⊢
    exact ⟨⟨by omega, h.1.2⟩, h.2⟩

theorem twfFrom_tins [DecidableEq α] {d : α} {lo i : Nat} {t : Tab α} {v : α} (h : twfFrom d lo t = true) (hl : lo ≤ i)
    (hv : v ≠ d) : twfFrom d lo (tins t i v) = true := by
  induction t generalizing lo with
  | nil => simp [tins, twfFrom, hl, hv]
  | cons e t ih =>
    obtain ⟨k, w⟩ := e
    simp only [twfFrom, Bool.and_eq_true, decide_eq_true_eq] at h
    unfold tins
    split
    · rename_i hk; subst hk; simp [twfFrom, hl, hv, h.2]
    · split
      · simp only [twfFrom, Bool.and_eq_true, decide_eq_true_eq]
        exact ⟨⟨hl, by simp [hv]⟩, ⟨by omega, h.1.2⟩, h.2⟩
      · simp only [twfFrom, Bool.and_eq_true, decide_eq_true_eq]
        exact ⟨h.1, ih h.2 (by omega)⟩

theorem twfFrom_tdel [DecidableEq α] {d : α} {lo : Nat} {t : Tab α} (i : Nat) (h : twfFrom d lo t = true) :
    twfFrom d lo (tdel t i) = true := by
  induction t generalizing lo with
  | nil => rfl
  | cons e t ih =>
    obtain ⟨k, w⟩ := e
    simp only [twfFrom, Bool.and_eq_true, decide_eq_true_eq] at h
    unfold tdel
    split
    · exact twfFrom_mono (ih h.2) (by omega)
    · simp only [twfFrom, Bool.and_eq_true, decide_eq_true_eq]; exact ⟨h.1, ih h.2⟩

theorem twfFrom_tkeep [DecidableEq α] {d : α} {lo : Nat} {t : Tab α} (p : Nat → Bool) (h : twfFrom d lo t = true) :
    twfFrom d lo (tkeep p t) = true := by
  induction t generalizing lo with
  | nil => rfl
  | cons e t ih =>
    obtain ⟨k, w⟩ := e
    simp only [twfFrom, Bool.and_eq_true, decide_eq_true_eq] at h
    unfold tkeep
    split
    · simp only [twfFrom, Bool.and_eq_true, decide_eq_true_eq]; exact ⟨h.1, ih h.2⟩
    · exact twfFrom_mono (ih h.2) (by omega)

/-- Keeping some keys keeps the canonical form. -/
theorem twf_tkeep [DecidableEq α] {d : α} {t : Tab α} (p : Nat → Bool) (h : twf d t = true) : twf d (tkeep p t) = true :=
  twfFrom_tkeep p h

/-- A key after some keys are kept. -/
theorem tget_tkeep (d : α) (t : Tab α) (p : Nat → Bool) (i : Nat) :
    tget d (tkeep p t) i = if p i then tget d t i else d := by
  induction t with
  | nil => simp [tkeep, tget]
  | cons e t ih =>
    obtain ⟨k, w⟩ := e
    unfold tkeep
    by_cases hk : k = i
    · subst hk
      split
      · rename_i hp; simp [tget, hp]
      · rename_i hp; rw [ih]; simp [hp]
    · split
      · simp only [tget, hk, if_false, ih]
      · simp only [tget, hk, if_false, ih]

/-- A write keeps the canonical form. -/
theorem twf_tset [DecidableEq α] {d : α} {t : Tab α} (i : Nat) (v : α) (h : twf d t = true) : twf d (tset d t i v) = true := by
  unfold tset
  split
  · exact twfFrom_tdel i h
  · rename_i hv; exact twfFrom_tins h (Nat.zero_le i) hv

theorem twf_tmod [DecidableEq α] {d : α} {t : Tab α} (i : Nat) (f : α → α) (h : twf d t = true) :
    twf d (tmod d t i f) = true := twf_tset i _ h

theorem twfFrom_tall [DecidableEq α] {d : α} {lo : Nat} {t : Tab α} (f : α → α) (h : twfFrom d lo t = true) :
    twfFrom d lo (tall d f t) = true := by
  induction t generalizing lo with
  | nil => rfl
  | cons e t ih =>
    obtain ⟨k, w⟩ := e
    simp only [twfFrom, Bool.and_eq_true, decide_eq_true_eq] at h
    unfold tall
    split
    · exact twfFrom_mono (ih h.2) (by omega)
    · rename_i hf
      simp only [twfFrom, Bool.and_eq_true, decide_eq_true_eq]
      exact ⟨⟨h.1.1, by simp [hf]⟩, ih h.2⟩

theorem mem_tins_self (t : Tab α) (i : Nat) (v : α) : (i, v) ∈ tins t i v := by
  induction t with
  | nil => simp [tins]
  | cons e t ih =>
    obtain ⟨k, w⟩ := e
    unfold tins
    split
    · simp
    · split
      · simp
      · exact List.mem_cons_of_mem _ ih

/-- What is written stands in the table where it is not the default. -/
theorem mem_tset_self [DecidableEq α] (d : α) (t : Tab α) (i : Nat) {v : α} (h : v ≠ d) : (i, v) ∈ tset d t i v := by
  unfold tset
  rw [if_neg h]
  exact mem_tins_self t i v

/-! ## Byte memories -/

/-- Erasing bytes keeps the canonical form. -/
theorem Memory.wf_erase {m : Memory} (a n : Nat) (h : m.wf = true) : (m.erase a n).wf = true := twf_tkeep _ h

/-- A byte after some are erased. -/
theorem Memory.read_erase (m : Memory) (a n c : Nat) :
    (m.erase a n).read c = if inSpan a n c then Memory.blank else m.read c := by
  unfold Memory.erase Memory.read
  rw [tget_tkeep]
  cases inSpan a n c <;> simp

/-- A byte after one byte is written. -/
theorem Memory.read_write (m : Memory) (a c : Nat) (b : Byte) : (m.write a b).read c = if a = c then b else m.read c :=
  tget_tset _ m a c b

/-- A write keeps the canonical form. -/
theorem Memory.wf_write {m : Memory} (a : Nat) (b : Byte) (h : m.wf = true) : (m.write a b).wf = true := twf_tset a b h

/-- A write of a byte string keeps the canonical form. -/
theorem Memory.wf_writeN {m : Memory} (a : Nat) (l : List Byte) (h : m.wf = true) : (m.writeN a l).wf = true := by
  induction l generalizing m a with
  | nil => exact h
  | cons b l ih => exact ih (a + 1) (Memory.wf_write a b h)

/-- A write of a byte string leaves every byte outside it. -/
theorem Memory.read_writeN_out (m : Memory) (a : Nat) (l : List Byte) {c : Nat} (hc : c < a ∨ a + l.length ≤ c) :
    (m.writeN a l).read c = m.read c := by
  induction l generalizing m a with
  | nil => rfl
  | cons b l ih =>
    simp only [List.length_cons] at hc
    have h1 := ih (m.write a b) (a + 1) (by omega)
    have h2 := Memory.read_write m a c b
    rw [if_neg (by omega)] at h2
    exact h1.trans h2

/-- A byte of a byte string that was written reads as it. -/
theorem Memory.read_writeN_in (m : Memory) (a : Nat) (l : List Byte) {i : Nat} (hi : i < l.length) :
    (m.writeN a l).read (a + i) = l[i] := by
  induction l generalizing m a i with
  | nil => exact absurd hi (Nat.not_lt_zero i)
  | cons b l ih =>
    cases i with
    | zero =>
      have h1 := Memory.read_writeN_out (m.write a b) (a + 1) l (c := a) (by omega)
      have h2 := Memory.read_write m a a b
      rw [if_pos rfl] at h2
      exact h1.trans h2
    | succ i =>
      have h1 := ih (m.write a b) (a + 1) (i := i) (by simpa using hi)
      have h2 : a + (i + 1) = a + 1 + i := by omega
      rw [h2]
      exact h1

/-- The bytes that were written are read again. -/
theorem Memory.readN_writeN (m : Memory) (a : Nat) (l : List Byte) : (m.writeN a l).readN a l.length = l := by
  induction l generalizing m a with
  | nil => rfl
  | cons b l ih =>
    have h1 := Memory.read_writeN_in m a (b :: l) (i := 0) (by simp)
    have h2 := ih (m.write a b) (a + 1)
    simp only [List.length_cons, Memory.readN]
    rw [show (m.writeN a (b :: l)).read a = b from h1]
    exact congrArg (b :: ·) h2

end Sys2Proof.Machine
end

