-- ==== Sys2Proof/Laws/Canon.lean ====
section
/-! SUPPORT. The canonical form of registers, latches, memory and flash: the operations of Ops keep it, and the shapes by
which meanings are built from them. -/
namespace Sys2Proof.Machine

/-- What a command is held to: the queue it began with and, where no MRAM region has failed (`clean`), the key store it began
with and, where that is held too (`held`), the SEQ of the latest record; and whether key store and profile slots have four
entries each (`shaped`). -/
structure Base where
  queue : List Instr
  clean : Bool
  keys : List KeySlot
  seq : Nat
  held : Bool
  shaped : Bool

/-- State of a slot of a key store. -/
def keyState (l : List KeySlot) (i : Nat) : KeyState := ((l[i]?).getD {}).st

/-- No region has failed, and every slot that was REVOKED is (02 R64). -/
def KeysOk (b : Base) (keys : List KeySlot) (bad : List Nat) : Prop :=
  b.clean = true → bad = [] ∧ ∀ i, keyState b.keys i = .revoked → keyState keys i = .revoked

/-- A SEQ that does not fall and is held in the tail or the archive (17 R747). -/
def SeqOk (b : Base) (seq : Nat) (tail : Tab (Option EvRecord)) (arch : Nat) : Prop :=
  b.clean = true → b.held = true → b.seq ≤ seq ∧ seq ≤ seqHigh tail arch

/-- What a command keeps of MRAM: revoked keys, a SEQ that does not fall (17 R747), four key slots (02 R61), four profile slots
(02 R67). -/
def NvOk (b : Base) (keys : List KeySlot) (bad : List Nat) (seq ns : Nat) (tail : Tab (Option EvRecord)) (arch : Nat) : Prop :=
  KeysOk b keys bad ∧ SeqOk b seq tail arch ∧ (b.shaped = true → keys.length = 4 ∧ ns = 4)

/-- The canonical form as a property of the four parts, with the queue and the key store beside it. -/
def CanonOf (qs : Base) (regs latch : Tab Word) (mem flash : Memory) (pending : List Instr) (keys : List KeySlot)
    (bad : List Nat) (seq ns : Nat) (tail : Tab (Option EvRecord)) (arch : Nat) : Prop :=
  twf 0 regs = true ∧ twf 0 latch = true ∧ Memory.wf mem = true ∧ Memory.wf flash = true ∧ pending = qs.queue ∧
    NvOk qs keys bad seq ns tail arch

/-- A state in canonical form with the queue of `qs` and no revoked key lost. -/
def State.Ok (qs : Base) (s : State) : Prop :=
  CanonOf qs s.regs s.latch s.mem s.flash s.pending s.nv.keys s.nv.bad s.nv.seq s.nv.slots.length s.nv.tail s.nv.archSeq

theorem CanonOf.of {qs : Base} {s : State} (h : s.Ok qs) : CanonOf qs s.regs s.latch s.mem s.flash s.pending s.nv.keys s.nv.bad s.nv.seq s.nv.slots.length s.nv.tail s.nv.archSeq := h

/-- A state with other parts replaced. -/
theorem Canon.mk {qs : Base} {regs latch : Tab Word} {mem flash : Memory} {nv : Nv} {keep img next fab cs deferred sig parts
    commit loops rings twin time lines cores loc can pwr mgmt recd panel now out freeCtr pending}
    (h : CanonOf qs regs latch mem flash pending nv.keys nv.bad nv.seq nv.slots.length nv.tail nv.archSeq) :
    State.Ok qs ⟨regs, latch, mem, flash, nv, keep, img, next, fab, cs, deferred, sig, parts, commit, loops, rings, twin, time,
      lines, cores, loc, can, pwr, mgmt, recd, panel, now, out, freeCtr, pending⟩ := h

theorem Canon.ite {qs : Base} {c : Prop} [Decidable c] {a b : State} (ha : a.Ok qs) (hb : b.Ok qs) :
    (if c then a else b).Ok qs := by
  split <;> assumption

theorem Canon.ite1 {qs : Base} {α : Type} {c : Prop} [Decidable c] {a b : State × α} (ha : a.1.Ok qs) (hb : b.1.Ok qs) :
    (if c then a else b).1.Ok qs := by
  split <;> assumption

theorem Canon.pair {qs : Base} {α : Type} {a : State} {b : α} (ha : a.Ok qs) : (a, b).1.Ok qs := ha

/-- A meaning that answers a next state in canonical form whose queue is `q`. -/
def ResOk (qs : Base) (r : Res) : Prop := ∃ t, r = .next t ∧ t.Ok qs

theorem ResOk.next {qs : Base} {t : State} (h : t.Ok qs) : ResOk qs (.next t) := ⟨t, rfl, h⟩

theorem ResOk.ite {qs : Base} {c : Prop} [Decidable c] {a b : Res} (ha : ResOk qs a) (hb : ResOk qs b) :
    ResOk qs (if c then a else b) := by
  split <;> assumption

theorem State.each_canon {qs : Base} {α : Type} {s : State} {l : List α} {f : State → α → State}
    (hf : ∀ t a, t.Ok qs → (f t a).Ok qs) (h : s.Ok qs) : (s.each l f).Ok qs := by
  unfold State.each
  induction l generalizing s with
  | nil => exact h
  | cons a l ih => exact ih (hf s a h)

theorem Canon.foldl {qs : Base} {α : Type} {s : State} {l : List α} {f : State → α → State}
    (hf : ∀ t a, t.Ok qs → (f t a).Ok qs) (h : s.Ok qs) : (l.foldl f s).Ok qs := State.each_canon hf h

theorem Canon.foldl1 {qs : Base} {α β : Type} {s : State × β} {l : List α} {f : State × β → α → State × β}
    (hf : ∀ t a, t.1.Ok qs → (f t a).1.Ok qs) (h : s.1.Ok qs) : (l.foldl f s).1.Ok qs := by
  induction l generalizing s with
  | nil => exact h
  | cons a l ih => exact ih (hf s a h)

theorem State.when_canon {qs : Base} {s : State} {b : Bool} {f : State → State} (hf : ∀ t, t.Ok qs → (f t).Ok qs)
    (h : s.Ok qs) :
    (s.when b f).Ok qs := by
  unfold State.when
  split
  · exact hf s h
  · exact h

theorem resState_canon {qs : Base} (d : State) {r : Res} (hr : ResOk qs r) : (resState d r).Ok qs := by
  obtain ⟨t, rfl, ht⟩ := hr
  exact ht

/-! ## Operations -/

/-- What MRAM and flash hold, changed by a function that keeps the key store. -/
theorem State.inNv_canon {qs : Base} {s : State} (f : Nv → Nv)
    (hf : ∀ v : Nv, NvOk qs v.keys v.bad v.seq v.slots.length v.tail v.archSeq →
      NvOk qs (f v).keys (f v).bad (f v).seq (f v).slots.length (f v).tail (f v).archSeq) (hs : s.Ok qs) : (s.inNv f).Ok qs :=
  ⟨hs.1, hs.2.1, hs.2.2.1, hs.2.2.2.1, hs.2.2.2.2.1, hf s.nv hs.2.2.2.2.2⟩

theorem State.wr_canon {qs : Base} {s : State} (off : Nat) (w : Word) (h : s.Ok qs) : (s.wr off w).Ok qs :=
  ⟨twf_tset off w h.1, h.2⟩

theorem State.memW_canon {qs : Base} {s : State} (a : Nat) (b : List Byte) (h : s.Ok qs) : (s.memW a b).Ok qs :=
  ⟨h.1, h.2.1, Memory.wf_writeN a b h.2.2.1, h.2.2.2⟩

/-- Bytes written into flash. -/
theorem Canon.flashW {qs : Base} {s : State} (a : Nat) (b : List Byte) (h : s.Ok qs) :
    CanonOf qs s.regs s.latch s.mem (Memory.writeN s.flash a b) s.pending s.nv.keys s.nv.bad s.nv.seq s.nv.slots.length s.nv.tail s.nv.archSeq :=
  ⟨h.1, h.2.1, h.2.2.1, Memory.wf_writeN a b h.2.2.2.1, h.2.2.2.2⟩

/-- Bytes of flash erased. -/
theorem Canon.flashE {qs : Base} {s : State} (a n : Nat) (h : s.Ok qs) :
    CanonOf qs s.regs s.latch s.mem (Memory.erase s.flash a n) s.pending s.nv.keys s.nv.bad s.nv.seq s.nv.slots.length s.nv.tail s.nv.archSeq :=
  ⟨h.1, h.2.1, h.2.2.1, Memory.wf_erase a n h.2.2.2.1, h.2.2.2.2⟩

/-- Some bytes of a memory kept. -/
theorem Canon.memK {qs : Base} {s t : State} (p : Nat → Bool) (h : s.Ok qs) (ht : t.Ok qs) :
    CanonOf qs t.regs t.latch (tkeep p s.mem) t.flash t.pending t.nv.keys t.nv.bad t.nv.seq t.nv.slots.length t.nv.tail t.nv.archSeq :=
  ⟨ht.1, ht.2.1, twf_tkeep p h.2.2.1, ht.2.2.2⟩

/-- Some registers and some bytes of memory kept. -/
theorem Canon.keepBoth {qs : Base} {s : State} (p q : Nat → Bool) (h : s.Ok qs) :
    CanonOf qs (tkeep p s.regs) s.latch (tkeep q s.mem) s.flash s.pending s.nv.keys s.nv.bad s.nv.seq s.nv.slots.length s.nv.tail s.nv.archSeq :=
  ⟨twf_tkeep p h.1, h.2.1, twf_tkeep q h.2.2.1, h.2.2.2⟩

/-- A latch loaded. -/
theorem Canon.latchW {qs : Base} {s : State} (o : Nat) (w : Word) (h : s.Ok qs) :
    CanonOf qs s.regs (tset 0 s.latch o w) s.mem s.flash s.pending s.nv.keys s.nv.bad s.nv.seq s.nv.slots.length s.nv.tail s.nv.archSeq := ⟨h.1, twf_tset o w h.2.1, h.2.2⟩

theorem resetRegs_twf : twf 0 resetRegs = true := by decide

/-- What a restart leaves. -/
theorem CanonOf.cleared {qs : Base} {s : State} (h : s.Ok qs) : CanonOf qs resetRegs [] [] s.flash s.pending s.nv.keys s.nv.bad s.nv.seq s.nv.slots.length s.nv.tail s.nv.archSeq :=
  ⟨resetRegs_twf, rfl, rfl, h.2.2.2⟩

/-- The registers at their reset values. -/
theorem CanonOf.resetRegs {qs : Base} {s : State}
    (h : s.Ok qs) : CanonOf qs Machine.resetRegs s.latch s.mem s.flash s.pending s.nv.keys s.nv.bad s.nv.seq s.nv.slots.length s.nv.tail s.nv.archSeq := ⟨resetRegs_twf, h.2⟩

theorem twf_foldl {α : Type} {l : List α} {f : Tab Word → α → Tab Word} {t : Tab Word}
    (hf : ∀ u a, twf 0 u = true → twf 0 (f u a) = true) (h : twf 0 t = true) : twf 0 (l.foldl f t) = true := by
  induction l generalizing t with
  | nil => exact h
  | cons a l ih => exact ih (hf t a h)

theorem State.latchAll_canon {qs : Base} {s : State} (h : s.Ok qs) : s.latchAll.Ok qs :=
  ⟨h.1, twf_foldl (fun _ o hu => twf_tset (o + 4) _ hu) rfl, h.2.2⟩

theorem State.wrWords_canon {qs : Base} {s : State} (off : Nat) (l : List Nat) (h : s.Ok qs) :
    (s.wrWords off l).Ok qs := by
  induction l generalizing s off with
  | nil => exact h
  | cons w l ih => exact ih (off + 4) (State.wr_canon off _ h)

/-! ## The key store -/

/-- A key store changed in a way that keeps every revoked slot. -/
theorem KeysOk.keys {qs : Base} {k m : List KeySlot} {bad : List Nat} (h : KeysOk qs k bad)
    (hm : ∀ i, keyState k i = .revoked → keyState m i = .revoked) : KeysOk qs m bad :=
  fun hc => ⟨(h hc).1, fun i hi => hm i ((h hc).2 i hi)⟩

/-- The note of failed regions cleared. -/
theorem NvOk.clear {qs : Base} {k : List KeySlot} {bad : List Nat} {q ns arch : Nat}
    {tail : Tab (Option EvRecord)} (h : NvOk qs k bad q ns tail arch) : NvOk qs k [] q ns tail arch :=
        ⟨fun hc => ⟨rfl, (h.1 hc).2⟩, h.2⟩

theorem seqHigh_ge (l : Tab (Option EvRecord)) (a : Nat) : a ≤ seqHigh l a := by
  unfold seqHigh
  induction l generalizing a with
  | nil => exact Nat.le_refl a
  | cons e l ih => exact Nat.le_trans (Nat.le_max_left _ _) (ih _)

theorem seqHigh_mono (l : Tab (Option EvRecord)) {a b : Nat} (h : a ≤ b) : seqHigh l a ≤ seqHigh l b := by
  unfold seqHigh
  induction l generalizing a b with
  | nil => exact h
  | cons e l ih => exact ih (Nat.max_le.2 ⟨Nat.le_trans h (Nat.le_max_left _ _), Nat.le_max_right _ _⟩)

theorem seqHigh_mem {l : Tab (Option EvRecord)} {a k : Nat} {r : EvRecord} (h : (k, some r) ∈ l) : r.seq ≤ seqHigh l a := by
  induction l generalizing a with
  | nil => cases h
  | cons e l ih =>
    rcases List.mem_cons.1 h with h | h
    · subst h
      exact Nat.le_trans (Nat.le_max_right _ _) (seqHigh_ge l _)
    · exact ih h

theorem setAt_length {α : Type} (l : List α) (n : Nat) (f : α → α) : (setAt l n f).length = l.length := by
  simp [setAt]

end Sys2Proof.Machine
end

