-- ==== Sys2Proof/Laws/Keys.lean ====
section
/-! SUPPORT. The two changes of a key store, a record and a merge, lose no REVOKED slot (02 R64, R66). -/
namespace Sys2Proof.Machine

theorem keyState_setAt (l : List KeySlot) (n : Nat) (f : KeySlot → KeySlot) (i : Nat) :
    keyState (setAt l n f) i = if i = n ∧ i < l.length then (f ((l[i]?).getD {})).st else keyState l i := by
  unfold keyState setAt
  rw [List.getElem?_mapIdx]
  by_cases hi : i < l.length
  · by_cases hn : i = n
    · subst hn
      simp [hi]
    · simp [hi, hn]
  · simp [hi]

/-- A record that takes effect leaves every revoked slot revoked. -/
theorem keyApply_revoked {keys k : List KeySlot} {r : KeyRecord} (h : keyApply keys r = some k) (i : Nat)
    (hi : keyState keys i = .revoked) : keyState k i = .revoked := by
  unfold keyApply at h
  split at h
  · split at h
    · rename_i he
      cases h
      rw [keyState_setAt]
      split
      · rename_i hn
        have h1 : keyState keys r.slot.val = .empty := he
        rw [← hn.1, hi] at h1
        cases h1
      · exact hi
    · cases h
  · dsimp only at h
    split at h
    · cases h
      rw [keyState_setAt]
      split
      · rfl
      · exact hi
    · cases h

/-- A merge leaves every slot revoked that this module had revoked. -/
theorem mergeKeys_revoked (l m : List KeySlot) (a : Bool) (i : Nat) (hi : keyState l i = .revoked) :
    keyState (mergeKeys l m a) i = .revoked := by
  induction l generalizing m i with
  | nil => exact hi
  | cons k t ih =>
    cases m with
    | nil => exact hi
    | cons x u =>
      cases i with
      | zero =>
        have h1 : k.st = .revoked := hi
        show (mergeKey k x a).st = .revoked
        by_cases h2 : x.st = .revoked <;> cases a <;> simp [mergeKey, h1, h2]
      | succ i => exact ih u i hi

theorem mergeKeys_length (l m : List KeySlot) (a : Bool) : (mergeKeys l m a).length = l.length := by
  induction l generalizing m with
  | nil => rfl
  | cons k t ih =>
    cases m with
    | nil => rfl
    | cons x u => simp [mergeKeys, ih]

theorem keyApply_length {keys k : List KeySlot} {r : KeyRecord} (h : keyApply keys r = some k) : k.length = keys.length := by
  unfold keyApply at h
  split at h
  · split at h
    · cases h; exact setAt_length _ _ _
    · cases h
  · dsimp only at h
    split at h
    · cases h; exact setAt_length _ _ _
    · cases h

/-- The repair of MRAM regions leaves four key slots and the profile slots. -/
theorem repairAll_shape (l : List Nat) (v : Nv) (h : v.keys.length = 4 ∧ v.slots.length = 4) :
    (l.foldl Nv.repair v).keys.length = 4 ∧ (l.foldl Nv.repair v).slots.length = 4 := by
  induction l generalizing v with
  | nil => exact h
  | cons o l ih =>
    refine ih _ ?_
    unfold Nv.repair
    repeat' split
    all_goals first | exact h | exact ⟨rfl, h.2⟩

end Sys2Proof.Machine
end

