-- ==== Sys2Proof/Laws/CanonOps.lean ====
section
/-! SUPPORT. The canonical form is kept by the definitions of Machine/Ops.lean. -/
namespace Sys2Proof.Machine

theorem State.put_canon {qs : Base} {s : State} (f : Fld) (v : Nat) (hs : s.Ok qs) : (State.put s f v).Ok qs := by
  unfold State.put
  repeat' (first | with_reducible intro _ | with_reducible assumption | with_reducible apply State.wr_canon
                 | with_reducible apply Canon.ite | split | dsimp only | with_reducible apply Canon.mk
                 | with_reducible apply CanonOf.of)

theorem State.putB_canon {qs : Base} {s : State} (f : Fld) (b : Bool) (hs : s.Ok qs) : (State.putB s f b).Ok qs := by
  unfold State.putB
  repeat' (first | with_reducible intro _ | with_reducible assumption | with_reducible apply State.put_canon
                 | with_reducible apply Canon.ite | split | dsimp only | with_reducible apply Canon.mk
                 | with_reducible apply CanonOf.of)

theorem State.setBit_canon {qs : Base} {s : State} (off i : Nat) (b : Bool) (hs : s.Ok qs) :
    (State.setBit s off i b).Ok qs := by
  unfold State.setBit
  repeat' (first | with_reducible intro _ | with_reducible assumption | with_reducible apply State.wr_canon
                 | with_reducible apply Canon.ite | split | dsimp only | with_reducible apply Canon.mk
                 | with_reducible apply CanonOf.of)

theorem State.bump_canon {qs : Base} {s : State} (f : Fld) (n : Nat) (hs : s.Ok qs) : (State.bump s f n).Ok qs := by
  unfold State.bump
  repeat' (first | with_reducible intro _ | with_reducible assumption | with_reducible apply State.put_canon
                 | with_reducible apply Canon.ite | split | dsimp only | with_reducible apply Canon.mk
                 | with_reducible apply CanonOf.of)

theorem State.step1_canon {qs : Base} {s : State} (f : Fld) (hs : s.Ok qs) : (State.step1 s f).Ok qs := by
  unfold State.step1
  repeat' (first | with_reducible intro _ | with_reducible assumption | with_reducible apply State.put_canon
                 | with_reducible apply Canon.ite | split | dsimp only | with_reducible apply Canon.mk
                 | with_reducible apply CanonOf.of)

theorem State.wr64_canon {qs : Base} {s : State} (off v : Nat) (hs : s.Ok qs) : (State.wr64 s off v).Ok qs := by
  unfold State.wr64
  repeat' (first | with_reducible intro _ | with_reducible assumption | with_reducible apply State.wr_canon
                 | with_reducible apply Canon.ite | split | dsimp only | with_reducible apply Canon.mk
                 | with_reducible apply CanonOf.of)

theorem State.wrN_canon {qs : Base} {s : State} (off v : Nat) (hs : s.Ok qs) : (State.wrN s off v).Ok qs := by
  unfold State.wrN
  repeat' (first | with_reducible intro _ | with_reducible assumption | with_reducible apply State.wr_canon
                 | with_reducible apply Canon.ite | split | dsimp only | with_reducible apply Canon.mk
                 | with_reducible apply CanonOf.of)

theorem State.unpoison_canon {qs : Base} {s : State} (a n : Nat) (hs : s.Ok qs) : (State.unpoison s a n).Ok qs := by
  unfold State.unpoison
  repeat' (first | with_reducible intro _ | with_reducible assumption | with_reducible apply Canon.ite | split
                 | dsimp only | with_reducible apply Canon.mk | with_reducible apply CanonOf.of)

theorem State.sysW_canon {qs : Base} {s : State} (a : Nat) (b : List Byte) (hs : s.Ok qs) : (State.sysW s a b).Ok qs := by
  unfold State.sysW
  repeat' (first | with_reducible intro _ | with_reducible assumption | with_reducible apply State.memW_canon
                 | with_reducible apply State.unpoison_canon | with_reducible apply Canon.ite | split | dsimp only
                 | with_reducible apply Canon.mk | with_reducible apply CanonOf.of)

theorem State.memZero_canon {qs : Base} {s : State} (a n : Nat) (hs : s.Ok qs) : (State.memZero s a n).Ok qs := by
  unfold State.memZero
  repeat' (first | with_reducible intro _ | with_reducible assumption | with_reducible apply State.sysW_canon
                 | with_reducible apply Canon.ite | split | dsimp only | with_reducible apply Canon.mk
                 | with_reducible apply CanonOf.of)

theorem State.take_canon {qs : Base} {s : State} (hs : s.Ok qs) : (State.take s).Ok qs := by
  unfold State.take
  repeat' (first | with_reducible intro _ | with_reducible assumption | with_reducible apply Canon.ite | split
                 | dsimp only | with_reducible apply Canon.mk | with_reducible apply CanonOf.of)

theorem State.send_canon {qs : Base} {s : State} (o : Output) (hs : s.Ok qs) : (State.send s o).Ok qs := by
  unfold State.send
  repeat' (first | with_reducible intro _ | with_reducible assumption | with_reducible apply Canon.ite | split
                 | dsimp only | with_reducible apply Canon.mk | with_reducible apply CanonOf.of)

theorem State.total_canon {qs : Base} {s : State} (off bytes n : Nat) (hs : s.Ok qs) : (State.total s off bytes n).Ok qs := by
  unfold State.total
  repeat' (first | with_reducible intro _ | with_reducible assumption | with_reducible apply Canon.ite | split
                 | dsimp only | with_reducible apply Canon.mk | with_reducible apply CanonOf.of)

theorem State.at_canon {qs : Base} {s : State} (t : Nat) (hs : s.Ok qs) : (State.at s t).Ok qs := by
  unfold State.at
  repeat' (first | with_reducible intro _ | with_reducible assumption | with_reducible apply Canon.ite | split
                 | dsimp only | with_reducible apply Canon.mk | with_reducible apply CanonOf.of)

theorem State.raiseLost_canon {qs : Base} {s : State} (isl : Nat) (r : Raise) (hs : s.Ok qs) :
    (State.raiseLost s isl r).Ok qs := by
  unfold State.raiseLost
  extract_lets +onlyGivenNames -underBinder s1
  have hs1 : s1.Ok qs := by
    unfold s1
    repeat' (first | with_reducible intro _ | with_reducible assumption | with_reducible apply State.put_canon
                   | with_reducible apply State.bump_canon | with_reducible apply State.total_canon
                   | with_reducible apply Canon.ite | split | dsimp only | with_reducible apply Canon.mk
                   | with_reducible apply CanonOf.of)
  clear_value s1
  repeat' (first | with_reducible intro _ | with_reducible assumption | with_reducible apply Canon.ite | split
                 | dsimp only | with_reducible apply Canon.mk | with_reducible apply CanonOf.of)

theorem State.raise_canon {qs : Base} {s : State} (code isl : Nat) (data : List Byte) (hs : s.Ok qs) :
    (State.raise s code isl data).Ok qs := by
  unfold State.raise
  repeat' (first | with_reducible intro _ | with_reducible assumption | with_reducible apply State.raiseLost_canon
                 | with_reducible apply Canon.ite | split | dsimp only | with_reducible apply Canon.mk
                 | with_reducible apply CanonOf.of)

theorem State.cleanPoint_canon {qs : Base} {s : State} (buf : Bool) (p : Nat) (hs : s.Ok qs) :
    (State.cleanPoint s buf p).Ok qs := by
  unfold State.cleanPoint
  repeat' (first | with_reducible intro _ | with_reducible assumption | with_reducible apply State.unpoison_canon
                 | with_reducible apply Canon.ite | split | dsimp only | with_reducible apply Canon.mk
                 | with_reducible apply CanonOf.of)

theorem State.setCore_canon {qs : Base} {s : State} (c : Nat) (k : CoreState) (hs : s.Ok qs) :
    (State.setCore s c k).Ok qs := by
  unfold State.setCore
  repeat' (first | with_reducible intro _ | with_reducible assumption | with_reducible apply Canon.ite | split
                 | dsimp only | with_reducible apply Canon.mk | with_reducible apply CanonOf.of)

theorem State.setPart_canon {qs : Base} {s : State} (p : Nat) (k : PartState) (hs : s.Ok qs) :
    (State.setPart s p k).Ok qs := by
  unfold State.setPart
  repeat' (first | with_reducible intro _ | with_reducible assumption | with_reducible apply Canon.ite | split
                 | dsimp only | with_reducible apply Canon.mk | with_reducible apply CanonOf.of)

theorem State.setRing_canon {qs : Base} {s : State} (r : Nat) (k : RingState) (hs : s.Ok qs) :
    (State.setRing s r k).Ok qs := by
  unfold State.setRing
  repeat' (first | with_reducible intro _ | with_reducible assumption | with_reducible apply Canon.ite | split
                 | dsimp only | with_reducible apply Canon.mk | with_reducible apply CanonOf.of)

theorem State.setSlot_canon {qs : Base} {s : State} (i : Nat) (k : SlotDyn) (hs : s.Ok qs) : (State.setSlot s i k).Ok qs := by
  unfold State.setSlot
  repeat' (first | with_reducible intro _ | with_reducible assumption | with_reducible apply Canon.ite | split
                 | dsimp only | with_reducible apply Canon.mk | with_reducible apply CanonOf.of)

theorem State.setTrace_canon {qs : Base} {s : State} (c : Nat) (k : Trace) (hs : s.Ok qs) : (State.setTrace s c k).Ok qs := by
  unfold State.setTrace
  repeat' (first | with_reducible intro _ | with_reducible assumption | with_reducible apply Canon.ite | split
                 | dsimp only | with_reducible apply Canon.mk | with_reducible apply CanonOf.of)

theorem State.setCan_canon {qs : Base} {s : State} (c : Nat) (k : CanState) (hs : s.Ok qs) : (State.setCan s c k).Ok qs := by
  unfold State.setCan
  repeat' (first | with_reducible intro _ | with_reducible assumption | with_reducible apply Canon.ite | split
                 | dsimp only | with_reducible apply Canon.mk | with_reducible apply CanonOf.of)

theorem State.setSession_canon {qs : Base} {s : State} (n : Nat) (k : Option Session) (hs : s.Ok qs) :
    (State.setSession s n k).Ok qs := by
  unfold State.setSession
  repeat' (first | with_reducible intro _ | with_reducible assumption | with_reducible apply Canon.ite | split
                 | dsimp only | with_reducible apply Canon.mk | with_reducible apply CanonOf.of)

theorem State.setSub_canon {qs : Base} {s : State} (i : Nat) (k : SubState) (hs : s.Ok qs) : (State.setSub s i k).Ok qs := by
  unfold State.setSub
  repeat' (first | with_reducible intro _ | with_reducible assumption | with_reducible apply Canon.ite | split
                 | dsimp only | with_reducible apply Canon.mk | with_reducible apply CanonOf.of)

theorem State.tw_canon {qs : Base} {s : State} (f : TwinState → TwinState) (hs : s.Ok qs) : (State.tw s f).Ok qs := by
  unfold State.tw
  repeat' (first | with_reducible intro _ | with_reducible assumption | with_reducible apply Canon.ite | split
                 | dsimp only | with_reducible apply Canon.mk | with_reducible apply CanonOf.of)

theorem State.tm_canon {qs : Base} {s : State} (f : TimeState → TimeState) (hs : s.Ok qs) : (State.tm s f).Ok qs := by
  unfold State.tm
  repeat' (first | with_reducible intro _ | with_reducible assumption | with_reducible apply Canon.ite | split
                 | dsimp only | with_reducible apply Canon.mk | with_reducible apply CanonOf.of)

theorem State.lo_canon {qs : Base} {s : State} (f : LocalState → LocalState) (hs : s.Ok qs) : (State.lo s f).Ok qs := by
  unfold State.lo
  repeat' (first | with_reducible intro _ | with_reducible assumption | with_reducible apply Canon.ite | split
                 | dsimp only | with_reducible apply Canon.mk | with_reducible apply CanonOf.of)

theorem State.pw_canon {qs : Base} {s : State} (f : PwrState → PwrState) (hs : s.Ok qs) : (State.pw s f).Ok qs := by
  unfold State.pw
  repeat' (first | with_reducible intro _ | with_reducible assumption | with_reducible apply Canon.ite | split
                 | dsimp only | with_reducible apply Canon.mk | with_reducible apply CanonOf.of)

theorem State.mg_canon {qs : Base} {s : State} (f : MgmtState → MgmtState) (hs : s.Ok qs) : (State.mg s f).Ok qs := by
  unfold State.mg
  repeat' (first | with_reducible intro _ | with_reducible assumption | with_reducible apply Canon.ite | split
                 | dsimp only | with_reducible apply Canon.mk | with_reducible apply CanonOf.of)

theorem State.pn_canon {qs : Base} {s : State} (f : PanelState → PanelState) (hs : s.Ok qs) : (State.pn s f).Ok qs := by
  unfold State.pn
  repeat' (first | with_reducible intro _ | with_reducible assumption | with_reducible apply Canon.ite | split
                 | dsimp only | with_reducible apply Canon.mk | with_reducible apply CanonOf.of)

theorem State.lp_canon {qs : Base} {s : State} (f : LoopState → LoopState) (hs : s.Ok qs) : (State.lp s f).Ok qs := by
  unfold State.lp
  repeat' (first | with_reducible intro _ | with_reducible assumption | with_reducible apply Canon.ite | split
                 | dsimp only | with_reducible apply Canon.mk | with_reducible apply CanonOf.of)

theorem State.sg_canon {qs : Base} {s : State} (f : SignalState → SignalState) (hs : s.Ok qs) : (State.sg s f).Ok qs := by
  unfold State.sg
  repeat' (first | with_reducible intro _ | with_reducible assumption | with_reducible apply Canon.ite | split
                 | dsimp only | with_reducible apply Canon.mk | with_reducible apply CanonOf.of)

theorem State.fb_canon {qs : Base} {s : State} (f : FabState → FabState) (hs : s.Ok qs) : (State.fb s f).Ok qs := by
  unfold State.fb
  repeat' (first | with_reducible intro _ | with_reducible assumption | with_reducible apply Canon.ite | split
                 | dsimp only | with_reducible apply Canon.mk | with_reducible apply CanonOf.of)

theorem State.cr_canon {qs : Base} {s : State} (f : CommitRecord → CommitRecord) (hs : s.Ok qs) : (State.cr s f).Ok qs := by
  unfold State.cr
  repeat' (first | with_reducible intro _ | with_reducible assumption | with_reducible apply Canon.ite | split
                 | dsimp only | with_reducible apply Canon.mk | with_reducible apply CanonOf.of)

theorem State.pa_canon {qs : Base} {s : State} (p : Nat) (f : PartState → PartState) (hs : s.Ok qs) :
    (State.pa s p f).Ok qs := by
  unfold State.pa
  repeat' (first | with_reducible intro _ | with_reducible assumption | with_reducible apply State.setPart_canon
                 | with_reducible apply Canon.ite | split | dsimp only | with_reducible apply Canon.mk
                 | with_reducible apply CanonOf.of)

theorem State.co_canon {qs : Base} {s : State} (c : Nat) (f : CoreState → CoreState) (hs : s.Ok qs) :
    (State.co s c f).Ok qs := by
  unfold State.co
  repeat' (first | with_reducible intro _ | with_reducible assumption | with_reducible apply State.setCore_canon
                 | with_reducible apply Canon.ite | split | dsimp only | with_reducible apply Canon.mk
                 | with_reducible apply CanonOf.of)

theorem State.ri_canon {qs : Base} {s : State} (r : Nat) (f : RingState → RingState) (hs : s.Ok qs) :
    (State.ri s r f).Ok qs := by
  unfold State.ri
  repeat' (first | with_reducible intro _ | with_reducible assumption | with_reducible apply State.setRing_canon
                 | with_reducible apply Canon.ite | split | dsimp only | with_reducible apply Canon.mk
                 | with_reducible apply CanonOf.of)

theorem State.sl_canon {qs : Base} {s : State} (i : Nat) (f : SlotDyn → SlotDyn) (hs : s.Ok qs) : (State.sl s i f).Ok qs := by
  unfold State.sl
  repeat' (first | with_reducible intro _ | with_reducible assumption | with_reducible apply State.setSlot_canon
                 | with_reducible apply Canon.ite | split | dsimp only | with_reducible apply Canon.mk
                 | with_reducible apply CanonOf.of)

theorem State.noteFault_canon {qs : Base} {s : State} (hs : s.Ok qs) : (State.noteFault s).Ok qs := by
  unfold State.noteFault
  repeat' (first | with_reducible intro _ | with_reducible assumption | with_reducible apply State.tw_canon
                 | with_reducible apply Canon.ite | split | dsimp only | with_reducible apply Canon.mk
                 | with_reducible apply CanonOf.of)

end Sys2Proof.Machine
end

