-- ==== Sys2Proof/Laws/CanonRecorder.lean ====
section
/-! SUPPORT. The canonical form is kept by the definitions of Machine/Recorder.lean. -/
namespace Sys2Proof.Machine

theorem State.record_canon {qs : Base} {s : State} (code isl : Nat) (early : Bool) (opsec : Nat) (data : List Byte)
    (hs : s.Ok qs) :
    (State.record s code isl early opsec data).Ok qs := by
  unfold State.record
  extract_lets +onlyGivenNames -underBinder seq st r s1 _ s2
  have h1 : s1.Ok qs := by
    refine ⟨hs.1, hs.2.1, hs.2.2.1, hs.2.2.2.1, hs.2.2.2.2.1, hs.2.2.2.2.2.1, fun hc hd => ?_, hs.2.2.2.2.2.2.2⟩
    obtain ⟨h2, h3⟩ := hs.2.2.2.2.2.2.1 hc hd
    refine ⟨Nat.le_succ_of_le h2, ?_⟩
    exact seqHigh_mem (r := r) (mem_tset_self none s.nv.tail (seq % 16384) (by simp))
  have hs2 : s2.Ok qs := State.wr64_canon _ _ h1
  clear_value s2
  exact Canon.ite (State.wr64_canon _ _ (State.memW_canon _ _ hs2)) (State.wr64_canon _ _ hs2)

theorem State.setBucket_canon {qs : Base} {s : State} (code : Nat) (b : Bucket) (hs : s.Ok qs) :
    (State.setBucket s code b).Ok qs := by
  unfold State.setBucket
  repeat' (first | with_reducible intro _ | with_reducible assumption | with_reducible apply Canon.ite | split
                 | dsimp only | with_reducible apply Canon.mk | with_reducible apply CanonOf.of)

theorem State.suppressionReport_canon {qs : Base} {s : State} (code : Nat) (hs : s.Ok qs) :
    (State.suppressionReport s code).Ok qs := by
  unfold State.suppressionReport
  extract_lets +onlyGivenNames -underBinder b
  try clear_value b
  repeat' (first | with_reducible intro _ | with_reducible assumption | with_reducible apply State.record_canon
                 | with_reducible apply State.setBucket_canon | with_reducible apply Canon.ite | split | dsimp only
                 | with_reducible apply Canon.mk | with_reducible apply CanonOf.of)

theorem State.faultUpdate_canon {qs : Base} {s : State} (r : Raise) (opens : Bool) (hs : s.Ok qs) :
    (State.faultUpdate s r opens).Ok qs := by
  unfold State.faultUpdate
  extract_lets +onlyGivenNames -underBinder c data key _ s1
  try clear_value c
  try clear_value data
  try clear_value key
  have hs1 : s1.Ok qs := by
    unfold s1
    repeat' (first | with_reducible intro _ | with_reducible assumption | with_reducible apply Canon.ite | split
                   | dsimp only | with_reducible apply Canon.mk | with_reducible apply CanonOf.of)
  clear_value s1
  repeat' (first | with_reducible intro _ | with_reducible assumption | with_reducible apply Canon.ite | split
                 | dsimp only | with_reducible apply Canon.mk | with_reducible apply CanonOf.of)

theorem State.take1_canon {qs : Base} {s : State} (r : Raise) (hs : s.Ok qs) : (State.take1 s r).Ok qs := by
  unfold State.take1
  extract_lets +onlyGivenNames -underBinder c opens
  try clear_value c
  try clear_value opens
  with_reducible apply Canon.ite
  · repeat' (first | with_reducible intro _ | with_reducible assumption | with_reducible apply State.record_canon
                   | with_reducible apply State.faultUpdate_canon | with_reducible apply Canon.ite | split | dsimp only
                   | with_reducible apply Canon.mk | with_reducible apply CanonOf.of)
  extract_lets +onlyGivenNames -underBinder s0 b
  have hs0 : s0.Ok qs := by
    unfold s0
    repeat' (first | with_reducible intro _ | with_reducible assumption
                   | with_reducible apply State.suppressionReport_canon | with_reducible apply Canon.ite | split
                   | dsimp only | with_reducible apply Canon.mk | with_reducible apply CanonOf.of)
  clear_value s0
  try clear_value b
  with_reducible apply Canon.ite
  · repeat' (first | with_reducible intro _ | with_reducible assumption | with_reducible apply State.record_canon
                   | with_reducible apply State.setBucket_canon | with_reducible apply State.faultUpdate_canon
                   | with_reducible apply Canon.ite | split | dsimp only | with_reducible apply Canon.mk
                   | with_reducible apply CanonOf.of)
  with_reducible apply Canon.ite
  · repeat' (first | with_reducible intro _ | with_reducible assumption | with_reducible apply State.record_canon
                   | with_reducible apply State.setBucket_canon | with_reducible apply State.faultUpdate_canon
                   | with_reducible apply Canon.ite | split | dsimp only | with_reducible apply Canon.mk
                   | with_reducible apply CanonOf.of)
  extract_lets +onlyGivenNames -underBinder b1
  try clear_value b1
  repeat' (first | with_reducible intro _ | with_reducible assumption | with_reducible apply State.bump_canon
                 | with_reducible apply State.total_canon | with_reducible apply State.setBucket_canon
                 | with_reducible apply State.faultUpdate_canon | with_reducible apply Canon.ite | split | dsimp only
                 | with_reducible apply Canon.mk | with_reducible apply CanonOf.of)

theorem State.takeOne_canon {qs : Base} {s : State} (hs : s.Ok qs) : (State.takeOne s).Ok qs := by
  unfold State.takeOne
  repeat' (first | with_reducible intro _ | with_reducible assumption | with_reducible apply State.take1_canon
                 | with_reducible apply Canon.ite | split | dsimp only | with_reducible apply Canon.mk
                 | with_reducible apply CanonOf.of)

theorem State.takeAll_canon {qs : Base} {s : State} (hs : s.Ok qs) : (State.takeAll s).Ok qs := by
  unfold State.takeAll
  repeat' (first | with_reducible intro _ | with_reducible assumption | with_reducible apply State.takeOne_canon
                 | with_reducible apply Canon.foldl | with_reducible apply Canon.foldl1 | with_reducible apply Canon.ite
                 | split | dsimp only | with_reducible apply Canon.mk | with_reducible apply CanonOf.of)

theorem execEventRaise_canon {qs : Base} (t : Nat) {s : State} (hs : s.Ok qs) : ResOk qs (execEventRaise t s) := by
  unfold execEventRaise
  repeat' (first | with_reducible intro _ | with_reducible assumption | with_reducible apply ResOk.next
                 | with_reducible apply State.at_canon | with_reducible apply State.takeOne_canon
                 | with_reducible apply Canon.ite | with_reducible apply ResOk.ite | split | dsimp only
                 | with_reducible apply Canon.mk | with_reducible apply CanonOf.of)

theorem execSuppressionReport_canon {qs : Base} (code : Fin 65536) (t : Nat) {s : State} (hs : s.Ok qs) : ResOk qs
    (execSuppressionReport code t s) := by
  unfold execSuppressionReport
  repeat' (first | with_reducible intro _ | with_reducible assumption | with_reducible apply ResOk.next
                 | with_reducible apply State.at_canon | with_reducible apply State.suppressionReport_canon
                 | with_reducible apply Canon.ite | with_reducible apply ResOk.ite | split | dsimp only
                 | with_reducible apply Canon.mk | with_reducible apply CanonOf.of)

theorem State.archWrite_canon {qs : Base} {s : State} (q n : Nat) (hs : s.Ok qs) : (State.archWrite s q n).Ok qs := by
  unfold State.archWrite
  repeat' (first | with_reducible intro _ | with_reducible assumption | with_reducible apply State.put_canon
                 | with_reducible apply State.each_canon | with_reducible apply Canon.ite
                 | with_reducible apply Canon.ite1 | split | dsimp only | with_reducible apply Canon.mk
                 | with_reducible apply CanonOf.of | with_reducible apply Canon.flashW
                 | with_reducible apply Canon.flashE | with_reducible apply CanonOf.cleared)

theorem State.archive_canon {qs : Base} {s : State} (hs : s.Ok qs) : (State.archive s).Ok qs := by
  unfold State.archive
  extract_lets +onlyGivenNames -underBinder from_ upto s1
  have h1 : s1.Ok qs := by
    have h := State.archWrite_canon from_ (upto + 1 - from_) hs
    refine ⟨h.1, h.2.1, h.2.2.1, h.2.2.2.1, h.2.2.2.2.1, h.2.2.2.2.2.1, fun hc hd => ?_, h.2.2.2.2.2.2.2⟩
    obtain ⟨h2, h3⟩ := h.2.2.2.2.2.2.1 hc hd
    exact ⟨h2, Nat.le_trans h3 (seqHigh_mono _ (Nat.le_max_left _ _))⟩
  clear_value s1
  exact State.wr64_canon _ _ h1

theorem execArchiveBlockWrite_canon {qs : Base} (t : Nat) {s : State} (hs : s.Ok qs) : ResOk qs
    (execArchiveBlockWrite t s) := by
  unfold execArchiveBlockWrite
  repeat' (first | with_reducible intro _ | with_reducible assumption | with_reducible apply ResOk.next
                 | with_reducible apply State.at_canon | with_reducible apply State.archive_canon
                 | with_reducible apply Canon.ite | with_reducible apply ResOk.ite | split | dsimp only
                 | with_reducible apply Canon.mk | with_reducible apply CanonOf.of)

theorem execFlashWriteError_canon {qs : Base} {s : State} (hs : s.Ok qs) : ResOk qs (execFlashWriteError s) := by
  unfold execFlashWriteError
  extract_lets +onlyGivenNames -underBinder b s1
  try clear_value b
  have hs1 : s1.Ok qs := by
    unfold s1
    repeat' (first | with_reducible intro _ | with_reducible assumption | with_reducible apply State.raise_canon
                   | with_reducible apply Canon.ite | split | dsimp only | with_reducible apply Canon.mk
                   | with_reducible apply CanonOf.of)
  clear_value s1
  repeat' (first | with_reducible intro _ | with_reducible assumption | with_reducible apply ResOk.next
                 | with_reducible apply State.inNv_canon | with_reducible apply State.archWrite_canon
                 | with_reducible apply Canon.ite | with_reducible apply ResOk.ite | split | dsimp only
                 | with_reducible apply Canon.mk | with_reducible apply CanonOf.of)

end Sys2Proof.Machine
end

