-- ==== Sys2Proof/Laws/CanonSignal.lean ====
section
/-! SUPPORT. The canonical form is kept by the definitions of Machine/Signal.lean. -/
namespace Sys2Proof.Machine

theorem State.deliver_canon {qs : Base} {s : State} (p : Nat) (v : Word) (q : Byte) (hs : s.Ok qs) :
    (State.deliver s p v q).Ok qs := by
  unfold State.deliver
  extract_lets +onlyGivenNames -underBinder i
  try clear_value i
  with_reducible apply Canon.ite
  · repeat' (first | with_reducible intro _ | with_reducible assumption | with_reducible apply Canon.ite | split
                   | dsimp only | with_reducible apply Canon.mk | with_reducible apply CanonOf.of)
  extract_lets +onlyGivenNames -underBinder pv
  try clear_value pv
  repeat' (first | with_reducible intro _ | with_reducible assumption | with_reducible apply State.cleanPoint_canon
                 | with_reducible apply State.sg_canon | with_reducible apply Canon.ite | split | dsimp only
                 | with_reducible apply Canon.mk | with_reducible apply CanonOf.of)

theorem State.deliverStale_canon {qs : Base} {s : State} (p : Nat) (hs : s.Ok qs) : (State.deliverStale s p).Ok qs := by
  unfold State.deliverStale
  extract_lets +onlyGivenNames -underBinder o
  try clear_value o
  repeat' (first | with_reducible intro _ | with_reducible assumption | with_reducible apply State.deliver_canon
                 | with_reducible apply Canon.ite | split | dsimp only | with_reducible apply Canon.mk
                 | with_reducible apply CanonOf.of)

theorem State.closeImage_canon {qs : Base} {s : State} (n : Nat) (hs : s.Ok qs) : (State.closeImage s n).Ok qs := by
  unfold State.closeImage
  extract_lets +onlyGivenNames -underBinder c now moved prev prev1 s1
  try clear_value c
  try clear_value moved
  try clear_value prev
  try clear_value prev1
  have hs1 : s1.Ok qs := by
    unfold s1
    repeat' (first | with_reducible intro _ | with_reducible assumption | with_reducible apply State.wr64_canon
                   | with_reducible apply State.sg_canon | with_reducible apply Canon.ite | split | dsimp only
                   | with_reducible apply Canon.mk | with_reducible apply CanonOf.of)
  clear_value s1
  repeat' (first | with_reducible intro _ | with_reducible assumption | with_reducible apply State.unpoison_canon
                 | with_reducible apply Canon.foldl | with_reducible apply Canon.foldl1 | with_reducible apply Canon.ite
                 | split | dsimp only | with_reducible apply Canon.mk | with_reducible apply CanonOf.of)

theorem State.countForces_canon {qs : Base} {s : State} (hs : s.Ok qs) : (State.countForces s).Ok qs := by
  unfold State.countForces
  extract_lets +onlyGivenNames -underBinder n m
  try clear_value n
  try clear_value m
  repeat' (first | with_reducible intro _ | with_reducible assumption | with_reducible apply State.put_canon
                 | with_reducible apply State.putB_canon | with_reducible apply Canon.ite | split | dsimp only
                 | with_reducible apply Canon.mk | with_reducible apply CanonOf.of)

theorem State.pforce_canon {qs : Base} {s : State} (p : Nat) (v : Option Word) (hs : s.Ok qs) :
    (State.pforce s p v).Ok qs := by
  unfold State.pforce
  with_reducible apply Canon.ite
  · repeat' (first | with_reducible intro _ | with_reducible assumption | with_reducible apply Canon.ite | split
                   | dsimp only | with_reducible apply Canon.mk | with_reducible apply CanonOf.of)
  repeat' (first | with_reducible intro _ | with_reducible assumption | dsimp only [Nv.pfStore]
                 | with_reducible apply State.inNv_canon | with_reducible apply State.take_canon
                 | with_reducible apply Canon.ite | split | dsimp only | with_reducible apply Canon.mk
                 | with_reducible apply CanonOf.of)

theorem State.setForce_canon {qs : Base} {s : State} (p : Nat) (v : Word) (hs : s.Ok qs) : (State.setForce s p v).Ok qs := by
  unfold State.setForce
  extract_lets +onlyGivenNames -underBinder pe w
  try clear_value pe
  try clear_value w
  repeat' (first | with_reducible intro _ | with_reducible assumption | with_reducible apply State.raise_canon
                 | with_reducible apply State.sg_canon | with_reducible apply State.countForces_canon
                 | with_reducible apply State.pforce_canon | with_reducible apply Canon.ite | split | dsimp only
                 | with_reducible apply Canon.mk | with_reducible apply CanonOf.of)

theorem State.clearForce_canon {qs : Base} {s : State} (p : Nat) (hs : s.Ok qs) : (State.clearForce s p).Ok qs := by
  unfold State.clearForce
  repeat' (first | with_reducible intro _ | with_reducible assumption | with_reducible apply State.raise_canon
                 | with_reducible apply State.sg_canon | with_reducible apply State.countForces_canon
                 | with_reducible apply State.pforce_canon | with_reducible apply Canon.ite | split | dsimp only
                 | with_reducible apply Canon.mk | with_reducible apply CanonOf.of)

theorem State.applyForces_canon {qs : Base} {s : State} (n : Nat) (hs : s.Ok qs) : (State.applyForces s n).Ok qs := by
  unfold State.applyForces
  extract_lets +onlyGivenNames -underBinder due s1
  try clear_value due
  have hs1 : s1.Ok qs := by
    unfold s1
    repeat' (first | with_reducible intro _ | with_reducible assumption | with_reducible apply State.sg_canon
                   | with_reducible apply Canon.ite | split | dsimp only | with_reducible apply Canon.mk
                   | with_reducible apply CanonOf.of)
  clear_value s1
  repeat' (first | with_reducible intro _ | with_reducible assumption | with_reducible apply State.setForce_canon
                 | with_reducible apply State.clearForce_canon | with_reducible apply State.each_canon
                 | with_reducible apply Canon.ite | split | dsimp only | with_reducible apply Canon.mk
                 | with_reducible apply CanonOf.of)

theorem State.deliverMap_canon {qs : Base} {s : State} (pl : List Byte) (ms : List MapRec) (q : Nat) (ovr : List Nat)
    (hs : s.Ok qs) : (State.deliverMap s pl ms q ovr).Ok qs := by
  unfold State.deliverMap
  repeat' (first | with_reducible intro _ | with_reducible assumption | with_reducible apply State.deliver_canon
                 | with_reducible apply State.each_canon | with_reducible apply Canon.ite | split | dsimp only
                 | with_reducible apply Canon.mk | with_reducible apply CanonOf.of)

end Sys2Proof.Machine
end

