-- ==== Sys2Proof/Laws/CanonRestart.lean ====
section
/-! SUPPORT. The canonical form is kept by the definitions of Machine/Restart.lean. -/
namespace Sys2Proof.Machine

theorem State.sendFailing_canon {qs : Base} {s : State} (cause : Nat) (hs : s.Ok qs) : (State.sendFailing s cause).Ok qs := by
  unfold State.sendFailing
  with_reducible apply Canon.ite
  · repeat' (first | with_reducible intro _ | with_reducible assumption | with_reducible apply Canon.ite | split
                   | dsimp only | with_reducible apply Canon.mk | with_reducible apply CanonOf.of)
  extract_lets +onlyGivenNames -underBinder s1 s2
  have hs1 : s1.Ok qs := by
    unfold s1
    repeat' (first | with_reducible intro _ | with_reducible assumption | with_reducible apply State.tw_canon
                   | with_reducible apply Canon.ite | split | dsimp only | with_reducible apply Canon.mk
                   | with_reducible apply CanonOf.of)
  clear_value s1
  have hs2 : s2.Ok qs := by
    unfold s2
    repeat' (first | with_reducible intro _ | with_reducible assumption | with_reducible apply State.send_canon
                   | with_reducible apply Canon.ite | split | dsimp only | with_reducible apply Canon.mk
                   | with_reducible apply CanonOf.of)
  clear_value s2
  repeat' (first | with_reducible intro _ | with_reducible assumption | with_reducible apply State.raise_canon
                 | with_reducible apply Canon.ite | split | dsimp only | with_reducible apply Canon.mk
                 | with_reducible apply CanonOf.of)

theorem State.showNv_canon {qs : Base} {s : State} (hs : s.Ok qs) : (State.showNv s).Ok qs := by
  unfold State.showNv
  extract_lets +onlyGivenNames -underBinder s1 s2 s3 s4 s5 s6
  have hs1 : s1.Ok qs := by
    unfold s1
    repeat' (first | with_reducible intro _ | with_reducible assumption | with_reducible apply State.wr_canon
                   | with_reducible apply State.put_canon | with_reducible apply State.wr64_canon
                   | with_reducible apply State.wrN_canon | with_reducible apply Canon.ite | split | dsimp only
                   | with_reducible apply Canon.mk | with_reducible apply CanonOf.of)
  clear_value s1
  have hs2 : s2.Ok qs := by
    unfold s2
    repeat' (first | with_reducible intro _ | with_reducible assumption | with_reducible apply State.wrN_canon
                   | with_reducible apply State.each_canon | with_reducible apply Canon.ite | split | dsimp only
                   | with_reducible apply Canon.mk | with_reducible apply CanonOf.of)
  clear_value s2
  have hs3 : s3.Ok qs := by
    unfold s3
    repeat' (first | with_reducible intro _ | with_reducible assumption | with_reducible apply State.wr64_canon
                   | with_reducible apply State.wrN_canon | with_reducible apply Canon.ite | split | dsimp only
                   | with_reducible apply Canon.mk | with_reducible apply CanonOf.of)
  clear_value s3
  have hs4 : s4.Ok qs := by
    unfold s4
    repeat' (first | with_reducible intro _ | with_reducible assumption | with_reducible apply State.wrN_canon
                   | with_reducible apply Canon.ite | split | dsimp only | with_reducible apply Canon.mk
                   | with_reducible apply CanonOf.of)
  clear_value s4
  have hs5 : s5.Ok qs := by
    unfold s5
    repeat' (first | with_reducible intro _ | with_reducible assumption | with_reducible apply State.wrN_canon
                   | with_reducible apply State.each_canon | with_reducible apply Canon.ite | split | dsimp only
                   | with_reducible apply Canon.mk | with_reducible apply CanonOf.of)
  clear_value s5
  have hs6 : s6.Ok qs := by
    unfold s6
    repeat' (first | with_reducible intro _ | with_reducible assumption | with_reducible apply State.put_canon
                   | with_reducible apply State.putB_canon | with_reducible apply Canon.ite | split | dsimp only
                   | with_reducible apply Canon.mk | with_reducible apply CanonOf.of)
  clear_value s6
  repeat' (first | with_reducible intro _ | with_reducible assumption | with_reducible apply State.putB_canon
                 | with_reducible apply Canon.ite | split | dsimp only | with_reducible apply Canon.mk
                 | with_reducible apply CanonOf.of)

theorem State.cleared_canon {qs : Base} {s : State} (hs : s.Ok qs) : (State.cleared s).Ok qs := by
  unfold State.cleared
  extract_lets +onlyGivenNames -underBinder _ s1
  have hs1 : s1.Ok qs := by
    unfold s1
    repeat' (first | with_reducible intro _ | with_reducible assumption
                   | simp only [setAt_length, List.length_mapIdx, List.length_map] | dsimp only [Nv.cut]
                   | with_reducible apply Canon.ite | split | dsimp only | with_reducible apply Canon.mk
                   | with_reducible apply CanonOf.of | with_reducible apply Canon.flashW
                   | with_reducible apply Canon.flashE | with_reducible apply CanonOf.cleared
                   | with_reducible apply CanonOf.resetRegs)
  clear_value s1
  repeat' (first | with_reducible intro _ | with_reducible assumption | with_reducible apply State.wr_canon
                 | with_reducible apply State.putB_canon | with_reducible apply Canon.ite | split | dsimp only
                 | with_reducible apply Canon.mk | with_reducible apply CanonOf.of)

theorem State.beginS0_canon {qs : Base} {s : State} (cause : Nat) (hs : s.Ok qs) : (State.beginS0 s cause).Ok qs := by
  unfold State.beginS0
  extract_lets +onlyGivenNames -underBinder s1
  have hs1 : s1.Ok qs := by
    unfold s1
    repeat' (first | with_reducible intro _ | with_reducible assumption | with_reducible apply State.cleared_canon
                   | with_reducible apply Canon.ite | split | dsimp only | with_reducible apply Canon.mk
                   | with_reducible apply CanonOf.of)
  clear_value s1
  repeat' (first | with_reducible intro _ | with_reducible assumption | with_reducible apply State.latchAll_canon
                 | with_reducible apply State.showNv_canon | with_reducible apply Canon.ite | split | dsimp only
                 | with_reducible apply Canon.mk | with_reducible apply CanonOf.of)

theorem State.mramCheck_canon {qs : Base} {s : State} (hs : s.Ok qs) : (State.mramCheck s).Ok qs := by
  unfold State.mramCheck
  refine State.showNv_canon (State.each_canon (fun _ _ h => State.raise_canon _ _ _ h) ?_)
  refine ⟨hs.1, hs.2.1, hs.2.2.1, hs.2.2.2.1, hs.2.2.2.2.1, fun hc => ?_, ?_, fun hc => ?_⟩
  · obtain ⟨h1, h2⟩ := hs.2.2.2.2.2.1 hc
    simpa [State.inNv, Nv.seqStart, h1] using h2
  · intro hc hd
    obtain ⟨h1, h2⟩ := hs.2.2.2.2.2.2.1 hc hd
    have hb := (hs.2.2.2.2.2.1 hc).1
    simp only [State.inNv, Nv.seqStart, hb, List.foldl_nil]
    exact ⟨Nat.le_trans h1 h2, Nat.le_refl _⟩
  · exact repairAll_shape _ _ (hs.2.2.2.2.2.2.2 hc)

theorem State.power_canon {qs : Base} {s : State} (l : List Nat) (hs : s.Ok qs) : (State.power s l).Ok qs := by
  unfold State.power
  repeat' (first | with_reducible intro _ | with_reducible assumption | with_reducible apply State.wrN_canon
                 | with_reducible apply Canon.ite | split | dsimp only | with_reducible apply Canon.mk
                 | with_reducible apply CanonOf.of)

theorem State.beginStage_canon {qs : Base} {s : State} (n : Nat) (hs : s.Ok qs) : (State.beginStage s n).Ok qs := by
  unfold State.beginStage
  extract_lets +onlyGivenNames -underBinder s1
  have hs1 : s1.Ok qs := by
    unfold s1
    repeat' (first | with_reducible intro _ | with_reducible assumption | with_reducible apply State.put_canon
                   | with_reducible apply State.wrN_canon | with_reducible apply Canon.ite | split | dsimp only
                   | with_reducible apply Canon.mk | with_reducible apply CanonOf.of)
  clear_value s1
  repeat' (first | with_reducible intro _ | with_reducible assumption | with_reducible apply State.raise_canon
                 | with_reducible apply State.pw_canon | with_reducible apply Canon.ite | split | dsimp only
                 | with_reducible apply Canon.mk | with_reducible apply CanonOf.of)

theorem State.startS1_canon {qs : Base} {s : State} (hs : s.Ok qs) : (State.startS1 s).Ok qs := by
  unfold State.startS1
  extract_lets +onlyGivenNames -underBinder s0 s1 s2 w s3 s4
  have hs0 : s0.Ok qs := by
    unfold s0
    repeat' (first | with_reducible intro _ | with_reducible assumption | with_reducible apply State.tm_canon
                   | with_reducible apply Canon.ite | split | dsimp only | with_reducible apply Canon.mk
                   | with_reducible apply CanonOf.of)
  clear_value s0
  have hs1 : s1.Ok qs := by
    unfold s1
    repeat' (first | with_reducible intro _ | with_reducible assumption | with_reducible apply State.put_canon
                   | with_reducible apply State.power_canon | with_reducible apply Canon.ite | split | dsimp only
                   | with_reducible apply Canon.mk | with_reducible apply CanonOf.of)
  clear_value s1
  have hs2 : s2.Ok qs := by
    unfold s2
    repeat' (first | with_reducible intro _ | with_reducible assumption | with_reducible apply State.pn_canon
                   | with_reducible apply State.beginStage_canon | with_reducible apply Canon.ite | split | dsimp only
                   | with_reducible apply Canon.mk | with_reducible apply CanonOf.of)
  clear_value s2
  try clear_value w
  have hs3 : s3.Ok qs := by
    unfold s3
    repeat' (first | with_reducible intro _ | with_reducible assumption | with_reducible apply State.raise_canon
                   | with_reducible apply Canon.ite | split | dsimp only | with_reducible apply Canon.mk
                   | with_reducible apply CanonOf.of)
  clear_value s3
  have hs4 : s4.Ok qs := by
    unfold s4
    repeat' (first | with_reducible intro _ | with_reducible assumption | with_reducible apply State.raise_canon
                   | with_reducible apply Canon.ite | split | dsimp only | with_reducible apply Canon.mk
                   | with_reducible apply CanonOf.of)
  clear_value s4
  repeat' (first | with_reducible intro _ | with_reducible assumption | with_reducible apply State.pw_canon
                 | with_reducible apply State.mramCheck_canon | with_reducible apply Canon.ite | split | dsimp only
                 | with_reducible apply Canon.mk | with_reducible apply CanonOf.of)

theorem State.roleChanged_canon {qs : Base} {s : State} (hs : s.Ok qs) : (State.roleChanged s).Ok qs := by
  unfold State.roleChanged
  repeat' (first | with_reducible intro _ | with_reducible assumption | with_reducible apply State.put_canon
                 | with_reducible apply State.wrN_canon | with_reducible apply State.tw_canon
                 | with_reducible apply Canon.ite | split | dsimp only | with_reducible apply Canon.mk
                 | with_reducible apply CanonOf.of)

theorem State.roleNone_canon {qs : Base} {s : State} (hs : s.Ok qs) : (State.roleNone s).Ok qs := by
  unfold State.roleNone
  extract_lets +onlyGivenNames -underBinder s1
  have hs1 : s1.Ok qs := by
    unfold s1
    repeat' (first | with_reducible intro _ | with_reducible assumption | with_reducible apply State.put_canon
                   | with_reducible apply Canon.ite | split | dsimp only | with_reducible apply Canon.mk
                   | with_reducible apply CanonOf.of)
  clear_value s1
  repeat' (first | with_reducible intro _ | with_reducible assumption | with_reducible apply State.roleChanged_canon
                 | with_reducible apply Canon.ite | split | dsimp only | with_reducible apply Canon.mk
                 | with_reducible apply CanonOf.of)

theorem State.imageRestart_canon {qs : Base} {s : State} (hs : s.Ok qs) : (State.imageRestart s).Ok qs := by
  unfold State.imageRestart
  extract_lets +onlyGivenNames -underBinder s1 s2 _ s3
  have hs1 : s1.Ok qs := by
    unfold s1
    repeat' (first | with_reducible intro _ | with_reducible assumption | with_reducible apply State.takeAll_canon
                   | with_reducible apply State.cleared_canon | with_reducible apply Canon.ite | split | dsimp only
                   | with_reducible apply Canon.mk | with_reducible apply CanonOf.of)
  clear_value s1
  have hs2 : s2.Ok qs := by
    unfold s2
    repeat' (first | with_reducible intro _ | with_reducible assumption | with_reducible apply State.wr_canon
                   | with_reducible apply State.put_canon | with_reducible apply State.each_canon
                   | with_reducible apply Canon.ite | with_reducible apply Canon.ite1 | split | dsimp only
                   | with_reducible apply Canon.mk | with_reducible apply CanonOf.of)
  clear_value s2
  have hs3 : s3.Ok qs := by
    unfold s3
    repeat' (first | with_reducible intro _ | with_reducible assumption | with_reducible apply Canon.ite | split
                   | dsimp only | with_reducible apply Canon.mk | with_reducible apply CanonOf.of
                   | with_reducible apply Canon.keepBoth | with_reducible apply Canon.memK)
  clear_value s3
  repeat' (first | with_reducible intro _ | with_reducible assumption | with_reducible apply State.latchAll_canon
                 | with_reducible apply State.wrN_canon | with_reducible apply State.showNv_canon
                 | with_reducible apply State.startS1_canon | with_reducible apply State.roleNone_canon
                 | with_reducible apply Canon.ite | split | dsimp only | with_reducible apply Canon.mk
                 | with_reducible apply CanonOf.of)

theorem State.restart_canon {qs : Base} {s : State} (cause : Nat) (hs : s.Ok qs) : (State.restart s cause).Ok qs := by
  unfold State.restart
  extract_lets +onlyGivenNames -underBinder s1
  have hs1 : s1.Ok qs := by
    unfold s1
    repeat' (first | with_reducible intro _ | with_reducible assumption | with_reducible apply State.raise_canon
                   | with_reducible apply State.sendFailing_canon | with_reducible apply Canon.ite | split | dsimp only
                   | with_reducible apply Canon.mk | with_reducible apply CanonOf.of)
  clear_value s1
  repeat' (first | with_reducible intro _ | with_reducible assumption | with_reducible apply State.takeAll_canon
                 | with_reducible apply State.beginS0_canon | with_reducible apply Canon.ite | split | dsimp only
                 | with_reducible apply Canon.mk | with_reducible apply CanonOf.of)

theorem State.restartImage_canon {qs : Base} {s : State} (hs : s.Ok qs) : (State.restartImage s).Ok qs := by
  unfold State.restartImage
  repeat' (first | with_reducible intro _ | with_reducible assumption | with_reducible apply State.tw_canon
                 | with_reducible apply State.imageRestart_canon | with_reducible apply State.restart_canon
                 | with_reducible apply Canon.ite | split | dsimp only | with_reducible apply Canon.mk
                 | with_reducible apply CanonOf.of)

end Sys2Proof.Machine
end

