-- ==== Sys2Proof/Laws/CanonParams.lean ====
section
/-! SUPPORT. The canonical form is kept by the definitions of Machine/Params.lean. -/
namespace Sys2Proof.Machine

theorem State.slotWr_canon {qs : Base} {s : State} (slot o v : Nat) (hs : s.Ok qs) : (State.slotWr s slot o v).Ok qs := by
  unfold State.slotWr
  repeat' (first | with_reducible intro _ | with_reducible assumption | with_reducible apply State.wrN_canon
                 | with_reducible apply State.unpoison_canon | with_reducible apply Canon.ite | split | dsimp only
                 | with_reducible apply Canon.mk | with_reducible apply CanonOf.of)

theorem State.derive_canon {qs : Base} {s : State} (slot : Nat) (hs : s.Ok qs) : (State.derive s slot).Ok qs := by
  unfold State.derive
  extract_lets +onlyGivenNames -underBinder rd
  try clear_value rd
  repeat' (first | with_reducible intro _ | with_reducible assumption | with_reducible apply State.slotWr_canon
                 | with_reducible apply Canon.ite | with_reducible apply Canon.ite1 | split | dsimp only
                 | with_reducible apply Canon.mk | with_reducible apply CanonOf.of)

end Sys2Proof.Machine
end

