-- ==== Sys2Proof/Laws/CanonTwinBase.lean ====
section
/-! SUPPORT. The canonical form is kept by the definitions of Machine/TwinBase.lean. -/
namespace Sys2Proof.Machine

theorem State.twinShow_canon {qs : Base} {s : State} (hs : s.Ok qs) : (State.twinShow s).Ok qs := by
  unfold State.twinShow
  extract_lets +onlyGivenNames -underBinder run from_ s1
  try clear_value run
  try clear_value from_
  have hs1 : s1.Ok qs := by
    unfold s1
    repeat' (first | with_reducible intro _ | with_reducible assumption | with_reducible apply State.tw_canon
                   | with_reducible apply Canon.ite | split | dsimp only | with_reducible apply Canon.mk
                   | with_reducible apply CanonOf.of)
  clear_value s1
  repeat' (first | with_reducible intro _ | with_reducible assumption | with_reducible apply State.put_canon
                 | with_reducible apply State.putB_canon | with_reducible apply Canon.ite | split | dsimp only
                 | with_reducible apply Canon.mk | with_reducible apply CanonOf.of)

theorem State.endSuspect_canon {qs : Base} {s : State} (hs : s.Ok qs) : (State.endSuspect s).Ok qs := by
  unfold State.endSuspect
  repeat' (first | with_reducible intro _ | with_reducible assumption | with_reducible apply State.put_canon
                 | with_reducible apply State.raise_canon | with_reducible apply Canon.ite | split | dsimp only
                 | with_reducible apply Canon.mk | with_reducible apply CanonOf.of)

theorem State.setT_canon {qs : Base} {s : State} (t : Nat) (hs : s.Ok qs) : (State.setT s t).Ok qs := by
  unfold State.setT
  extract_lets +onlyGivenNames -underBinder s0 s1 s2 s3
  have hs0 : s0.Ok qs := by
    unfold s0
    repeat' (first | with_reducible intro _ | with_reducible assumption | with_reducible apply State.endSuspect_canon
                   | with_reducible apply Canon.ite | split | dsimp only | with_reducible apply Canon.mk
                   | with_reducible apply CanonOf.of)
  clear_value s0
  have hs1 : s1.Ok qs := by
    unfold s1
    repeat' (first | with_reducible intro _ | with_reducible assumption | with_reducible apply State.put_canon
                   | with_reducible apply Canon.ite | split | dsimp only | with_reducible apply Canon.mk
                   | with_reducible apply CanonOf.of)
  clear_value s1
  have hs2 : s2.Ok qs := by
    unfold s2
    repeat' (first | with_reducible intro _ | with_reducible assumption | with_reducible apply State.put_canon
                   | with_reducible apply Canon.ite | split | dsimp only | with_reducible apply Canon.mk
                   | with_reducible apply CanonOf.of)
  clear_value s2
  have hs3 : s3.Ok qs := by
    unfold s3
    repeat' (first | with_reducible intro _ | with_reducible assumption | with_reducible apply State.roleChanged_canon
                   | with_reducible apply Canon.ite | split | dsimp only | with_reducible apply Canon.mk
                   | with_reducible apply CanonOf.of)
  clear_value s3
  repeat' (first | with_reducible intro _ | with_reducible assumption | with_reducible apply State.twinShow_canon
                 | with_reducible apply Canon.ite | split | dsimp only | with_reducible apply Canon.mk
                 | with_reducible apply CanonOf.of)

theorem State.toListen_canon {qs : Base} {s : State} (hs : s.Ok qs) : (State.toListen s).Ok qs := by
  unfold State.toListen
  repeat' (first | with_reducible intro _ | with_reducible assumption | with_reducible apply State.tw_canon
                 | with_reducible apply State.setT_canon | with_reducible apply Canon.ite | split | dsimp only
                 | with_reducible apply Canon.mk | with_reducible apply CanonOf.of)

theorem State.cause_canon {qs : Base} {s : State} (c : Nat) (hs : s.Ok qs) : (State.cause s c).Ok qs := by
  unfold State.cause
  repeat' (first | with_reducible intro _ | with_reducible assumption | with_reducible apply State.put_canon
                 | with_reducible apply Canon.ite | split | dsimp only | with_reducible apply Canon.mk
                 | with_reducible apply CanonOf.of)

theorem State.setEpoch_canon {qs : Base} {s : State} (e : Nat) (hs : s.Ok qs) : (State.setEpoch s e).Ok qs := by
  unfold State.setEpoch
  extract_lets +onlyGivenNames -underBinder v
  try clear_value v
  repeat' (first | with_reducible intro _ | with_reducible assumption | with_reducible apply State.inNv_canon
                 | with_reducible apply State.wrN_canon | with_reducible apply Canon.ite | split | dsimp only
                 | with_reducible apply Canon.mk | with_reducible apply CanonOf.of)

theorem State.lagsShow_canon {qs : Base} {s : State} (hs : s.Ok qs) : (State.lagsShow s).Ok qs := by
  unfold State.lagsShow
  extract_lets +onlyGivenNames -underBinder l
  try clear_value l
  repeat' (first | with_reducible intro _ | with_reducible assumption | with_reducible apply State.put_canon
                 | with_reducible apply State.tw_canon | with_reducible apply Canon.ite | split | dsimp only
                 | with_reducible apply Canon.mk | with_reducible apply CanonOf.of)

theorem State.lagCycle_canon {qs : Base} {s : State} (hs : s.Ok qs) : (State.lagCycle s).Ok qs := by
  unfold State.lagCycle
  extract_lets +onlyGivenNames -underBinder s1 s2 s3
  have hs1 : s1.Ok qs := by
    unfold s1
    repeat' (first | with_reducible intro _ | with_reducible assumption | with_reducible apply State.tw_canon
                   | with_reducible apply Canon.ite | split | dsimp only | with_reducible apply Canon.mk
                   | with_reducible apply CanonOf.of)
  clear_value s1
  have hs2 : s2.Ok qs := by
    unfold s2
    repeat' (first | with_reducible intro _ | with_reducible assumption | with_reducible apply State.put_canon
                   | with_reducible apply State.bump_canon | with_reducible apply State.total_canon
                   | with_reducible apply State.raise_canon | with_reducible apply Canon.ite | split | dsimp only
                   | with_reducible apply Canon.mk | with_reducible apply CanonOf.of)
  clear_value s2
  have hs3 : s3.Ok qs := by
    unfold s3
    repeat' (first | with_reducible intro _ | with_reducible assumption | with_reducible apply State.lagsShow_canon
                   | with_reducible apply Canon.ite | split | dsimp only | with_reducible apply Canon.mk
                   | with_reducible apply CanonOf.of)
  clear_value s3
  repeat' (first | with_reducible intro _ | with_reducible assumption | with_reducible apply State.bump_canon
                 | with_reducible apply State.raise_canon | with_reducible apply State.tw_canon
                 | with_reducible apply State.setT_canon | with_reducible apply Canon.ite | split | dsimp only
                 | with_reducible apply Canon.mk | with_reducible apply CanonOf.of)

theorem State.armConfirm_canon {qs : Base} {s : State} (hs : s.Ok qs) : (State.armConfirm s).Ok qs := by
  unfold State.armConfirm
  repeat' (first | with_reducible intro _ | with_reducible assumption | with_reducible apply State.put_canon
                 | with_reducible apply State.raise_canon | with_reducible apply State.pn_canon
                 | with_reducible apply Canon.ite | split | dsimp only | with_reducible apply Canon.mk
                 | with_reducible apply CanonOf.of)

theorem State.nameSwitch_canon {qs : Base} {s : State} (w : Switch) (hs : s.Ok qs) : (State.nameSwitch s w).Ok qs := by
  unfold State.nameSwitch
  repeat' (first | with_reducible intro _ | with_reducible assumption | with_reducible apply State.put_canon
                 | with_reducible apply State.send_canon | with_reducible apply State.tw_canon
                 | with_reducible apply Canon.ite | split | dsimp only | with_reducible apply Canon.mk
                 | with_reducible apply CanonOf.of)

theorem State.startSwitch_canon {qs : Base} {s : State} (b cause : Nat) (restart : Option Nat) (diverge : Bool)
    (hs : s.Ok qs) : (State.startSwitch s b cause restart diverge).Ok qs := by
  unfold State.startSwitch
  repeat' (first | with_reducible intro _ | with_reducible assumption | with_reducible apply State.nameSwitch_canon
                 | with_reducible apply Canon.ite | split | dsimp only | with_reducible apply Canon.mk
                 | with_reducible apply CanonOf.of)

theorem State.closeSession_canon {qs : Base} {s : State} (n reason : Nat) (hs : s.Ok qs) :
    (State.closeSession s n reason).Ok qs := by
  unfold State.closeSession
  repeat' (first | with_reducible intro _ | with_reducible assumption | with_reducible apply State.raise_canon
                 | with_reducible apply State.mg_canon | with_reducible apply Canon.ite | split | dsimp only
                 | with_reducible apply Canon.mk | with_reducible apply CanonOf.of)

theorem State.closeActive_canon {qs : Base} {s : State} (hs : s.Ok qs) : (State.closeActive s).Ok qs := by
  unfold State.closeActive
  repeat' (first | with_reducible intro _ | with_reducible assumption | with_reducible apply State.closeSession_canon
                 | with_reducible apply State.each_canon | with_reducible apply Canon.ite | split | dsimp only
                 | with_reducible apply Canon.mk | with_reducible apply CanonOf.of)

theorem State.beginJoin_canon {qs : Base} {s : State} (fromCopy : Bool) (hs : s.Ok qs) :
    (State.beginJoin s fromCopy).Ok qs := by
  unfold State.beginJoin
  extract_lets +onlyGivenNames -underBinder s1
  have hs1 : s1.Ok qs := by
    unfold s1
    repeat' (first | with_reducible intro _ | with_reducible assumption | with_reducible apply State.tw_canon
                   | with_reducible apply Canon.ite | split | dsimp only | with_reducible apply Canon.mk
                   | with_reducible apply CanonOf.of)
  clear_value s1
  repeat' (first | with_reducible intro _ | with_reducible assumption | with_reducible apply State.put_canon
                 | with_reducible apply State.setT_canon | with_reducible apply Canon.ite | split | dsimp only
                 | with_reducible apply Canon.mk | with_reducible apply CanonOf.of)

theorem State.failJoin_canon {qs : Base} {s : State} (hs : s.Ok qs) : (State.failJoin s).Ok qs := by
  unfold State.failJoin
  repeat' (first | with_reducible intro _ | with_reducible assumption | with_reducible apply State.put_canon
                 | with_reducible apply State.raise_canon | with_reducible apply State.tw_canon
                 | with_reducible apply Canon.ite | split | dsimp only | with_reducible apply Canon.mk
                 | with_reducible apply CanonOf.of)

theorem State.hoClose_canon {qs : Base} {s : State} (code : Nat) (hs : s.Ok qs) : (State.hoClose s code).Ok qs := by
  unfold State.hoClose
  extract_lets +onlyGivenNames -underBinder _ _ s1
  have hs1 : s1.Ok qs := by
    unfold s1
    repeat' (first | with_reducible intro _ | with_reducible assumption | with_reducible apply Canon.ite | split
                   | dsimp only | with_reducible apply Canon.mk | with_reducible apply CanonOf.of)
  clear_value s1
  repeat' (first | with_reducible intro _ | with_reducible assumption | with_reducible apply State.raise_canon
                 | with_reducible apply State.showNv_canon | with_reducible apply State.twinShow_canon
                 | with_reducible apply Canon.ite | split | dsimp only | with_reducible apply Canon.mk
                 | with_reducible apply CanonOf.of)

theorem State.hoReturn_canon {qs : Base} {s : State} (code : Nat) (hs : s.Ok qs) : (State.hoReturn s code).Ok qs := by
  unfold State.hoReturn
  extract_lets +onlyGivenNames -underBinder s1
  have hs1 : s1.Ok qs := by
    unfold s1
    repeat' (first | with_reducible intro _ | with_reducible assumption | with_reducible apply State.hoClose_canon
                   | with_reducible apply Canon.ite | split | dsimp only | with_reducible apply Canon.mk
                   | with_reducible apply CanonOf.of)
  clear_value s1
  repeat' (first | with_reducible intro _ | with_reducible assumption | with_reducible apply State.inNv_canon
                 | with_reducible apply Canon.ite | split | dsimp only | with_reducible apply Canon.mk
                 | with_reducible apply CanonOf.of)

theorem State.hoTo_canon {qs : Base} {s : State} (h : Nat) (hs : s.Ok qs) : (State.hoTo s h).Ok qs := by
  unfold State.hoTo
  repeat' (first | with_reducible intro _ | with_reducible assumption | with_reducible apply State.inNv_canon
                 | with_reducible apply State.showNv_canon | with_reducible apply Canon.ite | split | dsimp only
                 | with_reducible apply Canon.mk | with_reducible apply CanonOf.of)

theorem State.modFaultEvent_canon {qs : Base} {s : State} (fault r : Nat) (hs : s.Ok qs) :
    (State.modFaultEvent s fault r).Ok qs := by
  unfold State.modFaultEvent
  repeat' (first | with_reducible intro _ | with_reducible assumption | with_reducible apply State.raise_canon
                 | with_reducible apply Canon.ite | split | dsimp only | with_reducible apply Canon.mk
                 | with_reducible apply CanonOf.of)

theorem State.oweSwitch_canon {qs : Base} {s : State} (w : Switch) (hs : s.Ok qs) : (State.oweSwitch s w).Ok qs := by
  unfold State.oweSwitch
  repeat' (first | with_reducible intro _ | with_reducible assumption | with_reducible apply State.tw_canon
                 | with_reducible apply State.nameSwitch_canon | with_reducible apply Canon.ite | split | dsimp only
                 | with_reducible apply Canon.mk | with_reducible apply CanonOf.of)

theorem State.owedBoundary_canon {qs : Base} {s : State} (n : Nat) (hs : s.Ok qs) : (State.owedBoundary s n).Ok qs := by
  unfold State.owedBoundary
  repeat' (first | with_reducible intro _ | with_reducible assumption | with_reducible apply State.tw_canon
                 | with_reducible apply State.nameSwitch_canon | with_reducible apply Canon.ite | split | dsimp only
                 | with_reducible apply Canon.mk | with_reducible apply CanonOf.of)

theorem State.moduleFault_canon {qs : Base} {s : State} (fault : Nat) (hs : s.Ok qs) : (State.moduleFault s fault).Ok qs := by
  unfold State.moduleFault
  extract_lets +onlyGivenNames -underBinder s1
  have hs1 : s1.Ok qs := by
    unfold s1
    repeat' (first | with_reducible intro _ | with_reducible assumption | with_reducible apply State.put_canon
                   | with_reducible apply Canon.ite | split | dsimp only | with_reducible apply Canon.mk
                   | with_reducible apply CanonOf.of)
  clear_value s1
  repeat' (first | with_reducible intro _ | with_reducible assumption | with_reducible apply State.restart_canon
                 | with_reducible apply State.hoReturn_canon | with_reducible apply State.modFaultEvent_canon
                 | with_reducible apply State.oweSwitch_canon | with_reducible apply Canon.ite | split | dsimp only
                 | with_reducible apply Canon.mk | with_reducible apply CanonOf.of)

end Sys2Proof.Machine
end

