-- ==== Sys2Proof/Laws/CanonPartBase.lean ====
section
/-! SUPPORT. The canonical form is kept by the definitions of Machine/PartBase.lean. -/
namespace Sys2Proof.Machine

theorem State.haltShow_canon {qs : Base} {s : State} (hs : s.Ok qs) : (State.haltShow s).Ok qs := by
  unfold State.haltShow
  repeat' (first | with_reducible intro _ | with_reducible assumption | with_reducible apply State.putB_canon
                 | with_reducible apply Canon.ite | split | dsimp only | with_reducible apply Canon.mk
                 | with_reducible apply CanonOf.of)

theorem State.setPst_canon {qs : Base} {s : State} (p n : Nat) (hs : s.Ok qs) : (State.setPst s p n).Ok qs := by
  unfold State.setPst
  repeat' (first | with_reducible intro _ | with_reducible assumption | with_reducible apply State.put_canon
                 | with_reducible apply State.haltShow_canon | with_reducible apply Canon.ite | split | dsimp only
                 | with_reducible apply Canon.mk | with_reducible apply CanonOf.of)

theorem State.outRewrite_canon {qs : Base} {s : State} (p : Nat) (hs : s.Ok qs) : (State.outRewrite s p).Ok qs := by
  unfold State.outRewrite
  extract_lets +onlyGivenNames -underBinder r
  try clear_value r
  repeat' (first | with_reducible intro _ | with_reducible assumption | with_reducible apply State.sysW_canon
                 | with_reducible apply Canon.foldl | with_reducible apply Canon.foldl1 | with_reducible apply Canon.ite
                 | split | dsimp only | with_reducible apply Canon.mk | with_reducible apply CanonOf.of)

theorem State.coreDrop_canon {qs : Base} {s : State} (p : Nat) (hs : s.Ok qs) : (State.coreDrop s p).Ok qs := by
  unfold State.coreDrop
  extract_lets +onlyGivenNames -underBinder c k here s1
  try clear_value c
  try clear_value k
  try clear_value here
  have hs1 : s1.Ok qs := by
    unfold s1
    repeat' (first | with_reducible intro _ | with_reducible assumption | with_reducible apply State.pa_canon
                   | with_reducible apply Canon.ite | split | dsimp only | with_reducible apply Canon.mk
                   | with_reducible apply CanonOf.of)
  clear_value s1
  repeat' (first | with_reducible intro _ | with_reducible assumption | with_reducible apply State.setCore_canon
                 | with_reducible apply Canon.ite | split | dsimp only | with_reducible apply Canon.mk
                 | with_reducible apply CanonOf.of)

theorem State.unhold_canon {qs : Base} {s : State} (p : Nat) (hs : s.Ok qs) : (State.unhold s p).Ok qs := by
  unfold State.unhold
  repeat' (first | with_reducible intro _ | with_reducible assumption | with_reducible apply State.pa_canon
                 | with_reducible apply Canon.ite | split | dsimp only | with_reducible apply Canon.mk
                 | with_reducible apply CanonOf.of)

theorem State.abortEvent_canon {qs : Base} {s : State} (p kind pc : Nat) (hs : s.Ok qs) :
    (State.abortEvent s p kind pc).Ok qs := by
  unfold State.abortEvent
  extract_lets +onlyGivenNames -underBinder isl
  try clear_value isl
  repeat' (first | with_reducible intro _ | with_reducible assumption | with_reducible apply State.raise_canon
                 | with_reducible apply Canon.ite | split | dsimp only | with_reducible apply Canon.mk
                 | with_reducible apply CanonOf.of)

theorem State.countAbort_canon {qs : Base} {s : State} (p kind : Nat) (hs : s.Ok qs) : (State.countAbort s p kind).Ok qs := by
  unfold State.countAbort
  extract_lets +onlyGivenNames -underBinder k l s1
  try clear_value k
  try clear_value l
  have hs1 : s1.Ok qs := by
    unfold s1
    repeat' (first | with_reducible intro _ | with_reducible assumption | with_reducible apply State.setPart_canon
                   | with_reducible apply Canon.ite | split | dsimp only | with_reducible apply Canon.mk
                   | with_reducible apply CanonOf.of)
  clear_value s1
  repeat' (first | with_reducible intro _ | with_reducible assumption | with_reducible apply State.put_canon
                 | with_reducible apply State.bump_canon | with_reducible apply State.total_canon
                 | with_reducible apply Canon.ite | split | dsimp only | with_reducible apply Canon.mk
                 | with_reducible apply CanonOf.of)

theorem State.noteEnd_canon {qs : Base} {s : State} (p kind : Nat) (hs : s.Ok qs) : (State.noteEnd s p kind).Ok qs := by
  unfold State.noteEnd
  extract_lets +onlyGivenNames -underBinder e
  try clear_value e
  repeat' (first | with_reducible intro _ | with_reducible assumption | with_reducible apply State.cr_canon
                 | with_reducible apply Canon.ite | split | dsimp only | with_reducible apply Canon.mk
                 | with_reducible apply CanonOf.of)

theorem State.abortNow_canon {qs : Base} {s : State} (p kind pc : Nat) (hs : s.Ok qs) :
    (State.abortNow s p kind pc).Ok qs := by
  unfold State.abortNow
  repeat' (first | with_reducible intro _ | with_reducible assumption | with_reducible apply State.setPst_canon
                 | with_reducible apply State.coreDrop_canon | with_reducible apply State.abortEvent_canon
                 | with_reducible apply State.countAbort_canon | with_reducible apply State.noteEnd_canon
                 | with_reducible apply Canon.ite | split | dsimp only | with_reducible apply Canon.mk
                 | with_reducible apply CanonOf.of)

theorem State.abortPart_canon {qs : Base} {s : State} (p kind pc : Nat) (hs : s.Ok qs) :
    (State.abortPart s p kind pc).Ok qs := by
  unfold State.abortPart
  repeat' (first | with_reducible intro _ | with_reducible assumption | with_reducible apply State.abortNow_canon
                 | with_reducible apply Canon.ite | split | dsimp only | with_reducible apply Canon.mk
                 | with_reducible apply CanonOf.of)

theorem State.endPart_canon {qs : Base} {s : State} (p : Nat) (hs : s.Ok qs) : (State.endPart s p).Ok qs := by
  unfold State.endPart
  repeat' (first | with_reducible intro _ | with_reducible assumption | with_reducible apply State.setPst_canon
                 | with_reducible apply State.coreDrop_canon | with_reducible apply State.noteEnd_canon
                 | with_reducible apply Canon.ite | split | dsimp only | with_reducible apply Canon.mk
                 | with_reducible apply CanonOf.of)

theorem State.haltPart_canon {qs : Base} {s : State} (p : Nat) (hs : s.Ok qs) : (State.haltPart s p).Ok qs := by
  unfold State.haltPart
  repeat' (first | with_reducible intro _ | with_reducible assumption | with_reducible apply State.bump_canon
                 | with_reducible apply State.pa_canon | with_reducible apply State.setPst_canon
                 | with_reducible apply State.unhold_canon | with_reducible apply Canon.ite | split | dsimp only
                 | with_reducible apply Canon.mk | with_reducible apply CanonOf.of)

theorem State.rollLines_canon {qs : Base} {s : State} (p : Nat) (hs : s.Ok qs) : (State.rollLines s p).Ok qs := by
  unfold State.rollLines
  extract_lets +onlyGivenNames -underBinder s1
  have hs1 : s1.Ok qs := by
    unfold s1
    repeat' (first | with_reducible intro _ | with_reducible assumption | with_reducible apply State.sysW_canon
                   | with_reducible apply State.each_canon | with_reducible apply Canon.ite | split | dsimp only
                   | with_reducible apply Canon.mk | with_reducible apply CanonOf.of)
  clear_value s1
  repeat' (first | with_reducible intro _ | with_reducible assumption | with_reducible apply State.memZero_canon
                 | with_reducible apply State.pa_canon | with_reducible apply State.each_canon
                 | with_reducible apply Canon.ite | split | dsimp only | with_reducible apply Canon.mk
                 | with_reducible apply CanonOf.of)

theorem State.rollMem_canon {qs : Base} {s : State} (p : Nat) (hs : s.Ok qs) : (State.rollMem s p).Ok qs := by
  unfold State.rollMem
  extract_lets +onlyGivenNames -underBinder s1
  have hs1 : s1.Ok qs := by
    unfold s1
    repeat' (first | with_reducible intro _ | with_reducible assumption | with_reducible apply State.sysW_canon
                   | with_reducible apply State.rollLines_canon | with_reducible apply State.each_canon
                   | with_reducible apply Canon.ite | with_reducible apply Canon.ite1 | split | dsimp only
                   | with_reducible apply Canon.mk | with_reducible apply CanonOf.of)
  clear_value s1
  repeat' (first | with_reducible intro _ | with_reducible assumption | with_reducible apply State.pa_canon
                 | with_reducible apply State.outRewrite_canon | with_reducible apply Canon.ite | split | dsimp only
                 | with_reducible apply Canon.mk | with_reducible apply CanonOf.of)

theorem State.faultyPart_canon {qs : Base} {s : State} (p : Nat) (hs : s.Ok qs) : (State.faultyPart s p).Ok qs := by
  unfold State.faultyPart
  extract_lets +onlyGivenNames -underBinder k
  try clear_value k
  repeat' (first | with_reducible intro _ | with_reducible assumption | with_reducible apply State.coreDrop_canon
                 | with_reducible apply State.countAbort_canon | with_reducible apply State.noteEnd_canon
                 | with_reducible apply State.haltPart_canon | with_reducible apply State.rollMem_canon
                 | with_reducible apply Canon.ite | split | dsimp only | with_reducible apply Canon.mk
                 | with_reducible apply CanonOf.of)

theorem State.coreFaulty_canon {qs : Base} {s : State} (c : Nat) (hs : s.Ok qs) : (State.coreFaulty s c).Ok qs := by
  unfold State.coreFaulty
  with_reducible apply Canon.ite
  · repeat' (first | with_reducible intro _ | with_reducible assumption | with_reducible apply Canon.ite | split
                   | dsimp only | with_reducible apply Canon.mk | with_reducible apply CanonOf.of)
  extract_lets +onlyGivenNames -underBinder s1 mine
  have hs1 : s1.Ok qs := by
    unfold s1
    repeat' (first | with_reducible intro _ | with_reducible assumption | with_reducible apply State.put_canon
                   | with_reducible apply State.raise_canon | with_reducible apply Canon.ite | split | dsimp only
                   | with_reducible apply Canon.mk | with_reducible apply CanonOf.of)
  clear_value s1
  try clear_value mine
  repeat' (first | with_reducible intro _ | with_reducible assumption | with_reducible apply State.noteFault_canon
                 | with_reducible apply State.moduleFault_canon | with_reducible apply State.faultyPart_canon
                 | with_reducible apply State.each_canon | with_reducible apply Canon.ite | split | dsimp only
                 | with_reducible apply Canon.mk | with_reducible apply CanonOf.of)

theorem State.dropActivations_canon {qs : Base} {s : State} (hs : s.Ok qs) : (State.dropActivations s).Ok qs := by
  unfold State.dropActivations
  repeat' (first | with_reducible intro _ | with_reducible assumption | with_reducible apply State.raise_canon
                 | with_reducible apply State.pa_canon | with_reducible apply State.setPst_canon
                 | with_reducible apply State.coreDrop_canon | with_reducible apply State.unhold_canon
                 | with_reducible apply State.haltPart_canon | with_reducible apply State.rollMem_canon
                 | with_reducible apply State.each_canon | with_reducible apply Canon.ite | split | dsimp only
                 | with_reducible apply Canon.mk | with_reducible apply CanonOf.of)

theorem State.dropSamples_canon {qs : Base} {s : State} (hs : s.Ok qs) : (State.dropSamples s).Ok qs := by
  unfold State.dropSamples
  repeat' (first | with_reducible intro _ | with_reducible assumption | with_reducible apply State.lp_canon
                 | with_reducible apply Canon.ite | split | dsimp only | with_reducible apply Canon.mk
                 | with_reducible apply CanonOf.of)

end Sys2Proof.Machine
end

