-- ==== Sys2Proof/Laws/CanonQmp.lean ====
section
/-! SUPPORT. The canonical form is kept by the definitions of Machine/Qmp.lean. -/
namespace Sys2Proof.Machine

theorem State.ok_canon {qs : Base} {s : State} (p : List Byte) (hs : s.Ok qs) : (State.ok s p).1.Ok qs := by
  unfold State.ok
  repeat' (first | with_reducible intro _ | with_reducible assumption | with_reducible apply Canon.ite
                 | with_reducible apply Canon.ite1 | split | dsimp only | with_reducible apply Canon.mk
                 | with_reducible apply CanonOf.of)

theorem State.refused_canon {qs : Base} {s : State} (reason : Nat) (hs : s.Ok qs) : (State.refused s reason).1.Ok qs := by
  unfold State.refused
  repeat' (first | with_reducible intro _ | with_reducible assumption | with_reducible apply Canon.ite
                 | with_reducible apply Canon.ite1 | split | dsimp only | with_reducible apply Canon.mk
                 | with_reducible apply CanonOf.of)

theorem State.status_canon {qs : Base} {s : State} (n : Nat) (hs : s.Ok qs) : (State.status s n).1.Ok qs := by
  unfold State.status
  repeat' (first | with_reducible intro _ | with_reducible assumption | with_reducible apply Canon.ite
                 | with_reducible apply Canon.ite1 | split | dsimp only | with_reducible apply Canon.mk
                 | with_reducible apply CanonOf.of)

theorem State.respond_canon {qs : Base} {s : State} (n : Nat) (r : QmpResp) (hs : s.Ok qs) : (State.respond s n r).Ok qs := by
  unfold State.respond
  repeat' (first | with_reducible intro _ | with_reducible assumption | with_reducible apply State.send_canon
                 | with_reducible apply State.each_canon | with_reducible apply Canon.ite | split | dsimp only
                 | with_reducible apply Canon.mk | with_reducible apply CanonOf.of)

theorem State.answer_canon {qs : Base} {s : State} (n : Nat) (r : QmpResp) (hs : s.Ok qs) : (State.answer s n r).Ok qs := by
  unfold State.answer
  repeat' (first | with_reducible intro _ | with_reducible assumption | with_reducible apply State.take_canon
                 | with_reducible apply State.setSession_canon | with_reducible apply State.respond_canon
                 | with_reducible apply Canon.ite | split | dsimp only | with_reducible apply Canon.mk
                 | with_reducible apply CanonOf.of)

theorem State.request_canon {qs : Base} {s : State} (ses : Fin 16) (req cmd : Nat) (control needsActive : Bool)
    (f : State → Answer) (hf : ∀ (a0 : State), a0.Ok qs → (f a0).1.Ok qs) (hs : s.Ok qs) :
        (State.request s ses req cmd control needsActive f).Ok qs := by
  unfold State.request
  with_reducible apply Canon.ite
  · repeat' (first | with_reducible intro _ | with_reducible assumption | with_reducible apply hf
                   | with_reducible apply Canon.ite | split | dsimp only | with_reducible apply Canon.mk
                   | with_reducible apply CanonOf.of)
  repeat' (first | with_reducible intro _ | with_reducible assumption | with_reducible apply State.setSession_canon
                 | with_reducible apply State.respond_canon | with_reducible apply State.answer_canon
                 | with_reducible apply hf | with_reducible apply Canon.ite | with_reducible apply Canon.ite1 | split
                 | dsimp only | with_reducible apply Canon.mk | with_reducible apply CanonOf.of)

end Sys2Proof.Machine
end

