-- ==== Sys2Proof/Laws/CanonChangeSet.lean ====
section
/-! SUPPORT. The canonical form is kept by the definitions of Machine/ChangeSet.lean. -/
namespace Sys2Proof.Machine

theorem State.journalShow_canon {qs : Base} {s : State} (hs : s.Ok qs) : (State.journalShow s).Ok qs := by
  unfold State.journalShow
  repeat' (first | with_reducible intro _ | with_reducible assumption | with_reducible apply State.put_canon
                 | with_reducible apply Canon.ite | split | dsimp only | with_reducible apply Canon.mk
                 | with_reducible apply CanonOf.of)

theorem State.putSlotWord_canon {qs : Base} {s : State} (slot off : Nat) (v : Word) (hs : s.Ok qs) :
    (State.putSlotWord s slot off v).Ok qs := by
  unfold State.putSlotWord
  repeat' (first | with_reducible intro _ | with_reducible assumption | with_reducible apply State.memW_canon
                 | with_reducible apply State.slotWr_canon | with_reducible apply Canon.ite | split | dsimp only
                 | with_reducible apply Canon.mk | with_reducible apply CanonOf.of)

theorem State.csWords_canon {qs : Base} {s : State} (c : ChangeSet) (hs : s.Ok qs) : (State.csWords s c).Ok qs := by
  unfold State.csWords
  repeat' (first | with_reducible intro _ | with_reducible assumption | with_reducible apply State.putSlotWord_canon
                 | with_reducible apply State.each_canon | with_reducible apply Canon.ite | split | dsimp only
                 | with_reducible apply Canon.mk | with_reducible apply CanonOf.of)

theorem State.withDeferred_canon {qs : Base} {s : State} (hs : s.Ok qs) : (State.withDeferred s).Ok qs := by
  unfold State.withDeferred
  repeat' (first | with_reducible intro _ | with_reducible assumption | with_reducible apply State.putSlotWord_canon
                 | with_reducible apply State.each_canon | with_reducible apply Canon.ite | split | dsimp only
                 | with_reducible apply Canon.mk | with_reducible apply CanonOf.of)

theorem State.csRefuse_canon {qs : Base} {s : State} (reason : Nat) (hs : s.Ok qs) : (State.csRefuse s reason).Ok qs := by
  unfold State.csRefuse
  repeat' (first | with_reducible intro _ | with_reducible assumption | with_reducible apply State.total_canon
                 | with_reducible apply State.raise_canon | with_reducible apply Canon.ite | split | dsimp only
                 | with_reducible apply Canon.mk | with_reducible apply CanonOf.of)

theorem State.csShow_canon {qs : Base} {s : State} (hs : s.Ok qs) : (State.csShow s).Ok qs := by
  unfold State.csShow
  repeat' (first | with_reducible intro _ | with_reducible assumption | with_reducible apply State.put_canon
                 | with_reducible apply Canon.ite | split | dsimp only | with_reducible apply Canon.mk
                 | with_reducible apply CanonOf.of)

theorem State.csReceive_canon {qs : Base} {s : State} (c : ChangeSet) (hs : s.Ok qs) : (State.csReceive s c).1.Ok qs := by
  unfold State.csReceive
  with_reducible apply Canon.ite1
  · repeat' (first | with_reducible intro _ | with_reducible assumption | with_reducible apply State.status_canon
                   | with_reducible apply Canon.ite | with_reducible apply Canon.ite1 | split | dsimp only
                   | with_reducible apply Canon.mk | with_reducible apply CanonOf.of)
  with_reducible apply Canon.ite1
  · repeat' (first | with_reducible intro _ | with_reducible assumption | with_reducible apply State.status_canon
                   | with_reducible apply Canon.ite | with_reducible apply Canon.ite1 | split | dsimp only
                   | with_reducible apply Canon.mk | with_reducible apply CanonOf.of)
  repeat' (first | with_reducible intro _ | with_reducible assumption | with_reducible apply State.send_canon
                 | with_reducible apply State.ok_canon | with_reducible apply State.refused_canon
                 | with_reducible apply State.csRefuse_canon | with_reducible apply State.csShow_canon
                 | with_reducible apply Canon.ite | with_reducible apply Canon.ite1 | split | dsimp only
                 | with_reducible apply Canon.mk | with_reducible apply CanonOf.of)

theorem execChangeset_canon {qs : Base} (ses : Fin 16) (req : Nat) (c : ChangeSet) (t : Nat) {s : State}
    (hs : s.Ok qs) : ResOk qs (execChangeset ses req c t s) := by
  unfold execChangeset
  repeat' (first | with_reducible intro _ | with_reducible assumption | with_reducible apply ResOk.next
                 | with_reducible apply State.at_canon | with_reducible apply State.request_canon
                 | with_reducible apply State.csReceive_canon | with_reducible apply Canon.ite
                 | with_reducible apply ResOk.ite | split | dsimp only | with_reducible apply Canon.mk
                 | with_reducible apply CanonOf.of)

theorem execChangesetForwardRx_canon {qs : Base} (c : ChangeSet) {s : State} (hs : s.Ok qs) : ResOk qs
    (execChangesetForwardRx c s) := by
  unfold execChangesetForwardRx
  repeat' (first | with_reducible intro _ | with_reducible assumption | with_reducible apply ResOk.next
                 | with_reducible apply State.send_canon | with_reducible apply State.csShow_canon
                 | with_reducible apply Canon.ite | with_reducible apply ResOk.ite | split | dsimp only
                 | with_reducible apply Canon.mk | with_reducible apply CanonOf.of)

theorem State.csDrop_canon {qs : Base} {s : State} (c : ChangeSet) (hs : s.Ok qs) : (State.csDrop s c).Ok qs := by
  unfold State.csDrop
  repeat' (first | with_reducible intro _ | with_reducible assumption | with_reducible apply State.csShow_canon
                 | with_reducible apply Canon.ite | split | dsimp only | with_reducible apply Canon.mk
                 | with_reducible apply CanonOf.of)

theorem execChangeSetDiscard_canon {qs : Base} (num t : Nat) {s : State} (hs : s.Ok qs) : ResOk qs
    (execChangeSetDiscard num t s) := by
  unfold execChangeSetDiscard
  extract_lets +onlyGivenNames -underBinder s0
  have hs0 : s0.Ok qs := by
    unfold s0
    repeat' (first | with_reducible intro _ | with_reducible assumption | with_reducible apply State.at_canon
                   | with_reducible apply Canon.ite | split | dsimp only | with_reducible apply Canon.mk
                   | with_reducible apply CanonOf.of)
  clear_value s0
  repeat' (first | with_reducible intro _ | with_reducible assumption | with_reducible apply ResOk.next
                 | with_reducible apply State.send_canon | with_reducible apply State.csRefuse_canon
                 | with_reducible apply State.csDrop_canon | with_reducible apply Canon.ite
                 | with_reducible apply ResOk.ite | split | dsimp only | with_reducible apply Canon.mk
                 | with_reducible apply CanonOf.of)

theorem State.effectSlot_canon {qs : Base} {s : State} (slot off : Nat) (v : Word) (hs : s.Ok qs) :
    (State.effectSlot s slot off v).Ok qs := by
  unfold State.effectSlot
  extract_lets +onlyGivenNames -underBinder s1 s2
  have hs1 : s1.Ok qs := by
    unfold s1
    repeat' (first | with_reducible intro _ | with_reducible assumption | with_reducible apply State.putSlotWord_canon
                   | with_reducible apply Canon.ite | split | dsimp only | with_reducible apply Canon.mk
                   | with_reducible apply CanonOf.of)
  clear_value s1
  have hs2 : s2.Ok qs := by
    unfold s2
    repeat' (first | with_reducible intro _ | with_reducible assumption | with_reducible apply State.sl_canon
                   | with_reducible apply Canon.ite | split | dsimp only | with_reducible apply Canon.mk
                   | with_reducible apply CanonOf.of)
  clear_value s2
  repeat' (first | with_reducible intro _ | with_reducible assumption | with_reducible apply State.derive_canon
                 | with_reducible apply Canon.ite | split | dsimp only | with_reducible apply Canon.mk
                 | with_reducible apply CanonOf.of)

theorem State.effect_canon {qs : Base} {s : State} (t : ParamTarget) (v : Word) (hs : s.Ok qs) :
    (State.effect s t v).Ok qs := by
  unfold State.effect
  repeat' (first | with_reducible intro _ | with_reducible assumption | with_reducible apply State.sg_canon
                 | with_reducible apply State.pa_canon | with_reducible apply State.effectSlot_canon
                 | with_reducible apply Canon.ite | split | dsimp only | with_reducible apply Canon.mk
                 | with_reducible apply CanonOf.of)

theorem State.applyEntry_canon {qs : Base} {s : State} (cls n : Nat) (e : CsEntry) (hs : s.Ok qs) :
    (State.applyEntry s cls n e).Ok qs := by
  unfold State.applyEntry
  repeat' (first | with_reducible intro _ | with_reducible assumption | with_reducible apply State.effectSlot_canon
                 | with_reducible apply State.effect_canon | with_reducible apply Canon.ite | split | dsimp only
                 | with_reducible apply Canon.mk | with_reducible apply CanonOf.of)

theorem State.journalAppend_canon {qs : Base} {s : State} (c : ChangeSet) (n : Nat) (hs : s.Ok qs) :
    (State.journalAppend s c n).Ok qs := by
  unfold State.journalAppend
  extract_lets +onlyGivenNames -underBinder r use
  try clear_value r
  try clear_value use
  repeat' (first | with_reducible intro _ | with_reducible assumption | with_reducible apply State.journalShow_canon
                 | with_reducible apply Canon.ite | split | dsimp only | with_reducible apply Canon.mk
                 | with_reducible apply CanonOf.of | with_reducible apply Canon.flashW
                 | with_reducible apply Canon.flashE | with_reducible apply CanonOf.cleared)

theorem State.csApply_canon {qs : Base} {s : State} (c : ChangeSet) (n : Nat) (hs : s.Ok qs) :
    (State.csApply s c n).Ok qs := by
  unfold State.csApply
  extract_lets +onlyGivenNames -underBinder s1 s2 s3
  have hs1 : s1.Ok qs := by
    unfold s1
    repeat' (first | with_reducible intro _ | with_reducible assumption | with_reducible apply State.csDrop_canon
                   | with_reducible apply State.applyEntry_canon | with_reducible apply State.each_canon
                   | with_reducible apply Canon.ite | split | dsimp only | with_reducible apply Canon.mk
                   | with_reducible apply CanonOf.of)
  clear_value s1
  have hs2 : s2.Ok qs := by
    unfold s2
    repeat' (first | with_reducible intro _ | with_reducible assumption | with_reducible apply State.wrN_canon
                   | with_reducible apply State.raise_canon | with_reducible apply Canon.ite | split | dsimp only
                   | with_reducible apply Canon.mk | with_reducible apply CanonOf.of)
  clear_value s2
  have hs3 : s3.Ok qs := by
    unfold s3
    repeat' (first | with_reducible intro _ | with_reducible assumption | with_reducible apply State.raise_canon
                   | with_reducible apply Canon.ite | split | dsimp only | with_reducible apply Canon.mk
                   | with_reducible apply CanonOf.of)
  clear_value s3
  repeat' (first | with_reducible intro _ | with_reducible assumption | with_reducible apply State.journalAppend_canon
                 | with_reducible apply Canon.ite | split | dsimp only | with_reducible apply Canon.mk
                 | with_reducible apply CanonOf.of)

theorem State.csDelay_canon {qs : Base} {s : State} (c : ChangeSet) (hs : s.Ok qs) : (State.csDelay s c).Ok qs := by
  unfold State.csDelay
  repeat' (first | with_reducible intro _ | with_reducible assumption | with_reducible apply State.bump_canon
                 | with_reducible apply State.total_canon | with_reducible apply Canon.ite | split | dsimp only
                 | with_reducible apply Canon.mk | with_reducible apply CanonOf.of)

theorem State.csOne_canon {qs : Base} (n : Nat) {a : State × Nat} (c : ChangeSet) (hs : a.1.Ok qs) :
    (State.csOne n a c).1.Ok qs := by
  unfold State.csOne
  dsimp only
  split
  · exact State.csDelay_canon _ hs
  · split
    · exact State.csRefuse_canon _ (State.csDrop_canon _ hs)
    · exact State.csApply_canon _ _ hs

theorem State.deferredAt_canon {qs : Base} {s : State} (n : Nat) (hs : s.Ok qs) : (State.deferredAt s n).Ok qs := by
  unfold State.deferredAt
  extract_lets +onlyGivenNames -underBinder due
  try clear_value due
  repeat' (first | with_reducible intro _ | with_reducible assumption | with_reducible apply State.effect_canon
                 | with_reducible apply State.each_canon | with_reducible apply Canon.ite | split | dsimp only
                 | with_reducible apply Canon.mk | with_reducible apply CanonOf.of)

theorem State.csBoundary_canon {qs : Base} {s : State} (n : Nat) (hs : s.Ok qs) : (State.csBoundary s n).Ok qs := by
  unfold State.csBoundary
  exact State.applyForces_canon _ (Canon.foldl1 (fun _ c h => State.csOne_canon n c h) (State.deferredAt_canon n hs))

theorem State.csReplay_canon {qs : Base} {s : State} (hs : s.Ok qs) : (State.csReplay s).Ok qs := by
  unfold State.csReplay
  extract_lets +onlyGivenNames -underBinder l s1
  try clear_value l
  have hs1 : s1.Ok qs := by
    unfold s1
    repeat' (first | with_reducible intro _ | with_reducible assumption | with_reducible apply State.memW_canon
                   | with_reducible apply State.derive_canon | with_reducible apply State.putSlotWord_canon
                   | with_reducible apply State.each_canon | with_reducible apply Canon.ite | split | dsimp only
                   | with_reducible apply Canon.mk | with_reducible apply CanonOf.of)
  clear_value s1
  repeat' (first | with_reducible intro _ | with_reducible assumption | with_reducible apply State.wrN_canon
                 | with_reducible apply State.journalShow_canon | with_reducible apply Canon.ite | split | dsimp only
                 | with_reducible apply Canon.mk | with_reducible apply CanonOf.of)

end Sys2Proof.Machine
end

