-- ==== Sys2Proof/Laws/CanonProfile.lean ====
section
/-! SUPPORT. The canonical form is kept by the definitions of Machine/Profile.lean. -/
namespace Sys2Proof.Machine

theorem State.profileChunk_canon {qs : Base} {s : State} (slot off : Nat) (data : List Byte) (hs : s.Ok qs) :
    (State.profileChunk s slot off data).1.Ok qs := by
  unfold State.profileChunk
  with_reducible apply Canon.ite1
  · repeat' (first | with_reducible intro _ | with_reducible assumption | with_reducible apply State.refused_canon
                   | with_reducible apply Canon.ite | with_reducible apply Canon.ite1 | split | dsimp only
                   | with_reducible apply Canon.mk | with_reducible apply CanonOf.of)
  with_reducible apply Canon.ite1
  · repeat' (first | with_reducible intro _ | with_reducible assumption | with_reducible apply State.status_canon
                   | with_reducible apply Canon.ite | with_reducible apply Canon.ite1 | split | dsimp only
                   | with_reducible apply Canon.mk | with_reducible apply CanonOf.of)
  extract_lets +onlyGivenNames -underBinder s1
  have hs1 : s1.Ok qs := by
    unfold s1
    repeat' (first | with_reducible intro _ | with_reducible assumption | with_reducible apply Canon.ite | split
                   | dsimp only | with_reducible apply Canon.mk | with_reducible apply CanonOf.of
                   | with_reducible apply Canon.flashW | with_reducible apply Canon.flashE
                   | with_reducible apply CanonOf.cleared)
  clear_value s1
  repeat' (first | with_reducible intro _ | with_reducible assumption
                 | simp only [setAt_length, List.length_mapIdx, List.length_map] | with_reducible apply State.inNv_canon
                 | with_reducible apply State.showNv_canon | with_reducible apply State.ok_canon
                 | with_reducible apply Canon.ite | with_reducible apply Canon.ite1 | split | dsimp only
                 | with_reducible apply Canon.mk | with_reducible apply CanonOf.of)

theorem execProfileChunk_canon {qs : Base} (ses : Fin 16) (req : Nat) (slot : Fin 4) (off : Nat)
    (data : List Byte) {s : State} (hs : s.Ok qs) : ResOk qs (execProfileChunk ses req slot off data s) := by
  unfold execProfileChunk
  repeat' (first | with_reducible intro _ | with_reducible assumption | with_reducible apply ResOk.next
                 | with_reducible apply State.request_canon | with_reducible apply State.profileChunk_canon
                 | with_reducible apply Canon.ite | with_reducible apply ResOk.ite | split | dsimp only
                 | with_reducible apply Canon.mk | with_reducible apply CanonOf.of)

theorem State.profileFinish_canon {qs : Base} {s : State} (slot : Nat) (hs : s.Ok qs) :
    (State.profileFinish s slot).1.Ok qs := by
  unfold State.profileFinish
  with_reducible apply Canon.ite1
  · repeat' (first | with_reducible intro _ | with_reducible assumption | with_reducible apply State.refused_canon
                   | with_reducible apply Canon.ite | with_reducible apply Canon.ite1 | split | dsimp only
                   | with_reducible apply Canon.mk | with_reducible apply CanonOf.of)
  extract_lets +onlyGivenNames -underBinder s1
  have hs1 : s1.Ok qs := by
    unfold s1
    repeat' (first | with_reducible intro _ | with_reducible assumption | with_reducible apply Canon.ite | split
                   | dsimp only | with_reducible apply Canon.mk | with_reducible apply CanonOf.of
                   | with_reducible apply Canon.flashW | with_reducible apply Canon.flashE
                   | with_reducible apply CanonOf.cleared)
  clear_value s1
  repeat' (first | with_reducible intro _ | with_reducible assumption
                 | simp only [setAt_length, List.length_mapIdx, List.length_map] | with_reducible apply State.inNv_canon
                 | with_reducible apply State.showNv_canon | with_reducible apply State.ok_canon
                 | with_reducible apply Canon.ite | with_reducible apply Canon.ite1 | split | dsimp only
                 | with_reducible apply Canon.mk | with_reducible apply CanonOf.of)

theorem execProfileFinish_canon {qs : Base} (ses : Fin 16) (req : Nat) (slot : Fin 4) {s : State}
    (hs : s.Ok qs) : ResOk qs (execProfileFinish ses req slot s) := by
  unfold execProfileFinish
  repeat' (first | with_reducible intro _ | with_reducible assumption | with_reducible apply ResOk.next
                 | with_reducible apply State.request_canon | with_reducible apply State.profileFinish_canon
                 | with_reducible apply Canon.ite | with_reducible apply ResOk.ite | split | dsimp only
                 | with_reducible apply Canon.mk | with_reducible apply CanonOf.of)

theorem State.checkFailed_canon {qs : Base} {s : State} (code : Nat) (data : List Byte) (hs : s.Ok qs) :
    (State.checkFailed s code data).Ok qs := by
  unfold State.checkFailed
  repeat' (first | with_reducible intro _ | with_reducible assumption | with_reducible apply State.put_canon
                 | with_reducible apply State.raise_canon | with_reducible apply Canon.ite | split | dsimp only
                 | with_reducible apply Canon.mk | with_reducible apply CanonOf.of)

theorem execImageCheckDone_canon {qs : Base} (slot : Fin 4) {s : State} (hs : s.Ok qs) : ResOk qs
    (execImageCheckDone slot s) := by
  unfold execImageCheckDone
  with_reducible apply ResOk.next
  with_reducible apply Canon.ite
  · repeat' (first | with_reducible intro _ | with_reducible assumption | with_reducible apply Canon.ite | split
                   | dsimp only | with_reducible apply Canon.mk | with_reducible apply CanonOf.of)
  repeat' (first | with_reducible intro _ | with_reducible assumption
                 | simp only [setAt_length, List.length_mapIdx, List.length_map] | with_reducible apply State.inNv_canon
                 | with_reducible apply State.showNv_canon | with_reducible apply State.checkFailed_canon
                 | with_reducible apply Canon.ite | split | dsimp only | with_reducible apply Canon.mk
                 | with_reducible apply CanonOf.of)

theorem State.choose_canon {qs : Base} {s : State} (c : Choice) (persist : Bool) (hs : s.Ok qs) :
    (State.choose s c persist).Ok qs := by
  unfold State.choose
  repeat' (first | with_reducible intro _ | with_reducible assumption | with_reducible apply Canon.ite | split
                 | dsimp only | with_reducible apply Canon.mk | with_reducible apply CanonOf.of)

theorem State.unchoose_canon {qs : Base} {s : State} (hs : s.Ok qs) : (State.unchoose s).Ok qs := by
  unfold State.unchoose
  repeat' (first | with_reducible intro _ | with_reducible assumption | with_reducible apply Canon.ite | split
                 | dsimp only | with_reducible apply Canon.mk | with_reducible apply CanonOf.of)

theorem execProfileSelect_canon {qs : Base} (ses : Fin 16) (req : Nat) (slot : Option (Fin 4))
    (persist : Bool) {s : State} (hs : s.Ok qs) : ResOk qs (execProfileSelect ses req slot persist s) := by
  unfold execProfileSelect
  repeat' (first | with_reducible intro _ | with_reducible assumption | with_reducible apply ResOk.next
                 | with_reducible apply State.ok_canon | with_reducible apply State.request_canon
                 | with_reducible apply State.choose_canon | with_reducible apply Canon.ite
                 | with_reducible apply ResOk.ite | split | dsimp only | with_reducible apply Canon.mk
                 | with_reducible apply CanonOf.of)

theorem execProfileClear_canon {qs : Base} (ses : Fin 16) (req : Nat) {s : State} (hs : s.Ok qs) : ResOk qs
    (execProfileClear ses req s) := by
  unfold execProfileClear
  repeat' (first | with_reducible intro _ | with_reducible assumption | with_reducible apply ResOk.next
                 | with_reducible apply State.ok_canon | with_reducible apply State.request_canon
                 | with_reducible apply State.unchoose_canon | with_reducible apply Canon.ite
                 | with_reducible apply ResOk.ite | split | dsimp only | with_reducible apply Canon.mk
                 | with_reducible apply CanonOf.of)

theorem State.selSet_canon {qs : Base} {s : State} (hs : s.Ok qs) : (State.selSet s).Ok qs := by
  unfold State.selSet
  repeat' (first | with_reducible intro _ | with_reducible assumption | with_reducible apply State.choose_canon
                 | with_reducible apply Canon.ite | split | dsimp only | with_reducible apply Canon.mk
                 | with_reducible apply CanonOf.of)

theorem execSelSet_canon {qs : Base} {s : State} (hs : s.Ok qs) : ResOk qs (execSelSet s) := by
  unfold execSelSet
  repeat' (first | with_reducible intro _ | with_reducible assumption | with_reducible apply ResOk.next
                 | with_reducible apply State.selSet_canon | with_reducible apply Canon.ite
                 | with_reducible apply ResOk.ite | split | dsimp only | with_reducible apply Canon.mk
                 | with_reducible apply CanonOf.of)

theorem execSelClear_canon {qs : Base} {s : State} (hs : s.Ok qs) : ResOk qs (execSelClear s) := by
  unfold execSelClear
  repeat' (first | with_reducible intro _ | with_reducible assumption | with_reducible apply ResOk.next
                 | with_reducible apply State.unchoose_canon | with_reducible apply Canon.ite
                 | with_reducible apply ResOk.ite | split | dsimp only | with_reducible apply Canon.mk
                 | with_reducible apply CanonOf.of)

theorem State.keyTake_canon {qs : Base} {s : State} (r : KeyRecord) (hs : s.Ok qs) : (State.keyTake s r).1.Ok qs := by
  unfold State.keyTake
  cases h : keyApply s.nv.keys r with
  | none => exact State.raise_canon _ _ _ hs
  | some k =>
    refine State.raise_canon _ _ _ (State.showNv_canon ?_)
    exact ⟨hs.1, hs.2.1, hs.2.2.1, hs.2.2.2.1, hs.2.2.2.2.1, hs.2.2.2.2.2.1.keys (keyApply_revoked h), hs.2.2.2.2.2.2.1,
      fun hc => (keyApply_length h).symm ▸ hs.2.2.2.2.2.2.2 hc⟩

theorem State.profileKey_canon {qs : Base} {s : State} (r : KeyRecord) (hs : s.Ok qs) : (State.profileKey s r).1.Ok qs := by
  unfold State.profileKey
  with_reducible apply Canon.ite1
  · repeat' (first | with_reducible intro _ | with_reducible assumption | with_reducible apply State.raise_canon
                   | with_reducible apply State.refused_canon | with_reducible apply Canon.ite
                   | with_reducible apply Canon.ite1 | split | dsimp only | with_reducible apply Canon.mk
                   | with_reducible apply CanonOf.of)
  extract_lets +onlyGivenNames -underBinder a
  have ha : a.1.Ok qs := by
    unfold a
    repeat' (first | with_reducible intro _ | with_reducible assumption | with_reducible apply State.keyTake_canon
                   | with_reducible apply Canon.ite | with_reducible apply Canon.ite1 | split | dsimp only
                   | with_reducible apply Canon.mk | with_reducible apply CanonOf.of)
  clear_value a
  repeat' (first | with_reducible intro _ | with_reducible assumption | with_reducible apply State.send_canon
                 | with_reducible apply State.ok_canon | with_reducible apply State.refused_canon
                 | with_reducible apply Canon.ite | with_reducible apply Canon.ite1 | split | dsimp only
                 | with_reducible apply Canon.mk | with_reducible apply CanonOf.of)

theorem execProfileKey_canon {qs : Base} (ses : Fin 16) (req : Nat) (r : KeyRecord) {s : State} (hs : s.Ok qs) : ResOk qs
    (execProfileKey ses req r s) := by
  unfold execProfileKey
  repeat' (first | with_reducible intro _ | with_reducible assumption | with_reducible apply ResOk.next
                 | with_reducible apply State.request_canon | with_reducible apply State.profileKey_canon
                 | with_reducible apply Canon.ite | with_reducible apply ResOk.ite | split | dsimp only
                 | with_reducible apply Canon.mk | with_reducible apply CanonOf.of)

theorem execKeyRecordFromActive_canon {qs : Base} (r : KeyRecord) {s : State} (hs : s.Ok qs) : ResOk qs
    (execKeyRecordFromActive r s) := by
  unfold execKeyRecordFromActive
  repeat' (first | with_reducible intro _ | with_reducible assumption | with_reducible apply ResOk.next
                 | with_reducible apply State.keyTake_canon | with_reducible apply Canon.ite
                 | with_reducible apply ResOk.ite | with_reducible apply Canon.ite1 | split | dsimp only
                 | with_reducible apply Canon.mk | with_reducible apply CanonOf.of)

theorem execProfileList_canon {qs : Base} (ses : Fin 16) (req : Nat) {s : State} (hs : s.Ok qs) : ResOk qs
    (execProfileList ses req s) := by
  unfold execProfileList
  repeat' (first | with_reducible intro _ | with_reducible assumption | with_reducible apply ResOk.next
                 | with_reducible apply State.ok_canon | with_reducible apply State.request_canon
                 | with_reducible apply Canon.ite | with_reducible apply ResOk.ite | split | dsimp only
                 | with_reducible apply Canon.mk | with_reducible apply CanonOf.of)

end Sys2Proof.Machine
end

