-- ==== Sys2Proof/Laws/CanonCan.lean ====
section
/-! SUPPORT. The canonical form is kept by the definitions of Machine/Can.lean. -/
namespace Sys2Proof.Machine

theorem State.canFill_canon {qs : Base} {s : State} (c : Nat) (hs : s.Ok qs) : (State.canFill s c).Ok qs := by
  unfold State.canFill
  extract_lets +onlyGivenNames -underBinder k
  try clear_value k
  repeat' (first | with_reducible intro _ | with_reducible assumption | with_reducible apply State.put_canon
                 | with_reducible apply Canon.ite | split | dsimp only | with_reducible apply Canon.mk
                 | with_reducible apply CanonOf.of)

theorem State.canFifo_canon {qs : Base} {s : State} (c n : Nat) (e : CanEntry) (hs : s.Ok qs) :
    (State.canFifo s c n e).Ok qs := by
  unfold State.canFifo
  extract_lets +onlyGivenNames -underBinder k q ovr full q' s1
  try clear_value k
  try clear_value q
  try clear_value ovr
  try clear_value full
  try clear_value q'
  have hs1 : s1.Ok qs := by
    unfold s1
    repeat' (first | with_reducible intro _ | with_reducible assumption | with_reducible apply State.setCan_canon
                   | with_reducible apply State.canFill_canon | with_reducible apply Canon.ite | split | dsimp only
                   | with_reducible apply Canon.mk | with_reducible apply CanonOf.of)
  clear_value s1
  repeat' (first | with_reducible intro _ | with_reducible assumption | with_reducible apply State.bump_canon
                 | with_reducible apply State.raise_canon | with_reducible apply Canon.ite | split | dsimp only
                 | with_reducible apply Canon.mk | with_reducible apply CanonOf.of)

theorem State.canListSend_canon {qs : Base} {s : State} (n : Nat) (hs : s.Ok qs) : (State.canListSend s n).Ok qs := by
  unfold State.canListSend
  repeat' (first | with_reducible intro _ | with_reducible assumption | with_reducible apply State.send_canon
                 | with_reducible apply Canon.ite | split | dsimp only | with_reducible apply Canon.mk
                 | with_reducible apply CanonOf.of)

theorem State.canStore_canon {qs : Base} {s : State} (c b : Nat) (e : CanEntry) (hs : s.Ok qs) :
    (State.canStore s c b e).Ok qs := by
  unfold State.canStore
  extract_lets +onlyGivenNames -underBinder k f n again s1 s2
  try clear_value k
  try clear_value f
  try clear_value n
  try clear_value again
  have hs1 : s1.Ok qs := by
    unfold s1
    repeat' (first | with_reducible intro _ | with_reducible assumption | with_reducible apply State.setCan_canon
                   | with_reducible apply Canon.ite | split | dsimp only | with_reducible apply Canon.mk
                   | with_reducible apply CanonOf.of)
  clear_value s1
  have hs2 : s2.Ok qs := by
    unfold s2
    repeat' (first | with_reducible intro _ | with_reducible assumption | with_reducible apply State.canListSend_canon
                   | with_reducible apply Canon.ite | split | dsimp only | with_reducible apply Canon.mk
                   | with_reducible apply CanonOf.of)
  clear_value s2
  repeat' (first | with_reducible intro _ | with_reducible assumption | with_reducible apply State.bump_canon
                 | with_reducible apply State.raise_canon | with_reducible apply Canon.ite | split | dsimp only
                 | with_reducible apply Canon.mk | with_reducible apply CanonOf.of)

theorem State.canErrors_canon {qs : Base} {s : State} (c tec rec : Nat) (hs : s.Ok qs) :
    (State.canErrors s c tec rec).Ok qs := by
  unfold State.canErrors
  with_reducible apply Canon.ite
  · repeat' (first | with_reducible intro _ | with_reducible assumption | with_reducible apply Canon.ite | split
                   | dsimp only | with_reducible apply Canon.mk | with_reducible apply CanonOf.of)
  extract_lets +onlyGivenNames -underBinder s1 passive s2
  have hs1 : s1.Ok qs := by
    unfold s1
    repeat' (first | with_reducible intro _ | with_reducible assumption | with_reducible apply State.put_canon
                   | with_reducible apply Canon.ite | split | dsimp only | with_reducible apply Canon.mk
                   | with_reducible apply CanonOf.of)
  clear_value s1
  try clear_value passive
  have hs2 : s2.Ok qs := by
    unfold s2
    repeat' (first | with_reducible intro _ | with_reducible assumption | with_reducible apply State.put_canon
                   | with_reducible apply Canon.ite | split | dsimp only | with_reducible apply Canon.mk
                   | with_reducible apply CanonOf.of)
  clear_value s2
  repeat' (first | with_reducible intro _ | with_reducible assumption | with_reducible apply State.raise_canon
                 | with_reducible apply Canon.ite | split | dsimp only | with_reducible apply Canon.mk
                 | with_reducible apply CanonOf.of)

theorem execCanFrameRx_canon {qs : Base} (ch : Fin 4) (f : CanFrame) (esi : Bool) (tec rec t : Nat) {s : State}
    (hs : s.Ok qs) : ResOk qs (execCanFrameRx ch f esi tec rec t s) := by
  unfold execCanFrameRx
  extract_lets +onlyGivenNames -underBinder c s0
  try clear_value c
  have hs0 : s0.Ok qs := by
    unfold s0
    repeat' (first | with_reducible intro _ | with_reducible assumption | with_reducible apply State.at_canon
                   | with_reducible apply State.canErrors_canon | with_reducible apply Canon.ite | split | dsimp only
                   | with_reducible apply Canon.mk | with_reducible apply CanonOf.of)
  clear_value s0
  with_reducible apply ResOk.ite
  · repeat' (first | with_reducible intro _ | with_reducible assumption | with_reducible apply ResOk.next
                   | with_reducible apply State.bump_canon | with_reducible apply Canon.ite
                   | with_reducible apply ResOk.ite | split | dsimp only | with_reducible apply Canon.mk
                   | with_reducible apply CanonOf.of)
  extract_lets +onlyGivenNames -underBinder e
  try clear_value e
  repeat' (first | with_reducible intro _ | with_reducible assumption | with_reducible apply ResOk.next
                 | with_reducible apply State.bump_canon | with_reducible apply State.canFifo_canon
                 | with_reducible apply State.canStore_canon | with_reducible apply Canon.ite
                 | with_reducible apply ResOk.ite | split | dsimp only | with_reducible apply Canon.mk
                 | with_reducible apply CanonOf.of)

theorem execCanFrameListRx_canon {qs : Base} (n : Nat) (frames : List (Nat × Nat × List Byte)) {s : State}
    (hs : s.Ok qs) : ResOk qs (execCanFrameListRx n frames s) := by
  unfold execCanFrameListRx
  repeat' (first | with_reducible intro _ | with_reducible assumption | with_reducible apply ResOk.next
                 | with_reducible apply State.setCan_canon | with_reducible apply State.each_canon
                 | with_reducible apply Canon.ite | with_reducible apply ResOk.ite | with_reducible apply Canon.ite1
                 | split | dsimp only | with_reducible apply Canon.mk | with_reducible apply CanonOf.of)

theorem execCanFrameListMissing_canon {qs : Base} (n t : Nat) {s : State} (hs : s.Ok qs) : ResOk qs
    (execCanFrameListMissing n t s) := by
  unfold execCanFrameListMissing
  extract_lets +onlyGivenNames -underBinder s0 late
  have hs0 : s0.Ok qs := by
    unfold s0
    repeat' (first | with_reducible intro _ | with_reducible assumption | with_reducible apply State.at_canon
                   | with_reducible apply Canon.ite | split | dsimp only | with_reducible apply Canon.mk
                   | with_reducible apply CanonOf.of)
  clear_value s0
  try clear_value late
  repeat' (first | with_reducible intro _ | with_reducible assumption | with_reducible apply ResOk.next
                 | with_reducible apply State.setCan_canon | with_reducible apply State.lagCycle_canon
                 | with_reducible apply State.each_canon | with_reducible apply Canon.ite
                 | with_reducible apply ResOk.ite | split | dsimp only | with_reducible apply Canon.mk
                 | with_reducible apply CanonOf.of)

theorem State.canResolve_canon {qs : Base} {s : State} (c b n : Nat) (hs : s.Ok qs) : (State.canResolve s c b n).Ok qs := by
  unfold State.canResolve
  extract_lets +onlyGivenNames -underBinder r ms
  try clear_value r
  try clear_value ms
  repeat' (first | with_reducible intro _ | with_reducible assumption | with_reducible apply State.setCan_canon
                 | with_reducible apply State.deliver_canon | with_reducible apply State.each_canon
                 | with_reducible apply Canon.ite | split | dsimp only | with_reducible apply Canon.mk
                 | with_reducible apply CanonOf.of)

theorem State.canClose_canon {qs : Base} {s : State} (n : Nat) (hs : s.Ok qs) : (State.canClose s n).Ok qs := by
  unfold State.canClose
  repeat' (first | with_reducible intro _ | with_reducible assumption | with_reducible apply State.canResolve_canon
                 | with_reducible apply State.each_canon | with_reducible apply Canon.ite | split | dsimp only
                 | with_reducible apply Canon.mk | with_reducible apply CanonOf.of)

theorem execCanRxTimeout_canon {qs : Base} (ch : Fin 4) (buf : Fin 64) {s : State} (hs : s.Ok qs) : ResOk qs
    (execCanRxTimeout ch buf s) := by
  unfold execCanRxTimeout
  extract_lets +onlyGivenNames -underBinder r k f
  try clear_value r
  try clear_value k
  try clear_value f
  repeat' (first | with_reducible intro _ | with_reducible assumption | with_reducible apply ResOk.next
                 | with_reducible apply State.raise_canon | with_reducible apply State.setCan_canon
                 | with_reducible apply State.deliverStale_canon | with_reducible apply State.each_canon
                 | with_reducible apply Canon.ite | with_reducible apply ResOk.ite | split | dsimp only
                 | with_reducible apply Canon.mk | with_reducible apply CanonOf.of)

theorem State.canRequest_canon {qs : Base} {s : State} (c b : Nat) (pl : List Byte) (hs : s.Ok qs) :
    (State.canRequest s c b pl).Ok qs := by
  unfold State.canRequest
  with_reducible apply Canon.ite
  · repeat' (first | with_reducible intro _ | with_reducible assumption | with_reducible apply Canon.ite | split
                   | dsimp only | with_reducible apply Canon.mk | with_reducible apply CanonOf.of)
  extract_lets +onlyGivenNames -underBinder k f s1 s2
  try clear_value k
  try clear_value f
  have hs1 : s1.Ok qs := by
    unfold s1
    repeat' (first | with_reducible intro _ | with_reducible assumption | with_reducible apply State.setCan_canon
                   | with_reducible apply Canon.ite | split | dsimp only | with_reducible apply Canon.mk
                   | with_reducible apply CanonOf.of)
  clear_value s1
  have hs2 : s2.Ok qs := by
    unfold s2
    repeat' (first | with_reducible intro _ | with_reducible assumption | with_reducible apply State.bump_canon
                   | with_reducible apply Canon.ite | split | dsimp only | with_reducible apply Canon.mk
                   | with_reducible apply CanonOf.of)
  clear_value s2
  repeat' (first | with_reducible intro _ | with_reducible assumption | with_reducible apply State.send_canon
                 | with_reducible apply Canon.ite | split | dsimp only | with_reducible apply Canon.mk
                 | with_reducible apply CanonOf.of)

theorem State.canForm_canon {qs : Base} {s : State} (r : CanChan) (b : Nat) (hs : s.Ok qs) : (State.canForm s r b).Ok qs := by
  unfold State.canForm
  repeat' (first | with_reducible intro _ | with_reducible assumption | with_reducible apply State.setCan_canon
                 | with_reducible apply State.canRequest_canon | with_reducible apply Canon.ite | split | dsimp only
                 | with_reducible apply Canon.mk | with_reducible apply CanonOf.of)

theorem State.canBoundary_canon {qs : Base} {s : State} (n : Nat) (hs : s.Ok qs) : (State.canBoundary s n).Ok qs := by
  unfold State.canBoundary
  repeat' (first | with_reducible intro _ | with_reducible assumption | with_reducible apply State.setCan_canon
                 | with_reducible apply State.canForm_canon | with_reducible apply State.each_canon
                 | with_reducible apply Canon.ite | split | dsimp only | with_reducible apply Canon.mk
                 | with_reducible apply CanonOf.of)

theorem State.canStarted_canon {qs : Base} {s : State} (l : List (Nat × Nat)) (hs : s.Ok qs) :
    (State.canStarted s l).Ok qs := by
  unfold State.canStarted
  repeat' (first | with_reducible intro _ | with_reducible assumption | with_reducible apply State.setCan_canon
                 | with_reducible apply State.each_canon | with_reducible apply Canon.ite
                 | with_reducible apply Canon.ite1 | split | dsimp only | with_reducible apply Canon.mk
                 | with_reducible apply CanonOf.of)

theorem State.canGone_canon {qs : Base} {s : State} (c b : Nat) (hs : s.Ok qs) : (State.canGone s c b).Ok qs := by
  unfold State.canGone
  extract_lets +onlyGivenNames -underBinder k
  try clear_value k
  with_reducible apply Canon.ite
  · repeat' (first | with_reducible intro _ | with_reducible assumption | with_reducible apply State.setCan_canon
                   | with_reducible apply State.canFill_canon | with_reducible apply Canon.ite | split | dsimp only
                   | with_reducible apply Canon.mk | with_reducible apply CanonOf.of)
  extract_lets +onlyGivenNames -underBinder f
  try clear_value f
  repeat' (first | with_reducible intro _ | with_reducible assumption | with_reducible apply State.setCan_canon
                 | with_reducible apply Canon.ite | split | dsimp only | with_reducible apply Canon.mk
                 | with_reducible apply CanonOf.of)

theorem execCanTxDone_canon {qs : Base} (ch : Fin 4) (buf : Fin 65) (tec rec : Nat) {s : State} (hs : s.Ok qs) : ResOk qs
    (execCanTxDone ch buf tec rec s) := by
  unfold execCanTxDone
  repeat' (first | with_reducible intro _ | with_reducible assumption | with_reducible apply ResOk.next
                 | with_reducible apply State.canErrors_canon | with_reducible apply State.canGone_canon
                 | with_reducible apply Canon.ite | with_reducible apply ResOk.ite | split | dsimp only
                 | with_reducible apply Canon.mk | with_reducible apply CanonOf.of)

theorem State.canAttempt_canon {qs : Base} {s : State} (c b : Nat) (hs : s.Ok qs) : (State.canAttempt s c b).Ok qs := by
  unfold State.canAttempt
  extract_lets +onlyGivenNames -underBinder r k
  try clear_value r
  try clear_value k
  repeat' (first | with_reducible intro _ | with_reducible assumption | with_reducible apply State.wr_canon
                 | with_reducible apply State.put_canon | with_reducible apply State.bump_canon
                 | with_reducible apply State.raise_canon | with_reducible apply State.setCan_canon
                 | with_reducible apply State.canGone_canon | with_reducible apply Canon.ite | split | dsimp only
                 | with_reducible apply Canon.mk | with_reducible apply CanonOf.of)

theorem execCanTxAttemptFail_canon {qs : Base} (ch : Fin 4) (buf : Fin 65) (tec rec : Nat) {s : State}
    (hs : s.Ok qs) : ResOk qs (execCanTxAttemptFail ch buf tec rec s) := by
  unfold execCanTxAttemptFail
  repeat' (first | with_reducible intro _ | with_reducible assumption | with_reducible apply ResOk.next
                 | with_reducible apply State.canErrors_canon | with_reducible apply State.canAttempt_canon
                 | with_reducible apply Canon.ite | with_reducible apply ResOk.ite | split | dsimp only
                 | with_reducible apply Canon.mk | with_reducible apply CanonOf.of)

theorem execCanBusOff_canon {qs : Base} (ch : Fin 4) {s : State} (hs : s.Ok qs) : ResOk qs (execCanBusOff ch s) := by
  unfold execCanBusOff
  extract_lets +onlyGivenNames -underBinder c
  try clear_value c
  repeat' (first | with_reducible intro _ | with_reducible assumption | with_reducible apply ResOk.next
                 | with_reducible apply State.put_canon | with_reducible apply State.raise_canon
                 | with_reducible apply State.setCan_canon | with_reducible apply State.canFill_canon
                 | with_reducible apply Canon.ite | with_reducible apply ResOk.ite | split | dsimp only
                 | with_reducible apply Canon.mk | with_reducible apply CanonOf.of)

theorem State.canRejoin_canon {qs : Base} {s : State} (c : Nat) (hs : s.Ok qs) : (State.canRejoin s c).Ok qs := by
  unfold State.canRejoin
  repeat' (first | with_reducible intro _ | with_reducible assumption | with_reducible apply State.put_canon
                 | with_reducible apply State.raise_canon | with_reducible apply Canon.ite | split | dsimp only
                 | with_reducible apply Canon.mk | with_reducible apply CanonOf.of)

theorem execCanAutoRecover_canon {qs : Base} (ch : Fin 4) {s : State} (hs : s.Ok qs) : ResOk qs
    (execCanAutoRecover ch s) := by
  unfold execCanAutoRecover
  repeat' (first | with_reducible intro _ | with_reducible assumption | with_reducible apply ResOk.next
                 | with_reducible apply State.canRejoin_canon | with_reducible apply Canon.ite
                 | with_reducible apply ResOk.ite | split | dsimp only | with_reducible apply Canon.mk
                 | with_reducible apply CanonOf.of)

theorem execCanRecover_canon {qs : Base} (ch : Fin 4) {s : State} (hs : s.Ok qs) : ResOk qs (execCanRecover ch s) := by
  unfold execCanRecover
  repeat' (first | with_reducible intro _ | with_reducible assumption | with_reducible apply ResOk.next
                 | with_reducible apply State.canRejoin_canon | with_reducible apply Canon.ite
                 | with_reducible apply ResOk.ite | split | dsimp only | with_reducible apply Canon.mk
                 | with_reducible apply CanonOf.of)

theorem execCanPop0_canon {qs : Base} (ch : Fin 4) {s : State} (hs : s.Ok qs) : ResOk qs (execCanPop0 ch s) := by
  unfold execCanPop0
  extract_lets +onlyGivenNames -underBinder k
  try clear_value k
  repeat' (first | with_reducible intro _ | with_reducible assumption | with_reducible apply ResOk.next
                 | with_reducible apply State.setCan_canon | with_reducible apply State.canFill_canon
                 | with_reducible apply Canon.ite | with_reducible apply ResOk.ite | split | dsimp only
                 | with_reducible apply Canon.mk | with_reducible apply CanonOf.of)

theorem execCanPop1_canon {qs : Base} (ch : Fin 4) {s : State} (hs : s.Ok qs) : ResOk qs (execCanPop1 ch s) := by
  unfold execCanPop1
  extract_lets +onlyGivenNames -underBinder k
  try clear_value k
  repeat' (first | with_reducible intro _ | with_reducible assumption | with_reducible apply ResOk.next
                 | with_reducible apply State.setCan_canon | with_reducible apply State.canFill_canon
                 | with_reducible apply Canon.ite | with_reducible apply ResOk.ite | split | dsimp only
                 | with_reducible apply Canon.mk | with_reducible apply CanonOf.of)

theorem execCanPush_canon {qs : Base} (ch : Fin 4) {s : State} (hs : s.Ok qs) : ResOk qs (execCanPush ch s) := by
  unfold execCanPush
  extract_lets +onlyGivenNames -underBinder c k
  try clear_value c
  try clear_value k
  repeat' (first | with_reducible intro _ | with_reducible assumption | with_reducible apply ResOk.next
                 | with_reducible apply State.bump_canon | with_reducible apply State.send_canon
                 | with_reducible apply State.raise_canon | with_reducible apply State.setCan_canon
                 | with_reducible apply State.canFill_canon | with_reducible apply Canon.ite
                 | with_reducible apply ResOk.ite | split | dsimp only | with_reducible apply Canon.mk
                 | with_reducible apply CanonOf.of)

theorem State.canBstatClear_canon {qs : Base} {s : State} (c : Nat) (hs : s.Ok qs) : (State.canBstatClear s c).Ok qs := by
  unfold State.canBstatClear
  extract_lets +onlyGivenNames -underBinder k b
  try clear_value k
  try clear_value b
  repeat' (first | with_reducible intro _ | with_reducible assumption | with_reducible apply State.setCan_canon
                 | with_reducible apply Canon.ite | split | dsimp only | with_reducible apply Canon.mk
                 | with_reducible apply CanonOf.of)

theorem execCanBstatRead_canon {qs : Base} (ch : Fin 4) {s : State} (hs : s.Ok qs) : ResOk qs (execCanBstatRead ch s) := by
  unfold execCanBstatRead
  repeat' (first | with_reducible intro _ | with_reducible assumption | with_reducible apply ResOk.next
                 | with_reducible apply State.canBstatClear_canon | with_reducible apply Canon.ite
                 | with_reducible apply ResOk.ite | split | dsimp only | with_reducible apply Canon.mk
                 | with_reducible apply CanonOf.of)

theorem State.canAssume_canon {qs : Base} {s : State} (hs : s.Ok qs) : (State.canAssume s).Ok qs := by
  unfold State.canAssume
  repeat' (first | with_reducible intro _ | with_reducible assumption | with_reducible apply State.put_canon
                 | with_reducible apply State.setCan_canon | with_reducible apply State.canFill_canon
                 | with_reducible apply State.each_canon | with_reducible apply Canon.ite | split | dsimp only
                 | with_reducible apply Canon.mk | with_reducible apply CanonOf.of)

theorem State.canRelease_canon {qs : Base} {s : State} (hs : s.Ok qs) : (State.canRelease s).Ok qs := by
  unfold State.canRelease
  repeat' (first | with_reducible intro _ | with_reducible assumption | with_reducible apply State.put_canon
                 | with_reducible apply State.bump_canon | with_reducible apply State.take_canon
                 | with_reducible apply State.raise_canon | with_reducible apply State.setCan_canon
                 | with_reducible apply State.canFill_canon | with_reducible apply State.each_canon
                 | with_reducible apply Canon.foldl | with_reducible apply Canon.foldl1 | with_reducible apply Canon.ite
                 | split | dsimp only | with_reducible apply Canon.mk | with_reducible apply CanonOf.of)

end Sys2Proof.Machine
end

