-- ==== Sys2Proof/Laws/CanonLocal.lean ====
section
/-! SUPPORT. The canonical form is kept by the definitions of Machine/Local.lean. -/
namespace Sys2Proof.Machine

theorem State.setXing_canon {qs : Base} {s : State} (b : Nat) (f : CrossState → CrossState) (hs : s.Ok qs) :
    (State.setXing s b f).Ok qs := by
  unfold State.setXing
  repeat' (first | with_reducible intro _ | with_reducible assumption | with_reducible apply State.lo_canon
                 | with_reducible apply Canon.ite | split | dsimp only | with_reducible apply Canon.mk
                 | with_reducible apply CanonOf.of)

theorem State.setAio_canon {qs : Base} {s : State} (i : Nat) (f : AioState → AioState) (hs : s.Ok qs) :
    (State.setAio s i f).Ok qs := by
  unfold State.setAio
  repeat' (first | with_reducible intro _ | with_reducible assumption | with_reducible apply State.lo_canon
                 | with_reducible apply Canon.ite | split | dsimp only | with_reducible apply Canon.mk
                 | with_reducible apply CanonOf.of)

theorem State.setTrip_canon {qs : Base} {s : State} (i : Nat) (f : TripState → TripState) (hs : s.Ok qs) :
    (State.setTrip s i f).Ok qs := by
  unfold State.setTrip
  repeat' (first | with_reducible intro _ | with_reducible assumption | with_reducible apply State.lo_canon
                 | with_reducible apply Canon.ite | split | dsimp only | with_reducible apply Canon.mk
                 | with_reducible apply CanonOf.of)

theorem State.setModem_canon {qs : Base} {s : State} (m : Nat) (f : ModemState → ModemState) (hs : s.Ok qs) :
    (State.setModem s m f).Ok qs := by
  unfold State.setModem
  repeat' (first | with_reducible intro _ | with_reducible assumption | with_reducible apply State.lo_canon
                 | with_reducible apply Canon.ite | split | dsimp only | with_reducible apply Canon.mk
                 | with_reducible apply CanonOf.of)

theorem State.bitSet_canon {qs : Base} {s : State} (off i : Nat) (b : Bool) (hs : s.Ok qs) :
    (State.bitSet s off i b).Ok qs := by
  unfold State.bitSet
  repeat' (first | with_reducible intro _ | with_reducible assumption | with_reducible apply State.put_canon
                 | with_reducible apply Canon.ite | split | dsimp only | with_reducible apply Canon.mk
                 | with_reducible apply CanonOf.of)

theorem State.calWindow_canon {qs : Base} {s : State} (hs : s.Ok qs) : (State.calWindow s).Ok qs := by
  unfold State.calWindow
  repeat' (first | with_reducible intro _ | with_reducible assumption | with_reducible apply State.wrN_canon
                 | with_reducible apply State.each_canon | with_reducible apply Canon.ite | split | dsimp only
                 | with_reducible apply Canon.mk | with_reducible apply CanonOf.of)

theorem State.calStart_canon {qs : Base} {s : State} (hs : s.Ok qs) : (State.calStart s).Ok qs := by
  unfold State.calStart
  repeat' (first | with_reducible intro _ | with_reducible assumption | with_reducible apply State.put_canon
                 | with_reducible apply State.wrN_canon | with_reducible apply State.raise_canon
                 | with_reducible apply State.lo_canon | with_reducible apply State.calWindow_canon
                 | with_reducible apply Canon.ite | split | dsimp only | with_reducible apply Canon.mk
                 | with_reducible apply CanonOf.of)

theorem State.calBegin_canon {qs : Base} {s : State} (ageing : Bool) (set : Tab Word) (hs : s.Ok qs) :
    (State.calBegin s ageing set).Ok qs := by
  unfold State.calBegin
  repeat' (first | with_reducible intro _ | with_reducible assumption | with_reducible apply State.put_canon
                 | with_reducible apply State.lo_canon | with_reducible apply Canon.ite | split | dsimp only
                 | with_reducible apply Canon.mk | with_reducible apply CanonOf.of)

theorem execCalCommit_canon {qs : Base} {s : State} (hs : s.Ok qs) : ResOk qs (execCalCommit s) := by
  unfold execCalCommit
  repeat' (first | with_reducible intro _ | with_reducible assumption | with_reducible apply ResOk.next
                 | with_reducible apply State.put_canon | with_reducible apply State.raise_canon
                 | with_reducible apply State.calBegin_canon | with_reducible apply Canon.ite
                 | with_reducible apply ResOk.ite | split | dsimp only | with_reducible apply Canon.mk
                 | with_reducible apply CanonOf.of)

theorem State.calAge_canon {qs : Base} {s : State} (ppb : Word) (hs : s.Ok qs) : (State.calAge s ppb).Ok qs := by
  unfold State.calAge
  repeat' (first | with_reducible intro _ | with_reducible assumption | with_reducible apply State.lo_canon
                 | with_reducible apply State.calBegin_canon | with_reducible apply Canon.ite | split | dsimp only
                 | with_reducible apply Canon.mk | with_reducible apply CanonOf.of)

theorem State.calDone_canon {qs : Base} {s : State} (ageing : Bool) (set : Tab Word) (hs : s.Ok qs) :
    (State.calDone s ageing set).Ok qs := by
  unfold State.calDone
  extract_lets +onlyGivenNames -underBinder b q s1 s2 s3
  try clear_value b
  try clear_value q
  have hs1 : s1.Ok qs := by
    unfold s1
    repeat' (first | with_reducible intro _ | with_reducible assumption | with_reducible apply State.lo_canon
                   | with_reducible apply Canon.ite | split | dsimp only | with_reducible apply Canon.mk
                   | with_reducible apply CanonOf.of)
  clear_value s1
  have hs2 : s2.Ok qs := by
    unfold s2
    repeat' (first | with_reducible intro _ | with_reducible assumption | with_reducible apply State.put_canon
                   | with_reducible apply State.wrN_canon | with_reducible apply Canon.ite | split | dsimp only
                   | with_reducible apply Canon.mk | with_reducible apply CanonOf.of)
  clear_value s2
  have hs3 : s3.Ok qs := by
    unfold s3
    repeat' (first | with_reducible intro _ | with_reducible assumption | with_reducible apply State.wr_canon
                   | with_reducible apply State.calWindow_canon | with_reducible apply Canon.ite | split | dsimp only
                   | with_reducible apply Canon.mk | with_reducible apply CanonOf.of)
  clear_value s3
  repeat' (first | with_reducible intro _ | with_reducible assumption | with_reducible apply State.raise_canon
                 | with_reducible apply Canon.ite | split | dsimp only | with_reducible apply Canon.mk
                 | with_reducible apply CanonOf.of)

theorem execCalWriteComplete_canon {qs : Base} {s : State} (hs : s.Ok qs) : ResOk qs (execCalWriteComplete s) := by
  unfold execCalWriteComplete
  with_reducible apply ResOk.next
  repeat' (first | with_reducible intro _ | with_reducible assumption | with_reducible apply State.lo_canon
                 | with_reducible apply State.calBegin_canon | with_reducible apply State.calDone_canon
                 | with_reducible apply Canon.ite | split | dsimp only | with_reducible apply Canon.mk
                 | with_reducible apply CanonOf.of)

theorem State.diRead_canon {qs : Base} {s : State} (i : Nat) (mv : Int) (t : Nat) (hs : s.Ok qs) :
    (State.diRead s i mv t).Ok qs := by
  unfold State.diRead
  extract_lets +onlyGivenNames -underBinder r c d k d1 s1 s2 s3
  try clear_value r
  try clear_value c
  try clear_value d
  try clear_value k
  try clear_value d1
  have hs1 : s1.Ok qs := by
    unfold s1
    repeat' (first | with_reducible intro _ | with_reducible assumption | with_reducible apply State.lo_canon
                   | with_reducible apply Canon.ite | split | dsimp only | with_reducible apply Canon.mk
                   | with_reducible apply CanonOf.of)
  clear_value s1
  have hs2 : s2.Ok qs := by
    unfold s2
    repeat' (first | with_reducible intro _ | with_reducible assumption | with_reducible apply State.bitSet_canon
                   | with_reducible apply Canon.ite | with_reducible apply Canon.ite1 | split | dsimp only
                   | with_reducible apply Canon.mk | with_reducible apply CanonOf.of)
  clear_value s2
  have hs3 : s3.Ok qs := by
    unfold s3
    repeat' (first | with_reducible intro _ | with_reducible assumption | with_reducible apply State.raise_canon
                   | with_reducible apply Canon.ite | split | dsimp only | with_reducible apply Canon.mk
                   | with_reducible apply CanonOf.of)
  clear_value s3
  repeat' (first | with_reducible intro _ | with_reducible assumption | with_reducible apply State.raise_canon
                 | with_reducible apply Canon.ite | split | dsimp only | with_reducible apply Canon.mk
                 | with_reducible apply CanonOf.of)

theorem execDiSample_canon {qs : Base} (mv : List Int) (t : Nat) {s : State} (hs : s.Ok qs) : ResOk qs
    (execDiSample mv t s) := by
  unfold execDiSample
  extract_lets +onlyGivenNames -underBinder s0
  have hs0 : s0.Ok qs := by
    unfold s0
    repeat' (first | with_reducible intro _ | with_reducible assumption | with_reducible apply State.at_canon
                   | with_reducible apply Canon.ite | split | dsimp only | with_reducible apply Canon.mk
                   | with_reducible apply CanonOf.of)
  clear_value s0
  with_reducible apply ResOk.next
  with_reducible apply Canon.ite
  · repeat' (first | with_reducible intro _ | with_reducible assumption | with_reducible apply Canon.ite | split
                   | dsimp only | with_reducible apply Canon.mk | with_reducible apply CanonOf.of)
  extract_lets +onlyGivenNames -underBinder s1
  have hs1 : s1.Ok qs := by
    unfold s1
    repeat' (first | with_reducible intro _ | with_reducible assumption | with_reducible apply State.diRead_canon
                   | with_reducible apply State.each_canon | with_reducible apply Canon.ite | split | dsimp only
                   | with_reducible apply Canon.mk | with_reducible apply CanonOf.of)
  clear_value s1
  repeat' (first | with_reducible intro _ | with_reducible assumption | with_reducible apply State.putB_canon
                 | with_reducible apply State.setXing_canon | with_reducible apply Canon.ite | split | dsimp only
                 | with_reducible apply Canon.mk | with_reducible apply CanonOf.of)

theorem execDiFilterStateChange_canon {qs : Base} (di : Fin 32) {s : State} (hs : s.Ok qs) : ResOk qs
    (execDiFilterStateChange di s) := by
  unfold execDiFilterStateChange
  extract_lets +onlyGivenNames -underBinder d n st
  try clear_value d
  try clear_value n
  try clear_value st
  repeat' (first | with_reducible intro _ | with_reducible assumption | with_reducible apply ResOk.next
                 | with_reducible apply State.lo_canon | with_reducible apply State.bitSet_canon
                 | with_reducible apply Canon.ite | with_reducible apply ResOk.ite | split | dsimp only
                 | with_reducible apply Canon.mk | with_reducible apply CanonOf.of)

theorem State.diClamp_canon {qs : Base} {s : State} (hs : s.Ok qs) : (State.diClamp s).Ok qs := by
  unfold State.diClamp
  repeat' (first | with_reducible intro _ | with_reducible assumption | with_reducible apply State.lo_canon
                 | with_reducible apply Canon.ite | with_reducible apply Canon.ite1 | split | dsimp only
                 | with_reducible apply Canon.mk | with_reducible apply CanonOf.of)

theorem State.doDrive_canon {qs : Base} {s : State} (hs : s.Ok qs) : (State.doDrive s).Ok qs := by
  unfold State.doDrive
  repeat' (first | with_reducible intro _ | with_reducible assumption | with_reducible apply State.put_canon
                 | with_reducible apply State.putB_canon | with_reducible apply Canon.ite | split | dsimp only
                 | with_reducible apply Canon.mk | with_reducible apply CanonOf.of)

theorem State.aoDrive_canon {qs : Base} {s : State} (hs : s.Ok qs) : (State.aoDrive s).Ok qs := by
  unfold State.aoDrive
  repeat' (first | with_reducible intro _ | with_reducible assumption | with_reducible apply State.setAio_canon
                 | with_reducible apply State.each_canon | with_reducible apply Canon.ite | split | dsimp only
                 | with_reducible apply Canon.mk | with_reducible apply CanonOf.of)

theorem State.outputsFollow_canon {qs : Base} {s : State} (hs : s.Ok qs) : (State.outputsFollow s).Ok qs := by
  unfold State.outputsFollow
  repeat' (first | with_reducible intro _ | with_reducible assumption | with_reducible apply State.doDrive_canon
                 | with_reducible apply State.aoDrive_canon | with_reducible apply Canon.ite | split | dsimp only
                 | with_reducible apply Canon.mk | with_reducible apply CanonOf.of)

theorem State.tripLatch_canon {qs : Base} {s : State} (n : Nat) (t : Nat) (hs : s.Ok qs) : (State.tripLatch s n t).Ok qs := by
  unfold State.tripLatch
  with_reducible apply Canon.ite
  · repeat' (first | with_reducible intro _ | with_reducible assumption | with_reducible apply Canon.ite | split
                   | dsimp only | with_reducible apply Canon.mk | with_reducible apply CanonOf.of)
  extract_lets +onlyGivenNames -underBinder s1
  have hs1 : s1.Ok qs := by
    unfold s1
    repeat' (first | with_reducible intro _ | with_reducible assumption | with_reducible apply State.put_canon
                   | with_reducible apply State.setTrip_canon | with_reducible apply State.bitSet_canon
                   | with_reducible apply Canon.ite | split | dsimp only | with_reducible apply Canon.mk
                   | with_reducible apply CanonOf.of)
  clear_value s1
  repeat' (first | with_reducible intro _ | with_reducible assumption | with_reducible apply State.raise_canon
                 | with_reducible apply State.outputsFollow_canon | with_reducible apply Canon.ite | split | dsimp only
                 | with_reducible apply Canon.mk | with_reducible apply CanonOf.of)

theorem execTripInputChange_canon {qs : Base} (trip : Fin 4) (active : Bool) (t : Nat) {s : State}
    (hs : s.Ok qs) : ResOk qs (execTripInputChange trip active t s) := by
  unfold execTripInputChange
  extract_lets +onlyGivenNames -underBinder n s0
  try clear_value n
  have hs0 : s0.Ok qs := by
    unfold s0
    repeat' (first | with_reducible intro _ | with_reducible assumption | with_reducible apply State.at_canon
                   | with_reducible apply Canon.ite | split | dsimp only | with_reducible apply Canon.mk
                   | with_reducible apply CanonOf.of)
  clear_value s0
  with_reducible apply ResOk.next
  with_reducible apply Canon.ite
  · repeat' (first | with_reducible intro _ | with_reducible assumption | with_reducible apply Canon.ite | split
                   | dsimp only | with_reducible apply Canon.mk | with_reducible apply CanonOf.of)
  extract_lets +onlyGivenNames -underBinder s1
  have hs1 : s1.Ok qs := by
    unfold s1
    repeat' (first | with_reducible intro _ | with_reducible assumption | with_reducible apply State.bitSet_canon
                   | with_reducible apply Canon.ite | split | dsimp only | with_reducible apply Canon.mk
                   | with_reducible apply CanonOf.of)
  clear_value s1
  repeat' (first | with_reducible intro _ | with_reducible assumption | with_reducible apply State.setTrip_canon
                 | with_reducible apply State.tripLatch_canon | with_reducible apply Canon.ite | split | dsimp only
                 | with_reducible apply Canon.mk | with_reducible apply CanonOf.of)

theorem State.tripPend_canon {qs : Base} {s : State} (mask at_ : Nat) (hs : s.Ok qs) : (State.tripPend s mask at_).Ok qs := by
  unfold State.tripPend
  repeat' (first | with_reducible intro _ | with_reducible assumption | with_reducible apply State.setTrip_canon
                 | with_reducible apply State.bitSet_canon | with_reducible apply State.each_canon
                 | with_reducible apply Canon.ite | split | dsimp only | with_reducible apply Canon.mk
                 | with_reducible apply CanonOf.of)

theorem State.tripClr_canon {qs : Base} {s : State} (mask : Nat) (hs : s.Ok qs) : (State.tripClr s mask).Ok qs := by
  unfold State.tripClr
  repeat' (first | with_reducible intro _ | with_reducible assumption | with_reducible apply State.send_canon
                 | with_reducible apply State.tripPend_canon | with_reducible apply Canon.ite | split | dsimp only
                 | with_reducible apply Canon.mk | with_reducible apply CanonOf.of)

theorem execDioTripClr_canon {qs : Base} (mask : Fin 16) (t : Nat) {s : State} (hs : s.Ok qs) : ResOk qs
    (execDioTripClr mask t s) := by
  unfold execDioTripClr
  repeat' (first | with_reducible intro _ | with_reducible assumption | with_reducible apply ResOk.next
                 | with_reducible apply State.at_canon | with_reducible apply State.tripClr_canon
                 | with_reducible apply Canon.ite | with_reducible apply ResOk.ite | split | dsimp only
                 | with_reducible apply Canon.mk | with_reducible apply CanonOf.of)

theorem execTripClearRx_canon {qs : Base} (mask : Fin 16) (at_ : Nat) {s : State} (hs : s.Ok qs) : ResOk qs
    (execTripClearRx mask at_ s) := by
  unfold execTripClearRx
  repeat' (first | with_reducible intro _ | with_reducible assumption | with_reducible apply ResOk.next
                 | with_reducible apply State.tripPend_canon | with_reducible apply Canon.ite
                 | with_reducible apply ResOk.ite | split | dsimp only | with_reducible apply Canon.mk
                 | with_reducible apply CanonOf.of)

theorem State.tripAt_canon {qs : Base} {s : State} (n b : Nat) (hs : s.Ok qs) : (State.tripAt s n b).Ok qs := by
  unfold State.tripAt
  extract_lets +onlyGivenNames -underBinder s1 ok
  have hs1 : s1.Ok qs := by
    unfold s1
    repeat' (first | with_reducible intro _ | with_reducible assumption | with_reducible apply State.setTrip_canon
                   | with_reducible apply State.bitSet_canon | with_reducible apply Canon.ite | split | dsimp only
                   | with_reducible apply Canon.mk | with_reducible apply CanonOf.of)
  clear_value s1
  try clear_value ok
  repeat' (first | with_reducible intro _ | with_reducible assumption | with_reducible apply State.put_canon
                 | with_reducible apply State.putB_canon | with_reducible apply State.raise_canon
                 | with_reducible apply State.bitSet_canon | with_reducible apply Canon.ite | split | dsimp only
                 | with_reducible apply Canon.mk | with_reducible apply CanonOf.of)

theorem State.tripBoundary_canon {qs : Base} {s : State} (b : Nat) (hs : s.Ok qs) : (State.tripBoundary s b).Ok qs := by
  unfold State.tripBoundary
  repeat' (first | with_reducible intro _ | with_reducible assumption | with_reducible apply State.tripAt_canon
                 | with_reducible apply State.each_canon | with_reducible apply Canon.ite | split | dsimp only
                 | with_reducible apply Canon.mk | with_reducible apply CanonOf.of)

theorem State.tripStart_canon {qs : Base} {s : State} (inputs : Nat) (t : Nat) (hs : s.Ok qs) :
    (State.tripStart s inputs t).Ok qs := by
  unfold State.tripStart
  repeat' (first | with_reducible intro _ | with_reducible assumption | with_reducible apply State.setTrip_canon
                 | with_reducible apply State.bitSet_canon | with_reducible apply State.tripLatch_canon
                 | with_reducible apply State.each_canon | with_reducible apply Canon.ite | split | dsimp only
                 | with_reducible apply Canon.mk | with_reducible apply CanonOf.of)

theorem execDoGroupFaultChange_canon {qs : Base} (group : Fin 2) (fault : Bool) {s : State} (hs : s.Ok qs) : ResOk qs
    (execDoGroupFaultChange group fault s) := by
  unfold execDoGroupFaultChange
  extract_lets +onlyGivenNames -underBinder g was
  try clear_value g
  try clear_value was
  repeat' (first | with_reducible intro _ | with_reducible assumption | with_reducible apply ResOk.next
                 | with_reducible apply State.put_canon | with_reducible apply State.raise_canon
                 | with_reducible apply State.bitSet_canon | with_reducible apply Canon.ite
                 | with_reducible apply ResOk.ite | split | dsimp only | with_reducible apply Canon.mk
                 | with_reducible apply CanonOf.of)

theorem State.xingBad_canon {qs : Base} {s : State} (b : Nat) (hs : s.Ok qs) : (State.xingBad s b).Ok qs := by
  unfold State.xingBad
  repeat' (first | with_reducible intro _ | with_reducible assumption | with_reducible apply State.bump_canon
                 | with_reducible apply Canon.ite | split | dsimp only | with_reducible apply Canon.mk
                 | with_reducible apply CanonOf.of)

theorem State.aoImage_canon {qs : Base} {s : State} (hs : s.Ok qs) : (State.aoImage s).Ok qs := by
  unfold State.aoImage
  repeat' (first | with_reducible intro _ | with_reducible assumption | with_reducible apply State.put_canon
                 | with_reducible apply State.wrN_canon | with_reducible apply State.raise_canon
                 | with_reducible apply State.setAio_canon | with_reducible apply State.each_canon
                 | with_reducible apply Canon.ite | split | dsimp only | with_reducible apply Canon.mk
                 | with_reducible apply CanonOf.of)

theorem execCrossingFrameTx_canon {qs : Base} (block : Fin 3) (t : Nat) {s : State} (hs : s.Ok qs) : ResOk qs
    (execCrossingFrameTx block t s) := by
  unfold execCrossingFrameTx
  extract_lets +onlyGivenNames -underBinder b s0
  try clear_value b
  have hs0 : s0.Ok qs := by
    unfold s0
    repeat' (first | with_reducible intro _ | with_reducible assumption | with_reducible apply State.at_canon
                   | with_reducible apply Canon.ite | split | dsimp only | with_reducible apply Canon.mk
                   | with_reducible apply CanonOf.of)
  clear_value s0
  with_reducible apply ResOk.next
  with_reducible apply Canon.ite
  · repeat' (first | with_reducible intro _ | with_reducible assumption | with_reducible apply Canon.ite | split
                   | dsimp only | with_reducible apply Canon.mk | with_reducible apply CanonOf.of)
  extract_lets +onlyGivenNames -underBinder s1 q
  have hs1 : s1.Ok qs := by
    unfold s1
    repeat' (first | with_reducible intro _ | with_reducible assumption | with_reducible apply State.doDrive_canon
                   | with_reducible apply State.aoDrive_canon | with_reducible apply State.aoImage_canon
                   | with_reducible apply Canon.ite | split | dsimp only | with_reducible apply Canon.mk
                   | with_reducible apply CanonOf.of)
  clear_value s1
  try clear_value q
  repeat' (first | with_reducible intro _ | with_reducible assumption | with_reducible apply State.send_canon
                 | with_reducible apply State.setXing_canon | with_reducible apply Canon.ite | split | dsimp only
                 | with_reducible apply Canon.mk | with_reducible apply CanonOf.of)

theorem State.xingUp_canon {qs : Base} {s : State} (b seq : Nat) (hs : s.Ok qs) : (State.xingUp s b seq).Ok qs := by
  unfold State.xingUp
  extract_lets +onlyGivenNames -underBinder x s1 s2
  try clear_value x
  have hs1 : s1.Ok qs := by
    unfold s1
    repeat' (first | with_reducible intro _ | with_reducible assumption | with_reducible apply State.setXing_canon
                   | with_reducible apply State.xingBad_canon | with_reducible apply Canon.ite | split | dsimp only
                   | with_reducible apply Canon.mk | with_reducible apply CanonOf.of)
  clear_value s1
  have hs2 : s2.Ok qs := by
    unfold s2
    repeat' (first | with_reducible intro _ | with_reducible assumption | with_reducible apply State.bitSet_canon
                   | with_reducible apply Canon.ite | split | dsimp only | with_reducible apply Canon.mk
                   | with_reducible apply CanonOf.of)
  clear_value s2
  repeat' (first | with_reducible intro _ | with_reducible assumption | with_reducible apply State.raise_canon
                 | with_reducible apply Canon.ite | split | dsimp only | with_reducible apply Canon.mk
                 | with_reducible apply CanonOf.of)

theorem State.xingDown_canon {qs : Base} {s : State} (b seq : Nat) (hs : s.Ok qs) : (State.xingDown s b seq).Ok qs := by
  unfold State.xingDown
  extract_lets +onlyGivenNames -underBinder x s1
  try clear_value x
  have hs1 : s1.Ok qs := by
    unfold s1
    repeat' (first | with_reducible intro _ | with_reducible assumption | with_reducible apply State.setXing_canon
                   | with_reducible apply State.xingBad_canon | with_reducible apply Canon.ite | split | dsimp only
                   | with_reducible apply Canon.mk | with_reducible apply CanonOf.of)
  clear_value s1
  repeat' (first | with_reducible intro _ | with_reducible assumption | with_reducible apply State.raise_canon
                 | with_reducible apply State.setXing_canon | with_reducible apply State.outputsFollow_canon
                 | with_reducible apply Canon.ite | split | dsimp only | with_reducible apply Canon.mk
                 | with_reducible apply CanonOf.of)

theorem execCrossingFrameRx_canon {qs : Base} (block : Fin 3) (up : Bool) (bytes : List Byte) (t : Nat) {s : State}
    (hs : s.Ok qs) : ResOk qs (execCrossingFrameRx block up bytes t s) := by
  unfold execCrossingFrameRx
  extract_lets +onlyGivenNames -underBinder b s0
  try clear_value b
  have hs0 : s0.Ok qs := by
    unfold s0
    repeat' (first | with_reducible intro _ | with_reducible assumption | with_reducible apply State.at_canon
                   | with_reducible apply Canon.ite | split | dsimp only | with_reducible apply Canon.mk
                   | with_reducible apply CanonOf.of)
  clear_value s0
  repeat' (first | with_reducible intro _ | with_reducible assumption | with_reducible apply ResOk.next
                 | with_reducible apply State.setXing_canon | with_reducible apply State.xingBad_canon
                 | with_reducible apply State.xingUp_canon | with_reducible apply State.xingDown_canon
                 | with_reducible apply Canon.ite | with_reducible apply ResOk.ite | split | dsimp only
                 | with_reducible apply Canon.mk | with_reducible apply CanonOf.of)

theorem State.xingTimeout_canon {qs : Base} {s : State} (b : Nat) (up : Bool) (hs : s.Ok qs) :
    (State.xingTimeout s b up).Ok qs := by
  unfold State.xingTimeout
  extract_lets +onlyGivenNames -underBinder s1 s2 s3 s4
  have hs1 : s1.Ok qs := by
    unfold s1
    repeat' (first | with_reducible intro _ | with_reducible assumption | with_reducible apply State.bump_canon
                   | with_reducible apply State.raise_canon | with_reducible apply Canon.ite | split | dsimp only
                   | with_reducible apply Canon.mk | with_reducible apply CanonOf.of)
  clear_value s1
  have hs2 : s2.Ok qs := by
    unfold s2
    repeat' (first | with_reducible intro _ | with_reducible assumption | with_reducible apply State.setXing_canon
                   | with_reducible apply State.bitSet_canon | with_reducible apply State.outputsFollow_canon
                   | with_reducible apply Canon.ite | split | dsimp only | with_reducible apply Canon.mk
                   | with_reducible apply CanonOf.of)
  clear_value s2
  have hs3 : s3.Ok qs := by
    unfold s3
    repeat' (first | with_reducible intro _ | with_reducible assumption | with_reducible apply State.lo_canon
                   | with_reducible apply Canon.ite | with_reducible apply Canon.ite1 | split | dsimp only
                   | with_reducible apply Canon.mk | with_reducible apply CanonOf.of)
  clear_value s3
  have hs4 : s4.Ok qs := by
    unfold s4
    repeat' (first | with_reducible intro _ | with_reducible assumption | with_reducible apply State.lo_canon
                   | with_reducible apply Canon.ite | with_reducible apply Canon.ite1 | split | dsimp only
                   | with_reducible apply Canon.mk | with_reducible apply CanonOf.of)
  clear_value s4
  repeat' (first | with_reducible intro _ | with_reducible assumption | with_reducible apply State.restart_canon
                 | with_reducible apply Canon.ite | split | dsimp only | with_reducible apply Canon.mk
                 | with_reducible apply CanonOf.of)

theorem execCrossingTimeout_canon {qs : Base} (block : Fin 3) (up : Bool) (t : Nat) {s : State} (hs : s.Ok qs) : ResOk qs
    (execCrossingTimeout block up t s) := by
  unfold execCrossingTimeout
  extract_lets +onlyGivenNames -underBinder s0 x
  have hs0 : s0.Ok qs := by
    unfold s0
    repeat' (first | with_reducible intro _ | with_reducible assumption | with_reducible apply State.at_canon
                   | with_reducible apply Canon.ite | split | dsimp only | with_reducible apply Canon.mk
                   | with_reducible apply CanonOf.of)
  clear_value s0
  try clear_value x
  repeat' (first | with_reducible intro _ | with_reducible assumption | with_reducible apply ResOk.next
                 | with_reducible apply State.xingTimeout_canon | with_reducible apply Canon.ite
                 | with_reducible apply ResOk.ite | split | dsimp only | with_reducible apply Canon.mk
                 | with_reducible apply CanonOf.of)

theorem State.xingStart_canon {qs : Base} {s : State} (hs : s.Ok qs) : (State.xingStart s).Ok qs := by
  unfold State.xingStart
  repeat' (first | with_reducible intro _ | with_reducible assumption | with_reducible apply State.setXing_canon
                 | with_reducible apply State.each_canon | with_reducible apply Canon.ite | split | dsimp only
                 | with_reducible apply Canon.mk | with_reducible apply CanonOf.of)

theorem execAnalogueConversion_canon {qs : Base} (chan : Fin 8) (ma : Word) (t : Nat) {s : State}
    (hs : s.Ok qs) : ResOk qs (execAnalogueConversion chan ma t s) := by
  unfold execAnalogueConversion
  extract_lets +onlyGivenNames -underBinder n s0
  try clear_value n
  have hs0 : s0.Ok qs := by
    unfold s0
    repeat' (first | with_reducible intro _ | with_reducible assumption | with_reducible apply State.at_canon
                   | with_reducible apply Canon.ite | split | dsimp only | with_reducible apply Canon.mk
                   | with_reducible apply CanonOf.of)
  clear_value s0
  repeat' (first | with_reducible intro _ | with_reducible assumption | with_reducible apply ResOk.next
                 | with_reducible apply State.setXing_canon | with_reducible apply State.setAio_canon
                 | with_reducible apply Canon.ite | with_reducible apply ResOk.ite | split | dsimp only
                 | with_reducible apply Canon.mk | with_reducible apply CanonOf.of)

theorem State.aioPeriod_canon {qs : Base} {s : State} (n : Nat) (hs : s.Ok qs) : (State.aioPeriod s n).Ok qs := by
  unfold State.aioPeriod
  repeat' (first | with_reducible intro _ | with_reducible assumption | with_reducible apply State.putB_canon
                 | with_reducible apply State.wrN_canon | with_reducible apply State.setAio_canon
                 | with_reducible apply State.each_canon | with_reducible apply Canon.ite | split | dsimp only
                 | with_reducible apply Canon.mk | with_reducible apply CanonOf.of)

theorem State.aoSource_canon {qs : Base} {s : State} (hs : s.Ok qs) : (State.aoSource s).Ok qs := by
  unfold State.aoSource
  repeat' (first | with_reducible intro _ | with_reducible assumption | with_reducible apply State.setAio_canon
                 | with_reducible apply State.each_canon | with_reducible apply Canon.ite | split | dsimp only
                 | with_reducible apply Canon.mk | with_reducible apply CanonOf.of)

theorem State.outputsBoundary_canon {qs : Base} {s : State} (hs : s.Ok qs) : (State.outputsBoundary s).Ok qs := by
  unfold State.outputsBoundary
  extract_lets +onlyGivenNames -underBinder w
  repeat' (first | with_reducible intro _ | with_reducible assumption | with_reducible apply State.put_canon
                 | with_reducible apply State.putB_canon | with_reducible apply State.lo_canon
                 | with_reducible apply State.aoSource_canon | with_reducible apply Canon.ite | split | dsimp only
                 | with_reducible apply Canon.mk | with_reducible apply CanonOf.of)

theorem execAnalogueOutFault_canon {qs : Base} (chan : Fin 8) (fault : Bool) {s : State} (hs : s.Ok qs) : ResOk qs
    (execAnalogueOutFault chan fault s) := by
  unfold execAnalogueOutFault
  extract_lets +onlyGivenNames -underBinder s1
  have hs1 : s1.Ok qs := by
    unfold s1
    repeat' (first | with_reducible intro _ | with_reducible assumption | with_reducible apply State.putB_canon
                   | with_reducible apply Canon.ite | split | dsimp only | with_reducible apply Canon.mk
                   | with_reducible apply CanonOf.of)
  clear_value s1
  repeat' (first | with_reducible intro _ | with_reducible assumption | with_reducible apply ResOk.next
                 | with_reducible apply State.raise_canon | with_reducible apply Canon.ite
                 | with_reducible apply ResOk.ite | split | dsimp only | with_reducible apply Canon.mk
                 | with_reducible apply CanonOf.of)

theorem execAnalogueMiswire_canon {qs : Base} (chan : Fin 8) (cond : Fin 3) {s : State} (hs : s.Ok qs) : ResOk qs
    (execAnalogueMiswire chan cond s) := by
  unfold execAnalogueMiswire
  extract_lets +onlyGivenNames -underBinder c s1
  try clear_value c
  have hs1 : s1.Ok qs := by
    unfold s1
    repeat' (first | with_reducible intro _ | with_reducible assumption | with_reducible apply State.setAio_canon
                   | with_reducible apply Canon.ite | split | dsimp only | with_reducible apply Canon.mk
                   | with_reducible apply CanonOf.of)
  clear_value s1
  repeat' (first | with_reducible intro _ | with_reducible assumption | with_reducible apply ResOk.next
                 | with_reducible apply State.put_canon | with_reducible apply State.raise_canon
                 | with_reducible apply Canon.ite | with_reducible apply ResOk.ite | split | dsimp only
                 | with_reducible apply Canon.mk | with_reducible apply CanonOf.of)

theorem execLoopSupplyLimit_canon {qs : Base} (chan : Fin 8) (limit : Bool) {s : State} (hs : s.Ok qs) : ResOk qs
    (execLoopSupplyLimit chan limit s) := by
  unfold execLoopSupplyLimit
  extract_lets +onlyGivenNames -underBinder c s1
  try clear_value c
  have hs1 : s1.Ok qs := by
    unfold s1
    repeat' (first | with_reducible intro _ | with_reducible assumption | with_reducible apply State.putB_canon
                   | with_reducible apply Canon.ite | split | dsimp only | with_reducible apply Canon.mk
                   | with_reducible apply CanonOf.of)
  clear_value s1
  repeat' (first | with_reducible intro _ | with_reducible assumption | with_reducible apply ResOk.next
                 | with_reducible apply State.raise_canon | with_reducible apply Canon.ite
                 | with_reducible apply ResOk.ite | split | dsimp only | with_reducible apply Canon.mk
                 | with_reducible apply CanonOf.of)

theorem State.hartSend_canon {qs : Base} {s : State} (m c d fails : Nat) (hs : s.Ok qs) :
    (State.hartSend s m c d fails).Ok qs := by
  unfold State.hartSend
  repeat' (first | with_reducible intro _ | with_reducible assumption | with_reducible apply State.put_canon
                 | with_reducible apply State.send_canon | with_reducible apply State.setModem_canon
                 | with_reducible apply Canon.ite | split | dsimp only | with_reducible apply Canon.mk
                 | with_reducible apply CanonOf.of)

theorem State.hartStep_canon {qs : Base} {s : State} (m : Nat) (hs : s.Ok qs) : (State.hartStep s m).Ok qs := by
  unfold State.hartStep
  repeat' (first | with_reducible intro _ | with_reducible assumption | with_reducible apply State.put_canon
                 | with_reducible apply State.send_canon | with_reducible apply State.setModem_canon
                 | with_reducible apply Canon.ite | split | dsimp only | with_reducible apply Canon.mk
                 | with_reducible apply CanonOf.of)

theorem execHartPoll_canon {qs : Base} (modem : Fin 2) (t : Nat) {s : State} (hs : s.Ok qs) : ResOk qs
    (execHartPoll modem t s) := by
  unfold execHartPoll
  extract_lets +onlyGivenNames -underBinder m s0 k
  try clear_value m
  have hs0 : s0.Ok qs := by
    unfold s0
    repeat' (first | with_reducible intro _ | with_reducible assumption | with_reducible apply State.at_canon
                   | with_reducible apply Canon.ite | split | dsimp only | with_reducible apply Canon.mk
                   | with_reducible apply CanonOf.of)
  clear_value s0
  try clear_value k
  with_reducible apply ResOk.next
  with_reducible apply Canon.ite
  · repeat' (first | with_reducible intro _ | with_reducible assumption | with_reducible apply Canon.ite | split
                   | dsimp only | with_reducible apply Canon.mk | with_reducible apply CanonOf.of)
  repeat' (first | with_reducible intro _ | with_reducible assumption | with_reducible apply State.setModem_canon
                 | with_reducible apply State.hartSend_canon | with_reducible apply State.hartStep_canon
                 | with_reducible apply Canon.ite | split | dsimp only | with_reducible apply Canon.mk
                 | with_reducible apply CanonOf.of)

theorem State.hartSweepShow_canon {qs : Base} {s : State} (m : Nat) (hs : s.Ok qs) : (State.hartSweepShow s m).Ok qs := by
  unfold State.hartSweepShow
  repeat' (first | with_reducible intro _ | with_reducible assumption | with_reducible apply State.putB_canon
                 | with_reducible apply Canon.ite | split | dsimp only | with_reducible apply Canon.mk
                 | with_reducible apply CanonOf.of)

theorem State.hartShow_canon {qs : Base} {s : State} (d : Nat) (b : Bool) (hs : s.Ok qs) : (State.hartShow s d b).Ok qs := by
  unfold State.hartShow
  repeat' (first | with_reducible intro _ | with_reducible assumption | with_reducible apply State.bitSet_canon
                 | with_reducible apply State.each_canon | with_reducible apply Canon.ite | split | dsimp only
                 | with_reducible apply Canon.mk | with_reducible apply CanonOf.of)

theorem execHartReplyRx_canon {qs : Base} (modem : Fin 2) (vars : List Word) (ovr : Bool) {s : State}
    (hs : s.Ok qs) : ResOk qs (execHartReplyRx modem vars ovr s) := by
  unfold execHartReplyRx
  extract_lets +onlyGivenNames -underBinder m k
  try clear_value m
  try clear_value k
  with_reducible apply ResOk.next
  repeat' (first | with_reducible intro _ | with_reducible assumption | with_reducible apply State.raise_canon
                 | with_reducible apply State.lo_canon | with_reducible apply State.setModem_canon
                 | with_reducible apply State.hartSweepShow_canon | with_reducible apply State.hartShow_canon
                 | with_reducible apply Canon.ite | with_reducible apply Canon.ite1 | split | dsimp only
                 | with_reducible apply Canon.mk | with_reducible apply CanonOf.of)

theorem State.hartAbsent_canon {qs : Base} {s : State} (m d : Nat) (hs : s.Ok qs) : (State.hartAbsent s m d).Ok qs := by
  unfold State.hartAbsent
  extract_lets +onlyGivenNames -underBinder pts
  try clear_value pts
  repeat' (first | with_reducible intro _ | with_reducible assumption | with_reducible apply State.raise_canon
                 | with_reducible apply State.lo_canon | with_reducible apply State.setModem_canon
                 | with_reducible apply State.hartShow_canon | with_reducible apply Canon.ite
                 | with_reducible apply Canon.ite1 | split | dsimp only | with_reducible apply Canon.mk
                 | with_reducible apply CanonOf.of)

theorem execHartReplyTimeout_canon {qs : Base} (modem : Fin 2) (t : Nat) {s : State} (hs : s.Ok qs) : ResOk qs
    (execHartReplyTimeout modem t s) := by
  unfold execHartReplyTimeout
  extract_lets +onlyGivenNames -underBinder m s0 k
  try clear_value m
  have hs0 : s0.Ok qs := by
    unfold s0
    repeat' (first | with_reducible intro _ | with_reducible assumption | with_reducible apply State.at_canon
                   | with_reducible apply Canon.ite | split | dsimp only | with_reducible apply Canon.mk
                   | with_reducible apply CanonOf.of)
  clear_value s0
  try clear_value k
  repeat' (first | with_reducible intro _ | with_reducible assumption | with_reducible apply ResOk.next
                 | with_reducible apply State.bump_canon | with_reducible apply State.setModem_canon
                 | with_reducible apply State.hartSend_canon | with_reducible apply State.hartSweepShow_canon
                 | with_reducible apply State.hartAbsent_canon | with_reducible apply Canon.ite
                 | with_reducible apply ResOk.ite | split | dsimp only | with_reducible apply Canon.mk
                 | with_reducible apply CanonOf.of)

theorem State.hartSearch_canon {qs : Base} {s : State} (m : Nat) (hs : s.Ok qs) : (State.hartSearch s m).Ok qs := by
  unfold State.hartSearch
  repeat' (first | with_reducible intro _ | with_reducible assumption | with_reducible apply State.setModem_canon
                 | with_reducible apply State.hartSweepShow_canon | with_reducible apply Canon.ite | split | dsimp only
                 | with_reducible apply Canon.mk | with_reducible apply CanonOf.of)

theorem execHartSweep_canon {qs : Base} (modem : Fin 2) (t : Nat) {s : State} (hs : s.Ok qs) : ResOk qs
    (execHartSweep modem t s) := by
  unfold execHartSweep
  extract_lets +onlyGivenNames -underBinder m s0 due
  try clear_value m
  have hs0 : s0.Ok qs := by
    unfold s0
    repeat' (first | with_reducible intro _ | with_reducible assumption | with_reducible apply State.at_canon
                   | with_reducible apply Canon.ite | split | dsimp only | with_reducible apply Canon.mk
                   | with_reducible apply CanonOf.of)
  clear_value s0
  try clear_value due
  repeat' (first | with_reducible intro _ | with_reducible assumption | with_reducible apply ResOk.next
                 | with_reducible apply State.setModem_canon | with_reducible apply State.hartSearch_canon
                 | with_reducible apply Canon.ite | with_reducible apply ResOk.ite | split | dsimp only
                 | with_reducible apply Canon.mk | with_reducible apply CanonOf.of)

theorem State.hartClaim_canon {qs : Base} {s : State} (m : Nat) (hs : s.Ok qs) : (State.hartClaim s m).Ok qs := by
  unfold State.hartClaim
  repeat' (first | with_reducible intro _ | with_reducible assumption | with_reducible apply State.put_canon
                 | with_reducible apply State.raise_canon | with_reducible apply State.hartSearch_canon
                 | with_reducible apply Canon.ite | split | dsimp only | with_reducible apply Canon.mk
                 | with_reducible apply CanonOf.of)

theorem execHartSearch_canon {qs : Base} (modem : Fin 2) {s : State} (hs : s.Ok qs) : ResOk qs (execHartSearch modem s) := by
  unfold execHartSearch
  repeat' (first | with_reducible intro _ | with_reducible assumption | with_reducible apply ResOk.next
                 | with_reducible apply State.hartClaim_canon | with_reducible apply Canon.ite
                 | with_reducible apply ResOk.ite | split | dsimp only | with_reducible apply Canon.mk
                 | with_reducible apply CanonOf.of)

theorem State.localSend_canon {qs : Base} {s : State} (n : Nat) (hs : s.Ok qs) : (State.localSend s n).Ok qs := by
  unfold State.localSend
  repeat' (first | with_reducible intro _ | with_reducible assumption | with_reducible apply State.send_canon
                 | with_reducible apply State.each_canon | with_reducible apply Canon.ite | split | dsimp only
                 | with_reducible apply Canon.mk | with_reducible apply CanonOf.of)

theorem State.localStale_canon {qs : Base} {s : State} (p : LocalPt) (hs : s.Ok qs) : (State.localStale s p).Ok qs := by
  unfold State.localStale
  extract_lets +onlyGivenNames -underBinder o
  try clear_value o
  repeat' (first | with_reducible intro _ | with_reducible assumption | with_reducible apply State.deliver_canon
                 | with_reducible apply Canon.ite | split | dsimp only | with_reducible apply Canon.mk
                 | with_reducible apply CanonOf.of)

theorem State.localResolve_canon {qs : Base} {s : State} (p : LocalPt) (n : Nat) (hs : s.Ok qs) :
    (State.localResolve s p n).1.Ok qs := by
  unfold State.localResolve
  extract_lets +onlyGivenNames -underBinder ex alone given
  try clear_value ex
  try clear_value alone
  try clear_value given
  repeat' (first | with_reducible intro _ | with_reducible assumption | with_reducible apply State.raise_canon
                 | with_reducible apply State.deliver_canon | with_reducible apply State.localStale_canon
                 | with_reducible apply Canon.ite | with_reducible apply Canon.ite1 | split | dsimp only
                 | with_reducible apply Canon.mk | with_reducible apply CanonOf.of)

theorem State.localClose_canon {qs : Base} {s : State} (n : Nat) (hs : s.Ok qs) : (State.localClose s n).1.Ok qs := by
  unfold State.localClose
  extract_lets +onlyGivenNames -underBinder s1 l r rest c7
  have hs1 : s1.Ok qs := by
    unfold s1
    repeat' (first | with_reducible intro _ | with_reducible assumption | with_reducible apply State.aioPeriod_canon
                   | with_reducible apply Canon.ite | split | dsimp only | with_reducible apply Canon.mk
                   | with_reducible apply CanonOf.of)
  clear_value s1
  try clear_value l
  have hr : r.1.Ok qs := by
    unfold r
    repeat' (first | with_reducible intro _ | with_reducible assumption | with_reducible apply State.localResolve_canon
                   | with_reducible apply Canon.foldl | with_reducible apply Canon.foldl1
                   | with_reducible apply Canon.ite | with_reducible apply Canon.ite1 | split | dsimp only
                   | with_reducible apply Canon.mk | with_reducible apply CanonOf.of)
  clear_value r
  try clear_value rest
  try clear_value c7
  repeat' (first | with_reducible intro _ | with_reducible assumption | with_reducible apply State.lo_canon
                 | with_reducible apply State.deliver_canon | with_reducible apply State.each_canon
                 | with_reducible apply Canon.ite | with_reducible apply Canon.ite1 | split | dsimp only
                 | with_reducible apply Canon.mk | with_reducible apply CanonOf.of)

end Sys2Proof.Machine
end

