-- ==== Sys2Proof/Laws/CanonLoopOp.lean ====
section
/-! SUPPORT. The canonical form is kept by the definitions of Machine/LoopOp.lean. -/
namespace Sys2Proof.Machine

theorem State.slotRelease_canon {qs : Base} {s : State} (n slot : Nat) (hs : s.Ok qs) :
    (State.slotRelease s n slot).Ok qs := by
  unfold State.slotRelease
  extract_lets +onlyGivenNames -underBinder rd ports str bad
  try clear_value rd
  try clear_value ports
  try clear_value str
  try clear_value bad
  repeat' (first | with_reducible intro _ | with_reducible assumption | with_reducible apply State.sl_canon
                 | with_reducible apply Canon.ite | split | dsimp only | with_reducible apply Canon.mk
                 | with_reducible apply CanonOf.of)

theorem State.sampleCopy_canon {qs : Base} {s : State} (n : Nat) (hs : s.Ok qs) : (State.sampleCopy s n).Ok qs := by
  unfold State.sampleCopy
  repeat' (first | with_reducible intro _ | with_reducible assumption | with_reducible apply State.slotRelease_canon
                 | with_reducible apply State.each_canon | with_reducible apply Canon.ite | split | dsimp only
                 | with_reducible apply Canon.mk | with_reducible apply CanonOf.of)

theorem State.portOut_canon {qs : Base} {s : State} (slot n v q : Nat) (hs : s.Ok qs) :
    (State.portOut s slot n v q).Ok qs := by
  unfold State.portOut
  extract_lets +onlyGivenNames -underBinder w
  try clear_value w
  repeat' (first | with_reducible intro _ | with_reducible assumption | with_reducible apply State.deliver_canon
                 | with_reducible apply Canon.ite | split | dsimp only | with_reducible apply Canon.mk
                 | with_reducible apply CanonOf.of)

theorem State.statOut_canon {qs : Base} {s : State} (slot : Nat) (hs : s.Ok qs) : (State.statOut s slot).Ok qs := by
  unfold State.statOut
  repeat' (first | with_reducible intro _ | with_reducible assumption | with_reducible apply State.portOut_canon
                 | with_reducible apply Canon.ite | split | dsimp only | with_reducible apply Canon.mk
                 | with_reducible apply CanonOf.of)

theorem State.holdOutputs_canon {qs : Base} {s : State} (slot : Nat) (hs : s.Ok qs) : (State.holdOutputs s slot).Ok qs := by
  unfold State.holdOutputs
  repeat' (first | with_reducible intro _ | with_reducible assumption | with_reducible apply State.portOut_canon
                 | with_reducible apply State.statOut_canon | with_reducible apply State.each_canon
                 | with_reducible apply Canon.ite | split | dsimp only | with_reducible apply Canon.mk
                 | with_reducible apply CanonOf.of)

theorem State.countSample_canon {qs : Base} {s : State} (slot : Nat) (hs : s.Ok qs) : (State.countSample s slot).Ok qs := by
  unfold State.countSample
  repeat' (first | with_reducible intro _ | with_reducible assumption | with_reducible apply State.step1_canon
                 | with_reducible apply State.wrN_canon | with_reducible apply Canon.ite | split | dsimp only
                 | with_reducible apply Canon.mk | with_reducible apply CanonOf.of)

theorem State.faultShow_canon {qs : Base} {s : State} (hs : s.Ok qs) : (State.faultShow s).Ok qs := by
  unfold State.faultShow
  extract_lets +onlyGivenNames -underBinder n
  try clear_value n
  repeat' (first | with_reducible intro _ | with_reducible assumption | with_reducible apply State.put_canon
                 | with_reducible apply State.putB_canon | with_reducible apply Canon.ite | split | dsimp only
                 | with_reducible apply Canon.mk | with_reducible apply CanonOf.of)

theorem State.faultEvent_canon {qs : Base} {s : State} (slot kind port data : Nat) (hs : s.Ok qs) :
    (State.faultEvent s slot kind port data).Ok qs := by
  unfold State.faultEvent
  extract_lets +onlyGivenNames -underBinder isl
  try clear_value isl
  repeat' (first | with_reducible intro _ | with_reducible assumption | with_reducible apply State.raise_canon
                 | with_reducible apply Canon.ite | split | dsimp only | with_reducible apply Canon.mk
                 | with_reducible apply CanonOf.of)

theorem State.slotFault_canon {qs : Base} {s : State} (slot kind port data : Nat) (hs : s.Ok qs) :
    (State.slotFault s slot kind port data).Ok qs := by
  unfold State.slotFault
  extract_lets +onlyGivenNames -underBinder s1 s2
  have hs1 : s1.Ok qs := by
    unfold s1
    repeat' (first | with_reducible intro _ | with_reducible assumption | with_reducible apply State.put_canon
                   | with_reducible apply Canon.ite | split | dsimp only | with_reducible apply Canon.mk
                   | with_reducible apply CanonOf.of)
  clear_value s1
  have hs2 : s2.Ok qs := by
    unfold s2
    repeat' (first | with_reducible intro _ | with_reducible assumption | with_reducible apply State.wrN_canon
                   | with_reducible apply Canon.ite | split | dsimp only | with_reducible apply Canon.mk
                   | with_reducible apply CanonOf.of)
  clear_value s2
  repeat' (first | with_reducible intro _ | with_reducible assumption | with_reducible apply State.bump_canon
                 | with_reducible apply State.faultShow_canon | with_reducible apply State.faultEvent_canon
                 | with_reducible apply Canon.ite | split | dsimp only | with_reducible apply Canon.mk
                 | with_reducible apply CanonOf.of)

theorem State.sampleEvents_canon {qs : Base} {s : State} (slot : Nat) (o : SampleOut) (hs : s.Ok qs) :
    (State.sampleEvents s slot o).Ok qs := by
  unfold State.sampleEvents
  extract_lets +onlyGivenNames -underBinder isl d _ s1 s2 s3 s4
  try clear_value isl
  try clear_value d
  have hs1 : s1.Ok qs := by
    unfold s1
    repeat' (first | with_reducible intro _ | with_reducible assumption | with_reducible apply State.put_canon
                   | with_reducible apply State.raise_canon | with_reducible apply Canon.ite | split | dsimp only
                   | with_reducible apply Canon.mk | with_reducible apply CanonOf.of)
  clear_value s1
  have hs2 : s2.Ok qs := by
    unfold s2
    repeat' (first | with_reducible intro _ | with_reducible assumption | with_reducible apply State.put_canon
                   | with_reducible apply State.bump_canon | with_reducible apply State.raise_canon
                   | with_reducible apply Canon.ite | split | dsimp only | with_reducible apply Canon.mk
                   | with_reducible apply CanonOf.of)
  clear_value s2
  have hs3 : s3.Ok qs := by
    unfold s3
    repeat' (first | with_reducible intro _ | with_reducible assumption | with_reducible apply State.raise_canon
                   | with_reducible apply Canon.ite | with_reducible apply Canon.ite1 | split | dsimp only
                   | with_reducible apply Canon.mk | with_reducible apply CanonOf.of)
  clear_value s3
  have hs4 : s4.Ok qs := by
    unfold s4
    repeat' (first | with_reducible intro _ | with_reducible assumption | with_reducible apply State.raise_canon
                   | with_reducible apply Canon.ite | split | dsimp only | with_reducible apply Canon.mk
                   | with_reducible apply CanonOf.of)
  clear_value s4
  repeat' (first | with_reducible intro _ | with_reducible assumption | with_reducible apply State.step1_canon
                 | with_reducible apply State.raise_canon | with_reducible apply Canon.ite | split | dsimp only
                 | with_reducible apply Canon.mk | with_reducible apply CanonOf.of)

theorem State.sampleHeader_canon {qs : Base} {s : State} (slot : Nat) (o : SampleOut) (hs : s.Ok qs) :
    (State.sampleHeader s slot o).Ok qs := by
  unfold State.sampleHeader
  extract_lets +onlyGivenNames -underBinder law d s1 s2
  try clear_value law
  try clear_value d
  have hs1 : s1.Ok qs := by
    unfold s1
    repeat' (first | with_reducible intro _ | with_reducible assumption | with_reducible apply State.wrN_canon
                   | with_reducible apply Canon.ite | split | dsimp only | with_reducible apply Canon.mk
                   | with_reducible apply CanonOf.of)
  clear_value s1
  have hs2 : s2.Ok qs := by
    unfold s2
    repeat' (first | with_reducible intro _ | with_reducible assumption | with_reducible apply State.step1_canon
                   | with_reducible apply State.restart_canon | with_reducible apply Canon.ite | split | dsimp only
                   | with_reducible apply Canon.mk | with_reducible apply CanonOf.of)
  clear_value s2
  repeat' (first | with_reducible intro _ | with_reducible assumption | with_reducible apply State.putB_canon
                 | with_reducible apply State.wrN_canon | with_reducible apply Canon.ite | split | dsimp only
                 | with_reducible apply Canon.mk | with_reducible apply CanonOf.of)

theorem State.writeNormal_canon {qs : Base} {s : State} (slot : Nat) (o : SampleOut) (hs : s.Ok qs) :
    (State.writeNormal s slot o).Ok qs := by
  unfold State.writeNormal
  extract_lets +onlyGivenNames -underBinder st d s1 s2
  try clear_value st
  try clear_value d
  have hs1 : s1.Ok qs := by
    unfold s1
    repeat' (first | with_reducible intro _ | with_reducible assumption | with_reducible apply State.slotWr_canon
                   | with_reducible apply State.sampleEvents_canon | with_reducible apply State.sampleHeader_canon
                   | with_reducible apply State.each_canon | with_reducible apply Canon.ite
                   | with_reducible apply Canon.ite1 | split | dsimp only | with_reducible apply Canon.mk
                   | with_reducible apply CanonOf.of)
  clear_value s1
  have hs2 : s2.Ok qs := by
    unfold s2
    repeat' (first | with_reducible intro _ | with_reducible assumption | with_reducible apply State.wr_canon
                   | with_reducible apply State.setSlot_canon | with_reducible apply State.slotWr_canon
                   | with_reducible apply State.portOut_canon | with_reducible apply State.each_canon
                   | with_reducible apply Canon.ite | with_reducible apply Canon.ite1 | split | dsimp only
                   | with_reducible apply Canon.mk | with_reducible apply CanonOf.of)
  clear_value s2
  repeat' (first | with_reducible intro _ | with_reducible assumption | with_reducible apply State.statOut_canon
                 | with_reducible apply Canon.ite | split | dsimp only | with_reducible apply Canon.mk
                 | with_reducible apply CanonOf.of)

theorem State.restartSet_canon {qs : Base} {s : State} (slot : Nat) (hs : s.Ok qs) : (State.restartSet s slot).Ok qs := by
  unfold State.restartSet
  extract_lets +onlyGivenNames -underBinder d
  try clear_value d
  repeat' (first | with_reducible intro _ | with_reducible assumption | with_reducible apply State.put_canon
                 | with_reducible apply State.restart_canon | with_reducible apply State.slotWr_canon
                 | with_reducible apply State.each_canon | with_reducible apply Canon.ite
                 | with_reducible apply Canon.ite1 | split | dsimp only | with_reducible apply Canon.mk
                 | with_reducible apply CanonOf.of)

theorem State.writeFault_canon {qs : Base} {s : State} (slot : Nat) (o : SampleOut) (f : Nat × Nat × Nat) (hs : s.Ok qs) :
    (State.writeFault s slot o f).Ok qs := by
  unfold State.writeFault
  extract_lets +onlyGivenNames -underBinder st s1
  try clear_value st
  have hs1 : s1.Ok qs := by
    unfold s1
    repeat' (first | with_reducible intro _ | with_reducible assumption | with_reducible apply State.wr_canon
                   | with_reducible apply State.sl_canon | with_reducible apply State.restartSet_canon
                   | with_reducible apply Canon.ite | split | dsimp only | with_reducible apply Canon.mk
                   | with_reducible apply CanonOf.of)
  clear_value s1
  repeat' (first | with_reducible intro _ | with_reducible assumption | with_reducible apply State.holdOutputs_canon
                 | with_reducible apply State.slotFault_canon | with_reducible apply Canon.ite
                 | with_reducible apply Canon.ite1 | split | dsimp only | with_reducible apply Canon.mk
                 | with_reducible apply CanonOf.of)

theorem State.setTrc_canon {qs : Base} {s : State} (c n : Nat) (hs : s.Ok qs) : (State.setTrc s c n).Ok qs := by
  unfold State.setTrc
  repeat' (first | with_reducible intro _ | with_reducible assumption | with_reducible apply State.put_canon
                 | with_reducible apply State.setBit_canon | with_reducible apply Canon.ite | split | dsimp only
                 | with_reducible apply Canon.mk | with_reducible apply CanonOf.of)

theorem State.trcTrigger_canon {qs : Base} {s : State} (c n : Nat) (hs : s.Ok qs) : (State.trcTrigger s c n).Ok qs := by
  unfold State.trcTrigger
  repeat' (first | with_reducible intro _ | with_reducible assumption | with_reducible apply State.bump_canon
                 | with_reducible apply State.wrN_canon | with_reducible apply State.raise_canon
                 | with_reducible apply State.setTrace_canon | with_reducible apply State.setTrc_canon
                 | with_reducible apply Canon.ite | split | dsimp only | with_reducible apply Canon.mk
                 | with_reducible apply CanonOf.of)

theorem State.trcRecord_canon {qs : Base} {s : State} (c ch w n : Nat) (hs : s.Ok qs) :
    (State.trcRecord s c ch w n).Ok qs := by
  unfold State.trcRecord
  extract_lets +onlyGivenNames -underBinder k post
  try clear_value k
  try clear_value post
  with_reducible apply Canon.ite
  · repeat' (first | with_reducible intro _ | with_reducible assumption | with_reducible apply Canon.ite | split
                   | dsimp only | with_reducible apply Canon.mk | with_reducible apply CanonOf.of)
  extract_lets +onlyGivenNames -underBinder ring rings
  try clear_value ring
  try clear_value rings
  repeat' (first | with_reducible intro _ | with_reducible assumption | with_reducible apply State.setTrace_canon
                 | with_reducible apply Canon.ite | split | dsimp only | with_reducible apply Canon.mk
                 | with_reducible apply CanonOf.of)

theorem State.trcChan_canon {qs : Base} {s : State} (c ch slot : Nat) (o : SampleOut) (hs : s.Ok qs) :
    (State.trcChan s c ch slot o).Ok qs := by
  unfold State.trcChan
  extract_lets +onlyGivenNames -underBinder node w s1
  try clear_value node
  try clear_value w
  have hs1 : s1.Ok qs := by
    unfold s1
    repeat' (first | with_reducible intro _ | with_reducible assumption | with_reducible apply State.take_canon
                   | with_reducible apply Canon.ite | split | dsimp only | with_reducible apply Canon.mk
                   | with_reducible apply CanonOf.of)
  clear_value s1
  repeat' (first | with_reducible intro _ | with_reducible assumption | with_reducible apply State.trcRecord_canon
                 | with_reducible apply Canon.ite | split | dsimp only | with_reducible apply Canon.mk
                 | with_reducible apply CanonOf.of)

theorem State.trcJudge_canon {qs : Base} {s : State} (c slot w : Nat) (hs : s.Ok qs) : (State.trcJudge s c slot w).Ok qs := by
  unfold State.trcJudge
  extract_lets +onlyGivenNames -underBinder n _ s1
  try clear_value n
  have hs1 : s1.Ok qs := by
    unfold s1
    repeat' (first | with_reducible intro _ | with_reducible assumption | with_reducible apply State.setTrace_canon
                   | with_reducible apply Canon.ite | split | dsimp only | with_reducible apply Canon.mk
                   | with_reducible apply CanonOf.of)
  clear_value s1
  repeat' (first | with_reducible intro _ | with_reducible assumption | with_reducible apply State.trcTrigger_canon
                 | with_reducible apply Canon.ite | split | dsimp only | with_reducible apply Canon.mk
                 | with_reducible apply CanonOf.of)

theorem State.trcSample_canon {qs : Base} {s : State} (c slot : Nat) (o : SampleOut) (hs : s.Ok qs) :
    (State.trcSample s c slot o).Ok qs := by
  unfold State.trcSample
  repeat' (first | with_reducible intro _ | with_reducible assumption | with_reducible apply State.trcChan_canon
                 | with_reducible apply State.trcJudge_canon | with_reducible apply Canon.foldl
                 | with_reducible apply Canon.foldl1 | with_reducible apply Canon.ite | with_reducible apply Canon.ite1
                 | split | dsimp only | with_reducible apply Canon.mk | with_reducible apply CanonOf.of)

theorem State.traceSample_canon {qs : Base} {s : State} (slot : Nat) (o : SampleOut) (hs : s.Ok qs) :
    (State.traceSample s slot o).Ok qs := by
  unfold State.traceSample
  repeat' (first | with_reducible intro _ | with_reducible assumption | with_reducible apply State.trcSample_canon
                 | with_reducible apply State.each_canon | with_reducible apply Canon.ite | split | dsimp only
                 | with_reducible apply Canon.mk | with_reducible apply CanonOf.of)

theorem State.endSample_canon {qs : Base} {s : State} (slot : Nat) (held : Bool) (hs : s.Ok qs) :
    (State.endSample s slot held).Ok qs := by
  unfold State.endSample
  extract_lets +onlyGivenNames -underBinder d s1
  try clear_value d
  have hs1 : s1.Ok qs := by
    unfold s1
    repeat' (first | with_reducible intro _ | with_reducible assumption | with_reducible apply State.tw_canon
                   | with_reducible apply State.holdOutputs_canon | with_reducible apply State.countSample_canon
                   | with_reducible apply State.writeNormal_canon | with_reducible apply State.writeFault_canon
                   | with_reducible apply State.traceSample_canon | with_reducible apply Canon.ite | split | dsimp only
                   | with_reducible apply Canon.mk | with_reducible apply CanonOf.of)
  clear_value s1
  repeat' (first | with_reducible intro _ | with_reducible assumption | with_reducible apply State.sl_canon
                 | with_reducible apply Canon.ite | split | dsimp only | with_reducible apply Canon.mk
                 | with_reducible apply CanonOf.of)

theorem State.holdPair_canon {qs : Base} {s : State} (p : Nat) (hs : s.Ok qs) : (State.holdPair s p).Ok qs := by
  unfold State.holdPair
  repeat' (first | with_reducible intro _ | with_reducible assumption | with_reducible apply State.bump_canon
                 | with_reducible apply State.sl_canon | with_reducible apply State.each_canon
                 | with_reducible apply Canon.ite | split | dsimp only | with_reducible apply Canon.mk
                 | with_reducible apply CanonOf.of)

theorem State.pairFail_canon {qs : Base} {s : State} (p : Nat) (hs : s.Ok qs) : (State.pairFail s p).Ok qs := by
  unfold State.pairFail
  extract_lets +onlyGivenNames -underBinder s1 s2
  have hs1 : s1.Ok qs := by
    unfold s1
    repeat' (first | with_reducible intro _ | with_reducible assumption | with_reducible apply State.put_canon
                   | with_reducible apply State.raise_canon | with_reducible apply Canon.ite | split | dsimp only
                   | with_reducible apply Canon.mk | with_reducible apply CanonOf.of)
  clear_value s1
  have hs2 : s2.Ok qs := by
    unfold s2
    repeat' (first | with_reducible intro _ | with_reducible assumption | with_reducible apply State.put_canon
                   | with_reducible apply Canon.ite | split | dsimp only | with_reducible apply Canon.mk
                   | with_reducible apply CanonOf.of)
  clear_value s2
  repeat' (first | with_reducible intro _ | with_reducible assumption | with_reducible apply State.noteFault_canon
                 | with_reducible apply State.moduleFault_canon | with_reducible apply Canon.ite | split | dsimp only
                 | with_reducible apply Canon.mk | with_reducible apply CanonOf.of)

theorem State.pairMove_canon {qs : Base} {s : State} (p : Nat) (hs : s.Ok qs) : (State.pairMove s p).Ok qs := by
  unfold State.pairMove
  repeat' (first | with_reducible intro _ | with_reducible assumption | with_reducible apply State.put_canon
                 | with_reducible apply State.raise_canon | with_reducible apply State.lp_canon
                 | with_reducible apply State.holdPair_canon | with_reducible apply State.pairFail_canon
                 | with_reducible apply Canon.ite | split | dsimp only | with_reducible apply Canon.mk
                 | with_reducible apply CanonOf.of)

theorem State.missShow_canon {qs : Base} {s : State} (p : Nat) (hs : s.Ok qs) : (State.missShow s p).Ok qs := by
  unfold State.missShow
  extract_lets +onlyGivenNames -underBinder l
  try clear_value l
  repeat' (first | with_reducible intro _ | with_reducible assumption | with_reducible apply State.put_canon
                 | with_reducible apply State.lp_canon | with_reducible apply Canon.ite | split | dsimp only
                 | with_reducible apply Canon.mk | with_reducible apply CanonOf.of)

theorem State.missCount_canon {qs : Base} {s : State} (p : Nat) (spare : Bool) (hs : s.Ok qs) :
    (State.missCount s p spare).Ok qs := by
  unfold State.missCount
  extract_lets +onlyGivenNames -underBinder e s1 l
  try clear_value e
  have hs1 : s1.Ok qs := by
    unfold s1
    repeat' (first | with_reducible intro _ | with_reducible assumption | with_reducible apply State.lp_canon
                   | with_reducible apply State.missShow_canon | with_reducible apply Canon.ite | split | dsimp only
                   | with_reducible apply Canon.mk | with_reducible apply CanonOf.of)
  clear_value s1
  try clear_value l
  repeat' (first | with_reducible intro _ | with_reducible assumption | with_reducible apply State.pairMove_canon
                 | with_reducible apply Canon.ite | with_reducible apply Canon.ite1 | split | dsimp only
                 | with_reducible apply Canon.mk | with_reducible apply CanonOf.of)

theorem State.lateHold_canon {qs : Base} {s : State} (p count : Nat) (spare : Bool) (hs : s.Ok qs) :
    (State.lateHold s p count spare).Ok qs := by
  unfold State.lateHold
  with_reducible apply Canon.ite
  · repeat' (first | with_reducible intro _ | with_reducible assumption | with_reducible apply Canon.ite | split
                   | dsimp only | with_reducible apply Canon.mk | with_reducible apply CanonOf.of)
  extract_lets +onlyGivenNames -underBinder s1
  have hs1 : s1.Ok qs := by
    unfold s1
    repeat' (first | with_reducible intro _ | with_reducible assumption | with_reducible apply State.raise_canon
                   | with_reducible apply State.lp_canon | with_reducible apply Canon.ite | split | dsimp only
                   | with_reducible apply Canon.mk | with_reducible apply CanonOf.of)
  clear_value s1
  repeat' (first | with_reducible intro _ | with_reducible assumption | with_reducible apply State.missCount_canon
                 | with_reducible apply Canon.ite | split | dsimp only | with_reducible apply Canon.mk
                 | with_reducible apply CanonOf.of)

theorem State.accessHold_canon {qs : Base} {s : State} (p : Nat) (spare : Bool) (hs : s.Ok qs) :
    (State.accessHold s p spare).Ok qs := by
  unfold State.accessHold
  repeat' (first | with_reducible intro _ | with_reducible assumption | with_reducible apply State.raise_canon
                 | with_reducible apply State.missCount_canon | with_reducible apply Canon.ite | split | dsimp only
                 | with_reducible apply Canon.mk | with_reducible apply CanonOf.of)

theorem State.mismatchMove_canon {qs : Base} {s : State} (slot : Nat) (hs : s.Ok qs) : (State.mismatchMove s slot).Ok qs := by
  unfold State.mismatchMove
  repeat' (first | with_reducible intro _ | with_reducible assumption | with_reducible apply State.pairMove_canon
                 | with_reducible apply Canon.ite | split | dsimp only | with_reducible apply Canon.mk
                 | with_reducible apply CanonOf.of)

theorem State.markHold_canon {qs : Base} {s : State} (slot : Nat) (hs : s.Ok qs) : (State.markHold s slot).Ok qs := by
  unfold State.markHold
  repeat' (first | with_reducible intro _ | with_reducible assumption | with_reducible apply State.sl_canon
                 | with_reducible apply Canon.ite | split | dsimp only | with_reducible apply Canon.mk
                 | with_reducible apply CanonOf.of)

theorem State.holdSample_canon {qs : Base} {s : State} (slot : Nat) (c : HoldCause) (hs : s.Ok qs) :
    (State.holdSample s slot c).Ok qs := by
  unfold State.holdSample
  extract_lets +onlyGivenNames -underBinder p s1
  try clear_value p
  have hs1 : s1.Ok qs := by
    unfold s1
    repeat' (first | with_reducible intro _ | with_reducible assumption | with_reducible apply State.markHold_canon
                   | with_reducible apply Canon.ite | split | dsimp only | with_reducible apply Canon.mk
                   | with_reducible apply CanonOf.of)
  clear_value s1
  with_reducible apply Canon.ite
  · repeat' (first | with_reducible intro _ | with_reducible assumption | with_reducible apply State.bump_canon
                   | with_reducible apply Canon.ite | split | dsimp only | with_reducible apply Canon.mk
                   | with_reducible apply CanonOf.of)
  repeat' (first | with_reducible intro _ | with_reducible assumption | with_reducible apply State.bump_canon
                 | with_reducible apply State.raise_canon | with_reducible apply State.noteFault_canon
                 | with_reducible apply State.lateHold_canon | with_reducible apply State.accessHold_canon
                 | with_reducible apply State.mismatchMove_canon | with_reducible apply Canon.ite | split | dsimp only
                 | with_reducible apply Canon.mk | with_reducible apply CanonOf.of)

theorem State.deadlines_canon {qs : Base} {s : State} (hs : s.Ok qs) : (State.deadlines s).Ok qs := by
  unfold State.deadlines
  extract_lets +onlyGivenNames -underBinder late s1
  try clear_value late
  have hs1 : s1.Ok qs := by
    unfold s1
    repeat' (first | with_reducible intro _ | with_reducible assumption | with_reducible apply State.bump_canon
                   | with_reducible apply State.markHold_canon | with_reducible apply State.each_canon
                   | with_reducible apply Canon.ite | split | dsimp only | with_reducible apply Canon.mk
                   | with_reducible apply CanonOf.of)
  clear_value s1
  repeat' (first | with_reducible intro _ | with_reducible assumption | with_reducible apply State.lateHold_canon
                 | with_reducible apply State.each_canon | with_reducible apply Canon.ite | split | dsimp only
                 | with_reducible apply Canon.mk | with_reducible apply CanonOf.of)

theorem execSampleDeadline_canon {qs : Base} (t : Nat) {s : State} (hs : s.Ok qs) : ResOk qs (execSampleDeadline t s) := by
  unfold execSampleDeadline
  extract_lets +onlyGivenNames -underBinder s0
  have hs0 : s0.Ok qs := by
    unfold s0
    repeat' (first | with_reducible intro _ | with_reducible assumption | with_reducible apply State.at_canon
                   | with_reducible apply Canon.ite | split | dsimp only | with_reducible apply Canon.mk
                   | with_reducible apply CanonOf.of)
  clear_value s0
  repeat' (first | with_reducible intro _ | with_reducible assumption | with_reducible apply ResOk.next
                 | with_reducible apply State.deadlines_canon | with_reducible apply Canon.ite
                 | with_reducible apply ResOk.ite | split | dsimp only | with_reducible apply Canon.mk
                 | with_reducible apply CanonOf.of)

theorem execSamplePhasePStart_canon {qs : Base} {s : State} (hs : s.Ok qs) : ResOk qs (execSamplePhasePStart s) := by
  unfold execSamplePhasePStart
  repeat' (first | with_reducible intro _ | with_reducible assumption | with_reducible apply ResOk.next
                 | with_reducible apply State.lp_canon | with_reducible apply Canon.ite | with_reducible apply ResOk.ite
                 | split | dsimp only | with_reducible apply Canon.mk | with_reducible apply CanonOf.of)

theorem State.stageSlots_canon {qs : Base} {s : State} (rec : Option (List Nat)) (hs : s.Ok qs) :
    (State.stageSlots s rec).1.Ok qs := by
  unfold State.stageSlots
  extract_lets +onlyGivenNames -underBinder s0 due failed own mine held alone s1
  have hs0 : s0.Ok qs := by
    unfold s0
    repeat' (first | with_reducible intro _ | with_reducible assumption | with_reducible apply State.deadlines_canon
                   | with_reducible apply Canon.ite | split | dsimp only | with_reducible apply Canon.mk
                   | with_reducible apply CanonOf.of)
  clear_value s0
  try clear_value due
  try clear_value own
  try clear_value mine
  try clear_value held
  try clear_value alone
  have hs1 : s1.Ok qs := by
    unfold s1
    repeat' (first | with_reducible intro _ | with_reducible assumption | with_reducible apply State.bump_canon
                   | with_reducible apply State.each_canon | with_reducible apply Canon.ite | split | dsimp only
                   | with_reducible apply Canon.mk | with_reducible apply CanonOf.of)
  clear_value s1
  repeat' (first | with_reducible intro _ | with_reducible assumption | with_reducible apply State.endSample_canon
                 | with_reducible apply State.each_canon | with_reducible apply Canon.ite
                 | with_reducible apply Canon.ite1 | split | dsimp only | with_reducible apply Canon.mk
                 | with_reducible apply CanonOf.of)

theorem State.queueClear_canon {qs : Base} {s : State} (slot mask at_ : Nat) (hs : s.Ok qs) :
    (State.queueClear s slot mask at_).Ok qs := by
  unfold State.queueClear
  repeat' (first | with_reducible intro _ | with_reducible assumption | with_reducible apply State.put_canon
                 | with_reducible apply State.sl_canon | with_reducible apply Canon.ite | split | dsimp only
                 | with_reducible apply Canon.mk | with_reducible apply CanonOf.of)

theorem State.flagWrite_canon {qs : Base} {s : State} (slot v : Nat) (hs : s.Ok qs) : (State.flagWrite s slot v).Ok qs := by
  unfold State.flagWrite
  extract_lets +onlyGivenNames -underBinder m
  try clear_value m
  repeat' (first | with_reducible intro _ | with_reducible assumption | with_reducible apply State.send_canon
                 | with_reducible apply State.queueClear_canon | with_reducible apply Canon.ite | split | dsimp only
                 | with_reducible apply Canon.mk | with_reducible apply CanonOf.of)

theorem execSlotFlagClear_canon {qs : Base} (slot : Fin 16384) (value : Word) (t : Nat) {s : State}
    (hs : s.Ok qs) : ResOk qs (execSlotFlagClear slot value t s) := by
  unfold execSlotFlagClear
  repeat' (first | with_reducible intro _ | with_reducible assumption | with_reducible apply ResOk.next
                 | with_reducible apply State.at_canon | with_reducible apply State.flagWrite_canon
                 | with_reducible apply Canon.ite | with_reducible apply ResOk.ite | split | dsimp only
                 | with_reducible apply Canon.mk | with_reducible apply CanonOf.of)

theorem State.ipendSet_canon {qs : Base} {s : State} (c n : Nat) (hs : s.Ok qs) : (State.ipendSet s c n).Ok qs := by
  unfold State.ipendSet
  repeat' (first | with_reducible intro _ | with_reducible assumption | with_reducible apply State.co_canon
                 | with_reducible apply Canon.ite | split | dsimp only | with_reducible apply Canon.mk
                 | with_reducible apply CanonOf.of)

theorem State.ipendAll_canon {qs : Base} {s : State} (n : Nat) (hs : s.Ok qs) : (State.ipendAll s n).Ok qs := by
  unfold State.ipendAll
  repeat' (first | with_reducible intro _ | with_reducible assumption | with_reducible apply State.ipendSet_canon
                 | with_reducible apply State.each_canon | with_reducible apply Canon.ite | split | dsimp only
                 | with_reducible apply Canon.mk | with_reducible apply CanonOf.of)

theorem execFlagClearRx_canon {qs : Base} (slot : Fin 16384) (mask : Fin 4096) (at_ : Nat) {s : State}
    (hs : s.Ok qs) : ResOk qs (execFlagClearRx slot mask at_ s) := by
  unfold execFlagClearRx
  repeat' (first | with_reducible intro _ | with_reducible assumption | with_reducible apply ResOk.next
                 | with_reducible apply State.queueClear_canon | with_reducible apply State.ipendAll_canon
                 | with_reducible apply Canon.ite | with_reducible apply ResOk.ite | split | dsimp only
                 | with_reducible apply Canon.mk | with_reducible apply CanonOf.of)

theorem State.clearFlags_canon {qs : Base} {s : State} (slot mask : Nat) (hs : s.Ok qs) :
    (State.clearFlags s slot mask).Ok qs := by
  unfold State.clearFlags
  extract_lets +onlyGivenNames -underBinder rs w s1
  try clear_value rs
  try clear_value w
  have hs1 : s1.Ok qs := by
    unfold s1
    repeat' (first | with_reducible intro _ | with_reducible assumption | with_reducible apply State.wr_canon
                   | with_reducible apply Canon.ite | split | dsimp only | with_reducible apply Canon.mk
                   | with_reducible apply CanonOf.of)
  clear_value s1
  repeat' (first | with_reducible intro _ | with_reducible assumption | with_reducible apply State.put_canon
                 | with_reducible apply State.raise_canon | with_reducible apply State.sl_canon
                 | with_reducible apply State.faultShow_canon | with_reducible apply Canon.ite | split | dsimp only
                 | with_reducible apply Canon.mk | with_reducible apply CanonOf.of)

theorem State.clearDue_canon {qs : Base} {s : State} (n slot : Nat) (hs : s.Ok qs) : (State.clearDue s n slot).Ok qs := by
  unfold State.clearDue
  extract_lets +onlyGivenNames -underBinder d due
  try clear_value d
  try clear_value due
  with_reducible apply Canon.ite
  · repeat' (first | with_reducible intro _ | with_reducible assumption | with_reducible apply Canon.ite | split
                   | dsimp only | with_reducible apply Canon.mk | with_reducible apply CanonOf.of)
  extract_lets +onlyGivenNames -underBinder rest s1
  try clear_value rest
  have hs1 : s1.Ok qs := by
    unfold s1
    repeat' (first | with_reducible intro _ | with_reducible assumption | with_reducible apply State.putB_canon
                   | with_reducible apply State.sl_canon | with_reducible apply Canon.ite | split | dsimp only
                   | with_reducible apply Canon.mk | with_reducible apply CanonOf.of)
  clear_value s1
  repeat' (first | with_reducible intro _ | with_reducible assumption | with_reducible apply State.clearFlags_canon
                 | with_reducible apply State.each_canon | with_reducible apply Canon.ite | split | dsimp only
                 | with_reducible apply Canon.mk | with_reducible apply CanonOf.of)

theorem State.loopBoundary_canon {qs : Base} {s : State} (n : Nat) (hs : s.Ok qs) : (State.loopBoundary s n).Ok qs := by
  unfold State.loopBoundary
  extract_lets +onlyGivenNames -underBinder s1
  have hs1 : s1.Ok qs := by
    unfold s1
    repeat' (first | with_reducible intro _ | with_reducible assumption | with_reducible apply State.clearDue_canon
                   | with_reducible apply State.each_canon | with_reducible apply Canon.ite | split | dsimp only
                   | with_reducible apply Canon.mk | with_reducible apply CanonOf.of)
  clear_value s1
  repeat' (first | with_reducible intro _ | with_reducible assumption | with_reducible apply State.missShow_canon
                 | with_reducible apply State.each_canon | with_reducible apply Canon.ite | split | dsimp only
                 | with_reducible apply Canon.mk | with_reducible apply CanonOf.of)

end Sys2Proof.Machine
end

