-- ==== Sys2Proof/Laws/CanonTwin.lean ====
section
/-! SUPPORT. The canonical form is kept by the definitions of Machine/Twin.lean. -/
namespace Sys2Proof.Machine

theorem State.announceAddrs_canon {qs : Base} {s : State} (hs : s.Ok qs) : (State.announceAddrs s).Ok qs := by
  unfold State.announceAddrs
  repeat' (first | with_reducible intro _ | with_reducible assumption | with_reducible apply State.take_canon
                 | with_reducible apply State.send_canon | with_reducible apply State.each_canon
                 | with_reducible apply Canon.ite | with_reducible apply Canon.ite1 | split | dsimp only
                 | with_reducible apply Canon.mk | with_reducible apply CanonOf.of)

theorem State.assumeRole_canon {qs : Base} {s : State} (hs : s.Ok qs) : (State.assumeRole s).Ok qs := by
  unfold State.assumeRole
  repeat' (first | with_reducible intro _ | with_reducible assumption | with_reducible apply State.canAssume_canon
                 | with_reducible apply State.announceAddrs_canon | with_reducible apply Canon.ite | split | dsimp only
                 | with_reducible apply Canon.mk | with_reducible apply CanonOf.of)

theorem State.dropRole_canon {qs : Base} {s : State} (hs : s.Ok qs) : (State.dropRole s).Ok qs := by
  unfold State.dropRole
  repeat' (first | with_reducible intro _ | with_reducible assumption | with_reducible apply State.closeActive_canon
                 | with_reducible apply State.canRelease_canon | with_reducible apply State.outputsFollow_canon
                 | with_reducible apply Canon.ite | split | dsimp only | with_reducible apply Canon.mk
                 | with_reducible apply CanonOf.of)

theorem State.claim_canon {qs : Base} {s : State} (heard : Bool) (hs : s.Ok qs) : (State.claim s heard).Ok qs := by
  unfold State.claim
  extract_lets +onlyGivenNames -underBinder lw top s1
  try clear_value lw
  try clear_value top
  have hs1 : s1.Ok qs := by
    unfold s1
    repeat' (first | with_reducible intro _ | with_reducible assumption | with_reducible apply State.put_canon
                   | with_reducible apply State.raise_canon | with_reducible apply State.setEpoch_canon
                   | with_reducible apply Canon.ite | split | dsimp only | with_reducible apply Canon.mk
                   | with_reducible apply CanonOf.of)
  clear_value s1
  repeat' (first | with_reducible intro _ | with_reducible assumption | with_reducible apply State.raise_canon
                 | with_reducible apply State.setT_canon | with_reducible apply State.cause_canon
                 | with_reducible apply State.assumeRole_canon | with_reducible apply Canon.ite | split | dsimp only
                 | with_reducible apply Canon.mk | with_reducible apply CanonOf.of)

theorem State.releaseActive_canon {qs : Base} {s : State} (why : Nat) (hs : s.Ok qs) : (State.releaseActive s why).Ok qs := by
  unfold State.releaseActive
  extract_lets +onlyGivenNames -underBinder s1 s2
  have hs1 : s1.Ok qs := by
    unfold s1
    repeat' (first | with_reducible intro _ | with_reducible assumption | with_reducible apply State.tw_canon
                   | with_reducible apply Canon.ite | split | dsimp only | with_reducible apply Canon.mk
                   | with_reducible apply CanonOf.of)
  clear_value s1
  have hs2 : s2.Ok qs := by
    unfold s2
    repeat' (first | with_reducible intro _ | with_reducible assumption | with_reducible apply State.raise_canon
                   | with_reducible apply State.setT_canon | with_reducible apply State.dropRole_canon
                   | with_reducible apply Canon.ite | split | dsimp only | with_reducible apply Canon.mk
                   | with_reducible apply CanonOf.of)
  clear_value s2
  repeat' (first | with_reducible intro _ | with_reducible assumption | with_reducible apply State.raise_canon
                 | with_reducible apply State.cause_canon | with_reducible apply Canon.ite | split | dsimp only
                 | with_reducible apply Canon.mk | with_reducible apply CanonOf.of)

theorem execHigherEpochRelease_canon {qs : Base} (started : List (Nat × Nat)) (t : Nat) {s : State}
    (hs : s.Ok qs) : ResOk qs (execHigherEpochRelease started t s) := by
  unfold execHigherEpochRelease
  repeat' (first | with_reducible intro _ | with_reducible assumption | with_reducible apply ResOk.next
                 | with_reducible apply State.at_canon | with_reducible apply State.canStarted_canon
                 | with_reducible apply State.releaseActive_canon | with_reducible apply Canon.ite
                 | with_reducible apply ResOk.ite | split | dsimp only | with_reducible apply Canon.mk
                 | with_reducible apply CanonOf.of)

theorem State.seeEpoch_canon {qs : Base} {s : State} (path epoch : Nat) (claims : Bool) (hs : s.Ok qs) :
    (State.seeEpoch s path epoch claims).Ok qs := by
  unfold State.seeEpoch
  repeat' (first | with_reducible intro _ | with_reducible assumption | with_reducible apply State.tw_canon
                 | with_reducible apply Canon.ite | split | dsimp only | with_reducible apply Canon.mk
                 | with_reducible apply CanonOf.of)

theorem State.startJoin_canon {qs : Base} {s : State} (fromCopy : Bool) (hs : s.Ok qs) :
    (State.startJoin s fromCopy).Ok qs := by
  unfold State.startJoin
  repeat' (first | with_reducible intro _ | with_reducible assumption | with_reducible apply State.beginJoin_canon
                 | with_reducible apply State.dropActivations_canon | with_reducible apply State.dropSamples_canon
                 | with_reducible apply Canon.ite | split | dsimp only | with_reducible apply Canon.mk
                 | with_reducible apply CanonOf.of)

theorem State.hearActive_canon {qs : Base} {s : State} (ident : Option (List Byte)) (hs : s.Ok qs) :
    (State.hearActive s ident).Ok qs := by
  unfold State.hearActive
  repeat' (first | with_reducible intro _ | with_reducible assumption | with_reducible apply State.raise_canon
                 | with_reducible apply State.tw_canon | with_reducible apply State.setT_canon
                 | with_reducible apply State.startJoin_canon | with_reducible apply Canon.ite | split | dsimp only
                 | with_reducible apply Canon.mk | with_reducible apply CanonOf.of)

theorem State.keyEvents_canon {qs : Base} {s : State} (old new : List KeySlot) (hs : s.Ok qs) :
    (State.keyEvents s old new).Ok qs := by
  unfold State.keyEvents
  repeat' (first | with_reducible intro _ | with_reducible assumption | with_reducible apply State.raise_canon
                 | with_reducible apply State.each_canon | with_reducible apply Canon.ite | split | dsimp only
                 | with_reducible apply Canon.mk | with_reducible apply CanonOf.of)

theorem State.mergeStore_canon {qs : Base} {s : State} (theirs : List KeySlot) (hs : s.Ok qs) :
    (State.mergeStore s theirs).1.Ok qs := by
  unfold State.mergeStore
  dsimp only
  split
  · refine State.keyEvents_canon _ _ (State.showNv_canon ?_)
    exact ⟨hs.1, hs.2.1, hs.2.2.1, hs.2.2.2.1, hs.2.2.2.2.1, hs.2.2.2.2.2.1.keys (mergeKeys_revoked _ _ _), hs.2.2.2.2.2.2.1,
      fun hc => (mergeKeys_length _ _ _).symm ▸ hs.2.2.2.2.2.2.2 hc⟩
  · exact State.raise_canon _ _ _ hs

theorem execJoinCheckDone_canon {qs : Base} (c : JoinCheck) (t : Nat) {s : State} (hs : s.Ok qs) : ResOk qs
    (execJoinCheckDone c t s) := by
  unfold execJoinCheckDone
  extract_lets +onlyGivenNames -underBinder s0
  have hs0 : s0.Ok qs := by
    unfold s0
    repeat' (first | with_reducible intro _ | with_reducible assumption | with_reducible apply State.at_canon
                   | with_reducible apply Canon.ite | split | dsimp only | with_reducible apply Canon.mk
                   | with_reducible apply CanonOf.of)
  clear_value s0
  with_reducible apply ResOk.next
  with_reducible apply Canon.ite
  · repeat' (first | with_reducible intro _ | with_reducible assumption | with_reducible apply State.mergeStore_canon
                   | with_reducible apply Canon.ite | with_reducible apply Canon.ite1 | split | dsimp only
                   | with_reducible apply Canon.mk | with_reducible apply CanonOf.of)
  repeat' (first | with_reducible intro _ | with_reducible assumption | with_reducible apply State.put_canon
                 | with_reducible apply State.raise_canon | with_reducible apply State.tw_canon
                 | with_reducible apply State.setT_canon | with_reducible apply State.failJoin_canon
                 | with_reducible apply State.mergeStore_canon | with_reducible apply Canon.ite
                 | with_reducible apply Canon.ite1 | split | dsimp only | with_reducible apply Canon.mk
                 | with_reducible apply CanonOf.of)

theorem execJoinTimeHeld_canon {qs : Base} (granules t : Nat) {s : State} (hs : s.Ok qs) : ResOk qs
    (execJoinTimeHeld granules t s) := by
  unfold execJoinTimeHeld
  extract_lets +onlyGivenNames -underBinder s0
  have hs0 : s0.Ok qs := by
    unfold s0
    repeat' (first | with_reducible intro _ | with_reducible assumption | with_reducible apply State.at_canon
                   | with_reducible apply Canon.ite | split | dsimp only | with_reducible apply Canon.mk
                   | with_reducible apply CanonOf.of)
  clear_value s0
  repeat' (first | with_reducible intro _ | with_reducible assumption | with_reducible apply ResOk.next
                 | with_reducible apply State.put_canon | with_reducible apply State.tw_canon
                 | with_reducible apply Canon.ite | with_reducible apply ResOk.ite | split | dsimp only
                 | with_reducible apply Canon.mk | with_reducible apply CanonOf.of)

theorem State.pfFollow_canon {qs : Base} {s : State} (hs : s.Ok qs) : (State.pfFollow s).Ok qs := by
  unfold State.pfFollow
  extract_lets +onlyGivenNames -underBinder l
  try clear_value l
  repeat' (first | with_reducible intro _ | with_reducible assumption | dsimp only [Nv.pfStore]
                 | with_reducible apply State.inNv_canon | with_reducible apply Canon.ite | split | dsimp only
                 | with_reducible apply Canon.mk | with_reducible apply CanonOf.of)

theorem State.takeRing_canon {qs : Base} {s : State} (c : RingCopy) (hs : s.Ok qs) : (State.takeRing s c).Ok qs := by
  unfold State.takeRing
  extract_lets +onlyGivenNames -underBinder r s1 s2 s3 st
  try clear_value r
  have hs1 : s1.Ok qs := by
    unfold s1
    repeat' (first | with_reducible intro _ | with_reducible assumption | with_reducible apply State.ri_canon
                   | with_reducible apply Canon.foldl | with_reducible apply Canon.foldl1
                   | with_reducible apply Canon.ite | with_reducible apply Canon.ite1 | split | dsimp only
                   | with_reducible apply Canon.mk | with_reducible apply CanonOf.of)
  clear_value s1
  have hs2 : s2.Ok qs := by
    unfold s2
    repeat' (first | with_reducible intro _ | with_reducible assumption | with_reducible apply State.put_canon
                   | with_reducible apply State.putB_canon | with_reducible apply Canon.ite | split | dsimp only
                   | with_reducible apply Canon.mk | with_reducible apply CanonOf.of)
  clear_value s2
  have hs3 : s3.Ok qs := by
    unfold s3
    repeat' (first | with_reducible intro _ | with_reducible assumption | with_reducible apply State.wr_canon
                   | with_reducible apply State.each_canon | with_reducible apply Canon.ite
                   | with_reducible apply Canon.ite1 | split | dsimp only | with_reducible apply Canon.mk
                   | with_reducible apply CanonOf.of)
  clear_value s3
  try clear_value st
  repeat' (first | with_reducible intro _ | with_reducible assumption | with_reducible apply State.put_canon
                 | with_reducible apply State.putB_canon | with_reducible apply Canon.ite
                 | with_reducible apply Canon.ite1 | split | dsimp only | with_reducible apply Canon.mk
                 | with_reducible apply CanonOf.of)

theorem State.joinClear_canon {qs : Base} {s : State} (hs : s.Ok qs) : (State.joinClear s).Ok qs := by
  unfold State.joinClear
  repeat' (first | with_reducible intro _ | with_reducible assumption | with_reducible apply Canon.ite | split
                 | dsimp only | with_reducible apply Canon.mk | with_reducible apply CanonOf.of
                 | with_reducible apply Canon.keepBoth | with_reducible apply Canon.memK
                 | with_reducible apply CanonOf.resetRegs)

theorem State.patchMem_canon {qs : Base} {s : State} (p : StatePatch) (hs : s.Ok qs) : (State.patchMem s p).Ok qs := by
  unfold State.patchMem
  extract_lets +onlyGivenNames -underBinder s1
  have hs1 : s1.Ok qs := by
    unfold s1
    repeat' (first | with_reducible intro _ | with_reducible assumption | with_reducible apply State.wr_canon
                   | with_reducible apply State.unpoison_canon | with_reducible apply State.each_canon
                   | with_reducible apply Canon.ite | with_reducible apply Canon.ite1 | split | dsimp only
                   | with_reducible apply Canon.mk | with_reducible apply CanonOf.of)
  clear_value s1
  repeat' (first | with_reducible intro _ | with_reducible assumption | with_reducible apply State.sysW_canon
                 | with_reducible apply State.each_canon | with_reducible apply Canon.ite
                 | with_reducible apply Canon.ite1 | split | dsimp only | with_reducible apply Canon.mk
                 | with_reducible apply CanonOf.of)

theorem State.patchTabs_canon {qs : Base} {s : State} (p : StatePatch) (hs : s.Ok qs) : (State.patchTabs s p).Ok qs := by
  unfold State.patchTabs
  extract_lets +onlyGivenNames -underBinder s1
  have hs1 : s1.Ok qs := by
    unfold s1
    repeat' (first | with_reducible intro _ | with_reducible assumption | with_reducible apply State.setSlot_canon
                   | with_reducible apply State.each_canon | with_reducible apply Canon.ite
                   | with_reducible apply Canon.ite1 | split | dsimp only | with_reducible apply Canon.mk
                   | with_reducible apply CanonOf.of)
  clear_value s1
  repeat' (first | with_reducible intro _ | with_reducible assumption | with_reducible apply State.setPart_canon
                 | with_reducible apply State.takeRing_canon | with_reducible apply State.each_canon
                 | with_reducible apply Canon.ite | with_reducible apply Canon.ite1 | split | dsimp only
                 | with_reducible apply Canon.mk | with_reducible apply CanonOf.of)

theorem State.applyPatch_canon {qs : Base} {s0 : State} (p : StatePatch) (hs : s0.Ok qs) : (State.applyPatch s0 p).Ok qs := by
  unfold State.applyPatch
  extract_lets +onlyGivenNames -underBinder s1 s4 s5 s6 s7
  have hs1 : s1.Ok qs := by
    unfold s1
    repeat' (first | with_reducible intro _ | with_reducible assumption | with_reducible apply State.joinClear_canon
                   | with_reducible apply Canon.ite | split | dsimp only | with_reducible apply Canon.mk
                   | with_reducible apply CanonOf.of)
  clear_value s1
  have hs4 : s4.Ok qs := by
    unfold s4
    repeat' (first | with_reducible intro _ | with_reducible assumption | with_reducible apply State.patchMem_canon
                   | with_reducible apply State.patchTabs_canon | with_reducible apply Canon.ite | split | dsimp only
                   | with_reducible apply Canon.mk | with_reducible apply CanonOf.of)
  clear_value s4
  have hs5 : s5.Ok qs := by
    unfold s5
    repeat' (first | with_reducible intro _ | with_reducible assumption | with_reducible apply Canon.ite | split
                   | dsimp only | with_reducible apply Canon.mk | with_reducible apply CanonOf.of)
  clear_value s5
  have hs6 : s6.Ok qs := by
    unfold s6
    repeat' (first | with_reducible intro _ | with_reducible assumption | with_reducible apply State.put_canon
                   | with_reducible apply State.countForces_canon | with_reducible apply State.pfFollow_canon
                   | with_reducible apply Canon.ite | split | dsimp only | with_reducible apply Canon.mk
                   | with_reducible apply CanonOf.of)
  clear_value s6
  have hs7 : s7.Ok qs := by
    unfold s7
    repeat' (first | with_reducible intro _ | with_reducible assumption | with_reducible apply State.mergeStore_canon
                   | with_reducible apply Canon.ite | with_reducible apply Canon.ite1 | split | dsimp only
                   | with_reducible apply Canon.mk | with_reducible apply CanonOf.of)
  clear_value s7
  repeat' (first | with_reducible intro _ | with_reducible assumption | with_reducible apply State.setEpoch_canon
                 | with_reducible apply Canon.ite | split | dsimp only | with_reducible apply Canon.mk
                 | with_reducible apply CanonOf.of)

theorem State.forwardCommits_canon {qs : Base} {s : State} (ps : List Nat) (hs : s.Ok qs) :
    (State.forwardCommits s ps).Ok qs := by
  unfold State.forwardCommits
  repeat' (first | with_reducible intro _ | with_reducible assumption | with_reducible apply State.send_canon
                 | with_reducible apply State.tw_canon | with_reducible apply Canon.ite | with_reducible apply Canon.ite1
                 | split | dsimp only | with_reducible apply Canon.mk | with_reducible apply CanonOf.of)

theorem execJoinCopyComplete_canon {qs : Base} (m : Nat) (p : StatePatch) (t : Nat) {s : State} (hs : s.Ok qs) : ResOk qs
    (execJoinCopyComplete m p t s) := by
  unfold execJoinCopyComplete
  extract_lets +onlyGivenNames -underBinder s0
  have hs0 : s0.Ok qs := by
    unfold s0
    repeat' (first | with_reducible intro _ | with_reducible assumption | with_reducible apply State.at_canon
                   | with_reducible apply Canon.ite | split | dsimp only | with_reducible apply Canon.mk
                   | with_reducible apply CanonOf.of)
  clear_value s0
  with_reducible apply ResOk.next
  repeat' (first | with_reducible intro _ | with_reducible assumption | with_reducible apply State.put_canon
                 | with_reducible apply State.send_canon | with_reducible apply State.tw_canon
                 | with_reducible apply State.applyPatch_canon | with_reducible apply Canon.ite | split | dsimp only
                 | with_reducible apply Canon.mk | with_reducible apply CanonOf.of)

theorem execForwardedWriteRx_canon {qs : Base} (p : StatePatch) (copied : Nat) (fits : Bool) {s : State}
    (hs : s.Ok qs) : ResOk qs (execForwardedWriteRx p copied fits s) := by
  unfold execForwardedWriteRx
  with_reducible apply ResOk.next
  repeat' (first | with_reducible intro _ | with_reducible assumption | with_reducible apply State.put_canon
                 | with_reducible apply State.tw_canon | with_reducible apply State.failJoin_canon
                 | with_reducible apply State.applyPatch_canon | with_reducible apply Canon.ite | split | dsimp only
                 | with_reducible apply Canon.mk | with_reducible apply CanonOf.of)

theorem execJoinTimeout_canon {qs : Base} (t : Nat) {s : State} (hs : s.Ok qs) : ResOk qs (execJoinTimeout t s) := by
  unfold execJoinTimeout
  extract_lets +onlyGivenNames -underBinder s0
  have hs0 : s0.Ok qs := by
    unfold s0
    repeat' (first | with_reducible intro _ | with_reducible assumption | with_reducible apply State.at_canon
                   | with_reducible apply Canon.ite | split | dsimp only | with_reducible apply Canon.mk
                   | with_reducible apply CanonOf.of)
  clear_value s0
  repeat' (first | with_reducible intro _ | with_reducible assumption | with_reducible apply ResOk.next
                 | with_reducible apply State.failJoin_canon | with_reducible apply Canon.ite
                 | with_reducible apply ResOk.ite | split | dsimp only | with_reducible apply Canon.mk
                 | with_reducible apply CanonOf.of)

theorem execJoinRetry_canon {qs : Base} (t : Nat) {s : State} (hs : s.Ok qs) : ResOk qs (execJoinRetry t s) := by
  unfold execJoinRetry
  extract_lets +onlyGivenNames -underBinder s0
  have hs0 : s0.Ok qs := by
    unfold s0
    repeat' (first | with_reducible intro _ | with_reducible assumption | with_reducible apply State.at_canon
                   | with_reducible apply Canon.ite | split | dsimp only | with_reducible apply Canon.mk
                   | with_reducible apply CanonOf.of)
  clear_value s0
  repeat' (first | with_reducible intro _ | with_reducible assumption | with_reducible apply ResOk.next
                 | with_reducible apply State.startJoin_canon | with_reducible apply Canon.ite
                 | with_reducible apply ResOk.ite | split | dsimp only | with_reducible apply Canon.mk
                 | with_reducible apply CanonOf.of)

theorem State.hoComplete_canon {qs : Base} {s : State} (hs : s.Ok qs) : (State.hoComplete s).Ok qs := by
  unfold State.hoComplete
  extract_lets +onlyGivenNames -underBinder _ _ s1
  have hs1 : s1.Ok qs := by
    unfold s1
    repeat' (first | with_reducible intro _ | with_reducible assumption | with_reducible apply Canon.ite | split
                   | dsimp only | with_reducible apply Canon.mk | with_reducible apply CanonOf.of)
  clear_value s1
  repeat' (first | with_reducible intro _ | with_reducible assumption | with_reducible apply State.hoClose_canon
                 | with_reducible apply Canon.ite | split | dsimp only | with_reducible apply Canon.mk
                 | with_reducible apply CanonOf.of)

theorem State.joinShadow_canon {qs : Base} {s : State} (n : Nat) (hs : s.Ok qs) : (State.joinShadow s n).Ok qs := by
  unfold State.joinShadow
  repeat' (first | with_reducible intro _ | with_reducible assumption | with_reducible apply State.put_canon
                 | with_reducible apply State.tw_canon | with_reducible apply Canon.ite | split | dsimp only
                 | with_reducible apply Canon.mk | with_reducible apply CanonOf.of)

theorem State.divsShow_canon {qs : Base} {s : State} (hs : s.Ok qs) : (State.divsShow s).Ok qs := by
  unfold State.divsShow
  extract_lets +onlyGivenNames -underBinder l
  try clear_value l
  repeat' (first | with_reducible intro _ | with_reducible assumption | with_reducible apply State.put_canon
                 | with_reducible apply State.tw_canon | with_reducible apply Canon.ite | split | dsimp only
                 | with_reducible apply Canon.mk | with_reducible apply CanonOf.of)

theorem State.divLast_canon {qs : Base} {s : State} (kind : Nat) (attrib : Bool) (sg : Sig) (hs : s.Ok qs) :
    (State.divLast s kind attrib sg).Ok qs := by
  unfold State.divLast
  repeat' (first | with_reducible intro _ | with_reducible assumption | with_reducible apply State.put_canon
                 | with_reducible apply State.putB_canon | with_reducible apply State.divsShow_canon
                 | with_reducible apply Canon.ite | split | dsimp only | with_reducible apply Canon.mk
                 | with_reducible apply CanonOf.of)

theorem State.countDiv_canon {qs : Base} {s : State} (hs : s.Ok qs) : (State.countDiv s).Ok qs := by
  unfold State.countDiv
  repeat' (first | with_reducible intro _ | with_reducible assumption | with_reducible apply State.tw_canon
                 | with_reducible apply Canon.ite | split | dsimp only | with_reducible apply Canon.mk
                 | with_reducible apply CanonOf.of)

theorem State.mismatch_canon {qs : Base} {s : State} (sg : Sig) (hs : s.Ok qs) : (State.mismatch s sg).Ok qs := by
  unfold State.mismatch
  extract_lets +onlyGivenNames -underBinder s1 own other actF stbF attrib s2
  have hs1 : s1.Ok qs := by
    unfold s1
    repeat' (first | with_reducible intro _ | with_reducible assumption | with_reducible apply State.bump_canon
                   | with_reducible apply State.raise_canon | with_reducible apply Canon.ite | split | dsimp only
                   | with_reducible apply Canon.mk | with_reducible apply CanonOf.of)
  clear_value s1
  try clear_value own
  try clear_value other
  try clear_value actF
  try clear_value stbF
  try clear_value attrib
  have hs2 : s2.Ok qs := by
    unfold s2
    repeat' (first | with_reducible intro _ | with_reducible assumption | with_reducible apply State.raise_canon
                   | with_reducible apply Canon.ite | split | dsimp only | with_reducible apply Canon.mk
                   | with_reducible apply CanonOf.of)
  clear_value s2
  with_reducible apply Canon.ite
  · repeat' (first | with_reducible intro _ | with_reducible assumption | with_reducible apply State.failJoin_canon
                   | with_reducible apply State.divLast_canon | with_reducible apply State.countDiv_canon
                   | with_reducible apply Canon.ite | split | dsimp only | with_reducible apply Canon.mk
                   | with_reducible apply CanonOf.of)
  with_reducible apply Canon.ite
  · repeat' (first | with_reducible intro _ | with_reducible assumption | with_reducible apply State.divLast_canon
                   | with_reducible apply State.countDiv_canon | with_reducible apply Canon.ite | split | dsimp only
                   | with_reducible apply Canon.mk | with_reducible apply CanonOf.of)
  extract_lets +onlyGivenNames -underBinder k
  try clear_value k
  repeat' (first | with_reducible intro _ | with_reducible assumption | with_reducible apply State.tw_canon
                 | with_reducible apply State.setT_canon | with_reducible apply State.oweSwitch_canon
                 | with_reducible apply State.divLast_canon | with_reducible apply State.countDiv_canon
                 | with_reducible apply Canon.ite | split | dsimp only | with_reducible apply Canon.mk
                 | with_reducible apply CanonOf.of)

theorem State.equalSig_canon {qs : Base} {s : State} (sg : Sig) (hs : s.Ok qs) : (State.equalSig s sg).Ok qs := by
  unfold State.equalSig
  repeat' (first | with_reducible intro _ | with_reducible assumption | with_reducible apply State.raise_canon
                 | with_reducible apply State.tw_canon | with_reducible apply State.setT_canon
                 | with_reducible apply State.hoComplete_canon | with_reducible apply Canon.ite | split | dsimp only
                 | with_reducible apply Canon.mk | with_reducible apply CanonOf.of)

theorem State.compareSigs_canon {qs : Base} {s : State} (kind count : Nat) (hs : s.Ok qs) :
    (State.compareSigs s kind count).Ok qs := by
  unfold State.compareSigs
  repeat' (first | with_reducible intro _ | with_reducible assumption | with_reducible apply State.tw_canon
                 | with_reducible apply State.mismatch_canon | with_reducible apply State.equalSig_canon
                 | with_reducible apply Canon.ite | split | dsimp only | with_reducible apply Canon.mk
                 | with_reducible apply CanonOf.of)

theorem State.formSig_canon {qs : Base} {s : State} (sg : Sig) (hs : s.Ok qs) : (State.formSig s sg).Ok qs := by
  unfold State.formSig
  extract_lets +onlyGivenNames -underBinder s1
  have hs1 : s1.Ok qs := by
    unfold s1
    repeat' (first | with_reducible intro _ | with_reducible assumption | with_reducible apply State.tw_canon
                   | with_reducible apply Canon.ite | split | dsimp only | with_reducible apply Canon.mk
                   | with_reducible apply CanonOf.of)
  clear_value s1
  repeat' (first | with_reducible intro _ | with_reducible assumption | with_reducible apply State.send_canon
                 | with_reducible apply State.compareSigs_canon | with_reducible apply Canon.ite | split | dsimp only
                 | with_reducible apply Canon.mk | with_reducible apply CanonOf.of)

theorem execSignatureRx_canon {qs : Base} (sg : Sig) (fault : Bool) (t : Nat) {s : State} (hs : s.Ok qs) : ResOk qs
    (execSignatureRx sg fault t s) := by
  unfold execSignatureRx
  extract_lets +onlyGivenNames -underBinder s0 s1
  have hs0 : s0.Ok qs := by
    unfold s0
    repeat' (first | with_reducible intro _ | with_reducible assumption | with_reducible apply State.at_canon
                   | with_reducible apply Canon.ite | split | dsimp only | with_reducible apply Canon.mk
                   | with_reducible apply CanonOf.of)
  clear_value s0
  have hs1 : s1.Ok qs := by
    unfold s1
    repeat' (first | with_reducible intro _ | with_reducible assumption | with_reducible apply State.tw_canon
                   | with_reducible apply Canon.ite | split | dsimp only | with_reducible apply Canon.mk
                   | with_reducible apply CanonOf.of)
  clear_value s1
  repeat' (first | with_reducible intro _ | with_reducible assumption | with_reducible apply ResOk.next
                 | with_reducible apply State.compareSigs_canon | with_reducible apply Canon.ite
                 | with_reducible apply ResOk.ite | split | dsimp only | with_reducible apply Canon.mk
                 | with_reducible apply CanonOf.of)

theorem State.activeLost_canon {qs : Base} {s : State} (cond : Nat) (hs : s.Ok qs) : (State.activeLost s cond).Ok qs := by
  unfold State.activeLost
  with_reducible apply Canon.ite
  · repeat' (first | with_reducible intro _ | with_reducible assumption | with_reducible apply Canon.ite | split
                   | dsimp only | with_reducible apply Canon.mk | with_reducible apply CanonOf.of)
  with_reducible apply Canon.ite
  · repeat' (first | with_reducible intro _ | with_reducible assumption | with_reducible apply State.raise_canon
                   | with_reducible apply State.tw_canon | with_reducible apply Canon.ite | split | dsimp only
                   | with_reducible apply Canon.mk | with_reducible apply CanonOf.of)
  repeat' (first | with_reducible intro _ | with_reducible assumption | with_reducible apply State.inNv_canon
                 | with_reducible apply State.raise_canon | with_reducible apply State.restart_canon
                 | with_reducible apply State.toListen_canon | with_reducible apply State.hoClose_canon
                 | with_reducible apply Canon.ite | split | dsimp only | with_reducible apply Canon.mk
                 | with_reducible apply CanonOf.of)

theorem State.failingRx_canon {qs : Base} {s : State} (hs : s.Ok qs) : (State.failingRx s).Ok qs := by
  unfold State.failingRx
  extract_lets +onlyGivenNames -underBinder s1
  have hs1 : s1.Ok qs := by
    unfold s1
    repeat' (first | with_reducible intro _ | with_reducible assumption | with_reducible apply State.tw_canon
                   | with_reducible apply Canon.ite | split | dsimp only | with_reducible apply Canon.mk
                   | with_reducible apply CanonOf.of)
  clear_value s1
  repeat' (first | with_reducible intro _ | with_reducible assumption | with_reducible apply State.activeLost_canon
                 | with_reducible apply Canon.ite | split | dsimp only | with_reducible apply Canon.mk
                 | with_reducible apply CanonOf.of)

theorem execFailingMessageSend_canon {qs : Base} (cause : Fin 4) {s : State} (hs : s.Ok qs) : ResOk qs
    (execFailingMessageSend cause s) := by
  unfold execFailingMessageSend
  repeat' (first | with_reducible intro _ | with_reducible assumption | with_reducible apply ResOk.next
                 | with_reducible apply State.sendFailing_canon | with_reducible apply Canon.ite
                 | with_reducible apply ResOk.ite | split | dsimp only | with_reducible apply Canon.mk
                 | with_reducible apply CanonOf.of)

theorem execLifeWordLost_canon {qs : Base} (t : Nat) {s : State} (hs : s.Ok qs) : ResOk qs (execLifeWordLost t s) := by
  unfold execLifeWordLost
  repeat' (first | with_reducible intro _ | with_reducible assumption | with_reducible apply ResOk.next
                 | with_reducible apply State.at_canon | with_reducible apply State.sendFailing_canon
                 | with_reducible apply State.restart_canon | with_reducible apply Canon.ite
                 | with_reducible apply ResOk.ite | split | dsimp only | with_reducible apply Canon.mk
                 | with_reducible apply CanonOf.of)

theorem State.pathUp_canon {qs : Base} {s : State} (f : Fld) (ever : Bool) (hs : s.Ok qs) :
    (State.pathUp s f ever).Ok qs := by
  unfold State.pathUp
  repeat' (first | with_reducible intro _ | with_reducible assumption | with_reducible apply State.put_canon
                 | with_reducible apply State.raise_canon | with_reducible apply Canon.ite | split | dsimp only
                 | with_reducible apply Canon.mk | with_reducible apply CanonOf.of)

theorem State.hear_canon {qs : Base} {s : State} (inListen claims : Bool) (ident : Option (List Byte)) (fox : Bool)
    (hs : s.Ok qs) : (State.hear s inListen claims ident fox).Ok qs := by
  unfold State.hear
  repeat' (first | with_reducible intro _ | with_reducible assumption | with_reducible apply State.failJoin_canon
                 | with_reducible apply State.claim_canon | with_reducible apply State.startJoin_canon
                 | with_reducible apply State.hearActive_canon | with_reducible apply Canon.ite | split | dsimp only
                 | with_reducible apply Canon.mk | with_reducible apply CanonOf.of)

theorem State.listen_canon {qs : Base} {s : State} (epoch : Nat) (hs : s.Ok qs) : (State.listen s epoch).Ok qs := by
  unfold State.listen
  repeat' (first | with_reducible intro _ | with_reducible assumption | with_reducible apply State.tw_canon
                 | with_reducible apply Canon.ite | split | dsimp only | with_reducible apply Canon.mk
                 | with_reducible apply CanonOf.of)

theorem State.noteFox_canon {qs : Base} {s : State} (w : FoxWord) (step : Nat) (hs : s.Ok qs) :
    (State.noteFox s w step).Ok qs := by
  unfold State.noteFox
  extract_lets +onlyGivenNames -underBinder s1
  have hs1 : s1.Ok qs := by
    unfold s1
    repeat' (first | with_reducible intro _ | with_reducible assumption | with_reducible apply State.tw_canon
                   | with_reducible apply State.endSuspect_canon | with_reducible apply State.pathUp_canon
                   | with_reducible apply Canon.ite | split | dsimp only | with_reducible apply Canon.mk
                   | with_reducible apply CanonOf.of)
  clear_value s1
  repeat' (first | with_reducible intro _ | with_reducible assumption | with_reducible apply State.put_canon
                 | with_reducible apply State.wrN_canon | with_reducible apply State.listen_canon
                 | with_reducible apply Canon.ite | split | dsimp only | with_reducible apply Canon.mk
                 | with_reducible apply CanonOf.of)

theorem State.followEpoch_canon {qs : Base} {s : State} (claims : Bool) (epoch : Nat) (hs : s.Ok qs) :
    (State.followEpoch s claims epoch).Ok qs := by
  unfold State.followEpoch
  repeat' (first | with_reducible intro _ | with_reducible assumption | with_reducible apply State.setEpoch_canon
                 | with_reducible apply Canon.ite | split | dsimp only | with_reducible apply Canon.mk
                 | with_reducible apply CanonOf.of)

theorem State.foxIn_canon {qs : Base} {s : State} (b : List Byte) (kinds : List Nat) (f : FoxWord → State) (hf : ∀
    (a0 : FoxWord), (f a0).Ok qs) (hs : s.Ok qs) : (State.foxIn s b kinds f).Ok qs := by
  unfold State.foxIn
  repeat' (first | with_reducible intro _ | with_reducible assumption | with_reducible apply hf
                 | with_reducible apply Canon.ite | split | dsimp only | with_reducible apply Canon.mk
                 | with_reducible apply CanonOf.of)

theorem State.partnerBack_canon {qs : Base} {s : State} (w : FoxWord) (hs : s.Ok qs) : (State.partnerBack s w).Ok qs := by
  unfold State.partnerBack
  repeat' (first | with_reducible intro _ | with_reducible assumption | with_reducible apply State.hoClose_canon
                 | with_reducible apply Canon.ite | split | dsimp only | with_reducible apply Canon.mk
                 | with_reducible apply CanonOf.of)

theorem State.foxHear_canon {qs : Base} {s : State} (w : FoxWord) (step : Nat) (hs : s.Ok qs) :
    (State.foxHear s w step).Ok qs := by
  unfold State.foxHear
  repeat' (first | with_reducible intro _ | with_reducible assumption | with_reducible apply State.seeEpoch_canon
                 | with_reducible apply State.hear_canon | with_reducible apply State.noteFox_canon
                 | with_reducible apply State.followEpoch_canon | with_reducible apply State.partnerBack_canon
                 | with_reducible apply Canon.ite | split | dsimp only | with_reducible apply Canon.mk
                 | with_reducible apply CanonOf.of)

theorem execFailingMessageRx_canon {qs : Base} (b : List Byte) (t : Nat) {s : State} (hs : s.Ok qs) : ResOk qs
    (execFailingMessageRx b t s) := by
  unfold execFailingMessageRx
  with_reducible apply ResOk.next
  repeat' (first | with_reducible intro _ | with_reducible assumption | with_reducible apply State.at_canon
                 | with_reducible apply State.twinShow_canon | with_reducible apply State.failingRx_canon
                 | with_reducible apply State.foxIn_canon | with_reducible apply State.foxHear_canon
                 | with_reducible apply Canon.ite | split | dsimp only | with_reducible apply Canon.mk
                 | with_reducible apply CanonOf.of)

theorem execFoxWordRx_canon {qs : Base} (b : List Byte) (step : Fin 6) (t : Nat) {s : State} (hs : s.Ok qs) : ResOk qs
    (execFoxWordRx b step t s) := by
  unfold execFoxWordRx
  repeat' (first | with_reducible intro _ | with_reducible assumption | with_reducible apply ResOk.next
                 | with_reducible apply State.at_canon | with_reducible apply State.twinShow_canon
                 | with_reducible apply State.foxIn_canon | with_reducible apply State.foxHear_canon
                 | with_reducible apply Canon.ite | with_reducible apply ResOk.ite | split | dsimp only
                 | with_reducible apply Canon.mk | with_reducible apply CanonOf.of)

theorem State.noteBadger_canon {qs : Base} {s : State} (flags epoch : Nat) (hs : s.Ok qs) :
    (State.noteBadger s flags epoch).Ok qs := by
  unfold State.noteBadger
  extract_lets +onlyGivenNames -underBinder s1
  have hs1 : s1.Ok qs := by
    unfold s1
    repeat' (first | with_reducible intro _ | with_reducible assumption | with_reducible apply State.tw_canon
                   | with_reducible apply State.pathUp_canon | with_reducible apply Canon.ite | split | dsimp only
                   | with_reducible apply Canon.mk | with_reducible apply CanonOf.of)
  clear_value s1
  repeat' (first | with_reducible intro _ | with_reducible assumption | with_reducible apply State.wrN_canon
                 | with_reducible apply State.listen_canon | with_reducible apply Canon.ite | split | dsimp only
                 | with_reducible apply Canon.mk | with_reducible apply CanonOf.of)

theorem State.badgerFailing_canon {qs : Base} {s : State} (flags : Nat) (hs : s.Ok qs) :
    (State.badgerFailing s flags).Ok qs := by
  unfold State.badgerFailing
  repeat' (first | with_reducible intro _ | with_reducible assumption | with_reducible apply State.failingRx_canon
                 | with_reducible apply Canon.ite | split | dsimp only | with_reducible apply Canon.mk
                 | with_reducible apply CanonOf.of)

theorem execBadgerFrameRx_canon {qs : Base} (b : List Byte) (t : Nat) {s : State} (hs : s.Ok qs) : ResOk qs
    (execBadgerFrameRx b t s) := by
  unfold execBadgerFrameRx
  with_reducible apply ResOk.next
  repeat' (first | with_reducible intro _ | with_reducible assumption | with_reducible apply State.at_canon
                 | with_reducible apply State.twinShow_canon | with_reducible apply State.seeEpoch_canon
                 | with_reducible apply State.hear_canon | with_reducible apply State.followEpoch_canon
                 | with_reducible apply State.noteBadger_canon | with_reducible apply State.badgerFailing_canon
                 | with_reducible apply Canon.ite | split | dsimp only | with_reducible apply Canon.mk
                 | with_reducible apply CanonOf.of)

theorem execFoxTick_canon {qs : Base} (t : Nat) {s : State} (hs : s.Ok qs) : ResOk qs (execFoxTick t s) := by
  unfold execFoxTick
  repeat' (first | with_reducible intro _ | with_reducible assumption | with_reducible apply ResOk.next
                 | with_reducible apply State.send_canon | with_reducible apply State.at_canon
                 | with_reducible apply Canon.ite | with_reducible apply ResOk.ite | split | dsimp only
                 | with_reducible apply Canon.mk | with_reducible apply CanonOf.of)

theorem execBadgerFrameTx_canon {qs : Base} (t : Nat) {s : State} (hs : s.Ok qs) : ResOk qs (execBadgerFrameTx t s) := by
  unfold execBadgerFrameTx
  extract_lets +onlyGivenNames -underBinder s0
  have hs0 : s0.Ok qs := by
    unfold s0
    repeat' (first | with_reducible intro _ | with_reducible assumption | with_reducible apply State.at_canon
                   | with_reducible apply Canon.ite | split | dsimp only | with_reducible apply Canon.mk
                   | with_reducible apply CanonOf.of)
  clear_value s0
  repeat' (first | with_reducible intro _ | with_reducible assumption | with_reducible apply ResOk.next
                 | with_reducible apply State.send_canon | with_reducible apply State.tw_canon
                 | with_reducible apply Canon.ite | with_reducible apply ResOk.ite | split | dsimp only
                 | with_reducible apply Canon.mk | with_reducible apply CanonOf.of)

theorem execBadgerMiss_canon {qs : Base} (t : Nat) {s : State} (hs : s.Ok qs) : ResOk qs (execBadgerMiss t s) := by
  unfold execBadgerMiss
  extract_lets +onlyGivenNames -underBinder s0
  have hs0 : s0.Ok qs := by
    unfold s0
    repeat' (first | with_reducible intro _ | with_reducible assumption | with_reducible apply State.at_canon
                   | with_reducible apply Canon.ite | split | dsimp only | with_reducible apply Canon.mk
                   | with_reducible apply CanonOf.of)
  clear_value s0
  with_reducible apply ResOk.next
  repeat' (first | with_reducible intro _ | with_reducible assumption | with_reducible apply State.put_canon
                 | with_reducible apply State.bump_canon | with_reducible apply State.raise_canon
                 | with_reducible apply State.tw_canon | with_reducible apply State.activeLost_canon
                 | with_reducible apply Canon.ite | split | dsimp only | with_reducible apply Canon.mk
                 | with_reducible apply CanonOf.of)

theorem execSuspectEntry_canon {qs : Base} (t : Nat) {s : State} (hs : s.Ok qs) : ResOk qs (execSuspectEntry t s) := by
  unfold execSuspectEntry
  extract_lets +onlyGivenNames -underBinder s0
  have hs0 : s0.Ok qs := by
    unfold s0
    repeat' (first | with_reducible intro _ | with_reducible assumption | with_reducible apply State.at_canon
                   | with_reducible apply Canon.ite | split | dsimp only | with_reducible apply Canon.mk
                   | with_reducible apply CanonOf.of)
  clear_value s0
  repeat' (first | with_reducible intro _ | with_reducible assumption | with_reducible apply ResOk.next
                 | with_reducible apply State.put_canon | with_reducible apply State.tw_canon
                 | with_reducible apply Canon.ite | with_reducible apply ResOk.ite | split | dsimp only
                 | with_reducible apply Canon.mk | with_reducible apply CanonOf.of)

theorem execListenTimeout_canon {qs : Base} (t : Nat) {s : State} (hs : s.Ok qs) : ResOk qs (execListenTimeout t s) := by
  unfold execListenTimeout
  extract_lets +onlyGivenNames -underBinder s0 heard
  have hs0 : s0.Ok qs := by
    unfold s0
    repeat' (first | with_reducible intro _ | with_reducible assumption | with_reducible apply State.at_canon
                   | with_reducible apply Canon.ite | split | dsimp only | with_reducible apply Canon.mk
                   | with_reducible apply CanonOf.of)
  clear_value s0
  try clear_value heard
  repeat' (first | with_reducible intro _ | with_reducible assumption | with_reducible apply ResOk.next
                 | with_reducible apply State.claim_canon | with_reducible apply Canon.ite
                 | with_reducible apply ResOk.ite | split | dsimp only | with_reducible apply Canon.mk
                 | with_reducible apply CanonOf.of)

theorem State.switchRecord_canon {qs : Base} {s : State} (b cause : Nat) (hs : s.Ok qs) :
    (State.switchRecord s b cause).Ok qs := by
  unfold State.switchRecord
  extract_lets +onlyGivenNames -underBinder ho
  try clear_value ho
  repeat' (first | with_reducible intro _ | with_reducible assumption | with_reducible apply State.put_canon
                 | with_reducible apply State.send_canon | with_reducible apply State.tw_canon
                 | with_reducible apply State.hoTo_canon | with_reducible apply Canon.ite | split | dsimp only
                 | with_reducible apply Canon.mk | with_reducible apply CanonOf.of)

theorem execSwitchRecordRx_canon {qs : Base} (b : List Byte) (cause : Fin 16) (t : Nat) {s : State}
    (hs : s.Ok qs) : ResOk qs (execSwitchRecordRx b cause t s) := by
  unfold execSwitchRecordRx
  repeat' (first | with_reducible intro _ | with_reducible assumption | with_reducible apply ResOk.next
                 | with_reducible apply State.at_canon | with_reducible apply State.twinShow_canon
                 | with_reducible apply State.foxIn_canon | with_reducible apply State.foxHear_canon
                 | with_reducible apply State.switchRecord_canon | with_reducible apply Canon.ite
                 | with_reducible apply ResOk.ite | split | dsimp only | with_reducible apply Canon.mk
                 | with_reducible apply CanonOf.of)

theorem State.switchAck_canon {qs : Base} {s : State} (b : Nat) (hs : s.Ok qs) : (State.switchAck s b).Ok qs := by
  unfold State.switchAck
  repeat' (first | with_reducible intro _ | with_reducible assumption | with_reducible apply State.tw_canon
                 | with_reducible apply Canon.ite | split | dsimp only | with_reducible apply Canon.mk
                 | with_reducible apply CanonOf.of)

theorem execSwitchAckRx_canon {qs : Base} (b : List Byte) (t : Nat) {s : State} (hs : s.Ok qs) : ResOk qs
    (execSwitchAckRx b t s) := by
  unfold execSwitchAckRx
  repeat' (first | with_reducible intro _ | with_reducible assumption | with_reducible apply ResOk.next
                 | with_reducible apply State.at_canon | with_reducible apply State.twinShow_canon
                 | with_reducible apply State.foxIn_canon | with_reducible apply State.foxHear_canon
                 | with_reducible apply State.switchAck_canon | with_reducible apply Canon.ite
                 | with_reducible apply ResOk.ite | split | dsimp only | with_reducible apply Canon.mk
                 | with_reducible apply CanonOf.of)

theorem execSwitchAckMissing_canon {qs : Base} (t : Nat) {s : State} (hs : s.Ok qs) : ResOk qs
    (execSwitchAckMissing t s) := by
  unfold execSwitchAckMissing
  extract_lets +onlyGivenNames -underBinder s0
  have hs0 : s0.Ok qs := by
    unfold s0
    repeat' (first | with_reducible intro _ | with_reducible assumption | with_reducible apply State.at_canon
                   | with_reducible apply Canon.ite | split | dsimp only | with_reducible apply Canon.mk
                   | with_reducible apply CanonOf.of)
  clear_value s0
  with_reducible apply ResOk.next
  repeat' (first | with_reducible intro _ | with_reducible assumption | with_reducible apply State.put_canon
                 | with_reducible apply State.raise_canon | with_reducible apply State.tw_canon
                 | with_reducible apply State.armConfirm_canon | with_reducible apply State.nameSwitch_canon
                 | with_reducible apply State.oweSwitch_canon | with_reducible apply Canon.ite | split | dsimp only
                 | with_reducible apply Canon.mk | with_reducible apply CanonOf.of)

theorem State.swap_canon {qs : Base} {s : State} (hs : s.Ok qs) : (State.swap s).Ok qs := by
  unfold State.swap
  extract_lets +onlyGivenNames -underBinder r
  try clear_value r
  repeat' (first | with_reducible intro _ | with_reducible assumption | with_reducible apply State.put_canon
                 | with_reducible apply State.raise_canon | with_reducible apply State.startSwitch_canon
                 | with_reducible apply Canon.ite | split | dsimp only | with_reducible apply Canon.mk
                 | with_reducible apply CanonOf.of)

theorem execTwnSwap_canon {qs : Base} (t : Nat) {s : State} (hs : s.Ok qs) : ResOk qs (execTwnSwap t s) := by
  unfold execTwnSwap
  repeat' (first | with_reducible intro _ | with_reducible assumption | with_reducible apply ResOk.next
                 | with_reducible apply State.at_canon | with_reducible apply State.swap_canon
                 | with_reducible apply Canon.ite | with_reducible apply ResOk.ite | split | dsimp only
                 | with_reducible apply Canon.mk | with_reducible apply CanonOf.of)

theorem State.rejoin_canon {qs : Base} {s : State} (hs : s.Ok qs) : (State.rejoin s).Ok qs := by
  unfold State.rejoin
  repeat' (first | with_reducible intro _ | with_reducible assumption | with_reducible apply State.toListen_canon
                 | with_reducible apply Canon.ite | split | dsimp only | with_reducible apply Canon.mk
                 | with_reducible apply CanonOf.of)

theorem execTwnRejoin_canon {qs : Base} {s : State} (hs : s.Ok qs) : ResOk qs (execTwnRejoin s) := by
  unfold execTwnRejoin
  repeat' (first | with_reducible intro _ | with_reducible assumption | with_reducible apply ResOk.next
                 | with_reducible apply State.rejoin_canon | with_reducible apply Canon.ite
                 | with_reducible apply ResOk.ite | split | dsimp only | with_reducible apply Canon.mk
                 | with_reducible apply CanonOf.of)

theorem execRevertExpiry_canon {qs : Base} (t : Nat) {s : State} (hs : s.Ok qs) : ResOk qs (execRevertExpiry t s) := by
  unfold execRevertExpiry
  extract_lets +onlyGivenNames -underBinder s0
  have hs0 : s0.Ok qs := by
    unfold s0
    repeat' (first | with_reducible intro _ | with_reducible assumption | with_reducible apply State.at_canon
                   | with_reducible apply State.twinShow_canon | with_reducible apply Canon.ite | split | dsimp only
                   | with_reducible apply Canon.mk | with_reducible apply CanonOf.of)
  clear_value s0
  repeat' (first | with_reducible intro _ | with_reducible assumption | with_reducible apply ResOk.next
                 | with_reducible apply State.startSwitch_canon | with_reducible apply Canon.ite
                 | with_reducible apply ResOk.ite | split | dsimp only | with_reducible apply Canon.mk
                 | with_reducible apply CanonOf.of)

theorem State.daysShow_canon {qs : Base} {s : State} (hs : s.Ok qs) : (State.daysShow s).Ok qs := by
  unfold State.daysShow
  extract_lets +onlyGivenNames -underBinder d
  try clear_value d
  repeat' (first | with_reducible intro _ | with_reducible assumption | with_reducible apply State.put_canon
                 | with_reducible apply State.tw_canon | with_reducible apply Canon.ite | split | dsimp only
                 | with_reducible apply Canon.mk | with_reducible apply CanonOf.of)

theorem execProofDue_canon {qs : Base} (t : Nat) {s : State} (hs : s.Ok qs) : ResOk qs (execProofDue t s) := by
  unfold execProofDue
  extract_lets +onlyGivenNames -underBinder s0
  have hs0 : s0.Ok qs := by
    unfold s0
    repeat' (first | with_reducible intro _ | with_reducible assumption | with_reducible apply State.at_canon
                   | with_reducible apply State.daysShow_canon | with_reducible apply Canon.ite | split | dsimp only
                   | with_reducible apply Canon.mk | with_reducible apply CanonOf.of)
  clear_value s0
  repeat' (first | with_reducible intro _ | with_reducible assumption | with_reducible apply ResOk.next
                 | with_reducible apply State.put_canon | with_reducible apply State.raise_canon
                 | with_reducible apply Canon.ite | with_reducible apply ResOk.ite | split | dsimp only
                 | with_reducible apply Canon.mk | with_reducible apply CanonOf.of)

theorem execModuleFault_canon {qs : Base} (fault : Fin 4) (t : Nat) {s : State} (hs : s.Ok qs) : ResOk qs
    (execModuleFault fault t s) := by
  unfold execModuleFault
  repeat' (first | with_reducible intro _ | with_reducible assumption | with_reducible apply ResOk.next
                 | with_reducible apply State.at_canon | with_reducible apply State.moduleFault_canon
                 | with_reducible apply Canon.ite | with_reducible apply ResOk.ite | split | dsimp only
                 | with_reducible apply Canon.mk | with_reducible apply CanonOf.of)

theorem State.foxCycle_canon {qs : Base} {s : State} (hs : s.Ok qs) : (State.foxCycle s).Ok qs := by
  unfold State.foxCycle
  with_reducible apply Canon.ite
  · repeat' (first | with_reducible intro _ | with_reducible assumption | with_reducible apply State.tw_canon
                   | with_reducible apply Canon.ite | split | dsimp only | with_reducible apply Canon.mk
                   | with_reducible apply CanonOf.of)
  extract_lets +onlyGivenNames -underBinder s1 s2 p s3 s4
  have hs1 : s1.Ok qs := by
    unfold s1
    repeat' (first | with_reducible intro _ | with_reducible assumption | with_reducible apply State.bump_canon
                   | with_reducible apply Canon.ite | split | dsimp only | with_reducible apply Canon.mk
                   | with_reducible apply CanonOf.of)
  clear_value s1
  have hs2 : s2.Ok qs := by
    unfold s2
    repeat' (first | with_reducible intro _ | with_reducible assumption | with_reducible apply State.put_canon
                   | with_reducible apply State.raise_canon | with_reducible apply Canon.ite | split | dsimp only
                   | with_reducible apply Canon.mk | with_reducible apply CanonOf.of)
  clear_value s2
  try clear_value p
  have hs3 : s3.Ok qs := by
    unfold s3
    repeat' (first | with_reducible intro _ | with_reducible assumption | with_reducible apply State.put_canon
                   | with_reducible apply State.tw_canon | with_reducible apply Canon.ite | split | dsimp only
                   | with_reducible apply Canon.mk | with_reducible apply CanonOf.of)
  clear_value s3
  have hs4 : s4.Ok qs := by
    unfold s4
    repeat' (first | with_reducible intro _ | with_reducible assumption | with_reducible apply State.twinShow_canon
                   | with_reducible apply Canon.ite | split | dsimp only | with_reducible apply Canon.mk
                   | with_reducible apply CanonOf.of)
  clear_value s4
  repeat' (first | with_reducible intro _ | with_reducible assumption | with_reducible apply State.activeLost_canon
                 | with_reducible apply Canon.ite | split | dsimp only | with_reducible apply Canon.mk
                 | with_reducible apply CanonOf.of)

theorem State.takeover_canon {qs : Base} {s : State} (hs : s.Ok qs) : (State.takeover s).Ok qs := by
  unfold State.takeover
  repeat' (first | with_reducible intro _ | with_reducible assumption | with_reducible apply State.bump_canon
                 | with_reducible apply State.tw_canon | with_reducible apply State.setT_canon
                 | with_reducible apply State.cause_canon | with_reducible apply State.setEpoch_canon
                 | with_reducible apply State.hoClose_canon | with_reducible apply State.assumeRole_canon
                 | with_reducible apply Canon.ite | split | dsimp only | with_reducible apply Canon.mk
                 | with_reducible apply CanonOf.of)

theorem State.switchOut_canon {qs : Base} {s : State} (w : Switch) (hs : s.Ok qs) : (State.switchOut s w).Ok qs := by
  unfold State.switchOut
  extract_lets +onlyGivenNames -underBinder s1 s2 s3
  have hs1 : s1.Ok qs := by
    unfold s1
    repeat' (first | with_reducible intro _ | with_reducible assumption | with_reducible apply State.tw_canon
                   | with_reducible apply Canon.ite | split | dsimp only | with_reducible apply Canon.mk
                   | with_reducible apply CanonOf.of)
  clear_value s1
  have hs2 : s2.Ok qs := by
    unfold s2
    repeat' (first | with_reducible intro _ | with_reducible assumption | with_reducible apply State.bump_canon
                   | with_reducible apply State.setT_canon | with_reducible apply State.cause_canon
                   | with_reducible apply State.dropRole_canon | with_reducible apply Canon.ite | split | dsimp only
                   | with_reducible apply Canon.mk | with_reducible apply CanonOf.of)
  clear_value s2
  have hs3 : s3.Ok qs := by
    unfold s3
    repeat' (first | with_reducible intro _ | with_reducible assumption | with_reducible apply State.raise_canon
                   | with_reducible apply State.cause_canon | with_reducible apply Canon.ite | split | dsimp only
                   | with_reducible apply Canon.mk | with_reducible apply CanonOf.of)
  clear_value s3
  repeat' (first | with_reducible intro _ | with_reducible assumption | with_reducible apply State.inNv_canon
                 | with_reducible apply State.raise_canon | with_reducible apply State.tw_canon
                 | with_reducible apply State.restartImage_canon | with_reducible apply State.hoTo_canon
                 | with_reducible apply Canon.ite | split | dsimp only | with_reducible apply Canon.mk
                 | with_reducible apply CanonOf.of)

theorem State.outgoingEnd_canon {qs : Base} {s : State} (hs : s.Ok qs) : (State.outgoingEnd s).Ok qs := by
  unfold State.outgoingEnd
  repeat' (first | with_reducible intro _ | with_reducible assumption | with_reducible apply State.tw_canon
                 | with_reducible apply State.restart_canon | with_reducible apply Canon.ite | split | dsimp only
                 | with_reducible apply Canon.mk | with_reducible apply CanonOf.of)

theorem State.switchIn_canon {qs : Base} {s : State} (w : Switch) (hs : s.Ok qs) : (State.switchIn s w).Ok qs := by
  unfold State.switchIn
  extract_lets +onlyGivenNames -underBinder s1 s2 s3
  have hs1 : s1.Ok qs := by
    unfold s1
    repeat' (first | with_reducible intro _ | with_reducible assumption | with_reducible apply State.tw_canon
                   | with_reducible apply Canon.ite | split | dsimp only | with_reducible apply Canon.mk
                   | with_reducible apply CanonOf.of)
  clear_value s1
  have hs2 : s2.Ok qs := by
    unfold s2
    repeat' (first | with_reducible intro _ | with_reducible assumption | with_reducible apply State.bump_canon
                   | with_reducible apply State.setT_canon | with_reducible apply State.cause_canon
                   | with_reducible apply State.setEpoch_canon | with_reducible apply State.assumeRole_canon
                   | with_reducible apply Canon.ite | split | dsimp only | with_reducible apply Canon.mk
                   | with_reducible apply CanonOf.of)
  clear_value s2
  have hs3 : s3.Ok qs := by
    unfold s3
    repeat' (first | with_reducible intro _ | with_reducible assumption | with_reducible apply State.raise_canon
                   | with_reducible apply State.cause_canon | with_reducible apply Canon.ite | split | dsimp only
                   | with_reducible apply Canon.mk | with_reducible apply CanonOf.of)
  clear_value s3
  repeat' (first | with_reducible intro _ | with_reducible assumption | with_reducible apply State.raise_canon
                 | with_reducible apply State.tw_canon | with_reducible apply State.hoTo_canon
                 | with_reducible apply Canon.ite | split | dsimp only | with_reducible apply Canon.mk
                 | with_reducible apply CanonOf.of)

theorem State.switchAt_canon {qs : Base} {s : State} (n : Nat) (hs : s.Ok qs) : (State.switchAt s n).Ok qs := by
  unfold State.switchAt
  repeat' (first | with_reducible intro _ | with_reducible assumption | with_reducible apply State.switchOut_canon
                 | with_reducible apply State.switchIn_canon | with_reducible apply Canon.ite | split | dsimp only
                 | with_reducible apply Canon.mk | with_reducible apply CanonOf.of)

theorem State.tieBoundary_canon {qs : Base} {s : State} (hs : s.Ok qs) : (State.tieBoundary s).Ok qs := by
  unfold State.tieBoundary
  repeat' (first | with_reducible intro _ | with_reducible assumption | with_reducible apply State.tw_canon
                 | with_reducible apply State.setEpoch_canon | with_reducible apply Canon.ite | split | dsimp only
                 | with_reducible apply Canon.mk | with_reducible apply CanonOf.of)

theorem State.twinReeval_canon {qs : Base} {s : State} (hs : s.Ok qs) : (State.twinReeval s).Ok qs := by
  unfold State.twinReeval
  repeat' (first | with_reducible intro _ | with_reducible assumption | with_reducible apply State.raise_canon
                 | with_reducible apply State.setT_canon | with_reducible apply State.startJoin_canon
                 | with_reducible apply State.divsShow_canon | with_reducible apply Canon.ite | split | dsimp only
                 | with_reducible apply Canon.mk | with_reducible apply CanonOf.of)

theorem State.joinShow_canon {qs : Base} {s : State} (hs : s.Ok qs) : (State.joinShow s).Ok qs := by
  unfold State.joinShow
  repeat' (first | with_reducible intro _ | with_reducible assumption | with_reducible apply State.put_canon
                 | with_reducible apply Canon.ite | split | dsimp only | with_reducible apply Canon.mk
                 | with_reducible apply CanonOf.of)

theorem State.twinBoundary_canon {qs : Base} {s : State} (n : Nat) (hs : s.Ok qs) : (State.twinBoundary s n).Ok qs := by
  unfold State.twinBoundary
  repeat' (first | with_reducible intro _ | with_reducible assumption | with_reducible apply State.twinShow_canon
                 | with_reducible apply State.lagsShow_canon | with_reducible apply State.joinShadow_canon
                 | with_reducible apply State.divsShow_canon | with_reducible apply State.daysShow_canon
                 | with_reducible apply State.foxCycle_canon | with_reducible apply State.takeover_canon
                 | with_reducible apply State.switchAt_canon | with_reducible apply State.tieBoundary_canon
                 | with_reducible apply State.twinReeval_canon | with_reducible apply State.joinShow_canon
                 | with_reducible apply Canon.ite | split | dsimp only | with_reducible apply Canon.mk
                 | with_reducible apply CanonOf.of)

end Sys2Proof.Machine
end

