-- ==== Sys2Proof/Laws/CanonHandover.lean ====
section
/-! SUPPORT. The canonical form is kept by the definitions of Machine/Handover.lean. -/
namespace Sys2Proof.Machine

theorem State.hoOpen_canon {qs : Base} {s : State} (slot : Nat) (first : Bool) (hs : s.Ok qs) :
    (State.hoOpen s slot first).Ok qs := by
  unfold State.hoOpen
  extract_lets +onlyGivenNames -underBinder prev s1
  try clear_value prev
  have hs1 : s1.Ok qs := by
    unfold s1
    repeat' (first | with_reducible intro _ | with_reducible assumption | with_reducible apply State.inNv_canon
                   | with_reducible apply Canon.ite | split | dsimp only | with_reducible apply Canon.mk
                   | with_reducible apply CanonOf.of)
  clear_value s1
  repeat' (first | with_reducible intro _ | with_reducible assumption | with_reducible apply State.tw_canon
                 | with_reducible apply State.showNv_canon | with_reducible apply State.twinShow_canon
                 | with_reducible apply Canon.ite | split | dsimp only | with_reducible apply Canon.mk
                 | with_reducible apply CanonOf.of)

theorem State.hoCommand_canon {qs : Base} {s : State} (slot : Nat) (partnerValid : Bool) (hs : s.Ok qs) :
    (State.hoCommand s slot partnerValid).1.Ok qs := by
  unfold State.hoCommand
  repeat' (first | with_reducible intro _ | with_reducible assumption | with_reducible apply State.send_canon
                 | with_reducible apply State.raise_canon | with_reducible apply State.ok_canon
                 | with_reducible apply State.refused_canon | with_reducible apply State.hoOpen_canon
                 | with_reducible apply Canon.ite | with_reducible apply Canon.ite1 | split | dsimp only
                 | with_reducible apply Canon.mk | with_reducible apply CanonOf.of)

theorem execHandover_canon {qs : Base} (ses : Fin 16) (req : Nat) (slot : Fin 4) (partnerValid : Bool)
    (t : Nat) {s : State} (hs : s.Ok qs) : ResOk qs (execHandover ses req slot partnerValid t s) := by
  unfold execHandover
  repeat' (first | with_reducible intro _ | with_reducible assumption | with_reducible apply ResOk.next
                 | with_reducible apply State.at_canon | with_reducible apply State.request_canon
                 | with_reducible apply State.hoCommand_canon | with_reducible apply Canon.ite
                 | with_reducible apply ResOk.ite | split | dsimp only | with_reducible apply Canon.mk
                 | with_reducible apply CanonOf.of)

theorem State.hoRestart_canon {qs : Base} {s : State} (hs : s.Ok qs) : (State.hoRestart s).Ok qs := by
  unfold State.hoRestart
  repeat' (first | with_reducible intro _ | with_reducible assumption | with_reducible apply State.imageRestart_canon
                 | with_reducible apply State.restartImage_canon | with_reducible apply Canon.ite | split | dsimp only
                 | with_reducible apply Canon.mk | with_reducible apply CanonOf.of)

theorem execHandoverStartFromActive_canon {qs : Base} (slot : Fin 4) (t : Nat) {s : State} (hs : s.Ok qs) : ResOk qs
    (execHandoverStartFromActive slot t s) := by
  unfold execHandoverStartFromActive
  extract_lets +onlyGivenNames -underBinder s0
  have hs0 : s0.Ok qs := by
    unfold s0
    repeat' (first | with_reducible intro _ | with_reducible assumption | with_reducible apply State.at_canon
                   | with_reducible apply Canon.ite | split | dsimp only | with_reducible apply Canon.mk
                   | with_reducible apply CanonOf.of)
  clear_value s0
  repeat' (first | with_reducible intro _ | with_reducible assumption | with_reducible apply ResOk.next
                 | with_reducible apply State.hoOpen_canon | with_reducible apply State.hoRestart_canon
                 | with_reducible apply Canon.ite | with_reducible apply ResOk.ite | split | dsimp only
                 | with_reducible apply Canon.mk | with_reducible apply CanonOf.of)

theorem execImageRestart_canon {qs : Base} (t : Nat) {s : State} (hs : s.Ok qs) : ResOk qs (execImageRestart t s) := by
  unfold execImageRestart
  repeat' (first | with_reducible intro _ | with_reducible assumption | with_reducible apply ResOk.next
                 | with_reducible apply State.at_canon | with_reducible apply State.hoRestart_canon
                 | with_reducible apply Canon.ite | with_reducible apply ResOk.ite | split | dsimp only
                 | with_reducible apply Canon.mk | with_reducible apply CanonOf.of)

theorem execCopyBurstStage_canon {qs : Base} (ring : Fin 16) (bytes : List Byte) {s : State} (hs : s.Ok qs) : ResOk qs
    (execCopyBurstStage ring bytes s) := by
  unfold execCopyBurstStage
  repeat' (first | with_reducible intro _ | with_reducible assumption | with_reducible apply ResOk.next
                 | with_reducible apply State.sysW_canon | with_reducible apply State.take_canon
                 | with_reducible apply State.tw_canon | with_reducible apply Canon.ite | with_reducible apply ResOk.ite
                 | with_reducible apply Canon.ite1 | split | dsimp only | with_reducible apply Canon.mk
                 | with_reducible apply CanonOf.of)

theorem State.hoBack_canon {qs : Base} {s : State} (code cause : Nat) (hs : s.Ok qs) : (State.hoBack s code cause).Ok qs := by
  unfold State.hoBack
  extract_lets +onlyGivenNames -underBinder s1
  have hs1 : s1.Ok qs := by
    unfold s1
    repeat' (first | with_reducible intro _ | with_reducible assumption | with_reducible apply State.hoReturn_canon
                   | with_reducible apply Canon.ite | split | dsimp only | with_reducible apply Canon.mk
                   | with_reducible apply CanonOf.of)
  clear_value s1
  repeat' (first | with_reducible intro _ | with_reducible assumption | with_reducible apply State.restart_canon
                 | with_reducible apply Canon.ite | split | dsimp only | with_reducible apply Canon.mk
                 | with_reducible apply CanonOf.of)

theorem execHandoverAbort_canon {qs : Base} (t : Nat) {s : State} (hs : s.Ok qs) : ResOk qs (execHandoverAbort t s) := by
  unfold execHandoverAbort
  extract_lets +onlyGivenNames -underBinder s0
  have hs0 : s0.Ok qs := by
    unfold s0
    repeat' (first | with_reducible intro _ | with_reducible assumption | with_reducible apply State.at_canon
                   | with_reducible apply Canon.ite | split | dsimp only | with_reducible apply Canon.mk
                   | with_reducible apply CanonOf.of)
  clear_value s0
  repeat' (first | with_reducible intro _ | with_reducible assumption | with_reducible apply ResOk.next
                 | with_reducible apply State.hoBack_canon | with_reducible apply Canon.ite
                 | with_reducible apply ResOk.ite | split | dsimp only | with_reducible apply Canon.mk
                 | with_reducible apply CanonOf.of)

theorem execHandoverWindowExpiry_canon {qs : Base} (t : Nat) {s : State} (hs : s.Ok qs) : ResOk qs
    (execHandoverWindowExpiry t s) := by
  unfold execHandoverWindowExpiry
  extract_lets +onlyGivenNames -underBinder s0
  have hs0 : s0.Ok qs := by
    unfold s0
    repeat' (first | with_reducible intro _ | with_reducible assumption | with_reducible apply State.at_canon
                   | with_reducible apply Canon.ite | split | dsimp only | with_reducible apply Canon.mk
                   | with_reducible apply CanonOf.of)
  clear_value s0
  repeat' (first | with_reducible intro _ | with_reducible assumption | with_reducible apply ResOk.next
                 | with_reducible apply State.inNv_canon | with_reducible apply State.hoClose_canon
                 | with_reducible apply State.hoBack_canon | with_reducible apply Canon.ite
                 | with_reducible apply ResOk.ite | split | dsimp only | with_reducible apply Canon.mk
                 | with_reducible apply CanonOf.of)

theorem State.mapPoint_canon {qs : Base} {s : State} (old : StatePatch) (types : List (Nat × Nat)) (xform o n : Nat)
    (hs : s.Ok qs) : (State.mapPoint s old types xform o n).Ok qs := by
  unfold State.mapPoint
  repeat' (first | with_reducible intro _ | with_reducible assumption | with_reducible apply State.sg_canon
                 | with_reducible apply Canon.ite | with_reducible apply Canon.ite1 | split | dsimp only
                 | with_reducible apply Canon.mk | with_reducible apply CanonOf.of)

theorem State.setPrev_canon {qs : Base} {s : State} (n : Nat) (w : Word) (hs : s.Ok qs) : (State.setPrev s n w).Ok qs := by
  unfold State.setPrev
  repeat' (first | with_reducible intro _ | with_reducible assumption | with_reducible apply State.sg_canon
                 | with_reducible apply Canon.ite | split | dsimp only | with_reducible apply Canon.mk
                 | with_reducible apply CanonOf.of)

theorem State.mapPrev_canon {qs : Base} {s : State} (old : StatePatch) (types : List (Nat × Nat)) (xform o n : Nat)
    (hs : s.Ok qs) : (State.mapPrev s old types xform o n).Ok qs := by
  unfold State.mapPrev
  repeat' (first | with_reducible intro _ | with_reducible assumption | with_reducible apply State.setPrev_canon
                 | with_reducible apply Canon.ite | with_reducible apply Canon.ite1 | split | dsimp only
                 | with_reducible apply Canon.mk | with_reducible apply CanonOf.of)

theorem State.mapSlot_canon {qs : Base} {s : State} (old : StatePatch) (o n : Nat) (hs : s.Ok qs) :
    (State.mapSlot s old o n).Ok qs := by
  unfold State.mapSlot
  extract_lets +onlyGivenNames -underBinder w s1 s2
  have hs1 : s1.Ok qs := by
    unfold s1
    repeat' (first | with_reducible intro _ | with_reducible assumption | with_reducible apply State.slotWr_canon
                   | with_reducible apply State.each_canon | with_reducible apply Canon.ite | split | dsimp only
                   | with_reducible apply Canon.mk | with_reducible apply CanonOf.of)
  clear_value s1
  have hs2 : s2.Ok qs := by
    unfold s2
    repeat' (first | with_reducible intro _ | with_reducible assumption | with_reducible apply State.put_canon
                   | with_reducible apply Canon.ite | split | dsimp only | with_reducible apply Canon.mk
                   | with_reducible apply CanonOf.of)
  clear_value s2
  repeat' (first | with_reducible intro _ | with_reducible assumption | with_reducible apply State.sl_canon
                 | with_reducible apply Canon.ite | with_reducible apply Canon.ite1 | split | dsimp only
                 | with_reducible apply Canon.mk | with_reducible apply CanonOf.of)

theorem State.mapByte_canon {qs : Base} {s : State} (old : StatePatch) (o n : Nat) (hs : s.Ok qs) :
    (State.mapByte s old o n).Ok qs := by
  unfold State.mapByte
  repeat' (first | with_reducible intro _ | with_reducible assumption | with_reducible apply State.sysW_canon
                 | with_reducible apply Canon.ite | with_reducible apply Canon.ite1 | split | dsimp only
                 | with_reducible apply Canon.mk | with_reducible apply CanonOf.of)

theorem State.mapForce_canon {qs : Base} {s : State} (old : StatePatch) (types : List (Nat × Nat)) (xform o n : Nat)
    (hs : s.Ok qs) : (State.mapForce s old types xform o n).Ok qs := by
  unfold State.mapForce
  repeat' (first | with_reducible intro _ | with_reducible assumption | with_reducible apply State.sg_canon
                 | with_reducible apply State.pforce_canon | with_reducible apply Canon.ite | split | dsimp only
                 | with_reducible apply Canon.mk | with_reducible apply CanonOf.of)

theorem State.mapEntry_canon {qs : Base} {s : State} (old : StatePatch) (types : List (Nat × Nat)) (e : MapEntry)
    (hs : s.Ok qs) : (State.mapEntry s old types e).Ok qs := by
  unfold State.mapEntry
  repeat' (first | with_reducible intro _ | with_reducible assumption | with_reducible apply State.mapPoint_canon
                 | with_reducible apply State.mapPrev_canon | with_reducible apply State.mapSlot_canon
                 | with_reducible apply State.mapByte_canon | with_reducible apply State.mapForce_canon
                 | with_reducible apply State.each_canon | with_reducible apply Canon.ite | split | dsimp only
                 | with_reducible apply Canon.mk | with_reducible apply CanonOf.of)

theorem State.mapState_canon {qs : Base} {s : State} (old : StatePatch) (types : List (Nat × Nat)) (hs : s.Ok qs) :
    (State.mapState s old types).Ok qs := by
  unfold State.mapState
  extract_lets +onlyGivenNames -underBinder s1 n s2
  have hs1 : s1.Ok qs := by
    unfold s1
    repeat' (first | with_reducible intro _ | with_reducible assumption | with_reducible apply State.sg_canon
                   | with_reducible apply State.countForces_canon | with_reducible apply State.mapEntry_canon
                   | with_reducible apply State.each_canon | with_reducible apply Canon.ite | split | dsimp only
                   | with_reducible apply Canon.mk | with_reducible apply CanonOf.of)
  clear_value s1
  try clear_value n
  have hs2 : s2.Ok qs := by
    unfold s2
    repeat' (first | with_reducible intro _ | with_reducible assumption | with_reducible apply State.raise_canon
                   | with_reducible apply Canon.ite | split | dsimp only | with_reducible apply Canon.mk
                   | with_reducible apply CanonOf.of)
  clear_value s2
  repeat' (first | with_reducible intro _ | with_reducible assumption | with_reducible apply State.setEpoch_canon
                 | with_reducible apply Canon.ite | split | dsimp only | with_reducible apply Canon.mk
                 | with_reducible apply CanonOf.of)

theorem execHandoverMappingDone_canon {qs : Base} (old : StatePatch) (types : List (Nat × Nat)) (t : Nat) {s : State}
    (hs : s.Ok qs) : ResOk qs (execHandoverMappingDone old types t s) := by
  unfold execHandoverMappingDone
  extract_lets +onlyGivenNames -underBinder s0
  have hs0 : s0.Ok qs := by
    unfold s0
    repeat' (first | with_reducible intro _ | with_reducible assumption | with_reducible apply State.at_canon
                   | with_reducible apply Canon.ite | split | dsimp only | with_reducible apply Canon.mk
                   | with_reducible apply CanonOf.of)
  clear_value s0
  with_reducible apply ResOk.next
  repeat' (first | with_reducible intro _ | with_reducible assumption | with_reducible apply State.put_canon
                 | with_reducible apply State.tw_canon | with_reducible apply State.hoTo_canon
                 | with_reducible apply State.mapState_canon | with_reducible apply Canon.ite | split | dsimp only
                 | with_reducible apply Canon.mk | with_reducible apply CanonOf.of)

theorem State.hoTick_canon {qs : Base} {s : State} (hs : s.Ok qs) : (State.hoTick s).Ok qs := by
  unfold State.hoTick
  repeat' (first | with_reducible intro _ | with_reducible assumption | with_reducible apply State.inNv_canon
                 | with_reducible apply State.tw_canon | with_reducible apply State.showNv_canon
                 | with_reducible apply Canon.ite | split | dsimp only | with_reducible apply Canon.mk
                 | with_reducible apply CanonOf.of)

theorem State.hoShadow_canon {qs : Base} {s : State} (n : Nat) (hs : s.Ok qs) : (State.hoShadow s n).Ok qs := by
  unfold State.hoShadow
  repeat' (first | with_reducible intro _ | with_reducible assumption | with_reducible apply State.send_canon
                 | with_reducible apply State.tw_canon | with_reducible apply Canon.ite | split | dsimp only
                 | with_reducible apply Canon.mk | with_reducible apply CanonOf.of)

theorem State.hoActive_canon {qs : Base} {s : State} (n : Nat) (ready : Bool) (hs : s.Ok qs) :
    (State.hoActive s n ready).Ok qs := by
  unfold State.hoActive
  repeat' (first | with_reducible intro _ | with_reducible assumption | with_reducible apply State.nameSwitch_canon
                 | with_reducible apply State.hoTo_canon | with_reducible apply Canon.ite | split | dsimp only
                 | with_reducible apply Canon.mk | with_reducible apply CanonOf.of)

theorem State.hoBoundary_canon {qs : Base} {s : State} (n : Nat) (ready : Bool) (hs : s.Ok qs) :
    (State.hoBoundary s n ready).Ok qs := by
  unfold State.hoBoundary
  repeat' (first | with_reducible intro _ | with_reducible assumption | with_reducible apply State.hoTick_canon
                 | with_reducible apply State.hoShadow_canon | with_reducible apply State.hoActive_canon
                 | with_reducible apply Canon.ite | split | dsimp only | with_reducible apply Canon.mk
                 | with_reducible apply CanonOf.of)

end Sys2Proof.Machine
end

