-- ==== Sys2Proof/Laws/CanonRouter.lean ====
section
/-! SUPPORT. The canonical form is kept by the definitions of Machine/Router.lean. -/
namespace Sys2Proof.Machine

theorem State.slowLink_canon {qs : Base} {s : State} (router output : Nat) (slow : Bool) (hs : s.Ok qs) :
    (State.slowLink s router output slow).Ok qs := by
  unfold State.slowLink
  extract_lets +onlyGivenNames -underBinder rest s1 s2
  try clear_value rest
  have hs1 : s1.Ok qs := by
    unfold s1
    repeat' (first | with_reducible intro _ | with_reducible assumption | with_reducible apply State.fb_canon
                   | with_reducible apply Canon.ite | split | dsimp only | with_reducible apply Canon.mk
                   | with_reducible apply CanonOf.of)
  clear_value s1
  have hs2 : s2.Ok qs := by
    unfold s2
    repeat' (first | with_reducible intro _ | with_reducible assumption | with_reducible apply State.putB_canon
                   | with_reducible apply Canon.ite | split | dsimp only | with_reducible apply Canon.mk
                   | with_reducible apply CanonOf.of)
  clear_value s2
  repeat' (first | with_reducible intro _ | with_reducible assumption | with_reducible apply State.setBit_canon
                 | with_reducible apply State.raise_canon | with_reducible apply Canon.ite | split | dsimp only
                 | with_reducible apply Canon.mk | with_reducible apply CanonOf.of)

theorem State.vc0Over_canon {qs : Base} {s : State} (router n : Nat) (hs : s.Ok qs) : (State.vc0Over s router n).Ok qs := by
  unfold State.vc0Over
  repeat' (first | with_reducible intro _ | with_reducible assumption | with_reducible apply State.bump_canon
                 | with_reducible apply State.raise_canon | with_reducible apply Canon.ite | split | dsimp only
                 | with_reducible apply Canon.mk | with_reducible apply CanonOf.of)

theorem execFabricWindowEnd_canon {qs : Base} (router : Fin 256) (output : Fin 5) (load : Bool) (ready : List
    (List Flit)) {s : State} (hs : s.Ok qs) : ResOk qs (execFabricWindowEnd router output load ready s) := by
  unfold execFabricWindowEnd
  extract_lets +onlyGivenNames -underBinder o
  try clear_value o
  with_reducible apply ResOk.ite
  · repeat' (first | with_reducible intro _ | with_reducible assumption | with_reducible apply ResOk.next
                   | with_reducible apply Canon.ite | with_reducible apply ResOk.ite | split | dsimp only
                   | with_reducible apply Canon.mk | with_reducible apply CanonOf.of)
  extract_lets +onlyGivenNames -underBinder s1 s2
  have hs1 : s1.Ok qs := by
    unfold s1
    repeat' (first | with_reducible intro _ | with_reducible assumption | with_reducible apply State.fb_canon
                   | with_reducible apply Canon.ite | split | dsimp only | with_reducible apply Canon.mk
                   | with_reducible apply CanonOf.of)
  clear_value s1
  have hs2 : s2.Ok qs := by
    unfold s2
    repeat' (first | with_reducible intro _ | with_reducible assumption | with_reducible apply State.slowLink_canon
                   | with_reducible apply Canon.ite | split | dsimp only | with_reducible apply Canon.mk
                   | with_reducible apply CanonOf.of)
  clear_value s2
  repeat' (first | with_reducible intro _ | with_reducible assumption | with_reducible apply ResOk.next
                 | with_reducible apply State.vc0Over_canon | with_reducible apply Canon.ite
                 | with_reducible apply ResOk.ite | split | dsimp only | with_reducible apply Canon.mk
                 | with_reducible apply CanonOf.of)

theorem State.inject_canon {qs : Base} {s : State} (e : TagUse) (hs : s.Ok qs) : (State.inject s e).Ok qs := by
  unfold State.inject
  repeat' (first | with_reducible intro _ | with_reducible assumption | with_reducible apply State.fb_canon
                 | with_reducible apply Canon.ite | split | dsimp only | with_reducible apply Canon.mk
                 | with_reducible apply CanonOf.of)

theorem State.serveWait_canon {qs : Base} {s : State} (src : Nat) (hs : s.Ok qs) : (State.serveWait s src).Ok qs := by
  unfold State.serveWait
  repeat' (first | with_reducible intro _ | with_reducible assumption | with_reducible apply State.fb_canon
                 | with_reducible apply State.inject_canon | with_reducible apply Canon.ite | split | dsimp only
                 | with_reducible apply Canon.mk | with_reducible apply CanonOf.of)

theorem State.tagFree_canon {qs : Base} {s : State} (src tag : Nat) (hs : s.Ok qs) : (State.tagFree s src tag).Ok qs := by
  unfold State.tagFree
  repeat' (first | with_reducible intro _ | with_reducible assumption | with_reducible apply State.fb_canon
                 | with_reducible apply State.serveWait_canon | with_reducible apply Canon.ite | split | dsimp only
                 | with_reducible apply Canon.mk | with_reducible apply CanonOf.of)

theorem State.tagEvent_canon {qs : Base} {s : State} (e : TagEvent) (hs : s.Ok qs) : (State.tagEvent s e).Ok qs := by
  unfold State.tagEvent
  repeat' (first | with_reducible intro _ | with_reducible assumption | with_reducible apply State.inject_canon
                 | with_reducible apply State.tagFree_canon | with_reducible apply Canon.ite | split | dsimp only
                 | with_reducible apply Canon.mk | with_reducible apply CanonOf.of)

theorem State.tagsSample_canon {qs : Base} {s : State} (hs : s.Ok qs) : (State.tagsSample s).Ok qs := by
  unfold State.tagsSample
  extract_lets +onlyGivenNames -underBinder n s1 s2
  try clear_value n
  have hs1 : s1.Ok qs := by
    unfold s1
    repeat' (first | with_reducible intro _ | with_reducible assumption | with_reducible apply State.put_canon
                   | with_reducible apply Canon.ite | split | dsimp only | with_reducible apply Canon.mk
                   | with_reducible apply CanonOf.of)
  clear_value s1
  have hs2 : s2.Ok qs := by
    unfold s2
    repeat' (first | with_reducible intro _ | with_reducible assumption | with_reducible apply State.fb_canon
                   | with_reducible apply Canon.ite | split | dsimp only | with_reducible apply Canon.mk
                   | with_reducible apply CanonOf.of)
  clear_value s2
  repeat' (first | with_reducible intro _ | with_reducible assumption | with_reducible apply State.putB_canon
                 | with_reducible apply Canon.ite | split | dsimp only | with_reducible apply Canon.mk
                 | with_reducible apply CanonOf.of)

theorem State.tagTimeout_canon {qs : Base} {s : State} (src dst tag : Nat) (hs : s.Ok qs) :
    (State.tagTimeout s src dst tag).Ok qs := by
  unfold State.tagTimeout
  repeat' (first | with_reducible intro _ | with_reducible assumption | with_reducible apply State.bump_canon
                 | with_reducible apply State.send_canon | with_reducible apply State.raise_canon
                 | with_reducible apply State.fb_canon | with_reducible apply Canon.ite | split | dsimp only
                 | with_reducible apply Canon.mk | with_reducible apply CanonOf.of)

theorem State.noIsland_canon {qs : Base} {s : State} (src router : Nat) (hs : s.Ok qs) :
    (State.noIsland s src router).Ok qs := by
  unfold State.noIsland
  repeat' (first | with_reducible intro _ | with_reducible assumption | with_reducible apply State.send_canon
                 | with_reducible apply State.raise_canon | with_reducible apply Canon.ite | split | dsimp only
                 | with_reducible apply Canon.mk | with_reducible apply CanonOf.of)

theorem execTagQuarantineEnd_canon {qs : Base} (src : Fin 256) (tag : Fin 16384) (t : Nat) {s : State}
    (hs : s.Ok qs) : ResOk qs (execTagQuarantineEnd src tag t s) := by
  unfold execTagQuarantineEnd
  extract_lets +onlyGivenNames -underBinder s0 due
  have hs0 : s0.Ok qs := by
    unfold s0
    repeat' (first | with_reducible intro _ | with_reducible assumption | with_reducible apply State.at_canon
                   | with_reducible apply Canon.ite | split | dsimp only | with_reducible apply Canon.mk
                   | with_reducible apply CanonOf.of)
  clear_value s0
  repeat' (first | with_reducible intro _ | with_reducible assumption | with_reducible apply ResOk.next
                 | with_reducible apply State.fb_canon | with_reducible apply State.serveWait_canon
                 | with_reducible apply Canon.ite | with_reducible apply ResOk.ite | split | dsimp only
                 | with_reducible apply Canon.mk | with_reducible apply CanonOf.of)

theorem execLateResponseRx_canon {qs : Base} (src : Fin 256) (tag : Fin 16384) {s : State} (hs : s.Ok qs) : ResOk qs
    (execLateResponseRx src tag s) := by
  unfold execLateResponseRx
  repeat' (first | with_reducible intro _ | with_reducible assumption | with_reducible apply ResOk.next
                 | with_reducible apply State.raise_canon | with_reducible apply Canon.ite
                 | with_reducible apply ResOk.ite | with_reducible apply Canon.ite1 | split | dsimp only
                 | with_reducible apply Canon.mk | with_reducible apply CanonOf.of)

end Sys2Proof.Machine
end

