-- ==== Sys2Proof/Laws/CanonFabric.lean ====
section
/-! SUPPORT. The canonical form is kept by the definitions of Machine/Fabric.lean. -/
namespace Sys2Proof.Machine

theorem State.setHbm_canon {qs : Base} {s : State} (c : Nat) (h : HbmChan) (hs : s.Ok qs) : (State.setHbm s c h).Ok qs := by
  unfold State.setHbm
  repeat' (first | with_reducible intro _ | with_reducible assumption | with_reducible apply State.fb_canon
                 | with_reducible apply Canon.ite | split | dsimp only | with_reducible apply Canon.mk
                 | with_reducible apply CanonOf.of)

theorem State.hbmAnswer_canon {qs : Base} {s : State} (c vc waited answered ecc : Nat) (hs : s.Ok qs) :
    (State.hbmAnswer s c vc waited answered ecc).Ok qs := by
  unfold State.hbmAnswer
  extract_lets +onlyGivenNames -underBinder _ s1 s2
  have hs1 : s1.Ok qs := by
    unfold s1
    repeat' (first | with_reducible intro _ | with_reducible assumption | with_reducible apply State.setHbm_canon
                   | with_reducible apply Canon.ite | split | dsimp only | with_reducible apply Canon.mk
                   | with_reducible apply CanonOf.of)
  clear_value s1
  have hs2 : s2.Ok qs := by
    unfold s2
    repeat' (first | with_reducible intro _ | with_reducible assumption | with_reducible apply State.raise_canon
                   | with_reducible apply Canon.ite | split | dsimp only | with_reducible apply Canon.mk
                   | with_reducible apply CanonOf.of)
  clear_value s2
  repeat' (first | with_reducible intro _ | with_reducible assumption | with_reducible apply State.put_canon
                 | with_reducible apply State.bump_canon | with_reducible apply State.raise_canon
                 | with_reducible apply State.noteFault_canon | with_reducible apply Canon.ite | split | dsimp only
                 | with_reducible apply Canon.mk | with_reducible apply CanonOf.of)

theorem State.hbmStress_canon {qs : Base} {s : State} (c : Nat) (h : HbmChan) (on : Bool) (hs : s.Ok qs) :
    (State.hbmStress s c h on).Ok qs := by
  unfold State.hbmStress
  extract_lets +onlyGivenNames -underBinder s1 s2
  have hs1 : s1.Ok qs := by
    unfold s1
    repeat' (first | with_reducible intro _ | with_reducible assumption | with_reducible apply State.setBit_canon
                   | with_reducible apply State.setHbm_canon | with_reducible apply Canon.ite | split | dsimp only
                   | with_reducible apply Canon.mk | with_reducible apply CanonOf.of)
  clear_value s1
  have hs2 : s2.Ok qs := by
    unfold s2
    repeat' (first | with_reducible intro _ | with_reducible assumption | with_reducible apply State.putB_canon
                   | with_reducible apply Canon.ite | split | dsimp only | with_reducible apply Canon.mk
                   | with_reducible apply CanonOf.of)
  clear_value s2
  repeat' (first | with_reducible intro _ | with_reducible assumption | with_reducible apply State.setBit_canon
                 | with_reducible apply State.raise_canon | with_reducible apply Canon.ite | split | dsimp only
                 | with_reducible apply Canon.mk | with_reducible apply CanonOf.of)

theorem State.stressWindow_canon {qs : Base} {s : State} (c : Nat) (h : HbmChan) (hs : s.Ok qs) :
    (State.stressWindow s c h).Ok qs := by
  unfold State.stressWindow
  extract_lets +onlyGivenNames -underBinder entry
  try clear_value entry
  repeat' (first | with_reducible intro _ | with_reducible assumption | with_reducible apply State.setHbm_canon
                 | with_reducible apply State.hbmStress_canon | with_reducible apply Canon.ite | split | dsimp only
                 | with_reducible apply Canon.mk | with_reducible apply CanonOf.of)

theorem execSramScrub_canon {qs : Base} (bank : Fin 64) (word : Fin 131072) (uncorrectable : Bool) {s : State}
    (hs : s.Ok qs) : ResOk qs (execSramScrub bank word uncorrectable s) := by
  unfold execSramScrub
  extract_lets +onlyGivenNames -underBinder a
  try clear_value a
  repeat' (first | with_reducible intro _ | with_reducible assumption | with_reducible apply ResOk.next
                 | with_reducible apply State.put_canon | with_reducible apply State.bump_canon
                 | with_reducible apply State.raise_canon | with_reducible apply State.fb_canon
                 | with_reducible apply State.noteFault_canon | with_reducible apply Canon.ite
                 | with_reducible apply ResOk.ite | split | dsimp only | with_reducible apply Canon.mk
                 | with_reducible apply CanonOf.of)

end Sys2Proof.Machine
end

