-- ==== Sys2Proof/Laws/CanonRings.lean ====
section
/-! SUPPORT. The canonical form is kept by the definitions of Machine/Rings.lean. -/
namespace Sys2Proof.Machine

theorem State.ringShow_canon {qs : Base} {s : State} (r : Nat) (hs : s.Ok qs) : (State.ringShow s r).Ok qs := by
  unfold State.ringShow
  extract_lets +onlyGivenNames -underBinder n s1
  try clear_value n
  have hs1 : s1.Ok qs := by
    unfold s1
    repeat' (first | with_reducible intro _ | with_reducible assumption | with_reducible apply State.raise_canon
                   | with_reducible apply Canon.ite | split | dsimp only | with_reducible apply Canon.mk
                   | with_reducible apply CanonOf.of)
  clear_value s1
  repeat' (first | with_reducible intro _ | with_reducible assumption | with_reducible apply State.put_canon
                 | with_reducible apply Canon.ite | split | dsimp only | with_reducible apply Canon.mk
                 | with_reducible apply CanonOf.of)

theorem State.noteRepeats_canon {qs : Base} {s : State} (rr : RingRec) (n : Nat) (hs : s.Ok qs) :
    (State.noteRepeats s rr n).Ok qs := by
  unfold State.noteRepeats
  extract_lets +onlyGivenNames -underBinder outs s1
  try clear_value outs
  have hs1 : s1.Ok qs := by
    unfold s1
    repeat' (first | with_reducible intro _ | with_reducible assumption | with_reducible apply State.ri_canon
                   | with_reducible apply Canon.foldl | with_reducible apply Canon.foldl1
                   | with_reducible apply Canon.ite | with_reducible apply Canon.ite1 | split | dsimp only
                   | with_reducible apply Canon.mk | with_reducible apply CanonOf.of)
  clear_value s1
  repeat' (first | with_reducible intro _ | with_reducible assumption | with_reducible apply State.bump_canon
                 | with_reducible apply State.raise_canon | with_reducible apply State.each_canon
                 | with_reducible apply Canon.ite | with_reducible apply Canon.ite1 | split | dsimp only
                 | with_reducible apply Canon.mk | with_reducible apply CanonOf.of)

theorem State.copyRing_canon {qs : Base} {s : State} (n r : Nat) (hs : s.Ok qs) : (State.copyRing s n r).Ok qs := by
  unfold State.copyRing
  repeat' (first | with_reducible intro _ | with_reducible assumption | with_reducible apply State.send_canon
                 | with_reducible apply State.each_canon | with_reducible apply Canon.ite
                 | with_reducible apply Canon.ite1 | split | dsimp only | with_reducible apply Canon.mk
                 | with_reducible apply CanonOf.of)

theorem State.copyLaunch_canon {qs : Base} {s : State} (n : Nat) (hs : s.Ok qs) : (State.copyLaunch s n).Ok qs := by
  unfold State.copyLaunch
  repeat' (first | with_reducible intro _ | with_reducible assumption | with_reducible apply State.copyRing_canon
                 | with_reducible apply State.each_canon | with_reducible apply Canon.ite | split | dsimp only
                 | with_reducible apply Canon.mk | with_reducible apply CanonOf.of)

theorem State.launchRing_canon {qs : Base} {s : State} (rr : RingRec) (n : Nat) (hs : s.Ok qs) :
    (State.launchRing s rr n).Ok qs := by
  unfold State.launchRing
  extract_lets +onlyGivenNames -underBinder r
  try clear_value r
  repeat' (first | with_reducible intro _ | with_reducible assumption | with_reducible apply State.send_canon
                 | with_reducible apply State.noteRepeats_canon | with_reducible apply State.copyRing_canon
                 | with_reducible apply State.each_canon | with_reducible apply Canon.ite | split | dsimp only
                 | with_reducible apply Canon.mk | with_reducible apply CanonOf.of)

theorem State.ringCycle_canon {qs : Base} {s : State} (r : Nat) (hs : s.Ok qs) : (State.ringCycle s r).Ok qs := by
  unfold State.ringCycle
  repeat' (first | with_reducible intro _ | with_reducible assumption | with_reducible apply State.putB_canon
                 | with_reducible apply State.ri_canon | with_reducible apply State.ringShow_canon
                 | with_reducible apply Canon.ite | split | dsimp only | with_reducible apply Canon.mk
                 | with_reducible apply CanonOf.of)

theorem State.ringsLaunch_canon {qs : Base} {s : State} (n : Nat) (hs : s.Ok qs) : (State.ringsLaunch s n).Ok qs := by
  unfold State.ringsLaunch
  repeat' (first | with_reducible intro _ | with_reducible assumption | with_reducible apply State.tw_canon
                 | with_reducible apply State.copyLaunch_canon | with_reducible apply State.launchRing_canon
                 | with_reducible apply State.ringCycle_canon | with_reducible apply State.each_canon
                 | with_reducible apply Canon.ite | split | dsimp only | with_reducible apply Canon.mk
                 | with_reducible apply CanonOf.of)

theorem State.setSeg_canon {qs : Base} {s : State} (r i : Nat) (g : SegState) (hs : s.Ok qs) :
    (State.setSeg s r i g).Ok qs := by
  unfold State.setSeg
  repeat' (first | with_reducible intro _ | with_reducible assumption | with_reducible apply State.ri_canon
                 | with_reducible apply Canon.ite | split | dsimp only | with_reducible apply Canon.mk
                 | with_reducible apply CanonOf.of)

theorem State.noteDiff_canon {qs : Base} {s : State} (r i : Nat) (station : Nat) (hs : s.Ok qs) :
    (State.noteDiff s r i station).Ok qs := by
  unfold State.noteDiff
  extract_lets +onlyGivenNames -underBinder g
  try clear_value g
  repeat' (first | with_reducible intro _ | with_reducible assumption | with_reducible apply State.bump_canon
                 | with_reducible apply State.total_canon | with_reducible apply State.raise_canon
                 | with_reducible apply State.setSeg_canon | with_reducible apply Canon.ite | split | dsimp only
                 | with_reducible apply Canon.mk | with_reducible apply CanonOf.of)

theorem State.sendFull_canon {qs : Base} {s : State} (r i : Nat) (a b : SegCopy) (hs : s.Ok qs) :
    (State.sendFull s r i a b).Ok qs := by
  unfold State.sendFull
  repeat' (first | with_reducible intro _ | with_reducible assumption | with_reducible apply State.send_canon
                 | with_reducible apply Canon.ite | split | dsimp only | with_reducible apply Canon.mk
                 | with_reducible apply CanonOf.of)

theorem State.tryResolve_canon {qs : Base} {s : State} (r i : Nat) (hs : s.Ok qs) : (State.tryResolve s r i).Ok qs := by
  unfold State.tryResolve
  extract_lets +onlyGivenNames -underBinder g
  try clear_value g
  repeat' (first | with_reducible intro _ | with_reducible assumption | with_reducible apply State.setSeg_canon
                 | with_reducible apply Canon.ite | split | dsimp only | with_reducible apply Canon.mk
                 | with_reducible apply CanonOf.of)

theorem State.segBoth_canon {qs : Base} {s : State} (r i station : Nat) (hs : s.Ok qs) :
    (State.segBoth s r i station).Ok qs := by
  unfold State.segBoth
  extract_lets +onlyGivenNames -underBinder g
  try clear_value g
  repeat' (first | with_reducible intro _ | with_reducible assumption | with_reducible apply State.noteDiff_canon
                 | with_reducible apply State.sendFull_canon | with_reducible apply State.tryResolve_canon
                 | with_reducible apply Canon.ite | split | dsimp only | with_reducible apply Canon.mk
                 | with_reducible apply CanonOf.of)

theorem State.setOwn_canon {qs : Base} {s : State} (n r i station : Nat) (a : SegCopy) (hs : s.Ok qs) :
    (State.setOwn s n r i station a).Ok qs := by
  unfold State.setOwn
  with_reducible apply Canon.ite
  · repeat' (first | with_reducible intro _ | with_reducible assumption | with_reducible apply Canon.ite | split
                   | dsimp only | with_reducible apply Canon.mk | with_reducible apply CanonOf.of)
  extract_lets +onlyGivenNames -underBinder _ s1 s2
  have hs1 : s1.Ok qs := by
    unfold s1
    repeat' (first | with_reducible intro _ | with_reducible assumption | with_reducible apply State.setSeg_canon
                   | with_reducible apply Canon.ite | split | dsimp only | with_reducible apply Canon.mk
                   | with_reducible apply CanonOf.of)
  clear_value s1
  have hs2 : s2.Ok qs := by
    unfold s2
    repeat' (first | with_reducible intro _ | with_reducible assumption | with_reducible apply State.send_canon
                   | with_reducible apply Canon.ite | split | dsimp only | with_reducible apply Canon.mk
                   | with_reducible apply CanonOf.of)
  clear_value s2
  repeat' (first | with_reducible intro _ | with_reducible assumption | with_reducible apply State.segBoth_canon
                 | with_reducible apply Canon.ite | split | dsimp only | with_reducible apply Canon.mk
                 | with_reducible apply CanonOf.of)

theorem State.ringHeard_canon {qs : Base} {s : State} (active : Bool) (hs : s.Ok qs) : (State.ringHeard s active).Ok qs := by
  unfold State.ringHeard
  repeat' (first | with_reducible intro _ | with_reducible assumption | with_reducible apply State.raise_canon
                 | with_reducible apply State.tw_canon | with_reducible apply Canon.ite | split | dsimp only
                 | with_reducible apply Canon.mk | with_reducible apply CanonOf.of)

theorem State.ringEpoch_canon {qs : Base} {s : State} (r epoch : Nat) (active claims : Bool) (hs : s.Ok qs) :
    (State.ringEpoch s r epoch active claims).Ok qs := by
  unfold State.ringEpoch
  extract_lets +onlyGivenNames -underBinder s1 s2
  have hs1 : s1.Ok qs := by
    unfold s1
    repeat' (first | with_reducible intro _ | with_reducible assumption | with_reducible apply State.wrN_canon
                   | with_reducible apply Canon.ite | split | dsimp only | with_reducible apply Canon.mk
                   | with_reducible apply CanonOf.of)
  clear_value s1
  have hs2 : s2.Ok qs := by
    unfold s2
    repeat' (first | with_reducible intro _ | with_reducible assumption | with_reducible apply State.put_canon
                   | with_reducible apply State.raise_canon | with_reducible apply Canon.ite | split | dsimp only
                   | with_reducible apply Canon.mk | with_reducible apply CanonOf.of)
  clear_value s2
  repeat' (first | with_reducible intro _ | with_reducible assumption | with_reducible apply State.seeEpoch_canon
                 | with_reducible apply State.listen_canon | with_reducible apply State.ringHeard_canon
                 | with_reducible apply Canon.ite | split | dsimp only | with_reducible apply Canon.mk
                 | with_reducible apply CanonOf.of)

theorem State.ringArrival_canon {qs : Base} {s : State} (r off : Nat) (hs : s.Ok qs) : (State.ringArrival s r off).Ok qs := by
  unfold State.ringArrival
  extract_lets +onlyGivenNames -underBinder a
  try clear_value a
  repeat' (first | with_reducible intro _ | with_reducible assumption | with_reducible apply State.put_canon
                 | with_reducible apply Canon.ite | split | dsimp only | with_reducible apply Canon.mk
                 | with_reducible apply CanonOf.of)

theorem State.lateFrame_canon {qs : Base} {s : State} (r off : Nat) (hs : s.Ok qs) : (State.lateFrame s r off).Ok qs := by
  unfold State.lateFrame
  repeat' (first | with_reducible intro _ | with_reducible assumption | with_reducible apply State.bump_canon
                 | with_reducible apply State.total_canon | with_reducible apply State.raise_canon
                 | with_reducible apply Canon.ite | split | dsimp only | with_reducible apply Canon.mk
                 | with_reducible apply CanonOf.of)

theorem State.takeFrame_canon {qs : Base} {s : State} (rr : RingRec) (n : Nat) (b : List Byte) (hs : s.Ok qs) :
    (State.takeFrame s rr n b).Ok qs := by
  unfold State.takeFrame
  repeat' (first | with_reducible intro _ | with_reducible assumption | with_reducible apply State.setOwn_canon
                 | with_reducible apply State.each_canon | with_reducible apply Canon.ite
                 | with_reducible apply Canon.ite1 | split | dsimp only | with_reducible apply Canon.mk
                 | with_reducible apply CanonOf.of)

theorem State.burstFrame_canon {qs : Base} {s : State} (rr : RingRec) (b : List Byte) (t : Nat) (hs : s.Ok qs) :
    (State.burstFrame s rr b t).Ok qs := by
  unfold State.burstFrame
  extract_lets +onlyGivenNames -underBinder r n off looped s1 s2
  try clear_value r
  try clear_value n
  try clear_value off
  try clear_value looped
  have hs1 : s1.Ok qs := by
    unfold s1
    repeat' (first | with_reducible intro _ | with_reducible assumption | with_reducible apply State.ri_canon
                   | with_reducible apply Canon.ite | split | dsimp only | with_reducible apply Canon.mk
                   | with_reducible apply CanonOf.of)
  clear_value s1
  have hs2 : s2.Ok qs := by
    unfold s2
    repeat' (first | with_reducible intro _ | with_reducible assumption | with_reducible apply State.ringArrival_canon
                   | with_reducible apply Canon.ite | split | dsimp only | with_reducible apply Canon.mk
                   | with_reducible apply CanonOf.of)
  clear_value s2
  with_reducible apply Canon.ite
  · repeat' (first | with_reducible intro _ | with_reducible assumption | with_reducible apply Canon.ite | split
                   | dsimp only | with_reducible apply Canon.mk | with_reducible apply CanonOf.of)
  extract_lets +onlyGivenNames -underBinder s3
  have hs3 : s3.Ok qs := by
    unfold s3
    repeat' (first | with_reducible intro _ | with_reducible assumption | with_reducible apply State.ri_canon
                   | with_reducible apply Canon.ite | split | dsimp only | with_reducible apply Canon.mk
                   | with_reducible apply CanonOf.of)
  clear_value s3
  repeat' (first | with_reducible intro _ | with_reducible assumption | with_reducible apply State.lateFrame_canon
                 | with_reducible apply State.takeFrame_canon | with_reducible apply Canon.ite | split | dsimp only
                 | with_reducible apply Canon.mk | with_reducible apply CanonOf.of)

theorem execRingFrameRx_canon {qs : Base} (ring : Fin 16) (bytes : List Byte) (t : Nat) {s : State}
    (hs : s.Ok qs) : ResOk qs (execRingFrameRx ring bytes t s) := by
  unfold execRingFrameRx
  extract_lets +onlyGivenNames -underBinder s0 r
  have hs0 : s0.Ok qs := by
    unfold s0
    repeat' (first | with_reducible intro _ | with_reducible assumption | with_reducible apply State.at_canon
                   | with_reducible apply Canon.ite | split | dsimp only | with_reducible apply Canon.mk
                   | with_reducible apply CanonOf.of)
  clear_value s0
  try clear_value r
  with_reducible apply ResOk.next
  repeat' (first | with_reducible intro _ | with_reducible assumption | with_reducible apply State.ri_canon
                 | with_reducible apply State.ringShow_canon | with_reducible apply State.ringEpoch_canon
                 | with_reducible apply State.burstFrame_canon | with_reducible apply Canon.ite | split | dsimp only
                 | with_reducible apply Canon.mk | with_reducible apply CanonOf.of)

theorem State.acycOut_canon {qs : Base} {s : State} (rr : RingRec) (f : AcycFrame) (hs : s.Ok qs) :
    (State.acycOut s rr f).Ok qs := by
  unfold State.acycOut
  repeat' (first | with_reducible intro _ | with_reducible assumption | with_reducible apply State.send_canon
                 | with_reducible apply State.ri_canon | with_reducible apply Canon.ite | split | dsimp only
                 | with_reducible apply Canon.mk | with_reducible apply CanonOf.of)

theorem State.acycAsk_canon {qs : Base} {s : State} (rr : RingRec) (f : AcycFrame) (hs : s.Ok qs) :
    (State.acycAsk s rr f).Ok qs := by
  unfold State.acycAsk
  repeat' (first | with_reducible intro _ | with_reducible assumption | with_reducible apply State.send_canon
                 | with_reducible apply State.ri_canon | with_reducible apply Canon.ite | split | dsimp only
                 | with_reducible apply Canon.mk | with_reducible apply CanonOf.of)

theorem State.acycSend_canon {qs : Base} {s : State} (rr : RingRec) (f : AcycFrame) (hs : s.Ok qs) :
    (State.acycSend s rr f).Ok qs := by
  unfold State.acycSend
  repeat' (first | with_reducible intro _ | with_reducible assumption | with_reducible apply State.ri_canon
                 | with_reducible apply State.acycOut_canon | with_reducible apply State.acycAsk_canon
                 | with_reducible apply Canon.ite | split | dsimp only | with_reducible apply Canon.mk
                 | with_reducible apply CanonOf.of)

theorem State.acycOpen_canon {qs : Base} {s : State} (rr : RingRec) (hs : s.Ok qs) : (State.acycOpen s rr).Ok qs := by
  unfold State.acycOpen
  repeat' (first | with_reducible intro _ | with_reducible assumption | with_reducible apply State.ri_canon
                 | with_reducible apply State.acycSend_canon | with_reducible apply State.each_canon
                 | with_reducible apply Canon.ite | split | dsimp only | with_reducible apply Canon.mk
                 | with_reducible apply CanonOf.of)

theorem State.ringDeadline_canon {qs : Base} {s : State} (rr : RingRec) (hs : s.Ok qs) : (State.ringDeadline s rr).Ok qs := by
  unfold State.ringDeadline
  extract_lets +onlyGivenNames -underBinder r
  try clear_value r
  with_reducible apply Canon.ite
  · repeat' (first | with_reducible intro _ | with_reducible assumption | with_reducible apply Canon.ite | split
                   | dsimp only | with_reducible apply Canon.mk | with_reducible apply CanonOf.of)
  extract_lets +onlyGivenNames -underBinder s1
  have hs1 : s1.Ok qs := by
    unfold s1
    repeat' (first | with_reducible intro _ | with_reducible assumption | with_reducible apply State.bump_canon
                   | with_reducible apply State.total_canon | with_reducible apply State.raise_canon
                   | with_reducible apply Canon.ite | split | dsimp only | with_reducible apply Canon.mk
                   | with_reducible apply CanonOf.of)
  clear_value s1
  repeat' (first | with_reducible intro _ | with_reducible assumption | with_reducible apply State.setOwn_canon
                 | with_reducible apply State.each_canon | with_reducible apply Canon.ite
                 | with_reducible apply Canon.ite1 | split | dsimp only | with_reducible apply Canon.mk
                 | with_reducible apply CanonOf.of)

theorem execRxDeadline_canon {qs : Base} (ring : Fin 16) (t : Nat) {s : State} (hs : s.Ok qs) : ResOk qs
    (execRxDeadline ring t s) := by
  unfold execRxDeadline
  extract_lets +onlyGivenNames -underBinder s0 r
  have hs0 : s0.Ok qs := by
    unfold s0
    repeat' (first | with_reducible intro _ | with_reducible assumption | with_reducible apply State.at_canon
                   | with_reducible apply Canon.ite | split | dsimp only | with_reducible apply Canon.mk
                   | with_reducible apply CanonOf.of)
  clear_value s0
  try clear_value r
  repeat' (first | with_reducible intro _ | with_reducible assumption | with_reducible apply ResOk.next
                 | with_reducible apply State.ri_canon | with_reducible apply State.acycOpen_canon
                 | with_reducible apply State.ringDeadline_canon | with_reducible apply Canon.ite
                 | with_reducible apply ResOk.ite | split | dsimp only | with_reducible apply Canon.mk
                 | with_reducible apply CanonOf.of)

theorem State.digest1_canon {qs : Base} {s : State} (d : DigestMsg) (hs : s.Ok qs) : (State.digest1 s d).Ok qs := by
  unfold State.digest1
  extract_lets +onlyGivenNames -underBinder g
  try clear_value g
  repeat' (first | with_reducible intro _ | with_reducible assumption | with_reducible apply State.setSeg_canon
                 | with_reducible apply State.segBoth_canon | with_reducible apply Canon.ite | split | dsimp only
                 | with_reducible apply Canon.mk | with_reducible apply CanonOf.of)

theorem execDigestRx_canon {qs : Base} (n : Nat) (digests : List DigestMsg) (locals : List LocalCopy)
    (t : Nat) {s : State} (hs : s.Ok qs) : ResOk qs (execDigestRx n digests locals t s) := by
  unfold execDigestRx
  extract_lets +onlyGivenNames -underBinder s0 late
  have hs0 : s0.Ok qs := by
    unfold s0
    repeat' (first | with_reducible intro _ | with_reducible assumption | with_reducible apply State.at_canon
                   | with_reducible apply Canon.ite | split | dsimp only | with_reducible apply Canon.mk
                   | with_reducible apply CanonOf.of)
  clear_value s0
  try clear_value late
  with_reducible apply ResOk.next
  with_reducible apply Canon.ite
  · repeat' (first | with_reducible intro _ | with_reducible assumption | with_reducible apply Canon.ite | split
                   | dsimp only | with_reducible apply Canon.mk | with_reducible apply CanonOf.of)
  extract_lets +onlyGivenNames -underBinder s1
  have hs1 : s1.Ok qs := by
    unfold s1
    repeat' (first | with_reducible intro _ | with_reducible assumption | with_reducible apply State.digest1_canon
                   | with_reducible apply State.each_canon | with_reducible apply Canon.ite | split | dsimp only
                   | with_reducible apply Canon.mk | with_reducible apply CanonOf.of)
  clear_value s1
  repeat' (first | with_reducible intro _ | with_reducible assumption | with_reducible apply State.lo_canon
                 | with_reducible apply Canon.ite | split | dsimp only | with_reducible apply Canon.mk
                 | with_reducible apply CanonOf.of)

theorem execSegmentCopyRx_canon {qs : Base} (ring : Fin 16) (seg n : Nat) (payload : List Byte) (t : Nat) {s : State}
    (hs : s.Ok qs) : ResOk qs (execSegmentCopyRx ring seg n payload t s) := by
  unfold execSegmentCopyRx
  extract_lets +onlyGivenNames -underBinder r s0
  try clear_value r
  have hs0 : s0.Ok qs := by
    unfold s0
    repeat' (first | with_reducible intro _ | with_reducible assumption | with_reducible apply State.at_canon
                   | with_reducible apply Canon.ite | split | dsimp only | with_reducible apply Canon.mk
                   | with_reducible apply CanonOf.of)
  clear_value s0
  with_reducible apply ResOk.next
  with_reducible apply Canon.ite
  · repeat' (first | with_reducible intro _ | with_reducible assumption | with_reducible apply Canon.ite | split
                   | dsimp only | with_reducible apply Canon.mk | with_reducible apply CanonOf.of)
  extract_lets +onlyGivenNames -underBinder g
  try clear_value g
  repeat' (first | with_reducible intro _ | with_reducible assumption | with_reducible apply State.bump_canon
                 | with_reducible apply State.setSeg_canon | with_reducible apply State.tryResolve_canon
                 | with_reducible apply Canon.ite | split | dsimp only | with_reducible apply Canon.mk
                 | with_reducible apply CanonOf.of)

theorem State.resolveOpen_canon {qs : Base} {s : State} (f : SegState → Resolution) (hs : s.Ok qs) :
    (State.resolveOpen s f).Ok qs := by
  unfold State.resolveOpen
  repeat' (first | with_reducible intro _ | with_reducible assumption | with_reducible apply State.setSeg_canon
                 | with_reducible apply State.each_canon | with_reducible apply Canon.ite
                 | with_reducible apply Canon.ite1 | split | dsimp only | with_reducible apply Canon.mk
                 | with_reducible apply CanonOf.of)

theorem execAgreementDeadline_canon {qs : Base} (t : Nat) {s : State} (hs : s.Ok qs) : ResOk qs
    (execAgreementDeadline t s) := by
  unfold execAgreementDeadline
  extract_lets +onlyGivenNames -underBinder s0
  have hs0 : s0.Ok qs := by
    unfold s0
    repeat' (first | with_reducible intro _ | with_reducible assumption | with_reducible apply State.at_canon
                   | with_reducible apply Canon.ite | split | dsimp only | with_reducible apply Canon.mk
                   | with_reducible apply CanonOf.of)
  clear_value s0
  repeat' (first | with_reducible intro _ | with_reducible assumption | with_reducible apply ResOk.next
                 | with_reducible apply State.resolveOpen_canon | with_reducible apply Canon.ite
                 | with_reducible apply ResOk.ite | split | dsimp only | with_reducible apply Canon.mk
                 | with_reducible apply CanonOf.of)

theorem execCloseRecordRx_canon {qs : Base} (n : Nat) (segs : List (Fin 16 × Nat × Resolution)) (subs : List
    (Fin 256 × Nat × SubResolution)) (locals : List (Nat × Word × Byte)) {s : State} (hs : s.Ok qs) : ResOk qs
        (execCloseRecordRx n segs subs locals s) := by
  unfold execCloseRecordRx
  with_reducible apply ResOk.next
  with_reducible apply Canon.ite
  · repeat' (first | with_reducible intro _ | with_reducible assumption | with_reducible apply Canon.ite | split
                   | dsimp only | with_reducible apply Canon.mk | with_reducible apply CanonOf.of)
  extract_lets +onlyGivenNames -underBinder s1 _ s2
  have hs1 : s1.Ok qs := by
    unfold s1
    repeat' (first | with_reducible intro _ | with_reducible assumption | with_reducible apply State.setSeg_canon
                   | with_reducible apply State.each_canon | with_reducible apply Canon.ite
                   | with_reducible apply Canon.ite1 | split | dsimp only | with_reducible apply Canon.mk
                   | with_reducible apply CanonOf.of)
  clear_value s1
  have hs2 : s2.Ok qs := by
    unfold s2
    repeat' (first | with_reducible intro _ | with_reducible assumption | with_reducible apply Canon.ite
                   | with_reducible apply Canon.ite1 | split | dsimp only | with_reducible apply Canon.mk
                   | with_reducible apply CanonOf.of)
  clear_value s2
  repeat' (first | with_reducible intro _ | with_reducible assumption | with_reducible apply State.tw_canon
                 | with_reducible apply State.lo_canon | with_reducible apply Canon.ite | split | dsimp only
                 | with_reducible apply Canon.mk | with_reducible apply CanonOf.of)

theorem execCloseRecordMissing_canon {qs : Base} (t : Nat) {s : State} (hs : s.Ok qs) : ResOk qs
    (execCloseRecordMissing t s) := by
  unfold execCloseRecordMissing
  extract_lets +onlyGivenNames -underBinder s0
  have hs0 : s0.Ok qs := by
    unfold s0
    repeat' (first | with_reducible intro _ | with_reducible assumption | with_reducible apply State.at_canon
                   | with_reducible apply Canon.ite | split | dsimp only | with_reducible apply Canon.mk
                   | with_reducible apply CanonOf.of)
  clear_value s0
  with_reducible apply ResOk.next
  repeat' (first | with_reducible intro _ | with_reducible assumption | with_reducible apply State.raise_canon
                 | with_reducible apply State.tw_canon | with_reducible apply State.lagCycle_canon
                 | with_reducible apply State.resolveOpen_canon | with_reducible apply Canon.ite | split | dsimp only
                 | with_reducible apply Canon.mk | with_reducible apply CanonOf.of)

theorem State.overNote_canon {qs : Base} {s : State} (rr : RingRec) (i : Nat) (g : SegRec) (hs : s.Ok qs) :
    (State.overNote s rr i g).Ok qs := by
  unfold State.overNote
  repeat' (first | with_reducible intro _ | with_reducible assumption | with_reducible apply State.ri_canon
                 | with_reducible apply Canon.ite | with_reducible apply Canon.ite1 | split | dsimp only
                 | with_reducible apply Canon.mk | with_reducible apply CanonOf.of)

theorem State.overSet_canon {qs : Base} {s : State} (p : Nat) (hs : s.Ok qs) : (State.overSet s p).Ok qs := by
  unfold State.overSet
  extract_lets +onlyGivenNames -underBinder x
  try clear_value x
  repeat' (first | with_reducible intro _ | with_reducible assumption | with_reducible apply State.deliver_canon
                 | with_reducible apply Canon.ite | split | dsimp only | with_reducible apply Canon.mk
                 | with_reducible apply CanonOf.of)

theorem State.inputClose_canon {qs : Base} {s : State} (rr : RingRec) (i : Nat) (g : SegRec) (hs : s.Ok qs) :
    (State.inputClose s rr i g).Ok qs := by
  unfold State.inputClose
  extract_lets +onlyGivenNames -underBinder x
  try clear_value x
  repeat' (first | with_reducible intro _ | with_reducible assumption | with_reducible apply State.deliverStale_canon
                 | with_reducible apply State.deliverMap_canon | with_reducible apply State.each_canon
                 | with_reducible apply Canon.ite | with_reducible apply Canon.ite1 | split | dsimp only
                 | with_reducible apply Canon.mk | with_reducible apply CanonOf.of)

theorem State.streamClose_canon {qs : Base} {s : State} (rr : RingRec) (k : Nat) (c : ChanRec) (hs : s.Ok qs) :
    (State.streamClose s rr k c).Ok qs := by
  unfold State.streamClose
  extract_lets +onlyGivenNames -underBinder segs s1
  try clear_value segs
  have hs1 : s1.Ok qs := by
    unfold s1
    repeat' (first | with_reducible intro _ | with_reducible assumption | with_reducible apply State.bump_canon
                   | with_reducible apply State.raise_canon | with_reducible apply State.each_canon
                   | with_reducible apply Canon.ite | split | dsimp only | with_reducible apply Canon.mk
                   | with_reducible apply CanonOf.of)
  clear_value s1
  repeat' (first | with_reducible intro _ | with_reducible assumption | with_reducible apply State.ri_canon
                 | with_reducible apply Canon.ite | split | dsimp only | with_reducible apply Canon.mk
                 | with_reducible apply CanonOf.of)

theorem State.captureOne_canon {qs : Base} {s : State} (r n : Nat) (pl : List Byte) (hs : s.Ok qs) :
    (State.captureOne s r n pl).Ok qs := by
  unfold State.captureOne
  extract_lets +onlyGivenNames -underBinder b base pos
  try clear_value b
  try clear_value base
  try clear_value pos
  with_reducible apply Canon.ite
  · repeat' (first | with_reducible intro _ | with_reducible assumption | with_reducible apply State.bump_canon
                   | with_reducible apply State.raise_canon | with_reducible apply Canon.ite | split | dsimp only
                   | with_reducible apply Canon.mk | with_reducible apply CanonOf.of)
  extract_lets +onlyGivenNames -underBinder s1
  have hs1 : s1.Ok qs := by
    unfold s1
    repeat' (first | with_reducible intro _ | with_reducible assumption | with_reducible apply State.memW_canon
                   | with_reducible apply State.take_canon | with_reducible apply State.each_canon
                   | with_reducible apply Canon.ite | split | dsimp only | with_reducible apply Canon.mk
                   | with_reducible apply CanonOf.of)
  clear_value s1
  repeat' (first | with_reducible intro _ | with_reducible assumption | with_reducible apply State.ri_canon
                 | with_reducible apply Canon.ite | split | dsimp only | with_reducible apply Canon.mk
                 | with_reducible apply CanonOf.of)

theorem State.streamCapture_canon {qs : Base} {s : State} (rr : RingRec) (n : Nat) (hs : s.Ok qs) :
    (State.streamCapture s rr n).Ok qs := by
  unfold State.streamCapture
  repeat' (first | with_reducible intro _ | with_reducible assumption | with_reducible apply State.captureOne_canon
                 | with_reducible apply State.each_canon | with_reducible apply Canon.ite
                 | with_reducible apply Canon.ite1 | split | dsimp only | with_reducible apply Canon.mk
                 | with_reducible apply CanonOf.of)

theorem State.acyclicClose_canon {qs : Base} {s : State} (r n : Nat) (hs : s.Ok qs) : (State.acyclicClose s r n).Ok qs := by
  unfold State.acyclicClose
  extract_lets +onlyGivenNames -underBinder due s1
  try clear_value due
  have hs1 : s1.Ok qs := by
    unfold s1
    repeat' (first | with_reducible intro _ | with_reducible assumption | with_reducible apply State.deliver_canon
                   | with_reducible apply State.each_canon | with_reducible apply Canon.ite
                   | with_reducible apply Canon.ite1 | split | dsimp only | with_reducible apply Canon.mk
                   | with_reducible apply CanonOf.of)
  clear_value s1
  repeat' (first | with_reducible intro _ | with_reducible assumption | with_reducible apply State.ri_canon
                 | with_reducible apply Canon.ite | with_reducible apply Canon.ite1 | split | dsimp only
                 | with_reducible apply Canon.mk | with_reducible apply CanonOf.of)

theorem State.absentClose_canon {qs : Base} {s : State} (r : Nat) (hs : s.Ok qs) : (State.absentClose s r).Ok qs := by
  unfold State.absentClose
  repeat' (first | with_reducible intro _ | with_reducible assumption | with_reducible apply State.deliverStale_canon
                 | with_reducible apply State.each_canon | with_reducible apply Canon.ite
                 | with_reducible apply Canon.ite1 | split | dsimp only | with_reducible apply Canon.mk
                 | with_reducible apply CanonOf.of)

theorem State.ringClose_canon {qs : Base} {s : State} (rr : RingRec) (n : Nat) (hs : s.Ok qs) :
    (State.ringClose s rr n).Ok qs := by
  unfold State.ringClose
  extract_lets +onlyGivenNames -underBinder due s0 named s1 s2
  try clear_value due
  have hs0 : s0.Ok qs := by
    unfold s0
    repeat' (first | with_reducible intro _ | with_reducible assumption | with_reducible apply State.overNote_canon
                   | with_reducible apply State.each_canon | with_reducible apply Canon.ite
                   | with_reducible apply Canon.ite1 | split | dsimp only | with_reducible apply Canon.mk
                   | with_reducible apply CanonOf.of)
  clear_value s0
  try clear_value named
  have hs1 : s1.Ok qs := by
    unfold s1
    repeat' (first | with_reducible intro _ | with_reducible assumption | with_reducible apply State.overSet_canon
                   | with_reducible apply State.inputClose_canon | with_reducible apply State.each_canon
                   | with_reducible apply Canon.ite | with_reducible apply Canon.ite1 | split | dsimp only
                   | with_reducible apply Canon.mk | with_reducible apply CanonOf.of)
  clear_value s1
  have hs2 : s2.Ok qs := by
    unfold s2
    repeat' (first | with_reducible intro _ | with_reducible assumption | with_reducible apply State.streamClose_canon
                   | with_reducible apply State.each_canon | with_reducible apply Canon.ite
                   | with_reducible apply Canon.ite1 | split | dsimp only | with_reducible apply Canon.mk
                   | with_reducible apply CanonOf.of)
  clear_value s2
  repeat' (first | with_reducible intro _ | with_reducible assumption | with_reducible apply State.streamCapture_canon
                 | with_reducible apply State.acyclicClose_canon | with_reducible apply State.absentClose_canon
                 | with_reducible apply Canon.ite | split | dsimp only | with_reducible apply Canon.mk
                 | with_reducible apply CanonOf.of)

theorem State.ringsClose_canon {qs : Base} {s : State} (n : Nat) (hs : s.Ok qs) : (State.ringsClose s n).Ok qs := by
  unfold State.ringsClose
  repeat' (first | with_reducible intro _ | with_reducible assumption | with_reducible apply State.ringClose_canon
                 | with_reducible apply State.each_canon | with_reducible apply Canon.ite | split | dsimp only
                 | with_reducible apply Canon.mk | with_reducible apply CanonOf.of)

theorem State.acyclicQueue_canon {qs : Base} {s : State} (r n : Nat) (pts : List (Nat × Word)) (hs : s.Ok qs) :
    (State.acyclicQueue s r n pts).Ok qs := by
  unfold State.acyclicQueue
  repeat' (first | with_reducible intro _ | with_reducible assumption | with_reducible apply State.ri_canon
                 | with_reducible apply Canon.ite | split | dsimp only | with_reducible apply Canon.mk
                 | with_reducible apply CanonOf.of)

theorem execAcyclicReplyRx_canon {qs : Base} (ring : Fin 16) (bytes : List Byte) (pts : List (Fin 256 × Nat × Word))
    (t : Nat) {s : State} (hs : s.Ok qs) : ResOk qs (execAcyclicReplyRx ring bytes pts t s) := by
  unfold execAcyclicReplyRx
  extract_lets +onlyGivenNames -underBinder s0 r n
  have hs0 : s0.Ok qs := by
    unfold s0
    repeat' (first | with_reducible intro _ | with_reducible assumption | with_reducible apply State.at_canon
                   | with_reducible apply Canon.ite | split | dsimp only | with_reducible apply Canon.mk
                   | with_reducible apply CanonOf.of)
  clear_value s0
  try clear_value r
  try clear_value n
  with_reducible apply ResOk.next
  repeat' (first | with_reducible intro _ | with_reducible assumption | with_reducible apply State.send_canon
                 | with_reducible apply State.acyclicQueue_canon | with_reducible apply Canon.ite
                 | with_reducible apply Canon.ite1 | split | dsimp only | with_reducible apply Canon.mk
                 | with_reducible apply CanonOf.of)

theorem execAcyclicReplyFromPartner_canon {qs : Base} (ring : Fin 16) (n : Nat) (pts : List (Nat × Word)) {s : State}
    (hs : s.Ok qs) : ResOk qs (execAcyclicReplyFromPartner ring n pts s) := by
  unfold execAcyclicReplyFromPartner
  repeat' (first | with_reducible intro _ | with_reducible assumption | with_reducible apply ResOk.next
                 | with_reducible apply State.acyclicQueue_canon | with_reducible apply Canon.ite
                 | with_reducible apply ResOk.ite | split | dsimp only | with_reducible apply Canon.mk
                 | with_reducible apply CanonOf.of)

theorem State.ringRelease_canon {qs : Base} {s : State} (r st : Nat) (hs : s.Ok qs) : (State.ringRelease s r st).Ok qs := by
  unfold State.ringRelease
  repeat' (first | with_reducible intro _ | with_reducible assumption | with_reducible apply State.put_canon
                 | with_reducible apply State.acycSend_canon | with_reducible apply Canon.ite | split | dsimp only
                 | with_reducible apply Canon.mk | with_reducible apply CanonOf.of)

theorem execRngRelease_canon {qs : Base} (ring : Fin 16) (station : Fin 256) {s : State} (hs : s.Ok qs) : ResOk qs
    (execRngRelease ring station s) := by
  unfold execRngRelease
  repeat' (first | with_reducible intro _ | with_reducible assumption | with_reducible apply ResOk.next
                 | with_reducible apply State.ringRelease_canon | with_reducible apply Canon.ite
                 | with_reducible apply ResOk.ite | split | dsimp only | with_reducible apply Canon.mk
                 | with_reducible apply CanonOf.of)

theorem State.scapSet_canon {qs : Base} {s : State} (r chan cluster : Nat) (run : Bool) (hs : s.Ok qs) :
    (State.scapSet s r chan cluster run).1.Ok qs := by
  unfold State.scapSet
  with_reducible apply Canon.ite1
  · repeat' (first | with_reducible intro _ | with_reducible assumption | with_reducible apply State.put_canon
                   | with_reducible apply Canon.ite | with_reducible apply Canon.ite1 | split | dsimp only
                   | with_reducible apply Canon.mk | with_reducible apply CanonOf.of)
  extract_lets +onlyGivenNames -underBinder s1
  have hs1 : s1.Ok qs := by
    unfold s1
    repeat' (first | with_reducible intro _ | with_reducible assumption | with_reducible apply State.put_canon
                   | with_reducible apply State.putB_canon | with_reducible apply Canon.ite | split | dsimp only
                   | with_reducible apply Canon.mk | with_reducible apply CanonOf.of)
  clear_value s1
  repeat' (first | with_reducible intro _ | with_reducible assumption | with_reducible apply State.ri_canon
                 | with_reducible apply Canon.ite | with_reducible apply Canon.ite1 | split | dsimp only
                 | with_reducible apply Canon.mk | with_reducible apply CanonOf.of)

theorem execRngScapRun_canon {qs : Base} (ring : Fin 16) (chan : Fin 256) (cluster : Fin 32) (run : Bool) {s : State}
    (hs : s.Ok qs) : ResOk qs (execRngScapRun ring chan cluster run s) := by
  unfold execRngScapRun
  repeat' (first | with_reducible intro _ | with_reducible assumption | with_reducible apply ResOk.next
                 | with_reducible apply State.scapSet_canon | with_reducible apply Canon.ite
                 | with_reducible apply ResOk.ite | with_reducible apply Canon.ite1 | split | dsimp only
                 | with_reducible apply Canon.mk | with_reducible apply CanonOf.of)

end Sys2Proof.Machine
end

