-- ==== Sys2Proof/Laws/CanonCensus.lean ====
section
/-! SUPPORT. The canonical form is kept by the definitions of Machine/Census.lean. -/
namespace Sys2Proof.Machine

theorem State.censusLaunch_canon {qs : Base} {s : State} (rr : RingRec) (o : CensusOrder) (hs : s.Ok qs) :
    (State.censusLaunch s rr o).Ok qs := by
  unfold State.censusLaunch
  repeat' (first | with_reducible intro _ | with_reducible assumption | with_reducible apply State.acycSend_canon
                 | with_reducible apply Canon.ite | split | dsimp only | with_reducible apply Canon.mk
                 | with_reducible apply CanonOf.of)

theorem State.censusBegin_canon {qs : Base} {s : State} (rr : RingRec) (hs : s.Ok qs) : (State.censusBegin s rr).Ok qs := by
  unfold State.censusBegin
  extract_lets +onlyGivenNames -underBinder r s1
  try clear_value r
  have hs1 : s1.Ok qs := by
    unfold s1
    repeat' (first | with_reducible intro _ | with_reducible assumption | with_reducible apply State.ri_canon
                   | with_reducible apply Canon.ite | split | dsimp only | with_reducible apply Canon.mk
                   | with_reducible apply CanonOf.of)
  clear_value s1
  repeat' (first | with_reducible intro _ | with_reducible assumption | with_reducible apply State.put_canon
                 | with_reducible apply State.censusLaunch_canon | with_reducible apply Canon.ite | split | dsimp only
                 | with_reducible apply Canon.mk | with_reducible apply CanonOf.of)

theorem execCensusStart_canon {qs : Base} (ring : Fin 16) (t : Nat) {s : State} (hs : s.Ok qs) : ResOk qs
    (execCensusStart ring t s) := by
  unfold execCensusStart
  extract_lets +onlyGivenNames -underBinder s0
  have hs0 : s0.Ok qs := by
    unfold s0
    repeat' (first | with_reducible intro _ | with_reducible assumption | with_reducible apply State.at_canon
                   | with_reducible apply Canon.ite | split | dsimp only | with_reducible apply Canon.mk
                   | with_reducible apply CanonOf.of)
  clear_value s0
  repeat' (first | with_reducible intro _ | with_reducible assumption | with_reducible apply ResOk.next
                 | with_reducible apply State.censusBegin_canon | with_reducible apply Canon.ite
                 | with_reducible apply ResOk.ite | split | dsimp only | with_reducible apply Canon.mk
                 | with_reducible apply CanonOf.of)

theorem State.censusRestart_canon {qs : Base} {s : State} (r : Nat) (hs : s.Ok qs) : (State.censusRestart s r).Ok qs := by
  unfold State.censusRestart
  extract_lets +onlyGivenNames -underBinder k
  try clear_value k
  repeat' (first | with_reducible intro _ | with_reducible assumption | with_reducible apply State.put_canon
                 | with_reducible apply State.bump_canon | with_reducible apply State.total_canon
                 | with_reducible apply State.raise_canon | with_reducible apply State.ri_canon
                 | with_reducible apply Canon.ite | split | dsimp only | with_reducible apply Canon.mk
                 | with_reducible apply CanonOf.of)

theorem execCensusFrameTimeout_canon {qs : Base} (ring : Fin 16) (t : Nat) {s : State} (hs : s.Ok qs) : ResOk qs
    (execCensusFrameTimeout ring t s) := by
  unfold execCensusFrameTimeout
  extract_lets +onlyGivenNames -underBinder s0
  have hs0 : s0.Ok qs := by
    unfold s0
    repeat' (first | with_reducible intro _ | with_reducible assumption | with_reducible apply State.at_canon
                   | with_reducible apply Canon.ite | split | dsimp only | with_reducible apply Canon.mk
                   | with_reducible apply CanonOf.of)
  clear_value s0
  repeat' (first | with_reducible intro _ | with_reducible assumption | with_reducible apply ResOk.next
                 | with_reducible apply State.censusRestart_canon | with_reducible apply Canon.ite
                 | with_reducible apply ResOk.ite | split | dsimp only | with_reducible apply Canon.mk
                 | with_reducible apply CanonOf.of)

theorem State.censusCommit_canon {qs : Base} {s : State} (rr : RingRec) (hs : s.Ok qs) : (State.censusCommit s rr).Ok qs := by
  unfold State.censusCommit
  extract_lets +onlyGivenNames -underBinder r k sch b e s1
  try clear_value r
  try clear_value k
  try clear_value sch
  try clear_value b
  try clear_value e
  have hs1 : s1.Ok qs := by
    unfold s1
    repeat' (first | with_reducible intro _ | with_reducible assumption | with_reducible apply State.ri_canon
                   | with_reducible apply Canon.ite | split | dsimp only | with_reducible apply Canon.mk
                   | with_reducible apply CanonOf.of)
  clear_value s1
  repeat' (first | with_reducible intro _ | with_reducible assumption | with_reducible apply State.put_canon
                 | with_reducible apply State.send_canon | with_reducible apply State.censusLaunch_canon
                 | with_reducible apply Canon.ite | split | dsimp only | with_reducible apply Canon.mk
                 | with_reducible apply CanonOf.of)

theorem State.censusRead_canon {qs : Base} {s : State} (rr : RingRec) (hs : s.Ok qs) : (State.censusRead s rr).Ok qs := by
  unfold State.censusRead
  extract_lets +onlyGivenNames -underBinder l s1
  try clear_value l
  have hs1 : s1.Ok qs := by
    unfold s1
    repeat' (first | with_reducible intro _ | with_reducible assumption | with_reducible apply State.ri_canon
                   | with_reducible apply Canon.ite | split | dsimp only | with_reducible apply Canon.mk
                   | with_reducible apply CanonOf.of)
  clear_value s1
  repeat' (first | with_reducible intro _ | with_reducible assumption | with_reducible apply State.censusLaunch_canon
                 | with_reducible apply State.censusCommit_canon | with_reducible apply State.each_canon
                 | with_reducible apply Canon.ite | split | dsimp only | with_reducible apply Canon.mk
                 | with_reducible apply CanonOf.of)

theorem State.startBack_canon {qs : Base} {s : State} (rr : RingRec) (partnerEnd : Bool) (entries : List CensusEntry)
    (direct : Bool) (farPort : Nat) (ends : CensusEnds) (hs : s.Ok qs) :
        (State.startBack s rr partnerEnd entries direct farPort ends).Ok qs := by
  unfold State.startBack
  extract_lets +onlyGivenNames -underBinder s1
  have hs1 : s1.Ok qs := by
    unfold s1
    repeat' (first | with_reducible intro _ | with_reducible assumption | with_reducible apply State.ri_canon
                   | with_reducible apply Canon.ite | split | dsimp only | with_reducible apply Canon.mk
                   | with_reducible apply CanonOf.of)
  clear_value s1
  repeat' (first | with_reducible intro _ | with_reducible assumption | with_reducible apply State.censusRead_canon
                 | with_reducible apply Canon.ite | split | dsimp only | with_reducible apply Canon.mk
                 | with_reducible apply CanonOf.of)

theorem State.readBack_canon {qs : Base} {s : State} (rr : RingRec) (entries : List CensusEntry) (hs : s.Ok qs) :
    (State.readBack s rr entries).Ok qs := by
  unfold State.readBack
  extract_lets +onlyGivenNames -underBinder k s1
  try clear_value k
  have hs1 : s1.Ok qs := by
    unfold s1
    repeat' (first | with_reducible intro _ | with_reducible assumption | with_reducible apply State.ri_canon
                   | with_reducible apply Canon.ite | split | dsimp only | with_reducible apply Canon.mk
                   | with_reducible apply CanonOf.of)
  clear_value s1
  repeat' (first | with_reducible intro _ | with_reducible assumption | with_reducible apply State.censusCommit_canon
                 | with_reducible apply Canon.ite | split | dsimp only | with_reducible apply Canon.mk
                 | with_reducible apply CanonOf.of)

theorem State.censusBack_canon {qs : Base} {s : State} (rr : RingRec) (kind : Nat) (partnerEnd : Bool)
    (entries : List CensusEntry) (direct : Bool) (farPort : Nat) (ends : CensusEnds) (linkChange : Bool) (hs : s.Ok qs) :
        (State.censusBack s rr kind partnerEnd entries direct farPort ends linkChange).Ok qs := by
  unfold State.censusBack
  extract_lets +onlyGivenNames -underBinder k s1
  try clear_value k
  have hs1 : s1.Ok qs := by
    unfold s1
    repeat' (first | with_reducible intro _ | with_reducible assumption | with_reducible apply State.ri_canon
                   | with_reducible apply Canon.ite | split | dsimp only | with_reducible apply Canon.mk
                   | with_reducible apply CanonOf.of)
  clear_value s1
  repeat' (first | with_reducible intro _ | with_reducible assumption | with_reducible apply State.censusRestart_canon
                 | with_reducible apply State.startBack_canon | with_reducible apply State.readBack_canon
                 | with_reducible apply Canon.ite | split | dsimp only | with_reducible apply Canon.mk
                 | with_reducible apply CanonOf.of)

theorem execCensusFrameBack_canon {qs : Base} (ring : Fin 16) (kind : Fin 4) (partnerEnd : Bool) (bytes : List Byte)
    (entries : List CensusEntry) (direct : Bool) (farPort : Fin 16) (ends : CensusEnds) (partnerFcs : Nat)
        (linkChange : Bool) (t : Nat) {s : State} (hs : s.Ok qs) : ResOk qs
            (execCensusFrameBack ring kind partnerEnd bytes entries direct farPort ends partnerFcs linkChange t s) := by
  unfold execCensusFrameBack
  extract_lets +onlyGivenNames -underBinder s0
  have hs0 : s0.Ok qs := by
    unfold s0
    repeat' (first | with_reducible intro _ | with_reducible assumption | with_reducible apply State.at_canon
                   | with_reducible apply Canon.ite | split | dsimp only | with_reducible apply Canon.mk
                   | with_reducible apply CanonOf.of)
  clear_value s0
  with_reducible apply ResOk.next
  repeat' (first | with_reducible intro _ | with_reducible assumption | with_reducible apply State.ri_canon
                 | with_reducible apply State.censusBack_canon | with_reducible apply Canon.ite | split | dsimp only
                 | with_reducible apply Canon.mk | with_reducible apply CanonOf.of)

theorem execCensusLaunchRequest_canon {qs : Base} (ring : Fin 16) (o : CensusOrder) {s : State} (hs : s.Ok qs) : ResOk qs
    (execCensusLaunchRequest ring o s) := by
  unfold execCensusLaunchRequest
  repeat' (first | with_reducible intro _ | with_reducible assumption | with_reducible apply ResOk.next
                 | with_reducible apply State.acycOut_canon | with_reducible apply Canon.ite
                 | with_reducible apply ResOk.ite | split | dsimp only | with_reducible apply Canon.mk
                 | with_reducible apply CanonOf.of)

theorem execCensusResultsFromActive_canon {qs : Base} (ring : Fin 16) (entries : List CensusEntry) (sched : Sched)
    (at_ : Nat) (endLoop : Bool) (farPort : Fin 16) (fcs other : Nat) {s : State} (hs : s.Ok qs) : ResOk qs
        (execCensusResultsFromActive ring entries sched at_ endLoop farPort fcs other s) := by
  unfold execCensusResultsFromActive
  repeat' (first | with_reducible intro _ | with_reducible assumption | with_reducible apply ResOk.next
                 | with_reducible apply State.ri_canon | with_reducible apply Canon.ite | with_reducible apply ResOk.ite
                 | split | dsimp only | with_reducible apply Canon.mk | with_reducible apply CanonOf.of)

theorem State.noiseEvent_canon {qs : Base} {s : State} (r st : Nat) (old new : Bool) (hs : s.Ok qs) :
    (State.noiseEvent s r st old new).Ok qs := by
  unfold State.noiseEvent
  repeat' (first | with_reducible intro _ | with_reducible assumption | with_reducible apply State.raise_canon
                 | with_reducible apply Canon.ite | split | dsimp only | with_reducible apply Canon.mk
                 | with_reducible apply CanonOf.of)

theorem State.noiseJudge_canon {qs : Base} {s : State} (rr : RingRec) (hs : s.Ok qs) : (State.noiseJudge s rr).Ok qs := by
  unfold State.noiseJudge
  extract_lets +onlyGivenNames -underBinder r f s1 s2
  try clear_value r
  try clear_value f
  have hs1 : s1.Ok qs := by
    unfold s1
    repeat' (first | with_reducible intro _ | with_reducible assumption | with_reducible apply State.ri_canon
                   | with_reducible apply State.noiseEvent_canon | with_reducible apply Canon.ite | split | dsimp only
                   | with_reducible apply Canon.mk | with_reducible apply CanonOf.of)
  clear_value s1
  have hs2 : s2.Ok qs := by
    unfold s2
    repeat' (first | with_reducible intro _ | with_reducible assumption | with_reducible apply State.putB_canon
                   | with_reducible apply State.ri_canon | with_reducible apply State.noiseEvent_canon
                   | with_reducible apply State.each_canon | with_reducible apply Canon.ite
                   | with_reducible apply Canon.ite1 | split | dsimp only | with_reducible apply Canon.mk
                   | with_reducible apply CanonOf.of)
  clear_value s2
  repeat' (first | with_reducible intro _ | with_reducible assumption | with_reducible apply State.putB_canon
                 | with_reducible apply Canon.ite | split | dsimp only | with_reducible apply Canon.mk
                 | with_reducible apply CanonOf.of)

theorem State.stnCounts_canon {qs : Base} {s : State} (r st : Nat) (e : CensusEntry) (hs : s.Ok qs) :
    (State.stnCounts s r st e).Ok qs := by
  unfold State.stnCounts
  repeat' (first | with_reducible intro _ | with_reducible assumption | with_reducible apply State.bump_canon
                 | with_reducible apply Canon.ite | split | dsimp only | with_reducible apply Canon.mk
                 | with_reducible apply CanonOf.of)

theorem State.stnPresent_canon {qs : Base} {s : State} (rr : RingRec) (st : StnRec) (e : CensusEntry) (hs : s.Ok qs) :
    (State.stnPresent s rr st e).Ok qs := by
  unfold State.stnPresent
  extract_lets +onlyGivenNames -underBinder r k old q worst safe loop slow laa s1 s2 s3 s4 s5 s6
  try clear_value r
  try clear_value k
  try clear_value old
  try clear_value q
  try clear_value worst
  try clear_value safe
  try clear_value loop
  try clear_value slow
  try clear_value laa
  have hs1 : s1.Ok qs := by
    unfold s1
    repeat' (first | with_reducible intro _ | with_reducible assumption | with_reducible apply State.ri_canon
                   | with_reducible apply Canon.ite | with_reducible apply Canon.ite1 | split | dsimp only
                   | with_reducible apply Canon.mk | with_reducible apply CanonOf.of)
  clear_value s1
  have hs2 : s2.Ok qs := by
    unfold s2
    repeat' (first | with_reducible intro _ | with_reducible assumption | with_reducible apply State.put_canon
                   | with_reducible apply Canon.ite | split | dsimp only | with_reducible apply Canon.mk
                   | with_reducible apply CanonOf.of)
  clear_value s2
  have hs3 : s3.Ok qs := by
    unfold s3
    repeat' (first | with_reducible intro _ | with_reducible assumption | with_reducible apply State.raise_canon
                   | with_reducible apply Canon.ite | split | dsimp only | with_reducible apply Canon.mk
                   | with_reducible apply CanonOf.of)
  clear_value s3
  have hs4 : s4.Ok qs := by
    unfold s4
    repeat' (first | with_reducible intro _ | with_reducible assumption | with_reducible apply State.raise_canon
                   | with_reducible apply Canon.ite | split | dsimp only | with_reducible apply Canon.mk
                   | with_reducible apply CanonOf.of)
  clear_value s4
  have hs5 : s5.Ok qs := by
    unfold s5
    repeat' (first | with_reducible intro _ | with_reducible assumption | with_reducible apply State.raise_canon
                   | with_reducible apply Canon.ite | split | dsimp only | with_reducible apply Canon.mk
                   | with_reducible apply CanonOf.of)
  clear_value s5
  have hs6 : s6.Ok qs := by
    unfold s6
    repeat' (first | with_reducible intro _ | with_reducible assumption | with_reducible apply State.raise_canon
                   | with_reducible apply Canon.ite | split | dsimp only | with_reducible apply Canon.mk
                   | with_reducible apply CanonOf.of)
  clear_value s6
  repeat' (first | with_reducible intro _ | with_reducible assumption | with_reducible apply State.putB_canon
                 | with_reducible apply State.stnCounts_canon | with_reducible apply Canon.ite | split | dsimp only
                 | with_reducible apply Canon.mk | with_reducible apply CanonOf.of)

theorem State.stnLost_canon {qs : Base} {s : State} (r st new code : Nat) (hs : s.Ok qs) :
    (State.stnLost s r st new code).Ok qs := by
  unfold State.stnLost
  repeat' (first | with_reducible intro _ | with_reducible assumption | with_reducible apply State.put_canon
                 | with_reducible apply State.raise_canon | with_reducible apply Canon.ite | split | dsimp only
                 | with_reducible apply Canon.mk | with_reducible apply CanonOf.of)

theorem State.stnCommit_canon {qs : Base} {s : State} (rr : RingRec) (x : StnRec × Nat) (hs : s.Ok qs) :
    (State.stnCommit s rr x).Ok qs := by
  unfold State.stnCommit
  repeat' (first | with_reducible intro _ | with_reducible assumption | with_reducible apply State.raise_canon
                 | with_reducible apply State.ri_canon | with_reducible apply State.stnPresent_canon
                 | with_reducible apply State.stnLost_canon | with_reducible apply Canon.ite
                 | with_reducible apply Canon.ite1 | split | dsimp only | with_reducible apply Canon.mk
                 | with_reducible apply CanonOf.of)

theorem State.loopCommit_canon {qs : Base} {s : State} (rr : RingRec) (hs : s.Ok qs) : (State.loopCommit s rr).Ok qs := by
  unfold State.loopCommit
  extract_lets +onlyGivenNames -underBinder r k num a b was s1
  try clear_value r
  try clear_value k
  try clear_value a
  try clear_value b
  try clear_value was
  have hs1 : s1.Ok qs := by
    unfold s1
    repeat' (first | with_reducible intro _ | with_reducible assumption | with_reducible apply State.put_canon
                   | with_reducible apply Canon.ite | split | dsimp only | with_reducible apply Canon.mk
                   | with_reducible apply CanonOf.of)
  clear_value s1
  repeat' (first | with_reducible intro _ | with_reducible assumption | with_reducible apply State.raise_canon
                 | with_reducible apply State.ri_canon | with_reducible apply Canon.ite | split | dsimp only
                 | with_reducible apply Canon.mk | with_reducible apply CanonOf.of)

theorem State.schedCommit_canon {qs : Base} {s : State} (rr : RingRec) (hs : s.Ok qs) : (State.schedCommit s rr).Ok qs := by
  unfold State.schedCommit
  extract_lets +onlyGivenNames -underBinder r c s1 s2 s3
  try clear_value r
  try clear_value c
  have hs1 : s1.Ok qs := by
    unfold s1
    repeat' (first | with_reducible intro _ | with_reducible assumption | with_reducible apply State.put_canon
                   | with_reducible apply State.ri_canon | with_reducible apply Canon.ite | split | dsimp only
                   | with_reducible apply Canon.mk | with_reducible apply CanonOf.of)
  clear_value s1
  have hs2 : s2.Ok qs := by
    unfold s2
    repeat' (first | with_reducible intro _ | with_reducible assumption | with_reducible apply State.raise_canon
                   | with_reducible apply Canon.ite | split | dsimp only | with_reducible apply Canon.mk
                   | with_reducible apply CanonOf.of)
  clear_value s2
  have hs3 : s3.Ok qs := by
    unfold s3
    repeat' (first | with_reducible intro _ | with_reducible assumption | with_reducible apply State.raise_canon
                   | with_reducible apply Canon.ite | split | dsimp only | with_reducible apply Canon.mk
                   | with_reducible apply CanonOf.of)
  clear_value s3
  repeat' (first | with_reducible intro _ | with_reducible assumption | with_reducible apply State.putB_canon
                 | with_reducible apply Canon.ite | split | dsimp only | with_reducible apply Canon.mk
                 | with_reducible apply CanonOf.of)

theorem State.ringFlags_canon {qs : Base} {s : State} (rr : RingRec) (hs : s.Ok qs) : (State.ringFlags s rr).Ok qs := by
  unfold State.ringFlags
  extract_lets +onlyGivenNames -underBinder r k st unl mis s1 s2
  try clear_value r
  try clear_value k
  try clear_value unl
  try clear_value mis
  have hs1 : s1.Ok qs := by
    unfold s1
    repeat' (first | with_reducible intro _ | with_reducible assumption | with_reducible apply State.raise_canon
                   | with_reducible apply State.each_canon | with_reducible apply Canon.ite | split | dsimp only
                   | with_reducible apply Canon.mk | with_reducible apply CanonOf.of)
  clear_value s1
  have hs2 : s2.Ok qs := by
    unfold s2
    repeat' (first | with_reducible intro _ | with_reducible assumption | with_reducible apply State.raise_canon
                   | with_reducible apply Canon.ite | split | dsimp only | with_reducible apply Canon.mk
                   | with_reducible apply CanonOf.of)
  clear_value s2
  repeat' (first | with_reducible intro _ | with_reducible assumption | with_reducible apply State.put_canon
                 | with_reducible apply State.putB_canon | with_reducible apply State.ri_canon
                 | with_reducible apply Canon.ite | split | dsimp only | with_reducible apply Canon.mk
                 | with_reducible apply CanonOf.of)

theorem State.censusApply_canon {qs : Base} {s : State} (rr : RingRec) (n : Nat) (hs : s.Ok qs) :
    (State.censusApply s rr n).Ok qs := by
  unfold State.censusApply
  extract_lets +onlyGivenNames -underBinder k
  try clear_value k
  repeat' (first | with_reducible intro _ | with_reducible assumption | with_reducible apply State.step1_canon
                 | with_reducible apply State.total_canon | with_reducible apply State.ringShow_canon
                 | with_reducible apply State.noiseJudge_canon | with_reducible apply State.stnCommit_canon
                 | with_reducible apply State.loopCommit_canon | with_reducible apply State.schedCommit_canon
                 | with_reducible apply State.ringFlags_canon | with_reducible apply State.each_canon
                 | with_reducible apply Canon.ite | split | dsimp only | with_reducible apply Canon.mk
                 | with_reducible apply CanonOf.of)

theorem State.censusBoundary_canon {qs : Base} {s : State} (n : Nat) (hs : s.Ok qs) : (State.censusBoundary s n).Ok qs := by
  unfold State.censusBoundary
  repeat' (first | with_reducible intro _ | with_reducible assumption | with_reducible apply State.censusApply_canon
                 | with_reducible apply State.each_canon | with_reducible apply Canon.ite | split | dsimp only
                 | with_reducible apply Canon.mk | with_reducible apply CanonOf.of)

theorem State.ringLink_canon {qs : Base} {s : State} (r : Nat) (up : Bool) (hs : s.Ok qs) :
    (State.ringLink s r up).Ok qs := by
  unfold State.ringLink
  with_reducible apply Canon.ite
  · repeat' (first | with_reducible intro _ | with_reducible assumption | with_reducible apply Canon.ite | split
                   | dsimp only | with_reducible apply Canon.mk | with_reducible apply CanonOf.of)
  extract_lets +onlyGivenNames -underBinder s1
  have hs1 : s1.Ok qs := by
    unfold s1
    repeat' (first | with_reducible intro _ | with_reducible assumption | with_reducible apply State.send_canon
                   | with_reducible apply State.raise_canon | with_reducible apply State.ri_canon
                   | with_reducible apply Canon.ite | split | dsimp only | with_reducible apply Canon.mk
                   | with_reducible apply CanonOf.of)
  clear_value s1
  repeat' (first | with_reducible intro _ | with_reducible assumption | with_reducible apply State.ringShow_canon
                 | with_reducible apply State.censusRestart_canon | with_reducible apply Canon.ite | split | dsimp only
                 | with_reducible apply Canon.mk | with_reducible apply CanonOf.of)

theorem execRingPortLinkChange_canon {qs : Base} (ring : Fin 16) (up : Bool) (t : Nat) {s : State}
    (hs : s.Ok qs) : ResOk qs (execRingPortLinkChange ring up t s) := by
  unfold execRingPortLinkChange
  repeat' (first | with_reducible intro _ | with_reducible assumption | with_reducible apply ResOk.next
                 | with_reducible apply State.at_canon | with_reducible apply State.ringLink_canon
                 | with_reducible apply Canon.ite | with_reducible apply ResOk.ite | split | dsimp only
                 | with_reducible apply Canon.mk | with_reducible apply CanonOf.of)

theorem execPartnerRingPortDown_canon {qs : Base} (ring : Fin 16) (up : Bool) {s : State} (hs : s.Ok qs) : ResOk qs
    (execPartnerRingPortDown ring up s) := by
  unfold execPartnerRingPortDown
  repeat' (first | with_reducible intro _ | with_reducible assumption | with_reducible apply ResOk.next
                 | with_reducible apply State.ri_canon | with_reducible apply State.ringShow_canon
                 | with_reducible apply State.censusRestart_canon | with_reducible apply Canon.ite
                 | with_reducible apply ResOk.ite | split | dsimp only | with_reducible apply Canon.mk
                 | with_reducible apply CanonOf.of)

theorem State.censusNow_canon {qs : Base} {s : State} (r : Nat) (hs : s.Ok qs) : (State.censusNow s r).Ok qs := by
  unfold State.censusNow
  repeat' (first | with_reducible intro _ | with_reducible assumption | with_reducible apply State.ri_canon
                 | with_reducible apply Canon.ite | split | dsimp only | with_reducible apply Canon.mk
                 | with_reducible apply CanonOf.of)

theorem execRngCensusNow_canon {qs : Base} (ring : Fin 16) {s : State} (hs : s.Ok qs) : ResOk qs
    (execRngCensusNow ring s) := by
  unfold execRngCensusNow
  repeat' (first | with_reducible intro _ | with_reducible assumption | with_reducible apply ResOk.next
                 | with_reducible apply State.censusNow_canon | with_reducible apply Canon.ite
                 | with_reducible apply ResOk.ite | split | dsimp only | with_reducible apply Canon.mk
                 | with_reducible apply CanonOf.of)

theorem execCensusNow_canon {qs : Base} (ses : Fin 16) (req : Nat) (ring : Fin 16) {s : State} (hs : s.Ok qs) : ResOk qs
    (execCensusNow ses req ring s) := by
  unfold execCensusNow
  repeat' (first | with_reducible intro _ | with_reducible assumption | with_reducible apply ResOk.next
                 | with_reducible apply State.ok_canon | with_reducible apply State.request_canon
                 | with_reducible apply State.censusNow_canon | with_reducible apply Canon.ite
                 | with_reducible apply ResOk.ite | split | dsimp only | with_reducible apply Canon.mk
                 | with_reducible apply CanonOf.of)

theorem execCensusRead_canon {qs : Base} (ses : Fin 16) (req : Nat) (ring : Fin 16) {s : State} (hs : s.Ok qs) : ResOk qs
    (execCensusRead ses req ring s) := by
  unfold execCensusRead
  repeat' (first | with_reducible intro _ | with_reducible assumption | with_reducible apply ResOk.next
                 | with_reducible apply State.ok_canon | with_reducible apply State.request_canon
                 | with_reducible apply Canon.ite | with_reducible apply ResOk.ite | split | dsimp only
                 | with_reducible apply Canon.mk | with_reducible apply CanonOf.of)

end Sys2Proof.Machine
end

