-- ==== Sys2Proof/Laws/CanonLines.lean ====
section
/-! SUPPORT. The canonical form is kept by the definitions of Machine/Lines.lean. -/
namespace Sys2Proof.Machine

theorem State.lineOut_canon {qs : Base} {s : State} (ports : Nat) (b : List Byte) (hs : s.Ok qs) :
    (State.lineOut s ports b).Ok qs := by
  unfold State.lineOut
  repeat' (first | with_reducible intro _ | with_reducible assumption | with_reducible apply State.send_canon
                 | with_reducible apply State.each_canon | with_reducible apply Canon.ite | split | dsimp only
                 | with_reducible apply Canon.mk | with_reducible apply CanonOf.of)

theorem State.publish_canon {qs : Base} {s : State} (p : PubRec) (n : Nat) (hs : s.Ok qs) : (State.publish s p n).Ok qs := by
  unfold State.publish
  extract_lets +onlyGivenNames -underBinder b
  try clear_value b
  repeat' (first | with_reducible intro _ | with_reducible assumption | with_reducible apply State.send_canon
                 | with_reducible apply State.lineOut_canon | with_reducible apply Canon.ite | split | dsimp only
                 | with_reducible apply Canon.mk | with_reducible apply CanonOf.of)

theorem State.publishAll_canon {qs : Base} {s : State} (n : Nat) (hs : s.Ok qs) : (State.publishAll s n).Ok qs := by
  unfold State.publishAll
  repeat' (first | with_reducible intro _ | with_reducible assumption | with_reducible apply State.publish_canon
                 | with_reducible apply State.each_canon | with_reducible apply Canon.ite | split | dsimp only
                 | with_reducible apply Canon.mk | with_reducible apply CanonOf.of)

theorem execPublicationFromActive_canon {qs : Base} (pub : Nat) (bytes : List Byte) {s : State} (hs : s.Ok qs) : ResOk qs
    (execPublicationFromActive pub bytes s) := by
  unfold execPublicationFromActive
  repeat' (first | with_reducible intro _ | with_reducible assumption | with_reducible apply ResOk.next
                 | with_reducible apply State.lineOut_canon | with_reducible apply Canon.ite
                 | with_reducible apply ResOk.ite | split | dsimp only | with_reducible apply Canon.mk
                 | with_reducible apply CanonOf.of)

theorem State.lineForward_canon {qs : Base} {s : State} (port : Nat) (frame : List Byte) (hs : s.Ok qs) :
    (State.lineForward s port frame).Ok qs := by
  unfold State.lineForward
  extract_lets +onlyGivenNames -underBinder b src pub key
  try clear_value b
  try clear_value src
  try clear_value pub
  try clear_value key
  repeat' (first | with_reducible intro _ | with_reducible assumption | with_reducible apply State.send_canon
                 | with_reducible apply State.each_canon | with_reducible apply Canon.ite | split | dsimp only
                 | with_reducible apply Canon.mk | with_reducible apply CanonOf.of)

theorem State.subTake_canon {qs : Base} {s : State} (port : Nat) (b : List Byte) (e : SubRec × Nat) (hs : s.Ok qs) :
    (State.subTake s port b e).Ok qs := by
  unfold State.subTake
  extract_lets +onlyGivenNames -underBinder n off
  try clear_value n
  try clear_value off
  with_reducible apply Canon.ite
  · repeat' (first | with_reducible intro _ | with_reducible assumption | with_reducible apply State.bump_canon
                   | with_reducible apply State.raise_canon | with_reducible apply Canon.ite
                   | with_reducible apply Canon.ite1 | split | dsimp only | with_reducible apply Canon.mk
                   | with_reducible apply CanonOf.of)
  with_reducible apply Canon.ite
  · repeat' (first | with_reducible intro _ | with_reducible assumption | with_reducible apply Canon.ite | split
                   | dsimp only | with_reducible apply Canon.mk | with_reducible apply CanonOf.of)
  extract_lets +onlyGivenNames -underBinder c
  try clear_value c
  repeat' (first | with_reducible intro _ | with_reducible assumption | with_reducible apply State.send_canon
                 | with_reducible apply State.setSub_canon | with_reducible apply Canon.ite
                 | with_reducible apply Canon.ite1 | split | dsimp only | with_reducible apply Canon.mk
                 | with_reducible apply CanonOf.of)

theorem execLineFrameRx_canon {qs : Base} (port : Fin 4) (bytes : List Byte) (t : Nat) {s : State}
    (hs : s.Ok qs) : ResOk qs (execLineFrameRx port bytes t s) := by
  unfold execLineFrameRx
  extract_lets +onlyGivenNames -underBinder s0 b
  have hs0 : s0.Ok qs := by
    unfold s0
    repeat' (first | with_reducible intro _ | with_reducible assumption | with_reducible apply State.at_canon
                   | with_reducible apply Canon.ite | split | dsimp only | with_reducible apply Canon.mk
                   | with_reducible apply CanonOf.of)
  clear_value s0
  try clear_value b
  with_reducible apply ResOk.next
  with_reducible apply Canon.ite
  · repeat' (first | with_reducible intro _ | with_reducible assumption | with_reducible apply Canon.ite | split
                   | dsimp only | with_reducible apply Canon.mk | with_reducible apply CanonOf.of)
  with_reducible apply Canon.ite
  · repeat' (first | with_reducible intro _ | with_reducible assumption | with_reducible apply State.bump_canon
                   | with_reducible apply Canon.ite | split | dsimp only | with_reducible apply Canon.mk
                   | with_reducible apply CanonOf.of)
  with_reducible apply Canon.ite
  · repeat' (first | with_reducible intro _ | with_reducible assumption | with_reducible apply Canon.ite | split
                   | dsimp only | with_reducible apply Canon.mk | with_reducible apply CanonOf.of)
  with_reducible apply Canon.ite
  · repeat' (first | with_reducible intro _ | with_reducible assumption | with_reducible apply State.bump_canon
                   | with_reducible apply Canon.ite | split | dsimp only | with_reducible apply Canon.mk
                   | with_reducible apply CanonOf.of)
  extract_lets +onlyGivenNames -underBinder src s1 s2
  try clear_value src
  have hs1 : s1.Ok qs := by
    unfold s1
    repeat' (first | with_reducible intro _ | with_reducible assumption | with_reducible apply State.seeEpoch_canon
                   | with_reducible apply Canon.ite | split | dsimp only | with_reducible apply Canon.mk
                   | with_reducible apply CanonOf.of)
  clear_value s1
  have hs2 : s2.Ok qs := by
    unfold s2
    repeat' (first | with_reducible intro _ | with_reducible assumption | with_reducible apply State.lineForward_canon
                   | with_reducible apply Canon.ite | split | dsimp only | with_reducible apply Canon.mk
                   | with_reducible apply CanonOf.of)
  clear_value s2
  repeat' (first | with_reducible intro _ | with_reducible assumption | with_reducible apply State.subTake_canon
                 | with_reducible apply State.each_canon | with_reducible apply Canon.ite
                 | with_reducible apply Canon.ite1 | split | dsimp only | with_reducible apply Canon.mk
                 | with_reducible apply CanonOf.of)

theorem State.subShow_canon {qs : Base} {s : State} (i st copies : Nat) (hs : s.Ok qs) :
    (State.subShow s i st copies).Ok qs := by
  unfold State.subShow
  extract_lets +onlyGivenNames -underBinder s1 l
  have hs1 : s1.Ok qs := by
    unfold s1
    repeat' (first | with_reducible intro _ | with_reducible assumption | with_reducible apply State.put_canon
                   | with_reducible apply Canon.ite | split | dsimp only | with_reducible apply Canon.mk
                   | with_reducible apply CanonOf.of)
  clear_value s1
  try clear_value l
  repeat' (first | with_reducible intro _ | with_reducible assumption | with_reducible apply State.putB_canon
                 | with_reducible apply Canon.ite | split | dsimp only | with_reducible apply Canon.mk
                 | with_reducible apply CanonOf.of)

theorem State.subCoupled_canon {qs : Base} {s : State} (e : SubRec) (i n : Nat) (v : List PointVal) (source : Nat)
    (diff : Bool) (copies : Nat) (hs : s.Ok qs) : (State.subCoupled s e i n v source diff copies).Ok qs := by
  unfold State.subCoupled
  extract_lets +onlyGivenNames -underBinder k ws out s1 s2
  try clear_value k
  try clear_value ws
  try clear_value out
  have hs1 : s1.Ok qs := by
    unfold s1
    repeat' (first | with_reducible intro _ | with_reducible assumption | with_reducible apply State.setSub_canon
                   | with_reducible apply Canon.ite | split | dsimp only | with_reducible apply Canon.mk
                   | with_reducible apply CanonOf.of)
  clear_value s1
  have hs2 : s2.Ok qs := by
    unfold s2
    repeat' (first | with_reducible intro _ | with_reducible assumption | with_reducible apply State.raise_canon
                   | with_reducible apply Canon.ite | split | dsimp only | with_reducible apply Canon.mk
                   | with_reducible apply CanonOf.of)
  clear_value s2
  repeat' (first | with_reducible intro _ | with_reducible assumption | with_reducible apply State.subShow_canon
                 | with_reducible apply Canon.ite | split | dsimp only | with_reducible apply Canon.mk
                 | with_reducible apply CanonOf.of)

theorem State.subMissed_canon {qs : Base} {s : State} (e : SubRec) (i n : Nat) (hs : s.Ok qs) :
    (State.subMissed s e i n).Ok qs := by
  unfold State.subMissed
  extract_lets +onlyGivenNames -underBinder k out cur s1 s2
  try clear_value k
  try clear_value out
  try clear_value cur
  have hs1 : s1.Ok qs := by
    unfold s1
    repeat' (first | with_reducible intro _ | with_reducible assumption | with_reducible apply State.take_canon
                   | with_reducible apply Canon.ite | split | dsimp only | with_reducible apply Canon.mk
                   | with_reducible apply CanonOf.of)
  clear_value s1
  have hs2 : s2.Ok qs := by
    unfold s2
    repeat' (first | with_reducible intro _ | with_reducible assumption | with_reducible apply State.setSub_canon
                   | with_reducible apply Canon.ite | split | dsimp only | with_reducible apply Canon.mk
                   | with_reducible apply CanonOf.of)
  clear_value s2
  repeat' (first | with_reducible intro _ | with_reducible assumption | with_reducible apply State.bump_canon
                 | with_reducible apply State.subShow_canon | with_reducible apply Canon.ite | split | dsimp only
                 | with_reducible apply Canon.mk | with_reducible apply CanonOf.of)

theorem State.subJudge_canon {qs : Base} {s : State} (e : SubRec) (i n : Nat) (r : SubResolution) (hs : s.Ok qs) :
    (State.subJudge s e i n r).Ok qs := by
  unfold State.subJudge
  extract_lets +onlyGivenNames -underBinder s1
  have hs1 : s1.Ok qs := by
    unfold s1
    repeat' (first | with_reducible intro _ | with_reducible assumption | with_reducible apply State.subCoupled_canon
                   | with_reducible apply State.subMissed_canon | with_reducible apply Canon.ite | split | dsimp only
                   | with_reducible apply Canon.mk | with_reducible apply CanonOf.of)
  clear_value s1
  repeat' (first | with_reducible intro _ | with_reducible assumption | with_reducible apply State.setSub_canon
                 | with_reducible apply Canon.ite | split | dsimp only | with_reducible apply Canon.mk
                 | with_reducible apply CanonOf.of)

theorem execCouplingDeadline_canon {qs : Base} (sub : Fin 256) (n : Nat) (partner : PartnerCopy) (t : Nat) {s : State}
    (hs : s.Ok qs) : ResOk qs (execCouplingDeadline sub n partner t s) := by
  unfold execCouplingDeadline
  extract_lets +onlyGivenNames -underBinder s0
  have hs0 : s0.Ok qs := by
    unfold s0
    repeat' (first | with_reducible intro _ | with_reducible assumption | with_reducible apply State.at_canon
                   | with_reducible apply Canon.ite | split | dsimp only | with_reducible apply Canon.mk
                   | with_reducible apply CanonOf.of)
  clear_value s0
  with_reducible apply ResOk.next
  repeat' (first | with_reducible intro _ | with_reducible assumption | with_reducible apply State.subJudge_canon
                 | with_reducible apply Canon.ite | split | dsimp only | with_reducible apply Canon.mk
                 | with_reducible apply CanonOf.of)

theorem State.takeRuling_canon {qs : Base} {s : State} (x : Nat × Nat × SubResolution) (hs : s.Ok qs) :
    (State.takeRuling s x).Ok qs := by
  unfold State.takeRuling
  repeat' (first | with_reducible intro _ | with_reducible assumption | with_reducible apply State.setSub_canon
                 | with_reducible apply State.subJudge_canon | with_reducible apply Canon.ite
                 | with_reducible apply Canon.ite1 | split | dsimp only | with_reducible apply Canon.mk
                 | with_reducible apply CanonOf.of)

theorem execLinkDecouple_canon {qs : Base} (sub : Fin 256) {s : State} (hs : s.Ok qs) : ResOk qs
    (execLinkDecouple sub s) := by
  unfold execLinkDecouple
  repeat' (first | with_reducible intro _ | with_reducible assumption | with_reducible apply ResOk.next
                 | with_reducible apply State.raise_canon | with_reducible apply State.subShow_canon
                 | with_reducible apply Canon.ite | with_reducible apply ResOk.ite | split | dsimp only
                 | with_reducible apply Canon.mk | with_reducible apply CanonOf.of)

theorem State.linesClose_canon {qs : Base} {s0 : State} (n : Nat) (hs : s0.Ok qs) : (State.linesClose s0 n).Ok qs := by
  unfold State.linesClose
  extract_lets +onlyGivenNames -underBinder s1 _ s
  have hs1 : s1.Ok qs := by
    unfold s1
    repeat' (first | with_reducible intro _ | with_reducible assumption | with_reducible apply State.takeRuling_canon
                   | with_reducible apply State.each_canon | with_reducible apply Canon.ite | split | dsimp only
                   | with_reducible apply Canon.mk | with_reducible apply CanonOf.of)
  clear_value s1
  repeat' (first | with_reducible intro _ | with_reducible assumption | with_reducible apply State.setSub_canon
                 | with_reducible apply State.deliver_canon | with_reducible apply State.deliverStale_canon
                 | with_reducible apply State.each_canon | with_reducible apply Canon.ite
                 | with_reducible apply Canon.ite1 | split | dsimp only | with_reducible apply Canon.mk
                 | with_reducible apply CanonOf.of)

theorem State.lineLink_canon {qs : Base} {s : State} (p : Nat) (up : Bool) (hs : s.Ok qs) :
    (State.lineLink s p up).Ok qs := by
  unfold State.lineLink
  repeat' (first | with_reducible intro _ | with_reducible assumption | with_reducible apply State.setBit_canon
                 | with_reducible apply State.raise_canon | with_reducible apply Canon.ite | split | dsimp only
                 | with_reducible apply Canon.mk | with_reducible apply CanonOf.of)

theorem execLinePortLinkChange_canon {qs : Base} (port : Fin 4) (up : Bool) (t : Nat) {s : State}
    (hs : s.Ok qs) : ResOk qs (execLinePortLinkChange port up t s) := by
  unfold execLinePortLinkChange
  repeat' (first | with_reducible intro _ | with_reducible assumption | with_reducible apply ResOk.next
                 | with_reducible apply State.at_canon | with_reducible apply State.lineLink_canon
                 | with_reducible apply Canon.ite | with_reducible apply ResOk.ite | split | dsimp only
                 | with_reducible apply Canon.mk | with_reducible apply CanonOf.of)

theorem State.cageDown_canon {qs : Base} {s : State} (c : Nat) (hs : s.Ok qs) : (State.cageDown s c).Ok qs := by
  unfold State.cageDown
  repeat' (first | with_reducible intro _ | with_reducible assumption | with_reducible apply State.ringLink_canon
                 | with_reducible apply State.lineLink_canon | with_reducible apply Canon.ite | split | dsimp only
                 | with_reducible apply Canon.mk | with_reducible apply CanonOf.of)

theorem State.cageJudge_canon {qs : Base} {s : State} (c : Nat) (hs : s.Ok qs) : (State.cageJudge s c).Ok qs := by
  unfold State.cageJudge
  extract_lets +onlyGivenNames -underBinder p bad s1
  try clear_value p
  try clear_value bad
  have hs1 : s1.Ok qs := by
    unfold s1
    repeat' (first | with_reducible intro _ | with_reducible assumption | with_reducible apply State.pw_canon
                   | with_reducible apply Canon.ite | split | dsimp only | with_reducible apply Canon.mk
                   | with_reducible apply CanonOf.of)
  clear_value s1
  repeat' (first | with_reducible intro _ | with_reducible assumption | with_reducible apply State.raise_canon
                 | with_reducible apply State.cageDown_canon | with_reducible apply Canon.ite
                 | with_reducible apply Canon.ite1 | split | dsimp only | with_reducible apply Canon.mk
                 | with_reducible apply CanonOf.of)

theorem State.cageLayer_canon {qs : Base} {s : State} (c : Nat) (hs : s.Ok qs) : (State.cageLayer s c).Ok qs := by
  unfold State.cageLayer
  repeat' (first | with_reducible intro _ | with_reducible assumption | with_reducible apply State.put_canon
                 | with_reducible apply Canon.ite | split | dsimp only | with_reducible apply Canon.mk
                 | with_reducible apply CanonOf.of)

theorem execPluggableInsert_canon {qs : Base} (cage : Fin 22) (kind : Nat) (power : Nat) (t : Nat) {s : State}
    (hs : s.Ok qs) : ResOk qs (execPluggableInsert cage kind power t s) := by
  unfold execPluggableInsert
  extract_lets +onlyGivenNames -underBinder s0
  have hs0 : s0.Ok qs := by
    unfold s0
    repeat' (first | with_reducible intro _ | with_reducible assumption | with_reducible apply State.at_canon
                   | with_reducible apply State.pw_canon | with_reducible apply Canon.ite | split | dsimp only
                   | with_reducible apply Canon.mk | with_reducible apply CanonOf.of)
  clear_value s0
  repeat' (first | with_reducible intro _ | with_reducible assumption | with_reducible apply ResOk.next
                 | with_reducible apply State.cageJudge_canon | with_reducible apply State.cageLayer_canon
                 | with_reducible apply Canon.ite | with_reducible apply ResOk.ite | split | dsimp only
                 | with_reducible apply Canon.mk | with_reducible apply CanonOf.of)

theorem execPluggableRemove_canon {qs : Base} (cage : Fin 22) (t : Nat) {s : State} (hs : s.Ok qs) : ResOk qs
    (execPluggableRemove cage t s) := by
  unfold execPluggableRemove
  extract_lets +onlyGivenNames -underBinder s0
  have hs0 : s0.Ok qs := by
    unfold s0
    repeat' (first | with_reducible intro _ | with_reducible assumption | with_reducible apply State.at_canon
                   | with_reducible apply State.pw_canon | with_reducible apply Canon.ite | split | dsimp only
                   | with_reducible apply Canon.mk | with_reducible apply CanonOf.of)
  clear_value s0
  repeat' (first | with_reducible intro _ | with_reducible assumption | with_reducible apply ResOk.next
                 | with_reducible apply State.cageDown_canon | with_reducible apply State.cageLayer_canon
                 | with_reducible apply Canon.ite | with_reducible apply ResOk.ite | split | dsimp only
                 | with_reducible apply Canon.mk | with_reducible apply CanonOf.of)

theorem State.cagesCommit_canon {qs : Base} {s : State} (hs : s.Ok qs) : (State.cagesCommit s).Ok qs := by
  unfold State.cagesCommit
  repeat' (first | with_reducible intro _ | with_reducible assumption | with_reducible apply State.cageJudge_canon
                 | with_reducible apply State.each_canon | with_reducible apply Canon.ite | split | dsimp only
                 | with_reducible apply Canon.mk | with_reducible apply CanonOf.of)

end Sys2Proof.Machine
end

