-- ==== Sys2Proof/Laws/CanonSram.lean ====
section
/-! SUPPORT. The canonical form is kept by the definitions of Machine/Sram.lean. -/
namespace Sys2Proof.Machine

theorem State.sramLoad_canon {qs : Base} {s : State} (a size : Nat) (hs : s.Ok qs) : (State.sramLoad s a size).1.Ok qs := by
  unfold State.sramLoad
  repeat' (first | with_reducible intro _ | with_reducible assumption | with_reducible apply Canon.ite
                 | with_reducible apply Canon.ite1 | split | dsimp only | with_reducible apply Canon.mk
                 | with_reducible apply CanonOf.of)

theorem State.setBufVal_canon {qs : Base} {s : State} (buf : Bool) (p : Nat) (v : PointVal) (hs : s.Ok qs) :
    (State.setBufVal s buf p v).Ok qs := by
  unfold State.setBufVal
  repeat' (first | with_reducible intro _ | with_reducible assumption | with_reducible apply State.sg_canon
                 | with_reducible apply Canon.ite | split | dsimp only | with_reducible apply Canon.mk
                 | with_reducible apply CanonOf.of)

theorem State.cellStore_canon {qs : Base} {s : State} (a : Nat) (b : Byte) (hs : s.Ok qs) :
    (State.cellStore s a b).Ok qs := by
  unfold State.cellStore
  repeat' (first | with_reducible intro _ | with_reducible assumption | with_reducible apply State.memW_canon
                 | with_reducible apply State.wrN_canon | with_reducible apply State.setTrace_canon
                 | with_reducible apply State.sg_canon | with_reducible apply State.setBufVal_canon
                 | with_reducible apply Canon.ite | split | dsimp only | with_reducible apply Canon.mk
                 | with_reducible apply CanonOf.of)

theorem State.coreW_canon {qs : Base} {s : State} (a : Nat) (l : List Byte) (hs : s.Ok qs) : (State.coreW s a l).Ok qs := by
  unfold State.coreW
  repeat' (first | with_reducible intro _ | with_reducible assumption | with_reducible apply State.unpoison_canon
                 | with_reducible apply State.sysW_canon | with_reducible apply State.cellStore_canon
                 | with_reducible apply State.each_canon | with_reducible apply Canon.ite
                 | with_reducible apply Canon.ite1 | split | dsimp only | with_reducible apply Canon.mk
                 | with_reducible apply CanonOf.of)

theorem State.stressDrop_canon {qs : Base} {s : State} (q : HbmReq) (hs : s.Ok qs) : (State.stressDrop s q).Ok qs := by
  unfold State.stressDrop
  repeat' (first | with_reducible intro _ | with_reducible assumption | with_reducible apply State.put_canon
                 | with_reducible apply State.bump_canon | with_reducible apply State.raise_canon
                 | with_reducible apply State.setTrace_canon | with_reducible apply Canon.ite | split | dsimp only
                 | with_reducible apply Canon.mk | with_reducible apply CanonOf.of)

theorem execHbmStressWindow_canon {qs : Base} (chan : Fin 32) (arrived : List HbmReq) {s : State}
    (hs : s.Ok qs) : ResOk qs (execHbmStressWindow chan arrived s) := by
  unfold execHbmStressWindow
  extract_lets +onlyGivenNames -underBinder h s1 q
  try clear_value h
  have hs1 : s1.Ok qs := by
    unfold s1
    repeat' (first | with_reducible intro _ | with_reducible assumption | with_reducible apply State.stressDrop_canon
                   | with_reducible apply State.each_canon | with_reducible apply Canon.ite | split | dsimp only
                   | with_reducible apply Canon.mk | with_reducible apply CanonOf.of)
  clear_value s1
  try clear_value q
  repeat' (first | with_reducible intro _ | with_reducible assumption | with_reducible apply ResOk.next
                 | with_reducible apply State.stressWindow_canon | with_reducible apply Canon.ite
                 | with_reducible apply ResOk.ite | split | dsimp only | with_reducible apply Canon.mk
                 | with_reducible apply CanonOf.of)

theorem State.engineWord_canon {qs : Base} {s : State} (a : Nat) (hs : s.Ok qs) : (State.engineWord s a).1.Ok qs := by
  unfold State.engineWord
  repeat' (first | with_reducible intro _ | with_reducible assumption | with_reducible apply State.take_canon
                 | with_reducible apply Canon.ite | with_reducible apply Canon.ite1 | split | dsimp only
                 | with_reducible apply Canon.mk | with_reducible apply CanonOf.of)

theorem State.storeTrack_canon {qs : Base} {s : State} (c a : Nat) (hs : s.Ok qs) : (State.storeTrack s c a).Ok qs := by
  unfold State.storeTrack
  extract_lets +onlyGivenNames -underBinder k
  try clear_value k
  repeat' (first | with_reducible intro _ | with_reducible assumption | with_reducible apply State.sysW_canon
                 | with_reducible apply State.pa_canon | with_reducible apply Canon.ite | split | dsimp only
                 | with_reducible apply Canon.mk | with_reducible apply CanonOf.of)

theorem State.storeOut_canon {qs : Base} {s : State} (c : Nat) (e : BufStore) (hs : s.Ok qs) :
    (State.storeOut s c e).Ok qs := by
  unfold State.storeOut
  repeat' (first | with_reducible intro _ | with_reducible assumption | with_reducible apply State.co_canon
                 | with_reducible apply State.noIsland_canon | with_reducible apply State.coreW_canon
                 | with_reducible apply State.storeTrack_canon | with_reducible apply Canon.ite | split | dsimp only
                 | with_reducible apply Canon.mk | with_reducible apply CanonOf.of)

theorem State.flush_canon {qs : Base} {s : State} (c : Nat) (hs : s.Ok qs) : (State.flush s c).Ok qs := by
  unfold State.flush
  repeat' (first | with_reducible intro _ | with_reducible assumption | with_reducible apply State.co_canon
                 | with_reducible apply State.storeOut_canon | with_reducible apply State.each_canon
                 | with_reducible apply Canon.ite | split | dsimp only | with_reducible apply Canon.mk
                 | with_reducible apply CanonOf.of)

end Sys2Proof.Machine
end

