-- ==== Sys2Proof/Laws/CanonCyclic.lean ====
section
/-! SUPPORT. The canonical form is kept by the definitions of Machine/Cyclic.lean. -/
namespace Sys2Proof.Machine

theorem State.constSet_canon {qs : Base} {s : State} (p : Nat) (c : Nat × Word) (hs : s.Ok qs) :
    (State.constSet s p c).Ok qs := by
  unfold State.constSet
  extract_lets +onlyGivenNames -underBinder old
  try clear_value old
  repeat' (first | with_reducible intro _ | with_reducible assumption | with_reducible apply State.sysW_canon
                 | with_reducible apply State.pa_canon | with_reducible apply Canon.ite | with_reducible apply Canon.ite1
                 | split | dsimp only | with_reducible apply Canon.mk | with_reducible apply CanonOf.of)

theorem State.partRun_canon {qs : Base} {s : State} (e : HeldRelease) (r : PartRec) (hs : s.Ok qs) :
    (State.partRun s e r).Ok qs := by
  unfold State.partRun
  extract_lets +onlyGivenNames -underBinder p s1 a s2 s3 s4
  try clear_value p
  have hs1 : s1.Ok qs := by
    unfold s1
    repeat' (first | with_reducible intro _ | with_reducible assumption | with_reducible apply State.pa_canon
                   | with_reducible apply State.constSet_canon | with_reducible apply State.each_canon
                   | with_reducible apply Canon.ite | split | dsimp only | with_reducible apply Canon.mk
                   | with_reducible apply CanonOf.of)
  clear_value s1
  try clear_value a
  have hs2 : s2.Ok qs := by
    unfold s2
    repeat' (first | with_reducible intro _ | with_reducible assumption | with_reducible apply State.sysW_canon
                   | with_reducible apply Canon.ite | split | dsimp only | with_reducible apply Canon.mk
                   | with_reducible apply CanonOf.of)
  clear_value s2
  have hs3 : s3.Ok qs := by
    unfold s3
    repeat' (first | with_reducible intro _ | with_reducible assumption | with_reducible apply State.sysW_canon
                   | with_reducible apply Canon.ite | split | dsimp only | with_reducible apply Canon.mk
                   | with_reducible apply CanonOf.of)
  clear_value s3
  have hs4 : s4.Ok qs := by
    unfold s4
    repeat' (first | with_reducible intro _ | with_reducible assumption | with_reducible apply State.pa_canon
                   | with_reducible apply Canon.ite | split | dsimp only | with_reducible apply Canon.mk
                   | with_reducible apply CanonOf.of)
  clear_value s4
  repeat' (first | with_reducible intro _ | with_reducible assumption | with_reducible apply State.co_canon
                 | with_reducible apply State.setPst_canon | with_reducible apply Canon.ite | split | dsimp only
                 | with_reducible apply Canon.mk | with_reducible apply CanonOf.of)

theorem State.takeConsts_canon {qs : Base} {s : State} (p : Nat) (hs : s.Ok qs) : (State.takeConsts s p).Ok qs := by
  unfold State.takeConsts
  repeat' (first | with_reducible intro _ | with_reducible assumption | with_reducible apply State.pa_canon
                 | with_reducible apply Canon.ite | split | dsimp only | with_reducible apply Canon.mk
                 | with_reducible apply CanonOf.of)

theorem State.partFreeze_canon {qs : Base} {s : State} (n : Nat) (r : PartRec) (hs : s.Ok qs) :
    (State.partFreeze s n r).Ok qs := by
  unfold State.partFreeze
  repeat' (first | with_reducible intro _ | with_reducible assumption | with_reducible apply State.partRun_canon
                 | with_reducible apply State.takeConsts_canon | with_reducible apply Canon.ite | split | dsimp only
                 | with_reducible apply Canon.mk | with_reducible apply CanonOf.of)

theorem State.partHold_canon {qs : Base} {s : State} (n : Nat) (r : PartRec) (hs : s.Ok qs) :
    (State.partHold s n r).Ok qs := by
  unfold State.partHold
  repeat' (first | with_reducible intro _ | with_reducible assumption | with_reducible apply State.pa_canon
                 | with_reducible apply State.takeConsts_canon | with_reducible apply Canon.ite | split | dsimp only
                 | with_reducible apply Canon.mk | with_reducible apply CanonOf.of)

theorem State.partSkip_canon {qs : Base} {s : State} (p : Nat) (hs : s.Ok qs) : (State.partSkip s p).Ok qs := by
  unfold State.partSkip
  repeat' (first | with_reducible intro _ | with_reducible assumption | with_reducible apply State.bump_canon
                 | with_reducible apply State.cr_canon | with_reducible apply State.pa_canon
                 | with_reducible apply Canon.ite | split | dsimp only | with_reducible apply Canon.mk
                 | with_reducible apply CanonOf.of)

theorem State.dropHold_canon {qs : Base} {s : State} (p : Nat) (hs : s.Ok qs) : (State.dropHold s p).Ok qs := by
  unfold State.dropHold
  repeat' (first | with_reducible intro _ | with_reducible assumption | with_reducible apply State.unhold_canon
                 | with_reducible apply State.partSkip_canon | with_reducible apply Canon.ite | split | dsimp only
                 | with_reducible apply Canon.mk | with_reducible apply CanonOf.of)

theorem State.partLater_canon {qs : Base} {s : State} (n : Nat) (r : PartRec) (hs : s.Ok qs) :
    (State.partLater s n r).Ok qs := by
  unfold State.partLater
  repeat' (first | with_reducible intro _ | with_reducible assumption | with_reducible apply State.partHold_canon
                 | with_reducible apply State.partSkip_canon | with_reducible apply Canon.ite | split | dsimp only
                 | with_reducible apply Canon.mk | with_reducible apply CanonOf.of)

theorem State.partRelease_canon {qs : Base} {s : State} (n : Nat) (r : PartRec) (hs : s.Ok qs) :
    (State.partRelease s n r).Ok qs := by
  unfold State.partRelease
  repeat' (first | with_reducible intro _ | with_reducible assumption | with_reducible apply State.partFreeze_canon
                 | with_reducible apply State.partLater_canon | with_reducible apply Canon.ite | split | dsimp only
                 | with_reducible apply Canon.mk | with_reducible apply CanonOf.of)

theorem State.pctlShow_canon {qs : Base} {s : State} (hs : s.Ok qs) : (State.pctlShow s).Ok qs := by
  unfold State.pctlShow
  repeat' (first | with_reducible intro _ | with_reducible assumption | with_reducible apply State.putB_canon
                 | with_reducible apply Canon.ite | split | dsimp only | with_reducible apply Canon.mk
                 | with_reducible apply CanonOf.of)

theorem State.leaveCore_canon {qs : Base} {s : State} (p : Nat) (hs : s.Ok qs) : (State.leaveCore s p).Ok qs := by
  unfold State.leaveCore
  extract_lets +onlyGivenNames -underBinder c
  try clear_value c
  repeat' (first | with_reducible intro _ | with_reducible assumption | with_reducible apply State.co_canon
                 | with_reducible apply State.flush_canon | with_reducible apply Canon.ite | split | dsimp only
                 | with_reducible apply Canon.mk | with_reducible apply CanonOf.of)

theorem State.endAct_canon {qs : Base} {s : State} (p : Nat) (hs : s.Ok qs) : (State.endAct s p).Ok qs := by
  unfold State.endAct
  repeat' (first | with_reducible intro _ | with_reducible assumption | with_reducible apply State.endPart_canon
                 | with_reducible apply State.leaveCore_canon | with_reducible apply Canon.ite | split | dsimp only
                 | with_reducible apply Canon.mk | with_reducible apply CanonOf.of)

theorem State.cmdWait_canon {qs : Base} {s : State} (n : Nat) (r : PartRec) (c : PartCmd) (hs : s.Ok qs) :
    (State.cmdWait s n r c).Ok qs := by
  unfold State.cmdWait
  repeat' (first | with_reducible intro _ | with_reducible assumption | with_reducible apply State.pa_canon
                 | with_reducible apply State.restart_canon | with_reducible apply State.partHold_canon
                 | with_reducible apply Canon.ite | split | dsimp only | with_reducible apply Canon.mk
                 | with_reducible apply CanonOf.of)

theorem State.partCommand_canon {qs : Base} {s : State} (n : Nat) (r : PartRec) (c : PartCmd) (hs : s.Ok qs) :
    (State.partCommand s n r c).Ok qs := by
  unfold State.partCommand
  extract_lets +onlyGivenNames -underBinder p s1
  try clear_value p
  have hs1 : s1.Ok qs := by
    unfold s1
    repeat' (first | with_reducible intro _ | with_reducible assumption | with_reducible apply State.pa_canon
                   | with_reducible apply State.unhold_canon | with_reducible apply State.pctlShow_canon
                   | with_reducible apply Canon.ite | split | dsimp only | with_reducible apply Canon.mk
                   | with_reducible apply CanonOf.of)
  clear_value s1
  repeat' (first | with_reducible intro _ | with_reducible assumption | with_reducible apply State.raise_canon
                 | with_reducible apply State.restart_canon | with_reducible apply State.haltPart_canon
                 | with_reducible apply State.rollMem_canon | with_reducible apply State.partFreeze_canon
                 | with_reducible apply State.endAct_canon | with_reducible apply State.cmdWait_canon
                 | with_reducible apply Canon.ite | split | dsimp only | with_reducible apply Canon.mk
                 | with_reducible apply CanonOf.of)

theorem State.partClose_canon {qs : Base} {s : State} (n : Nat) (r : PartRec) (hs : s.Ok qs) :
    (State.partClose s n r).Ok qs := by
  unfold State.partClose
  repeat' (first | with_reducible intro _ | with_reducible assumption | with_reducible apply State.partRelease_canon
                 | with_reducible apply State.partCommand_canon | with_reducible apply Canon.ite | split | dsimp only
                 | with_reducible apply Canon.mk | with_reducible apply CanonOf.of)

theorem State.releaseAll_canon {qs : Base} {s : State} (n : Nat) (hs : s.Ok qs) : (State.releaseAll s n).Ok qs := by
  unfold State.releaseAll
  repeat' (first | with_reducible intro _ | with_reducible assumption | with_reducible apply State.partClose_canon
                 | with_reducible apply State.each_canon | with_reducible apply Canon.ite | split | dsimp only
                 | with_reducible apply Canon.mk | with_reducible apply CanonOf.of)

theorem execFreezeComplete_canon {qs : Base} (core : Fin 32) {s : State} (hs : s.Ok qs) : ResOk qs
    (execFreezeComplete core s) := by
  unfold execFreezeComplete
  extract_lets +onlyGivenNames -underBinder f
  try clear_value f
  repeat' (first | with_reducible intro _ | with_reducible assumption | with_reducible apply ResOk.next
                 | with_reducible apply State.co_canon | with_reducible apply State.ipendSet_canon
                 | with_reducible apply Canon.ite | with_reducible apply ResOk.ite | split | dsimp only
                 | with_reducible apply Canon.mk | with_reducible apply CanonOf.of)

theorem State.slowOverrun_canon {qs : Base} {s : State} (c : Nat) (hs : s.Ok qs) : (State.slowOverrun s c).Ok qs := by
  unfold State.slowOverrun
  extract_lets +onlyGivenNames -underBinder l s1
  try clear_value l
  have hs1 : s1.Ok qs := by
    unfold s1
    repeat' (first | with_reducible intro _ | with_reducible assumption | with_reducible apply State.co_canon
                   | with_reducible apply Canon.ite | split | dsimp only | with_reducible apply Canon.mk
                   | with_reducible apply CanonOf.of)
  clear_value s1
  repeat' (first | with_reducible intro _ | with_reducible assumption | with_reducible apply State.coreFaulty_canon
                 | with_reducible apply Canon.ite | split | dsimp only | with_reducible apply Canon.mk
                 | with_reducible apply CanonOf.of)

theorem State.overrunPart_canon {qs : Base} {s : State} (p st : Nat) (hs : s.Ok qs) : (State.overrunPart s p st).Ok qs := by
  unfold State.overrunPart
  extract_lets +onlyGivenNames -underBinder c s1 s2
  try clear_value c
  have hs1 : s1.Ok qs := by
    unfold s1
    repeat' (first | with_reducible intro _ | with_reducible assumption | with_reducible apply State.put_canon
                   | with_reducible apply State.bump_canon | with_reducible apply State.total_canon
                   | with_reducible apply State.setPst_canon | with_reducible apply Canon.ite | split | dsimp only
                   | with_reducible apply Canon.mk | with_reducible apply CanonOf.of)
  clear_value s1
  have hs2 : s2.Ok qs := by
    unfold s2
    repeat' (first | with_reducible intro _ | with_reducible assumption | with_reducible apply State.raise_canon
                   | with_reducible apply State.cr_canon | with_reducible apply State.pa_canon
                   | with_reducible apply Canon.ite | split | dsimp only | with_reducible apply Canon.mk
                   | with_reducible apply CanonOf.of)
  clear_value s2
  repeat' (first | with_reducible intro _ | with_reducible assumption | with_reducible apply State.slowOverrun_canon
                 | with_reducible apply Canon.ite | split | dsimp only | with_reducible apply Canon.mk
                 | with_reducible apply CanonOf.of)

theorem State.slowMark_canon {qs : Base} {s : State} (c p : Nat) (hs : s.Ok qs) : (State.slowMark s c p).Ok qs := by
  unfold State.slowMark
  repeat' (first | with_reducible intro _ | with_reducible assumption | with_reducible apply State.pa_canon
                 | with_reducible apply State.slowOverrun_canon | with_reducible apply Canon.ite | split | dsimp only
                 | with_reducible apply Canon.mk | with_reducible apply CanonOf.of)

theorem State.slowCycle_canon {qs : Base} {s : State} (c : Nat) (hs : s.Ok qs) : (State.slowCycle s c).Ok qs := by
  unfold State.slowCycle
  extract_lets +onlyGivenNames -underBinder s1
  have hs1 : s1.Ok qs := by
    unfold s1
    repeat' (first | with_reducible intro _ | with_reducible assumption | with_reducible apply State.bump_canon
                   | with_reducible apply State.raise_canon | with_reducible apply Canon.ite | split | dsimp only
                   | with_reducible apply Canon.mk | with_reducible apply CanonOf.of)
  clear_value s1
  repeat' (first | with_reducible intro _ | with_reducible assumption | with_reducible apply State.slowMark_canon
                 | with_reducible apply State.each_canon | with_reducible apply Canon.ite | split | dsimp only
                 | with_reducible apply Canon.mk | with_reducible apply CanonOf.of)

theorem State.slowCycles_canon {qs : Base} {s : State} (counts : List (Nat × Nat)) (hs : s.Ok qs) :
    (State.slowCycles s counts).Ok qs := by
  unfold State.slowCycles
  repeat' (first | with_reducible intro _ | with_reducible assumption | with_reducible apply State.slowCycle_canon
                 | with_reducible apply State.each_canon | with_reducible apply Canon.ite
                 | with_reducible apply Canon.ite1 | split | dsimp only | with_reducible apply Canon.mk
                 | with_reducible apply CanonOf.of)

theorem execRunLimit_canon {qs : Base} (part : Fin 256) (t : Nat) {s : State} (hs : s.Ok qs) : ResOk qs
    (execRunLimit part t s) := by
  unfold execRunLimit
  extract_lets +onlyGivenNames -underBinder s0 r
  have hs0 : s0.Ok qs := by
    unfold s0
    repeat' (first | with_reducible intro _ | with_reducible assumption | with_reducible apply State.at_canon
                   | with_reducible apply Canon.ite | split | dsimp only | with_reducible apply Canon.mk
                   | with_reducible apply CanonOf.of)
  clear_value s0
  try clear_value r
  repeat' (first | with_reducible intro _ | with_reducible assumption | with_reducible apply ResOk.next
                 | with_reducible apply State.abortPart_canon | with_reducible apply State.leaveCore_canon
                 | with_reducible apply Canon.ite | with_reducible apply ResOk.ite | split | dsimp only
                 | with_reducible apply Canon.mk | with_reducible apply CanonOf.of)

theorem State.indexedWrite_canon {qs : Base} {s : State} (p : Nat) (e : Nat × Word) (hs : s.Ok qs) :
    (State.indexedWrite s p e).Ok qs := by
  unfold State.indexedWrite
  extract_lets +onlyGivenNames -underBinder o
  try clear_value o
  with_reducible apply Canon.ite
  · repeat' (first | with_reducible intro _ | with_reducible assumption | with_reducible apply State.deliver_canon
                   | with_reducible apply Canon.ite | with_reducible apply Canon.ite1 | split | dsimp only
                   | with_reducible apply Canon.mk | with_reducible apply CanonOf.of)
  extract_lets +onlyGivenNames -underBinder s1
  have hs1 : s1.Ok qs := by
    unfold s1
    repeat' (first | with_reducible intro _ | with_reducible assumption | with_reducible apply State.bump_canon
                   | with_reducible apply State.wrN_canon | with_reducible apply Canon.ite
                   | with_reducible apply Canon.ite1 | split | dsimp only | with_reducible apply Canon.mk
                   | with_reducible apply CanonOf.of)
  clear_value s1
  repeat' (first | with_reducible intro _ | with_reducible assumption | with_reducible apply State.put_canon
                 | with_reducible apply State.raise_canon | with_reducible apply Canon.ite
                 | with_reducible apply Canon.ite1 | split | dsimp only | with_reducible apply Canon.mk
                 | with_reducible apply CanonOf.of)

theorem State.indexedOf_canon {qs : Base} {s : State} (r : PartRec) (hs : s.Ok qs) : (State.indexedOf s r).1.Ok qs := by
  unfold State.indexedOf
  repeat' (first | with_reducible intro _ | with_reducible assumption | with_reducible apply State.engineWord_canon
                 | with_reducible apply Canon.foldl | with_reducible apply Canon.foldl1 | with_reducible apply Canon.ite
                 | with_reducible apply Canon.ite1 | split | dsimp only | with_reducible apply Canon.mk
                 | with_reducible apply CanonOf.of)

theorem State.commitPart_canon {qs : Base} {s : State} (p : Nat) (hs : s.Ok qs) : (State.commitPart s p).Ok qs := by
  unfold State.commitPart
  extract_lets +onlyGivenNames -underBinder r k crc x s1 s2 s3 done late s4 s5 s6
  try clear_value r
  try clear_value k
  try clear_value crc
  have hx : x.1.Ok qs := by
    unfold x
    repeat' (first | with_reducible intro _ | with_reducible assumption | with_reducible apply State.indexedOf_canon
                   | with_reducible apply Canon.ite | with_reducible apply Canon.ite1 | split | dsimp only
                   | with_reducible apply Canon.mk | with_reducible apply CanonOf.of)
  clear_value x
  have hs1 : s1.Ok qs := by
    unfold s1
    repeat' (first | with_reducible intro _ | with_reducible assumption | with_reducible apply State.deliver_canon
                   | with_reducible apply State.engineWord_canon | with_reducible apply State.each_canon
                   | with_reducible apply Canon.ite | with_reducible apply Canon.ite1 | split | dsimp only
                   | with_reducible apply Canon.mk | with_reducible apply CanonOf.of)
  clear_value s1
  have hs2 : s2.Ok qs := by
    unfold s2
    repeat' (first | with_reducible intro _ | with_reducible assumption | with_reducible apply State.indexedWrite_canon
                   | with_reducible apply State.each_canon | with_reducible apply Canon.ite
                   | with_reducible apply Canon.ite1 | split | dsimp only | with_reducible apply Canon.mk
                   | with_reducible apply CanonOf.of)
  clear_value s2
  have hs3 : s3.Ok qs := by
    unfold s3
    repeat' (first | with_reducible intro _ | with_reducible assumption | with_reducible apply State.put_canon
                   | with_reducible apply State.raise_canon | with_reducible apply Canon.ite | split | dsimp only
                   | with_reducible apply Canon.mk | with_reducible apply CanonOf.of)
  clear_value s3
  try clear_value done
  try clear_value late
  have hs4 : s4.Ok qs := by
    unfold s4
    repeat' (first | with_reducible intro _ | with_reducible assumption | with_reducible apply State.pa_canon
                   | with_reducible apply Canon.ite | split | dsimp only | with_reducible apply Canon.mk
                   | with_reducible apply CanonOf.of)
  clear_value s4
  have hs5 : s5.Ok qs := by
    unfold s5
    repeat' (first | with_reducible intro _ | with_reducible assumption | with_reducible apply State.tw_canon
                   | with_reducible apply State.cr_canon | with_reducible apply Canon.ite | split | dsimp only
                   | with_reducible apply Canon.mk | with_reducible apply CanonOf.of)
  clear_value s5
  have hs6 : s6.Ok qs := by
    unfold s6
    repeat' (first | with_reducible intro _ | with_reducible assumption | with_reducible apply State.raise_canon
                   | with_reducible apply Canon.ite | split | dsimp only | with_reducible apply Canon.mk
                   | with_reducible apply CanonOf.of)
  clear_value s6
  repeat' (first | with_reducible intro _ | with_reducible assumption | with_reducible apply State.setPst_canon
                 | with_reducible apply Canon.ite | split | dsimp only | with_reducible apply Canon.mk
                 | with_reducible apply CanonOf.of)

theorem State.stagePart_canon {qs : Base} {s : State} (r : PartRec) (hs : s.Ok qs) : (State.stagePart s r).Ok qs := by
  unfold State.stagePart
  extract_lets +onlyGivenNames -underBinder p
  try clear_value p
  repeat' (first | with_reducible intro _ | with_reducible assumption | with_reducible apply State.overrunPart_canon
                 | with_reducible apply State.commitPart_canon | with_reducible apply Canon.ite | split | dsimp only
                 | with_reducible apply Canon.mk | with_reducible apply CanonOf.of)

theorem State.outputSigs_canon {qs : Base} {s : State} (hs : s.Ok qs) : (State.outputSigs s).Ok qs := by
  unfold State.outputSigs
  repeat' (first | with_reducible intro _ | with_reducible assumption | with_reducible apply State.formSig_canon
                 | with_reducible apply State.each_canon | with_reducible apply Canon.ite | split | dsimp only
                 | with_reducible apply Canon.mk | with_reducible apply CanonOf.of)

theorem State.sigCut_canon {qs : Base} {s : State} (n : Nat) (hs : s.Ok qs) : (State.sigCut s n).Ok qs := by
  unfold State.sigCut
  repeat' (first | with_reducible intro _ | with_reducible assumption | with_reducible apply State.tw_canon
                 | with_reducible apply Canon.ite | with_reducible apply Canon.ite1 | split | dsimp only
                 | with_reducible apply Canon.mk | with_reducible apply CanonOf.of)

theorem State.sigStripe_canon {qs : Base} {s : State} (hs : s.Ok qs) : (State.sigStripe s).Ok qs := by
  unfold State.sigStripe
  repeat' (first | with_reducible intro _ | with_reducible assumption | with_reducible apply State.tw_canon
                 | with_reducible apply State.formSig_canon | with_reducible apply Canon.foldl
                 | with_reducible apply Canon.foldl1 | with_reducible apply Canon.ite | with_reducible apply Canon.ite1
                 | split | dsimp only | with_reducible apply Canon.mk | with_reducible apply CanonOf.of)

theorem State.signatures_canon {qs : Base} {s : State} (hs : s.Ok qs) : (State.signatures s).Ok qs := by
  unfold State.signatures
  repeat' (first | with_reducible intro _ | with_reducible assumption | with_reducible apply State.outputSigs_canon
                 | with_reducible apply State.sigStripe_canon | with_reducible apply Canon.ite | split | dsimp only
                 | with_reducible apply Canon.mk | with_reducible apply CanonOf.of)

theorem State.stageTime_canon {qs : Base} {s : State} (ns : Nat) (hs : s.Ok qs) : (State.stageTime s ns).Ok qs := by
  unfold State.stageTime
  repeat' (first | with_reducible intro _ | with_reducible assumption | with_reducible apply State.put_canon
                 | with_reducible apply Canon.ite | split | dsimp only | with_reducible apply Canon.mk
                 | with_reducible apply CanonOf.of)

theorem State.stageOwn_canon {qs : Base} {s : State} (ns : Nat) (hs : s.Ok qs) : (State.stageOwn s ns).Ok qs := by
  unfold State.stageOwn
  extract_lets +onlyGivenNames -underBinder s0 s1 r held
  have hs0 : s0.Ok qs := by
    unfold s0
    repeat' (first | with_reducible intro _ | with_reducible assumption | with_reducible apply State.dropHold_canon
                   | with_reducible apply State.each_canon | with_reducible apply Canon.ite | split | dsimp only
                   | with_reducible apply Canon.mk | with_reducible apply CanonOf.of)
  clear_value s0
  have hs1 : s1.Ok qs := by
    unfold s1
    repeat' (first | with_reducible intro _ | with_reducible assumption | with_reducible apply State.stagePart_canon
                   | with_reducible apply State.each_canon | with_reducible apply Canon.ite | split | dsimp only
                   | with_reducible apply Canon.mk | with_reducible apply CanonOf.of)
  clear_value s1
  have hr : r.1.Ok qs := by
    unfold r
    repeat' (first | with_reducible intro _ | with_reducible assumption | with_reducible apply State.stageSlots_canon
                   | with_reducible apply Canon.ite | with_reducible apply Canon.ite1 | split | dsimp only
                   | with_reducible apply Canon.mk | with_reducible apply CanonOf.of)
  clear_value r
  try clear_value held
  repeat' (first | with_reducible intro _ | with_reducible assumption | with_reducible apply State.send_canon
                 | with_reducible apply State.tw_canon | with_reducible apply State.forwardCommits_canon
                 | with_reducible apply State.signatures_canon | with_reducible apply State.stageTime_canon
                 | with_reducible apply Canon.ite | with_reducible apply Canon.ite1 | split | dsimp only
                 | with_reducible apply Canon.mk | with_reducible apply CanonOf.of)

theorem execStagingInstant_canon {qs : Base} (ns : Nat) (t : Nat) {s : State} (hs : s.Ok qs) : ResOk qs
    (execStagingInstant ns t s) := by
  unfold execStagingInstant
  extract_lets +onlyGivenNames -underBinder s0 s1
  have hs0 : s0.Ok qs := by
    unfold s0
    repeat' (first | with_reducible intro _ | with_reducible assumption | with_reducible apply State.at_canon
                   | with_reducible apply Canon.ite | split | dsimp only | with_reducible apply Canon.mk
                   | with_reducible apply CanonOf.of)
  clear_value s0
  have hs1 : s1.Ok qs := by
    unfold s1
    repeat' (first | with_reducible intro _ | with_reducible assumption | with_reducible apply State.tw_canon
                   | with_reducible apply Canon.ite | split | dsimp only | with_reducible apply Canon.mk
                   | with_reducible apply CanonOf.of)
  clear_value s1
  repeat' (first | with_reducible intro _ | with_reducible assumption | with_reducible apply ResOk.next
                 | with_reducible apply State.ipendAll_canon | with_reducible apply State.stageOwn_canon
                 | with_reducible apply Canon.ite | with_reducible apply ResOk.ite | split | dsimp only
                 | with_reducible apply Canon.mk | with_reducible apply CanonOf.of)

theorem execStagingLate_canon {qs : Base} (ring : Fin 16) (segs : List Nat) (t : Nat) {s : State}
    (hs : s.Ok qs) : ResOk qs (execStagingLate ring segs t s) := by
  unfold execStagingLate
  extract_lets +onlyGivenNames -underBinder s0
  have hs0 : s0.Ok qs := by
    unfold s0
    repeat' (first | with_reducible intro _ | with_reducible assumption | with_reducible apply State.at_canon
                   | with_reducible apply Canon.ite | split | dsimp only | with_reducible apply Canon.mk
                   | with_reducible apply CanonOf.of)
  clear_value s0
  repeat' (first | with_reducible intro _ | with_reducible assumption | with_reducible apply ResOk.next
                 | with_reducible apply State.put_canon | with_reducible apply State.raise_canon
                 | with_reducible apply State.ri_canon | with_reducible apply Canon.ite | with_reducible apply ResOk.ite
                 | split | dsimp only | with_reducible apply Canon.mk | with_reducible apply CanonOf.of)

theorem State.followEnd_canon {qs : Base} {s : State} (e : Nat × Nat) (hs : s.Ok qs) : (State.followEnd s e).Ok qs := by
  unfold State.followEnd
  repeat' (first | with_reducible intro _ | with_reducible assumption | with_reducible apply State.endAct_canon
                 | with_reducible apply Canon.ite | with_reducible apply Canon.ite1 | split | dsimp only
                 | with_reducible apply Canon.mk | with_reducible apply CanonOf.of)

theorem State.followLimit_canon {qs : Base} {s : State} (e : Nat × Nat) (hs : s.Ok qs) : (State.followLimit s e).Ok qs := by
  unfold State.followLimit
  repeat' (first | with_reducible intro _ | with_reducible assumption | with_reducible apply State.abortNow_canon
                 | with_reducible apply State.leaveCore_canon | with_reducible apply Canon.ite
                 | with_reducible apply Canon.ite1 | split | dsimp only | with_reducible apply Canon.mk
                 | with_reducible apply CanonOf.of)

theorem State.followSkip_canon {qs : Base} {s : State} (p : Nat) (hs : s.Ok qs) : (State.followSkip s p).Ok qs := by
  unfold State.followSkip
  extract_lets +onlyGivenNames -underBinder k
  try clear_value k
  with_reducible apply Canon.ite
  · repeat' (first | with_reducible intro _ | with_reducible assumption | with_reducible apply State.dropHold_canon
                   | with_reducible apply Canon.ite | split | dsimp only | with_reducible apply Canon.mk
                   | with_reducible apply CanonOf.of)
  repeat' (first | with_reducible intro _ | with_reducible assumption | with_reducible apply State.bump_canon
                 | with_reducible apply State.pa_canon | with_reducible apply State.endAct_canon
                 | with_reducible apply Canon.ite | split | dsimp only | with_reducible apply Canon.mk
                 | with_reducible apply CanonOf.of)

theorem State.followOverrun_canon {qs : Base} {s : State} (p : Nat) (hs : s.Ok qs) : (State.followOverrun s p).Ok qs := by
  unfold State.followOverrun
  repeat' (first | with_reducible intro _ | with_reducible assumption | with_reducible apply State.overrunPart_canon
                 | with_reducible apply Canon.ite | split | dsimp only | with_reducible apply Canon.mk
                 | with_reducible apply CanonOf.of)

theorem State.followCommit_canon {qs : Base} {s : State} (p : Nat) (hs : s.Ok qs) : (State.followCommit s p).Ok qs := by
  unfold State.followCommit
  repeat' (first | with_reducible intro _ | with_reducible assumption | with_reducible apply State.tw_canon
                 | with_reducible apply State.endAct_canon | with_reducible apply State.commitPart_canon
                 | with_reducible apply Canon.ite | split | dsimp only | with_reducible apply Canon.mk
                 | with_reducible apply CanonOf.of)

theorem State.followRecord_canon {qs : Base} {s : State} (r : CommitRecord) (held : List Nat) (ns : Nat) (hs : s.Ok qs) :
    (State.followRecord s r held ns).Ok qs := by
  unfold State.followRecord
  extract_lets +onlyGivenNames -underBinder s1 s2 s3 listed s4 x _ s5 s6
  have hs1 : s1.Ok qs := by
    unfold s1
    repeat' (first | with_reducible intro _ | with_reducible assumption | with_reducible apply State.tw_canon
                   | with_reducible apply State.followLimit_canon | with_reducible apply State.each_canon
                   | with_reducible apply Canon.ite | split | dsimp only | with_reducible apply Canon.mk
                   | with_reducible apply CanonOf.of)
  clear_value s1
  have hs2 : s2.Ok qs := by
    unfold s2
    repeat' (first | with_reducible intro _ | with_reducible assumption | with_reducible apply State.followEnd_canon
                   | with_reducible apply State.followSkip_canon | with_reducible apply State.each_canon
                   | with_reducible apply Canon.ite | split | dsimp only | with_reducible apply Canon.mk
                   | with_reducible apply CanonOf.of)
  clear_value s2
  have hs3 : s3.Ok qs := by
    unfold s3
    repeat' (first | with_reducible intro _ | with_reducible assumption | with_reducible apply State.followOverrun_canon
                   | with_reducible apply State.followCommit_canon | with_reducible apply State.each_canon
                   | with_reducible apply Canon.ite | split | dsimp only | with_reducible apply Canon.mk
                   | with_reducible apply CanonOf.of)
  clear_value s3
  try clear_value listed
  have hs4 : s4.Ok qs := by
    unfold s4
    repeat' (first | with_reducible intro _ | with_reducible assumption | with_reducible apply State.endAct_canon
                   | with_reducible apply State.each_canon | with_reducible apply Canon.ite | split | dsimp only
                   | with_reducible apply Canon.mk | with_reducible apply CanonOf.of)
  clear_value s4
  have hx : x.1.Ok qs := by
    unfold x
    repeat' (first | with_reducible intro _ | with_reducible assumption | with_reducible apply State.stageSlots_canon
                   | with_reducible apply Canon.ite | with_reducible apply Canon.ite1 | split | dsimp only
                   | with_reducible apply Canon.mk | with_reducible apply CanonOf.of)
  clear_value x
  have hs5 : s5.Ok qs := by
    unfold s5
    repeat' (first | with_reducible intro _ | with_reducible assumption | with_reducible apply State.tw_canon
                   | with_reducible apply Canon.ite | with_reducible apply Canon.ite1 | split | dsimp only
                   | with_reducible apply Canon.mk | with_reducible apply CanonOf.of)
  clear_value s5
  have hs6 : s6.Ok qs := by
    unfold s6
    repeat' (first | with_reducible intro _ | with_reducible assumption | with_reducible apply State.stageTime_canon
                   | with_reducible apply Canon.ite | split | dsimp only | with_reducible apply Canon.mk
                   | with_reducible apply CanonOf.of)
  clear_value s6
  repeat' (first | with_reducible intro _ | with_reducible assumption | with_reducible apply State.lagCycle_canon
                 | with_reducible apply State.signatures_canon | with_reducible apply Canon.ite | split | dsimp only
                 | with_reducible apply Canon.mk | with_reducible apply CanonOf.of)

theorem execCommitRecordRx_canon {qs : Base} (r : CommitRecord) (held : List Nat) (ns : Nat) (t : Nat) {s : State}
    (hs : s.Ok qs) : ResOk qs (execCommitRecordRx r held ns t s) := by
  unfold execCommitRecordRx
  extract_lets +onlyGivenNames -underBinder s0
  have hs0 : s0.Ok qs := by
    unfold s0
    repeat' (first | with_reducible intro _ | with_reducible assumption | with_reducible apply State.at_canon
                   | with_reducible apply Canon.ite | split | dsimp only | with_reducible apply Canon.mk
                   | with_reducible apply CanonOf.of)
  clear_value s0
  repeat' (first | with_reducible intro _ | with_reducible assumption | with_reducible apply ResOk.next
                 | with_reducible apply State.ipendAll_canon | with_reducible apply State.followRecord_canon
                 | with_reducible apply Canon.ite | with_reducible apply ResOk.ite | split | dsimp only
                 | with_reducible apply Canon.mk | with_reducible apply CanonOf.of)

theorem execCommitRecordMissing_canon {qs : Base} (ns : Nat) (t : Nat) {s : State} (hs : s.Ok qs) : ResOk qs
    (execCommitRecordMissing ns t s) := by
  unfold execCommitRecordMissing
  extract_lets +onlyGivenNames -underBinder s0
  have hs0 : s0.Ok qs := by
    unfold s0
    repeat' (first | with_reducible intro _ | with_reducible assumption | with_reducible apply State.at_canon
                   | with_reducible apply Canon.ite | split | dsimp only | with_reducible apply Canon.mk
                   | with_reducible apply CanonOf.of)
  clear_value s0
  repeat' (first | with_reducible intro _ | with_reducible assumption | with_reducible apply ResOk.next
                 | with_reducible apply State.tw_canon | with_reducible apply State.lagCycle_canon
                 | with_reducible apply State.stageOwn_canon | with_reducible apply Canon.ite
                 | with_reducible apply ResOk.ite | split | dsimp only | with_reducible apply Canon.mk
                 | with_reducible apply CanonOf.of)

theorem State.adoptPart_canon {qs : Base} {s : State} (p : Nat) (hs : s.Ok qs) : (State.adoptPart s p).Ok qs := by
  unfold State.adoptPart
  extract_lets +onlyGivenNames -underBinder r done s0 late s1 s3
  try clear_value r
  try clear_value done
  have hs0 : s0.Ok qs := by
    unfold s0
    repeat' (first | with_reducible intro _ | with_reducible assumption | with_reducible apply State.coreDrop_canon
                   | with_reducible apply State.rollMem_canon | with_reducible apply State.partRun_canon
                   | with_reducible apply Canon.ite | split | dsimp only | with_reducible apply Canon.mk
                   | with_reducible apply CanonOf.of)
  clear_value s0
  try clear_value late
  have hs1 : s1.Ok qs := by
    unfold s1
    repeat' (first | with_reducible intro _ | with_reducible assumption | with_reducible apply State.sysW_canon
                   | with_reducible apply State.each_canon | with_reducible apply Canon.ite
                   | with_reducible apply Canon.ite1 | split | dsimp only | with_reducible apply Canon.mk
                   | with_reducible apply CanonOf.of)
  clear_value s1
  have hs3 : s3.Ok qs := by
    unfold s3
    repeat' (first | with_reducible intro _ | with_reducible assumption | with_reducible apply State.pa_canon
                   | with_reducible apply State.outRewrite_canon | with_reducible apply Canon.ite | split | dsimp only
                   | with_reducible apply Canon.mk | with_reducible apply CanonOf.of)
  clear_value s3
  repeat' (first | with_reducible intro _ | with_reducible assumption | with_reducible apply State.raise_canon
                 | with_reducible apply State.setPst_canon | with_reducible apply State.haltPart_canon
                 | with_reducible apply Canon.ite | split | dsimp only | with_reducible apply Canon.mk
                 | with_reducible apply CanonOf.of)

theorem execLagStateTransfer_canon {qs : Base} (p : StatePatch) {s : State} (hs : s.Ok qs) : ResOk qs
    (execLagStateTransfer p s) := by
  unfold execLagStateTransfer
  with_reducible apply ResOk.next
  with_reducible apply Canon.ite
  · repeat' (first | with_reducible intro _ | with_reducible assumption | with_reducible apply State.send_canon
                   | with_reducible apply Canon.ite | with_reducible apply Canon.ite1 | split | dsimp only
                   | with_reducible apply Canon.mk | with_reducible apply CanonOf.of)
  with_reducible apply Canon.ite
  · repeat' (first | with_reducible intro _ | with_reducible assumption | with_reducible apply Canon.ite | split
                   | dsimp only | with_reducible apply Canon.mk | with_reducible apply CanonOf.of)
  extract_lets +onlyGivenNames -underBinder s0 s1 s2 s3 s4
  have hs0 : s0.Ok qs := by
    unfold s0
    repeat' (first | with_reducible intro _ | with_reducible assumption | with_reducible apply State.rollLines_canon
                   | with_reducible apply State.each_canon | with_reducible apply Canon.ite | split | dsimp only
                   | with_reducible apply Canon.mk | with_reducible apply CanonOf.of)
  clear_value s0
  have hs1 : s1.Ok qs := by
    unfold s1
    repeat' (first | with_reducible intro _ | with_reducible assumption | with_reducible apply State.deliver_canon
                   | with_reducible apply State.each_canon | with_reducible apply Canon.ite
                   | with_reducible apply Canon.ite1 | split | dsimp only | with_reducible apply Canon.mk
                   | with_reducible apply CanonOf.of)
  clear_value s1
  have hs2 : s2.Ok qs := by
    unfold s2
    repeat' (first | with_reducible intro _ | with_reducible assumption | with_reducible apply State.sysW_canon
                   | with_reducible apply State.each_canon | with_reducible apply Canon.ite
                   | with_reducible apply Canon.ite1 | split | dsimp only | with_reducible apply Canon.mk
                   | with_reducible apply CanonOf.of)
  clear_value s2
  have hs3 : s3.Ok qs := by
    unfold s3
    repeat' (first | with_reducible intro _ | with_reducible assumption | with_reducible apply State.wr_canon
                   | with_reducible apply State.setSlot_canon | with_reducible apply State.each_canon
                   | with_reducible apply Canon.ite | with_reducible apply Canon.ite1 | split | dsimp only
                   | with_reducible apply Canon.mk | with_reducible apply CanonOf.of)
  clear_value s3
  have hs4 : s4.Ok qs := by
    unfold s4
    repeat' (first | with_reducible intro _ | with_reducible assumption | with_reducible apply State.adoptPart_canon
                   | with_reducible apply State.each_canon | with_reducible apply Canon.ite | split | dsimp only
                   | with_reducible apply Canon.mk | with_reducible apply CanonOf.of)
  clear_value s4
  repeat' (first | with_reducible intro _ | with_reducible assumption | with_reducible apply State.tw_canon
                 | with_reducible apply State.signatures_canon | with_reducible apply Canon.ite
                 | with_reducible apply Canon.ite1 | split | dsimp only | with_reducible apply Canon.mk
                 | with_reducible apply CanonOf.of)

theorem State.constsBack_canon {qs : Base} {s : State} (p : Nat) (e : Option HeldRelease) (hs : s.Ok qs) :
    (State.constsBack s p e).Ok qs := by
  unfold State.constsBack
  repeat' (first | with_reducible intro _ | with_reducible assumption | with_reducible apply State.pa_canon
                 | with_reducible apply Canon.ite | split | dsimp only | with_reducible apply Canon.mk
                 | with_reducible apply CanonOf.of)

theorem State.rollDone_canon {qs : Base} {s : State} (p : Nat) (hs : s.Ok qs) : (State.rollDone s p).Ok qs := by
  unfold State.rollDone
  extract_lets +onlyGivenNames -underBinder r k s1 s2
  try clear_value r
  try clear_value k
  have hs1 : s1.Ok qs := by
    unfold s1
    repeat' (first | with_reducible intro _ | with_reducible assumption | with_reducible apply State.rollMem_canon
                   | with_reducible apply Canon.ite | split | dsimp only | with_reducible apply Canon.mk
                   | with_reducible apply CanonOf.of)
  clear_value s1
  have hs2 : s2.Ok qs := by
    unfold s2
    repeat' (first | with_reducible intro _ | with_reducible assumption | with_reducible apply State.raise_canon
                   | with_reducible apply State.pa_canon | with_reducible apply State.setPst_canon
                   | with_reducible apply State.haltPart_canon | with_reducible apply Canon.ite | split | dsimp only
                   | with_reducible apply Canon.mk | with_reducible apply CanonOf.of)
  clear_value s2
  repeat' (first | with_reducible intro _ | with_reducible assumption | with_reducible apply State.raise_canon
                 | with_reducible apply State.setPst_canon | with_reducible apply State.haltPart_canon
                 | with_reducible apply State.partRun_canon | with_reducible apply State.constsBack_canon
                 | with_reducible apply Canon.ite | split | dsimp only | with_reducible apply Canon.mk
                 | with_reducible apply CanonOf.of)

theorem execRollbackComplete_canon {qs : Base} (part : Fin 256) (t : Nat) {s : State} (hs : s.Ok qs) : ResOk qs
    (execRollbackComplete part t s) := by
  unfold execRollbackComplete
  extract_lets +onlyGivenNames -underBinder s0
  have hs0 : s0.Ok qs := by
    unfold s0
    repeat' (first | with_reducible intro _ | with_reducible assumption | with_reducible apply State.at_canon
                   | with_reducible apply Canon.ite | split | dsimp only | with_reducible apply Canon.mk
                   | with_reducible apply CanonOf.of)
  clear_value s0
  repeat' (first | with_reducible intro _ | with_reducible assumption | with_reducible apply ResOk.next
                 | with_reducible apply State.rollDone_canon | with_reducible apply Canon.ite
                 | with_reducible apply ResOk.ite | split | dsimp only | with_reducible apply Canon.mk
                 | with_reducible apply CanonOf.of)

theorem State.queueCommand_canon {qs : Base} {s : State} (p : Nat) (restart : Bool) (at_ : Nat) (hs : s.Ok qs) :
    (State.queueCommand s p restart at_).Ok qs := by
  unfold State.queueCommand
  extract_lets +onlyGivenNames -underBinder c
  try clear_value c
  repeat' (first | with_reducible intro _ | with_reducible assumption | with_reducible apply State.put_canon
                 | with_reducible apply State.pa_canon | with_reducible apply Canon.ite | split | dsimp only
                 | with_reducible apply Canon.mk | with_reducible apply CanonOf.of)

theorem State.partCtl_canon {qs : Base} {s : State} (p : Nat) (restart : Bool) (hs : s.Ok qs) :
    (State.partCtl s p restart).Ok qs := by
  unfold State.partCtl
  extract_lets +onlyGivenNames -underBinder s1
  have hs1 : s1.Ok qs := by
    unfold s1
    repeat' (first | with_reducible intro _ | with_reducible assumption | with_reducible apply State.put_canon
                   | with_reducible apply Canon.ite | split | dsimp only | with_reducible apply Canon.mk
                   | with_reducible apply CanonOf.of)
  clear_value s1
  repeat' (first | with_reducible intro _ | with_reducible assumption | with_reducible apply State.put_canon
                 | with_reducible apply State.send_canon | with_reducible apply State.raise_canon
                 | with_reducible apply State.partCommand_canon | with_reducible apply State.queueCommand_canon
                 | with_reducible apply Canon.ite | split | dsimp only | with_reducible apply Canon.mk
                 | with_reducible apply CanonOf.of)

theorem execCycPctlRestart_canon {qs : Base} (part : Fin 256) (t : Nat) {s : State} (hs : s.Ok qs) : ResOk qs
    (execCycPctlRestart part t s) := by
  unfold execCycPctlRestart
  repeat' (first | with_reducible intro _ | with_reducible assumption | with_reducible apply ResOk.next
                 | with_reducible apply State.at_canon | with_reducible apply State.partCtl_canon
                 | with_reducible apply Canon.ite | with_reducible apply ResOk.ite | split | dsimp only
                 | with_reducible apply Canon.mk | with_reducible apply CanonOf.of)

theorem execCycPctlHalt_canon {qs : Base} (part : Fin 256) (t : Nat) {s : State} (hs : s.Ok qs) : ResOk qs
    (execCycPctlHalt part t s) := by
  unfold execCycPctlHalt
  repeat' (first | with_reducible intro _ | with_reducible assumption | with_reducible apply ResOk.next
                 | with_reducible apply State.at_canon | with_reducible apply State.partCtl_canon
                 | with_reducible apply Canon.ite | with_reducible apply ResOk.ite | split | dsimp only
                 | with_reducible apply Canon.mk | with_reducible apply CanonOf.of)

theorem execPartitionCommandRx_canon {qs : Base} (part : Fin 256) (restart : Bool) (at_ : Nat) {s : State}
    (hs : s.Ok qs) : ResOk qs (execPartitionCommandRx part restart at_ s) := by
  unfold execPartitionCommandRx
  repeat' (first | with_reducible intro _ | with_reducible assumption | with_reducible apply ResOk.next
                 | with_reducible apply State.ipendSet_canon | with_reducible apply State.queueCommand_canon
                 | with_reducible apply Canon.ite | with_reducible apply ResOk.ite | split | dsimp only
                 | with_reducible apply Canon.mk | with_reducible apply CanonOf.of)

end Sys2Proof.Machine
end

