-- ==== Sys2Proof/Laws/CanonSummary.lean ====
section
/-! SUPPORT. The canonical form is kept by the definitions of Machine/Summary.lean. -/
namespace Sys2Proof.Machine

theorem State.snapshot_canon {qs : Base} {s : State} (snap : Nat) (hs : s.Ok qs) : (State.snapshot s snap).Ok qs := by
  unfold State.snapshot
  extract_lets +onlyGivenNames -underBinder b
  try clear_value b
  repeat' (first | with_reducible intro _ | with_reducible assumption | with_reducible apply State.mg_canon
                 | with_reducible apply Canon.ite | split | dsimp only | with_reducible apply Canon.mk
                 | with_reducible apply CanonOf.of)

theorem State.snapBoundary_canon {qs : Base} {s : State} (n : Nat) (hs : s.Ok qs) : (State.snapBoundary s n).Ok qs := by
  unfold State.snapBoundary
  repeat' (first | with_reducible intro _ | with_reducible assumption | with_reducible apply State.snapshot_canon
                 | with_reducible apply Canon.ite | split | dsimp only | with_reducible apply Canon.mk
                 | with_reducible apply CanonOf.of)

end Sys2Proof.Machine
end

