-- ==== Sys2Proof/Laws/CanonTime.lean ====
section
/-! SUPPORT. The canonical form is kept by the definitions of Machine/Time.lean. -/
namespace Sys2Proof.Machine

theorem State.setDom_canon {qs : Base} {s : State} (d : Nat) (k : Domain) (hs : s.Ok qs) : (State.setDom s d k).Ok qs := by
  unfold State.setDom
  repeat' (first | with_reducible intro _ | with_reducible assumption | with_reducible apply State.tm_canon
                 | with_reducible apply Canon.ite | split | dsimp only | with_reducible apply Canon.mk
                 | with_reducible apply CanonOf.of)

theorem State.wrI_canon {qs : Base} {s : State} (off : Nat) (v : Int) (hs : s.Ok qs) : (State.wrI s off v).Ok qs := by
  unfold State.wrI
  repeat' (first | with_reducible intro _ | with_reducible assumption | with_reducible apply State.wrN_canon
                 | with_reducible apply Canon.ite | split | dsimp only | with_reducible apply Canon.mk
                 | with_reducible apply CanonOf.of)

theorem State.timeShow_canon {qs : Base} {s : State} (hs : s.Ok qs) : (State.timeShow s).Ok qs := by
  unfold State.timeShow
  extract_lets +onlyGivenNames -underBinder s1 s2 s3 s4
  have hs1 : s1.Ok qs := by
    unfold s1
    repeat' (first | with_reducible intro _ | with_reducible assumption | with_reducible apply State.put_canon
                   | with_reducible apply State.putB_canon | with_reducible apply Canon.ite | split | dsimp only
                   | with_reducible apply Canon.mk | with_reducible apply CanonOf.of)
  clear_value s1
  have hs2 : s2.Ok qs := by
    unfold s2
    repeat' (first | with_reducible intro _ | with_reducible assumption | with_reducible apply State.putB_canon
                   | with_reducible apply Canon.ite | split | dsimp only | with_reducible apply Canon.mk
                   | with_reducible apply CanonOf.of)
  clear_value s2
  have hs3 : s3.Ok qs := by
    unfold s3
    repeat' (first | with_reducible intro _ | with_reducible assumption | with_reducible apply State.putB_canon
                   | with_reducible apply Canon.ite | split | dsimp only | with_reducible apply Canon.mk
                   | with_reducible apply CanonOf.of)
  clear_value s3
  have hs4 : s4.Ok qs := by
    unfold s4
    repeat' (first | with_reducible intro _ | with_reducible assumption | with_reducible apply State.wrI_canon
                   | with_reducible apply Canon.ite | split | dsimp only | with_reducible apply Canon.mk
                   | with_reducible apply CanonOf.of)
  clear_value s4
  repeat' (first | with_reducible intro _ | with_reducible assumption | with_reducible apply State.put_canon
                 | with_reducible apply State.putB_canon | with_reducible apply Canon.ite | split | dsimp only
                 | with_reducible apply Canon.mk | with_reducible apply CanonOf.of)

theorem State.domFail_canon {qs : Base} {s : State} (d : Nat) (hs : s.Ok qs) : (State.domFail s d).Ok qs := by
  unfold State.domFail
  repeat' (first | with_reducible intro _ | with_reducible assumption | with_reducible apply State.setDom_canon
                 | with_reducible apply State.timeShow_canon | with_reducible apply Canon.ite | split | dsimp only
                 | with_reducible apply Canon.mk | with_reducible apply CanonOf.of)

theorem State.receiptFail_canon {qs : Base} {s : State} (d : Nat) (hs : s.Ok qs) : (State.receiptFail s d).Ok qs := by
  unfold State.receiptFail
  repeat' (first | with_reducible intro _ | with_reducible assumption | with_reducible apply State.raise_canon
                 | with_reducible apply State.domFail_canon | with_reducible apply Canon.ite | split | dsimp only
                 | with_reducible apply Canon.mk | with_reducible apply CanonOf.of)

theorem State.trackMw_canon {qs : Base} {s : State} (mw : Int) (hs : s.Ok qs) : (State.trackMw s mw).Ok qs := by
  unfold State.trackMw
  extract_lets +onlyGivenNames -underBinder l
  try clear_value l
  repeat' (first | with_reducible intro _ | with_reducible assumption | with_reducible apply State.tm_canon
                 | with_reducible apply State.wrI_canon | with_reducible apply Canon.foldl
                 | with_reducible apply Canon.foldl1 | with_reducible apply Canon.ite | split | dsimp only
                 | with_reducible apply Canon.mk | with_reducible apply CanonOf.of)

theorem State.syncDone_canon {qs : Base} {s : State} (d : Nat) (ofs : Int) (hs : s.Ok qs) :
    (State.syncDone s d ofs).Ok qs := by
  unfold State.syncDone
  extract_lets +onlyGivenNames -underBinder both jump k rate fast s1
  try clear_value both
  try clear_value jump
  try clear_value k
  try clear_value rate
  try clear_value fast
  have hs1 : s1.Ok qs := by
    unfold s1
    repeat' (first | with_reducible intro _ | with_reducible assumption | with_reducible apply State.setDom_canon
                   | with_reducible apply Canon.ite | split | dsimp only | with_reducible apply Canon.mk
                   | with_reducible apply CanonOf.of)
  clear_value s1
  with_reducible apply Canon.ite
  · repeat' (first | with_reducible intro _ | with_reducible assumption | with_reducible apply State.raise_canon
                   | with_reducible apply State.domFail_canon | with_reducible apply Canon.ite | split | dsimp only
                   | with_reducible apply Canon.mk | with_reducible apply CanonOf.of)
  repeat' (first | with_reducible intro _ | with_reducible assumption | with_reducible apply State.raise_canon
                 | with_reducible apply State.tm_canon | with_reducible apply State.timeShow_canon
                 | with_reducible apply State.domFail_canon | with_reducible apply State.trackMw_canon
                 | with_reducible apply Canon.ite | with_reducible apply Canon.ite1 | split | dsimp only
                 | with_reducible apply Canon.mk | with_reducible apply CanonOf.of)

theorem State.setPtp_canon {qs : Base} {s : State} (p : Nat) (k : PtpPort) (hs : s.Ok qs) : (State.setPtp s p k).Ok qs := by
  unfold State.setPtp
  repeat' (first | with_reducible intro _ | with_reducible assumption | with_reducible apply State.tm_canon
                 | with_reducible apply Canon.ite | split | dsimp only | with_reducible apply Canon.mk
                 | with_reducible apply CanonOf.of)

theorem State.syncTaken_canon {qs : Base} {s : State} (port d : Nat) (origin corr rx : Int) (hs : s.Ok qs) :
    (State.syncTaken s port d origin corr rx).Ok qs := by
  unfold State.syncTaken
  extract_lets +onlyGivenNames -underBinder s1
  have hs1 : s1.Ok qs := by
    unfold s1
    repeat' (first | with_reducible intro _ | with_reducible assumption | with_reducible apply State.syncDone_canon
                   | with_reducible apply Canon.ite | split | dsimp only | with_reducible apply Canon.mk
                   | with_reducible apply CanonOf.of)
  clear_value s1
  repeat' (first | with_reducible intro _ | with_reducible assumption | with_reducible apply State.setDom_canon
                 | with_reducible apply Canon.ite | split | dsimp only | with_reducible apply Canon.mk
                 | with_reducible apply CanonOf.of)

theorem execPtpSyncRx_canon {qs : Base} (port : Fin 22) (dom : Fin 256) (twoStep : Bool) (origin corr : Int) (rx : Stamp)
    (t : Nat) {s : State} (hs : s.Ok qs) : ResOk qs (execPtpSyncRx port dom twoStep origin corr rx t s) := by
  unfold execPtpSyncRx
  extract_lets +onlyGivenNames -underBinder s0 i
  have hs0 : s0.Ok qs := by
    unfold s0
    repeat' (first | with_reducible intro _ | with_reducible assumption | with_reducible apply State.at_canon
                   | with_reducible apply Canon.ite | split | dsimp only | with_reducible apply Canon.mk
                   | with_reducible apply CanonOf.of)
  clear_value s0
  try clear_value i
  with_reducible apply ResOk.next
  with_reducible apply Canon.ite
  · repeat' (first | with_reducible intro _ | with_reducible assumption | with_reducible apply Canon.ite | split
                   | dsimp only | with_reducible apply Canon.mk | with_reducible apply CanonOf.of)
  repeat' (first | with_reducible intro _ | with_reducible assumption | with_reducible apply State.setPtp_canon
                 | with_reducible apply State.syncTaken_canon | with_reducible apply Canon.ite
                 | with_reducible apply Canon.ite1 | split | dsimp only | with_reducible apply Canon.mk
                 | with_reducible apply CanonOf.of)

theorem execPtpFollowUpRx_canon {qs : Base} (port : Fin 22) (dom : Fin 256) (origin corr : Int) (t : Nat) {s : State}
    (hs : s.Ok qs) : ResOk qs (execPtpFollowUpRx port dom origin corr t s) := by
  unfold execPtpFollowUpRx
  extract_lets +onlyGivenNames -underBinder s0 k
  have hs0 : s0.Ok qs := by
    unfold s0
    repeat' (first | with_reducible intro _ | with_reducible assumption | with_reducible apply State.at_canon
                   | with_reducible apply Canon.ite | split | dsimp only | with_reducible apply Canon.mk
                   | with_reducible apply CanonOf.of)
  clear_value s0
  try clear_value k
  repeat' (first | with_reducible intro _ | with_reducible assumption | with_reducible apply ResOk.next
                 | with_reducible apply State.setPtp_canon | with_reducible apply State.syncTaken_canon
                 | with_reducible apply Canon.ite | with_reducible apply ResOk.ite | with_reducible apply Canon.ite1
                 | split | dsimp only | with_reducible apply Canon.mk | with_reducible apply CanonOf.of)

theorem State.bmca_canon {qs : Base} {s : State} (d : Nat) (hs : s.Ok qs) : (State.bmca s d).Ok qs := by
  unfold State.bmca
  extract_lets +onlyGivenNames -underBinder k sl k1
  try clear_value k
  try clear_value sl
  try clear_value k1
  repeat' (first | with_reducible intro _ | with_reducible assumption | with_reducible apply State.raise_canon
                 | with_reducible apply State.setDom_canon | with_reducible apply State.timeShow_canon
                 | with_reducible apply State.domFail_canon | with_reducible apply Canon.ite | split | dsimp only
                 | with_reducible apply Canon.mk | with_reducible apply CanonOf.of)

theorem execPtpAnnounceRx_canon {qs : Base} (port : Fin 22) (dom : Fin 256) (a : AnnMsg) (t : Nat) {s : State}
    (hs : s.Ok qs) : ResOk qs (execPtpAnnounceRx port dom a t s) := by
  unfold execPtpAnnounceRx
  extract_lets +onlyGivenNames -underBinder s0
  have hs0 : s0.Ok qs := by
    unfold s0
    repeat' (first | with_reducible intro _ | with_reducible assumption | with_reducible apply State.at_canon
                   | with_reducible apply Canon.ite | split | dsimp only | with_reducible apply Canon.mk
                   | with_reducible apply CanonOf.of)
  clear_value s0
  with_reducible apply ResOk.next
  repeat' (first | with_reducible intro _ | with_reducible assumption | with_reducible apply State.setDom_canon
                 | with_reducible apply State.bmca_canon | with_reducible apply Canon.ite | split | dsimp only
                 | with_reducible apply Canon.mk | with_reducible apply CanonOf.of)

theorem execPtpReceiptTimeout_canon {qs : Base} (dom : Fin 2) (announce : Bool) (t : Nat) {s : State}
    (hs : s.Ok qs) : ResOk qs (execPtpReceiptTimeout dom announce t s) := by
  unfold execPtpReceiptTimeout
  extract_lets +onlyGivenNames -underBinder s0 k
  have hs0 : s0.Ok qs := by
    unfold s0
    repeat' (first | with_reducible intro _ | with_reducible assumption | with_reducible apply State.at_canon
                   | with_reducible apply Canon.ite | split | dsimp only | with_reducible apply Canon.mk
                   | with_reducible apply CanonOf.of)
  clear_value s0
  try clear_value k
  with_reducible apply ResOk.next
  repeat' (first | with_reducible intro _ | with_reducible assumption | with_reducible apply State.setDom_canon
                 | with_reducible apply State.receiptFail_canon | with_reducible apply State.bmca_canon
                 | with_reducible apply Canon.foldl | with_reducible apply Canon.foldl1 | with_reducible apply Canon.ite
                 | split | dsimp only | with_reducible apply Canon.mk | with_reducible apply CanonOf.of)

theorem execPtpPdelayReqRx_canon {qs : Base} (port : Fin 22) (rx tx : Stamp) {s : State} (hs : s.Ok qs) : ResOk qs
    (execPtpPdelayReqRx port rx tx s) := by
  unfold execPtpPdelayReqRx
  repeat' (first | with_reducible intro _ | with_reducible assumption | with_reducible apply ResOk.next
                 | with_reducible apply State.send_canon | with_reducible apply Canon.ite
                 | with_reducible apply ResOk.ite | split | dsimp only | with_reducible apply Canon.mk
                 | with_reducible apply CanonOf.of)

theorem execPtpPdelayTx_canon {qs : Base} (port : Fin 22) {s : State} (hs : s.Ok qs) : ResOk qs (execPtpPdelayTx port s) := by
  unfold execPtpPdelayTx
  repeat' (first | with_reducible intro _ | with_reducible assumption | with_reducible apply ResOk.next
                 | with_reducible apply State.send_canon | with_reducible apply State.setPtp_canon
                 | with_reducible apply Canon.ite | with_reducible apply ResOk.ite | split | dsimp only
                 | with_reducible apply Canon.mk | with_reducible apply CanonOf.of)

theorem execPtpPdelayRespRx_canon {qs : Base} (port : Fin 22) (t1 : Stamp) (t2 : Int) (t4 : Stamp) {s : State}
    (hs : s.Ok qs) : ResOk qs (execPtpPdelayRespRx port t1 t2 t4 s) := by
  unfold execPtpPdelayRespRx
  extract_lets +onlyGivenNames -underBinder k
  try clear_value k
  repeat' (first | with_reducible intro _ | with_reducible assumption | with_reducible apply ResOk.next
                 | with_reducible apply State.setPtp_canon | with_reducible apply Canon.ite
                 | with_reducible apply ResOk.ite | split | dsimp only | with_reducible apply Canon.mk
                 | with_reducible apply CanonOf.of)

theorem execPtpPdelayRespFollowUpRx_canon {qs : Base} (port : Fin 22) (t3 : Int) {s : State} (hs : s.Ok qs) : ResOk qs
    (execPtpPdelayRespFollowUpRx port t3 s) := by
  unfold execPtpPdelayRespFollowUpRx
  extract_lets +onlyGivenNames -underBinder k a
  try clear_value k
  try clear_value a
  with_reducible apply ResOk.next
  repeat' (first | with_reducible intro _ | with_reducible assumption | with_reducible apply State.setPtp_canon
                 | with_reducible apply Canon.ite | split | dsimp only | with_reducible apply Canon.mk
                 | with_reducible apply CanonOf.of)

theorem execPtpSignalingRx_canon {qs : Base} (port : Fin 22) (dom : Fin 256) {s : State} (hs : s.Ok qs) : ResOk qs
    (execPtpSignalingRx port dom s) := by
  unfold execPtpSignalingRx
  repeat' (first | with_reducible intro _ | with_reducible assumption | with_reducible apply ResOk.next
                 | with_reducible apply State.send_canon | with_reducible apply Canon.ite
                 | with_reducible apply ResOk.ite | split | dsimp only | with_reducible apply Canon.mk
                 | with_reducible apply CanonOf.of)

theorem execPtpSyncTx_canon {qs : Base} (port : Fin 22) (dom : Fin 2) (tx : Stamp) (t : Nat) {s : State}
    (hs : s.Ok qs) : ResOk qs (execPtpSyncTx port dom tx t s) := by
  unfold execPtpSyncTx
  extract_lets +onlyGivenNames -underBinder s0 k e go link stay body
  have hs0 : s0.Ok qs := by
    unfold s0
    repeat' (first | with_reducible intro _ | with_reducible assumption | with_reducible apply State.at_canon
                   | with_reducible apply Canon.ite | split | dsimp only | with_reducible apply Canon.mk
                   | with_reducible apply CanonOf.of)
  clear_value s0
  try clear_value k
  try clear_value e
  try clear_value go
  try clear_value link
  try clear_value stay
  try clear_value body
  repeat' (first | with_reducible intro _ | with_reducible assumption | with_reducible apply ResOk.next
                 | with_reducible apply State.send_canon | with_reducible apply Canon.ite
                 | with_reducible apply ResOk.ite | split | dsimp only | with_reducible apply Canon.mk
                 | with_reducible apply CanonOf.of)

theorem execPtpAnnounceTx_canon {qs : Base} (port : Fin 22) (dom : Fin 2) {s : State} (hs : s.Ok qs) : ResOk qs
    (execPtpAnnounceTx port dom s) := by
  unfold execPtpAnnounceTx
  extract_lets +onlyGivenNames -underBinder q a
  try clear_value q
  try clear_value a
  repeat' (first | with_reducible intro _ | with_reducible assumption | with_reducible apply ResOk.next
                 | with_reducible apply State.send_canon | with_reducible apply Canon.ite
                 | with_reducible apply ResOk.ite | with_reducible apply Canon.ite1 | split | dsimp only
                 | with_reducible apply Canon.mk | with_reducible apply CanonOf.of)

theorem execDomainRequalified_canon {qs : Base} (dom : Fin 2) (t : Nat) {s : State} (hs : s.Ok qs) : ResOk qs
    (execDomainRequalified dom t s) := by
  unfold execDomainRequalified
  extract_lets +onlyGivenNames -underBinder s0 k
  have hs0 : s0.Ok qs := by
    unfold s0
    repeat' (first | with_reducible intro _ | with_reducible assumption | with_reducible apply State.at_canon
                   | with_reducible apply Canon.ite | split | dsimp only | with_reducible apply Canon.mk
                   | with_reducible apply CanonOf.of)
  clear_value s0
  try clear_value k
  repeat' (first | with_reducible intro _ | with_reducible assumption | with_reducible apply ResOk.next
                 | with_reducible apply State.setDom_canon | with_reducible apply State.timeShow_canon
                 | with_reducible apply Canon.ite | with_reducible apply ResOk.ite | split | dsimp only
                 | with_reducible apply Canon.mk | with_reducible apply CanonOf.of)

theorem State.shiftTimes_canon {qs : Base} {s : State} (new : Nat) (hs : s.Ok qs) : (State.shiftTimes s new).Ok qs := by
  unfold State.shiftTimes
  extract_lets +onlyGivenNames -underBinder f dt s1 s2 mv s3 s4 s5 s6 s7 bk ses s8 s9 tick
  try clear_value dt
  have hs1 : s1.Ok qs := by
    unfold s1
    repeat' (first | with_reducible intro _ | with_reducible assumption | with_reducible apply State.tw_canon
                   | with_reducible apply Canon.ite | split | dsimp only | with_reducible apply Canon.mk
                   | with_reducible apply CanonOf.of)
  clear_value s1
  have hs2 : s2.Ok qs := by
    unfold s2
    repeat' (first | with_reducible intro _ | with_reducible assumption | with_reducible apply Canon.ite | split
                   | dsimp only | with_reducible apply Canon.mk | with_reducible apply CanonOf.of)
  clear_value s2
  have hs3 : s3.Ok qs := by
    unfold s3
    repeat' (first | with_reducible intro _ | with_reducible assumption | with_reducible apply State.lp_canon
                   | with_reducible apply Canon.ite | split | dsimp only | with_reducible apply Canon.mk
                   | with_reducible apply CanonOf.of)
  clear_value s3
  have hs4 : s4.Ok qs := by
    unfold s4
    repeat' (first | with_reducible intro _ | with_reducible assumption | with_reducible apply State.lo_canon
                   | with_reducible apply Canon.ite | with_reducible apply Canon.ite1 | split | dsimp only
                   | with_reducible apply Canon.mk | with_reducible apply CanonOf.of)
  clear_value s4
  have hs5 : s5.Ok qs := by
    unfold s5
    repeat' (first | with_reducible intro _ | with_reducible assumption | with_reducible apply State.pn_canon
                   | with_reducible apply Canon.ite | split | dsimp only | with_reducible apply Canon.mk
                   | with_reducible apply CanonOf.of)
  clear_value s5
  have hs6 : s6.Ok qs := by
    unfold s6
    repeat' (first | with_reducible intro _ | with_reducible assumption | with_reducible apply State.tm_canon
                   | with_reducible apply Canon.ite | with_reducible apply Canon.ite1 | split | dsimp only
                   | with_reducible apply Canon.mk | with_reducible apply CanonOf.of)
  clear_value s6
  have hs7 : s7.Ok qs := by
    unfold s7
    repeat' (first | with_reducible intro _ | with_reducible assumption | with_reducible apply State.pw_canon
                   | with_reducible apply Canon.ite | split | dsimp only | with_reducible apply Canon.mk
                   | with_reducible apply CanonOf.of)
  clear_value s7
  try clear_value bk
  have hs8 : s8.Ok qs := by
    unfold s8
    repeat' (first | with_reducible intro _ | with_reducible assumption | with_reducible apply State.mg_canon
                   | with_reducible apply Canon.ite | split | dsimp only | with_reducible apply Canon.mk
                   | with_reducible apply CanonOf.of)
  clear_value s8
  have hs9 : s9.Ok qs := by
    unfold s9
    repeat' (first | with_reducible intro _ | with_reducible assumption | with_reducible apply State.fb_canon
                   | with_reducible apply Canon.ite | split | dsimp only | with_reducible apply Canon.mk
                   | with_reducible apply CanonOf.of)
  clear_value s9
  repeat' (first | with_reducible intro _ | with_reducible assumption | with_reducible apply Canon.ite
                 | with_reducible apply Canon.ite1 | split | dsimp only | with_reducible apply Canon.mk
                 | with_reducible apply CanonOf.of)

theorem State.beginTime_canon {qs : Base} {s : State} (line st : Nat) (hs : s.Ok qs) : (State.beginTime s line st).Ok qs := by
  unfold State.beginTime
  extract_lets +onlyGivenNames -underBinder s1 s2 s3
  have hs1 : s1.Ok qs := by
    unfold s1
    repeat' (first | with_reducible intro _ | with_reducible assumption | with_reducible apply State.shiftTimes_canon
                   | with_reducible apply Canon.ite | split | dsimp only | with_reducible apply Canon.mk
                   | with_reducible apply CanonOf.of)
  clear_value s1
  have hs2 : s2.Ok qs := by
    unfold s2
    repeat' (first | with_reducible intro _ | with_reducible assumption | with_reducible apply Canon.ite | split
                   | dsimp only | with_reducible apply Canon.mk | with_reducible apply CanonOf.of)
  clear_value s2
  have hs3 : s3.Ok qs := by
    unfold s3
    repeat' (first | with_reducible intro _ | with_reducible assumption | with_reducible apply State.tm_canon
                   | with_reducible apply Canon.ite | split | dsimp only | with_reducible apply Canon.mk
                   | with_reducible apply CanonOf.of)
  clear_value s3
  repeat' (first | with_reducible intro _ | with_reducible assumption | with_reducible apply State.put_canon
                 | with_reducible apply State.timeShow_canon | with_reducible apply Canon.ite | split | dsimp only
                 | with_reducible apply Canon.mk | with_reducible apply CanonOf.of)

theorem execTimeStart_canon {qs : Base} (t : Nat) {s : State} (hs : s.Ok qs) : ResOk qs (execTimeStart t s) := by
  unfold execTimeStart
  extract_lets +onlyGivenNames -underBinder s0
  have hs0 : s0.Ok qs := by
    unfold s0
    repeat' (first | with_reducible intro _ | with_reducible assumption | with_reducible apply State.at_canon
                   | with_reducible apply Canon.ite | split | dsimp only | with_reducible apply Canon.mk
                   | with_reducible apply CanonOf.of)
  clear_value s0
  repeat' (first | with_reducible intro _ | with_reducible assumption | with_reducible apply ResOk.next
                 | with_reducible apply State.raise_canon | with_reducible apply State.beginTime_canon
                 | with_reducible apply Canon.ite | with_reducible apply ResOk.ite | split | dsimp only
                 | with_reducible apply Canon.mk | with_reducible apply CanonOf.of)

theorem execLockWaitExpiry_canon {qs : Base} (t : Nat) {s : State} (hs : s.Ok qs) : ResOk qs (execLockWaitExpiry t s) := by
  unfold execLockWaitExpiry
  extract_lets +onlyGivenNames -underBinder s0
  have hs0 : s0.Ok qs := by
    unfold s0
    repeat' (first | with_reducible intro _ | with_reducible assumption | with_reducible apply State.at_canon
                   | with_reducible apply Canon.ite | split | dsimp only | with_reducible apply Canon.mk
                   | with_reducible apply CanonOf.of)
  clear_value s0
  with_reducible apply ResOk.next
  with_reducible apply Canon.ite
  · repeat' (first | with_reducible intro _ | with_reducible assumption | with_reducible apply Canon.ite | split
                   | dsimp only | with_reducible apply Canon.mk | with_reducible apply CanonOf.of)
  extract_lets +onlyGivenNames -underBinder lw
  try clear_value lw
  repeat' (first | with_reducible intro _ | with_reducible assumption | with_reducible apply State.raise_canon
                 | with_reducible apply State.beginTime_canon | with_reducible apply Canon.ite | split | dsimp only
                 | with_reducible apply Canon.mk | with_reducible apply CanonOf.of)

theorem State.timTo_canon {qs : Base} {s : State} (st : Nat) (ofs : Int) (hs : s.Ok qs) : (State.timTo s st ofs).Ok qs := by
  unfold State.timTo
  extract_lets +onlyGivenNames -underBinder was s1
  try clear_value was
  have hs1 : s1.Ok qs := by
    unfold s1
    repeat' (first | with_reducible intro _ | with_reducible assumption | with_reducible apply State.tm_canon
                   | with_reducible apply Canon.ite | split | dsimp only | with_reducible apply Canon.mk
                   | with_reducible apply CanonOf.of)
  clear_value s1
  repeat' (first | with_reducible intro _ | with_reducible assumption | with_reducible apply State.put_canon
                 | with_reducible apply State.timeShow_canon | with_reducible apply Canon.ite | split | dsimp only
                 | with_reducible apply Canon.mk | with_reducible apply CanonOf.of)

theorem State.holdover_canon {qs : Base} {s : State} (hs : s.Ok qs) : (State.holdover s).Ok qs := by
  unfold State.holdover
  repeat' (first | with_reducible intro _ | with_reducible assumption | with_reducible apply State.put_canon
                 | with_reducible apply State.raise_canon | with_reducible apply State.timTo_canon
                 | with_reducible apply Canon.ite | split | dsimp only | with_reducible apply Canon.mk
                 | with_reducible apply CanonOf.of)

theorem State.lockTo_canon {qs : Base} {s : State} (d : Nat) (hs : s.Ok qs) : (State.lockTo s d).Ok qs := by
  unfold State.lockTo
  extract_lets +onlyGivenNames -underBinder was o s1
  try clear_value was
  try clear_value o
  have hs1 : s1.Ok qs := by
    unfold s1
    repeat' (first | with_reducible intro _ | with_reducible assumption | with_reducible apply State.timTo_canon
                   | with_reducible apply Canon.ite | split | dsimp only | with_reducible apply Canon.mk
                   | with_reducible apply CanonOf.of)
  clear_value s1
  repeat' (first | with_reducible intro _ | with_reducible assumption | with_reducible apply State.raise_canon
                 | with_reducible apply Canon.ite | split | dsimp only | with_reducible apply Canon.mk
                 | with_reducible apply CanonOf.of)

theorem State.refUpdate_canon {qs : Base} {s : State} (hs : s.Ok qs) : (State.refUpdate s).Ok qs := by
  unfold State.refUpdate
  extract_lets +onlyGivenNames -underBinder m w st
  try clear_value m
  try clear_value w
  try clear_value st
  repeat' (first | with_reducible intro _ | with_reducible assumption | with_reducible apply State.raise_canon
                 | with_reducible apply State.timTo_canon | with_reducible apply State.holdover_canon
                 | with_reducible apply State.lockTo_canon | with_reducible apply Canon.ite | split | dsimp only
                 | with_reducible apply Canon.mk | with_reducible apply CanonOf.of)

theorem execServoReferenceChange_canon {qs : Base} (t : Nat) {s : State} (hs : s.Ok qs) : ResOk qs
    (execServoReferenceChange t s) := by
  unfold execServoReferenceChange
  repeat' (first | with_reducible intro _ | with_reducible assumption | with_reducible apply ResOk.next
                 | with_reducible apply State.at_canon | with_reducible apply State.refUpdate_canon
                 | with_reducible apply Canon.ite | with_reducible apply ResOk.ite | split | dsimp only
                 | with_reducible apply Canon.mk | with_reducible apply CanonOf.of)

theorem State.holdShow_canon {qs : Base} {s : State} (hs : s.Ok qs) : (State.holdShow s).Ok qs := by
  unfold State.holdShow
  repeat' (first | with_reducible intro _ | with_reducible assumption | with_reducible apply State.put_canon
                 | with_reducible apply Canon.ite | split | dsimp only | with_reducible apply Canon.mk
                 | with_reducible apply CanonOf.of)

theorem execHoldoverDegraded_canon {qs : Base} (t : Nat) {s : State} (hs : s.Ok qs) : ResOk qs
    (execHoldoverDegraded t s) := by
  unfold execHoldoverDegraded
  extract_lets +onlyGivenNames -underBinder s0
  have hs0 : s0.Ok qs := by
    unfold s0
    repeat' (first | with_reducible intro _ | with_reducible assumption | with_reducible apply State.at_canon
                   | with_reducible apply State.holdShow_canon | with_reducible apply Canon.ite | split | dsimp only
                   | with_reducible apply Canon.mk | with_reducible apply CanonOf.of)
  clear_value s0
  repeat' (first | with_reducible intro _ | with_reducible assumption | with_reducible apply ResOk.next
                 | with_reducible apply State.raise_canon | with_reducible apply State.tm_canon
                 | with_reducible apply State.timeShow_canon | with_reducible apply Canon.ite
                 | with_reducible apply ResOk.ite | split | dsimp only | with_reducible apply Canon.mk
                 | with_reducible apply CanonOf.of)

theorem execAgeingMeasurement_canon {qs : Base} (ppb : Word) (t : Nat) {s : State} (hs : s.Ok qs) : ResOk qs
    (execAgeingMeasurement ppb t s) := by
  unfold execAgeingMeasurement
  extract_lets +onlyGivenNames -underBinder s0 st
  have hs0 : s0.Ok qs := by
    unfold s0
    repeat' (first | with_reducible intro _ | with_reducible assumption | with_reducible apply State.at_canon
                   | with_reducible apply Canon.ite | split | dsimp only | with_reducible apply Canon.mk
                   | with_reducible apply CanonOf.of)
  clear_value s0
  try clear_value st
  repeat' (first | with_reducible intro _ | with_reducible assumption | with_reducible apply ResOk.next
                 | with_reducible apply State.tm_canon | with_reducible apply State.calAge_canon
                 | with_reducible apply Canon.ite | with_reducible apply ResOk.ite | split | dsimp only
                 | with_reducible apply Canon.mk | with_reducible apply CanonOf.of)

theorem State.rateStep_canon {qs : Base} {s : State} (hs : s.Ok qs) : (State.rateStep s).Ok qs := by
  unfold State.rateStep
  extract_lets +onlyGivenNames -underBinder a s1 p l d
  try clear_value a
  have hs1 : s1.Ok qs := by
    unfold s1
    repeat' (first | with_reducible intro _ | with_reducible assumption | with_reducible apply State.take_canon
                   | with_reducible apply State.wrI_canon | with_reducible apply Canon.ite | split | dsimp only
                   | with_reducible apply Canon.mk | with_reducible apply CanonOf.of)
  clear_value s1
  try clear_value p
  try clear_value l
  try clear_value d
  repeat' (first | with_reducible intro _ | with_reducible assumption | with_reducible apply State.tm_canon
                 | with_reducible apply State.timeShow_canon | with_reducible apply Canon.ite | split | dsimp only
                 | with_reducible apply Canon.mk | with_reducible apply CanonOf.of)

theorem State.twinSplit_canon {qs : Base} {s : State} (o : Int) (hs : s.Ok qs) : (State.twinSplit s o).Ok qs := by
  unfold State.twinSplit
  extract_lets +onlyGivenNames -underBinder ovr s1
  try clear_value ovr
  have hs1 : s1.Ok qs := by
    unfold s1
    repeat' (first | with_reducible intro _ | with_reducible assumption | with_reducible apply State.tm_canon
                   | with_reducible apply State.wrI_canon | with_reducible apply Canon.ite | split | dsimp only
                   | with_reducible apply Canon.mk | with_reducible apply CanonOf.of)
  clear_value s1
  repeat' (first | with_reducible intro _ | with_reducible assumption | with_reducible apply State.put_canon
                 | with_reducible apply State.raise_canon | with_reducible apply Canon.ite | split | dsimp only
                 | with_reducible apply Canon.mk | with_reducible apply CanonOf.of)

theorem State.timeBoundary_canon {qs : Base} {s : State} (n : Nat) (hs : s.Ok qs) : (State.timeBoundary s n).Ok qs := by
  unfold State.timeBoundary
  extract_lets +onlyGivenNames -underBinder s1
  have hs1 : s1.Ok qs := by
    unfold s1
    repeat' (first | with_reducible intro _ | with_reducible assumption | with_reducible apply State.holdShow_canon
                   | with_reducible apply State.rateStep_canon | with_reducible apply Canon.ite | split | dsimp only
                   | with_reducible apply Canon.mk | with_reducible apply CanonOf.of)
  clear_value s1
  repeat' (first | with_reducible intro _ | with_reducible assumption | with_reducible apply State.tm_canon
                 | with_reducible apply State.twinSplit_canon | with_reducible apply Canon.ite | split | dsimp only
                 | with_reducible apply Canon.mk | with_reducible apply CanonOf.of)

theorem State.stepRefuse_canon {qs : Base} {s : State} (r : Nat) (hs : s.Ok qs) : (State.stepRefuse s r).Ok qs := by
  unfold State.stepRefuse
  repeat' (first | with_reducible intro _ | with_reducible assumption | with_reducible apply State.put_canon
                 | with_reducible apply State.raise_canon | with_reducible apply Canon.ite | split | dsimp only
                 | with_reducible apply Canon.mk | with_reducible apply CanonOf.of)

theorem State.stepName_canon {qs : Base} {s : State} (k : TimeStep) (hs : s.Ok qs) : (State.stepName s k).Ok qs := by
  unfold State.stepName
  extract_lets +onlyGivenNames -underBinder s1
  have hs1 : s1.Ok qs := by
    unfold s1
    repeat' (first | with_reducible intro _ | with_reducible assumption | with_reducible apply State.put_canon
                   | with_reducible apply State.tm_canon | with_reducible apply Canon.ite | split | dsimp only
                   | with_reducible apply Canon.mk | with_reducible apply CanonOf.of)
  clear_value s1
  repeat' (first | with_reducible intro _ | with_reducible assumption | with_reducible apply State.send_canon
                 | with_reducible apply Canon.ite | split | dsimp only | with_reducible apply Canon.mk
                 | with_reducible apply CanonOf.of)

theorem State.timStep_canon {qs : Base} {s : State} (d : Nat) (hs : s.Ok qs) : (State.timStep s d).1.Ok qs := by
  unfold State.timStep
  extract_lets +onlyGivenNames -underBinder o r
  try clear_value o
  try clear_value r
  repeat' (first | with_reducible intro _ | with_reducible assumption | with_reducible apply State.stepRefuse_canon
                 | with_reducible apply State.stepName_canon | with_reducible apply Canon.ite
                 | with_reducible apply Canon.ite1 | split | dsimp only | with_reducible apply Canon.mk
                 | with_reducible apply CanonOf.of)

theorem State.timApply_canon {qs : Base} {s : State} (hs : s.Ok qs) : (State.timApply s).1.Ok qs := by
  unfold State.timApply
  extract_lets +onlyGivenNames -underBinder v
  try clear_value v
  with_reducible apply Canon.ite1
  · repeat' (first | with_reducible intro _ | with_reducible assumption | with_reducible apply State.stepRefuse_canon
                   | with_reducible apply Canon.ite | with_reducible apply Canon.ite1 | split | dsimp only
                   | with_reducible apply Canon.mk | with_reducible apply CanonOf.of)
  repeat' (first | with_reducible intro _ | with_reducible assumption | with_reducible apply State.put_canon
                 | with_reducible apply State.beginTime_canon | with_reducible apply State.stepRefuse_canon
                 | with_reducible apply State.stepName_canon | with_reducible apply Canon.ite
                 | with_reducible apply Canon.ite1 | split | dsimp only | with_reducible apply Canon.mk
                 | with_reducible apply CanonOf.of)

theorem execTimStep_canon {qs : Base} (dom : Fin 2) (t : Nat) {s : State} (hs : s.Ok qs) : ResOk qs
    (execTimStep dom t s) := by
  unfold execTimStep
  repeat' (first | with_reducible intro _ | with_reducible assumption | with_reducible apply ResOk.next
                 | with_reducible apply State.put_canon | with_reducible apply State.at_canon
                 | with_reducible apply State.timStep_canon | with_reducible apply Canon.ite
                 | with_reducible apply ResOk.ite | with_reducible apply Canon.ite1 | split | dsimp only
                 | with_reducible apply Canon.mk | with_reducible apply CanonOf.of)

theorem execTimApply_canon {qs : Base} (t : Nat) {s : State} (hs : s.Ok qs) : ResOk qs (execTimApply t s) := by
  unfold execTimApply
  repeat' (first | with_reducible intro _ | with_reducible assumption | with_reducible apply ResOk.next
                 | with_reducible apply State.at_canon | with_reducible apply State.timApply_canon
                 | with_reducible apply Canon.ite | with_reducible apply ResOk.ite | with_reducible apply Canon.ite1
                 | split | dsimp only | with_reducible apply Canon.mk | with_reducible apply CanonOf.of)

theorem execStepRequestRx_canon {qs : Base} (at_ target : Nat) {s : State} (hs : s.Ok qs) : ResOk qs
    (execStepRequestRx at_ target s) := by
  unfold execStepRequestRx
  repeat' (first | with_reducible intro _ | with_reducible assumption | with_reducible apply ResOk.next
                 | with_reducible apply State.put_canon | with_reducible apply State.tm_canon
                 | with_reducible apply Canon.ite | with_reducible apply ResOk.ite | split | dsimp only
                 | with_reducible apply Canon.mk | with_reducible apply CanonOf.of)

theorem State.renameSets_canon {qs : Base} {s : State} (hs : s.Ok qs) : (State.renameSets s).Ok qs := by
  unfold State.renameSets
  repeat' (first | with_reducible intro _ | with_reducible assumption | with_reducible apply Canon.ite | split
                 | dsimp only | with_reducible apply Canon.mk | with_reducible apply CanonOf.of)

theorem State.timeRestart_canon {qs : Base} {s : State} (k : TimeStep) (hs : s.Ok qs) : (State.timeRestart s k).Ok qs := by
  unfold State.timeRestart
  extract_lets +onlyGivenNames -underBinder old s1 s2 s3 s4
  try clear_value old
  have hs1 : s1.Ok qs := by
    unfold s1
    repeat' (first | with_reducible intro _ | with_reducible assumption
                   | with_reducible apply State.dropActivations_canon | with_reducible apply State.dropSamples_canon
                   | with_reducible apply State.shiftTimes_canon | with_reducible apply Canon.ite | split | dsimp only
                   | with_reducible apply Canon.mk | with_reducible apply CanonOf.of)
  clear_value s1
  have hs2 : s2.Ok qs := by
    unfold s2
    repeat' (first | with_reducible intro _ | with_reducible assumption | with_reducible apply State.tw_canon
                   | with_reducible apply Canon.ite | split | dsimp only | with_reducible apply Canon.mk
                   | with_reducible apply CanonOf.of)
  clear_value s2
  have hs3 : s3.Ok qs := by
    unfold s3
    repeat' (first | with_reducible intro _ | with_reducible assumption | with_reducible apply State.tm_canon
                   | with_reducible apply Canon.ite | split | dsimp only | with_reducible apply Canon.mk
                   | with_reducible apply CanonOf.of)
  clear_value s3
  have hs4 : s4.Ok qs := by
    unfold s4
    repeat' (first | with_reducible intro _ | with_reducible assumption | with_reducible apply State.tm_canon
                   | with_reducible apply State.timeShow_canon | with_reducible apply Canon.ite | split | dsimp only
                   | with_reducible apply Canon.mk | with_reducible apply CanonOf.of)
  clear_value s4
  repeat' (first | with_reducible intro _ | with_reducible assumption | with_reducible apply State.put_canon
                 | with_reducible apply State.raise_canon | with_reducible apply State.renameSets_canon
                 | with_reducible apply Canon.ite | split | dsimp only | with_reducible apply Canon.mk
                 | with_reducible apply CanonOf.of)

theorem execTimeRestart_canon {qs : Base} {s : State} (hs : s.Ok qs) : ResOk qs (execTimeRestart s) := by
  unfold execTimeRestart
  repeat' (first | with_reducible intro _ | with_reducible assumption | with_reducible apply ResOk.next
                 | with_reducible apply State.at_canon | with_reducible apply State.beginTime_canon
                 | with_reducible apply State.timeRestart_canon | with_reducible apply Canon.ite
                 | with_reducible apply ResOk.ite | split | dsimp only | with_reducible apply Canon.mk
                 | with_reducible apply CanonOf.of)

theorem State.timLatch_canon {qs : Base} {s : State} (hs : s.Ok qs) : (State.timLatch s).Ok qs := by
  unfold State.timLatch
  repeat' (first | with_reducible intro _ | with_reducible assumption | with_reducible apply State.put_canon
                 | with_reducible apply State.wrN_canon | with_reducible apply Canon.ite | split | dsimp only
                 | with_reducible apply Canon.mk | with_reducible apply CanonOf.of)

theorem execTimNsRead_canon {qs : Base} (t : Nat) {s : State} (hs : s.Ok qs) : ResOk qs (execTimNsRead t s) := by
  unfold execTimNsRead
  repeat' (first | with_reducible intro _ | with_reducible assumption | with_reducible apply ResOk.next
                 | with_reducible apply State.at_canon | with_reducible apply State.timLatch_canon
                 | with_reducible apply Canon.ite | with_reducible apply ResOk.ite | split | dsimp only
                 | with_reducible apply Canon.mk | with_reducible apply CanonOf.of)

theorem State.ppsRise_canon {qs : Base} {s : State} (hs : s.Ok qs) : (State.ppsRise s).Ok qs := by
  unfold State.ppsRise
  extract_lets +onlyGivenNames -underBinder s1
  have hs1 : s1.Ok qs := by
    unfold s1
    repeat' (first | with_reducible intro _ | with_reducible assumption | with_reducible apply State.tm_canon
                   | with_reducible apply State.lo_canon | with_reducible apply Canon.ite | split | dsimp only
                   | with_reducible apply Canon.mk | with_reducible apply CanonOf.of)
  clear_value s1
  repeat' (first | with_reducible intro _ | with_reducible assumption | with_reducible apply State.send_canon
                 | with_reducible apply State.doDrive_canon | with_reducible apply Canon.ite | split | dsimp only
                 | with_reducible apply Canon.mk | with_reducible apply CanonOf.of)

theorem execPpsOutEdge_canon {qs : Base} (rising : Bool) (t : Nat) {s : State} (hs : s.Ok qs) : ResOk qs
    (execPpsOutEdge rising t s) := by
  unfold execPpsOutEdge
  extract_lets +onlyGivenNames -underBinder s0 last
  have hs0 : s0.Ok qs := by
    unfold s0
    repeat' (first | with_reducible intro _ | with_reducible assumption | with_reducible apply State.at_canon
                   | with_reducible apply Canon.ite | split | dsimp only | with_reducible apply Canon.mk
                   | with_reducible apply CanonOf.of)
  clear_value s0
  try clear_value last
  repeat' (first | with_reducible intro _ | with_reducible assumption | with_reducible apply ResOk.next
                 | with_reducible apply State.tm_canon | with_reducible apply State.lo_canon
                 | with_reducible apply State.doDrive_canon | with_reducible apply State.ppsRise_canon
                 | with_reducible apply Canon.ite | with_reducible apply ResOk.ite | split | dsimp only
                 | with_reducible apply Canon.mk | with_reducible apply CanonOf.of)

theorem execPpsInEdge_canon {qs : Base} (t : Nat) {s : State} (hs : s.Ok qs) : ResOk qs (execPpsInEdge t s) := by
  unfold execPpsInEdge
  extract_lets +onlyGivenNames -underBinder r o
  try clear_value r
  try clear_value o
  repeat' (first | with_reducible intro _ | with_reducible assumption | with_reducible apply ResOk.next
                 | with_reducible apply State.put_canon | with_reducible apply State.at_canon
                 | with_reducible apply Canon.ite | with_reducible apply ResOk.ite | split | dsimp only
                 | with_reducible apply Canon.mk | with_reducible apply CanonOf.of)

theorem execTwinSplitCheck_canon {qs : Base} (t1 : Stamp) (t2 t3 : Int) (t4 : Stamp) (quality : Fin 4) (hold : Bool)
    (dom : Fin 2) (arb : Bool) {s : State} (hs : s.Ok qs) : ResOk qs
        (execTwinSplitCheck t1 t2 t3 t4 quality hold dom arb s) := by
  unfold execTwinSplitCheck
  extract_lets +onlyGivenNames -underBinder asym o
  try clear_value asym
  try clear_value o
  with_reducible apply ResOk.next
  with_reducible apply Canon.ite
  · repeat' (first | with_reducible intro _ | with_reducible assumption | with_reducible apply Canon.ite | split
                   | dsimp only | with_reducible apply Canon.mk | with_reducible apply CanonOf.of)
  extract_lets +onlyGivenNames -underBinder s1
  have hs1 : s1.Ok qs := by
    unfold s1
    repeat' (first | with_reducible intro _ | with_reducible assumption | with_reducible apply State.tm_canon
                   | with_reducible apply Canon.ite | split | dsimp only | with_reducible apply Canon.mk
                   | with_reducible apply CanonOf.of)
  clear_value s1
  repeat' (first | with_reducible intro _ | with_reducible assumption | with_reducible apply State.timeShow_canon
                 | with_reducible apply State.twinSplit_canon | with_reducible apply Canon.ite | split | dsimp only
                 | with_reducible apply Canon.mk | with_reducible apply CanonOf.of)

theorem execTimeStep_canon {qs : Base} (ses : Fin 16) (req : Nat) (dom : Fin 2) (t : Nat) {s : State}
    (hs : s.Ok qs) : ResOk qs (execTimeStep ses req dom t s) := by
  unfold execTimeStep
  with_reducible apply ResOk.next
  repeat' (first | with_reducible intro _ | with_reducible assumption | with_reducible apply State.put_canon
                 | with_reducible apply State.at_canon | with_reducible apply State.ok_canon
                 | with_reducible apply State.refused_canon | with_reducible apply State.request_canon
                 | with_reducible apply State.timStep_canon | with_reducible apply Canon.ite
                 | with_reducible apply Canon.ite1 | split | dsimp only | with_reducible apply Canon.mk
                 | with_reducible apply CanonOf.of)

theorem execTimeApply_canon {qs : Base} (ses : Fin 16) (req : Nat) (t : Nat) {s : State} (hs : s.Ok qs) : ResOk qs
    (execTimeApply ses req t s) := by
  unfold execTimeApply
  with_reducible apply ResOk.next
  repeat' (first | with_reducible intro _ | with_reducible assumption | with_reducible apply State.at_canon
                 | with_reducible apply State.ok_canon | with_reducible apply State.refused_canon
                 | with_reducible apply State.request_canon | with_reducible apply State.timApply_canon
                 | with_reducible apply Canon.ite | with_reducible apply Canon.ite1 | split | dsimp only
                 | with_reducible apply Canon.mk | with_reducible apply CanonOf.of)

theorem execTimeQuery_canon {qs : Base} (ses : Fin 16) (req : Nat) (t : Nat) {s : State} (hs : s.Ok qs) : ResOk qs
    (execTimeQuery ses req t s) := by
  unfold execTimeQuery
  repeat' (first | with_reducible intro _ | with_reducible assumption | with_reducible apply ResOk.next
                 | with_reducible apply State.at_canon | with_reducible apply State.ok_canon
                 | with_reducible apply State.request_canon | with_reducible apply State.timLatch_canon
                 | with_reducible apply Canon.ite | with_reducible apply ResOk.ite | split | dsimp only
                 | with_reducible apply Canon.mk | with_reducible apply CanonOf.of)

end Sys2Proof.Machine
end

