-- ==== Sys2Proof/Laws/CanonTraceOp.lean ====
section
/-! SUPPORT. The canonical form is kept by the definitions of Machine/TraceOp.lean. -/
namespace Sys2Proof.Machine

theorem State.trcStart_canon {qs : Base} {s : State} (c : Nat) (hs : s.Ok qs) : (State.trcStart s c).Ok qs := by
  unfold State.trcStart
  repeat' (first | with_reducible intro _ | with_reducible assumption | with_reducible apply State.setTrace_canon
                 | with_reducible apply State.setTrc_canon | with_reducible apply Canon.ite | split | dsimp only
                 | with_reducible apply Canon.mk | with_reducible apply CanonOf.of)

theorem State.trcArm_canon {qs : Base} {s : State} (c : Nat) (hs : s.Ok qs) : (State.trcArm s c).1.Ok qs := by
  unfold State.trcArm
  repeat' (first | with_reducible intro _ | with_reducible assumption | with_reducible apply State.put_canon
                 | with_reducible apply State.raise_canon | with_reducible apply State.trcStart_canon
                 | with_reducible apply Canon.ite | with_reducible apply Canon.ite1 | split | dsimp only
                 | with_reducible apply Canon.mk | with_reducible apply CanonOf.of)

theorem State.trcAbort_canon {qs : Base} {s : State} (c : Nat) (hs : s.Ok qs) : (State.trcAbort s c).Ok qs := by
  unfold State.trcAbort
  repeat' (first | with_reducible intro _ | with_reducible assumption | with_reducible apply State.setTrace_canon
                 | with_reducible apply State.setTrc_canon | with_reducible apply Canon.ite | split | dsimp only
                 | with_reducible apply Canon.mk | with_reducible apply CanonOf.of)

theorem State.sampleDone_canon {qs : Base} {s : State} (slot : Nat) (fetch : Option Nat) (hs : s.Ok qs) :
    (State.sampleDone s slot fetch).Ok qs := by
  unfold State.sampleDone
  extract_lets +onlyGivenNames -underBinder o w s1
  try clear_value o
  try clear_value w
  have hs1 : s1.Ok qs := by
    unfold s1
    repeat' (first | with_reducible intro _ | with_reducible assumption | with_reducible apply State.take_canon
                   | with_reducible apply Canon.ite | split | dsimp only | with_reducible apply Canon.mk
                   | with_reducible apply CanonOf.of)
  clear_value s1
  repeat' (first | with_reducible intro _ | with_reducible assumption | with_reducible apply State.sl_canon
                 | with_reducible apply Canon.ite | split | dsimp only | with_reducible apply Canon.mk
                 | with_reducible apply CanonOf.of)

theorem execSampleComplete_canon {qs : Base} (slot : Fin 16384) (cause : Option HoldCause) (fetch : Option Nat)
    (t : Nat) {s : State} (hs : s.Ok qs) : ResOk qs (execSampleComplete slot cause fetch t s) := by
  unfold execSampleComplete
  extract_lets +onlyGivenNames -underBinder s0 d
  have hs0 : s0.Ok qs := by
    unfold s0
    repeat' (first | with_reducible intro _ | with_reducible assumption | with_reducible apply State.at_canon
                   | with_reducible apply Canon.ite | split | dsimp only | with_reducible apply Canon.mk
                   | with_reducible apply CanonOf.of)
  clear_value s0
  try clear_value d
  repeat' (first | with_reducible intro _ | with_reducible assumption | with_reducible apply ResOk.next
                 | with_reducible apply State.holdSample_canon | with_reducible apply State.sampleDone_canon
                 | with_reducible apply Canon.ite | with_reducible apply ResOk.ite | split | dsimp only
                 | with_reducible apply Canon.mk | with_reducible apply CanonOf.of)

theorem execTraceArm_canon {qs : Base} (c : Fin 32) {s : State} (hs : s.Ok qs) : ResOk qs (execTraceArm c s) := by
  unfold execTraceArm
  repeat' (first | with_reducible intro _ | with_reducible assumption | with_reducible apply ResOk.next
                 | with_reducible apply State.trcArm_canon | with_reducible apply Canon.ite
                 | with_reducible apply ResOk.ite | with_reducible apply Canon.ite1 | split | dsimp only
                 | with_reducible apply Canon.mk | with_reducible apply CanonOf.of)

theorem execTraceSwTrig_canon {qs : Base} (c : Fin 32) {s : State} (hs : s.Ok qs) : ResOk qs (execTraceSwTrig c s) := by
  unfold execTraceSwTrig
  repeat' (first | with_reducible intro _ | with_reducible assumption | with_reducible apply ResOk.next
                 | with_reducible apply State.trcTrigger_canon | with_reducible apply Canon.ite
                 | with_reducible apply ResOk.ite | split | dsimp only | with_reducible apply Canon.mk
                 | with_reducible apply CanonOf.of)

theorem execTraceAbort_canon {qs : Base} (c : Fin 32) {s : State} (hs : s.Ok qs) : ResOk qs (execTraceAbort c s) := by
  unfold execTraceAbort
  repeat' (first | with_reducible intro _ | with_reducible assumption | with_reducible apply ResOk.next
                 | with_reducible apply State.trcAbort_canon | with_reducible apply Canon.ite
                 | with_reducible apply ResOk.ite | split | dsimp only | with_reducible apply Canon.mk
                 | with_reducible apply CanonOf.of)

theorem execTracePreFilled_canon {qs : Base} (c : Fin 32) {s : State} (hs : s.Ok qs) : ResOk qs (execTracePreFilled c s) := by
  unfold execTracePreFilled
  repeat' (first | with_reducible intro _ | with_reducible assumption | with_reducible apply ResOk.next
                 | with_reducible apply State.setTrc_canon | with_reducible apply Canon.ite
                 | with_reducible apply ResOk.ite | split | dsimp only | with_reducible apply Canon.mk
                 | with_reducible apply CanonOf.of)

theorem execTracePostFilled_canon {qs : Base} (c : Fin 32) {s : State} (hs : s.Ok qs) : ResOk qs
    (execTracePostFilled c s) := by
  unfold execTracePostFilled
  repeat' (first | with_reducible intro _ | with_reducible assumption | with_reducible apply ResOk.next
                 | with_reducible apply State.setTrc_canon | with_reducible apply Canon.ite
                 | with_reducible apply ResOk.ite | split | dsimp only | with_reducible apply Canon.mk
                 | with_reducible apply CanonOf.of)

theorem State.offloadRec_canon {qs : Base} {s : State} (c a : Nat) (r : Nat × Nat) (hs : s.Ok qs) :
    (State.offloadRec s c a r).Ok qs := by
  unfold State.offloadRec
  repeat' (first | with_reducible intro _ | with_reducible assumption | with_reducible apply State.memW_canon
                 | with_reducible apply State.setTrace_canon | with_reducible apply Canon.ite
                 | with_reducible apply Canon.ite1 | split | dsimp only | with_reducible apply Canon.mk
                 | with_reducible apply CanonOf.of)

theorem State.offloadChan_canon {qs : Base} {s : State} (c k ch : Nat) (hs : s.Ok qs) :
    (State.offloadChan s c k ch).Ok qs := by
  unfold State.offloadChan
  extract_lets +onlyGivenNames -underBinder l
  try clear_value l
  repeat' (first | with_reducible intro _ | with_reducible assumption | with_reducible apply State.offloadRec_canon
                 | with_reducible apply State.each_canon | with_reducible apply Canon.ite
                 | with_reducible apply Canon.ite1 | split | dsimp only | with_reducible apply Canon.mk
                 | with_reducible apply CanonOf.of)

theorem State.offload_canon {qs : Base} {s : State} (c : Nat) (hs : s.Ok qs) : (State.offload s c).Ok qs := by
  unfold State.offload
  extract_lets +onlyGivenNames -underBinder k s1 lost s2 s3
  try clear_value k
  have hs1 : s1.Ok qs := by
    unfold s1
    repeat' (first | with_reducible intro _ | with_reducible assumption | with_reducible apply State.lp_canon
                   | with_reducible apply State.offloadChan_canon | with_reducible apply State.each_canon
                   | with_reducible apply Canon.ite | split | dsimp only | with_reducible apply Canon.mk
                   | with_reducible apply CanonOf.of)
  clear_value s1
  try clear_value lost
  have hs2 : s2.Ok qs := by
    unfold s2
    repeat' (first | with_reducible intro _ | with_reducible assumption | with_reducible apply State.putB_canon
                   | with_reducible apply State.bump_canon | with_reducible apply State.step1_canon
                   | with_reducible apply Canon.ite | split | dsimp only | with_reducible apply Canon.mk
                   | with_reducible apply CanonOf.of)
  clear_value s2
  have hs3 : s3.Ok qs := by
    unfold s3
    repeat' (first | with_reducible intro _ | with_reducible assumption | with_reducible apply State.raise_canon
                   | with_reducible apply Canon.ite | split | dsimp only | with_reducible apply Canon.mk
                   | with_reducible apply CanonOf.of)
  clear_value s3
  repeat' (first | with_reducible intro _ | with_reducible assumption | with_reducible apply State.setTrace_canon
                 | with_reducible apply State.setTrc_canon | with_reducible apply State.trcStart_canon
                 | with_reducible apply Canon.ite | split | dsimp only | with_reducible apply Canon.mk
                 | with_reducible apply CanonOf.of)

theorem execTraceOffloadComplete_canon {qs : Base} (c : Fin 32) {s : State} (hs : s.Ok qs) : ResOk qs
    (execTraceOffloadComplete c s) := by
  unfold execTraceOffloadComplete
  repeat' (first | with_reducible intro _ | with_reducible assumption | with_reducible apply ResOk.next
                 | with_reducible apply State.offload_canon | with_reducible apply Canon.ite
                 | with_reducible apply ResOk.ite | split | dsimp only | with_reducible apply Canon.mk
                 | with_reducible apply CanonOf.of)

end Sys2Proof.Machine
end

