-- ==== Sys2Proof/Laws/CanonRegAccess.lean ====
section
/-! SUPPORT. The canonical form is kept by the definitions of Machine/RegAccess.lean. -/
namespace Sys2Proof.Machine

theorem State.regAfter_canon {qs : Base} {s : State} (off : Nat) (hs : s.Ok qs) : (State.regAfter s off).Ok qs := by
  unfold State.regAfter
  with_reducible apply Canon.ite
  · repeat' (first | with_reducible intro _ | with_reducible assumption | with_reducible apply Canon.ite | split
                   | dsimp only | with_reducible apply Canon.mk | with_reducible apply CanonOf.of
                   | with_reducible apply Canon.latchW)
  with_reducible apply Canon.ite
  · repeat' (first | with_reducible intro _ | with_reducible assumption | with_reducible apply State.canBstatClear_canon
                   | with_reducible apply Canon.ite | split | dsimp only | with_reducible apply Canon.mk
                   | with_reducible apply CanonOf.of)
  repeat' (first | with_reducible intro _ | with_reducible assumption | with_reducible apply State.wr_canon
                 | with_reducible apply Canon.ite | split | dsimp only | with_reducible apply Canon.mk
                 | with_reducible apply CanonOf.of)

theorem State.regRead_canon {qs : Base} {s : State} (off : Nat) (hs : s.Ok qs) : (State.regRead s off).1.Ok qs := by
  unfold State.regRead
  repeat' (first | with_reducible intro _ | with_reducible assumption | with_reducible apply State.timLatch_canon
                 | with_reducible apply State.regAfter_canon | with_reducible apply Canon.ite
                 | with_reducible apply Canon.ite1 | split | dsimp only | with_reducible apply Canon.mk
                 | with_reducible apply CanonOf.of)

theorem State.mgmtLoad_canon {qs : Base} {s : State} (off size : Nat) (hs : s.Ok qs) :
    (State.mgmtLoad s off size).1.Ok qs := by
  unfold State.mgmtLoad
  repeat' (first | with_reducible intro _ | with_reducible assumption | with_reducible apply State.regRead_canon
                 | with_reducible apply Canon.ite | with_reducible apply Canon.ite1 | split | dsimp only
                 | with_reducible apply Canon.mk | with_reducible apply CanonOf.of)

theorem State.mgmtRead_canon {qs : Base} {s : State} (off : Nat) (hs : s.Ok qs) : (State.mgmtRead s off).1.Ok qs := by
  unfold State.mgmtRead
  repeat' (first | with_reducible intro _ | with_reducible assumption | with_reducible apply State.send_canon
                 | with_reducible apply State.noIsland_canon | with_reducible apply State.mgmtLoad_canon
                 | with_reducible apply Canon.ite | with_reducible apply Canon.ite1 | split | dsimp only
                 | with_reducible apply Canon.mk | with_reducible apply CanonOf.of)

theorem State.plainWrite_canon {qs : Base} {s : State} (off : Nat) (v : Word) (hs : s.Ok qs) :
    (State.plainWrite s off v).Ok qs := by
  unfold State.plainWrite
  repeat' (first | with_reducible intro _ | with_reducible assumption | with_reducible apply State.wr_canon
                 | with_reducible apply Canon.ite | split | dsimp only | with_reducible apply Canon.mk
                 | with_reducible apply CanonOf.of)

theorem State.accLoad_canon {qs : Base} {s : State} (c part : Nat) (hs : s.Ok qs) : (State.accLoad s c part).Ok qs := by
  unfold State.accLoad
  with_reducible apply Canon.ite
  · repeat' (first | with_reducible intro _ | with_reducible assumption | with_reducible apply State.put_canon
                   | with_reducible apply Canon.ite | split | dsimp only | with_reducible apply Canon.mk
                   | with_reducible apply CanonOf.of)
  extract_lets +onlyGivenNames -underBinder s1 known
  have hs1 : s1.Ok qs := by
    unfold s1
    repeat' (first | with_reducible intro _ | with_reducible assumption | with_reducible apply State.put_canon
                   | with_reducible apply Canon.ite | split | dsimp only | with_reducible apply Canon.mk
                   | with_reducible apply CanonOf.of)
  clear_value s1
  try clear_value known
  with_reducible apply Canon.ite
  · repeat' (first | with_reducible intro _ | with_reducible assumption | with_reducible apply State.put_canon
                   | with_reducible apply State.co_canon | with_reducible apply Canon.ite | split | dsimp only
                   | with_reducible apply Canon.mk | with_reducible apply CanonOf.of)
  extract_lets +onlyGivenNames -underBinder a s2
  try clear_value a
  have hs2 : s2.Ok qs := by
    unfold s2
    repeat' (first | with_reducible intro _ | with_reducible assumption | with_reducible apply State.co_canon
                   | with_reducible apply State.accSet_canon | with_reducible apply Canon.ite | split | dsimp only
                   | with_reducible apply Canon.mk | with_reducible apply CanonOf.of)
  clear_value s2
  repeat' (first | with_reducible intro _ | with_reducible assumption | with_reducible apply State.put_canon
                 | with_reducible apply State.raise_canon | with_reducible apply Canon.ite | split | dsimp only
                 | with_reducible apply Canon.mk | with_reducible apply CanonOf.of)

theorem State.doIf_canon {qs : Base} {s : State} (b : Bool) (f : State → Res) (hf : ∀ (a0 : State), a0.Ok qs → ResOk qs
    (f a0)) (hs : s.Ok qs) : (State.doIf s b f).Ok qs := by
  unfold State.doIf
  repeat' (first | with_reducible intro _ | with_reducible assumption | with_reducible apply resState_canon
                 | with_reducible apply hf | with_reducible apply Canon.ite | split | dsimp only
                 | with_reducible apply Canon.mk | with_reducible apply CanonOf.of)

theorem State.trcCtl_canon {qs : Base} {s : State} (c : Nat) (v : Word) (hs : s.Ok qs) : (State.trcCtl s c v).1.Ok qs := by
  unfold State.trcCtl
  extract_lets +onlyGivenNames -underBinder a
  have ha : a.1.Ok qs := by
    unfold a
    repeat' (first | with_reducible intro _ | with_reducible assumption | with_reducible apply State.trcArm_canon
                   | with_reducible apply Canon.ite | with_reducible apply Canon.ite1 | split | dsimp only
                   | with_reducible apply Canon.mk | with_reducible apply CanonOf.of)
  clear_value a
  repeat' (first | with_reducible intro _ | with_reducible assumption | with_reducible apply State.trcTrigger_canon
                 | with_reducible apply State.trcAbort_canon | with_reducible apply State.when_canon
                 | with_reducible apply Canon.ite | with_reducible apply Canon.ite1 | split | dsimp only
                 | with_reducible apply Canon.mk | with_reducible apply CanonOf.of)

theorem State.trcStore_canon {qs : Base} {s : State} (c o : Nat) (v : Word) (hs : s.Ok qs) :
    (State.trcStore s c o v).1.Ok qs := by
  unfold State.trcStore
  extract_lets +onlyGivenNames -underBinder s1
  have hs1 : s1.Ok qs := by
    unfold s1
    repeat' (first | with_reducible intro _ | with_reducible assumption | with_reducible apply State.plainWrite_canon
                   | with_reducible apply Canon.ite | split | dsimp only | with_reducible apply Canon.mk
                   | with_reducible apply CanonOf.of)
  clear_value s1
  repeat' (first | with_reducible intro _ | with_reducible assumption | with_reducible apply State.trcCtl_canon
                 | with_reducible apply Canon.ite | with_reducible apply Canon.ite1 | split | dsimp only
                 | with_reducible apply Canon.mk | with_reducible apply CanonOf.of)

theorem State.modStore_canon {qs : Base} {s : State} (v : Word) (hs : s.Ok qs) : (State.modStore s v).Ok qs := by
  unfold State.modStore
  extract_lets +onlyGivenNames -underBinder s1 _ k s2
  have hs1 : s1.Ok qs := by
    unfold s1
    repeat' (first | with_reducible intro _ | with_reducible assumption | with_reducible apply State.plainWrite_canon
                   | with_reducible apply Canon.ite | split | dsimp only | with_reducible apply Canon.mk
                   | with_reducible apply CanonOf.of)
  clear_value s1
  try clear_value k
  have hs2 : s2.Ok qs := by
    unfold s2
    repeat' (first | with_reducible intro _ | with_reducible assumption | with_reducible apply Canon.ite | split
                   | dsimp only | with_reducible apply Canon.mk | with_reducible apply CanonOf.of)
  clear_value s2
  repeat' (first | with_reducible intro _ | with_reducible assumption | with_reducible apply State.modRestart_canon
                 | with_reducible apply State.forceRestart_canon | with_reducible apply State.when_canon
                 | with_reducible apply Canon.ite | with_reducible apply Canon.ite1 | split | dsimp only
                 | with_reducible apply Canon.mk | with_reducible apply CanonOf.of)

theorem State.canCtl_canon {qs : Base} {s : State} (c : Nat) (v : Word) (hs : s.Ok qs) : (State.canCtl s c v).Ok qs := by
  unfold State.canCtl
  extract_lets +onlyGivenNames -underBinder i
  try clear_value i
  repeat' (first | with_reducible intro _ | with_reducible assumption | with_reducible apply execCanRecover_canon
                 | with_reducible apply execCanPop0_canon | with_reducible apply execCanPop1_canon
                 | with_reducible apply execCanPush_canon | with_reducible apply State.doIf_canon
                 | with_reducible apply Canon.ite | split | dsimp only | with_reducible apply Canon.mk
                 | with_reducible apply CanonOf.of)

theorem State.ringCtl_canon {qs : Base} {s : State} (r : Nat) (v : Word) (hs : s.Ok qs) : (State.ringCtl s r v).Ok qs := by
  unfold State.ringCtl
  repeat' (first | with_reducible intro _ | with_reducible assumption | with_reducible apply State.ringRelease_canon
                 | with_reducible apply State.censusNow_canon | with_reducible apply State.when_canon
                 | with_reducible apply Canon.ite | split | dsimp only | with_reducible apply Canon.mk
                 | with_reducible apply CanonOf.of)

theorem State.scapCtl_canon {qs : Base} {s : State} (r : Nat) (v : Word) (hs : s.Ok qs) : (State.scapCtl s r v).1.Ok qs := by
  unfold State.scapCtl
  extract_lets +onlyGivenNames -underBinder a
  have ha : a.1.Ok qs := by
    unfold a
    repeat' (first | with_reducible intro _ | with_reducible assumption | with_reducible apply State.put_canon
                   | with_reducible apply State.scapSet_canon | with_reducible apply State.when_canon
                   | with_reducible apply Canon.ite | with_reducible apply Canon.ite1 | split | dsimp only
                   | with_reducible apply Canon.mk | with_reducible apply CanonOf.of)
  clear_value a
  repeat' (first | with_reducible intro _ | with_reducible assumption | with_reducible apply Canon.ite
                 | with_reducible apply Canon.ite1 | split | dsimp only | with_reducible apply Canon.mk
                 | with_reducible apply CanonOf.of)

theorem State.timCtl_canon {qs : Base} {s : State} (lv : Nat) (v : Word) (hs : s.Ok qs) : (State.timCtl s lv v).Ok qs := by
  unfold State.timCtl
  repeat' (first | with_reducible intro _ | with_reducible assumption | with_reducible apply State.timStep_canon
                 | with_reducible apply State.timApply_canon | with_reducible apply State.when_canon
                 | with_reducible apply Canon.ite | with_reducible apply Canon.ite1 | split | dsimp only
                 | with_reducible apply Canon.mk | with_reducible apply CanonOf.of)

theorem State.hartCtl_canon {qs : Base} {s : State} (m : Nat) (b : Bool) (hs : s.Ok qs) : (State.hartCtl s m b).1.Ok qs := by
  unfold State.hartCtl
  repeat' (first | with_reducible intro _ | with_reducible assumption | with_reducible apply State.hartClaim_canon
                 | with_reducible apply State.when_canon | with_reducible apply Canon.ite
                 | with_reducible apply Canon.ite1 | split | dsimp only | with_reducible apply Canon.mk
                 | with_reducible apply CanonOf.of)

theorem State.regAct_canon {qs : Base} {s : State} (lv off : Nat) (v : Word) (hs : s.Ok qs) :
    (State.regAct s lv off v).1.Ok qs := by
  have hp : (s.plainWrite off v).Ok qs := State.plainWrite_canon _ _ hs
  unfold State.regAct
  extract_lets +onlyGivenNames -underBinder p
  replace hp : p.Ok qs := hp
  clear_value p
  repeat' with_reducible apply Canon.ite1
  · exact Canon.ite hs (State.when_canon (fun _ h => State.unchoose_canon h) (State.when_canon
      (fun _ h => State.selSet_canon h) hp))
  · exact State.when_canon (fun _ h => State.partCtl_canon _ _ h) hp
  · exact State.trcStore_canon _ _ _ hs
  · exact State.ringCtl_canon _ _ hp
  · exact State.scapCtl_canon _ _ hs
  · exact State.when_canon (fun _ h => State.rejoin_canon h) (State.when_canon (fun _ h => State.swap_canon h) hp)
  · exact State.timCtl_canon _ _ hp
  · exact State.tripClr_canon _ hs
  · exact State.hartCtl_canon _ _ hp
  · exact State.doIf_canon _ _ (fun _ h => execCalCommit_canon h) hs
  · exact State.canCtl_canon _ _ hs
  · exact State.modStore_canon _ hs
  · exact hp

theorem State.regWrite_canon {qs : Base} {s : State} (cp : Option Nat) (lv off : Nat) (v : Word) (hs : s.Ok qs) :
    (State.regWrite s cp lv off v).1.Ok qs := by
  unfold State.regWrite
  repeat' (first | with_reducible intro _ | with_reducible assumption | with_reducible apply State.put_canon
                 | with_reducible apply State.accLoad_canon | with_reducible apply State.regAct_canon
                 | with_reducible apply State.when_canon | with_reducible apply Canon.ite
                 | with_reducible apply Canon.ite1 | split | dsimp only | with_reducible apply Canon.mk
                 | with_reducible apply CanonOf.of)

theorem State.mgmtStore_canon {qs : Base} {s : State} (cp : Option Nat) (lv off : Nat) (v : Word) (hs : s.Ok qs) :
    (State.mgmtStore s cp lv off v).1.Ok qs := by
  unfold State.mgmtStore
  repeat' (first | with_reducible intro _ | with_reducible assumption | with_reducible apply State.put_canon
                 | with_reducible apply State.flagWrite_canon | with_reducible apply State.regWrite_canon
                 | with_reducible apply Canon.ite | with_reducible apply Canon.ite1 | split | dsimp only
                 | with_reducible apply Canon.mk | with_reducible apply CanonOf.of)

theorem State.readOut_canon {qs : Base} {s : State} (off : Nat) (hs : s.Ok qs) : (State.readOut s off).Ok qs := by
  unfold State.readOut
  repeat' (first | with_reducible intro _ | with_reducible assumption | with_reducible apply State.send_canon
                 | with_reducible apply State.noIsland_canon | with_reducible apply State.regRead_canon
                 | with_reducible apply Canon.ite | with_reducible apply Canon.ite1 | split | dsimp only
                 | with_reducible apply Canon.mk | with_reducible apply CanonOf.of)

theorem execLatchedLowWordRead_canon {qs : Base} (off : BitVec 32) {s : State} (hs : s.Ok qs) : ResOk qs
    (execLatchedLowWordRead off s) := by
  unfold execLatchedLowWordRead
  repeat' (first | with_reducible intro _ | with_reducible assumption | with_reducible apply ResOk.next
                 | with_reducible apply State.readOut_canon | with_reducible apply Canon.ite
                 | with_reducible apply ResOk.ite | split | dsimp only | with_reducible apply Canon.mk
                 | with_reducible apply CanonOf.of)

theorem execRcFieldRead_canon {qs : Base} (off : BitVec 32) {s : State} (hs : s.Ok qs) : ResOk qs
    (execRcFieldRead off s) := by
  unfold execRcFieldRead
  repeat' (first | with_reducible intro _ | with_reducible assumption | with_reducible apply ResOk.next
                 | with_reducible apply State.readOut_canon | with_reducible apply Canon.ite
                 | with_reducible apply ResOk.ite | split | dsimp only | with_reducible apply Canon.mk
                 | with_reducible apply CanonOf.of)

theorem execAccLoad_canon {qs : Base} (c : Fin 32) (part : Fin 256) {s : State} (hs : s.Ok qs) : ResOk qs
    (execAccLoad c part s) := by
  unfold execAccLoad
  repeat' (first | with_reducible intro _ | with_reducible assumption | with_reducible apply ResOk.next
                 | with_reducible apply State.accLoad_canon | with_reducible apply Canon.ite
                 | with_reducible apply ResOk.ite | split | dsimp only | with_reducible apply Canon.mk
                 | with_reducible apply CanonOf.of)

theorem execAccLoadComplete_canon {qs : Base} (c : Fin 32) {s : State} (hs : s.Ok qs) : ResOk qs
    (execAccLoadComplete c s) := by
  unfold execAccLoadComplete
  with_reducible apply ResOk.next
  with_reducible apply Canon.ite
  · repeat' (first | with_reducible intro _ | with_reducible assumption | with_reducible apply Canon.ite | split
                   | dsimp only | with_reducible apply Canon.mk | with_reducible apply CanonOf.of)
  extract_lets +onlyGivenNames -underBinder a s1
  try clear_value a
  have hs1 : s1.Ok qs := by
    unfold s1
    repeat' (first | with_reducible intro _ | with_reducible assumption | with_reducible apply State.co_canon
                   | with_reducible apply State.accSet_canon | with_reducible apply Canon.ite | split | dsimp only
                   | with_reducible apply Canon.mk | with_reducible apply CanonOf.of)
  clear_value s1
  repeat' (first | with_reducible intro _ | with_reducible assumption | with_reducible apply State.put_canon
                 | with_reducible apply Canon.ite | split | dsimp only | with_reducible apply Canon.mk
                 | with_reducible apply CanonOf.of)

theorem execAccFaddrRead_canon {qs : Base} (c : Fin 32) {s : State} (hs : s.Ok qs) : ResOk qs (execAccFaddrRead c s) := by
  unfold execAccFaddrRead
  repeat' (first | with_reducible intro _ | with_reducible assumption | with_reducible apply ResOk.next
                 | with_reducible apply State.readOut_canon | with_reducible apply Canon.ite
                 | with_reducible apply ResOk.ite | split | dsimp only | with_reducible apply Canon.mk
                 | with_reducible apply CanonOf.of)

end Sys2Proof.Machine
end

