-- ==== Sys2Proof/Laws/CanonMgmt.lean ====
section
/-! SUPPORT. The canonical form is kept by the definitions of Machine/Mgmt.lean. -/
namespace Sys2Proof.Machine

theorem execNetworkEcho_canon {qs : Base} (port : Fin 3) (kind : Fin 4) (fragment onActive : Bool) {s : State}
    (hs : s.Ok qs) : ResOk qs (execNetworkEcho port kind fragment onActive s) := by
  unfold execNetworkEcho
  repeat' (first | with_reducible intro _ | with_reducible assumption | with_reducible apply ResOk.next
                 | with_reducible apply State.send_canon | with_reducible apply Canon.ite
                 | with_reducible apply ResOk.ite | split | dsimp only | with_reducible apply Canon.mk
                 | with_reducible apply CanonOf.of)

theorem State.openSession_canon {qs : Base} {s : State} (port : Nat) (control onActive : Bool) (addrHash : BitVec 32)
    (hs : s.Ok qs) : (State.openSession s port control onActive addrHash).Ok qs := by
  unfold State.openSession
  extract_lets +onlyGivenNames -underBinder l ctl
  try clear_value l
  try clear_value ctl
  with_reducible apply Canon.ite
  · repeat' (first | with_reducible intro _ | with_reducible assumption | with_reducible apply State.raise_canon
                   | with_reducible apply Canon.ite | split | dsimp only | with_reducible apply Canon.mk
                   | with_reducible apply CanonOf.of)
  extract_lets +onlyGivenNames -underBinder n
  try clear_value n
  repeat' (first | with_reducible intro _ | with_reducible assumption | with_reducible apply State.raise_canon
                 | with_reducible apply State.setSession_canon | with_reducible apply Canon.ite | split | dsimp only
                 | with_reducible apply Canon.mk | with_reducible apply CanonOf.of)

theorem execDtlsHandshake_canon {qs : Base} (port : Fin 3) (key : List Byte) (onActive v6 ok : Bool)
    (addrHash : BitVec 32) (t : Nat) {s : State} (hs : s.Ok qs) : ResOk qs
        (execDtlsHandshake port key onActive v6 ok addrHash t s) := by
  unfold execDtlsHandshake
  extract_lets +onlyGivenNames -underBinder s0 c
  have hs0 : s0.Ok qs := by
    unfold s0
    repeat' (first | with_reducible intro _ | with_reducible assumption | with_reducible apply State.at_canon
                   | with_reducible apply Canon.ite | split | dsimp only | with_reducible apply Canon.mk
                   | with_reducible apply CanonOf.of)
  clear_value s0
  try clear_value c
  repeat' (first | with_reducible intro _ | with_reducible assumption | with_reducible apply ResOk.next
                 | with_reducible apply State.raise_canon | with_reducible apply State.openSession_canon
                 | with_reducible apply Canon.ite | with_reducible apply ResOk.ite | split | dsimp only
                 | with_reducible apply Canon.mk | with_reducible apply CanonOf.of)

theorem execSessionIdleTimeout_canon {qs : Base} (ses : Fin 16) (t : Nat) {s : State} (hs : s.Ok qs) : ResOk qs
    (execSessionIdleTimeout ses t s) := by
  unfold execSessionIdleTimeout
  extract_lets +onlyGivenNames -underBinder s0
  have hs0 : s0.Ok qs := by
    unfold s0
    repeat' (first | with_reducible intro _ | with_reducible assumption | with_reducible apply State.at_canon
                   | with_reducible apply Canon.ite | split | dsimp only | with_reducible apply Canon.mk
                   | with_reducible apply CanonOf.of)
  clear_value s0
  repeat' (first | with_reducible intro _ | with_reducible assumption | with_reducible apply ResOk.next
                 | with_reducible apply State.closeSession_canon | with_reducible apply Canon.ite
                 | with_reducible apply ResOk.ite | split | dsimp only | with_reducible apply Canon.mk
                 | with_reducible apply CanonOf.of)

theorem State.requestIn_canon {qs : Base} {s : State} (ses : Nat) (k : Session) (f : FragReq) (hs : s.Ok qs) :
    (State.requestIn s ses k f).Ok qs := by
  unfold State.requestIn
  extract_lets +onlyGivenNames -underBinder s1
  have hs1 : s1.Ok qs := by
    unfold s1
    repeat' (first | with_reducible intro _ | with_reducible assumption | with_reducible apply State.setSession_canon
                   | with_reducible apply Canon.ite | split | dsimp only | with_reducible apply Canon.mk
                   | with_reducible apply CanonOf.of)
  clear_value s1
  with_reducible apply Canon.ite
  · repeat' (first | with_reducible intro _ | with_reducible assumption | with_reducible apply Canon.ite | split
                   | dsimp only | with_reducible apply Canon.mk | with_reducible apply CanonOf.of)
  repeat' (first | with_reducible intro _ | with_reducible assumption | with_reducible apply State.total_canon
                 | with_reducible apply State.setSession_canon | with_reducible apply State.respond_canon
                 | with_reducible apply State.answer_canon | with_reducible apply Canon.ite | split | dsimp only
                 | with_reducible apply Canon.mk | with_reducible apply CanonOf.of)

theorem State.fragment_canon {qs : Base} {s : State} (ses : Nat) (k : Session) (b : List Byte) (hs : s.Ok qs) :
    (State.fragment s ses k b).Ok qs := by
  unfold State.fragment
  extract_lets +onlyGivenNames -underBinder req old i f
  try clear_value req
  try clear_value old
  try clear_value i
  try clear_value f
  repeat' (first | with_reducible intro _ | with_reducible assumption | with_reducible apply State.setSession_canon
                 | with_reducible apply State.requestIn_canon | with_reducible apply Canon.ite | split | dsimp only
                 | with_reducible apply Canon.mk | with_reducible apply CanonOf.of)

theorem execQmpFragmentRx_canon {qs : Base} (ses : Fin 16) (b : List Byte) (t : Nat) {s : State} (hs : s.Ok qs) : ResOk qs
    (execQmpFragmentRx ses b t s) := by
  unfold execQmpFragmentRx
  extract_lets +onlyGivenNames -underBinder s0
  have hs0 : s0.Ok qs := by
    unfold s0
    repeat' (first | with_reducible intro _ | with_reducible assumption | with_reducible apply State.at_canon
                   | with_reducible apply Canon.ite | split | dsimp only | with_reducible apply Canon.mk
                   | with_reducible apply CanonOf.of)
  clear_value s0
  with_reducible apply ResOk.next
  with_reducible apply Canon.ite
  · repeat' (first | with_reducible intro _ | with_reducible assumption | with_reducible apply Canon.ite | split
                   | dsimp only | with_reducible apply Canon.mk | with_reducible apply CanonOf.of)
  repeat' (first | with_reducible intro _ | with_reducible assumption | with_reducible apply State.respond_canon
                 | with_reducible apply State.fragment_canon | with_reducible apply Canon.ite | split | dsimp only
                 | with_reducible apply Canon.mk | with_reducible apply CanonOf.of)

theorem execQmpFragmentTimeout_canon {qs : Base} (ses : Fin 16) (req : Nat) (t : Nat) {s : State}
    (hs : s.Ok qs) : ResOk qs (execQmpFragmentTimeout ses req t s) := by
  unfold execQmpFragmentTimeout
  extract_lets +onlyGivenNames -underBinder s0
  have hs0 : s0.Ok qs := by
    unfold s0
    repeat' (first | with_reducible intro _ | with_reducible assumption | with_reducible apply State.at_canon
                   | with_reducible apply Canon.ite | split | dsimp only | with_reducible apply Canon.mk
                   | with_reducible apply CanonOf.of)
  clear_value s0
  repeat' (first | with_reducible intro _ | with_reducible assumption | with_reducible apply ResOk.next
                 | with_reducible apply State.setSession_canon | with_reducible apply Canon.ite
                 | with_reducible apply ResOk.ite | split | dsimp only | with_reducible apply Canon.mk
                 | with_reducible apply CanonOf.of)

theorem State.readWords_canon {qs : Base} {s : State} (a n : Nat) (hs : s.Ok qs) : (State.readWords s a n).1.Ok qs := by
  induction n generalizing s a with
  | zero => exact hs
  | succ n ih =>
    unfold State.readWords
    dsimp only
    split
    · exact State.mgmtRead_canon a hs
    · exact ih (a + 4) (State.mgmtRead_canon a hs)

theorem State.readReq_canon {qs : Base} {s : State} (ses req : Nat) (r : ReadReq) (hs : s.Ok qs) :
    (State.readReq s ses req r).1.Ok qs := by
  cases r with
  | regs a n =>
    unfold State.readReq
    refine Canon.ite1 (State.status_canon _ hs) (Canon.ite1 (State.status_canon _ hs) ?_)
    dsimp only
    split
    · exact State.ok_canon _ (State.readWords_canon a n hs)
    · exact State.refused_canon _ (State.readWords_canon a n hs)
  | points c l =>
    unfold State.readReq
    exact Canon.ite1 (State.status_canon _ hs) (Canon.ite1 (State.status_canon _ hs) (State.mg_canon _ hs))

theorem execRead_canon {qs : Base} (ses : Fin 16) (req : Nat) (r : ReadReq) (t : Nat) {s : State}
    (hs : s.Ok qs) : ResOk qs (execRead ses req r t s) := by
  unfold execRead
  repeat' (first | with_reducible intro _ | with_reducible assumption | with_reducible apply ResOk.next
                 | with_reducible apply State.at_canon | with_reducible apply State.request_canon
                 | with_reducible apply State.readReq_canon | with_reducible apply Canon.ite
                 | with_reducible apply ResOk.ite | split | dsimp only | with_reducible apply Canon.mk
                 | with_reducible apply CanonOf.of)

theorem State.pointReads_canon {qs : Base} {s : State} (n : Nat) (hs : s.Ok qs) : (State.pointReads s n).Ok qs := by
  unfold State.pointReads
  extract_lets +onlyGivenNames -underBinder due s1
  try clear_value due
  have hs1 : s1.Ok qs := by
    unfold s1
    repeat' (first | with_reducible intro _ | with_reducible assumption | with_reducible apply State.mg_canon
                   | with_reducible apply Canon.ite | split | dsimp only | with_reducible apply Canon.mk
                   | with_reducible apply CanonOf.of)
  clear_value s1
  repeat' (first | with_reducible intro _ | with_reducible assumption | with_reducible apply State.answer_canon
                 | with_reducible apply State.each_canon | with_reducible apply Canon.ite | split | dsimp only
                 | with_reducible apply Canon.mk | with_reducible apply CanonOf.of)

theorem State.writeEntry_canon {qs : Base} {s : State} (lv : Nat) (e : BitVec 32 × Word) (hs : s.Ok qs) :
    (State.writeEntry s lv e).1.Ok qs := by
  unfold State.writeEntry
  extract_lets +onlyGivenNames -underBinder a
  try clear_value a
  with_reducible apply Canon.ite1
  · repeat' (first | with_reducible intro _ | with_reducible assumption | with_reducible apply State.raise_canon
                   | with_reducible apply Canon.ite | with_reducible apply Canon.ite1 | split | dsimp only
                   | with_reducible apply Canon.mk | with_reducible apply CanonOf.of)
  repeat' (first | with_reducible intro _ | with_reducible assumption | with_reducible apply State.raise_canon
                 | with_reducible apply State.noIsland_canon | with_reducible apply State.mgmtStore_canon
                 | with_reducible apply Canon.ite | with_reducible apply Canon.ite1 | split | dsimp only
                 | with_reducible apply Canon.mk | with_reducible apply CanonOf.of)

theorem State.writeAll_canon {qs : Base} {s : State} (ses lv : Nat) (l : List (BitVec 32 × Word)) (hs : s.Ok qs) :
    (State.writeAll s ses lv l).1.Ok qs := by
  induction l generalizing s with
  | nil => exact hs
  | cons e l ih =>
    unfold State.writeAll
    exact Canon.ite1 hs (ih (State.writeEntry_canon lv e hs))

theorem State.writeReq_canon {qs : Base} {s : State} (ses : Nat) (l : List (BitVec 32 × Word)) (hs : s.Ok qs) :
    (State.writeReq s ses l).1.Ok qs := by
  unfold State.writeReq
  exact Canon.ite1 (State.status_canon _ hs) (State.ok_canon _ (State.writeAll_canon _ _ _ hs))

theorem execWrite_canon {qs : Base} (ses : Fin 16) (req : Nat) (l : List (BitVec 32 × Word)) (t : Nat) {s : State}
    (hs : s.Ok qs) : ResOk qs (execWrite ses req l t s) := by
  unfold execWrite
  repeat' (first | with_reducible intro _ | with_reducible assumption | with_reducible apply ResOk.next
                 | with_reducible apply State.at_canon | with_reducible apply State.request_canon
                 | with_reducible apply State.writeReq_canon | with_reducible apply Canon.ite
                 | with_reducible apply ResOk.ite | split | dsimp only | with_reducible apply Canon.mk
                 | with_reducible apply CanonOf.of)

theorem execSummary_canon {qs : Base} (ses : Fin 16) (req : Nat) {s : State} (hs : s.Ok qs) : ResOk qs
    (execSummary ses req s) := by
  unfold execSummary
  repeat' (first | with_reducible intro _ | with_reducible assumption | with_reducible apply ResOk.next
                 | with_reducible apply State.ok_canon | with_reducible apply State.request_canon
                 | with_reducible apply State.snapshot_canon | with_reducible apply Canon.ite
                 | with_reducible apply ResOk.ite | split | dsimp only | with_reducible apply Canon.mk
                 | with_reducible apply CanonOf.of)

theorem State.eventsReq_canon {qs : Base} {s : State} (q count sev mask : Nat) (hs : s.Ok qs) :
    (State.eventsReq s q count sev mask).1.Ok qs := by
  unfold State.eventsReq
  with_reducible apply Canon.ite1
  · repeat' (first | with_reducible intro _ | with_reducible assumption | with_reducible apply State.status_canon
                   | with_reducible apply Canon.ite | with_reducible apply Canon.ite1 | split | dsimp only
                   | with_reducible apply Canon.mk | with_reducible apply CanonOf.of)
  with_reducible apply Canon.ite1
  · repeat' (first | with_reducible intro _ | with_reducible assumption | with_reducible apply State.status_canon
                   | with_reducible apply Canon.ite | with_reducible apply Canon.ite1 | split | dsimp only
                   | with_reducible apply Canon.mk | with_reducible apply CanonOf.of)
  extract_lets +onlyGivenNames -underBinder l
  try clear_value l
  with_reducible apply Canon.ite1
  · repeat' (first | with_reducible intro _ | with_reducible assumption | with_reducible apply State.status_canon
                   | with_reducible apply Canon.ite | with_reducible apply Canon.ite1 | split | dsimp only
                   | with_reducible apply Canon.mk | with_reducible apply CanonOf.of)
  extract_lets +onlyGivenNames -underBinder m
  try clear_value m
  repeat' (first | with_reducible intro _ | with_reducible assumption | with_reducible apply State.ok_canon
                 | with_reducible apply Canon.ite | with_reducible apply Canon.ite1 | split | dsimp only
                 | with_reducible apply Canon.mk | with_reducible apply CanonOf.of)

theorem execEvents_canon {qs : Base} (ses : Fin 16) (req : Nat) (from_ : BitVec 64) (count : Fin 65536) (sev : Fin 3)
    (mask : BitVec 16) {s : State} (hs : s.Ok qs) : ResOk qs (execEvents ses req from_ count sev mask s) := by
  unfold execEvents
  repeat' (first | with_reducible intro _ | with_reducible assumption | with_reducible apply ResOk.next
                 | with_reducible apply State.request_canon | with_reducible apply State.eventsReq_canon
                 | with_reducible apply Canon.ite | with_reducible apply ResOk.ite | split | dsimp only
                 | with_reducible apply Canon.mk | with_reducible apply CanonOf.of)

theorem execSwap_canon {qs : Base} (ses : Fin 16) (req : Nat) (t : Nat) {s : State} (hs : s.Ok qs) : ResOk qs
    (execSwap ses req t s) := by
  unfold execSwap
  repeat' (first | with_reducible intro _ | with_reducible assumption | with_reducible apply ResOk.next
                 | with_reducible apply State.at_canon | with_reducible apply State.swap_canon
                 | with_reducible apply State.ok_canon | with_reducible apply State.refused_canon
                 | with_reducible apply State.request_canon | with_reducible apply Canon.ite
                 | with_reducible apply ResOk.ite | split | dsimp only | with_reducible apply Canon.mk
                 | with_reducible apply CanonOf.of)

theorem execRejoin_canon {qs : Base} (ses : Fin 16) (req : Nat) (t : Nat) {s : State} (hs : s.Ok qs) : ResOk qs
    (execRejoin ses req t s) := by
  unfold execRejoin
  repeat' (first | with_reducible intro _ | with_reducible assumption | with_reducible apply ResOk.next
                 | with_reducible apply State.at_canon | with_reducible apply State.rejoin_canon
                 | with_reducible apply State.ok_canon | with_reducible apply State.request_canon
                 | with_reducible apply Canon.ite | with_reducible apply ResOk.ite | split | dsimp only
                 | with_reducible apply Canon.mk | with_reducible apply CanonOf.of)

theorem State.restartReq_canon {qs : Base} {s : State} (force : Bool) (hs : s.Ok qs) :
    (State.restartReq s force).1.Ok qs := by
  unfold State.restartReq
  with_reducible apply Canon.ite1
  · repeat' (first | with_reducible intro _ | with_reducible assumption | with_reducible apply State.ok_canon
                   | with_reducible apply State.forceRestart_canon | with_reducible apply Canon.ite
                   | with_reducible apply Canon.ite1 | split | dsimp only | with_reducible apply Canon.mk
                   | with_reducible apply CanonOf.of)
  extract_lets +onlyGivenNames -underBinder r
  have hr : r.1.Ok qs := by
    unfold r
    repeat' (first | with_reducible intro _ | with_reducible assumption | with_reducible apply State.modRestart_canon
                   | with_reducible apply Canon.ite | with_reducible apply Canon.ite1 | split | dsimp only
                   | with_reducible apply Canon.mk | with_reducible apply CanonOf.of)
  clear_value r
  repeat' (first | with_reducible intro _ | with_reducible assumption | with_reducible apply State.ok_canon
                 | with_reducible apply State.refused_canon | with_reducible apply Canon.ite
                 | with_reducible apply Canon.ite1 | split | dsimp only | with_reducible apply Canon.mk
                 | with_reducible apply CanonOf.of)

theorem execRestart_canon {qs : Base} (ses : Fin 16) (req : Nat) (force : Bool) (t : Nat) {s : State}
    (hs : s.Ok qs) : ResOk qs (execRestart ses req force t s) := by
  unfold execRestart
  repeat' (first | with_reducible intro _ | with_reducible assumption | with_reducible apply ResOk.next
                 | with_reducible apply State.at_canon | with_reducible apply State.request_canon
                 | with_reducible apply State.restartReq_canon | with_reducible apply Canon.ite
                 | with_reducible apply ResOk.ite | split | dsimp only | with_reducible apply Canon.mk
                 | with_reducible apply CanonOf.of)

theorem State.traceSave_canon {qs : Base} {s : State} (c k : Nat) (hs : s.Ok qs) : (State.traceSave s c k).1.Ok qs := by
  unfold State.traceSave
  repeat' (first | with_reducible intro _ | with_reducible assumption | with_reducible apply State.lp_canon
                 | with_reducible apply State.ok_canon | with_reducible apply State.status_canon
                 | with_reducible apply Canon.ite | with_reducible apply Canon.ite1 | split | dsimp only
                 | with_reducible apply Canon.mk | with_reducible apply CanonOf.of | with_reducible apply Canon.flashW
                 | with_reducible apply Canon.flashE | with_reducible apply CanonOf.cleared)

theorem execTraceSave_canon {qs : Base} (ses : Fin 16) (req : Nat) (c : Fin 32) (k : Fin 65536) {s : State}
    (hs : s.Ok qs) : ResOk qs (execTraceSave ses req c k s) := by
  unfold execTraceSave
  repeat' (first | with_reducible intro _ | with_reducible assumption | with_reducible apply ResOk.next
                 | with_reducible apply State.request_canon | with_reducible apply State.traceSave_canon
                 | with_reducible apply Canon.ite | with_reducible apply ResOk.ite | split | dsimp only
                 | with_reducible apply Canon.mk | with_reducible apply CanonOf.of)

theorem execTraceRead_canon {qs : Base} (ses : Fin 16) (req : Nat) (c : Fin 32) (k : Fin 65536) (ch : Fin 8) {s : State}
    (hs : s.Ok qs) : ResOk qs (execTraceRead ses req c k ch s) := by
  unfold execTraceRead
  repeat' (first | with_reducible intro _ | with_reducible assumption | with_reducible apply ResOk.next
                 | with_reducible apply State.ok_canon | with_reducible apply State.status_canon
                 | with_reducible apply State.request_canon | with_reducible apply Canon.ite
                 | with_reducible apply ResOk.ite | split | dsimp only | with_reducible apply Canon.mk
                 | with_reducible apply CanonOf.of)

theorem execTraceList_canon {qs : Base} (ses : Fin 16) (req : Nat) {s : State} (hs : s.Ok qs) : ResOk qs
    (execTraceList ses req s) := by
  unfold execTraceList
  repeat' (first | with_reducible intro _ | with_reducible assumption | with_reducible apply ResOk.next
                 | with_reducible apply State.ok_canon | with_reducible apply State.request_canon
                 | with_reducible apply Canon.ite | with_reducible apply ResOk.ite | split | dsimp only
                 | with_reducible apply Canon.mk | with_reducible apply CanonOf.of)

end Sys2Proof.Machine
end

