-- ==== Sys2Proof/Laws/CanonBoundary.lean ====
section
/-! SUPPORT. The canonical form is kept by the definitions of Machine/Boundary.lean. -/
namespace Sys2Proof.Machine

theorem State.countBoundary_canon {qs : Base} {s : State} (n : Nat) (hs : s.Ok qs) : (State.countBoundary s n).Ok qs := by
  unfold State.countBoundary
  extract_lets +onlyGivenNames -underBinder run
  try clear_value run
  repeat' (first | with_reducible intro _ | with_reducible assumption | with_reducible apply State.putB_canon
                 | with_reducible apply State.wr64_canon | with_reducible apply State.tm_canon
                 | with_reducible apply Canon.ite | split | dsimp only | with_reducible apply Canon.mk
                 | with_reducible apply CanonOf.of)

theorem State.controlBoundary_canon {qs : Base} {s : State} (n : Nat) (ready : Bool) (counts : List (Nat × Nat))
    (started : List (Nat × Nat)) (hs : s.Ok qs) : (State.controlBoundary s n ready counts started).Ok qs := by
  unfold State.controlBoundary
  extract_lets +onlyGivenNames -underBinder s1 s2
  have hs1 : s1.Ok qs := by
    unfold s1
    repeat' (first | with_reducible intro _ | with_reducible assumption | with_reducible apply State.canStarted_canon
                   | with_reducible apply State.csBoundary_canon | with_reducible apply State.hoBoundary_canon
                   | with_reducible apply Canon.ite | split | dsimp only | with_reducible apply Canon.mk
                   | with_reducible apply CanonOf.of)
  clear_value s1
  have hs2 : s2.Ok qs := by
    unfold s2
    repeat' (first | with_reducible intro _ | with_reducible assumption | with_reducible apply State.owedBoundary_canon
                   | with_reducible apply State.loopBoundary_canon | with_reducible apply State.tripBoundary_canon
                   | with_reducible apply State.twinBoundary_canon | with_reducible apply Canon.ite | split | dsimp only
                   | with_reducible apply Canon.mk | with_reducible apply CanonOf.of)
  clear_value s2
  repeat' (first | with_reducible intro _ | with_reducible assumption | with_reducible apply State.slowCycles_canon
                 | with_reducible apply State.sigCut_canon | with_reducible apply Canon.ite | split | dsimp only
                 | with_reducible apply Canon.mk | with_reducible apply CanonOf.of)

theorem State.sendBoundary_canon {qs : Base} {s : State} (n : Nat) (hs : s.Ok qs) : (State.sendBoundary s n).Ok qs := by
  unfold State.sendBoundary
  extract_lets +onlyGivenNames -underBinder s1
  have hs1 : s1.Ok qs := by
    unfold s1
    repeat' (first | with_reducible intro _ | with_reducible assumption | with_reducible apply State.canListSend_canon
                   | with_reducible apply State.canBoundary_canon | with_reducible apply State.outputsBoundary_canon
                   | with_reducible apply State.localSend_canon | with_reducible apply State.censusBoundary_canon
                   | with_reducible apply Canon.ite | split | dsimp only | with_reducible apply Canon.mk
                   | with_reducible apply CanonOf.of)
  clear_value s1
  repeat' (first | with_reducible intro _ | with_reducible assumption | with_reducible apply State.ringsLaunch_canon
                 | with_reducible apply State.publishAll_canon | with_reducible apply Canon.ite | split | dsimp only
                 | with_reducible apply Canon.mk | with_reducible apply CanonOf.of)

theorem State.showBoundary_canon {qs : Base} {s : State} (n : Nat) (hs : s.Ok qs) : (State.showBoundary s n).Ok qs := by
  unfold State.showBoundary
  extract_lets +onlyGivenNames -underBinder s1
  have hs1 : s1.Ok qs := by
    unfold s1
    repeat' (first | with_reducible intro _ | with_reducible assumption | with_reducible apply State.tagsSample_canon
                   | with_reducible apply State.timeBoundary_canon | with_reducible apply Canon.ite | split | dsimp only
                   | with_reducible apply Canon.mk | with_reducible apply CanonOf.of)
  clear_value s1
  repeat' (first | with_reducible intro _ | with_reducible assumption | with_reducible apply State.panelTest_canon
                 | with_reducible apply Canon.ite | split | dsimp only | with_reducible apply Canon.mk
                 | with_reducible apply CanonOf.of)

theorem execBoundaryMessage_canon {qs : Base} (n : Nat) (ready : Bool) (counts : List (Fin 32 × Nat)) (started : List
    (Fin 4 × Fin 65)) (tags : List TagEvent) {s : State} (hs : s.Ok qs) : ResOk qs
        (execBoundaryMessage n ready counts started tags s) := by
  unfold execBoundaryMessage
  extract_lets +onlyGivenNames -underBinder s0
  have hs0 : s0.Ok qs := by
    unfold s0
    repeat' (first | with_reducible intro _ | with_reducible assumption | with_reducible apply State.at_canon
                   | with_reducible apply State.tagEvent_canon | with_reducible apply State.each_canon
                   | with_reducible apply Canon.ite | split | dsimp only | with_reducible apply Canon.mk
                   | with_reducible apply CanonOf.of)
  clear_value s0
  with_reducible apply ResOk.next
  with_reducible apply Canon.ite
  · repeat' (first | with_reducible intro _ | with_reducible assumption | with_reducible apply Canon.ite | split
                   | dsimp only | with_reducible apply Canon.mk | with_reducible apply CanonOf.of)
  extract_lets +onlyGivenNames -underBinder s1
  have hs1 : s1.Ok qs := by
    unfold s1
    repeat' (first | with_reducible intro _ | with_reducible assumption | with_reducible apply State.snapBoundary_canon
                   | with_reducible apply State.countBoundary_canon | with_reducible apply State.controlBoundary_canon
                   | with_reducible apply Canon.ite | with_reducible apply Canon.ite1 | split | dsimp only
                   | with_reducible apply Canon.mk | with_reducible apply CanonOf.of)
  clear_value s1
  repeat' (first | with_reducible intro _ | with_reducible assumption | with_reducible apply State.outgoingEnd_canon
                 | with_reducible apply State.sendBoundary_canon | with_reducible apply State.showBoundary_canon
                 | with_reducible apply Canon.ite | split | dsimp only | with_reducible apply Canon.mk
                 | with_reducible apply CanonOf.of)

theorem State.closeOpen_canon {qs : Base} {s : State} (hs : s.Ok qs) : (State.closeOpen s).Ok qs := by
  unfold State.closeOpen
  repeat' (first | with_reducible intro _ | with_reducible assumption | with_reducible apply State.resolveOpen_canon
                 | with_reducible apply Canon.ite | split | dsimp only | with_reducible apply Canon.mk
                 | with_reducible apply CanonOf.of)

theorem State.agreeTime_canon {qs : Base} {s : State} (ns : Nat) (hs : s.Ok qs) : (State.agreeTime s ns).Ok qs := by
  unfold State.agreeTime
  repeat' (first | with_reducible intro _ | with_reducible assumption | with_reducible apply State.put_canon
                 | with_reducible apply Canon.ite | split | dsimp only | with_reducible apply Canon.mk
                 | with_reducible apply CanonOf.of)

theorem State.closeAll_canon {qs : Base} {s : State} (n : Nat) (hs : s.Ok qs) : (State.closeAll s n).Ok qs := by
  unfold State.closeAll
  extract_lets +onlyGivenNames -underBinder l segs s1
  have hl : l.1.Ok qs := by
    unfold l
    repeat' (first | with_reducible intro _ | with_reducible assumption | with_reducible apply State.localClose_canon
                   | with_reducible apply State.ringsClose_canon | with_reducible apply Canon.ite
                   | with_reducible apply Canon.ite1 | split | dsimp only | with_reducible apply Canon.mk
                   | with_reducible apply CanonOf.of)
  clear_value l
  try clear_value segs
  have hs1 : s1.Ok qs := by
    unfold s1
    repeat' (first | with_reducible intro _ | with_reducible assumption | with_reducible apply State.send_canon
                   | with_reducible apply Canon.ite | with_reducible apply Canon.ite1 | split | dsimp only
                   | with_reducible apply Canon.mk | with_reducible apply CanonOf.of)
  clear_value s1
  repeat' (first | with_reducible intro _ | with_reducible assumption | with_reducible apply State.closeImage_canon
                 | with_reducible apply State.canClose_canon | with_reducible apply State.linesClose_canon
                 | with_reducible apply Canon.ite | split | dsimp only | with_reducible apply Canon.mk
                 | with_reducible apply CanonOf.of)

theorem State.afterClose_canon {qs : Base} {s : State} (n : Nat) (hs : s.Ok qs) : (State.afterClose s n).Ok qs := by
  unfold State.afterClose
  extract_lets +onlyGivenNames -underBinder s1
  have hs1 : s1.Ok qs := by
    unfold s1
    repeat' (first | with_reducible intro _ | with_reducible assumption | with_reducible apply State.releaseAll_canon
                   | with_reducible apply State.pointReads_canon | with_reducible apply Canon.ite | split | dsimp only
                   | with_reducible apply Canon.mk | with_reducible apply CanonOf.of)
  clear_value s1
  repeat' (first | with_reducible intro _ | with_reducible assumption | with_reducible apply State.sampleCopy_canon
                 | with_reducible apply Canon.ite | split | dsimp only | with_reducible apply Canon.mk
                 | with_reducible apply CanonOf.of)

theorem execImageClose_canon {qs : Base} (ns t : Nat) {s : State} (hs : s.Ok qs) : ResOk qs (execImageClose ns t s) := by
  unfold execImageClose
  extract_lets +onlyGivenNames -underBinder s0 n
  have hs0 : s0.Ok qs := by
    unfold s0
    repeat' (first | with_reducible intro _ | with_reducible assumption | with_reducible apply State.at_canon
                   | with_reducible apply Canon.ite | split | dsimp only | with_reducible apply Canon.mk
                   | with_reducible apply CanonOf.of)
  clear_value s0
  try clear_value n
  with_reducible apply ResOk.next
  with_reducible apply Canon.ite
  · repeat' (first | with_reducible intro _ | with_reducible assumption | with_reducible apply Canon.ite | split
                   | dsimp only | with_reducible apply Canon.mk | with_reducible apply CanonOf.of)
  extract_lets +onlyGivenNames -underBinder s1
  have hs1 : s1.Ok qs := by
    unfold s1
    repeat' (first | with_reducible intro _ | with_reducible assumption | with_reducible apply State.closeOpen_canon
                   | with_reducible apply Canon.ite | split | dsimp only | with_reducible apply Canon.mk
                   | with_reducible apply CanonOf.of)
  clear_value s1
  repeat' (first | with_reducible intro _ | with_reducible assumption | with_reducible apply State.agreeTime_canon
                 | with_reducible apply State.closeAll_canon | with_reducible apply State.afterClose_canon
                 | with_reducible apply Canon.ite | split | dsimp only | with_reducible apply Canon.mk
                 | with_reducible apply CanonOf.of)

theorem execSummarySnapshotTimed_canon {qs : Base} (t : Nat) {s : State} (hs : s.Ok qs) : ResOk qs
    (execSummarySnapshotTimed t s) := by
  unfold execSummarySnapshotTimed
  extract_lets +onlyGivenNames -underBinder s0
  have hs0 : s0.Ok qs := by
    unfold s0
    repeat' (first | with_reducible intro _ | with_reducible assumption | with_reducible apply State.at_canon
                   | with_reducible apply Canon.ite | split | dsimp only | with_reducible apply Canon.mk
                   | with_reducible apply CanonOf.of)
  clear_value s0
  repeat' (first | with_reducible intro _ | with_reducible assumption | with_reducible apply ResOk.next
                 | with_reducible apply State.mg_canon | with_reducible apply State.snapshot_canon
                 | with_reducible apply State.panelTest_canon | with_reducible apply Canon.ite
                 | with_reducible apply ResOk.ite | split | dsimp only | with_reducible apply Canon.mk
                 | with_reducible apply CanonOf.of)

end Sys2Proof.Machine
end

