-- ==== Sys2Proof/Laws/CanonCoreBase.lean ====
section
/-! SUPPORT. The canonical form is kept by the definitions of Machine/CoreBase.lean. -/
namespace Sys2Proof.Machine

theorem State.setX_canon {qs : Base} {s : State} (c n : Nat) (v : DWord) (hs : s.Ok qs) : (State.setX s c n v).Ok qs := by
  unfold State.setX
  repeat' (first | with_reducible intro _ | with_reducible assumption | with_reducible apply State.co_canon
                 | with_reducible apply Canon.ite | split | dsimp only | with_reducible apply Canon.mk
                 | with_reducible apply CanonOf.of)

theorem State.setF_canon {qs : Base} {s : State} (c n : Nat) (v : DWord) (hs : s.Ok qs) : (State.setF s c n v).Ok qs := by
  unfold State.setF
  repeat' (first | with_reducible intro _ | with_reducible assumption | with_reducible apply State.co_canon
                 | with_reducible apply Canon.ite | split | dsimp only | with_reducible apply Canon.mk
                 | with_reducible apply CanonOf.of)

theorem State.retireTo_canon {qs : Base} {s : State} (c : Nat) (npc : DWord) (hs : s.Ok qs) :
    (State.retireTo s c npc).Ok qs := by
  unfold State.retireTo
  repeat' (first | with_reducible intro _ | with_reducible assumption | with_reducible apply State.co_canon
                 | with_reducible apply Canon.ite | split | dsimp only | with_reducible apply Canon.mk
                 | with_reducible apply CanonOf.of)

theorem State.retire_canon {qs : Base} {s : State} (c : Nat) (hs : s.Ok qs) : (State.retire s c).Ok qs := by
  unfold State.retire
  repeat' (first | with_reducible intro _ | with_reducible assumption | with_reducible apply State.retireTo_canon
                 | with_reducible apply Canon.ite | split | dsimp only | with_reducible apply Canon.mk
                 | with_reducible apply CanonOf.of)

theorem State.signBranch_canon {qs : Base} {s : State} (c : Nat) (taken : Bool) (target : DWord) (hs : s.Ok qs) :
    (State.signBranch s c taken target).Ok qs := by
  unfold State.signBranch
  repeat' (first | with_reducible intro _ | with_reducible assumption | with_reducible apply State.co_canon
                 | with_reducible apply Canon.foldl | with_reducible apply Canon.foldl1 | with_reducible apply Canon.ite
                 | split | dsimp only | with_reducible apply Canon.mk | with_reducible apply CanonOf.of)

theorem State.deny_canon {qs : Base} {s : State} (c a lv kind m idx : Nat) (size spill : Bool) (hs : s.Ok qs) :
    (State.deny s c a lv kind m idx size spill).Ok qs := by
  unfold State.deny
  extract_lets +onlyGivenNames -underBinder e info s1 s2 s3
  try clear_value e
  try clear_value info
  have hs1 : s1.Ok qs := by
    unfold s1
    repeat' (first | with_reducible intro _ | with_reducible assumption | with_reducible apply State.setBit_canon
                   | with_reducible apply State.bump_canon | with_reducible apply State.wrN_canon
                   | with_reducible apply Canon.ite | split | dsimp only | with_reducible apply Canon.mk
                   | with_reducible apply CanonOf.of)
  clear_value s1
  have hs2 : s2.Ok qs := by
    unfold s2
    repeat' (first | with_reducible intro _ | with_reducible assumption | with_reducible apply State.co_canon
                   | with_reducible apply Canon.ite | split | dsimp only | with_reducible apply Canon.mk
                   | with_reducible apply CanonOf.of)
  clear_value s2
  have hs3 : s3.Ok qs := by
    unfold s3
    repeat' (first | with_reducible intro _ | with_reducible assumption | with_reducible apply State.put_canon
                   | with_reducible apply Canon.ite | with_reducible apply Canon.ite1 | split | dsimp only
                   | with_reducible apply Canon.mk | with_reducible apply CanonOf.of)
  clear_value s3
  repeat' (first | with_reducible intro _ | with_reducible assumption | with_reducible apply State.raise_canon
                 | with_reducible apply Canon.ite | with_reducible apply Canon.ite1 | split | dsimp only
                 | with_reducible apply Canon.mk | with_reducible apply CanonOf.of)

theorem State.enterS_canon {qs : Base} {s : State} (c : Nat) (cause tval npc : DWord) (vec : Nat) (hs : s.Ok qs) :
    (State.enterS s c cause tval npc vec).Ok qs := by
  unfold State.enterS
  repeat' (first | with_reducible intro _ | with_reducible assumption | with_reducible apply State.co_canon
                 | with_reducible apply State.flush_canon | with_reducible apply Canon.ite | split | dsimp only
                 | with_reducible apply Canon.mk | with_reducible apply CanonOf.of)

theorem State.abortCur_canon {qs : Base} {s : State} (c kind pc : Nat) (hs : s.Ok qs) :
    (State.abortCur s c kind pc).Ok qs := by
  unfold State.abortCur
  repeat' (first | with_reducible intro _ | with_reducible assumption | with_reducible apply State.abortPart_canon
                 | with_reducible apply Canon.ite | split | dsimp only | with_reducible apply Canon.mk
                 | with_reducible apply CanonOf.of)

theorem State.coreReset_canon {qs : Base} {s : State} (c : Nat) (hs : s.Ok qs) : (State.coreReset s c).Ok qs := by
  unfold State.coreReset
  extract_lets +onlyGivenNames -underBinder k l s1 mine s2 s3 s4
  try clear_value k
  try clear_value l
  have hs1 : s1.Ok qs := by
    unfold s1
    repeat' (first | with_reducible intro _ | with_reducible assumption | with_reducible apply State.bump_canon
                   | with_reducible apply State.raise_canon | with_reducible apply State.noteFault_canon
                   | with_reducible apply Canon.ite | split | dsimp only | with_reducible apply Canon.mk
                   | with_reducible apply CanonOf.of)
  clear_value s1
  try clear_value mine
  have hs2 : s2.Ok qs := by
    unfold s2
    repeat' (first | with_reducible intro _ | with_reducible assumption | with_reducible apply State.abortPart_canon
                   | with_reducible apply State.each_canon | with_reducible apply Canon.ite | split | dsimp only
                   | with_reducible apply Canon.mk | with_reducible apply CanonOf.of)
  clear_value s2
  have hs3 : s3.Ok qs := by
    unfold s3
    repeat' (first | with_reducible intro _ | with_reducible assumption | with_reducible apply State.setCore_canon
                   | with_reducible apply Canon.ite | split | dsimp only | with_reducible apply Canon.mk
                   | with_reducible apply CanonOf.of)
  clear_value s3
  have hs4 : s4.Ok qs := by
    unfold s4
    repeat' (first | with_reducible intro _ | with_reducible assumption | with_reducible apply State.put_canon
                   | with_reducible apply State.putB_canon | with_reducible apply Canon.ite | split | dsimp only
                   | with_reducible apply Canon.mk | with_reducible apply CanonOf.of)
  clear_value s4
  repeat' (first | with_reducible intro _ | with_reducible assumption | with_reducible apply State.coreFaulty_canon
                 | with_reducible apply Canon.ite | split | dsimp only | with_reducible apply Canon.mk
                 | with_reducible apply CanonOf.of)

theorem State.doubleFault_canon {qs : Base} {s : State} (c : Nat) (hs : s.Ok qs) : (State.doubleFault s c).Ok qs := by
  unfold State.doubleFault
  extract_lets +onlyGivenNames -underBinder k
  try clear_value k
  with_reducible apply Canon.ite
  · repeat' (first | with_reducible intro _ | with_reducible assumption | with_reducible apply State.raise_canon
                   | with_reducible apply State.coreReset_canon | with_reducible apply Canon.ite | split | dsimp only
                   | with_reducible apply Canon.mk | with_reducible apply CanonOf.of)
  with_reducible apply Canon.ite
  · repeat' (first | with_reducible intro _ | with_reducible assumption | with_reducible apply State.raise_canon
                   | with_reducible apply State.coreReset_canon | with_reducible apply Canon.ite | split | dsimp only
                   | with_reducible apply Canon.mk | with_reducible apply CanonOf.of)
  extract_lets +onlyGivenNames -underBinder s1
  have hs1 : s1.Ok qs := by
    unfold s1
    repeat' (first | with_reducible intro _ | with_reducible assumption | with_reducible apply State.co_canon
                   | with_reducible apply State.flush_canon | with_reducible apply Canon.ite | split | dsimp only
                   | with_reducible apply Canon.mk | with_reducible apply CanonOf.of)
  clear_value s1
  repeat' (first | with_reducible intro _ | with_reducible assumption | with_reducible apply State.abortCur_canon
                 | with_reducible apply Canon.ite | split | dsimp only | with_reducible apply Canon.mk
                 | with_reducible apply CanonOf.of)

theorem State.trap_canon {qs : Base} {s : State} (c code num : Nat) (tval npc : DWord) (hs : s.Ok qs) :
    (State.trap s c code num tval npc).Ok qs := by
  unfold State.trap
  extract_lets +onlyGivenNames -underBinder k s1
  try clear_value k
  have hs1 : s1.Ok qs := by
    unfold s1
    repeat' (first | with_reducible intro _ | with_reducible assumption | with_reducible apply State.flush_canon
                   | with_reducible apply Canon.ite | split | dsimp only | with_reducible apply Canon.mk
                   | with_reducible apply CanonOf.of)
  clear_value s1
  with_reducible apply Canon.ite
  · repeat' (first | with_reducible intro _ | with_reducible assumption | with_reducible apply State.doubleFault_canon
                   | with_reducible apply Canon.ite | split | dsimp only | with_reducible apply Canon.mk
                   | with_reducible apply CanonOf.of)
  repeat' (first | with_reducible intro _ | with_reducible assumption | with_reducible apply State.enterS_canon
                 | with_reducible apply State.abortCur_canon | with_reducible apply Canon.ite | split | dsimp only
                 | with_reducible apply Canon.mk | with_reducible apply CanonOf.of)

theorem State.interrupt_canon {qs : Base} {s : State} (c : Nat) (hs : s.Ok qs) : (State.interrupt s c).Ok qs := by
  unfold State.interrupt
  extract_lets +onlyGivenNames -underBinder k
  try clear_value k
  repeat' (first | with_reducible intro _ | with_reducible assumption | with_reducible apply State.take_canon
                 | with_reducible apply State.flush_canon | with_reducible apply State.enterS_canon
                 | with_reducible apply State.abortCur_canon | with_reducible apply Canon.ite | split | dsimp only
                 | with_reducible apply Canon.mk | with_reducible apply CanonOf.of)

theorem State.trapAt_canon {qs : Base} {s : State} (c code : Nat) (tval : DWord) (hs : s.Ok qs) :
    (State.trapAt s c code tval).Ok qs := by
  unfold State.trapAt
  repeat' (first | with_reducible intro _ | with_reducible assumption | with_reducible apply State.trap_canon
                 | with_reducible apply Canon.ite | split | dsimp only | with_reducible apply Canon.mk
                 | with_reducible apply CanonOf.of)

theorem State.trapFree_canon {qs : Base} {s : State} (c code num : Nat) (npc : DWord) (hs : s.Ok qs) :
    (State.trapFree s c code num npc).Ok qs := by
  unfold State.trapFree
  repeat' (first | with_reducible intro _ | with_reducible assumption | with_reducible apply State.take_canon
                 | with_reducible apply State.trap_canon | with_reducible apply Canon.ite | split | dsimp only
                 | with_reducible apply Canon.mk | with_reducible apply CanonOf.of)

theorem State.checkMem_canon {qs : Base} {s : State} (c lv kind a size : Nat) (spill : Bool) (hs : s.Ok qs) :
    (State.checkMem s c lv kind a size spill).1.Ok qs := by
  unfold State.checkMem
  repeat' (first | with_reducible intro _ | with_reducible assumption | with_reducible apply State.deny_canon
                 | with_reducible apply Canon.ite | with_reducible apply Canon.ite1 | split | dsimp only
                 | with_reducible apply Canon.mk | with_reducible apply CanonOf.of)

theorem State.denySize_canon {qs : Base} {s : State} (c lv kind a : Nat) (spill : Bool) (hs : s.Ok qs) :
    (State.denySize s c lv kind a spill).Ok qs := by
  unfold State.denySize
  repeat' (first | with_reducible intro _ | with_reducible assumption | with_reducible apply State.deny_canon
                 | with_reducible apply Canon.ite | split | dsimp only | with_reducible apply Canon.mk
                 | with_reducible apply CanonOf.of)

theorem loaded_canon {qs : Base} {r : State × Nat} (h : r.1.Ok qs) : (loaded r).1.Ok qs := h

theorem stored_canon {qs : Base} {r : State × StoreRes} (h : r.1.Ok qs) : (stored r).1.Ok qs := h

theorem State.loadMgmt_canon {qs : Base} {s : State} (c lv a size : Nat) (spill : Bool) (hs : s.Ok qs) :
    (State.loadMgmt s c lv a size spill).1.Ok qs := by
  have hf : (s.flush c).Ok qs := State.flush_canon c hs
  unfold State.loadMgmt
  extract_lets +onlyGivenNames -underBinder s1
  replace hf : s1.Ok qs := hf
  clear_value s1
  generalize mgmtOff a = o
  refine Canon.ite1 ?_ (State.denySize_canon _ _ _ _ _ hs)
  cases s.mgmtOffline a with
  | some n => exact State.noIsland_canon _ _ hf
  | none => exact Canon.ite1 hf (loaded_canon (State.mgmtLoad_canon _ _ hf))

theorem State.load_canon {qs : Base} {s : State} (c lv a size : Nat) (spill : Bool) (hs : s.Ok qs) :
    (State.load s c lv a size spill).1.Ok qs := by
  unfold State.load
  extract_lets +onlyGivenNames -underBinder r
  have hr : r.1.Ok qs := by
    unfold r
    repeat' (first | with_reducible intro _ | with_reducible assumption | with_reducible apply State.checkMem_canon
                   | with_reducible apply Canon.ite | with_reducible apply Canon.ite1 | split | dsimp only
                   | with_reducible apply Canon.mk | with_reducible apply CanonOf.of)
  clear_value r
  repeat' (first | with_reducible intro _ | with_reducible assumption | with_reducible apply State.noIsland_canon
                 | with_reducible apply State.sramLoad_canon | with_reducible apply State.flush_canon
                 | with_reducible apply loaded_canon | with_reducible apply State.loadMgmt_canon
                 | with_reducible apply Canon.ite | with_reducible apply Canon.ite1 | split | dsimp only
                 | with_reducible apply Canon.mk | with_reducible apply CanonOf.of)

theorem State.denyStore_canon {qs : Base} {s : State} (c lv a size : Nat) (spill : Bool) (hs : s.Ok qs) :
    (State.denyStore s c lv a size spill).Ok qs := by
  unfold State.denyStore
  repeat' (first | with_reducible intro _ | with_reducible assumption | with_reducible apply State.deny_canon
                 | with_reducible apply Canon.ite | split | dsimp only | with_reducible apply Canon.mk
                 | with_reducible apply CanonOf.of)

theorem execRegisterWrite_canon {qs : Base} (cp : Option (Fin 32)) (level : Fin 4) (off : BitVec 32) (v : Word)
    (t : Nat) {s : State} (hs : s.Ok qs) : ResOk qs (execRegisterWrite cp level off v t s) := by
  unfold execRegisterWrite
  extract_lets +onlyGivenNames -underBinder s0
  have hs0 : s0.Ok qs := by
    unfold s0
    repeat' (first | with_reducible intro _ | with_reducible assumption | with_reducible apply State.at_canon
                   | with_reducible apply Canon.ite | split | dsimp only | with_reducible apply Canon.mk
                   | with_reducible apply CanonOf.of)
  clear_value s0
  repeat' (first | with_reducible intro _ | with_reducible assumption | with_reducible apply ResOk.next
                 | with_reducible apply State.noIsland_canon | with_reducible apply State.mgmtStore_canon
                 | with_reducible apply State.denyStore_canon | with_reducible apply Canon.ite
                 | with_reducible apply ResOk.ite | with_reducible apply Canon.ite1 | split | dsimp only
                 | with_reducible apply Canon.mk | with_reducible apply CanonOf.of)

theorem State.storeMgmt_canon {qs : Base} {s : State} (c lv a size v : Nat) (spill : Bool) (hs : s.Ok qs) :
    (State.storeMgmt s c lv a size v spill).1.Ok qs := by
  unfold State.storeMgmt
  repeat' (first | with_reducible intro _ | with_reducible assumption | with_reducible apply State.co_canon
                 | with_reducible apply State.noIsland_canon | with_reducible apply State.flush_canon
                 | with_reducible apply State.mgmtStore_canon | with_reducible apply State.denySize_canon
                 | with_reducible apply stored_canon | with_reducible apply State.denyStore_canon
                 | with_reducible apply Canon.ite | with_reducible apply Canon.ite1 | split | dsimp only
                 | with_reducible apply Canon.mk | with_reducible apply CanonOf.of)

theorem State.store_canon {qs : Base} {s : State} (c lv a size v : Nat) (spill : Bool) (hs : s.Ok qs) :
    (State.store s c lv a size v spill).1.Ok qs := by
  unfold State.store
  extract_lets +onlyGivenNames -underBinder r
  have hr : r.1.Ok qs := by
    unfold r
    repeat' (first | with_reducible intro _ | with_reducible assumption | with_reducible apply State.checkMem_canon
                   | with_reducible apply Canon.ite | with_reducible apply Canon.ite1 | split | dsimp only
                   | with_reducible apply Canon.mk | with_reducible apply CanonOf.of)
  clear_value r
  repeat' (first | with_reducible intro _ | with_reducible assumption | with_reducible apply State.co_canon
                 | with_reducible apply State.storeMgmt_canon | with_reducible apply Canon.ite
                 | with_reducible apply Canon.ite1 | split | dsimp only | with_reducible apply Canon.mk
                 | with_reducible apply CanonOf.of)

theorem State.fetchCheck_canon {qs : Base} {s : State} (c : Nat) (hs : s.Ok qs) : (State.fetchCheck s c).1.Ok qs := by
  unfold State.fetchCheck
  extract_lets +onlyGivenNames -underBinder k a
  try clear_value k
  try clear_value a
  repeat' (first | with_reducible intro _ | with_reducible assumption | with_reducible apply State.noIsland_canon
                 | with_reducible apply State.deny_canon | with_reducible apply Canon.ite
                 | with_reducible apply Canon.ite1 | split | dsimp only | with_reducible apply Canon.mk
                 | with_reducible apply CanonOf.of)

theorem State.illegal_canon {qs : Base} {s : State} (c : Nat) (w : Word) (hs : s.Ok qs) : (State.illegal s c w).Ok qs := by
  unfold State.illegal
  repeat' (first | with_reducible intro _ | with_reducible assumption | with_reducible apply State.trapAt_canon
                 | with_reducible apply Canon.ite | split | dsimp only | with_reducible apply Canon.mk
                 | with_reducible apply CanonOf.of)

theorem State.insnRun_canon {qs : Base} {s : State} (c : Nat) (w : Word) (e : Enc) (body : State → State) (hbody : ∀
    (a0 : State), a0.Ok qs → (body a0).Ok qs) (hs : s.Ok qs) : (State.insnRun s c w e body).Ok qs := by
  unfold State.insnRun
  extract_lets +onlyGivenNames -underBinder r
  have hr : r.1.Ok qs := by
    unfold r
    repeat' (first | with_reducible intro _ | with_reducible assumption | with_reducible apply State.fetchCheck_canon
                   | with_reducible apply hbody | with_reducible apply Canon.ite | with_reducible apply Canon.ite1
                   | split | dsimp only | with_reducible apply Canon.mk | with_reducible apply CanonOf.of)
  clear_value r
  repeat' (first | with_reducible intro _ | with_reducible assumption | with_reducible apply State.trapAt_canon
                 | with_reducible apply State.illegal_canon | with_reducible apply hbody | with_reducible apply Canon.ite
                 | with_reducible apply Canon.ite1 | split | dsimp only | with_reducible apply Canon.mk
                 | with_reducible apply CanonOf.of)

theorem State.insn_canon {qs : Base} {s : State} (c : Nat) (w : Word) (e : Enc) (body : State → State) (hbody : ∀
    (a0 : State), a0.Ok qs →
    (body a0).Ok qs) (hs : s.Ok qs) : (State.insn s c w e body).Ok qs := by
  unfold State.insn
  dsimp only
  exact Canon.ite hs (Canon.ite (State.interrupt_canon c hs) (State.insnRun_canon c w e body hbody hs))

theorem State.insnPriv_canon {qs : Base} {s : State} (c : Nat) (w : Word) (e : Enc) (body : State → State) (hbody : ∀
    (a0 : State), a0.Ok qs → (body a0).Ok qs) (hs : s.Ok qs) : (State.insnPriv s c w e body).Ok qs := by
  unfold State.insnPriv
  repeat' (first | with_reducible intro _ | with_reducible assumption | with_reducible apply State.illegal_canon
                 | with_reducible apply State.insn_canon | with_reducible apply hbody | with_reducible apply Canon.ite
                 | split | dsimp only | with_reducible apply Canon.mk | with_reducible apply CanonOf.of)

theorem State.put1_canon {qs : Base} {s : State} (c : Nat) (w : Word) (v : DWord) (hs : s.Ok qs) :
    (State.put1 s c w v).Ok qs := by
  unfold State.put1
  repeat' (first | with_reducible intro _ | with_reducible assumption | with_reducible apply State.setX_canon
                 | with_reducible apply State.retire_canon | with_reducible apply Canon.ite | split | dsimp only
                 | with_reducible apply Canon.mk | with_reducible apply CanonOf.of)

end Sys2Proof.Machine
end

