-- ==== Sys2Proof/Laws/CanonCoreFloat.lean ====
section
/-! SUPPORT. The canonical form is kept by the definitions of Machine/CoreFloat.lean. -/
namespace Sys2Proof.Machine

theorem State.fput_canon {qs : Base} {s : State} (c : Nat) (w : Word) (int : Bool) (r : FRes) (hs : s.Ok qs) :
    (State.fput s c w int r).Ok qs := by
  unfold State.fput
  extract_lets +onlyGivenNames -underBinder s1
  have hs1 : s1.Ok qs := by
    unfold s1
    repeat' (first | with_reducible intro _ | with_reducible assumption | with_reducible apply State.co_canon
                   | with_reducible apply Canon.ite | split | dsimp only | with_reducible apply Canon.mk
                   | with_reducible apply CanonOf.of)
  clear_value s1
  repeat' (first | with_reducible intro _ | with_reducible assumption | with_reducible apply State.setX_canon
                 | with_reducible apply State.setF_canon | with_reducible apply State.retire_canon
                 | with_reducible apply Canon.ite | split | dsimp only | with_reducible apply Canon.mk
                 | with_reducible apply CanonOf.of)

theorem State.fexec_canon {qs : Base} {s : State} (c : Nat) (w : Word) (e : Enc) (int : Bool) (g : State → Bool → FRes)
    (hs : s.Ok qs) : (State.fexec s c w e int g).Ok qs := by
  unfold State.fexec
  repeat' (first | with_reducible intro _ | with_reducible assumption | with_reducible apply State.insn_canon
                 | with_reducible apply State.fput_canon | with_reducible apply Canon.ite | split | dsimp only
                 | with_reducible apply Canon.mk | with_reducible apply CanonOf.of)

theorem State.fround_canon {qs : Base} {s : State} (c : Nat) (w : Word) (e : Enc) (wide int : Bool)
    (g : State → Fmt → RMode → FRes) (hs : s.Ok qs) : (State.fround s c w e wide int g).Ok qs := by
  unfold State.fround
  repeat' (first | with_reducible intro _ | with_reducible assumption | with_reducible apply State.illegal_canon
                 | with_reducible apply State.insn_canon | with_reducible apply State.fput_canon
                 | with_reducible apply Canon.ite | split | dsimp only | with_reducible apply Canon.mk
                 | with_reducible apply CanonOf.of)

theorem State.fround2_canon {qs : Base} {s : State} (c : Nat) (w : Word) (e : Enc) (f : Fmt → RMode → FVal → FVal → FRes)
    (hs : s.Ok qs) : (State.fround2 s c w e f).Ok qs := by
  unfold State.fround2
  repeat' (first | with_reducible intro _ | with_reducible assumption | with_reducible apply State.fround_canon
                 | with_reducible apply Canon.ite | split | dsimp only | with_reducible apply Canon.mk
                 | with_reducible apply CanonOf.of)

theorem State.ffma_canon {qs : Base} {s : State} (c : Nat) (w : Word) (e : Enc) (np nz : Bool) (hs : s.Ok qs) :
    (State.ffma s c w e np nz).Ok qs := by
  unfold State.ffma
  repeat' (first | with_reducible intro _ | with_reducible assumption | with_reducible apply State.fround_canon
                 | with_reducible apply Canon.ite | split | dsimp only | with_reducible apply Canon.mk
                 | with_reducible apply CanonOf.of)

theorem State.ftoi_canon {qs : Base} {s : State} (c : Nat) (w : Word) (e : Enc) (lo hi : Int) (hs : s.Ok qs) :
    (State.ftoi s c w e lo hi).Ok qs := by
  unfold State.ftoi
  repeat' (first | with_reducible intro _ | with_reducible assumption | with_reducible apply State.fround_canon
                 | with_reducible apply Canon.ite | split | dsimp only | with_reducible apply Canon.mk
                 | with_reducible apply CanonOf.of)

theorem execCoreFadd_canon {qs : Base} (cp : Fin 32) (w : Word) {s : State} (hs : s.Ok qs) : ResOk qs
    (execCoreFadd cp w s) := by
  unfold execCoreFadd
  repeat' (first | with_reducible intro _ | with_reducible assumption | with_reducible apply ResOk.next
                 | with_reducible apply State.fround2_canon | with_reducible apply Canon.ite
                 | with_reducible apply ResOk.ite | split | dsimp only | with_reducible apply Canon.mk
                 | with_reducible apply CanonOf.of)

theorem execCoreFsub_canon {qs : Base} (cp : Fin 32) (w : Word) {s : State} (hs : s.Ok qs) : ResOk qs
    (execCoreFsub cp w s) := by
  unfold execCoreFsub
  repeat' (first | with_reducible intro _ | with_reducible assumption | with_reducible apply ResOk.next
                 | with_reducible apply State.fround2_canon | with_reducible apply Canon.ite
                 | with_reducible apply ResOk.ite | split | dsimp only | with_reducible apply Canon.mk
                 | with_reducible apply CanonOf.of)

theorem execCoreFmul_canon {qs : Base} (cp : Fin 32) (w : Word) {s : State} (hs : s.Ok qs) : ResOk qs
    (execCoreFmul cp w s) := by
  unfold execCoreFmul
  repeat' (first | with_reducible intro _ | with_reducible assumption | with_reducible apply ResOk.next
                 | with_reducible apply State.fround2_canon | with_reducible apply Canon.ite
                 | with_reducible apply ResOk.ite | split | dsimp only | with_reducible apply Canon.mk
                 | with_reducible apply CanonOf.of)

theorem execCoreFdiv_canon {qs : Base} (cp : Fin 32) (w : Word) {s : State} (hs : s.Ok qs) : ResOk qs
    (execCoreFdiv cp w s) := by
  unfold execCoreFdiv
  repeat' (first | with_reducible intro _ | with_reducible assumption | with_reducible apply ResOk.next
                 | with_reducible apply State.fround2_canon | with_reducible apply Canon.ite
                 | with_reducible apply ResOk.ite | split | dsimp only | with_reducible apply Canon.mk
                 | with_reducible apply CanonOf.of)

theorem execCoreFsqrt_canon {qs : Base} (cp : Fin 32) (w : Word) {s : State} (hs : s.Ok qs) : ResOk qs
    (execCoreFsqrt cp w s) := by
  unfold execCoreFsqrt
  repeat' (first | with_reducible intro _ | with_reducible assumption | with_reducible apply ResOk.next
                 | with_reducible apply State.fround_canon | with_reducible apply Canon.ite
                 | with_reducible apply ResOk.ite | split | dsimp only | with_reducible apply Canon.mk
                 | with_reducible apply CanonOf.of)

theorem execCoreFmin_canon {qs : Base} (cp : Fin 32) (w : Word) {s : State} (hs : s.Ok qs) : ResOk qs
    (execCoreFmin cp w s) := by
  unfold execCoreFmin
  repeat' (first | with_reducible intro _ | with_reducible assumption | with_reducible apply ResOk.next
                 | with_reducible apply State.fexec_canon | with_reducible apply Canon.ite
                 | with_reducible apply ResOk.ite | split | dsimp only | with_reducible apply Canon.mk
                 | with_reducible apply CanonOf.of)

theorem execCoreFmax_canon {qs : Base} (cp : Fin 32) (w : Word) {s : State} (hs : s.Ok qs) : ResOk qs
    (execCoreFmax cp w s) := by
  unfold execCoreFmax
  repeat' (first | with_reducible intro _ | with_reducible assumption | with_reducible apply ResOk.next
                 | with_reducible apply State.fexec_canon | with_reducible apply Canon.ite
                 | with_reducible apply ResOk.ite | split | dsimp only | with_reducible apply Canon.mk
                 | with_reducible apply CanonOf.of)

theorem execCoreFabs_canon {qs : Base} (cp : Fin 32) (w : Word) {s : State} (hs : s.Ok qs) : ResOk qs
    (execCoreFabs cp w s) := by
  unfold execCoreFabs
  repeat' (first | with_reducible intro _ | with_reducible assumption | with_reducible apply ResOk.next
                 | with_reducible apply State.fexec_canon | with_reducible apply Canon.ite
                 | with_reducible apply ResOk.ite | split | dsimp only | with_reducible apply Canon.mk
                 | with_reducible apply CanonOf.of)

theorem execCoreFneg_canon {qs : Base} (cp : Fin 32) (w : Word) {s : State} (hs : s.Ok qs) : ResOk qs
    (execCoreFneg cp w s) := by
  unfold execCoreFneg
  repeat' (first | with_reducible intro _ | with_reducible assumption | with_reducible apply ResOk.next
                 | with_reducible apply State.fexec_canon | with_reducible apply Canon.ite
                 | with_reducible apply ResOk.ite | split | dsimp only | with_reducible apply Canon.mk
                 | with_reducible apply CanonOf.of)

theorem execCoreFcsgn_canon {qs : Base} (cp : Fin 32) (w : Word) {s : State} (hs : s.Ok qs) : ResOk qs
    (execCoreFcsgn cp w s) := by
  unfold execCoreFcsgn
  repeat' (first | with_reducible intro _ | with_reducible assumption | with_reducible apply ResOk.next
                 | with_reducible apply State.fexec_canon | with_reducible apply Canon.ite
                 | with_reducible apply ResOk.ite | split | dsimp only | with_reducible apply Canon.mk
                 | with_reducible apply CanonOf.of)

theorem execCoreFcmpeq_canon {qs : Base} (cp : Fin 32) (w : Word) {s : State} (hs : s.Ok qs) : ResOk qs
    (execCoreFcmpeq cp w s) := by
  unfold execCoreFcmpeq
  repeat' (first | with_reducible intro _ | with_reducible assumption | with_reducible apply ResOk.next
                 | with_reducible apply State.fexec_canon | with_reducible apply Canon.ite
                 | with_reducible apply ResOk.ite | split | dsimp only | with_reducible apply Canon.mk
                 | with_reducible apply CanonOf.of)

theorem execCoreFcmplt_canon {qs : Base} (cp : Fin 32) (w : Word) {s : State} (hs : s.Ok qs) : ResOk qs
    (execCoreFcmplt cp w s) := by
  unfold execCoreFcmplt
  repeat' (first | with_reducible intro _ | with_reducible assumption | with_reducible apply ResOk.next
                 | with_reducible apply State.fexec_canon | with_reducible apply Canon.ite
                 | with_reducible apply ResOk.ite | split | dsimp only | with_reducible apply Canon.mk
                 | with_reducible apply CanonOf.of)

theorem execCoreFcmple_canon {qs : Base} (cp : Fin 32) (w : Word) {s : State} (hs : s.Ok qs) : ResOk qs
    (execCoreFcmple cp w s) := by
  unfold execCoreFcmple
  repeat' (first | with_reducible intro _ | with_reducible assumption | with_reducible apply ResOk.next
                 | with_reducible apply State.fexec_canon | with_reducible apply Canon.ite
                 | with_reducible apply ResOk.ite | split | dsimp only | with_reducible apply Canon.mk
                 | with_reducible apply CanonOf.of)

theorem execCoreFkind_canon {qs : Base} (cp : Fin 32) (w : Word) {s : State} (hs : s.Ok qs) : ResOk qs
    (execCoreFkind cp w s) := by
  unfold execCoreFkind
  repeat' (first | with_reducible intro _ | with_reducible assumption | with_reducible apply ResOk.next
                 | with_reducible apply State.fexec_canon | with_reducible apply Canon.ite
                 | with_reducible apply ResOk.ite | split | dsimp only | with_reducible apply Canon.mk
                 | with_reducible apply CanonOf.of)

theorem execCoreFtobits_canon {qs : Base} (cp : Fin 32) (w : Word) {s : State} (hs : s.Ok qs) : ResOk qs
    (execCoreFtobits cp w s) := by
  unfold execCoreFtobits
  repeat' (first | with_reducible intro _ | with_reducible assumption | with_reducible apply ResOk.next
                 | with_reducible apply State.fexec_canon | with_reducible apply Canon.ite
                 | with_reducible apply ResOk.ite | split | dsimp only | with_reducible apply Canon.mk
                 | with_reducible apply CanonOf.of)

theorem execCoreBitstof_canon {qs : Base} (cp : Fin 32) (w : Word) {s : State} (hs : s.Ok qs) : ResOk qs
    (execCoreBitstof cp w s) := by
  unfold execCoreBitstof
  repeat' (first | with_reducible intro _ | with_reducible assumption | with_reducible apply ResOk.next
                 | with_reducible apply State.fexec_canon | with_reducible apply Canon.ite
                 | with_reducible apply ResOk.ite | split | dsimp only | with_reducible apply Canon.mk
                 | with_reducible apply CanonOf.of)

theorem execCoreFtoi64_canon {qs : Base} (cp : Fin 32) (w : Word) {s : State} (hs : s.Ok qs) : ResOk qs
    (execCoreFtoi64 cp w s) := by
  unfold execCoreFtoi64
  repeat' (first | with_reducible intro _ | with_reducible assumption | with_reducible apply ResOk.next
                 | with_reducible apply State.ftoi_canon | with_reducible apply Canon.ite
                 | with_reducible apply ResOk.ite | split | dsimp only | with_reducible apply Canon.mk
                 | with_reducible apply CanonOf.of)

theorem execCoreFtou64_canon {qs : Base} (cp : Fin 32) (w : Word) {s : State} (hs : s.Ok qs) : ResOk qs
    (execCoreFtou64 cp w s) := by
  unfold execCoreFtou64
  repeat' (first | with_reducible intro _ | with_reducible assumption | with_reducible apply ResOk.next
                 | with_reducible apply State.ftoi_canon | with_reducible apply Canon.ite
                 | with_reducible apply ResOk.ite | split | dsimp only | with_reducible apply Canon.mk
                 | with_reducible apply CanonOf.of)

theorem execCoreFtoi32_canon {qs : Base} (cp : Fin 32) (w : Word) {s : State} (hs : s.Ok qs) : ResOk qs
    (execCoreFtoi32 cp w s) := by
  unfold execCoreFtoi32
  repeat' (first | with_reducible intro _ | with_reducible assumption | with_reducible apply ResOk.next
                 | with_reducible apply State.ftoi_canon | with_reducible apply Canon.ite
                 | with_reducible apply ResOk.ite | split | dsimp only | with_reducible apply Canon.mk
                 | with_reducible apply CanonOf.of)

theorem execCoreFtou32_canon {qs : Base} (cp : Fin 32) (w : Word) {s : State} (hs : s.Ok qs) : ResOk qs
    (execCoreFtou32 cp w s) := by
  unfold execCoreFtou32
  repeat' (first | with_reducible intro _ | with_reducible assumption | with_reducible apply ResOk.next
                 | with_reducible apply State.ftoi_canon | with_reducible apply Canon.ite
                 | with_reducible apply ResOk.ite | split | dsimp only | with_reducible apply Canon.mk
                 | with_reducible apply CanonOf.of)

theorem execCoreI64tof_canon {qs : Base} (cp : Fin 32) (w : Word) {s : State} (hs : s.Ok qs) : ResOk qs
    (execCoreI64tof cp w s) := by
  unfold execCoreI64tof
  repeat' (first | with_reducible intro _ | with_reducible assumption | with_reducible apply ResOk.next
                 | with_reducible apply State.fround_canon | with_reducible apply Canon.ite
                 | with_reducible apply ResOk.ite | split | dsimp only | with_reducible apply Canon.mk
                 | with_reducible apply CanonOf.of)

theorem execCoreU64tof_canon {qs : Base} (cp : Fin 32) (w : Word) {s : State} (hs : s.Ok qs) : ResOk qs
    (execCoreU64tof cp w s) := by
  unfold execCoreU64tof
  repeat' (first | with_reducible intro _ | with_reducible assumption | with_reducible apply ResOk.next
                 | with_reducible apply State.fround_canon | with_reducible apply Canon.ite
                 | with_reducible apply ResOk.ite | split | dsimp only | with_reducible apply Canon.mk
                 | with_reducible apply CanonOf.of)

theorem execCoreI32tof_canon {qs : Base} (cp : Fin 32) (w : Word) {s : State} (hs : s.Ok qs) : ResOk qs
    (execCoreI32tof cp w s) := by
  unfold execCoreI32tof
  repeat' (first | with_reducible intro _ | with_reducible assumption | with_reducible apply ResOk.next
                 | with_reducible apply State.fexec_canon | with_reducible apply State.fround_canon
                 | with_reducible apply Canon.ite | with_reducible apply ResOk.ite | split | dsimp only
                 | with_reducible apply Canon.mk | with_reducible apply CanonOf.of)

theorem execCoreU32tof_canon {qs : Base} (cp : Fin 32) (w : Word) {s : State} (hs : s.Ok qs) : ResOk qs
    (execCoreU32tof cp w s) := by
  unfold execCoreU32tof
  repeat' (first | with_reducible intro _ | with_reducible assumption | with_reducible apply ResOk.next
                 | with_reducible apply State.fexec_canon | with_reducible apply State.fround_canon
                 | with_reducible apply Canon.ite | with_reducible apply ResOk.ite | split | dsimp only
                 | with_reducible apply Canon.mk | with_reducible apply CanonOf.of)

theorem execCoreFwidth_canon {qs : Base} (cp : Fin 32) (w : Word) {s : State} (hs : s.Ok qs) : ResOk qs
    (execCoreFwidth cp w s) := by
  unfold execCoreFwidth
  repeat' (first | with_reducible intro _ | with_reducible assumption | with_reducible apply ResOk.next
                 | with_reducible apply State.fexec_canon | with_reducible apply State.fround_canon
                 | with_reducible apply Canon.ite | with_reducible apply ResOk.ite | split | dsimp only
                 | with_reducible apply Canon.mk | with_reducible apply CanonOf.of)

theorem execCoreFmac_canon {qs : Base} (cp : Fin 32) (w : Word) {s : State} (hs : s.Ok qs) : ResOk qs
    (execCoreFmac cp w s) := by
  unfold execCoreFmac
  repeat' (first | with_reducible intro _ | with_reducible assumption | with_reducible apply ResOk.next
                 | with_reducible apply State.ffma_canon | with_reducible apply Canon.ite
                 | with_reducible apply ResOk.ite | split | dsimp only | with_reducible apply Canon.mk
                 | with_reducible apply CanonOf.of)

theorem execCoreFmsc_canon {qs : Base} (cp : Fin 32) (w : Word) {s : State} (hs : s.Ok qs) : ResOk qs
    (execCoreFmsc cp w s) := by
  unfold execCoreFmsc
  repeat' (first | with_reducible intro _ | with_reducible assumption | with_reducible apply ResOk.next
                 | with_reducible apply State.ffma_canon | with_reducible apply Canon.ite
                 | with_reducible apply ResOk.ite | split | dsimp only | with_reducible apply Canon.mk
                 | with_reducible apply CanonOf.of)

theorem execCoreFnmac_canon {qs : Base} (cp : Fin 32) (w : Word) {s : State} (hs : s.Ok qs) : ResOk qs
    (execCoreFnmac cp w s) := by
  unfold execCoreFnmac
  repeat' (first | with_reducible intro _ | with_reducible assumption | with_reducible apply ResOk.next
                 | with_reducible apply State.ffma_canon | with_reducible apply Canon.ite
                 | with_reducible apply ResOk.ite | split | dsimp only | with_reducible apply Canon.mk
                 | with_reducible apply CanonOf.of)

theorem execCoreFnmsc_canon {qs : Base} (cp : Fin 32) (w : Word) {s : State} (hs : s.Ok qs) : ResOk qs
    (execCoreFnmsc cp w s) := by
  unfold execCoreFnmsc
  repeat' (first | with_reducible intro _ | with_reducible assumption | with_reducible apply ResOk.next
                 | with_reducible apply State.ffma_canon | with_reducible apply Canon.ite
                 | with_reducible apply ResOk.ite | split | dsimp only | with_reducible apply Canon.mk
                 | with_reducible apply CanonOf.of)

end Sys2Proof.Machine
end

