-- ==== Sys2Proof/Laws/CanonCoreFlow.lean ====
section
/-! SUPPORT. The canonical form is kept by the definitions of Machine/CoreFlow.lean. -/
namespace Sys2Proof.Machine

theorem State.branch_canon {qs : Base} {s : State} (c : Nat) (w : Word) (e : Enc) (f : DWord → DWord → Bool)
    (hs : s.Ok qs) : (State.branch s c w e f).Ok qs := by
  unfold State.branch
  repeat' (first | with_reducible intro _ | with_reducible assumption | with_reducible apply State.retireTo_canon
                 | with_reducible apply State.signBranch_canon | with_reducible apply State.insn_canon
                 | with_reducible apply Canon.ite | split | dsimp only | with_reducible apply Canon.mk
                 | with_reducible apply CanonOf.of)

theorem State.jump_canon {qs : Base} {s : State} (c d : Nat) (target : DWord) (hs : s.Ok qs) :
    (State.jump s c d target).Ok qs := by
  unfold State.jump
  extract_lets +onlyGivenNames -underBinder pc
  try clear_value pc
  repeat' (first | with_reducible intro _ | with_reducible assumption | with_reducible apply State.setX_canon
                 | with_reducible apply State.retireTo_canon | with_reducible apply State.signBranch_canon
                 | with_reducible apply Canon.ite | split | dsimp only | with_reducible apply Canon.mk
                 | with_reducible apply CanonOf.of)

theorem State.winTrap_canon {qs : Base} {s : State} (c code : Nat) (w : Word) (hs : s.Ok qs) :
    (State.winTrap s c code w).Ok qs := by
  unfold State.winTrap
  repeat' (first | with_reducible intro _ | with_reducible assumption | with_reducible apply State.trapFree_canon
                 | with_reducible apply State.illegal_canon | with_reducible apply Canon.ite | split | dsimp only
                 | with_reducible apply Canon.mk | with_reducible apply CanonOf.of)

theorem execCoreBreq_canon {qs : Base} (cp : Fin 32) (w : Word) {s : State} (hs : s.Ok qs) : ResOk qs
    (execCoreBreq cp w s) := by
  unfold execCoreBreq
  repeat' (first | with_reducible intro _ | with_reducible assumption | with_reducible apply ResOk.next
                 | with_reducible apply State.branch_canon | with_reducible apply Canon.ite
                 | with_reducible apply ResOk.ite | split | dsimp only | with_reducible apply Canon.mk
                 | with_reducible apply CanonOf.of)

theorem execCoreBrne_canon {qs : Base} (cp : Fin 32) (w : Word) {s : State} (hs : s.Ok qs) : ResOk qs
    (execCoreBrne cp w s) := by
  unfold execCoreBrne
  repeat' (first | with_reducible intro _ | with_reducible assumption | with_reducible apply ResOk.next
                 | with_reducible apply State.branch_canon | with_reducible apply Canon.ite
                 | with_reducible apply ResOk.ite | split | dsimp only | with_reducible apply Canon.mk
                 | with_reducible apply CanonOf.of)

theorem execCoreBrlt_canon {qs : Base} (cp : Fin 32) (w : Word) {s : State} (hs : s.Ok qs) : ResOk qs
    (execCoreBrlt cp w s) := by
  unfold execCoreBrlt
  repeat' (first | with_reducible intro _ | with_reducible assumption | with_reducible apply ResOk.next
                 | with_reducible apply State.branch_canon | with_reducible apply Canon.ite
                 | with_reducible apply ResOk.ite | split | dsimp only | with_reducible apply Canon.mk
                 | with_reducible apply CanonOf.of)

theorem execCoreBrge_canon {qs : Base} (cp : Fin 32) (w : Word) {s : State} (hs : s.Ok qs) : ResOk qs
    (execCoreBrge cp w s) := by
  unfold execCoreBrge
  repeat' (first | with_reducible intro _ | with_reducible assumption | with_reducible apply ResOk.next
                 | with_reducible apply State.branch_canon | with_reducible apply Canon.ite
                 | with_reducible apply ResOk.ite | split | dsimp only | with_reducible apply Canon.mk
                 | with_reducible apply CanonOf.of)

theorem execCoreBrltu_canon {qs : Base} (cp : Fin 32) (w : Word) {s : State} (hs : s.Ok qs) : ResOk qs
    (execCoreBrltu cp w s) := by
  unfold execCoreBrltu
  repeat' (first | with_reducible intro _ | with_reducible assumption | with_reducible apply ResOk.next
                 | with_reducible apply State.branch_canon | with_reducible apply Canon.ite
                 | with_reducible apply ResOk.ite | split | dsimp only | with_reducible apply Canon.mk
                 | with_reducible apply CanonOf.of)

theorem execCoreBrgeu_canon {qs : Base} (cp : Fin 32) (w : Word) {s : State} (hs : s.Ok qs) : ResOk qs
    (execCoreBrgeu cp w s) := by
  unfold execCoreBrgeu
  repeat' (first | with_reducible intro _ | with_reducible assumption | with_reducible apply ResOk.next
                 | with_reducible apply State.branch_canon | with_reducible apply Canon.ite
                 | with_reducible apply ResOk.ite | split | dsimp only | with_reducible apply Canon.mk
                 | with_reducible apply CanonOf.of)

theorem execCoreJmp_canon {qs : Base} (cp : Fin 32) (w : Word) {s : State} (hs : s.Ok qs) : ResOk qs
    (execCoreJmp cp w s) := by
  unfold execCoreJmp
  repeat' (first | with_reducible intro _ | with_reducible assumption | with_reducible apply ResOk.next
                 | with_reducible apply State.insn_canon | with_reducible apply State.jump_canon
                 | with_reducible apply Canon.ite | with_reducible apply ResOk.ite | split | dsimp only
                 | with_reducible apply Canon.mk | with_reducible apply CanonOf.of)

theorem execCoreCall_canon {qs : Base} (cp : Fin 32) (w : Word) {s : State} (hs : s.Ok qs) : ResOk qs
    (execCoreCall cp w s) := by
  unfold execCoreCall
  repeat' (first | with_reducible intro _ | with_reducible assumption | with_reducible apply ResOk.next
                 | with_reducible apply State.insn_canon | with_reducible apply State.jump_canon
                 | with_reducible apply Canon.ite | with_reducible apply ResOk.ite | split | dsimp only
                 | with_reducible apply Canon.mk | with_reducible apply CanonOf.of)

theorem execCoreJmpr_canon {qs : Base} (cp : Fin 32) (w : Word) {s : State} (hs : s.Ok qs) : ResOk qs
    (execCoreJmpr cp w s) := by
  unfold execCoreJmpr
  repeat' (first | with_reducible intro _ | with_reducible assumption | with_reducible apply ResOk.next
                 | with_reducible apply State.insn_canon | with_reducible apply State.jump_canon
                 | with_reducible apply Canon.ite | with_reducible apply ResOk.ite | split | dsimp only
                 | with_reducible apply Canon.mk | with_reducible apply CanonOf.of)

theorem execCoreCallr_canon {qs : Base} (cp : Fin 32) (w : Word) {s : State} (hs : s.Ok qs) : ResOk qs
    (execCoreCallr cp w s) := by
  unfold execCoreCallr
  repeat' (first | with_reducible intro _ | with_reducible assumption | with_reducible apply ResOk.next
                 | with_reducible apply State.insn_canon | with_reducible apply State.jump_canon
                 | with_reducible apply Canon.ite | with_reducible apply ResOk.ite | split | dsimp only
                 | with_reducible apply Canon.mk | with_reducible apply CanonOf.of)

theorem execCoreEnter_canon {qs : Base} (cp : Fin 32) (w : Word) {s : State} (hs : s.Ok qs) : ResOk qs
    (execCoreEnter cp w s) := by
  unfold execCoreEnter
  with_reducible apply ResOk.next
  repeat' (first | with_reducible intro _ | with_reducible assumption | with_reducible apply State.co_canon
                 | with_reducible apply State.retire_canon | with_reducible apply State.illegal_canon
                 | with_reducible apply State.insn_canon | with_reducible apply State.winTrap_canon
                 | with_reducible apply Canon.foldl | with_reducible apply Canon.foldl1 | with_reducible apply Canon.ite
                 | split | dsimp only | with_reducible apply Canon.mk | with_reducible apply CanonOf.of)

theorem execCoreLeave_canon {qs : Base} (cp : Fin 32) (w : Word) {s : State} (hs : s.Ok qs) : ResOk qs
    (execCoreLeave cp w s) := by
  unfold execCoreLeave
  repeat' (first | with_reducible intro _ | with_reducible assumption | with_reducible apply ResOk.next
                 | with_reducible apply State.co_canon | with_reducible apply State.retire_canon
                 | with_reducible apply State.insn_canon | with_reducible apply State.winTrap_canon
                 | with_reducible apply Canon.ite | with_reducible apply ResOk.ite | split | dsimp only
                 | with_reducible apply Canon.mk | with_reducible apply CanonOf.of)

theorem execCoreRet_canon {qs : Base} (cp : Fin 32) (w : Word) {s : State} (hs : s.Ok qs) : ResOk qs
    (execCoreRet cp w s) := by
  unfold execCoreRet
  with_reducible apply ResOk.next
  repeat' (first | with_reducible intro _ | with_reducible assumption | with_reducible apply State.co_canon
                 | with_reducible apply State.retireTo_canon | with_reducible apply State.signBranch_canon
                 | with_reducible apply State.insn_canon | with_reducible apply State.winTrap_canon
                 | with_reducible apply Canon.ite | split | dsimp only | with_reducible apply Canon.mk
                 | with_reducible apply CanonOf.of)

end Sys2Proof.Machine
end

