-- ==== Sys2Proof/Laws/CanonCoreInt.lean ====
section
/-! SUPPORT. The canonical form is kept by the definitions of Machine/CoreInt.lean. -/
namespace Sys2Proof.Machine

theorem State.opA_canon {qs : Base} {s : State} (c : Nat) (w : Word) (e : Enc) (f : DWord → DWord → DWord)
    (hs : s.Ok qs) : (State.opA s c w e f).Ok qs := by
  unfold State.opA
  repeat' (first | with_reducible intro _ | with_reducible assumption | with_reducible apply State.insn_canon
                 | with_reducible apply State.put1_canon | with_reducible apply Canon.ite | split | dsimp only
                 | with_reducible apply Canon.mk | with_reducible apply CanonOf.of)

theorem State.opI_canon {qs : Base} {s : State} (c : Nat) (w : Word) (e : Enc) (f : DWord → DWord → DWord) (imm : DWord)
    (hs : s.Ok qs) : (State.opI s c w e f imm).Ok qs := by
  unfold State.opI
  repeat' (first | with_reducible intro _ | with_reducible assumption | with_reducible apply State.insn_canon
                 | with_reducible apply State.put1_canon | with_reducible apply Canon.ite | split | dsimp only
                 | with_reducible apply Canon.mk | with_reducible apply CanonOf.of)

theorem execCoreAdd_canon {qs : Base} (cp : Fin 32) (w : Word) {s : State} (hs : s.Ok qs) : ResOk qs
    (execCoreAdd cp w s) := by
  unfold execCoreAdd
  repeat' (first | with_reducible intro _ | with_reducible assumption | with_reducible apply ResOk.next
                 | with_reducible apply State.opA_canon | with_reducible apply Canon.ite | with_reducible apply ResOk.ite
                 | split | dsimp only | with_reducible apply Canon.mk | with_reducible apply CanonOf.of)

theorem execCoreSub_canon {qs : Base} (cp : Fin 32) (w : Word) {s : State} (hs : s.Ok qs) : ResOk qs
    (execCoreSub cp w s) := by
  unfold execCoreSub
  repeat' (first | with_reducible intro _ | with_reducible assumption | with_reducible apply ResOk.next
                 | with_reducible apply State.opA_canon | with_reducible apply Canon.ite | with_reducible apply ResOk.ite
                 | split | dsimp only | with_reducible apply Canon.mk | with_reducible apply CanonOf.of)

theorem execCoreAnd_canon {qs : Base} (cp : Fin 32) (w : Word) {s : State} (hs : s.Ok qs) : ResOk qs
    (execCoreAnd cp w s) := by
  unfold execCoreAnd
  repeat' (first | with_reducible intro _ | with_reducible assumption | with_reducible apply ResOk.next
                 | with_reducible apply State.opA_canon | with_reducible apply Canon.ite | with_reducible apply ResOk.ite
                 | split | dsimp only | with_reducible apply Canon.mk | with_reducible apply CanonOf.of)

theorem execCoreIor_canon {qs : Base} (cp : Fin 32) (w : Word) {s : State} (hs : s.Ok qs) : ResOk qs
    (execCoreIor cp w s) := by
  unfold execCoreIor
  repeat' (first | with_reducible intro _ | with_reducible assumption | with_reducible apply ResOk.next
                 | with_reducible apply State.opA_canon | with_reducible apply Canon.ite | with_reducible apply ResOk.ite
                 | split | dsimp only | with_reducible apply Canon.mk | with_reducible apply CanonOf.of)

theorem execCoreXor_canon {qs : Base} (cp : Fin 32) (w : Word) {s : State} (hs : s.Ok qs) : ResOk qs
    (execCoreXor cp w s) := by
  unfold execCoreXor
  repeat' (first | with_reducible intro _ | with_reducible assumption | with_reducible apply ResOk.next
                 | with_reducible apply State.opA_canon | with_reducible apply Canon.ite | with_reducible apply ResOk.ite
                 | split | dsimp only | with_reducible apply Canon.mk | with_reducible apply CanonOf.of)

theorem execCoreShl_canon {qs : Base} (cp : Fin 32) (w : Word) {s : State} (hs : s.Ok qs) : ResOk qs
    (execCoreShl cp w s) := by
  unfold execCoreShl
  repeat' (first | with_reducible intro _ | with_reducible assumption | with_reducible apply ResOk.next
                 | with_reducible apply State.opA_canon | with_reducible apply Canon.ite | with_reducible apply ResOk.ite
                 | split | dsimp only | with_reducible apply Canon.mk | with_reducible apply CanonOf.of)

theorem execCoreShr_canon {qs : Base} (cp : Fin 32) (w : Word) {s : State} (hs : s.Ok qs) : ResOk qs
    (execCoreShr cp w s) := by
  unfold execCoreShr
  repeat' (first | with_reducible intro _ | with_reducible assumption | with_reducible apply ResOk.next
                 | with_reducible apply State.opA_canon | with_reducible apply Canon.ite | with_reducible apply ResOk.ite
                 | split | dsimp only | with_reducible apply Canon.mk | with_reducible apply CanonOf.of)

theorem execCoreSha_canon {qs : Base} (cp : Fin 32) (w : Word) {s : State} (hs : s.Ok qs) : ResOk qs
    (execCoreSha cp w s) := by
  unfold execCoreSha
  repeat' (first | with_reducible intro _ | with_reducible assumption | with_reducible apply ResOk.next
                 | with_reducible apply State.opA_canon | with_reducible apply Canon.ite | with_reducible apply ResOk.ite
                 | split | dsimp only | with_reducible apply Canon.mk | with_reducible apply CanonOf.of)

theorem execCoreLess_canon {qs : Base} (cp : Fin 32) (w : Word) {s : State} (hs : s.Ok qs) : ResOk qs
    (execCoreLess cp w s) := by
  unfold execCoreLess
  repeat' (first | with_reducible intro _ | with_reducible assumption | with_reducible apply ResOk.next
                 | with_reducible apply State.opA_canon | with_reducible apply Canon.ite | with_reducible apply ResOk.ite
                 | split | dsimp only | with_reducible apply Canon.mk | with_reducible apply CanonOf.of)

theorem execCoreLessu_canon {qs : Base} (cp : Fin 32) (w : Word) {s : State} (hs : s.Ok qs) : ResOk qs
    (execCoreLessu cp w s) := by
  unfold execCoreLessu
  repeat' (first | with_reducible intro _ | with_reducible assumption | with_reducible apply ResOk.next
                 | with_reducible apply State.opA_canon | with_reducible apply Canon.ite | with_reducible apply ResOk.ite
                 | split | dsimp only | with_reducible apply Canon.mk | with_reducible apply CanonOf.of)

theorem execCoreMul_canon {qs : Base} (cp : Fin 32) (w : Word) {s : State} (hs : s.Ok qs) : ResOk qs
    (execCoreMul cp w s) := by
  unfold execCoreMul
  repeat' (first | with_reducible intro _ | with_reducible assumption | with_reducible apply ResOk.next
                 | with_reducible apply State.opA_canon | with_reducible apply Canon.ite | with_reducible apply ResOk.ite
                 | split | dsimp only | with_reducible apply Canon.mk | with_reducible apply CanonOf.of)

theorem execCoreMulhi_canon {qs : Base} (cp : Fin 32) (w : Word) {s : State} (hs : s.Ok qs) : ResOk qs
    (execCoreMulhi cp w s) := by
  unfold execCoreMulhi
  repeat' (first | with_reducible intro _ | with_reducible assumption | with_reducible apply ResOk.next
                 | with_reducible apply State.opA_canon | with_reducible apply Canon.ite | with_reducible apply ResOk.ite
                 | split | dsimp only | with_reducible apply Canon.mk | with_reducible apply CanonOf.of)

theorem execCoreMulhiu_canon {qs : Base} (cp : Fin 32) (w : Word) {s : State} (hs : s.Ok qs) : ResOk qs
    (execCoreMulhiu cp w s) := by
  unfold execCoreMulhiu
  repeat' (first | with_reducible intro _ | with_reducible assumption | with_reducible apply ResOk.next
                 | with_reducible apply State.opA_canon | with_reducible apply Canon.ite | with_reducible apply ResOk.ite
                 | split | dsimp only | with_reducible apply Canon.mk | with_reducible apply CanonOf.of)

theorem execCoreMulhix_canon {qs : Base} (cp : Fin 32) (w : Word) {s : State} (hs : s.Ok qs) : ResOk qs
    (execCoreMulhix cp w s) := by
  unfold execCoreMulhix
  repeat' (first | with_reducible intro _ | with_reducible assumption | with_reducible apply ResOk.next
                 | with_reducible apply State.opA_canon | with_reducible apply Canon.ite | with_reducible apply ResOk.ite
                 | split | dsimp only | with_reducible apply Canon.mk | with_reducible apply CanonOf.of)

theorem execCoreDiv_canon {qs : Base} (cp : Fin 32) (w : Word) {s : State} (hs : s.Ok qs) : ResOk qs
    (execCoreDiv cp w s) := by
  unfold execCoreDiv
  repeat' (first | with_reducible intro _ | with_reducible assumption | with_reducible apply ResOk.next
                 | with_reducible apply State.opA_canon | with_reducible apply Canon.ite | with_reducible apply ResOk.ite
                 | split | dsimp only | with_reducible apply Canon.mk | with_reducible apply CanonOf.of)

theorem execCoreDivu_canon {qs : Base} (cp : Fin 32) (w : Word) {s : State} (hs : s.Ok qs) : ResOk qs
    (execCoreDivu cp w s) := by
  unfold execCoreDivu
  repeat' (first | with_reducible intro _ | with_reducible assumption | with_reducible apply ResOk.next
                 | with_reducible apply State.opA_canon | with_reducible apply Canon.ite | with_reducible apply ResOk.ite
                 | split | dsimp only | with_reducible apply Canon.mk | with_reducible apply CanonOf.of)

theorem execCoreMod_canon {qs : Base} (cp : Fin 32) (w : Word) {s : State} (hs : s.Ok qs) : ResOk qs
    (execCoreMod cp w s) := by
  unfold execCoreMod
  repeat' (first | with_reducible intro _ | with_reducible assumption | with_reducible apply ResOk.next
                 | with_reducible apply State.opA_canon | with_reducible apply Canon.ite | with_reducible apply ResOk.ite
                 | split | dsimp only | with_reducible apply Canon.mk | with_reducible apply CanonOf.of)

theorem execCoreModu_canon {qs : Base} (cp : Fin 32) (w : Word) {s : State} (hs : s.Ok qs) : ResOk qs
    (execCoreModu cp w s) := by
  unfold execCoreModu
  repeat' (first | with_reducible intro _ | with_reducible assumption | with_reducible apply ResOk.next
                 | with_reducible apply State.opA_canon | with_reducible apply Canon.ite | with_reducible apply ResOk.ite
                 | split | dsimp only | with_reducible apply Canon.mk | with_reducible apply CanonOf.of)

theorem execCoreAdd32_canon {qs : Base} (cp : Fin 32) (w : Word) {s : State} (hs : s.Ok qs) : ResOk qs
    (execCoreAdd32 cp w s) := by
  unfold execCoreAdd32
  repeat' (first | with_reducible intro _ | with_reducible assumption | with_reducible apply ResOk.next
                 | with_reducible apply State.opA_canon | with_reducible apply Canon.ite | with_reducible apply ResOk.ite
                 | split | dsimp only | with_reducible apply Canon.mk | with_reducible apply CanonOf.of)

theorem execCoreSub32_canon {qs : Base} (cp : Fin 32) (w : Word) {s : State} (hs : s.Ok qs) : ResOk qs
    (execCoreSub32 cp w s) := by
  unfold execCoreSub32
  repeat' (first | with_reducible intro _ | with_reducible assumption | with_reducible apply ResOk.next
                 | with_reducible apply State.opA_canon | with_reducible apply Canon.ite | with_reducible apply ResOk.ite
                 | split | dsimp only | with_reducible apply Canon.mk | with_reducible apply CanonOf.of)

theorem execCoreShl32_canon {qs : Base} (cp : Fin 32) (w : Word) {s : State} (hs : s.Ok qs) : ResOk qs
    (execCoreShl32 cp w s) := by
  unfold execCoreShl32
  repeat' (first | with_reducible intro _ | with_reducible assumption | with_reducible apply ResOk.next
                 | with_reducible apply State.opA_canon | with_reducible apply Canon.ite | with_reducible apply ResOk.ite
                 | split | dsimp only | with_reducible apply Canon.mk | with_reducible apply CanonOf.of)

theorem execCoreShr32_canon {qs : Base} (cp : Fin 32) (w : Word) {s : State} (hs : s.Ok qs) : ResOk qs
    (execCoreShr32 cp w s) := by
  unfold execCoreShr32
  repeat' (first | with_reducible intro _ | with_reducible assumption | with_reducible apply ResOk.next
                 | with_reducible apply State.opA_canon | with_reducible apply Canon.ite | with_reducible apply ResOk.ite
                 | split | dsimp only | with_reducible apply Canon.mk | with_reducible apply CanonOf.of)

theorem execCoreSha32_canon {qs : Base} (cp : Fin 32) (w : Word) {s : State} (hs : s.Ok qs) : ResOk qs
    (execCoreSha32 cp w s) := by
  unfold execCoreSha32
  repeat' (first | with_reducible intro _ | with_reducible assumption | with_reducible apply ResOk.next
                 | with_reducible apply State.opA_canon | with_reducible apply Canon.ite | with_reducible apply ResOk.ite
                 | split | dsimp only | with_reducible apply Canon.mk | with_reducible apply CanonOf.of)

theorem execCoreMul32_canon {qs : Base} (cp : Fin 32) (w : Word) {s : State} (hs : s.Ok qs) : ResOk qs
    (execCoreMul32 cp w s) := by
  unfold execCoreMul32
  repeat' (first | with_reducible intro _ | with_reducible assumption | with_reducible apply ResOk.next
                 | with_reducible apply State.opA_canon | with_reducible apply Canon.ite | with_reducible apply ResOk.ite
                 | split | dsimp only | with_reducible apply Canon.mk | with_reducible apply CanonOf.of)

theorem execCoreDiv32_canon {qs : Base} (cp : Fin 32) (w : Word) {s : State} (hs : s.Ok qs) : ResOk qs
    (execCoreDiv32 cp w s) := by
  unfold execCoreDiv32
  repeat' (first | with_reducible intro _ | with_reducible assumption | with_reducible apply ResOk.next
                 | with_reducible apply State.opA_canon | with_reducible apply Canon.ite | with_reducible apply ResOk.ite
                 | split | dsimp only | with_reducible apply Canon.mk | with_reducible apply CanonOf.of)

theorem execCoreDivu32_canon {qs : Base} (cp : Fin 32) (w : Word) {s : State} (hs : s.Ok qs) : ResOk qs
    (execCoreDivu32 cp w s) := by
  unfold execCoreDivu32
  repeat' (first | with_reducible intro _ | with_reducible assumption | with_reducible apply ResOk.next
                 | with_reducible apply State.opA_canon | with_reducible apply Canon.ite | with_reducible apply ResOk.ite
                 | split | dsimp only | with_reducible apply Canon.mk | with_reducible apply CanonOf.of)

theorem execCoreMod32_canon {qs : Base} (cp : Fin 32) (w : Word) {s : State} (hs : s.Ok qs) : ResOk qs
    (execCoreMod32 cp w s) := by
  unfold execCoreMod32
  repeat' (first | with_reducible intro _ | with_reducible assumption | with_reducible apply ResOk.next
                 | with_reducible apply State.opA_canon | with_reducible apply Canon.ite | with_reducible apply ResOk.ite
                 | split | dsimp only | with_reducible apply Canon.mk | with_reducible apply CanonOf.of)

theorem execCoreModu32_canon {qs : Base} (cp : Fin 32) (w : Word) {s : State} (hs : s.Ok qs) : ResOk qs
    (execCoreModu32 cp w s) := by
  unfold execCoreModu32
  repeat' (first | with_reducible intro _ | with_reducible assumption | with_reducible apply ResOk.next
                 | with_reducible apply State.opA_canon | with_reducible apply Canon.ite | with_reducible apply ResOk.ite
                 | split | dsimp only | with_reducible apply Canon.mk | with_reducible apply CanonOf.of)

theorem execCoreAddk_canon {qs : Base} (cp : Fin 32) (w : Word) {s : State} (hs : s.Ok qs) : ResOk qs
    (execCoreAddk cp w s) := by
  unfold execCoreAddk
  repeat' (first | with_reducible intro _ | with_reducible assumption | with_reducible apply ResOk.next
                 | with_reducible apply State.opI_canon | with_reducible apply Canon.ite | with_reducible apply ResOk.ite
                 | split | dsimp only | with_reducible apply Canon.mk | with_reducible apply CanonOf.of)

theorem execCoreAndk_canon {qs : Base} (cp : Fin 32) (w : Word) {s : State} (hs : s.Ok qs) : ResOk qs
    (execCoreAndk cp w s) := by
  unfold execCoreAndk
  repeat' (first | with_reducible intro _ | with_reducible assumption | with_reducible apply ResOk.next
                 | with_reducible apply State.opI_canon | with_reducible apply Canon.ite | with_reducible apply ResOk.ite
                 | split | dsimp only | with_reducible apply Canon.mk | with_reducible apply CanonOf.of)

theorem execCoreIork_canon {qs : Base} (cp : Fin 32) (w : Word) {s : State} (hs : s.Ok qs) : ResOk qs
    (execCoreIork cp w s) := by
  unfold execCoreIork
  repeat' (first | with_reducible intro _ | with_reducible assumption | with_reducible apply ResOk.next
                 | with_reducible apply State.opI_canon | with_reducible apply Canon.ite | with_reducible apply ResOk.ite
                 | split | dsimp only | with_reducible apply Canon.mk | with_reducible apply CanonOf.of)

theorem execCoreXork_canon {qs : Base} (cp : Fin 32) (w : Word) {s : State} (hs : s.Ok qs) : ResOk qs
    (execCoreXork cp w s) := by
  unfold execCoreXork
  repeat' (first | with_reducible intro _ | with_reducible assumption | with_reducible apply ResOk.next
                 | with_reducible apply State.opI_canon | with_reducible apply Canon.ite | with_reducible apply ResOk.ite
                 | split | dsimp only | with_reducible apply Canon.mk | with_reducible apply CanonOf.of)

theorem execCoreLessk_canon {qs : Base} (cp : Fin 32) (w : Word) {s : State} (hs : s.Ok qs) : ResOk qs
    (execCoreLessk cp w s) := by
  unfold execCoreLessk
  repeat' (first | with_reducible intro _ | with_reducible assumption | with_reducible apply ResOk.next
                 | with_reducible apply State.opI_canon | with_reducible apply Canon.ite | with_reducible apply ResOk.ite
                 | split | dsimp only | with_reducible apply Canon.mk | with_reducible apply CanonOf.of)

theorem execCoreLessuk_canon {qs : Base} (cp : Fin 32) (w : Word) {s : State} (hs : s.Ok qs) : ResOk qs
    (execCoreLessuk cp w s) := by
  unfold execCoreLessuk
  repeat' (first | with_reducible intro _ | with_reducible assumption | with_reducible apply ResOk.next
                 | with_reducible apply State.opI_canon | with_reducible apply Canon.ite | with_reducible apply ResOk.ite
                 | split | dsimp only | with_reducible apply Canon.mk | with_reducible apply CanonOf.of)

theorem execCoreAdd32k_canon {qs : Base} (cp : Fin 32) (w : Word) {s : State} (hs : s.Ok qs) : ResOk qs
    (execCoreAdd32k cp w s) := by
  unfold execCoreAdd32k
  repeat' (first | with_reducible intro _ | with_reducible assumption | with_reducible apply ResOk.next
                 | with_reducible apply State.opI_canon | with_reducible apply Canon.ite | with_reducible apply ResOk.ite
                 | split | dsimp only | with_reducible apply Canon.mk | with_reducible apply CanonOf.of)

theorem execCoreShiftk_canon {qs : Base} (cp : Fin 32) (w : Word) {s : State} (hs : s.Ok qs) : ResOk qs
    (execCoreShiftk cp w s) := by
  unfold execCoreShiftk
  with_reducible apply ResOk.next
  repeat' (first | with_reducible intro _ | with_reducible assumption | with_reducible apply State.illegal_canon
                 | with_reducible apply State.insn_canon | with_reducible apply State.put1_canon
                 | with_reducible apply Canon.ite | split | dsimp only | with_reducible apply Canon.mk
                 | with_reducible apply CanonOf.of)

theorem execCoreMkhi_canon {qs : Base} (cp : Fin 32) (w : Word) {s : State} (hs : s.Ok qs) : ResOk qs
    (execCoreMkhi cp w s) := by
  unfold execCoreMkhi
  repeat' (first | with_reducible intro _ | with_reducible assumption | with_reducible apply ResOk.next
                 | with_reducible apply State.insn_canon | with_reducible apply State.put1_canon
                 | with_reducible apply Canon.ite | with_reducible apply ResOk.ite | split | dsimp only
                 | with_reducible apply Canon.mk | with_reducible apply CanonOf.of)

theorem execCorePchi_canon {qs : Base} (cp : Fin 32) (w : Word) {s : State} (hs : s.Ok qs) : ResOk qs
    (execCorePchi cp w s) := by
  unfold execCorePchi
  repeat' (first | with_reducible intro _ | with_reducible assumption | with_reducible apply ResOk.next
                 | with_reducible apply State.insn_canon | with_reducible apply State.put1_canon
                 | with_reducible apply Canon.ite | with_reducible apply ResOk.ite | split | dsimp only
                 | with_reducible apply Canon.mk | with_reducible apply CanonOf.of)

end Sys2Proof.Machine
end

