-- ==== Sys2Proof/Laws/CanonCoreMem.lean ====
section
/-! SUPPORT. The canonical form is kept by the definitions of Machine/CoreMem.lean. -/
namespace Sys2Proof.Machine

theorem State.loadEnd_canon {qs : Base} {s : State} (c : Nat) (f : State → Nat → State) (r : MemRes)
    (hf : ∀ (a0 : State) (a1 : Nat), a0.Ok qs → (f a0 a1).Ok qs) (hs : s.Ok qs) : (State.loadEnd s c f r).Ok qs := by
  cases r with
  | val v => exact State.retire_canon c (hf s v hs)
  | fault code tval => exact State.trapAt_canon c code tval hs

theorem State.loadInto_canon {qs : Base} {s : State} (c a size : Nat) (f : State → Nat → State)
    (hf : ∀ (a0 : State) (a1 : Nat), a0.Ok qs → (f a0 a1).Ok qs) (hs : s.Ok qs) : (State.loadInto s c a size f).Ok qs := by
  unfold State.loadInto
  exact State.loadEnd_canon c f _ hf (State.load_canon _ _ _ _ _ hs)

theorem State.loadX_canon {qs : Base} {s : State} (c : Nat) (w : Word) (e : Enc) (size : Nat) (ext : Nat → DWord)
    (hs : s.Ok qs) : (State.loadX s c w e size ext).Ok qs := by
  unfold State.loadX
  repeat' (first | with_reducible intro _ | with_reducible assumption | with_reducible apply State.setX_canon
                 | with_reducible apply State.insn_canon | with_reducible apply State.loadInto_canon
                 | with_reducible apply Canon.ite | split | dsimp only | with_reducible apply Canon.mk
                 | with_reducible apply CanonOf.of)

theorem State.loadF_canon {qs : Base} {s : State} (c : Nat) (w : Word) (e : Enc) (size : Nat) (hs : s.Ok qs) :
    (State.loadF s c w e size).Ok qs := by
  unfold State.loadF
  repeat' (first | with_reducible intro _ | with_reducible assumption | with_reducible apply State.setF_canon
                 | with_reducible apply State.insn_canon | with_reducible apply State.loadInto_canon
                 | with_reducible apply Canon.ite | split | dsimp only | with_reducible apply Canon.mk
                 | with_reducible apply CanonOf.of)

theorem State.storeEnd_canon {qs : Base} {s : State} (c : Nat) (r : Option (Nat × DWord)) (hs : s.Ok qs) :
    (State.storeEnd s c r).Ok qs := by
  cases r with
  | none => exact State.retire_canon c hs
  | some f => exact State.trapAt_canon c f.1 f.2 hs

theorem State.storeX_canon {qs : Base} {s : State} (c : Nat) (w : Word) (e : Enc) (size : Nat) (v : State → Nat)
    (hs : s.Ok qs) :
    (State.storeX s c w e size v).Ok qs := by
  unfold State.storeX
  exact State.insn_canon _ _ _ _ (fun _ h => Canon.ite hs (State.storeEnd_canon c _ (State.store_canon _ _ _ _ _ _ h))) hs

theorem execCoreLd8s_canon {qs : Base} (cp : Fin 32) (w : Word) {s : State} (hs : s.Ok qs) : ResOk qs
    (execCoreLd8s cp w s) := by
  unfold execCoreLd8s
  repeat' (first | with_reducible intro _ | with_reducible assumption | with_reducible apply ResOk.next
                 | with_reducible apply State.loadX_canon | with_reducible apply Canon.ite
                 | with_reducible apply ResOk.ite | split | dsimp only | with_reducible apply Canon.mk
                 | with_reducible apply CanonOf.of)

theorem execCoreLd8u_canon {qs : Base} (cp : Fin 32) (w : Word) {s : State} (hs : s.Ok qs) : ResOk qs
    (execCoreLd8u cp w s) := by
  unfold execCoreLd8u
  repeat' (first | with_reducible intro _ | with_reducible assumption | with_reducible apply ResOk.next
                 | with_reducible apply State.loadX_canon | with_reducible apply Canon.ite
                 | with_reducible apply ResOk.ite | split | dsimp only | with_reducible apply Canon.mk
                 | with_reducible apply CanonOf.of)

theorem execCoreLd16s_canon {qs : Base} (cp : Fin 32) (w : Word) {s : State} (hs : s.Ok qs) : ResOk qs
    (execCoreLd16s cp w s) := by
  unfold execCoreLd16s
  repeat' (first | with_reducible intro _ | with_reducible assumption | with_reducible apply ResOk.next
                 | with_reducible apply State.loadX_canon | with_reducible apply Canon.ite
                 | with_reducible apply ResOk.ite | split | dsimp only | with_reducible apply Canon.mk
                 | with_reducible apply CanonOf.of)

theorem execCoreLd16u_canon {qs : Base} (cp : Fin 32) (w : Word) {s : State} (hs : s.Ok qs) : ResOk qs
    (execCoreLd16u cp w s) := by
  unfold execCoreLd16u
  repeat' (first | with_reducible intro _ | with_reducible assumption | with_reducible apply ResOk.next
                 | with_reducible apply State.loadX_canon | with_reducible apply Canon.ite
                 | with_reducible apply ResOk.ite | split | dsimp only | with_reducible apply Canon.mk
                 | with_reducible apply CanonOf.of)

theorem execCoreLd32s_canon {qs : Base} (cp : Fin 32) (w : Word) {s : State} (hs : s.Ok qs) : ResOk qs
    (execCoreLd32s cp w s) := by
  unfold execCoreLd32s
  repeat' (first | with_reducible intro _ | with_reducible assumption | with_reducible apply ResOk.next
                 | with_reducible apply State.loadX_canon | with_reducible apply Canon.ite
                 | with_reducible apply ResOk.ite | split | dsimp only | with_reducible apply Canon.mk
                 | with_reducible apply CanonOf.of)

theorem execCoreLd32u_canon {qs : Base} (cp : Fin 32) (w : Word) {s : State} (hs : s.Ok qs) : ResOk qs
    (execCoreLd32u cp w s) := by
  unfold execCoreLd32u
  repeat' (first | with_reducible intro _ | with_reducible assumption | with_reducible apply ResOk.next
                 | with_reducible apply State.loadX_canon | with_reducible apply Canon.ite
                 | with_reducible apply ResOk.ite | split | dsimp only | with_reducible apply Canon.mk
                 | with_reducible apply CanonOf.of)

theorem execCoreLd64_canon {qs : Base} (cp : Fin 32) (w : Word) {s : State} (hs : s.Ok qs) : ResOk qs
    (execCoreLd64 cp w s) := by
  unfold execCoreLd64
  repeat' (first | with_reducible intro _ | with_reducible assumption | with_reducible apply ResOk.next
                 | with_reducible apply State.loadX_canon | with_reducible apply Canon.ite
                 | with_reducible apply ResOk.ite | split | dsimp only | with_reducible apply Canon.mk
                 | with_reducible apply CanonOf.of)

theorem execCoreLdpc_canon {qs : Base} (cp : Fin 32) (w : Word) {s : State} (hs : s.Ok qs) : ResOk qs
    (execCoreLdpc cp w s) := by
  unfold execCoreLdpc
  repeat' (first | with_reducible intro _ | with_reducible assumption | with_reducible apply ResOk.next
                 | with_reducible apply State.setX_canon | with_reducible apply State.insn_canon
                 | with_reducible apply State.loadInto_canon | with_reducible apply Canon.ite
                 | with_reducible apply ResOk.ite | split | dsimp only | with_reducible apply Canon.mk
                 | with_reducible apply CanonOf.of)

theorem execCoreSt8_canon {qs : Base} (cp : Fin 32) (w : Word) {s : State} (hs : s.Ok qs) : ResOk qs
    (execCoreSt8 cp w s) := by
  unfold execCoreSt8
  repeat' (first | with_reducible intro _ | with_reducible assumption | with_reducible apply ResOk.next
                 | with_reducible apply State.storeX_canon | with_reducible apply Canon.ite
                 | with_reducible apply ResOk.ite | split | dsimp only | with_reducible apply Canon.mk
                 | with_reducible apply CanonOf.of)

theorem execCoreSt16_canon {qs : Base} (cp : Fin 32) (w : Word) {s : State} (hs : s.Ok qs) : ResOk qs
    (execCoreSt16 cp w s) := by
  unfold execCoreSt16
  repeat' (first | with_reducible intro _ | with_reducible assumption | with_reducible apply ResOk.next
                 | with_reducible apply State.storeX_canon | with_reducible apply Canon.ite
                 | with_reducible apply ResOk.ite | split | dsimp only | with_reducible apply Canon.mk
                 | with_reducible apply CanonOf.of)

theorem execCoreSt32_canon {qs : Base} (cp : Fin 32) (w : Word) {s : State} (hs : s.Ok qs) : ResOk qs
    (execCoreSt32 cp w s) := by
  unfold execCoreSt32
  repeat' (first | with_reducible intro _ | with_reducible assumption | with_reducible apply ResOk.next
                 | with_reducible apply State.storeX_canon | with_reducible apply Canon.ite
                 | with_reducible apply ResOk.ite | split | dsimp only | with_reducible apply Canon.mk
                 | with_reducible apply CanonOf.of)

theorem execCoreSt64_canon {qs : Base} (cp : Fin 32) (w : Word) {s : State} (hs : s.Ok qs) : ResOk qs
    (execCoreSt64 cp w s) := by
  unfold execCoreSt64
  repeat' (first | with_reducible intro _ | with_reducible assumption | with_reducible apply ResOk.next
                 | with_reducible apply State.storeX_canon | with_reducible apply Canon.ite
                 | with_reducible apply ResOk.ite | split | dsimp only | with_reducible apply Canon.mk
                 | with_reducible apply CanonOf.of)

theorem execCoreFld32_canon {qs : Base} (cp : Fin 32) (w : Word) {s : State} (hs : s.Ok qs) : ResOk qs
    (execCoreFld32 cp w s) := by
  unfold execCoreFld32
  repeat' (first | with_reducible intro _ | with_reducible assumption | with_reducible apply ResOk.next
                 | with_reducible apply State.loadF_canon | with_reducible apply Canon.ite
                 | with_reducible apply ResOk.ite | split | dsimp only | with_reducible apply Canon.mk
                 | with_reducible apply CanonOf.of)

theorem execCoreFld64_canon {qs : Base} (cp : Fin 32) (w : Word) {s : State} (hs : s.Ok qs) : ResOk qs
    (execCoreFld64 cp w s) := by
  unfold execCoreFld64
  repeat' (first | with_reducible intro _ | with_reducible assumption | with_reducible apply ResOk.next
                 | with_reducible apply State.loadF_canon | with_reducible apply Canon.ite
                 | with_reducible apply ResOk.ite | split | dsimp only | with_reducible apply Canon.mk
                 | with_reducible apply CanonOf.of)

theorem execCoreFst32_canon {qs : Base} (cp : Fin 32) (w : Word) {s : State} (hs : s.Ok qs) : ResOk qs
    (execCoreFst32 cp w s) := by
  unfold execCoreFst32
  repeat' (first | with_reducible intro _ | with_reducible assumption | with_reducible apply ResOk.next
                 | with_reducible apply State.storeX_canon | with_reducible apply Canon.ite
                 | with_reducible apply ResOk.ite | split | dsimp only | with_reducible apply Canon.mk
                 | with_reducible apply CanonOf.of)

theorem execCoreFst64_canon {qs : Base} (cp : Fin 32) (w : Word) {s : State} (hs : s.Ok qs) : ResOk qs
    (execCoreFst64 cp w s) := by
  unfold execCoreFst64
  repeat' (first | with_reducible intro _ | with_reducible assumption | with_reducible apply ResOk.next
                 | with_reducible apply State.storeX_canon | with_reducible apply Canon.ite
                 | with_reducible apply ResOk.ite | split | dsimp only | with_reducible apply Canon.mk
                 | with_reducible apply CanonOf.of)

end Sys2Proof.Machine
end

