-- ==== Sys2Proof/Laws/CanonCoreSys.lean ====
section
/-! SUPPORT. The canonical form is kept by the definitions of Machine/CoreSys.lean. -/
namespace Sys2Proof.Machine

theorem execCoreSysrd_canon {qs : Base} (cp : Fin 32) (w : Word) {s : State} (hs : s.Ok qs) : ResOk qs
    (execCoreSysrd cp w s) := by
  unfold execCoreSysrd
  with_reducible apply ResOk.next
  repeat' (first | with_reducible intro _ | with_reducible assumption | with_reducible apply State.take_canon
                 | with_reducible apply State.illegal_canon | with_reducible apply State.insn_canon
                 | with_reducible apply State.put1_canon | with_reducible apply Canon.ite | split | dsimp only
                 | with_reducible apply Canon.mk | with_reducible apply CanonOf.of)

theorem State.sysWrite_canon {qs : Base} {s : State} (c : Nat) (w : Word) (e : Enc) (old : Bool)
    (f : DWord → DWord → DWord) (hs : s.Ok qs) : (State.sysWrite s c w e old f).Ok qs := by
  unfold State.sysWrite
  repeat' (first | with_reducible intro _ | with_reducible assumption | with_reducible apply State.co_canon
                 | with_reducible apply State.retire_canon | with_reducible apply State.illegal_canon
                 | with_reducible apply State.insn_canon | with_reducible apply State.put1_canon
                 | with_reducible apply Canon.ite | split | dsimp only | with_reducible apply Canon.mk
                 | with_reducible apply CanonOf.of)

theorem execCoreSyswr_canon {qs : Base} (cp : Fin 32) (w : Word) {s : State} (hs : s.Ok qs) : ResOk qs
    (execCoreSyswr cp w s) := by
  unfold execCoreSyswr
  repeat' (first | with_reducible intro _ | with_reducible assumption | with_reducible apply ResOk.next
                 | with_reducible apply State.sysWrite_canon | with_reducible apply Canon.ite
                 | with_reducible apply ResOk.ite | split | dsimp only | with_reducible apply Canon.mk
                 | with_reducible apply CanonOf.of)

theorem execCoreSysset_canon {qs : Base} (cp : Fin 32) (w : Word) {s : State} (hs : s.Ok qs) : ResOk qs
    (execCoreSysset cp w s) := by
  unfold execCoreSysset
  repeat' (first | with_reducible intro _ | with_reducible assumption | with_reducible apply ResOk.next
                 | with_reducible apply State.sysWrite_canon | with_reducible apply Canon.ite
                 | with_reducible apply ResOk.ite | split | dsimp only | with_reducible apply Canon.mk
                 | with_reducible apply CanonOf.of)

theorem execCoreSysclr_canon {qs : Base} (cp : Fin 32) (w : Word) {s : State} (hs : s.Ok qs) : ResOk qs
    (execCoreSysclr cp w s) := by
  unfold execCoreSysclr
  repeat' (first | with_reducible intro _ | with_reducible assumption | with_reducible apply ResOk.next
                 | with_reducible apply State.sysWrite_canon | with_reducible apply Canon.ite
                 | with_reducible apply ResOk.ite | split | dsimp only | with_reducible apply Canon.mk
                 | with_reducible apply CanonOf.of)

theorem State.completeAct_canon {qs : Base} {s : State} (c idx ns : Nat) (hs : s.Ok qs) :
    (State.completeAct s c idx ns).Ok qs := by
  unfold State.completeAct
  repeat' (first | with_reducible intro _ | with_reducible assumption | with_reducible apply State.wrN_canon
                 | with_reducible apply State.memZero_canon | with_reducible apply State.pa_canon
                 | with_reducible apply State.setPst_canon | with_reducible apply State.coreDrop_canon
                 | with_reducible apply State.each_canon | with_reducible apply Canon.ite | split | dsimp only
                 | with_reducible apply Canon.mk | with_reducible apply CanonOf.of)

theorem State.trapNext_canon {qs : Base} {s : State} (c code num : Nat) (hs : s.Ok qs) :
    (State.trapNext s c code num).Ok qs := by
  unfold State.trapNext
  extract_lets +onlyGivenNames -underBinder npc
  try clear_value npc
  repeat' (first | with_reducible intro _ | with_reducible assumption | with_reducible apply State.co_canon
                 | with_reducible apply State.trapFree_canon | with_reducible apply Canon.ite | split | dsimp only
                 | with_reducible apply Canon.mk | with_reducible apply CanonOf.of)

theorem execCoreSyscall_canon {qs : Base} (cp : Fin 32) (w : Word) (idx ns : Nat) {s : State} (hs : s.Ok qs) : ResOk qs
    (execCoreSyscall cp w idx ns s) := by
  unfold execCoreSyscall
  with_reducible apply ResOk.next
  repeat' (first | with_reducible intro _ | with_reducible assumption | with_reducible apply State.co_canon
                 | with_reducible apply State.flush_canon | with_reducible apply State.insn_canon
                 | with_reducible apply State.completeAct_canon | with_reducible apply State.trapNext_canon
                 | with_reducible apply Canon.ite | split | dsimp only | with_reducible apply Canon.mk
                 | with_reducible apply CanonOf.of)

theorem execCoreBreak_canon {qs : Base} (cp : Fin 32) (w : Word) {s : State} (hs : s.Ok qs) : ResOk qs
    (execCoreBreak cp w s) := by
  unfold execCoreBreak
  repeat' (first | with_reducible intro _ | with_reducible assumption | with_reducible apply ResOk.next
                 | with_reducible apply State.insn_canon | with_reducible apply State.trapNext_canon
                 | with_reducible apply Canon.ite | with_reducible apply ResOk.ite | split | dsimp only
                 | with_reducible apply Canon.mk | with_reducible apply CanonOf.of)

theorem execCoreTrap_canon {qs : Base} (cp : Fin 32) (w : Word) {s : State} (hs : s.Ok qs) : ResOk qs
    (execCoreTrap cp w s) := by
  unfold execCoreTrap
  repeat' (first | with_reducible intro _ | with_reducible assumption | with_reducible apply ResOk.next
                 | with_reducible apply State.insn_canon | with_reducible apply State.trapNext_canon
                 | with_reducible apply Canon.ite | with_reducible apply ResOk.ite | split | dsimp only
                 | with_reducible apply Canon.mk | with_reducible apply CanonOf.of)

theorem State.startAct_canon {qs : Base} {s : State} (c p : Nat) (hs : s.Ok qs) : (State.startAct s c p).Ok qs := by
  unfold State.startAct
  extract_lets +onlyGivenNames -underBinder r
  try clear_value r
  repeat' (first | with_reducible intro _ | with_reducible assumption | with_reducible apply State.pa_canon
                 | with_reducible apply State.co_canon | with_reducible apply Canon.foldl
                 | with_reducible apply Canon.foldl1 | with_reducible apply Canon.ite | split | dsimp only
                 | with_reducible apply Canon.mk | with_reducible apply CanonOf.of)

theorem State.resumeDeep_canon {qs : Base} {s : State} (c : Nat) (hs : s.Ok qs) : (State.resumeDeep s c).Ok qs := by
  unfold State.resumeDeep
  repeat' (first | with_reducible intro _ | with_reducible assumption | with_reducible apply State.pa_canon
                 | with_reducible apply State.co_canon | with_reducible apply Canon.ite | split | dsimp only
                 | with_reducible apply Canon.mk | with_reducible apply CanonOf.of)

theorem State.tretInto_canon {qs : Base} {s : State} (c : Nat) (hs : s.Ok qs) : (State.tretInto s c).Ok qs := by
  unfold State.tretInto
  extract_lets +onlyGivenNames -underBinder k
  try clear_value k
  repeat' (first | with_reducible intro _ | with_reducible assumption | with_reducible apply State.startAct_canon
                 | with_reducible apply State.resumeDeep_canon | with_reducible apply Canon.ite | split | dsimp only
                 | with_reducible apply Canon.mk | with_reducible apply CanonOf.of)

theorem execCoreTret_canon {qs : Base} (cp : Fin 32) (w : Word) {s : State} (hs : s.Ok qs) : ResOk qs
    (execCoreTret cp w s) := by
  unfold execCoreTret
  with_reducible apply ResOk.next
  repeat' (first | with_reducible intro _ | with_reducible assumption | with_reducible apply State.take_canon
                 | with_reducible apply State.co_canon | with_reducible apply State.flush_canon
                 | with_reducible apply State.signBranch_canon | with_reducible apply State.doubleFault_canon
                 | with_reducible apply State.illegal_canon | with_reducible apply State.insnPriv_canon
                 | with_reducible apply State.tretInto_canon | with_reducible apply Canon.ite | split | dsimp only
                 | with_reducible apply Canon.mk | with_reducible apply CanonOf.of)

theorem State.ranNow_canon {qs : Base} {s : State} (o : Option Nat) (hs : s.Ok qs) : (State.ranNow s o).Ok qs := by
  unfold State.ranNow
  repeat' (first | with_reducible intro _ | with_reducible assumption | with_reducible apply State.pa_canon
                 | with_reducible apply Canon.ite | split | dsimp only | with_reducible apply Canon.mk
                 | with_reducible apply CanonOf.of)

theorem State.switchCtx_canon {qs : Base} {s : State} (c : Nat) (hs : s.Ok qs) : (State.switchCtx s c).Ok qs := by
  unfold State.switchCtx
  extract_lets +onlyGivenNames -underBinder b s1
  try clear_value b
  have hs1 : s1.Ok qs := by
    unfold s1
    repeat' (first | with_reducible intro _ | with_reducible assumption | with_reducible apply State.putB_canon
                   | with_reducible apply State.co_canon | with_reducible apply State.swap_canon
                   | with_reducible apply State.ranNow_canon | with_reducible apply Canon.ite | split | dsimp only
                   | with_reducible apply Canon.mk | with_reducible apply CanonOf.of)
  clear_value s1
  repeat' (first | with_reducible intro _ | with_reducible assumption | with_reducible apply State.putB_canon
                 | with_reducible apply State.retire_canon | with_reducible apply Canon.ite | split | dsimp only
                 | with_reducible apply Canon.mk | with_reducible apply CanonOf.of)

theorem execCoreSwctx_canon {qs : Base} (cp : Fin 32) (w : Word) {s : State} (hs : s.Ok qs) : ResOk qs
    (execCoreSwctx cp w s) := by
  unfold execCoreSwctx
  with_reducible apply ResOk.next
  repeat' (first | with_reducible intro _ | with_reducible assumption | with_reducible apply State.flush_canon
                 | with_reducible apply State.doubleFault_canon | with_reducible apply State.insnPriv_canon
                 | with_reducible apply State.switchCtx_canon | with_reducible apply Canon.ite | split | dsimp only
                 | with_reducible apply Canon.mk | with_reducible apply CanonOf.of)

theorem State.spillGo_canon {qs : Base} {s : State} (c a : Nat) (l : List Nat) (hs : s.Ok qs) :
    (State.spillGo s c a l).1.Ok qs := by
  induction l generalizing s a with
  | nil => exact hs
  | cons k t ih =>
    have h := State.store_canon c 0 a 8 (tget 0 (s.core c).win k).toNat true hs
    unfold State.spillGo
    exact Canon.ite1 (ih _ h) h

theorem State.fillGo_canon {qs : Base} {s : State} (c a : Nat) (l : List Nat) (hs : s.Ok qs) :
    (State.fillGo s c a l).1.Ok qs := by
  induction l generalizing s a with
  | nil => exact hs
  | cons k t ih =>
    have h := State.load_canon c 0 a 8 true hs
    unfold State.fillGo
    generalize State.load s c 0 a 8 true = q at h
    dsimp only
    split
    · exact ih _ h
    · exact h

theorem State.spillFrame_canon {qs : Base} {s : State} (c a : Nat) (hs : s.Ok qs) : (State.spillFrame s c a).Ok qs := by
  unfold State.spillFrame
  extract_lets +onlyGivenNames -underBinder k r
  try clear_value k
  have hr : r.1.Ok qs := by
    unfold r
    repeat' (first | with_reducible intro _ | with_reducible assumption | with_reducible apply State.spillGo_canon
                   | with_reducible apply Canon.ite | with_reducible apply Canon.ite1 | split | dsimp only
                   | with_reducible apply Canon.mk | with_reducible apply CanonOf.of)
  clear_value r
  repeat' (first | with_reducible intro _ | with_reducible assumption | with_reducible apply State.co_canon
                 | with_reducible apply State.retire_canon | with_reducible apply State.trapAt_canon
                 | with_reducible apply Canon.ite | with_reducible apply Canon.ite1 | split | dsimp only
                 | with_reducible apply Canon.mk | with_reducible apply CanonOf.of)

theorem State.fillFrame_canon {qs : Base} {s : State} (c : Nat) (hs : s.Ok qs) : (State.fillFrame s c).Ok qs := by
  unfold State.fillFrame
  extract_lets +onlyGivenNames -underBinder k long r
  try clear_value k
  try clear_value long
  have hr : r.1.Ok qs := by
    unfold r
    repeat' (first | with_reducible intro _ | with_reducible assumption | with_reducible apply State.fillGo_canon
                   | with_reducible apply Canon.ite | with_reducible apply Canon.ite1 | split | dsimp only
                   | with_reducible apply Canon.mk | with_reducible apply CanonOf.of)
  clear_value r
  repeat' (first | with_reducible intro _ | with_reducible assumption | with_reducible apply State.co_canon
                 | with_reducible apply State.retire_canon | with_reducible apply State.trapAt_canon
                 | with_reducible apply Canon.foldl | with_reducible apply Canon.foldl1 | with_reducible apply Canon.ite
                 | with_reducible apply Canon.ite1 | split | dsimp only | with_reducible apply Canon.mk
                 | with_reducible apply CanonOf.of)

theorem execCoreWspill_canon {qs : Base} (cp : Fin 32) (w : Word) {s : State} (hs : s.Ok qs) : ResOk qs
    (execCoreWspill cp w s) := by
  unfold execCoreWspill
  refine ResOk.next (State.insnPriv_canon _ _ _ _ (fun t h => ?_) hs)
  dsimp only
  refine Canon.ite (State.illegal_canon _ _ h) (Canon.ite (State.trapAt_canon _ _ _ h) ?_)
  refine Canon.ite (State.trapAt_canon _ _ _ (State.deny_canon _ _ _ _ _ _ _ _ h)) ?_
  exact Canon.ite hs (State.spillFrame_canon _ _ h)

theorem execCoreWfill_canon {qs : Base} (cp : Fin 32) (w : Word) {s : State} (hs : s.Ok qs) : ResOk qs
    (execCoreWfill cp w s) := by
  unfold execCoreWfill
  repeat' (first | with_reducible intro _ | with_reducible assumption | with_reducible apply ResOk.next
                 | with_reducible apply State.illegal_canon | with_reducible apply State.insnPriv_canon
                 | with_reducible apply State.fillFrame_canon | with_reducible apply Canon.ite
                 | with_reducible apply ResOk.ite | split | dsimp only | with_reducible apply Canon.mk
                 | with_reducible apply CanonOf.of)

theorem execCoreWait_canon {qs : Base} (cp : Fin 32) (w : Word) {s : State} (hs : s.Ok qs) : ResOk qs
    (execCoreWait cp w s) := by
  unfold execCoreWait
  repeat' (first | with_reducible intro _ | with_reducible assumption | with_reducible apply ResOk.next
                 | with_reducible apply State.retire_canon | with_reducible apply State.insnPriv_canon
                 | with_reducible apply Canon.ite | with_reducible apply ResOk.ite | split | dsimp only
                 | with_reducible apply Canon.mk | with_reducible apply CanonOf.of)

theorem execCoreFence_canon {qs : Base} (cp : Fin 32) (w : Word) {s : State} (hs : s.Ok qs) : ResOk qs
    (execCoreFence cp w s) := by
  unfold execCoreFence
  repeat' (first | with_reducible intro _ | with_reducible assumption | with_reducible apply ResOk.next
                 | with_reducible apply State.flush_canon | with_reducible apply State.retire_canon
                 | with_reducible apply State.insn_canon | with_reducible apply Canon.ite
                 | with_reducible apply ResOk.ite | split | dsimp only | with_reducible apply Canon.mk
                 | with_reducible apply CanonOf.of)

theorem execCoreCflush_canon {qs : Base} (cp : Fin 32) (w : Word) {s : State} (hs : s.Ok qs) : ResOk qs
    (execCoreCflush cp w s) := by
  unfold execCoreCflush
  repeat' (first | with_reducible intro _ | with_reducible assumption | with_reducible apply ResOk.next
                 | with_reducible apply State.retire_canon | with_reducible apply State.insnPriv_canon
                 | with_reducible apply Canon.ite | with_reducible apply ResOk.ite | split | dsimp only
                 | with_reducible apply Canon.mk | with_reducible apply CanonOf.of)

theorem execCoreXrd_canon {qs : Base} (cp : Fin 32) (w : Word) {s : State} (hs : s.Ok qs) : ResOk qs
    (execCoreXrd cp w s) := by
  unfold execCoreXrd
  with_reducible apply ResOk.next
  repeat' (first | with_reducible intro _ | with_reducible assumption | with_reducible apply State.insnPriv_canon
                 | with_reducible apply State.put1_canon | with_reducible apply Canon.ite | split | dsimp only
                 | with_reducible apply Canon.mk | with_reducible apply CanonOf.of)

theorem execCoreXwr_canon {qs : Base} (cp : Fin 32) (w : Word) {s : State} (hs : s.Ok qs) : ResOk qs
    (execCoreXwr cp w s) := by
  unfold execCoreXwr
  with_reducible apply ResOk.next
  repeat' (first | with_reducible intro _ | with_reducible assumption | with_reducible apply State.co_canon
                 | with_reducible apply State.retire_canon | with_reducible apply State.insnPriv_canon
                 | with_reducible apply Canon.ite | split | dsimp only | with_reducible apply Canon.mk
                 | with_reducible apply CanonOf.of)

theorem execInterruptEntry_canon {qs : Base} (cp : Fin 32) {s : State} (hs : s.Ok qs) : ResOk qs
    (execInterruptEntry cp s) := by
  unfold execInterruptEntry
  repeat' (first | with_reducible intro _ | with_reducible assumption | with_reducible apply ResOk.next
                 | with_reducible apply State.interrupt_canon | with_reducible apply Canon.ite
                 | with_reducible apply ResOk.ite | split | dsimp only | with_reducible apply Canon.mk
                 | with_reducible apply CanonOf.of)

theorem execTimecmpExpiry_canon {qs : Base} (cp : Fin 32) (t : Nat) {s : State} (hs : s.Ok qs) : ResOk qs
    (execTimecmpExpiry cp t s) := by
  unfold execTimecmpExpiry
  extract_lets +onlyGivenNames -underBinder s0
  have hs0 : s0.Ok qs := by
    unfold s0
    repeat' (first | with_reducible intro _ | with_reducible assumption | with_reducible apply State.at_canon
                   | with_reducible apply Canon.ite | split | dsimp only | with_reducible apply Canon.mk
                   | with_reducible apply CanonOf.of)
  clear_value s0
  repeat' (first | with_reducible intro _ | with_reducible assumption | with_reducible apply ResOk.next
                 | with_reducible apply State.ipendSet_canon | with_reducible apply Canon.ite
                 | with_reducible apply ResOk.ite | split | dsimp only | with_reducible apply Canon.mk
                 | with_reducible apply CanonOf.of)

theorem execTwinRecordArrival_canon {qs : Base} (cp : Fin 32) {s : State} (hs : s.Ok qs) : ResOk qs
    (execTwinRecordArrival cp s) := by
  unfold execTwinRecordArrival
  repeat' (first | with_reducible intro _ | with_reducible assumption | with_reducible apply ResOk.next
                 | with_reducible apply State.ipendSet_canon | with_reducible apply Canon.ite
                 | with_reducible apply ResOk.ite | split | dsimp only | with_reducible apply Canon.mk
                 | with_reducible apply CanonOf.of)

theorem execMgmtRequestPost_canon {qs : Base} (cp : Fin 32) {s : State} (hs : s.Ok qs) : ResOk qs
    (execMgmtRequestPost cp s) := by
  unfold execMgmtRequestPost
  repeat' (first | with_reducible intro _ | with_reducible assumption | with_reducible apply ResOk.next
                 | with_reducible apply State.ipendSet_canon | with_reducible apply Canon.ite
                 | with_reducible apply ResOk.ite | split | dsimp only | with_reducible apply Canon.mk
                 | with_reducible apply CanonOf.of)

theorem State.dropStores_canon {qs : Base} {s : State} (c : Nat) (hs : s.Ok qs) : (State.dropStores s c).Ok qs := by
  unfold State.dropStores
  repeat' (first | with_reducible intro _ | with_reducible assumption | with_reducible apply State.co_canon
                 | with_reducible apply Canon.ite | split | dsimp only | with_reducible apply Canon.mk
                 | with_reducible apply CanonOf.of)

theorem State.lsBit_canon {qs : Base} {s : State} (c i : Nat) (b : Bool) (hs : s.Ok qs) : (State.lsBit s c i b).Ok qs := by
  unfold State.lsBit
  repeat' (first | with_reducible intro _ | with_reducible assumption | with_reducible apply State.co_canon
                 | with_reducible apply Canon.ite | split | dsimp only | with_reducible apply Canon.mk
                 | with_reducible apply CanonOf.of)

theorem execSignatureWindowClose_canon {qs : Base} (cp : Fin 32) (primary dup : Bool) (t : Nat) {s : State}
    (hs : s.Ok qs) : ResOk qs (execSignatureWindowClose cp primary dup t s) := by
  unfold execSignatureWindowClose
  extract_lets +onlyGivenNames -underBinder c s0 d
  try clear_value c
  have hs0 : s0.Ok qs := by
    unfold s0
    repeat' (first | with_reducible intro _ | with_reducible assumption | with_reducible apply State.at_canon
                   | with_reducible apply Canon.ite | split | dsimp only | with_reducible apply Canon.mk
                   | with_reducible apply CanonOf.of)
  clear_value s0
  try clear_value d
  repeat' (first | with_reducible intro _ | with_reducible assumption | with_reducible apply ResOk.next
                 | with_reducible apply State.raise_canon | with_reducible apply State.coreFaulty_canon
                 | with_reducible apply State.flush_canon | with_reducible apply State.coreReset_canon
                 | with_reducible apply State.dropStores_canon | with_reducible apply State.lsBit_canon
                 | with_reducible apply Canon.ite | with_reducible apply ResOk.ite | split | dsimp only
                 | with_reducible apply Canon.mk | with_reducible apply CanonOf.of)

theorem execLockstepResetComplete_canon {qs : Base} (cp : Fin 32) {s : State} (hs : s.Ok qs) : ResOk qs
    (execLockstepResetComplete cp s) := by
  unfold execLockstepResetComplete
  extract_lets +onlyGivenNames -underBinder s0
  have hs0 : s0.Ok qs := by
    unfold s0
    repeat' (first | with_reducible intro _ | with_reducible assumption | with_reducible apply State.co_canon
                   | with_reducible apply Canon.ite | split | dsimp only | with_reducible apply Canon.mk
                   | with_reducible apply CanonOf.of)
  clear_value s0
  repeat' (first | with_reducible intro _ | with_reducible assumption | with_reducible apply ResOk.next
                 | with_reducible apply State.partRun_canon | with_reducible apply State.each_canon
                 | with_reducible apply Canon.ite | with_reducible apply ResOk.ite | split | dsimp only
                 | with_reducible apply Canon.mk | with_reducible apply CanonOf.of)

theorem State.storeError_canon {qs : Base} {s : State} (c a : Nat) (hs : s.Ok qs) : (State.storeError s c a).Ok qs := by
  unfold State.storeError
  repeat' (first | with_reducible intro _ | with_reducible assumption | with_reducible apply State.co_canon
                 | with_reducible apply Canon.ite | split | dsimp only | with_reducible apply Canon.mk
                 | with_reducible apply CanonOf.of)

theorem execStoreErrorResponse_canon {qs : Base} (cp : Fin 32) (a : DWord) {s : State} (hs : s.Ok qs) : ResOk qs
    (execStoreErrorResponse cp a s) := by
  unfold execStoreErrorResponse
  repeat' (first | with_reducible intro _ | with_reducible assumption | with_reducible apply ResOk.next
                 | with_reducible apply State.storeError_canon | with_reducible apply Canon.ite
                 | with_reducible apply ResOk.ite | split | dsimp only | with_reducible apply Canon.mk
                 | with_reducible apply CanonOf.of)

theorem execInjectionTest_canon {qs : Base} (cp : Fin 32) {s : State} (hs : s.Ok qs) : ResOk qs (execInjectionTest cp s) := by
  unfold execInjectionTest
  repeat' (first | with_reducible intro _ | with_reducible assumption | with_reducible apply ResOk.next
                 | with_reducible apply State.co_canon | with_reducible apply Canon.ite | with_reducible apply ResOk.ite
                 | split | dsimp only | with_reducible apply Canon.mk | with_reducible apply CanonOf.of)

theorem State.testFailed_canon {qs : Base} {s : State} (c : Nat) (l : List Nat) (hs : s.Ok qs) :
    (State.testFailed s c l).Ok qs := by
  unfold State.testFailed
  with_reducible apply Canon.ite
  · repeat' (first | with_reducible intro _ | with_reducible assumption | with_reducible apply Canon.ite | split
                   | dsimp only | with_reducible apply Canon.mk | with_reducible apply CanonOf.of)
  extract_lets +onlyGivenNames -underBinder s1
  have hs1 : s1.Ok qs := by
    unfold s1
    repeat' (first | with_reducible intro _ | with_reducible assumption | with_reducible apply State.raise_canon
                   | with_reducible apply State.each_canon | with_reducible apply Canon.ite | split | dsimp only
                   | with_reducible apply Canon.mk | with_reducible apply CanonOf.of)
  clear_value s1
  repeat' (first | with_reducible intro _ | with_reducible assumption | with_reducible apply State.put_canon
                 | with_reducible apply State.raise_canon | with_reducible apply State.coreFaulty_canon
                 | with_reducible apply State.bringUpFail_canon | with_reducible apply Canon.ite | split | dsimp only
                 | with_reducible apply Canon.mk | with_reducible apply CanonOf.of)

theorem execInjectionTestDone_canon {qs : Base} (cp : Fin 32) (primary : Bool) (dup : Option Bool) (t : Nat) {s : State}
    (hs : s.Ok qs) : ResOk qs (execInjectionTestDone cp primary dup t s) := by
  unfold execInjectionTestDone
  extract_lets +onlyGivenNames -underBinder c s0
  try clear_value c
  have hs0 : s0.Ok qs := by
    unfold s0
    repeat' (first | with_reducible intro _ | with_reducible assumption | with_reducible apply State.at_canon
                   | with_reducible apply Canon.ite | split | dsimp only | with_reducible apply Canon.mk
                   | with_reducible apply CanonOf.of)
  clear_value s0
  with_reducible apply ResOk.next
  with_reducible apply Canon.ite
  · repeat' (first | with_reducible intro _ | with_reducible assumption | with_reducible apply Canon.ite | split
                   | dsimp only | with_reducible apply Canon.mk | with_reducible apply CanonOf.of)
  extract_lets +onlyGivenNames -underBinder s1 s2
  have hs1 : s1.Ok qs := by
    unfold s1
    repeat' (first | with_reducible intro _ | with_reducible assumption | with_reducible apply State.co_canon
                   | with_reducible apply State.lsBit_canon | with_reducible apply Canon.ite | split | dsimp only
                   | with_reducible apply Canon.mk | with_reducible apply CanonOf.of)
  clear_value s1
  have hs2 : s2.Ok qs := by
    unfold s2
    repeat' (first | with_reducible intro _ | with_reducible assumption | with_reducible apply State.lsBit_canon
                   | with_reducible apply Canon.ite | split | dsimp only | with_reducible apply Canon.mk
                   | with_reducible apply CanonOf.of)
  clear_value s2
  repeat' (first | with_reducible intro _ | with_reducible assumption | with_reducible apply State.testFailed_canon
                 | with_reducible apply Canon.ite | split | dsimp only | with_reducible apply Canon.mk
                 | with_reducible apply CanonOf.of)

theorem execTestLaneCheck_canon {qs : Base} (cp : Fin 32) (reported : Bool) (t : Nat) {s : State}
    (hs : s.Ok qs) : ResOk qs (execTestLaneCheck cp reported t s) := by
  unfold execTestLaneCheck
  extract_lets +onlyGivenNames -underBinder c s0
  try clear_value c
  have hs0 : s0.Ok qs := by
    unfold s0
    repeat' (first | with_reducible intro _ | with_reducible assumption | with_reducible apply State.at_canon
                   | with_reducible apply Canon.ite | split | dsimp only | with_reducible apply Canon.mk
                   | with_reducible apply CanonOf.of)
  clear_value s0
  with_reducible apply ResOk.next
  with_reducible apply Canon.ite
  · repeat' (first | with_reducible intro _ | with_reducible assumption | with_reducible apply Canon.ite | split
                   | dsimp only | with_reducible apply Canon.mk | with_reducible apply CanonOf.of)
  extract_lets +onlyGivenNames -underBinder s1
  have hs1 : s1.Ok qs := by
    unfold s1
    repeat' (first | with_reducible intro _ | with_reducible assumption | with_reducible apply State.co_canon
                   | with_reducible apply Canon.ite | split | dsimp only | with_reducible apply Canon.mk
                   | with_reducible apply CanonOf.of)
  clear_value s1
  repeat' (first | with_reducible intro _ | with_reducible assumption | with_reducible apply State.raise_canon
                 | with_reducible apply State.coreFaulty_canon | with_reducible apply State.lsBit_canon
                 | with_reducible apply Canon.ite | split | dsimp only | with_reducible apply Canon.mk
                 | with_reducible apply CanonOf.of)

theorem State.errorResponse_canon {qs : Base} {s : State} (r : TxReq) (hs : s.Ok qs) : (State.errorResponse s r).Ok qs := by
  cases r with
  | fetch c => exact Canon.ite (State.trapAt_canon _ _ _ hs) hs
  | load c a => exact Canon.ite (State.trapAt_canon _ _ _ hs) hs
  | store c a => exact State.storeError_canon _ _ hs
  | sample slot => exact Canon.ite hs (State.holdSample_canon _ _ hs)
  | other _ => exact hs

theorem execTransactionTimeout_canon {qs : Base} (r : TxReq) (dst : Fin 256) (tag : Fin 16384) (t : Nat) {s : State}
    (hs : s.Ok qs) : ResOk qs (execTransactionTimeout r dst tag t s) := by
  unfold execTransactionTimeout
  extract_lets +onlyGivenNames -underBinder s0
  have hs0 : s0.Ok qs := by
    unfold s0
    repeat' (first | with_reducible intro _ | with_reducible assumption | with_reducible apply State.at_canon
                   | with_reducible apply Canon.ite | split | dsimp only | with_reducible apply Canon.mk
                   | with_reducible apply CanonOf.of)
  clear_value s0
  repeat' (first | with_reducible intro _ | with_reducible assumption | with_reducible apply ResOk.next
                 | with_reducible apply State.tagTimeout_canon | with_reducible apply State.errorResponse_canon
                 | with_reducible apply Canon.ite | with_reducible apply ResOk.ite | split | dsimp only
                 | with_reducible apply Canon.mk | with_reducible apply CanonOf.of)

theorem execHbmRequest_canon {qs : Base} (chan : Fin 32) (vc : Fin 4) (waited answered : Nat) (ecc : Fin 3)
    (r : TxReq) {s : State} (hs : s.Ok qs) : ResOk qs (execHbmRequest chan vc waited answered ecc r s) := by
  unfold execHbmRequest
  extract_lets +onlyGivenNames -underBinder s1
  have hs1 : s1.Ok qs := by
    unfold s1
    repeat' (first | with_reducible intro _ | with_reducible assumption | with_reducible apply State.hbmAnswer_canon
                   | with_reducible apply Canon.ite | split | dsimp only | with_reducible apply Canon.mk
                   | with_reducible apply CanonOf.of)
  clear_value s1
  repeat' (first | with_reducible intro _ | with_reducible assumption | with_reducible apply ResOk.next
                 | with_reducible apply State.send_canon | with_reducible apply State.errorResponse_canon
                 | with_reducible apply Canon.ite | with_reducible apply ResOk.ite | split | dsimp only
                 | with_reducible apply Canon.mk | with_reducible apply CanonOf.of)

theorem execNoIslandResponse_canon {qs : Base} (r : TxReq) (router : Fin 256) (t : Nat) {s : State}
    (hs : s.Ok qs) : ResOk qs (execNoIslandResponse r router t s) := by
  unfold execNoIslandResponse
  extract_lets +onlyGivenNames -underBinder s0
  have hs0 : s0.Ok qs := by
    unfold s0
    repeat' (first | with_reducible intro _ | with_reducible assumption | with_reducible apply State.at_canon
                   | with_reducible apply Canon.ite | split | dsimp only | with_reducible apply Canon.mk
                   | with_reducible apply CanonOf.of)
  clear_value s0
  repeat' (first | with_reducible intro _ | with_reducible assumption | with_reducible apply ResOk.next
                 | with_reducible apply State.noIsland_canon | with_reducible apply State.errorResponse_canon
                 | with_reducible apply Canon.ite | with_reducible apply ResOk.ite | split | dsimp only
                 | with_reducible apply Canon.mk | with_reducible apply CanonOf.of)

end Sys2Proof.Machine
end

