-- ==== Sys2Proof/Laws/Exec.lean ====
section
/-! SUPPORT. Every command answers a next state that is in canonical form, has the queue it began with,
    and has lost no revoked key. -/
namespace Sys2Proof.Machine

theorem exec_canon {qs : Base} (i : Instr) {s : State} (hs : s.Ok qs) : ResOk qs (exec i s) := by
  cases i with
  | boundaryMessage n ready counts started tags => exact execBoundaryMessage_canon _ _ _ _ _ hs
  | changeSetDiscard num t => exact execChangeSetDiscard_canon _ _ hs
  | samplePhasePStart => exact execSamplePhasePStart_canon hs
  | summarySnapshotTimed t => exact execSummarySnapshotTimed_canon _ hs
  | canRxTimeout ch buf => exact execCanRxTimeout_canon _ _ hs
  | linkDecouple sub => exact execLinkDecouple_canon _ hs
  | twinSplitCheck t1 t2 t3 t4 quality hold dom arb => exact execTwinSplitCheck_canon _ _ _ _ _ _ _ _ hs
  | imageClose ns t => exact execImageClose_canon _ _ hs
  | freezeComplete core => exact execFreezeComplete_canon _ hs
  | sampleComplete slot cause fetch t => exact execSampleComplete_canon _ _ _ _ hs
  | sampleDeadline t => exact execSampleDeadline_canon _ hs
  | tracePreFilled c => exact execTracePreFilled_canon _ hs
  | tracePostFilled c => exact execTracePostFilled_canon _ hs
  | traceOffloadComplete c => exact execTraceOffloadComplete_canon _ hs
  | stagingInstant ns t => exact execStagingInstant_canon _ _ hs
  | stagingLate ring segs t => exact execStagingLate_canon _ _ _ hs
  | commitRecordRx r held ns t => exact execCommitRecordRx_canon _ _ _ _ hs
  | commitRecordMissing ns t => exact execCommitRecordMissing_canon _ _ hs
  | lagStateTransfer p => exact execLagStateTransfer_canon _ hs
  | runLimit part t => exact execRunLimit_canon _ _ hs
  | rollbackComplete part t => exact execRollbackComplete_canon _ _ hs
  | cycPctlRestart part t => exact execCycPctlRestart_canon _ _ hs
  | cycPctlHalt part t => exact execCycPctlHalt_canon _ _ hs
  | partitionCommandRx part restart at_ => exact execPartitionCommandRx_canon _ _ _ hs
  | ringFrameRx ring bytes t => exact execRingFrameRx_canon _ _ _ hs
  | rxDeadline ring t => exact execRxDeadline_canon _ _ hs
  | digestRx n digests locals t => exact execDigestRx_canon _ _ _ _ hs
  | segmentCopyRx ring seg n payload t => exact execSegmentCopyRx_canon _ _ _ _ _ hs
  | agreementDeadline t => exact execAgreementDeadline_canon _ hs
  | closeRecordRx n segs subs locals => exact execCloseRecordRx_canon _ _ _ _ hs
  | closeRecordMissing t => exact execCloseRecordMissing_canon _ hs
  | acyclicReplyRx ring bytes pts t => exact execAcyclicReplyRx_canon _ _ _ _ hs
  | acyclicReplyFromPartner ring n pts => exact execAcyclicReplyFromPartner_canon _ _ _ hs
  | ringPortLinkChange ring up t => exact execRingPortLinkChange_canon _ _ _ hs
  | pluggableInsert cage kind power t => exact execPluggableInsert_canon _ _ _ _ hs
  | pluggableRemove cage t => exact execPluggableRemove_canon _ _ hs
  | censusStart ring t => exact execCensusStart_canon _ _ hs
  | censusFrameBack ring kind partnerEnd bytes entries direct farPort ends partnerFcs linkChange t =>
      exact execCensusFrameBack_canon _ _ _ _ _ _ _ _ _ _ _ hs
  | censusFrameTimeout ring t => exact execCensusFrameTimeout_canon _ _ hs
  | censusLaunchRequest ring o => exact execCensusLaunchRequest_canon _ _ hs
  | rngRelease ring station => exact execRngRelease_canon _ _ hs
  | rngCensusNow ring => exact execRngCensusNow_canon _ hs
  | rngScapRun ring chan cluster run => exact execRngScapRun_canon _ _ _ _ hs
  | foxTick t => exact execFoxTick_canon _ hs
  | foxWordRx bytes step t => exact execFoxWordRx_canon _ _ _ hs
  | failingMessageRx bytes t => exact execFailingMessageRx_canon _ _ hs
  | failingMessageSend cause => exact execFailingMessageSend_canon _ hs
  | switchRecordRx bytes cause t => exact execSwitchRecordRx_canon _ _ _ hs
  | switchAckRx bytes t => exact execSwitchAckRx_canon _ _ hs
  | switchAckMissing t => exact execSwitchAckMissing_canon _ hs
  | badgerFrameTx t => exact execBadgerFrameTx_canon _ hs
  | badgerFrameRx bytes t => exact execBadgerFrameRx_canon _ _ hs
  | badgerMiss t => exact execBadgerMiss_canon _ hs
  | suspectEntry t => exact execSuspectEntry_canon _ hs
  | signatureRx sg fault t => exact execSignatureRx_canon _ _ _ hs
  | higherEpochRelease started t => exact execHigherEpochRelease_canon _ _ hs
  | listenTimeout t => exact execListenTimeout_canon _ hs
  | joinCheckDone c t => exact execJoinCheckDone_canon _ _ hs
  | joinTimeHeld granules t => exact execJoinTimeHeld_canon _ _ hs
  | joinCopyComplete m p t => exact execJoinCopyComplete_canon _ _ _ hs
  | forwardedWriteRx p copied fits => exact execForwardedWriteRx_canon _ _ _ hs
  | joinTimeout t => exact execJoinTimeout_canon _ hs
  | joinRetry t => exact execJoinRetry_canon _ hs
  | twnSwap t => exact execTwnSwap_canon _ hs
  | twnRejoin => exact execTwnRejoin_canon hs
  | revertExpiry t => exact execRevertExpiry_canon _ hs
  | proofDue t => exact execProofDue_canon _ hs
  | moduleFault fault t => exact execModuleFault_canon _ _ hs
  | handover ses req slot partnerValid t => exact execHandover_canon _ _ _ _ _ hs
  | handoverAbort t => exact execHandoverAbort_canon _ hs
  | handoverMappingDone old types t => exact execHandoverMappingDone_canon _ _ _ hs
  | handoverWindowExpiry t => exact execHandoverWindowExpiry_canon _ hs
  | imageRestart t => exact execImageRestart_canon _ hs
  | copyBurstStage ring bytes => exact execCopyBurstStage_canon _ _ hs
  | changeset ses req c t => exact execChangeset_canon _ _ _ _ hs
  | changesetForwardRx c => exact execChangesetForwardRx_canon _ hs
  | slotFlagClear slot value t => exact execSlotFlagClear_canon _ _ _ hs
  | flagClearRx slot mask at_ => exact execFlagClearRx_canon _ _ _ hs
  | traceArm c => exact execTraceArm_canon _ hs
  | traceSwTrig c => exact execTraceSwTrig_canon _ hs
  | traceAbort c => exact execTraceAbort_canon _ hs
  | profileChunk ses req slot off data => exact execProfileChunk_canon _ _ _ _ _ hs
  | profileFinish ses req slot => exact execProfileFinish_canon _ _ _ hs
  | imageCheckDone slot => exact execImageCheckDone_canon _ hs
  | profileSelect ses req slot persist => exact execProfileSelect_canon _ _ _ _ hs
  | profileClear ses req => exact execProfileClear_canon _ _ hs
  | profileKey ses req r => exact execProfileKey_canon _ _ _ hs
  | profileList ses req => exact execProfileList_canon _ _ hs
  | selSet => exact execSelSet_canon hs
  | selClear => exact execSelClear_canon hs
  | transactionTimeout r dst tag t => exact execTransactionTimeout_canon _ _ _ _ hs
  | tagQuarantineEnd src tag t => exact execTagQuarantineEnd_canon _ _ _ hs
  | lateResponseRx src tag => exact execLateResponseRx_canon _ _ hs
  | noIslandResponse r router t => exact execNoIslandResponse_canon _ _ _ hs
  | fabricWindowEnd router output load ready => exact execFabricWindowEnd_canon _ _ _ _ hs
  | hbmStressWindow chan arrived => exact execHbmStressWindow_canon _ _ hs
  | hbmRequest chan vc waited answered ecc r => exact execHbmRequest_canon _ _ _ _ _ _ hs
  | sramScrub bank word uncorrectable => exact execSramScrub_canon _ _ _ hs
  | flashWriteError => exact execFlashWriteError_canon hs
  | timeStart t => exact execTimeStart_canon _ hs
  | lockWaitExpiry t => exact execLockWaitExpiry_canon _ hs
  | ptpSyncRx port dom twoStep origin corr rx t => exact execPtpSyncRx_canon _ _ _ _ _ _ _ hs
  | ptpFollowUpRx port dom origin corr t => exact execPtpFollowUpRx_canon _ _ _ _ _ hs
  | ptpAnnounceRx port dom a t => exact execPtpAnnounceRx_canon _ _ _ _ hs
  | ptpPdelayReqRx port rx tx => exact execPtpPdelayReqRx_canon _ _ _ hs
  | ptpPdelayRespRx port t1 t2 t4 => exact execPtpPdelayRespRx_canon _ _ _ _ hs
  | ptpPdelayRespFollowUpRx port t3 => exact execPtpPdelayRespFollowUpRx_canon _ _ hs
  | ptpSignalingRx port dom => exact execPtpSignalingRx_canon _ _ hs
  | ptpSyncTx port dom tx t => exact execPtpSyncTx_canon _ _ _ _ hs
  | ptpAnnounceTx port dom => exact execPtpAnnounceTx_canon _ _ hs
  | ptpPdelayTx port => exact execPtpPdelayTx_canon _ hs
  | ptpReceiptTimeout dom announce t => exact execPtpReceiptTimeout_canon _ _ _ hs
  | domainRequalified dom t => exact execDomainRequalified_canon _ _ hs
  | servoReferenceChange t => exact execServoReferenceChange_canon _ hs
  | holdoverDegraded t => exact execHoldoverDegraded_canon _ hs
  | ageingMeasurement ppb t => exact execAgeingMeasurement_canon _ _ hs
  | timStep dom t => exact execTimStep_canon _ _ hs
  | timApply t => exact execTimApply_canon _ hs
  | stepRequestRx at_ target => exact execStepRequestRx_canon _ _ hs
  | timeRestart => exact execTimeRestart_canon hs
  | timNsRead t => exact execTimNsRead_canon _ hs
  | ppsOutEdge rising t => exact execPpsOutEdge_canon _ _ hs
  | ppsInEdge t => exact execPpsInEdge_canon _ hs
  | lineFrameRx port bytes t => exact execLineFrameRx_canon _ _ _ hs
  | publicationFromActive pub bytes => exact execPublicationFromActive_canon _ _ hs
  | couplingDeadline sub n partner t => exact execCouplingDeadline_canon _ _ _ _ hs
  | linePortLinkChange port up t => exact execLinePortLinkChange_canon _ _ _ hs
  | coreAdd cp w => exact execCoreAdd_canon _ _ hs
  | coreSub cp w => exact execCoreSub_canon _ _ hs
  | coreAnd cp w => exact execCoreAnd_canon _ _ hs
  | coreIor cp w => exact execCoreIor_canon _ _ hs
  | coreXor cp w => exact execCoreXor_canon _ _ hs
  | coreShl cp w => exact execCoreShl_canon _ _ hs
  | coreShr cp w => exact execCoreShr_canon _ _ hs
  | coreSha cp w => exact execCoreSha_canon _ _ hs
  | coreLess cp w => exact execCoreLess_canon _ _ hs
  | coreLessu cp w => exact execCoreLessu_canon _ _ hs
  | coreMul cp w => exact execCoreMul_canon _ _ hs
  | coreMulhi cp w => exact execCoreMulhi_canon _ _ hs
  | coreMulhiu cp w => exact execCoreMulhiu_canon _ _ hs
  | coreMulhix cp w => exact execCoreMulhix_canon _ _ hs
  | coreDiv cp w => exact execCoreDiv_canon _ _ hs
  | coreDivu cp w => exact execCoreDivu_canon _ _ hs
  | coreMod cp w => exact execCoreMod_canon _ _ hs
  | coreModu cp w => exact execCoreModu_canon _ _ hs
  | coreAdd32 cp w => exact execCoreAdd32_canon _ _ hs
  | coreSub32 cp w => exact execCoreSub32_canon _ _ hs
  | coreShl32 cp w => exact execCoreShl32_canon _ _ hs
  | coreShr32 cp w => exact execCoreShr32_canon _ _ hs
  | coreSha32 cp w => exact execCoreSha32_canon _ _ hs
  | coreMul32 cp w => exact execCoreMul32_canon _ _ hs
  | coreDiv32 cp w => exact execCoreDiv32_canon _ _ hs
  | coreDivu32 cp w => exact execCoreDivu32_canon _ _ hs
  | coreMod32 cp w => exact execCoreMod32_canon _ _ hs
  | coreModu32 cp w => exact execCoreModu32_canon _ _ hs
  | coreAddk cp w => exact execCoreAddk_canon _ _ hs
  | coreAndk cp w => exact execCoreAndk_canon _ _ hs
  | coreIork cp w => exact execCoreIork_canon _ _ hs
  | coreXork cp w => exact execCoreXork_canon _ _ hs
  | coreLessk cp w => exact execCoreLessk_canon _ _ hs
  | coreLessuk cp w => exact execCoreLessuk_canon _ _ hs
  | coreShiftk cp w => exact execCoreShiftk_canon _ _ hs
  | coreAdd32k cp w => exact execCoreAdd32k_canon _ _ hs
  | coreMkhi cp w => exact execCoreMkhi_canon _ _ hs
  | corePchi cp w => exact execCorePchi_canon _ _ hs
  | coreLdpc cp w => exact execCoreLdpc_canon _ _ hs
  | coreLd8s cp w => exact execCoreLd8s_canon _ _ hs
  | coreLd8u cp w => exact execCoreLd8u_canon _ _ hs
  | coreLd16s cp w => exact execCoreLd16s_canon _ _ hs
  | coreLd16u cp w => exact execCoreLd16u_canon _ _ hs
  | coreLd32s cp w => exact execCoreLd32s_canon _ _ hs
  | coreLd32u cp w => exact execCoreLd32u_canon _ _ hs
  | coreLd64 cp w => exact execCoreLd64_canon _ _ hs
  | coreSt8 cp w => exact execCoreSt8_canon _ _ hs
  | coreSt16 cp w => exact execCoreSt16_canon _ _ hs
  | coreSt32 cp w => exact execCoreSt32_canon _ _ hs
  | coreSt64 cp w => exact execCoreSt64_canon _ _ hs
  | coreFld32 cp w => exact execCoreFld32_canon _ _ hs
  | coreFld64 cp w => exact execCoreFld64_canon _ _ hs
  | coreFst32 cp w => exact execCoreFst32_canon _ _ hs
  | coreFst64 cp w => exact execCoreFst64_canon _ _ hs
  | coreBreq cp w => exact execCoreBreq_canon _ _ hs
  | coreBrne cp w => exact execCoreBrne_canon _ _ hs
  | coreBrlt cp w => exact execCoreBrlt_canon _ _ hs
  | coreBrge cp w => exact execCoreBrge_canon _ _ hs
  | coreBrltu cp w => exact execCoreBrltu_canon _ _ hs
  | coreBrgeu cp w => exact execCoreBrgeu_canon _ _ hs
  | coreJmp cp w => exact execCoreJmp_canon _ _ hs
  | coreCall cp w => exact execCoreCall_canon _ _ hs
  | coreJmpr cp w => exact execCoreJmpr_canon _ _ hs
  | coreCallr cp w => exact execCoreCallr_canon _ _ hs
  | coreEnter cp w => exact execCoreEnter_canon _ _ hs
  | coreLeave cp w => exact execCoreLeave_canon _ _ hs
  | coreRet cp w => exact execCoreRet_canon _ _ hs
  | coreFadd cp w => exact execCoreFadd_canon _ _ hs
  | coreFsub cp w => exact execCoreFsub_canon _ _ hs
  | coreFmul cp w => exact execCoreFmul_canon _ _ hs
  | coreFdiv cp w => exact execCoreFdiv_canon _ _ hs
  | coreFsqrt cp w => exact execCoreFsqrt_canon _ _ hs
  | coreFmin cp w => exact execCoreFmin_canon _ _ hs
  | coreFmax cp w => exact execCoreFmax_canon _ _ hs
  | coreFabs cp w => exact execCoreFabs_canon _ _ hs
  | coreFneg cp w => exact execCoreFneg_canon _ _ hs
  | coreFcsgn cp w => exact execCoreFcsgn_canon _ _ hs
  | coreFcmpeq cp w => exact execCoreFcmpeq_canon _ _ hs
  | coreFcmplt cp w => exact execCoreFcmplt_canon _ _ hs
  | coreFcmple cp w => exact execCoreFcmple_canon _ _ hs
  | coreFkind cp w => exact execCoreFkind_canon _ _ hs
  | coreFtoi64 cp w => exact execCoreFtoi64_canon _ _ hs
  | coreFtou64 cp w => exact execCoreFtou64_canon _ _ hs
  | coreFtoi32 cp w => exact execCoreFtoi32_canon _ _ hs
  | coreFtou32 cp w => exact execCoreFtou32_canon _ _ hs
  | coreI64tof cp w => exact execCoreI64tof_canon _ _ hs
  | coreU64tof cp w => exact execCoreU64tof_canon _ _ hs
  | coreI32tof cp w => exact execCoreI32tof_canon _ _ hs
  | coreU32tof cp w => exact execCoreU32tof_canon _ _ hs
  | coreFwidth cp w => exact execCoreFwidth_canon _ _ hs
  | coreFtobits cp w => exact execCoreFtobits_canon _ _ hs
  | coreBitstof cp w => exact execCoreBitstof_canon _ _ hs
  | coreFmac cp w => exact execCoreFmac_canon _ _ hs
  | coreFmsc cp w => exact execCoreFmsc_canon _ _ hs
  | coreFnmac cp w => exact execCoreFnmac_canon _ _ hs
  | coreFnmsc cp w => exact execCoreFnmsc_canon _ _ hs
  | coreSysrd cp w => exact execCoreSysrd_canon _ _ hs
  | coreSyswr cp w => exact execCoreSyswr_canon _ _ hs
  | coreSysset cp w => exact execCoreSysset_canon _ _ hs
  | coreSysclr cp w => exact execCoreSysclr_canon _ _ hs
  | coreSyscall cp w idx ns => exact execCoreSyscall_canon _ _ _ _ hs
  | coreBreak cp w => exact execCoreBreak_canon _ _ hs
  | coreTrap cp w => exact execCoreTrap_canon _ _ hs
  | coreTret cp w => exact execCoreTret_canon _ _ hs
  | coreSwctx cp w => exact execCoreSwctx_canon _ _ hs
  | coreWspill cp w => exact execCoreWspill_canon _ _ hs
  | coreWfill cp w => exact execCoreWfill_canon _ _ hs
  | coreWait cp w => exact execCoreWait_canon _ _ hs
  | coreFence cp w => exact execCoreFence_canon _ _ hs
  | coreCflush cp w => exact execCoreCflush_canon _ _ hs
  | coreXrd cp w => exact execCoreXrd_canon _ _ hs
  | coreXwr cp w => exact execCoreXwr_canon _ _ hs
  | interruptEntry cp => exact execInterruptEntry_canon _ hs
  | timecmpExpiry cp t => exact execTimecmpExpiry_canon _ _ hs
  | twinRecordArrival cp => exact execTwinRecordArrival_canon _ hs
  | mgmtRequestPost cp => exact execMgmtRequestPost_canon _ hs
  | signatureWindowClose cp primary dup t => exact execSignatureWindowClose_canon _ _ _ _ hs
  | lockstepResetComplete cp => exact execLockstepResetComplete_canon _ hs
  | storeErrorResponse cp a => exact execStoreErrorResponse_canon _ _ hs
  | injectionTest cp => exact execInjectionTest_canon _ hs
  | injectionTestDone cp primary dup t => exact execInjectionTestDone_canon _ _ _ _ hs
  | testLaneCheck cp reported t => exact execTestLaneCheck_canon _ _ _ hs
  | accLoad c part => exact execAccLoad_canon _ _ hs
  | accLoadComplete c => exact execAccLoadComplete_canon _ hs
  | accFaddrRead c => exact execAccFaddrRead_canon _ hs
  | diSample mv t => exact execDiSample_canon _ _ hs
  | diFilterStateChange di => exact execDiFilterStateChange_canon _ hs
  | crossingFrameTx block t => exact execCrossingFrameTx_canon _ _ hs
  | crossingFrameRx block up bytes t => exact execCrossingFrameRx_canon _ _ _ _ hs
  | crossingTimeout block up t => exact execCrossingTimeout_canon _ _ _ hs
  | doGroupFaultChange group fault => exact execDoGroupFaultChange_canon _ _ hs
  | tripInputChange trip active t => exact execTripInputChange_canon _ _ _ hs
  | dioTripClr mask t => exact execDioTripClr_canon _ _ hs
  | tripClearRx mask at_ => exact execTripClearRx_canon _ _ hs
  | analogueConversion chan ma t => exact execAnalogueConversion_canon _ _ _ hs
  | analogueOutFault chan fault => exact execAnalogueOutFault_canon _ _ hs
  | analogueMiswire chan cond => exact execAnalogueMiswire_canon _ _ hs
  | loopSupplyLimit chan limit => exact execLoopSupplyLimit_canon _ _ hs
  | hartPoll modem t => exact execHartPoll_canon _ _ hs
  | hartReplyRx modem vars ovr => exact execHartReplyRx_canon _ _ _ hs
  | hartReplyTimeout modem t => exact execHartReplyTimeout_canon _ _ hs
  | hartSweep modem t => exact execHartSweep_canon _ _ hs
  | hartSearch modem => exact execHartSearch_canon _ hs
  | calCommit => exact execCalCommit_canon hs
  | calWriteComplete => exact execCalWriteComplete_canon hs
  | canFrameRx ch f esi tec rec t => exact execCanFrameRx_canon _ _ _ _ _ _ hs
  | canFrameListRx n frames => exact execCanFrameListRx_canon _ _ hs
  | canFrameListMissing n t => exact execCanFrameListMissing_canon _ _ hs
  | canTxDone ch buf tec rec => exact execCanTxDone_canon _ _ _ _ hs
  | canTxAttemptFail ch buf tec rec => exact execCanTxAttemptFail_canon _ _ _ _ hs
  | canBusOff ch => exact execCanBusOff_canon _ hs
  | canAutoRecover ch => exact execCanAutoRecover_canon _ hs
  | canRecover ch => exact execCanRecover_canon _ hs
  | canPop0 ch => exact execCanPop0_canon _ hs
  | canPop1 ch => exact execCanPop1_canon _ hs
  | canPush ch => exact execCanPush_canon _ hs
  | canBstatRead ch => exact execCanBstatRead_canon _ hs
  | feedQualified feed dv t => exact execFeedQualified_canon _ _ _ hs
  | feedLost feed dv t => exact execFeedLost_canon _ _ _ hs
  | holdUpBegin t => exact execHoldUpBegin_canon _ hs
  | lastWordsComplete t => exact execLastWordsComplete_canon _ hs
  | holdUpPowerDown t => exact execHoldUpPowerDown_canon _ hs
  | panelDischargeComplete t => exact execPanelDischargeComplete_canon _ hs
  | holdUpEnd t => exact execHoldUpEnd_canon _ hs
  | stageEnd bankDj trips spared t => exact execStageEnd_canon _ _ _ _ hs
  | stageTimeout dom failed t => exact execStageTimeout_canon _ _ _ hs
  | domainPowerUpRetry dom ok t => exact execDomainPowerUpRetry_canon _ _ _ hs
  | bringUpRetry t => exact execBringUpRetry_canon _ hs
  | slotIdRead pins t => exact execSlotIdRead_canon _ _ hs
  | bankChargeTimeout bankDj t => exact execBankChargeTimeout_canon _ _ hs
  | domainFault faults t => exact execDomainFault_canon _ _ hs
  | rstInHeld t => exact execRstInHeld_canon _ hs
  | rstInRelease t => exact execRstInRelease_canon _ hs
  | lifeWordLost t => exact execLifeWordLost_canon _ hs
  | modRestart t => exact execModRestart_canon _ hs
  | modForceRestart t => exact execModForceRestart_canon _ hs
  | moduleRestart cause t => exact execModuleRestart_canon _ _ hs
  | opsecTick watts aDv bDv bankDj prof t => exact execOpsecTick_canon _ _ _ _ _ _ hs
  | temperatureSample die hbm face t => exact execTemperatureSample_canon _ _ _ _ hs
  | qmpFragmentRx ses b t => exact execQmpFragmentRx_canon _ _ _ hs
  | qmpFragmentTimeout ses req t => exact execQmpFragmentTimeout_canon _ _ _ hs
  | dtlsHandshake port key onActive v6 ok addrHash t => exact execDtlsHandshake_canon _ _ _ _ _ _ _ hs
  | sessionIdleTimeout ses t => exact execSessionIdleTimeout_canon _ _ hs
  | networkEcho port kind fragment onActive => exact execNetworkEcho_canon _ _ _ _ hs
  | read ses req r t => exact execRead_canon _ _ _ _ hs
  | write ses req l t => exact execWrite_canon _ _ _ _ hs
  | summary ses req => exact execSummary_canon _ _ hs
  | swap ses req t => exact execSwap_canon _ _ _ hs
  | events ses req from_ count sev mask => exact execEvents_canon _ _ _ _ _ _ hs
  | traceSave ses req c k => exact execTraceSave_canon _ _ _ _ hs
  | traceRead ses req c k ch => exact execTraceRead_canon _ _ _ _ _ hs
  | traceList ses req => exact execTraceList_canon _ _ hs
  | timeQuery ses req t => exact execTimeQuery_canon _ _ _ hs
  | timeStep ses req dom t => exact execTimeStep_canon _ _ _ _ hs
  | timeApply ses req t => exact execTimeApply_canon _ _ _ hs
  | censusRead ses req ring => exact execCensusRead_canon _ _ _ hs
  | censusNow ses req ring => exact execCensusNow_canon _ _ _ hs
  | rejoin ses req t => exact execRejoin_canon _ _ _ hs
  | restart ses req force t => exact execRestart_canon _ _ _ _ hs
  | eventRaise t => exact execEventRaise_canon _ hs
  | suppressionReport code t => exact execSuppressionReport_canon _ _ hs
  | archiveBlockWrite t => exact execArchiveBlockWrite_canon _ hs
  | panelUpdateStart t => exact execPanelUpdateStart_canon _ hs
  | panelUpdateComplete crcOk t => exact execPanelUpdateComplete_canon _ _ hs
  | panelCheck crcOk t => exact execPanelCheck_canon _ _ hs
  | lampTestEnd t => exact execLampTestEnd_canon _ hs
  | buttonRelease ms t => exact execButtonRelease_canon _ _ hs
  | buttonStuck t => exact execButtonStuck_canon _ hs
  | buttonUnstuck t => exact execButtonUnstuck_canon _ hs
  | confirmExpiry t => exact execConfirmExpiry_canon _ hs
  | latchedLowWordRead off => exact execLatchedLowWordRead_canon _ hs
  | rcFieldRead off => exact execRcFieldRead_canon _ hs
  | registerWrite cp level off v t => exact execRegisterWrite_canon _ _ _ _ _ hs
  | pd0PowerUp prof t => exact execPd0PowerUp_canon _ _ hs
  | keyRecordFromActive r => exact execKeyRecordFromActive_canon _ hs
  | censusResultsFromActive ring entries sched at_ endLoop farPort fcs other =>
      exact execCensusResultsFromActive_canon _ _ _ _ _ _ _ _ hs
  | handoverStartFromActive slot t => exact execHandoverStartFromActive_canon _ _ hs
  | partnerRingPortDown ring up => exact execPartnerRingPortDown_canon _ _ hs

end Sys2Proof.Machine
end

