-- ==== Sys2Proof/Laws/State.lean ====
section
/-! SUPPORT. What each updater of Ops leaves in every field of the state, and what is read after it. -/
namespace Sys2Proof.Machine

/-! ## `State.wr` -/

@[simp] theorem State.wr_regs (s : State) (off : Nat) (w : Word) : (s.wr off w).regs = tset 0 s.regs off w := rfl
@[simp] theorem State.wr_latch (s : State) (off : Nat) (w : Word) : (s.wr off w).latch = s.latch := rfl
@[simp] theorem State.wr_mem (s : State) (off : Nat) (w : Word) : (s.wr off w).mem = s.mem := rfl
@[simp] theorem State.wr_flash (s : State) (off : Nat) (w : Word) : (s.wr off w).flash = s.flash := rfl
@[simp] theorem State.wr_nv (s : State) (off : Nat) (w : Word) : (s.wr off w).nv = s.nv := rfl
@[simp] theorem State.wr_keep (s : State) (off : Nat) (w : Word) : (s.wr off w).keep = s.keep := rfl
@[simp] theorem State.wr_img (s : State) (off : Nat) (w : Word) : (s.wr off w).img = s.img := rfl
@[simp] theorem State.wr_next (s : State) (off : Nat) (w : Word) : (s.wr off w).next = s.next := rfl
@[simp] theorem State.wr_fab (s : State) (off : Nat) (w : Word) : (s.wr off w).fab = s.fab := rfl
@[simp] theorem State.wr_cs (s : State) (off : Nat) (w : Word) : (s.wr off w).cs = s.cs := rfl
@[simp] theorem State.wr_deferred (s : State) (off : Nat) (w : Word) : (s.wr off w).deferred = s.deferred := rfl
@[simp] theorem State.wr_sig (s : State) (off : Nat) (w : Word) : (s.wr off w).sig = s.sig := rfl
@[simp] theorem State.wr_parts (s : State) (off : Nat) (w : Word) : (s.wr off w).parts = s.parts := rfl
@[simp] theorem State.wr_commit (s : State) (off : Nat) (w : Word) : (s.wr off w).commit = s.commit := rfl
@[simp] theorem State.wr_loops (s : State) (off : Nat) (w : Word) : (s.wr off w).loops = s.loops := rfl
@[simp] theorem State.wr_rings (s : State) (off : Nat) (w : Word) : (s.wr off w).rings = s.rings := rfl
@[simp] theorem State.wr_twin (s : State) (off : Nat) (w : Word) : (s.wr off w).twin = s.twin := rfl
@[simp] theorem State.wr_time (s : State) (off : Nat) (w : Word) : (s.wr off w).time = s.time := rfl
@[simp] theorem State.wr_lines (s : State) (off : Nat) (w : Word) : (s.wr off w).lines = s.lines := rfl
@[simp] theorem State.wr_cores (s : State) (off : Nat) (w : Word) : (s.wr off w).cores = s.cores := rfl
@[simp] theorem State.wr_loc (s : State) (off : Nat) (w : Word) : (s.wr off w).loc = s.loc := rfl
@[simp] theorem State.wr_can (s : State) (off : Nat) (w : Word) : (s.wr off w).can = s.can := rfl
@[simp] theorem State.wr_pwr (s : State) (off : Nat) (w : Word) : (s.wr off w).pwr = s.pwr := rfl
@[simp] theorem State.wr_mgmt (s : State) (off : Nat) (w : Word) : (s.wr off w).mgmt = s.mgmt := rfl
@[simp] theorem State.wr_recd (s : State) (off : Nat) (w : Word) : (s.wr off w).recd = s.recd := rfl
@[simp] theorem State.wr_panel (s : State) (off : Nat) (w : Word) : (s.wr off w).panel = s.panel := rfl
@[simp] theorem State.wr_now (s : State) (off : Nat) (w : Word) : (s.wr off w).now = s.now := rfl
@[simp] theorem State.wr_out (s : State) (off : Nat) (w : Word) : (s.wr off w).out = s.out := rfl
@[simp] theorem State.wr_freeCtr (s : State) (off : Nat) (w : Word) : (s.wr off w).freeCtr = s.freeCtr := rfl
@[simp] theorem State.wr_pending (s : State) (off : Nat) (w : Word) : (s.wr off w).pending = s.pending := rfl

/-! ## `State.put` -/

@[simp] theorem State.put_regs (s : State) (f : Fld) (v : Nat) : (s.put f v).regs = tset 0 s.regs f.off (putBits (s.rd f.off) f.lo f.len v) :=
  rfl
@[simp] theorem State.put_latch (s : State) (f : Fld) (v : Nat) : (s.put f v).latch = s.latch := rfl
@[simp] theorem State.put_mem (s : State) (f : Fld) (v : Nat) : (s.put f v).mem = s.mem := rfl
@[simp] theorem State.put_flash (s : State) (f : Fld) (v : Nat) : (s.put f v).flash = s.flash := rfl
@[simp] theorem State.put_nv (s : State) (f : Fld) (v : Nat) : (s.put f v).nv = s.nv := rfl
@[simp] theorem State.put_keep (s : State) (f : Fld) (v : Nat) : (s.put f v).keep = s.keep := rfl
@[simp] theorem State.put_img (s : State) (f : Fld) (v : Nat) : (s.put f v).img = s.img := rfl
@[simp] theorem State.put_next (s : State) (f : Fld) (v : Nat) : (s.put f v).next = s.next := rfl
@[simp] theorem State.put_fab (s : State) (f : Fld) (v : Nat) : (s.put f v).fab = s.fab := rfl
@[simp] theorem State.put_cs (s : State) (f : Fld) (v : Nat) : (s.put f v).cs = s.cs := rfl
@[simp] theorem State.put_deferred (s : State) (f : Fld) (v : Nat) : (s.put f v).deferred = s.deferred := rfl
@[simp] theorem State.put_sig (s : State) (f : Fld) (v : Nat) : (s.put f v).sig = s.sig := rfl
@[simp] theorem State.put_parts (s : State) (f : Fld) (v : Nat) : (s.put f v).parts = s.parts := rfl
@[simp] theorem State.put_commit (s : State) (f : Fld) (v : Nat) : (s.put f v).commit = s.commit := rfl
@[simp] theorem State.put_loops (s : State) (f : Fld) (v : Nat) : (s.put f v).loops = s.loops := rfl
@[simp] theorem State.put_rings (s : State) (f : Fld) (v : Nat) : (s.put f v).rings = s.rings := rfl
@[simp] theorem State.put_twin (s : State) (f : Fld) (v : Nat) : (s.put f v).twin = s.twin := rfl
@[simp] theorem State.put_time (s : State) (f : Fld) (v : Nat) : (s.put f v).time = s.time := rfl
@[simp] theorem State.put_lines (s : State) (f : Fld) (v : Nat) : (s.put f v).lines = s.lines := rfl
@[simp] theorem State.put_cores (s : State) (f : Fld) (v : Nat) : (s.put f v).cores = s.cores := rfl
@[simp] theorem State.put_loc (s : State) (f : Fld) (v : Nat) : (s.put f v).loc = s.loc := rfl
@[simp] theorem State.put_can (s : State) (f : Fld) (v : Nat) : (s.put f v).can = s.can := rfl
@[simp] theorem State.put_pwr (s : State) (f : Fld) (v : Nat) : (s.put f v).pwr = s.pwr := rfl
@[simp] theorem State.put_mgmt (s : State) (f : Fld) (v : Nat) : (s.put f v).mgmt = s.mgmt := rfl
@[simp] theorem State.put_recd (s : State) (f : Fld) (v : Nat) : (s.put f v).recd = s.recd := rfl
@[simp] theorem State.put_panel (s : State) (f : Fld) (v : Nat) : (s.put f v).panel = s.panel := rfl
@[simp] theorem State.put_now (s : State) (f : Fld) (v : Nat) : (s.put f v).now = s.now := rfl
@[simp] theorem State.put_out (s : State) (f : Fld) (v : Nat) : (s.put f v).out = s.out := rfl
@[simp] theorem State.put_freeCtr (s : State) (f : Fld) (v : Nat) : (s.put f v).freeCtr = s.freeCtr := rfl
@[simp] theorem State.put_pending (s : State) (f : Fld) (v : Nat) : (s.put f v).pending = s.pending := rfl

/-! ## `State.memW` -/

@[simp] theorem State.memW_regs (s : State) (a : Nat) (b : List Byte) : (s.memW a b).regs = s.regs := rfl
@[simp] theorem State.memW_latch (s : State) (a : Nat) (b : List Byte) : (s.memW a b).latch = s.latch := rfl
@[simp] theorem State.memW_mem (s : State) (a : Nat) (b : List Byte) : (s.memW a b).mem = Memory.writeN s.mem a b := rfl
@[simp] theorem State.memW_flash (s : State) (a : Nat) (b : List Byte) : (s.memW a b).flash = s.flash := rfl
@[simp] theorem State.memW_nv (s : State) (a : Nat) (b : List Byte) : (s.memW a b).nv = s.nv := rfl
@[simp] theorem State.memW_keep (s : State) (a : Nat) (b : List Byte) : (s.memW a b).keep = s.keep := rfl
@[simp] theorem State.memW_img (s : State) (a : Nat) (b : List Byte) : (s.memW a b).img = s.img := rfl
@[simp] theorem State.memW_next (s : State) (a : Nat) (b : List Byte) : (s.memW a b).next = s.next := rfl
@[simp] theorem State.memW_fab (s : State) (a : Nat) (b : List Byte) : (s.memW a b).fab = s.fab := rfl
@[simp] theorem State.memW_cs (s : State) (a : Nat) (b : List Byte) : (s.memW a b).cs = s.cs := rfl
@[simp] theorem State.memW_deferred (s : State) (a : Nat) (b : List Byte) : (s.memW a b).deferred = s.deferred := rfl
@[simp] theorem State.memW_sig (s : State) (a : Nat) (b : List Byte) : (s.memW a b).sig = s.sig := rfl
@[simp] theorem State.memW_parts (s : State) (a : Nat) (b : List Byte) : (s.memW a b).parts = s.parts := rfl
@[simp] theorem State.memW_commit (s : State) (a : Nat) (b : List Byte) : (s.memW a b).commit = s.commit := rfl
@[simp] theorem State.memW_loops (s : State) (a : Nat) (b : List Byte) : (s.memW a b).loops = s.loops := rfl
@[simp] theorem State.memW_rings (s : State) (a : Nat) (b : List Byte) : (s.memW a b).rings = s.rings := rfl
@[simp] theorem State.memW_twin (s : State) (a : Nat) (b : List Byte) : (s.memW a b).twin = s.twin := rfl
@[simp] theorem State.memW_time (s : State) (a : Nat) (b : List Byte) : (s.memW a b).time = s.time := rfl
@[simp] theorem State.memW_lines (s : State) (a : Nat) (b : List Byte) : (s.memW a b).lines = s.lines := rfl
@[simp] theorem State.memW_cores (s : State) (a : Nat) (b : List Byte) : (s.memW a b).cores = s.cores := rfl
@[simp] theorem State.memW_loc (s : State) (a : Nat) (b : List Byte) : (s.memW a b).loc = s.loc := rfl
@[simp] theorem State.memW_can (s : State) (a : Nat) (b : List Byte) : (s.memW a b).can = s.can := rfl
@[simp] theorem State.memW_pwr (s : State) (a : Nat) (b : List Byte) : (s.memW a b).pwr = s.pwr := rfl
@[simp] theorem State.memW_mgmt (s : State) (a : Nat) (b : List Byte) : (s.memW a b).mgmt = s.mgmt := rfl
@[simp] theorem State.memW_recd (s : State) (a : Nat) (b : List Byte) : (s.memW a b).recd = s.recd := rfl
@[simp] theorem State.memW_panel (s : State) (a : Nat) (b : List Byte) : (s.memW a b).panel = s.panel := rfl
@[simp] theorem State.memW_now (s : State) (a : Nat) (b : List Byte) : (s.memW a b).now = s.now := rfl
@[simp] theorem State.memW_out (s : State) (a : Nat) (b : List Byte) : (s.memW a b).out = s.out := rfl
@[simp] theorem State.memW_freeCtr (s : State) (a : Nat) (b : List Byte) : (s.memW a b).freeCtr = s.freeCtr := rfl
@[simp] theorem State.memW_pending (s : State) (a : Nat) (b : List Byte) : (s.memW a b).pending = s.pending := rfl

/-! ## `State.take` -/

@[simp] theorem State.take_regs (s : State) : (s.take).regs = s.regs := rfl
@[simp] theorem State.take_latch (s : State) : (s.take).latch = s.latch := rfl
@[simp] theorem State.take_mem (s : State) : (s.take).mem = s.mem := rfl
@[simp] theorem State.take_flash (s : State) : (s.take).flash = s.flash := rfl
@[simp] theorem State.take_nv (s : State) : (s.take).nv = s.nv := rfl
@[simp] theorem State.take_keep (s : State) : (s.take).keep = s.keep := rfl
@[simp] theorem State.take_img (s : State) : (s.take).img = s.img := rfl
@[simp] theorem State.take_next (s : State) : (s.take).next = s.next := rfl
@[simp] theorem State.take_fab (s : State) : (s.take).fab = s.fab := rfl
@[simp] theorem State.take_cs (s : State) : (s.take).cs = s.cs := rfl
@[simp] theorem State.take_deferred (s : State) : (s.take).deferred = s.deferred := rfl
@[simp] theorem State.take_sig (s : State) : (s.take).sig = s.sig := rfl
@[simp] theorem State.take_parts (s : State) : (s.take).parts = s.parts := rfl
@[simp] theorem State.take_commit (s : State) : (s.take).commit = s.commit := rfl
@[simp] theorem State.take_loops (s : State) : (s.take).loops = s.loops := rfl
@[simp] theorem State.take_rings (s : State) : (s.take).rings = s.rings := rfl
@[simp] theorem State.take_twin (s : State) : (s.take).twin = s.twin := rfl
@[simp] theorem State.take_time (s : State) : (s.take).time = s.time := rfl
@[simp] theorem State.take_lines (s : State) : (s.take).lines = s.lines := rfl
@[simp] theorem State.take_cores (s : State) : (s.take).cores = s.cores := rfl
@[simp] theorem State.take_loc (s : State) : (s.take).loc = s.loc := rfl
@[simp] theorem State.take_can (s : State) : (s.take).can = s.can := rfl
@[simp] theorem State.take_pwr (s : State) : (s.take).pwr = s.pwr := rfl
@[simp] theorem State.take_mgmt (s : State) : (s.take).mgmt = s.mgmt := rfl
@[simp] theorem State.take_recd (s : State) : (s.take).recd = s.recd := rfl
@[simp] theorem State.take_panel (s : State) : (s.take).panel = s.panel := rfl
@[simp] theorem State.take_now (s : State) : (s.take).now = s.now := rfl
@[simp] theorem State.take_out (s : State) : (s.take).out = s.out := rfl
@[simp] theorem State.take_freeCtr (s : State) : (s.take).freeCtr = s.freeCtr + 1 := rfl
@[simp] theorem State.take_pending (s : State) : (s.take).pending = s.pending := rfl

/-! ## `State.send` -/

@[simp] theorem State.send_regs (s : State) (o : Output) : (s.send o).regs = s.regs := rfl
@[simp] theorem State.send_latch (s : State) (o : Output) : (s.send o).latch = s.latch := rfl
@[simp] theorem State.send_mem (s : State) (o : Output) : (s.send o).mem = s.mem := rfl
@[simp] theorem State.send_flash (s : State) (o : Output) : (s.send o).flash = s.flash := rfl
@[simp] theorem State.send_nv (s : State) (o : Output) : (s.send o).nv = s.nv := rfl
@[simp] theorem State.send_keep (s : State) (o : Output) : (s.send o).keep = s.keep := rfl
@[simp] theorem State.send_img (s : State) (o : Output) : (s.send o).img = s.img := rfl
@[simp] theorem State.send_next (s : State) (o : Output) : (s.send o).next = s.next := rfl
@[simp] theorem State.send_fab (s : State) (o : Output) : (s.send o).fab = s.fab := rfl
@[simp] theorem State.send_cs (s : State) (o : Output) : (s.send o).cs = s.cs := rfl
@[simp] theorem State.send_deferred (s : State) (o : Output) : (s.send o).deferred = s.deferred := rfl
@[simp] theorem State.send_sig (s : State) (o : Output) : (s.send o).sig = s.sig := rfl
@[simp] theorem State.send_parts (s : State) (o : Output) : (s.send o).parts = s.parts := rfl
@[simp] theorem State.send_commit (s : State) (o : Output) : (s.send o).commit = s.commit := rfl
@[simp] theorem State.send_loops (s : State) (o : Output) : (s.send o).loops = s.loops := rfl
@[simp] theorem State.send_rings (s : State) (o : Output) : (s.send o).rings = s.rings := rfl
@[simp] theorem State.send_twin (s : State) (o : Output) : (s.send o).twin = s.twin := rfl
@[simp] theorem State.send_time (s : State) (o : Output) : (s.send o).time = s.time := rfl
@[simp] theorem State.send_lines (s : State) (o : Output) : (s.send o).lines = s.lines := rfl
@[simp] theorem State.send_cores (s : State) (o : Output) : (s.send o).cores = s.cores := rfl
@[simp] theorem State.send_loc (s : State) (o : Output) : (s.send o).loc = s.loc := rfl
@[simp] theorem State.send_can (s : State) (o : Output) : (s.send o).can = s.can := rfl
@[simp] theorem State.send_pwr (s : State) (o : Output) : (s.send o).pwr = s.pwr := rfl
@[simp] theorem State.send_mgmt (s : State) (o : Output) : (s.send o).mgmt = s.mgmt := rfl
@[simp] theorem State.send_recd (s : State) (o : Output) : (s.send o).recd = s.recd := rfl
@[simp] theorem State.send_panel (s : State) (o : Output) : (s.send o).panel = s.panel := rfl
@[simp] theorem State.send_now (s : State) (o : Output) : (s.send o).now = s.now := rfl
@[simp] theorem State.send_out (s : State) (o : Output) : (s.send o).out = s.out ++ [o] := rfl
@[simp] theorem State.send_freeCtr (s : State) (o : Output) : (s.send o).freeCtr = s.freeCtr := rfl
@[simp] theorem State.send_pending (s : State) (o : Output) : (s.send o).pending = s.pending := rfl

/-! ## `State.at` -/

@[simp] theorem State.at_regs (s : State) (t : Nat) : (s.at t).regs = s.regs := rfl
@[simp] theorem State.at_latch (s : State) (t : Nat) : (s.at t).latch = s.latch := rfl
@[simp] theorem State.at_mem (s : State) (t : Nat) : (s.at t).mem = s.mem := rfl
@[simp] theorem State.at_flash (s : State) (t : Nat) : (s.at t).flash = s.flash := rfl
@[simp] theorem State.at_nv (s : State) (t : Nat) : (s.at t).nv = s.nv := rfl
@[simp] theorem State.at_keep (s : State) (t : Nat) : (s.at t).keep = s.keep := rfl
@[simp] theorem State.at_img (s : State) (t : Nat) : (s.at t).img = s.img := rfl
@[simp] theorem State.at_next (s : State) (t : Nat) : (s.at t).next = s.next := rfl
@[simp] theorem State.at_fab (s : State) (t : Nat) : (s.at t).fab = s.fab := rfl
@[simp] theorem State.at_cs (s : State) (t : Nat) : (s.at t).cs = s.cs := rfl
@[simp] theorem State.at_deferred (s : State) (t : Nat) : (s.at t).deferred = s.deferred := rfl
@[simp] theorem State.at_sig (s : State) (t : Nat) : (s.at t).sig = s.sig := rfl
@[simp] theorem State.at_parts (s : State) (t : Nat) : (s.at t).parts = s.parts := rfl
@[simp] theorem State.at_commit (s : State) (t : Nat) : (s.at t).commit = s.commit := rfl
@[simp] theorem State.at_loops (s : State) (t : Nat) : (s.at t).loops = s.loops := rfl
@[simp] theorem State.at_rings (s : State) (t : Nat) : (s.at t).rings = s.rings := rfl
@[simp] theorem State.at_twin (s : State) (t : Nat) : (s.at t).twin = s.twin := rfl
@[simp] theorem State.at_time (s : State) (t : Nat) : (s.at t).time = s.time := rfl
@[simp] theorem State.at_lines (s : State) (t : Nat) : (s.at t).lines = s.lines := rfl
@[simp] theorem State.at_cores (s : State) (t : Nat) : (s.at t).cores = s.cores := rfl
@[simp] theorem State.at_loc (s : State) (t : Nat) : (s.at t).loc = s.loc := rfl
@[simp] theorem State.at_can (s : State) (t : Nat) : (s.at t).can = s.can := rfl
@[simp] theorem State.at_pwr (s : State) (t : Nat) : (s.at t).pwr = s.pwr := rfl
@[simp] theorem State.at_mgmt (s : State) (t : Nat) : (s.at t).mgmt = s.mgmt := rfl
@[simp] theorem State.at_recd (s : State) (t : Nat) : (s.at t).recd = s.recd := rfl
@[simp] theorem State.at_panel (s : State) (t : Nat) : (s.at t).panel = s.panel := rfl
@[simp] theorem State.at_now (s : State) (t : Nat) : (s.at t).now = max s.now t := rfl
@[simp] theorem State.at_out (s : State) (t : Nat) : (s.at t).out = s.out := rfl
@[simp] theorem State.at_freeCtr (s : State) (t : Nat) : (s.at t).freeCtr = s.freeCtr := rfl
@[simp] theorem State.at_pending (s : State) (t : Nat) : (s.at t).pending = s.pending := rfl

/-! ## `State.setCore` -/

@[simp] theorem State.setCore_regs (s : State) (c : Nat) (k : CoreState) : (s.setCore c k).regs = s.regs := rfl
@[simp] theorem State.setCore_latch (s : State) (c : Nat) (k : CoreState) : (s.setCore c k).latch = s.latch := rfl
@[simp] theorem State.setCore_mem (s : State) (c : Nat) (k : CoreState) : (s.setCore c k).mem = s.mem := rfl
@[simp] theorem State.setCore_flash (s : State) (c : Nat) (k : CoreState) : (s.setCore c k).flash = s.flash := rfl
@[simp] theorem State.setCore_nv (s : State) (c : Nat) (k : CoreState) : (s.setCore c k).nv = s.nv := rfl
@[simp] theorem State.setCore_keep (s : State) (c : Nat) (k : CoreState) : (s.setCore c k).keep = s.keep := rfl
@[simp] theorem State.setCore_img (s : State) (c : Nat) (k : CoreState) : (s.setCore c k).img = s.img := rfl
@[simp] theorem State.setCore_next (s : State) (c : Nat) (k : CoreState) : (s.setCore c k).next = s.next := rfl
@[simp] theorem State.setCore_fab (s : State) (c : Nat) (k : CoreState) : (s.setCore c k).fab = s.fab := rfl
@[simp] theorem State.setCore_cs (s : State) (c : Nat) (k : CoreState) : (s.setCore c k).cs = s.cs := rfl
@[simp] theorem State.setCore_deferred (s : State) (c : Nat) (k : CoreState) : (s.setCore c k).deferred = s.deferred := rfl
@[simp] theorem State.setCore_sig (s : State) (c : Nat) (k : CoreState) : (s.setCore c k).sig = s.sig := rfl
@[simp] theorem State.setCore_parts (s : State) (c : Nat) (k : CoreState) : (s.setCore c k).parts = s.parts := rfl
@[simp] theorem State.setCore_commit (s : State) (c : Nat) (k : CoreState) : (s.setCore c k).commit = s.commit := rfl
@[simp] theorem State.setCore_loops (s : State) (c : Nat) (k : CoreState) : (s.setCore c k).loops = s.loops := rfl
@[simp] theorem State.setCore_rings (s : State) (c : Nat) (k : CoreState) : (s.setCore c k).rings = s.rings := rfl
@[simp] theorem State.setCore_twin (s : State) (c : Nat) (k : CoreState) : (s.setCore c k).twin = s.twin := rfl
@[simp] theorem State.setCore_time (s : State) (c : Nat) (k : CoreState) : (s.setCore c k).time = s.time := rfl
@[simp] theorem State.setCore_lines (s : State) (c : Nat) (k : CoreState) : (s.setCore c k).lines = s.lines := rfl
@[simp] theorem State.setCore_cores (s : State) (c : Nat) (k : CoreState) : (s.setCore c k).cores = tset {} s.cores c k :=
  rfl
@[simp] theorem State.setCore_loc (s : State) (c : Nat) (k : CoreState) : (s.setCore c k).loc = s.loc := rfl
@[simp] theorem State.setCore_can (s : State) (c : Nat) (k : CoreState) : (s.setCore c k).can = s.can := rfl
@[simp] theorem State.setCore_pwr (s : State) (c : Nat) (k : CoreState) : (s.setCore c k).pwr = s.pwr := rfl
@[simp] theorem State.setCore_mgmt (s : State) (c : Nat) (k : CoreState) : (s.setCore c k).mgmt = s.mgmt := rfl
@[simp] theorem State.setCore_recd (s : State) (c : Nat) (k : CoreState) : (s.setCore c k).recd = s.recd := rfl
@[simp] theorem State.setCore_panel (s : State) (c : Nat) (k : CoreState) : (s.setCore c k).panel = s.panel := rfl
@[simp] theorem State.setCore_now (s : State) (c : Nat) (k : CoreState) : (s.setCore c k).now = s.now := rfl
@[simp] theorem State.setCore_out (s : State) (c : Nat) (k : CoreState) : (s.setCore c k).out = s.out := rfl
@[simp] theorem State.setCore_freeCtr (s : State) (c : Nat) (k : CoreState) : (s.setCore c k).freeCtr = s.freeCtr := rfl
@[simp] theorem State.setCore_pending (s : State) (c : Nat) (k : CoreState) : (s.setCore c k).pending = s.pending := rfl

/-! ## `State.setPart` -/

@[simp] theorem State.setPart_regs (s : State) (p : Nat) (k : PartState) : (s.setPart p k).regs = s.regs := rfl
@[simp] theorem State.setPart_latch (s : State) (p : Nat) (k : PartState) : (s.setPart p k).latch = s.latch := rfl
@[simp] theorem State.setPart_mem (s : State) (p : Nat) (k : PartState) : (s.setPart p k).mem = s.mem := rfl
@[simp] theorem State.setPart_flash (s : State) (p : Nat) (k : PartState) : (s.setPart p k).flash = s.flash := rfl
@[simp] theorem State.setPart_nv (s : State) (p : Nat) (k : PartState) : (s.setPart p k).nv = s.nv := rfl
@[simp] theorem State.setPart_keep (s : State) (p : Nat) (k : PartState) : (s.setPart p k).keep = s.keep := rfl
@[simp] theorem State.setPart_img (s : State) (p : Nat) (k : PartState) : (s.setPart p k).img = s.img := rfl
@[simp] theorem State.setPart_next (s : State) (p : Nat) (k : PartState) : (s.setPart p k).next = s.next := rfl
@[simp] theorem State.setPart_fab (s : State) (p : Nat) (k : PartState) : (s.setPart p k).fab = s.fab := rfl
@[simp] theorem State.setPart_cs (s : State) (p : Nat) (k : PartState) : (s.setPart p k).cs = s.cs := rfl
@[simp] theorem State.setPart_deferred (s : State) (p : Nat) (k : PartState) : (s.setPart p k).deferred = s.deferred := rfl
@[simp] theorem State.setPart_sig (s : State) (p : Nat) (k : PartState) : (s.setPart p k).sig = s.sig := rfl
@[simp] theorem State.setPart_parts (s : State) (p : Nat) (k : PartState) : (s.setPart p k).parts = tset {} s.parts p k :=
  rfl
@[simp] theorem State.setPart_commit (s : State) (p : Nat) (k : PartState) : (s.setPart p k).commit = s.commit := rfl
@[simp] theorem State.setPart_loops (s : State) (p : Nat) (k : PartState) : (s.setPart p k).loops = s.loops := rfl
@[simp] theorem State.setPart_rings (s : State) (p : Nat) (k : PartState) : (s.setPart p k).rings = s.rings := rfl
@[simp] theorem State.setPart_twin (s : State) (p : Nat) (k : PartState) : (s.setPart p k).twin = s.twin := rfl
@[simp] theorem State.setPart_time (s : State) (p : Nat) (k : PartState) : (s.setPart p k).time = s.time := rfl
@[simp] theorem State.setPart_lines (s : State) (p : Nat) (k : PartState) : (s.setPart p k).lines = s.lines := rfl
@[simp] theorem State.setPart_cores (s : State) (p : Nat) (k : PartState) : (s.setPart p k).cores = s.cores := rfl
@[simp] theorem State.setPart_loc (s : State) (p : Nat) (k : PartState) : (s.setPart p k).loc = s.loc := rfl
@[simp] theorem State.setPart_can (s : State) (p : Nat) (k : PartState) : (s.setPart p k).can = s.can := rfl
@[simp] theorem State.setPart_pwr (s : State) (p : Nat) (k : PartState) : (s.setPart p k).pwr = s.pwr := rfl
@[simp] theorem State.setPart_mgmt (s : State) (p : Nat) (k : PartState) : (s.setPart p k).mgmt = s.mgmt := rfl
@[simp] theorem State.setPart_recd (s : State) (p : Nat) (k : PartState) : (s.setPart p k).recd = s.recd := rfl
@[simp] theorem State.setPart_panel (s : State) (p : Nat) (k : PartState) : (s.setPart p k).panel = s.panel := rfl
@[simp] theorem State.setPart_now (s : State) (p : Nat) (k : PartState) : (s.setPart p k).now = s.now := rfl
@[simp] theorem State.setPart_out (s : State) (p : Nat) (k : PartState) : (s.setPart p k).out = s.out := rfl
@[simp] theorem State.setPart_freeCtr (s : State) (p : Nat) (k : PartState) : (s.setPart p k).freeCtr = s.freeCtr := rfl
@[simp] theorem State.setPart_pending (s : State) (p : Nat) (k : PartState) : (s.setPart p k).pending = s.pending := rfl

/-! ## `State.setRing` -/

@[simp] theorem State.setRing_regs (s : State) (r : Nat) (k : RingState) : (s.setRing r k).regs = s.regs := rfl
@[simp] theorem State.setRing_latch (s : State) (r : Nat) (k : RingState) : (s.setRing r k).latch = s.latch := rfl
@[simp] theorem State.setRing_mem (s : State) (r : Nat) (k : RingState) : (s.setRing r k).mem = s.mem := rfl
@[simp] theorem State.setRing_flash (s : State) (r : Nat) (k : RingState) : (s.setRing r k).flash = s.flash := rfl
@[simp] theorem State.setRing_nv (s : State) (r : Nat) (k : RingState) : (s.setRing r k).nv = s.nv := rfl
@[simp] theorem State.setRing_keep (s : State) (r : Nat) (k : RingState) : (s.setRing r k).keep = s.keep := rfl
@[simp] theorem State.setRing_img (s : State) (r : Nat) (k : RingState) : (s.setRing r k).img = s.img := rfl
@[simp] theorem State.setRing_next (s : State) (r : Nat) (k : RingState) : (s.setRing r k).next = s.next := rfl
@[simp] theorem State.setRing_fab (s : State) (r : Nat) (k : RingState) : (s.setRing r k).fab = s.fab := rfl
@[simp] theorem State.setRing_cs (s : State) (r : Nat) (k : RingState) : (s.setRing r k).cs = s.cs := rfl
@[simp] theorem State.setRing_deferred (s : State) (r : Nat) (k : RingState) : (s.setRing r k).deferred = s.deferred := rfl
@[simp] theorem State.setRing_sig (s : State) (r : Nat) (k : RingState) : (s.setRing r k).sig = s.sig := rfl
@[simp] theorem State.setRing_parts (s : State) (r : Nat) (k : RingState) : (s.setRing r k).parts = s.parts := rfl
@[simp] theorem State.setRing_commit (s : State) (r : Nat) (k : RingState) : (s.setRing r k).commit = s.commit := rfl
@[simp] theorem State.setRing_loops (s : State) (r : Nat) (k : RingState) : (s.setRing r k).loops = s.loops := rfl
@[simp] theorem State.setRing_rings (s : State) (r : Nat) (k : RingState) : (s.setRing r k).rings = tset {} s.rings r k :=
  rfl
@[simp] theorem State.setRing_twin (s : State) (r : Nat) (k : RingState) : (s.setRing r k).twin = s.twin := rfl
@[simp] theorem State.setRing_time (s : State) (r : Nat) (k : RingState) : (s.setRing r k).time = s.time := rfl
@[simp] theorem State.setRing_lines (s : State) (r : Nat) (k : RingState) : (s.setRing r k).lines = s.lines := rfl
@[simp] theorem State.setRing_cores (s : State) (r : Nat) (k : RingState) : (s.setRing r k).cores = s.cores := rfl
@[simp] theorem State.setRing_loc (s : State) (r : Nat) (k : RingState) : (s.setRing r k).loc = s.loc := rfl
@[simp] theorem State.setRing_can (s : State) (r : Nat) (k : RingState) : (s.setRing r k).can = s.can := rfl
@[simp] theorem State.setRing_pwr (s : State) (r : Nat) (k : RingState) : (s.setRing r k).pwr = s.pwr := rfl
@[simp] theorem State.setRing_mgmt (s : State) (r : Nat) (k : RingState) : (s.setRing r k).mgmt = s.mgmt := rfl
@[simp] theorem State.setRing_recd (s : State) (r : Nat) (k : RingState) : (s.setRing r k).recd = s.recd := rfl
@[simp] theorem State.setRing_panel (s : State) (r : Nat) (k : RingState) : (s.setRing r k).panel = s.panel := rfl
@[simp] theorem State.setRing_now (s : State) (r : Nat) (k : RingState) : (s.setRing r k).now = s.now := rfl
@[simp] theorem State.setRing_out (s : State) (r : Nat) (k : RingState) : (s.setRing r k).out = s.out := rfl
@[simp] theorem State.setRing_freeCtr (s : State) (r : Nat) (k : RingState) : (s.setRing r k).freeCtr = s.freeCtr := rfl
@[simp] theorem State.setRing_pending (s : State) (r : Nat) (k : RingState) : (s.setRing r k).pending = s.pending := rfl

/-! ## `State.setSlot` -/

@[simp] theorem State.setSlot_regs (s : State) (i : Nat) (k : SlotDyn) : (s.setSlot i k).regs = s.regs := rfl
@[simp] theorem State.setSlot_latch (s : State) (i : Nat) (k : SlotDyn) : (s.setSlot i k).latch = s.latch := rfl
@[simp] theorem State.setSlot_mem (s : State) (i : Nat) (k : SlotDyn) : (s.setSlot i k).mem = s.mem := rfl
@[simp] theorem State.setSlot_flash (s : State) (i : Nat) (k : SlotDyn) : (s.setSlot i k).flash = s.flash := rfl
@[simp] theorem State.setSlot_nv (s : State) (i : Nat) (k : SlotDyn) : (s.setSlot i k).nv = s.nv := rfl
@[simp] theorem State.setSlot_keep (s : State) (i : Nat) (k : SlotDyn) : (s.setSlot i k).keep = s.keep := rfl
@[simp] theorem State.setSlot_img (s : State) (i : Nat) (k : SlotDyn) : (s.setSlot i k).img = s.img := rfl
@[simp] theorem State.setSlot_next (s : State) (i : Nat) (k : SlotDyn) : (s.setSlot i k).next = s.next := rfl
@[simp] theorem State.setSlot_fab (s : State) (i : Nat) (k : SlotDyn) : (s.setSlot i k).fab = s.fab := rfl
@[simp] theorem State.setSlot_cs (s : State) (i : Nat) (k : SlotDyn) : (s.setSlot i k).cs = s.cs := rfl
@[simp] theorem State.setSlot_deferred (s : State) (i : Nat) (k : SlotDyn) : (s.setSlot i k).deferred = s.deferred := rfl
@[simp] theorem State.setSlot_sig (s : State) (i : Nat) (k : SlotDyn) : (s.setSlot i k).sig = s.sig := rfl
@[simp] theorem State.setSlot_parts (s : State) (i : Nat) (k : SlotDyn) : (s.setSlot i k).parts = s.parts := rfl
@[simp] theorem State.setSlot_commit (s : State) (i : Nat) (k : SlotDyn) : (s.setSlot i k).commit = s.commit := rfl
@[simp] theorem State.setSlot_loops (s : State) (i : Nat) (k : SlotDyn) : (s.setSlot i k).loops = { s.loops with slots := tset {} s.loops.slots i k } :=
  rfl
@[simp] theorem State.setSlot_rings (s : State) (i : Nat) (k : SlotDyn) : (s.setSlot i k).rings = s.rings := rfl
@[simp] theorem State.setSlot_twin (s : State) (i : Nat) (k : SlotDyn) : (s.setSlot i k).twin = s.twin := rfl
@[simp] theorem State.setSlot_time (s : State) (i : Nat) (k : SlotDyn) : (s.setSlot i k).time = s.time := rfl
@[simp] theorem State.setSlot_lines (s : State) (i : Nat) (k : SlotDyn) : (s.setSlot i k).lines = s.lines := rfl
@[simp] theorem State.setSlot_cores (s : State) (i : Nat) (k : SlotDyn) : (s.setSlot i k).cores = s.cores := rfl
@[simp] theorem State.setSlot_loc (s : State) (i : Nat) (k : SlotDyn) : (s.setSlot i k).loc = s.loc := rfl
@[simp] theorem State.setSlot_can (s : State) (i : Nat) (k : SlotDyn) : (s.setSlot i k).can = s.can := rfl
@[simp] theorem State.setSlot_pwr (s : State) (i : Nat) (k : SlotDyn) : (s.setSlot i k).pwr = s.pwr := rfl
@[simp] theorem State.setSlot_mgmt (s : State) (i : Nat) (k : SlotDyn) : (s.setSlot i k).mgmt = s.mgmt := rfl
@[simp] theorem State.setSlot_recd (s : State) (i : Nat) (k : SlotDyn) : (s.setSlot i k).recd = s.recd := rfl
@[simp] theorem State.setSlot_panel (s : State) (i : Nat) (k : SlotDyn) : (s.setSlot i k).panel = s.panel := rfl
@[simp] theorem State.setSlot_now (s : State) (i : Nat) (k : SlotDyn) : (s.setSlot i k).now = s.now := rfl
@[simp] theorem State.setSlot_out (s : State) (i : Nat) (k : SlotDyn) : (s.setSlot i k).out = s.out := rfl
@[simp] theorem State.setSlot_freeCtr (s : State) (i : Nat) (k : SlotDyn) : (s.setSlot i k).freeCtr = s.freeCtr := rfl
@[simp] theorem State.setSlot_pending (s : State) (i : Nat) (k : SlotDyn) : (s.setSlot i k).pending = s.pending := rfl

/-! ## `State.setCan` -/

@[simp] theorem State.setCan_regs (s : State) (c : Nat) (k : CanState) : (s.setCan c k).regs = s.regs := rfl
@[simp] theorem State.setCan_latch (s : State) (c : Nat) (k : CanState) : (s.setCan c k).latch = s.latch := rfl
@[simp] theorem State.setCan_mem (s : State) (c : Nat) (k : CanState) : (s.setCan c k).mem = s.mem := rfl
@[simp] theorem State.setCan_flash (s : State) (c : Nat) (k : CanState) : (s.setCan c k).flash = s.flash := rfl
@[simp] theorem State.setCan_nv (s : State) (c : Nat) (k : CanState) : (s.setCan c k).nv = s.nv := rfl
@[simp] theorem State.setCan_keep (s : State) (c : Nat) (k : CanState) : (s.setCan c k).keep = s.keep := rfl
@[simp] theorem State.setCan_img (s : State) (c : Nat) (k : CanState) : (s.setCan c k).img = s.img := rfl
@[simp] theorem State.setCan_next (s : State) (c : Nat) (k : CanState) : (s.setCan c k).next = s.next := rfl
@[simp] theorem State.setCan_fab (s : State) (c : Nat) (k : CanState) : (s.setCan c k).fab = s.fab := rfl
@[simp] theorem State.setCan_cs (s : State) (c : Nat) (k : CanState) : (s.setCan c k).cs = s.cs := rfl
@[simp] theorem State.setCan_deferred (s : State) (c : Nat) (k : CanState) : (s.setCan c k).deferred = s.deferred := rfl
@[simp] theorem State.setCan_sig (s : State) (c : Nat) (k : CanState) : (s.setCan c k).sig = s.sig := rfl
@[simp] theorem State.setCan_parts (s : State) (c : Nat) (k : CanState) : (s.setCan c k).parts = s.parts := rfl
@[simp] theorem State.setCan_commit (s : State) (c : Nat) (k : CanState) : (s.setCan c k).commit = s.commit := rfl
@[simp] theorem State.setCan_loops (s : State) (c : Nat) (k : CanState) : (s.setCan c k).loops = s.loops := rfl
@[simp] theorem State.setCan_rings (s : State) (c : Nat) (k : CanState) : (s.setCan c k).rings = s.rings := rfl
@[simp] theorem State.setCan_twin (s : State) (c : Nat) (k : CanState) : (s.setCan c k).twin = s.twin := rfl
@[simp] theorem State.setCan_time (s : State) (c : Nat) (k : CanState) : (s.setCan c k).time = s.time := rfl
@[simp] theorem State.setCan_lines (s : State) (c : Nat) (k : CanState) : (s.setCan c k).lines = s.lines := rfl
@[simp] theorem State.setCan_cores (s : State) (c : Nat) (k : CanState) : (s.setCan c k).cores = s.cores := rfl
@[simp] theorem State.setCan_loc (s : State) (c : Nat) (k : CanState) : (s.setCan c k).loc = s.loc := rfl
@[simp] theorem State.setCan_can (s : State) (c : Nat) (k : CanState) : (s.setCan c k).can = tset {} s.can c k := rfl
@[simp] theorem State.setCan_pwr (s : State) (c : Nat) (k : CanState) : (s.setCan c k).pwr = s.pwr := rfl
@[simp] theorem State.setCan_mgmt (s : State) (c : Nat) (k : CanState) : (s.setCan c k).mgmt = s.mgmt := rfl
@[simp] theorem State.setCan_recd (s : State) (c : Nat) (k : CanState) : (s.setCan c k).recd = s.recd := rfl
@[simp] theorem State.setCan_panel (s : State) (c : Nat) (k : CanState) : (s.setCan c k).panel = s.panel := rfl
@[simp] theorem State.setCan_now (s : State) (c : Nat) (k : CanState) : (s.setCan c k).now = s.now := rfl
@[simp] theorem State.setCan_out (s : State) (c : Nat) (k : CanState) : (s.setCan c k).out = s.out := rfl
@[simp] theorem State.setCan_freeCtr (s : State) (c : Nat) (k : CanState) : (s.setCan c k).freeCtr = s.freeCtr := rfl
@[simp] theorem State.setCan_pending (s : State) (c : Nat) (k : CanState) : (s.setCan c k).pending = s.pending := rfl

/-! ## `State.setSession` -/

@[simp] theorem State.setSession_regs (s : State) (n : Nat) (k : Option Session) : (s.setSession n k).regs = s.regs := rfl
@[simp] theorem State.setSession_latch (s : State) (n : Nat) (k : Option Session) : (s.setSession n k).latch = s.latch := rfl
@[simp] theorem State.setSession_mem (s : State) (n : Nat) (k : Option Session) : (s.setSession n k).mem = s.mem := rfl
@[simp] theorem State.setSession_flash (s : State) (n : Nat) (k : Option Session) : (s.setSession n k).flash = s.flash := rfl
@[simp] theorem State.setSession_nv (s : State) (n : Nat) (k : Option Session) : (s.setSession n k).nv = s.nv := rfl
@[simp] theorem State.setSession_keep (s : State) (n : Nat) (k : Option Session) : (s.setSession n k).keep = s.keep := rfl
@[simp] theorem State.setSession_img (s : State) (n : Nat) (k : Option Session) : (s.setSession n k).img = s.img := rfl
@[simp] theorem State.setSession_next (s : State) (n : Nat) (k : Option Session) : (s.setSession n k).next = s.next := rfl
@[simp] theorem State.setSession_fab (s : State) (n : Nat) (k : Option Session) : (s.setSession n k).fab = s.fab := rfl
@[simp] theorem State.setSession_cs (s : State) (n : Nat) (k : Option Session) : (s.setSession n k).cs = s.cs := rfl
@[simp] theorem State.setSession_deferred (s : State) (n : Nat) (k : Option Session) : (s.setSession n k).deferred = s.deferred :=
  rfl
@[simp] theorem State.setSession_sig (s : State) (n : Nat) (k : Option Session) : (s.setSession n k).sig = s.sig := rfl
@[simp] theorem State.setSession_parts (s : State) (n : Nat) (k : Option Session) : (s.setSession n k).parts = s.parts := rfl
@[simp] theorem State.setSession_commit (s : State) (n : Nat) (k : Option Session) : (s.setSession n k).commit = s.commit :=
  rfl
@[simp] theorem State.setSession_loops (s : State) (n : Nat) (k : Option Session) : (s.setSession n k).loops = s.loops := rfl
@[simp] theorem State.setSession_rings (s : State) (n : Nat) (k : Option Session) : (s.setSession n k).rings = s.rings := rfl
@[simp] theorem State.setSession_twin (s : State) (n : Nat) (k : Option Session) : (s.setSession n k).twin = s.twin := rfl
@[simp] theorem State.setSession_time (s : State) (n : Nat) (k : Option Session) : (s.setSession n k).time = s.time := rfl
@[simp] theorem State.setSession_lines (s : State) (n : Nat) (k : Option Session) : (s.setSession n k).lines = s.lines := rfl
@[simp] theorem State.setSession_cores (s : State) (n : Nat) (k : Option Session) : (s.setSession n k).cores = s.cores := rfl
@[simp] theorem State.setSession_loc (s : State) (n : Nat) (k : Option Session) : (s.setSession n k).loc = s.loc := rfl
@[simp] theorem State.setSession_can (s : State) (n : Nat) (k : Option Session) : (s.setSession n k).can = s.can := rfl
@[simp] theorem State.setSession_pwr (s : State) (n : Nat) (k : Option Session) : (s.setSession n k).pwr = s.pwr := rfl
@[simp] theorem State.setSession_mgmt (s : State) (n : Nat) (k : Option Session) : (s.setSession n k).mgmt = { s.mgmt with sessions := tset none s.mgmt.sessions n k } :=
  rfl
@[simp] theorem State.setSession_recd (s : State) (n : Nat) (k : Option Session) : (s.setSession n k).recd = s.recd := rfl
@[simp] theorem State.setSession_panel (s : State) (n : Nat) (k : Option Session) : (s.setSession n k).panel = s.panel := rfl
@[simp] theorem State.setSession_now (s : State) (n : Nat) (k : Option Session) : (s.setSession n k).now = s.now := rfl
@[simp] theorem State.setSession_out (s : State) (n : Nat) (k : Option Session) : (s.setSession n k).out = s.out := rfl
@[simp] theorem State.setSession_freeCtr (s : State) (n : Nat) (k : Option Session) : (s.setSession n k).freeCtr = s.freeCtr :=
  rfl
@[simp] theorem State.setSession_pending (s : State) (n : Nat) (k : Option Session) : (s.setSession n k).pending = s.pending :=
  rfl

/-! ## `State.setSub` -/

@[simp] theorem State.setSub_regs (s : State) (i : Nat) (k : SubState) : (s.setSub i k).regs = s.regs := rfl
@[simp] theorem State.setSub_latch (s : State) (i : Nat) (k : SubState) : (s.setSub i k).latch = s.latch := rfl
@[simp] theorem State.setSub_mem (s : State) (i : Nat) (k : SubState) : (s.setSub i k).mem = s.mem := rfl
@[simp] theorem State.setSub_flash (s : State) (i : Nat) (k : SubState) : (s.setSub i k).flash = s.flash := rfl
@[simp] theorem State.setSub_nv (s : State) (i : Nat) (k : SubState) : (s.setSub i k).nv = s.nv := rfl
@[simp] theorem State.setSub_keep (s : State) (i : Nat) (k : SubState) : (s.setSub i k).keep = s.keep := rfl
@[simp] theorem State.setSub_img (s : State) (i : Nat) (k : SubState) : (s.setSub i k).img = s.img := rfl
@[simp] theorem State.setSub_next (s : State) (i : Nat) (k : SubState) : (s.setSub i k).next = s.next := rfl
@[simp] theorem State.setSub_fab (s : State) (i : Nat) (k : SubState) : (s.setSub i k).fab = s.fab := rfl
@[simp] theorem State.setSub_cs (s : State) (i : Nat) (k : SubState) : (s.setSub i k).cs = s.cs := rfl
@[simp] theorem State.setSub_deferred (s : State) (i : Nat) (k : SubState) : (s.setSub i k).deferred = s.deferred := rfl
@[simp] theorem State.setSub_sig (s : State) (i : Nat) (k : SubState) : (s.setSub i k).sig = s.sig := rfl
@[simp] theorem State.setSub_parts (s : State) (i : Nat) (k : SubState) : (s.setSub i k).parts = s.parts := rfl
@[simp] theorem State.setSub_commit (s : State) (i : Nat) (k : SubState) : (s.setSub i k).commit = s.commit := rfl
@[simp] theorem State.setSub_loops (s : State) (i : Nat) (k : SubState) : (s.setSub i k).loops = s.loops := rfl
@[simp] theorem State.setSub_rings (s : State) (i : Nat) (k : SubState) : (s.setSub i k).rings = s.rings := rfl
@[simp] theorem State.setSub_twin (s : State) (i : Nat) (k : SubState) : (s.setSub i k).twin = s.twin := rfl
@[simp] theorem State.setSub_time (s : State) (i : Nat) (k : SubState) : (s.setSub i k).time = s.time := rfl
@[simp] theorem State.setSub_lines (s : State) (i : Nat) (k : SubState) : (s.setSub i k).lines = { s.lines with subs := tset {} s.lines.subs i k } :=
  rfl
@[simp] theorem State.setSub_cores (s : State) (i : Nat) (k : SubState) : (s.setSub i k).cores = s.cores := rfl
@[simp] theorem State.setSub_loc (s : State) (i : Nat) (k : SubState) : (s.setSub i k).loc = s.loc := rfl
@[simp] theorem State.setSub_can (s : State) (i : Nat) (k : SubState) : (s.setSub i k).can = s.can := rfl
@[simp] theorem State.setSub_pwr (s : State) (i : Nat) (k : SubState) : (s.setSub i k).pwr = s.pwr := rfl
@[simp] theorem State.setSub_mgmt (s : State) (i : Nat) (k : SubState) : (s.setSub i k).mgmt = s.mgmt := rfl
@[simp] theorem State.setSub_recd (s : State) (i : Nat) (k : SubState) : (s.setSub i k).recd = s.recd := rfl
@[simp] theorem State.setSub_panel (s : State) (i : Nat) (k : SubState) : (s.setSub i k).panel = s.panel := rfl
@[simp] theorem State.setSub_now (s : State) (i : Nat) (k : SubState) : (s.setSub i k).now = s.now := rfl
@[simp] theorem State.setSub_out (s : State) (i : Nat) (k : SubState) : (s.setSub i k).out = s.out := rfl
@[simp] theorem State.setSub_freeCtr (s : State) (i : Nat) (k : SubState) : (s.setSub i k).freeCtr = s.freeCtr := rfl
@[simp] theorem State.setSub_pending (s : State) (i : Nat) (k : SubState) : (s.setSub i k).pending = s.pending := rfl

/-! ## `State.tw` -/

@[simp] theorem State.tw_regs (s : State) (f : TwinState → TwinState) : (s.tw f).regs = s.regs := rfl
@[simp] theorem State.tw_latch (s : State) (f : TwinState → TwinState) : (s.tw f).latch = s.latch := rfl
@[simp] theorem State.tw_mem (s : State) (f : TwinState → TwinState) : (s.tw f).mem = s.mem := rfl
@[simp] theorem State.tw_flash (s : State) (f : TwinState → TwinState) : (s.tw f).flash = s.flash := rfl
@[simp] theorem State.tw_nv (s : State) (f : TwinState → TwinState) : (s.tw f).nv = s.nv := rfl
@[simp] theorem State.tw_keep (s : State) (f : TwinState → TwinState) : (s.tw f).keep = s.keep := rfl
@[simp] theorem State.tw_img (s : State) (f : TwinState → TwinState) : (s.tw f).img = s.img := rfl
@[simp] theorem State.tw_next (s : State) (f : TwinState → TwinState) : (s.tw f).next = s.next := rfl
@[simp] theorem State.tw_fab (s : State) (f : TwinState → TwinState) : (s.tw f).fab = s.fab := rfl
@[simp] theorem State.tw_cs (s : State) (f : TwinState → TwinState) : (s.tw f).cs = s.cs := rfl
@[simp] theorem State.tw_deferred (s : State) (f : TwinState → TwinState) : (s.tw f).deferred = s.deferred := rfl
@[simp] theorem State.tw_sig (s : State) (f : TwinState → TwinState) : (s.tw f).sig = s.sig := rfl
@[simp] theorem State.tw_parts (s : State) (f : TwinState → TwinState) : (s.tw f).parts = s.parts := rfl
@[simp] theorem State.tw_commit (s : State) (f : TwinState → TwinState) : (s.tw f).commit = s.commit := rfl
@[simp] theorem State.tw_loops (s : State) (f : TwinState → TwinState) : (s.tw f).loops = s.loops := rfl
@[simp] theorem State.tw_rings (s : State) (f : TwinState → TwinState) : (s.tw f).rings = s.rings := rfl
@[simp] theorem State.tw_twin (s : State) (f : TwinState → TwinState) : (s.tw f).twin = f s.twin := rfl
@[simp] theorem State.tw_time (s : State) (f : TwinState → TwinState) : (s.tw f).time = s.time := rfl
@[simp] theorem State.tw_lines (s : State) (f : TwinState → TwinState) : (s.tw f).lines = s.lines := rfl
@[simp] theorem State.tw_cores (s : State) (f : TwinState → TwinState) : (s.tw f).cores = s.cores := rfl
@[simp] theorem State.tw_loc (s : State) (f : TwinState → TwinState) : (s.tw f).loc = s.loc := rfl
@[simp] theorem State.tw_can (s : State) (f : TwinState → TwinState) : (s.tw f).can = s.can := rfl
@[simp] theorem State.tw_pwr (s : State) (f : TwinState → TwinState) : (s.tw f).pwr = s.pwr := rfl
@[simp] theorem State.tw_mgmt (s : State) (f : TwinState → TwinState) : (s.tw f).mgmt = s.mgmt := rfl
@[simp] theorem State.tw_recd (s : State) (f : TwinState → TwinState) : (s.tw f).recd = s.recd := rfl
@[simp] theorem State.tw_panel (s : State) (f : TwinState → TwinState) : (s.tw f).panel = s.panel := rfl
@[simp] theorem State.tw_now (s : State) (f : TwinState → TwinState) : (s.tw f).now = s.now := rfl
@[simp] theorem State.tw_out (s : State) (f : TwinState → TwinState) : (s.tw f).out = s.out := rfl
@[simp] theorem State.tw_freeCtr (s : State) (f : TwinState → TwinState) : (s.tw f).freeCtr = s.freeCtr := rfl
@[simp] theorem State.tw_pending (s : State) (f : TwinState → TwinState) : (s.tw f).pending = s.pending := rfl

/-! ## `State.inNv` -/

@[simp] theorem State.inNv_regs (s : State) (f : Nv → Nv) : (s.inNv f).regs = s.regs := rfl
@[simp] theorem State.inNv_latch (s : State) (f : Nv → Nv) : (s.inNv f).latch = s.latch := rfl
@[simp] theorem State.inNv_mem (s : State) (f : Nv → Nv) : (s.inNv f).mem = s.mem := rfl
@[simp] theorem State.inNv_flash (s : State) (f : Nv → Nv) : (s.inNv f).flash = s.flash := rfl
@[simp] theorem State.inNv_nv (s : State) (f : Nv → Nv) : (s.inNv f).nv = f s.nv := rfl
@[simp] theorem State.inNv_keep (s : State) (f : Nv → Nv) : (s.inNv f).keep = s.keep := rfl
@[simp] theorem State.inNv_img (s : State) (f : Nv → Nv) : (s.inNv f).img = s.img := rfl
@[simp] theorem State.inNv_next (s : State) (f : Nv → Nv) : (s.inNv f).next = s.next := rfl
@[simp] theorem State.inNv_fab (s : State) (f : Nv → Nv) : (s.inNv f).fab = s.fab := rfl
@[simp] theorem State.inNv_cs (s : State) (f : Nv → Nv) : (s.inNv f).cs = s.cs := rfl
@[simp] theorem State.inNv_deferred (s : State) (f : Nv → Nv) : (s.inNv f).deferred = s.deferred := rfl
@[simp] theorem State.inNv_sig (s : State) (f : Nv → Nv) : (s.inNv f).sig = s.sig := rfl
@[simp] theorem State.inNv_parts (s : State) (f : Nv → Nv) : (s.inNv f).parts = s.parts := rfl
@[simp] theorem State.inNv_commit (s : State) (f : Nv → Nv) : (s.inNv f).commit = s.commit := rfl
@[simp] theorem State.inNv_loops (s : State) (f : Nv → Nv) : (s.inNv f).loops = s.loops := rfl
@[simp] theorem State.inNv_rings (s : State) (f : Nv → Nv) : (s.inNv f).rings = s.rings := rfl
@[simp] theorem State.inNv_twin (s : State) (f : Nv → Nv) : (s.inNv f).twin = s.twin := rfl
@[simp] theorem State.inNv_time (s : State) (f : Nv → Nv) : (s.inNv f).time = s.time := rfl
@[simp] theorem State.inNv_lines (s : State) (f : Nv → Nv) : (s.inNv f).lines = s.lines := rfl
@[simp] theorem State.inNv_cores (s : State) (f : Nv → Nv) : (s.inNv f).cores = s.cores := rfl
@[simp] theorem State.inNv_loc (s : State) (f : Nv → Nv) : (s.inNv f).loc = s.loc := rfl
@[simp] theorem State.inNv_can (s : State) (f : Nv → Nv) : (s.inNv f).can = s.can := rfl
@[simp] theorem State.inNv_pwr (s : State) (f : Nv → Nv) : (s.inNv f).pwr = s.pwr := rfl
@[simp] theorem State.inNv_mgmt (s : State) (f : Nv → Nv) : (s.inNv f).mgmt = s.mgmt := rfl
@[simp] theorem State.inNv_recd (s : State) (f : Nv → Nv) : (s.inNv f).recd = s.recd := rfl
@[simp] theorem State.inNv_panel (s : State) (f : Nv → Nv) : (s.inNv f).panel = s.panel := rfl
@[simp] theorem State.inNv_now (s : State) (f : Nv → Nv) : (s.inNv f).now = s.now := rfl
@[simp] theorem State.inNv_out (s : State) (f : Nv → Nv) : (s.inNv f).out = s.out := rfl
@[simp] theorem State.inNv_freeCtr (s : State) (f : Nv → Nv) : (s.inNv f).freeCtr = s.freeCtr := rfl
@[simp] theorem State.inNv_pending (s : State) (f : Nv → Nv) : (s.inNv f).pending = s.pending := rfl

/-! ## `State.tm` -/

@[simp] theorem State.tm_regs (s : State) (f : TimeState → TimeState) : (s.tm f).regs = s.regs := rfl
@[simp] theorem State.tm_latch (s : State) (f : TimeState → TimeState) : (s.tm f).latch = s.latch := rfl
@[simp] theorem State.tm_mem (s : State) (f : TimeState → TimeState) : (s.tm f).mem = s.mem := rfl
@[simp] theorem State.tm_flash (s : State) (f : TimeState → TimeState) : (s.tm f).flash = s.flash := rfl
@[simp] theorem State.tm_nv (s : State) (f : TimeState → TimeState) : (s.tm f).nv = s.nv := rfl
@[simp] theorem State.tm_keep (s : State) (f : TimeState → TimeState) : (s.tm f).keep = s.keep := rfl
@[simp] theorem State.tm_img (s : State) (f : TimeState → TimeState) : (s.tm f).img = s.img := rfl
@[simp] theorem State.tm_next (s : State) (f : TimeState → TimeState) : (s.tm f).next = s.next := rfl
@[simp] theorem State.tm_fab (s : State) (f : TimeState → TimeState) : (s.tm f).fab = s.fab := rfl
@[simp] theorem State.tm_cs (s : State) (f : TimeState → TimeState) : (s.tm f).cs = s.cs := rfl
@[simp] theorem State.tm_deferred (s : State) (f : TimeState → TimeState) : (s.tm f).deferred = s.deferred := rfl
@[simp] theorem State.tm_sig (s : State) (f : TimeState → TimeState) : (s.tm f).sig = s.sig := rfl
@[simp] theorem State.tm_parts (s : State) (f : TimeState → TimeState) : (s.tm f).parts = s.parts := rfl
@[simp] theorem State.tm_commit (s : State) (f : TimeState → TimeState) : (s.tm f).commit = s.commit := rfl
@[simp] theorem State.tm_loops (s : State) (f : TimeState → TimeState) : (s.tm f).loops = s.loops := rfl
@[simp] theorem State.tm_rings (s : State) (f : TimeState → TimeState) : (s.tm f).rings = s.rings := rfl
@[simp] theorem State.tm_twin (s : State) (f : TimeState → TimeState) : (s.tm f).twin = s.twin := rfl
@[simp] theorem State.tm_time (s : State) (f : TimeState → TimeState) : (s.tm f).time = f s.time := rfl
@[simp] theorem State.tm_lines (s : State) (f : TimeState → TimeState) : (s.tm f).lines = s.lines := rfl
@[simp] theorem State.tm_cores (s : State) (f : TimeState → TimeState) : (s.tm f).cores = s.cores := rfl
@[simp] theorem State.tm_loc (s : State) (f : TimeState → TimeState) : (s.tm f).loc = s.loc := rfl
@[simp] theorem State.tm_can (s : State) (f : TimeState → TimeState) : (s.tm f).can = s.can := rfl
@[simp] theorem State.tm_pwr (s : State) (f : TimeState → TimeState) : (s.tm f).pwr = s.pwr := rfl
@[simp] theorem State.tm_mgmt (s : State) (f : TimeState → TimeState) : (s.tm f).mgmt = s.mgmt := rfl
@[simp] theorem State.tm_recd (s : State) (f : TimeState → TimeState) : (s.tm f).recd = s.recd := rfl
@[simp] theorem State.tm_panel (s : State) (f : TimeState → TimeState) : (s.tm f).panel = s.panel := rfl
@[simp] theorem State.tm_now (s : State) (f : TimeState → TimeState) : (s.tm f).now = s.now := rfl
@[simp] theorem State.tm_out (s : State) (f : TimeState → TimeState) : (s.tm f).out = s.out := rfl
@[simp] theorem State.tm_freeCtr (s : State) (f : TimeState → TimeState) : (s.tm f).freeCtr = s.freeCtr := rfl
@[simp] theorem State.tm_pending (s : State) (f : TimeState → TimeState) : (s.tm f).pending = s.pending := rfl

/-! ## `State.lo` -/

@[simp] theorem State.lo_regs (s : State) (f : LocalState → LocalState) : (s.lo f).regs = s.regs := rfl
@[simp] theorem State.lo_latch (s : State) (f : LocalState → LocalState) : (s.lo f).latch = s.latch := rfl
@[simp] theorem State.lo_mem (s : State) (f : LocalState → LocalState) : (s.lo f).mem = s.mem := rfl
@[simp] theorem State.lo_flash (s : State) (f : LocalState → LocalState) : (s.lo f).flash = s.flash := rfl
@[simp] theorem State.lo_nv (s : State) (f : LocalState → LocalState) : (s.lo f).nv = s.nv := rfl
@[simp] theorem State.lo_keep (s : State) (f : LocalState → LocalState) : (s.lo f).keep = s.keep := rfl
@[simp] theorem State.lo_img (s : State) (f : LocalState → LocalState) : (s.lo f).img = s.img := rfl
@[simp] theorem State.lo_next (s : State) (f : LocalState → LocalState) : (s.lo f).next = s.next := rfl
@[simp] theorem State.lo_fab (s : State) (f : LocalState → LocalState) : (s.lo f).fab = s.fab := rfl
@[simp] theorem State.lo_cs (s : State) (f : LocalState → LocalState) : (s.lo f).cs = s.cs := rfl
@[simp] theorem State.lo_deferred (s : State) (f : LocalState → LocalState) : (s.lo f).deferred = s.deferred := rfl
@[simp] theorem State.lo_sig (s : State) (f : LocalState → LocalState) : (s.lo f).sig = s.sig := rfl
@[simp] theorem State.lo_parts (s : State) (f : LocalState → LocalState) : (s.lo f).parts = s.parts := rfl
@[simp] theorem State.lo_commit (s : State) (f : LocalState → LocalState) : (s.lo f).commit = s.commit := rfl
@[simp] theorem State.lo_loops (s : State) (f : LocalState → LocalState) : (s.lo f).loops = s.loops := rfl
@[simp] theorem State.lo_rings (s : State) (f : LocalState → LocalState) : (s.lo f).rings = s.rings := rfl
@[simp] theorem State.lo_twin (s : State) (f : LocalState → LocalState) : (s.lo f).twin = s.twin := rfl
@[simp] theorem State.lo_time (s : State) (f : LocalState → LocalState) : (s.lo f).time = s.time := rfl
@[simp] theorem State.lo_lines (s : State) (f : LocalState → LocalState) : (s.lo f).lines = s.lines := rfl
@[simp] theorem State.lo_cores (s : State) (f : LocalState → LocalState) : (s.lo f).cores = s.cores := rfl
@[simp] theorem State.lo_loc (s : State) (f : LocalState → LocalState) : (s.lo f).loc = f s.loc := rfl
@[simp] theorem State.lo_can (s : State) (f : LocalState → LocalState) : (s.lo f).can = s.can := rfl
@[simp] theorem State.lo_pwr (s : State) (f : LocalState → LocalState) : (s.lo f).pwr = s.pwr := rfl
@[simp] theorem State.lo_mgmt (s : State) (f : LocalState → LocalState) : (s.lo f).mgmt = s.mgmt := rfl
@[simp] theorem State.lo_recd (s : State) (f : LocalState → LocalState) : (s.lo f).recd = s.recd := rfl
@[simp] theorem State.lo_panel (s : State) (f : LocalState → LocalState) : (s.lo f).panel = s.panel := rfl
@[simp] theorem State.lo_now (s : State) (f : LocalState → LocalState) : (s.lo f).now = s.now := rfl
@[simp] theorem State.lo_out (s : State) (f : LocalState → LocalState) : (s.lo f).out = s.out := rfl
@[simp] theorem State.lo_freeCtr (s : State) (f : LocalState → LocalState) : (s.lo f).freeCtr = s.freeCtr := rfl
@[simp] theorem State.lo_pending (s : State) (f : LocalState → LocalState) : (s.lo f).pending = s.pending := rfl

/-! ## `State.pw` -/

@[simp] theorem State.pw_regs (s : State) (f : PwrState → PwrState) : (s.pw f).regs = s.regs := rfl
@[simp] theorem State.pw_latch (s : State) (f : PwrState → PwrState) : (s.pw f).latch = s.latch := rfl
@[simp] theorem State.pw_mem (s : State) (f : PwrState → PwrState) : (s.pw f).mem = s.mem := rfl
@[simp] theorem State.pw_flash (s : State) (f : PwrState → PwrState) : (s.pw f).flash = s.flash := rfl
@[simp] theorem State.pw_nv (s : State) (f : PwrState → PwrState) : (s.pw f).nv = s.nv := rfl
@[simp] theorem State.pw_keep (s : State) (f : PwrState → PwrState) : (s.pw f).keep = s.keep := rfl
@[simp] theorem State.pw_img (s : State) (f : PwrState → PwrState) : (s.pw f).img = s.img := rfl
@[simp] theorem State.pw_next (s : State) (f : PwrState → PwrState) : (s.pw f).next = s.next := rfl
@[simp] theorem State.pw_fab (s : State) (f : PwrState → PwrState) : (s.pw f).fab = s.fab := rfl
@[simp] theorem State.pw_cs (s : State) (f : PwrState → PwrState) : (s.pw f).cs = s.cs := rfl
@[simp] theorem State.pw_deferred (s : State) (f : PwrState → PwrState) : (s.pw f).deferred = s.deferred := rfl
@[simp] theorem State.pw_sig (s : State) (f : PwrState → PwrState) : (s.pw f).sig = s.sig := rfl
@[simp] theorem State.pw_parts (s : State) (f : PwrState → PwrState) : (s.pw f).parts = s.parts := rfl
@[simp] theorem State.pw_commit (s : State) (f : PwrState → PwrState) : (s.pw f).commit = s.commit := rfl
@[simp] theorem State.pw_loops (s : State) (f : PwrState → PwrState) : (s.pw f).loops = s.loops := rfl
@[simp] theorem State.pw_rings (s : State) (f : PwrState → PwrState) : (s.pw f).rings = s.rings := rfl
@[simp] theorem State.pw_twin (s : State) (f : PwrState → PwrState) : (s.pw f).twin = s.twin := rfl
@[simp] theorem State.pw_time (s : State) (f : PwrState → PwrState) : (s.pw f).time = s.time := rfl
@[simp] theorem State.pw_lines (s : State) (f : PwrState → PwrState) : (s.pw f).lines = s.lines := rfl
@[simp] theorem State.pw_cores (s : State) (f : PwrState → PwrState) : (s.pw f).cores = s.cores := rfl
@[simp] theorem State.pw_loc (s : State) (f : PwrState → PwrState) : (s.pw f).loc = s.loc := rfl
@[simp] theorem State.pw_can (s : State) (f : PwrState → PwrState) : (s.pw f).can = s.can := rfl
@[simp] theorem State.pw_pwr (s : State) (f : PwrState → PwrState) : (s.pw f).pwr = f s.pwr := rfl
@[simp] theorem State.pw_mgmt (s : State) (f : PwrState → PwrState) : (s.pw f).mgmt = s.mgmt := rfl
@[simp] theorem State.pw_recd (s : State) (f : PwrState → PwrState) : (s.pw f).recd = s.recd := rfl
@[simp] theorem State.pw_panel (s : State) (f : PwrState → PwrState) : (s.pw f).panel = s.panel := rfl
@[simp] theorem State.pw_now (s : State) (f : PwrState → PwrState) : (s.pw f).now = s.now := rfl
@[simp] theorem State.pw_out (s : State) (f : PwrState → PwrState) : (s.pw f).out = s.out := rfl
@[simp] theorem State.pw_freeCtr (s : State) (f : PwrState → PwrState) : (s.pw f).freeCtr = s.freeCtr := rfl
@[simp] theorem State.pw_pending (s : State) (f : PwrState → PwrState) : (s.pw f).pending = s.pending := rfl

/-! ## `State.mg` -/

@[simp] theorem State.mg_regs (s : State) (f : MgmtState → MgmtState) : (s.mg f).regs = s.regs := rfl
@[simp] theorem State.mg_latch (s : State) (f : MgmtState → MgmtState) : (s.mg f).latch = s.latch := rfl
@[simp] theorem State.mg_mem (s : State) (f : MgmtState → MgmtState) : (s.mg f).mem = s.mem := rfl
@[simp] theorem State.mg_flash (s : State) (f : MgmtState → MgmtState) : (s.mg f).flash = s.flash := rfl
@[simp] theorem State.mg_nv (s : State) (f : MgmtState → MgmtState) : (s.mg f).nv = s.nv := rfl
@[simp] theorem State.mg_keep (s : State) (f : MgmtState → MgmtState) : (s.mg f).keep = s.keep := rfl
@[simp] theorem State.mg_img (s : State) (f : MgmtState → MgmtState) : (s.mg f).img = s.img := rfl
@[simp] theorem State.mg_next (s : State) (f : MgmtState → MgmtState) : (s.mg f).next = s.next := rfl
@[simp] theorem State.mg_fab (s : State) (f : MgmtState → MgmtState) : (s.mg f).fab = s.fab := rfl
@[simp] theorem State.mg_cs (s : State) (f : MgmtState → MgmtState) : (s.mg f).cs = s.cs := rfl
@[simp] theorem State.mg_deferred (s : State) (f : MgmtState → MgmtState) : (s.mg f).deferred = s.deferred := rfl
@[simp] theorem State.mg_sig (s : State) (f : MgmtState → MgmtState) : (s.mg f).sig = s.sig := rfl
@[simp] theorem State.mg_parts (s : State) (f : MgmtState → MgmtState) : (s.mg f).parts = s.parts := rfl
@[simp] theorem State.mg_commit (s : State) (f : MgmtState → MgmtState) : (s.mg f).commit = s.commit := rfl
@[simp] theorem State.mg_loops (s : State) (f : MgmtState → MgmtState) : (s.mg f).loops = s.loops := rfl
@[simp] theorem State.mg_rings (s : State) (f : MgmtState → MgmtState) : (s.mg f).rings = s.rings := rfl
@[simp] theorem State.mg_twin (s : State) (f : MgmtState → MgmtState) : (s.mg f).twin = s.twin := rfl
@[simp] theorem State.mg_time (s : State) (f : MgmtState → MgmtState) : (s.mg f).time = s.time := rfl
@[simp] theorem State.mg_lines (s : State) (f : MgmtState → MgmtState) : (s.mg f).lines = s.lines := rfl
@[simp] theorem State.mg_cores (s : State) (f : MgmtState → MgmtState) : (s.mg f).cores = s.cores := rfl
@[simp] theorem State.mg_loc (s : State) (f : MgmtState → MgmtState) : (s.mg f).loc = s.loc := rfl
@[simp] theorem State.mg_can (s : State) (f : MgmtState → MgmtState) : (s.mg f).can = s.can := rfl
@[simp] theorem State.mg_pwr (s : State) (f : MgmtState → MgmtState) : (s.mg f).pwr = s.pwr := rfl
@[simp] theorem State.mg_mgmt (s : State) (f : MgmtState → MgmtState) : (s.mg f).mgmt = f s.mgmt := rfl
@[simp] theorem State.mg_recd (s : State) (f : MgmtState → MgmtState) : (s.mg f).recd = s.recd := rfl
@[simp] theorem State.mg_panel (s : State) (f : MgmtState → MgmtState) : (s.mg f).panel = s.panel := rfl
@[simp] theorem State.mg_now (s : State) (f : MgmtState → MgmtState) : (s.mg f).now = s.now := rfl
@[simp] theorem State.mg_out (s : State) (f : MgmtState → MgmtState) : (s.mg f).out = s.out := rfl
@[simp] theorem State.mg_freeCtr (s : State) (f : MgmtState → MgmtState) : (s.mg f).freeCtr = s.freeCtr := rfl
@[simp] theorem State.mg_pending (s : State) (f : MgmtState → MgmtState) : (s.mg f).pending = s.pending := rfl

/-! ## `State.pn` -/

@[simp] theorem State.pn_regs (s : State) (f : PanelState → PanelState) : (s.pn f).regs = s.regs := rfl
@[simp] theorem State.pn_latch (s : State) (f : PanelState → PanelState) : (s.pn f).latch = s.latch := rfl
@[simp] theorem State.pn_mem (s : State) (f : PanelState → PanelState) : (s.pn f).mem = s.mem := rfl
@[simp] theorem State.pn_flash (s : State) (f : PanelState → PanelState) : (s.pn f).flash = s.flash := rfl
@[simp] theorem State.pn_nv (s : State) (f : PanelState → PanelState) : (s.pn f).nv = s.nv := rfl
@[simp] theorem State.pn_keep (s : State) (f : PanelState → PanelState) : (s.pn f).keep = s.keep := rfl
@[simp] theorem State.pn_img (s : State) (f : PanelState → PanelState) : (s.pn f).img = s.img := rfl
@[simp] theorem State.pn_next (s : State) (f : PanelState → PanelState) : (s.pn f).next = s.next := rfl
@[simp] theorem State.pn_fab (s : State) (f : PanelState → PanelState) : (s.pn f).fab = s.fab := rfl
@[simp] theorem State.pn_cs (s : State) (f : PanelState → PanelState) : (s.pn f).cs = s.cs := rfl
@[simp] theorem State.pn_deferred (s : State) (f : PanelState → PanelState) : (s.pn f).deferred = s.deferred := rfl
@[simp] theorem State.pn_sig (s : State) (f : PanelState → PanelState) : (s.pn f).sig = s.sig := rfl
@[simp] theorem State.pn_parts (s : State) (f : PanelState → PanelState) : (s.pn f).parts = s.parts := rfl
@[simp] theorem State.pn_commit (s : State) (f : PanelState → PanelState) : (s.pn f).commit = s.commit := rfl
@[simp] theorem State.pn_loops (s : State) (f : PanelState → PanelState) : (s.pn f).loops = s.loops := rfl
@[simp] theorem State.pn_rings (s : State) (f : PanelState → PanelState) : (s.pn f).rings = s.rings := rfl
@[simp] theorem State.pn_twin (s : State) (f : PanelState → PanelState) : (s.pn f).twin = s.twin := rfl
@[simp] theorem State.pn_time (s : State) (f : PanelState → PanelState) : (s.pn f).time = s.time := rfl
@[simp] theorem State.pn_lines (s : State) (f : PanelState → PanelState) : (s.pn f).lines = s.lines := rfl
@[simp] theorem State.pn_cores (s : State) (f : PanelState → PanelState) : (s.pn f).cores = s.cores := rfl
@[simp] theorem State.pn_loc (s : State) (f : PanelState → PanelState) : (s.pn f).loc = s.loc := rfl
@[simp] theorem State.pn_can (s : State) (f : PanelState → PanelState) : (s.pn f).can = s.can := rfl
@[simp] theorem State.pn_pwr (s : State) (f : PanelState → PanelState) : (s.pn f).pwr = s.pwr := rfl
@[simp] theorem State.pn_mgmt (s : State) (f : PanelState → PanelState) : (s.pn f).mgmt = s.mgmt := rfl
@[simp] theorem State.pn_recd (s : State) (f : PanelState → PanelState) : (s.pn f).recd = s.recd := rfl
@[simp] theorem State.pn_panel (s : State) (f : PanelState → PanelState) : (s.pn f).panel = f s.panel := rfl
@[simp] theorem State.pn_now (s : State) (f : PanelState → PanelState) : (s.pn f).now = s.now := rfl
@[simp] theorem State.pn_out (s : State) (f : PanelState → PanelState) : (s.pn f).out = s.out := rfl
@[simp] theorem State.pn_freeCtr (s : State) (f : PanelState → PanelState) : (s.pn f).freeCtr = s.freeCtr := rfl
@[simp] theorem State.pn_pending (s : State) (f : PanelState → PanelState) : (s.pn f).pending = s.pending := rfl

/-! ## `State.lp` -/

@[simp] theorem State.lp_regs (s : State) (f : LoopState → LoopState) : (s.lp f).regs = s.regs := rfl
@[simp] theorem State.lp_latch (s : State) (f : LoopState → LoopState) : (s.lp f).latch = s.latch := rfl
@[simp] theorem State.lp_mem (s : State) (f : LoopState → LoopState) : (s.lp f).mem = s.mem := rfl
@[simp] theorem State.lp_flash (s : State) (f : LoopState → LoopState) : (s.lp f).flash = s.flash := rfl
@[simp] theorem State.lp_nv (s : State) (f : LoopState → LoopState) : (s.lp f).nv = s.nv := rfl
@[simp] theorem State.lp_keep (s : State) (f : LoopState → LoopState) : (s.lp f).keep = s.keep := rfl
@[simp] theorem State.lp_img (s : State) (f : LoopState → LoopState) : (s.lp f).img = s.img := rfl
@[simp] theorem State.lp_next (s : State) (f : LoopState → LoopState) : (s.lp f).next = s.next := rfl
@[simp] theorem State.lp_fab (s : State) (f : LoopState → LoopState) : (s.lp f).fab = s.fab := rfl
@[simp] theorem State.lp_cs (s : State) (f : LoopState → LoopState) : (s.lp f).cs = s.cs := rfl
@[simp] theorem State.lp_deferred (s : State) (f : LoopState → LoopState) : (s.lp f).deferred = s.deferred := rfl
@[simp] theorem State.lp_sig (s : State) (f : LoopState → LoopState) : (s.lp f).sig = s.sig := rfl
@[simp] theorem State.lp_parts (s : State) (f : LoopState → LoopState) : (s.lp f).parts = s.parts := rfl
@[simp] theorem State.lp_commit (s : State) (f : LoopState → LoopState) : (s.lp f).commit = s.commit := rfl
@[simp] theorem State.lp_loops (s : State) (f : LoopState → LoopState) : (s.lp f).loops = f s.loops := rfl
@[simp] theorem State.lp_rings (s : State) (f : LoopState → LoopState) : (s.lp f).rings = s.rings := rfl
@[simp] theorem State.lp_twin (s : State) (f : LoopState → LoopState) : (s.lp f).twin = s.twin := rfl
@[simp] theorem State.lp_time (s : State) (f : LoopState → LoopState) : (s.lp f).time = s.time := rfl
@[simp] theorem State.lp_lines (s : State) (f : LoopState → LoopState) : (s.lp f).lines = s.lines := rfl
@[simp] theorem State.lp_cores (s : State) (f : LoopState → LoopState) : (s.lp f).cores = s.cores := rfl
@[simp] theorem State.lp_loc (s : State) (f : LoopState → LoopState) : (s.lp f).loc = s.loc := rfl
@[simp] theorem State.lp_can (s : State) (f : LoopState → LoopState) : (s.lp f).can = s.can := rfl
@[simp] theorem State.lp_pwr (s : State) (f : LoopState → LoopState) : (s.lp f).pwr = s.pwr := rfl
@[simp] theorem State.lp_mgmt (s : State) (f : LoopState → LoopState) : (s.lp f).mgmt = s.mgmt := rfl
@[simp] theorem State.lp_recd (s : State) (f : LoopState → LoopState) : (s.lp f).recd = s.recd := rfl
@[simp] theorem State.lp_panel (s : State) (f : LoopState → LoopState) : (s.lp f).panel = s.panel := rfl
@[simp] theorem State.lp_now (s : State) (f : LoopState → LoopState) : (s.lp f).now = s.now := rfl
@[simp] theorem State.lp_out (s : State) (f : LoopState → LoopState) : (s.lp f).out = s.out := rfl
@[simp] theorem State.lp_freeCtr (s : State) (f : LoopState → LoopState) : (s.lp f).freeCtr = s.freeCtr := rfl
@[simp] theorem State.lp_pending (s : State) (f : LoopState → LoopState) : (s.lp f).pending = s.pending := rfl

/-! ## `State.sg` -/

@[simp] theorem State.sg_regs (s : State) (f : SignalState → SignalState) : (s.sg f).regs = s.regs := rfl
@[simp] theorem State.sg_latch (s : State) (f : SignalState → SignalState) : (s.sg f).latch = s.latch := rfl
@[simp] theorem State.sg_mem (s : State) (f : SignalState → SignalState) : (s.sg f).mem = s.mem := rfl
@[simp] theorem State.sg_flash (s : State) (f : SignalState → SignalState) : (s.sg f).flash = s.flash := rfl
@[simp] theorem State.sg_nv (s : State) (f : SignalState → SignalState) : (s.sg f).nv = s.nv := rfl
@[simp] theorem State.sg_keep (s : State) (f : SignalState → SignalState) : (s.sg f).keep = s.keep := rfl
@[simp] theorem State.sg_img (s : State) (f : SignalState → SignalState) : (s.sg f).img = s.img := rfl
@[simp] theorem State.sg_next (s : State) (f : SignalState → SignalState) : (s.sg f).next = s.next := rfl
@[simp] theorem State.sg_fab (s : State) (f : SignalState → SignalState) : (s.sg f).fab = s.fab := rfl
@[simp] theorem State.sg_cs (s : State) (f : SignalState → SignalState) : (s.sg f).cs = s.cs := rfl
@[simp] theorem State.sg_deferred (s : State) (f : SignalState → SignalState) : (s.sg f).deferred = s.deferred := rfl
@[simp] theorem State.sg_sig (s : State) (f : SignalState → SignalState) : (s.sg f).sig = f s.sig := rfl
@[simp] theorem State.sg_parts (s : State) (f : SignalState → SignalState) : (s.sg f).parts = s.parts := rfl
@[simp] theorem State.sg_commit (s : State) (f : SignalState → SignalState) : (s.sg f).commit = s.commit := rfl
@[simp] theorem State.sg_loops (s : State) (f : SignalState → SignalState) : (s.sg f).loops = s.loops := rfl
@[simp] theorem State.sg_rings (s : State) (f : SignalState → SignalState) : (s.sg f).rings = s.rings := rfl
@[simp] theorem State.sg_twin (s : State) (f : SignalState → SignalState) : (s.sg f).twin = s.twin := rfl
@[simp] theorem State.sg_time (s : State) (f : SignalState → SignalState) : (s.sg f).time = s.time := rfl
@[simp] theorem State.sg_lines (s : State) (f : SignalState → SignalState) : (s.sg f).lines = s.lines := rfl
@[simp] theorem State.sg_cores (s : State) (f : SignalState → SignalState) : (s.sg f).cores = s.cores := rfl
@[simp] theorem State.sg_loc (s : State) (f : SignalState → SignalState) : (s.sg f).loc = s.loc := rfl
@[simp] theorem State.sg_can (s : State) (f : SignalState → SignalState) : (s.sg f).can = s.can := rfl
@[simp] theorem State.sg_pwr (s : State) (f : SignalState → SignalState) : (s.sg f).pwr = s.pwr := rfl
@[simp] theorem State.sg_mgmt (s : State) (f : SignalState → SignalState) : (s.sg f).mgmt = s.mgmt := rfl
@[simp] theorem State.sg_recd (s : State) (f : SignalState → SignalState) : (s.sg f).recd = s.recd := rfl
@[simp] theorem State.sg_panel (s : State) (f : SignalState → SignalState) : (s.sg f).panel = s.panel := rfl
@[simp] theorem State.sg_now (s : State) (f : SignalState → SignalState) : (s.sg f).now = s.now := rfl
@[simp] theorem State.sg_out (s : State) (f : SignalState → SignalState) : (s.sg f).out = s.out := rfl
@[simp] theorem State.sg_freeCtr (s : State) (f : SignalState → SignalState) : (s.sg f).freeCtr = s.freeCtr := rfl
@[simp] theorem State.sg_pending (s : State) (f : SignalState → SignalState) : (s.sg f).pending = s.pending := rfl

/-! ## `State.fb` -/

@[simp] theorem State.fb_regs (s : State) (f : FabState → FabState) : (s.fb f).regs = s.regs := rfl
@[simp] theorem State.fb_latch (s : State) (f : FabState → FabState) : (s.fb f).latch = s.latch := rfl
@[simp] theorem State.fb_mem (s : State) (f : FabState → FabState) : (s.fb f).mem = s.mem := rfl
@[simp] theorem State.fb_flash (s : State) (f : FabState → FabState) : (s.fb f).flash = s.flash := rfl
@[simp] theorem State.fb_nv (s : State) (f : FabState → FabState) : (s.fb f).nv = s.nv := rfl
@[simp] theorem State.fb_keep (s : State) (f : FabState → FabState) : (s.fb f).keep = s.keep := rfl
@[simp] theorem State.fb_img (s : State) (f : FabState → FabState) : (s.fb f).img = s.img := rfl
@[simp] theorem State.fb_next (s : State) (f : FabState → FabState) : (s.fb f).next = s.next := rfl
@[simp] theorem State.fb_fab (s : State) (f : FabState → FabState) : (s.fb f).fab = f s.fab := rfl
@[simp] theorem State.fb_cs (s : State) (f : FabState → FabState) : (s.fb f).cs = s.cs := rfl
@[simp] theorem State.fb_deferred (s : State) (f : FabState → FabState) : (s.fb f).deferred = s.deferred := rfl
@[simp] theorem State.fb_sig (s : State) (f : FabState → FabState) : (s.fb f).sig = s.sig := rfl
@[simp] theorem State.fb_parts (s : State) (f : FabState → FabState) : (s.fb f).parts = s.parts := rfl
@[simp] theorem State.fb_commit (s : State) (f : FabState → FabState) : (s.fb f).commit = s.commit := rfl
@[simp] theorem State.fb_loops (s : State) (f : FabState → FabState) : (s.fb f).loops = s.loops := rfl
@[simp] theorem State.fb_rings (s : State) (f : FabState → FabState) : (s.fb f).rings = s.rings := rfl
@[simp] theorem State.fb_twin (s : State) (f : FabState → FabState) : (s.fb f).twin = s.twin := rfl
@[simp] theorem State.fb_time (s : State) (f : FabState → FabState) : (s.fb f).time = s.time := rfl
@[simp] theorem State.fb_lines (s : State) (f : FabState → FabState) : (s.fb f).lines = s.lines := rfl
@[simp] theorem State.fb_cores (s : State) (f : FabState → FabState) : (s.fb f).cores = s.cores := rfl
@[simp] theorem State.fb_loc (s : State) (f : FabState → FabState) : (s.fb f).loc = s.loc := rfl
@[simp] theorem State.fb_can (s : State) (f : FabState → FabState) : (s.fb f).can = s.can := rfl
@[simp] theorem State.fb_pwr (s : State) (f : FabState → FabState) : (s.fb f).pwr = s.pwr := rfl
@[simp] theorem State.fb_mgmt (s : State) (f : FabState → FabState) : (s.fb f).mgmt = s.mgmt := rfl
@[simp] theorem State.fb_recd (s : State) (f : FabState → FabState) : (s.fb f).recd = s.recd := rfl
@[simp] theorem State.fb_panel (s : State) (f : FabState → FabState) : (s.fb f).panel = s.panel := rfl
@[simp] theorem State.fb_now (s : State) (f : FabState → FabState) : (s.fb f).now = s.now := rfl
@[simp] theorem State.fb_out (s : State) (f : FabState → FabState) : (s.fb f).out = s.out := rfl
@[simp] theorem State.fb_freeCtr (s : State) (f : FabState → FabState) : (s.fb f).freeCtr = s.freeCtr := rfl
@[simp] theorem State.fb_pending (s : State) (f : FabState → FabState) : (s.fb f).pending = s.pending := rfl

/-! ## `State.cr` -/

@[simp] theorem State.cr_regs (s : State) (f : CommitRecord → CommitRecord) : (s.cr f).regs = s.regs := rfl
@[simp] theorem State.cr_latch (s : State) (f : CommitRecord → CommitRecord) : (s.cr f).latch = s.latch := rfl
@[simp] theorem State.cr_mem (s : State) (f : CommitRecord → CommitRecord) : (s.cr f).mem = s.mem := rfl
@[simp] theorem State.cr_flash (s : State) (f : CommitRecord → CommitRecord) : (s.cr f).flash = s.flash := rfl
@[simp] theorem State.cr_nv (s : State) (f : CommitRecord → CommitRecord) : (s.cr f).nv = s.nv := rfl
@[simp] theorem State.cr_keep (s : State) (f : CommitRecord → CommitRecord) : (s.cr f).keep = s.keep := rfl
@[simp] theorem State.cr_img (s : State) (f : CommitRecord → CommitRecord) : (s.cr f).img = s.img := rfl
@[simp] theorem State.cr_next (s : State) (f : CommitRecord → CommitRecord) : (s.cr f).next = s.next := rfl
@[simp] theorem State.cr_fab (s : State) (f : CommitRecord → CommitRecord) : (s.cr f).fab = s.fab := rfl
@[simp] theorem State.cr_cs (s : State) (f : CommitRecord → CommitRecord) : (s.cr f).cs = s.cs := rfl
@[simp] theorem State.cr_deferred (s : State) (f : CommitRecord → CommitRecord) : (s.cr f).deferred = s.deferred := rfl
@[simp] theorem State.cr_sig (s : State) (f : CommitRecord → CommitRecord) : (s.cr f).sig = s.sig := rfl
@[simp] theorem State.cr_parts (s : State) (f : CommitRecord → CommitRecord) : (s.cr f).parts = s.parts := rfl
@[simp] theorem State.cr_commit (s : State) (f : CommitRecord → CommitRecord) : (s.cr f).commit = f s.commit := rfl
@[simp] theorem State.cr_loops (s : State) (f : CommitRecord → CommitRecord) : (s.cr f).loops = s.loops := rfl
@[simp] theorem State.cr_rings (s : State) (f : CommitRecord → CommitRecord) : (s.cr f).rings = s.rings := rfl
@[simp] theorem State.cr_twin (s : State) (f : CommitRecord → CommitRecord) : (s.cr f).twin = s.twin := rfl
@[simp] theorem State.cr_time (s : State) (f : CommitRecord → CommitRecord) : (s.cr f).time = s.time := rfl
@[simp] theorem State.cr_lines (s : State) (f : CommitRecord → CommitRecord) : (s.cr f).lines = s.lines := rfl
@[simp] theorem State.cr_cores (s : State) (f : CommitRecord → CommitRecord) : (s.cr f).cores = s.cores := rfl
@[simp] theorem State.cr_loc (s : State) (f : CommitRecord → CommitRecord) : (s.cr f).loc = s.loc := rfl
@[simp] theorem State.cr_can (s : State) (f : CommitRecord → CommitRecord) : (s.cr f).can = s.can := rfl
@[simp] theorem State.cr_pwr (s : State) (f : CommitRecord → CommitRecord) : (s.cr f).pwr = s.pwr := rfl
@[simp] theorem State.cr_mgmt (s : State) (f : CommitRecord → CommitRecord) : (s.cr f).mgmt = s.mgmt := rfl
@[simp] theorem State.cr_recd (s : State) (f : CommitRecord → CommitRecord) : (s.cr f).recd = s.recd := rfl
@[simp] theorem State.cr_panel (s : State) (f : CommitRecord → CommitRecord) : (s.cr f).panel = s.panel := rfl
@[simp] theorem State.cr_now (s : State) (f : CommitRecord → CommitRecord) : (s.cr f).now = s.now := rfl
@[simp] theorem State.cr_out (s : State) (f : CommitRecord → CommitRecord) : (s.cr f).out = s.out := rfl
@[simp] theorem State.cr_freeCtr (s : State) (f : CommitRecord → CommitRecord) : (s.cr f).freeCtr = s.freeCtr := rfl
@[simp] theorem State.cr_pending (s : State) (f : CommitRecord → CommitRecord) : (s.cr f).pending = s.pending := rfl

/-! ## `State.raise` -/

@[simp] theorem State.raise_latch (s : State) (code isl : Nat) (data : List Byte) : (s.raise code isl data).latch = s.latch := by
  unfold State.raise State.raiseLost
  dsimp only
  split
  · rfl
  · split <;> rfl

@[simp] theorem State.raise_mem (s : State) (code isl : Nat) (data : List Byte) : (s.raise code isl data).mem = s.mem := by
  unfold State.raise State.raiseLost
  dsimp only
  split
  · rfl
  · split <;> rfl

@[simp] theorem State.raise_flash (s : State) (code isl : Nat) (data : List Byte) : (s.raise code isl data).flash = s.flash := by
  unfold State.raise State.raiseLost
  dsimp only
  split
  · rfl
  · split <;> rfl

@[simp] theorem State.raise_nv (s : State) (code isl : Nat) (data : List Byte) : (s.raise code isl data).nv = s.nv := by
  unfold State.raise State.raiseLost
  dsimp only
  split
  · rfl
  · split <;> rfl

@[simp] theorem State.raise_keep (s : State) (code isl : Nat) (data : List Byte) : (s.raise code isl data).keep = s.keep := by
  unfold State.raise State.raiseLost
  dsimp only
  split
  · rfl
  · split <;> rfl

@[simp] theorem State.raise_img (s : State) (code isl : Nat) (data : List Byte) : (s.raise code isl data).img = s.img := by
  unfold State.raise State.raiseLost
  dsimp only
  split
  · rfl
  · split <;> rfl

@[simp] theorem State.raise_next (s : State) (code isl : Nat) (data : List Byte) : (s.raise code isl data).next = s.next := by
  unfold State.raise State.raiseLost
  dsimp only
  split
  · rfl
  · split <;> rfl

@[simp] theorem State.raise_fab (s : State) (code isl : Nat) (data : List Byte) : (s.raise code isl data).fab = s.fab := by
  unfold State.raise State.raiseLost
  dsimp only
  split
  · rfl
  · split <;> rfl

@[simp] theorem State.raise_cs (s : State) (code isl : Nat) (data : List Byte) : (s.raise code isl data).cs = s.cs := by
  unfold State.raise State.raiseLost
  dsimp only
  split
  · rfl
  · split <;> rfl

@[simp] theorem State.raise_deferred (s : State) (code isl : Nat) (data : List Byte) : (s.raise code isl data).deferred = s.deferred := by
  unfold State.raise State.raiseLost
  dsimp only
  split
  · rfl
  · split <;> rfl

@[simp] theorem State.raise_sig (s : State) (code isl : Nat) (data : List Byte) : (s.raise code isl data).sig = s.sig := by
  unfold State.raise State.raiseLost
  dsimp only
  split
  · rfl
  · split <;> rfl

@[simp] theorem State.raise_parts (s : State) (code isl : Nat) (data : List Byte) : (s.raise code isl data).parts = s.parts := by
  unfold State.raise State.raiseLost
  dsimp only
  split
  · rfl
  · split <;> rfl

@[simp] theorem State.raise_commit (s : State) (code isl : Nat) (data : List Byte) : (s.raise code isl data).commit = s.commit := by
  unfold State.raise State.raiseLost
  dsimp only
  split
  · rfl
  · split <;> rfl

@[simp] theorem State.raise_loops (s : State) (code isl : Nat) (data : List Byte) : (s.raise code isl data).loops = s.loops := by
  unfold State.raise State.raiseLost
  dsimp only
  split
  · rfl
  · split <;> rfl

@[simp] theorem State.raise_rings (s : State) (code isl : Nat) (data : List Byte) : (s.raise code isl data).rings = s.rings := by
  unfold State.raise State.raiseLost
  dsimp only
  split
  · rfl
  · split <;> rfl

@[simp] theorem State.raise_twin (s : State) (code isl : Nat) (data : List Byte) : (s.raise code isl data).twin = s.twin := by
  unfold State.raise State.raiseLost
  dsimp only
  split
  · rfl
  · split <;> rfl

@[simp] theorem State.raise_time (s : State) (code isl : Nat) (data : List Byte) : (s.raise code isl data).time = s.time := by
  unfold State.raise State.raiseLost
  dsimp only
  split
  · rfl
  · split <;> rfl

@[simp] theorem State.raise_lines (s : State) (code isl : Nat) (data : List Byte) : (s.raise code isl data).lines = s.lines := by
  unfold State.raise State.raiseLost
  dsimp only
  split
  · rfl
  · split <;> rfl

@[simp] theorem State.raise_cores (s : State) (code isl : Nat) (data : List Byte) : (s.raise code isl data).cores = s.cores := by
  unfold State.raise State.raiseLost
  dsimp only
  split
  · rfl
  · split <;> rfl

@[simp] theorem State.raise_loc (s : State) (code isl : Nat) (data : List Byte) : (s.raise code isl data).loc = s.loc := by
  unfold State.raise State.raiseLost
  dsimp only
  split
  · rfl
  · split <;> rfl

@[simp] theorem State.raise_can (s : State) (code isl : Nat) (data : List Byte) : (s.raise code isl data).can = s.can := by
  unfold State.raise State.raiseLost
  dsimp only
  split
  · rfl
  · split <;> rfl

@[simp] theorem State.raise_pwr (s : State) (code isl : Nat) (data : List Byte) : (s.raise code isl data).pwr = s.pwr := by
  unfold State.raise State.raiseLost
  dsimp only
  split
  · rfl
  · split <;> rfl

@[simp] theorem State.raise_panel (s : State) (code isl : Nat) (data : List Byte) : (s.raise code isl data).panel = s.panel := by
  unfold State.raise State.raiseLost
  dsimp only
  split
  · rfl
  · split <;> rfl

@[simp] theorem State.raise_now (s : State) (code isl : Nat) (data : List Byte) : (s.raise code isl data).now = s.now := by
  unfold State.raise State.raiseLost
  dsimp only
  split
  · rfl
  · split <;> rfl

@[simp] theorem State.raise_out (s : State) (code isl : Nat) (data : List Byte) : (s.raise code isl data).out = s.out := by
  unfold State.raise State.raiseLost
  dsimp only
  split
  · rfl
  · split <;> rfl

@[simp] theorem State.raise_freeCtr (s : State) (code isl : Nat) (data : List Byte) : (s.raise code isl data).freeCtr = s.freeCtr := by
  unfold State.raise State.raiseLost
  dsimp only
  split
  · rfl
  · split <;> rfl

@[simp] theorem State.raise_pending (s : State) (code isl : Nat) (data : List Byte) : (s.raise code isl data).pending = s.pending := by
  unfold State.raise State.raiseLost
  dsimp only
  split
  · rfl
  · split <;> rfl

/-! ## `State.wr64` -/

@[simp] theorem State.wr64_latch (s : State) (off v : Nat) : (s.wr64 off v).latch = s.latch := rfl

@[simp] theorem State.wr64_mem (s : State) (off v : Nat) : (s.wr64 off v).mem = s.mem := rfl

@[simp] theorem State.wr64_flash (s : State) (off v : Nat) : (s.wr64 off v).flash = s.flash := rfl

@[simp] theorem State.wr64_nv (s : State) (off v : Nat) : (s.wr64 off v).nv = s.nv := rfl

@[simp] theorem State.wr64_keep (s : State) (off v : Nat) : (s.wr64 off v).keep = s.keep := rfl

@[simp] theorem State.wr64_img (s : State) (off v : Nat) : (s.wr64 off v).img = s.img := rfl

@[simp] theorem State.wr64_next (s : State) (off v : Nat) : (s.wr64 off v).next = s.next := rfl

@[simp] theorem State.wr64_fab (s : State) (off v : Nat) : (s.wr64 off v).fab = s.fab := rfl

@[simp] theorem State.wr64_cs (s : State) (off v : Nat) : (s.wr64 off v).cs = s.cs := rfl

@[simp] theorem State.wr64_deferred (s : State) (off v : Nat) : (s.wr64 off v).deferred = s.deferred := rfl

@[simp] theorem State.wr64_sig (s : State) (off v : Nat) : (s.wr64 off v).sig = s.sig := rfl

@[simp] theorem State.wr64_parts (s : State) (off v : Nat) : (s.wr64 off v).parts = s.parts := rfl

@[simp] theorem State.wr64_commit (s : State) (off v : Nat) : (s.wr64 off v).commit = s.commit := rfl

@[simp] theorem State.wr64_loops (s : State) (off v : Nat) : (s.wr64 off v).loops = s.loops := rfl

@[simp] theorem State.wr64_rings (s : State) (off v : Nat) : (s.wr64 off v).rings = s.rings := rfl

@[simp] theorem State.wr64_twin (s : State) (off v : Nat) : (s.wr64 off v).twin = s.twin := rfl

@[simp] theorem State.wr64_time (s : State) (off v : Nat) : (s.wr64 off v).time = s.time := rfl

@[simp] theorem State.wr64_lines (s : State) (off v : Nat) : (s.wr64 off v).lines = s.lines := rfl

@[simp] theorem State.wr64_cores (s : State) (off v : Nat) : (s.wr64 off v).cores = s.cores := rfl

@[simp] theorem State.wr64_loc (s : State) (off v : Nat) : (s.wr64 off v).loc = s.loc := rfl

@[simp] theorem State.wr64_can (s : State) (off v : Nat) : (s.wr64 off v).can = s.can := rfl

@[simp] theorem State.wr64_pwr (s : State) (off v : Nat) : (s.wr64 off v).pwr = s.pwr := rfl

@[simp] theorem State.wr64_mgmt (s : State) (off v : Nat) : (s.wr64 off v).mgmt = s.mgmt := rfl

@[simp] theorem State.wr64_recd (s : State) (off v : Nat) : (s.wr64 off v).recd = s.recd := rfl

@[simp] theorem State.wr64_panel (s : State) (off v : Nat) : (s.wr64 off v).panel = s.panel := rfl

@[simp] theorem State.wr64_now (s : State) (off v : Nat) : (s.wr64 off v).now = s.now := rfl

@[simp] theorem State.wr64_out (s : State) (off v : Nat) : (s.wr64 off v).out = s.out := rfl

@[simp] theorem State.wr64_freeCtr (s : State) (off v : Nat) : (s.wr64 off v).freeCtr = s.freeCtr := rfl

@[simp] theorem State.wr64_pending (s : State) (off v : Nat) : (s.wr64 off v).pending = s.pending := rfl

/-! ## `State.total` -/

@[simp] theorem State.total_regs (s : State) (off bytes n : Nat) : (s.total off bytes n).regs = s.regs := rfl

@[simp] theorem State.total_latch (s : State) (off bytes n : Nat) : (s.total off bytes n).latch = s.latch := rfl

@[simp] theorem State.total_mem (s : State) (off bytes n : Nat) : (s.total off bytes n).mem = s.mem := rfl

@[simp] theorem State.total_flash (s : State) (off bytes n : Nat) : (s.total off bytes n).flash = s.flash := rfl

@[simp] theorem State.total_nv (s : State) (off bytes n : Nat) : (s.total off bytes n).nv = s.nv := rfl

@[simp] theorem State.total_keep (s : State) (off bytes n : Nat) : (s.total off bytes n).keep = s.keep := rfl

@[simp] theorem State.total_img (s : State) (off bytes n : Nat) : (s.total off bytes n).img = s.img := rfl

@[simp] theorem State.total_next (s : State) (off bytes n : Nat) : (s.total off bytes n).next = s.next := rfl

@[simp] theorem State.total_fab (s : State) (off bytes n : Nat) : (s.total off bytes n).fab = s.fab := rfl

@[simp] theorem State.total_cs (s : State) (off bytes n : Nat) : (s.total off bytes n).cs = s.cs := rfl

@[simp] theorem State.total_deferred (s : State) (off bytes n : Nat) : (s.total off bytes n).deferred = s.deferred := rfl

@[simp] theorem State.total_sig (s : State) (off bytes n : Nat) : (s.total off bytes n).sig = s.sig := rfl

@[simp] theorem State.total_parts (s : State) (off bytes n : Nat) : (s.total off bytes n).parts = s.parts := rfl

@[simp] theorem State.total_commit (s : State) (off bytes n : Nat) : (s.total off bytes n).commit = s.commit := rfl

@[simp] theorem State.total_loops (s : State) (off bytes n : Nat) : (s.total off bytes n).loops = s.loops := rfl

@[simp] theorem State.total_rings (s : State) (off bytes n : Nat) : (s.total off bytes n).rings = s.rings := rfl

@[simp] theorem State.total_twin (s : State) (off bytes n : Nat) : (s.total off bytes n).twin = s.twin := rfl

@[simp] theorem State.total_time (s : State) (off bytes n : Nat) : (s.total off bytes n).time = s.time := rfl

@[simp] theorem State.total_lines (s : State) (off bytes n : Nat) : (s.total off bytes n).lines = s.lines := rfl

@[simp] theorem State.total_cores (s : State) (off bytes n : Nat) : (s.total off bytes n).cores = s.cores := rfl

@[simp] theorem State.total_loc (s : State) (off bytes n : Nat) : (s.total off bytes n).loc = s.loc := rfl

@[simp] theorem State.total_can (s : State) (off bytes n : Nat) : (s.total off bytes n).can = s.can := rfl

@[simp] theorem State.total_pwr (s : State) (off bytes n : Nat) : (s.total off bytes n).pwr = s.pwr := rfl

@[simp] theorem State.total_recd (s : State) (off bytes n : Nat) : (s.total off bytes n).recd = s.recd := rfl

@[simp] theorem State.total_panel (s : State) (off bytes n : Nat) : (s.total off bytes n).panel = s.panel := rfl

@[simp] theorem State.total_now (s : State) (off bytes n : Nat) : (s.total off bytes n).now = s.now := rfl

@[simp] theorem State.total_out (s : State) (off bytes n : Nat) : (s.total off bytes n).out = s.out := rfl

@[simp] theorem State.total_freeCtr (s : State) (off bytes n : Nat) : (s.total off bytes n).freeCtr = s.freeCtr := rfl

@[simp] theorem State.total_pending (s : State) (off bytes n : Nat) : (s.total off bytes n).pending = s.pending := rfl

/-! ## `State.unpoison` -/

@[simp] theorem State.unpoison_regs (s : State) (a n : Nat) : (s.unpoison a n).regs = s.regs := by
  unfold State.unpoison
  split <;> rfl

@[simp] theorem State.unpoison_latch (s : State) (a n : Nat) : (s.unpoison a n).latch = s.latch := by
  unfold State.unpoison
  split <;> rfl

@[simp] theorem State.unpoison_mem (s : State) (a n : Nat) : (s.unpoison a n).mem = s.mem := by
  unfold State.unpoison
  split <;> rfl

@[simp] theorem State.unpoison_flash (s : State) (a n : Nat) : (s.unpoison a n).flash = s.flash := by
  unfold State.unpoison
  split <;> rfl

@[simp] theorem State.unpoison_nv (s : State) (a n : Nat) : (s.unpoison a n).nv = s.nv := by
  unfold State.unpoison
  split <;> rfl

@[simp] theorem State.unpoison_keep (s : State) (a n : Nat) : (s.unpoison a n).keep = s.keep := by
  unfold State.unpoison
  split <;> rfl

@[simp] theorem State.unpoison_img (s : State) (a n : Nat) : (s.unpoison a n).img = s.img := by
  unfold State.unpoison
  split <;> rfl

@[simp] theorem State.unpoison_next (s : State) (a n : Nat) : (s.unpoison a n).next = s.next := by
  unfold State.unpoison
  split <;> rfl

@[simp] theorem State.unpoison_cs (s : State) (a n : Nat) : (s.unpoison a n).cs = s.cs := by
  unfold State.unpoison
  split <;> rfl

@[simp] theorem State.unpoison_deferred (s : State) (a n : Nat) : (s.unpoison a n).deferred = s.deferred := by
  unfold State.unpoison
  split <;> rfl

@[simp] theorem State.unpoison_sig (s : State) (a n : Nat) : (s.unpoison a n).sig = s.sig := by
  unfold State.unpoison
  split <;> rfl

@[simp] theorem State.unpoison_parts (s : State) (a n : Nat) : (s.unpoison a n).parts = s.parts := by
  unfold State.unpoison
  split <;> rfl

@[simp] theorem State.unpoison_commit (s : State) (a n : Nat) : (s.unpoison a n).commit = s.commit := by
  unfold State.unpoison
  split <;> rfl

@[simp] theorem State.unpoison_loops (s : State) (a n : Nat) : (s.unpoison a n).loops = s.loops := by
  unfold State.unpoison
  split <;> rfl

@[simp] theorem State.unpoison_rings (s : State) (a n : Nat) : (s.unpoison a n).rings = s.rings := by
  unfold State.unpoison
  split <;> rfl

@[simp] theorem State.unpoison_twin (s : State) (a n : Nat) : (s.unpoison a n).twin = s.twin := by
  unfold State.unpoison
  split <;> rfl

@[simp] theorem State.unpoison_time (s : State) (a n : Nat) : (s.unpoison a n).time = s.time := by
  unfold State.unpoison
  split <;> rfl

@[simp] theorem State.unpoison_lines (s : State) (a n : Nat) : (s.unpoison a n).lines = s.lines := by
  unfold State.unpoison
  split <;> rfl

@[simp] theorem State.unpoison_cores (s : State) (a n : Nat) : (s.unpoison a n).cores = s.cores := by
  unfold State.unpoison
  split <;> rfl

@[simp] theorem State.unpoison_loc (s : State) (a n : Nat) : (s.unpoison a n).loc = s.loc := by
  unfold State.unpoison
  split <;> rfl

@[simp] theorem State.unpoison_can (s : State) (a n : Nat) : (s.unpoison a n).can = s.can := by
  unfold State.unpoison
  split <;> rfl

@[simp] theorem State.unpoison_pwr (s : State) (a n : Nat) : (s.unpoison a n).pwr = s.pwr := by
  unfold State.unpoison
  split <;> rfl

@[simp] theorem State.unpoison_mgmt (s : State) (a n : Nat) : (s.unpoison a n).mgmt = s.mgmt := by
  unfold State.unpoison
  split <;> rfl

@[simp] theorem State.unpoison_recd (s : State) (a n : Nat) : (s.unpoison a n).recd = s.recd := by
  unfold State.unpoison
  split <;> rfl

@[simp] theorem State.unpoison_panel (s : State) (a n : Nat) : (s.unpoison a n).panel = s.panel := by
  unfold State.unpoison
  split <;> rfl

@[simp] theorem State.unpoison_now (s : State) (a n : Nat) : (s.unpoison a n).now = s.now := by
  unfold State.unpoison
  split <;> rfl

@[simp] theorem State.unpoison_out (s : State) (a n : Nat) : (s.unpoison a n).out = s.out := by
  unfold State.unpoison
  split <;> rfl

@[simp] theorem State.unpoison_freeCtr (s : State) (a n : Nat) : (s.unpoison a n).freeCtr = s.freeCtr := by
  unfold State.unpoison
  split <;> rfl

@[simp] theorem State.unpoison_pending (s : State) (a n : Nat) : (s.unpoison a n).pending = s.pending := by
  unfold State.unpoison
  split <;> rfl

/-! ## `State.sysW` -/

@[simp] theorem State.sysW_regs (s : State) (a : Nat) (b : List Byte) : (s.sysW a b).regs = s.regs :=
  State.unpoison_regs _ _ _

@[simp] theorem State.sysW_latch (s : State) (a : Nat) (b : List Byte) : (s.sysW a b).latch = s.latch :=
  State.unpoison_latch _ _ _

@[simp] theorem State.sysW_flash (s : State) (a : Nat) (b : List Byte) : (s.sysW a b).flash = s.flash :=
  State.unpoison_flash _ _ _

@[simp] theorem State.sysW_nv (s : State) (a : Nat) (b : List Byte) : (s.sysW a b).nv = s.nv :=
  State.unpoison_nv _ _ _

@[simp] theorem State.sysW_keep (s : State) (a : Nat) (b : List Byte) : (s.sysW a b).keep = s.keep :=
  State.unpoison_keep _ _ _

@[simp] theorem State.sysW_img (s : State) (a : Nat) (b : List Byte) : (s.sysW a b).img = s.img :=
  State.unpoison_img _ _ _

@[simp] theorem State.sysW_next (s : State) (a : Nat) (b : List Byte) : (s.sysW a b).next = s.next :=
  State.unpoison_next _ _ _

@[simp] theorem State.sysW_cs (s : State) (a : Nat) (b : List Byte) : (s.sysW a b).cs = s.cs :=
  State.unpoison_cs _ _ _

@[simp] theorem State.sysW_deferred (s : State) (a : Nat) (b : List Byte) : (s.sysW a b).deferred = s.deferred :=
  State.unpoison_deferred _ _ _

@[simp] theorem State.sysW_sig (s : State) (a : Nat) (b : List Byte) : (s.sysW a b).sig = s.sig :=
  State.unpoison_sig _ _ _

@[simp] theorem State.sysW_parts (s : State) (a : Nat) (b : List Byte) : (s.sysW a b).parts = s.parts :=
  State.unpoison_parts _ _ _

@[simp] theorem State.sysW_commit (s : State) (a : Nat) (b : List Byte) : (s.sysW a b).commit = s.commit :=
  State.unpoison_commit _ _ _

@[simp] theorem State.sysW_loops (s : State) (a : Nat) (b : List Byte) : (s.sysW a b).loops = s.loops :=
  State.unpoison_loops _ _ _

@[simp] theorem State.sysW_rings (s : State) (a : Nat) (b : List Byte) : (s.sysW a b).rings = s.rings :=
  State.unpoison_rings _ _ _

@[simp] theorem State.sysW_twin (s : State) (a : Nat) (b : List Byte) : (s.sysW a b).twin = s.twin :=
  State.unpoison_twin _ _ _

@[simp] theorem State.sysW_time (s : State) (a : Nat) (b : List Byte) : (s.sysW a b).time = s.time :=
  State.unpoison_time _ _ _

@[simp] theorem State.sysW_lines (s : State) (a : Nat) (b : List Byte) : (s.sysW a b).lines = s.lines :=
  State.unpoison_lines _ _ _

@[simp] theorem State.sysW_cores (s : State) (a : Nat) (b : List Byte) : (s.sysW a b).cores = s.cores :=
  State.unpoison_cores _ _ _

@[simp] theorem State.sysW_loc (s : State) (a : Nat) (b : List Byte) : (s.sysW a b).loc = s.loc :=
  State.unpoison_loc _ _ _

@[simp] theorem State.sysW_can (s : State) (a : Nat) (b : List Byte) : (s.sysW a b).can = s.can :=
  State.unpoison_can _ _ _

@[simp] theorem State.sysW_pwr (s : State) (a : Nat) (b : List Byte) : (s.sysW a b).pwr = s.pwr :=
  State.unpoison_pwr _ _ _

@[simp] theorem State.sysW_mgmt (s : State) (a : Nat) (b : List Byte) : (s.sysW a b).mgmt = s.mgmt :=
  State.unpoison_mgmt _ _ _

@[simp] theorem State.sysW_recd (s : State) (a : Nat) (b : List Byte) : (s.sysW a b).recd = s.recd :=
  State.unpoison_recd _ _ _

@[simp] theorem State.sysW_panel (s : State) (a : Nat) (b : List Byte) : (s.sysW a b).panel = s.panel :=
  State.unpoison_panel _ _ _

@[simp] theorem State.sysW_now (s : State) (a : Nat) (b : List Byte) : (s.sysW a b).now = s.now :=
  State.unpoison_now _ _ _

@[simp] theorem State.sysW_out (s : State) (a : Nat) (b : List Byte) : (s.sysW a b).out = s.out :=
  State.unpoison_out _ _ _

@[simp] theorem State.sysW_freeCtr (s : State) (a : Nat) (b : List Byte) : (s.sysW a b).freeCtr = s.freeCtr :=
  State.unpoison_freeCtr _ _ _

@[simp] theorem State.sysW_pending (s : State) (a : Nat) (b : List Byte) : (s.sysW a b).pending = s.pending :=
  State.unpoison_pending _ _ _

/-! ## Fields of a word -/

theorem maskBits_getLsbD (lo len i : Nat) (hi : i < 32) :
    (maskBits lo len).getLsbD i = (decide (lo ≤ i) && decide (i < lo + len)) := by
  simp only [maskBits, BitVec.getLsbD_shiftLeft, BitVec.getLsbD_ofNat, Nat.testBit_two_pow_sub_one, hi, decide_true,
    Bool.true_and]
  by_cases h : i < lo
  · have h2 : ¬ lo ≤ i := by omega
    simp [h, h2]
  · have h2 : lo ≤ i := by omega
    have h3 : i - lo < 32 := by omega
    simp only [h, h2, h3, decide_true, decide_false, Bool.not_false, Bool.true_and]
    congr 1
    simp only [eq_iff_iff]
    omega

theorem putBits_getLsbD (w : Word) (lo len v i : Nat) (hi : i < 32) : (putBits w lo len v).getLsbD i =
    if lo ≤ i ∧ i < lo + len then v.testBit (i - lo) else w.getLsbD i := by
  have hm := maskBits_getLsbD lo len i hi
  simp only [putBits, BitVec.getLsbD_or, BitVec.getLsbD_and, BitVec.getLsbD_not, hm, hi, decide_true, Bool.true_and,
    BitVec.getLsbD_shiftLeft, BitVec.getLsbD_ofNat, Nat.testBit_mod_two_pow]
  by_cases h1 : lo ≤ i
  · by_cases h2 : i < lo + len
    · have h3 : ¬ i < lo := by omega
      have h4 : i - lo < 32 := by omega
      have h5 : i - lo < len := by omega
      simp [h1, h2, h3, h4, h5]
    · have h3 : ¬ i < lo := by omega
      have h5 : ¬ i - lo < len := by omega
      simp [h1, h2, h5]
  · have h3 : i < lo := by omega
    simp [h1, h3]

theorem getBits_testBit (w : Word) (lo len i : Nat) :
    (getBits w lo len).testBit i = (decide (i < len) && w.getLsbD (lo + i)) := by
  simp only [getBits, Nat.testBit_mod_two_pow, BitVec.testBit_toNat, BitVec.getLsbD_ushiftRight]

/-- A field reads as what was put into it. -/
theorem getBits_putBits (w : Word) {lo len : Nat} (v : Nat) (h : lo + len ≤ 32) :
    getBits (putBits w lo len v) lo len = v % 2 ^ len := by
  apply Nat.eq_of_testBit_eq
  intro i
  rw [getBits_testBit, Nat.testBit_mod_two_pow]
  by_cases hi : i < len
  · rw [putBits_getLsbD w lo len v (lo + i) (by omega), if_pos (by omega)]
    simp
  · simp [hi]

/-- A field reads as before where another one was put. -/
theorem getBits_putBits_ne (w : Word) {lo len lo2 len2 : Nat} (v : Nat) (h2 : lo2 + len2 ≤ 32)
    (h : lo + len ≤ lo2 ∨ lo2 + len2 ≤ lo) : getBits (putBits w lo len v) lo2 len2 = getBits w lo2 len2 := by
  apply Nat.eq_of_testBit_eq
  intro i
  rw [getBits_testBit, getBits_testBit]
  by_cases hi : i < len2
  · rw [putBits_getLsbD w lo len v (lo2 + i) (by omega), if_neg (by omega)]
  · simp [hi]

/-! ## Registers after a write -/

theorem State.rd_wr (s : State) (o p : Nat) (w : Word) : (s.wr o w).rd p = if o = p then w else s.rd p :=
  tget_tset _ _ _ _ _

@[simp] theorem State.rd_wr_same (s : State) (o : Nat) (w : Word) : (s.wr o w).rd o = w := by simp [State.rd_wr]

theorem State.rd_wr_ne (s : State) {o p : Nat} (w : Word) (h : o ≠ p) : (s.wr o w).rd p = s.rd p := by
  simp [State.rd_wr, h]

/-- A field after it was put. -/
theorem State.get_put_same (s : State) {f : Fld} (v : Nat) (h : f.lo + f.len ≤ 32) : (s.put f v).get f = v % 2 ^ f.len := by
  simp only [State.get, State.put, State.rd_wr_same]
  exact getBits_putBits _ v h

/-- Another field after a put: one of another word, or one of other bits. -/
theorem State.get_put_ne (s : State) {f g : Fld} (v : Nat)
    (h : f.off ≠ g.off ∨ (g.lo + g.len ≤ 32 ∧ (f.lo + f.len ≤ g.lo ∨ g.lo + g.len ≤ f.lo))) :
    (s.put f v).get g = s.get g := by
  simp only [State.get, State.put, State.rd_wr]
  split
  · rename_i he
    obtain h | h := h
    · exact absurd he h
    · rw [he]; exact getBits_putBits_ne _ v h.1 h.2
  · rfl

/-- A word of another register after a put. -/
theorem State.rd_put_ne (s : State) {f : Fld} (v : Nat) {o : Nat} (h : f.off ≠ o) : (s.put f v).rd o = s.rd o :=
  State.rd_wr_ne _ _ h

/-! ## Parts after an update -/

theorem State.core_setCore (s : State) (c d : Nat) (k : CoreState) :
    (s.setCore c k).core d = if c = d then k else s.core d := tget_tset _ _ _ _ _

theorem State.core_co (s : State) (c d : Nat) (f : CoreState → CoreState) :
    (s.co c f).core d = if c = d then f (s.core c) else s.core d := State.core_setCore _ _ _ _

@[simp] theorem State.core_co_same (s : State) (c : Nat) (f : CoreState → CoreState) : (s.co c f).core c = f (s.core c) := by
  simp [State.core_co]

theorem State.part_pa (s : State) (p q : Nat) (f : PartState → PartState) :
    (s.pa p f).part q = if p = q then f (s.part p) else s.part q := tget_tset _ _ _ _ _

theorem State.ring_ri (s : State) (r q : Nat) (f : RingState → RingState) :
    (s.ri r f).ring q = if r = q then f (s.ring r) else s.ring q := tget_tset _ _ _ _ _

theorem State.slot_sl (s : State) (i j : Nat) (f : SlotDyn → SlotDyn) :
    (s.sl i f).slot j = if i = j then f (s.slot i) else s.slot j := tget_tset _ _ _ _ _

theorem State.canCh_setCan (s : State) (c d : Nat) (k : CanState) :
    (s.setCan c k).canCh d = if c = d then k else s.canCh d := tget_tset _ _ _ _ _

theorem State.session_setSession (s : State) (n m : Nat) (k : Option Session) :
    (s.setSession n k).session m = if n = m then k else s.session m := tget_tset _ _ _ _ _

theorem State.sub_setSub (s : State) (i j : Nat) (k : SubState) :
    (s.setSub i k).sub j = if i = j then k else s.sub j := tget_tset _ _ _ _ _

/-! ## Memory after a write -/

theorem State.memB_memW_out (s : State) (a : Nat) (l : List Byte) {c : Nat} (h : c < a ∨ a + l.length ≤ c) :
    (s.memW a l).memB c = s.memB c := Memory.read_writeN_out _ a l h

theorem State.memL_memW (s : State) (a : Nat) (l : List Byte) : (s.memW a l).memL a l.length = l :=
  Memory.readN_writeN _ a l

theorem State.memB_sysW_out (s : State) (a : Nat) (l : List Byte) {c : Nat} (h : c < a ∨ a + l.length ≤ c) :
    (s.sysW a l).memB c = s.memB c := by
  unfold State.sysW State.memB
  rw [State.unpoison_mem]
  exact Memory.read_writeN_out _ a l h

theorem State.memL_sysW (s : State) (a : Nat) (l : List Byte) : (s.sysW a l).memL a l.length = l := by
  unfold State.sysW State.memL
  rw [State.unpoison_mem]
  exact Memory.readN_writeN _ a l

/-! ## A raise -/

/-- A raise with room for it stands last in the queue of the recorder; nothing else changes. -/
theorem State.raise_room (s : State) {code isl : Nat} {data : List Byte} (h : s.recd.waiting isl < 16) :
    s.raise code isl data = { s with recd := { s.recd with queue := s.recd.queue ++ [s.raised code isl data] } } := by
  unfold State.raise
  rw [if_pos h]

/-- A raise leaves every register but those of the recorder. -/
theorem State.rd_raise (s : State) (code isl : Nat) (data : List Byte) {o : Nat} (h1 : o ≠ F.EVT_COUNTS_LOST.off)
    (h2 : o ≠ F.EVT_STATUS_LOST.off) : (s.raise code isl data).rd o = s.rd o := by
  have h : (((s.bump F.EVT_COUNTS_LOST 1).put F.EVT_STATUS_LOST 1).total 0x19C 4 1).rd o = s.rd o :=
    (State.rd_put_ne _ _ h2.symm).trans (State.rd_put_ne _ _ h1.symm)
  unfold State.raise State.raiseLost
  dsimp only
  split
  · rfl
  · split <;> exact h

/-- A raise leaves every field of a register that is not the recorder's. -/
theorem State.get_raise (s : State) (code isl : Nat) (data : List Byte) {f : Fld} (h1 : f.off ≠ F.EVT_COUNTS_LOST.off)
    (h2 : f.off ≠ F.EVT_STATUS_LOST.off) : (s.raise code isl data).get f = s.get f := by
  simp only [State.get, State.rd_raise s code isl data h1 h2]

end Sys2Proof.Machine
end

