-- ==== Sys2Proof/Laws/Frame.lean ====
section
/-! SUPPORT. Frames: operations that change registers alone, and which. -/
namespace Sys2Proof.Machine

theorem SameRegs.refl (s : State) (l : List Nat) : SameRegs s s l := fun _ _ => rfl

theorem SameRegs.trans {s t u : State} {l : List Nat} (h1 : SameRegs s t l) (h2 : SameRegs t u l) : SameRegs s u l :=
  fun o h => (h2 o h).trans (h1 o h)

theorem SameRegs.mono {s t : State} {l m : List Nat} (h : SameRegs s t l) (hs : ∀ o, o ∈ l → o ∈ m) : SameRegs s t m :=
  fun o ho => h o (fun hl => ho (hs o hl))

theorem OnlyRegs.refl (s : State) (l : List Nat) : OnlyRegs s s l := ⟨rfl, SameRegs.refl s l⟩

theorem OnlyRegs.wr {s t : State} {l : List Nat} {o : Nat} (w : Word) (ho : o ∈ l) (h : OnlyRegs s t l) :
    OnlyRegs s (t.wr o w) l := by
  refine ⟨?_, fun p hp => ?_⟩
  · have h1 := h.1
    exact (congrArg (fun u : State => { u with regs := (t.wr o w).regs }) h1)
  · rw [State.rd_wr_ne _ _ (fun e : o = p => hp (e ▸ ho))]
    exact h.2 p hp

theorem OnlyRegs.put {s t : State} {l : List Nat} {f : Fld} (v : Nat) (ho : f.off ∈ l) (h : OnlyRegs s t l) :
    OnlyRegs s (t.put f v) l := OnlyRegs.wr _ ho h

theorem OnlyRegs.putB {s t : State} {l : List Nat} {f : Fld} (b : Bool) (ho : f.off ∈ l) (h : OnlyRegs s t l) :
    OnlyRegs s (t.putB f b) l := OnlyRegs.put _ ho h

theorem OnlyRegs.bump {s t : State} {l : List Nat} {f : Fld} (n : Nat) (ho : f.off ∈ l) (h : OnlyRegs s t l) :
    OnlyRegs s (t.bump f n) l := OnlyRegs.put _ ho h

theorem OnlyRegs.wrN {s t : State} {l : List Nat} {o : Nat} (v : Nat) (ho : o ∈ l) (h : OnlyRegs s t l) :
    OnlyRegs s (t.wrN o v) l := OnlyRegs.wr _ ho h

theorem OnlyRegs.wr64 {s t : State} {l : List Nat} {o : Nat} (v : Nat) (h1 : o ∈ l) (h2 : o + 4 ∈ l) (h : OnlyRegs s t l) :
    OnlyRegs s (t.wr64 o v) l := OnlyRegs.wr _ h2 (OnlyRegs.wr _ h1 h)

theorem OnlyRegs.setBit {s t : State} {l : List Nat} {o : Nat} (i : Nat) (b : Bool) (ho : o ∈ l) (h : OnlyRegs s t l) :
    OnlyRegs s (t.setBit o i b) l := OnlyRegs.wr _ ho h

theorem OnlyRegs.each {α : Type} {s t : State} {l : List Nat} {a : List α} {f : State → α → State}
    (hf : ∀ x ∈ a, ∀ u, OnlyRegs s u l → OnlyRegs s (f u x) l) (h : OnlyRegs s t l) : OnlyRegs s (t.each a f) l := by
  unfold State.each
  induction a generalizing t with
  | nil => exact h
  | cons x a ih => exact ih (fun y hy => hf y (List.mem_cons_of_mem _ hy)) (hf x (List.mem_cons_self ..) t h)

theorem OnlyRegs.trans {s t u : State} {l : List Nat} (h1 : OnlyRegs s t l) (h2 : OnlyRegs t u l) : OnlyRegs s u l := by
  refine ⟨?_, h1.2.trans h2.2⟩
  have h := h2.1
  rw [h1.1] at h
  exact h

/-- A field of a register that does not differ. -/
theorem OnlyRegs.get {s t : State} {l : List Nat} (h : OnlyRegs s t l) {f : Fld} (hf : ¬ f.off ∈ l) : t.get f = s.get f := by
  simp only [State.get, h.2 f.off hf]

/-- The registers that show what MRAM and flash hold. -/
def nvRegs : List Nat :=
  [R.MOD_RESET_CAUSE, R.MOD_OPSEC, R.MOD_OPSEC + 4, R.MOD_PWRCYC, R.PWR_HOLDUP, R.IMG_KEYS, R.IMG_SLOT 0, R.IMG_SLOT 1,
   R.IMG_SLOT 2, R.IMG_SLOT 3, R.EVT_HEAD, R.EVT_HEAD + 4, R.EVT_ARCH, R.EVT_ARCH + 4, R.ID_PART, R.ID_SERIAL_LO, R.ID_SERIAL_HI,
   R.ID_ISSUE, R.ID_DEVKEY 0, R.ID_DEVKEY 1, R.ID_DEVKEY 2, R.ID_DEVKEY 3, R.ID_DEVKEY 4, R.ID_DEVKEY 5, R.ID_DEVKEY 6,
   R.ID_DEVKEY 7, R.IMG_HO_STATUS, R.IMG_CS_STATUS, R.TWN_STATUS]

theorem State.showNv_only (s : State) : OnlyRegs s s.showNv nvRegs := by
  have hk : ∀ n ∈ List.range 4, R.IMG_SLOT n ∈ nvRegs := by decide
  have hd : ∀ n ∈ List.range 8, R.ID_DEVKEY n ∈ nvRegs := by decide
  unfold State.showNv
  dsimp only
  repeat' first
    | with_reducible exact OnlyRegs.refl s _
    | with_reducible refine OnlyRegs.putB _ (by decide) ?_
    | with_reducible refine OnlyRegs.put _ (by decide) ?_
    | with_reducible refine OnlyRegs.wrN _ (by decide) ?_
    | with_reducible refine OnlyRegs.wr64 _ (by decide) (by decide) ?_
    | with_reducible refine OnlyRegs.wr _ (by decide) ?_
    | with_reducible refine OnlyRegs.each ?_ ?_
  · exact fun n hn _ hu => OnlyRegs.wrN _ (hd n hn) hu
  · exact fun n hn _ hu => OnlyRegs.wrN _ (hk n hn) hu

end Sys2Proof.Machine
end

