-- ==== Sys2Proof/Laws/Qmp.lean ====
section
/-! SUPPORT. What a request of the management protocol does when it comes to its execution (17 R731 to R735). -/
namespace Sys2Proof.Machine

/-- The state in which a request runs differs from the one before in its session. -/
theorem State.served_eq (s : State) (ses : Fin 16) : ∃ m, s.served ses = { s with mgmt := m } := by
  unfold State.served
  split
  · exact ⟨_, rfl⟩
  · exact ⟨s.mgmt, rfl⟩

theorem State.request_serves {s : State} {ses : Fin 16} {req cmd : Nat} {c a : Bool} {f : State → Answer}
    (h : s.Serves ses req c a) : ∃ k, (s.served ses).session ses.val = some k ∧ s.request ses req cmd c a f =
      match (f (s.served ses)).2 with
      | some x => (f (s.served ses)).1.answer ses.val { cmd := cmd, req := req, status := x.1, payload := x.2 }
      | none => (f (s.served ses)).1.setSession ses.val (some { k with running := some req, last := s.now }) := by
  obtain ⟨hh, ha, k, hk, hf, hn, hr, hc⟩ := h
  refine ⟨{ k with last := s.now }, ?_, ?_⟩
  · simp [State.served, hk, State.session_setSession]
  · have h1 : ¬(k.running.isSome ∧ k.running ≠ some req) := by
      rintro ⟨h1, h2⟩
      rcases hr with hr | hr
      · simp [hr] at h1
      · exact h2 hr
    have h2 : ¬(c = true ∧ (!k.control) = true) := by
      rintro ⟨h1, h2⟩
      simp [hc h1] at h2
    have h3 : ¬(a = true ∧ (!s.isActive) = true) := by
      rintro ⟨h1, h2⟩
      simp [ha h1] at h2
    unfold State.request
    simp only [hh, hk, hf, State.served]
    rw [if_neg (by simp), if_neg hn, if_neg h1, if_neg h2, if_neg h3]
    all_goals (split <;> simp_all)

/-- Messages sent one after the other. -/
theorem State.each_send {α : Type} (s : State) (l : List α) (f : α → Output) :
    s.each l (fun t i => t.send (f i)) = { s with out := s.out ++ l.map f } := by
  unfold State.each
  induction l generalizing s with
  | nil => simp
  | cons a l ih => exact (ih (s.send (f a))).trans (by simp [State.send])

/-- A response sends its fragments and does nothing else. -/
theorem State.respond_eq (s : State) (n : Nat) (r : QmpResp) :
    s.respond n r = { s with out := s.out ++ (List.range r.count).map (fun i => .qmp n (r.fragment i)) } := State.each_send s _ _

/-- A session that is open answers, and the response is kept. -/
theorem State.answer_some {s : State} {n : Nat} {k : Session} (h : s.session n = some k) (r : QmpResp) :
    s.answer n r = (s.setSession n (some { k with kept := (r :: k.kept).take 32, running := none })).respond n r := by
  simp [State.answer, h]

/-- An answer changes the session and what was sent. -/
theorem State.answer_eq (s : State) (n : Nat) (r : QmpResp) : ∃ m o, s.answer n r = { s with mgmt := m, out := o } := by
  unfold State.answer
  split
  · exact ⟨s.mgmt, s.out, rfl⟩
  · rw [State.respond_eq]
    exact ⟨_, _, rfl⟩

end Sys2Proof.Machine
end

