-- ==== Sys2Proof/WellFormed.lean ====
section
/-! DEFINITION. Well-formed commands: operands that the sizes and codings of the spec admit. The meanings do not ask for it:
they give every command an effect. -/
namespace Sys2Proof

open Machine

/-- REQ_ID of a request is 32 bits wide (17 R730). -/
def reqOk (req : Nat) : Bool := decide (req < 4294967296)

/-- A ring frame is 64 to 2,000 bytes long (08 R357). -/
def frameLen (b : List Byte) : Bool := decide (64 ≤ b.length) && decide (b.length ≤ 2000)

/-- A key record holds a key of 32 bytes where it installs one, and a signature of 64 bytes (02 R63). -/
def keyOk (r : KeyRecord) : Bool := (!r.install || decide (r.key.length = 32)) && decide (r.sig.length = 64)

/-- A CAN frame: an identifier of at most 29 bits, a length code, and as many bytes of data (15 R662). -/
def canOk (f : CanFrame) : Bool :=
  decide (f.id < 536870912) && decide (f.dlc < 16) && decide (f.data.length = if f.rtr then 0 else dlcBytes f.dlc f.fdf)

/-- A READ names one of the eight classes and points of 20 bits (17 R734, 04 R139). -/
def readOk : ReadReq → Bool
  | .regs a _ => decide (a < 4294967296)
  | .points c l => decide (c ≤ 7) && l.all (fun p => decide (p < 1048576))

/-- Whether a command's operands are ones that the spec admits; a core command carries a word of its own encoding (12 R549). -/
def Instr.wf : Instr → Bool
  | .boundaryMessage _ _ _ _ _ => true
  | .changeSetDiscard _ _ => true
  | .samplePhasePStart => true
  | .summarySnapshotTimed _ => true
  | .canRxTimeout _ _ => true
  | .linkDecouple _ => true
  | .twinSplitCheck _ _ _ _ _ _ _ _ => true
  | .imageClose _ _ => true
  | .freezeComplete _ => true
  | .sampleComplete _ _ _ _ => true
  | .sampleDeadline _ => true
  | .tracePreFilled _ => true
  | .tracePostFilled _ => true
  | .traceOffloadComplete _ => true
  | .stagingInstant _ _ => true
  | .stagingLate _ _ _ => true
  | .commitRecordRx _ _ _ _ => true
  | .commitRecordMissing _ _ => true
  | .lagStateTransfer _ => true
  | .runLimit _ _ => true
  | .rollbackComplete _ _ => true
  | .cycPctlRestart _ _ => true
  | .cycPctlHalt _ _ => true
  | .partitionCommandRx _ _ _ => true
  | .ringFrameRx _ bytes _ => frameLen bytes
  | .rxDeadline _ _ => true
  | .digestRx _ _ _ _ => true
  | .segmentCopyRx _ seg _ payload _ => decide (seg < 65536) && decide (payload.length ≤ 1948)
  | .agreementDeadline _ => true
  | .closeRecordRx _ _ _ _ => true
  | .closeRecordMissing _ => true
  | .acyclicReplyRx _ bytes _ _ => frameLen bytes
  | .acyclicReplyFromPartner _ _ _ => true
  | .ringPortLinkChange _ _ _ => true
  | .pluggableInsert _ _ _ _ => true
  | .pluggableRemove _ _ => true
  | .censusStart _ _ => true
  | .censusFrameBack _ kind _ bytes _ _ _ _ _ _ _ => decide (kind.val ≠ 0) && frameLen bytes
  | .censusFrameTimeout _ _ => true
  | .censusLaunchRequest _ o => decide (1 ≤ o.kind) && decide (o.kind ≤ 3)
  | .rngRelease _ _ => true
  | .rngCensusNow _ => true
  | .rngScapRun _ _ _ _ => true
  | .foxTick _ => true
  | .foxWordRx bytes _ _ => decide (bytes.length = 64)
  | .failingMessageRx bytes _ => decide (bytes.length = 64)
  | .failingMessageSend cause => decide (cause.val ≠ 0)
  | .switchRecordRx bytes _ _ => decide (bytes.length = 64)
  | .switchAckRx bytes _ => decide (bytes.length = 64)
  | .switchAckMissing _ => true
  | .badgerFrameTx _ => true
  | .badgerFrameRx bytes _ => decide (bytes.length = 9)
  | .badgerMiss _ => true
  | .suspectEntry _ => true
  | .signatureRx sg _ _ => decide (sg.kind ≤ 8)
  | .higherEpochRelease _ _ => true
  | .listenTimeout _ => true
  | .joinCheckDone _ _ => true
  | .joinTimeHeld _ _ => true
  | .joinCopyComplete _ _ _ => true
  | .forwardedWriteRx _ _ _ => true
  | .joinTimeout _ => true
  | .joinRetry _ => true
  | .twnSwap _ => true
  | .twnRejoin => true
  | .revertExpiry _ => true
  | .proofDue _ => true
  | .moduleFault fault _ => decide (fault.val ≠ 0)
  | .handover _ req _ _ _ => reqOk req
  | .handoverAbort _ => true
  | .handoverMappingDone _ _ _ => true
  | .handoverWindowExpiry _ => true
  | .imageRestart _ => true
  | .copyBurstStage _ bytes => frameLen bytes
  | .changeset _ req _ _ => reqOk req
  | .changesetForwardRx _ => true
  | .slotFlagClear _ _ _ => true
  | .flagClearRx _ _ _ => true
  | .traceArm _ => true
  | .traceSwTrig _ => true
  | .traceAbort _ => true
  | .profileChunk _ req _ _ _ => reqOk req
  | .profileFinish _ req _ => reqOk req
  | .imageCheckDone _ => true
  | .profileSelect _ req _ _ => reqOk req
  | .profileClear _ req => reqOk req
  | .profileKey _ req r => reqOk req && keyOk r
  | .profileList _ req => reqOk req
  | .selSet => true
  | .selClear => true
  | .transactionTimeout _ _ _ _ => true
  | .tagQuarantineEnd _ _ _ => true
  | .lateResponseRx _ _ => true
  | .noIslandResponse _ _ _ => true
  | .fabricWindowEnd _ _ _ ready => decide (ready.length ≤ 800)
  | .hbmStressWindow _ _ => true
  | .hbmRequest _ _ _ _ _ _ => true
  | .sramScrub _ _ _ => true
  | .flashWriteError => true
  | .timeStart _ => true
  | .lockWaitExpiry _ => true
  | .ptpSyncRx _ _ _ _ _ _ _ => true
  | .ptpFollowUpRx _ _ _ _ _ => true
  | .ptpAnnounceRx _ _ _ _ => true
  | .ptpPdelayReqRx _ _ _ => true
  | .ptpPdelayRespRx _ _ _ _ => true
  | .ptpPdelayRespFollowUpRx _ _ => true
  | .ptpSignalingRx _ _ => true
  | .ptpSyncTx _ _ _ _ => true
  | .ptpAnnounceTx _ _ => true
  | .ptpPdelayTx _ => true
  | .ptpReceiptTimeout _ _ _ => true
  | .domainRequalified _ _ => true
  | .servoReferenceChange _ => true
  | .holdoverDegraded _ => true
  | .ageingMeasurement _ _ => true
  | .timStep _ _ => true
  | .timApply _ => true
  | .stepRequestRx _ _ => true
  | .timeRestart => true
  | .timNsRead _ => true
  | .ppsOutEdge _ _ => true
  | .ppsInEdge _ => true
  | .lineFrameRx _ bytes _ => frameLen bytes
  | .publicationFromActive _ _ => true
  | .couplingDeadline _ _ _ _ => true
  | .linePortLinkChange _ _ _ => true
  | .coreAdd _ w => E.ADD.fits w
  | .coreSub _ w => E.SUB.fits w
  | .coreAnd _ w => E.AND.fits w
  | .coreIor _ w => E.IOR.fits w
  | .coreXor _ w => E.XOR.fits w
  | .coreShl _ w => E.SHL.fits w
  | .coreShr _ w => E.SHR.fits w
  | .coreSha _ w => E.SHA.fits w
  | .coreLess _ w => E.LESS.fits w
  | .coreLessu _ w => E.LESSU.fits w
  | .coreMul _ w => E.MUL.fits w
  | .coreMulhi _ w => E.MULHI.fits w
  | .coreMulhiu _ w => E.MULHIU.fits w
  | .coreMulhix _ w => E.MULHIX.fits w
  | .coreDiv _ w => E.DIV.fits w
  | .coreDivu _ w => E.DIVU.fits w
  | .coreMod _ w => E.MOD.fits w
  | .coreModu _ w => E.MODU.fits w
  | .coreAdd32 _ w => E.ADD32.fits w
  | .coreSub32 _ w => E.SUB32.fits w
  | .coreShl32 _ w => E.SHL32.fits w
  | .coreShr32 _ w => E.SHR32.fits w
  | .coreSha32 _ w => E.SHA32.fits w
  | .coreMul32 _ w => E.MUL32.fits w
  | .coreDiv32 _ w => E.DIV32.fits w
  | .coreDivu32 _ w => E.DIVU32.fits w
  | .coreMod32 _ w => E.MOD32.fits w
  | .coreModu32 _ w => E.MODU32.fits w
  | .coreAddk _ w => E.ADDK.fits w
  | .coreAndk _ w => E.ANDK.fits w
  | .coreIork _ w => E.IORK.fits w
  | .coreXork _ w => E.XORK.fits w
  | .coreLessk _ w => E.LESSK.fits w
  | .coreLessuk _ w => E.LESSUK.fits w
  | .coreShiftk _ w => E.SHIFTK.fits w
  | .coreAdd32k _ w => E.ADD32K.fits w
  | .coreMkhi _ w => E.MKHI.fits w
  | .corePchi _ w => E.PCHI.fits w
  | .coreLdpc _ w => E.LDPC.fits w
  | .coreLd8s _ w => E.LD8S.fits w
  | .coreLd8u _ w => E.LD8U.fits w
  | .coreLd16s _ w => E.LD16S.fits w
  | .coreLd16u _ w => E.LD16U.fits w
  | .coreLd32s _ w => E.LD32S.fits w
  | .coreLd32u _ w => E.LD32U.fits w
  | .coreLd64 _ w => E.LD64.fits w
  | .coreSt8 _ w => E.ST8.fits w
  | .coreSt16 _ w => E.ST16.fits w
  | .coreSt32 _ w => E.ST32.fits w
  | .coreSt64 _ w => E.ST64.fits w
  | .coreFld32 _ w => E.FLD32.fits w
  | .coreFld64 _ w => E.FLD64.fits w
  | .coreFst32 _ w => E.FST32.fits w
  | .coreFst64 _ w => E.FST64.fits w
  | .coreBreq _ w => E.BREQ.fits w
  | .coreBrne _ w => E.BRNE.fits w
  | .coreBrlt _ w => E.BRLT.fits w
  | .coreBrge _ w => E.BRGE.fits w
  | .coreBrltu _ w => E.BRLTU.fits w
  | .coreBrgeu _ w => E.BRGEU.fits w
  | .coreJmp _ w => E.JMP.fits w
  | .coreCall _ w => E.CALL.fits w
  | .coreJmpr _ w => E.JMPR.fits w
  | .coreCallr _ w => E.CALLR.fits w
  | .coreEnter _ w => E.ENTER.fits w
  | .coreLeave _ w => E.LEAVE.fits w
  | .coreRet _ w => E.RET.fits w
  | .coreFadd _ w => E.FADD.fits w
  | .coreFsub _ w => E.FSUB.fits w
  | .coreFmul _ w => E.FMUL.fits w
  | .coreFdiv _ w => E.FDIV.fits w
  | .coreFsqrt _ w => E.FSQRT.fits w
  | .coreFmin _ w => E.FMIN.fits w
  | .coreFmax _ w => E.FMAX.fits w
  | .coreFabs _ w => E.FABS.fits w
  | .coreFneg _ w => E.FNEG.fits w
  | .coreFcsgn _ w => E.FCSGN.fits w
  | .coreFcmpeq _ w => E.FCMPEQ.fits w
  | .coreFcmplt _ w => E.FCMPLT.fits w
  | .coreFcmple _ w => E.FCMPLE.fits w
  | .coreFkind _ w => E.FKIND.fits w
  | .coreFtoi64 _ w => E.FTOI64.fits w
  | .coreFtou64 _ w => E.FTOU64.fits w
  | .coreFtoi32 _ w => E.FTOI32.fits w
  | .coreFtou32 _ w => E.FTOU32.fits w
  | .coreI64tof _ w => E.I64TOF.fits w
  | .coreU64tof _ w => E.U64TOF.fits w
  | .coreI32tof _ w => E.I32TOF.fits w
  | .coreU32tof _ w => E.U32TOF.fits w
  | .coreFwidth _ w => E.FWIDTH.fits w
  | .coreFtobits _ w => E.FTOBITS.fits w
  | .coreBitstof _ w => E.BITSTOF.fits w
  | .coreFmac _ w => E.FMAC.fits w
  | .coreFmsc _ w => E.FMSC.fits w
  | .coreFnmac _ w => E.FNMAC.fits w
  | .coreFnmsc _ w => E.FNMSC.fits w
  | .coreSysrd _ w => E.SYSRD.fits w
  | .coreSyswr _ w => E.SYSWR.fits w
  | .coreSysset _ w => E.SYSSET.fits w
  | .coreSysclr _ w => E.SYSCLR.fits w
  | .coreSyscall _ w _ _ => E.SYSCALL.fits w
  | .coreBreak _ w => E.BREAK.fits w
  | .coreTrap _ w => E.TRAP.fits w
  | .coreTret _ w => E.TRET.fits w
  | .coreSwctx _ w => E.SWCTX.fits w
  | .coreWspill _ w => E.WSPILL.fits w
  | .coreWfill _ w => E.WFILL.fits w
  | .coreWait _ w => E.WAIT.fits w
  | .coreFence _ w => E.FENCE.fits w
  | .coreCflush _ w => E.CFLUSH.fits w
  | .coreXrd _ w => E.XRD.fits w
  | .coreXwr _ w => E.XWR.fits w
  | .interruptEntry _ => true
  | .timecmpExpiry _ _ => true
  | .twinRecordArrival _ => true
  | .mgmtRequestPost _ => true
  | .signatureWindowClose _ _ _ _ => true
  | .lockstepResetComplete _ => true
  | .storeErrorResponse _ _ => true
  | .injectionTest _ => true
  | .injectionTestDone _ _ _ _ => true
  | .testLaneCheck _ _ _ => true
  | .accLoad _ _ => true
  | .accLoadComplete _ => true
  | .accFaddrRead _ => true
  | .diSample mv _ => decide (mv.length = 32)
  | .diFilterStateChange _ => true
  | .crossingFrameTx _ _ => true
  | .crossingFrameRx _ _ bytes _ => decide (bytes.length = 19)
  | .crossingTimeout _ _ _ => true
  | .doGroupFaultChange _ _ => true
  | .tripInputChange _ _ _ => true
  | .dioTripClr _ _ => true
  | .tripClearRx _ _ => true
  | .analogueConversion _ _ _ => true
  | .analogueOutFault _ _ => true
  | .analogueMiswire _ _ => true
  | .loopSupplyLimit _ _ => true
  | .hartPoll _ _ => true
  | .hartReplyRx _ vars _ => decide (vars.length ≤ 4)
  | .hartReplyTimeout _ _ => true
  | .hartSweep _ _ => true
  | .hartSearch _ => true
  | .calCommit => true
  | .calWriteComplete => true
  | .canFrameRx _ f _ _ _ _ => canOk f
  | .canFrameListRx _ _ => true
  | .canFrameListMissing _ _ => true
  | .canTxDone _ _ _ _ => true
  | .canTxAttemptFail _ _ _ _ => true
  | .canBusOff _ => true
  | .canAutoRecover _ => true
  | .canRecover _ => true
  | .canPop0 _ => true
  | .canPop1 _ => true
  | .canPush _ => true
  | .canBstatRead _ => true
  | .feedQualified _ _ _ => true
  | .feedLost _ _ _ => true
  | .holdUpBegin _ => true
  | .lastWordsComplete _ => true
  | .holdUpPowerDown _ => true
  | .panelDischargeComplete _ => true
  | .holdUpEnd _ => true
  | .stageEnd _ _ _ _ => true
  | .stageTimeout _ _ _ => true
  | .domainPowerUpRetry _ _ _ => true
  | .bringUpRetry _ => true
  | .slotIdRead _ _ => true
  | .bankChargeTimeout _ _ => true
  | .domainFault _ _ => true
  | .rstInHeld _ => true
  | .rstInRelease _ => true
  | .lifeWordLost _ => true
  | .modRestart _ => true
  | .modForceRestart _ => true
  | .moduleRestart _ _ => true
  | .opsecTick _ _ _ _ _ _ => true
  | .temperatureSample _ _ _ _ => true
  | .qmpFragmentRx _ b _ => decide (16 ≤ b.length) && decide (b.length ≤ 1200)
  | .qmpFragmentTimeout _ req _ => reqOk req
  | .dtlsHandshake _ key _ _ _ _ _ => decide (key.length = 32)
  | .sessionIdleTimeout _ _ => true
  | .networkEcho _ _ _ _ => true
  | .read _ req r _ => reqOk req && readOk r
  | .write _ req _ _ => reqOk req
  | .summary _ req => reqOk req
  | .swap _ req _ => reqOk req
  | .events _ req _ _ _ _ => reqOk req
  | .traceSave _ req _ _ => reqOk req
  | .traceRead _ req _ _ _ => reqOk req
  | .traceList _ req => reqOk req
  | .timeQuery _ req _ => reqOk req
  | .timeStep _ req _ _ => reqOk req
  | .timeApply _ req _ => reqOk req
  | .censusRead _ req _ => reqOk req
  | .censusNow _ req _ => reqOk req
  | .rejoin _ req _ => reqOk req
  | .restart _ req _ _ => reqOk req
  | .eventRaise _ => true
  | .suppressionReport _ _ => true
  | .archiveBlockWrite _ => true
  | .panelUpdateStart _ => true
  | .panelUpdateComplete _ _ => true
  | .panelCheck _ _ => true
  | .lampTestEnd _ => true
  | .buttonRelease _ _ => true
  | .buttonStuck _ => true
  | .buttonUnstuck _ => true
  | .confirmExpiry _ => true
  | .latchedLowWordRead off => latchedLows.contains off.toNat
  | .rcFieldRead off => ((regRow? off.toNat).map (fun r => decide (r.rc ≠ 0))).getD false
  | .registerWrite _ _ off _ _ => decide (off.toNat % 4 = 0)
  | .pd0PowerUp _ _ => true
  | .keyRecordFromActive r => keyOk r
  | .censusResultsFromActive _ _ _ _ _ _ _ _ => true
  | .handoverStartFromActive _ _ => true
  | .partnerRingPortDown _ _ => true

end Sys2Proof
end

