-- ==== Sys2Proof/Tests/Slice0.lean ====
section
/-! SUPPORT. Tests: ill-formed commands are refused by each check of well-formedness, worked examples of the spec, and for every
statement that has hypotheses a state and operands that meet them, clause by clause. -/
namespace Sys2Proof.Tests

/-! The proofs below run one after another: as many kernel evaluations at once as there are theorems would need more memory. -/
set_option Elab.async false

open Machine

/-! ## Helpers -/

/-- The state after reset, under an image. -/
def im (i : Img) : State := { State.reset with img := some i }

/-- A word of an encoding with a value in the SYSREG field. -/
def wSys (e : Enc) (n : Nat) : Word := e.pat ||| BitVec.ofNat 32 (n * 65536)

/-- A word of an encoding with bit 31 set: a binary64 operation. -/
def wWide (e : Enc) : Word := e.pat ||| 0x80000000

/-- Core pair 0 runs in the U context of a test, with one region over all of memory; every domain is on. -/
def core0 (f : CoreState → CoreState) : State :=
  (((State.reset.put (F.CYC_CORE_STATE 0) 1).wrN (R.ACC_RATTR 0 0) 0x802801FF).wrN R.PWR_ON 0xFFFFFF).co 0 fun k => f { k with level := 0 }

/-- The bytes of a frame of ring 0 with an FTYPE, FFLAGS and segments: group address and source 0. -/
def ringBytes (ftype fflags segs : Nat) (sp : List Byte) : List Byte :=
  withFcs (List.replicate 12 0 ++ [0x88, 0xB5] ++ pad (max 46 (24 + sp.length)) (cycleHead ftype 0 fflags 0 0 0 0 segs ++ sp))

/-- The bytes of a segment of a station, filled and with its CRC. -/
def segOf (station kind : Nat) (pl : List Byte) : List Byte :=
  let h := le 1 station ++ le 1 kind ++ le 2 pl.length ++ [1, 0, 0, 0] ++ pl
  h ++ le 2 (crc16 h)

/-- The bytes of a line frame that carries a block, by the EtherType of a state's image. -/
def lineFrameOf (s : State) (b : List Byte) : List Byte :=
  withFcs ([0x01, 0x1B, 0x19, 0, 0, 0, 0, 0, 0, 0, 0, 0] ++ le 1 (s.image.links.ethertype / 256) ++ le 1 s.image.links.ethertype ++
    pad (max 46 b.length) b)

/-- The next state of an outcome, the state after reset where there is none. -/
def next (r : Res) : State := match r with
  | .next t => t
  | _ => State.reset

/-- What `State.Serves` asks, as a check. -/
def servesB (s : State) (ses : Fin 16) (req : Nat) (control needsActive : Bool) : Bool :=
  !s.on F.MOD_STATUS_HOLDUP && (!needsActive || s.isActive) &&
  match s.session ses.val with
  | some k => decide (k.kept.find? (fun e => e.req = req) = none) && !(decide (k.kept.length = 32) && k.kept.all fun e => req < e.req) &&
      decide (k.running = none ∨ k.running = some req) && (!control || k.control)
  | none => false

theorem serves {s : State} {ses : Fin 16} {req : Nat} {c a : Bool} (h : servesB s ses req c a = true) : s.Serves ses req c a := by
  simp only [servesB, Bool.and_eq_true] at h
  obtain ⟨⟨h1, h2⟩, h3⟩ := h
  split at h3
  · rename_i k hk
    simp only [Bool.and_eq_true, decide_eq_true_eq] at h3
    obtain ⟨⟨⟨h4, h5⟩, h6⟩, h7⟩ := h3
    refine ⟨by simpa using h1, ?_, k, hk, h4, ?_, h6, ?_⟩
    · intro ha; simpa [ha] using h2
    · rintro ⟨h8, h9⟩; simp [h8, h9] at h5
    · intro hc; simpa [hc] using h7
  · cases h3

theorem fetches {s : State} {c : Nat} {w : Word} {e : Enc} (h : s.coreRuns c = true ∧ s.denied? c (s.core c).level 2
    (s.core c).pc.toNat = none ∧ s.hbmOff (s.core c).pc.toNat = false ∧ s.poisoned (s.core c).pc.toNat 4 = false ∧
    e.fits w = true ∧ ((s.core c).level = 0 → (s.core c).lowest = none)) : s.Fetches c w e := h

theorem storesGood {s : State} {c : Nat} (h : ((s.flush c).core c).storeErr = none) : s.StoresGood c := h

theorem plainStores {s : State} {c : Nat} (h : ∀ e ∈ (s.core c).buf, s.hbmOff e.addr = false ∧ imageSram e.addr = false) :
    s.PlainStores c := h

theorem canon {s : State} (h : twf 0 s.regs = true ∧ twf 0 s.latch = true ∧ Memory.wf s.mem = true ∧ Memory.wf s.flash = true) :
    s.Canon := h

/-! ## Well-formed commands -/

theorem test_wf_core_word : (insnRows.all fun r => (r.1 0 r.2.pat).wf && !(r.1 0 (~~~r.2.pat)).wf) = true := by decide +kernel

/-- Every request refuses a REQ_ID of more than 32 bits. -/
theorem test_wf_request : (Instr.summary 0 0).wf = true ∧ (([.summary 0 4294967296, .profileClear 0 4294967296,
    .restart 0 4294967296 false 0, .handover 0 4294967296 0 false 0, .changeset 0 4294967296 { num := 0 } 0,
    .profileChunk 0 4294967296 0 0 [], .profileFinish 0 4294967296 0, .profileSelect 0 4294967296 none false,
    .profileKey 0 4294967296 { install := false, sig := List.replicate 64 0 }, .profileList 0 4294967296,
    .qmpFragmentTimeout 0 4294967296 0, .read 0 4294967296 (.points 0 []) 0, .write 0 4294967296 [] 0, .swap 0 4294967296 0,
    .events 0 4294967296 0 0 0 0, .traceSave 0 4294967296 0 0, .traceRead 0 4294967296 0 0 0, .traceList 0 4294967296,
    .timeQuery 0 4294967296 0, .timeStep 0 4294967296 0 0, .timeApply 0 4294967296 0, .censusRead 0 4294967296 0,
    .censusNow 0 4294967296 0, .rejoin 0 4294967296 0] : List Instr).all fun i => !i.wf) = true := by decide +kernel

theorem test_wf_key : (Instr.keyRecordFromActive { key := List.replicate 32 0, sig := List.replicate 64 0 }).wf = true ∧
    (Instr.keyRecordFromActive { key := List.replicate 31 0, sig := List.replicate 64 0 }).wf = false ∧
    (Instr.profileKey 0 0 { install := false, sig := [] }).wf = false := by decide +kernel

theorem test_wf_can_frame : (Instr.canFrameRx 0 { dlc := 8, data := List.replicate 8 0 } false 0 0 0).wf = true ∧
    (Instr.canFrameRx 0 { id := 536870912 } false 0 0 0).wf = false ∧ (Instr.canFrameRx 0 { dlc := 16 } false 0 0 0).wf = false ∧
    (Instr.canFrameRx 0 { dlc := 8 } false 0 0 0).wf = false := by decide

theorem test_wf_twin : (Instr.foxWordRx (List.replicate 64 0) 0 0).wf = true ∧ (Instr.foxWordRx [] 0 0).wf = false ∧
    (Instr.failingMessageRx (List.replicate 63 0) 0).wf = false ∧ (Instr.switchRecordRx (List.replicate 65 0) 0 0).wf = false ∧
    (Instr.switchAckRx [] 0).wf = false ∧ (Instr.badgerFrameRx (List.replicate 8 0) 0).wf = false := by decide +kernel

theorem test_wf_read : (Instr.read 0 0 (.points 7 [1048575]) 0).wf = true ∧ (Instr.read 0 0 (.points 8 []) 0).wf = false ∧
    (Instr.read 0 0 (.points 0 [1048576]) 0).wf = false ∧ (Instr.read 0 0 (.regs 4294967296 1) 0).wf = false := by decide

theorem test_wf_frames : (Instr.ringFrameRx 0 (List.replicate 64 0) 0).wf = true ∧
    (Instr.ringFrameRx 0 (List.replicate 63 0) 0).wf = false ∧ (Instr.ringFrameRx 0 (List.replicate 2001 0) 0).wf = false ∧
    (Instr.copyBurstStage 0 []).wf = false ∧ (Instr.acyclicReplyRx 0 [] [] 0).wf = false ∧
    (Instr.censusFrameBack 0 1 false [] [] false 0 {} 0 false 0).wf = false ∧
    (Instr.censusFrameBack 0 0 false (List.replicate 64 0) [] false 0 {} 0 false 0).wf = false ∧
    (Instr.segmentCopyRx 0 65536 0 [] 0).wf = false ∧ (Instr.segmentCopyRx 0 0 0 (List.replicate 1949 0) 0).wf = false ∧
    (Instr.lineFrameRx 0 (List.replicate 2001 0) 0).wf = false ∧ (Instr.crossingFrameRx 0 true [] 0).wf = false := by
  decide +kernel

theorem test_wf_messages : (Instr.qmpFragmentRx 0 [] 0).wf = false ∧ (Instr.qmpFragmentRx 0 (List.replicate 1201 0) 0).wf = false ∧
    (Instr.dtlsHandshake 0 [] false false false 0 0).wf = false := by decide +kernel

theorem test_wf_codes : (Instr.failingMessageSend 0).wf = false ∧ (Instr.censusLaunchRequest 0 { kind := 0 }).wf = false ∧
    (Instr.censusLaunchRequest 0 { kind := 4 }).wf = false ∧ (Instr.moduleFault 0 0).wf = false ∧
    (Instr.signatureRx { kind := 9, count := 0, val := 0 } false 0).wf = false ∧
    (Instr.fabricWindowEnd 0 0 false (List.replicate 801 [])).wf = false := by decide +kernel

theorem test_wf_registers : (Instr.latchedLowWordRead 0).wf = false ∧ (Instr.rcFieldRead 0).wf = false ∧
    (Instr.registerWrite none 0 2 0 0).wf = false ∧ (Instr.diSample [] 0).wf = false ∧
    (Instr.hartReplyRx 0 [0, 0, 0, 0, 0] false).wf = false := by decide +kernel

/-! ## Worked examples of the spec -/

/-- 12 R548: ADD k3, a1, d2 is the word 0x001A4CC1 with SRC2 26, SRC1 9, DST 19. -/
theorem test_add_word : E.ADD.fits 0x001A4CC1 = true ∧ fSrc2 0x001A4CC1 = 26 ∧ fSrc1 0x001A4CC1 = 9 ∧ fDst 0x001A4CC1 = 19 := by
  decide

/-- 12 R548: BRNE k0, z with an offset of −3 instructions is the word 0xFFFD0421: from 0x100 it goes to 0xF4. -/
theorem test_brne_word : E.BRNE.fits 0xFFFD0421 = true ∧ E.BREQ.fits 0xFFFD0421 = false ∧
    ((next (exec (.coreBrne 0 0xFFFD0421) (core0 fun k => { k with pc := 0x100, win := [(winKey 0 16, 5)] }))).core 0).pc = 0xF4 := by
  decide +kernel

/-- 12 worked example: at RES 13 ENTER makes 14 windows resident; at 14 it traps. -/
theorem test_enter :
    ((next (exec (.coreEnter 0 E.ENTER.pat) (core0 fun k => { k with wstate := wstateOf 12 13 0 }))).core 0).res = 14 ∧
    ((next (exec (.coreEnter 0 E.ENTER.pat) (core0 fun k => { k with wstate := wstateOf 13 14 0 }))).core 0).level = 1 := by
  decide +kernel

/-- 12 worked example: with RES above 1 a WSPILL stores 128 bytes below SPILL_PTR 0x40040000, with RES 1 it stores 192 below
0x4003F580. -/
theorem test_wspill :
    ((next (exec (.coreWspill 0 E.WSPILL.pat) (core0 fun k => { k with
      level := 1, wstate := wstateOf 13 14 0, spillPtr := 0x40040000, spillLim := 0x40000000 }))).core 0).spillPtr = 0x4003FF80 ∧
    ((next (exec (.coreWspill 0 E.WSPILL.pat) (core0 fun k => { k with
      level := 1, wstate := wstateOf 13 1 21, spillPtr := 0x4003F580, spillLim := 0x40000000 }))).core 0).spillPtr = 0x4003F4C0 := by
  decide +kernel

/-- The rule set of the worked example of 13: base, size and permissions of five regions, U and S read of peripheral slot 35. -/
def rules13 : State :=
  ([(0, 0, 35, 0x018), (1, 0x30000000, 20, 0x00D), (2, 0x30008000, 12, 0), (3, 0x40000000, 18, 0x01B),
    (4, 0x80035E0000, 17, 0x01B)] : List (Nat × Nat × Nat × Nat)).foldl
    (fun s r => (s.wrN (R.ACC_RBASE 5 r.1) (r.2.1 / 4096)).wrN (R.ACC_RATTR 5 r.1)
      (0x80000000 + r.2.2.1 * 2 ^ 16 + r.2.2.2)) (State.reset.wrN (R.ACC_SLOT 5 35) 0x009)

/-- 13 worked example: five accesses at U. -/
theorem test_access_rules : rules13.denied? 5 0 0 0x4003FF00 = none ∧ rules13.denied? 5 0 2 0x30008010 = some (2, 2) ∧
    rules13.denied? 5 0 0 0xFF100048D0 = none ∧ rules13.denied? 5 0 1 0xFF100048D0 = some (1, 35) ∧
    (rules13.denied? 5 0 0 0x0800000000).isSome = true := by decide +kernel

/-- 06 worked example: four increments of 1E-5 to 1000.0 carry into the next binary32 value, 1000.000061. -/
theorem test_integrate :
    let four := do
      let a ← integrate 0x447A0000 0 0x3727C5AC
      let b ← integrate a.1 a.2 0x3727C5AC
      let c ← integrate b.1 b.2 0x3727C5AC
      let d ← integrate c.1 c.2 0x3727C5AC
      pure (c.1, d.1)
    ((four : Fx (Nat × Nat)).run 0).1 = (0x447A0000, 0x447A0001) := by decide +kernel

/-- The words of the head slot of the worked example of 07: three regions, pass-through biquads, wide clamps, ih 35.0. -/
def pid07 : Tab Nat :=
  [(0x080, 0xC9742400), (0x084, 0x49742400), (0x08C, 0x3F800000), (0x0A0, 0x3F800000), (0x180, 0x420C0000),
   (0x200, 0x3FCCCCCD), (0x204, 0x3AC49BA6), (0x210, 0x3F800000), (0x230, 0x43C80000), (0x234, 0x41200000),
   (0x240, 0x3F99999A), (0x244, 0x3A83126F), (0x250, 0x3F800000), (0x270, 0x44480000), (0x274, 0x41200000),
   (0x280, 0x3F4CCCCD), (0x284, 0x3A03126F), (0x290, 0x3F800000)]

/-- 07 worked example: at 789.6 mm region 2 is left for region 1, the output stays at 33.4 and ih is then 35.798. -/
theorem test_pid2_region :
    let o := ((pid2Sample (tget 0 pid07) { prevAuto := some true, oldGains := [0x3F4CCCCD, 0x3A03126F, 0, 0, 0x3F800000, 0] }
      0x43160000 0x43180000 0 0x44456666 0 true false false 3 2 0 false 0).run 0).1
    o.region = 1 ∧ o.outs = [(8, 0x4205999A)] ∧ 
      (o.writes.lookup 0x180).any (fun w => decide (0x420F3120 ≤ w) && decide (w ≤ 0x420F312F)) = true := by
  decide +kernel

/-- 06 worked example: the cam setpoint is 1,003,444 counts. -/
theorem test_cam :
    let rd := tget 0 [(0x080, 36000), (0x084, 720), (0x088, 10000), (0x0A4, 0x37E90453), (0x180, 3612297), (0x188, 952)]
    let tab := (List.replicate 245 0) ++ [0x41400000, 0x41600000, 0x41700000, 0x41700000] ++ List.replicate 471 0
    (((camSample rd { table := tab } 1000).run 0).1.outs.take 1) = [(8, 1003444)] := by decide +kernel

/-- 08 worked example: forty stations on ring 3, in A-to-B order, every section 25 ns, d 80 ns. -/
def census08 : List Hop := (List.range 40).map fun i => { pos := i + 1, d := 80, ell := 25, prep := 1000 }

/-- 08 worked example: the far-end arrival, the looped arrivals and the arrival at station 3.20 with the margin, in ns. -/
theorem test_schedule : let t := 400 * 5783 / 25
    ceilNs (farArrival t 25 census08) = 6276 ∧ ceilNs (loopArrivalA t census08 + 25000) = 10871 ∧
    ceilNs (loopArrivalB t 25 census08 + 25000) = 10871 ∧ ceilNs (arrivalAt t 25 census08 20 0 + 25000) = 4471 := by
  decide +kernel

/-- 11 worked example: a coasting count goes on from 1,000,000 and 1,000,096 to 1,000,192. -/
theorem test_coast : coast 3 1000096 1000000 1000096 = 1000192 := by decide

/-- 17 worked example: an empty bucket holds a whole token after 100 ms, none before. -/
theorem test_bucket : (Bucket.refill { nano := 0, at_ := 0 } { code := 0xB003 } 100000000).nano = 1000000000 ∧
    (Bucket.refill { nano := 0, at_ := 0 } { code := 0xB003 } 99950000).nano < 1000000000 := by decide

/-- 04 worked example: boundary 1,000 lies 31.25 ms after the line epoch, and is one of class C3; 1,004 is not. -/
theorem test_boundary : boundaryNs 1000 = 31250000 ∧ isBoundary 3 1000 = true ∧ isBoundary 3 1004 = false := by decide

/-- 19 worked example: a fault at t0 + 22 µs of cycle 2,003 is switched at boundary 2,008, the first at least four cycles on. -/
theorem test_switch_boundary : boundaryAfter (2003 * 31250 + 22000) 4 = 2008 := by decide

/-- 00 worked example: the quality byte of point 0x1234 and the window of slot 4711. -/
theorem test_addresses : slotOf 0x10401234 = some 36 ∧ slotWindow (0x20000000 + 4711 * 0x400) = true ∧
    0x20000000 + 4711 * 0x400 = 0x20499C00 ∧ R.RNG_STATUS 7 / 0x1000 = 0x147 := by decide

/-- 15 worked example: a frame of 8 bytes carries the length code 8, and code 15 of a flexible frame 64 bytes. -/
theorem test_dlc : dlcBytes 8 true = 8 ∧ dlcBytes 15 true = 64 ∧ dlcBytes 15 false = 8 := by decide

/-- 18 worked example: an update of the panel may start 5 s after the last, and not before. -/
theorem test_panel :
    let s := ((State.reset.setBit R.PWR_ON 1 true).put F.PNL_STATUS_PENDING 1).pn (fun q => { q with lastStart := some 100000000000 })
    (s.at 105000000000).panelMay = true ∧ (s.at 103000000000).panelMay = false := by decide +kernel

/-! ## One step on a small state -/

theorem test_step_idle : step State.reset = .next State.reset := rfl

theorem test_add : ((next (exec (.coreAdd 0 0x001A4CC1) (core0 fun k => { k with
    win := [(winKey 0 9, 5), (winKey 0 26, 7)] }))).core 0).reg 19 = 12 := by decide +kernel

theorem test_di_filter : (next (exec (.diSample (List.replicate 32 24000) 50000) ((State.reset.setBit R.PWR_ON 2 true).lo
    fun q => { q with di := [(0, { started := true, c := 2 })] }))).di 0 =
    ({ started := true, read := true, c := 3, st := true, cls := .on, hist := [(50000, true, .on)] } : DiState) :=
  by decide +kernel

theorem test_flash_error : (next (exec .flashWriteError State.reset)).recd.queue.map (fun r => r.code) = [0x2030] := by decide +kernel

theorem test_register_write : (next (exec (.registerWrite none 3 (BitVec.ofNat 32 R.TIM_SET_NS) 0xFFFFFFFF 0)
    (State.reset.wrN R.PWR_ON 0xFFFFFF))).get
    F.TIM_SET_NS_V = 2 ^ 30 - 1 := by decide +kernel

/-! ## States and operands that meet the hypotheses of the statements, clause by clause

Operands that no hypothesis names are left out. -/

theorem test_wit_StepTakesFront :
    (∃ (s : State) (c : Instr) (rest : List Instr), s.pending = c :: rest) ∧
    (∃ s : State, s.pending = []) ∧
    (∃ s : State, s.Canon) :=
  ⟨
    ⟨{ State.reset with pending := [.calCommit] }, .calCommit, [], by decide⟩,
    ⟨State.reset, by decide⟩,
    ⟨State.reset, canon (by decide)⟩⟩

theorem test_wit_StepKeepsCanon :
    (∃ s : State, s.Canon) :=
    ⟨{ State.reset with pending := [.flashWriteError] }, canon (by decide)⟩

theorem test_wit_RevokedStaysRevoked :
    (∃ (s t : State), s.Canon ∧ s.nv.bad = [] ∧ step s = .next t) :=
    ⟨{ State.reset with pending := [.flashWriteError] }, _, canon (by decide), rfl, rfl⟩

theorem test_wit_SeqNeverFalls :
    (∃ (s t : State), s.Canon ∧ s.SeqHeld ∧ step s = .next t) :=
    ⟨{ State.reset with pending := [.flashWriteError] }, _, canon (by decide), by decide, rfl⟩

theorem test_wit_ChangeSetsStaged :
    (∃ (ses : Fin 16) (req : Nat) (c : ChangeSet) (t : Nat) (s : State), (s.at t).Serves ses req true true ∧ c.entries ≠ [] ∧
    c.entries.length ≤ 4096 ∧ c.cls ≤ 7 ∧ ((s.at t).served ses).csReason c = none) ∧
    (∃ (ses : Fin 16) (req : Nat) (c : ChangeSet) (t r : Nat) (s : State), (s.at t).Serves ses req true true ∧ c.entries ≠ [] ∧
    c.entries.length ≤ 4096 ∧ c.cls ≤ 7 ∧ ((s.at t).served ses).csReason c = some r ∧ s.Room islCs) ∧
    (∃ s : State, s.isActive = false ∧ s.isStandby = true) ∧
    (∃ (num t : Nat) (c : ChangeSet) (s : State), (s.cs.find? (fun x => x.num = num) = some c) ∧ s.isActive = true ∧
    (s.at t).csReady c = false ∧ (s.at t).now ≥ c.named * 31250 + 1000000000 ∧ s.Room islCs) ∧
    (∃ (num : Nat) (c : ChangeSet) (s : State), (s.cs.find? (fun x => x.num = num) = some c) ∧ s.isActive = false ∧
    s.Room islCs) ∧
    (∃ s : State, s.isActive = true) :=
  ⟨
    ⟨0, 0, { num := 0, entries := [⟨0, 5⟩], named := 2 }, 0,
    (((im { params := [{ target := .forceClear 0 }] }).put F.TWN_STATUS_ROLE 1).setSession 0 (some { control := true })),
    serves (by decide), by decide, by decide, by decide, by decide⟩,
    ⟨0, 0, { num := 0, entries := [⟨0, 5⟩] }, 0, 2,
    ((State.reset.put F.TWN_STATUS_ROLE 1).setSession 0 (some { control := true })), serves (by decide), by decide, by decide,
    by decide, by decide, by decide⟩,
    ⟨(State.reset.put F.TWN_STATUS_ROLE 2), by decide, by decide⟩,
    ⟨0, 1000000000, { num := 0 }, ((({ State.reset with cs := [{ num := 0 }] }.put F.TWN_STATUS_ROLE
    1).put F.TWN_STATUS_TSTATE 1).put F.TWN_STATUS_PARTNER_TSTATE 3), by decide, by decide, by decide, by decide, by decide⟩,
    ⟨0, { num := 0 }, { State.reset with cs := [{ num := 0 }] }, by decide, by decide, by decide⟩,
    ⟨(State.reset.put F.TWN_STATUS_ROLE 1), by decide⟩⟩

theorem test_wit_ProfileSlots :
    (∃ (ses : Fin 16) (req : Nat) (slot : Fin 4) (off : Nat) (data : List Byte) (s : State), s.Serves ses req true false ∧
    s.slotHeld slot.val = false ∧ data.length ≤ 1024 ∧ off + data.length ≤ 268435456 ∧ s.Shaped) ∧
    (∃ (ses : Fin 16) (req : Nat) (slot : Fin 4) (s : State), s.Serves ses req true false ∧ s.slotHeld slot.val = true) ∧
    (∃ (ses : Fin 16) (req : Nat) (slot : Fin 4) (s : State), s.Serves ses req true false ∧ s.slotHeld slot.val = false ∧
    s.Shaped) ∧
    (∃ (slot : Fin 4) (s : State), s.Shaped ∧ ((s.nv.slots[slot.val]?).getD {}).st = 1 ∧ s.Room islFlash) ∧
    (∃ (ses : Fin 16) (req : Nat) (s : State), s.Serves ses req true false) ∧
    (∃ (ses : Fin 16) (req : Nat) (slot : Fin 4) (s : State), s.Serves ses req true false ∧ s.slotHeld slot.val = true) ∧
    (∃ (slot : Fin 4) (s : State), ((s.nv.slots[slot.val]?).getD {}).st ≠ 1) :=
  ⟨
    ⟨0, 0, 0, 0, [], (State.reset.setSession 0 (some { control := true })), serves (by decide), by decide, by decide, by decide,
    by decide⟩,
    ⟨0, 0, 0, ((im {}).setSession 0 (some { control := true })), serves (by decide), by decide⟩,
    ⟨0, 0, 0, (State.reset.setSession 0 (some { control := true })), serves (by decide), by decide, by decide⟩,
    ⟨0, (State.reset.inNv fun q => { q with slots := [{ st := 1 }, {}, {}, {}] }), by decide, by decide, by decide⟩,
    ⟨0, 0, (State.reset.setSession 0 (some { control := true })), serves (by decide)⟩,
    ⟨0, 0, 0, (((im {}).setSession 0 (some { control := true })).put F.IMG_STATUS_FACTORY 0), serves (by decide), by decide⟩,
    ⟨0, State.reset, by decide⟩⟩

theorem test_wit_ProfileChoice :
    (∃ (ses : Fin 16) (req : Nat) (s : State), s.Serves ses req true false) ∧
    (∃ (ses : Fin 16) (req : Nat) (s : State), s.Serves ses req true false) ∧
    (∃ (ses : Fin 16) (req : Nat) (s : State), s.Serves ses req true false) ∧
    (∃ s : State, s.on F.IMG_SEL_SEL_FACTORY = false ∧ s.on F.IMG_SEL_SEL_PERSIST = true) ∧
    (∃ s : State, s.on F.IMG_SEL_SEL_FACTORY = true ∧ s.on F.IMG_SEL_SEL_PERSIST = false) :=
  ⟨
    ⟨0, 0, (State.reset.setSession 0 (some { control := true })), serves (by decide)⟩,
    ⟨0, 0, (State.reset.setSession 0 (some { control := true })), serves (by decide)⟩,
    ⟨0, 0, (State.reset.setSession 0 (some { control := true })), serves (by decide)⟩,
    ⟨(State.reset.put F.IMG_SEL_SEL_PERSIST 1), by decide, by decide⟩,
    ⟨(State.reset.put F.IMG_SEL_SEL_FACTORY 1), by decide, by decide⟩⟩

theorem test_wit_KeyRecords :
    (∃ (ses : Fin 16) (req : Nat) (r : KeyRecord) (s : State), s.Serves ses req true false ∧ r.magicOk = true ∧
    r.install = true ∧ ((s.nv.keys[r.slot.val]?).getD {}).st = .empty ∧ s.Shaped ∧ s.Room islMgmt) ∧
    (∃ (r : KeyRecord) (s : State), r.install = true ∧ ((s.nv.keys[r.slot.val]?).getD {}).st = .empty ∧ s.Shaped ∧
    s.Room islMgmt) ∧
    (∃ (r : KeyRecord) (s : State), r.install = true ∧ ((s.nv.keys[r.slot.val]?).getD {}).st ≠ .empty ∧ s.Room islMgmt) ∧
    (∃ (r : KeyRecord) (i : Nat) (s : State), r.install = false ∧ i ≠ r.slot.val ∧ ((s.nv.keys[i]?).getD {}).st = .enabled ∧
    s.Shaped ∧ s.Room islMgmt) ∧
    (∃ (r : KeyRecord) (s : State), r.install = false ∧ ((∀ i : Nat, i ≠ r.slot.val →
    ((s.nv.keys[i]?).getD {}).st ≠ .enabled)) ∧ s.Room islMgmt) :=
  ⟨
    ⟨0, 0, { slot := 1 }, (State.reset.setSession 0 (some { control := true })), serves (by decide), by decide, by decide,
    by decide, by decide, by decide⟩,
    ⟨{ slot := 1 }, State.reset, by decide, by decide, by decide, by decide⟩,
    ⟨{}, State.reset, by decide, by decide, by decide⟩,
    ⟨{ install := false, slot := 1 }, 0, State.reset, by decide, by decide, by decide, by decide, by decide⟩,
    ⟨{ install := false }, (State.reset.inNv fun q => { q with keys := [] }), by decide, by simp [State.inNv], by decide⟩⟩

theorem test_wit_HandoverWindow :
    (∃ (ses : Fin 16) (req : Nat) (slot : Fin 4) (t : Nat) (s : State), (s.at t).Serves ses req true true ∧ s.nv.hoState = 0 ∧
    s.matched = true ∧ s.twin.switch = none ∧ s.hoTargetOk slot.val true = true ∧ s.Room islMgmt) ∧
    (∃ (ses : Fin 16) (req : Nat) (slot : Fin 4) (v : Bool) (t : Nat) (s : State), (s.at t).Serves ses req true true ∧
    ((s.nv.hoState ≠ 0 ∨ s.matched = false ∨ s.twin.switch ≠ none ∨ s.hoTargetOk slot.val v = false)) ∧ s.Room islMgmt) ∧
    (∃ s : State, 1 ≤ s.nv.hoState ∧ s.nv.hoState ≤ 3 ∧ s.nv.hoFirst = false ∧ s.Room islMgmt) ∧
    (∃ (t : Nat) (s : State), s.nv.hoState ≠ 0 ∧ ((s.nv.hoState ≤ 3 → s.nv.hoFirst = false)) ∧ 60000000000 ≤ (s.at t).hoOpenNs ∧
    s.Room islMgmt) ∧
    (∃ s : State, s.nv.hoState ≠ 0 ∧ s.isActive = false) ∧
    (∃ s : State, 1 ≤ s.nv.hoState ∧ s.nv.hoState ≤ 3 ∧ s.nv.hoFirst = true) ∧
    (∃ (t : Nat) (s : State), 1 ≤ s.nv.hoState ∧ s.nv.hoState ≤ 3 ∧ s.nv.hoFirst = true ∧ 60000000000 ≤ (s.at t).hoOpenNs) ∧
    (∃ (t : Nat) (s : State), (s.at t).hoOpenNs < 60000000000) :=
  ⟨
    ⟨0, 0, 1, 0, ((((({ State.reset with img := some {}, flash := [(slotBase 1 + 14, 2)] }.put
    F.TWN_STATUS_ROLE 1).setSession 0 (some { control := true })).inNv
    fun q => { q with slots := [{}, { st := 2, lenMib := 1 }, {}, {}] }).put
    F.TWN_STATUS_TSTATE 1).put F.TWN_STATUS_PARTNER_TSTATE 3), serves (by decide), by decide, by decide, by decide, by decide,
    by decide⟩,
    ⟨0, 0, 0, false, 0, ((State.reset.put F.TWN_STATUS_ROLE 1).setSession 0 (some { control := true })), serves (by decide),
    by decide, by decide⟩,
    ⟨(State.reset.inNv fun q => { q with hoState := 1 }), by decide, by decide, by decide, by decide⟩,
    ⟨0, (State.reset.inNv fun q => { q with hoState := 4, hoElapsed := 600 }), by decide, by decide, by decide, by decide⟩,
    ⟨(State.reset.inNv fun q => { q with hoState := 1 }), by decide, by decide⟩,
    ⟨((State.reset.inNv fun q => { q with hoFirst := true }).inNv fun q => { q with hoState := 1, hoFirst := true }), by decide,
    by decide, by decide⟩,
    ⟨0, ((State.reset.inNv fun q => { q with hoFirst := true }).inNv fun
    q => { q with hoState := 1, hoFirst := true, hoElapsed := 600 }), by decide, by decide, by decide, by decide⟩,
    ⟨0, State.reset, by decide⟩⟩

theorem test_wit_HandoverRestarts :
    (∃ s : State, s.nv.hoState = 0 ∧ s.isStandby = true ∧ s.pwr.imageRestart = false ∧ s.nv.bad = [] ∧ s.keepsOn = true) ∧
    (∃ s : State, s.nv.hoState = 5 ∧ s.nv.hoFirst = false ∧ s.pwr.imageRestart = false ∧ s.nv.bad = [] ∧ s.keepsOn = true) ∧
    (∃ s : State, s.nv.hoState = 5 ∧ s.nv.hoFirst = false ∧ s.pwr.imageRestart = false ∧ s.keepsOn = false) ∧
    (∃ s : State, s.nv.hoState = 2 ∧ s.nv.hoFirst = true) ∧
    (∃ (old : StatePatch) (e : MapEntry) (v : PointVal) (s : State), s.nv.hoState = 2 ∧ s.nv.hoFirst = true ∧
    s.image.map = [e] ∧ e.kind = 1 ∧ e.xform = 0 ∧ e.span = 1 ∧ old.forces = none ∧
    (old.points.find? (fun p => p.1 = e.old) = some (e.old, v))) :=
  ⟨
    ⟨((State.reset.put F.TWN_STATUS_ROLE 2).wrN R.PWR_ON 0x403D41), by decide, by decide, by decide, by decide, by decide⟩,
    ⟨((State.reset.inNv fun q => { q with hoState := 5 }).wrN R.PWR_ON 0x403D41), by decide, by decide, by decide, by decide,
    by decide⟩,
    ⟨((im { islands := { domains := [6] } }).inNv fun q => { q with hoState := 5 }), by decide, by decide, by decide, by decide⟩,
    ⟨((State.reset.inNv fun q => { q with hoState := 2 }).inNv fun q => { q with hoFirst := true }), by decide, by decide⟩,
    ⟨{ points := [(3, {})] }, { kind := 1, old := 3, new := 4 }, {},
    (((im { map := [{ kind := 1, old := 3, new := 4 }] }).inNv fun
    q => { q with hoState := 2 }).inNv fun q => { q with hoFirst := true }), by decide, by decide, by decide, by decide,
    by decide, by decide, by decide, by decide⟩⟩

theorem test_wit_FabricTransactions :
    (∃ (isl : Fin 256) (tag : Fin 16384) (t : Nat) (s : State), (s.at t).overdue isl.val tag.val = true ∧ s.Room isl.val) ∧
    (∃ (c : Fin 32) (tag : Fin 16384) (t : Nat) (s : State), (s.at t).overdue c.val tag.val = true ∧ s.coreRuns c.val = true ∧
    (s.core c.val).storeErr = none) ∧
    (∃ (src : Fin 256) (tag : Fin 16384) (at_ t : Nat) (s : State), (src.val, tag.val, at_) ∈ s.fab.quarantine ∧
    at_ ≤ max s.now t ∧ s.fab.tagWaits = []) ∧
    (∃ (src : Fin 256) (tag : Fin 16384) (at_ : Nat) (s : State), (src.val, tag.val, at_) ∈ s.fab.quarantine ∧ s.Room src.val) ∧
    (∃ (src : Fin 256) (tag : Fin 16384) (s : State), ((∀ e ∈ s.fab.quarantine, e.1 = src.val → e.2.1 ≠ tag.val))) ∧
    (∃ (router : Fin 256) (s : State), s.pd 22 = true ∧ s.islandOff router.val = true ∧ s.Room router.val) ∧
    (∃ (router : Fin 256) (s : State), (s.islandOff router.val = false ∨ s.pd 22 = false)) ∧
    (∃ (r : TxReq) (tag : Fin 16384) (t : Nat) (s : State), (s.at t).overdue r.island tag.val = false) ∧
    (∃ (src vc g : Nat) (s : State), s.freeTag src vc = some g) ∧
    (∃ (e : TagUse) (g : Nat) (s : State), s.freeTag e.src e.vc = some g) ∧
    (∃ (e : TagUse) (s : State), s.freeTag e.src e.vc = none) :=
  ⟨
    ⟨0, 0, 0, State.reset, by decide, by decide⟩,
    ⟨0, 0, 0, ((State.reset.put (F.CYC_CORE_STATE 0) 1).co 0 fun k => { k with storeErr := none }), by decide, by decide,
    by decide⟩,
    ⟨0, 0, 0, 1000000000000000, (State.reset.fb fun q => { q with quarantine := [(0, 0, 0)] }), by decide, by decide, by decide⟩,
    ⟨0, 0, 0, (State.reset.fb fun q => { q with quarantine := [(0, 0, 0)] }), by decide, by decide⟩,
    ⟨0, 0, State.reset, by decide⟩,
    ⟨0, ((State.reset.setBit R.PWR_ON 22 true).setBit R.PWR_ON 22 true), by decide, by decide, by decide⟩,
    ⟨0, (State.reset.setBit R.PWR_ON 18 true), by decide⟩,
    ⟨(.other 0), 0, 0, (State.reset.fb fun q => { q with inflight := [{}] }), by decide⟩,
    ⟨0, 0, 0, State.reset, by decide +kernel⟩,
    ⟨{}, 0, State.reset, by decide +kernel⟩,
    ⟨{ src := 500 }, State.reset, by decide +kernel⟩⟩

theorem test_wit_FabricWindows :
    (∃ (router : Fin 256) (output : Fin 5) (ready : List (List Flit)) (s : State), s.pd 22 = true ∧
    (s.routerWindow router.val output.val ready).grants.length < 760 ∧ (s.routerWindow router.val output.val ready).vc0 ≤ 200 ∧
    s.Room router.val) ∧
    (∃ (router : Fin 256) (output : Fin 5) (ready : List (List Flit)) (n : Nat) (s : State), s.pd 22 = true ∧
    (s.routerWindow router.val output.val ready).vc0 = n ∧ 200 < n ∧ s.Room router.val) ∧
    (∃ (router : Fin 256) (output : Fin 5) (ready : List (List Flit)) (s : State), s.pd 22 = true ∧
    (s.routerWindow router.val output.val ready).vc0 ≤ 200) ∧
    (∃ s : State, s.pd 22 = false) ∧
    (∃ (o : RouterOut) (ready : List Flit) (f : Flit), o.vc0 < 200 ∧
    (flitBest o.token (ready.filter (fun g => decide (g.vc.val = 0))) = some f)) ∧
    (∃ (a b : Flit), older (ageStamp b.inj) (ageStamp a.inj) = true) :=
  ⟨
    ⟨0, 0, [], (State.reset.setBit R.PWR_ON 22 true), by decide, by decide, by decide, by decide⟩,
    ⟨0, 0, (List.replicate 201 [{}]), 201, (State.reset.setBit R.PWR_ON 22 true), by decide, by decide +kernel, by decide,
    by decide⟩,
    ⟨0, 0, [], (State.reset.setBit R.PWR_ON 22 true), by decide, by decide⟩,
    ⟨State.reset, by decide⟩,
    ⟨{}, [{}], {}, by decide, by decide +kernel⟩,
    ⟨{ inj := 4 }, {}, by decide⟩⟩

theorem test_wit_MemoryErrors :
    (∃ (c : Fin 32) (w a : Nat) (s : State), w ≤ 300 ∧ a ≤ 600 ∧ s.Room (islHbm c.val)) ∧
    (∃ (c : Fin 32) (w a : Nat) (s : State), w ≤ 300 ∧ a ≤ 600 ∧ s.Room (islHbm c.val)) ∧
    (∃ (k : Fin 32) (w a : Nat) (s : State), w ≤ 300 ∧ a ≤ 600 ∧ s.coreRuns k.val = true ∧ (s.core k.val).level = 0 ∧
    s.StoresGood k.val) ∧
    (∃ (c : Fin 32) (w a : Nat) (s : State), w ≤ 300 ∧ 600 < a ∧ s.Room (islHbm c.val)) ∧
    (∃ (c : Fin 32) (l : List HbmReq) (s : State), (s.hbmChan c.val).stress = false ∧ 3 ≤ (s.hbmChan c.val).full ∧
    64 ≤ bulkOf ((s.hbmChan c.val).serve s.image.routes.floorPct (l.map HbmReq.cls)) ∧ s.Room (islHbm c.val)) ∧
    (∃ (c : Fin 32) (l : List HbmReq) (s : State), (s.hbmChan c.val).stress = true ∧ (s.hbmChan c.val).waited = false ∧
    99 ≤ (s.hbmChan c.val).quiet ∧ bulkOf ((s.hbmChan c.val).serve s.image.routes.floorPct (l.map HbmReq.cls)) < 64 ∧ ((∀ q ∈ l,
    q.cls ≠ 2 ∧ q.cls ≠ 3)) ∧ s.Room (islHbm c.val)) ∧
    (∃ (c k : Fin 32) (q : HbmReq) (s : State), (s.hbmChan c.val).stress = true ∧ (s.hbmChan c.val).waited = false ∧
    (s.hbmChan c.val).quiet < 99 ∧ q.src.val = 32 + k.val ∧ 1 < q.vc.val ∧ q.kind.val = 1 ∧ s.trc k.val ≠ 4 ∧
    (s.hbmChan c.val).queue = []) ∧
    (∃ (b : Fin 64) (s : State), s.Room (66 + b.val)) ∧
    (∃ (b : Fin 64) (s : State), s.Room (66 + b.val)) ∧
    (∃ s : State, s.nv.archSeq = 0 ∧ s.Room islFlash) ∧
    (∃ s : State, s.nv.archSeq ≠ 0 ∧ s.Room islFlash) :=
  ⟨
    ⟨0, 0, 0, State.reset, by decide, by decide, by decide⟩,
    ⟨0, 0, 0, State.reset, by decide, by decide, by decide⟩,
    ⟨0, 0, 0, (((State.reset.put (F.CYC_CORE_STATE 0) 1).wrN R.PWR_ON 0xFFFFFF).co 0 fun k => { k with level := 0 }), by decide,
    by decide, by decide, by decide, storesGood (by decide +kernel)⟩,
    ⟨0, 0, 601, State.reset, by decide, by decide, by decide⟩,
    ⟨0, (List.replicate 1000 { src := 64, vc := 2 }), (State.reset.setHbm 0 { full := 3 }), by decide, by decide,
    by decide +kernel, by decide⟩,
    ⟨0, [], ((State.reset.setHbm 0 { stress := true }).setHbm 0 { stress := true, quiet := 99 }), by decide, by decide,
    by decide, by decide, by decide, by decide⟩,
    ⟨0, 0, { src := 32, vc := 2, kind := 1 }, (State.reset.setHbm 0 { stress := true }), by decide, by decide, by decide,
    by decide, by decide, by decide, by decide, by decide⟩,
    ⟨0, State.reset, by decide⟩,
    ⟨0, State.reset, by decide⟩,
    ⟨State.reset, by decide, by decide⟩,
    ⟨(State.reset.inNv fun q => { q with archSeq := 1 }), by decide, by decide⟩⟩

theorem test_wit_ActivationsEnd :
    (∃ (c : Fin 32) (s : State), (s.core c.val).frozen ≠ []) ∧
    (∃ (p : Fin 256) (t : Nat) (s : State), ((s.pst p.val = 2 ∨ s.pst p.val = 4)) ∧ s.decides = true ∧
    (s.part p.val).relAt + (s.prec p.val).runLimit * period (s.prec p.val).cls * 31250 ≤ max s.now t ∧
    s.Room (s.prec p.val).core) ∧
    (∃ (p : Fin 256) (s : State), s.pst p.val = 6 ∧ (s.part p.val).thenHalt = false ∧ (s.part p.val).limit = false ∧
    (s.part p.val).thenRelease = false ∧ (s.part p.val).relWait = none) ∧
    (∃ (p : Fin 256) (s : State), s.pst p.val = 6 ∧ (s.part p.val).thenHalt = false ∧ (s.part p.val).limit = true ∧
    (s.part p.val).thenRelease = false ∧ s.Room (s.prec p.val).core) ∧
    (∃ (p : Fin 256) (s : State), s.pst p.val = 6 ∧ (s.part p.val).thenHalt = true ∧ s.Room (s.prec p.val).core) ∧
    (∃ (c : Fin 32) (s : State), (s.core c.val).frozen = []) ∧
    (∃ (p : Fin 256) (s : State), s.pst p.val ≠ 6) :=
  ⟨
    ⟨0, (State.reset.co 0 fun k => { k with frozen := [0] }), by decide⟩,
    ⟨0, 250000, (State.reset.put (F.CYC_PSTATE_STATE 0) 2), by decide, by decide, by decide, by decide⟩,
    ⟨0, ((State.reset.put (F.CYC_PSTATE_STATE 0) 6).put (F.CYC_PSTATE_STATE 0) 6), by decide, by decide, by decide, by decide,
    by decide⟩,
    ⟨0, ((State.reset.put (F.CYC_PSTATE_STATE 0) 6).pa 0 fun k => { k with limit := true }), by decide, by decide, by decide,
    by decide, by decide⟩,
    ⟨0, ((State.reset.put (F.CYC_PSTATE_STATE 0) 6).pa 0 fun k => { k with thenHalt := true }), by decide, by decide, by decide⟩,
    ⟨0, State.reset, by decide⟩,
    ⟨0, State.reset, by decide⟩⟩

theorem test_wit_PartitionCommands :
    (∃ (p : Fin 256) (s : State), s.takesCommand p.val true = true) ∧
    (∃ (p : Fin 256) (s : State), s.takesCommand p.val false = true) ∧
    (∃ (p : Fin 256) (s : State), s.takesCommand p.val false = false ∧ s.Room islMgmt) ∧
    (∃ (p : Fin 256) (s : State), s.isStandby = true ∧ (s.image.part? p.val).isSome = true) ∧
    (∃ (p : Fin 256) (s : State), s.takesCommand p.val true = false ∧ s.Room islMgmt) :=
  ⟨
    ⟨0, ((im { parts := [{ part := 0 }] }).put F.TWN_STATUS_ROLE 1), by decide +kernel⟩,
    ⟨0, ((im { parts := [{ part := 0 }] }).put F.TWN_STATUS_ROLE 1), by decide +kernel⟩,
    ⟨0, State.reset, by decide +kernel, by decide⟩,
    ⟨0, ((im { parts := [{ part := 0 }] }).put F.TWN_STATUS_ROLE 2), by decide, by decide⟩,
    ⟨0, State.reset, by decide +kernel, by decide⟩⟩

theorem test_wit_StagingInstants :
    (∃ (t : Nat) (s : State), s.on F.CYC_STATUS_RUNNING = true ∧ s.count * 31250 + 27000 ≤ max s.now t ∧
    s.twin.stagedAt ≠ some s.count ∧ s.decides = false) ∧
    (∃ (t : Nat) (s : State), s.on F.CYC_STATUS_RUNNING = true ∧ s.count * 31250 + 27000 ≤ max s.now t ∧
    s.twin.stagedAt ≠ some s.count ∧ s.decides = true) ∧
    (∃ (r : PartRec) (s : State), r.part < 256 ∧ s.pst r.part = 2 ∧ (s.part r.part).due ≤ s.count + 1 ∧
    (s.part r.part).slowRun = false ∧ s.Room (s.prec r.part).core) ∧
    (∃ (t : Nat) (s : State), s.on F.CYC_STATUS_RUNNING = true ∧ s.count * 31250 + 29000 ≤ max s.now t ∧ s.Room islMgmt) ∧
    (∃ (r : PartRec) (q : Nat) (s : State), r.part < 256 ∧ s.prec r.part = r ∧ s.pst r.part = 3 ∧
    (s.part r.part).due = s.count + 1 ∧ (s.part r.part).idxCount = 0 ∧ r.outputs = [q] ∧ (s.pinfo q).owner = .part r.part ∧
    s.force? q = none ∧ s.poisoned r.outArea 4 = false) ∧
    (∃ (t : Nat) (s : State), ((s.on F.CYC_STATUS_RUNNING = false ∨ max s.now t < s.count * 31250 + 27000 ∨
    s.twin.stagedAt = some s.count))) :=
  ⟨
    ⟨1000000000000000, ((State.reset.put F.CYC_STATUS_RUNNING 1).put F.TWN_STATUS_ROLE 2), by decide, by decide, by decide,
    by decide⟩,
    ⟨1000000000000000, (State.reset.put F.CYC_STATUS_RUNNING 1), by decide, by decide, by decide, by decide⟩,
    ⟨{ part := 0 }, (State.reset.put (F.CYC_PSTATE_STATE 0) 2), by decide, by decide, by decide, by decide, by decide⟩,
    ⟨1000000000000000, (State.reset.put F.CYC_STATUS_RUNNING 1), by decide, by decide, by decide⟩,
    ⟨{ part := 0, outputs := [0] }, 0,
    (((im { parts := [{ part := 0, outputs := [0] }], sigmap := [(0, { typ := 3, owner := .part 0 })] }).put
    (F.CYC_PSTATE_STATE 0) 3).pa 0 fun k => { k with due := 1 }), by decide, by decide, by decide, by decide, by decide,
    by decide, by decide, by decide, by decide +kernel⟩,
    ⟨0, State.reset, by decide⟩⟩

theorem test_wit_StandbyFollows :
    (∃ (r : CommitRecord) (s : State), s.on F.CYC_STATUS_RUNNING = true ∧ s.decides = false ∧ r.image = s.count + 1 ∧
    s.twin.commitRec ≠ some s.count) ∧
    (∃ (r : CommitRecord) (s : State), r.image ≠ s.count + 1) ∧
    (∃ (t : Nat) (s : State), s.on F.CYC_STATUS_RUNNING = true ∧ s.decides = false ∧ s.twin.commitRec ≠ some s.count ∧
    s.count * 31250 + 29000 ≤ max s.now t) ∧
    (∃ s : State, s.tstate ≠ 3 ∧ s.Room islTwin) ∧
    (∃ s : State, s.isActive = false ∧ s.twin.lagParts = [] ∧ s.twin.lagSlots = []) ∧
    (∃ s : State, s.isActive = false ∧ s.twin.lagParts ≠ []) ∧
    (∃ (p n : Nat) (s : State), p < 256 ∧ 2 ≤ s.pst p ∧ s.pst p ≤ 5 ∧ (s.part p).release = n) ∧
    (∃ (p : Nat) (s : State), p < 256 ∧ (s.part p).due ≤ s.count + 1 ∧ (s.part p).slowRun = false) ∧
    (∃ s : State, s.isActive = true) :=
  ⟨
    ⟨{ image := 1 }, ((State.reset.put F.CYC_STATUS_RUNNING 1).put F.TWN_STATUS_ROLE 2), by decide, by decide, by decide,
    by decide⟩,
    ⟨{}, State.reset, by decide⟩,
    ⟨1000000000000000, ((State.reset.put F.CYC_STATUS_RUNNING 1).put F.TWN_STATUS_ROLE 2), by decide, by decide, by decide,
    by decide⟩,
    ⟨State.reset, by decide, by decide⟩,
    ⟨State.reset, by decide, by decide, by decide⟩,
    ⟨(State.reset.tw fun q => { q with lagParts := [0] }), by decide, by decide⟩,
    ⟨0, 0, ((State.reset.pa 0 fun k => { k with release := 0 }).put (F.CYC_PSTATE_STATE 0) 2), by decide, by decide, by decide,
    by decide⟩,
    ⟨0, State.reset, by decide, by decide, by decide⟩,
    ⟨(State.reset.put F.TWN_STATUS_ROLE 1), by decide⟩⟩

theorem test_wit_LoopSamples :
    (∃ (slot : Fin 16384) (t : Nat) (s : State), (s.slot slot.val).busy = true ∧ (s.slot slot.val).holding = false ∧
    (s.slot slot.val).result = none ∧ s.get (F.LPE_HEALTH_STATE (slot.val / 1024)) ≠ 2 ∧
    (s.at t).samplePoisoned slot.val = false) ∧
    (∃ (slot : Fin 16384) (s : State), (s.slot slot.val).busy = true ∧ (s.slot slot.val).holding = false ∧
    (s.slot slot.val).result = none ∧ s.get (F.LPE_HEALTH_STATE (slot.val / 1024)) ≠ 2 ∧ s.Room (slotIsland slot.val)) ∧
    (∃ (slot : Fin 16384) (s : State), (s.slot slot.val).busy = false) ∧
    (∃ s : State, s.lateSlots = []) ∧
    (∃ (t : Nat) (s : State), max s.now t < boundaryNs s.count + 27000) ∧
    (∃ (i t : Nat) (s : State), boundaryNs s.count + 27000 ≤ max s.now t ∧ s.lateSlots = [i] ∧ i < 16384 ∧
    s.get (F.LPE_HEALTH_STATE (i / 1024)) = 0 ∧ tget [] s.loops.misses (i / 1024) = [] ∧
    tget none s.loops.lateEvt (i / 1024) ≠ some s.count ∧ s.Room (islCluster (2 * (i / 1024)))) :=
  ⟨
    ⟨0, 0, ((State.reset.sl 0 fun k => { k with busy := true }).sl 0 fun q => { q with busy := true }), by decide, by decide,
    by decide, by decide, by decide +kernel⟩,
    ⟨0, ((State.reset.sl 0 fun k => { k with busy := true }).sl 0 fun q => { q with busy := true }), by decide, by decide,
    by decide, by decide, by decide⟩,
    ⟨0, State.reset, by decide⟩,
    ⟨State.reset, by decide⟩,
    ⟨0, State.reset, by decide⟩,
    ⟨0, 1000000000000000, (((im { loops := [{ slot := 0 }] }).put (F.LPE_HEALTH_STATE (0
    / 1024)) 0).sl 0 fun q => { q with busy := true }), by decide, by decide, by decide, by decide, by decide, by decide,
    by decide⟩⟩

theorem test_wit_FlagClears :
    (∃ (slot : Fin 16384) (v : Word) (s : State), s.isActive = true ∧ Nat.land v.toNat clearMask ≠ 0 ∧
    ((s.image.loops.any fun r => decide (r.slot = slot.val)) = true)) ∧
    (∃ s : State, s.isActive = false) ∧
    (∃ s : State, s.isStandby = true) ∧
    (∃ (slot : Nat) (s : State), s.on (F.SLOT_STATUS_FAULT slot) = true ∧ s.Room (slotIsland slot)) :=
  ⟨
    ⟨0, 1, ((im { loops := [{ slot := 0 }] }).put F.TWN_STATUS_ROLE 1), by decide, by decide, by decide +kernel⟩,
    ⟨State.reset, by decide⟩,
    ⟨(State.reset.put F.TWN_STATUS_ROLE 2), by decide⟩,
    ⟨0, (State.reset.put (F.SLOT_STATUS_FAULT 0) 1), by decide, by decide⟩⟩

theorem test_wit_Traces :
    (∃ (c : Fin 32) (s : State), s.trc c.val = 0 ∧ s.image.captures c.val = false ∧
    (((List.range 8).any fun n => s.chanBad c.val n) = false) ∧ s.trcPre c.val + s.trcPost c.val ≤ 4096 ∧ s.trcPost c.val ≠ 0) ∧
    (∃ (c : Fin 32) (s : State), s.trc c.val ≠ 0) ∧
    (∃ (c : Fin 32) (s : State), s.trc c.val = 2 ∧ s.Room (islCluster c.val)) ∧
    (∃ (c : Fin 32) (s : State), ((s.trc c.val = 1 ∨ s.trc c.val = 4))) ∧
    (∃ (c : Fin 32) (s : State), 1 ≤ s.trc c.val ∧ s.trc c.val ≤ 3) ∧
    (∃ (c : Fin 32) (s : State), s.trc c.val = 1 ∧ (((s.trcChans c.val).all fun n => decide (s.trcPre c.val ≤ nth
    (s.trace c.val).since n)) = true)) ∧
    (∃ (c : Fin 32) (s : State), s.trc c.val = 3 ∧ (((s.trcChans c.val).all fun n => decide (s.trcPost c.val ≤ nth
    (s.trace c.val).post n)) = true)) ∧
    (∃ (c : Fin 32) (s : State), s.trc c.val = 4 ∧ s.on (F.TRC_CTL_MODE c.val) = false ∧ (s.trace c.val).lost = 0 ∧
    s.rdN R.FAB_HBM_STRESS = 0 ∧ s.trcPre c.val + s.trcPost c.val ≤ 4096 ∧ s.Room (islCluster c.val)) :=
  ⟨
    ⟨0, (State.reset.put (F.TRC_CTL_STATE 0) 0), by decide, by decide, by decide, by decide, by decide⟩,
    ⟨0, (State.reset.put (F.TRC_CTL_STATE 0) 1), by decide⟩,
    ⟨0, (State.reset.put (F.TRC_CTL_STATE 0) 2), by decide, by decide⟩,
    ⟨0, (State.reset.put (F.TRC_CTL_STATE 0) 1), by decide⟩,
    ⟨0, (State.reset.put (F.TRC_CTL_STATE 0) 1), by decide, by decide⟩,
    ⟨0, (State.reset.put (F.TRC_CTL_STATE 0) 1), by decide, by decide +kernel⟩,
    ⟨0, (State.reset.put (F.TRC_CTL_STATE 0) 3), by decide, by decide +kernel⟩,
    ⟨0, ((State.reset.put (F.TRC_CTL_STATE 0) 4).setTrace 0 { lost := 0 }), by decide, by decide, by decide, by decide,
    by decide, by decide⟩⟩

theorem test_wit_RingReception :
    (∃ (ring : Fin 16) (b : List Byte) (rr : RingRec) (s : State), s.img ≠ none ∧ s.image.ring? ring.val = some rr ∧
    fcsOk b = false) ∧
    (∃ (ring : Fin 16) (b : List Byte) (rr : RingRec) (s : State), s.img ≠ none ∧ s.image.ring? ring.val = some rr ∧
    fcsOk b = true ∧ rr.takes b = true ∧ ((field (frameBody b) 1 1 = 1 ∨ field (frameBody b) 1 1 = 2))) ∧
    (∃ (rr : RingRec) (n : Nat) (b : List Byte) (g : SegRec), (copyOf rr n b g).valid = true) ∧
    (∃ (rr : RingRec) (b : List Byte) (t : Nat) (s : State), rr.ring < 16 ∧ field b 8 8 = s.count ∧
    (s.ring rr.ring).miscabled = false ∧ s.rxDl rr.ring < t - boundaryNs s.count ∧ bitOf (field b 3 1) 3 = false ∧
    s.Room (islRing rr.ring)) ∧
    (∃ (rr : RingRec) (b : List Byte) (t : Nat) (s : State), field b 8 8 = s.count ∧ (s.ring rr.ring).miscabled = false ∧
    t - boundaryNs s.count ≤ s.rxDl rr.ring ∧ field b 1 1 = 1 ∧ bitOf (field b 3 1) 3 = false) ∧
    (∃ (ring : Fin 16) (t : Nat) (rr : RingRec) (s : State), s.image.ring? ring.val = some rr ∧
    (s.ring ring.val).deadline = false ∧ boundaryNs s.count + s.rxDl ring.val ≤ max s.now t ∧
    (s.ring ring.val).miscabled = false ∧ (s.ring ring.val).gotFrame = false ∧ s.Room (islRing ring.val) ∧
    ((rr.due s.count).filter (fun e => decide (e.2.kind ≠ 1)) = [])) ∧
    (∃ (ring : Fin 16) (t : Nat) (rr : RingRec) (s : State), s.image.ring? ring.val = some rr ∧
    (s.ring ring.val).deadline = false ∧ boundaryNs s.count + s.rxDl ring.val ≤ max s.now t ∧
    (s.ring ring.val).miscabled = false ∧ (s.ring ring.val).gotFrame = true) ∧
    (∃ (ring : Fin 16) (b : List Byte) (rr : RingRec) (s : State), s.image.ring? ring.val = some rr ∧ fcsOk b = true ∧
    rr.takes b = false) ∧
    (∃ (ring : Fin 16) (t : Nat) (s : State), (((s.ring ring.val).deadline = true ∨
    max s.now t < boundaryNs s.count + s.rxDl ring.val))) :=
  ⟨
    ⟨0, [], { ring := 0 }, (im { rings := [{ ring := 0 }] }), by decide, by decide, by decide +kernel⟩,
    ⟨0, (ringBytes 1 0 0 []), { ring := 0 }, (im { rings := [{ ring := 0 }] }), by decide, by decide, by decide +kernel,
    by decide +kernel, by decide +kernel⟩,
    ⟨{ ring := 0 }, 0, List.replicate 24 0 ++ [0, 0, 0, 0, 1, 0, 0, 0, 0x8A, 0x47], { station := 0, kind := 0, len := 0 },
    by decide +kernel⟩,
    ⟨{ ring := 0 }, [], 30000, State.reset, by decide, by decide, by decide, by decide, by decide, by decide⟩,
    ⟨{ ring := 0 }, [0, 1], 0, State.reset, by decide, by decide, by decide, by decide, by decide⟩,
    ⟨0, 1000000000000000, { ring := 0 }, (im { rings := [{ ring := 0 }] }), by decide, by decide, by decide, by decide,
    by decide, by decide, by decide +kernel⟩,
    ⟨0, 1000000000000000, { ring := 0 }, (((im { rings := [{ ring := 0 }] }).ri 0 fun k => { k with gotFrame := true }).ri
    0 fun k => { k with gotFrame := true }), by decide, by decide, by decide, by decide, by decide⟩,
    ⟨0, (ringBytes 5 0 0 []), { ring := 0 }, (im { rings := [{ ring := 0 }] }), by decide, by decide +kernel, by decide +kernel⟩,
    ⟨0, 0, (State.reset.ri 0 fun k => { k with deadline := true }), by decide⟩⟩

theorem test_wit_SegmentAgreement :
    (∃ (a b : SegCopy), a.valid = true ∧ b.valid = true ∧ a.digest = b.digest) ∧
    (∃ (a b : SegCopy) (active : Bool), a.valid = true ∧ b.valid = true ∧ a.digest ≠ b.digest ∧ eastOf a b active = true) ∧
    (∃ (a b : SegCopy) (active : Bool), a.valid = true ∧ b.valid = true ∧ a.digest ≠ b.digest ∧ eastOf a b active = false) ∧
    (∃ (a b : SegCopy), a.valid = false ∧ b.valid = false) ∧
    (∃ (n : Nat) (s : State), n ≠ s.count) ∧
    (∃ (d : DigestMsg) (a : SegCopy) (t : Nat) (s : State), s.agrees = true ∧ max s.now t ≤ boundaryNs s.count + 22000 ∧
    s.segState d.ring d.seg = { own := some a } ∧ a.valid = true ∧ d.valid = true ∧ a.digest = d.crc) ∧
    (∃ (t : Nat) (s : State), max s.now t ≤ boundaryNs s.count + 22000) ∧
    (∃ (ring : Fin 16) (seg n t : Nat) (s : State), (n ≠ s.count ∨ (s.isActive = true ∧
    boundaryNs s.count + 22000 < max s.now t) ∨ (s.segState ring.val seg).partner = none)) ∧
    (∃ (ring : Fin 16) (seg n : Nat) (b : SegCopy) (t : Nat) (s : State), n = s.count ∧ ((s.isActive = true →
    max s.now t ≤ boundaryNs s.count + 22000)) ∧ (s.segState ring.val seg).partner = some b) ∧
    (∃ (t : Nat) (s : State), s.isActive = true ∧ boundaryNs s.count + 22000 ≤ max s.now t) ∧
    (∃ s : State, s.isActive = false ∧ s.rd64 R.SIG_CLOSED ≠ s.count ∧ s.twin.closeRec ≠ some s.count) ∧
    (∃ (n : Nat) (s : State), (n ≠ s.count ∨ s.rd64 R.SIG_CLOSED = n ∨ s.twin.closeRec = some n ∨ s.isActive = true)) ∧
    (∃ (t : Nat) (s : State), s.isStandby = true ∧ s.twin.closeRec ≠ some s.count ∧ s.rd64 R.SIG_CLOSED ≠ s.count ∧
    boundaryNs s.count + 24000 ≤ max s.now t ∧ s.on F.TWN_STATUS_SUSPECT = false) ∧
    (∃ (t : Nat) (s : State), s.isActive = true ∧ boundaryNs s.count + 22000 < max s.now t) ∧
    (∃ (t : Nat) (s : State), ((s.isActive = false ∨ max s.now t < boundaryNs s.count + 22000))) :=
  ⟨
    ⟨{ valid := true }, { valid := true }, by decide, by decide, by decide⟩,
    ⟨{ valid := true, digest := 1, epoch := 2 }, { valid := true, epoch := 1 }, false, by decide, by decide, by decide,
    by decide⟩,
    ⟨{ valid := true, digest := 1, epoch := 1 }, { valid := true, epoch := 2 }, false, by decide, by decide, by decide,
    by decide⟩,
    ⟨{}, {}, by decide, by decide⟩,
    ⟨1, State.reset, by decide⟩,
    ⟨{ ring := 0, seg := 0, valid := true }, { valid := true }, 0,
    (((((im {}).put F.TWN_STATUS_ROLE 1).ri 0 fun k => { k with segs := [(0, { own := some { valid := true } })] }).put
    F.TWN_STATUS_TSTATE 1).put F.TWN_STATUS_PARTNER_TSTATE 3), by decide, by decide, by decide, by decide, by decide,
    by decide +kernel⟩,
    ⟨0, State.reset, by decide⟩,
    ⟨0, 0, 1, 1000000000000000, State.reset, by decide⟩,
    ⟨0, 0, 0, {}, 0, (State.reset.ri 0 fun k => { k with segs := [(0, { partner := some {} })] }), by decide, by decide,
    by decide⟩,
    ⟨1000000000000000, (State.reset.put F.TWN_STATUS_ROLE 1), by decide, by decide⟩,
    ⟨(State.reset.wrN R.SIG_CLOSED 1), by decide, by decide, by decide⟩,
    ⟨0, State.reset, by decide⟩,
    ⟨1000000000000000, ((State.reset.put F.TWN_STATUS_ROLE 2).wrN R.SIG_CLOSED 1), by decide, by decide, by decide, by decide,
    by decide⟩,
    ⟨1000000000000000, (State.reset.put F.TWN_STATUS_ROLE 1), by decide, by decide⟩,
    ⟨0, State.reset, by decide⟩⟩

theorem test_wit_RingCommands :
    (∃ (ring : Fin 16) (b : List Byte) (pts own : List (Fin 256 × Nat × Word)) (rr : RingRec) (s : State),
    s.image.ring? ring.val = some rr ∧ rr.filled 4 5 b ≠ [] ∧
    (own = pts.filter (fun p => ((rr.filled 4 5 b).map (fun g => g.1)).contains
    p.1.val && decide ((s.pinfo p.2.1).owner = .station ring.val p.1.val)))) ∧
    (∃ (ring : Fin 16) (rr : RingRec) (s : State), s.isActive = true ∧ s.image.ring? ring.val = some rr ∧ s.acycFits rr = true) ∧
    (∃ s : State, s.isActive = false) ∧
    (∃ (c : Fin 32) (s : State), s.image.captures c.val = false) ∧
    (∃ (c : Fin 32) (run : Bool) (s : State), ((run = true → s.image.captures c.val = true))) ∧
    (∃ (ring : Fin 16) (up : Bool) (s : State), (s.ring ring.val).ownUp ≠ up ∧ ((up = true → s.cageOn ring.val = true)) ∧
    (s.ring ring.val).census ≠ .count ∧ (s.ring ring.val).census ≠ .read ∧ s.Room (islRing ring.val)) ∧
    (∃ (ring : Fin 16) (up : Bool) (s : State), (s.ring ring.val).ownUp = up) ∧
    (∃ (ring : Fin 16) (s : State), (s.ring ring.val).census ≠ .count ∧ (s.ring ring.val).census ≠ .read) ∧
    (∃ (ring : Fin 16) (rr : RingRec) (s : State), s.isActive = true ∧ s.image.ring? ring.val = some rr ∧ s.acycFits rr = false) :=
  ⟨
    ⟨0, (ringBytes 4 0 1 (segOf 1 5 [])), [], [], { ring := 0 }, (im { rings := [{ ring := 0 }] }), by decide,
    by decide +kernel, by decide +kernel⟩,
    ⟨0, { ring := 0 }, ((im { rings := [{ ring := 0 }] }).put F.TWN_STATUS_ROLE 1), by decide, by decide, by decide +kernel⟩,
    ⟨State.reset, by decide⟩,
    ⟨0, State.reset, by decide⟩,
    ⟨0, false, State.reset, by decide⟩,
    ⟨0, true, (State.reset.pw fun q => { q with cages := [(0, 1, 0)] }), by decide, by decide, by decide, by decide, by decide⟩,
    ⟨0, false, (State.reset.ri 0 fun k => { k with ownUp := false }), by decide⟩,
    ⟨0, State.reset, by decide, by decide⟩,
    ⟨0, { ring := 0 }, (((im { rings := [{ ring := 0 }] }).put F.TWN_STATUS_ROLE 1).ri 0 fun k => { k with path := 40000 }),
    by decide, by decide, by decide +kernel⟩⟩

theorem test_wit_StationCensus :
    (∃ (ring : Fin 16) (t : Nat) (rr : RingRec) (s : State), s.isActive = true ∧ s.img ≠ none ∧
    s.image.ring? ring.val = some rr ∧ (s.ring ring.val).ownUp = true ∧ (s.ring ring.val).census = .idle ∧
    (s.ring ring.val).again = false ∧ (((s.ring ring.val).everStarted = false ∨ (s.ring ring.val).censusNow = true ∨
    (s.ring ring.val).sinceStart + 100000000 ≤ max s.now t)) ∧ (s.at t).acycFits rr = true ∧
    s.get (F.RNG_STATUS_STATE ring.val) ≠ 5) ∧
    (∃ (ring : Fin 16) (s : State), ((s.isActive = false ∨ s.img = none ∨ (s.ring ring.val).ownUp = false))) ∧
    (∃ (ring : Fin 16) (b : List Byte) (rr : RingRec) (s : State), s.image.ring? ring.val = some rr ∧ fcsOk b = true ∧
    rr.takes b = true ∧ (s.ring ring.val).census = .count ∧ (s.ring ring.val).again = false) ∧
    (∃ (ring : Fin 16) (b : List Byte) (es : List CensusEntry) (rr : RingRec) (s : State), s.image.ring? ring.val = some rr ∧
    fcsOk b = true ∧ rr.takes b = true ∧ (rr.filled 3 6 b).length = es.length ∧ (s.ring ring.val).census = .read ∧ ((∀ e ∈ es,
    (rr.placed e).who ∈ (s.ring ring.val).startIds)) ∧ (((s.ring ring.val).entries.length + ((es.map rr.placed).filter
    fun e => !(s.ring ring.val).entries.any fun x => x.pos = e.pos).length < (s.ring ring.val).startIds.length))) ∧
    (∃ (rr : RingRec) (s : State), rr.ring < 16 ∧ s.get (F.RNG_STATUS_STATE rr.ring) ≠ 5 ∧ s.acycFits rr = true) ∧
    (∃ (ring : Fin 16) (t n : Nat) (s : State), (((s.ring ring.val).census = .count ∨ (s.ring ring.val).census = .read)) ∧
    n ∈ (s.ring ring.val).sent ∧ boundaryNs n + 30750 ≤ max s.now t ∧ s.Room (islRing ring.val)) ∧
    (∃ (ring : Fin 16) (o : CensusOrder) (rr : RingRec) (s : State), s.isActive = false ∧ s.image.ring? ring.val = some rr ∧
    o.window = s.count ∧ s.acycFits rr = true) ∧
    (∃ (ring : Fin 16) (o : CensusOrder) (rr : RingRec) (s : State), s.image.ring? ring.val = some rr ∧ (s.isActive = true ∨
    s.count ≠ o.window ∨ s.acycFits rr = false)) ∧
    (∃ s : State, s.isActive = false) ∧
    (∃ s : State, s.isActive = true) ∧
    (∃ (ses : Fin 16) (req : Nat) (s : State), s.Serves ses req true true) ∧
    (∃ (ses : Fin 16) (req : Nat) (s : State), s.Serves ses req false false) :=
  ⟨
    ⟨0, 0, { ring := 0 }, (((((im { rings := [{ ring := 0 }] }).put F.TWN_STATUS_ROLE 1).ri
    0 fun k => { k with ownUp := true }).ri 0 fun k => { k with census := .idle }).ri 0 fun k => { k with ownUp := true }),
    by decide, by decide, by decide, by decide, by decide, by decide, by decide, by decide +kernel, by decide⟩,
    ⟨0, State.reset, by decide⟩,
    ⟨0, (ringBytes 3 0 0 []), { ring := 0 }, ((im { rings := [{ ring := 0 }] }).ri 0 fun k => { k with census := .count }),
    by decide, by decide +kernel, by decide +kernel, by decide, by decide⟩,
    ⟨0, (ringBytes 3 0 0 []), [], { ring := 0 },
    (((im { rings := [{ ring := 0 }] }).ri 0 fun k => { k with census := .read }).ri
    0 fun k => { k with startIds := [(0, 0, 0, 0)] }), by decide, by decide +kernel, by decide +kernel, by decide +kernel,
    by decide, by decide +kernel, by decide +kernel⟩,
    ⟨{ ring := 0 }, State.reset, by decide, by decide, by decide +kernel⟩,
    ⟨0, 1000000000000000, 0, (State.reset.ri 0 fun k => { k with census := .count, sent := [0] }), by decide, by decide,
    by decide, by decide⟩,
    ⟨0, { kind := 0 }, { ring := 0 }, (im { rings := [{ ring := 0 }] }), by decide, by decide, by decide, by decide +kernel⟩,
    ⟨0, { kind := 0, window := 1 }, { ring := 0 }, (im { rings := [{ ring := 0 }] }), by decide, by decide +kernel⟩,
    ⟨State.reset, by decide⟩,
    ⟨(State.reset.put F.TWN_STATUS_ROLE 1), by decide⟩,
    ⟨0, 0, ((State.reset.put F.TWN_STATUS_ROLE 1).setSession 0 (some { control := true })), serves (by decide)⟩,
    ⟨0, 0, (State.reset.setSession 0 (some { control := true })), serves (by decide)⟩⟩

theorem test_wit_Heartbeats :
    (∃ (t : Nat) (s : State), s.pd 8 = true ∧ s.time.running = true ∧ s.time.fresh = false ∧ max s.now t = boundaryNs s.count) ∧
    (∃ (t : Nat) (s : State), (s.at t).badgerDue = true) ∧
    (∃ (b : List Byte) (w : FoxWord) (s : State), FoxWord.parse b = some w ∧ ((w.kind = 1 ∨ w.kind = 2)) ∧ s.pd 8 = true ∧
    s.isActive = true ∧ s.tstate = 1 ∧ s.epoch < w.epoch ∧ w.tstate < 16 ∧ bitOf w.flags 0 = true) ∧
    (∃ (b : List Byte) (w : FoxWord) (s : State), FoxWord.parse b = some w ∧ ((w.kind = 1 ∨ w.kind = 2)) ∧ s.pd 8 = true ∧
    s.isStandby = true ∧ s.tstate = 3 ∧ w.epoch < 2 ^ 32 ∧ bitOf w.flags 0 = true) ∧
    (∃ (b : List Byte) (w : BadgerFrame) (s : State), BadgerFrame.parse b = some w ∧ s.isActive = true ∧ s.tstate = 1 ∧
    s.epoch < w.epoch ∧ bitOf w.flags 2 = false ∧ bitOf w.flags 3 = false) ∧
    (∃ (t a : Nat) (s : State), s.twin.badgerRxAt = some a ∧ a + (s.twin.badgerSilent + 1) * 62500 + 1000 ≤ max s.now t ∧
    s.on F.TWN_STATUS_BADGER_OK = true ∧ ((s.twin.foxSilent < 3 ∨ s.twin.badgerSilent = 0)) ∧ s.Room islTwin) ∧
    (∃ (t a : Nat) (s : State), s.twin.badgerRxAt = some a ∧ a + (s.twin.badgerSilent + 1) * 62500 + 1000 ≤ max s.now t ∧
    s.on F.TWN_STATUS_BADGER_OK = false ∧ 3 ≤ s.twin.foxSilent ∧ 1 ≤ s.twin.badgerSilent ∧ s.isStandby = true ∧ s.tstate = 3 ∧
    s.twin.lost = none ∧ s.Room islTwin) ∧
    (∃ (b : List Byte) (w : FoxWord) (s : State), FoxWord.parse b = some w ∧ w.kind = 3 ∧ s.pd 8 = true ∧ s.isStandby = true ∧
    s.tstate = 3 ∧ s.twin.lost = none ∧ s.on F.TWN_STATUS_SUSPECT = false ∧ s.on F.TWN_STATUS_FOX_OK = true ∧ s.Room islTwin) ∧
    (∃ s : State, s.twin.failing = false ∧ s.pd 8 = true ∧ s.Room islTwin) ∧
    (∃ (t : Nat) (s : State), s.isStandby = true ∧ s.on F.TWN_STATUS_SUSPECT = false ∧ ((∀ a : Nat, s.twin.foxAt = some a →
    a + 5000 ≤ max s.now t))) ∧
    (∃ (t k : Nat) (s : State), s.pd 8 = true ∧ s.time.running = true ∧ s.time.fresh = false ∧ 1 ≤ k ∧ k ≤ 15 ∧
    max s.now t = boundaryNs s.count + 2000 * k) :=
  ⟨
    ⟨0, ((((State.reset.setBit R.PWR_ON 8 true).tm fun q => { q with running := true }).setBit
    R.PWR_ON 8 true).tm fun q => { q with running := true }), by decide, by decide, by decide, by decide⟩,
    ⟨0, State.reset, by decide⟩,
    ⟨(FoxWord.bytes { epoch := 1, flags := 1, image := List.replicate 16 0 }),
    { epoch := 1, flags := 1, image := List.replicate 16 0 },
    (((State.reset.put F.TWN_STATUS_ROLE 1).setBit R.PWR_ON 8 true).put F.TWN_STATUS_TSTATE 1), by decide +kernel, by decide,
    by decide, by decide, by decide, by decide, by decide, by decide⟩,
    ⟨(FoxWord.bytes { flags := 1, image := List.replicate 16 0 }), { flags := 1, image := List.replicate 16 0 },
    (((State.reset.put F.TWN_STATUS_ROLE 2).setBit R.PWR_ON 8 true).put F.TWN_STATUS_TSTATE 3), by decide +kernel, by decide,
    by decide, by decide, by decide, by decide, by decide⟩,
    ⟨(BadgerFrame.bytes { epoch := 1 }), { epoch := 1 }, ((State.reset.put F.TWN_STATUS_ROLE 1).put F.TWN_STATUS_TSTATE 1),
    by decide +kernel, by decide, by decide, by decide, by decide, by decide⟩,
    ⟨1000000, 0, ((State.reset.tw fun q => { q with badgerRxAt := some 0 }).put F.TWN_STATUS_BADGER_OK 1), by decide, by decide,
    by decide, by decide, by decide⟩,
    ⟨1000000, 0, ((((State.reset.put F.TWN_STATUS_ROLE 2).tw fun q => { q with badgerRxAt := some 0 }).put
    F.TWN_STATUS_TSTATE 3).tw fun q => { q with foxSilent := 3, badgerSilent := 1 }), by decide, by decide, by decide,
    by decide, by decide, by decide, by decide, by decide, by decide⟩,
    ⟨(FoxWord.bytes { kind := 3, image := List.replicate 16 0 }), { kind := 3, image := List.replicate 16 0 },
    ((((State.reset.put F.TWN_STATUS_ROLE 2).setBit R.PWR_ON 8 true).put F.TWN_STATUS_TSTATE 3).put F.TWN_STATUS_FOX_OK 1),
    by decide +kernel, by decide, by decide, by decide, by decide, by decide, by decide, by decide, by decide⟩,
    ⟨(State.reset.setBit R.PWR_ON 8 true), by decide, by decide, by decide⟩,
    ⟨1000000000000000, (State.reset.put F.TWN_STATUS_ROLE 2), by decide, by decide, by decide⟩,
    ⟨2000, 1, ((State.reset.setBit R.PWR_ON 8 true).tm fun q => { q with running := true }), by decide, by decide, by decide,
    by decide, by decide, by decide⟩⟩

theorem test_wit_RolesTaken :
    (∃ (t : Nat) (s : State), s.tstate = 0 ∧ s.img ≠ none ∧ s.twin.ringActive = false ∧ s.twin.foxHeard = none ∧
    s.twin.badgerHeard = none ∧ s.twin.listenFrom + s.image.twin.listenMs * 1000000 ≤ max s.now t ∧
    s.nv.lastWords.valid = true ∧ s.twin.listenEpoch = none ∧ s.epoch ≤ s.nv.lastWords.epoch ∧
    s.nv.lastWords.epoch + 1 < 2 ^ 32) ∧
    (∃ (t : Nat) (s : State), s.tstate = 0 ∧ s.img ≠ none ∧ s.twin.ringActive = false ∧ s.twin.foxHeard = none ∧
    s.twin.badgerHeard = none ∧ s.twin.listenFrom + s.image.twin.listenMs * 1000000 ≤ max s.now t ∧
    s.nv.lastWords.valid = false ∧ s.twin.listenEpoch = none ∧ s.epoch = 0) ∧
    (∃ (t : Nat) (s : State), ((s.tstate ≠ 0 ∨ s.img = none ∨ s.twin.ringActive = true ∨
    max s.now t < s.twin.listenFrom + s.image.twin.listenMs * 1000000))) ∧
    (∃ (why ep : Nat) (s : State), s.isActive = true ∧ s.twin.release = some (why, ep) ∧ s.on F.MOD_STATUS_REDUCED = false) ∧
    (∃ s : State, s.twin.release = none) ∧
    (∃ (c : Nat) (s : State), c < 16 ∧ s.twin.lost = some c ∧ s.handover = false ∧ s.epoch + 1 < 2 ^ 32) ∧
    (∃ s : State, ((s.tstate = 6 ∨ s.tstate = 8))) ∧
    (∃ s : State, s.tstate ≠ 6 ∧ s.tstate ≠ 8) ∧
    (∃ s : State, s.tstate = 0 ∧ s.partnerHeard = false ∧ s.twin.raised7002 = false ∧ s.Room islTwin) :=
  ⟨
    ⟨1000000000000000, ((im {}).put F.TWN_STATUS_TSTATE 0), by decide, by decide, by decide, by decide, by decide, by decide,
    by decide, by decide, by decide, by decide⟩,
    ⟨1000000000000000, (((im {}).put F.TWN_STATUS_TSTATE 0).inNv fun q => { q with lastWords := { valid := false } }),
    by decide, by decide, by decide, by decide, by decide, by decide, by decide, by decide, by decide⟩,
    ⟨0, (im {}), by decide⟩,
    ⟨0, 0, ((State.reset.put F.TWN_STATUS_ROLE 1).tw fun q => { q with release := some (0, 0) }), by decide, by decide,
    by decide⟩,
    ⟨State.reset, by decide⟩,
    ⟨0, (State.reset.tw fun q => { q with lost := some 0 }), by decide, by decide, by decide, by decide⟩,
    ⟨(State.reset.put F.TWN_STATUS_TSTATE 6), by decide⟩,
    ⟨State.reset, by decide, by decide⟩,
    ⟨(State.reset.put F.TWN_STATUS_TSTATE 0), by decide, by decide, by decide, by decide⟩⟩

theorem test_wit_PlannedSwitchovers :
    (∃ (t : Nat) (s : State), (s.at t).swapReason = 0 ∧ s.twin.switch = none) ∧
    (∃ (t : Nat) (s : State), (s.at t).swapReason ≠ 0 ∧ s.Room islTwin) ∧
    (∃ (b : List Byte) (w : FoxWord) (s : State), FoxWord.parse b = some w ∧ w.kind = 4 ∧ s.pd 8 = true ∧ s.tstate = 3 ∧
    s.isStandby = true ∧ s.count < w.switchAt) ∧
    (∃ (b : List Byte) (w : FoxWord) (s : State), FoxWord.parse b = some w ∧ w.kind = 4 ∧ s.pd 8 = true ∧ s.tstate = 3 ∧
    s.isStandby = true ∧ w.switchAt ≤ s.count) ∧
    (∃ (b : List Byte) (w : FoxWord) (q : Switch) (t : Nat) (s : State), FoxWord.parse b = some w ∧ w.kind = 5 ∧ s.pd 8 = true ∧
    s.twin.switch = some q ∧ s.isActive = true ∧ s.tstate = 1 ∧ q.at_ = w.switchAt ∧ max s.now t + 62500 ≤ boundaryNs q.at_) ∧
    (∃ (t : Nat) (w : Switch) (s : State), s.twin.switch = some w ∧ s.isActive = true ∧ w.acked = false ∧
    boundaryNs w.at_ ≤ max s.now t + 62500 ∧ w.thenRestart = none ∧ s.panel.byButton = false ∧ w.ho = false ∧
    w.diverge = false ∧ s.Room islTwin) ∧
    (∃ (w : Switch) (s : State), s.twin.switch = some w ∧ s.isActive = false ∧ s.twin.switchTo = some w.at_ ∧ w.cause < 16 ∧
    s.nv.hoState ≠ 4 ∧ s.epoch + 1 < 2 ^ 32) ∧
    (∃ (w : Switch) (s : State), s.twin.switch = some w ∧ s.isActive = true ∧ w.acked = true ∧ w.diverge = false ∧ w.ho = false) ∧
    (∃ (t f : Nat) (s : State), s.on F.TWN_STATUS_HOME = false ∧ s.twin.partnerHome = true ∧ s.tstate = 1 ∧ s.ptstate = 3 ∧
    s.isActive = true ∧ s.on F.TWN_CFG_NO_REVERT = false ∧ s.on F.TWN_STATUS_REDUCED = false ∧ s.twin.revertFrom = some f ∧
    f + s.get F.TWN_CFG_REVERT_HOLD * 1000000000 ≤ max s.now t ∧ s.on F.TWN_STATUS_SUSPECT = false ∧
    s.twin.partnerSuspect = false ∧ s.twin.switch = none) ∧
    (∃ s : State, s.on F.TWN_CFG_NO_REVERT = true) ∧
    (∃ s : State, s.isActive = true ∧ s.tstate = 1 ∧ s.ptstate = 3 ∧ s.twin.switch = none ∧ s.on F.TWN_STATUS_SUSPECT = false ∧
    s.twin.partnerSuspect = false ∧ s.Room islTwin) ∧
    (∃ s : State, s.isActive = true ∧ s.tstate = 1 ∧ s.ptstate = 3 ∧ s.twin.switch = none ∧ (s.on F.TWN_STATUS_SUSPECT = true ∨
    s.twin.partnerSuspect = true) ∧ s.Room islTwin) ∧
    (∃ s : State, s.isActive = true ∧ s.twin.switch = none ∧ s.ptstate ≠ 3 ∧ s.Room islTwin) ∧
    (∃ (t c : Nat) (s : State), s.on F.TWN_STATUS_PROOF_DUE = false ∧ s.Room islTwin ∧ s.twin.lastChange = some c ∧
    s.image.twin.proofDays ≤ (max s.now t - c) / 86400000000000) :=
  ⟨
    ⟨0, (((State.reset.put F.TWN_STATUS_ROLE 1).put F.TWN_STATUS_TSTATE 1).put F.TWN_STATUS_PARTNER_TSTATE 3), by decide,
    by decide⟩,
    ⟨0, State.reset, by decide, by decide⟩,
    ⟨(FoxWord.bytes { kind := 4, switchAt := 1, image := List.replicate 16 0 }),
    { kind := 4, switchAt := 1, image := List.replicate 16 0 },
    (((State.reset.put F.TWN_STATUS_ROLE 2).setBit R.PWR_ON 8 true).put F.TWN_STATUS_TSTATE 3), by decide +kernel, by decide,
    by decide, by decide, by decide, by decide⟩,
    ⟨(FoxWord.bytes { kind := 4, image := List.replicate 16 0 }), { kind := 4, image := List.replicate 16 0 },
    (((State.reset.put F.TWN_STATUS_ROLE 2).setBit R.PWR_ON 8 true).put F.TWN_STATUS_TSTATE 3), by decide +kernel, by decide,
    by decide, by decide, by decide, by decide⟩,
    ⟨(FoxWord.bytes { kind := 5, switchAt := 2, image := List.replicate 16 0 }),
    { kind := 5, switchAt := 2, image := List.replicate 16 0 }, { at_ := 2, cause := 0 }, 0,
    ((((State.reset.tw fun u => { u with switch := some { at_ := 2, cause := 0 } }).put
    F.TWN_STATUS_ROLE 1).setBit R.PWR_ON 8 true).put F.TWN_STATUS_TSTATE 1), by decide +kernel, by decide, by decide, by decide,
    by decide, by decide, by decide, by decide⟩,
    ⟨1000000000000000, { at_ := 0, cause := 0 },
    ((State.reset.put F.TWN_STATUS_ROLE 1).tw fun q => { q with switch := some { at_ := 0, cause := 0 } }), by decide,
    by decide, by decide, by decide, by decide, by decide, by decide, by decide, by decide⟩,
    ⟨{ at_ := 0, cause := 0 }, (State.reset.tw fun q => { q with switch := some { at_ := 0, cause := 0 }, switchTo := some 0 }),
    by decide, by decide, by decide, by decide, by decide, by decide⟩,
    ⟨{ at_ := 0, cause := 0, acked := true },
    ((State.reset.put F.TWN_STATUS_ROLE 1).tw fun q => { q with switch := some { at_ := 0, cause := 0, acked := true } }),
    by decide, by decide, by decide, by decide, by decide⟩,
    ⟨600000000000, 0, (((((State.reset.put F.TWN_STATUS_ROLE 1).tw fun q => { q with partnerHome := true }).put
    F.TWN_STATUS_TSTATE 1).put F.TWN_STATUS_PARTNER_TSTATE 3).tw fun q => { q with revertFrom := some 0 }), by decide,
    by decide, by decide, by decide, by decide, by decide, by decide, by decide, by decide, by decide, by decide, by decide⟩,
    ⟨(State.reset.put F.TWN_CFG_NO_REVERT 1), by decide⟩,
    ⟨(((State.reset.put F.TWN_STATUS_ROLE 1).put F.TWN_STATUS_TSTATE 1).put F.TWN_STATUS_PARTNER_TSTATE 3), by decide,
    by decide, by decide, by decide, by decide, by decide, by decide⟩,
    ⟨((((State.reset.put F.TWN_STATUS_ROLE 1).put F.TWN_STATUS_TSTATE
    1).put F.TWN_STATUS_PARTNER_TSTATE 3).put F.TWN_STATUS_SUSPECT 1), by decide, by decide, by decide, by decide, by decide,
    by decide⟩,
    ⟨(State.reset.put F.TWN_STATUS_ROLE 1), by decide, by decide, by decide, by decide⟩,
    ⟨2678400000000000, 0, (State.reset.tw fun q => { q with lastChange := some 0 }), by decide, by decide, by decide, by decide⟩⟩

theorem test_wit_JoiningAndSignatures :
    (∃ (c : JoinCheck) (s : State), s.isActive = false ∧ s.tstate = 2 ∧ s.get F.TWN_JOIN_STEP = 1 ∧ c.reduced = false ∧
    c.slot = s.get F.IMG_STATUS_RUN_SLOT ∧ c.ident = pad 16 s.image.ident ∧ s.image.compatMin ≤ c.compat ∧
    s.image.compatMin ≤ s.nv.compat ∧ (((mergeKeys s.nv.keys c.keys false).any fun k => k.st = .enabled) = true)) ∧
    (∃ (c : JoinCheck) (s : State), s.isActive = false ∧ s.tstate = 2 ∧ s.get F.TWN_JOIN_STEP = 1 ∧ c.reduced = false ∧
    s.hoNamed (some c.slot) c.ident = false ∧ c.ident ≠ pad 16 s.image.ident ∧ s.on F.TWN_STATUS_SUSPECT = false ∧
    s.Room islTwin) ∧
    (∃ (a b : KeySlot), ((a.st = .revoked ∨ b.st = .revoked))) ∧
    (∃ s : State, s.tstate = 2 ∧ s.get F.TWN_JOIN_STEP = 2 ∧ 320 ≤ s.time.twinHeld) ∧
    (∃ s : State, s.isActive = false ∧ s.tstate = 2 ∧ s.get F.TWN_JOIN_STEP = 3) ∧
    (∃ s : State, s.tstate = 2 ∧ s.get F.TWN_JOIN_STEP = 4 ∧ s.twin.reached = []) ∧
    (∃ s : State, s.tstate ≠ 2) ∧
    (∃ s : State, s.tstate = 2 ∧ (s.get F.TWN_JOIN_STEP = 3 ∨ s.get F.TWN_JOIN_STEP = 4) ∧ s.Room islTwin) ∧
    (∃ (t : Nat) (s : State), s.tstate = 2 ∧ s.twin.retry = false ∧ s.twin.joinStart + 5000000000 ≤ max s.now t ∧
    s.Room islTwin) ∧
    (∃ (t : Nat) (s : State), s.tstate = 2 ∧ s.twin.retry = true ∧ s.twin.joinStart + 1000000000 ≤ max s.now t) ∧
    (∃ (a : Sig) (s : State), s.twin.sigs = [a] ∧ s.twin.partnerSigs = [] ∧ s.tstate = 3 ∧ s.handover = false ∧
    s.on F.TWN_STATUS_SUSPECT = false ∧ s.twin.partnerSuspect = false) ∧
    (∃ (a : Sig) (v : Nat) (s : State), s.twin.sigs = [a] ∧ s.twin.partnerSigs = [] ∧ s.tstate = 3 ∧ s.isActive = false ∧
    s.handover = false ∧ s.on F.TWN_STATUS_SUSPECT = false ∧ s.twin.partnerSuspect = false ∧ s.twin.ownFaults = [] ∧
    a.kind ≠ 8 ∧ v ≠ a.val ∧ s.Room islTwin) ∧
    (∃ s : State, s.twin.sigs = []) ∧
    (∃ s : State, s.isActive = true ∧ s.ptstate = 2) :=
  ⟨
    ⟨{ ident := List.replicate 16 0, keys := [{ st := .enabled }] },
    ((State.reset.put F.TWN_STATUS_TSTATE 2).put F.TWN_JOIN_STEP 1), by decide, by decide, by decide, by decide, by decide,
    by decide, by decide, by decide, by decide +kernel⟩,
    ⟨{ ident := [1] }, ((State.reset.put F.TWN_STATUS_TSTATE 2).put F.TWN_JOIN_STEP 1), by decide, by decide, by decide,
    by decide, by decide, by decide, by decide, by decide⟩,
    ⟨{ st := .revoked }, {}, by decide⟩,
    ⟨(((State.reset.put F.TWN_STATUS_TSTATE 2).put F.TWN_JOIN_STEP 2).tm fun q => { q with twinHeld := 320 }), by decide,
    by decide, by decide⟩,
    ⟨((State.reset.put F.TWN_STATUS_TSTATE 2).put F.TWN_JOIN_STEP 3), by decide, by decide, by decide⟩,
    ⟨((State.reset.put F.TWN_STATUS_TSTATE 2).put F.TWN_JOIN_STEP 4), by decide, by decide, by decide⟩,
    ⟨State.reset, by decide⟩,
    ⟨((State.reset.put F.TWN_STATUS_TSTATE 2).put F.TWN_JOIN_STEP 3), by decide, by decide, by decide⟩,
    ⟨5000000000, (State.reset.put F.TWN_STATUS_TSTATE 2), by decide, by decide, by decide, by decide⟩,
    ⟨1000000000, ((State.reset.put F.TWN_STATUS_TSTATE 2).tw fun q => { q with retry := true }), by decide, by decide,
    by decide⟩,
    ⟨{ kind := 0, count := 0, val := 0 },
    ((State.reset.tw fun q => { q with sigs := [{ kind := 0, count := 0, val := 0 }] }).put F.TWN_STATUS_TSTATE 3), by decide,
    by decide, by decide, by decide, by decide, by decide⟩,
    ⟨{ kind := 0, count := 0, val := 0 }, 1,
    ((State.reset.tw fun q => { q with sigs := [{ kind := 0, count := 0, val := 0 }] }).put F.TWN_STATUS_TSTATE 3), by decide,
    by decide, by decide, by decide, by decide, by decide, by decide, by decide, by decide, by decide, by decide⟩,
    ⟨State.reset, by decide⟩,
    ⟨((State.reset.put F.TWN_STATUS_ROLE 1).put F.TWN_STATUS_PARTNER_TSTATE 2), by decide, by decide⟩⟩

theorem test_wit_LineTimeReference :
    (∃ s : State, s.time.running = true) ∧
    (∃ (o : Int) (s : State), s.time.running = false ∧ s.activePartner = true ∧ s.time.twinOfs = some o ∧ s.Room islTime) ∧
    (∃ s : State, s.time.running = false ∧ s.activePartner = true ∧ s.time.twinOfs = none) ∧
    (∃ (d : Fin 2) (s : State), s.time.running = false ∧ s.activePartner = false ∧ s.lockInTime d.val = true ∧
    ((s.lockInTime (1 - d.val) = true → (s.dom d.val).okAt < (s.dom (1 - d.val)).okAt)) ∧ s.Room islTime) ∧
    (∃ (t : Nat) (s : State), s.time.running = false ∧ s.activePartner = false ∧ (s.dom 0).usable = false ∧
    (s.dom 1).usable = false ∧ s.time.poweredAt + s.image.time.lockWaitS * 1000000000 ≤ max s.now t ∧
    s.nv.lastWords.valid = true ∧ s.Room islTime) ∧
    (∃ (d : Fin 2) (t f : Nat) (s : State), s.time.doms.length = 2 ∧ (s.dom d.val).since = some f ∧
    (s.dom d.val).slave.isSome = true ∧ (s.dom d.val).syncOk = true ∧ (s.dom d.val).annOk = true ∧
    f + s.image.time.requalS * 1000000000 ≤ max s.now t) ∧
    (∃ s : State, s.get F.TIM_STATUS_STATE = 1 ∧ (s.dom 0).usable = true ∧ ((s.isStandby = false ∨ s.partnerHeard = false))) ∧
    (∃ s : State, s.get F.TIM_STATUS_STATE = 1 ∧ ((s.isStandby = true ∧ s.partnerHeard = true))) ∧
    (∃ s : State, s.get F.TIM_STATUS_STATE = 1 ∧ s.isStandby = false ∧ (s.dom 0).usable = false ∧ (s.dom 1).usable = true ∧
    s.image.time.noWoad = false ∧ s.Room islTime) ∧
    (∃ s : State, s.get F.TIM_STATUS_STATE = 1 ∧ s.isStandby = false ∧ (s.dom 0).usable = false ∧ (s.dom 1).usable = false ∧
    s.Room islTime) ∧
    (∃ (t : Nat) (s : State), s.get F.TIM_STATUS_STATE = 4 ∧ s.time.degraded = false ∧
    s.time.holdFrom + 3600000000000 ≤ max s.now t ∧ s.Room islTime) ∧
    (∃ (t1 t4 : Stamp) (t2 t3 : Int) (s : State), s.stamped t1 = true ∧ s.stamped t4 = true ∧ s.isStandby = true ∧
    31 ≤ s.time.twinOver ∧ 1000 < ((((t2 - t1.corrected) - (t4.corrected - t3)) / 2 + toSigned
    32 (s.calWord 92)) / 1000).natAbs ∧ s.on F.TIM_STATUS_TWIN_SPLIT = false ∧ s.Room islTime) ∧
    (∃ (t1 t4 : Stamp) (s : State), s.stamped t1 = true ∧ s.stamped t4 = true ∧ s.isStandby = false) ∧
    (∃ (t : Nat) (s : State), s.get F.TIM_STATUS_STATE = 1 ∧ s.time.ageFrom + 86400000000000 ≤ max s.now t) ∧
    (∃ s : State, s.get F.TIM_STATUS_STATE = 5) ∧
    (∃ (t1 t4 : Stamp) (s : State), ((s.stamped t1 = false ∨ s.stamped t4 = false))) ∧
    (∃ (t : Nat) (s : State), max s.now t < s.time.poweredAt + s.image.time.lockWaitS * 1000000000) ∧
    (∃ s : State, s.get F.TIM_STATUS_STATE ≠ 4) :=
  ⟨
    ⟨((State.reset.tm fun q => { q with running := true }).tm fun q => { q with running := true }), by decide⟩,
    ⟨0, (((State.reset.put F.TWN_STATUS_PARTNER_TSTATE 1).tw fun q =>
    { q with foxHeard := some 0 }).tm fun q => { q with twinOfs := some 0 }), by decide, by decide, by decide, by decide⟩,
    ⟨((State.reset.put F.TWN_STATUS_PARTNER_TSTATE 1).tw fun q => { q with foxHeard := some 0 }), by decide, by decide,
    by decide⟩,
    ⟨0, (State.reset.setDom 0 { usable := true }), by decide, by decide, by decide, by decide, by decide⟩,
    ⟨1000000000000000, State.reset, by decide, by decide, by decide, by decide, by decide, by decide, by decide⟩,
    ⟨0, 20000000000, 0, ((((State.reset.setDom 0 { since := some 0 }).setDom 0 { syncOk := true }).setDom
    0 { annOk := true }).setDom 0 { since := some 0, slave := some 0, syncOk := true, annOk := true }), by decide, by decide,
    by decide, by decide, by decide, by decide⟩,
    ⟨(((State.reset.put F.TIM_STATUS_STATE 1).setDom 0 { usable := true }).setDom 0 { usable := true }), by decide, by decide,
    by decide⟩,
    ⟨(((State.reset.put F.TIM_STATUS_STATE 1).put F.TWN_STATUS_ROLE 2).tw fun q => { q with foxHeard := some 0 }), by decide,
    by decide⟩,
    ⟨(((State.reset.put F.TIM_STATUS_STATE 1).setDom 1 { usable := true }).setDom 1 { usable := true }), by decide, by decide,
    by decide, by decide, by decide, by decide⟩,
    ⟨(State.reset.put F.TIM_STATUS_STATE 1), by decide, by decide, by decide, by decide, by decide⟩,
    ⟨3600000000000, (State.reset.put F.TIM_STATUS_STATE 4), by decide, by decide, by decide, by decide⟩,
    ⟨{ raw := 0 }, { raw := 0 }, 4000000, 0, ((State.reset.put F.TWN_STATUS_ROLE 2).tm fun q => { q with twinOver := 31 }),
    by decide, by decide, by decide, by decide, by decide, by decide, by decide⟩,
    ⟨{ raw := 0 }, { raw := 0 }, State.reset, by decide, by decide, by decide⟩,
    ⟨1000000000000000, (State.reset.put F.TIM_STATUS_STATE 1), by decide, by decide⟩,
    ⟨(State.reset.put F.TIM_STATUS_STATE 5), by decide⟩,
    ⟨{ raw := 31250000 }, { raw := 0 }, (State.reset.tm fun q => { q with running := true }), by decide⟩,
    ⟨0, State.reset, by decide⟩,
    ⟨State.reset, by decide⟩⟩

theorem test_wit_TimeRestarts :
    (∃ (d : Fin 2) (t : Nat) (s : State), s.isActive = true ∧ s.image.time.stepOk = true ∧ (s.dom d.val).usable = true ∧
    1000000 < ((s.at t).offsetNow d.val).natAbs ∧ s.on F.TIM_CTL_APPLY_AT = false) ∧
    (∃ s : State, s.isActive = false ∧ s.Room islTime) ∧
    (∃ s : State, s.get F.TIM_SET_NS_V > 999999999 ∧ s.Room islTime) ∧
    (∃ s : State, s.get F.TIM_SET_NS_V ≤ 999999999 ∧ s.time.running = false ∧ s.on F.TIM_CTL_APPLY_AT = false) ∧
    (∃ s : State, s.isStandby = true) ∧
    (∃ s : State, s.isStandby = false) ∧
    (∃ s : State, s.time.step = none) ∧
    (∃ (k : TimeStep) (s : State), s.time.step = some k ∧ k.start = false ∧ s.Room islTime) ∧
    (∃ s : State, s.on F.TIM_STATUS_STARTED = true) ∧
    (∃ s : State, s.on F.TIM_STATUS_STARTED = false) ∧
    (∃ (t : Nat) (s : State), s.time.running = true ∧ max s.now t % 1000000000 = 0 ∧ ((∀ a : Nat, s.time.ppsAt = some a →
    a < max s.now t))) ∧
    (∃ (t a : Nat) (s : State), s.time.running = true ∧ s.time.ppsHigh = true ∧ s.time.ppsAt = some a ∧
    a + s.image.time.pulseMs * 1000000 ≤ max s.now t) ∧
    (∃ (ses : Fin 16) (req : Nat) (d : Fin 2) (t : Nat) (s : State), (s.at t).Serves ses req true true ∧
    s.image.time.stepOk = true ∧ (s.dom d.val).usable = true ∧ 1000000 < ((s.at t).offsetNow d.val).natAbs) ∧
    (∃ (ses : Fin 16) (req t : Nat) (s : State), (s.at t).Serves ses req true true ∧ s.get F.TIM_SET_NS_V > 999999999 ∧
    s.Room islTime) ∧
    (∃ (ses : Fin 16) (req t : Nat) (s : State), (s.at t).Serves ses req true true ∧ s.get F.TIM_SET_NS_V ≤ 999999999 ∧
    s.time.running = true ∧ s.image.time.stepOk = true ∧ 1000000 < ((s.setTime : Int) - (max s.now t : Nat)).natAbs) ∧
    (∃ (ses : Fin 16) (req t : Nat) (s : State), (s.at t).Serves ses req false false) ∧
    (∃ s : State, s.time.running = false) ∧
    (∃ (t a : Nat) (s : State), s.time.ppsAt = some a ∧ max s.now t ≤ a) :=
  ⟨
    ⟨0, 0, ((((im { time := { stepOk := true } }).put F.TWN_STATUS_ROLE 1).setDom
    0 { usable := true }).setDom 0 { usable := true, offset := 1000001 }), by decide, by decide, by decide, by decide,
    by decide⟩,
    ⟨State.reset, by decide, by decide⟩,
    ⟨(State.reset.put F.TIM_SET_NS_V 1000000000), by decide, by decide⟩,
    ⟨State.reset, by decide, by decide, by decide⟩,
    ⟨(State.reset.put F.TWN_STATUS_ROLE 2), by decide⟩,
    ⟨State.reset, by decide⟩,
    ⟨State.reset, by decide⟩,
    ⟨{ at_ := 0, target := 0 }, (State.reset.tm fun q => { q with step := some { at_ := 0, target := 0 } }), by decide,
    by decide, by decide⟩,
    ⟨(State.reset.put F.TIM_STATUS_STARTED 1), by decide⟩,
    ⟨State.reset, by decide⟩,
    ⟨1000000000000000, ((State.reset.tm fun q => { q with running := true }).tm fun q => { q with running := true }), by decide,
    by decide, by decide⟩,
    ⟨1000000000000000, 0, ((((State.reset.tm fun q => { q with running := true }).tm fun
    q => { q with ppsHigh := true }).tm fun q => { q with ppsAt := some 0 }).tm fun q => { q with running := true }), by decide,
    by decide, by decide, by decide⟩,
    ⟨0, 0, 0, 0, (((((im { time := { stepOk := true } }).put F.TWN_STATUS_ROLE
    1).setSession 0 (some { control := true })).setDom 0 { usable := true }).setDom 0 { usable := true, offset := 1000001 }),
    serves (by decide), by decide, by decide, by decide⟩,
    ⟨0, 0, 0, (((State.reset.put F.TWN_STATUS_ROLE 1).setSession 0 (some { control := true })).put F.TIM_SET_NS_V 1000000000),
    serves (by decide), by decide, by decide⟩,
    ⟨0, 0, 1000001, (((((im { time := { stepOk := true } }).put F.TWN_STATUS_ROLE
    1).setSession 0 (some { control := true })).tm fun q => { q with running := true }).tm fun q => { q with running := true }),
    serves (by decide), by decide, by decide, by decide, by decide⟩,
    ⟨0, 0, 0, (State.reset.setSession 0 (some { control := true })), serves (by decide)⟩,
    ⟨State.reset, by decide⟩,
    ⟨0, 0, (State.reset.tm fun q => { q with ppsAt := some 0 }), by decide, by decide⟩⟩

theorem test_wit_TimeProtocol :
    (∃ (p : Fin 22) (d : Fin 256) (s : State), s.fromSlave p.val d.val = false) ∧
    (∃ (p : Fin 22) (d : Fin 256) (x : Stamp) (s : State), s.fromSlave p.val d.val = true ∧ s.stamped x = true) ∧
    (∃ (p : Fin 22) (d : Fin 256) (o c v : Int) (x : Stamp) (t : Nat) (s : State), s.fromSlave p.val d.val = true ∧
    s.stamped x = true ∧ s.time.doms.length = 2 ∧ v = (o + c + (s.ptpPort p.val).fromPs - s.ingress p.val x) / 1000 ∧
    (s.at t).jumps d.val v = false ∧ ((s.at t).domRate d.val v (max s.now t - (s.dom d.val).at_)).natAbs ≤ 200000 ∧
    (s.dom 0).usable = false) ∧
    (∃ (p : Fin 22) (d : Fin 256) (o c : Int) (x : Stamp) (t : Nat) (s : State), s.fromSlave p.val d.val = true ∧
    s.stamped x = true ∧ s.time.doms.length = 2 ∧ 200000 < ((s.at t).domRate d.val ((o + c + (s.ptpPort p.val).fromPs
    - s.ingress p.val x) / 1000) (max s.now t - (s.dom d.val).at_)).natAbs ∧ s.Room islTime) ∧
    (∃ (p : Fin 22) (d : Fin 256) (i : Int) (s : State), s.fromSlave p.val d.val = true ∧
    ((s.ptpPort p.val).syncWait.find? (fun e => e.1 = d.val) = some (d.val, i))) ∧
    (∃ (p : Fin 22) (d : Fin 256) (s : State), ((s.ptpPort p.val).syncWait.find? (fun e => e.1 = d.val) = none)) ∧
    (∃ (p : Fin 22) (d : Fin 256) (s : State), d.val < 2 ∧ s.ptpOn p.val = true ∧ canSlave p.val = true ∧
    s.time.doms.length = 2 ∧ s.dom d.val = {}) ∧
    (∃ (p : Fin 22) (d : Fin 256) (s : State), (2 ≤ d.val ∨ canSlave p.val = false)) ∧
    (∃ (d : Fin 2) (t : Nat) (s : State), (s.dom d.val).syncOk = true ∧ (s.dom d.val).at_ + 375000000 ≤ max s.now t ∧
    s.time.doms.length = 2 ∧ s.Room islTime) ∧
    (∃ (p : Fin 22) (rx tx : Stamp) (s : State), s.ptpOn p.val = true ∧ s.stamped rx = true ∧ s.stamped tx = true) ∧
    (∃ (p : Fin 22) (s : State), s.ptpOn p.val = true) ∧
    (∃ (p : Fin 22) (t1 t4 : Stamp) (s : State), (s.ptpPort p.val).pdelayWait = true ∧ s.stamped t1 = true ∧
    s.stamped t4 = true) ∧
    (∃ (p : Fin 22) (x : Int) (s : State), (s.ptpPort p.val).turn = some x) ∧
    (∃ (d : Fin 2) (p t : Nat) (s : State), s.time.doms.length = 2 ∧ (s.dom d.val).slave = some p ∧
    p ∈ keys (s.dom d.val).anns ∧ tget 0 (s.dom d.val).annAt p + 3000000000 ≤ max s.now t ∧ s.Room islTime) ∧
    (∃ (p : Fin 22) (d : Fin 256) (s : State), d.val < 2 ∧ (d.val = 0 ∨ 16 ≤ p.val) ∧ s.ptpOn p.val = true) ∧
    (∃ (p : Fin 22) (x : Stamp) (s : State), p.val < 16 ∧ s.ptpOn p.val = true ∧ s.role ≠ 0 ∧ s.stamped x = true) ∧
    (∃ (p : Fin 22) (d : Fin 2) (s : State), p.val < 16 ∧ ((d.val = 1 ∨ s.role = 0))) ∧
    (∃ (p : Fin 22) (s : State), p.val < 16 ∧ s.ptpOn p.val = true) ∧
    (∃ (p : Fin 22) (s : State), s.ptpOn p.val = false) ∧
    (∃ (d : Fin 2) (t : Nat) (s : State), max s.now t < (s.dom d.val).at_ + 375000000) ∧
    (∃ (p : Fin 22) (x : Stamp) (a : Nat) (s : State), 16 ≤ p.val ∧ (s.dom 0).slave = some a ∧ a ≠ p.val ∧
    tget none (s.dom 0).anns p.val = none ∧ (s.dom 0).synced = true ∧ s.ptpOn p.val = true ∧ s.stamped x = true) :=
  ⟨
    ⟨0, 0, State.reset, by decide⟩,
    ⟨0, 0, { raw := 0 }, (State.reset.setDom 0 { slave := some 0 }), by decide, by decide⟩,
    ⟨0, 0, 0, 0, 0, { raw := 0 }, 0, (State.reset.setDom 0 { slave := some 0 }), by decide, by decide, by decide, by decide,
    by decide, by decide, by decide⟩,
    ⟨0, 0, 1000000000000, 0, { raw := 0 }, 1000000000, (State.reset.setDom 0 { slave := some 0, hasOffset := true }), by decide,
    by decide, by decide, by decide, by decide⟩,
    ⟨0, 0, 0, ((State.reset.setDom 0 { slave := some 0 }).setPtp 0 { syncWait := [(0, 0)] }), by decide, by decide⟩,
    ⟨0, 0, State.reset, by decide⟩,
    ⟨16, 0, State.reset, by decide, by decide, by decide, by decide, by decide⟩,
    ⟨0, 0, State.reset, by decide⟩,
    ⟨0, 1000000000000000, ((State.reset.setDom 0 { syncOk := true }).setDom 0 { syncOk := true }), by decide, by decide,
    by decide, by decide⟩,
    ⟨0, { raw := 0 }, { raw := 0 }, State.reset, by decide, by decide, by decide⟩,
    ⟨0, State.reset, by decide⟩,
    ⟨0, { raw := 0 }, { raw := 0 }, (State.reset.setPtp 0 { pdelayWait := true }), by decide, by decide, by decide⟩,
    ⟨0, 0, (State.reset.setPtp 0 { turn := some 0 }), by decide⟩,
    ⟨0, 0, 1000000000000000, ((State.reset.setDom 0 { slave := some 0 }).setDom 0 { slave := some 0, anns := [(0, some {})] }),
    by decide, by decide, by decide, by decide, by decide⟩,
    ⟨0, 0, State.reset, by decide, by decide, by decide⟩,
    ⟨0, { raw := 0 }, (State.reset.put F.TWN_STATUS_ROLE 1), by decide, by decide, by decide, by decide⟩,
    ⟨0, 0, State.reset, by decide, by decide⟩,
    ⟨0, State.reset, by decide, by decide⟩,
    ⟨0, (im { time := { ports := [{ port := 0, off := true }] } }), by decide⟩,
    ⟨0, 0, State.reset, by decide⟩,
    ⟨16, { raw := 0 }, 0, (State.reset.setDom 0 { slave := some 0, synced := true }), by decide, by decide, by decide,
    by decide, by decide, by decide, by decide⟩⟩

theorem test_wit_LineLinks :
    (∃ (b : List Byte) (s : State), s.lineOn = true ∧ ((fcsOk b = false ∨ (s.image.links.takes b = true ∧
    lineCrcOk (frameBody b) = false)))) ∧
    (∃ (b f : List Byte) (t : Nat) (e : SubRec) (s : State), s.lineOn = true ∧ fcsOk f = true ∧ s.image.links.takes f = true ∧
    b = frameBody f ∧ lineCrcOk b = true ∧ s.image.links.subs = [e] ∧ s.image.links.fwds = [] ∧ field b 2 2 = e.srcPair ∧
    e.srcPair ≠ s.image.links.pairId ∧ field b 6 2 = e.pubId ∧ field b 20 2 = e.points.length ∧ field b 5 1 = e.cls ∧
    isBoundary e.cls (field b 12 8) = true ∧ field b 12 8 ≤ s.count ∧
    max s.now t - boundaryNs (field b 12 8) ≤ couplingNs e.cls) ∧
    (∃ (pub : Nat) (r : PubRec) (s : State), s.lineOn = true ∧ s.isActive = false ∧
    (s.image.links.pubs.find? (fun q => q.pubId = pub) = some r)) ∧
    (∃ (sub : Fin 256) (n : Nat) (pv : PartnerCopy) (t : Nat) (e : SubRec) (c : SubCopy) (s : State),
    s.image.links.subs[sub.val]? = some e ∧ s.lineOn = true ∧ isBoundary e.cls n = true ∧
    boundaryNs n + couplingNs e.cls ≤ max s.now t ∧ ((∀ m : Nat, (s.sub sub.val).judged = some m → m < n)) ∧ ((s.agrees = true →
    pv = .invalid ∨ pv = .silent)) ∧ (s.sub sub.val).own = some c ∧ c.n = n ∧ s.get (F.LNK_SUB_STATE sub.val) ≠ 2) ∧
    (∃ (sub : Fin 256) (n t : Nat) (e : SubRec) (c : SubCopy) (s : State), s.image.links.subs[sub.val]? = some e ∧
    s.lineOn = true ∧ isBoundary e.cls n = true ∧ boundaryNs n + couplingNs e.cls ≤ max s.now t ∧ ((∀ m : Nat,
    (s.sub sub.val).judged = some m → m < n)) ∧ s.agrees = true ∧ (s.sub sub.val).own = some c ∧ c.n = n ∧
    s.get (F.LNK_SUB_STATE sub.val) ≠ 2) ∧
    (∃ (sub : Fin 256) (n : Nat) (pv : PartnerCopy) (t : Nat) (e : SubRec) (s : State), s.image.links.subs[sub.val]? = some e ∧
    s.lineOn = true ∧ isBoundary e.cls n = true ∧ boundaryNs n + couplingNs e.cls ≤ max s.now t ∧ ((∀ m : Nat,
    (s.sub sub.val).judged = some m → m < n)) ∧ ((∀ v : List PointVal, pv ≠ .full v)) ∧ (s.sub sub.val).own = none) ∧
    (∃ (sub : Fin 256) (e : SubRec) (s : State), s.image.links.subs[sub.val]? = some e ∧
    s.image.links.decoupleN ≤ (s.sub sub.val).missed ∧ s.get (F.LNK_SUB_STATE sub.val) = 1 ∧ s.Room (islLine 0)) ∧
    (∃ (p : Fin 4) (s : State), bitOf (s.get F.LNK_STATUS_LINK_UP) p.val = true ∧ s.Room (islLine p.val)) ∧
    (∃ (p : Fin 4) (s : State), bitOf (s.get F.LNK_STATUS_LINK_UP) p.val = false ∧ s.cageOn (16 + p.val) = true ∧
    s.Room (islLine p.val)) ∧
    (∃ (c : Fin 22) (kind power : Nat) (s : State), 16 ≤ c.val ∧ kind ∈ s.cageTypes c.val ∧ power ≤ cagePower c.val) ∧
    (∃ (c : Fin 22) (kind : Nat) (s : State), 20 ≤ c.val ∧ kind ≠ 0 ∧ (¬ kind ∈ s.cageTypes c.val) ∧ s.Room islMgmt) ∧
    (∃ (c : Fin 22) (s : State), 20 ≤ c.val) ∧
    (∃ (b : List Byte) (s : State), fcsOk b = true ∧ s.image.links.takes b = false) ∧
    (∃ s : State, s.isActive = true) ∧
    (∃ (sub : Fin 256) (n m : Nat) (s : State), (s.sub sub.val).judged = some m ∧ n ≤ m) :=
  ⟨
    ⟨[], (im {}), by decide, by decide +kernel⟩,
    ⟨(frameBody (lineFrameOf (im {}) (lineBytes 1 0 0 0 0 0 []))), (lineFrameOf (im {}) (lineBytes 1 0 0 0 0 0 [])), 0,
    { srcPair := 1, pubId := 0 }, (im { links := { subs := [{ srcPair := 1, pubId := 0 }] } }), by decide, by decide +kernel,
    by decide +kernel, by decide +kernel, by decide +kernel, by decide, by decide, by decide +kernel, by decide,
    by decide +kernel, by decide +kernel, by decide +kernel, by decide +kernel, by decide +kernel, by decide +kernel⟩,
    ⟨0, { pubId := 0 }, (im { links := { pubs := [{ pubId := 0 }] } }), by decide, by decide, by decide⟩,
    ⟨0, 0, .invalid, 1000000000000000, { srcPair := 1, pubId := 0 }, { n := 0 },
    (((im { links := { subs := [{ srcPair := 1, pubId := 0 }] } }).setSub
    0 { own := some { n := 0 } }).setSub 0 { own := some { n := 0 } }), by decide, by decide, by decide, by decide, by decide,
    by decide, by decide, by decide, by decide⟩,
    ⟨0, 0, 1000000000000000, { srcPair := 1, pubId := 0 }, { n := 0 },
    ((((((im { links := { subs := [{ srcPair := 1, pubId := 0 }] } }).setSub
    0 { own := some { n := 0 } }).put F.TWN_STATUS_ROLE 1).put F.TWN_STATUS_TSTATE
    1).put F.TWN_STATUS_PARTNER_TSTATE 3).setSub 0 { own := some { n := 0 } }), by decide, by decide, by decide, by decide,
    by decide, by decide, by decide, by decide, by decide⟩,
    ⟨0, 0, .silent, 1000000000000000, { srcPair := 1, pubId := 0 },
    (im { links := { subs := [{ srcPair := 1, pubId := 0 }] } }), by decide, by decide, by decide, by decide, by decide,
    (fun _ h => nomatch h), by decide⟩,
    ⟨0, { srcPair := 1, pubId := 0 }, (((im { links := { subs := [{ srcPair := 1, pubId := 0 }] } }).put
    (F.LNK_SUB_STATE 0) 1).setSub 0 { missed := 6 }), by decide, by decide, by decide, by decide⟩,
    ⟨0, (State.reset.put F.LNK_STATUS_LINK_UP 1), by decide, by decide⟩,
    ⟨0, (State.reset.pw fun q => { q with cages := [(16, 4, 0)] }), by decide, by decide, by decide⟩,
    ⟨16, 4, 0, State.reset, by decide, by decide, by decide⟩,
    ⟨20, 9, State.reset, by decide, by decide, by decide, by decide⟩,
    ⟨20, State.reset, by decide⟩,
    ⟨(ringBytes 1 0 0 []), State.reset, by decide +kernel, by decide +kernel⟩,
    ⟨(State.reset.put F.TWN_STATUS_ROLE 1), by decide⟩,
    ⟨0, 0, 0, (State.reset.setSub 0 { judged := some 0 }), by decide, by decide⟩⟩

theorem test_wit_RegisterFile :
    (∃ (n m : Nat), n < 32 ∧ m < 32) ∧
    (∃ n : Nat, 8 ≤ n ∧ n < 16) ∧
    (∃ n : Nat, n < 8) ∧
    (∃ (w n m : Nat), w < 15 ∧ n < 32 ∧ m < 32) ∧
    (∃ k : CoreState, k.level ≠ 0) ∧
    (∃ k : CoreState, k.level = 0) :=
  ⟨
    ⟨0, 0, by decide, by decide⟩,
    ⟨8, by decide, by decide⟩,
    ⟨0, by decide⟩,
    ⟨0, 0, 0, by decide, by decide, by decide⟩,
    ⟨{}, by decide⟩,
    ⟨{ level := 0 }, by decide⟩⟩

theorem test_wit_IntegerGroup :
    (∃ r, r ∈ intA ∧ ∃ (c : Fin 32) (w : Word) (s : State), s.Fetches c.val w r.2.1) ∧
    (∃ r, r ∈ intI ∧ ∃ (c : Fin 32) (w : Word) (s : State), s.Fetches c.val w r.2.1) ∧
    (∃ (c : Fin 32) (w : Word) (s : State), s.Fetches c.val w E.PCHI) ∧
    (∃ (c : Fin 32) (w : Word) (s : State), s.Fetches c.val w E.SHIFTK ∧ getBits w 24 2 ≠ 3 ∧ w.getLsbD 26 = false) ∧
    (∃ (c : Fin 32) (w : Word) (s : State), s.Fetches c.val w E.SHIFTK ∧ getBits w 24 2 ≠ 3 ∧ w.getLsbD 26 = true) ∧
    (∃ (c : Fin 32) (w : Word) (s : State), s.Fetches c.val w E.SHIFTK ∧ getBits w 24 2 = 3 ∧ (s.core c.val).level = 0 ∧
    s.StoresGood c.val) :=
  ⟨
    ⟨_, .head _, 0, E.ADD.pat, (((State.reset.put (F.CYC_CORE_STATE 0) 1).wrN (R.ACC_RATTR 0
    0) 0x802801FF).wrN R.PWR_ON 0xFFFFFF), fetches (by decide +kernel)⟩,
    ⟨_, .head _, 0, E.ADDK.pat, (((State.reset.put (F.CYC_CORE_STATE 0) 1).wrN (R.ACC_RATTR 0
    0) 0x802801FF).wrN R.PWR_ON 0xFFFFFF), fetches (by decide +kernel)⟩,
    ⟨0, E.PCHI.pat, (((State.reset.put (F.CYC_CORE_STATE 0) 1).wrN (R.ACC_RATTR 0 0) 0x802801FF).wrN R.PWR_ON 0xFFFFFF),
    fetches (by decide +kernel)⟩,
    ⟨0, E.SHIFTK.pat, (((State.reset.put (F.CYC_CORE_STATE 0) 1).wrN (R.ACC_RATTR 0 0) 0x802801FF).wrN R.PWR_ON 0xFFFFFF),
    fetches (by decide +kernel), by decide, by decide⟩,
    ⟨0, (E.SHIFTK.pat ||| 0x04000000), (((State.reset.put (F.CYC_CORE_STATE 0) 1).wrN (R.ACC_RATTR 0
    0) 0x802801FF).wrN R.PWR_ON 0xFFFFFF), fetches (by decide +kernel), by decide, by decide⟩,
    ⟨0, (E.SHIFTK.pat ||| 0x03000000), ((((State.reset.put (F.CYC_CORE_STATE 0) 1).wrN (R.ACC_RATTR 0
    0) 0x802801FF).wrN R.PWR_ON 0xFFFFFF).co 0 fun k => { k with level := 0 }), fetches (by decide +kernel), by decide,
    by decide, storesGood (by decide +kernel)⟩⟩

theorem test_wit_BranchesAndJumps :
    (∃ r, r ∈ brB ∧ ∃ (c : Fin 32) (w : Word) (s : State), s.Fetches c.val w r.2.1 ∧
    r.2.2 (s.xr c.val (bSrc1 w)) (s.xr c.val (bSrc2 w))) ∧
    (∃ r, r ∈ brB ∧ ∃ (c : Fin 32) (w : Word) (s : State), s.Fetches c.val w r.2.1 ∧
    (¬ r.2.2 (s.xr c.val (bSrc1 w)) (s.xr c.val (bSrc2 w)))) ∧
    (∃ (c : Fin 32) (w : Word) (s : State), s.Fetches c.val w E.JMP) ∧
    (∃ (c : Fin 32) (w : Word) (s : State), s.Fetches c.val w E.CALL) ∧
    (∃ (c : Fin 32) (w : Word) (s : State), s.Fetches c.val w E.JMPR) ∧
    (∃ (c : Fin 32) (w : Word) (s : State), s.Fetches c.val w E.CALLR) :=
  ⟨
    ⟨_, .head _, 0, E.BREQ.pat, (((State.reset.put (F.CYC_CORE_STATE 0) 1).wrN (R.ACC_RATTR 0
    0) 0x802801FF).wrN R.PWR_ON 0xFFFFFF), fetches (by decide +kernel), by decide⟩,
    ⟨_, .tail _ (.head _), 0, E.BRNE.pat, (((State.reset.put (F.CYC_CORE_STATE 0) 1).wrN (R.ACC_RATTR 0
    0) 0x802801FF).wrN R.PWR_ON 0xFFFFFF), fetches (by decide +kernel), by decide⟩,
    ⟨0, E.JMP.pat, (((State.reset.put (F.CYC_CORE_STATE 0) 1).wrN (R.ACC_RATTR 0 0) 0x802801FF).wrN R.PWR_ON 0xFFFFFF),
    fetches (by decide +kernel)⟩,
    ⟨0, E.CALL.pat, (((State.reset.put (F.CYC_CORE_STATE 0) 1).wrN (R.ACC_RATTR 0 0) 0x802801FF).wrN R.PWR_ON 0xFFFFFF),
    fetches (by decide +kernel)⟩,
    ⟨0, E.JMPR.pat, (((State.reset.put (F.CYC_CORE_STATE 0) 1).wrN (R.ACC_RATTR 0 0) 0x802801FF).wrN R.PWR_ON 0xFFFFFF),
    fetches (by decide +kernel)⟩,
    ⟨0, E.CALLR.pat, (((State.reset.put (F.CYC_CORE_STATE 0) 1).wrN (R.ACC_RATTR 0 0) 0x802801FF).wrN R.PWR_ON 0xFFFFFF),
    fetches (by decide +kernel)⟩⟩

theorem test_wit_WindowInstructions :
    (∃ (c : Fin 32) (w : Word) (s : State), s.Fetches c.val w E.ENTER ∧ (s.core c.val).level = 0 ∧ (s.core c.val).cwp < 15 ∧
    (s.core c.val).res < 14) ∧
    (∃ (c : Fin 32) (w : Word) (s : State), s.Fetches c.val w E.ENTER ∧ (s.core c.val).level = 0 ∧ 14 ≤ (s.core c.val).res ∧
    s.StoresGood c.val) ∧
    (∃ (c : Fin 32) (w : Word) (s : State), s.Fetches c.val w E.LEAVE ∧ (s.core c.val).level = 0 ∧ 2 ≤ (s.core c.val).res) ∧
    (∃ (c : Fin 32) (w : Word) (s : State), s.Fetches c.val w E.RET ∧ (s.core c.val).level = 0 ∧ 2 ≤ (s.core c.val).res) ∧
    (∃ r, r ∈ [((.coreLeave : Fin 32 → Word → Instr), E.LEAVE), (.coreRet, E.RET)] ∧ ∃ (c : Fin 32) (w : Word) (s : State),
    s.Fetches c.val w r.2 ∧ (s.core c.val).level = 0 ∧ (s.core c.val).res = 1 ∧ 1 ≤ (s.core c.val).spilled ∧ s.StoresGood c.val) ∧
    (∃ r, r ∈ [((.coreLeave : Fin 32 → Word → Instr), E.LEAVE), (.coreRet, E.RET)] ∧ ∃ (c : Fin 32) (w : Word) (s : State),
    s.Fetches c.val w r.2 ∧ (s.core c.val).level = 0 ∧ (s.core c.val).res = 1 ∧ (s.core c.val).spilled = 0 ∧ s.StoresGood c.val) ∧
    (∃ r, r ∈ [((.coreEnter : Fin 32 → Word → Instr), E.ENTER), (.coreLeave, E.LEAVE), (.coreRet, E.RET)] ∧
    ∃ (c : Fin 32) (w : Word) (s : State), s.Fetches c.val w r.2 ∧ (s.core c.val).level ≠ 0) :=
  ⟨
    ⟨0, E.ENTER.pat, ((((State.reset.put (F.CYC_CORE_STATE 0) 1).wrN (R.ACC_RATTR 0
    0) 0x802801FF).wrN R.PWR_ON 0xFFFFFF).co 0 fun k => { k with level := 0 }), fetches (by decide +kernel), by decide,
    by decide, by decide⟩,
    ⟨0, E.ENTER.pat, (((((State.reset.put (F.CYC_CORE_STATE 0) 1).wrN (R.ACC_RATTR
    0 0) 0x802801FF).wrN R.PWR_ON 0xFFFFFF).co 0 fun k => { k with level := 0 }).co 0 fun k => { k with wstate := 0xE0 }),
    fetches (by decide +kernel), by decide, by decide, storesGood (by decide +kernel)⟩,
    ⟨0, E.LEAVE.pat, (((((State.reset.put (F.CYC_CORE_STATE 0) 1).wrN (R.ACC_RATTR
    0 0) 0x802801FF).wrN R.PWR_ON 0xFFFFFF).co 0 fun k => { k with level := 0 }).co 0 fun k => { k with wstate := 0x20 }),
    fetches (by decide +kernel), by decide, by decide⟩,
    ⟨0, E.RET.pat, (((((State.reset.put (F.CYC_CORE_STATE 0) 1).wrN (R.ACC_RATTR
    0 0) 0x802801FF).wrN R.PWR_ON 0xFFFFFF).co 0 fun k => { k with level := 0 }).co 0 fun k => { k with wstate := 0x20 }),
    fetches (by decide +kernel), by decide, by decide⟩,
    ⟨_, .head _, 0, E.LEAVE.pat, (((((State.reset.put (F.CYC_CORE_STATE 0) 1).wrN (R.ACC_RATTR
    0 0) 0x802801FF).wrN R.PWR_ON 0xFFFFFF).co 0 fun k => { k with level := 0 }).co 0 fun k => { k with wstate := 0x10010 }),
    fetches (by decide +kernel), by decide, by decide, by decide, storesGood (by decide +kernel)⟩,
    ⟨_, .head _, 0, E.LEAVE.pat, (((((State.reset.put (F.CYC_CORE_STATE 0) 1).wrN (R.ACC_RATTR
    0 0) 0x802801FF).wrN R.PWR_ON 0xFFFFFF).co 0 fun k => { k with level := 0 }).co 0 fun k => { k with wstate := 0x10 }),
    fetches (by decide +kernel), by decide, by decide, by decide, storesGood (by decide +kernel)⟩,
    ⟨_, .head _, 0, E.ENTER.pat, (((State.reset.put (F.CYC_CORE_STATE 0) 1).wrN (R.ACC_RATTR 0
    0) 0x802801FF).wrN R.PWR_ON 0xFFFFFF), fetches (by decide +kernel), by decide⟩⟩

theorem test_wit_Loads :
    (∃ r, r ∈ loadRows ∧ ∃ (c : Fin 32) (w : Word) (s : State) (a : Nat), s.Fetches c.val w r.2.1 ∧
    a = (s.xr c.val (fSrc1 w) + (w.extractLsb' 16 16).signExtend 64).toNat ∧ a % r.2.2.1 = 0 ∧
    s.denied? c.val (s.core c.val).level 0 a = none ∧ isMgmt a = false ∧ imageSram a = false ∧ s.hbmOff a = false ∧
    s.poisoned a r.2.2.1 = false) ∧
    (∃ r, r ∈ loadRows ∧ ∃ (c : Fin 32) (w : Word) (s : State) (a : Nat), s.Fetches c.val w r.2.1 ∧
    a = (s.xr c.val (fSrc1 w) + (w.extractLsb' 16 16).signExtend 64).toNat ∧ a % r.2.2.1 = 0 ∧
    s.denied? c.val (s.core c.val).level 0 a = none ∧ isMgmt a = false ∧ imageSram a = true ∧ s.poisoned a r.2.2.1 = false) ∧
    (∃ r, r ∈ loadRows ∧ ∃ (c : Fin 32) (w : Word) (s : State) (a : Nat), s.Fetches c.val w r.2.1 ∧
    a = (s.xr c.val (fSrc1 w) + (w.extractLsb' 16 16).signExtend 64).toNat ∧ a % r.2.2.1 = 0 ∧
    s.denied? c.val (s.core c.val).level 0 a = none ∧ isMgmt a = true ∧ loadAllowed (mgmtOff a) r.2.2.1 = true ∧
    s.mgmtOffline a = none ∧ (s.flush c.val).windowPoisoned (mgmtOff a) r.2.2.1 = false) ∧
    (∃ r, r ∈ loadRows ∧ ∃ (c : Fin 32) (w : Word) (s : State) (a : Nat), s.Fetches c.val w r.2.1 ∧
    a = (s.xr c.val (fSrc1 w) + (w.extractLsb' 16 16).signExtend 64).toNat ∧ a % r.2.2.1 ≠ 0 ∧ (s.core c.val).level = 0 ∧
    s.StoresGood c.val) ∧
    (∃ r, r ∈ loadRows ∧ ∃ (c : Fin 32) (w : Word) (s : State) (a m i : Nat), s.Fetches c.val w r.2.1 ∧
    a = (s.xr c.val (fSrc1 w) + (w.extractLsb' 16 16).signExtend 64).toNat ∧ a % r.2.2.1 = 0 ∧ (s.core c.val).level = 0 ∧
    s.denied? c.val 0 0 a = some (m, i) ∧ s.StoresGood c.val ∧ ((∀ p, (s.core c.val).cur = some p → p < 256))) ∧
    (∃ r, r ∈ loadRows ∧ ∃ (c : Fin 32) (w : Word) (s : State) (a : Nat), s.Fetches c.val w r.2.1 ∧
    a = (s.xr c.val (fSrc1 w) + (w.extractLsb' 16 16).signExtend 64).toNat ∧ a % r.2.2.1 = 0 ∧ (s.core c.val).level = 0 ∧
    s.denied? c.val 0 0 a = none ∧ isMgmt a = false ∧ s.hbmOff a = false ∧ s.poisoned a r.2.2.1 = true ∧ s.StoresGood c.val) ∧
    (∃ (c : Fin 32) (w : Word) (s : State) (a : Nat), s.Fetches c.val w E.LDPC ∧
    a = (((s.core c.val).pc &&& ~~~(7 : DWord)) + 8 * (w.extractLsb' 11 21).signExtend 64).toNat ∧
    s.denied? c.val (s.core c.val).level 0 a = none ∧ isMgmt a = false ∧ imageSram a = false ∧ s.hbmOff a = false ∧
    s.poisoned a 8 = false) ∧
    (∃ r, r ∈ loadRows ∧ ∃ (c : Fin 32) (w : Word) (s : State) (a : Nat), s.Fetches c.val w r.2.1 ∧
    a = (s.xr c.val (fSrc1 w) + (w.extractLsb' 16 16).signExtend 64).toNat ∧ a % r.2.2.1 = 0 ∧ (s.core c.val).level = 0 ∧
    s.denied? c.val 0 0 a = none ∧ isMgmt a = false ∧ s.hbmOff a = true ∧ s.StoresGood c.val) :=
  ⟨
    ⟨_, .head _, 0, E.LD8S.pat, (((State.reset.put (F.CYC_CORE_STATE 0) 1).wrN (R.ACC_RATTR 0
    0) 0x802801FF).wrN R.PWR_ON 0xFFFFFF), 0, fetches (by decide +kernel), by decide, by decide, by decide +kernel, by decide,
    by decide +kernel, by decide +kernel, by decide +kernel⟩,
    ⟨_, .head _, 0, (E.LD8S.pat ||| 0x800), ((((State.reset.put (F.CYC_CORE_STATE 0) 1).wrN (R.ACC_RATTR 0
    0) 0x802801FF).wrN R.PWR_ON 0xFFFFFF).co 0 fun k => { k with trap := [(1, 0x8000000000)] }), 0x8000000000,
    fetches (by decide +kernel), by decide, by decide, by decide +kernel, by decide, by decide +kernel, by decide +kernel⟩,
    ⟨_, .tail _ (.tail _ (.tail _ (.tail _ (.head _)))), 0, (E.LD32S.pat ||| 0x800),
    (((((State.reset.put (F.CYC_CORE_STATE 0) 1).wrN (R.ACC_RATTR
    0 0) 0x802801FF).wrN R.PWR_ON 0xFFFFFF).co 0 fun k => { k with trap := [(1, 0xFF00000000)] }).wrN (R.ACC_SLOT 0 0) 0x1FF),
    0xFF00000000, fetches (by decide +kernel), by decide, by decide, by decide +kernel, by decide, by decide +kernel,
    by decide +kernel, by decide +kernel⟩,
    ⟨_, .tail _ (.tail _ (.head _)), 0, (E.LD16S.pat ||| 0x10000),
    ((((State.reset.put (F.CYC_CORE_STATE 0) 1).wrN (R.ACC_RATTR 0
    0) 0x802801FF).wrN R.PWR_ON 0xFFFFFF).co 0 fun k => { k with level := 0 }), 1, fetches (by decide +kernel), by decide,
    by decide, by decide, storesGood (by decide +kernel)⟩,
    ⟨_, .head _, 0, (E.LD8S.pat ||| 0x800), (((((State.reset.put (F.CYC_CORE_STATE 0) 1).wrN (R.ACC_RATTR
    0 0) 0x802801FF).wrN R.PWR_ON 0xFFFFFF).co 0 fun k => { k with level := 0 }).co
    0 fun k => { k with g := [(1, 0x9000000000)] }), 0x9000000000, 3, 0, fetches (by decide +kernel), by decide, by decide,
    by decide, by decide +kernel, storesGood (by decide +kernel), fun p h => nomatch (show (none : Option Nat) = some p from h)⟩,
    ⟨_, .head _, 0, (E.LD8S.pat ||| 0x01000000), (((((State.reset.put (F.CYC_CORE_STATE 0) 1).wrN (R.ACC_RATTR
    0 0) 0x802801FF).wrN R.PWR_ON 0xFFFFFF).co 0 fun k => { k with level := 0 }).fb fun q => { q with poison := [0x100] }),
    0x100, fetches (by decide +kernel), by decide, by decide, by decide, by decide +kernel, by decide, by decide +kernel,
    by decide +kernel, storesGood (by decide +kernel)⟩,
    ⟨0, E.LDPC.pat, (((State.reset.put (F.CYC_CORE_STATE 0) 1).wrN (R.ACC_RATTR 0 0) 0x802801FF).wrN R.PWR_ON 0xFFFFFF), 0,
    fetches (by decide +kernel), by decide, by decide +kernel, by decide, by decide +kernel, by decide +kernel,
    by decide +kernel⟩,
    ⟨_, .head _, 0, (E.LD8S.pat ||| 0x10000000), (((((State.reset.put (F.CYC_CORE_STATE 0) 1).wrN (R.ACC_RATTR
    0 0) 0x802801FF).wrN R.PWR_ON 0xFFFFFF).co 0 fun k => { k with level := 0 }).wrN R.PWR_ON 0xDFFFFF), 0x1000,
    fetches (by decide +kernel), by decide, by decide, by decide, by decide +kernel, by decide, by decide +kernel,
    storesGood (by decide +kernel)⟩⟩

theorem test_wit_Stores :
    (∃ r, r ∈ storeRows ∧ ∃ (c : Fin 32) (w : Word) (s : State) (a : Nat), s.Fetches c.val w r.2.1 ∧
    a = (s.xr c.val (fSrc1 w) + (w.extractLsb' 16 16).signExtend 64).toNat ∧ a % r.2.2.1 = 0 ∧
    s.denied? c.val (s.core c.val).level 1 a = none ∧ isMgmt a = false ∧ s.bufFull c.val a = false) ∧
    (∃ r, r ∈ storeRows ∧ ∃ (c : Fin 32) (w : Word) (s : State) (a : Nat), s.Fetches c.val w r.2.1 ∧
    a = (s.xr c.val (fSrc1 w) + (w.extractLsb' 16 16).signExtend 64).toNat ∧ a % r.2.2.1 = 0 ∧
    s.denied? c.val (s.core c.val).level 1 a = none ∧ isMgmt a = true ∧ storeRefused (mgmtOff a) r.2.2.1 = false ∧
    ((mgmtOff a < 0x10000000 → r.2.2.1 = 4)) ∧ s.mgmtOffline a = none) ∧
    (∃ r, r ∈ storeRows ∧ ∃ (c : Fin 32) (w : Word) (s : State) (a : Nat), s.Fetches c.val w r.2.1 ∧
    a = (s.xr c.val (fSrc1 w) + (w.extractLsb' 16 16).signExtend 64).toNat ∧ a % r.2.2.1 ≠ 0 ∧ s.bufFull c.val a = false ∧
    (s.core c.val).level = 0 ∧ s.StoresGood c.val) ∧
    (∃ r, r ∈ storeRows ∧ ∃ (c : Fin 32) (w : Word) (s : State) (a m i : Nat), s.Fetches c.val w r.2.1 ∧
    a = (s.xr c.val (fSrc1 w) + (w.extractLsb' 16 16).signExtend 64).toNat ∧ a % r.2.2.1 = 0 ∧ (s.core c.val).level = 0 ∧
    s.denied? c.val 0 1 a = some (m, i) ∧ s.bufFull c.val a = false ∧ s.StoresGood c.val ∧ ((∀ p, (s.core c.val).cur = some p →
    p < 256))) ∧
    (∃ r, r ∈ storeRows ∧ ∃ (c : Fin 32) (w : Word) (s : State) (a : Nat), s.Fetches c.val w r.2.1 ∧
    a = (s.xr c.val (fSrc1 w) + (w.extractLsb' 16 16).signExtend 64).toNat ∧ s.bufFull c.val a = true) :=
  ⟨
    ⟨_, .head _, 0, E.ST8.pat, (((State.reset.put (F.CYC_CORE_STATE 0) 1).wrN (R.ACC_RATTR 0
    0) 0x802801FF).wrN R.PWR_ON 0xFFFFFF), 0, fetches (by decide +kernel), by decide, by decide, by decide +kernel, by decide,
    by decide⟩,
    ⟨_, .tail _ (.tail _ (.head _)), 0, (E.ST32.pat ||| 0x800), (((((State.reset.put (F.CYC_CORE_STATE 0) 1).wrN (R.ACC_RATTR
    0 0) 0x802801FF).wrN R.PWR_ON 0xFFFFFF).co 0 fun k => { k with trap := [(1, 0xFF00000000)] }).wrN (R.ACC_SLOT 0 0) 0x1FF),
    0xFF00000000, fetches (by decide +kernel), by decide, by decide, by decide +kernel, by decide, by decide, by decide,
    by decide +kernel⟩,
    ⟨_, .tail _ (.head _), 0, (E.ST16.pat ||| 0x10000), ((((State.reset.put (F.CYC_CORE_STATE 0) 1).wrN (R.ACC_RATTR 0
    0) 0x802801FF).wrN R.PWR_ON 0xFFFFFF).co 0 fun k => { k with level := 0 }), 1, fetches (by decide +kernel), by decide,
    by decide, by decide, by decide, storesGood (by decide +kernel)⟩,
    ⟨_, .head _, 0, (E.ST8.pat ||| 0x800), (((((State.reset.put (F.CYC_CORE_STATE 0) 1).wrN (R.ACC_RATTR
    0 0) 0x802801FF).wrN R.PWR_ON 0xFFFFFF).co 0 fun k => { k with level := 0 }).co
    0 fun k => { k with g := [(1, 0x9000000000)] }), 0x9000000000, 3, 0, fetches (by decide +kernel), by decide, by decide,
    by decide, by decide +kernel, by decide, storesGood (by decide +kernel),
    fun p h => nomatch (show (none : Option Nat) = some p from h)⟩,
    ⟨_, .head _, 0, E.ST8.pat, ((((State.reset.put (F.CYC_CORE_STATE 0) 1).wrN (R.ACC_RATTR 0
    0) 0x802801FF).wrN R.PWR_ON 0xFFFFFF).co 0 fun k => { k with buf := (List.range 128).map fun i => { addr := 64 * (i + 1), size := 1, val := 0 } }),
    0, fetches (by decide +kernel), by decide, by decide +kernel⟩⟩

theorem test_wit_StoresLeave :
    (∃ (c : Fin 32) (w : Word) (s : State), s.Fetches c.val w E.FENCE ∧ s.PlainStores c.val) ∧
    (∃ (c : Fin 32) (dup : Bool) (s : State), s.coreRuns c.val = true ∧ (((s.core c.val).dupOn = true → dup = true)) ∧
    s.PlainStores c.val) ∧
    (∃ (c : Fin 32) (dup : Bool) (t : Nat) (s : State), s.coreRuns c.val = true ∧ (((s.core c.val).dupOn = true →
    dup = false)) ∧ ((∀ r ∈ (s.core c.val).resets, r + 1000000000 ≤ max s.now t)) ∧ s.Room c.val) ∧
    (∃ (c : Fin 32) (s : State), s.coreRuns c.val = true ∧ (s.core c.val).dupOn = true ∧ s.isActive = true ∧
    s.twin.switch = none ∧ s.canSwitch = false ∧ s.Room c.val ∧ ((∀ r ∈ s.image.parts, r.core = c.val → s.pst r.part = 1))) ∧
    (∃ (c : Fin 32) (s : State), s.coreRuns c.val = false) :=
  ⟨
    ⟨0, E.FENCE.pat, (((State.reset.put (F.CYC_CORE_STATE 0) 1).wrN (R.ACC_RATTR 0 0) 0x802801FF).wrN R.PWR_ON 0xFFFFFF),
    fetches (by decide +kernel), plainStores (by decide +kernel)⟩,
    ⟨0, false, (State.reset.put (F.CYC_CORE_STATE 0) 1), by decide, by decide, plainStores (by decide +kernel)⟩,
    ⟨0, false, 1000000000000000, (State.reset.put (F.CYC_CORE_STATE 0) 1), by decide, by decide, by decide, by decide⟩,
    ⟨0, (((State.reset.put F.TWN_STATUS_ROLE 1).put (F.CYC_CORE_STATE 0) 1).co 0 fun k => { k with dupOn := true }), by decide,
    by decide, by decide, by decide, by decide, by decide, by decide⟩,
    ⟨0, State.reset, by decide⟩⟩

theorem test_wit_FloatingGroup :
    (∃ r, r ∈ fpPlain ∧ ∃ (c : Fin 32) (w : Word) (s : State), s.Fetches c.val w r.2.1) ∧
    (∃ r, r ∈ fpRound ∧ ∃ (c : Fin 32) (w : Word) (m : RMode) (s : State), s.Fetches c.val w r.2.1 ∧
    rmOf (s.core c.val).fcsr = some m) ∧
    (∃ r, r ∈ fpFused ∧ ∃ (c : Fin 32) (w : Word) (m : RMode) (s : State) (x y z : FVal), s.Fetches c.val w r.2.1 ∧
    rmOf (s.core c.val).fcsr = some m ∧ x = (fmtOf (fWide6 w)).unpack (fpIn (s.core c.val) (fWide6 w) (fSrc1 w)) ∧
    y = (fmtOf (fWide6 w)).unpack (fpIn (s.core c.val) (fWide6 w) (fSrc2 w)) ∧
    z = (fmtOf (fWide6 w)).unpack (fpIn (s.core c.val) (fWide6 w) (fSrc3 w))) ∧
    (∃ (c : Fin 32) (w : Word) (s : State), s.Fetches c.val w E.I32TOF ∧ fWide w = true) ∧
    (∃ (c : Fin 32) (w : Word) (s : State), s.Fetches c.val w E.U32TOF ∧ fWide w = true) ∧
    (∃ (c : Fin 32) (w : Word) (m : RMode) (s : State), s.Fetches c.val w E.I32TOF ∧ fWide w = false ∧
    rmOf (s.core c.val).fcsr = some m) ∧
    (∃ (c : Fin 32) (w : Word) (m : RMode) (s : State), s.Fetches c.val w E.U32TOF ∧ fWide w = false ∧
    rmOf (s.core c.val).fcsr = some m) ∧
    (∃ (c : Fin 32) (w : Word) (s : State), s.Fetches c.val w E.FWIDTH ∧ fWide w = false) ∧
    (∃ (c : Fin 32) (w : Word) (m : RMode) (s : State), s.Fetches c.val w E.FWIDTH ∧ fWide w = true ∧
    rmOf (s.core c.val).fcsr = some m) ∧
    (∃ (c : Fin 32) (w : Word) (s : State), s.Fetches c.val w E.BITSTOF) ∧
    (∃ r, r ∈ fpRound ∧ ∃ (c : Fin 32) (w : Word) (s : State), s.Fetches c.val w r.2.1 ∧ rmOf (s.core c.val).fcsr = none ∧
    (s.core c.val).level = 0 ∧ s.StoresGood c.val) ∧
    (∃ r, r ∈ fpFused ∧ ∃ (c : Fin 32) (w : Word) (s : State), s.Fetches c.val w r.2.1 ∧ rmOf (s.core c.val).fcsr = none ∧
    (s.core c.val).level = 0 ∧ s.StoresGood c.val) :=
  ⟨
    ⟨_, .head _, 0, E.FMIN.pat, (((State.reset.put (F.CYC_CORE_STATE 0) 1).wrN (R.ACC_RATTR 0
    0) 0x802801FF).wrN R.PWR_ON 0xFFFFFF), fetches (by decide +kernel)⟩,
    ⟨_, .head _, 0, E.FADD.pat, .rne, (((State.reset.put (F.CYC_CORE_STATE 0) 1).wrN (R.ACC_RATTR 0
    0) 0x802801FF).wrN R.PWR_ON 0xFFFFFF), fetches (by decide +kernel), by decide⟩,
    ⟨_, .head _, 0, E.FMAC.pat, .rne, (((State.reset.put (F.CYC_CORE_STATE 0) 1).wrN (R.ACC_RATTR 0
    0) 0x802801FF).wrN R.PWR_ON 0xFFFFFF), .zero false, .zero false, .zero false, fetches (by decide +kernel), by decide,
    by decide, by decide, by decide⟩,
    ⟨0, wWide E.I32TOF, (((State.reset.put (F.CYC_CORE_STATE 0) 1).wrN (R.ACC_RATTR 0 0) 0x802801FF).wrN R.PWR_ON 0xFFFFFF),
    fetches (by decide +kernel), by decide⟩,
    ⟨0, wWide E.U32TOF, (((State.reset.put (F.CYC_CORE_STATE 0) 1).wrN (R.ACC_RATTR 0 0) 0x802801FF).wrN R.PWR_ON 0xFFFFFF),
    fetches (by decide +kernel), by decide⟩,
    ⟨0, E.I32TOF.pat, .rne, (((State.reset.put (F.CYC_CORE_STATE 0) 1).wrN (R.ACC_RATTR 0 0) 0x802801FF).wrN R.PWR_ON 0xFFFFFF),
    fetches (by decide +kernel), by decide, by decide⟩,
    ⟨0, E.U32TOF.pat, .rne, (((State.reset.put (F.CYC_CORE_STATE 0) 1).wrN (R.ACC_RATTR 0 0) 0x802801FF).wrN R.PWR_ON 0xFFFFFF),
    fetches (by decide +kernel), by decide, by decide⟩,
    ⟨0, E.FWIDTH.pat, (((State.reset.put (F.CYC_CORE_STATE 0) 1).wrN (R.ACC_RATTR 0 0) 0x802801FF).wrN R.PWR_ON 0xFFFFFF),
    fetches (by decide +kernel), by decide⟩,
    ⟨0, wWide E.FWIDTH, .rne, (((State.reset.put (F.CYC_CORE_STATE 0) 1).wrN (R.ACC_RATTR 0
    0) 0x802801FF).wrN R.PWR_ON 0xFFFFFF), fetches (by decide +kernel), by decide, by decide⟩,
    ⟨0, E.BITSTOF.pat, (((State.reset.put (F.CYC_CORE_STATE 0) 1).wrN (R.ACC_RATTR 0 0) 0x802801FF).wrN R.PWR_ON 0xFFFFFF),
    fetches (by decide +kernel)⟩,
    ⟨_, .head _, 0, E.FADD.pat, (((((State.reset.put (F.CYC_CORE_STATE 0) 1).wrN (R.ACC_RATTR
    0 0) 0x802801FF).wrN R.PWR_ON 0xFFFFFF).co 0 fun k => { k with level := 0 }).co 0 fun k => { k with fcsr := 0x700 }),
    fetches (by decide +kernel), by decide, by decide, storesGood (by decide +kernel)⟩,
    ⟨_, .head _, 0, E.FMAC.pat, (((((State.reset.put (F.CYC_CORE_STATE 0) 1).wrN (R.ACC_RATTR
    0 0) 0x802801FF).wrN R.PWR_ON 0xFFFFFF).co 0 fun k => { k with level := 0 }).co 0 fun k => { k with fcsr := 0x700 }),
    fetches (by decide +kernel), by decide, by decide, storesGood (by decide +kernel)⟩⟩

theorem test_wit_CanonicalNaN :
    (∃ (x y : FVal), (x.isNan = true ∨ y.isNan = true)) ∧
    (∃ (x y z : FVal), (x.isNan = true ∨ y.isNan = true ∨ z.isNan = true)) ∧
    (∃ x : FVal, x.isNan = true) ∧
    (∃ (b : Bool) (x y : Nat), ((fmtOf b).unpack x).isNan = true ∧ ((fmtOf b).unpack y).isNan = true) ∧
    (∃ (b : Bool) (x y : Nat), ((fmtOf b).unpack x).isNan = true ∧ ((fmtOf b).unpack y).isNan = false) ∧
    (∃ (b : Bool) (x y : Nat), (((fmtOf b).unpack x).isNan = true ∨ ((fmtOf b).unpack y).isNan = true)) ∧
    (∃ (b : Bool) (x : Nat), ((fmtOf b).unpack x).isNan = true) ∧
    (∃ (b : Bool) (lo hi : Int) (x : Nat), lo ≤ 0 ∧ 0 ≤ hi ∧ ((fmtOf b).unpack x).isNan = false) :=
  ⟨
    ⟨(.nan false), .zero false, by decide⟩,
    ⟨(.nan false), .zero false, .zero false, by decide⟩,
    ⟨(.nan false), by decide⟩,
    ⟨false, 0x7FC00000, 0x7FC00000, by decide, by decide⟩,
    ⟨false, 0x7FC00000, 0, by decide, by decide⟩,
    ⟨false, 0x7FC00000, 0, by decide⟩,
    ⟨false, 0x7FC00000, by decide⟩,
    ⟨false, 0, 0, 0, by decide, by decide, by decide⟩⟩

theorem test_wit_SystemRegisters :
    (∃ (c : Fin 32) (w : Word) (s : State), s.Fetches c.val w E.SYSRD ∧
    sysAllowed (fSysreg w) (s.core c.val).level false = true ∧ fSysreg w ≠ 0x402 ∧ fSysreg w ≠ 0x404) ∧
    (∃ (c : Fin 32) (w : Word) (s : State), s.Fetches c.val w E.SYSRD ∧
    sysAllowed (fSysreg w) (s.core c.val).level false = true ∧ (fSysreg w = 0x402 ∨ fSysreg w = 0x404)) ∧
    (∃ r, r ∈ sysWriteRows ∧ ∃ q, q ∈ sysRows ∧ ∃ (c : Fin 32) (w : Word) (s : State) (v : DWord), s.Fetches c.val w r.2.1 ∧
    fSysreg w = q.1 ∧ sysAllowed q.1 (s.core c.val).level true = true ∧
    v = r.2.2.1 (s.sysVal c.val q.1) (s.xr c.val (fSrc1 w)) ∧ ((q.1 = 0x300 ∨ q.1 = 0x308 → v.toNat % 16 ≠ 15))) ∧
    (∃ r, r ∈ sysWriteRows ∧ ∃ (c : Fin 32) (w : Word) (s : State), s.Fetches c.val w r.2.1 ∧ fSysreg w = 0x30D ∧
    (s.core c.val).level ≠ 0) ∧
    (∃ (c : Fin 32) (w : Word) (s : State), s.Fetches c.val w E.SYSWR ∧ fSysreg w = 0x801 ∧ (s.core c.val).level = 3 ∧
    (s.xr c.val (fSrc1 w)).getLsbD 0 = true) ∧
    (∃ r, r ∈ sysWriteRows ∧ ∃ (c : Fin 32) (w : Word) (s : State), s.Fetches c.val w r.2.1 ∧
    sysAllowed (fSysreg w) 0 true = false ∧ (s.core c.val).level = 0 ∧ s.StoresGood c.val) ∧
    (∃ (c : Fin 32) (w : Word) (s : State), s.Fetches c.val w E.SYSRD ∧ sysAllowed (fSysreg w) 0 false = false ∧
    (s.core c.val).level = 0 ∧ s.StoresGood c.val) ∧
    (∃ (c : Fin 32) (w : Word) (s : State), s.Fetches c.val w E.SYSWR ∧ (fSysreg w = 0x300 ∨ fSysreg w = 0x308) ∧
    (s.core c.val).level ≠ 0 ∧ (s.xr c.val (fSrc1 w)).toNat % 16 = 15) :=
  ⟨
    ⟨0, wSys E.SYSRD 1, (((State.reset.put (F.CYC_CORE_STATE 0) 1).wrN (R.ACC_RATTR 0 0) 0x802801FF).wrN R.PWR_ON 0xFFFFFF),
    fetches (by decide +kernel), by decide, by decide, by decide⟩,
    ⟨0, wSys E.SYSRD 0x402, (((State.reset.put (F.CYC_CORE_STATE 0) 1).wrN (R.ACC_RATTR 0 0) 0x802801FF).wrN R.PWR_ON 0xFFFFFF),
    fetches (by decide +kernel), by decide, by decide⟩,
    ⟨_, .head _, _, .head _, 0, wSys E.SYSWR 1, (((State.reset.put (F.CYC_CORE_STATE 0) 1).wrN (R.ACC_RATTR 0
    0) 0x802801FF).wrN R.PWR_ON 0xFFFFFF), 0, fetches (by decide +kernel), by decide, by decide, by decide, by decide⟩,
    ⟨_, .head _, 0, wSys E.SYSWR 0x30D, (((State.reset.put (F.CYC_CORE_STATE 0) 1).wrN (R.ACC_RATTR 0
    0) 0x802801FF).wrN R.PWR_ON 0xFFFFFF), fetches (by decide +kernel), by decide, by decide⟩,
    ⟨0, (wSys E.SYSWR 0x801 ||| 0x800), (((((State.reset.put (F.CYC_CORE_STATE 0) 1).wrN (R.ACC_RATTR
    0 0) 0x802801FF).wrN R.PWR_ON 0xFFFFFF).co 0 fun k => { k with level := 3 }).co 0 fun k => { k with trap := [(1, 1)] }),
    fetches (by decide +kernel), by decide, by decide, by decide⟩,
    ⟨_, .head _, 0, E.SYSWR.pat, ((((State.reset.put (F.CYC_CORE_STATE 0) 1).wrN (R.ACC_RATTR 0
    0) 0x802801FF).wrN R.PWR_ON 0xFFFFFF).co 0 fun k => { k with level := 0 }), fetches (by decide +kernel), by decide,
    by decide, storesGood (by decide +kernel)⟩,
    ⟨0, E.SYSRD.pat, ((((State.reset.put (F.CYC_CORE_STATE 0) 1).wrN (R.ACC_RATTR 0
    0) 0x802801FF).wrN R.PWR_ON 0xFFFFFF).co 0 fun k => { k with level := 0 }), fetches (by decide +kernel), by decide,
    by decide, storesGood (by decide +kernel)⟩,
    ⟨0, (wSys E.SYSWR 0x300 ||| 0x800), ((((State.reset.put (F.CYC_CORE_STATE 0) 1).wrN (R.ACC_RATTR 0
    0) 0x802801FF).wrN R.PWR_ON 0xFFFFFF).co 0 fun k => { k with trap := [(1, 15)] }), fetches (by decide +kernel), by decide,
    by decide, by decide⟩⟩

theorem test_wit_TrapsByInstruction :
    (∃ r, r ∈ [((fun c w => .coreBreak c w : Fin 32 → Word → Instr), E.BREAK, 10, false), (fun c w => .coreTrap c w, E.TRAP, 11,
    true)] ∧ ∃ (c : Fin 32) (w : Word) (s : State), s.Fetches c.val w r.2.1 ∧ (s.core c.val).level = 0 ∧ s.StoresGood c.val) ∧
    (∃ (c : Fin 32) (w : Word) (s : State), s.Fetches c.val w E.SYSCALL ∧ (s.core c.val).level = 0 ∧ s.StoresGood c.val ∧
    fSysreg w ≠ 0) ∧
    (∃ (c : Fin 32) (w : Word) (p : Fin 256) (s : State), s.Fetches c.val w E.SYSCALL ∧ fSysreg w = 0 ∧
    (s.core c.val).level = 0 ∧ s.StoresGood c.val ∧ (s.core c.val).cur = some p.val ∧ (s.pst p.val = 2 ∨ s.pst p.val = 4) ∧
    (s.prec p.val).core = c.val) ∧
    (∃ r, r ∈ [((fun c w => .coreBreak c w : Fin 32 → Word → Instr), E.BREAK), (fun c w => .coreTrap c w, E.TRAP),
    (fun c w => .coreSyscall c w 0 0, E.SYSCALL)] ∧ ∃ (c : Fin 32) (w : Word) (a : Nat) (s : State), s.Fetches c.val w r.2 ∧
    (s.core c.val).level = 0 ∧ ((s.flush c.val).core c.val).storeErr = some a) :=
  ⟨
    ⟨_, .head _, 0, E.BREAK.pat, ((((State.reset.put (F.CYC_CORE_STATE 0) 1).wrN (R.ACC_RATTR 0
    0) 0x802801FF).wrN R.PWR_ON 0xFFFFFF).co 0 fun k => { k with level := 0 }), fetches (by decide +kernel), by decide,
    storesGood (by decide +kernel)⟩,
    ⟨0, wSys E.SYSCALL 1, ((((State.reset.put (F.CYC_CORE_STATE 0) 1).wrN (R.ACC_RATTR 0
    0) 0x802801FF).wrN R.PWR_ON 0xFFFFFF).co 0 fun k => { k with level := 0 }), fetches (by decide +kernel), by decide,
    storesGood (by decide +kernel), by decide⟩,
    ⟨0, E.SYSCALL.pat, 0, ((((((State.reset.put (F.CYC_CORE_STATE 0) 1).wrN (R.ACC_RATTR
    0 0) 0x802801FF).wrN R.PWR_ON 0xFFFFFF).co 0 fun k => { k with level := 0 }).put
    (F.CYC_PSTATE_STATE 0) 2).co 0 fun k => { k with cur := some 0 }), fetches (by decide +kernel), by decide, by decide,
    storesGood (by decide +kernel), by decide, by decide, by decide⟩,
    ⟨_, .head _, 0, E.BREAK.pat, 0x1000, ((((((State.reset.put (F.CYC_CORE_STATE 0) 1).wrN (R.ACC_RATTR
    0 0) 0x802801FF).wrN R.PWR_ON 0xFFFFFF).co 0 fun k => { k with level := 0 }).wrN
    R.PWR_ON 0xDFFFFF).co 0 fun k => { k with buf := [{ addr := 0x1000, size := 1, val := 0 }] }), fetches (by decide +kernel),
    by decide, by decide +kernel⟩⟩

theorem test_wit_DoubleFaults :
    (∃ (c : Fin 32) (w : Word) (s : State), s.Fetches c.val w E.BREAK ∧ (s.core c.val).level ≠ 0 ∧
    (s.core c.val).inDouble = false ∧ (s.core c.val).tstatus.getLsbD 2 = true) ∧
    (∃ (c : Fin 32) (w : Word) (s : State), s.Fetches c.val w E.TRAP ∧ (s.core c.val).level = 1 ∧
    (s.core c.val).tstatus.getLsbD 2 = false ∧ ((∀ r ∈ (s.core c.val).resets, r + 1000000000 ≤ s.now)) ∧
    s.recd.waiting c.val < 15) ∧
    (∃ (c : Fin 32) (w : Word) (s : State), s.Fetches c.val w E.TRAP ∧ (s.core c.val).level = 3 ∧
    (s.core c.val).inDouble = true ∧ ((∀ r ∈ (s.core c.val).resets, r + 1000000000 ≤ s.now)) ∧ s.recd.waiting c.val < 15) :=
  ⟨
    ⟨0, E.BREAK.pat, (((((State.reset.put (F.CYC_CORE_STATE 0) 1).wrN (R.ACC_RATTR
    0 0) 0x802801FF).wrN R.PWR_ON 0xFFFFFF).co 0 fun k => { k with inDouble := false }).co 0 fun k => { k with tstatus := 4 }),
    fetches (by decide +kernel), by decide, by decide, by decide⟩,
    ⟨0, E.TRAP.pat, ((((State.reset.put (F.CYC_CORE_STATE 0) 1).wrN (R.ACC_RATTR 0
    0) 0x802801FF).wrN R.PWR_ON 0xFFFFFF).co 0 fun k => { k with level := 1 }), fetches (by decide +kernel), by decide,
    by decide, by decide, by decide⟩,
    ⟨0, E.TRAP.pat, (((((State.reset.put (F.CYC_CORE_STATE 0) 1).wrN (R.ACC_RATTR
    0 0) 0x802801FF).wrN R.PWR_ON 0xFFFFFF).co 0 fun k => { k with level := 3 }).co 0 fun k => { k with inDouble := true }),
    fetches (by decide +kernel), by decide, by decide, by decide, by decide⟩⟩

theorem test_wit_ReturnsAndSwitches :
    (∃ (c : Fin 32) (w : Word) (s : State), s.Fetches c.val w E.TRET ∧ (s.core c.val).level ≠ 0 ∧ s.StoresGood c.val ∧
    (s.core c.val).tstatus = 4 ∧ (s.core c.val).res ≠ 0 ∧ s.PlainStores c.val ∧ (s.core c.val).cur ≠ none) ∧
    (∃ (c : Fin 32) (w : Word) (p : Nat) (s : State), s.Fetches c.val w E.TRET ∧ (s.core c.val).level = 1 ∧ s.StoresGood c.val ∧
    (s.core c.val).tstatus = 0 ∧ s.firstOf (s.core c.val).ready = some p) ∧
    (∃ (c : Fin 32) (w : Word) (s : State), s.Fetches c.val w E.TRET ∧ (s.core c.val).level ≠ 0 ∧ s.StoresGood c.val ∧
    (s.core c.val).tstatus = 4 ∧ (s.core c.val).res = 0 ∧ (s.core c.val).inDouble = false) ∧
    (∃ (c : Fin 32) (w : Word) (a : Nat) (s : State), s.Fetches c.val w E.TRET ∧ (s.core c.val).level ≠ 0 ∧
    ((s.flush c.val).core c.val).storeErr = some a) ∧
    (∃ (c : Fin 32) (w : Word) (s : State), s.Fetches c.val w E.SWCTX ∧ (s.core c.val).level ≠ 0 ∧ s.StoresGood c.val ∧
    s.on (F.ACC_CTL_BUSY c.val) = false ∧ s.PlainStores c.val) ∧
    (∃ (c : Fin 32) (w : Word) (s : State), s.Fetches c.val w E.SWCTX ∧ (s.core c.val).level ≠ 0 ∧ s.StoresGood c.val ∧
    s.on (F.ACC_CTL_BUSY c.val) = true) :=
  ⟨
    ⟨0, E.TRET.pat, ((((((State.reset.put (F.CYC_CORE_STATE 0) 1).wrN (R.ACC_RATTR
    0 0) 0x802801FF).wrN R.PWR_ON 0xFFFFFF).co 0 fun k => { k with tstatus := 4 }).co
    0 fun k => { k with wstate := 16 }).co 0 fun k => { k with cur := some 0 }), fetches (by decide +kernel), by decide,
    storesGood (by decide +kernel), by decide, by decide, plainStores (by decide +kernel), by decide⟩,
    ⟨0, E.TRET.pat, 0, ((((((State.reset.put (F.CYC_CORE_STATE 0) 1).wrN (R.ACC_RATTR
    0 0) 0x802801FF).wrN R.PWR_ON 0xFFFFFF).co 0 fun k => { k with level := 1 }).co
    0 fun k => { k with tstatus := 0 }).co 0 fun k => { k with ready := [0] }), fetches (by decide +kernel), by decide,
    storesGood (by decide +kernel), by decide, by decide⟩,
    ⟨0, E.TRET.pat, ((((((State.reset.put (F.CYC_CORE_STATE 0) 1).wrN (R.ACC_RATTR
    0 0) 0x802801FF).wrN R.PWR_ON 0xFFFFFF).co 0 fun k => { k with tstatus := 4 }).co
    0 fun k => { k with inDouble := false }).co 0 fun k => { k with wstate := 0, tstatus := 4 }), fetches (by decide +kernel),
    by decide, storesGood (by decide +kernel), by decide, by decide, by decide⟩,
    ⟨0, E.TRET.pat, 0x1000, (((((State.reset.put (F.CYC_CORE_STATE 0) 1).wrN (R.ACC_RATTR
    0 0) 0x802801FF).wrN R.PWR_ON 0xFFFFFF).wrN R.PWR_ON 0xDFFFFF).co
    0 fun k => { k with buf := [{ addr := 0x1000, size := 1, val := 0 }] }), fetches (by decide +kernel), by decide,
    by decide +kernel⟩,
    ⟨0, E.SWCTX.pat, (((State.reset.put (F.CYC_CORE_STATE 0) 1).wrN (R.ACC_RATTR 0 0) 0x802801FF).wrN R.PWR_ON 0xFFFFFF),
    fetches (by decide +kernel), by decide, storesGood (by decide +kernel), by decide, plainStores (by decide +kernel)⟩,
    ⟨0, E.SWCTX.pat, ((((State.reset.put (F.CYC_CORE_STATE 0) 1).wrN (R.ACC_RATTR 0
    0) 0x802801FF).wrN R.PWR_ON 0xFFFFFF).put (F.ACC_CTL_BUSY 0) 1), fetches (by decide +kernel), by decide,
    storesGood (by decide +kernel), by decide⟩⟩

theorem test_wit_SpillsAndFills :
    (∃ (c : Fin 32) (w : Word) (s : State) (n b a : Nat), s.Fetches c.val w E.WSPILL ∧ (s.core c.val).level ≠ 0 ∧
    (s.core c.val).cwp < 15 ∧ 1 ≤ (s.core c.val).res ∧ (s.core c.val).res < 15 ∧ (s.core c.val).spilled < 65535 ∧
    n = (if (s.core c.val).res = 1 then 24 else 16) ∧ b = ((s.core c.val).cwp + 16 - (s.core c.val).res) % 15 ∧
    a + 8 * n = (s.core c.val).spillPtr.toNat ∧ (s.core c.val).spillLim.toNat ≤ a ∧ a % 8 = 0 ∧ ((∀ i, i < n →
    s.denied? c.val 0 1 (a + 8 * i) = none ∧ isMgmt (a + 8 * i) = false ∧ s.bufFull c.val (a + 8 * i) = false))) ∧
    (∃ (c : Fin 32) (w : Word) (s : State) (n b a : Nat), s.Fetches c.val w E.WFILL ∧ (s.core c.val).level ≠ 0 ∧
    (s.core c.val).cwp < 15 ∧ (s.core c.val).res ≤ 13 ∧ 1 ≤ (s.core c.val).spilled ∧
    n = (if (s.core c.val).res = 0 then 24 else 16) ∧ b = ((s.core c.val).cwp + 15 - (s.core c.val).res) % 15 ∧
    a = (s.core c.val).spillPtr.toNat ∧ a % 8 = 0 ∧ ((∀ i, i < n → s.denied? c.val 0 0 (a + 8 * i) = none ∧
    isMgmt (a + 8 * i) = false ∧ imageSram (a + 8 * i) = false ∧ s.hbmOff (a + 8 * i) = false ∧
    s.poisoned (a + 8 * i) 8 = false))) ∧
    (∃ (c : Fin 32) (w : Word) (s : State), s.Fetches c.val w E.WSPILL ∧ (s.core c.val).level ≠ 0 ∧ ((s.core c.val).res = 0 ∨
    (s.core c.val).spilled = 65535)) ∧
    (∃ (c : Fin 32) (w : Word) (s : State), s.Fetches c.val w E.WFILL ∧ (s.core c.val).level ≠ 0 ∧ (13 < (s.core c.val).res ∨
    (s.core c.val).spilled = 0)) ∧
    (∃ (c : Fin 32) (w : Word) (s : State), s.Fetches c.val w E.WSPILL ∧ (s.core c.val).level ≠ 0 ∧ 2 ≤ (s.core c.val).res ∧
    (s.core c.val).spilled < 65535 ∧ (s.core c.val).spillPtr.toNat < (s.core c.val).spillLim.toNat + 128 ∧
    128 ≤ (s.core c.val).spillPtr.toNat ∧ (s.core c.val).inDouble = false ∧ (s.core c.val).tstatus.getLsbD 2 = true) :=
  ⟨
    ⟨0, E.WSPILL.pat, ((((State.reset.put (F.CYC_CORE_STATE 0) 1).wrN (R.ACC_RATTR 0
    0) 0x802801FF).wrN R.PWR_ON 0xFFFFFF).co 0 fun k => { k with wstate := 16, spillPtr := 0x10C0 }), 24, 0, 0x1000,
    fetches (by decide +kernel), by decide, by decide, by decide, by decide, by decide, by decide, by decide, by decide,
    by decide, by decide, by decide +kernel⟩,
    ⟨0, E.WFILL.pat, ((((State.reset.put (F.CYC_CORE_STATE 0) 1).wrN (R.ACC_RATTR 0
    0) 0x802801FF).wrN R.PWR_ON 0xFFFFFF).co 0 fun k => { k with wstate := 0x10000, spillPtr := 0x1000 }), 24, 0, 0x1000,
    fetches (by decide +kernel), by decide, by decide, by decide, by decide, by decide, by decide, by decide, by decide,
    by decide +kernel⟩,
    ⟨0, E.WSPILL.pat, (((State.reset.put (F.CYC_CORE_STATE 0) 1).wrN (R.ACC_RATTR 0 0) 0x802801FF).wrN R.PWR_ON 0xFFFFFF),
    fetches (by decide +kernel), by decide, by decide⟩,
    ⟨0, E.WFILL.pat, (((State.reset.put (F.CYC_CORE_STATE 0) 1).wrN (R.ACC_RATTR 0 0) 0x802801FF).wrN R.PWR_ON 0xFFFFFF),
    fetches (by decide +kernel), by decide, by decide⟩,
    ⟨0, E.WSPILL.pat, (((((State.reset.put (F.CYC_CORE_STATE 0) 1).wrN (R.ACC_RATTR
    0 0) 0x802801FF).wrN R.PWR_ON 0xFFFFFF).co 0 fun k => { k with inDouble := false }).co
    0 fun k => { k with wstate := 32, spillPtr := 128, spillLim := 128, tstatus := 4 }), fetches (by decide +kernel), by decide,
    by decide, by decide, by decide, by decide, by decide, by decide⟩⟩

theorem test_wit_FetchAndPrivilege :
    (∃ r, r ∈ insnRows ∧ ∃ (c : Fin 32) (s : State) (m i : Nat), s.coreRuns c.val = true ∧ (s.core c.val).level = 0 ∧
    s.denied? c.val 0 2 (s.core c.val).pc.toNat = some (m, i) ∧ s.StoresGood c.val) ∧
    (∃ r, r ∈ insnRows ∧ ∃ (c : Fin 32) (s : State), s.coreRuns c.val = true ∧ (s.core c.val).level = 0 ∧
    s.denied? c.val 0 2 (s.core c.val).pc.toNat = none ∧ s.hbmOff (s.core c.val).pc.toNat = false ∧
    s.poisoned (s.core c.val).pc.toNat 4 = true ∧ s.StoresGood c.val) ∧
    (∃ r, r ∈ insnRows ∧ ∃ (c : Fin 32) (w : Word) (s : State), s.coreRuns c.val = true ∧ (s.core c.val).level = 0 ∧
    s.denied? c.val 0 2 (s.core c.val).pc.toNat = none ∧ s.hbmOff (s.core c.val).pc.toNat = false ∧
    s.poisoned (s.core c.val).pc.toNat 4 = false ∧ r.2.fits w = false ∧ s.StoresGood c.val) ∧
    (∃ r, r ∈ privRows ∧ ∃ (c : Fin 32) (w : Word) (s : State), s.Fetches c.val w r.2 ∧ (s.core c.val).level = 0 ∧
    s.StoresGood c.val) ∧
    (∃ r, r ∈ insnRows ∧ ∃ (c : Fin 32) (s : State), s.coreRuns c.val = false) ∧
    (∃ r, r ∈ [((.coreWait : Fin 32 → Word → Instr), E.WAIT), (.coreCflush, E.CFLUSH)] ∧ ∃ (c : Fin 32) (w : Word) (s : State),
    s.Fetches c.val w r.2 ∧ (s.core c.val).level ≠ 0) ∧
    (∃ (c : Fin 32) (w : Word) (s : State), s.Fetches c.val w E.XRD ∧ (s.core c.val).level ≠ 0) ∧
    (∃ (c : Fin 32) (w : Word) (s : State), s.Fetches c.val w E.XWR ∧ (s.core c.val).level ≠ 0) ∧
    (∃ r, r ∈ intA ∧ ∃ (c : Fin 32) (w : Word) (n : Nat) (s : State), s.coreRuns c.val = true ∧ (s.core c.val).level = 0 ∧
    s.denied? c.val 0 2 (s.core c.val).pc.toNat = none ∧ s.hbmOff (s.core c.val).pc.toNat = false ∧
    s.poisoned (s.core c.val).pc.toNat 4 = false ∧ r.2.1.fits w = true ∧ s.StoresGood c.val ∧ (s.core c.val).lowest = some n) ∧
    (∃ r, r ∈ insnRows ∧ ∃ (c : Fin 32) (s : State), s.coreRuns c.val = true ∧ (s.core c.val).level = 0 ∧
    s.denied? c.val 0 2 (s.core c.val).pc.toNat = none ∧ s.hbmOff (s.core c.val).pc.toNat = true ∧ s.StoresGood c.val) :=
  ⟨
    ⟨_, .head _, 0, ((State.reset.put (F.CYC_CORE_STATE 0) 1).co 0 fun k => { k with level := 0 }), 0, 0, by decide, by decide,
    by decide +kernel, storesGood (by decide +kernel)⟩,
    ⟨_, .head _, 0, (((((State.reset.put (F.CYC_CORE_STATE 0) 1).co 0 fun k => { k with level := 0 }).wrN
    R.PWR_ON 0xFFFFFF).wrN (R.ACC_RATTR 0 0) 0x802801FF).fb fun q => { q with poison := [0] }), by decide, by decide,
    by decide +kernel, by decide +kernel, by decide +kernel, storesGood (by decide +kernel)⟩,
    ⟨_, .head _, 0, ~~~E.ADD.pat, ((((State.reset.put (F.CYC_CORE_STATE 0) 1).co 0 fun k => { k with level := 0 }).wrN
    R.PWR_ON 0xFFFFFF).wrN (R.ACC_RATTR 0 0) 0x802801FF), by decide, by decide, by decide +kernel, by decide +kernel,
    by decide +kernel, by decide, storesGood (by decide +kernel)⟩,
    ⟨_, .head _, 0, E.TRET.pat, ((((State.reset.put (F.CYC_CORE_STATE 0) 1).wrN (R.ACC_RATTR 0
    0) 0x802801FF).wrN R.PWR_ON 0xFFFFFF).co 0 fun k => { k with level := 0 }), fetches (by decide +kernel), by decide,
    storesGood (by decide +kernel)⟩,
    ⟨_, .head _, 0, State.reset, by decide⟩,
    ⟨_, .head _, 0, E.WAIT.pat, (((State.reset.put (F.CYC_CORE_STATE 0) 1).wrN (R.ACC_RATTR 0
    0) 0x802801FF).wrN R.PWR_ON 0xFFFFFF), fetches (by decide +kernel), by decide⟩,
    ⟨0, E.XRD.pat, (((State.reset.put (F.CYC_CORE_STATE 0) 1).wrN (R.ACC_RATTR 0 0) 0x802801FF).wrN R.PWR_ON 0xFFFFFF),
    fetches (by decide +kernel), by decide⟩,
    ⟨0, E.XWR.pat, (((State.reset.put (F.CYC_CORE_STATE 0) 1).wrN (R.ACC_RATTR 0 0) 0x802801FF).wrN R.PWR_ON 0xFFFFFF),
    fetches (by decide +kernel), by decide⟩,
    ⟨_, .head _, 0, E.ADD.pat, 0, (((((State.reset.put (F.CYC_CORE_STATE 0) 1).co 0 fun k => { k with level := 0 }).wrN
    R.PWR_ON 0xFFFFFF).wrN (R.ACC_RATTR 0 0) 0x802801FF).co 0 fun k => { k with ipend := 1 }), by decide, by decide,
    by decide +kernel, by decide +kernel, by decide +kernel, by decide, storesGood (by decide +kernel), by decide⟩,
    ⟨_, .head _, 0, (((State.reset.put (F.CYC_CORE_STATE 0) 1).co 0 fun k => { k with level := 0 }).wrN
    (R.ACC_RATTR 0 0) 0x802801FF), by decide, by decide, by decide +kernel, by decide +kernel, storesGood (by decide +kernel)⟩⟩

theorem test_wit_CoreFromOutside :
    (∃ r, r ∈ [((.twinRecordArrival : Fin 32 → Instr), 3), (.mgmtRequestPost, 4)] ∧ ∃ (c : Fin 32) (s : State),
    s.coreRuns c.val = true) ∧
    (∃ (c : Fin 32) (n : Nat) (s : State), s.coreRuns c.val = true ∧ (s.core c.val).level = 0 ∧ s.StoresGood c.val ∧ n < 5 ∧
    (s.core c.val).ipend.getLsbD n = true ∧ ((∀ m, m < n → (s.core c.val).ipend.getLsbD m = false))) ∧
    (∃ (c : Fin 32) (a : Nat) (s : State), s.coreRuns c.val = true ∧ (s.core c.val).level = 0 ∧
    ((s.flush c.val).core c.val).storeErr = some a ∧ (s.core c.val).ipend.getLsbD 0 = true) ∧
    (∃ (c : Fin 32) (s : State), (s.core c.val).level ≠ 0) ∧
    (∃ (c : Fin 32) (s : State), s.coreRuns c.val = true ∧ (s.core c.val).storeErr = none) ∧
    (∃ (c : Fin 32) (s : State), s.coreRuns c.val = true ∧ (s.core c.val).tstatus.getLsbD 2 = false) ∧
    (∃ (c : Fin 32) (s : State), s.coreRuns c.val = true ∧ (s.core c.val).tstatus.getLsbD 2 = true) ∧
    (∃ (c : Fin 32) (s : State), (s.core c.val).testing = true) ∧
    (∃ (c : Fin 32) (s : State), (s.core c.val).testing = true ∧ s.startTest c.val = false ∧ s.isActive = true ∧
    s.twin.switch = none ∧ s.canSwitch = false ∧ s.Room c.val) ∧
    (∃ (c : Fin 32) (s : State), s.coreRuns c.val = true ∧ 65536 ≤ (s.core c.val).windows) ∧
    (∃ (c : Fin 32) (s : State), s.coreRuns c.val = true ∧ 65536 ≤ (s.core c.val).windows ∧ s.isActive = true ∧
    s.twin.switch = none ∧ s.canSwitch = false ∧ s.Room c.val) ∧
    (∃ (c : Fin 32) (t : Nat) (s : State), s.coreRuns c.val = true ∧ s.timerDue c.val = true ∧ s.now = t) ∧
    (∃ (c : Fin 32) (t : Nat) (s : State), (s.at t).timerDue c.val = false) ∧
    (∃ (c : Fin 32) (s : State), (s.core c.val).windows < 65536) :=
  ⟨
    ⟨_, .head _, 0, (State.reset.put (F.CYC_CORE_STATE 0) 1), by decide⟩,
    ⟨0, 0, (((State.reset.put (F.CYC_CORE_STATE 0) 1).co 0 fun k => { k with level := 0 }).co 0 fun k => { k with ipend := 1 }),
    by decide, by decide, storesGood (by decide +kernel), by decide, by decide, by decide⟩,
    ⟨0, 0x1000, ((((State.reset.put (F.CYC_CORE_STATE 0) 1).co 0 fun k => { k with level := 0 }).co
    0 fun k => { k with buf := [{ addr := 0x1000, size := 1, val := 0 }] }).co 0 fun k => { k with ipend := 1 }), by decide,
    by decide, by decide +kernel, by decide⟩,
    ⟨0, State.reset, by decide⟩,
    ⟨0, ((State.reset.put (F.CYC_CORE_STATE 0) 1).co 0 fun k => { k with storeErr := none }), by decide, by decide⟩,
    ⟨0, (State.reset.put (F.CYC_CORE_STATE 0) 1), by decide, by decide⟩,
    ⟨0, ((State.reset.put (F.CYC_CORE_STATE 0) 1).co 0 fun k => { k with tstatus := 4 }), by decide, by decide⟩,
    ⟨0, (State.reset.co 0 fun k => { k with testing := true }), by decide⟩,
    ⟨0, ((State.reset.put F.TWN_STATUS_ROLE 1).co 0 fun k => { k with testing := true }), by decide, by decide, by decide,
    by decide, by decide, by decide⟩,
    ⟨0, ((State.reset.put (F.CYC_CORE_STATE 0) 1).co 0 fun k => { k with windows := 65536 }), by decide, by decide⟩,
    ⟨0, (((State.reset.put F.TWN_STATUS_ROLE 1).put (F.CYC_CORE_STATE 0) 1).co 0 fun k => { k with windows := 65536 }),
    by decide, by decide, by decide, by decide, by decide, by decide⟩,
    ⟨0, 0, (State.reset.put (F.CYC_CORE_STATE 0) 1), by decide, by decide, by decide⟩,
    ⟨0, 0, (State.reset.co 0 fun k => { k with timecmp := 1 }), by decide⟩,
    ⟨0, State.reset, by decide⟩⟩

theorem test_wit_RegisterAccess :
    (∃ (off : Nat) (r : RegRow) (s : State) (i : Nat), regRow? off = some r ∧ i < 32) ∧
    (∃ (lv : Fin 4) (off : BitVec 32) (v : Word) (t : Nat) (r : RegRow) (s : State), s.offlineAt off.toNat = none ∧
    off.toNat < 0x10000000 ∧ (¬(0x241000 ≤ off.toNat ∧ off.toNat < 0x241800 ∧ off.toNat % 0x40 = 0)) ∧
    regRow? off.toNat = some r ∧ r.writable lv.val = true ∧ (s.at t).regAct lv.val off.toNat v = ((s.at t).plainWrite off.toNat
    v, .done)) ∧
    (∃ (off : BitVec 32) (n : Nat) (s : State), s.offlineAt off.toNat = some n ∧ storeRefused off.toNat 4 = false ∧ s.Room n) ∧
    (∃ s : State, s.pd 6 = true) ∧
    (∃ (lv : Fin 4) (off : BitVec 32) (r : RegRow) (s : State), s.offlineAt off.toNat = none ∧ off.toNat < 0x10000000 ∧
    (¬(0x241000 ≤ off.toNat ∧ off.toNat < 0x241800 ∧ off.toNat % 0x40 = 0)) ∧ regRow? off.toNat = some r ∧
    r.writable lv.val = false) ∧
    (∃ (off : BitVec 32) (s : State), imageWindow off.toNat = true ∧ s.offlineAt off.toNat = none) ∧
    (∃ (off : BitVec 32) (s : State), s.offlineAt off.toNat = none ∧ off.toNat ∈ latchedLows) ∧
    (∃ (off : BitVec 32) (r : RegRow) (s : State), s.offlineAt off.toNat = none ∧ regRow? off.toNat = some r ∧
    off.toNat < 0x240000 ∧ off.toNat ≠ R.TIM_NS ∧ off.toNat ∉ latchedLows ∧ r.rc ≠ 0) ∧
    (∃ (c : Fin 32) (s : State), s.offlineAt (R.ACC_FADDR_LO c.val) = none) ∧
    (∃ (c : Fin 32) (s : State), s.on (F.ACC_CTL_BUSY c.val) = true) ∧
    (∃ (c : Fin 32) (s : State), s.on (F.ACC_CTL_BUSY c.val) = false) ∧
    (∃ (c : Fin 32) (p : Fin 256) (s : State), s.on (F.ACC_CTL_BUSY c.val) = false ∧ p.val ≠ 255 ∧
    ((s.image.parts.any fun r => decide (r.part = p.val) && decide (r.core = c.val)) = false) ∧ s.Room c.val) ∧
    (∃ (c : Fin 32) (s : State), s.on (F.ACC_CTL_BUSY c.val) = true ∧ s.on (F.ACC_CTL_ASET c.val) = false) ∧
    (∃ (c : Fin 32) (s : State), s.on (F.ACC_CTL_BUSY c.val) = true ∧ s.on (F.ACC_CTL_ASET c.val) = true) ∧
    (∃ (c : Fin 32) (off : BitVec 32) (s : State), imageWindow off.toNat = true ∧ s.Room c.val) ∧
    (∃ (c : Fin 32) (off : BitVec 32) (s : State), slotWindow off.toNat = true ∧ off.toNat % 0x400 ≠ 4 ∧ s.Room c.val) ∧
    (∃ (c : Fin 32) (s : State), s.on (F.ACC_CTL_BUSY c.val) = false) :=
  ⟨
    ⟨0, _, State.reset, 0, rfl, by decide⟩,
    ⟨3, 131080, 0, 0, _, (State.reset.wrN R.PWR_ON 0xFFFFFF), by decide +kernel, by decide, by decide +kernel, rfl, by decide,
    rfl⟩,
    ⟨131080, _, State.reset, rfl, by decide, by decide⟩,
    ⟨(State.reset.setBit R.PWR_ON 6 true), by decide⟩,
    ⟨0, 65544, _, (State.reset.wrN R.PWR_ON 0xFFFFFF), by decide +kernel, by decide, by decide +kernel, rfl, by decide⟩,
    ⟨0x10000000, (State.reset.wrN R.PWR_ON 0xFFFFFF), by decide, by decide⟩,
    ⟨524296, (State.reset.wrN R.PWR_ON 0xFFFFFF), by decide +kernel, by decide⟩,
    ⟨131336, _, (State.reset.wrN R.PWR_ON 0xFFFFFF), by decide +kernel, rfl, by decide, by decide, by decide, by decide⟩,
    ⟨0, (State.reset.wrN R.PWR_ON 0xFFFFFF), by decide +kernel⟩,
    ⟨0, (State.reset.put (F.ACC_CTL_BUSY 0) 1), by decide⟩,
    ⟨0, State.reset, by decide⟩,
    ⟨0, 0, State.reset, by decide, by decide, by decide +kernel, by decide⟩,
    ⟨0, (State.reset.put (F.ACC_CTL_BUSY 0) 1), by decide, by decide⟩,
    ⟨0, ((State.reset.put (F.ACC_CTL_BUSY 0) 1).put (F.ACC_CTL_ASET 0) 1), by decide, by decide⟩,
    ⟨0, 0x10000000, State.reset, by decide, by decide⟩,
    ⟨0, 0x20000000, State.reset, by decide, by decide, by decide⟩,
    ⟨0, State.reset, by decide⟩⟩

theorem test_wit_DigitalIo :
    (∃ (t : Nat) (s : State), s.pd 2 = true ∧ (s.xing 0).upOut = false ∧ max s.now t % 50000 = 0 ∧
    (((s.di 0).hist.any fun e => decide (e.1 = max s.now t)) = false)) ∧
    (∃ (t : Nat) (s : State), ((s.pd 2 = false ∨ (s.xing 0).upOut = true ∨ max s.now t % 50000 ≠ 0))) ∧
    (∃ (d : DiState) (n : Nat), d.started = true ∧ 1 ≤ n ∧ d.c ≤ n) ∧
    (∃ (i : Fin 32) (s : State), (s.di i.val).started = true ∧ (s.diRec i.val).filterN ≤ (s.di i.val).c) ∧
    (∃ (b : Fin 3) (t : Nat) (s : State), s.pd (2 + b.val) = true ∧ max s.now t % 10000 = 0) ∧
    (∃ (t : Nat) (s : State), s.pd 3 = true ∧ max s.now t % 10000 = 0 ∧ (s.xing 1).downOut = false) ∧
    (∃ (b : List Byte) (s : State), s.pd 2 = true ∧ crossGood b = none) ∧
    (∃ (b : Fin 3) (q : Nat) (f : List Byte) (s : State), s.pd (2 + b.val) = true ∧ crossGood f = some q ∧
    (s.xing b.val).upOut = false ∧ (s.xing b.val).upSeq = some q) ∧
    (∃ (t : Nat) (s : State), s.pd 2 = true ∧ (s.xing 0).upOut = false ∧ (s.xing 0).upAt + 50000 ≤ max s.now t ∧
    s.Room islLocal) ∧
    (∃ (t : Nat) (s : State), s.pd 3 = true ∧ (s.xing 1).downOut = false ∧ (s.xing 1).downAt + 50000 ≤ max s.now t ∧
    s.isActive = true) ∧
    (∃ (b : Fin 3) (t : Nat) (s : State), (((s.xing b.val).upOut = true ∨ max s.now t < (s.xing b.val).upAt + 50000))) ∧
    (∃ (g : Fin 2) (s : State), s.pd 3 = true ∧ bitOf (s.get F.DIO_STATUS_DO_FAULT) g.val = false ∧ s.Room islLocal) ∧
    (∃ (n : Fin 4) (s : State), s.pd 2 = true ∧ bitOf (s.get F.DIO_TRIP_LATCH) n.val = false ∧ s.Room islLocal) ∧
    (∃ s : State, s.pd 2 = true) ∧
    (∃ (m : Fin 16) (n : Fin 4) (s : State), s.isActive = true ∧ bitOf m.val n.val = true) ∧
    (∃ s : State, s.isActive = false) ∧
    (∃ (m : Fin 16) (n : Fin 4) (s : State), s.isStandby = true ∧ bitOf m.val n.val = true) ∧
    (∃ (n : Fin 8) (v t : Nat) (s : State), s.pd 4 = true ∧ max s.now t % 10000 = 0 ∧ (s.aio n.val).source = some v ∧
    v / 2 ^ 23 % 256 ≠ 255) ∧
    (∃ (t : Nat) (s : State), max s.now t % 10000 ≠ 0) ∧
    (∃ s : State, s.isStandby = false) :=
  ⟨
    ⟨0, (State.reset.setBit R.PWR_ON 2 true), by decide, by decide, by decide, by decide +kernel⟩,
    ⟨0, State.reset, by decide⟩,
    ⟨{ started := true }, 1, by decide, by decide, by decide⟩,
    ⟨0, (State.reset.lo fun q => { q with di := [(0, { started := true, c := 3 })] }), by decide, by decide⟩,
    ⟨0, 0, (State.reset.setBit R.PWR_ON 2 true), by decide, by decide⟩,
    ⟨0, (State.reset.setBit R.PWR_ON 3 true), by decide, by decide, by decide⟩,
    ⟨[], (State.reset.setBit R.PWR_ON 2 true), by decide, by decide⟩,
    ⟨0, 0, ([0xA5] ++ List.replicate 17 0 ++ le 1 (crc8 (List.replicate 17 0))),
    ((State.reset.setBit R.PWR_ON 2 true).setXing 0 fun u => { u with upSeq := some 0 }), by decide, by decide +kernel,
    by decide, by decide⟩,
    ⟨1000000000000000, (State.reset.setBit R.PWR_ON 2 true), by decide, by decide, by decide, by decide⟩,
    ⟨1000000000000000, ((State.reset.put F.TWN_STATUS_ROLE 1).setBit R.PWR_ON 3 true), by decide, by decide, by decide,
    by decide⟩,
    ⟨0, 0, (State.reset.setXing 0 fun q => { q with upOut := true }), by decide⟩,
    ⟨0, (State.reset.setBit R.PWR_ON 3 true), by decide, by decide, by decide⟩,
    ⟨0, (State.reset.setBit R.PWR_ON 2 true), by decide, by decide, by decide⟩,
    ⟨(State.reset.setBit R.PWR_ON 2 true), by decide⟩,
    ⟨1, 0, (State.reset.put F.TWN_STATUS_ROLE 1), by decide, by decide⟩,
    ⟨State.reset, by decide⟩,
    ⟨1, 0, (State.reset.put F.TWN_STATUS_ROLE 2), by decide, by decide⟩,
    ⟨0, 0, 0, ({ State.reset with loc := { aio := [(0, { source := some 0 })] } }.setBit R.PWR_ON 4 true), by decide, by decide,
    by decide, by decide⟩,
    ⟨1, State.reset, by decide⟩,
    ⟨State.reset, by decide⟩⟩

theorem test_wit_AnalogueAndHart :
    (∃ (n : Fin 8) (t : Nat) (s : State), (((s.aioRec n.val).mode = 1 ∨ (s.aioRec n.val).mode = 3)) ∧ (s.xing 2).upOut = false ∧
    s.pd 4 = true ∧ (s.at t).convDue n.val = true) ∧
    (∃ s : State, s.pd 4 = false) ∧
    (∃ (n : Fin 8) (s : State), (s.aioRec n.val).mode = 2 ∧ s.pd 4 = true ∧ s.on (F.AIO_FLAGS_OUT_FAULT n.val) = false ∧
    s.Room islLocal) ∧
    (∃ (n : Fin 8) (s : State), s.aioInput n.val = true ∧ s.pd 4 = true ∧ s.Room islLocal) ∧
    (∃ (n : Fin 8) (s : State), s.aioInput n.val = true ∧ s.pd 4 = true) ∧
    (∃ (n : Fin 8) (s : State), s.supplyOn n.val = true ∧ s.pd 4 = true ∧ s.on (F.AIO_FLAGS_SUPPLY_LIMIT n.val) = false ∧
    s.Room islLocal) ∧
    (∃ (m : Fin 2) (c d : Nat) (l : List (Nat × Nat)) (s : State), s.pd 4 = true ∧ (s.modem m.val).busy = none ∧
    (s.modem m.val).searching = none ∧ (s.modem m.val).round = (c, d) :: l ∧ c < 8) ∧
    (∃ (m : Fin 2) (s : State), (s.modem m.val).busy ≠ none) ∧
    (∃ (m : Fin 2) (c d f : Nat) (s : State), (s.modem m.val).searching = none ∧ (s.modem m.val).busy = some (c, d, f)) ∧
    (∃ (m : Fin 2) (c d f t : Nat) (s : State), (s.modem m.val).searching = none ∧ (s.modem m.val).busy = some (c, d, f) ∧
    (s.modem m.val).sentAt + 400000000 ≤ max s.now t ∧ f < 2 ∧ c < 8) ∧
    (∃ (m : Fin 2) (c d f t : Nat) (s : State), (s.modem m.val).searching = none ∧ (s.modem m.val).busy = some (c, d, f) ∧
    (s.modem m.val).sentAt + 400000000 ≤ max s.now t ∧ 2 ≤ f ∧ s.Room islLocal) ∧
    (∃ (m : Fin 2) (t : Nat) (s : State), s.pd 4 = true ∧ s.on (F.AIO_HART_SWEEPING m.val) = false ∧ ((∀ a : Nat,
    (s.modem m.val).sweptAt = some a → a + s.image.localIo.sweepS * 1000000000 ≤ max s.now t))) ∧
    (∃ (m : Fin 2) (s : State), s.on (F.AIO_HART_SWEEPING m.val) = true ∧ s.Room islLocal) ∧
    (∃ (m : Fin 2) (s : State), s.pd 4 = true ∧ s.on (F.AIO_HART_SWEEPING m.val) = false) ∧
    (∃ s : State, s.on F.AIO_CAL_STATUS_BUSY = true ∧ s.Room islLocal) ∧
    (∃ s : State, s.on F.AIO_CAL_STATUS_BUSY = false ∧ s.on F.MOD_STATUS_HOLDUP = false) ∧
    (∃ (set : Tab Word) (s : State), s.loc.calWrite = some (false, set) ∧ s.loc.ageWaiting = none ∧ s.Room islLocal) ∧
    (∃ (m : Fin 2) (t : Nat) (s : State), max s.now t < (s.modem m.val).sentAt + 400000000) ∧
    (∃ (t : Nat) (s : State), (max s.now t + 25000) % 125000 ≠ 0) ∧
    (∃ s : State, s.loc.calWrite = none) :=
  ⟨
    ⟨0, 100000, ((im { localIo := { aio := [{ mode := 1 }] } }).setBit R.PWR_ON 4 true), by decide, by decide, by decide,
    by decide⟩,
    ⟨State.reset, by decide⟩,
    ⟨0, ((im { localIo := { aio := [{ mode := 2 }] } }).setBit R.PWR_ON 4 true), by decide, by decide, by decide, by decide⟩,
    ⟨0, ((im { localIo := { aio := [{ mode := 1 }] } }).setBit R.PWR_ON 4 true), by decide, by decide, by decide⟩,
    ⟨0, ((im { localIo := { aio := [{ mode := 1 }] } }).setBit R.PWR_ON 4 true), by decide, by decide⟩,
    ⟨0, ((im { localIo := { aio := [{ mode := 3 }] } }).setBit R.PWR_ON 4 true), by decide, by decide, by decide, by decide⟩,
    ⟨0, 0, 0, [], ((State.reset.setBit R.PWR_ON 4 true).setModem 0 fun q => { q with round := (0, 0) :: [] }), by decide,
    by decide, by decide, by decide, by decide⟩,
    ⟨0, (State.reset.setModem 0 fun u => { u with busy := some (0, 0, 0) }), by decide⟩,
    ⟨0, 0, 0, 0, (State.reset.setModem 0 fun q => { q with busy := some (0, 0, 0) }), by decide, by decide⟩,
    ⟨0, 0, 0, 0, 1000000000000000, (State.reset.setModem 0 fun q => { q with busy := some (0, 0, 0) }), by decide, by decide,
    by decide +kernel, by decide, by decide⟩,
    ⟨0, 0, 0, 2, 1000000000000000, (State.reset.setModem 0 fun q => { q with busy := some (0, 0, 2) }), by decide, by decide,
    by decide +kernel, by decide, by decide⟩,
    ⟨0, 1000000000000000, (State.reset.setBit R.PWR_ON 4 true), by decide, by decide, by decide⟩,
    ⟨0, (State.reset.put (F.AIO_HART_SWEEPING 0) 1), by decide, by decide⟩,
    ⟨0, (State.reset.setBit R.PWR_ON 4 true), by decide, by decide⟩,
    ⟨(State.reset.put F.AIO_CAL_STATUS_BUSY 1), by decide, by decide⟩,
    ⟨State.reset, by decide, by decide⟩,
    ⟨[], (State.reset.lo fun q => { q with calWrite := some (false, []) }), by decide, by decide, by decide⟩,
    ⟨0, 0, State.reset, by decide⟩,
    ⟨0, State.reset, by decide⟩,
    ⟨State.reset, by decide⟩⟩

theorem test_wit_CanChannels :
    (∃ (ch : Fin 4) (f : CanFrame) (s : State), f.rtr = false ∧ (s.canRec ch.val).accept f (s.on F.MOD_STATUS_REDUCED) = .fifo
    0 ∧ (s.canCh ch.val).rxf0.length < 64) ∧
    (∃ (ch : Fin 4) (f : CanFrame) (s : State), f.rtr = false ∧ (s.canRec ch.val).accept f (s.on F.MOD_STATUS_REDUCED) = .fifo
    0 ∧ 64 ≤ (s.canCh ch.val).rxf0.length) ∧
    (∃ (ch : Fin 4) (f : CanFrame) (n : Fin 64) (s : State), f.rtr = false ∧
    (s.canRec ch.val).accept f (s.on F.MOD_STATUS_REDUCED) = .buffer n.val) ∧
    (∃ (f : CanFrame) (s : State), f.rtr = true) ∧
    (∃ s : State, s.isStandby = true) ∧
    (∃ s : State, s.isStandby = false) ∧
    (∃ (t : Nat) (c : Fin 4) (s : State), s.isStandby = true ∧ (s.canCh c.val).list = none ∧ s.on F.TWN_STATUS_SUSPECT = false ∧
    boundaryNs s.count + 24000 ≤ max s.now t) ∧
    (∃ s : State, s.isStandby = false) ∧
    (∃ (ch : Fin 4) (b : Fin 64) (s : State), s.canOnBus ch.val b.val = true ∧ ((s.canCh ch.val).buf b.val).inTx = none) ∧
    (∃ (ch : Fin 4) (s : State), s.canOnBus ch.val 64 = true) ∧
    (∃ (ch : Fin 4) (b : Fin 64) (s : State), s.canOnBus ch.val b.val = true ∧ (s.canRec ch.val).oneShot = false ∧
    (s.canRec ch.val).retryLimit ≤ ((s.canCh ch.val).buf b.val).attempts) ∧
    (∃ (ch : Fin 4) (b : Fin 64) (s : State), s.canOnBus ch.val b.val = true ∧ (s.canRec ch.val).oneShot = false ∧
    ((s.canCh ch.val).buf b.val).attempts < (s.canRec ch.val).retryLimit) ∧
    (∃ (ch : Fin 4) (s : State), s.on (F.CAN_STATUS_RESTRICTED ch.val) = false ∧ s.Room islCan) ∧
    (∃ (ch : Fin 4) (s : State), s.get (F.CAN_STATUS_ESTATE ch.val) = 2 ∧ (s.canRec ch.val).autoRecover = true ∧ s.Room islCan) ∧
    (∃ (ch : Fin 4) (s : State), s.get (F.CAN_STATUS_ESTATE ch.val) = 2 ∧ (s.canRec ch.val).autoRecover = false ∧
    s.isActive = true ∧ s.Room islCan) ∧
    (∃ s : State, s.isActive = false) ∧
    (∃ (ch : Fin 4) (s : State), s.isActive = true ∧ (s.canCh ch.val).txf.length < 32) ∧
    (∃ s : State, s.isActive = false ∧ s.Room islCan) ∧
    (∃ (ch : Fin 4) (b : Fin 64) (s : State), ((s.canRec ch.val).buf b.val).kind = 1 ∧
    ((s.canCh ch.val).buf b.val).timedOut = false ∧ (if ((s.canRec ch.val).buf b.val).rxTimeout = 0 then 10 else ((s.canRec
    ch.val).buf b.val).rxTimeout) ≤ ((s.canCh ch.val).buf b.val).missed) ∧
    (∃ (ch : Fin 4) (b : Fin 64) (s : State), ((s.canCh ch.val).buf b.val).timedOut = true) ∧
    (∃ (ch : Fin 4) (b : Fin 65) (s : State), s.canOnBus ch.val b.val = false) ∧
    (∃ (ch : Fin 4) (b : Fin 64) (s : State), s.canOnBus ch.val b.val = true ∧ (s.canRec ch.val).oneShot = true) ∧
    (∃ (ch : Fin 4) (s : State), s.get (F.CAN_STATUS_ESTATE ch.val) ≠ 2) ∧
    (∃ (ch : Fin 4) (s : State), s.on (F.CAN_STATUS_RESTRICTED ch.val) = true) ∧
    (∃ (ch : Fin 4) (f : CanFrame) (s : State), f.rtr = false ∧ (s.canRec ch.val).accept f (s.on F.MOD_STATUS_REDUCED) = .fifo
    1 ∧ (s.canCh ch.val).rxf1.length < 64) ∧
    (∃ (ch : Fin 4) (f : CanFrame) (s : State), f.rtr = false ∧
    (s.canRec ch.val).accept f (s.on F.MOD_STATUS_REDUCED) = .rejected) ∧
    (∃ (ch : Fin 4) (f : CanFrame) (s : State), f.rtr = false ∧
    (s.canRec ch.val).accept f (s.on F.MOD_STATUS_REDUCED) = .nowhere) ∧
    (∃ (ch : Fin 4) (b : Fin 64) (s : State), s.canOnBus ch.val b.val = true ∧ ((s.canCh ch.val).buf b.val).inTx ≠ none) ∧
    (∃ (ch : Fin 4) (s : State), s.isActive = true ∧ 32 ≤ (s.canCh ch.val).txf.length) :=
  ⟨
    ⟨0, {}, ((im { can := [{ chan := 0, filters := [{ target := 1 }] }] }).put (F.CAN_STATUS_RESTRICTED 0) 0), by decide,
    by decide, by decide⟩,
    ⟨0, {}, (((im { can := [{ chan := 0, filters := [{ target := 1 }] }] }).setCan
    0 { rxf0 := List.replicate 64 {} }).put (F.CAN_STATUS_RESTRICTED 0) 0), by decide, by decide, by decide⟩,
    ⟨0, {}, 0, ((im { can := [{ chan := 0, bufs := [{ kind := 1 }] }] }).put (F.CAN_STATUS_RESTRICTED 0) 0), by decide,
    by decide⟩,
    ⟨{ rtr := true }, (State.reset.put (F.CAN_STATUS_RESTRICTED 0) 0), by decide⟩,
    ⟨(State.reset.put F.TWN_STATUS_ROLE 2), by decide⟩,
    ⟨State.reset, by decide⟩,
    ⟨1000000000000000, 0, (State.reset.put F.TWN_STATUS_ROLE 2), by decide, by decide, by decide, by decide⟩,
    ⟨State.reset, by decide⟩,
    ⟨0, 0, ((State.reset.setCan 0 { arb := some 0 }).put (F.CAN_STATUS_RESTRICTED 0) 0), by decide, by decide⟩,
    ⟨0, ((State.reset.setCan 0 { arb := some 64 }).put (F.CAN_STATUS_RESTRICTED 0) 0), by decide⟩,
    ⟨0, 0, ((State.reset.setCan 0 { arb := some 0, bufs := [(0, { attempts := 15 })] }).put (F.CAN_STATUS_RESTRICTED 0) 0),
    by decide, by decide, by decide⟩,
    ⟨0, 0, ((State.reset.setCan 0 { arb := some 0 }).put (F.CAN_STATUS_RESTRICTED 0) 0), by decide, by decide, by decide⟩,
    ⟨0, (State.reset.put (F.CAN_STATUS_RESTRICTED 0) 0), by decide, by decide⟩,
    ⟨0, (State.reset.put (F.CAN_STATUS_ESTATE 0) 2), by decide, by decide, by decide⟩,
    ⟨0, (((im { can := [{ chan := 0, autoRecover := false }] }).put F.TWN_STATUS_ROLE 1).put (F.CAN_STATUS_ESTATE 0) 2),
    by decide, by decide, by decide, by decide⟩,
    ⟨State.reset, by decide⟩,
    ⟨0, (State.reset.put F.TWN_STATUS_ROLE 1), by decide, by decide⟩,
    ⟨State.reset, by decide, by decide⟩,
    ⟨0, 0, ((im { can := [{ chan := 0, bufs := [{ kind := 1, rxTimeout := 1 }] }] }).setCan
    0 { bufs := [(0, { missed := 1 })] }), by decide, by decide, by decide⟩,
    ⟨0, 0, (State.reset.setCan 0 { bufs := [(0, { timedOut := true })] }), by decide⟩,
    ⟨0, 0, State.reset, by decide⟩,
    ⟨0, 0, (((im { can := [{ chan := 0, oneShot := true }] }).setCan 0 { arb := some 0 }).put (F.CAN_STATUS_RESTRICTED 0) 0),
    by decide, by decide⟩,
    ⟨0, State.reset, by decide⟩,
    ⟨0, (State.reset.put (F.CAN_STATUS_RESTRICTED 0) 1), by decide⟩,
    ⟨0, {}, ((im { can := [{ chan := 0, filters := [{ target := 2 }] }] }).put (F.CAN_STATUS_RESTRICTED 0) 0), by decide,
    by decide, by decide⟩,
    ⟨0, {}, ((im { can := [{ chan := 0, filters := [{ target := 3 }] }] }).put (F.CAN_STATUS_RESTRICTED 0) 0), by decide,
    by decide⟩,
    ⟨0, {}, ((im { can := [{ chan := 0 }] }).put (F.CAN_STATUS_RESTRICTED 0) 0), by decide, by decide⟩,
    ⟨0, 0, ((State.reset.put (F.CAN_STATUS_RESTRICTED 0) 0).setCan 0 { arb := some 0, bufs := [(0, { inTx := some [1] })] }),
    by decide, by decide⟩,
    ⟨0, (((State.reset.put F.TWN_STATUS_ROLE 1).put F.TWN_STATUS_ROLE 1).setCan 0 { txf := List.replicate 32 {} }), by decide,
    by decide⟩⟩

theorem test_wit_StartUp :
    (∃ (dv : Fin 1024) (t : Nat) (s : State), s.pd 0 = true ∧ (s.at t).feedGood 0 dv.val = true ∧ 0 ∈ s.pwr.feedsLost ∧
    s.Room islSup) ∧
    (∃ (dv : Fin 1024) (t : Nat) (s : State), s.pd 0 = true ∧ (s.at t).feedGood 1 dv.val = true ∧ 1 ∉ s.pwr.feedsLost) ∧
    (∃ (dv : Fin 1024) (s : State), s.pd 0 = true ∧ ((dv.val < 330 ∨ 780 < dv.val)) ∧ s.on F.MOD_STATUS_FEED_A_OK = true ∧
    s.Room islSup) ∧
    (∃ s : State, s.pd 0 = true) ∧
    (∃ (p : Fin 16) (s : State), s.pd 0 = true ∧ s.get F.MOD_STATUS_STAGE = 0 ∧ s.on F.MOD_SLOT_VALID = false ∧
    s.twin.resetHeld = false ∧ ((p.val = 10 ∨ p.val = 11))) ∧
    (∃ (p : Fin 16) (s : State), s.pd 0 = true ∧ s.get F.MOD_STATUS_STAGE = 0 ∧ s.on F.MOD_SLOT_VALID = false ∧
    s.twin.resetHeld = false ∧ p.val ≠ 10 ∧ p.val ≠ 11 ∧ s.pwr.slotBad = false ∧ s.Room islSup) ∧
    (∃ (e : Fin 256) (t : Nat) (s : State), s.pd 0 = true ∧ s.get F.MOD_STATUS_STAGE = 0 ∧ e.val < 56 ∧ s.feedOk = true ∧
    s.pwr.feedAt + 1000000000 ≤ max s.now t) ∧
    (∃ (e : Fin 256) (s : State), s.get F.MOD_STATUS_STAGE = 0 ∧ s.s0Done e.val = true) ∧
    (∃ (e : Fin 256) (s : State), s.get F.MOD_STATUS_STAGE = 0 ∧ s.s0Done e.val = false) ∧
    (∃ s : State, s.get F.MOD_STATUS_STAGE = 1) ∧
    (∃ s : State, s.get F.MOD_STATUS_STAGE = 3) ∧
    (∃ s : State, s.get F.MOD_STATUS_STAGE = 2 ∧ s.on F.MOD_STATUS_REDUCED = true) ∧
    (∃ s : State, s.get F.MOD_STATUS_STAGE = 0) ∧
    (∃ (b : Bool) (t : Nat) (s : State), s.get F.MOD_STATUS_STAGE = 5 ∧ s.on F.MOD_STATUS_REDUCED = false ∧ ((b = true ∨
    s.stageEndsAt < max s.now t)) ∧ s.Room islSup) ∧
    (∃ (d : Fin 24) (s : State), d.val ∈ stageDomains (s.get F.MOD_STATUS_STAGE) ∧ s.on F.MOD_STATUS_REDUCED = false ∧
    d.val ∉ s.pwr.retried) ∧
    (∃ (d : Fin 24) (s : State), d.val ∈ stageDomains (s.get F.MOD_STATUS_STAGE) ∧ s.on F.MOD_STATUS_REDUCED = false ∧
    d.val ∈ s.pwr.retried) ∧
    (∃ (t : Nat) (s : State), s.get F.MOD_STATUS_STAGE = 0 ∧ s.pd 1 = true ∧ 0 < s.pwr.s1Failures ∧ s.pwr.s1Failures < 3 ∧
    s.pwr.stageAt + 10000000000 ≤ max s.now t) ∧
    (∃ s : State, 3 ≤ s.pwr.s1Failures) ∧
    (∃ s : State, s.on F.MOD_STATUS_HOLDUP = true) ∧
    (∃ (k : Fin 4) (s : State), k.val ≠ 0 ∧ s.on F.MOD_STATUS_HOLDUP = false ∧ s.pd 23 = true) ∧
    (∃ (k : Fin 4) (s : State), k.val ≠ 0 ∧ s.on F.MOD_STATUS_HOLDUP = false ∧ s.pd 22 = true ∧ s.isActive = true) ∧
    (∃ (dv : Fin 1024) (s : State), 330 ≤ dv.val ∧ dv.val ≤ 780) ∧
    (∃ (dv : Fin 1024) (s : State), ((dv.val < 360 ∨ 750 < dv.val))) :=
  ⟨
    ⟨500, 100000000, ((State.reset.setBit R.PWR_ON 0 true).pw fun q => { q with feedsLost := [0] }), by decide, by decide,
    by decide, by decide⟩,
    ⟨500, 100000000, (State.reset.setBit R.PWR_ON 0 true), by decide, by decide, by decide⟩,
    ⟨0, ((State.reset.setBit R.PWR_ON 0 true).put F.MOD_STATUS_FEED_A_OK 1), by decide, by decide, by decide, by decide⟩,
    ⟨(State.reset.setBit R.PWR_ON 0 true), by decide⟩,
    ⟨10, ((State.reset.setBit R.PWR_ON 0 true).put F.MOD_STATUS_STAGE 0), by decide, by decide, by decide, by decide, by decide⟩,
    ⟨0, ((State.reset.setBit R.PWR_ON 0 true).put F.MOD_STATUS_STAGE 0), by decide, by decide, by decide, by decide, by decide,
    by decide, by decide, by decide⟩,
    ⟨0, 1000000000, (((State.reset.setBit R.PWR_ON 0 true).put F.MOD_STATUS_STAGE 0).put F.MOD_STATUS_FEED_A_OK 1), by decide,
    by decide, by decide, by decide, by decide⟩,
    ⟨60, (((State.reset.put F.MOD_STATUS_STAGE 0).put F.MOD_STATUS_FEED_A_OK 1).put F.MOD_SLOT_VALID 1), by decide, by decide⟩,
    ⟨0, (State.reset.put F.MOD_STATUS_STAGE 0), by decide, by decide⟩,
    ⟨(State.reset.put F.MOD_STATUS_STAGE 1), by decide⟩,
    ⟨(State.reset.put F.MOD_STATUS_STAGE 3), by decide⟩,
    ⟨((State.reset.put F.MOD_STATUS_STAGE 2).put F.MOD_STATUS_REDUCED 1), by decide, by decide⟩,
    ⟨(State.reset.put F.MOD_STATUS_STAGE 0), by decide⟩,
    ⟨false, 1000000000000000, (State.reset.put F.MOD_STATUS_STAGE 5), by decide, by decide, by decide, by decide⟩,
    ⟨22, (State.reset.put F.MOD_STATUS_STAGE 1), by decide, by decide, by decide⟩,
    ⟨22, ((State.reset.put F.MOD_STATUS_STAGE 1).pw fun q => { q with retried := [22] }), by decide, by decide, by decide⟩,
    ⟨1000000000000000, (((State.reset.put F.MOD_STATUS_STAGE 0).setBit R.PWR_ON 1 true).pw fun q => { q with s1Failures := 1 }),
    by decide, by decide, by decide, by decide, by decide⟩,
    ⟨(State.reset.pw fun q => { q with s1Failures := 3 }), by decide⟩,
    ⟨(State.reset.put F.MOD_STATUS_HOLDUP 1), by decide⟩,
    ⟨1, (State.reset.setBit R.PWR_ON 23 true), by decide, by decide, by decide⟩,
    ⟨1, ((State.reset.put F.TWN_STATUS_ROLE 1).setBit R.PWR_ON 22 true), by decide, by decide, by decide, by decide⟩,
    ⟨330, State.reset, by decide, by decide⟩,
    ⟨0, State.reset, by decide⟩⟩

theorem test_wit_RestartsAndHoldUp :
    (∃ s : State, s.on F.MOD_STATUS_HOLDUP = false ∧ s.isActive = false) ∧
    (∃ s : State, s.on F.MOD_STATUS_HOLDUP = false ∧ s.isActive = true ∧ s.tstate = 1 ∧ s.ptstate = 3 ∧
    s.on F.TWN_STATUS_SUSPECT = false ∧ s.twin.partnerSuspect = false ∧ s.twin.switch = none) ∧
    (∃ s : State, s.on F.MOD_STATUS_HOLDUP = false ∧ s.isActive = true ∧ s.ptstate = 3 ∧ s.on F.TWN_STATUS_SUSPECT = true ∧
    s.twin.switch = none) ∧
    (∃ s : State, s.on F.MOD_STATUS_HOLDUP = true) ∧
    (∃ s : State, s.on F.MOD_STATUS_HOLDUP = false) ∧
    (∃ s : State, s.on F.MOD_STATUS_HOLDUP = true) ∧
    (∃ s : State, s.pd 0 = true ∧ s.on F.MOD_STATUS_HOLDUP = false) ∧
    (∃ s : State, s.pd 0 = true ∧ s.on F.MOD_STATUS_HOLDUP = false) ∧
    (∃ s : State, s.on F.MOD_STATUS_HOLDUP = true) ∧
    (∃ s : State, s.twin.resetHeld = true) ∧
    (∃ s : State, s.pd 0 = true ∧ s.on F.MOD_STATUS_HOLDUP = false ∧ s.twin.failing = false) ∧
    (∃ (t : Nat) (s : State), s.pwr.holdStep = 1 ∧ s.pwr.holdAt + 1000000 ≤ max s.now t ∧ s.on F.EVT_STATUS_RUNNING = false) ∧
    (∃ (t : Nat) (s : State), s.pwr.holdStep = 2 ∧ s.pwr.holdAt + 3000000 ≤ max s.now t) ∧
    (∃ (t : Nat) (s : State), s.pwr.holdStep = 3 ∧ s.pwr.holdAt + 8000000 ≤ max s.now t) ∧
    (∃ (t : Nat) (s : State), s.on F.MOD_STATUS_HOLDUP = true ∧ s.pwr.holdAt + 10000000 ≤ max s.now t ∧ s.feedOk = true ∧
    s.pwr.rstHeld = false) ∧
    (∃ (t : Nat) (s : State), s.on F.MOD_STATUS_HOLDUP = true ∧ s.pwr.holdAt + 10000000 ≤ max s.now t ∧ s.feedOk = false) ∧
    (∃ (die : Int) (s : State), s.pd 0 = true ∧ s.pd 20 = false ∧ s.pd 21 = false ∧ 9 ≤ s.pwr.hotRun ∧ 100 ≤ die ∧ die < 110 ∧
    s.on F.PWR_TEMP_HOT = false ∧ s.Room islSup) ∧
    (∃ (die hbm : Int) (s : State), s.pd 0 = true ∧ s.pd 20 = true ∧ s.on F.PWR_TEMP_HOT = true ∧ die < 95 ∧ hbm < 85 ∧
    s.Room islSup) ∧
    (∃ (die : Int) (s : State), s.pd 0 = true ∧ 9 ≤ s.pwr.critRun ∧ 110 ≤ die ∧ s.on F.MOD_STATUS_HOLDUP = false) ∧
    (∃ (t : Nat) (s : State), max s.now t < s.pwr.holdAt + 1000000) :=
  ⟨
    ⟨State.reset, by decide, by decide⟩,
    ⟨(((State.reset.put F.TWN_STATUS_ROLE 1).put F.TWN_STATUS_TSTATE 1).put F.TWN_STATUS_PARTNER_TSTATE 3), by decide,
    by decide, by decide, by decide, by decide, by decide, by decide⟩,
    ⟨(((State.reset.put F.TWN_STATUS_ROLE 1).put F.TWN_STATUS_PARTNER_TSTATE 3).put F.TWN_STATUS_SUSPECT 1), by decide,
    by decide, by decide, by decide, by decide⟩,
    ⟨(State.reset.put F.MOD_STATUS_HOLDUP 1), by decide⟩,
    ⟨State.reset, by decide⟩,
    ⟨(State.reset.put F.MOD_STATUS_HOLDUP 1), by decide⟩,
    ⟨(State.reset.setBit R.PWR_ON 0 true), by decide, by decide⟩,
    ⟨(State.reset.setBit R.PWR_ON 0 true), by decide, by decide⟩,
    ⟨(State.reset.put F.MOD_STATUS_HOLDUP 1), by decide⟩,
    ⟨(State.reset.tw fun q => { q with resetHeld := true }), by decide⟩,
    ⟨(State.reset.setBit R.PWR_ON 0 true), by decide, by decide, by decide⟩,
    ⟨1000000000000000, (State.reset.pw fun q => { q with holdStep := 1 }), by decide, by decide, by decide⟩,
    ⟨1000000000000000, (State.reset.pw fun q => { q with holdStep := 2 }), by decide, by decide⟩,
    ⟨1000000000000000, (State.reset.pw fun q => { q with holdStep := 3 }), by decide, by decide⟩,
    ⟨1000000000000000, ((State.reset.put F.MOD_STATUS_HOLDUP 1).put F.MOD_STATUS_FEED_A_OK 1), by decide, by decide, by decide,
    by decide⟩,
    ⟨1000000000000000, (State.reset.put F.MOD_STATUS_HOLDUP 1), by decide, by decide, by decide⟩,
    ⟨100, ((State.reset.setBit R.PWR_ON 0 true).pw fun q => { q with hotRun := 9 }), by decide, by decide, by decide, by decide,
    by decide, by decide, by decide, by decide⟩,
    ⟨0, 0, (((State.reset.setBit R.PWR_ON 0 true).setBit R.PWR_ON 20 true).put F.PWR_TEMP_HOT 1), by decide, by decide,
    by decide, by decide, by decide, by decide⟩,
    ⟨110, ((State.reset.setBit R.PWR_ON 0 true).pw fun q => { q with critRun := 9 }), by decide, by decide, by decide,
    by decide⟩,
    ⟨0, State.reset, by decide⟩⟩

theorem test_wit_SessionsAndMessages :
    (∃ (p : Fin 3) (k : Fin 4) (act : Bool) (s : State), s.answersAt p.val act (decide (2 ≤ k.val)) = true) ∧
    (∃ (p : Fin 3) (act v6 : Bool) (s : State), s.answersAt p.val act v6 = true ∧ s.Room islMgmt) ∧
    (∃ (p : Fin 3) (act v6 : Bool) (s : State), s.answersAt p.val act v6 = true ∧ s.image.events.noMonitor = false ∧
    s.openSessions = [] ∧ s.Room islMgmt) ∧
    (∃ (p : Fin 3) (act v6 : Bool) (s : State), s.answersAt p.val act v6 = true ∧ s.image.events.noMonitor = false ∧
    s.openSessions.length = 16 ∧ s.Room islMgmt) ∧
    (∃ (ses : Fin 16) (t : Nat) (k : Session) (s : State), s.session ses.val = some k ∧ k.running = none ∧
    k.last + s.idleNs ≤ max s.now t ∧ s.Room islMgmt) ∧
    (∃ (ses : Fin 16) (t : Nat) (k : Session) (s : State), s.session ses.val = some k ∧ max s.now t < k.last + s.idleNs) ∧
    (∃ (ses : Fin 16) (b : List Byte) (k : Session) (s : State), s.on F.MOD_STATUS_HOLDUP = false ∧ 16 ≤ b.length ∧
    s.session ses.val = some k ∧ headerOk b = false) ∧
    (∃ (ses : Fin 16) (b : List Byte) (k : Session) (s : State), s.on F.MOD_STATUS_HOLDUP = false ∧ 16 ≤ b.length ∧
    s.session ses.val = some k ∧ headerOk b = true ∧ 65536 < field b 12 4) ∧
    (∃ (ses : Fin 16) (b : List Byte) (k : Session) (s : State), s.on F.MOD_STATUS_HOLDUP = false ∧ 16 ≤ b.length ∧
    s.session ses.val = some k ∧ k.frags = [] ∧ k.kept = [] ∧ k.running = none ∧ headerOk b = true ∧ field b 3 1 = 0 ∧
    bitOf (field b 2 1) 1 = false ∧ field b 12 4 = b.length - 16 ∧ 1 ≤ field b 1 1 ∧ field b 1 1 ≤ 13) ∧
    (∃ (ses : Fin 16) (k : Session) (s : State), s.session ses.val = some k) ∧
    (∃ (p : Fin 3) (k : Fin 4) (act : Bool) (s : State), s.answersAt p.val act (decide (2 ≤ k.val)) = false) ∧
    (∃ (p : Fin 3) (act v6 : Bool) (s : State), s.answersAt p.val act v6 = false) ∧
    (∃ (ses : Fin 16) (b : List Byte) (k : Session) (e : QmpResp) (s : State), s.on F.MOD_STATUS_HOLDUP = false ∧
    16 ≤ b.length ∧ s.session ses.val = some k ∧ k.frags = [] ∧ k.running = none ∧ headerOk b = true ∧ field b 3 1 = 0 ∧
    bitOf (field b 2 1) 1 = false ∧ field b 12 4 ≤ 65536 ∧ (k.kept.find? (fun e => decide (e.req = field b 4 4)) = some e)) ∧
    (∃ (ses : Fin 16) (b : List Byte) (k : Session) (s : State), s.on F.MOD_STATUS_HOLDUP = false ∧ 16 ≤ b.length ∧
    s.session ses.val = some k ∧ k.frags = [] ∧ headerOk b = true ∧ field b 3 1 = 0 ∧ bitOf (field b 2 1) 1 = true ∧
    field b 12 4 ≤ 65536) ∧
    (∃ r : QmpResp, r.payload.length ≤ 1184) :=
  ⟨
    ⟨2, 0, false, (State.reset.setBit R.PWR_ON 7 true), by decide +kernel⟩,
    ⟨2, false, false, (State.reset.setBit R.PWR_ON 7 true), by decide, by decide⟩,
    ⟨2, false, false, (State.reset.setBit R.PWR_ON 7 true), by decide, by decide, by decide, by decide⟩,
    ⟨2, false, false, ({ State.reset with mgmt := { sessions := (List.range 16).map fun n => (n, some {}) } }.setBit
    R.PWR_ON 7 true), by decide, by decide, by decide, by decide⟩,
    ⟨0, 60000000000, {}, (State.reset.setSession 0 (some {})), by decide, by decide, by decide, by decide⟩,
    ⟨0, 0, {}, (State.reset.setSession 0 (some {})), by decide, by decide⟩,
    ⟨0, List.replicate 16 0, {}, (State.reset.setSession 0 (some {})), by decide, by decide, by decide, by decide⟩,
    ⟨0, [1, 0, 0, 0, 0, 0, 0, 0, 0, 0, 0, 0, 0, 0, 0, 1], {}, (State.reset.setSession 0 (some {})), by decide, by decide,
    by decide, by decide, by decide⟩,
    ⟨0, [1, 1] ++ List.replicate 14 0, {}, (State.reset.setSession 0 (some {})), by decide, by decide, by decide, by decide,
    by decide, by decide, by decide, by decide, by decide, by decide, by decide, by decide⟩,
    ⟨0, {}, (State.reset.setSession 0 (some {})), by decide⟩,
    ⟨0, 0, false, State.reset, by decide +kernel⟩,
    ⟨0, false, false, State.reset, by decide⟩,
    ⟨0, ([1, 1] ++ List.replicate 14 0), { kept := [{ cmd := 1, req := 0, status := 0 }] }, { cmd := 1, req := 0, status := 0 },
    (State.reset.setSession 0 (some { kept := [{ cmd := 1, req := 0, status := 0 }] })), by decide, by decide, by decide,
    by decide, by decide, by decide, by decide, by decide, by decide, by decide +kernel⟩,
    ⟨0, ([1, 1, 2] ++ List.replicate 13 0), {}, (State.reset.setSession 0 (some {})), by decide, by decide, by decide,
    by decide, by decide, by decide, by decide, by decide⟩,
    ⟨{ cmd := 0, req := 0, status := 0 }, by decide⟩⟩

theorem test_wit_Requests :
    (∃ (ses : Fin 16) (req p t : Nat) (s : State), (s.at t).Serves ses req false false ∧ p < 1048576 ∧
    s.offlineAt (0x10000000 + 4 * p) = none ∧ s.windowPoisoned (0x10000000 + 4 * p) 4 = false) ∧
    (∃ (ses : Fin 16) (req n t : Nat) (s : State), (s.at t).Serves ses req false false ∧ 256 < n) ∧
    (∃ (ses : Fin 16) (req c t : Nat) (l : List Nat) (s : State), (s.at t).Serves ses req false false ∧ l.length ≤ 4096 ∧ c ≤ 7) ∧
    (∃ (ses : Fin 16) (req t : Nat) (a : BitVec 32) (s : State), (s.at t).Serves ses req true false ∧
    s.offlineAt a.toNat = none ∧ imageWindow a.toNat = true ∧ a.toNat % 4 = 0 ∧ s.Room islMgmt) ∧
    (∃ (ses : Fin 16) (req t : Nat) (l : List (BitVec 32 × Word)) (s : State), (s.at t).Serves ses req true false ∧
    64 < l.length) ∧
    (∃ (ses : Fin 16) (req : Nat) (s : State), s.Serves ses req false false ∧ 2 ≤ s.get F.MOD_STATUS_STAGE) ∧
    (∃ s : State, s.get F.MOD_STATUS_STAGE < 2) ∧
    (∃ (t : Nat) (s : State), s.pd 22 = true ∧ ((s.time.running = false ∨ s.time.fresh = true)) ∧ ((s.mgmt.snapAt = none ∨ ∃ a,
    s.mgmt.snapAt = some a ∧ a + 1000000 ≤ max s.now t))) ∧
    (∃ (t : Nat) (s : State), (s.at t).snapDue = false) ∧
    (∃ (ses : Fin 16) (req : Nat) (c : Fin 65536) (s : State), s.Serves ses req false false ∧ 256 < c.val) ∧
    (∃ (ses : Fin 16) (req : Nat) (q : BitVec 64) (c : Fin 65536) (s : State), s.Serves ses req false false ∧ 1 ≤ c.val ∧
    c.val ≤ 256 ∧ s.heldFrom q.toNat = []) ∧
    (∃ (ses : Fin 16) (req : Nat) (q : BitVec 64) (c : Fin 65536) (s : State), s.Serves ses req false false ∧ 1 ≤ c.val ∧
    c.val ≤ 256 ∧ s.heldFrom q.toNat ≠ []) ∧
    (∃ (ses : Fin 16) (req t : Nat) (s : State), (s.at t).Serves ses req true true ∧ (s.at t).swapReason = 0 ∧
    s.twin.switch = none) ∧
    (∃ (ses : Fin 16) (req t : Nat) (s : State), (s.at t).Serves ses req true true ∧ (s.at t).swapReason ≠ 0) ∧
    (∃ (ses : Fin 16) (req t : Nat) (s : State), (s.at t).Serves ses req true false ∧ s.tstate = 6) ∧
    (∃ (ses : Fin 16) (req t : Nat) (s : State), (s.at t).Serves ses req true false) ∧
    (∃ (ses : Fin 16) (req t : Nat) (s : State), (s.at t).Serves ses req true false ∧ s.isActive = true ∧ s.ptstate = 3 ∧
    s.on F.TWN_STATUS_SUSPECT = true ∧ s.twin.switch = none) ∧
    (∃ (ses : Fin 16) (req : Nat) (c : Fin 32) (k : Fin 65536) (s : State), s.Serves ses req true false ∧
    s.captureHeld c.val k.val = true ∧ ((s.loops.store.map (fun x => x.size)).sum + (s.captureBytes c.val
    k.val).length ≤ captureStore.2)) ∧
    (∃ (ses : Fin 16) (req : Nat) (c : Fin 32) (k : Fin 65536) (s : State), s.Serves ses req true false ∧
    s.captureHeld c.val k.val = false) ∧
    (∃ (ses : Fin 16) (req : Nat) (c : Fin 32) (k : Fin 65536) (s : State), s.Serves ses req true false ∧
    s.captureHeld c.val k.val = true) ∧
    (∃ (ses : Fin 16) (req : Nat) (s : State), s.Serves ses req true false) ∧
    (∃ (ses : Fin 16) (req : Nat) (c : Fin 32) (k : Fin 65536) (s : State), s.Serves ses req true false ∧
    s.captureHeld c.val k.val = true ∧ (captureStore.2 < (s.loops.store.map (fun x => x.size)).sum +
    (s.captureBytes c.val k.val).length)) ∧
    (∃ (ses : Fin 16) (req : Nat) (c : Fin 32) (k : Fin 65536) (s : State), s.Serves ses req true false ∧
    s.captureHeld c.val k.val = false) ∧
    (∃ (p : Nat) (ses req : Fin 16) (k : Session) (s : State), s.session ses.val = some k ∧
    s.mgmt.reads = [{ session := ses.val, req := req.val, cls := 0, points := [p] }]) :=
  ⟨
    ⟨0, 0, 0, 0, ((State.reset.setSession 0 (some { control := true })).wrN R.PWR_ON 0xFFFFFF), serves (by decide), by decide,
    by decide, by decide +kernel⟩,
    ⟨0, 0, 257, 0, (State.reset.setSession 0 (some { control := true })), serves (by decide), by decide⟩,
    ⟨0, 0, 0, 0, [], (State.reset.setSession 0 (some { control := true })), serves (by decide), by decide, by decide⟩,
    ⟨0, 0, 0, 0x10000000, ((State.reset.setSession 0 (some { control := true })).wrN R.PWR_ON 0xFFFFFF), serves (by decide),
    by decide, by decide, by decide, by decide⟩,
    ⟨0, 0, 0, List.replicate 65 (0, 0), (State.reset.setSession 0 (some { control := true })), serves (by decide), by decide⟩,
    ⟨0, 0, ((State.reset.setSession 0 (some { control := true })).put F.MOD_STATUS_STAGE 2), serves (by decide), by decide⟩,
    ⟨State.reset, by decide⟩,
    ⟨1000000000000000, (State.reset.setBit R.PWR_ON 22 true), by decide, by decide, by decide⟩,
    ⟨0, State.reset, by decide⟩,
    ⟨0, 0, 257, (State.reset.setSession 0 (some { control := true })), serves (by decide), by decide⟩,
    ⟨0, 0, 0, 1, (State.reset.setSession 0 (some { control := true })), serves (by decide), by decide, by decide, by decide⟩,
    ⟨0, 0, 0, 1, ((State.reset.setSession 0 (some { control := true })).inNv fun
    q => { q with seq := 1, tail := [(1, some { seq := 1, code := 0, severity := 0, island := 0 })] }), serves (by decide),
    by decide, by decide, by decide +kernel⟩,
    ⟨0, 0, 0, (((((State.reset.put F.TWN_STATUS_ROLE 1).setSession 0 (some { control := true })).put
    F.TWN_STATUS_ROLE 1).put F.TWN_STATUS_TSTATE 1).put F.TWN_STATUS_PARTNER_TSTATE 3), serves (by decide), by decide,
    by decide⟩,
    ⟨0, 0, 0, ((State.reset.put F.TWN_STATUS_ROLE 1).setSession 0 (some { control := true })), serves (by decide), by decide⟩,
    ⟨0, 0, 0, ((State.reset.setSession 0 (some { control := true })).put F.TWN_STATUS_TSTATE 6), serves (by decide), by decide⟩,
    ⟨0, 0, 0, (State.reset.setSession 0 (some { control := true })), serves (by decide)⟩,
    ⟨0, 0, 0, ((((State.reset.put F.TWN_STATUS_ROLE 1).setSession 0 (some { control := true })).put
    F.TWN_STATUS_PARTNER_TSTATE 3).put F.TWN_STATUS_SUSPECT 1), serves (by decide), by decide, by decide, by decide, by decide⟩,
    ⟨0, 0, 0, 0, ((State.reset.setSession 0 (some { control := true })).lp fun q => { q with taken := [(0, 1)] }),
    serves (by decide), by decide, by decide +kernel⟩,
    ⟨0, 0, 0, 0, (State.reset.setSession 0 (some { control := true })), serves (by decide), by decide⟩,
    ⟨0, 0, 0, 0, ((State.reset.setSession 0 (some { control := true })).lp fun q => { q with taken := [(0, 1)] }),
    serves (by decide), by decide⟩,
    ⟨0, 0, (State.reset.setSession 0 (some { control := true })), serves (by decide)⟩,
    ⟨0, 0, 0, 0, ((State.reset.setSession 0 (some { control := true })).lp fun
    q => { q with taken := [(0, 1)], store := [{ cluster := 0, number := 0, info := {}, addr := 0, size := 6979321856 }] }),
    serves (by decide), by decide +kernel, by decide +kernel⟩,
    ⟨0, 0, 0, 0, (State.reset.setSession 0 (some { control := true })), serves (by decide), by decide⟩,
    ⟨0, 0, 0, {},
    { State.reset with mgmt := { sessions := [(0, some {})], reads := [{ session := 0, req := 0, cls := 0, points := [0] }] } },
    by decide, by decide⟩⟩

theorem test_wit_RecorderAndPanel :
    (∃ s : State, s.on F.EVT_STATUS_RUNNING = false) ∧
    (∃ (r : Raise) (s : State), s.on F.EVT_STATUS_RUNNING = true ∧ s.recd.queue = [r] ∧ (s.codeRec r.code).noLimit = true ∧
    (s.codeRec r.code).clear = 0 ∧ s.nv.seq + 1 < 2 ^ 64) ∧
    (∃ (t : Nat) (r : Raise) (s : State), s.on F.EVT_STATUS_RUNNING = true ∧ s.recd.queue = [r] ∧
    (s.codeRec r.code).noLimit = false ∧ (s.codeRec r.code).clear = 0 ∧ r.code ≠ 0xE101 ∧ r.code ≠ 0xE102 ∧
    (s.codeRec r.code).code = r.code ∧ ((s.at t).bucket (s.codeRec r.code)).nano < 1000000000) ∧
    (∃ (c : Fin 65536) (t : Nat) (s : State), ((s.at t).bucket (s.codeRec c.val)).suppressed ≠ 0 ∧
    1000000000 ≤ ((s.at t).bucket (s.codeRec c.val)).nano) ∧
    (∃ (c : Fin 65536) (t : Nat) (s : State), ((s.at t).bucket (s.codeRec c.val)).suppressed = 0) ∧
    (∃ (t : Nat) (s : State), (s.at t).archDue = true) ∧
    (∃ (t : Nat) (s : State), (s.at t).panelMay = true ∧ s.on F.PNL_STATUS_PENDING = true) ∧
    (∃ (t : Nat) (s : State), (s.at t).panelMay = false) ∧
    (∃ (t : Nat) (s : State), s.on F.PNL_STATUS_UPDATING = true ∧ s.on F.PNL_STATUS_PANEL_FAULT = false ∧
    s.panel.lastStart.getD 0 + 600000000 ≤ max s.now t) ∧
    (∃ (t : Nat) (s : State), s.on F.PNL_STATUS_UPDATING = true ∧ s.panel.rewrite = true ∧
    s.on F.PNL_STATUS_PANEL_FAULT = false ∧ s.panel.lastStart.getD 0 + 600000000 ≤ max s.now t ∧ s.Room islPanel) ∧
    (∃ (t : Nat) (s : State), s.pd 1 = true ∧ s.on F.PNL_STATUS_UPDATING = false ∧ s.on F.MOD_STATUS_HOLDUP = false ∧
    s.panel.rewrite = false ∧ ((s.panel.checkAt = none ∨ ∃ a, s.panel.checkAt = some a ∧ a + 60000000000 ≤ max s.now t)) ∧
    s.Room islPanel) ∧
    (∃ s : State, s.pd 1 = false) ∧
    (∃ (t : Nat) (s : State), s.panel.lampTill ≤ max s.now t) ∧
    (∃ (ms : Nat) (s : State), ((ms < 100 ∨ 10000 < ms))) ∧
    (∃ (ms : Nat) (s : State), 2000 < ms ∧ ms ≤ 10000 ∧ s.on F.MOD_STATUS_HOLDUP = false ∧ s.on F.PNL_STATUS_STUCK = false ∧
    s.Room islSup) ∧
    (∃ (ms : Nat) (s : State), 100 ≤ ms ∧ ms ≤ 2000 ∧ s.on F.MOD_STATUS_HOLDUP = false ∧ s.on F.PNL_STATUS_STUCK = false ∧
    s.isActive = false) ∧
    (∃ (ms : Nat) (s : State), 100 ≤ ms ∧ ms ≤ 2000 ∧ s.on F.MOD_STATUS_HOLDUP = false ∧ s.on F.PNL_STATUS_STUCK = false ∧
    s.isActive = true ∧ 5 ≤ s.get F.MOD_STATUS_STAGE ∧ s.on F.PNL_STATUS_CONFIRM = false ∧ s.ptstate ≠ 3 ∧ s.Room islSup) ∧
    (∃ s : State, s.on F.MOD_STATUS_HOLDUP = false ∧ s.on F.PNL_STATUS_STUCK = false ∧ s.Room islSup) ∧
    (∃ s : State, s.on F.PNL_STATUS_STUCK = true ∧ s.Room islSup) ∧
    (∃ (t : Nat) (s : State), s.on F.PNL_STATUS_CONFIRM = true ∧ s.panel.confirmTill ≤ max s.now t ∧ s.Room islSup) ∧
    (∃ (t : Nat) (s : State), (s.at t).archDue = false) ∧
    (∃ (t : Nat) (s : State), (s.at t).panelMay = true ∧ s.panel.rewrite = true ∧ s.on F.PNL_STATUS_PENDING = false ∧
    s.panel.lastStart ≠ none) ∧
    (∃ (t : Nat) (s : State), s.on F.PNL_STATUS_UPDATING = true ∧ max s.now t < s.panel.lastStart.getD 0 + 600000000) ∧
    (∃ (t : Nat) (s : State), max s.now t < s.panel.lampTill) ∧
    (∃ (ms : Nat) (s : State), 100 ≤ ms ∧ ms ≤ 2000 ∧ s.on F.MOD_STATUS_HOLDUP = false ∧ s.on F.PNL_STATUS_STUCK = false ∧
    s.get F.MOD_STATUS_STAGE < 5 ∧ s.on F.MOD_STATUS_REDUCED = false) ∧
    (∃ (ms : Nat) (s : State), 100 ≤ ms ∧ ms ≤ 2000 ∧ s.on F.MOD_STATUS_HOLDUP = false ∧ s.on F.PNL_STATUS_STUCK = false ∧
    s.on F.PNL_STATUS_CONFIRM = true) :=
  ⟨
    ⟨State.reset, by decide⟩,
    ⟨{ code := 0, island := 0 },
    ({ (im { events := { codes := [{ code := 0, noLimit := true }] } }) with recd := { queue := [{ code := 0, island := 0 }] } }.put
    F.EVT_STATUS_RUNNING 1), by decide, by decide, by decide, by decide, by decide⟩,
    ⟨0, { code := 0, island := 0 },
    ({ State.reset with recd := { queue := [{ code := 0, island := 0 }], buckets := [(0, some { nano := 0, at_ := 0 })] } }.put
    F.EVT_STATUS_RUNNING 1), by decide, by decide, by decide, by decide, by decide, by decide, by decide, by decide⟩,
    ⟨0, 0, { State.reset with recd := { buckets := [(0, some { nano := 1000000000, at_ := 0, suppressed := 1 })] } }, by decide,
    by decide⟩,
    ⟨0, 0, State.reset, by decide⟩,
    ⟨0, (State.reset.inNv fun q => { q with seq := 1 }), by decide⟩,
    ⟨0, ((State.reset.put F.PNL_STATUS_PENDING 1).setBit R.PWR_ON 1 true), by decide, by decide⟩,
    ⟨0, State.reset, by decide⟩,
    ⟨1000000000000000, (State.reset.put F.PNL_STATUS_UPDATING 1), by decide, by decide, by decide⟩,
    ⟨1000000000000000, (((State.reset.put F.PNL_STATUS_UPDATING 1).pn fun q => { q with rewrite := true }).pn
    fun q => { q with rewrite := true }), by decide, by decide, by decide, by decide, by decide⟩,
    ⟨1000000000000000, (State.reset.setBit R.PWR_ON 1 true), by decide, by decide, by decide, by decide, by decide, by decide⟩,
    ⟨State.reset, by decide⟩,
    ⟨1000000000000000, State.reset, by decide⟩,
    ⟨0, State.reset, by decide⟩,
    ⟨2001, State.reset, by decide, by decide, by decide, by decide, by decide⟩,
    ⟨100, State.reset, by decide, by decide, by decide, by decide, by decide⟩,
    ⟨100, ((State.reset.put F.TWN_STATUS_ROLE 1).put F.MOD_STATUS_STAGE 5), by decide, by decide, by decide, by decide,
    by decide, by decide, by decide, by decide, by decide⟩,
    ⟨State.reset, by decide, by decide, by decide⟩,
    ⟨(State.reset.put F.PNL_STATUS_STUCK 1), by decide, by decide⟩,
    ⟨1000000000000000, (State.reset.put F.PNL_STATUS_CONFIRM 1), by decide, by decide, by decide⟩,
    ⟨0, State.reset, by decide⟩,
    ⟨100000000000, (((State.reset.pn fun q => { q with rewrite := true }).setBit
    R.PWR_ON 1 true).pn fun q => { q with lastStart := some 0 }), by decide, by decide, by decide, by decide⟩,
    ⟨0, (State.reset.put F.PNL_STATUS_UPDATING 1), by decide, by decide⟩,
    ⟨0, (State.reset.pn fun q => { q with lampTill := 1 }), by decide⟩,
    ⟨100, State.reset, by decide, by decide, by decide, by decide, by decide, by decide⟩,
    ⟨100, (State.reset.put F.PNL_STATUS_CONFIRM 1), by decide, by decide, by decide, by decide, by decide⟩⟩

theorem test_wit_BoundaryAndClose :
    (∃ (n : Nat) (s : State), s.boundaryRuns n = false) ∧
    (∃ (n : Nat) (ready : Bool) (cs : List (Fin 32 × Nat)) (st : List (Fin 4 × Fin 65)) (s : State), s.boundaryRuns n = true ∧
    ((s.img = none ∨ ((((s.at (boundaryNs n)).snapBoundary n).countBoundary n).controlBoundary
    n ready (cs.map fun e => (e.1.val, e.2)) (st.map fun e => (e.1.val, e.2.val))).img ≠ none))) ∧
    (∃ (n : Nat) (s : State), s.boundaryRuns n = true) ∧
    (∃ (n : Nat) (s : State), n < 2 ^ 64) ∧
    (∃ s : State, ((s.img = none ∨ s.time.running = false ∨ s.rd64 R.SIG_CLOSED = s.count))) ∧
    (∃ (t : Nat) (s : State), s.img ≠ none ∧ s.time.running = true ∧ s.rd64 R.SIG_CLOSED ≠ s.count ∧
    (s.at t).closeOpen.closable s.count = true) ∧
    (∃ (n : Nat) (s : State), n < 2 ^ 64) ∧
    (∃ (p : Nat) (f : Force) (s : State), s.sig.forces = [f] ∧ f.point = p) :=
  ⟨
    ⟨0, State.reset, by decide⟩,
    ⟨1, false, [], [], ((State.reset.tm fun q => { q with running := true }).setBit R.PWR_ON 22 true), by decide, by decide⟩,
    ⟨1, ((State.reset.tm fun q => { q with running := true }).setBit R.PWR_ON 22 true), by decide⟩,
    ⟨0, State.reset, by decide⟩,
    ⟨State.reset, by decide⟩,
    ⟨0, ((((im {}).tm fun q => { q with running := true }).tm fun q => { q with running := true }).wrN R.SIG_CLOSED 1),
    by decide, by decide, by decide, by decide⟩,
    ⟨0, State.reset, by decide⟩,
    ⟨0, { point := 0 }, { State.reset with sig := { forces := [{ point := 0 }] } }, by decide, by decide⟩⟩
end Sys2Proof.Tests
end

section
/-! What reset leaves (00 R18). -/
namespace Sys2Proof.Machine

/-- A key that no entry of a table has reads as the default. -/
theorem tget_of_unlisted {α : Type} (d : α) {t : Tab α} {i : Nat} (h : ∀ e ∈ t, e.1 ≠ i) : tget d t i = d := by
  induction t with
  | nil => rfl
  | cons e t ih =>
    obtain ⟨k, v⟩ := e
    have hk : k ≠ i := h (k, v) (List.mem_cons_self ..)
    simp only [tget, if_neg hk]
    exact ih fun e he => h e (List.mem_cons_of_mem _ he)

/-- The registers that reset leaves with a word that is not zero. -/
theorem resetRegs_keys {e : Nat × Word} (h : e ∈ resetRegs) :
    e.1 ∈ [R.ID_PART, R.PWR_ON, R.TWN_STATUS, R.TIM_STATUS, R.IMG_KEYS] ∨
      (∃ c : Fin 4, e.1 = R.CAN_STATUS c.val) ∨ ∃ c : Fin 32, e.1 = R.TRC_COUNTS c.val := by
  simp only [resetRegs, List.mem_append, List.mem_map, List.mem_range] at h
  obtain (h | ⟨c, hc, rfl⟩) | ⟨c, hc, rfl⟩ := h
  · have hall : ∀ e ∈ [(0, (0x4000 : Word)), (0x10100, 1), (0x20080, 1), (0x180000, 0xF00), (0x1C0000, 0x18)],
        e.1 ∈ [R.ID_PART, R.PWR_ON, R.TWN_STATUS, R.TIM_STATUS, R.IMG_KEYS] := by decide
    exact .inl (hall e h)
  · exact .inr (.inl ⟨⟨c, hc⟩, rfl⟩)
  · exact .inr (.inr ⟨⟨c, hc⟩, rfl⟩)

/-- Every register but those whose reset word is stated reads zero after reset. -/
theorem rdN_reset_of_unlisted {o : Nat} (h : ¬ o ∈ [R.ID_PART, R.PWR_ON, R.TWN_STATUS, R.TIM_STATUS, R.IMG_KEYS])
    (hcan : ∀ c : Fin 4, o ≠ R.CAN_STATUS c.val) (htrc : ∀ c : Fin 32, o ≠ R.TRC_COUNTS c.val) :
    State.reset.rdN o = 0 := by
  have hz : State.reset.rd o = 0 := tget_of_unlisted 0 fun e he heq => by
    obtain hl | ⟨c, hc⟩ | ⟨c, hc⟩ := resetRegs_keys he
    · exact h (heq ▸ hl)
    · exact hcan c (heq.symm.trans hc)
    · exact htrc c (heq.symm.trans hc)
  rw [State.rdN, hz]
  rfl

/-- The state after reset is in canonical form. -/
theorem reset_canon : State.reset.Canon := ⟨resetRegs_twf, rfl, rfl, rfl⟩

/-- Settles O2: the stated words are read off the table of reset words, and no other register stands in it. -/
theorem resetLeaves : Obligations.ResetLeaves := by
  refine ⟨rfl, rfl, rfl, rfl, rfl, ?can, ?trace, fun _ => rdN_reset_of_unlisted, rfl, rfl, rfl, rfl, reset_canon,
    ⟨rfl, rfl⟩, ⟨rfl, Nat.zero_le _⟩⟩
  case can => decide
  case trace => decide

end Sys2Proof.Machine
end

section
/-! Rules of the shared operations: raises, core pairs, registers alone, words and rule sets of the access control. -/
namespace Sys2Proof.Machine

/-! ## Registers alone -/

theorem SameRegs.wr {s t : State} {l : List Nat} {o : Nat} (w : Word) (ho : o ∈ l) (h : SameRegs s t l) :
    SameRegs s (t.wr o w) l := fun p hp => by
  rw [State.rd_wr_ne _ _ fun e : o = p => hp (e ▸ ho)]
  exact h p hp

theorem SameRegs.put {s t : State} {l : List Nat} {f : Fld} (v : Nat) (ho : f.off ∈ l) (h : SameRegs s t l) :
    SameRegs s (t.put f v) l := SameRegs.wr _ ho h

/-- A state whose registers are those of another. -/
theorem SameRegs.of_regs {s t u : State} {l : List Nat} (hu : u.regs = t.regs) (h : SameRegs s t l) : SameRegs s u l :=
  fun p hp => (congrArg (tget 0 · p) hu).trans (h p hp)

theorem OnlyRegs.wrWords {s t : State} {l : List Nat} {o : Nat} {ws : List Nat}
    (ho : ∀ i < ws.length, o + 4 * i ∈ l) (h : OnlyRegs s t l) : OnlyRegs s (t.wrWords o ws) l := by
  induction ws generalizing t o with
  | nil => exact h
  | cons w ws ih =>
    refine ih (fun i hi => ?_) (OnlyRegs.wrN w (ho 0 (Nat.zero_lt_succ _)) h)
    have hn := ho (i + 1) (Nat.succ_lt_succ hi)
    rwa [show o + 4 * (i + 1) = o + 4 + 4 * i by omega] at hn

theorem OnlyRegs.recd {s t : State} {l : List Nat} (h : OnlyRegs s t l) : t.recd = s.recd := by rw [h.1]

/-- A one-bit field that is not set is zero. -/
theorem State.get_of_not_on {s : State} {f : Fld} (hf : f.len = 1) (h : s.on f = false) : s.get f = 0 := by
  have hlt : s.get f < 2 ^ f.len := Nat.mod_lt _ (Nat.two_pow_pos _)
  have hne : s.get f ≠ 1 := by simpa [State.on] using h
  rw [hf] at hlt
  omega

/-- A word of a list of words that was written from an offset. -/
theorem State.rd_wrWords (s : State) (o : Nat) (ws : List Nat) {i : Nat} (hi : i < ws.length) :
    (s.wrWords o ws).rd (o + 4 * i) = BitVec.ofNat 32 ws[i] := by
  induction ws generalizing s o i with
  | nil => exact absurd hi (Nat.not_lt_zero i)
  | cons w ws ih =>
    cases i with
    | zero =>
      have hrest : OnlyRegs (s.wrN o w) ((s.wrN o w).wrWords (o + 4) ws) ((List.range ws.length).map (o + 4 + 4 * ·)) :=
        OnlyRegs.wrWords (fun i hi => List.mem_map.2 ⟨i, List.mem_range.2 hi, rfl⟩) (OnlyRegs.refl _ _)
      refine (hrest.2 o fun hm => ?_).trans (State.rd_wr_same _ _ _)
      obtain ⟨j, _, hj⟩ := List.mem_map.1 hm
      omega
    | succ i =>
      rw [show o + 4 * (i + 1) = o + 4 + 4 * i by omega]
      exact ih (s.wrN o w) (o + 4) (Nat.lt_of_succ_lt_succ hi)

/-! ## Core pairs -/

@[simp] theorem State.co_regs (s : State) (c : Nat) (f : CoreState → CoreState) : (s.co c f).regs = s.regs := rfl
@[simp] theorem State.co_mem (s : State) (c : Nat) (f : CoreState → CoreState) : (s.co c f).mem = s.mem := rfl
@[simp] theorem State.co_recd (s : State) (c : Nat) (f : CoreState → CoreState) : (s.co c f).recd = s.recd := rfl
@[simp] theorem State.co_rd (s : State) (c o : Nat) (f : CoreState → CoreState) : (s.co c f).rd o = s.rd o := rfl
@[simp] theorem State.co_get (s : State) (c : Nat) (f : CoreState → CoreState) (g : Fld) : (s.co c f).get g = s.get g := rfl

/-! ## Raises with room for them -/

theorem State.raise_room_regs {s : State} {isl : Nat} (h : s.Room isl) (code : Nat) (data : List Byte) :
    (s.raise code isl data).regs = s.regs := by rw [State.raise_room s h]

theorem State.raise_room_rd {s : State} {isl : Nat} (h : s.Room isl) (code : Nat) (data : List Byte) (o : Nat) :
    (s.raise code isl data).rd o = s.rd o := congrArg (tget 0 · o) (State.raise_room_regs h code data)

theorem State.raise_room_get {s : State} {isl : Nat} (h : s.Room isl) (code : Nat) (data : List Byte) (f : Fld) :
    (s.raise code isl data).get f = s.get f := by rw [State.get, State.raise_room_rd h, State.get]

/-- A raise after operations that leave the recorder as it is. -/
theorem Raises.raise {s t : State} {isl : Nat} (h : s.Room isl) (ht : t.recd = s.recd) (code : Nat) (data : List Byte) :
    Raises s (t.raise code isl data) code isl data := by
  have hroom : t.Room isl := by rwa [State.Room, ht]
  refine ⟨t.raised code isl data, ?_, rfl, rfl, rfl⟩
  rw [State.raise_room t hroom, ht]

/-! ## Rule sets (13 R603) -/

/-- The registers of one set of a core pair: 64 slot words, and the two words of each of 16 regions. -/
def accSetRegs (slot rbase : Nat) : List Nat := (List.range 64).map (slot + 4 * ·) ++ (List.range 32).map (rbase + 4 * ·)

theorem mem_accSetRegs {slot rbase o : Nat} :
    o ∈ accSetRegs slot rbase ↔ (∃ n < 64, o = slot + 4 * n) ∨ ∃ n < 32, o = rbase + 4 * n := by
  simp only [accSetRegs, List.mem_append, List.mem_map, List.mem_range, eq_comm (b := o)]

/-- The region words alone: what `accSet` writes after the slots. -/
theorem State.accSet_regions (s : State) (slot rbase : Nat) (a : AccRec) :
    OnlyRegs (s.wrWords slot ((List.range 64).map fun n => State.accSet.nth a.slots n % 512)) (s.accSet slot rbase a)
      ((List.range 32).map (rbase + 4 * ·)) := by
  unfold State.accSet
  refine OnlyRegs.each (fun n hn u hu => ?_) (OnlyRegs.refl _ _)
  have hlt : n < 16 := List.mem_range.1 hn
  refine OnlyRegs.wrN _ (List.mem_map.2 ⟨2 * n + 1, List.mem_range.2 (by omega), ?_⟩)
    (OnlyRegs.wrN _ (List.mem_map.2 ⟨2 * n, List.mem_range.2 (by omega), ?_⟩) hu)
  all_goals omega

/-- A rule set is written into its registers alone. -/
theorem State.accSet_only (s : State) (slot rbase : Nat) (a : AccRec) :
    OnlyRegs s (s.accSet slot rbase a) (accSetRegs slot rbase) := by
  have hslots : OnlyRegs s (s.wrWords slot ((List.range 64).map fun n => State.accSet.nth a.slots n % 512))
      (accSetRegs slot rbase) :=
    OnlyRegs.wrWords (fun i hi => mem_accSetRegs.2 (.inl ⟨i, by simpa using hi, rfl⟩)) (OnlyRegs.refl _ _)
  have hregions := State.accSet_regions s slot rbase a
  refine hslots.trans ⟨hregions.1, hregions.2.mono fun o ho => ?_⟩
  exact List.mem_append_right _ ho

@[simp] theorem State.accSet_recd (s : State) (slot rbase : Nat) (a : AccRec) : (s.accSet slot rbase a).recd = s.recd :=
  (State.accSet_only s slot rbase a).recd

/-- A slot of a rule set that was written, the slot words standing apart from the region words. -/
theorem State.rd_accSet_slot (s : State) {slot rbase n : Nat} (a : AccRec) (hn : n < 64)
    (hapart : slot + 256 ≤ rbase ∨ rbase + 128 ≤ slot) :
    (s.accSet slot rbase a).rd (slot + 4 * n) = BitVec.ofNat 32 ((a.slots[n]?).getD 0 % 512) := by
  have hout : ¬ slot + 4 * n ∈ (List.range 32).map (rbase + 4 * ·) := fun hm => by
    obtain ⟨j, hj, he⟩ := List.mem_map.1 hm
    have := List.mem_range.1 hj
    omega
  rw [(State.accSet_regions s slot rbase a).2 _ hout, State.rd_wrWords _ _ _ (by simpa using hn)]
  simp [State.accSet.nth]

end Sys2Proof.Machine
end

section
/-! Loads and stores of registers (00 R18, R20; 03 R108; 04 R156, R195; 06 R304; 13 R602, R604, R605, R613). -/
namespace Sys2Proof.Machine

/-! ## The commands -/

theorem exec_registerWrite (cp : Option (Fin 32)) (lv : Fin 4) (off : BitVec 32) (v : Word) (t : Nat) (s : State) :
    exec (.registerWrite cp lv off v t) s = execRegisterWrite cp lv off v t s := by rfl

theorem exec_latchedLowWordRead (off : BitVec 32) (s : State) :
    exec (.latchedLowWordRead off) s = .next (s.readOut off.toNat) := by rfl

theorem exec_rcFieldRead (off : BitVec 32) (s : State) : exec (.rcFieldRead off) s = .next (s.readOut off.toNat) := by rfl

theorem exec_accFaddrRead (c : Fin 32) (s : State) :
    exec (.accFaddrRead c) s = .next (s.readOut (R.ACC_FADDR_LO c.val)) := by rfl

theorem exec_accLoad (c : Fin 32) (p : Fin 256) (s : State) :
    exec (.accLoad c p) s = .next (s.accLoad c.val p.val) := by rfl

theorem exec_accLoadComplete (c : Fin 32) (s : State) : exec (.accLoadComplete c) s = execAccLoadComplete c s := by rfl

/-! ## Stores -/

theorem plainWrite_of_row (s : State) {off : Nat} (v : Word) {r : RegRow} (h : regRow? off = some r) :
    s.plainWrite off v = s.wr off ((((s.rd off) &&& ~~~BitVec.ofNat 32 r.rw) ||| (v &&& BitVec.ofNat 32 r.rw)) &&&
      ~~~(v &&& BitVec.ofNat 32 r.w1c)) := by
  simp only [State.plainWrite, h]

/-- Each bit after a plain write, by its access code (00 R18). -/
theorem plainWrite_bit (s : State) {off : Nat} (v : Word) {r : RegRow} {i : Nat} (h : regRow? off = some r) (hi : i < 32) :
    ((s.plainWrite off v).rd off).getLsbD i =
      (if ((BitVec.ofNat 32 r.w1c).getLsbD i && v.getLsbD i) = true then false
       else if (BitVec.ofNat 32 r.rw).getLsbD i = true then v.getLsbD i else (s.rd off).getLsbD i) := by
  rw [plainWrite_of_row s v h, State.rd_wr_same]
  simp only [BitVec.getLsbD_and, BitVec.getLsbD_or, BitVec.getLsbD_not, hi, decide_true, Bool.true_and]
  rw [Bool.and_comm (v.getLsbD i) ((BitVec.ofNat 32 r.w1c).getLsbD i)]
  split
  · next hclear => simp [hclear]
  · next hkeep =>
    rw [Bool.not_eq_true] at hkeep
    cases (BitVec.ofNat 32 r.rw).getLsbD i <;> simp [hkeep]

/-- A field of RW bits takes the written ones. -/
theorem plainWrite_get_rw (s : State) {f : Fld} (v : Word) {r : RegRow} (h : regRow? f.off = some r) (hf : f.lo + f.len ≤ 32)
    (hrw : ∀ i < f.len, (BitVec.ofNat 32 r.rw).getLsbD (f.lo + i) = true ∧
      (BitVec.ofNat 32 r.w1c).getLsbD (f.lo + i) = false) :
    (s.plainWrite f.off v).get f = getBits v f.lo f.len := by
  apply Nat.eq_of_testBit_eq
  intro i
  rw [State.get, getBits_testBit, getBits_testBit]
  by_cases hi : i < f.len
  · obtain ⟨hset, hkeep⟩ := hrw i hi
    rw [plainWrite_bit s v h (by omega), hkeep, if_neg (by simp), if_pos hset]
  · simp [hi]

theorem plainWrite_only (s : State) (off : Nat) (v : Word) : OnlyRegs s (s.plainWrite off v) [off] := by
  unfold State.plainWrite
  split
  · exact OnlyRegs.wr _ (by simp) (OnlyRegs.refl _ _)
  · exact OnlyRegs.refl _ _

/-- A register outside ACC_CTL takes a store at a level that may write it, and none at another. -/
theorem regWrite_of_row (s : State) (cp : Option Nat) (lv : Nat) {off : Nat} (v : Word) {r : RegRow} (h : regRow? off = some r)
    (hctl : ¬(0x241000 ≤ off ∧ off < 0x241800 ∧ off % 0x40 = 0)) :
    s.regWrite cp lv off v = if r.writable lv then s.regAct lv off v else (s, .denied) := by
  simp only [State.regWrite, h]
  rw [if_neg hctl]

theorem mgmtStore_register (s : State) (cp : Option Nat) (lv : Nat) {off : Nat} (v : Word) (h : off < 0x10000000) :
    s.mgmtStore cp lv off v = s.regWrite cp lv off v := by
  rw [State.mgmtStore, if_pos h]

theorem mgmtStore_imageWindow (s : State) (cp : Option Nat) (lv : Nat) {off : Nat} (v : Word) (h : imageWindow off = true) :
    s.mgmtStore cp lv off v = (s.put F.SIG_STATUS_STORE_FAULT 1, .denied) := by
  have hlow : ¬ off < 0x10000000 := by
    simp only [imageWindow, Bool.and_eq_true, decide_eq_true_eq] at h
    omega
  rw [State.mgmtStore, if_neg hlow, if_pos h]

/-- Below the windows no store is refused. -/
theorem storeRefused_register {off : Nat} (h : off < 0x10000000) : storeRefused off 4 = false := by
  simp [storeRefused, imageWindow, slotWindow, show ¬ 0x10000000 ≤ off by omega, show ¬ 0x20000000 ≤ off by omega]

/-- A store that no window refuses, to an island that is on. -/
theorem registerWrite_online (cp : Option (Fin 32)) (lv : Fin 4) {off : BitVec 32} (v : Word) (t : Nat) {s : State}
    (hw : cp.isSome = true → storeRefused off.toNat 4 = false) (hon : s.offlineAt off.toNat = none) :
    exec (.registerWrite cp lv off v t) s =
      .next ((s.at t).mgmtStore (cp.map fun c => c.val) lv.val off.toNat v).1 := by
  have hon' : (s.at t).offlineAt off.toNat = none := hon
  rw [exec_registerWrite]
  cases cp with
  | none => simp only [execRegisterWrite, hon', Option.map_none]
  | some c => simp [execRegisterWrite, hw rfl, hon']

/-- A store to an island that is off (03 R108). -/
theorem registerWrite_offline (cp : Option (Fin 32)) (lv : Fin 4) {off : BitVec 32} (v : Word) (t : Nat) {n : Nat} {s : State}
    (hw : storeRefused off.toNat 4 = false) (hoff : s.offlineAt off.toNat = some n) :
    exec (.registerWrite cp lv off v t) s = .next ((s.at t).noIsland ((cp.map fun c => c.val).getD islMgmt) n) := by
  have hoff' : (s.at t).offlineAt off.toNat = some n := hoff
  rw [exec_registerWrite]
  cases cp with
  | none => simp [execRegisterWrite, hoff']
  | some c => simp [execRegisterWrite, hw, hoff']

/-- A store to a register outside ACC_CTL whose island is on. -/
theorem registerWrite_row (cp : Option (Fin 32)) (lv : Fin 4) {off : BitVec 32} (v : Word) (t : Nat) {r : RegRow} {s : State}
    (hon : s.offlineAt off.toNat = none) (hlow : off.toNat < 0x10000000)
    (hctl : ¬(0x241000 ≤ off.toNat ∧ off.toNat < 0x241800 ∧ off.toNat % 0x40 = 0)) (hr : regRow? off.toNat = some r) :
    exec (.registerWrite cp lv off v t) s =
      .next (if r.writable lv.val then (s.at t).regAct lv.val off.toNat v else (s.at t, .denied)).1 := by
  rw [registerWrite_online cp lv v t (fun _ => storeRefused_register hlow) hon, mgmtStore_register _ _ _ _ hlow,
    regWrite_of_row _ _ _ _ hr hctl]

/-- A core pair's store that a window refuses is a denial (04 R156, 06 R304, 13 R602). -/
theorem registerWrite_refused (c : Fin 32) (lv : Fin 4) {off : BitVec 32} (v : Word) (t : Nat) (s : State)
    (h : storeRefused off.toNat 4 = true) : exec (.registerWrite (some c) lv off v t) s =
      .next ((s.at t).denyStore c.val lv.val (0xFF00000000 + off.toNat) 4 false) := by
  simp only [exec_registerWrite, execRegisterWrite, h, if_true]

/-- A transaction to an island that is off: 0x2040 and NO_ISLAND, and no register changes (03 R108). -/
theorem noIsland_room {s : State} {n : Nat} (h : s.Room n) (src : Nat) :
    Raises s (s.noIsland src n) 0x2040 n [] ∧ (s.noIsland src n).out = s.out ++ [.response src 2] ∧
      (s.noIsland src n).regs = s.regs := by
  refine ⟨Raises.raise h rfl _ _, ?_, State.raise_room_regs h _ _⟩
  simp [State.noIsland]

/-! ## Denials (13 R602) -/

theorem slotOf_imageWindow {off : Nat} (h : imageWindow off = true) : ∃ n, slotOf off = some n ∧ 35 ≤ n ∧ n ≤ 38 := by
  simp only [imageWindow, Bool.and_eq_true, Bool.not_eq_true', Bool.and_eq_false_iff, decide_eq_true_eq,
    decide_eq_false_iff_not] at h
  unfold slotOf
  repeat rw [if_neg (by omega)]
  by_cases hvalue : off < 0x10400000
  · exact ⟨35, if_pos hvalue, by decide, by decide⟩
  rw [if_neg hvalue]
  by_cases hqual : off < 0x10500000
  · exact ⟨36, if_pos hqual, by decide, by decide⟩
  rw [if_neg hqual, if_neg (by omega)]
  by_cases hprev : off < 0x10C00000
  · exact ⟨37, if_pos hprev, by decide, by decide⟩
  rw [if_neg hprev, if_pos (by omega)]
  exact ⟨38, rfl, by decide, by decide⟩

theorem slotOf_slotWindow {off : Nat} (h : slotWindow off = true) : ∃ n, slotOf off = some n ∧ 39 ≤ n := by
  simp only [slotWindow, Bool.and_eq_true, decide_eq_true_eq] at h
  unfold slotOf
  repeat rw [if_neg (by omega)]
  rw [if_pos h.2]
  exact ⟨_, rfl, Nat.le_add_right ..⟩

theorem isMgmt_window {off : Nat} (h : off < 2 ^ 32) : isMgmt (0xFF00000000 + off) = true := by
  simp only [isMgmt, Bool.and_eq_true, decide_eq_true_eq]
  omega

theorem mgmtOff_window (off : Nat) : mgmtOff (0xFF00000000 + off) = off := Nat.add_sub_cancel_left ..

theorem denialEvent_imageWindow {off : Nat} (h : imageWindow off = true) (hlt : off < 2 ^ 32) (c lv kind idx : Nat)
    (size : Bool) :
    denialEvent c (0xFF00000000 + off) lv kind idx size = (0x3002, le 8 (0xFF00000000 + off) ++ le 1 c) := by
  obtain ⟨n, hn, hlo, hhi⟩ := slotOf_imageWindow h
  simp only [denialEvent, isMgmt_window hlt, mgmtOff_window, hn, if_true, Option.getD_some]
  rw [if_pos ⟨hlo, hhi⟩]

theorem denialEvent_slotWindow {off : Nat} (h : slotWindow off = true) (hlt : off < 2 ^ 32) (c lv kind idx : Nat)
    (size : Bool) :
    denialEvent c (0xFF00000000 + off) lv kind idx size = (0x500A, le 8 (0xFF00000000 + off) ++ le 1 c) := by
  obtain ⟨n, hn, hlo⟩ := slotOf_slotWindow h
  simp only [denialEvent, isMgmt_window hlt, mgmtOff_window, hn, if_true, Option.getD_some]
  rw [if_neg (by omega), if_pos hlo]

/-- The fault registers of a core pair after a denial of an address, and what a read of ACC_FADDR_LO will latch. -/
def State.faultNoted (s : State) (c a info : Nat) : State :=
  (((s.setBit R.ACC_STATUS c true).wrN (R.ACC_FADDR_LO c) a).bump ⟨R.ACC_FCOUNT c, 0, 32⟩ 1).co c fun k =>
    { k with faultHi := BitVec.ofNat 32 (bitsOf a 32 8 + 256 * b2n (decide (2 ^ 40 ≤ a))), faultInfo := BitVec.ofNat 32 info }

/-- A denial by its event: the fault registers, STORE_FAULT where a store meets an image window, the event. -/
theorem deny_of_event (s : State) {c a lv kind m idx code : Nat} {size spill : Bool} {data : List Byte}
    (h : denialEvent c a lv kind idx size = (code, data)) : ∃ info, s.deny c a lv kind m idx size spill =
      (if code = 0x3002 ∧ kind = 1 then (s.faultNoted c a info).put F.SIG_STATUS_STORE_FAULT 1
        else s.faultNoted c a info).raise code c data :=
  ⟨_, by simp only [State.deny, h]; rfl⟩

theorem faultNoted_recd (s : State) (c a info : Nat) : (s.faultNoted c a info).recd = s.recd := rfl

theorem faultNoted_sameRegs (s : State) (c a info : Nat) :
    SameRegs s (s.faultNoted c a info) [R.ACC_STATUS, R.ACC_FADDR_LO c, R.ACC_FCOUNT c] :=
  SameRegs.of_regs (State.co_regs _ _ _) (SameRegs.put _ (by simp) (SameRegs.wr _ (by simp) (SameRegs.wr _ (by simp)
    (SameRegs.refl _ _))))

theorem faultNoted_addr (s : State) (c a info : Nat) : (s.faultNoted c a info).rdN (R.ACC_FADDR_LO c) = a % 2 ^ 32 := by
  have hne : R.ACC_FCOUNT c ≠ R.ACC_FADDR_LO c := by simp [R.ACC_FCOUNT, R.ACC_FADDR_LO]
  rw [State.rdN, State.faultNoted, State.co_rd, State.bump, State.rd_put_ne _ _ hne, State.wrN, State.rd_wr_same,
    BitVec.toNat_ofNat]

theorem faultNoted_status (s : State) {c : Nat} (a info : Nat) (hc : c < 32) :
    ((s.faultNoted c a info).rd R.ACC_STATUS).getLsbD c = true := by
  have hcount : R.ACC_FCOUNT c ≠ R.ACC_STATUS := by simp only [R.ACC_FCOUNT, R.ACC_STATUS]; omega
  have haddr : R.ACC_FADDR_LO c ≠ R.ACC_STATUS := by simp only [R.ACC_FADDR_LO, R.ACC_STATUS]; omega
  rw [State.faultNoted, State.co_rd, State.bump, State.rd_put_ne _ _ hcount, State.wrN, State.rd_wr_ne _ _ haddr,
    State.setBit, State.rd_wr_same, putBits_getLsbD _ _ _ _ _ hc, if_pos ⟨Nat.le_refl c, Nat.lt_succ_self c⟩]
  simp [b2n]

theorem denyStore_imageWindow (s : State) {off : Nat} (h : imageWindow off = true) (hlt : off < 2 ^ 32) (c lv : Nat) :
    ∃ info, s.denyStore c lv (0xFF00000000 + off) 4 false =
      ((s.faultNoted c (0xFF00000000 + off) info).put F.SIG_STATUS_STORE_FAULT 1).raise 0x3002 c
        (le 8 (0xFF00000000 + off) ++ le 1 c) :=
  deny_of_event s (denialEvent_imageWindow h hlt c lv 1 _ _)

theorem denyStore_slotWindow (s : State) {off : Nat} (h : slotWindow off = true) (hlt : off < 2 ^ 32) (c lv : Nat) :
    ∃ info, s.denyStore c lv (0xFF00000000 + off) 4 false =
      (s.faultNoted c (0xFF00000000 + off) info).raise 0x500A c (le 8 (0xFF00000000 + off) ++ le 1 c) :=
  deny_of_event s (denialEvent_slotWindow h hlt c lv 1 _ _)

/-! ## Loads -/

/-- Registers whose read shows their word: no view, no word that is computed, no latched high word. -/
def showsWord (off : Nat) : Bool :=
  !(decide (0x1000 ≤ off) && decide (off < 0x2000)) && !(decide (0x300100 ≤ off) && decide (off < 0x300140)) &&
  !decide (off = R.PNL_LAMPS) && !(decide (0x10040 ≤ off) && decide (off < 0x10060)) &&
  !(decide (0x2C0000 ≤ off) && decide (off < 0x2C4000)) && !latchedLows.contains (off - 4) && (regRow? off).isSome

theorem regShow_of_showsWord (s : State) {off : Nat} (h : showsWord off = true) : s.regShow off = s.rd off := by
  simp only [showsWord, Bool.and_eq_true, Bool.not_eq_true', Bool.and_eq_false_iff, decide_eq_false_iff_not] at h
  obtain ⟨⟨⟨⟨⟨⟨hsum, hview⟩, hlamps⟩, hstage⟩, hcan⟩, hlatch⟩, hrow⟩ := h
  have hst : s.get F.MOD_STATUS_STAGE < 8 := Nat.mod_lt _ (by decide)
  have hms : off ≠ R.MOD_STAGE_MS (s.get F.MOD_STATUS_STAGE) := by
    simp only [R.MOD_STAGE_MS]
    omega
  obtain ⟨r, hr⟩ := Option.isSome_iff_exists.1 hrow
  unfold State.regShow
  rw [if_neg (by omega), if_neg (by omega), if_neg hlamps, if_neg hms, if_neg (by omega),
    if_neg fun hl => Bool.false_ne_true (hlatch.symm.trans hl.1), hr]

theorem readOut_online {s : State} {off : Nat} (h : s.offlineAt off = none) :
    s.readOut off = (s.regRead off).1.send (.read off (s.regRead off).2) := by
  simp only [State.readOut, h]

/-- A read of a register that is neither TIM_NS nor CAN_BSTAT. -/
theorem regRead_register (s : State) {off : Nat} (hns : off ≠ R.TIM_NS)
    (hcan : ¬(0x2C0000 ≤ off ∧ off < 0x2C4000 ∧ off % 0x1000 = 0x34)) :
    s.regRead off = (s.regAfter off, s.regShow off) := by
  rw [State.regRead, if_neg hns, if_neg hcan]

/-- A latched low word shows its word and latches its high word (04 R195). -/
theorem regRead_latchedLow (s : State) {off : Nat} (h : off ∈ latchedLows) :
    s.regRead off = ({ s with latch := tset 0 s.latch (off + 4) (s.rd (off + 4)) }, s.rd off) := by
  have hall : ∀ o ∈ latchedLows, showsWord o = true ∧ o ≠ R.TIM_NS ∧
      ¬(0x2C0000 ≤ o ∧ o < 0x2C4000 ∧ o % 0x1000 = 0x34) := by
    decide
  obtain ⟨hshow, hns, hcan⟩ := hall off h
  rw [regRead_register s hns hcan, regShow_of_showsWord s hshow, State.regAfter, if_pos (by simpa using h)]

/-- RC bits are cleared by the read (00 R20). -/
theorem regAfter_rc (s : State) {off : Nat} {r : RegRow} (hr : regRow? off = some r) (hlow : off < 0x240000)
    (hlatch : off ∉ latchedLows) (hrc : r.rc ≠ 0) : s.regAfter off = s.wr off (s.rd off &&& ~~~BitVec.ofNat 32 r.rc) := by
  unfold State.regAfter
  rw [if_neg (by simpa using hlatch), if_neg (by omega), if_neg (by omega), hr]
  exact if_neg hrc

/-- A read of ACC_FADDR_LO latches ACC_FADDR_HI and ACC_FINFO (13 R613). -/
theorem regRead_accFaddrLo (s : State) (c : Fin 32) : s.regRead (R.ACC_FADDR_LO c.val) =
    ((s.wr (R.ACC_FADDR_HI c.val) (s.core c.val).faultHi).wr (R.ACC_FINFO c.val) (s.core c.val).faultInfo,
      s.rd (R.ACC_FADDR_LO c.val)) := by
  have hall : ∀ c : Fin 32, showsWord (R.ACC_FADDR_LO c.val) = true ∧ R.ACC_FADDR_LO c.val ∉ latchedLows ∧
      R.ACC_FADDR_LO c.val ≠ R.TIM_NS := by decide
  obtain ⟨hshow, hlatch, hns⟩ := hall c
  have hc := c.isLt
  have hidx : (R.ACC_FADDR_LO c.val - 0x241000) / 0x40 = c.val := by simp only [R.ACC_FADDR_LO]; omega
  rw [regRead_register s hns (by simp only [R.ACC_FADDR_LO]; omega), regShow_of_showsWord s hshow, State.regAfter,
    if_neg (by simpa using hlatch), if_neg (by simp only [R.ACC_FADDR_LO]; omega),
    if_pos (by simp only [R.ACC_FADDR_LO]; omega)]
  simp only [hidx]

end Sys2Proof.Machine
end

section
/-! Loading a record into the inactive rule set of a core pair (13 R603 to R605). -/
namespace Sys2Proof.Machine

/-! ## The two sets -/

/-- Slot word `n` of a set of a core pair: A for `false`, B for `true`. -/
def accSlot (b : Bool) (c n : Nat) : Nat := if b then R.ACC_SLOTB c n else R.ACC_SLOT c n

/-- The base word of region `r` of a set of a core pair. -/
def accRegion (b : Bool) (c r : Nat) : Nat := if b then R.ACC_RBASEB c r else R.ACC_RBASE c r

/-- A set of a core pair filled with a record. -/
def State.fillSet (s : State) (b : Bool) (c : Nat) (a : AccRec) : State :=
  (s.accSet (accSlot b c 0) (accRegion b c 0) a).co c fun k =>
    if b then { k with bypB := a.bypass } else { k with bypA := a.bypass }

@[simp] theorem State.fillSet_recd (s : State) (b : Bool) (c : Nat) (a : AccRec) : (s.fillSet b c a).recd = s.recd := by
  simp [State.fillSet]

/-- The registers of a set are those of its record window: none is ACC_CTL. -/
theorem State.fillSet_get_ctl (s : State) (b : Bool) {c : Nat} (a : AccRec) (hc : c < 32) {f : Fld} (hf : f.off = R.ACC_CTL c) :
    (s.fillSet b c a).get f = s.get f := by
  rw [State.fillSet, State.co_get]
  refine (State.accSet_only s (accSlot b c 0) (accRegion b c 0) a).get fun hm => ?_
  rw [hf, mem_accSetRegs] at hm
  cases b <;> simp [accSlot, accRegion, R.ACC_CTL, R.ACC_SLOT, R.ACC_SLOTB, R.ACC_RBASE, R.ACC_RBASEB] at hm <;> omega

/-- A slot of the set that was filled. -/
theorem State.fillSet_slot (s : State) (b : Bool) (c : Nat) (a : AccRec) {n : Nat} (hn : n < 64) :
    (s.fillSet b c a).rd (accSlot b c n) = BitVec.ofNat 32 ((a.slots[n]?).getD 0 % 512) := by
  have hoff : accSlot b c n = accSlot b c 0 + 4 * n := by cases b <;> rfl
  rw [hoff, State.fillSet, State.co_rd]
  refine State.rd_accSet_slot s a hn (.inl ?_)
  cases b <;> simp [accSlot, accRegion, R.ACC_SLOT, R.ACC_SLOTB, R.ACC_RBASE, R.ACC_RBASEB] <;> omega

/-- A slot of the other set. -/
theorem State.fillSet_other (s : State) (b : Bool) (c : Nat) (a : AccRec) {n : Nat} (hn : n < 64) :
    (s.fillSet b c a).rd (accSlot (!b) c n) = s.rd (accSlot (!b) c n) := by
  rw [State.fillSet, State.co_rd]
  refine (State.accSet_only s (accSlot b c 0) (accRegion b c 0) a).2 _ fun hm => ?_
  rw [mem_accSetRegs] at hm
  cases b <;> simp [accSlot, accRegion, R.ACC_SLOT, R.ACC_SLOTB, R.ACC_RBASE, R.ACC_RBASEB] at hm <;> omega

/-! ## ACC_LOAD -/

/-- A LOAD of the runtime record begins. -/
theorem accLoad_runtime {s : State} (c : Nat) (h : s.on (F.ACC_CTL_BUSY c) = false) :
    s.accLoad c 255 = ((s.put (F.ACC_CTL_PART c) 255).put (F.ACC_CTL_BUSY c) 1).co c fun k => { k with loadPart := 255 } := by
  simp [State.accLoad, h]

/-- A LOAD of a partition that is not bound to the core pair: the inactive set takes the empty record, ERR and 0xA012 report it
(13 R605). -/
theorem accLoad_unbound {s : State} {c part : Nat} (h : s.on (F.ACC_CTL_BUSY c) = false) (hp : part ≠ 255)
    (hb : (s.image.parts.any fun r => decide (r.part = part) && decide (r.core = c)) = false) :
    s.accLoad c part = (((s.put (F.ACC_CTL_PART c) part).fillSet (!s.on (F.ACC_CTL_ASET c)) c { pair := c }).put
      (F.ACC_CTL_ERR c) 1).raise 0xA012 c (le 1 c ++ le 1 part) := by
  cases ha : s.on (F.ACC_CTL_ASET c) <;>
    simp [State.accLoad, State.fillSet, accSlot, accRegion, h, hp, hb, ha]

/-- ACC_LOAD_COMPLETE of a load in progress: the inactive set holds the record (13 R604). -/
theorem accLoadComplete_busy {s : State} {c : Fin 32} (h : s.on (F.ACC_CTL_BUSY c.val) = true) :
    exec (.accLoadComplete c) s =
      .next ((s.fillSet (!s.on (F.ACC_CTL_ASET c.val)) c.val (s.loadRec c.val)).put (F.ACC_CTL_BUSY c.val) 0) := by
  rw [exec_accLoadComplete]
  cases ha : s.on (F.ACC_CTL_ASET c.val) <;>
    simp [execAccLoadComplete, State.fillSet, accSlot, accRegion, h, ha]

/-- A completed load fills the slots of the inactive set and leaves those of the active one. -/
theorem accLoadComplete_slots {s : State} {c : Fin 32} (n : Fin 64) (h : s.on (F.ACC_CTL_BUSY c.val) = true) :
    Steps (exec (.accLoadComplete c) s) fun u => u.get (F.ACC_CTL_BUSY c.val) = 0 ∧
      u.get ⟨accSlot (!s.on (F.ACC_CTL_ASET c.val)) c.val n.val, 0, 9⟩ = ((s.loadRec c.val).slots[n.val]?).getD 0 % 512 ∧
      u.rd (accSlot (s.on (F.ACC_CTL_ASET c.val)) c.val n.val) = s.rd (accSlot (s.on (F.ACC_CTL_ASET c.val)) c.val n.val) := by
  have hoff : ∀ b, R.ACC_CTL c.val ≠ accSlot b c.val n.val := fun b => by
    cases b <;> simp [accSlot, R.ACC_CTL, R.ACC_SLOT, R.ACC_SLOTB] <;> omega
  refine ⟨_, accLoadComplete_busy h, State.get_put_same _ _ (by simp [F.ACC_CTL_BUSY]), ?_, ?_⟩
  · rw [State.get_put_ne _ _ (.inl (hoff _)), State.get]
    dsimp only
    rw [State.fillSet_slot _ _ _ _ n.isLt, getBits, BitVec.ushiftRight_zero, BitVec.toNat_ofNat]
    omega
  · rw [State.rd_put_ne _ _ (hoff _)]
    have hother := State.fillSet_other s (!s.on (F.ACC_CTL_ASET c.val)) c.val (s.loadRec c.val) n.isLt
    rwa [Bool.not_not] at hother

end Sys2Proof.Machine
end

section
/-! What the commands of register access do, and the obligation about them. -/
namespace Sys2Proof.Machine

/-! ## Stores -/

/-- A store at level M to TIM_SET_NS (10 TIM_SET_NS), whose island is on with PD6. -/
theorem registerWrite_timSetNs (cp : Option (Fin 32)) (v : Word) (t : Nat) {s : State} (h : s.pd 6 = true) :
    Steps (exec (.registerWrite cp 3 (BitVec.ofNat 32 R.TIM_SET_NS) v t) s) fun u =>
      u.get F.TIM_SET_NS_V = v.toNat % 2 ^ 30 ∧ OnlyRegs (s.at t) u [R.TIM_SET_NS] := by
  have hrow : regRow? R.TIM_SET_NS = some ⟨0x1c0010, 0x0, 1, 0x0, 1, 0x0, 0x3fffffff, 0x0, 0x0, 0x0, 0x0, 2⟩ := by rfl
  have hon : s.offlineAt R.TIM_SET_NS = none := by
    simp [State.offlineAt, show slotOf R.TIM_SET_NS = some 24 by rfl, show slotServer 24 = islTime by rfl,
      State.islandOff, show islandPd islTime = some 6 by rfl, h]
  have hst : exec (.registerWrite cp 3 (BitVec.ofNat 32 R.TIM_SET_NS) v t) s = .next ((s.at t).plainWrite R.TIM_SET_NS v) :=
    registerWrite_row (off := BitVec.ofNat 32 R.TIM_SET_NS) cp 3 v t hon (by decide) (by decide) hrow
  refine ⟨_, hst, ?_, plainWrite_only _ _ _⟩
  have hfield : ((s.at t).plainWrite F.TIM_SET_NS_V.off v).get F.TIM_SET_NS_V = getBits v 0 30 :=
    plainWrite_get_rw _ v hrow (by decide) (by decide)
  exact hfield.trans (by simp [getBits])

/-- A store of the management protocol to an image window (04 R156). -/
theorem registerWrite_imageWindow_mgmt (lv : Fin 4) {off : BitVec 32} (v : Word) (t : Nat) {s : State}
    (hw : imageWindow off.toNat = true) (hon : s.offlineAt off.toNat = none) :
    Steps (exec (.registerWrite none lv off v t) s) fun u =>
      u.get F.SIG_STATUS_STORE_FAULT = 1 ∧ OnlyRegs (s.at t) u [R.SIG_STATUS] := by
  refine ⟨_, registerWrite_online none lv v t (by simp) hon, ?_⟩
  rw [mgmtStore_imageWindow _ _ _ _ hw]
  exact ⟨State.get_put_same _ _ (by decide), OnlyRegs.put _ (by decide) (OnlyRegs.refl _ _)⟩

/-- A store of a core pair to an image window: STORE_FAULT and a denial (04 R156, 13 R602). -/
theorem registerWrite_imageWindow_core (c : Fin 32) (lv : Fin 4) {off : BitVec 32} (v : Word) (t : Nat) {s : State}
    (hw : imageWindow off.toNat = true) (hroom : s.Room c.val) :
    Steps (exec (.registerWrite (some c) lv off v t) s) fun u => u.get F.SIG_STATUS_STORE_FAULT = 1 ∧
      u.rdN (R.ACC_FADDR_LO c.val) = (0xFF00000000 + off.toNat) % 2 ^ 32 ∧ (u.rd R.ACC_STATUS).getLsbD c.val = true ∧
      Raises s u 0x3002 c.val (le 8 (0xFF00000000 + off.toNat) ++ le 1 c.val) ∧
      SameRegs s u [R.SIG_STATUS, R.ACC_STATUS, R.ACC_FADDR_LO c.val, R.ACC_FCOUNT c.val] := by
  have href : storeRefused off.toNat 4 = true := by simp [storeRefused, hw]
  obtain ⟨info, hdeny⟩ := denyStore_imageWindow (s.at t) hw off.isLt c.val lv.val
  have hrecd : (((s.at t).faultNoted c.val (0xFF00000000 + off.toNat) info).put F.SIG_STATUS_STORE_FAULT 1).recd = s.recd := rfl
  have hroom' : State.Room (((s.at t).faultNoted c.val (0xFF00000000 + off.toNat) info).put F.SIG_STATUS_STORE_FAULT 1)
      c.val := by rwa [State.Room, hrecd]
  have haddr : F.SIG_STATUS_STORE_FAULT.off ≠ R.ACC_FADDR_LO c.val := by
    simp only [F.SIG_STATUS_STORE_FAULT, R.ACC_FADDR_LO]; omega
  refine ⟨_, (registerWrite_refused c lv v t s href).trans (congrArg Host.Outcome.next hdeny), ?_, ?_, ?_,
    Raises.raise hroom hrecd _ _, ?_⟩
  · rw [State.raise_room_get hroom']
    exact State.get_put_same _ _ (by decide)
  · rw [State.rdN, State.raise_room_rd hroom', State.rd_put_ne _ _ haddr]
    exact faultNoted_addr _ _ _ _
  · rw [State.raise_room_rd hroom', State.rd_put_ne _ _ (by decide)]
    exact faultNoted_status _ _ _ c.isLt
  · refine SameRegs.of_regs (State.raise_room_regs hroom' _ _) (SameRegs.put _ (List.mem_cons_self ..) ?_)
    exact (faultNoted_sameRegs (s.at t) _ _ _).mono fun o ho => List.mem_cons_of_mem _ ho

/-- A store of a core pair to a slot window, but to SLOT_STATUS (06 R304, 13 R602). -/
theorem registerWrite_slotWindow_core (c : Fin 32) (lv : Fin 4) {off : BitVec 32} (v : Word) (t : Nat) {s : State}
    (hw : slotWindow off.toNat = true) (hst : off.toNat % 0x400 ≠ 4) (hroom : s.Room c.val) :
    Steps (exec (.registerWrite (some c) lv off v t) s) fun u =>
      Raises s u 0x500A c.val (le 8 (0xFF00000000 + off.toNat) ++ le 1 c.val) ∧
      SameRegs s u [R.ACC_STATUS, R.ACC_FADDR_LO c.val, R.ACC_FCOUNT c.val] := by
  have href : storeRefused off.toNat 4 = true := by simp [storeRefused, hw, hst]
  obtain ⟨info, hdeny⟩ := denyStore_slotWindow (s.at t) hw off.isLt c.val lv.val
  have hrecd : ((s.at t).faultNoted c.val (0xFF00000000 + off.toNat) info).recd = s.recd := rfl
  have hroom' : State.Room ((s.at t).faultNoted c.val (0xFF00000000 + off.toNat) info) c.val := by rwa [State.Room, hrecd]
  exact ⟨_, (registerWrite_refused c lv v t s href).trans (congrArg Host.Outcome.next hdeny), Raises.raise hroom hrecd _ _,
    SameRegs.of_regs (State.raise_room_regs hroom' _ _) (faultNoted_sameRegs (s.at t) _ _ _)⟩

/-! ## Loads -/

theorem latchedLowWordRead_latches {off : BitVec 32} {s : State} (hon : s.offlineAt off.toNat = none)
    (h : off.toNat ∈ latchedLows) : Steps (exec (.latchedLowWordRead off) s) fun u =>
      u.out = s.out ++ [.read off.toNat (s.rd off.toNat)] ∧ tget 0 u.latch (off.toNat + 4) = s.rd (off.toNat + 4) ∧
      u = { s with out := u.out, latch := u.latch } := by
  refine ⟨_, (exec_latchedLowWordRead off s).trans (congrArg Host.Outcome.next (readOut_online hon)), ?_⟩
  rw [regRead_latchedLow s h]
  exact ⟨rfl, tget_tset_same _ _ _ _, rfl⟩

theorem rcFieldRead_clears {off : BitVec 32} {r : RegRow} {s : State} (hon : s.offlineAt off.toNat = none)
    (hr : regRow? off.toNat = some r) (hlow : off.toNat < 0x240000) (hns : off.toNat ≠ R.TIM_NS)
    (hlatch : off.toNat ∉ latchedLows) (hrc : r.rc ≠ 0) : Steps (exec (.rcFieldRead off) s) fun u =>
      u.out = s.out ++ [.read off.toNat (s.regShow off.toNat)] ∧
      u.rd off.toNat = s.rd off.toNat &&& ~~~(BitVec.ofNat 32 r.rc) ∧ SameRegs s u [off.toNat] ∧
      u = { s with regs := u.regs, out := u.out } := by
  refine ⟨_, (exec_rcFieldRead off s).trans (congrArg Host.Outcome.next (readOut_online hon)), ?_⟩
  rw [regRead_register s hns (by omega), regAfter_rc s hr hlow hlatch hrc]
  exact ⟨rfl, State.rd_wr_same _ _ _, SameRegs.of_regs rfl (SameRegs.wr _ (by simp) (SameRegs.refl _ _)), rfl⟩

theorem accFaddrRead_latches (c : Fin 32) {s : State} (hon : s.offlineAt (R.ACC_FADDR_LO c.val) = none) :
    Steps (exec (.accFaddrRead c) s) fun u =>
      u.out = s.out ++ [.read (R.ACC_FADDR_LO c.val) (s.rd (R.ACC_FADDR_LO c.val))] ∧
      u.rd (R.ACC_FADDR_HI c.val) = (s.core c.val).faultHi ∧ u.rd (R.ACC_FINFO c.val) = (s.core c.val).faultInfo ∧
      SameRegs s u [R.ACC_FADDR_HI c.val, R.ACC_FINFO c.val] := by
  refine ⟨_, (exec_accFaddrRead c s).trans (congrArg Host.Outcome.next (readOut_online hon)), ?_⟩
  rw [regRead_accFaddrLo s c]
  have hne : R.ACC_FINFO c.val ≠ R.ACC_FADDR_HI c.val := by simp [R.ACC_FINFO, R.ACC_FADDR_HI]
  refine ⟨rfl, ?_, State.rd_wr_same _ _ _, SameRegs.of_regs rfl (SameRegs.wr _ (by simp) (SameRegs.wr _ (by simp)
    (SameRegs.refl _ _)))⟩
  exact (State.rd_wr_ne _ _ hne).trans (State.rd_wr_same _ _ _)

/-! ## Record loads -/

/-- A LOAD while one is in progress (13 R604). -/
theorem accLoad_inProgress {c : Fin 32} (p : Fin 256) {s : State} (h : s.on (F.ACC_CTL_BUSY c.val) = true) :
    Steps (exec (.accLoad c p) s) fun u => u.get (F.ACC_CTL_ERR c.val) = 1 ∧ u.on (F.ACC_CTL_BUSY c.val) = true ∧
      OnlyRegs s u [R.ACC_CTL c.val] := by
  have hload : s.accLoad c.val p.val = s.put (F.ACC_CTL_ERR c.val) 1 := by rw [State.accLoad, if_pos h]
  have hbusy : (s.put (F.ACC_CTL_ERR c.val) 1).get (F.ACC_CTL_BUSY c.val) = s.get (F.ACC_CTL_BUSY c.val) :=
    State.get_put_ne _ _ (.inr (by simp [F.ACC_CTL_ERR, F.ACC_CTL_BUSY]))
  refine ⟨_, (exec_accLoad c p s).trans (congrArg Host.Outcome.next hload),
    State.get_put_same _ _ (by simp [F.ACC_CTL_ERR]), ?_, OnlyRegs.put _ (by simp [F.ACC_CTL_ERR, R.ACC_CTL]) (OnlyRegs.refl _ _)⟩
  rwa [State.on, hbusy]

theorem accLoad_runtime_begins {c : Fin 32} {s : State} (h : s.on (F.ACC_CTL_BUSY c.val) = false) :
    Steps (exec (.accLoad c 255) s) fun u =>
      u.get (F.ACC_CTL_BUSY c.val) = 1 ∧ u.get (F.ACC_CTL_PART c.val) = 255 ∧ (u.core c.val).loadPart = 255 ∧
      SameRegs s u [R.ACC_CTL c.val] ∧ u.mem = s.mem := by
  refine ⟨_, (exec_accLoad c 255 s).trans (congrArg Host.Outcome.next (accLoad_runtime c.val h)), ?_, ?_, ?_, ?_, rfl⟩
  · rw [State.co_get]
    exact State.get_put_same _ _ (by simp [F.ACC_CTL_BUSY])
  · rw [State.co_get, State.get_put_ne _ _ (.inr (by simp [F.ACC_CTL_BUSY, F.ACC_CTL_PART]))]
    exact (State.get_put_same _ _ (by simp [F.ACC_CTL_PART])).trans (by simp [F.ACC_CTL_PART])
  · rw [State.core_co_same]
  · refine SameRegs.of_regs (State.co_regs _ _ _) ?_
    exact SameRegs.put _ (by simp [F.ACC_CTL_BUSY, R.ACC_CTL]) (SameRegs.put _ (by simp [F.ACC_CTL_PART, R.ACC_CTL])
      (SameRegs.refl _ _))

/-- A LOAD of a partition that is not bound to the core pair (13 R605). -/
theorem accLoad_unbound_reported {c : Fin 32} {p : Fin 256} {s : State} (h : s.on (F.ACC_CTL_BUSY c.val) = false)
    (hp : p.val ≠ 255) (hb : (s.image.parts.any fun r => decide (r.part = p.val) && decide (r.core = c.val)) = false)
    (hroom : s.Room c.val) : Steps (exec (.accLoad c p) s) fun u =>
      u.get (F.ACC_CTL_ERR c.val) = 1 ∧ u.get (F.ACC_CTL_BUSY c.val) = 0 ∧
      Raises s u 0xA012 c.val (le 1 c.val ++ le 1 p.val) ∧
      (s.on (F.ACC_CTL_ASET c.val) = false → ∀ n : Fin 64, u.get (F.ACC_SLOTB_PERM c.val n.val) = 0) := by
  have hrecd : (((s.put (F.ACC_CTL_PART c.val) p.val).fillSet (!s.on (F.ACC_CTL_ASET c.val)) c.val { pair := c.val }).put
      (F.ACC_CTL_ERR c.val) 1).recd = s.recd := by simp
  have hroom' : State.Room (((s.put (F.ACC_CTL_PART c.val) p.val).fillSet (!s.on (F.ACC_CTL_ASET c.val)) c.val
      { pair := c.val }).put (F.ACC_CTL_ERR c.val) 1) c.val := by rwa [State.Room, hrecd]
  refine ⟨_, (exec_accLoad c p s).trans (congrArg Host.Outcome.next (accLoad_unbound h hp hb)), ?_, ?_,
    Raises.raise hroom hrecd _ _, ?_⟩
  · rw [State.raise_room_get hroom']
    exact State.get_put_same _ _ (by simp [F.ACC_CTL_ERR])
  · rw [State.raise_room_get hroom', State.get_put_ne _ _ (.inr (by simp [F.ACC_CTL_ERR, F.ACC_CTL_BUSY])),
      State.fillSet_get_ctl _ _ _ c.isLt rfl, State.get_put_ne _ _ (.inr (by simp [F.ACC_CTL_PART, F.ACC_CTL_BUSY]))]
    exact State.get_of_not_on rfl h
  · intro haset n
    have hslot := State.fillSet_slot (s.put (F.ACC_CTL_PART c.val) p.val) true c.val { pair := c.val } n.isLt
    rw [State.raise_room_get hroom', haset, State.get_put_ne _ _ (.inl _), State.get]
    · exact (congrArg (getBits · 0 9) hslot).trans (by simp [getBits])
    · simp only [F.ACC_CTL_ERR, F.ACC_SLOTB_PERM]
      omega

/-- Settles O51: each clause is the rule of its command in its case. -/
theorem registerAccess : Obligations.RegisterAccess := by
  unfold Obligations.RegisterAccess
  refine ⟨?plain, ?stored, ?offline, ?timSet, ?denied, ?windowMgmt, ?latched, ?rc, ?faddr, ?busy, ?runtime, ?unbound,
    ?completeB, ?completeA, ?windowCore, ?slotCore, ?idle⟩
  case plain => exact fun _ v _ s _ hr hi => plainWrite_bit s v hr hi
  case stored =>
    intro cp lv off v t r s hon hlow hctl hr hlv hact
    rw [registerWrite_row cp lv v t hon hlow hctl hr, if_pos hlv, hact]
  case offline =>
    intro cp lv off v t n s hoff hw hroom
    exact ⟨_, registerWrite_offline cp lv v t hw hoff, noIsland_room (s := s.at t) hroom _⟩
  case timSet => exact fun cp v t _ h => registerWrite_timSetNs cp v t h
  case denied =>
    intro cp lv off v t r s hon hlow hctl hr hlv
    rw [registerWrite_row cp lv v t hon hlow hctl hr, if_neg (by simp [hlv])]
  case windowMgmt => exact fun lv _ v t _ hw hon => registerWrite_imageWindow_mgmt lv v t hw hon
  case latched => exact fun _ _ hon h => latchedLowWordRead_latches hon h
  case rc => exact fun _ _ _ hon hr hlow hns hlatch hrc => rcFieldRead_clears hon hr hlow hns hlatch hrc
  case faddr => exact fun c _ hon => accFaddrRead_latches c hon
  case busy => exact fun _ p _ h => accLoad_inProgress p h
  case runtime => exact fun _ _ h => accLoad_runtime_begins h
  case unbound => exact fun _ _ _ h hp hb hroom => accLoad_unbound_reported h hp hb hroom
  case completeB =>
    intro c n s h haset
    have hslots := accLoadComplete_slots n h
    rwa [haset] at hslots
  case completeA =>
    intro c n s h haset
    have hslots := accLoadComplete_slots n h
    rwa [haset] at hslots
  case windowCore => exact fun c lv _ v t _ hw hroom => registerWrite_imageWindow_core c lv v t hw hroom
  case slotCore => exact fun c lv _ v t _ hw hst hroom => registerWrite_slotWindow_core c lv v t hw hst hroom
  case idle =>
    intro c s h
    simp [exec_accLoadComplete, execAccLoadComplete, h]

end Sys2Proof.Machine
end

section
/-! The boundary message at which a planned switchover is due (01 R33, 09 R460): the old active launches its burst, and then its
turn as active ends, which O60 leaves out of what the message does. -/
namespace Sys2Proof.Machine

theorem exec_boundaryMessage (n : Nat) (ready : Bool) (cs : List (Fin 32 × Nat)) (st : List (Fin 4 × Fin 65))
    (tags : List TagEvent) (s : State) :
    exec (.boundaryMessage n ready cs st tags) s = execBoundaryMessage n ready cs st tags s := rfl

/-- A boundary message that runs, in a module `c` that still has PD22 after the control plane's part: what it does ends with the
turn of an old active, behind its burst (09 R460, R464). -/
theorem exec_boundaryMessage_runs {n : Nat} {ready : Bool} {cs : List (Fin 32 × Nat)} {st : List (Fin 4 × Fin 65)}
    {s c : State} (hrun : s.boundaryRuns n = true)
    (hc : (((s.at (boundaryNs n)).snapBoundary n).countBoundary n).controlBoundary n ready (cs.map fun e => (e.1.val, e.2))
      (st.map fun e => (e.1.val, e.2.val)) = c) (hpd : c.pd 22 = true) :
    exec (.boundaryMessage n ready cs st []) s = .next ((c.sendBoundary n).showBoundary n).outgoingEnd := by
  have hrunAt : (s.at (boundaryNs n)).boundaryRuns n = true := hrun
  rw [exec_boundaryMessage, execBoundaryMessage]
  simp [State.each, hrunAt, hc, hpd]

theorem State.restart_outgoing (s : State) (cause : Nat) : (s.restart cause).twin.outgoing = none := by
  rw [State.restart, State.beginS0, show ∀ u : State, u.latchAll.twin = u.twin from fun _ => rfl, (State.showNv_only _).1]
  rfl

/-- No role just given up is noted once the boundary has ended. -/
theorem State.outgoingEnd_outgoing (s : State) : s.outgoingEnd.twin.outgoing = none := by
  unfold State.outgoingEnd
  split
  case h_1 hnone => exact hnone
  case h_2 =>
    dsimp only
    split
    · exact State.restart_outgoing _ _
    · rfl

/-- The active of a matched pair, at S5 under an image, whose partner has acknowledged the switch record for boundary 1. -/
def switchingActive : State :=
  let s : State := { State.reset with
    img := some {}
    time := { State.reset.time with running := true }
    twin := { State.reset.twin with switch := some { at_ := 1, cause := 1, acked := true }, foxThisCycle := true } }
  (((((s.setBit R.PWR_ON 22 true).setBit R.PWR_ON 8 true).put F.MOD_STATUS_STAGE 5).put F.TWN_STATUS_ROLE 1).put
    F.TWN_STATUS_TSTATE 1).put F.TWN_STATUS_PARTNER_TSTATE 3

/-- The same module after the control plane's part of boundary 1, at which it has given up its role. -/
def switchedActive : State :=
  (((switchingActive.at (boundaryNs 1)).snapBoundary 1).countBoundary 1).controlBoundary 1 false [] []

theorem switchingActive_runs : switchingActive.boundaryRuns 1 = true := by decide

theorem switchedActive_on : switchedActive.pd 22 = true ∧ switchedActive.img ≠ none := by decide +kernel

/-- Launching the burst and showing the boundary leave the note that the role has just been given up. -/
theorem switchedActive_outgoing :
    ((switchedActive.sendBoundary 1).showBoundary 1).twin.outgoing = some none := by decide +kernel

/-- Refutes O60: its second clause has a boundary message end with the launches and the display, but at the boundary of a planned
switchover the old active's note of the role it gave up is cleared behind them (`State.outgoingEnd`). The counterexample is the
active of a matched pair at the boundary that its acknowledged switch record names. -/
theorem not_boundaryAndClose : ¬ Obligations.BoundaryAndClose := by
  unfold Obligations.BoundaryAndClose
  rintro ⟨-, hmessage, -⟩
  obtain ⟨hpd, himg⟩ := switchedActive_on
  have hstated : exec (.boundaryMessage 1 false [] [] []) switchingActive =
      .next ((switchedActive.sendBoundary 1).showBoundary 1) :=
    hmessage 1 false [] [] switchingActive switchingActive_runs (.inr himg)
  have hdone : exec (.boundaryMessage 1 false [] [] []) switchingActive =
      .next ((switchedActive.sendBoundary 1).showBoundary 1).outgoingEnd :=
    exec_boundaryMessage_runs switchingActive_runs rfl hpd
  have hsame : ((switchedActive.sendBoundary 1).showBoundary 1).outgoingEnd =
      (switchedActive.sendBoundary 1).showBoundary 1 := Host.Outcome.next.inj (hdone.symm.trans hstated)
  have hnone : ((switchedActive.sendBoundary 1).showBoundary 1).twin.outgoing = none :=
    hsame ▸ State.outgoingEnd_outgoing _
  rw [switchedActive_outgoing] at hnone
  cases hnone

end Sys2Proof.Machine
end

section
/-! Every step keeps the canonical form, the shape of the stores and the revoked keys (02 R61, R64, R67; 03 R138). -/
namespace Sys2Proof.Machine

/-- What a command that begins in a state is held to: the state's queue, key store and SEQ, and which of their conditions hold. -/
def State.base (s : State) : Base where
  queue := s.pending
  clean := decide (s.nv.bad = [])
  keys := s.nv.keys
  seq := s.nv.seq
  held := decide (s.nv.seq ≤ seqHigh s.nv.tail s.nv.archSeq)
  shaped := decide s.Shaped

/-- A state in canonical form meets what it is itself held to. -/
theorem State.Canon.ok {s : State} (h : s.Canon) : s.Ok s.base := by
  obtain ⟨hregs, hlatch, hmem, hflash⟩ := h
  refine ⟨hregs, hlatch, hmem, hflash, rfl, ?keys, ?seq, ?shape⟩
  case keys => exact fun hclean => ⟨of_decide_eq_true hclean, fun _ hrevoked => hrevoked⟩
  case seq => exact fun _ hheld => ⟨Nat.le_refl _, of_decide_eq_true hheld⟩
  case shape => exact fun hshaped => of_decide_eq_true hshaped

/-- The front command comes off the queue; nothing else of what a command is held to changes. -/
theorem State.Canon.ok_drop {s : State} (h : s.Canon) (rest : List Instr) :
    ({ s with pending := rest } : State).Ok { s.base with queue := rest } := by
  obtain ⟨hregs, hlatch, hmem, hflash, -, hnv⟩ := h.ok
  exact ⟨hregs, hlatch, hmem, hflash, rfl, hnv⟩

/-- A step in canonical form answers a next state that meets what its first state is held to, with one command taken. -/
theorem step_ok {s : State} (h : s.Canon) : ResOk { s.base with queue := s.pending.drop 1 } (step s) := by
  unfold step
  split
  case h_1 hempty => exact ResOk.next (by simpa [State.base, hempty] using h.ok)
  case h_2 c rest hfront =>
    rw [hfront]
    exact exec_canon c (h.ok_drop rest)

/-- Settles O3: a command keeps the canonical form and the shape of the stores (`exec_canon`), and a step is one command. -/
theorem stepKeepsCanon : Obligations.StepKeepsCanon := by
  intro s h
  obtain ⟨t, hstep, hregs, hlatch, hmem, hflash, hqueue, -, -, hshape⟩ := step_ok h
  exact ⟨t, hstep, ⟨hregs, hlatch, hmem, hflash⟩, hqueue, fun hshaped => hshape (decide_eq_true hshaped)⟩

/-- Settles O4: no command of a module with sound MRAM regions loses a REVOKED slot (`exec_canon`). -/
theorem revokedStaysRevoked : Obligations.RevokedStaysRevoked := by
  intro s t h hsound hstep
  obtain ⟨u, hnext, -, -, -, -, -, hkeys, -⟩ := step_ok h
  obtain rfl : u = t := Host.Outcome.next.inj (hnext.symm.trans hstep)
  exact hkeys (decide_eq_true hsound)

end Sys2Proof.Machine
end

section
/-! Requests that are answered, and what showing MRAM and flash in the registers leaves as it is (17 R731 to R735). -/
namespace Sys2Proof.Machine

/-! ## Requests -/

/-- A state that differs from another in its sessions and in what was sent behind it. -/
def SentFrom (t u : State) (l : List Output) : Prop := u = { t with mgmt := u.mgmt, out := t.out ++ l }

theorem SentFrom.out {t u : State} {l : List Output} (h : SentFrom t u l) : u.out = t.out ++ l := by rw [h]
theorem SentFrom.regs {t u : State} {l : List Output} (h : SentFrom t u l) : u.regs = t.regs := by rw [h]
theorem SentFrom.flash {t u : State} {l : List Output} (h : SentFrom t u l) : u.flash = t.flash := by rw [h]
theorem SentFrom.nv {t u : State} {l : List Output} (h : SentFrom t u l) : u.nv = t.nv := by rw [h]
theorem SentFrom.keep {t u : State} {l : List Output} (h : SentFrom t u l) : u.keep = t.keep := by rw [h]
theorem SentFrom.recd {t u : State} {l : List Output} (h : SentFrom t u l) : u.recd = t.recd := by rw [h]

/-- A request that comes to its execution, by what its command does in the state that differs in its sessions alone: a state that
keeps them, with an answer, which is then sent. -/
theorem request_steps {s : State} {ses : Fin 16} {req cmd : Nat} {control active : Bool} {f : State → Answer}
    {P : State → Prop} (st : Nat) (payload : List Byte) (h : s.Serves ses req control active)
    (hf : ∀ m, ∃ t, f { s with mgmt := m } = (t, some (st, payload)) ∧ t.mgmt = m ∧
      ∀ u, SentFrom t u (response ses req cmd st payload) → P u) :
    Steps (.next (s.request ses req cmd control active f)) P := by
  obtain ⟨m, hserved⟩ := s.served_eq ses
  obtain ⟨t, hanswer, hmgmt, hP⟩ := hf m
  obtain ⟨k, hk, hrequest⟩ := State.request_serves (f := f) (cmd := cmd) h
  have hopen : t.session ses.val = some k := by
    rw [State.session, hmgmt]
    rwa [hserved] at hk
  refine ⟨_, rfl, ?_⟩
  rw [hrequest, hserved, hanswer]
  dsimp only
  rw [State.answer_some hopen, State.respond_eq]
  exact hP _ rfl

/-! ## The registers of MRAM and flash -/

theorem State.showNv_eq (s : State) : s.showNv = { s with regs := s.showNv.regs } := (State.showNv_only s).1

@[simp] theorem State.showNv_nv (s : State) : s.showNv.nv = s.nv := by rw [s.showNv_eq]
@[simp] theorem State.showNv_flash (s : State) : s.showNv.flash = s.flash := by rw [s.showNv_eq]
@[simp] theorem State.showNv_out (s : State) : s.showNv.out = s.out := by rw [s.showNv_eq]
@[simp] theorem State.showNv_mgmt (s : State) : s.showNv.mgmt = s.mgmt := by rw [s.showNv_eq]
@[simp] theorem State.showNv_recd (s : State) : s.showNv.recd = s.recd := by rw [s.showNv_eq]

/-- Of TWN_STATUS only REDUCED is shown: the role reads as before (09 R417). -/
theorem State.showNv_role (s : State) : s.showNv.role = s.role := by
  have hslots : ∀ n ∈ List.range 4, R.IMG_SLOT n ∈ nvRegs.dropLast := by decide
  have hkeys : ∀ n ∈ List.range 8, R.ID_DEVKEY n ∈ nvRegs.dropLast := by decide
  unfold State.role State.showNv
  dsimp only
  rw [State.putB, State.get_put_ne _ _ (by decide), State.putB, State.get_put_ne _ _ (by decide)]
  refine OnlyRegs.get (l := nvRegs.dropLast) ?_ (by decide)
  repeat' first
    | with_reducible exact OnlyRegs.refl s _
    | with_reducible refine OnlyRegs.putB _ (by decide) ?_
    | with_reducible refine OnlyRegs.put _ (by decide) ?_
    | with_reducible refine OnlyRegs.wrN _ (by decide) ?_
    | with_reducible refine OnlyRegs.wr64 _ (by decide) (by decide) ?_
    | with_reducible refine OnlyRegs.wr _ (by decide) ?_
    | with_reducible refine OnlyRegs.each ?_ ?_
  · exact fun n hn _ hu => OnlyRegs.wrN _ (hkeys n hn) hu
  · exact fun n hn _ hu => OnlyRegs.wrN _ (hslots n hn) hu

/-! ## Raises -/

theorem State.raise_room_mgmt {s : State} {isl : Nat} (h : s.Room isl) (code : Nat) (data : List Byte) :
    (s.raise code isl data).mgmt = s.mgmt := by rw [State.raise_room s h]

/-! ## Lists with one entry changed -/

theorem setAt_getElem? {α : Type} (l : List α) (n i : Nat) (f : α → α) :
    (setAt l n f)[i]? = if i = n then l[i]?.map f else l[i]? := by
  rw [setAt, List.getElem?_mapIdx]
  split <;> simp_all

theorem setAt_getElem?_ne {α : Type} (l : List α) {n i : Nat} (f : α → α) (h : i ≠ n) : (setAt l n f)[i]? = l[i]? := by
  rw [setAt_getElem?, if_neg h]

/-- The entry that was replaced. -/
theorem setAt_const {α : Type} {l : List α} {n : Nat} (v : α) (h : n < l.length) : (setAt l n fun _ => v)[n]? = some v := by
  rw [setAt_getElem?, if_pos rfl, List.getElem?_eq_getElem h, Option.map_some]

end Sys2Proof.Machine
end

section
/-! Profile slots and the choice of profile (02 R68 to R75, R90, R105; 17 R734, R738). -/
namespace Sys2Proof.Machine

/-! ## Profile slots -/

/-- A profile slot with its metadata, as IMG_SLOTn shows it (02 R70). -/
def State.markSlot (s : State) (n : Nat) (m : SlotMeta) : State :=
  (s.inNv fun v => { v with slots := setAt v.slots n fun _ => m }).showNv

@[simp] theorem State.markSlot_flash (s : State) (n : Nat) (m : SlotMeta) : (s.markSlot n m).flash = s.flash :=
  State.showNv_flash _
@[simp] theorem State.markSlot_out (s : State) (n : Nat) (m : SlotMeta) : (s.markSlot n m).out = s.out := State.showNv_out _
@[simp] theorem State.markSlot_mgmt (s : State) (n : Nat) (m : SlotMeta) : (s.markSlot n m).mgmt = s.mgmt := State.showNv_mgmt _
@[simp] theorem State.markSlot_recd (s : State) (n : Nat) (m : SlotMeta) : (s.markSlot n m).recd = s.recd := State.showNv_recd _

theorem State.markSlot_slot {s : State} (h : s.Shaped) (n : Fin 4) (m : SlotMeta) :
    ((s.markSlot n.val m).nv.slots[n.val]?).getD {} = m := by
  have hlen : n.val < s.nv.slots.length := by rw [h.2]; exact n.isLt
  rw [State.markSlot, State.showNv_nv, State.inNv_nv, setAt_const m hlen, Option.getD_some]

/-- A chunk for a slot that may be written (02 R70, R71). -/
theorem profileChunk_free {s : State} {n off : Nat} {data : List Byte} (h : s.slotHeld n = false) (hlen : data.length ≤ 1024)
    (hend : off + data.length ≤ 268435456) : s.profileChunk n off data =
      (({ s with flash := Memory.writeN s.flash (slotBase n + off) data }.markSlot n { st := 1 }), some (0, [])) := by
  rw [State.profileChunk, if_neg (by simp [h]), if_neg (by omega)]
  rfl

theorem profileChunk_held {s : State} {n : Nat} (off : Nat) (data : List Byte) (h : s.slotHeld n = true) :
    s.profileChunk n off data = (s, some (4, le 4 0)) := by
  rw [State.profileChunk, if_pos h]
  rfl

/-- FINISH of a slot that may be written (02 R70, R90). -/
theorem profileFinish_free {s : State} {n : Nat} (h : s.slotHeld n = false) : s.profileFinish n =
    (({ s with flash := Memory.erase s.flash (journalBase n) 16777216 }.markSlot n { st := 1 }), some (0, [])) := by
  rw [State.profileFinish, if_neg (by simp [h])]
  rfl

theorem profileFinish_held {s : State} {n : Nat} (h : s.slotHeld n = true) :
    s.profileFinish n = (s, some (4, le 4 0)) := by
  rw [State.profileFinish, if_pos h]
  rfl

/-- Where a byte other than the first of MAGIC stands there is no record (02 R831). -/
theorem journalAt_of_read_ne {m : Memory} {a : Nat} (h : m.read a ≠ 0x45) : journalAt m a = none := by
  have hread : Memory.readN m a 64 = m.read a :: Memory.readN m (a + 1) 63 := rfl
  unfold journalAt
  dsimp only
  rw [hread, List.take_succ_cons, if_neg]
  rintro ⟨hmagic, -⟩
  exact h (List.cons.inj hmagic).1

/-- A journal whose first position holds no record is empty (02 R831). -/
theorem journalFrom_of_none {m : Memory} (stop fuel : Nat) {a : Nat} (h : journalAt m a = none) :
    journalFrom m stop fuel a = [] := by
  cases fuel with
  | zero => rfl
  | succ fuel =>
    rw [journalFrom, h]
    split <;> rfl

/-- An erased journal holds no record (02 R90). -/
theorem slotJournal_erase (m : Memory) (n : Nat) : slotJournal (Memory.erase m (journalBase n) 16777216) n = [] := by
  refine journalFrom_of_none _ _ (journalAt_of_read_ne ?_)
  rw [Memory.read_erase, if_pos (by simp [inSpan])]
  decide

theorem Memory.read_erase_out (m : Memory) {a n c : Nat} (h : c < a ∨ a + n ≤ c) : (m.erase a n).read c = m.read c := by
  have hout : inSpan a n c = false := by
    simp only [inSpan, Bool.and_eq_false_iff, decide_eq_false_iff_not]
    omega
  simp [Memory.read_erase, hout]

/-! ## The checks of a slot -/

theorem exec_imageCheckDone (slot : Fin 4) (s : State) : exec (.imageCheckDone slot) s = execImageCheckDone slot s := by rfl

/-- What a slot that passes its checks is marked with: the key slot of its signature, and its length (02 R70). -/
def State.checkedMeta (s : State) (slot k : Nat) : SlotMeta where
  st := 2
  keySlot := k
  lenMib := (leNat (Memory.readN s.flash (slotBase slot + 8) 4) + 1048575) / 1048576

theorem imageCheckDone_good {slot : Fin 4} {s : State} {k : Nat} (hst : ((s.nv.slots[slot.val]?).getD {}).st = 1)
    (hcheck : checkImage s.flash (slotBase slot.val) s.nv.keys s.nv.compat = .good k) :
    exec (.imageCheckDone slot) s = .next (s.markSlot slot.val (s.checkedMeta slot.val k)) := by
  rw [exec_imageCheckDone, execImageCheckDone, if_neg (by simp [hst]), hcheck]
  rfl

theorem imageCheckDone_bad {slot : Fin 4} {s : State} {code : Nat} {data : List Byte}
    (hst : ((s.nv.slots[slot.val]?).getD {}).st = 1)
    (hcheck : checkImage s.flash (slotBase slot.val) s.nv.keys s.nv.compat = .bad code data) : exec (.imageCheckDone slot) s =
      .next ((s.markSlot slot.val { st := 3 }).checkFailed code data) := by
  rw [exec_imageCheckDone, execImageCheckDone, if_neg (by simp [hst]), hcheck]
  rfl

theorem imageCheckDone_idle {slot : Fin 4} {s : State} (hst : ((s.nv.slots[slot.val]?).getD {}).st ≠ 1) :
    exec (.imageCheckDone slot) s = .next s := by
  rw [exec_imageCheckDone, execImageCheckDone, if_pos hst]

theorem checkFailed_flash (s : State) (code : Nat) (data : List Byte) : (s.checkFailed code data).flash = s.flash := by
  rw [State.checkFailed, State.raise_flash, State.put_flash]

theorem checkFailed_nv (s : State) (code : Nat) (data : List Byte) : (s.checkFailed code data).nv = s.nv := by
  rw [State.checkFailed, State.raise_nv, State.put_nv]

/-- A check that refuses an image shows in LAST_FAIL and raises its event (02 R68). -/
theorem checkFailed_room {s : State} (h : s.Room islFlash) (code : Nat) (data : List Byte) :
    (s.checkFailed code data).get F.IMG_STATUS_LAST_FAIL = code % 256 ∧
      Raises s (s.checkFailed code data) code islFlash data := by
  refine ⟨?_, Raises.raise (t := s.put F.IMG_STATUS_LAST_FAIL code) h rfl code data⟩
  rw [State.checkFailed, State.raise_room_get (s := s.put F.IMG_STATUS_LAST_FAIL code) h]
  exact State.get_put_same _ _ (by decide)

/-! ## The commands -/

theorem exec_profileChunk (ses : Fin 16) (req : Nat) (slot : Fin 4) (off : Nat) (data : List Byte) (s : State) :
    exec (.profileChunk ses req slot off data) s =
      .next (s.request ses req 5 true false fun s => s.profileChunk slot.val off data) := by rfl

theorem exec_profileFinish (ses : Fin 16) (req : Nat) (slot : Fin 4) (s : State) :
    exec (.profileFinish ses req slot) s =
      .next (s.request ses req 5 true false fun s => s.profileFinish slot.val) := by rfl

theorem exec_profileList (ses : Fin 16) (req : Nat) (s : State) : exec (.profileList ses req) s =
    .next (s.request ses req 5 true false fun s => s.ok ((List.range 4).flatMap fun n => le 4 (s.rdN (R.IMG_SLOT n)))) := by rfl

theorem profileChunk_written {ses : Fin 16} {req off : Nat} {slot : Fin 4} {data : List Byte} {s : State}
    (hserves : s.Serves ses req true false) (hheld : s.slotHeld slot.val = false) (hlen : data.length ≤ 1024)
    (hend : off + data.length ≤ 268435456) (hshape : s.Shaped) :
    Steps (exec (.profileChunk ses req slot off data) s) fun u => u.out = s.out ++ response ses req 5 0 [] ∧
      ((u.nv.slots[slot.val]?).getD {}).st = 1 ∧ Memory.readN u.flash (slotBase slot.val + off) data.length = data ∧
      ∀ a, (a < slotBase slot.val + off ∨ slotBase slot.val + off + data.length ≤ a) →
        Memory.read u.flash a = Memory.read s.flash a := by
  rw [exec_profileChunk]
  refine request_steps 0 [] hserves fun m => ⟨_, profileChunk_free hheld hlen hend, State.markSlot_mgmt _ _ _, fun u hu => ?_⟩
  have hflash := hu.flash
  rw [State.markSlot_flash] at hflash
  refine ⟨?_, ?_, ?_, fun a ha => ?_⟩
  · rw [hu.out, State.markSlot_out]
  · rw [hu.nv, State.markSlot_slot]
    exact hshape
  · rw [hflash]
    exact Memory.readN_writeN _ _ _
  · rw [hflash]
    exact Memory.read_writeN_out _ _ _ ha

theorem profileFinish_started {ses : Fin 16} {req : Nat} {slot : Fin 4} {s : State} (hserves : s.Serves ses req true false)
    (hheld : s.slotHeld slot.val = false) (hshape : s.Shaped) :
    Steps (exec (.profileFinish ses req slot) s) fun u => u.out = s.out ++ response ses req 5 0 [] ∧
      ((u.nv.slots[slot.val]?).getD {}).st = 1 ∧ slotJournal u.flash slot.val = [] ∧
      ∀ a, (a < journalBase slot.val ∨ journalBase slot.val + 16777216 ≤ a) →
        Memory.read u.flash a = Memory.read s.flash a := by
  rw [exec_profileFinish]
  refine request_steps 0 [] hserves fun m => ⟨_, profileFinish_free hheld, State.markSlot_mgmt _ _ _, fun u hu => ?_⟩
  have hflash := hu.flash
  rw [State.markSlot_flash] at hflash
  refine ⟨?_, ?_, ?_, fun a ha => ?_⟩
  · rw [hu.out, State.markSlot_out]
  · rw [hu.nv, State.markSlot_slot]
    exact hshape
  · rw [hflash]
    exact slotJournal_erase _ _
  · rw [hflash]
    exact Memory.read_erase_out _ ha

/-- A request of the profile commands that writes a slot that is held is refused, and writes nothing (02 R71). -/
theorem request_held {ses : Fin 16} {req : Nat} {n : Nat} {s : State} {f : State → Answer}
    (hserves : s.Serves ses req true false) (hheld : s.slotHeld n = true)
    (hf : ∀ t : State, t.slotHeld n = true → f t = (t, some (4, le 4 0))) :
    Steps (.next (s.request ses req 5 true false f)) fun u => u.flash = s.flash ∧ u.nv = s.nv ∧ u.regs = s.regs ∧
      u.out = s.out ++ response ses req 5 4 (le 4 0) :=
  request_steps 4 (le 4 0) hserves fun m =>
    ⟨_, hf { s with mgmt := m } hheld, rfl, fun _ hu => ⟨hu.flash, hu.nv, hu.regs, hu.out⟩⟩

theorem profileList_answered {ses : Fin 16} {req : Nat} {s : State} (hserves : s.Serves ses req true false) :
    Steps (exec (.profileList ses req) s) fun u => u.out = s.out ++ response ses req 5 0
        (le 4 (s.rdN (R.IMG_SLOT 0)) ++ le 4 (s.rdN (R.IMG_SLOT 1)) ++ le 4 (s.rdN (R.IMG_SLOT 2)) ++
          le 4 (s.rdN (R.IMG_SLOT 3))) ∧
      u.regs = s.regs ∧ u.nv = s.nv := by
  have hwords : ((List.range 4).flatMap fun n => le 4 (s.rdN (R.IMG_SLOT n))) =
      le 4 (s.rdN (R.IMG_SLOT 0)) ++ le 4 (s.rdN (R.IMG_SLOT 1)) ++ le 4 (s.rdN (R.IMG_SLOT 2)) ++
        le 4 (s.rdN (R.IMG_SLOT 3)) := by simp [List.range_succ]
  rw [exec_profileList, ← hwords]
  exact request_steps 0 _ hserves fun m => ⟨{ s with mgmt := m }, rfl, rfl, fun _ hu => ⟨hu.out, hu.regs, hu.nv⟩⟩

theorem imageCheckDone_valid {slot : Fin 4} {s : State} {k : Nat} (hshape : s.Shaped)
    (hst : ((s.nv.slots[slot.val]?).getD {}).st = 1)
    (hcheck : checkImage s.flash (slotBase slot.val) s.nv.keys s.nv.compat = .good k) :
    Steps (exec (.imageCheckDone slot) s) fun u =>
      u.flash = s.flash ∧ (u.nv.slots[slot.val]?).getD {} = s.checkedMeta slot.val k :=
  ⟨_, imageCheckDone_good hst hcheck, State.markSlot_flash _ _ _, State.markSlot_slot hshape _ _⟩

theorem imageCheckDone_invalid {slot : Fin 4} {s : State} {code : Nat} {data : List Byte} (hshape : s.Shaped)
    (hst : ((s.nv.slots[slot.val]?).getD {}).st = 1) (hroom : s.Room islFlash)
    (hcheck : checkImage s.flash (slotBase slot.val) s.nv.keys s.nv.compat = .bad code data) :
    Steps (exec (.imageCheckDone slot) s) fun u => u.flash = s.flash ∧ ((u.nv.slots[slot.val]?).getD {}).st = 3 ∧
      u.get F.IMG_STATUS_LAST_FAIL = code % 256 ∧ Raises s u code islFlash data := by
  have hroom' : (s.markSlot slot.val { st := 3 }).Room islFlash := by rwa [State.Room, State.markSlot_recd]
  obtain ⟨hfail, r, hqueue, hraise⟩ := checkFailed_room hroom' code data
  rw [State.markSlot_recd] at hqueue
  refine ⟨_, imageCheckDone_bad hst hcheck, ?_, ?_, hfail, r, hqueue, hraise⟩
  · rw [checkFailed_flash, State.markSlot_flash]
  · rw [checkFailed_nv, State.markSlot_slot hshape]

/-- Settles O7: each clause is the rule of its command in its case. -/
theorem profileSlots : Obligations.ProfileSlots := by
  unfold Obligations.ProfileSlots
  refine ⟨?chunk, ?chunkHeld, ?finish, ?check, ?list, ?finishHeld, ?idle⟩
  case chunk => exact fun _ _ _ _ _ _ hserves hheld hlen hend hshape => profileChunk_written hserves hheld hlen hend hshape
  case chunkHeld =>
    intro ses req slot off data s hserves hheld
    rw [exec_profileChunk]
    exact request_held hserves hheld fun _ ht => profileChunk_held off data ht
  case finish => exact fun _ _ _ _ hserves hheld hshape => profileFinish_started hserves hheld hshape
  case check =>
    intro slot s hshape hst hroom
    cases hcheck : checkImage s.flash (slotBase slot.val) s.nv.keys s.nv.compat with
    | good k =>
      obtain ⟨u, hexec, hflash, hmeta⟩ := imageCheckDone_valid hshape hst hcheck
      refine ⟨u, hexec, hflash, ?_⟩
      simp only [hmeta, State.checkedMeta, and_self]
    | bad code data => exact imageCheckDone_invalid hshape hst hroom hcheck
  case list => exact fun _ _ _ hserves => profileList_answered hserves
  case finishHeld =>
    intro ses req slot s hserves hheld
    rw [exec_profileFinish]
    exact request_held hserves hheld fun _ ht => profileFinish_held ht
  case idle => exact fun _ _ hst => imageCheckDone_idle hst

/-! ## The choice of profile -/

theorem exec_profileSelect (ses : Fin 16) (req : Nat) (slot : Option (Fin 4)) (persist : Bool) (s : State) :
    exec (.profileSelect ses req slot persist) s =
      .next (s.request ses req 5 true false fun s => (s.choose (slotChoice slot) persist).ok []) := by
  cases slot <;> rfl

theorem exec_profileClear (ses : Fin 16) (req : Nat) (s : State) :
    exec (.profileClear ses req) s = .next (s.request ses req 5 true false fun s => s.unchoose.ok []) := by rfl

theorem exec_selSet (s : State) : exec .selSet s = .next s.selSet := by rfl

theorem exec_selClear (s : State) : exec .selClear s = .next s.unchoose := by rfl

/-- A request of the profile commands that changes the choice alone is answered OK. -/
theorem request_choice {ses : Fin 16} {req : Nat} {s : State} {f : State → State} {nv : Nv} {keep : KeepState}
    (hserves : s.Serves ses req true false)
    (hf : ∀ m, f { s with mgmt := m } = { s with mgmt := m, nv := nv, keep := keep }) :
    Steps (.next (s.request ses req 5 true false fun s => (f s).ok [])) fun u =>
      u.out = s.out ++ response ses req 5 0 [] ∧ u.regs = s.regs ∧ u.nv = nv ∧ u.keep = keep :=
  request_steps 0 [] hserves fun m => ⟨_, congrArg (State.ok · []) (hf m), rfl, fun _ hu => ⟨hu.out, hu.regs, hu.nv, hu.keep⟩⟩

/-- Settles O8: each command records or removes what it says, and nothing else changes. -/
theorem profileChoice : Obligations.ProfileChoice := by
  unfold Obligations.ProfileChoice
  refine ⟨?persistent, ?volatile, ?clear, ?setSlot, ?setFactory, ?selClear⟩
  case persistent =>
    intro ses req slot s hserves
    rw [exec_profileSelect]
    exact request_choice hserves fun _ => rfl
  case volatile =>
    intro ses req slot s hserves
    rw [exec_profileSelect]
    exact request_choice hserves fun _ => rfl
  case clear =>
    intro ses req s hserves
    rw [exec_profileClear]
    exact request_choice hserves fun _ => rfl
  case setSlot =>
    intro s hfactory hpersist
    have hset : s.selSet = s.choose (.slot (s.get F.IMG_SEL_SEL_SLOT)) true := by simp [State.selSet, hfactory, hpersist]
    rw [exec_selSet, hset]
    exact ⟨_, rfl, rfl, rfl, rfl⟩
  case setFactory =>
    intro s hfactory hpersist
    have hset : s.selSet = s.choose .factory false := by simp [State.selSet, hfactory, hpersist]
    rw [exec_selSet, hset]
    exact ⟨_, rfl, rfl⟩
  case selClear =>
    intro s
    rw [exec_selClear]
    exact ⟨_, rfl, rfl⟩

end Sys2Proof.Machine
end

section
/-! Key records (02 R63 to R66). -/
namespace Sys2Proof.Machine

/-! ## What a record makes of a key store -/

theorem any_enabled_iff (l : List KeySlot) :
    (l.any fun k => decide (k.st = .enabled)) = true ↔ ∃ i, keyState l i = .enabled := by
  simp only [List.any_eq_true, decide_eq_true_eq, List.mem_iff_getElem?, keyState]
  constructor
  · rintro ⟨k, ⟨i, hi⟩, hk⟩
    exact ⟨i, by rw [hi, Option.getD_some, hk]⟩
  · rintro ⟨i, hi⟩
    cases hslot : l[i]? with
    | none => rw [hslot] at hi; cases hi
    | some k => exact ⟨k, ⟨i, hslot⟩, by rwa [hslot] at hi⟩

/-- An install into an EMPTY slot (02 R64). -/
theorem keyApply_install {keys : List KeySlot} {r : KeyRecord} (hinstall : r.install = true)
    (hempty : keyState keys r.slot.val = .empty) :
    keyApply keys r = some (setAt keys r.slot.val fun _ => { st := .enabled, key := r.key }) := by
  rw [keyApply, if_pos hinstall]
  exact if_pos hempty

/-- An install into a slot that is not EMPTY (02 R64). -/
theorem keyApply_occupied {keys : List KeySlot} {r : KeyRecord} (hinstall : r.install = true)
    (hfull : keyState keys r.slot.val ≠ .empty) : keyApply keys r = none := by
  rw [keyApply, if_pos hinstall]
  exact if_neg hfull

/-- A revoke where another slot stays ENABLED (02 R65). -/
theorem keyApply_revoke {keys : List KeySlot} {r : KeyRecord} {i : Nat} (hrevoke : r.install = false) (hi : i ≠ r.slot.val)
    (hother : keyState keys i = .enabled) :
    keyApply keys r = some (setAt keys r.slot.val fun x => { x with st := .revoked }) := by
  rw [keyApply, if_neg (by simp [hrevoke])]
  refine if_pos ((any_enabled_iff _).2 ⟨i, ?_⟩)
  rw [keyState_setAt, if_neg fun h => hi h.1, hother]

/-- A revoke that would leave no ENABLED slot (02 R65). -/
theorem keyApply_last {keys : List KeySlot} {r : KeyRecord} (hrevoke : r.install = false)
    (hothers : ∀ i, i ≠ r.slot.val → keyState keys i ≠ .enabled) : keyApply keys r = none := by
  rw [keyApply, if_neg (by simp [hrevoke])]
  refine if_neg fun hany => ?_
  obtain ⟨i, hi⟩ := (any_enabled_iff _).1 hany
  rw [keyState_setAt] at hi
  split at hi
  · cases hi
  · next hnot =>
    by_cases hslot : i = r.slot.val
    · have hout : ¬ i < keys.length := fun hlt => hnot ⟨hslot, hlt⟩
      simp [keyState, List.getElem?_eq_none (Nat.le_of_not_lt hout)] at hi
    · exact hothers i hslot hi

/-! ## What a module does with a record -/

/-- The key store replaced, as IMG_KEYS shows it. -/
def State.storeKeys (s : State) (k : List KeySlot) : State := (s.inNv fun v => { v with keys := k }).showNv

@[simp] theorem State.storeKeys_keys (s : State) (k : List KeySlot) : (s.storeKeys k).nv.keys = k := by
  rw [State.storeKeys, State.showNv_nv, State.inNv_nv]
@[simp] theorem State.storeKeys_out (s : State) (k : List KeySlot) : (s.storeKeys k).out = s.out := State.showNv_out _
@[simp] theorem State.storeKeys_mgmt (s : State) (k : List KeySlot) : (s.storeKeys k).mgmt = s.mgmt := State.showNv_mgmt _
@[simp] theorem State.storeKeys_recd (s : State) (k : List KeySlot) : (s.storeKeys k).recd = s.recd := State.showNv_recd _
theorem State.storeKeys_role (s : State) (k : List KeySlot) : (s.storeKeys k).role = s.role := State.showNv_role _

/-- A record that takes effect: the store, and the event of its action (02 R66). -/
def State.keyed (s : State) (install : Bool) (k : List KeySlot) : State :=
  (s.storeKeys k).raise (if install then 0x1040 else 0x1041) islMgmt []

theorem State.keyed_keys (s : State) (b : Bool) (k : List KeySlot) : (s.keyed b k).nv.keys = k := by
  rw [State.keyed, State.raise_nv, State.storeKeys_keys]

theorem State.keyed_out (s : State) (b : Bool) (k : List KeySlot) : (s.keyed b k).out = s.out := by
  rw [State.keyed, State.raise_out, State.storeKeys_out]

theorem State.keyed_raises {s : State} (h : s.Room islMgmt) (b : Bool) (k : List KeySlot) :
    Raises s (s.keyed b k) (if b then 0x1040 else 0x1041) islMgmt [] := Raises.raise h (s.storeKeys_recd k) _ _

theorem State.storeKeys_room {s : State} (h : s.Room islMgmt) (k : List KeySlot) : (s.storeKeys k).Room islMgmt := by
  rwa [State.Room, State.storeKeys_recd]

theorem State.keyed_mgmt {s : State} (h : s.Room islMgmt) (b : Bool) (k : List KeySlot) : (s.keyed b k).mgmt = s.mgmt := by
  rw [State.keyed, State.raise_room_mgmt (State.storeKeys_room h k), State.storeKeys_mgmt]

theorem State.keyed_isActive {s : State} (h : s.Room islMgmt) (b : Bool) (k : List KeySlot) :
    (s.keyed b k).isActive = s.isActive := by
  rw [State.isActive, State.role, State.keyed, State.raise_room_get (State.storeKeys_room h k), ← State.role,
    State.storeKeys_role, ← State.isActive]

theorem keyTake_some {s : State} {r : KeyRecord} {k : List KeySlot} (h : keyApply s.nv.keys r = some k) :
    s.keyTake r = (s.keyed r.install k, true) := by
  rw [State.keyTake, h]
  rfl

theorem keyTake_none {s : State} {r : KeyRecord} (h : keyApply s.nv.keys r = none) :
    s.keyTake r = (s.raise 0x1042 islMgmt [], false) := by
  rw [State.keyTake, h]

/-! ## A record of the active -/

theorem exec_keyRecordFromActive (r : KeyRecord) (s : State) : exec (.keyRecordFromActive r) s = .next (s.keyTake r).1 := by rfl

theorem keyRecordFromActive_taken {s : State} {r : KeyRecord} {k : List KeySlot} (h : keyApply s.nv.keys r = some k)
    (hroom : s.Room islMgmt) : Steps (exec (.keyRecordFromActive r) s) fun u =>
      u.nv.keys = k ∧ Raises s u (if r.install then 0x1040 else 0x1041) islMgmt [] ∧ u.out = s.out := by
  rw [exec_keyRecordFromActive, keyTake_some h]
  exact ⟨_, rfl, State.keyed_keys _ _ _, State.keyed_raises hroom _ _, State.keyed_out _ _ _⟩

theorem keyRecordFromActive_refused {s : State} {r : KeyRecord} (h : keyApply s.nv.keys r = none)
    (hroom : s.Room islMgmt) : Steps (exec (.keyRecordFromActive r) s) fun u =>
      u.nv = s.nv ∧ u.regs = s.regs ∧ Raises s u 0x1042 islMgmt [] := by
  rw [exec_keyRecordFromActive, keyTake_none h]
  exact ⟨_, rfl, State.raise_nv _ _ _ _, State.raise_room_regs hroom _ _, Raises.raise hroom rfl _ _⟩

/-! ## A record that a session gives -/

theorem exec_profileKey (ses : Fin 16) (req : Nat) (r : KeyRecord) (s : State) :
    exec (.profileKey ses req r) s = .next (s.request ses req 5 true false fun s => s.profileKey r) := by rfl

/-- A module hands a record that took effect to the standby where it is the active (02 R66). -/
def State.tellKey (s : State) (active : Bool) (r : KeyRecord) : State :=
  if active then s.send (.keyRecord r.install r.slot.val r.key) else s

theorem State.tellKey_out (s : State) (b : Bool) (r : KeyRecord) :
    (s.tellKey b r).out = s.out ++ if b then [.keyRecord r.install r.slot.val r.key] else [] := by
  cases b <;> simp [State.tellKey]

theorem State.tellKey_nv (s : State) (b : Bool) (r : KeyRecord) : (s.tellKey b r).nv = s.nv := by
  cases b <;> rfl

theorem State.tellKey_recd (s : State) (b : Bool) (r : KeyRecord) : (s.tellKey b r).recd = s.recd := by
  cases b <;> rfl

theorem State.tellKey_mgmt (s : State) (b : Bool) (r : KeyRecord) : (s.tellKey b r).mgmt = s.mgmt := by
  cases b <;> rfl

theorem profileKey_signed {s : State} {r : KeyRecord} {k : List KeySlot} (hmagic : r.magicOk = true)
    (hsigned : signedRecord s.nv.keys r = true) (h : keyApply s.nv.keys r = some k) (hroom : s.Room islMgmt) :
    s.profileKey r = ((s.keyed r.install k).tellKey s.isActive r, some (0, [])) := by
  rw [State.profileKey, if_neg (by simp [hmagic, hsigned]), keyTake_some h]
  simp only [State.keyed_isActive hroom, if_true]
  rfl

theorem profileKey_unsigned {s : State} {r : KeyRecord} (h : signedRecord s.nv.keys r = false) :
    s.profileKey r = (s.raise 0x1042 islMgmt [], some (4, le 4 0)) := by
  rw [State.profileKey, if_pos (by simp [h])]
  rfl

/-- A signed record that takes effect, given by a session (02 R63 to R66). -/
theorem profileKey_taken {ses : Fin 16} {req : Nat} {r : KeyRecord} {s : State} {k : List KeySlot}
    (hserves : s.Serves ses req true false) (hmagic : r.magicOk = true) (hsigned : signedRecord s.nv.keys r = true)
    (h : keyApply s.nv.keys r = some k) (hroom : s.Room islMgmt) :
    Steps (exec (.profileKey ses req r) s) fun u => u.nv.keys = k ∧
      Raises s u (if r.install then 0x1040 else 0x1041) islMgmt [] ∧
      u.out = s.out ++ (if s.isActive then [.keyRecord r.install r.slot.val r.key] else []) ++ response ses req 5 0 [] := by
  rw [exec_profileKey]
  refine request_steps 0 [] hserves fun m =>
    ⟨_, profileKey_signed hmagic hsigned h hroom, ?_, fun u hu => ⟨?_, ?_, ?_⟩⟩
  · rw [State.tellKey_mgmt, State.keyed_mgmt]
    exact hroom
  · rw [hu.nv, State.tellKey_nv, State.keyed_keys]
  · obtain ⟨x, hqueue, hx⟩ := State.keyed_raises (s := { s with mgmt := m }) hroom r.install k
    exact ⟨x, by rw [hu.recd, State.tellKey_recd, hqueue], hx⟩
  · rw [hu.out, State.tellKey_out, State.keyed_out]
    rfl

/-- A record that no other ENABLED slot signed, given by a session (02 R63). -/
theorem profileKey_refused {ses : Fin 16} {req : Nat} {r : KeyRecord} {s : State}
    (hserves : s.Serves ses req true false) (h : signedRecord s.nv.keys r = false) (hroom : s.Room islMgmt) :
    Steps (exec (.profileKey ses req r) s) fun u =>
      u.nv.keys = s.nv.keys ∧ Raises s u 0x1042 islMgmt [] ∧ u.out = s.out ++ response ses req 5 4 (le 4 0) := by
  rw [exec_profileKey]
  refine request_steps 4 (le 4 0) hserves fun m => ⟨_, profileKey_unsigned h, ?_, fun u hu => ⟨?_, ?_, ?_⟩⟩
  · rw [State.raise_room_mgmt]
    exact hroom
  · rw [hu.nv, State.raise_nv]
  · obtain ⟨x, hqueue, hx⟩ := Raises.raise (s := { s with mgmt := m }) hroom rfl 0x1042 []
    exact ⟨x, by rw [hu.recd, hqueue], hx⟩
  · rw [hu.out, State.raise_out]

/-- Settles O9: what a record makes of the store (`keyApply`), and what the module does with it. -/
theorem keyRecords : Obligations.KeyRecords := by
  unfold Obligations.KeyRecords
  refine ⟨?session, ?install, ?occupied, ?revoke, ?last⟩
  case session =>
    intro ses req r s hserves hmagic hinstall hempty hshape hroom
    cases hsigned : signedRecord s.nv.keys r with
    | true =>
      obtain ⟨u, hexec, hkeys, hraises, hout⟩ :=
        profileKey_taken hserves hmagic hsigned (keyApply_install hinstall hempty) hroom
      rw [hinstall] at hraises hout
      refine ⟨u, hexec, fun i hi => ?_, ?_⟩
      · rw [hkeys, setAt_getElem?_ne _ _ hi]
      · rw [if_pos rfl, hkeys, setAt_const _ (by rw [hshape.1]; exact r.slot.isLt)]
        exact ⟨rfl, hraises, hout⟩
    | false =>
      obtain ⟨u, hexec, hkeys, hrefused⟩ := profileKey_refused hserves hsigned hroom
      refine ⟨u, hexec, fun i _ => by rw [hkeys], ?_⟩
      rw [if_neg Bool.false_ne_true]
      exact ⟨hkeys, hrefused⟩
  case install =>
    intro r s hinstall hempty hshape hroom
    obtain ⟨u, hexec, hkeys, hraises, hout⟩ := keyRecordFromActive_taken (keyApply_install hinstall hempty) hroom
    rw [hinstall] at hraises
    refine ⟨u, hexec, ?_, fun i hi => ?_, hraises, hout⟩
    · rw [hkeys, setAt_const _ (by rw [hshape.1]; exact r.slot.isLt)]
    · rw [hkeys, setAt_getElem?_ne _ _ hi]
  case occupied => exact fun r s hinstall hfull hroom => keyRecordFromActive_refused (keyApply_occupied hinstall hfull) hroom
  case revoke =>
    intro r i s hrevoke hi hother hshape hroom
    obtain ⟨u, hexec, hkeys, hraises, hout⟩ := keyRecordFromActive_taken (keyApply_revoke hrevoke hi hother) hroom
    rw [hrevoke] at hraises
    refine ⟨u, hexec, ?_, fun j hj => ?_, hraises, hout⟩
    · have hlt : r.slot.val < s.nv.keys.length := by rw [hshape.1]; exact r.slot.isLt
      have hstate := keyState_setAt s.nv.keys r.slot.val (fun x => { x with st := .revoked }) r.slot.val
      rw [if_pos ⟨rfl, hlt⟩] at hstate
      rw [hkeys]
      exact hstate
    · rw [hkeys, setAt_getElem?_ne _ _ hj]
  case last => exact fun r s hrevoke hothers hroom => keyRecordFromActive_refused (keyApply_last hrevoke hothers) hroom

end Sys2Proof.Machine
end

section
/-! Where the statements on change sets, the handover window, its restarts and the retry of a join do not hold. -/
namespace Sys2Proof.Machine

/-! ## The standby's report of a change set (02 R82) -/

theorem exec_changesetForwardRx (c : ChangeSet) (s : State) :
    exec (.changesetForwardRx c) s = execChangesetForwardRx c s := by rfl

/-- The active notes the report for the entries of its staging that are the reported change set (02 R82). -/
theorem changesetForwardRx_active {s : State} (c : ChangeSet) (h : s.isActive = true) : exec (.changesetForwardRx c) s =
    .next { s with cs := s.cs.map fun x => if c.same x then { x with partnerStaged := true } else x } := by
  rw [exec_changesetForwardRx, execChangesetForwardRx, if_pos h]

/-- An active that has staged change set 0, for boundary 8. -/
def stagingActive : State := { State.reset with cs := [{ num := 0, named := 8 }] }.put F.TWN_STATUS_ROLE 1

/-- Refutes O6: its last clause has the active note a report for every staged change set of the reported number, but one that only
shares the number and differs otherwise is not the one the standby has staged, and stays as it is. The counterexample is an active
that has staged a change set for boundary 8 and takes the report of one of the same number for boundary 16. -/
theorem not_changeSetsStaged : ¬ Obligations.ChangeSetsStaged := by
  unfold Obligations.ChangeSetsStaged
  rintro ⟨-, -, -, -, -, hreport⟩
  have hactive : stagingActive.isActive = true := by decide
  have hstated := hreport { num := 0, named := 16 } stagingActive hactive
  rw [changesetForwardRx_active _ hactive] at hstated
  have hcs := congrArg State.cs (Host.Outcome.next.inj hstated)
  exact absurd hcs (by decide)

/-! ## The expiry of the handover window from SWITCHING on (02 R104) -/

theorem exec_handoverWindowExpiry (t : Nat) (s : State) :
    exec (.handoverWindowExpiry t) s = execHandoverWindowExpiry t s := by rfl

/-- At the expiry a module in SWITCHING or later that runs no image and has accepted none boots the target (02 R104). -/
theorem handoverWindowExpiry_restarting {t : Nat} {s : State} (hstate : 3 < s.nv.hoState)
    (hdue : 60000000000 ≤ (s.at t).hoOpenNs) (himg : s.img = none) (hnext : s.next = none) :
    exec (.handoverWindowExpiry t) s =
      .next (((s.at t).hoClose 0x1034).inNv fun v => { v with boot := some (.slot s.nv.hoTarget) }) := by
  rw [exec_handoverWindowExpiry, execHandoverWindowExpiry]
  rw [State.at_nv, if_neg (by omega), if_neg (by omega), if_pos (by simp [himg, hnext])]

/-- A module in SWITCHING, restarting, whose window has been open for 60 s. -/
def switchingRestart : State := State.reset.inNv fun v => { v with hoState := 4, hoElapsed := 600 }

/-- Refutes O10: its clause on the expiry keeps every part of MRAM but the window, but a module that restarts from SWITCHING on
takes the target image all the same, which the boot choice in MRAM says (02 R104). The counterexample is a module in SWITCHING
without an image, with the target in slot 0. -/
theorem not_handoverWindow : ¬ Obligations.HandoverWindow := by
  unfold Obligations.HandoverWindow
  rintro ⟨-, -, -, hexpiry, -⟩
  have hdue : 60000000000 ≤ (switchingRestart.at 0).hoOpenNs := by decide
  obtain ⟨u, hexec, hnv, -⟩ := hexpiry 0 switchingRestart (by decide) (by decide) hdue (by decide)
  rw [handoverWindowExpiry_restarting (by decide) hdue rfl rfl] at hexec
  have hboot := congrArg (fun v : State => v.nv.boot) (Host.Outcome.next.inj hexec)
  rw [hnv] at hboot
  cases hboot

/-! ## The restart of the image (02 R100; 16 R695) -/

theorem exec_handoverStartFromActive (slot : Fin 4) (t : Nat) (s : State) :
    exec (.handoverStartFromActive slot t) s = execHandoverStartFromActive slot t s := by rfl

theorem handoverStartFromActive_standby {slot : Fin 4} {t : Nat} {s : State} (hidle : s.nv.hoState = 0)
    (hstandby : s.isStandby = true) :
    exec (.handoverStartFromActive slot t) s = .next ((s.at t).hoOpen slot.val true).hoRestart := by
  rw [exec_handoverStartFromActive, execHandoverStartFromActive]
  exact congrArg Host.Outcome.next (if_pos ⟨hidle, hstandby⟩)

/-- A standby whose image uses PD8 and PD22 and has them on, with PD6 off. -/
def lineStandby : State :=
  { State.reset.put F.TWN_STATUS_ROLE 2 with img := some { islands := { domains := [8, 22] } } }.wrN R.PWR_ON 0x403D01

/-- The restart begins at S1, which powers PD6. -/
theorem lineStandby_restart_pd6 : (((lineStandby.at 0).hoOpen 0 true).hoRestart).pd 6 = true := by decide +kernel

/-- Refutes O11: its first clause has every domain of the list powered as it was, but the restart goes through S1, which powers
PD6 (16 R695), and a module whose image does not use PD6 keeps all that it uses with PD6 off. The counterexample is a standby with
PD6 off whose image uses PD8 and PD22. -/
theorem not_handoverRestarts : ¬ Obligations.HandoverRestarts := by
  unfold Obligations.HandoverRestarts
  rintro ⟨hstart, -⟩
  obtain ⟨u, hexec, -, -, -, -, -, -, -, -, hdomains⟩ :=
    hstart 0 0 lineStandby (by decide) (by decide) (by decide) (by decide) (by decide)
  rw [handoverStartFromActive_standby (by decide) (by decide)] at hexec
  obtain rfl := Host.Outcome.next.inj hexec
  have hpd := hdomains 6 (by decide)
  rw [show ((0 : Fin 4).val) = 0 from rfl, lineStandby_restart_pd6] at hpd
  exact absurd hpd (by decide)

/-! ## The retry of a join (09 R429, R469) -/

theorem exec_joinRetry (t : Nat) (s : State) : exec (.joinRetry t) s = execJoinRetry t s := by rfl

theorem joinRetry_due {t : Nat} {s : State} (hjoining : s.tstate = 2) (hretry : s.twin.retry = true)
    (hdue : s.twin.joinStart + 1000000000 ≤ max s.now t) :
    exec (.joinRetry t) s = .next ((s.at t).startJoin false) := by
  rw [exec_joinRetry, execJoinRetry]
  exact congrArg Host.Outcome.next (if_pos ⟨hjoining, hretry, hdue⟩)

/-- A joining module whose attempt has failed while partition 0 was RUNNING, with a constant at address 0 replaced since its
checkpoint, which was 1. -/
def retryingJoiner : State :=
  (((({ State.reset with img := some { parts := [{ part := 0 }] } }.tw fun q => { q with retry := true }).put
    F.TWN_STATUS_TSTATE 2).put (F.CYC_PSTATE_STATE 0) 2).pa 0 fun k => { k with constUndo := [(0, 1)] })

/-- The new attempt abandons the activation, whose rollback restores the constant (05 R222). -/
theorem retryingJoiner_mem : ((retryingJoiner.at 1000000000).startJoin false).mem ≠ retryingJoiner.mem := by decide +kernel

/-- Refutes O29: its clause on the retry leaves memory as it was, but a new attempt abandons the activations of the one before
(09 R469), and their rollback writes memory (05 R222). The counterexample is a joining module with an activation in progress that
has replaced a constant. -/
theorem not_joiningAndSignatures : ¬ Obligations.JoiningAndSignatures := by
  unfold Obligations.JoiningAndSignatures
  rintro ⟨-, -, -, -, -, -, -, -, -, hretry, -⟩
  obtain ⟨u, hexec, -, -, -, -, hmem⟩ := hretry 1000000000 retryingJoiner (by decide) (by decide) (by decide)
  rw [joinRetry_due (by decide) (by decide) (by decide)] at hexec
  obtain rfl := Host.Outcome.next.inj hexec
  exact retryingJoiner_mem hmem

end Sys2Proof.Machine
end

section
/-! Rules of the fabric's statements: counting fields, raises alone, core pairs that run (03 R121; 12 R559; 17 R749). -/
namespace Sys2Proof.Machine

/-! ## Counting fields and raises -/

/-- A counting field after it counted. -/
theorem State.get_bump_same (s : State) {f : Fld} (n : Nat) (h : f.lo + f.len ≤ 32) :
    (s.bump f n).get f = min (s.get f + n) (2 ^ f.len - 1) := by
  have hpos := Nat.two_pow_pos f.len
  rw [State.bump, State.get_put_same _ _ h, Nat.mod_eq_of_lt (by omega)]

/-- An error that is counted and raised, with room for the raise: nothing else changes. -/
theorem State.bump_raise {s : State} {f : Fld} {isl : Nat} (n code : Nat) (data : List Byte) (hf : f.lo + f.len ≤ 32)
    (hroom : s.Room isl) : ((s.bump f n).raise code isl data).get f = min (s.get f + n) (2 ^ f.len - 1) ∧
      Raises s ((s.bump f n).raise code isl data) code isl data ∧
      (s.bump f n).raise code isl data = { s with
        regs := ((s.bump f n).raise code isl data).regs, recd := ((s.bump f n).raise code isl data).recd } ∧
      SameRegs s ((s.bump f n).raise code isl data) [f.off] := by
  have hroom' : (s.bump f n).Room isl := hroom
  refine ⟨?_, Raises.raise (t := s.bump f n) hroom rfl _ _, ?_, ?_⟩
  · rw [State.raise_room_get hroom']
    exact State.get_bump_same s n hf
  · rw [State.raise_room _ hroom']
    rfl
  · exact SameRegs.of_regs (State.raise_room_regs hroom' _ _) (SameRegs.put _ (List.mem_cons_self ..) (SameRegs.refl _ _))

/-- A raise with room for it, and nothing else. -/
theorem State.raise_only {s : State} {isl : Nat} (h : s.Room isl) (code : Nat) (data : List Byte) :
    Raises s (s.raise code isl data) code isl data ∧
      s.raise code isl data = { s with recd := (s.raise code isl data).recd } := by
  refine ⟨Raises.raise h rfl _ _, ?_⟩
  rw [State.raise_room s h]

/-! ## Core pairs that run -/

/-- Whether a core pair runs is read off its register and its own state. -/
theorem State.coreRuns_congr {s t : State} {c : Nat} (hreg : t.rd (R.CYC_CORE c) = s.rd (R.CYC_CORE c))
    (hcore : t.core c = s.core c) : t.coreRuns c = s.coreRuns c := by
  have hget : t.get (F.CYC_CORE_STATE c) = s.get (F.CYC_CORE_STATE c) := congrArg (getBits · 0 2) hreg
  rw [State.coreRuns, State.coreRuns, hget, hcore]

theorem State.core_of_cores {s t : State} (h : t.cores = s.cores) (c : Nat) : t.core c = s.core c := by
  rw [State.core, h, State.core]

end Sys2Proof.Machine
end

section
/-! What stores leave behind on their way out, how an activation ends, and trap entry (03 R108; 05 R218, R219, R221; 12 R559, R561,
R566, R579). -/
namespace Sys2Proof.Machine

/-! ## Steps that leave the image, the low registers and the core pairs -/

/-- The image, the registers below those of CYC, and every core pair are those of another state. -/
structure Quiet (s t : State) : Prop where
  img : t.img = s.img
  low : ∀ o < 0xC0000, t.rd o = s.rd o
  core : ∀ j, t.core j = s.core j

theorem Quiet.refl (s : State) : Quiet s s := ⟨rfl, fun _ _ => rfl, fun _ => rfl⟩

theorem Quiet.trans {s t u : State} (h : Quiet s t) (h' : Quiet t u) : Quiet s u :=
  ⟨h'.img.trans h.img, fun o ho => (h'.low o ho).trans (h.low o ho), fun j => (h'.core j).trans (h.core j)⟩

theorem Quiet.of_eq {s t : State} (himg : t.img = s.img) (hregs : t.regs = s.regs) (hcores : t.cores = s.cores) : Quiet s t :=
  ⟨himg, fun o _ => by rw [State.rd, hregs, State.rd], State.core_of_cores hcores⟩

theorem Quiet.wr (s : State) {o : Nat} (w : Word) (ho : 0xC0000 ≤ o) : Quiet s (s.wr o w) :=
  ⟨rfl, fun _ hp => State.rd_wr_ne _ _ (by omega), fun _ => rfl⟩

theorem Quiet.put (s : State) {f : Fld} (v : Nat) (hf : 0xC0000 ≤ f.off) : Quiet s (s.put f v) := Quiet.wr s _ hf

theorem Quiet.bump (s : State) {f : Fld} (n : Nat) (hf : 0xC0000 ≤ f.off) : Quiet s (s.bump f n) := Quiet.put s _ hf

theorem Quiet.raise (s : State) (code isl : Nat) (data : List Byte) : Quiet s (s.raise code isl data) := by
  refine ⟨State.raise_img _ _ _ _, fun o ho => State.rd_raise s code isl data ?_ ?_,
    State.core_of_cores (State.raise_cores _ _ _ _)⟩
  · simp only [F.EVT_COUNTS_LOST]
    omega
  · simp only [F.EVT_STATUS_LOST]
    omega

theorem Quiet.each {α : Type} {f : State → α → State} {l : List α} (hf : ∀ t, ∀ x ∈ l, Quiet t (f t x)) (s : State) :
    Quiet s (s.each l f) :=
  List.foldlRecOn l f (Quiet.refl s) fun t ht x hx => ht.trans (hf t x hx)

/-- The same change of one core pair on both sides. -/
theorem Quiet.co {s t : State} (h : Quiet s t) (c : Nat) (f : CoreState → CoreState) : Quiet (s.co c f) (t.co c f) := by
  obtain ⟨himg, hregs, hcores⟩ := h
  exact ⟨himg, hregs, fun j => by rw [State.core_co, State.core_co, hcores, hcores]⟩

/-! ## HBM channels that are off -/

theorem State.islandOff_congr {s t : State} (h : t.rd R.PWR_ON = s.rd R.PWR_ON) (n : Nat) : t.islandOff n = s.islandOff n := by
  have hpd (d : Nat) : t.pd d = s.pd d := by rw [State.pd, State.rdN, h, State.pd, State.rdN]
  unfold State.islandOff
  cases islandPd n with
  | none => rfl
  | some d => exact congrArg (!·) (hpd d)

/-- Whether an address finds its channel off is read off the image and PWR_ON. -/
theorem State.hbmOff_congr {s t : State} (himg : t.img = s.img) (hpower : t.rd R.PWR_ON = s.rd R.PWR_ON) :
    t.hbmOff = s.hbmOff := by
  have himage : t.image = s.image := by rw [State.image, himg, State.image]
  have hkey : t.hbmKey = s.hbmKey := by rw [State.hbmKey, himage, State.hbmKey]
  funext a
  rw [State.hbmOff, hkey, State.islandOff_congr hpower, State.hbmOff]

theorem Quiet.hbmOff {s t : State} (h : Quiet s t) : t.hbmOff = s.hbmOff := State.hbmOff_congr h.img (h.low _ (by decide))

/-! ## Stores on their way out -/

theorem sramCell_slot {a o i : Nat} (h : sramCell a = .slot o i) : 0x20000000 ≤ o := by
  unfold sramCell at h
  dsimp only at h
  repeat' split at h
  all_goals cases h
  exact Nat.le_add_right _ _

theorem State.cellStore_quiet (s : State) (a : Nat) (b : Byte) : Quiet s (s.cellStore a b) := by
  unfold State.cellStore
  split
  case h_4 hcell => exact Quiet.wr s _ (by have := sramCell_slot hcell; omega)
  case h_5 => split <;> exact Quiet.of_eq rfl rfl rfl
  case h_6 => split <;> exact Quiet.of_eq rfl rfl rfl
  all_goals exact Quiet.of_eq rfl rfl rfl

theorem State.unpoison_quiet (s : State) (a n : Nat) : Quiet s (s.unpoison a n) :=
  Quiet.of_eq (State.unpoison_img _ _ _) (State.unpoison_regs _ _ _) (State.unpoison_cores _ _ _)

theorem State.sysW_quiet (s : State) (a : Nat) (l : List Byte) : Quiet s (s.sysW a l) :=
  (Quiet.of_eq rfl rfl rfl : Quiet s (s.memW a l)).trans (State.unpoison_quiet _ _ _)

theorem State.coreW_quiet (s : State) (a : Nat) (l : List Byte) : Quiet s (s.coreW a l) := by
  unfold State.coreW
  split
  · exact (Quiet.each (fun t e _ => State.cellStore_quiet t _ _) s).trans (State.unpoison_quiet _ _ _)
  · exact State.sysW_quiet s a l

theorem State.pa_quiet (s : State) (p : Nat) (f : PartState → PartState) : Quiet s (s.pa p f) := Quiet.of_eq rfl rfl rfl

theorem State.storeTrack_quiet (s : State) (c a : Nat) : Quiet s (s.storeTrack c a) := by
  unfold State.storeTrack
  dsimp only
  split
  case h_1 => exact Quiet.refl s
  case h_2 =>
    split
    case isTrue =>
      split
      · exact Quiet.refl s
      · exact (State.sysW_quiet s _ _).trans (State.pa_quiet _ _ _)
    case isFalse =>
      split
      case isTrue =>
        split
        · exact Quiet.refl s
        · exact State.pa_quiet _ _ _
      case isFalse => exact Quiet.refl s

/-- The error of a store is kept for the trap entry, behind one that waits already (12 R559). -/
def CoreState.charged (k : CoreState) (x : Option Nat) : CoreState := { k with storeErr := k.storeErr.or x }

@[simp] theorem CoreState.charged_none (k : CoreState) : k.charged none = k := by rw [CoreState.charged, Option.or_none]

theorem CoreState.charged_charged (k : CoreState) (x y : Option Nat) : (k.charged x).charged y = k.charged (x.or y) := by
  simp only [CoreState.charged, Option.or_assoc]

/-- A core pair with the error of a store charged. -/
def State.charge (s : State) (c : Nat) (x : Option Nat) : State := s.co c fun k => k.charged x

/-- The address of the first of some stores that finds its channel off (03 R108). -/
def State.firstOff (s : State) (l : List BufStore) : Option Nat := (l.find? fun e => s.hbmOff e.addr).map BufStore.addr

theorem State.charge_none_quiet (s : State) (c : Nat) : Quiet (s.charge c none) s := by
  refine ⟨rfl, fun _ _ => rfl, fun j => ?_⟩
  rw [State.charge, State.core_co, CoreState.charged_none]
  split
  case isTrue hj => rw [hj]
  case isFalse => rfl

theorem State.charge_charge_quiet (s : State) (c : Nat) (x y : Option Nat) :
    Quiet (s.charge c (x.or y)) ((s.charge c x).charge c y) := by
  refine ⟨rfl, fun _ _ => rfl, fun j => ?_⟩
  rw [State.charge, State.core_co, State.charge, State.core_co_same, State.core_co, State.charge, State.core_co]
  split
  case isTrue => exact CoreState.charged_charged _ _ _
  case isFalse => rfl

theorem State.noIsland_quiet (s : State) (src router : Nat) : Quiet s (s.noIsland src router) := by
  unfold State.noIsland
  exact (Quiet.raise s _ _ _).trans (Quiet.of_eq (State.send_img _ _) (State.send_regs _ _) (State.send_cores _ _))

theorem State.storeOut_quiet (s : State) (c : Nat) (e : BufStore) :
    Quiet (s.charge c (s.firstOff [e])) (s.storeOut c e) := by
  unfold State.storeOut
  split
  case isTrue hoff =>
    have hfirst : s.firstOff [e] = some e.addr := by simp [State.firstOff, hoff]
    rw [hfirst]
    exact (State.noIsland_quiet s c _).co c _
  case isFalse hon =>
    have hfirst : s.firstOff [e] = none := by simp [State.firstOff, hon]
    rw [hfirst]
    exact (State.charge_none_quiet s c).trans ((State.storeTrack_quiet s c _).trans (State.coreW_quiet _ _ _))

theorem State.firstOff_cons (s : State) (e : BufStore) (l : List BufStore) :
    s.firstOff (e :: l) = (s.firstOff [e]).or (s.firstOff l) := by
  cases h : s.hbmOff e.addr <;> simp [State.firstOff, h]

theorem State.storesOut_quiet (s : State) (c : Nat) (l : List BufStore) :
    Quiet (s.charge c (s.firstOff l)) (s.each l fun t e => t.storeOut c e) := by
  induction l generalizing s with
  | nil => exact State.charge_none_quiet s c
  | cons e l ih =>
    have hhead := State.storeOut_quiet s c e
    have hoff : (s.storeOut c e).firstOff l = s.firstOff l := by rw [State.firstOff, hhead.hbmOff]; rfl
    have htail := ih (s.storeOut c e)
    rw [hoff] at htail
    rw [State.firstOff_cons]
    exact ((State.charge_charge_quiet s c _ _).trans (hhead.co c _)).trans htail

/-- A core pair whose stores have left, the first error among them charged (12 R559, R579). -/
def CoreState.flushed (k : CoreState) (err : Option Nat) : CoreState :=
  { k with buf := [], sig := 2 ^ 64 - 1, windows := k.windows + 1, storeErr := k.storeErr.or err }

theorem State.flush_quiet (s : State) (c : Nat) :
    Quiet (s.co c fun k => k.flushed (s.firstOff (s.core c).buf)) (s.flush c) := by
  obtain ⟨himg, hregs, hcores⟩ := State.storesOut_quiet s c (s.core c).buf
  refine ⟨himg, hregs, fun j => ?_⟩
  rw [State.flush, State.core_co, State.core_co, hcores, hcores, State.charge, State.core_co_same, State.core_co]
  split
  · rfl
  · rfl

theorem State.flush_core (s : State) (c : Nat) : (s.flush c).core c = (s.core c).flushed (s.firstOff (s.core c).buf) := by
  rw [(State.flush_quiet s c).core, State.core_co_same]

/-- No store is charged where none was and every store that waits finds its channel on. -/
theorem State.storesGood_iff (s : State) (c : Nat) :
    s.StoresGood c ↔ (s.core c).storeErr.or (s.firstOff (s.core c).buf) = none := by
  rw [State.StoresGood, State.flush_core]
  rfl

theorem State.StoresGood.congr {s t : State} {c : Nat} (h : s.StoresGood c) (hcore : t.core c = s.core c)
    (hoff : t.hbmOff = s.hbmOff) : t.StoresGood c := by
  rw [State.storesGood_iff] at h ⊢
  rwa [hcore, State.firstOff, hoff, ← State.firstOff]

/-! ## The end of an activation -/

/-- A core pair but for the partitions that run, wait or freeze on it. -/
def CoreState.SameContext (k n : CoreState) : Prop :=
  n = { k with cur := n.cur, oth := n.oth, deep := n.deep, ready := n.ready, frozen := n.frozen }

theorem CoreState.SameContext.refl (k : CoreState) : k.SameContext k := rfl

/-- An activation that ends leaves the context of a core pair that does not run it at U (05 R219). -/
theorem State.coreDrop_context {s : State} {c : Nat} (h : (s.core c).level ≠ 0) (p : Nat) :
    (s.core c).SameContext ((s.coreDrop p).core c) := by
  unfold State.coreDrop
  dsimp only
  rw [State.core_setCore]
  split
  case isTrue hc =>
    rw [hc]
    simp [CoreState.SameContext, h]
  case isFalse =>
    split <;> exact CoreState.SameContext.refl _

theorem State.setPst_quiet (s : State) (p n : Nat) : Quiet s (s.setPst p n) := by
  refine (Quiet.put s n ?_).trans (Quiet.put _ _ (by decide))
  simp only [F.CYC_PSTATE_STATE]
  omega

theorem State.countAbort_quiet (s : State) (p kind : Nat) : Quiet s (s.countAbort p kind) := by
  have hfault : 0xC0000 ≤ (F.CYC_PSTATE_LAST_FAULT p).off ∧ 0xC0000 ≤ (F.CYC_PFAULT_ABORTS p).off := by
    simp only [F.CYC_PSTATE_LAST_FAULT, F.CYC_PFAULT_ABORTS]
    omega
  have hpart (k : PartState) : Quiet s (s.setPart p k) := Quiet.of_eq rfl rfl rfl
  have htotal (t : State) : Quiet t (t.total 0x088 4 1) := Quiet.of_eq rfl rfl rfl
  unfold State.countAbort
  exact ((((hpart _).trans (Quiet.put _ _ hfault.1)).trans (Quiet.bump _ _ hfault.2)).trans
    (Quiet.put _ _ (by decide))).trans (htotal _)

theorem State.abortEvent_quiet (s : State) (p kind pc : Nat) : Quiet s (s.abortEvent p kind pc) := by
  unfold State.abortEvent
  dsimp only
  split
  case h_3 => exact Quiet.refl s
  all_goals exact Quiet.raise _ _ _ _

/-- Behind the core pair that an abort leaves, it touches no other and no low register. -/
theorem State.abortNow_quiet (s : State) (p kind pc : Nat) : Quiet (s.coreDrop p) (s.abortNow p kind pc) := by
  have hnote (t : State) : Quiet t (t.noteEnd p kind) := Quiet.of_eq rfl rfl rfl
  unfold State.abortNow
  exact (((State.countAbort_quiet _ p kind).trans (hnote _)).trans (State.setPst_quiet _ p 6)).trans
    (State.abortEvent_quiet _ p kind pc)

theorem State.coreDrop_rd (s : State) (p o : Nat) : (s.coreDrop p).rd o = s.rd o := by
  unfold State.coreDrop
  dsimp only
  split <;> rfl

theorem State.abortCur_keeps {s : State} {c : Nat} (h : (s.core c).level ≠ 0) (kind pc : Nat) :
    (s.core c).SameContext ((s.abortCur c kind pc).core c) ∧ ∀ o < 0xC0000, (s.abortCur c kind pc).rd o = s.rd o := by
  unfold State.abortCur State.abortPart
  split
  case h_2 => exact ⟨CoreState.SameContext.refl _, fun _ _ => rfl⟩
  case h_1 p _ =>
    split
    case isFalse => exact ⟨CoreState.SameContext.refl _, fun _ _ => rfl⟩
    case isTrue =>
      obtain ⟨_, hregs, hcores⟩ := State.abortNow_quiet s p kind pc
      exact ⟨(hcores c).symm ▸ State.coreDrop_context h p, fun o ho => (hregs o ho).trans (State.coreDrop_rd s p o)⟩

/-! ## Trap entry from U -/

/-- A core pair that has entered the runtime by a trap, its stores gone (12 R566). -/
def CoreState.entered (k : CoreState) (cause tval npc : DWord) (vec : Nat) : CoreState :=
  { k with tpc := npc, tstatus := 4, tcause := cause, tval := tval, level := 1,
           pc := k.stvec + BitVec.ofNat 64 (64 * vec), storeErr := none }

theorem State.enterS_core (s : State) (c : Nat) (cause tval npc : DWord) (vec : Nat) :
    (s.enterS c cause tval npc vec).core c = ((s.flush c).core c).entered cause tval npc vec := State.core_co_same _ _ _

theorem State.enterS_rd (s : State) (c : Nat) (cause tval npc : DWord) (vec : Nat) {o : Nat} (ho : o < 0xC0000) :
    (s.enterS c cause tval npc vec).rd o = s.rd o := (State.flush_quiet s c).low o ho

/-- What a trap at U does behind the entry, where no store is charged: it may abort the activation. -/
theorem State.trapAt_context {s : State} {c : Nat} (code : Nat) (tval : DWord) (hlevel : (s.core c).level = 0)
    (hgood : s.StoresGood c) :
    ((((s.flush c).core c).flushed none).entered (BitVec.ofNat 64 code) tval (s.core c).pc code).SameContext
      ((s.trapAt c code tval).core c) ∧ ∀ o < 0xC0000, (s.trapAt c code tval).rd o = s.rd o := by
  have hcore : ((s.flush c).enterS c (BitVec.ofNat 64 code) tval (s.core c).pc code).core c =
      (((s.flush c).core c).flushed none).entered (BitVec.ofNat 64 code) tval (s.core c).pc code := by
    rw [State.enterS_core, State.flush_core (s.flush c), State.flush_core s]
    rfl
  have hregs (o : Nat) (ho : o < 0xC0000) :
      ((s.flush c).enterS c (BitVec.ofNat 64 code) tval (s.core c).pc code).rd o = s.rd o :=
    (State.enterS_rd _ c _ _ _ _ ho).trans ((State.flush_quiet s c).low o ho)
  have hruntime : (((s.flush c).enterS c (BitVec.ofNat 64 code) tval (s.core c).pc code).core c).level ≠ 0 := by
    rw [State.enterS_core]
    exact Nat.one_ne_zero
  rw [← hcore, State.trapAt, State.trap]
  dsimp only
  rw [if_neg (by simp [hlevel])]
  split
  case h_1 a hcharged => exact absurd (hgood.symm.trans hcharged) (by simp)
  case h_2 =>
    rw [Nat.mul_zero, Nat.add_zero]
    split
    case h_1 f _ =>
      obtain ⟨hcontext, hlow⟩ := State.abortCur_keeps hruntime f (s.core c).pc.toNat
      exact ⟨hcontext, fun o ho => (hlow o ho).trans (hregs o ho)⟩
    case h_2 => exact ⟨CoreState.SameContext.refl _, hregs⟩

/-- A trap at U enters the runtime with its cause at its vector, whatever activation it aborts (12 R561, R566). -/
theorem State.trapAt_enters {s : State} {c : Nat} (code : Nat) (tval : DWord) (hlevel : (s.core c).level = 0)
    (hgood : s.StoresGood c) : Enters s (s.trapAt c code tval) c (BitVec.ofNat 64 code) code (s.core c).pc ∧
      ((s.trapAt c code tval).core c).tval = tval := by
  obtain ⟨hcontext, -⟩ := State.trapAt_context code tval hlevel hgood
  rw [State.flush_core] at hcontext
  rw [Enters, hcontext]
  exact ⟨⟨rfl, rfl, rfl, rfl, rfl, rfl, rfl, rfl, rfl, rfl, rfl, rfl, rfl⟩, rfl⟩

/-- A trap at U writes no register below those of CYC. -/
theorem State.trapAt_rd {s : State} {c : Nat} (code : Nat) (tval : DWord) (hlevel : (s.core c).level = 0)
    (hgood : s.StoresGood c) {o : Nat} (ho : o < 0xC0000) : (s.trapAt c code tval).rd o = s.rd o :=
  (State.trapAt_context code tval hlevel hgood).2 o ho

end Sys2Proof.Machine
end

section
/-! Transactions and their tags (03 R108, R119 to R121; 12 R559). -/
namespace Sys2Proof.Machine

/-! ## Timeouts -/

theorem exec_transactionTimeout (r : TxReq) (dst : Fin 256) (tag : Fin 16384) (t : Nat) (s : State) :
    exec (.transactionTimeout r dst tag t) s = execTransactionTimeout r dst tag t s := by rfl

theorem transactionTimeout_overdue {r : TxReq} (dst : Fin 256) {tag : Fin 16384} {t : Nat} {s : State}
    (h : (s.at t).overdue r.island tag.val = true) : exec (.transactionTimeout r dst tag t) s =
      .next (((s.at t).tagTimeout r.island dst.val tag.val).errorResponse r) := by
  rw [exec_transactionTimeout, execTransactionTimeout]
  exact congrArg Host.Outcome.next (if_pos h)

theorem transactionTimeout_young {r : TxReq} (dst : Fin 256) {tag : Fin 16384} {t : Nat} {s : State}
    (h : (s.at t).overdue r.island tag.val = false) : exec (.transactionTimeout r dst tag t) s = .next (s.at t) := by
  rw [exec_transactionTimeout, execTransactionTimeout]
  exact congrArg Host.Outcome.next (if_neg (by simp [h]))

/-- The tag of a source out of flight and into quarantine for 10 µs (03 R121). -/
def State.quarantined (s : State) (src tag : Nat) : State :=
  s.fb fun u => { u with
    inflight := u.inflight.filter (fun e => !(decide (e.tag = tag) && decide (e.src = src)))
    quarantine := u.quarantine ++ [(src, tag, s.now + 10000)] }

theorem tagTimeout_eq (s : State) (src dst tag : Nat) : s.tagTimeout src dst tag =
    (((s.quarantined src tag).bump F.FAB_TAG_TIMEOUT_TIMEOUTS 1).raise 0x2003 src (le 1 src ++ le 1 dst ++ le 2 tag)).send
      (.response src 1) := rfl

theorem State.tagTimeout_cores (s : State) (src dst tag : Nat) : (s.tagTimeout src dst tag).cores = s.cores := by
  rw [tagTimeout_eq, State.send_cores, State.raise_cores]
  rfl

/-- A timeout leaves the states of the core pairs (CYC_CORE) as they were. -/
theorem State.tagTimeout_rd_core (s : State) (src dst tag : Nat) {c : Nat} (hc : c < 32) :
    (s.tagTimeout src dst tag).rd (R.CYC_CORE c) = s.rd (R.CYC_CORE c) := by
  have hlost : R.CYC_CORE c ≠ F.EVT_COUNTS_LOST.off ∧ R.CYC_CORE c ≠ F.EVT_STATUS_LOST.off ∧
      F.FAB_TAG_TIMEOUT_TIMEOUTS.off ≠ R.CYC_CORE c := by
    simp only [R.CYC_CORE, F.EVT_COUNTS_LOST, F.EVT_STATUS_LOST, F.FAB_TAG_TIMEOUT_TIMEOUTS]
    omega
  obtain ⟨hcounts, hstatus, htimeout⟩ := hlost
  rw [tagTimeout_eq]
  exact (State.rd_raise _ _ _ _ hcounts hstatus).trans (State.rd_put_ne _ _ htimeout)

theorem transactionTimeout_other {isl : Fin 256} (dst : Fin 256) {tag : Fin 16384} {t : Nat} {s : State}
    (h : (s.at t).overdue isl.val tag.val = true) (hroom : s.Room isl.val) :
    Steps (exec (.transactionTimeout (.other isl) dst tag t) s) fun u =>
      u.fab.quarantine = s.fab.quarantine ++ [(isl.val, tag.val, max s.now t + 10000)] ∧
      u.fab.inflight = s.fab.inflight.filter (fun e => !(decide (e.tag = tag.val) && decide (e.src = isl.val))) ∧
      u.get F.FAB_TAG_TIMEOUT_TIMEOUTS = min (s.get F.FAB_TAG_TIMEOUT_TIMEOUTS + 1) (2 ^ 32 - 1) ∧
      Raises s u 0x2003 isl.val (le 1 isl.val ++ le 1 dst.val ++ le 2 tag.val) ∧ u.out = s.out ++ [.response isl.val 1] ∧
      SameRegs s u [R.FAB_TAG_TIMEOUT] ∧ u.mem = s.mem ∧ u.cores = s.cores := by
  have hroom' : ((s.at t).quarantined isl.val tag.val).Room isl.val := hroom
  obtain ⟨hcount, hraises, hrest, hregs⟩ := State.bump_raise (f := F.FAB_TAG_TIMEOUT_TIMEOUTS) 1 0x2003
    (le 1 isl.val ++ le 1 dst.val ++ le 2 tag.val) (by decide) hroom'
  refine ⟨_, transactionTimeout_overdue (r := .other isl) dst h, ?_⟩
  simp only [State.errorResponse, TxReq.island, tagTimeout_eq]
  refine ⟨?_, ?_, hcount, hraises, ?_, hregs, ?_, ?_⟩
  · rw [State.send_fab, hrest]
    rfl
  · rw [State.send_fab, hrest]
    rfl
  · rw [State.send_out, hrest]
    rfl
  · rw [State.send_mem, hrest]
    rfl
  · rw [State.send_cores, hrest]
    rfl

theorem State.storeError_core {s : State} {c : Nat} (a : Nat) (hruns : s.coreRuns c = true)
    (hnone : (s.core c).storeErr = none) : ((s.storeError c a).core c).storeErr = some a := by
  rw [State.storeError, if_pos hruns, State.core_co_same, hnone]
  rfl

/-- The error of a store that timed out waits in its core pair (12 R559). -/
theorem transactionTimeout_store {c : Fin 32} {a : DWord} (dst : Fin 256) {tag : Fin 16384} {t : Nat} {s : State}
    (h : (s.at t).overdue c.val tag.val = true) (hruns : s.coreRuns c.val = true) (hnone : (s.core c.val).storeErr = none) :
    Steps (exec (.transactionTimeout (.store c a) dst tag t) s) fun u => (u.core c.val).storeErr = some a.toNat := by
  have hcore : ((s.at t).tagTimeout c.val dst.val tag.val).core c.val = s.core c.val :=
    State.core_of_cores (State.tagTimeout_cores _ _ _ _) _
  refine ⟨_, transactionTimeout_overdue (r := .store c a) dst h, State.storeError_core _ ?_ (hcore ▸ hnone)⟩
  exact (State.coreRuns_congr (State.tagTimeout_rd_core _ _ _ _ c.isLt) hcore).trans hruns

/-! ## Quarantine -/

theorem exec_tagQuarantineEnd (src : Fin 256) (tag : Fin 16384) (t : Nat) (s : State) :
    exec (.tagQuarantineEnd src tag t) s = execTagQuarantineEnd src tag t s := by rfl

theorem State.serveWait_nil {s : State} (h : s.fab.tagWaits = []) (src : Nat) : s.serveWait src = s := by
  rw [State.serveWait, h]
  rfl

theorem tagQuarantineEnd_due {src : Fin 256} {tag : Fin 16384} {at_ t : Nat} {s : State}
    (hmem : (src.val, tag.val, at_) ∈ s.fab.quarantine) (hdue : at_ ≤ max s.now t) (hwaits : s.fab.tagWaits = []) :
    exec (.tagQuarantineEnd src tag t) s = .next { s with
      now := max s.now t
      fab := { s.fab with quarantine := s.fab.quarantine.filter (fun e =>
        !(decide (e.1 = src.val) && decide (e.2.1 = tag.val) && decide (e.2.2 ≤ max s.now t))) } } := by
  have hany : ((s.at t).fab.quarantine.any fun e =>
      decide (e.1 = src.val) && decide (e.2.1 = tag.val) && decide (e.2.2 ≤ (s.at t).now)) = true :=
    List.any_eq_true.2 ⟨_, hmem, Bool.and_eq_true_iff.2
      ⟨Bool.and_eq_true_iff.2 ⟨decide_eq_true rfl, decide_eq_true rfl⟩, decide_eq_true hdue⟩⟩
  rw [exec_tagQuarantineEnd, execTagQuarantineEnd]
  refine congrArg Host.Outcome.next ((if_pos hany).trans ?_)
  exact State.serveWait_nil (by exact hwaits) _

theorem exec_lateResponseRx (src : Fin 256) (tag : Fin 16384) (s : State) :
    exec (.lateResponseRx src tag) s = execLateResponseRx src tag s := by rfl

theorem lateResponseRx_quarantined {src : Fin 256} {tag : Fin 16384} {at_ : Nat} {s : State}
    (hmem : (src.val, tag.val, at_) ∈ s.fab.quarantine) :
    exec (.lateResponseRx src tag) s = .next (s.raise 0x2004 src.val []) := by
  rw [exec_lateResponseRx, execLateResponseRx]
  exact congrArg Host.Outcome.next (if_pos (List.any_eq_true.2 ⟨_, hmem, by simp⟩))

theorem lateResponseRx_other {src : Fin 256} {tag : Fin 16384} {s : State}
    (h : ∀ e ∈ s.fab.quarantine, e.1 = src.val → e.2.1 ≠ tag.val) : exec (.lateResponseRx src tag) s = .next s := by
  have hnone : ¬ (s.fab.quarantine.any fun e => decide (e.1 = src.val) && decide (e.2.1 = tag.val)) = true := fun hany => by
    obtain ⟨e, hmem, he⟩ := List.any_eq_true.1 hany
    obtain ⟨hsrc, htag⟩ := Bool.and_eq_true_iff.1 he
    exact h e hmem (of_decide_eq_true hsrc) (of_decide_eq_true htag)
  rw [exec_lateResponseRx, execLateResponseRx]
  exact congrArg Host.Outcome.next (if_neg hnone)

/-! ## Islands that are off or absent -/

theorem exec_noIslandResponse (r : TxReq) (router : Fin 256) (t : Nat) (s : State) :
    exec (.noIslandResponse r router t) s = execNoIslandResponse r router t s := by rfl

theorem noIslandResponse_off (r : TxReq) {router : Fin 256} (t : Nat) {s : State} (hpd : s.pd 22 = true)
    (hoff : s.islandOff router.val = true) : exec (.noIslandResponse r router t) s =
      .next (((s.at t).noIsland r.island router.val).errorResponse r) := by
  have hoff' : ((s.at t).pd 22 && (s.at t).islandOff router.val) = true := Bool.and_eq_true_iff.2 ⟨hpd, hoff⟩
  rw [exec_noIslandResponse, execNoIslandResponse]
  exact congrArg Host.Outcome.next (if_pos hoff')

theorem noIslandResponse_powered (r : TxReq) {router : Fin 256} (t : Nat) {s : State}
    (h : s.islandOff router.val = false ∨ s.pd 22 = false) : exec (.noIslandResponse r router t) s = .next (s.at t) := by
  have hoff : ¬ ((s.at t).pd 22 && (s.at t).islandOff router.val) = true := fun hboth => by
    obtain ⟨hpd, hoff⟩ := Bool.and_eq_true_iff.1 hboth
    rcases h with h | h
    · exact Bool.false_ne_true (h.symm.trans hoff)
    · exact Bool.false_ne_true (h.symm.trans hpd)
  rw [exec_noIslandResponse, execNoIslandResponse]
  exact congrArg Host.Outcome.next (if_neg hoff)

theorem noIslandResponse_other {isl router : Fin 256} (t : Nat) {s : State} (hpd : s.pd 22 = true)
    (hoff : s.islandOff router.val = true) (hroom : s.Room router.val) :
    Steps (exec (.noIslandResponse (.other isl) router t) s) fun u => Raises s u 0x2040 router.val [] ∧
      u.out = s.out ++ [.response isl.val 2] ∧ u.regs = s.regs ∧ u.mem = s.mem ∧ u.cores = s.cores := by
  have hroom' : (s.at t).Room router.val := hroom
  obtain ⟨hraises, hout, hregs⟩ := noIsland_room hroom' isl.val
  refine ⟨_, noIslandResponse_off (.other isl) t hpd hoff, hraises, hout, hregs, ?_, ?_⟩
  · exact State.raise_mem (s.at t) _ _ _
  · exact State.raise_cores (s.at t) _ _ _

/-! ## Free tags -/

/-- A tag that a source may take is held by nothing and lies in the source's share (03 R119). -/
theorem State.freeTag_spec {s : State} {src vc g : Nat} (h : s.freeTag src vc = some g) :
    s.tagHeld g = false ∧ ∃ i < (s.image.routes.share src (decide (vc = 0))).2,
      g = (s.image.routes.share src (decide (vc = 0))).1 + i := by
  unfold State.freeTag at h
  obtain ⟨i, hi, hg⟩ := List.mem_map.1 (List.mem_of_find?_eq_some h)
  refine ⟨?_, i, List.mem_range.1 hi, hg.symm⟩
  simpa using List.find?_some h

/-- The shares of VC0 lie below 0x1000, the others from there to 0x3FFF (03 R119). -/
theorem Routes.share_bounds (r : Routes) (isl : Nat) (vc0 : Bool) :
    (vc0 = true → (r.share isl vc0).1 + (r.share isl vc0).2 ≤ 4096) ∧
      (vc0 = false → 4096 ≤ (r.share isl vc0).1 ∧ (r.share isl vc0).1 + (r.share isl vc0).2 ≤ 16384) := by
  cases vc0 with
  | false =>
    refine ⟨fun h => absurd h Bool.false_ne_true, fun _ => ?_⟩
    simp only [Routes.share, Bool.false_eq_true, if_false]
    omega
  | true =>
    refine ⟨fun _ => ?_, fun h => absurd h.symm Bool.false_ne_true⟩
    simp only [Routes.share, if_true]
    omega

theorem State.freeTag_bounds {s : State} {src vc g : Nat} (h : s.freeTag src vc = some g) :
    s.tagHeld g = false ∧ (vc = 0 → g < 4096) ∧ (vc ≠ 0 → 4096 ≤ g ∧ g < 16384) := by
  obtain ⟨hfree, i, hi, rfl⟩ := State.freeTag_spec h
  obtain ⟨hvc0, hdata⟩ := Routes.share_bounds s.image.routes src (decide (vc = 0))
  refine ⟨hfree, fun hvc => ?_, fun hvc => ?_⟩
  · have := hvc0 (decide_eq_true hvc)
    omega
  · have := hdata (decide_eq_false hvc)
    omega

theorem State.inject_free {s : State} {e : TagUse} {g : Nat} (h : s.freeTag e.src e.vc = some g) :
    s.inject e = s.fb fun u => { u with inflight := u.inflight ++ [{ e with tag := g }] } := by
  rw [State.inject, h]

theorem State.inject_waits {s : State} {e : TagUse} (h : s.freeTag e.src e.vc = none) :
    s.inject e = s.fb fun u => { u with tagWaits := u.tagWaits ++ [e], tagWaitAt := some (max e.inj s.now) } := by
  rw [State.inject, h]

/-- Settles O12: each clause is the rule of its command in its case, and what a free tag is. -/
theorem fabricTransactions : Obligations.FabricTransactions := by
  unfold Obligations.FabricTransactions
  refine ⟨?timeout, ?store, ?quarantineEnd, ?late, ?lateOther, ?off, ?powered, ?young, ?freeTag, ?taken, ?waits⟩
  case timeout => exact fun _ dst _ _ _ h hroom => transactionTimeout_other dst h hroom
  case store => exact fun _ _ dst _ _ _ h hruns hnone => transactionTimeout_store dst h hruns hnone
  case quarantineEnd => exact fun _ _ _ _ _ hmem hdue hwaits => ⟨_, tagQuarantineEnd_due hmem hdue hwaits, rfl⟩
  case late => exact fun _ _ _ _ hmem hroom => ⟨_, lateResponseRx_quarantined hmem, State.raise_only hroom _ _⟩
  case lateOther => exact fun _ _ _ h => lateResponseRx_other h
  case off => exact fun _ _ t _ hpd hoff hroom => noIslandResponse_other t hpd hoff hroom
  case powered => exact fun r _ t _ h => noIslandResponse_powered r t h
  case young => exact fun _ dst _ _ _ h => transactionTimeout_young dst h
  case freeTag => exact fun _ _ _ _ h => State.freeTag_bounds h
  case taken =>
    intro e g s h
    rw [State.inject_free h]
    rfl
  case waits =>
    intro e s h
    rw [State.inject_waits h]
    exact ⟨rfl, rfl⟩

end Sys2Proof.Machine
end

section
/-! Memory errors and the stress of HBM channels (03 R124, R131 to R136; 07 R350; 12 R559). -/
namespace Sys2Proof.Machine

/-! ## Uncorrectable errors (03 R124; 09 R444) -/

/-- An uncorrectable error is noted in FAB_STATUS, reported, and kept as a fault of this module. -/
def State.uncorrectable (s : State) (code isl : Nat) : State :=
  ((s.put F.FAB_STATUS_ECC_UE 1).raise code isl []).noteFault

@[simp] theorem State.uncorrectable_out (s : State) (code isl : Nat) : (s.uncorrectable code isl).out = s.out :=
  State.raise_out (s.put F.FAB_STATUS_ECC_UE 1) _ _ _

@[simp] theorem State.uncorrectable_mem (s : State) (code isl : Nat) : (s.uncorrectable code isl).mem = s.mem :=
  State.raise_mem (s.put F.FAB_STATUS_ECC_UE 1) _ _ _

@[simp] theorem State.uncorrectable_img (s : State) (code isl : Nat) : (s.uncorrectable code isl).img = s.img :=
  State.raise_img (s.put F.FAB_STATUS_ECC_UE 1) _ _ _

@[simp] theorem State.uncorrectable_fab (s : State) (code isl : Nat) : (s.uncorrectable code isl).fab = s.fab :=
  State.raise_fab (s.put F.FAB_STATUS_ECC_UE 1) _ _ _

@[simp] theorem State.uncorrectable_core (s : State) (code isl j : Nat) : (s.uncorrectable code isl).core j = s.core j :=
  State.core_of_cores (State.raise_cores (s.put F.FAB_STATUS_ECC_UE 1) _ _ _) j

theorem State.uncorrectable_rd (s : State) (code isl : Nat) {o : Nat} (h : o < 0x300000) :
    (s.uncorrectable code isl).rd o = (s.put F.FAB_STATUS_ECC_UE 1).rd o := by
  refine State.rd_raise (s.put F.FAB_STATUS_ECC_UE 1) _ _ _ ?_ ?_
  · simp only [F.EVT_COUNTS_LOST]
    omega
  · simp only [F.EVT_STATUS_LOST]
    omega

theorem State.uncorrectable_rd_ne (s : State) (code isl : Nat) {o : Nat} (h : o < 0x300000) (hne : F.FAB_STATUS_ECC_UE.off ≠ o) :
    (s.uncorrectable code isl).rd o = s.rd o := (s.uncorrectable_rd code isl h).trans (State.rd_put_ne _ _ hne)

theorem State.uncorrectable_get (s : State) (code isl : Nat) : (s.uncorrectable code isl).get F.FAB_STATUS_ECC_UE = 1 := by
  rw [State.get, s.uncorrectable_rd code isl (by decide)]
  exact State.get_put_same s 1 (by decide)

theorem State.uncorrectable_ownFaults (s : State) (code isl : Nat) :
    (s.uncorrectable code isl).twin.ownFaults = s.count :: s.twin.ownFaults := by
  have hlow := s.uncorrectable_rd_ne code isl (o := R.CYC_COUNT) (by decide) (by decide)
  have hhigh := s.uncorrectable_rd_ne code isl (o := R.CYC_COUNT + 4) (by decide) (by decide)
  have hcount : ((s.put F.FAB_STATUS_ECC_UE 1).raise code isl []).count = s.count := by
    rw [State.count, State.rd64, State.count, State.rd64, ← hlow, ← hhigh]
    rfl
  have htwin : ((s.put F.FAB_STATUS_ECC_UE 1).raise code isl []).twin = s.twin := State.raise_twin _ _ _ _
  exact hcount ▸ htwin ▸ rfl

/-- With room for its raise it is the event and ECC_UE that stand there. -/
theorem State.uncorrectable_raises {s : State} {isl : Nat} (code : Nat) (h : s.Room isl) :
    Raises s (s.uncorrectable code isl) code isl [] ∧ SameRegs s (s.uncorrectable code isl) [R.FAB_STATUS] := by
  have h' : (s.put F.FAB_STATUS_ECC_UE 1).Room isl := h
  exact ⟨Raises.raise (t := s.put F.FAB_STATUS_ECC_UE 1) h rfl _ _, SameRegs.of_regs (State.raise_room_regs h' code [])
    (SameRegs.put _ (List.mem_cons_self ..) (SameRegs.refl _ _))⟩

/-! ## Requests of an HBM channel -/

theorem exec_hbmRequest (c : Fin 32) (vc : Fin 4) (w a : Nat) (ecc : Fin 3) (r : TxReq) (s : State) :
    exec (.hbmRequest c vc w a ecc r) s = execHbmRequest c vc w a ecc r s := by rfl

/-- What a request does that is answered without an uncorrectable error. -/
theorem hbmRequest_good (c : Fin 32) (vc : Fin 4) (w a : Nat) {ecc : Fin 3} (r : TxReq) (s : State) (h : ecc ≠ 2) :
    exec (.hbmRequest c vc w a ecc r) s = .next (s.hbmAnswer c.val (onVc r.island vc.val) w a ecc.val) := by
  rw [exec_hbmRequest, execHbmRequest]
  exact congrArg Host.Outcome.next (if_neg h)

/-- A request answered in time leaves its ECC alone (03 R124, R132). -/
theorem hbmAnswer_timely (s : State) (c vc : Nat) {w a : Nat} (ecc : Nat) (hw : w ≤ 300) (ha : a ≤ 600) :
    s.hbmAnswer c vc w a ecc = if ecc = 1 then (s.bump F.FAB_ECC_HBM_CE 1).raise 0x2022 (islHbm c) []
      else if ecc = 2 then s.uncorrectable 0x2023 (islHbm c) else s := by
  rw [State.hbmAnswer]
  dsimp only
  rw [if_neg (by omega : ¬ (vc ≤ 1 ∧ w > 300)), if_neg (by omega : ¬ (vc ≤ 1 ∧ a > 600))]
  rfl

theorem hbmRequest_corrected (c : Fin 32) (vc : Fin 4) {w a : Nat} (r : TxReq) (s : State) (hw : w ≤ 300) (ha : a ≤ 600) :
    exec (.hbmRequest c vc w a 1 r) s = .next ((s.bump F.FAB_ECC_HBM_CE 1).raise 0x2022 (islHbm c.val) []) := by
  rw [hbmRequest_good c vc w a r s (by decide), hbmAnswer_timely _ _ _ _ hw ha]
  rfl

/-- An uncorrectable error is answered with POISON to the source of the request (03 R124). -/
theorem hbmRequest_uncorrectable (c : Fin 32) (vc : Fin 4) {w a : Nat} (r : TxReq) (s : State) (hw : w ≤ 300) (ha : a ≤ 600) :
    exec (.hbmRequest c vc w a 2 r) s =
      .next (((s.uncorrectable 0x2023 (islHbm c.val)).send (.response r.island 3)).errorResponse r) := by
  rw [exec_hbmRequest, execHbmRequest]
  refine congrArg Host.Outcome.next ((if_pos rfl).trans ?_)
  rw [hbmAnswer_timely _ _ _ _ hw ha]
  rfl

/-- A floor request that is answered late, without an error (03 R132). -/
theorem hbmAnswer_late (s : State) (c : Nat) {vc w a : Nat} (hvc : vc ≤ 1) (hw : w ≤ 300) (ha : 600 < a) :
    s.hbmAnswer c vc w a 0 = s.raise 0x2012 (islHbm c) [] := by
  rw [State.hbmAnswer]
  dsimp only
  rw [if_neg (by omega : ¬ (vc ≤ 1 ∧ w > 300)), if_pos (⟨hvc, ha⟩ : vc ≤ 1 ∧ a > 600)]
  rfl

theorem hbmRequest_late (c : Fin 32) {w a : Nat} (r : TxReq) (s : State) (hw : w ≤ 300) (ha : 600 < a) :
    exec (.hbmRequest c 1 w a 0 r) s = .next (s.raise 0x2012 (islHbm c.val) []) := by
  have hvc : onVc r.island 1 ≤ 1 := by
    unfold onVc
    split <;> omega
  exact (hbmRequest_good c 1 w a r s (by decide)).trans (congrArg Host.Outcome.next (hbmAnswer_late s c.val hvc hw ha))

theorem Enters.congr {s t u : State} {c vec : Nat} {cause tpc : DWord} (hcore : t.core c = s.core c)
    (h : Enters t u c cause vec tpc) : Enters s u c cause vec tpc := by
  rw [Enters, hcore] at h
  exact h

/-- An uncorrectable error under a load of a core pair at U is LOAD_ERR with its address (12 R559). -/
theorem hbmRequest_uncorrectable_load (c k : Fin 32) (vc : Fin 4) {w a : Nat} (ad : DWord) {s : State} (hw : w ≤ 300)
    (ha : a ≤ 600) (hruns : s.coreRuns k.val = true) (hlevel : (s.core k.val).level = 0) (hgood : s.StoresGood k.val) :
    Steps (exec (.hbmRequest c vc w a 2 (.load k ad)) s) fun u =>
      Enters s u k.val 5 5 (s.core k.val).pc ∧ (u.core k.val).tval = ad ∧ u.get F.FAB_STATUS_ECC_UE = 1 := by
  let t := (s.uncorrectable 0x2023 (islHbm c.val)).send (.response k.val 3)
  have hcore : t.core k.val = s.core k.val := s.uncorrectable_core 0x2023 (islHbm c.val) k.val
  have hpower : t.rd R.PWR_ON = s.rd R.PWR_ON := s.uncorrectable_rd_ne 0x2023 (islHbm c.val) (by decide) (by decide)
  have hplace : R.CYC_CORE k.val < 0x300000 ∧ F.FAB_STATUS_ECC_UE.off ≠ R.CYC_CORE k.val := by
    simp only [R.CYC_CORE, F.FAB_STATUS_ECC_UE]
    omega
  have hstate : t.rd (R.CYC_CORE k.val) = s.rd (R.CYC_CORE k.val) :=
    s.uncorrectable_rd_ne 0x2023 (islHbm c.val) hplace.1 hplace.2
  have hgood' : t.StoresGood k.val :=
    hgood.congr hcore (State.hbmOff_congr (s.uncorrectable_img 0x2023 (islHbm c.val)) hpower)
  have hlevel' : (t.core k.val).level = 0 := hcore ▸ hlevel
  have hresponse : t.errorResponse (.load k ad) = t.trapAt k.val 5 ad :=
    if_pos ((State.coreRuns_congr hstate hcore).trans hruns)
  obtain ⟨henters, htval⟩ := State.trapAt_enters 5 ad hlevel' hgood'
  refine ⟨_, (hbmRequest_uncorrectable c vc (.load k ad) s hw ha).trans (congrArg Host.Outcome.next hresponse),
    Enters.congr hcore (hcore ▸ henters), htval, ?_⟩
  rw [State.get, State.trapAt_rd 5 ad hlevel' hgood' (by decide)]
  exact s.uncorrectable_get 0x2023 (islHbm c.val)

/-! ## Windows of an HBM channel -/

theorem exec_hbmStressWindow (c : Fin 32) (l : List HbmReq) (s : State) :
    exec (.hbmStressWindow c l) s = execHbmStressWindow c l s := by rfl

/-- A channel with the requests that stay at the end of a window, and its count of windows with a full bulk queue. -/
def State.hbmServed (s : State) (c : Nat) (l : List HbmReq) : HbmChan :=
  let q := (s.hbmChan c).serve s.image.routes.floorPct (l.map HbmReq.cls)
  { s.hbmChan c with queue := q, full := if 64 ≤ bulkOf q then min 4 ((s.hbmChan c).full + 1) else 0 }

theorem hbmStressWindow_calm {c : Fin 32} (l : List HbmReq) {s : State} (h : (s.hbmChan c.val).stress = false) :
    exec (.hbmStressWindow c l) s = .next (s.stressWindow c.val (s.hbmServed c.val l)) := by
  rw [exec_hbmStressWindow, execHbmStressWindow, if_neg (by simp [h])]
  rfl

theorem hbmStressWindow_stress {c : Fin 32} (l : List HbmReq) {s : State} (h : (s.hbmChan c.val).stress = true) :
    exec (.hbmStressWindow c l) s = .next ((s.each l State.stressDrop).stressWindow c.val (s.hbmServed c.val l)) := by
  rw [exec_hbmStressWindow, execHbmStressWindow, if_pos h]
  rfl

theorem stressWindow_enters (s : State) (c : Nat) {h : HbmChan} (hcalm : h.stress = false) (hfull : 4 ≤ h.full) :
    s.stressWindow c h = s.hbmStress c h true := by
  simp [State.stressWindow, hcalm, hfull]

theorem stressWindow_ends (s : State) (c : Nat) {h : HbmChan} (hstress : h.stress = true) (hfull : h.full < 4)
    (hwaited : h.waited = false) (hquiet : 99 ≤ h.quiet) : s.stressWindow c h = s.hbmStress c h false := by
  simp [State.stressWindow, hstress, hwaited, Nat.not_le.2 hfull, show 100 ≤ h.quiet + 1 by omega]

theorem stressWindow_lasts (s : State) (c : Nat) {h : HbmChan} (hstress : h.stress = true) (hfull : h.full < 4)
    (hwaited : h.waited = false) (hquiet : h.quiet < 99) :
    s.stressWindow c h = s.setHbm c { h with quiet := h.quiet + 1, waited := false } := by
  simp [State.stressWindow, hstress, hwaited, Nat.not_le.2 hfull, show ¬ 100 ≤ h.quiet + 1 by omega]

@[simp] theorem State.setHbm_get (s : State) (c : Nat) (h : HbmChan) (f : Fld) : (s.setHbm c h).get f = s.get f := rfl
@[simp] theorem State.setHbm_regs (s : State) (c : Nat) (h : HbmChan) : (s.setHbm c h).regs = s.regs := rfl
@[simp] theorem State.setHbm_recd (s : State) (c : Nat) (h : HbmChan) : (s.setHbm c h).recd = s.recd := rfl

theorem State.hbmChan_setHbm (s : State) (c : Nat) (h : HbmChan) : (s.setHbm c h).hbmChan c = h := tget_tset_same _ _ _ _

/-- A bit of a register after it was set or cleared. -/
theorem State.setBit_getLsbD (s : State) (o : Nat) {i : Nat} (b : Bool) (hi : i < 32) :
    ((s.setBit o i b).rd o).getLsbD i = b := by
  rw [State.setBit, State.rd_wr_same, putBits_getLsbD _ _ _ _ _ hi, if_pos (by omega), Nat.sub_self]
  cases b <;> rfl

/-- A channel in STRESS or out of it, as the registers show it (03 R133). -/
def State.stressShown (s : State) (c : Nat) (h : HbmChan) (on : Bool) : State :=
  let u := (s.setHbm c { h with stress := on, quiet := 0, waited := false }).setBit R.FAB_HBM_STRESS c on
  u.putB F.FAB_STATUS_HBM_STRESS (decide (u.rdN R.FAB_HBM_STRESS ≠ 0))

theorem hbmStress_on (s : State) (c : Nat) (h : HbmChan) : s.hbmStress c h true =
    ((s.stressShown c h true).setBit R.FAB_HBM_STRESS_SEEN c true).raise 0x2010 (islHbm c) [] := by rfl

theorem hbmStress_off (s : State) (c : Nat) (h : HbmChan) : s.hbmStress c h false =
    (s.stressShown c h false).raise 0x2011 (islHbm c) [] := by rfl

theorem State.stressShown_stress (s : State) (c : Nat) (h : HbmChan) (on : Bool) :
    ((s.stressShown c h on).hbmChan c).stress = on := by
  have hchan : (s.stressShown c h on).hbmChan c = { h with stress := on, quiet := 0, waited := false } :=
    State.hbmChan_setHbm _ _ _
  rw [hchan]

theorem State.stressShown_bit (s : State) {c : Nat} (h : HbmChan) (on : Bool) (hc : c < 32) :
    ((s.stressShown c h on).rd R.FAB_HBM_STRESS).getLsbD c = on :=
  (congrArg (·.getLsbD c) (State.rd_put_ne _ _ (by decide))).trans (State.setBit_getLsbD _ _ on hc)

theorem State.stressShown_status (s : State) {c : Nat} (h : HbmChan) (hc : c < 32) :
    (s.stressShown c h true).get F.FAB_STATUS_HBM_STRESS = 1 := by
  have hbit := State.setBit_getLsbD (s.setHbm c { h with stress := true, quiet := 0, waited := false }) R.FAB_HBM_STRESS
    true hc
  have hne : ((s.setHbm c { h with stress := true, quiet := 0, waited := false }).setBit R.FAB_HBM_STRESS c true).rdN
      R.FAB_HBM_STRESS ≠ 0 := fun hzero => by
    rw [State.rdN] at hzero
    rw [BitVec.eq_of_toNat_eq (y := 0#32) hzero] at hbit
    simp at hbit
  refine (State.get_put_same _ _ (by decide)).trans ?_
  rw [decide_eq_true hne]
  rfl

theorem State.stressShown_sameRegs (s : State) (c : Nat) (h : HbmChan) (on : Bool) :
    SameRegs s (s.stressShown c h on) [R.FAB_STATUS, R.FAB_HBM_STRESS] :=
  SameRegs.put _ (by decide) (SameRegs.wr _ (by decide) (SameRegs.of_regs rfl (SameRegs.refl s _)))

/-- The fourth window in a row with a full bulk queue (03 R133). -/
theorem hbmStressWindow_fourth (c : Fin 32) {l : List HbmReq} {s : State} (hcalm : (s.hbmChan c.val).stress = false)
    (hthird : 3 ≤ (s.hbmChan c.val).full)
    (hbulk : 64 ≤ bulkOf ((s.hbmChan c.val).serve s.image.routes.floorPct (l.map HbmReq.cls))) (hroom : s.Room (islHbm c.val)) :
    Steps (exec (.hbmStressWindow c l) s) fun u => (u.hbmChan c.val).stress = true ∧ u.get F.FAB_STATUS_HBM_STRESS = 1 ∧
      (u.rd R.FAB_HBM_STRESS).getLsbD c.val = true ∧ (u.rd R.FAB_HBM_STRESS_SEEN).getLsbD c.val = true ∧
      Raises s u 0x2010 (islHbm c.val) [] ∧ SameRegs s u [R.FAB_STATUS, R.FAB_HBM_STRESS, R.FAB_HBM_STRESS_SEEN] := by
  have hfull : 4 ≤ (s.hbmServed c.val l).full := by
    rw [State.hbmServed]
    dsimp only
    rw [if_pos hbulk]
    omega
  have hseen (o : Nat) (h : R.FAB_HBM_STRESS_SEEN ≠ o) :
      ((s.stressShown c.val (s.hbmServed c.val l) true).setBit R.FAB_HBM_STRESS_SEEN c.val true).rd o =
        (s.stressShown c.val (s.hbmServed c.val l) true).rd o := State.rd_wr_ne _ _ h
  have hroom' : State.Room ((s.stressShown c.val (s.hbmServed c.val l) true).setBit R.FAB_HBM_STRESS_SEEN c.val true)
      (islHbm c.val) := hroom
  have hexec := hbmStressWindow_calm l hcalm
  rw [stressWindow_enters s c.val (h := s.hbmServed c.val l) hcalm hfull, hbmStress_on] at hexec
  refine ⟨_, hexec, ?_, ?_, ?_, ?_, Raises.raise hroom (by rfl) _ _, ?_⟩
  · rw [State.hbmChan, State.raise_fab]
    exact State.stressShown_stress s c.val (s.hbmServed c.val l) true
  · rw [State.raise_room_get hroom', State.get, hseen _ (by decide)]
    exact State.stressShown_status s (s.hbmServed c.val l) c.isLt
  · rw [State.raise_room_rd hroom', hseen _ (by decide)]
    exact State.stressShown_bit s (s.hbmServed c.val l) true c.isLt
  · rw [State.raise_room_rd hroom']
    exact State.setBit_getLsbD _ _ true c.isLt
  · refine SameRegs.of_regs (State.raise_room_regs hroom' _ _) (SameRegs.wr _ (by decide) ?_)
    exact (State.stressShown_sameRegs s c.val (s.hbmServed c.val l) true).mono fun _ ho =>
      List.mem_append_left [R.FAB_HBM_STRESS_SEEN] ho

theorem stressDrop_other {q : HbmReq} (s : State) (h2 : q.cls ≠ 2) (h3 : q.cls ≠ 3) : s.stressDrop q = s := by
  rw [State.stressDrop, if_neg (fun h => h2 h.1), if_neg (fun h => h3 h.1)]

theorem each_stressDrop_other {l : List HbmReq} (s : State) (h : ∀ q ∈ l, q.cls ≠ 2 ∧ q.cls ≠ 3) :
    s.each l State.stressDrop = s :=
  List.foldlRecOn (motive := (· = s)) l State.stressDrop rfl fun t ht q hq =>
    (stressDrop_other t (h q hq).1 (h q hq).2).trans ht

/-- The hundredth window in a row without an entry condition (03 R133). -/
theorem hbmStressWindow_hundredth (c : Fin 32) {l : List HbmReq} {s : State} (hstress : (s.hbmChan c.val).stress = true)
    (hwaited : (s.hbmChan c.val).waited = false) (hquiet : 99 ≤ (s.hbmChan c.val).quiet)
    (hbulk : bulkOf ((s.hbmChan c.val).serve s.image.routes.floorPct (l.map HbmReq.cls)) < 64)
    (hkinds : ∀ q ∈ l, q.cls ≠ 2 ∧ q.cls ≠ 3) (hroom : s.Room (islHbm c.val)) :
    Steps (exec (.hbmStressWindow c l) s) fun u => (u.hbmChan c.val).stress = false ∧
      (u.rd R.FAB_HBM_STRESS).getLsbD c.val = false ∧ Raises s u 0x2011 (islHbm c.val) [] ∧
      SameRegs s u [R.FAB_STATUS, R.FAB_HBM_STRESS] := by
  have hfull : (s.hbmServed c.val l).full < 4 := by
    rw [State.hbmServed]
    dsimp only
    rw [if_neg (by omega)]
    decide
  have hroom' : (s.stressShown c.val (s.hbmServed c.val l) false).Room (islHbm c.val) := hroom
  have hexec := hbmStressWindow_stress l hstress
  rw [each_stressDrop_other s hkinds, stressWindow_ends s c.val (h := s.hbmServed c.val l) hstress hfull hwaited hquiet,
    hbmStress_off] at hexec
  refine ⟨_, hexec, ?_, ?_, Raises.raise hroom (by rfl) _ _, ?_⟩
  · rw [State.hbmChan, State.raise_fab]
    exact State.stressShown_stress s c.val _ false
  · rw [State.raise_room_rd hroom']
    exact State.stressShown_bit s _ false c.isLt
  · exact SameRegs.of_regs (State.raise_room_regs hroom' _ _) (State.stressShown_sameRegs s c.val _ false)

/-! ## Trace offload in STRESS (07 R350) -/

theorem cls_traceOffload {q : HbmReq} (hsrc : 32 ≤ q.src.val) (hvc : 1 < q.vc.val) (hkind : q.kind.val = 1) : q.cls = 2 := by
  have hkind' : q.kind = 1 := Fin.ext hkind
  rw [HbmReq.cls, onVc, if_neg (by omega : ¬ q.src.val < 32), if_neg (by omega), if_pos hkind']

/-- Trace offload of a cluster whose loss is past its offload counts in TRC_LOSS (07 R350). -/
theorem stressDrop_traceOffload {q : HbmReq} {k : Fin 32} {s : State} (hsrc : q.src.val = 32 + k.val) (hcls : q.cls = 2)
    (htrc : s.trc k.val ≠ 4) : s.stressDrop q = (s.bump (F.TRC_LOSS_LOST k.val) 1).put (F.TRC_DONE_LOSSY k.val) 1 := by
  have hk : q.src.val - 32 = k.val := by omega
  rw [State.stressDrop, if_pos ⟨hcls, by omega, by omega⟩]
  dsimp only
  rw [hk, if_neg htrc]

/-- In STRESS a channel without a queue serves no trace offload (03 R133). -/
theorem serve_traceOffload {h : HbmChan} (floorPct : Nat) (hstress : h.stress = true) (hqueue : h.queue = []) :
    h.serve floorPct [2] = [] := by
  simp [HbmChan.serve, hstress, hqueue, servePass]

theorem hbmStressWindow_traceOffload (c k : Fin 32) {q : HbmReq} {s : State} (hstress : (s.hbmChan c.val).stress = true)
    (hwaited : (s.hbmChan c.val).waited = false) (hquiet : (s.hbmChan c.val).quiet < 99) (hsrc : q.src.val = 32 + k.val)
    (hvc : 1 < q.vc.val) (hkind : q.kind.val = 1) (htrc : s.trc k.val ≠ 4) (hqueue : (s.hbmChan c.val).queue = []) :
    Steps (exec (.hbmStressWindow c [q]) s) fun u => u.get (F.TRC_LOSS_LOST k.val) =
        min (s.get (F.TRC_LOSS_LOST k.val) + 1) (2 ^ (F.TRC_LOSS_LOST k.val).len - 1) ∧ u.get (F.TRC_DONE_LOSSY k.val) = 1 ∧
      (u.hbmChan c.val).queue = [] ∧ u.recd = s.recd ∧ SameRegs s u [R.TRC_LOSS k.val, R.TRC_DONE k.val] := by
  have hcls : q.cls = 2 := cls_traceOffload (by omega) hvc hkind
  have hserved : (s.hbmServed c.val [q]).queue = [] ∧ (s.hbmServed c.val [q]).full < 4 := by
    rw [State.hbmServed, List.map_singleton, hcls, serve_traceOffload _ hstress hqueue]
    exact ⟨rfl, Nat.zero_lt_succ 3⟩
  have hdrop : s.each [q] State.stressDrop = (s.bump (F.TRC_LOSS_LOST k.val) 1).put (F.TRC_DONE_LOSSY k.val) 1 :=
    stressDrop_traceOffload hsrc hcls htrc
  have hexec := hbmStressWindow_stress [q] hstress
  rw [hdrop, stressWindow_lasts _ c.val (h := s.hbmServed c.val [q]) hstress hserved.2 hwaited hquiet] at hexec
  have hapart : (F.TRC_DONE_LOSSY k.val).off ≠ (F.TRC_LOSS_LOST k.val).off := by
    simp only [F.TRC_DONE_LOSSY, F.TRC_LOSS_LOST]
    omega
  have hloss : F.TRC_LOSS_LOST k.val = ⟨R.TRC_LOSS k.val, 0, 32⟩ ∧ F.TRC_DONE_LOSSY k.val = ⟨R.TRC_DONE k.val, 16, 1⟩ :=
    ⟨rfl, rfl⟩
  have hregs : SameRegs s ((s.bump (F.TRC_LOSS_LOST k.val) 1).put (F.TRC_DONE_LOSSY k.val) 1)
      [R.TRC_LOSS k.val, R.TRC_DONE k.val] := by
    refine SameRegs.put _ ?_ (SameRegs.put _ ?_ (SameRegs.refl s _))
    · simp [hloss]
    · simp [hloss]
  refine ⟨_, hexec, ?_, ?_, ?_, ?_, SameRegs.of_regs (State.setHbm_regs _ _ _) hregs⟩
  · rw [State.setHbm_get, State.get_put_ne _ _ (.inl hapart)]
    exact State.get_bump_same s 1 (by simp [F.TRC_LOSS_LOST])
  · rw [State.setHbm_get]
    exact State.get_put_same _ _ (by simp [F.TRC_DONE_LOSSY])
  · rw [State.hbmChan_setHbm]
    exact hserved.1
  · rw [State.setHbm_recd, State.put_recd]
    rfl

/-! ## The SRAM scrubber (03 R124) -/

theorem exec_sramScrub (b : Fin 64) (w : Fin 131072) (ue : Bool) (s : State) :
    exec (.sramScrub b w ue) s = execSramScrub b w ue s := by rfl

/-- A word of SRAM poisoned. -/
def State.poisonWord (s : State) (a : Nat) : State :=
  s.fb fun u => { u with poison := if u.poison.contains a then u.poison else u.poison ++ [a] }

theorem State.poisonWord_poisoned (s : State) (a : Nat) : (s.poisonWord a).poisoned a 8 = true := by
  have hmem : a ∈ (s.poisonWord a).fab.poison := by
    show a ∈ if s.fab.poison.contains a then s.fab.poison else s.fab.poison ++ [a]
    split
    · exact List.contains_iff_mem.1 ‹_›
    · exact List.mem_append_right _ (List.mem_singleton.2 rfl)
  exact List.any_eq_true.2 ⟨a, hmem, by simp⟩

theorem sramScrub_corrected (b : Fin 64) (w : Fin 131072) (s : State) : exec (.sramScrub b w false) s =
    .next ((s.bump F.FAB_ECC_SRAM_CE 1).raise 0x2020 (66 + b.val) []) := by rfl

theorem sramScrub_uncorrectable (b : Fin 64) (w : Fin 131072) (s : State) : exec (.sramScrub b w true) s =
    .next ((s.poisonWord (0x8000000000 + 0x100000 * b.val + 8 * w.val)).uncorrectable 0x2021 (66 + b.val)) := by rfl

theorem sramScrub_poisons (b : Fin 64) (w : Fin 131072) {s : State} (hroom : s.Room (66 + b.val)) :
    Steps (exec (.sramScrub b w true) s) fun u => u.poisoned (0x8000000000 + 0x100000 * b.val + 8 * w.val) 8 = true ∧
      u.get F.FAB_STATUS_ECC_UE = 1 ∧ Raises s u 0x2021 (66 + b.val) [] ∧ u.mem = s.mem ∧ SameRegs s u [R.FAB_STATUS] := by
  let t := s.poisonWord (0x8000000000 + 0x100000 * b.val + 8 * w.val)
  have hroom' : t.Room (66 + b.val) := hroom
  obtain ⟨hraises, hregs⟩ := State.uncorrectable_raises 0x2021 hroom'
  refine ⟨_, sramScrub_uncorrectable b w s, ?_, State.uncorrectable_get t _ _, hraises, State.uncorrectable_mem t _ _, hregs⟩
  rw [State.poisoned, State.uncorrectable_fab]
  exact State.poisonWord_poisoned s _

/-! ## Write errors of the flash (03 R136) -/

theorem exec_flashWriteError (s : State) : exec .flashWriteError s = execFlashWriteError s := by rfl

theorem flashWriteError_empty {s : State} (h : s.nv.archSeq = 0) :
    exec .flashWriteError s = .next (s.raise 0x2030 islFlash []) := by
  rw [exec_flashWriteError, execFlashWriteError]
  exact congrArg Host.Outcome.next (if_pos h)

/-- The archive block written last moves on, and is written once more (assumption 78). -/
theorem flashWriteError_archived {s : State} (h : s.nv.archSeq ≠ 0) : exec .flashWriteError s =
    .next (((s.raise 0x2030 islFlash []).inNv fun q => { q with archSkips := q.archSkips ++ [s.nv.archSeq / 64 * 64] }).archWrite
      (max (s.nv.archSeq / 64 * 64) 1) (s.nv.archSeq + 1 - max (s.nv.archSeq / 64 * 64) 1)) := by
  rw [exec_flashWriteError, execFlashWriteError]
  exact congrArg Host.Outcome.next (if_neg h)

/-- What MRAM and memory hold, the recorder, and every register but EVT_STATUS are those of another state. -/
def ArchivedFrom (s t : State) : Prop := t.nv = s.nv ∧ t.mem = s.mem ∧ t.recd = s.recd ∧ SameRegs s t [R.EVT_STATUS]

theorem ArchivedFrom.trans {s t u : State} (h : ArchivedFrom s t) (h' : ArchivedFrom t u) : ArchivedFrom s u := by
  obtain ⟨hnv, hmem, hrecd, hregs⟩ := h
  obtain ⟨hnv', hmem', hrecd', hregs'⟩ := h'
  exact ⟨hnv'.trans hnv, hmem'.trans hmem, hrecd'.trans hrecd, hregs.trans hregs'⟩

/-- Of the registers the archive writes TAIL_OVER alone (17 R756, R757). -/
theorem State.archWrite_from (s : State) (q n : Nat) : ArchivedFrom s (s.archWrite q n) := by
  have hflash (t : State) (m : Memory) : ArchivedFrom t { t with flash := m } :=
    ⟨rfl, rfl, rfl, SameRegs.of_regs rfl (SameRegs.refl t _)⟩
  have hover (t : State) : ArchivedFrom t (t.put F.EVT_STATUS_TAIL_OVER 1) :=
    ⟨rfl, rfl, rfl, SameRegs.put _ (by decide) (SameRegs.refl t _)⟩
  unfold State.archWrite
  refine List.foldlRecOn (motive := ArchivedFrom s) _ _ ⟨rfl, rfl, rfl, SameRegs.refl s _⟩ fun t ht i _ => ?_
  dsimp only
  split
  · exact ht.trans ((hflash t _).trans (hover _))
  · exact ht.trans (hflash t _)

theorem flashWriteError_moves {s : State} (h : s.nv.archSeq ≠ 0) (hroom : s.Room islFlash) :
    Steps (exec .flashWriteError s) fun u => Raises s u 0x2030 islFlash [] ∧
      u.nv = { s.nv with archSkips := s.nv.archSkips ++ [s.nv.archSeq / 64 * 64] } ∧ u.mem = s.mem ∧
      SameRegs s u [R.EVT_STATUS] := by
  let t := (s.raise 0x2030 islFlash []).inNv fun q => { q with archSkips := q.archSkips ++ [s.nv.archSeq / 64 * 64] }
  obtain ⟨x, hqueue, hx⟩ := Raises.raise hroom rfl 0x2030 []
  obtain ⟨hnv, hmem, hrecd, hregs⟩ :=
    t.archWrite_from (max (s.nv.archSeq / 64 * 64) 1) (s.nv.archSeq + 1 - max (s.nv.archSeq / 64 * 64) 1)
  have hregs' : SameRegs s t [R.EVT_STATUS] := SameRegs.of_regs (State.raise_room_regs hroom 0x2030 []) (SameRegs.refl s _)
  refine ⟨_, flashWriteError_archived h, ⟨x, ?_, hx⟩, ?_, hmem.trans (State.raise_mem s _ _ _), hregs'.trans hregs⟩
  · exact (congrArg Recorder.queue hrecd).trans hqueue
  · exact hnv.trans (congrArg (fun v : Nv => { v with archSkips := v.archSkips ++ [s.nv.archSeq / 64 * 64] })
      (State.raise_nv s _ _ _))

/-- Settles O14: each clause is the rule of its command in its case. -/
theorem memoryErrors : Obligations.MemoryErrors := by
  unfold Obligations.MemoryErrors
  refine ⟨?corrected, ?poison, ?loadError, ?late, ?fourth, ?hundredth, ?offload, ?scrub, ?scrubPoison, ?flash, ?archive⟩
  case corrected =>
    exact fun c vc _ _ r s hw ha hroom =>
      ⟨_, hbmRequest_corrected c vc r s hw ha, State.bump_raise 1 0x2022 [] (by decide) hroom⟩
  case poison =>
    intro c vc w a i s hw ha hroom
    obtain ⟨hraises, hregs⟩ := State.uncorrectable_raises 0x2023 hroom
    refine ⟨_, hbmRequest_uncorrectable c vc (.other i) s hw ha, State.uncorrectable_get s _ _, hraises, ?_,
      State.uncorrectable_ownFaults s _ _, State.uncorrectable_mem s _ _, hregs⟩
    exact congrArg (· ++ [.response i.val 3]) (State.uncorrectable_out s _ _)
  case loadError =>
    exact fun c k vc _ _ ad _ hw ha hruns hlevel hgood => hbmRequest_uncorrectable_load c k vc ad hw ha hruns hlevel hgood
  case late => exact fun c _ _ r s hw ha hroom => ⟨_, hbmRequest_late c r s hw ha, State.raise_only hroom _ _⟩
  case fourth => exact fun c _ _ hcalm hthird hbulk hroom => hbmStressWindow_fourth c hcalm hthird hbulk hroom
  case hundredth =>
    exact fun c _ _ hstress hwaited hquiet hbulk hkinds hroom =>
      hbmStressWindow_hundredth c hstress hwaited hquiet hbulk hkinds hroom
  case offload =>
    exact fun c k _ _ hstress hwaited hquiet hsrc hvc hkind htrc hqueue =>
      hbmStressWindow_traceOffload c k hstress hwaited hquiet hsrc hvc hkind htrc hqueue
  case scrub => exact fun b w s hroom => ⟨_, sramScrub_corrected b w s, State.bump_raise 1 0x2020 [] (by decide) hroom⟩
  case scrubPoison => exact fun b w _ hroom => sramScrub_poisons b w hroom
  case flash => exact fun _ h hroom => ⟨_, flashWriteError_empty h, State.raise_only hroom _ _⟩
  case archive => exact fun _ h hroom => flashWriteError_moves h hroom

end Sys2Proof.Machine
end

section
/-! Where the statements on router windows and on loads do not hold. -/
namespace Sys2Proof.Machine

/-! ## VC0 at a router output (03 R113; 12 R531) -/

/-- A flit of a loop cluster on VC0. -/
def clusterFlit : Flit := { src := 32, vc := 0, inj := 4 }

/-- A flit of core pair 0 that names VC1 and is older. -/
def coreFlit : Flit := { src := 0, vc := 1, inj := 0 }

/-- What a core pair sends travels on VC0, whatever its flit names (12 R531), and there the older flit wins. -/
theorem coreFlit_granted : (RouterOut.handshake {} {} [clusterFlit, coreFlit]).grants = [coreFlit] := by decide

/-- Refutes O13: its clause on a handshake takes for VC0 the flits that name VC0, but what a core pair sends travels on VC0
whatever it names (12 R531), so that the best of the former need not be the one granted. The counterexample is a flit of a loop
cluster on VC0 beside an older one of core pair 0 that names VC1. -/
theorem not_fabricWindows : ¬ Obligations.FabricWindows := by
  unfold Obligations.FabricWindows
  rintro ⟨-, -, -, -, hgrant, -⟩
  have hstated := hgrant {} {} [clusterFlit, coreFlit] clusterFlit (by decide) (by decide)
  have hgrants := congrArg RouterOut.grants hstated
  rw [coreFlit_granted] at hgrants
  exact absurd hgrants (by decide)

/-! ## A load that the own commit buffer covers (03 R124; 12 R555) -/

theorem exec_coreLd64 (c : Fin 32) (w : Word) (s : State) : exec (.coreLd64 c w) s =
    .next (s.loadX c.val w E.LD64 8 (BitVec.ofNat 64)) := by rfl

/-- LD64 of the word that register 1 names into register 2. -/
def loadWord : Word := 0x896

/-- Core pair 0 at U in its partition fast data, where register 1 names a poisoned word that its own waiting store writes whole. -/
def coveredLoad : State :=
  (((State.reset.fb fun u => { u with poison := [0x8003400040] }).put (F.CYC_CORE_STATE 0) 1).wrN (R.ACC_RATTR 0 0)
    0x802801FF).setCore 0 { level := 0, pc := 0x8003400000, g := [(1, 0x8003400040)],
                            buf := [{ addr := 0x8003400040, size := 8, val := 7 }] }

theorem coveredLoad_fetches : coveredLoad.Fetches 0 loadWord E.LD64 := by
  unfold State.Fetches
  decide +kernel

theorem coveredLoad_storesGood : coveredLoad.StoresGood 0 := by
  unfold State.StoresGood
  decide +kernel

/-- The load takes what the store has left in the commit buffer, and the core pair goes on at U. -/
theorem coveredLoad_done : ((coveredLoad.loadX 0 loadWord E.LD64 8 (BitVec.ofNat 64)).core 0).level = 0 := by decide +kernel

/-- Refutes O39: its clause on a poisoned word has every load of one end in LOAD_ERR, but a load whose bytes all stand in the core
pair's own commit buffer reads nothing of memory (12 R555). The counterexample is core pair 0 with a waiting store of eight bytes to
the poisoned word that LD64 loads. -/
theorem not_loads : ¬ Obligations.Loads := by
  unfold Obligations.Loads
  rintro ⟨-, -, -, -, -, hpoison, -⟩
  have hrow : (.coreLd64, E.LD64, 8, fun k d v => k.setReg d (BitVec.ofNat 64 v)) ∈ loadRows := by simp [loadRows]
  obtain ⟨u, hexec, hentered, -⟩ := hpoison _ hrow 0 loadWord coveredLoad 0x8003400040 coveredLoad_fetches (by decide +kernel)
    (by decide) (by decide) (by decide +kernel) (by decide) (by decide) (by decide +kernel) coveredLoad_storesGood
  rw [exec_coreLd64] at hexec
  obtain rfl := Host.Outcome.next.inj hexec
  obtain ⟨hlevel, -⟩ := hentered
  exact absurd (coveredLoad_done.symm.trans hlevel) (by decide)

end Sys2Proof.Machine
end

section
/-! Partition commands (05 R225): the active queues one and hands it to the standby, or refuses it. -/
namespace Sys2Proof.Machine

theorem exec_cycPctlRestart (p : Fin 256) (t : Nat) (s : State) :
    exec (.cycPctlRestart p t) s = .next ((s.at t).partCtl p.val true) := by rfl

theorem exec_cycPctlHalt (p : Fin 256) (t : Nat) (s : State) :
    exec (.cycPctlHalt p t) s = .next ((s.at t).partCtl p.val false) := by rfl

theorem exec_partitionCommandRx (p : Fin 256) (restart : Bool) (n : Nat) (s : State) :
    exec (.partitionCommandRx p restart n) s = execPartitionCommandRx p restart n s := by rfl

/-! ## Interrupts that become pending (12 R562) -/

theorem State.ipendSet_bit (s : State) (c : Nat) {n : Nat} (hn : n < 64) :
    ((s.ipendSet c n).core c).ipend.getLsbD n = true := by
  rw [State.ipendSet, State.core_co_same]
  simp only [BitVec.getLsbD_or, BitVec.natCast_eq_ofNat, BitVec.getLsbD_ofNat, Nat.one_shiftLeft,
    Nat.testBit_two_pow_self, hn, decide_true, Bool.and_self, Bool.or_true]

/-! ## CYC_PCTL -/

/-- Whether a command is taken is not read off CYC_PCTL. -/
theorem State.takesCommand_put (s : State) {f : Fld} (v p : Nat) (restart : Bool) (hf : f.off = R.CYC_PCTL) :
    (s.put f v).takesCommand p restart = s.takesCommand p restart := by
  have hrole : (s.put f v).isActive = s.isActive := by
    rw [State.isActive, State.role, State.get_put_ne _ _ (.inl (by rw [hf]; decide)), State.isActive, State.role]
  have hstate (c : Nat) : (s.put f v).get (F.CYC_CORE_STATE c) = s.get (F.CYC_CORE_STATE c) := by
    refine State.get_put_ne _ _ (.inl ?_)
    simp only [hf, R.CYC_PCTL, F.CYC_CORE_STATE]
    omega
  have hfaulty (r : PartRec) : (s.put f v).noRestart r = s.noRestart r := by
    rw [State.noRestart, hstate]
    rfl
  rw [State.takesCommand, hrole, hfaulty]
  rfl

/-- A command as CYC_PCTL names it: its partition, 1 restart or 2 halt. -/
def State.nameCommand (s : State) (p : Nat) (restart : Bool) : State :=
  (s.put F.CYC_PCTL_PART p).put F.CYC_PCTL_ACTION (if restart then 1 else 2)

theorem State.nameCommand_takes (s : State) (p : Nat) (restart : Bool) :
    (s.nameCommand p restart).takesCommand p restart = s.takesCommand p restart := by
  rw [State.nameCommand, State.takesCommand_put _ _ _ _ rfl, State.takesCommand_put _ _ _ _ rfl]

theorem State.partCtl_taken {s : State} {p : Nat} {restart : Bool} (h : s.takesCommand p restart = true) :
    s.partCtl p restart = ((s.nameCommand p restart).queueCommand p restart (boundaryAfter s.now 4)).send
      (.partCommand p restart (boundaryAfter s.now 4)) :=
  if_pos ((s.nameCommand_takes p restart).trans h)

theorem State.partCtl_refused {s : State} {p : Nat} {restart : Bool} (h : s.takesCommand p restart = false) :
    s.partCtl p restart = ((s.nameCommand p restart).put F.CYC_PCTL_REFUSED 1).raise 0x4015 islMgmt [] := by
  refine if_neg ?_
  rw [← State.nameCommand, State.nameCommand_takes, h]
  decide

/-- CYC_PCTL shows the command that was given, and that it waits. -/
theorem State.queueCommand_shows (s : State) {p : Nat} (restart : Bool) (n : Nat) (hp : p < 256) :
    let u := (s.nameCommand p restart).queueCommand p restart n
    u.get F.CYC_PCTL_PENDING = 1 ∧ u.get F.CYC_PCTL_PART = p ∧ u.get F.CYC_PCTL_ACTION = if restart then 1 else 2 := by
  dsimp only [State.queueCommand]
  refine ⟨State.get_put_same _ _ (by decide), ?part, ?action⟩
  case part =>
    rw [State.get_put_ne _ _ (.inr (by decide))]
    refine (State.get_put_ne _ _ (.inr (by decide))).trans ((State.get_put_same _ _ (by decide)).trans ?_)
    exact Nat.mod_eq_of_lt hp
  case action =>
    rw [State.get_put_ne _ _ (.inr (by decide))]
    refine (State.get_put_same _ _ (by decide)).trans ?_
    cases restart <;> rfl

theorem State.queueCommand_cmd (s : State) (p : Nat) (restart : Bool) (n : Nat) :
    ((s.queueCommand p restart n).part p).cmd = some { restart := restart, at_ := n } :=
  congrArg PartState.cmd ((State.part_pa s p p fun k => { k with cmd := some { restart := restart, at_ := n } }).trans
    (if_pos rfl))

theorem State.queueCommand_sameRegs (s : State) (p : Nat) (restart : Bool) (n : Nat) :
    SameRegs s (s.queueCommand p restart n) [R.CYC_PCTL] :=
  SameRegs.put _ (by decide) (SameRegs.of_regs rfl (SameRegs.refl s _))

theorem State.nameCommand_sameRegs (s : State) (p : Nat) (restart : Bool) :
    SameRegs s (s.nameCommand p restart) [R.CYC_PCTL] :=
  SameRegs.put _ (by decide) (SameRegs.put _ (by decide) (SameRegs.refl s _))

/-- The active takes a command for the first boundary four C0 cycles on (05 R225). -/
theorem State.partCtl_queues {s : State} {p : Nat} {restart : Bool} (hp : p < 256) (h : s.takesCommand p restart = true) :
    ((s.partCtl p restart).part p).cmd = some { restart := restart, at_ := boundaryAfter s.now 4 } ∧
      (s.partCtl p restart).get F.CYC_PCTL_PENDING = 1 ∧ (s.partCtl p restart).get F.CYC_PCTL_PART = p ∧
      (s.partCtl p restart).get F.CYC_PCTL_ACTION = (if restart then 1 else 2) ∧
      (s.partCtl p restart).out = s.out ++ [.partCommand p restart (boundaryAfter s.now 4)] ∧
      SameRegs s (s.partCtl p restart) [R.CYC_PCTL] := by
  obtain ⟨hpending, hpart, haction⟩ := s.queueCommand_shows restart (boundaryAfter s.now 4) hp
  rw [State.partCtl_taken h]
  refine ⟨State.queueCommand_cmd _ _ _ _, hpending, hpart, haction, rfl, SameRegs.of_regs rfl ?_⟩
  exact (s.nameCommand_sameRegs p restart).trans (State.queueCommand_sameRegs _ _ _ _)

/-- A command that is not taken sets REFUSED with 0x4015 and queues nothing (05 R225). -/
theorem State.partCtl_refuses {s : State} {p : Nat} {restart : Bool} (h : s.takesCommand p restart = false)
    (hroom : s.Room islMgmt) : (s.partCtl p restart).get F.CYC_PCTL_REFUSED = 1 ∧
      Raises s (s.partCtl p restart) 0x4015 islMgmt [] ∧ (s.partCtl p restart).parts = s.parts ∧
      (s.partCtl p restart).out = s.out ∧ SameRegs s (s.partCtl p restart) [R.CYC_PCTL] := by
  have hroom' : ((s.nameCommand p restart).put F.CYC_PCTL_REFUSED 1).Room islMgmt := hroom
  rw [State.partCtl_refused h]
  refine ⟨?refused, Raises.raise hroom (by rfl) _ _, State.raise_parts _ _ _ _, State.raise_out _ _ _ _, ?regs⟩
  case refused =>
    rw [State.raise_room_get hroom']
    exact State.get_put_same _ _ (by decide)
  case regs =>
    exact SameRegs.of_regs (State.raise_room_regs hroom' _ _) (SameRegs.put _ (by decide) (s.nameCommand_sameRegs p restart))

/-- The standby takes the active's command, with TWIN pending in the partition's core pair. -/
theorem partitionCommandRx_standby (p : Fin 256) (restart : Bool) (n : Nat) {s : State} (hrole : s.isStandby = true)
    (hbound : (s.image.part? p.val).isSome = true) : exec (.partitionCommandRx p restart n) s =
      .next ((s.queueCommand p.val restart n).ipendSet (s.prec p.val).core 3) := by
  rw [exec_partitionCommandRx, execPartitionCommandRx, if_pos ⟨hrole, hbound⟩]

/-- Settles O16: a command given through CYC_PCTL is queued or refused (`partCtl_queues`, `partCtl_refuses`), and the standby
queues what the active hands it. -/
theorem partitionCommands : Obligations.PartitionCommands := by
  unfold Obligations.PartitionCommands
  refine ⟨?restart, ?halt, ?haltRefused, ?standby, ?restartRefused⟩
  case restart => exact fun p t s h => ⟨_, exec_cycPctlRestart p t s, State.partCtl_queues (s := s.at t) p.isLt h⟩
  case halt => exact fun p t s h => ⟨_, exec_cycPctlHalt p t s, State.partCtl_queues (s := s.at t) p.isLt h⟩
  case haltRefused => exact fun p t s h hroom => ⟨_, exec_cycPctlHalt p t s, State.partCtl_refuses (s := s.at t) h hroom⟩
  case standby =>
    intro p restart n s hrole hbound
    refine ⟨_, partitionCommandRx_standby p restart n hrole hbound, State.queueCommand_cmd _ _ _ _,
      State.get_put_same _ _ (by decide), State.ipendSet_bit _ _ (by decide), ?_⟩
    exact SameRegs.of_regs rfl (State.queueCommand_sameRegs _ _ _ _)
  case restartRefused =>
    exact fun p t s h hroom => ⟨_, exec_cycPctlRestart p t s, State.partCtl_refuses (s := s.at t) h hroom⟩

end Sys2Proof.Machine
end

section
/-! The staging instant (05 R209, R212, R220, R232, R239): DEADLINE, overruns, commits, late staging. -/
namespace Sys2Proof.Machine

theorem exec_stagingInstant (ns t : Nat) (s : State) : exec (.stagingInstant ns t) s = execStagingInstant ns t s := by rfl

theorem exec_stagingLate (ring : Fin 16) (segs : List Nat) (t : Nat) (s : State) :
    exec (.stagingLate ring segs t) s = execStagingLate ring segs t s := by rfl

/-! ## When a module stages -/

/-- The current staging instant has come and has not been staged (05 R209). -/
def State.stagingDue (s : State) : Prop :=
  s.on F.CYC_STATUS_RUNNING = true ∧ s.cycleAt 27000 = true ∧ s.twin.stagedAt ≠ some s.count

/-- The staging instant is marked as staged. -/
def State.markStaged (s : State) : State := s.tw fun u => { u with stagedAt := some s.count }

/-- What keeps the staging instant from being staged does not hold where it is due. -/
theorem State.stagingDue.not_idle {s : State} (h : s.stagingDue) :
    ¬ ((!s.on F.CYC_STATUS_RUNNING) = true ∨ (!s.cycleAt 27000) = true ∨ s.twin.stagedAt = some s.count) := by
  obtain ⟨hrun, htime, honce⟩ := h
  simp [hrun, htime, honce]

theorem stagingInstant_decides (ns t : Nat) {s : State} (h : (s.at t).stagingDue) (hown : s.decides = true) :
    exec (.stagingInstant ns t) s = .next (((s.at t).markStaged.stageOwn ns).ipendAll 1) :=
  (exec_stagingInstant ns t s).trans (congrArg Host.Outcome.next ((if_neg h.not_idle).trans (if_pos hown)))

theorem stagingInstant_waits (ns t : Nat) {s : State} (h : (s.at t).stagingDue) (hown : s.decides = false) :
    exec (.stagingInstant ns t) s = .next ((s.at t).markStaged.ipendAll 1) := by
  have hown' : ¬ (s.at t).decides = true := by rw [show (s.at t).decides = false from hown]; decide
  exact (exec_stagingInstant ns t s).trans (congrArg Host.Outcome.next ((if_neg h.not_idle).trans (if_neg hown')))

theorem stagingInstant_notDue (ns t : Nat) {s : State} (h : ¬ (s.at t).stagingDue) :
    exec (.stagingInstant ns t) s = .next (s.at t) := by
  refine (exec_stagingInstant ns t s).trans (congrArg Host.Outcome.next (if_pos (Classical.byContradiction fun hidle => h ?_)))
  obtain ⟨hrun, hrest⟩ := not_or.1 hidle
  obtain ⟨htime, honce⟩ := not_or.1 hrest
  rw [Bool.not_eq_true, Bool.not_eq_false'] at hrun htime
  exact ⟨hrun, htime, honce⟩

/-! ## An interrupt in every core pair in use (12 R562) -/

/-- An interrupt pending in the core pairs of a list changes core pairs alone. -/
theorem State.each_ipendSet_cores (s : State) (l : List Nat) (n : Nat) :
    (s.each l fun t c => t.ipendSet c n) = { s with cores := (s.each l fun t c => t.ipendSet c n).cores } :=
  List.foldlRecOn (motive := fun t : State => t = { s with cores := t.cores }) l _ rfl fun t ht c _ => by rw [ht]; rfl

theorem State.ipendSet_keeps {s : State} {c n : Nat} (d : Nat) (hn : n < 64) (h : (s.core c).ipend.getLsbD n = true) :
    ((s.ipendSet d n).core c).ipend.getLsbD n = true := by
  by_cases hd : d = c
  · rw [hd]
    exact State.ipendSet_bit s c hn
  · rw [State.ipendSet, State.core_co, if_neg hd]
    exact h

theorem State.each_ipendSet_keeps {s : State} {c n : Nat} (l : List Nat) (hn : n < 64)
    (h : (s.core c).ipend.getLsbD n = true) : ((s.each l fun t d => t.ipendSet d n).core c).ipend.getLsbD n = true :=
  List.foldlRecOn (motive := fun t : State => (t.core c).ipend.getLsbD n = true) l _ h fun _ ht d _ => State.ipendSet_keeps d hn ht

theorem State.each_ipendSet_bit (s : State) {l : List Nat} {c n : Nat} (hn : n < 64) (hc : c ∈ l) :
    ((s.each l fun t d => t.ipendSet d n).core c).ipend.getLsbD n = true := by
  induction l generalizing s with
  | nil => cases hc
  | cons d l ih =>
    obtain rfl | hc := List.mem_cons.1 hc
    · exact State.each_ipendSet_keeps l hn (State.ipendSet_bit s c hn)
    · exact ih (s.ipendSet d n) hc

/-! ## States of a partition (CYC_PSTATE) -/

/-- The fields of a state whose registers are those of another. -/
theorem State.get_of_regs {s t : State} (h : t.regs = s.regs) (f : Fld) : t.get f = s.get f := by
  rw [State.get, State.rd, h, State.get, State.rd]

theorem State.haltShow_only (s : State) : OnlyRegs s s.haltShow [R.CYC_STATUS] :=
  OnlyRegs.putB _ (List.mem_singleton.2 rfl) (OnlyRegs.refl s _)

theorem State.setPst_only (s : State) (p n : Nat) : OnlyRegs s (s.setPst p n) [R.CYC_PSTATE p, R.CYC_STATUS] :=
  OnlyRegs.putB _ (List.mem_cons_of_mem _ (List.mem_singleton.2 rfl))
    (OnlyRegs.put _ (List.mem_cons_self ..) (OnlyRegs.refl s _))

theorem State.setPst_pst (s : State) (p n : Nat) : (s.setPst p n).pst p = n % 8 := by
  have hapart : ¬ (F.CYC_PSTATE_STATE p).off ∈ [R.CYC_STATUS] := by
    simp only [F.CYC_PSTATE_STATE, R.CYC_STATUS, List.mem_singleton]
    omega
  rw [State.setPst, State.pst, (State.haltShow_only _).get hapart]
  exact State.get_put_same _ _ (by simp [F.CYC_PSTATE_STATE])

/-! ## Overruns (05 R212) -/

/-- An activation that overruns, as the registers show it. -/
def State.showOverrun (s : State) (p st : Nat) : State :=
  ((s.setPst p st).bump (F.CYC_PCOUNT_OVERRUNS p) 1).put F.CYC_STATUS_OVERRUN 1

theorem State.showOverrun_pst (s : State) (p st : Nat) : (s.showOverrun p st).pst p = st % 8 := by
  have hapart : F.CYC_STATUS_OVERRUN.off ≠ (F.CYC_PSTATE_STATE p).off ∧
      (F.CYC_PCOUNT_OVERRUNS p).off ≠ (F.CYC_PSTATE_STATE p).off := by
    simp only [F.CYC_STATUS_OVERRUN, F.CYC_PSTATE_STATE, F.CYC_PCOUNT_OVERRUNS]
    omega
  rw [State.showOverrun, State.pst, State.get_put_ne _ _ (.inl hapart.1), State.bump, State.get_put_ne _ _ (.inl hapart.2)]
  exact State.setPst_pst s p st

theorem State.showOverrun_count (s : State) (p st : Nat) : (s.showOverrun p st).get (F.CYC_PCOUNT_OVERRUNS p) =
    min (s.get (F.CYC_PCOUNT_OVERRUNS p) + 1) (2 ^ 16 - 1) := by
  have hapart : F.CYC_STATUS_OVERRUN.off ≠ (F.CYC_PCOUNT_OVERRUNS p).off ∧
      ¬ (F.CYC_PCOUNT_OVERRUNS p).off ∈ [R.CYC_PSTATE p, R.CYC_STATUS] := by
    simp only [F.CYC_STATUS_OVERRUN, F.CYC_PCOUNT_OVERRUNS, R.CYC_PSTATE, R.CYC_STATUS, List.mem_cons, List.not_mem_nil,
      or_false]
    omega
  rw [State.showOverrun, State.get_put_ne _ _ (.inl hapart.1), State.get_bump_same _ _ (by simp [F.CYC_PCOUNT_OVERRUNS]),
    (State.setPst_only s p st).get hapart.2]
  rfl

/-- An activation that overruns, shown and counted in the summary, in the next commit record and in its partition. -/
def State.noteOverrun (s : State) (p st : Nat) : State :=
  (((s.showOverrun p st).total 0x084 4 1).cr fun k => { k with overruns := k.overruns ++ [p] }).pa p
    fun k => { k with overran := true }

theorem State.noteOverrun_get (s : State) (p st : Nat) (f : Fld) : (s.noteOverrun p st).get f = (s.showOverrun p st).get f :=
  State.get_of_regs (by rw [State.noteOverrun, State.pa, State.setPart_regs, State.cr_regs, State.total_regs]) f

/-- An activation whose run no slow cycle touched goes on overrun, with its event; nothing more follows (05 R212, R229). -/
theorem State.overrunPart_fast {s : State} {p : Nat} (st : Nat) (h : (s.part p).slowRun = false) :
    s.overrunPart p st = (s.noteOverrun p st).raise 0x4001 (s.prec p).core (le 1 p ++ le 4 (s.part p).runs) :=
  if_neg (c := (s.part p).slowRun = true) (by simp [h])

theorem State.overrunPart_shows {s : State} {p : Nat} (st : Nat) (h : (s.part p).slowRun = false)
    (hroom : s.Room (s.prec p).core) : (s.overrunPart p st).pst p = st % 8 ∧
      (s.overrunPart p st).get (F.CYC_PCOUNT_OVERRUNS p) = min (s.get (F.CYC_PCOUNT_OVERRUNS p) + 1) (2 ^ 16 - 1) ∧
      (s.overrunPart p st).get F.CYC_STATUS_OVERRUN = 1 ∧ (s.overrunPart p st).commit.overruns = s.commit.overruns ++ [p] ∧
      Raises s (s.overrunPart p st) 0x4001 (s.prec p).core (le 1 p ++ le 4 (s.part p).runs) := by
  have hroom' : (s.noteOverrun p st).Room (s.prec p).core := hroom
  have hfields (f : Fld) : (s.overrunPart p st).get f = (s.showOverrun p st).get f := by
    rw [State.overrunPart_fast st h, State.raise_room_get hroom', State.noteOverrun_get]
  refine ⟨(hfields _).trans (s.showOverrun_pst p st), (hfields _).trans (s.showOverrun_count p st),
    (hfields _).trans (State.get_put_same _ _ (by decide)), ?_, ?_⟩
  · rw [State.overrunPart_fast st h, State.raise_commit]
    rfl
  · rw [State.overrunPart_fast st h]
    exact Raises.raise hroom (by rfl) _ _

/-! ## Commits (05 R209, R220) -/

theorem State.engineWord_clean {s : State} {a : Nat} (h : s.poisoned a 4 = false) : s.engineWord a = (s, s.memN a 4) :=
  if_neg (by simp [h])

theorem State.indexedOf_none {s : State} {r : PartRec} (h : (s.part r.part).idxCount = 0) : s.indexedOf r = (s, []) := by
  simp [State.indexedOf, h]

/-- The owner's delivery to a point that is not forced (04 R139, R161). -/
theorem State.deliver_unforced {s : State} {p : Nat} (v : Word) (q : Byte) (howner : (s.pinfo p).owner ≠ .unused)
    (hforce : s.force? p = none) : s.deliver p v q =
      (s.sg fun u => { u with writes := tset none s.sig.writes p (some { v := storeAs (s.pinfo p).typ v, q := q }) }).cleanPoint
        (!s.sig.buf) p := by
  simp [State.deliver, howner, hforce]

@[simp] theorem State.cleanPoint_sig (s : State) (buf : Bool) (p : Nat) : (s.cleanPoint buf p).sig = s.sig :=
  (State.unpoison_sig _ _ _).trans (State.unpoison_sig _ _ _)

@[simp] theorem State.cleanPoint_commit (s : State) (buf : Bool) (p : Nat) : (s.cleanPoint buf p).commit = s.commit :=
  (State.unpoison_commit _ _ _).trans (State.unpoison_commit _ _ _)

theorem State.deliver_commit (s : State) (p : Nat) (v : Word) (q : Byte) : (s.deliver p v q).commit = s.commit := by
  unfold State.deliver
  dsimp only
  split
  · rfl
  · split
    · rfl
    · exact State.cleanPoint_commit _ _ _

theorem State.deliver_write {s : State} {p : Nat} (v : Word) (q : Byte) (howner : (s.pinfo p).owner ≠ .unused)
    (hforce : s.force? p = none) :
    tget none (s.deliver p v q).sig.writes p = some { v := storeAs (s.pinfo p).typ v, q := q } := by
  rw [State.deliver_unforced v q howner hforce, State.cleanPoint_sig]
  dsimp only [State.sg]
  exact tget_tset_same _ _ _ _

/-- A commit in time of one output that its partition owns, without indexed writes: the point takes what the output area holds, the
commit is noted, and the partition waits again (05 R209, R220). -/
theorem State.commitPart_one {s : State} {p q : Nat} {r : PartRec} (hrec : s.prec p = r) (hpart : r.part = p)
    (hdue : (s.part p).due = s.count + 1) (hidx : (s.part p).idxCount = 0) (hout : r.outputs = [q])
    (howner : (s.pinfo q).owner = .part p) (hclean : s.poisoned r.outArea 4 = false) :
    ∃ f g, s.commitPart p = ((((s.deliver q (BitVec.ofNat 32 (s.memN r.outArea 4)) (qByte qValid)).pa p f).cr
      fun c => { c with commits := c.commits ++ [p] }).tw g).setPst p 1 := by
  have hindexed : s.indexedOf r = (s, []) := State.indexedOf_none (hpart ▸ hidx)
  have hword : s.engineWord (r.outArea + 4 * 0) = (s, s.memN r.outArea 4) := State.engineWord_clean hclean
  have hlate : ¬ (s.part p).due < s.count + 1 := by omega
  have hfew : ¬ (s.part p).idxCount > 1024 := by omega
  simp only [State.commitPart, hrec, hindexed, hout, State.each, List.zipIdx, List.foldl_cons, List.foldl_nil, howner,
    if_true, hword, hlate, decide_false, hfew, if_false, Bool.false_eq_true]
  exact ⟨_, _, rfl⟩

/-! ## One partition at the staging instant -/

theorem State.stagePart_running {s : State} {r : PartRec} (hdue : (s.part r.part).due ≤ s.count + 1) (hpst : s.pst r.part = 2) :
    s.stagePart r = s.overrunPart r.part 4 := by
  rw [State.stagePart]
  simp only [hdue, if_true, hpst]

theorem State.stagePart_done {s : State} {r : PartRec} (hdue : (s.part r.part).due ≤ s.count + 1) (hpst : s.pst r.part = 3) :
    s.stagePart r = s.commitPart r.part := by
  rw [State.stagePart]
  simp only [hdue, if_true, hpst]

theorem State.stagePart_commits {s : State} {r : PartRec} {q : Nat} (hrec : s.prec r.part = r) (hpst : s.pst r.part = 3)
    (hdue : (s.part r.part).due = s.count + 1) (hidx : (s.part r.part).idxCount = 0) (hout : r.outputs = [q])
    (howner : (s.pinfo q).owner = .part r.part) (hforce : s.force? q = none) (hclean : s.poisoned r.outArea 4 = false) :
    (s.stagePart r).pst r.part = 1 ∧ (s.stagePart r).commit.commits = s.commit.commits ++ [r.part] ∧
      tget none (s.stagePart r).sig.writes q =
        some { v := storeAs (s.pinfo q).typ (BitVec.ofNat 32 (s.memN r.outArea 4)), q := qByte qValid } := by
  obtain ⟨f, g, hcommit⟩ := State.commitPart_one hrec rfl hdue hidx hout howner hclean
  rw [State.stagePart_done (Nat.le_of_eq hdue) hpst, hcommit]
  refine ⟨State.setPst_pst _ _ _, ?commits, ?writes⟩
  case commits => exact congrArg (fun c : CommitRecord => c.commits ++ [r.part]) (s.deliver_commit q _ _)
  case writes => exact State.deliver_write _ _ (by rw [howner]; exact fun h => nomatch h) hforce

/-! ## Late staging (05 R239) -/

theorem mem_dedupN {l : List Nat} {x : Nat} : x ∈ dedupN l ↔ x ∈ l := by
  induction l with
  | nil => rfl
  | cons y l ih =>
    rw [dedupN, List.mem_cons, List.mem_cons, List.mem_filter, ih, decide_eq_true_eq]
    by_cases hxy : x = y <;> simp [hxy]

/-- Late staging as it is marked: in CYC_STATUS, in the recorder, and in the ring. -/
def State.markLate (s : State) (ring : Nat) (segs : List Nat) : State :=
  ((s.put F.CYC_STATUS_LATE_STAGE 1).raise 0x4040 islMgmt []).ri ring fun r =>
    { r with unstaged := dedupN (r.unstaged ++ segs) }

theorem stagingLate_late (ring : Fin 16) (segs : List Nat) (t : Nat) {s : State} (hrun : s.on F.CYC_STATUS_RUNNING = true)
    (htime : s.count * 31250 + 29000 ≤ max s.now t) :
    exec (.stagingLate ring segs t) s = .next ((s.at t).markLate ring.val segs) := by
  have hcycle : (s.at t).cycleAt 29000 = true := decide_eq_true htime
  have hrun' : (s.at t).on F.CYC_STATUS_RUNNING = true := hrun
  refine (exec_stagingLate ring segs t s).trans (congrArg Host.Outcome.next (if_pos ?_))
  rw [hrun', hcycle, Bool.and_self]

theorem State.markLate_marks (s : State) (ring : Nat) (segs : List Nat) (hroom : s.Room islMgmt) :
    (s.markLate ring segs).get F.CYC_STATUS_LATE_STAGE = 1 ∧ Raises s (s.markLate ring segs) 0x4040 islMgmt [] ∧
      (∀ g ∈ segs, g ∈ ((s.markLate ring segs).ring ring).unstaged) ∧ SameRegs s (s.markLate ring segs) [R.CYC_STATUS] ∧
      s.markLate ring segs = { s with
        regs := (s.markLate ring segs).regs, recd := (s.markLate ring segs).recd, rings := (s.markLate ring segs).rings } := by
  have hroom' : (s.put F.CYC_STATUS_LATE_STAGE 1).Room islMgmt := hroom
  have hregs : (s.markLate ring segs).regs = (s.put F.CYC_STATUS_LATE_STAGE 1).regs := State.raise_room_regs hroom' _ _
  have hraises : Raises s ((s.put F.CYC_STATUS_LATE_STAGE 1).raise 0x4040 islMgmt []) 0x4040 islMgmt [] :=
    Raises.raise hroom (by rfl) _ _
  refine ⟨?shown, hraises, ?unstaged, ?regs, ?rest⟩
  case shown => exact (State.get_of_regs hregs _).trans (State.get_put_same _ _ (by decide))
  case unstaged =>
    intro g hg
    rw [State.markLate, State.ring_ri, if_pos rfl]
    exact mem_dedupN.2 (List.mem_append_right _ hg)
  case regs => exact SameRegs.of_regs hregs (SameRegs.put _ (by decide) (SameRegs.refl s _))
  case rest =>
    rw [State.markLate, State.raise_room _ hroom']
    rfl

/-- Settles O17: a staging instant that is due is staged or awaited (`stagingInstant_decides`, `stagingInstant_waits`), an
activation that is due overruns or commits (`overrunPart_shows`, `stagePart_commits`), and late staging is marked
(`markLate_marks`). -/
theorem stagingInstants : Obligations.StagingInstants := by
  unfold Obligations.StagingInstants
  refine ⟨?waits, ?decides, ?overruns, ?late, ?commits, ?idle⟩
  case waits =>
    intro ns t s hrun htime honce hown
    refine ⟨_, stagingInstant_waits ns t ⟨hrun, decide_eq_true htime, honce⟩ hown, fun c hc => ?_, ?_⟩
    · exact State.each_ipendSet_bit _ (by decide) hc
    · exact State.each_ipendSet_cores _ _ _
  case decides =>
    exact fun ns t s hrun htime honce hown => stagingInstant_decides ns t ⟨hrun, decide_eq_true htime, honce⟩ hown
  case overruns =>
    intro r s _ hpst hdue hfast hroom
    rw [State.stagePart_running hdue hpst]
    exact State.overrunPart_shows 4 hfast hroom
  case late =>
    exact fun ring segs t s hrun htime hroom => ⟨_, stagingLate_late ring segs t hrun htime,
      (s.at t).markLate_marks ring.val segs hroom⟩
  case commits =>
    exact fun _ _ _ _ hrec hpst hdue hidx hout howner hforce hclean =>
      State.stagePart_commits hrec hpst hdue hidx hout howner hforce hclean
  case idle =>
    intro ns t s hidle
    refine stagingInstant_notDue ns t fun ⟨hrun, htime, honce⟩ => ?_
    obtain hoff | hearly | hdone := hidle
    · exact Bool.noConfusion (hrun.symm.trans hoff)
    · exact absurd (of_decide_eq_true htime) (Nat.not_le_of_lt hearly)
    · exact honce hdone

end Sys2Proof.Machine
end

section
/-! Where the statements on run limits and on lockstep resets do not hold (05 R217, R221, R232; 12 R579, R580). -/
namespace Sys2Proof.Machine

theorem exec_runLimit (p : Fin 256) (t : Nat) (s : State) : exec (.runLimit p t) s = execRunLimit p t s := by rfl

theorem exec_lockstepResetComplete (c : Fin 32) (s : State) :
    exec (.lockstepResetComplete c) s = execLockstepResetComplete c s := by rfl

/-! ## The run limit of an activation with a store that waits (05 R217, R221) -/

/-- The run limit aborts the activation once the stores of its core pair have left (05 R221). -/
theorem runLimit_overdue (p : Fin 256) (t : Nat) {s : State} (hown : s.decides = true)
    (hlimit : (s.part p.val).relAt + (s.prec p.val).runLimit * period (s.prec p.val).cls * 31250 ≤ max s.now t) :
    exec (.runLimit p t) s = .next (((s.at t).leaveCore p.val).abortPart p.val 7 0) := by
  have hown' : (s.at t).decides = true := hown
  have hlimit' : ((s.at t).part p.val).relAt + boundaryNs (((s.at t).prec p.val).runLimit * period ((s.at t).prec p.val).cls) ≤
      (s.at t).now := hlimit
  refine (exec_runLimit p t s).trans (congrArg Host.Outcome.next (if_pos ?_))
  rw [hown', decide_eq_true hlimit', Bool.and_self]

/-- Partition 0 RUNNING on core pair 0, with a store to its partition fast data in the commit buffer. -/
def storingRun : State :=
  (State.reset.put (F.CYC_PSTATE_STATE 0) 2).co 0 fun k =>
    { k with cur := some 0, buf := [{ addr := 0x8003400000, size := 1, val := 7 }] }

theorem storingRun_running : storingRun.pst 0 = 2 ∧ storingRun.decides = true ∧ storingRun.Room (storingRun.prec 0).core ∧
    (storingRun.part 0).relAt + (storingRun.prec 0).runLimit * period (storingRun.prec 0).cls * 31250 ≤
      max storingRun.now 250000 := by decide +kernel

theorem storingRun_stored : storingRun.memB 0x8003400000 = 0 ∧
    (((storingRun.at 250000).leaveCore 0).abortPart 0 7 0).memB 0x8003400000 = 7 := by decide +kernel

/-- Refutes O15: its clause on the run limit leaves memory as it is, but the stores that wait in the core pair leave before the
activation is aborted (05 R221). The counterexample is a RUNNING activation, past its run limit, with one store in the commit
buffer. -/
theorem not_activationsEnd : ¬ Obligations.ActivationsEnd := by
  unfold Obligations.ActivationsEnd
  rintro ⟨-, hlimit, -⟩
  obtain ⟨hpst, hown, hroom, hover⟩ := storingRun_running
  obtain ⟨hbefore, hafter⟩ := storingRun_stored
  obtain ⟨u, hexec, -, -, -, -, -, -, hmem, -⟩ := hlimit 0 250000 storingRun (.inl hpst) hown hover hroom
  obtain rfl := Host.Outcome.next.inj ((runLimit_overdue 0 250000 hown hover).symm.trans hexec)
  have hkept : (((storingRun.at 250000).leaveCore 0).abortPart 0 7 0).memB 0x8003400000 = storingRun.memB 0x8003400000 :=
    congrArg (Memory.read · 0x8003400000) hmem
  rw [hbefore] at hkept
  exact absurd (hafter.symm.trans hkept) (by decide)

/-! ## A release that waits for the lockstep reset (05 R232, 12 R580) -/

/-- Partition 0 WAITING on core pair 0, which resets, with a release that waits for the end of the reset. -/
def heldByReset : State :=
  (({ State.reset with img := some { parts := [{ part := 0 }] } }.put (F.CYC_PSTATE_STATE 0) 1).co 0 fun k =>
    { k with resetting := true }).pa 0 fun k => { k with relWait := some {} }

theorem heldByReset_waiting : heldByReset.pst 0 = 1 := by decide +kernel

/-- The reset ends, and the release that waited runs. -/
theorem heldByReset_released :
    Steps (execLockstepResetComplete 0 heldByReset) fun u => u.pst 0 = 2 := ⟨_, rfl, by decide +kernel⟩

/-- Refutes O41: its clause on the end of a lockstep reset has nothing change but the core pair, but a release that waited for the
reset runs now (05 R232), which CYC_PSTATE shows. The counterexample is one WAITING partition with such a release. -/
theorem not_storesLeave : ¬ Obligations.StoresLeave := by
  unfold Obligations.StoresLeave
  rintro ⟨-, -, -, -, hcomplete, -⟩
  obtain ⟨u, hexec, honly, -⟩ := hcomplete 0 heldByReset
  obtain ⟨v, hdone, hrunning⟩ := heldByReset_released
  obtain rfl := Host.Outcome.next.inj (hexec.symm.trans ((exec_lockstepResetComplete 0 heldByReset).trans hdone))
  have hregs : u.regs = heldByReset.regs := by rw [honly]
  have hkept : u.pst 0 = 1 := (State.get_of_regs hregs _).trans heldByReset_waiting
  exact absurd (hrunning.symm.trans hkept) (by decide)

end Sys2Proof.Machine
end

section
/-! Samples of the head slots: outcomes, holds, deadlines (05 R237; 06 R266, R275; 07 R331 to R336). -/
namespace Sys2Proof.Machine

/-! ## Head slots -/

@[simp] theorem State.slot_sl_same (s : State) (i : Nat) (f : SlotDyn → SlotDyn) : (s.sl i f).slot i = f (s.slot i) := by
  rw [State.slot_sl, if_pos rfl]

theorem State.slot_of_loops {s t : State} (h : t.loops = s.loops) (i : Nat) : t.slot i = s.slot i := by
  rw [State.slot, h, State.slot]

@[simp] theorem State.raise_slot (s : State) (code isl : Nat) (data : List Byte) (i : Nat) :
    (s.raise code isl data).slot i = s.slot i := State.slot_of_loops (s.raise_loops code isl data) i

theorem State.markHold_slot (s : State) (i : Nat) : (s.markHold i).slot i = { s.slot i with holding := true, result := none } :=
  State.slot_sl_same _ _ _

/-! ## The completion of a sample (07 R331 to R333) -/

/-- A sample runs in a head slot: released, not held, without a result, on a pair that has not FAILED (07 R332, R333, R339). -/
structure State.SampleRuns (s : State) (i : Nat) : Prop where
  busy : (s.slot i).busy = true
  free : (s.slot i).holding = false
  pending : (s.slot i).result = none
  pair : s.get (F.LPE_HEALTH_STATE (i / 1024)) ≠ 2

/-- What leaves a completion without effect does not hold of a sample that runs. -/
theorem State.SampleRuns.not_idle {s : State} {i : Nat} (h : s.SampleRuns i) :
    ¬ (!(s.slot i).busy || (s.slot i).holding || (s.slot i).result.isSome) = true := by
  simp [h.busy, h.free, h.pending]

theorem exec_sampleComplete (slot : Fin 16384) (cause : Option HoldCause) (fetch : Option Nat) (t : Nat) (s : State) :
    exec (.sampleComplete slot cause fetch t) s = execSampleComplete slot cause fetch t s := by rfl

theorem sampleComplete_idle {slot : Fin 16384} (cause : Option HoldCause) (fetch : Option Nat) (t : Nat) {s : State}
    (h : (s.slot slot.val).busy = false) : exec (.sampleComplete slot cause fetch t) s = .next (s.at t) := by
  have hidle : (!((s.at t).slot slot.val).busy) = true := by rw [show ((s.at t).slot slot.val).busy = false from h]; rfl
  refine (exec_sampleComplete slot cause fetch t s).trans (congrArg Host.Outcome.next (if_pos ?_))
  rw [hidle, Bool.true_or, Bool.true_or]

theorem sampleComplete_clean {slot : Fin 16384} (fetch : Option Nat) {t : Nat} {s : State} (h : s.SampleRuns slot.val)
    (hclean : (s.at t).samplePoisoned slot.val = false) : exec (.sampleComplete slot none fetch t) s =
      .next ((s.at t).sampleDone slot.val (fetch.or ((s.at t).camFetch slot.val))) := by
  have hjudged : (if (none : Option HoldCause).isNone && (s.at t).samplePoisoned slot.val then some HoldCause.poison else none) =
      none := if_neg (by simp [hclean])
  refine (exec_sampleComplete slot none fetch t s).trans
    (congrArg Host.Outcome.next ((if_neg h.not_idle).trans ((if_neg h.pair).trans ?_)))
  rw [hjudged]

theorem sampleComplete_caused {slot : Fin 16384} (c : HoldCause) (fetch : Option Nat) (t : Nat) {s : State}
    (h : s.SampleRuns slot.val) :
    exec (.sampleComplete slot (some c) fetch t) s = .next ((s.at t).holdSample slot.val c) :=
  (exec_sampleComplete slot (some c) fetch t s).trans
    (congrArg Host.Outcome.next ((if_neg h.not_idle).trans (if_neg h.pair)))

/-- The outcome of a sample that is not held stays in its slot until the staging instant (07 R331, R332). -/
theorem State.sampleDone_slot (s : State) (slot : Nat) (fetch : Option Nat) :
    ((s.sampleDone slot fetch).slot slot).result = some (s.outcome slot fetch) ∧
      ((s.sampleDone slot fetch).slot slot).cmpWord = s.cmpOf slot (s.outcome slot fetch) := by
  simp only [State.sampleDone, State.slot_sl_same, and_self]

/-- A sample that meets poison is held, counted and reported, with nothing else (07 R333). -/
theorem State.holdSample_poison {s : State} {slot : Nat} (hpair : s.get (F.LPE_HEALTH_STATE (slot / 1024)) ≠ 2)
    (hroom : s.Room (slotIsland slot)) :
    ((s.holdSample slot .poison).slot slot).holding = true ∧ ((s.holdSample slot .poison).slot slot).result = none ∧
      (s.holdSample slot .poison).get (F.SLOT_HELD_LATE slot) =
        min (s.get (F.SLOT_HELD_LATE slot) + 1) (2 ^ (F.SLOT_HELD_LATE slot).len - 1) ∧
      Raises s (s.holdSample slot .poison) 0x5014 (slotIsland slot) (le 2 slot) ∧ (s.holdSample slot .poison).mem = s.mem ∧
      SameRegs s (s.holdSample slot .poison) [R.SLOT_HELD slot] := by
  have hheld : s.holdSample slot .poison =
      ((s.markHold slot).bump (F.SLOT_HELD_LATE slot) 1).raise 0x5014 (slotIsland slot) (le 2 slot) := if_neg hpair
  have hmarked : (s.markHold slot).Room (slotIsland slot) := hroom
  obtain ⟨hcount, hraises, -, hregs⟩ := State.bump_raise (f := F.SLOT_HELD_LATE slot) 1 0x5014 (le 2 slot)
    (by simp [F.SLOT_HELD_LATE]) hmarked
  have hslot : (s.holdSample slot .poison).slot slot = { s.slot slot with holding := true, result := none } := by
    rw [hheld, State.raise_slot]
    exact s.markHold_slot slot
  refine ⟨by rw [hslot], by rw [hslot], ?_⟩
  rw [hheld]
  exact ⟨hcount, hraises, State.raise_mem _ _ _ _, hregs⟩

/-! ## Deadline misses of a pair (07 R335, R336) -/

/-- A deadline miss of a pair is noted. -/
def State.noteMiss (s : State) (p : Nat) : State :=
  s.lp fun u => { u with misses := tset [] u.misses p ((s.now, s.count) :: tget [] u.misses p) }

/-- A pair that missed no deadline within the last second has missed this one alone. -/
theorem State.noteMiss_pairMisses {s : State} {p : Nat} (h : tget [] s.loops.misses p = []) :
    (s.noteMiss p).pairMisses p = [(s.now, s.count)] := by
  have hmisses : tget [] (s.noteMiss p).loops.misses p = (s.now, s.count) :: tget [] s.loops.misses p := by
    rw [State.noteMiss, State.lp_loops, tget_tset_same]
  rw [State.pairMisses, hmisses, h]
  exact List.filter_eq_self.2 (by simp [State.noteMiss])

theorem State.missShow_pairMisses (s : State) (p : Nat) : (s.missShow p).pairMisses p = s.pairMisses p := by
  have hmisses : tget [] (s.missShow p).loops.misses p = s.pairMisses p := tget_tset_same _ _ _ _
  rw [State.pairMisses, hmisses]
  exact List.filter_eq_self.2 fun e he => (List.mem_filter.1 he).2

/-- A first miss moves no pair: three within a second do (07 R336). -/
theorem State.missCount_first {s : State} {p : Nat} (h : tget [] s.loops.misses p = []) :
    s.missCount p false = (s.noteMiss p).missShow p := by
  have hone : ((s.noteMiss p).missShow p).pairMisses p = [(s.now, s.count)] :=
    (State.missShow_pairMisses _ _).trans (State.noteMiss_pairMisses h)
  refine if_neg fun hslow => ?_
  obtain ⟨hthree : 3 ≤ (dedupN ((((s.noteMiss p).missShow p).pairMisses p).map fun x => x.2)).length, -⟩ := hslow
  rw [hone] at hthree
  exact absurd hthree (by simp [dedupN])

theorem State.missShow_misses (s : State) (p : Nat) :
    (s.missShow p).get (F.LPE_HEALTH_MISSES p) = min (s.pairMisses p).length 255 := by
  have hlt : min (s.pairMisses p).length 255 < 2 ^ 8 := by omega
  exact (State.get_put_same _ _ (by simp [F.LPE_HEALTH_MISSES])).trans (Nat.mod_eq_of_lt hlt)

/-- Missed deadlines of a pair are reported once in a C0 cycle (07 R335). -/
def State.reportLate (s : State) (p count : Nat) : State :=
  (s.lp fun u => { u with lateEvt := tset none u.lateEvt p (some s.count) }).raise 0x5011 (islCluster (2 * p))
    (le 1 p ++ le 4 count)

theorem State.reportLate_misses (s : State) (p count : Nat) :
    tget [] (s.reportLate p count).loops.misses p = tget [] s.loops.misses p := by
  rw [State.reportLate, State.raise_loops, State.lp_loops]

theorem State.lateHold_first {s : State} {p : Nat} (count : Nat) (hpair : s.get (F.LPE_HEALTH_STATE p) ≠ 2)
    (hevt : tget none s.loops.lateEvt p ≠ some s.count) (hmisses : tget [] s.loops.misses p = []) :
    s.lateHold p count false = ((s.reportLate p count).noteMiss p).missShow p := by
  have hmisses' : tget [] (s.reportLate p count).loops.misses p = [] := (s.reportLate_misses p count).trans hmisses
  have hreport : s.lateHold p count false = (s.reportLate p count).missCount p false :=
    (if_neg hpair).trans (congrArg (State.missCount · p false) (if_neg hevt))
  rw [hreport, State.missCount_first hmisses']

/-- The first miss of a pair in a C0 cycle and within a second: it is reported, and counted in MISSES. -/
theorem State.lateHold_first_shows {s : State} {p : Nat} (count : Nat) (hpair : s.get (F.LPE_HEALTH_STATE p) ≠ 2)
    (hevt : tget none s.loops.lateEvt p ≠ some s.count) (hmisses : tget [] s.loops.misses p = [])
    (hroom : s.Room (islCluster (2 * p))) :
    (∀ i, (s.lateHold p count false).slot i = s.slot i) ∧ (s.lateHold p count false).get (F.LPE_HEALTH_MISSES p) = 1 ∧
      Raises s (s.lateHold p count false) 0x5011 (islCluster (2 * p)) (le 1 p ++ le 4 count) ∧
      SameRegs s (s.lateHold p count false) [R.LPE_HEALTH p] := by
  have hmisses' : tget [] (s.reportLate p count).loops.misses p = [] := (s.reportLate_misses p count).trans hmisses
  rw [State.lateHold_first count hpair hevt hmisses]
  refine ⟨fun i => ?slot, ?misses, ?raises, ?regs⟩
  case slot => exact State.raise_slot _ _ _ _ i
  case misses =>
    rw [State.missShow_misses, State.noteMiss_pairMisses hmisses']
    rfl
  case raises =>
    have hreported : Raises s (s.reportLate p count) 0x5011 (islCluster (2 * p)) (le 1 p ++ le 4 count) :=
      Raises.raise hroom (State.lp_recd _ _) _ _
    exact hreported
  case regs =>
    have hregs : (s.reportLate p count).regs = s.regs := State.raise_room_regs (by exact hroom) _ _
    exact SameRegs.put _ (List.mem_singleton.2 rfl) (SameRegs.of_regs hregs (SameRegs.refl s _))

/-! ## The deadline (05 R237; 07 R333, R335) -/

theorem exec_sampleDeadline (t : Nat) (s : State) : exec (.sampleDeadline t) s = execSampleDeadline t s := by rfl

theorem sampleDeadline_early {t : Nat} {s : State} (h : max s.now t < boundaryNs s.count + 27000) :
    exec (.sampleDeadline t) s = .next (s.at t) := by
  have hearly : ¬ (s.at t).cycleAt 27000 = true := fun hpast => Nat.not_le_of_lt h (of_decide_eq_true hpast)
  exact (exec_sampleDeadline t s).trans (congrArg Host.Outcome.next (if_neg hearly))

theorem sampleDeadline_past {t : Nat} {s : State} (h : boundaryNs s.count + 27000 ≤ max s.now t) :
    exec (.sampleDeadline t) s = .next (s.at t).deadlines := by
  have hpast : (s.at t).cycleAt 27000 = true := decide_eq_true h
  exact (exec_sampleDeadline t s).trans (congrArg Host.Outcome.next (if_pos hpast))

theorem State.deadlines_none {s : State} (h : s.lateSlots = []) : s.deadlines = s := by
  rw [State.deadlines, h]
  rfl

/-- With none late, only time goes on. -/
theorem sampleDeadline_none (t : Nat) {s : State} (h : s.lateSlots = []) : exec (.sampleDeadline t) s = .next (s.at t) := by
  obtain hearly | hpast := Nat.lt_or_ge (max s.now t) (boundaryNs s.count + 27000)
  · exact sampleDeadline_early hearly
  · exact (sampleDeadline_past hpast).trans (congrArg Host.Outcome.next (State.deadlines_none (s := s.at t) h))

/-- A due sample without a result is held and counted. -/
def State.holdLate (s : State) (i : Nat) : State := (s.bump (F.SLOT_HELD_LATE i) 1).markHold i

theorem State.deadlines_one {s : State} {i : Nat} (h : s.lateSlots = [i]) :
    s.deadlines = (s.holdLate i).lateHold (i / 1024) 1 (s.onSpare i) := by
  rw [State.deadlines, h]
  simp [State.each, dedupN, State.holdLate]

theorem State.holdLate_slot (s : State) (i : Nat) : (s.holdLate i).slot i = { s.slot i with holding := true, result := none } :=
  State.markHold_slot _ _

theorem State.holdLate_count (s : State) (i : Nat) : (s.holdLate i).count = s.count := by
  have hlow : (s.holdLate i).rd R.CYC_COUNT = s.rd R.CYC_COUNT :=
    State.rd_put_ne s _ (by simp only [F.SLOT_HELD_LATE, R.CYC_COUNT]; omega)
  have hhigh : (s.holdLate i).rd (R.CYC_COUNT + 4) = s.rd (R.CYC_COUNT + 4) :=
    State.rd_put_ne s _ (by simp only [F.SLOT_HELD_LATE, R.CYC_COUNT]; omega)
  rw [State.count, State.rd64, hlow, hhigh, State.count, State.rd64]

theorem State.holdLate_pair (s : State) (i p : Nat) (hp : p < 16) :
    (s.holdLate i).get (F.LPE_HEALTH_STATE p) = s.get (F.LPE_HEALTH_STATE p) :=
  State.get_put_ne s _ (.inl (by simp only [F.SLOT_HELD_LATE, F.LPE_HEALTH_STATE]; omega))

theorem State.onSpare_of_ok {s : State} {i : Nat} (h : s.get (F.LPE_HEALTH_STATE (i / 1024)) = 0) : s.onSpare i = false := by
  simp [State.onSpare, h]

/-- One late sample of a pair that serves its own slots and has missed no deadline within a second (07 R333, R335). -/
theorem State.deadlines_first {s : State} {i : Nat} (hlate : s.lateSlots = [i]) (hi : i < 16384)
    (hpair : s.get (F.LPE_HEALTH_STATE (i / 1024)) = 0) (hmisses : tget [] s.loops.misses (i / 1024) = [])
    (hevt : tget none s.loops.lateEvt (i / 1024) ≠ some s.count) (hroom : s.Room (islCluster (2 * (i / 1024)))) :
    (s.deadlines.slot i).holding = true ∧
      s.deadlines.get (F.SLOT_HELD_LATE i) = min (s.get (F.SLOT_HELD_LATE i) + 1) (2 ^ (F.SLOT_HELD_LATE i).len - 1) ∧
      s.deadlines.get (F.LPE_HEALTH_MISSES (i / 1024)) = 1 ∧
      Raises s s.deadlines 0x5011 (islCluster (2 * (i / 1024))) (le 1 (i / 1024) ++ le 4 1) := by
  have hpair' : (s.holdLate i).get (F.LPE_HEALTH_STATE (i / 1024)) ≠ 2 := by
    rw [State.holdLate_pair s i _ (by omega), hpair]
    decide
  have hevt' : tget none (s.holdLate i).loops.lateEvt (i / 1024) ≠ some (s.holdLate i).count := by
    rw [State.holdLate_count]
    exact hevt
  obtain ⟨hslots, hcounted, hraises, hregs⟩ := State.lateHold_first_shows 1 hpair' hevt' hmisses hroom
  rw [State.deadlines_one hlate, State.onSpare_of_ok hpair]
  refine ⟨?held, ?late, hcounted, hraises⟩
  case held => rw [hslots, State.holdLate_slot]
  case late =>
    have hapart : ¬ (F.SLOT_HELD_LATE i).off ∈ [R.LPE_HEALTH (i / 1024)] := by
      simp only [F.SLOT_HELD_LATE, R.LPE_HEALTH, List.mem_singleton]
      omega
    rw [State.get, hregs _ hapart]
    exact State.get_bump_same s 1 (by simp [F.SLOT_HELD_LATE])

/-! ## Phase P (05 R237) -/

theorem exec_samplePhasePStart (s : State) :
    exec .samplePhasePStart s = .next (s.lp fun u => { u with phaseP := some s.count }) := by rfl

/-- Settles O19: a sample that runs is done (`sampleDone_slot`) or held (`holdSample_poison`), and the deadline holds the late
ones and counts the miss of their pair (`deadlines_first`). -/
theorem loopSamples : Obligations.LoopSamples := by
  unfold Obligations.LoopSamples
  refine ⟨?done, ?poison, ?idle, ?none, ?early, ?late, ?phaseP⟩
  case done =>
    exact fun slot fetch t s hbusy hfree hnone hpair hclean =>
      ⟨_, sampleComplete_clean fetch ⟨hbusy, hfree, hnone, hpair⟩ hclean, State.sampleDone_slot _ _ _⟩
  case poison =>
    exact fun slot fetch t s hbusy hfree hnone hpair hroom =>
      ⟨_, sampleComplete_caused .poison fetch t ⟨hbusy, hfree, hnone, hpair⟩,
        State.holdSample_poison (s := s.at t) hpair hroom⟩
  case idle => exact fun slot cause fetch t s h => sampleComplete_idle cause fetch t h
  case none => exact fun t s h => sampleDeadline_none t h
  case early => exact fun t s h => sampleDeadline_early h
  case late =>
    exact fun i t s hpast hlate hi hpair hmisses hevt hroom =>
      ⟨_, sampleDeadline_past hpast, State.deadlines_first (s := s.at t) hlate hi hpair hmisses hevt hroom⟩
  case phaseP => exact fun s => ⟨_, exec_samplePhasePStart s, rfl⟩

end Sys2Proof.Machine
end

section
/-! Flag clears of the head slots (06 R267, R279). -/
namespace Sys2Proof.Machine

theorem exec_slotFlagClear (slot : Fin 16384) (v : Word) (t : Nat) (s : State) :
    exec (.slotFlagClear slot v t) s = .next ((s.at t).flagWrite slot.val v.toNat) := by rfl

theorem exec_flagClearRx (slot : Fin 16384) (m : Fin 4096) (n : Nat) (s : State) :
    exec (.flagClearRx slot m n) s = execFlagClearRx slot m n s := by rfl

/-! ## Clears that wait (06 R267) -/

/-- A clear waits in its slot, which shows CLR_PENDING; no other register changes. -/
theorem State.queueClear_waits (s : State) (slot mask n : Nat) :
    ((s.queueClear slot mask n).slot slot).clr = (s.slot slot).clr ++ [{ mask := mask, at_ := n }] ∧
      (s.queueClear slot mask n).get (F.SLOT_STATUS_CLR_PENDING slot) = 1 ∧
      SameRegs s (s.queueClear slot mask n) [R.SLOT_STATUS slot] := by
  refine ⟨?clr, State.get_put_same _ 1 (by simp [F.SLOT_STATUS_CLR_PENDING]), ?regs⟩
  case clr =>
    rw [State.queueClear, State.slot_of_loops (State.put_loops _ _ _), State.slot_sl_same]
  case regs => exact SameRegs.put 1 (List.mem_singleton.2 rfl) (SameRegs.refl s _)

/-- The active has a clear wait for the first boundary four C0 cycles on, and hands it to the standby. -/
theorem State.flagWrite_active {s : State} {slot v : Nat} (hactive : s.isActive = true) (hmask : Nat.land v clearMask ≠ 0)
    (hhead : (s.image.loops.any fun r => decide (r.slot = slot)) = true) :
    s.flagWrite slot v = (s.queueClear slot (Nat.land v clearMask) (boundaryAfter s.now 4)).send
      (.flagClear slot (Nat.land v clearMask) (boundaryAfter s.now 4)) :=
  if_pos (by rw [hactive, decide_eq_true hmask, hhead]; rfl)

theorem State.flagWrite_notActive {s : State} {slot v : Nat} (h : s.isActive = false) : s.flagWrite slot v = s :=
  if_neg (by rw [h, Bool.false_and, Bool.false_and]; decide)

/-- An interrupt in every core pair in use changes core pairs alone. -/
theorem State.ipendAll_cores (s : State) (n : Nat) : s.ipendAll n = { s with cores := (s.ipendAll n).cores } :=
  State.each_ipendSet_cores _ _ _

theorem flagClearRx_standby {slot : Fin 16384} {m : Fin 4096} {n : Nat} {s : State} (h : s.isStandby = true) :
    exec (.flagClearRx slot m n) s = .next ((s.queueClear slot.val (Nat.land m.val clearMask) n).ipendAll 3) :=
  (exec_flagClearRx slot m n s).trans (congrArg Host.Outcome.next (if_pos h))

/-! ## A clear of FAULT (06 R267, R279) -/

/-- FAULT and its kind are taken out of SLOT_STATUS, and the law restarts at its next sample. -/
def State.unfault (s : State) (slot mask : Nat) : State :=
  ((s.wr (R.SLOT_STATUS slot) (s.rd (R.SLOT_STATUS slot) &&& ~~~(BitVec.ofNat 32 mask))).put
    (F.SLOT_STATUS_FAULT_KIND slot) 0).sl slot fun d => { d with restart := true }

theorem State.clearFlags_fault {s : State} {slot mask : Nat} (hmask : bitOf mask 0 = true)
    (h : s.on (F.SLOT_STATUS_FAULT slot) = true) :
    s.clearFlags slot mask = (s.unfault slot mask).faultShow.raise 0x5006 (slotIsland slot) [] :=
  if_pos (by rw [hmask, h]; rfl)

theorem State.unfault_restart (s : State) (slot mask : Nat) : ((s.unfault slot mask).slot slot).restart = true := by
  rw [State.unfault, State.slot_sl_same]

theorem State.unfault_kind (s : State) (slot mask : Nat) : (s.unfault slot mask).get (F.SLOT_STATUS_FAULT_KIND slot) = 0 :=
  State.get_put_same _ 0 (by simp [F.SLOT_STATUS_FAULT_KIND])

/-- A written bit 0 takes FAULT out of the word. -/
theorem getBits_cleared (w : Word) {mask : Nat} (h : bitOf mask 0 = true) :
    getBits (w &&& ~~~(BitVec.ofNat 32 mask)) 0 1 = 0 := by
  apply Nat.eq_of_testBit_eq
  intro i
  rw [getBits_testBit, Nat.zero_testBit]
  by_cases hi : i < 1
  · obtain rfl : i = 0 := by omega
    have hbit : (BitVec.ofNat 32 mask).getLsbD 0 = true := by
      rw [BitVec.getLsbD_ofNat]
      exact h
    rw [BitVec.getLsbD_and, BitVec.getLsbD_not, hbit]
    simp
  · simp [hi]

theorem State.unfault_fault (s : State) {slot mask : Nat} (h : bitOf mask 0 = true) :
    (s.unfault slot mask).get (F.SLOT_STATUS_FAULT slot) = 0 := by
  refine (State.get_put_ne (f := F.SLOT_STATUS_FAULT_KIND slot) (g := F.SLOT_STATUS_FAULT slot) _ 0
    (.inr (by simp [F.SLOT_STATUS_FAULT, F.SLOT_STATUS_FAULT_KIND]))).trans ?_
  exact (congrArg (getBits · 0 1) (State.rd_wr_same _ _ _)).trans (getBits_cleared _ h)

/-- The count of faulted slots is shown in registers of the loop engine alone. -/
theorem State.faultShow_only (s : State) : OnlyRegs s s.faultShow [R.LPE_USE, R.LPE_STATUS] :=
  OnlyRegs.putB _ (by decide) (OnlyRegs.put _ (by decide) (OnlyRegs.refl s _))

theorem State.faultShow_loops (s : State) : s.faultShow.loops = s.loops := by rw [s.faultShow_only.1]

/-- A cleared FAULT leaves SLOT_STATUS with its kind, the law restarts, and the clear is reported. -/
theorem State.clearFlags_restarts {s : State} {slot mask : Nat} (hmask : bitOf mask 0 = true)
    (h : s.on (F.SLOT_STATUS_FAULT slot) = true) (hroom : s.Room (slotIsland slot)) :
    (s.clearFlags slot mask).get (F.SLOT_STATUS_FAULT slot) = 0 ∧
      (s.clearFlags slot mask).get (F.SLOT_STATUS_FAULT_KIND slot) = 0 ∧
      ((s.clearFlags slot mask).slot slot).restart = true ∧
      Raises s (s.clearFlags slot mask) 0x5006 (slotIsland slot) [] := by
  have hshow := (s.unfault slot mask).faultShow_only
  have hrecd : (s.unfault slot mask).faultShow.recd = s.recd := hshow.recd
  have hroom' : (s.unfault slot mask).faultShow.Room (slotIsland slot) := by rwa [State.Room, hrecd]
  have hfield {f : Fld} (hf : f.off = R.SLOT_STATUS slot) :
      ((s.unfault slot mask).faultShow.raise 0x5006 (slotIsland slot) []).get f = (s.unfault slot mask).get f := by
    have hapart : ¬ f.off ∈ [R.LPE_USE, R.LPE_STATUS] := by
      rw [hf]
      simp only [R.SLOT_STATUS, R.LPE_USE, R.LPE_STATUS, List.mem_cons, List.not_mem_nil, or_false]
      omega
    exact (State.raise_room_get hroom' _ _ _).trans (hshow.get hapart)
  rw [State.clearFlags_fault hmask h]
  refine ⟨(hfield rfl).trans (s.unfault_fault hmask), (hfield rfl).trans (s.unfault_kind slot mask), ?restart,
    Raises.raise hroom hrecd _ _⟩
  case restart => rw [State.raise_slot, State.slot_of_loops (s.unfault slot mask).faultShow_loops, State.unfault_restart]

/-- Settles O20: a clear waits where it is written and where it is handed to (`queueClear_waits`), and a clear of FAULT that takes
effect restarts the law (`clearFlags_restarts`). -/
theorem flagClears : Obligations.FlagClears := by
  unfold Obligations.FlagClears
  refine ⟨?active, ?notActive, ?standby, ?fault⟩
  case active =>
    intro slot v t s hactive hmask hhead
    obtain ⟨hclr, hpending, hregs⟩ :=
      (s.at t).queueClear_waits slot.val (Nat.land v.toNat clearMask) (boundaryAfter (max s.now t) 4)
    exact ⟨_, (exec_slotFlagClear slot v t s).trans
      (congrArg Host.Outcome.next (State.flagWrite_active (s := s.at t) hactive hmask hhead)), hclr, hpending, rfl, hregs⟩
  case notActive =>
    exact fun slot v t s h => (exec_slotFlagClear slot v t s).trans
      (congrArg Host.Outcome.next (State.flagWrite_notActive (s := s.at t) h))
  case standby =>
    intro slot m n s hstandby
    obtain ⟨hclr, hpending, hregs⟩ := s.queueClear_waits slot.val (Nat.land m.val clearMask) n
    refine ⟨_, flagClearRx_standby hstandby, ?_⟩
    rw [State.ipendAll_cores]
    exact ⟨hclr, hpending, rfl, hregs⟩
  case fault => exact fun slot s h hroom => State.clearFlags_restarts (by decide) h hroom

end Sys2Proof.Machine
end

section
/-! The trace of a cluster (07 R343, R346, R347, R349, R350): arming, triggers, aborting, filling and the offload. -/
namespace Sys2Proof.Machine

theorem exec_traceArm (c : Fin 32) (s : State) : exec (.traceArm c) s = .next (s.trcArm c.val).1 := by rfl

theorem exec_traceSwTrig (c : Fin 32) (s : State) :
    exec (.traceSwTrig c) s = .next (s.trcTrigger c.val (s.count % 2 ^ 32)) := by rfl

theorem exec_traceAbort (c : Fin 32) (s : State) : exec (.traceAbort c) s = .next (s.trcAbort c.val) := by rfl

theorem exec_tracePreFilled (c : Fin 32) (s : State) : exec (.tracePreFilled c) s = execTracePreFilled c s := by rfl

theorem exec_tracePostFilled (c : Fin 32) (s : State) : exec (.tracePostFilled c) s = execTracePostFilled c s := by rfl

theorem exec_traceOffloadComplete (c : Fin 32) (s : State) :
    exec (.traceOffloadComplete c) s = .next (if s.trc c.val = 4 then s.offload c.val else s) := by rfl

/-! ## The state of a trace (07 R346) -/

theorem State.setTrc_only (s : State) (c n : Nat) : OnlyRegs s (s.setTrc c n) [R.TRC_CTL c, R.TRC_STATUS] :=
  OnlyRegs.setBit _ _ (by simp) (OnlyRegs.put _ (List.mem_cons_self ..) (OnlyRegs.refl _ _))

theorem State.setTrc_trc (s : State) (c : Nat) {n : Nat} (hn : n < 8) : (s.setTrc c n).trc c = n := by
  have hapart : R.TRC_STATUS ≠ (F.TRC_CTL_STATE c).off := by
    simp only [R.TRC_STATUS, F.TRC_CTL_STATE]
    omega
  have hput : (s.put (F.TRC_CTL_STATE c) n).get (F.TRC_CTL_STATE c) = n % 8 :=
    State.get_put_same s n (by simp [F.TRC_CTL_STATE])
  rw [State.trc, State.get, State.setTrc, State.setBit, State.rd_wr_ne _ _ hapart, ← State.get, hput, Nat.mod_eq_of_lt hn]

theorem State.setTrc_busy (s : State) {c : Nat} (n : Nat) (hc : c < 32) :
    ((s.setTrc c n).rd R.TRC_STATUS).getLsbD c = decide (n ≠ 0) := State.setBit_getLsbD _ _ _ hc

@[simp] theorem State.setTrace_trace (s : State) (c : Nat) (k : Trace) : (s.setTrace c k).trace c = k := tget_tset_same _ _ _ _

/-- The records are discarded and the trace passes to a state. -/
def State.emptyTrc (s : State) (c n : Nat) : State := (s.setTrace c {}).setTrc c n

theorem State.emptyTrc_shows (s : State) {c n : Nat} (hc : c < 32) (hn : n < 8) :
    (s.emptyTrc c n).trc c = n ∧ (s.emptyTrc c n).trace c = {} ∧
      ((s.emptyTrc c n).rd R.TRC_STATUS).getLsbD c = decide (n ≠ 0) ∧
      SameRegs s (s.emptyTrc c n) [R.TRC_CTL c, R.TRC_STATUS] :=
  ⟨State.setTrc_trc _ c hn, State.setTrace_trace s c {}, State.setTrc_busy _ n hc,
    (State.setTrc_only (s.setTrace c {}) c n).2⟩

/-! ## ARM and ABORT -/

theorem State.trcArm_busy {s : State} {c : Nat} (h : s.trc c ≠ 0) : s.trcArm c = (s, false) := if_pos h

theorem State.trcArm_starts {s : State} {c : Nat} (hidle : s.trc c = 0) (hcapture : s.image.captures c = false)
    (hchans : ((List.range 8).any fun n => s.chanBad c n) = false) (hfit : s.trcPre c + s.trcPost c ≤ 4096)
    (hpost : s.trcPost c ≠ 0) : s.trcArm c = (s.emptyTrc c (if s.trcPre c = 0 then 2 else 1), false) := by
  rw [State.trcArm, if_neg (not_not_intro hidle), hcapture, if_neg Bool.false_ne_true, hchans,
    decide_eq_false (Nat.not_lt.2 hfit), decide_eq_false hpost, if_neg (by decide)]
  rfl

theorem State.trcAbort_discards {s : State} {c : Nat} (hlow : 1 ≤ s.trc c) (hhigh : s.trc c ≤ 3) :
    s.trcAbort c = s.emptyTrc c 0 := if_pos (by omega)

/-! ## Triggers -/

theorem State.trcTrigger_missed {s : State} {c : Nat} (n : Nat) (h : s.trc c = 1 ∨ s.trc c = 4) :
    s.trcTrigger c n = s.bump (F.TRC_CTL_MISSED c) 1 := by
  obtain h | h := h
  · rw [State.trcTrigger, h]
    rfl
  · rw [State.trcTrigger, h]
    rfl

/-- The trace in POST with the count of its trigger. -/
def State.triggered (s : State) (c n : Nat) : State :=
  ((s.wrN (R.TRC_TIME c) n).setTrace c { s.trace c with post := [] }).setTrc c 3

theorem State.trcTrigger_ready {s : State} {c : Nat} (n : Nat) (h : s.trc c = 2) :
    s.trcTrigger c n = (s.triggered c n).raise 0x5020 (islCluster c) (le 1 c ++ le 4 n) := by
  rw [State.trcTrigger, h]
  rfl

theorem State.triggered_recd (s : State) (c n : Nat) : (s.triggered c n).recd = s.recd := rfl

theorem State.triggered_time (s : State) (c n : Nat) : (s.triggered c n).rdN (R.TRC_TIME c) = n % 2 ^ 32 := by
  have hapart : ¬ R.TRC_TIME c ∈ [R.TRC_CTL c, R.TRC_STATUS] := by
    simp only [R.TRC_TIME, R.TRC_CTL, R.TRC_STATUS, List.mem_cons, List.not_mem_nil, or_false]
    omega
  rw [State.rdN, State.triggered, (State.setTrc_only _ c 3).2 _ hapart]
  exact (congrArg BitVec.toNat (State.rd_wr_same s _ _)).trans (BitVec.toNat_ofNat ..)

theorem State.triggered_sameRegs (s : State) (c n : Nat) :
    SameRegs s (s.triggered c n) [R.TRC_CTL c, R.TRC_STATUS, R.TRC_TIME c] := by
  have htime : SameRegs s ((s.wrN (R.TRC_TIME c) n).setTrace c { s.trace c with post := [] })
      [R.TRC_CTL c, R.TRC_STATUS, R.TRC_TIME c] := SameRegs.wr _ (by simp) (SameRegs.refl s _)
  exact htime.trans ((State.setTrc_only _ c 3).2.mono (by simp))

theorem traceSwTrig_ready {c : Fin 32} {s : State} (h : s.trc c.val = 2) (hroom : s.Room (islCluster c.val)) :
    Steps (exec (.traceSwTrig c) s) fun u => u.trc c.val = 3 ∧ u.rdN (R.TRC_TIME c.val) = s.count % 2 ^ 32 ∧
      Raises s u 0x5020 (islCluster c.val) (le 1 c.val ++ le 4 (s.count % 2 ^ 32)) ∧
      SameRegs s u [R.TRC_CTL c.val, R.TRC_STATUS, R.TRC_TIME c.val] := by
  have hroom' : (s.triggered c.val (s.count % 2 ^ 32)).Room (islCluster c.val) := hroom
  refine ⟨_, (exec_traceSwTrig c s).trans (congrArg Host.Outcome.next (State.trcTrigger_ready _ h)), ?post, ?time,
    Raises.raise hroom (State.triggered_recd s _ _) _ _,
    SameRegs.of_regs (State.raise_room_regs hroom' _ _) (State.triggered_sameRegs s _ _)⟩
  case post => exact (State.raise_room_get hroom' _ _ _).trans (State.setTrc_trc _ c.val (by decide))
  case time =>
    rw [State.rdN, State.raise_room_rd hroom', ← State.rdN, State.triggered_time, Nat.mod_mod]

/-! ## Filled records -/

theorem tracePreFilled_ready {c : Fin 32} {s : State} (h : s.trc c.val = 1)
    (hfilled : ((s.trcChans c.val).all fun n => decide (s.trcPre c.val ≤ nth (s.trace c.val).since n)) = true) :
    exec (.tracePreFilled c) s = .next (s.setTrc c.val 2) :=
  (exec_tracePreFilled c s).trans (congrArg Host.Outcome.next (if_pos ⟨h, hfilled⟩))

theorem tracePostFilled_offload {c : Fin 32} {s : State} (h : s.trc c.val = 3)
    (hfilled : ((s.trcChans c.val).all fun n => decide (s.trcPost c.val ≤ nth (s.trace c.val).post n)) = true) :
    exec (.tracePostFilled c) s = .next (s.setTrc c.val 4) :=
  (exec_tracePostFilled c s).trans (congrArg Host.Outcome.next (if_pos ⟨h, hfilled⟩))

/-! ## What an offload writes (07 R349) -/

/-- Nothing differs but bytes of memory from `lo` up to `hi`. -/
def WritesIn (s t : State) (lo hi : Nat) : Prop :=
  t = { s with mem := t.mem } ∧ ∀ a, (a < lo ∨ hi ≤ a) → t.memB a = s.memB a

theorem WritesIn.refl (s : State) (lo hi : Nat) : WritesIn s s lo hi := ⟨rfl, fun _ _ => rfl⟩

theorem WritesIn.memW {s t : State} {lo hi a : Nat} {l : List Byte} (h : WritesIn s t lo hi) (hlo : lo ≤ a)
    (hhi : a + l.length ≤ hi) : WritesIn s (t.memW a l) lo hi := by
  refine ⟨congrArg (fun u : State => { u with mem := (t.memW a l).mem }) h.1, fun b hb => ?_⟩
  rw [State.memB_memW_out _ _ _ (by omega)]
  exact h.2 b hb

theorem WritesIn.each {α : Type} {s t : State} {lo hi : Nat} {l : List α} {f : State → α → State}
    (hf : ∀ x ∈ l, ∀ u, WritesIn s u lo hi → WritesIn s (f u x) lo hi) (h : WritesIn s t lo hi) :
    WritesIn s (t.each l f) lo hi := by
  unfold State.each
  induction l generalizing t with
  | nil => exact h
  | cons x l ih => exact ih (fun y hy => hf y (List.mem_cons_of_mem _ hy)) (hf x (List.mem_cons_self ..) t h)

theorem State.dropsWrite_calm {s : State} (h : s.rdN R.FAB_HBM_STRESS = 0) (a : Nat) : s.dropsWrite a = false := by
  rw [State.dropsWrite, h, bitOf, Nat.zero_testBit, Bool.and_false]

theorem State.offloadRec_calm {s : State} (h : s.rdN R.FAB_HBM_STRESS = 0) (c a : Nat) (r : Nat × Nat) :
    s.offloadRec c a r = s.memW a (le 4 r.1 ++ le 4 r.2) := by
  rw [State.offloadRec, State.dropsWrite_calm h, if_neg Bool.false_ne_true]

/-- Each channel has 32 KB of the 256 KB of a capture, which hold 4096 records of 8 bytes. -/
theorem State.offloadChan_writes {s t : State} {c k ch : Nat} (hcalm : s.rdN R.FAB_HBM_STRESS = 0)
    (hfit : s.trcPre c + s.trcPost c ≤ 4096) (hch : ch < 8)
    (h : WritesIn s t (captureBase c k) (captureBase c k + 262144)) :
    WritesIn s (t.offloadChan c k ch) (captureBase c k) (captureBase c k + 262144) := by
  have hcount : t.trcPre c + t.trcPost c ≤ 4096 := by rw [h.1]; exact hfit
  refine WritesIn.each (fun e he u hu => ?_) h
  have hindex : e.2 < 4096 := by
    have hlt := List.snd_lt_of_mem_zipIdx he
    rw [List.length_drop] at hlt
    omega
  have hcalm' : u.rdN R.FAB_HBM_STRESS = 0 := by rw [hu.1]; exact hcalm
  have hlen : (le 4 e.1.1 ++ le 4 e.1.2).length = 8 := rfl
  rw [State.offloadRec_calm hcalm']
  exact hu.memW (by omega) (by omega)

/-- The records of the enabled channels on their way to HBM. -/
def State.offloadChans (s : State) (c : Nat) : State :=
  s.each (s.trcChans c) fun t n => t.offloadChan c (s.get (F.TRC_DONE_CAPTURES c)) n

theorem State.offloadChans_writes {s : State} {c : Nat} (hcalm : s.rdN R.FAB_HBM_STRESS = 0)
    (hfit : s.trcPre c + s.trcPost c ≤ 4096) :
    WritesIn s (s.offloadChans c) (captureBase c (s.get (F.TRC_DONE_CAPTURES c)))
      (captureBase c (s.get (F.TRC_DONE_CAPTURES c)) + 262144) :=
  WritesIn.each (fun _ hn _ hu => State.offloadChan_writes hcalm hfit (List.mem_range.1 (List.mem_filter.1 hn).1) hu)
    (WritesIn.refl _ _ _)

/-! ## An offload without a loss (07 R346, R349) -/

/-- A capture of a cluster stands in HBM, with what belongs to it. -/
def State.holdCapture (s : State) (c k : Nat) (i : CaptureInfo) : State :=
  s.lp fun l => { l with taken := tmod 0 l.taken c (· + 1), held := tset {} l.held (16 * c + k % 16) i }

theorem State.holdCapture_regs (s : State) (c k : Nat) (i : CaptureInfo) : (s.holdCapture c k i).regs = s.regs := rfl

/-- A capture without a loss is counted. -/
def State.countCapture (s : State) (c : Nat) : State :=
  ((s.step1 (F.TRC_DONE_CAPTURES c)).putB (F.TRC_DONE_LOSSY c) false).bump (F.TRC_LOSS_LOST c) 0

theorem State.countCapture_only (s : State) (c : Nat) : OnlyRegs s (s.countCapture c) [R.TRC_DONE c, R.TRC_LOSS c] :=
  OnlyRegs.bump 0 (List.mem_cons_of_mem _ (List.mem_cons_self ..))
    (OnlyRegs.putB false (List.mem_cons_self ..) (OnlyRegs.put _ (List.mem_cons_self ..) (OnlyRegs.refl s _)))

theorem State.countCapture_shows (s : State) (c : Nat) :
    (s.countCapture c).get (F.TRC_DONE_CAPTURES c) = (s.get (F.TRC_DONE_CAPTURES c) + 1) % 2 ^ 16 ∧
      (s.countCapture c).get (F.TRC_DONE_LOSSY c) = 0 := by
  have hloss {f : Fld} (hf : f.off = R.TRC_DONE c) : (s.countCapture c).get f =
      ((s.step1 (F.TRC_DONE_CAPTURES c)).putB (F.TRC_DONE_LOSSY c) false).get f := by
    refine State.get_put_ne _ _ (.inl ?_)
    rw [hf]
    simp only [F.TRC_LOSS_LOST, R.TRC_DONE]
    omega
  have hlossy : ((s.step1 (F.TRC_DONE_CAPTURES c)).putB (F.TRC_DONE_LOSSY c) false).get (F.TRC_DONE_CAPTURES c) =
      (s.step1 (F.TRC_DONE_CAPTURES c)).get (F.TRC_DONE_CAPTURES c) :=
    State.get_put_ne _ _ (.inr (by simp [F.TRC_DONE_CAPTURES, F.TRC_DONE_LOSSY]))
  refine ⟨?captures, (hloss rfl).trans (State.get_put_same _ _ (by simp [F.TRC_DONE_LOSSY]))⟩
  case captures => exact ((hloss rfl).trans hlossy).trans (State.get_put_same s _ (by simp [F.TRC_DONE_CAPTURES]))

/-- The records of a cluster stand in HBM, and their capture is counted. -/
def State.captured (s : State) (c : Nat) : State :=
  ((s.offloadChans c).holdCapture c (s.get (F.TRC_DONE_CAPTURES c)) (s.captureInfo c)).countCapture c

theorem State.captured_recd (s : State) (c : Nat) : (s.captured c).recd = (s.offloadChans c).recd := rfl

theorem State.captured_mode (s : State) (c : Nat) :
    (s.captured c).get (F.TRC_CTL_MODE c) = (s.offloadChans c).get (F.TRC_CTL_MODE c) := by
  refine (State.countCapture_only _ c).get ?_
  simp only [F.TRC_CTL_MODE, R.TRC_DONE, R.TRC_LOSS, List.mem_cons, List.not_mem_nil, or_false]
  omega

theorem State.captured_done {s : State} {c : Nat} (hregs : (s.offloadChans c).regs = s.regs) :
    (s.captured c).get (F.TRC_DONE_CAPTURES c) = (s.get (F.TRC_DONE_CAPTURES c) + 1) % 2 ^ 16 ∧
      (s.captured c).get (F.TRC_DONE_LOSSY c) = 0 := by
  obtain ⟨hcaptures, hlossy⟩ :=
    ((s.offloadChans c).holdCapture c (s.get (F.TRC_DONE_CAPTURES c)) (s.captureInfo c)).countCapture_shows c
  rw [State.get_of_regs ((State.holdCapture_regs ..).trans hregs)] at hcaptures
  exact ⟨hcaptures, hlossy⟩

/-- The trace after an offload without a loss in single mode. -/
def State.offloaded (s : State) (c : Nat) : State :=
  ((s.captured c).raise 0x5021 (islCluster c) (le 1 c ++ le 4 (s.get (F.TRC_DONE_CAPTURES c)))).emptyTrc c 0

theorem State.offload_whole {s : State} {c : Nat} (hlost : ((s.offloadChans c).trace c).lost = 0)
    (hmode : (s.offloadChans c).on (F.TRC_CTL_MODE c) = false) (hroom : (s.captured c).Room (islCluster c)) :
    s.offload c = s.offloaded c := by
  have hsingle : ((s.captured c).raise 0x5021 (islCluster c)
      (le 1 c ++ le 4 (s.get (F.TRC_DONE_CAPTURES c)))).on (F.TRC_CTL_MODE c) = false := by
    rw [State.on, State.raise_room_get hroom, State.captured_mode]
    exact hmode
  unfold State.offload
  extract_lets k s1 lost s2 s3
  have hzero : lost = 0 := hlost
  have hs2 : s2 = s.captured c := by
    simp only [s2, hzero]
    rfl
  have hs3 : s3 = (s.captured c).raise 0x5021 (islCluster c) (le 1 c ++ le 4 k) := (if_pos hzero).trans (by rw [hs2])
  rw [hs3, hsingle, if_neg Bool.false_ne_true]
  rfl

theorem State.offloaded_done {s : State} {c : Nat} (hroom : (s.captured c).Room (islCluster c)) {f : Fld}
    (hf : f.off = R.TRC_DONE c) : (s.offloaded c).get f = (s.captured c).get f := by
  have hapart : ¬ f.off ∈ [R.TRC_CTL c, R.TRC_STATUS] := by
    rw [hf]
    simp only [R.TRC_DONE, R.TRC_CTL, R.TRC_STATUS, List.mem_cons, List.not_mem_nil, or_false]
    omega
  exact ((State.setTrc_only _ c 0).get hapart).trans (State.raise_room_get hroom _ _ f)

theorem State.offloaded_mem {s : State} {c : Nat} (hroom : (s.captured c).Room (islCluster c)) :
    (s.offloaded c).mem = (s.offloadChans c).mem := by
  rw [State.offloaded, State.raise_room _ hroom]
  rfl

theorem traceOffloadComplete_whole {c : Fin 32} {s : State} (hoffload : s.trc c.val = 4)
    (hmode : s.on (F.TRC_CTL_MODE c.val) = false) (hlost : (s.trace c.val).lost = 0) (hcalm : s.rdN R.FAB_HBM_STRESS = 0)
    (hfit : s.trcPre c.val + s.trcPost c.val ≤ 4096) (hroom : s.Room (islCluster c.val)) :
    Steps (exec (.traceOffloadComplete c) s) fun u => u.trc c.val = 0 ∧
      u.get (F.TRC_DONE_CAPTURES c.val) = (s.get (F.TRC_DONE_CAPTURES c.val) + 1) % 2 ^ 16 ∧
      u.get (F.TRC_DONE_LOSSY c.val) = 0 ∧
      Raises s u 0x5021 (islCluster c.val) (le 1 c.val ++ le 4 (s.get (F.TRC_DONE_CAPTURES c.val))) ∧
      ∀ a, (a < captureBase c.val (s.get (F.TRC_DONE_CAPTURES c.val)) ∨
        captureBase c.val (s.get (F.TRC_DONE_CAPTURES c.val)) + 262144 ≤ a) → u.memB a = s.memB a := by
  obtain ⟨hsame, hbytes⟩ := State.offloadChans_writes hcalm hfit
  have hrecd : (s.captured c.val).recd = s.recd := by rw [State.captured_recd, hsame]
  have hroom' : (s.captured c.val).Room (islCluster c.val) := by rwa [State.Room, hrecd]
  have hwhole : s.offload c.val = s.offloaded c.val :=
    State.offload_whole (by rw [hsame]; exact hlost) (by rw [hsame]; exact hmode) hroom'
  obtain ⟨hcaptures, hlossy⟩ := State.captured_done (s := s) (c := c.val) (by rw [hsame])
  refine ⟨s.offloaded c.val, ?_, State.setTrc_trc _ _ (by decide), (State.offloaded_done hroom' rfl).trans hcaptures,
    (State.offloaded_done hroom' rfl).trans hlossy, Raises.raise (t := s.captured c.val) hroom hrecd _ _, fun a ha => ?_⟩
  · rw [exec_traceOffloadComplete, if_pos hoffload, hwhole]
  · rw [State.memB, State.offloaded_mem hroom']
    exact hbytes a ha

/-- Settles O21: what empties a trace (`emptyTrc_shows`) is said once for ARM, ABORT and the end of an offload, and an offload
without a loss changes memory alone, inside its capture buffer, before its capture is counted (`offloadChans_writes`). -/
theorem traces : Obligations.Traces := by
  unfold Obligations.Traces
  refine ⟨?arm, ?armBusy, ?ready, ?missed, ?abort, ?preFilled, ?postFilled, ?offload⟩
  case arm =>
    intro c s hidle hcapture hchans hfit hpost
    have hstate : (if s.trcPre c.val = 0 then 2 else 1) < 8 ∧ (if s.trcPre c.val = 0 then 2 else 1) ≠ 0 := by
      split <;> decide
    obtain ⟨hstarted, hempty, hbusy, hregs⟩ := s.emptyTrc_shows c.isLt hstate.1
    refine ⟨_, (exec_traceArm c s).trans (congrArg (Host.Outcome.next ·.1)
      (State.trcArm_starts hidle hcapture hchans hfit hpost)), hstarted, hempty, ?_, hregs⟩
    rw [hbusy, decide_eq_true hstate.2]
  case armBusy =>
    exact fun c s h => (exec_traceArm c s).trans (congrArg (Host.Outcome.next ·.1) (State.trcArm_busy h))
  case ready => exact fun _ _ => traceSwTrig_ready
  case missed =>
    exact fun c s h => ⟨_, (exec_traceSwTrig c s).trans (congrArg Host.Outcome.next (State.trcTrigger_missed _ h)),
      State.get_bump_same s 1 (by simp [F.TRC_CTL_MISSED]), OnlyRegs.bump 1 (List.mem_cons_self ..) (OnlyRegs.refl s _)⟩
  case abort =>
    exact fun c s hlow hhigh => ⟨_, (exec_traceAbort c s).trans
      (congrArg Host.Outcome.next (State.trcAbort_discards hlow hhigh)), s.emptyTrc_shows c.isLt (by decide)⟩
  case preFilled =>
    exact fun c s h hfilled =>
      ⟨_, tracePreFilled_ready h hfilled, State.setTrc_trc s c.val (by decide), State.setTrc_only s c.val 2⟩
  case postFilled =>
    exact fun c s h hfilled =>
      ⟨_, tracePostFilled_offload h hfilled, State.setTrc_trc s c.val (by decide), State.setTrc_only s c.val 4⟩
  case offload => exact fun _ _ => traceOffloadComplete_whole

end Sys2Proof.Machine
end

section
/-! Where the statement on the reception of ring frames does not hold (08 R357, R376). -/
namespace Sys2Proof.Machine

theorem exec_ringFrameRx (ring : Fin 16) (b : List Byte) (t : Nat) (s : State) :
    exec (.ringFrameRx ring b t) s = execRingFrameRx ring b t s := by rfl

/-- A frame whose FCS is good but whose length is not one of a ring frame is discarded: the port counts no FCS error. -/
theorem ringFrameRx_badLength {ring : Fin 16} {b : List Byte} (t : Nat) {rr : RingRec} {s : State} (himg : s.img ≠ none)
    (hring : s.image.ring? ring.val = some rr) (hgood : fcsGood b = true) (hlength : fcsOk b = false) :
    exec (.ringFrameRx ring b t) s = .next (s.at t) := by
  have hcommitted : ¬ (s.at t).img.isNone = true := by simpa [Option.isNone_iff_eq_none] using himg
  have hring' : (s.at t).image.ring? ring.val = some rr := hring
  have hcounted : ¬ (!fcsGood b) = true := by simp [hgood]
  have hdiscarded : (!fcsOk b) = true ∨ (!rr.takes b) = true := .inl (by simp [hlength])
  rw [exec_ringFrameRx, execRingFrameRx]
  dsimp only
  rw [hring']
  dsimp only
  rw [if_neg hcommitted, if_neg hcounted, if_pos hdiscarded]

/-- A module that runs an image with one ring. -/
def oneRing : State := { State.reset with img := some { rings := [{ ring := 0 }] } }

/-- A frame of nothing but a good FCS. -/
theorem fcsGood_runt : fcsGood (withFcs []) = true ∧ fcsOk (withFcs []) = false := by decide +kernel

/-- Refutes O22: its first clause has the port count an FCS error for every frame that `fcsOk` refuses, but `fcsOk` also refuses a
frame for its length, and one of a wrong length whose FCS is good is discarded without a count (08 R357, R376). The counterexample
is a frame of four bytes, the FCS of an empty frame, at a port that has counted no error. -/
theorem not_ringReception : ¬ Obligations.RingReception := by
  unfold Obligations.RingReception
  rintro ⟨hcounts, -⟩
  have himg : oneRing.img ≠ none := by decide
  have hring : oneRing.image.ring? (0 : Fin 16).val = some { ring := 0 } := by decide
  obtain ⟨hgood, hlength⟩ := fcsGood_runt
  obtain ⟨u, hexec, hcount⟩ := hcounts 0 (withFcs []) 0 { ring := 0 } oneRing himg hring hlength
  rw [ringFrameRx_badLength 0 himg hring hgood hlength] at hexec
  have hstated := (Host.Outcome.next.inj hexec).trans hcount
  have hport := congrArg (fun v : State => (v.ring 0).portFcs) hstated
  exact absurd hport (by decide)

end Sys2Proof.Machine
end

section
/-! Rules of the rings: the state of one ring, what shows its STATE, frames in the acyclic window, a census that starts over
(08 R397, R400, R403). -/
namespace Sys2Proof.Machine

/-! ## One ring -/

/-- The record that an image has of a ring is of that ring. -/
theorem Img.ring?_ring {i : Img} {r : Nat} {rr : RingRec} (h : i.ring? r = some rr) : rr.ring = r := by
  simpa using List.find?_some h

@[simp] theorem State.ring_ri_same (s : State) (r : Nat) (f : RingState → RingState) : (s.ri r f).ring r = f (s.ring r) := by
  rw [State.ring_ri, if_pos rfl]

@[simp] theorem State.ring_setRing_same (s : State) (r : Nat) (k : RingState) : (s.setRing r k).ring r = k :=
  tget_tset_same _ _ _ _

theorem State.ring_of_rings {s t : State} (h : t.rings = s.rings) (r : Nat) : t.ring r = s.ring r := by
  rw [State.ring, h, State.ring]

@[simp] theorem State.ri_regs (s : State) (r : Nat) (f : RingState → RingState) : (s.ri r f).regs = s.regs := rfl

@[simp] theorem State.ri_out (s : State) (r : Nat) (f : RingState → RingState) : (s.ri r f).out = s.out := rfl

@[simp] theorem State.put_ring (s : State) (f : Fld) (v r : Nat) : (s.put f v).ring r = s.ring r := rfl

@[simp] theorem State.send_ring (s : State) (o : Output) (r : Nat) : (s.send o).ring r = s.ring r := rfl

@[simp] theorem State.raise_ring (s : State) (code isl : Nat) (data : List Byte) (r : Nat) :
    (s.raise code isl data).ring r = s.ring r := State.ring_of_rings (s.raise_rings code isl data) r

/-! ## STATE of a ring (08 R400) -/

/-- A raise, recorded or lost, takes nothing from the queue of the recorder. -/
theorem State.raise_queue (s : State) (code isl : Nat) (data : List Byte) :
    ∃ l, (s.raise code isl data).recd.queue = s.recd.queue ++ l := by
  unfold State.raise State.raiseLost
  dsimp only
  split
  · exact ⟨_, rfl⟩
  · split
    · exact ⟨[], (List.append_nil _).symm⟩
    · exact ⟨_, rfl⟩

/-- What shows STATE reports SINGLE at most, and leaves rings, memory, signal image and what was sent. -/
theorem State.ringShow_keeps (s : State) (r : Nat) : (s.ringShow r).rings = s.rings ∧ (s.ringShow r).mem = s.mem ∧
    (s.ringShow r).sig = s.sig ∧ (s.ringShow r).out = s.out ∧
    ∃ l, (s.ringShow r).recd.queue = s.recd.queue ++ l := by
  unfold State.ringShow
  dsimp only
  split
  · exact ⟨State.raise_rings .., State.raise_mem .., State.raise_sig .., State.raise_out .., State.raise_queue ..⟩
  · exact ⟨rfl, rfl, rfl, rfl, [], (List.append_nil _).symm⟩

/-! ## The acyclic window (08 R397) -/

/-- Whether a frame fits in the window is read off the time, the C0 count, RNG_SCHED and the ring. -/
theorem State.acycFits_congr {s t : State} {rr : RingRec} (hnow : t.now = s.now)
    (hregs : SameRegs s t [R.RNG_STATUS rr.ring, R.RNG_CTL rr.ring])
    (hfree : (t.ring rr.ring).acycFree = (s.ring rr.ring).acycFree) (hpath : (t.ring rr.ring).path = (s.ring rr.ring).path) :
    t.acycFits rr = s.acycFits rr := by
  have hapart {o : Nat} (ho : o = R.CYC_COUNT ∨ o = R.CYC_COUNT + 4 ∨ o = R.RNG_SCHED rr.ring) :
      ¬ o ∈ [R.RNG_STATUS rr.ring, R.RNG_CTL rr.ring] := by
    simp only [R.CYC_COUNT, R.RNG_SCHED, R.RNG_STATUS, R.RNG_CTL, List.mem_cons, List.not_mem_nil, or_false] at ho ⊢
    omega
  have hcount : t.count = s.count := by
    rw [State.count, State.rd64, hregs _ (hapart (.inl rfl)), hregs _ (hapart (.inr (.inl rfl))), State.count, State.rd64]
  have hstart : t.get (F.RNG_SCHED_ACYC_START rr.ring) = s.get (F.RNG_SCHED_ACYC_START rr.ring) :=
    congrArg (getBits · 16 16) (hregs _ (hapart (.inr (.inr rfl))))
  have hat : t.acycAt rr.ring = s.acycAt rr.ring := by rw [State.acycAt, hnow, hfree, State.acycAt]
  rw [State.acycFits, hcount, hstart, hat, hpath, State.acycFits]

/-- A frame that fits goes out; while the ring is not LOOPED no copy is asked for (08 R834). -/
theorem State.acycSend_fits {s : State} {rr : RingRec} (f : AcycFrame) (hfits : s.acycFits rr = true)
    (hstate : s.get (F.RNG_STATUS_STATE rr.ring) ≠ 5) : s.acycSend rr f = s.acycOut rr f := by
  rw [State.acycSend, if_pos hfits]
  cases f with
  | census o => exact if_neg fun h => hstate h.2
  | release st => rfl

/-- No copy of a release request is asked for. -/
theorem State.acycSend_release {s : State} {rr : RingRec} (st : Nat) (hfits : s.acycFits rr = true) :
    s.acycSend rr (.release st) = s.acycOut rr (.release st) := if_pos hfits

theorem State.acycSend_waits {s : State} {rr : RingRec} (f : AcycFrame) (hfits : s.acycFits rr = false) :
    s.acycSend rr f = s.ri rr.ring fun k => { k with acycWait := k.acycWait ++ [f] } := by
  rw [State.acycSend, hfits, if_neg Bool.false_ne_true]

@[simp] theorem State.acycOut_regs (s : State) (rr : RingRec) (f : AcycFrame) : (s.acycOut rr f).regs = s.regs := rfl

@[simp] theorem State.acycOut_get (s : State) (rr : RingRec) (f : AcycFrame) (g : Fld) : (s.acycOut rr f).get g = s.get g := rfl

@[simp] theorem State.acycOut_out (s : State) (rr : RingRec) (f : AcycFrame) :
    (s.acycOut rr f).out = s.out ++ [.acycFrame rr.ring f (s.acycBytes rr f)] := rfl

/-- Of the ring, a frame that goes out changes what it occupies: the port, and the list of frames that are awaited. -/
theorem State.acycOut_ring (s : State) (rr : RingRec) (f : AcycFrame) :
    ∃ a l, (s.acycOut rr f).ring rr.ring = { s.ring rr.ring with acycFree := a, sent := l } := by
  rw [State.acycOut, State.send_ring, State.ring_ri_same]
  exact ⟨_, _, rfl⟩

/-! ## A census that starts over (08 R403) -/

/-- A ring without a census goes on as it is. -/
theorem State.censusRestart_none {s : State} {r : Nat} (hcount : (s.ring r).census ≠ .count)
    (hread : (s.ring r).census ≠ .read) : s.censusRestart r = s := if_neg fun h => h.elim hcount hread

/-- The census that was given up is counted and reported. -/
def State.censusAbandoned (s : State) (r : Nat) : State :=
  ((s.bump (F.RNG_CENSUS_ABANDONED r) 1).total (0x21E + 32 * r) 2 1).raise 0x6041 (islRing r) (le 4 ((s.ring r).restarts + 1))

theorem State.censusAbandoned_shows {s : State} {r : Nat} (hroom : s.Room (islRing r)) :
    (s.censusAbandoned r).get (F.RNG_CENSUS_ABANDONED r) =
        min (s.get (F.RNG_CENSUS_ABANDONED r) + 1) (2 ^ (F.RNG_CENSUS_ABANDONED r).len - 1) ∧
      Raises s (s.censusAbandoned r) 0x6041 (islRing r) (le 4 ((s.ring r).restarts + 1)) ∧
      SameRegs s (s.censusAbandoned r) [R.RNG_CENSUS r] := by
  have hroom' : ((s.bump (F.RNG_CENSUS_ABANDONED r) 1).total (0x21E + 32 * r) 2 1).Room (islRing r) := hroom
  refine ⟨?count, Raises.raise (t := (s.bump (F.RNG_CENSUS_ABANDONED r) 1).total (0x21E + 32 * r) 2 1) hroom rfl _ _, ?regs⟩
  case count =>
    rw [State.censusAbandoned, State.raise_room_get hroom']
    exact State.get_bump_same s 1 (by simp [F.RNG_CENSUS_ABANDONED])
  case regs =>
    exact SameRegs.of_regs (State.raise_room_regs hroom' _ _)
      (SameRegs.put _ (List.mem_singleton.2 rfl) (SameRegs.refl s _))

/-- Up to three times a census begins again. -/
theorem State.censusRestart_again {s : State} {r : Nat} (hruns : (s.ring r).census = .count ∨ (s.ring r).census = .read)
    (hfew : (s.ring r).restarts < 3) : ((s.censusRestart r).ring r).census = .count ∧ ((s.censusRestart r).ring r).again = true ∧
      s.censusRestart r = { s.censusAbandoned r with rings := (s.censusRestart r).rings } := by
  have hnot : ¬ (s.ring r).restarts + 1 ≥ 4 := by omega
  rw [State.censusRestart, if_pos hruns]
  dsimp only
  rw [if_neg hnot]
  exact ⟨by rw [State.ring_ri_same], by rw [State.ring_ri_same], rfl⟩

/-- The fourth time in a row ends it. -/
theorem State.censusRestart_ends {s : State} {r : Nat} (hruns : (s.ring r).census = .count ∨ (s.ring r).census = .read)
    (hmany : 3 ≤ (s.ring r).restarts) : ((s.censusRestart r).ring r).census = .idle ∧
      s.censusRestart r = { (s.censusAbandoned r).put (F.RNG_STATUS_CENSUS_BUSY r) 0 with
        rings := (s.censusRestart r).rings } := by
  have hfour : (s.ring r).restarts + 1 ≥ 4 := by omega
  rw [State.censusRestart, if_pos hruns]
  dsimp only
  rw [if_pos hfour]
  exact ⟨by rw [State.put_ring, State.ring_ri_same], rfl⟩

end Sys2Proof.Machine
end

section
/-! Commands of the rings: acyclic data, release requests, stream capture, ring ports (08 R380, R390, R397, R401, R413). -/
namespace Sys2Proof.Machine

theorem exec_acyclicReplyRx (ring : Fin 16) (b : List Byte) (pts : List (Fin 256 × Nat × Word)) (t : Nat) (s : State) :
    exec (.acyclicReplyRx ring b pts t) s = execAcyclicReplyRx ring b pts t s := by rfl

theorem exec_acyclicReplyFromPartner (ring : Fin 16) (n : Nat) (pts : List (Nat × Word)) (s : State) :
    exec (.acyclicReplyFromPartner ring n pts) s = .next (s.acyclicQueue ring.val n pts) := by rfl

theorem exec_rngRelease (ring : Fin 16) (st : Fin 256) (s : State) :
    exec (.rngRelease ring st) s = .next (s.ringRelease ring.val st.val) := by rfl

theorem exec_rngScapRun (ring : Fin 16) (ch : Fin 256) (c : Fin 32) (run : Bool) (s : State) :
    exec (.rngScapRun ring ch c run) s = .next (s.scapSet ring.val ch.val c.val run).1 := by rfl

theorem exec_ringPortLinkChange (ring : Fin 16) (up : Bool) (t : Nat) (s : State) :
    exec (.ringPortLinkChange ring up t) s = .next ((s.at t).ringLink ring.val up) := by rfl

theorem exec_partnerRingPortDown (ring : Fin 16) (up : Bool) (s : State) : exec (.partnerRingPortDown ring up) s =
    .next (((s.ri ring.val fun k => { k with partnerUp := up }).censusRestart ring.val).ringShow ring.val) := by rfl

/-! ## Acyclic data (08 R390) -/

/-- A reply waits for its image in its ring, and nothing else changes. -/
theorem State.acyclicQueue_waits (s : State) (r n : Nat) (pts : List (Nat × Word)) :
    ((s.acyclicQueue r n pts).ring r).acyclic = (s.ring r).acyclic ++ [(n, pts)] ∧
      s.acyclicQueue r n pts = { s with rings := (s.acyclicQueue r n pts).rings } :=
  ⟨by rw [State.acyclicQueue, State.ring_ri_same], rfl⟩

theorem acyclicReplyRx_filled {ring : Fin 16} {b : List Byte} {pts own : List (Fin 256 × Nat × Word)} (t : Nat) {rr : RingRec}
    {s : State} (hring : s.image.ring? ring.val = some rr) (hfilled : rr.filled 4 5 b ≠ [])
    (hown : own = pts.filter fun p => ((rr.filled 4 5 b).map fun g => g.1).contains p.1.val &&
      decide ((s.pinfo p.2.1).owner = .station ring.val p.1.val)) :
    exec (.acyclicReplyRx ring b pts t) s = .next (((s.at t).acyclicQueue ring.val (boundaryAfter (max s.now t) 2)
      (own.map fun p => p.2)).send (.acyclicReply ring.val (boundaryAfter (max s.now t) 2) (own.map fun p => p.2))) := by
  have hring' : (s.at t).image.ring? ring.val = some rr := hring
  have hsenders : ¬ (rr.filled 4 5 b).map (fun g => g.1) = [] := by simpa using hfilled
  rw [exec_acyclicReplyRx, execAcyclicReplyRx]
  dsimp only
  rw [hring']
  dsimp only
  rw [if_neg hsenders, hown]
  rfl

/-! ## Release requests (08 R380, R397) -/

/-- STATION shows the station of the request. -/
theorem State.release_station (s : State) (r : Nat) (st : Fin 256) :
    (s.put (F.RNG_CTL_STATION r) st.val).get (F.RNG_CTL_STATION r) = st.val :=
  (State.get_put_same s st.val (by simp [F.RNG_CTL_STATION])).trans (Nat.mod_eq_of_lt st.isLt)

theorem State.release_regs (s : State) (r v : Nat) : SameRegs s (s.put (F.RNG_CTL_STATION r) v) [R.RNG_CTL r] :=
  SameRegs.put v (List.mem_singleton.2 rfl) (SameRegs.refl s _)

/-- Showing the station changes nothing of the window. -/
theorem State.release_fits (s : State) (rr : RingRec) (v : Nat) :
    (s.put (F.RNG_CTL_STATION rr.ring) v).acycFits rr = s.acycFits rr :=
  State.acycFits_congr rfl ((s.release_regs rr.ring v).mono fun _ h => List.mem_cons_of_mem _ h) rfl rfl

theorem rngRelease_active {ring : Fin 16} (st : Fin 256) {rr : RingRec} {s : State} (hactive : s.isActive = true)
    (hring : s.image.ring? ring.val = some rr) : exec (.rngRelease ring st) s =
      .next ((s.put (F.RNG_CTL_STATION ring.val) st.val).acycSend rr (.release st.val)) := by
  rw [exec_rngRelease, State.ringRelease, if_pos hactive, hring]

theorem rngRelease_notActive (ring : Fin 16) (st : Fin 256) {s : State} (h : s.isActive = false) :
    exec (.rngRelease ring st) s = .next s := by
  rw [exec_rngRelease, State.ringRelease, h, if_neg Bool.false_ne_true]

/-! ## Stream capture (08 R413) -/

theorem State.scapSet_refused {s : State} {r chan cluster : Nat} (h : s.image.captures cluster = false) :
    s.scapSet r chan cluster true = (s.put (F.RNG_SCAP_CTL_CFG_ERR r) 1, true) := if_pos (by rw [h]; rfl)

/-- The fields of RNG_SCAP_CTL as they are written. -/
def State.scapFields (s : State) (r chan cluster : Nat) (run : Bool) : State :=
  ((s.put (F.RNG_SCAP_CTL_CHAN r) chan).put (F.RNG_SCAP_CTL_CLUSTER r) cluster).putB (F.RNG_SCAP_CTL_RUN r) run

/-- A write that is not refused changes RNG_SCAP_CTL, and where capture starts its place in the buffer. -/
theorem State.scapSet_taken {s : State} {r chan cluster : Nat} {run : Bool}
    (h : run = true → s.image.captures cluster = true) : (s.scapSet r chan cluster run).1 =
      if run && !s.on (F.RNG_SCAP_CTL_RUN r) then (s.scapFields r chan cluster run).ri r fun k => { k with scapPos := 0 }
      else s.scapFields r chan cluster run := by
  have hallowed : ¬ (run && !s.image.captures cluster) = true := by
    cases run with
    | false => simp
    | true => simp [h rfl]
  rw [State.scapSet, if_neg hallowed]
  rfl

/-- Registers and memory stand as the fields were written. -/
theorem State.scapSet_leaves {s : State} {r chan cluster : Nat} {run : Bool}
    (h : run = true → s.image.captures cluster = true) :
    (s.scapSet r chan cluster run).1.regs = (s.scapFields r chan cluster run).regs ∧
      (s.scapSet r chan cluster run).1.mem = s.mem := by
  rw [State.scapSet_taken h]
  split <;> exact ⟨rfl, rfl⟩

theorem State.scapFields_shows (s : State) (r : Nat) (ch : Fin 256) (c : Fin 32) (run : Bool) :
    (s.scapFields r ch.val c.val run).get (F.RNG_SCAP_CTL_CHAN r) = ch.val ∧
      (s.scapFields r ch.val c.val run).get (F.RNG_SCAP_CTL_CLUSTER r) = c.val ∧
      (s.scapFields r ch.val c.val run).on (F.RNG_SCAP_CTL_RUN r) = run ∧
      SameRegs s (s.scapFields r ch.val c.val run) [R.RNG_SCAP_CTL r] := by
  refine ⟨?chan, ?cluster, ?run, ?regs⟩
  case chan =>
    rw [State.scapFields, State.putB, State.get_put_ne _ _ (.inr (by simp [F.RNG_SCAP_CTL_CHAN, F.RNG_SCAP_CTL_RUN])),
      State.get_put_ne _ _ (.inr (by simp [F.RNG_SCAP_CTL_CHAN, F.RNG_SCAP_CTL_CLUSTER])),
      State.get_put_same _ _ (by simp [F.RNG_SCAP_CTL_CHAN])]
    exact Nat.mod_eq_of_lt ch.isLt
  case cluster =>
    rw [State.scapFields, State.putB, State.get_put_ne _ _ (.inr (by simp [F.RNG_SCAP_CTL_CLUSTER, F.RNG_SCAP_CTL_RUN])),
      State.get_put_same _ _ (by simp [F.RNG_SCAP_CTL_CLUSTER])]
    exact Nat.mod_eq_of_lt c.isLt
  case run =>
    rw [State.on, State.scapFields, State.putB, State.get_put_same _ _ (by simp [F.RNG_SCAP_CTL_RUN])]
    cases run <;> rfl
  case regs =>
    exact SameRegs.put _ (List.mem_singleton.2 rfl) (SameRegs.put _ (List.mem_singleton.2 rfl)
      (SameRegs.put _ (List.mem_singleton.2 rfl) (SameRegs.refl s _)))

/-! ## Ring ports (08 R401) -/

/-- A port that changed is reported and told to the partner. -/
def State.portChanged (s : State) (r : Nat) (up : Bool) : State :=
  ((s.ri r fun k => { k with ownUp := up }).raise (if up then 0x6003 else 0x6002) (islRing r) []).send (.ringPort r up)

theorem State.portChanged_raises {s : State} {r : Nat} (up : Bool) (hroom : s.Room (islRing r)) :
    Raises s (s.portChanged r up) (if up then 0x6003 else 0x6002) (islRing r) [] :=
  Raises.raise (t := s.ri r fun k => { k with ownUp := up }) hroom rfl _ _

/-- Where no census runs, a port that changes shows in STATE. -/
theorem State.ringLink_changes {s : State} {r : Nat} {up : Bool} (hchange : (s.ring r).ownUp ≠ up)
    (hcage : up = true → s.cageOn r = true) (hcount : (s.ring r).census ≠ .count) (hread : (s.ring r).census ≠ .read) :
    s.ringLink r up = (s.portChanged r up).ringShow r := by
  have hmay : ¬ ((s.ring r).ownUp = up ∨ up = true ∧ (!s.cageOn r) = true) := by
    rintro (h | ⟨hup, hoff⟩)
    · exact hchange h
    · simp [hcage hup] at hoff
  have hcensus : ((s.portChanged r up).ring r).census = (s.ring r).census := by
    rw [State.portChanged, State.send_ring, State.raise_ring, State.ring_ri_same]
  rw [State.ringLink, if_neg hmay]
  exact congrArg (State.ringShow · r) (State.censusRestart_none (hcensus ▸ hcount) (hcensus ▸ hread))

/-- What `portChanged` leaves stands behind what shows STATE. -/
theorem State.portChanged_shown {s : State} {r : Nat} (up : Bool) (hroom : s.Room (islRing r)) :
    (((s.portChanged r up).ringShow r).ring r).ownUp = up ∧
      ((s.portChanged r up).ringShow r).out = s.out ++ [.ringPort r up] ∧
      (∃ q l, ((s.portChanged r up).ringShow r).recd.queue = s.recd.queue ++ q :: l ∧
        q.code = (if up then 0x6003 else 0x6002) ∧ q.island = islRing r) ∧
      ((s.portChanged r up).ringShow r).mem = s.mem := by
  obtain ⟨hrings, hmem, -, hout, l, hqueue⟩ := (s.portChanged r up).ringShow_keeps r
  obtain ⟨q, hraised, hcode, hisland, -⟩ := State.portChanged_raises up hroom
  refine ⟨?port, hout.trans ?sent, ⟨q, l, ?queue, hcode, hisland⟩, hmem.trans (State.raise_mem ..)⟩
  case port =>
    rw [State.ring_of_rings hrings, State.portChanged, State.send_ring, State.raise_ring, State.ring_ri_same]
  case sent => exact congrArg (· ++ [Output.ringPort r up]) (State.raise_out ..)
  case queue =>
    rw [hqueue, hraised, List.append_assoc, List.singleton_append]

theorem State.ringLink_same {s : State} {r : Nat} {up : Bool} (h : (s.ring r).ownUp = up) : s.ringLink r up = s :=
  if_pos (.inl h)

/-- Settles O24: a release request leaves in the window or waits by `acycSend_fits` and `acycSend_waits`, and a ring port that
changes while no census runs is told and shown (`ringLink_changes`). -/
theorem ringCommands : Obligations.RingCommands := by
  unfold Obligations.RingCommands
  refine ⟨?reply, ?fromPartner, ?release, ?notActive, ?refused, ?capture, ?change, ?same, ?partnerPort, ?waits⟩
  case reply =>
    intro ring b pts own t rr s hring hfilled hown
    exact ⟨_, acyclicReplyRx_filled t hring hfilled hown, ((s.at t).acyclicQueue_waits _ _ _).1, rfl, rfl⟩
  case fromPartner =>
    exact fun ring n pts s => ⟨_, exec_acyclicReplyFromPartner ring n pts s, s.acyclicQueue_waits ring.val n pts⟩
  case release =>
    intro ring st rr s hactive hring hfits
    have hnum : rr.ring = ring.val := Img.ring?_ring hring
    rw [← hnum]
    refine ⟨_, ((rngRelease_active st hactive hring).trans (by rw [← hnum])).trans (congrArg Host.Outcome.next
      (State.acycSend_release st.val ((s.release_fits rr st.val).trans hfits))), s.release_station rr.ring st, ⟨_, rfl⟩,
      s.release_regs rr.ring st.val, rfl⟩
  case notActive => exact fun ring st s h => rngRelease_notActive ring st h
  case refused =>
    intro ring ch c s h
    refine ⟨_, (exec_rngScapRun ring ch c true s).trans (congrArg (Host.Outcome.next ·.1) (State.scapSet_refused h)),
      State.get_put_same s 1 (by simp [F.RNG_SCAP_CTL_CFG_ERR]), State.get_put_ne s 1 (.inr ?_),
      OnlyRegs.put 1 (List.mem_singleton.2 rfl) (OnlyRegs.refl s _)⟩
    simp [F.RNG_SCAP_CTL_CFG_ERR, F.RNG_SCAP_CTL_RUN]
  case capture =>
    intro ring ch c run s h
    obtain ⟨hchan, hcluster, hrun, hregs⟩ := s.scapFields_shows ring.val ch c run
    obtain ⟨htaken, hmem⟩ := State.scapSet_leaves (r := ring.val) (chan := ch.val) h
    have hruns := congrArg (fun n => decide (n = 1)) (State.get_of_regs htaken (F.RNG_SCAP_CTL_RUN ring.val))
    exact ⟨_, exec_rngScapRun ring ch c run s, (State.get_of_regs htaken _).trans hchan,
      (State.get_of_regs htaken _).trans hcluster, hruns.trans hrun, hmem, SameRegs.of_regs htaken hregs⟩
  case change =>
    intro ring up t s hchange hcage hcount hread hroom
    exact ⟨_, (exec_ringPortLinkChange ring up t s).trans (congrArg Host.Outcome.next
      (State.ringLink_changes (s := s.at t) hchange hcage hcount hread)), State.portChanged_shown (s := s.at t) up hroom⟩
  case same =>
    exact fun ring up t s h => (exec_ringPortLinkChange ring up t s).trans
      (congrArg Host.Outcome.next (State.ringLink_same (s := s.at t) h))
  case partnerPort =>
    intro ring up s hcount hread
    have hring : (s.ri ring.val fun k => { k with partnerUp := up }).ring ring.val =
      { s.ring ring.val with partnerUp := up } := State.ring_ri_same _ _ _
    obtain ⟨hrings, hmem, hsig, hout, -⟩ := (s.ri ring.val fun k => { k with partnerUp := up }).ringShow_keeps ring.val
    refine ⟨_, (exec_partnerRingPortDown ring up s).trans (congrArg (fun u : State => Host.Outcome.next (u.ringShow ring.val))
      (State.censusRestart_none (by rw [hring]; exact hcount) (by rw [hring]; exact hread))), ?_, hout, hmem, hsig⟩
    rw [State.ring_of_rings hrings, hring]
  case waits =>
    intro ring st rr s hactive hring hfits
    have hnum : rr.ring = ring.val := Img.ring?_ring hring
    rw [← hnum]
    refine ⟨_, ((rngRelease_active st hactive hring).trans (by rw [← hnum])).trans (congrArg Host.Outcome.next
      (State.acycSend_waits _ ((s.release_fits rr st.val).trans hfits))), s.release_station rr.ring st, ?_, rfl,
      s.release_regs rr.ring st.val⟩
    rw [State.ring_ri_same, State.put_ring]

end Sys2Proof.Machine
end

section
/-! The station census (08 R392, R397, R402, R403, R407, R834; 17 R734). -/
namespace Sys2Proof.Machine

theorem exec_censusStart (ring : Fin 16) (t : Nat) (s : State) : exec (.censusStart ring t) s = execCensusStart ring t s := by
  rfl

theorem exec_censusFrameBack (ring : Fin 16) (kind : Fin 4) (pe : Bool) (b : List Byte) (es : List CensusEntry) (direct : Bool)
    (fp : Fin 16) (ends : CensusEnds) (f : Nat) (change : Bool) (t : Nat) (s : State) :
    exec (.censusFrameBack ring kind pe b es direct fp ends f change t) s =
      execCensusFrameBack ring kind pe b es direct fp ends f change t s := by rfl

theorem exec_censusFrameTimeout (ring : Fin 16) (t : Nat) (s : State) : exec (.censusFrameTimeout ring t) s =
    .next (if ((s.at t).ring ring.val).sent.any (fun n => decide (boundaryNs n + 30750 ≤ (s.at t).now)) then
      (s.at t).censusRestart ring.val else s.at t) := by rfl

theorem exec_censusLaunchRequest (ring : Fin 16) (o : CensusOrder) (s : State) :
    exec (.censusLaunchRequest ring o) s = execCensusLaunchRequest ring o s := by rfl

theorem exec_censusResultsFromActive (ring : Fin 16) (es : List CensusEntry) (sch : Sched) (n : Nat) (e : Bool) (fp : Fin 16)
    (f g : Nat) (s : State) : exec (.censusResultsFromActive ring es sch n e fp f g) s =
      execCensusResultsFromActive ring es sch n e fp f g s := by rfl

theorem exec_rngCensusNow (ring : Fin 16) (s : State) :
    exec (.rngCensusNow ring) s = .next (s.censusNow ring.val) := by rfl

theorem exec_censusNow (ses : Fin 16) (req : Nat) (ring : Fin 16) (s : State) : exec (.censusNow ses req ring) s =
    .next (s.request ses req 11 true true fun t => (t.censusNow ring.val).ok []) := by rfl

theorem exec_censusRead (ses : Fin 16) (req : Nat) (ring : Fin 16) (s : State) : exec (.censusRead ses req ring) s =
    .next (s.request ses req 11 false false fun t => t.ok (t.stnRecords ring.val)) := by rfl

/-! ## Launching (08 R397, R403, R834) -/

/-- A census turns to its next frame: the ring as it changes it, and CENSUS_BUSY. -/
def State.censusTurn (s : State) (r : Nat) (f : RingState → RingState) (busy : Nat) : State :=
  (s.ri r f).put (F.RNG_STATUS_CENSUS_BUSY r) busy

theorem State.censusTurn_busy (s : State) (r : Nat) (f : RingState → RingState) {busy : Nat} (h : busy < 2) :
    (s.censusTurn r f busy).get (F.RNG_STATUS_CENSUS_BUSY r) = busy :=
  (State.get_put_same _ busy (by simp [F.RNG_STATUS_CENSUS_BUSY])).trans (Nat.mod_eq_of_lt h)

theorem State.censusTurn_regs (s : State) (r : Nat) (f : RingState → RingState) (busy : Nat) :
    SameRegs s (s.censusTurn r f busy) [R.RNG_STATUS r] :=
  SameRegs.put (t := s.ri r f) busy (List.mem_singleton.2 rfl) (SameRegs.refl s _)

theorem State.censusTurn_ring (s : State) (r : Nat) (f : RingState → RingState) (busy : Nat) :
    (s.censusTurn r f busy).ring r = f (s.ring r) := State.ring_ri_same s r f

theorem State.censusTurn_state (s : State) (r : Nat) (f : RingState → RingState) (busy : Nat) :
    (s.censusTurn r f busy).get (F.RNG_STATUS_STATE r) = s.get (F.RNG_STATUS_STATE r) :=
  State.get_put_ne (f := F.RNG_STATUS_CENSUS_BUSY r) (s.ri r f) busy
    (.inr (by simp [F.RNG_STATUS_CENSUS_BUSY, F.RNG_STATUS_STATE]))

/-- A census that leaves the port and the path of the ring leaves its window. -/
theorem State.censusTurn_fits (s : State) (rr : RingRec) {f : RingState → RingState} (busy : Nat)
    (hfree : (f (s.ring rr.ring)).acycFree = (s.ring rr.ring).acycFree)
    (hpath : (f (s.ring rr.ring)).path = (s.ring rr.ring).path) :
    (s.censusTurn rr.ring f busy).acycFits rr = s.acycFits rr := by
  refine State.acycFits_congr rfl ((s.censusTurn_regs rr.ring f busy).mono fun _ h => ?_) ?_ ?_
  · exact List.mem_cons.2 (.inl (List.mem_singleton.1 h))
  · rw [State.censusTurn_ring, hfree]
  · rw [State.censusTurn_ring, hpath]

/-- A census frame that fits goes out while the ring is not LOOPED. -/
theorem State.censusTurn_launches {s : State} {rr : RingRec} {f : RingState → RingState} (busy : Nat) (o : CensusOrder)
    (hfits : s.acycFits rr = true) (hstate : s.get (F.RNG_STATUS_STATE rr.ring) ≠ 5)
    (hfree : (f (s.ring rr.ring)).acycFree = (s.ring rr.ring).acycFree)
    (hpath : (f (s.ring rr.ring)).path = (s.ring rr.ring).path) :
    (s.censusTurn rr.ring f busy).censusLaunch rr o = (s.censusTurn rr.ring f busy).acycOut rr (.census o) :=
  State.acycSend_fits _ ((s.censusTurn_fits rr busy hfree hpath).trans hfits) (by rwa [State.censusTurn_state])

/-! ## The beginning of a census (08 R403) -/

/-- A census that begins counts with START and notes when it began. -/
theorem State.censusBegin_launches {s : State} {rr : RingRec} (hfits : s.acycFits rr = true)
    (hstate : s.get (F.RNG_STATUS_STATE rr.ring) ≠ 5) : ∃ f : RingState → RingState,
    s.censusBegin rr = (s.censusTurn rr.ring f 1).acycOut rr (.census { kind := 1 }) ∧
      (f (s.ring rr.ring)).census = .count ∧ (f (s.ring rr.ring)).everStarted = true ∧
      (f (s.ring rr.ring)).censusNow = false ∧ (f (s.ring rr.ring)).sinceStart = s.now := by
  refine ⟨?turn, ?launched, ?_, ?_, ?_, ?_⟩
  case launched =>
    refine Eq.trans ?begins (State.censusTurn_launches 1 { kind := 1 } hfits hstate ?free ?path)
    case begins => rw [State.censusBegin, State.censusTurn]
    case free => rfl
    case path => rfl
  all_goals rfl

/-- A census is due that has never started, was asked for, or started 100 ms ago. -/
theorem State.censusDue_idle {s : State} {r : Nat} (hidle : (s.ring r).census = .idle) (hagain : (s.ring r).again = false)
    (hdue : (s.ring r).everStarted = false ∨ (s.ring r).censusNow = true ∨ (s.ring r).sinceStart + 100000000 ≤ s.now) :
    s.censusDue r = true := by
  rw [State.censusDue]
  rw [hagain, if_neg Bool.false_ne_true, hidle]
  obtain h | h | h := hdue <;> simp [h]

theorem censusStart_due {ring : Fin 16} {t : Nat} {rr : RingRec} {s : State} (hactive : s.isActive = true) (himg : s.img ≠ none)
    (hring : s.image.ring? ring.val = some rr) (hup : (s.ring ring.val).ownUp = true)
    (hdue : (s.at t).censusDue ring.val = true) (hfits : (s.at t).acycFits rr = true) :
    exec (.censusStart ring t) s = .next ((s.at t).censusBegin rr) := by
  have hring' : (s.at t).image.ring? ring.val = some rr := hring
  rw [exec_censusStart, execCensusStart]
  rw [hring']
  exact congrArg Host.Outcome.next (if_pos ⟨hactive, Option.isSome_iff_ne_none.2 himg, hup, hdue, hfits⟩)

theorem censusStart_refused {ring : Fin 16} (t : Nat) {s : State}
    (h : s.isActive = false ∨ s.img = none ∨ (s.ring ring.val).ownUp = false) :
    exec (.censusStart ring t) s = .next (s.at t) := by
  rw [exec_censusStart, execCensusStart]
  split
  case h_1 rr _ =>
    refine congrArg Host.Outcome.next (if_neg ?_)
    rintro ⟨hactive, himg, hup, -⟩
    obtain h | h | h := h
    · exact Bool.false_ne_true (h.symm.trans hactive)
    · exact Option.isSome_iff_ne_none.1 himg h
    · exact Bool.false_ne_true (h.symm.trans hup)
  case h_2 => rfl

/-! ## Census frames that are back (08 R403) -/

/-- The FCS errors that the partner counted at its port stand beside the module's own (08 R407). -/
def State.partnerErrors (s : State) (r f : Nat) : State :=
  s.ri r fun q => if s.twinB then { q with fcsTwinA := f } else { q with fcsTwinB := f }

/-- A frame that is back is awaited no longer. -/
def State.frameReturned (s : State) (r : Nat) : State := s.ri r fun q => { q with sent := q.sent.tail }

/-- What the census itself holds stays. -/
theorem State.partnerErrors_ring (s : State) (r f : Nat) : ∃ a b, (s.partnerErrors r f).ring r =
    { s.ring r with fcsTwinA := a, fcsTwinB := b } := by
  rw [State.partnerErrors, State.ring_ri_same]
  split <;> exact ⟨_, _, rfl⟩

theorem State.frameReturned_ring (s : State) (r : Nat) :
    (s.frameReturned r).ring r = { s.ring r with sent := (s.ring r).sent.tail } := State.ring_ri_same _ _ _

theorem State.frameReturned_leaves (s : State) (r f : Nat) :
    ((s.partnerErrors r f).frameReturned r).regs = s.regs ∧ ((s.partnerErrors r f).frameReturned r).out = s.out := by
  simp only [State.frameReturned, State.partnerErrors, State.ri_regs, State.ri_out, and_self]

theorem censusFrameBack_taken {ring : Fin 16} {kind : Fin 4} {pe : Bool} {b : List Byte} {es : List CensusEntry} {direct : Bool}
    {fp : Fin 16} {ends : CensusEnds} {f t : Nat} {change : Bool} {rr : RingRec} {s : State}
    (hring : s.image.ring? ring.val = some rr) (hfcs : fcsOk b = true) (htakes : rr.takes b = true)
    (hread : kind.val = 2 → (rr.filled 3 6 b).length = es.length) :
    exec (.censusFrameBack ring kind pe b es direct fp ends f change t) s = .next (((s.at t).partnerErrors ring.val f).censusBack rr
      kind.val pe (es.map rr.placed) direct fp.val ends change) := by
  have hring' : (s.at t).image.ring? ring.val = some rr := hring
  have hgood : ¬ ((kind.val = 2 ∧ (rr.filled 3 6 b).length ≠ es.length) ∨ (!fcsOk b) = true ∨ (!rr.takes b) = true) := by
    rintro (⟨hkind, hlength⟩ | h | h)
    · exact hlength (hread hkind)
    · simp [hfcs] at h
    · simp [htakes] at h
  rw [exec_censusFrameBack, execCensusFrameBack]
  dsimp only
  rw [hring']
  dsimp only
  rw [if_neg hgood]
  rfl

/-- A START that is back while it is awaited. -/
theorem State.censusBack_start {s : State} {rr : RingRec} (pe : Bool) (es : List CensusEntry) (direct : Bool) (fp : Nat)
    (ends : CensusEnds) (hcount : (s.ring rr.ring).census = .count) (hagain : (s.ring rr.ring).again = false) :
    s.censusBack rr 1 pe es direct fp ends false = (s.frameReturned rr.ring).startBack rr pe es direct fp ends := by
  rw [State.censusBack]
  rw [if_pos ⟨rfl, hcount, by simp [hagain]⟩, if_neg Bool.false_ne_true]
  rfl

/-- A READ that is back with entries that COUNT found. -/
theorem State.censusBack_read {s : State} {rr : RingRec} (pe : Bool) {es : List CensusEntry} (direct : Bool) (fp : Nat)
    (ends : CensusEnds) (hread : (s.ring rr.ring).census = .read) (hfound : ∀ e ∈ es, e.who ∈ (s.ring rr.ring).startIds) :
    s.censusBack rr 2 pe es direct fp ends false = (s.frameReturned rr.ring).readBack rr es := by
  have hsame : ¬ (false || es.any fun e => !(s.ring rr.ring).startIds.contains e.who) = true := by
    simpa using hfound
  have hkind : ¬ (2 = 1 ∧ (s.ring rr.ring).census = .count ∧ (!(s.ring rr.ring).again) = true) :=
    fun h => absurd h.1 (by decide)
  rw [State.censusBack]
  rw [if_neg hkind, if_pos ⟨rfl, hread⟩, if_neg hsame]
  rfl

/-- The entries that a READ adds: those of positions that no entry has yet. -/
def RingState.newEntries (k : RingState) (es : List CensusEntry) : List CensusEntry :=
  es.filter fun e => !k.entries.any fun x => x.pos = e.pos

/-- While entries are missing the census goes on with what it has. -/
theorem State.readBack_more {s : State} {rr : RingRec} {es : List CensusEntry}
    (hmissing : (s.ring rr.ring).entries.length + ((s.ring rr.ring).newEntries es).length < (s.ring rr.ring).startIds.length) :
    s.readBack rr es = s.ri rr.ring fun q => { q with entries := q.entries ++ q.newEntries es } := by
  rw [State.readBack]
  refine if_neg ?_
  rw [State.ring_ri_same, List.length_append]
  exact Nat.not_le.2 hmissing

/-! ## The commit of a census (08 R392, R402, R403) -/

/-- The results of a census, as the active tells them to its partner. -/
def State.censusResult (s : State) (rr : RingRec) : Output :=
  .censusResult rr.ring (s.ring rr.ring).entries (s.censusSched rr) (boundaryAfter (s.now + 31250) 8)
    (rr.closedPath (s.ring rr.ring)) (s.ring rr.ring).farPort (s.ring rr.ring).portFcs
    (if s.twinB then (s.ring rr.ring).fcsTwinA else (s.ring rr.ring).fcsTwinB)

/-- The COMMIT of a census. -/
def State.commitOrder (s : State) (rr : RingRec) : CensusOrder :=
  { kind := 3, sched := s.censusSched rr, at_ := boundaryAfter (s.now + 31250) 8, endLoop := rr.closedPath (s.ring rr.ring) }

theorem State.censusCommit_launches {s : State} {rr : RingRec} (hfits : s.acycFits rr = true)
    (hstate : s.get (F.RNG_STATUS_STATE rr.ring) ≠ 5) : ∃ f : RingState → RingState,
    s.censusCommit rr = ((s.censusTurn rr.ring f 0).acycOut rr (.census (s.commitOrder rr))).send (s.censusResult rr) ∧
      (f (s.ring rr.ring)).commitAt = boundaryAfter (s.now + 31250) 8 ∧ (f (s.ring rr.ring)).census = .commit ∧
      (f (s.ring rr.ring)).nextSched = s.censusSched rr := by
  refine ⟨?turn, ?launched, ?_, ?_, ?_⟩
  case launched =>
    refine Eq.trans ?commits (congrArg (State.send · (s.censusResult rr))
      (State.censusTurn_launches 0 (s.commitOrder rr) hfits hstate ?free ?path))
    case commits =>
      rw [State.censusCommit, State.censusTurn]
      rfl
    case free => rfl
    case path => rfl
  all_goals rfl

/-! ## Copies for the active (08 R834) -/

theorem censusLaunchRequest_fits {ring : Fin 16} {o : CensusOrder} {rr : RingRec} {s : State} (hactive : s.isActive = false)
    (hring : s.image.ring? ring.val = some rr) (hwindow : o.window = s.count) (hfits : s.acycFits rr = true) :
    exec (.censusLaunchRequest ring o) s = .next (s.acycOut rr (.census o)) := by
  have hgo : ¬ (s.isActive = true ∨ s.count ≠ o.window ∨ (!s.acycFits rr) = true) := by simp [hactive, hwindow, hfits]
  rw [exec_censusLaunchRequest, execCensusLaunchRequest, hring]
  exact congrArg Host.Outcome.next (if_neg hgo)

theorem censusLaunchRequest_missed {ring : Fin 16} {o : CensusOrder} {rr : RingRec} {s : State}
    (hring : s.image.ring? ring.val = some rr) (h : s.isActive = true ∨ s.count ≠ o.window ∨ s.acycFits rr = false) :
    exec (.censusLaunchRequest ring o) s = .next s := by
  have hmissed : s.isActive = true ∨ s.count ≠ o.window ∨ (!s.acycFits rr) = true := by simpa using h
  rw [exec_censusLaunchRequest, execCensusLaunchRequest, hring]
  exact congrArg Host.Outcome.next (if_pos hmissed)

/-! ## Requests (08 R403; 17 R734) -/

theorem SentFrom.rings {t u : State} {l : List Output} (h : SentFrom t u l) : u.rings = t.rings := by rw [h]

theorem State.censusNow_active {s : State} (r : Nat) (h : s.isActive = true) :
    s.censusNow r = s.ri r fun k => { k with censusNow := true } := if_pos h

/-- What the record of a census says does not rest on the sessions. -/
theorem State.stnRecords_sessions (s : State) (m : MgmtState) (r : Nat) : { s with mgmt := m }.stnRecords r = s.stnRecords r := rfl

/-! ## The clauses -/

theorem censusStart_counts {ring : Fin 16} {t : Nat} {rr : RingRec} {s : State} (hactive : s.isActive = true)
    (himg : s.img ≠ none) (hring : s.image.ring? ring.val = some rr) (hup : (s.ring ring.val).ownUp = true)
    (hdue : (s.at t).censusDue ring.val = true) (hfits : (s.at t).acycFits rr = true)
    (hstate : s.get (F.RNG_STATUS_STATE ring.val) ≠ 5) :
    Steps (exec (.censusStart ring t) s) fun u => (u.ring ring.val).census = .count ∧
      (u.ring ring.val).everStarted = true ∧ (u.ring ring.val).censusNow = false ∧
      (u.ring ring.val).sinceStart = max s.now t ∧ u.get (F.RNG_STATUS_CENSUS_BUSY ring.val) = 1 ∧
      (∃ b, u.out = s.out ++ [.acycFrame ring.val (.census { kind := 1 }) b]) ∧ SameRegs s u [R.RNG_STATUS ring.val] := by
  have hnum : rr.ring = ring.val := Img.ring?_ring hring
  refine ⟨_, censusStart_due hactive himg hring hup hdue hfits, ?_⟩
  rw [← hnum] at hstate ⊢
  obtain ⟨f, hbegin, hcount, hstarted, hnow, hsince⟩ := State.censusBegin_launches (s := s.at t) hfits hstate
  obtain ⟨a, l, hsent⟩ := ((s.at t).censusTurn rr.ring f 1).acycOut_ring rr (.census { kind := 1 })
  rw [hbegin, hsent, State.censusTurn_ring]
  exact ⟨hcount, hstarted, hnow, hsince, (s.at t).censusTurn_busy rr.ring f (by decide), ⟨_, rfl⟩,
    (s.at t).censusTurn_regs rr.ring f 1⟩

theorem censusFrameBack_starts {ring : Fin 16} {pe direct : Bool} {b : List Byte} {es : List CensusEntry} {fp : Fin 16}
    {ends : CensusEnds} {f t : Nat} {rr : RingRec} {s : State} (hring : s.image.ring? ring.val = some rr)
    (hfcs : fcsOk b = true) (htakes : rr.takes b = true) (hcount : (s.ring ring.val).census = .count)
    (hagain : (s.ring ring.val).again = false) : exec (.censusFrameBack ring 1 pe b es direct fp ends f false t) s =
      .next ((((s.at t).partnerErrors ring.val f).frameReturned rr.ring).startBack rr pe (es.map rr.placed) direct fp.val
        ends) := by
  have hnum : rr.ring = ring.val := Img.ring?_ring hring
  obtain ⟨x, y, herrors⟩ := (s.at t).partnerErrors_ring ring.val f
  refine (censusFrameBack_taken hring hfcs htakes fun h => absurd h (by decide)).trans
    (congrArg Host.Outcome.next (State.censusBack_start pe _ direct fp.val ends ?_ ?_))
  · rw [hnum, herrors]
    exact hcount
  · rw [hnum, herrors]
    exact hagain

/-- A READ that leaves entries missing adds what it found. -/
theorem censusFrameBack_reads {ring : Fin 16} {pe direct : Bool} {b : List Byte} {es : List CensusEntry} {fp : Fin 16}
    {ends : CensusEnds} {f t : Nat} {rr : RingRec} {s : State} (hring : s.image.ring? ring.val = some rr)
    (hfcs : fcsOk b = true) (htakes : rr.takes b = true) (hfilled : (rr.filled 3 6 b).length = es.length)
    (hread : (s.ring ring.val).census = .read) (hfound : ∀ e ∈ es, (rr.placed e).who ∈ (s.ring ring.val).startIds)
    (hmissing : (s.ring ring.val).entries.length + ((s.ring ring.val).newEntries (es.map rr.placed)).length <
      (s.ring ring.val).startIds.length) :
    Steps (exec (.censusFrameBack ring 2 pe b es direct fp ends f false t) s) fun u =>
      (u.ring ring.val).entries = (s.ring ring.val).entries ++ (s.ring ring.val).newEntries (es.map rr.placed) ∧
      (u.ring ring.val).census = .read ∧ u.regs = s.regs ∧ u.out = s.out := by
  have hnum : rr.ring = ring.val := Img.ring?_ring hring
  obtain ⟨x, y, herrors⟩ := (s.at t).partnerErrors_ring ring.val f
  have hback := ((s.at t).partnerErrors ring.val f).frameReturned_ring ring.val
  rw [herrors] at hback
  refine ⟨_, (censusFrameBack_taken hring hfcs htakes fun _ => hfilled).trans (congrArg Host.Outcome.next
    ((State.censusBack_read pe direct fp.val ends ?census ?found).trans (State.readBack_more ?missing))), ?_⟩
  case census =>
    rw [hnum, herrors]
    exact hread
  case found =>
    rw [hnum, herrors]
    exact List.forall_mem_map.2 hfound
  case missing =>
    rw [hnum, hback]
    exact hmissing
  obtain ⟨hregs, hout⟩ := (s.at t).frameReturned_leaves ring.val f
  rw [hnum, State.ring_ri_same, State.ri_regs, State.ri_out, hback, hregs, hout]
  exact ⟨rfl, hread, rfl, rfl⟩

theorem censusFrameTimeout_overdue {ring : Fin 16} {t n : Nat} {s : State} (hsent : n ∈ (s.ring ring.val).sent)
    (hlate : boundaryNs n + 30750 ≤ max s.now t) :
    exec (.censusFrameTimeout ring t) s = .next ((s.at t).censusRestart ring.val) := by
  have hover : ((s.at t).ring ring.val).sent.any (fun n => decide (boundaryNs n + 30750 ≤ (s.at t).now)) = true :=
    List.any_eq_true.2 ⟨n, hsent, decide_eq_true hlate⟩
  rw [exec_censusFrameTimeout, if_pos hover]

/-- What a census that starts over, or ends, leaves of ABANDONED, the recorder and the registers. -/
theorem State.censusRestart_shows {s : State} {r : Nat} (hruns : (s.ring r).census = .count ∨ (s.ring r).census = .read)
    (hroom : s.Room (islRing r)) :
    (s.censusRestart r).get (F.RNG_CENSUS_ABANDONED r) =
        min (s.get (F.RNG_CENSUS_ABANDONED r) + 1) (2 ^ (F.RNG_CENSUS_ABANDONED r).len - 1) ∧
      Raises s (s.censusRestart r) 0x6041 (islRing r) (le 4 ((s.ring r).restarts + 1)) ∧
      ((s.ring r).restarts < 3 → ((s.censusRestart r).ring r).census = .count ∧ ((s.censusRestart r).ring r).again = true) ∧
      (3 ≤ (s.ring r).restarts → ((s.censusRestart r).ring r).census = .idle ∧
        (s.censusRestart r).get (F.RNG_STATUS_CENSUS_BUSY r) = 0) ∧
      SameRegs s (s.censusRestart r) [R.RNG_CENSUS r, R.RNG_STATUS r] := by
  obtain ⟨habandoned, hraised, hregs⟩ := State.censusAbandoned_shows hroom
  by_cases hfew : (s.ring r).restarts < 3
  · obtain ⟨hcount, hagain, heq⟩ := State.censusRestart_again hruns hfew
    have hkept : (s.censusRestart r).regs = (s.censusAbandoned r).regs := by rw [heq]
    have hqueue : (s.censusRestart r).recd = (s.censusAbandoned r).recd := by rw [heq]
    refine ⟨(State.get_of_regs hkept _).trans habandoned, ?_, fun _ => ⟨hcount, hagain⟩, fun h => absurd hfew (Nat.not_lt.2 h),
      (SameRegs.of_regs hkept hregs).mono fun _ h => ?_⟩
    · rw [Raises, hqueue]
      exact hraised
    · exact List.mem_cons.2 (.inl (List.mem_singleton.1 h))
  · obtain ⟨hidle, heq⟩ := State.censusRestart_ends hruns (Nat.not_lt.1 hfew)
    have hkept : (s.censusRestart r).regs = ((s.censusAbandoned r).put (F.RNG_STATUS_CENSUS_BUSY r) 0).regs := by rw [heq]
    have hqueue : (s.censusRestart r).recd = (s.censusAbandoned r).recd := by rw [heq]; rfl
    have hbusy : ((s.censusAbandoned r).put (F.RNG_STATUS_CENSUS_BUSY r) 0).get (F.RNG_STATUS_CENSUS_BUSY r) = 0 :=
      State.get_put_same _ 0 (by simp [F.RNG_STATUS_CENSUS_BUSY])
    have hapart : (F.RNG_STATUS_CENSUS_BUSY r).off ≠ (F.RNG_CENSUS_ABANDONED r).off := by
      simp only [F.RNG_STATUS_CENSUS_BUSY, F.RNG_CENSUS_ABANDONED]
      omega
    refine ⟨(State.get_of_regs hkept _).trans ((State.get_put_ne _ 0 (.inl hapart)).trans habandoned), ?_,
      fun h => absurd h hfew, fun _ => ⟨hidle, (State.get_of_regs hkept _).trans hbusy⟩, SameRegs.of_regs hkept ?_⟩
    · rw [Raises, hqueue]
      exact hraised
    · exact SameRegs.put 0 (List.mem_cons_of_mem _ (List.mem_singleton.2 rfl))
        (hregs.mono fun _ h => List.mem_cons.2 (.inl (List.mem_singleton.1 h)))

/-- Settles O25: a census frame that fits goes out when the census turns to it (`censusTurn_launches`), at its START
(`censusBegin_launches`) and at its COMMIT (`censusCommit_launches`), and one that starts over is counted and reported
(`censusRestart_shows`). -/
theorem stationCensus : Obligations.StationCensus := by
  unfold Obligations.StationCensus
  refine ⟨?start, ?refused, ?startBack, ?readBack, ?commit, ?timeout, ?launch, ?noLaunch, ?results, ?now, ?nowRequest,
    ?readRequest⟩
  case start =>
    intro ring t rr s hactive himg hring hup hidle hagain hdue hfits hstate
    exact censusStart_counts hactive himg hring hup (State.censusDue_idle (s := s.at t) hidle hagain hdue) hfits hstate
  case refused => exact fun ring t s h => censusStart_refused t h
  case startBack =>
    intro ring pe b es direct fp ends f t rr s hring hfcs htakes hcount hagain
    exact censusFrameBack_starts hring hfcs htakes hcount hagain
  case readBack =>
    intro ring pe direct b es fp ends f t rr s hring hfcs htakes hfilled hread hfound hmissing
    exact censusFrameBack_reads hring hfcs htakes hfilled hread hfound hmissing
  case commit =>
    intro rr s _ hstate hfits
    obtain ⟨f, hcommit, hat, hcensus, hsched⟩ := State.censusCommit_launches hfits hstate
    obtain ⟨a, l, hsent⟩ := (s.censusTurn rr.ring f 0).acycOut_ring rr (.census (s.commitOrder rr))
    rw [hcommit, State.send_ring, hsent, State.censusTurn_ring]
    exact ⟨hat, hcensus, hsched, s.censusTurn_busy rr.ring f (by decide), _, List.append_assoc ..⟩
  case timeout =>
    intro ring t n s hruns hsent hlate hroom
    exact ⟨_, censusFrameTimeout_overdue hsent hlate, State.censusRestart_shows (s := s.at t) hruns hroom⟩
  case launch =>
    intro ring o rr s hactive hring hwindow hfits
    exact ⟨_, censusLaunchRequest_fits hactive hring hwindow hfits, rfl⟩
  case noLaunch => exact fun ring o rr s hring h => censusLaunchRequest_missed hring h
  case results =>
    intro ring es sch n e fp f g s h
    refine ⟨_, (exec_censusResultsFromActive ring es sch n e fp f g s).trans
      (congrArg Host.Outcome.next (if_neg (by rw [h]; decide))), ?_⟩
    dsimp only
    rw [State.ring_ri_same]
    exact ⟨rfl, rfl, rfl, rfl, rfl, rfl, rfl, rfl, rfl⟩
  case now =>
    intro ring s h
    refine ⟨_, (exec_rngCensusNow ring s).trans (congrArg Host.Outcome.next (State.censusNow_active _ h)), ?_, rfl⟩
    rw [State.ring_ri_same]
  case nowRequest =>
    intro ses req ring s h
    rw [exec_censusNow]
    refine request_steps 0 [] h fun m => ⟨{ s with mgmt := m }.ri ring.val fun k => { k with censusNow := true },
      congrArg (·, some (0, [])) (State.censusNow_active (s := { s with mgmt := m }) _ (h.2.1 rfl)), rfl,
      fun u hu => ⟨?_, hu.out, hu.regs⟩⟩
    rw [State.ring_of_rings hu.rings, State.ring_ri_same]
  case readRequest =>
    intro ses req ring s h
    rw [exec_censusRead]
    exact request_steps 0 (s.stnRecords ring.val) h fun m =>
      ⟨{ s with mgmt := m }, congrArg (fun p => ({ s with mgmt := m }, some (0, p))) (s.stnRecords_sessions m ring.val), rfl,
        fun u hu => ⟨hu.out, hu.regs⟩⟩

end Sys2Proof.Machine
end

section
/-! A failing message of an active in a higher epoch (09 R424, R441): the standby that takes it follows the epoch. -/
namespace Sys2Proof.Machine

theorem exec_failingMessageRx (b : List Byte) (t : Nat) (s : State) :
    exec (.failingMessageRx b t) s = execFailingMessageRx b t s := by rfl

/-- The failing message of an active in epoch 1. -/
def failingWord : FoxWord := { kind := 3, flags := 1, epoch := 1, image := List.replicate 16 0 }

theorem failingWord_parse : FoxWord.parse failingWord.bytes = some failingWord := by decide +kernel

/-- A MATCHED standby in epoch 0 with PD8 on that hears its partner. -/
def followingStandby : State :=
  (((State.reset.put F.TWN_STATUS_ROLE 2).put F.TWN_STATUS_TSTATE 3).put F.TWN_STATUS_FOX_OK 1).setBit R.PWR_ON 8 true

theorem followingStandby_follows : Steps (exec (.failingMessageRx failingWord.bytes 0) followingStandby) fun u =>
    u.rd R.TWN_EPOCH = 1 := ⟨_, exec_failingMessageRx _ _ _, by decide +kernel⟩

/-- Refutes O26: its clause on the failing message leaves TWN_EPOCH as it was, but a standby keeps its epoch equal to the one that
the active claims (09 R424), and a failing message carries it as every fox word does (09 R438, R441). The counterexample is a
standby in epoch 0 that receives the failing message of an active in epoch 1. -/
theorem not_heartbeats : ¬ Obligations.Heartbeats := by
  unfold Obligations.Heartbeats
  rintro ⟨-, -, -, -, -, -, -, hfailing, -⟩
  obtain ⟨u, hexec, -, -, -, -, hregs⟩ := hfailing failingWord.bytes failingWord 0 followingStandby failingWord_parse
    (by decide) (by decide) (by decide) (by decide) (by decide) (by decide) (by decide) (by decide)
  obtain ⟨v, hnext, hepoch⟩ := followingStandby_follows
  obtain rfl : v = u := Host.Outcome.next.inj (hnext.symm.trans hexec)
  have hkept : v.rd R.TWN_EPOCH = followingStandby.rd R.TWN_EPOCH := hregs R.TWN_EPOCH (by decide)
  rw [hepoch] at hkept
  exact absurd hkept (by decide)

end Sys2Proof.Machine
end

section
/-! Rules of the twin states: which fields an operation leaves, and what a change of twin state and of role changes
(09 R417, R423, R428, R442, R449, R455, R472). -/
namespace Sys2Proof.Machine

/-! ## Fields alone -/

/-- Two fields that share no bit. -/
def Fld.apart (f g : Fld) : Bool := decide (f.off ≠ g.off) || decide (f.lo + f.len ≤ g.lo) || decide (g.lo + g.len ≤ f.lo)

/-- A field of a word that shares no bit with the listed ones. -/
def Fld.clearOf (g : Fld) (l : List Fld) : Bool :=
  decide (0 < g.len) && decide (g.lo + g.len ≤ 32) && l.all fun f => f.apart g

theorem Fld.clearOf_iff {g : Fld} {l : List Fld} : g.clearOf l = true ↔
    0 < g.len ∧ g.lo + g.len ≤ 32 ∧ ∀ f ∈ l, f.off ≠ g.off ∨ f.lo + f.len ≤ g.lo ∨ g.lo + g.len ≤ f.lo := by
  simp [Fld.clearOf, Fld.apart, or_assoc, and_assoc]

/-- Every field that shares no bit with the listed ones reads as before. -/
def SameFlds (s t : State) (l : List Fld) : Prop := ∀ g : Fld, g.clearOf l = true → t.get g = s.get g

theorem SameFlds.refl (s : State) (l : List Fld) : SameFlds s s l := fun _ _ => rfl

theorem SameFlds.of_regs {s t u : State} {l : List Fld} (hu : u.regs = t.regs) (h : SameFlds s t l) : SameFlds s u l :=
  fun g hg => (State.get_of_regs hu g).trans (h g hg)

/-- One list after another, the second contained in the first. -/
theorem SameFlds.trans {s t u : State} {l m : List Fld} (h1 : SameFlds s t l) (h2 : SameFlds t u m) (hm : ∀ f ∈ m, f ∈ l) :
    SameFlds s u l := fun g hg => by
  obtain ⟨hpos, hfits, hapart⟩ := Fld.clearOf_iff.1 hg
  exact (h2 g (Fld.clearOf_iff.2 ⟨hpos, hfits, fun f hf => hapart f (hm f hf)⟩)).trans (h1 g hg)

theorem SameFlds.put {s t : State} {l : List Fld} {f : Fld} (v : Nat) (hf : f ∈ l) (h : SameFlds s t l) :
    SameFlds s (t.put f v) l := fun g hg => by
  obtain ⟨-, hfits, hapart⟩ := Fld.clearOf_iff.1 hg
  exact (State.get_put_ne _ _ ((hapart f hf).imp_right fun h => ⟨hfits, h⟩)).trans (h g hg)

/-- A register written whole. -/
theorem SameFlds.wrN {s t : State} {l : List Fld} {o : Nat} (v : Nat) (ho : ⟨o, 0, 32⟩ ∈ l) (h : SameFlds s t l) :
    SameFlds s (t.wrN o v) l := fun g hg => by
  obtain ⟨hpos, hfits, hapart⟩ := Fld.clearOf_iff.1 hg
  have hne : o ≠ g.off := (hapart _ ho).resolve_right fun h => by
    dsimp only at h
    omega
  refine (congrArg (getBits · g.lo g.len) (State.rd_wr_ne _ _ hne)).trans (h g hg)

/-- What a lost raise changes (17 R749). -/
def lostFlds : List Fld := [F.EVT_COUNTS_LOST, F.EVT_STATUS_LOST]

theorem SameFlds.raise {s t : State} {l : List Fld} (code isl : Nat) (data : List Byte) (hl : ∀ f ∈ lostFlds, f ∈ l)
    (h : SameFlds s t l) : SameFlds s (t.raise code isl data) l := by
  have hlost : SameFlds s ((t.bump F.EVT_COUNTS_LOST 1).put F.EVT_STATUS_LOST 1) l :=
    SameFlds.put _ (hl _ (by decide)) (SameFlds.put _ (hl _ (by decide)) h)
  unfold State.raise State.raiseLost
  dsimp only
  split
  · exact SameFlds.of_regs rfl h
  · split <;> exact SameFlds.of_regs rfl hlost

/-- A register none of whose bits is listed. -/
theorem SameFlds.rd {s t : State} {l : List Fld} {o : Nat} (h : SameFlds s t l) (ho : Fld.clearOf ⟨o, 0, 32⟩ l = true) :
    t.rd o = s.rd o := by
  have hword (w : Word) : getBits w 0 32 = w.toNat := by
    rw [getBits, BitVec.ushiftRight_zero, Nat.mod_eq_of_lt w.isLt]
  have hget := h _ ho
  simp only [State.get, hword] at hget
  exact BitVec.eq_of_toNat_eq hget

/-! ## What a change of role keeps -/

/-- The twin unit but for the instants that time the revert and the latest change of role (09 R463, R472). -/
def TwinState.timeless (k : TwinState) : TwinState := { k with lastChange := none, days := 0, revertFrom := none }

/-- A state that another passes to by a change of role: memory and MRAM stand, the twin unit stands but for its instants, and of the
registers only the listed fields differ. -/
structure RoleMove (s t : State) (l : List Fld) : Prop where
  mem : t.mem = s.mem
  nv : t.nv = s.nv
  twin : t.twin.timeless = s.twin.timeless
  flds : SameFlds s t l

theorem RoleMove.refl (s : State) (l : List Fld) : RoleMove s s l := ⟨rfl, rfl, rfl, SameFlds.refl s l⟩

theorem RoleMove.trans {s t u : State} {l m : List Fld} (h1 : RoleMove s t l) (h2 : RoleMove t u m) (hm : ∀ f ∈ m, f ∈ l) :
    RoleMove s u l :=
  ⟨h2.mem.trans h1.mem, h2.nv.trans h1.nv, h2.twin.trans h1.twin, h1.flds.trans h2.flds hm⟩

/-- A state that differs from another in neither registers, memory, MRAM nor, but for its instants, the twin unit. -/
theorem RoleMove.of_parts {s t u : State} {l : List Fld} (h : RoleMove s t l) (hregs : u.regs = t.regs) (hmem : u.mem = t.mem)
    (hnv : u.nv = t.nv) (htwin : u.twin.timeless = t.twin.timeless) : RoleMove s u l :=
  ⟨hmem.trans h.mem, hnv.trans h.nv, htwin.trans h.twin, SameFlds.of_regs hregs h.flds⟩

theorem RoleMove.put {s t : State} {l : List Fld} {f : Fld} (v : Nat) (hf : f ∈ l) (h : RoleMove s t l) :
    RoleMove s (t.put f v) l := ⟨h.mem, h.nv, h.twin, h.flds.put v hf⟩

theorem RoleMove.raise {s t : State} {l : List Fld} (code isl : Nat) (data : List Byte) (hl : ∀ f ∈ lostFlds, f ∈ l)
    (h : RoleMove s t l) : RoleMove s (t.raise code isl data) l :=
  ⟨(State.raise_mem ..).trans h.mem, (State.raise_nv ..).trans h.nv,
    (congrArg TwinState.timeless (State.raise_twin ..)).trans h.twin, h.flds.raise code isl data hl⟩

theorem RoleMove.each {α : Type} {s t : State} {l : List Fld} {a : List α} {f : State → α → State}
    (hf : ∀ x ∈ a, ∀ u, RoleMove s u l → RoleMove s (f u x) l) (h : RoleMove s t l) : RoleMove s (t.each a f) l :=
  List.foldlRecOn (motive := fun u => RoleMove s u l) a f h fun u hu x hx => hf x hx u hu

theorem RoleMove.release {s t : State} {l : List Fld} (h : RoleMove s t l) : t.twin.release = s.twin.release :=
  (congrArg TwinState.release h.twin :)

theorem RoleMove.lost {s t : State} {l : List Fld} (h : RoleMove s t l) : t.twin.lost = s.twin.lost :=
  (congrArg TwinState.lost h.twin :)

theorem RoleMove.switch {s t : State} {l : List Fld} (h : RoleMove s t l) : t.twin.switch = s.twin.switch :=
  (congrArg TwinState.switch h.twin :)

theorem State.epoch_eq_get (s : State) : s.epoch = s.get F.TWN_EPOCH_EPOCH := by
  have hlt : (s.rd R.TWN_EPOCH).toNat < 2 ^ 32 := (s.rd R.TWN_EPOCH).isLt
  exact (Nat.mod_eq_of_lt hlt).symm

/-- The module stands in a twin state, in its role, with an epoch (09 R423, R428). -/
structure State.Stands (s : State) (t e : Nat) : Prop where
  tstate : s.tstate = t
  role : s.role = roleOf t
  epoch : s.epoch = e

/-- A change that touches none of the three fields. -/
theorem State.Stands.move {s u : State} {t e : Nat} {l : List Fld} (h : s.Stands t e) (hflds : SameFlds s u l)
    (hl : [F.TWN_STATUS_TSTATE, F.TWN_STATUS_ROLE, F.TWN_EPOCH_EPOCH].all (·.clearOf l) = true) : u.Stands t e := by
  simp only [List.all_cons, List.all_nil, Bool.and_eq_true, and_true] at hl
  obtain ⟨htstate, hrole, hepoch⟩ := hl
  refine ⟨(hflds _ htstate).trans h.tstate, (hflds _ hrole).trans h.role, ?_⟩
  rw [State.epoch_eq_get, hflds _ hepoch, ← State.epoch_eq_get, h.epoch]

theorem State.Stands.isActive {s : State} {e : Nat} (h : s.Stands 1 e) : s.isActive = true := decide_eq_true h.role

/-! ## Twin states (09 R417, R428) -/

/-- What follows the twin states in the registers (09 R463). -/
def shownFlds : List Fld := [F.TWN_STATUS_REDUNDANT, F.TWN_REVERT_RUNNING, F.TWN_REVERT_REMAIN_S, F.TWN_CTL_PENDING]

theorem State.twinShow_move (s : State) : RoleMove s s.twinShow shownFlds := by
  refine ⟨rfl, rfl, rfl, ?_⟩
  unfold State.twinShow State.putB
  dsimp only
  exact (((((SameFlds.refl s _).of_regs rfl).put _ (by decide)).put _ (by decide)).put _ (by decide)).put _ (by decide)

/-- What the end of a SUSPECT interval changes (09 R442). -/
def suspectFlds : List Fld := F.TWN_STATUS_SUSPECT :: lostFlds

theorem State.endSuspect_move (s : State) : RoleMove s s.endSuspect suspectFlds := by
  unfold State.endSuspect
  split
  · exact ((RoleMove.refl s _).put _ (by decide)).raise _ _ _ (by decide)
  · exact RoleMove.refl s _

theorem State.endSuspect_off (s : State) : s.endSuspect.on F.TWN_STATUS_SUSPECT = false := by
  unfold State.endSuspect
  split
  · rw [State.on, State.get_raise _ _ _ _ (by decide) (by decide), State.get_put_same _ _ (by decide)]
    rfl
  · next hoff => exact Bool.eq_false_iff.2 hoff

/-- What a change of role notes (09 R472). -/
def changeFlds : List Fld := [F.TWN_LAST_CHANGE_DAYS, F.TWN_STATUS_PROOF_DUE, F.TWN_LAST_COUNT_C0_LOW]

theorem State.roleChanged_move (s : State) : RoleMove s s.roleChanged changeFlds := by
  refine ⟨rfl, rfl, rfl, ?_⟩
  unfold State.roleChanged
  exact ((((SameFlds.refl s _).of_regs rfl).put _ (by decide)).put _ (by decide)).wrN _ (by decide)

/-- The twin state and its role as TWN_STATUS shows them; a module that is no standby is not in SUSPECT. -/
def State.enterT (s : State) (t : Nat) : State :=
  ((if roleOf t = 2 then s else s.endSuspect).put F.TWN_STATUS_TSTATE t).put F.TWN_STATUS_ROLE (roleOf t)

/-- What follows a twin state that is entered. -/
def enteredFlds : List Fld := [F.TWN_JOIN_STEP, F.TWN_JOIN_PROGRESS] ++ changeFlds ++ shownFlds

theorem State.setT_entered (s : State) (t : Nat) : RoleMove (s.enterT t) (s.setT t) enteredFlds := by
  have hjoin : RoleMove (s.enterT t) (if t = 2 then s.enterT t
      else ((s.enterT t).put F.TWN_JOIN_STEP 0).put F.TWN_JOIN_PROGRESS 0) enteredFlds := by
    split
    · exact RoleMove.refl _ _
    · exact ((RoleMove.refl _ _).put _ (by decide)).put _ (by decide)
  change RoleMove _ (State.twinShow _) _
  refine RoleMove.trans ?_ (State.twinShow_move _) (by decide)
  split
  · exact hjoin
  · exact hjoin.trans (State.roleChanged_move _) (by decide)

/-- What a change of twin state changes in the registers. -/
def stateFlds : List Fld := [F.TWN_STATUS_TSTATE, F.TWN_STATUS_ROLE] ++ suspectFlds ++ enteredFlds

theorem State.enterT_move (s : State) (t : Nat) : RoleMove s (s.enterT t) stateFlds := by
  have hsuspect : RoleMove s (if roleOf t = 2 then s else s.endSuspect) stateFlds := by
    split
    · exact RoleMove.refl s _
    · exact (RoleMove.refl s _).trans s.endSuspect_move (by decide)
  exact (hsuspect.put _ (by decide)).put _ (by decide)

theorem State.setT_move (s : State) (t : Nat) : RoleMove s (s.setT t) stateFlds :=
  (s.enterT_move t).trans (s.setT_entered t) (by decide)

theorem roleOf_lt (t : Nat) : roleOf t < 4 := by
  unfold roleOf
  split
  · decide
  · split <;> decide

/-- The twin state that was entered, with its role; the epoch stands. -/
theorem State.setT_stands (s : State) {t : Nat} (ht : t < 16) : (s.setT t).Stands t s.epoch := by
  have hentered : (s.enterT t).Stands t s.epoch := by
    refine ⟨?tstate, ?role, ?epoch⟩
    case tstate =>
      refine (State.get_put_ne _ _ (.inr (by decide))).trans ((State.get_put_same _ _ (by decide)).trans ?_)
      exact Nat.mod_eq_of_lt ht
    case role => exact (State.get_put_same _ _ (by decide)).trans (Nat.mod_eq_of_lt (roleOf_lt t))
    case epoch => rw [State.epoch_eq_get, (s.enterT_move t).flds _ (by decide), ← State.epoch_eq_get]
  exact hentered.move (s.setT_entered t).flds (by decide)

/-! ## The epoch (09 R423, R425) -/

/-- Nothing but the epoch, in its register and in the last-words record, changes. -/
theorem State.setEpoch_keeps (s : State) (e : Nat) : (s.setEpoch e).mem = s.mem ∧ (s.setEpoch e).twin = s.twin ∧
    (s.setEpoch e).out = s.out ∧ (s.setEpoch e).now = s.now ∧ SameFlds s (s.setEpoch e) [F.TWN_EPOCH_EPOCH] := by
  unfold State.setEpoch
  dsimp only
  split
  · exact ⟨rfl, rfl, rfl, rfl, SameFlds.refl s _⟩
  · exact ⟨rfl, rfl, rfl, rfl, ((SameFlds.refl s _).of_regs rfl).wrN _ (by decide)⟩

theorem State.setEpoch_rises {s : State} {e : Nat} (hrise : s.epoch < e) (he : e < 2 ^ 32) : s.setEpoch e =
    (s.inNv fun q => { q with lastWords := { s.nv.lastWords with valid := true, epoch := e } }).wrN R.TWN_EPOCH e := by
  have hmin : min e 0xFFFFFFFF = e := by omega
  rw [State.setEpoch, hmin]
  exact if_neg (by omega)

theorem State.setEpoch_epoch {s : State} {e : Nat} (hrise : s.epoch < e) (he : e < 2 ^ 32) : (s.setEpoch e).epoch = e := by
  rw [State.setEpoch_rises hrise he, State.epoch, State.rdN, State.wrN, State.rd_wr_same, BitVec.toNat_ofNat,
    Nat.mod_eq_of_lt he]

/-! ## The resources of the active role (09 R449, R452, R455) -/

/-- What a change of role changes in one CAN channel. -/
def canChanFlds (c : Nat) : List Fld :=
  [F.CAN_FIFO_RXF0_FILL c, F.CAN_FIFO_RXF1_FILL c, F.CAN_FIFO_TXF_FILL c, F.CAN_STATUS_RESTRICTED c, F.CAN_TXCOUNT_TX_ABORT c]

/-- What a change of role changes in CAN, local outputs and the recorder. -/
def resourceFlds : List Fld :=
  (List.range 4).flatMap canChanFlds ++ lostFlds ++ [F.DIO_OUT_DRIVEN, F.DIO_STATUS_RELEASED]

theorem mem_resourceFlds {c : Nat} {f : Fld} (hc : c ∈ List.range 4) (hf : f ∈ canChanFlds c) : f ∈ resourceFlds :=
  List.mem_append_left _ (List.mem_append_left _ (List.mem_flatMap.2 ⟨c, hc, hf⟩))

/-- A channel changed, with its fill counts and RESTRICTED. -/
theorem RoleMove.canChannel {s t : State} {c : Nat} (k : CanState) (v : Nat) (hc : c ∈ List.range 4)
    (h : RoleMove s t resourceFlds) :
    RoleMove s (((t.setCan c k).canFill c).put (F.CAN_STATUS_RESTRICTED c) v) resourceFlds := by
  have hf {f : Fld} (hf : f ∈ canChanFlds c) : f ∈ resourceFlds := mem_resourceFlds hc hf
  have hset : RoleMove s (t.setCan c k) resourceFlds := h.of_parts rfl rfl rfl rfl
  exact (((hset.put _ (hf (by simp [canChanFlds]))).put _ (hf (by simp [canChanFlds]))).put _
    (hf (by simp [canChanFlds]))).put _ (hf (by simp [canChanFlds]))

theorem State.assumeRole_move (s : State) : RoleMove s s.assumeRole resourceFlds := by
  have hcan : RoleMove s s.canAssume resourceFlds :=
    RoleMove.each (fun c hc u hu => hu.canChannel _ _ hc) (RoleMove.refl s _)
  exact RoleMove.each (fun a _ u hu => hu.of_parts rfl rfl rfl rfl) hcan

theorem State.canRelease_move (s : State) : RoleMove s s.canRelease resourceFlds := by
  refine RoleMove.each (fun c hc u hu => ?_) (RoleMove.refl s _)
  dsimp only
  split
  · exact hu.canChannel _ _ hc
  · exact ((hu.canChannel _ _ hc).put _ (mem_resourceFlds hc (by simp [canChanFlds]))).raise _ _ _ (by decide)

theorem State.closeSession_move (s : State) (n reason : Nat) : RoleMove s (s.closeSession n reason) lostFlds := by
  unfold State.closeSession
  split
  · exact RoleMove.refl s _
  · exact RoleMove.raise _ _ _ (fun _ hf => hf) ((RoleMove.refl s _).of_parts rfl rfl rfl rfl)

theorem State.closeActive_move (s : State) : RoleMove s s.closeActive lostFlds := by
  refine RoleMove.each (fun n _ u hu => ?_) (RoleMove.refl s _)
  split
  · split
    · exact hu.trans (u.closeSession_move n 2) fun _ hf => hf
    · exact hu
  · exact hu

theorem State.outputsFollow_move (s : State) : RoleMove s s.outputsFollow resourceFlds := by
  have hdo : RoleMove s s.doDrive resourceFlds := ((RoleMove.refl s _).put _ (by decide)).put _ (by decide)
  exact RoleMove.each (fun n _ u hu => hu.of_parts rfl rfl rfl rfl) hdo

theorem State.dropRole_move (s : State) : RoleMove s s.dropRole resourceFlds :=
  (s.canRelease_move.trans (State.closeActive_move _) (by decide)).trans (State.outputsFollow_move _) fun _ hf => hf

/-- The frames in transmission are noted in the CAN channels alone. -/
theorem State.canStarted_keeps (s : State) (l : List (Nat × Nat)) : (s.canStarted l).regs = s.regs ∧
    (s.canStarted l).mem = s.mem ∧ (s.canStarted l).twin = s.twin := by
  refine List.foldlRecOn (motive := fun u : State => u.regs = s.regs ∧ u.mem = s.mem ∧ u.twin = s.twin) l _ ⟨rfl, rfl, rfl⟩ ?_
  intro u hu e _
  dsimp only
  split
  · exact hu
  · split
    · exact hu
    · split <;> exact hu

end Sys2Proof.Machine
end

section
/-! Roles taken and given up (09 R422, R426, R427, R429, R430, R449, R455, R458). -/
namespace Sys2Proof.Machine

theorem exec_listenTimeout (t : Nat) (s : State) : exec (.listenTimeout t) s = execListenTimeout t s := by rfl

theorem exec_higherEpochRelease (l : List (Nat × Nat)) (t : Nat) (s : State) :
    exec (.higherEpochRelease l t) s = execHigherEpochRelease l t s := by rfl

theorem exec_twnRejoin (s : State) : exec .twnRejoin s = .next s.rejoin := by rfl

/-! ## A twin state and the cause of the change -/

/-- What a change of twin state with a cause changes in the registers. -/
def causeFlds : List Fld := F.TWN_LAST_CHANGE_CAUSE :: stateFlds

theorem State.setT_cause_move (s : State) (t c : Nat) : RoleMove s ((s.setT t).cause c) causeFlds :=
  ((RoleMove.refl s _).trans (s.setT_move t) (by decide)).put _ (by decide)

theorem State.setT_cause_stands (s : State) {t : Nat} (c : Nat) (ht : t < 16) : ((s.setT t).cause c).Stands t s.epoch :=
  (s.setT_stands ht).move (l := [F.TWN_LAST_CHANGE_CAUSE]) ((SameFlds.refl _ _).put c (by decide)) (by decide)

theorem State.cause_shown (s : State) {c : Nat} (hc : c < 16) : (s.cause c).get F.TWN_LAST_CHANGE_CAUSE = c :=
  (State.get_put_same _ _ (by decide)).trans (Nat.mod_eq_of_lt hc)

/-! ## The claim of ACTIVE from LISTEN (09 R426, R427, R429) -/

/-- ACTIVE is taken by a claim, with its event. -/
def State.claimed (s : State) (data : List Byte) : State :=
  (((s.setT 1).cause 10).assumeRole).raise 0x7001 islTwin data

/-- What a claim changes in the registers beside the epoch. -/
def claimFlds : List Fld := causeFlds ++ resourceFlds

theorem State.claimed_move (s : State) (data : List Byte) : RoleMove s (s.claimed data) claimFlds := by
  refine RoleMove.raise _ _ _ (by decide) ?_
  exact ((RoleMove.refl s _).trans (s.setT_cause_move 1 10) (by decide)).trans (State.assumeRole_move _) (by decide)

theorem State.claimed_shows (s : State) (data : List Byte) :
    (s.claimed data).Stands 1 s.epoch ∧ (s.claimed data).get F.TWN_LAST_CHANGE_CAUSE = 10 := by
  have hassumed : SameFlds ((s.setT 1).cause 10) (s.claimed data) resourceFlds :=
    (State.assumeRole_move _).flds.raise _ _ _ (by decide)
  refine ⟨(s.setT_cause_stands 10 (by decide)).move hassumed (by decide), ?_⟩
  rw [hassumed _ (by decide), State.cause_shown _ (by decide)]

/-- With a valid last-words record the claim goes on from its epoch. -/
theorem State.claim_recorded {s : State} (heard : Bool) (hvalid : s.nv.lastWords.valid = true)
    (hlisten : s.twin.listenEpoch = none) :
    ∃ data, s.claim heard = (s.setEpoch (s.nv.lastWords.epoch + 1)).claimed data := by
  rw [State.claim, hvalid, hlisten]
  exact ⟨_, rfl⟩

theorem State.claim_recorded_shows {s : State} (heard : Bool) (hvalid : s.nv.lastWords.valid = true)
    (hlisten : s.twin.listenEpoch = none) (hepoch : s.epoch ≤ s.nv.lastWords.epoch)
    (hfits : s.nv.lastWords.epoch + 1 < 2 ^ 32) : (s.claim heard).Stands 1 (s.nv.lastWords.epoch + 1) ∧
      (s.claim heard).nv.lastWords.epoch = s.nv.lastWords.epoch + 1 ∧
      (s.claim heard).get F.TWN_LAST_CHANGE_CAUSE = 10 ∧ (s.claim heard).mem = s.mem := by
  obtain ⟨data, hclaim⟩ := State.claim_recorded heard hvalid hlisten
  have hrise : s.epoch < s.nv.lastWords.epoch + 1 := Nat.lt_succ_of_le hepoch
  have hset := State.setEpoch_epoch hrise hfits
  have hwords : (s.setEpoch (s.nv.lastWords.epoch + 1)).nv.lastWords.epoch = s.nv.lastWords.epoch + 1 := by
    rw [State.setEpoch_rises hrise hfits]
    rfl
  obtain ⟨hmem, -⟩ := s.setEpoch_keeps (s.nv.lastWords.epoch + 1)
  rw [hclaim]
  generalize s.setEpoch (s.nv.lastWords.epoch + 1) = v at hset hwords hmem
  obtain ⟨hstands, hcause⟩ := v.claimed_shows data
  have hmove := v.claimed_move data
  exact ⟨hset ▸ hstands, (congrArg (·.lastWords.epoch) hmove.nv).trans hwords, hcause, hmove.mem.trans hmem⟩

/-- Without one, and without an epoch heard, the claim takes epoch 1 and says so. -/
theorem State.claim_unsure {s : State} (heard : Bool) (hvalid : s.nv.lastWords.valid = false)
    (hlisten : s.twin.listenEpoch = none) :
    ∃ data, s.claim heard = (((s.setEpoch 1).put F.TWN_STATUS_EPOCH_UNSURE 1).raise 0x7003 islTwin []).claimed data := by
  rw [State.claim, hvalid, hlisten]
  exact ⟨_, rfl⟩

theorem State.claim_unsure_shows {s : State} (heard : Bool) (hvalid : s.nv.lastWords.valid = false)
    (hlisten : s.twin.listenEpoch = none) (hepoch : s.epoch = 0) : (s.claim heard).Stands 1 1 ∧
      (s.claim heard).on F.TWN_STATUS_EPOCH_UNSURE = true := by
  obtain ⟨data, hclaim⟩ := State.claim_unsure heard hvalid hlisten
  have hset : (s.setEpoch 1).epoch = 1 := State.setEpoch_epoch (by omega) (by decide)
  rw [hclaim]
  generalize s.setEpoch 1 = v at hset
  have hnoted : SameFlds v ((v.put F.TWN_STATUS_EPOCH_UNSURE 1).raise 0x7003 islTwin [])
      (F.TWN_STATUS_EPOCH_UNSURE :: lostFlds) := ((SameFlds.refl v _).put _ (by decide)).raise _ _ _ (by decide)
  have hunsure : ((v.put F.TWN_STATUS_EPOCH_UNSURE 1).raise 0x7003 islTwin []).get F.TWN_STATUS_EPOCH_UNSURE = 1 :=
    (State.get_raise _ _ _ _ (by decide) (by decide)).trans (State.get_put_same _ _ (by decide))
  generalize (v.put F.TWN_STATUS_EPOCH_UNSURE 1).raise 0x7003 islTwin [] = w at hnoted hunsure
  have hepochs : w.epoch = 1 := by
    rw [State.epoch_eq_get, hnoted _ (by decide), ← State.epoch_eq_get, hset]
  obtain ⟨hstands, -⟩ := w.claimed_shows data
  refine ⟨hepochs ▸ hstands, ?_⟩
  rw [State.on, (w.claimed_move data).flds _ (by decide), hunsure]
  rfl

/-- Nobody was heard for LISTEN_MS. -/
theorem listenTimeout_claims {t : Nat} {s : State} (hlisten : s.tstate = 0) (himg : s.img ≠ none)
    (hring : s.twin.ringActive = false) (hfox : s.twin.foxHeard = none) (hbadger : s.twin.badgerHeard = none)
    (hdue : s.twin.listenFrom + s.image.twin.listenMs * 1000000 ≤ max s.now t) :
    exec (.listenTimeout t) s = .next ((s.at t).claim false) := by
  have hwaited : ¬((s.at t).tstate ≠ 0 ∨ (s.at t).img.isNone = true ∨
      (s.at t).now < (s.at t).twin.listenFrom + (s.at t).image.twin.listenMs * 1000000) := by
    rintro (h | h | h)
    · exact h hlisten
    · exact himg (Option.isNone_iff_eq_none.1 h)
    · exact absurd hdue (Nat.not_le.2 h)
  rw [exec_listenTimeout, execListenTimeout, if_neg hwaited]
  simp [hring, hfox, hbadger, State.partnerHeard]

/-- Elsewhere than in LISTEN under an image, before LISTEN_MS, or with an active heard on a ring, nothing is claimed. -/
theorem listenTimeout_waits {t : Nat} {s : State} (h : s.tstate ≠ 0 ∨ s.img = none ∨ s.twin.ringActive = true ∨
    max s.now t < s.twin.listenFrom + s.image.twin.listenMs * 1000000) : exec (.listenTimeout t) s = .next (s.at t) := by
  rw [exec_listenTimeout, execListenTimeout]
  split
  · rfl
  · next hwaited =>
    have hring : (s.at t).twin.ringActive = true := by
      rcases h with h | h | h | h
      · exact absurd (.inl h) hwaited
      · exact absurd (.inr (.inl (Option.isNone_iff_eq_none.2 h))) hwaited
      · exact h
      · exact absurd (.inr (.inr h)) hwaited
    rw [if_pos hring]

/-! ## The release of ACTIVE (09 R455, R458) -/

/-- The active role given up, with the event that says why. -/
def State.fenced (s : State) (cause code : Nat) (data : List Byte) : State :=
  (((s.setT 7).dropRole).cause cause).raise code islTwin data

theorem State.fenced_move (s : State) (cause code : Nat) (data : List Byte) :
    RoleMove s (s.fenced cause code data) (causeFlds ++ resourceFlds) := by
  have hdrop : RoleMove s (s.setT 7).dropRole (causeFlds ++ resourceFlds) :=
    ((RoleMove.refl s _).trans (s.setT_move 7) (by decide)).trans (State.dropRole_move _) (by decide)
  exact (hdrop.put _ (by decide)).raise _ _ _ (by decide)

theorem State.fenced_shows (s : State) {cause : Nat} (code : Nat) (data : List Byte) (hc : cause < 16) :
    (s.fenced cause code data).Stands 7 s.epoch ∧ (s.fenced cause code data).get F.TWN_LAST_CHANGE_CAUSE = cause := by
  have hdropped : (s.setT 7).dropRole.Stands 7 s.epoch :=
    (s.setT_stands (by decide)).move (State.dropRole_move _).flds (by decide)
  refine ⟨hdropped.move (l := F.TWN_LAST_CHANGE_CAUSE :: lostFlds) ?_ (by decide), ?_⟩
  · exact ((SameFlds.refl _ _).put _ (by decide)).raise _ _ _ (by decide)
  · exact (State.get_raise _ _ _ _ (by decide) (by decide)).trans (State.cause_shown _ hc)

/-- An active that gives the role up outside reduced service is FENCED, with cause 8 for a lost tie and 9 for a higher epoch. -/
theorem State.releaseActive_fences {s : State} (why : Nat) (hreduced : s.on F.MOD_STATUS_REDUCED = false) :
    ∃ code data, s.releaseActive why = (s.tw fun u => { u with switch := none, owed := none, release := none }).fenced
      (if why = 0 then 8 else 9) code data := by
  have hfull : ¬ s.on F.MOD_STATUS_REDUCED = true := by simp [hreduced]
  rw [State.releaseActive, if_neg hfull]
  split <;> exact ⟨_, _, rfl⟩

theorem higherEpochRelease_releases (l : List (Nat × Nat)) (t : Nat) {why ep : Nat} {s : State} (hactive : s.isActive = true)
    (hrelease : s.twin.release = some (why, ep)) :
    exec (.higherEpochRelease l t) s = .next (((s.at t).canStarted l).releaseActive why) := by
  rw [exec_higherEpochRelease, execHigherEpochRelease, hrelease]
  exact congrArg Host.Outcome.next (if_pos hactive)

theorem higherEpochRelease_fences (l : List (Nat × Nat)) (t : Nat) {why ep : Nat} {s : State} (hactive : s.isActive = true)
    (hrelease : s.twin.release = some (why, ep)) (hreduced : s.on F.MOD_STATUS_REDUCED = false) :
    Steps (exec (.higherEpochRelease l t) s) fun u => u.tstate = 7 ∧ u.role = 0 ∧ u.epoch = s.epoch ∧
      u.get F.TWN_LAST_CHANGE_CAUSE = (if why = 0 then 8 else 9) ∧ u.twin.release = none ∧ u.mem = s.mem := by
  obtain ⟨hregs, hmem, -⟩ := (s.at t).canStarted_keeps l
  rw [higherEpochRelease_releases l t hactive hrelease]
  generalize (s.at t).canStarted l = v at hregs hmem
  have hget (f : Fld) : v.get f = s.get f := State.get_of_regs hregs f
  have hepoch : v.epoch = s.epoch := by rw [State.epoch_eq_get, hget, ← State.epoch_eq_get]
  obtain ⟨code, data, hfences⟩ := v.releaseActive_fences why (by rwa [State.on, hget])
  rw [hfences]
  obtain ⟨hstands, hcause⟩ := (v.tw fun u => { u with switch := none, owed := none, release := none }).fenced_shows
    (cause := if why = 0 then 8 else 9) code data (by split <;> decide)
  have hmove := (v.tw fun u => { u with switch := none, owed := none, release := none }).fenced_move
    (if why = 0 then 8 else 9) code data
  exact ⟨_, rfl, hstands.tstate, hstands.role, hstands.epoch.trans hepoch, hcause, hmove.release, hmove.mem.trans hmem⟩

theorem higherEpochRelease_none (l : List (Nat × Nat)) (t : Nat) {s : State} (h : s.twin.release = none) :
    exec (.higherEpochRelease l t) s = .next (s.at t) := by
  rw [exec_higherEpochRelease, execHigherEpochRelease, h]

/-! ## The takeover (09 R449) -/

/-- The counts of role changes. -/
def switchFlds : List Fld := [F.TWN_SWITCHES_TAKEOVERS, F.TWN_SWITCHES_PLANNED]

/-- A standby becomes the active, with the cause and the count of its change. -/
def State.promoted (s : State) (cause : Nat) (count : Fld) : State :=
  (((s.setT 1).cause cause).bump count 1).assumeRole

theorem State.promoted_move (s : State) (cause : Nat) {count : Fld} (hcount : count ∈ switchFlds) :
    RoleMove s (s.promoted cause count) (causeFlds ++ switchFlds ++ resourceFlds) := by
  have hcause : RoleMove s ((s.setT 1).cause cause) (causeFlds ++ switchFlds ++ resourceFlds) :=
    (RoleMove.refl s _).trans (s.setT_cause_move 1 cause) (by decide)
  exact (hcause.put _ (List.mem_append_left _ (List.mem_append_right _ hcount))).trans (State.assumeRole_move _) (by decide)

theorem State.promoted_shows (s : State) {cause : Nat} {count : Fld} (hcause : cause < 16) (hcount : count ∈ switchFlds) :
    (s.promoted cause count).Stands 1 s.epoch ∧ (s.promoted cause count).get F.TWN_LAST_CHANGE_CAUSE = cause := by
  have hbump : SameFlds ((s.setT 1).cause cause) (((s.setT 1).cause cause).bump count 1) switchFlds :=
    (SameFlds.refl _ _).put _ hcount
  have hrole := (((s.setT 1).cause cause).bump count 1).assumeRole_move
  refine ⟨((s.setT_cause_stands cause (by decide)).move hbump (by decide)).move hrole.flds (by decide), ?_⟩
  exact (hrole.flds _ (by decide)).trans ((hbump _ (by decide)).trans (State.cause_shown _ hcause))

theorem State.promoted_takeovers (s : State) (cause : Nat) :
    (s.promoted cause F.TWN_SWITCHES_TAKEOVERS).get F.TWN_SWITCHES_TAKEOVERS =
      min (s.get F.TWN_SWITCHES_TAKEOVERS + 1) 65535 := by
  rw [State.promoted, (State.assumeRole_move _).flds _ (by decide), State.get_bump_same _ _ (by decide),
    (s.setT_cause_move 1 cause).flds _ (by decide)]
  rfl

/-- The standby that lost its active outside a handover takes the role with the next epoch. -/
theorem State.takeover_lost {s : State} {c : Nat} (hlost : s.twin.lost = some c) (hho : s.handover = false) : s.takeover =
    ((s.tw fun u => { u with lost := none, switch := none, switchTo := none }).setEpoch (s.epoch + 1)).promoted c
      F.TWN_SWITCHES_TAKEOVERS := by
  have hkeep : ¬ (s.tw fun u => { u with lost := none, switch := none, switchTo := none }).handover = true := by
    change ¬ s.handover = true
    rw [hho]
    decide
  rw [State.takeover, hlost]
  dsimp only
  rw [if_neg hkeep]
  rfl

theorem State.takeover_shows {s : State} {c : Nat} (hc : c < 16) (hlost : s.twin.lost = some c) (hho : s.handover = false)
    (hfits : s.epoch + 1 < 2 ^ 32) : s.takeover.isActive = true ∧ s.takeover.epoch = s.epoch + 1 ∧
      s.takeover.get F.TWN_LAST_CHANGE_CAUSE = c ∧ s.takeover.twin.lost = none ∧
      s.takeover.get F.TWN_SWITCHES_TAKEOVERS = min (s.get F.TWN_SWITCHES_TAKEOVERS + 1) 65535 := by
  have hrise : (s.tw fun u => { u with lost := none, switch := none, switchTo := none }).epoch < s.epoch + 1 :=
    Nat.lt_succ_self _
  have hset := State.setEpoch_epoch hrise hfits
  obtain ⟨-, htwin, -, -, hflds⟩ :=
    (s.tw fun u => { u with lost := none, switch := none, switchTo := none }).setEpoch_keeps (s.epoch + 1)
  rw [State.takeover_lost hlost hho]
  generalize (s.tw fun u => { u with lost := none, switch := none, switchTo := none }).setEpoch (s.epoch + 1) = v at *
  obtain ⟨hstands, hcause⟩ := v.promoted_shows hc (count := F.TWN_SWITCHES_TAKEOVERS) (by decide)
  have hmove := v.promoted_move c (count := F.TWN_SWITCHES_TAKEOVERS) (by decide)
  refine ⟨hstands.isActive, hstands.epoch.trans hset, hcause, hmove.lost.trans (congrArg TwinState.lost htwin), ?_⟩
  rw [v.promoted_takeovers, hflds _ (by decide)]
  rfl

/-! ## LISTEN (09 R429) -/

theorem twnRejoin_listens {s : State} (h : s.tstate = 6 ∨ s.tstate = 8) : Steps (exec .twnRejoin s) fun u =>
    u.tstate = 0 ∧ u.role = 0 ∧ u.mem = s.mem := by
  refine ⟨_, (exec_twnRejoin s).trans (congrArg Host.Outcome.next (if_pos h)), ?_⟩
  have hstands := s.setT_stands (t := 0) (by decide)
  exact ⟨hstands.tstate, hstands.role, (s.setT_move 0).mem⟩

theorem twnRejoin_elsewhere {s : State} (h6 : s.tstate ≠ 6) (h8 : s.tstate ≠ 8) : exec .twnRejoin s = .next s :=
  (exec_twnRejoin s).trans (congrArg Host.Outcome.next (if_neg (not_or.2 ⟨h6, h8⟩)))

/-- The first active that a listening module hears on a ring, with no partner heard. -/
theorem State.ringHeard_first {s : State} (hlisten : s.tstate = 0) (hpartner : s.partnerHeard = false)
    (hraised : s.twin.raised7002 = false) : s.ringHeard true =
      (s.tw fun u => { u with ringActive := true, raised7002 := true }).raise 0x7002 islTwin [] := by
  have hfirst : ¬((s.tw fun u => { u with ringActive := true }).partnerHeard = true ∨
      (s.tw fun u => { u with ringActive := true }).twin.raised7002 = true) := by
    rintro (h | h)
    · exact absurd (hpartner.symm.trans h) (by decide)
    · exact absurd (hraised.symm.trans h) (by decide)
  rw [State.ringHeard, if_pos ⟨hlisten, rfl⟩]
  exact if_neg hfirst

theorem State.ringHeard_reports {s : State} (hlisten : s.tstate = 0) (hpartner : s.partnerHeard = false)
    (hraised : s.twin.raised7002 = false) (hroom : s.Room islTwin) : (s.ringHeard true).twin.ringActive = true ∧
      Raises s (s.ringHeard true) 0x7002 islTwin [] ∧ (s.ringHeard true).regs = s.regs := by
  have hroom' : (s.tw fun u => { u with ringActive := true, raised7002 := true }).Room islTwin := hroom
  rw [State.ringHeard_first hlisten hpartner hraised]
  exact ⟨congrArg TwinState.ringActive (State.raise_twin ..), Raises.raise hroom (State.tw_recd ..) _ _,
    State.raise_room_regs hroom' _ _⟩

/-- Settles O27: the claim out of LISTEN, the release of ACTIVE, the takeover and REJOIN each enter a twin state, and what follows the
entry touches neither state, role nor epoch. -/
theorem rolesTaken : Obligations.RolesTaken := by
  unfold Obligations.RolesTaken
  refine ⟨?recorded, ?unsure, ?waits, ?release, ?noRelease, ?takeover, ?rejoin, ?elsewhere, ?ring⟩
  case recorded =>
    intro t s hlisten himg hring hfox hbadger hdue hvalid hepochs hepoch hfits
    obtain ⟨hstands, hwords, hcause, hmem⟩ :=
      State.claim_recorded_shows (s := s.at t) false hvalid hepochs hepoch hfits
    exact ⟨_, listenTimeout_claims hlisten himg hring hfox hbadger hdue, hstands.tstate, hstands.isActive, hstands.epoch,
      hwords, hcause, hmem⟩
  case unsure =>
    intro t s hlisten himg hring hfox hbadger hdue hvalid hepochs hepoch
    obtain ⟨hstands, hunsure⟩ := State.claim_unsure_shows (s := s.at t) false hvalid hepochs hepoch
    exact ⟨_, listenTimeout_claims hlisten himg hring hfox hbadger hdue, hstands.isActive, hstands.epoch, hunsure⟩
  case waits => exact fun t s h => listenTimeout_waits h
  case release => exact fun l t why ep s hactive hrelease hreduced => higherEpochRelease_fences l t hactive hrelease hreduced
  case noRelease => exact fun l t s h => higherEpochRelease_none l t h
  case takeover => exact fun c s hc hlost hho hfits => State.takeover_shows hc hlost hho hfits
  case rejoin => exact fun s h => twnRejoin_listens h
  case elsewhere => exact fun s h6 h8 => twnRejoin_elsewhere h6 h8
  case ring => exact fun s hlisten hpartner hraised hroom => State.ringHeard_reports hlisten hpartner hraised hroom

end Sys2Proof.Machine
end

section
/-! Planned switchovers (09 R424, R459, R460, R462 to R464, R472; 19 R789). -/
namespace Sys2Proof.Machine

theorem exec_twnSwap (t : Nat) (s : State) : exec (.twnSwap t) s = .next ((s.at t).swap) := by rfl

theorem exec_switchRecordRx (b : List Byte) (c : Fin 16) (t : Nat) (s : State) :
    exec (.switchRecordRx b c t) s = execSwitchRecordRx b c t s := by rfl

theorem exec_switchAckRx (b : List Byte) (t : Nat) (s : State) :
    exec (.switchAckRx b t) s = execSwitchAckRx b t s := by rfl

theorem exec_switchAckMissing (t : Nat) (s : State) : exec (.switchAckMissing t) s = execSwitchAckMissing t s := by rfl

theorem exec_revertExpiry (t : Nat) (s : State) : exec (.revertExpiry t) s = execRevertExpiry t s := by rfl

theorem exec_moduleFault (f : Fin 4) (t : Nat) (s : State) :
    exec (.moduleFault f t) s = .next ((s.at t).moduleFault f.val) := by rfl

theorem exec_proofDue (t : Nat) (s : State) : exec (.proofDue t) s = execProofDue t s := by rfl

/-! ## Fox words heard in a settled twin state (09 R429, R438, R440, R455) -/

/-- What hearing the partner leaves: memory, what was sent, the instant, the switchover named. -/
structure Hears (s t : State) : Prop where
  mem : t.mem = s.mem
  out : t.out = s.out
  now : t.now = s.now
  switch : t.twin.switch = s.twin.switch

theorem Hears.refl (s : State) : Hears s s := ⟨rfl, rfl, rfl, rfl⟩

theorem Hears.trans {s t u : State} (h1 : Hears s t) (h2 : Hears t u) : Hears s u :=
  ⟨h2.mem.trans h1.mem, h2.out.trans h1.out, h2.now.trans h1.now, h2.switch.trans h1.switch⟩

theorem Hears.raise {s t : State} (code isl : Nat) (data : List Byte) (h : Hears s t) : Hears s (t.raise code isl data) :=
  h.trans ⟨State.raise_mem .., State.raise_out .., State.raise_now .., congrArg TwinState.switch (State.raise_twin ..)⟩

theorem State.twinShow_hears (s : State) : Hears s s.twinShow := ⟨rfl, rfl, rfl, rfl⟩

theorem State.setEpoch_hears (s : State) (e : Nat) : Hears s (s.setEpoch e) := by
  obtain ⟨hmem, htwin, hout, hnow, -⟩ := s.setEpoch_keeps e
  exact ⟨hmem, hout, hnow, congrArg TwinState.switch htwin⟩

theorem State.endSuspect_hears (s : State) : Hears s s.endSuspect := by
  unfold State.endSuspect
  split
  · exact Hears.raise _ _ _ ⟨rfl, rfl, rfl, rfl⟩
  · exact Hears.refl s

/-- What a fox word shows of the partner, and of its path. -/
def notedFlds : List Fld := [F.TWN_STATUS_FOX_OK, F.TWN_STATUS_PARTNER_TSTATE, F.TWN_PARTNER_EPOCH_EPOCH] ++ lostFlds

theorem State.pathUp_hears (s : State) (f : Fld) (ever : Bool) : Hears s (s.pathUp f ever) := by
  unfold State.pathUp
  split
  · exact Hears.refl s
  · split
    · exact Hears.raise _ _ _ ⟨rfl, rfl, rfl, rfl⟩
    · exact ⟨rfl, rfl, rfl, rfl⟩

theorem State.pathUp_flds (s : State) (ever : Bool) : SameFlds s (s.pathUp F.TWN_STATUS_FOX_OK ever) notedFlds := by
  have hput : SameFlds s (s.put F.TWN_STATUS_FOX_OK 1) notedFlds := (SameFlds.refl s _).put _ (by decide)
  unfold State.pathUp
  split
  · exact SameFlds.refl s _
  · split
    · exact hput.raise _ _ _ (by decide)
    · exact hput

/-- Outside the noted epochs of a listening, hearing is of the twin unit alone. -/
theorem State.listen_regs (s : State) (e : Nat) : (s.listen e).regs = s.regs ∧ Hears s (s.listen e) := by
  unfold State.listen
  split
  · exact ⟨rfl, rfl, rfl, rfl, rfl⟩
  · exact ⟨rfl, Hears.refl s⟩

theorem State.seeEpoch_regs (s : State) (path e : Nat) (claims : Bool) :
    (s.seeEpoch path e claims).regs = s.regs ∧ Hears s (s.seeEpoch path e claims) := by
  have hself : s.regs = s.regs ∧ Hears s s := ⟨rfl, Hears.refl s⟩
  unfold State.seeEpoch
  split
  · exact hself
  · split
    · exact ⟨rfl, rfl, rfl, rfl, rfl⟩
    · split
      · split
        · split
          · exact hself
          · exact ⟨rfl, rfl, rfl, rfl, rfl⟩
        · exact ⟨rfl, rfl, rfl, rfl, rfl⟩
      · exact hself

/-- What a fox word shows, with what its epoch demands of an active. -/
def State.foxSeen (s : State) (w : FoxWord) (step : Nat) : State :=
  (s.noteFox w step).seeEpoch 1 w.epoch (bitOf w.flags 0)

/-- What is noted of the partner in the twin unit and shown of its state and epoch. -/
theorem State.noted_shows (v : State) {f : TwinState → TwinState} (hf : (f v.twin).switch = v.twin.switch) (e p : Nat) :
    Hears v ((((v.tw f).listen e).put F.TWN_STATUS_PARTNER_TSTATE p).wrN R.TWN_PARTNER_EPOCH e) ∧
      SameFlds v ((((v.tw f).listen e).put F.TWN_STATUS_PARTNER_TSTATE p).wrN R.TWN_PARTNER_EPOCH e) notedFlds := by
  obtain ⟨hregs, hhears⟩ := (v.tw f).listen_regs e
  have htw : Hears v (v.tw f) := ⟨rfl, rfl, rfl, hf⟩
  refine ⟨(htw.trans hhears).trans ⟨rfl, rfl, rfl, rfl⟩, ?_⟩
  exact ((((SameFlds.refl v _).of_regs (State.tw_regs v f)).of_regs hregs).put _ (by decide)).wrN _ (by decide)

theorem State.noteFox_seen (s : State) (w : FoxWord) (step : Nat) :
    Hears s (s.noteFox w step) ∧ SameFlds s.endSuspect (s.noteFox w step) notedFlds := by
  have hup := s.endSuspect.pathUp_hears F.TWN_STATUS_FOX_OK s.twin.everFox
  have hflds := s.endSuspect.pathUp_flds s.twin.everFox
  unfold State.noteFox
  dsimp only
  generalize s.endSuspect.pathUp F.TWN_STATUS_FOX_OK s.twin.everFox = v at hup hflds
  refine (State.noted_shows v ?_ w.epoch w.tstate).imp (fun h => (s.endSuspect_hears.trans hup).trans h)
    fun h => hflds.trans h fun _ hf => hf
  rfl

theorem State.foxSeen_shows (s : State) (w : FoxWord) (step : Nat) :
    Hears s (s.foxSeen w step) ∧ SameFlds s.endSuspect (s.foxSeen w step) notedFlds := by
  obtain ⟨hregs, hhears⟩ := (s.noteFox w step).seeEpoch_regs 1 w.epoch (bitOf w.flags 0)
  obtain ⟨hnoted, hflds⟩ := s.noteFox_seen w step
  exact ⟨hnoted.trans hhears, hflds.of_regs hregs⟩

/-- Role and twin state are as they were. -/
theorem State.foxSeen_state (s : State) (w : FoxWord) (step : Nat) :
    (s.foxSeen w step).tstate = s.tstate ∧ (s.foxSeen w step).role = s.role := by
  have hflds := (s.foxSeen_shows w step).2
  exact ⟨(hflds _ (by decide)).trans (s.endSuspect_move.flds _ (by decide)),
    (hflds _ (by decide)).trans (s.endSuspect_move.flds _ (by decide))⟩

/-- A module that is ACTIVE or MATCHED neither joins nor claims on what it hears (09 R429). -/
theorem State.hear_settled {s : State} (h : s.tstate = 1 ∨ s.tstate = 3) (inListen claims : Bool) (ident : Option (List Byte))
    (fox : Bool) : s.hear inListen claims ident fox = s := by
  unfold State.hear
  split
  · rfl
  · rcases h with h | h <;> simp [h]

theorem State.foxHear_settled {s : State} (h : s.tstate = 1 ∨ s.tstate = 3) (w : FoxWord) (step : Nat) :
    s.foxHear w step = ((s.foxSeen w step).followEpoch (bitOf w.flags 0) w.epoch).partnerBack w := by
  have hstate : (s.foxSeen w step).tstate = 1 ∨ (s.foxSeen w step).tstate = 3 := by rwa [(s.foxSeen_state w step).1]
  rw [State.foxHear, ← State.foxSeen, State.hear_settled hstate]

/-- The epoch that a standby follows (09 R424). -/
theorem State.followEpoch_shows (s : State) (claims : Bool) (e : Nat) :
    Hears s (s.followEpoch claims e) ∧ SameFlds s (s.followEpoch claims e) [F.TWN_EPOCH_EPOCH] := by
  unfold State.followEpoch
  split
  · exact ⟨s.setEpoch_hears e, (s.setEpoch_keeps e).2.2.2.2⟩
  · exact ⟨Hears.refl s, SameFlds.refl s _⟩

/-- The close of a handover window leaves the role (02 R101). -/
theorem State.hoClose_shows (s : State) (code : Nat) : Hears s (s.hoClose code) ∧ (s.hoClose code).role = s.role := by
  refine ⟨Hears.raise _ _ _ ?_, (State.get_raise _ _ _ _ (by decide) (by decide)).trans ?_⟩
  · refine Hears.trans ?_ (State.twinShow_hears _)
    rw [State.showNv_eq]
    exact ⟨rfl, rfl, rfl, rfl⟩
  · exact ((State.twinShow_move _).flds _ (by decide)).trans (State.showNv_role _)

theorem State.partnerBack_shows (s : State) (w : FoxWord) : Hears s (s.partnerBack w) ∧ (s.partnerBack w).role = s.role := by
  unfold State.partnerBack
  split
  · exact s.hoClose_shows 0x1033
  · exact ⟨Hears.refl s, rfl⟩

theorem State.partnerBack_standby {s : State} (w : FoxWord) (h : s.role = 2) : s.partnerBack w = s :=
  if_neg fun ⟨hactive, _⟩ => absurd (h.symm.trans (of_decide_eq_true hactive)) (by decide)

/-- What a fox word leaves of a module that is ACTIVE or MATCHED. -/
theorem State.foxHear_hears {s : State} (h : s.tstate = 1 ∨ s.tstate = 3) (w : FoxWord) (step : Nat) :
    Hears s (s.foxHear w step).twinShow ∧ (s.foxHear w step).twinShow.role = s.role := by
  obtain ⟨hseen, -⟩ := s.foxSeen_shows w step
  obtain ⟨hfollow, hflds⟩ := (s.foxSeen w step).followEpoch_shows (bitOf w.flags 0) w.epoch
  obtain ⟨hback, hrole⟩ := ((s.foxSeen w step).followEpoch (bitOf w.flags 0) w.epoch).partnerBack_shows w
  rw [State.foxHear_settled h]
  refine ⟨((hseen.trans hfollow).trans hback).trans (State.twinShow_hears _), ?_⟩
  refine ((State.twinShow_move _).flds _ (by decide)).trans (hrole.trans ?_)
  exact (hflds _ (by decide)).trans (s.foxSeen_state w step).2

/-- What a fox word shows to a MATCHED standby. -/
def followedFlds : List Fld := F.TWN_EPOCH_EPOCH :: notedFlds ++ shownFlds

/-- A MATCHED standby that hears a fox word is in SUSPECT no longer; beside that only the partner, its path and the epoch that it
follows are shown. -/
theorem State.foxHear_standby {s : State} (hrole : s.role = 2) (hmatched : s.tstate = 3) (w : FoxWord) (step : Nat) :
    SameFlds s.endSuspect (s.foxHear w step).twinShow followedFlds := by
  obtain ⟨-, hseen⟩ := s.foxSeen_shows w step
  obtain ⟨-, hflds⟩ := (s.foxSeen w step).followEpoch_shows (bitOf w.flags 0) w.epoch
  have hstandby : ((s.foxSeen w step).followEpoch (bitOf w.flags 0) w.epoch).role = 2 :=
    (hflds _ (by decide)).trans ((s.foxSeen_state w step).2.trans hrole)
  rw [State.foxHear_settled (.inr hmatched), State.partnerBack_standby w hstandby]
  have hnoted : SameFlds s.endSuspect (s.foxSeen w step) followedFlds := (SameFlds.refl _ _).trans hseen (by decide)
  exact (hnoted.trans hflds (by decide)).trans (State.twinShow_move _).flds (by decide)

/-- A fox word of a kind that is taken while PD8 is powered (09 R438). -/
theorem State.foxIn_taken {s : State} {b : List Byte} {kinds : List Nat} {f : FoxWord → State} {w : FoxWord}
    (hparse : FoxWord.parse b = some w) (hpd : s.pd 8 = true) (hkind : kinds.contains w.kind = true) :
    s.foxIn b kinds f = f w := by
  rw [State.foxIn, hparse]
  exact if_pos (by rw [hpd, hkind]; rfl)

/-! ## Switch records (09 R459) -/

/-- A fox word is read off the registers outside TWN_CTL, the note of the failing message and the running image. -/
theorem State.foxWord_congr {s t : State} (hregs : SameRegs s t [R.TWN_CTL]) (hfailing : t.twin.failing = s.twin.failing)
    (himg : t.img = s.img) (kind at_ : Nat) : t.foxWord kind at_ = s.foxWord kind at_ := by
  have hget {f : Fld} (hf : ¬ f.off ∈ [R.TWN_CTL]) : t.get f = s.get f := congrArg (getBits · f.lo f.len) (hregs _ hf)
  have htstate : t.tstate = s.tstate := hget (by decide)
  have hactive : t.isActive = s.isActive := by rw [State.isActive, State.role, hget (by decide), State.isActive, State.role]
  have hepoch : t.epoch = s.epoch := congrArg BitVec.toNat (hregs _ (by decide))
  have hcount : t.count = s.count := by
    rw [State.count, State.rd64, hregs _ (by decide), hregs _ (by decide), State.count, State.rd64]
  have hflags : t.foxFlags = s.foxFlags := by
    rw [State.foxFlags, State.foxFlags, hactive, hfailing, State.twinB, State.twinB]
    simp only [State.on]
    rw [hget (f := F.TWN_STATUS_HOME) (by decide), hget (f := F.TWN_STATUS_SUSPECT) (by decide),
      hget (f := F.TWN_STATUS_TWIN_B) (by decide)]
  rw [State.foxWord, State.fox, htstate, hflags, hepoch, hcount, State.image, himg]
  rfl

theorem State.nameSwitch_shows (s : State) (w : Switch) : (s.nameSwitch w).twin = { s.twin with switch := some w } ∧
    (s.nameSwitch w).get F.TWN_CTL_PENDING = 1 ∧ (s.nameSwitch w).out = s.out ++ [s.foxWord 4 w.at_] ∧
    (s.nameSwitch w).recd = s.recd ∧ SameRegs s (s.nameSwitch w) [R.TWN_CTL] :=
  ⟨rfl, State.get_put_same _ _ (by decide), rfl, rfl,
    SameRegs.of_regs rfl (SameRegs.put _ (by decide) (SameRegs.of_regs rfl (SameRegs.refl s _)))⟩

/-! ### SWAP (09 R462) -/

theorem State.swap_names {s : State} (hreason : s.swapReason = 0) (hnone : s.twin.switch = none) :
    s.swap = (s.put F.TWN_CTL_REFUSED 0).nameSwitch { at_ := boundaryAfter s.now 4, cause := 4 } := by
  have hfree : ¬ (s.put F.TWN_CTL_REFUSED 0).twin.switch.isSome = true := by
    rw [State.put_twin, hnone]
    decide
  rw [State.swap, if_pos hreason]
  exact if_neg hfree

theorem State.swap_refused {s : State} (hreason : s.swapReason ≠ 0) :
    s.swap = (s.put F.TWN_CTL_REFUSED 1).raise 0x7052 islTwin (le 4 s.swapReason) := if_neg hreason

theorem State.swap_names_shows {s : State} (hreason : s.swapReason = 0) (hnone : s.twin.switch = none) :
    s.swap.twin.switch = some { at_ := boundaryAfter s.now 4, cause := 4 } ∧ s.swap.get F.TWN_CTL_PENDING = 1 ∧
      s.swap.get F.TWN_CTL_REFUSED = 0 ∧ s.swap.out = s.out ++ [s.foxWord 4 (boundaryAfter s.now 4)] ∧
      SameRegs s s.swap [R.TWN_CTL] := by
  have hput : SameRegs s (s.put F.TWN_CTL_REFUSED 0) [R.TWN_CTL] := SameRegs.put _ (by decide) (SameRegs.refl s _)
  obtain ⟨htwin, hpending, hout, -, hregs⟩ :=
    (s.put F.TWN_CTL_REFUSED 0).nameSwitch_shows { at_ := boundaryAfter s.now 4, cause := 4 }
  rw [State.swap_names hreason hnone]
  refine ⟨congrArg TwinState.switch htwin, hpending, ?_, ?_, hput.trans hregs⟩
  · exact (State.get_put_ne _ _ (.inr (by decide))).trans (State.get_put_same _ _ (by decide))
  · rw [hout, State.foxWord_congr hput rfl rfl]
    rfl

theorem State.swap_refused_shows {s : State} (hreason : s.swapReason ≠ 0) (hroom : s.Room islTwin) :
    s.swap.get F.TWN_CTL_REFUSED = 1 ∧ Raises s s.swap 0x7052 islTwin (le 4 s.swapReason) ∧ s.swap.twin = s.twin ∧
      s.swap.out = s.out ∧ SameRegs s s.swap [R.TWN_CTL] := by
  have hroom' : (s.put F.TWN_CTL_REFUSED 1).Room islTwin := hroom
  rw [State.swap_refused hreason]
  refine ⟨?_, Raises.raise hroom (State.put_recd ..) _ _, State.raise_twin .., State.raise_out .., ?_⟩
  · exact (State.raise_room_get hroom' ..).trans (State.get_put_same _ _ (by decide))
  · exact SameRegs.of_regs (State.raise_room_regs hroom' ..) (SameRegs.put _ (by decide) (SameRegs.refl s _))

/-! ### The record and its acknowledgement -/

/-- A MATCHED standby outside SUSPECT acknowledges a boundary that lies ahead. -/
theorem State.switchRecord_ahead {s : State} {b : Nat} (cause : Nat) (hmatched : s.tstate = 3)
    (hsuspect : s.on F.TWN_STATUS_SUSPECT = false) (hahead : s.count < b) : s.switchRecord b cause =
    (((s.tw fun u => { u with switchTo := some b, switch := some { at_ := b, cause := cause, acked := true } }).put
      F.TWN_CTL_PENDING 1).send
      ((s.tw fun u => { u with switchTo := some b, switch := some { at_ := b, cause := cause, acked := true } }).foxWord 5 b)) := by
  simp [State.switchRecord, hmatched, hsuspect, hahead]

theorem State.switchRecord_past {s : State} {b : Nat} (cause : Nat) (hpast : b ≤ s.count) : s.switchRecord b cause = s :=
  if_neg fun ⟨_, _, hahead⟩ => absurd hahead (Nat.not_lt.2 hpast)

/-- What the standby's state is once it has heard the word of a switch record. -/
theorem State.foxHear_matched {s : State} (hmatched : s.tstate = 3) (hstandby : s.isStandby = true) (w : FoxWord) (step : Nat) :
    (s.foxHear w step).twinShow.tstate = 3 ∧ (s.foxHear w step).twinShow.on F.TWN_STATUS_SUSPECT = false ∧
      (s.foxHear w step).twinShow.count = s.count := by
  have hflds := State.foxHear_standby (of_decide_eq_true hstandby) hmatched w step
  have hsuspect := s.endSuspect_move.flds
  refine ⟨(hflds _ (by decide)).trans ((hsuspect _ (by decide)).trans hmatched), ?_, ?_⟩
  · rw [State.on, hflds _ (by decide)]
    exact s.endSuspect_off
  · rw [State.count, State.rd64, hflds.rd (by decide), hflds.rd (by decide), hsuspect.rd (by decide), hsuspect.rd (by decide)]
    rfl

theorem switchRecordRx_heard {b : List Byte} (c : Fin 16) (t : Nat) {w : FoxWord} {s : State}
    (hparse : FoxWord.parse b = some w) (hkind : w.kind = 4) (hpd : s.pd 8 = true) : exec (.switchRecordRx b c t) s =
      .next (((s.at t).foxHear w s.partnerStep).twinShow.switchRecord w.switchAt c.val) := by
  rw [exec_switchRecordRx, execSwitchRecordRx]
  exact congrArg Host.Outcome.next (State.foxIn_taken (s := s.at t) hparse hpd (by rw [hkind]; rfl))

theorem switchRecordRx_ahead {b : List Byte} (c : Fin 16) (t : Nat) {w : FoxWord} {s : State}
    (hparse : FoxWord.parse b = some w) (hkind : w.kind = 4) (hpd : s.pd 8 = true) (hmatched : s.tstate = 3)
    (hstandby : s.isStandby = true) (hahead : s.count < w.switchAt) :
    Steps (exec (.switchRecordRx b c t) s) fun u => u.twin.switchTo = some w.switchAt ∧
      u.twin.switch = some { at_ := w.switchAt, cause := c.val, acked := true } ∧
      u.out = s.out ++ [u.foxWord 5 w.switchAt] ∧ u.get F.TWN_CTL_PENDING = 1 ∧ u.mem = s.mem := by
  obtain ⟨hhears, -⟩ := State.foxHear_hears (s := s.at t) (.inr hmatched) w s.partnerStep
  obtain ⟨hstate, hsuspect, hcount⟩ := State.foxHear_matched (s := s.at t) hmatched hstandby w s.partnerStep
  rw [switchRecordRx_heard c t hparse hkind hpd]
  generalize ((s.at t).foxHear w s.partnerStep).twinShow = v at hhears hstate hsuspect hcount
  refine ⟨_, congrArg Host.Outcome.next (State.switchRecord_ahead c.val hstate hsuspect (hcount ▸ hahead)), rfl, rfl, ?_,
    State.get_put_same _ _ (by decide), hhears.mem⟩
  refine (congrArg (· ++ [_]) hhears.out).trans (congrArg (fun o => s.out ++ [o]) (Eq.symm ?_))
  exact State.foxWord_congr (SameRegs.of_regs rfl (SameRegs.put _ (by decide) (SameRegs.refl _ _))) rfl rfl 5 _

theorem switchRecordRx_past {b : List Byte} (c : Fin 16) (t : Nat) {w : FoxWord} {s : State}
    (hparse : FoxWord.parse b = some w) (hkind : w.kind = 4) (hpd : s.pd 8 = true) (hmatched : s.tstate = 3)
    (hstandby : s.isStandby = true) (hpast : w.switchAt ≤ s.count) :
    Steps (exec (.switchRecordRx b c t) s) fun u => u.twin.switch = s.twin.switch ∧ u.out = s.out := by
  obtain ⟨hhears, -⟩ := State.foxHear_hears (s := s.at t) (.inr hmatched) w s.partnerStep
  obtain ⟨-, -, hcount⟩ := State.foxHear_matched (s := s.at t) hmatched hstandby w s.partnerStep
  refine ⟨_, switchRecordRx_heard c t hparse hkind hpd, ?_⟩
  rw [State.switchRecord_past _ (hcount ▸ hpast)]
  exact ⟨hhears.switch, hhears.out⟩

/-- The acknowledgement of the boundary named, 62.5 µs before it at the latest. -/
theorem State.switchAck_timely {s : State} {q : Switch} (hswitch : s.twin.switch = some q) (hactive : s.isActive = true)
    (htimely : s.now + 62500 ≤ boundaryNs q.at_) :
    s.switchAck q.at_ = s.tw fun u => { u with switch := some { q with acked := true } } := by
  rw [State.switchAck, hswitch]
  exact if_pos ⟨hactive, rfl, htimely⟩

theorem switchAckRx_timely {b : List Byte} (t : Nat) {w : FoxWord} {q : Switch} {s : State}
    (hparse : FoxWord.parse b = some w) (hkind : w.kind = 5) (hpd : s.pd 8 = true) (hswitch : s.twin.switch = some q)
    (hactive : s.isActive = true) (hstate : s.tstate = 1) (hat : q.at_ = w.switchAt)
    (htimely : max s.now t + 62500 ≤ boundaryNs q.at_) : Steps (exec (.switchAckRx b t) s) fun u =>
      u.twin.switch = some { q with acked := true } ∧ u.isActive = true ∧ u.out = s.out ∧ u.mem = s.mem := by
  obtain ⟨hhears, hrole⟩ := State.foxHear_hears (s := s.at t) (.inl hstate) w s.partnerStep
  have hexec : exec (.switchAckRx b t) s = .next (((s.at t).foxHear w s.partnerStep).twinShow.switchAck q.at_) := by
    rw [exec_switchAckRx, execSwitchAckRx, hat]
    exact congrArg Host.Outcome.next (State.foxIn_taken (s := s.at t) hparse hpd (by rw [hkind]; rfl))
  rw [hexec]
  generalize ((s.at t).foxHear w s.partnerStep).twinShow = v at hhears hrole
  have hv : v.isActive = true := decide_eq_true (hrole.trans (of_decide_eq_true hactive))
  refine ⟨_, congrArg Host.Outcome.next (State.switchAck_timely (hhears.switch.trans hswitch) hv ?_), rfl, hv, hhears.out,
    hhears.mem⟩
  rw [hhears.now]
  exact htimely

/-- A switchover is cancelled, with its event. -/
def State.cancelled (s : State) : State :=
  ((s.tw fun u => { u with switch := none, switchTo := none }).put F.TWN_CTL_PENDING 0).raise 0x7051 islTwin []

theorem State.cancelled_shows {s : State} (hroom : s.Room islTwin) : s.cancelled.get F.TWN_CTL_PENDING = 0 ∧
    Raises s s.cancelled 0x7051 islTwin [] ∧ SameRegs s s.cancelled [R.TWN_CTL] := by
  have hroom' : ((s.tw fun u => { u with switch := none, switchTo := none }).put F.TWN_CTL_PENDING 0).Room islTwin := hroom
  refine ⟨?_, Raises.raise hroom ((State.put_recd ..).trans (State.tw_recd ..)) _ _, ?_⟩
  · exact (State.raise_room_get hroom' ..).trans (State.get_put_same _ _ (by decide))
  · exact SameRegs.of_regs (State.raise_room_regs hroom' ..)
      (SameRegs.put _ (by decide) (SameRegs.of_regs (State.tw_regs ..) (SameRegs.refl s _)))

theorem State.cancelled_parts (s : State) : s.cancelled.twin.switch = none ∧ s.cancelled.out = s.out ∧
    s.cancelled.panel = s.panel :=
  ⟨congrArg TwinState.switch (State.raise_twin ..), State.raise_out .., State.raise_panel ..⟩

/-- No acknowledgement 62.5 µs before the boundary cancels a switchover that nothing else hangs on. -/
theorem switchAckMissing_cancels {t : Nat} {w : Switch} {s : State} (hswitch : s.twin.switch = some w)
    (hactive : s.isActive = true) (hacked : w.acked = false) (hlate : boundaryNs w.at_ ≤ max s.now t + 62500)
    (hrestart : w.thenRestart = none) (hbutton : s.panel.byButton = false) (hho : w.ho = false) (hdiverge : w.diverge = false) :
    exec (.switchAckMissing t) s = .next (s.at t).cancelled := by
  have hdue : ¬(((s.at t).isActive = true ∧ w.acked = true) ∨ (s.at t).now + 62500 < boundaryNs w.at_) := by
    rintro (⟨-, h⟩ | h)
    · exact absurd (hacked.symm.trans h) (by decide)
    · exact absurd h (Nat.not_lt.2 hlate)
  have hstill : ¬ (!(s.at t).isActive) = true := by
    change ¬ (!s.isActive) = true
    rw [hactive]
    decide
  have hpanel : ¬ (s.at t).cancelled.panel.byButton = true := by
    rw [(s.at t).cancelled_parts.2.2]
    exact Bool.eq_false_iff.1 hbutton
  rw [exec_switchAckMissing, execSwitchAckMissing, State.at_twin, hswitch]
  dsimp only
  rw [if_neg hdue, if_neg hstill, ← State.cancelled, hrestart, hho, hdiverge]
  generalize (s.at t).cancelled = v at hpanel
  rw [if_neg (c := (none : Option Nat) = some 3) (by decide), if_neg hpanel, if_neg (by decide), if_neg (by decide)]

theorem switchAckMissing_shows {t : Nat} {w : Switch} {s : State} (hswitch : s.twin.switch = some w)
    (hactive : s.isActive = true) (hacked : w.acked = false) (hlate : boundaryNs w.at_ ≤ max s.now t + 62500)
    (hrestart : w.thenRestart = none) (hbutton : s.panel.byButton = false) (hho : w.ho = false) (hdiverge : w.diverge = false)
    (hroom : s.Room islTwin) : Steps (exec (.switchAckMissing t) s) fun u => u.twin.switch = none ∧
      u.get F.TWN_CTL_PENDING = 0 ∧ Raises s u 0x7051 islTwin [] ∧ u.isActive = true ∧ u.out = s.out ∧
      SameRegs s u [R.TWN_CTL] := by
  obtain ⟨hpending, hraises, hregs⟩ := State.cancelled_shows (s := s.at t) hroom
  obtain ⟨hnone, hout, -⟩ := (s.at t).cancelled_parts
  refine ⟨_, switchAckMissing_cancels hswitch hactive hacked hlate hrestart hbutton hho hdiverge, ?_⟩
  generalize (s.at t).cancelled = v at hpending hraises hregs hnone hout
  have hrole : v.role = s.role := congrArg (getBits · _ _) (hregs _ (by decide))
  exact ⟨hnone, hpending, hraises, decide_eq_true (hrole.trans (of_decide_eq_true hactive)), hout, hregs⟩

end Sys2Proof.Machine
end

section
/-! Planned switchovers at their boundary, and what the active is led to name by the revert timer and by a module fault
(09 R424, R460, R463, R464, R472; 19 R789). -/
namespace Sys2Proof.Machine

/-! ## The boundary (09 R424, R460) -/

theorem State.switchAt_in {s : State} {w : Switch} (hswitch : s.twin.switch = some w) (hactive : s.isActive = false)
    (hto : s.twin.switchTo = some w.at_) : s.switchAt w.at_ = s.switchIn w := by
  have hkeep : ¬ (s.isActive = true ∧ w.acked = true) := fun h => absurd (hactive.symm.trans h.1) (by decide)
  rw [State.switchAt, hswitch]
  dsimp only
  rw [if_neg (not_not_intro rfl), if_neg hkeep, if_pos hto]

theorem State.switchAt_out {s : State} {w : Switch} (hswitch : s.twin.switch = some w) (hactive : s.isActive = true)
    (hacked : w.acked = true) : s.switchAt w.at_ = s.switchOut w := by
  rw [State.switchAt, hswitch]
  dsimp only
  rw [if_neg (not_not_intro rfl), if_pos ⟨hactive, hacked⟩]

/-- Outside a handover the standby takes the next epoch and the role. -/
theorem State.switchIn_promotes {s : State} {w : Switch} (hho : s.nv.hoState ≠ 4) : s.switchIn w =
    (((s.tw fun u => { u with switch := none, switchTo := none }).setEpoch (s.epoch + 1)).promoted w.cause
      F.TWN_SWITCHES_PLANNED).raise 0x7050 islTwin (le 4 w.cause) := if_neg hho

theorem State.switchIn_shows {s : State} {w : Switch} (hcause : w.cause < 16) (hho : s.nv.hoState ≠ 4)
    (hfits : s.epoch + 1 < 2 ^ 32) : (s.switchIn w).isActive = true ∧ (s.switchIn w).epoch = s.epoch + 1 ∧
      (s.switchIn w).get F.TWN_LAST_CHANGE_CAUSE = w.cause ∧ (s.switchIn w).twin.switch = none := by
  have hrise : (s.tw fun u => { u with switch := none, switchTo := none }).epoch < s.epoch + 1 := Nat.lt_succ_self _
  have hset := State.setEpoch_epoch hrise hfits
  obtain ⟨-, htwin, -⟩ := (s.tw fun u => { u with switch := none, switchTo := none }).setEpoch_keeps (s.epoch + 1)
  have hnone := congrArg TwinState.switch htwin
  rw [State.switchIn_promotes hho]
  generalize (s.tw fun u => { u with switch := none, switchTo := none }).setEpoch (s.epoch + 1) = v at hset hnone
  obtain ⟨hstands, hshown⟩ := v.promoted_shows hcause (count := F.TWN_SWITCHES_PLANNED) (by decide)
  have hmove := v.promoted_move w.cause (count := F.TWN_SWITCHES_PLANNED) (by decide)
  have hraise := (RoleMove.refl (v.promoted w.cause F.TWN_SWITCHES_PLANNED) lostFlds).raise 0x7050 islTwin (le 4 w.cause)
    fun _ hf => hf
  have hfinal := hstands.move hraise.flds (by decide)
  exact ⟨hfinal.isActive, hfinal.epoch.trans hset, (hraise.flds _ (by decide)).trans hshown,
    hraise.switch.trans (hmove.switch.trans hnone)⟩

/-- A module leaves the active role at the boundary of a planned switchover, with its event. -/
def State.demoted (s : State) (cause : Nat) : State :=
  ((((s.setT 3).cause cause).bump F.TWN_SWITCHES_PLANNED 1).dropRole).raise 0x7050 islTwin (le 4 cause)

theorem State.demoted_stands (s : State) (cause : Nat) : (s.demoted cause).Stands 3 s.epoch := by
  have hbump : SameFlds ((s.setT 3).cause cause) (((s.setT 3).cause cause).bump F.TWN_SWITCHES_PLANNED 1) switchFlds :=
    (SameFlds.refl _ _).put _ (by decide)
  have hdrop := (((s.setT 3).cause cause).bump F.TWN_SWITCHES_PLANNED 1).dropRole_move
  refine (((s.setT_cause_stands cause (by decide)).move hbump (by decide)).move hdrop.flds (by decide)).move
    (l := lostFlds) ?_ (by decide)
  exact (SameFlds.refl _ _).raise _ _ _ fun _ hf => hf

theorem State.switchOut_demotes {s : State} {w : Switch} (hdiverge : w.diverge = false) (hho : w.ho = false) : s.switchOut w =
    ((s.tw fun u => { u with switch := none, owed := none }).demoted w.cause).tw
      fun u => { u with outgoing := some w.thenRestart } := by
  rw [State.switchOut, hdiverge, hho]
  rfl

theorem State.switchOut_shows {s : State} {w : Switch} (hdiverge : w.diverge = false) (hho : w.ho = false) :
    (s.switchOut w).tstate = 3 ∧ (s.switchOut w).isStandby = true ∧ (s.switchOut w).epoch = s.epoch ∧
      (s.switchOut w).twin.outgoing = some w.thenRestart := by
  have hstands := (s.tw fun u => { u with switch := none, owed := none }).demoted_stands w.cause
  rw [State.switchOut_demotes hdiverge hho]
  generalize (s.tw fun u => { u with switch := none, owed := none }).demoted w.cause = v at hstands
  exact ⟨hstands.tstate, decide_eq_true hstands.role, hstands.epoch, rfl⟩

/-! ## The revert timer (09 R463) -/

theorem State.get_twinShow (s : State) {f : Fld} (hf : f.clearOf shownFlds = true) : s.twinShow.get f = s.get f :=
  s.twinShow_move.flds f hf

/-- A timer that runs keeps the instant from which it runs, and begins at this one if it stood. -/
theorem State.twinShow_revertFrom (s : State) : s.twinShow.twin.revertFrom =
    if s.revertRuns then some (s.twin.revertFrom.getD s.now) else none := by
  unfold State.twinShow
  cases s.twin.revertFrom <;> rfl

/-- The timer of the module that is ACTIVE away from home. -/
theorem State.revertRuns_away {s : State} (hhome : s.on F.TWN_STATUS_HOME = false) (hpartner : s.twin.partnerHome = true)
    (hstate : s.tstate = 1) (hmatched : s.ptstate = 3) (hrevert : s.on F.TWN_CFG_NO_REVERT = false)
    (hreduced : s.on F.TWN_STATUS_REDUCED = false) : s.revertRuns = true := by
  simp [State.revertRuns, hhome, hpartner, hstate, hmatched, hrevert, hreduced]

/-- The timer runs on while the home module is MATCHED and the other ACTIVE, revert enabled, outside a handover window. -/
theorem State.twinShow_runs {s : State} {f : Nat} (hruns : s.revertRuns = true) (hfrom : s.twin.revertFrom = some f) :
    s.twinShow.twin.revertFrom = some f := by
  rw [State.twinShow_revertFrom, if_pos hruns, hfrom, Option.getD_some]

/-- With NO_REVERT it does not run. -/
theorem State.twinShow_stopped {s : State} (hstop : s.on F.TWN_CFG_NO_REVERT = true) :
    s.twinShow.twin.revertFrom = none := by
  have hruns : s.revertRuns = false := by simp [State.revertRuns, hstop]
  rw [State.twinShow_revertFrom, if_neg (Bool.eq_false_iff.1 hruns)]

/-- The active that is not the home module names a switchover once the timer has run. -/
theorem revertExpiry_names {t f : Nat} {s : State} (hfrom : (s.at t).twinShow.twin.revertFrom = some f)
    (hdue : f + s.get F.TWN_CFG_REVERT_HOLD * 1000000000 ≤ max s.now t) (hactive : s.isActive = true)
    (hcan : (s.at t).twinShow.canSwitch = true) (hnone : s.twin.switch = none) : exec (.revertExpiry t) s =
    .next ((s.at t).twinShow.nameSwitch { at_ := boundaryAfter (max s.now t) 4, cause := 3 }) := by
  have hhold : (s.at t).twinShow.get F.TWN_CFG_REVERT_HOLD = s.get F.TWN_CFG_REVERT_HOLD := State.get_twinShow _ (by decide)
  have hrole : (s.at t).twinShow.role = s.role := State.get_twinShow _ (by decide)
  have hfree : (s.at t).twinShow.twin.switch = none := (s.at t).twinShow_move.switch.trans hnone
  have hnow : (s.at t).twinShow.now = max s.now t := (s.at t).twinShow_hears.now
  rw [exec_revertExpiry, execRevertExpiry]
  generalize (s.at t).twinShow = v at hfrom hcan hhold hrole hfree hnow
  rw [hfrom]
  dsimp only
  rw [hhold, hnow, hfree]
  exact congrArg Host.Outcome.next (if_pos ⟨hdue, decide_eq_true (hrole.trans (of_decide_eq_true hactive)), hcan, rfl⟩)

theorem revertExpiry_stopped {t : Nat} {s : State} (hfrom : (s.at t).twinShow.twin.revertFrom = none) :
    exec (.revertExpiry t) s = .next (s.at t).twinShow := by
  rw [exec_revertExpiry, execRevertExpiry, hfrom]

theorem State.canSwitch_iff {s : State} : s.canSwitch = true ↔ s.tstate = 1 ∧ s.ptstate = 3 ∧
    s.on F.TWN_STATUS_SUSPECT = false ∧ s.twin.partnerSuspect = false := by
  simp [State.canSwitch, State.noSuspect, and_assoc]

/-- A module in SUSPECT keeps the active from naming a switchover. -/
theorem State.canSwitch_suspect {s : State} (h : s.on F.TWN_STATUS_SUSPECT = true ∨ s.twin.partnerSuspect = true) :
    s.canSwitch = false := by
  rcases h with h | h <;> simp [State.canSwitch, State.noSuspect, h]

theorem State.twinShow_canSwitch (s : State) : s.twinShow.canSwitch = s.canSwitch := by
  have htstate : s.twinShow.tstate = s.tstate := s.get_twinShow (by decide)
  have hptstate : s.twinShow.ptstate = s.ptstate := s.get_twinShow (by decide)
  have hsuspect : s.twinShow.on F.TWN_STATUS_SUSPECT = s.on F.TWN_STATUS_SUSPECT := by
    rw [State.on, s.get_twinShow (by decide), State.on]
  rw [State.canSwitch, htstate, hptstate, State.noSuspect, hsuspect]
  rfl

/-! ## Module faults (09 R464; 19 R789) -/

/-- The switchover of a module fault: for B = F + 5, with a restart after it. -/
def State.faultSwitch (s : State) : Switch := { at_ := s.count + 5, cause := 6, thenRestart := some 6 }

/-- The module fault is shown. -/
def State.faulted (s : State) : State := s.put F.MOD_STATUS_MOD_FAULT 1

theorem State.faulted_regs (s : State) : SameRegs s s.faulted [R.MOD_STATUS] :=
  SameRegs.put _ (by decide) (SameRegs.refl s _)

theorem State.faulted_get (s : State) {f : Fld} (hf : ¬ f.off ∈ [R.MOD_STATUS]) : s.faulted.get f = s.get f :=
  congrArg (getBits · f.lo f.len) (s.faulted_regs _ hf)

theorem State.faulted_shown (s : State) : s.faulted.get F.MOD_STATUS_MOD_FAULT = 1 := State.get_put_same _ _ (by decide)

theorem State.faulted_role (s : State) : s.faulted.role = s.role := s.faulted_get (by decide)

theorem State.faulted_count (s : State) : s.faulted.count = s.count := by
  rw [State.count, State.rd64, s.faulted_regs _ (by decide), s.faulted_regs _ (by decide)]
  rfl

theorem State.faulted_canSwitch (s : State) : s.faulted.canSwitch = s.canSwitch := by
  rw [State.canSwitch, State.tstate, State.ptstate, State.noSuspect, State.on, s.faulted_get (by decide),
    s.faulted_get (by decide), s.faulted_get (by decide)]
  rfl

theorem State.modFaultEvent_shows {s v : State} (hroom : s.Room islTwin) (hrecd : v.recd = s.recd) (f r : Nat) :
    Raises s (v.modFaultEvent f r) 0x7070 islTwin (le 4 f ++ le 4 r) ∧ (v.modFaultEvent f r).twin = v.twin ∧
      (v.modFaultEvent f r).regs = v.regs := by
  have hroom' : v.Room islTwin := by rwa [State.Room, hrecd]
  exact ⟨Raises.raise hroom hrecd _ _, State.raise_twin .., State.raise_room_regs hroom' ..⟩

/-- A fault of the active with a MATCHED partner asks for a switchover. -/
theorem State.moduleFault_switches {s : State} (f : Nat) (hactive : s.isActive = true) (hmatched : s.ptstate = 3) :
    s.moduleFault f = (s.faulted.oweSwitch s.faultSwitch).modFaultEvent f 1 := by
  have hstill : s.faulted.isActive = true := decide_eq_true (s.faulted_role.trans (of_decide_eq_true hactive))
  have hpartner : s.faulted.ptstate = 3 := (s.faulted_get (by decide)).trans hmatched
  rw [State.moduleFault, ← State.faulted]
  dsimp only
  rw [if_pos hstill, if_pos (.inr hpartner), s.faulted_count, State.faultSwitch]

/-- Without one it runs on. -/
theorem State.moduleFault_runs {s : State} (f : Nat) (hactive : s.isActive = true) (hnone : s.twin.switch = none)
    (hmatched : s.ptstate ≠ 3) : s.moduleFault f = s.faulted.modFaultEvent f 2 := by
  have hstill : s.faulted.isActive = true := decide_eq_true (s.faulted_role.trans (of_decide_eq_true hactive))
  have halone : ¬ (s.faulted.twin.switch.isSome = true ∨ s.faulted.ptstate = 3) := by
    rintro (h | h)
    · rw [State.faulted, State.put_twin, hnone] at h
      exact absurd h (by decide)
    · exact hmatched ((s.faulted_get (by decide)).symm.trans h)
  rw [State.moduleFault, ← State.faulted]
  dsimp only
  rw [if_pos hstill, if_neg halone]

/-- What is asked for is named at once, or owed while a module is in SUSPECT. -/
theorem State.oweSwitch_names {s : State} (w : Switch) (hnone : s.twin.switch = none) (hcan : s.canSwitch = true) :
    s.oweSwitch w = s.nameSwitch w := by
  rw [State.oweSwitch, hnone]
  exact if_pos hcan

theorem State.oweSwitch_owes {s : State} (w : Switch) (hnone : s.twin.switch = none) (hcan : s.canSwitch = false) :
    s.oweSwitch w = s.tw fun u => { u with owed := some w } := by
  rw [State.oweSwitch, hnone]
  exact if_neg (Bool.eq_false_iff.1 hcan)

/-- A state after a fault that differs from the faulted one in TWN_CTL at most, with the event of the fault. -/
theorem State.modFaultEvent_faulted {s v : State} (f r : Nat) (hroom : s.Room islTwin) (hactive : s.isActive = true)
    (hrecd : v.recd = s.recd) (hregs : SameRegs s.faulted v [R.TWN_CTL]) :
    (v.modFaultEvent f r).on F.MOD_STATUS_MOD_FAULT = true ∧ (v.modFaultEvent f r).isActive = true ∧
      (v.modFaultEvent f r).twin = v.twin ∧ Raises s (v.modFaultEvent f r) 0x7070 islTwin (le 4 f ++ le 4 r) := by
  obtain ⟨hraises, htwin, hsame⟩ := State.modFaultEvent_shows hroom hrecd f r
  have hget {g : Fld} (hg : ¬ g.off ∈ [R.TWN_CTL]) : (v.modFaultEvent f r).get g = s.faulted.get g :=
    (State.get_of_regs hsame g).trans (congrArg (getBits · g.lo g.len) (hregs _ hg))
  refine ⟨?_, decide_eq_true ?_, htwin, hraises⟩
  · rw [State.on, hget (by decide), s.faulted_shown]
    rfl
  · exact (hget (by decide)).trans (s.faulted_role.trans (of_decide_eq_true hactive))

theorem State.moduleFault_names {s : State} (f : Nat) (hactive : s.isActive = true) (hmatched : s.ptstate = 3)
    (hnone : s.twin.switch = none) (hcan : s.canSwitch = true) (hroom : s.Room islTwin) :
    (s.moduleFault f).on F.MOD_STATUS_MOD_FAULT = true ∧ (s.moduleFault f).twin.switch = some s.faultSwitch ∧
      (s.moduleFault f).isActive = true ∧ Raises s (s.moduleFault f) 0x7070 islTwin (le 4 f ++ le 4 1) := by
  obtain ⟨htwin, -, -, hrecd, hregs⟩ := s.faulted.nameSwitch_shows s.faultSwitch
  rw [State.moduleFault_switches f hactive hmatched, State.oweSwitch_names (s := s.faulted) _ hnone (s.faulted_canSwitch.trans hcan)]
  obtain ⟨hshown, hstill, hsame, hraises⟩ := State.modFaultEvent_faulted f 1 hroom hactive hrecd hregs
  exact ⟨hshown, (congrArg TwinState.switch hsame).trans (congrArg TwinState.switch htwin), hstill, hraises⟩

theorem State.moduleFault_owes {s : State} (f : Nat) (hactive : s.isActive = true) (hmatched : s.ptstate = 3)
    (hnone : s.twin.switch = none) (hcan : s.canSwitch = false) (hroom : s.Room islTwin) :
    (s.moduleFault f).on F.MOD_STATUS_MOD_FAULT = true ∧ (s.moduleFault f).twin.switch = none ∧
      (s.moduleFault f).twin.owed = some s.faultSwitch ∧ (s.moduleFault f).isActive = true ∧
      Raises s (s.moduleFault f) 0x7070 islTwin (le 4 f ++ le 4 1) := by
  rw [State.moduleFault_switches f hactive hmatched, State.oweSwitch_owes (s := s.faulted) _ hnone (s.faulted_canSwitch.trans hcan)]
  obtain ⟨hshown, hstill, hsame, hraises⟩ := State.modFaultEvent_faulted f 1 hroom hactive
    (v := s.faulted.tw fun u => { u with owed := some s.faultSwitch }) ((State.tw_recd ..).trans (State.put_recd ..))
    (SameRegs.of_regs (State.tw_regs ..) (SameRegs.refl _ _))
  exact ⟨hshown, (congrArg TwinState.switch hsame).trans hnone, congrArg TwinState.owed hsame, hstill, hraises⟩

theorem State.moduleFault_alone {s : State} (f : Nat) (hactive : s.isActive = true) (hnone : s.twin.switch = none)
    (hmatched : s.ptstate ≠ 3) (hroom : s.Room islTwin) : (s.moduleFault f).on F.MOD_STATUS_MOD_FAULT = true ∧
      (s.moduleFault f).isActive = true ∧ (s.moduleFault f).twin = s.twin ∧
      Raises s (s.moduleFault f) 0x7070 islTwin (le 4 f ++ le 4 2) ∧ SameRegs s (s.moduleFault f) [R.MOD_STATUS] := by
  rw [State.moduleFault_runs f hactive hnone hmatched]
  obtain ⟨hshown, hstill, hsame, hraises⟩ :=
    State.modFaultEvent_faulted f 2 hroom hactive (State.put_recd ..) (SameRegs.refl s.faulted _)
  exact ⟨hshown, hstill, hsame, hraises,
    SameRegs.of_regs (State.modFaultEvent_shows hroom (State.put_recd ..) f 2).2.2 s.faulted_regs⟩

/-! ## The interval of role changes (09 R472) -/

theorem State.daysShow_shows (s : State) : s.daysShow.recd = s.recd ∧
    SameRegs s s.daysShow [R.TWN_STATUS, R.TWN_LAST_CHANGE] :=
  ⟨rfl, SameRegs.put _ (by decide) (SameRegs.of_regs rfl (SameRegs.refl s _))⟩

/-- PROOF_DUE is set once the days since the latest change of role reach PROOF_DAYS. -/
theorem proofDue_sets {t c : Nat} {s : State} (hunset : s.on F.TWN_STATUS_PROOF_DUE = false)
    (hchange : s.twin.lastChange = some c) (hdays : s.image.twin.proofDays ≤ (max s.now t - c) / 86400000000000) :
    exec (.proofDue t) s = .next (((s.at t).daysShow.put F.TWN_STATUS_PROOF_DUE 1).raise 0x7080 islTwin []) := by
  have hshown : (s.at t).daysShow.twin.days = (max s.now t - c) / 86400000000000 := by
    change (max s.now t - s.twin.lastChange.getD (max s.now t)) / 86400000000000 = _
    rw [hchange]
    rfl
  have hget : (s.at t).daysShow.get F.TWN_STATUS_PROOF_DUE = s.get F.TWN_STATUS_PROOF_DUE :=
    State.get_put_ne _ _ (.inl (by decide))
  refine (exec_proofDue t s).trans (congrArg Host.Outcome.next (if_pos ⟨?_, ?_⟩))
  · rw [hshown]
    exact hdays
  · rw [State.on, hget, ← State.on, hunset]
    rfl

theorem proofDue_shows {t c : Nat} {s : State} (hunset : s.on F.TWN_STATUS_PROOF_DUE = false) (hroom : s.Room islTwin)
    (hchange : s.twin.lastChange = some c) (hdays : s.image.twin.proofDays ≤ (max s.now t - c) / 86400000000000) :
    Steps (exec (.proofDue t) s) fun u => u.on F.TWN_STATUS_PROOF_DUE = true ∧ Raises s u 0x7080 islTwin [] ∧
      SameRegs s u [R.TWN_STATUS, R.TWN_LAST_CHANGE] := by
  obtain ⟨hrecd, hregs⟩ := (s.at t).daysShow_shows
  rw [proofDue_sets hunset hchange hdays]
  generalize (s.at t).daysShow = v at hrecd hregs
  have hroom' : (v.put F.TWN_STATUS_PROOF_DUE 1).Room islTwin := by rwa [State.Room, State.put_recd, hrecd]
  refine ⟨_, rfl, ?_, Raises.raise hroom ((State.put_recd ..).trans hrecd) _ _, ?_⟩
  · rw [State.on, State.raise_room_get hroom', State.get_put_same _ _ (by decide)]
    rfl
  · exact SameRegs.of_regs (State.raise_room_regs hroom' ..) (SameRegs.put _ (by decide) hregs)

/-- Settles O28: each command or boundary reduces to the naming of a switchover, its cancellation, or a change of role with the
epoch that stands, and what follows it leaves the fields that the clause reads. -/
theorem plannedSwitchovers : Obligations.PlannedSwitchovers := by
  unfold Obligations.PlannedSwitchovers
  refine ⟨?swap, ?refused, ?record, ?recordPast, ?ack, ?ackMissing, ?switchIn, ?switchOut, ?revert, ?noRevert, ?fault,
    ?faultSuspect, ?faultAlone, ?proof⟩
  case swap => exact fun t s hreason hnone => ⟨_, exec_twnSwap t s, State.swap_names_shows (s := s.at t) hreason hnone⟩
  case refused => exact fun t s hreason hroom => ⟨_, exec_twnSwap t s, State.swap_refused_shows (s := s.at t) hreason hroom⟩
  case record =>
    exact fun b w c t s hparse hkind hpd hmatched hstandby hahead =>
      switchRecordRx_ahead c t hparse hkind hpd hmatched hstandby hahead
  case recordPast =>
    exact fun b w c t s hparse hkind hpd hmatched hstandby hpast =>
      switchRecordRx_past c t hparse hkind hpd hmatched hstandby hpast
  case ack =>
    exact fun b w q t s hparse hkind hpd hswitch hactive hstate hat htimely =>
      switchAckRx_timely t hparse hkind hpd hswitch hactive hstate hat htimely
  case ackMissing =>
    exact fun t w s hswitch hactive hacked hlate hrestart hbutton hho hdiverge hroom =>
      switchAckMissing_shows hswitch hactive hacked hlate hrestart hbutton hho hdiverge hroom
  case switchIn =>
    intro w s hswitch hactive hto hcause hho hfits
    rw [State.switchAt_in hswitch hactive hto]
    exact State.switchIn_shows hcause hho hfits
  case switchOut =>
    intro w s hswitch hactive hacked hdiverge hho
    rw [State.switchAt_out hswitch hactive hacked]
    exact State.switchOut_shows hdiverge hho
  case revert =>
    intro t f s hhome hpartner hstate hmatched hactive hrevert hreduced hfrom hdue hsuspect hpsuspect hnone
    have hruns : (s.at t).revertRuns = true := State.revertRuns_away hhome hpartner hstate hmatched hrevert hreduced
    have hcan : (s.at t).twinShow.canSwitch = true := (State.twinShow_canSwitch _).trans
      (State.canSwitch_iff.2 ⟨hstate, hmatched, hsuspect, hpsuspect⟩)
    obtain ⟨htwin, hpending, -⟩ :=
      (s.at t).twinShow.nameSwitch_shows { at_ := boundaryAfter (max s.now t) 4, cause := 3 }
    exact ⟨_, revertExpiry_names (State.twinShow_runs hruns hfrom) hdue hactive hcan hnone,
      congrArg TwinState.switch htwin, hpending⟩
  case noRevert =>
    intro t s hstop
    have hfrom : (s.at t).twinShow.twin.revertFrom = none := State.twinShow_stopped hstop
    exact ⟨_, revertExpiry_stopped hfrom, (s.at t).twinShow_move.switch, hfrom, (s.at t).twinShow_hears.out⟩
  case fault =>
    intro f t s hactive hstate hmatched hnone hsuspect hpsuspect hroom
    exact ⟨_, exec_moduleFault f t s, State.moduleFault_names (s := s.at t) f.val hactive hmatched hnone
      (State.canSwitch_iff.2 ⟨hstate, hmatched, hsuspect, hpsuspect⟩) hroom⟩
  case faultSuspect =>
    intro f t s hactive hstate hmatched hnone hsuspect hroom
    exact ⟨_, exec_moduleFault f t s, State.moduleFault_owes (s := s.at t) f.val hactive hmatched hnone
      (State.canSwitch_suspect hsuspect) hroom⟩
  case faultAlone =>
    exact fun f t s hactive hnone hmatched hroom =>
      ⟨_, exec_moduleFault f t s, State.moduleFault_alone (s := s.at t) f.val hactive hnone hmatched hroom⟩
  case proof => exact fun t c s hunset hroom hchange hdays => proofDue_shows hunset hroom hchange hdays

end Sys2Proof.Machine
end

section
/-! Rules of the time unit: what shows its state, its domains, the ports of the time protocol (10 R477 to R489). -/
namespace Sys2Proof.Machine

/-! ## The registers that show the time unit (10 Registers) -/

/-- The registers that follow the state of the time unit. -/
def timeShowRegs : List Nat := [R.TIM_STATUS, R.TIM_OFS_MADDER, R.TIM_OFS_WOAD, R.TIM_UTC]

theorem OnlyRegs.wrI {s t : State} {l : List Nat} {o : Nat} (v : Int) (ho : o ∈ l) (h : OnlyRegs s t l) :
    OnlyRegs s (t.wrI o v) l := OnlyRegs.wrN _ ho h

theorem State.timeShow_only (s : State) : OnlyRegs s s.timeShow timeShowRegs := by
  unfold State.timeShow
  dsimp only
  split
  all_goals repeat' first
    | with_reducible exact OnlyRegs.refl s _
    | with_reducible refine OnlyRegs.putB _ (by decide) ?_
    | with_reducible refine OnlyRegs.put _ (by decide) ?_
    | with_reducible refine OnlyRegs.wrI _ (by decide) ?_

@[simp] theorem State.timeShow_time (s : State) : s.timeShow.time = s.time := by rw [s.timeShow_only.1]
@[simp] theorem State.timeShow_recd (s : State) : s.timeShow.recd = s.recd := by rw [s.timeShow_only.1]
@[simp] theorem State.timeShow_mem (s : State) : s.timeShow.mem = s.mem := by rw [s.timeShow_only.1]

/-- An event is raised where the recorder is that of a state after its raise. -/
theorem Raises.of_recd {s t u : State} {code isl : Nat} {data : List Byte} (hu : u.recd = t.recd)
    (h : Raises s t code isl data) : Raises s u code isl data := by
  rwa [Raises, hu]

/-! ## Domains (10 R487, R488) -/

theorem State.dom_of_time {s t : State} (h : t.time = s.time) (d : Nat) : t.dom d = s.dom d := by
  rw [State.dom, h, State.dom]

@[simp] theorem State.at_dom (s : State) (t d : Nat) : (s.at t).dom d = s.dom d := rfl

@[simp] theorem State.timeShow_dom (s : State) (d : Nat) : s.timeShow.dom d = s.dom d :=
  State.dom_of_time s.timeShow_time d

@[simp] theorem State.raise_dom (s : State) (code isl : Nat) (data : List Byte) (d : Nat) :
    (s.raise code isl data).dom d = s.dom d := State.dom_of_time (State.raise_time ..) d

/-- The time unit holds domain `d`. -/
abbrev State.HasDom (s : State) (d : Nat) : Prop := d < s.time.doms.length

theorem State.dom_setDom_same {s : State} {d : Nat} (k : Domain) (h : s.HasDom d) : (s.setDom d k).dom d = k := by
  simp [State.dom, State.setDom, State.tm, h]

theorem State.hasDom_of_two {s : State} {d : Nat} (hlen : s.time.doms.length = 2) (hd : d < 2) : s.HasDom d := by
  rwa [State.HasDom, hlen]

theorem State.HasDom.setDom {s : State} {d : Nat} (h : s.HasDom d) (e : Nat) (k : Domain) : (s.setDom e k).HasDom d :=
  Nat.lt_of_lt_of_eq h (List.length_set ..).symm

theorem State.HasDom.of_time {s t : State} {d : Nat} (h : s.HasDom d) (ht : t.time = s.time) : t.HasDom d := by
  rwa [State.HasDom, ht]

@[simp] theorem State.setDom_recd (s : State) (d : Nat) (k : Domain) : (s.setDom d k).recd = s.recd := rfl
@[simp] theorem State.setDom_mem (s : State) (d : Nat) (k : Domain) : (s.setDom d k).mem = s.mem := rfl

/-! ### A domain that becomes unusable -/

@[simp] theorem State.domFail_recd (s : State) (d : Nat) : (s.domFail d).recd = s.recd := State.timeShow_recd _

theorem State.HasDom.domFail {s : State} {d : Nat} (h : s.HasDom d) (e : Nat) : (s.domFail e).HasDom d :=
  (h.setDom e _).of_time (State.timeShow_time _)

theorem State.domFail_dom {s : State} {d : Nat} (h : s.HasDom d) :
    (s.domFail d).dom d = { s.dom d with usable := false, since := none } :=
  (State.timeShow_dom ..).trans (State.dom_setDom_same _ h)

theorem State.HasDom.receiptFail {s : State} {d : Nat} (h : s.HasDom d) (e : Nat) : (s.receiptFail e).HasDom d :=
  (h.domFail e).of_time (State.raise_time ..)

theorem State.receiptFail_dom {s : State} {d : Nat} (h : s.HasDom d) :
    (s.receiptFail d).dom d = { s.dom d with usable := false, since := none } :=
  (State.raise_dom ..).trans (State.domFail_dom h)

/-- A failed receipt is reported: 0x8010 with check 1 for Madder, 0x8013 for Woad (10 R488). -/
theorem State.receiptFail_raises {s : State} (d : Nat) (hroom : s.Room islTime) :
    Raises s (s.receiptFail d) (if d = 0 then 0x8010 else 0x8013) islTime (if d = 0 then le 4 1 else []) :=
  Raises.raise hroom (State.domFail_recd ..) _ _

/-! ## A Sync with its Follow_Up (10 R487 to R489) -/

/-- What domain `d` holds of its Sync that gives an offset, before the checks. -/
def State.synced (s : State) (d : Nat) (ofs : Int) : Domain :=
  { s.dom d with
    offset := ofs, at_ := s.now, hasOffset := true, syncOk := true, rate := s.domRate d ofs (s.now - (s.dom d).at_)
    slewed := s.slewedNow, since := if (s.dom d).since.isNone then some s.now else (s.dom d).since }

/-- A Sync that passes the checks, with Madder not usable: there is no cross check. -/
theorem State.syncDone_passes {s : State} {d : Nat} {ofs : Int} (hjump : s.jumps d ofs = false)
    (hrate : (s.domRate d ofs (s.now - (s.dom d).at_)).natAbs ≤ 200000) (hmadder : (s.dom 0).usable = false) :
    s.syncDone d ofs = (s.setDom d (s.synced d ofs)).timeShow := by
  rw [State.syncDone]
  dsimp only
  rw [if_neg (by simp [hjump, hrate]), if_neg (by simp [hmadder])]
  rfl

/-- A Sync that shows a rate of more than 200,000 ppb. -/
theorem State.syncDone_fast {s : State} {d : Nat} {ofs : Int}
    (hrate : 200000 < (s.domRate d ofs (s.now - (s.dom d).at_)).natAbs) :
    s.syncDone d ofs = ((s.setDom d (s.synced d ofs)).domFail d).raise 0x8041 islTime [] := by
  rw [State.syncDone]
  dsimp only
  rw [if_pos (by simp [hrate])]
  rfl

theorem State.syncDone_fast_hasDom {s : State} {d : Nat} {ofs : Int} (h : s.HasDom d)
    (hrate : 200000 < (s.domRate d ofs (s.now - (s.dom d).at_)).natAbs) : (s.syncDone d ofs).HasDom d := by
  rw [State.syncDone_fast hrate]
  exact ((h.setDom d _).domFail d).of_time (State.raise_time ..)

theorem State.since_synced (s : State) (d : Nat) (ofs : Int) : (s.synced d ofs).since.isSome = true := by
  cases h : (s.dom d).since <;> simp [State.synced, h]

/-! ## Ports of the time protocol -/

@[simp] theorem State.ptpPort_setPtp_same (s : State) (p : Nat) (k : PtpPort) : (s.setPtp p k).ptpPort p = k :=
  tget_tset_same ..

@[simp] theorem State.at_fromSlave (s : State) (t p d : Nat) : (s.at t).fromSlave p d = s.fromSlave p d := rfl
@[simp] theorem State.at_stamped (s : State) (t : Nat) (x : Stamp) : (s.at t).stamped x = s.stamped x := rfl

theorem State.fromSlave_lt {s : State} {p d : Nat} (h : s.fromSlave p d = true) : d < 2 := by
  rw [State.fromSlave, Bool.and_eq_true, Bool.and_eq_true] at h
  exact of_decide_eq_true h.1.1

end Sys2Proof.Machine
end

section
/-! The time protocol (10 R477 to R480, R482 to R484, R487, R488): Sync and Announce, receipt, link delays, what is sent. -/
namespace Sys2Proof.Machine

/-! ## The commands -/

theorem exec_ptpSyncRx (p : Fin 22) (d : Fin 256) (two : Bool) (o c : Int) (x : Stamp) (t : Nat) (s : State) :
    exec (.ptpSyncRx p d two o c x t) s = execPtpSyncRx p d two o c x t s := by rfl

theorem exec_ptpFollowUpRx (p : Fin 22) (d : Fin 256) (o c : Int) (t : Nat) (s : State) :
    exec (.ptpFollowUpRx p d o c t) s = execPtpFollowUpRx p d o c t s := by rfl

theorem exec_ptpAnnounceRx (p : Fin 22) (d : Fin 256) (a : AnnMsg) (t : Nat) (s : State) :
    exec (.ptpAnnounceRx p d a t) s = execPtpAnnounceRx p d a t s := by rfl

theorem exec_ptpReceiptTimeout (d : Fin 2) (announce : Bool) (t : Nat) (s : State) :
    exec (.ptpReceiptTimeout d announce t) s = execPtpReceiptTimeout d announce t s := by rfl

theorem exec_ptpPdelayReqRx (p : Fin 22) (rx tx : Stamp) (s : State) :
    exec (.ptpPdelayReqRx p rx tx) s = execPtpPdelayReqRx p rx tx s := by rfl

theorem exec_ptpPdelayTx (p : Fin 22) (s : State) : exec (.ptpPdelayTx p) s = execPtpPdelayTx p s := by rfl

theorem exec_ptpPdelayRespRx (p : Fin 22) (t1 : Stamp) (t2 : Int) (t4 : Stamp) (s : State) :
    exec (.ptpPdelayRespRx p t1 t2 t4) s = execPtpPdelayRespRx p t1 t2 t4 s := by rfl

theorem exec_ptpPdelayRespFollowUpRx (p : Fin 22) (t3 : Int) (s : State) :
    exec (.ptpPdelayRespFollowUpRx p t3) s = execPtpPdelayRespFollowUpRx p t3 s := by rfl

theorem exec_ptpSignalingRx (p : Fin 22) (d : Fin 256) (s : State) :
    exec (.ptpSignalingRx p d) s = execPtpSignalingRx p d s := by rfl

theorem exec_ptpSyncTx (p : Fin 22) (d : Fin 2) (x : Stamp) (t : Nat) (s : State) :
    exec (.ptpSyncTx p d x t) s = execPtpSyncTx p d x t s := by rfl

theorem exec_ptpAnnounceTx (p : Fin 22) (d : Fin 2) (s : State) :
    exec (.ptpAnnounceTx p d) s = execPtpAnnounceTx p d s := by rfl

/-! ## Sync and Follow_Up (10 R477, R482, R487, R488) -/

/-- A Sync of another port, or of a domain that the module does not follow. -/
theorem ptpSyncRx_other {p : Fin 22} {d : Fin 256} (two : Bool) (o c : Int) (x : Stamp) (t : Nat) {s : State}
    (h : s.fromSlave p.val d.val = false) : exec (.ptpSyncRx p d two o c x t) s = .next (s.at t) := by
  rw [exec_ptpSyncRx, execPtpSyncRx]
  exact congrArg Host.Outcome.next (if_pos (by simp [h]))

/-- A two-step Sync waits with its ingress timestamp. -/
theorem ptpSyncRx_waits {p : Fin 22} {d : Fin 256} (o c : Int) {x : Stamp} (t : Nat) {s : State}
    (h : s.fromSlave p.val d.val = true) (hx : s.stamped x = true) : exec (.ptpSyncRx p d true o c x t) s =
      .next ((s.at t).setPtp p.val { s.ptpPort p.val with
        syncWait := (d.val, s.ingress p.val x) :: (s.ptpPort p.val).syncWait.filter fun e => e.1 ≠ d.val }) := by
  rw [exec_ptpSyncRx, execPtpSyncRx]
  exact congrArg Host.Outcome.next ((if_neg (by simp [h, hx])).trans (if_pos rfl))

/-- A one-step Sync is complete. -/
theorem ptpSyncRx_completes {p : Fin 22} {d : Fin 256} (o c : Int) {x : Stamp} (t : Nat) {s : State}
    (h : s.fromSlave p.val d.val = true) (hx : s.stamped x = true) : exec (.ptpSyncRx p d false o c x t) s =
      .next ((s.at t).syncTaken p.val d.val o c (s.ingress p.val x)) := by
  rw [exec_ptpSyncRx, execPtpSyncRx]
  exact congrArg Host.Outcome.next ((if_neg (by simp [h, hx])).trans (if_neg Bool.false_ne_true))

/-- A complete Sync that passes the checks, with Madder not usable. -/
theorem State.syncTaken_passes {s : State} {p d : Nat} {o c rx v : Int} (hd : s.HasDom d)
    (hv : v = (o + c + (s.ptpPort p).fromPs - rx) / 1000) (hjump : s.jumps d v = false)
    (hrate : (s.domRate d v (s.now - (s.dom d).at_)).natAbs ≤ 200000) (hmadder : (s.dom 0).usable = false) :
    (s.syncTaken p d o c rx).dom d = { s.synced d v with synced := true, origin := o, corr := c, rxPs := rx } ∧
      (s.syncTaken p d o c rx).recd = s.recd ∧ (s.syncTaken p d o c rx).mem = s.mem := by
  have hdone := State.syncDone_passes hjump hrate hmadder
  have hhas : (s.setDom d (s.synced d v)).timeShow.HasDom d := (hd.setDom d _).of_time (State.timeShow_time _)
  rw [State.syncTaken, ← hv, hdone]
  refine ⟨?_, State.timeShow_recd _, State.timeShow_mem _⟩
  rw [State.dom_setDom_same _ hhas, State.timeShow_dom, State.dom_setDom_same _ hd]

/-- A complete Sync that shows a rate of more than 200,000 ppb. -/
theorem State.syncTaken_fast {s : State} {p d : Nat} {o c rx : Int} (hd : s.HasDom d)
    (hrate : 200000 < (s.domRate d ((o + c + (s.ptpPort p).fromPs - rx) / 1000) (s.now - (s.dom d).at_)).natAbs)
    (hroom : s.Room islTime) : ((s.syncTaken p d o c rx).dom d).usable = false ∧
      Raises s (s.syncTaken p d o c rx) 0x8041 islTime [] := by
  rw [State.syncTaken]
  dsimp only
  rw [State.dom_setDom_same _ (State.syncDone_fast_hasDom hd hrate), State.syncDone_fast hrate]
  refine ⟨?_, Raises.of_recd (State.setDom_recd ..) (Raises.raise hroom (State.domFail_recd (s.setDom d _) d) _ _)⟩
  rw [State.raise_dom, State.domFail_dom (hd.setDom d _)]

/-- A Follow_Up of a Sync that waits completes it. -/
theorem ptpFollowUpRx_completes {p : Fin 22} {d : Fin 256} (o c : Int) {i : Int} (t : Nat) {s : State}
    (h : s.fromSlave p.val d.val = true)
    (hwait : (s.ptpPort p.val).syncWait.find? (fun e => e.1 = d.val) = some (d.val, i)) :
    exec (.ptpFollowUpRx p d o c t) s = .next ((((s.at t).setPtp p.val
      { s.ptpPort p.val with syncWait := (s.ptpPort p.val).syncWait.filter fun e => e.1 ≠ d.val })).syncTaken p.val d.val
        o c i) := by
  have hwait' : ((s.at t).ptpPort p.val).syncWait.find? (fun e => e.1 = d.val) = some (d.val, i) := hwait
  rw [exec_ptpFollowUpRx, execPtpFollowUpRx]
  dsimp only
  rw [if_neg (by simp [h]), hwait']
  rfl

/-- A Follow_Up that no Sync waits for. -/
theorem ptpFollowUpRx_unawaited {p : Fin 22} {d : Fin 256} (o c : Int) (t : Nat) {s : State}
    (hwait : (s.ptpPort p.val).syncWait.find? (fun e => e.1 = d.val) = none) :
    exec (.ptpFollowUpRx p d o c t) s = .next (s.at t) := by
  have hwait' : ((s.at t).ptpPort p.val).syncWait.find? (fun e => e.1 = d.val) = none := hwait
  rw [exec_ptpFollowUpRx, execPtpFollowUpRx]
  rw [hwait']
  split <;> rfl

/-! ## Announce (10 R477, R478, R488) -/

theorem ptpAnnounceRx_used {p : Fin 22} {d : Fin 256} (a : AnnMsg) (t : Nat) {s : State} (hd : d.val < 2)
    (hon : s.ptpOn p.val = true) (hslave : canSlave p.val = true) : exec (.ptpAnnounceRx p d a t) s =
      .next (((s.at t).setDom d.val { s.dom d.val with
        anns := tset none (s.dom d.val).anns p.val (some a)
        annAt := tset 0 (s.dom d.val).annAt p.val (max s.now t) }).bmca d.val) := by
  rw [exec_ptpAnnounceRx, execPtpAnnounceRx]
  exact congrArg Host.Outcome.next (if_pos ⟨hd, hon, hslave⟩)

theorem ptpAnnounceRx_unused {p : Fin 22} {d : Fin 256} (a : AnnMsg) (t : Nat) {s : State}
    (h : 2 ≤ d.val ∨ canSlave p.val = false) : exec (.ptpAnnounceRx p d a t) s = .next (s.at t) := by
  rw [exec_ptpAnnounceRx, execPtpAnnounceRx]
  refine congrArg Host.Outcome.next (if_neg ?_)
  rintro ⟨hd, -, hslave⟩
  obtain h | h := h
  · omega
  · simp [h] at hslave

/-- Best master selection leaves a domain its Announce information, and makes none usable. -/
theorem State.bmca_dom {s : State} {d : Nat} (hd : s.HasDom d) : ∃ k, (s.bmca d).dom d = k ∧
    k.anns = (s.dom d).anns ∧ ((s.dom d).usable = false → k.usable = false) := by
  rw [State.bmca]
  dsimp only
  split
  next hbest =>
    refine ⟨_, State.domFail_dom (hd.setDom d _), ?_⟩
    rw [State.dom_setDom_same _ hd]
    exact ⟨rfl, fun _ => rfl⟩
  next p hbest =>
    split
    · refine ⟨_, (State.raise_dom ..).trans (State.domFail_dom (hd.setDom d _)), ?_⟩
      rw [State.dom_setDom_same _ hd]
      exact ⟨rfl, fun _ => rfl⟩
    · refine ⟨_, (State.timeShow_dom ..).trans (State.dom_setDom_same _ hd), rfl, fun h => h⟩

/-- Best master selection finds a first grandmaster on the one port that holds Announce information. -/
theorem State.bmca_first {s : State} {d p : Nat} {a : AnnMsg} (hd : s.HasDom d) (hanns : (s.dom d).anns = [(p, some a)])
    (hgm : (s.dom d).gm = none) (hslave : canSlave p = true) : ((s.bmca d).dom d).slave = some p ∧
      ((s.bmca d).dom d).gm = some a.gm ∧ ((s.bmca d).dom d).annOk = true ∧ (s.bmca d).recd = s.recd := by
  have hbest : bestPort ((s.dom d).anns.filter fun e => canSlave e.1) = some p := by
    simp [hanns, hslave, bestPort]
  rw [State.bmca]
  dsimp only
  rw [hbest]
  dsimp only
  rw [if_neg (by simp [hgm]), State.timeShow_dom, State.dom_setDom_same _ hd]
  exact ⟨rfl, by simp [Domain.ann, hanns, tget], rfl, State.timeShow_recd _⟩

/-- Best master selection takes nothing from the queue of the recorder. -/
theorem State.bmca_queue (s : State) (d : Nat) : ∃ l, (s.bmca d).recd.queue = s.recd.queue ++ l := by
  have hsame : ∀ r : Recorder, r = s.recd → ∃ l, r.queue = s.recd.queue ++ l :=
    fun r hr => ⟨[], by rw [hr, List.append_nil]⟩
  rw [State.bmca]
  dsimp only
  split
  · exact hsame _ (State.domFail_recd ..)
  · split
    · obtain ⟨l, hl⟩ := State.raise_queue (((s.setDom d _).domFail d)) 0x8040 islTime []
      exact ⟨l, hl.trans (by rw [State.domFail_recd, State.setDom_recd])⟩
    · exact hsame _ (State.timeShow_recd _)

/-! ## Receipt (10 R477, R488) -/

/-- No Sync for 375 ms. -/
theorem ptpReceiptTimeout_sync {d : Fin 2} {t : Nat} {s : State} (hok : (s.dom d.val).syncOk = true)
    (hdue : (s.dom d.val).at_ + 375000000 ≤ max s.now t) : exec (.ptpReceiptTimeout d false t) s =
      .next (((s.at t).receiptFail d.val).setDom d.val
        { ((s.at t).receiptFail d.val).dom d.val with syncOk := false }) := by
  rw [exec_ptpReceiptTimeout, execPtpReceiptTimeout]
  exact congrArg Host.Outcome.next ((if_neg Bool.false_ne_true).trans (if_pos ⟨hok, hdue⟩))

theorem ptpReceiptTimeout_early {d : Fin 2} {t : Nat} {s : State} (h : max s.now t < (s.dom d.val).at_ + 375000000) :
    exec (.ptpReceiptTimeout d false t) s = .next (s.at t) := by
  rw [exec_ptpReceiptTimeout, execPtpReceiptTimeout]
  exact congrArg Host.Outcome.next
    ((if_neg Bool.false_ne_true).trans (if_neg fun hdue => absurd hdue.2 (Nat.not_le_of_lt h)))

/-- The Announce information of a domain without that of the ports in a list. -/
def Domain.without (k : Domain) (l : List Nat) : Tab (Option AnnMsg) := l.foldl (fun t p => tset none t p none) k.anns

/-- A list of ports holds no Announce information once it is taken from them. -/
theorem tget_foldl_tset_none {α : Type} [DecidableEq α] {l : List Nat} {t : Tab (Option α)} {p : Nat}
    (h : p ∈ l ∨ tget none t p = none) : tget none (l.foldl (fun t p => tset none t p none) t) p = none := by
  induction l generalizing t with
  | nil => exact h.resolve_left List.not_mem_nil
  | cons q l ih =>
    refine ih ?_
    by_cases hq : q = p
    · exact .inr (by rw [hq, tget_tset_same])
    · rw [tget_tset_ne _ _ _ hq]
      exact h.imp_left fun hm => (List.mem_cons.1 hm).resolve_left (Ne.symm hq)

/-- No Announce on the slave port for 3 s. -/
theorem ptpReceiptTimeout_announce {d : Fin 2} {t p : Nat} {s : State} (hslave : (s.dom d.val).slave = some p)
    (haged : p ∈ (s.at t).agedPorts d.val) : exec (.ptpReceiptTimeout d true t) s =
      .next ((((s.at t).receiptFail d.val).setDom d.val { ((s.at t).receiptFail d.val).dom d.val with
        anns := (((s.at t).receiptFail d.val).dom d.val).without ((s.at t).agedPorts d.val)
        annOk := false }).bmca d.val) := by
  have hlost : ((s.at t).dom d.val).slave.any (fun p => ((s.at t).agedPorts d.val).contains p) = true := by
    simp [hslave, haged]
  rw [exec_ptpReceiptTimeout, execPtpReceiptTimeout]
  dsimp only
  rw [if_pos rfl, if_neg (List.ne_nil_of_mem haged), hlost, if_pos rfl, Bool.not_true, Bool.and_false]
  rfl

/-- A slave port whose Announce failed loses its domain, and its Announce information is gone (10 R477, R488). -/
theorem ptpReceiptTimeout_announce_shows {d : Fin 2} {t p : Nat} {s : State} (hd : s.HasDom d.val)
    (hslave : (s.dom d.val).slave = some p) (haged : p ∈ (s.at t).agedPorts d.val) (hroom : s.Room islTime) :
    Steps (exec (.ptpReceiptTimeout d true t) s) fun u => (u.dom d.val).usable = false ∧
      (tget none (u.dom d.val).anns p).isNone = true ∧
      ∃ r ∈ u.recd.queue, r.code = if d.val = 0 then 0x8010 else 0x8013 := by
  have hfailed : ((s.at t).receiptFail d.val).HasDom d.val := State.HasDom.receiptFail (s := s.at t) hd _
  refine ⟨_, ptpReceiptTimeout_announce hslave haged, ?_⟩
  obtain ⟨k, hk, hanns, husable⟩ := State.bmca_dom (hfailed.setDom d.val _)
  obtain ⟨l, hl⟩ := State.bmca_queue (((s.at t).receiptFail d.val).setDom d.val _) d.val
  obtain ⟨r, hqueue, hcode, -⟩ := State.receiptFail_raises (s := s.at t) d.val hroom
  rw [State.dom_setDom_same _ hfailed] at hanns husable
  rw [hk]
  refine ⟨husable ?_, ?_, r, ?_, hcode⟩
  · rw [State.receiptFail_dom (s := s.at t) hd]
  · rw [hanns, Option.isNone_iff_eq_none]
    exact tget_foldl_tset_none (.inl haged)
  · rw [hl, State.setDom_recd, hqueue]
    simp

/-! ## Link delays (10 R477, R482 to R484) -/

theorem ptpPdelayReqRx_answers {p : Fin 22} {rx tx : Stamp} {s : State} (hon : s.ptpOn p.val = true)
    (hrx : s.stamped rx = true) (htx : s.stamped tx = true) : exec (.ptpPdelayReqRx p rx tx) s =
      .next { s with out := s.out ++ [.ptp 0 p.val 3 [s.ingress p.val rx]] ++ [.ptp 0 p.val 0xA [s.egress p.val tx]] } := by
  rw [exec_ptpPdelayReqRx, execPtpPdelayReqRx]
  exact congrArg Host.Outcome.next (if_pos ⟨hon, hrx, htx⟩)

theorem ptpPdelayReqRx_off {p : Fin 22} (rx tx : Stamp) {s : State} (hoff : s.ptpOn p.val = false) :
    exec (.ptpPdelayReqRx p rx tx) s = .next s := by
  rw [exec_ptpPdelayReqRx, execPtpPdelayReqRx]
  exact congrArg Host.Outcome.next (if_neg (by simp [hoff]))

theorem ptpPdelayTx_measures {p : Fin 22} {s : State} (hon : s.ptpOn p.val = true) : exec (.ptpPdelayTx p) s =
    .next ((s.setPtp p.val { s.ptpPort p.val with pdelayWait := true, turn := none }).send (.ptp 0 p.val 2 [])) := by
  rw [exec_ptpPdelayTx, execPtpPdelayTx]
  exact congrArg Host.Outcome.next (if_pos hon)

theorem ptpPdelayRespRx_awaited {p : Fin 22} {t1 t4 : Stamp} (t2 : Int) {s : State}
    (hwait : (s.ptpPort p.val).pdelayWait = true) (h1 : s.stamped t1 = true) (h4 : s.stamped t4 = true) :
    exec (.ptpPdelayRespRx p t1 t2 t4) s = .next (s.setPtp p.val
      { s.ptpPort p.val with turn := some (s.ingress p.val t4 - s.egress p.val t1 + t2) }) := by
  rw [exec_ptpPdelayRespRx, execPtpPdelayRespRx]
  exact congrArg Host.Outcome.next (if_pos ⟨hwait, h1, h4⟩)

theorem ptpPdelayRespFollowUpRx_measured {p : Fin 22} {x : Int} (t3 : Int) {s : State}
    (hturn : (s.ptpPort p.val).turn = some x) : exec (.ptpPdelayRespFollowUpRx p t3) s = .next (s.setPtp p.val
      { s.ptpPort p.val with
        delayPs := (x - t3) / 2, fromPs := (x - t3) / 2 + (s.timePort p.val).asymPs
        toPs := (x - t3) / 2 - (s.timePort p.val).asymPs, pdelayWait := false, turn := none }) := by
  rw [exec_ptpPdelayRespFollowUpRx, execPtpPdelayRespFollowUpRx]
  dsimp only
  rw [hturn]

/-! ## What is sent on master ports, and intervals (10 R477 to R480) -/

theorem ptpSignalingRx_answers {p : Fin 22} {d : Fin 256} {s : State} (hd : d.val < 2) (hp : d.val = 0 ∨ 16 ≤ p.val)
    (hon : s.ptpOn p.val = true) : exec (.ptpSignalingRx p d) s =
      .next { s with out := s.out ++ [.ptp d.val p.val 0xC (if p.val < 16 then [-5, -3, 0] else [-3, 0, 0])] } := by
  rw [exec_ptpSignalingRx, execPtpSignalingRx]
  exact congrArg Host.Outcome.next (if_pos ⟨hd, hon, hp⟩)

/-- A ring port sends line time on domain 0. -/
theorem ptpSyncTx_ring {p : Fin 22} {x : Stamp} {t : Nat} {s : State} (hp : p.val < 16) (hon : s.ptpOn p.val = true)
    (hrole : s.role ≠ 0) (hx : s.stamped x = true) : exec (.ptpSyncTx p 0 x t) s = .next { s with
      now := max s.now t
      out := s.out ++ [.ptp 0 p.val 0 []] ++ [.ptp 0 p.val 8 [s.egress p.val x, 0]] } := by
  have hrole' : (s.at t).role ≠ 0 := hrole
  rw [exec_ptpSyncTx, execPtpSyncTx]
  rw [if_pos hp, if_pos ⟨by simp [hrole'], hon, hx⟩, if_pos hp]
  rfl

/-- A ring port sends no Sync of domain 1, and none while the module holds NONE. -/
theorem ptpSyncTx_ring_silent {p : Fin 22} {d : Fin 2} (x : Stamp) (t : Nat) {s : State} (hp : p.val < 16)
    (h : d.val = 1 ∨ s.role = 0) : exec (.ptpSyncTx p d x t) s = .next (s.at t) := by
  rw [exec_ptpSyncTx, execPtpSyncTx]
  rw [if_pos hp]
  refine congrArg Host.Outcome.next (if_neg ?_)
  rintro ⟨hgo, -⟩
  rw [Bool.and_eq_true, decide_eq_true_iff, decide_eq_true_iff] at hgo
  obtain ⟨hdom, hrole⟩ := hgo
  obtain h | h := h
  · omega
  · exact hrole h

/-- A port that no other relay announces on is a master port of a domain whose slave port is another one. -/
theorem State.relayMaster_of_unannounced {s : State} {d p a : Nat} (hslave : (s.dom d).slave = some a) (hne : a ≠ p)
    (hnone : tget none (s.dom d).anns p = none) : s.relayMaster d p = true := by
  simp [State.relayMaster, State.relayPassive, hslave, hne, hnone]

/-- A master port that is no ring port forwards the Sync of its domain, link delay and residence time added. -/
theorem ptpSyncTx_relay {p : Fin 22} {x : Stamp} {t a : Nat} {s : State} (hp : 16 ≤ p.val)
    (hslave : (s.dom 0).slave = some a) (hmaster : s.relayMaster 0 p.val = true) (hsynced : (s.dom 0).synced = true)
    (hon : s.ptpOn p.val = true) (hx : s.stamped x = true) : exec (.ptpSyncTx p 0 x t) s = .next { s with
      now := max s.now t
      out := s.out ++ [.ptp 0 p.val 0 []] ++ [.ptp 0 p.val 8 [(s.dom 0).origin,
        (s.dom 0).corr + (s.ptpPort a).fromPs + (s.egress p.val x - (s.dom 0).rxPs) *
          (1000000000 + (s.dom 0).rate - toSigned 32 (s.rdN R.TIM_ADJ)) / 1000000000]] } := by
  have hgo : ((s.at t).relayMaster 0 p.val && ((s.at t).dom 0).synced) = true := by
    rw [Bool.and_eq_true]
    exact ⟨hmaster, hsynced⟩
  have hring : ¬ p.val < 16 := Nat.not_lt_of_le hp
  have hlink : (((s.at t).dom 0).slave.getD 0) = a := by rw [State.at_dom, hslave, Option.getD_some]
  rw [exec_ptpSyncTx, execPtpSyncTx]
  rw [if_neg hring, if_neg hring, show ((0 : Fin 2).val) = 0 from rfl, if_pos ⟨hgo, hon, hx⟩, hlink]
  rfl

theorem ptpAnnounceTx_ring {p : Fin 22} {s : State} (hp : p.val < 16) (hon : s.ptpOn p.val = true) :
    exec (.ptpAnnounceTx p 0) s = .next { s with
      out := s.out ++ [.ptp 0 p.val 0xB [((if s.isActive = true then 246 else 247 : Nat) : Int),
        (s.advertised.1 : Int), (s.advertised.2.1 : Int), (s.advertised.2.2 : Int), (b2n s.twinB : Int),
        (Config.clockIdentity : Int)]] } := by
  rw [exec_ptpAnnounceTx, execPtpAnnounceTx]
  exact congrArg Host.Outcome.next ((if_neg (by simp [hon])).trans ((if_pos hp).trans (if_pos rfl)))

/-- Settles O32: each clause is the rule of its command in its case. -/
theorem timeProtocol : Obligations.TimeProtocol := by
  unfold Obligations.TimeProtocol
  refine ⟨?other, ?waits, ?passes, ?fast, ?followUp, ?unawaited, ?announce, ?unused, ?sync, ?request, ?measure, ?turn,
    ?delays, ?aged, ?intervals, ?ringSync, ?silent, ?ringAnnounce, ?off, ?early, ?relay⟩
  case other => exact fun p d two o c x t s h => ptpSyncRx_other two o c x t h
  case waits =>
    refine fun p d o c x t s h hx => ⟨_, ptpSyncRx_waits o c t h hx, ?_, rfl, rfl⟩
    rw [State.ptpPort_setPtp_same]
    exact List.mem_cons_self ..
  case passes =>
    intro p d o c v x t s h hx hlen hv hjump hrate hmadder
    have hd : (s.at t).HasDom d.val := State.hasDom_of_two (s := s) hlen (State.fromSlave_lt h)
    obtain ⟨hdom, hrecd, hmem⟩ := State.syncTaken_passes hd hv hjump hrate hmadder
    refine ⟨_, ptpSyncRx_completes o c t h hx, ?_⟩
    dsimp only
    rw [hdom]
    exact ⟨rfl, rfl, rfl, State.since_synced (s.at t) d.val v, hrecd, hmem⟩
  case fast =>
    intro p d o c x t s h hx hlen hrate hroom
    have hd : (s.at t).HasDom d.val := State.hasDom_of_two (s := s) hlen (State.fromSlave_lt h)
    exact ⟨_, ptpSyncRx_completes o c t h hx, State.syncTaken_fast (s := s.at t) hd hrate hroom⟩
  case followUp => exact fun p d o c i t s h hwait => ptpFollowUpRx_completes o c t h hwait
  case unawaited => exact fun p d o c t s hwait => ptpFollowUpRx_unawaited o c t hwait
  case announce =>
    intro p d a t s hd hon hslave hlen hblank
    have hhas : (s.at t).HasDom d.val := State.hasDom_of_two (s := s) hlen hd
    refine ⟨_, ptpAnnounceRx_used a t hd hon hslave, ?_⟩
    refine State.bmca_first (hhas.setDom d.val _) ?_ ?_ hslave
    · rw [State.dom_setDom_same _ hhas, hblank]
      rfl
    · rw [State.dom_setDom_same _ hhas, hblank]
  case unused => exact fun p d a t s h => ptpAnnounceRx_unused a t h
  case sync =>
    intro d t s hok hdue hlen hroom
    have hd : (s.at t).HasDom d.val := State.hasDom_of_two (s := s) hlen d.isLt
    refine ⟨_, ptpReceiptTimeout_sync hok hdue, ?_⟩
    dsimp only
    rw [State.dom_setDom_same _ (hd.receiptFail _), State.receiptFail_dom hd]
    exact ⟨rfl, rfl, Raises.of_recd (State.setDom_recd ..) (State.receiptFail_raises (s := s.at t) d.val hroom)⟩
  case request => exact fun p rx tx s hon hrx htx => ptpPdelayReqRx_answers hon hrx htx
  case measure =>
    refine fun p s hon => ⟨_, ptpPdelayTx_measures hon, ?_, rfl, rfl⟩
    exact congrArg PtpPort.pdelayWait (State.ptpPort_setPtp_same ..)
  case turn =>
    refine fun p t1 t4 t2 s hwait h1 h4 => ⟨_, ptpPdelayRespRx_awaited t2 hwait h1 h4, ?_, rfl, rfl⟩
    rw [State.ptpPort_setPtp_same]
  case delays =>
    refine fun p x t3 s hturn => ⟨_, ptpPdelayRespFollowUpRx_measured t3 hturn, ?_⟩
    dsimp only
    rw [State.ptpPort_setPtp_same]
    exact ⟨rfl, rfl, rfl, rfl, rfl, rfl⟩
  case aged =>
    intro d p t s hlen hslave hkey hage hroom
    have haged : p ∈ (s.at t).agedPorts d.val := List.mem_filter.2 ⟨hkey, decide_eq_true hage⟩
    exact ptpReceiptTimeout_announce_shows (State.hasDom_of_two hlen d.isLt) hslave haged hroom
  case intervals => exact fun p d s hd hp hon => ptpSignalingRx_answers hd hp hon
  case ringSync => exact fun p x t s hp hon hrole hx => ⟨_, ptpSyncTx_ring hp hon hrole hx, rfl⟩
  case silent => exact fun p d x t s hp h => ptpSyncTx_ring_silent x t hp h
  case ringAnnounce => exact fun p s hp hon => ⟨_, ptpAnnounceTx_ring hp hon, rfl⟩
  case off => exact fun p rx tx s hoff => ptpPdelayReqRx_off rx tx hoff
  case early => exact fun d t s h => ptpReceiptTimeout_early h
  case relay =>
    exact fun p x t a s hp hslave hne hnone hsynced hon hx =>
      ⟨_, ptpSyncTx_relay hp hslave (State.relayMaster_of_unannounced hslave hne hnone) hsynced hon hx, rfl, rfl⟩

end Sys2Proof.Machine
end

section
/-! Where the statements on the time reference and on time restarts do not hold: raises that wait over a change of line time
(10 R476, R496, R501; 17 R748). -/
namespace Sys2Proof.Machine

theorem exec_timeStart (t : Nat) (s : State) : exec (.timeStart t) s = execTimeStart t s := by rfl

theorem exec_timeRestart (s : State) : exec .timeRestart s = execTimeRestart s := by rfl

/-! ## What waits for the recorder when line time is set -/

/-- A raise that waits while line time goes from `old` to `new`: its tick moves along. -/
def Raise.moved (r : Raise) (old new : Nat) : Raise := { r with tick := (1000 * r.tick + new - old) / 1000 }

theorem State.shiftTimes_queue (s : State) (new : Nat) :
    (s.shiftTimes new).recd.queue = s.recd.queue.map fun r => r.moved s.now new := rfl

theorem State.beginTime_queue (s : State) (line st : Nat) :
    (s.beginTime line st).recd.queue = s.recd.queue.map fun r => r.moved s.now line := by
  rw [State.beginTime, State.timeShow_recd]
  exact s.shiftTimes_queue line

/-- At a time restart of a module without partitions the raises that wait move along, and 0x8020 at most comes behind them. -/
theorem State.timeRestart_queue {s : State} (k : TimeStep) (h : s.image.parts = []) :
    ∃ l, (s.timeRestart k).recd.queue = (s.recd.queue.map fun r => r.moved s.now k.target) ++ l := by
  have hdrop : s.dropActivations = s := by rw [State.dropActivations, h, State.each, List.foldl_nil]
  obtain ⟨l, hl⟩ := State.raise_queue _ _ _ _
  refine ⟨l, hl.trans (congrArg (· ++ l) ?_)⟩
  rw [State.put_recd, State.renameSets, State.timeShow_recd, hdrop]
  exact s.dropSamples.shiftTimes_queue k.target

/-- What waited before an event is raised stands first in the queue as it was. -/
theorem Raises.head {s u : State} {code isl : Nat} {data : List Byte} (h : Raises s u code isl data) {w : Raise}
    (hw : s.recd.queue = [w]) : u.recd.queue.head? = some w := by
  obtain ⟨r, hqueue, -⟩ := h
  rw [hqueue, hw]
  rfl

/-- A raise of the panel controller at tick 0. -/
def waitingRaise : Raise := { code := 0xE021, island := islPanel }

theorem waitingRaise_moved : waitingRaise.moved 0 1000000 ≠ waitingRaise := by decide

/-! ## Time start (10 R497) -/

theorem timeStart_partner {t : Nat} {o : Int} {s : State} (hoff : s.time.running = false) (hpartner : s.activePartner = true)
    (hofs : s.time.twinOfs = some o) : exec (.timeStart t) s =
      .next (((s.at t).beginTime ((s.at t).lineAt o) 3).raise 0x8003 islTime []) := by
  have hpartner' : (s.at t).activePartner = true := hpartner
  rw [exec_timeStart, execTimeStart]
  rw [State.at_time, if_neg (by simp [hoff]), if_pos hpartner', hofs]

/-- A module 1 ms behind its active partner, before time start, with a raise that waits. -/
def startingPartner : State :=
  { State.reset.put F.TWN_STATUS_PARTNER_TSTATE 1 with
    twin := { foxHeard := some 0 }, time := { twinOfs := some 1000000 }, recd := { queue := [waitingRaise] } }

/-- Refutes O30: its clause on time start from the active partner has the queue of the recorder as it was and 0x8003 behind
it, but a raise that waits when line time is set keeps its age: its tick moves with line time (`State.beginTime_queue`). The
counterexample is a module 1 ms behind its active partner, with one raise that waits. -/
theorem not_lineTimeReference : ¬ Obligations.LineTimeReference := by
  unfold Obligations.LineTimeReference
  rintro ⟨-, hstart, -⟩
  obtain ⟨u, hexec, -, -, -, -, -, hraises⟩ :=
    hstart 0 1000000 startingPartner (by decide) (by decide) (by decide) (by decide)
  rw [timeStart_partner (by decide) (by decide) rfl] at hexec
  obtain rfl := Host.Outcome.next.inj hexec
  obtain ⟨l, hl⟩ := State.raise_queue ((startingPartner.at 0).beginTime ((startingPartner.at 0).lineAt 1000000) 3) 0x8003
    islTime []
  have hhead := hraises.head (w := waitingRaise) rfl
  rw [hl, State.beginTime_queue] at hhead
  exact waitingRaise_moved (Option.some.inj hhead)

/-! ## A time restart (10 R501) -/

theorem timeRestart_named {k : TimeStep} {s : State} (h : s.time.step = some k) (hstart : k.start = false) :
    exec .timeRestart s = .next ((s.at k.at_).timeRestart k) := by
  rw [exec_timeRestart, execTimeRestart, h]
  exact congrArg Host.Outcome.next (if_neg (by simp [hstart]))

/-- A step of 1 ms at instant 0. -/
def millisecondStep : TimeStep := { at_ := 0, target := 1000000 }

/-- A module with a named step and a raise that waits. -/
def steppingModule : State :=
  { State.reset with time := { step := some millisecondStep }, recd := { queue := [waitingRaise] } }

/-- Refutes O31: its clause on the restart has the queue of the recorder as it was and 0x8020 behind it, but a raise that waits
at the instant of the step keeps its age: its tick moves with line time (`State.timeRestart_queue`). The counterexample is a
module with one raise that waits at a step of 1 ms. -/
theorem not_timeRestarts : ¬ Obligations.TimeRestarts := by
  unfold Obligations.TimeRestarts
  rintro ⟨-, -, -, -, -, -, -, hrestart, -⟩
  obtain ⟨u, hexec, -, -, -, -, hraises, -⟩ := hrestart millisecondStep steppingModule rfl rfl (by decide)
  rw [timeRestart_named rfl rfl] at hexec
  obtain rfl := Host.Outcome.next.inj hexec
  obtain ⟨l, hl⟩ := State.timeRestart_queue (s := steppingModule.at 0) millisecondStep rfl
  have hhead := hraises.head (w := waitingRaise) rfl
  rw [show millisecondStep.at_ = 0 from rfl, hl] at hhead
  exact waitingRaise_moved (Option.some.inj hhead)

end Sys2Proof.Machine
end

section
/-! Frames and publications of line links (11 R511, R515, R517, R518, R520). -/
namespace Sys2Proof.Machine

theorem exec_lineFrameRx (p : Fin 4) (b : List Byte) (t : Nat) (s : State) :
    exec (.lineFrameRx p b t) s = execLineFrameRx p b t s := by rfl

theorem exec_publicationFromActive (pub : Nat) (b : List Byte) (s : State) :
    exec (.publicationFromActive pub b) s = execPublicationFromActive pub b s := by rfl

/-! ## Publications (11 R515) -/

/-- A frame goes out of every listed line port that has link, and nothing else happens. -/
theorem State.lineOut_eq (s : State) (ports : Nat) (b : List Byte) : s.lineOut ports b =
    { s with out := s.out ++ (s.linePorts ports).map fun p => .lineFrame p (s.image.links.frame p b) } := State.each_send s _ _

theorem publicationFromActive_sends {pub : Nat} {b : List Byte} {r : PubRec} {s : State} (hon : s.lineOn = true)
    (hpassive : s.isActive = false) (hpub : s.image.links.pubs.find? (fun q => q.pubId = pub) = some r) :
    exec (.publicationFromActive pub b) s = .next { s with
      out := s.out ++ (s.linePorts r.outPorts).map fun q => .lineFrame q (s.image.links.frame q (lineTwin b s.twinB)) } := by
  rw [exec_publicationFromActive, execPublicationFromActive, hpub, ← State.lineOut_eq]
  exact congrArg Host.Outcome.next (if_pos (by simp [hon, hpassive]))

theorem publicationFromActive_active {pub : Nat} {b : List Byte} {s : State} (hactive : s.isActive = true) :
    exec (.publicationFromActive pub b) s = .next s := by
  rw [exec_publicationFromActive, execPublicationFromActive]
  split
  · exact congrArg Host.Outcome.next (if_neg (by simp [hactive]))
  · rfl

/-! ## Frames that arrive (11 R511, R517, R518) -/

/-- A frame with a bad FCS, or a line frame with a bad CRC, is counted at its port. -/
theorem lineFrameRx_bad {p : Fin 4} {b : List Byte} {t : Nat} {s : State} (hon : s.lineOn = true)
    (hbad : fcsOk b = false ∨ (s.image.links.takes b = true ∧ lineCrcOk (frameBody b) = false)) :
    exec (.lineFrameRx p b t) s = .next ((s.at t).bump (F.LNK_RX_BAD p.val) 1) := by
  have hon' : (s.at t).lineOn = true := hon
  rw [exec_lineFrameRx, execLineFrameRx]
  dsimp only
  rw [if_neg (by simp [hon'])]
  split
  · rfl
  · next hfcs =>
    obtain hfcs' | ⟨htakes, hcrc⟩ := hbad
    · exact absurd (by simp [hfcs']) hfcs
    · have htakes' : (s.at t).image.links.takes b = true := htakes
      rw [if_neg (by simp [htakes']), if_pos (by simp [hcrc])]

theorem lineFrameRx_foreign {p : Fin 4} {b : List Byte} {t : Nat} {s : State} (hfcs : fcsOk b = true)
    (htakes : s.image.links.takes b = false) : exec (.lineFrameRx p b t) s = .next (s.at t) := by
  have htakes' : (s.at t).image.links.takes b = false := htakes
  rw [exec_lineFrameRx, execLineFrameRx]
  dsimp only
  rw [if_neg (c := (!fcsOk b) = true) (by simp [hfcs]),
    if_pos (c := (!(s.at t).image.links.takes b) = true) (by simp [htakes']), ite_self]

/-- A good line frame of another pair is forwarded where FORWARDS lists it, and each subscription that it answers takes it. -/
theorem lineFrameRx_good {p : Fin 4} {f : List Byte} {t : Nat} {s : State} (hon : s.lineOn = true) (hfcs : fcsOk f = true)
    (htakes : s.image.links.takes f = true) (hcrc : lineCrcOk (frameBody f) = true)
    (hother : field (frameBody f) 2 2 ≠ s.image.links.pairId) :
    exec (.lineFrameRx p f t) s = .next (((s.at t).lineForward p.val f).each
      (((s.at t).lineForward p.val f).image.links.subs.zipIdx.filter fun e =>
        decide (e.1.srcPair = field (frameBody f) 2 2) && decide (e.1.pubId = field (frameBody f) 6 2))
      fun u e => u.subTake p.val (frameBody f) e) := by
  have hon' : (s.at t).lineOn = true := hon
  have htakes' : (s.at t).image.links.takes f = true := htakes
  have hother' : ¬ field (frameBody f) 2 2 = (s.at t).image.links.pairId := hother
  rw [exec_lineFrameRx, execLineFrameRx]
  dsimp only
  rw [if_neg (by simp [hon']), if_neg (by simp [hfcs]), if_neg (by simp [htakes']), if_neg (by simp [hcrc]), if_neg hother']

theorem State.lineForward_unlisted {s : State} {p : Nat} {f : List Byte} (h : s.image.links.fwds = []) :
    s.lineForward p f = s := by
  rw [State.lineForward]
  simp [h]

/-! ## Copies for a subscription (11 R520) -/

/-- A copy that is in time and has the form of its subscription is kept and told to the partner. -/
theorem State.subTake_keeps {s : State} {p : Nat} {b : List Byte} {e : SubRec} {i : Nat}
    (htime : s.now - boundaryNs (field b 12 8) ≤ couplingNs e.cls) (hpoints : field b 20 2 = e.points.length)
    (hcls : field b 5 1 = e.cls) (hboundary : isBoundary e.cls (field b 12 8) = true) (hcount : field b 12 8 ≤ s.count) :
    s.subTake p b (e, i) = (s.setSub i { s.sub i with own := some { n := field b 12 8, vals := lineVals b } }).send
      (.subCopy i (field b 12 8) (lineVals b)) := by
  rw [State.subTake]
  dsimp only
  rw [if_neg (Nat.not_lt.2 htime), if_neg (by simp [hpoints, hcls, hboundary, hcount])]

/-- With one subscription and nothing to forward, a copy in time for it changes that subscription alone. -/
theorem lineFrameRx_copy {p : Fin 4} {f : List Byte} {t : Nat} {e : SubRec} {s : State} (hon : s.lineOn = true)
    (hfcs : fcsOk f = true) (htakes : s.image.links.takes f = true) (hcrc : lineCrcOk (frameBody f) = true)
    (hsubs : s.image.links.subs = [e]) (hfwds : s.image.links.fwds = []) (hsrc : field (frameBody f) 2 2 = e.srcPair)
    (hother : e.srcPair ≠ s.image.links.pairId) (hpub : field (frameBody f) 6 2 = e.pubId) :
    exec (.lineFrameRx p f t) s = .next ((s.at t).subTake p.val (frameBody f) (e, 0)) := by
  have hsubs' : (s.at t).image.links.subs = [e] := hsubs
  rw [lineFrameRx_good hon hfcs htakes hcrc (hsrc ▸ hother), State.lineForward_unlisted (s := s.at t) hfwds, hsubs']
  simp [State.each, hsrc, hpub]

end Sys2Proof.Machine
end

section
/-! Subscriptions of line links (11 R520, R521, R525, R526; 08 R386, R387). -/
namespace Sys2Proof.Machine

theorem exec_couplingDeadline (sub : Fin 256) (n : Nat) (pv : PartnerCopy) (t : Nat) (s : State) :
    exec (.couplingDeadline sub n pv t) s = execCouplingDeadline sub n pv t s := by rfl

theorem exec_linkDecouple (sub : Fin 256) (s : State) : exec (.linkDecouple sub) s = execLinkDecouple sub s := by rfl

/-! ## The registers of a subscription -/

@[simp] theorem State.setSub_get (s : State) (i : Nat) (k : SubState) (f : Fld) : (s.setSub i k).get f = s.get f := rfl

/-- The register of a subscription is not LNK_STATUS. -/
theorem lnkStatus_ne_sub (i : Nat) : R.LNK_STATUS ≠ R.LNK_SUB i := by
  simp only [R.LNK_STATUS, R.LNK_SUB]
  omega

theorem State.subShow_only (s : State) (i st copies : Nat) :
    OnlyRegs s (s.subShow i st copies) [R.LNK_SUB i, R.LNK_STATUS] := by
  have hsub : R.LNK_SUB i ∈ [R.LNK_SUB i, R.LNK_STATUS] := List.mem_cons_self ..
  have hstatus : R.LNK_STATUS ∈ [R.LNK_SUB i, R.LNK_STATUS] := List.mem_cons_of_mem _ (List.mem_cons_self ..)
  exact ((((OnlyRegs.refl s _).put (f := F.LNK_SUB_STATE i) _ hsub).put (f := F.LNK_SUB_COPIES i) _ hsub).putB
    (f := F.LNK_STATUS_DECOUPLED) _ hstatus).putB (f := F.LNK_STATUS_SINGLE) _ hstatus

@[simp] theorem State.subShow_recd (s : State) (i st copies : Nat) : (s.subShow i st copies).recd = s.recd :=
  (s.subShow_only i st copies).recd

@[simp] theorem State.subShow_sub (s : State) (i st copies j : Nat) : (s.subShow i st copies).sub j = s.sub j := by
  rw [(s.subShow_only i st copies).1]
  rfl

/-- A field of the register of a subscription once the summary flags are shown too. -/
theorem State.subShow_get (s : State) {i : Nat} (st copies : Nat) {f : Fld} (hf : f.off = R.LNK_SUB i) :
    (s.subShow i st copies).get f = ((s.put (F.LNK_SUB_STATE i) st).put (F.LNK_SUB_COPIES i) copies).get f := by
  have hne : R.LNK_STATUS ≠ f.off := hf ▸ lnkStatus_ne_sub i
  exact (State.get_put_ne (f := F.LNK_STATUS_SINGLE) _ _ (.inl hne)).trans
    (State.get_put_ne (f := F.LNK_STATUS_DECOUPLED) _ _ (.inl hne))

theorem State.subShow_state (s : State) (i : Nat) {st : Nat} (copies : Nat) (hst : st < 4) :
    (s.subShow i st copies).get (F.LNK_SUB_STATE i) = st := by
  rw [s.subShow_get _ _ rfl, State.get_put_ne _ _ (.inr ⟨show 0 + 2 ≤ 32 by decide, .inr (show 0 + 2 ≤ 2 by decide)⟩),
    State.get_put_same _ _ (show 0 + 2 ≤ 32 by decide)]
  exact Nat.mod_eq_of_lt hst

theorem State.subShow_copies (s : State) (i st : Nat) {copies : Nat} (hcopies : copies < 4) :
    (s.subShow i st copies).get (F.LNK_SUB_COPIES i) = copies := by
  rw [s.subShow_get _ _ rfl, State.get_put_same _ _ (show 2 + 2 ≤ 32 by decide)]
  exact Nat.mod_eq_of_lt hcopies

theorem State.subShow_missed (s : State) (i st copies : Nat) :
    (s.subShow i st copies).get (F.LNK_SUB_MISSED i) = s.get (F.LNK_SUB_MISSED i) := by
  rw [s.subShow_get _ _ rfl, State.get_put_ne _ _ (.inr ⟨show 16 + 16 ≤ 32 by decide, .inl (show 2 + 2 ≤ 16 by decide)⟩),
    State.get_put_ne _ _ (.inr ⟨show 16 + 16 ≤ 32 by decide, .inl (show 0 + 2 ≤ 16 by decide)⟩)]

/-- A subscription of the image that is shown DECOUPLED sets the summary flag. -/
theorem State.subShow_decoupled (s : State) {i : Nat} (copies : Nat) (hi : i < s.image.links.subs.length) :
    (s.subShow i 2 copies).on F.LNK_STATUS_DECOUPLED = true := by
  have hshown : ((s.put (F.LNK_SUB_STATE i) 2).put (F.LNK_SUB_COPIES i) copies).get (F.LNK_SUB_STATE i) = 2 :=
    (s.subShow_get 2 copies rfl).symm.trans (s.subShow_state i copies (by decide))
  have hany : (List.range s.image.links.subs.length).any (fun j =>
      decide (((s.put (F.LNK_SUB_STATE i) 2).put (F.LNK_SUB_COPIES i) copies).get (F.LNK_SUB_STATE j) = 2)) = true :=
    List.any_eq_true.2 ⟨i, List.mem_range.2 hi, decide_eq_true hshown⟩
  refine decide_eq_true ((State.get_put_ne (f := F.LNK_STATUS_SINGLE) _ _ (.inr (by decide))).trans
    ((State.get_put_same _ _ (by decide)).trans ?_))
  exact congrArg (fun b => b2n b % 2 ^ 1) hany

/-! ## The coupling deadline (11 R520) -/

/-- The coupling deadline of a subscription for a boundary has passed, and it has not been judged. -/
structure State.DeadlineDue (s : State) (e : SubRec) (i n : Nat) : Prop where
  subscribed : s.image.links.subs[i]? = some e
  runs : s.lineOn = true
  boundary : isBoundary e.cls n = true
  passed : boundaryNs n + couplingNs e.cls ≤ s.now
  unjudged : ∀ m : Nat, (s.sub i).judged = some m → m < n

/-- The values of the copy of a boundary that this module received. -/
def State.ownCopy (s : State) (i n : Nat) : Option (List PointVal) :=
  ((s.sub i).own.filter fun c => c.n = n).map fun c => c.vals

theorem State.ownCopy_kept {s : State} {i n : Nat} {c : SubCopy} (hown : (s.sub i).own = some c) (hn : c.n = n) :
    s.ownCopy i n = some c.vals := by
  rw [State.ownCopy, hown, Option.filter_some, if_pos (decide_eq_true hn), Option.map_some]

theorem State.ownCopy_none {s : State} {i n : Nat} (hown : (s.sub i).own = none) : s.ownCopy i n = none := by
  rw [State.ownCopy, hown, Option.filter_none, Option.map_none]

theorem couplingDeadline_due {sub : Fin 256} {n t : Nat} {pv : PartnerCopy} {e : SubRec} {s : State}
    (h : (s.at t).DeadlineDue e sub.val n) : exec (.couplingDeadline sub n pv t) s =
      .next ((s.at t).subJudge e sub.val n
        (resolveCopies s.twinB (s.ownCopy sub.val n) (if s.agrees then pv else .invalid))) := by
  have hopen : ¬ ((s.at t).sub sub.val).judged.any (fun m => n ≤ m) = true := by
    cases hj : ((s.at t).sub sub.val).judged with
    | none => simp
    | some m => simpa using h.unjudged m hj
  have hjudge : ¬((!(s.at t).lineOn) = true ∨ (!isBoundary e.cls n) = true ∨
      (s.at t).now < boundaryNs n + couplingNs e.cls ∨ ((s.at t).sub sub.val).judged.any (fun m => n ≤ m) = true) := by
    rintro (hoff | hother | hearly | hany)
    · simp [h.runs] at hoff
    · simp [h.boundary] at hother
    · exact Nat.not_lt.2 h.passed hearly
    · exact hopen hany
  rw [exec_couplingDeadline, execCouplingDeadline]
  dsimp only
  rw [h.subscribed]
  dsimp only
  rw [if_neg hjudge]
  rfl

theorem couplingDeadline_judged {sub : Fin 256} {n m t : Nat} {pv : PartnerCopy} {s : State}
    (hjudged : (s.sub sub.val).judged = some m) (hn : n ≤ m) :
    exec (.couplingDeadline sub n pv t) s = .next (s.at t) := by
  have hany : ((s.at t).sub sub.val).judged.any (fun k => n ≤ k) = true := by
    rw [show ((s.at t).sub sub.val).judged = some m from hjudged]
    simpa using hn
  rw [exec_couplingDeadline, execCouplingDeadline]
  dsimp only
  split
  · rfl
  · exact congrArg Host.Outcome.next (if_pos (.inr (.inr (.inr hany))))

/-! ## Two copies (11 R521; 08 R386, R387) -/

/-- The own copy alone, where segments are not resolved with the partner, or nothing valid came from it. -/
theorem resolveCopies_own {agrees b : Bool} {v : List PointVal} {pv : PartnerCopy}
    (h : agrees = true → pv = .invalid ∨ pv = .silent) :
    resolveCopies b (some v) (if agrees then pv else .invalid) =
      { vals := some v, source := 1 + b2n b, copies := 1 + b2n b, listed := decide (agrees = true ∧ pv = .silent) } := by
  cases agrees with
  | false => rfl
  | true => obtain rfl | rfl := h rfl <;> rfl

/-- No copy of the own module and none in full of the partner: there is no value. -/
theorem resolveCopies_none {agrees b : Bool} {pv : PartnerCopy} (h : ∀ v, pv ≠ .full v) :
    (resolveCopies b none (if agrees then pv else .invalid)).vals = none := by
  cases agrees with
  | false => rfl
  | true =>
    cases pv with
    | full v => exact absurd rfl (h v)
    | silent => rfl
    | invalid => rfl
    | digest => rfl

/-! ## A period with a copy (11 R521, R526) -/

/-- A subscription once values of boundary `n` enter. -/
def SubState.entered (k : SubState) (e : SubRec) (n : Nat) (v : List PointVal) (source : Nat) (diff : Bool) : SubState :=
  { k with own := none, judged := some n, before := k.last, last := v.map fun x => x.v, cur := v.map fun x => x.v,
           missed := 0, was := (k.last, k.before, k.cur, k.missed),
           pend := k.pend ++ [(entersImage e.cls n, e.points.zip (v.map fun x => some (x.v, subQ x.q source diff)))] }

theorem State.subCoupled_holds {s : State} {e : SubRec} {i n : Nat} {v : List PointVal} {source copies : Nat} {diff : Bool}
    (h : s.get (F.LNK_SUB_STATE i) ≠ 2) : s.subCoupled e i n v source diff copies =
      (s.setSub i ((s.sub i).entered e n v source diff)).subShow i 1 copies := by
  rw [State.subCoupled]
  exact congrArg (fun u : State => u.subShow i 1 copies) (if_neg h)

/-- What a judged subscription lists, once its values, or none, are taken. -/
theorem State.subJudge_some {s : State} {e : SubRec} {i n : Nat} {r : SubResolution} {v : List PointVal} (hv : r.vals = some v) :
    s.subJudge e i n r = (s.subCoupled e i n v r.source r.diff r.copies).setSub i
      { (s.subCoupled e i n v r.source r.diff r.copies).sub i with listed := if r.listed then some n else none } := by
  rw [State.subJudge, hv]

theorem State.subJudge_none {s : State} {e : SubRec} {i n : Nat} {r : SubResolution} (hv : r.vals = none) :
    s.subJudge e i n r = (s.subMissed e i n).setSub i
      { (s.subMissed e i n).sub i with listed := if r.listed then some n else none } := by
  rw [State.subJudge, hv]

/-- A subscription that is not DECOUPLED takes values: they wait for the image of their boundary, it is shown COUPLED, and no
event is raised. -/
theorem State.subJudge_values {s : State} {e : SubRec} {i n : Nat} {r : SubResolution} {v : List PointVal}
    (hv : r.vals = some v) (hstate : s.get (F.LNK_SUB_STATE i) ≠ 2) (hcopies : r.copies < 4) :
    (s.subJudge e i n r).get (F.LNK_SUB_STATE i) = 1 ∧ (s.subJudge e i n r).get (F.LNK_SUB_COPIES i) = r.copies ∧
      (s.subJudge e i n r).sub i =
        { (s.sub i).entered e n v r.source r.diff with listed := if r.listed then some n else none } ∧
      (s.subJudge e i n r).recd = s.recd := by
  rw [State.subJudge_some hv, State.subCoupled_holds hstate, State.subShow_sub, State.sub_setSub, if_pos rfl]
  refine ⟨?_, ?_, ?_, ?_⟩
  · rw [State.setSub_get, State.subShow_state _ _ _ (by decide)]
  · rw [State.setSub_get, State.subShow_copies _ _ _ hcopies]
  · rw [State.sub_setSub, if_pos rfl]
  · rw [State.setSub_recd, State.subShow_recd, State.setSub_recd]

/-! ## A period without one (11 R525, R526) -/

/-- What a period without a copy does to a subscription; whether it uses a free value, no register says. -/
theorem State.subMissed_eq (s : State) (e : SubRec) (i n : Nat) : ∃ (t : State) (k : SubState),
    t.regs = s.regs ∧ k.missed = (s.sub i).missed + 1 ∧
    s.subMissed e i n = ((t.setSub i k).bump (F.LNK_SUB_MISSED i) 1).subShow i (max 1 (s.get (F.LNK_SUB_STATE i))) 0 :=
  ⟨if (s.sub i).before = [] then s.take else s, _, by split <;> rfl, rfl, rfl⟩

theorem State.subMissed_shows (s : State) (e : SubRec) (i n : Nat) :
    ((s.subMissed e i n).sub i).missed = (s.sub i).missed + 1 ∧ (s.subMissed e i n).get (F.LNK_SUB_COPIES i) = 0 ∧
      (s.subMissed e i n).get (F.LNK_SUB_MISSED i) =
        min (s.get (F.LNK_SUB_MISSED i) + 1) (2 ^ (F.LNK_SUB_MISSED i).len - 1) := by
  obtain ⟨t, k, hregs, hmissed, hshow⟩ := s.subMissed_eq e i n
  have hget : (t.setSub i k).get (F.LNK_SUB_MISSED i) = s.get (F.LNK_SUB_MISSED i) := by
    rw [State.setSub_get, State.get, State.rd, hregs]
    rfl
  have hsub : ((t.setSub i k).bump (F.LNK_SUB_MISSED i) 1).sub i = k := (State.sub_setSub t i i k).trans (if_pos rfl)
  rw [hshow, State.subShow_sub, hsub, State.subShow_missed, State.get_bump_same _ _ (show 16 + 16 ≤ 32 by decide), hget]
  exact ⟨hmissed, State.subShow_copies _ i _ (by decide), rfl⟩

theorem State.subJudge_missed {s : State} {e : SubRec} {i n : Nat} {r : SubResolution} (hv : r.vals = none) :
    ((s.subJudge e i n r).sub i).missed = (s.sub i).missed + 1 ∧ (s.subJudge e i n r).get (F.LNK_SUB_COPIES i) = 0 ∧
      (s.subJudge e i n r).get (F.LNK_SUB_MISSED i) =
        min (s.get (F.LNK_SUB_MISSED i) + 1) (2 ^ (F.LNK_SUB_MISSED i).len - 1) := by
  obtain ⟨hmissed, hshown⟩ := s.subMissed_shows e i n
  rw [State.subJudge_none hv, State.sub_setSub, if_pos rfl, State.setSub_get, State.setSub_get]
  exact ⟨hmissed, hshown⟩

/-! ## Decoupling (11 R526) -/

theorem linkDecouple_due {sub : Fin 256} {e : SubRec} {s : State} (hsub : s.image.links.subs[sub.val]? = some e)
    (hmissed : s.image.links.decoupleN ≤ (s.sub sub.val).missed) (hstate : s.get (F.LNK_SUB_STATE sub.val) = 1) :
    exec (.linkDecouple sub) s = .next ((s.subShow sub.val 2 (s.get (F.LNK_SUB_COPIES sub.val))).raise 0x9010 (islLine 0)
      (le 1 sub.val ++ le 4 e.policy)) := by
  rw [exec_linkDecouple, execLinkDecouple, hsub]
  exact congrArg Host.Outcome.next (if_pos ⟨hmissed, hstate⟩)

theorem linkDecouple_shows {sub : Fin 256} {e : SubRec} {s : State} (hsub : s.image.links.subs[sub.val]? = some e)
    (hmissed : s.image.links.decoupleN ≤ (s.sub sub.val).missed) (hstate : s.get (F.LNK_SUB_STATE sub.val) = 1)
    (hroom : s.Room (islLine 0)) : Steps (exec (.linkDecouple sub) s) fun u =>
      u.get (F.LNK_SUB_STATE sub.val) = 2 ∧ u.on F.LNK_STATUS_DECOUPLED = true ∧
      Raises s u 0x9010 (islLine 0) (le 1 sub.val ++ le 4 e.policy) ∧ SameRegs s u [R.LNK_SUB sub.val, R.LNK_STATUS] := by
  have hlt : sub.val < s.image.links.subs.length := (List.getElem?_eq_some_iff.1 hsub).1
  have hrecd := s.subShow_recd sub.val 2 (s.get (F.LNK_SUB_COPIES sub.val))
  have hroom' : (s.subShow sub.val 2 (s.get (F.LNK_SUB_COPIES sub.val))).Room (islLine 0) := by rwa [State.Room, hrecd]
  refine ⟨_, linkDecouple_due hsub hmissed hstate, ?_, ?_, Raises.raise hroom hrecd _ _, ?_⟩
  · rw [State.raise_room_get hroom', State.subShow_state _ _ _ (by decide)]
  · rw [State.on, State.raise_room_get hroom']
    exact s.subShow_decoupled _ hlt
  · exact SameRegs.of_regs (State.raise_room_regs hroom' _ _) (s.subShow_only _ _ _).2

end Sys2Proof.Machine
end

section
/-! Line ports and pluggables (11 R527; 20 R817, R818), and the obligation about line links. -/
namespace Sys2Proof.Machine

theorem exec_linePortLinkChange (p : Fin 4) (up : Bool) (t : Nat) (s : State) :
    exec (.linePortLinkChange p up t) s = .next ((s.at t).lineLink p.val up) := by rfl

theorem exec_pluggableInsert (c : Fin 22) (kind power t : Nat) (s : State) :
    exec (.pluggableInsert c kind power t) s = execPluggableInsert c kind power t s := by rfl

theorem exec_pluggableRemove (c : Fin 22) (t : Nat) (s : State) :
    exec (.pluggableRemove c t) s = execPluggableRemove c t s := by rfl

/-! ## Line ports (11 R527) -/

/-- Whether a line port has link is read off its bit of LNK_STATUS. -/
theorem State.linkUp_bit (s : State) {p : Nat} (hp : p < 4) :
    bitOf (s.get F.LNK_STATUS_LINK_UP) p = (s.rd R.LNK_STATUS).getLsbD p := by
  rw [bitOf, State.get, getBits_testBit]
  simp [F.LNK_STATUS_LINK_UP, R.LNK_STATUS, hp]

/-- A line port that changes shows its link and raises the event of the change. -/
theorem State.lineLink_changes {s : State} {p : Nat} {up : Bool} (hchange : bitOf (s.get F.LNK_STATUS_LINK_UP) p = !up)
    (hcage : up = true → s.cageOn (16 + p) = true) : s.lineLink p up =
      (s.setBit R.LNK_STATUS p up).raise (if up then 0x9002 else 0x9001) (islLine p) (if up then [] else le 1 p) := by
  rw [State.lineLink]
  cases up with
  | false => rw [if_neg (by simp [hchange])]; rfl
  | true => rw [if_neg (by simp [hchange, hcage rfl])]; rfl

theorem linePortLinkChange_shows {p : Fin 4} {up : Bool} {t : Nat} {s : State}
    (hchange : bitOf (s.get F.LNK_STATUS_LINK_UP) p.val = !up) (hcage : up = true → s.cageOn (16 + p.val) = true)
    (hroom : s.Room (islLine p.val)) : Steps (exec (.linePortLinkChange p up t) s) fun u =>
      bitOf (u.get F.LNK_STATUS_LINK_UP) p.val = up ∧
      Raises s u (if up then 0x9002 else 0x9001) (islLine p.val) (if up then [] else le 1 p.val) ∧
      SameRegs s u [R.LNK_STATUS] := by
  have hroom' : ((s.at t).setBit R.LNK_STATUS p.val up).Room (islLine p.val) := hroom
  have hset : OnlyRegs (s.at t) ((s.at t).setBit R.LNK_STATUS p.val up) [R.LNK_STATUS] :=
    (OnlyRegs.refl _ _).setBit _ _ (List.mem_cons_self ..)
  refine ⟨_, (exec_linePortLinkChange p up t s).trans
    (congrArg Host.Outcome.next (State.lineLink_changes (s := s.at t) hchange hcage)), ?_, ?_, ?_⟩
  · rw [State.raise_room_get hroom', State.linkUp_bit _ p.isLt]
    exact State.setBit_getLsbD _ _ up (Nat.lt_trans p.isLt (by decide))
  · exact Raises.raise hroom hset.recd _ _
  · exact SameRegs.of_regs (State.raise_room_regs hroom' _ _) hset.2

/-! ## Pluggables (20 R817, R818) -/

/-- Only the cage of a ring port gives a ring its physical layer. -/
theorem State.cageLayer_notRing {s : State} {c : Nat} (h : 16 ≤ c) : s.cageLayer c = s := by
  rw [State.cageLayer]
  exact if_neg fun hring => absurd hring.2 (Nat.not_lt.2 h)

/-- A plant port that loses link changes nothing: only ring and line ports show theirs. -/
theorem State.cageDown_plant {s : State} {c : Nat} (h : 20 ≤ c) : s.cageDown c = s := by
  rw [State.cageDown, if_neg (by omega), if_neg (by omega)]

/-- A pluggable as its identification gives it stands in its cage. -/
def State.plugged (s : State) (c kind power : Nat) : State :=
  s.pw fun q => { q with cages := tset (0, 0) q.cages c (kind, power) }

@[simp] theorem State.plugged_cage (s : State) (c kind power : Nat) : (s.plugged c kind power).cage c = (kind, power) :=
  tget_tset_same ..

/-- Outside the ring ports a pluggable that comes is held against its port, and nothing else happens. -/
theorem pluggableInsert_judges {c : Fin 22} {kind power t : Nat} {s : State} (h : 16 ≤ c.val) :
    exec (.pluggableInsert c kind power t) s = .next (((s.at t).plugged c.val kind power).cageJudge c.val) := by
  rw [exec_pluggableInsert, execPluggableInsert, ← State.plugged]
  rw [State.cageLayer_notRing h]

/-- A pluggable of a type of its port and within its power is enabled. -/
theorem State.cageJudge_enables {s : State} {c : Nat} (htype : (s.cage c).1 ∈ s.cageTypes c)
    (hpower : (s.cage c).2 ≤ cagePower c) :
    s.cageJudge c = s.pw fun q => { q with cagesOff := q.cagesOff.filter fun x => x ≠ c } := by
  have hgood : (decide ((s.cage c).1 ≠ 0) && (!(s.cageTypes c).contains (s.cage c).1 || decide ((s.cage c).2 > cagePower c))) =
      false := by
    simp [htype, hpower]
  rw [State.cageJudge, hgood]
  rfl

/-- The pluggable of a cage is not enabled. -/
def State.cageHeld (s : State) (c : Nat) : State :=
  s.pw fun q => { q with cagesOff := [c] ++ q.cagesOff.filter fun x => x ≠ c }

theorem State.cageHeld_off (s : State) (c : Nat) : c ∈ (s.cageHeld c).pwr.cagesOff := List.mem_cons_self ..

/-- A pluggable of a type that its port does not take is held off, the port goes down, and 0xD040 says so. -/
theorem State.cageJudge_refuses {s : State} {c : Nat} (hkind : (s.cage c).1 ≠ 0) (htype : ¬ (s.cage c).1 ∈ s.cageTypes c) :
    s.cageJudge c = ((s.cageHeld c).cageDown c).raise 0xD040 islMgmt (le 1 c ++ le 4 (s.cage c).1) := by
  have hbad : (decide ((s.cage c).1 ≠ 0) && (!(s.cageTypes c).contains (s.cage c).1 || decide ((s.cage c).2 > cagePower c))) =
      true := by
    simp [hkind, htype]
  rw [State.cageJudge, hbad]
  exact (if_neg (by decide)).trans (if_pos (by simp [htype]))

theorem pluggableInsert_enables {c : Fin 22} {kind power t : Nat} {s : State} (hc : 16 ≤ c.val)
    (htype : kind ∈ s.cageTypes c.val) (hpower : power ≤ cagePower c.val) :
    Steps (exec (.pluggableInsert c kind power t) s) fun u => u.cage c.val = (kind, power) ∧
      c.val ∉ u.pwr.cagesOff ∧ u = { s with pwr := u.pwr, now := max s.now t } := by
  have hcage := (s.at t).plugged_cage c.val kind power
  refine ⟨_, (pluggableInsert_judges hc).trans (congrArg Host.Outcome.next (State.cageJudge_enables ?_ ?_)), hcage, ?_, rfl⟩
  · rw [hcage]
    exact htype
  · rw [hcage]
    exact hpower
  · simp

theorem pluggableInsert_refuses {c : Fin 22} {kind power t : Nat} {s : State} (hc : 20 ≤ c.val) (hkind : kind ≠ 0)
    (htype : ¬ kind ∈ s.cageTypes c.val) (hroom : s.Room islMgmt) :
    Steps (exec (.pluggableInsert c kind power t) s) fun u => c.val ∈ u.pwr.cagesOff ∧
      Raises s u 0xD040 islMgmt (le 1 c.val ++ le 4 kind) ∧ u.regs = s.regs := by
  have hcage := (s.at t).plugged_cage c.val kind power
  have htype' : ¬ kind ∈ ((s.at t).plugged c.val kind power).cageTypes c.val := htype
  have hjudge : ((s.at t).plugged c.val kind power).cageJudge c.val =
      (((s.at t).plugged c.val kind power).cageHeld c.val).raise 0xD040 islMgmt (le 1 c.val ++ le 4 kind) := by
    rw [State.cageJudge_refuses (by rwa [hcage]) (by rwa [hcage]), State.cageDown_plant hc, hcage]
  have hroom' : (((s.at t).plugged c.val kind power).cageHeld c.val).Room islMgmt := hroom
  have hrecd : (((s.at t).plugged c.val kind power).cageHeld c.val).recd = s.recd := rfl
  have hregs : (((s.at t).plugged c.val kind power).cageHeld c.val).regs = s.regs := rfl
  rw [pluggableInsert_judges (Nat.le_trans (by decide) hc), hjudge]
  refine ⟨_, rfl, ?_, Raises.raise hroom hrecd _ _, (State.raise_room_regs hroom' _ _).trans hregs⟩
  rw [State.raise_pwr]
  exact State.cageHeld_off ((s.at t).plugged c.val kind power) c.val

theorem pluggableRemove_plant {c : Fin 22} {t : Nat} {s : State} (hc : 20 ≤ c.val) :
    exec (.pluggableRemove c t) s = .next ((s.at t).pw fun q => { q with
      cages := tset (0, 0) q.cages c.val (0, 0), cagesOff := q.cagesOff.filter fun x => x ≠ c.val }) := by
  rw [exec_pluggableRemove, execPluggableRemove]
  rw [State.cageDown_plant hc, State.cageLayer_notRing (Nat.le_trans (by decide) hc)]

/-! ## The clauses -/

/-- Settles O33: each clause is the rule of its command in its case. -/
theorem lineLinks : Obligations.LineLinks := by
  unfold Obligations.LineLinks
  refine ⟨?bad, ?copy, ?publication, ?own, ?both, ?missed, ?decouple, ?down, ?up, ?enabled, ?refused, ?removed, ?foreign,
    ?active, ?judged⟩
  case bad =>
    intro p b t s hon hbad
    exact ⟨_, lineFrameRx_bad hon hbad, State.get_bump_same (s.at t) 1 (show 0 + 16 ≤ 32 by decide),
      (OnlyRegs.refl _ _).bump _ (List.mem_cons_self ..)⟩
  case copy =>
    intro p b f t e s hon hfcs htakes hb hcrc hsubs hfwds hsrc hother hpub hpoints hcls hboundary hcount htime
    subst hb
    refine ⟨_, (lineFrameRx_copy hon hfcs htakes hcrc hsubs hfwds hsrc hother hpub).trans (congrArg Host.Outcome.next
      (State.subTake_keeps (s := s.at t) htime hpoints hcls hboundary hcount)), ?_, rfl, rfl⟩
    exact congrArg SubState.own ((State.sub_setSub (s.at t) ..).trans (if_pos rfl))
  case publication => exact fun pub b r s hon hpassive hpub => ⟨_, publicationFromActive_sends hon hpassive hpub, rfl, rfl⟩
  case own =>
    intro sub n pv t e c s hsub hon hboundary hpassed hjudged halone hown hn hstate
    have hexec := couplingDeadline_due (pv := pv) (s := s) (t := t) ⟨hsub, hon, hboundary, hpassed, hjudged⟩
    rw [State.ownCopy_kept hown hn, resolveCopies_own halone] at hexec
    obtain ⟨hst, hcopies, hk, hrecd⟩ := State.subJudge_values (s := s.at t) (e := e) (i := sub.val) (n := n) (r := {
      vals := some c.vals, source := 1 + b2n s.twinB, copies := 1 + b2n s.twinB
      listed := decide (s.agrees = true ∧ pv = .silent) }) rfl hstate (show 1 + b2n s.twinB < 4 by cases s.twinB <;> decide)
    refine ⟨_, hexec, hst, hcopies, ?_, ?_, ?_, hrecd⟩
    all_goals rw [hk]
    · rfl
    · rfl
    · simp
  case both =>
    intro sub n v t e c s hsub hon hboundary hpassed hjudged hagrees hown hn hstate
    have hexec := couplingDeadline_due (pv := .full v) (s := s) (t := t) ⟨hsub, hon, hboundary, hpassed, hjudged⟩
    rw [State.ownCopy_kept hown hn, if_pos hagrees] at hexec
    obtain ⟨hst, hcopies, hk, hrecd⟩ := State.subJudge_values (s := s.at t) (e := e) (i := sub.val) (n := n)
      (r := resolveCopies s.twinB (some c.vals) (.full v)) rfl hstate (show 3 < 4 by decide)
    refine ⟨_, hexec, hst, hcopies, ?_, ?_, hrecd⟩
    all_goals rw [hk]
    · rfl
    · rfl
  case missed =>
    intro sub n pv t e s hsub hon hboundary hpassed hjudged hfull hown
    have hexec := couplingDeadline_due (pv := pv) (s := s) (t := t) ⟨hsub, hon, hboundary, hpassed, hjudged⟩
    rw [State.ownCopy_none hown] at hexec
    exact ⟨_, hexec, State.subJudge_missed (s := s.at t) (resolveCopies_none hfull)⟩
  case decouple => exact fun sub e s hsub hmissed hstate hroom => linkDecouple_shows hsub hmissed hstate hroom
  case down => exact fun p t s hlink hroom => linePortLinkChange_shows (up := false) hlink nofun hroom
  case up => exact fun p t s hlink hcage hroom => linePortLinkChange_shows (up := true) hlink (fun _ => hcage) hroom
  case enabled => exact fun c kind power t s hc htype hpower => pluggableInsert_enables hc htype hpower
  case refused => exact fun c kind power t s hc hkind htype hroom => pluggableInsert_refuses hc hkind htype hroom
  case removed =>
    exact fun c t s hc =>
      ⟨_, pluggableRemove_plant hc, by simp, tget_tset_same (0, 0) s.pwr.cages c.val (0, 0), rfl⟩
  case foreign => exact fun p b t s hfcs htakes => lineFrameRx_foreign hfcs htakes
  case active => exact fun pub b s hactive => publicationFromActive_active hactive
  case judged => exact fun sub n m pv t s hjudged hn => couplingDeadline_judged hjudged hn

end Sys2Proof.Machine
end

section
/-! The step of the block, and SEQ over a step (17 R747). -/
namespace Sys2Proof.Machine

/-- A command of a state in canonical form answers a next state, which keeps the form and the queue. -/
theorem exec_keepsCanon {s : State} (c : Instr) (h : s.Canon) :
    Steps (exec c s) fun t => t.Canon ∧ t.pending = s.pending := by
  obtain ⟨t, hexec, hregs, hlatch, hmem, hflash, hqueue, -⟩ := exec_canon c h.ok
  exact ⟨t, hexec, ⟨hregs, hlatch, hmem, hflash⟩, hqueue⟩

/-- Settles O1: a step is its front command by definition, and no command stops (`exec_keepsCanon`). -/
theorem stepTakesFront : Obligations.StepTakesFront := by
  refine ⟨fun s c rest hfront => ?front, fun s hempty => ?idle, fun c s h => exec_keepsCanon c h⟩
  case front => rw [step, hfront]
  case idle => rw [step, hempty]

/-- Settles O5: a command of a module with sound MRAM regions keeps SEQ from falling and the record of the latest SEQ held
(`exec_canon`), and a step is one command. -/
theorem seqNeverFalls : Obligations.SeqNeverFalls := by
  intro s t h ⟨hsound, hheld⟩ hstep
  obtain ⟨u, hnext, -, -, -, -, -, hkeys, hseq, -⟩ := step_ok h
  obtain rfl : u = t := Host.Outcome.next.inj (hnext.symm.trans hstep)
  obtain ⟨hrise, hkept⟩ := hseq (decide_eq_true hsound) (decide_eq_true hheld)
  exact ⟨hrise, (hkeys (decide_eq_true hsound)).1, hkept⟩

end Sys2Proof.Machine
end

section
/-! The register file of a core pair (12 R535, R536, R538) and the words of the instruction groups (12 R547 to R549). -/
namespace Sys2Proof.Machine

/-! ## Windows -/

/-- The homes of two registers of one window differ. -/
theorem winKey_injective {w n m : Nat} (hw : w < 16) (hn : 8 ≤ n) (hn' : n < 32) (hm : 8 ≤ m) (hm' : m < 32)
    (h : winKey w n = winKey w m) : n = m := by
  unfold winKey at h
  repeat' split at h
  all_goals omega

theorem CoreState.cwp_lt (k : CoreState) : k.cwp < 16 := Nat.mod_lt _ (by decide)

theorem CoreState.setWinReg_low (k : CoreState) (w : Nat) {n : Nat} (v : DWord) (h0 : n ≠ 0) (h : n < 8) :
    k.setWinReg w n v = { k with g := tset 0 k.g n v } := by
  rw [CoreState.setWinReg, if_neg h0, if_pos h]

theorem CoreState.setWinReg_high (k : CoreState) (w : Nat) {n : Nat} (v : DWord) (h : 8 ≤ n) :
    k.setWinReg w n v = { k with win := tset 0 k.win (winKey w n) v } := by
  rw [CoreState.setWinReg, if_neg (by omega), if_neg (by omega)]

theorem CoreState.winReg_low (k : CoreState) (w : Nat) {n : Nat} (h0 : n ≠ 0) (h : n < 8) : k.winReg w n = tget 0 k.g n := by
  rw [CoreState.winReg, if_neg h0, if_pos h]

theorem CoreState.winReg_high (k : CoreState) (w : Nat) {n : Nat} (h : 8 ≤ n) :
    k.winReg w n = tget 0 k.win (winKey w n) := by
  rw [CoreState.winReg, if_neg (by omega), if_neg (by omega)]

@[simp] theorem CoreState.winReg_zero (k : CoreState) (w : Nat) : k.winReg w 0 = 0 := rfl

/-- A register of a window after a write of one. -/
theorem CoreState.winReg_setWinReg (k : CoreState) {w n m : Nat} (v : DWord) (hw : w < 16) (hn : n < 32) (hm : m < 32) :
    (k.setWinReg w n v).winReg w m = if m = n ∧ n ≠ 0 then v else k.winReg w m := by
  obtain rfl | hn0 := eq_or_ne n 0
  · simp [CoreState.setWinReg]
  obtain rfl | hm0 := eq_or_ne m 0
  · simp [hn0.symm]
  obtain hn8 | hn8 := Nat.lt_or_ge n 8 <;> obtain hm8 | hm8 := Nat.lt_or_ge m 8
  · rw [k.setWinReg_low w v hn0 hn8, CoreState.winReg_low _ w hm0 hm8, k.winReg_low w hm0 hm8, tget_tset]
    simp [hn0, eq_comm]
  · rw [k.setWinReg_low w v hn0 hn8, if_neg (by omega), CoreState.winReg_high _ w hm8, k.winReg_high w hm8]
  · rw [k.setWinReg_high w v hn8, if_neg (by omega), CoreState.winReg_low _ w hm0 hm8, k.winReg_low w hm0 hm8]
  · have hkey : winKey w n = winKey w m ↔ m = n := ⟨fun h => (winKey_injective hw hn8 hn hm8 hm h).symm, fun h => h ▸ rfl⟩
    rw [k.setWinReg_high w v hn8, CoreState.winReg_high _ w hm8, k.winReg_high w hm8, tget_tset]
    simp [hn0, hkey]

/-! ## Registers of the current window -/

@[simp] theorem CoreState.reg_zero (k : CoreState) : k.reg 0 = 0 := by
  unfold CoreState.reg CoreState.winReg
  split <;> rfl

@[simp] theorem CoreState.setReg_zero (k : CoreState) (v : DWord) : k.setReg 0 v = k := by
  unfold CoreState.setReg CoreState.setWinReg
  split <;> rfl

/-- What a write of a register changes: the globals and windows at U, the trap window at S and M. -/
theorem CoreState.setReg_eq (k : CoreState) (n : Nat) (v : DWord) :
    k.setReg n v = { k with g := (k.setReg n v).g, win := (k.setReg n v).win, trap := (k.setReg n v).trap } ∧
      (k.level ≠ 0 → (k.setReg n v).g = k.g ∧ (k.setReg n v).win = k.win) ∧ (k.level = 0 → (k.setReg n v).trap = k.trap) := by
  unfold CoreState.setReg CoreState.setWinReg
  split
  case isTrue h =>
    split <;> [skip; split]
    all_goals exact ⟨rfl, fun hne => absurd h hne, fun _ => rfl⟩
  case isFalse h => split <;> exact ⟨rfl, fun _ => ⟨rfl, rfl⟩, fun he => absurd he h⟩

@[simp] theorem CoreState.setReg_level (k : CoreState) (n : Nat) (v : DWord) : (k.setReg n v).level = k.level := by
  rw [(k.setReg_eq n v).1]

@[simp] theorem CoreState.setReg_wstate (k : CoreState) (n : Nat) (v : DWord) : (k.setReg n v).wstate = k.wstate := by
  rw [(k.setReg_eq n v).1]

theorem CoreState.reg_setReg (k : CoreState) {n m : Nat} (v : DWord) (hn : n < 32) (hm : m < 32) :
    (k.setReg n v).reg m = if m = n ∧ n ≠ 0 then v else k.reg m := by
  by_cases hlevel : k.level = 0
  · have hcwp : (k.setReg n v).cwp = k.cwp := by rw [CoreState.cwp, k.setReg_wstate, CoreState.cwp]
    rw [CoreState.reg, k.setReg_level, if_pos hlevel, hcwp, CoreState.setReg, if_pos hlevel, CoreState.reg, if_pos hlevel]
    exact k.winReg_setWinReg v k.cwp_lt hn hm
  · rw [CoreState.reg, k.setReg_level, if_neg hlevel, CoreState.setReg, if_neg hlevel, CoreState.reg, if_neg hlevel]
    split
    case isTrue hm0 =>
      rw [if_neg (by omega)]
    case isFalse hm0 =>
      split
      case isTrue h0 => simp [h0]
      case isFalse h0 =>
        rw [tget_tset]
        grind

/-- The arrivals of a window are the departures of the window before it (12 R538). -/
theorem CoreState.winReg_arrivals (k : CoreState) (w : Nat) {n : Nat} (h : 8 ≤ n) (h' : n < 16) :
    k.winReg ((w + 1) % 15) n = k.winReg (w % 15) (n + 16) := by
  have hkey : winKey ((w + 1) % 15) n = winKey (w % 15) (n + 16) := by
    unfold winKey
    rw [if_pos h', if_neg (by omega), if_neg (by omega)]
    omega
  rw [CoreState.winReg, if_neg (by omega), if_neg (by omega), hkey, CoreState.winReg, if_neg (by omega), if_neg (by omega)]

/-- The globals are one for all windows (12 R535). -/
theorem CoreState.winReg_globals (k : CoreState) (w v : Nat) {n : Nat} (h : n < 8) : k.winReg w n = k.winReg v n := by
  rw [CoreState.winReg, CoreState.winReg, if_pos h, if_pos h]

/-- Settles O34: each clause is a rule of the register file. -/
theorem registerFile : Obligations.RegisterFile := by
  refine ⟨fun k n m v hn hm => k.reg_setReg v hn hm, CoreState.reg_zero, CoreState.setReg_zero,
    fun k w n h h' => k.winReg_arrivals w h h', fun k w v n h => k.winReg_globals w v h,
    fun k w n m v hw hn hm => k.winReg_setWinReg v (by omega) hn hm, fun k n v => (k.setReg_eq n v).2.1,
    fun k n v => (k.setReg_eq n v).2.2, fun k n v => ?rest⟩
  case rest =>
    rw [(k.setReg_eq n v).1]
    exact ⟨rfl, rfl, rfl, rfl, rfl, rfl⟩

/-! ## The words of the rows -/

/-- No word fits both of two rows: a bit that both fix differs. -/
def Enc.apart (a b : Enc) : Bool := decide (a.mask &&& b.mask &&& (a.pat ^^^ b.pat) ≠ 0)

theorem Enc.not_fits_of_apart {a b : Enc} (h : a.apart b = true) {w : Word} (ha : a.fits w = true) : b.fits w = false := by
  simp only [Enc.apart, Enc.fits, decide_eq_true_eq, decide_eq_false_iff_not] at *
  rintro hb
  refine h (BitVec.eq_of_getLsbD_eq fun i hi => ?_)
  rw [← ha, ← hb]
  cases h : w.getLsbD i <;> simp +contextual [h]

theorem coreRows_apart : coreRows.Pairwise fun a b => a.apart b = true := by decide +kernel

/-- Of rows that are apart, at most one has a word. -/
theorem Enc.fits_at_most_one {l : List Enc} (h : l.Pairwise fun a b => a.apart b = true) (w : Word) :
    (l.filter fun e => e.fits w).length ≤ 1 := by
  induction h with
  | nil => exact Nat.zero_le 1
  | @cons a l hap _ ih =>
    rw [List.filter_cons]
    split
    case isTrue ha =>
      have hnone : l.filter (fun e => e.fits w) = [] :=
        List.filter_eq_nil_iff.2 fun b hb => by simp [Enc.not_fits_of_apart (hap b hb) ha]
      simp [hnone]
    case isFalse => exact ih

/-- Settles O35: rows stand apart pairwise, and the rest is read off the table. -/
theorem oneInstructionPerWord : Obligations.OneInstructionPerWord := by
  refine ⟨Enc.fits_at_most_one coreRows_apart, ?pat, ?add, ?brne, ?zeros⟩
  case pat => decide +kernel
  case add => decide
  case brne => decide +kernel
  case zeros => decide +kernel

end Sys2Proof.Machine
end

section
/-! Instructions that are fetched, and what changes one core pair alone (12 R548, R549, R565). -/
namespace Sys2Proof.Machine

/-! ## One core pair alone -/

theorem OnlyCore.refl (s : State) (c : Nat) : OnlyCore s s c (s.core c) := ⟨rfl, rfl, fun _ _ => rfl⟩

theorem OnlyCore.co {s t : State} {c : Nat} {k : CoreState} (f : CoreState → CoreState) (h : OnlyCore s t c k) :
    OnlyCore s (t.co c f) c (f k) := by
  obtain ⟨hrest, hcore, hother⟩ := h
  refine ⟨?_, by rw [State.core_co_same, hcore], fun j hj => ?_⟩
  · exact congrArg (fun u : State => { u with cores := (t.co c f).cores }) hrest
  · rw [State.core_co, if_neg hj.symm]
    exact hother j hj

theorem State.co_onlyCore (s : State) (c : Nat) (f : CoreState → CoreState) : OnlyCore s (s.co c f) c (f (s.core c)) :=
  (OnlyCore.refl s c).co f

theorem OnlyCore.regs {s t : State} {c : Nat} {k : CoreState} (h : OnlyCore s t c k) : t.regs = s.regs := by rw [h.1]
theorem OnlyCore.mem {s t : State} {c : Nat} {k : CoreState} (h : OnlyCore s t c k) : t.mem = s.mem := by rw [h.1]
theorem OnlyCore.core {s t : State} {c : Nat} {k : CoreState} (h : OnlyCore s t c k) : t.core c = k := h.2.1

/-- Whether a core pair runs: it is in use, and no lockstep reset and no injection test runs. -/
theorem State.coreRuns_iff (s : State) (c : Nat) : s.coreRuns c = true ↔
    s.get (F.CYC_CORE_STATE c) = 1 ∧ (s.core c).resetting = false ∧ (s.core c).testing = false := by
  simp [State.coreRuns, and_assoc]

/-- An instruction that leaves its core pair running retires. -/
theorem OnlyCore.retireTo {s t : State} {c : Nat} {k : CoreState} (npc : DWord) (h : OnlyCore s t c k)
    (hruns : s.coreRuns c = true) (hreset : k.resetting = (s.core c).resetting) (htest : k.testing = (s.core c).testing) :
    OnlyCore s (t.retireTo c npc) c (k.next npc) := by
  have hstill : t.coreRuns c = true := by
    rw [State.coreRuns_iff] at hruns ⊢
    rwa [h.core, hreset, htest, State.get, State.rd, h.regs]
  rw [State.retireTo, if_pos hstill]
  exact h.co fun k => k.next npc

@[simp] theorem CoreState.setReg_pc (k : CoreState) (n : Nat) (v : DWord) : (k.setReg n v).pc = k.pc := by
  rw [(k.setReg_eq n v).1]
@[simp] theorem CoreState.setReg_resetting (k : CoreState) (n : Nat) (v : DWord) : (k.setReg n v).resetting = k.resetting := by
  rw [(k.setReg_eq n v).1]
@[simp] theorem CoreState.setReg_testing (k : CoreState) (n : Nat) (v : DWord) : (k.setReg n v).testing = k.testing := by
  rw [(k.setReg_eq n v).1]

/-- DST takes a value, and the next instruction is at PC + 4. -/
theorem State.put1_onlyCore {s : State} {c : Nat} (w : Word) (v : DWord) (hruns : s.coreRuns c = true) :
    OnlyCore s (s.put1 c w v) c (((s.core c).setReg (fDst w) v).next ((s.core c).pc + 4)) := by
  have hset := s.co_onlyCore c fun k => k.setReg (fDst w) v
  have hpc : ((s.setX c (fDst w) v).core c).pc = (s.core c).pc := by
    rw [State.setX, State.core_co_same, CoreState.setReg_pc]
  rw [State.put1, State.retire, hpc]
  exact hset.retireTo _ hruns (CoreState.setReg_resetting _ _ _) (CoreState.setReg_testing _ _ _)

/-! ## What precedes an instruction -/

/-- A fetch that is allowed and finds neither an island that is off nor poison. -/
def State.FetchGood (s : State) (c : Nat) : Prop :=
  s.denied? c (s.core c).level 2 (s.core c).pc.toNat = none ∧ s.hbmOff (s.core c).pc.toNat = false ∧
  s.poisoned (s.core c).pc.toNat 4 = false

theorem State.FetchGood.fetchCheck {s : State} {c : Nat} (h : s.FetchGood c) : s.fetchCheck c = (s, none) := by
  obtain ⟨hdenied, hoff, hpoison⟩ := h
  simp [State.fetchCheck, hdenied, hoff, hpoison]

theorem State.FetchGood.insnRun {s : State} {c : Nat} (h : s.FetchGood c) (w : Word) {e : Enc} (body : State → State) :
    s.insnRun c w e body = if e.fits w then body s else s.illegal c w := by
  rw [State.insnRun, h.fetchCheck]

/-- An instruction of a core pair that runs, where no interrupt takes its place. -/
theorem State.insn_of_runs {s : State} {c : Nat} (w : Word) (e : Enc) (body : State → State) (hruns : s.coreRuns c = true)
    (hint : (s.core c).level = 0 → (s.core c).lowest = none ∨ (s.insnRun c w e body).trapped c = true) :
    s.insn c w e body = s.insnRun c w e body := by
  rw [State.insn, if_neg (by simp [hruns])]
  dsimp only
  refine if_neg fun h => ?_
  simp only [Bool.and_eq_true, decide_eq_true_eq, Bool.not_eq_true'] at h
  obtain ⟨⟨hlevel, hpending⟩, htrapped⟩ := h
  obtain hnone | htrap := hint hlevel
  · simp [hnone] at hpending
  · simp [htrap] at htrapped

theorem State.Fetches.runs {s : State} {c : Nat} {w : Word} {e : Enc} (h : s.Fetches c w e) : s.coreRuns c = true := h.1

/-- An instruction that is fetched has its own effect and nothing precedes it. -/
theorem State.Fetches.insn {s : State} {c : Nat} {w : Word} {e : Enc} (h : s.Fetches c w e) (body : State → State) :
    s.insn c w e body = body s := by
  obtain ⟨hruns, hdenied, hoff, hpoison, hfits, hint⟩ := h
  have hgood : s.FetchGood c := ⟨hdenied, hoff, hpoison⟩
  rw [State.insn_of_runs w e body hruns fun h0 => .inl (hint h0), hgood.insnRun, if_pos hfits]

theorem State.Fetches.insnPriv {s : State} {c : Nat} {w : Word} {e : Enc} (h : s.Fetches c w e)
    (hlevel : (s.core c).level ≠ 0) (body : State → State) : s.insnPriv c w e body = body s := by
  rw [State.insnPriv, h.insn, if_neg hlevel]

theorem State.Fetches.insnPriv_user {s : State} {c : Nat} {w : Word} {e : Enc} (h : s.Fetches c w e)
    (hlevel : (s.core c).level = 0) (body : State → State) : s.insnPriv c w e body = s.illegal c w := by
  rw [State.insnPriv, h.insn, if_pos hlevel]

/-- ILLEGAL at U (12 R561, R566). -/
theorem State.illegal_enters {s : State} {c : Nat} (w : Word) (hlevel : (s.core c).level = 0) (hgood : s.StoresGood c) :
    Enters s (s.illegal c w) c 0 0 (s.core c).pc ∧ ((s.illegal c w).core c).tval = w.zeroExtend 64 :=
  State.trapAt_enters 0 _ hlevel hgood

/-- A trap in the trap window is a double fault (12 R568). -/
theorem State.trapAt_double {s : State} {c : Nat} (code : Nat) (tval : DWord) (hlevel : (s.core c).level ≠ 0) :
    s.trapAt c code tval = s.doubleFault c := by
  rw [State.trapAt, State.trap]
  exact if_pos hlevel

theorem State.illegal_double {s : State} {c : Nat} (w : Word) (hlevel : (s.core c).level ≠ 0) :
    s.illegal c w = s.doubleFault c := State.trapAt_double 0 _ hlevel

end Sys2Proof.Machine
end

section
/-! The integer group (12 R548, R549, R551). -/
namespace Sys2Proof.Machine

/-! ## What the group computes -/

theorem bit1_slt (a b : DWord) : bit1 (a.slt b) = if a.toInt < b.toInt then 1 else 0 := by
  simp [bit1, BitVec.slt_eq_decide]

theorem bit1_ult (a b : DWord) : bit1 (a.ult b) = if a.toNat < b.toNat then 1 else 0 := by
  simp [bit1, BitVec.ult_eq_decide]

theorem divS_eq_sdiv {n : Nat} (a b : BitVec n) : divS a b = a.sdiv b := by
  refine BitVec.eq_of_toInt_eq ?_
  rw [divS, BitVec.toInt_ofInt, BitVec.toInt_sdiv]

theorem divU_eq_udiv {n : Nat} (a b : BitVec n) : divU a b = a / b := by
  refine BitVec.eq_of_toNat_eq ?_
  rw [divU, BitVec.toNat_ofNat, BitVec.toNat_udiv, Nat.mod_eq_of_lt (Nat.lt_of_le_of_lt (Nat.div_le_self _ _) a.isLt)]

theorem modS_eq_srem {n : Nat} (a b : BitVec n) : modS a b = a.srem b := by
  rw [modS, ← BitVec.toInt_srem, BitVec.ofInt_toInt]

theorem modU_eq_umod {n : Nat} (a b : BitVec n) : modU a b = a % b := by
  refine BitVec.eq_of_toNat_eq ?_
  rw [modU, BitVec.toNat_ofNat, BitVec.toNat_umod, Nat.mod_eq_of_lt (Nat.lt_of_le_of_lt (Nat.mod_le _ _) a.isLt)]

theorem divS_cases (a b : DWord) : divS a b = if b = 0 then 0 else a.sdiv b := by
  rw [divS_eq_sdiv]
  split <;> simp_all

theorem divU_cases (a b : DWord) : divU a b = if b = 0 then 0 else a / b := by
  rw [divU_eq_udiv]
  split <;> simp_all

theorem modS_cases (a b : DWord) : modS a b = if b = 0 then a else a.srem b := by
  rw [modS_eq_srem]
  split <;> simp_all

theorem modU_cases (a b : DWord) : modU a b = if b = 0 then a else a % b := by
  rw [modU_eq_umod]
  split <;> simp_all

theorem truncate32_eq (a : DWord) : a.truncate 32 = a.extractLsb' 0 32 := by
  simp [BitVec.truncate_eq_setWidth, BitVec.setWidth_eq_extractLsb']

theorem low32_add (a b : DWord) : (a + b).extractLsb' 0 32 = a.extractLsb' 0 32 + b.extractLsb' 0 32 := by
  simp only [← truncate32_eq]
  exact BitVec.setWidth_add a b (by decide)

theorem low32_mul (a b : DWord) : (a * b).extractLsb' 0 32 = a.extractLsb' 0 32 * b.extractLsb' 0 32 := by
  simp only [← truncate32_eq]
  exact BitVec.setWidth_mul a b (by decide)

theorem low32_sub (a b : DWord) : (a - b).extractLsb' 0 32 = a.extractLsb' 0 32 - b.extractLsb' 0 32 := by
  refine BitVec.eq_of_toNat_eq ?_
  simp only [BitVec.extractLsb'_toNat, BitVec.toNat_sub, Nat.shiftRight_zero]
  omega

theorem low32_imm16 (w : Word) : (imm16 w).extractLsb' 0 32 = (w.extractLsb' 16 16).signExtend 32 := by
  rw [imm16, ← truncate32_eq]
  refine BitVec.eq_of_getLsbD_eq fun i hi => ?_
  simp only [BitVec.truncate_eq_setWidth, BitVec.getLsbD_setWidth, BitVec.getLsbD_signExtend, hi, show i < 64 by omega,
    decide_true, Bool.true_and]

theorem imm21_shift (w : Word) : imm21 w <<< 16 = (w.extractLsb' 11 21).signExtend 64 * 65536 := by
  rw [BitVec.shiftLeft_eq_mul_twoPow]
  rfl

/-- A shift of a kind but 3, as SHIFTK gives it. -/
theorem shift32_eq (k : Nat) (a : DWord) (n : Nat) : shift32 k a n = (if k = 0 then a.extractLsb' 0 32 <<< n
    else if k = 1 then a.extractLsb' 0 32 >>> n else (a.extractLsb' 0 32).sshiftRight n).signExtend 64 := by
  rw [shift32, truncate32_eq]

/-! ## The rows -/

theorem opA_congr (s : State) (c : Nat) (w : Word) (e : Enc) {f g : DWord → DWord → DWord} (h : ∀ a b, f a b = g a b) :
    (.next (s.opA c w e f) : Res) = .next (s.opA c w e g) := by rw [funext fun a => funext (h a)]

/-- The rows of format A do what their table says. -/
theorem exec_intA : ∀ r ∈ intA, ∀ (c : Fin 32) (w : Word) (s : State),
    exec (r.1 c w) s = .next (s.opA c.val w r.2.1 r.2.2) := by
  simp only [intA, List.forall_mem_cons]
  refine ⟨?add, ?sub, ?and_, ?ior, ?xor, ?shl, ?shr, ?sha, ?less, ?lessu, ?mul, ?mulhi, ?mulhiu, ?mulhix, ?div, ?divu, ?mod,
    ?modu, ?add32, ?sub32, ?shl32, ?shr32, ?sha32, ?mul32, ?div32, ?divu32, ?mod32, ?modu32, fun _ h => absurd h List.not_mem_nil⟩
  case less => exact fun c w s => opA_congr s c w _ bit1_slt
  case lessu => exact fun c w s => opA_congr s c w _ bit1_ult
  case div => exact fun c w s => opA_congr s c w _ divS_cases
  case divu => exact fun c w s => opA_congr s c w _ divU_cases
  case mod => exact fun c w s => opA_congr s c w _ modS_cases
  case modu => exact fun c w s => opA_congr s c w _ modU_cases
  case add32 => exact fun c w s => opA_congr s c w _ fun a b => by rw [op32, truncate32_eq, truncate32_eq, low32_add]
  case sub32 => exact fun c w s => opA_congr s c w _ fun a b => by rw [op32, truncate32_eq, truncate32_eq, low32_sub]
  case mul32 => exact fun c w s => opA_congr s c w _ fun a b => by rw [op32, truncate32_eq, truncate32_eq, low32_mul]
  case shl32 => exact fun c w s => opA_congr s c w _ fun a b => shift32_eq 0 a _
  case shr32 => exact fun c w s => opA_congr s c w _ fun a b => shift32_eq 1 a _
  case sha32 => exact fun c w s => opA_congr s c w _ fun a b => shift32_eq 2 a _
  case div32 => exact fun c w s => opA_congr s c w _ fun a b => by rw [op32, truncate32_eq, truncate32_eq, divS_eq_sdiv]
  case divu32 => exact fun c w s => opA_congr s c w _ fun a b => by rw [op32, truncate32_eq, truncate32_eq, divU_eq_udiv]
  case mod32 => exact fun c w s => opA_congr s c w _ fun a b => by rw [op32, truncate32_eq, truncate32_eq, modS_eq_srem]
  case modu32 => exact fun c w s => opA_congr s c w _ fun a b => by rw [op32, truncate32_eq, truncate32_eq, modU_eq_umod]
  all_goals exact fun _ _ _ => by rfl

/-- An instruction whose result in DST is `f` of SRC1: the rows with an immediate. -/
def State.opK (s : State) (c : Nat) (w : Word) (e : Enc) (f : DWord → Word → DWord) : State :=
  s.insn c w e fun t => t.put1 c w (f (t.xr c (fSrc1 w)) w)

theorem opK_congr (s : State) (c : Nat) (w : Word) (e : Enc) {f g : DWord → Word → DWord} (h : ∀ a, f a w = g a w) :
    (.next (s.opK c w e f) : Res) = .next (s.opK c w e g) := by simp only [State.opK, h]

/-- The rows with an immediate do what their table says. -/
theorem exec_intI : ∀ r ∈ intI, ∀ (c : Fin 32) (w : Word) (s : State),
    exec (r.1 c w) s = .next (s.opK c.val w r.2.1 r.2.2) := by
  simp only [intI, List.forall_mem_cons]
  refine ⟨?addk, ?andk, ?iork, ?xork, ?lessk, ?lessuk, ?add32k, ?mkhi, fun _ h => absurd h List.not_mem_nil⟩
  case lessk =>
    refine fun c w s => opK_congr (f := fun a w => bit1 (a.slt (imm16 w))) s c w _ fun a => ?_
    rw [bit1_slt, imm16, BitVec.toInt_signExtend_of_le (by decide)]
  case lessuk => exact fun c w s => opK_congr (f := fun a w => bit1 (a.ult (imm16 w))) s c w _ fun a => bit1_ult a _
  case add32k =>
    refine fun c w s => opK_congr (f := fun a w => op32 (fun a b => a + b) a (imm16 w)) s c w _ fun a => ?_
    rw [op32, truncate32_eq, truncate32_eq, low32_imm16]
  case mkhi => exact fun c w s => opK_congr (f := fun _ w => imm21 w <<< 16) s c w _ fun _ => imm21_shift w
  all_goals exact fun _ _ _ => by rfl

/-- PCHI computes from PC, SHIFTK by its kind. -/
theorem exec_corePchi (c : Fin 32) (w : Word) (s : State) : exec (.corePchi c w) s =
    .next (s.insn c.val w E.PCHI fun t => t.put1 c.val w ((t.core c.val).pc + (imm21 w <<< 16))) := by rfl

theorem exec_coreShiftk (c : Fin 32) (w : Word) (s : State) : exec (.coreShiftk c w) s = execCoreShiftk c w s := by rfl

theorem shiftk_of_kind {c : Fin 32} {w : Word} {s : State} (h : s.Fetches c.val w E.SHIFTK) (hkind : getBits w 24 2 ≠ 3) :
    exec (.coreShiftk c w) s = .next (s.put1 c.val w (if w.getLsbD 26 then
      shift32 (getBits w 24 2) (s.xr c.val (fSrc1 w)) (getBits w 16 5)
      else shift64 (getBits w 24 2) (s.xr c.val (fSrc1 w)) (getBits w 16 6))) := by
  rw [exec_coreShiftk, execCoreShiftk, h.insn]
  dsimp only
  rw [if_neg hkind]

theorem shiftk_of_kind3 {c : Fin 32} {w : Word} {s : State} (h : s.Fetches c.val w E.SHIFTK) (hkind : getBits w 24 2 = 3) :
    exec (.coreShiftk c w) s = .next (s.illegal c.val w) := by
  rw [exec_coreShiftk, execCoreShiftk, h.insn]
  dsimp only
  rw [if_pos hkind]

/-- Settles O36: each row puts its result into DST (`exec_intA`, `exec_intI`), which changes the core pair alone. -/
theorem integerGroup : Obligations.IntegerGroup := by
  refine ⟨?formatA, ?immediate, ?pchi, ?shift64, ?shift32, ?kind3⟩
  case formatA =>
    intro r hr c w s h
    refine ⟨_, exec_intA r hr c w s, ?_⟩
    rw [State.opA, h.insn]
    exact State.put1_onlyCore w _ h.runs
  case immediate =>
    intro r hr c w s h
    refine ⟨_, exec_intI r hr c w s, ?_⟩
    rw [State.opK, h.insn]
    exact State.put1_onlyCore w _ h.runs
  case pchi =>
    intro c w s h
    refine ⟨_, exec_corePchi c w s, ?_⟩
    rw [h.insn, imm21_shift]
    exact State.put1_onlyCore w _ h.runs
  case shift64 =>
    intro c w s h hkind hwide
    refine ⟨_, shiftk_of_kind h hkind, ?_⟩
    rw [if_neg (c := w.getLsbD 26 = true) (fun ht => Bool.false_ne_true (hwide.symm.trans ht))]
    exact State.put1_onlyCore w _ h.runs
  case shift32 =>
    intro c w s h hkind hwide
    refine ⟨_, shiftk_of_kind h hkind, ?_⟩
    rw [if_pos hwide, shift32_eq]
    exact State.put1_onlyCore w _ h.runs
  case kind3 =>
    intro c w s h hkind hlevel hgood
    exact ⟨_, shiftk_of_kind3 h hkind, State.illegal_enters w hlevel hgood⟩

end Sys2Proof.Machine
end

section
/-! Traps of a core pair at U, whatever their code, and what the stores that leave before them touch (12 R560 to R568). -/
namespace Sys2Proof.Machine

/-! ## Free values do not matter to what stores do -/

theorem State.take_ite {p : Prop} [Decidable p] {a b t u : State} (ha : p → t = a.take) (hb : ¬ p → u = b.take) :
    (if p then t else u) = (if p then a else b).take := by
  split
  case isTrue h => exact ha h
  case isFalse h => exact hb h

theorem State.raise_take (s : State) (code isl : Nat) (data : List Byte) :
    s.take.raise code isl data = (s.raise code isl data).take := by
  unfold State.raise State.raiseLost
  exact State.take_ite (fun _ => rfl) fun _ => State.take_ite (fun _ => rfl) fun _ => rfl

theorem State.each_take {α : Type} {f : State → α → State} (hf : ∀ s x, f s.take x = (f s x).take) (s : State) (l : List α) :
    s.take.each l f = (s.each l f).take := by
  unfold State.each
  induction l generalizing s with
  | nil => rfl
  | cons x l ih => rw [List.foldl_cons, hf, ih, List.foldl_cons]

theorem State.unpoison_take (s : State) (a n : Nat) : s.take.unpoison a n = (s.unpoison a n).take := by
  unfold State.unpoison
  exact State.take_ite (fun _ => rfl) fun _ => rfl

theorem State.sysW_take (s : State) (a : Nat) (l : List Byte) : s.take.sysW a l = (s.sysW a l).take :=
  State.unpoison_take (s.memW a l) a l.length

theorem State.cellStore_take (s : State) (a : Nat) (b : Byte) : s.take.cellStore a b = (s.cellStore a b).take := by
  unfold State.cellStore
  split
  case h_5 => exact State.take_ite (fun _ => rfl) fun _ => rfl
  case h_6 => exact State.take_ite (fun _ => rfl) fun _ => rfl
  all_goals rfl

theorem State.coreW_take (s : State) (a : Nat) (l : List Byte) : s.take.coreW a l = (s.coreW a l).take := by
  unfold State.coreW
  split
  · rw [State.each_take (fun t e => State.cellStore_take t _ _), State.unpoison_take]
  · exact State.sysW_take s a l

theorem State.storeTrack_take (s : State) (c a : Nat) : s.take.storeTrack c a = (s.storeTrack c a).take := by
  unfold State.storeTrack
  have hcur : (s.take.core c).cur = (s.core c).cur := rfl
  dsimp only
  rw [hcur]
  cases (s.core c).cur with
  | none => rfl
  | some p =>
    dsimp only
    refine State.take_ite (fun _ => ?_) fun _ => ?_
    · refine State.take_ite (fun _ => rfl) fun _ => ?_
      exact congrArg (fun u : State => u.pa p _) (State.sysW_take s _ _)
    · refine State.take_ite (fun _ => ?_) fun _ => rfl
      exact State.take_ite (fun _ => rfl) fun _ => rfl

theorem State.storeOut_take (s : State) (c : Nat) (e : BufStore) : s.take.storeOut c e = (s.storeOut c e).take := by
  have hoff : s.take.hbmOff e.addr = s.hbmOff e.addr := rfl
  have hkey : s.take.hbmKey = s.hbmKey := rfl
  rw [State.storeOut, State.storeOut, hoff, hkey]
  split
  · rw [State.noIsland, State.raise_take, State.noIsland]
    rfl
  · rw [State.storeTrack_take, State.coreW_take]

/-- A free value that was taken stands apart from the stores that leave. -/
theorem State.flush_take (s : State) (c : Nat) : s.take.flush c = (s.flush c).take :=
  congrArg (fun u : State => u.co c _) (State.each_take (fun t e => State.storeOut_take t c e) s _)

theorem State.StoresGood.take {s : State} {c : Nat} (h : s.StoresGood c) : s.take.StoresGood c := h.congr rfl rfl

/-! ## Stores that have left -/

/-- A core pair without waiting stores has none that leaves. -/
theorem State.flush_nil {s : State} {c : Nat} (h : (s.core c).buf = []) :
    s.flush c = s.co c fun k => { k with buf := [], sig := 2 ^ 64 - 1, windows := k.windows + 1 } := by
  rw [State.flush, h]
  rfl

theorem State.flush_buf (s : State) (c : Nat) : ((s.flush c).core c).buf = [] := by
  rw [State.flush_core]
  rfl

/-- Once the stores have left, trap entry changes the core pair alone. -/
theorem State.enterS_onlyCore {s : State} {c : Nat} (h : (s.core c).buf = []) (cause tval npc : DWord) (vec : Nat) :
    OnlyCore s (s.enterS c cause tval npc vec) c (((s.core c).flushed none).entered cause tval npc vec) := by
  have hcore : ({ (s.core c) with buf := [], sig := 2 ^ 64 - 1, windows := (s.core c).windows + 1 } : CoreState) =
      (s.core c).flushed none := by rw [CoreState.flushed, Option.or_none]
  have hentered : OnlyCore s (s.enterS c cause tval npc vec) c
      (CoreState.entered { (s.core c) with buf := [], sig := 2 ^ 64 - 1, windows := (s.core c).windows + 1 } cause tval npc vec) := by
    rw [State.enterS, State.flush_nil h]
    exact (s.co_onlyCore c _).co fun k => k.entered cause tval npc vec
  rwa [hcore] at hentered

/-! ## Entries from U -/

/-- The state in which the runtime begins after a trap or an interrupt: the stores have left, and the entry changed the core pair. -/
def State.begun (s : State) (c : Nat) (cause tval npc : DWord) (vec : Nat) : State := (s.flush c).enterS c cause tval npc vec

theorem State.begun_onlyCore (s : State) (c : Nat) (cause tval npc : DWord) (vec : Nat) :
    OnlyCore (s.flush c) (s.begun c cause tval npc vec) c
      ((((s.core c).flushed (s.firstOff (s.core c).buf)).flushed none).entered cause tval npc vec) := by
  rw [← State.flush_core]
  exact State.enterS_onlyCore (State.flush_buf s c) cause tval npc vec

theorem State.begun_regs (s : State) (c : Nat) (cause tval npc : DWord) (vec : Nat) :
    (s.begun c cause tval npc vec).regs = (s.flush c).regs := (State.begun_onlyCore s c cause tval npc vec).regs

theorem State.begun_level (s : State) (c : Nat) (cause tval npc : DWord) (vec : Nat) :
    ((s.begun c cause tval npc vec).core c).level = 1 := by
  rw [(State.begun_onlyCore s c cause tval npc vec).core]
  rfl

/-- A core pair behind an entry from U, but for the partitions that run, wait or freeze on it. -/
def CoreState.begun (k n : CoreState) (err : Option Nat) (cause tval npc : DWord) (vec : Nat) : Prop :=
  (((k.flushed err).flushed none).entered cause tval npc vec).SameContext n

theorem CoreState.begun.enters {s u : State} {c : Nat} {err : Option Nat} {cause tval npc : DWord} {vec : Nat}
    (h : (s.core c).begun (u.core c) err cause tval npc vec) :
    Enters s u c cause vec npc ∧ (u.core c).tval = tval ∧ (u.core c).storeErr = none ∧
      (u.core c).instret = (s.core c).instret ∧ (u.core c).ipend = (s.core c).ipend := by
  rw [CoreState.begun, CoreState.SameContext] at h
  rw [Enters, h]
  exact ⟨⟨rfl, rfl, rfl, rfl, rfl, rfl, rfl, rfl, rfl, rfl, rfl, rfl, rfl⟩, rfl, rfl, rfl, rfl⟩

theorem State.begun_core (s : State) (c : Nat) (cause tval npc : DWord) (vec : Nat) :
    (s.core c).begun ((s.begun c cause tval npc vec).core c) (s.firstOff (s.core c).buf) cause tval npc vec := by
  rw [(State.begun_onlyCore s c cause tval npc vec).core]
  exact CoreState.SameContext.refl _

/-- An activation that aborts behind an entry leaves what the entry made of the core pair. -/
theorem State.abortCur_begun (s : State) (c : Nat) (cause tval npc : DWord) (vec kind pc : Nat) :
    (s.core c).begun (((s.begun c cause tval npc vec).abortCur c kind pc).core c) (s.firstOff (s.core c).buf)
      cause tval npc vec := by
  have hlevel : ((s.begun c cause tval npc vec).core c).level ≠ 0 := by simp [State.begun_level]
  have habort := (State.abortCur_keeps hlevel kind pc).1
  rwa [(State.begun_onlyCore s c cause tval npc vec).core] at habort

/-- A trap at U whose stores were not answered with an error (12 R566). -/
theorem State.trap_good {s : State} {c : Nat} (code num : Nat) (tval npc : DWord) (hlevel : (s.core c).level = 0)
    (hgood : s.StoresGood c) : s.trap c code num tval npc = match faultKind code num with
      | some f => (s.begun c (BitVec.ofNat 64 (code + 65536 * num)) tval npc code).abortCur c f (s.core c).pc.toNat
      | none => s.begun c (BitVec.ofNat 64 (code + 65536 * num)) tval npc code := by
  rw [State.trap]
  dsimp only
  rw [if_neg (by simp [hlevel])]
  split
  case h_1 a hcharged => exact absurd (hgood.symm.trans hcharged) (by simp)
  case h_2 => rfl

/-- A trap at U in whose place an error of a store is charged (12 R559, R566). -/
theorem State.trap_charged {s : State} {c a : Nat} (code num : Nat) (tval npc : DWord) (hlevel : (s.core c).level = 0)
    (herr : ((s.flush c).core c).storeErr = some a) : s.trap c code num tval npc =
      (s.begun c 6 (BitVec.ofNat 64 a) (s.core c).pc 6).abortCur c 9 (s.core c).pc.toNat := by
  rw [State.trap]
  dsimp only
  rw [if_neg (by simp [hlevel]), herr]
  rfl

theorem State.trap_begun {s : State} {c : Nat} (code num : Nat) (tval npc : DWord) (hlevel : (s.core c).level = 0)
    (hgood : s.StoresGood c) : (s.core c).begun ((s.trap c code num tval npc).core c) (s.firstOff (s.core c).buf)
      (BitVec.ofNat 64 (code + 65536 * num)) tval npc code := by
  rw [State.trap_good code num tval npc hlevel hgood]
  split
  · exact State.abortCur_begun s c _ _ _ _ _ _
  · exact State.begun_core s c _ _ _ _

/-- A trap that aborts no activation writes no register behind the stores that leave. -/
theorem State.trap_regs {s : State} {c code num : Nat} (tval npc : DWord) (hlevel : (s.core c).level = 0)
    (hgood : s.StoresGood c) (hkind : faultKind code num = none) :
    (s.trap c code num tval npc).regs = (s.flush c).regs := by
  rw [State.trap_good code num tval npc hlevel hgood, hkind]
  exact State.begun_regs s c _ _ _ _

/-- A trap with a free TVAL at its own address that aborts no activation: the window traps (12 R540, R546, R561). -/
theorem State.trapFree_enters {s : State} {c code : Nat} (hlevel : (s.core c).level = 0) (hgood : s.StoresGood c)
    (hkind : faultKind code 0 = none) : Enters s (s.trapFree c code 0 (s.core c).pc) c (BitVec.ofNat 64 code) code (s.core c).pc ∧
      (s.trapFree c code 0 (s.core c).pc).regs = (s.flush c).regs := by
  have hbegun := State.trap_begun (s := s.take) (c := c) code 0 s.free (s.core c).pc hlevel hgood.take
  refine ⟨hbegun.enters.1, ?_⟩
  rw [State.trapFree, State.trap_regs (s := s.take) _ _ hlevel hgood.take hkind, State.flush_take, State.take_regs]

end Sys2Proof.Machine
end

section
/-! Branches, jumps and calls (12 R548, R549, R577). -/
namespace Sys2Proof.Machine

/-! ## Targets -/

theorem off16_eq (w : Word) : off16 w = 4 * (w.extractLsb' 16 16).signExtend 64 := by
  rw [off16, imm16, BitVec.shiftLeft_eq_mul_twoPow, BitVec.mul_comm]
  rfl

theorem off26_eq (w : Word) : off26 w = 4 * (w.extractLsb' 6 26).signExtend 64 := by
  rw [off26, BitVec.shiftLeft_eq_mul_twoPow, BitVec.mul_comm]
  rfl

/-- Bits 1:0 cleared. -/
theorem clear_low2 (a : DWord) : (a >>> 2) <<< 2 = a &&& ~~~(3 : DWord) := by
  refine BitVec.eq_of_getLsbD_eq fun i hi => ?_
  have hthree : (3 : DWord).getLsbD i = decide (i < 2) := by
    rw [show (3 : DWord) = BitVec.ofNat 64 (2 ^ 2 - 1) from rfl, BitVec.getLsbD_ofNat, Nat.testBit_two_pow_sub_one]
    simp [hi]
  rw [BitVec.getLsbD_shiftLeft, BitVec.getLsbD_ushiftRight, BitVec.getLsbD_and, BitVec.getLsbD_not, hthree]
  by_cases h : i < 2
  · simp [h]
  · simp [h, hi, show 2 + (i - 2) = i by omega]

/-! ## What enters the signature -/

@[simp] theorem CoreState.signed_resetting (k : CoreState) (b : Bool) (t : DWord) : (k.signed b t).resetting = k.resetting := rfl
@[simp] theorem CoreState.signed_testing (k : CoreState) (b : Bool) (t : DWord) : (k.signed b t).testing = k.testing := rfl

theorem OnlyCore.signBranch {s t : State} {c : Nat} {k : CoreState} (b : Bool) (target : DWord) (h : OnlyCore s t c k) :
    OnlyCore s (t.signBranch c b target) c (k.signed b target) := h.co fun k => k.signed b target

/-- A jump saves its return address and enters the signature. -/
theorem State.jump_onlyCore {s : State} {c : Nat} (d : Nat) (target : DWord) (hruns : s.coreRuns c = true) :
    OnlyCore s (s.jump c d target) c ((((s.core c).setReg d ((s.core c).pc + 4)).signed true target).next target) :=
  ((s.co_onlyCore c fun k => k.setReg d ((s.core c).pc + 4)).signBranch true target).retireTo target hruns
    (CoreState.setReg_resetting _ _ _) (CoreState.setReg_testing _ _ _)

/-! ## The rows -/

theorem exec_brB : ∀ r ∈ brB, ∃ f : DWord → DWord → Bool, (∀ a b, f a b = true ↔ r.2.2 a b) ∧
    ∀ (c : Fin 32) (w : Word) (s : State), exec (r.1 c w) s = .next (s.branch c.val w r.2.1 f) := by
  have hslt (a b : DWord) : (!a.slt b) = true ↔ b.toInt ≤ a.toInt := by simp [BitVec.slt_eq_decide]
  have hult (a b : DWord) : (!a.ult b) = true ↔ b.toNat ≤ a.toNat := by simp [BitVec.ult_eq_decide]
  simp only [brB, List.forall_mem_cons]
  exact ⟨⟨fun a b => decide (a = b), fun _ _ => decide_eq_true_iff, fun _ _ _ => rfl⟩,
    ⟨fun a b => decide (a ≠ b), fun _ _ => decide_eq_true_iff, fun _ _ _ => rfl⟩,
    ⟨fun a b => a.slt b, fun _ _ => BitVec.slt_iff_toInt_lt, fun _ _ _ => rfl⟩,
    ⟨fun a b => !a.slt b, hslt, fun _ _ _ => rfl⟩,
    ⟨fun a b => a.ult b, fun _ _ => BitVec.ult_iff_lt, fun _ _ _ => rfl⟩,
    ⟨fun a b => !a.ult b, hult, fun _ _ _ => rfl⟩, fun _ h => absurd h List.not_mem_nil⟩

/-- A branch that is fetched, by whether its condition holds. -/
theorem State.branch_onlyCore {s : State} {c : Nat} {w : Word} {e : Enc} (h : s.Fetches c w e) {f : DWord → DWord → Bool}
    {b : Bool} (hf : f (s.xr c (bSrc1 w)) (s.xr c (bSrc2 w)) = b) : OnlyCore s (s.branch c w e f) c
      (((s.core c).signed b ((s.core c).pc + off16 w)).next (if b then (s.core c).pc + off16 w else (s.core c).pc + 4)) := by
  rw [State.branch, h.insn]
  dsimp only
  rw [hf]
  exact ((OnlyCore.refl s c).signBranch b _).retireTo _ h.runs rfl rfl

theorem exec_coreJmp (c : Fin 32) (w : Word) (s : State) : exec (.coreJmp c w) s =
    .next (s.insn c.val w E.JMP fun t => t.jump c.val 0 ((t.core c.val).pc + off26 w)) := by rfl

theorem exec_coreCall (c : Fin 32) (w : Word) (s : State) : exec (.coreCall c w) s =
    .next (s.insn c.val w E.CALL fun t => t.jump c.val 31 ((t.core c.val).pc + off26 w)) := by rfl

theorem exec_coreJmpr (c : Fin 32) (w : Word) (s : State) : exec (.coreJmpr c w) s =
    .next (s.insn c.val w E.JMPR fun t => t.jump c.val (fDst w) (t.jumpTarget c.val w)) := by rfl

theorem exec_coreCallr (c : Fin 32) (w : Word) (s : State) : exec (.coreCallr c w) s =
    .next (s.insn c.val w E.CALLR fun t => t.jump c.val 31 (t.jumpTarget c.val w)) := by rfl

theorem State.jumpTarget_eq (s : State) (c : Nat) (w : Word) : s.jumpTarget c w =
    (s.xr c (fSrc1 w) + (w.extractLsb' 16 16).signExtend 64) &&& ~~~(3 : DWord) := clear_low2 _

/-- Settles O37: a branch goes by its condition (`exec_brB`, `State.branch_onlyCore`), a jump to its target
(`State.jump_onlyCore`). -/
theorem branchesAndJumps : Obligations.BranchesAndJumps := by
  refine ⟨?taken, ?passed, ?jmp, ?call, ?jmpr, ?callr⟩
  case taken =>
    intro r hr c w s h hcond
    obtain ⟨f, hf, hexec⟩ := exec_brB r hr
    refine ⟨_, hexec c w s, ?_⟩
    rw [← off16_eq]
    exact State.branch_onlyCore h ((hf _ _).2 hcond)
  case passed =>
    intro r hr c w s h hcond
    obtain ⟨f, hf, hexec⟩ := exec_brB r hr
    refine ⟨_, hexec c w s, ?_⟩
    rw [← off16_eq]
    exact State.branch_onlyCore h (Bool.eq_false_iff.2 fun ht => hcond ((hf _ _).1 ht))
  case jmp =>
    intro c w s h
    refine ⟨_, exec_coreJmp c w s, ?_⟩
    have hjump := State.jump_onlyCore 0 ((s.core c.val).pc + off26 w) h.runs
    rw [CoreState.setReg_zero] at hjump
    rwa [h.insn, ← off26_eq]
  case call =>
    intro c w s h
    refine ⟨_, exec_coreCall c w s, ?_⟩
    rw [h.insn, ← off26_eq]
    exact State.jump_onlyCore 31 _ h.runs
  case jmpr =>
    intro c w s h
    refine ⟨_, exec_coreJmpr c w s, ?_⟩
    rw [h.insn, ← State.jumpTarget_eq]
    exact State.jump_onlyCore _ _ h.runs
  case callr =>
    intro c w s h
    refine ⟨_, exec_coreCallr c w s, ?_⟩
    rw [h.insn, ← State.jumpTarget_eq]
    exact State.jump_onlyCore 31 _ h.runs

end Sys2Proof.Machine
end

section
/-! Windows (12 R538 to R541, R546). -/
namespace Sys2Proof.Machine

/-! ## Tables after a list of writes -/

/-- A key that a list of writes does not name. -/
theorem tget_foldl_tset_ne {α ι : Type} [DecidableEq α] (d : α) (l : List ι) (key : ι → Nat) (val : ι → α) (t : Tab α)
    {k : Nat} (h : ∀ x ∈ l, key x ≠ k) : tget d (l.foldl (fun m x => tset d m (key x) (val x)) t) k = tget d t k := by
  induction l generalizing t with
  | nil => rfl
  | cons x l ih =>
    rw [List.foldl_cons, ih _ fun y hy => h y (List.mem_cons_of_mem _ hy), tget_tset_ne _ _ _ (h x (List.mem_cons_self ..))]

/-- A key that a list of writes names once more than others, or with one value. -/
theorem tget_foldl_tset {α ι : Type} [DecidableEq α] (d : α) (l : List ι) (key : ι → Nat) (val : ι → α) (t : Tab α) {x : ι}
    (hx : x ∈ l) (h : ∀ y ∈ l, key y = key x → val y = val x) :
    tget d (l.foldl (fun m x => tset d m (key x) (val x)) t) (key x) = val x := by
  induction l generalizing t x with
  | nil => cases hx
  | cons y l ih =>
    rw [List.foldl_cons]
    by_cases hlater : ∃ z ∈ l, key z = key x
    · obtain ⟨z, hz, hkey⟩ := hlater
      have hval := h z (List.mem_cons_of_mem _ hz) hkey
      rw [← hkey, ← hval]
      exact ih _ hz fun v hv he => (h v (List.mem_cons_of_mem _ hv) (he.trans hkey)).trans hval.symm
    · rw [tget_foldl_tset_ne d l key val _ fun z hz he => hlater ⟨z, hz, he⟩]
      obtain rfl | hl := List.mem_cons.1 hx
      · exact tget_tset_same _ _ _ _
      · exact absurd ⟨x, hl, rfl⟩ hlater

/-! ## Window states -/

theorem wstateOf_toNat (a b n : Nat) : (wstateOf a b n).toNat = a % 16 + 16 * (b % 16) + 65536 * (n % 65536) := by
  rw [wstateOf, BitVec.toNat_ofNat]
  exact Nat.mod_eq_of_lt (by omega)

@[simp] theorem wstateOf_cwp (a b n : Nat) : (wstateOf a b n).toNat % 16 = a % 16 := by
  rw [wstateOf_toNat]
  omega

@[simp] theorem wstateOf_res (a b n : Nat) : (wstateOf a b n).toNat / 16 % 16 = b % 16 := by
  rw [wstateOf_toNat]
  omega

@[simp] theorem wstateOf_spilled (a b n : Nat) : (wstateOf a b n).toNat / 65536 % 65536 = n % 65536 := by
  rw [wstateOf_toNat]
  omega

/-! ## ENTER -/

/-- Zeros in the kept registers and the departures of window `n` (12 R539). -/
def clearWin (n : Nat) (m : Tab DWord) : Tab DWord := (List.range 16).foldl (fun m i => tset 0 m (16 * n + i) 0) m

theorem clearWin_in (n : Nat) (m : Tab DWord) {i : Nat} (h : i < 16) : tget 0 (clearWin n m) (16 * n + i) = 0 :=
  tget_foldl_tset (0 : DWord) (List.range 16) (fun i => 16 * n + i) (fun _ => 0) m (List.mem_range.2 h) fun _ _ _ => rfl

theorem clearWin_out (n : Nat) (m : Tab DWord) {k : Nat} (h : ∀ i < 16, 16 * n + i ≠ k) :
    tget 0 (clearWin n m) k = tget 0 m k :=
  tget_foldl_tset_ne (0 : DWord) (List.range 16) (fun i => 16 * n + i) (fun _ => 0) m fun i hi => h i (List.mem_range.1 hi)

/-- The core pair in its next window (12 R539). -/
def CoreState.enter (k : CoreState) : CoreState :=
  { k with wstate := wstateOf ((k.cwp + 1) % 15) (k.res + 1) k.spilled
           win := clearWin ((k.cwp + 1) % 15) k.win }

theorem CoreState.enter_win (k : CoreState) : k.enter.win = clearWin ((k.cwp + 1) % 15) k.win := by
  simp only [CoreState.enter]

theorem CoreState.enter_level (k : CoreState) : k.enter.level = k.level := by simp only [CoreState.enter]
theorem CoreState.enter_pc (k : CoreState) : k.enter.pc = k.pc := by simp only [CoreState.enter]
theorem CoreState.enter_resetting (k : CoreState) : k.enter.resetting = k.resetting := by simp only [CoreState.enter]
theorem CoreState.enter_testing (k : CoreState) : k.enter.testing = k.testing := by simp only [CoreState.enter]

theorem CoreState.enter_cwp (k : CoreState) : k.enter.cwp = (k.cwp + 1) % 15 := by
  rw [CoreState.cwp, CoreState.enter, wstateOf_cwp]
  omega

theorem CoreState.enter_zero (k : CoreState) {n : Nat} (h : 16 ≤ n) (h' : n < 32) :
    k.enter.winReg ((k.cwp + 1) % 15) n = 0 := by
  have hkey : winKey ((k.cwp + 1) % 15) n = 16 * ((k.cwp + 1) % 15) + (n - 16) := by
    unfold winKey
    repeat' split
    all_goals omega
  rw [CoreState.winReg_high _ _ (by omega), hkey, CoreState.enter_win]
  exact clearWin_in _ _ (by omega)

/-- ENTER clears the home of no register outside the kept ones and the departures of the new window. -/
theorem CoreState.enter_other (k : CoreState) {w n : Nat} (h : 8 ≤ n)
    (hout : ∀ i < 16, 16 * ((k.cwp + 1) % 15) + i ≠ winKey w n) : k.enter.winReg w n = k.winReg w n := by
  rw [CoreState.winReg_high _ _ h, CoreState.winReg_high _ _ h, CoreState.enter_win]
  exact clearWin_out _ _ hout

theorem CoreState.enter_globals (k : CoreState) (v w : Nat) {n : Nat} (h : n < 8) : k.enter.winReg v n = k.winReg w n := by
  simp only [CoreState.winReg, CoreState.enter, if_pos h]

theorem CoreState.enter_arrivals (k : CoreState) (hcwp : k.cwp < 15) {n : Nat} (h : 8 ≤ n) (h' : n < 16) :
    k.enter.winReg ((k.cwp + 1) % 15) n = k.winReg k.cwp (n + 16) := by
  rw [CoreState.enter_other k h, k.winReg_arrivals k.cwp h h', Nat.mod_eq_of_lt hcwp]
  intro i hi
  unfold winKey
  rw [if_pos h']
  omega

theorem CoreState.enter_kept (k : CoreState) {v n : Nat} (hne : v ≠ (k.cwp + 1) % 15) (h : 16 ≤ n) (h' : n < 32) :
    k.enter.winReg v n = k.winReg v n := by
  refine CoreState.enter_other k (by omega) fun i hi => ?_
  unfold winKey
  repeat' split
  all_goals omega

theorem CoreState.leave_pc (k : CoreState) : k.leave.pc = k.pc := by simp only [CoreState.leave]
theorem CoreState.leave_resetting (k : CoreState) : k.leave.resetting = k.resetting := by simp only [CoreState.leave]
theorem CoreState.leave_testing (k : CoreState) : k.leave.testing = k.testing := by simp only [CoreState.leave]

/-- At U the names are registers of the current window (12 R535). -/
theorem CoreState.reg_user {k : CoreState} (h : k.level = 0) (n : Nat) : k.reg n = k.winReg k.cwp n := by
  rw [CoreState.reg, if_pos h]

theorem CoreState.next_reg (k : CoreState) (npc : DWord) (n : Nat) : (k.next npc).reg n = k.reg n := rfl

theorem CoreState.next_winReg (k : CoreState) (npc : DWord) (v n : Nat) : (k.next npc).winReg v n = k.winReg v n := rfl

theorem CoreState.enter_next (k : CoreState) (npc : DWord) : { k.next npc with
    win := (k.enter.next npc).win
    wstate := wstateOf ((k.cwp + 1) % 15) (k.res + 1) k.spilled } = k.enter.next npc := by
  simp only [CoreState.enter, CoreState.next]

/-! ## The commands -/

theorem exec_coreEnter (c : Fin 32) (w : Word) (s : State) : exec (.coreEnter c w) s = .next (s.insn c.val w E.ENTER fun t =>
    if (t.core c.val).level ≠ 0 then t.illegal c.val w
    else if 14 ≤ (t.core c.val).res then t.winTrap c.val 7 w
    else (t.co c.val CoreState.enter).retire c.val) := by
  rfl

theorem exec_coreLeave (c : Fin 32) (w : Word) (s : State) : exec (.coreLeave c w) s = .next (s.insn c.val w E.LEAVE fun t =>
    match (t.core c.val).leaveTrap with
    | some code => t.winTrap c.val code w
    | none => (t.co c.val CoreState.leave).retire c.val) := by
  rfl

theorem exec_coreRet (c : Fin 32) (w : Word) (s : State) : exec (.coreRet c w) s = .next (s.insn c.val w E.RET fun t =>
    match (t.core c.val).leaveTrap with
    | some code => t.winTrap c.val code w
    | none => ((t.co c.val CoreState.leave).signBranch c.val true (t.xr c.val 15 &&& ~~~(3 : DWord))).retireTo c.val
        (t.xr c.val 15 &&& ~~~(3 : DWord))) := by
  simp only [← clear_low2]
  rfl

theorem enter_fits {c : Fin 32} {w : Word} {s : State} (h : s.Fetches c.val w E.ENTER) (hlevel : (s.core c.val).level = 0)
    (hres : (s.core c.val).res < 14) : exec (.coreEnter c w) s = .next ((s.co c.val CoreState.enter).retire c.val) := by
  rw [exec_coreEnter, h.insn]
  rw [if_neg (by simp [hlevel]), if_neg (by omega)]

theorem enter_overflows {c : Fin 32} {w : Word} {s : State} (h : s.Fetches c.val w E.ENTER)
    (hlevel : (s.core c.val).level = 0) (hres : 14 ≤ (s.core c.val).res) :
    exec (.coreEnter c w) s = .next (s.trapFree c.val 7 0 (s.core c.val).pc) := by
  rw [exec_coreEnter, h.insn]
  rw [if_neg (by simp [hlevel]), if_pos hres]
  rfl

/-- WIN_OVF and WIN_UNF leave TVAL open (12 R561). -/
theorem State.winTrap_free (s : State) (c : Nat) {code : Nat} (w : Word) (h : code ≠ 0) :
    s.winTrap c code w = s.trapFree c code 0 (s.core c).pc := if_neg h

/-- LEAVE and RET that can return (12 R540, R541). -/
theorem CoreState.leaveTrap_none {k : CoreState} (hlevel : k.level = 0) (hres : 2 ≤ k.res) : k.leaveTrap = none := by
  simp [CoreState.leaveTrap, hlevel, hres]

theorem CoreState.leaveTrap_unf {k : CoreState} (hlevel : k.level = 0) (hres : k.res = 1) (hsp : 1 ≤ k.spilled) :
    k.leaveTrap = some 8 := by
  simp [CoreState.leaveTrap, hlevel, hres, hsp]

theorem CoreState.leaveTrap_illegal {k : CoreState} (hlevel : k.level = 0) (hres : k.res = 1) (hsp : k.spilled = 0) :
    k.leaveTrap = some 0 := by
  simp [CoreState.leaveTrap, hlevel, hres, hsp]

theorem CoreState.leaveTrap_privileged {k : CoreState} (hlevel : k.level ≠ 0) : k.leaveTrap = some 0 := if_pos hlevel

/-- LEAVE and RET trap by one rule. -/
theorem leaves_trap : ∀ r ∈ [((.coreLeave : Fin 32 → Word → Instr), E.LEAVE), (.coreRet, E.RET)], ∀ {c : Fin 32} {w : Word}
    {s : State} {code : Nat}, s.Fetches c.val w r.2 → (s.core c.val).leaveTrap = some code →
    exec (r.1 c w) s = .next (s.winTrap c.val code w) := by
  simp only [List.forall_mem_cons]
  refine ⟨fun {c w s _} h htrap => ?_, fun {c w s _} h htrap => ?_, fun _ h => absurd h List.not_mem_nil⟩
  · rw [exec_coreLeave, h.insn, htrap]
  · rw [exec_coreRet, h.insn, htrap]

theorem leave_returns {c : Fin 32} {w : Word} {s : State} (h : s.Fetches c.val w E.LEAVE)
    (hok : (s.core c.val).leaveTrap = none) :
    exec (.coreLeave c w) s = .next ((s.co c.val CoreState.leave).retire c.val) := by
  rw [exec_coreLeave, h.insn, hok]

theorem ret_returns {c : Fin 32} {w : Word} {s : State} (h : s.Fetches c.val w E.RET)
    (hok : (s.core c.val).leaveTrap = none) : exec (.coreRet c w) s =
      .next (((s.co c.val CoreState.leave).signBranch c.val true (s.xr c.val 15 &&& ~~~(3 : DWord))).retireTo c.val
        (s.xr c.val 15 &&& ~~~(3 : DWord))) := by
  rw [exec_coreRet, h.insn, hok]

/-- What ENTER leaves, register by register (12 R538, R539). -/
theorem enter_steps {c : Fin 32} {w : Word} {s : State} (h : s.Fetches c.val w E.ENTER) (hlevel : (s.core c.val).level = 0)
    (hcwp : (s.core c.val).cwp < 15) (hres : (s.core c.val).res < 14) : Steps (exec (.coreEnter c w) s) fun u =>
      OnlyCore s u c.val { (s.core c.val).next ((s.core c.val).pc + 4) with
        win := (u.core c.val).win
        wstate := wstateOf (((s.core c.val).cwp + 1) % 15) ((s.core c.val).res + 1) (s.core c.val).spilled } ∧
      (∀ n, n < 8 → u.xr c.val n = s.xr c.val n) ∧ (∀ n, 8 ≤ n → n < 16 → u.xr c.val n = s.xr c.val (n + 16)) ∧
      (∀ n, 16 ≤ n → n < 32 → u.xr c.val n = 0) ∧
      (∀ v n, v < 15 → v ≠ ((s.core c.val).cwp + 1) % 15 → 16 ≤ n → n < 32 →
        (u.core c.val).winReg v n = (s.core c.val).winReg v n) := by
  have honly : OnlyCore s ((s.co c.val CoreState.enter).retire c.val) c.val
      ((s.core c.val).enter.next ((s.core c.val).pc + 4)) := by
    rw [State.retire, State.core_co_same, CoreState.enter_pc]
    exact (s.co_onlyCore c.val CoreState.enter).retireTo _ h.runs (CoreState.enter_resetting _)
      (CoreState.enter_testing _)
  have hreg (n : Nat) : ((s.co c.val CoreState.enter).retire c.val).xr c.val n =
      (s.core c.val).enter.winReg (((s.core c.val).cwp + 1) % 15) n := by
    rw [State.xr, honly.core, CoreState.next_reg, CoreState.reg_user ((CoreState.enter_level _).trans hlevel),
      CoreState.enter_cwp]
  have hbefore (n : Nat) : s.xr c.val n = (s.core c.val).winReg (s.core c.val).cwp n := CoreState.reg_user hlevel n
  refine ⟨_, enter_fits h hlevel hres, ?only, fun n hn => ?globals, fun n hn hn' => ?arrivals, fun n hn hn' => ?zeros,
    fun v n _ hne hn hn' => ?kept⟩
  case only =>
    rw [honly.core, CoreState.enter_next]
    exact honly
  case globals =>
    rw [hreg, hbefore]
    exact CoreState.enter_globals _ _ _ hn
  case arrivals => rw [hreg, hbefore, CoreState.enter_arrivals _ hcwp hn hn']
  case zeros => rw [hreg, CoreState.enter_zero _ hn hn']
  case kept =>
    rw [honly.core, CoreState.next_winReg]
    exact CoreState.enter_kept _ hne hn hn'

/-- Settles O38: ENTER below its limit (`enter_steps`), LEAVE and RET (`leave_returns`, `ret_returns`), and their traps. -/
theorem windowInstructions : Obligations.WindowInstructions := by
  refine ⟨?enter, ?overflow, ?leave, ?ret, ?underflow, ?illegal, ?double⟩
  case enter => exact fun c w s h hlevel hcwp hres => enter_steps h hlevel hcwp hres
  case overflow =>
    intro c w s h hlevel hres hgood
    exact ⟨_, enter_overflows h hlevel hres, State.trapFree_enters hlevel hgood rfl⟩
  case leave =>
    intro c w s h hlevel hres
    refine ⟨_, leave_returns h (CoreState.leaveTrap_none hlevel hres), ?_⟩
    rw [State.retire, State.core_co_same, CoreState.leave_pc]
    exact (s.co_onlyCore c.val CoreState.leave).retireTo _ h.runs (CoreState.leave_resetting _) (CoreState.leave_testing _)
  case ret =>
    intro c w s h hlevel hres
    refine ⟨_, ret_returns h (CoreState.leaveTrap_none hlevel hres), ?_⟩
    exact ((s.co_onlyCore c.val CoreState.leave).signBranch true _).retireTo _ h.runs (CoreState.leave_resetting _)
      (CoreState.leave_testing _)
  case underflow =>
    intro r hr c w s h hlevel hres hsp hgood
    rw [leaves_trap r hr h (CoreState.leaveTrap_unf hlevel hres hsp), State.winTrap_free _ _ _ (by decide)]
    exact ⟨_, rfl, State.trapFree_enters hlevel hgood rfl⟩
  case illegal =>
    intro r hr c w s h hlevel hres hsp hgood
    exact ⟨_, leaves_trap r hr h (CoreState.leaveTrap_illegal hlevel hres hsp), State.illegal_enters w hlevel hgood⟩
  case double =>
    intro r hr c w s h hlevel
    obtain rfl | hr := List.mem_cons.1 hr
    · rw [exec_coreEnter, h.insn, if_pos hlevel, State.illegal_double w hlevel]
    · rw [leaves_trap r hr h (CoreState.leaveTrap_privileged hlevel), State.winTrap, if_pos rfl,
        State.illegal_double w hlevel]

end Sys2Proof.Machine
end

section
/-! System registers (12 R549, R550, R586). -/
namespace Sys2Proof.Machine

/-! ## What a system register shows and takes -/

/-- The value of a system register that holds what is written (12 R586). -/
def CoreState.sysField (k : CoreState) (n : Nat) : DWord :=
  match n with
  | 0x001 => k.fcsr
  | 0x300 => k.wstate
  | 0x301 => k.spillPtr
  | 0x302 => k.spillLim
  | 0x303 => k.tpc
  | 0x304 => k.tstatus
  | 0x305 => k.tval
  | 0x306 => k.xpc
  | 0x307 => k.xstatus
  | 0x308 => k.xwstate
  | 0x309 => k.xspill
  | 0x30A => k.xspillLim
  | 0x30B => k.stvec
  | 0x30C => k.timecmp
  | _ => k.mtvec

theorem sysVal_sysRows (s : State) (c : Nat) : ∀ q ∈ sysRows, s.sysVal c q.1 = (s.core c).sysField q.1 := by
  simp [sysRows, State.sysVal, CoreState.sysField]

theorem CoreState.sysAct_sysRows (k : CoreState) (new arg : DWord) :
    ∀ q ∈ sysRows, k.sysAct q.1 new arg = k.sysSet q.1 new := by
  simp [sysRows, CoreState.sysAct]

theorem CoreState.sysField_sysSet_same (k : CoreState) (v : DWord) :
    ∀ q ∈ sysRows, (k.sysSet q.1 v).sysField q.1 = v &&& q.2 := by
  simp [sysRows, CoreState.sysSet, CoreState.sysField, sysMask]

theorem CoreState.sysField_sysSet_ne (k : CoreState) (v : DWord) :
    ∀ q ∈ sysRows, ∀ p ∈ sysRows, p.1 ≠ q.1 → (k.sysSet q.1 v).sysField p.1 = k.sysField p.1 := by
  simp [sysRows, CoreState.sysSet, CoreState.sysField]

/-- A write of a system register leaves what is not one that is written so. -/
theorem CoreState.sysSet_keeps (k : CoreState) (n : Nat) (v : DWord) :
    (k.sysSet n v).pc = k.pc ∧ (k.sysSet n v).instret = k.instret ∧ (k.sysSet n v).ipend = k.ipend ∧
    (k.sysSet n v).tcause = k.tcause := by
  unfold CoreState.sysSet
  dsimp only
  split <;> exact ⟨rfl, rfl, rfl, rfl⟩

/-- A write of a system register changes no register, WSTATE at U apart, which U may not write. -/
theorem CoreState.reg_sysSet {k : CoreState} {n : Nat} (v : DWord) (h : sysAllowed n k.level true = true) (m : Nat) :
    (k.sysSet n v).reg m = k.reg m := by
  by_cases hw : n = 0x300
  · subst hw
    have hlevel : k.level ≠ 0 := fun h0 => by simp [sysAllowed, sysInfo, h0] at h
    simp [CoreState.reg, CoreState.sysSet, hlevel]
  · unfold CoreState.sysSet
    dsimp only
    split
    case h_2 => exact absurd rfl hw
    all_goals rfl

theorem sysTakes_of {n : Nat} {v : DWord} (h : n = 0x300 ∨ n = 0x308 → v.toNat % 16 ≠ 15) : sysTakes n v = true := by
  by_cases hn : n = 0x300 ∨ n = 0x308
  · simp [sysTakes, h hn]
  · obtain ⟨h1, h2⟩ := not_or.1 hn
    simp [sysTakes, h1, h2]

theorem sysAllowed_user (n : Nat) : sysAllowed n 0 true = decide (n = 1) ∧ sysAllowed n 0 false = decide (n = 1) := by
  unfold sysAllowed sysInfo
  split_ifs <;> simp_all

/-! ## The commands -/

theorem exec_sysWriteRows : ∀ r ∈ sysWriteRows, ∀ (c : Fin 32) (w : Word) (s : State),
    exec (r.1 c w) s = .next (s.sysWrite c.val w r.2.1 r.2.2.2 r.2.2.1) := by
  simp only [sysWriteRows, List.forall_mem_cons]
  exact ⟨fun _ _ _ => rfl, fun _ _ _ => rfl, fun _ _ _ => rfl, fun _ h => absurd h List.not_mem_nil⟩

theorem exec_coreSysrd (c : Fin 32) (w : Word) (s : State) : exec (.coreSysrd c w) s =
    .next (s.insn c.val w E.SYSRD fun t => if sysAllowed (fSysreg w) (t.core c.val).level false
      then (if sysFree (fSysreg w) then t.take else t).put1 c.val w (t.sysVal c.val (fSysreg w)) else t.illegal c.val w) := by
  rfl

/-- The core pair after a system register is written: DST takes the old value where it takes one. -/
def CoreState.sysWritten (k : CoreState) (w : Word) (old : Bool) (was new arg : DWord) : CoreState :=
  ((if old then k.setReg (fDst w) was else k).next (k.pc + 4)).sysAct (fSysreg w) new arg

theorem CoreState.sysWritten_ipend {k : CoreState} {w : Word} {old : Bool} (new arg : DWord) (h : fSysreg w = 0x30D) :
    k.sysWritten w old k.ipend new arg =
      { (if old then k.setReg (fDst w) k.ipend else k) with ipend := k.ipend &&& ~~~arg }.next (k.pc + 4) := by
  have hkept : (if old then k.setReg (fDst w) k.ipend else k).ipend = k.ipend := by
    cases old
    · rfl
    · rw [if_pos rfl, (k.setReg_eq (fDst w) k.ipend).1]
  rw [CoreState.sysWritten, h, CoreState.sysAct, if_pos rfl, CoreState.next, CoreState.next, hkept]

theorem CoreState.injectStart_eq (k : CoreState) :
    k.injectStart = { k with testing := k.testing || !k.tstatus.getLsbD 2 } := by
  unfold CoreState.injectStart
  cases k.tstatus.getLsbD 2 <;> simp

theorem CoreState.sysWritten_test {k : CoreState} {w : Word} {new : DWord} (was arg : DWord) (h : fSysreg w = 0x801)
    (hnew : new.getLsbD 0 = true) : k.sysWritten w false was new arg =
      { k with testing := k.testing || !k.tstatus.getLsbD 2 }.next (k.pc + 4) := by
  rw [CoreState.sysWritten, h, CoreState.sysAct, if_neg (by decide), if_pos rfl, if_pos hnew, CoreState.injectStart_eq]
  rfl

theorem State.sysWrite_onlyCore {s : State} {c : Nat} {w : Word} {e : Enc} (h : s.Fetches c w e) (old : Bool)
    (f : DWord → DWord → DWord) (hmay : sysAllowed (fSysreg w) (s.core c).level true = true)
    (htakes : sysTakes (fSysreg w) (f (s.sysVal c (fSysreg w)) (s.xr c (fSrc1 w))) = true) :
    OnlyCore s (s.sysWrite c w e old f) c ((s.core c).sysWritten w old (s.sysVal c (fSysreg w))
      (f (s.sysVal c (fSysreg w)) (s.xr c (fSrc1 w))) (s.xr c (fSrc1 w))) := by
  rw [State.sysWrite, h.insn]
  dsimp only
  rw [if_pos (by rw [hmay, htakes, Bool.and_self])]
  refine OnlyCore.co _ ?_
  cases old
  · exact (OnlyCore.refl s c).retireTo _ h.runs rfl rfl
  · exact State.put1_onlyCore w _ h.runs

/-- A register that may not be written, and a CWP of 15, make the instruction ILLEGAL (12 R550, WSTATE). -/
theorem State.sysWrite_illegal {s : State} {c : Nat} {w : Word} {e : Enc} (h : s.Fetches c w e) (old : Bool)
    (f : DWord → DWord → DWord) (hno : (sysAllowed (fSysreg w) (s.core c).level true &&
      sysTakes (fSysreg w) (f (s.sysVal c (fSysreg w)) (s.xr c (fSrc1 w)))) = false) :
    s.sysWrite c w e old f = s.illegal c w := by
  rw [State.sysWrite, h.insn]
  exact if_neg (by rw [hno]; decide)

theorem sysRead_onlyCore {c : Fin 32} {w : Word} {s : State} (h : s.Fetches c.val w E.SYSRD)
    (hmay : sysAllowed (fSysreg w) (s.core c.val).level false = true) : Steps (exec (.coreSysrd c w) s) fun u =>
      OnlyCore (if sysFree (fSysreg w) then s.take else s) u c.val
        (((s.core c.val).setReg (fDst w) (s.sysVal c.val (fSysreg w))).next ((s.core c.val).pc + 4)) := by
  rw [exec_coreSysrd, h.insn, if_pos hmay]
  refine ⟨_, rfl, ?_⟩
  cases sysFree (fSysreg w)
  · exact State.put1_onlyCore w _ h.runs
  · exact State.put1_onlyCore (s := s.take) w _ h.runs

theorem fDst_lt (w : Word) : fDst w < 32 := (w.extractLsb' 6 5).isLt

/-- A write of a register of `sysRows` (12 R586). -/
theorem sysWrite_holds {q : Nat × DWord} (hq : q ∈ sysRows) {c : Nat} {w : Word} {s : State} {e : Enc} (h : s.Fetches c w e)
    (old : Bool) (f : DWord → DWord → DWord) {v : DWord} (hn : fSysreg w = q.1)
    (hmay : sysAllowed q.1 (s.core c).level true = true) (hv : v = f (s.sysVal c q.1) (s.xr c (fSrc1 w)))
    (hcwp : q.1 = 0x300 ∨ q.1 = 0x308 → v.toNat % 16 ≠ 15) {u : State} (hu : u = s.sysWrite c w e old f) :
    u = { s with cores := u.cores } ∧ (∀ j, j ≠ c → u.core j = s.core j) ∧ u.sysVal c q.1 = v &&& q.2 ∧
      (∀ p ∈ sysRows, p.1 ≠ q.1 → u.sysVal c p.1 = s.sysVal c p.1) ∧
      (u.core c).pc = (s.core c).pc + 4 ∧ (u.core c).instret = (s.core c).instret + 1 ∧
      (u.core c).ipend = (s.core c).ipend ∧ (u.core c).tcause = (s.core c).tcause ∧
      (∀ n, n < 32 → u.xr c n = if old = true ∧ n = fDst w ∧ n ≠ 0 then s.sysVal c q.1 else s.xr c n) := by
  have hwrite := State.sysWrite_onlyCore h old f (hn ▸ hmay) (hn ▸ sysTakes_of (hv ▸ hcwp))
  rw [← hu, hn, ← hv] at hwrite
  obtain ⟨hrest, hcore, hothers⟩ := hwrite
  obtain ⟨was, hwas⟩ : ∃ was, was = s.sysVal c q.1 := ⟨_, rfl⟩
  obtain ⟨k1, hk1⟩ : ∃ k1, k1 = if old then (s.core c).setReg (fDst w) was else s.core c := ⟨_, rfl⟩
  have hset : u.core c = (k1.next ((s.core c).pc + 4)).sysSet q.1 v := by
    rw [hcore, CoreState.sysWritten, hn, CoreState.sysAct_sysRows _ _ _ q hq, hk1, hwas]
  have hsame : k1 = { s.core c with g := k1.g, win := k1.win, trap := k1.trap } := by
    rw [hk1]
    cases old
    · rfl
    · exact (CoreState.setReg_eq _ _ _).1
  obtain ⟨hpc, hinstret, hipend, htcause⟩ := (k1.next ((s.core c).pc + 4)).sysSet_keeps q.1 v
  rw [← hset] at hpc hinstret hipend htcause
  refine ⟨hrest, hothers, ?takes, fun p hp hne => ?others, hpc, ?retired, ?pending, ?cause, fun n hlt => ?regs⟩
  case takes => rw [sysVal_sysRows u c q hq, hset, CoreState.sysField_sysSet_same _ _ q hq]
  case others =>
    rw [sysVal_sysRows u c p hp, sysVal_sysRows s c p hp, hset, CoreState.sysField_sysSet_ne _ _ q hq p hp hne, hsame]
    rfl
  case retired => rw [hinstret, CoreState.next, hsame]
  case pending => rw [hipend, CoreState.next, hsame]
  case cause => rw [htcause, CoreState.next, hsame]
  case regs =>
    have hlevel : (k1.next ((s.core c).pc + 4)).level = (s.core c).level := by rw [hsame]; rfl
    rw [State.xr, hset, CoreState.reg_sysSet v (by rwa [hlevel]), CoreState.next_reg, hk1, ← hwas]
    cases old
    · rfl
    · simp only [if_true, true_and]
      rw [CoreState.reg_setReg _ _ (fDst_lt w) hlt]
      exact if_congr ⟨fun ⟨a, b⟩ => ⟨a, a ▸ b⟩, fun ⟨a, b⟩ => ⟨a, a ▸ b⟩⟩ rfl rfl

/-- Settles O44: a read (`sysRead_onlyCore`), a write of each register (`sysWrite_holds`, `State.sysWrite_onlyCore`), and the
ones that are ILLEGAL (`State.sysWrite_illegal`). -/
theorem systemRegisters : Obligations.SystemRegisters := by
  refine ⟨?read, ?readFree, fun c s => ⟨rfl, rfl, rfl⟩, ?write, ?ipend, ?test, ?denied, ?unread, sysAllowed_user, ?cwp⟩
  case read =>
    intro c w s h hmay hcycle hltime
    have hread := sysRead_onlyCore h hmay
    rwa [if_neg (by simp [sysFree, hcycle, hltime])] at hread
  case readFree =>
    intro c w s h hmay hfree
    have hread := sysRead_onlyCore h hmay
    rw [if_pos (by simpa [sysFree] using hfree)] at hread
    obtain ⟨u, hu, honly⟩ := hread
    exact ⟨u, hu, _, honly⟩
  case write =>
    intro r hr q hq c w s v h hn hmay hv hcwp
    exact ⟨_, exec_sysWriteRows r hr c w s, sysWrite_holds hq h _ _ hn hmay hv hcwp rfl⟩
  case ipend =>
    intro r hr c w s h hn hlevel
    refine ⟨_, exec_sysWriteRows r hr c w s, ?_⟩
    have hwrite := State.sysWrite_onlyCore h r.2.2.2 r.2.2.1 (by simp [hn, sysAllowed, sysInfo]; omega) (by simp [hn, sysTakes])
    rw [hn] at hwrite
    rwa [← CoreState.sysWritten_ipend _ _ hn]
  case test =>
    intro c w s h hn hlevel harg
    refine ⟨_, exec_sysWriteRows _ (List.mem_cons_self ..) c w s, ?_⟩
    have hwrite := State.sysWrite_onlyCore h false (fun _ b => b) (by simp [hn, sysAllowed, sysInfo, hlevel])
      (by simp [hn, sysTakes])
    rwa [CoreState.sysWritten_test _ _ hn harg] at hwrite
  case denied =>
    intro r hr c w s h hno hlevel hgood
    rw [exec_sysWriteRows r hr c w s, State.sysWrite_illegal h _ _ (by rw [hlevel, hno, Bool.false_and])]
    exact ⟨_, rfl, State.illegal_enters w hlevel hgood⟩
  case unread =>
    intro c w s h hno hlevel hgood
    rw [exec_coreSysrd, h.insn, if_neg (by simp [hlevel, hno])]
    exact ⟨_, rfl, State.illegal_enters w hlevel hgood⟩
  case cwp =>
    intro c w s h hn hlevel hcwp
    have hno : sysTakes (fSysreg w) (s.xr c.val (fSrc1 w)) = false := by simp [sysTakes, hcwp]; omega
    rw [exec_sysWriteRows (_, E.SYSWR, fun _ b => b, false) (List.mem_cons_self ..) c w s,
      State.sysWrite_illegal h _ _ (by rw [hno, Bool.and_false]), State.illegal_double w hlevel]

end Sys2Proof.Machine
end

section
/-! What precedes an instruction (12 R530, R532, R548, R550, R559, R563, R565). -/
namespace Sys2Proof.Machine

/-! ## Every row is an instruction by itself -/

/-- A row that has one effect in each width (12 R549). -/
theorem insn_byWidth (s : State) (c : Nat) (w : Word) (e : Enc) (f g : State → State) : ∃ body,
    (Host.Outcome.next (if fWide w then s.insn c w e f else s.insn c w e g) : Res) = .next (s.insn c w e body) := by
  cases fWide w
  · exact ⟨g, rfl⟩
  · exact ⟨f, rfl⟩

theorem exec_insnRows : ∀ r ∈ insnRows, ∀ (c : Fin 32) (w : Word) (s : State), ∃ body,
    exec (r.1 c w) s = .next (s.insn c.val w r.2 body) := by
  simp only [insnRows, List.forall_mem_append, List.forall_mem_map, List.forall_mem_cons, intA, intI, brB, loadRows, storeRows,
    fpPlain, fpRound, fpFused, sysWriteRows, privRows, List.not_mem_nil, false_implies, implies_true, and_true]
  refine ⟨?groups, ?shiftk, ?pchi, ?ldpc, ?jmp, ?call, ?jmpr, ?callr, ?enter, ?leave, ?ret, ?i32tof, ?u32tof, ?fwidth, ?bitstof,
    ?sysrd, ?brk, ?trap, ?fence⟩
  case i32tof => exact fun c w s => insn_byWidth s c.val w E.I32TOF _ _
  case u32tof => exact fun c w s => insn_byWidth s c.val w E.U32TOF _ _
  case fwidth => exact fun c w s => insn_byWidth s c.val w E.FWIDTH _ _
  case groups =>
    repeat' apply And.intro
    all_goals exact fun _ _ _ => ⟨_, rfl⟩
  all_goals exact fun _ _ _ => ⟨_, rfl⟩

theorem exec_privRows : ∀ r ∈ privRows, ∀ (c : Fin 32) (w : Word) (s : State), ∃ body,
    exec (r.1 c w) s = .next (s.insnPriv c.val w r.2 body) := by
  simp only [privRows, List.forall_mem_cons, List.not_mem_nil, false_implies, implies_true, and_true]
  repeat' apply And.intro
  all_goals exact fun _ _ _ => ⟨_, rfl⟩

/-! ## Interrupts -/

theorem State.interrupt_good {s : State} {c n : Nat} (hlowest : (s.core c).lowest = some n) (hgood : s.StoresGood c) :
    s.interrupt c = s.take.begun c (BitVec.ofNat 64 (16 + n)) (s.flush c).free (s.core c).pc (16 + n) := by
  rw [State.interrupt, State.begun, State.flush_take, Nat.add_comm 16 n]
  dsimp only
  rw [hlowest]
  dsimp only
  split
  case h_1 a hcharged => exact absurd (hgood.symm.trans hcharged) (by simp)
  case h_2 => rw [Nat.add_comm 16 n]

theorem State.interrupt_charged {s : State} {c n a : Nat} (hlowest : (s.core c).lowest = some n)
    (herr : ((s.flush c).core c).storeErr = some a) :
    s.interrupt c = (s.begun c 6 (BitVec.ofNat 64 a) (s.core c).pc 6).abortCur c 9 (s.core c).pc.toNat := by
  rw [State.interrupt]
  dsimp only
  rw [hlowest]
  dsimp only
  rw [herr]
  rfl

/-- An interrupt that is taken retires nothing and stays pending (12 R563). -/
theorem State.interrupt_enters {s : State} {c n : Nat} (hlowest : (s.core c).lowest = some n) (hgood : s.StoresGood c) :
    Enters s (s.interrupt c) c (BitVec.ofNat 64 (16 + n)) (16 + n) (s.core c).pc ∧
      ((s.interrupt c).core c).instret = (s.core c).instret ∧ ((s.interrupt c).core c).ipend = (s.core c).ipend ∧
      (s.interrupt c).regs = (s.flush c).regs := by
  rw [State.interrupt_good hlowest hgood]
  obtain ⟨henters, -, -, hinstret, hipend⟩ := CoreState.begun.enters (State.begun_core s.take c (BitVec.ofNat 64 (16 + n))
    (s.flush c).free (s.core c).pc (16 + n))
  refine ⟨henters, hinstret, hipend, ?_⟩
  rw [State.begun_regs, State.flush_take, State.take_regs]

/-- An interrupt that is pending is taken in place of an instruction that stays at U (12 R563). -/
theorem State.insn_interrupted {s : State} {c n : Nat} {w : Word} {e : Enc} {body : State → State} (hruns : s.coreRuns c = true)
    (hlevel : (s.core c).level = 0) (hfetch : s.FetchGood c) (hfits : e.fits w = true) (hlowest : (s.core c).lowest = some n)
    (hbody : ((body s).core c).level = 0) : s.insn c w e body = s.interrupt c := by
  rw [State.insn, if_neg (by simp [hruns])]
  dsimp only
  rw [hfetch.insnRun, if_pos hfits]
  exact if_pos (by simp [hlevel, hlowest, State.trapped, hbody])

/-! ## Denials -/

/-- The fault registers of a core pair that its own accesses do not read. -/
def CoreState.noted (k : CoreState) (hi info : Word) : CoreState := { k with faultHi := hi, faultInfo := info }

/-- A denial changes no core pair but for its fault registers, and neither the image nor PWR_ON. -/
theorem State.deny_core (s : State) (c a lv kind m idx : Nat) (size spill : Bool) :
    (∃ hi info, (s.deny c a lv kind m idx size spill).core c = (s.core c).noted hi info) ∧
      (s.deny c a lv kind m idx size spill).hbmOff = s.hbmOff := by
  obtain ⟨code, data, hevent⟩ : ∃ code data, denialEvent c a lv kind idx size = (code, data) := ⟨_, _, rfl⟩
  obtain ⟨info, hdeny⟩ := deny_of_event s (m := m) (spill := spill) hevent
  obtain ⟨t, ht⟩ : ∃ t, t = if code = 0x3002 ∧ kind = 1
    then (s.faultNoted c a info).put F.SIG_STATUS_STORE_FAULT 1 else s.faultNoted c a info := ⟨_, rfl⟩
  have hcores : t.cores = (s.faultNoted c a info).cores := by
    rw [ht]
    split <;> rfl
  have hnoted : ∃ hi info', (s.faultNoted c a info).core c = (s.core c).noted hi info' := ⟨_, _, State.core_co_same _ _ _⟩
  have himg : t.img = s.img := by
    rw [ht]
    split <;> rfl
  have hpower : t.rd R.PWR_ON = s.rd R.PWR_ON := by
    have hfault := (faultNoted_sameRegs s c a info) R.PWR_ON (by simp [R.PWR_ON, R.ACC_STATUS, R.ACC_FADDR_LO, R.ACC_FCOUNT]; omega)
    rw [ht]
    split
    · rw [State.rd_put_ne _ _ (by decide)]
      exact hfault
    · exact hfault
  rw [hdeny, ← ht]
  refine ⟨?_, ?_⟩
  · rwa [State.core_of_cores (State.raise_cores _ _ _ _), State.core_of_cores hcores]
  · rw [(Quiet.raise t _ _ _).hbmOff, State.hbmOff_congr himg hpower]

theorem State.StoresGood.noted {s t : State} {c : Nat} {hi info : Word} (h : s.StoresGood c)
    (hcore : t.core c = (s.core c).noted hi info) (hoff : t.hbmOff = s.hbmOff) : t.StoresGood c := by
  rw [State.storesGood_iff] at h ⊢
  rwa [hcore, State.firstOff, hoff, ← State.firstOff]

/-! ## Traps in place of an instruction -/

theorem Enters.trapped {s u : State} {c : Nat} {code vec : Nat} {tpc : DWord} (h : Enters s u c (BitVec.ofNat 64 code) vec tpc)
    (hcode : code < 9) : u.trapped c = true := by
  obtain ⟨hlevel, -, -, hcause, -⟩ := h
  rw [State.trapped, hlevel, hcause, BitVec.toNat_ofNat]
  simp only [Bool.and_eq_true, decide_eq_true_eq]
  omega

/-- A trap at fetch or decode, behind a denial where one is recorded, stands for the whole instruction (12 R563 to R565). -/
theorem State.insn_traps {s t : State} {c : Nat} {w : Word} {e : Enc} {body : State → State} {code : Nat} {tval : DWord}
    {hi info : Word} (hruns : s.coreRuns c = true) (hlevel : (s.core c).level = 0) (hgood : s.StoresGood c)
    (hrun : s.insnRun c w e body = t.trapAt c code tval) (hcore : t.core c = (s.core c).noted hi info)
    (hoff : t.hbmOff = s.hbmOff) (hcode : code < 9) :
    s.insn c w e body = t.trapAt c code tval ∧ Enters s (s.insn c w e body) c (BitVec.ofNat 64 code) code (s.core c).pc ∧
      ((s.insn c w e body).core c).tval = tval := by
  have hlevel' : (t.core c).level = 0 := by rw [hcore]; exact hlevel
  obtain ⟨henters, htval⟩ := State.trapAt_enters (s := t) (c := c) code tval hlevel' (hgood.noted hcore hoff)
  have hinsn : s.insn c w e body = t.trapAt c code tval := by
    rw [State.insn_of_runs w e body hruns fun _ => .inr (by rw [hrun]; exact henters.trapped hcode), hrun]
  rw [hinsn]
  rw [Enters, hcore] at henters
  exact ⟨rfl, henters, htval⟩

theorem State.insnRun_fault {s t : State} {c : Nat} {w : Word} {e : Enc} {f : Nat × DWord} (body : State → State)
    (h : s.fetchCheck c = (t, some f)) : s.insnRun c w e body = t.trapAt c f.1 f.2 := by
  rw [State.insnRun, h]

/-! ## The commands of the core pair itself -/

theorem exec_coreWaits : ∀ r ∈ [((.coreWait : Fin 32 → Word → Instr), E.WAIT), (.coreCflush, E.CFLUSH)],
    ∀ (c : Fin 32) (w : Word) (s : State), exec (r.1 c w) s = .next (s.insnPriv c.val w r.2 fun t => t.retire c.val) := by
  simp only [List.forall_mem_cons]
  exact ⟨fun _ _ _ => rfl, fun _ _ _ => rfl, fun _ h => absurd h List.not_mem_nil⟩

theorem exec_coreXrd (c : Fin 32) (w : Word) (s : State) : exec (.coreXrd c w) s = .next (s.insnPriv c.val w E.XRD fun t =>
    t.put1 c.val w ((t.core c.val).winReg (t.core c.val).cwp (fSysreg w % 32))) := by rfl

theorem exec_coreXwr (c : Fin 32) (w : Word) (s : State) : exec (.coreXwr c w) s = .next (s.insnPriv c.val w E.XWR fun t =>
    (t.co c.val fun k => k.setWinReg k.cwp (fSysreg w % 32) (t.xr c.val (fSrc1 w))).retire c.val) := by rfl

/-- The low five bits of SYSREG are a register number. -/
theorem fSysreg_low (w : Word) : fSysreg w % 32 = getBits w 16 5 := by
  simp only [fSysreg, getBits]
  omega

/-- A write of a register of a window changes the globals and the windows alone. -/
theorem CoreState.setWinReg_eq (k : CoreState) (v n : Nat) (x : DWord) :
    k.setWinReg v n x = { k with g := (k.setWinReg v n x).g, win := (k.setWinReg v n x).win } := by
  unfold CoreState.setWinReg
  split <;> [rfl; split <;> rfl]

/-- Settles O49: traps at fetch and decode (`State.insn_traps`), interrupts (`State.interrupt_enters`), and the privileged
rows, of which each is an instruction by itself (`exec_insnRows`). -/
theorem fetchAndPrivilege : Obligations.FetchAndPrivilege := by
  refine ⟨?denied, ?poisoned, ?word, ?user, ?idle, ?waits, ?xrd, ?xwr, ?interrupt, ?off⟩
  case denied =>
    intro r hr c w s m i hruns hlevel hdenied hgood
    obtain ⟨body, hexec⟩ := exec_insnRows r hr c w s
    obtain ⟨⟨hi, info, hcore⟩, hoff⟩ := State.deny_core s c.val (s.core c.val).pc.toNat 0 2 m i false false
    have hcheck : s.fetchCheck c.val = (s.deny c.val (s.core c.val).pc.toNat 0 2 m i false false, some (2, (s.core c.val).pc)) := by
      simp [State.fetchCheck, hlevel, hdenied]
    exact ⟨_, hexec, (State.insn_traps hruns hlevel hgood (State.insnRun_fault body hcheck) hcore hoff (show 2 < 9 by decide)).2⟩
  case poisoned =>
    intro r hr c w s hruns hlevel hdenied hoff hpoison hgood
    obtain ⟨body, hexec⟩ := exec_insnRows r hr c w s
    have hcheck : s.fetchCheck c.val = (s, some (4, (s.core c.val).pc)) := by
      simp [State.fetchCheck, hlevel, hdenied, hoff, hpoison]
    exact ⟨_, hexec, (State.insn_traps hruns hlevel hgood (State.insnRun_fault body hcheck) rfl rfl (show 4 < 9 by decide)).2⟩
  case word =>
    intro r hr c w s hruns hlevel hdenied hoff hpoison hfits hgood
    obtain ⟨body, hexec⟩ := exec_insnRows r hr c w s
    have hfetch : s.FetchGood c.val := ⟨hlevel ▸ hdenied, hoff, hpoison⟩
    have hrun : s.insnRun c.val w r.2 body = s.trapAt c.val 0 (w.zeroExtend 64) := by
      rw [hfetch.insnRun, if_neg (by simp [hfits]), State.illegal]
    obtain ⟨hinsn, henters, htval⟩ := State.insn_traps hruns hlevel hgood hrun rfl rfl (by decide)
    refine ⟨_, hexec, henters, htval, ?_⟩
    rw [hinsn]
    exact (CoreState.begun.enters (State.trap_begun 0 0 (w.zeroExtend 64) (s.core c.val).pc hlevel hgood)).2.2.2.1
  case user =>
    intro r hr c w s h hlevel hgood
    obtain ⟨body, hexec⟩ := exec_privRows r hr c w s
    rw [hexec, h.insnPriv_user hlevel]
    exact ⟨_, rfl, State.illegal_enters w hlevel hgood⟩
  case idle =>
    intro r hr c w s hruns
    obtain ⟨body, hexec⟩ := exec_insnRows r hr c w s
    rw [hexec, State.insn, if_pos (by simp [hruns])]
  case waits =>
    intro r hr c w s h hlevel
    rw [exec_coreWaits r hr c w s, h.insnPriv hlevel]
    exact ⟨_, rfl, (OnlyCore.refl s c.val).retireTo _ h.runs rfl rfl⟩
  case xrd =>
    intro c w s h hlevel
    rw [exec_coreXrd, h.insnPriv hlevel, fSysreg_low]
    exact ⟨_, rfl, State.put1_onlyCore w _ h.runs⟩
  case xwr =>
    intro c w s h hlevel
    rw [exec_coreXwr, h.insnPriv hlevel, fSysreg_low]
    have hset := CoreState.setWinReg_eq (s.core c.val) (s.core c.val).cwp (getBits w 16 5) (s.xr c.val (fSrc1 w))
    have hstep := (s.co_onlyCore c.val fun k => k.setWinReg k.cwp (getBits w 16 5) (s.xr c.val (fSrc1 w))).retireTo
      ((s.core c.val).pc + 4) h.runs (by rw [hset]) (by rw [hset])
    refine ⟨_, rfl, ?_⟩
    have hpc : ((s.co c.val fun k => k.setWinReg k.cwp (getBits w 16 5) (s.xr c.val (fSrc1 w))).core c.val).pc =
        (s.core c.val).pc := by rw [State.core_co_same, hset]
    rw [State.retire, hpc]
    exact hstep
  case interrupt =>
    intro r hr c w n s hruns hlevel hdenied hoff hpoison hfits hgood hlowest
    obtain ⟨henters, hinstret, hipend, -⟩ := State.interrupt_enters hlowest hgood
    refine ⟨_, exec_intA r hr c w s, ?_⟩
    rw [State.opA, State.insn_interrupted hruns hlevel ⟨hlevel ▸ hdenied, hoff, hpoison⟩ hfits hlowest]
    · exact ⟨henters, hinstret, hipend⟩
    · rw [(State.put1_onlyCore w _ hruns).core]
      exact (CoreState.setReg_level _ _ _).trans hlevel
  case off =>
    intro r hr c w s hruns hlevel hdenied hoff hgood
    obtain ⟨body, hexec⟩ := exec_insnRows r hr c w s
    have hcheck : s.fetchCheck c.val = (s.noIsland c.val (islHbm (s.hbmKey.channel (s.core c.val).pc.toNat)),
        some (4, (s.core c.val).pc)) := by
      simp [State.fetchCheck, hlevel, hdenied, hoff]
    have hquiet := State.noIsland_quiet s c.val (islHbm (s.hbmKey.channel (s.core c.val).pc.toNat))
    exact ⟨_, hexec, (State.insn_traps hruns hlevel hgood (State.insnRun_fault body hcheck) (hquiet.core c.val) hquiet.hbmOff
      (show 4 < 9 by decide)).2⟩

end Sys2Proof.Machine
end

section
/-! Spills and fills (12 R542 to R545), and double faults of a held context (12 R568). -/
namespace Sys2Proof.Machine

/-! ## Double faults -/

/-- A core pair in the monitor behind a double fault, its stores gone (12 R568). -/
def CoreState.doubled (k : CoreState) : CoreState :=
  { k with level := 3, tcause := 12, pc := k.mtvec, inDouble := true, storeErr := none }

theorem State.doubleFault_held {s : State} {c : Nat} (hfirst : (s.core c).inDouble = false)
    (hheld : (s.core c).tstatus.getLsbD 2 = true) :
    s.doubleFault c = ((s.flush c).co c CoreState.doubled).abortCur c 6 0 := by
  rw [State.doubleFault]
  dsimp only
  rw [if_neg (by simp [hfirst]), if_neg (by simp [hheld])]
  rfl

/-- A core pair behind a double fault of a held context, but for the partitions that run, wait or freeze on it. -/
theorem State.doubleFault_core {s : State} {c : Nat} (hfirst : (s.core c).inDouble = false)
    (hheld : (s.core c).tstatus.getLsbD 2 = true) :
    ((s.core c).flushed (s.firstOff (s.core c).buf)).doubled.SameContext ((s.doubleFault c).core c) := by
  have hcore : ((s.flush c).co c CoreState.doubled).core c =
      ((s.core c).flushed (s.firstOff (s.core c).buf)).doubled := by
    rw [State.core_co_same, State.flush_core]
  have hlevel : (((s.flush c).co c CoreState.doubled).core c).level ≠ 0 := by
    rw [State.core_co_same]
    exact Nat.succ_ne_zero 2
  rw [State.doubleFault_held hfirst hheld, ← hcore]
  exact (State.abortCur_keeps hlevel 6 0).1

/-! ## Stores of a frame -/

/-- Below M, what the rule set says of an access depends on the registers alone (13 R599). -/
theorem State.denied?_congr {s t : State} {lv : Nat} (hregs : t.regs = s.regs) (hlv : lv ≠ 3) (c kind a : Nat) :
    t.denied? c lv kind a = s.denied? c lv kind a := by
  have hset : t.on (F.ACC_CTL_ASET c) = s.on (F.ACC_CTL_ASET c) := by rw [State.on, State.get_of_regs hregs, State.on]
  have hrd : t.rd = s.rd := funext fun o => by rw [State.rd, hregs, State.rd]
  have hrdN : t.rdN = s.rdN := funext fun o => by rw [State.rdN, hrd, State.rdN]
  have hslot : t.slotPerm c = s.slotPerm c := funext fun n => by rw [State.slotPerm, hset, hrdN, State.slotPerm]
  have hattr : t.regionAttr c = s.regionAttr c := funext fun r => by rw [State.regionAttr, hset, hrd, State.regionAttr]
  have hbase : t.regionBase c = s.regionBase c := funext fun r => by rw [State.regionBase, hset, hrdN, State.regionBase]
  have hregion : t.regionOf c a = s.regionOf c a := by
    unfold State.regionOf State.regionHolds
    rw [hattr, hbase]
  unfold State.denied?
  rw [hslot, hregion, hattr]
  simp only [hlv, false_and]

/-- A store that waits in the commit buffer, and its record in the signature (12 R577, R578). -/
def CoreState.stored (k : CoreState) (e : BufStore) : CoreState := { k with buf := k.buf ++ [e] }.signStore e

theorem State.store_waits {s : State} {c lv a size : Nat} (v : Nat) (spill : Bool) (halign : a % size = 0)
    (hallowed : s.denied? c lv 1 a = none) (hmem : isMgmt a = false) : s.store c lv a size v spill =
      (s.co c fun k => k.stored { addr := a, size := size, val := v % 2 ^ (8 * size) }, none) := by
  have hcheck : s.checkMem c lv 1 a size spill = (s, none) := by simp [State.checkMem, halign, hallowed]
  rw [State.store, hcheck]
  dsimp only
  rw [if_neg (by simp [hmem])]
  rfl

/-- The entry of the commit buffer for a register of the windows. -/
def frameStore (m : Tab DWord) (key : Nat → Nat) (a i : Nat) : BufStore :=
  { addr := a + 8 * i, size := 8, val := (tget 0 m (key i)).toNat }

/-- A frame whose stores are allowed waits in the commit buffer, in ascending addresses (12 R542). -/
theorem State.spillGo_waits {s : State} {c a : Nat} (key : Nat → Nat) (ha : a % 8 = 0) (n j : Nat) {t : State} {k : CoreState}
    (h : OnlyCore s t c k) (hwin : k.win = (s.core c).win)
    (hok : ∀ i, i < j + n → s.denied? c 0 1 (a + 8 * i) = none ∧ isMgmt (a + 8 * i) = false) :
    ∃ u sig, t.spillGo c (a + 8 * j) ((List.range' j n).map key) = (u, none) ∧ OnlyCore s u c { k with
      buf := k.buf ++ (List.range' j n).map (frameStore (s.core c).win key a), sig := sig } := by
  induction n generalizing j t k with
  | zero => exact ⟨t, k.sig, rfl, by simpa using h⟩
  | succ n ih =>
    obtain ⟨hallowed, hmem⟩ := hok j (by omega)
    have hstore := State.store_waits (s := t) (c := c) (lv := 0) (a := a + 8 * j) (size := 8) (tget 0 (t.core c).win (key j)).toNat true
      (by omega) ((State.denied?_congr h.regs (by decide) c 1 _).trans hallowed) hmem
    have hval : (tget 0 (t.core c).win (key j)).toNat % 2 ^ (8 * 8) = (tget 0 (s.core c).win (key j)).toNat := by
      rw [h.core, hwin]
      exact Nat.mod_eq_of_lt (BitVec.isLt _)
    rw [hval] at hstore
    obtain ⟨u, sig, hgo, honly⟩ := ih (j + 1) (h.co fun k => k.stored (frameStore (s.core c).win key a j)) hwin
      fun i hi => hok i (by omega)
    refine ⟨u, sig, ?_, ?_⟩
    · rw [List.range'_succ, List.map_cons, State.spillGo, hstore]
      exact hgo
    · rw [List.range'_succ, List.map_cons]
      simpa [CoreState.stored, CoreState.signStore] using honly

/-! ## Loads of a frame -/

theorem State.load_plain {s : State} {c lv a size : Nat} (spill : Bool) (halign : a % size = 0)
    (hallowed : s.denied? c lv 0 a = none) (hmem : isMgmt a = false) (hsram : imageSram a = false) (hon : s.hbmOff a = false)
    (hclean : s.poisoned a size = false) : s.load c lv a size spill = (s, .val (seen s c a size)) := by
  have hcheck : s.checkMem c lv 0 a size spill = (s, none) := by simp [State.checkMem, halign, hallowed]
  rw [State.load, hcheck]
  simp [hmem, hsram, hon, hclean, seen]

/-- A frame that can be read is read in ascending addresses, and nothing changes (12 R544). -/
theorem State.fillGo_reads {s : State} {c a : Nat} (key : Nat → Nat) (ha : a % 8 = 0) (n j : Nat)
    (hok : ∀ i, i < j + n → s.denied? c 0 0 (a + 8 * i) = none ∧ isMgmt (a + 8 * i) = false ∧ imageSram (a + 8 * i) = false ∧
      s.hbmOff (a + 8 * i) = false ∧ s.poisoned (a + 8 * i) 8 = false) :
    s.fillGo c (a + 8 * j) ((List.range' j n).map key) =
      (s, (List.range' j n).map (fun i => (key i, seen s c (a + 8 * i) 8)), none) := by
  induction n generalizing j with
  | zero => rfl
  | succ n ih =>
    obtain ⟨hallowed, hmem, hsram, hon, hclean⟩ := hok j (by omega)
    have hload := State.load_plain (c := c) (lv := 0) true (show (a + 8 * j) % 8 = 0 by omega) hallowed hmem hsram hon hclean
    have hrest := ih (j + 1) fun i hi => hok i (by omega)
    rw [Nat.mul_add, ← Nat.add_assoc] at hrest
    rw [List.range'_succ, List.map_cons, State.fillGo]
    dsimp only
    rw [hload]
    dsimp only
    rw [hrest, List.map_cons]

/-! ## Frames -/

theorem frameKeys_eq (b : Nat) {long : Bool} {n : Nat} (h : n = if long then 24 else 16) :
    frameKeys b long = (List.range' 0 n).map fun i => winKey b (8 + i) := by
  rw [frameKeys, ← h, List.range_eq_range']

theorem exec_coreWspill (c : Fin 32) (w : Word) (s : State) : exec (.coreWspill c w) s = execCoreWspill c w s := by rfl
theorem exec_coreWfill (c : Fin 32) (w : Word) (s : State) : exec (.coreWfill c w) s = execCoreWfill c w s := by rfl

/-- A spill within its limits. -/
theorem wspill_fits {c : Fin 32} {w : Word} {s : State} {n a : Nat} (h : s.Fetches c.val w E.WSPILL)
    (hlevel : (s.core c.val).level ≠ 0) (hres : 1 ≤ (s.core c.val).res) (hspilled : (s.core c.val).spilled < 65535)
    (hn : n = if (s.core c.val).res = 1 then 24 else 16) (hptr : a + 8 * n = (s.core c.val).spillPtr.toNat)
    (hlim : (s.core c.val).spillLim.toNat ≤ a) (ha : a % 8 = 0) (hroom : ∀ i, i < n → s.bufFull c.val (a + 8 * i) = false) :
    exec (.coreWspill c w) s = .next (s.spillFrame c.val a) := by
  have hsize : frameSize (decide ((s.core c.val).res = 1)) = 8 * n := by
    rw [hn, frameSize]
    by_cases h1 : (s.core c.val).res = 1 <;> simp [h1]
  have hsmall : 8 * n ≤ 192 := by
    rw [hn]
    split <;> decide
  have hlt := (s.core c.val).spillPtr.isLt
  have haddr : ((s.core c.val).spillPtr - BitVec.ofNat 64 (8 * n)).toNat = a := by
    rw [BitVec.toNat_sub, BitVec.toNat_ofNat]
    omega
  have hnofull : (List.range (8 * n / 8)).any (fun i => s.bufFull c.val (a + 8 * i)) = false := by
    rw [Nat.mul_div_cancel_left _ (by decide), List.any_eq_false]
    intro i hi
    rw [hroom i (List.mem_range.1 hi)]
    decide
  rw [exec_coreWspill, execCoreWspill, h.insnPriv hlevel]
  dsimp only
  rw [hsize, haddr, if_neg (by omega), if_neg (by omega), if_neg (by omega), hnofull]
  rfl

/-- What a spill within its limits leaves (12 R542, R543). -/
theorem spillFrame_leaves {s : State} {c n b a : Nat} (hruns : s.coreRuns c = true)
    (hn : n = if (s.core c).res = 1 then 24 else 16) (hb : b = ((s.core c).cwp + 16 - (s.core c).res) % 15) (ha : a % 8 = 0)
    (hok : ∀ i, i < n → s.denied? c 0 1 (a + 8 * i) = none ∧ isMgmt (a + 8 * i) = false) :
    ∃ sig, OnlyCore s (s.spillFrame c a) c ({ s.core c with
      buf := (s.core c).buf ++ (List.range n).map (frameStore (s.core c).win (fun i => winKey b (8 + i)) a), sig := sig
      spillPtr := BitVec.ofNat 64 a
      wstate := wstateOf (s.core c).cwp ((s.core c).res - 1) ((s.core c).spilled + 1) }.next ((s.core c).pc + 4)) := by
  obtain ⟨u, sig, hgo, honly⟩ := State.spillGo_waits (fun i => winKey b (8 + i)) ha n 0 (OnlyCore.refl s c) rfl
    fun i hi => hok i (by omega)
  rw [Nat.mul_zero, Nat.add_zero, ← frameKeys_eq b (long := decide ((s.core c).res = 1)) (by simpa using hn), hb] at hgo
  refine ⟨sig, ?_⟩
  rw [State.spillFrame]
  dsimp only
  rw [hgo]
  dsimp only
  rw [State.retire, State.core_co_same, honly.core, List.range_eq_range']
  exact (honly.co fun q => { q with
    spillPtr := BitVec.ofNat 64 a
    wstate := wstateOf (s.core c).cwp ((s.core c).res - 1) ((s.core c).spilled + 1) }).retireTo _ hruns rfl rfl

/-- The windows with the values of a frame. -/
def filled (m : Tab DWord) (l : List (Nat × Nat)) : Tab DWord := l.foldl (fun m e => tset 0 m e.1 (BitVec.ofNat 64 e.2)) m

theorem fillFrame_leaves {s : State} {c n b a : Nat} (hruns : s.coreRuns c = true)
    (hn : n = if (s.core c).res = 0 then 24 else 16) (hb : b = ((s.core c).cwp + 15 - (s.core c).res) % 15)
    (hptr : a = (s.core c).spillPtr.toNat) (ha : a % 8 = 0)
    (hok : ∀ i, i < n → s.denied? c 0 0 (a + 8 * i) = none ∧ isMgmt (a + 8 * i) = false ∧ imageSram (a + 8 * i) = false ∧
      s.hbmOff (a + 8 * i) = false ∧ s.poisoned (a + 8 * i) 8 = false) :
    OnlyCore s (s.fillFrame c) c ({ s.core c with
      win := filled (s.core c).win ((List.range n).map fun i => (winKey b (8 + i), seen s c (a + 8 * i) 8))
      spillPtr := (s.core c).spillPtr + BitVec.ofNat 64 (8 * n)
      wstate := wstateOf (s.core c).cwp ((s.core c).res + 1) ((s.core c).spilled - 1) }.next ((s.core c).pc + 4)) := by
  have hgo := State.fillGo_reads (c := c) (fun i => winKey b (8 + i)) ha n 0 fun i hi => hok i (by omega)
  have hsize : frameSize (decide ((s.core c).res = 0)) = 8 * n := by
    rw [hn, frameSize]
    by_cases h0 : (s.core c).res = 0 <;> simp [h0]
  rw [Nat.mul_zero, Nat.add_zero, ← frameKeys_eq b (long := decide ((s.core c).res = 0)) (by simpa using hn), hb] at hgo
  rw [State.fillFrame]
  dsimp only
  rw [← hptr, hgo]
  dsimp only
  rw [State.retire, State.core_co_same, List.range_eq_range', hsize, ← hb]
  exact (s.co_onlyCore c fun q => { q with
    win := filled q.win ((List.range' 0 n).map fun i => (winKey b (8 + i), seen s c (a + 8 * i) 8))
    spillPtr := (s.core c).spillPtr + BitVec.ofNat 64 (8 * n)
    wstate := wstateOf (s.core c).cwp ((s.core c).res + 1) ((s.core c).spilled - 1) }).retireTo _ hruns rfl rfl

theorem filled_in (m : Tab DWord) (val : Nat → Nat) {b n i : Nat} (hb : b < 16) (hn : n ≤ 24) (hi : i < n) :
    tget 0 (filled m ((List.range n).map fun i => (winKey b (8 + i), val i))) (winKey b (8 + i)) = BitVec.ofNat 64 (val i) := by
  refine tget_foldl_tset (0 : DWord) ((List.range n).map fun i => (winKey b (8 + i), val i)) Prod.fst
    (fun e => BitVec.ofNat 64 e.2) m (x := (winKey b (8 + i), val i)) (List.mem_map.2 ⟨i, List.mem_range.2 hi, rfl⟩) ?_
  intro y hy hkey
  obtain ⟨j, hj, rfl⟩ := List.mem_map.1 hy
  have hjlt := List.mem_range.1 hj
  have hji := winKey_injective hb (Nat.le_add_right 8 j) (by omega) (Nat.le_add_right 8 i) (by omega) hkey
  rw [show j = i by omega]

theorem filled_out (m : Tab DWord) (val : Nat → Nat) {b n k : Nat} (h : ∀ i, i < n → k ≠ winKey b (8 + i)) :
    tget 0 (filled m ((List.range n).map fun i => (winKey b (8 + i), val i))) k = tget 0 m k := by
  refine tget_foldl_tset_ne (0 : DWord) _ Prod.fst (fun e => BitVec.ofNat 64 e.2) m ?_
  intro y hy hkey
  obtain ⟨j, hj, rfl⟩ := List.mem_map.1 hy
  exact h j (List.mem_range.1 hj) hkey.symm

/-- A frame that does not fit, or that is not aligned, is a trap of the trap window (12 R545, R565). -/
theorem wspill_short {c : Fin 32} {w : Word} {s : State} (h : s.Fetches c.val w E.WSPILL) (hlevel : (s.core c.val).level ≠ 0)
    (hres : 2 ≤ (s.core c.val).res) (hspilled : (s.core c.val).spilled < 65535)
    (hlim : (s.core c.val).spillPtr.toNat < (s.core c.val).spillLim.toNat + 128) (hptr : 128 ≤ (s.core c.val).spillPtr.toNat) :
    ∃ (t : State) (hi info : Word), exec (.coreWspill c w) s = .next (t.doubleFault c.val) ∧ t.core c.val = (s.core c.val).noted hi info := by
  have hlt := (s.core c.val).spillPtr.isLt
  have haddr : ((s.core c.val).spillPtr - BitVec.ofNat 64 128).toNat = (s.core c.val).spillPtr.toNat - 128 := by
    rw [BitVec.toNat_sub, BitVec.toNat_ofNat]
    omega
  have hsize : frameSize (decide ((s.core c.val).res = 1)) = 128 := by simp [frameSize, show (s.core c.val).res ≠ 1 by omega]
  rw [exec_coreWspill, execCoreWspill, h.insnPriv hlevel]
  dsimp only
  rw [hsize, haddr, if_neg (by omega)]
  by_cases halign : ((s.core c.val).spillPtr.toNat - 128) % 8 = 0
  · obtain ⟨⟨hi, info, hcore⟩, -⟩ :=
      State.deny_core s c.val ((s.core c.val).spillPtr.toNat - 128) 0 1 0 0 false true
    refine ⟨_, hi, info, ?_, hcore⟩
    rw [if_neg (by omega), if_pos (by omega), State.trapAt_double _ _ (by rw [hcore]; exact hlevel)]
  · exact ⟨s, (s.core c.val).faultHi, (s.core c.val).faultInfo, by rw [if_pos halign, State.trapAt_double _ _ hlevel], rfl⟩

/-- Settles O48: a spill and a fill within their limits (`spillFrame_leaves`, `fillFrame_leaves`), and what is not. -/
theorem spillsAndFills : Obligations.SpillsAndFills := by
  refine ⟨?spill, ?fill, ?spillIllegal, ?fillIllegal, ?short⟩
  case spill =>
    intro c w s n b a h hlevel hcwp hres hres' hspilled hn hb hptr hlim ha hok
    obtain ⟨sig, honly⟩ := spillFrame_leaves h.runs hn hb ha fun i hi => ⟨(hok i hi).1, (hok i hi).2.1⟩
    refine ⟨_, wspill_fits h hlevel hres hspilled hn hptr hlim ha fun i hi => (hok i hi).2.2, ?_⟩
    beta_reduce
    rw [honly.core]
    refine ⟨?_, rfl, rfl, rfl, rfl, rfl, rfl, honly.1, honly.2.2⟩
    simp only [CoreState.next, CoreState.winReg_high _ _ (Nat.le_add_right 8 _)]
    rfl
  case fill =>
    intro c w s n b a h hlevel hcwp hres hspilled hn hb hptr ha hok
    have honly := fillFrame_leaves h.runs hn hb hptr ha hok
    have hsmall : n ≤ 24 := by
      rw [hn]
      split <;> decide
    have hfill : exec (.coreWfill c w) s = .next (s.fillFrame c.val) := by
      rw [exec_coreWfill, execCoreWfill, h.insnPriv hlevel, if_neg (by omega)]
    refine ⟨_, hfill, ?_⟩
    beta_reduce
    rw [honly.core]
    refine ⟨fun i hi => ?_, fun k hk => ?_, rfl, rfl, rfl, rfl, rfl, honly.1, honly.2.2⟩
    · rw [CoreState.winReg_high _ _ (Nat.le_add_right 8 i)]
      exact filled_in _ (fun i => seen s c.val (a + 8 * i) 8) (by omega) hsmall hi
    · exact filled_out _ (fun i => seen s c.val (a + 8 * i) 8) hk
  case spillIllegal =>
    intro c w s h hlevel hlimit
    rw [exec_coreWspill, execCoreWspill, h.insnPriv hlevel]
    dsimp only
    rw [if_pos (by omega), State.illegal_double w hlevel]
  case fillIllegal =>
    intro c w s h hlevel hlimit
    rw [exec_coreWfill, execCoreWfill, h.insnPriv hlevel, if_pos hlimit, State.illegal_double w hlevel]
  case short =>
    intro c w s h hlevel hres hspilled hlim hptr hfirst hheld
    obtain ⟨t, hi, info, hexec, hcore⟩ := wspill_short h hlevel hres hspilled hlim hptr
    have hdouble := State.doubleFault_core (s := t) (c := c.val) (by rw [hcore]; exact hfirst) (by rw [hcore]; exact hheld)
    refine ⟨_, hexec, ?_⟩
    beta_reduce
    rw [hdouble, hcore]
    exact ⟨rfl, rfl, rfl, rfl⟩

end Sys2Proof.Machine
end

section
/-! Registers that neither a store on its way out nor an activation that aborts reaches (05 R218, R221; 12 R579). -/
namespace Sys2Proof.Machine

/-! ## Registers below those of the event recorder -/

/-- The registers below those of the event recorder are those of another state. -/
def LowKept (s t : State) : Prop := ∀ o < 0x300000, t.rd o = s.rd o

theorem LowKept.refl (s : State) : LowKept s s := fun _ _ => rfl

theorem LowKept.trans {s t u : State} (h : LowKept s t) (h' : LowKept t u) : LowKept s u :=
  fun o ho => (h' o ho).trans (h o ho)

theorem LowKept.of_regs {s t : State} (h : t.regs = s.regs) : LowKept s t := fun o _ => by rw [State.rd, h, State.rd]

theorem LowKept.get {s t : State} (h : LowKept s t) {f : Fld} (hf : f.off < 0x300000) : t.get f = s.get f := by
  rw [State.get, h _ hf, State.get]

theorem LowKept.raise (s : State) (code isl : Nat) (data : List Byte) : LowKept s (s.raise code isl data) := by
  refine fun o ho => State.rd_raise s code isl data ?_ ?_
  · simp only [F.EVT_COUNTS_LOST]
    omega
  · simp only [F.EVT_STATUS_LOST]
    omega

theorem LowKept.each {α : Type} {f : State → α → State} {l : List α} (hf : ∀ t, ∀ x ∈ l, LowKept t (f t x)) (s : State) :
    LowKept s (s.each l f) :=
  List.foldlRecOn l f (LowKept.refl s) fun t ht x hx => ht.trans (hf t x hx)

theorem State.cellStore_lowKept (s : State) (a : Nat) (b : Byte) : LowKept s (s.cellStore a b) := by
  unfold State.cellStore
  split
  case h_4 hcell =>
    have hslot := sramCell_slot hcell
    exact fun o ho => State.rd_wr_ne _ _ (by omega)
  case h_5 => split <;> exact LowKept.of_regs rfl
  case h_6 => split <;> exact LowKept.of_regs rfl
  all_goals exact LowKept.of_regs rfl

theorem State.coreW_lowKept (s : State) (a : Nat) (l : List Byte) : LowKept s (s.coreW a l) := by
  unfold State.coreW
  split
  · exact (LowKept.each (fun t e _ => State.cellStore_lowKept t _ _) s).trans (LowKept.of_regs (State.unpoison_regs _ _ _))
  · exact LowKept.of_regs (State.unpoison_regs _ _ _)

theorem State.storeTrack_regs (s : State) (c a : Nat) : (s.storeTrack c a).regs = s.regs := by
  unfold State.storeTrack
  dsimp only
  split
  case h_1 => rfl
  case h_2 =>
    split
    · split
      · rfl
      · exact State.unpoison_regs _ _ _
    · split
      · split <;> rfl
      · rfl

theorem State.storeOut_lowKept (s : State) (c : Nat) (e : BufStore) : LowKept s (s.storeOut c e) := by
  unfold State.storeOut
  split
  · exact LowKept.raise s _ _ _
  · exact (LowKept.of_regs (State.storeTrack_regs s c _)).trans (State.coreW_lowKept _ _ _)

theorem State.flush_lowKept (s : State) (c : Nat) : LowKept s (s.flush c) :=
  (LowKept.each (fun t e _ => State.storeOut_lowKept t c e) s : LowKept s _)

theorem State.begun_lowKept (s : State) (c : Nat) (cause tval npc : DWord) (vec : Nat) :
    LowKept s (s.begun c cause tval npc vec) :=
  (State.flush_lowKept s c).trans (LowKept.of_regs (State.begun_regs s c cause tval npc vec))

/-! ## An activation that aborts -/

/-- The abort of an activation of a partition that there can be writes CYC_STATUS and the registers of the partition alone, of
those below the event recorder's. -/
theorem State.abortPart_rd (s : State) {p : Nat} (kind pc : Nat) {o : Nat} (ho : o < 0x300000) (hst : o ≠ 0xC0000)
    (hown : o < 0xC1000 + 0x20 * p ∨ 0xC1020 + 0x20 * p ≤ o) : (s.abortPart p kind pc).rd o = s.rd o := by
  have hne : (F.CYC_PSTATE_STATE p).off ≠ o ∧ (F.CYC_PSTATE_LAST_FAULT p).off ≠ o ∧ (F.CYC_PFAULT_ABORTS p).off ≠ o ∧
      F.CYC_STATUS_HALTED.off ≠ o ∧ F.CYC_STATUS_ABORT.off ≠ o := by
    simp only [F.CYC_PSTATE_STATE, F.CYC_PSTATE_LAST_FAULT, F.CYC_PFAULT_ABORTS, F.CYC_STATUS_HALTED, F.CYC_STATUS_ABORT]
    omega
  obtain ⟨hstate, hfault, haborts, hhalted, habort⟩ := hne
  have hevent (t : State) : LowKept t (t.abortEvent p kind pc) := by
    unfold State.abortEvent
    dsimp only
    split
    case h_3 => exact LowKept.refl t
    all_goals exact LowKept.raise t _ _ _
  have hpst (t : State) : (t.setPst p 6).rd o = t.rd o := by
    rw [State.setPst, State.haltShow, State.putB, State.rd_put_ne _ _ hhalted, State.rd_put_ne _ _ hstate]
  have hnote (t : State) : (t.noteEnd p kind).rd o = t.rd o := rfl
  have hcount (t : State) : (t.countAbort p kind).rd o = t.rd o := by
    have htotal (u : State) : (u.total 0x088 4 1).rd o = u.rd o := rfl
    have hpart (u : State) (k : PartState) : (u.setPart p k).rd o = u.rd o := rfl
    rw [State.countAbort, htotal, State.rd_put_ne _ _ habort, State.bump, State.rd_put_ne _ _ haborts, State.rd_put_ne _ _ hfault, hpart]
  unfold State.abortPart
  split
  case isFalse => rfl
  case isTrue => rw [State.abortNow, hevent _ o ho, hpst, hnote, hcount, State.coreDrop_rd]

/-- A trap at U writes no register between those of CYC and those of the event recorder. -/
theorem State.trapAt_rd_high {s : State} {c : Nat} (code : Nat) (tval : DWord) (hlevel : (s.core c).level = 0)
    (hgood : s.StoresGood c) (hcur : ∀ p, (s.core c).cur = some p → p < 256) {o : Nat} (hlo : 0xC3000 ≤ o) (ho : o < 0x300000) :
    (s.trapAt c code tval).rd o = s.rd o := by
  have hbegun (cause : DWord) : (s.begun c cause tval (s.core c).pc code).rd o = s.rd o := State.begun_lowKept _ _ _ _ _ _ o ho
  rw [State.trapAt, State.trap_good code 0 tval _ hlevel hgood]
  split
  case h_2 => exact hbegun _
  case h_1 =>
    have hkept (cause : DWord) : ((s.begun c cause tval (s.core c).pc code).core c).cur = (s.core c).cur := by
      rw [(State.begun_onlyCore s c cause tval _ code).core]
      rfl
    unfold State.abortCur
    split
    case h_2 => exact hbegun _
    case h_1 p hp =>
      have hlt := hcur p (by rw [← hp, hkept])
      rw [State.abortPart_rd _ _ _ ho (by omega) (by omega)]
      exact hbegun _

end Sys2Proof.Machine
end

section
/-! Stores (12 R549, R554, R555, R577, R578; 13 R602). -/
namespace Sys2Proof.Machine

/-! ## The rows -/

theorem exec_storeRows : ∀ r ∈ storeRows, ∀ (c : Fin 32) (w : Word) (s : State),
    exec (r.1 c w) s = .next (s.storeX c.val w r.2.1 r.2.2.1 fun t => (r.2.2.2 (t.core c.val) (sData w)).toNat) := by
  simp only [storeRows, List.forall_mem_cons]
  exact ⟨fun _ _ _ => rfl, fun _ _ _ => rfl, fun _ _ _ => rfl, fun _ _ _ => rfl, fun _ _ _ => rfl, fun _ _ _ => rfl,
    fun _ h => absurd h List.not_mem_nil⟩

/-- A store with room in the commit buffer. -/
theorem storeRow_runs {r : (Fin 32 → Word → Instr) × Enc × Nat × (CoreState → Nat → DWord)} (hr : r ∈ storeRows) {c : Fin 32}
    {w : Word} {s : State} {a : Nat} (h : s.Fetches c.val w r.2.1)
    (ha : a = (s.xr c.val (fSrc1 w) + (w.extractLsb' 16 16).signExtend 64).toNat) (hroom : s.bufFull c.val a = false) :
    exec (r.1 c w) s = .next
      ((s.store c.val (s.core c.val).level a r.2.2.1 (r.2.2.2 (s.core c.val) (sData w)).toNat false).1.storeEnd c.val
        (s.store c.val (s.core c.val).level a r.2.2.1 (r.2.2.2 (s.core c.val) (sData w)).toNat false).2) := by
  have haddr : (s.xr c.val (fSrc1 w) + imm16 w).toNat = a := ha.symm
  rw [exec_storeRows r hr c w s, State.storeX, h.insn]
  dsimp only
  rw [haddr, hroom]
  rfl

/-! ## What the core pair reads of its own stores -/

theorem bufByte_append (l : List BufStore) (e : BufStore) (a : Nat) (d : Byte) : bufByte (l ++ [e]) a d =
    if e.addr ≤ a ∧ a < e.addr + e.size then BitVec.ofNat 8 (e.val / 256 ^ (a - e.addr)) else bufByte l a d := by
  rw [bufByte, List.foldl_append]
  rfl

/-- The bytes of a value that a store cuts to its size. -/
theorem storedByte (v : DWord) {n i : Nat} (h : i < n) :
    BitVec.ofNat 8 (v.toNat % 2 ^ (8 * n) / 256 ^ i) = v.extractLsb' (8 * i) 8 := by
  refine BitVec.eq_of_getLsbD_eq fun j hj => ?_
  rw [show 256 ^ i = 2 ^ (8 * i) by rw [Nat.pow_mul], BitVec.getLsbD_ofNat, BitVec.getLsbD_extractLsb',
    ← Nat.shiftRight_eq_div_pow, Nat.testBit_shiftRight, Nat.testBit_mod_two_pow]
  simp [hj, show 8 * i + j < 8 * n by omega, BitVec.getLsbD]

/-! ## How a store ends -/

/-- A store that waits changes what the core pair reads at its own bytes alone (12 R555, R577). -/
theorem State.stored_leaves {s u : State} {c : Nat} {e : BufStore} (hruns : s.coreRuns c = true)
    (hu : u = (s.co c fun k => k.stored e).retire c) : OnlyCore s u c { (s.core c).next ((s.core c).pc + 4) with
      buf := (s.core c).buf ++ [e]
      sig := (le 8 e.addr ++ le 8 e.val ++ le 8 (2 ^ e.size - 1)).foldl (crcByte 64 0x42F0E1EBA9EA3693) (s.core c).sig } ∧
    (∀ b, u.memB b = s.memB b) ∧
    ∀ b, bufByte (u.core c).buf b (u.memB b) = if e.addr ≤ b ∧ b < e.addr + e.size
      then BitVec.ofNat 8 (e.val / 256 ^ (b - e.addr)) else bufByte (s.core c).buf b (s.memB b) := by
  have honly := (s.co_onlyCore c fun k => k.stored e).retireTo ((s.core c).pc + 4) hruns rfl rfl
  rw [State.retire, State.core_co_same] at hu
  rw [show (s.core c).pc = ((s.core c).stored e).pc from rfl, ← hu] at honly
  have hmem (b : Nat) : u.memB b = s.memB b := congrArg (Memory.read · b) honly.mem
  refine ⟨honly, hmem, fun b => ?_⟩
  rw [honly.core, hmem]
  exact bufByte_append _ _ _ _

theorem State.bufFull_mgmt {s : State} (c : Nat) {a : Nat} (h : isMgmt a = true) : s.bufFull c a = false := by
  simp [State.bufFull, h]

/-- A store that management space takes: the earlier stores leave first (12 R557). -/
theorem State.store_mgmt {s : State} {c lv a size : Nat} (v : Nat) (spill : Bool) (halign : a % size = 0)
    (hallowed : s.denied? c lv 1 a = none) (hmem : isMgmt a = true) (hrefused : storeRefused (mgmtOff a) size = false)
    (hsize : mgmtOff a < 0x10000000 → size = 4) (hon : s.mgmtOffline a = none) : s.store c lv a size v spill =
      stored ((s.flush c).mgmtStore (some c) lv (mgmtOff a) (BitVec.ofNat 32 v)) := by
  have hcheck : s.checkMem c lv 1 a size spill = (s, none) := by simp [State.checkMem, halign, hallowed]
  rw [State.store, hcheck]
  dsimp only
  rw [if_pos hmem, State.storeMgmt, if_neg (by simp [hrefused]), if_neg (fun h => h.2 (hsize h.1)), hon]

/-- A store that management space has taken retires, whatever its answer (13 R608). -/
theorem State.storeEnd_stored (c : Nat) (r : State × StoreRes) : (stored r).1.storeEnd c (stored r).2 = r.1.retire c := rfl

theorem State.store_misaligned {s : State} {c lv a size : Nat} (v : Nat) (spill : Bool) (halign : a % size ≠ 0) :
    s.store c lv a size v spill = (s, some (1, BitVec.ofNat 64 a)) := by
  have hcheck : s.checkMem c lv 1 a size spill = (s, some (1, BitVec.ofNat 64 a)) := by simp [State.checkMem, halign]
  rw [State.store, hcheck]

theorem State.store_denied {s : State} {c lv a size m i : Nat} (v : Nat) (spill : Bool) (halign : a % size = 0)
    (hdenied : s.denied? c lv 1 a = some (m, i)) :
    s.store c lv a size v spill = (s.deny c a lv 1 m i false spill, some (3, BitVec.ofNat 64 a)) := by
  have hcheck : s.checkMem c lv 1 a size spill = (s.deny c a lv 1 m i false spill, some (3, BitVec.ofNat 64 a)) := by
    simp [State.checkMem, halign, hdenied]
  rw [State.store, hcheck]

/-- The fault registers after a denial (13 R602). -/
theorem State.deny_noted (s : State) {c : Nat} (hc : c < 32) (a lv kind m idx : Nat) (size spill : Bool) :
    (s.deny c a lv kind m idx size spill).rdN (R.ACC_FADDR_LO c) = a % 2 ^ 32 ∧
      ((s.deny c a lv kind m idx size spill).rd R.ACC_STATUS).getLsbD c = true := by
  obtain ⟨code, data, hevent⟩ : ∃ code data, denialEvent c a lv kind idx size = (code, data) := ⟨_, _, rfl⟩
  obtain ⟨info, hdeny⟩ := deny_of_event s (m := m) (spill := spill) hevent
  have hkept (o : Nat) (ho : o < 0x300000) (hne : F.SIG_STATUS_STORE_FAULT.off ≠ o) :
      (s.deny c a lv kind m idx size spill).rd o = (s.faultNoted c a info).rd o := by
    rw [hdeny, LowKept.raise _ _ _ _ o ho]
    split
    · exact State.rd_put_ne _ _ hne
    · rfl
  have haddr := hkept (R.ACC_FADDR_LO c) (by simp only [R.ACC_FADDR_LO]; omega)
    (by simp only [R.ACC_FADDR_LO, F.SIG_STATUS_STORE_FAULT]; omega)
  rw [State.rdN, haddr, hkept R.ACC_STATUS (by decide) (by decide)]
  exact ⟨faultNoted_addr s c a info, faultNoted_status s a info hc⟩

/-- A denied store at U is recorded and is ACCESS_D (12 R561, 13 R602). -/
theorem State.denied_traps {s : State} {c : Nat} (hc : c < 32) (a m i : Nat) (hlevel : (s.core c).level = 0)
    (hgood : s.StoresGood c) (hcur : ∀ p, (s.core c).cur = some p → p < 256) {u : State}
    (hu : u = (s.deny c a 0 1 m i false false).trapAt c 3 (BitVec.ofNat 64 a)) :
    Enters s u c 3 3 (s.core c).pc ∧ (u.core c).tval = BitVec.ofNat 64 a ∧
      u.rdN (R.ACC_FADDR_LO c) = a % 2 ^ 32 ∧ (u.rd R.ACC_STATUS).getLsbD c = true := by
  obtain ⟨⟨hi, info, hcore⟩, hoff⟩ := State.deny_core s c a 0 1 m i false false
  have hgood' := hgood.noted hcore hoff
  have hlevel' : ((s.deny c a 0 1 m i false false).core c).level = 0 := by rw [hcore]; exact hlevel
  have hcur' : ∀ p, ((s.deny c a 0 1 m i false false).core c).cur = some p → p < 256 := by rw [hcore]; exact hcur
  have hkept {o : Nat} (hlo : 0xC3000 ≤ o) (ho : o < 0x300000) : u.rd o = (s.deny c a 0 1 m i false false).rd o := by
    rw [hu, State.trapAt_rd_high 3 _ hlevel' hgood' hcur' hlo ho]
  obtain ⟨henters, htval⟩ := State.trapAt_enters (c := c) 3 (BitVec.ofNat 64 a) hlevel' hgood'
  obtain ⟨haddr, hstatus⟩ := State.deny_noted s hc a 0 1 m i false false
  rw [← hu, Enters, hcore] at henters
  rw [← hu] at htval
  refine ⟨henters, htval, ?_, ?_⟩
  · rwa [State.rdN, hkept (by simp only [R.ACC_FADDR_LO]; omega) (by simp only [R.ACC_FADDR_LO]; omega)]
  · rwa [hkept (by decide) (by decide)]

/-- Settles O40: a store that waits (`State.store_waits`), one of management space (`State.store_mgmt`), and the ones that trap
(`State.store_misaligned`, `State.denied_traps`). -/
theorem stores : Obligations.Stores := by
  refine ⟨?waits, ?mgmt, ?misaligned, ?denied, ?full⟩
  case waits =>
    intro r hr c w s a h ha halign hallowed hmem hroom
    have hrun := storeRow_runs hr h ha hroom
    rw [State.store_waits _ _ halign hallowed hmem] at hrun
    obtain ⟨honly, hunread, hreads⟩ := State.stored_leaves (e := ⟨a, r.2.2.1, (r.2.2.2 (s.core c.val) (sData w)).toNat %
      2 ^ (8 * r.2.2.1)⟩) h.runs rfl
    refine ⟨_, hrun, ?_⟩
    dsimp only [State.storeEnd] at honly hunread hreads ⊢
    refine ⟨honly, hunread, fun i hi => ?own, fun b hb => ?other⟩
    case own => rw [hreads, if_pos (by omega), Nat.add_sub_cancel_left, storedByte _ hi]
    case other => rw [hreads, if_neg (by omega)]
  case mgmt =>
    intro r hr c w s a h ha halign hallowed hmem hrefused hsize hon
    rw [storeRow_runs hr h ha (State.bufFull_mgmt c.val hmem), State.store_mgmt _ _ halign hallowed hmem hrefused hsize hon,
      State.storeEnd_stored, BitVec.ofNat_toNat, BitVec.truncate_eq_setWidth]
  case misaligned =>
    intro r hr c w s a h ha halign hroom hlevel hgood
    rw [storeRow_runs hr h ha hroom, State.store_misaligned _ _ halign]
    exact ⟨_, rfl, State.trapAt_enters 1 _ hlevel hgood⟩
  case denied =>
    intro r hr c w s a m i h ha halign hlevel hdenied hroom hgood hcur
    rw [storeRow_runs hr h ha hroom, hlevel, State.store_denied _ _ halign hdenied]
    exact ⟨_, rfl, State.denied_traps c.isLt a m i hlevel hgood hcur rfl⟩
  case full =>
    intro r hr c w s a h ha hfull
    have haddr : (s.xr c.val (fSrc1 w) + imm16 w).toNat = a := ha.symm
    rw [exec_storeRows r hr c w s, State.storeX, h.insn]
    dsimp only
    rw [haddr, hfull]
    rfl

end Sys2Proof.Machine
end

section
/-! Plain stores on their way out (05 R221; 12 R555, R579). -/
namespace Sys2Proof.Machine

/-! ## Bytes -/

theorem le_length (n v : Nat) : (le n v).length = n := by
  induction n generalizing v with
  | zero => rfl
  | succ n ih => rw [le, List.length_cons, ih]

theorem le_getElem (n v : Nat) {i : Nat} (h : i < (le n v).length) : (le n v)[i] = BitVec.ofNat 8 (v / 256 ^ i) := by
  induction n generalizing v i with
  | zero => exact absurd h (Nat.not_lt_zero i)
  | succ n ih =>
    cases i with
    | zero => simp [le]
    | succ i => simp only [le, List.getElem_cons_succ, ih, Nat.div_div_eq_div_mul, Nat.pow_succ']

theorem Memory.readN_length (m : Memory) (a n : Nat) : (m.readN a n).length = n := by
  induction n generalizing a with
  | zero => rfl
  | succ n ih => rw [Memory.readN, List.length_cons, ih]

/-- A value that is written reads as the bytes of a store. -/
theorem Memory.read_writeN_le (m : Memory) (e : BufStore) (a : Nat) :
    (m.writeN e.addr (le e.size e.val)).read a = bufByte [e] a (m.read a) := by
  rw [← List.nil_append [e], bufByte_append]
  split
  case isTrue h =>
    have hlt : a - e.addr < (le e.size e.val).length := by rw [le_length]; omega
    have hin := Memory.read_writeN_in m e.addr (le e.size e.val) hlt
    rwa [Nat.add_sub_cancel' h.1, le_getElem] at hin
  case isFalse h => exact Memory.read_writeN_out m _ _ (by rw [le_length]; omega)

theorem bufByte_cons (e : BufStore) (l : List BufStore) (a : Nat) (d : Byte) :
    bufByte (e :: l) a d = bufByte l a (bufByte [e] a d) := rfl

/-! ## One store -/

/-- What plain stores leave: the registers, the recorder, the image and the partitions that core pair `c` runs. -/
structure StoresKeep (s t : State) (c : Nat) : Prop where
  img : t.img = s.img
  regs : t.regs = s.regs
  recd : t.recd = s.recd
  cores : t.cores = s.cores

theorem StoresKeep.refl (s : State) (c : Nat) : StoresKeep s s c := ⟨rfl, rfl, rfl, rfl⟩

theorem StoresKeep.trans {s t u : State} {c : Nat} (h : StoresKeep s t c) (h' : StoresKeep t u c) : StoresKeep s u c :=
  ⟨h'.img.trans h.img, h'.regs.trans h.regs, h'.recd.trans h.recd, h'.cores.trans h.cores⟩

theorem StoresKeep.prec {s t : State} {c : Nat} (h : StoresKeep s t c) : t.prec = s.prec := by
  funext p
  rw [State.prec, State.image, h.img, State.prec, State.image]

theorem StoresKeep.inJournal {s t : State} {c a : Nat} (h : StoresKeep s t c) : t.inJournal c a ↔ s.inJournal c a := by
  rw [State.inJournal, State.inJournal, State.core_of_cores h.cores, h.prec]

theorem StoresKeep.hbmOff {s t : State} {c : Nat} (h : StoresKeep s t c) : t.hbmOff = s.hbmOff :=
  State.hbmOff_congr h.img (by rw [State.rd, h.regs, State.rd])

theorem State.sysW_keeps (s : State) (c a : Nat) (l : List Byte) : StoresKeep s (s.sysW a l) c := by
  constructor <;> simp [State.sysW, State.memW]

theorem State.sysW_mem (s : State) (a : Nat) (l : List Byte) : (s.sysW a l).mem = s.mem.writeN a l := by
  simp [State.sysW]

theorem State.pa_keeps (s : State) (c p : Nat) (f : PartState → PartState) : StoresKeep s (s.pa p f) c := ⟨rfl, rfl, rfl, rfl⟩

/-- Before its first store into a static line the journal takes the line's old contents (05 R221). -/
theorem State.storeTrack_keeps (s : State) (c a : Nat) : StoresKeep s (s.storeTrack c a) c ∧
    ∀ b, ¬ s.inJournal c b → (s.storeTrack c a).memB b = s.memB b := by
  unfold State.storeTrack
  dsimp only
  split
  case h_1 => exact ⟨StoresKeep.refl s c, fun _ _ => rfl⟩
  case h_2 p hcur =>
    split
    case isTrue hstatic =>
      obtain ⟨hlo, hhi, -⟩ := hstatic
      split
      case isTrue => exact ⟨StoresKeep.refl s c, fun _ _ => rfl⟩
      case isFalse =>
        refine ⟨(State.sysW_keeps s c _ _).trans (State.pa_keeps _ c _ _), fun b hb => ?_⟩
        refine (congrArg (Memory.read · b) (State.sysW_mem s _ _)).trans (Memory.read_writeN_out _ _ _ ?_)
        rw [State.memL, Memory.readN_length]
        by_contra hin
        exact hb ⟨p, a, hcur, hlo, hhi, by omega, by omega⟩
    case isFalse =>
      split
      case isTrue =>
        split
        · exact ⟨StoresKeep.refl s c, fun _ _ => rfl⟩
        · exact ⟨State.pa_keeps _ c _ _, fun _ _ => rfl⟩
      case isFalse => exact ⟨StoresKeep.refl s c, fun _ _ => rfl⟩

theorem State.storeOut_plain {s : State} {c : Nat} {e : BufStore} (hon : s.hbmOff e.addr = false)
    (hplain : imageSram e.addr = false) : StoresKeep s (s.storeOut c e) c ∧
      ∀ b, ¬ s.inJournal c b → (s.storeOut c e).memB b = bufByte [e] b (s.memB b) := by
  obtain ⟨hkeeps, hmem⟩ := State.storeTrack_keeps s c e.addr
  rw [State.storeOut, if_neg (by simp [hon]), State.coreW, if_neg (by simp [hplain])]
  refine ⟨hkeeps.trans (State.sysW_keeps _ c _ _), fun b hb => ?_⟩
  rw [State.memB, State.sysW_mem, Memory.read_writeN_le, ← hmem b hb]
  rfl

/-! ## All of them -/

theorem State.storesOut_plain (c : Nat) (l : List BufStore) {s : State}
    (hplain : ∀ e ∈ l, s.hbmOff e.addr = false ∧ imageSram e.addr = false) :
    StoresKeep s (s.each l fun t e => t.storeOut c e) c ∧
      ∀ b, ¬ s.inJournal c b → (s.each l fun t e => t.storeOut c e).memB b = bufByte l b (s.memB b) := by
  induction l generalizing s with
  | nil => exact ⟨StoresKeep.refl s c, fun _ _ => rfl⟩
  | cons e l ih =>
    obtain ⟨hon, hmemory⟩ := hplain e (List.mem_cons_self ..)
    obtain ⟨hkeeps, hmem⟩ := State.storeOut_plain (c := c) hon hmemory
    have hrest : ∀ e' ∈ l, (s.storeOut c e).hbmOff e'.addr = false ∧ imageSram e'.addr = false := by
      rw [hkeeps.hbmOff]
      exact fun e' he' => hplain e' (List.mem_cons_of_mem _ he')
    obtain ⟨hkeeps', hmem'⟩ := ih hrest
    refine ⟨hkeeps.trans hkeeps', fun b hb => ?_⟩
    rw [bufByte_cons, ← hmem b hb]
    exact hmem' b (hkeeps.inJournal.not.2 hb)

/-- The stores that wait leave to plain memory: nothing else changes but the core pair, whose buffer is empty (12 R579). -/
theorem State.flush_plain {s : State} {c : Nat} (h : s.PlainStores c) : (s.flush c).img = s.img ∧ (s.flush c).regs = s.regs ∧
    (s.flush c).recd = s.recd ∧ Left s (s.flush c) c := by
  obtain ⟨⟨himg, hregs, hrecd, -⟩, hmem⟩ := State.storesOut_plain c (s.core c).buf h
  exact ⟨himg, hregs, hrecd, hmem⟩

theorem State.PlainStores.firstOff {s : State} {c : Nat} (h : s.PlainStores c) : s.firstOff (s.core c).buf = none := by
  rw [State.firstOff, List.find?_eq_none.2 fun e he => by simp [(h e he).1]]
  rfl

/-- Where no store is charged, the core pair behind its stores. -/
theorem State.StoresGood.flush_core {s : State} {c : Nat} (h : s.StoresGood c) :
    (s.flush c).core c = { s.core c with buf := [], sig := 2 ^ 64 - 1, windows := (s.core c).windows + 1, storeErr := none } := by
  rw [State.flush_core, CoreState.flushed, (State.storesGood_iff s c).1 h]

theorem State.StoresGood.storeErr {s : State} {c : Nat} (h : s.StoresGood c) : (s.core c).storeErr = none := by
  rw [State.storesGood_iff] at h
  exact (Option.or_eq_none_iff.1 h).1

end Sys2Proof.Machine
end

section
/-! Returns and context switches (12 R567, R570, R573; 13 R606). -/
namespace Sys2Proof.Machine

/-! ## TRET -/

/-- TRET once the stores of the trap window have left (12 R567). -/
def State.tret (s : State) (c : Nat) (w : Word) : State :=
  let t2 := s.tretInto c
  let k := t2.core c
  let lv := t2.pplLevel c
  if lv = 0 ∧ k.res = 0 then s.illegal c w
  else
    let t := t2.signBranch c true k.tpc
    let u := if k.tstatus.toNat % 4 = 2 then t.take else t
    u.co c fun q => { q with level := lv, pc := q.tpc, instret := q.instret + 1,
                             inDouble := if k.level = 3 then false else q.inDouble }

theorem exec_coreTret (c : Fin 32) (w : Word) (s : State) : exec (.coreTret c w) s = .next (s.insnPriv c.val w E.TRET fun t =>
    if ((t.flush c.val).core c.val).storeErr.isSome then (t.flush c.val).doubleFault c.val else (t.flush c.val).tret c.val w) := by
  rfl

theorem tret_good {c : Fin 32} {w : Word} {s : State} (h : s.Fetches c.val w E.TRET) (hlevel : (s.core c.val).level ≠ 0)
    (hgood : s.StoresGood c.val) : exec (.coreTret c w) s = .next ((s.flush c.val).tret c.val w) := by
  rw [exec_coreTret, h.insnPriv hlevel, if_neg (by rw [show ((s.flush c.val).core c.val).storeErr = none from hgood]; decide)]

theorem State.pplLevel_user {s : State} {c : Nat} (h : (s.core c).tstatus.toNat % 4 = 0) : s.pplLevel c = 0 := by
  rw [State.pplLevel, h]
  rfl

/-- A core pair that goes on at U at TPC (12 R567). -/
def CoreState.returned (k : CoreState) : CoreState :=
  { k.signed true k.tpc with level := 0, pc := k.tpc, instret := k.instret + 1
                             inDouble := if k.level = 3 then false else k.inDouble }

/-- A return into U (12 R567). -/
theorem State.tret_user {s : State} {c : Nat} (w : Word) (hppl : ((s.tretInto c).core c).tstatus.toNat % 4 = 0)
    (hres : ((s.tretInto c).core c).res ≠ 0) : (s.tret c w).core c = ((s.tretInto c).core c).returned ∧
      (s.tret c w).mem = (s.tretInto c).mem ∧ (s.tret c w).regs = (s.tretInto c).regs ∧
      (s.tret c w).recd = (s.tretInto c).recd := by
  rw [State.tret]
  dsimp only
  rw [State.pplLevel_user hppl, if_neg fun h => hres h.2, if_neg (by omega)]
  refine ⟨?_, rfl, rfl, rfl⟩
  rw [State.core_co_same, State.signBranch, State.core_co_same]
  rfl

theorem State.tret_spilled {s : State} {c : Nat} (w : Word) (hppl : ((s.tretInto c).core c).tstatus.toNat % 4 = 0)
    (hres : ((s.tretInto c).core c).res = 0) : s.tret c w = s.illegal c w := by
  rw [State.tret]
  dsimp only
  rw [State.pplLevel_user hppl, if_pos ⟨rfl, hres⟩]

/-- With a context held, TRET returns into it, or into one that the runtime restored from memory. -/
theorem State.tretInto_held {s : State} {c : Nat} (h : (s.core c).tstatus = 4) : s.tretInto c = s.resumeDeep c := by
  rw [State.tretInto, if_neg fun hfree => absurd hfree.2 (by rw [h]; decide)]
  exact if_pos (State.pplLevel_user (by rw [h]; decide))

theorem State.resumeDeep_running {s : State} {c : Nat} (h : (s.core c).cur ≠ none) : s.resumeDeep c = s :=
  if_pos (Option.isSome_iff_ne_none.2 h)

/-- A context that the runtime restores comes into the place of none, and no register of the core pair changes with it. -/
theorem State.resumeDeep_core (s : State) (c : Nat) :
    (s.core c).SameContext ((s.resumeDeep c).core c) := by
  unfold State.resumeDeep
  split
  case isTrue => exact CoreState.SameContext.refl _
  case isFalse =>
    split
    case h_1 p _ =>
      rw [State.core_co_same]
      rfl
    case h_2 => exact CoreState.SameContext.refl _

theorem State.tretInto_first {s : State} {c p : Nat} (hlevel : (s.core c).level = 1) (hnone : (s.core c).tstatus = 0)
    (hfirst : s.firstOf (s.core c).ready = some p) : s.tretInto c = s.startAct c p := by
  rw [State.tretInto, if_pos ⟨hlevel, by rw [hnone]; decide⟩, hfirst]

/-! ## A ready activation that starts -/

/-- Window 0 of an activation that starts: zeros, and the stub's address in d7 (12 R570). -/
def startWin (m : Tab DWord) (stub : Nat) : Tab DWord :=
  tset 0 ((List.range 24).foldl (fun m i => tset 0 m (winKey 0 (8 + i)) 0) m) (winKey 0 31) (BitVec.ofNat 64 stub)

theorem startWin_d7 (m : Tab DWord) (stub : Nat) : tget 0 (startWin m stub) (winKey 0 31) = BitVec.ofNat 64 stub :=
  tget_tset_same _ _ _ _

theorem startWin_zero (m : Tab DWord) (stub : Nat) {n : Nat} (h : 8 ≤ n) (h' : n < 31) :
    tget 0 (startWin m stub) (winKey 0 n) = 0 := by
  have hne : winKey 0 31 ≠ winKey 0 n := fun hkey => by
    have heq := winKey_injective (by decide) (by decide) (by decide) h (by omega) hkey
    omega
  rw [startWin, tget_tset_ne _ _ _ hne]
  have hzero := tget_foldl_tset (0 : DWord) (List.range 24) (fun i => winKey 0 (8 + i)) (fun _ => 0) m (x := n - 8)
    (List.mem_range.2 (by omega)) fun _ _ _ => rfl
  rwa [show 8 + (n - 8) = n by omega] at hzero

/-- The core pair with the ready activation `p` in its context (12 R570). -/
def CoreState.startOf (k : CoreState) (r : PartRec) (stub p : Nat) : CoreState :=
  { k with tpc := BitVec.ofNat 64 (r.codeBase + r.entry), g := [], f := [], fcsr := 0, win := startWin k.win stub
           wstate := wstateOf 0 1 0, spillPtr := BitVec.ofNat 64 (r.stackBase + r.stackSize)
           spillLim := BitVec.ofNat 64 r.stackBase, cur := some p, ready := k.ready.filter (fun q => q ≠ p)
           deep := k.cur.toList ++ k.deep }

theorem State.startAct_core (s : State) (c p : Nat) :
    (s.startAct c p).core c = (s.core c).startOf (s.prec p) s.image.firmware.stub p := by
  rw [State.startAct, State.core_co_same]
  rfl

theorem CoreState.startOf_zero (k : CoreState) (r : PartRec) (stub p : Nat) {n : Nat} (h : n < 31) :
    (k.startOf r stub p).winReg 0 n = 0 := by
  by_cases hlow : n < 8
  · by_cases h0 : n = 0
    · rw [h0]
      rfl
    · rw [CoreState.winReg_low _ _ h0 hlow]
      rfl
  · rw [CoreState.winReg_high _ _ (by omega)]
    exact startWin_zero k.win stub (by omega) h

theorem CoreState.startOf_d7 (k : CoreState) (r : PartRec) (stub p : Nat) :
    (k.startOf r stub p).winReg 0 31 = BitVec.ofNat 64 stub := by
  rw [CoreState.winReg_high _ _ (by decide)]
  exact startWin_d7 k.win stub

theorem State.firstOf_congr {s t : State} (h : t.prec = s.prec) (l : List Nat) : t.firstOf l = s.firstOf l := by
  unfold State.firstOf
  rw [h]

theorem State.flush_img (s : State) (c : Nat) : (s.flush c).img = s.img := (State.flush_quiet s c).img

theorem State.flush_prec (s : State) (c : Nat) : (s.flush c).prec = s.prec := by
  funext p
  rw [State.prec, State.image, State.flush_img, State.prec, State.image]

/-! ## SWCTX -/

theorem exec_coreSwctx (c : Fin 32) (w : Word) (s : State) : exec (.coreSwctx c w) s = .next (s.insnPriv c.val w E.SWCTX fun t =>
    if ((t.flush c.val).core c.val).storeErr.isSome then (t.flush c.val).doubleFault c.val
    else if (t.flush c.val).on (F.ACC_CTL_BUSY c.val) then t.flush c.val else (t.flush c.val).switchCtx c.val) := by rfl

theorem State.ranNow_eq (s : State) (o : Option Nat) : (s.ranNow o).cores = s.cores ∧ (s.ranNow o).regs = s.regs ∧
    (s.ranNow o).mem = s.mem := by
  cases o <;> exact ⟨rfl, rfl, rfl⟩

/-- The contexts and the rule sets change together, and nothing else (12 R573; 13 R606). -/
theorem State.switchCtx_leaves {s : State} {c : Nat} (hc : c < 32) (hruns : s.coreRuns c = true) :
    (s.switchCtx c).core c = (s.core c).swap.next ((s.core c).pc + 4) ∧
      (s.switchCtx c).on (F.ACC_CTL_ASET c) = !s.on (F.ACC_CTL_ASET c) ∧ SameRegs s (s.switchCtx c) [R.ACC_CTL c] ∧
      (s.switchCtx c).mem = s.mem := by
  obtain ⟨x, hx⟩ : ∃ x, x = (((s.co c CoreState.swap).ranNow (s.core c).cur).ranNow (s.core c).oth) := ⟨_, rfl⟩
  obtain ⟨hcores1, hregs1, hmem1⟩ := State.ranNow_eq (s.co c CoreState.swap) (s.core c).cur
  obtain ⟨hcores2, hregs2, hmem2⟩ := State.ranNow_eq ((s.co c CoreState.swap).ranNow (s.core c).cur) (s.core c).oth
  rw [← hx] at hcores2 hregs2 hmem2
  obtain ⟨y, hy⟩ : ∃ y, y = x.putB (F.ACC_CTL_ASET c) (!s.on (F.ACC_CTL_ASET c)) := ⟨_, rfl⟩
  obtain ⟨z, hz⟩ : ∃ z, z = y.putB (F.ACC_CTL_BYPASS c) (if (!s.on (F.ACC_CTL_ASET c)) then (y.core c).bypB else (y.core c).bypA) :=
    ⟨_, rfl⟩
  have hswitch : s.switchCtx c = z.retire c := by rw [hz, hy, hx]; rfl
  have hzcores : z.cores = (s.co c CoreState.swap).cores := by rw [hz, hy]; exact hcores2.trans hcores1
  have hzcore : z.core c = (s.core c).swap := by rw [State.core_of_cores hzcores, State.core_co_same]
  have hsame : SameRegs s z [R.ACC_CTL c] := by
    rw [hz, hy]
    exact SameRegs.put _ (by simp [F.ACC_CTL_BYPASS, R.ACC_CTL]) (SameRegs.put _ (by simp [F.ACC_CTL_ASET, R.ACC_CTL])
      (SameRegs.of_regs (hregs2.trans hregs1) (SameRegs.refl s _)))
  have hset : z.on (F.ACC_CTL_ASET c) = !s.on (F.ACC_CTL_ASET c) := by
    rw [hz, State.on, State.putB, State.get_put_ne _ _ (.inr ⟨by simp [F.ACC_CTL_ASET], .inr (by simp [F.ACC_CTL_ASET, F.ACC_CTL_BYPASS])⟩),
      hy, State.putB, State.get_put_same _ _ (by simp [F.ACC_CTL_ASET])]
    cases s.on (F.ACC_CTL_ASET c) <;> rfl
  have hzruns : z.coreRuns c = true := by
    rw [State.coreRuns_iff] at hruns ⊢
    rw [hzcore, State.get, hsame _ (by simp [F.CYC_CORE_STATE, R.ACC_CTL]; omega)]
    exact hruns
  have hretire : z.retire c = z.co c fun k => k.next ((s.core c).pc + 4) := by
    rw [State.retire, State.retireTo, if_pos hzruns, hzcore]
    rfl
  rw [hswitch, hretire]
  refine ⟨by rw [State.core_co_same, hzcore], hset, hsame, ?_⟩
  rw [hz, hy]
  exact hmem2.trans hmem1

/-! ## The obligation -/

/-- TRET into the context that is held: it goes on at TPC at U with its registers (12 R567). -/
theorem tret_held {c : Fin 32} {w : Word} {s : State} (h : s.Fetches c.val w E.TRET) (hlevel : (s.core c.val).level ≠ 0)
    (hgood : s.StoresGood c.val) (hheld : (s.core c.val).tstatus = 4) (hres : (s.core c.val).res ≠ 0)
    (hcur : (s.core c.val).cur ≠ none) : Steps (exec (.coreTret c w) s) fun u =>
      u.core c.val = { s.core c.val with
        level := 0, pc := (s.core c.val).tpc, instret := (s.core c.val).instret + 1, buf := []
        windows := (s.core c.val).windows + 1
        sig := ({ s.core c.val with sig := 2 ^ 64 - 1 }.signed true (s.core c.val).tpc).sig
        inDouble := decide ((s.core c.val).level ≠ 3) && (s.core c.val).inDouble } ∧
      u.mem = (s.flush c.val).mem ∧ u.regs = (s.flush c.val).regs ∧ u.recd = (s.flush c.val).recd := by
  have hcore := hgood.flush_core
  have hinto : (s.flush c.val).tretInto c.val = s.flush c.val := by
    rw [State.tretInto_held (by rw [hcore]; exact hheld), State.resumeDeep_running (by rw [hcore]; exact hcur)]
  have huser := State.tret_user (s := s.flush c.val) (c := c.val) w (by rw [hinto, hcore, hheld]; decide)
    (by rw [hinto, hcore]; exact hres)
  rw [hinto] at huser
  rw [hcore] at huser
  obtain ⟨hreturned, hmem, hregs, hrecd⟩ := huser
  refine ⟨_, tret_good h hlevel hgood, ?_, hmem, hregs, hrecd⟩
  have hdouble : (if (s.core c.val).level = 3 then false else (s.core c.val).inDouble) =
      (decide ((s.core c.val).level ≠ 3) && (s.core c.val).inDouble) := by
    by_cases h3 : (s.core c.val).level = 3 <;> simp [h3]
  rw [hreturned, CoreState.returned, ← hdouble]
  simp only [CoreState.signed, hgood.storeErr]

/-- TRET at S with no context held starts the ready activation that runs first (12 R570). -/
theorem tret_starts {c : Fin 32} {w : Word} {p : Nat} {s : State} (h : s.Fetches c.val w E.TRET)
    (hlevel : (s.core c.val).level = 1) (hgood : s.StoresGood c.val) (hnone : (s.core c.val).tstatus = 0)
    (hfirst : s.firstOf (s.core c.val).ready = some p) : Steps (exec (.coreTret c w) s) fun u =>
      u.core c.val = (((s.flush c.val).core c.val).startOf (s.prec p) s.image.firmware.stub p).returned := by
  have hcore := hgood.flush_core
  have hprec := State.flush_prec s c.val
  have hstart : (((s.flush c.val).tretInto c.val).core c.val) =
      ((s.flush c.val).core c.val).startOf (s.prec p) s.image.firmware.stub p := by
    rw [State.tretInto_first (by rw [hcore]; exact hlevel) (by rw [hcore]; exact hnone)
      (by rw [State.firstOf_congr hprec, hcore]; exact hfirst), State.startAct_core, hprec, State.image, State.flush_img, State.image]
  have huser := State.tret_user (s := s.flush c.val) (c := c.val) w (by rw [hstart, hcore, CoreState.startOf, hnone]; decide)
    (by rw [hstart, CoreState.startOf, CoreState.res, wstateOf_res]; decide)
  exact ⟨_, tret_good h (by omega) hgood, huser.1.trans (by rw [hstart])⟩

/-- Settles O47: TRET into a held context (`tret_held`) and into an activation that starts (`tret_starts`), its double faults,
and SWCTX (`State.switchCtx_leaves`). -/
theorem returnsAndSwitches : Obligations.ReturnsAndSwitches := by
  refine ⟨?held, ?starts, ?spilled, ?charged, ?switch, ?busy⟩
  case held =>
    intro c w s h hlevel hgood hheld hres hplain hcur
    obtain ⟨u, hexec, hcore, hmem, hregs, hrecd⟩ := tret_held h hlevel hgood hheld hres hcur
    obtain ⟨-, hregs', hrecd', hleft⟩ := State.flush_plain hplain
    refine ⟨u, hexec, hcore, fun a ha => ?_, hregs.trans hregs', hrecd.trans hrecd'⟩
    exact (congrArg (Memory.read · a) hmem).trans (hleft a ha)
  case starts =>
    intro c w p s h hlevel hgood hnone hfirst
    obtain ⟨u, hexec, hcore⟩ := tret_starts h hlevel hgood hnone hfirst
    rw [hgood.flush_core] at hcore
    have hcwp : (u.core c.val).cwp = 0 := by
      rw [hcore]
      exact wstateOf_cwp 0 1 0
    have hreg (m : Nat) : u.xr c.val m =
        ((s.core c.val).startOf (s.prec p) s.image.firmware.stub p).winReg 0 m := by
      rw [State.xr, CoreState.reg_user (by rw [hcore]; rfl), hcwp, hcore]
      rfl
    refine ⟨u, hexec, by rw [hcore]; rfl, by rw [hcore]; rfl, by rw [hcore]; rfl, by rw [hcore]; rfl, hcwp, ?res, ?nospill,
      by rw [hcore]; rfl, by rw [hcore]; rfl, by rw [hcore]; rfl, fun m _ => ?floats, fun m hm => ?zeros, ?d7⟩
    case res =>
      rw [hcore]
      exact wstateOf_res 0 1 0
    case nospill =>
      rw [hcore]
      exact wstateOf_spilled 0 1 0
    case floats =>
      rw [State.fr, hcore]
      rfl
    case zeros => rw [hreg, CoreState.startOf_zero _ _ _ _ hm]
    case d7 => rw [hreg, CoreState.startOf_d7]
  case spilled =>
    intro c w s h hlevel hgood hheld hres hfirst
    have hcore := hgood.flush_core
    have hinto := State.resumeDeep_core (s.flush c.val) c.val
    rw [← State.tretInto_held (by rw [hcore]; exact hheld), hcore] at hinto
    have hspilled := State.tret_spilled (s := s.flush c.val) (c := c.val) w (by rw [hinto]; dsimp only; rw [hheld]; decide)
      (by rw [hinto]; exact hres)
    have hdouble := State.doubleFault_core (s := s.flush c.val) (c := c.val) (by rw [hcore]; exact hfirst)
      (by rw [hcore]; dsimp only; rw [hheld]; decide)
    rw [tret_good h hlevel hgood, hspilled, State.illegal_double w (by rw [hcore]; exact hlevel)]
    refine ⟨_, rfl, ?_⟩
    beta_reduce
    rw [hdouble, hcore]
    exact ⟨rfl, rfl, rfl⟩
  case charged =>
    intro c w a s h hlevel herr
    rw [exec_coreTret, h.insnPriv hlevel, herr]
    rfl
  case switch =>
    intro c w s h hlevel hgood hidle hplain
    obtain ⟨himg, hregs, -, hleft⟩ := State.flush_plain hplain
    have hcore := hgood.flush_core
    have hruns : (s.flush c.val).coreRuns c.val = true := by
      have hbefore := h.runs
      rw [State.coreRuns_iff] at hbefore ⊢
      rwa [State.get_of_regs hregs, hcore]
    obtain ⟨hswapped, hset, hsame, hmem⟩ := State.switchCtx_leaves c.isLt hruns
    have hexec : exec (.coreSwctx c w) s = .next ((s.flush c.val).switchCtx c.val) := by
      rw [exec_coreSwctx, h.insnPriv hlevel, if_neg (by rw [show ((s.flush c.val).core c.val).storeErr = none from hgood]; decide),
        if_neg (by rw [State.on, State.get_of_regs hregs, ← State.on, hidle]; decide)]
    refine ⟨_, hexec, ?_, ?_, SameRegs.trans (SameRegs.of_regs hregs (SameRegs.refl s _)) hsame, fun a ha => ?_⟩
    · rw [hswapped, hcore]
      simp only [CoreState.swap, CoreState.next, hgood.storeErr]
    · rw [hset, State.on, State.get_of_regs hregs, State.on]
    · exact (congrArg (Memory.read · a) hmem).trans (hleft a ha)
  case busy =>
    intro c w s h hlevel hgood hbusy
    have hkept : (s.flush c.val).on (F.ACC_CTL_BUSY c.val) = true := by
      rw [State.on, (State.flush_lowKept s c.val).get (by simp only [F.ACC_CTL_BUSY]; omega), ← State.on, hbusy]
    rw [exec_coreSwctx, h.insnPriv hlevel, if_neg (by rw [show ((s.flush c.val).core c.val).storeErr = none from hgood]; decide),
      if_pos hkept]

end Sys2Proof.Machine
end

section
/-! Traps by instruction (12 R561, R566, R571; 05 R213, R218). -/
namespace Sys2Proof.Machine

/-! ## What an abort leaves of its partition -/

/-- An activation that aborts: ROLLBACK, its fault and one more abort (05 R218). -/
theorem State.abortPart_leaves {s : State} {p : Nat} (hp : p < 256) (kind pc : Nat) (h : s.pst p = 2 ∨ s.pst p = 4) :
    (s.abortPart p kind pc).pst p = 6 ∧ (s.abortPart p kind pc).get (F.CYC_PSTATE_LAST_FAULT p) = kind % 16 ∧
      (s.abortPart p kind pc).get (F.CYC_PFAULT_ABORTS p) = min (s.get (F.CYC_PFAULT_ABORTS p) + 1) (2 ^ 16 - 1) := by
  have hevent (t : State) : LowKept t (t.abortEvent p kind pc) := by
    unfold State.abortEvent
    dsimp only
    split
    case h_3 => exact LowKept.refl t
    all_goals exact LowKept.raise t _ _ _
  have hoff : (F.CYC_PSTATE_LAST_FAULT p).off < 0x300000 ∧ (F.CYC_PFAULT_ABORTS p).off < 0x300000 := by
    simp only [F.CYC_PSTATE_LAST_FAULT, F.CYC_PFAULT_ABORTS]
    omega
  have hapart : F.CYC_STATUS_ABORT.off ≠ (F.CYC_PSTATE_LAST_FAULT p).off ∧
      F.CYC_STATUS_ABORT.off ≠ (F.CYC_PFAULT_ABORTS p).off ∧ F.CYC_STATUS_HALTED.off ≠ (F.CYC_PSTATE_LAST_FAULT p).off ∧
      (F.CYC_PFAULT_ABORTS p).off ≠ (F.CYC_PSTATE_LAST_FAULT p).off ∧
      (F.CYC_PSTATE_LAST_FAULT p).off ≠ (F.CYC_PFAULT_ABORTS p).off ∧
      ¬ (F.CYC_PFAULT_ABORTS p).off ∈ [R.CYC_PSTATE p, R.CYC_STATUS] := by
    simp only [F.CYC_STATUS_ABORT, F.CYC_STATUS_HALTED, F.CYC_PSTATE_LAST_FAULT, F.CYC_PFAULT_ABORTS, R.CYC_PSTATE, R.CYC_STATUS,
      List.mem_cons, List.not_mem_nil, or_false]
    omega
  obtain ⟨hstatus, hstatus', hhalted, hcount, hcount', habort⟩ := hapart
  have hdrop (t : State) (f : Fld) : (t.coreDrop p).get f = t.get f := by rw [State.get, State.coreDrop_rd, State.get]
  have hnote (t : State) (f : Fld) : (t.noteEnd p kind).get f = t.get f := rfl
  rw [State.abortPart, if_pos h, State.abortNow]
  refine ⟨?_, ?_, ?_⟩
  · rw [State.pst, (hevent _).get (by simp only [F.CYC_PSTATE_STATE]; omega), ← State.pst, State.setPst_pst]
  · rw [(hevent _).get hoff.1, State.setPst, State.haltShow, State.putB, State.get_put_ne _ _ (.inl hhalted),
      State.get_put_ne _ _ (.inr ⟨by simp [F.CYC_PSTATE_LAST_FAULT], .inl (by simp [F.CYC_PSTATE_LAST_FAULT, F.CYC_PSTATE_STATE])⟩),
      hnote, State.countAbort, State.get_of_regs (State.total_regs _ _ _ _), State.get_put_ne _ _ (.inl hstatus), State.bump,
      State.get_put_ne _ _ (.inl hcount)]
    exact State.get_put_same _ _ (by simp [F.CYC_PSTATE_LAST_FAULT])
  · rw [(hevent _).get hoff.2, (State.setPst_only _ p 6).get habort, hnote, State.countAbort,
      State.get_of_regs (State.total_regs _ _ _ _), State.get_put_ne _ _ (.inl hstatus'),
      State.get_bump_same _ _ (by simp [F.CYC_PFAULT_ABORTS]), State.get_put_ne _ _ (.inl hcount')]
    have hpart (t : State) (k : PartState) (f : Fld) : (t.setPart p k).get f = t.get f := rfl
    rw [hpart, hdrop]
    rfl

/-- The activation of the context that an entry from U interrupted, where it aborts. -/
theorem State.abortCur_leaves {s : State} {c p : Nat} (hp : p < 256) (cause tval npc : DWord) (vec kind pc : Nat)
    (hcur : (s.core c).cur = some p) (hpst : s.pst p = 2 ∨ s.pst p = 4) {u : State}
    (hu : u = (s.begun c cause tval npc vec).abortCur c kind pc) : u.pst p = 6 ∧
      u.get (F.CYC_PSTATE_LAST_FAULT p) = kind % 16 ∧
      u.get (F.CYC_PFAULT_ABORTS p) = min (s.get (F.CYC_PFAULT_ABORTS p) + 1) (2 ^ 16 - 1) := by
  have hlow := State.begun_lowKept s c cause tval npc vec
  have hkept : ((s.begun c cause tval npc vec).core c).cur = some p := by
    rw [(State.begun_onlyCore s c cause tval npc vec).core]
    exact hcur
  have hsame : (s.begun c cause tval npc vec).pst p = s.pst p := hlow.get (by simp only [F.CYC_PSTATE_STATE]; omega)
  rw [hu, State.abortCur, hkept, ← hlow.get (f := F.CYC_PFAULT_ABORTS p) (by simp only [F.CYC_PFAULT_ABORTS]; omega)]
  exact State.abortPart_leaves hp kind pc (by rwa [hsame])

/-! ## An instruction that retires and traps -/

/-- The state in which an instruction that retires raises its trap: one more has retired, and TVAL took a free value. -/
def State.retiring (s : State) (c : Nat) : State := (s.co c fun k => { k with instret := k.instret + 1 }).take

theorem State.trapNext_eq (s : State) (c code num : Nat) :
    s.trapNext c code num = (s.retiring c).trap c code num s.free ((s.core c).pc + 4) := rfl

theorem State.retiring_core (s : State) (c : Nat) :
    (s.retiring c).core c = { s.core c with instret := (s.core c).instret + 1 } :=
  State.core_co_same s c fun k => { k with instret := k.instret + 1 }

theorem State.retiring_firstOff (s : State) (c : Nat) :
    (s.retiring c).firstOff ((s.retiring c).core c).buf = s.firstOff (s.core c).buf := by
  rw [State.retiring_core]
  rfl

theorem State.StoresGood.retiring {s : State} {c : Nat} (h : s.StoresGood c) : (s.retiring c).StoresGood c := by
  rw [State.storesGood_iff] at h ⊢
  rwa [State.retiring_firstOff, State.retiring_core]

/-- The error that a store was answered with is the same whether the instruction retires or not. -/
theorem State.retiring_storeErr (s : State) (c : Nat) :
    (((s.retiring c).flush c).core c).storeErr = ((s.flush c).core c).storeErr := by
  rw [State.flush_core, State.flush_core, CoreState.flushed, CoreState.flushed, State.retiring_firstOff, State.retiring_core]

theorem State.trapNext_enters {s : State} {c code : Nat} (num : Nat) (hlevel : (s.core c).level = 0) (hgood : s.StoresGood c) :
    Enters s (s.trapNext c code num) c (BitVec.ofNat 64 (code + 65536 * num)) code ((s.core c).pc + 4) ∧
      ((s.trapNext c code num).core c).instret = (s.core c).instret + 1 := by
  have hcore := State.retiring_core s c
  obtain ⟨henters, -, -, hinstret, -⟩ := CoreState.begun.enters (State.trap_begun (s := s.retiring c) (c := c) code num s.free
    ((s.core c).pc + 4) (by rw [hcore]; exact hlevel) hgood.retiring)
  rw [← State.trapNext_eq] at henters hinstret
  rw [Enters, hcore] at henters
  rw [hcore] at hinstret
  exact ⟨henters, hinstret⟩

/-- A trap by instruction that aborts the activation (05 R218). -/
theorem State.trapNext_aborts {s : State} {c code num kind : Nat} (hlevel : (s.core c).level = 0) (hgood : s.StoresGood c)
    (hkind : faultKind code num = some kind) {p : Nat} (hp : p < 256) (hcur : (s.core c).cur = some p)
    (hpst : s.pst p = 2 ∨ s.pst p = 4) : (s.trapNext c code num).pst p = 6 ∧
      (s.trapNext c code num).get (F.CYC_PSTATE_LAST_FAULT p) = kind % 16 ∧
      (s.trapNext c code num).get (F.CYC_PFAULT_ABORTS p) = min (s.get (F.CYC_PFAULT_ABORTS p) + 1) (2 ^ 16 - 1) := by
  have hcore := State.retiring_core s c
  have htrap := State.trap_good (s := s.retiring c) (c := c) code num s.free ((s.core c).pc + 4) (by rw [hcore]; exact hlevel)
    hgood.retiring
  rw [← State.trapNext_eq, hkind] at htrap
  exact State.abortCur_leaves (s := s.retiring c) hp _ _ _ _ kind _ (by rw [hcore]; exact hcur) hpst htrap

/-- An error of a store is charged in place of a trap by instruction (12 R559, R566). -/
theorem State.trapNext_charged {s : State} {c a : Nat} (code num : Nat) (hlevel : (s.core c).level = 0)
    (herr : ((s.flush c).core c).storeErr = some a) : Enters s (s.trapNext c code num) c 6 6 (s.core c).pc ∧
      ((s.trapNext c code num).core c).tval = BitVec.ofNat 64 a ∧ ((s.trapNext c code num).core c).storeErr = none ∧
      (∀ p : Fin 256, (s.core c).cur = some p.val → s.pst p.val = 2 ∨ s.pst p.val = 4 →
        (s.trapNext c code num).get (F.CYC_PSTATE_LAST_FAULT p.val) = 9) := by
  have hcore := State.retiring_core s c
  have htrap := State.trap_charged (s := s.retiring c) (c := c) code num s.free ((s.core c).pc + 4) (by rw [hcore]; exact hlevel)
    ((State.retiring_storeErr s c).trans herr)
  have hbegun := State.abortCur_begun (s.retiring c) c 6 (BitVec.ofNat 64 a) ((s.retiring c).core c).pc 6 9
    ((s.retiring c).core c).pc.toNat
  rw [← State.trapNext_eq] at htrap
  rw [← htrap] at hbegun
  obtain ⟨henters, htval, hstoreErr, -⟩ := hbegun.enters
  rw [Enters, hcore] at henters
  refine ⟨henters, htval, hstoreErr, fun p hcur hpst => ?_⟩
  exact (State.abortCur_leaves (s := s.retiring c) p.isLt _ _ _ _ 9 _ (by rw [hcore]; exact hcur) hpst htrap).2.1

end Sys2Proof.Machine
end

section
/-! SYSCALL: an activation that is complete (12 R571, R572; 05 R213, R218). -/
namespace Sys2Proof.Machine

theorem State.part_pa_same (s : State) (p : Nat) (f : PartState → PartState) : (s.pa p f).part p = f (s.part p) :=
  (State.part_pa s p p f).trans (if_pos rfl)

theorem State.each_keeps {α : Type} {f : State → α → State} (c : Nat) (hf : ∀ t x, StoresKeep t (f t x) c) (s : State)
    (l : List α) : StoresKeep s (s.each l f) c :=
  List.foldlRecOn (motive := fun t => StoresKeep s t c) l f (StoresKeep.refl s c) fun _ ht x _ => ht.trans (hf _ x)

/-- The context of a core pair that ends: what ran there is gone, its level is S, its stores are gone (05 R218). -/
def CoreState.dropped (k : CoreState) (p : Nat) : CoreState :=
  { k with cur := none, oth := if k.oth = some p then none else k.oth, deep := k.deep.filter (fun q => q ≠ p), level := 1
           buf := [], ready := k.ready.filter (fun q => q ≠ p), frozen := k.frozen.filter (fun q => q ≠ p) }

theorem State.coreDrop_running {s : State} {c p : Nat} (howner : (s.prec p).core = c) (hcur : (s.core c).cur = some p)
    (hlevel : (s.core c).level = 0) : (s.coreDrop p).core c = (s.core c).dropped p ∧
      (s.coreDrop p).part p = { s.part p with ranAt := s.count } := by
  rw [State.coreDrop, howner]
  dsimp only
  rw [if_pos (by simp [hcur]), State.core_setCore, if_pos rfl]
  refine ⟨?_, State.part_pa_same s p fun q => { q with ranAt := s.count }⟩
  simp [CoreState.dropped, hcur, hlevel]

/-- The activation behind its completion, before CYC shows it. -/
def State.ending (s : State) (p idx ns : Nat) : State :=
  ((s.each (s.part p).stackLines (fun t a => t.memZero a 64)).pa p fun k =>
    { k with idxCount := idx, coreNs := ns, stackLines := [], ranAt := s.count }).coreDrop p

theorem State.ending_leaves {s : State} {c p : Nat} (idx ns : Nat) (howner : (s.prec p).core = c)
    (hcur : (s.core c).cur = some p) (hlevel : (s.core c).level = 0) :
    (s.ending p idx ns).core c = (s.core c).dropped p ∧ ((s.ending p idx ns).part p).idxCount = idx ∧
      ((s.ending p idx ns).part p).coreNs = ns ∧ ∀ o, (s.ending p idx ns).rd o = s.rd o := by
  obtain ⟨t, ht⟩ : ∃ t, t = (s.each (s.part p).stackLines (fun t a => t.memZero a 64)).pa p fun k =>
    { k with idxCount := idx, coreNs := ns, stackLines := [], ranAt := s.count } := ⟨_, rfl⟩
  have hkeeps : StoresKeep s t c := by
    rw [ht]
    exact (State.each_keeps c (fun t a => State.sysW_keeps t c a _) s _).trans (State.pa_keeps _ c p _)
  have hcore : t.core c = s.core c := State.core_of_cores hkeeps.cores c
  obtain ⟨hdropped, hpart⟩ := State.coreDrop_running (s := t) (c := c) (p := p) (by rw [hkeeps.prec]; exact howner)
    (by rw [hcore]; exact hcur) (by rw [hcore]; exact hlevel)
  rw [State.ending, ← ht]
  refine ⟨by rw [hdropped, hcore], ?_, ?_, fun o => ?_⟩
  · rw [hpart, ht, State.part_pa_same]
  · rw [hpart, ht, State.part_pa_same]
  · rw [State.coreDrop_rd, State.rd, hkeeps.regs, State.rd]

/-- The time of an activation, its maximum and its count of runs (12 R571; 05 R240). -/
def State.showRun (s : State) (p ns : Nat) : State :=
  let s1 := (s.wrN (R.CYC_PRUN p) ns).wrN (R.CYC_PMAX p) (max (s.rdN (R.CYC_PMAX p)) (ns % 2 ^ 32))
  s1.wrN (R.CYC_PRUNS p) (s1.rdN (R.CYC_PRUNS p) + 1)

theorem State.completeAct_eq {s : State} {c p : Nat} (idx ns : Nat) (hcur : (s.core c).cur = some p)
    (hpst : s.pst p = 2 ∨ s.pst p = 4) : s.completeAct c idx ns =
      ((s.ending p idx ns).showRun p ns).setPst p (if s.pst p = 2 then 3 else 5) := by
  rw [State.completeAct, hcur]
  exact if_pos hpst

theorem State.showRun_part (s : State) (p ns n : Nat) : ((s.showRun p ns).setPst p n).part = s.part := rfl

theorem State.showRun_core (s : State) (p ns n : Nat) : ((s.showRun p ns).setPst p n).core = s.core := rfl

theorem State.showRun_rdN (s : State) (p ns : Nat) : (s.showRun p ns).rdN (R.CYC_PRUN p) = ns % 2 ^ 32 ∧
    (s.showRun p ns).rdN (R.CYC_PRUNS p) = (s.rdN (R.CYC_PRUNS p) + 1) % 2 ^ 32 ∧
    (s.showRun p ns).rdN (R.CYC_PMAX p) = max (s.rdN (R.CYC_PMAX p)) (ns % 2 ^ 32) := by
  have hapart : R.CYC_PRUN p ≠ R.CYC_PMAX p ∧ R.CYC_PRUN p ≠ R.CYC_PRUNS p ∧ R.CYC_PMAX p ≠ R.CYC_PRUNS p := by
    simp only [R.CYC_PRUN, R.CYC_PMAX, R.CYC_PRUNS]
    omega
  obtain ⟨hmax, hruns, hmaxruns⟩ := hapart
  have hword (t : State) (o v : Nat) : (t.wrN o v).rdN o = v % 2 ^ 32 := by
    rw [State.rdN, State.wrN, State.rd_wr_same, BitVec.toNat_ofNat]
  have hother (t : State) {o o' : Nat} (v : Nat) (h : o ≠ o') : (t.wrN o v).rdN o' = t.rdN o' := by
    rw [State.rdN, State.wrN, State.rd_wr_ne _ _ h, State.rdN]
  have hlt : s.rdN (R.CYC_PMAX p) < 2 ^ 32 := BitVec.isLt _
  rw [State.showRun]
  refine ⟨?_, ?_, ?_⟩
  · rw [hother _ _ hruns.symm, hother _ _ hmax.symm, hword]
  · rw [hword, hother _ _ hmaxruns, hother _ _ hruns]
  · rw [hother _ _ hmaxruns.symm, hword]
    exact Nat.mod_eq_of_lt (by omega)

theorem exec_coreSyscall (c : Fin 32) (w : Word) (idx ns : Nat) (s : State) : exec (.coreSyscall c w idx ns) s =
    .next (s.insn c.val w E.SYSCALL fun t =>
      ((if fSysreg w = 0 ∧ (t.core c.val).level = 0 ∧ ((t.flush c.val).core c.val).storeErr.isNone
          then (t.flush c.val).completeAct c.val idx ns else t).co c.val
        fun q => { q with level := (t.core c.val).level }).trapNext c.val 9 (fSysreg w)) := by rfl

/-- SYSCALL 0 at U, its stores answered: the state in which it traps. -/
def State.completed (s : State) (c idx ns : Nat) : State :=
  ((s.flush c).completeAct c idx ns).co c fun q => { q with level := 0 }

theorem syscall_completes {c : Fin 32} {w : Word} {s : State} (idx ns : Nat) (h : s.Fetches c.val w E.SYSCALL)
    (hzero : fSysreg w = 0) (hlevel : (s.core c.val).level = 0) (hgood : s.StoresGood c.val) :
    exec (.coreSyscall c w idx ns) s = .next ((s.completed c.val idx ns).trapNext c.val 9 0) := by
  rw [exec_coreSyscall, h.insn, hzero, hlevel,
    if_pos ⟨rfl, rfl, by rw [show ((s.flush c.val).core c.val).storeErr = none from hgood]; decide⟩]
  rfl

/-- A core pair written as it is. -/
def State.still (s : State) (c : Nat) : State := s.co c fun q => { q with level := (s.core c).level }

theorem State.still_core (s : State) (c : Nat) : (s.still c).core c = s.core c :=
  State.core_co_same s c fun q => { q with level := (s.core c).level }

theorem State.still_get (s : State) (c : Nat) (f : Fld) : (s.still c).get f = s.get f := rfl

theorem State.still_enters {s u : State} {c vec : Nat} {cause tpc : DWord} (h : Enters (s.still c) u c cause vec tpc) :
    Enters s u c cause vec tpc := by rwa [Enters, State.still_core] at h

theorem State.still_flush (s : State) (c : Nat) : ((s.still c).flush c).core c = (s.flush c).core c := by
  rw [State.flush_core, State.flush_core, State.still_core]
  rfl

theorem syscall_traps {c : Fin 32} {w : Word} {s : State} (idx ns : Nat) (h : s.Fetches c.val w E.SYSCALL)
    (hno : ¬ (fSysreg w = 0 ∧ (s.core c.val).level = 0 ∧ ((s.flush c.val).core c.val).storeErr.isNone)) :
    exec (.coreSyscall c w idx ns) s = .next ((s.still c.val).trapNext c.val 9 (fSysreg w)) := by
  rw [exec_coreSyscall, h.insn, if_neg hno, State.still]

/-- What a complete activation leaves before its trap: it is DONE, or LATE after an overrun (05 R213, R240). -/
theorem State.completed_leaves {s : State} {c p : Nat} (idx ns : Nat) (hp : p < 256) (hlevel : (s.core c).level = 0)
    (hgood : s.StoresGood c) (hcur : (s.core c).cur = some p) (hpst : s.pst p = 2 ∨ s.pst p = 4)
    (howner : (s.prec p).core = c) {u : State} (hu : u = s.completed c idx ns) :
    u.core c = { ((s.flush c).core c).dropped p with level := 0 } ∧ u.pst p = (if s.pst p = 2 then 3 else 5) ∧
      (u.part p).idxCount = idx ∧ (u.part p).coreNs = ns ∧ u.rdN (R.CYC_PRUN p) = ns % 2 ^ 32 ∧
      u.rdN (R.CYC_PRUNS p) = (s.rdN (R.CYC_PRUNS p) + 1) % 2 ^ 32 ∧
      u.rdN (R.CYC_PMAX p) = max (s.rdN (R.CYC_PMAX p)) (ns % 2 ^ 32) := by
  have hcore := hgood.flush_core
  have hlow := State.flush_lowKept s c
  have hsame : (s.flush c).pst p = s.pst p := hlow.get (by simp only [F.CYC_PSTATE_STATE]; omega)
  have hcur' : ((s.flush c).core c).cur = some p := by rw [hcore]; exact hcur
  have heq := State.completeAct_eq (s := s.flush c) idx ns hcur' (by rwa [hsame])
  obtain ⟨hdropped, hidx, hns, hrd⟩ := State.ending_leaves (s := s.flush c) (c := c) idx ns (by rw [State.flush_prec]; exact howner)
    hcur' (by rw [hcore]; exact hlevel)
  obtain ⟨hrun, hruns, hmax⟩ := State.showRun_rdN ((s.flush c).ending p idx ns) p ns
  have hrdN {o : Nat} (ho : o < 0x300000) : ((s.flush c).ending p idx ns).rdN o = s.rdN o := by
    rw [State.rdN, hrd, hlow o ho, State.rdN]
  have hkept {o : Nat} (ho : o ∉ [R.CYC_PSTATE p, R.CYC_STATUS]) (n : Nat) (t : State) : (t.setPst p n).rdN o = t.rdN o := by
    rw [State.rdN, (State.setPst_only t p n).2 o ho, State.rdN]
  have hapart : R.CYC_PRUN p ∉ [R.CYC_PSTATE p, R.CYC_STATUS] ∧ R.CYC_PRUNS p ∉ [R.CYC_PSTATE p, R.CYC_STATUS] ∧
      R.CYC_PMAX p ∉ [R.CYC_PSTATE p, R.CYC_STATUS] := by
    simp only [R.CYC_PRUN, R.CYC_PRUNS, R.CYC_PMAX, R.CYC_PSTATE, R.CYC_STATUS, List.mem_cons, List.not_mem_nil, or_false]
    omega
  rw [hu, State.completed, heq, hsame]
  have hpart (t : State) (f : CoreState → CoreState) : (t.co c f).part = t.part := rfl
  have hget (t : State) (f : CoreState → CoreState) : (t.co c f).pst = t.pst := rfl
  have hword (t : State) (f : CoreState → CoreState) : (t.co c f).rdN = t.rdN := rfl
  refine ⟨?core, ?pst, ?writes, ?time, ?run, ?runs, ?max⟩
  case core => rw [State.core_co_same, State.showRun_core, ← hdropped]
  case pst =>
    rw [hget, State.setPst_pst]
    split <;> rfl
  case writes => rw [hpart, State.showRun_part, hidx]
  case time => rw [hpart, State.showRun_part, hns]
  case run => rw [hword, hkept hapart.1, hrun]
  case runs => rw [hword, hkept hapart.2.1, hruns, hrdN (by simp only [R.CYC_PRUNS]; omega)]
  case max => rw [hword, hkept hapart.2.2, hmax, hrdN (by simp only [R.CYC_PMAX]; omega)]

/-- A trap that aborts nothing, where no store waits, changes the core pair alone. -/
theorem State.begun_nil {s : State} {c : Nat} (h : (s.core c).buf = []) (cause tval npc : DWord) (vec : Nat) :
    ∃ k, OnlyCore s (s.begun c cause tval npc vec) c k ∧ k.cur = (s.core c).cur := by
  have hflush : OnlyCore s (s.flush c) c { s.core c with buf := [], sig := 2 ^ 64 - 1, windows := (s.core c).windows + 1 } := by
    rw [State.flush_nil h]
    exact s.co_onlyCore c _
  obtain ⟨hrest, hcore, hother⟩ := State.enterS_onlyCore (State.flush_buf s c) cause tval npc vec
  refine ⟨_, ⟨?_, rfl, fun j hj => (hother j hj).trans (hflush.2.2 j hj)⟩, ?_⟩
  · rw [State.begun, hrest, hflush.1]
  · rw [State.begun, hcore, hflush.core]
    rfl

/-- SYSCALL 0: the activation is complete, and the runtime goes on (12 R571). -/
theorem syscall_done {c : Fin 32} {w : Word} (idx ns : Nat) {p : Nat} {s : State} (h : s.Fetches c.val w E.SYSCALL)
    (hzero : fSysreg w = 0) (hlevel : (s.core c.val).level = 0) (hgood : s.StoresGood c.val) (hp : p < 256)
    (hcur : (s.core c.val).cur = some p) (hpst : s.pst p = 2 ∨ s.pst p = 4) (howner : (s.prec p).core = c.val) :
    Steps (exec (.coreSyscall c w idx ns) s) fun u =>
      Enters s u c.val 9 9 ((s.core c.val).pc + 4) ∧ u.pst p = (if s.pst p = 2 then 3 else 5) ∧
      (u.core c.val).cur = none ∧ (u.part p).idxCount = idx ∧ (u.part p).coreNs = ns ∧
      u.rdN (R.CYC_PRUN p) = ns % 2 ^ 32 ∧ u.rdN (R.CYC_PRUNS p) = (s.rdN (R.CYC_PRUNS p) + 1) % 2 ^ 32 ∧
      u.rdN (R.CYC_PMAX p) = max (s.rdN (R.CYC_PMAX p)) (ns % 2 ^ 32) := by
  obtain ⟨t, ht⟩ : ∃ t, t = s.completed c.val idx ns := ⟨_, rfl⟩
  obtain ⟨hcore, hst, hidx, hns, hrun, hruns, hmax⟩ := State.completed_leaves idx ns hp hlevel hgood hcur hpst howner ht
  rw [hgood.flush_core] at hcore
  have hgood' : t.StoresGood c.val := by
    rw [State.storesGood_iff, hcore]
    rfl
  have hretiring := State.retiring_core t c.val
  obtain ⟨b, hb⟩ : ∃ b, b = (t.retiring c.val).begun c.val (BitVec.ofNat 64 (9 + 65536 * 0)) t.free ((t.core c.val).pc + 4) 9 :=
    ⟨_, rfl⟩
  have htrap : t.trapNext c.val 9 0 = b := by
    rw [hb, State.trapNext_eq, State.trap_good 9 0 t.free ((t.core c.val).pc + 4) (by rw [hretiring, hcore]) hgood'.retiring]
    rfl
  obtain ⟨k, honly, hkcur⟩ := State.begun_nil (s := t.retiring c.val) (c := c.val) (by rw [hretiring, hcore]; rfl)
    (BitVec.ofNat 64 (9 + 65536 * 0)) t.free ((t.core c.val).pc + 4) 9
  rw [← hb] at honly
  have hpst' : b.pst p = t.pst p := State.get_of_regs honly.regs _
  have hrdN (o : Nat) : b.rdN o = t.rdN o := by rw [State.rdN, State.rd, honly.regs]; rfl
  have hpart : b.part p = t.part p := by rw [honly.1]; rfl
  have hnone : (b.core c.val).cur = none := by rw [honly.core, hkcur, hretiring, hcore]; rfl
  obtain ⟨henters, -⟩ := State.trapNext_enters (s := t) (c := c.val) (code := 9) 0 (by rw [hcore]) hgood'
  rw [htrap, Enters, hcore, Nat.mul_zero, Nat.add_zero] at henters
  refine ⟨b, by rw [syscall_completes idx ns h hzero hlevel hgood, ← ht, htrap], henters, hpst'.trans hst, hnone, ?_⟩
  rw [hpart, hrdN, hrdN, hrdN]
  exact ⟨hidx, hns, hrun, hruns, hmax⟩

/-- The instructions that trap with the next instruction's address (12 R561). -/
theorem exec_coreBreak (c : Fin 32) (w : Word) (s : State) : exec (.coreBreak c w) s =
    .next (s.insn c.val w E.BREAK fun t => t.trapNext c.val 10 0) := by rfl

theorem exec_coreTrap (c : Fin 32) (w : Word) (s : State) : exec (.coreTrap c w) s =
    .next (s.insn c.val w E.TRAP fun t => t.trapNext c.val 11 (fSysreg w)) := by rfl

/-- What BREAK, TRAP n and SYSCALL n other than 0 leave (12 R561; 05 R218). -/
theorem State.trapNext_kind5 {s : State} {c code num : Nat} (hlevel : (s.core c).level = 0) (hgood : s.StoresGood c)
    (hkind : faultKind code num = some 5) : Enters s (s.trapNext c code num) c (BitVec.ofNat 64 (code + 65536 * num)) code
        ((s.core c).pc + 4) ∧ ((s.trapNext c code num).core c).instret = (s.core c).instret + 1 ∧
      (∀ p : Fin 256, (s.core c).cur = some p.val → s.pst p.val = 2 ∨ s.pst p.val = 4 →
        (s.trapNext c code num).pst p.val = 6 ∧ (s.trapNext c code num).get (F.CYC_PSTATE_LAST_FAULT p.val) = 5 ∧
        (s.trapNext c code num).get (F.CYC_PFAULT_ABORTS p.val) = min (s.get (F.CYC_PFAULT_ABORTS p.val) + 1) (2 ^ 16 - 1)) := by
  obtain ⟨henters, hinstret⟩ := State.trapNext_enters (code := code) num hlevel hgood
  exact ⟨henters, hinstret, fun p hcur hpst => State.trapNext_aborts hlevel hgood hkind p.isLt hcur hpst⟩

/-- Settles O45: the traps that abort (`State.trapNext_kind5`), SYSCALL 0 (`syscall_done`), and the error of a store in their
place (`State.trapNext_charged`). -/
theorem trapsByInstruction : Obligations.TrapsByInstruction := by
  refine ⟨?aborts, ?syscall, ?done, ?charged⟩
  case aborts =>
    simp only [List.forall_mem_cons]
    refine ⟨fun c w s h hlevel hgood => ?_, fun c w s h hlevel hgood => ?_, fun _ h => absurd h List.not_mem_nil⟩
    · rw [exec_coreBreak, h.insn]
      exact ⟨_, rfl, State.trapNext_kind5 hlevel hgood rfl⟩
    · rw [exec_coreTrap, h.insn]
      exact ⟨_, rfl, State.trapNext_kind5 hlevel hgood rfl⟩
  case syscall =>
    intro c w idx ns s h hlevel hgood hnum
    have hcore := State.still_core s c.val
    have hkind : faultKind 9 (fSysreg w) = some 5 := if_neg hnum
    obtain ⟨henters, -, haborts⟩ := State.trapNext_kind5 (s := s.still c.val) (c := c.val) (by rw [hcore]; exact hlevel)
      (hgood.congr hcore rfl) hkind
    rw [hcore] at henters haborts
    refine ⟨_, syscall_traps idx ns h fun hno => hnum hno.1, State.still_enters henters, fun p hcur hpst => ?_⟩
    obtain ⟨hst, hfault, -⟩ := haborts p hcur hpst
    exact ⟨hst, hfault⟩
  case done =>
    intro c w idx ns p s h hzero hlevel hgood hcur hpst howner
    exact syscall_done idx ns h hzero hlevel hgood p.isLt hcur hpst howner
  case charged =>
    simp only [List.forall_mem_cons]
    refine ⟨fun c w a s h hlevel herr => ?_, fun c w a s h hlevel herr => ?_, fun c w a s h hlevel herr => ?_,
      fun _ h => absurd h List.not_mem_nil⟩
    · rw [exec_coreBreak, h.insn]
      exact ⟨_, rfl, State.trapNext_charged 10 0 hlevel herr⟩
    · rw [exec_coreTrap, h.insn]
      exact ⟨_, rfl, State.trapNext_charged 11 _ hlevel herr⟩
    · have hcore := State.still_core s c.val
      obtain ⟨henters, hrest⟩ := State.trapNext_charged (s := s.still c.val) (c := c.val) 9 (fSysreg w)
        (by rw [hcore]; exact hlevel) ((congrArg CoreState.storeErr (State.still_flush s c.val)).trans herr)
      rw [hcore] at henters hrest
      exact ⟨_, syscall_traps 0 0 h fun hno => by simp [herr] at hno, State.still_enters henters, hrest⟩

end Sys2Proof.Machine
end

section
/-! Double faults: the event of the abort behind the errors of the stores that leave (12 R568; 03 R108). -/
namespace Sys2Proof.Machine

/-- Core pair 0 at S with the activation of partition 0 held, whose sixteen waiting stores go to HBM channel 0, which is off; the
image names the island of that channel for the partition. -/
def crowdedFault : State :=
  ((({ State.reset with img := some { parts := [{ part := 0, core := islHbm 0 }] } }.put (F.CYC_CORE_STATE 0) 1).put
    (F.CYC_PSTATE_STATE 0) 2).wrN (R.ACC_RATTR 0 0) 0x802801FF).setCore 0
      { level := 1, pc := 0x8003400000, tstatus := 4, cur := some 0, buf := List.replicate 16 { addr := 0, size := 8, val := 0 } }

theorem crowdedFault_fetches : crowdedFault.Fetches 0 E.BREAK.pat E.BREAK := by
  unfold State.Fetches
  decide +kernel

theorem crowdedFault_holds : (crowdedFault.core 0).level ≠ 0 ∧ (crowdedFault.core 0).inDouble = false ∧
    (crowdedFault.core 0).tstatus.getLsbD 2 = true ∧ (crowdedFault.core 0).cur = some 0 ∧ crowdedFault.pst 0 = 2 ∧
    crowdedFault.Room (crowdedFault.prec 0).core := by decide +kernel

/-- The errors of the stores fill the queue of the island, and 0x4011 is lost. -/
theorem crowdedFault_lost : ∀ r ∈ (crowdedFault.trapNext 0 10 0).recd.queue, r.code ≠ 0x4011 := by decide +kernel

/-- Refutes O46: its clause on a held context has 0x4011 in the queue wherever the island of the partition has room for one raise
before the trap, but the stores that leave first may take the room: a channel that is off answers each with 0x2040 (03 R108). The
counterexample is sixteen such stores, with an image that names the channel's island for the partition. -/
theorem not_doubleFaults : ¬ Obligations.DoubleFaults := by
  unfold Obligations.DoubleFaults
  rintro ⟨hheld, -⟩
  obtain ⟨hlevel, hfirst, hbit, hcur, hpst, hroom⟩ := crowdedFault_holds
  obtain ⟨u, hexec, -, -, -, -, -, -, -, hpart⟩ := hheld 0 E.BREAK.pat crowdedFault crowdedFault_fetches hlevel hfirst hbit
  have hbreak : exec (.coreBreak 0 E.BREAK.pat) crowdedFault = .next (crowdedFault.trapNext 0 10 0) :=
    (exec_coreBreak 0 E.BREAK.pat crowdedFault).trans (congrArg Host.Outcome.next (crowdedFault_fetches.insn _))
  obtain rfl := Host.Outcome.next.inj (hbreak.symm.trans hexec)
  obtain ⟨-, -, r, hr, hcode, -⟩ := hpart 0 hcur (.inl hpst) hroom
  exact crowdedFault_lost r hr hcode

end Sys2Proof.Machine
end

section
/-! An injection test that fails: the partitions of the core pair halt, whatever their numbers (05 R231; 12 R581). -/
namespace Sys2Proof.Machine

theorem exec_injectionTestDone (c : Fin 32) (primary : Bool) (dup : Option Bool) (t : Nat) (s : State) :
    exec (.injectionTestDone c primary dup t) s = execInjectionTestDone c primary dup t s := by rfl

/-- Core pair 0 of an active without a partner, under its injection test, and one partition of it with the number 24,448, whose
CYC_PSTATE would stand at the place of TWN_STATUS. -/
def strayPart : State :=
  ((({ State.reset with img := some { parts := [{ part := 24448, core := 0 }] } }.put (F.CYC_CORE_STATE 0) 1).put
    F.TWN_STATUS_ROLE 1).put F.MOD_STATUS_STAGE 5).co 0 fun k => { k with testing := true }

theorem strayPart_stray : (F.CYC_PSTATE_STATE 24448).off = F.TWN_STATUS_ROLE.off := by decide

theorem strayPart_holds : (strayPart.core 0).testing = true ∧ strayPart.startTest 0 = false ∧ strayPart.isActive = true ∧
    strayPart.twin.switch = none ∧ strayPart.canSwitch = false ∧ strayPart.Room 0 := by decide +kernel

/-- The partition halts, which takes the role from TWN_STATUS, and the module restarts. -/
theorem strayPart_restarts : Steps (execInjectionTestDone 0 false none 0 strayPart) fun u => u.get (F.CYC_CORE_STATE 0) = 0 :=
  ⟨_, rfl, by decide +kernel⟩

/-- Refutes O50: its clause on an injection test that fails has the core pair FAULTY after it, for every image, but the halt of a
partition whose number is out of range writes registers that are not CYC_PSTATE. The counterexample is a partition with the number
24,448: its state stands in TWN_STATUS, the active loses its role with the halt, and the module fault restarts it (09 R464). -/
theorem not_coreFromOutside : ¬ Obligations.CoreFromOutside := by
  unfold Obligations.CoreFromOutside
  rintro ⟨-, -, -, -, -, -, -, -, hfails, -⟩
  obtain ⟨htesting, hstart, hactive, hswitch, hcan, hroom⟩ := strayPart_holds
  obtain ⟨u, hexec, -, -, hfaulty, -⟩ := hfails 0 0 strayPart htesting hstart hactive hswitch hcan hroom
  obtain ⟨v, hv, hreset⟩ := strayPart_restarts
  obtain rfl := Host.Outcome.next.inj (hv.symm.trans ((exec_injectionTestDone 0 false none 0 strayPart).symm.trans hexec))
  exact absurd (hreset.symm.trans hfaulty) (by decide)

end Sys2Proof.Machine
end

section
/-! The floating group (12 R537, R549, R552, R553). -/
namespace Sys2Proof.Machine

/-! ## A result -/

theorem State.fop_eq (s : State) (c : Nat) (wide : Bool) (n : Nat) : s.fop c wide n = fpIn (s.core c) wide n := rfl

/-- A core pair changed in two steps, before its instruction retires. -/
theorem State.retire_onlyCore {s t : State} {c : Nat} {k : CoreState} (h : OnlyCore s t c k) (hruns : s.coreRuns c = true)
    (hpc : k.pc = (s.core c).pc) (hreset : k.resetting = (s.core c).resetting) (htest : k.testing = (s.core c).testing) :
    OnlyCore s (t.retire c) c (k.next ((s.core c).pc + 4)) := by
  rw [State.retire, h.core, hpc]
  exact h.retireTo _ hruns hreset htest

/-- The flags stay set in FCSR, DST is written, and the instruction retires (12 R537, R552). -/
theorem State.fput_onlyCore {s : State} {c : Nat} (w : Word) (int : Bool) (r : FRes) (hruns : s.coreRuns c = true) :
    OnlyCore s (s.fput c w int r) c ((fpOut (s.core c) w int r).next ((s.core c).pc + 4)) := by
  obtain ⟨v, hv⟩ : ∃ v, v = BitVec.ofNat 64 r.bits := ⟨_, rfl⟩
  rw [State.fput, fpOut, ← hv]
  cases int
  case false =>
    exact State.retire_onlyCore ((s.co_onlyCore c _).co fun k => { k with f := tset 0 k.f (fDst w) v }) hruns rfl rfl rfl
  case true =>
    exact State.retire_onlyCore ((s.co_onlyCore c _).co fun k => k.setReg (fDst w) v) hruns (CoreState.setReg_pc _ _ _)
      (CoreState.setReg_resetting _ _ _) (CoreState.setReg_testing _ _ _)

/-! ## Instructions that do not round, and ones that round by RM -/

theorem State.fexec_onlyCore {s : State} {c : Nat} {w : Word} {e : Enc} (h : s.Fetches c w e) (int : Bool)
    (g : State → Bool → FRes) : OnlyCore s (s.fexec c w e int g) c
      ((fpOut (s.core c) w int (g s (fWide w))).next ((s.core c).pc + 4)) := by
  rw [State.fexec, h.insn]
  exact State.fput_onlyCore w int _ h.runs

theorem State.fround_onlyCore {s : State} {c : Nat} {w : Word} {e : Enc} {m : RMode} (h : s.Fetches c w e) (wide int : Bool)
    (g : State → Fmt → RMode → FRes) (hmode : rmOf (s.core c).fcsr = some m) : OnlyCore s (s.fround c w e wide int g) c
      ((fpOut (s.core c) w int (g s (fmtOf wide) m)).next ((s.core c).pc + 4)) := by
  rw [State.fround, h.insn, hmode]
  exact State.fput_onlyCore w int _ h.runs

/-- An RM of 5 to 7 is ILLEGAL for what rounds (12 R552). -/
theorem State.fround_illegal {s : State} {c : Nat} {w : Word} {e : Enc} (h : s.Fetches c w e) (wide int : Bool)
    (g : State → Fmt → RMode → FRes) (hmode : rmOf (s.core c).fcsr = none) : s.fround c w e wide int g = s.illegal c w := by
  rw [State.fround, h.insn, hmode]

/-! ## The rows -/

theorem exec_fpPlain : ∀ r ∈ fpPlain, ∀ (c : Fin 32) (w : Word) (s : State), exec (r.1 c w) s =
    .next (s.fexec c.val w r.2.1 r.2.2.1 fun t b =>
      r.2.2.2 b (fpIn (t.core c.val) b (fSrc1 w)) (fpIn (t.core c.val) b (fSrc2 w))) := by
  simp only [fpPlain, List.forall_mem_cons, List.not_mem_nil, false_implies, implies_true, and_true]
  repeat' apply And.intro
  all_goals exact fun _ _ _ => rfl

theorem exec_fpRound : ∀ r ∈ fpRound, ∀ (c : Fin 32) (w : Word) (s : State), ∃ g : State → Fmt → RMode → FRes,
    exec (r.1 c w) s = .next (s.fround c.val w r.2.1 (fWide w) r.2.2.1 g) ∧ ∀ t m, g t (fmtOf (fWide w)) m =
      r.2.2.2 (fWide w) m (fpIn (t.core c.val) (fWide w) (fSrc1 w)) (fpIn (t.core c.val) (fWide w) (fSrc2 w)) 0
        (t.xr c.val (fSrc1 w)) := by
  simp only [fpRound, List.forall_mem_cons, List.not_mem_nil, false_implies, implies_true, and_true]
  repeat' apply And.intro
  all_goals exact fun _ _ _ => ⟨_, rfl, fun _ _ => rfl⟩

theorem exec_fpFused : ∀ r ∈ fpFused, ∀ (c : Fin 32) (w : Word) (s : State), exec (r.1 c w) s =
    .next (s.ffma c.val w r.2.1 r.2.2.1 r.2.2.2) := by
  simp only [fpFused, List.forall_mem_cons, List.not_mem_nil, false_implies, implies_true, and_true]
  exact ⟨fun _ _ _ => rfl, fun _ _ _ => rfl, fun _ _ _ => rfl, fun _ _ _ => rfl⟩

/-! ## Conversions by width -/

theorem exec_coreI32tof (c : Fin 32) (w : Word) (s : State) : exec (.coreI32tof c w) s = .next (if fWide w
    then s.fexec c.val w E.I32TOF false fun t _ => f64.ofInt .rne (toSigned 32 (t.xr c.val (fSrc1 w)).toNat)
    else s.fround c.val w E.I32TOF false false fun t m rm => m.ofInt rm (toSigned 32 (t.xr c.val (fSrc1 w)).toNat)) := by rfl

theorem exec_coreU32tof (c : Fin 32) (w : Word) (s : State) : exec (.coreU32tof c w) s = .next (if fWide w
    then s.fexec c.val w E.U32TOF false fun t _ => f64.ofInt .rne (((t.xr c.val (fSrc1 w)).toNat % 2 ^ 32 : Nat) : Int)
    else s.fround c.val w E.U32TOF false false fun t m rm =>
      m.ofInt rm (((t.xr c.val (fSrc1 w)).toNat % 2 ^ 32 : Nat) : Int)) := by rfl

theorem exec_coreFwidth (c : Fin 32) (w : Word) (s : State) : exec (.coreFwidth c w) s = .next (if fWide w
    then s.fround c.val w E.FWIDTH true false fun t _ rm => f64.convert f32 rm (fpIn (t.core c.val) true (fSrc1 w))
    else s.fexec c.val w E.FWIDTH false fun t _ => f32.convert f64 .rne (fpIn (t.core c.val) false (fSrc1 w))) := by rfl

theorem exec_coreBitstof (c : Fin 32) (w : Word) (s : State) : exec (.coreBitstof c w) s =
    .next (s.fexec c.val w E.BITSTOF false fun t b =>
      { bits := if b then (t.xr c.val (fSrc1 w)).toNat else (t.xr c.val (fSrc1 w)).toNat % 2 ^ 32 }) := by rfl

theorem low32_toNat (x : DWord) : (x.extractLsb' 0 32).toNat = x.toNat % 2 ^ 32 := by
  rw [BitVec.extractLsb'_toNat, Nat.shiftRight_zero]

/-- A number of 32 bits as its word is signed. -/
theorem low32_toInt (x : DWord) : (x.extractLsb' 0 32).toInt = toSigned 32 x.toNat := by
  rw [BitVec.toInt_eq_toNat_cond, low32_toNat, toSigned]
  have hlt := Nat.mod_lt x.toNat (Nat.two_pow_pos 32)
  split <;> split <;> omega

/-- A pattern that is moved sets no flag. -/
theorem fpOut_pattern (k : CoreState) (w : Word) (n : Nat) :
    fpOut k w false { bits := n } = { k with f := tset 0 k.f (fDst w) (BitVec.ofNat 64 n) } := by
  have hflags : k.fcsr ||| FRes.flags { bits := n } = k.fcsr := BitVec.or_zero
  rw [fpOut, hflags]
  rfl

theorem bitstof_pattern (wide : Bool) (x : DWord) : BitVec.ofNat 64 (if wide then x.toNat else x.toNat % 2 ^ 32) =
    if wide then x else (x.extractLsb' 0 32).zeroExtend 64 := by
  cases wide
  · refine BitVec.eq_of_toNat_eq ?_
    rw [if_neg (by decide), if_neg (by decide), BitVec.toNat_setWidth, low32_toNat, BitVec.toNat_ofNat]
  · simp

/-- Settles O42: a row that does not round (`State.fexec_onlyCore`), one that rounds by RM (`State.fround_onlyCore`), and an RM
that names no mode (`State.fround_illegal`). -/
theorem floatingGroup : Obligations.FloatingGroup := by
  refine ⟨?plain, ?round, ?fused, ?i32wide, ?u32wide, ?i32, ?u32, ?widen, ?narrow, ?bits, ?illegal, ?illegalFused⟩
  case plain =>
    intro r hr c w s h
    rw [exec_fpPlain r hr c w s]
    exact ⟨_, rfl, State.fexec_onlyCore h _ _⟩
  case round =>
    intro r hr c w m s h hmode
    obtain ⟨g, hexec, hg⟩ := exec_fpRound r hr c w s
    rw [hexec, ← hg]
    exact ⟨_, rfl, State.fround_onlyCore h _ _ _ hmode⟩
  case fused =>
    intro r hr c w m s x y z h hmode hx hy hz
    rw [exec_fpFused r hr c w s, hx, hy, hz]
    exact ⟨_, rfl, State.fround_onlyCore h _ _ _ hmode⟩
  case i32wide =>
    intro c w s h hwide
    rw [exec_coreI32tof, if_pos hwide, low32_toInt]
    exact ⟨_, rfl, State.fexec_onlyCore h _ _⟩
  case u32wide =>
    intro c w s h hwide
    rw [exec_coreU32tof, if_pos hwide, low32_toNat]
    exact ⟨_, rfl, State.fexec_onlyCore h _ _⟩
  case i32 =>
    intro c w m s h hwide hmode
    rw [exec_coreI32tof, if_neg (by simp [hwide]), low32_toInt]
    exact ⟨_, rfl, State.fround_onlyCore h _ _ _ hmode⟩
  case u32 =>
    intro c w m s h hwide hmode
    rw [exec_coreU32tof, if_neg (by simp [hwide]), low32_toNat]
    exact ⟨_, rfl, State.fround_onlyCore h _ _ _ hmode⟩
  case widen =>
    intro c w s h hwide
    rw [exec_coreFwidth, if_neg (by simp [hwide])]
    exact ⟨_, rfl, State.fexec_onlyCore h _ _⟩
  case narrow =>
    intro c w m s h hwide hmode
    rw [exec_coreFwidth, if_pos hwide]
    exact ⟨_, rfl, State.fround_onlyCore h _ _ _ hmode⟩
  case bits =>
    intro c w s h
    have honly := State.fexec_onlyCore h false fun t b =>
      { bits := if b then (t.xr c.val (fSrc1 w)).toNat else (t.xr c.val (fSrc1 w)).toNat % 2 ^ 32 }
    rw [fpOut_pattern, bitstof_pattern] at honly
    exact ⟨_, exec_coreBitstof c w s, honly⟩
  case illegal =>
    intro r hr c w s h hmode hlevel hgood
    obtain ⟨g, hexec, -⟩ := exec_fpRound r hr c w s
    rw [hexec, State.fround_illegal h _ _ _ hmode]
    exact ⟨_, rfl, State.illegal_enters w hlevel hgood⟩
  case illegalFused =>
    intro r hr c w s h hmode hlevel hgood
    rw [exec_fpFused r hr c w s, State.ffma, State.fround_illegal h _ _ _ hmode]
    exact ⟨_, rfl, State.illegal_enters w hlevel hgood⟩

end Sys2Proof.Machine
end

section
/-! Two clauses that leave a condition out: a READ of a poisoned point (03 R124, 04 R166), and a raise whose tick has not ended
(17 R748). -/
namespace Sys2Proof.Machine

/-! ## A READ of a poisoned point -/

/-- A module after reset with a session that waits for point 0 in the next image, while the word of point 0 is poisoned. -/
def poisonedRead : State :=
  { State.reset with
    mgmt := { sessions := [(0, some {})], reads := [{ session := 0, req := 0, cls := 0, points := [0] }] }
    fab := { poison := [valueAddr false 0] } }

theorem poisonedRead_waits : poisonedRead.session 0 = some {} ∧
    poisonedRead.mgmt.reads = [{ session := 0, req := 0, cls := 0, points := [0] }] ∧
    poisonedRead.pointPoisoned 0 = true := by
  decide +kernel

/-- The READ is answered REFUSED. -/
theorem poisonedRead_refused : (poisonedRead.pointReads 0).out = poisonedRead.out ++ response 0 0 1 4 (le 4 0) := by
  decide +kernel

theorem response_refused_ne_ok (v : Nat) (q : Byte) : response 0 0 1 4 (le 4 0) ≠ response 0 0 1 0 (le 4 v ++ [q]) := by
  intro h
  simp [response, QmpResp.count, QmpResp.fragment, le] at h

/-- Refutes O58: its clause on the READs that a closed image serves has each answered OK, but a point that is poisoned in the closed
image makes the answer REFUSED (03 R124). The counterexample is a READ of point 0 whose value word is poisoned. -/
theorem not_requests : ¬ Obligations.Requests := by
  unfold Obligations.Requests
  rintro ⟨-, -, -, -, -, -, -, -, -, -, -, -, -, -, -, -, -, -, -, -, -, -, -, hserves⟩
  obtain ⟨hsession, hreads, -⟩ := poisonedRead_waits
  obtain ⟨-, hok⟩ := hserves 0 0 0 0 {} poisonedRead hsession hreads
  exact response_refused_ne_ok _ _ (List.append_cancel_left (poisonedRead_refused.symm.trans hok))

/-! ## A raise whose tick has not ended -/

theorem exec_eventRaise (t : Nat) (s : State) : exec (.eventRaise t) s = execEventRaise t s := by rfl

/-- A raise of the present microsecond. -/
def presentRaise : Raise := { code := 0, island := 0 }

/-- A running recorder with one raise of the present microsecond, whose code has no limit. -/
def raiseInTick : State :=
  { State.reset.put F.EVT_STATUS_RUNNING 1 with
    img := some { events := { codes := [{ code := 0, noLimit := true }] } }
    recd := { queue := [presentRaise] } }

theorem raiseInTick_holds : raiseInTick.on F.EVT_STATUS_RUNNING = true ∧ raiseInTick.recd.queue = [presentRaise] ∧
    (raiseInTick.codeRec presentRaise.code).noLimit = true ∧ (raiseInTick.codeRec presentRaise.code).clear = 0 ∧
    raiseInTick.nv.seq + 1 < 2 ^ 64 := by
  decide +kernel

/-- A raise of a lower island can still come in this tick: the recorder waits. -/
theorem raiseInTick_waits : Steps (execEventRaise 0 raiseInTick) fun u => u.recd.queue = [presentRaise] :=
  ⟨_, rfl, by decide +kernel⟩

/-- Refutes O59: its clause on a raise that is taken asks only that the recorder runs and the raise waits, but the recorder takes a
raise once its tick has ended (17 R748). The counterexample is a raise of the microsecond in which EVENT_RAISE comes. -/
theorem not_recorderAndPanel : ¬ Obligations.RecorderAndPanel := by
  unfold Obligations.RecorderAndPanel
  rintro ⟨-, htaken, -⟩
  obtain ⟨hrunning, hqueue, hlimit, hclear, hseq⟩ := raiseInTick_holds
  obtain ⟨u, hexec, -, -, hempty, -⟩ := htaken 0 presentRaise raiseInTick hrunning hqueue hlimit hclear hseq
  obtain ⟨v, hv, hwaits⟩ := raiseInTick_waits
  obtain rfl := Host.Outcome.next.inj (hv.symm.trans ((exec_eventRaise 0 raiseInTick).symm.trans hexec))
  exact absurd (hwaits.symm.trans hempty) (by decide)

end Sys2Proof.Machine
end

section
/-! Sessions and messages (17 R724 to R733). -/
namespace Sys2Proof.Machine

/-! ## The commands -/

theorem exec_networkEcho (p : Fin 3) (k : Fin 4) (fragment act : Bool) (s : State) : exec (.networkEcho p k fragment act) s =
    .next (if !fragment && s.answersAt p.val act (decide (2 ≤ k.val)) then s.send (.netAnswer p.val k.val) else s) := by rfl

theorem exec_dtlsHandshake (p : Fin 3) (key : List Byte) (act v6 ok : Bool) (h : BitVec 32) (t : Nat) (s : State) :
    exec (.dtlsHandshake p key act v6 ok h t) s =
      .next (if !s.answersAt p.val act v6 then s.at t
        else if !ok || (!controlKey s.nv.keys key && s.image.events.noMonitor) then (s.at t).raise 0xE203 islMgmt []
        else (s.at t).openSession p.val (controlKey s.nv.keys key) act h) := by rfl

theorem exec_sessionIdleTimeout {ses : Fin 16} {k : Session} {s : State} (hk : s.session ses.val = some k) (t : Nat) :
    exec (.sessionIdleTimeout ses t) s =
      .next (if max s.now t ≥ k.last + s.idleNs ∧ k.running.isNone then (s.at t).closeSession ses.val 1 else s.at t) := by
  have h : (s.at t).session ses.val = some k := hk
  show execSessionIdleTimeout ses t s = _
  simp only [execSessionIdleTimeout, h]
  rfl

theorem exec_qmpFragmentTimeout {ses : Fin 16} {k : Session} {s : State} (hk : s.session ses.val = some k) (req t : Nat) :
    exec (.qmpFragmentTimeout ses req t) s = .next ((s.at t).setSession ses.val (some { k with
      frags := k.frags.filter fun g => decide (g.req ≠ req) || decide (max s.now t < g.at_ + 1000000000) })) := by
  have h : (s.at t).session ses.val = some k := hk
  show execQmpFragmentTimeout ses req t s = _
  simp only [execQmpFragmentTimeout, h]
  rfl

/-- A record of an open session with room for a header (17 R730): its header is checked first, then the length it announces. -/
theorem exec_qmpFragmentRx {ses : Fin 16} {b : List Byte} {k : Session} {s : State} (hhold : s.on F.MOD_STATUS_HOLDUP = false)
    (hlen : 16 ≤ b.length) (hk : s.session ses.val = some k) (t : Nat) : exec (.qmpFragmentRx ses b t) s =
      .next (if !headerOk b then (s.at t).respond ses.val { cmd := field b 1 1, req := field b 4 4, status := 1 }
        else if field b 12 4 > 65536 then (s.at t).respond ses.val { cmd := field b 1 1, req := field b 4 4, status := 7 }
        else (s.at t).fragment ses.val k b) := by
  have h : (s.at t).session ses.val = some k := hk
  have hstart : ¬((s.at t).on F.MOD_STATUS_HOLDUP = true ∨ b.length < 16) := by
    rintro (hon | hshort)
    · exact absurd (hhold.symm.trans hon) (by decide)
    · omega
  show execQmpFragmentRx ses b t s = _
  simp only [execQmpFragmentRx, if_neg hstart, h]

/-! ## Sessions -/

/-- The first session opens with number 0 (17 R729). -/
theorem State.openSession_first {s : State} (h : s.openSessions = []) (port : Nat) (control act : Bool) (a : BitVec 32) :
    s.openSession port control act a =
      (s.setSession 0 (some { port := port, control := control, onActive := act, last := s.now })).raise 0xE201 islMgmt
        (le 1 (port + 1) ++ le 4 (b2n control) ++ le 4 a.toNat) := by
  simp [State.openSession, h, lowestFree]

theorem State.openSession_full {s : State} (h : s.openSessions.length = 16) (port : Nat) (control act : Bool) (a : BitVec 32) :
    s.openSession port control act a = s.raise 0xE204 islMgmt [] := by
  simp [State.openSession, h]

theorem State.session_raise_room {s : State} {isl : Nat} (h : s.Room isl) (code : Nat) (data : List Byte) (n : Nat) :
    (s.raise code isl data).session n = s.session n :=
  congrArg (fun m : MgmtState => tget none m.sessions n) (State.raise_room_mgmt h code data)

theorem State.session_setSession_same (s : State) (n : Nat) (k : Option Session) : (s.setSession n k).session n = k :=
  tget_tset_same ..

theorem State.closeSession_some {s : State} {n : Nat} {k : Session} (hk : s.session n = some k) (hroom : s.Room islMgmt)
    (reason : Nat) : (s.closeSession n reason).session n = none ∧ Raises s (s.closeSession n reason) 0xE202 islMgmt (le 4 reason) ∧
      (s.closeSession n reason).regs = s.regs ∧ ∀ m, m ≠ n → (s.closeSession n reason).session m = s.session m := by
  have hclose : s.closeSession n reason = (s.mg fun q => { q with
      sessions := tset none s.mgmt.sessions n none
      reads := s.mgmt.reads.filter (fun r => r.session ≠ n) }).raise 0xE202 islMgmt (le 4 reason) := by
    simp only [State.closeSession, hk]
  obtain ⟨u, hu⟩ : ∃ u, u = s.mg fun q => { q with
      sessions := tset none s.mgmt.sessions n none
      reads := s.mgmt.reads.filter (fun r => r.session ≠ n) } := ⟨_, rfl⟩
  have hrecd : u.recd = s.recd := by rw [hu]; rfl
  have hregs : u.regs = s.regs := by rw [hu]; rfl
  have hsession : ∀ m, u.session m = if n = m then none else s.session m := fun m => by
    rw [hu]
    exact tget_tset none s.mgmt.sessions n m none
  have huroom : u.Room islMgmt := by rwa [State.Room, hrecd]
  rw [hclose, ← hu]
  refine ⟨?closed, Raises.raise hroom hrecd _ _, (State.raise_room_regs huroom _ _).trans hregs, fun m hm => ?others⟩
  case closed => rw [State.session_raise_room huroom, hsession, if_pos rfl]
  case others => rw [State.session_raise_room huroom, hsession, if_neg hm.symm]

/-! ## Messages -/

theorem QmpResp.count_of_short {r : QmpResp} (h : r.payload.length ≤ 1184) : r.count = 1 := by
  unfold QmpResp.count
  omega

theorem QmpResp.fragment_of_short {r : QmpResp} (h : r.payload.length ≤ 1184) : r.fragment 0 =
    le 1 1 ++ le 1 r.cmd ++ le 1 1 ++ le 1 0 ++ le 4 r.req ++ le 2 r.status ++ le 2 r.payload.length ++
      le 4 r.payload.length ++ r.payload := by
  simp [QmpResp.fragment, QmpResp.count_of_short h, List.take_of_length_le h]

/-- The first fragment of a request as it joins no other (17 R730). -/
def firstFragment (b : List Byte) (now : Nat) : FragReq :=
  { req := field b 4 4, at_ := now, cmd := field b 1 1, total := field b 12 4, parts := [(0, some (b.drop 16))],
    last := if bitOf (field b 2 1) 1 then none else some 0 }

theorem firstFragment_complete (b : List Byte) (now : Nat) :
    (firstFragment b now).complete = !bitOf (field b 2 1) 1 := by
  cases h : bitOf (field b 2 1) 1 <;> simp [firstFragment, FragReq.complete, h, tget]

theorem State.fragment_first {k : Session} {b : List Byte} (hfrags : k.frags = []) (hfrag : field b 3 1 = 0) (s : State)
    (ses : Nat) : s.fragment ses k b = if (firstFragment b s.now).complete then s.requestIn ses k (firstFragment b s.now)
      else s.setSession ses (some { k with frags := [firstFragment b s.now] }) := by
  simp only [State.fragment, hfrags, hfrag, List.find?_nil, Option.getD_none, List.filter_nil, List.nil_append]
  rfl

/-- The session after a request of one fragment has come (17 R731, R732). -/
theorem State.requestIn_kept {k : Session} {f : FragReq} {e : QmpResp} (hrunning : k.running = none)
    (hkept : k.kept.find? (fun e => decide (e.req = f.req)) = some e) (s : State) (ses : Nat) : s.requestIn ses k f =
      (s.setSession ses (some { k with frags := k.frags.filter (fun g => g.req ≠ f.req), last := s.now })).respond ses e := by
  simp only [State.requestIn, hrunning, hkept]
  rw [if_neg (by simp)]

theorem State.requestIn_runs {k : Session} {f : FragReq} (hrunning : k.running = none) (hkept : k.kept = [])
    (htotal : f.payload.length = f.total) (hcmd : 1 ≤ f.cmd ∧ f.cmd ≤ 13) (s : State) (ses : Nat) : s.requestIn ses k f =
      (s.setSession ses (some { k with frags := k.frags.filter (fun g => g.req ≠ f.req), last := s.now })).setSession ses
        (some { k with frags := k.frags.filter (fun g => g.req ≠ f.req), last := s.now, running := some f.req }) := by
  have hgood : ¬(f.payload.length ≠ f.total ∨ f.cmd = 0 ∨ f.cmd > 13) := by omega
  simp only [State.requestIn, hrunning, hkept, if_neg hgood, List.find?_nil]
  simp

/-- Settles O57, command by command: each says once what it does with an open session, and a request of one fragment is complete
with it (17 R730, R731). -/
theorem sessionsAndMessages : Obligations.SessionsAndMessages := by
  unfold Obligations.SessionsAndMessages
  refine ⟨?echo, ?echoFragment, ?failed, ?opens, ?full, ?idle, ?notIdle, ?badHeader, ?tooLarge, ?runs, ?old, ?noEcho, ?noAnswer,
    ?again, ?more, fun r h => ⟨QmpResp.count_of_short h, QmpResp.fragment_of_short h⟩⟩
  case echo =>
    intro p k act s h
    rw [exec_networkEcho, h]
    exact ⟨_, rfl, rfl⟩
  case echoFragment => exact fun p k act s => exec_networkEcho p k true act s
  case noEcho =>
    intro p k act s h
    rw [exec_networkEcho, h]
    rfl
  case noAnswer =>
    intro p key act v6 ok h t s hans
    rw [exec_dtlsHandshake, hans]
    rfl
  case failed =>
    intro p key act v6 h t s hans hroom
    rw [exec_dtlsHandshake, hans]
    exact ⟨_, rfl, Raises.raise (s := s) (t := s.at t) hroom rfl _ _, State.raise_room_mgmt (s := s.at t) hroom _ _,
      State.raise_room_regs (s := s.at t) hroom _ _⟩
  case opens =>
    intro p key act v6 h t s hans hmonitor hopen hroom
    rw [exec_dtlsHandshake, hans, hmonitor, Bool.and_false, Bool.not_true, Bool.or_false, if_neg Bool.false_ne_true,
      if_neg Bool.false_ne_true, State.openSession_first (s := s.at t) hopen]
    refine ⟨_, rfl, ?_, Raises.raise (s := s) (t := (s.at t).setSession 0 _) hroom rfl _ _,
      State.raise_room_regs (s := (s.at t).setSession 0 _) hroom _ _⟩
    exact (State.session_raise_room (s := (s.at t).setSession 0 _) hroom _ _ 0).trans (State.session_setSession_same ..)
  case full =>
    intro p key act v6 h t s hans hmonitor hopen hroom
    rw [exec_dtlsHandshake, hans, hmonitor, Bool.and_false, State.openSession_full (s := s.at t) hopen]
    exact ⟨_, rfl, Raises.raise (s := s) (t := s.at t) hroom rfl _ _, State.raise_room_mgmt (s := s.at t) hroom _ _⟩
  case idle =>
    intro ses t k s hk hrunning hidle hroom
    rw [exec_sessionIdleTimeout hk, if_pos ⟨hidle, by rw [hrunning]; rfl⟩]
    exact ⟨_, rfl, State.closeSession_some (s := s.at t) hk hroom 1⟩
  case notIdle =>
    intro ses t k s hk hidle
    rw [exec_sessionIdleTimeout hk, if_neg (fun h => absurd h.1 (Nat.not_le.2 hidle))]
  case badHeader =>
    intro ses b t k s hhold hlen hk hheader
    rw [exec_qmpFragmentRx hhold hlen hk, hheader]
    exact ⟨_, rfl, State.respond_eq ..⟩
  case tooLarge =>
    intro ses b t k s hhold hlen hk hheader htotal
    rw [exec_qmpFragmentRx hhold hlen hk, hheader, if_neg (by decide), if_pos htotal]
    exact ⟨_, rfl, State.respond_eq ..⟩
  case old =>
    intro ses req t k s hk
    rw [exec_qmpFragmentTimeout hk]
    exact ⟨_, rfl, State.session_setSession_same .., rfl, rfl⟩
  case runs =>
    intro ses b t k s hhold hlen hk hfrags hkept hrunning hheader hfrag hmore htotal hlow hhigh
    have hlong : b.length ≤ 1200 := by
      simp only [headerOk, Bool.and_eq_true, decide_eq_true_eq] at hheader
      omega
    have hpayload : (firstFragment b (s.at t).now).payload.length = (firstFragment b (s.at t).now).total := by
      simp [firstFragment, FragReq.payload, htotal]
    rw [exec_qmpFragmentRx hhold hlen hk, hheader, if_neg (by decide), if_neg (by omega),
      State.fragment_first hfrags hfrag, firstFragment_complete, hmore, Bool.not_false, if_pos rfl,
      State.requestIn_runs hrunning hkept hpayload ⟨hlow, hhigh⟩, hfrags]
    refine ⟨_, rfl, (State.session_setSession_same ..).trans ?_, rfl, rfl⟩
    rw [List.filter_nil, ← hfrags]
    rfl
  case again =>
    intro ses b t k e s hhold hlen hk hfrags hrunning hheader hfrag hmore htotal hkept
    rw [exec_qmpFragmentRx hhold hlen hk, hheader, if_neg (by decide), if_neg (Nat.not_lt.2 htotal),
      State.fragment_first hfrags hfrag, firstFragment_complete, hmore, Bool.not_false, if_pos rfl,
      State.requestIn_kept hrunning hkept, hfrags, State.respond_eq]
    refine ⟨_, rfl, (State.session_setSession_same ..).trans ?_, rfl, rfl⟩
    rw [List.filter_nil, ← hfrags]
    rfl
  case more =>
    intro ses b t k s hhold hlen hk hfrags hheader hfrag hmore htotal
    rw [exec_qmpFragmentRx hhold hlen hk, hheader, if_neg (by decide), if_neg (Nat.not_lt.2 htotal),
      State.fragment_first hfrags hfrag, firstFragment_complete, hmore, Bool.not_true, if_neg (by decide)]
    refine ⟨_, rfl, rfl, rfl, (State.session_setSession_same ..).trans ?_⟩
    simp only [firstFragment, hmore, if_true]
    rfl

end Sys2Proof.Machine
end

section
/-! Rules of the local I/O plane: fields set and cleared, events after other changes, and the parts of its state (14). -/
namespace Sys2Proof.Machine

/-! ## Fields and events -/

/-- A one-bit field after it was set or cleared. -/
theorem State.on_putB_same (s : State) {f : Fld} (b : Bool) (hend : f.lo + f.len ≤ 32) (hlen : f.len = 1) :
    (s.putB f b).on f = b := by
  rw [State.on, State.putB, State.get_put_same _ _ hend, hlen]
  cases b <;> rfl

/-- An event raised after changes that leave the recorder: it stands last, and the raise adds nothing to the registers. -/
theorem State.raise_after {s t : State} {isl : Nat} (hroom : s.Room isl) (hrecd : t.recd = s.recd) (code : Nat)
    (data : List Byte) : Raises s (t.raise code isl data) code isl data ∧ (t.raise code isl data).regs = t.regs :=
  ⟨Raises.raise hroom hrecd code data, State.raise_room_regs (s := t) (by rwa [State.Room, hrecd]) code data⟩

theorem State.on_of_regs {s t : State} (h : t.regs = s.regs) (f : Fld) : t.on f = s.on f := by
  rw [State.on, State.get_of_regs h, State.on]

theorem State.get_wrN_ne (s : State) {f : Fld} {o : Nat} (v : Nat) (h : o ≠ f.off) : (s.wrN o v).get f = s.get f :=
  congrArg (getBits · f.lo f.len) (State.rd_wr_ne s _ h)

theorem SameRegs.putB {s t : State} {l : List Nat} {f : Fld} (b : Bool) (ho : f.off ∈ l) (h : SameRegs s t l) :
    SameRegs s (t.putB f b) l := SameRegs.put _ ho h

/-! ## The parts of the local I/O -/

theorem State.aio_setAio_same (s : State) (n : Nat) (f : AioState → AioState) : (s.setAio n f).aio n = f (s.aio n) :=
  tget_tset_same ..

theorem State.aio_setAio_ne (s : State) {n m : Nat} (f : AioState → AioState) (h : n ≠ m) : (s.setAio n f).aio m = s.aio m :=
  tget_tset_ne _ _ _ h

theorem State.modem_setModem (s : State) (m : Nat) (f : ModemState → ModemState) :
    (s.setModem m f).modem m = f (s.modem m) := tget_tset_same ..

theorem State.xing_setXing (s : State) (b : Nat) (f : CrossState → CrossState) : (s.setXing b f).xing b = f (s.xing b) :=
  tget_tset_same ..

theorem State.trip_setTrip (s : State) (n : Nat) (f : TripState → TripState) : (s.setTrip n f).trip n = f (s.trip n) :=
  tget_tset_same ..

end Sys2Proof.Machine
end

section
/-! Analogue channels, HART and calibration (14 R637 to R658). -/
namespace Sys2Proof.Machine

/-! ## Analogue channels -/

theorem exec_analogueConversion (n : Fin 8) (ma : Word) (t : Nat) (s : State) : exec (.analogueConversion n ma t) s =
    .next (if (s.at t).aioInput n.val ∧ !((s.at t).xing 2).upOut ∧ (s.at t).pd 4 ∧ (s.at t).convDue n.val then
      ((s.at t).setAio n.val fun a => { a with
          conv := a.conv ++ [b32Add (b32Mul ma.toNat (s.calWord (2 * n.val))) (s.calWord (2 * n.val + 1))]
          convAt := some (max s.now t), fresh := true }).setXing 2 fun x => { x with waitSample := false }
    else s.at t) := by rfl

theorem exec_analogueOutFault (n : Fin 8) (fault : Bool) (s : State) : exec (.analogueOutFault n fault) s =
    .next (if (s.aioRec n.val).mode ≠ 2 ∨ !s.pd 4 then s else if fault ∧ !s.on (F.AIO_FLAGS_OUT_FAULT n.val) then
      (s.putB (F.AIO_FLAGS_OUT_FAULT n.val) fault).raise 0xB043 islLocal [] else s.putB (F.AIO_FLAGS_OUT_FAULT n.val) fault) := by
  rfl

theorem exec_loopSupplyLimit (n : Fin 8) (limit : Bool) (s : State) : exec (.loopSupplyLimit n limit) s =
    .next (if !s.supplyOn n.val ∨ !s.pd 4 then s else if limit ∧ !s.on (F.AIO_FLAGS_SUPPLY_LIMIT n.val) then
      (s.putB (F.AIO_FLAGS_SUPPLY_LIMIT n.val) limit).raise 0xB041 islLocal []
      else s.putB (F.AIO_FLAGS_SUPPLY_LIMIT n.val) limit) := by rfl

theorem exec_analogueMiswire (n : Fin 8) (cond : Fin 3) (s : State) : exec (.analogueMiswire n cond) s =
    .next (if !s.aioInput n.val ∨ !s.pd 4 then s else if cond.val = 0 then
        s.setAio n.val fun a => { a with miswire := cond.val = 1, reversed := cond.val = 2 }
      else ((s.setAio n.val fun a => { a with miswire := cond.val = 1, reversed := cond.val = 2 }).put
        (F.AIO_FLAGS_MISWIRE n.val) 1).raise 0xB040 islLocal (le 1 n.val)) := by rfl

/-- A flag of a channel that sets with an event (14 R640, R641). -/
theorem State.flag_raise {s : State} {f : Fld} (hroom : s.Room islLocal) (hend : f.lo + f.len ≤ 32) (hlen : f.len = 1)
    (code : Nat) : ((s.putB f true).raise code islLocal []).on f = true ∧
      Raises s ((s.putB f true).raise code islLocal []) code islLocal [] ∧
      SameRegs s ((s.putB f true).raise code islLocal []) [f.off] := by
  obtain ⟨hraises, hregs⟩ := State.raise_after (t := s.putB f true) hroom rfl code []
  exact ⟨(State.on_of_regs hregs f).trans (s.on_putB_same true hend hlen), hraises,
    SameRegs.of_regs hregs (SameRegs.putB true (List.mem_singleton.2 rfl) (SameRegs.refl s _))⟩

theorem State.aioInput_of_mode {s : State} {n : Nat} (h : (s.aioRec n).mode = 1 ∨ (s.aioRec n).mode = 3) :
    s.aioInput n = true := by
  rcases h with h | h <;> simp [State.aioInput, h]

/-! ## HART -/

/-- What a transaction of a modem changes (14 R645). -/
theorem State.hartSend_spec (s : State) (m d f : Nat) {c : Nat} (hc : c < 8) :
    (s.hartSend m c d f).modem m = { s.modem m with busy := some (c, d, f), sentAt := s.now } ∧
    (s.hartSend m c d f).out = s.out ++ [.hart m c (s.hartDev d).addr 3] ∧
    (s.hartSend m c d f).get (F.AIO_HART_CHANNEL m) = c ∧ SameRegs s (s.hartSend m c d f) [R.AIO_HART m] ∧
    (s.hartSend m c d f).get (F.AIO_HART_RETRIES m) = s.get (F.AIO_HART_RETRIES m) := by
  obtain ⟨u, hu⟩ : ∃ u, u = s.setModem m fun x => { x with busy := some (c, d, f), sentAt := s.now } := ⟨_, rfl⟩
  have hsend : s.hartSend m c d f = (u.put (F.AIO_HART_CHANNEL m) c).send (.hart m c (s.hartDev d).addr 3) := by rw [hu]; rfl
  have hregs : u.regs = s.regs := by rw [hu]; rfl
  have hchannel : (u.put (F.AIO_HART_CHANNEL m) c).get (F.AIO_HART_CHANNEL m) = c % 8 :=
    State.get_put_same u (f := F.AIO_HART_CHANNEL m) c (by simp [F.AIO_HART_CHANNEL])
  have hretries : (u.put (F.AIO_HART_CHANNEL m) c).get (F.AIO_HART_RETRIES m) = u.get (F.AIO_HART_RETRIES m) :=
    State.get_put_ne u c (.inr (by simp [F.AIO_HART_CHANNEL, F.AIO_HART_RETRIES]))
  rw [hsend]
  refine ⟨?modem, ?out, hchannel.trans (Nat.mod_eq_of_lt hc), ?regs, hretries.trans (State.get_of_regs hregs _)⟩
  case modem =>
    rw [hu]
    exact State.modem_setModem ..
  case out => rw [hu]; rfl
  case regs => exact SameRegs.of_regs (State.send_regs ..) (SameRegs.put c (List.mem_singleton.2 rfl) (SameRegs.of_regs hregs (SameRegs.refl s _)))

theorem State.hartShow_only (s : State) (d : Nat) (b : Bool) : OnlyRegs s (s.hartShow d b) ((List.range 8).map R.AIO_FLAGS) := by
  unfold State.hartShow
  refine OnlyRegs.each (fun c hc t ht => ?_) (OnlyRegs.refl s _)
  dsimp only
  split
  · exact OnlyRegs.setBit _ b (List.mem_map_of_mem hc) ht
  · exact ht

theorem State.hartAbsent_spec {s : State} (hroom : s.Room islLocal) (m d : Nat) :
    ((s.hartAbsent m d).modem m).busy = none ∧ d ∉ (s.hartAbsent m d).loc.present ∧
    Raises s (s.hartAbsent m d) 0xB046 islLocal [] := by
  obtain ⟨u, hu⟩ : ∃ u, u = (s.setModem m fun x => { x with busy := none }).lo fun u => { u with
      present := u.present.filter (fun e => e ≠ d), hartStale := u.hartStale ++ (s.hartDev d).points.filterMap id
      hartVars := u.hartVars.filter (fun v => !((s.hartDev d).points.filterMap id).contains v.1) } := ⟨_, rfl⟩
  have habsent : s.hartAbsent m d = (u.hartShow d false).raise 0xB046 islLocal [] := by rw [hu]; rfl
  have hshow := (u.hartShow_only d false).1
  have hloc : ((u.hartShow d false).raise 0xB046 islLocal []).loc = u.loc := by rw [State.raise_loc, hshow]
  have hrecd : (u.hartShow d false).recd = s.recd := by
    rw [hshow, hu]
    rfl
  rw [habsent]
  refine ⟨?busy, ?present, Raises.raise hroom hrecd _ _⟩
  case busy =>
    rw [State.modem, hloc, hu]
    exact congrArg ModemState.busy (State.modem_setModem s m fun x => { x with busy := none })
  case present =>
    rw [hloc, hu]
    simp [State.lo]

theorem State.hartSearch_spec (s : State) (m : Nat) : ((s.hartSearch m).modem m).search = s.hartAddrs m ∧
    (s.hartSearch m).recd = s.recd ∧ SameRegs s (s.hartSearch m) [R.AIO_HART m] :=
  ⟨congrArg ModemState.search (s.modem_setModem m fun x => { x with search := s.hartAddrs m }), rfl,
    SameRegs.putB _ (List.mem_singleton.2 rfl) (SameRegs.of_regs rfl (SameRegs.refl s _))⟩

/-- A transaction that is due is the next of the round (14 R645). -/
theorem exec_hartPoll_next {m : Fin 2} {c d : Nat} {l : List (Nat × Nat)} {s : State} (hpd : s.pd 4 = true)
    (hbusy : (s.modem m.val).busy = none) (hsearching : (s.modem m.val).searching = none)
    (hround : (s.modem m.val).round = (c, d) :: l) (t : Nat) : exec (.hartPoll m t) s =
      .next (((s.at t).setModem m.val fun x => { x with round := l }).hartSend m.val c d 0) := by
  have hb : ((s.at t).modem m.val).busy = none := hbusy
  have hs : ((s.at t).modem m.val).searching = none := hsearching
  have hr : ((s.at t).modem m.val).round = (c, d) :: l := hround
  have hp : (s.at t).pd 4 = true := hpd
  show execHartPoll m t s = _
  simp only [execHartPoll, hb, hs, hr, hp]
  rfl

theorem exec_hartPoll_busy {m : Fin 2} {s : State} (hbusy : (s.modem m.val).busy ≠ none) (t : Nat) :
    exec (.hartPoll m t) s = .next (s.at t) := by
  have hb : ((s.at t).modem m.val).busy.isSome = true := Option.isSome_iff_ne_none.2 hbusy
  show execHartPoll m t s = _
  simp only [execHartPoll, hb]
  rfl

/-- The variables that a reply to command 3 gives, by point (14 R647). -/
def State.hartGiven (s : State) (d : Nat) (vars : List Word) (ovr : Bool) : List (Nat × Word × Bool) :=
  ((List.range (min (s.hartDev d).nvar 4)).zip vars).filterMap fun e =>
    (((s.hartDev d).points[e.1]?).getD none).map fun p => (p, e.2, ovr)

theorem State.hartGiven_first {s : State} {d p : Nat} {vars l : List Word} {v : Word} (hvars : vars = v :: l)
    (hnvar : 1 ≤ (s.hartDev d).nvar) (hpoint : (s.hartDev d).points.head? = some (some p)) (ovr : Bool) :
    (p, v, ovr) ∈ s.hartGiven d vars ovr := by
  obtain ⟨k, hk⟩ : ∃ k, min (s.hartDev d).nvar 4 = k + 1 := ⟨min (s.hartDev d).nvar 4 - 1, by omega⟩
  rw [List.head?_eq_getElem?] at hpoint
  rw [State.hartGiven, hk, List.range_succ_eq_map, hvars, List.zip_cons_cons, List.mem_filterMap]
  exact ⟨(0, v), List.mem_cons_self .., by rw [hpoint]; rfl⟩

theorem exec_hartReplyRx_device {m : Fin 2} {c d f : Nat} {s : State} (hsearching : (s.modem m.val).searching = none)
    (hbusy : (s.modem m.val).busy = some (c, d, f)) (vars : List Word) (ovr : Bool) : exec (.hartReplyRx m vars ovr) s =
      .next ((s.setModem m.val fun x => { x with busy := none }).lo fun u => { u with
        hartVars := u.hartVars.filter (fun v => !(s.hartGiven d vars ovr).any (fun w => decide (w.1 = v.1))) ++
          s.hartGiven d vars ovr
        hartStale := u.hartStale.filter (fun p => !(s.hartGiven d vars ovr).any (fun w => decide (w.1 = p))) }) := by
  show execHartReplyRx m vars ovr s = _
  simp only [execHartReplyRx, hsearching, hbusy]
  rfl

/-- No reply within 400 ms: two retries, then the device is absent (14 R645). -/
theorem exec_hartReplyTimeout_device {m : Fin 2} {c d f : Nat} {s : State} (hsearching : (s.modem m.val).searching = none)
    (hbusy : (s.modem m.val).busy = some (c, d, f)) {t : Nat} (hlate : (s.modem m.val).sentAt + 400000000 ≤ max s.now t) :
    exec (.hartReplyTimeout m t) s = .next (if f < 2 then
      ((s.at t).bump (F.AIO_HART_RETRIES m.val) 1).hartSend m.val c d (f + 1) else (s.at t).hartAbsent m.val d) := by
  have hs : ((s.at t).modem m.val).searching = none := hsearching
  have hb : ((s.at t).modem m.val).busy = some (c, d, f) := hbusy
  have hl : ¬ (s.at t).now < ((s.at t).modem m.val).sentAt + 400000000 := Nat.not_lt.2 hlate
  show execHartReplyTimeout m t s = _
  simp only [execHartReplyTimeout, if_neg hl, hs, hb]

theorem exec_hartReplyTimeout_early {m : Fin 2} {s : State} {t : Nat}
    (hearly : max s.now t < (s.modem m.val).sentAt + 400000000) : exec (.hartReplyTimeout m t) s = .next (s.at t) := by
  have h : (s.at t).now < ((s.at t).modem m.val).sentAt + 400000000 := hearly
  show execHartReplyTimeout m t s = _
  simp only [execHartReplyTimeout, if_pos h]

/-- A sweep that is due, or that is the first (14 R648). -/
theorem exec_hartSweep_due {m : Fin 2} {t : Nat} {s : State} (hpd : s.pd 4 = true)
    (hidle : s.on (F.AIO_HART_SWEEPING m.val) = false)
    (hdue : ∀ a : Nat, (s.modem m.val).sweptAt = some a → a + s.image.localIo.sweepS * 1000000000 ≤ max s.now t) :
    exec (.hartSweep m t) s =
      .next (((s.at t).setModem m.val fun x => { x with sweptAt := some (max s.now t) }).hartSearch m.val) := by
  have hp : (s.at t).pd 4 = true := hpd
  have hi : (s.at t).on (F.AIO_HART_SWEEPING m.val) = false := hidle
  show execHartSweep m t s = _
  simp only [execHartSweep, hp, hi]
  cases hswept : ((s.at t).modem m.val).sweptAt with
  | none => rfl
  | some a =>
    have hd : (s.at t).now ≥ a + (s.at t).image.localIo.sweepS * 1000000000 := hdue a hswept
    dsimp only
    rw [if_neg (by rw [decide_eq_true hd]; decide)]
    rfl

theorem exec_hartSearch (m : Fin 2) (s : State) : exec (.hartSearch m) s =
    .next (if s.on (F.AIO_HART_SWEEPING m.val) then (s.put (F.AIO_HART_RES_BUSY m.val) 1).raise 0xB047 islLocal []
      else if s.pd 4 then s.hartSearch m.val else s) := by rfl

/-! ## Calibration -/

theorem exec_calCommit (s : State) : exec .calCommit s = .next (if s.on F.AIO_CAL_STATUS_BUSY then
    (s.put F.AIO_CAL_STATUS_REFUSED 1).raise 0xB052 islLocal [] else s.calBegin false s.calStaged) := by rfl

theorem State.calWindow_only (s : State) : OnlyRegs s s.calWindow ((List.range 96).map R.AIO_CALW) :=
  OnlyRegs.each (fun _ hi _ ht => OnlyRegs.wrN _ (List.mem_map_of_mem hi) ht) (OnlyRegs.refl s _)

/-- The sequence number of the next set that is written (14 R656). -/
def State.calSeqNext (s : State) : Nat := ((s.calBank.map fun c => ((s.loc.banks[c]?).getD {}).seq).getD 0) + 1

/-- A set from the staging window is written: it is in force, nothing is written any more, and its SEQ is reported (14 R656). -/
theorem State.calDone_staged {s : State} (hroom : s.Room islLocal) (set : Tab Word) :
    (s.calDone false set).get F.AIO_CAL_STATUS_BUSY = 0 ∧ (s.calDone false set).loc = { s.loc with
      banks := s.loc.banks.set s.calTarget { valid := true, seq := s.calSeqNext, words := set }, cal := set, calWrite := none } ∧
    Raises s (s.calDone false set) 0xB051 islLocal (le 4 s.calSeqNext ++ le 4 0) := by
  obtain ⟨u, hu⟩ : ∃ u, u = s.lo fun u => { u with
    banks := u.banks.set s.calTarget { valid := true, seq := s.calSeqNext, words := set }, cal := set, calWrite := none } :=
    ⟨_, rfl⟩
  obtain ⟨v, hv⟩ : ∃ v, v = ((((u.put F.AIO_CAL_STATUS_BUSY 0).put F.AIO_CAL_STATUS_BANK s.calTarget).put
    F.AIO_CAL_STATUS_CAL_NONE 0).put F.DIO_STATUS_CAL_NONE 0).wrN R.AIO_CAL_SEQ s.calSeqNext := ⟨_, rfl⟩
  have hdone : s.calDone false set = v.calWindow.raise 0xB051 islLocal (le 4 s.calSeqNext ++ le 4 0) := by
    rw [hv, hu]
    rfl
  have hbusy : v.get F.AIO_CAL_STATUS_BUSY = 0 := by
    rw [hv, State.get_wrN_ne _ _ (by decide), State.get_put_ne _ _ (.inl (by decide)), State.get_put_ne _ _ (.inr (by decide)),
      State.get_put_ne _ _ (.inr (by decide)), State.get_put_same _ _ (by decide)]
    rfl
  have hwindow := v.calWindow_only
  have hrecd : v.calWindow.recd = s.recd := by
    rw [hwindow.1, hv, hu]
    rfl
  obtain ⟨hraises, hregs⟩ := State.raise_after hroom hrecd 0xB051 (le 4 s.calSeqNext ++ le 4 0)
  rw [hdone]
  refine ⟨?_, ?_, hraises⟩
  · rw [State.get_of_regs hregs, hwindow.get (by decide), hbusy]
  · rw [State.raise_loc, hwindow.1, hv, hu]
    rfl

theorem exec_calWriteComplete {s : State} {ageing : Bool} {set : Tab Word} (hwrite : s.loc.calWrite = some (ageing, set))
    (hage : (s.calDone ageing set).loc.ageWaiting = none) : exec .calWriteComplete s = .next (s.calDone ageing set) := by
  show execCalWriteComplete s = _
  simp only [execCalWriteComplete, hwrite, hage]

/-- Settles O53, command by command: flags of a channel with one rule for their events, a modem's transactions with one rule for
what a transaction changes. -/
theorem analogueAndHart : Obligations.AnalogueAndHart := by
  unfold Obligations.AnalogueAndHart
  refine ⟨?conversion, ?conversionOff, ?outFault, ?miswired, ?wired, ?limit, ?poll, ?pollBusy, ?reply, ?retry, ?absent, ?sweep,
    ?searchBusy, ?search, ?calBusy, ?calBegins, ?calDone, fun m t s h => exec_hartReplyTimeout_early h, ?conversionEarly,
    ?calNothing⟩
  case conversion =>
    intro n ma t s hmode hup hpd hdue
    have hinput : (s.at t).aioInput n.val = true := State.aioInput_of_mode (s := s.at t) hmode
    have hcrossing : (!((s.at t).xing 2).upOut) = true := congrArg not hup
    have haio := (s.at t).aio_setAio_same n.val fun a => { a with
      conv := a.conv ++ [b32Add (b32Mul ma.toNat (s.calWord (2 * n.val))) (s.calWord (2 * n.val + 1))]
      convAt := some (max s.now t), fresh := true }
    rw [exec_analogueConversion, if_pos ⟨hinput, hcrossing, hpd, hdue⟩]
    exact ⟨_, rfl, congrArg AioState.conv haio, congrArg AioState.fresh haio, rfl⟩
  case conversionOff =>
    intro n ma t s hpd
    rw [exec_analogueConversion, if_neg]
    rintro ⟨-, -, hon, -⟩
    exact absurd (hpd.symm.trans hon) (by decide)
  case conversionEarly =>
    intro n ma t s hearly
    rw [exec_analogueConversion, if_neg]
    rintro ⟨-, -, -, hdue⟩
    exact hearly (of_decide_eq_true (Bool.and_eq_true _ _ ▸ hdue).1)
  case outFault =>
    intro n s hmode hpd hclear hroom
    rw [exec_analogueOutFault, if_neg (by simp [hmode, hpd]), if_pos (by simp [hclear])]
    exact ⟨_, rfl, State.flag_raise hroom (f := F.AIO_FLAGS_OUT_FAULT n.val) (by simp [F.AIO_FLAGS_OUT_FAULT]) rfl _⟩
  case limit =>
    intro n s hsupply hpd hclear hroom
    rw [exec_loopSupplyLimit, if_neg (by simp [hsupply, hpd]), if_pos (by simp [hclear])]
    exact ⟨_, rfl, State.flag_raise hroom (f := F.AIO_FLAGS_SUPPLY_LIMIT n.val) (by simp [F.AIO_FLAGS_SUPPLY_LIMIT]) rfl _⟩
  case miswired =>
    intro n s hinput hpd hroom
    obtain ⟨u, hu⟩ : ∃ u, u = s.setAio n.val fun a => { a with
      miswire := (1 : Fin 3).val = 1, reversed := (1 : Fin 3).val = 2 } := ⟨_, rfl⟩
    have haio : u.aio n.val = { s.aio n.val with miswire := true, reversed := false } := by
      rw [hu]
      exact s.aio_setAio_same n.val _
    have hsame : u.regs = s.regs ∧ u.recd = s.recd := by
      rw [hu]
      exact ⟨rfl, rfl⟩
    obtain ⟨hregs, hrecd⟩ := hsame
    obtain ⟨hraises, hraised⟩ := State.raise_after (t := u.put (F.AIO_FLAGS_MISWIRE n.val) 1) hroom hrecd 0xB040 (le 1 n.val)
    rw [exec_analogueMiswire, if_neg (by simp [hinput, hpd]), if_neg (by decide), ← hu]
    refine ⟨_, rfl, ?aio, ?flag, hraises, ?regs⟩
    case aio =>
      rw [State.aio, State.raise_loc]
      exact congrArg AioState.miswire haio
    case flag =>
      rw [State.get_of_regs hraised, State.get_put_same _ _ (by simp [F.AIO_FLAGS_MISWIRE])]
      rfl
    case regs =>
      exact SameRegs.of_regs hraised (SameRegs.put 1 (List.mem_singleton.2 rfl) (SameRegs.of_regs hregs (SameRegs.refl s _)))
  case wired =>
    intro n s hinput hpd
    have haio := s.aio_setAio_same n.val fun a => { a with miswire := (0 : Fin 3).val = 1, reversed := (0 : Fin 3).val = 2 }
    rw [exec_analogueMiswire, if_neg (by simp [hinput, hpd]), if_pos (by decide)]
    exact ⟨_, rfl, congrArg AioState.miswire haio, congrArg AioState.reversed haio, rfl⟩
  case poll =>
    intro m c d t l s hpd hbusy hsearching hround hc
    obtain ⟨u, hu⟩ : ∃ u, u = (s.at t).setModem m.val fun x => { x with round := l } := ⟨_, rfl⟩
    have hround' : (u.modem m.val).round = l := by
      rw [hu]
      exact congrArg ModemState.round (State.modem_setModem ..)
    have hsame : u.regs = s.regs ∧ u.out = s.out ∧ u.hartDev d = s.hartDev d := by
      rw [hu]
      exact ⟨rfl, rfl, rfl⟩
    obtain ⟨hregs, hout, hdev⟩ := hsame
    obtain ⟨hmodem, hsent, hchannel, honly, -⟩ := u.hartSend_spec m.val d 0 hc
    rw [exec_hartPoll_next hpd hbusy hsearching hround, ← hu]
    refine ⟨_, rfl, congrArg ModemState.busy hmodem, (congrArg ModemState.round hmodem).trans hround', ?_, hchannel,
      fun o ho => (honly o ho).trans (congrArg (tget 0 · o) hregs)⟩
    rw [hsent, hout, hdev]
  case pollBusy => exact fun m t s h => exec_hartPoll_busy h t
  case reply =>
    intro m vars ovr c d f s hsearching hbusy
    rw [exec_hartReplyRx_device hsearching hbusy]
    refine ⟨_, rfl, congrArg ModemState.busy (s.modem_setModem m.val fun x => { x with busy := none }), rfl, rfl, rfl, ?_⟩
    exact fun v p l hvars hnvar hpoint => List.mem_append_right _ (State.hartGiven_first hvars hnvar hpoint ovr)
  case retry =>
    intro m c d f t s hsearching hbusy hlate hf hc
    obtain ⟨hmodem, hsent, -, -, hretries⟩ :=
      ((s.at t).bump (F.AIO_HART_RETRIES m.val) 1).hartSend_spec m.val d (f + 1) hc
    rw [exec_hartReplyTimeout_device hsearching hbusy hlate, if_pos hf]
    exact ⟨_, rfl, congrArg ModemState.busy hmodem,
      hretries.trans (State.get_bump_same (s.at t) 1 (by simp [F.AIO_HART_RETRIES])), hsent⟩
  case absent =>
    intro m c d f t s hsearching hbusy hlate hf hroom
    rw [exec_hartReplyTimeout_device hsearching hbusy hlate, if_neg (Nat.not_lt.2 hf)]
    exact ⟨_, rfl, State.hartAbsent_spec (s := s.at t) hroom m.val d⟩
  case sweep =>
    intro m t s hpd hidle hdue
    obtain ⟨hsearch, hrecd, hregs⟩ :=
      ((s.at t).setModem m.val fun x => { x with sweptAt := some (max s.now t) }).hartSearch_spec m.val
    rw [exec_hartSweep_due hpd hidle hdue]
    exact ⟨_, rfl, hsearch, hregs, hrecd⟩
  case searchBusy =>
    intro m s hsweeping hroom
    obtain ⟨hraises, hregs⟩ :=
      State.raise_after (t := s.put (F.AIO_HART_RES_BUSY m.val) 1) hroom rfl 0xB047 []
    rw [exec_hartSearch, if_pos hsweeping]
    refine ⟨_, rfl, ?_, hraises, State.raise_loc .., SameRegs.of_regs hregs (SameRegs.put 1 (List.mem_singleton.2 rfl)
      (SameRegs.refl s _))⟩
    rw [State.get_of_regs hregs, State.get_put_same _ _ (by simp [F.AIO_HART_RES_BUSY])]
    rfl
  case search =>
    intro m s hpd hidle
    obtain ⟨hsearch, hrecd, -⟩ := s.hartSearch_spec m.val
    rw [exec_hartSearch, if_neg (by simp [hidle]), if_pos hpd]
    exact ⟨_, rfl, hsearch, hrecd⟩
  case calBusy =>
    intro s hbusy hroom
    obtain ⟨hraises, hregs⟩ := State.raise_after (t := s.put F.AIO_CAL_STATUS_REFUSED 1) hroom rfl 0xB052 []
    rw [exec_calCommit, if_pos hbusy]
    refine ⟨_, rfl, ?_, hraises, State.raise_loc .., SameRegs.of_regs hregs (SameRegs.put 1 (by decide) (SameRegs.refl s _))⟩
    rw [State.get_of_regs hregs, State.get_put_same _ _ (by decide)]
    rfl
  case calBegins =>
    intro s hidle hhold
    rw [exec_calCommit, if_neg (by simp [hidle]), State.calBegin, if_neg (by simp [hhold])]
    exact ⟨_, rfl, State.on_putB_same _ true (by decide) rfl, rfl, rfl,
      SameRegs.put 1 (by decide) (SameRegs.of_regs rfl (SameRegs.refl s _))⟩
  case calDone =>
    intro set s hwrite hage hroom
    obtain ⟨hbusy, hloc, hraises⟩ := State.calDone_staged hroom set
    rw [exec_calWriteComplete hwrite (by rw [hloc]; exact hage)]
    exact ⟨_, rfl, hbusy, by rw [hloc], by rw [hloc], hraises⟩
  case calNothing =>
    intro s hwrite
    show execCalWriteComplete s = _
    simp only [execCalWriteComplete, hwrite]

end Sys2Proof.Machine
end

section
/-! A module that stands at S0 after a restart (00 R18, 16 R717), and operations on a list of items one after the other. -/
namespace Sys2Proof.Machine

/-! ## S0 -/

theorem getBits_causeAfter (w : Word) {c : Nat} (hc : c < 16) : getBits (causeAfter w c) 0 4 = c := by
  rw [causeAfter, getBits_putBits _ _ (by decide)]
  exact Nat.mod_eq_of_lt hc

/-- A register that a loss of every domain but PD0 sets to its reset value. -/
theorem State.cleared_rd (s : State) {o : Nat} (h : o ≠ R.IMG_STRAP ∧ o ≠ R.MOD_CTL) : s.cleared.rd o = tget 0 resetRegs o :=
  (State.rd_put_ne _ _ h.2.symm).trans (State.rd_wr_ne _ _ h.1.symm)

theorem State.cleared_get (s : State) {f : Fld} (h : f.off ≠ R.IMG_STRAP ∧ f.off ≠ R.MOD_CTL) :
    s.cleared.get f = getBits (tget 0 resetRegs f.off) f.lo f.len := by
  rw [State.get, s.cleared_rd h]

theorem State.latchAll_nv (s : State) : s.latchAll.nv = s.nv := rfl
theorem State.latchAll_img (s : State) : s.latchAll.img = s.img := rfl
theorem State.latchAll_mem (s : State) : s.latchAll.mem = s.mem := rfl
theorem State.latchAll_get (s : State) (f : Fld) : s.latchAll.get f = s.get f := rfl

/-- The module at S0 shows the cause of its restart, whatever it is cleared from. -/
theorem State.restarted_of_cleared {v : State} {c : Nat} (hc : c < 16) (hstage : v.get F.MOD_STATUS_STAGE = 0)
    (hrole : v.role = 0) (himg : v.img = none) (hmem : v.mem = []) :
    ({ v with nv := { v.nv with causeWord := causeAfter v.nv.causeWord c }
              pwr := { v.pwr with restartNote := true } } : State).showNv.latchAll.Restarted c := by
  obtain ⟨u, hu⟩ : ∃ u : State, u = { v with
      nv := { v.nv with causeWord := causeAfter v.nv.causeWord c }, pwr := { v.pwr with restartNote := true } } := ⟨_, rfl⟩
  have hregs : u.regs = v.regs := by rw [hu]
  rw [← hu]
  refine ⟨?cause, ?stage, ?role, ?img, ?mem⟩
  case cause =>
    rw [State.latchAll_nv, State.showNv_nv, hu]
    exact getBits_causeAfter _ hc
  case stage =>
    rw [State.latchAll_get, (State.showNv_only u).get (by decide), State.get_of_regs hregs, hstage]
  case role =>
    rw [State.role, State.latchAll_get, ← State.role, State.showNv_role, State.role, State.get_of_regs hregs]
    exact hrole
  case img =>
    rw [State.latchAll_img, State.showNv_eq, hu]
    exact himg
  case mem =>
    rw [State.latchAll_mem, State.showNv_eq, hu]
    exact hmem

theorem State.cleared_stage (s : State) : s.cleared.get F.MOD_STATUS_STAGE = 0 := by
  rw [State.cleared_get _ (by decide)]
  decide

theorem State.cleared_role (s : State) : s.cleared.role = 0 := by
  rw [State.role, State.cleared_get _ (by decide)]
  decide

theorem State.beginS0_restarted (s : State) {c : Nat} (hc : c < 16) : (s.beginS0 c).Restarted c :=
  by
  rw [State.beginS0]
  exact State.restarted_of_cleared hc s.cleared_stage s.cleared_role rfl rfl

theorem State.restart_restarted (s : State) {c : Nat} (hc : c < 16) : (s.restart c).Restarted c :=
  State.beginS0_restarted _ hc

/-! ## Items one after the other -/

/-- What every step keeps in relation to the state before it, the whole run keeps. -/
theorem State.each_related {α : Type} {K : State → State → Prop} {f : State → α → State} {l : List α}
    (hrefl : ∀ t, K t t) (htrans : ∀ {t u v}, K t u → K u v → K t v) (hstep : ∀ x ∈ l, ∀ t, K t (f t x)) (s : State) :
    K s (s.each l f) := by
  unfold State.each
  induction l generalizing s with
  | nil => exact hrefl s
  | cons x l ih =>
    exact htrans (hstep x (List.mem_cons_self ..) s) (ih (fun y hy => hstep y (List.mem_cons_of_mem _ hy)) (f s x))

/-- An item that stands once in the list has its turn between others. -/
theorem State.each_turn {α : Type} {l : List α} {x : α} (hx : x ∈ l) (hnodup : l.Nodup) (f : State → α → State) (s : State) :
    ∃ l₁ l₂, s.each l f = (f (s.each l₁ f) x).each l₂ f ∧ (∀ y ∈ l₁, y ∈ l ∧ y ≠ x) ∧ ∀ y ∈ l₂, y ∈ l ∧ y ≠ x := by
  obtain ⟨l₁, l₂, rfl⟩ := List.append_of_mem hx
  obtain ⟨-, htail, hapart⟩ := List.nodup_append.1 hnodup
  refine ⟨l₁, l₂, ?_, fun y hy => ⟨List.mem_append_left _ hy, hapart y hy x (List.mem_cons_self ..)⟩, fun y hy =>
    ⟨List.mem_append_right _ (List.mem_cons_of_mem _ hy), ?_⟩⟩
  · simp only [State.each, List.foldl_append, List.foldl_cons]
  · rintro rfl
    exact (List.nodup_cons.1 htail).1 hy

end Sys2Proof.Machine
end

section
/-! Digital inputs (14 R615 to R618). -/
namespace Sys2Proof.Machine

/-- What the reading of one input leaves of another one `i`, and of the rest of the module. -/
structure DiKept (i : Nat) (s u : State) : Prop where
  di : u.di i = s.di i
  bit : (u.rd R.DIO_IN).getLsbD i = (s.rd R.DIO_IN).getLsbD i
  cal : u.loc.cal = s.loc.cal
  img : u.img = s.img
  mem : u.mem = s.mem

theorem DiKept.refl (i : Nat) (s : State) : DiKept i s s := ⟨rfl, rfl, rfl, rfl, rfl⟩

theorem DiKept.trans {i : Nat} {s t u : State} (h : DiKept i s t) (h' : DiKept i t u) : DiKept i s u :=
  ⟨h'.di.trans h.di, h'.bit.trans h.bit, h'.cal.trans h.cal, h'.img.trans h.img, h'.mem.trans h.mem⟩

/-- A raise leaves every input. -/
theorem DiKept.raise (i : Nat) (s : State) (code : Nat) (data : List Byte) : DiKept i s (s.raise code islLocal data) :=
  ⟨congrArg (fun l : LocalState => tget ({} : DiState) l.di i) (State.raise_loc s ..), congrArg (·.getLsbD i) (State.rd_raise _ _ _ _ (by decide) (by decide)),
    congrArg LocalState.cal (State.raise_loc ..), State.raise_img .., State.raise_mem ..⟩

/-- The state of an input after a reading (14 R617, R618). -/
def State.diNext (s : State) (i : Nat) (mv : Int) (t : Nat) : DiState :=
  let c := diClass mv (s.trim i false) (s.trim i true) (s.diRec i).wbEn
  let k := (s.di i).step (s.diRec i).filterN c
  { c := k.1, st := k.2, cls := c, started := true, read := true, hist := ((t, k.2, c) :: (s.di i).hist).take 4 }

/-- A reading before its events: the input's state, and its bits of the three registers. -/
def State.diNoted (s : State) (i : Nat) (mv : Int) (t : Nat) : State :=
  let d := s.diNext i mv t
  (((s.lo fun u => { u with di := tset {} u.di i d }).bitSet R.DIO_IN i d.st).bitSet R.DIO_WB i
    (decide (d.cls = .wireBreak))).bitSet R.DIO_UNC i (decide (d.cls = .uncertain))

theorem State.diNoted_di (s : State) (i j : Nat) (mv : Int) (t : Nat) :
    (s.diNoted j mv t).di i = if j = i then s.diNext j mv t else s.di i :=
  tget_tset ({} : DiState) s.loc.di j i (s.diNext j mv t)

theorem State.diNoted_rd (s : State) (j : Nat) (mv : Int) (t : Nat) : (s.diNoted j mv t).rd R.DIO_IN =
    ((s.lo fun u => { u with di := tset {} u.di j (s.diNext j mv t) }).bitSet R.DIO_IN j (s.diNext j mv t).st).rd R.DIO_IN :=
  (State.rd_put_ne _ _ (show R.DIO_UNC ≠ R.DIO_IN by decide)).trans (State.rd_put_ne _ _ (show R.DIO_WB ≠ R.DIO_IN by decide))

/-- The events of a reading change no input. -/
theorem State.diRead_noted (s : State) (i j : Nat) (mv : Int) (t : Nat) : DiKept i (s.diNoted j mv t) (s.diRead j mv t) := by
  obtain ⟨u, hu⟩ : ∃ u, u = s.diNoted j mv t := ⟨_, rfl⟩
  have hread : s.diRead j mv t =
      let c := (s.diNext j mv t).cls
      let v := if (s.di j).read ∧ c = .wireBreak ∧ (s.di j).cls ≠ .wireBreak then u.raise 0xB001 islLocal (le 1 j)
        else if (s.di j).read ∧ c ≠ .wireBreak ∧ (s.di j).cls = .wireBreak then u.raise 0xB002 islLocal [] else u
      if c = .uncertain then v.raise 0xB003 islLocal [] else v := by
    rw [hu]
    rfl
  have hbreak : DiKept i u (if (s.di j).read ∧ (s.diNext j mv t).cls = .wireBreak ∧ (s.di j).cls ≠ .wireBreak then
      u.raise 0xB001 islLocal (le 1 j)
      else if (s.di j).read ∧ (s.diNext j mv t).cls ≠ .wireBreak ∧ (s.di j).cls = .wireBreak then u.raise 0xB002 islLocal []
      else u) := by
    split
    · exact DiKept.raise i u _ _
    · split
      · exact DiKept.raise i u _ _
      · exact DiKept.refl i u
  rw [hread, ← hu]
  dsimp only
  split
  · exact hbreak.trans (DiKept.raise i _ _ _)
  · exact hbreak

theorem State.diRead_other (s : State) {i j : Nat} (hi : i < 32) (hj : j ≠ i) (mv : Int) (t : Nat) :
    DiKept i s (s.diRead j mv t) := by
  refine DiKept.trans (t := s.diNoted j mv t) ⟨?di, ?bit, rfl, rfl, rfl⟩ (s.diRead_noted i j mv t)
  case di => rw [State.diNoted_di, if_neg hj]
  case bit =>
    rw [State.diNoted_rd, State.bitSet, State.put, State.rd_wr_same, putBits_getLsbD _ _ _ _ _ hi, if_neg (by dsimp only; omega)]
    rfl

theorem State.diRead_own (s : State) {i : Nat} (hi : i < 32) (mv : Int) (t : Nat) :
    (s.diRead i mv t).di i = s.diNext i mv t ∧ ((s.diRead i mv t).rd R.DIO_IN).getLsbD i = (s.diNext i mv t).st := by
  have hkept := s.diRead_noted i i mv t
  refine ⟨hkept.di.trans ?_, hkept.bit.trans ?_⟩
  · rw [State.diNoted_di, if_pos rfl]
  · rw [State.diNoted_rd]
    exact State.setBit_getLsbD _ _ _ hi

/-- The readings of all inputs: each moves its own (14 R617). -/
theorem State.diReads (s : State) (mv : Nat → Int) (t : Nat) {i : Nat} (hi : i < 32) : ∃ u : State, DiKept i s u ∧
    (s.each (List.range 32) fun u j => u.diRead j (mv j) t).di i = u.diNext i (mv i) t ∧
    ((s.each (List.range 32) fun u j => u.diRead j (mv j) t).rd R.DIO_IN).getLsbD i = (u.diNext i (mv i) t).st ∧
    (s.each (List.range 32) fun u j => u.diRead j (mv j) t).mem = s.mem := by
  have hmem : (s.each (List.range 32) fun u j => u.diRead j (mv j) t).mem = s.mem :=
    State.each_related (K := fun s u => u.mem = s.mem) (fun _ => rfl) (fun h h' => h'.trans h)
      (fun j _ u => (u.diRead_noted j j (mv j) t).mem) s
  obtain ⟨l₁, l₂, heach, hbefore, hafter⟩ :=
    State.each_turn (List.mem_range.2 hi) List.nodup_range (fun u j => u.diRead j (mv j) t) s
  have hothers : ∀ l : List Nat, (∀ y ∈ l, y ∈ List.range 32 ∧ y ≠ i) → ∀ u : State,
      DiKept i u (u.each l fun u j => u.diRead j (mv j) t) := fun l hl u =>
    State.each_related (DiKept.refl i) DiKept.trans (fun j hj u => u.diRead_other hi (hl j hj).2 (mv j) t) u
  obtain ⟨hown, hbit⟩ := (s.each l₁ fun u j => u.diRead j (mv j) t).diRead_own hi (mv i) t
  have hlater := hothers l₂ hafter ((s.each l₁ fun u j => u.diRead j (mv j) t).diRead i (mv i) t)
  refine ⟨_, hothers l₁ hbefore s, ?_, ?_, hmem⟩
  · rw [heach]
    exact hlater.di.trans hown
  · rw [heach]
    exact hlater.bit.trans hbit

theorem State.diNext_congr {i : Nat} {s u : State} (h : DiKept i s u) (mv : Int) (t : Nat) :
    u.diNext i mv t = s.diNext i mv t := by
  have hrec : u.diRec i = s.diRec i := by rw [State.diRec, State.image, h.img, State.diRec, State.image]
  have htrim : ∀ b, u.trim i b = s.trim i b := fun b => by
    rw [State.trim, State.calWord, h.cal, State.trim, State.calWord]
  rw [State.diNext, hrec, h.di, htrim, htrim, State.diNext]

theorem exec_diSample (mv : List Int) (t : Nat) (s : State) : exec (.diSample mv t) s =
    .next (if !s.pd 2 ∨ (s.xing 0).upOut ∨ max s.now t % 50000 ≠ 0 ∨
      (s.di 0).hist.any (fun e => decide (e.1 = max s.now t)) then s.at t else
      let s1 := (s.at t).each (List.range 32) fun u i => u.diRead i ((mv[i]?).getD 0) (max s.now t)
      (s1.setXing 0 fun x => { x with waitSample := false }).putB F.DIO_STATUS_WIRE_BREAK (decide (s1.rd R.DIO_WB ≠ 0))) := by
  rfl

theorem DiState.step_on {d : DiState} (hstarted : d.started = true) (n : Nat) :
    d.step n .on = (min n (d.c + 1), if min n (d.c + 1) = n then true else d.st) := by
  unfold DiState.step
  rw [if_pos hstarted]

theorem DiState.step_off {d : DiState} (hstarted : d.started = true) (n : Nat) :
    d.step n .off = (min n d.c - 1, if min n d.c - 1 = 0 then false else d.st) := by
  unfold DiState.step
  rw [if_pos hstarted]

theorem DiState.step_uncertain {d : DiState} (hstarted : d.started = true) (n : Nat) :
    d.step n .uncertain = (min d.c n, d.st) := by
  unfold DiState.step
  rw [if_pos hstarted]

/-- The filtered state that a counter at N or at 0 sets (14 R617). -/
theorem exec_diFilterStateChange_high {i : Fin 32} {s : State} (hstarted : (s.di i.val).started = true)
    (hfull : (s.diRec i.val).filterN ≤ (s.di i.val).c) : exec (.diFilterStateChange i) s =
      .next ((s.lo fun u => { u with di := tset {} u.di i.val { s.di i.val with st := true } }).bitSet R.DIO_IN i.val true) := by
  have hset : (s.di i.val).started = true ∧ (s.di i.val).c ≥ (s.diRec i.val).filterN := ⟨hstarted, hfull⟩
  show execDiFilterStateChange i s = _
  simp only [execDiFilterStateChange, if_pos hset]

end Sys2Proof.Machine
end

section
/-! Outputs and trips (14 R624 to R636). -/
namespace Sys2Proof.Machine

/-! ## Bits of masks -/

theorem testBit_foldl_lor {α : Type} (f : α → Nat) (l : List α) (a i : Nat) :
    (l.foldl (fun m x => Nat.lor m (f x)) a).testBit i = (a.testBit i || l.any fun x => (f x).testBit i) := by
  induction l generalizing a with
  | nil => simp
  | cons x l ih =>
    rw [List.foldl_cons, ih, List.any_cons, ← Bool.or_assoc]
    congr 1
    exact Nat.testBit_or a (f x) i

theorem testBit_below_65536 (x i : Nat) : (x % 65536).testBit i = (decide (i < 16) && x.testBit i) :=
  Nat.testBit_mod_two_pow x 16 i

/-- The bits of a 16-bit mask that another one leaves free. -/
theorem testBit_free16 (x i : Nat) : (65535 - x % 65536).testBit i = (decide (i < 16) && !x.testBit i) := by
  have hlt : x % 65536 < 2 ^ 16 := Nat.mod_lt _ (by decide)
  have hsub : 65535 - x % 65536 = 2 ^ 16 - (x % 65536 + 1) := by omega
  rw [hsub, Nat.testBit_two_pow_sub_succ hlt, testBit_below_65536]
  cases decide (i < 16) <;> simp

/-! ## What the field sides drive -/

theorem State.doWord_lt (s : State) : s.doWord < 65536 := by
  have hbase : (if (s.doRec 15).pps then s.loc.doImage % 2 ^ 15 + (if s.loc.ppsHigh then 2 ^ 15 else 0)
      else s.loc.doImage % 2 ^ 16) < 65536 := by
    split_ifs <;> omega
  unfold State.doWord
  dsimp only
  split
  · exact Nat.lt_of_le_of_lt Nat.and_le_left hbase
  · decide

/-- The outputs that a latched trip masks are not driven (14 R631). -/
theorem State.doWord_masked {s : State} {n : Nat} (hn : n < 4) (hlatched : bitOf (s.get F.DIO_TRIP_LATCH) n = true) :
    Nat.land s.doWord (s.tripRec n).doMask = 0 := by
  refine Nat.eq_of_testBit_eq fun i => ?_
  have hlow : s.doWord.testBit i = true → i < 16 := fun h => by
    by_contra hi
    rw [Nat.testBit_lt_two_pow (Nat.lt_of_lt_of_le s.doWord_lt (Nat.pow_le_pow_right (show 0 < 2 by decide) (Nat.not_lt.1 hi)))] at h
    cases h
  have hfree : s.doWord.testBit i = true → (s.tripRec n).doMask.testBit i = false := fun h => by
    have hi := hlow h
    unfold State.doWord at h
    dsimp only at h
    split at h
    · have hbits := (Nat.testBit_and _ _ _).symm.trans h
      rw [testBit_free16, State.tripDo, testBit_foldl_lor] at hbits
      simp only [hi, decide_true, Bool.true_and, Nat.zero_testBit, Bool.false_or, Bool.and_eq_true, Bool.not_eq_true',
        List.any_eq_false] at hbits
      exact Bool.eq_false_iff.2 (hbits.2 n (List.mem_filter.2 ⟨List.mem_range.2 hn, hlatched⟩))
    · simp at h
  show (s.doWord &&& (s.tripRec n).doMask).testBit i = _
  rw [Nat.testBit_and, Nat.zero_testBit]
  cases h : s.doWord.testBit i
  · rfl
  · rw [hfree h]; rfl

/-- Nothing but the state of the analogue channels and the registers of a list differs. -/
def LocOnly (l : List Nat) (s u : State) : Prop :=
  u = { s with regs := u.regs, loc := { s.loc with aio := u.loc.aio } } ∧ SameRegs s u l

theorem LocOnly.refl (l : List Nat) (s : State) : LocOnly l s s := ⟨rfl, SameRegs.refl s l⟩

theorem LocOnly.trans {l : List Nat} {s t u : State} (h : LocOnly l s t) (h' : LocOnly l t u) : LocOnly l s u := by
  refine ⟨?_, h.2.trans h'.2⟩
  have hu := h'.1
  rw [h.1] at hu
  exact hu

/-- A change of a channel that leaves its command leaves the command of every channel. -/
theorem State.cmd_setAio (s : State) (c n : Nat) {f : AioState → AioState} (hf : ∀ a, (f a).cmd = a.cmd) :
    ((s.setAio c f).aio n).cmd = (s.aio n).cmd := by
  by_cases hc : c = n
  · rw [← hc, s.aio_setAio_same]
    exact hf _
  · rw [s.aio_setAio_ne _ hc]

theorem State.aoDrive_only (s : State) (l : List Nat) : LocOnly l s s.aoDrive ∧ s.aoDrive.regs = s.regs ∧
    ∀ n, (s.aoDrive.aio n).cmd = (s.aio n).cmd := by
  unfold State.aoDrive
  refine State.each_related (K := fun s u => LocOnly l s u ∧ u.regs = s.regs ∧ ∀ n, (u.aio n).cmd = (s.aio n).cmd)
    (fun s => ⟨LocOnly.refl l s, rfl, fun _ => rfl⟩)
    (fun h h' => ⟨h.1.trans h'.1, h'.2.1.trans h.2.1, fun n => (h'.2.2 n).trans (h.2.2 n)⟩) (fun c _ t => ?_) s
  dsimp only
  exact ⟨⟨rfl, fun _ _ => rfl⟩, rfl, fun n => t.cmd_setAio c n fun _ => rfl⟩

theorem State.doDrive_only (s : State) : OnlyRegs s s.doDrive [R.DIO_OUT, R.DIO_STATUS] :=
  OnlyRegs.putB _ (by decide) (OnlyRegs.put _ (by decide) (OnlyRegs.refl s _))

theorem State.doDrive_driven (s : State) :
    s.doDrive.get F.DIO_OUT_DRIVEN = if (s.xing 1).downOut then 0 else s.doWord := by
  unfold State.doDrive
  rw [State.putB, State.get_put_ne _ _ (.inl (by decide)), State.get_put_same _ _ (by decide)]
  split
  · rfl
  · exact Nat.mod_eq_of_lt s.doWord_lt

/-- Of DIO_STATUS the outputs show RELEASED alone (14 R628). -/
theorem State.doDrive_status (s : State) {f : Fld} (hoff : f.off = R.DIO_STATUS)
    (h : f.lo + f.len ≤ 9 ∨ 10 ≤ f.lo ∧ f.lo + f.len ≤ 32) : s.doDrive.get f = s.get f := by
  unfold State.doDrive
  rw [State.putB, State.get_put_ne _ _ (.inr (by simp only [F.DIO_STATUS_RELEASED]; omega)),
    State.get_put_ne _ _ (.inl (by rw [hoff]; decide))]

/-- The outputs after a change: registers DIO_OUT and DIO_STATUS, and the state of the analogue channels. -/
theorem State.outputsFollow_only (s : State) : LocOnly [R.DIO_OUT, R.DIO_STATUS] s s.outputsFollow ∧
    ∀ f, s.outputsFollow.get f = s.doDrive.get f := by
  have hao := s.doDrive.aoDrive_only [R.DIO_OUT, R.DIO_STATUS]
  have hdo := s.doDrive_only
  exact ⟨LocOnly.trans ⟨hdo.1, hdo.2⟩ hao.1, fun f => State.get_of_regs hao.2.1 f⟩

/-! ## Trips -/

theorem State.bit_get_bitSet (s : State) {f : Fld} {i : Nat} (b : Bool) (hlo : f.lo + f.len ≤ 32) (hi : i < f.len) :
    bitOf ((s.bitSet f.off (f.lo + i) b).get f) i = b := by
  rw [bitOf, State.get, getBits_testBit, decide_eq_true hi, Bool.true_and]
  have hbit : f.lo + i < 32 := by omega
  exact s.setBit_getLsbD f.off b hbit

theorem State.get_bitSet_ne (s : State) {f : Fld} {o i : Nat} (b : Bool)
    (h : o ≠ f.off ∨ (f.lo + f.len ≤ 32 ∧ (i + 1 ≤ f.lo ∨ f.lo + f.len ≤ i))) : (s.bitSet o i b).get f = s.get f :=
  State.get_put_ne s _ h

/-- Another bit of a register than the one that was set or cleared. -/
theorem State.bitSet_bit_ne (s : State) {o i j : Nat} (b : Bool) (hj : j < 32) (h : i ≠ j) :
    ((s.bitSet o i b).rd o).getLsbD j = (s.rd o).getLsbD j := by
  rw [State.bitSet, State.put, State.rd_wr_same, putBits_getLsbD _ _ _ _ _ hj, if_neg (by dsimp only; omega)]

theorem exec_tripInputChange (n : Fin 4) (active : Bool) (t : Nat) (s : State) : exec (.tripInputChange n active t) s =
    .next (if !s.pd 2 then s.at t else
      if active then ((s.at t).bitSet R.DIO_TRIP (4 + n.val) active).tripLatch n.val t
      else ((s.at t).bitSet R.DIO_TRIP (4 + n.val) active).setTrip n.val fun x => { x with inactiveSince := t }) := by rfl

/-- The latch of a trip that was clear sets: it shows, the outputs that it masks are off, and the event tells (14 R631). -/
theorem State.tripLatch_clear {s : State} {n : Nat} (hn : n < 4) (hclear : bitOf (s.get F.DIO_TRIP_LATCH) n = false)
    (hroom : s.Room islLocal) (t : Nat) : bitOf ((s.tripLatch n t).get F.DIO_TRIP_LATCH) n = true ∧
      (s.tripLatch n t).get F.DIO_TRIP_INPUT = s.get F.DIO_TRIP_INPUT ∧ (s.tripLatch n t).get F.DIO_STATUS_TRIPPED = 1 ∧
      Nat.land ((s.tripLatch n t).get F.DIO_OUT_DRIVEN) (s.tripRec n).doMask = 0 ∧
      Raises s (s.tripLatch n t) 0xB020 islLocal (le 1 n) ∧
      SameRegs s (s.tripLatch n t) [R.DIO_TRIP, R.DIO_STATUS, R.DIO_OUT] := by
  obtain ⟨u, hu⟩ : ∃ u, u = ((s.bitSet R.DIO_TRIP n true).put F.DIO_STATUS_TRIPPED 1).setTrip n fun x => { x with setAt := t } :=
    ⟨_, rfl⟩
  have hlatch : s.tripLatch n t = (u.raise 0xB020 islLocal (le 1 n)).outputsFollow := by
    rw [State.tripLatch, if_neg (by rw [hclear]; decide), hu]
  have huregs : u.regs = ((s.bitSet R.DIO_TRIP n true).put F.DIO_STATUS_TRIPPED 1).regs := by rw [hu]; rfl
  have hurecd : u.recd = s.recd := by rw [hu]; rfl
  have huimg : u.img = s.img := by rw [hu]; rfl
  obtain ⟨hraises, hregs⟩ := State.raise_after hroom hurecd 0xB020 (le 1 n)
  obtain ⟨w, hw⟩ : ∃ w, w = u.raise 0xB020 islLocal (le 1 n) := ⟨_, rfl⟩
  rw [← hw] at hlatch hraises hregs
  obtain ⟨honly, hget⟩ := w.outputsFollow_only
  have hwget : ∀ f, w.get f = ((s.bitSet R.DIO_TRIP n true).put F.DIO_STATUS_TRIPPED 1).get f := fun f =>
    (State.get_of_regs hregs f).trans (State.get_of_regs huregs f)
  have hset : bitOf (w.get F.DIO_TRIP_LATCH) n = true := by
    rw [hwget, State.get_put_ne _ _ (.inl (by decide))]
    have hbit := s.bit_get_bitSet (f := F.DIO_TRIP_LATCH) (i := n) true (by decide) hn
    rwa [show F.DIO_TRIP_LATCH.lo + n = n from Nat.zero_add n] at hbit
  have himage : w.tripRec n = s.tripRec n := by
    rw [State.tripRec, State.image, hw, State.raise_img, huimg, State.tripRec, State.image]
  rw [hlatch]
  refine ⟨?latch, ?input, ?tripped, ?driven, Raises.of_recd ?recd hraises, ?regs⟩
  case latch => rw [hget, w.doDrive_only.get (by decide), hset]
  case input =>
    rw [hget, w.doDrive_only.get (by decide), hwget, State.get_put_ne _ _ (.inl (by decide)),
      State.get_bitSet_ne _ _ (.inr ⟨by decide, .inl (by simp only [F.DIO_TRIP_INPUT]; omega)⟩)]
  case tripped =>
    rw [hget, w.doDrive_status rfl (by decide), hwget, State.get_put_same _ _ (by decide)]
    rfl
  case driven =>
    rw [hget, w.doDrive_driven, ← himage]
    split
    · exact Nat.zero_and _
    · exact State.doWord_masked hn hset
  case recd => rw [honly.1]
  case regs =>
    refine SameRegs.trans (t := w) (SameRegs.of_regs (hregs.trans huregs) (SameRegs.put 1 (by decide)
      (SameRegs.put _ (show R.DIO_TRIP ∈ [R.DIO_TRIP, R.DIO_STATUS, R.DIO_OUT] by decide) (SameRegs.refl s _)))) (honly.2.mono (by decide))

/-- What the pending clear of one trip leaves of another one `n`, and of the rest of the module. -/
structure TripKept (n : Nat) (s u : State) : Prop where
  trip : u.trip n = s.trip n
  bit : (u.rd R.DIO_TRIP).getLsbD (12 + n) = (s.rd R.DIO_TRIP).getLsbD (12 + n)

/-- A clear of trips that is pending (14 R635). -/
theorem State.tripPend_spec (s : State) {mask n : Nat} (b : Nat) (hn : n < 4) (hmask : bitOf mask n = true) :
    ((s.tripPend mask b).trip n).clearAt = some b ∧ bitOf ((s.tripPend mask b).get F.DIO_TRIP_CLR_PENDING) n = true := by
  have hstep : ∀ t : State, ∀ c < 4, c ≠ n →
      TripKept n t ((t.setTrip c fun x => { x with clearAt := some b }).bitSet R.DIO_TRIP (12 + c) true) := fun t c hc hcn =>
    ⟨tget_tset_ne _ _ _ hcn, State.bitSet_bit_ne _ _ (by omega) (by omega)⟩
  obtain ⟨l₁, l₂, heach, -, hafter⟩ := State.each_turn (List.mem_filter.2 ⟨List.mem_range.2 hn, hmask⟩)
    (List.nodup_range.filter _) (fun u c => (u.setTrip c fun x => { x with clearAt := some b }).bitSet R.DIO_TRIP (12 + c) true) s
  have hlater := State.each_related (K := TripKept n) (l := l₂) (fun _ => ⟨rfl, rfl⟩)
    (fun h h' => ⟨h'.trip.trans h.trip, h'.bit.trans h.bit⟩)
    (fun c hc t => hstep t c (List.mem_range.1 (List.mem_filter.1 (hafter c hc).1).1) (hafter c hc).2)
  rw [State.tripPend, heach]
  refine ⟨?clearAt, ?pending⟩
  case clearAt =>
    rw [(hlater _).trip]
    exact congrArg TripState.clearAt (State.trip_setTrip ..)
  case pending =>
    rw [bitOf, State.get, getBits_testBit, decide_eq_true (show n < F.DIO_TRIP_CLR_PENDING.len from hn), Bool.true_and]
    refine (hlater _).bit.trans ?_
    have hbit : 12 + n < 32 := by omega
    exact State.setBit_getLsbD _ _ _ hbit

/-- What a pending clear leaves: only DIO_TRIP differs, and not the latches in it. -/
structure LatchKept (s u : State) : Prop where
  out : u.out = s.out
  latch : u.get F.DIO_TRIP_LATCH = s.get F.DIO_TRIP_LATCH
  regs : SameRegs s u [R.DIO_TRIP]

theorem State.tripPend_keeps (s : State) (mask b : Nat) : LatchKept s (s.tripPend mask b) := by
  unfold State.tripPend
  refine State.each_related (K := LatchKept) (fun s => ⟨rfl, rfl, SameRegs.refl s _⟩)
    (fun h h' => ⟨h'.out.trans h.out, h'.latch.trans h.latch, h.regs.trans h'.regs⟩) (fun c _ t => ?_) s
  refine ⟨rfl, ?_, ?_⟩
  · exact State.get_bitSet_ne _ _ (.inr ⟨by decide, .inr (by simp only [F.DIO_TRIP_LATCH]; omega)⟩)
  · exact SameRegs.put _ (List.mem_singleton.2 rfl) (SameRegs.of_regs rfl (SameRegs.refl t _))

theorem exec_dioTripClr (m : Fin 16) (t : Nat) (s : State) : exec (.dioTripClr m t) s = .next (if s.isActive then
      (if ((s.at t).tripPend m.val (boundaryAfter (max s.now t) 4)).exchanging then
        ((s.at t).tripPend m.val (boundaryAfter (max s.now t) 4)).send (.tripClear m.val (boundaryAfter (max s.now t) 4))
      else (s.at t).tripPend m.val (boundaryAfter (max s.now t) 4))
    else s.at t) := by rfl

theorem exec_tripClearRx (m : Fin 16) (b : Nat) (s : State) : exec (.tripClearRx m b) s =
    .next (if s.isStandby then s.tripPend m.val b else s) := by rfl

theorem exec_doGroupFaultChange (g : Fin 2) (fault : Bool) (s : State) : exec (.doGroupFaultChange g fault) s =
    .next (if bitOf (s.get F.DIO_STATUS_DO_FAULT) g.val = fault ∨ !s.pd 3 then s
    else if fault then
      ((s.bitSet R.DIO_STATUS (5 + g.val) true).put F.DIO_STATUS_DO_FAULT_SEEN 1).raise 0xB010 islLocal (le 1 g.val)
    else (s.bitSet R.DIO_STATUS (5 + g.val) false).raise 0xB011 islLocal []) := by rfl

end Sys2Proof.Machine
end

section
/-! Crossings (14 R621 to R623, R627, R640). -/
namespace Sys2Proof.Machine

/-! ## The output channels take their source values (14 R640) -/

/-- An output channel takes its source value. -/
def State.aoTake (t : State) (c : Nat) : State :=
  match (t.aio c).source with
  | none => t
  | some v =>
    let t1 := t.setAio c fun a => { a with source := none }
    if (v / 2 ^ 23) % 256 = 255 then
      if t1.on (F.AIO_FLAGS_AO_HOLD c) then t1 else (t1.put (F.AIO_FLAGS_AO_HOLD c) 1).raise 0xB042 islLocal []
    else ((t1.setAio c fun a => { a with cmd := b32Limit v }).wrN (R.AIO_VALUE c) (b32Limit v)).put (F.AIO_FLAGS_AO_HOLD c) 0

theorem State.aoImage_eq (s : State) : s.aoImage = s.each (List.range 8) State.aoTake := by rfl

theorem State.aoTake_none {t : State} {c : Nat} (h : (t.aio c).source = none) : t.aoTake c = t := by
  simp only [State.aoTake, h]

/-- The last value is held where the source is infinite or not a number. -/
theorem State.aoTake_held {t : State} {c v : Nat} (h : (t.aio c).source = some v) (hexp : v / 2 ^ 23 % 256 = 255) : t.aoTake c =
    if (t.setAio c fun a => { a with source := none }).on (F.AIO_FLAGS_AO_HOLD c) then t.setAio c fun a => { a with source := none }
    else ((t.setAio c fun a => { a with source := none }).put (F.AIO_FLAGS_AO_HOLD c) 1).raise 0xB042 islLocal [] := by
  simp only [State.aoTake, h, if_pos hexp]

theorem State.aoTake_value {t : State} {c v : Nat} (h : (t.aio c).source = some v) (hexp : v / 2 ^ 23 % 256 ≠ 255) : t.aoTake c =
    (((t.setAio c fun a => { a with source := none }).setAio c fun a => { a with cmd := b32Limit v }).wrN (R.AIO_VALUE c)
      (b32Limit v)).put (F.AIO_FLAGS_AO_HOLD c) 0 := by
  simp only [State.aoTake, h, if_neg hexp]

/-- What every step of a crossing frame leaves. -/
structure CrossKept (s u : State) : Prop where
  out : u.out = s.out
  mem : u.mem = s.mem
  blocks : u.loc.blocks = s.loc.blocks

theorem CrossKept.trans {s t u : State} (h : CrossKept s t) (h' : CrossKept t u) : CrossKept s u :=
  ⟨h'.out.trans h.out, h'.mem.trans h.mem, h'.blocks.trans h.blocks⟩

theorem State.aoTake_kept (t : State) (c : Nat) : CrossKept t (t.aoTake c) := by
  cases hsource : (t.aio c).source with
  | none =>
    rw [State.aoTake_none hsource]
    exact ⟨rfl, rfl, rfl⟩
  | some v =>
    by_cases hexp : v / 2 ^ 23 % 256 = 255
    · rw [State.aoTake_held hsource hexp]
      split
      · exact ⟨rfl, rfl, rfl⟩
      · exact ⟨State.raise_out .., State.raise_mem .., (congrArg LocalState.blocks (State.raise_loc ..)).trans rfl⟩
    · rw [State.aoTake_value hsource hexp]
      exact ⟨rfl, rfl, rfl⟩

/-- What the turn of one output channel leaves of another one `n`. -/
structure AoKept (n : Nat) (s u : State) : Prop where
  aio : u.aio n = s.aio n
  value : u.rd (R.AIO_VALUE n) = s.rd (R.AIO_VALUE n)
  flags : u.rd (R.AIO_FLAGS n) = s.rd (R.AIO_FLAGS n)

theorem AoKept.trans {n : Nat} {s t u : State} (h : AoKept n s t) (h' : AoKept n t u) : AoKept n s u :=
  ⟨h'.aio.trans h.aio, h'.value.trans h.value, h'.flags.trans h.flags⟩

theorem AoKept.raise (n : Nat) (s : State) (code : Nat) (data : List Byte) : AoKept n s (s.raise code islLocal data) := by
  refine ⟨congrArg (fun l : LocalState => tget ({} : AioState) l.aio n) (State.raise_loc s ..), ?_, ?_⟩
  · exact State.rd_raise _ _ _ _ (by simp only [R.AIO_VALUE, F.EVT_COUNTS_LOST]; omega)
      (by simp only [R.AIO_VALUE, F.EVT_STATUS_LOST]; omega)
  · exact State.rd_raise _ _ _ _ (by simp only [R.AIO_FLAGS, F.EVT_COUNTS_LOST]; omega)
      (by simp only [R.AIO_FLAGS, F.EVT_STATUS_LOST]; omega)

theorem AoKept.setAio {n c : Nat} (hc : c ≠ n) (s : State) (f : AioState → AioState) : AoKept n s (s.setAio c f) :=
  ⟨s.aio_setAio_ne f hc, rfl, rfl⟩

/-- A register of another channel. -/
theorem AoKept.wr {n c : Nat} (hc : c ≠ n) (s : State) {o : Nat} (ho : o = R.AIO_VALUE c ∨ o = R.AIO_FLAGS c) (w : Word) :
    AoKept n s (s.wr o w) := by
  have hvalue : o ≠ R.AIO_VALUE n := by
    simp only [R.AIO_VALUE, R.AIO_FLAGS] at ho ⊢
    omega
  have hflags : o ≠ R.AIO_FLAGS n := by
    simp only [R.AIO_VALUE, R.AIO_FLAGS] at ho ⊢
    omega
  exact ⟨rfl, State.rd_wr_ne s w hvalue, State.rd_wr_ne s w hflags⟩

theorem State.aoTake_other (t : State) {n c : Nat} (hc : c ≠ n) : AoKept n t (t.aoTake c) := by
  have hflags : ∀ (u : State) (v : Nat), AoKept n u (u.put (F.AIO_FLAGS_AO_HOLD c) v) := fun u v => AoKept.wr hc u (.inr rfl) _
  cases hsource : (t.aio c).source with
  | none =>
    rw [State.aoTake_none hsource]
    exact ⟨rfl, rfl, rfl⟩
  | some v =>
    by_cases hexp : v / 2 ^ 23 % 256 = 255
    · rw [State.aoTake_held hsource hexp]
      split
      · exact AoKept.setAio hc t _
      · exact ((AoKept.setAio hc t _).trans (hflags _ 1)).trans (AoKept.raise n _ _ _)
    · rw [State.aoTake_value hsource hexp]
      exact (((AoKept.setAio hc t _).trans (AoKept.setAio hc _ _)).trans (AoKept.wr hc _ (.inl rfl) _)).trans (hflags _ 0)

/-- The source value of a channel is its command, and shows (14 R640). -/
theorem State.aoImage_value {s : State} {n v : Nat} (hn : n < 8) (hsource : (s.aio n).source = some v)
    (hexp : v / 2 ^ 23 % 256 ≠ 255) : (s.aoImage.aio n).cmd = b32Limit v ∧
      s.aoImage.rdN (R.AIO_VALUE n) = b32Limit v % 2 ^ 32 ∧ s.aoImage.on (F.AIO_FLAGS_AO_HOLD n) = false := by
  obtain ⟨l₁, l₂, heach, hbefore, hafter⟩ := State.each_turn (List.mem_range.2 hn) List.nodup_range State.aoTake s
  have hothers : ∀ l : List Nat, (∀ y ∈ l, y ∈ List.range 8 ∧ y ≠ n) → ∀ u : State, AoKept n u (u.each l State.aoTake) :=
    fun l hl u => State.each_related (K := AoKept n) (fun _ => ⟨rfl, rfl, rfl⟩) AoKept.trans (fun c hc t => t.aoTake_other (hl c hc).2) u
  obtain ⟨w, hw⟩ : ∃ w, w = s.each l₁ State.aoTake := ⟨_, rfl⟩
  have hturn : (w.aio n).source = some v := by
    rw [hw, (hothers l₁ hbefore s).aio]
    exact hsource
  have hlater := hothers l₂ hafter (w.aoTake n)
  have htake := State.aoTake_value hturn hexp
  rw [State.aoImage_eq, heach, ← hw]
  refine ⟨?cmd, ?value, ?hold⟩
  case cmd =>
    rw [hlater.aio, htake]
    exact congrArg AioState.cmd (State.aio_setAio_same _ n fun a => { a with cmd := b32Limit v })
  case value =>
    rw [State.rdN, hlater.value, htake, State.rd_put_ne _ _ (by simp [F.AIO_FLAGS_AO_HOLD, R.AIO_VALUE]), State.wrN,
      State.rd_wr_same, BitVec.toNat_ofNat]
  case hold =>
    have hflags : ((w.aoTake n).each l₂ State.aoTake).get (F.AIO_FLAGS_AO_HOLD n) = (w.aoTake n).get (F.AIO_FLAGS_AO_HOLD n) :=
      congrArg (getBits · 3 1) hlater.flags
    rw [State.on, hflags, htake, State.get_put_same _ _ (by simp [F.AIO_FLAGS_AO_HOLD])]
    rfl

/-! ## Downward frames -/

/-- What a block has at its downward frame (14 R627, R640). -/
def State.crossShown (s : State) (b : Nat) : State :=
  match b with
  | 0 => s
  | 1 => s.doDrive
  | _ => s.aoImage.aoDrive

/-- The downward frame of a block is sent (14 R621). -/
def State.crossSent (s : State) (b : Nat) : State :=
  (s.setXing b fun x => { x with downSeq := ((s.xing b).downSeq + 1) % 256 }).send
    (.crossing b (crossFrame (s.xing b).downSeq (Config.crossingPayload b (s.crossDown b))))

theorem exec_crossingFrameTx (b : Fin 3) (t : Nat) (s : State) : exec (.crossingFrameTx b t) s =
    .next (if !s.pd (2 + b.val) ∨ max s.now t % 10000 ≠ 0 then s.at t else ((s.at t).crossShown b.val).crossSent b.val) := by
  rfl

theorem State.crossShown_kept (s : State) (b : Nat) : CrossKept s (s.crossShown b) := by
  unfold State.crossShown
  split
  · exact ⟨rfl, rfl, rfl⟩
  · exact ⟨rfl, rfl, rfl⟩
  · have hdrive := (s.aoImage.aoDrive_only []).1.1
    have himage : CrossKept s s.aoImage := by
      rw [State.aoImage_eq]
      exact State.each_related (K := CrossKept) (fun _ => ⟨rfl, rfl, rfl⟩) CrossKept.trans (fun c _ t => t.aoTake_kept c) s
    exact himage.trans ⟨by rw [hdrive], by rw [hdrive], by rw [hdrive]⟩

/-- The frame carries the number that was due, and the next one follows (14 R621). -/
theorem State.crossSent_spec (s : State) (b : Nat) :
    (∃ p, (s.crossSent b).out = s.out ++ [.crossing b (crossFrame (s.xing b).downSeq p)]) ∧
    ((s.crossSent b).xing b).downSeq = ((s.xing b).downSeq + 1) % 256 :=
  ⟨⟨_, rfl⟩, congrArg CrossState.downSeq
    (s.xing_setXing b fun x => { x with downSeq := ((s.xing b).downSeq + 1) % 256 })⟩

theorem State.crossShown_analogue (s : State) : s.crossShown (2 : Fin 3).val = s.aoImage.aoDrive := by rfl

theorem State.crossSent_aio (s : State) (b n : Nat) : (s.crossSent b).aio n = s.aio n := by rfl

theorem State.crossSent_regs (s : State) (b : Nat) : (s.crossSent b).regs = s.regs := by rfl

theorem State.rd_of_regs {s t : State} (h : t.regs = s.regs) (o : Nat) : t.rd o = s.rd o := congrArg (tget 0 · o) h

/-! ## Upward frames and timeouts -/

theorem exec_crossingFrameRx_bad {b : Fin 3} {f : List Byte} {s : State} (hpd : s.pd (2 + b.val) = true)
    (hbad : crossGood f = none) (t : Nat) : exec (.crossingFrameRx b true f t) s = .next ((s.at t).xingBad b.val) := by
  have hp : (s.at t).pd (2 + b.val) = true := hpd
  show execCrossingFrameRx b true f t s = _
  simp only [execCrossingFrameRx, hp, hbad]
  rfl

theorem exec_crossingFrameRx_good {b : Fin 3} {f : List Byte} {q : Nat} {s : State} (hpd : s.pd (2 + b.val) = true)
    (hgood : crossGood f = some q) (t : Nat) : exec (.crossingFrameRx b true f t) s = .next ((s.at t).xingUp b.val q) := by
  have hp : (s.at t).pd (2 + b.val) = true := hpd
  show execCrossingFrameRx b true f t s = _
  simp only [execCrossingFrameRx, hp, hgood]
  rfl

/-- A good frame with the number that is due (14 R621). -/
theorem State.xingUp_due {s : State} {b q : Nat} (hout : (s.xing b).upOut = false) (hdue : (s.xing b).upSeq = some q) :
    s.xingUp b q = (s.setXing b fun x => { x with upSeq := some ((q + 1) % 256), upOut := false, upAt := s.now }).bitSet
      R.DIO_STATUS b true := by
  simp [State.xingUp, hout, hdue, skips]

theorem exec_crossingTimeout (b : Fin 3) (up : Bool) (t : Nat) (s : State) : exec (.crossingTimeout b up t) s =
    .next (if !s.pd (2 + b.val) ∨ (if up then (s.xing b.val).upOut else (s.xing b.val).downOut) ∨
        max s.now t < (if up then (s.xing b.val).upAt else (s.xing b.val).downAt) + 50000 then s.at t
      else (s.at t).xingTimeout b.val up) := by rfl

/-- The inputs of a block after a timeout, before the digital inputs start again (14 R622). -/
def State.upLost (s : State) (b : Nat) : State :=
  (s.setXing b fun x => { x with upOut := true, upSeq := none, waitSample := true }).bitSet R.DIO_STATUS b false

theorem State.xingTimeout_inputs (s : State) : s.xingTimeout 0 true =
    (((s.bump F.DIO_XING_TIMEOUTS 1).raise 0xB030 islLocal (le 1 0 ++ le 4 1)).upLost 0).lo fun u =>
      { u with di := u.di.map fun e => (e.1, { e.2 with started := false, hist := [] }) } := by
  unfold State.xingTimeout State.upLost
  simp [b2n]

theorem State.xingTimeout_outputs {s : State} (hactive : s.isActive = true) : (s.xingTimeout 1 false).Restarted 6 := by
  obtain ⟨u, hu⟩ : ∃ u, u = (((s.bump F.DIO_XING_TIMEOUTS 1).raise 0xB030 islLocal (le 1 1 ++ le 4 0)).setXing 1 fun x =>
    { x with downOut := true, downExp := none, good := 0 }) := ⟨_, rfl⟩
  have hregs : u.regs = ((s.bump F.DIO_XING_TIMEOUTS 1).raise 0xB030 islLocal (le 1 1 ++ le 4 0)).regs := by rw [hu]; rfl
  have hrole : u.outputsFollow.role = s.role := by
    rw [State.role, u.outputsFollow_only.2, u.doDrive_only.get (by decide), State.get_of_regs hregs,
      State.get_raise _ _ _ _ (by decide) (by decide), State.bump, State.get_put_ne _ _ (.inl (by decide)), State.role]
  have htimeout : s.xingTimeout 1 false = if u.outputsFollow.isActive then u.outputsFollow.restart 6 else u.outputsFollow := by
    rw [hu]
    unfold State.xingTimeout
    simp [b2n]
  rw [htimeout, if_pos (by rw [State.isActive, hrole]; exact hactive)]
  exact State.restart_restarted _ (by decide)

/-- Settles O52, command by command: every reading moves its own input, a trip's outputs are masked where they are driven, and a
pending clear, a source value and a frame each reach the item that they name. -/
theorem digitalIo : Obligations.DigitalIo := by
  unfold Obligations.DigitalIo
  refine ⟨?sample, ?noSample, ?counter, ?filter, ?frame, ?outputs, ?bad, ?good,
    ?timeout, ?lost, ?early, ?group, ?trips, ?released, ?clears, ?noClear, ?partner, ?source, ?offBeat, ?noPartner⟩
  case sample =>
    intro mv t i s hpd hup hbeat hfirst
    have hruns : ¬((!s.pd 2) = true ∨ (s.xing 0).upOut = true ∨ max s.now t % 50000 ≠ 0 ∨
        ((s.di 0).hist.any fun e => decide (e.1 = max s.now t)) = true) := by
      simp [hpd, hup, hbeat, hfirst]
    obtain ⟨u, hkept, hdi, hbit, hmem⟩ := (s.at t).diReads (fun j => (mv[j]?).getD 0) (max s.now t) i.isLt
    have hsame : DiKept i.val s u := ⟨hkept.di, hkept.bit, hkept.cal, hkept.img, hkept.mem⟩
    have hnext := State.diNext_congr hsame ((mv[i.val]?).getD 0) (max s.now t)
    rw [exec_diSample, if_neg hruns]
    dsimp only
    obtain ⟨w, hw⟩ : ∃ w, w = (s.at t).each (List.range 32) fun u j => u.diRead j ((mv[j]?).getD 0) (max s.now t) := ⟨_, rfl⟩
    rw [← hw] at hdi hbit hmem ⊢
    rw [hnext] at hdi hbit
    refine ⟨_, rfl, ?c, ?bit, ?started, hmem⟩
    case c => exact congrArg DiState.c hdi
    case bit =>
      rw [State.putB, State.rd_put_ne _ _ (by decide)]
      exact hbit.trans (congrArg DiState.st hdi).symm
    case started => exact congrArg DiState.started hdi
  case noSample =>
    intro mv t s hnot
    have hidle : (!s.pd 2) = true ∨ (s.xing 0).upOut = true ∨ max s.now t % 50000 ≠ 0 ∨
        ((s.di 0).hist.any fun e => decide (e.1 = max s.now t)) = true := by
      rcases hnot with hpd | hup | hbeat
      · exact .inl (by rw [hpd]; rfl)
      · exact .inr (.inl hup)
      · exact .inr (.inr (.inl hbeat))
    rw [exec_diSample, if_pos hidle]
  case counter =>
    intro d n hstarted hn hc
    rw [DiState.step_on hstarted, DiState.step_off hstarted, DiState.step_uncertain hstarted, Nat.min_eq_right hc,
      Nat.min_eq_left hc]
    exact ⟨rfl, fun h => if_pos h, rfl, fun h => if_pos h, rfl⟩
  case filter =>
    intro i s hstarted hfull
    rw [exec_diFilterStateChange_high hstarted hfull]
    refine ⟨_, rfl, congrArg DiState.st (tget_tset_same ..), State.setBit_getLsbD _ _ _ i.isLt, ?_, fun j hj => ?_⟩
    · exact SameRegs.put _ (List.mem_singleton.2 rfl) (SameRegs.of_regs rfl (SameRegs.refl s _))
    · exact State.bitSet_bit_ne _ true j.isLt fun h => hj (Fin.ext h.symm)
  case frame =>
    intro b t s hpd hbeat
    have hkept := (s.at t).crossShown_kept b.val
    have hxing : ((s.at t).crossShown b.val).xing b.val = s.xing b.val := by rw [State.xing, hkept.blocks]; rfl
    obtain ⟨⟨p, hout⟩, hseq⟩ := ((s.at t).crossShown b.val).crossSent_spec b.val
    rw [exec_crossingFrameTx, if_neg (by simp [hpd, hbeat])]
    refine ⟨_, rfl, ⟨p, ?_⟩, ?_, hkept.mem, fun hb => ?_⟩
    · rw [hout, hxing, hkept.out]
      rfl
    · rw [hseq, hxing]
    · obtain h0 | h1 : b = 0 ∨ b = 1 := by omega
      · subst h0
        exact ⟨rfl, SameRegs.refl s _⟩
      · subst h1
        exact ⟨rfl, SameRegs.of_regs rfl ((s.at t).doDrive_only).2⟩
  case outputs =>
    intro t s hpd hbeat hdown
    have hon : ((s.at t).xing 1).downOut = false := hdown
    rw [exec_crossingFrameTx, if_neg (by simp [hpd, hbeat])]
    refine ⟨_, rfl, ((s.at t).doDrive_driven).trans ?_⟩
    rw [hon]
    rfl
  case bad =>
    intro f t s hpd hbad
    rw [exec_crossingFrameRx_bad (b := 0) hpd hbad]
    exact ⟨_, rfl, State.get_bump_same (s.at t) (f := F.DIO_XING_DI_BAD) 1 (by decide),
      OnlyRegs.bump (f := F.DIO_XING_DI_BAD) 1 (by decide) (OnlyRegs.refl (s.at t) _)⟩
  case good =>
    intro b q f t s hpd hgood hup hdue
    have hxing := (s.at t).xing_setXing b.val fun x => { x with upSeq := some ((q + 1) % 256), upOut := false, upAt := max s.now t }
    rw [exec_crossingFrameRx_good hpd hgood, State.xingUp_due (s := s.at t) hup hdue]
    refine ⟨_, rfl, congrArg CrossState.upSeq hxing, congrArg CrossState.upAt hxing, ?_, rfl, ?_⟩
    · have hbit := State.bit_get_bitSet ((s.at t).setXing b.val fun x =>
        { x with upSeq := some ((q + 1) % 256), upOut := false, upAt := max s.now t }) (f := F.DIO_STATUS_XING_OK) (i := b.val) true
        (by decide) b.isLt
      rwa [show F.DIO_STATUS_XING_OK.lo + b.val = b.val from Nat.zero_add _] at hbit
    · exact SameRegs.put _ (List.mem_singleton.2 rfl) (SameRegs.of_regs rfl (SameRegs.refl s _))
  case timeout =>
    intro t s hpd hup hlate hroom
    obtain ⟨hcount, hraises, -, hregs⟩ := State.bump_raise (s := s.at t) (f := F.DIO_XING_TIMEOUTS) (isl := islLocal) 1 0xB030
      (le 1 0 ++ le 4 1) (by decide) hroom
    obtain ⟨w, hw⟩ : ∃ w, w = ((s.at t).bump F.DIO_XING_TIMEOUTS 1).raise 0xB030 islLocal (le 1 0 ++ le 4 1) := ⟨_, rfl⟩
    have hruns : ¬((!s.pd (2 + (0 : Fin 3).val)) = true ∨
        (if true then (s.xing (0 : Fin 3).val).upOut else (s.xing (0 : Fin 3).val).downOut) = true ∨
        max s.now t < (if true then (s.xing (0 : Fin 3).val).upAt else (s.xing (0 : Fin 3).val).downAt) + 50000) := by
      rintro (h | h | h)
      · exact absurd (congrArg not hpd ▸ h) (by decide)
      · exact absurd (hup.symm.trans h) (by decide)
      · exact absurd h (Nat.not_lt.2 hlate)
    rw [exec_crossingTimeout, if_neg hruns, show (0 : Fin 3).val = 0 from rfl, State.xingTimeout_inputs, ← hw]
    rw [← hw] at hcount hraises hregs
    refine ⟨_, rfl, ?out, ?ok, ?counted, ?raised, ?regs⟩
    case out =>
      exact congrArg CrossState.upOut (w.xing_setXing 0 fun x => { x with upOut := true, upSeq := none, waitSample := true })
    case ok => exact State.bit_get_bitSet _ (f := F.DIO_STATUS_XING_OK) (i := 0) false (by decide) (by decide)
    case counted => exact (State.get_put_ne _ _ (.inl (by decide))).trans hcount
    case raised => exact Raises.of_recd rfl hraises
    case regs =>
      exact SameRegs.trans (t := w) (hregs.mono (by decide))
        (SameRegs.of_regs rfl (SameRegs.put _ (by decide) (SameRegs.of_regs rfl (SameRegs.refl w _))))
  case lost =>
    intro t s hpd hdown hlate hactive
    have hruns : ¬((!s.pd (2 + (1 : Fin 3).val)) = true ∨
        (if false then (s.xing (1 : Fin 3).val).upOut else (s.xing (1 : Fin 3).val).downOut) = true ∨
        max s.now t < (if false then (s.xing (1 : Fin 3).val).upAt else (s.xing (1 : Fin 3).val).downAt) + 50000) := by
      rintro (h | h | h)
      · exact absurd (congrArg not hpd ▸ h) (by decide)
      · exact absurd (hdown.symm.trans h) (by decide)
      · exact absurd h (Nat.not_lt.2 hlate)
    rw [exec_crossingTimeout, if_neg hruns]
    obtain ⟨hcause, -, hrole, himg, -⟩ := State.xingTimeout_outputs (s := s.at t) hactive
    exact ⟨_, rfl, hcause, hrole, himg⟩
  case early =>
    intro b t s hnot
    rw [exec_crossingTimeout, if_pos]
    rcases hnot with hup | hearly
    · exact .inr (.inl hup)
    · exact .inr (.inr hearly)
  case group =>
    intro g s hpd hclear hroom
    obtain ⟨hraises, hregs⟩ := State.raise_after (t := (s.bitSet R.DIO_STATUS (5 + g.val) true).put F.DIO_STATUS_DO_FAULT_SEEN 1)
      hroom rfl 0xB010 (le 1 g.val)
    rw [exec_doGroupFaultChange, if_neg (by simp [hclear, hpd]), if_pos rfl]
    refine ⟨_, rfl, ?bit, ?seen, hraises, ?only⟩
    case bit =>
      rw [State.get_of_regs hregs, State.get_put_ne _ _ (.inr (by decide))]
      exact s.bit_get_bitSet (f := F.DIO_STATUS_DO_FAULT) true (by decide) g.isLt
    case seen =>
      rw [State.get_of_regs hregs, State.get_put_same _ _ (by decide)]
      rfl
    case only =>
      exact SameRegs.of_regs hregs (SameRegs.put 1 (by decide) (SameRegs.put _ (List.mem_singleton.2 rfl) (SameRegs.refl s _)))
  case trips =>
    intro n t s hpd hclear hroom
    obtain ⟨u, hu⟩ : ∃ u, u = (s.at t).bitSet R.DIO_TRIP (4 + n.val) true := ⟨_, rfl⟩
    have hinput : bitOf (u.get F.DIO_TRIP_INPUT) n.val = true := by
      rw [hu]
      exact (s.at t).bit_get_bitSet (f := F.DIO_TRIP_INPUT) true (by decide) n.isLt
    have hstill : bitOf (u.get F.DIO_TRIP_LATCH) n.val = false := by
      rw [hu, State.get_bitSet_ne _ _ (.inr ⟨by decide, .inr (by simp only [F.DIO_TRIP_LATCH]; omega)⟩)]
      exact hclear
    have hrecd : u.recd = s.recd := by rw [hu]; rfl
    have hregs : SameRegs s u [R.DIO_TRIP, R.DIO_STATUS, R.DIO_OUT] := by
      rw [hu]
      exact SameRegs.put _ (show R.DIO_TRIP ∈ [R.DIO_TRIP, R.DIO_STATUS, R.DIO_OUT] by decide)
        (SameRegs.of_regs rfl (SameRegs.refl s _))
    have htrip : u.tripRec n.val = s.tripRec n.val := by rw [hu]; rfl
    have huroom : u.Room islLocal := by rwa [State.Room, hrecd]
    obtain ⟨hlatch, hkeeps, htripped, hdriven, hraises, honly⟩ := State.tripLatch_clear n.isLt hstill huroom t
    rw [exec_tripInputChange, if_neg (by simp [hpd]), if_pos rfl, ← hu]
    refine ⟨_, rfl, hlatch, (congrArg (bitOf · n.val) hkeeps).trans hinput, htripped, htrip ▸ hdriven, ?_, hregs.trans honly⟩
    rwa [Raises, ← hrecd]
  case released =>
    intro n t s hpd
    rw [exec_tripInputChange, if_neg (by simp [hpd]), if_neg (by decide)]
    refine ⟨_, rfl, ?level, ?kept, congrArg TripState.inactiveSince (State.trip_setTrip ..), rfl, ?only⟩
    case level => exact (s.at t).bit_get_bitSet (f := F.DIO_TRIP_INPUT) false (by decide) n.isLt
    case kept =>
      exact (s.at t).get_bitSet_ne (f := F.DIO_TRIP_LATCH) false
        (.inr ⟨by decide, .inr (by simp only [F.DIO_TRIP_LATCH]; omega)⟩)
    case only => exact SameRegs.put (t := s.at t) _ (List.mem_singleton.2 rfl) (SameRegs.of_regs rfl (SameRegs.refl s _))
  case clears =>
    intro m t n s hactive hmask
    obtain ⟨hclear, hpending⟩ := (s.at t).tripPend_spec (boundaryAfter (max s.now t) 4) n.isLt hmask
    have hkept := (s.at t).tripPend_keeps m.val (boundaryAfter (max s.now t) 4)
    rw [exec_dioTripClr, if_pos hactive]
    refine ⟨_, rfl, ?_⟩
    split
    · exact ⟨hclear, hpending, hkept.latch, hkept.regs⟩
    · exact ⟨hclear, hpending, hkept.latch, hkept.regs⟩
  case noClear =>
    intro m t s hactive
    rw [exec_dioTripClr, if_neg (by simp [hactive])]
  case partner =>
    intro m b n s hstandby hmask
    obtain ⟨hclear, hpending⟩ := s.tripPend_spec b n.isLt hmask
    have hkept := s.tripPend_keeps m.val b
    rw [exec_tripClearRx, if_pos hstandby]
    exact ⟨_, rfl, hclear, hpending, hkept.out, hkept.regs⟩
  case noPartner =>
    intro m b s hstandby
    rw [exec_tripClearRx, if_neg (by simp [hstandby])]
  case source =>
    intro n v t s hpd hbeat hsource hexp
    obtain ⟨hcmd, hvalue, hhold⟩ := State.aoImage_value (s := s.at t) n.isLt hsource hexp
    obtain ⟨-, hregs, hkeeps⟩ := (s.at t).aoImage.aoDrive_only []
    obtain ⟨w, hw⟩ : ∃ w, w = (s.at t).aoImage.aoDrive := ⟨_, rfl⟩
    rw [← hw] at hregs hkeeps
    rw [exec_crossingFrameTx, if_neg (by simp [hpd, hbeat]), State.crossShown_analogue, ← hw]
    refine ⟨_, rfl, ?_, ?_, ?_⟩
    · rw [State.crossSent_aio, hkeeps, hcmd]
    · rw [State.rdN, State.rd_of_regs (w.crossSent_regs _), State.rd_of_regs hregs]
      exact hvalue
    · rw [State.on_of_regs (w.crossSent_regs _), State.on_of_regs hregs, hhold]
  case offBeat =>
    intro b t s hbeat
    rw [exec_crossingFrameTx, if_pos (.inr hbeat)]

end Sys2Proof.Machine
end

section
/-! Rules of the CAN channels: their parts, their counters, and what a frame leaves of the rest (15). -/
namespace Sys2Proof.Machine

/-! ## Parts of a channel -/

theorem State.canCh_setCan_same (s : State) (c : Nat) (k : CanState) : (s.setCan c k).canCh c = k := tget_tset_same ..

theorem CanState.buf_setBuf_same (k : CanState) (b : Nat) (f : CanBufState) : (k.setBuf b f).buf b = f := tget_tset_same ..

theorem CanState.buf_setBuf_ne (k : CanState) {b d : Nat} (f : CanBufState) (h : b ≠ d) : (k.setBuf b f).buf d = k.buf d :=
  tget_tset_ne _ _ _ h

theorem State.canCh_of_can {s t : State} (h : t.can = s.can) (c : Nat) : t.canCh c = s.canCh c := by
  rw [State.canCh, h, State.canCh]

theorem State.canRec_of_img {s t : State} (h : t.img = s.img) (c : Nat) : t.canRec c = s.canRec c := by
  rw [State.canRec, State.image, h, State.canRec, State.image]

/-! ## Registers of a channel -/

/-- The register of a channel that shows the controller's counters, and its status: neither differs. -/
structure CanQuiet (c : Nat) (s u : State) : Prop where
  err : u.rd (R.CAN_ERR c) = s.rd (R.CAN_ERR c)
  status : u.rd (R.CAN_STATUS c) = s.rd (R.CAN_STATUS c)

theorem CanQuiet.refl (c : Nat) (s : State) : CanQuiet c s s := ⟨rfl, rfl⟩

theorem CanQuiet.trans {c : Nat} {s t u : State} (h : CanQuiet c s t) (h' : CanQuiet c t u) : CanQuiet c s u :=
  ⟨h'.err.trans h.err, h'.status.trans h.status⟩

theorem CanQuiet.of_regs {c : Nat} {s u : State} (h : u.regs = s.regs) : CanQuiet c s u :=
  ⟨State.rd_of_regs h _, State.rd_of_regs h _⟩

theorem CanQuiet.of_same {c : Nat} {s u : State} {l : List Nat} (h : SameRegs s u l) (herr : R.CAN_ERR c ∉ l)
    (hstatus : R.CAN_STATUS c ∉ l) : CanQuiet c s u := ⟨h _ herr, h _ hstatus⟩

/-- A channel's register is none of the recorder's. -/
theorem CanQuiet.raise {c : Nat} (hc : c < 4) (s : State) (code isl : Nat) (data : List Byte) : CanQuiet c s (s.raise code isl data) :=
  ⟨State.rd_raise _ _ _ _ (by simp only [R.CAN_ERR, F.EVT_COUNTS_LOST]; omega)
      (by simp only [R.CAN_ERR, F.EVT_STATUS_LOST]; omega),
    State.rd_raise _ _ _ _ (by simp only [R.CAN_STATUS, F.EVT_COUNTS_LOST]; omega)
      (by simp only [R.CAN_STATUS, F.EVT_STATUS_LOST]; omega)⟩

theorem CanQuiet.bump {c : Nat} {f : Fld} (hf : f.off = R.CAN_TXCOUNT c ∨ f.off = R.CAN_RXCOUNT c) (s : State) (n : Nat) :
    CanQuiet c s (s.bump f n) := by
  refine ⟨State.rd_put_ne _ _ ?_, State.rd_put_ne _ _ ?_⟩
  · simp only [R.CAN_TXCOUNT, R.CAN_RXCOUNT, R.CAN_ERR] at hf ⊢
    omega
  · simp only [R.CAN_TXCOUNT, R.CAN_RXCOUNT, R.CAN_STATUS] at hf ⊢
    omega

theorem CanCounts.of_quiet {s t u : State} {c tec rec : Nat} (h : CanCounts s t c tec rec) (hu : CanQuiet c t u) :
    CanCounts s u c tec rec := by
  have htec : u.get (F.CAN_ERR_TEC c) = t.get (F.CAN_ERR_TEC c) := congrArg (getBits · 0 9) hu.err
  have hrec : u.get (F.CAN_ERR_REC c) = t.get (F.CAN_ERR_REC c) := congrArg (getBits · 16 8) hu.err
  have hstate : u.get (F.CAN_STATUS_ESTATE c) = t.get (F.CAN_STATUS_ESTATE c) := congrArg (getBits · 0 2) hu.status
  rw [CanCounts, htec, hrec, hstate, hu.err]
  exact h

/-! ## The controller's counters (15 R687) -/

/-- What the counters of a channel leave. -/
structure CanKept (c : Nat) (s u : State) : Prop where
  can : u.can = s.can
  mem : u.mem = s.mem
  img : u.img = s.img
  regs : ∀ o, o ≠ R.CAN_ERR c → o ≠ R.CAN_STATUS c → o ≠ F.EVT_COUNTS_LOST.off → o ≠ F.EVT_STATUS_LOST.off → u.rd o = s.rd o

theorem CanKept.get {c : Nat} {s u : State} (h : CanKept c s u) {f : Fld} (herr : f.off ≠ R.CAN_ERR c)
    (hstatus : f.off ≠ R.CAN_STATUS c) (hcounts : f.off ≠ F.EVT_COUNTS_LOST.off) (hlost : f.off ≠ F.EVT_STATUS_LOST.off) :
    u.get f = s.get f := congrArg (getBits · f.lo f.len) (h.regs _ herr hstatus hcounts hlost)

/-- The counters shown, before the event of a channel that turns error-passive. -/
def State.canShown (s : State) (c tec rec : Nat) : State :=
  ((s.put (F.CAN_ERR_TEC c) (min tec 511)).put (F.CAN_ERR_REC c) (min rec 255)).put (F.CAN_STATUS_ESTATE c)
    (b2n (decide (tec > 127) || decide (rec > 127)))

theorem State.canErrors_still {s : State} {c : Nat}
    (h : s.on (F.CAN_STATUS_RESTRICTED c) = true ∨ s.get (F.CAN_STATUS_ESTATE c) = 2) (tec rec : Nat) :
    s.canErrors c tec rec = s := by
  rw [State.canErrors, if_pos h]

theorem State.canErrors_counts {s : State} {c : Nat}
    (h : ¬(s.on (F.CAN_STATUS_RESTRICTED c) = true ∨ s.get (F.CAN_STATUS_ESTATE c) = 2)) (tec rec : Nat) :
    s.canErrors c tec rec = if (decide (tec > 127) || decide (rec > 127)) && decide (s.get (F.CAN_STATUS_ESTATE c) = 0) then
      (s.canShown c tec rec).raise 0xC003 islCan [] else s.canShown c tec rec := by
  rw [State.canErrors, if_neg h]
  rfl

theorem State.canShown_only (s : State) (c tec rec : Nat) : OnlyRegs s (s.canShown c tec rec) [R.CAN_ERR c, R.CAN_STATUS c] :=
  OnlyRegs.put _ (List.mem_cons_of_mem _ (List.mem_singleton.2 rfl))
    (OnlyRegs.put _ (List.mem_cons_self ..) (OnlyRegs.put _ (List.mem_cons_self ..) (OnlyRegs.refl s _)))

theorem State.canShown_get (s : State) (c tec rec : Nat) :
    (s.canShown c tec rec).get (F.CAN_ERR_TEC c) = min tec 511 ∧ (s.canShown c tec rec).get (F.CAN_ERR_REC c) = min rec 255 ∧
    (s.canShown c tec rec).get (F.CAN_STATUS_ESTATE c) = if 127 < tec ∨ 127 < rec then 1 else 0 := by
  have hoff : R.CAN_STATUS c ≠ R.CAN_ERR c := by simp only [R.CAN_STATUS, R.CAN_ERR]; omega
  unfold State.canShown
  refine ⟨?tec, ?rec, ?state⟩
  case tec =>
    rw [State.get_put_ne _ _ (.inl hoff), State.get_put_ne _ _ (.inr (by simp [F.CAN_ERR_TEC, F.CAN_ERR_REC])),
      State.get_put_same _ _ (by simp [F.CAN_ERR_TEC])]
    exact Nat.mod_eq_of_lt (show min tec 511 < 512 by omega)
  case rec =>
    rw [State.get_put_ne _ _ (.inl hoff), State.get_put_same _ _ (by simp [F.CAN_ERR_REC])]
    exact Nat.mod_eq_of_lt (show min rec 255 < 256 by omega)
  case state =>
    rw [State.get_put_same _ _ (by simp [F.CAN_STATUS_ESTATE]), ← Bool.decide_or]
    by_cases h : 127 < tec ∨ 127 < rec
    · rw [if_pos h, decide_eq_true h]
      rfl
    · rw [if_neg h, decide_eq_false h]
      rfl

/-- What a channel's controller counts with a frame, and what it leaves (15 R687). -/
structure CanCounted (s u : State) (c tec rec : Nat) : Prop where
  counts : CanCounts s u c tec rec
  kept : CanKept c s u
  silent : tec ≤ 127 ∧ rec ≤ 127 → u.recd = s.recd
  only : tec ≤ 127 ∧ rec ≤ 127 ∨ s.Room islCan → SameRegs s u [R.CAN_ERR c, R.CAN_STATUS c]

theorem State.canErrors_counted {c : Nat} (hc : c < 4) (s : State) (tec rec : Nat) : CanCounted s (s.canErrors c tec rec) c tec rec := by
  by_cases h : s.on (F.CAN_STATUS_RESTRICTED c) = true ∨ s.get (F.CAN_STATUS_ESTATE c) = 2
  · rw [State.canErrors_still h]
    refine ⟨⟨fun hnot => ?_, fun _ => ⟨rfl, rfl⟩⟩, ⟨rfl, rfl, rfl, fun _ _ _ _ _ => rfl⟩, fun _ => rfl, fun _ => SameRegs.refl s _⟩
    rcases h with hrestricted | hoff
    · exact absurd (hnot.1.symm.trans hrestricted) (by decide)
    · exact absurd hoff hnot.2
  · obtain ⟨htec, hrec, hstate⟩ := s.canShown_get c tec rec
    have hshown := s.canShown_only c tec rec
    have hcounts : CanCounts s (s.canShown c tec rec) c tec rec := ⟨fun _ => ⟨htec, hrec, hstate⟩, fun hstill => absurd hstill h⟩
    have hkept : CanKept c s (s.canShown c tec rec) := ⟨by rw [hshown.1], by rw [hshown.1], by rw [hshown.1],
      fun o herr hstatus _ _ => hshown.2 o (by simp [herr, hstatus])⟩
    have hrecd : (s.canShown c tec rec).recd = s.recd := by rw [hshown.1]
    rw [State.canErrors_counts h]
    split
    case isFalse => exact ⟨hcounts, hkept, fun _ => hrecd, fun _ => hshown.2⟩
    case isTrue hpassive =>
      have hloud : ¬(tec ≤ 127 ∧ rec ≤ 127) := by
        simp only [Bool.and_eq_true, Bool.or_eq_true, decide_eq_true_eq] at hpassive
        omega
      refine ⟨hcounts.of_quiet (CanQuiet.raise hc ..), ⟨?_, ?_, ?_, ?_⟩, fun hsilent => absurd hsilent hloud, fun hroom => ?_⟩
      · rw [State.raise_can, hkept.can]
      · rw [State.raise_mem, hkept.mem]
      · rw [State.raise_img, hkept.img]
      · intro o herr hstatus hcount hlost
        rw [State.rd_raise _ _ _ _ hcount hlost, hkept.regs o herr hstatus hcount hlost]
      · exact SameRegs.of_regs (State.raise_after (hroom.resolve_left hloud) hrecd 0xC003 []).2 hshown.2

/-- A frame at an instant: the counters do not depend on it. -/
theorem State.canErrors_at {c : Nat} (hc : c < 4) (s : State) (t tec rec : Nat) : CanCounted s ((s.at t).canErrors c tec rec) c tec rec :=
  let h := State.canErrors_counted hc (s.at t) tec rec
  ⟨h.counts, ⟨h.kept.can, h.kept.mem, h.kept.img, h.kept.regs⟩, h.silent, h.only⟩

/-! ## Fill counts -/

theorem State.canFill_only (s : State) (c : Nat) : OnlyRegs s (s.canFill c) [R.CAN_FIFO c] :=
  OnlyRegs.put _ (List.mem_singleton.2 rfl) (OnlyRegs.put _ (List.mem_singleton.2 rfl)
    (OnlyRegs.put _ (List.mem_singleton.2 rfl) (OnlyRegs.refl s _)))

theorem State.canFill_can (s : State) (c : Nat) : (s.canFill c).can = s.can := by rfl
theorem State.canFill_recd (s : State) (c : Nat) : (s.canFill c).recd = s.recd := by rfl
theorem State.canFill_mem (s : State) (c : Nat) : (s.canFill c).mem = s.mem := by rfl

theorem CanQuiet.fill (c : Nat) (s : State) : CanQuiet c s (s.canFill c) :=
  CanQuiet.of_same (s.canFill_only c).2 (by simp only [R.CAN_ERR, R.CAN_FIFO, List.mem_singleton]; omega)
    (by simp only [R.CAN_STATUS, R.CAN_FIFO, List.mem_singleton]; omega)

theorem State.canFill_get (s : State) (c : Nat) :
    (s.canFill c).get (F.CAN_FIFO_RXF0_FILL c) = (s.canCh c).rxf0.length % 128 ∧
    (s.canFill c).get (F.CAN_FIFO_RXF1_FILL c) = (s.canCh c).rxf1.length % 128 ∧
    (s.canFill c).get (F.CAN_FIFO_TXF_FILL c) = (s.canCh c).txf.length % 64 := by
  unfold State.canFill
  dsimp only
  refine ⟨?rxf0, ?rxf1, ?txf⟩
  case rxf0 =>
    rw [State.get_put_ne _ _ (.inr (by simp [F.CAN_FIFO_TXF_FILL, F.CAN_FIFO_RXF0_FILL])),
      State.get_put_ne _ _ (.inr (by simp [F.CAN_FIFO_RXF1_FILL, F.CAN_FIFO_RXF0_FILL])),
      State.get_put_same _ _ (by simp [F.CAN_FIFO_RXF0_FILL])]
    rfl
  case rxf1 =>
    rw [State.get_put_ne _ _ (.inr (by simp [F.CAN_FIFO_TXF_FILL, F.CAN_FIFO_RXF1_FILL])),
      State.get_put_same _ _ (by simp [F.CAN_FIFO_RXF1_FILL])]
    rfl
  case txf =>
    rw [State.get_put_same _ _ (by simp [F.CAN_FIFO_TXF_FILL])]
    rfl

/-- The counters and the FIFOs of a channel, with room for the raise of either. -/
theorem SameRegs.can_fill {s t u : State} {c : Nat} {l : List Nat} (h : SameRegs s t [R.CAN_ERR c, R.CAN_STATUS c])
    (hu : u.regs = t.regs) (hfifo : R.CAN_FIFO c ∈ l) (herr : R.CAN_ERR c ∈ l) (hstatus : R.CAN_STATUS c ∈ l) :
    SameRegs s (u.canFill c) l := by
  have hfill : SameRegs u (u.canFill c) l := (u.canFill_only c).2.mono fun o ho => (List.mem_singleton.1 ho).symm ▸ hfifo
  have hcounts : SameRegs s t l := h.mono fun o ho => by
    rcases List.mem_cons.1 ho with rfl | ho
    · exact herr
    · exact (List.mem_singleton.1 ho).symm ▸ hstatus
  exact (SameRegs.of_regs hu hcounts).trans hfill

end Sys2Proof.Machine
end

section
/-! Frames received, sent and lost on a CAN channel (15 R668 to R687). -/
namespace Sys2Proof.Machine

theorem State.canCh_setCan_ne (s : State) {c d : Nat} (k : CanState) (h : c ≠ d) : (s.setCan c k).canCh d = s.canCh d :=
  tget_tset_ne _ _ _ h

/-! ## Reception -/

theorem exec_canFrameRx_remote {f : CanFrame} (hrtr : f.rtr = true) (ch : Fin 4) (esi : Bool) (tec rec t : Nat) (s : State) :
    exec (.canFrameRx ch f esi tec rec t) s =
      .next (((s.at t).canErrors ch.val tec rec).bump (F.CAN_RXCOUNT_RX_DROP ch.val) 1) := by
  show execCanFrameRx ch f esi tec rec t s = _
  simp only [execCanFrameRx, hrtr]
  rfl

/-- Where a data frame goes once the counters stand (15 R668, R669, R671). -/
def State.canPlace (s : State) (c : Nat) (e : CanEntry) : CanTarget → State
  | .buffer n => s.canStore c n e
  | .fifo n => s.canFifo c n e
  | .rejected => s
  | .nowhere => s.bump (F.CAN_RXCOUNT_RX_DROP c) 1

theorem exec_canFrameRx_data {f : CanFrame} {ch : Fin 4} {s : State} {x : CanTarget} (hrtr : f.rtr = false)
    (haccept : (s.canRec ch.val).accept f (s.on F.MOD_STATUS_REDUCED) = x) (esi : Bool) (tec rec t : Nat) :
    exec (.canFrameRx ch f esi tec rec t) s =
      .next (((s.at t).canErrors ch.val tec rec).canPlace ch.val { frame := f, esi := esi, ts := t } x) := by
  show execCanFrameRx ch f esi tec rec t s = _
  simp only [execCanFrameRx, hrtr, haccept]
  cases x <;> rfl

theorem State.canFifo_room0 {s : State} {c : Nat} (h : (s.canCh c).rxf0.length < 64) (e : CanEntry) : s.canFifo c 0 e =
    (s.setCan c { s.canCh c with rxf0 := (s.canCh c).rxf0 ++ [e] }).canFill c := by
  simp [State.canFifo, Nat.not_le.2 h]

theorem State.canFifo_room1 {s : State} {c : Nat} (h : (s.canCh c).rxf1.length < 64) (e : CanEntry) : s.canFifo c 1 e =
    (s.setCan c { s.canCh c with rxf1 := (s.canCh c).rxf1 ++ [e] }).canFill c := by
  simp [State.canFifo, Nat.not_le.2 h]

/-- A full FIFO loses the frame or its oldest one (15 R669). -/
theorem State.canFifo_full0 {s : State} {c : Nat} (h : 64 ≤ (s.canCh c).rxf0.length) (e : CanEntry) : s.canFifo c 0 e =
    (((s.setCan c { s.canCh c with
      rxf0 := if (s.canRec c).full0 then (s.canCh c).rxf0.drop 1 ++ [e] else (s.canCh c).rxf0 }).canFill c).bump
        (F.CAN_RXCOUNT_RX_LOST c) 1).raise 0xC020 islCan [] := by
  simp [State.canFifo, h]

/-- The buffer of a frame as it is stored (15 R672, R689). -/
def State.canStored (s : State) (c b : Nat) (e : CanEntry) : State :=
  s.setCan c ((s.canCh c).setBuf b { (s.canCh c).buf b with
    entry := e, stored := true, newData := true
    assigned := some (nextBoundary ((s.canRec c).buf b).cls ((e.ts + 31249) / 31250), e.frame.data) })

theorem State.canListSend_keeps (s : State) (n : Nat) : (s.canListSend n).can = s.can ∧ (s.canListSend n).mem = s.mem ∧
    (s.canListSend n).regs = s.regs := by
  unfold State.canListSend
  split <;> exact ⟨rfl, rfl, rfl⟩

/-- Besides the buffer a stored frame changes no channel, no memory and no counter of the controller (15 R674). -/
theorem State.canStore_stored {c : Nat} (hc : c < 4) (s : State) (b : Nat) (e : CanEntry) :
    (s.canStore c b e).can = (s.canStored c b e).can ∧ (s.canStore c b e).mem = s.mem ∧ CanQuiet c s (s.canStore c b e) := by
  obtain ⟨w, hw⟩ : ∃ w, w = s.canStored c b e := ⟨_, rfl⟩
  have hmem : w.mem = s.mem := by rw [hw]; rfl
  have hregs : w.regs = s.regs := by rw [hw]; rfl
  obtain ⟨v, hv⟩ : ∃ v, v = if nextBoundary ((s.canRec c).buf b).cls ((e.ts + 31249) / 31250) = s.count ∧
      s.rd64 R.SIG_CLOSED ≠ nextBoundary ((s.canRec c).buf b).cls ((e.ts + 31249) / 31250) then
      w.canListSend (nextBoundary ((s.canRec c).buf b).cls ((e.ts + 31249) / 31250)) else w := ⟨_, rfl⟩
  have hsent : v.can = w.can ∧ v.mem = w.mem ∧ v.regs = w.regs := by
    rw [hv]
    split
    · exact w.canListSend_keeps _
    · exact ⟨rfl, rfl, rfl⟩
  obtain ⟨hvcan, hvmem, hvregs⟩ := hsent
  have hquiet : CanQuiet c s v := CanQuiet.of_regs (hvregs.trans hregs)
  have hstore : s.canStore c b e =
      if decide ((((s.canCh c).buf b).assigned.map fun a => a.1) =
        some (nextBoundary ((s.canRec c).buf b).cls ((e.ts + 31249) / 31250))) && s.isActive then
        (v.bump (F.CAN_RXCOUNT_RX_OVERWRITE c) 1).raise 0xC021 islCan [] else v := by
    rw [hv, hw]
    rfl
  rw [hstore, ← hw]
  split
  · exact ⟨(State.raise_can ..).trans hvcan, (State.raise_mem ..).trans (hvmem.trans hmem),
      (hquiet.trans (CanQuiet.bump (.inr rfl) v 1)).trans (CanQuiet.raise hc ..)⟩
  · exact ⟨hvcan, hvmem.trans hmem, hquiet⟩

theorem CanKept.get_rxDrop {c : Nat} {s u : State} (h : CanKept c s u) (hc : c < 4) :
    u.get (F.CAN_RXCOUNT_RX_DROP c) = s.get (F.CAN_RXCOUNT_RX_DROP c) :=
  h.get (by simp [F.CAN_RXCOUNT_RX_DROP, R.CAN_ERR]) (by simp only [F.CAN_RXCOUNT_RX_DROP, R.CAN_STATUS]; omega)
    (by simp only [F.CAN_RXCOUNT_RX_DROP, F.EVT_COUNTS_LOST]; omega)
    (by simp only [F.CAN_RXCOUNT_RX_DROP, F.EVT_STATUS_LOST]; omega)

/-! ## The list of the active (15 R674) -/

/-- One channel of a state in which other channels differ. -/
structure ChannelKept (c : Nat) (s u : State) : Prop where
  channel : u.canCh c = s.canCh c
  only : u = { s with can := u.can }

theorem ChannelKept.trans {c : Nat} {s t u : State} (h : ChannelKept c s t) (h' : ChannelKept c t u) : ChannelKept c s u := by
  refine ⟨h'.channel.trans h.channel, ?_⟩
  have hu := h'.only
  rw [h.only] at hu
  exact hu

theorem exec_canFrameListRx (n : Nat) (fs : List (Nat × Nat × List Byte)) (s : State) : exec (.canFrameListRx n fs) s =
    if s.isStandby then .next (s.each (List.range 4) fun t c => t.setCan c { t.canCh c with
      list := some (n, (fs.filter fun f => f.1 = c).map fun f => f.2) }) else .next s := by rfl

/-- Each channel takes its own part of the list. -/
theorem State.each_setCan {l : List Nat} (hnodup : l.Nodup) (g : Nat → CanState → CanState) (s : State) {c : Nat} (hc : c ∈ l) :
    ((s.each l fun t i => t.setCan i (g i (t.canCh i))).canCh c) = g c (s.canCh c) := by
  obtain ⟨l₁, l₂, heach, hbefore, hafter⟩ := State.each_turn hc hnodup (fun t i => t.setCan i (g i (t.canCh i))) s
  have hothers : ∀ m : List Nat, (∀ y ∈ m, y ∈ l ∧ y ≠ c) → ∀ u : State,
      (u.each m fun t i => t.setCan i (g i (t.canCh i))).canCh c = u.canCh c := fun m hm u =>
    State.each_related (K := fun u v => v.canCh c = u.canCh c) (f := fun t i => t.setCan i (g i (t.canCh i)))
      (fun _ => rfl) (fun h h' => h'.trans h) (fun i hi t => t.canCh_setCan_ne _ (hm i hi).2) u
  rw [heach, hothers l₂ hafter, State.canCh_setCan_same, hothers l₁ hbefore]

theorem State.each_setCan_only (l : List Nat) (g : Nat → CanState → CanState) (s : State) :
    (s.each l fun t i => t.setCan i (g i (t.canCh i))) =
      { s with can := (s.each l fun t i => t.setCan i (g i (t.canCh i))).can } :=
  State.each_related (K := fun s u => u = { s with can := u.can }) (fun _ => rfl)
    (fun {t u v} h h' => by rw [h] at h'; exact h') (fun _ _ _ => rfl) s

theorem exec_canFrameListMissing (n t : Nat) (s : State) : exec (.canFrameListMissing n t) s =
    .next (if s.isStandby ∧ (List.range 4).filter (fun c => ((s.canCh c).list.map fun l => l.1) ≠ some n) ≠ [] ∧
        !s.on F.TWN_STATUS_SUSPECT ∧ n = s.count ∧ max s.now t ≥ boundaryNs n + 24000 then
      ((s.at t).each ((List.range 4).filter fun c => ((s.canCh c).list.map fun l => l.1) ≠ some n)
        fun u c => u.setCan c { u.canCh c with list := some (n, []) }).lagCycle
    else s.at t) := by rfl

/-! ## Frames sent -/

theorem exec_canTxDone (ch : Fin 4) (b : Fin 65) (tec rec : Nat) (s : State) : exec (.canTxDone ch b tec rec) s =
    .next (if s.canOnBus ch.val b.val then (s.canErrors ch.val tec rec).canGone ch.val b.val else s) := by rfl

theorem exec_canTxAttemptFail (ch : Fin 4) (b : Fin 65) (tec rec : Nat) (s : State) : exec (.canTxAttemptFail ch b tec rec) s =
    .next (if s.canOnBus ch.val b.val then (s.canErrors ch.val tec rec).canAttempt ch.val b.val else s) := by rfl

/-- A dedicated buffer once its frame has left (15 R679). -/
def CanBufState.gone (f : CanBufState) : CanBufState :=
  if f.inTx.isSome then { f with inTx := none, attempts := 0 } else { f with pend := none, attempts := 0 }

theorem State.canGone_buffer {b : Nat} (hb : b < 64) (s : State) (c : Nat) : s.canGone c b =
    s.setCan c ({ s.canCh c with arb := none }.setBuf b ((s.canCh c).buf b).gone) := by
  unfold State.canGone
  dsimp only
  rw [if_neg (Nat.not_le.2 hb)]
  rfl

theorem State.canGone_buf {b : Nat} (hb : b < 64) (s : State) (c : Nat) :
    ((s.canGone c b).canCh c).buf b = ((s.canCh c).buf b).gone := by
  rw [State.canGone_buffer hb, State.canCh_setCan_same, CanState.buf_setBuf_same]

theorem CanBufState.gone_pending {f : CanBufState} (h : f.inTx = none) : f.gone = { f with pend := none, attempts := 0 } := by
  rw [CanBufState.gone, h]
  rfl

theorem CanBufState.gone_sending {f : CanBufState} (h : f.inTx ≠ none) : f.gone = { f with inTx := none, attempts := 0 } := by
  rw [CanBufState.gone, if_pos (Option.isSome_iff_ne_none.2 h)]

theorem CanBufState.gone_attempts (f : CanBufState) : f.gone.attempts = 0 := by
  unfold CanBufState.gone
  split <;> rfl

/-- A frame that leaves a buffer changes no register and raises nothing. -/
theorem State.canGone_only {b : Nat} (hb : b < 64) (s : State) (c : Nat) :
    (s.canGone c b).regs = s.regs ∧ (s.canGone c b).recd = s.recd := by
  rw [State.canGone_buffer hb]
  exact ⟨rfl, rfl⟩

theorem State.canGone_fifo (s : State) (c : Nat) : s.canGone c 64 =
    (s.setCan c { s.canCh c with txf := (s.canCh c).txf.drop 1, txfTx := false, txfAttempts := 0, arb := none }).canFill c := by
  rfl

/-! ## Attempts that fail (15 R680, R681) -/

theorem State.canAttempt_oneShot {s : State} {c b : Nat} (hb : b < 64) (hone : (s.canRec c).oneShot = true) : s.canAttempt c b =
    let u := (s.canGone c b).bump (F.CAN_TXCOUNT_TX_FAIL c) 1
    u.wr (if b < 32 then R.CAN_TXFAIL_LO c else R.CAN_TXFAIL_HI c)
      (u.rd (if b < 32 then R.CAN_TXFAIL_LO c else R.CAN_TXFAIL_HI c) ||| (1#32 <<< (b % 32))) := by
  unfold State.canAttempt
  dsimp only
  rw [if_pos hone, if_neg (Nat.not_le.2 hb)]

theorem State.canAttempt_last {s : State} {c b : Nat} (hb : b < 64) (hone : (s.canRec c).oneShot = false)
    (hlast : (s.canRec c).retryLimit ≤ ((s.canCh c).buf b).attempts) : s.canAttempt c b =
      ((s.canGone c b).bump (F.CAN_TXCOUNT_TX_FAIL c) 1).raise 0xC010 islCan (le 1 c ++ le 1 b) := by
  unfold State.canAttempt
  dsimp only
  rw [if_neg (by rw [hone]; decide), if_neg (Nat.not_le.2 hb), if_pos (Nat.succ_le_succ hlast)]

theorem State.canAttempt_again {s : State} {c b : Nat} (hb : b < 64) (hone : (s.canRec c).oneShot = false)
    (hmore : ((s.canCh c).buf b).attempts < (s.canRec c).retryLimit) : s.canAttempt c b =
      s.setCan c ((s.canCh c).setBuf b { (s.canCh c).buf b with
        attempts := ((s.canCh c).buf b).attempts + 1, inTx := none
        pend := if ((s.canCh c).buf b).pend.isSome then ((s.canCh c).buf b).pend else ((s.canCh c).buf b).inTx }) := by
  unfold State.canAttempt
  dsimp only
  rw [if_neg (by rw [hone]; decide), if_neg (Nat.not_le.2 hb), if_neg (by omega), if_neg (Nat.not_le.2 hb)]

/-- The bit of a buffer in the registers of failed frames. -/
theorem getLsbD_or_bit (w : Word) {i : Nat} (hi : i < 32) : (w ||| (1#32 <<< i)).getLsbD i = true := by
  rw [BitVec.getLsbD_or, BitVec.getLsbD_shiftLeft]
  simp [hi]

/-! ## Bus-off and rejoining (15 R687) -/

theorem CanState.foldl_setBuf (g : CanBufState → CanBufState) (l : List Nat) (hnodup : l.Nodup) (k : CanState) :
    (∀ b ∈ l, (l.foldl (fun k b => k.setBuf b (g (k.buf b))) k).buf b = g (k.buf b)) ∧
    (∀ b, b ∉ l → (l.foldl (fun k b => k.setBuf b (g (k.buf b))) k).buf b = k.buf b) ∧
    (l.foldl (fun k b => k.setBuf b (g (k.buf b))) k).txf = k.txf := by
  induction l generalizing k with
  | nil => exact ⟨fun b hb => absurd hb List.not_mem_nil, fun _ _ => rfl, rfl⟩
  | cons a l ih =>
    obtain ⟨ha, hl⟩ := List.nodup_cons.1 hnodup
    obtain ⟨hin, hout, htxf⟩ := ih hl (k.setBuf a (g (k.buf a)))
    refine ⟨fun b hb => ?_, fun b hb => ?_, htxf.trans rfl⟩
    · rcases List.mem_cons.1 hb with rfl | hb
      · exact (hout b ha).trans (k.buf_setBuf_same b _)
      · exact (hin b hb).trans (congrArg g (k.buf_setBuf_ne _ fun h => ha (h ▸ hb)))
    · have hne : b ≠ a := fun h => hb (h ▸ List.mem_cons_self ..)
      have hnotin : b ∉ l := fun h => hb (List.mem_cons_of_mem _ h)
      exact (hout b hnotin).trans (k.buf_setBuf_ne _ fun h => hne h.symm)

theorem CanState.dropAll_spec (k : CanState) : k.dropAll.txf = [] ∧
    ∀ b : Fin 64, (k.dropAll.buf b.val).pend = none ∧ (k.dropAll.buf b.val).inTx = none := by
  obtain ⟨hin, -, htxf⟩ := CanState.foldl_setBuf (fun f => { f with pend := none, inTx := none, attempts := 0 }) (List.range 64)
    List.nodup_range { k with txf := [], txfTx := false, txfAttempts := 0, arb := none }
  exact ⟨htxf, fun b => ⟨congrArg CanBufState.pend (hin b.val (List.mem_range.2 b.isLt)),
    congrArg CanBufState.inTx (hin b.val (List.mem_range.2 b.isLt))⟩⟩

theorem exec_canBusOff (ch : Fin 4) (s : State) : exec (.canBusOff ch) s =
    if s.on (F.CAN_STATUS_RESTRICTED ch.val) then .next s else
      .next ((((s.setCan ch.val (s.canCh ch.val).dropAll).canFill ch.val).put (F.CAN_STATUS_ESTATE ch.val) 2).raise 0xC001 islCan
        (le 1 ch.val)) := by rfl

theorem exec_canAutoRecover (ch : Fin 4) (s : State) : exec (.canAutoRecover ch) s =
    if s.get (F.CAN_STATUS_ESTATE ch.val) = 2 ∧ (s.canRec ch.val).autoRecover = true then .next (s.canRejoin ch.val)
    else .next s := by rfl

theorem exec_canRecover (ch : Fin 4) (s : State) : exec (.canRecover ch) s =
    if s.get (F.CAN_STATUS_ESTATE ch.val) = 2 ∧ (s.canRec ch.val).autoRecover = false ∧ s.isActive = true then
      .next (s.canRejoin ch.val) else .next s := by rfl

/-- A channel that rejoins is error-active with its counters at zero. -/
theorem State.canRejoin_spec {s : State} (hroom : s.Room islCan) (c : Nat) :
    (s.canRejoin c).get (F.CAN_STATUS_ESTATE c) = 0 ∧ (s.canRejoin c).get (F.CAN_ERR_TEC c) = 0 ∧
    (s.canRejoin c).get (F.CAN_ERR_REC c) = 0 ∧ Raises s (s.canRejoin c) 0xC002 islCan [] ∧
    SameRegs s (s.canRejoin c) [R.CAN_STATUS c, R.CAN_ERR c] := by
  obtain ⟨hraises, hregs⟩ := State.raise_after (t := ((s.put (F.CAN_STATUS_ESTATE c) 0).put (F.CAN_ERR_TEC c) 0).put
    (F.CAN_ERR_REC c) 0) hroom rfl 0xC002 []
  have hoff : R.CAN_ERR c ≠ R.CAN_STATUS c := by simp only [R.CAN_STATUS, R.CAN_ERR]; omega
  unfold State.canRejoin
  refine ⟨?state, ?tec, ?rec, hraises, ?regs⟩
  case state =>
    rw [State.get_of_regs hregs, State.get_put_ne _ _ (.inl hoff), State.get_put_ne _ _ (.inl hoff),
      State.get_put_same _ _ (by simp [F.CAN_STATUS_ESTATE])]
    rfl
  case tec =>
    rw [State.get_of_regs hregs, State.get_put_ne _ _ (.inr (by simp [F.CAN_ERR_TEC, F.CAN_ERR_REC])),
      State.get_put_same _ _ (by simp [F.CAN_ERR_TEC])]
    rfl
  case rec =>
    rw [State.get_of_regs hregs, State.get_put_same _ _ (by simp [F.CAN_ERR_REC])]
    rfl
  case regs =>
    have herr : R.CAN_ERR c ∈ [R.CAN_STATUS c, R.CAN_ERR c] := List.mem_cons_of_mem _ (List.mem_singleton.2 rfl)
    exact SameRegs.of_regs hregs (SameRegs.put _ herr (SameRegs.put _ herr (SameRegs.put _ (List.mem_cons_self ..)
      (SameRegs.refl s _))))

/-! ## The FIFOs and buffers as the module uses them -/

theorem exec_canPop0 (ch : Fin 4) (s : State) : exec (.canPop0 ch) s =
    .next ((s.setCan ch.val { s.canCh ch.val with rxf0 := (s.canCh ch.val).rxf0.drop 1 }).canFill ch.val) := by rfl

theorem exec_canPop1 (ch : Fin 4) (s : State) : exec (.canPop1 ch) s =
    .next ((s.setCan ch.val { s.canCh ch.val with rxf1 := (s.canCh ch.val).rxf1.drop 1 }).canFill ch.val) := by rfl

theorem exec_canPush (ch : Fin 4) (s : State) : exec (.canPush ch) s =
    if !s.isActive then .next ((s.bump (F.CAN_TXCOUNT_TXF_DISCARD ch.val) 1).raise 0xC030 islCan [])
    else if (s.canCh ch.val).txf.length ≥ 32 then .next s
    else .next (((s.setCan ch.val { s.canCh ch.val with
        txf := (s.canCh ch.val).txf ++ [s.canStaged ch.val]
        arb := if (s.canCh ch.val).arb.isSome then (s.canCh ch.val).arb else s.canNext ch.val }).canFill ch.val).send
      (.canFrame ch.val 64 (s.canStaged ch.val).data)) := by rfl

/-- What a delivery can change: the image in formation, and the poison of its words (03 R124, 04 R161). -/
def Delivered (s u : State) : Prop := u = { s with sig := u.sig, fab := u.fab }

theorem Delivered.trans {s t u : State} (h : Delivered s t) (h' : Delivered t u) : Delivered s u := by
  have hu : u = { t with sig := u.sig, fab := u.fab } := h'
  rw [h] at hu
  exact hu

theorem Delivered.unpoison (s : State) (a n : Nat) : Delivered s (s.unpoison a n) := by
  unfold State.unpoison
  split <;> rfl

theorem State.deliver_delivered (s : State) (p : Nat) (v : Word) (q : Byte) : Delivered s (s.deliver p v q) := by
  unfold State.deliver
  dsimp only
  split
  · rfl
  · split
    · rfl
    · exact Delivered.trans (t := s.sg fun w => { w with
        writes := tset none s.sig.writes p (some { v := storeAs (s.pinfo p).typ v, q := q }) }) rfl
        ((Delivered.unpoison _ _ _).trans (Delivered.unpoison _ _ _))

theorem exec_canRxTimeout_due {ch : Fin 4} {b : Fin 64} {s : State} (hkind : ((s.canRec ch.val).buf b.val).kind = 1)
    (hfresh : ((s.canCh ch.val).buf b.val).timedOut = false)
    (hmissed : (if ((s.canRec ch.val).buf b.val).rxTimeout = 0 then 10 else ((s.canRec ch.val).buf b.val).rxTimeout) ≤
      ((s.canCh ch.val).buf b.val).missed) : exec (.canRxTimeout ch b) s =
      .next (((s.setCan ch.val ((s.canCh ch.val).setBuf b.val { (s.canCh ch.val).buf b.val with timedOut := true })).each
        (((s.canRec ch.val).buf b.val).entries (s.canRec ch.val)) fun t m => t.deliverStale m.point).raise 0xC022 islCan []) := by
  show execCanRxTimeout ch b s = _
  unfold execCanRxTimeout
  dsimp only
  rw [if_pos ⟨hkind, hfresh, hmissed⟩]

theorem State.deliverStale_delivered (s : State) (p : Nat) : Delivered s (s.deliverStale p) := s.deliver_delivered p _ _

theorem State.each_delivered (s : State) (l : List MapRec) : Delivered s (s.each l fun t m => t.deliverStale m.point) :=
  State.each_related (K := Delivered) (f := fun t (m : MapRec) => t.deliverStale m.point) (fun _ => rfl) Delivered.trans
    (fun m _ t => t.deliverStale_delivered m.point) s

/-- Settles O54, command by command: what a controller counts with a frame is one rule, and so is what a frame that leaves its buffer
changes. -/
theorem canChannels : Obligations.CanChannels := by
  unfold Obligations.CanChannels
  refine ⟨?fifo0, ?full0, ?buffer, ?remote, ?list, ?noList, ?missing, ?notMissing, ?sent, ?sentFifo, ?last, ?again, ?busOff, ?auto,
    ?recover, ?noRecover, ?pop0, ?pop1, ?push, ?discard, ?bstat, ?stale, ?staleOnce, ?otherBus, ?oneShot, ?noAuto, ?restricted,
    ?fifo1, ?rejected, ?nowhere, ?sending, ?pushFull⟩
  case fifo0 =>
    intro ch f esi tec rec t s hrtr haccept hroom
    have hcounted := State.canErrors_at ch.isLt s t tec rec
    obtain ⟨w, hw⟩ : ∃ w, w = (s.at t).canErrors ch.val tec rec := ⟨_, rfl⟩
    rw [exec_canFrameRx_data hrtr haccept, ← hw, State.canPlace]
    rw [← hw] at hcounted
    have hchan := State.canCh_of_can hcounted.kept.can ch.val
    rw [State.canFifo_room0 (by rw [hchan]; exact hroom), hchan]
    obtain ⟨v, hv⟩ : ∃ v, v = w.setCan ch.val { s.canCh ch.val with
      rxf0 := (s.canCh ch.val).rxf0 ++ [{ frame := f, esi := esi, ts := t }] } := ⟨_, rfl⟩
    have hregs : v.regs = w.regs := by rw [hv]; rfl
    have hrxf0 : (v.canCh ch.val).rxf0 = (s.canCh ch.val).rxf0 ++ [{ frame := f, esi := esi, ts := t }] := by
      rw [hv, State.canCh_setCan_same]
    have hrecd : v.recd = w.recd := by rw [hv]; rfl
    have hmem : v.mem = w.mem := by rw [hv]; rfl
    rw [← hv]
    refine ⟨_, rfl, ?entries, ?fill, fun hsilent => ?silent, ?counts, ?mem, fun h => ?regs⟩
    case entries => exact (congrArg CanState.rxf0 (State.canCh_of_can (v.canFill_can ch.val) ch.val)).trans hrxf0
    case fill =>
      rw [(v.canFill_get ch.val).1, hrxf0, List.length_append]
      exact Nat.mod_eq_of_lt (show (s.canCh ch.val).rxf0.length + 1 < 128 by omega)
    case silent => rw [v.canFill_recd, hrecd, hcounted.silent hsilent]
    case counts => exact hcounted.counts.of_quiet ((CanQuiet.of_regs hregs).trans (CanQuiet.fill ch.val v))
    case mem => rw [v.canFill_mem, hmem, hcounted.kept.mem]
    case regs => exact (hcounted.only h).can_fill hregs (by simp) (by simp) (by simp)
  case fifo1 =>
    intro ch f esi tec rec t s hrtr haccept hroom
    have hcounted := State.canErrors_at ch.isLt s t tec rec
    obtain ⟨w, hw⟩ : ∃ w, w = (s.at t).canErrors ch.val tec rec := ⟨_, rfl⟩
    rw [exec_canFrameRx_data hrtr haccept, ← hw, State.canPlace]
    rw [← hw] at hcounted
    have hchan := State.canCh_of_can hcounted.kept.can ch.val
    rw [State.canFifo_room1 (by rw [hchan]; exact hroom), hchan]
    obtain ⟨v, hv⟩ : ∃ v, v = w.setCan ch.val { s.canCh ch.val with
      rxf1 := (s.canCh ch.val).rxf1 ++ [{ frame := f, esi := esi, ts := t }] } := ⟨_, rfl⟩
    have hregs : v.regs = w.regs := by rw [hv]; rfl
    have hchannel : v.canCh ch.val = { s.canCh ch.val with
        rxf1 := (s.canCh ch.val).rxf1 ++ [{ frame := f, esi := esi, ts := t }] } := by
      rw [hv, State.canCh_setCan_same]
    have hmem : v.mem = w.mem := by rw [hv]; rfl
    have hfilled := (State.canCh_of_can (v.canFill_can ch.val) ch.val).trans hchannel
    rw [← hv]
    refine ⟨_, rfl, by rw [hfilled], ?fill, by rw [hfilled], ?counts, ?mem⟩
    case fill =>
      rw [(v.canFill_get ch.val).2.1, hchannel, List.length_append]
      exact Nat.mod_eq_of_lt (show (s.canCh ch.val).rxf1.length + 1 < 128 by omega)
    case counts => exact hcounted.counts.of_quiet ((CanQuiet.of_regs hregs).trans (CanQuiet.fill ch.val v))
    case mem => rw [v.canFill_mem, hmem, hcounted.kept.mem]
  case full0 =>
    intro ch f esi tec rec t s hrtr haccept hfull
    have hcounted := State.canErrors_at ch.isLt s t tec rec
    obtain ⟨w, hw⟩ : ∃ w, w = (s.at t).canErrors ch.val tec rec := ⟨_, rfl⟩
    rw [exec_canFrameRx_data hrtr haccept, ← hw, State.canPlace]
    rw [← hw] at hcounted
    have hchan := State.canCh_of_can hcounted.kept.can ch.val
    rw [State.canFifo_full0 (by rw [hchan]; exact hfull), hchan]
    obtain ⟨v, hv⟩ : ∃ v, v = (w.setCan ch.val { s.canCh ch.val with
      rxf0 := if (w.canRec ch.val).full0 then (s.canCh ch.val).rxf0.drop 1 ++ [{ frame := f, esi := esi, ts := t }]
        else (s.canCh ch.val).rxf0 }).canFill ch.val := ⟨_, rfl⟩
    have hquiet : CanQuiet ch.val w v := by
      rw [hv]
      exact CanQuiet.trans (t := w.setCan ch.val _) (CanQuiet.of_regs rfl) (CanQuiet.fill ch.val _)
    have hrecd : v.recd = w.recd := by rw [hv]; rfl
    have hlost : v.get (F.CAN_RXCOUNT_RX_LOST ch.val) = s.get (F.CAN_RXCOUNT_RX_LOST ch.val) := by
      rw [hv, (State.canFill_only _ _).get (by simp [F.CAN_RXCOUNT_RX_LOST, R.CAN_FIFO]), State.get_of_regs (State.setCan_regs ..)]
      exact hcounted.kept.get (by simp [F.CAN_RXCOUNT_RX_LOST, R.CAN_ERR]) (by simp only [F.CAN_RXCOUNT_RX_LOST, R.CAN_STATUS]; omega)
        (by simp only [F.CAN_RXCOUNT_RX_LOST, F.EVT_COUNTS_LOST]; omega)
        (by simp only [F.CAN_RXCOUNT_RX_LOST, F.EVT_STATUS_LOST]; omega)
    have hchannel : (v.canCh ch.val).rxf0 =
        if (w.canRec ch.val).full0 then (s.canCh ch.val).rxf0.drop 1 ++ [{ frame := f, esi := esi, ts := t }]
        else (s.canCh ch.val).rxf0 := by
      rw [hv, State.canCh_of_can (State.canFill_can ..), State.canCh_setCan_same]
    rw [← hv]
    refine ⟨_, rfl, ?raises, ?counts, ?lost, ?length⟩
    case raises =>
      rintro ⟨htec, hrec, hroom⟩
      exact Raises.raise (s := s) (t := v.bump _ 1) hroom (hrecd.trans (hcounted.silent ⟨htec, hrec⟩)) _ _
    case counts =>
      exact hcounted.counts.of_quiet ((hquiet.trans (CanQuiet.bump (.inr rfl) v 1)).trans (CanQuiet.raise ch.isLt ..))
    case lost =>
      rw [State.get_raise _ _ _ _ (by simp only [F.CAN_RXCOUNT_RX_LOST, F.EVT_COUNTS_LOST]; omega)
        (by simp only [F.CAN_RXCOUNT_RX_LOST, F.EVT_STATUS_LOST]; omega),
        State.get_bump_same _ _ (by simp [F.CAN_RXCOUNT_RX_LOST]), hlost]
    case length =>
      rw [State.canCh_of_can (State.raise_can ..), State.canCh_of_can (t := v.bump _ 1) (s := v) rfl, hchannel]
      split
      · rw [List.length_append, List.length_drop, List.length_singleton]
        omega
      · rfl
  case buffer =>
    intro ch f esi tec rec t n s hrtr haccept
    have hcounted := State.canErrors_at ch.isLt s t tec rec
    obtain ⟨w, hw⟩ : ∃ w, w = (s.at t).canErrors ch.val tec rec := ⟨_, rfl⟩
    rw [exec_canFrameRx_data hrtr haccept, ← hw, State.canPlace]
    rw [← hw] at hcounted
    obtain ⟨hcan, hmem, hquiet⟩ := State.canStore_stored ch.isLt w n.val { frame := f, esi := esi, ts := t }
    have hbuf := congrArg (fun k : CanState => k.buf n.val) (State.canCh_of_can hcan ch.val)
    rw [State.canStored, State.canCh_setCan_same, CanState.buf_setBuf_same, State.canRec_of_img hcounted.kept.img] at hbuf
    exact ⟨_, rfl, congrArg CanBufState.entry hbuf, congrArg CanBufState.newData hbuf, congrArg CanBufState.assigned hbuf,
      hcounted.counts.of_quiet hquiet, hmem.trans hcounted.kept.mem⟩
  case remote =>
    intro ch f esi tec rec t s hrtr
    have hcounted := State.canErrors_at ch.isLt s t tec rec
    obtain ⟨w, hw⟩ : ∃ w, w = (s.at t).canErrors ch.val tec rec := ⟨_, rfl⟩
    rw [exec_canFrameRx_remote hrtr, ← hw]
    rw [← hw] at hcounted
    refine ⟨_, rfl, ?drop, hcounted.kept.can, hcounted.counts.of_quiet (CanQuiet.bump (.inr rfl) w 1), fun h => ?regs⟩
    case drop =>
      rw [State.get_bump_same _ _ (by simp [F.CAN_RXCOUNT_RX_DROP]), hcounted.kept.get_rxDrop ch.isLt]
    case regs =>
      exact SameRegs.put _ (List.mem_cons_self ..) ((hcounted.only h).mono fun o ho => List.mem_cons_of_mem _ ho)
  case rejected =>
    intro ch f esi tec rec t s hrtr haccept
    have hcounted := State.canErrors_at ch.isLt s t tec rec
    rw [exec_canFrameRx_data hrtr haccept]
    exact ⟨_, rfl, hcounted.kept.can, hcounted.counts, hcounted.kept.get_rxDrop ch.isLt⟩
  case nowhere =>
    intro ch f esi tec rec t s hrtr haccept
    have hcounted := State.canErrors_at ch.isLt s t tec rec
    obtain ⟨w, hw⟩ : ∃ w, w = (s.at t).canErrors ch.val tec rec := ⟨_, rfl⟩
    rw [exec_canFrameRx_data hrtr haccept, ← hw, State.canPlace]
    rw [← hw] at hcounted
    refine ⟨_, rfl, hcounted.kept.can, hcounted.counts.of_quiet (CanQuiet.bump (.inr rfl) w 1), ?_⟩
    rw [State.get_bump_same _ _ (by simp [F.CAN_RXCOUNT_RX_DROP]), hcounted.kept.get_rxDrop ch.isLt]
  case list =>
    intro n fs c s hstandby
    rw [exec_canFrameListRx, if_pos hstandby]
    refine ⟨_, rfl, ?_, State.each_setCan_only (List.range 4)
      (fun c k => { k with list := some (n, (fs.filter fun f => f.1 = c).map fun f => f.2) }) s⟩
    exact congrArg CanState.list (State.each_setCan List.nodup_range
      (fun c k => { k with list := some (n, (fs.filter fun f => f.1 = c).map fun f => f.2) }) s (List.mem_range.2 c.isLt))
  case noList =>
    intro n fs s hstandby
    rw [exec_canFrameListRx, if_neg (by rw [hstandby]; decide)]
  case missing =>
    intro t c s hstandby hlist hsuspect hlate
    have hmem : c.val ∈ (List.range 4).filter fun i => ((s.canCh i).list.map fun l => l.1) ≠ some s.count :=
      List.mem_filter.2 ⟨List.mem_range.2 c.isLt, by rw [hlist]; rfl⟩
    rw [exec_canFrameListMissing, if_pos ⟨hstandby, List.ne_nil_of_mem hmem, by rw [hsuspect]; rfl, rfl, hlate⟩]
  case notMissing =>
    intro n t s hstandby
    rw [exec_canFrameListMissing, if_neg fun h => absurd (hstandby.symm.trans h.1) (by decide)]
  case sent =>
    intro ch b tec rec s hbus hpend
    have hcounted := State.canErrors_counted ch.isLt s tec rec
    have hchan := State.canCh_of_can hcounted.kept.can ch.val
    have hbuf := State.canGone_buf b.isLt (s.canErrors ch.val tec rec) ch.val
    rw [hchan, CanBufState.gone_pending hpend] at hbuf
    obtain ⟨hregs, -⟩ := State.canGone_only b.isLt (s.canErrors ch.val tec rec) ch.val
    rw [exec_canTxDone, show (Fin.castSucc b).val = b.val from rfl, if_pos hbus]
    exact ⟨_, rfl, by rw [hbuf], by rw [hbuf],
      hcounted.counts.of_quiet (CanQuiet.of_regs hregs), fun h => SameRegs.of_regs hregs (hcounted.only h)⟩
  case sending =>
    intro ch b tec rec s hbus hsending
    have hcounted := State.canErrors_counted ch.isLt s tec rec
    have hchan := State.canCh_of_can hcounted.kept.can ch.val
    have hbuf := State.canGone_buf b.isLt (s.canErrors ch.val tec rec) ch.val
    rw [hchan, CanBufState.gone_sending hsending] at hbuf
    obtain ⟨hregs, -⟩ := State.canGone_only b.isLt (s.canErrors ch.val tec rec) ch.val
    rw [exec_canTxDone, show (Fin.castSucc b).val = b.val from rfl, if_pos hbus]
    exact ⟨_, rfl, by rw [hbuf], by rw [hbuf], by rw [hbuf],
      hcounted.counts.of_quiet (CanQuiet.of_regs hregs)⟩
  case sentFifo =>
    intro ch tec rec s hbus
    have hcounted := State.canErrors_counted ch.isLt s tec rec
    obtain ⟨w, hw⟩ : ∃ w, w = s.canErrors ch.val tec rec := ⟨_, rfl⟩
    rw [exec_canTxDone, show (64 : Fin 65).val = 64 from rfl, if_pos hbus, ← hw, State.canGone_fifo]
    rw [← hw] at hcounted
    obtain ⟨v, hv⟩ : ∃ v, v = w.setCan ch.val { w.canCh ch.val with
      txf := (w.canCh ch.val).txf.drop 1, txfTx := false, txfAttempts := 0, arb := none } := ⟨_, rfl⟩
    have hregs : v.regs = w.regs := by rw [hv]; rfl
    have hchannel : (v.canFill ch.val).canCh ch.val = { s.canCh ch.val with
        txf := (s.canCh ch.val).txf.drop 1, txfTx := false, txfAttempts := 0, arb := none } := by
      rw [State.canCh_of_can (v.canFill_can ch.val), hv, State.canCh_setCan_same, State.canCh_of_can hcounted.kept.can]
    rw [← hv]
    exact ⟨_, rfl, congrArg CanState.txf hchannel, congrArg CanState.txfTx hchannel,
      hcounted.counts.of_quiet ((CanQuiet.of_regs hregs).trans (CanQuiet.fill ch.val v)),
      fun h => (hcounted.only h).can_fill hregs (by simp) (by simp) (by simp)⟩
  case last =>
    intro ch b tec rec s hbus hone hlast
    have hcounted := State.canErrors_counted ch.isLt s tec rec
    obtain ⟨w, hw⟩ : ∃ w, w = s.canErrors ch.val tec rec := ⟨_, rfl⟩
    rw [← hw] at hcounted
    have hrec := State.canRec_of_img hcounted.kept.img ch.val
    have hchan := State.canCh_of_can hcounted.kept.can ch.val
    obtain ⟨hregs, hrecd⟩ := State.canGone_only b.isLt w ch.val
    rw [exec_canTxAttemptFail, show (Fin.castSucc b).val = b.val from rfl, if_pos hbus, ← hw,
      State.canAttempt_last b.isLt (by rw [hrec]; exact hone) (by rw [hrec, hchan]; exact hlast)]
    refine ⟨_, rfl, ?fail, ?counts, ?raises⟩
    case fail =>
      rw [State.get_raise _ _ _ _ (by simp only [F.CAN_TXCOUNT_TX_FAIL, F.EVT_COUNTS_LOST]; omega)
        (by simp only [F.CAN_TXCOUNT_TX_FAIL, F.EVT_STATUS_LOST]; omega),
        State.get_bump_same _ _ (by simp [F.CAN_TXCOUNT_TX_FAIL]), State.get_of_regs hregs,
        hcounted.kept.get (by simp [F.CAN_TXCOUNT_TX_FAIL, R.CAN_ERR]) (by simp only [F.CAN_TXCOUNT_TX_FAIL, R.CAN_STATUS]; omega)
          (by simp only [F.CAN_TXCOUNT_TX_FAIL, F.EVT_COUNTS_LOST]; omega)
          (by simp only [F.CAN_TXCOUNT_TX_FAIL, F.EVT_STATUS_LOST]; omega)]
    case counts =>
      exact hcounted.counts.of_quiet (((CanQuiet.of_regs hregs).trans (CanQuiet.bump (.inl rfl) _ 1)).trans
        (CanQuiet.raise ch.isLt ..))
    case raises =>
      rintro ⟨htec, hrec, hroom⟩
      exact Raises.raise (s := s) (t := (w.canGone ch.val b.val).bump _ 1) hroom (hrecd.trans (hcounted.silent ⟨htec, hrec⟩)) _ _
  case again =>
    intro ch b tec rec s hbus hone hmore
    have hcounted := State.canErrors_counted ch.isLt s tec rec
    obtain ⟨w, hw⟩ : ∃ w, w = s.canErrors ch.val tec rec := ⟨_, rfl⟩
    rw [← hw] at hcounted
    have hrec := State.canRec_of_img hcounted.kept.img ch.val
    have hchan := State.canCh_of_can hcounted.kept.can ch.val
    rw [exec_canTxAttemptFail, show (Fin.castSucc b).val = b.val from rfl, if_pos hbus, ← hw,
      State.canAttempt_again b.isLt (by rw [hrec]; exact hone) (by rw [hrec, hchan]; exact hmore), hchan]
    refine ⟨_, rfl, ?attempts, ?inTx, hcounted.counts.of_quiet (CanQuiet.of_regs rfl), hcounted.silent,
      fun h => SameRegs.of_regs rfl (hcounted.only h)⟩
    case attempts => rw [State.canCh_setCan_same, CanState.buf_setBuf_same]
    case inTx => rw [State.canCh_setCan_same, CanState.buf_setBuf_same]
  case oneShot =>
    intro ch b tec rec s hbus hone
    have hcounted := State.canErrors_counted ch.isLt s tec rec
    obtain ⟨w, hw⟩ : ∃ w, w = s.canErrors ch.val tec rec := ⟨_, rfl⟩
    rw [← hw] at hcounted
    have hrec := State.canRec_of_img hcounted.kept.img ch.val
    obtain ⟨hregs, hrecd⟩ := State.canGone_only b.isLt w ch.val
    have hbuf := State.canGone_buf b.isLt w ch.val
    rw [exec_canTxAttemptFail, show (Fin.castSucc b).val = b.val from rfl, if_pos hbus, ← hw,
      State.canAttempt_oneShot b.isLt (by rw [hrec]; exact hone)]
    dsimp only
    obtain ⟨o, ho⟩ : ∃ o, o = if b.val < 32 then R.CAN_TXFAIL_LO ch.val else R.CAN_TXFAIL_HI ch.val := ⟨_, rfl⟩
    have hfails : o ≠ R.CAN_ERR ch.val ∧ o ≠ R.CAN_STATUS ch.val := by
      rw [ho]
      split <;> simp only [R.CAN_TXFAIL_LO, R.CAN_TXFAIL_HI, R.CAN_ERR, R.CAN_STATUS] <;> omega
    rw [← ho]
    refine ⟨_, rfl, ?bit, ?attempts, ?counts, fun h => hrecd.trans (hcounted.silent h)⟩
    case bit =>
      rw [State.rd_wr_same]
      exact getLsbD_or_bit _ (Nat.mod_lt _ (by decide))
    case attempts => exact (congrArg CanBufState.attempts hbuf).trans (CanBufState.gone_attempts _)
    case counts =>
      exact hcounted.counts.of_quiet (((CanQuiet.of_regs hregs).trans (CanQuiet.bump (.inl rfl) _ 1)).trans
        ⟨State.rd_wr_ne _ _ hfails.1, State.rd_wr_ne _ _ hfails.2⟩)
  case otherBus =>
    intro ch b tec rec s hbus
    rw [exec_canTxDone, exec_canTxAttemptFail, if_neg (by rw [hbus]; decide), if_neg (by rw [hbus]; decide)]
    exact ⟨rfl, rfl⟩
  case busOff =>
    intro ch s hfree hroom
    obtain ⟨v, hv⟩ : ∃ v, v = s.setCan ch.val (s.canCh ch.val).dropAll := ⟨_, rfl⟩
    have hregs : v.regs = s.regs := by rw [hv, State.setCan_regs]
    have hrecd : v.recd = s.recd := by rw [hv, State.setCan_recd]
    obtain ⟨htxf, hbufs⟩ := (s.canCh ch.val).dropAll_spec
    obtain ⟨hraises, hraised⟩ := State.raise_after (t := (v.canFill ch.val).put (F.CAN_STATUS_ESTATE ch.val) 2) hroom hrecd 0xC001
      (le 1 ch.val)
    rw [exec_canBusOff, if_neg (by rw [hfree]; decide), ← hv]
    have hchannel : ((((v.canFill ch.val).put (F.CAN_STATUS_ESTATE ch.val) 2).raise 0xC001 islCan (le 1 ch.val)).canCh ch.val) =
        (s.canCh ch.val).dropAll := by
      rw [State.canCh_of_can ((State.raise_can ..).trans ((State.put_can ..).trans (v.canFill_can ch.val))), hv,
        State.canCh_setCan_same]
    refine ⟨_, rfl, ?state, ?fifo, fun b => ?bufs, hraises, ?regs⟩
    case state =>
      rw [State.get_of_regs hraised, State.get_put_same _ _ (by simp [F.CAN_STATUS_ESTATE])]
      rfl
    case fifo => rw [hchannel, htxf]
    case bufs =>
      rw [hchannel]
      exact hbufs b
    case regs =>
      refine SameRegs.of_regs hraised (SameRegs.put 2 (List.mem_cons_self ..) (SameRegs.trans (t := v)
        (SameRegs.of_regs hregs (SameRegs.refl s _)) ((v.canFill_only ch.val).2.mono fun o ho => List.mem_cons_of_mem _ ho)))
  case restricted =>
    intro ch s hrestricted
    rw [exec_canBusOff, if_pos hrestricted]
  case auto =>
    intro ch s hoff hauto hroom
    rw [exec_canAutoRecover, if_pos ⟨hoff, hauto⟩]
    exact ⟨_, rfl, State.canRejoin_spec hroom ch.val⟩
  case noAuto =>
    intro ch s hon
    rw [exec_canAutoRecover, if_neg fun h => hon h.1]
  case recover =>
    intro ch s hoff hauto hactive hroom
    obtain ⟨hstate, -, -, hraises, -⟩ := State.canRejoin_spec hroom ch.val
    rw [exec_canRecover, if_pos ⟨hoff, hauto, hactive⟩]
    exact ⟨_, rfl, hstate, hraises⟩
  case noRecover =>
    intro ch s hactive
    rw [exec_canRecover, if_neg fun h => absurd (hactive.symm.trans h.2.2) (by decide)]
  case pop0 =>
    intro ch s
    obtain ⟨v, hv⟩ : ∃ v, v = s.setCan ch.val { s.canCh ch.val with rxf0 := (s.canCh ch.val).rxf0.drop 1 } := ⟨_, rfl⟩
    have hchannel : (v.canFill ch.val).canCh ch.val = { s.canCh ch.val with rxf0 := (s.canCh ch.val).rxf0.drop 1 } := by
      rw [State.canCh_of_can (v.canFill_can ch.val), hv, State.canCh_setCan_same]
    have hsame : v = { s with can := v.can } := by rw [hv]; rfl
    have honly := v.canFill_only ch.val
    rw [exec_canPop0, ← hv]
    refine ⟨_, rfl, by rw [hchannel], by rw [hchannel], ?_, fun o ho => (honly.2 o ho).trans ?_⟩
    · rw [honly.1, hsame]
    · rw [hsame]
      rfl
  case pop1 =>
    intro ch s
    obtain ⟨v, hv⟩ : ∃ v, v = s.setCan ch.val { s.canCh ch.val with rxf1 := (s.canCh ch.val).rxf1.drop 1 } := ⟨_, rfl⟩
    have hchannel : (v.canFill ch.val).canCh ch.val = { s.canCh ch.val with rxf1 := (s.canCh ch.val).rxf1.drop 1 } := by
      rw [State.canCh_of_can (v.canFill_can ch.val), hv, State.canCh_setCan_same]
    have hsame : v = { s with can := v.can } := by rw [hv]; rfl
    have honly := v.canFill_only ch.val
    rw [exec_canPop1, ← hv]
    refine ⟨_, rfl, by rw [hchannel], by rw [hchannel], ?_, fun o ho => (honly.2 o ho).trans ?_⟩
    · rw [honly.1, hsame]
    · rw [hsame]
      rfl
  case push =>
    intro ch s hactive hroom
    obtain ⟨v, hv⟩ : ∃ v, v = s.setCan ch.val { s.canCh ch.val with
      txf := (s.canCh ch.val).txf ++ [s.canStaged ch.val]
      arb := if (s.canCh ch.val).arb.isSome then (s.canCh ch.val).arb else s.canNext ch.val } := ⟨_, rfl⟩
    have htxf : (v.canCh ch.val).txf = (s.canCh ch.val).txf ++ [s.canStaged ch.val] := by
      rw [hv, State.canCh_setCan_same]
    have hregs : v.regs = s.regs := by rw [hv]; rfl
    have hout : v.out = s.out := by rw [hv]; rfl
    rw [exec_canPush, if_neg (by rw [hactive]; decide), if_neg (Nat.not_le.2 hroom), ← hv]
    refine ⟨_, rfl, htxf, ?fill, congrArg (· ++ [_]) hout, ?regs⟩
    case fill =>
      rw [State.get_of_regs (State.send_regs ..), (v.canFill_get ch.val).2.2, htxf, List.length_append]
      exact Nat.mod_eq_of_lt (show (s.canCh ch.val).txf.length + 1 < 64 by omega)
    case regs =>
      exact SameRegs.of_regs (State.send_regs ..) ((SameRegs.of_regs hregs (SameRegs.refl s _)).trans (v.canFill_only ch.val).2)
  case discard =>
    intro ch s hactive hroom
    obtain ⟨hcount, hraises, -, hregs⟩ := State.bump_raise (s := s) (f := F.CAN_TXCOUNT_TXF_DISCARD ch.val) (isl := islCan) 1 0xC030
      [] (by simp [F.CAN_TXCOUNT_TXF_DISCARD]) hroom
    rw [exec_canPush, if_pos (by rw [hactive]; rfl)]
    exact ⟨_, rfl, hcount, hraises, State.raise_can .., State.raise_out .., hregs⟩
  case pushFull =>
    intro ch s hactive hfull
    rw [exec_canPush, if_neg (by rw [hactive]; decide), if_pos hfull]
  case bstat =>
    intro ch s
    refine ⟨_, rfl, ?_, rfl⟩
    rw [State.canBstatClear, State.canCh_setCan_same, CanState.buf_setBuf_same]
  case stale =>
    intro ch b s hkind hfresh hmissed
    obtain ⟨v, hv⟩ : ∃ v, v = s.setCan ch.val ((s.canCh ch.val).setBuf b.val { (s.canCh ch.val).buf b.val with timedOut := true }) :=
      ⟨_, rfl⟩
    have hbuf : ((v.canCh ch.val).buf b.val).timedOut = true := by
      rw [hv, State.canCh_setCan_same, CanState.buf_setBuf_same]
    have hsame : v.regs = s.regs ∧ v.recd = s.recd ∧ v.mem = s.mem := by
      rw [hv]
      exact ⟨rfl, rfl, rfl⟩
    obtain ⟨hregs, hrecd, hmem⟩ := hsame
    have hdelivered := v.each_delivered (((s.canRec ch.val).buf b.val).entries (s.canRec ch.val))
    rw [exec_canRxTimeout_due hkind hfresh hmissed, ← hv]
    obtain ⟨w, hw⟩ : ∃ w, w = v.each (((s.canRec ch.val).buf b.val).entries (s.canRec ch.val)) fun t m => t.deliverStale m.point :=
      ⟨_, rfl⟩
    rw [← hw] at hdelivered ⊢
    have hwrecd : w.recd = s.recd := by rw [hdelivered, ← hrecd]
    refine ⟨_, rfl, ?timedOut, fun hroom => ?raises, ?mem⟩
    case timedOut =>
      rw [State.canCh_of_can (State.raise_can ..), State.canCh_of_can (s := v) (t := w) (by rw [hdelivered])]
      exact hbuf
    case raises =>
      obtain ⟨hraises, hraised⟩ := State.raise_after hroom hwrecd 0xC022 []
      exact ⟨hraises, by rw [hraised, hdelivered, ← hregs]⟩
    case mem => rw [State.raise_mem, hdelivered, ← hmem]
  case staleOnce =>
    intro ch b s hstale
    show execCanRxTimeout ch b s = _
    unfold execCanRxTimeout
    dsimp only
    rw [if_neg fun h => absurd (hstale.symm.trans h.2.1) (by decide)]

end Sys2Proof.Machine
end

section
/-! Start-up: what a stage that begins leaves, and what the loss of power leaves (16 R695, R700; 02 R74). -/
namespace Sys2Proof.Machine

/-! ## Registers that a group of writes leaves -/

/-- A 64-bit register after it was written. -/
theorem State.rd64_wr64 (s : State) (o : Nat) {v : Nat} (hv : v < 2 ^ 64) : (s.wr64 o v).rd64 o = v := by
  have hlow : (s.wr64 o v).rd o = BitVec.ofNat 32 v :=
    (State.rd_wr_ne _ _ (by omega)).trans (State.rd_wr_same _ _ _)
  have hhigh : (s.wr64 o v).rd (o + 4) = BitVec.ofNat 32 (v / 2 ^ 32) := State.rd_wr_same _ _ _
  rw [State.rd64, hlow, hhigh, BitVec.toNat_ofNat, BitVec.toNat_ofNat]
  omega

/-- Registers listed are whole fields listed. -/
theorem SameFlds.of_sameRegs {s t : State} {l : List Nat} {m : List Fld} (h : SameRegs s t l)
    (hm : ∀ o ∈ l, (⟨o, 0, 32⟩ : Fld) ∈ m) : SameFlds s t m := fun g hg => by
  obtain ⟨hpos, hfits, hapart⟩ := Fld.clearOf_iff.1 hg
  have hout : g.off ∉ l := fun hl => (hapart _ (hm _ hl)).elim (fun hne => hne rfl) fun h => by
    dsimp only at h
    omega
  rw [State.get, h g.off hout, State.get]

theorem State.on_of_get {s t : State} {f : Fld} (h : t.get f = s.get f) : t.on f = s.on f := by
  rw [State.on, h, State.on]

/-! ## Power domains -/

theorem State.pd_of_rd {s t : State} (h : t.rd R.PWR_ON = s.rd R.PWR_ON) (d : Nat) : t.pd d = s.pd d := by
  rw [State.pd, State.rdN, h, State.pd, State.rdN]

/-- A domain of a list that is powered is on. -/
theorem State.pd_power (s : State) {l : List Nat} {d : Nat} (hd : d < 32)
    (h : (flags (l.map fun d => (d, true))).testBit d = true) : (s.power l).pd d = true := by
  have hon : (s.power l).rdN R.PWR_ON =
      (s.rdN R.PWR_ON ||| flags (l.map fun d => (d, true))) % 2 ^ 32 :=
    (congrArg BitVec.toNat (State.rd_wr_same s R.PWR_ON _)).trans (BitVec.toNat_ofNat ..)
  rw [State.pd, hon, bitOf, Nat.testBit_mod_two_pow, Nat.testBit_or, h, Bool.or_true, decide_eq_true hd, Bool.and_true]

theorem State.power_only (s : State) (l : List Nat) : OnlyRegs s (s.power l) [R.PWR_ON] :=
  OnlyRegs.wrN _ (List.mem_cons_self ..) (OnlyRegs.refl s _)

/-! ## A stage begins (16 R695) -/

/-- The fields that the begin of a stage after another changes. -/
def stageFlds (st : Nat) : List Fld := ⟨R.MOD_STAGE_MS st, 0, 32⟩ :: F.MOD_STATUS_STAGE :: lostFlds

theorem State.beginStage_flds (s : State) (n : Nat) : SameFlds s (s.beginStage n) (stageFlds (s.get F.MOD_STATUS_STAGE)) :=
  SameFlds.raise _ _ _ (fun _ h => List.mem_cons_of_mem _ (List.mem_cons_of_mem _ h)) <| SameFlds.of_regs rfl <|
    SameFlds.put _ (List.mem_cons_of_mem _ (List.mem_cons_self ..)) <| SameFlds.wrN _ (List.mem_cons_self ..) (SameFlds.refl s _)

theorem State.beginStage_stage (s : State) {n : Nat} (hn : n < 8) : (s.beginStage n).get F.MOD_STATUS_STAGE = n :=
  (State.get_raise _ _ _ _ (by decide) (by decide)).trans <|
    (State.get_put_same _ _ (by decide)).trans (Nat.mod_eq_of_lt hn)

/-- The fields that the check of the MRAM regions changes (03 R138). -/
def checkFlds : List Fld := lostFlds ++ nvRegs.map fun o => ⟨o, 0, 32⟩

theorem State.mramCheck_flds (s : State) : SameFlds s s.mramCheck checkFlds := by
  have hraises : SameFlds s ((s.inNv fun v => ({ v.bad.foldl Nv.repair v with bad := [] } : Nv).seqStart).each s.nv.failed
      fun t _ => t.raise 0x2032 islMram []) checkFlds :=
    State.each_related (K := fun t u => SameFlds t u checkFlds) (f := fun t _ => t.raise 0x2032 islMram [])
      (fun t => SameFlds.refl t _) (fun h h' => h.trans h' fun _ hf => hf)
      (fun _ _ t => SameFlds.raise _ _ _ (fun _ h => List.mem_append_left _ h) (SameFlds.refl t _))
      (s.inNv fun v => ({ v.bad.foldl Nv.repair v with bad := [] } : Nv).seqStart)
  exact hraises.trans (SameFlds.of_sameRegs (State.showNv_only _).2 fun o ho =>
    List.mem_append_right _ (List.mem_map.2 ⟨o, ho, rfl⟩)) fun _ hf => hf

/-- The fields that S1 changes after its domains are powered and the recorder runs. -/
def s1Flds : List Fld := stageFlds 0 ++ checkFlds

/-- The state of S1 before its first stage event: its domains powered, the recorder running, the profile being checked. -/
def State.s1Powered (s : State) : State :=
  (((if s.pd 6 then s else s.tm fun u => { u with poweredAt := s.now }).power [22, 7, 6, 18, 1]).put F.EVT_STATUS_RUNNING 1).put
    F.IMG_STATUS_LOAD_STATE 1

/-- The state of S1 after its first stage event. -/
def State.s1Begun (s : State) : State :=
  (s.s1Powered.pn fun p => { p with lampTest := true, lampTill := s.s1Powered.now + 1000000000, lastStart := none }).beginStage 1

/-- The restart is reported (16 R717). -/
def State.restartNoted (s : State) : State :=
  if s.pwr.restartNote then s.raise 0x0003 islSup (le 4 (getBits s.nv.causeWord 0 4) ++ le 4 (getBits s.nv.causeWord 4 4)) else s

/-- An uncharged bank is reported (16 R701). -/
def State.bankNoted (s : State) : State := if s.pwr.bankLow then s.raise 0xD020 islSup [] else s

theorem State.startS1_eq (s : State) : s.startS1 =
    (s.s1Begun.restartNoted.bankNoted.pw fun p => { p with restartNote := false, bankLow := false }).mramCheck := by rfl

theorem State.restartNoted_flds (s : State) : SameFlds s s.restartNoted lostFlds := by
  unfold State.restartNoted
  split
  · exact SameFlds.raise _ _ _ (fun _ h => h) (SameFlds.refl s _)
  · exact SameFlds.refl s _

theorem State.bankNoted_flds (s : State) : SameFlds s s.bankNoted lostFlds := by
  unfold State.bankNoted
  split
  · exact SameFlds.raise _ _ _ (fun _ h => h) (SameFlds.refl s _)
  · exact SameFlds.refl s _

/-- What S1 reports, and its check of MRAM. -/
theorem State.startS1_flds (s : State) : SameFlds s.s1Begun s.startS1 checkFlds := by
  have hnoted : SameFlds s.s1Begun s.s1Begun.restartNoted.bankNoted lostFlds :=
    s.s1Begun.restartNoted_flds.trans s.s1Begun.restartNoted.bankNoted_flds fun _ hf => hf
  obtain ⟨v, hv⟩ : ∃ v, v = s.s1Begun.restartNoted.bankNoted := ⟨_, rfl⟩
  rw [State.startS1_eq, ← hv]
  rw [← hv] at hnoted
  exact ((SameFlds.refl s.s1Begun checkFlds).trans hnoted fun _ hf => List.mem_append_left _ hf).trans
    ((SameFlds.of_regs rfl (SameFlds.refl v checkFlds)).trans
      (State.mramCheck_flds (v.pw fun p => { p with restartNote := false, bankLow := false })) fun _ hf => hf) fun _ hf => hf

/-- S1 begins after S0: the stage, the domains of S1 and the recorder (16 R695, R701). -/
theorem State.startS1_spec {s : State} (h : s.get F.MOD_STATUS_STAGE = 0) : s.startS1.get F.MOD_STATUS_STAGE = 1 ∧
    (∀ d ∈ [22, 7, 6, 18, 1], s.startS1.pd d = true) ∧ s.startS1.on F.EVT_STATUS_RUNNING = true := by
  obtain ⟨r, hr⟩ : ∃ r, r = (if s.pd 6 then s else s.tm fun u => { u with poweredAt := s.now }) := ⟨_, rfl⟩
  have hrregs : r.regs = s.regs := by
    rw [hr]
    split <;> rfl
  obtain ⟨w, hw⟩ : ∃ w, w = s.s1Powered.pn fun p =>
    { p with lampTest := true, lampTill := s.s1Powered.now + 1000000000, lastStart := none } := ⟨_, rfl⟩
  have hwregs : w.regs = (((r.power [22, 7, 6, 18, 1]).put F.EVT_STATUS_RUNNING 1).put F.IMG_STATUS_LOAD_STATE 1).regs := by
    rw [hw, State.pn_regs, hr]
    rfl
  have hstage : w.get F.MOD_STATUS_STAGE = 0 := by
    rw [State.get_of_regs hwregs, State.get_put_ne _ _ (by decide), State.get_put_ne _ _ (by decide),
      (State.power_only _ _).get (by decide), State.get_of_regs hrregs, h]
  have hbegun := hstage ▸ w.beginStage_flds 1
  have hstart : SameFlds (w.beginStage 1) s.startS1 checkFlds := by
    rw [hw]
    exact s.startS1_flds
  have hkept : SameFlds w s.startS1 s1Flds :=
    ((SameFlds.refl w s1Flds).trans hbegun fun _ hf => List.mem_append_left _ hf).trans hstart
      fun _ hf => List.mem_append_right _ hf
  refine ⟨?stage, fun d hd => ?domain, ?running⟩
  case stage => exact (hstart _ (by decide)).trans (w.beginStage_stage (by decide))
  case domain =>
    have hpower : s.startS1.rd R.PWR_ON = (r.power [22, 7, 6, 18, 1]).rd R.PWR_ON :=
      (hkept.rd (by decide)).trans <| (State.rd_of_regs hwregs _).trans <|
        (State.rd_put_ne _ _ (by decide)).trans (State.rd_put_ne _ _ (by decide))
    rw [State.pd_of_rd hpower]
    have hset : ∀ d ∈ [22, 7, 6, 18, 1], d < 32 ∧ (flags ([22, 7, 6, 18, 1].map fun d => (d, true))).testBit d = true := by decide
    exact State.pd_power r (hset d hd).1 (hset d hd).2
  case running =>
    have hrunning : s.startS1.get F.EVT_STATUS_RUNNING = 1 := by
      rw [hkept _ (by decide), State.get_of_regs hwregs, State.get_put_ne _ _ (by decide), State.get_put_same _ _ (by decide)]
      rfl
    rw [State.on, hrunning]
    rfl

/-! ## Power lost -/

/-- What the loss of both feeds leaves of MRAM: the keys and the count of power cycles (02 R72). -/
theorem State.powerOff_spec (s : State) : s.powerOff.get F.MOD_STATUS_STAGE = 0 ∧ s.powerOff.role = 0 ∧ s.powerOff.img = none ∧
    s.powerOff.mem = [] ∧ s.powerOff.flash = s.flash ∧ s.powerOff.nv.keys = s.nv.keys ∧
    s.powerOff.nv.pwrcyc = s.nv.pwrcyc := by
  obtain ⟨v, hv⟩ : ∃ v : State, v = ({ ({ s with keep := {} } : State).cleared with
    pwr := { cages := s.pwr.cages }, recd := {}, twin := { lastChange := some s.now }, regs := resetRegs } : State).wrN R.PWR_ON 0 :=
    ⟨_, rfl⟩
  have hoff : s.powerOff = v.showNv := by
    rw [hv]
    rfl
  have hget {f : Fld} (hf : R.PWR_ON ≠ f.off) : v.get f = getBits (tget 0 resetRegs f.off) f.lo f.len := by
    rw [hv]
    exact State.get_wrN_ne _ _ hf
  have hparts : v.img = none ∧ v.mem = [] ∧ v.flash = s.flash ∧ v.nv.keys = s.nv.keys ∧ v.nv.pwrcyc = s.nv.pwrcyc := by
    rw [hv]
    exact ⟨rfl, rfl, rfl, rfl, rfl⟩
  have hshow := v.showNv_eq
  obtain ⟨himg, hmem, hflash, hkeys, hcycles⟩ := hparts
  rw [hoff]
  refine ⟨?stage, ?role, ?img, ?mem, ?flash, ?keys, ?cycles⟩
  case stage =>
    rw [v.showNv_only.get (by decide), hget (by decide)]
    decide
  case role =>
    rw [State.showNv_role, State.role, hget (by decide)]
    decide
  case img => rw [hshow, himg]
  case mem => rw [hshow, hmem]
  case flash => rw [State.showNv_flash, hflash]
  case keys => rw [State.showNv_nv, hkeys]
  case cycles => rw [State.showNv_nv, hcycles]

end Sys2Proof.Machine
end

section
/-! Feeds, the supervisor's measurements, and what each start-up command does in its case (16 R690 to R701; 20 R799). -/
namespace Sys2Proof.Machine

/-! ## Feeds (16 R699, R718) -/

theorem State.setFeed_only (s : State) (f dv : Nat) (ok : Bool) : OnlyRegs s (s.setFeed f dv ok) [R.MOD_STATUS, R.PWR_FEED] := by
  unfold State.setFeed
  split <;> exact OnlyRegs.put _ (by decide) (OnlyRegs.putB _ (by decide) (OnlyRegs.putB _ (by decide) (OnlyRegs.refl s _)))

theorem State.get_putB_same (s : State) {f : Fld} (b : Bool) (hend : f.lo + f.len ≤ 32) (hlen : f.len = 1) :
    (s.putB f b).get f = b2n b := by
  rw [State.putB, State.get_put_same _ _ hend, hlen]
  cases b <;> rfl

/-- Feed A as the registers show it. -/
theorem State.setFeed_a (s : State) {dv : Nat} (hdv : dv < 1024) (ok : Bool) :
    (s.setFeed 0 dv ok).get F.MOD_STATUS_FEED_A_OK = b2n ok ∧ (s.setFeed 0 dv ok).get F.PWR_FEED_A_OK = b2n ok ∧
    (s.setFeed 0 dv ok).get F.PWR_FEED_A_DV = dv := by
  rw [State.setFeed, if_pos rfl]
  refine ⟨?status, ?feed, (State.get_put_same _ _ (by decide)).trans (Nat.mod_eq_of_lt hdv)⟩
  case status =>
    rw [State.get_put_ne _ _ (by decide), State.putB, State.get_put_ne _ _ (by decide)]
    exact State.get_putB_same s ok (by decide) rfl
  case feed =>
    rw [State.get_put_ne _ _ (by decide)]
    exact State.get_putB_same _ ok (by decide) rfl

/-- Feed B as the registers show it. -/
theorem State.setFeed_b (s : State) {dv : Nat} (hdv : dv < 1024) (ok : Bool) :
    (s.setFeed 1 dv ok).get F.MOD_STATUS_FEED_B_OK = b2n ok ∧ (s.setFeed 1 dv ok).get F.PWR_FEED_B_DV = dv := by
  rw [State.setFeed, if_neg (by decide)]
  refine ⟨?status, (State.get_put_same _ _ (by decide)).trans (Nat.mod_eq_of_lt hdv)⟩
  rw [State.get_put_ne _ _ (by decide), State.putB, State.get_put_ne _ _ (by decide)]
  exact State.get_putB_same s ok (by decide) rfl

/-- A feed that returns is reported, and no longer counts as lost. -/
def State.feedReturned (s : State) (f : Nat) : State :=
  if s.pwr.feedsLost.contains f then
    (s.pw fun p => { p with feedsLost := p.feedsLost.filter fun g => g ≠ f }).raise 0xD002 islSup []
  else s

/-- A feed qualifies: what the first of two feeds notes besides is its instant. -/
theorem exec_feedQualified_good {f : Fin 2} {dv : Fin 1024} {t : Nat} {s : State} (hpd : s.pd 0 = true)
    (hgood : (s.at t).feedGood f.val dv.val = true) : ∃ p : PwrState, exec (.feedQualified f dv t) s =
      .next { ((s.at t).setFeed f.val dv.val true).feedReturned f.val with pwr := p } ∧
    p.feedsLost = (((s.at t).setFeed f.val dv.val true).feedReturned f.val).pwr.feedsLost := by
  have hlost : ((s.at t).setFeed f.val dv.val true).pwr = s.pwr := by
    rw [((s.at t).setFeed_only f.val dv.val true).1, State.at_pwr]
  have hexec : exec (.feedQualified f dv t) s = .next (if (s.at t).feedOk then
      ((s.at t).setFeed f.val dv.val true).feedReturned f.val else
      (((s.at t).setFeed f.val dv.val true).feedReturned f.val).pw fun p => { p with feedAt := (s.at t).now }) := by
    show execFeedQualified f dv t s = _
    unfold execFeedQualified
    dsimp only
    rw [if_neg (by rw [show (s.at t).pd 0 = true from hpd, hgood]; decide), State.feedReturned, hlost, State.at_pwr]
  rw [hexec]
  split
  · exact ⟨_, rfl, rfl⟩
  · exact ⟨_, rfl, rfl⟩

theorem exec_feedQualified_outside {f : Fin 2} {dv : Fin 1024} {t : Nat} {s : State} (h : dv.val < 360 ∨ 750 < dv.val) :
    exec (.feedQualified f dv t) s = .next (s.at t) := by
  have hbad : (s.at t).feedGood f.val dv.val = false := by
    rw [State.feedGood]
    rcases h with h | h
    · rw [decide_eq_false (by omega : ¬ 360 ≤ dv.val), Bool.false_and, Bool.false_and]
    · rw [decide_eq_false (by omega : ¬ dv.val ≤ 750), Bool.and_false, Bool.false_and]
  show execFeedQualified f dv t s = _
  unfold execFeedQualified
  dsimp only
  rw [if_pos (by rw [hbad, Bool.not_false, Bool.or_true])]

theorem exec_feedLost_a {dv : Fin 1024} {t : Nat} {s : State} (hpd : s.pd 0 = true) (hout : dv.val < 330 ∨ 780 < dv.val)
    (hok : s.on F.MOD_STATUS_FEED_A_OK = true) : exec (.feedLost 0 dv t) s =
    .next (((((s.at t).setFeed 0 dv.val false).feedOutNow 0).pw fun p =>
      { p with feedsLost := 0 :: p.feedsLost.filter fun f => f ≠ 0 }).raise 0xD001 islSup
        (le 4 0 ++ le 4 (b2n (decide (780 < dv.val))))) := by
  show execFeedLost 0 dv t s = _
  unfold execFeedLost
  dsimp only
  have hacts : ¬ ((!(s.at t).pd 0) = true ∨ 330 ≤ dv.val ∧ dv.val ≤ 780) := by
    rw [show (s.at t).pd 0 = true from hpd]
    rintro (h | h)
    · exact absurd h (by decide)
    · omega
  rw [if_neg hacts]
  exact congrArg _ (if_pos hok)

theorem exec_feedLost_inside {f : Fin 2} {dv : Fin 1024} {t : Nat} {s : State} (hlow : 330 ≤ dv.val) (hhigh : dv.val ≤ 780) :
    exec (.feedLost f dv t) s = .next (s.at t) := by
  show execFeedLost f dv t s = _
  unfold execFeedLost
  dsimp only
  rw [if_pos (.inr ⟨hlow, hhigh⟩)]

/-- Feed A returns after a loss (16 R718). -/
theorem exec_feedQualified_back {dv : Fin 1024} {t : Nat} {s : State} (hpd : s.pd 0 = true)
    (hgood : (s.at t).feedGood 0 dv.val = true) (hlost : 0 ∈ s.pwr.feedsLost) (hroom : s.Room islSup) :
    Steps (exec (.feedQualified 0 dv t) s) fun u => u.get F.MOD_STATUS_FEED_A_OK = 1 ∧ u.get F.PWR_FEED_A_OK = 1 ∧
      u.get F.PWR_FEED_A_DV = dv.val ∧ 0 ∉ u.pwr.feedsLost ∧ Raises s u 0xD002 islSup [] ∧
      SameRegs s u [R.MOD_STATUS, R.PWR_FEED] := by
  obtain ⟨p, hexec, hfeeds⟩ := exec_feedQualified_good (f := 0) hpd hgood
  obtain ⟨v, hv⟩ : ∃ v, v = (s.at t).setFeed 0 dv.val true := ⟨_, rfl⟩
  have hshown := (s.at t).setFeed_a dv.isLt true
  have honly := (s.at t).setFeed_only 0 dv.val true
  rw [← hv] at hshown honly
  have hvparts : v.recd = s.recd ∧ v.pwr = s.pwr := by
    rw [honly.1]
    exact ⟨rfl, rfl⟩
  obtain ⟨hrecd, hpwr⟩ := hvparts
  obtain ⟨x, hx⟩ : ∃ x, x = v.pw fun q => { q with feedsLost := q.feedsLost.filter fun g => g ≠ 0 } := ⟨_, rfl⟩
  have hxregs : x.regs = v.regs := by rw [hx, State.pw_regs]
  have hreturned : v.feedReturned 0 = x.raise 0xD002 islSup [] := by
    rw [State.feedReturned, hpwr, if_pos (List.contains_iff_mem.2 hlost), hx]
  obtain ⟨hraises, hregs⟩ := State.raise_after (t := x) hroom (by rw [hx, State.pw_recd, hrecd]) 0xD002 []
  rw [show (s.at t).setFeed (0 : Fin 2).val dv.val true = v from hv.symm, show (0 : Fin 2).val = 0 from rfl, hreturned] at hexec hfeeds
  obtain ⟨u, hu⟩ : ∃ u : State, u = { x.raise 0xD002 islSup [] with pwr := p } := ⟨_, rfl⟩
  have huregs : u.regs = v.regs := by
    rw [hu, ← hxregs, ← hregs]
  have hupwr : u.pwr = p := by rw [hu]
  have hurecd : u.recd = (x.raise 0xD002 islSup []).recd := by rw [hu]
  obtain ⟨hstatus, hfeed, hvolts⟩ := hshown
  rw [hexec, ← hu]
  refine ⟨u, rfl, ?_, ?_, ?_, ?_, ?_, ?_⟩
  · rw [State.get_of_regs huregs, hstatus]
    rfl
  · rw [State.get_of_regs huregs, hfeed]
    rfl
  · rw [State.get_of_regs huregs, hvolts]
  · rw [hupwr, hfeeds, State.raise_pwr, hx, State.pw_pwr]
    simp
  · obtain ⟨r, hqueue, hr⟩ := hraises
    exact ⟨r, by rw [hurecd, hqueue], hr⟩
  · exact SameRegs.of_regs huregs honly.2

/-- Feed B qualifies without a loss before (16 R699). -/
theorem exec_feedQualified_first {dv : Fin 1024} {t : Nat} {s : State} (hpd : s.pd 0 = true)
    (hgood : (s.at t).feedGood 1 dv.val = true) (hkept : 1 ∉ s.pwr.feedsLost) :
    Steps (exec (.feedQualified 1 dv t) s) fun u => u.get F.MOD_STATUS_FEED_B_OK = 1 ∧ u.get F.PWR_FEED_B_DV = dv.val ∧
      u.recd = s.recd ∧ SameRegs s u [R.MOD_STATUS, R.PWR_FEED] := by
  obtain ⟨p, hexec, -⟩ := exec_feedQualified_good (f := 1) hpd hgood
  obtain ⟨v, hv⟩ : ∃ v, v = (s.at t).setFeed 1 dv.val true := ⟨_, rfl⟩
  have hshown := (s.at t).setFeed_b dv.isLt true
  have honly := (s.at t).setFeed_only 1 dv.val true
  rw [← hv] at hshown honly
  have hvparts : v.recd = s.recd ∧ v.pwr = s.pwr := by
    rw [honly.1]
    exact ⟨rfl, rfl⟩
  obtain ⟨hrecd, hpwr⟩ := hvparts
  have hreturned : v.feedReturned 1 = v := by
    rw [State.feedReturned, hpwr, if_neg fun h => hkept (List.contains_iff_mem.1 h)]
  rw [show (s.at t).setFeed (1 : Fin 2).val dv.val true = v from hv.symm, show (1 : Fin 2).val = 1 from rfl, hreturned] at hexec
  obtain ⟨u, hu⟩ : ∃ u : State, u = { v with pwr := p } := ⟨_, rfl⟩
  have huregs : u.regs = v.regs := by rw [hu]
  have hurecd : u.recd = v.recd := by rw [hu]
  obtain ⟨hstatus, hvolts⟩ := hshown
  rw [hexec, ← hu]
  exact ⟨u, rfl, (State.get_of_regs huregs _).trans hstatus, (State.get_of_regs huregs _).trans hvolts, hurecd.trans hrecd,
    SameRegs.of_regs huregs honly.2⟩

/-- Feed A leaves its range (16 R718, 20 R799). -/
theorem exec_feedLost_gone {dv : Fin 1024} {t : Nat} {s : State} (hpd : s.pd 0 = true) (hout : dv.val < 330 ∨ 780 < dv.val)
    (hok : s.on F.MOD_STATUS_FEED_A_OK = true) (hroom : s.Room islSup) : Steps (exec (.feedLost 0 dv t) s) fun u =>
      u.get F.MOD_STATUS_FEED_A_OK = 0 ∧ u.get F.PWR_FEED_A_DV = dv.val ∧ 0 ∈ u.pwr.feedsLost ∧
      Raises s u 0xD001 islSup (le 4 0 ++ le 4 (b2n (decide (780 < dv.val)))) ∧ SameRegs s u [R.MOD_STATUS, R.PWR_FEED] := by
  obtain ⟨v, hv⟩ : ∃ v, v = (s.at t).setFeed 0 dv.val false := ⟨_, rfl⟩
  have hshown := (s.at t).setFeed_a dv.isLt false
  have honly := (s.at t).setFeed_only 0 dv.val false
  rw [← hv] at hshown honly
  obtain ⟨hstatus, -, hvolts⟩ := hshown
  obtain ⟨x, hx⟩ : ∃ x, x = (v.feedOutNow 0).pw fun p =>
    { p with feedsLost := 0 :: p.feedsLost.filter fun f => f ≠ 0 } := ⟨_, rfl⟩
  have hxregs : x.regs = v.regs := by
    rw [hx, State.pw_regs, State.feedOutNow, State.pw_regs]
  have hxrecd : x.recd = s.recd := by
    rw [hx, State.pw_recd, State.feedOutNow, State.pw_recd, honly.1]
    rfl
  have hxlost : 0 ∈ x.pwr.feedsLost := by
    rw [hx, State.pw_pwr]
    exact List.mem_cons_self ..
  obtain ⟨hraises, hregs⟩ := State.raise_after hroom hxrecd 0xD001 (le 4 0 ++ le 4 (b2n (decide (780 < dv.val))))
  rw [exec_feedLost_a hpd hout hok, ← hv, ← hx]
  refine ⟨_, rfl, ?_, ?_, ?_, hraises, SameRegs.of_regs (hregs.trans hxregs) honly.2⟩
  · exact (State.get_of_regs (hregs.trans hxregs) _).trans hstatus
  · exact (State.get_of_regs (hregs.trans hxregs) _).trans hvolts
  · rwa [State.raise_pwr]

/-! ## PD0 and its measurements -/

theorem State.latchAll_flash (s : State) : s.latchAll.flash = s.flash := rfl
theorem State.showNv_img (s : State) : s.showNv.img = s.img := by rw [s.showNv_eq]
theorem State.showNv_mem (s : State) : s.showNv.mem = s.mem := by rw [s.showNv_eq]

/-- PD0 comes up: S0 with cause 0, one power cycle more (16 R700, 02 R72). -/
theorem exec_pd0PowerUp_spec (prof : Fin 4) (t : Nat) (s : State) : Steps (exec (.pd0PowerUp prof t) s) fun u => u.Restarted 0 ∧
    u.nv.pwrcyc = min (s.nv.pwrcyc + 1) (2 ^ 24 - 1) ∧ u.get F.IMG_STRAP_PROF_LATCH = prof.val ∧ u.rdN R.PWR_ON = 1 ∧
    u.flash = s.flash ∧ u.nv.keys = s.nv.keys := by
  obtain ⟨hstage, hrole, himg, hmem, hflash, hkeys, hcycles⟩ := (s.at t).powerOff_spec
  obtain ⟨v, hv⟩ : ∃ v, v = (s.at t).powerOff := ⟨_, rfl⟩
  rw [← hv] at hstage hrole himg hmem hflash hkeys hcycles
  obtain ⟨x, hx⟩ : ∃ x, x = v.inNv fun n => { n with
    pwrcyc := min (n.pwrcyc + 1) (2 ^ 24 - 1), pwrcycB := min (n.pwrcyc + 1) (2 ^ 24 - 1), causeWord := causeAfter n.causeWord 0 } :=
    ⟨_, rfl⟩
  have hxregs : x.regs = v.regs := by rw [hx, State.inNv_regs]
  have hparts : x.img = none ∧ x.mem = [] ∧ x.flash = s.flash ∧ x.nv.keys = s.nv.keys ∧
      x.nv.pwrcyc = min (s.nv.pwrcyc + 1) (2 ^ 24 - 1) ∧ x.nv.causeWord = causeAfter v.nv.causeWord 0 := by
    rw [hx]
    refine ⟨himg, hmem, hflash, hkeys, ?_, rfl⟩
    rw [← State.at_nv s t, ← hcycles]
    rfl
  obtain ⟨hximg, hxmem, hxflash, hxkeys, hxcycles, hxcause⟩ := hparts
  obtain ⟨w, hw⟩ : ∃ w, w = ((x.wrN R.PWR_ON 1).put F.IMG_STRAP_PROF_LATCH prof.val).put F.IMG_STRAP_PROF_LIVE prof.val := ⟨_, rfl⟩
  have hwx : w.nv = x.nv ∧ w.img = x.img ∧ w.mem = x.mem ∧ w.flash = x.flash := by
    rw [hw]
    exact ⟨rfl, rfl, rfl, rfl⟩
  obtain ⟨hwnv, hwimg, hwmem, hwflash⟩ := hwx
  have hexec : exec (.pd0PowerUp prof t) s =
      .next (w.showNv.latchAll.pw fun p => { p with stageAt := x.now, feedOut := [(0, x.now), (1, x.now)] }) := by
    show execPd0PowerUp prof t s = _
    unfold execPd0PowerUp
    dsimp only
    rw [← hv, ← hx, ← hw]
  obtain ⟨u, hu⟩ : ∃ u, u = w.showNv.latchAll.pw fun p => { p with stageAt := x.now, feedOut := [(0, x.now), (1, x.now)] } := ⟨_, rfl⟩
  have huget (f : Fld) : u.get f = w.showNv.get f := by
    rw [hu]
    rfl
  have hunv : u.nv = x.nv := by rw [hu, State.pw_nv, State.latchAll_nv, State.showNv_nv, hwnv]
  have huimg : u.img = x.img := by rw [hu, State.pw_img, State.latchAll_img, State.showNv_img, hwimg]
  have humem : u.mem = x.mem := by rw [hu, State.pw_mem, State.latchAll_mem, State.showNv_mem, hwmem]
  have huflash : u.flash = x.flash := by rw [hu, State.pw_flash, State.latchAll_flash, State.showNv_flash, hwflash]
  rw [hexec, ← hu]
  refine ⟨u, rfl, ⟨?cause, ?stage, ?role, huimg.trans hximg, humem.trans hxmem⟩, ?cycles, ?profile, ?power, huflash.trans hxflash, ?keys⟩
  case cause =>
    rw [hunv, hxcause]
    exact getBits_causeAfter _ (by decide)
  case stage =>
    rw [huget, w.showNv_only.get (by decide), hw, State.get_put_ne _ _ (by decide), State.get_put_ne _ _ (by decide),
      State.get_wrN_ne _ _ (by decide), State.get_of_regs hxregs, hstage]
  case role =>
    rw [State.role, huget, ← State.role, State.showNv_role, State.role, hw, State.get_put_ne _ _ (by decide),
      State.get_put_ne _ _ (by decide), State.get_wrN_ne _ _ (by decide), State.get_of_regs hxregs]
    exact hrole
  case cycles => rw [hunv, hxcycles]
  case profile =>
    rw [huget, w.showNv_only.get (by decide), hw, State.get_put_ne _ _ (by decide), State.get_put_same _ _ (by decide)]
    exact Nat.mod_eq_of_lt prof.isLt
  case power =>
    have hpower : u.rd R.PWR_ON = BitVec.ofNat 32 1 := by
      rw [show u.rd R.PWR_ON = w.showNv.rd R.PWR_ON by rw [hu]; rfl, w.showNv_only.2 _ (by decide), hw,
        State.rd_put_ne _ _ (by decide), State.rd_put_ne _ _ (by decide), State.wrN, State.rd_wr_same]
    rw [State.rdN, hpower]
    rfl
  case keys => rw [hunv, hxkeys]

/-- A second of operation (16 R700, R714). -/
theorem exec_opsecTick_spec (w : Fin 65536) (a b : Fin 1024) (e : Fin 256) (prof : Fin 4) (t : Nat) {s : State}
    (hpd : s.pd 0 = true) : Steps (exec (.opsecTick w a b e prof t) s) fun u =>
      u.nv.opsec = min (s.nv.opsec + 1) (2 ^ 40 - 1) ∧ u.rd64 R.MOD_OPSEC = u.nv.opsec ∧ u.get F.PWR_INPUT_WATTS = w.val ∧
      u.get F.PWR_INPUT_MAX_W = max (s.get F.PWR_INPUT_MAX_W) w.val ∧ u.on F.PWR_HOLDUP_BANK_OK = decide (56 ≤ e.val) ∧
      u.mem = s.mem ∧ u.recd = s.recd := by
  obtain ⟨v, hv⟩ : ∃ v, v = (s.at t).inNv fun n =>
    { n with opsec := min (n.opsec + 1) (2 ^ 40 - 1), opsecB := min (n.opsec + 1) (2 ^ 40 - 1) } := ⟨_, rfl⟩
  have hvregs : v.regs = s.regs := by rw [hv, State.inNv_regs, State.at_regs]
  have hvparts : v.nv.opsec = min (s.nv.opsec + 1) (2 ^ 40 - 1) ∧ v.mem = s.mem ∧ v.recd = s.recd := by
    rw [hv]
    exact ⟨rfl, rfl, rfl⟩
  obtain ⟨hopsec, hmem, hrecd⟩ := hvparts
  obtain ⟨x, hx⟩ : ∃ x, x = (v.wr64 R.MOD_OPSEC v.nv.opsec).put F.PWR_INPUT_WATTS w.val := ⟨_, rfl⟩
  obtain ⟨y, hy⟩ : ∃ y, y = x.put F.PWR_INPUT_MAX_W (max (x.get F.PWR_INPUT_MAX_W) w.val) := ⟨_, rfl⟩
  obtain ⟨z, hz⟩ : ∃ z, z = ((y.put F.PWR_FEED_A_DV a.val).put F.PWR_FEED_B_DV b.val).put F.PWR_HOLDUP_BANK_DJ e.val := ⟨_, rfl⟩
  obtain ⟨u, hu⟩ : ∃ u, u = (z.putB F.PWR_HOLDUP_BANK_OK (decide (e.val ≥ 56))).put F.IMG_STRAP_PROF_LIVE prof.val := ⟨_, rfl⟩
  have hexec : exec (.opsecTick w a b e prof t) s = .next u := by
    rw [hu, hz, hy, hx, hv]
    show execOpsecTick w a b e prof t s = _
    unfold execOpsecTick
    dsimp only
    rw [if_neg (by rw [show (s.at t).pd 0 = true from hpd]; decide)]
  have hlater : OnlyRegs y u [R.PWR_FEED, R.PWR_HOLDUP, R.IMG_STRAP] := by
    rw [hu, hz]
    exact OnlyRegs.put _ (by decide) <| OnlyRegs.putB _ (by decide) <| OnlyRegs.put _ (by decide) <| OnlyRegs.put _ (by decide) <|
      OnlyRegs.put _ (by decide) (OnlyRegs.refl y _)
  have hinput : OnlyRegs (v.wr64 R.MOD_OPSEC v.nv.opsec) y [R.PWR_INPUT] := by
    rw [hy, hx]
    exact OnlyRegs.put _ (by decide) (OnlyRegs.put _ (by decide) (OnlyRegs.refl _ _))
  have hparts : u.nv = v.nv ∧ u.mem = v.mem ∧ u.recd = v.recd := by
    rw [hlater.1, hinput.1]
    exact ⟨rfl, rfl, rfl⟩
  obtain ⟨hunv, humem, hurecd⟩ := hparts
  have hmax : x.get F.PWR_INPUT_MAX_W = s.get F.PWR_INPUT_MAX_W := by
    rw [hx, State.get_put_ne _ _ (by decide),
      (OnlyRegs.wr64 (l := [R.MOD_OPSEC, R.MOD_OPSEC + 4]) v.nv.opsec (by decide) (by decide) (OnlyRegs.refl v _)).get (by decide),
      State.get_of_regs hvregs]
  have hbound : max (s.get F.PWR_INPUT_MAX_W) w.val < 2 ^ 16 := by
    have hfield : s.get F.PWR_INPUT_MAX_W < 2 ^ 16 := Nat.mod_lt _ (by decide)
    omega
  rw [hexec]
  refine ⟨u, rfl, by rw [hunv, hopsec], ?seconds, ?watts, ?most, ?bank, humem.trans hmem, hurecd.trans hrecd⟩
  case seconds =>
    have hlow : u.rd R.MOD_OPSEC = (v.wr64 R.MOD_OPSEC v.nv.opsec).rd R.MOD_OPSEC :=
      (hlater.2 _ (by decide)).trans (hinput.2 _ (by decide))
    have hhigh : u.rd (R.MOD_OPSEC + 4) = (v.wr64 R.MOD_OPSEC v.nv.opsec).rd (R.MOD_OPSEC + 4) :=
      (hlater.2 _ (by decide)).trans (hinput.2 _ (by decide))
    rw [State.rd64, hlow, hhigh, ← State.rd64, State.rd64_wr64 _ _ (by rw [hopsec]; omega), hunv]
  case watts =>
    rw [hlater.get (by decide), hy, State.get_put_ne _ _ (by decide), hx, State.get_put_same _ _ (by decide)]
    exact Nat.mod_eq_of_lt w.isLt
  case most =>
    rw [hlater.get (by decide), hy, State.get_put_same _ _ (by decide), hmax]
    exact Nat.mod_eq_of_lt hbound
  case bank =>
    rw [hu, State.on, State.get_put_ne _ _ (by decide), ← State.on]
    exact State.on_putB_same z _ (by decide) rfl

theorem exec_slotIdRead_valid {p : Fin 16} {t : Nat} {s : State} (hpd : s.pd 0 = true) (hstage : s.get F.MOD_STATUS_STAGE = 0)
    (hopen : s.on F.MOD_SLOT_VALID = false) (hheld : s.twin.resetHeld = false) (hpins : p.val = 10 ∨ p.val = 11) :
    exec (.slotIdRead p t) s = .next ((((s.at t).put F.MOD_SLOT_SLOT_ID p.val).put F.MOD_SLOT_VALID 1).putB F.TWN_STATUS_TWIN_B
      (decide (p.val = 11))) := by
  show execSlotIdRead p t s = _
  unfold execSlotIdRead
  dsimp only
  rw [if_neg, if_pos hpins]
  rw [show (s.at t).pd 0 = true from hpd, show (s.at t).get F.MOD_STATUS_STAGE = 0 from hstage,
    show (s.at t).on F.MOD_SLOT_VALID = false from hopen, State.at_twin, hheld]
  decide

theorem exec_slotIdRead_invalid {p : Fin 16} {t : Nat} {s : State} (hpd : s.pd 0 = true) (hstage : s.get F.MOD_STATUS_STAGE = 0)
    (hopen : s.on F.MOD_SLOT_VALID = false) (hheld : s.twin.resetHeld = false) (ha : p.val ≠ 10) (hb : p.val ≠ 11)
    (hfirst : s.pwr.slotBad = false) :
    exec (.slotIdRead p t) s = .next (((s.at t).pw fun p => { p with slotBad := true }).raise 0x0004 islSup []) := by
  show execSlotIdRead p t s = _
  unfold execSlotIdRead
  dsimp only
  rw [if_neg, if_neg (by omega), if_neg (by rw [State.at_pwr, hfirst]; decide)]
  rw [show (s.at t).pd 0 = true from hpd, show (s.at t).get F.MOD_STATUS_STAGE = 0 from hstage,
    show (s.at t).on F.MOD_SLOT_VALID = false from hopen, State.at_twin, hheld]
  decide

theorem exec_bankChargeTimeout_due {e : Fin 256} {t : Nat} {s : State} (hpd : s.pd 0 = true)
    (hstage : s.get F.MOD_STATUS_STAGE = 0) (hlow : e.val < 56) (hfeed : s.feedOk = true)
    (hdue : s.pwr.feedAt + 1000000000 ≤ max s.now t) : exec (.bankChargeTimeout e t) s =
    .next ((((s.at t).put F.PWR_HOLDUP_BANK_DJ e.val).put F.PWR_HOLDUP_BANK_OK 0).pw fun p => { p with bankLow := true }) := by
  have hkept (f : Fld) (hf : F.PWR_HOLDUP_BANK_DJ.off ≠ f.off) : ((s.at t).put F.PWR_HOLDUP_BANK_DJ e.val).get f = s.get f :=
    (State.get_put_ne _ _ (.inl hf)).trans rfl
  have hfeedKept : ((s.at t).put F.PWR_HOLDUP_BANK_DJ e.val).feedOk = true := by
    rw [State.feedOk, State.on, State.on, hkept _ (by decide), hkept _ (by decide)]
    exact hfeed
  show execBankChargeTimeout e t s = _
  unfold execBankChargeTimeout
  dsimp only
  rw [if_neg (by rw [show (s.at t).pd 0 = true from hpd]; decide), if_pos ⟨(hkept _ (by decide)).trans hstage, hlow, hfeedKept, hdue⟩]

/-- A valid SLOT_ID is latched (16 R698). -/
theorem exec_slotIdRead_latches {p : Fin 16} {t : Nat} {s : State} (hpd : s.pd 0 = true) (hstage : s.get F.MOD_STATUS_STAGE = 0)
    (hopen : s.on F.MOD_SLOT_VALID = false) (hheld : s.twin.resetHeld = false) (hpins : p.val = 10 ∨ p.val = 11) :
    Steps (exec (.slotIdRead p t) s) fun u => u.get F.MOD_SLOT_SLOT_ID = p.val ∧ u.on F.MOD_SLOT_VALID = true ∧
      u.twinB = decide (p.val = 11) ∧ SameRegs s u [R.MOD_SLOT, R.TWN_STATUS] ∧ u.recd = s.recd := by
  obtain ⟨v, hv⟩ : ∃ v, v = ((s.at t).put F.MOD_SLOT_SLOT_ID p.val).put F.MOD_SLOT_VALID 1 := ⟨_, rfl⟩
  have honly : OnlyRegs (s.at t) (v.putB F.TWN_STATUS_TWIN_B (decide (p.val = 11))) [R.MOD_SLOT, R.TWN_STATUS] := by
    rw [hv]
    exact OnlyRegs.putB _ (by decide) (OnlyRegs.put _ (by decide) (OnlyRegs.put _ (by decide) (OnlyRegs.refl _ _)))
  have hid : (v.putB F.TWN_STATUS_TWIN_B (decide (p.val = 11))).get F.MOD_SLOT_SLOT_ID = p.val := by
    rw [State.putB, State.get_put_ne _ _ (by decide), hv, State.get_put_ne _ _ (by decide), State.get_put_same _ _ (by decide)]
    exact Nat.mod_eq_of_lt p.isLt
  have hvalid : (v.putB F.TWN_STATUS_TWIN_B (decide (p.val = 11))).get F.MOD_SLOT_VALID = 1 := by
    rw [State.putB, State.get_put_ne _ _ (by decide), hv, State.get_put_same _ _ (by decide)]
    rfl
  rw [exec_slotIdRead_valid hpd hstage hopen hheld hpins, ← hv]
  exact ⟨_, rfl, hid, by rw [State.on, hvalid]; rfl, State.on_putB_same v _ (by decide) rfl, honly.2, honly.recd⟩

/-- The bank's time is over with a bank that is not charged (16 R701). -/
theorem exec_bankChargeTimeout_notes {e : Fin 256} {t : Nat} {s : State} (hpd : s.pd 0 = true)
    (hstage : s.get F.MOD_STATUS_STAGE = 0) (hlow : e.val < 56) (hfeed : s.feedOk = true)
    (hdue : s.pwr.feedAt + 1000000000 ≤ max s.now t) : Steps (exec (.bankChargeTimeout e t) s) fun u => u.pwr.bankLow = true ∧
      u.get F.PWR_HOLDUP_BANK_OK = 0 ∧ u.get F.PWR_HOLDUP_BANK_DJ = e.val ∧ SameRegs s u [R.PWR_HOLDUP] := by
  obtain ⟨v, hv⟩ : ∃ v, v = ((s.at t).put F.PWR_HOLDUP_BANK_DJ e.val).put F.PWR_HOLDUP_BANK_OK 0 := ⟨_, rfl⟩
  have hok : v.get F.PWR_HOLDUP_BANK_OK = 0 := by
    rw [hv, State.get_put_same _ _ (by decide), Nat.zero_mod]
  have henergy : v.get F.PWR_HOLDUP_BANK_DJ = e.val := by
    rw [hv, State.get_put_ne _ _ (by decide), State.get_put_same _ _ (by decide)]
    exact Nat.mod_eq_of_lt e.isLt
  have honly : OnlyRegs (s.at t) v [R.PWR_HOLDUP] := by
    rw [hv]
    exact OnlyRegs.put _ (by decide) (OnlyRegs.put _ (by decide) (OnlyRegs.refl _ _))
  rw [exec_bankChargeTimeout_due hpd hstage hlow hfeed hdue, ← hv]
  exact ⟨_, rfl, rfl, hok, henergy, honly.2⟩

end Sys2Proof.Machine
end

section
/-! Stages, their failures and the domains that fail (16 R690 to R697), and the start-up commands together. -/
namespace Sys2Proof.Machine

/-! ## Stages end (16 R695) -/

theorem exec_stageEnd_s0 {e : Fin 256} {tr : Fin 16} {sp : Option (Fin 16)} {t : Nat} {s : State}
    (hstage : s.get F.MOD_STATUS_STAGE = 0) : exec (.stageEnd e tr sp t) s =
    .next (if s.s0Done e.val then (s.at t).toS1 e.val else s.at t) := by
  show execStageEnd e tr sp t s = _
  unfold execStageEnd
  dsimp only
  rw [show (s.at t).get F.MOD_STATUS_STAGE = 0 from hstage]
  rfl

theorem exec_stageEnd_s1 {e : Fin 256} {tr : Fin 16} {sp : Option (Fin 16)} {t : Nat} {s : State}
    (hstage : s.get F.MOD_STATUS_STAGE = 1) : exec (.stageEnd e tr sp t) s = .next ((s.at t).toS2 tr.val) := by
  show execStageEnd e tr sp t s = _
  unfold execStageEnd
  dsimp only
  rw [show (s.at t).get F.MOD_STATUS_STAGE = 1 from hstage]
  rfl

theorem exec_stageEnd_reduced {e : Fin 256} {tr : Fin 16} {sp : Option (Fin 16)} {t : Nat} {s : State}
    (hstage : s.get F.MOD_STATUS_STAGE = 2) (hreduced : s.on F.MOD_STATUS_REDUCED = true) :
    exec (.stageEnd e tr sp t) s = .next (s.at t) := by
  show execStageEnd e tr sp t s = _
  unfold execStageEnd
  dsimp only
  rw [show (s.at t).get F.MOD_STATUS_STAGE = 2 from hstage]
  exact congrArg _ (if_pos (.inl hreduced))

theorem exec_stageEnd_s3 {e : Fin 256} {tr : Fin 16} {t : Nat} {s : State} (hstage : s.get F.MOD_STATUS_STAGE = 3) :
    exec (.stageEnd e tr none t) s = .next (((s.at t).put F.EVT_STATUS_HBM_RING 1).beginStage 4) := by
  show execStageEnd e tr none t s = _
  unfold execStageEnd
  dsimp only
  rw [show (s.at t).get F.MOD_STATUS_STAGE = 3 from hstage]
  rfl

/-- S0 ends: S1 begins with its domains, the recorder and the service start that was asked for (16 R707). -/
theorem State.toS1_spec {s : State} (hstage : s.get F.MOD_STATUS_STAGE = 0) (e : Nat) : (s.toS1 e).get F.MOD_STATUS_STAGE = 1 ∧
    (∀ d ∈ [22, 7, 6, 18, 1], (s.toS1 e).pd d = true) ∧ (s.toS1 e).on F.EVT_STATUS_RUNNING = true ∧
    (s.toS1 e).pwr.service = s.keep.svcNext := by
  obtain ⟨v, hv⟩ : ∃ v, v = (s.put F.PWR_HOLDUP_BANK_DJ e).putB F.PWR_HOLDUP_BANK_OK (decide (e ≥ 56)) := ⟨_, rfl⟩
  have hvstage : v.get F.MOD_STATUS_STAGE = 0 := by
    rw [hv, State.putB, State.get_put_ne _ _ (by decide), State.get_put_ne _ _ (by decide), hstage]
  obtain ⟨hbegun, hdomains, hrunning⟩ := State.startS1_spec hvstage
  obtain ⟨w, hw⟩ : ∃ w, w = v.startS1 := ⟨_, rfl⟩
  have htoS1 : s.toS1 e = w.pw fun p => { p with service := s.keep.svcNext } := by
    rw [hw, hv]
    rfl
  rw [← hw] at hbegun hdomains hrunning
  rw [htoS1]
  exact ⟨hbegun, hdomains, hrunning, rfl⟩

/-- S3 ends without a spared pair: the HBM ring is there, and S4 begins (16 R695). -/
theorem State.toS4_spec {s : State} (hstage : s.get F.MOD_STATUS_STAGE = 3) :
    ((s.put F.EVT_STATUS_HBM_RING 1).beginStage 4).get F.MOD_STATUS_STAGE = 4 ∧
    ((s.put F.EVT_STATUS_HBM_RING 1).beginStage 4).on F.EVT_STATUS_HBM_RING = true := by
  obtain ⟨v, hv⟩ : ∃ v, v = s.put F.EVT_STATUS_HBM_RING 1 := ⟨_, rfl⟩
  have hvstage : v.get F.MOD_STATUS_STAGE = 3 := by rw [hv, State.get_put_ne _ _ (by decide), hstage]
  have hkept := hvstage ▸ v.beginStage_flds 4
  have hring : (v.beginStage 4).get F.EVT_STATUS_HBM_RING = 1 := by
    rw [hkept _ (by decide), hv, State.get_put_same _ _ (by decide)]
    rfl
  rw [← hv]
  refine ⟨v.beginStage_stage (by decide), ?_⟩
  rw [State.on, hring]
  rfl

/-! ## Failures at start-up (16 R696, R697) -/

/-- What the note of a bring-up failure shows. -/
theorem State.failNote_spec {s : State} (hroom : s.Room islSup) {d : Nat} (hd : d < 24) :
    getBits (s.failNote d).nv.causeWord 8 3 = s.get F.MOD_STATUS_STAGE ∧ getBits (s.failNote d).nv.causeWord 12 5 = d ∧
    (s.failNote d).get F.PWR_LAST_KIND = 4 ∧ (s.failNote d).get F.PWR_LAST_STAGE = s.get F.MOD_STATUS_STAGE ∧
    Raises s (s.failNote d) 0x0002 islSup (le 1 (s.get F.MOD_STATUS_STAGE) ++ le 1 d) := by
  obtain ⟨st, hst⟩ : ∃ st, st = s.get F.MOD_STATUS_STAGE := ⟨_, rfl⟩
  have hbound : st < 2 ^ 3 := hst ▸ Nat.mod_lt _ (by decide)
  obtain ⟨w, hw⟩ : ∃ w : Word, w = putBits (putBits (putBits s.nv.causeWord 8 3 st) 11 1 1) 12 5 d := ⟨_, rfl⟩
  obtain ⟨v, hv⟩ : ∃ v, v = (s.inNv fun n => { n with causeWord := w }).wr R.MOD_RESET_CAUSE w := ⟨_, rfl⟩
  obtain ⟨x, hx⟩ : ∃ x, x = ((v.put F.PWR_LAST_PD d).put F.PWR_LAST_KIND 4).put F.PWR_LAST_STAGE st := ⟨_, rfl⟩
  have hnote : s.failNote d = x.raise 0x0002 islSup (le 1 st ++ le 1 d) := by
    rw [hx, hv, hw, hst]
    rfl
  have hparts : x.recd = s.recd ∧ x.nv.causeWord = w := by
    rw [hx, hv]
    exact ⟨rfl, rfl⟩
  obtain ⟨hrecd, hcause⟩ := hparts
  obtain ⟨hraises, hregs⟩ := State.raise_after hroom hrecd 0x0002 (le 1 st ++ le 1 d)
  rw [← hst, hnote]
  refine ⟨?stage, ?domain, ?kind, ?last, hraises⟩
  case stage =>
    rw [State.raise_nv, hcause, hw, getBits_putBits_ne _ _ (by decide) (by decide), getBits_putBits_ne _ _ (by decide) (by decide),
      getBits_putBits _ _ (by decide), Nat.mod_eq_of_lt hbound]
  case domain =>
    rw [State.raise_nv, hcause, hw, getBits_putBits _ _ (by decide)]
    exact Nat.mod_eq_of_lt (by omega)
  case kind =>
    rw [State.get_of_regs hregs, hx, State.get_put_ne _ _ (by decide), State.get_put_same _ _ (by decide)]
    rfl
  case last =>
    rw [State.get_of_regs hregs, hx, State.get_put_same _ _ (by decide)]
    exact Nat.mod_eq_of_lt hbound

/-- A failure in S5 is noted, and nothing else is done (16 R696). -/
theorem State.bringUpFail_s5 {s : State} (hstage : s.get F.MOD_STATUS_STAGE = 5) (d : Nat) : s.bringUpFail d = s.failNote d := by
  unfold State.bringUpFail
  dsimp only
  rw [hstage, if_neg (by decide), if_neg (by decide)]

theorem exec_stageTimeout_s0 {d : Fin 24} {b : Bool} {t : Nat} {s : State} (hstage : s.get F.MOD_STATUS_STAGE = 0) :
    exec (.stageTimeout d b t) s = .next (s.at t) := by
  show execStageTimeout d b t s = _
  unfold execStageTimeout
  dsimp only
  rw [show (s.at t).get F.MOD_STATUS_STAGE = 0 from hstage, if_neg fun h => absurd h.1 (by decide)]

theorem exec_stageTimeout_s5 {d : Fin 24} {b : Bool} {t : Nat} {s : State} (hstage : s.get F.MOD_STATUS_STAGE = 5)
    (hreduced : s.on F.MOD_STATUS_REDUCED = false) (hdue : b = true ∨ s.stageEndsAt < max s.now t) :
    exec (.stageTimeout d b t) s = .next ((s.at t).failNote d.val) := by
  show execStageTimeout d b t s = _
  unfold execStageTimeout
  dsimp only
  rw [show (s.at t).get F.MOD_STATUS_STAGE = 5 from hstage, State.bringUpFail_s5 (s := s.at t) hstage,
    if_pos ⟨by decide, by decide, by rw [show (s.at t).on F.MOD_STATUS_REDUCED = false from hreduced]; decide, hdue⟩]

/-- A domain of the stage outside reduced service is one that may be tried (16 R697). -/
theorem State.tried {s : State} {d : Nat} (hdomain : d ∈ stageDomains (s.get F.MOD_STATUS_STAGE))
    (hreduced : s.on F.MOD_STATUS_REDUCED = false) (t : Nat) : ¬ ((!(stageDomains ((s.at t).get F.MOD_STATUS_STAGE)).contains d) = true ∨
      (s.at t).on F.MOD_STATUS_REDUCED = true) := by
  rw [show (s.at t).on F.MOD_STATUS_REDUCED = false from hreduced,
    show (stageDomains ((s.at t).get F.MOD_STATUS_STAGE)).contains d = true from List.contains_iff_mem.2 hdomain]
  decide

theorem exec_domainPowerUpRetry_powers {d : Fin 24} {t : Nat} {s : State}
    (hdomain : d.val ∈ stageDomains (s.get F.MOD_STATUS_STAGE)) (hreduced : s.on F.MOD_STATUS_REDUCED = false)
    (hfirst : d.val ∉ s.pwr.retried) : exec (.domainPowerUpRetry d true t) s =
    .next (((s.at t).pw fun p => { p with retried := d.val :: p.retried }).power [d.val]) := by
  show execDomainPowerUpRetry d true t s = _
  unfold execDomainPowerUpRetry
  dsimp only
  rw [if_neg (State.tried hdomain hreduced t), State.at_pwr, if_neg fun h => hfirst (List.contains_iff_mem.1 h), if_pos rfl]

theorem exec_domainPowerUpRetry_again {d : Fin 24} {ok : Bool} {t : Nat} {s : State}
    (hdomain : d.val ∈ stageDomains (s.get F.MOD_STATUS_STAGE)) (hreduced : s.on F.MOD_STATUS_REDUCED = false)
    (hagain : d.val ∈ s.pwr.retried) : exec (.domainPowerUpRetry d ok t) s = .next ((s.at t).bringUpFail d.val) := by
  show execDomainPowerUpRetry d ok t s = _
  unfold execDomainPowerUpRetry
  dsimp only
  rw [if_neg (State.tried hdomain hreduced t), if_pos]
  exact List.contains_iff_mem.2 hagain

theorem exec_bringUpRetry_due {t : Nat} {s : State} (hstage : s.get F.MOD_STATUS_STAGE = 0) (hpd : s.pd 1 = true)
    (hfailed : 0 < s.pwr.s1Failures) (hfew : s.pwr.s1Failures < 3) (hdue : s.pwr.stageAt + 10000000000 ≤ max s.now t) :
    exec (.bringUpRetry t) s = .next (((s.at t).beginS0 8).pw fun p => { p with s1Failures := s.pwr.s1Failures }) := by
  show execBringUpRetry t s = _
  unfold execBringUpRetry
  dsimp only
  rw [if_pos ⟨hstage, hpd, hfailed, hfew, hdue⟩, State.at_pwr]

theorem exec_bringUpRetry_third {t : Nat} {s : State} (h : 3 ≤ s.pwr.s1Failures) : exec (.bringUpRetry t) s = .next (s.at t) := by
  show execBringUpRetry t s = _
  unfold execBringUpRetry
  dsimp only
  rw [if_neg]
  rintro ⟨-, -, -, hfew, -⟩
  rw [State.at_pwr] at hfew
  omega

/-! ## Domains that fail (16 R692 to R694) -/

/-- A domain that is switched off shows so, with its kind; role, image and memory stay. -/
theorem State.switchOff_spec (s : State) {d kind : Nat} (hd : d < 24) (hkind : kind < 8) : (s.switchOff d kind).pd d = false ∧
    ((s.switchOff d kind).rd R.PWR_FAULT).getLsbD d = true ∧ (s.switchOff d kind).get F.PWR_LAST_PD = d ∧
    (s.switchOff d kind).get F.PWR_LAST_KIND = kind ∧ (s.switchOff d kind).role = s.role ∧ (s.switchOff d kind).img = s.img ∧
    (s.switchOff d kind).mem = s.mem := by
  obtain ⟨v, hv⟩ : ∃ v, v = s.setBit R.PWR_ON d false := ⟨_, rfl⟩
  obtain ⟨w, hw⟩ : ∃ w, w = v.setBit R.PWR_FAULT d true := ⟨_, rfl⟩
  obtain ⟨x, hx⟩ : ∃ x, x = ((w.put F.PWR_LAST_PD d).put F.PWR_LAST_KIND kind).put F.PWR_LAST_STAGE (s.get F.MOD_STATUS_STAGE) :=
    ⟨_, rfl⟩
  have hoff : s.switchOff d kind = x.raise 0xD010 islSup (le 1 d ++ le 4 kind) := by
    rw [hx, hw, hv]
    rfl
  have hlast : OnlyRegs w x [R.PWR_LAST] := by
    rw [hx]
    exact OnlyRegs.put _ (by decide) (OnlyRegs.put _ (by decide) (OnlyRegs.put _ (by decide) (OnlyRegs.refl w _)))
  have hbits : OnlyRegs s w [R.PWR_ON, R.PWR_FAULT] := by
    rw [hw, hv]
    exact OnlyRegs.setBit _ _ (by decide) (OnlyRegs.setBit _ _ (by decide) (OnlyRegs.refl s _))
  have hparts : x.img = s.img ∧ x.mem = s.mem := by
    rw [hlast.1, hbits.1]
    exact ⟨rfl, rfl⟩
  obtain ⟨himg, hmem⟩ := hparts
  rw [hoff]
  refine ⟨?off, ?fault, ?domain, ?kind, ?role, (State.raise_img ..).trans himg, (State.raise_mem ..).trans hmem⟩
  case off =>
    have hpower : (x.raise 0xD010 islSup (le 1 d ++ le 4 kind)).rd R.PWR_ON = v.rd R.PWR_ON :=
      (State.rd_raise _ _ _ _ (by decide) (by decide)).trans <| (hlast.2 _ (by decide)).trans <| by
        rw [hw, State.setBit, State.rd_wr_ne _ _ (by decide)]
    rw [State.pd_of_rd hpower, hv]
    exact State.setBit_getLsbD s R.PWR_ON false (by omega)
  case fault =>
    rw [State.rd_raise _ _ _ _ (by decide) (by decide), hlast.2 _ (by decide), hw]
    exact State.setBit_getLsbD v R.PWR_FAULT true (by omega)
  case domain =>
    rw [State.get_raise _ _ _ _ (by decide) (by decide), hx, State.get_put_ne _ _ (by decide), State.get_put_ne _ _ (by decide),
      State.get_put_same _ _ (by decide)]
    exact Nat.mod_eq_of_lt (hd.trans (by decide))
  case kind =>
    rw [State.get_raise _ _ _ _ (by decide) (by decide), hx, State.get_put_ne _ _ (by decide), State.get_put_same _ _ (by decide)]
    exact Nat.mod_eq_of_lt hkind
  case role =>
    rw [State.role, State.get_raise _ _ _ _ (by decide) (by decide), hlast.get (by decide), hbits.get (by decide), State.role]

/-- One powered domain that fails outside hold-up. -/
theorem exec_domainFault_one {d : Fin 24} {k : Fin 4} {t : Nat} {s : State} (hk : k.val ≠ 0)
    (hholdup : s.on F.MOD_STATUS_HOLDUP = false) (hpd : s.pd d.val = true) : exec (.domainFault [(d, k)] t) s =
    .next ((((s.at t).switchOff d.val k.val).each ([d.val].filter nonEssential) State.lostNonEssential).domainResponse [d.val]) := by
  have hfilter : [(d, k)].filter (fun e => (s.at t).pd e.1.val && decide (e.2.val ≠ 0)) = [(d, k)] :=
    List.filter_cons_of_pos (by rw [show (s.at t).pd d.val = true from hpd, decide_eq_true hk]; rfl)
  show execDomainFault [(d, k)] t s = _
  unfold execDomainFault
  dsimp only
  rw [if_neg (by rw [show (s.at t).on F.MOD_STATUS_HOLDUP = false from hholdup]; decide), hfilter]
  rfl

theorem exec_domainFault_holdup {l : List (Fin 24 × Fin 4)} {t : Nat} {s : State} (h : s.on F.MOD_STATUS_HOLDUP = true) :
    exec (.domainFault l t) s = .next (s.at t) := by
  show execDomainFault l t s = _
  unfold execDomainFault
  dsimp only
  rw [if_pos (show (s.at t).on F.MOD_STATUS_HOLDUP = true from h)]

/-- The loss of PD23 is outlived: a raise, and no other response (16 R690, R693). -/
theorem State.lost23 (s : State) : (s.each ([23].filter nonEssential) State.lostNonEssential).domainResponse [23] =
    s.raise 0xD011 islSup [] := by
  have hlost : s.each ([23].filter nonEssential) State.lostNonEssential = s.raise 0xD011 islSup [] := by rfl
  obtain ⟨v, hv⟩ : ∃ v, v = s.raise 0xD011 islSup [] := ⟨_, rfl⟩
  rw [hlost, ← hv, State.domainResponse, if_neg (by decide), if_neg (by decide),
    if_neg fun h => absurd h.2.2 (by decide), if_neg fun h => absurd h.2 (by decide)]
  have houtlived : [23].any v.essential = false := by
    rw [List.any_cons, List.any_nil, Bool.or_false, State.essential, if_neg (by decide)]
    decide
  rw [if_neg (by rw [houtlived]; decide)]

/-- The loss of PD22 in an active restarts it with cause 6, during an image restart too (19 R787, 02 R100). -/
theorem State.lost22 {s : State} (hactive : s.isActive = true) :
    ((s.each ([22].filter nonEssential) State.lostNonEssential).domainResponse [22]).Restarted 6 := by
  have hlost : s.each ([22].filter nonEssential) State.lostNonEssential = s := by rfl
  rw [hlost, State.domainResponse, if_neg (by decide), if_neg (by decide)]
  split
  · exact State.restart_restarted s (by decide)
  · rw [if_pos ⟨hactive, by decide⟩]
    exact State.restart_restarted _ (by decide)

/-- A domain that comes up at its second attempt (16 R697). -/
theorem exec_domainPowerUpRetry_spec {d : Fin 24} {t : Nat} {s : State}
    (hdomain : d.val ∈ stageDomains (s.get F.MOD_STATUS_STAGE)) (hreduced : s.on F.MOD_STATUS_REDUCED = false)
    (hfirst : d.val ∉ s.pwr.retried) : Steps (exec (.domainPowerUpRetry d true t) s) fun u =>
      u.pd d.val = true ∧ d.val ∈ u.pwr.retried ∧ u.recd = s.recd ∧ SameRegs s u [R.PWR_ON] := by
  obtain ⟨v, hv⟩ : ∃ v, v = (s.at t).pw fun p => { p with retried := d.val :: p.retried } := ⟨_, rfl⟩
  have hvparts : v.recd = s.recd ∧ d.val ∈ v.pwr.retried := by
    rw [hv]
    exact ⟨rfl, List.mem_cons_self ..⟩
  have hvregs : v.regs = s.regs := by rw [hv, State.pw_regs, State.at_regs]
  have hflag : (flags ([d.val].map fun d => (d, true))).testBit d.val = true := by
    simp [flags, Nat.testBit_two_pow_self]
  have honly := v.power_only [d.val]
  have hpwr : (v.power [d.val]).pwr = v.pwr := by rw [honly.1]
  rw [exec_domainPowerUpRetry_powers hdomain hreduced hfirst, ← hv]
  refine ⟨_, rfl, State.pd_power v (by omega) hflag, ?_, honly.recd.trans hvparts.1, ?_⟩
  · rw [hpwr]
    exact hvparts.2
  · exact SameRegs.trans (SameRegs.of_regs hvregs (SameRegs.refl s _)) honly.2

/-- PD23 fails: it is off, and the module goes on (16 R690, R692, R693). -/
theorem exec_domainFault_outlived {k : Fin 4} {t : Nat} {s : State} (hk : k.val ≠ 0)
    (hholdup : s.on F.MOD_STATUS_HOLDUP = false) (hpd : s.pd 23 = true) : Steps (exec (.domainFault [(23, k)] t) s) fun u =>
      u.pd 23 = false ∧ (u.rd R.PWR_FAULT).getLsbD 23 = true ∧ u.get F.PWR_LAST_PD = 23 ∧ u.get F.PWR_LAST_KIND = k.val ∧
      u.role = s.role ∧ u.img = s.img ∧ u.mem = s.mem := by
  obtain ⟨hoff, hfault, hdomain, hkind, hrole, himg, hmem⟩ :=
    (s.at t).switchOff_spec (d := 23) (kind := k.val) (by decide) (by omega)
  obtain ⟨v, hv⟩ : ∃ v, v = (s.at t).switchOff 23 k.val := ⟨_, rfl⟩
  rw [← hv] at hoff hfault hdomain hkind hrole himg hmem
  have hexec : exec (.domainFault [(23, k)] t) s = .next (v.raise 0xD011 islSup []) := by
    rw [exec_domainFault_one hk hholdup hpd, hv]
    exact congrArg _ (State.lost23 _)
  rw [hexec]
  refine ⟨_, rfl, ?_, ?_, ?_, ?_, ?_, (State.raise_img ..).trans himg, (State.raise_mem ..).trans hmem⟩
  · rw [State.pd_of_rd (State.rd_raise _ _ _ _ (by decide) (by decide)), hoff]
  · rw [State.rd_raise _ _ _ _ (by decide) (by decide), hfault]
  · rw [State.get_raise _ _ _ _ (by decide) (by decide), hdomain]
  · rw [State.get_raise _ _ _ _ (by decide) (by decide), hkind]
  · rw [State.role, State.get_raise _ _ _ _ (by decide) (by decide), ← State.role]
    exact hrole

/-- PD22 fails in an active (19 R787). -/
theorem exec_domainFault_fatal {k : Fin 4} {t : Nat} {s : State} (hk : k.val ≠ 0) (hholdup : s.on F.MOD_STATUS_HOLDUP = false)
    (hpd : s.pd 22 = true) (hactive : s.isActive = true) :
    Steps (exec (.domainFault [(22, k)] t) s) fun u => u.Restarted 6 := by
  obtain ⟨-, -, -, -, hrole, -, -⟩ := (s.at t).switchOff_spec (d := 22) (kind := k.val) (by decide) (by omega)
  obtain ⟨v, hv⟩ : ∃ v, v = (s.at t).switchOff 22 k.val := ⟨_, rfl⟩
  rw [← hv] at hrole
  have hvactive : v.isActive = true := by
    rw [State.isActive, hrole]
    exact hactive
  rw [exec_domainFault_one hk hholdup hpd]
  refine ⟨_, rfl, ?_⟩
  rw [show (s.at t).switchOff (22 : Fin 24).val k.val = v from hv.symm]
  exact State.lost22 hvactive

/-! ## The commands of start-up -/

/-- Settles O55, command by command: feeds and measurements are writes of registers whose fields stay apart, S0 ends into S1 by one
rule, a power-up or restart comes to S0 from a cleared module, and a domain is switched off by one rule. -/
theorem startUp : Obligations.StartUp := by
  unfold Obligations.StartUp
  refine ⟨?feedBack, ?feedFirst, ?feedGone, fun prof t s => exec_pd0PowerUp_spec prof t s,
    fun w a b e prof t s hpd => exec_opsecTick_spec w a b e prof t hpd, ?slotValid, ?slotInvalid, ?bankLow, ?endS0, ?waitS0, ?endS1,
    ?endS3, ?holdS2, ?timeoutS0, ?timeoutS5, ?retryPowers, ?retryAgain, ?bringUpAgain, ?bringUpThird, ?faultHoldup, ?faultOutlived,
    ?faultFatal, ?feedInside, ?feedOutside⟩
  case feedBack => exact fun dv t s hpd hgood hlost hroom => exec_feedQualified_back hpd hgood hlost hroom
  case feedFirst => exact fun dv t s hpd hgood hkept => exec_feedQualified_first hpd hgood hkept
  case feedGone => exact fun dv t s hpd hout hok hroom => exec_feedLost_gone hpd hout hok hroom
  case slotValid => exact fun t p s hpd hstage hopen hheld hpins => exec_slotIdRead_latches hpd hstage hopen hheld hpins
  case slotInvalid =>
    intro t p s hpd hstage hopen hheld ha hb hfirst hroom
    rw [exec_slotIdRead_invalid hpd hstage hopen hheld ha hb hfirst]
    exact ⟨_, rfl, State.raise_after (s := s) (t := (s.at t).pw fun p => { p with slotBad := true }) hroom rfl _ _⟩
  case bankLow => exact fun e t s hpd hstage hlow hfeed hdue => exec_bankChargeTimeout_notes hpd hstage hlow hfeed hdue
  case endS0 =>
    intro e tr sp t s hstage hdone
    rw [exec_stageEnd_s0 hstage, if_pos hdone]
    exact ⟨_, rfl, State.toS1_spec (s := s.at t) hstage e.val⟩
  case waitS0 =>
    intro e tr sp t s hstage hopen
    rw [exec_stageEnd_s0 hstage, if_neg (by rw [hopen]; decide)]
  case endS1 => exact fun e tr sp t s hstage => exec_stageEnd_s1 hstage
  case endS3 =>
    intro e tr t s hstage
    rw [exec_stageEnd_s3 hstage]
    exact ⟨_, rfl, State.toS4_spec (s := s.at t) hstage⟩
  case holdS2 => exact fun e tr sp t s hstage hreduced => exec_stageEnd_reduced hstage hreduced
  case timeoutS0 => exact fun d b t s hstage => exec_stageTimeout_s0 hstage
  case timeoutS5 =>
    intro d b t s hstage hreduced hdue hroom
    obtain ⟨hfail, hdomain, hkind, hlast, hraises⟩ := State.failNote_spec (s := s.at t) hroom d.isLt
    rw [show (s.at t).get F.MOD_STATUS_STAGE = 5 from hstage] at hfail hlast hraises
    rw [exec_stageTimeout_s5 hstage hreduced hdue]
    exact ⟨_, rfl, hfail, hdomain, hkind, hlast, hraises⟩
  case retryPowers => exact fun d t s hdomain hreduced hfirst => exec_domainPowerUpRetry_spec hdomain hreduced hfirst
  case retryAgain => exact fun d ok t s hdomain hreduced hagain => exec_domainPowerUpRetry_again hdomain hreduced hagain
  case bringUpAgain =>
    intro t s hstage hpd hfailed hfew hdue
    obtain ⟨v, hv⟩ : ∃ v, v = (s.at t).beginS0 8 := ⟨_, rfl⟩
    have hrestarted : v.Restarted 8 := hv ▸ (s.at t).beginS0_restarted (by decide)
    rw [exec_bringUpRetry_due hstage hpd hfailed hfew hdue, ← hv]
    exact ⟨_, rfl, hrestarted, rfl⟩
  case bringUpThird => exact fun t s h => exec_bringUpRetry_third h
  case faultHoldup => exact fun l t s h => exec_domainFault_holdup h
  case faultOutlived => exact fun k t s hk hholdup hpd => exec_domainFault_outlived hk hholdup hpd
  case faultFatal => exact fun k t s hk hholdup hpd hactive => exec_domainFault_fatal hk hholdup hpd hactive
  case feedInside => exact fun fd dv t s hlow hhigh => exec_feedLost_inside hlow hhigh
  case feedOutside => exact fun fd dv t s h => exec_feedQualified_outside h

end Sys2Proof.Machine
end
